-- ==== Sys2Proof/Word.lean ====
section
/-!
DEFINITION. The plainest types of the model: bytes, 64-bit words, descriptors, sparse maps keyed by number, and
the answers that the outside world gives a command (what a read of host memory returned, how a device answered).
Numbers that the manual counts or adds are `Nat`; words software sees as bits are `BitVec` (00, R4, R5).
-/
namespace Sys2Proof

abbrev Byte := BitVec 8
abbrev W64 := BitVec 64
abbrev W32 := BitVec 32

/-- A sparse table keyed by number: keys strictly rising, no entry equal to the table's default value. -/
abbrev NMap (V : Type) := List (Nat × V)

/-- What a read the block issued to host memory answered (R468 to R471). -/
inductive HRead where
  /-- every completion arrived; the bytes in address order -/
  | ok (bytes : List Byte)
  /-- the read ended in completion timeout (R470) -/
  | timeout
  /-- a completion arrived poisoned, which counts as a timeout (R471) -/
  | poisoned
deriving DecidableEq, Repr

/-- What a read of accelerator memory through a port answered (R95): bytes, or a status other than 0x00. -/
inductive ARead where
  | ok (bytes : List Byte)
  | bad (status : Nat)
deriving DecidableEq, Repr

/-- What a storage backend or a remote target answered: bytes, or a failure by name (13). -/
inductive BRead where
  | ok (bytes : List Byte)
  /-- the command failed at the target with that status field: SC, SCT in bits 10:8, DNR in bit 14 -/
  | failed (status : Nat)
  /-- the backend is not up -/
  | down
deriving DecidableEq, Repr

/-- What the check code of a stack codeword found (R499). -/
inductive Codeword where
  | good | corrected | uncorrectable
deriving DecidableEq, Repr

/-- What comes back for a PULL: a host's answer, elements and then scales, and what the check codes of a stack found in each (R148). -/
structure PullRead where
  host : HRead := .ok []
  elems : Codeword := .good
  scales : Codeword := .good
deriving DecidableEq, Repr

/-- What an access of a control core beyond its tile answered (R187). -/
inductive LoadRet where
  | ok (v : BitVec 64)
  /-- the stack data was uncorrectable -/
  | uncorrectable
  /-- the host read ended in completion timeout, or its completion was poisoned (R471) -/
  | timeout
deriving DecidableEq, Repr

/-- A RoCEv2 packet as the transport sees it (R317): BTH opcode, destination queue pair, PSN, flags, and the fields of
the extended headers its opcode carries. -/
structure RocePkt where
  op : Nat := 0
  destQp : Nat := 0
  psn : Nat := 0
  ackReq : Bool := false
  solicited : Bool := false
  /-- congestion experienced in the IP header -/
  ce : Bool := false
  /-- RETH or AtomicETH address and key; RETH length -/
  va : Nat := 0
  rkey : Nat := 0
  len : Nat := 0
  imm : Nat := 0
  /-- AtomicETH swap or add, and compare -/
  swap : Nat := 0
  cmp : Nat := 0
  /-- DETH queue key and source queue pair -/
  qkey : Nat := 0
  srcQp : Nat := 0
  /-- AETH syndrome, and the value an atomic found -/
  syndrome : Nat := 0
  msn : Nat := 0
  orig : Nat := 0
  /-- the 40 bytes of the global route header that a datagram receive places -/
  grh : List Byte := []
  /-- path back to its sender, as an attribute record -/
  back : Nat := 0
  /-- bytes of the frame that carried it -/
  size : Nat := 0
  data : List Byte := []
deriving DecidableEq, Repr

/-- A node of a header graph (R357, R359): fixed length, length field (offset, bits, shift, multiplier), where the next
header's selector lies, choices, and field extractions (field, offset, bytes). -/
structure GNode where
  fixed : Nat := 0
  lenOff : Nat := 0
  lenBits : Nat := 0
  lenShift : Nat := 0
  lenMul : Nat := 0
  selOff : Nat := 0
  selBytes : Nat := 0
  next : List (Nat × Nat) := []
  extracts : List (Nat × Nat × Nat) := []
deriving DecidableEq, Repr

structure Graph where
  nodes : List GNode := []
deriving DecidableEq, Repr

/-- A component entry of a manifest, with the digest of the component as it was delivered (R552). -/
structure ImageComp where
  id : Nat := 0
  version : Nat := 0
  handoff : Nat := 0
  digest : List Byte := []
  /-- what the image holds for the cores of a firmware component: code, initial component data, region list as REGION_BASE and
  REGION_LIMIT words in order, exception vector (R211, R235, R198) -/
  code : List Byte := []
  data : List Byte := []
  regions : List Nat := []
  evec : Nat := 0
deriving DecidableEq, Repr

/-- An image set that a flash device holds (R552): the manifest bytes under the maker's signature, both signatures, and
whether every component's bytes gave its digest. -/
structure ImageSet where
  version : Nat := 0
  security : Nat := 0
  comps : List ImageComp := []
  signed : List Byte := []
  makerPub : List Byte := []
  makerSig : List Byte := []
  counterSig : List Byte := []
  digestsOk : Bool := true
  /-- the set the module was delivered with: the maker's own -/
  factory : Bool := false
deriving DecidableEq, Repr

/-- Where a host register write goes: a block of the function by its cap_id (Table 2-2), the NVMe registers of BAR0 of PF2
and its virtual functions (R29), a control register of a control core, or a control of configuration space as the chapters name it (R464 to R474). -/
inductive RegSpace where
  | block (cap : Nat)
  | nvme
  | config
  /-- keeper-only control registers of a control core, by CSR number, written by a keeper (R167, R198) -/
  | csr (core : Nat)
deriving DecidableEq, Repr

/-- Where a firmware, attestation or audit command comes from (R564, R565, R568): a ring pair of kind 0x42, a message of a
management session, or a PCIe DOE mailbox with its nonce. -/
inductive FwSrc where
  | ring (fn ring : Nat)
  | session (n : Nat) (msg : List Byte)
  | doe (fn : Nat) (nonce : List Byte)
deriving DecidableEq, Repr

end Sys2Proof
end

