-- ==== Sys2Proof/Syntax.lean ====
section
/-!
DEFINITION. The commands the block takes: one constructor per row of spec/opcode_table.json, with what the row's rule
gives it. A function is named by its rank (R63), a port, tile, core or slot by its number; `read` operands carry what
the outside world answered.
-/
namespace Sys2Proof

/-- Commands (opcode_table.json). -/
inductive Instr where
  /-- REGISTER_WRITE (R10) -/
  | registerWrite (fn : Nat) (space : RegSpace) (off width : Nat) (value : BitVec 64)
  /-- SHARED_CONTROL_WRITE (R604) -/
  | sharedControlWrite (rank cap off width : Nat) (value : BitVec 64)
  /-- RING_DIR_COMMIT (R42) -/
  | ringDirCommit (fn : Nat)
  /-- RING_DIR_UNLOCK (R42) -/
  | ringDirUnlock (fn : Nat)
  /-- LOAD_ENTRY (R42) -/
  | loadEntry (fn : Nat) (index : Nat)
  /-- DISABLE_ENTRY (R42) -/
  | disableEntry (fn : Nat) (index : Nat)
  /-- DOORBELL (R50) -/
  | doorbell (fn : Nat) (page : Nat) (offset : Nat) (width : Nat) (word : BitVec 64)
  /-- EV_COMMIT (R60) -/
  | evCommit (fn : Nat) (value : BitVec 32)
  /-- EV_UNLOCK (R60) -/
  | evUnlock (fn : Nat)
  /-- LEASE_PERIOD_WRITE (R62) -/
  | leasePeriodWrite (fn : Nat) (value : BitVec 32)
  /-- PORT_ENABLE (R70) -/
  | portEnable (fn : Nat) (port : Nat)
  /-- PORT_DISABLE (R74) -/
  | portDisable (fn port : Nat)
  /-- PORT_RETRAIN (R74) -/
  | portRetrain (fn : Nat) (port : Nat)
  /-- PW_COMMIT (R101) -/
  | pwCommit (fn : Nat) (mask : BitVec 32)
  /-- AF_GATE_COMMIT (R108) -/
  | afGateCommit (fn : Nat) (port : Nat)
  /-- VC_CREDITS_WRITE (R88) -/
  | vcCreditsWrite (fn : Nat) (port : Nat) (units : BitVec 32)
  /-- CK_SET_COMMIT (R315) -/
  | ckSetCommit (fn : Nat)
  /-- CK_SET_UNLOCK (R315) -/
  | ckSetUnlock (fn : Nat)
  /-- RDMA_SET_COMMIT (R351) -/
  | rdmaSetCommit (fn : Nat)
  /-- RDMA_SET_UNLOCK (R351) -/
  | rdmaSetUnlock (fn : Nat)
  /-- SCH_GATE_COMMIT (R399) -/
  | schGateCommit (fn : Nat) (iface : Nat)
  /-- BREAKOUT_WRITE (R387) -/
  | breakoutWrite (fn : Nat) (net : Nat) (value : Nat)
  /-- SQ_TAIL_DOORBELL (R27) -/
  | sqTailDoorbell (fn : Nat) (q : Nat) (tail : Nat) (cmds : HRead)
  /-- CQ_HEAD_DOORBELL (R439) -/
  | cqHeadDoorbell (fn : Nat) (q : Nat) (head : Nat)
  /-- CC_EN_SET (R442) -/
  | ccEnSet (fn : Nat) (cc : Nat)
  /-- CC_EN_CLEAR (R477) -/
  | ccEnClear (fn : Nat) (reads : Bool)
  /-- NVME_SHUTDOWN (R453) -/
  | nvmeShutdown (fn : Nat) (shn : Nat)
  /-- FUNCTION_ENABLE (R476) -/
  | functionEnable (fn : Nat)
  /-- FUNCTION_SHUTDOWN (R477) -/
  | functionShutdown (fn : Nat) (keep enable reads : Bool)
  /-- ORPHAN_ADOPT (R482) -/
  | orphanAdopt (fn : Nat) (entries : List HRead)
  /-- ORPHAN_DISCARD (R484) -/
  | orphanDiscard (fn : Nat)
  /-- VF_QUOTA_WRITE (R486) -/
  | vfQuotaWrite (pf : Nat) (vf : Nat) (second : Bool) (value : BitVec 64)
  /-- MSIX_UNMASK (R473) -/
  | msixUnmask (fn : Nat) (vec : Nat)
  /-- INTX_PENDING_CLEAR (R474) -/
  | intxPendingClear (fn : Nat) (index : Nat) (value : BitVec 64)
  /-- REG_READ (R597) -/
  | regRead (session : Nat) (msg : List (BitVec 8))
  /-- REG_WRITE (R597) -/
  | regWrite (session : Nat) (msg : List (BitVec 8))
  /-- CLAIM (R555) -/
  | claim (session : Nat) (msg : List (BitVec 8))
  /-- RELEASE (R555) -/
  | release (session : Nat) (msg : List (BitVec 8))
  /-- INSTALLER_KEY (R556) -/
  | installerKey (session : Nat) (msg : List (BitVec 8))
  /-- OPERATOR_KEY (R557) -/
  | operatorKey (session : Nat) (msg : List (BitVec 8))
  /-- POLICY (R557) -/
  | policy (session : Nat) (msg : List (BitVec 8))
  /-- CONSENT (R558) -/
  | consent (session : Nat) (msg : List (BitVec 8))
  /-- DEBUG_UNLOCK (R559) -/
  | debugUnlock (session : Nat) (msg : List (BitVec 8))
  /-- FW_STAGE (R565) -/
  | fwStage (src : FwSrc) (read : HRead) (image : ImageSet)
  /-- FW_ACTIVATE (R566) -/
  | fwActivate (src : FwSrc)
  /-- FW_CONFIRM (R567) -/
  | fwConfirm (src : FwSrc)
  /-- ATTEST (R564) -/
  | attest (src : FwSrc)
  /-- AUDIT_READ (R568) -/
  | auditRead (src : FwSrc)
  /-- CV_ARM (R574) -/
  | cvArm (fn unit : Nat) (ctrl : BitVec 32)
  /-- CV_DISARM (R575) -/
  | cvDisarm (fn unit : Nat) (ctrl : BitVec 32)
  /-- COMMIT_TICK (R64) -/
  | commitTick (claimEnN debugEnN : Bool)
  /-- DIRECTORY_READ_RETURN (R42) -/
  | directoryReadReturn (fn : Nat) (read : HRead)
  /-- DESCRIPTOR_FETCH (R45) -/
  | descriptorFetch (fn ring : Nat) (read : HRead)
  /-- NOP (R45) -/
  | nop (fn : Nat) (ring : Nat)
  /-- INTERRUPT_MODERATION_EXPIRY (R38) -/
  | interruptModerationExpiry (fn : Nat) (ring : Nat)
  /-- LEASE_HALF (R61) -/
  | leaseHalf (fn : Nat)
  /-- LEASE_EXPIRY (R61) -/
  | leaseExpiry (fn : Nat) (reads : Bool)
  /-- RX_LIGHT_CHANGE (R74) -/
  | rxLightChange (port : Nat) (lit : BitVec 16)
  /-- DETECT_HALF_TIMEOUT (R74) -/
  | detectHalfTimeout (port : Nat)
  /-- LOSS_OF_LIGHT (R73) -/
  | lossOfLight (port : Nat)
  /-- TRAIN_TIMEOUT (R74) -/
  | trainTimeout (port : Nat)
  /-- TRAINING_FLIT_RX (R75) -/
  | trainingFlitRx (port : Nat) (ownGood : BitVec 16) (flit : List (BitVec 8))
  /-- RETRAIN_TIMEOUT (R74) -/
  | retrainTimeout (port : Nat)
  /-- DOWN_TIMEOUT (R74) -/
  | downTimeout (port : Nat)
  /-- WIDEN_CHECK (R78) -/
  | widenCheck (port : Nat)
  /-- RETRAIN_AT_REACHED (R112) -/
  | retrainAtReached (port : Nat)
  /-- FLIT_RX (R80) -/
  | flitRx (port : Nat) (flit : List (BitVec 8))
  /-- REPLAY_RUN (R89) -/
  | replayRun (port : Nat)
  /-- ACK_TIMER (R86) -/
  | ackTimer (port : Nat)
  /-- FABRIC_WRITE (R99) -/
  | fabricWrite (port : Nat) (addr : Nat) (data : List (BitVec 8))
  /-- FABRIC_WRITE_ACKED (R99) -/
  | fabricWriteAcked (port : Nat) (tag : Nat) (addr : Nat) (data : List (BitVec 8))
  /-- FABRIC_READ (R95) -/
  | fabricRead (port : Nat) (tag : Nat) (addr : Nat) (length : Nat)
  /-- FABRIC_CPL (R95) -/
  | fabricCpl (port : Nat) (toPort : Nat) (tag : Nat) (status : Nat) (data : List (BitVec 8))
  /-- EGRESS_DEPART (R110) -/
  | egressDepart (port : Nat)
  /-- WINDOWS_ACTIVATE (R101) -/
  | windowsActivate
  /-- GATE_LIST_TAKE_EFFECT (R109) -/
  | gateListTakeEffect (accel : Bool) (which : Nat)
  /-- GATE_ENTRY_ADVANCE (R108) -/
  | gateEntryAdvance (accel : Bool) (which : Nat)
  /-- ACCEL_ALERT (R114) -/
  | accelAlert (port : Nat) (low : Bool)
  /-- OPEN (R146) -/
  | rdOpen (core : Nat)
  /-- ADMISSION_GRANT (R155) -/
  | admissionGrant
  /-- PULL (R148) -/
  | rdPull (core : Nat)
  /-- PULL_DATA_RETURN (R148) -/
  | pullDataReturn (handle : Nat) (which : Nat) (back : PullRead)
  /-- CLOSE (R149) -/
  | rdClose (core : Nat)
  /-- ABORT (R150) -/
  | rdAbort (core : Nat)
  /-- CONTRIB (R139) -/
  | contrib (port : Nat) (handle : Nat) (hgen : Nat) (rank : Nat) (element : Nat) (data : List (BitVec 8))
  /-- RESULT_COPY_DEPART (R143) -/
  | resultCopyDepart (handle : Nat) (sumTile : Nat)
  /-- RESULT_WRITE_ACCEPTED (R149) -/
  | resultWriteAccepted (handle : Nat) (sumTile : Nat)
  /-- ALU (R179) -/
  | alu (core : Nat) (lo : BitVec 32)
  /-- ADDI (R179) -/
  | addi (core : Nat) (lo : BitVec 32)
  /-- ANDI (R179) -/
  | andi (core : Nat) (lo : BitVec 32)
  /-- ORI (R179) -/
  | ori (core : Nat) (lo : BitVec 32)
  /-- XORI (R179) -/
  | xori (core : Nat) (lo : BitVec 32)
  /-- SHIFTI (R179) -/
  | shifti (core : Nat) (lo : BitVec 32)
  /-- MOVI (R179) -/
  | movi (core : Nat) (lo : BitVec 32)
  /-- MOVK16 (R179) -/
  | movk16 (core : Nat) (lo : BitVec 32)
  /-- MOVK32 (R179) -/
  | movk32 (core : Nat) (lo : BitVec 32)
  /-- MOVK48 (R179) -/
  | movk48 (core : Nat) (lo : BitVec 32)
  /-- CMP (R179) -/
  | cmp (core : Nat) (lo : BitVec 32)
  /-- CMPI (R179) -/
  | cmpi (core : Nat) (lo : BitVec 32)
  /-- PLOG (R179) -/
  | plog (core : Nat) (lo : BitVec 32)
  /-- PMOV (R179) -/
  | pmov (core : Nat) (lo : BitVec 32)
  /-- LD8 (R183) -/
  | ld8 (core : Nat) (lo : BitVec 32)
  /-- LD16 (R183) -/
  | ld16 (core : Nat) (lo : BitVec 32)
  /-- LD32 (R183) -/
  | ld32 (core : Nat) (lo : BitVec 32)
  /-- LD64 (R183) -/
  | ld64 (core : Nat) (lo : BitVec 32)
  /-- LDS8 (R183) -/
  | lds8 (core : Nat) (lo : BitVec 32)
  /-- LDS16 (R183) -/
  | lds16 (core : Nat) (lo : BitVec 32)
  /-- LDS32 (R183) -/
  | lds32 (core : Nat) (lo : BitVec 32)
  /-- LOAD_DATA_RETURN (R187) -/
  | loadDataReturn (core : Nat) (ret : LoadRet)
  /-- ST8 (R183) -/
  | st8 (core : Nat) (lo : BitVec 32)
  /-- ST16 (R183) -/
  | st16 (core : Nat) (lo : BitVec 32)
  /-- ST32 (R183) -/
  | st32 (core : Nat) (lo : BitVec 32)
  /-- ST64 (R183) -/
  | st64 (core : Nat) (lo : BitVec 32)
  /-- CAS (R185) -/
  | cas (core : Nat) (lo : BitVec 32)
  /-- FENCE (R184) -/
  | fence (core : Nat) (lo : BitVec 32)
  /-- BR (R179) -/
  | br (core : Nat) (lo : BitVec 32)
  /-- JR (R179) -/
  | jr (core : Nat) (lo : BitVec 32)
  /-- ADR (R179) -/
  | adr (core : Nat) (lo : BitVec 32)
  /-- CALL (R170) -/
  | call (core : Nat) (lo : BitVec 32)
  /-- RET (R171) -/
  | ret (core : Nat) (lo : BitVec 32)
  /-- ERET (R205) -/
  | eret (core : Nat) (lo : BitVec 32)
  /-- TRAP (R202) -/
  | trap (core : Nat) (lo : BitVec 32)
  /-- STEP (R189) -/
  | step (core : Nat) (lo : BitVec 32)
  /-- WAIT (R192) -/
  | wait (core : Nat) (lo : BitVec 32)
  /-- WAIT_WAKE (R192) -/
  | waitWake (core : Nat)
  /-- LOCK (R194) -/
  | lock (core : Nat) (lo : BitVec 32)
  /-- LOCK_GRANT (R195) -/
  | lockGrant (lock : Nat)
  /-- UNLOCK (R195) -/
  | unlock (core : Nat) (lo : BitVec 32)
  /-- ALIVE (R197) -/
  | alive (core : Nat) (lo : BitVec 32)
  /-- CSRR (R198) -/
  | csrr (core : Nat) (lo : BitVec 32)
  /-- CSRW (R199) -/
  | csrw (core : Nat) (lo : BitVec 32)
  /-- SCQ_POP (R190) -/
  | scqPop (core : Nat) (lo : BitVec 32)
  /-- MBOX_POP (R193) -/
  | mboxPop (core : Nat) (lo : BitVec 32)
  /-- STUCK_ACCESS (R207) -/
  | stuckAccess (core : Nat)
  /-- ALIVE_SAMPLE (R234) -/
  | aliveSample
  /-- CORE_STOP (R233) -/
  | coreStop (core : Nat)
  /-- CORE_RELOAD_COMPLETE (R235) -/
  | coreReloadComplete (core : Nat) (journal : Codeword)
  /-- CORE_FAILED_ADOPTION (R236) -/
  | coreFailedAdoption (core : Nat)
  /-- KEEPER_FAILOVER (R237) -/
  | keeperFailover
  /-- KEEPER_RELOAD_COMPLETE (R237) -/
  | keeperReloadComplete
  /-- ROM_KEEPER_RESTART (R238) -/
  | romKeeperRestart
  /-- DRAIN_REQUEST (R213) -/
  | drainRequest (core : Nat)
  /-- DRAIN_CANCEL (R233) -/
  | drainCancel (core : Nat)
  /-- HANDOFF_RECORD (R233) -/
  | handoffRecord (core : Nat)
  /-- HANDOFF_TIMEOUT (R233) -/
  | handoffTimeout (core : Nat)
  /-- SWAP_ADOPT (R239) -/
  | swapAdopt (core : Nat)
  /-- COMPONENT_REPLACE (R239) -/
  | componentReplace
  /-- RT_STEP (R221) -/
  | rtStep (core : Nat)
  /-- RT_REAP (R220) -/
  | rtReap (core : Nat)
  /-- RT_PUT (R220) -/
  | rtPut (core : Nat)
  /-- RT_ARRIVED (R220) -/
  | rtArrived (core : Nat)
  /-- RT_MOVE (R221) -/
  | rtMove (core : Nat) (ext : ARead)
  /-- RT_NOTIFY (R223) -/
  | rtNotify (core : Nat)
  /-- RT_FINISH (R224) -/
  | rtFinish (core : Nat)
  /-- RT_YIELD (R220) -/
  | rtYield (core : Nat)
  /-- PROG_LOAD (R227) -/
  | progLoad (fn ring : Nat) (image : HRead)
  /-- PROG_UNLOAD (R227) -/
  | progUnload (fn ring : Nat)
  /-- COMM_CREATE (R227) -/
  | commCreate (fn ring : Nat)
  /-- COMM_CONNECT (R226) -/
  | commConnect (fn ring : Nat) (peers : HRead)
  /-- COMM_DESTROY (R227) -/
  | commDestroy (fn ring : Nat)
  /-- COLL_LAUNCH (R229) -/
  | collLaunch (fn ring : Nat)
  /-- LAUNCH_START (R220) -/
  | launchStart (core : Nat)
  /-- COLL_ABORT (R228) -/
  | collAbort (fn ring : Nat)
  /-- CLASS_SET (R264) -/
  | classSet (fn : Nat) (ring : Nat)
  /-- SEQ_OPEN (R250) -/
  | seqOpen (fn : Nat) (ring : Nat)
  /-- SEQ_FORK (R262) -/
  | seqFork (fn : Nat) (ring : Nat)
  /-- SEQ_CLOSE (R262) -/
  | seqClose (fn : Nat) (ring : Nat)
  /-- SEQ_GROW (R262) -/
  | seqGrow (fn : Nat) (ring : Nat)
  /-- SEQ_SEAL (R253) -/
  | seqSeal (fn : Nat) (ring : Nat)
  /-- SEQ_TRUNCATE (R262) -/
  | seqTruncate (fn : Nat) (ring : Nat)
  /-- SEQ_PIN (R255) -/
  | seqPin (fn : Nat) (ring : Nat)
  /-- SEQ_DEMOTE (R262) -/
  | seqDemote (fn : Nat) (ring : Nat)
  /-- SEQ_QUERY (R262) -/
  | seqQuery (fn : Nat) (ring : Nat)
  /-- PLAN_POST (R269) -/
  | planPost (fn : Nat) (ring : Nat) (entries : HRead)
  /-- PLAN_CANCEL (R275) -/
  | planCancel (fn : Nat) (ring : Nat)
  /-- BLOCK_COPY_COMPLETE (R253) -/
  | blockCopyComplete (block : Nat) (ext : ARead)
  /-- BLOCK_READ_RETURN (R257) -/
  | blockReadReturn (plan : Nat) (block : Nat) (ext : ARead)
  /-- BLOCK_RESIDENT (R271) -/
  | blockResident (plan : Nat) (block : Nat)
  /-- PLAN_DEADLINE (R272) -/
  | planDeadline (plan : Nat)
  /-- PLAN_RELEASE (R275) -/
  | planRelease (plan : Nat)
  /-- KV_SET_COMMIT (R277) -/
  | kvSetCommit
  /-- KV_SET_UNLOCK (R277) -/
  | kvSetUnlock
  /-- CKPT_JOB_SET (R281) -/
  | ckptJobSet (fn : Nat) (ring : Nat) (read : HRead)
  /-- CKPT_TAKE (R286) -/
  | ckptTake (fn : Nat) (ring : Nat) (read : HRead) (answers : List BRead)
  /-- SNAPSHOT_POINT (R287) -/
  | snapshotPoint (ep : Nat)
  /-- GRANULE_COW (R288) -/
  | granuleCow (granule : Nat)
  /-- CAPTURE_READ_RETURN (R290) -/
  | captureReadReturn (ep : Nat) (ext : ARead)
  /-- TAKE_FLUSH_COMPLETE (R292) -/
  | takeFlushComplete (ep : Nat) (answer : BRead)
  /-- ROOT_WRITE_COMPLETE (R293) -/
  | rootWriteComplete (ep : Nat) (answer : BRead)
  /-- CKPT_ABORT (R298) -/
  | ckptAbort (fn : Nat) (ring : Nat)
  /-- CKPT_SURVEY (R300) -/
  | ckptSurvey (fn : Nat) (ring : Nat) (answers : List BRead)
  /-- CKPT_RESTORE (R304) -/
  | ckptRestore (fn : Nat) (ring : Nat) (read : HRead) (answers : List BRead)
  /-- PD_ALLOC (R323) -/
  | pdAlloc (fn : Nat) (ring : Nat)
  /-- PD_FREE (R323) -/
  | pdFree (fn : Nat) (ring : Nat)
  /-- MR_REG (R325) -/
  | mrReg (fn : Nat) (ring : Nat)
  /-- MR_DEREG (R326) -/
  | mrDereg (fn : Nat) (ring : Nat)
  /-- QP_CREATE (R322) -/
  | qpCreate (fn : Nat) (ring : Nat)
  /-- QP_MODIFY (R337) -/
  | qpModify (fn : Nat) (ring : Nat) (attrs : HRead)
  /-- QP_QUERY (R347) -/
  | qpQuery (fn : Nat) (ring : Nat)
  /-- QP_DESTROY (R338) -/
  | qpDestroy (fn : Nat) (ring : Nat)
  /-- AH_CREATE (R350) -/
  | ahCreate (fn : Nat) (ring : Nat) (attrs : HRead)
  /-- AH_DESTROY (R350) -/
  | ahDestroy (fn : Nat) (ring : Nat)
  /-- SEND (R346) -/
  | send (fn : Nat) (ring : Nat) (data : HRead)
  /-- SEND_IMM (R346) -/
  | sendImm (fn : Nat) (ring : Nat) (data : HRead)
  /-- WRITE (R346) -/
  | write (fn : Nat) (ring : Nat) (data : HRead)
  /-- WRITE_IMM (R346) -/
  | writeImm (fn : Nat) (ring : Nat) (data : HRead)
  /-- READ (R346) -/
  | read (fn : Nat) (ring : Nat)
  /-- ATOMIC_CAS (R346) -/
  | atomicCas (fn : Nat) (ring : Nat)
  /-- ATOMIC_FADD (R346) -/
  | atomicFadd (fn : Nat) (ring : Nat)
  /-- RECV (R346) -/
  | recv (fn : Nat) (ring : Nat)
  /-- RC_REQUEST_PACKET (R327) -/
  | rcRequestPacket (net : Nat) (host : HRead)
  /-- RESPONSE_PACKET (R331) -/
  | responsePacket (net : Nat)
  /-- UD_PACKET (R320) -/
  | udPacket (net : Nat)
  /-- ACK_TIMEOUT (R331) -/
  | ackTimeout (qpn : Nat)
  /-- RNR_TIMER_EXPIRY (R331) -/
  | rnrTimerExpiry (qpn : Nat)
  /-- CNP_RX (R342) -/
  | cnpRx (net : Nat)
  /-- GUST_TICK (R342) -/
  | gustTick
  /-- CONTEXT_FETCH_RETURN (R333) -/
  | contextFetchReturn (qpn : Nat) (read : HRead)
  /-- CONTEXT_WRITEBACK_ACCEPTED (R335) -/
  | contextWritebackAccepted (qpn : Nat)
  /-- RX_FRAME (R355) -/
  | rxFrame (iface : Nat) (frame : List (BitVec 8))
  /-- CLASSIFY_PASS (R362) -/
  | classifyPass (net : Nat) (tx : Bool)
  /-- GRAPH_LOAD (R359) -/
  | graphLoad (fn : Nat) (ring : Nat) (image : HRead) (sig : List (BitVec 8)) (graph : Graph)
  /-- GRAPH_UNLOAD (R380) -/
  | graphUnload (fn : Nat) (ring : Nat)
  /-- SET_CREATE (R381) -/
  | setCreate (fn : Nat) (ring : Nat) (record : HRead)
  /-- SET_DESTROY (R383) -/
  | setDestroy (fn : Nat) (ring : Nat)
  /-- SET_CONFIG (R381) -/
  | setConfig (fn : Nat) (ring : Nat) (record : HRead)
  /-- BIND (R376) -/
  | bind (fn : Nat) (ring : Nat)
  /-- ENTRY_ADD (R375) -/
  | entryAdd (fn : Nat) (ring : Nat) (records : HRead)
  /-- ENTRY_DEL (R375) -/
  | entryDel (fn : Nat) (ring : Nat) (records : HRead)
  /-- RANGE_SET (R382) -/
  | rangeSet (fn : Nat) (ring : Nat) (record : HRead)
  /-- SET_COMMIT (R372) -/
  | setCommit (fn : Nat) (ring : Nat)
  /-- COUNTER_READ (R382) -/
  | counterRead (fn : Nat) (ring : Nat)
  /-- LEGACY_LOAD (R378) -/
  | legacyLoad (fn : Nat) (ring : Nat) (image : HRead)
  /-- TXQ_CREATE (R388) -/
  | txqCreate (fn : Nat) (ring : Nat)
  /-- RXQ_CREATE (R388) -/
  | rxqCreate (fn : Nat) (ring : Nat)
  /-- Q_CONFIG (R406) -/
  | qConfig (fn : Nat) (ring : Nat)
  /-- Q_DESTROY (R406) -/
  | qDestroy (fn : Nat) (ring : Nat)
  /-- POLICER_SET (R396) -/
  | policerSet (fn : Nat) (ring : Nat)
  /-- POLICER_READ (R405) -/
  | policerRead (fn : Nat) (ring : Nat)
  /-- TX_PACKET (R390) -/
  | txPacket (fn : Nat) (ring : Nat) (data : HRead)
  /-- RX_BUFFER (R389) -/
  | rxBuffer (fn : Nat) (ring : Nat)
  /-- FRAME_SELECT (R392) -/
  | frameSelect (iface : Nat)
  /-- FRAME_TX_DONE (R390) -/
  | frameTxDone (iface : Nat)
  /-- TIME_WAIT (R405) -/
  | timeWait (fn : Nat) (ring : Nat)
  /-- TIME_WAIT_DUE (R405) -/
  | timeWaitDue
  /-- INTERFACE_LINK_CHANGE (R588) -/
  | interfaceLinkChange (iface : Nat) (up : Bool)
  /-- KEY_ALLOC (R416) -/
  | keyAlloc (fn : Nat) (ring : Nat)
  /-- KEY_LOAD (R417) -/
  | keyLoad (fn : Nat) (ring : Nat) (read : HRead)
  /-- KEY_FREE (R418) -/
  | keyFree (fn : Nat) (ring : Nat)
  /-- SA_SET (R435) -/
  | saSet (fn : Nat) (ring : Nat) (read : HRead)
  /-- SEAL_GCM (R419) -/
  | sealGcm (fn : Nat) (ring : Nat) (src : HRead) (aad : HRead)
  /-- OPEN_GCM (R434) -/
  | openGcm (fn : Nat) (ring : Nat) (src : HRead) (aad : HRead)
  /-- XTS_ENC (R424) -/
  | xtsEnc (fn : Nat) (ring : Nat) (src : HRead)
  /-- XTS_DEC (R424) -/
  | xtsDec (fn : Nat) (ring : Nat) (src : HRead)
  /-- HASH (R425) -/
  | hash (fn : Nat) (ring : Nat) (src : HRead) (state : HRead)
  /-- CTX_SAVE (R429) -/
  | ctxSave (fn : Nat) (ring : Nat)
  /-- CTX_RESTORE (R430) -/
  | ctxRestore (fn : Nat) (ring : Nat) (src : HRead)
  /-- SA_QUERY (R434) -/
  | saQuery (fn : Nat) (ring : Nat)
  /-- SEAL_TILE_FAULT (R428) -/
  | sealTileFault (tile8 : Nat)
  /-- SEAL_RECOVERY_END (R428) -/
  | sealRecoveryEnd (tile8 : Nat)
  /-- MC_LOCK_CLAIM (R433) -/
  | mcLockClaim (claims : List Nat)
  /-- MC_LOCK_RELEASE (R433) -/
  | mcLockRelease (claimant : Nat)
  /-- MC_LOCK_FORCED_RELEASE (R433) -/
  | mcLockForcedRelease
  /-- IDENTIFY (R440) -/
  | identify (fn : Nat) (prps : HRead)
  /-- GET_LOG_PAGE (R439) -/
  | getLogPage (fn : Nat) (prps : HRead)
  /-- SET_FEATURES (R441) -/
  | setFeatures (fn : Nat)
  /-- GET_FEATURES (R439) -/
  | getFeatures (fn : Nat)
  /-- CREATE_IO_SQ (R441) -/
  | createIoSq (fn : Nat)
  /-- CREATE_IO_CQ (R441) -/
  | createIoCq (fn : Nat)
  /-- DELETE_IO_SQ (R439) -/
  | deleteIoSq (fn : Nat)
  /-- DELETE_IO_CQ (R439) -/
  | deleteIoCq (fn : Nat)
  /-- NVME_ABORT (R456) -/
  | nvmeAbort (fn : Nat)
  /-- ASYNC_EVENT_REQUEST (R439) -/
  | asyncEventRequest (fn : Nat)
  /-- NVME_READ (R452) -/
  | nvmeRead (fn : Nat) (sq : Nat) (prps : HRead)
  /-- NVME_WRITE (R451) -/
  | nvmeWrite (fn : Nat) (sq : Nat) (data : HRead)
  /-- NVME_FLUSH (R453) -/
  | nvmeFlush (fn : Nat) (sq : Nat)
  /-- WRITE_ZEROES (R454) -/
  | writeZeroes (fn : Nat) (sq : Nat)
  /-- DATASET_MANAGEMENT (R454) -/
  | datasetManagement (fn : Nat) (sq : Nat) (ranges : HRead)
  /-- BACKEND_COMMAND_COMPLETE (R455) -/
  | backendCommandComplete (backend : Nat) (which : Nat) (answer : BRead)
  /-- WRITE_BACK_COMPLETE (R451) -/
  | writeBackComplete (backend : Nat) (which : Nat) (answer : BRead)
  /-- KEEP_ALIVE (R444) -/
  | keepAlive (backend : Nat) (ok : Bool)
  /-- BACKEND_CREATE (R444) -/
  | backendCreate (fn : Nat) (ring : Nat) (read : HRead)
  /-- BACKEND_CONNECT_STEP (R445) -/
  | backendConnectStep (backend : Nat) (answer : BRead)
  /-- BACKEND_DESTROY (R446) -/
  | backendDestroy (fn : Nat) (ring : Nat)
  /-- BACKEND_REBIND (R446) -/
  | backendRebind (fn : Nat) (ring : Nat) (read : HRead)
  /-- BACKEND_QUERY (R459) -/
  | backendQuery (fn : Nat) (ring : Nat)
  /-- NS_CREATE (R447) -/
  | nsCreate (fn : Nat) (ring : Nat)
  /-- NS_DELETE (R449) -/
  | nsDelete (fn : Nat) (ring : Nat)
  /-- NS_ATTACH (R449) -/
  | nsAttach (fn : Nat) (ring : Nat)
  /-- NS_DETACH (R449) -/
  | nsDetach (fn : Nat) (ring : Nat)
  /-- STO_SET_COMMIT (R462) -/
  | stoSetCommit
  /-- STO_SET_UNLOCK (R462) -/
  | stoSetUnlock
  /-- FLR (R477) -/
  | flr (fn : Nat) (reads : Bool)
  /-- HOT_RESET (R477) -/
  | hotReset (ep : Nat) (reads : List Nat)
  /-- BUS_MASTER_CLEAR (R477) -/
  | busMasterClear (fn : Nat) (reads : Bool)
  /-- D3HOT_ENTRY (R477) -/
  | d3hotEntry (fn : Nat) (reads : Bool)
  /-- VF_ENABLE_SET (R476) -/
  | vfEnableSet (pf : Nat) (num : Nat)
  /-- VF_ENABLE_CLEAR (R477) -/
  | vfEnableClear (pf : Nat) (reads : List Nat)
  /-- FUNCTION_DRAINED (R478) -/
  | functionDrained (fn : Nat)
  /-- DRAIN_BOUND_EXPIRY (R478) -/
  | drainBoundExpiry (fn : Nat)
  /-- ORPHAN_HOLD_EXPIRY (R484) -/
  | orphanHoldExpiry (fn : Nat)
  /-- HOST_READ_TIMEOUT (R470) -/
  | hostReadTimeout (fn : Nat) (dir : Bool)
  /-- POISONED_TLP (R471) -/
  | poisonedTlp (fn : Nat) (read dir : Bool)
  /-- UNEXPECTED_COMPLETION (R470) -/
  | unexpectedCompletion (fn : Nat)
  /-- ASPM_L1_ENTRY (R472) -/
  | aspmL1Entry (ep : Nat)
  /-- VF_FREEZE (R487) -/
  | vfFreeze (fn ring : Nat)
  /-- VF_SAVE (R488) -/
  | vfSave (fn ring : Nat)
  /-- VF_RESTORE (R489) -/
  | vfRestore (fn ring : Nat) (blob map : HRead)
  /-- VF_THAW (R490) -/
  | vfThaw (fn ring : Nat)
  /-- DIRTY_LOG (R491) -/
  | dirtyLog (fn ring : Nat)
  /-- GROUP_RETIRE (R504) -/
  | groupRetire (fn ring : Nat)
  /-- FRAME_COPY_COMPLETE (R505) -/
  | frameCopyComplete (stack : Nat) (lines : List Nat)
  /-- LOST_LIST_READ (R511) -/
  | lostListRead (fn ring : Nat)
  /-- SCRUB (R502) -/
  | scrub (stack : Nat) (line : Nat) (found : Codeword)
  /-- CHANNEL_TRAINING_LOSS (R503) -/
  | channelTrainingLoss (stack : Nat) (chan : Nat)
  /-- CHANNEL_RETRAIN_COMPLETE (R503) -/
  | channelRetrainComplete (stack : Nat) (chan : Nat) (trained : Bool)
  /-- MEM_CAP_WINDOW (R509) -/
  | memCapWindow (stack : Nat)
  /-- POWER_GOOD (R553) -/
  | powerGood
  /-- POWER_LOSS (R297) -/
  | powerLoss
  /-- INPUT_UNDERVOLTAGE (R514) -/
  | inputUndervoltage (mv : Nat)
  /-- INPUT_OVERVOLTAGE (R514) -/
  | inputOvervoltage (mv : Nat)
  /-- INPUT_RETURN (R514) -/
  | inputReturn (mv : Nat)
  /-- BUS_OVERCURRENT (R515) -/
  | busOvercurrent (status : BitVec 16)
  /-- RAIL_FAULT (R517) -/
  | railFault (rail : Nat) (status : BitVec 16)
  /-- SENSOR_FAULT (R517) -/
  | sensorFault (kind which : Nat)
  /-- BUS_RECOVERY (R517) -/
  | busRecovery (ok : Bool)
  /-- REGULATOR_ACK (R516) -/
  | regulatorAck (rail : Nat)
  /-- REGULATOR_ACK_TIMEOUT (R516) -/
  | regulatorAckTimeout (rail : Nat)
  /-- RAILS_SETTLED (R520) -/
  | railsSettled
  /-- VOLTAGE_RETRY (R520) -/
  | voltageRetry
  /-- ENVELOPE_EXCEEDED (R522) -/
  | envelopeExceeded (watts : Nat)
  /-- ENVELOPE_RAISE (R522) -/
  | envelopeRaise (watts : Nat)
  /-- THERMAL_NEAR_LIMIT (R523) -/
  | thermalNearLimit (domain temp : Nat)
  /-- THERMAL_RAISE (R523) -/
  | thermalRaise
  /-- THERMAL_LIMIT (R523) -/
  | thermalLimit (domain temp : Nat)
  /-- THERMAL_TRIP (R523) -/
  | thermalTrip (domain : Nat)
  /-- THERMAL_COOLED (R523) -/
  | thermalCooled (domain : Nat)
  /-- UNIT_SHUTTER (R530) -/
  | unitShutter (fn ring : Nat)
  /-- SHUTTER_DRAIN_COMPLETE (R530) -/
  | shutterDrainComplete (domain : Nat)
  /-- CTL_HANDOFF_TIMEOUT (R531) -/
  | ctlHandoffTimeout (domain : Nat)
  /-- UNIT_REOPEN (R532) -/
  | unitReopen (fn ring temp : Nat)
  /-- SELF_TEST_COMPLETE (R532) -/
  | selfTestComplete (domain failed : Nat)
  /-- DOMAIN_TRANSITION_COMPLETE (R525) -/
  | domainTransitionComplete (domain : Nat)
  /-- CDC_OVERRUN (R537) -/
  | cdcOverrun (bit fn ring seq : Nat)
  /-- STAGE_REACHED (R539) -/
  | stageReached (failed : List Nat) (die : Bool)
  /-- MGMT_CONNECT (R595) -/
  | mgmtConnect
  /-- MGMT_OPEN (R550) -/
  | mgmtOpen (session : Nat) (msg pub : List (BitVec 8))
  /-- MGMT_IDLE_TIMEOUT (R550) -/
  | mgmtIdleTimeout (session : Nat)
  /-- MGMT_CLOSE (R595) -/
  | mgmtClose (session : Nat)
  /-- FLASH_FAULT (R551) -/
  | flashFault (device : Nat)
  /-- CV_WINDOW_END (R574) -/
  | cvWindowEnd (unit : Nat)
  /-- CV_WINDOW_ABORT (R575) -/
  | cvWindowAbort (unit : Nat)
  /-- AM_SAMPLE (R577) -/
  | amSample (mon : Nat) (read : HRead)
  /-- WF_SAMPLE (R579) -/
  | wfSample (type : Nat) (sensors : List Nat)
  /-- FEED_BUFFER (R582) -/
  | feedBuffer (fn : Nat) (ring : Nat)
  /-- FEED_FLUSH (R582) -/
  | feedFlush (fn : Nat) (ring : Nat)
  /-- FEED_FLUSH_TIMEOUT (R582) -/
  | feedFlushTimeout (pf : Nat)
  /-- LASER_UNIT_REMOVE (R594) -/
  | laserUnitRemove (laser : Nat)
  /-- LASER_UNIT_INSERT (R594) -/
  | laserUnitInsert (laser : Nat)
  /-- PPS_PULSE (R589) -/
  | ppsPulse
  /-- LANE_ALIGNMENT_LOSS (R74) -/
  | laneAlignmentLoss (port : Nat) (lane : Nat)
  /-- SPILL_READ_RETURN (R140) -/
  | spillReadReturn (handle : Nat) (found : Codeword)
  /-- GRANULE_COPY_COMPLETE (R288) -/
  | granuleCopyComplete (granule : Nat)
  /-- TAKE_READ_RETURN (R291) -/
  | takeReadReturn (ep : Nat) (ext : ARead)
  /-- KEEPER_ROM_RESTART_COMPLETE (R238) -/
  | keeperRomRestartComplete
deriving DecidableEq, Repr

end Sys2Proof
end

