-- ==== Sys2Proof/Machine/Bits.lean ====
section
/-!
DEFINITION. Bit fields, byte order, sign extension, saturating counters and the operations of sparse tables,
shared by every family (00: R4, R5, R9, R14; saturation as the register maps say).
-/
namespace Sys2Proof.Machine

/-- Field of `w` bits from bit `lo` (R4). -/
def fld (x lo w : Nat) : Nat := x / 2 ^ lo % 2 ^ w

/-- One bit as a truth value. -/
def bitAt (x i : Nat) : Bool := x / 2 ^ i % 2 == 1

/-- `x` with the field of `w` bits from `lo` replaced by the low bits of `v`. -/
def setFld (x lo w v : Nat) : Nat := x - fld x lo w * 2 ^ lo + (v % 2 ^ w) * 2 ^ lo

def b2n (b : Bool) : Nat := if b then 1 else 0

/-- Little-endian value of bytes (R5). -/
def leNat : List Byte → Nat
  | [] => 0
  | b :: r => b.toNat + 256 * leNat r

/-- `k` bytes of `n`, lowest first (R5). -/
def natLE : Nat → Nat → List Byte
  | 0, _ => []
  | k + 1, n => BitVec.ofNat 8 n :: natLE k (n / 256)

/-- Big-endian value of bytes (network headers, R5). -/
def beNat (bs : List Byte) : Nat := bs.foldl (fun a b => a * 256 + b.toNat) 0

def natBE (k n : Nat) : List Byte := (natLE k n).reverse

/-- Two's complement value of a `w`-bit number. -/
def sxt (w x : Nat) : Int := if x % 2 ^ w < 2 ^ (w - 1) then (x % 2 ^ w : Int) else (x % 2 ^ w : Int) - 2 ^ w

/-- A counter of `w` bits that saturates. -/
def satAdd (w c k : Nat) : Nat := min (2 ^ w - 1) (c + k)

/-- Index arithmetic modulo 2^24 (R47, R49). -/
def mod24 (n : Nat) : Nat := n % 2 ^ 24
def dist24 (hi lo : Nat) : Nat := (hi + 2 ^ 24 - lo) % 2 ^ 24

def log2of (n : Nat) : Nat := Nat.log2 n

def sliceB (bs : List Byte) (off n : Nat) : List Byte := (bs.drop off).take n

/-- Value at a key of a sparse table, or the table's default. -/
def mget {V : Type} (m : NMap V) (k : Nat) (d : V) : V :=
  match m with
  | [] => d
  | (k', v) :: r => if k = k' then v else mget r k d

/-- A sparse table with one value changed; writing the default removes the entry, so equal tables are equal data. -/
def mset {V : Type} [DecidableEq V] (m : NMap V) (k : Nat) (v d : V) : NMap V :=
  match m with
  | [] => if v = d then [] else [(k, v)]
  | (k', v') :: r =>
    if k < k' then (if v = d then (k', v') :: r else (k, v) :: (k', v') :: r)
    else if k = k' then (if v = d then r else (k, v) :: r)
    else (k', v') :: mset r k v d

/-- Canonical form: keys strictly rising from `lo`, no entry equal to the default. -/
def mwfFrom {V : Type} [DecidableEq V] (lo : Nat) (d : V) : NMap V → Bool
  | [] => true
  | (k, v) :: r => decide (lo ≤ k) && decide (v ≠ d) && mwfFrom (k + 1) d r

def mwf {V : Type} [DecidableEq V] (d : V) (m : NMap V) : Bool := mwfFrom 0 d m

/-- An optional slot per key: absent keys hold `none`. -/
def oget {V : Type} (m : NMap V) (k : Nat) : Option V :=
  match m with
  | [] => none
  | (k', v) :: r => if k = k' then some v else oget r k

/-- Put a value at a key of a table of optional slots. -/
def oput {V : Type} (m : NMap V) (k : Nat) (v : V) : NMap V :=
  match m with
  | [] => [(k, v)]
  | (k', v') :: r =>
    if k < k' then (k, v) :: (k', v') :: r
    else if k = k' then (k, v) :: r
    else (k', v') :: oput r k v

/-- Free a slot. -/
def odel {V : Type} (m : NMap V) (k : Nat) : NMap V := m.filter (fun p => p.1 ≠ k)

/-- Change the value of an occupied slot. -/
def omod {V : Type} (m : NMap V) (k : Nat) (f : V → V) : NMap V :=
  m.map (fun p => if p.1 = k then (p.1, f p.2) else p)

/-- The lowest number below `n` that is not a key, if any. -/
def lowestFree {V : Type} (m : NMap V) (lo n : Nat) : Option Nat :=
  (List.range (m.length + 1)).findSome? (fun i => if lo + i < n ∧ (oget m (lo + i)).isNone then some (lo + i) else none)

/-- Replace element `i` of a list. -/
def lset {A : Type} (l : List A) (i : Nat) (a : A) : List A := l.set i a

def lget {A : Type} (l : List A) (i : Nat) (d : A) : A := (l[i]?).getD d

def lmod {A : Type} (l : List A) (i : Nat) (d : A) (f : A → A) : List A := l.set i (f (lget l i d))

/-- The rotating pointer of R68: the claim at or after `ptr`, counting cyclically over `n` indices. -/
def rotPick (n ptr : Nat) (claims : List Nat) : Option Nat :=
  (List.range n).findSome? (fun k => if claims.contains ((ptr + k) % n) then some ((ptr + k) % n) else none)

end Sys2Proof.Machine
end

