-- ==== Sys2Proof/Machine/Crypto.lean ====
section
/-!
DEFINITION. The ciphers and hashes the spec names by their standards: SHA-256 (FIPS 180-4), AES-256 (FIPS 197), GCM,
XTS-AES-256 (IEEE 1619-2018) and the hash-based signatures of RFC 8554 (R419, R424, R425, R549; PRESUMED, log 8). Words
and bytes are natural numbers here.
-/
namespace Sys2Proof.Machine

def toB (n : Nat) : Byte := BitVec.ofNat 8 n
def ofBs (bs : List Byte) : List Nat := bs.map (·.toNat)
def toBs (ns : List Nat) : List Byte := ns.map toB

/-! ### SHA-256 -/

/-- Largest number below `x + 2 ^ b` that is at least `x` and whose k-th power is at most `n`. -/
def rootFrom (k n : Nat) : Nat → Nat → Nat
  | 0, x => x
  | b + 1, x => rootFrom k n b (if (x + 2 ^ b) ^ k ≤ n then x + 2 ^ b else x)

/-- The first 32 bits of the fractional part of the k-th root of `p` (FIPS 180-4, 4.2.2 and 5.3.3). -/
def rootBits (k p : Nat) : Nat := rootFrom k (p * 2 ^ (32 * k)) 36 0 % 2 ^ 32

/-- The first 64 primes. -/
def primes64 : List Nat := (List.range 312).filter (fun n => decide (2 ≤ n) && (List.range n).all (fun d => decide (d < 2) || n % d != 0))

/-- Round constants and initial hash value, from the cube and square roots of primes (FIPS 180-4). -/
def shaK : List Nat := primes64.map (rootBits 3)
def shaInit : List Nat := (primes64.take 8).map (rootBits 2)

def m32 (x : Nat) : Nat := x % 2 ^ 32
def rotr32 (x n : Nat) : Nat := Nat.lor (x / 2 ^ n) (x % 2 ^ n * 2 ^ (32 - n))
def xor3 (a b c : Nat) : Nat := Nat.xor a (Nat.xor b c)

/-- Message schedule from the newest word back, `k` words still to make. -/
def shaSched : Nat → List Nat → List Nat
  | 0, w => w
  | k + 1, w =>
    let g (i : Nat) : Nat := lget w (i - 1) 0
    let s0 := xor3 (rotr32 (g 15) 7) (rotr32 (g 15) 18) (g 15 / 8)
    let s1 := xor3 (rotr32 (g 2) 17) (rotr32 (g 2) 19) (g 2 / 1024)
    shaSched k (m32 (s1 + g 7 + s0 + g 16) :: w)

/-- One round over the eight working words. -/
def shaRound (h : List Nat) (kw : Nat) : List Nat :=
  match h with
  | [a, b, c, d, e, f, g, x] =>
    let s1 := xor3 (rotr32 e 6) (rotr32 e 11) (rotr32 e 25)
    let ch := Nat.xor (Nat.land e f) (Nat.land (2 ^ 32 - 1 - e) g)
    let t1 := x + s1 + ch + kw
    let s0 := xor3 (rotr32 a 2) (rotr32 a 13) (rotr32 a 22)
    let mj := xor3 (Nat.land a b) (Nat.land a c) (Nat.land b c)
    [m32 (t1 + s0 + mj), a, b, c, m32 (d + t1), e, f, g]
  | _ => h

/-- Big-endian words of a block. -/
def wordsBE : Nat → List Nat → List Nat
  | 0, _ => []
  | k + 1, bs => (bs.take 4).foldl (fun a b => a * 256 + b) 0 :: wordsBE k (bs.drop 4)

def shaBlock (h : List Nat) (block : List Nat) : List Nat :=
  let w := (shaSched 48 (wordsBE 16 block).reverse).reverse
  let out := (List.zip shaK w).foldl (fun h p => shaRound h (p.1 + p.2)) h
  (List.zip h out).map (fun p => m32 (p.1 + p.2))

/-- Process `k` blocks of 64 bytes. -/
def shaBlocks : Nat → List Nat → List Nat → List Nat
  | 0, h, _ => h
  | k + 1, h, bs => shaBlocks k (shaBlock h (bs.take 64)) (bs.drop 64)

def shaBytes (h : List Nat) : List Nat := h.flatMap (fun w => [w / 2 ^ 24 % 256, w / 2 ^ 16 % 256, w / 256 % 256, w % 256])
def shaWords (bs : List Nat) : List Nat := wordsBE 8 bs

/-- Padding of a message of `total` bytes (FIPS 180-4). -/
def shaPad (total : Nat) : List Nat :=
  0x80 :: List.replicate ((55 + 64 - total % 64) % 64) 0 ++ ofBs (natBE 8 (8 * total))

/-- Finish a message: the last bytes, after `prior` bytes that the state already holds. -/
def shaFinal (h : List Nat) (prior : Nat) (bs : List Nat) : List Nat :=
  let m := bs ++ shaPad (prior + bs.length)
  shaBytes (shaBlocks (m.length / 64) h m)

def sha256N (bs : List Nat) : List Nat := shaFinal shaInit 0 bs
def sha256 (bs : List Byte) : List Byte := toBs (sha256N (ofBs bs))

/-! ### AES-256 -/

def xtime (x : Nat) : Nat := if x < 128 then 2 * x else Nat.xor (2 * x) 0x11B
def gmul (a b : Nat) : Nat :=
  ((List.range 8).foldl (fun (p : Nat × Nat) i => (if bitAt b i then Nat.xor p.1 p.2 else p.1, xtime p.2)) (0, a)).1
/-- Inverse in GF(2^8): the 254th power. -/
def ginv (x : Nat) : Nat :=
  ((List.range 7).foldl (fun (p : Nat × Nat) _ => let q := gmul p.2 p.2; (gmul p.1 q, q)) (1, x)).1
def rotl8 (x n : Nat) : Nat := (x * 2 ^ n + x / 2 ^ (8 - n)) % 256
def sboxOf (x : Nat) : Nat :=
  let b := ginv x
  Nat.xor (xor3 b (rotl8 b 1) (rotl8 b 2)) (xor3 (rotl8 b 3) (rotl8 b 4) 0x63)
def sboxTable : List Nat := (List.range 256).map sboxOf
def sbox (x : Nat) : Nat := lget sboxTable x 0
def invSbox (x : Nat) : Nat := (sboxTable.idxOf x) % 256

def xorL (a b : List Nat) : List Nat := (List.zip a b).map (fun p => Nat.xor p.1 p.2)

/-- Round keys: words of 4 bytes, newest first, `k` still to make from index `i`. -/
def keyExp : Nat → Nat → Nat → List (List Nat) → List (List Nat)
  | 0, _, _, w => w
  | k + 1, i, rcon, w =>
    let t := lget w 0 []
    let t' := if i % 8 = 0 then
        let r := (t.drop 1 ++ t.take 1).map sbox
        xorL r [rcon, 0, 0, 0]
      else if i % 8 = 4 then t.map sbox else t
    keyExp k (i + 1) (if i % 8 = 0 then xtime rcon else rcon) (xorL (lget w 7 []) t' :: w)

def chunk4 : Nat → List Nat → List (List Nat)
  | 0, _ => []
  | k + 1, bs => bs.take 4 :: chunk4 k (bs.drop 4)

/-- The fifteen round keys of 16 bytes. -/
def roundKeys (key : List Nat) : List (List Nat) :=
  let ws := (keyExp 52 8 1 (chunk4 8 key).reverse).reverse.flatten
  (List.range 15).map (fun r => (ws.drop (16 * r)).take 16)

def shiftRows (b : List Nat) : List Nat := (List.range 16).map (fun i => lget b ((i + 4 * (i % 4)) % 16) 0)
def invShiftRows (b : List Nat) : List Nat := (List.range 16).map (fun i => lget b ((i + 16 - 4 * (i % 4)) % 16) 0)
/-- One column matrix over GF(2^8), given its first row. -/
def mixCols (m : List Nat) (b : List Nat) : List Nat :=
  (List.range 16).map (fun i =>
    (List.range 4).foldl (fun a j => Nat.xor a (gmul (lget b (i / 4 * 4 + j) 0) (lget m ((j + 4 - i % 4) % 4) 0))) 0)

def aesEnc (rk : List (List Nat)) (b : List Nat) : List Nat :=
  let b0 := xorL b (lget rk 0 [])
  let b1 := (List.range 13).foldl (fun b r => xorL (mixCols [2, 3, 1, 1] (shiftRows (b.map sbox))) (lget rk (r + 1) [])) b0
  xorL (shiftRows (b1.map sbox)) (lget rk 14 [])

def aesDec (rk : List (List Nat)) (b : List Nat) : List Nat :=
  let b0 := (invShiftRows (xorL b (lget rk 14 []))).map invSbox
  let b1 := (List.range 13).foldl (fun b r =>
    (invShiftRows (mixCols [14, 11, 13, 9] (xorL b (lget rk (13 - r) [])))).map invSbox) b0
  xorL b1 (lget rk 0 [])

/-! ### GCM -/

def natOfBE (bs : List Nat) : Nat := bs.foldl (fun a b => a * 256 + b) 0
def beOfNat (k n : Nat) : List Nat := ofBs (natBE k n)

/-- Product in GF(2^128) with GCM's bit order. -/
def ghMul (x y : Nat) : Nat :=
  ((List.range 128).foldl (fun (p : Nat × Nat) i =>
    (if bitAt x (127 - i) then Nat.xor p.1 p.2 else p.1,
     if p.2 % 2 = 1 then Nat.xor (p.2 / 2) (0xe1 * 2 ^ 120) else p.2 / 2)) (0, y)).1

def padTo16 (bs : List Nat) : List Nat := bs ++ List.replicate ((16 - bs.length % 16) % 16) 0

def ghash : Nat → Nat → Nat → List Nat → Nat
  | 0, _, y, _ => y
  | k + 1, h, y, bs => ghash k h (ghMul (Nat.xor y (natOfBE (bs.take 16))) h) (bs.drop 16)

/-- Counter mode from a counter block value. -/
def gctr : Nat → List (List Nat) → Nat → List Nat → List Nat
  | 0, _, _, _ => []
  | k + 1, rk, c, bs =>
    let ks := aesEnc rk (beOfNat 16 c)
    let c' := c / 2 ^ 32 * 2 ^ 32 + (c + 1) % 2 ^ 32
    xorL (bs.take 16) ks ++ gctr k rk c' (bs.drop 16)

def gcmTag (rk : List (List Nat)) (j0 : Nat) (aad ct : List Nat) : List Nat :=
  let h := natOfBE (aesEnc rk (List.replicate 16 0))
  let blocks := padTo16 aad ++ padTo16 ct ++ beOfNat 8 (8 * aad.length) ++ beOfNat 8 (8 * ct.length)
  xorL (beOfNat 16 (ghash (blocks.length / 16) h 0 blocks)) (aesEnc rk (beOfNat 16 j0))

/-- First counter block of a 12-byte nonce. -/
def gcmJ0 (nonce : List Nat) : Nat := natOfBE nonce * 2 ^ 32 + 1

/-- AES-256-GCM encryption: ciphertext and 16-byte tag. -/
def gcmSeal (key nonce aad pt : List Byte) : List Byte × List Byte :=
  let rk := roundKeys (ofBs key)
  let j0 := gcmJ0 (ofBs nonce)
  let ct := gctr ((pt.length + 15) / 16) rk (j0 / 2 ^ 32 * 2 ^ 32 + (j0 + 1) % 2 ^ 32) (ofBs pt)
  (toBs ct, toBs (gcmTag rk j0 (ofBs aad) ct))

/-- AES-256-GCM decryption: none where the tag does not verify. -/
def gcmOpen (key nonce aad ct tag : List Byte) : Option (List Byte) :=
  let rk := roundKeys (ofBs key)
  let j0 := gcmJ0 (ofBs nonce)
  if toBs (gcmTag rk j0 (ofBs aad) (ofBs ct)) = tag then
    some (toBs (gctr ((ct.length + 15) / 16) rk (j0 / 2 ^ 32 * 2 ^ 32 + (j0 + 1) % 2 ^ 32) (ofBs ct)))
  else none

/-! ### XTS -/

/-- Multiply a tweak by alpha, little-endian. -/
def xtsNext (t : Nat) : Nat := if t < 2 ^ 127 then 2 * t else Nat.xor (2 * t - 2 ^ 128) 0x87

def xtsBlocks (enc : Bool) : Nat → List (List Nat) → Nat → List Nat → List Nat
  | 0, _, _, _ => []
  | k + 1, rk, t, bs =>
    let tb := ofBs (natLE 16 t)
    let x := xorL (bs.take 16) tb
    xorL (if enc then aesEnc rk x else aesDec rk x) tb ++ xtsBlocks enc k rk (xtsNext t) (bs.drop 16)

/-- Data units of `du` bytes, numbered from `unit` (R424). -/
def xtsUnits (enc : Bool) (du : Nat) : Nat → List (List Nat) → List (List Nat) → Nat → List Nat → List Nat
  | 0, _, _, _, _ => []
  | k + 1, rk1, rk2, unit, bs =>
    let t := leNat (toBs (aesEnc rk2 (ofBs (natLE 16 unit))))
    xtsBlocks enc (du / 16) rk1 t (bs.take du) ++ xtsUnits enc du k rk1 rk2 (unit + 1) (bs.drop du)

/-- XTS-AES-256 over whole data units; material holds key 1 and key 2. -/
def xts (enc : Bool) (du unit : Nat) (material bs : List Byte) : List Byte :=
  toBs (xtsUnits enc du (bs.length / du) (roundKeys (ofBs (material.take 32))) (roundKeys (ofBs ((material.drop 32).take 32))) unit (ofBs bs))

/-! ### Hash-based signatures (R549) -/

/-- One chain of LM-OTS with w = 8 from position `j` to 255. -/
def otsChain : Nat → List Nat → Nat → Nat → List Nat → List Nat
  | 0, _, _, _, t => t
  | k + 1, iq, i, j, t => otsChain k iq i (j + 1) (sha256N (iq ++ beOfNat 2 i ++ [j] ++ t))

/-- Candidate key of an LM-OTS signature of parameter set N32_W8: C then 34 values. -/
def otsKey (iq sig msg : List Nat) : List Nat :=
  let q := sha256N (iq ++ [0x81, 0x81] ++ (sig.drop 4).take 32 ++ msg)
  let cksm := (q.map (fun b => 255 - b)).foldl (· + ·) 0
  let v := q ++ beOfNat 2 cksm
  let z := (List.range 34).flatMap (fun i =>
    let a := lget v i 0
    otsChain (255 - a) iq i a ((sig.drop (36 + 32 * i)).take 32))
  sha256N (iq ++ [0x80, 0x80] ++ z)

/-- Climb the tree from a leaf to its root. -/
def lmsClimb : Nat → List Nat → Nat → List Nat → List Nat → List Nat
  | 0, _, _, t, _ => t
  | k + 1, idI, node, t, path =>
    let p := path.take 32
    lmsClimb k idI (node / 2) (sha256N (idI ++ beOfNat 4 (node / 2) ++ [0x83, 0x83] ++ (if node % 2 = 1 then p ++ t else t ++ p))) (path.drop 32)

/-- LMS verification with LMS_SHA256_M32 of height h (typecode 6 for 10, 7 for 15) and LMOTS_SHA256_N32_W8. -/
def lmsVerifyN (h typ : Nat) (pub sig msg : List Nat) : Bool :=
  let q := natOfBE (sig.take 4)
  let ots := (sig.drop 4).take 1124
  let idI := (pub.drop 8).take 16
  let iq := idI ++ beOfNat 4 q
  pub.length == 56 && sig.length == 1132 + 32 * h && natOfBE (pub.take 4) == typ && natOfBE ((pub.drop 4).take 4) == 4
    && natOfBE (ots.take 4) == 4 && natOfBE ((sig.drop 1128).take 4) == typ && decide (q < 2 ^ h)
    && lmsClimb h idI (2 ^ h + q) (sha256N (idI ++ beOfNat 4 (2 ^ h + q) ++ [0x82, 0x82] ++ otsKey iq ots msg)) (sig.drop 1132)
      == pub.drop 24

/-- A bare LMS signature of the maker (Table 17-2). -/
def lmsVerify (pub sig msg : List Byte) : Bool := lmsVerifyN 15 7 (ofBs pub) (ofBs sig) (ofBs msg)

/-- An HSS signature of an installer or operator, L = 1 or 2 (Table 17-2). -/
def hssVerify (pub sig msg : List Byte) : Bool :=
  let p := ofBs pub
  let g := ofBs sig
  let l := natOfBE (p.take 4)
  let p1 := p.drop 4
  if p.length ≠ 60 ∨ natOfBE (g.take 4) + 1 ≠ l then false
  else if l = 1 then lmsVerifyN 15 7 p1 (g.drop 4) (ofBs msg)
  else if l = 2 then
    let s1 := (g.drop 4).take 1612
    let p2 := (g.drop 1616).take 56
    lmsVerifyN 15 7 p1 s1 p2 && lmsVerifyN 15 7 p2 (g.drop 1672) (ofBs msg)
  else false

end Sys2Proof.Machine
end

