-- ==== Sys2Proof/Config.lean ====
section
/-!
DEFINITION. What one module fixes and what the manual leaves open: free values (no body, so that no proof can see
them), drawn at a counter that State holds.
-/
namespace Sys2Proof

/-- A fresh 64-bit value that nothing constrains: random draws, tickets and values the manual does not state
(DESIGN CHOICE: drawn at `State.freeCtr`, log 3). -/
opaque Config.freeWord : Nat → BitVec 64

/-- A fresh 512-bit value: nonces, random draws and the like (log 3). -/
opaque Config.freeBlock : Nat → BitVec 512

/-- The device's own signature over a digest: keys are never given by the manual (R560, R564, log 3). -/
opaque Config.deviceSign : Nat → List Byte → List Byte

/-- The MAC address of an interface, which no register gives (log 3). -/
opaque Config.ifMac : Nat → BitVec 48

/-- Hop limit [7:0] and flow label [27:8] of a notification sent back on the path of a datagram, by interface: R341 and
R347 give a UD queue pair no path of its own (free value, log 46). -/
opaque Config.backPath : Nat → BitVec 28

/-- Whether a 16-byte address, IPv4 as ::ffff:a.b.c.d, is an address of an interface; no register gives them
(R347, R356, log 3). -/
opaque Config.isIfAddr : Nat → List Byte → Bool

/-- The UUID that identifies a namespace, which no rule gives (13, log 3). -/
opaque Config.nsUuid : Nat → BitVec 128

/-- SHA-256 of the maker's public key, burnt into the vestibule ROM (R549, log 3). -/
opaque Config.romRoot : List Byte

/-- Major and minor version of a block, by its capability ID, which no rule gives (R30, log 3). -/
opaque Config.capMajor : Nat → BitVec 8
opaque Config.capMinor : Nat → BitVec 8

/-- The device serial (TR_SERIAL, Table 17-10, log 3). -/
opaque Config.serial : BitVec 64

/-- SHA-256 of the manifest that the module left the factory with (R552, log 3). -/
opaque Config.factoryDigest : List Byte

/-- Whether an internal register of a tile or of the vestibule, by its offset in the register window, is 64 bits wide; no
rule gives these registers (R182, R214, log 3). -/
opaque Config.windowWide : Nat → Bool

/-- Voltage, mV, of the core rails in a profile, and the voltage limit of a limit controller, as the maker-signed limits table
gives them (R215, R518, log 3). -/
opaque Config.profileMv : Nat → BitVec 16
opaque Config.limitMv : Nat → BitVec 16

/-- Offset in the register window of the restart timer's kick register, which no rule gives (R238, log 3). -/
opaque Config.kickReg : Nat

/-- Address at which a library program of several nodes has the partial sum of its own node written: of the staging area's
base, its MiB, the spill area's MiB and the elements (R216, R606, log 3). -/
opaque Config.libPartial : Nat → Nat → Nat → Nat → Nat

end Sys2Proof
end

