-- ==== Sys2Proof/Machine/State.lean ====
section
/-!
DEFINITION. The state of the Limori as plain data: every register, queue, table, mode and counter the spec names
(INVENTORY.md, State), the commands that wait, and the record of what has left the module.
-/
namespace Sys2Proof.Machine

/-! ### Functions, rings, events, shared controls (02, 14) -/

/-- Ring pair states (R43, Table 2-6). -/
inductive RingSt where
  | disabled | enabled | held | draining | error | orphaned
deriving DecidableEq, Repr

/-- The loaded copy of a ring directory entry (R38, R39, Table 2-4). -/
structure DirEntry where
  sqBase : Nat := 0
  cqBase : Nat := 0
  headWb : Nat := 0
  kind : Nat := 0
  sqOrder : Nat := 0
  cqOrder : Nat := 0
  enable : Bool := false
  cqIrq : Bool := false
  cqVector : Nat := 0
  moderationUs : Nat := 0
deriving DecidableEq, Repr

/-- What a descriptor's completion will carry (R52). -/
structure Cpl where
  tag : Nat := 0
  status : Nat := 0
  gen : Nat := 0
  result : Nat := 0
  spec : Nat := 0
  quiet : Bool := false
  irq : Bool := false
deriving DecidableEq, Repr

/-- A descriptor fetched and not completed (R43, R46): its place in the submission queue, its words, the generation
under which it was fetched, whether it has started, and its outcome where an earlier one holds the completion back. -/
structure Fetched where
  seq : Nat := 0
  desc : BitVec 512 := 0#512
  gen : Nat := 0
  started : Bool := false
  /-- its completion neither waits for earlier ones nor holds later ones back (R228, R265, R309) -/
  unordered : Bool := false
  res : Option Cpl := none
deriving DecidableEq, Repr

/-- One ring pair of a function (R36 to R54). -/
structure Ring where
  st : RingSt := .disabled
  heldFrom : RingSt := .enabled
  deferDisable : Bool := false
  ent : DirEntry := {}
  /-- the control core (0-63) or keeper (64, 65) that owns it (R209, R210) -/
  owner : Nat := 64
  prod : Nat := 0
  cons : Nat := 0
  cqW : Nat := 0
  cqR : Nat := 0
  fetched : List Fetched := []
  /-- descriptors fetched so far, which names each one while it runs -/
  fetchNo : Nat := 0
  waiting : List Cpl := []
  modUntil : Nat := 0
  deferredIrq : Bool := false
  /-- the producer index of a doorbell taken while HELD (R50) -/
  heldDb : Option Nat := none
  /-- completions not written while ORPHANED, and the time of the shut-down (Table 14-6) -/
  dropped : Nat := 0
  orphanedAt : Nat := 0
deriving DecidableEq, Repr

/-- A ring directory action in progress (R42): what it does, the entry it reads next and the entries read so far. -/
structure DirAct where
  load : Bool := false
  index : Nat := 0
  count : Nat := 0
  read : List DirEntry := []
  /-- an entry read so far failed validation: the first such index -/
  bad : Option Nat := none
deriving DecidableEq, Repr

/-- Function states (R476, Table 14-4). -/
inductive FnSt where
  | off | clean | active | draining | frozen | saved
deriving DecidableEq, Repr

/-- The orphan set of a function as FN_ORPHAN reports it (R480, Table 14-11); its ring pairs are those in state
ORPHANED and its objects those whose owner names an incarnation that has ended. -/
structure Orphan where
  oldGen : Nat := 0
  cause : Nat := 0
  at_ : Nat := 0
deriving DecidableEq, Repr

/-- Dirty-page logging of a migrating VF (R491): pages marked so far, by number. -/
structure DirtyLog where
  addr : Nat := 0
  bytes : Nat := 0
  overflow : Bool := false
  pages : List Nat := []
deriving DecidableEq, Repr

/-- Where a command still running came from: function, ring pair, place in its submission queue. -/
structure DRef where
  fn : Nat := 0
  ring : Nat := 0
  seq : Nat := 0
deriving DecidableEq, Repr

/-- One function of a host endpoint, keyed by its rank (R63, R476, R493, R41, R60). -/
structure Fn where
  st : FnSt := .off
  gen : Nat := 0
  cause : Nat := 0
  rearm : Bool := false
  dmaDropped : Nat := 0
  orphanAddr : Nat := 0
  orphanBusy : Bool := false
  orphanStatus : Nat := 0
  orphanHold : Nat := 60
  orphan : Option Orphan := none
  /-- FN_INTX_PENDING (R474) -/
  intx : BitVec 2048 := 0#2048
  quotaA : BitVec 64 := 0x0000040000100010#64
  quotaB : BitVec 64 := 0x0000100010000000#64
  /-- configuration space as the chapters name it (R464 to R474) -/
  busMaster : Bool := false
  msixEn : Bool := false
  fnMask : Bool := false
  intxDisable : Bool := false
  relaxed : Bool := false
  ctoValue : Nat := 0
  d3hot : Bool := false
  numVfs : Nat := 0
  vfEnable : Bool := false
  /-- masked as PCI Express has it until software unmasks (PRESUMED, log 19) -/
  vecMask : BitVec 2048 := BitVec.allOnes 2048
  pba : BitVec 2048 := 0#2048
  aerTimeout : Bool := false
  aerUnexpected : Bool := false
  aerPoison : Bool := false
  /-- drain (R478): its start, and whether a cleared VF Enable began it -/
  drainStart : Nat := 0
  drainVfOff : Bool := false
  /-- enables written before stage 4 that wait (R541) -/
  waitEnable : Bool := false
  /-- directory (R41, R42) -/
  dirBase : Nat := 0
  dirCount : Nat := 0
  dirCommitted : Bool := false
  dirBusy : Bool := false
  dirStatus : Nat := 0
  dirBad : Nat := 0
  dirAct : Option DirAct := none
  rings : NMap Ring := []
  /-- lease (R61, R62): the written period, its error bit, whether it runs, the period in force, the vestibule cycle
  it was armed or renewed at, and whether LEASE_HALF was posted for this period -/
  leasePeriod : Nat := 5000
  leaseBad : Bool := false
  leaseArmed : Bool := false
  leaseInForce : Nat := 5000
  leaseFrom : Nat := 0
  leaseHalf : Bool := false
  dbDiscards : Nat := 0
  roleDenied : Nat := 0
  /-- event ring (R56 to R60) -/
  evBase : Nat := 0
  evOrder : Nat := 0
  evVector : Nat := 0
  evEnable : Bool := false
  evCommitted : Bool := false
  evStatus : Nat := 0
  evLost : Nat := 0
  evPendLost : Nat := 0
  evW : Nat := 0
  evR : Nat := 0
  /-- dirty logging (R491), and the VF_FREEZE that waits for the function's work (R487) -/
  dirty : Option DirtyLog := none
  freeze : Option DRef := none
deriving DecidableEq, Repr

/-- Owner of an object: the function's rank and the incarnation that holds it (R480, R482). -/
structure Own where
  fn : Nat := 0
  gen : Nat := 0
deriving DecidableEq, Repr

/-- A shared-control write held for the commit tick (R64): its master (rank, and the session among the four of rank 0),
the control, the value and its place in the order of arrival. -/
structure Held where
  rank : Nat := 0
  session : Nat := 0
  cap : Nat := 0
  inst : Nat := 0
  off : Nat := 0
  width : Nat := 32
  value : Nat := 0
deriving DecidableEq, Repr

/-- One entry of CONFLICT_LOG (R67). -/
structure ConflictEntry where
  time : Nat := 0
  what : Nat := 0
deriving DecidableEq, Repr

/-- A ring command on a shared object executed in the current message time (R66). -/
structure Done where
  fn : Nat := 0
  cap : Nat := 0
  item : Nat := 0
  effect : Nat := 0
  window : Nat := 0
deriving DecidableEq, Repr

/-- The transom and what it shares among masters (R64 to R68, R604). -/
structure Transom where
  held : List Held := []
  /-- later writes and doorbells of a master whose shared write waits (R604), in arrival order -/
  behind : List Instr := []
  /-- functions of which something waits in `behind` -/
  behindOf : List Nat := []
  /-- vestibule cycle of the last commit tick (R64) -/
  tickAt : Nat := 0
  conflicts : Nat := 0
  conflictLog : NMap ConflictEntry := []
  /-- ring commands executed in the current message time (R66) -/
  recent : List Done := []
  transomOff : Nat := 0
deriving DecidableEq, Repr

/-- A host link as R472 sees it: ASPM L1 enabled in function 0, in L1, and the cycle of the last TLP sent. -/
structure HostLink where
  aspmL1 : Bool := false
  inL1 : Bool := false
  lastTlp : Nat := 0
deriving DecidableEq, Repr

/-- PTP time (R402, R403): parts of 1/(2·10^12) ns counted at vestibule cycle `at_`, the rate adjustment in force, and
TIME_STATUS. -/
structure Clock where
  acc : Nat := 0
  at_ : Nat := 0
  freq : Int := 0
  timeSet : Bool := false
  bad : Bool := false
deriving DecidableEq, Repr

/-- Raw RW registers that no typed field holds, keyed by instance, block and offset packed in one number (R10). -/
abbrev RegStore := NMap Nat

/-! ### Accelerator ports and the switch (03) -/

/-- Port states (R74, Table 3-1). -/
inductive PortSt where
  | shut | detect | train | creditInit | active | retrain | down
deriving DecidableEq, Repr

/-- A transaction on the fabric (R83, Table 3-5): opcode, bytes asked or carried, port, tag, address, payload. -/
structure Txn where
  op : Nat := 0
  length : Nat := 0
  port : Nat := 0
  tag : Nat := 0
  addr : Nat := 0
  status : Nat := 0
  data : List Byte := []
deriving DecidableEq, Repr

/-- Which of the Limori's own engines a transaction in an egress serves. -/
inductive Eng where
  | peer
  /-- a RESULT of a reduction context: handle and its generation -/
  | result (handle hgen : Nat)
  /-- a block push of a step plan: plan and block -/
  | push (plan block : Nat)
  /-- a record written for a plan, a take or a program -/
  | record
  /-- a restore write: restore number -/
  | restore (id : Nat)
  /-- an entry of a T0 block table that a command waits for (R250): table number -/
  | table (id : Nat)
  /-- the table entry of a block that SEQ_GROW has appended (R271) -/
  | entry (block : Nat)
  /-- a read for an engine, of so many bytes still to ask for (R106) -/
  | read (left : Nat)
deriving DecidableEq, Repr

/-- A transaction in the egress buffer of a port (R92, R93, R106): class, virtual channel, source port (8 for an
engine), the window generation it was translated under. Its data holds the payload that has crossed so far; `id` names it
while its later slots follow its header, `sf` is the forwarding mode its header found, `sent` counts slots that have left. -/
structure Egress where
  cls : Nat := 0
  vc : Nat := 0
  src : Nat := 8
  gen : Nat := 0
  eng : Eng := .peer
  txn : Txn := {}
  id : Nat := 0
  sf : Bool := false
  sent : Nat := 0
deriving DecidableEq, Repr

/-- A transaction of a port's accelerator that waits at its ingress, translated (R92, R93, R95, R103): its destinations, as
port and address there, its window generation, whether it is multicast, and the flit of its channel that holds its header. -/
structure Wait where
  txn : Txn := {}
  id : Nat := 0
  at_ : Nat := 0
  dests : List (Nat × Nat) := []
  multi : Bool := false
  gen : Nat := 0
deriving DecidableEq, Repr

/-- A DATA flit kept for replay (R85): sequence number, channel, first header slot, slots. -/
structure TxFlit where
  seq : Nat := 0
  vc : Nat := 0
  hdr : Nat := 0
  slots : List Byte := []
deriving DecidableEq, Repr

/-- A request tracked at an egress (R95). -/
structure Tracked where
  src : Nat := 0
  tag : Nat := 0
deriving DecidableEq, Repr

/-- A gate control list (R108, 11). -/
structure GateList where
  base : Nat := 0
  cycle : Nat := 0
  change : Nat := 0
  /-- duration in ns and open mask, per entry -/
  entries : List (Nat × Nat) := []
deriving DecidableEq, Repr

/-- The transaction of a VC whose slots are arriving (R82): the slots so far, its name in the switch, the flit of its header,
and slots to skip after a discard (R84). -/
structure RxStream where
  slots : List (List Byte) := []
  id : Nat := 0
  at_ : Nat := 0
  skip : Nat := 0
deriving DecidableEq, Repr

/-- One accelerator port (R69 to R114). -/
structure APort where
  st : PortSt := .shut
  width : Nat := 0
  widenPending : Bool := false
  shutterOpen : Bool := false
  rxLight : Nat := 0
  laneGood : Nat := 0
  alert : Bool := false
  badCredit : Bool := false
  enable : Bool := false
  storeForward : Bool := false
  gatesOn : Bool := false
  perst : Bool := true
  retrainAt : Nat := 0
  vcCredits : Nat := 0x20201030
  creditsInForce : Nat := 0x20201030
  classWeight : Nat := 0x01040804
  crcErr : Nat := 0
  replayCnt : Nat := 0
  retrainCount : Nat := 0
  drop : Nat := 0
  /-- cycle of entry to the present state; half-light timer (half, since); last LOSS_OF_LIGHT; next width check -/
  since : Nat := 0
  half : Option (Nat × Nat) := none
  lastLol : Option Nat := none
  widenAt : Option Nat := none
  lastMiss : Option Nat := none
  /-- training: the peer's masks, width and credits, and whether each end has sent ready -/
  peerGood : Nat := 0
  peerCredits : Nat := 0
  ownReady : Bool := false
  peerReady : Bool := false
  /-- transmit: next sequence number, flits not acknowledged, flits sent per VC since CREDIT_INIT, credits the peer
  has freed per VC; a replay asked for, and the run count at one oldest flit (R85 to R89) -/
  txSeq : Nat := 0
  unacked : List TxFlit := []
  txUsed : List Nat := [0, 0, 0, 0]
  peerFreed : List Nat := [0, 0, 0, 0]
  replayAsked : Bool := false
  runs : Nat := 0
  runAt : Nat := 0
  /-- receive: next expected sequence number, retry flag, DATA flits not acknowledged, flits received per VC since
  CREDIT_INIT -/
  rxNext : Nat := 0
  retry : Bool := false
  rxUnacked : Nat := 0
  rxCount : List Nat := [0, 0, 0, 0]
  streams : NMap RxStream := []
  /-- step windows -/
  gateBase : Nat := 0
  gateCycle : Nat := 0
  gateLen : Nat := 0
  gateChange : Nat := 0
  gcl : NMap Nat := []
  gateStatus : Nat := 0
  gateBadEntry : Nat := 0
  gateHeaderBad : Bool := false
  operGen : Nat := 0
  gatePend : Option GateList := none
  gateOper : Option GateList := none
  gateEntry : Nat := 0
  /-- egress buffer, what the Limori's engines hold for it until it has room, deficit counters, round position and whether
  its class has had its weight this round, tracked requests, transactions waiting at this ingress, tag of the next READ of
  an engine -/
  egress : List Egress := []
  engq : List Egress := []
  deficit : List Nat := [0, 0, 0, 0]
  rrPos : Nat := 0
  rrGranted : Bool := false
  tracked : List Tracked := []
  ingress : List Wait := []
  engTag : Nat := 0
  /-- window sets by register offset within the set (R98, R113), and the generation of the active one -/
  shadow : NMap Nat := []
  activeSet : NMap Nat := []
  activeGen : Nat := 0
  drainDue : Bool := false
deriving DecidableEq, Repr

/-- Node-wide fabric registers (R105, R113). -/
structure Fabric where
  owner : Nat := 0
  pwBusy : Bool := false
  pwStatus : Nat := 0
  pwBadPort : Nat := 0
  pwBadEntry : Nat := 0
  /-- validated sets that become active, by port (R101) -/
  pwSets : NMap (NMap Nat) := []
  /-- names given to transactions while their slots arrive -/
  nextTxn : Nat := 1
deriving DecidableEq, Repr

/-! ### Reduction (04) -/

/-- A value as the arithmetic of chapter 4 sees it: NaN, an infinity, or A × 2^−149 with the sign of a zero. -/
inductive FV where
  | nan
  | inf (neg : Bool)
  | fin (a : Int) (negZero : Bool)
deriving DecidableEq, Repr

/-- The exact accumulator of one element (R125), and the value MAX or MIN has selected so far (R136). -/
structure Acc where
  a : Int := 0
  nan : Bool := false
  pinf : Bool := false
  ninf : Bool := false
  negz : Bool := true
  count : Nat := 0
  best : Option FV := none
deriving DecidableEq, Repr

/-- A contribution that waits: of one rank, from an element on, in the rank buffer of its tile or in a spill cell of stack
memory, where `len` bytes of it lie as it arrived (R140, R141). -/
structure Contr where
  rank : Nat := 0
  elem : Nat := 0
  n : Nat := 0
  data : List Byte := []
  scales : List Byte := []
  len : Nat := 0
  cell : Option Nat := none
deriving DecidableEq, Repr

/-- A PULL step that has not completed (R148). -/
structure Pull where
  core : Nat := 0
  tag : Nat := 0
  rank : Nat := 0
  first : Nat := 0
  count : Nat := 0
  addr : Nat := 0
  scale : Nat := 0
  /-- chunks of its range that it has delivered -/
  parts : List Nat := []
deriving DecidableEq, Repr

/-- A complete chunk being emitted (R142): RESULT pieces not yet sent, and its memory write while it is not accepted. -/
structure Emission where
  chunk : Nat := 0
  pieces : List (Nat × List Byte) := []
  writeDue : Bool := false
  data : List Byte := []
  scales : List Byte := []
deriving DecidableEq, Repr

/-- Context states (R153). -/
inductive CtxSt where
  | opened | closing | failed
deriving DecidableEq, Repr

/-- A reduction context (R115 to R161); `desc` is its OPEN step (Table 4-9). -/
structure Ctx where
  desc : Nat := 0
  hgen : Nat := 0
  tiles : List Nat := []
  core : Nat := 0
  st : CtxSt := .opened
  failure : Nat := 0
  closer : Option (Nat × Nat) := none
  acc : NMap Acc := []
  /-- ranked mode: folded value per element, and ranks folded per group of 32 (R131) -/
  fold : NMap FV := []
  next : NMap Nat := []
  /-- groups received, as rank × 2^28 + group (R119) -/
  got : List Nat := []
  waits : List Contr := []
  peak : Nat := 0
  pulls : List Pull := []
  emis : List Emission := []
  freed : List Nat := []
  missed : Nat := 0
  nanOut : Bool := false
  infOut : Bool := false
  saturated : Bool := false
  spilled : Bool := false
deriving DecidableEq, Repr

/-- An OPEN that waits for admission (R155). -/
structure Claim where
  core : Nat := 0
  desc : Nat := 0
deriving DecidableEq, Repr

/-- A SUM tile (R158, R163). -/
structure SumTile where
  ingest : Nat := 0
  spill : Nat := 0
  drop : Nat := 0
  fail : Nat := 0
  sat : Nat := 0
deriving DecidableEq, Repr

/-- The reduction block (04). -/
structure Reduce where
  /-- steps posted and not yet taken up, of both dies' front ends in order of arrival, each with its core (R144) -/
  steps : List (Nat × BitVec 512) := []
  ctxs : NMap Ctx := []
  hgens : NMap Nat := []
  claims : List Claim := []
  ptr : Nat := 0
  cand : Option Nat := none
  tilePtr : Nat := 0
  tiles : NMap SumTile := []
  noHandle : Nat := 0
  lastMiss : Option Nat := none
deriving DecidableEq, Repr

/-! ### Control cores and keepers (05), firmware and collectives (06) -/

/-- What a core is doing between instructions (R183, R192, R194, R206). -/
inductive CoreAct where
  | running
  /-- in WAIT: destination, selected sources, the vestibule cycle of its timeout where it has one, and the one it began in -/
  | waiting (rd sources : Nat) (until_ : Option Nat) (since : Nat)
  /-- in LOCK with wait 1: destination, lock number, and the vestibule cycle it began in -/
  | locking (rd lock since : Nat)
  /-- a load beyond the tile that has not returned: destination, width in bytes, signed, address, cycle of issue -/
  | loading (rd width : Nat) (signed : Bool) (addr : Nat) (since : Nat)
  /-- a store that must wait for a frame copy or a granule copy (R288, R505): address, bytes, cycle of issue -/
  | storing (addr : Nat) (bytes : List Byte) (since : Nat)
  /-- an access that no path answers (R188): address, cycle of issue -/
  | stuck (addr since : Nat)
  | stopped
deriving DecidableEq, Repr

/-- States of a control core as a component's host (R233, Table 6-12). -/
inductive CoreSt where
  | off | running | reloading | draining | swapping | failed
deriving DecidableEq, Repr

/-- A doorbell as the owning core finds it (R193, Table 5-10). -/
structure Mbox where
  index : Nat := 0
  kind : Nat := 0
  ring : Nat := 0
  fn : Nat := 0
deriving DecidableEq, Repr

/-- A service call and its results in the journal (R222, R232). -/
structure JCall where
  service : Nat := 0
  args : List Nat := []
  results : List Nat := []
deriving DecidableEq, Repr

/-- A collective launch, queued or running (R220 to R229). -/
structure Launch where
  ref : DRef := {}
  own : Own := {}
  tag : Nat := 0
  comm : Nat := 0
  progId : Nat := 0
  op : Nat := 0
  sat : Bool := false
  inFmt : Nat := 0
  outFmt : Nat := 0
  notifyWin : Nat := 0
  notifyOff : Nat := 0
  elements : Nat := 0
  args : List Nat := []
  /-- x0 to x7 at the program's entry (R220) -/
  entryX : List Nat := []
  seqNo : Nat := 0
  running : Bool := false
  /-- tags of the steps posted, count from 1 -/
  stepSeq : Nat := 0
  /-- contexts opened (Table 6-7) -/
  opened : Nat := 0
  /-- bytes each node had notified when the launch began -/
  arrived : NMap Nat := []
  /-- how far the IN_SWITCH program of the library has come (R606) -/
  phase : Nat := 0
  flags : Nat := 0
  missed : Nat := 0
  /-- the service calls so far, and how many a replay has answered (R222) -/
  journal : List JCall := []
  replayed : Nat := 0
deriving DecidableEq, Repr

/-- One Pynex core, 0 to 63, or keeper, 64 and 65 (R165 to R207, R230). -/
structure Core where
  g : NMap (BitVec 64) := []
  x : NMap (BitVec 64) := []
  /-- frame registers of the resident frames, keyed 16 × depth + i (R169, R172) -/
  w : NMap (BitVec 64) := []
  maskOf : NMap Nat := []
  /-- predicates p1 to p7 in bits 1 to 7 (R176) -/
  preds : Nat := 0
  pc : Nat := 0
  depth : Nat := 0
  resident : Nat := 1
  inHandler : Bool := false
  spillBase : Nat := 0x110000
  spillLimit : Nat := 0x118000
  spillPtr : Nat := 0x110000
  epc : Nat := 0
  ecause : Nat := 0
  eaddr : Nat := 0
  evec : Nat := 0
  cycle : Nat := 0
  timerCmp : Nat := 0
  watchAddr : Nat := 0
  watchVal : Nat := 0
  watchHit : Bool := false
  alive : Nat := 0
  /-- REGION_BASE and REGION_LIMIT: key 2n, 2n + 1 (R198) -/
  regions : NMap Nat := []
  im : NMap Byte := []
  pdm : NMap Byte := []
  act : CoreAct := .stopped
  /-- steps outstanding, step completion queue (R189, R190) -/
  stepsOut : Nat := 0
  scq : List (Nat × Nat) := []
  mbox : List Mbox := []
  /-- core cycles outside WAIT and LOCK since the last advance (R234) -/
  slack : Nat := 0
  st : CoreSt := .off
  restarts : Nat := 0
  lastCause : Nat := 0
  stops : List Nat := []
  heldSince : Nat := 0
  /-- its journal is assigned (R232) -/
  journaled : Bool := false
  launches : List Launch := []
  /-- time the keeper word asked for a drain (R233) -/
  drainSince : Nat := 0
  /-- which image the core runs: false the old, true the new one of a replacement (R239) -/
  newImage : Bool := false
  /-- a FAILED core whose ring pairs have been offered to its siblings (R236) -/
  adopted : Bool := false
deriving DecidableEq, Repr

/-- A lock register (R194 to R196). -/
structure LockReg where
  holder : Option Nat := none
  broken : Bool := false
  ptr : Nat := 0
deriving DecidableEq, Repr

/-- A program slot (R216 to R219, R227). -/
structure Slot where
  progId : Nat := 0
  ranked : Bool := false
  library : Bool := false
  entry : Nat := 0
  code : List Byte := []
  data : List Byte := []
deriving DecidableEq, Repr

/-- A communicator (R226, R227). -/
structure Comm where
  own : Own := {}
  ring : Nat := 0
  home : Nat := 0
  progId : Nat := 0
  nodes : Nat := 1
  nodeIndex : Nat := 0
  localPorts : Nat := 0
  stagingMib : Nat := 0
  stagingBase : Nat := 0
  rkey : Nat := 0
  connected : Bool := false
  /-- per node: local QP, peer's rkey, peer's staging address -/
  peers : List (Nat × Nat × Nat) := []
  launchSeq : Nat := 0
  /-- bytes notified per node -/
  arrived : NMap Nat := []
deriving DecidableEq, Repr

/-- A firmware component as it runs (R230, R552): generation, version, hand-off major version, image digest. -/
structure Comp where
  gen : Nat := 0
  version : Nat := 0x0100
  handoff : Nat := 1
  digest : List Byte := []
  /-- what its image holds (R211, R235) -/
  code : List Byte := []
  data : List Byte := []
  regions : List Nat := []
  evec : Nat := 0
deriving DecidableEq, Repr

/-- A component replacement under way (R239, R240). -/
structure Repl where
  comp : Nat := 0
  new : Comp := {}
  /-- cores not yet replaced, in ascending claimant index; the first is the one in hand -/
  todo : List Nat := []
  done : List Nat := []
  /-- replaced cores are being returned to the old image after this core failed (R240) -/
  undoing : Option Nat := none
deriving DecidableEq, Repr

/-- Firmware as a whole: keepers, components, programs, communicators (06). -/
structure Firmware where
  active : Nat := 0
  dkUp : List Bool := [false, false]
  failovers : Nat := 0
  romRestarts : Nat := 0
  /-- vestibule cycle of the last kick of the restart timer (R238) -/
  kickAt : Nat := 0
  bothDown : Bool := false
  comps : NMap Comp := []
  repl : Option Repl := none
  slots : NMap Slot := []
  comms : NMap Comm := []
  locks : NMap LockReg := []
  tsm : NMap Byte := []
  /-- program commands that wait for COLL cores to take the change up: command and result (R227) -/
  progWaits : List (DRef × Nat) := []
deriving DecidableEq, Repr

/-! ### Serving state (07) -/

/-- A class (R264). -/
structure KvClass where
  encoding : Nat := 0
  raw : Bool := false
  blockLog2 : Nat := 0
  t1 : Nat := 0x3F
  t2 : Nat := 0x3F
  t3 : Nat := 0x3F
  shift : Int := 0
  promote : Bool := false
deriving DecidableEq, Repr

/-- T0 slots of a port: its KV_T0 registers and the slots in use (R251). -/
structure KvT0 where
  base : Nat := 0
  window : Nat := 0
  enable : Bool := false
  slotLog2 : Nat := 0
  slots : Nat := 0
  used : List Nat := []
deriving DecidableEq, Repr

/-- A pool: its KV_POOL registers and the slots in use (R252, R254). -/
structure KvPool where
  base : Nat := 0
  kind : Nat := 0
  slot4k : Nat := 0
  high : Nat := 0
  low : Nat := 0
  slots : Nat := 0
  backend : Nat := 0
  used : List Nat := []
  fullPosted : Bool := false
  /-- eviction has begun and goes on to low_water (R254) -/
  evicting : Bool := false
deriving DecidableEq, Repr

inductive BlockSt where
  | fresh | sealed_ | lost
deriving DecidableEq, Repr

/-- A block (R241 to R243, R259): the slot of each tier; a T0 slot holds the block once `t0Valid`, a slot of another
tier once its number is in `valid`. -/
structure Block where
  cls : Nat := 0
  /-- what the class was when the block was made: a class may be set anew while a take still holds the block (R263, R291) -/
  kc : KvClass := {}
  port : Nat := 0
  st : BlockSt := .fresh
  t0 : Option Nat := none
  t0Valid : Bool := false
  /-- its T0 slot holds it, but the WRITE of its table entry has not left (R271) -/
  growing : Bool := false
  slots : NMap Nat := []
  valid : List Nat := []
  /-- order of its last use (R254) -/
  lru : Nat := 0
  /-- it waits for a slot of a pool (R253) -/
  stalled : Bool := false
deriving DecidableEq, Repr

/-- A sequence (R249, R250); blocks by number, in logical order. -/
structure Seq where
  own : Own := {}
  gen : Nat := 0
  cls : Nat := 0
  port : Nat := 0
  window : Nat := 0
  offset : Nat := 0
  maxBlocks : Nat := 0
  blocks : List Nat := []
  pins0 : List Nat := []
  pins1 : List Nat := []
deriving DecidableEq, Repr

/-- A copy of a block under way (R253, R254, R262): from a tier to a tier, and the tiers whose copies go when it is
complete. -/
structure Copy where
  block : Nat := 0
  from_ : Nat := 0
  to_ : Nat := 0
  drop : List Nat := []
  /-- the SEQ_DEMOTE it belongs to -/
  demote : Option DRef := none
deriving DecidableEq, Repr

/-- A SEQ_DEMOTE whose copies have not all ended. -/
structure Demote where
  ref : DRef := {}
  tier : Nat := 1
  /-- blocks that wait for the end of another copy, or for a slot -/
  waiting : List Nat := []
  left : Nat := 0
  moved : Nat := 0
  skipped : Nat := 0
deriving DecidableEq, Repr

inductive MoveSt where
  | reading (tier : Nat)
  | staged (data : List Byte)
  /-- its WRITEs stand in the egress -/
  | pushing
  | resident
  | failed (status tier : Nat)
  | stopped (tier : Nat)
deriving DecidableEq, Repr

/-- A block that a plan must make resident (R270). -/
structure Move where
  block : Nat := 0
  handle : Nat := 0
  logical : Nat := 0
  grown : Bool := false
  tier : Nat := 0
  /-- MOV tile that moves it, by domain (R270) -/
  mov : Nat := 8
  st : MoveSt := .reading 1
deriving DecidableEq, Repr

inductive PlanSt where
  | pending | ready | late | failed | settled
deriving DecidableEq, Repr

/-- A step plan that is outstanding (R268 to R276). -/
structure Plan where
  ref : DRef := {}
  own : Own := {}
  tag : Nat := 0
  port : Nat := 0
  abandon : Bool := false
  deadline : Nat := 0
  hold : Nat := 0
  reportAddr : Nat := 0
  reportMax : Nat := 0
  readyWindow : Nat := 0
  readyOffset : Nat := 0
  st : PlanSt := .pending
  status : Nat := 0
  readyTime : Nat := 0
  /-- every block it names or grew, which it pins, and the moves it needs -/
  pins : List Nat := []
  moves : List Move := []
deriving DecidableEq, Repr

/-- Serving state (R277). -/
structure Kv where
  committed : Bool := false
  lastStatus : Nat := 0
  badItem : Nat := 0
  late : Nat := 0
  sat : Nat := 0
  lost : Nat := 0
  evicted : Nat := 0
  classes : NMap KvClass := []
  t0 : NMap KvT0 := []
  pools : NMap KvPool := []
  seqs : NMap Seq := []
  seqGen : NMap Nat := []
  blocks : NMap Block := []
  nextBlock : Nat := 0
  clock : Nat := 0
  copies : List Copy := []
  demotes : List Demote := []
  plans : NMap Plan := []
  nextPlan : Nat := 0
  /-- commands whose T0 table has WRITEs in the egress: table number, command, result (R250) -/
  tables : NMap (DRef × Nat) := []
  nextTable : Nat := 0
deriving DecidableEq, Repr

/-! ### Remote memory (09) -/

inductive QpSt where
  | reset | init | rtr | rts | sqd | error
deriving DecidableEq, Repr

/-- A posted receive. -/
structure RecvWr where
  ref : DRef := {}
  laddr : Nat := 0
  lkey : Nat := 0
  len : Nat := 0
deriving DecidableEq, Repr

/-- A posted send: its descriptor's opcode and fields, the local data it read, and how far it has come. -/
structure SendWr where
  /-- the command it completes, or none for a put of a collective program (R220) -/
  ref : Option DRef := none
  op : Nat := 0
  len : Nat := 0
  laddr : Nat := 0
  lkey : Nat := 0
  rkey : Nat := 0
  raddr : Nat := 0
  imm : Nat := 0
  solicited : Bool := false
  operand : Nat := 0
  swap : Nat := 0
  ah : Nat := 0
  /-- path of the address handle, as it stood when the request was posted -/
  path : Nat := 0
  destQp : Nat := 0
  qkey : Nat := 0
  /-- what the read of host memory for its local data answered -/
  host : HRead := .ok []
  data : List Byte := []
  psn : Nat := 0
  packets : Nat := 1
  sent : Bool := false
  sentAt : Nat := 0
  /-- response bytes received, and the value an atomic found -/
  got : Nat := 0
  found : Option Nat := none
  /-- the launch of a put: its core and command -/
  putFor : Option (Nat × DRef) := none
deriving DecidableEq, Repr

/-- The message a responder is in the middle of. -/
structure InMsg where
  write : Bool := false
  va : Nat := 0
  rkey : Nat := 0
  left : Nat := 0
  got : Nat := 0
deriving DecidableEq, Repr

/-- Where a queue pair's context is (R332 to R335). -/
inductive CtxRes where
  | absent | fetching | resident | victim
deriving DecidableEq, Repr

/-- A queue pair (R321, R337): path as its attribute record gives it. -/
structure Qp where
  own : Own := {}
  ring : Nat := 0
  type : Nat := 0
  pd : Nat := 0
  iface : Nat := 0
  sqLog : Nat := 6
  rqLog : Nat := 6
  st : QpSt := .reset
  attr : Nat := 0
  mtu : Nat := 0
  destQp : Nat := 0
  qkey : Nat := 0
  /-- requester -/
  psn : Nat := 0
  /-- oldest PSN not acknowledged -/
  una : Nat := 0
  timeout : Nat := 0
  retryCnt : Nat := 0
  rnrRetry : Nat := 0
  maxRd : Nat := 1
  retries : Nat := 0
  rnrs : Nat := 0
  rnrWait : Option Nat := none
  ackFrom : Nat := 0
  sends : List SendWr := []
  drainDue : Bool := false
  /-- responder -/
  epsn : Nat := 0
  msn : Nat := 0
  minRnr : Nat := 0
  maxDestRd : Nat := 1
  gapNak : Bool := false
  inMsg : Option InMsg := none
  recvs : List RecvWr := []
  saved : List (Nat × Nat) := []
  bound : Option Nat := none
  /-- context cache -/
  res : CtxRes := .absent
  dirty : Bool := false
  lru : Nat := 0
  parked : List RocePkt := []
  /-- gust controller (R342): rate Mb/s, level, quiet ticks, last CNP sent, round trip in µs of the last ack -/
  rate : Nat := 0
  gust : Nat := 0
  quiet : Nat := 0
  cnpAt : Option Nat := none
  rtt : Nat := 0
  /-- squall under way: level peak, rate at opening, lowest rate, CNPs, PTP time of opening (R343, R580) -/
  squall : Option (Nat × Nat × Nat × Nat × Nat) := none
  /-- pacer bucket in millibits and its last refill (R391) -/
  pacer : Int := 0
  pacerAt : Nat := 0
deriving DecidableEq, Repr

/-- A memory region (R324, R325). -/
structure Mr where
  own : Own := {}
  pd : Nat := 0
  gen : Nat := 0
  access : Nat := 0
  iova : Nat := 0
  length : Nat := 0
  host : Bool := false
  base : Nat := 0
  /-- the staging area of a communicator: any domain of its function reaches it (R226, R227) -/
  staging : Bool := false
deriving DecidableEq, Repr

/-- An address handle (R350): its attribute record. -/
structure Ah where
  own : Own := {}
  pd : Nat := 0
  iface : Nat := 0
  attr : Nat := 0
deriving DecidableEq, Repr

/-- RDMA registers and counters of an XPT tile (R351). -/
structure RdmaTile where
  miss : Nat := 0
  missDrop : Nat := 0
  missSince : Nat := 0
  missAt : Option Nat := none
  dupAck : Nat := 0
  protFail : Nat := 0
  noQp : Nat := 0
  icrcErr : Nat := 0
  /-- packets that have reached the transport and wait to be treated, with their interface -/
  input : List (Nat × RocePkt) := []
  cnpTx : Nat := 0
  cnpRx : Nat := 0
deriving DecidableEq, Repr

/-- The RDMA set of one PF1 (R351). -/
structure RdmaSet where
  base : Nat := 0
  log2 : Nat := 0
  committed : Bool := false
  status : Nat := 0
deriving DecidableEq, Repr

structure Rdma where
  /-- by endpoint -/
  sets : NMap RdmaSet := []
  pds : NMap Own := []
  mrs : NMap Mr := []
  mrGen : NMap Nat := []
  /-- by queue pair number; a GSI queue pair of interface j is 2^24 + j -/
  qps : NMap Qp := []
  /-- numbers freed, oldest first, and the next number never used, per endpoint (R321) -/
  freedA : List Nat := []
  freedB : List Nat := []
  nextA : Nat := 2
  nextB : Nat := 0x800002
  ahs : NMap Ah := []
  tiles : NMap RdmaTile := []
  clock : Nat := 0
  hwm : Nat := 3072
  gustOn : Bool := true
  cnpIntervalUs : Nat := 4
  tickUs : Nat := 16
  squallPct : Nat := 25
  minRate : Nat := 1000
  aiMbps : Nat := 400
  rttHighUs : Nat := 0
deriving DecidableEq, Repr

/-! ### Classification (10) -/

/-- A packet in a lane of an XPT tile (R353 to R355, R371). -/
structure Lane where
  iface : Nat := 0
  bytes : List Byte := []
  /-- the frame as it was received (18, tap NP_RX) -/
  arrived : List Byte := []
  ts : Nat := 0
  passes : Nat := 0
  /-- rule set and version fixed at the first pass -/
  set : Option (Nat × Nat) := none
  meta_ : Option Nat := none
  /-- colour a policer gave it -/
  color : Nat := 0
  /-- transmit: the TX_PACKET it comes from, or the queue pair of the transport -/
  ref : Option DRef := none
  stamp : Bool := false
  qpn : Option Nat := none
  /-- a READ response of its queue pair (R332) -/
  resp : Bool := false
deriving DecidableEq, Repr

/-- A key profile (R361). -/
structure Profile where
  valid : Bool := false
  fields : List Nat := []
  sym : Bool := false
deriving DecidableEq, Repr

/-- Settings of a set in one version (R381). -/
structure SetConf where
  depth : Nat := 0
  parseErr : Nat := 0
  seed : Nat := 0
  dflt : Nat := 0
  stages : List Nat := []
  profiles : List Profile := []
deriving DecidableEq, Repr

/-- An exact-match entry (R365, R375): key as the number its 40 bytes give, action word, place and versions. -/
structure Entry where
  profile : Nat := 0
  key : Nat := 0
  stack : Bool := false
  /-- bucket it lies in, per XPT tile; the stack table counts as tile 16 (R366) -/
  places : NMap Nat := []
  action : Nat := 0
  added : Nat := 0
  removed : Option Nat := none
deriving DecidableEq, Repr

/-- A range comparator in one version (R368, R382). -/
structure Comparator where
  index : Nat := 0
  terms : List (Nat × Nat × Nat) := []
  enabled : Bool := false
  action : Nat := 0
deriving DecidableEq, Repr

/-- A version of a set that is live: configuration, bindings (32 × direction + port), comparators. -/
structure SetVer where
  conf : SetConf := {}
  binds : List Nat := []
  comps : List Comparator := []
deriving DecidableEq, Repr

/-- A rule set (R372 to R377): versions by number counted without wrap. -/
structure RuleSet where
  own : Own := {}
  ring : Nat := 0
  graph : Nat := 0
  active : Nat := 0
  vers : NMap SetVer := []
  pendingVer : SetVer := {}
  entries : List Entry := []
  /-- counters: packets, bytes, by tile × 4,096 + index -/
  counters : NMap (Nat × Nat) := []
deriving DecidableEq, Repr


/-- Classifier state of an XPT tile (R384). -/
structure ClsTile where
  rx : List Lane := []
  tx : List Lane := []
  depth : Nat := 0
  parseErr : Nat := 0
  recirc : Nat := 0
  actionDrop : Nat := 0
  overflow : Nat := 0
  noSet : Nat := 0
deriving DecidableEq, Repr

structure Cls where
  owner : Nat := 0
  graphs : NMap Graph := []
  sets : NMap RuleSet := []
  tiles : NMap ClsTile := []
deriving DecidableEq, Repr

/-! ### Queues, shapers, gates (11) -/

/-- A two-rate bucket pair (R394), millibits, and the PTP time of its last refill. -/
structure Buckets where
  cir : Nat := 0
  pir : Nat := 0
  cbs : Nat := 0
  pbs : Nat := 0
  c : Int := 0
  p : Int := 0
  at_ : Nat := 0
deriving DecidableEq, Repr

/-- A frame that waits for a transmit queue or the transport participant. -/
structure TxFrame where
  bytes : List Byte := []
  ref : Option DRef := none
  stamp : Bool := false
  qpn : Option Nat := none
  /-- a READ response of its queue pair (R332) -/
  resp : Bool := false
deriving DecidableEq, Repr

/-- A transmit queue (R388, R392): its ring pair, class, weight code and shaper, frames and tags. -/
structure Txq where
  fn : Nat := 0
  gen : Nat := 0
  ring : Nat := 0
  iface : Nat := 0
  cls : Nat := 0
  weight : Nat := 0
  shaper : Buckets := {}
  frames : List TxFrame := []
  tag : Nat := 0
  fLast : Nat := 0
deriving DecidableEq, Repr

/-- A receive queue (R388, R389): posted buffers, oldest first, as command, address and length. -/
structure Rxq where
  fn : Nat := 0
  gen : Nat := 0
  ring : Nat := 0
  bufs : List (DRef × Nat × Nat) := []
deriving DecidableEq, Repr

/-- A policer (R396, R406): actions per color and counts, packets then bytes, green, yellow, red. -/
structure Policer where
  b : Buckets := {}
  green : Nat := 0
  yellow : Nat := 0
  red : Nat := 0
  dscp : Nat := 0
  counts : List Nat := [0, 0, 0, 0, 0, 0]
deriving DecidableEq, Repr

/-- An interface (R387, R391, R399, R408). -/
structure NetIf where
  up : Bool := false
  gatesOn : Bool := false
  rdmaTc : Nat := 3
  rdmaWeight : Nat := 0x20
  guardNs : Nat := 8
  gateBase : Nat := 0
  gateCycle : Nat := 0
  gateLen : Nat := 0
  gateChange : Nat := 0
  gcl : NMap Nat := []
  gateStatus : Nat := 0
  gateBadEntry : Nat := 0
  gateHeaderBad : Bool := false
  operGen : Nat := 0
  gatePend : Option GateList := none
  gateOper : Option GateList := none
  gateEntry : Nat := 0
  gateDrop : Nat := 0
  rxNoq : Nat := 0
  rxNobuf : Nat := 0
  noPolicer : Nat := 0
  /-- virtual time per class (R393) -/
  v : NMap Nat := []
  /-- the transport participant (R391) -/
  rdma : List TxFrame := []
  rdmaTag : Nat := 0
  rdmaLast : Nat := 0
  /-- the frame on the wire, the PTP time of its start and of its end -/
  sending : Option (TxFrame × Nat × Nat) := none
  lastAct : Nat := 0
deriving DecidableEq, Repr

/-- A network port (R387): breakout, refused, and its queues and policers. -/
structure NetPort where
  breakout : Nat := 0
  refused : Bool := false
  shuttersOpen : Bool := false
  txDelay : Nat := 0
  rxDelay : Nat := 0
  txqs : NMap Txq := []
  rxqs : NMap Rxq := []
  policers : NMap Policer := []
deriving DecidableEq, Repr

/-- A TIME_WAIT that has not completed (R405). -/
structure TimeWait where
  ref : DRef := {}
  at_ : Nat := 0
deriving DecidableEq, Repr

structure Net where
  ports : NMap NetPort := []
  ifs : NMap NetIf := []
  waits : List TimeWait := []
deriving DecidableEq, Repr

/-! ### Sealing (12) -/

inductive KeySt where
  | allocated | loaded | saved
deriving DecidableEq, Repr

/-- An ESP security association (R435). -/
structure SaRec where
  spi : Nat := 0
  inbound : Bool := false
  tunnel : Bool := false
  esn : Bool := false
  udpEncap : Bool := false
  replayLog2 : Nat := 0
  outerLen : Nat := 0
  template : List Byte := []
deriving DecidableEq, Repr

/-- A key slot that is not FREE (R414, R415). -/
structure KeySlot where
  st : KeySt := .allocated
  kind : Nat := 1
  own : Own := {}
  /-- the 64-byte record, which nothing reads out (R417) -/
  material : List Byte := []
  counter : Nat := 1
  sa : Option SaRec := none
  /-- it has sealed or opened, so that SA_SET is refused (R435) -/
  used : Bool := false
  softPosted : Bool := false
  pinned : Option Nat := none
  /-- inbound: highest sequence accepted and the marks below it, bit k for highest − k (R423) -/
  hiSeq : Nat := 0
  window : Nat := 0
deriving DecidableEq, Repr

/-- A SEAL tile 0 to 7 (R411, R426, R437). -/
structure SealTile where
  forceMasked : Bool := false
  masked : Bool := true
  reason : Nat := 1
  /-- it waits for its self-test after a fault, and recovers for 1 s until this cycle (R428) -/
  faulted : Bool := false
  recoverUntil : Nat := 0
  authFail : Nat := 0
  replay : Nat := 0
  badSa : Nat := 0
  exhausted : Nat := 0
  oversize : Nat := 0
  bytes : Nat := 0
deriving DecidableEq, Repr

/-- MC_LOCK (R433). -/
structure McLock where
  holder : Nat := 0
  held : Bool := false
  broken : Bool := false
  ptr : Nat := 0
  since : Nat := 0
deriving DecidableEq, Repr

structure Seal where
  slots : NMap KeySlot := []
  tiles : NMap SealTile := []
  /-- steering entry 64 × die + e names a tile of the die (R412) -/
  steer : NMap Nat := []
  mc : McLock := {}
  /-- rotating pointer of the slot allocator over its claimants (R416) -/
  keyPtr : Nat := 0
deriving DecidableEq, Repr

/-! ### Storage (13) -/

/-- What a backend does for a command: read, write, flush, deallocate. -/
inductive BOp where
  | read | write | flush | dealloc
deriving DecidableEq, Repr

/-- Whom a backend command serves: a host command, by controller and number, the write-back of a buffered block, or the
take of an endpoint's PF1: 0 the zeros of its root slot, 1 data or extent table, 2 its Flush, 3 its root (R292). -/
inductive BFor where
  | host (ctrl cmd : Nat)
  | back (block : Nat)
  | take (ep phase : Nat)
deriving DecidableEq, Repr

/-- A backend command that has not completed (R446, R455): `sent` once it has been issued to the target. -/
structure BCmd where
  op : BOp := .read
  lba : Nat := 0
  n : Nat := 0
  fua : Bool := false
  data : List Byte := []
  who : BFor := .back 0
  sent : Bool := false
deriving DecidableEq, Repr

/-- Backend states (R445, Table 13-2). -/
inductive BackSt where
  | connecting | ready | down
deriving DecidableEq, Repr

/-- A backend (R443 to R446, R460): its record, its queue pairs, how far the connection of its queues has come and the
BACKEND_CREATE or BACKEND_REBIND that waits for it, and the commands outstanding, oldest first. -/
structure Backend where
  own : Own := {}
  remote : Bool := false
  record : List Byte := []
  base : Nat := 0
  blocks : Nat := 0
  queues : Nat := 0
  depth : Nat := 0
  kato : Nat := 0
  qps : List Nat := []
  st : BackSt := .connecting
  step : Nat := 0
  ref : Option DRef := none
  reconnects : Nat := 0
  lastKa : Nat := 0
  cmds : List BCmd := []
deriving DecidableEq, Repr

/-- A namespace (R447 to R449): range of its backend, key slot (none where plain), the controller and NSID it is attached
at, and the NS_DETACH that waits for its commands, with those it has failed. -/
structure Namespace where
  own : Own := {}
  backend : Nat := 0
  first : Nat := 0
  blocks : Nat := 0
  key : Option Nat := none
  at_ : Option (Nat × Nat) := none
  detach : Option DRef := none
  failed : Nat := 0
deriving DecidableEq, Repr

/-- A buffered block (R450, R451): its number, which orders blocks by age, its slice and place in it, whether its
write-back is outstanding and whether one has failed, and whether a later Write has replaced it. -/
structure WBlock where
  id : Nat := 0
  ns : Nat := 0
  lba : Nat := 0
  slice : Nat := 0
  place : Nat := 0
  writing : Bool := false
  faulted : Bool := false
  stale : Bool := false
deriving DecidableEq, Repr

/-- An NVMe command that has been fetched and not completed: its queue, its entry, whether its row has acted, and its
progress. -/
structure NvmCmd where
  no : Nat := 0
  sq : Nat := 0
  cid : Nat := 0
  sqe : Nat := 0
  begun : Bool := false
  /-- some of its data has moved, or a backend command was issued for it (R456) -/
  started : Bool := false
  ns : Nat := 0
  lba : Nat := 0
  n : Nat := 0
  /-- host pages, as address and bytes; data of a Write -/
  pages : List (Nat × Nat) := []
  data : HRead := .ok []
  zeroes : Bool := false
  /-- blocks placed in the buffer, blocks read -/
  placed : Nat := 0
  got : NMap (List Byte) := []
  /-- write-through that waits for write-backs of its LBAs; ranges of a deallocation -/
  through : Bool := false
  ranges : List (Nat × Nat) := []
  /-- buffered blocks a Flush or deallocation waits for; namespaces it flushes then -/
  waits : List Nat := []
  flush : List Nat := []
  /-- the backend part has been issued; backend commands outstanding; the first failure -/
  issued : Bool := false
  left : Nat := 0
  err : Option Nat := none
deriving DecidableEq, Repr

structure NvmSq where
  base : Nat := 0
  size : Nat := 0
  cq : Nat := 0
  head : Nat := 0
  tail : Nat := 0
  /-- what the read of the entries up to the tail gave, where they are not to be fetched yet (R442, R487) -/
  late : Option HRead := none
deriving DecidableEq, Repr

/-- A completion queue, with the completions that wait for a free entry: Dword 0, submission queue, command
identifier, status field. -/
structure NvmCq where
  base : Nat := 0
  size : Nat := 0
  ien : Bool := false
  iv : Nat := 0
  head : Nat := 0
  tail : Nat := 0
  phase : Bool := true
  waiting : List (Nat × Nat × Nat × Nat) := []
deriving DecidableEq, Repr

/-- An NVMe controller (R439 to R442), keyed by its index. -/
structure Ctrl where
  cc : Nat := 0
  intms : Nat := 0
  aqa : Nat := 0
  asq : Nat := 0
  acq : Nat := 0
  rdy : Bool := false
  cfs : Bool := false
  shst : Nat := 0
  tile : Option Nat := none
  nsqs : Option Nat := none
  ncqs : Option Nat := none
  vwc : Bool := true
  async : Nat := 0x100
  arb : Nat := 0
  coalesce : Nat := 0
  ivCfg : NMap Nat := []
  sqs : NMap NvmSq := []
  cqs : NMap NvmCq := []
  cmds : List NvmCmd := []
  cmdNo : Nat := 0
  /-- Aborts whose completion waits for a free entry: their identifier, and the queue and identifier they name (R457) -/
  aborts : List (Nat × Nat × Nat) := []
  /-- events not yet reported, by Dword 0; types reported and masked until their log page is read -/
  events : List Nat := []
  masked : List Nat := []
  changed : List Nat := []
  errors : Nat := 0
  lastError : Nat := 0
  reads : Nat := 0
  writes : Nat := 0
  readBlocks : Nat := 0
  writeBlocks : Nat := 0
deriving DecidableEq, Repr

/-- An STO tile 0 to 7 (R462). -/
structure StoTile where
  aborted : Nat := 0
  cmds : Nat := 0
deriving DecidableEq, Repr

/-- Storage: backends, namespaces 1 to 4,096, controllers 0 to 513, and the write buffer, whose slices are given by
size in MiB and base in 2 MiB (R450, R462). -/
structure Sto where
  backends : NMap Backend := []
  nss : NMap Namespace := []
  ctrls : NMap Ctrl := []
  tiles : NMap StoTile := []
  sizes : NMap Nat := []
  bases : NMap Nat := []
  committed : Bool := false
  status : Nat := 0
  badItem : Nat := 0
  blocks : List WBlock := []
  blockNo : Nat := 0
  ptr : Nat := 0
  lost : Nat := 0
  /-- Writes that wait for buffer room, in arrival order: controller and command -/
  waitWrites : List (Nat × Nat) := []
deriving DecidableEq, Repr

/-! ### Checkpoints (08) -/

/-- A store of a job (R282, Table 8-11). -/
structure CkStore where
  backend : Nat := 0
  blocks : Nat := 0
  first : Nat := 0
deriving DecidableEq, Repr

/-- The job of a PF1 (R281), and the pair its restores are fixed at (R302). -/
structure CkJob where
  jobId : Nat := 0
  epoch : Nat := 0
  members : Nat := 0
  member : Nat := 0
  ownStore : Nat := 0
  stores : List CkStore := []
  key : Nat := 0
  pair : Option (Nat × Nat) := none
  /-- the incarnation that holds it (R480) -/
  gen : Nat := 0
deriving DecidableEq, Repr

/-- A region of a take (Table 8-9), and the runs kept where it is not read: listing 0 written, 1 written under its name,
2 carried, 3 referenced (R294). -/
structure CkRegion where
  id : Nat := 0
  accel : Bool := false
  dedup : Nat := 0
  port : Nat := 0
  window : Nat := 0
  addr : Nat := 0
  bytes : Nat := 0
  name : Nat := 0
  listing : Nat := 0
  kept : List (Nat × Nat) := []
deriving DecidableEq, Repr

/-- A granule copied away before a write (R288): its number, the place of its copy in the reserve, or the bytes where no
place was free, and whether it could not be read whole. -/
structure CowCopy where
  granule : Nat := 0
  place : Option Nat := none
  bytes : List Byte := []
  bad : Bool := false
deriving DecidableEq, Repr

/-- Take states other than IDLE (R293). -/
inductive TakeSt where
  | accepted | snapshot | writing | committing
deriving DecidableEq, Repr

/-- A take (R286 to R298). -/
structure Take where
  ref : DRef := {}
  userTag : Nat := 0
  step : Nat := 0
  epoch : Nat := 0
  sections : Nat := 0
  relWindow : Nat := 0
  relOffset : Nat := 0
  at_ : Nat := 0
  regions : List CkRegion := []
  st : TakeSt := .accepted
  snapTime : Nat := 0
  /-- root slot to write, commit_seq to give, runs of the data area that are free -/
  slot : Nat := 0
  commitSeq : Nat := 1
  free : List (Nat × Nat) := []
  /-- protected granules in the order of write-out; granules being copied, and copies in the reserve -/
  prot : List Nat := []
  copying : List Nat := []
  copies : List CowCopy := []
  fullPosted : List Nat := []
  /-- block copies still to read, as block and tier; records of CONFIG and SERVING for the extent table -/
  holds : List (Nat × Nat) := []
  records : List Nat := []
  /-- pieces of accelerator regions still to capture, as region and offset; bytes captured -/
  capture : List (Nat × Nat) := []
  captured : Nat := 0
  released : Bool := false
  /-- runs written, by piece: 2^20 × region + granule, or 2^40 + block -/
  runs : NMap (List (Nat × Nat)) := []
  zeroed : Bool := false
  held : List BCmd := []
  left : Nat := 0
  table : Option (Nat × Nat) := none
  flushed : Bool := false
  root : List Byte := []
  written : Nat := 0
deriving DecidableEq, Repr

/-- Checkpoint state of one PF1 (R315): set registers, and the job, take and counters. -/
structure Ckpt where
  capBase : Nat := 0
  capSize : Nat := 0
  cowBase : NMap Nat := []
  cowSize : NMap Nat := []
  committed : Bool := false
  status : Nat := 0
  badItem : Nat := 0
  job : Option CkJob := none
  take : Option Take := none
  step : Nat := 0
  copies : Nat := 0
  waitUs : Nat := 0
  failed : Nat := 0
  bytesOut : Nat := 0
deriving DecidableEq, Repr

/-! ### Memory stacks (15) -/

/-- A channel of a stack (R503). -/
structure Chan where
  lost : Bool := false
  failedRetrains : Nat := 0
  failed : Bool := false
  ceHour : Nat := 0
  hour : Nat := 0
  degradedHour : Option Nat := none
  /-- rotating pointer over the claimants (R508) -/
  ptr : Nat := 0
deriving DecidableEq, Repr

/-- A group retirement under way or stopped (R504 to R506). -/
structure Retire where
  group : Nat := 0
  ref : DRef := {}
  running : Bool := true
  /-- logical frames still to move, in ascending order, and the physical frames (group, frame) free for them -/
  todo : List Nat := []
  free : List (Nat × Nat) := []
  moved : Nat := 0
  added : Nat := 0
deriving DecidableEq, Repr

/-- One stack (R496 to R512). -/
structure Stk where
  /-- frame table entries that differ from f mod 16, f div 16 (R497): 2,048 × group + physical frame -/
  frames : NMap Nat := []
  mapped : Nat := 32768
  retiredMask : Nat := 0
  retire : Option Retire := none
  chans : NMap Chan := []
  ce : Nat := 0
  ue : Nat := 0
  lost : List Nat := []
  lastUe : Nat := 0
  errorLog : List (Nat × Nat) := []
  /-- share of channel time per tile kind in the present 1 µs window (R509) -/
  capUse : NMap Nat := []
  scrubAt : Nat := 0
deriving DecidableEq, Repr

/-! ### Power, clocks and start (16) -/

/-- What a change of a domain waits for (R516, R525, R530, R532): its drain, its regulator, its transition, its self-test. -/
inductive DomStep where
  | drain | ack | move | test
deriving DecidableEq, Repr

/-- A shutter or reopen under way (R530, R532): the state it goes to and came from, and the command it completes. -/
structure DomAct where
  reopen : Bool := false
  target : Nat := 0
  prev : Nat := 0
  ref : Option DRef := none
  step : DomStep := .drain
  since : Nat := 0
deriving DecidableEq, Repr

/-- A power domain (R524, R545): power 0 OFF, 1 RETAIN, 2 ON, 3 changing; service 0 shuttered, 1 in service, 2 CLOSING,
3 self-test; its clock stopped at its limit (R523); shutters that wait for a running reopen (R533). -/
structure Dom where
  power : Nat := 0
  service : Nat := 0
  lastRefusal : Nat := 0
  forced : Bool := false
  gen : Nat := 0
  retain : Nat := 0xFFFFFFFF
  stopped : Bool := false
  stoppedAt : Nat := 0
  act : Option DomAct := none
  waiting : List (DRef × Nat) := []
deriving DecidableEq, Repr

/-- Limits that a limit controller has loaded and holds locked (R215): mV, MHz and °C. -/
structure Limit where
  mv : Nat := 0
  mhz : Nat := 0
  temp : Nat := 0
deriving DecidableEq, Repr

/-- Where a profile change stands (Table 16-5). -/
inductive ChangeStep where
  /-- a raise waits for both acknowledgements, for both rails to settle, for the tick at which CCLK switches -/
  | raiseAck | settle | raiseTick
  /-- a lower waits for the tick, then for both acknowledgements -/
  | lowerTick | lowerAck
deriving DecidableEq, Repr

/-- A profile change under way (R520): its target, the reason to give at its end, and the core rails that have not
acknowledged. -/
structure Change where
  target : Nat := 0
  reason : Nat := 0
  step : ChangeStep := .raiseAck
  acks : List Nat := []
  since : Nat := 0
deriving DecidableEq, Repr

/-- Power and start (R514 to R546). -/
structure Power where
  /-- the ROM chain has run (R553); stage 0 has been reached; the stage reached -/
  romDone : Bool := false
  started : Bool := false
  stage : Nat := 0
  warm : Bool := false
  held : Bool := false
  fault : Bool := false
  /-- cycle of power-good or of the warm restart; START_TIME_k -/
  startAt : Nat := 0
  times : NMap Nat := []
  /-- PD_PROFILE, PD_ENVELOPE -/
  selected : Nat := 0
  inForce : Nat := 0
  reason : Nat := 3
  profileBad : Bool := false
  watts : Nat := 0
  wattsBad : Bool := false
  change : Option Change := none
  /-- automatic lowering that waits for a raise to complete, by reason (R523) -/
  lowerNext : Option Nat := none
  /-- a core-rail voltage that a lower left higher: next retry, and the rails that have not acknowledged it (R520) -/
  retryAt : Option Nat := none
  retryAcks : List Nat := []
  exceededAt : Option Nat := none
  thermalAt : Option Nat := none
  /-- limit controllers: of the domains, then 108 for the control-core clock and 109 for the keepers' clock; voltage set on
  rails 3 and 4 (R215, R516, R520) -/
  limits : NMap Limit := []
  railMv : NMap Nat := []
  /-- PD_INPUT.condition; rails switched off by a fault; a shorted management bus and its next recovery (R517) -/
  condition : Nat := 0
  railsOff : List Nat := []
  busShort : Bool := false
  busAt : Nat := 0
  /-- PD_REFUSED_k, CDC_OVERRUN; laser units absent from their cages (R594) -/
  refused : NMap Nat := []
  cdc : Nat := 0
  noLaser : List Nat := []
deriving DecidableEq, Repr

/-! ### Trust (17) and the management port (19) -/

/-- A management-port connection, and the session once it is open (R550, R595 to R597): roles 0 maker, 1 installer,
2 operator, 3 none (an unclaimed module). -/
structure Session where
  opened : Bool := false
  role : Nat := 3
  challenge : List Byte := []
  key : List Byte := []
  lastMsg : Nat := 0
  rxNext : Nat := 0
  txNext : Nat := 0
deriving DecidableEq, Repr

/-- An audit record (R562, Table 17-5): its bits 255:0, its chain, and for a seal record the signature of its seal page. -/
structure AuditRec where
  word : Nat := 0
  chain : List Byte := []
  sig : List Byte := []
deriving DecidableEq, Repr

/-- A role's public key and its 32-byte management key (R549, R550). -/
structure RoleKey where
  pub : List Byte := []
  mgmt : List Byte := []
deriving DecidableEq, Repr

/-- A command of a session that waits for its commit tick (R556): code of Table 17-4 and body; for FW_STAGE the image that
comes with it. -/
structure MgmtCmd where
  session : Nat := 0
  role : Nat := 3
  code : Nat := 0
  body : List Byte := []
  image : ImageSet := {}
deriving DecidableEq, Repr

/-- Who waits for a firmware command: a ring command or a session (R565). -/
inductive FwFrom where
  | ring (ref : DRef)
  | session (n : Nat)
deriving DecidableEq, Repr

/-- An activation under way (R566): the set before it, components still to replace, those replaced with the firmware they
ran before, the one in hand with its generation as the replacement began, and whether replaced ones are being returned. -/
structure Activation where
  from_ : FwFrom := .session 0
  prev : Nat := 0
  todo : List Nat := []
  done : List (Nat × Comp) := []
  cur : Option (Nat × Comp) := none
  failed : Bool := false
  warmNow : Bool := false
deriving DecidableEq, Repr

/-- A consent token that the installer issued (R558): boot count, scope, maker management key. -/
structure Consent where
  boot : Nat := 0
  scope : Nat := 0
  key : List Byte := []
deriving DecidableEq, Repr

/-- Trust (R547 to R570). -/
structure Trust where
  installer : Option RoleKey := none
  operator : Option RoleKey := none
  policy : Bool := false
  ceiling : Nat := 0
  shutterAp : Nat := 0
  shutterNp : Nat := 0
  recovery : Bool := false
  consent : Option Consent := none
  /-- scope of a debug unlock in force: bit 0 test, 1 debug, 2 clear read-out, and the maker session that it is open to; 4 once
  that has ended (R558, R559) -/
  debugScope : Nat := 0
  debugSession : Nat := 4
  /-- the straps as sampled at the last commit tick: true reads high (R590) -/
  claimEnN : Bool := true
  debugEnN : Bool := true
  bootCount : Nat := 0
  minSecurity : Nat := 0
  activeSet : Nat := 0
  trial : Bool := false
  attempts : Nat := 0
  /-- a start in trial has not reached stage 4 yet (R567) -/
  trying : Bool := false
  /-- set A in F0, set B in F1; the set that the module left the factory with stands in F0 (DESIGN CHOICE, log 22) -/
  sets : NMap ImageSet := [(0, { factory := true })]
  staged : Bool := false
  pendingWarm : Bool := false
  pendingCold : Bool := false
  fallback : Bool := false
  act : Option Activation := none
  /-- attestation leaves: next, first above the reservation (R560) -/
  nextLeaf : Nat := 0
  leafEnd : Nat := 0
  leavesLow : Bool := false
  /-- audit log: seq of the next record, chain head, records by seq (R562, R563) -/
  seq : Nat := 0
  head : List Byte := List.replicate 32 0#8
  records : NMap AuditRec := []
  flashBad : List Nat := []
  sessions : NMap Session := []
  /-- commands of sessions that wait for the tick (R556) -/
  cmds : List MgmtCmd := []
deriving DecidableEq, Repr

/-! ### Check values and the weather feed (18) -/

/-- A check-value unit (R571 to R575). -/
structure CvUnit where
  tap : Nat := 0
  poly : Nat := 0
  mode : Nat := 0
  armed : Bool := false
  stopped : Bool := false
  aborted : Bool := false
  badTap : Bool := false
  window : Nat := 1
  sel : Nat := 0
  vc : Nat := 0
  any : Bool := true
  handle : Nat := 0
  hgen : Nat := 0
  queue : Nat := 0xFFFF
  /-- units and bytes of the window in progress -/
  progress : Nat := 0
  taken : List Byte := []
  /-- channels or classes of which a unit of traffic was under way as the unit was armed (R574) -/
  skip : List Nat := []
  windows : Nat := 0
  expect : Nat := 0
  last : Nat := 0
  mismatches : Nat := 0
deriving DecidableEq, Repr

/-- An alive monitor (R576, R577). -/
structure AliveMon where
  source : Nat := 0
  width : Nat := 0
  cvUnit : Nat := 0
  core : Nat := 0
  enable : Bool := false
  offset : Nat := 0
  period : Nat := 1000
  addr : Nat := 0
  minStep : Nat := 1
  maxStep : Nat := 1
  last : Nat := 0
  seen : Bool := false
  repeats : Nat := 0
  skips : Nat := 0
  unreadable : Nat := 0
  eventAt : Option Nat := none
  nextAt : Nat := 0
deriving DecidableEq, Repr

/-- A buffer of a feed ring (R582). -/
structure FeedBuf where
  ref : DRef := {}
  addr : Nat := 0
  length : Nat := 0
  bytes : Nat := 0
  records : Nat := 0
  since : Nat := 0
deriving DecidableEq, Repr

/-- A path of the weather feed (R578, R581, R584). -/
structure FeedPath where
  mask : Nat := 0
  flushMs : Nat := 100
  lost : Nat := 0
  pendLost : Nat := 0
  seq : Nat := 0
  queue : List (BitVec 512) := []
  bufs : List FeedBuf := []
deriving DecidableEq, Repr

/-- Check values and feed. -/
structure Weather where
  units : NMap CvUnit := []
  mons : NMap AliveMon := []
  /-- paths: 1, 2, 4, 5 by rank of the function, 16 + n for session n -/
  paths : NMap FeedPath := []
  /-- WF_INTERVAL_t in ms, where it is not 1,000 -/
  intervals : NMap Nat := []
  /-- vestibule cycle of the last sample of a type (R579) -/
  sampledAt : NMap Nat := []
  /-- totals that sampled records report as deltas, and what the last record of a source reported -/
  totals : NMap Nat := []
  prev : NMap Nat := []
deriving DecidableEq, Repr

/-- What leaves the module, in the order it is made. -/
inductive Output where
  /-- a posted write to a function's host memory (R467) -/
  | hostWrite (fn addr : Nat) (bytes : List Byte)
  /-- a completion entry written to a completion ring (R52) -/
  | completion (fn ring addr : Nat) (entry : BitVec 256)
  /-- an event entry written to an event ring (R56) -/
  | event (fn addr : Nat) (entry : BitVec 256)
  /-- the SQ consumer write-back word (R47) -/
  | headWb (fn addr index : Nat)
  /-- an MSI-X message (R473) -/
  | msix (fn vector : Nat)
  /-- Assert_INTx or Deassert_INTx (R474) -/
  | intx (fn : Nat) (assert : Bool)
  /-- a Function Readiness Status message (R479) -/
  | readiness (fn : Nat)
  /-- an Advisory Non-Fatal Error report (R470, R471) -/
  | advisory (fn : Nat) (kind : Nat)
  /-- a read of host memory issued by the block: function, address, bytes -/
  | hostRead (fn addr bytes : Nat)
  /-- the endpoint asks for L1 (R472) -/
  | enterL1 (ep : Nat)
  /-- a flit sent on an accelerator port, as the bytes that travel on each lane (R71, R79) -/
  | flit (port : Nat) (lanes : List (Nat × List Byte))
  /-- a register of a tile or of the vestibule written by a control core (R214) -/
  | tileReg (core offset width : Nat) (value : Nat)
  /-- a read the block's engines issue into accelerator memory: port, address, bytes (R99) -/
  | accelRead (port addr bytes : Nat)
  /-- a read or write of a storage backend: index, first logical block, bytes or data (R241, 13) -/
  | backendRead (backend lba bytes : Nat)
  | backendWrite (backend lba : Nat) (bytes : List Byte)
  /-- a context of a queue pair written back to the backing table of its PF1 (R332): function, address, queue pair -/
  | contextWrite (fn addr qpn : Nat)
  /-- a frame leaves an interface, without its FCS (R390) -/
  | frame (iface : Nat) (bytes : List Byte)
  /-- a command sent to a REMOTE backend: index, NVMe opcode (0x7F Fabrics, with 0 Property Set, 1 Connect, 4 Property
  Get in `lba`), first backend block, blocks, FUA, data (R444) -/
  | target (backend op lba blocks : Nat) (fua : Bool) (bytes : List Byte)
  /-- a message to a management session, whole (R596) -/
  | mgmt (session : Nat) (bytes : List Byte)
  /-- a management connection is closed (R595, R597) -/
  | mgmtClosed (session : Nat)
  /-- a PCIe DOE response object (R564) -/
  | doe (fn : Nat) (bytes : List Byte)
  /-- PPS_OUT pulses high for 100 ns (R589) -/
  | pps
deriving DecidableEq, Repr

/-- Why the block stops. -/
inductive Fault where
  /-- raised by INPUT_OVERVOLTAGE above the absolute maximum of 80 V, for which R598 specifies no behaviour; safe -/
  | aboveAbsoluteMaximum
deriving DecidableEq, Repr

/-- Why a command has no meaning. -/
inductive Refusal where
  /-- raised by Dispatch for a command that the model does not give a meaning yet; safe -/
  | notModelled (mnemonic : String)
deriving DecidableEq, Repr

/-- The whole machine (INVENTORY.md, State). -/
structure State where
  /-- functions by rank 1, 2, 4-1,031 (R63) -/
  fns : NMap Fn := []
  /-- host links by endpoint (R472) -/
  links : NMap HostLink := []
  /-- the transom (R64, R604) -/
  transom : Transom := {}
  /-- setup registers that no typed field holds (R10) -/
  regs : RegStore := []
  /-- PTP time (R402, R403) -/
  clock : Clock := {}
  /-- stack memory: byte at stack address, zero where unlisted (R497, R507) -/
  stack : NMap Byte := []
  /-- accelerator ports AP0-AP7 (03) -/
  ports : NMap APort := []
  fabric : Fabric := {}
  /-- reduction (04) -/
  red : Reduce := {}
  /-- control cores 0-63 and keepers 64, 65 (05) -/
  cores : NMap Core := []
  /-- firmware components, programs, communicators, locks, shared memory (06) -/
  fw : Firmware := {}
  /-- serving state (07) -/
  kv : Kv := {}
  /-- remote memory (09) -/
  rdma : Rdma := {}
  /-- classification (10) -/
  cls : Cls := {}
  /-- network ports, interfaces, time waits (11) -/
  net : Net := {}
  /-- sealing (12) -/
  sealing : Seal := {}
  /-- storage (13) -/
  sto : Sto := {}
  /-- checkpoints (08), by endpoint -/
  ck : NMap Ckpt := []
  /-- stacks S0-S7 and the MEMORY block's shared registers (15) -/
  stks : NMap Stk := []
  memCap : Nat := 0x3264C993264
  memCeLimit : Nat := 1000
  /-- power domains 0-107 and the rest of chapter 16 -/
  doms : NMap Dom := []
  power : Power := {}
  /-- trust, roles and updates (17) -/
  trust : Trust := {}
  /-- check values and the weather feed (18) -/
  wx : Weather := {}
  /-- vestibule clock periods of 2.5 ns since power-good (R64) -/
  vcycle : Nat := 0
  /-- counter at which free values are drawn (the model's own, log 3) -/
  freeCtr : Nat := 0
  /-- what has left the module, newest first (the model's own, log 4) -/
  out : List Output := []
  /-- commands that wait, first in first out (the model's own, log 1) -/
  pending : List Instr := []
deriving DecidableEq, Repr

/-- Power-good has just come and nothing has started (R553, R11): every field at the value its declaration gives. -/
def State.reset : State := {}

end Sys2Proof.Machine
end

