-- ==== Sys2Proof/Machine/Ops.lean ====
section
/-!
DEFINITION. Operations every family shares: access to functions, rings and cores, time, host writes, interrupts,
events, completions, the start and end of descriptors, shared-control conflicts, ring-pair ownership, stack memory.
-/
namespace Sys2Proof.Machine

/-! ### Ranks (R63, Table 2-13) -/

def isPf0 (r : Nat) : Bool := r == 1 || r == 2
def isPf1 (r : Nat) : Bool := r == 4 || r == 5
def isPf2 (r : Nat) : Bool := r == 6 || r == 7
def isVf1 (r : Nat) : Bool := 8 ≤ r && r ≤ 519
def isVf2 (r : Nat) : Bool := 520 ≤ r && r ≤ 1031
def isVf (r : Nat) : Bool := isVf1 r || isVf2 r
def isFn (r : Nat) : Bool := isPf0 r || (4 ≤ r && r ≤ 1031)
/-- Functions that present RING_CONTRACT and EVENTS_INTERRUPTS (Table 2-2). -/
def hasRings (r : Nat) : Bool := isPf0 r || isPf1 r || isVf1 r

/-- Host endpoint of a function: 0 or 1. -/
def epOf (r : Nat) : Nat :=
  if r < 4 then r - 1 else if r < 6 then r - 4 else if r < 8 then r - 6
  else if r < 264 then 0 else if r < 520 then 1 else if r < 776 then 0 else 1

/-- VF number of a virtual function. -/
def vfNo (r : Nat) : Nat := (r - 8) % 256

def pf0Of (ep : Nat) : Nat := 1 + ep
def pf1Of (ep : Nat) : Nat := 4 + ep
def pf2Of (ep : Nat) : Nat := 6 + ep
def vf1Of (ep n : Nat) : Nat := 8 + 256 * ep + n
def vf2Of (ep n : Nat) : Nat := 520 + 256 * ep + n
/-- The physical function a virtual function belongs to (itself for a PF). -/
def pfOf (r : Nat) : Nat := if isVf1 r then pf1Of (epOf r) else if isVf2 r then pf2Of (epOf r) else r

/-- MSI-X vectors of a function (R473). -/
def vectorsOf (r : Nat) : Nat := if isVf r then 64 else 2048

/-! ### Access to State -/

def State.fn (s : State) (r : Nat) : Fn := mget s.fns r {}
def State.modFn (s : State) (r : Nat) (f : Fn → Fn) : State := { s with fns := mset s.fns r (f (s.fn r)) {} }
def State.ring (s : State) (r i : Nat) : Ring := mget (s.fn r).rings i {}
def State.modRing (s : State) (r i : Nat) (g : Ring → Ring) : State :=
  s.modFn r (fun f => { f with rings := mset f.rings i (g (mget f.rings i {})) {} })
def State.core (s : State) (c : Nat) : Core := mget s.cores c {}
def State.modCore (s : State) (c : Nat) (g : Core → Core) : State :=
  { s with cores := mset s.cores c (g (s.core c)) {} }

/-- The generation an object of a function carries. -/
def State.ownOf (s : State) (r : Nat) : Own := { fn := r, gen := (s.fn r).gen }

/-- A function's running incarnation holds the object (R480, R482). -/
def owns (s : State) (r : Nat) (o : Own) : Bool := o == s.ownOf r

/-- The function whose endpoint sends a TLP for an output. -/
def tlpFn : Output → Option Nat
  | .hostWrite f _ _ => some f
  | .completion f _ _ _ => some f
  | .event f _ _ => some f
  | .headWb f _ _ => some f
  | .msix f _ => some f
  | .intx f _ => some f
  | .readiness f => some f
  | .advisory f _ => some f
  | .hostRead f _ _ => some f
  | .contextWrite f _ _ => some f
  | _ => none

/-- Something leaves the module; a TLP takes its link out of L1 (R472). -/
def emit (s : State) (o : Output) : State :=
  let s1 := { s with out := o :: s.out }
  match tlpFn o with
  | none => s1
  | some f => { s1 with links := mset s1.links (epOf f) { mget s1.links (epOf f) {} with inL1 := false, lastTlp := s.vcycle } {} }

/-- A fresh free value (log 3). -/
def freeOf (s : State) : BitVec 64 := Config.freeWord s.freeCtr
def tickFree (s : State) : State := { s with freeCtr := s.freeCtr + 1 }

/-! ### Time (R64, R402, R403) -/

/-- Vestibule periods in a microsecond and a millisecond: 2.5 ns each. -/
def usCycles : Nat := 400
def msCycles : Nat := 400000

/-- PTP time in parts of 1/(2·10^12) ns: 5·(10^12 + freq) of them pass in each vestibule period. -/
def ptpAcc (s : State) : Nat := s.clock.acc + (s.vcycle - s.clock.at_) * (5 * (10 ^ 12 + s.clock.freq)).toNat

/-- PTP time in ns (R402). -/
def ptp (s : State) : Nat := ptpAcc s / (2 * 10 ^ 12)

/-- The clock moves forward to a moment that a time-driven command stands for (DESIGN CHOICE, log 2). -/
def advanceTo (s : State) (t : Nat) : State := { s with vcycle := max s.vcycle t }

/-- The first vestibule cycle at which PTP time reaches `ns` at the present rate. -/
def cycleOfPtp (s : State) (ns : Nat) : Nat :=
  let need := ns * (2 * 10 ^ 12)
  let per := (5 * (10 ^ 12 + s.clock.freq)).toNat
  if need ≤ ptpAcc s then s.vcycle else s.vcycle + (need - ptpAcc s + per - 1) / per

def advanceToPtp (s : State) (ns : Nat) : State := advanceTo s (cycleOfPtp s ns)

/-! ### Host writes, interrupts (R467, R473, R474, R491) -/

/-- A function's host memory can be written for it: its incarnation runs, or is frozen (R478). -/
def dmaOn (f : Fn) : Bool := f.st == .active || f.st == .frozen

/-- Pages of 4 KiB that a write of `n` bytes touches. -/
def pagesOf (addr n : Nat) : List Nat :=
  (List.range ((addr + (n - 1)) / 4096 - addr / 4096 + 1)).map (fun k => addr / 4096 + k)

/-- Mark written pages in a dirty log; a page beyond its coverage sets overflow (R491). -/
def markDirty (d : DirtyLog) (addr n : Nat) : DirtyLog :=
  (pagesOf addr n).foldl (fun d p =>
    if p < 8 * d.bytes then (if d.pages.contains p then d else { d with pages := p :: d.pages })
    else { d with overflow := true }) d

/-- A posted write to a function's host memory: made while its incarnation lasts, dropped and counted in DRAINING
(R478), and marked in the dirty bitmap of a migrating VF (R491). -/
def dma (s : State) (r addr n : Nat) (o : Output) : State :=
  let f := s.fn r
  if dmaOn f then emit (s.modFn r (fun f => { f with dirty := f.dirty.map (fun d => markDirty d addr n) })) o
  else if f.st == .draining then s.modFn r (fun f => { f with dmaDropped := satAdd 32 f.dmaDropped 1 })
  else s

def hostWrite (s : State) (r addr : Nat) (bs : List Byte) : State := dma s r addr bs.length (.hostWrite r addr bs)

/-- Raise one interrupt vector (R473, R474). -/
def raiseVec (s : State) (r v : Nat) : State :=
  let f := s.fn r
  if f.msixEn then
    if f.fnMask || f.vecMask.getLsbD v then s.modFn r (fun f => { f with pba := f.pba ||| (1#2048 <<< v) })
    else emit s (.msix r v)
  else if isVf r || f.intxDisable then s
  else
    let s1 := s.modFn r (fun f => { f with intx := f.intx ||| (1#2048 <<< v) })
    if f.intx == 0#2048 then emit s1 (.intx r true) else s1

/-! ### Events (R56 to R60) -/

/-- Phase of the entry with index `n` in a ring of 2^order entries (R53). -/
def phaseOf (n order : Nat) : Nat := if n / 2 ^ order % 2 = 0 then 1 else 0

/-- An entry of Table 2-9. -/
def entryWord (tag status phase gen result time spec : Nat) : BitVec 256 :=
  BitVec.ofNat 256 (tag % 2 ^ 32 + (status % 2 ^ 8) * 2 ^ 32 + phase * 2 ^ 40 + (gen % 2 ^ 16) * 2 ^ 48
    + (result % 2 ^ 64) * 2 ^ 64 + (time % 2 ^ 64) * 2 ^ 128 + (spec % 2 ^ 64) * 2 ^ 192)

/-- Write one event entry at the event ring's write index and interrupt (R56). -/
def writeEvent (s : State) (r code src status result spec : Nat) : State :=
  let f := s.fn r
  let addr := f.evBase * 4096 + f.evW % 2 ^ f.evOrder * 32
  let e := entryWord (code + src % 2 ^ 16 * 2 ^ 16) status (phaseOf f.evW f.evOrder) f.gen result (ptp s) spec
  let s1 := dma s r addr 32 (.event r addr e)
  raiseVec (s1.modFn r (fun f => { f with evW := mod24 (f.evW + 1) })) r f.evVector

/-- Free slots of the event ring. -/
def evFree (f : Fn) : Nat := 2 ^ f.evOrder - dist24 f.evW f.evR

/-- Ring pair 0, the event ring, is ENABLED (R57). -/
def evOn (s : State) (r : Nat) : Bool := (s.ring r 0).st == .enabled

/-- Post an event on a function's event ring: written while two slots are free, else dropped and counted (R59). A
function that presents no event ring gets none. -/
def postEventS (s : State) (r code src status result spec : Nat) : State :=
  if !hasRings r then s
  else if evOn s r && decide (2 ≤ evFree (s.fn r)) && ((s.fn r).evPendLost == 0) then
    writeEvent s r code src status result spec
  else s.modFn r (fun f => { f with evLost := satAdd 32 f.evLost 1, evPendLost := f.evPendLost + 1 })

def postEvent (s : State) (r code src result : Nat) : State := postEventS s r code src 0 result 0

/-- Post on the event rings of several functions. -/
def postAll (s : State) (rs : List Nat) (code src result : Nat) : State :=
  rs.foldl (fun s r => postEvent s r code src result) s

def bothPf0 : List Nat := [1, 2]
def bothPf1 : List Nat := [4, 5]

/-- When at least two slots are free and events were lost, one EVENTS_LOST entry reports them (R59). -/
def flushLost (s : State) (r : Nat) : State :=
  let f := s.fn r
  if evOn s r && decide (2 ≤ evFree f) && (f.evPendLost != 0) then
    (writeEvent s r 0x0103 0 0 f.evPendLost 0).modFn r (fun f => { f with evPendLost := 0 })
  else s

/-! ### Completions (R46, R51 to R54) -/

/-- Ring kinds whose completions appear in submission order; on kind 0x22 only those of TX_PACKET do (R390), and the
other commands take themselves out of the order. -/
def inOrderKind (kind : Nat) : Bool := [0x13, 0x14, 0x15, 0x21, 0x22, 0x23, 0x30, 0x42, 0x44, 0x50, 0x60].contains kind

/-- Interrupt for a completion, under the ring pair's moderation (R38). -/
def cqInterrupt (s : State) (r i : Nat) : State :=
  let rp := s.ring r i
  if rp.ent.moderationUs = 0 then raiseVec s r rp.ent.cqVector
  else if rp.modUntil ≤ s.vcycle then
    raiseVec (s.modRing r i (fun q => { q with modUntil := s.vcycle + rp.ent.moderationUs * usCycles })) r rp.ent.cqVector
  else s.modRing r i (fun q => { q with deferredIrq := true })

/-- Write one completion entry into its CQ slot, and interrupt where asked (R52, R53). -/
def writeCqe (s : State) (r i : Nat) (c : Cpl) : State :=
  let rp := s.ring r i
  let addr := rp.ent.cqBase + rp.cqW % 2 ^ rp.ent.cqOrder * 32
  let e := entryWord c.tag c.status (phaseOf rp.cqW rp.ent.cqOrder) c.gen c.result (ptp s) c.spec
  let s1 := dma s r addr 32 (.completion r i addr e)
  let s2 := s1.modRing r i (fun q => { q with cqW := mod24 (q.cqW + 1) })
  if rp.ent.cqIrq || c.irq then cqInterrupt s2 r i else s2

/-- The CQ has a slot that software has released (R51). -/
def cqRoom (rp : Ring) : Bool := decide (dist24 rp.cqW rp.cqR < 2 ^ rp.ent.cqOrder)

/-- A DRAINING or ERROR ring pair with no fetched descriptor and no waiting completion is DISABLED (Table 2-6). -/
def settleRing (s : State) (r i : Nat) : State :=
  let rp := s.ring r i
  if (rp.st == .draining || rp.st == .error) && rp.fetched.isEmpty && rp.waiting.isEmpty then
    s.modRing r i (fun q => { q with st := .disabled })
  else s

/-- Deliver a completion: suppressed when quiet and 0x00, not written when its incarnation has ended, kept waiting
while the CQ is full (R46, R51, R54, R481, R483). -/
def deliver (s : State) (r i : Nat) (c : Cpl) : State :=
  let f := s.fn r
  let rp := s.ring r i
  if c.quiet && c.status = 0 then s
  else if rp.st == .orphaned then s.modRing r i (fun q => { q with dropped := q.dropped + 1 })
  else if c.gen ≠ f.gen || !dmaOn f then s
  else if rp.waiting.isEmpty && cqRoom rp then writeCqe s r i c
  else s.modRing r i (fun q => { q with waiting := q.waiting ++ [c] })

/-- Completions that waited are written as slots are released (R51). -/
def drainWaiting : Nat → State → Nat → Nat → State
  | 0, s, _, _ => s
  | k + 1, s, r, i =>
    match (s.ring r i).waiting with
    | [] => s
    | c :: rest =>
      if cqRoom (s.ring r i) then drainWaiting k (writeCqe (s.modRing r i (fun q => { q with waiting := rest })) r i c) r i
      else s

/-- Completions that are ready leave in the order their kind asks: any order, or submission order (R46). -/
def readyCpls (ordered : Bool) (gen : Nat) : Bool → List Fetched → List Cpl × List Fetched
  | _, [] => ([], [])
  | blocked, e :: rest =>
    match e.res with
    | some c =>
      if ordered && blocked && !e.unordered then
        let p := readyCpls ordered gen blocked rest
        (p.1, e :: p.2)
      else
        let p := readyCpls ordered gen blocked rest
        (c :: p.1, p.2)
    | none =>
      let p := readyCpls ordered gen (blocked || (e.gen == gen && !e.unordered)) rest
      (p.1, e :: p.2)

def releaseReady (s : State) (r i : Nat) (ordered : Bool) : State :=
  let rp := s.ring r i
  let p := readyCpls ordered (s.fn r).gen false rp.fetched
  settleRing (p.1.foldl (fun s c => deliver s r i c) (s.modRing r i (fun q => { q with fetched := p.2 }))) r i

/-- Completion fields a descriptor gives (Table 2-7). -/
def cplOf (e : Fetched) (status result spec : Nat) : Cpl :=
  let d := e.desc.toNat
  { tag := fld d 32 32, status := status, gen := e.gen, result := result, spec := spec,
    quiet := bitAt d 9, irq := bitAt d 10 }

/-- A descriptor ends with a status (R46). -/
def finishOne (s : State) (ref : DRef) (status result spec : Nat) : State :=
  let rp := s.ring ref.fn ref.ring
  let s1 := s.modRing ref.fn ref.ring (fun q => { q with
    fetched := q.fetched.map (fun e => if e.seq = ref.seq then { e with started := true, res := some (cplOf e status result spec) } else e) })
  releaseReady s1 ref.fn ref.ring (inOrderKind rp.ent.kind)

/-- A VF that is being frozen has no work left on its ring pairs: every fetched descriptor has completed and every
completion is written (R487). -/
def ringsQuiet (s : State) (r : Nat) : Bool := (s.fn r).rings.all (fun q => q.2.fetched.isEmpty && q.2.waiting.isEmpty)

/-- A PF1 VF being frozen becomes FROZEN once its work is done, and its VF_FREEZE completes (R487). -/
def checkFreeze (s : State) (r : Nat) : State :=
  match (s.fn r).freeze with
  | none => s
  | some ref =>
    if isVf1 r && ringsQuiet s r then
      finishOne (s.modFn r (fun f => { f with st := .frozen, freeze := none })) ref 0 0 0
    else s

/-- A descriptor ends with a status (R46). -/
def finish (s : State) (ref : DRef) (status result spec : Nat) : State := checkFreeze (finishOne s ref status result spec) ref.fn

/-- A descriptor's completion is taken out of its ring pair's order (R228, R265, R309). -/
def unorder (s : State) (ref : DRef) : State :=
  s.modRing ref.fn ref.ring (fun q => { q with
    fetched := q.fetched.map (fun e => if e.seq = ref.seq then { e with unordered := true } else e) })

/-- What a command's effect answers: the state after it, and its completion where it ends at once. -/
abbrev CmdRes := State × Option (Nat × Nat × Nat)

def ok0 (s : State) : CmdRes := (s, some (0, 0, 0))
def okR (s : State) (result : Nat) : CmdRes := (s, some (0, result, 0))
def bad (s : State) (status : Nat) : CmdRes := (s, some (status, 0, 0))
def badR (s : State) (status result : Nat) : CmdRes := (s, some (status, result, 0))
def later (s : State) : CmdRes := (s, none)

/-- The first descriptor of a ring pair that has not started, when it may start: the ring pair runs, its CQ has room,
and a fenced descriptor has no earlier one outstanding (R43, R44, R51). -/
def startable (s : State) (r i : Nat) : Option Fetched :=
  let rp := s.ring r i
  let f := s.fn r
  if (rp.st == .enabled || rp.st == .draining) && f.st == .active && cqRoom rp then
    match rp.fetched.find? (fun e => !e.started && e.res.isNone && e.gen == f.gen) with
    | none => none
    | some e =>
      let earlier := rp.fetched.any (fun e' => e'.seq < e.seq && e'.gen == f.gen)
      if bitAt e.desc.toNat 8 && earlier then none else some e
  else none

/-- Run a command on the descriptor at the head of a ring pair, when its opcode and kind are the command's; nothing
happens otherwise (DESIGN CHOICE, log 5). -/
def onDesc (s : State) (r i kind op : Nat) (eff : Nat → DRef → State → CmdRes) : State :=
  match startable s r i with
  | none => s
  | some e =>
    if (s.ring r i).ent.kind = kind ∧ fld e.desc.toNat 0 8 = op then
      let ref : DRef := { fn := r, ring := i, seq := e.seq }
      let s1 := s.modRing r i (fun q => { q with
        fetched := q.fetched.map (fun e' => if e'.seq = e.seq then { e' with started := true } else e') })
      match eff e.desc.toNat ref s1 with
      | (s2, none) => s2
      | (s2, some (st, res, spec)) => finish s2 ref st res spec
    else s

/-- Run a command that executes when its descriptor is fetched: on the oldest of its opcode that has not started, before any
that wait, unless it has a fence of its own (R44, R228). -/
def onFetched (s : State) (r i kind op : Nat) (eff : Nat → DRef → State → CmdRes) : State :=
  let rp := s.ring r i
  let f := s.fn r
  let mine (e : Fetched) : Bool := !e.started && e.res.isNone && e.gen == f.gen && fld e.desc.toNat 0 8 == op
  if rp.ent.kind = kind ∧ ((rp.st == .enabled || rp.st == .draining) && f.st == .active && cqRoom rp) = true then
    match rp.fetched.find? mine with
    | none => s
    | some e =>
      if bitAt e.desc.toNat 8 && rp.fetched.any (fun e' => e'.seq < e.seq && e'.gen == f.gen) then s
      else
        let ref : DRef := { fn := r, ring := i, seq := e.seq }
        let s1 := s.modRing r i (fun q => { q with fetched := q.fetched.map (fun e' => if e'.seq = e.seq then { e' with started := true } else e') })
        match eff e.desc.toNat ref s1 with
        | (s2, none) => s2
        | (s2, some (st, res, spec)) => finish s2 ref st res spec
  else s

/-- Registers of a function can be reached: it is not OFF (R476), and in recovery PF0 presents TRUST alone (R554). -/
def present (s : State) (r : Nat) : Bool := isFn r && (s.fn r).st != .off && !s.trust.recovery

/-- The four management sessions are masters of their own; any other master is named by its rank (R64). -/
def sameMaster (rank session : Nat) (h : Held) : Bool := h.rank == rank && (rank != 0 || h.session == session)

/-- A shared write of this master waits for a tick (R604). -/
def heldBack (s : State) (rank session : Nat) : Bool := s.transom.held.any (sameMaster rank session)

/-- A command of a function waits behind its earlier ones (R604). -/
def waitBehind (r : Nat) (i : Instr) (s : State) : State :=
  { s with transom := { s.transom with behind := s.transom.behind ++ [i], behindOf := r :: s.transom.behindOf } }

/-- A register write or doorbell of a function acts now, or waits behind the function's shared write (R604). -/
def gated (r : Nat) (i : Instr) (act : State → State) (s : State) : State :=
  if heldBack s r 0 then waitBehind r i s else act s

/-- A write to a shared control waits only where an ordinary write of the same function already does (R468, R604). -/
def gatedShared (r : Nat) (i : Instr) (act : State → State) (s : State) : State :=
  if s.transom.behindOf.contains r then waitBehind r i s else act s

/-- A set's action takes effect at once, or, where the transom holds a write to a register of the set, as a write of the
action register behind it (R604): block, action, and the registers of the set. -/
def joinSet (cap action : Nat) (act : State → State) (s : State) : State :=
  match s.transom.held.reverse.find? (fun h => h.cap == cap) with
  | none => act s
  | some h => { s with transom := { s.transom with
      held := s.transom.held ++ [{ rank := h.rank, session := h.session, cap := cap, off := 0x08, width := 32, value := action }] } }

/-- The user tag of a descriptor. -/
def userTag (d : Nat) : Nat := fld d 32 32

/-! ### Conflicts (R65 to R67) -/

/-- Enter a write or command that was not applied in CONFLICT_LOG and post CONFLICT (R65, R67). The event's status byte, 0x0D,
is a reading (DEDUCED, log 39), and the time of a lost ring command, the moment it runs, a choice (DESIGN CHOICE, log 48). -/
def logConflict (s : State) (cap item winner loser : Nat) (isRing : Bool) : State :=
  let what := cap % 2 ^ 16 + item % 2 ^ 16 * 2 ^ 16 + winner % 2 ^ 11 * 2 ^ 32 + loser % 2 ^ 11 * 2 ^ 43 + 0x0D * 2 ^ 54
    + (if isRing then 2 ^ 62 else 0)
  let n := s.transom.conflicts % 256
  let t := { s.transom with
    conflicts := (s.transom.conflicts + 1) % 2 ^ 32
    conflictLog := mset s.transom.conflictLog n { time := ptp s, what := what } {} }
  let dests := (if hasRings loser then [loser] else []) ++ bothPf0.filter (fun r => r != loser)
  dests.foldl (fun s r => postEventS s r 0x0106 0 0x0D n 0) { s with transom := t }

/-- Number of the current message time: 2 µs of vestibule cycles (R66; DESIGN CHOICE, log 6). -/
def msgWindow (s : State) : Nat := s.vcycle / 800

/-- A ring command on an object executed in this message time with another effect, by another function (R66). -/
def contradicted (s : State) (r cap item effect : Nat) : Option Nat :=
  (s.transom.recent.find? (fun d => d.window == msgWindow s && d.cap == cap && d.item == item && d.effect != effect && d.fn != r)).map (·.fn)

/-- Remember an executed command for the rest of its message time. -/
def noteDone (s : State) (r cap item effect : Nat) : State :=
  let keep := s.transom.recent.filter (fun d => d.window == msgWindow s)
  { s with transom := { s.transom with recent := { fn := r, cap := cap, item := item, effect := effect, window := msgWindow s } :: keep } }

/-- Run a ring command on a shared object unless it contradicts one of its message time: then it is logged and
completes with 0x0D (R66). -/
def exclusive (s : State) (r cap item effect : Nat) (act : State → CmdRes) : CmdRes :=
  match contradicted s r cap item effect with
  | some w => bad (logConflict s cap item w r true) 0x0D
  | none => act (noteDone s r cap item effect)

/-- Every ring pair of every function, as (function, index, ring pair). -/
def allRings (s : State) : List (Nat × Nat × Ring) :=
  s.fns.flatMap (fun p => p.2.rings.map (fun q => (p.1, q.1, q.2)))

/-- The shared object that a descriptor acts on, and its effect there: block, object number, effect (R66). Descriptors of
other opcodes act on objects of their own function. -/
def sharedObject (kind d : Nat) : Option (Nat × Nat × Nat) :=
  match kind, fld d 0 8 with
  | 0x41, 1 => some (0x41, fld d 64 7, fld d 71 2)
  | 0x41, 2 => some (0x41, fld d 64 7, 3)
  | 0x40, 1 => some (0x40, fld d 64 3, fld d 67 4)
  | 0x13, 2 => some (0x13, fld d 64 16, 1)
  | 0x13, 3 => some (0x13, fld d 64 16, 2)
  | 0x14, 1 => some (0x14, fld d 64 6, fld d 70 35)
  | 0x42, 1 => some (0x42, 0, 1 + fld d 64 96 * 4)
  | 0x42, 2 => some (0x42, 0, 2 + b2n (bitAt d 160) * 4)
  | 0x42, 3 => some (0x42, 0, 3)
  | _, _ => none

/-- Two descriptors contradict one another: the same object, different effects. -/
def contradicts (kind d d' : Nat) : Bool :=
  match sharedObject kind d, sharedObject kind d' with
  | some x, some y => x.1 == y.1 && x.2.1 == y.2.1 && x.2.2 != y.2.2
  | _, _ => false

/-- A command of a higher-ranked function that contradicts the one at the head of a ring pair waits to start too (R66). -/
def outranked (s : State) (r i : Nat) : Bool :=
  let kind := (s.ring r i).ent.kind
  match startable s r i with
  | none => false
  | some e => (allRings s).any (fun q => decide (q.1 < r) && q.2.2.ent.kind == kind
      && (startable s q.1 q.2.1).any (fun e' => contradicts kind e.desc.toNat e'.desc.toNat))

/-- Contradicting commands that wait together are executed in rank order, highest first: the lower one does not start yet
(R66; DESIGN CHOICE, log 6). -/
def inRankOrder (r i : Nat) (act : State → State) (s : State) : State := if outranked s r i then s else act s

/-! ### Components and ring-pair ownership (R208 to R210) -/

/-- Component of a core's index within its tile (Table 6-1). -/
def compOfQ (q : Nat) : Nat :=
  if q < 2 then 2 else if q < 4 then 3 else if q < 12 then 4 else if q < 14 then 5 else if q < 15 then 6 else 7
def compOf (c : Nat) : Nat := if c < 64 then compOfQ (c % 16) else 1
/-- Component that owns rings of a kind (Table 6-1). -/
def compOfKind (kind : Nat) : Nat :=
  if kind = 0x14 then 3 else if kind = 0x13 then 4
  else if kind = 0x20 ∨ kind = 0x21 ∨ kind = 0x22 ∨ kind = 0x23 ∨ kind = 0x24 ∨ kind = 0x60 then 5
  else if kind = 0x30 then 6 else 2
def coresOfComp (k : Nat) : List Nat := (List.range 64).filter (fun c => compOf c == k)

/-- Ring pairs a core owns (FW_CORE.ring_pairs). -/
def ringsOwned (s : State) (c : Nat) : Nat :=
  s.fns.foldl (fun n p => n + (p.2.rings.filter (fun q => q.2.owner == c && q.2.st != .disabled)).length) 0

/-- The core of least ring pairs, lowest index among equals. -/
def leastLoaded (s : State) : List Nat → Option Nat
  | [] => none
  | c :: rest =>
    match leastLoaded s rest with
    | none => some c
    | some d => if ringsOwned s d < ringsOwned s c then some d else some c

/-- The core that would own a new ring pair of a function (R209, R210); none when every core is full. -/
def pickOwner (s : State) (r kind : Nat) : Option Nat :=
  if isPf0 r then some (64 + s.fw.active)
  else
    leastLoaded s ((coresOfComp (compOfKind kind)).filter (fun c =>
      ((s.core c).st == .running) && decide (ringsOwned s c < 256)))

/-- Put a doorbell in a core's mailbox, replacing an entry that waits for the same function, ring pair and kind (R193). -/
def mboxPush (s : State) (c : Nat) (m : Mbox) : State :=
  s.modCore c (fun k =>
    if k.mbox.any (fun e => e.fn == m.fn && e.ring == m.ring && e.kind == m.kind) then
      { k with mbox := k.mbox.map (fun e => if e.fn == m.fn && e.ring == m.ring && e.kind == m.kind then { e with index := m.index } else e) }
    else { k with mbox := k.mbox ++ [m] })

/-! ### Ring-pair states (R43) -/

/-- The lease arms at the first ring pair of index 1 or above that is ENABLED (R61). -/
def armLease (s : State) (r : Nat) : State :=
  if (s.fn r).leaseArmed then s
  else s.modFn r (fun f => { f with leaseArmed := true, leaseInForce := f.leasePeriod, leaseFrom := s.vcycle, leaseHalf := false })

/-- A ring pair leaves HELD for the state it was held from, DRAINING where a disable arrived meanwhile, and takes the
doorbell that waited (R43, R50). -/
def unhold (s : State) (r i : Nat) : State :=
  settleRing (s.modRing r i (fun q =>
    if q.st == .held then
      { q with st := if q.deferDisable then .draining else q.heldFrom, deferDisable := false,
               prod := q.heldDb.getD q.prod, heldDb := none }
    else q)) r i

/-- A ring pair whose core stops is HELD (R43). -/
def hold (s : State) (r i : Nat) : State :=
  s.modRing r i (fun q =>
    if q.st == .enabled || q.st == .draining then { q with st := .held, heldFrom := q.st } else q)

/-- Entry to ERROR: RING_ERROR is posted and fetched work that has not started is flushed (R43). -/
def ringError (s : State) (r i : Nat) : State :=
  let s1 := postEvent (s.modRing r i (fun q => { q with st := .error, deferDisable := false })) r 0x0104 0 i
  let s2 := s1.modRing r i (fun q => { q with
    fetched := q.fetched.map (fun e => if !e.started && e.res.isNone then { e with started := true, res := some (cplOf e 0x01 0 0) } else e) })
  releaseReady s2 r i (inOrderKind (s.ring r i).ent.kind)

/-! ### Stack memory (R497) -/

def stackBytes : Nat := 2 ^ 39
def readStack (s : State) (a n : Nat) : List Byte := (List.range n).map (fun k => mget s.stack (a + k) 0#8)
def writeStack (s : State) (a : Nat) : List Byte → State
  | [] => s
  | b :: r => writeStack { s with stack := mset s.stack a b 0#8 } (a + 1) r
/-- Memory in canonical form: addresses strictly rising, no byte equal to what an unlisted address reads as. -/
def memWf (m : NMap Byte) : Bool := mwf 0#8 m

end Sys2Proof.Machine
end

