-- ==== Sys2Proof/Machine/Port.lean ====
section
/-!
DEFINITION. Framing of the management port (19: R595 to R597): headers, sealing, checks of what arrives, and the end of a
session.
-/
namespace Sys2Proof.Machine

def State.modTrust (s : State) (f : Trust → Trust) : State := { s with trust := f s.trust }
def State.session (s : State) (n : Nat) : Session := mget s.trust.sessions n {}
def State.modSession (s : State) (n : Nat) (f : Session → Session) : State :=
  s.modTrust (fun t => { t with sessions := omod t.sessions n f })

/-- Header of a message (Table 19-5). -/
def msgHead (len type session counter : Nat) : List Byte :=
  natLE 12 (len % 2 ^ 16 + type % 2 ^ 8 * 2 ^ 16 + session % 4 * 2 ^ 24 + counter % 2 ^ 64 * 2 ^ 32)

/-- Nonce: direction word, then counter, most significant byte first (R596). -/
def msgNonce (dir counter : Nat) : List Byte := natBE 4 dir ++ natBE 8 counter

/-- A clear message from the module. -/
def sendClear (s : State) (n type : Nat) (body : List Byte) : State := emit s (.mgmt n (msgHead body.length type 0 0 ++ body))

/-- A message from the module to an open session, sealed under its key; an unopened one gets it in clear (log 22). -/
def sendOne (s : State) (n type : Nat) (body : List Byte) : State :=
  match oget s.trust.sessions n with
  | none => s
  | some k =>
    if k.opened then
      let h := msgHead body.length type n k.txNext
      let c := gcmSeal k.key (msgNonce 1 k.txNext) h body
      emit (s.modSession n (fun k => { k with txNext := k.txNext + 1, lastMsg := s.vcycle })) (.mgmt n (h ++ c.1 ++ c.2))
    else sendClear (s.modSession n (fun k => { k with lastMsg := s.vcycle })) n type body

/-- A body above 4,096 bytes goes as several messages (DESIGN CHOICE, log 22). -/
def sendMsg : Nat → State → Nat → Nat → List Byte → State
  | 0, s, _, _, _ => s
  | k + 1, s, n, type, body =>
    if body.length ≤ 4096 then sendOne s n type body
    else sendMsg k (sendOne s n type (body.take 4096)) n type (body.drop 4096)

/-- ANSWER (Table 19-6): status, then results. -/
def answer (s : State) (n status : Nat) (results : List Byte) : State := sendMsg 100 s n 0x11 (natLE 1 status ++ results)

/-- Messages of a session among the commands that wait behind a shared write. -/
def isMsgOf (n : Nat) : Instr → Bool
  | .regRead m _ => m == n
  | .regWrite m _ => m == n
  | .claim m _ => m == n
  | .release m _ => m == n
  | .installerKey m _ => m == n
  | .operatorKey m _ => m == n
  | .policy m _ => m == n
  | .consent m _ => m == n
  | .debugUnlock m _ => m == n
  | .fwStage (.session m _) _ _ => m == n
  | .fwActivate (.session m _) => m == n
  | .fwConfirm (.session m _) => m == n
  | .attest (.session m _) => m == n
  | .auditRead (.session m _) => m == n
  | _ => false

/-- A session ends with its connection: what it already sent to the transom stands, and nobody is answered (R595). -/
def closeSession (s : State) (n : Nat) : State :=
  if (oget s.trust.sessions n).isNone then s
  else
    let s1 := s.modTrust (fun t => { t with
      sessions := odel t.sessions n, debugSession := if t.debugSession = n then 4 else t.debugSession, cmds := t.cmds.map (fun c => if c.session = n then { c with session := 4 } else c) })
    let s2 := { s1 with
      transom := { s1.transom with
        held := s1.transom.held.map (fun h => if h.rank = 0 ∧ h.session = n then { h with session := 4 } else h)
        behind := s1.transom.behind.filter (fun i => !isMsgOf n i) }
      wx := { s1.wx with paths := mset s1.wx.paths (16 + n) {} {} } }
    emit s2 (.mgmtClosed n)

/-- Types that a client sends once its session is open. -/
def clientTypes : List Nat := [0x10, 0x20, 0x21, 0x3F]

/-- The body of a message to a session, where it passes every check of R597. -/
def openMsg (s : State) (n : Nat) (msg : List Byte) : Option (Nat × List Byte) :=
  match oget s.trust.sessions n with
  | none => none
  | some k =>
    let h := leNat (msg.take 12)
    let len := fld h 0 16
    let type := fld h 16 8
    let body := (msg.drop 12).take len
    if msg.length < 12 ∨ 4096 < len ∨ fld h 26 6 ≠ 0 ∨ !clientTypes.contains type then none
    else if k.opened then
      if fld h 24 2 ≠ n ∨ fld h 32 64 ≠ k.rxNext ∨ msg.length ≠ 28 + len then none
      else (gcmOpen k.key (msgNonce 0 k.rxNext) (msg.take 12) body (msg.drop (12 + len))).map (fun b => (type, b))
    else if type = 0x10 ∧ s.trust.installer.isNone ∧ fld h 32 64 = 0 ∧ msg.length = 12 + len then some (type, body)
    else none

/-- A message of a session (R597): one that fails a check closes the session; one of another type than the command stands
for leaves the state as it is (log 5). -/
def onMsg (s : State) (n type : Nat) (msg : List Byte) (eff : List Byte → State → State) : State :=
  if (oget s.trust.sessions n).isNone then s
  else match openMsg s n msg with
    | none => closeSession s n
    | some (t, body) =>
      if t ≠ type then s
      else eff body (s.modSession n (fun k => { k with rxNext := if k.opened then k.rxNext + 1 else 0, lastMsg := s.vcycle }))

end Sys2Proof.Machine
end

