-- ==== Sys2Proof/Machine/Audit.lean ====
section
/-!
DEFINITION. The audit log, its seals, and the leaves of the attestation key (17: R560 to R563, R570).
-/
namespace Sys2Proof.Machine

/-- Trust events go to both PF0s, and from stage 4 to both PF1s (R570). -/
def postTrust (s : State) (code result : Nat) : State :=
  postAll s (bothPf0 ++ (if 4 ≤ s.power.stage then bothPf1 else [])) code 0 result

/-- A flash device still serves (R551). -/
def flashUp (s : State) : Bool := !(s.trust.flashBad.contains 0 && s.trust.flashBad.contains 1)

/-! ### Leaves (R560, R561) -/

/-- Leaves of the attestation key. -/
def leafCount : Nat := 2 ^ 20

/-- The Limori reserves the next 1,024 leaves: the value goes to the trust area before any of them signs. -/
def reserveLeaves (s : State) : State :=
  if flashUp s then s.modTrust (fun t => { t with leafEnd := min leafCount (t.nextLeaf + 1024) }) else s

/-- Fewer than 16,384 leaves are left: reported once a boot. -/
def checkLeaves (s : State) : State :=
  let left := leafCount - s.trust.nextLeaf
  if left < 16384 ∧ s.trust.leavesLow = false then postTrust (s.modTrust (fun t => { t with leavesLow := true })) 0x4204 left else s

/-- The next leaf to sign with, or none where they are exhausted. -/
def takeLeaf (s : State) : State × Option Nat :=
  let s1 := if s.trust.nextLeaf < s.trust.leafEnd then s else reserveLeaves s
  let n := s1.trust.nextLeaf
  if n < s1.trust.leafEnd then (checkLeaves (s1.modTrust (fun t => { t with nextLeaf := n + 1 })), some n) else (s1, none)

/-- The device's HSS signature with a leaf: 2,964 bytes that nothing constrains (Table 17-2, log 3). -/
def deviceSig (leaf : Nat) (msg : List Byte) : List Byte := (Config.deviceSign leaf msg ++ List.replicate 2964 0#8).take 2964

/-! ### Records (R562, R563, Table 17-5) -/

def auditSegments : Nat := 1638
/-- Records of a segment with its seal record. -/
def segmentRecs : Nat := 257

/-- Lowest seq that the audit area still holds: the oldest segments have been overwritten (R563). -/
def oldestSeq (seq : Nat) : Nat := ((seq - 1) / segmentRecs + 1 - auditSegments) * segmentRecs

def auditWord (seq time action role rank status detail : Nat) : Nat :=
  seq % 2 ^ 64 + time % 2 ^ 64 * 2 ^ 64 + action % 2 ^ 16 * 2 ^ 128 + role % 4 * 2 ^ 144 + rank % 2 ^ 11 * 2 ^ 146
    + status % 2 ^ 8 * 2 ^ 160 + detail % 2 ^ 88 * 2 ^ 168

/-- Append one record: its chain covers the chain before it and its own bytes 0 to 31. -/
def appendRec (s : State) (action role rank status detail : Nat) : State :=
  s.modTrust (fun t =>
    let w := auditWord t.seq (ptp s) action role rank status detail
    let chain := sha256 (t.head ++ natLE 32 w)
    let keep := t.records.filter (fun p => decide (oldestSeq (t.seq + 1) ≤ p.1))
    { t with seq := t.seq + 1, head := chain, records := mset keep t.seq { word := w, chain := chain } {} })

/-- A full segment is sealed: a seal record with segment and leaf in its detail, signed; without leaves, bit 0 of its
detail set and a signature of zeros (R561, R563; the places within the detail are the model's, log 22). -/
def sealSegment (s : State) : State :=
  if s.trust.seq % segmentRecs ≠ 256 then s
  else
    let p := takeLeaf s
    let n := p.1.trust.seq
    let flag := if p.2.isSome then 0 else 1
    let s1 := appendRec p.1 0x0001 3 0 0 (flag + n / segmentRecs % 2 ^ 32 * 2 ^ 8 + p.2.getD 0 * 2 ^ 40)
    let r := mget s1.trust.records n {}
    let sig := match p.2 with
      | some q => deviceSig q (natLE 32 r.word ++ r.chain)
      | none => List.replicate 2964 0#8
    s1.modTrust (fun t => { t with records := mset t.records n { r with sig := sig } {} })

/-- A privileged act enters the log before it takes effect; with no flash device left the act is refused (R562). -/
def auditRec (s : State) (action role rank status detail : Nat) : Option State :=
  if flashUp s then some (sealSegment (appendRec s action role rank status detail)) else none

/-- A record of the Limori's own acts, which nothing refuses. -/
def auditOwn (s : State) (action detail : Nat) : State := (auditRec s action 3 0 0 detail).getD s

/-- A ring command's privileged act, under the operator's rights of a host function (R548). -/
def audited (s : State) (action rank detail : Nat) (act : State → CmdRes) : CmdRes :=
  match auditRec s action 2 rank 0 detail with
  | none => bad s 0x07
  | some s1 => act s1

end Sys2Proof.Machine
end

