-- ==== Sys2Proof/Machine/Blocks.lean ====
section
/-!
DEFINITION. Which capability blocks a function presents, in which order, and which of them are not disabled (02: R29 to R35;
16: R541; 17: R554).
-/
namespace Sys2Proof.Machine

/-- A block is presented on a function (Table 2-2). -/
def presents (r cap : Nat) : Bool :=
  match cap with
  | 0x01 => hasRings r
  | 0x02 => isFn r
  | 0x03 => hasRings r
  | 0x13 => isPf1 r || isVf1 r
  | 0x14 => isPf1 r || isVf1 r
  | 0x20 => isPf1 r || isVf1 r
  | 0x23 => isPf1 r || isVf1 r
  | 0x24 => isPf0 r || isPf1 r
  | 0x40 => isPf0 r || isPf1 r
  | 0x41 => isPf0 r || isPf1 r
  | 0x42 => isPf0 r
  | 0x44 => isPf0 r || isPf1 r
  | 0x50 => isPf1 r || isPf2 r
  | 0x10 | 0x11 | 0x12 | 0x15 | 0x21 | 0x22 | 0x30 | 0x43 | 0x60 => isPf1 r
  | _ => false

/-- Capability IDs in the order of Table 2-2, which is the order of every list (DESIGN CHOICE, log 40). -/
def capIds : List Nat := [0x01, 0x02, 0x03, 0x10, 0x11, 0x12, 0x13, 0x14, 0x15, 0x20, 0x21, 0x22, 0x23, 0x24, 0x30, 0x40, 0x41,
  0x42, 0x43, 0x44, 0x50, 0x60]
/-- Blocks of a function, in the order of its list; in recovery PF0 holds TRUST alone (R554). -/
def capsOf (s : State) (r : Nat) : List Nat :=
  if s.trust.recovery then (if isPf0 r then [0x42] else []) else capIds.filter (presents r)

/-- The block is not disabled at the stage reached (R33, R541, Table 16-14). -/
def capOn (s : State) (r cap : Nat) : Bool :=
  if isPf0 r then (if cap = 0x44 then decide (1 ≤ s.power.stage) else if cap = 0x40 then decide (2 ≤ s.power.stage) else true)
  else cap = 0x02 || decide (4 ≤ s.power.stage)

end Sys2Proof.Machine
end

