-- ==== Sys2Proof/Machine/PciConfig.lean ====
section
/-!
DEFINITION. What a function's configuration space fixes (14: R464 to R467, R469, R479): routing IDs, BARs, completion
timeouts, the relaxed-ordering attribute of a TLP, and the drains in which configuration requests are put off.
-/
namespace Sys2Proof.Machine

/-! ### Routing IDs and BARs (R465, R466) -/

/-- TotalVFs and VF Stride of a PF's SR-IOV capability; PF0 has none. -/
def totalVfs (r : Nat) : Nat := if isPf1 r || isPf2 r then 256 else 0
def vfStride : Nat := 1

/-- First VF Offset of a PF (R465). -/
def firstVfOffset (r : Nat) : Nat := if isPf1 r then 255 else if isPf2 r then 510 else 0

/-- Function number of a PF at its endpoint. -/
def pfNumber (r : Nat) : Nat := if isPf0 r then 0 else if isPf1 r then 1 else 2

/-- Routing ID of a function, counted from function 0 of its endpoint's first bus: 256 of them to a bus. -/
def routingId (r : Nat) : Nat :=
  if isVf r then pfNumber (pfOf r) + firstVfOffset (pfOf r) + vfNo r * vfStride else pfNumber r

/-- Buses after its endpoint's first, and the function number there. -/
def busOf (r : Nat) : Nat := routingId r / 256
def functionOf (r : Nat) : Nat := routingId r % 256

/-- Bytes of a 64-bit BAR; 0 where the function has none (Table 14-2). -/
def barBytes (r bar : Nat) : Nat :=
  let kib := match bar with
    | 0 => if isPf0 r then 1024 else if isPf1 r then 16384 else if isVf1 r then 64 else 16
    | 2 => if isPf0 r then 32 else if isPf1 r then 1024 else if isVf2 r then 4 else 64
    | 4 => if isVf1 r then 4 else 64
    | _ => 0
  if isFn r then kib * 1024 else 0

/-! ### TLP attributes and timeouts (R467, R469) -/

/-- A TLP that carries data of the function, and so may be passed by others: never a completion, an event, a head
write-back word or a message (R467). -/
def isDataWrite : Output → Bool
  | .hostWrite _ _ _ => true
  | .contextWrite _ _ _ => true
  | _ => false

/-- The Relaxed Ordering attribute of a TLP of a function (R467). -/
def relaxedAttr (f : Fn) (o : Output) : Bool := f.relaxed && isDataWrite o

/-- Microseconds after which a read of a function's host memory times out, by its Completion Timeout Value (Table 14-3). -/
def ctoMicros (value : Nat) : Nat :=
  match value with
  | 0b0001 => 80
  | 0b0010 => 8000
  | 0b0110 => 160000
  | 0b1001 => 600000
  | 0b1010 => 2500000
  | _ => 40000

/-- The same in vestibule cycles, of a function. -/
def ctoCycles (f : Fn) : Nat := ctoMicros f.ctoValue * usCycles

/-- Completion Timeout Ranges Supported, and the reset time in ms that Readiness Time Reporting gives (R469, R479). -/
def ctoRanges : Nat := 0b0111
def readinessMs : Nat := 50

/-! ### Configuration requests in a drain (R479) -/

/-- A drain begun by FLR, cause 4 or a change of VF Enable: configuration requests are answered with Request Retry Status,
and take no effect. -/
def configBusy (s : State) (r : Nat) : Bool :=
  (s.fn r).st == .draining && ((s.fn r).cause == 3 || (s.fn r).cause == 4 || (s.fn r).drainVfOff)

/-- A configuration write of a function. -/
def configWrite (r : Nat) (act : State → State) (s : State) : State := if configBusy s r then s else act s

end Sys2Proof.Machine
end

