-- ==== Sys2Proof/Machine/Gates.lean ====
section
/-!
DEFINITION. Gate control lists, shared by accelerator ports (03, R108 to R110) and network interfaces (11, R399).
-/
namespace Sys2Proof.Machine

def gateSum (g : GateList) : Nat := g.entries.foldl (fun a e => a + e.1) 0

/-- First fault of a list: status of the commit, entry, and whether the fault is of the header (R108). -/
def gateFault (classes maxEntries : Nat) (g : GateList) : Option (Nat × Bool) :=
  if g.entries.length < 1 ∨ maxEntries < g.entries.length then some (0, true)
  else match (List.range g.entries.length).find? (fun k =>
      let d := (lget g.entries k (0, 0)).1; decide (d < 10) || decide (16777215 < d)) with
    | some k => some (k, false)
    | none =>
      if g.cycle < 1000 ∨ 1000000000 < g.cycle then some (0, true)
      else if gateSum g ≠ g.cycle then some (0, true)
      else if (List.range classes).any (fun c => !g.entries.any (fun e => bitAt e.2 c)) then some (0, true)
      else none

/-- First start of one of the list's own cycles at or after `t` (R109). -/
def gateStart (g : GateList) (t : Nat) : Nat :=
  if t ≤ g.base then g.base else g.base + (t - g.base + g.cycle - 1) / g.cycle * g.cycle

/-- Entry in force at offset `o` of a cycle: its index and the offset at which it ends. -/
def entryAt : List (Nat × Nat) → Nat → Nat → Nat → Nat × Nat
  | [], _, i, e => (i, e)
  | (d, _) :: rest, o, i, e => if o < e + d then (i, e + d) else entryAt rest o (i + 1) (e + d)

/-- Index of the entry in force at PTP time `t`, and the PTP time of its end; before base, none (R108). -/
def gateNow (g : GateList) (t : Nat) : Option (Nat × Nat) :=
  if t < g.base ∨ g.cycle = 0 then none
  else
    let o := (t - g.base) % g.cycle
    let r := entryAt g.entries o 0 0
    some (r.1, t - o + r.2)

/-- Next PTP time at which an entry begins, after `t`. -/
def gateNext (g : GateList) (t : Nat) : Nat :=
  match gateNow g t with
  | none => g.base
  | some r => r.2

/-- ns for which class `c` stays open from offset `o` on, through consecutive entries and the cycle boundary, looking
through at most `fuel` entries (R110). -/
def openRun (g : GateList) (c : Nat) : Nat → Nat → Nat
  | 0, _ => 0
  | fuel + 1, o =>
    let r := entryAt g.entries (o % g.cycle) 0 0
    let left := r.2 - o % g.cycle
    if bitAt (lget g.entries r.1 (0, 0)).2 c then left + openRun g c fuel (o + left) else 0

/-- ns of open time that class `c` still has at PTP time `t`: before base until base and from there on with the first
entries; `none` where it is open without end in sight, through a whole cycle and more (R108, R110). -/
def openLeft (g : GateList) (c t : Nat) : Option Nat :=
  if g.cycle = 0 then none
  else
    let n := openRun g c (g.entries.length + 1) ((t - g.base) % g.cycle)
    if g.cycle ≤ n then none else some (g.base - t + n)

end Sys2Proof.Machine
end

