-- ==== Sys2Proof/Machine/Feed.lean ====
section
/-!
DEFINITION. The weather feed (18): records, the paths they are delivered to, the host buffers of a feed ring, and the
sampled totals.
-/
namespace Sys2Proof.Machine

def State.modWx (s : State) (f : Weather → Weather) : State := { s with wx := f s.wx }
def State.path (s : State) (k : Nat) : FeedPath := mget s.wx.paths k {}
def State.modPath (s : State) (k : Nat) (f : FeedPath → FeedPath) : State :=
  s.modWx (fun w => { w with paths := mset w.paths k (f (mget w.paths k {})) {} })

/-- The feed ring of a function: its lowest-indexed ENABLED ring pair of kind 0x44 (R582). -/
def feedRing (s : State) (r : Nat) : Option Nat :=
  ((s.fn r).rings.find? (fun q => q.2.st == .enabled && q.2.ent.kind == 0x44)).map (·.1)

/-- A record: the header of Table 18-4 and a payload that starts at bit 128. -/
def mkRecord (type source seq time payload : Nat) : BitVec 512 :=
  BitVec.ofNat 512 (type + 2 ^ 8 + source % 2 ^ 16 * 2 ^ 16 + seq % 2 ^ 32 * 2 ^ 32 + time % 2 ^ 64 * 2 ^ 64 + payload * 2 ^ 128)

/-- Complete the buffer being filled: bytes written and records (R582). -/
def endBuf (s : State) (r : Nat) (b : FeedBuf) : State :=
  finish (s.modPath r (fun p => { p with bufs := p.bufs.filter (fun c => c.ref != b.ref) })) b.ref 0
    (b.bytes + b.records * 2 ^ 32) 0

/-- One LOST record takes the first free place (R581). -/
def queueLost (s : State) (k : Nat) : State :=
  let p := s.path k
  if p.pendLost = 0 ∨ 256 ≤ p.queue.length then s
  else s.modPath k (fun p => { p with queue := p.queue ++ [mkRecord 0xFF 0 p.seq (ptp s) (p.pendLost % 2 ^ 32)], seq := (p.seq + 1) % 2 ^ 32, pendLost := 0 })

/-- Records that wait go to the posted buffers, in posting order and whole (R582). -/
def pumpFeed : Nat → State → Nat → State
  | 0, s, _ => s
  | fuel + 1, s, r =>
    match feedRing s r with
    | none => s
    | some i =>
      match (s.path r).queue, (s.path r).bufs.find? (fun b => b.ref.ring == i) with
      | r0 :: rest, some b =>
        let s1 := hostWrite s r (b.addr + b.bytes) (natLE 64 r0.toNat)
        let b' : FeedBuf := { b with bytes := b.bytes + 64, records := b.records + 1,
                                     since := if b.records = 0 then s.vcycle else b.since }
        let s2 := queueLost (s1.modPath r (fun p => { p with queue := rest, bufs := p.bufs.map (fun c => if c.ref = b.ref then b' else c) })) r
        pumpFeed fuel (if b'.length < b'.bytes + 64 then endBuf s2 r b' else s2) r
      | _, _ => s

/-- A function's path takes no record: it is DRAINING or orphaned (R581). -/
def pathShut (s : State) (k : Nat) : Bool := (s.fn k).st == .draining || (s.fn k).orphan.isSome

/-- A record that a path drops is counted (R581). -/
def dropRecord (s : State) (k : Nat) : State := s.modPath k (fun p => { p with lost := satAdd 32 p.lost 1, pendLost := p.pendLost + 1 })

/-- A function queues a record, behind the LOST record that is due, or drops and counts it (R581). -/
def queueRecord (s : State) (k type source payload : Nat) : State :=
  let s1 := queueLost s k
  let p := s1.path k
  if 255 ≤ p.queue.length then dropRecord s1 k
  else pumpFeed 300 (s1.modPath k (fun p => { p with queue := p.queue ++ [mkRecord type source p.seq (ptp s) payload], seq := (p.seq + 1) % 2 ^ 32 })) k

/-- Hand one record to a path: a session takes it at once (DESIGN CHOICE, log 33). -/
def toPath (s : State) (k type source payload : Nat) : State :=
  if 16 ≤ k then
    let rec_ := mkRecord type source (s.path k).seq (ptp s) payload
    sendOne (s.modPath k (fun p => { p with seq := (p.seq + 1) % 2 ^ 32 })) (k - 16) 0x30 (natLE 64 rec_.toNat)
  else if pathShut s k then dropRecord s k else queueRecord s k type source payload

/-- A record is produced once and delivered to every path whose WF_MASK selects its type: bit t for type t (R578, Table
18-8). -/
def feedPut (s : State) (type source payload : Nat) : State :=
  s.wx.paths.foldl (fun s p => if bitAt p.2.mask type then toPath s p.1 type source payload else s) s

/-! ### Commands of a feed ring -/

/-- A command of PF0 on the feed while no core of UPKEEP, which makes the feed, runs (R208, R210). -/
def feedDown (s : State) (r : Nat) : Bool := isPf0 r && !(coresOfComp 7).any (fun c => (s.core c).st == .running)

/-- FEED_BUFFER (R582). -/
def feedBufferEff (r i d : Nat) (ref : DRef) (s : State) : CmdRes :=
  let addr := fld d 64 64
  let len := fld d 128 32
  if feedRing s r ≠ some i then bad s 0x80
  else if addr % 64 ≠ 0 ∨ len < 4096 ∨ 2 ^ 20 < len ∨ len % 64 ≠ 0 then bad s 0x06
  else if feedDown s r then bad s 0x0B
  else later (pumpFeed 20000 (s.modPath r (fun p => { p with bufs := p.bufs ++ [{ ref := ref, addr := addr, length := len }] })) r)

def execFeedBuffer (fn ring : Nat) (s : State) : Host.Outcome State Fault Refusal :=
  .next (onDesc s fn ring 0x44 0x01 (fun d ref s => feedBufferEff fn ring d ref s))

/-- FEED_FLUSH completes the buffer being filled, and itself with what that buffer holds (R582). -/
def feedFlushEff (r i : Nat) (s : State) : CmdRes :=
  if feedRing s r ≠ some i then bad s 0x80
  else if feedDown s r then bad s 0x0B
  else match (s.path r).bufs.find? (fun b => b.ref.ring == i && b.records != 0) with
    | none => ok0 s
    | some b => okR (endBuf s r b) (b.bytes + b.records * 2 ^ 32)

def execFeedFlush (fn ring : Nat) (s : State) : Host.Outcome State Fault Refusal :=
  .next (onDesc s fn ring 0x44 0x02 (fun _ _ s => feedFlushEff fn ring s))

/-- flush_ms have passed since the first record of a partly filled buffer (R582). -/
def doFlushTimeout (r : Nat) (s : State) : State :=
  match (s.path r).bufs.find? (fun b => b.records != 0) with
  | none => s
  | some b => if (s.path r).flushMs = 0 then s else endBuf (advanceTo s (b.since + (s.path r).flushMs * msCycles)) r b

def execFeedFlushTimeout (pf : Nat) (s : State) : Host.Outcome State Fault Refusal := .next (doFlushTimeout pf s)

/-! ### Totals that sampled records report as deltas -/

/-- Key of a total: record type, source, count. -/
def totKey (type source k : Nat) : Nat := (type * 65536 + source) * 16 + k
def addTotal (s : State) (type source k n : Nat) : State :=
  s.modWx (fun w => { w with totals := mset w.totals (totKey type source k) (mget w.totals (totKey type source k) 0 + n) 0 })

/-- A count since the previous record of the same type and source; the total becomes the new reference (R579). -/
def deltaOf (s : State) (type source k now : Nat) : State × Nat :=
  (s.modWx (fun w => { w with prev := mset w.prev (totKey type source k) now 0 }),
    now - mget s.wx.prev (totKey type source k) 0)

end Sys2Proof.Machine
end

