-- ==== Sys2Proof/Machine/Memory.lean ====
section
/-!
DEFINITION. Narrow-channel memory stacks (15): address decoding, engine reads and writes with their statuses,
uncorrectable reads, scrubbing, training losses. What lets waiting stores go on, and group retirement, stands in
Machine/Retire.lean.
-/
namespace Sys2Proof.Machine

def State.stk (s : State) (n : Nat) : Stk := mget s.stks n {}
def State.modStk (s : State) (n : Nat) (f : Stk → Stk) : State := { s with stks := mset s.stks n (f (s.stk n)) {} }
def Stk.chan (k : Stk) (c : Nat) : Chan := mget k.chans c {}
def Stk.modChan (k : Stk) (c : Nat) (f : Chan → Chan) : Stk := { k with chans := mset k.chans c (f (k.chan c)) {} }

/-- A power domain is ON (R524). -/
def domOn (s : State) (d : Nat) : Bool := (mget s.doms d {}).power == 2
/-- The transom reaches the registers of a domain: it is ON and its clock runs (R538). -/
def reachable (s : State) (d : Nat) : Bool := domOn s d && !(mget s.doms d {}).stopped
/-- An access that the transom does not forward is counted (R538). -/
def offAccess (s : State) : State := { s with transom := { s.transom with transomOff := satAdd 32 s.transom.transomOff 1 } }
/-- A unit is in service: its domain is ON and neither CLOSING nor in self-test (R530). -/
def inService (s : State) (d : Nat) : Bool := domOn s d && (mget s.doms d {}).service == 1
/-- Domain of stack n, and of its MEM tile (Table 16-6, R496). -/
def stackDom (n : Nat) : Nat := 84 + n
def memDom (n : Nat) : Nat := if n < 4 then 32 + n else 42 + 32 + (n - 4)

/-- Stack, offset, logical frame and frame offset of a stack address (R497). -/
def stackOf (a : Nat) : Nat := a / 2 ^ 36
def frameOf (a : Nat) : Nat := a % 2 ^ 36 / 2 ^ 21
def frameOff (a : Nat) : Nat := a % 2 ^ 21
/-- Group and physical frame of a logical frame (R497). -/
def frameMap (k : Stk) (f : Nat) : Nat × Nat :=
  let v := mget k.frames f (2048 * (f % 16) + f / 16)
  (v / 2048, v % 2048)
/-- Channel of a stack address (R498). -/
def chanOf (s : State) (a : Nat) : Nat :=
  8 * (frameMap (s.stk (stackOf a)) (frameOf a)).1 + frameOff a / 256 % 8
/-- Address within the channel (R498). -/
def chanAddr (s : State) (a : Nat) : Nat :=
  (frameMap (s.stk (stackOf a)) (frameOf a)).2 * 2 ^ 18 + frameOff a / 2048 * 256 + frameOff a % 256

/-- Symbol of a codeword that a beat of a pin carries: 8 beats of a pin to a symbol, 18 pins (R499). -/
def symbolAt (beat pin : Nat) : Nat := 18 * (beat / 8) + pin

/-- What the check code finds where these symbols of a codeword are in error: it corrects 4 of them; more are reported as
uncorrectable, without a guarantee (R499). -/
def codewordOf (bad : List Nat) : Codeword :=
  let n := bad.eraseDups.length
  if n = 0 then .good else if n ≤ 4 then .corrected else .uncorrectable

/-- A command transfer whose parity fails is repeated 4 times, and a fifth failure is a training loss (R499). -/
def parityLoss (failures : Nat) : Bool := decide (5 ≤ failures)

/-- Codewords of 64 bytes that a range touches, by address. -/
def linesOf (a n : Nat) : List Nat :=
  if n = 0 then [] else (List.range ((a + n - 1) / 64 - a / 64 + 1)).map (fun k => (a / 64 + k) * 64)

/-- A codeword reads as uncorrectable: it is on the lost-line list, or its channel is FAILED (R503, R505). -/
def lineBad (s : State) (l : Nat) : Bool :=
  (s.stk (stackOf l)).lost.contains l || ((s.stk (stackOf l)).chan (chanOf s l)).failed

/-- Status of reaching a stack range: 0, 0x02 for an unmapped frame or an address outside the stacks, 0x0B while the
stack is not ON (R497, R507). -/
def stackReach (s : State) (a n : Nat) : Nat :=
  if 2 ^ 39 < a + n then 0x02
  else if (linesOf a n).any (fun l => !(domOn s (stackDom (stackOf l)) && domOn s (memDom (stackOf l)))) then 0x0B
  else if (linesOf a n).any (fun l => (s.stk (stackOf l)).mapped ≤ frameOf l) then 0x02
  else 0

/-- An uncorrectable read: counted, logged and posted (R500, R513). -/
def uncorrectable (s : State) (a claimant : Nat) : State :=
  let n := stackOf a
  let s1 := s.modStk n (fun k => { k with ue := satAdd 32 k.ue 1, lastUe := a, errorLog := (ptp s, a) :: k.errorLog })
  (bothPf0 ++ bothPf1).foldl (fun s r => postEventS s r 0x4001 n 0x04 (a + claimant * 2 ^ 56) 0) s1

/-- Kind of a claimant: 0 XPT, 1 MOV, 2 SUM, 3 SEAL, 4 STO, 5 CTL, 6 any other (Table 6-3). -/
def tileKind (cl : Nat) : Nat :=
  let q := cl % 42
  if 84 ≤ cl then 6 else if q < 8 then 0 else if q < 16 then 1 else if q < 22 then 2 else if q < 26 then 3 else if q < 30 then 4
  else if q < 32 then 5 else 6

/-- Codewords that a stack can transfer in a window of 1 µs: 1,638.4 GB/s (Table 15-1, R509). -/
def windowLines : Nat := 25600

/-- Kind `kind` has taken the share of the stack's channel time that MEM_CAP gives it in the present window: its tiles claim
nothing until the next one (R509). -/
def capReached (s : State) (n kind : Nat) : Bool :=
  let pct := fld s.memCap (7 * kind) 7
  decide (kind < 6) && decide (pct < 100) && decide (pct * windowLines ≤ 100 * mget (s.stk n).capUse kind 0)

/-- A channel grants an access to a claimant: its rotating pointer moves past it (R68, R508). -/
def channelGrant (cl : Nat) (s : State) (l : Nat) : State :=
  s.modStk (stackOf l) (fun k => k.modChan (chanOf s l) (fun c => { c with ptr := (cl + 1) % 86 }))

/-- Every codeword of an access is granted by its channel and counted against its tile kind's share of the present window
(R508, R509). -/
def countCap (s : State) (cl a n : Nat) : State :=
  let kind := tileKind cl
  (addTotal ((linesOf a n).foldl (channelGrant cl) s) 5 (stackOf a) 0 n).modStk (stackOf a) (fun k => { k with capUse := mset k.capUse kind (mget k.capUse kind 0 + (linesOf a n).length) 0 })

/-- An engine of claimant `cl` reads a stack range: its bytes and status 0, or the status the access ends with (R497, R500, R507). -/
def engineRead (s : State) (cl a n : Nat) : State × Nat × List Byte :=
  let st := stackReach s a n
  if st ≠ 0 then (s, st, [])
  else match (linesOf a n).find? (lineBad s) with
    | some l => (uncorrectable s l cl, 0x04, [])
    | none => (countCap s cl a n, 0, readStack s a n)

def State.ckpt (s : State) (ep : Nat) : Ckpt := mget s.ck ep {}
def State.modCk (s : State) (ep : Nat) (f : Ckpt → Ckpt) : State := { s with ck := mset s.ck ep (f (s.ckpt ep)) {} }
def State.modTake (s : State) (ep : Nat) (f : Take → Take) : State := s.modCk ep (fun k => { k with take := k.take.map f })

def granuleBytes : Nat := 2 ^ 21

/-- The takes that protect a granule, by endpoint. -/
def protectedBy (s : State) (g : Nat) : List Nat :=
  [0, 1].filter (fun ep => match (s.ckpt ep).take with
    | some t => t.prot.contains g
    | none => false)

/-- A free place in the reserve of a stack, as its address (R288). -/
def reservePlace (s : State) (ep n : Nat) : Option Nat :=
  let k := s.ckpt ep
  let used := match k.take with
    | some t => t.copies.filterMap (fun (c : CowCopy) => c.place)
    | none => []
  (List.range (if k.committed then mget k.cowSize n 0 else 0)).findSome? (fun i =>
    let a := mget k.cowBase n 0 * granuleBytes + i * granuleBytes
    if used.contains a then none else some a)

/-- RESERVE_FULL, once per take and stack (R289, R316). -/
def reserveFull (s : State) (ep n : Nat) : State :=
  match (s.ckpt ep).take with
  | none => s
  | some t =>
    if t.fullPosted.contains n then s
    else postEvent (s.modTake ep (fun t => { t with fullPosted := n :: t.fullPosted })) (4 + ep) 0x1503 n (mget (s.ckpt ep).cowSize n 0)

/-- Copy a protected granule away and end its protection; `us` is how long writes waited for it (R288). -/
def copyGranule (s : State) (ep g us : Nat) : State :=
  let n := stackOf (g * granuleBytes)
  let bytes := readStack s (g * granuleBytes) granuleBytes
  let broken := (linesOf (g * granuleBytes) granuleBytes).find? (lineBad s)
  let s0 := match broken with | some l => uncorrectable s l 8 | none => s
  let s1 := (s0.modCk ep (fun k => { k with copies := satAdd 32 k.copies 1, waitUs := satAdd 32 k.waitUs us }))
  let fin (s : State) (c : CowCopy) : State := s.modTake ep (fun t =>
    { t with prot := t.prot.filter (· != g), copying := t.copying.filter (· != g), copies := t.copies ++ [c] })
  match reservePlace s ep n with
  | some a => fin (writeStack s1 a bytes) { granule := g, place := some a, bad := broken.isSome }
  | none => fin (reserveFull s1 ep n) { granule := g, bytes := bytes, bad := broken.isSome }

/-- An engine's write of a granule that a take protects: the granule is kept as it stood before the write (R288). The
write waits in the hardware, also for a full reserve; here it takes effect at once (DESIGN CHOICE, log 15). -/
def keepGranule (s : State) (a : Nat) : State :=
  (protectedBy s (a / granuleBytes)).foldl (fun s ep => copyGranule s ep (a / granuleBytes) 3) s

/-- Write one codeword's part of an operation (R501): a whole codeword repairs a lost line; a partial write of one that
reads as uncorrectable is not made. -/
def writeLine (s : State) (a : Nat) (bs : List Byte) (l : Nat) : State × Bool :=
  let lo := max a l
  let hi := min (a + bs.length) (l + 64)
  let part := sliceB bs (lo - a) (hi - lo)
  let whole := decide (hi - lo = 64)
  if ((s.stk (stackOf l)).chan (chanOf s l)).failed then (s, false)
  else if (s.stk (stackOf l)).lost.contains l && !whole then (s, false)
  else
    let s1 := writeStack (keepGranule s lo) lo part
    (if whole then s1.modStk (stackOf l) (fun k => { k with lost := k.lost.filter (· != l) }) else s1, true)

/-- An engine writes a stack range (R501): every codeword is written on its own, and any that could not be written
makes the operation end with 0x04. -/
def engineWrite (s : State) (cl a : Nat) (bs : List Byte) : State × Nat :=
  let st := stackReach s a bs.length
  if st ≠ 0 then (s, st)
  else
    let r := (linesOf a bs.length).foldl (fun (p : State × Nat) l =>
      match writeLine p.1 a bs l with
      | (s', true) => (s', p.2)
      | (s', false) => (s', 0x04)) (countCap s cl a bs.length, 0)
    r

/-- The logical frame that a retirement is copying now (R504, R505). -/
def copyingFrame (k : Stk) : Option Nat :=
  match k.retire with
  | none => none
  | some r => if r.running then r.todo.head? else none

/-- An access of a control core waits: its channel retrains, or its tiles' share of the window is used up (R503, R509). An
engine's access that would wait so takes effect at once (DESIGN CHOICE, log 18). -/
def accessWaits (s : State) (a : Nat) : Bool := ((s.stk (stackOf a)).chan (chanOf s a)).lost || capReached s (stackOf a) 5

/-- A control core's store to stack memory must wait: its frame is being copied, its granule is protected, or the access
itself waits (R288, R505). -/
def storeBlocked (s : State) (a : Nat) : Bool :=
  copyingFrame (s.stk (stackOf a)) == some (frameOf a) || !(protectedBy s (a / granuleBytes)).isEmpty || accessWaits s a

/-! ### Corrected codewords, scrubbing, training losses (R502, R503) -/

def hourCycles : Nat := 3600 * 1000 * msCycles

/-- A corrected codeword is counted; past MEM_CE_LIMIT within an hour its channel is reported once (R503). -/
def correctedRead (s : State) (a : Nat) : State :=
  let n := stackOf a
  let c := chanOf s a
  let h := s.vcycle / hourCycles
  let ch := (s.stk n).chan c
  let cnt := (if ch.hour = h then ch.ceHour else 0) + 1
  let post := decide (s.memCeLimit < cnt) && ch.degradedHour != some h
  let s1 := s.modStk n (fun k => ({ k with ce := satAdd 32 k.ce 1 }).modChan c (fun ch =>
    { ch with ceHour := cnt, hour := h, degradedHour := if post then some h else ch.degradedHour }))
  if post then postAll s1 (bothPf0 ++ bothPf1) 0x4002 n (c + cnt * 2 ^ 32) else s1

/-- UPKEEP reads one mapped codeword (R502): corrected ones are written back, uncorrectable ones reported and left. -/
def doScrub (n line : Nat) (found : Codeword) (s : State) : State :=
  let a := n * 2 ^ 36 + line * 64 % 2 ^ 36
  if n ≥ 8 ∨ stackReach s a 64 ≠ 0 then s
  else
    let s1 := s.modStk n (fun k => { k with scrubAt := (line + 1) % (k.mapped * 32768) })
    if lineBad s a then uncorrectable s1 a 84
    else match found with
      | .good => channelGrant 84 s1 a
      | .corrected => correctedRead (channelGrant 84 s1 a) a
      | .uncorrectable => uncorrectable s1 a 84

def execScrub (stack line : Nat) (found : Codeword) (s : State) : Host.Outcome State Fault Refusal :=
  .next (doScrub stack line found s)

/-- A channel loses training: its accesses wait while it retrains (R503). -/
def doTrainingLoss (n c : Nat) (s : State) : State :=
  if n < 8 ∧ c < 128 ∧ domOn s (stackDom n) then
    s.modStk n (fun k => k.modChan c (fun ch => if ch.failed then ch else { ch with lost := true }))
  else s

def execChannelTrainingLoss (stack chan : Nat) (s : State) : Host.Outcome State Fault Refusal :=
  .next (doTrainingLoss stack chan s)

end Sys2Proof.Machine
end

