-- ==== Sys2Proof/Machine/Crc.lean ====
section
/-!
DEFINITION. Cyclic redundancy checks: CRC-32C of flits and packets (03, R80), CRC-32, and CRC-64 of check-value units
(18, R573), all bitwise over bytes in order.
-/
namespace Sys2Proof.Machine

/-- One bit of a reflected CRC with polynomial `poly` (reflected). -/
def crcBit (poly c : Nat) : Nat := if c % 2 = 1 then Nat.xor (c / 2) poly else c / 2

def crcByteR (poly c : Nat) (b : Byte) : Nat :=
  crcBit poly (crcBit poly (crcBit poly (crcBit poly (crcBit poly (crcBit poly (crcBit poly (crcBit poly (Nat.xor c b.toNat))))))))

/-- Reflected CRC: initial value, reflected polynomial, final exclusive-or. -/
def crcReflect (poly init xorOut : Nat) (bs : List Byte) : Nat := Nat.xor (bs.foldl (crcByteR poly) init) xorOut

/-- CRC-32C: polynomial 0x1EDC6F41 reflected is 0x82F63B78 (R80). -/
def crc32c (bs : List Byte) : Nat := crcReflect 0x82F63B78 0xFFFFFFFF 0xFFFFFFFF bs

/-- CRC-32 of IEEE 802.3: polynomial 0x04C11DB7 reflected is 0xEDB88320. -/
def crc32 (bs : List Byte) : Nat := crcReflect 0xEDB88320 0xFFFFFFFF 0xFFFFFFFF bs

/-- CRC-64/XZ: polynomial 0x42F0E1EBA9EA3693 reflected is 0xC96C5795D7870F42 (R573). -/
def crc64 (bs : List Byte) : Nat := crcReflect 0xC96C5795D7870F42 0xFFFFFFFFFFFFFFFF 0xFFFFFFFFFFFFFFFF bs

/-- The check value of a polynomial of Table 18-2. -/
def checkValue (poly : Nat) (bs : List Byte) : Nat :=
  if poly = 0 then crc32 bs else if poly = 1 then crc32c bs else crc64 bs

end Sys2Proof.Machine
end

