-- ==== Sys2Proof/Machine/Tap.lean ====
section
/-!
DEFINITION. Check-value units and the taps they stand on (18: R571 to R575), and the check of an alive monitor's sample
(R577).
-/
namespace Sys2Proof.Machine

def State.cv (s : State) (n : Nat) : CvUnit := mget s.wx.units n {}
def State.modCv (s : State) (n : Nat) (f : CvUnit → CvUnit) : State :=
  s.modWx (fun w => { w with units := mset w.units n (f (mget w.units n {})) {} })
def State.mon (s : State) (n : Nat) : AliveMon := mget s.wx.mons n {}
def State.modMon (s : State) (n : Nat) (f : AliveMon → AliveMon) : State :=
  s.modWx (fun w => { w with mons := mset w.mons n (f (mget w.mons n {})) {} })

/-- PF1 that a unit or a monitor belongs to (R571, R576). -/
def cvOwner (n : Nat) : Nat := if n < 16 then 4 else 5
def monOwner (m : Nat) : Nat := if m < 32 then 4 else 5

/-- CHECK record of a unit (Table 18-5). -/
def checkRecord (s : State) (n value expect : Nat) (mismatch aborted : Bool) : State :=
  feedPut s 0x12 n (value + expect * 2 ^ 64 + b2n mismatch * 2 ^ 128 + b2n aborted * 2 ^ 129 + (s.cv n).windows % 2 ^ 32 * 2 ^ 160)

/-- A window whose last unit has passed ends: latch, count, compare, stop in mode 2, record (R574). -/
def cvEnd (n : Nat) (s : State) : State :=
  let u := s.cv n
  if u.armed = false ∨ u.stopped = true ∨ u.window = 0 ∨ u.progress < u.window then s
  else
    let v := checkValue u.poly u.taken
    let miss := (u.mode == 1 || u.mode == 2) && v != u.expect
    let s1 := s.modCv n (fun u => { u with last := v, windows := satAdd 32 u.windows 1, progress := 0, taken := [], mismatches := if miss then satAdd 32 u.mismatches 1 else u.mismatches, stopped := miss && u.mode == 2 })
    checkRecord (if miss then postEvent s1 (cvOwner n) 0x4301 n v else s1) n v u.expect miss false

def execCvWindowEnd (unit : Nat) (s : State) : Host.Outcome State Fault Refusal :=
  .next (if unit < 32 then cvEnd unit s else s)

/-! ### Alive monitors -/

/-- Fault of a sample: 0 none, 1 repeat, 2 skip (R577). -/
def amFault (m : AliveMon) (v : Nat) : Nat :=
  let w := 8 * 2 ^ m.width
  let d := (v % 2 ^ w + 2 ^ w - m.last % 2 ^ w) % 2 ^ w
  if d = 0 ∧ 0 < m.minStep then 1 else if d < m.minStep ∨ m.maxStep < d then 2 else 0

/-- Record a fault of a monitor: its count, the ALIVE record, and ALIVE_FAULT at most once a millisecond (R577). -/
def amReport (s : State) (k kind v last : Nat) : State :=
  let s1 := s.modMon k (fun m =>
    if kind = 1 then { m with repeats := satAdd 24 m.repeats 1 }
    else if kind = 2 then { m with skips := satAdd 24 m.skips 1 }
    else { m with unreadable := satAdd 16 m.unreadable 1 })
  let s2 := feedPut s1 0x13 k (kind + v % 2 ^ 64 * 2 ^ 64 + last % 2 ^ 64 * 2 ^ 128)
  let due := match (s.mon k).eventAt with
    | none => true
    | some t => decide (t + msCycles ≤ s.vcycle)
  if due then postEvent (s2.modMon k (fun m => { m with eventAt := some s.vcycle })) (monOwner k) 0x4303 k (kind + v % 2 ^ 32 * 2 ^ 32)
  else s2

/-- One sample of a monitor: `none` could not be read; `quiet`: its core is in WAIT or in LOCK with wait 1, so that a
repeat is no fault (R577). -/
def amTake (k : Nat) (v : Option Nat) (quiet : Bool) (s : State) : State :=
  let m := s.mon k
  match v with
  | none => amReport s k 3 0 m.last
  | some v =>
    let v := v % 2 ^ (8 * 2 ^ m.width)
    if !m.seen then s.modMon k (fun m => { m with last := v, seen := true })
    else
      let f := amFault m v
      let s1 := s.modMon k (fun m => { m with last := v })
      if f = 0 ∨ (f = 1 ∧ quiet) then s1 else amReport s1 k f v m.last

/-- Field of a tap's unit: little-endian on taps 1, 2, 5 and 6, in network byte order on taps 3 and 4 (R572). -/
def tapField (tap off w : Nat) (bs : List Byte) : Option Nat :=
  if bs.length < off + w then none
  else some (if tap = 3 ∨ tap = 4 then beNat (sliceB bs off w) else leNat (sliceB bs off w))

/-! ### Taps -/

/-- A unit of traffic as a tap sees it: selector, virtual channel or class, handle and hgen, queue; a frame passes tap
NP_RX with queue 0xFFFF as it arrives and with its queue when its verdict is known. -/
structure Seen where
  tap : Nat := 0
  sel : Nat := 0
  vc : Nat := 0
  handle : Nat := 0
  hgen : Nat := 0
  queue : Nat := 0xFFFF

/-- The unit of traffic passes a check-value unit's filter (Table 18-1). -/
def cvMatch (u : CvUnit) (x : Seen) : Bool :=
  u.armed && !u.stopped && u.tap == x.tap && u.sel == x.sel
  && (!(x.tap == 1 || x.tap == 2) || u.any || u.vc == x.vc)
  && (x.tap != 5 || (u.handle == x.handle && u.hgen == x.hgen))
  && (x.tap != 3 || u.queue == x.queue)

/-- A check-value unit takes one unit of traffic, and the alive monitors that read its tap take their field (R571,
R574, R576). A window that is complete has ended before the next begins; what was under way at the arm is skipped whole. -/
def cvTake (n : Nat) (x : Seen) (bs : List Byte) (s : State) : State :=
  let s1 := cvEnd n s
  if (s1.cv n).stopped then s1
  else if (s1.cv n).skip.contains x.vc then s1.modCv n (fun u => { u with skip := u.skip.erase x.vc })
  else
    let s2 := s1.modCv n (fun u => { u with progress := u.progress + 1, taken := u.taken ++ bs })
    (List.range 64).foldl (fun s k =>
      let m := s.mon k
      if m.enable ∧ m.source = 3 ∧ m.cvUnit = n then amTake k (tapField x.tap m.offset (2 ^ m.width) bs) false s else s) s2

/-- A unit of traffic passes a tap; every check-value unit on it takes it (R571). -/
def tapUnit (s : State) (x : Seen) (bs : List Byte) : State :=
  s.wx.units.foldl (fun s u => if cvMatch u.2 x then cvTake u.1 x bs s else s) s

/-- A window in progress is aborted: nothing is latched, and the unit stays armed (R575). -/
def cvAbort (n : Nat) (s : State) : State :=
  let s1 := cvEnd n s
  let u := s1.cv n
  if u.armed = false ∨ u.stopped = true ∨ u.progress = 0 then s1
  else
    let s2 := s1.modCv n (fun u => { u with aborted := true, progress := 0, taken := [] })
    checkRecord (postEvent s2 (cvOwner n) 0x4302 n u.progress) n 0 u.expect false true

/-- Abort the windows of units on taps of a port, an interface or a SUM tile (R575). -/
def cvAbortAll (s : State) (hit : CvUnit → Bool) : State :=
  s.wx.units.foldl (fun s u => if hit u.2 then cvAbort u.1 s else s) s

/-- What was under way at a port's taps ends with the port. -/
def cvUnskip (s : State) (p : Nat) : State :=
  s.wx.units.foldl (fun s u => if u.2.sel = p then s.modCv u.1 (fun u => { u with skip := [] }) else s) s
def cvAbortPort (s : State) (p : Nat) : State :=
  cvAbortAll (cvUnskip s p) (fun u => (u.tap == 1 || u.tap == 2 || u.tap == 6) && u.sel == p)
def cvAbortIf (s : State) (j : Nat) : State := cvAbortAll s (fun u => (u.tap == 3 || u.tap == 4) && u.sel == j)
def cvAbortSum (s : State) (t : Nat) : State := cvAbortAll s (fun u => u.tap == 5 && u.sel == t)

/-- A window is aborted by a change of its port, interface or tile, or by a control write (R575). -/
def execCvWindowAbort (unit : Nat) (s : State) : Host.Outcome State Fault Refusal :=
  .next (if unit < 32 then cvAbort unit s else s)

end Sys2Proof.Machine
end

