-- ==== Sys2Proof/Machine/Fabric.lean ====
section
/-!
DEFINITION. Accelerator ports and the scale-up switch (03): bring-up and retrain, flits sent, peer windows and
translation, tracked requests, the egress and its step windows. Received flits stand in Machine/Flit.lean; a port's way
to DOWN or SHUT with all its consequences in Machine/PortDown.lean.
-/
namespace Sys2Proof.Machine

def State.port (s : State) (p : Nat) : APort := mget s.ports p {}
def State.modPort (s : State) (p : Nat) (f : APort → APort) : State := { s with ports := mset s.ports p (f (s.port p)) {} }

/-- Tile number of the APT tile of a port (Table 6-3). -/
def aptTile (p : Nat) : Nat := if p < 4 then 36 + p else 42 + 36 + (p - 4)
/-- PF1 that owns a port (R105). -/
def ownerOf (s : State) (p : Nat) : Nat := pf1Of (if bitAt s.fabric.owner p then 1 else 0)
def postPort (s : State) (p code result : Nat) : State := postEvent s (ownerOf s p) code p result
def portUp (a : APort) : Bool := a.st == .active || a.st == .retrain
def dropAt (s : State) (p : Nat) : State := s.modPort p (fun a => { a with drop := satAdd 32 a.drop 1 })

/-- Lanes of a width (AF_PORT_STATUS.width). -/
def widthLanes (w : Nat) : Nat := if w = 1 then 0x00FF else if w = 2 then 0xFF00 else if w = 3 then 0xFFFF else 0
/-- All lanes of `m` are set in `x`. -/
def covers (x m : Nat) : Bool := Nat.land x m == m

/-- A register write of a function to a per-port register: the owning PF1's acts, the other PF1's is counted (R105), a
port that the transom does not reach takes none (R538). -/
def portReg (s : State) (r p : Nat) (act : State → State) : State :=
  if !(isPf1 r && present s r) ∨ 8 ≤ p then s
  else if ownerOf s p ≠ r then s.modFn r (fun f => { f with roleDenied := satAdd 32 f.roleDenied 1 })
  else if !reachable s (aptTile p) then offAccess s
  else act s

/-! ### Flits sent (R71, R75, R79 to R81) -/

/-- Virtual channel of a transaction (Table 3-6). -/
def vcOf (op : Nat) : Nat := if op = 0x10 then 0 else if op = 0x18 ∨ op = 0x20 then 1 else if op = 0x30 then 2 else 3

/-- Flits of a channel that have been freed since CREDIT_INIT (R81): those before the header of the earliest transaction
that waits at the ingress or is still arriving, else all received. -/
def freedOf (a : APort) (v : Nat) : Nat :=
  let st := mget a.streams v {}
  let held := ((a.ingress.filter (fun w => vcOf w.txn.op == v)).map (·.at_)) ++ (if st.slots.isEmpty then [] else [st.at_])
  held.foldl min (lget a.rxCount v 0)

/-- 256 bytes of a flit of a port: header, slots, credit counters, CRC (Table 3-3, Table 3-4). -/
def mkFlit (a : APort) (type vc seq firstHdr : Nat) (slots : List Byte) : List Byte :=
  let h := type + vc * 4 + seq % 4096 * 16 + (a.rxNext + 4095) % 4096 * 2 ^ 16 + b2n a.retry * 2 ^ 28 + firstHdr * 2 ^ 32
  let body := natLE 8 h ++ (slots ++ List.replicate (240 - slots.length) 0#8)
    ++ (List.range 4).map (fun v => BitVec.ofNat 8 (freedOf a v))
  body ++ natLE 4 (crc32c body)

/-- Lanes of a mask, in ascending order. -/
def lanesOf (mask : Nat) : List Nat := (List.range 16).filter (bitAt mask)

/-- Bytes of a flit on each of the w lanes it travels on: byte b on the (b div 2) mod w-th (R71). -/
def spread (mask : Nat) (bs : List Byte) : List (Nat × List Byte) :=
  let ls := lanesOf mask
  (List.range ls.length).map (fun i =>
    (lget ls i 0, ((List.range bs.length).filter (fun b => b / 2 % ls.length == i)).map (fun b => lget bs b 0#8)))

/-- Send one flit on the lanes of a mask; it acknowledges what has been received (R86). -/
def sendOn (s : State) (p mask : Nat) (bs : List Byte) : State :=
  emit (s.modPort p (fun a => { a with rxUnacked := 0 })) (.flit p (spread mask bs))

/-- Send one flit on the active lanes. -/
def sendFlit (s : State) (p : Nat) (bs : List Byte) : State := sendOn s p (widthLanes (s.port p).width) bs

/-- Width that both ends allow (R76). -/
def chooseWidth (own peer : Nat) : Nat :=
  let both := Nat.land own peer
  if covers both 0xFFFF then 3 else if covers both 0x00FF then 1 else if covers both 0xFF00 then 2 else 0

/-- A training flit of a port (Table 3-2); it advertises the credits in force since the last CREDIT_INIT (R87). -/
def trainingFlit (a : APort) : List Byte :=
  mkFlit a 2 0 0 0 (natLE 16 (a.laneGood % 2 ^ 16 + chooseWidth a.laneGood a.peerGood * 2 ^ 16 + b2n a.ownReady * 2 ^ 18
    + a.creditsInForce % 2 ^ 32 * 2 ^ 24))

/-- Send a training flit on every lane. The spec gives no cadence: one is sent on entry to TRAIN or RETRAIN, at a CREDIT_INIT,
and for each training flit that leaves the port in one of these states (DESIGN CHOICE, log 41). -/
def sendTraining (s : State) (p : Nat) : State := sendOn s p 0xFFFF (trainingFlit (s.port p))

/-- At width 8 the unused half stays lit and carries training flits: one as the port becomes ACTIVE and one at each check of
that half (R70; DESIGN CHOICE on the cadence, log 41). -/
def lightUnused (s : State) (p : Nat) : State :=
  let a := s.port p
  if a.st = .active ∧ (a.width = 1 ∨ a.width = 2) then sendOn s p (0xFFFF - widthLanes a.width) (trainingFlit a) else s

/-! ### Bring-up, narrowing and widening (R70 to R78) -/

/-- The transmit shutters of a port may open (R70). -/
def shutterOk (s : State) (p : Nat) : Bool :=
  decide (3 ≤ s.power.stage) && bitAt s.trust.shutterAp p && (s.port p).enable

/-- TRAIN is entered; no lane counts as good before its light, lock and lane number have been seen (R72, R75). -/
def enterTrain (s : State) (p : Nat) : State :=
  sendTraining (s.modPort p (fun a => { a with st := .train, since := s.vcycle, half := none, laneGood := 0, peerGood := 0, ownReady := false, peerReady := false })) p

/-- In DETECT: light on all lanes trains at once; light on a whole half starts its 10 ms (Table 3-1). -/
def checkDetect (s : State) (p : Nat) : State :=
  let a := s.port p
  if a.st ≠ .detect then s
  else if covers a.rxLight 0xFFFF then enterTrain s p
  else
    let h := if covers a.rxLight 0x00FF then 1 else if covers a.rxLight 0xFF00 then 2 else 0
    s.modPort p (fun a => { a with half :=
      if h = 0 then none else match a.half with
        | some (h', t) => if h' = h then some (h', t) else some (h, s.vcycle)
        | none => some (h, s.vcycle) })

def enterDetect (s : State) (p : Nat) : State :=
  checkDetect (s.modPort p (fun a => { a with st := .detect, since := s.vcycle, half := none, width := 0, widenPending := false, widenAt := none })) p

/-- SHUT is left for DETECT, with open shutters, while the conditions of R70 hold (Table 3-1). -/
def tryOpen (s : State) (p : Nat) : State :=
  if (s.port p).st = .shut ∧ shutterOk s p = true then
    enterDetect (s.modPort p (fun a => { a with shutterOpen := true })) p
  else s

def doPortEnable (r p : Nat) (s : State) : State :=
  portReg s r p (fun s => tryOpen (s.modPort p (fun a => { a with enable := true })) p)

def execPortEnable (fn port : Nat) (s : State) : Host.Outcome State Fault Refusal :=
  .next (gated fn (.portEnable fn port) (doPortEnable fn port) s)

/-- RETRAIN is entered with a peer's mask where its training flit was the cause (Table 3-1). -/
def enterRetrainWith (s : State) (p peer : Nat) : State :=
  sendTraining (s.modPort p (fun a => { a with st := .retrain, since := s.vcycle, widenAt := none, retrainCount := satAdd 32 a.retrainCount 1, peerGood := peer, ownReady := false, peerReady := false })) p

def enterRetrain (s : State) (p : Nat) : State := enterRetrainWith s p 0

def retrainIfActive (s : State) (p : Nat) : State := if (s.port p).st = .active then enterRetrain s p else s

def execPortRetrain (fn port : Nat) (s : State) : Host.Outcome State Fault Refusal :=
  .next (gated fn (.portRetrain fn port) (fun s => portReg s fn port (fun s => retrainIfActive s port)) s)

/-- Light on the receive lanes changes (R74): DETECT may train, an active lane gone dark retrains. -/
def doRxLight (p : Nat) (lit : Nat) (s : State) : State :=
  if 8 ≤ p then s
  else
    let s1 := s.modPort p (fun a => { a with rxLight := lit % 2 ^ 16, laneGood := Nat.land a.laneGood (lit % 2 ^ 16) })
    if (s1.port p).st = .active ∧ covers (lit % 2 ^ 16) (widthLanes (s1.port p).width) = false then enterRetrain s1 p
    else checkDetect s1 p

def execRxLightChange (port : Nat) (lit : BitVec 16) (s : State) : Host.Outcome State Fault Refusal :=
  .next (doRxLight port lit.toNat s)

/-- Light on a whole half for 10 ms trains the port (Table 3-1). -/
def doDetectHalf (p : Nat) (s : State) : State :=
  match (s.port p).st, (s.port p).half with
  | .detect, some (_, t) => enterTrain (advanceTo s (t + 10 * msCycles)) p
  | _, _ => s

def execDetectHalfTimeout (port : Nat) (s : State) : Host.Outcome State Fault Refusal := .next (doDetectHalf port s)

/-- LOSS_OF_LIGHT while a lane is dark in DETECT, at most once a second (R73). -/
def doLossOfLight (p : Nat) (s : State) : State :=
  let a := s.port p
  if a.st = .detect ∧ covers a.rxLight 0xFFFF = false then
    let due := match a.lastLol with
      | none => a.since
      | some t => max a.since (t + 1000 * msCycles)
    let s1 := advanceTo s due
    postPort (s1.modPort p (fun a => { a with lastLol := some s1.vcycle })) p 0x1007 (0xFFFF - a.rxLight)
  else s

def execLossOfLight (port : Nat) (s : State) : Host.Outcome State Fault Refusal := .next (doLossOfLight port s)

/-- No width is possible within 3 ms of TRAIN: back to DETECT (Table 3-1). -/
def doTrainTimeout (p : Nat) (s : State) : State :=
  if (s.port p).st = .train then enterDetect (advanceTo s ((s.port p).since + 3 * msCycles)) p else s

def execTrainTimeout (port : Nat) (s : State) : Host.Outcome State Fault Refusal := .next (doTrainTimeout port s)

def execDownTimeout (port : Nat) (s : State) : Host.Outcome State Fault Refusal :=
  .next (if (s.port port).st = .down then enterDetect (advanceTo s ((s.port port).since + 100 * msCycles)) port else s)

/-- ACTIVE is entered; at width 8 the unused half is lit, and checked from 100 ms on (R70, R78). -/
def enterActive (s : State) (p w : Nat) : State :=
  lightUnused (s.modPort p (fun a => { a with st := .active, since := s.vcycle, width := w, widenPending := false, replayAsked := false, widenAt := if w = 3 then none else some (s.vcycle + 100 * msCycles) })) p

/-- Send a DATA flit again: its header fields, acknowledgement, retry request and credit counts are those of the present
(R81, R85, R89). -/
def resend (p : Nat) (s : State) (u : TxFlit) : State := sendFlit s p (mkFlit (s.port p) 1 u.vc u.seq u.hdr u.slots)

/-- Send every DATA flit again that is not acknowledged; AF_REPLAY counts each (R89). -/
def resendAll (p : Nat) (s : State) : State :=
  let us := (s.port p).unacked
  us.foldl (resend p) (s.modPort p (fun a => { a with replayCnt := satAdd 32 a.replayCnt us.length }))

/-- RETRAIN ends with a width: the port is ACTIVE, replay resumes from the last acknowledged flit, and a fall of the width
is reported (R77, Table 3-1). -/
def endRetrain (s : State) (p w : Nat) : State :=
  let s1 := resendAll p ((enterActive s p w).modPort p (fun a => { a with runs := 0 }))
  if (s.port p).width = 3 ∧ w ≠ 3 then postPort s1 p 0x1003 w else s1

/-- CREDIT_INIT is entered with a width: sequence numbers and credits start afresh, and the receive buffer is advertised
(R74, R87). -/
def enterCreditInit (s : State) (p w : Nat) : State :=
  sendTraining (s.modPort p (fun a => { a with st := .creditInit, since := s.vcycle, width := w, ownReady := true, creditsInForce := a.vcCredits, txSeq := 0, unacked := [], txUsed := [0, 0, 0, 0], peerFreed := [0, 0, 0, 0], rxNext := 0, retry := false, rxUnacked := 0, rxCount := [0, 0, 0, 0], streams := [], ingress := a.ingress.map (fun w => { w with at_ := 0 }), runs := 0 })) p

/-- Both ends have sent ready = 1: ACTIVE, PORT_UP (Table 3-1). -/
def checkReadyPort (s : State) (p : Nat) : State :=
  let a := s.port p
  if a.st = .creditInit ∧ a.ownReady = true ∧ a.peerReady = true then postPort (enterActive s p a.width) p 0x1001 a.width else s

/-- The port is receiving flits. -/
def receiving (a : APort) : Bool := a.st == .train || a.st == .creditInit || a.st == .active || a.st == .retrain

/-- A training flit arrives on the active lanes (R74 to R77): masks are exchanged, a width is chosen, credits advertised. -/
def doTraining (p own : Nat) (fl : List Byte) (s : State) : State :=
  let body := fl.take 252
  if 8 ≤ p ∨ fl.length ≠ 256 then s
  else if crc32c body ≠ leNat (fl.drop 252) then
    (if receiving (s.port p) then s.modPort p (fun a => { a with crcErr := satAdd 32 a.crcErr 1 }) else s)
  else if fld (leNat (fl.take 8)) 0 2 ≠ 2 then s
  else
    let slot := leNat (sliceB fl 8 16)
    let peer := fld slot 0 16
    let masks (s : State) : State := s.modPort p (fun a => { a with laneGood := own % 2 ^ 16, peerGood := peer })
    let ready (s : State) : State := if bitAt slot 18 then s.modPort p (fun a => { a with peerReady := true, peerCredits := fld slot 24 32 }) else s
    let w := chooseWidth (own % 2 ^ 16) peer
    match (s.port p).st with
    | .active =>
      let s1 := enterRetrainWith (masks s) p peer
      if w = 0 then s1 else endRetrain s1 p w
    | .train => if w = 0 then sendTraining (masks s) p else checkReadyPort (enterCreditInit (ready (masks s)) p w) p
    | .creditInit => if bitAt slot 18 then checkReadyPort (ready (masks s)) p else sendTraining (masks s) p
    | .retrain => if w = 0 then sendTraining (masks s) p else endRetrain (masks s) p w
    | _ => s

def execTrainingFlitRx (port : Nat) (ownGood : BitVec 16) (flit : List (BitVec 8)) (s : State) : Host.Outcome State Fault Refusal :=
  .next (doTraining port ownGood.toNat flit s)

/-- The 100 ms check of the unused half (R78). -/
def doWidenCheck (p : Nat) (s : State) : State :=
  let a := s.port p
  match a.st, a.widenAt with
  | .active, some t =>
    let s1 := advanceTo s t
    if covers a.rxLight (0xFFFF - widthLanes a.width) then
      postPort (s1.modPort p (fun a => { a with widenPending := true, widenAt := none })) p 0x1004 0
    else lightUnused (s1.modPort p (fun a => { a with widenAt := some (s1.vcycle + 100 * msCycles) })) p
  | _, _ => s

def execWidenCheck (port : Nat) (s : State) : Host.Outcome State Fault Refusal := .next (doWidenCheck port s)

/-- PTP time reaches a nonzero AF_RETRAIN_AT: the port retrains if ACTIVE, and the register is cleared (R112). -/
def doRetrainAt (p : Nat) (s : State) : State :=
  let a := s.port p
  if a.retrainAt = 0 then s
  else retrainIfActive ((advanceToPtp s a.retrainAt).modPort p (fun a => { a with retrainAt := 0 })) p

def execRetrainAtReached (port : Nat) (s : State) : Host.Outcome State Fault Refusal := .next (doRetrainAt port s)

/-- A lane loses its alignment: an active lane retrains the port (R72, R74). -/
def doLaneLoss (p lane : Nat) (s : State) : State :=
  if 8 ≤ p ∨ 16 ≤ lane then s
  else
    let s1 := s.modPort p (fun a => { a with laneGood := if bitAt a.laneGood lane then a.laneGood - 2 ^ lane else a.laneGood })
    if (s1.port p).st = .active ∧ bitAt (widthLanes (s1.port p).width) lane then enterRetrain s1 p else s1

def execLaneAlignmentLoss (port lane : Nat) (s : State) : Host.Outcome State Fault Refusal := .next (doLaneLoss port lane s)

/-! ### Link retry (R85, R86, R89) -/

/-- With no DATA flit ready an ACTIVE port sends an IDLE flit, which acknowledges what it received within 64 ns and carries
a retry request (R85, R86). -/
def doAckTimer (p : Nat) (s : State) : State :=
  if (s.port p).st ≠ .active then s else sendFlit s p (mkFlit (s.port p) 0 0 0 0 [])

def execAckTimer (port : Nat) (s : State) : Host.Outcome State Fault Refusal := .next (doAckTimer port s)

/-- A replay run resends every DATA flit not acknowledged; the eighth in a row at one oldest flit retrains. A request that
finds none unacknowledged counts as a run at the next sequence number (R89; DESIGN CHOICE, log 41). -/
def doReplayRun (p : Nat) (s : State) : State :=
  let a := s.port p
  if a.st ≠ .active ∨ !a.replayAsked then s
  else
    let oldest := match a.unacked with | [] => a.txSeq | u :: _ => u.seq
    let n := if a.runAt = oldest ∧ a.runs ≠ 0 then a.runs + 1 else 1
    let s1 := resendAll p (s.modPort p (fun a => { a with replayAsked := false, runs := n, runAt := oldest }))
    if 8 ≤ n then enterRetrain (s1.modPort p (fun a => { a with runs := 0 })) p else s1

def execReplayRun (port : Nat) (s : State) : Host.Outcome State Fault Refusal := .next (doReplayRun port s)

/-! ### Windows (R98 to R104) -/

/-- Ingress window n of a set: base, translated base, control word. -/
def inWin (set : NMap Nat) (n : Nat) : Nat × Nat × Nat := (mget set (32 * n) 0, mget set (32 * n + 8) 0, mget set (32 * n + 16) 0)
def tgWin (set : NMap Nat) (n : Nat) : Nat × Nat := (mget set (0x800 + 32 * n) 0, mget set (0x808 + 32 * n) 0)
def mgCtrl (set : NMap Nat) (g : Nat) : Nat := mget set (0xC00 + 128 * g) 0
def mgXlate (set : NMap Nat) (g m : Nat) : Nat := mget set (0xC40 + 128 * g + 8 * m) 0

/-- The lowest-numbered enabled ingress window that an address matches (R99). -/
def matchWin (set : NMap Nat) (a : Nat) : Option Nat :=
  (List.range 64).find? (fun n =>
    let w := inWin set n
    fld w.2.2 6 2 != 0 && a / 2 ^ fld w.2.2 0 6 == w.1 / 2 ^ fld w.2.2 0 6)

/-- Payload slots that follow a header (R82, Table 3-6). -/
def payloadSlots (t : Txn) : Nat := if t.op = 0x20 then 0 else (t.length + 15) / 16

/-- Slots and flits a transaction occupies (R82, R110). -/
def slotsOf (t : Txn) : Nat := 1 + payloadSlots t
def flitsOf (t : Txn) : Nat := (slotsOf t + 14) / 15

/-- Flits of the egress buffer that are taken, and room for a transaction among the 512 (R92). -/
def egressUsed (a : APort) : Nat := a.egress.foldl (fun n e => n + flitsOf e.txn) 0
def egressRoom (a : APort) (t : Txn) : Bool := decide (egressUsed a + flitsOf t ≤ 512)

/-- What waits to leave a port for an engine or a peer. -/
def outgoing (a : APort) : List Egress := a.egress ++ a.engq

/-- A transaction enters the egress buffer; the forwarding mode that its header finds is its own (R92). -/
def pushEgress (s : State) (p : Nat) (e : Egress) : State := s.modPort p (fun a => { a with egress := a.egress ++ [{ e with sf := a.storeForward }] })

/-- What the engines hold for a port enters its egress buffer in order, as far as it has room (R92). -/
def feedEgress (p : Nat) : List Egress → State → State
  | [], s => s
  | e :: rest, s =>
    if egressRoom (s.port p) e.txn then feedEgress p rest (pushEgress s p e)
    else s.modPort p (fun a => { a with engq := e :: rest })

def fillEgress (s : State) (p : Nat) : State := feedEgress p (s.port p).engq (s.modPort p (fun a => { a with engq := [] }))

/-- A transaction of the Limori's own for a port, behind those that wait for room. -/
def pushEngine (s : State) (p : Nat) (e : Egress) : State := fillEgress (s.modPort p (fun a => { a with engq := a.engq ++ [e] })) p

/-- A CPL that the Limori itself originates, in class ENGINE (Table 3-5, Table 3-10); dropped and counted where the
requester's port is not up (R96). -/
def engineCpl (s : State) (to_ tag status portField : Nat) : State :=
  if portUp (s.port to_) then
    pushEngine s to_ { cls := 3, vc := 2, src := 8, txn := { op := 0x30, port := portField, tag := tag, status := status } }
  else dropAt s to_

/-- WINDOW_MISS, at most once per port per millisecond (R100). -/
def windowMiss (s : State) (p a : Nat) : State :=
  let due := match (s.port p).lastMiss with
    | none => true
    | some t => decide (t + msCycles ≤ s.vcycle)
  if due then postPort (s.modPort p (fun b => { b with lastMiss := some s.vcycle })) p 0x1102 a else s

def isRequest (t : Txn) : Bool := t.op == 0x18 || t.op == 0x20

/-- A transaction that fails translation (R100). -/
def failTranslate (s : State) (p : Nat) (t : Txn) : State :=
  windowMiss (if isRequest t then engineCpl s p t.tag 0x02 p else dropAt s p) p t.addr

/-- Translate a transaction of a port under its active set (R94, R99, R100, R103): every destination with the address
there, and whether the window is multicast; none where translation fails. -/
def translate (s : State) (p : Nat) (t : Txn) : Option (List (Nat × Nat) × Bool) :=
  let set := (s.port p).activeSet
  match matchWin set t.addr with
  | none => none
  | some n =>
    let w := inWin set n
    let dest := fld w.2.2 8 3
    let right := if t.op = 0x20 then bitAt w.2.2 11 else bitAt w.2.2 12
    if !right || (isRequest t && fld w.2.2 6 2 == 2) then none
    else if fld w.2.2 6 2 = 2 then
      some (((List.range 8).filter (fun m => bitAt (fld (mgCtrl set dest) 0 8) m)).map (fun m => (m, (mgXlate set dest m + (t.addr - w.1)) % 2 ^ 64)), true)
    else some ([(dest, (w.2.1 + (t.addr - w.1)) % 2 ^ 64)], false)

/-- One translated copy enters a destination's egress, or is dropped and counted there where the port is not up (R94, R96). -/
def copyTo (p : Nat) (w : Wait) (s : State) (d : Nat × Nat) : State :=
  if portUp (s.port d.1) then
    pushEgress s d.1 { cls := 0, vc := vcOf w.txn.op, src := p, gen := w.gen, id := w.id, txn := { w.txn with port := p, addr := d.2 } }
  else dropAt s d.1

/-- A translated transaction of a port goes to its destinations: `none` while it must wait, because an egress buffer or the
table of tracked requests is full (R92, R94, R95, R96). -/
def placeTxn (s : State) (p : Nat) (w : Wait) : Option State :=
  if isRequest w.txn then
    let dest := ((w.dests.head?).getD (0, 0)).1
    if !portUp (s.port dest) then some (engineCpl s p w.txn.tag 0x0B dest)
    else if (s.port dest).tracked.contains { src := p, tag := w.txn.tag } then some (engineCpl s p w.txn.tag 0x06 dest)
    else if 4096 ≤ (s.port dest).tracked.length ∨ egressRoom (s.port dest) w.txn = false then none
    else some (w.dests.foldl (copyTo p w) (s.modPort dest (fun a => { a with tracked := a.tracked ++ [{ src := p, tag := w.txn.tag }] })))
  else if w.dests.any (fun d => portUp (s.port d.1) && !egressRoom (s.port d.1) w.txn) then none
  else some (w.dests.foldl (copyTo p w) s)

/-- A transaction must wait behind others that wait at its ingress: those of its own channel, and for a request an earlier
WRITE to its destination (R93). -/
def behindAt (ws : List Wait) (w : Wait) : Bool :=
  ws.any (fun u => vcOf u.txn.op == vcOf w.txn.op
    || (u.txn.op == 0x10 && isRequest w.txn && u.dests.any (fun d => w.dests.any (fun e => d.1 == e.1))))

def waitAt (s : State) (p : Nat) (w : Wait) : State := s.modPort p (fun a => { a with ingress := a.ingress ++ [w] })

/-- A translated transaction enters the switch, or waits at its ingress. -/
def enter (s : State) (p : Nat) (w : Wait) : State :=
  if behindAt (s.port p).ingress w then waitAt s p w
  else match placeTxn s p w with
    | some s' => s'
    | none => waitAt s p w

/-- Transactions that wait at a port's ingress are offered again, in order. -/
def reoffer (p : Nat) : List Wait → State → State
  | [], s => s
  | w :: rest, s => reoffer p rest (enter s p w)

def retryIngress (s : State) : State :=
  (List.range 8).foldl (fun s p =>
    match (s.port p).ingress with
    | [] => s
    | ws => reoffer p ws (s.modPort p (fun a => { a with ingress := [] }))) s

/-- Payload of a transaction received from a port's accelerator passes tap AP_RX (Table 18-1). -/
def apRx (s : State) (p : Nat) (t : Txn) : State :=
  if t.data.isEmpty then s
  else tapUnit (addTotal s 3 p 0 t.data.length) { tap := 1, sel := p, vc := vcOf t.op } t.data

/-- Ingress checks on a WRITE, WRITE_ACKED or READ (R84): length 1 to 256, no 4 KiB boundary crossed. -/
def crosses4k (a n : Nat) : Bool := a / 4096 != (a + n - 1) / 4096

/-- A WRITE, WRITE_ACKED or READ is translated once, as its header is, and enters the switch under a name by which its later
slots follow it (R103); its name is 0 where it goes nowhere. -/
def startTxn (s : State) (p at_ : Nat) (t : Txn) : State × Nat :=
  match translate s p t with
  | none => (failTranslate s p t, 0)
  | some d =>
    let id := s.fabric.nextTxn
    (enter { s with fabric := { s.fabric with nextTxn := id + 1 } } p
      { txn := { t with port := 0 }, id := id, at_ := at_, dests := d.1, multi := d.2, gen := (s.port p).activeGen }, id)

/-- A CPL must match a tracked request of the port it names (R95); the entry is free, and the CPL goes to the requester. -/
def startCpl (s : State) (p at_ : Nat) (t : Txn) : State × Nat :=
  let k : Tracked := { src := t.port, tag := t.tag }
  if !(s.port p).tracked.contains k then (dropAt s p, 0)
  else
    let id := s.fabric.nextTxn
    let s1 := { s with fabric := { s.fabric with nextTxn := id + 1 } }.modPort p (fun a => { a with tracked := a.tracked.erase k })
    (enter s1 p { txn := t, id := id, at_ := at_, dests := [(t.port, 0)] }, id)

/-- A whole transaction of a port's accelerator arrives. -/
def ingressTxn (p : Nat) (t : Txn) (s : State) : State :=
  if 8 ≤ p ∨ portUp (s.port p) = false then s
  else if t.length < 1 ∨ 256 < t.length ∨ crosses4k t.addr t.length then
    let s1 := dropAt s p
    if isRequest t then engineCpl s1 p t.tag 0x06 p else s1
  else
    let s1 := apRx s p t
    (startTxn s1 p (lget (s1.port p).rxCount (vcOf t.op) 0) t).1

def execFabricWrite (port addr : Nat) (data : List (BitVec 8)) (s : State) : Host.Outcome State Fault Refusal :=
  .next (ingressTxn port { op := 0x10, length := data.length, addr := addr, data := data } s)

def execFabricWriteAcked (port tag addr : Nat) (data : List (BitVec 8)) (s : State) : Host.Outcome State Fault Refusal :=
  .next (ingressTxn port { op := 0x18, length := data.length, tag := tag, addr := addr, data := data } s)

def execFabricRead (port tag addr length : Nat) (s : State) : Host.Outcome State Fault Refusal :=
  .next (ingressTxn port { op := 0x20, length := length, tag := tag, addr := addr } s)

/-- A CPL from a port's accelerator; the entry that it frees lets a waiting request in (R95). -/
def doFabricCpl (p toPort tag status : Nat) (data : List Byte) (s : State) : State :=
  if 8 ≤ p ∨ portUp (s.port p) = false then s
  else if 256 < data.length then dropAt s p
  else
    let s1 := apRx s p { op := 0x30, data := data }
    retryIngress (startCpl s1 p (lget (s1.port p).rxCount 2 0) { op := 0x30, length := data.length, port := toPort, tag := tag, status := status, data := data }).1

def execFabricCpl (port toPort tag status : Nat) (data : List (BitVec 8)) (s : State) : Host.Outcome State Fault Refusal :=
  .next (doFabricCpl port toPort tag status data s)

/-- First faulty entry of a shadow set (R102). -/
def badEntry (set : NMap Nat) : Option Nat :=
  let badIn (n : Nat) : Bool :=
    let w := inWin set n
    let k := fld w.2.2 6 2
    let sz := fld w.2.2 0 6
    k != 0 && (k == 3 || decide (sz < 12) || decide (48 < sz) || w.1 % 2 ^ sz != 0 || w.2.1 % 4096 != 0
      || (k == 2 && !bitAt (mgCtrl set (fld w.2.2 8 3)) 8))
  let badTg (n : Nat) : Bool :=
    let w := tgWin set n
    let sz := fld w.2 0 6
    bitAt w.2 6 && (decide (sz < 12) || decide (48 < sz) || w.1 % 2 ^ sz != 0)
  let badMg (g : Nat) : Bool :=
    let c := mgCtrl set g
    bitAt c 8 && (fld c 0 8 == 0 || (List.range 8).any (fun m => bitAt c m && mgXlate set g m % 4096 != 0))
  match (List.range 64).find? badIn with
  | some n => some n
  | none => match (List.range 16).find? badTg with
    | some n => some (64 + n)
    | none => ((List.range 8).find? badMg).map (80 + ·)

def endPw (s : State) (status bp be : Nat) : State :=
  { s with fabric := { s.fabric with pwBusy := false, pwStatus := status, pwBadPort := bp, pwBadEntry := be, pwSets := [] } }

/-- A write of PW_COMMIT (R101): every set in the mask is validated; valid ones become active together, as they were
validated. A mask that names a port of the other PF1 reports 0x0E before any set is looked at (DESIGN CHOICE, log 41). -/
def doPwCommit (r mask : Nat) (s : State) : State :=
  let ps := (List.range 8).filter (fun p => bitAt mask p)
  if !(isPf1 r && present s r) ∨ s.fabric.pwBusy then s
  else if ps.isEmpty then endPw s 0x00 0 0
  else if ps.any (fun p => ownerOf s p != r) then endPw s 0x0E 0 0
  else match ps.find? (fun p => (badEntry (s.port p).shadow).isSome) with
    | some p => endPw s 0x06 p ((badEntry (s.port p).shadow).getD 0)
    | none => { s with fabric := { s.fabric with pwBusy := true, pwSets := ps.map (fun p => (p, (s.port p).shadow)) } }

def execPwCommit (fn : Nat) (mask : BitVec 32) (s : State) : Host.Outcome State Fault Refusal :=
  .next (gated fn (.pwCommit fn mask) (doPwCommit fn mask.toNat) s)

/-- An entry of egress q was translated by the windows of port p: ingress windows of the source port, target windows of the
port that an engine writes to or reads from (R99, R104). -/
def byWindowsOf (p q : Nat) (e : Egress) : Bool :=
  (e.src == p && e.txn.op != 0x30) || (e.src == 8 && q == p && (e.txn.op == 0x10 || e.txn.op == 0x20))

/-- Transactions still in the switch that were translated under an older generation of a port's windows (R104). -/
def inflightOld (s : State) (p : Nat) : Nat :=
  (List.range 8).foldl (fun n q => n + ((outgoing (s.port q)).filter (fun e => byWindowsOf p q e && e.gen != (s.port p).activeGen)).length)
    ((s.port p).ingress.filter (fun w => w.txn.op != 0x30 && w.gen != (s.port p).activeGen)).length

/-- The validated sets become active in one cycle, and each shadow set holds them (R101). -/
def doActivate (s : State) : State :=
  if !s.fabric.pwBusy then s
  else
    let s1 := s.fabric.pwSets.foldl (fun s x => s.modPort x.1 (fun a => { a with activeSet := x.2, shadow := x.2, activeGen := (a.activeGen + 1) % 2 ^ 16 })) s
    endPw (s.fabric.pwSets.foldl (fun s x => s.modPort x.1 (fun a => { a with drainDue := inflightOld s x.1 != 0 })) s1) 0x00 0 0

def execWindowsActivate (s : State) : Host.Outcome State Fault Refusal := .next (doActivate s)

/-- WINDOWS_DRAINED as the count of old transactions reaches zero (R104). -/
def checkDrained (s : State) (p : Nat) : State :=
  if (s.port p).drainDue ∧ inflightOld s p = 0 then
    postPort (s.modPort p (fun a => { a with drainDue := false })) p 0x1101 (s.port p).activeGen
  else s

/-- Address in accelerator memory that an engine reaches by target window n at an offset (R99), with the right it
needs: write or read. `none`: refused with 0x02. -/
def targetAddr (s : State) (p n off len : Nat) (write : Bool) : Option Nat :=
  let w := tgWin (s.port p).activeSet n
  if bitAt w.2 6 && (if write then bitAt w.2 7 else bitAt w.2 8) && decide (n < 16) && decide (off + len ≤ 2 ^ fld w.2 0 6) then
    some ((w.1 + off) % 2 ^ 64)
  else none

/-- Split an engine write into WRITEs of at most 256 bytes that cross no 4 KiB boundary (R84). -/
def chunks256 : Nat → Nat → List Byte → List (Nat × List Byte)
  | 0, _, _ => []
  | fuel + 1, a, bs =>
    if bs.isEmpty then []
    else
      let n := min bs.length (256 - a % 256)
      (a, bs.take n) :: chunks256 fuel (a + n) (bs.drop n)

/-- The Limori's own writes into a port's accelerator, in a class, for an engine (Table 3-10); those to a port that is DOWN or
SHUT are dropped and counted (R96). -/
def engineWrites (s : State) (p cls : Nat) (eng : Eng) (a : Nat) (bs : List Byte) : State :=
  (chunks256 (bs.length + 1) a bs).foldl (fun s c =>
    if !portUp (s.port p) then dropAt s p
    else pushEngine s p { cls := cls, vc := 0, src := 8, gen := (s.port p).activeGen, eng := eng, txn := { op := 0x10, length := c.2.length, addr := c.1, data := c.2 } }) s

/-- Bytes that one READ of an engine asks for: at most 256, across no 4 KiB boundary (R84). -/
def readPiece (a left : Nat) : Nat := min left (256 - a % 256)

/-- The Limori's own read of a port's accelerator memory, in class ENGINE (R106): READs of at most 256 bytes, of which the
next waits in the egress. Their data reaches the engine with the command that consumes it (DESIGN CHOICE, log 41). -/
def engineRead_ (s : State) (p a n : Nat) : State :=
  if n = 0 then s
  else pushEngine s p { cls := 3, vc := 1, src := 8, gen := (s.port p).activeGen, eng := .read (n - readPiece a n), txn := { op := 0x20, length := readPiece a n, addr := a } }

/-! ### Gates and setup of a port (R87, R88, R108) -/

def shadowList (a : APort) : GateList :=
  { base := a.gateBase, cycle := a.gateCycle, change := a.gateChange,
    entries := (List.range a.gateLen).map (fun k => (fld (mget a.gcl k 0) 0 24, fld (mget a.gcl k 0) 24 4)) }

/-- AF_GATE_ACTION.commit: the shadow list is validated and becomes pending (R108, R109). -/
def doAfGateCommit (r p : Nat) (s : State) : State :=
  portReg s r p (fun s =>
    let g := shadowList (s.port p)
    match gateFault 4 32 g with
    | some (e, hb) => s.modPort p (fun a => { a with gateStatus := 0x06, gateBadEntry := e, gateHeaderBad := hb })
    | none => s.modPort p (fun a => { a with gateStatus := 0, gateBadEntry := 0, gateHeaderBad := false, gatePend := some { g with change := max g.change (ptp s) } }))

def execAfGateCommit (fn port : Nat) (s : State) : Host.Outcome State Fault Refusal :=
  .next (gated fn (.afGateCommit fn port) (doAfGateCommit fn port) s)

/-- A write of AF_VC_CREDITS (R87, R88). -/
def doVcCredits (r p v : Nat) (s : State) : State :=
  portReg s r p (fun s =>
    let u := [fld v 0 8, fld v 8 8, fld v 16 8, fld v 24 8]
    if u.any (· < 4) ∨ 128 < u.foldl (· + ·) 0 then s.modPort p (fun a => { a with badCredit := true })
    else s.modPort p (fun a => { a with vcCredits := v }))

def execVcCreditsWrite (fn port : Nat) (units : BitVec 32) (s : State) : Host.Outcome State Fault Refusal :=
  .next (gated fn (.vcCreditsWrite fn port units) (doVcCredits fn port units.toNat) s)

/-- AP_ALERT_N of a port changes; it is sampled only while the APT tile is ON (R114, R529). -/
def doAlert (p : Nat) (low : Bool) (s : State) : State :=
  if 8 ≤ p ∨ domOn s (aptTile p) = false then s
  else
    let s1 := s.modPort p (fun a => { a with alert := low })
    if low && !(s.port p).alert then postPort s1 p 0x1006 0 else s1

def execAccelAlert (port : Nat) (low : Bool) (s : State) : Host.Outcome State Fault Refusal := .next (doAlert port low s)

/-! ### Egress (R92, R93, R106, R107, R110) -/

/-- Credits the port holds for a channel, in flits (R87). -/
def creditsHeld (a : APort) (v : Nat) : Nat :=
  let adv := 8 * fld a.peerCredits (8 * v) 8
  adv - (lget a.txUsed v 0 - lget a.peerFreed v 0)

/-- A class stays open for `need` tenths of a ns from now on, under the list in effect and, from its start on, under a list
that is pending; with no list in effect every class is open (R108 to R110). -/
def staysOpen (oper pend : Option GateList) (c now need : Nat) : Bool :=
  let left (g : Option GateList) (t : Nat) : Option Nat := g.bind (fun g => openLeft g c t)
  let lasts (o : Option Nat) (need : Nat) : Bool := match o with | none => true | some n => decide (need ≤ 10 * n)
  match pend with
  | none => lasts (left oper now) need
  | some g =>
    let at_ := gateStart g g.change
    if need ≤ 10 * (at_ - now) then lasts (left oper now) need
    else lasts (left oper now) (10 * (at_ - now)) && lasts (left pend at_) (need - 10 * (at_ - now))

/-- Line-rate time of flits in tenths of a ns, rounded up: 0.64 ns each at width 16 and 1.28 ns at width 8 (R90). -/
def lineTime (a : APort) (flits : Nat) : Nat := ((if a.width = 3 then 64 else 128) * flits + 9) / 10

/-- The gates let a transaction of a class start now (R110). -/
def gateOk (s : State) (a : APort) (e : Egress) : Bool :=
  !a.gatesOn || staysOpen a.gateOper a.gatePend e.cls (ptp s) (lineTime a (flitsOf e.txn))

/-- All slots of a transaction are in the egress buffer. -/
def whole (e : Egress) : Bool := e.txn.op == 0x20 || e.txn.data.length == e.txn.length

/-- Header slot of a transaction (Table 3-5). -/
def headerSlot (t : Txn) : List Byte :=
  natLE 16 (t.op + t.length % 512 * 2 ^ 16 + t.port % 8 * 2 ^ 25 + t.tag % 2 ^ 16 * 2 ^ 32
    + (if t.op = 0x30 then t.status % 256 else t.addr % 2 ^ 64) * 2 ^ 64)

/-- All slots of a transaction, the last payload slot filled with zeros (R82). -/
def txnSlots (t : Txn) : List Byte :=
  headerSlot t ++ t.data ++ List.replicate (16 * ((t.data.length + 15) / 16) - t.data.length) 0#8

/-- Slots that have crossed into the egress buffer: the header and whole payload slots. -/
def slotsIn (e : Egress) : Nat := if whole e then slotsOf e.txn else 1 + e.txn.data.length / 16

/-- Flits that the slots of an entry fill now: full ones, and the last one of the transaction (R82). -/
def flitsReady (e : Egress) : Nat := if whole e then (slotsIn e - e.sent + 14) / 15 else (slotsIn e - e.sent) / 15

/-- An earlier entry that a later one may not pass (R93): of one source port a transaction of the same channel, or a WRITE
before a request; the Limori's own keep their order within a class and channel. -/
def mustFollow (e later : Egress) : Bool :=
  e.src == later.src && (e.src != 8 || e.cls == later.cls) && (e.vc == later.vc || (e.txn.op == 0x10 && isRequest later.txn))

/-- DATA flits that the port may send on a channel: its credits, within 512 not acknowledged (R85, R87). -/
def flitsAllowed (a : APort) (v : Nat) : Nat := min (creditsHeld a v) (512 - a.unacked.length)

/-- Flits of an entry that can leave now: under gates, or once a store-and-forward one is whole, all of them where the
conditions of R110 hold; else those that have crossed (R92, R110). No other transaction of a channel interrupts one that
has begun (R82). -/
def canLeave (s : State) (a : APort) (before : List Egress) (e : Egress) : Nat :=
  if before.any (fun b => mustFollow b e) || (e.sent == 0 && a.egress.any (fun b => b.vc == e.vc && b.sent != 0)) then 0
  else if a.gatesOn then
    (if (e.sent != 0 || (whole e && decide (flitsOf e.txn ≤ flitsAllowed a e.vc) && gateOk s a e)) then min (flitsReady e) (flitsAllowed a e.vc) else 0)
  else if e.sf && !whole e then 0
  else min (flitsReady e) (flitsAllowed a e.vc)

/-- Index of the first entry of a class that can leave. -/
def firstReady (s : State) (a : APort) (c : Nat) : Option Nat :=
  (List.range a.egress.length).find? (fun i =>
    match a.egress[i]? with
    | none => false
    | some e => e.cls == c && canLeave s a (a.egress.take i) e != 0)

/-- Deficit round robin over the classes that have a transaction ready (R107): each has its weight once a round and is served
while the deficit lasts. Answers the entry chosen, the deficits, and the round position with whether its class has had its
weight. -/
def drr (s : State) (a : APort) : Nat → List Nat → Nat → Bool → Option (Nat × List Nat × Nat)
  | 0, _, _, _ => none
  | fuel + 1, d, pos, granted =>
    match firstReady s a pos with
    | none => drr s a fuel (d.set pos 0) ((pos + 1) % 4) false
    | some i =>
      let need := canLeave s a (a.egress.take i) (lget a.egress i {})
      let d' := if granted then d else d.set pos (lget d pos 0 + fld a.classWeight (8 * pos) 8)
      if need ≤ lget d' pos 0 then some (i, d'.set pos (lget d' pos 0 - need), pos) else drr s a fuel d' ((pos + 1) % 4) false

/-- DATA flits that carry slots of a transaction, each sent and kept for replay (R82, R85); the rest of its last flit is PAD. -/
def sendData (p vc : Nat) : Nat → Bool → List Byte → State → State
  | 0, _, _, s => s
  | fuel + 1, first, bs, s =>
    if bs.isEmpty then s
    else
      let a := s.port p
      let hdr := if first then 0 else if bs.length < 240 then bs.length / 16 else 15
      let s1 := sendFlit s p (mkFlit a 1 vc a.txSeq hdr (bs.take 240))
      sendData p vc fuel false (bs.drop 240) (s1.modPort p (fun a => { a with txSeq := (a.txSeq + 1) % 4096, unacked := a.unacked ++ [{ seq := a.txSeq, vc := vc, hdr := hdr, slots := bs.take 240 }], txUsed := a.txUsed.set vc (lget a.txUsed vc 0 + 1) }))

/-- A transaction's payload passes tap AP_TX, and a block push tap PUSH; entries of a block table are 4 bytes long and
no block data is (Table 18-1). -/
def apTx (s : State) (p : Nat) (e : Egress) : State :=
  if e.txn.data.isEmpty then s
  else
    let s1 := tapUnit (addTotal s 3 p 1 e.txn.data.length) { tap := 2, sel := p, vc := e.cls } e.txn.data
    match e.eng with
    | .push _ _ => if 4 < e.txn.data.length then tapUnit s1 { tap := 6, sel := p, vc := e.cls } e.txn.data else s1
    | _ => s1

/-- A READ of an engine that has left asks for its next bytes. -/
def readOn (s : State) (p : Nat) (e : Egress) : State :=
  match e.eng with
  | .read left =>
    if left = 0 then s
    else
      let a := e.txn.addr + e.txn.length
      pushEngine s p { e with sent := 0, eng := .read (left - readPiece a left), txn := { e.txn with addr := a, length := readPiece a left } }
  | _ => s

/-- A transaction of a port's own READs carries the next tag of the Limori (DESIGN CHOICE, log 41). -/
def tagged (a : APort) (e : Egress) : Txn := match e.eng with | .read _ => { e.txn with tag := a.engTag } | _ => e.txn

/-- Transactions leave the egress, or the flits of one that have crossed (R92, R107, R110). -/
def doEgressDepart (p : Nat) (s : State) : State :=
  let a := s.port p
  if a.st ≠ .active then s
  else match drr s a 4100 a.deficit a.rrPos a.rrGranted with
    | none => s
    | some (i, d, pos) =>
      let e := lget a.egress i {}
      let n := canLeave s a (a.egress.take i) e
      let k := min (15 * n) (slotsIn e - e.sent)
      let bs := ((txnSlots (tagged a e)).drop (16 * e.sent)).take (16 * k)
      let done := decide (slotsOf e.txn ≤ e.sent + k)
      let s1 := s.modPort p (fun a => { a with deficit := d, rrPos := pos, rrGranted := true
                                               engTag := match e.eng with | .read _ => (a.engTag + 1) % 2 ^ 16 | _ => a.engTag
                                               egress := if done then a.egress.eraseIdx i else a.egress.set i { e with sent := e.sent + k } })
      let s2 := sendData p e.vc n (e.sent == 0) bs s1
      if !done then s2
      else
        let s3 := retryIngress (fillEgress (readOn (apTx s2 p e) p e) p)
        checkDrained s3 (if e.src = 8 then p else e.src)

/-! ### A port goes DOWN or to SHUT (R96) -/

/-- A transaction of a port that has gone while its slots were arriving: one of which nothing has left is dropped and counted;
the rest of one that has begun to leave is undefined (DESIGN CHOICE, log 41). -/
def cutOff (p : Nat) (s : State) : State :=
  let cut (e : Egress) : Bool := e.src == p && !whole e
  let n := (List.range 8).foldl (fun n q => n + ((s.port q).egress.filter (fun e => cut e && e.sent == 0)).length) 0
  let fill (e : Egress) : Egress :=
    if cut e then { e with txn := { e.txn with data := (e.txn.data ++ natLE 64 (Config.freeBlock s.freeCtr).toNat ++ natLE 64 (Config.freeBlock (s.freeCtr + 1)).toNat
      ++ natLE 64 (Config.freeBlock (s.freeCtr + 2)).toNat ++ natLE 64 (Config.freeBlock (s.freeCtr + 3)).toNat).take e.txn.length } } else e
  let s1 := (List.range 8).foldl (fun s q => s.modPort q (fun a => { a with egress := (a.egress.filter (fun e => !(cut e && e.sent == 0))).map fill })) s
  { s1 with freeCtr := s.freeCtr + 4 }.modPort p (fun a => { a with drop := satAdd 32 a.drop n, ingress := a.ingress.filter (fun w => w.txn.op == 0x20 || w.txn.data.length == w.txn.length) })

/-- Consequences inside the switch: tracked requests are answered 0x0B, what waits in the egress is dropped and each
WRITE, CPL and RESULT counted (R96). Engine work is ended by the engines' own chapters. -/
def switchDown (s : State) (p : Nat) : State :=
  let a := s.port p
  let gone := ((outgoing a).filter (fun e => !isRequest e.txn)).length
  let s1 := (cvAbortPort (cutOff p s) p).modPort p (fun a => { a with egress := [], engq := [], tracked := [], deficit := [0, 0, 0, 0], rrGranted := false, streams := [], drop := satAdd 32 a.drop gone, widenPending := false, widenAt := none, replayAsked := false })
  let s2 := a.tracked.foldl (fun s t => engineCpl s t.src t.tag 0x0B p) s1
  (List.range 8).foldl checkDrained (retryIngress s2)

def enterDown (s : State) (p : Nat) : State :=
  postPort (switchDown (s.modPort p (fun a => { a with st := .down, since := s.vcycle, width := 0 })) p) p 0x1002 0

def enterShut (s : State) (p : Nat) : State :=
  switchDown (s.modPort p (fun a => { a with st := .shut, since := s.vcycle, width := 0, shutterOpen := false, half := none })) p

end Sys2Proof.Machine
end

