-- ==== Sys2Proof/Machine/Num.lean ====
section
/-!
DEFINITION. The arithmetic of chapter 4: formats, decoding to exact values, the exact accumulator, the ranked binary32
fold, and rounding to every output format (R120 to R136). The re-encoders of chapter 7 use it too.
-/
namespace Sys2Proof.Machine

/-- A floating-point element format: mantissa bits, exponent bits, exponent of the least subnormal. -/
structure FpFmt where
  mb : Nat
  eb : Nat
  qmin : Int
deriving DecidableEq, Repr

def fp32 : FpFmt := { mb := 23, eb := 8, qmin := -149 }
def bf16 : FpFmt := { mb := 7, eb := 8, qmin := -133 }
def fp16 : FpFmt := { mb := 10, eb := 5, qmin := -24 }
def e4m3 : FpFmt := { mb := 3, eb := 4, qmin := -9 }
def e5m2 : FpFmt := { mb := 2, eb := 5, qmin := -16 }
def e3m2 : FpFmt := { mb := 2, eb := 3, qmin := -4 }
def e2m3 : FpFmt := { mb := 3, eb := 2, qmin := -3 }
def e2m1 : FpFmt := { mb := 1, eb := 2, qmin := -1 }

/-- Element format of a format code that is floating point (Table 4-1); MXINT8 and the integers have none. -/
def elemFmt (code : Nat) : Option FpFmt :=
  match code with
  | 0x0 => some fp32
  | 0x1 => some bf16
  | 0x2 => some fp16
  | 0x3 => some e4m3
  | 0x4 => some e5m2
  | 0x5 => some e4m3
  | 0x6 => some e5m2
  | 0x7 => some e3m2
  | 0x8 => some e2m3
  | 0x9 => some e2m1
  | _ => none

def isMx (code : Nat) : Bool := 0x5 ≤ code && code ≤ 0xA
def isInt (code : Nat) : Bool := code == 0xB || code == 0xC
def isAccx (code : Nat) : Bool := code == 0xD

/-- Element bits (Table 4-1). -/
def elemBits (code : Nat) : Nat :=
  match code with
  | 0x0 => 32 | 0x1 => 16 | 0x2 => 16 | 0x3 => 8 | 0x4 => 8 | 0x5 => 8 | 0x6 => 8 | 0x7 => 6 | 0x8 => 6 | 0x9 => 4
  | 0xA => 8 | 0xB => 8 | 0xC => 32 | 0xD => 384 | _ => 0

/-- Bytes per 32 elements, scales apart (Table 4-1). -/
def groupBytes (code : Nat) : Nat := elemBits code * 4

/-- Most groups of 32 elements one CONTRIB or RESULT carries (Table 4-1). -/
def maxGroups (code : Nat) : Nat :=
  match code with
  | 0x0 => 2 | 0x1 => 4 | 0x2 => 4 | 0x3 => 8 | 0x4 => 8 | 0x5 => 7 | 0x6 => 7 | 0x7 => 10 | 0x8 => 10 | 0x9 => 15
  | 0xA => 7 | 0xB => 8 | 0xC => 2 | _ => 0

/-- emax of an MX format (Table 4-1). -/
def emaxOf (code : Nat) : Int :=
  match code with
  | 0x5 => 8 | 0x6 => 15 | 0x7 => 4 | 0x8 => 2 | 0x9 => 2 | _ => 0

/-- m × 2^q as an integer multiple of 2^−149. -/
def toA (m : Int) (q : Int) : Int := if 0 ≤ q + 149 then m * 2 ^ (q + 149).toNat else m / 2 ^ (-(q + 149)).toNat

/-- A floating-point element without its special encodings: sign and m × 2^q. -/
def fpParts (f : FpFmt) (x : Nat) : Bool × Nat × Int :=
  let mant := fld x 0 f.mb
  let e := fld x f.mb f.eb
  (bitAt x (f.mb + f.eb), if e = 0 then mant else 2 ^ f.mb + mant, f.qmin + (if e = 0 then (0 : Int) else (e : Int) - 1))

/-- Special encodings of a format (Table 4-1): `some` for NaN and infinities. -/
def fpSpecial (code x : Nat) : Option FV :=
  match elemFmt code with
  | none => none
  | some f =>
    let mant := fld x 0 f.mb
    let e := fld x f.mb f.eb
    let neg := bitAt x (f.mb + f.eb)
    let allOnes := e == 2 ^ f.eb - 1
    if code = 0x3 ∨ code = 0x5 then (if allOnes && mant == 7 then some .nan else none)
    else if code = 0x0 ∨ code = 0x1 ∨ code = 0x2 ∨ code = 0x4 ∨ code = 0x6 then
      if allOnes then (if mant = 0 then some (.inf neg) else some .nan) else none
    else none

/-- Value of one element of a format, times 2^sc (R121, R123). -/
def decodeElem (code x : Nat) (sc : Int) : FV :=
  match fpSpecial code x with
  | some v => v
  | none =>
    match elemFmt code with
    | some f =>
      let p := fpParts f x
      if p.2.1 = 0 then .fin 0 p.1
      else .fin ((if p.1 then -1 else 1) * toA p.2.1 (p.2.2 + sc)) false
    | none =>
      if code = 0xA then .fin (toA (sxt 8 x) (-6 + sc)) false
      else .fin (toA (sxt (elemBits code) x) 0) false

/-- The 32 values of one group: element bits read as one little-endian field, under its scale byte (R121 to R123). -/
def decodeGroup (code : Nat) (bytes : List Byte) (scale : Nat) : List FV :=
  let v := leNat bytes
  let w := elemBits code
  (List.range 32).map (fun i =>
    if isMx code && scale == 0xFF then .nan
    else decodeElem code (fld v (w * i) w) (if isMx code then (scale : Int) - 127 else 0))

/-! ### Exact mode (R126, R129, R136) -/

/-- −Inf, negative, −0, +0, positive, +Inf (R136): rank of a value for MAX and MIN. -/
def fvKey : FV → Int × Int × Int
  | .nan => (0, 0, 0)
  | .inf true => (-1, 0, 0)
  | .inf false => (1, 0, 0)
  | .fin a nz => (0, a, if a = 0 ∧ nz then 0 else 1)

def fvLt (x y : FV) : Bool :=
  let a := fvKey x
  let b := fvKey y
  decide (a.1 < b.1) || (a.1 == b.1 && (decide (a.2.1 < b.2.1) || (a.2.1 == b.2.1 && decide (a.2.2 < b.2.2))))

/-- A as the 320-bit two's complement integer that it is (R125). -/
def wrap320 (a : Int) : Int := sxt 320 (a % 2 ^ 320).toNat

/-- One contribution into the exact accumulator, op 0 SUM, 1 MAX, 2 MIN. -/
def accAdd (op : Nat) (c : Acc) (x : FV) : Acc :=
  let isNegZero := match x with
    | .fin a nz => a == 0 && nz
    | _ => false
  let c1 := { c with count := c.count + 1, negz := c.negz && isNegZero }
  let pick (b : FV) : FV := if op = 1 then (if fvLt b x then x else b) else (if fvLt x b then x else b)
  let c2 := { c1 with best := match x, c1.best with
    | .nan, b => b
    | x, none => some x
    | _, some b => some (pick b) }
  match x with
  | .nan => { c2 with nan := true }
  | .inf false => { c2 with pinf := true }
  | .inf true => { c2 with ninf := true }
  | .fin a _ => { c2 with a := wrap320 (c2.a + a) }

/-- An ACCX element: its accumulator, or none when a reserved field is not zero (R126, R127). -/
def accxOf (bytes : List Byte) : Option Acc :=
  let v := leNat bytes
  if fld v 324 4 ≠ 0 ∨ fld v 352 32 ≠ 0 then none
  else some { a := sxt 320 (fld v 0 320), nan := bitAt v 320, pinf := bitAt v 321, ninf := bitAt v 322, negz := bitAt v 323,
              count := fld v 328 24 }

def accMerge (c x : Acc) : Acc :=
  { c with a := wrap320 (c.a + x.a), nan := c.nan || x.nan, pinf := c.pinf || x.pinf, ninf := c.ninf || x.ninf,
           negz := c.negz && x.negz, count := c.count + x.count }

/-- An accumulator as an ACCX element of 48 bytes (Table 4-2). -/
def accxBytes (c : Acc) : List Byte :=
  natLE 48 ((c.a % 2 ^ 320).toNat + b2n c.nan * 2 ^ 320 + b2n c.pinf * 2 ^ 321 + b2n c.ninf * 2 ^ 322 + b2n c.negz * 2 ^ 323
    + c.count % 2 ^ 24 * 2 ^ 328)

/-- The exact value of an element whose contributions are complete (R129, R136). -/
def accValue (op : Nat) (c : Acc) : FV :=
  if op = 0 then
    if c.nan || (c.pinf && c.ninf) then .nan
    else if c.pinf then .inf false
    else if c.ninf then .inf true
    else if c.a ≠ 0 then .fin c.a false
    else .fin 0 (c.negz && decide (1 ≤ c.count))
  else if c.nan then .nan else c.best.getD (.fin 0 false)

/-! ### Rounding (R132) -/

/-- `n` / 2^sh rounded to nearest, ties to even. -/
def rne (n sh : Nat) : Nat :=
  let q := n / 2 ^ sh
  let r := n % 2 ^ sh
  let half := 2 ^ sh / 2
  if sh = 0 then n
  else if r < half then q else if half < r then q + 1 else if q % 2 = 1 then q + 1 else q

/-- Magnitude n × 2^u rounded to a format's significand with its subnormals, exponent unbounded above: m × 2^q with m at
most 2^(mb+1) (R132). -/
def roundFp (f : FpFmt) (n : Nat) (u : Int) : Nat × Int :=
  if n = 0 then (0, f.qmin)
  else
    let q := max (((Nat.log2 n : Int) + u) - f.mb) f.qmin
    if q ≤ u then (n * 2 ^ (u - q).toNat, q)
    else
      let m := rne n (q - u).toNat
      if m = 2 ^ (f.mb + 1) then (2 ^ f.mb, q + 1) else (m, q)

/-- Bits of m × 2^q in a format, without sign. -/
def packFp (f : FpFmt) (m : Nat) (q : Int) : Nat :=
  if m < 2 ^ f.mb then m else (q - f.qmin + 1).toNat * 2 ^ f.mb + (m - 2 ^ f.mb)

/-- Largest finite element of a format as m × 2^q. -/
def largest (code : Nat) : Nat × Int :=
  match code with
  | 0x0 => (2 ^ 24 - 1, 104)
  | 0x1 => (2 ^ 8 - 1, 120)
  | 0x2 => (2047, 5)
  | 0x3 => (14, 5)
  | 0x4 => (7, 13)
  | 0x5 => (14, 5)
  | 0x6 => (7, 13)
  | 0x7 => (7, 2)
  | 0x8 => (15, -1)
  | 0x9 => (3, 1)
  | _ => (0, 0)

/-- m × 2^q exceeds m' × 2^q'. -/
def fpGt (m : Nat) (q : Int) (m' : Nat) (q' : Int) : Bool :=
  let d := min q q'
  decide (m' * 2 ^ (q' - d).toNat < m * 2 ^ (q - d).toNat)

def signBit (f : FpFmt) (neg : Bool) : Nat := if neg then 2 ^ (f.mb + f.eb) else 0

/-- Canonical NaN of a scalar format (Table 4-3). -/
def nanBits (code : Nat) : Nat :=
  match code with
  | 0x0 => 0x7FC00000 | 0x1 => 0x7FC0 | 0x2 => 0x7E00 | 0x3 => 0x7F | _ => 0x7E

/-- Infinity of a scalar format that has one. -/
def infBits (f : FpFmt) : Nat := (2 ^ f.eb - 1) * 2 ^ f.mb

/-- A value in a scalar floating-point format: its bits, and whether it was saturated (R132, R133). -/
def encodeFp (code : Nat) (sat : Bool) (v : FV) : Nat × Bool :=
  match elemFmt code with
  | none => (0, false)
  | some f =>
    let big := packFp f (largest code).1 (largest code).2
    match v with
    | .nan => (nanBits code, false)
    | .inf neg =>
      if code = 0x3 then (if sat then (signBit f neg + big, true) else (nanBits code, false))
      else (signBit f neg + infBits f, false)
    | .fin a nz =>
      let neg := decide (a < 0) || (a == 0 && nz)
      let r := roundFp f a.natAbs (-149)
      if fpGt r.1 r.2 (largest code).1 (largest code).2 then
        if sat then (signBit f neg + big, true)
        else if code = 0x3 then (nanBits code, true)
        else (signBit f neg + infBits f, true)
      else (signBit f neg + packFp f r.1 r.2, false)

/-- An exact value clamped to a two's complement integer of `w` bits (R134). -/
def encodeInt (w : Nat) (v : FV) : Nat × Bool :=
  match v with
  | .fin a _ =>
    let n := a / 2 ^ 149
    let lo : Int := -(2 ^ (w - 1))
    let hi : Int := 2 ^ (w - 1) - 1
    let c := max lo (min hi n)
    ((c % 2 ^ w).toNat, c != n)
  | _ => (0, false)

/-- One MX element of magnitude |a| × 2^(−149−e), rounded and clamped (R135 step 5). The largest MXINT8 element of negative
sign, for −Inf under sat, is taken as −128, to which step 5 clamps, where Table 4-1 has 127/64 as the largest element (DESIGN
CHOICE, log 42). -/
def encodeMxElem (code : Nat) (e : Int) (v : FV) : Nat × Bool :=
  match v with
  | .nan => (0, false)
  | .inf neg =>
    (match elemFmt code with
      | some f => signBit f neg + packFp f (largest code).1 (largest code).2
      | none => if neg then 0x80 else 0x7F, true)
  | .fin a nz =>
    match elemFmt code with
    | some f =>
      let neg := decide (a < 0) || (a == 0 && nz)
      let r := roundFp f a.natAbs (-149 - e)
      if fpGt r.1 r.2 (largest code).1 (largest code).2 then
        (signBit f neg + packFp f (largest code).1 (largest code).2, true)
      else (signBit f neg + packFp f r.1 r.2, false)
    | none =>
      -- MXINT8: multiples of 2^-6
      let sh := -149 - e + 6
      let m : Nat := if 0 ≤ sh then a.natAbs * 2 ^ sh.toNat else rne a.natAbs (-sh).toNat
      let n : Int := if a < 0 then -(m : Int) else m
      let c := max (-128) (min 127 n)
      ((c % 256).toNat, c != n)

/-- An MX block of 32 results (R135): scale byte, element bits, clamps; the flag of a saturated infinity is a clamp. A block
written as NaN by step 3 is no overflow of an element: it sets no saturated (DESIGN CHOICE, log 42). -/
def encodeMx (code : Nat) (sat : Bool) (vs : List FV) : Nat × List Nat × Nat :=
  let zeros := vs.map (fun _ => 0)
  let anyNan := vs.any (fun v => v == .nan)
  let anyInf := vs.any (fun v => match v with | .inf _ => true | _ => false)
  if anyNan || (anyInf && !sat) then (0xFF, zeros, 0)
  else
    let m := vs.foldl (fun n v => match v with | .fin a _ => max n a.natAbs | _ => n) 0
    let e0 : Int := if m = 0 then -127 else max (-127) ((Nat.log2 m : Int) - 149 - emaxOf code)
    if 127 < e0 && !sat then (0xFF, zeros, 0)
    else
      let e := min 127 e0
      let es := vs.map (encodeMxElem code e)
      ((e + 127).toNat, es.map (·.1), (es.filter (·.2)).length)

/-- Pack element bits of `w` bits each, little-endian. -/
def packBits (w : Nat) : List Nat → Nat
  | [] => 0
  | x :: r => x % 2 ^ w + 2 ^ w * packBits w r

/-- A group of 32 results in an output format: element bytes, scale byte where the format has one, and how many were
saturated or clamped. -/
def encodeGroup (code : Nat) (sat : Bool) (vs : List FV) : List Byte × List Byte × Nat :=
  if isMx code then
    let r := encodeMx code sat vs
    (natLE (groupBytes code) (packBits (elemBits code) r.2.1), [BitVec.ofNat 8 r.1], r.2.2)
  else
    let es := vs.map (fun v => if isInt code then encodeInt (elemBits code) v else encodeFp code sat v)
    (natLE (groupBytes code) (packBits (elemBits code) (es.map (·.1))), [], (es.filter (·.2)).length)

/-! ### Ranked mode (R130, R131) -/

/-- Conversion to binary32: exact, but a magnitude of 2^128 or more is an infinity (R130). -/
def toFp32 (v : FV) : FV :=
  match v with
  | .fin a nz => if 2 ^ 277 ≤ a.natAbs then .inf (decide (a < 0)) else .fin a nz
  | v => v

/-- Binary32 addition, nearest with ties to even, subnormals kept (R131). -/
def fp32Add (x y : FV) : FV :=
  match x, y with
  | .nan, _ => .nan
  | _, .nan => .nan
  | .inf a, .inf b => if a = b then .inf a else .nan
  | .inf a, _ => .inf a
  | _, .inf b => .inf b
  | .fin a na, .fin b nb =>
    let sum := a + b
    if sum = 0 then .fin 0 (decide (a = 0) && decide (b = 0) && na && nb)
    else
      let r := roundFp fp32 sum.natAbs (-149)
      if fpGt r.1 r.2 (largest 0).1 (largest 0).2 then .inf (decide (sum < 0))
      else .fin ((if sum < 0 then -1 else 1) * toA r.1 r.2) false

end Sys2Proof.Machine
end

