-- ==== Sys2Proof/Machine/Reduce.lean ====
section
/-!
DEFINITION. Reduce tiles (04): contexts, contributions from ports and memory, chunks and their results, steps and their
completions, admission, failures.
-/
namespace Sys2Proof.Machine

def State.modRed (s : State) (f : Reduce → Reduce) : State := { s with red := f s.red }
def State.modCtx (s : State) (h : Nat) (f : Ctx → Ctx) : State := s.modRed (fun r => { r with ctxs := omod r.ctxs h f })
def State.sumTile (s : State) (t : Nat) : SumTile := mget s.red.tiles t {}
def State.modSum (s : State) (t : Nat) (f : SumTile → SumTile) : State :=
  s.modRed (fun r => { r with tiles := mset r.tiles t (f (s.sumTile t)) {} })

/-! ### Fields of an OPEN step (Table 4-9) -/

def oMode (d : Nat) : Bool := bitAt d 9
def oOp (d : Nat) : Nat := fld d 10 2
def oSat (d : Nat) : Bool := bitAt d 14
def oOwner (d : Nat) : Nat := pf1Of (fld d 15 1)
def oIn (d : Nat) : Nat := fld d 16 4
def oOut (d : Nat) : Nat := fld d 20 4
def oElements (d : Nat) : Nat := fld d 64 32
def oChunkLog2 (d : Nat) : Nat := fld d 96 5
def oWindow (d : Nat) : Nat := fld d 104 5
def oTiles (d : Nat) : Nat := fld d 112 4
def oMemMask (d : Nat) : Nat := fld d 128 64
def oRanks (d : Nat) : Nat := fld d 192 7
def oPorts (d : Nat) : Nat := fld d 200 8
def oRankBuf (d : Nat) : Nat := fld d 208 14
def oSpillMib (d : Nat) : Nat := fld d 224 16
def oSpillBase (d : Nat) : Nat := fld d 256 64
def oResult (d : Nat) : Nat := fld d 320 64
def oResultScale (d : Nat) : Nat := fld d 384 64

/-- The binary32 fold is used: ranked mode, SUM, floating-point or MX input (R131, R154). -/
def ranksFold (d : Nat) : Bool := oMode d && oOp d == 0 && !isInt (oIn d)

/-- Accumulator slots a claim needs per tile (R154). -/
def slotsNeed (d : Nat) : Nat :=
  let n := oWindow d * 2 ^ oChunkLog2 d
  if ranksFold d then n / 4 else n

/-- A format combination OPEN takes (R124). -/
def formatsOk (d : Nat) : Bool :=
  let i := oIn d
  let o := oOut d
  let exactSum := !oMode d && oOp d == 0
  decide (i < 0xE) && decide (o < 0xE) && (isInt i == isInt o)
  && (!isAccx i || (exactSum && oMemMask d == 2 ^ oRanks d - 1))
  && (!isAccx o || (exactSum && oPorts d == 0))

/-- Every field of OPEN lies in its range (R144, R146, R147). -/
def openOk (d : Nat) : Bool :=
  let die := fld d 12 2
  let el := oElements d
  fld d 24 8 == 0 && fld d 101 3 == 0 && fld d 109 3 == 0 && fld d 116 12 == 0 && bitAt d 199 == false && fld d 222 2 == 0
  && fld d 240 16 == 0 && fld d 448 64 == 0
  && oOp d != 3 && die != 3
  && decide (32 ≤ el) && el % 32 == 0
  && decide (10 ≤ oChunkLog2 d) && decide (oChunkLog2 d ≤ 16)
  && decide (1 ≤ oWindow d) && decide (oWindow d ≤ 16)
  && decide (1 ≤ oTiles d) && decide (oTiles d ≤ (if die = 0 then 12 else 6))
  && decide (1 ≤ oRanks d) && decide (oRanks d ≤ 64)
  && decide (oMemMask d < 2 ^ oRanks d)
  && (oPorts d != 0 || oResult d != 0)
  && (if oMode d && decide (2 ≤ oRanks d) then decide (64 ≤ oRankBuf d) && decide (oRankBuf d ≤ 8192) else oRankBuf d == 0)
  && oSpillBase d % 4096 == 0
  && (oSpillMib d == 0 || decide (oSpillBase d + oSpillMib d * 2 ^ 20 ≤ 2 ^ 39))
  && fld d 382 2 != 3 && oResult d % 64 == 0 && fld d 446 2 != 3
  && !(isMx (oOut d) && oResult d != 0 && oResultScale d == 0)
  && formatsOk d

/-! ### Step completions (R151, R190) -/

/-- A step completes: its entry joins the posting core's step completion queue. -/
def stepDone (s : State) (core tag status opcode result : Nat) : State :=
  s.modCore core (fun c => { c with scq := c.scq ++ [(tag % 2 ^ 32 + status % 256 * 2 ^ 32 + opcode % 256 * 2 ^ 40, result % 2 ^ 64)] })

/-! ### Tiles and admission (R154 to R158) -/

/-- Power domain of SUM tile t (Table 6-3). -/
def sumDom (t : Nat) : Nat := if t < 6 then 16 + t else 42 + 16 + (t - 6)
def sumAvailable (s : State) (t : Nat) : Bool := inService s (sumDom t)
def ctxsOn (s : State) (t : Nat) : List (Nat × Ctx) := s.red.ctxs.filter (fun p => p.2.tiles.contains t)
def slotsFree (s : State) (t : Nat) : Nat := 262144 - (ctxsOn s t).foldl (fun n p => n + slotsNeed p.2.desc) 0
def rankBufFree (s : State) (t : Nat) : Nat := 8192 - (ctxsOn s t).foldl (fun n p => n + oRankBuf p.2.desc) 0

/-- A tile qualifies for a claim (R154, R156, R157). -/
def tileFits (s : State) (d t : Nat) : Bool :=
  let die := fld d 12 2
  sumAvailable s t && (die == 0 || (die == 1 && decide (t < 6)) || (die == 2 && decide (6 ≤ t)))
  && decide ((ctxsOn s t).length < 16) && decide (slotsNeed d ≤ slotsFree s t) && decide (oRankBuf d ≤ rankBufFree s t)

/-- The k tiles a grant takes, from tile_ptr upward, and the handle; none when the claim does not fit (R116, R156). -/
def claimFits (s : State) (d : Nat) : Option (List Nat × Nat) :=
  let order := (List.range 12).map (fun i => (s.red.tilePtr + i) % 12)
  let ts := (order.filter (tileFits s d)).take (oTiles d)
  if ts.length < oTiles d then none
  else (lowestFree s.red.ctxs 0 4096).map (fun h => (ts, h))

def insertSorted (x : Nat) : List Nat → List Nat
  | [] => [x]
  | y :: r => if x ≤ y then x :: y :: r else y :: insertSorted x r
def sortNat (l : List Nat) : List Nat := l.foldr insertSorted []

/-- A claim is granted: its handle is assigned, its context opens, and its OPEN completes (R116, R151, R155, R156). -/
def grant (s : State) (c : Claim) (ts : List Nat) (h : Nat) : State :=
  let hg := (mget s.red.hgens h 0 + 1) % 16
  let tiles := sortNat ts
  let s1 := s.modRed (fun r => { r with
    hgens := mset r.hgens h hg 0
    tilePtr := (lget ts (ts.length - 1) 0 + 1) % 12
    ptr := (c.core + 1) % 64
    cand := none
    ctxs := oput r.ctxs h { desc := c.desc, hgen := hg, tiles := tiles, core := c.core } })
  stepDone s1 c.core (fld c.desc 32 32) 0 0x01 (h + hg * 2 ^ 12 + tiles.foldl (fun m t => m + 2 ^ t) 0 * 2 ^ 16)

/-- A core posts a step: it joins the steps that its die's front end has still to take up (R144, R189). -/
def postStep (s : State) (core : Nat) (w : BitVec 512) : State :=
  (s.modRed (fun r => { r with steps := r.steps ++ [(core, w)] })).modCore core (fun c => { c with stepsOut := c.stepsOut + 1 })

/-- The claimant that the admission unit looks at: the candidate while it claims, else the first one at or after the pointer
(R155, R68). -/
def pickCand (r : Reduce) : Option Nat :=
  let cores := r.claims.map (·.core)
  match r.cand with
  | some c => if cores.contains c then some c else rotPick 64 r.ptr cores
  | none => rotPick 64 r.ptr cores
def settleCand (s : State) : State := s.modRed (fun r => { r with cand := pickCand r })

/-- The oldest step that the front end of a core's die has not taken up (R144). -/
def frontStep (s : State) (core : Nat) : Option (Nat × BitVec 512) := s.red.steps.find? (fun p => p.1 / 32 == core / 32)
def takeStep (s : State) (core : Nat) : State := s.modRed (fun r => { r with steps := r.steps.eraseP (fun p => p.1 / 32 == core / 32) })

/-- The front end of a die takes up its oldest step, when it is the core's and its opcode the command's; a step of no
defined opcode completes with 0x06 whichever command takes it up (R144). -/
def frontEnd (s : State) (core op : Nat) (act : Nat → State → State) : State :=
  match frontStep s core with
  | none => s
  | some (c, w) =>
    let d := w.toNat
    let o := fld d 0 8
    if c ≠ core then s
    else if o < 1 ∨ 4 < o then stepDone (takeStep s core) core (fld d 32 32) 0x06 o 0
    else if o = op then act d (takeStep s core)
    else s

/-- OPEN (R147, R155): refused, granted in the cycle it is taken up, waiting, or 0x07. -/
def doOpen (core d : Nat) (s : State) : State :=
  let tag := fld d 32 32
  if !openOk d then stepDone s core tag 0x06 0x01 0
  else if 262144 < slotsNeed d then stepDone s core tag 0x07 0x01 0
  else
    let c : Claim := { core := core, desc := d }
    match s.red.claims.isEmpty, claimFits s d with
    | true, some (ts, h) => grant s c ts h
    | _, _ =>
      if bitAt d 8 then settleCand ((settleCand s).modRed (fun r => { r with claims := r.claims ++ [c] }))
      else stepDone s core tag 0x07 0x01 0

def execRdOpen (core : Nat) (s : State) : Host.Outcome State Fault Refusal := .next (frontEnd s core 0x01 (doOpen core))

/-- The admission unit's cycle: the candidate is granted when its oldest claim fits (R155). -/
def doAdmission (s : State) : State :=
  match pickCand s.red with
  | none => s
  | some c =>
    match s.red.claims.find? (fun k => k.core == c) with
    | none => s
    | some k =>
      match claimFits s k.desc with
      | none => s.modRed (fun r => { r with cand := some c })
      | some (ts, h) => grant (s.modRed (fun r => { r with claims := r.claims.erase k })) k ts h

def execAdmissionGrant (s : State) : Host.Outcome State Fault Refusal := .next (doAdmission s)

/-! ### Chunks (R117, R140) -/

def chunkOf (d e : Nat) : Nat := e / 2 ^ oChunkLog2 d
def chunkEnd (d c : Nat) : Nat := min ((c + 1) * 2 ^ oChunkLog2 d) (oElements d)
def nChunks (d : Nat) : Nat := (oElements d + 2 ^ oChunkLog2 d - 1) / 2 ^ oChunkLog2 d
/-- Tile of a chunk: the (c mod k)-th granted tile (R117). -/
def chunkTile (k : Ctx) (c : Nat) : Nat := lget k.tiles (c % k.tiles.length) 0
/-- A chunk is among the `window` lowest-numbered of its tile that are not yet free (R140, R142). -/
def chunkOpen (k : Ctx) (c : Nat) : Bool :=
  let n := k.tiles.length
  !k.freed.contains c && decide (c / n - (k.freed.filter (fun f => decide (f < c) && f % n == c % n)).length < oWindow k.desc)
def groupsOf (e n : Nat) : List Nat := (List.range (n / 32)).map (fun i => e / 32 + i)
def gotKey (rank g : Nat) : Nat := rank * 2 ^ 28 + g

/-! ### Ending and failing contexts (R149, R150, R161) -/

/-- A context's handle and reservations are released. -/
def releaseCtx (s : State) (h : Nat) : State := s.modRed (fun r => { r with ctxs := odel r.ctxs h })

/-- Every pending PULL of a context completes with a status. -/
def endPulls (s : State) (k : Ctx) (status : Nat) : State :=
  k.pulls.foldl (fun s p => stepDone s p.core p.tag status 0x02 0) s

/-- A context fails (R161, Table 4-10a). -/
def failCtx (s : State) (h status tile : Nat) : State :=
  match oget s.red.ctxs h with
  | none => s
  | some k =>
    if k.st = .failed then s
    else
      let s1 := endPulls (s.modSum tile (fun t => { t with fail := satAdd 32 t.fail 1 })) k status
      let s2 := postEventS s1 (oOwner k.desc) 0x1201 h status (k.hgen + tile * 2 ^ 8 + fld k.desc 32 32 * 2 ^ 32) 0
      match k.closer with
      | some (core, tag) => releaseCtx (stepDone s2 core tag status 0x03 0) h
      | none => s2.modCtx h (fun k => { k with st := .failed, failure := status, acc := [], fold := [], waits := [], pulls := [], emis := [] })

/-- RESULT copies of a context that have not left an egress. -/
def resultsQueued (s : State) (h hgen : Nat) : Bool :=
  s.ports.any (fun p => (outgoing p.2).any (fun e => e.eng == .result h hgen))

/-- A waiting CLOSE completes once every chunk is emitted, every write visible, and every copy gone (R149). Peak spill use in
KiB is rounded down (DESIGN CHOICE, log 42). -/
def checkClose (s : State) (h : Nat) : State :=
  match oget s.red.ctxs h with
  | none => s
  | some k =>
    match k.closer with
    | none => s
    | some (core, tag) =>
      if k.freed.length = nChunks k.desc ∧ resultsQueued s h k.hgen = false then
        let res := b2n k.nanOut + b2n k.infOut * 2 + b2n k.saturated * 4 + b2n k.spilled * 8 + k.missed * 16 + (k.peak * 256 / 1024) * 2 ^ 16
        releaseCtx (stepDone s core tag (if k.missed = 0 then 0 else 0x0B) 0x03 res) h
      else s

/-! ### Folding (R126, R131) -/

/-- Values of a group of a contribution, or none for a malformed ACCX element. -/
def foldExact (op e : Nat) : List FV → NMap Acc → NMap Acc
  | [], m => m
  | v :: r, m => foldExact op (e + 1) r (mset m e (accAdd op (mget m e {}) v) {})

def foldAccx (e : Nat) : List Acc → NMap Acc → NMap Acc
  | [], m => m
  | v :: r, m => foldAccx (e + 1) r (mset m e (accMerge (mget m e {}) v) {})

/-- Values per element of a contribution, in element order. -/
def contrValues (code : Nat) (c : Contr) : List FV :=
  (List.range (c.n / 32)).flatMap (fun g =>
    decodeGroup code (sliceB c.data (g * groupBytes code) (groupBytes code)) ((lget c.scales g 0#8).toNat))

/-- Fold one contribution's elements; `none` with the failure status where R127 or R128 fails the context. -/
def foldContr (k : Ctx) (c : Contr) : Ctx ⊕ Nat :=
  let d := k.desc
  if isAccx (oIn d) then
    let parts := (List.range c.n).map (fun i => accxOf (sliceB c.data (48 * i) 48))
    if parts.any Option.isNone then .inr 0x06
    else
      let m := foldAccx c.elem (parts.filterMap id) k.acc
      if (List.range c.n).any (fun i => decide (16777215 < (mget m (c.elem + i) {}).count)) then .inr 0x07
      else .inl { k with acc := m }
  else if ranksFold d then
    let vs := contrValues (oIn d) c
    let m := (List.range c.n).foldl (fun m i =>
      let x := toFp32 (lget vs i (.fin 0 false))
      let y := if c.rank = 0 then x else fp32Add (mget m (c.elem + i) (.fin 0 false)) x
      mset m (c.elem + i) y (.fin 0 false)) k.fold
    .inl { k with fold := m, next := (groupsOf c.elem c.n).foldl (fun m g => mset m g (mget m g 0 + 1) 0) k.next }
  else
    .inl { k with acc := foldExact (oOp d) c.elem (contrValues (oIn d) c) k.acc,
                  next := (groupsOf c.elem c.n).foldl (fun m g => mset m g (mget m g 0 + 1) 0) k.next }

/-- In ranked mode a contribution folds when every lower rank of its groups has (R141). -/
def foldable (k : Ctx) (c : Contr) : Bool :=
  !ranksFold k.desc || (groupsOf c.elem c.n).all (fun g => mget k.next g 0 == c.rank)

/-- A waiting contribution in the tile's rank buffer whose turn has come. -/
def nextWaiting (k : Ctx) : Option Contr :=
  k.waits.find? (fun c => c.cell.isNone && chunkOpen k (chunkOf k.desc c.elem) && foldable k c)

/-- Fold what waits in the rank buffer, as long as a turn has come (R141). -/
def cascade : Nat → Ctx → Ctx ⊕ Nat
  | 0, k => .inl k
  | fuel + 1, k =>
    match nextWaiting k with
    | none => .inl k
    | some c =>
      match foldContr { k with waits := k.waits.erase c } c with
      | .inr e => .inr e
      | .inl k' => cascade fuel k'

/-! ### Results (R142) -/

/-- Every rank has delivered and folded every group of the chunk. -/
def chunkComplete (k : Ctx) (c : Nat) : Bool :=
  let d := k.desc
  let e0 := c * 2 ^ oChunkLog2 d
  let gs := groupsOf e0 (chunkEnd d c - e0)
  gs.all (fun g => (List.range (oRanks d)).all (fun r => k.got.contains (gotKey r g)))
  && !k.waits.any (fun w => chunkOf d w.elem == c)

/-- Result of an element before rounding. -/
def elemValue (k : Ctx) (e : Nat) : FV :=
  if ranksFold k.desc then mget k.fold e (.fin 0 false) else accValue (oOp k.desc) (mget k.acc e {})

def isInfV : FV → Bool
  | .inf _ => true
  | _ => false

/-- Round a complete chunk and form its RESULT pieces and memory write (R132 to R135, R142). -/
def formChunk (k : Ctx) (c : Nat) : Ctx × Nat :=
  let d := k.desc
  let o := oOut d
  let e0 := c * 2 ^ oChunkLog2 d
  let n := chunkEnd d c - e0
  let vs := (List.range n).map (fun i => elemValue k (e0 + i))
  let groups := (List.range (n / 32)).map (fun g => encodeGroup o (oSat d) ((vs.drop (32 * g)).take 32))
  let data := if isAccx o then (List.range n).flatMap (fun i => accxBytes (mget k.acc (e0 + i) {})) else groups.flatMap (·.1)
  let scales := groups.flatMap (fun g => g.2.1)
  let sat := if isAccx o then 0 else groups.foldl (fun m g => m + g.2.2) 0
  let mg := maxGroups o
  let pieces := if oPorts d = 0 then [] else
    (List.range ((n / 32 + mg - 1) / mg)).map (fun i =>
      let gs := (groups.drop (mg * i)).take mg
      let sc := gs.flatMap (fun g => g.2.1)
      (e0 + 32 * mg * i,
        (if isMx o then sc ++ List.replicate (16 - sc.length) 0#8 else []) ++ gs.flatMap (·.1)))
  let em : Emission := { chunk := c, pieces := pieces, writeDue := oResult d != 0, data := data, scales := scales }
  let clear {A : Type} (m : NMap A) : NMap A := m.filter (fun p => decide (p.1 < e0) || decide (e0 + n ≤ p.1))
  ({ k with emis := k.emis ++ [em], acc := clear k.acc, fold := clear k.fold, saturated := k.saturated || sat != 0,
            nanOut := k.nanOut || vs.any (· == .nan), infOut := k.infOut || vs.any isInfV }, sat)

/-- Chunks that have become complete and are not yet being emitted. -/
def formAll (s : State) (h : Nat) : List Nat → State
  | [] => s
  | c :: rest =>
    match oget s.red.ctxs h with
    | none => s
    | some k =>
      if chunkOpen k c && !k.emis.any (fun e => e.chunk == c) && chunkComplete k c then
        let r := formChunk k c
        let s1 := (s.modCtx h (fun _ => r.1)).modSum (chunkTile k c) (fun t => { t with sat := satAdd 32 t.sat r.2 })
        formAll s1 h rest
      else formAll s h rest

/-- A contribution of a context is taken in at its tile: folded, or kept in the rank buffer until its turn (R139 to
R142). -/
def takeIn (s : State) (h : Nat) (k : Ctx) (c : Contr) : State :=
  let tile := chunkTile k (chunkOf k.desc c.elem)
  let k1 := { k with got := (groupsOf c.elem c.n).map (gotKey c.rank) ++ k.got }
  let r := if foldable k1 c then
      match foldContr k1 c with
      | .inl k2 => cascade (k2.waits.length + 1) k2
      | .inr e => .inr e
    else .inl { k1 with waits := k1.waits ++ [c] }
  match r with
  | .inr e => failCtx s h e tile
  | .inl k2 => formAll (s.modCtx h (fun _ => k2)) h [chunkOf k.desc c.elem]

/-! ### CONTRIB (R137 to R141) -/

/-- Elements a CONTRIB payload of a length holds in a format, or none for a length Table 4-1 does not allow. -/
def contribElems (code len : Nat) : Option Nat :=
  let gb := groupBytes code
  if isAccx code ∨ 0xE ≤ code then none
  else if isMx code then
    if 16 < len ∧ (len - 16) % gb = 0 ∧ (len - 16) / gb ≤ maxGroups code then some (32 * ((len - 16) / gb)) else none
  else if 0 < len ∧ len % gb = 0 ∧ len / gb ≤ maxGroups code then some (32 * (len / gb)) else none

/-- A contribution whose payload is `raw`: an MX one has its scales in the first 16 bytes (R122). -/
def contrOf (code rank e n : Nat) (raw : List Byte) : Contr :=
  if isMx code then { rank := rank, elem := e, n := n, data := raw.drop 16, scales := raw.take (n / 32), len := raw.length }
  else { rank := rank, elem := e, n := n, data := raw, len := raw.length }

/-- Bytes of rank buffer a context uses on a tile: contributions lie there as they arrived (R141). -/
def rankBufUsed (k : Ctx) (tile : Nat) : Nat :=
  (k.waits.filter (fun c => c.cell.isNone && chunkTile k (chunkOf k.desc c.elem) == tile)).foldl (fun n c => n + c.len) 0

/-- Cells of the spill area in use, and the lowest free one (R140). -/
def cellsUsed (k : Ctx) : List Nat := k.waits.filterMap (·.cell)
def freeCell (k : Ctx) : Option Nat :=
  (List.range (k.waits.length + 1)).find? (fun i => decide (i < oSpillMib k.desc * 4096) && !(cellsUsed k).contains i)

/-- Spill a contribution: one whole cell of stack memory, or failure with 0x07 when the area is full (R140). -/
def spillContr (s : State) (h : Nat) (k : Ctx) (c : Contr) (raw : List Byte) : State :=
  let tile := chunkTile k (chunkOf k.desc c.elem)
  match freeCell k with
  | none => failCtx s h 0x07 tile
  | some i =>
    match engineWrite s (sumDom tile) (oSpillBase k.desc + 256 * i) raw with
    | (s1, 0) =>
      let k1 := { k with got := (groupsOf c.elem c.n).map (gotKey c.rank) ++ k.got, waits := k.waits ++ [{ c with data := [], scales := [], cell := some i }],
                         spilled := true, peak := max k.peak ((cellsUsed k).length + 1) }
      (s1.modCtx h (fun _ => k1)).modSum tile (fun t => { t with spill := (t.spill + raw.length) % 2 ^ 64 })
    | (s1, st) => failCtx s1 h st tile

/-- HANDLE_MISS on both PF1s, at most once per millisecond (R138, R164). -/
def handleMiss (s : State) (h hgen rank e : Nat) : State :=
  let s1 := s.modRed (fun r => { r with noHandle := satAdd 32 r.noHandle 1 })
  let due := match s.red.lastMiss with
    | none => true
    | some t => decide (t + msCycles ≤ s.vcycle)
  if due then
    bothPf1.foldl (fun s r => postEventS s r 0x1202 h 0x81 (hgen + rank % 2 ^ 16 * 2 ^ 8 + e % 2 ^ 32 * 2 ^ 32) 0)
      (s1.modRed (fun r => { r with lastMiss := some s.vcycle }))
  else s1

/-- A CONTRIB reaches the tile that holds its chunk (R138 to R141). -/
def doContrib (h hgen rank e : Nat) (data : List Byte) (s : State) : State :=
  match oget s.red.ctxs h with
  | none => handleMiss s h hgen rank e
  | some k =>
    let d := k.desc
    if k.hgen ≠ hgen then handleMiss s h hgen rank e
    else
      let c := chunkOf d e
      let tile := chunkTile k c
      let s1 := s.modSum tile (fun t => { t with ingest := (t.ingest + data.length) % 2 ^ 64 })
      if k.st = .failed then s.modSum tile (fun t => { t with drop := satAdd 32 t.drop 1 })
      else
        match contribElems (oIn d) data.length with
        | none => failCtx s1 h 0x06 tile
        | some n =>
          if oRanks d ≤ rank ∨ bitAt (oMemMask d) rank ∨ e % 32 ≠ 0 ∨ chunkEnd d c < e + n then failCtx s1 h 0x06 tile
          else if (groupsOf e n).any (fun g => k.got.contains (gotKey rank g)) then failCtx s1 h 0x80 tile
          else
            let co := contrOf (oIn d) rank e n data
            if !chunkOpen k c then spillContr s1 h k co data
            else if foldable k co || decide (rankBufUsed k tile + data.length ≤ oRankBuf d * 1024) then takeIn s1 h k co
            else spillContr s1 h k co data

def execContrib (port handle hgen rank element : Nat) (data : List (BitVec 8)) (s : State) : Host.Outcome State Fault Refusal :=
  .next (if port < 8 ∧ portUp (s.port port) = true ∧ 1 ≤ data.length ∧ data.length ≤ 256 then
    doContrib handle hgen rank element data (apRx s port { op := 0x40, data := data }) else s)

/-- The oldest spilled contribution whose chunk is open, and whose turn has come, is read back and folded (R140, R141). -/
def doSpillReturn (h : Nat) (found : Codeword) (s : State) : State :=
  match oget s.red.ctxs h with
  | none => s
  | some k =>
    match k.waits.find? (fun c => c.cell.isSome && chunkOpen k (chunkOf k.desc c.elem) && foldable k c) with
    | none => s
    | some c =>
      let tile := chunkTile k (chunkOf k.desc c.elem)
      let a := oSpillBase k.desc + 256 * c.cell.getD 0
      match engineRead s (sumDom tile) a c.len with
      | (s1, 0, raw) =>
        if found = .uncorrectable then failCtx (uncorrectable s1 a (sumDom tile)) h 0x04 tile
        else
          let s2 := if found = .corrected then correctedRead s1 a else s1
          let k1 := { k with waits := k.waits.erase c }
          match foldContr k1 (contrOf (oIn k.desc) c.rank c.elem c.n raw) with
          | .inr e => failCtx s2 h e tile
          | .inl k2 =>
            match cascade (k2.waits.length + 1) k2 with
            | .inr e => failCtx s2 h e tile
            | .inl k3 => formAll (s2.modCtx h (fun _ => k3)) h [chunkOf k.desc c.elem]
      | (s1, st, _) => failCtx s1 h st tile

def execSpillReadReturn (handle : Nat) (found : Codeword) (s : State) : Host.Outcome State Fault Refusal :=
  .next (doSpillReturn handle found s)

/-! ### PULL (R148) -/

/-- A host function behind a step address, or none for stack space (R145). -/
def spaceFn (a : Nat) : Option Nat := if fld a 62 2 = 1 then some 4 else if fld a 62 2 = 2 then some 5 else none
def spaceAddr (a : Nat) : Nat := fld a 0 62

/-- The context a step names, where handle and hgen are current. -/
def stepCtx (s : State) (d : Nat) : Option Ctx :=
  match oget s.red.ctxs (fld d 64 12) with
  | none => none
  | some k => if k.hgen = fld d 76 4 then some k else none

def doPull (core d : Nat) (s : State) : State :=
  let tag := fld d 32 32
  let h := fld d 64 12
  let first := fld d 96 32
  let count := fld d 128 32
  let rank := fld d 80 16
  if fld d 8 24 ≠ 0 ∨ fld d 288 224 ≠ 0 then stepDone s core tag 0x06 0x02 0
  else match stepCtx s d with
    | none => stepDone s core tag 0x81 0x02 0
    | some k =>
      if oRanks k.desc ≤ rank ∨ !bitAt (oMemMask k.desc) rank ∨ oElements k.desc < first + count ∨ first % 32 ≠ 0 ∨ count % 32 ≠ 0
          ∨ fld d 222 2 = 3 ∨ fld d 160 64 % 64 ≠ 0 ∨ (isMx (oIn k.desc) ∧ (fld d 286 2 = 3 ∨ fld d 224 64 % 64 ≠ 0)) ∨ (!isMx (oIn k.desc) ∧ fld d 224 64 ≠ 0) then
        stepDone s core tag 0x06 0x02 0
      else if k.st = .failed then stepDone s core tag k.failure 0x02 0
      else if count = 0 then stepDone s core tag 0 0x02 0
      else s.modCtx h (fun k => { k with pulls := k.pulls ++ [{ core := core, tag := tag, rank := rank, first := first, count := count, addr := fld d 160 64, scale := fld d 224 64 }] })

def execRdPull (core : Nat) (s : State) : Host.Outcome State Fault Refusal := .next (frontEnd s core 0x02 (doPull core))

/-- Bytes a memory rank's elements occupy before an element (R148). -/
def pullOff (code e : Nat) : Nat := if isAccx code then 48 * e else e / 32 * groupBytes code

/-- Chunks of its range that a PULL has still to read, and the elements of its range in a chunk: the first and how many. -/
def pullLeft (k : Ctx) (p : Pull) : List Nat :=
  let c0 := chunkOf k.desc p.first
  ((List.range (chunkOf k.desc (p.first + p.count - 1) + 1 - c0)).map (c0 + ·)).filter (fun c => !p.parts.contains c)
def pullPart (k : Ctx) (p : Pull) (c : Nat) : Nat × Nat :=
  let e := max p.first (c * 2 ^ oChunkLog2 k.desc)
  (e, min (chunkEnd k.desc c) (p.first + p.count) - e)

/-- Bytes of elements and of scales that `n` elements of a format take in memory (R122). -/
def pullBytes (code n : Nat) : Nat × Nat := (pullOff code n, if isMx code then n / 32 else 0)

/-- A part of a PULL whose groups its rank has delivered before: a duplicate, also where the chunk has finished (R119, R148). -/
def pullAgain (k : Ctx) (p : Pull) (c : Nat) : Bool :=
  let x := pullPart k p c
  (groupsOf x.1 x.2).any (fun g => k.got.contains (gotKey p.rank g))

/-- A part of a PULL can be taken in now: its chunk is open, and it folds or fits in the rank buffer (R140, R141). -/
def pullFits (k : Ctx) (p : Pull) (c : Nat) : Bool :=
  let x := pullPart k p c
  let b := pullBytes (oIn k.desc) x.2
  chunkOpen k c && (foldable k { rank := p.rank, elem := x.1, n := x.2 }
    || decide (rankBufUsed k (chunkTile k c) + b.1 + b.2 ≤ oRankBuf k.desc * 1024))

/-- Read a range of a step address: stack memory, where the read finds its codewords as `found` says, or what the host read
answered (R161). -/
def spaceRead (s : State) (tile a n : Nat) (found : Codeword) (host : List Byte) (read : HRead) : State × Nat × List Byte :=
  match spaceFn a with
  | none =>
    match engineRead s (sumDom tile) (spaceAddr a) n, found with
    | (s1, 0, _), .uncorrectable => (uncorrectable s1 (spaceAddr a) (sumDom tile), 0x04, [])
    | (s1, 0, bs), .corrected => (correctedRead s1 (spaceAddr a), 0, bs)
    | r, _ => r
  | some f =>
    if !dmaOn (s.fn f) ∨ (s.fn f).orphan.isSome then (s, 0x0B, [])
    else match read with
      | .ok _ => (s, 0, host)
      | _ => (s, 0x03, [])

/-- A PULL completes once all of its range is folded or in the rank buffer (R148); a context that failed has ended it. -/
def pullDone (s : State) (h which : Nat) (p : Pull) : State :=
  match oget s.red.ctxs h with
  | none => s
  | some k =>
    if k.st = .failed ∨ !(pullLeft k p).isEmpty then s
    else stepDone (s.modCtx h (fun k => { k with pulls := k.pulls.eraseIdx which })) p.core p.tag 0 0x02 0

/-- Bytes that a host answered a read with. -/
def hostBytes (r : HRead) : List Byte := match r with | .ok bs => bs | _ => []

/-- Data of a PULL returns for the lowest part of its range that lies in an open chunk (R140, R148): elements, and
the scales of an MX format. A host read returns the elements and, after them, the scales. -/
def doPullReturn (h which : Nat) (back : PullRead) (s : State) : State :=
  match oget s.red.ctxs h with
  | none => s
  | some k =>
    match k.pulls[which]? with
    | none => s
    | some p =>
      match (pullLeft k p).find? (fun c => pullAgain k p c || pullFits k p c) with
      | none => s
      | some c =>
        let x := pullPart k p c
        let tile := chunkTile k c
        let b := pullBytes (oIn k.desc) x.2
        let host := hostBytes back.host
        if pullAgain k p c then failCtx s h 0x80 tile
        else
          let r1 := spaceRead s tile (p.addr + pullOff (oIn k.desc) (x.1 - p.first)) b.1 back.elems (host.take b.1) back.host
          let r2 := if b.2 = 0 then (r1.1, 0, []) else spaceRead r1.1 tile (p.scale + (x.1 - p.first) / 32) b.2 back.scales (host.drop b.1) back.host
          if r1.2.1 ≠ 0 then failCtx r1.1 h r1.2.1 tile
          else if r2.2.1 ≠ 0 then failCtx r2.1 h r2.2.1 tile
          else if r1.2.2.length ≠ b.1 ∨ r2.2.2.length ≠ b.2 then s
          else
            let p1 := { p with parts := p.parts ++ [c] }
            let k1 := { k with pulls := k.pulls.set which p1 }
            let s1 := (r2.1.modCtx h (fun _ => k1)).modSum tile (fun t => { t with ingest := (t.ingest + b.1 + b.2) % 2 ^ 64 })
            pullDone (takeIn s1 h k1 { rank := p.rank, elem := x.1, n := x.2, data := r1.2.2, scales := r2.2.2, len := b.1 + b.2 }) h which p1

def execPullDataReturn (handle which : Nat) (back : PullRead) (s : State) : Host.Outcome State Fault Refusal :=
  .next (doPullReturn handle which back s)

/-! ### CLOSE and ABORT (R149, R150) -/

def doClose (core d : Nat) (s : State) : State :=
  let tag := fld d 32 32
  let h := fld d 64 12
  if fld d 8 24 ≠ 0 ∨ fld d 80 432 ≠ 0 then stepDone s core tag 0x06 0x03 0
  else match stepCtx s d with
    | none => stepDone s core tag 0x81 0x03 0
    | some k =>
      match k.st with
      | .closing => stepDone s core tag 0x06 0x03 0
      | .failed => releaseCtx (stepDone s core tag k.failure 0x03 0) h
      | .opened => checkClose (s.modCtx h (fun k => { k with st := .closing, closer := some (core, tag) })) h

def execRdClose (core : Nat) (s : State) : Host.Outcome State Fault Refusal := .next (frontEnd s core 0x03 (doClose core))

/-- A context ends at once: its pending steps complete with 0x08 and it is released (R150). -/
def abortCtx (s : State) (h : Nat) : State :=
  match oget s.red.ctxs h with
  | none => s
  | some k =>
    let s1 := endPulls s k 0x08
    releaseCtx (match k.closer with | some (c, t) => stepDone s1 c t 0x08 0x03 0 | none => s1) h

/-- A waiting claim is withdrawn; a core whose claim was the candidate claims anew with its next (R150, R155). -/
def withdraw (s : State) (c : Claim) : State :=
  settleCand (s.modRed (fun r => { r with claims := r.claims.erase c, cand := r.cand.filter (· != c.core) }))

def doAbort (core d : Nat) (s : State) : State :=
  let tag := fld d 32 32
  let h := fld d 64 12
  if fld d 8 24 ≠ 0 ∨ fld d 81 431 ≠ 0 ∨ (bitAt d 80 ∧ fld d 64 16 ≠ 0) then stepDone s core tag 0x06 0x04 0
  else if bitAt d 80 then
    match s.red.claims.find? (fun c => c.core == core) with
    | none => stepDone s core tag 0 0x04 0
    | some c =>
      stepDone (stepDone (withdraw s c) core (fld c.desc 32 32) 0x08 0x01 0) core tag 0 0x04 1
  else match stepCtx s d with
    | none => stepDone s core tag 0 0x04 0
    | some _ => stepDone (abortCtx s h) core tag 0 0x04 1

def execRdAbort (core : Nat) (s : State) : Host.Outcome State Fault Refusal := .next (frontEnd s core 0x04 (doAbort core))

/-! ### Emission (R142, R143, R149) -/

/-- The emission a tile works on: its lowest complete chunk, when every lower chunk of the tile is free. -/
def emitting (k : Ctx) (tile : Nat) : Option Emission :=
  let n := k.tiles.length
  k.emis.find? (fun e => chunkTile k e.chunk == tile
    && (List.range (e.chunk / n)).all (fun i => k.freed.contains (e.chunk % n + n * i)))

/-- A chunk whose copies have left and whose write is accepted is free; the CLOSE may complete (R142, R149). -/
def freeChunk (s : State) (h : Nat) (e : Emission) : State :=
  if e.pieces.isEmpty && !e.writeDue then
    checkClose (s.modCtx h (fun k => { k with emis := k.emis.filter (fun x => x.chunk != e.chunk), freed := insertSorted e.chunk k.freed })) h
  else s.modCtx h (fun k => { k with emis := k.emis.map (fun x => if x.chunk = e.chunk then e else x) })

/-- One RESULT copy leaves its tile when every member port's egress accepts it (R143). -/
def doResultCopy (h tile : Nat) (s : State) : State :=
  match oget s.red.ctxs h with
  | none => s
  | some k =>
    match emitting k tile with
    | none => s
    | some e =>
      match e.pieces with
      | [] => s
      | (el, bs) :: rest =>
        let t : Txn := { op := 0x41, length := bs.length, addr := h + k.hgen * 2 ^ 12 + el * 2 ^ 32, data := bs }
        let members := (List.range 8).filter (fun p => bitAt (oPorts k.desc) p)
        if members.any (fun p => portUp (s.port p) && !egressRoom (s.port p) t) then s
        else
          let s1 := members.foldl (fun s p =>
            if portUp (s.port p) then pushEgress s p { cls := 1, vc := 3, src := 8, eng := .result h k.hgen, txn := t }
            else (dropAt s p).modCtx h (fun k => { k with missed := Nat.lor k.missed (2 ^ p) })) s
          freeChunk (tapUnit s1 { tap := 5, sel := tile, handle := h, hgen := k.hgen } bs) h { e with pieces := rest }

def execResultCopyDepart (handle sumTile : Nat) (s : State) : Host.Outcome State Fault Refusal :=
  .next (doResultCopy handle sumTile s)

/-- Write bytes at a step address (R145): stack memory or host memory of a PF1. -/
def spaceWrite (s : State) (tile a : Nat) (bs : List Byte) : State × Nat :=
  match spaceFn a with
  | none => engineWrite s (sumDom tile) (spaceAddr a) bs
  | some f => if !dmaOn (s.fn f) ∨ (s.fn f).orphan.isSome then (s, 0x0B) else (hostWrite s f (spaceAddr a) bs, 0)

/-- A chunk's results are accepted by memory (R142, R149). -/
def doResultWrite (h tile : Nat) (s : State) : State :=
  match oget s.red.ctxs h with
  | none => s
  | some k =>
    match emitting k tile with
    | none => s
    | some e =>
      if !e.writeDue then s
      else
        let d := k.desc
        let e0 := e.chunk * 2 ^ oChunkLog2 d
        let r1 := spaceWrite s tile (oResult d + pullOff (oOut d) e0) e.data
        let r2 := if e.scales.isEmpty then (r1.1, 0) else spaceWrite r1.1 tile (oResultScale d + e0 / 32) e.scales
        if r1.2 ≠ 0 then failCtx r1.1 h r1.2 tile
        else if r2.2 ≠ 0 then failCtx r2.1 h r2.2 tile
        else freeChunk r2.1 h { e with writeDue := false }

def execResultWriteAccepted (handle sumTile : Nat) (s : State) : Host.Outcome State Fault Refusal :=
  .next (doResultWrite handle sumTile s)

/-- RESULT copies dropped in an egress that goes down are missed (R143). -/
def missResults (s : State) (p : Nat) (gone : List Egress) : State :=
  gone.foldl (fun s e => match e.eng with
    | .result h hgen =>
      if (oget s.red.ctxs h).any (fun k => k.hgen == hgen) then
        checkClose (s.modCtx h (fun k => { k with missed := Nat.lor k.missed (2 ^ p) })) h
      else s
    | _ => s) s

/-- Contexts that read or write the host memory of a function end with a status (R161). -/
def failHostCtxs (s : State) (r status : Nat) : State :=
  s.red.ctxs.foldl (fun s p =>
    let k := p.2
    let uses := k.pulls.any (fun q => spaceFn q.addr == some r || spaceFn q.scale == some r)
      || (oResult k.desc != 0 && spaceFn (oResult k.desc) == some r)
    if uses then failCtx s p.1 status (lget k.tiles 0 0) else s) s

end Sys2Proof.Machine
end

