-- ==== Sys2Proof/Machine/Flit.lean ====
section
/-!
DEFINITION. Flits received on an accelerator port (03: R79 to R86), with what each means for reduction contexts (R149).
-/
namespace Sys2Proof.Machine

/-- Opcode, length, port, tag and address or status of a header slot (Table 3-5). -/
def parseHeader (slot : List Byte) : Txn :=
  let h := leNat slot
  { op := fld h 0 8, length := fld h 16 9, port := fld h 25 3, tag := fld h 32 16, addr := fld h 64 64, status := fld h 64 8 }

/-- A header that ingress discards (R84). -/
def headerBad (vc : Nat) (slot : List Byte) (t : Txn) : Bool :=
  let h := leNat slot
  let known := [0x00, 0x10, 0x18, 0x20, 0x30, 0x40].contains t.op
  !known || fld h 8 8 != 0 || fld h 28 4 != 0 || fld h 48 16 != 0 || (t.op == 0x30 && fld h 72 56 != 0)
  || (t.op != 0x00 && vcOf t.op != vc)
  || (t.op == 0x00 && t.length != 0)
  || (t.op == 0x30 && decide (256 < t.length))
  || ((t.op == 0x10 || isRequest t || t.op == 0x40) && (decide (t.length < 1) || decide (256 < t.length)))
  || ((t.op == 0x10 || isRequest t) && crosses4k t.addr t.length)

/-- A good header of a port is taken up as it arrives: it is translated, or matched with a tracked request (R95, R103). Answers
the name of the transaction in the switch, 0 where it has none. -/
def takeHeader (p at_ : Nat) (t : Txn) (s : State) : State × Nat :=
  if t.op = 0x10 ∨ isRequest t = true then startTxn s p at_ { t with port := 0 }
  else if t.op = 0x30 then startCpl s p at_ t
  else (s, 0)

/-- Payload that has crossed follows its header, into the egress buffers that hold it and to its place at the ingress. -/
def addSlot (p id : Nat) (bs : List Byte) (s : State) : State :=
  if id = 0 then s
  else
    let grow (t : Txn) : Txn := { t with data := (t.data ++ bs).take t.length }
    let s1 := (List.range 8).foldl (fun s q => s.modPort q (fun a => { a with
      egress := a.egress.map (fun e => if e.src = p ∧ e.id = id then { e with txn := grow e.txn } else e) })) s
    s1.modPort p (fun a => { a with ingress := a.ingress.map (fun w => if w.id = id then { w with txn := grow w.txn } else w) })

/-- The last slot of a transaction has arrived: its payload passes the tap, a CONTRIB reaches its SUM tile, and a CPL has
freed a tracked request. -/
def takeWhole (p : Nat) (t : Txn) (s0 : State) : State :=
  let s := apRx s0 p t
  if t.op = 0x40 then doContrib (fld t.addr 0 12) (fld t.addr 12 4) (fld t.addr 16 16) (fld t.addr 32 32) t.data s
  else if t.op = 0x30 then retryIngress s
  else s

/-- Take one slot of a VC's stream (R82, R84). -/
def takeSlot (p vc : Nat) (s : State) (slot : List Byte) : State :=
  let st := mget (s.port p).streams vc {}
  let put (s : State) (x : RxStream) : State := s.modPort p (fun a => { a with streams := mset a.streams vc x {} })
  if 0 < st.skip then put s { st with skip := st.skip - 1 }
  else
    match st.slots with
    | [] =>
      let t := parseHeader slot
      if headerBad vc slot t then
        let s1 := put (dropAt s p) { skip := (t.length + 15) / 16 }
        if isRequest t then engineCpl s1 p t.tag 0x06 p else s1
      else if t.op = 0x00 then s
      else
        let at_ := lget (s.port p).rxCount vc 0 - 1
        let r := takeHeader p at_ t s
        if payloadSlots t = 0 then takeWhole p t r.1 else put r.1 { slots := [slot], id := r.2, at_ := at_ }
    | hd :: got =>
      let t := parseHeader hd
      let s1 := addSlot p st.id slot s
      if got.length + 1 < payloadSlots t then put s1 { st with slots := hd :: (got ++ [slot]) }
      else takeWhole p { t with data := ((got ++ [slot]).flatten).take t.length } (put s1 {})

/-- Acknowledged flits leave the replay buffer; an advance ends the row of replay runs (R85, R89). -/
def acked (a : APort) (ack : Nat) : APort :=
  match a.unacked.findIdx? (fun u => u.seq == ack) with
  | none => a
  | some i => { a with unacked := a.unacked.drop (i + 1), runs := 0 }

/-- Credits the peer has freed, from its counter modulo 256 (R81). -/
def freedCredits (a : APort) (bytes : List Byte) : APort :=
  { a with peerFreed := (List.range 4).map (fun v =>
      let old := lget a.peerFreed v 0
      old + ((lget bytes v 0#8).toNat + 256 - old % 256) % 256) }

/-- One flit arrives (R80 to R86, R89): a bad CRC is counted wherever the port receives; DATA is taken while it is ACTIVE. -/
def doFlitRx (p : Nat) (fl : List Byte) (s : State) : State :=
  let a := s.port p
  if 8 ≤ p ∨ receiving a = false ∨ fl.length ≠ 256 then s
  else if crc32c (fl.take 252) ≠ leNat (fl.drop 252) then
    s.modPort p (fun a => { a with crcErr := satAdd 32 a.crcErr 1, retry := a.retry || a.st == .active })
  else
    let h := leNat (fl.take 8)
    let ty := fld h 0 2
    if ty = 2 then doTraining p a.laneGood fl s
    else if ty = 3 ∨ a.st ≠ .active then s
    else
      let s1 := s.modPort p (fun a =>
        let b := freedCredits (acked a (fld h 16 12)) (sliceB fl 248 4)
        if bitAt h 28 then { b with replayAsked := true } else b)
      if ty = 0 then s1
      else if fld h 4 12 ≠ a.rxNext then s1.modPort p (fun a => { a with retry := true })
      else
        let vc := fld h 2 2
        let s2 := s1.modPort p (fun a => { a with rxNext := (a.rxNext + 1) % 4096, retry := false, rxUnacked := a.rxUnacked + 1, rxCount := a.rxCount.set vc (lget a.rxCount vc 0 + 1) })
        let s3 := (List.range 15).foldl (fun s i => takeSlot p vc s (sliceB fl (8 + 16 * i) 16)) s2
        if 32 ≤ (s3.port p).rxUnacked then doAckTimer p s3 else s3

def execFlitRx (port : Nat) (flit : List (BitVec 8)) (s : State) : Host.Outcome State Fault Refusal :=
  .next (doFlitRx port flit s)

end Sys2Proof.Machine
end

