-- ==== Sys2Proof/Machine/Launch.lean ====
section
/-!
DEFINITION. The end of a collective launch, however it comes about (06: R224, R228), shared by control cores, runtime
services and the collective commands.
-/
namespace Sys2Proof.Machine

def readMapB (m : NMap Byte) (o n : Nat) : List Byte := (List.range n).map (fun i => mget m (o + i) 0#8)
def writeMapB (m : NMap Byte) (o : Nat) : List Byte → NMap Byte
  | [] => m
  | b :: r => writeMapB (mset m o b 0#8) (o + 1) r

/-- The launch a COLL core runs. -/
def runningLaunch (c : Core) : Option Launch := c.launches.find? (·.running)

def modRunning (s : State) (core : Nat) (f : Launch → Launch) : State :=
  s.modCore core (fun c => { c with launches := c.launches.map (fun l => if l.running then f l else l) })

/-- Result of COLL_LAUNCH on 0x00 (Table 6-7). -/
def launchResult (l : Launch) : Nat := l.flags % 16 + l.missed % 256 * 2 ^ 4 + l.opened % 2 ^ 16 * 2 ^ 48

/-- Contexts of a launch are ABORTed, its waiting OPENs withdrawn and its steps forgotten: a COLL core runs one launch at
a time, so they are all that the core holds (R224). -/
def abortLaunchSteps (s : State) (core : Nat) : State :=
  let s1 := (s.red.ctxs.filter (fun p => p.2.core == core)).foldl (fun s p => abortCtx s p.1) s
  (settleCand (s1.modRed (fun r => { r with steps := r.steps.filter (fun p => p.1 != core), claims := r.claims.filter (fun c => c.core != core)
                                            cand := r.cand.filter (· != core) }))).modCore core (fun c => { c with scq := [], stepsOut := 0 })

/-- Address of a control core's journal: 1 MiB in the reserved areas of its die's stacks, eight to a stack, in the place that
the order of Table 15-2 gives the journals (R232, R510; DEDUCED, log 44). -/
def journalAddr (core : Nat) : Nat := (core / 32 * 4 + core % 32 / 8) * 2 ^ 36 + 0x26A00000 + core % 8 * 2 ^ 20

/-- The region that a core has over a journal it takes over, read-only, while it replays it (R211). -/
def openJournal (s : State) (core from_ : Nat) : State :=
  s.modCore core (fun c => { c with regions := mset (mset c.regions 30 (2 ^ 63 + journalAddr from_ + 9) 0) 31 (2 ^ 63 + journalAddr from_ + 0xFF000) 0 })
def closeJournal (s : State) (core : Nat) : State :=
  s.modCore core (fun c => { c with regions := mset (mset c.regions 30 0 0) 31 0 0 })

/-- The running launch of a core ends with a status and result, and leaves the core free for the next. -/
def endLaunch (s : State) (core status result : Nat) : State :=
  match runningLaunch (s.core core) with
  | none => s
  | some l =>
    let s1 := closeJournal (abortLaunchSteps s core) core
    finish (s1.modCore core (fun c => { c with launches := c.launches.filter (fun x => !x.running) })) l.ref status result 0

/-- A library program, whose two identifiers share a slot (Table 6-4). -/
def isLibrary (progId : Nat) : Bool :=
  (progId / 0x100 == 0 || progId / 0x100 == 1) && decide (1 ≤ progId % 0x100) && decide (progId % 0x100 ≤ 5)

/-- Slot and entry of a loaded program. The manual does not print the library's code: its entries are the slot bases
(DESIGN CHOICE, log 17). -/
def progSlot (s : State) (progId : Nat) : Option (Nat × Nat) :=
  if isLibrary progId then some (progId % 0x100 - 1, 0)
  else (s.fw.slots.find? (fun p => p.2.progId == progId)).map (fun p => (p.1, p.2.entry))

/-- The library's IN_SWITCH, and its programs that sum in the node before they exchange across nodes (Table 6-4). -/
def inSwitch (l : Launch) : Bool := l.progId == 0x0001 || l.progId == 0x0101
def sumsInNode (l : Launch) : Bool := isLibrary l.progId && decide (2 ≤ l.progId % 0x100) && decide (l.progId % 0x100 ≤ 4)

/-- The launch's next service call is one that R606 fixes: all of IN_SWITCH, and the five of an in-node sum. -/
def ownCalls (l : Launch) : Bool := inSwitch l || (sumsInNode l && decide (l.phase < 5))

/-- Address of runtime service n (R220). -/
def rtAddr (n : Nat) : Nat := 0x100 + 16 * n

/-- A COLL core stands at a service call, or runs no launch: it can hand off (R239). -/
def atService (c : Core) : Bool :=
  match runningLaunch c with
  | none => true
  | some l => ownCalls l || (List.range 8).any (fun n => c.pc == rtAddr n)

/-- Program data of a launch fill PDM from 0x118000 on, zero beyond (R212, R218). -/
def loadData (s : State) (core : Nat) (l : Launch) : State :=
  let data := if isLibrary l.progId then [] else ((s.fw.slots.find? (fun p => p.2.progId == l.progId)).map (fun p => p.2.data)).getD []
  s.modCore core (fun k => { k with pdm := writeMapB (k.pdm.filter (fun p => decide (p.1 < 0x18000) || decide (0x1C000 ≤ p.1))) 0x18000 data })

/-- Core state at a program's entry (R220). -/
def enterProgram (s : State) (core : Nat) (l : Launch) (slot entry : Nat) : State :=
  s.modCore core (fun k =>
    let x := (List.range 8).foldl (fun (m : NMap (BitVec 64)) i => mset m i (BitVec.ofNat 64 (lget l.entryX i 0)) 0#64) k.x
    { k with pc := 0x10000 + 0x4000 * slot + entry, depth := 1, resident := 2, inHandler := false, x := x })

/-- A queued launch ends without having run. -/
def endQueued (s : State) (core : Nat) (ref : DRef) (status : Nat) : State :=
  finish (s.modCore core (fun c => { c with launches := c.launches.filter (fun x => x.running || x.ref != ref) })) ref status 0 0

/-- Addresses of the program slots in IM (R220). -/
def inProgram (pc : Nat) : Bool := 0x10000 ≤ pc && pc < 0x40000

/-- An exception raised by program code ends the launch with PROGRAM_FAULT (R224). -/
def programFault (s : State) (core pc code : Nat) : State :=
  if inProgram pc && (runningLaunch (s.core core)).isSome then endLaunch s core 0x86 code else s

end Sys2Proof.Machine
end

