-- ==== Sys2Proof/Machine/Pynex.lean ====
section
/-!
DEFINITION. The Pynex instruction set (05): registers and windows, predicates, memory, special instructions, control
registers, exceptions. A command carries the instruction word (R178); a word whose opcode Table 5-4 does not list is illegal
whichever row's command carries it, and one of another row's opcode is no instance of the command.
-/
namespace Sys2Proof.Machine

/-! ### Registers (R168, R169) -/

/-- A register of the current frame, the globals or the exchange bank by its number (Table 5-1). -/
def getR (c : Core) (n : Nat) : BitVec 64 :=
  if n = 0 then 0#64 else if n < 8 then mget c.g n 0#64 else if n < 24 then mget c.w (16 * c.depth + (n - 8)) 0#64
  else mget c.x (n - 24) 0#64

/-- Write a register; g0 discards (R168). -/
def setR (c : Core) (n : Nat) (v : BitVec 64) : Core :=
  if n = 0 then c else if n < 8 then { c with g := mset c.g n v 0#64 }
  else if n < 24 then { c with w := mset c.w (16 * c.depth + (n - 8)) v 0#64 }
  else { c with x := mset c.x (n - 24) v 0#64 }

/-- A predicate; p0 reads 1 (R176). -/
def getP (c : Core) (n : Nat) : Bool := n == 0 || bitAt c.preds n
def setP (c : Core) (n : Nat) (b : Bool) : Core := if n = 0 then c else { c with preds := setFld c.preds n 1 (b2n b) }

/-- All frame registers of one frame are zero. -/
def clearFrame (c : Core) (f : Nat) : Core :=
  { c with w := c.w.filter (fun p => decide (p.1 < 16 * f) || decide (16 * f + 16 ≤ p.1)) }

/-- Core cycles pass, counted toward the alive slack too (R198, R234); those of WAIT and of LOCK with wait 1 are not. -/
def addCyc (c : Core) (n : Nat) : Core := { c with cycle := (c.cycle + n) % 2 ^ 64, slack := c.slack + n }
def addWait (c : Core) (n : Nat) : Core := { c with cycle := (c.cycle + n) % 2 ^ 64 }

/-- Core cycles in `n` vestibule cycles: 1.6 GHz on a control core, 1.2 GHz on a keeper (R165, R167). -/
def coreCycles (core n : Nat) : Nat := if core < 64 then 4 * n else 3 * n

/-- Core cycles that a core has stood in an access that has not completed (R234). -/
def blockedFor (s : State) (core : Nat) : Nat :=
  match (s.core core).act with
  | .loading _ _ _ _ since => coreCycles core (s.vcycle - since)
  | .storing _ _ since => coreCycles core (s.vcycle - since)
  | .stuck _ since => coreCycles core (s.vcycle - since)
  | _ => 0

/-! ### Memory map and regions (R181, R182, R186, R187, R214) -/

/-- Where a core address lies. -/
inductive Place where
  | im (o : Nat) | pdm (o : Nat) | tsm (o : Nat) | reg (o : Nat) | stack (a : Nat) | host (fn a : Nat) | nowhere
deriving DecidableEq, Repr

/-- Decode a core address of an access of n bytes (Table 5-7). Keepers lie in no CTL tile and see no TSM. -/
def place (core a n : Nat) : Place :=
  if a + n ≤ 0x40000 then .im a
  else if 0x100000 ≤ a ∧ a + n ≤ 0x120000 then .pdm (a - 0x100000)
  else if 0x1000000 ≤ a ∧ a + n ≤ 0x1400000 ∧ core < 64 then .tsm (core / 16 * 2 ^ 22 + (a - 0x1000000))
  else if 0x100000000 ≤ a ∧ a + n ≤ 0x200000000 then .reg (a - 0x100000000)
  else if 2 ^ 63 ≤ a ∧ a + n ≤ 2 ^ 63 + 2 ^ 39 then .stack (a - 2 ^ 63)
  else if 0x9000000000000000 ≤ a ∧ a + n ≤ 0xA000000000000000 then .host 4 (a - 0x9000000000000000)
  else if 0xA000000000000000 ≤ a ∧ a + n ≤ 0xB000000000000000 then .host 5 (a - 0xA000000000000000)
  else .nowhere

/-- One enabled region contains every byte and grants the right: 0 read, 1 write, 2 execute (R186); none binds a keeper
(R167). -/
def regionOk (core : Nat) (c : Core) (a n right : Nat) : Bool :=
  decide (64 ≤ core) || (List.range 16).any (fun k =>
    let b := mget c.regions (2 * k) 0
    let l := mget c.regions (2 * k + 1) 0
    bitAt b 3 && bitAt b right && decide (b / 4096 ≤ a / 4096) && decide ((a + n - 1) / 4096 ≤ l / 4096))

/-- Tile number of a register-window offset, when a tile lies there (Table 6-3). -/
def regTile (o : Nat) : Option Nat := if o < 84 * 2 ^ 24 then some (o / 2 ^ 24) else none
def regMapped (o : Nat) : Bool := (regTile o).isSome || (decide (0x80000000 ≤ o) && decide (o < 0x81000000))
/-- The access never completes: the register's domain is not ON, is changing, or its clock is stopped (R188, R538). -/
def regOff (s : State) (o : Nat) : Bool := match regTile o with | some t => !reachable s t | none => false
/-- Width in bytes of an internal register (R182): no rule gives it (log 3). -/
def regWidth (o : Nat) : Nat := if Config.windowWide o then 8 else 4

/-- A fetch is allowed: aligned, in IM, in an executable region (R178, R181, R186). -/
def fetchOk (core : Nat) (c : Core) (pc : Nat) : Bool := pc % 4 == 0 && decide (pc + 4 ≤ 0x40000) && regionOk core c pc 4 2

/-- First fault of a data access, in the order of R203: MISALIGNED, ACCESS_FAULT, QUIESCED. -/
def accessFault (s : State) (core a n : Nat) (write : Bool) : Option Nat :=
  let c := s.core core
  if a % n ≠ 0 then some 0x02
  else
    let mapped := match place core a n with
      | .nowhere => false
      | .im _ => !write
      | .reg o => n == regWidth o && regMapped o
      | .stack b => stackReach s b n == 0
      | _ => true
    if !mapped || !regionOk core c a n (b2n write) then some 0x03
    else match place core a n with
      | .host f _ => if (s.fn f).orphan.isSome || !(s.fn f).busMaster then some 0x0B else none
      | _ => none

/-- A store of n bytes at a core address reaches the word a core watches (R192). -/
def hitsWatch (c : Core) (a n : Nat) : Bool := decide (c.watchAddr < a + n) && decide (a < c.watchAddr + 8)

/-- Write PDM or TSM, and note it for every core that watches the word (R191, R192). -/
def localStore (s : State) (core a : Nat) (bs : List Byte) : State :=
  match place core a bs.length with
  | .pdm o => s.modCore core (fun c => { c with pdm := writeMapB c.pdm o bs, watchHit := c.watchHit || hitsWatch c a bs.length })
  | .tsm o =>
    let s1 := { s with fw := { s.fw with tsm := writeMapB s.fw.tsm o bs } }
    (List.range 16).foldl (fun s i => s.modCore (16 * (core / 16) + i) (fun c =>
      { c with watchHit := c.watchHit || hitsWatch c a bs.length })) s1
  | _ => s

/-- Bytes of IM, PDM or TSM. -/
def localRead (s : State) (core a n : Nat) : List Byte :=
  match place core a n with
  | .im o => readMapB (s.core core).im o n
  | .pdm o => readMapB (s.core core).pdm o n
  | .tsm o => readMapB s.fw.tsm o n
  | _ => []

def isLocal (core a n : Nat) : Bool := match place core a n with | .pdm _ => true | .tsm _ => true | _ => false

/-! ### Spill and fill (R173, R174) -/

/-- Registers a mask names, ascending. -/
def maskRegs (m : Nat) : List Nat := (List.range 16).filter (bitAt m)

/-- Spill frame f below a limit: `none` when the space would not remain. -/
def spill (core : Nat) (s : State) (f limit : Nat) : Option State :=
  let c := s.core core
  let m := mget c.maskOf f 0
  let regs := maskRegs m
  let bytes := 8 * (regs.length + 1)
  if limit < c.spillPtr + bytes then none
  else
    let data := regs.flatMap (fun i => natLE 8 (mget c.w (16 * f + i) 0#64).toNat)
    let hdr := natLE 8 (m + regs.length * 2 ^ 16 + f * 2 ^ 32)
    some ((localStore s core c.spillPtr (data ++ hdr)).modCore core (fun c => { clearFrame c f with spillPtr := c.spillPtr + bytes }))

/-- Fill frame f from the spill stack: `none` for a WINDOW_FAULT. -/
def fill (core : Nat) (s : State) (f : Nat) : Option (State × Nat) :=
  let c := s.core core
  let hdr := leNat (localRead s core (c.spillPtr - 8) 8)
  let m := fld hdr 0 16
  let regs := maskRegs m
  if c.spillPtr = c.spillBase ∨ fld hdr 32 16 ≠ f ∨ fld hdr 16 5 ≠ regs.length then none
  else
    let base := c.spillPtr - 8 * (regs.length + 1)
    let w := (List.range regs.length).foldl (fun (w : NMap (BitVec 64)) k =>
      mset w (16 * f + lget regs k 0) (BitVec.ofNat 64 (leNat (localRead s core (base + 8 * k) 8))) 0#64) (clearFrame c f).w
    some (s.modCore core (fun c => { c with w := w, spillPtr := base }), regs.length)

/-! ### Exceptions (R201 to R206) -/

def fatal (code : Nat) : Bool := code == 0x0E || code == 0x0F

/-- Exception entry (R201): the causes are recorded and the handler's frame entered, or the core stops. -/
def raiseExc (s : State) (core code addr : Nat) : State :=
  let c := s.core core
  let s1 := s.modCore core (fun c => { c with epc := c.pc, ecause := code, eaddr := addr % 2 ^ 64 })
  if c.inHandler || c.evec == 0 || fatal code then s1.modCore core (fun c => { c with act := .stopped })
  else
    let s2 := s1.modCore core (fun c => { c with maskOf := mset c.maskOf c.depth 0xFFFF 0 })
    let r := if c.resident = 31 then spill core s2 (c.depth - 30) c.spillLimit else some s2
    match r with
    | none => s2.modCore core (fun c => { c with ecause := 0x0F + code * 2 ^ 8, act := .stopped })
    | some s3 =>
      let n := if c.resident = 31 then (maskRegs (mget (s2.core core).maskOf (c.depth - 30) 0)).length + 1 else 0
      programFault (s3.modCore core (fun c =>
        let c1 := clearFrame c (c.depth + 1)
        addCyc { c1 with depth := c.depth + 1, resident := min (c.resident + 1) 31, inHandler := true, pc := c.evec, act := .running } (4 + n)))
        core c.pc code

/-! ### The shell of every instruction (R165, R177, R203) -/

/-- What an instruction's body answers: on to the next word, to a target, an exception, or a wait with its pc kept. -/
inductive PRes where
  | go (s : State) (cycles : Nat)
  | jump (s : State) (pc cycles : Nat)
  | exc (code addr : Nat)
  | stay (s : State)

/-- The core executes instructions: it runs, and its component or keeper is up. -/
def canRun (s : State) (core : Nat) : Bool :=
  let c := s.core core
  c.act == .running && (if core < 64 then c.st == .running || c.st == .draining || c.st == .swapping else lget s.fw.dkUp (core - 64) false && decide (core < 66))

/-- The instruction word of a command. -/
def wordOf (op lo : Nat) : Nat := op * 2 ^ 26 + lo % 2 ^ 26

/-- Opcodes of Table 5-4. -/
def listedOp (o : Nat) : Bool :=
  (decide (1 ≤ o) && decide (o ≤ 6)) || (decide (8 ≤ o) && decide (o ≤ 0x16)) || (decide (0x18 ≤ o) && decide (o ≤ 0x1D))
  || (decide (0x20 ≤ o) && decide (o ≤ 0x22)) || (decide (0x24 ≤ o) && decide (o ≤ 0x27)) || (decide (0x30 ≤ o) && decide (o ≤ 0x34))
  || o == 0x36 || o == 0x37

/-- Run one instruction: its fetch is checked, then its guard, then its opcode (R179), then its body. -/
def runPy (op core lo : Nat) (s : State) (body : Core → PRes) : State :=
  let c := s.core core
  if !canRun s core || (fld lo 26 6 != op && listedOp (fld lo 26 6)) then s
  else if !fetchOk core c c.pc then raiseExc s core 0x04 c.pc
  else if getP c (fld lo 23 3) == bitAt lo 22 then s.modCore core (fun c => addCyc { c with pc := (c.pc + 4) % 2 ^ 64 } 1)
  else if fld lo 26 6 ≠ op then raiseExc s core 0x01 (lo % 2 ^ 32)
  else match body c with
    | .go s' n => s'.modCore core (fun c => addCyc { c with pc := (c.pc + 4) % 2 ^ 64 } n)
    | .jump s' pc n => s'.modCore core (fun c => addCyc { c with pc := pc % 2 ^ 64 } n)
    | .exc code addr => raiseExc s core code addr
    | .stay s' => s'

/-- ILLEGAL_INSTRUCTION with the word in EADDR (Table 5-12). -/
def illegal (op lo : Nat) : PRes := .exc 0x01 (wordOf op lo)

/-- Fields of the formats (Table 5-3). -/
def fRd (lo : Nat) : Nat := fld lo 17 5
def fRs1 (lo : Nat) : Nat := fld lo 12 5
def fRs2 (lo : Nat) : Nat := fld lo 7 5
/-- Low bits sign-extended to 64. -/
def imm (w lo : Nat) : BitVec 64 := BitVec.ofInt 64 (sxt w lo)

/-- Write one register and go on. -/
def setGo (s : State) (core rd : Nat) (v : BitVec 64) (n : Nat) : PRes := .go (s.modCore core (fun c => setR c rd v)) n

/-! ### Arithmetic (R179, R180, Table 5-5) -/

def popc (x : Nat) : Nat := (List.range 64).foldl (fun n i => n + b2n (bitAt x i)) 0
def clz (x : Nat) : Nat := if x = 0 then 64 else 63 - Nat.log2 x
def ctz (x : Nat) : Nat := ((List.range 64).find? (bitAt x)).getD 64

/-- rd := rs1 func rs2, or none for a func not listed (Table 5-5). -/
def aluFn (func : Nat) (a b : BitVec 64) : Option (BitVec 64) :=
  match func with
  | 0x00 => some (a + b)
  | 0x01 => some (a - b)
  | 0x02 => some (a &&& b)
  | 0x03 => some (a ||| b)
  | 0x04 => some (a ^^^ b)
  | 0x05 => some (a &&& ~~~b)
  | 0x08 => some (a <<< (b.toNat % 64))
  | 0x09 => some (a >>> (b.toNat % 64))
  | 0x0A => some (a.sshiftRight (b.toNat % 64))
  | 0x10 => some (a * b)
  | 0x11 => some (BitVec.ofNat 64 (a.toNat * b.toNat / 2 ^ 64))
  | 0x12 => some (BitVec.ofInt 64 (a.toInt * b.toInt / 2 ^ 64))
  | 0x18 => some (if b.toInt < a.toInt then b else a)
  | 0x19 => some (if a.toInt < b.toInt then b else a)
  | 0x1A => some (if b.toNat < a.toNat then b else a)
  | 0x1B => some (if a.toNat < b.toNat then b else a)
  | 0x20 => some (BitVec.ofNat 64 (popc a.toNat))
  | 0x21 => some (BitVec.ofNat 64 (clz a.toNat))
  | 0x22 => some (BitVec.ofNat 64 (ctz a.toNat))
  | 0x23 => some (BitVec.ofNat 64 (leNat (natLE 8 a.toNat).reverse))
  | _ => none

def unaryFn (func : Nat) : Bool := 0x20 ≤ func && func ≤ 0x23
def mulFn (func : Nat) : Bool := func == 0x10 || func == 0x11 || func == 0x12

def doAlu (core lo : Nat) (s : State) : State :=
  runPy 0x01 core lo s (fun c =>
    let func := fld lo 0 7
    match aluFn func (getR c (fRs1 lo)) (getR c (fRs2 lo)) with
    | none => illegal 0x01 lo
    | some v => if unaryFn func && fRs2 lo != 0 then illegal 0x01 lo
      else setGo s core (fRd lo) v (if mulFn func then 3 else 1))

def execAlu (core : Nat) (lo : BitVec 32) (s : State) : Host.Outcome State Fault Refusal := .next (doAlu core lo.toNat s)

/-- Format I with a signed immediate. -/
def immOp (op core lo : Nat) (s : State) (f : BitVec 64 → BitVec 64 → BitVec 64) : State :=
  runPy op core lo s (fun c => setGo s core (fRd lo) (f (getR c (fRs1 lo)) (imm 12 lo)) 1)

def execAddi (core : Nat) (lo : BitVec 32) (s : State) : Host.Outcome State Fault Refusal := .next (immOp 0x02 core lo.toNat s (· + ·))
def execAndi (core : Nat) (lo : BitVec 32) (s : State) : Host.Outcome State Fault Refusal := .next (immOp 0x03 core lo.toNat s (· &&& ·))
def execOri (core : Nat) (lo : BitVec 32) (s : State) : Host.Outcome State Fault Refusal := .next (immOp 0x04 core lo.toNat s (· ||| ·))
def execXori (core : Nat) (lo : BitVec 32) (s : State) : Host.Outcome State Fault Refusal := .next (immOp 0x05 core lo.toNat s (· ^^^ ·))

def doShifti (core lo : Nat) (s : State) : State :=
  runPy 0x06 core lo s (fun c =>
    let a := getR c (fRs1 lo)
    let n := fld lo 0 6
    let kind := fld lo 6 2
    if fld lo 8 4 ≠ 0 ∨ kind = 3 then illegal 0x06 lo
    else setGo s core (fRd lo) (if kind = 0 then a <<< n else if kind = 1 then a >>> n else a.sshiftRight n) 1)

def execShifti (core : Nat) (lo : BitVec 32) (s : State) : Host.Outcome State Fault Refusal := .next (doShifti core lo.toNat s)

def execMovi (core : Nat) (lo : BitVec 32) (s : State) : Host.Outcome State Fault Refusal :=
  .next (runPy 0x08 core lo.toNat s (fun _ => setGo s core (fRd lo.toNat) (imm 17 lo.toNat) 1))

/-- MOVK: one 16-bit field replaced, the other bits kept. -/
def movk (op sh core lo : Nat) (s : State) : State :=
  runPy op core lo s (fun c =>
    if bitAt lo 16 then illegal op lo
    else setGo s core (fRd lo) (BitVec.ofNat 64 (setFld (getR c (fRd lo)).toNat sh 16 (fld lo 0 16))) 1)

def execMovk16 (core : Nat) (lo : BitVec 32) (s : State) : Host.Outcome State Fault Refusal := .next (movk 0x09 16 core lo.toNat s)
def execMovk32 (core : Nat) (lo : BitVec 32) (s : State) : Host.Outcome State Fault Refusal := .next (movk 0x0A 32 core lo.toNat s)
def execMovk48 (core : Nat) (lo : BitVec 32) (s : State) : Host.Outcome State Fault Refusal := .next (movk 0x0B 48 core lo.toNat s)

/-! ### Predicates (R176, Table 5-6) -/

def condOf (cond : Nat) (a b : BitVec 64) : Bool :=
  match cond with
  | 0 => a == b
  | 1 => a != b
  | 2 => decide (a.toInt < b.toInt)
  | 3 => decide (b.toInt ≤ a.toInt)
  | 4 => decide (a.toNat < b.toNat)
  | 5 => decide (b.toNat ≤ a.toNat)
  | 6 => (a &&& b) != 0#64
  | _ => (a &&& b) == 0#64

def setPGo (s : State) (core pd : Nat) (b : Bool) : PRes := .go (s.modCore core (fun c => setP c pd b)) 1

def doCmp (core lo : Nat) (s : State) : State :=
  runPy 0x0C core lo s (fun c =>
    if fld lo 17 2 ≠ 0 ∨ fld lo 3 4 ≠ 0 then illegal 0x0C lo
    else setPGo s core (fld lo 19 3) (condOf (fld lo 0 3) (getR c (fRs1 lo)) (getR c (fRs2 lo))))

def execCmp (core : Nat) (lo : BitVec 32) (s : State) : Host.Outcome State Fault Refusal := .next (doCmp core lo.toNat s)

def doCmpi (core lo : Nat) (s : State) : State :=
  runPy 0x0D core lo s (fun c =>
    setPGo s core (fld lo 19 3) (condOf (fld lo 16 3) (getR c (fld lo 11 5)) (imm 11 lo)))

def execCmpi (core : Nat) (lo : BitVec 32) (s : State) : Host.Outcome State Fault Refusal := .next (doCmpi core lo.toNat s)

def doPlog (core lo : Nat) (s : State) : State :=
  runPy 0x0E core lo s (fun c =>
    let a := getP c (fld lo 16 3)
    let b := getP c (fld lo 13 3)
    let f := fld lo 11 2
    if fld lo 0 11 ≠ 0 then illegal 0x0E lo
    else setPGo s core (fld lo 19 3) (if f = 0 then a && b else if f = 1 then a || b else if f = 2 then a != b else a && !b))

def execPlog (core : Nat) (lo : BitVec 32) (s : State) : Host.Outcome State Fault Refusal := .next (doPlog core lo.toNat s)

def doPmov (core lo : Nat) (s : State) : State :=
  runPy 0x0F core lo s (fun c =>
    if fld lo 0 16 ≠ 0 then illegal 0x0F lo
    else if bitAt lo 16 then .go (s.modCore core (fun c => { c with preds := fld (getR c (fRd lo)).toNat 1 7 * 2 })) 1
    else setGo s core (fRd lo) (BitVec.ofNat 64 (fld c.preds 1 7 * 2 + 1)) 1)

def execPmov (core : Nat) (lo : BitVec 32) (s : State) : Host.Outcome State Fault Refusal := .next (doPmov core lo.toNat s)

/-! ### Loads and stores (R181 to R188) -/

/-- A loaded value of n bytes, extended. -/
def extend (n : Nat) (signed : Bool) (v : Nat) : BitVec 64 :=
  if signed then BitVec.ofInt 64 (sxt (8 * n) v) else BitVec.ofNat 64 (v % 2 ^ (8 * n))

/-- Latency of a local load (Table 5-8). -/
def localLatency (core a n : Nat) : Nat := match place core a n with | .im _ => 3 | .pdm _ => 2 | _ => 6

/-- Address of format M: base plus signed offset. -/
def mAddr (c : Core) (lo : Nat) : Nat := (getR c (fRs1 lo) + imm 12 lo).toNat

/-- A load (R183): from IM, PDM or TSM at once; from further away the core blocks until its data returns. -/
def doLoad (op n : Nat) (signed : Bool) (core lo : Nat) (s : State) : State :=
  runPy op core lo s (fun c =>
    let a := mAddr c lo
    match accessFault s core a n false with
    | some code => .exc code a
    | none => match place core a n with
      | .reg o => if regOff s o then .stay (s.modCore core (fun c => { c with act := .stuck a s.vcycle }))
        else .stay (s.modCore core (fun c => { c with act := .loading (fRd lo) n signed a s.vcycle }))
      | .stack _ => .stay (s.modCore core (fun c => { c with act := .loading (fRd lo) n signed a s.vcycle }))
      | .host f b => .stay (emit (s.modCore core (fun c => { c with act := .loading (fRd lo) n signed a s.vcycle })) (.hostRead f b n))
      | _ => setGo s core (fRd lo) (extend n signed (leNat (localRead s core a n))) (localLatency core a n))

def execLd8 (core : Nat) (lo : BitVec 32) (s : State) : Host.Outcome State Fault Refusal := .next (doLoad 0x10 1 false core lo.toNat s)
def execLd16 (core : Nat) (lo : BitVec 32) (s : State) : Host.Outcome State Fault Refusal := .next (doLoad 0x11 2 false core lo.toNat s)
def execLd32 (core : Nat) (lo : BitVec 32) (s : State) : Host.Outcome State Fault Refusal := .next (doLoad 0x12 4 false core lo.toNat s)
def execLd64 (core : Nat) (lo : BitVec 32) (s : State) : Host.Outcome State Fault Refusal := .next (doLoad 0x13 8 false core lo.toNat s)
def execLds8 (core : Nat) (lo : BitVec 32) (s : State) : Host.Outcome State Fault Refusal := .next (doLoad 0x14 1 true core lo.toNat s)
def execLds16 (core : Nat) (lo : BitVec 32) (s : State) : Host.Outcome State Fault Refusal := .next (doLoad 0x15 2 true core lo.toNat s)
def execLds32 (core : Nat) (lo : BitVec 32) (s : State) : Host.Outcome State Fault Refusal := .next (doLoad 0x16 4 true core lo.toNat s)

/-- Tile number of a control core's CTL tile (Table 6-3): the claimant of its stack accesses (R508). -/
def ctlTile (core : Nat) : Nat := if core < 16 then 30 else if core < 32 then 31 else if core < 48 then 72 else if core < 64 then 73 else 85

/-- A read that timed out or met a poisoned completion is logged in the function's AER registers and reported (R470,
R471). -/
def logTimeout (s : State) (r : Nat) : State := emit (s.modFn r (fun f => { f with aerTimeout := true })) (.advisory r 0)

/-- The stack access of a load waits in its channel, and nothing returns yet (R503, R509). -/
def loadWaits (s : State) (p : Place) : Bool := match p with | .stack b => accessWaits s b | _ => false

/-- A load beyond the tile returns (R187). -/
def doLoadReturn (core : Nat) (ret : LoadRet) (s : State) : State :=
  match (s.core core).act with
  | .loading rd n signed a since =>
    let give (s : State) (v cyc : Nat) : State :=
      s.modCore core (fun c => addCyc { setR c rd (extend n signed v) with pc := (c.pc + 4) % 2 ^ 64, act := .running } (max cyc (coreCycles core (s.vcycle - since))))
    let run (s : State) : State := s.modCore core (fun c => { c with act := .running })
    if loadWaits s (place core a n) then s
    else match place core a n, ret with
    | .stack b, .ok _ =>
      if lineBad s (b / 64 * 64) then raiseExc (run (uncorrectable s (b / 64 * 64) (ctlTile core))) core 0x08 a
      else give s (leNat (readStack s b n)) 400
    | .stack b, .uncorrectable => raiseExc (run (uncorrectable s (b / 64 * 64) (ctlTile core))) core 0x08 a
    | .host _ _, .ok v => give s v.toNat 1600
    | .host f _, .timeout => raiseExc (run (logTimeout s f)) core 0x09 a
    | .reg _, .ok v => give s v.toNat 40
    | _, _ => s
  | _ => s

def execLoadDataReturn (core : Nat) (ret : LoadRet) (s : State) : Host.Outcome State Fault Refusal :=
  .next (doLoadReturn core ret s)

/-- A store of a keeper to the vestibule's restart timer is a kick (R238). -/
def kick (s : State) (core o : Nat) : State :=
  if 64 ≤ core ∧ o = Config.kickReg then { s with fw := { s.fw with kickAt := s.vcycle } } else s

/-- A store (R183, R184): posted, and made at once where the path is free. -/
def doStore (op n core lo : Nat) (s : State) : State :=
  runPy op core lo s (fun c =>
    let a := mAddr c lo
    let bs := natLE n (getR c (fRd lo)).toNat
    match accessFault s core a n true with
    | some code => .exc code a
    | none => match place core a n with
      | .reg o => if regOff s o then .stay (s.modCore core (fun c => { c with act := .stuck a s.vcycle }))
        else .go (emit (kick s core o) (.tileReg core o n (leNat bs))) 1
      | .stack b => if storeBlocked s b then .stay (s.modCore core (fun c => { c with act := .storing a bs s.vcycle }))
        else .go (engineWrite s (ctlTile core) b bs).1 1
      | .host f b => .go (hostWrite s f b bs) 1
      | _ => .go (localStore s core a bs) 1)

def execSt8 (core : Nat) (lo : BitVec 32) (s : State) : Host.Outcome State Fault Refusal := .next (doStore 0x18 1 core lo.toNat s)
def execSt16 (core : Nat) (lo : BitVec 32) (s : State) : Host.Outcome State Fault Refusal := .next (doStore 0x19 2 core lo.toNat s)
def execSt32 (core : Nat) (lo : BitVec 32) (s : State) : Host.Outcome State Fault Refusal := .next (doStore 0x1A 4 core lo.toNat s)
def execSt64 (core : Nat) (lo : BitVec 32) (s : State) : Host.Outcome State Fault Refusal := .next (doStore 0x1B 8 core lo.toNat s)

/-- Stores that waited for a copy are made once nothing blocks them (R288, R505). -/
def wakeStores (s : State) : State :=
  (List.range 66).foldl (fun s core =>
    match (s.core core).act with
    | .storing a bs since =>
      if storeBlocked s (a - 2 ^ 63) then s
      else ((engineWrite s (ctlTile core) (a - 2 ^ 63) bs).1).modCore core (fun c =>
        addCyc { c with pc := (c.pc + 4) % 2 ^ 64, act := .running } (max 1 (coreCycles core (s.vcycle - since))))
    | _ => s) s

/-- Atomic compare-and-swap of 8 bytes in PDM or TSM (R185). -/
def doCas (core lo : Nat) (s : State) : State :=
  runPy 0x1C core lo s (fun c =>
    let a := (getR c (fRs1 lo)).toNat
    if fld lo 0 7 ≠ 0 then illegal 0x1C lo
    else if a % 8 ≠ 0 || !isLocal core a 8 || !regionOk core c a 8 0 || !regionOk core c a 8 1 then .exc 0x03 a
    else
      let old := BitVec.ofNat 64 (leNat (localRead s core a 8))
      let s1 := if old = getR c (fRd lo) then localStore s core a (natLE 8 (getR c (fRs2 lo)).toNat) else s
      setGo s1 core (fRd lo) old (localLatency core a 8))

def execCas (core : Nat) (lo : BitVec 32) (s : State) : Host.Outcome State Fault Refusal := .next (doCas core lo.toNat s)

/-- FENCE (R184): an earlier store either has taken effect or holds its core back until it has, so it only passes. -/
def doFence (core lo : Nat) (s : State) : State :=
  runPy 0x1D core lo s (fun _ => if fld lo 1 21 ≠ 0 then illegal 0x1D lo else .go s 1)

def execFence (core : Nat) (lo : BitVec 32) (s : State) : Host.Outcome State Fault Refusal := .next (doFence core lo.toNat s)

/-! ### Control flow (R170, R171, R179, R205) -/

/-- pc plus a signed number of words. -/
def pcWords (pc w lo : Nat) : Nat := ((pc : Int) + 4 * sxt w lo).toNat % 2 ^ 64
def pcPlus (pc : Nat) (k : Int) : Nat := (((pc : Int) + 4 * k) % 2 ^ 64).toNat

def execBr (core : Nat) (lo : BitVec 32) (s : State) : Host.Outcome State Fault Refusal :=
  .next (runPy 0x20 core lo.toNat s (fun c => .jump s (pcPlus c.pc (sxt 22 lo.toNat)) 2))

def doJr (core lo : Nat) (s : State) : State :=
  runPy 0x21 core lo s (fun c =>
    let t := (getR c (fRs1 lo)).toNat
    if fld lo 17 5 ≠ 0 ∨ fld lo 0 12 ≠ 0 then illegal 0x21 lo
    else if t % 4 ≠ 0 then .exc 0x04 t else .jump s t 2)

def execJr (core : Nat) (lo : BitVec 32) (s : State) : Host.Outcome State Fault Refusal := .next (doJr core lo.toNat s)

def execAdr (core : Nat) (lo : BitVec 32) (s : State) : Host.Outcome State Fault Refusal :=
  .next (runPy 0x22 core lo.toNat s (fun c => setGo s core (fRd lo.toNat) (BitVec.ofNat 64 (pcPlus c.pc (sxt 17 lo.toNat))) 1))

/-- CALL, in the order of R170. -/
def doCall (core lo : Nat) (s : State) : State :=
  runPy 0x24 core lo s (fun c =>
    let t := (getR c (fRd lo)).toNat
    if bitAt lo 16 then illegal 0x24 lo
    else if c.depth = 65535 then .exc 0x06 c.spillPtr
    else if t % 4 ≠ 0 ∨ fetchOk core c t = false then .exc 0x04 t
    else
      let spilled := decide (c.resident = 31)
      match (if spilled then spill core s (c.depth - 30) (c.spillLimit - 136) else some s) with
      | none => .exc 0x05 c.spillPtr
      | some s1 =>
        let n := (maskRegs (mget c.maskOf (c.depth - 30) 0)).length
        .jump (s1.modCore core (fun k =>
          let k1 := clearFrame { k with maskOf := mset k.maskOf k.depth (fld lo 0 16) 0 } (k.depth + 1)
          setR { k1 with depth := k.depth + 1, resident := min (k.resident + 1) 31 } 23 (BitVec.ofNat 64 (c.pc + 4)))) t
          (if spilled then n + 3 else 2))

def execCall (core : Nat) (lo : BitVec 32) (s : State) : Host.Outcome State Fault Refusal := .next (doCall core lo.toNat s)

/-- Leave the current frame for the one below, filling it when it is not resident (R171): `none` for WINDOW_FAULT. -/
def leaveFrame (core : Nat) (s : State) : Option (State × Nat) :=
  let c := s.core core
  if c.depth = 0 then none
  else
    match (if c.resident = 1 then fill core s (c.depth - 1) else some (s, 0)) with
    | none => none
    | some (s1, n) =>
      some (s1.modCore core (fun k => { clearFrame k k.depth with depth := k.depth - 1, resident := if k.resident = 1 then 1 else k.resident - 1 }),
        if c.resident = 1 then n + 5 else 2)

def doRet (core lo : Nat) (s : State) : State :=
  runPy 0x25 core lo s (fun c =>
    if fld lo 0 22 ≠ 0 then illegal 0x25 lo
    else match leaveFrame core s with
      | none => .exc 0x06 c.spillPtr
      | some (s1, n) => .jump s1 (getR c 23).toNat n)

def execRet (core : Nat) (lo : BitVec 32) (s : State) : Host.Outcome State Fault Refusal := .next (doRet core lo.toNat s)

/-- ERET: as RET, to EPC, and in_handler clears (R205). -/
def doEret (core lo : Nat) (s : State) : State :=
  runPy 0x26 core lo s (fun c =>
    if fld lo 0 22 ≠ 0 ∨ c.inHandler = false then illegal 0x26 lo
    else match leaveFrame core s with
      | none => .exc 0x06 c.spillPtr
      | some (s1, n) => .jump (s1.modCore core (fun k => { k with inHandler := false })) c.epc n)

def execEret (core : Nat) (lo : BitVec 32) (s : State) : Host.Outcome State Fault Refusal := .next (doEret core lo.toNat s)

def doTrap (core lo : Nat) (s : State) : State :=
  runPy 0x27 core lo s (fun _ => if fld lo 16 6 ≠ 0 then illegal 0x27 lo else .exc 0x0A (fld lo 0 16))

def execTrap (core : Nat) (lo : BitVec 32) (s : State) : Host.Outcome State Fault Refusal := .next (doTrap core lo.toNat s)

/-! ### STEP (R189) -/

def doStep (core lo : Nat) (s : State) : State :=
  runPy 0x30 core lo s (fun c =>
    let a := mAddr c lo
    if 64 ≤ core then illegal 0x30 lo
    else if a % 64 ≠ 0 then .exc 0x02 a
    else if !isLocal core a 64 || !regionOk core c a 64 0 then .exc 0x03 a
    else if 64 ≤ c.stepsOut then setGo s core (fRd lo) 0#64 8
    else setGo (postStep s core (BitVec.ofNat 512 (leNat (localRead s core a 64))))
      core (fRd lo) 1#64 8)

def execStep (core : Nat) (lo : BitVec 32) (s : State) : Host.Outcome State Fault Refusal := .next (doStep core lo.toNat s)

/-! ### WAIT (R191, R192) -/

/-- Sources pending, by bit (Table 5-9). -/
def pendingSrc (s : State) (core : Nat) : Nat :=
  let c := s.core core
  let watch := c.watchHit || leNat (localRead s core c.watchAddr 8) != c.watchVal
  b2n (!c.mbox.isEmpty) + b2n (!c.scq.isEmpty) * 2 + b2n watch * 4 + b2n (c.timerCmp != 0 && decide (c.timerCmp ≤ ptp s)) * 8

def watchOk (core : Nat) (c : Core) : Bool := c.watchAddr % 8 == 0 && isLocal core c.watchAddr 8

def doWait (core lo : Nat) (s : State) : State :=
  runPy 0x31 core lo s (fun c =>
    let sel := (getR c (fRs1 lo)).toNat
    let us := (getR c (fRs2 lo)).toNat % 2 ^ 32
    if fld lo 0 7 ≠ 0 ∨ 16 ≤ sel then illegal 0x31 lo
    else if bitAt sel 2 && !watchOk core c then .exc 0x03 c.watchAddr
    else
      let p := Nat.land (pendingSrc s core) sel
      if p ≠ 0 then setGo s core (fRd lo) (BitVec.ofNat 64 p) 1
      else if sel = 0 ∧ us = 0 then setGo s core (fRd lo) 0#64 1
      else .stay (s.modCore core (fun k => { k with act := .waiting (fRd lo) sel (if us = 0 then none else some (s.vcycle + us * usCycles)) s.vcycle })))

def execWait (core : Nat) (lo : BitVec 32) (s : State) : Host.Outcome State Fault Refusal := .next (doWait core lo.toNat s)

/-- A waiting core wakes: a selected source is pending, or becomes so with its timer, or the timeout ends the wait
(R192). -/
def doWake (core : Nat) (s : State) : State :=
  let c := s.core core
  match c.act with
  | .waiting rd sel until_ since =>
    let timer := if bitAt sel 3 && c.timerCmp != 0 then some (cycleOfPtp s c.timerCmp) else none
    let due := match timer, until_ with
      | some t, some u => some (min t u)
      | some t, none => some t
      | none, u => u
    let s1 := if Nat.land (pendingSrc s core) sel ≠ 0 then s else advanceTo s (due.getD s.vcycle)
    let p := Nat.land (pendingSrc s1 core) sel
    let timedOut := p == 0 && (match until_ with | some u => decide (u ≤ s1.vcycle) | none => false)
    if p = 0 ∧ timedOut = false then s1
    else s1.modCore core (fun k => addWait { setR k rd (BitVec.ofNat 64 (p + b2n timedOut * 2 ^ 15)) with pc := (k.pc + 4) % 2 ^ 64, act := .running }
      (coreCycles core (s1.vcycle - since)))
  | _ => s

def execWaitWake (core : Nat) (s : State) : Host.Outcome State Fault Refusal := .next (doWake core s)

/-! ### Lock registers (R194 to R196) -/

def State.lockReg (s : State) (n : Nat) : LockReg := mget s.fw.locks n {}
def State.modLock (s : State) (n : Nat) (f : LockReg → LockReg) : State :=
  { s with fw := { s.fw with locks := mset s.fw.locks n (f (s.lockReg n)) {} } }

def locksHeld (s : State) (core : Nat) : Nat := (s.fw.locks.filter (fun p => p.2.holder == some core)).length

/-- Cores that claim a lock in every cycle (LOCK with wait 1). -/
def lockClaims (s : State) (n : Nat) : List Nat :=
  (List.range 66).filter (fun k => match (s.core k).act with | .locking _ m _ => m == n | _ => false)

/-- A grant: the holder changes, the pointer moves past it, the broken mark is returned and cleared (R68, R196). -/
def grantLock (s : State) (n core : Nat) : State × BitVec 64 :=
  (s.modLock n (fun l => { l with holder := some core, broken := false, ptr := (core + 1) % 66 }),
   BitVec.ofNat 64 (1 + b2n (s.lockReg n).broken * 2))

/-- A core that claims in every cycle is granted the lock. -/
def wakeLock (s : State) (n core : Nat) : State :=
  match (s.core core).act with
  | .locking rd _ since =>
    let g := grantLock s n core
    g.1.modCore core (fun k => addWait { setR k rd g.2 with pc := (k.pc + 4) % 2 ^ 64, act := .running } (coreCycles core (s.vcycle - since)))
  | _ => s

/-- LOCK (R194, R195): every command of a lock falls in a lock-unit cycle of its own, after those of earlier commands (DESIGN
CHOICE, log 43), so that a release has always ended; cores that wait for the lock claim it in the same cycle. -/
def doLock (core lo : Nat) (s : State) : State :=
  runPy 0x32 core lo s (fun c =>
    let n := (getR c (fRs1 lo)).toNat
    let winner := if (s.lockReg n).holder.isSome then none else rotPick 66 (s.lockReg n).ptr (core :: lockClaims s n)
    if fld lo 1 11 ≠ 0 then illegal 0x32 lo
    else if 1023 < n ∨ (s.lockReg n).holder = some core ∨ 16 ≤ locksHeld s core then .exc 0x07 n
    else if winner = some core then
      let g := grantLock s n core
      setGo g.1 core (fRd lo) g.2 20
    else
      let s1 := match winner with | some k => wakeLock s n k | none => s
      if bitAt lo 0 then .stay (s1.modCore core (fun k => { k with act := .locking (fRd lo) n s.vcycle }))
      else setGo s1 core (fRd lo) (BitVec.ofNat 64 (b2n (s.lockReg n).broken * 2)) 20)

def execLock (core : Nat) (lo : BitVec 32) (s : State) : Host.Outcome State Fault Refusal := .next (doLock core lo.toNat s)

/-- The cycle after a release: a waiting claim is granted under the rotating pointer (R68, R195). -/
def doLockGrant (n : Nat) (s : State) : State :=
  if (s.lockReg n).holder.isSome then s
  else match rotPick 66 (s.lockReg n).ptr (lockClaims s n) with
    | none => s
    | some core => wakeLock s n core

def execLockGrant (lock : Nat) (s : State) : Host.Outcome State Fault Refusal := .next (doLockGrant lock s)

def doUnlock (core lo : Nat) (s : State) : State :=
  runPy 0x33 core lo s (fun c =>
    let n := (getR c (fRs1 lo)).toNat
    if fld lo 17 5 ≠ 0 ∨ fld lo 0 12 ≠ 0 then illegal 0x33 lo
    else if 1023 < n ∨ (s.lockReg n).holder ≠ some core then .exc 0x07 n
    else .go (s.modLock n (fun l => { l with holder := none })) 1)

def execUnlock (core : Nat) (lo : BitVec 32) (s : State) : Host.Outcome State Fault Refusal := .next (doUnlock core lo.toNat s)

/-- The lock units release every lock a stopped core holds and mark it broken (R196). -/
def breakLocks (s : State) (core : Nat) : State :=
  { s with fw := { s.fw with locks := s.fw.locks.map (fun p =>
      if p.2.holder = some core then (p.1, { p.2 with holder := none, broken := true }) else p) } }

/-! ### Alive counter and control registers (R190, R193, R197 to R199) -/

def doAlive (core lo : Nat) (s : State) : State :=
  runPy 0x34 core lo s (fun c =>
    if fld lo 1 16 ≠ 0 then illegal 0x34 lo
    else if bitAt lo 0 then
      let n := (c.alive + 1) % 2 ^ 32
      .go (s.modCore core (fun k => setR { k with alive := n, slack := 0 } (fRd lo) (BitVec.ofNat 64 n))) 1
    else setGo s core (fRd lo) (BitVec.ofNat 64 c.alive) 1)

def execAlive (core : Nat) (lo : BitVec 32) (s : State) : Host.Outcome State Fault Refusal := .next (doAlive core lo.toNat s)

/-- A mailbox entry (Table 5-10). -/
def mboxWord (m : Mbox) : Nat := m.index % 2 ^ 24 + m.kind % 2 ^ 8 * 2 ^ 24 + m.ring % 2 ^ 8 * 2 ^ 32 + m.fn % 2 ^ 11 * 2 ^ 40 + 2 ^ 63

/-- Value of a control register, and the core after the read where the read pops; none for a number not in the table
(Table 5-11). -/
def readCsr (s : State) (core csr : Nat) : Option (Nat × Core) :=
  let c := s.core core
  match csr with
  | 0x000 => some (core, c)
  | 0x001 => some (c.depth + c.resident * 2 ^ 16 + b2n c.inHandler * 2 ^ 21, c)
  | 0x002 => some (c.spillBase, c)
  | 0x003 => some (c.spillLimit, c)
  | 0x004 => some (c.spillPtr, c)
  | 0x008 => some (c.epc, c)
  | 0x009 => some (c.ecause, c)
  | 0x00A => some (c.eaddr, c)
  | 0x00B => some (c.evec, c)
  | 0x010 => some (c.cycle, c)
  | 0x011 => some (ptp s, c)
  | 0x012 => some (c.timerCmp, c)
  | 0x013 => some (c.watchAddr, c)
  | 0x014 => some (c.watchVal, c)
  | 0x018 => some (match c.scq with | [] => 2 ^ 64 - 1 | e :: _ => e.1, c)
  | 0x019 => some (match c.scq with | [] => (2 ^ 64 - 1, c) | e :: r => (e.2, { c with scq := r, stepsOut := c.stepsOut - 1 }))
  | 0x01A => some (match c.mbox with | [] => (0, c) | m :: r => (mboxWord m, { c with mbox := r }))
  | 0x01B => some (c.scq.length + c.mbox.length * 2 ^ 16, c)
  | 0x01C => some (c.alive, c)
  | _ => if 0x100 ≤ csr ∧ csr < 0x120 then some (mget c.regions (csr - 0x100) 0, c) else none

def doCsrr (core lo : Nat) (s : State) : State :=
  runPy 0x36 core lo s (fun _ =>
    if fld lo 12 5 ≠ 0 then illegal 0x36 lo
    else match readCsr s core (fld lo 0 12) with
      | none => illegal 0x36 lo
      | some (v, c') => .go (s.modCore core (fun _ => setR c' (fRd lo) (BitVec.ofNat 64 v))) 2)

def execCsrr (core : Nat) (lo : BitVec 32) (s : State) : Host.Outcome State Fault Refusal := .next (doCsrr core lo.toNat s)

/-- Reading SCQ_POP (R190): the CSRR of control register 0x019 with the command's destination and guard. -/
def execScqPop (core : Nat) (lo : BitVec 32) (s : State) : Host.Outcome State Fault Refusal :=
  .next (doCsrr core (setFld lo.toNat 0 17 0x019) s)

/-- Reading MBOX_POP (R193): the CSRR of control register 0x01A with the command's destination and guard. -/
def execMboxPop (core : Nat) (lo : BitVec 32) (s : State) : Host.Outcome State Fault Refusal :=
  .next (doCsrr core (setFld lo.toNat 0 17 0x01A) s)

def doCsrw (core lo : Nat) (s : State) : State :=
  runPy 0x37 core lo s (fun c =>
    let v := (getR c (fRd lo)).toNat
    let put (f : Core → Core) : PRes := .go (s.modCore core f) 2
    if fld lo 12 5 ≠ 0 then illegal 0x37 lo
    else match fld lo 0 12 with
      | 0x008 => put (fun k => { k with epc := v })
      | 0x012 => put (fun k => { k with timerCmp := v })
      | 0x013 => put (fun k => { k with watchAddr := v })
      | 0x014 => put (fun k => { k with watchVal := v, watchHit := false })
      | _ => illegal 0x37 lo)

/-- Control registers that only keepers write (Table 5-11). -/
def keeperOnly (csr : Nat) : Bool := csr == 0x002 || csr == 0x003 || csr == 0x00B || (decide (0x100 ≤ csr) && decide (csr < 0x120))

/-- A keeper that runs writes a keeper-only control register of a control core (R167, R186, R198); reserved bits stay zero. -/
def doKeeperCsr (k core csr width v : Nat) (s : State) : State :=
  let up := decide (64 ≤ k) && decide (k < 66) && lget s.fw.dkUp (k - 64) false && (s.core k).act != .stopped
  if !up || decide (64 ≤ core) || !keeperOnly csr || width != 8 then s
  else s.modCore core (fun c =>
    if csr = 0x002 then { c with spillBase := v / 8 * 8 }
    else if csr = 0x003 then { c with spillLimit := v }
    else if csr = 0x00B then { c with evec := v }
    else { c with regions := mset c.regions (csr - 0x100) (if csr % 2 = 0 then v / 4096 * 4096 + v % 16 else v / 4096 * 4096) 0 })

def execCsrw (core : Nat) (lo : BitVec 32) (s : State) : Host.Outcome State Fault Refusal := .next (doCsrw core lo.toNat s)

/-! ### The stuck-access watchdog (R207) -/

/-- An access has not completed 1 ms after it was issued: STUCK_ACCESS, which is fatal. -/
def doStuck (core : Nat) (s : State) : State :=
  let fire (a since : Nat) : State := raiseExc (advanceTo s (since + msCycles)) core 0x0E a
  match (s.core core).act with
  | .loading _ _ _ a since => fire a since
  | .storing a _ since => fire a since
  | .stuck a since => fire a since
  | _ => s

def execStuckAccess (core : Nat) (s : State) : Host.Outcome State Fault Refusal := .next (doStuck core s)

end Sys2Proof.Machine
end

