-- ==== Sys2Proof/Machine/Backend.lean ====
section
/-!
DEFINITION. Storage backends as other families meet them (13: R444 to R446): access, binding of queue pairs, and the
end of a backend's connection.
-/
namespace Sys2Proof.Machine

def State.modSto (s : State) (f : Sto → Sto) : State := { s with sto := f s.sto }
def State.modBack (s : State) (b : Nat) (f : Backend → Backend) : State :=
  s.modSto (fun x => { x with backends := omod x.backends b f })
def State.modNs (s : State) (n : Nat) (f : Namespace → Namespace) : State := s.modSto (fun x => { x with nss := omod x.nss n f })
def State.ctl (s : State) (c : Nat) : Ctrl := mget s.sto.ctrls c {}
def State.modCtl (s : State) (c : Nat) (f : Ctrl → Ctrl) : State :=
  s.modSto (fun x => { x with ctrls := mset x.ctrls c (f (s.ctl c)) {} })

/-- Mark that binds a queue pair to backend b; a binding below 0x10000 names a communicator. -/
def backMark (b : Nat) : Nat := 0x10000 + b

/-- The queue pairs bound under a mark are bound no longer. -/
def unbindMark (s : State) (m : Nat) : State :=
  { s with rdma := { s.rdma with qps := s.rdma.qps.map (fun p => if p.2.bound = some m then (p.1, { p.2 with bound := none }) else p) } }

/-- Bind queue pairs under a mark. -/
def bindMark (s : State) (ns : List Nat) (m : Nat) : State :=
  { s with rdma := { s.rdma with qps := s.rdma.qps.map (fun p => if ns.contains p.1 then (p.1, { p.2 with bound := some m }) else p) } }

/-- A tile would hold more than 1,024 bound contexts (R332). -/
def tooManyBound (s : State) (ns : List Nat) : Bool :=
  (List.range 16).any (fun t =>
    decide (1024 < (s.rdma.qps.filter (fun p => p.2.iface / 4 == t && (p.2.bound.isSome || ns.contains p.1))).length))

/-- The connection of a backend's queues fails: a backend being created is no more, one being rebound stays DOWN (R445). -/
def failConnect (s : State) (b status result : Nat) : State :=
  match oget s.sto.backends b with
  | none => s
  | some k =>
    match k.ref with
    | none => s
    | some ref =>
      let s1 := unbindMark s (backMark b)
      let s2 := if k.st = .connecting then s1.modSto (fun x => { x with backends := odel x.backends b })
        else s1.modBack b (fun k => { k with ref := none, qps := [] })
      finish s2 ref status result 0

/-- A bound queue pair of a backend enters ERROR, or Keep Alive fails: a READY backend is DOWN, with its commands
outstanding (R445, R446, R463). -/
def downBackend (s : State) (b : Nat) : State :=
  match oget s.sto.backends b with
  | none => s
  | some k =>
    if k.st = .ready then
      bothPf1.foldl (fun s r => postEventS s r 0x3001 b 0x09 (min 65535 k.cmds.length) 0) (s.modBack b (fun k => { k with st := .down }))
    else failConnect s b 0x85 0

end Sys2Proof.Machine
end

