-- ==== Sys2Proof/Machine/Space.lean ====
section
/-!
DEFINITION. Memory as ring commands name it (04: R145): stack memory, or host memory behind an endpoint. A virtual
function names its own host memory by either host space (DESIGN CHOICE, log 9).
-/
namespace Sys2Proof.Machine

/-- Space of an address: 0 stack, 1 host behind HP0, 2 host behind HP1, 3 reserved. -/
def spaceOf (a : Nat) : Nat := fld a 62 2

/-- The function whose host memory a host space names. -/
def hostOf (r a : Nat) : Nat := if isVf r then r else if spaceOf a = 1 then 4 else 5

/-- A host that answers no accesses: its function does not run, or an orphan set stands (R481). -/
def hostGone (s : State) (f : Nat) : Bool := !dmaOn (s.fn f) || (s.fn f).orphan.isSome

/-- Host memory that a function's running command cannot reach: its own while it does not run, another's as R481 has it. -/
def hostShut (s : State) (r f : Nat) : Bool := if f = r then !dmaOn (s.fn r) else hostGone s f

/-- Exactly `n` bytes of what the outside gave. -/
def fitB (bs : List Byte) (n : Nat) : List Byte := (bs ++ List.replicate (n - bs.length) 0#8).take n

/-- Read `n` bytes at an address for a function's command: state, status and bytes; `read` is what a host read answered. -/
def rdSpace (s : State) (r cl a n : Nat) (read : HRead) : State × Nat × List Byte :=
  if n = 0 then (s, 0, [])
  else if spaceOf a = 0 then engineRead s cl (fld a 0 62) n
  else if spaceOf a = 3 then (s, 0x06, [])
  else if hostShut s r (hostOf r a) then (s, 0x0B, [])
  else match read with
    | .ok bs => (s, 0, fitB bs n)
    | _ => (s, 0x03, [])

/-- Write bytes at an address for a function's command. -/
def wrSpace (s : State) (r cl a : Nat) (bs : List Byte) : State × Nat :=
  if bs.isEmpty then (s, 0)
  else if spaceOf a = 0 then engineWrite s cl (fld a 0 62) bs
  else if spaceOf a = 3 then (s, 0x06)
  else if hostShut s r (hostOf r a) then (s, 0x0B)
  else (hostWrite s (hostOf r a) (fld a 0 62) bs, 0)

/-- A read of the function's own host memory. -/
def rdHost (s : State) (r n : Nat) (read : HRead) : Nat × List Byte :=
  if !dmaOn (s.fn r) then (0x0B, [])
  else match read with
    | .ok bs => (0, fitB bs n)
    | _ => (0x03, [])

/-- Two ranges share a byte. -/
def overlap (a n b m : Nat) : Bool := n != 0 && m != 0 && decide (a < b + m) && decide (b < a + n)

/-- A stack range that software names is refused: it leaves stack space, or overlaps a reserved area or the staging area
of a communicator (R510). -/
def rangeRefused (s : State) (a n : Nat) : Bool :=
  decide (2 ^ 39 < a + n) || (List.range 8).any (fun k => overlap a n (k * 2 ^ 36) 0x27200000)
  || s.fw.comms.any (fun p => overlap a n p.2.stagingBase (p.2.stagingMib * 2 ^ 20))

end Sys2Proof.Machine
end

