-- ==== Sys2Proof/Machine/Kv.lean ====
section
/-!
DEFINITION. Serving state (07): classes, sequences, blocks and their tiers, tier-down encodings, eviction and copies,
the KV_TIERING ring, the KV set, and step plans.
-/
namespace Sys2Proof.Machine

def State.modKv (s : State) (f : Kv → Kv) : State := { s with kv := f s.kv }
def State.blk (s : State) (b : Nat) : Block := (oget s.kv.blocks b).getD {}
def State.modBlk (s : State) (b : Nat) (f : Block → Block) : State := s.modKv (fun k => { k with blocks := omod k.blocks b f })
def State.kcls (s : State) (c : Nat) : KvClass := (oget s.kv.classes c).getD {}
def State.pool (s : State) (n : Nat) : KvPool := mget s.kv.pools n {}
def State.modPool (s : State) (n : Nat) (f : KvPool → KvPool) : State :=
  s.modKv (fun k => { k with pools := mset k.pools n (f (mget k.pools n {})) {} })
def State.t0p (s : State) (p : Nat) : KvT0 := mget s.kv.t0 p {}
def State.modT0 (s : State) (p : Nat) (f : KvT0 → KvT0) : State :=
  s.modKv (fun k => { k with t0 := mset k.t0 p (f (mget k.t0 p {})) {} })
def State.plan (s : State) (n : Nat) : Option Plan := oget s.kv.plans n
def State.modPlan (s : State) (n : Nat) (f : Plan → Plan) : State := s.modKv (fun k => { k with plans := omod k.plans n f })

/-! ### Encodings (R245 to R248) -/

/-- Format of chapter 4 behind an MX encoding (Table 7-2). -/
def mxCode (enc : Nat) : Nat := if enc = 3 then 0x5 else if enc = 4 then 0x7 else 0x9
/-- Element bits of an encoding. -/
def encBits (enc : Nat) : Nat := if enc = 4 then 6 else if enc = 5 then 4 else 8
/-- Stored bytes of a block of S bytes (Table 7-2). -/
def storedBytes (enc sz : Nat) : Nat :=
  if enc = 1 then sz else if enc = 2 then sz / 2 else if enc = 3 then 33 * sz / 64 else if enc = 4 then 25 * sz / 64 else 17 * sz / 64

/-- A value times 2^k; what lies below the grid of 2^−149 is zero of its sign, far below what FP8 can round to. -/
def scaleFv (k : Int) (v : FV) : FV :=
  match v with
  | .fin a nz =>
    if 0 ≤ k then .fin (a * 2 ^ k.toNat) nz
    else
      let m := a.natAbs / 2 ^ (-k).toNat
      .fin (if a < 0 then -(m : Int) else m) (nz || (decide (a < 0) && m == 0))
  | x => x

/-- The BF16 elements of bytes. -/
def bf16s : Nat → List Byte → List FV
  | 0, _ => []
  | k + 1, bs => decodeElem 0x1 (leNat (bs.take 2)) 0 :: bf16s k (bs.drop 2)

/-- Groups of 32 values. -/
def groups32 : Nat → List FV → List (List FV)
  | 0, _ => []
  | k + 1, vs => vs.take 32 :: groups32 k (vs.drop 32)

/-- T0 bytes as a class stores them below, and the clamps that KV_SAT_COUNT counts (R246, R247). -/
def tierDown (c : KvClass) (bs : List Byte) : List Byte × Nat :=
  let vs := bf16s (bs.length / 2) bs
  if c.encoding = 1 then (bs, 0)
  else if c.encoding = 2 then
    let es := vs.map (fun v => encodeFp 0x3 true (scaleFv (-c.shift) v))
    (es.map (fun e => toBits8 e.1), (es.filter (·.2)).length)
  else
    let gs := (groups32 (vs.length / 32) vs).map (encodeGroup (mxCode c.encoding) true)
    (gs.flatMap (·.1) ++ gs.flatMap (fun g => g.2.1), gs.foldl (fun n g => n + g.2.2) 0)
where toBits8 (n : Nat) : Byte := BitVec.ofNat 8 n

/-- One value as BF16 bytes, clamped to the largest finite (R248). -/
def bf16Bytes (v : FV) : List Byte := natLE 2 (encodeFp 0x1 true v).1

/-- Decode `k` MX groups: element bytes and scales apart. -/
def mxGroups (code : Nat) : Nat → List Byte → List Byte → List FV
  | 0, _, _ => []
  | k + 1, es, ss => decodeGroup code (es.take (groupBytes code)) (lget ss 0 0#8).toNat ++ mxGroups code k (es.drop (groupBytes code)) (ss.drop 1)

/-- Stored bytes as T0 holds them (R248); `sz` is block_bytes. -/
def tierUp (c : KvClass) (sz : Nat) (bs : List Byte) : List Byte :=
  if c.encoding = 1 then bs
  else if c.encoding = 2 then bs.flatMap (fun b => bf16Bytes (scaleFv c.shift (decodeElem 0x3 b.toNat 0)))
  else
    let e := sz / 64 * groupBytes (mxCode c.encoding)
    (mxGroups (mxCode c.encoding) (sz / 64) (bs.take e) (bs.drop e)).flatMap bf16Bytes

/-! ### Slots of pools and of T0 (R252, R254) -/

/-- Lowest number below `n` not in use. -/
def lowestOf (used : List Nat) (n : Nat) : Option Nat :=
  (List.range (used.length + 1)).find? (fun i => decide (i < n) && !used.contains i)

/-- The pool a class names for a tier, where it names one. -/
def clsPool (c : KvClass) (tier : Nat) : Option Nat :=
  let n := if tier = 1 then c.t1 else if tier = 2 then c.t2 else if tier = 3 then c.t3 else 0x3F
  if n = 0x3F then none else some n

/-- Take the lowest free slot of a pool; without one POOL_FULL is posted, once until use falls to low_water (R254). -/
def takePool (s : State) (n : Nat) : State × Option Nat :=
  let p := s.pool n
  match lowestOf p.used p.slots with
  | some i => (s.modPool n (fun p => { p with used := i :: p.used }), some i)
  | none => (if p.fullPosted then s else postAll (s.modPool n (fun p => { p with fullPosted := true })) bothPf1 0x1402 n p.used.length, none)

def freePool (s : State) (n i : Nat) : State :=
  s.modPool n (fun p =>
    let u := p.used.filter (· != i)
    { p with used := u, fullPosted := p.fullPosted && decide (p.low * p.slots < 100 * u.length) })

/-- Sequences that hold a block, with its logical index in each. -/
def holders (s : State) (b : Nat) : List (Nat × Seq × Nat) :=
  s.kv.seqs.filterMap (fun q => (q.2.blocks.idxOf? b).map (fun i => (q.1, q.2, i)))

/-- Write one value into every table entry that names a block (R250, R254); class PUSH is egress class 2. -/
def writeEntries (s : State) (eng : Eng) (b v : Nat) : State :=
  (holders s b).foldl (fun s h =>
    match targetAddr s h.2.1.port h.2.1.window (h.2.1.offset + 4 * h.2.2) 4 true with
    | some a => engineWrites s h.2.1.port 2 eng a (natLE 4 v)
    | none => s) s

def noEntry : Nat := 0xFFFFFFFF

/-- The block stays in T0 while a pin of a sequence or a plan holds it (R255). -/
def pinned0 (s : State) (b : Nat) : Bool :=
  s.kv.seqs.any (fun q => q.2.pins0.contains b) || s.kv.plans.any (fun p => p.2.pins.contains b)
def pinned1 (s : State) (b : Nat) : Bool := s.kv.seqs.any (fun q => q.2.pins1.contains b)
def inPlan (s : State) (b : Nat) : Bool := s.kv.plans.any (fun p => p.2.pins.contains b)

/-- A take holds a block's copy in a tier (R291). -/
def held (s : State) (b tier : Nat) : Bool :=
  [0, 1].any (fun ep => match (s.ckpt ep).take with
    | some t => t.holds.contains (b, tier)
    | none => false)
def heldAny (s : State) (b : Nat) : Bool := [0, 1, 2, 3].any (held s b)

/-- A block whose T0 slot may be taken (Table 7-4, R291). -/
def evictable0 (s : State) (p : Nat) (q : Nat × Block) : Bool :=
  q.2.port == p && q.2.st == .sealed_ && q.2.t0Valid && q.2.t0.isSome && !q.2.valid.isEmpty && !pinned0 s q.1
  && !s.kv.copies.any (fun c => c.block == q.1 && c.from_ == 0) && !held s q.1 0

/-- Least recently used of some blocks. -/
def lruOf : List (Nat × Block) → Option (Nat × Block)
  | [] => none
  | b :: r => match lruOf r with
    | none => some b
    | some c => if b.2.lru ≤ c.2.lru then some b else some c

/-- A block leaves T0 (R254). -/
def leaveT0 (s : State) (b : Nat) : State :=
  let k := s.blk b
  match k.t0 with
  | none => s
  | some i =>
    let s1 := writeEntries s .record b noEntry
    (s1.modT0 k.port (fun t => { t with used := t.used.filter (· != i) })).modBlk b (fun k => { k with t0 := none, t0Valid := false, growing := false })

/-- Take a T0 slot of a port, evicting where needed (R252, R254). -/
def takeT0 (s : State) (p : Nat) : State × Option Nat :=
  let grab (s : State) : State × Option Nat :=
    match lowestOf (s.t0p p).used (s.t0p p).slots with
    | some i => (s.modT0 p (fun t => { t with used := i :: t.used }), some i)
    | none => (s, none)
  match grab s with
  | (s', some i) => (s', some i)
  | (_, none) =>
    match lruOf (s.kv.blocks.filter (evictable0 s p)) with
    | none => (s, none)
    | some q => grab ((leaveT0 s q.1).modKv (fun k => { k with evicted := satAdd 32 k.evicted 1 }))

/-- T0 slots that could be had: free ones and those of evictable blocks outside a list (R269). -/
def t0Avail (s : State) (p : Nat) (except : List Nat) : Nat :=
  (s.t0p p).slots - (s.t0p p).used.length + (s.kv.blocks.filter (fun q => evictable0 s p q && !except.contains q.1)).length

/-- Mark a use of a block (R254). -/
def touch (s : State) (b : Nat) : State :=
  (s.modKv (fun k => { k with clock := k.clock + 1 })).modBlk b (fun k => { k with lru := s.kv.clock + 1 })

/-- The block's T0 slot holds it. -/
def inT0 (k : Block) : Bool := k.t0Valid || k.growing

/-! ### Data of a tier -/

def blockBytes (c : KvClass) : Nat := 2 ^ c.blockLog2

/-- Address of a slot of a pool: under R145 for T1 and T2, first logical block for T3. -/
def slotAddr (p : KvPool) (i : Nat) : Nat := if p.kind = 3 then p.base + i * p.slot4k else p.base + i * p.slot4k * 4096

/-- Begin reading a block's copy in a tier (stack memory is read as the data is taken). -/
def beginRead (s : State) (b tier : Nat) : State :=
  let k := s.blk b
  let n := storedBytes k.kc.encoding (blockBytes k.kc)
  if tier = 0 then
    match targetAddr s k.port (s.t0p k.port).window ((s.t0p k.port).base + k.t0.getD 0 * 2 ^ (s.t0p k.port).slotLog2) (blockBytes k.kc) false with
    | some a => engineRead_ s k.port a (blockBytes k.kc)
    | none => s
  else match clsPool k.kc tier with
    | none => s
    | some pn =>
      let a := slotAddr (s.pool pn) (mget k.slots tier 0)
      if tier = 2 then emit s (.hostRead (hostOf 4 a) (fld a 0 62) n)
      else if tier = 3 && (oget s.sto.backends (s.pool pn).backend).any (·.remote) then emit s (.backendRead (s.pool pn).backend a n) else s

/-- MOV tiles in service that serve a port: those of its die (R270), those of the other die where it has none. -/
def movTiles (s : State) (p : Nat) : List Nat :=
  let on (lo : Nat) : List Nat := ((List.range 8).map (lo + ·)).filter (inService s)
  let own := on (if p < 4 then 8 else 50)
  if own.isEmpty then on (if p < 4 then 50 else 8) else own

/-- The MOV tile of a port's work number j (R270). -/
def movTile (s : State) (p j : Nat) : Nat :=
  let ts := movTiles s p
  lget ts (j % ts.length) (if p < 4 then 8 else 50)

/-- STO tile that reaches a T3 pool for a port: one of its die in service (Table 7-1). -/
def stoTileOf (s : State) (p : Nat) : Nat :=
  let lo := if p < 4 then 26 else 68
  (([0, 1, 2, 3].map (lo + ·)).find? (inService s)).getD lo

/-- Stack address of a logical block of a STACK backend; 0x09 for a block that does not exist (R443). -/
def stackBlock (s : State) (b lba bytes : Nat) : Option Nat :=
  match oget s.sto.backends b with
  | none => none
  | some k => if k.remote = false ∧ lba * 4096 + bytes ≤ k.blocks * 4096 then some (k.base + lba * 4096) else none
def isRemote (s : State) (b : Nat) : Bool := (oget s.sto.backends b).any (·.remote)

/-- Take a copy's data: from the stack, by the MOV tile `mov`, or what the outside answered. -/
def takeData (s : State) (mov b tier : Nat) (ext : ARead) : State × Nat × List Byte :=
  let k := s.blk b
  let n := if tier = 0 then blockBytes k.kc else storedBytes k.kc.encoding (blockBytes k.kc)
  let p := match clsPool k.kc tier with | some pn => s.pool pn | none => {}
  let a := slotAddr p (mget k.slots tier 0)
  if tier = 1 then engineRead s mov (fld a 0 62) n
  else if tier = 2 ∧ hostGone s (hostOf 4 a) then (s, 0x0B, [])
  else if tier = 3 ∧ isRemote s p.backend = false then
    match stackBlock s p.backend a n with
    | none => (s, 0x09, [])
    | some x => engineRead s (stoTileOf s k.port) x n
  else match ext with
    | .ok bs => (s, 0, fitB bs n)
    | .bad st => (s, st, [])

/-- Write stored bytes into a block's slot of a tier. -/
def putData (s : State) (b tier : Nat) (bs : List Byte) : State × Nat :=
  let k := s.blk b
  match clsPool k.kc tier with
  | none => (s, 0x07)
  | some pn =>
    let p := s.pool pn
    let a := slotAddr p (mget k.slots tier 0)
    if tier = 3 ∧ isRemote s p.backend = true then (emit s (.backendWrite p.backend a bs), 0)
    else if tier = 3 then
      match stackBlock s p.backend a bs.length with
      | none => (s, 0x09)
      | some x => engineWrite s (stoTileOf s k.port) x bs
    else if hostGone s (hostOf 4 a) && spaceOf a != 0 then (s, 0x0B) else wrSpace s 4 (movTile s k.port b) a bs

/-- A block's copy in a lower tier goes. -/
def leaveTier (s : State) (b tier : Nat) : State :=
  if tier = 0 then leaveT0 s b
  else
    let k := s.blk b
    match oget k.slots tier, clsPool k.kc tier with
    | some i, some pn => (freePool s pn i).modBlk b (fun k => { k with slots := odel k.slots tier, valid := k.valid.filter (· != tier) })
    | _, _ => s

/-! ### Copies (R253, R254, R262) -/

/-- Start a copy of a block into a tier, in a slot of the class's pool. -/
def startCopy (s : State) (b from_ to_ : Nat) (drop : List Nat) (dem : Option DRef) : State × Bool :=
  match clsPool (s.blk b).kc to_ with
  | none => (s, false)
  | some pn =>
    match takePool s pn with
    | (s1, none) => (s1, false)
    | (s1, some i) =>
      let s2 := (s1.modBlk b (fun k => { k with slots := oput k.slots to_ i, stalled := false })).modKv (fun k =>
        { k with copies := k.copies ++ [{ block := b, from_ := from_, to_ := to_, drop := drop, demote := dem }] })
      (beginRead s2 b from_, true)

/-- Copy a sealed block down into the first pool of its class that has a free slot; else it waits (R253). -/
def sealDown (s : State) (b : Nat) : State :=
  let r := [1, 2, 3].foldl (fun (p : State × Bool) t => if p.2 then p else startCopy p.1 b 0 t [] none) (s, false)
  if r.2 then r.1
  else if (s.blk b).stalled then r.1
  else
    let s1 := r.1.modBlk b (fun k => { k with stalled := true })
    postAll s1 bothPf1 0x1404 (s.blk b).port ((s1.kv.blocks.filter (fun q => q.2.stalled)).length)

/-- Blocks that waited are copied as slots free (R253). -/
def retryStalled (s : State) : State :=
  s.kv.blocks.foldl (fun s q =>
    let k := s.blk q.1
    let room := [1, 2, 3].any (fun t => match clsPool k.kc t with
      | some pn => (lowestOf (s.pool pn).used (s.pool pn).slots).isSome | none => false)
    if k.stalled && room then sealDown s q.1 else s) s

/-- Number of slots of a pool that running evictions will free. -/
def leaving (s : State) (n tier : Nat) : Nat :=
  (s.kv.copies.filter (fun c => c.drop.contains tier && clsPool (s.blk c.block).kc tier == some n)).length

/-- A block that may leave T1 or T2 (Table 7-4). -/
def evictableT (s : State) (n tier : Nat) (q : Nat × Block) : Bool :=
  q.2.st == .sealed_ && q.2.valid.contains tier && clsPool q.2.kc tier == some n
  && !(tier == 1 && pinned1 s q.1) && !s.kv.copies.any (fun c => c.block == q.1) && !held s q.1 tier

/-- Where a block that leaves T1 or T2 goes: the class's next pool that holds it already or has a slot for it (Table 7-4).
Answers whether it is on its way, or gone. -/
def sendLower (s : State) (b tier : Nat) : State × Bool :=
  ([2, 3].filter (fun t => decide (tier < t))).foldl (fun (p : State × Bool) t =>
    if p.2 then p
    else if (p.1.blk b).valid.contains t then (leaveTier p.1 b tier, true)
    else startCopy p.1 b tier t [tier] none) (s, false)

/-- Evict blocks of a pool until it is at or below low_water, as far as there are candidates (R254). -/
def evictSome (tier n : Nat) : Nat → List Nat → State → State
  | 0, _, s => s
  | k + 1, tried, s =>
    let p := s.pool n
    if 100 * (p.used.length - leaving s n tier) ≤ p.low * p.slots then s
    else match lruOf (s.kv.blocks.filter (fun q => evictableT s n tier q && !tried.contains q.1)) with
      | none => s
      | some q => evictSome tier n k (q.1 :: tried) (sendLower s q.1 tier).1

/-- Eviction from a pool begins above high_water and goes on, whenever there are candidates, until use is at or below
low_water (R254). -/
def settlePool (s : State) (n : Nat) : State :=
  let p := s.pool n
  let above (m : Nat) : Bool := decide (m * p.slots < 100 * p.used.length)
  if (p.kind == 1 || p.kind == 2) && above p.low && (p.evicting || above p.high) then
    let s1 := evictSome p.kind n s.kv.blocks.length [] s
    s1.modPool n (fun q => { q with evicting := decide (q.low * q.slots < 100 * q.used.length) })
  else if p.evicting then s.modPool n (fun q => { q with evicting := false })
  else s

/-- One block of a SEQ_DEMOTE has ended: the command completes with its last (R262). -/
def demoteStep (s : State) (d : Option DRef) (moved : Bool) : State :=
  match d with
  | none => s
  | some ref =>
    let s1 := s.modKv (fun k => { k with demotes := k.demotes.map (fun x =>
      if x.ref = ref then { x with left := x.left - 1, moved := x.moved + b2n moved, skipped := x.skipped + b2n (!moved) } else x) })
    match s1.kv.demotes.find? (fun x => x.ref == ref) with
    | none => s1
    | some x =>
      if x.left ≠ 0 then s1
      else finish (s1.modKv (fun k => { k with demotes := k.demotes.filter (fun y => y.ref != ref) })) ref 0 (x.moved + x.skipped * 2 ^ 32) 0

/-- What a SEQ_DEMOTE does with one block now: it is skipped, has its copy already, has one under way, or waits for the end of
another copy or for a slot of the tier's pool (R262; DESIGN CHOICE, log 45). -/
inductive DemoteRes where
  | skip | moved | copying | wait
deriving DecidableEq, Repr

/-- The copies above a tier go, but for one that a take holds (R262, R291). -/
def dropHigher (s : State) (b : Nat) (ts : List Nat) : State := (ts.filter (fun t => !held s b t)).foldl (fun s t => leaveTier s b t) s

def demoteOne (tier : Nat) (ref : DRef) (s : State) (b : Nat) : State × DemoteRes :=
  let k := s.blk b
  let higher := (List.range tier).filter (fun t => if t = 0 then inT0 k else k.valid.contains t)
  if k.st ≠ .sealed_ ∨ pinned0 s b ∨ pinned1 s b ∨ (clsPool k.kc tier).isNone then (s, .skip)
  else if s.kv.copies.any (fun c => c.block == b) then (s, .wait)
  else if k.valid.contains tier then (dropHigher s b higher, .moved)
  else
    let from_ := if inT0 k then 0 else (([1, 2, 3].find? (fun t => k.valid.contains t)).getD 3)
    match startCopy s b from_ tier higher (some ref) with
    | (s', true) => (s', .copying)
    | (s', false) => (s', .wait)

/-- A block that a SEQ_DEMOTE has waiting is tried again. -/
def retryDemote (s : State) (ref : DRef) (b : Nat) : State :=
  match s.kv.demotes.find? (fun x => x.ref == ref && x.waiting.contains b) with
  | none => s
  | some x =>
    match demoteOne x.tier ref s b with
    | (s1, .wait) => s1
    | (s1, r) =>
      let s2 := s1.modKv (fun k => { k with demotes := k.demotes.map (fun y => if y.ref = ref then { y with waiting := y.waiting.filter (· != b) } else y) })
      if r = .copying then s2 else demoteStep s2 (some ref) (r == .moved)

/-- Put pools back within their marks, and serve blocks that wait for a slot. -/
def settlePools (s : State) : State :=
  let s1 := retryStalled ((List.range 32).foldl settlePool s)
  s1.kv.demotes.foldl (fun s x => x.waiting.foldl (fun s b => retryDemote s x.ref b) s) s1

/-- No sequence holds the block: all its copies are freed (R243), but for one that a take holds (R291); a SEQ_DEMOTE moves it
no more. -/
def freeBlock (s : State) (b : Nat) : State :=
  let gone := (s.kv.copies.filter (fun c => c.block == b)).filterMap (·.demote) ++ (s.kv.demotes.filter (fun x => x.waiting.contains b)).map (·.ref)
  let s1 := s.modKv (fun k => { k with copies := k.copies.filter (fun c => c.block != b), demotes := k.demotes.map (fun x => { x with waiting := x.waiting.filter (· != b) }) })
  let s2 := ([0, 1, 2, 3].filter (fun t => !held s b t)).foldl (fun s t => leaveTier s b t) s1
  gone.foldl (fun s d => demoteStep s (some d) false) (if heldAny s b then s2 else s2.modKv (fun k => { k with blocks := odel k.blocks b }))

/-- The last copy of a block could not be read (R257): BLOCK_LOST. -/
def loseBlock (s : State) (b pool : Nat) : State :=
  let s1 := (s.modBlk b (fun k => { k with st := .lost, stalled := false })).modKv (fun k => { k with lost := satAdd 32 k.lost 1 })
  match holders s b with
  | [] => s1
  | h :: _ => postEventS s1 h.2.1.own.fn 0x1403 pool 0x04 (h.1 + h.2.1.gen * 2 ^ 12 + h.2.2 * 2 ^ 32) 0

/-- A T1 copy was found uncorrectable: it is invalid; the block is LOST where no other copy is left (R257). -/
def badT1 (s : State) (b : Nat) : State :=
  let k := s.blk b
  let pn := (clsPool k.kc 1).getD 0
  let s1 := leaveTier s b 1
  if inT0 k ∨ (s1.blk b).valid ≠ [] then s1 else loseBlock s1 b pn

/-- A copy could not read its source. Where an uncorrectable T1 copy was to be demoted, the next tier that holds one is read
in its place (R257); else the copy ends, and a block that has none below T0 waits for one (R253). -/
def copyFailed (s : State) (c : Copy) (status : Nat) : State :=
  let bad1 := c.from_ = 1 ∧ status = 0x04
  let s1 := if bad1 then badT1 s c.block else s
  match (s1.blk c.block).valid.find? (fun t => t != c.to_), c.demote, decide bad1 with
  | some t, some _, true => beginRead (s1.modKv (fun k => { k with copies := k.copies ++ [{ c with from_ := t }] })) c.block t
  | _, _, _ =>
    let s2 := leaveTier s1 c.block c.to_
    let s3 := if c.from_ = 0 ∧ (s2.blk c.block).valid = [] then s2.modBlk c.block (fun k => { k with stalled := true }) else s2
    demoteStep s3 c.demote false

/-- A copy is complete (R253, R254, R262); `ext` is what a read outside the stacks gave, or the failure of the copy. A copy
that a pin has come to hold since stays, and the block counts as skipped (R255, R258). -/
def doCopyComplete (b : Nat) (ext : ARead) (s : State) : State :=
  match s.kv.copies.find? (fun c => c.block == b) with
  | none => s
  | some c =>
    let k := s.blk b
    let s0 := s.modKv (fun k => { k with copies := k.copies.filter (fun x => x != c) })
    let p := takeData s0 (movTile s0 k.port b) b c.from_ ext
    if p.2.1 ≠ 0 then settlePools (copyFailed p.1 c p.2.1)
    else
      let e := if c.from_ = 0 then tierDown k.kc p.2.2 else (p.2.2, 0)
      let w := putData p.1 b c.to_ e.1
      if w.2 ≠ 0 then settlePools (demoteStep (leaveTier w.1 b c.to_) c.demote false)
      else
        let s1 := (w.1.modBlk b (fun k => { k with valid := (c.to_ :: k.valid) })).modKv (fun k => { k with sat := satAdd 32 k.sat e.2 })
        let stays (t : Nat) : Bool := (t == 0 && pinned0 s1 b) || (t == 1 && pinned1 s1 b)
        settlePools (demoteStep (dropHigher s1 b (c.drop.filter (fun t => !stays t))) c.demote (!c.drop.any stays))

def execBlockCopyComplete (block : Nat) (ext : ARead) (s : State) : Host.Outcome State Fault Refusal :=
  .next (doCopyComplete block ext s)

/-! ### Classes and sequences (R249 to R264) -/

/-- CLASS_SET (R252, R263, R264). -/
def classSet (r d : Nat) (s : State) : CmdRes :=
  let n := fld d 64 6
  let c : KvClass := { encoding := fld d 70 4, raw := bitAt d 74, blockLog2 := fld d 75 5, t1 := fld d 80 6, t2 := fld d 86 6, t3 := fld d 92 6, shift := sxt 6 (fld d 98 6), promote := bitAt d 104 }
  let poolOk (t : Nat) : Bool := match clsPool c t with
    | none => true
    | some pn => decide (pn < 32) && (s.pool pn).kind == t && s.kv.committed && decide (storedBytes c.encoding (blockBytes c) ≤ (s.pool pn).slot4k * 4096)
  if isVf r then bad s 0x0E
  else if s.kv.seqs.any (fun q => q.2.cls == n) then bad s 0x82
  else if c.encoding = 0 ∨ 5 < c.encoding ∨ (c.raw ∧ c.encoding ≠ 1) ∨ (c.shift ≠ 0 ∧ c.encoding ≠ 2) ∨ c.blockLog2 < 14 ∨ 20 < c.blockLog2
      ∨ !([1, 2, 3].all poolOk) ∨ [1, 2, 3].all (fun t => (clsPool c t).isNone) then bad s 0x06
  else exclusive s r 0x14 n (fld d 70 35) (fun s => ok0 (s.modKv (fun k => { k with classes := oput k.classes n c })))

def execClassSet (fn ring : Nat) (s : State) : Host.Outcome State Fault Refusal :=
  .next (inRankOrder fn ring (fun s => onDesc s fn ring 0x14 0x01 (fun d _ s => classSet fn d s)) s)

def handleOf (ix gen : Nat) : Nat := ix + gen % 256 * 2 ^ 12
/-- The open sequence a handle names (R249). -/
def seqOfHandle (s : State) (h : Nat) : Option (Nat × Seq) :=
  match oget s.kv.seqs (fld h 0 12) with
  | some q => if q.gen = fld h 12 8 then some (fld h 0 12, q) else none
  | none => none

/-- Run a command on the sequence its handle names, of this function (R249). -/
def withSeq (s : State) (r d : Nat) (act : Nat → Seq → CmdRes) : CmdRes :=
  match seqOfHandle s (fld d 64 20) with
  | none => bad s 0x80
  | some (ix, q) => if owns s r q.own then act ix q else bad s 0x02

def State.modSeq (s : State) (ix : Nat) (f : Seq → Seq) : State := s.modKv (fun k => { k with seqs := omod k.seqs ix f })

def argA (d : Nat) : Nat := fld d 96 32
def argB (d : Nat) : Nat := fld d 128 32
/-- Count of a range, "to the end" resolved (R261). -/
def rangeCount (q : Seq) (first count : Nat) : Nat := if count = 0xFFFFFFFF then q.blocks.length - first else count

/-- Sequences a VF may still open (R486). -/
def seqQuota (s : State) (r : Nat) : Bool :=
  !isVf r || decide ((s.kv.seqs.filter (fun p => p.2.own.fn == r)).length < fld (s.fn r).quotaB.toNat 0 13)

/-- Blocks of a new sequence that a plan is pushing now: their entries in its table are among the WRITEs that each block waits
for (R271). -/
def pushedEntries (q : Seq) (a : Nat) (s : State) : State :=
  (List.range q.blocks.length).foldl (fun s i =>
    let b := lget q.blocks i 0
    match s.kv.plans.find? (fun p => p.2.moves.any (fun m => m.block == b && m.st == .pushing)) with
    | none => s
    | some p => engineWrites s q.port 2 (.push p.1 b) (a + 4 * i) (natLE 4 ((s.blk b).t0.getD noEntry))) s

/-- Open a sequence with its blocks; it completes once its table is written (R249, R250). -/
def openSeq (s : State) (ref : DRef) (q : Seq) : CmdRes :=
  match lowestFree s.kv.seqs 0 4096 with
  | none => bad s 0x07
  | some ix =>
    let g := (mget s.kv.seqGen ix 0 + 1) % 256
    let tn := s.kv.nextTable
    let s1 := s.modKv (fun k => { k with seqs := oput k.seqs ix { q with gen := g }, seqGen := mset k.seqGen ix g 0, tables := oput k.tables tn (ref, handleOf ix g), nextTable := tn + 1 })
    let img := (List.range q.maxBlocks).flatMap (fun i =>
      natLE 4 (match q.blocks[i]? with
        | some b => let k := s.blk b; if inT0 k then k.t0.getD noEntry else noEntry
        | none => noEntry))
    match targetAddr s q.port q.window q.offset (4 * q.maxBlocks) true with
    | some a => later (pushedEntries q a (engineWrites s1 q.port 2 (.table tn) a img))
    | none => bad s 0x02

/-- Checks that SEQ_OPEN and SEQ_FORK share: the table's window and place, and the limits (R250, R251, R267). -/
def tableOk (s : State) (r p win off mx : Nat) : Nat :=
  if mx = 0 ∨ 262144 < mx ∨ off % 64 ≠ 0 then 0x06
  else if ownerOf s p ≠ pfOf r then 0x02
  else if (targetAddr s p win off (4 * mx) true).isNone then 0x02
  else if !seqQuota s r then 0x07
  else if !portUp (s.port p) then 0x0B else 0

/-- SEQ_OPEN (R250, R251). -/
def seqOpen (r d : Nat) (ref : DRef) (s : State) : CmdRes :=
  let c := fld d 168 6
  let p := fld d 164 3
  let t := s.t0p p
  if (oget s.kv.classes c).isNone ∨ !s.kv.committed ∨ !t.enable ∨ t.slotLog2 < (s.kcls c).blockLog2 then bad s 0x06
  else
    let st := tableOk s r p (fld d 160 4) (fld d 192 64) (fld d 256 19)
    if st ≠ 0 then bad s st
    else openSeq s ref { own := s.ownOf r, cls := c, port := p, window := fld d 160 4, offset := fld d 192 64, maxBlocks := fld d 256 19 }

def execSeqOpen (fn ring : Nat) (s : State) : Host.Outcome State Fault Refusal :=
  .next (onDesc s fn ring 0x14 0x02 (fun d ref s => seqOpen fn d ref s))

/-- SEQ_FORK (R262): the source's first blocks, all sealed, are shared. -/
def seqFork (r d : Nat) (ref : DRef) (s : State) : CmdRes :=
  withSeq s r d (fun _ q =>
    let n := argA d
    let mx := fld d 256 19
    if q.blocks.length < n ∨ mx < n then bad s 0x06
    else if (q.blocks.take n).any (fun b => (s.blk b).st == .fresh) then bad s 0x84
    else
      let st := tableOk s r q.port (fld d 160 4) (fld d 192 64) mx
      if st ≠ 0 then bad s st
      else openSeq s ref { own := s.ownOf r, cls := q.cls, port := q.port, window := fld d 160 4, offset := fld d 192 64, maxBlocks := mx, blocks := q.blocks.take n })

def execSeqFork (fn ring : Nat) (s : State) : Host.Outcome State Fault Refusal :=
  .next (onDesc s fn ring 0x14 0x03 (fun d ref s => seqFork fn d ref s))

/-- Drop the blocks of a sequence from an index on (R262). -/
def truncSeq (s : State) (ix n : Nat) : State :=
  match oget s.kv.seqs ix with
  | none => s
  | some q =>
    let gone := q.blocks.drop n
    let s1 := (List.range gone.length).foldl (fun s i =>
      match targetAddr s q.port q.window (q.offset + 4 * (n + i)) 4 true with
      | some a => engineWrites s q.port 2 .record a (natLE 4 noEntry)
      | none => s) s
    let s2 := s1.modSeq ix (fun q => { q with blocks := q.blocks.take n, pins0 := q.pins0.filter (fun b => !gone.contains b), pins1 := q.pins1.filter (fun b => !gone.contains b) })
    gone.foldl (fun s b => if (holders s b).isEmpty then freeBlock s b else s) s2

/-- SEQ_CLOSE (R262, R263). -/
def seqClose (r d : Nat) (s : State) : CmdRes :=
  withSeq s r d (fun ix q =>
    if q.blocks.any (inPlan s) then bad s 0x81
    else ok0 (settlePools ((truncSeq s ix 0).modKv (fun k => { k with seqs := odel k.seqs ix }))))

def execSeqClose (fn ring : Nat) (s : State) : Host.Outcome State Fault Refusal :=
  .next (onDesc s fn ring 0x14 0x04 (fun d _ s => seqClose fn d s))

/-- Append one FRESH block with a T0 slot to a sequence; its entry is pushed with the plan that grew it, or at once. It is
resident once the entry has left (R271). -/
def growOne (s : State) (ix : Nat) (now : Bool) : State × Option Nat :=
  match oget s.kv.seqs ix with
  | none => (s, none)
  | some q =>
    match takeT0 s q.port with
    | (s1, none) => (s1, none)
    | (s1, some i) =>
      let b := s1.kv.nextBlock
      let s2 := (s1.modKv (fun k => { k with nextBlock := b + 1, clock := k.clock + 1, blocks := oput k.blocks b { cls := q.cls, kc := s.kcls q.cls, port := q.port, t0 := some i, growing := true, lru := k.clock + 1 } })).modSeq ix
        (fun q => { q with blocks := q.blocks ++ [b] })
      (if now then writeEntries s2 (.entry b) b i else s2, some b)

def growMany (ix : Nat) (now : Bool) : Nat → State → List Nat → State × List Nat
  | 0, s, bs => (s, bs)
  | k + 1, s, bs => match growOne s ix now with
    | (s', some b) => growMany ix now k s' (bs ++ [b])
    | (s', none) => (s', bs)

/-- SEQ_GROW (R262, R267). -/
def seqGrow (r d : Nat) (s : State) : CmdRes :=
  withSeq s r d (fun ix q =>
    let n := argA d
    if n = 0 ∨ 4096 < n then bad s 0x06
    else if q.maxBlocks < q.blocks.length + n ∨ 2 ^ 27 < s.kv.blocks.length + n ∨ t0Avail s q.port [] < n then bad s 0x07
    else okR (settlePools (growMany ix true n s []).1) q.blocks.length)

def execSeqGrow (fn ring : Nat) (s : State) : Host.Outcome State Fault Refusal :=
  .next (onDesc s fn ring 0x14 0x05 (fun d _ s => seqGrow fn d s))

/-- SEQ_SEAL (R242, R253): every FRESH block below n is sealed and copied down. -/
def seqSeal (r d : Nat) (s : State) : CmdRes :=
  withSeq s r d (fun _ q =>
    let n := argA d
    if q.blocks.length < n then bad s 0x06
    else
      let fresh := (q.blocks.take n).filter (fun b => (s.blk b).st == .fresh)
      okR (settlePools (fresh.foldl (fun s b => sealDown (s.modBlk b (fun k => { k with st := .sealed_ })) b) s)) fresh.length)

def execSeqSeal (fn ring : Nat) (s : State) : Host.Outcome State Fault Refusal :=
  .next (onDesc s fn ring 0x14 0x06 (fun d _ s => seqSeal fn d s))

/-- SEQ_TRUNCATE (R262, R263). -/
def seqTruncate (r d : Nat) (s : State) : CmdRes :=
  withSeq s r d (fun ix q =>
    let n := argA d
    if q.blocks.length < n then bad s 0x06
    else if (q.blocks.drop n).any (inPlan s) then bad s 0x81
    else okR (settlePools (truncSeq s ix n)) (q.blocks.length - n))

def execSeqTruncate (fn ring : Nat) (s : State) : Host.Outcome State Fault Refusal :=
  .next (onDesc s fn ring 0x14 0x07 (fun d _ s => seqTruncate fn d s))

/-- SEQ_PIN (R255): this sequence's pins of a range, in T0 or T1. -/
def seqPin (r d : Nat) (s : State) : CmdRes :=
  withSeq s r d (fun ix q =>
    let first := argA d
    let n := rangeCount q first (argB d)
    let tier := fld d 174 2
    if q.blocks.length < first + n ∨ 1 < tier then bad s 0x06
    else
      let bs := (q.blocks.drop first).take n
      let cur := if tier = 0 then q.pins0 else q.pins1
      let new := if bitAt d 176 then cur.filter (fun b => !bs.contains b) else bs.filter (fun b => !cur.contains b) ++ cur
      let changed := (bs.filter (fun b => cur.contains b == bitAt d 176)).length
      okR (settlePools (s.modSeq ix (fun q => if tier = 0 then { q with pins0 := new } else { q with pins1 := new }))) changed)

def execSeqPin (fn ring : Nat) (s : State) : Host.Outcome State Fault Refusal :=
  .next (onDesc s fn ring 0x14 0x08 (fun d _ s => seqPin fn d s))

/-- One block of a SEQ_DEMOTE, and what became of it (R262). -/
def demoteNext (tier : Nat) (p : State × Demote) (b : Nat) : State × Demote :=
  match demoteOne tier p.2.ref p.1 b with
  | (t, .skip) => (t, { p.2 with skipped := p.2.skipped + 1 })
  | (t, .moved) => (t, { p.2 with moved := p.2.moved + 1 })
  | (t, .copying) => (t, { p.2 with left := p.2.left + 1 })
  | (t, .wait) => (t, { p.2 with left := p.2.left + 1, waiting := p.2.waiting ++ [b] })

/-- SEQ_DEMOTE (R262, R263): it completes when each of its blocks has been moved or skipped. -/
def seqDemote (r d : Nat) (ref : DRef) (s : State) : CmdRes :=
  withSeq s r d (fun _ q =>
    let first := argA d
    let n := rangeCount q first (argB d)
    let tier := fld d 174 2
    let bs := (q.blocks.drop first).take n
    if q.blocks.length < first + n ∨ tier = 0 then bad s 0x06
    else if bs.any (inPlan s) then bad s 0x81
    else
      let p := bs.foldl (demoteNext tier) (s, { ref := ref, tier := tier })
      if p.2.left = 0 then okR (settlePools p.1) (p.2.moved + p.2.skipped * 2 ^ 32)
      else later (settlePools (p.1.modKv (fun k => { k with demotes := k.demotes ++ [p.2] }))))

def execSeqDemote (fn ring : Nat) (s : State) : Host.Outcome State Fault Refusal :=
  .next (onDesc s fn ring 0x14 0x09 (fun d ref s => seqDemote fn d ref s))

/-- One byte of SEQ_QUERY (R262). -/
def queryByte (s : State) (b : Nat) : Byte :=
  let k := s.blk b
  BitVec.ofNat 8 (b2n (inT0 k) + b2n (k.valid.contains 1) * 2 + b2n (k.valid.contains 2) * 4 + b2n (k.valid.contains 3) * 8
    + b2n (k.st == .fresh) * 16 + b2n (k.st == .lost) * 32 + b2n (pinned0 s b || pinned1 s b) * 64)

def seqQuery (r d : Nat) (s : State) : CmdRes :=
  withSeq s r d (fun _ q =>
    let first := argA d
    let n := rangeCount q first (argB d)
    if q.blocks.length < first + n then bad s 0x06
    else okR (hostWrite s r (fld d 192 64) (((q.blocks.drop first).take n).map (queryByte s))) n)

def execSeqQuery (fn ring : Nat) (s : State) : Host.Outcome State Fault Refusal :=
  .next (onDesc s fn ring 0x14 0x0A (fun d _ s => seqQuery fn d s))

/-! ### Step plans (R268 to R276) -/

def moveActive (m : Move) : Bool := match m.st with
  | .reading _ => true | .staged _ => true | .pushing => true | _ => false
def residentOf (p : Plan) : Nat := (p.moves.filter (fun m => m.st == .resident)).length
def missingOf (p : Plan) : Nat := p.moves.length - residentOf p

/-- The ready record (R274). -/
def readyRecord (s : State) (n : Nat) : State :=
  match s.plan n with
  | none => s
  | some p =>
    let v := p.tag % 2 ^ 32 + p.status % 256 * 2 ^ 32 + b2n (p.st == .settled) * 2 ^ 40 + p.readyTime % 2 ^ 64 * 2 ^ 64
      + missingOf p % 2 ^ 32 * 2 ^ 128 + p.deadline % 2 ^ 64 * 2 ^ 192
    match targetAddr s p.port p.readyWindow p.readyOffset 64 true with
    | some a => engineWrites s p.port 2 .record a (natLE 64 v)
    | none => s

/-- One missing record (Table 7-12). -/
def missingRecord (m : Move) : List Byte :=
  let q := match m.st with
    | .reading t => (1, 0, t)
    | .staged _ => (2, 0, m.tier)
    | .pushing => (2, 0, m.tier)
    | .failed st t => (3, st, t)
    | .stopped t => (1, 0, t)
    | .resident => (0, 0, 0)
  natLE 16 (m.handle % 2 ^ 20 + q.1 * 2 ^ 20 + q.2.1 % 256 * 2 ^ 24 + m.logical % 2 ^ 32 * 2 ^ 32 + (if m.grown then 0 else q.2.2) % 4 * 2 ^ 64)

def missingList (s : State) (p : Plan) : State :=
  let ms := (p.moves.filter (fun m => m.st != .resident)).take p.reportMax
  if p.reportAddr = 0 ∨ ms.isEmpty ∨ owns s p.own.fn p.own = false then s else hostWrite s p.own.fn p.reportAddr (ms.flatMap missingRecord)

/-- A T0 slot taken for a block that will not become resident is given back, unless another plan still moves it. -/
def dropT0 (s : State) (b : Nat) : State :=
  let k := s.blk b
  if inT0 k || k.st == .fresh || s.kv.plans.any (fun p => p.2.moves.any (fun m => m.block == b && moveActive m)) then s
  else match k.t0 with
    | none => s
    | some i => (s.modT0 k.port (fun t => { t with used := t.used.filter (· != i) })).modBlk b (fun k => { k with t0 := none })

/-- Stop every move of a plan that is not complete (R273, R275); its WRITEs that have not begun to leave are taken back. -/
def stopMoves (s : State) (n : Nat) : State :=
  match s.plan n with
  | none => s
  | some p =>
    let bs := (p.moves.filter moveActive).map (·.block)
    let s1 := s.modPlan n (fun p => { p with moves := p.moves.map (fun m => if moveActive m then { m with st := .stopped m.tier } else m) })
    let stays (e : Egress) : Bool := match e.eng with | .push k _ => k != n || e.sent != 0 | _ => true
    let s2 := s1.modPort p.port (fun a => { a with egress := a.egress.filter stays, engq := a.engq.filter stays })
    bs.foldl dropT0 s2

/-- The PLAN record of a plan that completes or settles (Table 18-5). -/
def planRecord (s : State) (n status : Nat) (settled : Bool) : State :=
  match s.plan n with
  | none => s
  | some p => feedPut s 0x11 p.port (p.tag % 2 ^ 32 + status % 2 ^ 8 * 2 ^ 32 + b2n settled * 2 ^ 40 + residentOf p % 2 ^ 32 * 2 ^ 64
      + missingOf p % 2 ^ 32 * 2 ^ 96 + p.deadline % 2 ^ 64 * 2 ^ 128 + p.readyTime % 2 ^ 64 * 2 ^ 192)

/-- A LATE or FAILED plan with nothing left to move settles (R273); one that has caught up has its ready time then (R271). -/
def checkSettle (s : State) (n : Nat) : State :=
  match s.plan n with
  | none => s
  | some p =>
    if (p.st == .late || p.st == .failed) && !p.moves.any moveActive then
      planRecord (postEvent (readyRecord (s.modPlan n (fun q => { q with st := .settled, readyTime := if missingOf p = 0 then ptp s else q.readyTime })) n) p.own.fn 0x1401 p.port (p.tag + missingOf p * 2 ^ 32)) n p.status true
    else s

/-- An accepted plan completes (R272): missing list, ready record, completion. -/
def completePlan (s : State) (n : Nat) (st : PlanSt) (status time : Nat) : State :=
  match s.plan n with
  | none => s
  | some p =>
    let s1 := s.modPlan n (fun p => { p with st := st, status := status, readyTime := time })
    let s2 := readyRecord (if status = 0 then s1 else missingList s1 p) n
    let s3 := planRecord (finish s2 p.ref status (residentOf p % 2 ^ 32 + missingOf p * 2 ^ 32) time) n status false
    let s4 := if status = 0x0C then s3.modKv (fun k => { k with late := satAdd 32 k.late 1 }) else s3
    checkSettle (if status ≠ 0 ∧ p.abandon then stopMoves s4 n else s4) n

/-- The deadline has passed with blocks missing (R272). -/
def lateNow (s : State) (n : Nat) : State :=
  match s.plan n with
  | none => s
  | some p => if p.st == .pending && decide (p.deadline < ptp s) then completePlan s n .late 0x0C 0 else s

/-- A move fails (R257, R272, R273); a deadline that has passed before makes its plan LATE first. -/
def failMove (s : State) (n b status : Nat) : State :=
  let s1 := (lateNow s n).modPlan n (fun p => { p with moves := p.moves.map (fun m => if m.block = b ∧ moveActive m then { m with st := .failed status m.tier } else m) })
  let s2 := dropT0 s1 b
  match s2.plan n with
  | none => s2
  | some p => if p.st = .pending then completePlan s2 n .failed status 0 else checkSettle s2 n

/-- The next staged block of a port: of the plan with the earliest deadline, ties in acceptance order (R270). -/
def nextStaged (s : State) (p : Nat) : Option (Nat × Move) :=
  let staged (q : Plan) : Option Move := q.moves.find? (fun m => match m.st with | .staged _ => true | _ => false)
  s.kv.plans.foldl (fun best q =>
    if q.2.port ≠ p then best
    else match staged q.2 with
      | none => best
      | some m => match best with
        | none => some (q.1, m)
        | some b => match s.plan b.1 with
          | some pb => if q.2.deadline < pb.deadline then some (q.1, m) else best
          | none => best) none

def pushInEgress (s : State) (p : Nat) : Bool :=
  (outgoing (s.port p)).any (fun e => match e.eng with | .push _ _ => true | _ => false)

/-- Hand the next staged block of a port to its egress, one block at a time: its data, then every table entry that names
it (R270, R271); a block that cannot be sent fails, and the next one follows (R96, R99). -/
def pumpSome (p : Nat) : Nat → State → State
  | 0, s => s
  | fuel + 1, s =>
    if pushInEgress s p then s
    else match nextStaged s p with
      | none => s
      | some (n, m) =>
        let k := s.blk m.block
        let t := s.t0p p
        let slot := k.t0.getD 0
        let eng : Eng := .push n m.block
        let go (s : State) : State :=
          (writeEntries s eng m.block slot).modPlan n (fun q => { q with moves := q.moves.map (fun x => if x.block = m.block ∧ moveActive x then { x with st := .pushing } else x) })
        match m.st with
        | .staged data =>
          if !portUp (s.port p) then pumpSome p fuel (failMove s n m.block 0x0B)
          else if data.isEmpty then go s
          else match targetAddr s p t.window (t.base + slot * 2 ^ t.slotLog2) data.length true with
            | some a => go (engineWrites s p 2 eng a data)
            | none => pumpSome p fuel (failMove s n m.block 0x02)
        | _ => s

def pump (s : State) (p : Nat) : State :=
  pumpSome p (1 + (s.kv.plans.filter (fun q => q.2.port == p)).foldl (fun n q => n + q.2.moves.length) 0) s

/-- One entry of a plan, read from host memory (Table 7-11). -/
structure PlanEntry where
  handle : Nat := 0
  bad : Bool := false
  first : Nat := 0
  count : Nat := 0
  grow : Nat := 0
deriving DecidableEq, Repr

def planEntries : Nat → List Byte → List PlanEntry
  | 0, _ => []
  | k + 1, bs =>
    let v := leNat (bs.take 16)
    { handle := fld v 0 20, bad := fld v 20 12 != 0 || fld v 112 16 != 0, first := fld v 32 32, count := fld v 64 32, grow := fld v 96 16 }
      :: planEntries k (bs.drop 16)

/-- Check of one entry, with the grows that earlier entries of the plan give its sequence (R269). -/
def entryStatus (s : State) (r p : Nat) (grown : Nat) (e : PlanEntry) : Nat :=
  match seqOfHandle s e.handle with
  | none => 0x80
  | some (_, q) =>
    if !owns s r q.own then 0x02
    else if q.port ≠ p then 0x83
    else if e.bad ∨ 262144 < e.count ∨ 4096 < e.grow ∨ q.blocks.length < e.first + e.count then 0x06
    else if ((q.blocks.drop e.first).take e.count).any (fun b => (s.blk b).st == .lost) then 0x04
    else if q.maxBlocks < q.blocks.length + grown + e.grow then 0x07 else 0

/-- First entry that breaks a check: its status and index. -/
def firstBad (s : State) (r p : Nat) : Nat → NMap Nat → List PlanEntry → Option (Nat × Nat)
  | _, _, [] => none
  | i, g, e :: rest =>
    let ix := fld e.handle 0 12
    let st := entryStatus s r p (mget g ix 0) e
    if st ≠ 0 then some (st, i) else firstBad s r p (i + 1) (mset g ix (mget g ix 0 + e.grow) 0) rest

/-- Entries with the blocks that each is the first to name, in order, as block, handle and index (R269, R270). -/
def namedBlocks (s : State) : List Nat → List PlanEntry → List (PlanEntry × List (Nat × Nat × Nat))
  | _, [] => []
  | seen, e :: rest =>
    let mine := match seqOfHandle s e.handle with
      | none => []
      | some (_, q) => ((List.range e.count).filterMap (fun i => (q.blocks[e.first + i]?).map (fun b => (b, e.handle, e.first + i)))).filter (fun x => !seen.contains x.1)
    (e, mine) :: namedBlocks s (seen ++ mine.map (·.1)) rest

/-- Make one named block a move of its plan where it is not resident: a T0 slot is taken and its read begins (R270). A block
whose T0 slot holds it wants its table entry alone. -/
def startMove (n p : Nat) (s : State) (x : Nat × Nat × Nat) : State :=
  let s0 := touch s x.1
  let k := s0.blk x.1
  if k.t0Valid then s0
  else
    let s1 := match k.t0 with
      | some _ => s0
      | none => match takeT0 s0 p with
        | (s', some i) => s'.modBlk x.1 (fun k => { k with t0 := some i })
        | (s', none) => s'
    let tier := ([1, 2, 3].find? (fun t => k.valid.contains t)).getD 1
    let fresh := k.st == .fresh || k.growing
    let j := match s1.plan n with | some q => q.pins.idxOf x.1 | none => 0
    let m : Move := { block := x.1, handle := x.2.1, logical := x.2.2, grown := fresh, mov := movTile s1 p j, tier := if fresh then 0 else tier, st := if fresh then .staged [] else .reading tier }
    let s2 := s1.modPlan n (fun q => { q with moves := q.moves ++ [m] })
    if fresh then s2 else beginRead s2 x.1 tier

/-- Append the grown blocks of one entry as moves (R270). -/
def startGrow (n : Nat) (s : State) (e : PlanEntry) : State :=
  let ix := fld e.handle 0 12
  let len := match oget s.kv.seqs ix with | some q => q.blocks.length | none => 0
  let g := growMany ix false e.grow s []
  g.1.modPlan n (fun q => { q with pins := q.pins ++ g.2, moves := q.moves ++ (List.range g.2.length).map (fun i =>
    { block := lget g.2 i 0, handle := e.handle, logical := len + i, grown := true, mov := movTile s q.port (q.pins.length + i), tier := 0, st := .staged [] }) })

/-- PLAN_POST (R269 to R272). -/
def planPost (r d : Nat) (ref : DRef) (read : HRead) (s : State) : CmdRes :=
  let p := fld d 64 3
  let cnt := fld d 80 16
  let t := s.t0p p
  if ownerOf s p ≠ pfOf r then bad s 0x02
  else if !portUp (s.port p) then bad s 0x0B
  else if cnt = 0 ∨ 4096 < cnt ∨ fld d 192 4 ≠ 0 ∨ fld d 256 4 ≠ 0 ∨ (fld d 256 64 = 0 ∧ fld d 320 16 ≠ 0) ∨ fld d 384 6 ≠ 0
      ∨ !s.kv.committed ∨ !t.enable ∨ (targetAddr s p (fld d 336 4) (fld d 384 64) 64 true).isNone then bad s 0x06
  else if 16 ≤ (s.kv.plans.filter (fun q => q.2.port == p)).length then bad s 0x07
  else
    let h := rdHost s r (16 * cnt) read
    if h.1 ≠ 0 then bad s h.1
    else
      let es := planEntries cnt h.2
      match firstBad s r p 0 [] es with
      | some (st, i) => badR s st (if st = 0x07 then 0 else i)
      | none =>
        let grows := es.foldl (fun n e => n + e.grow) 0
        let named := namedBlocks s [] es
        let ids := named.flatMap (fun x => x.2.map (·.1))
        if 262144 < es.foldl (fun n e => n + e.count) 0 + grows then bad s 0x06
        else if t0Avail s p ids < (ids.filter (fun b => (s.blk b).t0.isNone)).length + grows ∨ 2 ^ 27 < s.kv.blocks.length + grows then bad s 0x07
        else
          let n := s.kv.nextPlan
          let pl : Plan := { ref := ref, own := s.ownOf r, tag := userTag d, port := p, abandon := bitAt d 67, deadline := fld d 128 64, hold := fld d 96 32, reportAddr := fld d 256 64, reportMax := fld d 320 16, readyWindow := fld d 336 4, readyOffset := fld d 384 64, pins := ids }
          let s1 := (unorder s ref).modKv (fun k => { k with plans := oput k.plans n pl, nextPlan := n + 1 })
          let s2 := named.foldl (fun s x => startGrow n (x.2.foldl (startMove n p) s) x.1) s1
          let done := (s2.plan n).all (fun q => q.moves.isEmpty)
          later (settlePools (if done then completePlan s2 n .ready 0 (ptp s2) else pump (lateNow (pump s2 p) n) p))

def execPlanPost (fn ring : Nat) (entries : HRead) (s : State) : Host.Outcome State Fault Refusal :=
  .next (onDesc s fn ring 0x14 0x10 (fun d ref s => planPost fn d ref entries s))

/-- A block read from T2 or T3 is written into the T1 pool as well, where its class says so and the pool is at or below
high_water (R256). -/
def promote (s : State) (b tier : Nat) (bs : List Byte) : State :=
  let k := s.blk b
  match clsPool k.kc 1 with
  | none => s
  | some pn =>
    let p := s.pool pn
    if k.kc.promote && tier != 1 && !k.valid.contains 1 && (oget k.slots 1).isNone && decide (100 * p.used.length ≤ p.high * p.slots) then
      match lowestOf p.used p.slots with
      | none => s
      | some i =>
        let w := putData ((s.modPool pn (fun q => { q with used := i :: q.used })).modBlk b (fun k => { k with slots := oput k.slots 1 i })) b 1 bs
        if w.2 = 0 then w.1.modBlk b (fun k => { k with valid := 1 :: k.valid }) else leaveTier w.1 b 1
    else s

/-- Data of a block that a plan reads has come to the MOV tile that moves it (R256, R257, R259). -/
def doBlockRead (n b : Nat) (ext : ARead) (s : State) : State :=
  match s.plan n with
  | none => s
  | some p =>
    match p.moves.find? (fun m => m.block == b) with
    | none => s
    | some m =>
      match m.st with
      | .reading tier =>
        let k := s.blk b
        let put (s : State) (st : MoveSt) : State := s.modPlan n (fun q => { q with moves := q.moves.map (fun x => if x.block = b then { x with tier := (match st with | .reading t => t | _ => x.tier), st := st } else x) })
        let next (s : State) : State := match [1, 2, 3].find? (fun t => (s.blk b).valid.contains t) with
          | some t => beginRead (put s (.reading t)) b t
          | none => failMove s n b 0x04
        let s1 :=
          if !k.valid.contains tier then next s
          else
            let r := takeData s m.mov b tier ext
            if tier = 1 ∧ r.2.1 = 0x04 then next (badT1 r.1 b)
            else if r.2.1 ≠ 0 then failMove r.1 n b r.2.1
            else promote (put r.1 (.staged (tierUp k.kc (blockBytes k.kc) r.2.2))) b tier r.2.2
        settlePools (pump s1 p.port)
      | _ => s

def execBlockReadReturn (plan block : Nat) (ext : ARead) (s : State) : Host.Outcome State Fault Refusal :=
  .next (doBlockRead plan block ext s)

/-- A plan whose last block has become resident is READY, or its lateness runs on (R272, R276). -/
def checkReady (s : State) (n : Nat) : State :=
  match s.plan n with
  | none => s
  | some p => if p.st == .pending && missingOf p == 0 then completePlan s n .ready 0 (ptp s) else checkSettle s n

/-- A WRITE of a plan's block still stands in a port's egress. -/
def stillPushing (s : State) (p n b : Nat) : Bool :=
  (outgoing (s.port p)).any (fun e => match e.eng with | .push k c => k == n && c == b | _ => false)

/-- A block is resident, for every plan that waits for it (R271). -/
def becomeResident (s : State) (b : Nat) : State :=
  let waiting := (s.kv.plans.filter (fun q => q.2.moves.any (fun m => m.block == b && moveActive m))).map (·.1)
  let s0 := waiting.foldl lateNow s
  let s1 := (touch s0 b).modBlk b (fun k => { k with t0Valid := true, growing := false })
  waiting.foldl checkReady (waiting.foldl (fun s k => s.modPlan k (fun q => { q with moves := q.moves.map (fun m => if m.block = b ∧ moveActive m then { m with st := .resident } else m) })) s1)

/-- Every WRITE of a block's data and table entries has left the egress (R271). -/
def doResident (n b : Nat) (s : State) : State :=
  match s.plan n with
  | none => s
  | some p =>
    if !p.moves.any (fun m => m.block == b && m.st == .pushing) || stillPushing s p.port n b then s
    else pump (becomeResident s b) p.port

def execBlockResident (plan block : Nat) (s : State) : Host.Outcome State Fault Refusal := .next (doResident plan block s)

/-- PTP time passes a plan's deadline with blocks missing (R272). -/
def doPlanDeadline (n : Nat) (s : State) : State :=
  match s.plan n with
  | none => s
  | some p => if p.st == .pending then pump (completePlan (advanceToPtp s p.deadline) n .late 0x0C 0) p.port else s

def execPlanDeadline (plan : Nat) (s : State) : Host.Outcome State Fault Refusal := .next (doPlanDeadline plan s)

/-- A plan is released: its pins go, and its place among the port's sixteen (R275). -/
def releasePlan (s : State) (n : Nat) : State :=
  match s.plan n with
  | none => s
  | some p => pump ((stopMoves s n).modKv (fun k => { k with plans := odel k.plans n })) p.port

/-- Release at deadline + hold of a READY or SETTLED plan (R275). -/
def doPlanRelease (n : Nat) (s : State) : State :=
  match s.plan n with
  | none => s
  | some p => if p.st == .ready || p.st == .settled then releasePlan (advanceToPtp s (p.deadline + p.hold)) n else s

def execPlanRelease (plan : Nat) (s : State) : Host.Outcome State Fault Refusal := .next (doPlanRelease plan s)

/-- PLAN_CANCEL (R275): the oldest outstanding plan of the ring pair with that tag. -/
def planCancel (r ring d : Nat) (ref : DRef) (s : State) : CmdRes :=
  let tag := fld d 96 32
  let s0 := unorder s ref
  match s.kv.plans.find? (fun q => owns s r q.2.own && q.2.ref.ring == ring && q.2.tag == tag) with
  | none => okR s0 0
  | some (n, p) =>
    let s1 := stopMoves s0 n
    let s2 := if p.st = .pending then planRecord (finish s1 p.ref 0x08 (residentOf p % 2 ^ 32 + missingOf p * 2 ^ 32) 0) n 0x08 false else s1
    okR (releasePlan s2 n) 1

def execPlanCancel (fn ring : Nat) (s : State) : Host.Outcome State Fault Refusal :=
  .next (onDesc s fn ring 0x14 0x11 (fun d ref s => planCancel fn ring d ref s))

/-! ### Departures (R110) -/

/-- A command that opened a T0 block table completes once every entry of the table is written (R250). -/
def settleTables (s : State) : State :=
  s.kv.tables.foldl (fun s t =>
    if (List.range 8).any (fun p => (outgoing (s.port p)).any (fun e => e.eng == .table t.1)) then s
    else finish (s.modKv (fun k => { k with tables := odel k.tables t.1 })) t.2.1 0 t.2.2 0) s

/-- Blocks that SEQ_GROW appended and whose table entries stand among some transactions. -/
def entryBlocks (es : List Egress) : List Nat := es.filterMap (fun e => match e.eng with | .entry b => some b | _ => none)

/-- A transaction leaves the egress: a block whose table entry that was is resident, a command that waited for its table and a
CLOSE that waited for its RESULT copies may complete, and the next push follows (R110, R149, R250, R271). -/
def departed (p : Nat) (s : State) : State :=
  let s1 := doEgressDepart p s
  let left := (entryBlocks (outgoing (s.port p))).filter (fun b => !(entryBlocks (outgoing (s1.port p))).contains b)
  let s2 := pump (settleTables (left.foldl becomeResident s1)) p
  s2.red.ctxs.foldl (fun s q => if q.2.closer.isSome then checkClose s q.1 else s) s2

def execEgressDepart (port : Nat) (s : State) : Host.Outcome State Fault Refusal := .next (departed port s)

/-! ### The KV set (R277) -/

/-- An enabled T0 port item is valid. -/
def t0ItemOk (s : State) (p : Nat) : Bool :=
  let t := s.t0p p
  let n := t.slots * 2 ^ t.slotLog2
  !t.enable || (t.slots != 0 && decide (t.slots ≤ 1048576) && decide (14 ≤ t.slotLog2) && decide (t.slotLog2 ≤ 20) && t.base % 4096 == 0
    && (targetAddr s p t.window t.base n true).isSome && (targetAddr s p t.window t.base n false).isSome)

/-- An enabled pool item is valid (R252, R277, R510). -/
def poolItemOk (s : State) (n : Nat) : Bool :=
  let p := s.pool n
  p.kind == 0 || (p.slots != 0 && decide (p.slots ≤ 134217728) && decide (1 ≤ p.slot4k) && decide (p.slot4k ≤ 256) && decide (1 ≤ p.high)
    && decide (p.high ≤ 100) && decide (p.low < p.high)
    && (if p.kind = 1 then spaceOf p.base == 0 && !rangeRefused s (fld p.base 0 62) (p.slots * p.slot4k * 4096)
        else if p.kind = 2 then spaceOf p.base == 1 || spaceOf p.base == 2 else true))

def badKvItem (s : State) : Option Nat :=
  (List.range 40).find? (fun i => if i < 8 then !t0ItemOk s i else !poolItemOk s (i - 8))

def kvEnd (s : State) (status item : Nat) : State := s.modKv (fun k => { k with lastStatus := status, badItem := item })

/-- KV_SET_ACTION commit, as it is applied at its tick (R277, R603). -/
def doKvCommit (s : State) : State :=
  if s.kv.committed then kvEnd s 0x07 0
  else match badKvItem s with
    | some i => kvEnd s 0x06 i
    | none => kvEnd (s.modKv (fun k => { k with committed := true })) 0x00 0

def execKvSetCommit (s : State) : Host.Outcome State Fault Refusal := .next (joinSet 0x14 1 doKvCommit s)

/-- KV_SET_ACTION unlock: only while no sequence is open (R277). -/
def doKvUnlock (s : State) : State :=
  if !s.kv.committed then kvEnd s 0x00 0
  else if !s.kv.seqs.isEmpty then kvEnd s 0x07 0
  else kvEnd (s.modKv (fun k => { k with committed := false })) 0x00 0

def execKvSetUnlock (s : State) : Host.Outcome State Fault Refusal := .next (joinSet 0x14 2 doKvUnlock s)

end Sys2Proof.Machine
end

