-- ==== Sys2Proof/Machine/Seal.lean ====
section
/-!
DEFINITION. Sealing (12): key slots and their states, nonces, the SEAL ring, tile modes, ESP for the packet path, and
the lock of the management cipher.
-/
namespace Sys2Proof.Machine

def State.modSeal (s : State) (f : Seal → Seal) : State := { s with sealing := f s.sealing }
def State.slot (s : State) (n : Nat) : Option KeySlot := oget s.sealing.slots n
def State.putSlot (s : State) (n : Nat) (k : KeySlot) : State := s.modSeal (fun q => { q with slots := oput q.slots n k })
def State.stile (s : State) (t : Nat) : SealTile := mget s.sealing.tiles t {}
def State.modStile (s : State) (t : Nat) (f : SealTile → SealTile) : State :=
  s.modSeal (fun q => { q with tiles := mset q.tiles t (f (mget q.tiles t {})) {} })

/-! ### Tiles, modes, steering (R411 to R413, R426 to R428) -/

/-- Domain of a SEAL tile (R214). -/
def sealDom (t : Nat) : Nat := if t < 4 then 22 + t else 42 + 22 + (t - 4)
/-- SEAL_TILE_STATUS.state: 0 OFF, 1 AVAILABLE, 2 CLOSING, 3 SELF_TEST. -/
def sealState (s : State) (t : Nat) : Nat :=
  let d := mget s.doms (sealDom t) {}
  if d.power ≠ 2 then 0 else d.service

/-- Reason for masked mode, 0 for none (Table 12-4, Table 12-10; the order among them is the model's, log 10). -/
def maskReason (s : State) (t : Nat) : Nat :=
  let k := s.stile t
  if s.power.stage < 4 then 1 else if sealState s t = 3 then 2 else if s.vcycle < k.recoverUntil then 3
  else if s.trust.debugScope ≠ 0 then 5 else if k.forceMasked then 4 else 0

/-- Put a tile in the mode its conditions give; MODE_CHANGED at a change of mode (R427). -/
def settleMode (s : State) (t : Nat) : State :=
  let r := maskReason s t
  let m := r != 0
  let s1 := s.modStile t (fun k => { k with masked := m, reason := r })
  if (s.stile t).masked = m then s1 else postAll s1 bothPf1 0x2302 t (b2n m + r * 2)

def settleModes (s : State) : State := (List.range 8).foldl settleMode s

/-- The tile a steering entry names (R412); entries never written spread the slots over the die's tiles (log 10). -/
def steered (s : State) (die slot : Nat) : Nat := (oget s.sealing.steer (64 * die + slot % 64)).getD (4 * die + slot % 4)

/-- A SEAL tile takes work. -/
def sealTakes (s : State) (t : Nat) : Bool := (sealState s t == 1 || sealState s t == 2) && !(s.stile t).faulted

/-- The tile a slot's work runs on: the one it is pinned to, or the one it is pinned to now at its first use. -/
def tileFor (s : State) (die n : Nat) (k : KeySlot) : Nat :=
  match k.pinned with
  | some t => t
  | none =>
    let t := steered s die n
    if sealTakes s t then t else ((List.range 8).find? (sealTakes s)).getD t

/-- Die of the core that owns a ring pair: cores of tiles 0 and 1 lie on die A. -/
def dieOfRing (s : State) (ref : DRef) : Nat := let c := (s.ring ref.fn ref.ring).owner; if c < 32 then 0 else if c < 64 then 1 else 0

/-- Work under a slot waits while its tile takes none: in self-test, or after a fault until its keeper shutters it (R428). -/
def slotWaits (s : State) (die n : Nat) : Bool :=
  (s.slot n).any (fun k => k.st == .loaded && !sealTakes s (tileFor s die n k))

/-- A SEAL ring command under a slot of its function waits for the slot's tile to take work. -/
def sealWaits (s : State) (r i n : Nat) : Bool := slotWaits s (dieOfRing s { fn := r, ring := i }) n && (s.slot n).any (fun k => owns s r k.own)

/-- A SEAL ring command, one bit field of whose descriptor names the slot it works under, starts once that slot's tile takes work. -/
def onSeal (r i op at_ : Nat) (act : State → State) (s : State) : State :=
  match startable s r i with
  | some e =>
    let d := e.desc.toNat
    if (s.ring r i).ent.kind == 0x23 && fld d 0 8 == op && sealWaits s r i (fld d at_ 18) then s else act s
  | none => act s

/-- Bytes sealed or unsealed by a tile (SEAL_TILE_BYTES). -/
def countBytes (s : State) (t n : Nat) : State := s.modStile t (fun k => { k with bytes := (k.bytes + n) % 2 ^ 64 })

/-- The slot's SEAL tile seals or opens 4 KiB data units, numbered from one on, for a user of a die (R282, R412, R424, R448); none
where the slot holds no loaded key. -/
def cryptBlocks (s : State) (die n : Nat) (enc : Bool) (unit : Nat) (bs : List Byte) : State × Option (List Byte) :=
  match s.slot n with
  | none => (s, none)
  | some k =>
    if k.st ≠ .loaded then (s, none)
    else
      let t := tileFor s die n k
      (countBytes (s.putSlot n { k with used := true, pinned := some t }) t bs.length, some (xts enc 4096 unit k.material bs))

/-- Tiles that are shuttered hand their slots to the tile the new steering names (R413). -/
def repin (s : State) (t : Nat) : State :=
  let die := t / 4
  let live := (List.range 4).filter (fun i => 4 * die + i != t && sealState s (4 * die + i) == 1)
  let steer := if live.isEmpty then s.sealing.steer else
    (List.range 64).foldl (fun m e =>
      if steered s die e = t then oput m (64 * die + e) (4 * die + lget live (e % live.length) 0) else m) s.sealing.steer
  let s1 := s.modSeal (fun q => { q with steer := steer })
  s1.modSeal (fun q => { q with slots := q.slots.map (fun p => if p.2.pinned = some t then (p.1, { p.2 with pinned := some (tileFor s1 die p.1 { p.2 with pinned := none }) }) else p) })

/-- A reopened tile takes back the entries that fall to it; slots already pinned stay (R413, R532). -/
def joinSteer (s : State) (t : Nat) : State :=
  s.modSeal (fun q => { q with steer := (List.range 64).foldl (fun m e => if e % 4 = t % 4 then oput m (64 * (t / 4) + e) t else m) q.steer })

/-! ### Slots (R415 to R420) -/

/-- An action word names the slot as its security association (Table 10-3). -/
def actionNames (n a : Nat) : Bool := fld a 48 2 != 0 && fld a 50 18 == n

/-- An entry, comparator or default action of a live version of a rule set names the slot. -/
def setNames (n : Nat) (x : RuleSet) : Bool :=
  ((x.active + 1, x.pendingVer) :: x.vers).any (fun v => actionNames n v.2.conf.dflt || v.2.comps.any (fun c => c.enabled && actionNames n c.action)
    || x.entries.any (fun e => actionNames n e.action && decide (e.added ≤ v.1) && e.removed.all (fun k => decide (v.1 < k))))

/-- A live classifier version, a checkpoint store or a namespace names the slot (R418). -/
def slotReferenced (s : State) (n : Nat) : Bool :=
  s.cls.sets.any (fun p => setNames n p.2) || s.sto.nss.any (fun p => p.2.key == some n) || s.ck.any (fun p => match p.2.job with
    | some j => j.key == n
    | none => false)

/-- A slot's counter limit (R420). -/
def counterLimit (k : KeySlot) : Nat :=
  match k.sa with
  | some a => if !a.esn then 2 ^ 32 - 1 else 2 ^ 64 - 1
  | none => 2 ^ 64 - 1

/-- Nonce: salt, then counter, most significant byte first (R419). A WRAP slot's salt bytes are zero. -/
def nonceOf (k : KeySlot) (counter : Nat) : List Byte := (k.material.drop 32).take 4 ++ natBE 8 counter
def keyOf (k : KeySlot) : List Byte := k.material.take 32

/-- Use one counter value: the slot after it, or none when it lies beyond the limit; KEY_SOFT_LIMIT once (R419, R420). -/
def useCounter (s : State) (n t : Nat) (k : KeySlot) : Option State :=
  if counterLimit k < k.counter then none
  else
    let soft := !k.softPosted && decide (counterLimit k - 2 ^ 24 ≤ k.counter + 1)
    let s1 := s.putSlot n { k with counter := k.counter + 1, used := true, pinned := some t, softPosted := k.softPosted || soft }
    some (if soft then postEvent s1 k.own.fn 0x2301 n (k.counter + 1) else s1)

/-- Find a slot for a command: owned by the function (0x02), of the kinds asked (0x84), in the state asked (0x83). -/
def withSlot (s : State) (r n : Nat) (kinds : List Nat) (st : KeySt) (act : KeySlot → CmdRes) : CmdRes :=
  match s.slot n with
  | none => bad s 0x02
  | some k =>
    if !owns s r k.own then bad s 0x02
    else if !kinds.contains k.kind then bad s 0x84
    else if k.st ≠ st then bad s 0x83
    else act k

def dSlot (d : Nat) : Nat := fld d 64 18
def dLen (d : Nat) : Nat := fld d 96 32
def dSrc (d : Nat) : Nat := fld d 128 64
def dDst (d : Nat) : Nat := fld d 192 64

/-- Slots of a function that are not FREE (SEAL_USE). -/
def slotsOf_ (s : State) (r : Nat) : Nat := (s.sealing.slots.filter (fun p => p.2.own.fn == r)).length

/-- KEY_ALLOC (R416): the lowest free slot, within the quota of a VF; the allocator's pointer moves past the core that serves
the ring pair, whose claim it grants (R68). -/
def keyAlloc (r ring : Nat) (d : Nat) (s : State) : CmdRes :=
  let kind := fld d 64 2
  if kind = 0 then bad s 0x06
  else if isVf r && decide (fld (s.fn r).quotaA.toNat 32 20 ≤ slotsOf_ s r) then bad s 0x07
  else match lowestFree s.sealing.slots 0 262144 with
    | none => bad s 0x07
    | some n => okR ((s.modSeal (fun q => { q with keyPtr := ((s.ring r ring).owner + 1) % 66 })).putSlot n { kind := kind, own := s.ownOf r }) n

def execKeyAlloc (fn ring : Nat) (s : State) : Host.Outcome State Fault Refusal :=
  .next (onDesc s fn ring 0x23 0x01 (fun d _ s => keyAlloc fn ring d s))

/-- Bytes that Table 12-1 says are zero are zero, and an XTS record has two different keys (R417). -/
def materialOk (kind : Nat) (m : List Byte) : Bool :=
  let z (k : Nat) : Bool := (m.drop k).all (· == 0#8)
  if kind = 1 then z 36 else if kind = 3 then z 32 else m.take 32 != m.drop 32

/-- KEY_LOAD (R417): the record is read once. -/
def keyLoad (r d : Nat) (read : HRead) (s : State) : CmdRes :=
  withSlot s r (dSlot d) [1, 2, 3] .allocated (fun k =>
    let p := rdSpace s r 22 (dSrc d) 64 read
    if p.2.1 ≠ 0 then bad p.1 p.2.1
    else if !materialOk k.kind p.2.2 then bad p.1 0x06
    else ok0 (p.1.putSlot (dSlot d) { k with st := .loaded, material := p.2.2, counter := 1 }))

def execKeyLoad (fn ring : Nat) (read : HRead) (s : State) : Host.Outcome State Fault Refusal :=
  .next (onDesc s fn ring 0x23 0x02 (fun d _ s => keyLoad fn d read s))

/-- KEY_FREE (R415, R418): material and counter are zeroized with the slot. -/
def keyFree (r d : Nat) (s : State) : CmdRes :=
  match s.slot (dSlot d) with
  | none => bad s 0x02
  | some k =>
    if !owns s r k.own then bad s 0x02
    else if slotReferenced s (dSlot d) then bad s 0x82
    else ok0 (s.modSeal (fun q => { q with slots := odel q.slots (dSlot d) }))

def execKeyFree (fn ring : Nat) (s : State) : Host.Outcome State Fault Refusal :=
  .next (onDesc s fn ring 0x23 0x03 (fun d _ s => keyFree fn d s))

/-- An SA record of 128 bytes (R435): none where a field holds another value than the record allows. -/
def parseSa (bs : List Byte) : Option SaRec :=
  let d := leNat (bs.take 64)
  let log := fld d 36 4
  let ol := fld d 40 8
  let tun := bitAt d 33
  let tpl := sliceB bs 64 64
  if !(log == 0 || (decide (6 ≤ log) && decide (log ≤ 10))) then none
  else if fld d 48 464 ≠ 0 then none
  else if tun && !([20, 28, 40, 48].contains ol) then none
  else if !tun && ol != 0 then none
  else if (tpl.drop ol).any (· != 0#8) then none
  else some { spi := fld d 0 32, inbound := bitAt d 32, tunnel := tun, esn := bitAt d 34, udpEncap := bitAt d 35,
              replayLog2 := log, outerLen := ol, template := tpl.take ol }

/-- SA_SET (R435): a LOADED GCM slot that has never sealed or opened, once. -/
def saSet (r d : Nat) (read : HRead) (s : State) : CmdRes :=
  withSlot s r (dSlot d) [1] .loaded (fun k =>
    if k.used || k.sa.isSome then bad s 0x83
    else
      let p := rdSpace s r 22 (dSrc d) 128 read
      if p.2.1 ≠ 0 then bad p.1 p.2.1
      else match parseSa p.2.2 with
        | none => bad p.1 0x06
        | some a => ok0 (p.1.putSlot (dSlot d) { k with sa := some a }))

def execSaSet (fn ring : Nat) (read : HRead) (s : State) : Host.Outcome State Fault Refusal :=
  .next (onDesc s fn ring 0x23 0x04 (fun d _ s => saSet fn d read s))

/-- SEAL_GCM (R419, R420, R434): ciphertext and tag are written to dst; the result is the counter used. -/
def sealGcm (r d : Nat) (ref : DRef) (src aad : HRead) (s : State) : CmdRes :=
  withSlot s r (dSlot d) [1] .loaded (fun k =>
    if k.sa.isSome then bad s 0x84
    else if 65536 < dLen d then bad s 0x06
    else
      let t := tileFor s (dieOfRing s ref) (dSlot d) k
      let p := rdSpace s r (sealDom t) (dSrc d) (dLen d) src
      let q := rdSpace p.1 r (sealDom t) (fld d 256 64) (fld d 320 16) aad
      if p.2.1 ≠ 0 then bad p.1 p.2.1
      else if q.2.1 ≠ 0 then bad q.1 q.2.1
      else match useCounter q.1 (dSlot d) t k with
        | none => bad q.1 0x81
        | some s1 =>
          let c := gcmSeal (keyOf k) (nonceOf k k.counter) q.2.2 p.2.2
          let w := wrSpace (countBytes s1 t (dLen d)) r (sealDom t) (dDst d) (c.1 ++ c.2)
          if w.2 ≠ 0 then bad w.1 w.2 else okR w.1 k.counter)

def execSealGcm (fn ring : Nat) (src aad : HRead) (s : State) : Host.Outcome State Fault Refusal :=
  .next (onSeal fn ring 0x05 64 (fun s => onDesc s fn ring 0x23 0x05 (fun d ref s => sealGcm fn d ref src aad s)) s)

/-- OPEN_GCM (R434): the tag stands after the ciphertext, and nothing is written until it has verified. -/
def openGcm (r d : Nat) (ref : DRef) (src aad : HRead) (s : State) : CmdRes :=
  withSlot s r (dSlot d) [1] .loaded (fun k =>
    if k.sa.isSome then bad s 0x84
    else if 65536 < dLen d then bad s 0x06
    else
      let t := tileFor s (dieOfRing s ref) (dSlot d) k
      let p := rdSpace s r (sealDom t) (dSrc d) (dLen d + 16) src
      let q := rdSpace p.1 r (sealDom t) (fld d 256 64) (fld d 320 16) aad
      if p.2.1 ≠ 0 then bad p.1 p.2.1
      else if q.2.1 ≠ 0 then bad q.1 q.2.1
      else
        let s1 := countBytes (q.1.putSlot (dSlot d) { k with used := true, pinned := some t }) t (dLen d)
        match gcmOpen (keyOf k) (nonceOf k (fld d 384 64)) q.2.2 (p.2.2.take (dLen d)) (p.2.2.drop (dLen d)) with
        | none => bad s1 0x80
        | some pt =>
          let w := wrSpace s1 r (sealDom t) (dDst d) pt
          if w.2 ≠ 0 then bad w.1 w.2 else ok0 w.1)

def execOpenGcm (fn ring : Nat) (src aad : HRead) (s : State) : Host.Outcome State Fault Refusal :=
  .next (onSeal fn ring 0x06 64 (fun s => onDesc s fn ring 0x23 0x06 (fun d ref s => openGcm fn d ref src aad s)) s)

/-- XTS_ENC and XTS_DEC (R424): whole data units, numbered from the descriptor's. -/
def xtsCmd (enc : Bool) (r d : Nat) (ref : DRef) (src : HRead) (s : State) : CmdRes :=
  withSlot s r (dSlot d) [2] .loaded (fun k =>
    let du := if bitAt d 336 then 4096 else 512
    if 2 ^ 31 < dLen d ∨ dLen d % du ≠ 0 then bad s 0x06
    else
      let t := tileFor s (dieOfRing s ref) (dSlot d) k
      let p := rdSpace s r (sealDom t) (dSrc d) (dLen d) src
      if p.2.1 ≠ 0 then bad p.1 p.2.1
      else
        let s1 := countBytes (p.1.putSlot (dSlot d) { k with used := true, pinned := some t }) t (dLen d)
        let w := wrSpace s1 r (sealDom t) (dDst d) (xts enc du (fld d 256 64) k.material p.2.2)
        if w.2 ≠ 0 then bad w.1 w.2 else okR w.1 (dLen d / du))

def execXtsEnc (fn ring : Nat) (src : HRead) (s : State) : Host.Outcome State Fault Refusal :=
  .next (onSeal fn ring 0x07 64 (fun s => onDesc s fn ring 0x23 0x07 (fun d ref s => xtsCmd true fn d ref src s)) s)
def execXtsDec (fn ring : Nat) (src : HRead) (s : State) : Host.Outcome State Fault Refusal :=
  .next (onSeal fn ring 0x08 64 (fun s => onDesc s fn ring 0x23 0x08 (fun d ref s => xtsCmd false fn d ref src s)) s)

/-- HASH (R425). -/
def hashCmd (r d : Nat) (src state : HRead) (s : State) : CmdRes :=
  let final := bitAt d 337
  let prior := fld d 256 64
  let at_ := fld d 384 64
  if (!final && dLen d % 64 != 0) || prior % 64 != 0 then bad s 0x06
  else
    let p := rdSpace s r 22 (dSrc d) (dLen d) src
    let q := rdSpace p.1 r 22 at_ (if at_ = 0 then 0 else 32) state
    if p.2.1 ≠ 0 then bad p.1 p.2.1
    else if q.2.1 ≠ 0 then bad q.1 q.2.1
    else
      let h := if at_ = 0 then shaInit else shaWords (ofBs q.2.2)
      let out := if final then shaFinal h prior (ofBs p.2.2) else shaBytes (shaBlocks (dLen d / 64) h (ofBs p.2.2))
      let w := wrSpace q.1 r 22 (dDst d) (toBs out)
      if w.2 ≠ 0 then bad w.1 w.2 else ok0 w.1

def execHash (fn ring : Nat) (src state : HRead) (s : State) : Host.Outcome State Fault Refusal :=
  .next (onDesc s fn ring 0x23 0x09 (fun d _ s => hashCmd fn d src state s))

/-! ### Saved contexts (R429, R430) -/

/-- SA record bytes as SA_SET takes them. -/
def saBytes (a : SaRec) : List Byte :=
  natLE 64 (a.spi % 2 ^ 32 + b2n a.inbound * 2 ^ 32 + b2n a.tunnel * 2 ^ 33 + b2n a.esn * 2 ^ 34 + b2n a.udpEncap * 2 ^ 35
    + a.replayLog2 % 16 * 2 ^ 36 + a.outerLen % 256 * 2 ^ 40) ++ fitB a.template 64

/-- The 480 clear bytes of a context: material, counter, SA record, window (their places are the model's, log 10). -/
def ctxClear (k : KeySlot) : List Byte :=
  fitB (k.material ++ natLE 9 k.counter ++ [toB (b2n k.sa.isSome + b2n k.used * 2 + b2n k.softPosted * 4)]
    ++ (match k.sa with | some a => saBytes a | none => List.replicate 128 0#8) ++ natLE 8 k.hiSeq ++ natLE 128 k.window) 480

def ctxHead (kind counter : Nat) : List Byte := natLE 16 (0x09605EA1 + 2 ^ 32 + kind * 2 ^ 40 + counter % 2 ^ 64 * 2 ^ 64)

/-- The slot that 480 clear bytes describe. -/
def ctxParse (k : KeySlot) (bs : List Byte) : KeySlot :=
  let f := leNat (sliceB bs 73 1)
  { k with st := .loaded, material := bs.take 64, counter := leNat (sliceB bs 64 9), used := bitAt f 1, softPosted := bitAt f 2,
           sa := if bitAt f 0 then parseSa (sliceB bs 74 128) else none, hiSeq := leNat (sliceB bs 202 8), window := leNat (sliceB bs 210 128) }

/-- CTX_SAVE (R429): the blob is written and the slot is SAVED; the result is the wrap counter. -/
def ctxSave (r d : Nat) (ref : DRef) (s : State) : CmdRes :=
  let wn := fld d 82 18
  withSlot s r (dSlot d) [1, 2, 3] .loaded (fun k =>
    withSlot s r wn [3] .loaded (fun w =>
      let t := tileFor s (dieOfRing s ref) wn w
      match useCounter s wn t w with
      | none => bad s 0x81
      | some s1 =>
        let head := ctxHead k.kind w.counter
        let c := gcmSeal (keyOf w) (nonceOf w w.counter) head (ctxClear k)
        let p := wrSpace s1 r (sealDom t) (dDst d) (head ++ c.1 ++ c.2)
        if p.2 ≠ 0 then bad p.1 p.2
        else okR (p.1.modSeal (fun q => { q with slots := omod q.slots (dSlot d) (fun x => { x with st := .saved }) })) w.counter))

def execCtxSave (fn ring : Nat) (s : State) : Host.Outcome State Fault Refusal :=
  .next (onSeal fn ring 0x0A 82 (fun s => onDesc s fn ring 0x23 0x0A (fun d ref s => ctxSave fn d ref s)) s)

/-- CTX_RESTORE (R430): a tag that does not verify or another kind leaves the slot ALLOCATED. -/
def ctxRestore (r d : Nat) (src : HRead) (s : State) : CmdRes :=
  let wn := fld d 82 18
  withSlot s r (dSlot d) [1, 2, 3] .allocated (fun k =>
    withSlot s r wn [3] .loaded (fun w =>
      let p := rdSpace s r 22 (dSrc d) 512 src
      let head := p.2.2.take 16
      let h := leNat head
      if p.2.1 ≠ 0 then bad p.1 p.2.1
      else if head ≠ ctxHead k.kind (fld h 64 64) then bad p.1 0x80
      else match gcmOpen (keyOf w) (nonceOf w (fld h 64 64)) head (sliceB p.2.2 16 480) (sliceB p.2.2 496 16) with
        | none => bad p.1 0x80
        | some bs => ok0 (p.1.putSlot (dSlot d) (ctxParse k bs))))

def execCtxRestore (fn ring : Nat) (src : HRead) (s : State) : Host.Outcome State Fault Refusal :=
  .next (onSeal fn ring 0x0B 82 (fun s => onDesc s fn ring 0x23 0x0B (fun d _ s => ctxRestore fn d src s)) s)

/-- SA_QUERY (R434): the counter, or the highest sequence accepted of an inbound SA. -/
def saQuery (r d : Nat) (s : State) : CmdRes :=
  withSlot s r (dSlot d) [1] .loaded (fun k =>
    match k.sa with
    | some a => okR s (if a.inbound then k.hiSeq else k.counter)
    | none => okR s k.counter)

def execSaQuery (fn ring : Nat) (s : State) : Host.Outcome State Fault Refusal :=
  .next (onDesc s fn ring 0x23 0x0C (fun d _ s => saQuery fn d s))

/-! ### ESP (R421 to R423) -/

/-- Offset of the network header behind the VLAN tags of a frame. -/
def l3Off (fr : List Byte) : Nat :=
  let et (o : Nat) : Nat := beNat (sliceB fr o 2)
  let v (o : Nat) : Bool := et o == 0x8100 || et o == 0x88A8
  if v 12 then (if v 16 then 22 else 18) else 14

/-- Internet checksum of bytes. -/
def inetSum : Nat → List Byte → Nat
  | 0, _ => 0
  | k + 1, bs => beNat (fitB (bs.take 2) 2) + inetSum k (bs.drop 2)
def fold16 (x : Nat) : Nat := let y := x % 65536 + x / 65536; y % 65536 + y / 65536
def inetCsum (bs : List Byte) : Nat := 65535 - fold16 (inetSum ((bs.length + 1) / 2) bs)

def setBE (bs : List Byte) (o k v : Nat) : List Byte := bs.take o ++ natBE k v ++ bs.drop (o + k)

/-- IPv6 extension headers from an offset on, the header before them naming the first at `at_`: the offset after the last
one, and where the header that follows is named. -/
def v6Chain (bs : List Byte) : Nat → Nat → Nat → Nat × Nat
  | 0, o, at_ => (o, at_)
  | k + 1, o, at_ =>
    let nh := beNat (sliceB bs at_ 1)
    if (nh = 0 ∨ nh = 43 ∨ nh = 60) ∧ o + 8 ≤ bs.length then v6Chain bs k (o + (beNat (sliceB bs (o + 1) 1) + 1) * 8) o
    else if nh = 44 ∧ o + 8 ≤ bs.length then v6Chain bs k (o + 8) o
    else (o, at_)

/-- Length of the IP header at the front of bytes, extension headers included, and the offset of the byte that names the
protocol behind it. -/
def ipEnd (bs : List Byte) : Nat × Nat := if beNat (bs.take 1) / 16 = 4 then (beNat (bs.take 1) % 16 * 4, 9) else v6Chain bs 10 40 6
def ipHdrLen (bs : List Byte) : Nat := (ipEnd bs).1
def ipProto (bs : List Byte) : Nat := beNat (sliceB bs (ipEnd bs).2 1)
/-- Bytes of an IP packet at the front of a frame's bytes: without the padding that Ethernet may have put behind it. -/
def ipPacket (bs : List Byte) : List Byte :=
  if beNat (bs.take 1) / 16 = 4 then bs.take (beNat (sliceB bs 2 2)) else if beNat (bs.take 1) / 16 = 6 then bs.take (40 + beNat (sliceB bs 4 2)) else bs

/-- An IPv4 or IPv6 header with its length, protocol and checksum filled in for a payload of `n` bytes. -/
def fixIp (h : List Byte) (n proto : Nat) : List Byte :=
  if beNat (h.take 1) / 16 = 4 then
    let h1 := setBE (setBE (setBE h 2 2 (h.length + n)) 9 1 proto) 10 2 0
    setBE h1 10 2 (inetCsum h1)
  else setBE (setBE h 4 2 (h.length - 40 + n)) (ipEnd h).2 1 proto

/-- DSCP and ECN byte of an IP header. -/
def tosOf (h : List Byte) : Nat :=
  if beNat (h.take 1) / 16 = 4 then beNat (sliceB h 1 1) else beNat (sliceB h 0 2) / 16 % 256
def setTos (h : List Byte) (v : Nat) : List Byte :=
  if beNat (h.take 1) / 16 = 4 then setBE h 1 1 v
  else setBE h 0 2 (beNat (sliceB h 0 2) / 4096 * 4096 + v * 16 + beNat (sliceB h 0 2) % 16)

/-- AAD of an ESP packet: SPI and sequence number, with ESN its high part between (R422). -/
def espAad (a : SaRec) (counter : Nat) : List Byte :=
  if a.esn then natBE 4 a.spi ++ natBE 8 counter else natBE 4 a.spi ++ natBE 4 (counter % 2 ^ 32)

/-- Minimal ESP padding to 4 bytes, pad length and next header (Table 12-3). -/
def espPad (n next : Nat) : List Byte :=
  let p := (4 - (n + 2) % 4) % 4
  ((List.range p).map (fun i => toB (i + 1))) ++ [toB p, toB next]

/-- Count on a SEAL tile. -/
def badSa (s : State) (t : Nat) : State := s.modStile t (fun k => { k with badSa := satAdd 32 k.badSa 1 })
/-- The tile that counts a packet whose slot is no live SA: the one it is pinned to, or the one the steering names. -/
def slotTile (s : State) (die n : Nat) : Nat := ((s.slot n).bind (·.pinned)).getD (steered s die n)

/-- The slot an action names is a LOADED GCM SA of that direction, of the rule set's function (R418). -/
def liveSa (s : State) (r n : Nat) (inbound : Bool) : Option (KeySlot × SaRec) :=
  match s.slot n with
  | none => none
  | some k => match k.sa with
    | none => none
    | some a => if k.own.fn = r ∧ k.st = .loaded ∧ k.kind = 1 ∧ a.inbound = inbound then some (k, a) else none

/-- Seal a frame (R422): the sealed frame, or none where it is dropped and counted. -/
def espSeal (s : State) (r die n : Nat) (fr : List Byte) : State × Option (List Byte) :=
  match liveSa s r n false with
  | none => (badSa s (slotTile s die n), none)
  | some (k, a) =>
    let t := tileFor s die n k
    match useCounter s n t k with
    | none => (s.modStile t (fun q => { q with exhausted := satAdd 32 q.exhausted 1 }), none)
    | some s1 =>
      let o := l3Off fr
      let ip := ipPacket (fr.drop o)
      let hl := ipHdrLen ip
      let inner := if a.tunnel then ip else ip.drop hl
      let next := if a.tunnel then (if beNat (ip.take 1) / 16 = 4 then 4 else 41) else ipProto ip
      let pt := inner ++ espPad inner.length next
      let c := gcmSeal (keyOf k) (nonceOf k k.counter) (espAad a k.counter) pt
      let esp := natBE 4 a.spi ++ natBE 4 (k.counter % 2 ^ 32) ++ natBE 8 k.counter ++ c.1 ++ c.2
      let v6 := decide (40 ≤ a.outerLen)
      let baseLen := if v6 then 40 else 20
      let tplIp := setTos (a.template.take baseLen) (tosOf ip)
      let udpT := if a.tunnel then a.template.drop baseLen else []
      let udp := if !udpT.isEmpty then setBE udpT 4 2 (8 + esp.length)
        else if a.udpEncap then natBE 2 4500 ++ natBE 2 4500 ++ natBE 2 (8 + esp.length) ++ natBE 2 0 else []
      let body := udp ++ esp
      let hdr := fixIp (if a.tunnel then tplIp else ip.take hl) body.length (if udp.isEmpty then 50 else 17)
      let eth := if a.tunnel then setBE (fr.take o) (o - 2) 2 (if v6 then 0x86DD else 0x0800) else fr.take o
      let out := eth ++ hdr ++ body
      let s2 := countBytes s1 t pt.length
      if 9216 < out.length then (s2.modStile t (fun q => { q with oversize := satAdd 32 q.oversize 1 }), none)
      else (s2, some out)

/-- Sequence number of an inbound packet, with ESN its high half inferred from the window (R423). -/
def seqOf (a : SaRec) (hi low : Nat) : Nat :=
  if !a.esn then low
  else
    let w := 2 ^ a.replayLog2
    let base := hi / 2 ^ 32 * 2 ^ 32
    let bl := hi % 2 ^ 32
    if w - 1 ≤ bl then (if bl - (w - 1) ≤ low then base + low else base + 2 ^ 32 + low)
    else if 2 ^ 32 + bl - (w - 1) ≤ low then base - 2 ^ 32 + low else base + low

/-- A replay: below the window, or marked in it. -/
def isReplay (a : SaRec) (k : KeySlot) (q : Nat) : Bool :=
  a.replayLog2 != 0 && decide (q ≤ k.hiSeq) && (decide (2 ^ a.replayLog2 ≤ k.hiSeq - q) || bitAt k.window (k.hiSeq - q))

/-- The window after a good packet (R423). -/
def advanceWin (a : SaRec) (k : KeySlot) (q : Nat) : KeySlot :=
  if a.replayLog2 = 0 then { k with hiSeq := max k.hiSeq q, used := true }
  else if k.hiSeq < q then { k with hiSeq := q, window := (k.window * 2 ^ (q - k.hiSeq) + 1) % 2 ^ (2 ^ a.replayLog2), used := true }
  else { k with window := setFld k.window (k.hiSeq - q) 1 1, used := true }

/-- ECN at the exit of a tunnel in normal mode (RFC 6040): none where the packet is dropped. -/
def ecnOut (outer inner : Nat) : Option Nat :=
  if outer = 3 then (if inner = 0 then none else some 3)
  else if outer = 1 ∧ inner = 2 then some 1 else some inner

/-- Unseal a frame (R423): SPI, replay, ICV in this order; nothing of a packet that fails is passed on. -/
def espOpen (s : State) (r die n : Nat) (fr : List Byte) : State × Option (List Byte) :=
  match liveSa s r n true with
  | none => (badSa s (slotTile s die n), none)
  | some (k, a) =>
    let t := tileFor s die n k
    let o := l3Off fr
    let ip := ipPacket (fr.drop o)
    let hl := ipHdrLen ip
    let pay := (ip.drop hl).drop (if ipProto ip = 17 then 8 else 0)
    let low := beNat (sliceB pay 4 4)
    let q := seqOf a k.hiSeq low
    let ct := sliceB pay 16 (pay.length - 32)
    let tag := pay.drop (pay.length - 16)
    if pay.length < 34 ∨ beNat (pay.take 4) ≠ a.spi then (badSa s t, none)
    else if isReplay a k q then (s.modStile t (fun x => { x with replay := satAdd 32 x.replay 1 }), none)
    else match gcmOpen (keyOf k) ((k.material.drop 32).take 4 ++ sliceB pay 8 8) (espAad a q) ct tag with
      | none => (s.modStile t (fun x => { x with authFail := satAdd 32 x.authFail 1 }), none)
      | some pt =>
        let s1 := countBytes (s.putSlot n { advanceWin a k q with pinned := some t }) t pt.length
        let next := (lget pt (pt.length - 1) 0#8).toNat
        let padLen := (lget pt (pt.length - 2) 0#8).toNat
        let inner := pt.take (pt.length - 2 - padLen)
        if a.tunnel then
          match ecnOut (tosOf ip % 4) (tosOf inner % 4) with
          | none => (s1, none)
          | some e =>
            let v4 := beNat (inner.take 1) / 16 = 4
            let i1 := setTos inner (tosOf inner / 4 * 4 + e)
            let i2 := if v4 then fixIp (i1.take (ipHdrLen i1)) (i1.length - ipHdrLen i1) (ipProto i1) ++ i1.drop (ipHdrLen i1) else i1
            (s1, some (setBE (fr.take o) (o - 2) 2 (if v4 then 0x0800 else 0x86DD) ++ i2))
        else (s1, some (fr.take o ++ fixIp (ip.take hl) inner.length next ++ inner))

/-! ### Recovery (R428) -/

/-- The second of recovery after a fault ends: the tile returns to normal mode where nothing else masks it. -/
def doSealRecovery (t : Nat) (s : State) : State :=
  let k := s.stile t
  if 8 ≤ t ∨ k.recoverUntil = 0 then s
  else settleMode ((advanceTo s k.recoverUntil).modStile t (fun k => { k with recoverUntil := 0 })) t

def execSealRecoveryEnd (tile8 : Nat) (s : State) : Host.Outcome State Fault Refusal := .next (doSealRecovery tile8 s)

/-! ### The lock of the management cipher (R432, R433) -/

/-- A claimant may claim: its session is open, or its keeper runs. -/
def mcMay (s : State) (c : Nat) : Bool :=
  if c < 4 then (mget s.trust.sessions c {}).opened else decide (c < 6) && lget s.fw.dkUp (c - 4) false && (s.core (60 + c)).act != .stopped

/-- Claims of one vestibule cycle: those of the highest rank present, sessions before keepers, under the rotating
pointer; claims while the lock is held fail (R433). -/
def doMcClaim (claims : List Nat) (s : State) : State :=
  let cs := claims.filter (mcMay s)
  let top := cs.filter (· < 4)
  let s1 := advanceTo s (s.vcycle + 1)
  if s.sealing.mc.held then s1
  else match rotPick 6 s.sealing.mc.ptr (if top.isEmpty then cs else top) with
    | none => s1
    | some c => s1.modSeal (fun q => { q with mc := { holder := c, held := true, broken := false, ptr := (c + 1) % 6, since := s.vcycle } })

def execMcLockClaim (claims : List Nat) (s : State) : Host.Outcome State Fault Refusal := .next (doMcClaim claims s)

/-- A release by the holder takes effect at the end of its cycle (R433). -/
def doMcRelease (c : Nat) (s : State) : State :=
  if s.sealing.mc.held && s.sealing.mc.holder == c then
    (advanceTo s (s.vcycle + 1)).modSeal (fun q => { q with mc := { q.mc with held := false } })
  else s

def execMcLockRelease (claimant : Nat) (s : State) : Host.Outcome State Fault Refusal := .next (doMcRelease claimant s)

/-- A hold ends by force after 1 ms, or when its session has ended or its keeper has stopped; the lock keeps its broken
mark until the next grant (R433). -/
def doMcForced (s : State) : State :=
  let m := s.sealing.mc
  if !m.held then s
  else
    let s1 := if mcMay s m.holder then advanceTo s (m.since + msCycles) else s
    s1.modSeal (fun q => { q with mc := { q.mc with held := false, broken := true } })

def execMcLockForcedRelease (s : State) : Host.Outcome State Fault Refusal := .next (doMcForced s)

end Sys2Proof.Machine
end

