-- ==== Sys2Proof/Machine/Nvme.lean ====
section
/-!
DEFINITION. NVMe controllers (13: R439 to R442, R450 to R458): queues, fetch and completion, admin and I/O commands, the
write buffer, and the commands that backends complete. Layouts, opcodes and status codes that the rules leave to the
NVM Express specifications are taken from those (PRESUMED, log 14).
-/
namespace Sys2Proof.Machine

/-! ### Controllers and tiles (R439, R442) -/

def ctrlOf (r : Nat) : Option Nat :=
  if r = 6 then some 0 else if r = 7 then some 1 else if isVf2 r then some (2 + 256 * epOf r + vfNo r) else none
def rankOf (c : Nat) : Nat := if c < 2 then 6 + c else if c < 258 then vf2Of 0 (c - 2) else vf2Of 1 (c - 258)

/-- Domain of STO tile t, which is also its claimant index. -/
def stoDom (t : Nat) : Nat := if t < 4 then 26 + t else 64 + t
/-- State of a tile: 0 OFF, 1 AVAILABLE, 2 CLOSING (R462). -/
def stoState (s : State) (t : Nat) : Nat :=
  let d := mget s.doms (stoDom t) {}
  if d.power ≠ 2 then 0 else if d.service = 1 then 1 else if d.service = 2 then 2 else 0

/-- Controllers placed on a tile. -/
def placedOn (s : State) (t : Nat) : Nat := (s.sto.ctrls.filter (fun p => p.2.tile == some t)).length

/-- The AVAILABLE tile of fewest controllers, lowest among equals. -/
def bestSto (s : State) : Option Nat :=
  ((List.range 8).filter (fun t => stoState s t == 1)).foldl (fun b t => match b with
    | none => some t
    | some u => if placedOn s t < placedOn s u then some t else some u) none

/-- Place a controller (R442). -/
def placeCtrl (s : State) (c : Nat) : State :=
  let s1 := s.modCtl c (fun k => { k with tile := none })
  let t := bestSto s1
  s1.modCtl c (fun k => { k with tile := t })

/-- A controller that has finished its work on a CLOSING tile is placed again (R442). -/
def replace (s : State) (c : Nat) : State :=
  match (s.ctl c).tile with
  | some t => if stoState s t ≠ 1 && !(s.ctl c).cmds.any (·.sq != 0) then placeCtrl s c else s
  | none => if (s.ctl c).rdy then placeCtrl s c else s

/-! ### Completion queues -/

/-- Raise the interrupt of a completion queue; a pin interrupt masked by INTMS is not raised. -/
def cqIrq (s : State) (r : Nat) (intms iv : Nat) : State :=
  if !(s.fn r).msixEn && decide (iv < 32) && bitAt intms iv then s else raiseVec s r iv

/-- Write one completion entry of 16 bytes. -/
def writeNvmCqe (s : State) (c q dw0 sq cid sf : Nat) : State :=
  let k := s.ctl c
  match oget k.cqs q with
  | none => s
  | some e =>
    let hd := match oget k.sqs sq with
      | some x => x.head
      | none => 0
    let bs := natLE 4 dw0 ++ natLE 4 0 ++ natLE 4 (hd + sq * 65536) ++ natLE 4 (cid + b2n e.phase * 65536 + sf % 32768 * 131072)
    let s1 := hostWrite s (rankOf c) (e.base + 16 * e.tail) bs
    let last := decide (e.size ≤ e.tail + 1)
    let s2 := s1.modCtl c (fun k => { k with cqs := omod k.cqs q (fun e =>
      { e with tail := if last then 0 else e.tail + 1, phase := if last then !e.phase else e.phase }) })
    if e.ien then cqIrq s2 (rankOf c) k.intms e.iv else s2

def cqFull (e : NvmCq) : Bool := decide ((e.tail + 1) % e.size = e.head)

/-- Post a completion, or keep it while the queue is full. -/
def postNvm (s : State) (c sq cid dw0 sf : Nat) : State :=
  let k := s.ctl c
  match oget k.sqs sq with
  | none => s
  | some x =>
    match oget k.cqs x.cq with
    | none => s
    | some e =>
      if e.waiting.isEmpty && !cqFull e then writeNvmCqe s c x.cq dw0 sq cid sf
      else s.modCtl c (fun k => { k with cqs := omod k.cqs x.cq (fun e => { e with waiting := e.waiting ++ [(dw0, sq, cid, sf)] }) })

/-- Completions that waited are written while entries are free. -/
def drainNvm : Nat → State → Nat → Nat → State
  | 0, s, _, _ => s
  | f + 1, s, c, q =>
    match oget (s.ctl c).cqs q with
    | none => s
    | some e =>
      match e.waiting with
      | [] => s
      | (d, sq, cid, sf) :: rest =>
        if cqFull e then s
        else drainNvm f (writeNvmCqe (s.modCtl c (fun k => { k with cqs := omod k.cqs q (fun e => { e with waiting := rest }) })) c q d sq cid sf) c q

/-- Submission queue number of the pseudo-command that a normal shutdown is. -/
def shnQueue : Nat := 0xFFFF

/-- Whether a command still needs a namespace. -/
def usesNs (m : NvmCmd) (n : Nat) : Bool := m.begun && (m.ns == n || m.flush.contains n)

/-! ### Asynchronous events -/

def logOf (dw0 : Nat) : Nat := dw0 / 65536 % 256

/-- A command leaves the controller, with its completion. -/
def endNvm (s : State) (c : Nat) (m : NvmCmd) (dw0 sf : Nat) : State :=
  let s1 := s.modCtl c (fun k => { k with cmds := k.cmds.filter (fun x => x.no != m.no), errors := if sf = 0 then k.errors else k.errors + 1, lastError := if sf = 0 then k.lastError else m.sq + m.cid * 65536 + sf * 2 ^ 33 })
  let s2 := s1.modSto (fun x => { x with waitWrites := x.waitWrites.filter (fun w => w != (c, m.no)) })
  let s3 := if m.sq = shnQueue then s2.modCtl c (fun k => { k with shst := 2 }) else postNvm s2 c m.sq m.cid dw0 sf
  if m.sq = 0 ∨ m.sq = shnQueue then s3
  else match (s.ctl c).tile with
    | some t => s3.modSto (fun x => { x with tiles := mset x.tiles t { mget x.tiles t {} with cmds := ((mget x.tiles t {}).cmds + 1) % 2 ^ 64 } {} })
    | none => s3

/-- Events are reported to the Asynchronous Event Requests that wait; a log page reported masks its events until read. -/
def deliverAsync : Nat → State → Nat → State
  | 0, s, _ => s
  | f + 1, s, c =>
    let k := s.ctl c
    match k.events.find? (fun e => !k.masked.contains (logOf e)), k.cmds.find? (fun m => m.sq == 0 && m.begun && fld m.sqe 0 8 == 0x0C) with
    | some e, some m =>
      deliverAsync f (endNvm (s.modCtl c (fun k => { k with events := k.events.filter (· != e), masked := logOf e :: k.masked })) c m e 0) c
    | _, _ => s

def asyncEvent (s : State) (c dw0 : Nat) : State :=
  if (s.ctl c).events.contains dw0 || !(s.ctl c).rdy then s
  else deliverAsync 8 (s.modCtl c (fun k => { k with events := k.events ++ [dw0] })) c

/-- Namespace Attribute Changed: the NSID is listed and the event posted where enabled (R449). -/
def nsChanged (s : State) (c nsid : Nat) : State :=
  let s1 := s.modCtl c (fun k => { k with changed := if k.changed.contains nsid then k.changed else k.changed ++ [nsid] })
  if bitAt (s.ctl c).async 8 then asyncEvent s1 c 0x040002 else s1

/-! ### Namespaces as a controller sees them (R447 to R449) -/

/-- The namespace attached at an NSID. -/
def nsAt (s : State) (c nsid : Nat) : Option (Nat × Namespace) :=
  s.sto.nss.find? (fun p => p.2.at_ == some (c, nsid) && p.2.detach.isNone)

/-- NSIDs attached to a controller, ascending. -/
def nsidsOf (s : State) (c : Nat) : List Nat :=
  (List.range 257).filter (fun n => (nsAt s c n).isSome)

/-- NS_DETACH completes once no command of the namespace is outstanding (R449). -/
def settleDetach (s : State) (n : Nat) : State :=
  match oget s.sto.nss n with
  | none => s
  | some x =>
    match x.detach, x.at_ with
    | some ref, some (c, nsid) =>
      if (s.ctl c).cmds.any (fun m => usesNs m n) then s
      else finish (nsChanged (s.modNs n (fun x => { x with at_ := none, detach := none, failed := 0 })) c nsid) ref 0 x.failed 0
    | _, _ => s

/-- Die of a controller's STO tile. -/
def stoDie (s : State) (c : Nat) : Nat := ((s.ctl c).tile).elim 0 (fun t => if t < 4 then 0 else 1)

/-- Seal or open 4 KiB blocks of a namespace, each as one data unit named by its LBA (R448): none where the slot no longer
holds a loaded key (R429), which ends the command with Internal Error (DESIGN CHOICE, log 47). -/
def nsCrypt (s : State) (die : Nat) (enc : Bool) (x : Namespace) (lba : Nat) (bs : List Byte) : State × Option (List Byte) :=
  match x.key with
  | none => (s, some bs)
  | some k => cryptBlocks s die k enc lba bs

/-! ### The write buffer (R450, R451) -/

/-- Blocks of slice n. -/
def sliceBlocks (s : State) (n : Nat) : Nat := if s.sto.committed then mget s.sto.sizes n 0 * 256 else 0
def wbAddr (s : State) (w : WBlock) : Nat := mget s.sto.bases w.slice 0 * 2 ^ 21 + w.place * 4096

/-- A free place, taken from the slices in rotation. -/
def takePlace (s : State) : Option (Nat × Nat) :=
  (List.range 8).findSome? (fun k =>
    let n := (s.sto.ptr + k) % 8
    (lowestOf ((s.sto.blocks.filter (fun w => w.slice == n)).map (·.place)) (sliceBlocks s n)).map (fun p => (n, p)))

def liveBlock (s : State) (n lba : Nat) : Option WBlock := s.sto.blocks.find? (fun w => w.ns == n && w.lba == lba && !w.stale)
def dropBlock (s : State) (id : Nat) : State := s.modSto (fun x => { x with blocks := x.blocks.filter (fun w => w.id != id) })
def modBlock (s : State) (id : Nat) (f : WBlock → WBlock) : State :=
  s.modSto (fun x => { x with blocks := x.blocks.map (fun w => if w.id = id then f w else w) })

/-- Flushes that waited for one block wait for the one that replaced it. -/
def rewait (s : State) (old new : Nat) : State :=
  s.modSto (fun x => { x with ctrls := x.ctrls.map (fun p => (p.1, { p.2 with cmds := p.2.cmds.map (fun m =>
    if m.flush.isEmpty then m else { m with waits := m.waits.map (fun w => if w = old then new else w) }) })) })

/-- The claimant that a controller's tile is. -/
def stoCl (s : State) (c : Nat) : Nat := stoDom (((s.ctl c).tile).getD 0)

/-- Place one block in the buffer, replacing an earlier one of its LBA; none while no place is free. -/
def placeBlock (s : State) (cl n lba : Nat) (bs : List Byte) : Option (State × Nat) :=
  let old := liveBlock s n lba
  let s0 := match old with
    | some w => if w.writing then modBlock s w.id (fun w => { w with stale := true }) else dropBlock s w.id
    | none => s
  match takePlace s0 with
  | none => none
  | some (sl, pl) =>
    let id := s0.sto.blockNo + 1
    let w : WBlock := { id := id, ns := n, lba := lba, slice := sl, place := pl, faulted := old.any (·.faulted) }
    let s1 := s0.modSto (fun x => { x with blockNo := id, ptr := (sl + 1) % 8, blocks := x.blocks ++ [w] })
    let s2 := match old with
      | some o => rewait s1 o.id id
      | none => s1
    let p := engineWrite s2 cl (wbAddr s2 w) bs
    some p

/-- A buffered block that reads as uncorrectable is freed, counted and reported (R455, R463). -/
def loseBuffered (s : State) (w : WBlock) : State :=
  let b := match oget s.sto.nss w.ns with
    | some x => x.backend
    | none => 0
  bothPf1.foldl (fun s r => postEventS s r 0x3004 b 0x04 (w.ns + w.lba % 2 ^ 32 * 2 ^ 32) 0)
    ((dropBlock s w.id).modSto (fun x => { x with lost := satAdd 32 x.lost 1 }))

/-! ### Backend commands (R444, R446, R455) -/

def modCmd (s : State) (c no : Nat) (f : NvmCmd → NvmCmd) : State :=
  s.modCtl c (fun k => { k with cmds := k.cmds.map (fun m => if m.no = no then f m else m) })
def cmdOf (s : State) (c no : Nat) : Option NvmCmd := (s.ctl c).cmds.find? (fun m => m.no == no)

def bopCode (o : BOp) : Nat := match o with | .flush => 0x00 | .write => 0x01 | .read => 0x02 | .dealloc => 0x09

/-- Send the commands of a backend that its queues have room for, oldest first; a REMOTE one sees them as NVMe commands. -/
def sendCmds (b : Nat) : List BCmd → Nat → State → List BCmd → State × List BCmd
  | [], _, s, acc => (s, acc)
  | m :: rest, room, s, acc =>
    match oget s.sto.backends b with
    | none => (s, acc ++ m :: rest)
    | some k =>
      if m.sent then sendCmds b rest (room - 1) s (acc ++ [m])
      else if k.remote && room == 0 then (s, acc ++ m :: rest)
      else
        let s1 := if k.remote then emit s (.target b (bopCode m.op) m.lba m.n m.fua m.data) else s
        let s2 := match m.who with
          | .host c no => modCmd s1 c no (fun x => { x with started := true })
          | _ => s1
        sendCmds b rest (room - 1) s2 (acc ++ [{ m with sent := true }])

def sendBack (s : State) (b : Nat) : State :=
  match oget s.sto.backends b with
  | none => s
  | some k =>
    if k.st ≠ .ready then s
    else
      let p := sendCmds b k.cmds (k.queues * k.depth) s []
      p.1.modBack b (fun k => { k with cmds := p.2 })

def addB (s : State) (b : Nat) (m : BCmd) : State := s.modBack b (fun k => { k with cmds := k.cmds ++ [m] })

/-! ### Progress -/

/-- A write-through of these LBAs stands (R451). -/
def throughOn (s : State) (n lba : Nat) : Bool :=
  s.sto.ctrls.any (fun p => p.2.cmds.any (fun m => m.through && m.ns == n && decide (m.lba ≤ lba) && decide (lba < m.lba + m.n)))

/-- Data of block i of a Write. -/
def blockData (m : NvmCmd) (i : Nat) : List Byte :=
  if m.zeroes then List.replicate 4096 0#8
  else match m.data with
    | .ok bs => fitB (bs.drop (4096 * i)) 4096
    | _ => []

def dataBad (m : NvmCmd) : Bool := !m.zeroes && (match m.data with | .ok _ => false | _ => true)

/-- Place blocks of a cached Write while places are free; it completes when all are in the buffer (R451). -/
def placeWrite : Nat → State → Nat → NvmCmd → State
  | 0, s, c, m => endNvm s c m 0 (m.err.getD 0)
  | f + 1, s, c, m =>
    if m.n ≤ m.placed then endNvm s c m 0 (m.err.getD 0)
    else match placeBlock s (stoCl s c) m.ns (m.lba + m.placed) (blockData m m.placed) with
      | none => modCmd s c m.no (fun _ => m)
      | some (s1, st) =>
        placeWrite f s1 c { m with placed := m.placed + 1, started := true, err := if st = 0 then m.err else some 0x280 }

/-- Writes that wait take freed places in arrival order. -/
def placeWaiting : Nat → State → State
  | 0, s => s
  | f + 1, s =>
    match s.sto.waitWrites with
    | [] => s
    | (c, no) :: rest =>
      match cmdOf s c no with
      | none => placeWaiting f (s.modSto (fun x => { x with waitWrites := rest }))
      | some m =>
        let s1 := placeWrite m.n s c m
        if (cmdOf s1 c no).isSome then s1 else placeWaiting f s1

/-- Blocks being written back or waited for are all gone. -/
def gone (s : State) (ids : List Nat) : Bool := !s.sto.blocks.any (fun w => ids.contains w.id)

/-- Backend of a namespace. -/
def backOfNs (s : State) (n : Nat) : Nat × Nat × Bool :=
  match oget s.sto.nss n with
  | none => (0, 0, false)
  | some x => match oget s.sto.backends x.backend with
    | none => (x.backend, x.first, false)
    | some k => (x.backend, x.first, k.remote)

/-- Issue the backend part of a command whose waits have ended (R451, R453, R454). -/
def stepCmd (s : State) (c : Nat) (m : NvmCmd) : State :=
  if !m.begun || m.issued then s
  else if m.through then
    if s.sto.blocks.any (fun w => w.writing && w.ns == m.ns && decide (m.lba ≤ w.lba) && decide (w.lba < m.lba + m.n)) then s
    else
      match oget s.sto.nss m.ns with
      | none => s
      | some x =>
        match nsCrypt s (stoDie s c) true x m.lba ((List.range m.n).flatMap (blockData m)) with
        | (s1, none) => endNvm s1 c m 0 0x06
        | (s1, some bs) =>
          addB (modCmd s1 c m.no (fun m => { m with issued := true, left := 1 })) x.backend
            { op := .write, lba := x.first + m.lba, n := m.n, fua := true, data := bs, who := .host c m.no }
  else if !m.ranges.isEmpty then
    if !gone s m.waits then s
    else
      match oget s.sto.nss m.ns with
      | none => s
      | some x =>
        let rem := (backOfNs s m.ns).2.2
        if !rem && x.key.any (fun k => !(s.slot k).any (fun v => v.st == .loaded)) then endNvm s c m 0 0x06
        else m.ranges.foldl (fun s r =>
          if rem then addB s x.backend { op := .dealloc, lba := x.first + r.1, n := r.2, who := .host c m.no }
          else
            let p := nsCrypt s (stoDie s c) true x r.1 (List.replicate (4096 * r.2) 0#8)
            addB p.1 x.backend { op := .write, lba := x.first + r.1, n := r.2, who := .host c m.no, data := p.2.getD [] })
          (modCmd s c m.no (fun m => { m with issued := true, left := m.ranges.length }))
  else if !m.flush.isEmpty || m.sq == shnQueue then
    if !gone s m.waits then s
    else
      let rs := m.flush.filter (fun n => (backOfNs s n).2.2)
      if rs.isEmpty then endNvm s c m 0 0
      else rs.foldl (fun s n => addB s (backOfNs s n).1 { op := .flush, who := .host c m.no })
        (modCmd s c m.no (fun m => { m with issued := true, left := rs.length }))
  else s

/-- Start write-backs, oldest block first, one per LBA, while the backend's queues have room and no write-through of the
LBA stands (R451). -/
def startBack (s : State) (w : WBlock) : State :=
  match oget s.sto.nss w.ns with
  | none => s
  | some x =>
    match oget s.sto.backends x.backend with
    | none => s
    | some k =>
      let backs := (k.cmds.filter (fun m => match m.who with | .back _ => true | _ => false)).length
      if k.st ≠ .ready || w.writing || w.stale || (k.remote && decide (k.queues * k.depth ≤ backs))
          || s.sto.blocks.any (fun v => v.writing && v.ns == w.ns && v.lba == w.lba) || throughOn s w.ns w.lba then s
      else
        let cl := match x.at_ with
          | some (c, _) => stoCl s c
          | none => stoDom 0
        let die := match x.at_ with
          | some (c, _) => stoDie s c
          | none => 0
        let p := engineRead s cl (wbAddr s w) 4096
        if p.2.1 = 0x04 then loseBuffered p.1 w
        else if p.2.1 ≠ 0 then p.1
        else match nsCrypt p.1 die true x w.lba p.2.2 with
          | (s1, none) => s1
          | (s1, some bs) => addB (modBlock s1 w.id (fun w => { w with writing := true })) x.backend
              { op := .write, lba := x.first + w.lba, n := 1, data := bs, who := .back w.id }

/-- A PF2 VF being frozen becomes FROZEN once every command but event requests has completed, every completion is posted
and every buffered block of its namespaces has been written back (R487). -/
def checkFreezeNvm (s : State) (c : Nat) (k : Ctrl) : State :=
  let r := rankOf c
  match (s.fn r).freeze with
  | none => s
  | some ref =>
    let ns := (s.sto.nss.filter (fun n => n.2.at_.any (fun a => a.1 == c))).map (·.1)
    if k.cmds.all (fun m => fld m.sqe 0 8 == 0x0C && m.sq == 0) && k.cqs.all (fun q => q.2.waiting.isEmpty) && !s.sto.blocks.any (fun w => ns.contains w.ns) then
      finish (s.modFn r (fun f => { f with st := .frozen, freeze := none })) ref 0 0 0
    else s

/-! ### Fetch (R442, R457) -/

def adminOps : List Nat := [0x00, 0x01, 0x02, 0x04, 0x05, 0x06, 0x08, 0x09, 0x0A, 0x0C]
def ioOps : List Nat := [0x00, 0x01, 0x02, 0x08, 0x09]

/-- A queue and command identifier are busy until the completion has been posted, and that of an Abort that names them
(R457). -/
def cidBusy (k : Ctrl) (q cid : Nat) : Bool :=
  let posting (q cid : Nat) : Bool := k.cqs.any (fun p => p.2.waiting.any (fun w => w.2.1 == q && w.2.2.1 == cid))
  k.cmds.any (fun m => m.sq == q && m.cid == cid) || posting q cid
  || k.cmds.any (fun m => m.sq == 0 && fld m.sqe 0 8 == 0x08 && fld m.sqe 320 16 == q && fld m.sqe 336 16 == cid)
  || k.aborts.any (fun a => a.2 == (q, cid) && posting 0 a.1)

def waitingOp (k : Ctrl) (op : Nat) : Nat := (k.cmds.filter (fun m => m.sq == 0 && fld m.sqe 0 8 == op)).length

/-- A command is fetched: it is outstanding, or completes at once where it is not to be executed (R440, R456, R457). -/
def fetchNvm (c q : Nat) (s : State) (bs : List Byte) : State :=
  let sqe := leNat bs
  let k := s.ctl c
  let cid := fld sqe 16 16
  let op := fld sqe 0 8
  let s1 := s.modCtl c (fun k => { k with sqs := omod k.sqs q (fun x => { x with head := if x.size ≤ x.head + 1 then 0 else x.head + 1 }) })
  if cidBusy k q cid then postNvm s1 c q cid 0 0x03
  else
    let m : NvmCmd := { no := k.cmdNo + 1, sq := q, cid := cid, sqe := sqe }
    let s2 := s1.modCtl c (fun k => { k with cmdNo := k.cmdNo + 1, cmds := k.cmds ++ [m] })
    if !(if q = 0 then adminOps else ioOps).contains op then endNvm s2 c m 0 0x01
    else if fld sqe 8 2 ≠ 0 ∨ fld sqe 14 2 ≠ 0 then endNvm s2 c m 0 0x02
    else if q = 0 ∧ op = 0x08 ∧ 4 ≤ waitingOp k 0x08 then endNvm s2 c m 0 0x103
    else if q = 0 ∧ op = 0x0C ∧ 4 ≤ waitingOp k 0x0C then endNvm s2 c m 0 0x105
    else s2

/-- The controller fetches: its function runs and is not being frozen, and its tile takes work (R442, R487). -/
def ctrlFetches (s : State) (r : Nat) (k : Ctrl) (q : Nat) : Bool :=
  k.rdy && (s.fn r).st == .active && (s.fn r).freeze.isNone && (match k.tile with
    | some t => stoState s t == 1
    | none => q == 0)

/-- Entries of 64 bytes. -/
def entries64 : Nat → List Byte → List (List Byte)
  | 0, _ => []
  | k + 1, bs => fitB (bs.take 64) 64 :: entries64 k (bs.drop 64)

/-- Fetch the entries of a queue up to its tail, as a read of them gave. -/
def fetchTo (s : State) (c q : Nat) (read : HRead) : State :=
  match oget (s.ctl c).sqs q with
  | none => s
  | some x =>
    let n := (x.tail + x.size - x.head) % x.size
    let s1 := s.modCtl c (fun k => { k with sqs := omod k.sqs q (fun x => { x with late := none }) })
    match read with
    | .ok bs => (entries64 n bs).foldl (fetchNvm c q) s1
    | _ => if n = 0 then s1 else s1.modCtl c (fun k => { k with cfs := true })

/-- A controller that fetches again takes the entries it had to leave (R442, R487). -/
def fetchLate (s : State) (c : Nat) : State :=
  (s.ctl c).sqs.foldl (fun s q => match q.2.late with
    | some read => if ctrlFetches s (rankOf c) (s.ctl c) q.1 then fetchTo s c q.1 read else s
    | none => s) s

/-- Let everything go on that can. -/
def settleSto (s : State) : State :=
  let s1 := (s.sto.ctrls.flatMap (fun p => p.2.cmds.map (fun m => (p.1, m)))).foldl (fun s q => stepCmd s q.1 q.2) s
  let s2 := placeWaiting (s1.sto.waitWrites.length + 1) s1
  let s3 := s2.sto.blocks.foldl startBack s2
  let s4 := s3.sto.backends.foldl (fun s p => sendBack s p.1) s3
  let s5 := s4.sto.nss.foldl (fun s p => if p.2.detach.isSome then settleDetach s p.1 else s) s4
  let s6 := s5.sto.ctrls.foldl (fun s p => if p.2.rdy then replace s p.1 else s) s5
  let s7 := s6.sto.ctrls.foldl (fun s p => if p.2.sqs.any (fun q => q.2.late.isSome) then fetchLate s p.1 else s) s6
  s7.sto.ctrls.foldl (fun s p => checkFreezeNvm s p.1 p.2) s7

/-! ### Host memory of a command -/

/-- Pages of `n` bytes under PRP1, PRP2 and what the PRP list gave: `none` where an offset is not allowed. -/
def prpPages (sqe n : Nat) (list : HRead) : Option (Except Unit (List (Nat × Nat))) :=
  let p1 := fld sqe 192 64
  let p2 := fld sqe 256 64
  let first := min n (4096 - p1 % 4096)
  let rest := n - first
  let pages := (rest + 4095) / 4096
  let size (k : Nat) : Nat := min 4096 (rest - 4096 * k)
  if p1 % 4 ≠ 0 then none
  else if pages = 0 then some (.ok [(p1, first)])
  else if pages = 1 then (if p2 % 4096 ≠ 0 then none else some (.ok [(p1, first), (p2, rest)]))
  else match list with
    | .ok bs =>
      let es := (List.range pages).map (fun k => leNat (sliceB bs (8 * k) 8))
      if es.any (fun e => e % 4096 ≠ 0) then none
      else some (.ok ((p1, first) :: (List.range pages).map (fun k => (lget es k 0, size k))))
    | _ => some (.error ())

/-- Write bytes that lie from `off` on in the buffer that the pages make. -/
def scatter (r : Nat) : List (Nat × Nat) → Nat → List Byte → State → State
  | [], _, _, s => s
  | (a, n) :: rest, off, bs, s =>
    if bs.isEmpty then s
    else if n ≤ off then scatter r rest (off - n) bs s
    else
      let k := min bs.length (n - off)
      scatter r rest 0 (bs.drop k) (hostWrite s r (a + off) (bs.take k))

/-- Data of an admin command goes to the host, and the command completes. -/
def adminData (s : State) (c : Nat) (m : NvmCmd) (list : HRead) (bs : List Byte) : State :=
  match prpPages m.sqe bs.length list with
  | none => endNvm s c m 0 0x13
  | some (.error _) => endNvm s c m 0 0x04
  | some (.ok ps) => endNvm (scatter (rankOf c) ps 0 bs s) c m 0 0

/-- The head command of a submission queue that its row has not taken up yet, when its opcode is the row's; an I/O
command needs the controller's tile (R442). -/
def onNvm (s : State) (r q op : Nat) (eff : Nat → NvmCmd → State → State) : State :=
  match ctrlOf r with
  | none => s
  | some c =>
    let k := s.ctl c
    if !k.rdy || (s.fn r).st != .active || (q != 0 && k.tile.isNone) then s
    else match k.cmds.find? (fun m => m.sq == q && !m.begun) with
      | none => s
      | some m =>
        if fld m.sqe 0 8 ≠ op then s
        else
          let m1 := { m with begun := true }
          eff c m1 (modCmd s c m.no (fun _ => m1))

/-! ### Controller enable and doorbells (R442, R476) -/

def nextGen (g : Nat) : Nat := if g = 0xFFFF then 1 else g + 1

/-- The controller starts: its admin queues under AQA, ASQ and ACQ, and a tile (R442). -/
def ctrlStart (s : State) (c : Nat) : State :=
  let s1 := s.modCtl c (fun k => { k with
    rdy := true, shst := 0, cfs := false
    sqs := [(0, { base := k.asq / 4096 * 4096, size := fld k.aqa 0 12 + 1 })]
    cqs := [(0, { base := k.acq / 4096 * 4096, size := fld k.aqa 16 12 + 1, ien := true })] })
  placeCtrl s1 c

/-- The controller stops: its commands are dropped and its queues are gone; buffered blocks stay (R450). -/
def ctrlStop (s : State) (c : Nat) : State :=
  let k := s.ctl c
  let s1 := s.modSto (fun x => { x with waitWrites := x.waitWrites.filter (fun w => w.1 != c) })
  let s2 := s1.modCtl c (fun _ => { cc := k.cc, intms := 0, aqa := k.aqa, asq := k.asq, acq := k.acq, cmdNo := k.cmdNo })
  settleSto s2

/-- CC.EN from 0 to 1 enables the function (Table 14-4) and starts the controller; before stage 4 it waits (R541). -/
def doCcSet (r cc : Nat) (s : State) : State :=
  match ctrlOf r with
  | none => s
  | some c =>
    if bitAt (s.ctl c).cc 0 || !bitAt cc 0 then s
    else if (s.fn r).st = .clean then
      ctrlStart ((s.modFn r (fun f => { f with st := .active, gen := nextGen f.gen })).modCtl c (fun k => { k with cc := cc })) c
    else if (s.fn r).st = .draining then
      (s.modFn r (fun f => { f with rearm := true })).modCtl c (fun k => { k with cc := cc })
    else if (s.fn r).st = .off ∧ s.power.stage < 4 then
      (s.modFn r (fun f => { f with waitEnable := true })).modCtl c (fun k => { k with cc := cc })
    else s

def execCcEnSet (fn cc : Nat) (s : State) : Host.Outcome State Fault Refusal := .next (gated fn (.ccEnSet fn cc) (doCcSet fn cc) s)

/-- A write to a tail doorbell: the commands it covers are fetched, while the controller's tile takes work and the
function runs, or once they do again (R442, R487). -/
def doSqTail (r q tail : Nat) (read : HRead) (s : State) : State :=
  match ctrlOf r with
  | none => s
  | some c =>
    let k := s.ctl c
    if !k.rdy then s
    else match oget k.sqs q with
      | none => asyncEvent s c 0x010000
      | some x =>
        if x.size ≤ tail then asyncEvent s c 0x010100
        else
          let s1 := s.modCtl c (fun k => { k with sqs := omod k.sqs q (fun x => { x with tail := tail, late := some read }) })
          if ctrlFetches s r k q then fetchTo s1 c q read else s1

def execSqTailDoorbell (fn q tail : Nat) (cmds : HRead) (s : State) : Host.Outcome State Fault Refusal :=
  .next (gated fn (.sqTailDoorbell fn q tail cmds) (doSqTail fn q tail cmds) s)

/-- A write to a head doorbell releases completion entries. -/
def doCqHead (r q head : Nat) (s : State) : State :=
  match ctrlOf r with
  | none => s
  | some c =>
    let k := s.ctl c
    if !k.rdy then s
    else match oget k.cqs q with
      | none => asyncEvent s c 0x010000
      | some e =>
        if e.size ≤ head then asyncEvent s c 0x010100
        else
          let s1 := drainNvm (e.waiting.length + 1) (s.modCtl c (fun k => { k with cqs := omod k.cqs q (fun e => { e with head := head }) })) c q
          checkFreezeNvm s1 c (s1.ctl c)

def execCqHeadDoorbell (fn q head : Nat) (s : State) : Host.Outcome State Fault Refusal :=
  .next (gated fn (.cqHeadDoorbell fn q head) (doCqHead fn q head) s)

/-- Start of a flush of namespaces: it waits for every block they have buffered (R453). -/
def beginFlush (s : State) (c : Nat) (m : NvmCmd) (ns : List Nat) : State :=
  let ids := (s.sto.blocks.filter (fun w => ns.contains w.ns && !w.stale)).map (·.id)
  settleSto (modCmd s c m.no (fun m => { m with flush := ns, waits := ids }))

def attachedTo (s : State) (c : Nat) : List Nat := (nsidsOf s c).filterMap (fun n => (nsAt s c n).map (·.1))

/-- CC.SHN: normal shutdown flushes every attached namespace, abrupt shutdown reports at once (R453). -/
def doShutdown (r shn : Nat) (s : State) : State :=
  match ctrlOf r with
  | none => s
  | some c =>
    let k := s.ctl c
    let s1 := s.modCtl c (fun k => { k with cc := setFld k.cc 14 2 shn })
    if !k.rdy then s1
    else if shn = 2 then s1.modCtl c (fun k => { k with shst := 2 })
    else if shn = 1 ∧ k.shst = 0 then
      let m : NvmCmd := { no := k.cmdNo + 1, sq := shnQueue, begun := true }
      beginFlush (s1.modCtl c (fun k => { k with shst := 1, cmdNo := k.cmdNo + 1, cmds := k.cmds ++ [m] })) c m (attachedTo s c)
    else s1

def execNvmeShutdown (fn shn : Nat) (s : State) : Host.Outcome State Fault Refusal :=
  .next (gated fn (.nvmeShutdown fn shn) (doShutdown fn shn) s)

/-! ### Admin commands (R439 to R441, R456) -/

def nsidF (m : NvmCmd) : Nat := fld m.sqe 32 32
def dw10 (m : NvmCmd) : Nat := fld m.sqe 320 32
def dw11 (m : NvmCmd) : Nat := fld m.sqe 352 32
def dw12 (m : NvmCmd) : Nat := fld m.sqe 384 32

/-- Bytes of a structure, from (offset, bytes, value) fields, zero elsewhere. -/
def layout (n : Nat) (fs : List (Nat × Nat × Nat)) : List Byte :=
  natLE n (fs.foldl (fun a f => setFld a (8 * f.1) (8 * f.2.1) f.2.2) 0)

/-- Identify Controller (R440); what R440 does not give is zero, or what Table 13-1 supports implies. -/
def idCtrl (c : Nat) : List Byte :=
  layout 4096 [(77, 1, 8), (78, 2, c), (80, 4, 0x20000), (92, 4, 0x100), (258, 1, 3), (259, 1, 3),
    (512, 1, 0x66), (513, 1, 0x44), (516, 4, 256), (520, 2, 0x0C), (525, 1, 1)]

def idNs (x : Namespace) : List Byte :=
  layout 4096 [(0, 8, x.blocks), (8, 8, x.blocks), (16, 8, x.blocks), (128, 4, 12 * 65536)]

def doIdentify (list : HRead) (c : Nat) (m : NvmCmd) (s : State) : State :=
  let cns := fld (dw10 m) 0 8
  let nsid := nsidF m
  let out := adminData s c m list
  if cns = 1 then out (idCtrl c)
  else if cns = 0 then
    if nsid = 0 ∨ 256 < nsid then endNvm s c m 0 0x0B
    else out (match nsAt s c nsid with
      | some x => idNs x.2
      | none => List.replicate 4096 0#8)
  else if cns = 2 then
    if 0xFFFFFFFE ≤ nsid then endNvm s c m 0 0x0B
    else out (fitB (((nsidsOf s c).filter (fun n => nsid < n)).flatMap (natLE 4)) 4096)
  else if cns = 3 then
    match nsAt s c nsid with
    | none => endNvm s c m 0 0x0B
    | some x => out (fitB ([3#8, 16#8, 0#8, 0#8] ++ natLE 16 (Config.nsUuid x.1).toNat) 4096)
  else endNvm s c m 0 0x02

def execIdentify (fn : Nat) (prps : HRead) (s : State) : Host.Outcome State Fault Refusal :=
  .next (onNvm s fn 0 0x06 (doIdentify prps))

/-- A page of free bytes with some fields given. -/
def freePage (s : State) (n : Nat) (fs : List (Nat × Nat × Nat)) : List Byte :=
  let v := (List.range (n / 64)).foldl (fun a k => a + (Config.freeBlock (s.freeCtr + k)).toNat * 2 ^ (512 * k)) 0
  natLE n (fs.foldl (fun a f => setFld a (8 * f.1) (8 * f.2.1) f.2.2) v)

/-- Log pages: what software can read of the controller; SMART values that no rule gives are free (log 3). -/
def doGetLog (list : HRead) (c : Nat) (m : NvmCmd) (s : State) : State :=
  let lid := fld (dw10 m) 0 8
  let n := 4 * (fld (dw10 m) 16 12 + 1)
  let k := s.ctl c
  let seen (s : State) : State :=
    if bitAt (dw10 m) 15 then s else deliverAsync 8 (s.modCtl c (fun k => { k with masked := k.masked.filter (· != lid) })) c
  if lid = 1 then
    seen (adminData s c m list (fitB (layout 64 (if k.errors = 0 then [] else
      [(0, 8, k.errors), (8, 2, k.lastError % 65536), (10, 2, k.lastError / 65536 % 65536), (12, 2, k.lastError / 2 ^ 32 % 65536)])) n))
  else if lid = 2 then
    seen (adminData { s with freeCtr := s.freeCtr + 8 } c m list (fitB (freePage s 512
      [(32, 16, (k.readBlocks * 8 + 999) / 1000), (48, 16, (k.writeBlocks * 8 + 999) / 1000), (64, 16, k.reads), (80, 16, k.writes)]) n))
  else if lid = 4 then
    let s1 := adminData s c m list (fitB (k.changed.flatMap (natLE 4)) n)
    seen (if bitAt (dw10 m) 15 then s1 else s1.modCtl c (fun k => { k with changed := [] }))
  else endNvm s c m 0 0x109

def execGetLogPage (fn : Nat) (prps : HRead) (s : State) : Host.Outcome State Fault Refusal :=
  .next (onNvm s fn 0 0x02 (doGetLog prps))

/-- Queue quota of a controller (R441, R486). -/
def queueQuota (s : State) (c : Nat) : Nat := if c < 2 then 128 else min 128 (fld (s.fn (rankOf c)).quotaB.toNat 40 8)
def sqAlloc (s : State) (c : Nat) : Nat := ((s.ctl c).nsqs).getD (queueQuota s c)
def cqAlloc (s : State) (c : Nat) : Nat := ((s.ctl c).ncqs).getD (queueQuota s c)

def doSetFeatures (c : Nat) (m : NvmCmd) (s : State) : State :=
  let f := fld (dw10 m) 0 8
  let v := dw11 m
  let k := s.ctl c
  let put (g : Ctrl → Ctrl) : State := endNvm (s.modCtl c g) c m 0 0
  if !([1, 6, 7, 8, 9, 11].contains f) then endNvm s c m 0 0x02
  else if bitAt (dw10 m) 31 then endNvm s c m 0 0x10D
  else if f = 1 then put (fun k => { k with arb := v })
  else if f = 6 then put (fun k => { k with vwc := bitAt v 0 })
  else if f = 8 then put (fun k => { k with coalesce := v % 65536 })
  else if f = 9 then
    if vectorsOf (rankOf c) ≤ fld v 0 16 then endNvm s c m 0 0x02
    else put (fun k => { k with ivCfg := mset k.ivCfg (fld v 0 16) (fld v 16 1) 0 })
  else if f = 11 then put (fun k => { k with async := v })
  else if fld v 0 16 = 0xFFFF ∨ fld v 16 16 = 0xFFFF then endNvm s c m 0 0x02
  else if k.sqs.length > 1 ∨ k.cqs.length > 1 then endNvm s c m 0 0x0C
  else
    let a := min (fld v 0 16 + 1) (queueQuota s c)
    let b := min (fld v 16 16 + 1) (queueQuota s c)
    endNvm (s.modCtl c (fun k => { k with nsqs := some a, ncqs := some b })) c m (a - 1 + (b - 1) * 65536) 0

def execSetFeatures (fn : Nat) (s : State) : Host.Outcome State Fault Refusal := .next (onNvm s fn 0 0x09 doSetFeatures)

def doGetFeatures (c : Nat) (m : NvmCmd) (s : State) : State :=
  let f := fld (dw10 m) 0 8
  let k := s.ctl c
  let give (v : Nat) : State := endNvm s c m v 0
  if f = 1 then give k.arb
  else if f = 6 then give (b2n k.vwc)
  else if f = 7 then give (sqAlloc s c - 1 + (cqAlloc s c - 1) * 65536)
  else if f = 8 then give k.coalesce
  else if f = 9 then
    if vectorsOf (rankOf c) ≤ fld (dw11 m) 0 16 then endNvm s c m 0 0x02
    else give (fld (dw11 m) 0 16 + mget k.ivCfg (fld (dw11 m) 0 16) 0 * 65536)
  else if f = 11 then give k.async
  else endNvm s c m 0 0x02

def execGetFeatures (fn : Nat) (s : State) : Host.Outcome State Fault Refusal := .next (onNvm s fn 0 0x0A doGetFeatures)

/-- Create I/O Completion Queue (R441). -/
def doCreateCq (c : Nat) (m : NvmCmd) (s : State) : State :=
  let q := fld (dw10 m) 0 16
  let size := fld (dw10 m) 16 16 + 1
  let p := fld m.sqe 192 64
  if q = 0 ∨ cqAlloc s c < q ∨ (oget (s.ctl c).cqs q).isSome then endNvm s c m 0 0x101
  else if size < 2 ∨ 4096 < size then endNvm s c m 0 0x102
  else if !bitAt (dw11 m) 0 then endNvm s c m 0 0x02
  else if p % 4096 ≠ 0 then endNvm s c m 0 0x13
  else if vectorsOf (rankOf c) ≤ fld (dw11 m) 16 16 then endNvm s c m 0 0x108
  else endNvm (s.modCtl c (fun k => { k with cqs := oput k.cqs q { base := p, size := size, ien := bitAt (dw11 m) 1, iv := fld (dw11 m) 16 16 } })) c m 0 0

def execCreateIoCq (fn : Nat) (s : State) : Host.Outcome State Fault Refusal := .next (onNvm s fn 0 0x05 doCreateCq)

/-- Create I/O Submission Queue (R441). -/
def doCreateSq (c : Nat) (m : NvmCmd) (s : State) : State :=
  let q := fld (dw10 m) 0 16
  let size := fld (dw10 m) 16 16 + 1
  let p := fld m.sqe 192 64
  let cq := fld (dw11 m) 16 16
  if q = 0 ∨ sqAlloc s c < q ∨ (oget (s.ctl c).sqs q).isSome then endNvm s c m 0 0x101
  else if size < 2 ∨ 4096 < size then endNvm s c m 0 0x102
  else if cq = 0 ∨ (oget (s.ctl c).cqs cq).isNone then endNvm s c m 0 0x100
  else if !bitAt (dw11 m) 0 then endNvm s c m 0 0x02
  else if p % 4096 ≠ 0 then endNvm s c m 0 0x13
  else endNvm (s.modCtl c (fun k => { k with sqs := oput k.sqs q { base := p, size := size, cq := cq } })) c m 0 0

def execCreateIoSq (fn : Nat) (s : State) : Host.Outcome State Fault Refusal := .next (onNvm s fn 0 0x01 doCreateSq)

/-- Delete I/O Submission Queue: its outstanding commands complete with Command Aborted due to SQ Deletion. -/
def doDeleteSq (c : Nat) (m : NvmCmd) (s : State) : State :=
  let q := fld (dw10 m) 0 16
  if q = 0 ∨ (oget (s.ctl c).sqs q).isNone then endNvm s c m 0 0x101
  else
    let s1 := ((s.ctl c).cmds.filter (fun x => x.sq == q)).foldl (fun s x => endNvm s c x 0 0x08) s
    settleSto (endNvm (s1.modCtl c (fun k => { k with sqs := odel k.sqs q })) c m 0 0)

def execDeleteIoSq (fn : Nat) (s : State) : Host.Outcome State Fault Refusal := .next (onNvm s fn 0 0x00 doDeleteSq)

def doDeleteCq (c : Nat) (m : NvmCmd) (s : State) : State :=
  let q := fld (dw10 m) 0 16
  if q = 0 ∨ (oget (s.ctl c).cqs q).isNone then endNvm s c m 0 0x101
  else if (s.ctl c).sqs.any (fun p => p.2.cq == q) then endNvm s c m 0 0x10C
  else endNvm (s.modCtl c (fun k => { k with cqs := odel k.cqs q })) c m 0 0

def execDeleteIoCq (fn : Nat) (s : State) : Host.Outcome State Fault Refusal := .next (onNvm s fn 0 0x04 doDeleteCq)

/-- Abort (R456): a command that has not started does not start and completes with Command Abort Requested. -/
def abortOutcome (c : Nat) (m : NvmCmd) (s : State) : State :=
  let q := fld (dw10 m) 0 16
  let cid := fld (dw10 m) 16 16
  match (s.ctl c).cmds.find? (fun x => x.sq == q && x.cid == cid) with
  | none => endNvm s c m 1 0
  | some x =>
    if q = 0 then
      if fld x.sqe 0 8 = 0x0C then endNvm (endNvm s c x 0 0x07) c m 0 0 else endNvm s c m 1 0
    else if x.started then endNvm s c m 1 0
    else
      let strip (k : Backend) : Backend := { k with cmds := k.cmds.filter (fun b => b.who != .host c x.no) }
      let s1 := s.modSto (fun z => { z with backends := z.backends.map (fun p => (p.1, strip p.2)) })
      let s2 := match (s.ctl c).tile with
        | some t => s1.modSto (fun z => { z with tiles := mset z.tiles t { mget z.tiles t {} with aborted := satAdd 32 (mget z.tiles t {}).aborted 1 } {} })
        | none => s1
      settleSto (endNvm (endNvm s2 c x 0 0x07) c m 0 0)

/-- The identifier an Abort names stays busy while the Abort's completion waits (R457). -/
def doNvmeAbort (c : Nat) (m : NvmCmd) (s : State) : State :=
  (abortOutcome c m s).modCtl c (fun k =>
    let held (cid : Nat) : Bool := k.cqs.any (fun p => p.2.waiting.any (fun w => w.2.1 == 0 && w.2.2.1 == cid))
    { k with aborts := (k.aborts ++ [(m.cid, fld (dw10 m) 0 16, fld (dw10 m) 16 16)]).filter (fun a => held a.1) })

def execNvmeAbort (fn : Nat) (s : State) : Host.Outcome State Fault Refusal := .next (onNvm s fn 0 0x08 doNvmeAbort)

/-- An Asynchronous Event Request waits for an event, or reports one that waits. -/
def doAer (c : Nat) (_m : NvmCmd) (s : State) : State := deliverAsync 8 s c

def execAsyncEventRequest (fn : Nat) (s : State) : Host.Outcome State Fault Refusal := .next (onNvm s fn 0 0x0C doAer)

/-! ### I/O commands (R451 to R454) -/

/-- First LBA and number of blocks that a command names. -/
def slbaF (m : NvmCmd) : Nat := fld m.sqe 320 64
def nlbF (m : NvmCmd) : Nat := fld (dw12 m) 0 16 + 1
def fuaF (m : NvmCmd) : Bool := bitAt (dw12 m) 30

/-- Checks that Read, Write and Write Zeroes share: namespace, length under MDTS, range. -/
def ioCheck (s : State) (c : Nat) (m : NvmCmd) (limit : Nat) (act : Nat → Namespace → NvmCmd → State) : State :=
  match nsAt s c (nsidF m) with
  | none => endNvm s c m 0 0x0B
  | some (n, x) =>
    if limit < nlbF m then endNvm s c m 0 0x02
    else if x.blocks < slbaF m + nlbF m then endNvm s c m 0 0x80
    else act n x { m with ns := n, lba := slbaF m, n := nlbF m }

/-- Runs of blocks that the buffer does not hold, as first and number. -/
def runsOf : List Nat → List (Nat × Nat)
  | [] => []
  | i :: rest => match runsOf rest with
    | (j, n) :: r => if j = i + 1 then (i, n + 1) :: r else (i, 1) :: (j, n) :: r
    | [] => [(i, 1)]

/-- A Read ends: the blocks it could read are in host memory (R452, R455). -/
def endRead (s : State) (c : Nat) (m : NvmCmd) : State :=
  let s1 := m.got.foldl (fun s p => scatter (rankOf c) m.pages (4096 * p.1) p.2 s) s
  endNvm (s1.modCtl c (fun k => { k with reads := k.reads + 1, readBlocks := k.readBlocks + m.n })) c m 0 (m.err.getD 0)

/-- One block of a Read from the buffer. -/
def readBuffered (c : Nat) (p : State × NvmCmd) (i : Nat) : State × NvmCmd :=
  match liveBlock p.1 p.2.ns (p.2.lba + i) with
  | none => p
  | some w =>
    let r := engineRead p.1 (stoCl p.1 c) (wbAddr p.1 w) 4096
    if r.2.1 = 0 then (r.1, { p.2 with got := oput p.2.got i r.2.2 })
    else ((if r.2.1 = 0x04 then loseBuffered r.1 w else r.1), { p.2 with err := some (p.2.err.getD 0x281) })

def doRead (list : HRead) (c : Nat) (m0 : NvmCmd) (s : State) : State :=
  ioCheck s c m0 256 (fun n x m =>
    match prpPages m.sqe (4096 * m.n) list with
    | none => endNvm s c m 0 0x13
    | some (.error _) => endNvm s c m 0 0x04
    | some (.ok ps) =>
      let miss := (List.range m.n).filter (fun i => (liveBlock s n (m.lba + i)).isNone)
      let p := (List.range m.n).foldl (readBuffered c) (s, { m with pages := ps, started := decide (miss.length < m.n) })
      let rs := runsOf miss
      if rs.isEmpty then settleSto (endRead p.1 c p.2)
      else
        let s1 := modCmd p.1 c m.no (fun _ => { p.2 with issued := true, left := rs.length })
        settleSto (rs.foldl (fun s r => addB s x.backend { op := .read, lba := x.first + m.lba + r.1, n := r.2, who := .host c m.no }) s1))

def execNvmeRead (fn sq : Nat) (prps : HRead) (s : State) : Host.Outcome State Fault Refusal :=
  .next (if sq = 0 then s else onNvm s fn sq 0x02 (doRead prps))

/-- A later Flush or FUA Write of the namespace completes with Write Fault (R455). -/
def nsFaulted (s : State) (n : Nat) : Bool := s.sto.blocks.any (fun w => w.ns == n && w.faulted)

/-- A Write, or Write Zeroes, once its data is at hand: through the buffer, or to the backend with the cache disabled or
FUA set (R451, R454). -/
def beginWrite (c n : Nat) (m : NvmCmd) (s : State) : State :=
  let s0 := s.modCtl c (fun k => { k with writes := k.writes + 1, writeBlocks := k.writeBlocks + m.n })
  if fuaF m && nsFaulted s n then endNvm s c m 0 0x280
  else if dataBad m then endNvm s c m 0 0x04
  else if fuaF m || !(s.ctl c).vwc then settleSto (modCmd s0 c m.no (fun _ => { m with through := true }))
  else settleSto ((modCmd s0 c m.no (fun _ => m)).modSto (fun x => { x with waitWrites := x.waitWrites ++ [(c, m.no)] }))

def doWrite (data : HRead) (c : Nat) (m0 : NvmCmd) (s : State) : State :=
  ioCheck s c m0 256 (fun n _ m =>
    if (prpPages m.sqe (4096 * m.n) (.ok [])).isNone then endNvm s c m 0 0x13 else beginWrite c n { m with data := data } s)

def execNvmeWrite (fn sq : Nat) (data : HRead) (s : State) : Host.Outcome State Fault Refusal :=
  .next (if sq = 0 then s else onNvm s fn sq 0x01 (doWrite data))

def doWriteZeroes (c : Nat) (m0 : NvmCmd) (s : State) : State :=
  ioCheck s c m0 65536 (fun n _ m => beginWrite c n { m with zeroes := true } s)

def execWriteZeroes (fn sq : Nat) (s : State) : Host.Outcome State Fault Refusal :=
  .next (if sq = 0 then s else onNvm s fn sq 0x08 doWriteZeroes)

/-- Flush of one namespace, or of every attached one under NSID FFFFFFFFh (R453). -/
def doFlush (c : Nat) (m : NvmCmd) (s : State) : State :=
  let ns := if nsidF m = 0xFFFFFFFF then attachedTo s c else ((nsAt s c (nsidF m)).map (·.1)).toList
  if ns.isEmpty then endNvm s c m 0 (if nsidF m = 0xFFFFFFFF then 0 else 0x0B)
  else if ns.any (nsFaulted s) then endNvm s c m 0 0x280
  else beginFlush s c m ns

def execNvmeFlush (fn sq : Nat) (s : State) : Host.Outcome State Fault Refusal :=
  .next (if sq = 0 then s else onNvm s fn sq 0x00 doFlush)

/-- Ranges of a Dataset Management command: first LBA and blocks. -/
def dsmRanges : Nat → List Byte → List (Nat × Nat)
  | 0, _ => []
  | k + 1, bs => (leNat (sliceB bs 8 8), leNat (sliceB bs 4 4)) :: dsmRanges k (bs.drop 16)

/-- Deallocate: buffered blocks of the ranges are freed, and the backend learns of it once the write-backs of those LBAs
have completed (R454). -/
def doDsm (read : HRead) (c : Nat) (m : NvmCmd) (s : State) : State :=
  match nsAt s c (nsidF m) with
  | none => endNvm s c m 0 0x0B
  | some (n, x) =>
    match read with
    | .ok bs =>
      let rs := (dsmRanges (fld (dw10 m) 0 8 + 1) (fitB bs (16 * (fld (dw10 m) 0 8 + 1)))).filter (fun r => r.2 != 0)
      if rs.any (fun r => decide (x.blocks < r.1 + r.2)) then endNvm s c m 0 0x80
      else if !bitAt (dw11 m) 2 || rs.isEmpty then endNvm s c m 0 0
      else
        let hit (w : WBlock) : Bool := w.ns == n && rs.any (fun r => decide (r.1 ≤ w.lba) && decide (w.lba < r.1 + r.2))
        let ids := (s.sto.blocks.filter (fun w => hit w && w.writing)).map (·.id)
        let s1 := s.modSto (fun z => { z with blocks := (z.blocks.filter (fun w => !hit w || w.writing)).map (fun w => if hit w then { w with stale := true } else w) })
        settleSto (modCmd s1 c m.no (fun m => { m with ns := n, ranges := rs, waits := ids, started := true }))
    | _ => endNvm s c m 0 0x04

def execDatasetManagement (fn sq : Nat) (ranges : HRead) (s : State) : Host.Outcome State Fault Refusal :=
  .next (if sq = 0 then s else onNvm s fn sq 0x09 (doDsm ranges))

/-! ### Completion at the backend (R455) -/

/-- What a backend command gives: the target's answer, or a STACK backend's own access of its range; `none` while the
target is down. -/
def backOutcome (s : State) (k : Backend) (m : BCmd) (cl : Nat) (ans : BRead) : State × Option (Nat × List Byte) :=
  if k.remote then
    match ans with
    | .ok bs => (s, some (0, fitB bs (4096 * m.n)))
    | .failed st => (s, some (if st % 32768 = 0 then 0x06 else st % 32768, []))
    | .down => (s, none)
  else match m.op with
    | .read =>
      let p := engineRead s cl (k.base + m.lba * 4096) (4096 * m.n)
      (p.1, some (if p.2.1 = 0 then 0 else 0x281, p.2.2))
    | .write =>
      let p := engineWrite s cl (k.base + m.lba * 4096) m.data
      (p.1, some (if p.2 = 0 then 0 else 0x280, []))
    | _ => (s, some (0, []))

/-- A host command learns of one of its backend commands. -/
def hostPart (s : State) (c no : Nat) (m : BCmd) (st : Nat) (bs : List Byte) : State :=
  match cmdOf s c no with
  | none => s
  | some h =>
    let h1 := { h with left := h.left - 1, err := if st = 0 then h.err else some (h.err.getD st) }
    match m.op, oget s.sto.nss h.ns with
    | .read, some x =>
      let i0 := m.lba - x.first - h.lba
      let p := if st = 0 then nsCrypt s (stoDie s c) false x (h.lba + i0) bs else (s, none)
      let h2 := match p.2 with
        | some pt => { h1 with got := (List.range m.n).foldl (fun g j => oput g (i0 + j) (sliceB pt (4096 * j) 4096)) h1.got }
        | none => { h1 with err := some (h1.err.getD 0x06) }
      if h2.left = 0 then endRead p.1 c h2 else modCmd p.1 c no (fun _ => h2)
    | .write, _ =>
      let s1 := if st = 0 && h.through then
          s.modSto (fun z => { z with blocks := z.blocks.filter (fun w => !(w.ns == h.ns && decide (h.lba ≤ w.lba) && decide (w.lba < h.lba + h.n))) })
        else s
      if h1.left = 0 then endNvm s1 c h1 0 (h1.err.getD 0) else modCmd s1 c no (fun _ => h1)
    | _, _ => if h1.left = 0 then endNvm s c h1 0 (h1.err.getD 0) else modCmd s c no (fun _ => h1)

/-- A write-back ends: the block leaves the buffer, or stays and is written again, with WRITE_FAULT (R455, R463). -/
def backPart (s : State) (b id st : Nat) : State :=
  match s.sto.blocks.find? (fun w => w.id == id) with
  | none => s
  | some w =>
    if st = 0 then dropBlock s id
    else
      let s1 := if w.stale then dropBlock s id
        else (dropBlock s id).modSto (fun x => { x with blocks := { w with writing := false, faulted := true } :: x.blocks })
      bothPf1.foldl (fun s r => postEventS s r 0x3003 b 0 (st % 65536 + w.ns * 65536 + w.lba % 2 ^ 32 * 2 ^ 32) 0) s1

/-- The i-th of some commands that a READY backend has been sent ends at the backend: the command, its outcome (0, or an
NVMe status field) and bytes. -/
def backDone (s : State) (b i : Nat) (sel : BFor → Bool) (ans : BRead) : State × Option (BCmd × Nat × List Byte) :=
  match oget s.sto.backends b with
  | none => (s, none)
  | some k =>
    if k.st ≠ .ready then (s, none)
    else match (k.cmds.filter (fun m => m.sent && sel m.who))[i]? with
      | none => (s, none)
      | some m =>
        let cl := match m.who with
          | .host c _ => stoCl s c
          | _ => stoDom 0
        match backOutcome s k m cl ans with
        | (s1, none) => (s1, none)
        | (s1, some (st, bs)) => (s1.modBack b (fun k => { k with cmds := k.cmds.erase m }), some (m, st, bs))

/-- A backend command that writes a buffered block back. -/
def servesBuffer (w : BFor) : Bool := match w with | .back _ => true | _ => false

/-- A write-back completes at the backend (R451, R455). -/
def doWriteBack (b i : Nat) (ans : BRead) (s : State) : State :=
  match backDone s b i servesBuffer ans with
  | (s1, some (m, st, _)) => match m.who with
    | .back id => settleSto (backPart s1 b id st)
    | _ => s1
  | (s1, none) => s1

def execWriteBackComplete (backend which : Nat) (answer : BRead) (s : State) : Host.Outcome State Fault Refusal :=
  .next (doWriteBack backend which answer s)

end Sys2Proof.Machine
end

