-- ==== Sys2Proof/Machine/Roce.lean ====
section
/-!
DEFINITION. RoCEv2 packets on the wire (09: R317, R318, R341, R347): the base transport header with its extended headers,
the UDP, IP and Ethernet headers of a path, and the ICRC of Annex A17. Header layouts are those of the InfiniBand
Architecture Specification that R317 cites (PRESUMED, log 11).
-/
namespace Sys2Proof.Machine

/-- 16-byte address is IPv4 as ::ffff:a.b.c.d. -/
def isV4 (a : List Byte) : Bool := a.take 12 == List.replicate 10 0#8 ++ [0xFF#8, 0xFF#8]

/-- Ones' complement sum of 16-bit words of a header (IPv4 checksum). -/
def onesSum : List Byte → Nat
  | a :: b :: r => a.toNat * 256 + b.toNat + onesSum r
  | [a] => a.toNat * 256
  | [] => 0
def ipSum (bs : List Byte) : Nat :=
  let n := onesSum bs
  let m := n % 65536 + n / 65536
  65535 - (m % 65536 + m / 65536)

/-! ### Opcodes -/

def isSendOp (o : Nat) : Bool := o ≤ 5
def isWriteOp (o : Nat) : Bool := 6 ≤ o && o ≤ 0xB
/-- First or only packet of a SEND or WRITE. -/
def opStarts (o : Nat) : Bool := [0, 4, 5, 6, 0xA, 0xB].contains o
/-- Last or only packet of a SEND or WRITE. -/
def opEnds (o : Nat) : Bool := [2, 3, 4, 5, 8, 9, 0xA, 0xB].contains o
def opImm (o : Nat) : Bool := [3, 5, 9, 0xB, 0x65].contains o
def opReth (o : Nat) : Bool := [6, 0xA, 0xB, 0xC].contains o
def opAeth (o : Nat) : Bool := [0xD, 0xF, 0x10, 0x11, 0x12].contains o
def opAtomic (o : Nat) : Bool := o == 0x13 || o == 0x14
def opUd (o : Nat) : Bool := o == 0x64 || o == 0x65
def opResponse (o : Nat) : Bool := 0xD ≤ o && o ≤ 0x12

/-- Extended headers of a packet. -/
def extHdrs (p : RocePkt) : List Byte :=
  (if opUd p.op then natBE 4 p.qkey ++ [0#8] ++ natBE 3 p.srcQp else [])
  ++ (if opReth p.op then natBE 8 p.va ++ natBE 4 p.rkey ++ natBE 4 p.len else [])
  ++ (if opAtomic p.op then natBE 8 p.va ++ natBE 4 p.rkey ++ natBE 8 p.swap ++ natBE 8 p.cmp else [])
  ++ (if opImm p.op then natBE 4 p.imm else [])
  ++ (if opAeth p.op then natBE 1 p.syndrome ++ natBE 3 p.msn else [])
  ++ (if p.op = 0x12 then natBE 8 p.orig else [])
  ++ (if p.op = 0x81 then List.replicate 16 0#8 else [])

/-- Base transport header, extended headers and padded payload. -/
def bthBytes (p : RocePkt) : List Byte :=
  let pad := (4 - p.data.length % 4) % 4
  natBE 1 p.op ++ natBE 1 (b2n p.solicited * 128 + 64 + pad * 16) ++ natBE 2 0xFFFF
  ++ [if p.op = 0x81 then 0x40#8 else 0#8] ++ natBE 3 p.destQp ++ [if p.ackReq then 0x80#8 else 0#8] ++ natBE 3 p.psn
  ++ extHdrs p ++ p.data ++ List.replicate pad 0#8

/-- A path (Table 9-10): the fields of an attribute record. -/
def pathV4 (attr : Nat) : Bool := isV4 (natLE 16 (fld attr 256 128))

/-- IP and UDP headers of a path, before the ICRC: type of service byte, hop limit and checksum as given. -/
def ipUdp (attr tos ttl udpSrc n : Nat) (zeroSums : Bool) : List Byte :=
  let src := natLE 16 (fld attr 464 128)
  let dst := natLE 16 (fld attr 256 128)
  let udp := natBE 2 udpSrc ++ natBE 2 4791 ++ natBE 2 (n + 8) ++ (if zeroSums then natBE 2 0 else natBE 2 0xFFFF)
  if pathV4 attr then
    let h (sum : Nat) : List Byte := [0x45#8] ++ natBE 1 tos ++ natBE 2 (n + 28) ++ [0#8, 0#8, 0x40#8, 0#8] ++ natBE 1 ttl ++ [17#8]
      ++ natBE 2 sum ++ src.drop 12 ++ dst.drop 12
    h (if zeroSums then ipSum (h 0) else 0xFFFF) ++ udp
  else
    natBE 4 (6 * 2 ^ 28 + tos * 2 ^ 20 + fld attr 176 20) ++ natBE 2 (n + 8) ++ [17#8] ++ natBE 1 ttl ++ src ++ dst ++ udp

/-- ICRC over the packet with its changeable fields set to ones (Annex A17). -/
def icrc (masked bth : List Byte) : List Byte :=
  let b := bth.take 4 ++ [0xFF#8] ++ bth.drop 5
  natLE 4 (crc32 (List.replicate 8 0xFF#8 ++ masked ++ b))

/-- The flow label is masked with the traffic class in IPv6. -/
def maskIp (v4 : Bool) (h : List Byte) : List Byte :=
  if v4 then h else [0x6F#8, 0xFF#8, 0xFF#8, 0xFF#8] ++ h.drop 4

/-- The frame of a packet on a path (R341, R347): ECT(0) where the gust controller is on. -/
def roceFrame (iface attr udpSrc : Nat) (ect : Bool) (p : RocePkt) : List Byte :=
  let bth := bthBytes p
  let n := bth.length + 4
  let tos := fld attr 160 6 * 4 + (if ect then 2 else 0)
  let ip := ipUdp attr tos (fld attr 168 8) udpSrc n true
  let m := maskIp (pathV4 attr) (ipUdp attr 0xFF 0xFF udpSrc n false)
  natLE 6 (fld attr 384 48) ++ natBE 6 (Config.ifMac iface).toNat
  ++ (if bitAt attr 447 then natBE 2 0x8100 ++ natBE 2 (fld attr 444 3 * 8192 + fld attr 432 12) else [])
  ++ natBE 2 (if pathV4 attr then 0x0800 else 0x86DD) ++ ip ++ bth ++ icrc m bth

/-! ### Received packets -/

/-- Fields of a packet from the bytes after its UDP header, without its ICRC. -/
def parseBth (bs : List Byte) : Option RocePkt :=
  if bs.length < 12 then none
  else
    let o := beNat (bs.take 1)
    let e := bs.drop 12
    let pad := beNat (sliceB bs 1 1) / 16 % 4
    let n1 := if opUd o then 8 else 0
    let n2 := n1 + (if opReth o then 16 else 0) + (if opAtomic o then 28 else 0)
    let n3 := n2 + (if opImm o then 4 else 0)
    let n4 := n3 + (if opAeth o then 4 else 0) + (if o = 0x12 then 8 else 0) + (if o = 0x81 then 16 else 0)
    if e.length < n4 + pad then none
    else some {
      op := o, destQp := beNat (sliceB bs 5 3), psn := beNat (sliceB bs 9 3), ackReq := bitAt (beNat (sliceB bs 8 1)) 7,
      solicited := bitAt (beNat (sliceB bs 1 1)) 7,
      qkey := if opUd o then beNat (sliceB e 0 4) else 0, srcQp := if opUd o then beNat (sliceB e 5 3) else 0,
      va := if opReth o || opAtomic o then beNat (sliceB e n1 8) else 0,
      rkey := if opReth o || opAtomic o then beNat (sliceB e (n1 + 8) 4) else 0,
      len := if opReth o then beNat (sliceB e (n1 + 12) 4) else 0,
      swap := if opAtomic o then beNat (sliceB e (n1 + 12) 8) else 0,
      cmp := if opAtomic o then beNat (sliceB e (n1 + 20) 8) else 0,
      imm := if opImm o then beNat (sliceB e n2 4) else 0,
      syndrome := if opAeth o then beNat (sliceB e n3 1) else 0, msn := if opAeth o then beNat (sliceB e (n3 + 1) 3) else 0,
      orig := if o = 0x12 then beNat (sliceB e (n3 + 4) 8) else 0,
      data := (e.drop n4).take (e.length - n4 - pad) }

/-- Where the IP header of a frame lies: after Ethernet and at most one tag. -/
def roceL3 (fr : List Byte) : Nat × Nat :=
  if beNat (sliceB fr 12 2) = 0x8100 then (18, beNat (sliceB fr 16 2)) else (14, beNat (sliceB fr 12 2))

/-- A RoCEv2 packet in a frame (R317): IP header offset, its length, and version 4 or 6. -/
def roceAt (fr : List Byte) : Option (Nat × Nat × Nat) :=
  let l3 := roceL3 fr
  let dport (o : Nat) : Bool := beNat (sliceB fr (o + 2) 2) == 4791 && decide (o + 8 + 12 + 4 ≤ fr.length)
  if l3.2 = 0x0800 ∧ beNat (sliceB fr l3.1 1) = 0x45 ∧ beNat (sliceB fr (l3.1 + 9) 1) = 17 ∧ dport (l3.1 + 20) then some (l3.1, 20, 4)
  else if l3.2 = 0x86DD ∧ beNat (sliceB fr (l3.1 + 6) 1) = 17 ∧ dport (l3.1 + 40) then some (l3.1, 40, 6)
  else none

/-- Destination address of the packet's IP header, as 16 bytes. -/
def roceDst (fr : List Byte) (o v : Nat) : List Byte :=
  if v = 4 then List.replicate 10 0#8 ++ [0xFF#8, 0xFF#8] ++ sliceB fr (o + 16) 4 else sliceB fr (o + 24) 16

/-- Path back to the sender of a frame (Table 9-10): addresses exchanged, the same DSCP and tag. -/
def pathBack (fr : List Byte) (o v tos : Nat) : Nat :=
  let src := if v = 4 then List.replicate 10 0#8 ++ [0xFF#8, 0xFF#8] ++ sliceB fr (o + 12) 4 else sliceB fr (o + 8) 16
  let tag := if beNat (sliceB fr 12 2) = 0x8100 then 2 ^ 447 + beNat (sliceB fr 14 2) / 8192 * 2 ^ 444 + beNat (sliceB fr 14 2) % 4096 * 2 ^ 432 else 0
  tos / 4 * 2 ^ 160 + leNat src * 2 ^ 256 + leNat (sliceB fr 6 6) * 2 ^ 384 + tag + leNat (roceDst fr o v) * 2 ^ 464

/-- The packet of a frame, and whether its ICRC is good (R318): `none` where it is no RoCEv2 packet. -/
def parseRoce (fr : List Byte) : Option (RocePkt × Bool) :=
  match roceAt fr with
  | none => none
  | some (o, hl, v) =>
    let total := if v = 4 then beNat (sliceB fr (o + 2) 2) else 40 + beNat (sliceB fr (o + 4) 2)
    let ip := sliceB fr o hl
    let udp := sliceB fr (o + hl) 8
    let body := (fr.take (o + total)).drop (o + hl + 8)
    let bth := body.take (body.length - 4)
    let tos := if v = 4 then beNat (sliceB ip 1 1) else beNat (ip.take 2) / 16 % 256
    let m := if v = 4 then [0x45#8, 0xFF#8] ++ sliceB ip 2 6 ++ [0xFF#8] ++ sliceB ip 9 1 ++ [0xFF#8, 0xFF#8] ++ ip.drop 12
      else [0x6F#8, 0xFF#8, 0xFF#8, 0xFF#8] ++ sliceB ip 4 3 ++ [0xFF#8] ++ ip.drop 8
    let good := icrc (m ++ udp.take 6 ++ [0xFF#8, 0xFF#8]) bth == body.drop (body.length - 4)
    (parseBth bth).map (fun p => ({ p with
      ce := tos % 4 == 3, size := fr.length, back := pathBack fr o v tos,
      grh := if v = 4 then List.replicate 20 0#8 ++ ip else ip }, good))

end Sys2Proof.Machine
end

