-- ==== Sys2Proof/Machine/Rdma.lean ====
section
/-!
DEFINITION. Remote memory (09): domains, regions and keys, queue pairs and their contexts, work requests and the
requester's side of the transport, errors, and the gust controller. Packets received stand in Machine/RdmaNet.lean.
-/
namespace Sys2Proof.Machine

def State.modRdma (s : State) (f : Rdma → Rdma) : State := { s with rdma := f s.rdma }
def State.modQp (s : State) (n : Nat) (f : Qp → Qp) : State := s.modRdma (fun x => { x with qps := omod x.qps n f })
def State.rtile (s : State) (t : Nat) : RdmaTile := mget s.rdma.tiles t {}
def State.modRtile (s : State) (t : Nat) (f : RdmaTile → RdmaTile) : State :=
  s.modRdma (fun x => { x with tiles := mset x.tiles t (f (mget x.tiles t {})) {} })
def State.ctile (s : State) (t : Nat) : ClsTile := mget s.cls.tiles t {}
def State.modCtile (s : State) (t : Nat) (f : ClsTile → ClsTile) : State :=
  { s with cls := { s.cls with tiles := mset s.cls.tiles t (f (mget s.cls.tiles t {})) {} } }
def State.netPort (s : State) (p : Nat) : NetPort := mget s.net.ports p {}
def State.modNetPort (s : State) (p : Nat) (f : NetPort → NetPort) : State :=
  { s with net := { s.net with ports := mset s.net.ports p (f (mget s.net.ports p {})) {} } }
def State.netIf (s : State) (j : Nat) : NetIf := mget s.net.ifs j {}
def State.modNetIf (s : State) (j : Nat) (f : NetIf → NetIf) : State :=
  { s with net := { s.net with ifs := mset s.net.ifs j (f (mget s.net.ifs j {})) {} } }

/-- XPT tile t of network port t as a claimant and domain (Table 6-3). -/
def xptTile (t : Nat) : Nat := if t < 8 then t else 42 + (t - 8)
/-- Interfaces that a breakout provides, and their rate in Mb/s (R387, R319). -/
def ifsOf (b : Nat) : Nat := if b = 0 then 1 else if b = 1 then 2 else 4
def lineRate (s : State) (j : Nat) : Nat := 800000 / ifsOf (s.netPort (j / 4)).breakout
/-- PF1 of a function's endpoint, which backs its queue pairs (R321, R322). -/
def backOf (r : Nat) : Nat := pf1Of (epOf r)

/-! ### Domains, regions, keys (R323 to R326) -/

def epKey (r n : Nat) : Nat := epOf r * 65536 + n
def pdOwned (s : State) (r pd : Nat) : Bool := (oget s.rdma.pds (epKey r pd)).any (fun o => owns s r o)

/-- The region that a key matches (R325, Table 9-2). -/
def mrOf (s : State) (key : Nat) : Option Mr :=
  if fld key 28 4 ≠ 0 then none
  else (oget s.rdma.mrs (fld key 8 20)).bind (fun m => if m.gen = fld key 0 8 then some m else none)

/-- Access to a region: key, function, domain, right and range (R323, Table 9-3 step 9). Access bits: 0 local write, 1
remote read, 2 remote write, 3 remote atomic; `none` asks for no right. -/
def mrAccess (s : State) (o : Own) (pd key : Nat) (right : Option Nat) (va n : Nat) : Option Mr :=
  (mrOf s key).bind (fun m =>
    if m.own = o ∧ (m.staging = true ∨ m.pd = pd) ∧ (right.all (bitAt m.access)) = true ∧ m.iova ≤ va ∧ va + n ≤ m.iova + m.length then some m else none)

def mrRead (s : State) (tile : Nat) (m : Mr) (va n : Nat) (host : HRead) : State × Nat × List Byte :=
  if m.host then (s, if owns s m.own.fn m.own then rdHost s m.own.fn n host else (0x0B, [])) else engineRead s (xptTile tile) (m.base + (va - m.iova)) n

def mrWrite (s : State) (tile : Nat) (m : Mr) (va : Nat) (bs : List Byte) : State × Nat :=
  if m.host then
    if !dmaOn (s.fn m.own.fn) || !owns s m.own.fn m.own then (s, 0x0B) else (hostWrite s m.own.fn (m.base + (va - m.iova)) bs, 0)
  else engineWrite s (xptTile tile) (m.base + (va - m.iova)) bs

def pdAlloc (r : Nat) (s : State) : CmdRes :=
  match lowestFree s.rdma.pds (epKey r 0) (epKey r 65536) with
  | none => bad s 0x07
  | some k => okR (s.modRdma (fun x => { x with pds := oput x.pds k (s.ownOf r) })) (k % 65536)

def execPdAlloc (fn ring : Nat) (s : State) : Host.Outcome State Fault Refusal :=
  .next (onDesc s fn ring 0x20 0x01 (fun _ _ s => pdAlloc fn s))

/-- Something belongs to a domain of a function's endpoint. -/
def pdUsed (s : State) (r pd : Nat) : Bool :=
  s.rdma.qps.any (fun q => epOf q.2.own.fn == epOf r && q.2.pd == pd)
  || s.rdma.mrs.any (fun m => epOf m.2.own.fn == epOf r && m.2.pd == pd)
  || s.rdma.ahs.any (fun a => epOf a.2.own.fn == epOf r && a.2.pd == pd)

def pdFree (r pd : Nat) (s : State) : CmdRes :=
  if !pdOwned s r pd then bad s 0x84
  else if pdUsed s r pd then bad s 0x83
  else ok0 (s.modRdma (fun x => { x with pds := odel x.pds (epKey r pd) }))

def execPdFree (fn ring : Nat) (s : State) : Host.Outcome State Fault Refusal :=
  .next (onDesc s fn ring 0x20 0x02 (fun d _ s => pdFree fn (fld d 64 16) s))

/-- MR_REG (R324, R325): the lowest free index, with its generation one higher. -/
def mrReg (r d : Nat) (s : State) : CmdRes :=
  let pd := fld d 80 16
  let iova := fld d 128 64
  let base := fld d 192 62
  let kind := fld d 254 2
  let len := fld d 256 64
  if !pdOwned s r pd then bad s 0x84
  else if kind ≥ 2 ∨ base % 4096 ≠ 0 ∨ len < 4096 ∨ 2 ^ 40 < len ∨ len % 4096 ≠ 0 ∨ 2 ^ 64 < iova + len then bad s 0x06
  else if kind = 0 ∧ isVf r then bad s 0x0E
  else if kind = 0 ∧ rangeRefused s base len then bad s 0x02
  else if isVf r ∧ fld (s.fn r).quotaB.toNat 16 21 ≤ (s.rdma.mrs.filter (fun m => m.2.own.fn == r && !m.2.staging)).length then bad s 0x07
  else match lowestFree s.rdma.mrs 0 (2 ^ 20) with
    | none => bad s 0x07
    | some i =>
      let g := (mget s.rdma.mrGen i 0 + 1) % 256
      let m : Mr := { own := s.ownOf r, pd := pd, gen := g, access := fld d 64 4, iova := iova, length := len, host := kind == 1, base := base }
      okR (s.modRdma (fun x => { x with mrs := oput x.mrs i m, mrGen := mset x.mrGen i g 0 })) (g + i * 256)

def execMrReg (fn ring : Nat) (s : State) : Host.Outcome State Fault Refusal :=
  .next (onDesc s fn ring 0x20 0x03 (fun d _ s => mrReg fn d s))

/-- MR_DEREG (R326): a packet has finished its memory access when the command that handles it ends, so nothing of the
old registration is still under way. -/
def mrDereg (r key : Nat) (s : State) : CmdRes :=
  match mrOf s key with
  | none => bad s 0x02
  | some m => if owns s r m.own && !m.staging then ok0 (s.modRdma (fun x => { x with mrs := odel x.mrs (fld key 8 20) })) else bad s 0x02

def execMrDereg (fn ring : Nat) (s : State) : Host.Outcome State Fault Refusal :=
  .next (onDesc s fn ring 0x20 0x04 (fun d _ s => mrDereg fn (fld d 96 32) s))

/-! ### Contexts (R332, R335) -/

def isGsi (n : Nat) : Bool := 2 ^ 24 ≤ n
def qpTile (q : Qp) : Nat := q.iface / 4

/-- Frames of a queue pair's transport that still wait in its tile. -/
def respWaits (s : State) (n : Nat) (q : Qp) : Bool :=
  (s.ctile (qpTile q)).tx.any (fun l => l.qpn == some n && l.resp)
  || (List.range 4).any (fun k => (s.netIf (4 * qpTile q + k)).rdma.any (fun f => f.qpn == some n && f.resp))

/-- A context that is never evicted (R332): requests not acknowledged, READ responses still to send, a message half
received, a binding. -/
def ctxBusy (s : State) (n : Nat) (q : Qp) : Bool := q.sends.any (·.sent) || respWaits s n q || q.inMsg.isSome || q.bound.isSome

def residents (s : State) (t : Nat) : List (Nat × Qp) := s.rdma.qps.filter (fun q => qpTile q.2 == t && q.2.res == .resident && !isGsi q.1)
def victims (s : State) (t : Nat) : Nat := (s.rdma.qps.filter (fun q => qpTile q.2 == t && q.2.res == .victim)).length

/-- The least recently used of some contexts. -/
def oldest : List (Nat × Qp) → Option (Nat × Qp)
  | [] => none
  | q :: rest => match oldest rest with
    | none => some q
    | some p => if p.2.lru < q.2.lru then some p else some q

/-- Address of a context in its backing table (R322). -/
def ctxAddr (s : State) (q : Qp) (n : Nat) : Nat := (mget s.rdma.sets (epOf q.own.fn) {}).base * 4096 + 512 * (n % 2 ^ 23)

/-- Room for one more resident context: the least recently used one that is not busy leaves, to the victim buffer of 32
and its table where it is dirty (R332, R335); `none` when nothing can leave. -/
def makeRoom (s : State) (t : Nat) : Option State :=
  if (residents s t).length < 4096 then some s
  else
    match oldest ((residents s t).filter (fun q => !ctxBusy s q.1 q.2 && (!q.2.dirty || decide (victims s t < 32)))) with
    | none => none
    | some (n, q) =>
      if q.dirty then
        some (emit (s.modQp n (fun q => { q with res := .victim, dirty := false })) (.contextWrite (backOf q.own.fn) (ctxAddr s q n) n))
      else some (s.modQp n (fun q => { q with res := .absent }))

/-- A context is used: it counts as recently used, and dirty where it changes. -/
def useCtx (s : State) (n : Nat) (dirty : Bool) : State :=
  (s.modRdma (fun x => { x with clock := x.clock + 1 })).modQp n (fun q => { q with lru := s.rdma.clock + 1, dirty := q.dirty || dirty })

def install (s : State) (n : Nat) : Option State :=
  match oget s.rdma.qps n with
  | none => none
  | some q => (makeRoom s (qpTile q)).map (fun s => s.modQp n (fun q => { q with res := .resident }))

/-- A command brings the context it changes into the tile at once where there is room (DESIGN CHOICE, log 12). -/
def touchCtx (s : State) (n : Nat) : State :=
  match oget s.rdma.qps n with
  | none => s
  | some q => if q.res = .resident ∨ q.res = .fetching ∨ isGsi n then useCtx s n true else useCtx ((install s n).getD s) n true

/-- Queue pairs are bound to a holder and pinned resident (R337). -/
def bindQps (s : State) (ns : List Nat) (m : Nat) : State := ns.foldl touchCtx (bindMark s ns m)

/-! ### Errors and completions of work requests (R337 to R339, R348) -/

def isRdOp (op : Nat) : Bool := op == 0x14 || op == 0x15 || op == 0x16
/-- ring_specific of a completion (R348). -/
def wrSpec (n op imm sol src : Nat) : Nat := n % 2 ^ 24 + imm * 2 ^ 24 + sol * 2 ^ 25 + src * 2 ^ 32 + op * 2 ^ 56
def qpNo (n : Nat) : Nat := if isGsi n then 1 else n

/-- A send ends with a status; the put of a collective program that fails ends its launch with 0x05 where the remote side
refused it, else with 0x09 (R224). -/
def endSend (s : State) (n : Nat) (w : SendWr) (status result : Nat) : State :=
  match w.ref with
  | some ref => finish s ref status result (wrSpec (qpNo n) w.op (b2n (w.op == 0x11 || w.op == 0x13)) (b2n w.solicited) 0)
  | none => match w.putFor with
    | some (c, ref) =>
      if status ≠ 0 ∧ (runningLaunch (s.core c)).any (fun l => l.ref == ref) then endLaunch s c (if status = 0x05 then 0x05 else 0x09) 0 else s
    | none => s

def endRecv (s : State) (n : Nat) (w : RecvWr) (status result imm sol src : Nat) : State :=
  finish s w.ref status result (wrSpec (qpNo n) 0x20 imm sol src)

/-- Every work request that has not completed is flushed: sends before receives, in posting order (R338). -/
def flushQp (s : State) (n : Nat) : State :=
  match oget s.rdma.qps n with
  | none => s
  | some q =>
    let s1 := s.modQp n (fun q => { q with sends := [], recvs := [], inMsg := none, rnrWait := none, drainDue := false })
    let s2 := q.sends.foldl (fun s w => endSend s n w 0x01 0) s1
    q.recvs.foldl (fun s w => endRecv s n w 0x01 0 0 0 0) s2

/-- Entry to ERROR: work requests are flushed and QP_ERROR is posted (R337, R338, R352). -/
def qpError (s : State) (n cause psn : Nat) : State :=
  match oget s.rdma.qps n with
  | none => s
  | some q =>
    if q.st = .error ∨ q.st = .reset then s
    else
      let s1 := flushQp (s.modQp n (fun q => { q with st := .error })) n
      let s2 := postEventS s1 q.own.fn 0x2001 (qpTile q) cause (qpNo n + psn % 2 ^ 24 * 2 ^ 24) 0
      match q.bound with
      | some m => if m < 0x10000 then s2 else downBackend s2 (m - 0x10000)
      | none => s2

/-- The work request that causes an error completes first with its own status (R338). -/
def sendError (s : State) (n : Nat) (w : SendWr) (status result : Nat) : State :=
  let s1 := s.modQp n (fun q => { q with sends := q.sends.filter (fun x => x != w) })
  qpError (endSend s1 n w status result) n status w.psn

/-! ### The gust controller (R341 to R343) -/

/-- A queue pair that the gust controller holds to a rate. -/
def gusted (n : Nat) : Bool := !isGsi n

/-- A squall closes and writes its record (R343, Table 18-6). -/
def squallRecord (s : State) (n : Nat) (q : Qp) (close : Bool) (peak open_ low cnps from_ : Nat) : State :=
  feedPut s 0x10 (qpTile q) (n % 2 ^ 24 + b2n close * 2 ^ 24 + peak * 2 ^ 32 + open_ * 2 ^ 48 + low * 2 ^ 80 + cnps % 2 ^ 32 * 2 ^ 112
    + (if close then (ptp s - from_) % 2 ^ 64 else 0) * 2 ^ 144)

/-- Open or close a squall as the rate crosses its share of the line rate (R343). -/
def checkSquall (s : State) (n : Nat) : State :=
  match oget s.rdma.qps n with
  | none => s
  | some q =>
    let below := decide (q.rate * 100 < s.rdma.squallPct * lineRate s q.iface)
    match q.squall with
    | none =>
      if below then
        squallRecord (s.modQp n (fun q => { q with squall := some (q.gust, q.rate, q.rate, 0, ptp s) })) n q false 0 q.rate q.rate 0 0
      else s
    | some (pk, ro, lo, cn, t) =>
      if below then s.modQp n (fun q => { q with squall := some (max pk q.gust, ro, min lo q.rate, cn, t) })
      else squallRecord (s.modQp n (fun q => { q with squall := none })) n q true pk ro lo cn t

/-- The step that a CNP takes (R342). -/
def gustUp (minRate : Nat) (q : Qp) : Qp :=
  let g := min 1023 (q.gust + 128)
  { q with gust := g, rate := max minRate (q.rate - q.rate * (g + 1) / 2048), quiet := 0 }

/-- The step of every tick_us (R342). -/
def gustDown (line ai : Nat) (q : Qp) : Qp :=
  let quiet := min 64 (q.quiet + 1)
  { q with gust := q.gust - q.gust / 8, quiet := quiet,
           rate := if 2 ≤ quiet then min line (q.rate + ai * (8 + quiet) / 8) else q.rate }

/-- One tick of the gust controller, over every queue pair (R342). -/
def doGustTick (s : State) : State :=
  let p := s.rdma.tickUs * usCycles
  let s1 := advanceTo s ((s.vcycle / p + 1) * p)
  s1.rdma.qps.foldl (fun s q =>
    if !gusted q.1 ∨ q.2.st = .reset then s
    else
      checkSquall (s.modQp q.1 (fun q =>
        let q1 := if s.rdma.rttHighUs ≠ 0 ∧ s.rdma.rttHighUs < q.rtt then gustUp s.rdma.minRate q else q
        gustDown (lineRate s q.iface) s.rdma.aiMbps q1)) q.1) s1

def execGustTick (s : State) : Host.Outcome State Fault Refusal := .next (doGustTick s)

/-! ### The requester (R331, R337) -/

/-- Bytes of a path MTU code (Table 9-10). -/
def mtuOf (q : Qp) : Nat := 2 ^ (7 + q.mtu)
def inc24 (n k : Nat) : Nat := (n + k) % 2 ^ 24
/-- PSN `a` lies in the 2^23 PSNs before `b`. -/
def psnBefore (a b : Nat) : Bool := (b + 2 ^ 24 - a % 2 ^ 24) % 2 ^ 24 != 0 && decide ((b + 2 ^ 24 - a % 2 ^ 24) % 2 ^ 24 ≤ 2 ^ 23)
def packetsFor (q : Qp) (len : Nat) : Nat := max 1 ((len + mtuOf q - 1) / mtuOf q)
def wrPackets (q : Qp) (w : SendWr) : Nat := if w.op = 0x15 ∨ w.op = 0x16 then 1 else packetsFor q w.len
/-- UDP source port of a queue pair (R347). -/
def udpSrcOf (n dest : Nat) : Nat := 0xC000 + Nat.xor dest (qpNo n) % 0x4000

/-- A lane's buffer of 8 MiB has no room for a packet that arrives, which is dropped and counted (R355). -/
def laneFull (ls : List Lane) (n : Nat) : Bool := decide (8 * 2 ^ 20 < ls.foldl (fun n l => n + l.bytes.length) 0 + n)
def countOverflow (s : State) (t : Nat) : State := s.modCtile t (fun c => { c with overflow := satAdd 32 c.overflow 1 })

/-- Hand a packet to the transmit lane of its tile (R355, R390). -/
def sendPkt (s : State) (n iface attr dest : Nat) (p : RocePkt) : State :=
  let fr := roceFrame iface attr (udpSrcOf n dest) s.rdma.gustOn p
  if laneFull (s.ctile (iface / 4)).tx fr.length then countOverflow s (iface / 4)
  else s.modCtile (iface / 4) (fun c => { c with tx := c.tx ++ [{ iface := iface, bytes := fr, qpn := some n, resp := decide (0xD ≤ p.op ∧ p.op ≤ 0x10) }] })

/-- Packets of a SEND or WRITE, in order (R317). -/
def dataPackets (q : Qp) (w : SendWr) : List RocePkt :=
  let m := mtuOf q
  let k := packetsFor q w.len
  let b := if w.op = 0x10 ∨ w.op = 0x11 then 0 else 6
  let imm := w.op == 0x11 || w.op == 0x13
  (List.range k).map (fun i =>
    let op := if k = 1 then (if imm then b + 5 else b + 4)
      else if i = 0 then b else if i + 1 = k then (if imm then b + 3 else b + 2) else b + 1
    { op := op, destQp := q.destQp, psn := inc24 w.psn i, ackReq := i + 1 == k, solicited := w.solicited && i + 1 == k,
      va := w.raddr, rkey := w.rkey, len := w.len, imm := w.imm, data := sliceB w.data (m * i) m })

/-- Packets of a work request from a PSN on. -/
def wrPkts (q : Qp) (w : SendWr) : List RocePkt :=
  if w.op = 0x14 then
    [{ op := 0xC, destQp := q.destQp, psn := inc24 w.psn (w.got / mtuOf q), ackReq := true, va := w.raddr + w.got, rkey := w.rkey, len := w.len - w.got }]
  else if w.op = 0x15 then
    [{ op := 0x13, destQp := q.destQp, psn := w.psn, ackReq := true, va := w.raddr, rkey := w.rkey, swap := w.swap, cmp := w.operand }]
  else if w.op = 0x16 then
    [{ op := 0x14, destQp := q.destQp, psn := w.psn, ackReq := true, va := w.raddr, rkey := w.rkey, swap := w.operand }]
  else dataPackets q w

def xmit (s : State) (n : Nat) (q : Qp) (ps : List RocePkt) : State :=
  ps.foldl (fun s p => sendPkt s n q.iface q.attr q.destQp p) s

/-- Go-back-N: every packet sent from the oldest unacknowledged PSN on is sent again (R331). -/
def retransmit (s : State) (n : Nat) : State :=
  match oget s.rdma.qps n with
  | none => s
  | some q =>
    let ps := (q.sends.filter (·.sent)).flatMap (fun w => (wrPkts q w).filter (fun p => !psnBefore p.psn q.una))
    (xmit s n q ps).modQp n (fun q => { q with ackFrom := s.vcycle })

/-- Local data of a work request: key, domain, right and range, then the bytes (R339). -/
def localData (s : State) (q : Qp) (w : SendWr) : State × Nat × List Byte :=
  if w.len = 0 then (s, 0, [])
  else match mrAccess s q.own q.pd w.lkey (if isRdOp w.op then some 0 else none) w.laddr w.len with
    | none => (s, 0x02, [])
    | some m => if isRdOp w.op then (s, 0, []) else mrRead s (qpTile q) m w.laddr w.len w.host

/-- A datagram is sent and its work request completes (R320, R346). -/
def sendUd (s : State) (n : Nat) (q : Qp) (w : SendWr) (bs : List Byte) : State :=
  let p : RocePkt := { op := if w.op = 0x11 then 0x65 else 0x64, destQp := w.destQp, psn := q.psn, solicited := w.solicited, imm := w.imm, qkey := w.qkey, srcQp := qpNo n, data := bs }
  let s1 := (sendPkt s n q.iface w.path w.destQp p).modQp n (fun q => { q with psn := inc24 q.psn 1, sends := q.sends.filter (fun x => x != w) })
  endSend s1 n w 0 w.len

/-- The next work request of a queue pair executes. -/
def launchWr (s : State) (n : Nat) (q : Qp) (w : SendWr) : State :=
  let r := localData s q w
  if r.2.1 ≠ 0 then sendError r.1 n w r.2.1 0
  else if q.type ≠ 0 then sendUd r.1 n q w r.2.2
  else
    let w1 := { w with sent := true, sentAt := s.vcycle, data := r.2.2, psn := q.psn, packets := wrPackets q w }
    let idle := !q.sends.any (·.sent)
    (xmit r.1 n q (wrPkts q w1)).modQp n (fun q => { q with
      psn := inc24 q.psn w1.packets, ackFrom := if idle then s.vcycle else q.ackFrom,
      una := if idle then w1.psn else q.una, sends := q.sends.map (fun x => if x = w then w1 else x) })

/-- A VF in FROZEN or SAVED, whose queue pairs send and take nothing (R487). -/
def vfStill (s : State) (r : Nat) : Bool := (s.fn r).st == .frozen || (s.fn r).st == .saved

/-- Work requests execute in posting order while the queue pair is RTS and no RNR wait runs; at most max_rd_atomic READs
and atomics are outstanding (R337, R347). -/
def runSends : Nat → State → Nat → State
  | 0, s, _ => s
  | fuel + 1, s, n =>
    match oget s.rdma.qps n with
    | none => s
    | some q =>
      if q.st ≠ .rts ∨ q.rnrWait.isSome ∨ vfStill s q.own.fn then s
      else match q.sends.find? (fun w => !w.sent) with
        | none => s
        | some w =>
          if isRdOp w.op ∧ q.maxRd ≤ (q.sends.filter (fun x => x.sent && isRdOp x.op)).length then s
          else runSends fuel (launchWr s n q w) n

def pumpSends (s : State) (n : Nat) : State := runSends 32769 s n

/-- SQ_DRAINED when the last outstanding send of a queue pair in SQD completes (R337). -/
def checkDrainedQp (s : State) (n : Nat) : State :=
  match oget s.rdma.qps n with
  | none => s
  | some q =>
    if q.st = .sqd ∧ q.drainDue = true ∧ (q.sends.any (·.sent)) = false then
      postEvent (s.modQp n (fun q => { q with drainDue := false })) q.own.fn 0x2002 (qpTile q) (qpNo n)
    else s

/-- The ack timer of a queue pair expires (R331): 4.096 µs × 2^timeout. -/
def doAckTimeout (n : Nat) (s : State) : State :=
  match oget s.rdma.qps n with
  | none => s
  | some q =>
    match q.sends.find? (·.sent) with
    | none => s
    | some w =>
      if q.rnrWait.isSome ∨ (q.st ≠ .rts ∧ q.st ≠ .sqd) then s
      else
        let s1 := advanceTo s (q.ackFrom + (16384 * 2 ^ q.timeout + 9) / 10)
        if q.retryCnt ≤ q.retries then sendError s1 n w 0x09 0
        else retransmit (s1.modQp n (fun q => { q with retries := q.retries + 1 })) n

def execAckTimeout (qpn : Nat) (s : State) : Host.Outcome State Fault Refusal := .next (doAckTimeout qpn s)

/-- RNR timer of an IBTA code, in vestibule periods: multiples of 10 µs (PRESUMED, log 11). -/
def rnrCycles (c : Nat) : Nat :=
  4000 * lget [65536, 1, 2, 3, 4, 6, 8, 12, 16, 24, 32, 48, 64, 96, 128, 192, 256, 384, 512, 768, 1024, 1536, 2048, 3072, 4096, 6144, 8192, 12288, 16384, 24576, 32768, 49152] c 0

/-- An RNR wait ends and the requester sends again (R331). -/
def doRnrExpiry (n : Nat) (s : State) : State :=
  match oget s.rdma.qps n with
  | none => s
  | some q => match q.rnrWait with
    | none => s
    | some t => pumpSends (retransmit ((advanceTo s t).modQp n (fun q => { q with rnrWait := none })) n) n

def execRnrTimerExpiry (qpn : Nat) (s : State) : Host.Outcome State Fault Refusal := .next (doRnrExpiry qpn s)

/-! ### Queue pairs as objects (R321, R322, R337, R338, R346, R347) -/

/-- Key of a queue pair among all: a GSI queue pair has number 1 on its interface. -/
def gsiKey (iface : Nat) : Nat := 2 ^ 24 + iface

/-- The queue pair that a descriptor names, for a function and a ring pair. -/
def qpFor (s : State) (r i n : Nat) : Option (Nat × Qp) :=
  if n = 1 then
    let gs := s.rdma.qps.filter (fun q => isGsi q.1 && owns s r q.2.own)
    (gs.find? (fun q => q.2.ring == i)).or gs.head?
  else (oget s.rdma.qps n).bind (fun q => if owns s r q.own then some (n, q) else none)

/-- The number QP_CREATE would assign: one never used, else the least recently freed (R321). -/
def nextQpn (s : State) (ep : Nat) : Option Nat :=
  if ep = 0 then if s.rdma.nextA ≤ 0x7FFFFF then some s.rdma.nextA else s.rdma.freedA.head?
  else if s.rdma.nextB ≤ 0xFFFFFF then some s.rdma.nextB else s.rdma.freedB.head?

/-- The first number from `n` on that no queue pair has: a restored VF's numbers are passed over. -/
def skipQpns (qps : NMap Qp) : Nat → Nat → Nat
  | 0, n => n
  | k + 1, n => if (oget qps n).isSome then skipQpns qps k (n + 1) else n

def takeQpn (s : State) (ep n : Nat) : State :=
  s.modRdma (fun x =>
    let step (m : Nat) : Nat := if m = n then skipQpns x.qps (x.qps.length + 1) (n + 1) else m
    if ep = 0 then { x with nextA := step x.nextA, freedA := x.freedA.erase n }
    else { x with nextB := step x.nextB, freedB := x.freedB.erase n })

def freeQpn (s : State) (n : Nat) : State :=
  if isGsi n then s
  else s.modRdma (fun x => if n < 2 ^ 23 then { x with freedA := x.freedA ++ [n] } else { x with freedB := x.freedB ++ [n] })

def qpCreate (r i d : Nat) (s : State) : CmdRes :=
  let type := fld d 64 2
  let port := fld d 96 4
  let iface := 4 * port + fld d 100 2
  let pd := fld d 80 16
  let set := mget s.rdma.sets (epOf r) {}
  let q : Qp := { own := s.ownOf r, ring := i, type := type, pd := pd, iface := iface, sqLog := fld d 104 4, rqLog := fld d 108 4, rate := lineRate s iface, pacerAt := ptp s }
  if !pdOwned s r pd then bad s 0x84
  else if type = 3 ∨ ifsOf (s.netPort port).breakout ≤ fld d 100 2 ∨ fld d 104 4 < 6 ∨ fld d 108 4 < 6 then bad s 0x06
  else if isVf r ∧ fld (s.fn r).quotaA.toNat 8 24 ≤ (s.rdma.qps.filter (fun q => q.2.own.fn == r)).length then bad s 0x07
  else if type = 2 then
    if (oget s.rdma.qps (gsiKey iface)).isSome then bad s 0x83
    else okR (s.modRdma (fun x => { x with qps := oput x.qps (gsiKey iface) { q with res := .resident } })) 1
  else match nextQpn s (epOf r) with
    | none => bad s 0x07
    | some n =>
      if !set.committed ∨ set.log2 = 0 ∨ 2 ^ set.log2 ≤ n % 2 ^ 23 then bad s 0x07
      else okR (touchCtx ((takeQpn s (epOf r) n).modRdma (fun x => { x with qps := oput x.qps n q })) n) n

def execQpCreate (fn ring : Nat) (s : State) : Host.Outcome State Fault Refusal :=
  .next (onDesc s fn ring 0x20 0x05 (fun d _ s => qpCreate fn ring d s))

/-- Reserved bits of an attribute record are zero (Table 9-10). -/
def attrReserved (a : Nat) : Bool :=
  fld a 7 9 == 0 && fld a 40 24 == 0 && fld a 88 8 == 0 && fld a 120 8 == 0 && fld a 154 6 == 0 && fld a 166 2 == 0
  && fld a 196 28 == 0 && fld a 448 16 == 0 && fld a 592 432 == 0

/-- The source address of a path must be one of the interface's (R347). -/
def srcOk (iface a : Nat) : Bool := Config.isIfAddr iface (natLE 16 (fld a 464 128))

/-- Take some bits of a record into another. -/
def takeBits (old new : Nat) (fs : List (Nat × Nat)) : Nat := fs.foldl (fun a f => setFld a f.1 f.2 (fld new f.1 f.2)) old

def pathFields : List (Nat × Nat) := [(160, 6), (168, 8), (176, 20), (256, 128), (384, 48), (432, 12), (444, 3), (447, 1), (464, 128)]

/-- The context of a queue pair is cleared (Table 9-6). -/
def clearQp (s : State) (q : Qp) : Qp :=
  { own := q.own, ring := q.ring, type := q.type, pd := q.pd, iface := q.iface, sqLog := q.sqLog, rqLog := q.rqLog,
    res := q.res, dirty := q.dirty, lru := q.lru, rate := lineRate s q.iface, pacerAt := ptp s }

/-- Transitions of Table 9-6 that QP_MODIFY may ask for: the state of the queue pair, bound or not, and the state named. -/
def qpMoves (st : QpSt) (bound : Bool) (to_ : Nat) : Bool :=
  to_ == 0
  || (to_ == 1 && st == .reset)
  || (to_ == 2 && st == .init)
  || (to_ == 3 && (st == .rtr || st == .sqd))
  || (to_ == 4 && st == .rts && !bound)
  || (to_ == 6 && st != .reset && st != .error)

/-- QP_MODIFY with its attribute record read (R337, R347): a transition not listed is 0x82 before the fields of one that
is (R346, steps 5 and 6). -/
def qpModifyTo (n : Nat) (q : Qp) (a : Nat) (s : State) : CmdRes :=
  let to_ := fld a 0 4
  let upd (f : Qp → Qp) : State := touchCtx (s.modQp n f) n
  if to_ = 5 ∨ 6 < to_ then bad s 0x06
  else if !qpMoves q.st q.bound.isSome to_ then bad s 0x82
  else if !attrReserved a then bad s 0x06
  else if to_ = 0 then ok0 (touchCtx ((flushQp s n).modQp n (fun q => clearQp s { q with bound := none })) n)
  else if to_ = 1 then
    ok0 (upd (fun q => { q with st := .init, qkey := if q.type = 0 then q.qkey else fld a 224 32, attr := if q.type = 0 then q.attr else takeBits q.attr a [(224, 32)] }))
  else if to_ = 2 then
    if fld a 4 3 < 3 ∨ 5 < fld a 4 3 ∨ fld a 149 5 < 1 ∨ 16 < fld a 149 5 ∨ (q.type = 0 ∧ srcOk q.iface a = false) then bad s 0x06
    else
      let fs := [(4, 3), (64, 24), (139, 5), (149, 5)] ++ (if q.type = 0 then (16, 24) :: pathFields else [])
      ok0 (upd (fun q => { q with st := .rtr, attr := takeBits q.attr a fs, mtu := fld a 4 3, destQp := if q.type = 0 then fld a 16 24 else q.destQp, epsn := fld a 64 24, minRnr := fld a 139 5, maxDestRd := fld a 149 5 }))
  else if to_ = 3 then
    if q.st = .sqd then ok0 (pumpSends (upd (fun q => { q with st := .rts, drainDue := false })) n)
    else if fld a 128 5 < 1 ∨ 20 < fld a 128 5 ∨ fld a 144 5 < 1 ∨ 16 < fld a 144 5 then bad s 0x06
    else
      ok0 (upd (fun q => { q with st := .rts, attr := takeBits q.attr a [(96, 24), (128, 5), (133, 3), (136, 3), (144, 5)], psn := fld a 96 24, una := fld a 96 24, timeout := fld a 128 5, retryCnt := fld a 133 3, rnrRetry := fld a 136 3, maxRd := fld a 144 5 }))
  else if to_ = 4 then ok0 (checkDrainedQp (upd (fun q => { q with st := .sqd, drainDue := true })) n)
  else ok0 (qpError s n 0x00 q.psn)

/-- Steps 1 and 2 of R346. -/
def withQp (s : State) (r i n : Nat) (act : Nat → Qp → CmdRes) : CmdRes :=
  match qpFor s r i n with
  | none => bad s 0x80
  | some (k, q) => if q.ring ≠ i then bad s 0x81 else act k q

def qpModify (r i d : Nat) (read : HRead) (s : State) : CmdRes :=
  withQp s r i (fld d 64 24) (fun n q =>
    if fld d 128 64 % 64 ≠ 0 then bad s 0x06
    else
      let h := rdHost s r 128 read
      if h.1 ≠ 0 then bad s h.1 else qpModifyTo n q (leNat h.2) s)

def execQpModify (fn ring : Nat) (attrs : HRead) (s : State) : Host.Outcome State Fault Refusal :=
  .next (onDesc s fn ring 0x20 0x06 (fun d _ s => qpModify fn ring d attrs s))

def qpStCode (st : QpSt) : Nat := match st with | .reset => 0 | .init => 1 | .rtr => 2 | .rts => 3 | .sqd => 4 | .error => 6

/-- The attribute record of a queue pair as it stands (R347). -/
def qpRecord (q : Qp) : Nat := setFld (setFld (setFld q.attr 0 4 (qpStCode q.st)) 64 24 q.epsn) 96 24 q.psn

def qpQuery (r i d : Nat) (s : State) : CmdRes :=
  withQp s r i (fld d 64 24) (fun _ q =>
    if fld d 128 64 % 64 ≠ 0 then bad s 0x06 else ok0 (hostWrite s r (fld d 128 64) (natLE 128 (qpRecord q))))

def execQpQuery (fn ring : Nat) (s : State) : Host.Outcome State Fault Refusal :=
  .next (onDesc s fn ring 0x20 0x07 (fun d _ s => qpQuery fn ring d s))

/-- A queue pair goes: its work requests are flushed and its number is freed (R338). -/
def dropQp (s : State) (n : Nat) : State :=
  (freeQpn (flushQp s n) n).modRdma (fun x => { x with qps := odel x.qps n })

def execQpDestroy (fn ring : Nat) (s : State) : Host.Outcome State Fault Refusal :=
  .next (onDesc s fn ring 0x20 0x08 (fun d _ s => withQp s fn ring (fld d 64 24) (fun n _ => ok0 (dropQp s n))))

/-! ### Address handles (R350) -/

def ahCreate (r d : Nat) (read : HRead) (s : State) : CmdRes :=
  let port := fld d 96 4
  let iface := 4 * port + fld d 100 2
  if !pdOwned s r (fld d 80 16) then bad s 0x84
  else if ifsOf (s.netPort port).breakout ≤ fld d 100 2 ∨ fld d 128 64 % 64 ≠ 0 then bad s 0x06
  else
    let h := rdHost s r 128 read
    let a := leNat h.2
    if h.1 ≠ 0 then bad s h.1
    else if attrReserved a = false ∨ srcOk iface a = false then bad s 0x06
    else match lowestFree s.rdma.ahs (epKey r 0) (epKey r 65536) with
      | none => bad s 0x07
      | some k => okR (s.modRdma (fun x => { x with ahs := oput x.ahs k { own := s.ownOf r, pd := fld d 80 16, iface := iface, attr := takeBits 0 a pathFields } })) (k % 65536)

def execAhCreate (fn ring : Nat) (attrs : HRead) (s : State) : Host.Outcome State Fault Refusal :=
  .next (onDesc s fn ring 0x20 0x09 (fun d _ s => ahCreate fn d attrs s))

def ahOf (s : State) (r n : Nat) : Option Ah := (oget s.rdma.ahs (epKey r n)).bind (fun a => if owns s r a.own then some a else none)

def execAhDestroy (fn ring : Nat) (s : State) : Host.Outcome State Fault Refusal :=
  .next (onDesc s fn ring 0x20 0x0A (fun d _ s =>
    match ahOf s fn (fld d 64 16) with
    | none => bad s 0x85
    | some _ => ok0 (s.modRdma (fun x => { x with ahs := odel x.ahs (epKey fn (fld d 64 16)) }))))

/-! ### Work requests (R345, R346) -/

/-- Step 6 for a send-side work request. -/
def sendFieldsOk (q : Qp) (op d : Nat) : Bool :=
  let len := fld d 96 32
  decide (len ≤ 2 ^ 31)
  && (q.type == 0 || ((op == 0x10 || op == 0x11) && decide (len ≤ mtuOf q)))
  && (!(op == 0x15 || op == 0x16) || (len == 8 && fld d 256 64 % 8 == 0))

def sendWr (op d path : Nat) (ref : DRef) (host : HRead) : SendWr :=
  { ref := some ref, op := op, path := path, len := fld d 96 32, laddr := fld d 128 64, lkey := fld d 192 32, rkey := fld d 224 32,
    raddr := fld d 256 64, imm := fld d 320 32, solicited := bitAt d 88, operand := fld d 384 64, swap := fld d 448 64,
    ah := fld d 224 16, destQp := fld d 352 24, qkey := fld d 384 32, host := host }

/-- A send-side work request is checked in the order of R346, queued, and executes when its turn comes. -/
def postSend (op r i d : Nat) (ref : DRef) (host : HRead) (s : State) : CmdRes :=
  match qpFor s r i (fld d 64 24) with
  | none => bad s 0x80
  | some (n, q) =>
    if q.type ≠ 0 ∧ (op = 0x10 ∨ op = 0x11) ∧ (ahOf s r (fld d 224 16)).isNone then bad s 0x85
    else if q.ring ≠ i then bad s 0x81
    else if q.bound.isSome then bad s 0x02
    else if q.st = .error then bad s 0x01
    else if q.st ≠ .rts ∧ q.st ≠ .sqd then bad s 0x82
    else if !sendFieldsOk q op d then bad s 0x06
    else if 2 ^ q.sqLog ≤ q.sends.length then bad s 0x07
    else later (pumpSends (touchCtx (s.modQp n (fun q => { q with sends := q.sends ++ [sendWr op d ((ahOf s r (fld d 224 16)).elim 0 (·.attr)) ref host] })) n) n)

def execSend (fn ring : Nat) (data : HRead) (s : State) : Host.Outcome State Fault Refusal :=
  .next (onDesc s fn ring 0x20 0x10 (fun d ref s => postSend 0x10 fn ring d ref data s))
def execSendImm (fn ring : Nat) (data : HRead) (s : State) : Host.Outcome State Fault Refusal :=
  .next (onDesc s fn ring 0x20 0x11 (fun d ref s => postSend 0x11 fn ring d ref data s))
def execWrite (fn ring : Nat) (data : HRead) (s : State) : Host.Outcome State Fault Refusal :=
  .next (onDesc s fn ring 0x20 0x12 (fun d ref s => postSend 0x12 fn ring d ref data s))
def execWriteImm (fn ring : Nat) (data : HRead) (s : State) : Host.Outcome State Fault Refusal :=
  .next (onDesc s fn ring 0x20 0x13 (fun d ref s => postSend 0x13 fn ring d ref data s))
def execRead (fn ring : Nat) (s : State) : Host.Outcome State Fault Refusal :=
  .next (onDesc s fn ring 0x20 0x14 (fun d ref s => postSend 0x14 fn ring d ref (.ok []) s))
def execAtomicCas (fn ring : Nat) (s : State) : Host.Outcome State Fault Refusal :=
  .next (onDesc s fn ring 0x20 0x15 (fun d ref s => postSend 0x15 fn ring d ref (.ok []) s))
def execAtomicFadd (fn ring : Nat) (s : State) : Host.Outcome State Fault Refusal :=
  .next (onDesc s fn ring 0x20 0x16 (fun d ref s => postSend 0x16 fn ring d ref (.ok []) s))

/-- RECV posts a receive buffer (R346). -/
def postRecv (r i d : Nat) (ref : DRef) (s : State) : CmdRes :=
  withQp s r i (fld d 64 24) (fun n q =>
    if q.st = .error then bad s 0x01
    else if q.st = .reset then bad s 0x82
    else if 2 ^ 31 < fld d 96 32 then bad s 0x06
    else if 2 ^ q.rqLog ≤ q.recvs.length then bad s 0x07
    else later (touchCtx (s.modQp n (fun q => { q with recvs := q.recvs ++ [{ ref := ref, laddr := fld d 128 64, lkey := fld d 192 32, len := fld d 96 32 }] })) n))

def execRecv (fn ring : Nat) (s : State) : Host.Outcome State Fault Refusal :=
  .next (onDesc s fn ring 0x20 0x20 (fun d ref s => postRecv fn ring d ref s))

/-! ### The backing table's set (R351) -/

def rdmaEnd (s : State) (ep : Nat) (f : RdmaSet → RdmaSet) : State :=
  s.modRdma (fun x => { x with sets := mset x.sets ep (f (mget x.sets ep {})) {} })

def doRdmaCommit (r : Nat) (s : State) : State :=
  if !(isPf1 r && present s r) then s
  else
    let x := mget s.rdma.sets (epOf r) {}
    if x.committed then rdmaEnd s (epOf r) (fun x => { x with status := 0x07 })
    else if x.log2 = 0 ∨ (10 ≤ x.log2 ∧ x.log2 ≤ 23) then rdmaEnd s (epOf r) (fun x => { x with committed := true, status := 0 })
    else rdmaEnd s (epOf r) (fun x => { x with status := 0x06 })

def execRdmaSetCommit (fn : Nat) (s : State) : Host.Outcome State Fault Refusal :=
  .next (gated fn (.rdmaSetCommit fn) (doRdmaCommit fn) s)

/-- A queue pair of the PF1 or of its VFs exists (R351). -/
def qpsOfEp (s : State) (ep : Nat) : Bool := s.rdma.qps.any (fun q => epOf q.2.own.fn == ep)

def doRdmaUnlock (r : Nat) (s : State) : State :=
  if !(isPf1 r && present s r) then s
  else if !(mget s.rdma.sets (epOf r) {}).committed then rdmaEnd s (epOf r) (fun x => { x with status := 0 })
  else if qpsOfEp s (epOf r) then rdmaEnd s (epOf r) (fun x => { x with status := 0x07 })
  else rdmaEnd s (epOf r) (fun x => { x with committed := false, status := 0 })

def execRdmaSetUnlock (fn : Nat) (s : State) : Host.Outcome State Fault Refusal :=
  .next (gated fn (.rdmaSetUnlock fn) (doRdmaUnlock fn) s)

end Sys2Proof.Machine
end

