-- ==== Sys2Proof/Machine/Storage.lean ====
section
/-!
DEFINITION. The STORAGE_BACKEND block (13: R443 to R449, R459 to R463): backends and their connection, namespaces, Keep
Alive, and the write-buffer set.
-/
namespace Sys2Proof.Machine

/-- A backend that commands can name. -/
def backAt (s : State) (b : Nat) : Option Backend := (oget s.sto.backends b).bind (fun k => if k.st = .connecting then none else some k)

/-- A command on a backend of the calling PF1: 0x80 without one, 0x02 where the other PF1 created it (R459). -/
def withBack (s : State) (r b : Nat) (act : Backend → CmdRes) : CmdRes :=
  match backAt s b with
  | none => bad s 0x80
  | some k => if owns s r k.own then act k else bad s 0x02

def withNs (s : State) (r n : Nat) (act : Namespace → CmdRes) : CmdRes :=
  match oget s.sto.nss n with
  | none => bad s 0x81
  | some x => if owns s r x.own then act x else bad s 0x02

/-! ### Backends (R444 to R446, R460) -/

/-- Queue pair numbers that a record names for `k` I/O queues. -/
def recQps (v k : Nat) : List Nat := (List.range (k + 1)).map (fun i => fld v (512 + 32 * i) 32)

/-- Fields that Table 13-7 reserves, and NQNs longer than 223 bytes. -/
def recReserved (v : Nat) : Bool :=
  fld v 2 6 != 0 || fld v 13 3 != 0 || fld v 27 5 != 0 || fld v 40 24 != 0 || fld v 224 288 != 0 || fld v 1056 480 != 0
    || fld v 1664 384 != 0 || fld v 3832 264 != 0 || fld v 5880 264 != 0 || fld v 6144 2048 != 0

/-- The queue pairs are RC queue pairs of the function in RTS, each once, on one network port, unbound (R460). -/
def qpsOk (s : State) (r : Nat) (ns : List Nat) : Bool :=
  let qs := ns.map (fun n => oget s.rdma.qps n)
  decide ns.Nodup && qs.all (fun q => match q with
    | some q => owns s r q.own && q.type == 0 && q.st == .rts && q.bound.isNone
    | none => false)
  && match qs.head? with
    | some (some q) => qs.all (fun p => match p with | some p => p.iface / 4 == q.iface / 4 | none => false)
    | _ => false

/-- The exchange that a backend's connection waits for: Connect of the admin queue, Property Set, Property Get of CSTS,
Identify Controller, Identify Namespace, then Connect of each I/O queue (order of NVMe over Fabrics, log 14). -/
def connectOut (s : State) (b : Nat) (k : Backend) : State :=
  let nsid := fld (leNat k.record) 192 32
  match k.step with
  | 0 => emit s (.target b 0x7F 1 0 false k.record)
  | 1 => emit s (.target b 0x7F 0 0 false [1#8])
  | 2 => emit s (.target b 0x7F 4 0 false [])
  | 3 => emit s (.target b 0x06 1 0 false [])
  | 4 => emit s (.target b 0x06 0 nsid false [])
  | n => emit s (.target b 0x7F 1 (n - 4) false k.record)

def askNext (s : State) (b : Nat) : State :=
  match oget s.sto.backends b with
  | none => s
  | some k => connectOut s b k

def backendCreate (r d : Nat) (read : HRead) (ref : DRef) (s : State) : CmdRes :=
  let addr := fld d 128 64
  if addr % 64 ≠ 0 then bad s 0x06
  else
    let h := rdHost s r 1024 read
    if h.1 ≠ 0 then bad s h.1
    else match lowestFree s.sto.backends 0 256 with
      | none => bad s 0x07
      | some b =>
        let v := leNat h.2
        let blocks := fld v 128 64
        let put (k : Backend) : State := s.modSto (fun x => { x with backends := oput x.backends b k })
        if recReserved v then bad s 0x86
        else if fld v 0 2 = 2 then
          let base := fld v 64 64
          if base % 2 ^ 21 ≠ 0 ∨ spaceOf base ≠ 0 ∨ blocks < 512 ∨ 2 ^ 24 < blocks then bad s 0x86
          else if rangeRefused s base (blocks * 4096) then bad s 0x02
          else (put { own := s.ownOf r, record := h.2, base := base, blocks := blocks, st := .ready }, some (0, b, blocks))
        else if fld v 0 2 = 1 then
          let q := fld v 8 5
          let ns := recQps v q
          if q = 0 ∨ 16 < q ∨ fld v 16 11 < 16 ∨ 1024 < fld v 16 11 ∨ fld v 32 8 < 2 ∨ blocks ≠ 0
              ∨ fld v (544 + 32 * q) (512 - 32 * q) ≠ 0 then bad s 0x86
          else if !qpsOk s r ns then bad s 0x86
          else if tooManyBound s ns then bad s 0x07
          else
            let k : Backend := { own := s.ownOf r, remote := true, record := h.2, queues := q, depth := fld v 16 11, kato := fld v 32 8, qps := ns, ref := some ref }
            later (askNext (bindQps (put k) ns (backMark b)) b)
        else bad s 0x86

def execBackendCreate (fn ring : Nat) (read : HRead) (s : State) : Host.Outcome State Fault Refusal :=
  .next (onDesc s fn ring 0x30 0x01 (fun d ref s => backendCreate fn d read ref s))

/-- Every queue is connected: a new backend is READY and its creation completes; a rebound one is READY and its
outstanding commands are issued again, whole (R445, R446, R463). -/
def connected (s : State) (b : Nat) (k : Backend) : State :=
  match k.ref with
  | none => s
  | some ref =>
    let s1 := s.modBack b (fun k => { k with st := .ready, ref := none, lastKa := s.vcycle })
    if k.st = .connecting then finish s1 ref 0 b k.blocks
    else
      let again := (k.cmds.filter (·.sent)).length
      let s2 := s1.modBack b (fun k => { k with reconnects := satAdd 15 k.reconnects 1, cmds := k.cmds.map (fun m => { m with sent := false }) })
      let s3 := bothPf1.foldl (fun s r => postEventS s r 0x3002 b 0 (again % 65536) 0) (sendBack s2 b)
      settleSto (finish s3 ref 0 0 0)

/-- One exchange of a connection ends (R444). -/
def doConnectStep (b : Nat) (ans : BRead) (s : State) : State :=
  match oget s.sto.backends b with
  | none => s
  | some k =>
    if k.ref.isNone then s
    else match ans with
      | .down => failConnect s b 0x85 0
      | .failed st => failConnect s b 0x85 (st % 65536 * 65536)
      | .ok bs =>
        let v := leNat bs
        let next (g : Backend → Backend) : State :=
          let s1 := s.modBack b (fun k => { g k with step := k.step + 1 })
          if k.step = 4 + k.queues then connected s1 b (g k) else askNext s1 b
        if k.step = 2 ∧ !bitAt v 0 then askNext s b
        else if k.step = 4 then
          let f := fld v (1024 + 32 * fld v 208 4) 32
          if fld f 0 16 ≠ 0 ∨ fld f 16 8 ≠ 12 then failConnect s b 0x84 0
          else next (fun k => { k with blocks := fld v 0 64 })
        else next id

def execBackendConnectStep (backend : Nat) (answer : BRead) (s : State) : Host.Outcome State Fault Refusal :=
  .next (doConnectStep backend answer s)

/-- A T3 pool of the committed KV set names the backend (R446). -/
def poolNames (s : State) (b : Nat) : Bool := s.kv.committed && s.kv.pools.any (fun p => p.2.kind == 3 && p.2.backend == b)
/-- A checkpoint store of a PF1's job set names the backend (R446). -/
def storeNames (s : State) (b : Nat) : Bool :=
  s.ck.any (fun p => match p.2.job with
    | some j => j.stores.any (fun t => t.backend == b)
    | none => false)

def backendDestroy (r b : Nat) (s : State) : CmdRes :=
  withBack s r b (fun k =>
    if k.ref.isSome || s.sto.nss.any (fun p => p.2.backend == b) || poolNames s b || storeNames s b then bad s 0x82
    else ok0 ((unbindMark s (backMark b)).modSto (fun x => { x with backends := odel x.backends b })))

def execBackendDestroy (fn ring : Nat) (s : State) : Host.Outcome State Fault Refusal :=
  .next (onDesc s fn ring 0x30 0x02 (fun d _ s => backendDestroy fn (fld d 64 8) s))

/-- BACKEND_REBIND of a DOWN backend: new queue pairs are bound and connected (R445, R446). -/
def backendRebind (r d : Nat) (read : HRead) (ref : DRef) (s : State) : CmdRes :=
  let b := fld d 64 8
  if fld d 128 64 % 64 ≠ 0 then bad s 0x06
  else withBack s r b (fun k =>
    if k.st ≠ .down ∨ k.ref.isSome then bad s 0x82
    else
      let h := rdHost s r 1024 read
      if h.1 ≠ 0 then bad s h.1
      else
        let ns := recQps (leNat h.2) k.queues
        let s1 := unbindMark s (backMark b)
        if !qpsOk s1 r ns then bad s 0x86
        else if tooManyBound s1 ns then bad s 0x07
        else later (askNext ((bindQps s1 ns (backMark b)).modBack b (fun k => { k with qps := ns, step := 0, ref := some ref })) b))

def execBackendRebind (fn ring : Nat) (read : HRead) (s : State) : Host.Outcome State Fault Refusal :=
  .next (onDesc s fn ring 0x30 0x03 (fun d ref s => backendRebind fn d read ref s))

/-- The record with blocks filled in, which either PF1 may ask for (R459). -/
def backendQuery (r d : Nat) (s : State) : CmdRes :=
  let addr := fld d 128 64
  if addr % 64 ≠ 0 then bad s 0x06
  else match backAt s (fld d 64 8) with
    | none => bad s 0x80
    | some k =>
      let v := setFld (leNat k.record) 128 64 k.blocks
      let v := (List.range k.qps.length).foldl (fun v i => setFld v (512 + 32 * i) 32 (lget k.qps i 0)) v
      ok0 (hostWrite s r addr (natLE 1024 v))

def execBackendQuery (fn ring : Nat) (s : State) : Host.Outcome State Fault Refusal :=
  .next (onDesc s fn ring 0x30 0x04 (fun d _ s => backendQuery fn d s))

/-- Every kato_s / 2 seconds a Keep Alive is sent; one that fails takes the backend DOWN (R444, R445). -/
def doKeepAlive (b : Nat) (ok : Bool) (s : State) : State :=
  match oget s.sto.backends b with
  | none => s
  | some k =>
    if k.remote && k.st == .ready then
      let s1 := (advanceTo s (k.lastKa + k.kato * 500 * msCycles)).modBack b (fun k => { k with lastKa := k.lastKa + k.kato * 500 * msCycles })
      let s2 := emit s1 (.target b 0x18 0 0 false [])
      if ok then s2 else downBackend s2 b
    else s

def execKeepAlive (backend : Nat) (ok : Bool) (s : State) : Host.Outcome State Fault Refusal := .next (doKeepAlive backend ok s)

/-! ### Namespaces (R447 to R449) -/

def nsCreate (r d : Nat) (s : State) : CmdRes :=
  let b := fld d 64 8
  let first := fld d 192 64
  let blocks := fld d 256 64
  let slot := fld d 320 18
  let plain := bitAt d 338
  withBack s r b (fun k =>
    match lowestFree s.sto.nss 1 4097 with
    | none => bad s 0x07
    | some n =>
      let make (key : Option Nat) : CmdRes :=
        let x : Namespace := { own := s.ownOf r, backend := b, first := first, blocks := blocks, key := key }
        okR (s.modSto (fun z => { z with nss := oput z.nss n x })) n
      if blocks = 0 ∨ 2 ^ 40 < blocks ∨ k.blocks < first + blocks ∨ (plain && k.remote) then bad s 0x06
      else if s.sto.nss.any (fun p => p.2.backend == b && overlap first blocks p.2.first p.2.blocks) then bad s 0x83
      else if plain then make none
      else
        let c := withSlot s r slot [2] .loaded (fun _ => ok0 s)
        match c.2 with
        | some (0, _, _) => make (some slot)
        | _ => c)

def execNsCreate (fn ring : Nat) (s : State) : Host.Outcome State Fault Refusal :=
  .next (onDesc s fn ring 0x30 0x05 (fun d _ s => nsCreate fn d s))

/-- NS_DELETE discards the buffered blocks of the namespace and counts them (R449). -/
def nsDelete (r n : Nat) (s : State) : CmdRes :=
  withNs s r n (fun x =>
    if x.at_.isSome then bad s 0x82
    else
      let k := (s.sto.blocks.filter (fun w => w.ns == n && !w.stale)).length
      okR (s.modSto (fun z => { z with nss := odel z.nss n, blocks := z.blocks.filter (fun w => w.ns != n) })) k)

def execNsDelete (fn ring : Nat) (s : State) : Host.Outcome State Fault Refusal :=
  .next (onDesc s fn ring 0x30 0x06 (fun d _ s =>
    let p := nsDelete fn (fld d 64 13) s
    (settleSto p.1, p.2)))

def nsAttach (r d : Nat) (s : State) : CmdRes :=
  let c := fld d 340 10
  let nsid := fld d 352 9
  let n := fld d 64 13
  if 514 ≤ c ∨ nsid = 0 ∨ 256 < nsid then bad s 0x06
  else withNs s r n (fun x =>
    if epOf (rankOf c) ≠ epOf r then bad s 0x02
    else if x.at_.isSome || s.sto.nss.any (fun p => p.2.at_ == some (c, nsid)) then bad s 0x82
    else ok0 (nsChanged (s.modNs n (fun x => { x with at_ := some (c, nsid) })) c nsid))

def execNsAttach (fn ring : Nat) (s : State) : Host.Outcome State Fault Refusal :=
  .next (onDesc s fn ring 0x30 0x07 (fun d _ s => nsAttach fn d s))

/-- Commands of a namespace that wait on a DOWN backend complete at once with Namespace Not Ready, DNR set (R449). -/
def failWaiting (s : State) (n : Nat) (x : Namespace) (c : Nat) : State :=
  match oget s.sto.backends x.backend with
  | none => s
  | some k =>
    if k.st = .ready then s
    else
      let ms := (s.ctl c).cmds.filter (fun m => usesNs m n && !s.sto.waitWrites.contains (c, m.no))
      ms.foldl (fun s m =>
        let strip (k : Backend) : Backend := { k with cmds := k.cmds.filter (fun b => b.who != .host c m.no) }
        endNvm (s.modSto (fun z => { z with backends := z.backends.map (fun p => (p.1, strip p.2)) })) c m 0 0x4082)
        (s.modNs n (fun x => { x with failed := ms.length }))

/-- NS_DETACH completes when every command of the namespace on the controller has completed (R449). -/
def nsDetach (r d : Nat) (ref : DRef) (s : State) : CmdRes :=
  let n := fld d 64 13
  withNs s r n (fun x =>
    match x.at_, x.detach with
    | some (c, _), none =>
      let s1 := s.modNs n (fun x => { x with detach := some ref, failed := 0 })
      later (settleSto (if bitAt d 361 then failWaiting s1 n x c else s1))
    | _, _ => bad s 0x82)

def execNsDetach (fn ring : Nat) (s : State) : Host.Outcome State Fault Refusal :=
  .next (onDesc s fn ring 0x30 0x08 (fun d ref s => nsDetach fn d ref s))

/-! ### The write-buffer set (R450, R462) -/

/-- A slice lies inside its own stack, off the reserved area and every staging area, and is a multiple of 2 MiB. -/
def sliceOk (s : State) (n : Nat) : Bool :=
  let m := mget s.sto.sizes n 0
  let a := mget s.sto.bases n 0 * 2 ^ 21
  m == 0 || (m % 2 == 0 && decide (m ≤ 65536) && decide (n * 2 ^ 36 ≤ a) && decide (a + m * 2 ^ 20 ≤ (n + 1) * 2 ^ 36)
    && !rangeRefused s a (m * 2 ^ 20))

def wbTotalMib (s : State) : Nat := (List.range 8).foldl (fun a n => a + mget s.sto.sizes n 0) 0

def stoEnd (s : State) (status item : Nat) : State := s.modSto (fun x => { x with status := status, badItem := item })

def doStoCommit (s : State) : State :=
  if s.sto.committed then stoEnd s 0x07 0
  else match (List.range 8).find? (fun n => !sliceOk s n) with
    | some n => stoEnd s 0x06 n
    | none =>
      if 65536 < wbTotalMib s then stoEnd s 0x07 0
      else settleSto (stoEnd (s.modSto (fun x => { x with committed := true })) 0 0)

def execStoSetCommit (s : State) : Host.Outcome State Fault Refusal := .next (joinSet 0x30 1 doStoCommit s)

def doStoUnlock (s : State) : State :=
  if !s.sto.committed then stoEnd s 0 0
  else if !s.sto.nss.isEmpty then stoEnd s 0x07 0 else stoEnd (s.modSto (fun x => { x with committed := false })) 0 0

def execStoSetUnlock (s : State) : Host.Outcome State Fault Refusal := .next (joinSet 0x30 2 doStoUnlock s)

end Sys2Proof.Machine
end

