-- ==== Sys2Proof/Machine/Ckpt.lean ====
section
/-!
DEFINITION. Checkpoints (08: R279 to R300, R308 to R316): jobs and stores, takes from acceptance to commit, surveys, and
the capture and reserve set. The extent table's format is the model's own (R284, log 16): records of 64 bytes, 1 region,
2 run of blocks, 3 sequence, 4 block, 5 configuration.
-/
namespace Sys2Proof.Machine

/-! ### Stores (R282 to R285) -/

/-- Completion status of a failure at a backend: an uncorrectable stack read, or any other failure (R296, log 15). -/
def ckStatus (st : Nat) : Nat := if st = 0x281 then 0x04 else 0x09

/-- A SEAL tile seals or opens blocks of a store, each a data unit numbered by its index there (R282). -/
def storeCrypt (s : State) (enc : Bool) (key block : Nat) (bs : List Byte) : State × Option (List Byte) := cryptBlocks s 0 key enc block bs

def openStore (s : State) (key block : Nat) (bs : List Byte) : State × Nat × List Byte :=
  match storeCrypt s false key block bs with
  | (s1, some p) => (s1, 0, p)
  | (s1, none) => (s1, 0x02, [])

/-- A state and the answers that reads of REMOTE stores will take, in order. -/
abbrev Rd := State × List BRead

/-- Read blocks of a store: status and plaintext. -/
def rdStore (p : Rd) (key : Nat) (st : CkStore) (block n : Nat) : Rd × Nat × List Byte :=
  match oget p.1.sto.backends st.backend with
  | none => (p, 0x09, [])
  | some k =>
    if !k.remote then
      let r := engineRead p.1 8 (k.base + (st.first + block) * 4096) (4096 * n)
      if r.2.1 ≠ 0 then ((r.1, p.2), r.2.1, [])
      else let c := openStore r.1 key block r.2.2; ((c.1, p.2), c.2)
    else if k.st ≠ .ready then (p, 0x09, [])
    else
      let s1 := emit p.1 (.target st.backend 0x02 (st.first + block) n false [])
      match p.2 with
      | .ok bs :: rest => let c := openStore s1 key block (fitB bs (4096 * n)); ((c.1, rest), c.2)
      | _ :: rest => ((s1, rest), 0x09, [])
      | [] => ((s1, []), 0x09, [])

/-- A root block that is valid for a job, as the number its bytes give (R284). -/
def rootOf (j : CkJob) (bs : List Byte) : Option Nat :=
  let v := leNat bs
  if fld v 0 32 = 0x09600C4B ∧ fld v 32 8 = 1 ∧ fld v 64 64 = j.jobId ∧ leNat (bs.drop 4092) = (crc32c (bs.take 4092)) then some v else none

def rEpoch (v : Nat) : Nat := fld v 48 16
def rStep (v : Nat) : Nat := fld v 128 64
def rSeq (v : Nat) : Nat := fld v 192 64

/-- Both root slots of a store: the first failing read's status, and the valid roots. -/
def rdRoots (p : Rd) (j : CkJob) (st : CkStore) : Rd × Nat × List (Nat × Nat) :=
  let a := rdStore p j.key st 0 1
  if a.2.1 ≠ 0 then (a.1, a.2.1, [])
  else
    let b := rdStore a.1 j.key st 1 1
    if b.2.1 ≠ 0 then (b.1, b.2.1, [])
    else (b.1, 0, ((rootOf j a.2.2).map (fun v => (0, v))).toList ++ ((rootOf j b.2.2).map (fun v => (1, v))).toList)

/-- The newest of some roots. -/
def newestRoot : List (Nat × Nat) → Option (Nat × Nat)
  | [] => none
  | r :: rest => match newestRoot rest with
    | none => some r
    | some q => if rSeq r.2 < rSeq q.2 then some q else some r

/-- Records of an extent table, up to the first empty one. -/
def parseRecords : Nat → List Byte → List Nat
  | 0, _ => []
  | k + 1, bs =>
    let v := leNat (bs.take 64)
    if v = 0 then [] else v :: parseRecords k (bs.drop 64)

def rdTable (p : Rd) (j : CkJob) (st : CkStore) (root : Nat) : Rd × Nat × List Nat :=
  let n := fld root 448 32
  let r := rdStore p j.key st (fld root 384 64) n
  (r.1, r.2.1, if r.2.1 = 0 then parseRecords (64 * n) r.2.2 else [])

/-- Each record that is no run, with the runs that follow it. -/
def groupRecs (rs : List Nat) : List (Nat × List (Nat × Nat)) :=
  (rs.foldl (fun acc r =>
    if fld r 0 8 = 2 then match acc with
      | (h, us) :: rest => (h, us ++ [(fld r 8 64, fld r 72 32)]) :: rest
      | [] => []
    else (r, []) :: acc) []).reverse

def runRec (u : Nat × Nat) : Nat := 2 + u.1 * 2 ^ 8 + u.2 % 2 ^ 32 * 2 ^ 72

/-- Runs without one run. -/
def subRun (free : List (Nat × Nat)) (u : Nat × Nat) : List (Nat × Nat) :=
  free.flatMap (fun f =>
    if overlap f.1 f.2 u.1 u.2 then
      (if f.1 < u.1 then [(f.1, u.1 - f.1)] else []) ++ (if u.1 + u.2 < f.1 + f.2 then [(u.1 + u.2, f.1 + f.2 - (u.1 + u.2))] else [])
    else [f])

/-- Take `n` blocks from the lowest free runs. -/
def takeRuns : List (Nat × Nat) → Nat → Option (List (Nat × Nat) × List (Nat × Nat))
  | [], n => if n = 0 then some ([], []) else none
  | (a, k) :: rest, n =>
    if n = 0 then some ([], (a, k) :: rest)
    else if n < k then some ([(a, n)], (a + n, k - n) :: rest)
    else (takeRuns rest (n - k)).map (fun p => ((a, k) :: p.1, p.2))

/-! ### Access -/

def takeOf (s : State) (ep : Nat) : Option Take := (s.ckpt ep).take
/-- The job that the PF1's running incarnation holds (R480). -/
def jobHere (s : State) (r : Nat) : Option CkJob := ((s.ckpt (epOf r)).job).filter (fun j => j.gen == (s.fn r).gen)

def jobOf (s : State) (ep : Nat) : CkJob := ((s.ckpt ep).job).getD {}
def ownStore (j : CkJob) : CkStore := lget j.stores j.ownStore {}
def ckBusy (s : State) (ep : Nat) : Bool := (takeOf s ep).isSome

/-! ### CKPT_JOB_SET (R281, R309) -/

def parseStores : Nat → List Byte → List CkStore
  | 0, _ => []
  | k + 1, bs =>
    let v := leNat (bs.take 16)
    { backend := fld v 0 16, blocks := fld v 32 32, first := fld v 64 64 } :: parseStores k (bs.drop 16)

/-- A store lies on a backend, within its blocks. -/
def storeOk (s : State) (t : CkStore) : Bool :=
  decide (1026 ≤ t.blocks) && (match backAt s t.backend with
    | some k => decide (t.first + t.blocks ≤ k.blocks)
    | none => false)

def ckptJobSet (r d : Nat) (read : HRead) (s : State) : CmdRes :=
  let n := fld d 192 16
  if ckBusy s (epOf r) then bad s 0x81
  else if fld d 144 16 = 0 ∨ 1024 < fld d 144 16 ∨ fld d 144 16 ≤ fld d 160 16 ∨ n = 0 ∨ 1024 < n ∨ n ≤ fld d 176 16
      ∨ fld d 256 64 % 16 ≠ 0 then bad s 0x06
  else
    let key := fld d 208 18
    match (withSlot s r key [2] .loaded (fun _ => ok0 s)).2 with
    | some (0, _, _) =>
      let h := rdHost s r (16 * n) read
      if h.1 ≠ 0 then bad s h.1
      else
        let ts := parseStores n h.2
        if (List.range n).any (fun i => leNat (sliceB h.2 (16 * i + 2) 2) ≠ 0) || !ts.all (storeOk s) then bad s 0x06
        else
          let j : CkJob := { jobId := fld d 64 64, epoch := fld d 128 16, members := fld d 144 16, member := fld d 160 16, ownStore := fld d 176 16, stores := ts, key := key, gen := (s.fn r).gen }
          ok0 (s.modCk (epOf r) (fun k => { k with job := some j }))
    | _ => bad s 0x02

def execCkptJobSet (fn ring : Nat) (read : HRead) (s : State) : Host.Outcome State Fault Refusal :=
  .next (onDesc s fn ring 0x15 0x01 (fun d _ s => ckptJobSet fn d read s))

/-! ### CKPT_TAKE (R286, R294) -/

def parseRegions : Nat → List Byte → List (Nat × CkRegion)
  | 0, _ => []
  | k + 1, bs =>
    let v := leNat (bs.take 64)
    (v, { id := fld v 0 16, accel := bitAt v 16, dedup := fld v 17 2, port := fld v 19 3, window := fld v 22 4,
          addr := fld v 128 64, bytes := fld v 192 64, name := fld v 256 256 }) :: parseRegions k (bs.drop 64)

/-- A region entry keeps to Table 8-9. -/
def ckRegionOk (v : Nat) (g : CkRegion) : Bool :=
  fld v 26 102 == 0 && g.dedup != 3 && (g.dedup != 0 || g.name == 0) && decide (g.bytes ≤ 2 ^ 36) && g.bytes != 0
  && (if g.accel then g.addr % 4096 == 0 && g.bytes % 4096 == 0
      else g.addr % granuleBytes == 0 && g.bytes % granuleBytes == 0 && spaceOf g.addr == 0)

/-- How an old extent table lists a name, with the runs it keeps: as written under the name, or carried. -/
def listedRuns (table : List Nat) (name : Nat) : Option (List (Nat × Nat)) :=
  ((groupRecs table).find? (fun g => fld g.1 0 8 == 1 && (fld g.1 8 8 == 1 || fld g.1 8 8 == 2) && fld g.1 192 256 == name)).map (·.2)

/-- What deduplication makes of a region (Table 8-4). -/
def dedupe (table : List Nat) (g : CkRegion) : CkRegion :=
  if g.dedup = 0 then g
  else match listedRuns table g.name with
    | some us => { g with listing := 2, kept := us }
    | none => { g with listing := if g.dedup = 1 then 1 else 3 }

/-- A region that is read: neither carried nor referenced. -/
def readRegion (g : CkRegion) : Bool := g.listing == 0 || g.listing == 1

/-- Granules of a stack range. -/
def granulesOf (a n : Nat) : List Nat := (List.range (n / granuleBytes)).map (fun i => a / granuleBytes + i)

/-- Pieces of 2 MiB of an accelerator region, as offsets. -/
def piecesOf (g : CkRegion) : List Nat := (List.range ((g.bytes + granuleBytes - 1) / granuleBytes)).map (· * granuleBytes)

/-- Ports that hold a captured region. -/
def capturedPorts (t : Take) : List Nat :=
  (List.range 8).filter (fun p => t.regions.any (fun g => g.accel && readRegion g && g.port == p))

/-- (epoch, step) above another. -/
def stepAbove (e1 s1 e2 s2 : Nat) : Bool := decide (e2 < e1) || (e1 == e2 && decide (s2 < s1))

/-- Issue one backend command for a take. -/
def takeIssue (s : State) (ep : Nat) (m : BCmd) : State :=
  let b := (ownStore (jobOf s ep)).backend
  sendBack (addB s b m) b

def ckptTake (r d : Nat) (ref : DRef) (read : HRead) (ans : List BRead) (s : State) : CmdRes :=
  let ep := epOf r
  let n := fld d 128 16
  let sections := fld d 144 3
  match jobHere s r with
  | none => bad s 0x80
  | some j =>
    if ckBusy s ep then bad s 0x81
    else
      let h := rdHost s r (64 * n) (if n = 0 then .ok [] else read)
      if n ≠ 0 ∧ h.1 ≠ 0 then bad s h.1
      else
        let vs := parseRegions n h.2
        let gs := if bitAt sections 2 then vs.map (·.2) else []
        let other := [0, 1].filter (· != ep)
        if gs.any (fun g => !g.accel && (granulesOf g.addr g.bytes).any (fun x => (protectedBy s x).any (fun e => other.contains e))) then bad s 0x81
        else if 4096 < n ∨ sections = 0 ∨ fld d 192 64 % 64 ≠ 0 ∨ fld d 320 64 % 64 ≠ 0 then bad s 0x06
        else if vs.any (fun p => !ckRegionOk p.1 p.2) || !(decide (vs.map (fun p => p.2.id)).Nodup) then bad s 0x06
        else if gs.any (fun g => g.accel && (targetAddr s g.port g.window g.addr g.bytes false).isNone) then bad s 0x02
        else if gs.any (fun g => !g.accel && rangeRefused s g.addr g.bytes) then bad s 0x02
        else if gs.any (fun g => g.accel && g.dedup != 2 && (targetAddr s g.port (fld d 160 4) (fld d 320 64) 64 true).isNone) then bad s 0x02
        else
          let st := ownStore j
          let q := rdRoots (s, ans) j st
          if q.2.1 ≠ 0 then bad q.1.1 q.2.1
          else if q.2.2.any (fun x => !stepAbove j.epoch (fld d 64 64) (rEpoch x.2) (rStep x.2)) then bad q.1.1 0x82
          else
            let newest := newestRoot q.2.2
            let tb := match newest with
              | some x => rdTable q.1 j st x.2
              | none => (q.1, 0, [])
            if tb.2.1 ≠ 0 then bad tb.1.1 tb.2.1
            else
              let s1 := tb.1.1
              let gs := gs.map (dedupe tb.2.2)
              if (if (s.ckpt ep).committed then (s.ckpt ep).capSize * granuleBytes else 0) < gs.foldl (fun a g => if g.accel && readRegion g then a + g.bytes else a) 0 then bad s1 0x07
              else
                let used := (groupRecs tb.2.2).flatMap (·.2) ++ (match newest with
                  | some x => [(fld x.2 384 64, fld x.2 448 32)]
                  | none => [])
                let t : Take := { ref := ref, userTag := userTag d, step := fld d 64 64, epoch := j.epoch, sections := sections, relWindow := fld d 160 4, relOffset := fld d 320 64, at_ := fld d 256 64, regions := gs, slot := (newest.map (fun x => 1 - x.1)).getD 0, commitSeq := (newest.map (fun x => rSeq x.2 + 1)).getD 1, free := used.foldl subRun [(2, st.blocks - 2)] }
                later (s1.modCk ep (fun k => { k with take := some t, step := fld d 64 64 }))

def execCkptTake (fn ring : Nat) (read : HRead) (answers : List BRead) (s : State) : Host.Outcome State Fault Refusal :=
  .next (onDesc s fn ring 0x15 0x02 (fun d ref s => ckptTake fn d ref read answers s))

/-! ### The end of a take (R290, R296, R298) -/

/-- Release records to every port that holds a captured region (R290). -/
def releaseRecords (s : State) (t : Take) (status : Nat) : State :=
  let v := t.userTag + status * 2 ^ 32 + t.step * 2 ^ 64 + t.snapTime * 2 ^ 128
  (capturedPorts t).foldl (fun s p =>
    match targetAddr s p t.relWindow t.relOffset 64 true with
    | some a => engineWrites s p 3 .record a (natLE 64 v)
    | none => s) s

/-- The take is no more: protection and holds go, waiting stores are made, blocks that nothing holds are freed. -/
def dropTake (s : State) (ep : Nat) (t : Take) : State :=
  let mine (w : BFor) : Bool := match w with | .take e _ => e == ep | _ => false
  let s1 := s.modCk ep (fun k => { k with take := none })
  let s2 := s1.modSto (fun x => { x with backends := x.backends.map (fun p => (p.1, { p.2 with cmds := p.2.cmds.filter (fun m => !mine m.who) })) })
  let s3 := t.holds.foldl (fun s h => if (holders s h.1).isEmpty then freeBlock s h.1 else s) (wakeStores s2)
  settlePools s3

def failTake (s : State) (ep status : Nat) : State :=
  match takeOf s ep with
  | none => s
  | some t =>
    let s1 := if t.released then s else releaseRecords s t status
    finish ((dropTake s1 ep t).modCk ep (fun k => { k with failed := satAdd 32 k.failed 1 })) t.ref status 0 0

/-! ### Writing out (R288, R292) -/

/-- Issue a write of a take with its data sealed; a take whose key slot is gone ends with 0x02 (R282, log 15). -/
def takeWrite (s : State) (ep block : Nat) (m : BCmd) (bs : List Byte) : State :=
  match storeCrypt s true (jobOf s ep).key block bs with
  | (s1, some c) => takeIssue s1 ep { m with lba := (ownStore (jobOf s ep)).first + block, data := c }
  | (s1, none) => failTake s1 ep 0x02

/-- Sealed writes of the parts of a piece into its runs; none where the key slot is gone. -/
def sealRuns (ep : Nat) (s : State) (runs : List (Nat × Nat)) (bs : List Byte) : State × Option (List BCmd) :=
  let r := runs.foldl (fun (p : State × Nat × Option (List BCmd)) u =>
    match p.2.2, storeCrypt p.1 true (jobOf s ep).key u.1 (sliceB bs (4096 * p.2.1) (4096 * u.2)) with
    | some ms, (s1, some c) => (s1, p.2.1 + u.2, some (ms ++ [{ op := .write, lba := (ownStore (jobOf s ep)).first + u.1, n := u.2, data := c, who := .take ep 1 }]))
    | _, (s1, _) => (s1, p.2.1 + u.2, none)) (s, 0, some [])
  (r.1, r.2.2)

/-- Write a piece's bytes to the data area: held until the zeros of the root slot are written. -/
def writeOut (s : State) (ep key : Nat) (bs : List Byte) : State :=
  match takeOf s ep with
  | none => s
  | some t =>
    let n := (bs.length + 4095) / 4096
    match takeRuns t.free n with
    | none => failTake s ep 0x07
    | some (rs, rest) =>
      match sealRuns ep s rs (fitB bs (4096 * n)) with
      | (s0, none) => failTake s0 ep 0x02
      | (s0, some ms) =>
        let s1 := s0.modTake ep (fun t => { t with free := rest, runs := oput t.runs key rs, left := t.left + ms.length, written := t.written + 4096 * n })
        if t.zeroed then ms.foldl (fun s m => takeIssue s ep m) (s1.modTake ep (fun t => { t with st := .writing }))
        else s1.modTake ep (fun t => { t with held := t.held ++ ms })

/-- The record of a region (log 16). -/
def regionRec (g : CkRegion) : Nat :=
  1 + g.listing * 2 ^ 8 + g.id * 2 ^ 16 + b2n g.accel * 2 ^ 32 + g.dedup * 2 ^ 33 + g.port * 2 ^ 35 + g.window * 2 ^ 38
    + g.addr * 2 ^ 64 + g.bytes * 2 ^ 128 + g.name * 2 ^ 192

/-- The extent table: regions in order with their runs, then the configuration and serving records. -/
def tableRecs (t : Take) : List Nat :=
  (List.range t.regions.length).flatMap (fun i =>
    let g := lget t.regions i {}
    let rs := if readRegion g then
        (List.range ((g.bytes + granuleBytes - 1) / granuleBytes)).flatMap (fun k => (oget t.runs (i * 2 ^ 20 + k)).getD [])
      else g.kept
    regionRec g :: rs.map runRec)
  ++ t.records.flatMap (fun r =>
    if fld r 0 8 = 4 && bitAt r 72 then r :: ((oget t.runs (2 ^ 40 + fld r 8 64)).getD []).map runRec else [r])

/-- Piece keys of a granule: every region of the take that is read and covers it. -/
def granuleKeys (t : Take) (g : Nat) : List Nat :=
  (List.range t.regions.length).filterMap (fun i =>
    let r := lget t.regions i {}
    if !r.accel && readRegion r && decide (r.addr / granuleBytes ≤ g) && decide (g < (r.addr + r.bytes) / granuleBytes)
    then some (i * 2 ^ 20 + (g - r.addr / granuleBytes)) else none)

/-- Protected granules that are still to be read, in order: the others lie in regions that are carried or referenced, and stay
protected to the end of the take (R287, R288). -/
def toRead (t : Take) : List Nat := t.prot.filter (fun g => !(granuleKeys t g).isEmpty)

/-- The longest wait of a take has ended: the extent table, then the Flush (R292). -/
def checkTake (s : State) (ep : Nat) : State :=
  match takeOf s ep with
  | none => s
  | some t =>
    if !t.zeroed || t.st == .accepted || t.st == .committing || !((toRead t).isEmpty && t.copies.isEmpty && t.copying.isEmpty && t.holds.isEmpty && t.capture.isEmpty) then s
    else match t.table with
      | none =>
        let bs := (tableRecs t).flatMap (natLE 64)
        let n := max 1 ((bs.length + 4095) / 4096)
        match t.free.find? (fun f => decide (n ≤ f.2)) with
        | none => failTake s ep 0x07
        | some f =>
          takeWrite (s.modTake ep (fun t => { t with st := .writing, table := some (f.1, n), free := subRun t.free (f.1, n), left := t.left + 1, written := t.written + 4096 * n }))
            ep f.1 { op := .write, n := n, who := .take ep 1 } (fitB bs (4096 * n))
      | some _ =>
        if t.left = 0 ∧ !t.flushed then
          takeIssue (s.modTake ep (fun t => { t with flushed := true })) ep { op := .flush, who := .take ep 2 }
        else s

/-- A backend command of a take ends: zeros of the root slot, data or extent table (R292, R296). -/
def takePart (s : State) (ep phase st : Nat) (m : BCmd) : State :=
  if st ≠ 0 then failTake s ep (ckStatus st)
  else
    let s0 := s.modCk ep (fun k => { k with bytesOut := (k.bytesOut + m.data.length) % 2 ^ 64 })
    match takeOf s0 ep with
    | none => s0
    | some t =>
      if phase = 0 then
        let s1 := s0.modTake ep (fun t => { t with zeroed := true, held := [], st := if t.held.isEmpty then t.st else .writing })
        checkTake (t.held.foldl (fun s m => takeIssue s ep m) s1) ep
      else checkTake (s0.modTake ep (fun t => { t with left := t.left - 1 })) ep

/-- A backend command that serves a host, or the zeros or data of a take. -/
def servesHostOrTake (w : BFor) : Bool := match w with | .host _ _ => true | .take _ p => decide (p < 2) | _ => false

/-- A backend command that serves a host or a take completes (R292, R455). -/
def doBackendComplete (b i : Nat) (ans : BRead) (s : State) : State :=
  match backDone s b i servesHostOrTake ans with
  | (s1, some (m, st, bs)) => match m.who with
    | .host c no => settleSto (hostPart s1 c no m st bs)
    | .take ep p => settleSto (takePart s1 ep p st m)
    | _ => s1
  | (s1, none) => s1

def execBackendCommandComplete (backend which : Nat) (answer : BRead) (s : State) : Host.Outcome State Fault Refusal :=
  .next (doBackendComplete backend which answer s)

/-! ### The snapshot (R279, R287, R291) -/

def cfgRec (kind ix off v : Nat) : Nat := 5 + kind * 2 ^ 8 + ix * 2 ^ 16 + off * 2 ^ 24 + v % 2 ^ 64 * 2 ^ 56

/-- A class as one number. -/
def packClass (c : KvClass) : Nat :=
  c.encoding + b2n c.raw * 2 ^ 4 + c.blockLog2 * 2 ^ 5 + c.t1 * 2 ^ 10 + c.t2 * 2 ^ 16 + c.t3 * 2 ^ 22 + (c.shift % 64).toNat * 2 ^ 28 + b2n c.promote * 2 ^ 34
def unpackClass (v : Nat) : KvClass :=
  { encoding := fld v 0 4, raw := bitAt v 4, blockLog2 := fld v 5 5, t1 := fld v 10 6, t2 := fld v 16 6, t3 := fld v 22 6, shift := sxt 6 (fld v 28 6), promote := bitAt v 34 }

/-- CONFIG: window sets and gate lists of the ports the PF1 owns, the KV set, the classes. -/
def configRecs (s : State) (ep : Nat) : List Nat :=
  ((List.range 8).filter (fun p => ownerOf s p == 4 + ep)).flatMap (fun p =>
    let a := s.port p
    cfgRec 6 p 0 1 :: a.activeSet.map (fun q => cfgRec 0 p q.1 q.2) ++ (match a.gateOper with
      | some g => [cfgRec 2 p 0 g.base, cfgRec 2 p 1 g.cycle] ++ (List.range g.entries.length).map (fun i =>
          let e := lget g.entries i (0, 0)
          cfgRec 1 p i (e.1 + e.2 * 2 ^ 24))
      | none => []))
  ++ (if s.kv.committed then
      (s.kv.t0.flatMap (fun q => [cfgRec 3 q.1 0 q.2.base, cfgRec 3 q.1 1 q.2.window, cfgRec 3 q.1 2 (b2n q.2.enable), cfgRec 3 q.1 3 q.2.slotLog2, cfgRec 3 q.1 4 q.2.slots]))
      ++ (s.kv.pools.flatMap (fun q => [cfgRec 4 q.1 0 q.2.base, cfgRec 4 q.1 1 q.2.kind, cfgRec 4 q.1 2 q.2.slot4k, cfgRec 4 q.1 3 q.2.high,
            cfgRec 4 q.1 4 q.2.low, cfgRec 4 q.1 5 q.2.slots, cfgRec 4 q.1 6 q.2.backend])) ++ [cfgRec 7 0 0 1]
    else [])
  ++ s.kv.classes.map (fun q => cfgRec 5 q.1 0 (packClass q.2))

/-- Blocks of a sequence before its first FRESH one (R280). -/
def fixedBlocks (s : State) (q : Seq) : List Nat := q.blocks.takeWhile (fun b => (s.blk b).st != .fresh)

/-- SERVING: open sequences of the PF1 and their blocks, and the copies to hold (R291). -/
def servingRecs (s : State) (ep : Nat) : List Nat × List (Nat × Nat) :=
  let qs := s.kv.seqs.filter (fun q => q.2.own.fn == 4 + ep)
  let bs := (qs.flatMap (fun q => fixedBlocks s q.2)).eraseDups
  let tierOf (b : Nat) : Nat := ([1, 2, 3].find? (fun t => (s.blk b).valid.contains t)).getD 0
  let recs := (qs.foldl (fun (p : List Nat × List Nat) q =>
    let c := s.kcls q.2.cls
    let fx := fixedBlocks s q.2
    let hd := 3 + handleOf q.1 q.2.gen * 2 ^ 8 + q.2.cls * 2 ^ 28 + q.2.port * 2 ^ 44 + q.2.window * 2 ^ 48 + q.2.offset * 2 ^ 52
      + q.2.maxBlocks * 2 ^ 116 + fx.length * 2 ^ 180 + c.encoding * 2 ^ 212 + c.blockLog2 * 2 ^ 216
    let r := fx.foldl (fun (p : List Nat × List Nat) b =>
      let first := (s.blk b).st == .sealed_ && !p.1.contains b
      (b :: p.1, p.2 ++ [4 + b * 2 ^ 8 + b2n first * 2 ^ 72])) (p.1, [])
    (r.1, p.2 ++ hd :: r.2)) ([], [])).2
  (recs, (bs.filter (fun b => (s.blk b).st == .sealed_)).map (fun b => (b, tierOf b)))

/-- The snapshot point (R287): granules protected, serving state fixed, zeros for the root slot on their way. -/
def doSnapshot (ep : Nat) (s : State) : State :=
  match takeOf s ep with
  | none => s
  | some t =>
    if t.st ≠ .accepted then s
    else
      let s1 := if ptp s < t.at_ then advanceToPtp s t.at_ else s
      let gs := t.regions
      let prot := (gs.filter (fun g => !g.accel)).flatMap (fun g => granulesOf g.addr g.bytes)
      let cap := (List.range gs.length).flatMap (fun i =>
        let g := lget gs i {}
        if g.accel && readRegion g then (piecesOf g).map (fun o => (i, o)) else [])
      let sv := if bitAt t.sections 1 then servingRecs s1 ep else ([], [])
      let cf := if bitAt t.sections 0 then configRecs s1 ep else []
      let s2 := s1.modTake ep (fun t => { t with st := .snapshot, snapTime := ptp s1, prot := prot.eraseDups, capture := cap, holds := sv.2, records := cf ++ sv.1, released := cap.isEmpty })
      let s3 := postEvent s2 (4 + ep) 0x1501 0 (ptp s1)
      let s4 := cap.foldl (fun s c =>
        let g := lget gs c.1 {}
        match targetAddr s g.port g.window (g.addr + c.2) (min granuleBytes (g.bytes - c.2)) false with
        | some a => engineRead_ s g.port a (min granuleBytes (g.bytes - c.2))
        | none => s) s3
      let s5 := sv.2.foldl (fun s h => beginRead s h.1 h.2) s4
      takeWrite s5 ep t.slot { op := .write, n := 1, fua := true, who := .take ep 0 } (List.replicate 4096 0#8)

def execSnapshotPoint (ep : Nat) (s : State) : Host.Outcome State Fault Refusal := .next (doSnapshot ep s)

/-! ### Copy on write (R288, R289) -/

/-- A core's store waits on a granule. -/
def storeWaits (s : State) (g : Nat) : Bool :=
  (List.range 66).any (fun c => match (s.core c).act with
    | .storing a _ _ => (a - 2 ^ 63) / granuleBytes == g
    | _ => false)

/-- A control core's store waits on a protected granule: its copy begins, or waits for room in the reserve. -/
def doGranuleCow (g : Nat) (s : State) : State :=
  if !storeWaits s g then s
  else (protectedBy s g).foldl (fun s ep =>
    if (reservePlace s ep (stackOf (g * granuleBytes))).isNone then reserveFull s ep (stackOf (g * granuleBytes))
    else s.modTake ep (fun t => { t with copying := if t.copying.contains g then t.copying else t.copying ++ [g] })) s

def execGranuleCow (granule : Nat) (s : State) : Host.Outcome State Fault Refusal := .next (doGranuleCow granule s)

/-- How long stores have waited for a granule, in µs. -/
def waitedUs (s : State) (g : Nat) : Nat :=
  (List.range 66).foldl (fun n c => match (s.core c).act with
    | .storing a _ since => if (a - 2 ^ 63) / granuleBytes = g then n + (s.vcycle - since) / usCycles else n
    | _ => n) 0

/-- The copy of a granule ends: it is unprotected, and the writes that waited proceed. -/
def doGranuleCopied (g : Nat) (s : State) : State :=
  let us := waitedUs s g
  wakeStores ((protectedBy s g).foldl (fun s ep =>
    match takeOf s ep with
    | some t => if t.copying.contains g then copyGranule s ep g us else s
    | none => s) s)

def execGranuleCopyComplete (granule : Nat) (s : State) : Host.Outcome State Fault Refusal := .next (doGranuleCopied granule s)

/-! ### Reads for the write-out (R290, R291) -/

/-- A capture read returns: into the capture area, and on its way to the store; at the last, release records (R290). -/
def doCaptureReturn (ep : Nat) (ext : ARead) (s : State) : State :=
  match takeOf s ep with
  | none => s
  | some t =>
    match t.capture with
    | [] => s
    | (i, o) :: rest =>
      match ext with
      | .bad st => failTake s ep st
      | .ok bs =>
        let g := lget t.regions i {}
        let data := fitB bs (min granuleBytes (g.bytes - o))
        let w := engineWrite s 8 ((s.ckpt ep).capBase * granuleBytes + t.captured) data
        if w.2 ≠ 0 then failTake w.1 ep w.2
        else
          let s1 := w.1.modTake ep (fun t => { t with capture := rest, captured := t.captured + data.length })
          let s2 := if rest.isEmpty then
              postEvent (releaseRecords (s1.modTake ep (fun t => { t with released := true })) t 0) (4 + ep) 0x1502 0 t.userTag
            else s1
          checkTake (writeOut s2 ep (i * 2 ^ 20 + o / granuleBytes) data) ep

def execCaptureReadReturn (ep : Nat) (ext : ARead) (s : State) : Host.Outcome State Fault Refusal := .next (doCaptureReturn ep ext s)

/-- The read of a copy engine for the write-out returns: a copy in the reserve first, then the next protected granule,
then the next held block copy (R288, R291). -/
def doTakeRead (ep : Nat) (ext : ARead) (s : State) : State :=
  match takeOf s ep with
  | none => s
  | some t =>
    let out (s : State) (keys : List Nat) (bs : List Byte) : State := checkTake (keys.foldl (fun s k => writeOut s ep k bs) s) ep
    match t.copies, toRead t, t.holds with
    | c :: rest, _, _ =>
      let r := match c.place with
        | some a => engineRead s 8 a granuleBytes
        | none => (s, 0, c.bytes)
      if c.bad then failTake r.1 ep 0x04
      else if r.2.1 ≠ 0 then failTake r.1 ep r.2.1
      else out (r.1.modTake ep (fun t => { t with copies := rest })) (granuleKeys t c.granule) r.2.2
    | [], g :: _, _ =>
      let r := engineRead s 8 (g * granuleBytes) granuleBytes
      if r.2.1 ≠ 0 then failTake r.1 ep r.2.1
      else
        let us := waitedUs r.1 g
        let s1 := wakeStores ((r.1.modTake ep (fun t => { t with prot := t.prot.filter (· != g), copying := t.copying.filter (· != g) })).modCk ep (fun k => { k with waitUs := satAdd 32 k.waitUs us }))
        out s1 (granuleKeys t g) r.2.2
    | [], [], (b, tier) :: rest =>
      let k := s.blk b
      let r := takeData s (movTile s k.port b) b tier ext
      if r.2.1 ≠ 0 then failTake (if tier = 1 ∧ r.2.1 = 0x04 then badT1 r.1 b else r.1) ep r.2.1
      else
        let e := if tier = 0 then tierDown k.kc r.2.2 else (r.2.2, 0)
        let s1 := (r.1.modTake ep (fun t => { t with holds := rest })).modKv (fun v => { v with sat := satAdd 32 v.sat e.2 })
        out (settlePools (if (holders s1 b).isEmpty then freeBlock s1 b else s1)) [2 ^ 40 + b] e.1
    | [], [], [] => s

def execTakeReadReturn (ep : Nat) (ext : ARead) (s : State) : Host.Outcome State Fault Refusal := .next (doTakeRead ep ext s)

/-! ### Commit (R283, R292, R293) -/

/-- The root block of a take at PTP time `now` (Table 8-2). -/
def rootBlock (j : CkJob) (t : Take) (now : Nat) : List Byte :=
  let tb := t.table.getD (0, 0)
  let v := 0x09600C4B + 2 ^ 32 + t.epoch * 2 ^ 48 + j.jobId * 2 ^ 64 + t.step * 2 ^ 128 + t.commitSeq * 2 ^ 192 + j.member * 2 ^ 256
    + j.members * 2 ^ 272 + t.sections * 2 ^ 288 + tb.1 * 2 ^ 384 + tb.2 * 2 ^ 448 + now * 2 ^ 480
  let bs := natLE 4092 v
  bs ++ natLE 4 (crc32c bs)

/-- Command of a take's own backend in a phase ends. -/
def takeDone (s : State) (ep phase : Nat) (ans : BRead) : State × Option (BCmd × Nat) :=
  match takeOf s ep with
  | none => (s, none)
  | some _ => match backDone s (ownStore (jobOf s ep)).backend 0 (fun w => w == .take ep phase) ans with
    | (s1, some (m, st, _)) => (s1, some (m, st))
    | (s1, none) => (s1, none)

/-- The Flush is complete: the root write is issued (R292). -/
def doTakeFlush (ep : Nat) (ans : BRead) (s : State) : State :=
  match takeDone s ep 2 ans with
  | (s1, none) => s1
  | (s1, some (_, st)) =>
    if st ≠ 0 then failTake s1 ep (ckStatus st)
    else match takeOf s1 ep with
      | none => s1
      | some t =>
        takeWrite (s1.modTake ep (fun t => { t with st := .committing })) ep t.slot { op := .write, n := 1, fua := true, who := .take ep 3 }
          (rootBlock (jobOf s1 ep) t (ptp s1))

def execTakeFlushComplete (ep : Nat) (answer : BRead) (s : State) : Host.Outcome State Fault Refusal := .next (doTakeFlush ep answer s)

/-- The root write ends, and with it the take (R293). -/
def doRootDone (ep : Nat) (ans : BRead) (s : State) : State :=
  match takeDone s ep 3 ans with
  | (s1, none) => s1
  | (s1, some (_, st)) =>
    match takeOf s1 ep with
    | none => s1
    | some t =>
      if st ≠ 0 then failTake s1 ep (ckStatus st)
      else
        let kept := (t.regions.filter (fun g => !readRegion g)).length
        finish ((dropTake s1 ep t).modCk ep (fun k => { k with bytesOut := (k.bytesOut + 4096) % 2 ^ 64 })) t.ref 0
          ((t.written + 2 ^ 20 - 1) / 2 ^ 20 % 2 ^ 32 + kept * 2 ^ 32) t.snapTime

def execRootWriteComplete (ep : Nat) (answer : BRead) (s : State) : Host.Outcome State Fault Refusal := .next (doRootDone ep answer s)

/-- CKPT_ABORT: its completion comes before that of the take it ends (R298, R309). -/
def ckptAbort (r : Nat) (ref : DRef) (s0 : State) : CmdRes :=
  let s := unorder s0 ref
  match takeOf s (epOf r) with
  | none => okR s 0
  | some t => if t.st = .committing then okR s 0 else later (failTake (finish s ref 0 1 0) (epOf r) 0x08)

def execCkptAbort (fn ring : Nat) (s : State) : Host.Outcome State Fault Refusal :=
  .next (onFetched s fn ring 0x15 0x03 (fun _ ref s => ckptAbort fn ref s))

/-! ### Surveys (R300, R313) -/

/-- Half of a survey record. -/
def surveyHalf (v : Nat) : List Byte :=
  natLE 32 (1 + rEpoch v * 2 ^ 16 + fld v 256 16 * 2 ^ 32 + fld v 272 16 * 2 ^ 48 + rStep v * 2 ^ 64 + rSeq v * 2 ^ 128 + fld v 480 64 * 2 ^ 192)

def ckptSurvey (r d : Nat) (ans : List BRead) (s : State) : CmdRes :=
  match jobHere s r with
  | none => bad s 0x80
  | some j =>
    let k := fld d 64 16
    if j.stores.length ≤ k ∨ fld d 192 64 % 64 ≠ 0 then bad s 0x06
    else
      let q := rdRoots (s, ans) j (lget j.stores k {})
      if q.2.1 ≠ 0 then bad q.1.1 q.2.1
      else
        let half (i : Nat) : List Byte := match q.2.2.find? (fun x => x.1 == i) with
          | some x => surveyHalf x.2
          | none => List.replicate 32 0#8
        okR (hostWrite q.1.1 r (fld d 192 64) (half 0 ++ half 1)) (q.2.2.foldl (fun a x => a + 2 ^ x.1) 0)

def execCkptSurvey (fn ring : Nat) (answers : List BRead) (s : State) : Host.Outcome State Fault Refusal :=
  .next (onDesc s fn ring 0x15 0x04 (fun d _ s => ckptSurvey fn d answers s))

/-! ### The capture and reserve set (R315) -/

def ckEnd (s : State) (ep status item : Nat) : State := s.modCk ep (fun k => { k with status := status, badItem := item })

/-- First bad item of the set: 0 capture area, n + 1 reserve of stack n. -/
def badCkItem (s : State) (k : Ckpt) : Option Nat :=
  let ca := k.capBase * granuleBytes
  let cn := k.capSize * granuleBytes
  let bad0 := cn != 0 && rangeRefused s ca cn
  let badN (n : Nat) : Bool :=
    let a := mget k.cowBase n 0 * granuleBytes
    let m := mget k.cowSize n 0 * granuleBytes
    m != 0 && (decide (a < n * 2 ^ 36) || decide ((n + 1) * 2 ^ 36 < a + m) || decide (256 < mget k.cowSize n 0) || rangeRefused s a m || overlap ca cn a m)
  if bad0 || decide (32768 < k.capSize) then some 0 else ((List.range 8).find? badN).map (· + 1)

def doCkCommit (r : Nat) (s : State) : State :=
  if !(isPf1 r && present s r) then s
  else
    let k := s.ckpt (epOf r)
    if k.committed then ckEnd s (epOf r) 0x07 0
    else match badCkItem s k with
      | some i => ckEnd s (epOf r) 0x06 i
      | none => ckEnd (s.modCk (epOf r) (fun k => { k with committed := true })) (epOf r) 0 0

def execCkSetCommit (fn : Nat) (s : State) : Host.Outcome State Fault Refusal := .next (gated fn (.ckSetCommit fn) (doCkCommit fn) s)

def doCkUnlock (r : Nat) (s : State) : State :=
  if !(isPf1 r && present s r) then s
  else if !(s.ckpt (epOf r)).committed then ckEnd s (epOf r) 0 0
  else if ckBusy s (epOf r) then ckEnd s (epOf r) 0x07 0
  else ckEnd (s.modCk (epOf r) (fun k => { k with committed := false })) (epOf r) 0 0

def execCkSetUnlock (fn : Nat) (s : State) : Host.Outcome State Fault Refusal := .next (gated fn (.ckSetUnlock fn) (doCkUnlock fn) s)

end Sys2Proof.Machine
end

