-- ==== Sys2Proof/Machine/PortDown.lean ====
section
/-!
DEFINITION. What follows when an accelerator port enters DOWN or SHUT (03: R74, R96), with the end of the work that
engines aimed at it (04: R143; 07: R276; 08: R296).
-/
namespace Sys2Proof.Machine

/-- Pushes of a port's plans that are under way or ready fail with 0x0B (R276). -/
def failPushes (s : State) (p : Nat) : State :=
  s.kv.plans.foldl (fun s q =>
    if q.2.port ≠ p then s
    else (q.2.moves.filter (fun m => match m.st with | .staged _ => true | .pushing => true | _ => false)).foldl (fun s m =>
      failMove s q.1 m.block 0x0B) s) s

/-- Takes that capture from a port fail with 0x0B until their pieces are captured (R296). -/
def failCaptures (s : State) (p : Nat) : State :=
  [0, 1].foldl (fun s ep => match takeOf s ep with
    | none => s
    | some t =>
      if t.capture.any (fun c => (lget t.regions c.1 {}).accel && (lget t.regions c.1 {}).port == p)
          || (t.st == .accepted && (capturedPorts t).contains p) then failTake s ep 0x0B else s) s

/-- A SEQ_OPEN or SEQ_FORK whose table WRITEs were dropped completes with 0x0B and opens nothing (R96, R250). -/
def failTables (s : State) (gone : List Egress) : State :=
  s.kv.tables.foldl (fun s t =>
    if gone.any (fun e => e.eng == .table t.1) then
      let ix := fld t.2.2 0 12
      let s1 := (truncSeq s ix 0).modKv (fun k => { k with seqs := odel k.seqs ix, tables := odel k.tables t.1 })
      settlePools (finish s1 t.2.1 0x0B 0 0)
    else s) s

/-- Consequences of R96 for the Limori's own work, given what stood in the egress. -/
def portGone (s : State) (p : Nat) (gone : List Egress) : State :=
  failCaptures (failPushes (failTables (missResults s p gone) gone) p) p

/-- A port enters DOWN (Table 3-1). -/
def goDown (s : State) (p : Nat) : State := portGone (enterDown s p) p (outgoing (s.port p))

/-- A port enters SHUT and closes its shutters (R74). -/
def goShut (s : State) (p : Nat) : State :=
  if (s.port p).st = .shut then s.modPort p (fun a => { a with shutterOpen := false }) else portGone (enterShut s p) p (outgoing (s.port p))

/-- AF_PORT_CTRL.enable written 0 (R74). -/
def doPortDisable (r p : Nat) (s : State) : State :=
  portReg s r p (fun s => goShut (s.modPort p (fun a => { a with enable := false })) p)

def execPortDisable (fn port : Nat) (s : State) : Host.Outcome State Fault Refusal :=
  .next (gated fn (.portDisable fn port) (doPortDisable fn port) s)

/-- No width is possible 20 µs into RETRAIN (Table 3-1). -/
def doRetrainTimeout (p : Nat) (s : State) : State :=
  if (s.port p).st = .retrain then goDown (advanceTo s ((s.port p).since + 20 * usCycles)) p else s

def execRetrainTimeout (port : Nat) (s : State) : Host.Outcome State Fault Refusal := .next (doRetrainTimeout port s)

end Sys2Proof.Machine
end

