-- ==== Sys2Proof/Machine/Queue.lean ====
section
/-!
DEFINITION. Transmit and receive queues, shapers and policers (11: R388 to R398, R404 to R407), with the commands of
kind 0x22 that make, change and use them.
-/
namespace Sys2Proof.Machine

def State.modCls (s : State) (f : Cls → Cls) : State := { s with cls := f s.cls }
def State.modSet (s : State) (k : Nat) (f : RuleSet → RuleSet) : State := s.modCls (fun c => { c with sets := omod c.sets k f })

/-! ### Versions (R372 to R375) -/

/-- Every packet in a lane. -/
def allLanes (s : State) : List Lane := s.cls.tiles.flatMap (fun t => t.2.rx ++ t.2.tx)

/-- A packet is fixed to a version of a set (R354, R373). -/
def versionUsed (s : State) (k v : Nat) : Bool := (allLanes s).any (fun l => l.set == some (k, v))

/-- An entry is visible to a packet of version v (R375). -/
def entryIn (e : Entry) (v : Nat) : Bool := decide (e.added ≤ v) && e.removed.all (fun r => decide (v < r))

/-- Versions of a set that are live: the active one, the pending one, and those that packets are fixed to (R373). -/
def liveVers (r : RuleSet) : List Nat := r.vers.map (·.1) ++ [r.active + 1]

/-- Tiles bound to a set in some live version. -/
def boundTile (r : RuleSet) (t : Nat) : Bool :=
  r.vers.any (fun v => v.2.binds.contains t || v.2.binds.contains (32 + t)) || r.pendingVer.binds.contains t || r.pendingVer.binds.contains (32 + t)

/-- Entries that no live version sees are gone, and places in tiles no live version binds are free (R375). -/
def pruneEntries (r : RuleSet) : RuleSet :=
  { r with entries := (r.entries.filter (fun e => (liveVers r).any (entryIn e))).map (fun e =>
      { e with places := e.places.filter (fun p => p.1 == 16 || boundTile r p.1) }) }

/-- Versions that have stopped being live are reclaimed, each with its event (R373). -/
def reclaim (s : State) (k : Nat) : State :=
  match oget s.cls.sets k with
  | none => s
  | some r =>
    let dead := r.vers.filter (fun v => v.1 != r.active && !versionUsed s k v.1)
    if dead.isEmpty then s
    else
      dead.foldl (fun s v =>
        let s1 := s.modSet k (fun r => pruneEntries { r with vers := odel r.vers v.1 })
        let old := ((oget s1.cls.sets k).bind (fun r => r.vers.head?)).elim 0 (·.1)
        postEvent s1 r.own.fn 0x2102 k (old % 2 ^ 16)) s

/-- PF1 that CLS_PORT_OWNER names for a network port (R384). -/
def netOwner (s : State) (p : Nat) : Nat := pf1Of (if bitAt s.cls.owner p then 1 else 0)
/-- The function is the port's PF1 or one of that PF1's VFs (R388). -/
def netMay (s : State) (r p : Nat) : Bool := backOf r == netOwner s p

/-! ### Buckets (R394 to R396) -/

/-- Refill of one bucket: at most its size, rate in Mb/s gives that many millibits a nanosecond. -/
def refillOne (rate burst : Nat) (b : Int) (dt : Nat) : Int := if rate = 0 then b else min (burst * 8000 : Int) (b + rate * dt)

def refill (b : Buckets) (t : Nat) : Buckets :=
  { b with c := refillOne b.cir b.cbs b.c (t - b.at_), p := refillOne b.pir b.pbs b.p (t - b.at_), at_ := t }

/-- New rates; the buckets start full (R394). -/
def newBuckets (cir pir cbs pbs t : Nat) : Buckets :=
  { cir := cir, pir := pir, cbs := cbs, pbs := pbs, c := cbs * 8000, p := pbs * 8000, at_ := t }

def frameCost (bs : List Byte) : Int := (bs.length + 4) * 8000

/-- Rates and bursts that a command may give (R398). -/
def ratesOk (cir pir cbs pbs : Nat) : Bool :=
  (cir == 0 || decide (9216 ≤ cbs)) && (pir == 0 || decide (9216 ≤ pbs)) && (cir == 0 || pir == 0 || decide (cir ≤ pir))
  && decide (cir ≤ 800000) && decide (pir ≤ 800000)

/-- Eligible at all, and committed (R392, R395). -/
def peakOk (b : Buckets) : Bool := b.pir == 0 || decide (0 ≤ b.p)
def isCommitted (b : Buckets) : Bool := b.cir != 0 && decide (0 ≤ b.c) && peakOk b

/-- Both buckets are charged when a frame is selected (R395). -/
def charge (b : Buckets) (cost : Int) : Buckets := { b with c := if b.cir = 0 then b.c else b.c - cost, p := if b.pir = 0 then b.p else b.p - cost }

/-- The two-rate three-color marker (R396): 1 green, 2 yellow, 3 red. -/
def mark (b : Buckets) (cost : Int) : Nat × Buckets :=
  if b.pir ≠ 0 ∧ b.p < cost then (3, b)
  else if b.cir ≠ 0 ∧ b.c < cost then (2, { b with p := b.p - cost })
  else (1, { b with p := b.p - cost, c := b.c - cost })

/-- Rewrite the DSCP of a frame's outermost IP header, with the IPv4 checksum recomputed (R396). -/
def remark (fr : List Byte) (dscp : Nat) : List Byte :=
  let o := (if beNat (sliceB fr 12 2) = 0x8100 ∨ beNat (sliceB fr 12 2) = 0x88A8 then (if beNat (sliceB fr 16 2) = 0x8100 then 22 else 18) else 14)
  let et := beNat (sliceB fr (o - 2) 2)
  let ip := fr.drop o
  if et = 0x0800 ∧ 20 ≤ ip.length then
    let hl := beNat (ip.take 1) % 16 * 4
    let h := ip.take 1 ++ natBE 1 (dscp * 4 + beNat (sliceB ip 1 1) % 4) ++ sliceB ip 2 8 ++ [0#8, 0#8] ++ (ip.take hl).drop 12
    fr.take o ++ h.take 10 ++ natBE 2 (ipSum h) ++ h.drop 12 ++ ip.drop hl
  else if et = 0x86DD ∧ 40 ≤ ip.length then
    let v := beNat (ip.take 2)
    fr.take o ++ natBE 2 (v / 4096 * 4096 + (dscp * 4 + v / 16 % 4) * 16 + v % 16) ++ ip.drop 2
  else fr

/-- A policer of a port meters a frame (R396, R397): its color, and the frame it passes, or none when it drops it. -/
def police (s : State) (j n : Nat) (fr : List Byte) : State × Nat × Option (List Byte) :=
  match oget (s.netPort (j / 4)).policers n with
  | none => (s.modNetIf j (fun i => { i with noPolicer := satAdd 32 i.noPolicer 1 }), 0, some fr)
  | some q =>
    let m := mark (refill q.b (ptp s)) (frameCost fr)
    let k := m.1 - 1
    let act := if m.1 = 1 then q.green else if m.1 = 2 then q.yellow else q.red
    let q1 := { q with b := m.2, counts := lmod (lmod q.counts k 0 (· + 1)) (3 + k) 0 (· + (fr.length + 4)) }
    let s1 := s.modNetPort (j / 4) (fun p => { p with policers := oput p.policers n q1 })
    (s1, m.1, if act = 1 then none else if act = 2 then some (remark fr q.dscp) else some fr)

/-! ### Receive queues (R389) -/

/-- A packet goes to a receive queue of its port. -/
def deliverRx (s : State) (j q ts hash meta_ color : Nat) (fr : List Byte) : State :=
  match (if q ≤ 4095 then oget (s.netPort (j / 4)).rxqs q else none) with
  | none => s.modNetIf j (fun i => { i with rxNoq := satAdd 32 i.rxNoq 1 })
  | some x =>
    match x.bufs with
    | [] => s.modNetIf j (fun i => { i with rxNobuf := satAdd 32 i.rxNobuf 1 })
    | (ref, addr, len) :: rest =>
      let s1 := s.modNetPort (j / 4) (fun p => { p with rxqs := oput p.rxqs q { x with bufs := rest } })
      let cut := fr.take (len - 16)
      let s2 := hostWrite s1 x.fn addr (natLE 8 ts ++ natLE 4 hash ++ natLE 4 meta_ ++ cut)
      finish s2 ref 0 (cut.length + b2n (decide (cut.length < fr.length)) * 2 ^ 14 + color * 2 ^ 15) (j % 4)

/-! ### Tags (R393) -/

/-- Cost of a weight code. -/
def costOf (code : Nat) : Nat := 2 ^ 23 / ((32 + code % 32) * 2 ^ (code / 32 % 8))
/-- Tag `a` precedes tag `b`. -/
def tagBefore (a b : Nat) : Bool := decide (2 ^ 47 ≤ (a + 2 ^ 48 - b % 2 ^ 48) % 2 ^ 48)
def tagMax (a b : Nat) : Nat := if tagBefore a b then b else a

/-- Tag of a frame that becomes the head of a participant. -/
def headTag (v fLast weight : Nat) (fr : List Byte) : Nat := (tagMax v fLast + (fr.length + 4) * costOf weight) % 2 ^ 48

/-- The transmit queue of a ring pair: port and number. -/
def txqOf (s : State) (r i : Nat) : Option (Nat × Nat × Txq) :=
  s.net.ports.findSome? (fun p => (p.2.txqs.find? (fun q => q.2.fn == r && q.2.ring == i)).map (fun q => (p.1, q.1, q.2)))
def rxqOf (s : State) (r i : Nat) : Option (Nat × Nat × Rxq) :=
  s.net.ports.findSome? (fun p => (p.2.rxqs.find? (fun q => q.2.fn == r && q.2.ring == i)).map (fun q => (p.1, q.1, q.2)))

def putTxq (s : State) (p n : Nat) (q : Txq) : State := s.modNetPort p (fun x => { x with txqs := oput x.txqs n q })

/-- A frame with verdict TRANSMIT joins the queue of the ring pair that posted it, or the transport participant of its
interface (R390, R391). -/
def joinTx (s : State) (j : Nat) (f : TxFrame) : State :=
  match f.ref with
  | some ref =>
    match txqOf s ref.fn ref.ring with
    | none => finish s ref 0x01 0 0
    | some (p, n, q) =>
      let tag := if q.frames.isEmpty then headTag (mget (s.netIf j).v q.cls 0) q.fLast q.weight f.bytes else q.tag
      putTxq s p n { q with frames := q.frames ++ [f], tag := tag }
  | none =>
    s.modNetIf j (fun i => { i with rdma := i.rdma ++ [f], rdmaTag := if i.rdma.isEmpty then tagMax (mget i.v i.rdmaTc 0) i.rdmaLast else i.rdmaTag })

/-! ### Commands of kind 0x22 (R388, R405, R406) -/

def dCir (d : Nat) : Nat := fld d 96 20
def dPir (d : Nat) : Nat := fld d 128 20
def dCbs (d : Nat) : Nat := fld d 160 24
def dPbs (d : Nat) : Nat := fld d 184 24

def txqCreate (r i d : Nat) (s : State) : CmdRes :=
  let p := fld d 64 4
  let n := fld d 70 12
  if !netMay s r p then bad s 0x02
  else if ifsOf (s.netPort p).breakout ≤ fld d 68 2 ∨ ratesOk (dCir d) (dPir d) (dCbs d) (dPbs d) = false then bad s 0x06
  else if (oget (s.netPort p).txqs n).isSome ∨ (txqOf s r i).isSome ∨ (rxqOf s r i).isSome then bad s 0x82
  else ok0 (putTxq s p n { fn := r, gen := (s.fn r).gen, ring := i, iface := 4 * p + fld d 68 2, cls := fld d 82 3, weight := fld d 85 8, shaper := newBuckets (dCir d) (dPir d) (dCbs d) (dPbs d) (ptp s) })

def execTxqCreate (fn ring : Nat) (s : State) : Host.Outcome State Fault Refusal :=
  .next (onDesc s fn ring 0x22 0x01 (fun d ref s => txqCreate fn ring d (unorder s ref)))

def rxqCreate (r i d : Nat) (s : State) : CmdRes :=
  let p := fld d 64 4
  let n := fld d 70 12
  if !netMay s r p then bad s 0x02
  else if fld d 68 2 ≠ 0 then bad s 0x06
  else if (oget (s.netPort p).rxqs n).isSome ∨ (txqOf s r i).isSome ∨ (rxqOf s r i).isSome then bad s 0x82
  else ok0 (s.modNetPort p (fun x => { x with rxqs := oput x.rxqs n { fn := r, gen := (s.fn r).gen, ring := i } }))

def execRxqCreate (fn ring : Nat) (s : State) : Host.Outcome State Fault Refusal :=
  .next (onDesc s fn ring 0x22 0x02 (fun d ref s => rxqCreate fn ring d (unorder s ref)))

/-- Q_CONFIG: class, weight and rates; the buckets keep what they hold (R406). -/
def qConfig (r i d : Nat) (s : State) : CmdRes :=
  match txqOf s r i with
  | some (p, n, q) =>
    if ratesOk (dCir d) (dPir d) (dCbs d) (dPbs d) = false then bad s 0x06
    else
      let b := refill q.shaper (ptp s)
      ok0 (putTxq s p n { q with cls := fld d 82 3, weight := fld d 85 8, shaper := { b with cir := dCir d, pir := dPir d, cbs := dCbs d, pbs := dPbs d } })
  | none => if (rxqOf s r i).isSome then ok0 s else bad s 0x80

def execQConfig (fn ring : Nat) (s : State) : Host.Outcome State Fault Refusal :=
  .next (onDesc s fn ring 0x22 0x03 (fun d ref s => qConfig fn ring d (unorder s ref)))

/-- A queue goes; what it holds is flushed, frames still in the classifier too (R406). -/
def dropTxq (s : State) (p n : Nat) (q : Txq) : State :=
  let mine (f : Option DRef) : Bool := f.any (fun x => x.fn == q.fn && x.ring == q.ring)
  let lane := (s.ctile p).tx.filter (fun l => mine l.ref)
  let s1 := s.modNetPort p (fun x => { x with txqs := odel x.txqs n })
  let s2 := s1.modCtile p (fun c => { c with tx := c.tx.filter (fun l => !mine l.ref) })
  let s3 := q.frames.foldl (fun s f => match f.ref with | some x => finish s x 0x01 0 0 | none => s) s2
  let s4 := lane.foldl (fun s l => match l.ref with | some x => finish s x 0x01 0 0 | none => s) s3
  (lane.filterMap (fun l => l.set.map (·.1))).eraseDups.foldl reclaim s4

def dropRxq (s : State) (p n : Nat) (q : Rxq) : State :=
  q.bufs.foldl (fun s b => finish s b.1 0x01 0 0) (s.modNetPort p (fun x => { x with rxqs := odel x.rxqs n }))

def qDestroy (r i : Nat) (s : State) : CmdRes :=
  match txqOf s r i, rxqOf s r i with
  | some (p, n, q), _ => ok0 (dropTxq s p n q)
  | none, some (p, n, q) => ok0 (dropRxq s p n q)
  | none, none => bad s 0x80

def execQDestroy (fn ring : Nat) (s : State) : Host.Outcome State Fault Refusal :=
  .next (onDesc s fn ring 0x22 0x04 (fun _ ref s => qDestroy fn ring (unorder s ref)))

def policerSet (r d : Nat) (s : State) : CmdRes :=
  let p := fld d 64 4
  let n := fld d 70 12
  if !netMay s r p then bad s 0x02
  else if n = 0 ∨ fld d 208 2 = 3 ∨ fld d 210 2 = 3 ∨ fld d 212 2 = 3 ∨ ratesOk (dCir d) (dPir d) (dCbs d) (dPbs d) = false then bad s 0x06
  else
    let q : Policer := { b := newBuckets (dCir d) (dPir d) (dCbs d) (dPbs d) (ptp s), green := fld d 208 2, yellow := fld d 210 2, red := fld d 212 2, dscp := fld d 214 6, counts := ((oget (s.netPort p).policers n).elim [0, 0, 0, 0, 0, 0] (·.counts)) }
    ok0 (s.modNetPort p (fun x => { x with policers := oput x.policers n q }))

def execPolicerSet (fn ring : Nat) (s : State) : Host.Outcome State Fault Refusal :=
  .next (onDesc s fn ring 0x22 0x05 (fun d ref s => policerSet fn d (unorder s ref)))

def policerRead (r d : Nat) (s : State) : CmdRes :=
  let p := fld d 64 4
  let n := fld d 70 12
  if !netMay s r p then bad s 0x02
  else if n = 0 ∨ fld d 256 64 % 64 ≠ 0 then bad s 0x06
  else
    let c := (oget (s.netPort p).policers n).elim [0, 0, 0, 0, 0, 0] (·.counts)
    ok0 (hostWrite s r (fld d 256 64) (c.flatMap (natLE 8)))

def execPolicerRead (fn ring : Nat) (s : State) : Host.Outcome State Fault Refusal :=
  .next (onDesc s fn ring 0x22 0x06 (fun d ref s => policerRead fn d (unorder s ref)))

/-- TX_PACKET: the frame is read and enters the transmit lane of its port's classifier (R390); one that finds the lane's
buffer full is dropped, and its command ends as a frame that is not sent does (R355; DESIGN CHOICE, log 27). -/
def txPacket (r i d : Nat) (ref : DRef) (data : HRead) (s : State) : CmdRes :=
  match txqOf s r i with
  | none => bad s 0x83
  | some (p, _, q) =>
    let n := fld d 128 14
    if n < 60 ∨ 9212 < n ∨ fld d 64 64 % 64 ≠ 0 then bad s 0x06
    else
      let h := rdHost s r n data
      if h.1 ≠ 0 then bad s h.1
      else if laneFull (s.ctile p).tx n then bad (countOverflow s p) 0x84
      else later (s.modCtile p (fun c => { c with tx := c.tx ++ [{ iface := q.iface, bytes := h.2, ref := some ref, stamp := bitAt d 142 }] }))

def execTxPacket (fn ring : Nat) (data : HRead) (s : State) : Host.Outcome State Fault Refusal :=
  .next (onDesc s fn ring 0x22 0x10 (fun d ref s => txPacket fn ring d ref data s))

/-- RX_BUFFER posts a buffer (R389). -/
def rxBuffer (r i d : Nat) (ref : DRef) (s : State) : CmdRes :=
  match rxqOf s r i with
  | none => bad s 0x83
  | some (p, n, q) =>
    let len := fld d 128 14
    if len < 80 ∨ fld d 64 64 % 64 ≠ 0 then bad s 0x06
    else later (s.modNetPort p (fun x => { x with rxqs := oput x.rxqs n { q with bufs := q.bufs ++ [(ref, fld d 64 64, len)] } }))

def execRxBuffer (fn ring : Nat) (s : State) : Host.Outcome State Fault Refusal :=
  .next (onDesc s fn ring 0x22 0x11 (fun d ref s => rxBuffer fn ring d ref (unorder s ref)))

end Sys2Proof.Machine
end

