-- ==== Sys2Proof/Machine/RdmaNet.lean ====
section
/-!
DEFINITION. Packets that reach the remote memory transport (09): parking and context fetches, the responder, responses to
the requester, datagrams, congestion notifications. A packet is taken from the front of its tile's input, where the
classifier put it (10).
-/
namespace Sys2Proof.Machine

/-- Key of the queue pair a packet addresses: number 1 is the interface's GSI queue pair (R320). -/
def destKey (iface : Nat) (p : RocePkt) : Nat := if p.destQp = 1 then gsiKey iface else p.destQp

/-- The front packet of a tile's input. -/
def inputHead (s : State) (t : Nat) : Option (Nat × RocePkt) := (s.rtile t).input.head?
def dropHead (s : State) (t : Nat) : State := s.modRtile t (fun x => { x with input := x.input.drop 1 })

/-! ### Parking and fetching (R333 to R336) -/

/-- Bytes that a tile's miss queue holds. -/
def missBytes (s : State) (t : Nat) : Nat :=
  s.rdma.qps.foldl (fun n q => if qpTile q.2 = t then q.2.parked.foldl (fun n p => n + p.size) n else n) 0

/-- A packet that would have to be parked while the miss queue is above its mark is dropped and counted (R334). -/
def missDrop (s : State) (t : Nat) : State :=
  let s1 := s.modRtile t (fun x => { x with missDrop := satAdd 32 x.missDrop 1, missSince := x.missSince + 1 })
  let due := match (s.rtile t).missAt with
    | none => true
    | some c => decide (c + msCycles ≤ s.vcycle)
  if due then
    let n := (s1.rtile t).missSince
    bothPf1.foldl (fun s r => postEventS s r 0x2003 t 0x07 n 0) (s1.modRtile t (fun x => { x with missSince := 0, missAt := some s.vcycle }))
  else s1

/-- A packet for a queue pair whose context is not resident (R333, R335): it is parked, and the context is installed at
once from the victim buffer or fetched from its backing table. -/
def park (s : State) (t n : Nat) (q : Qp) (p : RocePkt) : State :=
  if s.rdma.hwm * 1024 < missBytes s t ∨ 4 * 2 ^ 20 < missBytes s t + p.size then missDrop s t
  else
    let s1 := s.modQp n (fun q => { q with parked := q.parked ++ [p] })
    if q.res = .absent then
      emit ((s1.modQp n (fun q => { q with res := .fetching })).modRtile t (fun x => { x with miss := satAdd 32 x.miss 1 }))
        (.hostRead (backOf q.own.fn) (ctxAddr s q n) 512)
    else s1

/-- What the context cache does with a packet: run it, with its context in use, or `none` when it was parked or dropped. -/
def withCtx (s : State) (t n : Nat) (p : RocePkt) : State × Bool :=
  match oget s.rdma.qps n with
  | none => (s, true)
  | some q =>
    if vfStill s q.own.fn then (s.modRtile t (fun x => { x with noQp := satAdd 32 x.noQp 1 }), false)
    else if isGsi n ∨ q.res = .resident then (useCtx s n true, true)
    else if q.res = .victim then
      match install s n with
      | some s' => (useCtx s' n true, true)
      | none => (park s t n q p, false)
    else (park s t n q p, false)

/-- A context fetch returns (R333, R336): the parked packets enter the pipeline ahead of later ones, or are dropped. -/
def doFetchReturn (n : Nat) (read : HRead) (s : State) : State :=
  match oget s.rdma.qps n with
  | none => s
  | some q =>
    if q.res ≠ .fetching then s
    else
      let t := qpTile q
      let fail (st : Nat) : State :=
        let k := q.parked.length
        let s1 := (s.modQp n (fun q => { q with res := .absent, parked := [] })).modRtile t (fun x => { x with missDrop := satAdd 32 x.missDrop k })
        bothPf1.foldl (fun s r => postEventS s r 0x2004 t st (qpNo n + k % 2 ^ 32 * 2 ^ 32) 0) s1
      if hostGone s (backOf q.own.fn) then fail 0x0B
      else match read with
        | .ok _ => match install s n with
          | none => s
          | some s1 => (s1.modQp n (fun q => { q with parked := [] })).modRtile t (fun x => { x with input := q.parked.map (fun p => (q.iface, p)) ++ x.input })
        | _ => fail 0x03

def execContextFetchReturn (qpn : Nat) (read : HRead) (s : State) : Host.Outcome State Fault Refusal :=
  .next (doFetchReturn qpn read s)

/-- The write-back of an evicted context is accepted: it leaves the victim buffer (R335). -/
def doWbAccepted (n : Nat) (s : State) : State :=
  s.modQp n (fun q => if q.res = .victim then { q with res := .absent } else q)

def execContextWritebackAccepted (qpn : Nat) (s : State) : Host.Outcome State Fault Refusal := .next (doWbAccepted qpn s)

/-! ### Responder (R327 to R330, R340, R341) -/

/-- An acknowledgement, positive or negative, for a PSN (R330). -/
def reply (s : State) (n : Nat) (psn syndrome : Nat) : State :=
  match oget s.rdma.qps n with
  | none => s
  | some q => sendPkt s n q.iface q.attr q.destQp { op := 0x11, destQp := q.destQp, psn := psn % 2 ^ 24, syndrome := syndrome, msn := q.msn }

def ackSyn : Nat := 0x1F
def nakSeq : Nat := 0x60
def nakInvalid : Nat := 0x61
def nakAccess : Nat := 0x62
def nakOper : Nat := 0x63

/-- A CNP goes to the requesting queue pair, at most one per interval (R341); for a datagram it takes the path back to
the sender (DESIGN CHOICE, log 46). -/
def cnpSend (s : State) (n : Nat) (q : Qp) (attr dest : Nat) : State :=
  let due := match q.cnpAt with
    | none => true
    | some c => decide (c + s.rdma.cnpIntervalUs * usCycles ≤ s.vcycle)
  if due then
    ((sendPkt s n q.iface attr dest { op := 0x81, destQp := dest }).modQp n (fun q => { q with cnpAt := some s.vcycle })).modRtile (qpTile q)
      (fun x => { x with cnpTx := satAdd 32 x.cnpTx 1 })
  else s

/-- NAK and ERROR with a cause, without a receive in hand (R327). -/
def refuse (s : State) (n psn syndrome cause : Nat) : State := qpError (reply s n psn syndrome) n cause psn

/-- The posted receive in hand fails with a status: it completes first (R338). -/
def failRecv (s : State) (n psn syndrome status : Nat) (imm sol : Nat) : State :=
  match oget s.rdma.qps n with
  | none => s
  | some q =>
    let s1 := reply s n psn syndrome
    match q.recvs with
    | [] => qpError s1 n status psn
    | w :: rest => qpError (endRecv (s1.modQp n (fun q => { q with recvs := rest })) n w status 0 imm sol 0) n status psn

/-- The expected PSN advances, a message ends, and an acknowledgement is sent where it is asked for (R327, R330). -/
def accept (s : State) (n : Nat) (p : RocePkt) (k : Nat) (ends : Bool) : State :=
  let s1 := s.modQp n (fun q => { q with epsn := inc24 q.epsn k, gapNak := false, msn := if ends then inc24 q.msn 1 else q.msn })
  if p.ackReq then reply s1 n (p.psn + k - 1) ackSyn else s1

/-- A receive completes at the end of its message (R330, R344, R348). -/
def finishRecv (s : State) (n : Nat) (p : RocePkt) (got : Nat) : State :=
  match oget s.rdma.qps n with
  | none => s
  | some q => match q.recvs with
    | [] => s
    | w :: rest => endRecv (s.modQp n (fun q => { q with recvs := rest })) n w 0 (got + (if opImm p.op then p.imm * 2 ^ 32 else 0)) (b2n (opImm p.op)) (b2n p.solicited) 0

/-- The packet is in sequence within its message (Table 9-3 step 6), and has the length its opcode asks for. -/
def inSequence (q : Qp) (p : RocePkt) : Bool :=
  let n := p.data.length
  let m := mtuOf q
  let sized := if [0, 1, 6, 7].contains p.op then n == m else if [2, 3, 8, 9].contains p.op then decide (1 ≤ n) && decide (n ≤ m) else decide (n ≤ m)
  if isSendOp p.op || isWriteOp p.op then
    sized && (match q.inMsg with
      | none => opStarts p.op
      | some i => !opStarts p.op && i.write == isWriteOp p.op)
  else (p.op == 0xC || (opAtomic p.op && p.va % 8 == 0)) && q.inMsg.isNone

/-- A SEND packet (steps 7 and 8, and the local checks of R339). -/
def execSendPkt (s : State) (n : Nat) (q : Qp) (p : RocePkt) : State :=
  let got := q.inMsg.elim 0 (·.got)
  match q.recvs with
  | [] => reply s n p.psn (0x20 + q.minRnr % 32)
  | w :: _ =>
    if w.len < got + p.data.length then failRecv s n p.psn nakInvalid 0x06 (b2n (opImm p.op)) (b2n p.solicited)
    else
      let r : State × Nat := if p.data.isEmpty then (s, 0)
        else match mrAccess s q.own q.pd w.lkey (some 0) (w.laddr + got) p.data.length with
          | none => (s, 0x02)
          | some m => mrWrite s (qpTile q) m (w.laddr + got) p.data
      if r.2 ≠ 0 then failRecv r.1 n p.psn nakOper r.2 (b2n (opImm p.op)) (b2n p.solicited)
      else
        let g := got + p.data.length
        let s1 := r.1.modQp n (fun q => { q with inMsg := if opEnds p.op then none else some { write := false, got := g } })
        accept (if opEnds p.op then finishRecv s1 n p g else s1) n p 1 (opEnds p.op)

/-- The communicator and node that a queue pair serves (R226). -/
def commOfQp (s : State) (n : Nat) (q : Qp) : Option (Nat × Nat) :=
  match q.bound with
  | none => none
  | some m => match oget s.fw.comms m with
    | none => none
    | some c => ((List.range c.peers.length).find? (fun i => i != c.nodeIndex && (lget c.peers i (0, 0, 0)).1 == n)).map (fun i => (m, i))

/-- A notifying put has arrived from a node (R220). -/
def notePut (s : State) (m node bytes : Nat) : State :=
  { s with fw := { s.fw with comms := omod s.fw.comms m (fun c => { c with arrived := mset c.arrived node (mget c.arrived node 0 + bytes) 0 }) } }

/-- A WRITE packet (steps 7, 9, 10 and 11). A put of a collective program that notifies is a WRITE_IMM, which uses no
posted receive (R220, R226). -/
def execWritePkt (s : State) (n : Nat) (q : Qp) (p : RocePkt) : State :=
  let i : InMsg := match q.inMsg with
    | some i => i
    | none => { write := true, va := p.va, rkey := p.rkey, left := p.len }
  let k := p.data.length
  if opImm p.op && q.recvs.isEmpty && (commOfQp s n q).isNone then reply s n p.psn (0x20 + q.minRnr % 32)
  else if i.left < k ∨ (opEnds p.op = true ∧ i.left ≠ k) then refuse s n p.psn nakInvalid 0x06
  else
    let need := if opStarts p.op then p.len else k
    let r : State × Nat × Nat := if need = 0 then (s, 0, 0)
      else match mrAccess s q.own q.pd i.rkey (some 2) (i.va + i.got) need with
        | none => (s.modRtile (qpTile q) (fun x => { x with protFail := satAdd 32 x.protFail 1 }), 0x02, nakAccess)
        | some m =>
          let w := mrWrite s (qpTile q) m (i.va + i.got) p.data
          (w.1, w.2, nakOper)
    if r.2.1 ≠ 0 then refuse r.1 n p.psn r.2.2 r.2.1
    else
      let s1 := r.1.modQp n (fun q => { q with inMsg := if opEnds p.op then none else some { i with left := i.left - k, got := i.got + k } })
      accept (if !opImm p.op then s1 else match commOfQp s n q with
        | some (m, node) => notePut s1 m node (i.got + k)
        | none => finishRecv s1 n p (i.got + k)) n p 1 (opEnds p.op)

/-- Response packets of a READ of `len` bytes from a PSN on. -/
def readResponses (q : Qp) (psn : Nat) (bs : List Byte) : List RocePkt :=
  let m := mtuOf q
  let k := packetsFor q bs.length
  (List.range k).map (fun i =>
    { op := if k = 1 then 0x10 else if i = 0 then 0xD else if i + 1 = k then 0xF else 0xE, destQp := q.destQp,
      psn := inc24 psn i, syndrome := ackSyn, msn := q.msn, data := sliceB bs (m * i) m })

/-- A READ request: the region is read as it stands, and the responses are returned (R327, R328, R340). -/
def execReadPkt (s : State) (n : Nat) (q : Qp) (p : RocePkt) (host : HRead) (dup : Bool) : State :=
  let r : State × Nat × Nat × List Byte := if p.len = 0 then (s, 0, 0, [])
    else match mrAccess s q.own q.pd p.rkey (some 1) p.va p.len with
      | none => (s.modRtile (qpTile q) (fun x => { x with protFail := satAdd 32 x.protFail 1 }), 0x02, nakAccess, [])
      | some m =>
        let x := mrRead s (qpTile q) m p.va p.len host
        (x.1, x.2.1, nakOper, x.2.2)
  if r.2.1 ≠ 0 then refuse r.1 n p.psn r.2.2.1 r.2.1
  else
    let s1 := if dup then r.1 else r.1.modQp n (fun q => { q with epsn := inc24 q.epsn (packetsFor q p.len), gapNak := false, msn := inc24 q.msn 1 })
    xmit s1 n q (readResponses { q with msn := if dup then q.msn else inc24 q.msn 1 } p.psn r.2.2.2)

/-- The answer to an atomic. -/
def atomicReply (s : State) (n : Nat) (q : Qp) (psn v : Nat) : State :=
  xmit s n q [{ op := 0x12, destQp := q.destQp, psn := psn, syndrome := ackSyn, msn := q.msn, orig := v }]

/-- A compare-and-swap or fetch-and-add on 8 bytes; its result is saved for duplicates (R327, R328). -/
def execAtomicPkt (s : State) (n : Nat) (q : Qp) (p : RocePkt) (host : HRead) : State :=
  match mrAccess s q.own q.pd p.rkey (some 3) p.va 8 with
  | none => refuse (s.modRtile (qpTile q) (fun x => { x with protFail := satAdd 32 x.protFail 1 })) n p.psn nakAccess 0x02
  | some m =>
    let x := mrRead s (qpTile q) m p.va 8 host
    if x.2.1 ≠ 0 then refuse x.1 n p.psn nakOper x.2.1
    else
      let v := leNat x.2.2
      let w : State × Nat := if p.op = 0x13 then (if v = p.cmp then mrWrite x.1 (qpTile q) m p.va (natLE 8 p.swap) else (x.1, 0))
        else mrWrite x.1 (qpTile q) m p.va (natLE 8 ((v + p.swap) % 2 ^ 64))
      if w.2 ≠ 0 then refuse w.1 n p.psn nakOper w.2
      else
        let s1 := w.1.modQp n (fun q => { q with epsn := inc24 q.epsn 1, gapNak := false, msn := inc24 q.msn 1, saved := ((p.psn, v) :: q.saved).take 16 })
        atomicReply s1 n { q with msn := inc24 q.msn 1 } p.psn v

/-- A duplicate request (R328, R329): no committed write is executed again. -/
def duplicate (s : State) (n : Nat) (q : Qp) (p : RocePkt) (host : HRead) : State :=
  if p.op = 0xC then execReadPkt s n q p host true
  else if opAtomic p.op then
    match q.saved.find? (fun v => v.1 == p.psn) with
    | some v => atomicReply s n q p.psn v.2
    | none => refuse s n p.psn nakInvalid 0x06
  else reply (s.modRtile (qpTile q) (fun x => { x with dupAck := satAdd 32 x.dupAck 1 })) n (q.epsn + 2 ^ 24 - 1) ackSyn

/-- Steps 4 to 11 of Table 9-3. -/
def respond (s : State) (n : Nat) (q : Qp) (p : RocePkt) (host : HRead) : State :=
  if psnBefore p.psn q.epsn then duplicate s n q p host
  else if p.psn ≠ q.epsn then
    if q.gapNak then s else reply (s.modQp n (fun q => { q with gapNak := true })) n q.epsn nakSeq
  else if !inSequence q p then refuse s n p.psn nakInvalid 0x06
  else if isSendOp p.op then execSendPkt s n q p
  else if isWriteOp p.op then execWritePkt s n q p
  else if p.op = 0xC then execReadPkt s n q p host false
  else execAtomicPkt s n q p host

def noQp (s : State) (t : Nat) : State := s.modRtile t (fun x => { x with noQp := satAdd 32 x.noQp 1 })

/-- An RC request packet reaches the responder (R327). -/
def doRequest (t : Nat) (host : HRead) (s : State) : State :=
  match inputHead s t with
  | none => s
  | some (j, p) =>
    if opResponse p.op || opUd p.op || p.op == 0x81 then s
    else
      let s1 := dropHead s t
      let n := destKey j p
      match oget s1.rdma.qps n with
      | none => noQp s1 t
      | some q =>
        match withCtx s1 t n p with
        | (s2, false) => s2
        | (s2, true) =>
          if q.iface ≠ j ∨ q.type ≠ 0 ∨ q.st = .reset ∨ q.st = .init then noQp s2 t
          else if q.st = .error then s2
          else respond (if p.ce then cnpSend s2 n q q.attr q.destQp else s2) n q p host

def execRcRequestPacket (net : Nat) (host : HRead) (s : State) : Host.Outcome State Fault Refusal := .next (doRequest net host s)

/-! ### Responses at the requester (R331) -/

/-- Where the oldest unacknowledged PSN has moved from `una`, the retry counts and the ack timer start again (R331). -/
def restartRetries (s : State) (n una : Nat) : State :=
  s.modQp n (fun q => if q.una = una then q else { q with retries := 0, rnrs := 0, ackFrom := s.vcycle })

/-- Later work requests execute, and a drained send queue is reported. -/
def resumeSends (s : State) (n : Nat) : State := checkDrainedQp (pumpSends s n) n
def progress (s : State) (n una : Nat) : State := resumeSends (restartRetries s n una) n

/-- Leading SENDs and WRITEs whose last PSN is at or before `psn` complete, in posting order. -/
def ackUpTo : Nat → State → Nat → Nat → State
  | 0, s, _, _ => s
  | fuel + 1, s, n, psn =>
    match oget s.rdma.qps n with
    | none => s
    | some q => match q.sends with
      | [] => s
      | w :: rest =>
        let last := inc24 w.psn (w.packets - 1)
        if w.sent && !isRdOp w.op && !psnBefore psn last then
          ackUpTo fuel (endSend (s.modQp n (fun q => { q with sends := rest, una := inc24 last 1, rtt := (s.vcycle - w.sentAt) / usCycles })) n w 0 w.len) n psn
        else s

/-- The PSN lies among those sent and not acknowledged. -/
def inFlight (q : Qp) (psn : Nat) : Bool := decide ((psn + 2 ^ 24 - q.una) % 2 ^ 24 < (q.psn + 2 ^ 24 - q.una) % 2 ^ 24)

/-- A positive acknowledgement: what it covers completes, and the oldest unacknowledged PSN moves up. -/
def gotAck (s : State) (n psn una : Nat) : State :=
  let s1 := ackUpTo 32769 s n psn
  progress (match oget s1.rdma.qps n with
    | none => s1
    | some q => match q.sends.find? (·.sent) with
      | some w => if isRdOp w.op then s1 else s1.modQp n (fun q => { q with una := if inFlight q psn then inc24 psn 1 else q.una })
      | none => s1) n una

/-- The work request that holds a PSN. -/
def wrAt (q : Qp) (psn : Nat) : Option SendWr :=
  q.sends.find? (fun w => w.sent && decide ((psn + 2 ^ 24 - w.psn) % 2 ^ 24 < w.packets))

/-- A negative acknowledgement (R331, R339): what lies before its PSN is acknowledged first. -/
def gotNak (s : State) (n una : Nat) (p : RocePkt) : State :=
  let s1 := restartRetries ((ackUpTo 32769 s n (inc24 p.psn (2 ^ 24 - 1))).modQp n (fun q => { q with una := if inFlight q p.psn then p.psn else q.una })) n una
  match oget s1.rdma.qps n with
  | none => s1
  | some q =>
    if p.syndrome / 32 = 1 then
      match wrAt q p.psn with
      | none => resumeSends s1 n
      | some w =>
        if q.rnrRetry ≠ 7 ∧ q.rnrRetry ≤ q.rnrs then sendError s1 n w 0x09 1
        else s1.modQp n (fun q => { q with rnrs := q.rnrs + 1, rnrWait := some (s.vcycle + rnrCycles (p.syndrome % 32)) })
    else if p.syndrome = nakSeq then resumeSends (retransmit s1 n) n
    else match wrAt q p.psn with
      | none => resumeSends s1 n
      | some w => sendError s1 n w 0x05 0

/-- A READ response or the answer to an atomic (R326, R331): each packet is checked against its region once. -/
def gotData (s : State) (n una : Nat) (p : RocePkt) : State :=
  let s1 := ackUpTo 32769 s n (inc24 p.psn (2 ^ 24 - 1))
  match oget s1.rdma.qps n with
  | none => s1
  | some q => match q.sends with
    | [] => s1
    | w :: rest =>
      if !w.sent || !isRdOp w.op then s1
      else
        let expect := if w.op = 0x14 then inc24 w.psn (w.got / mtuOf q) else w.psn
        if p.psn ≠ expect then (if psnBefore expect p.psn then retransmit s1 n else progress s1 n una)
        else if (w.op = 0x14) ≠ (p.op ≠ 0x12) then s1
        else
          let bs := if w.op = 0x14 then p.data.take (w.len - w.got) else natLE 8 p.orig
          let r : State × Nat := if bs.isEmpty then (s1, 0)
            else match mrAccess s1 q.own q.pd w.lkey (some 0) (w.laddr + w.got) bs.length with
              | none => (s1, 0x02)
              | some m => mrWrite s1 (qpTile q) m (w.laddr + w.got) bs
          if r.2 ≠ 0 then sendError r.1 n w r.2 0
          else if w.op = 0x14 ∧ w.got + bs.length < w.len then
            progress (r.1.modQp n (fun q => { q with una := inc24 p.psn 1, sends := { w with got := w.got + bs.length } :: rest })) n una
          else
            let s2 := r.1.modQp n (fun q => { q with sends := rest, una := inc24 p.psn 1, rtt := (s.vcycle - w.sentAt) / usCycles })
            progress (endSend s2 n w 0 (if w.op = 0x14 then w.len else p.orig)) n una

/-- An ACK, NAK, READ response or atomic answer reaches the requester (R331). -/
def doResponse (t : Nat) (s : State) : State :=
  match inputHead s t with
  | none => s
  | some (j, p) =>
    if !opResponse p.op then s
    else
      let s1 := dropHead s t
      let n := destKey j p
      match oget s1.rdma.qps n with
      | none => noQp s1 t
      | some q =>
        match withCtx s1 t n p with
        | (s2, false) => s2
        | (s2, true) =>
          if q.iface ≠ j ∨ q.type ≠ 0 ∨ q.st = .reset ∨ q.st = .init then noQp s2 t
          else if (q.st ≠ .rts ∧ q.st ≠ .sqd) ∨ inFlight q p.psn = false then s2
          else if p.op = 0x11 then (if p.syndrome / 32 = 0 then gotAck s2 n p.psn q.una else gotNak s2 n q.una p)
          else gotData s2 n q.una p

def execResponsePacket (net : Nat) (s : State) : Host.Outcome State Fault Refusal := .next (doResponse net s)

/-! ### Datagrams and congestion notifications (R320, R341, R342) -/

/-- A UD or GSI packet is delivered, its route header first, or dropped (R320, R348). -/
def doUd (t : Nat) (s : State) : State :=
  match inputHead s t with
  | none => s
  | some (j, p) =>
    if !opUd p.op then s
    else
      let s1 := dropHead s t
      let n := destKey j p
      match oget s1.rdma.qps n with
      | none => noQp s1 t
      | some q =>
        match withCtx s1 t n p with
        | (s2, false) => s2
        | (s2, true) =>
          if q.iface ≠ j ∨ q.type = 0 ∨ q.st = .reset ∨ q.st = .init then noQp s2 t
          else if q.st = .error ∨ q.qkey ≠ p.qkey then s2
          else
            let b := Config.backPath j
            let s2 := if p.ce then cnpSend s2 n q (p.back + fld b.toNat 0 8 * 2 ^ 168 + fld b.toNat 8 20 * 2 ^ 176) p.srcQp else s2
            match q.recvs with
            | [] => s2
            | w :: rest =>
              let bs := fitB p.grh 40 ++ p.data
              let s3 := s2.modQp n (fun q => { q with recvs := rest })
              let fin (s : State) (st res : Nat) : State := endRecv s n w st res (b2n (opImm p.op)) (b2n p.solicited) p.srcQp
              if w.len < bs.length then qpError (fin s3 0x06 0) n 0x06 p.psn
              else match mrAccess s3 q.own q.pd w.lkey (some 0) w.laddr bs.length with
                | none => qpError (fin s3 0x02 0) n 0x02 p.psn
                | some m =>
                  let r := mrWrite s3 (qpTile q) m w.laddr bs
                  if r.2 ≠ 0 then qpError (fin r.1 r.2 0) n r.2 p.psn
                  else fin r.1 0 (bs.length + (if opImm p.op then p.imm * 2 ^ 32 else 0))

def execUdPacket (net : Nat) (s : State) : Host.Outcome State Fault Refusal := .next (doUd net s)

/-- A CNP raises the gust level of its queue pair and lowers its rate (R342). -/
def doCnp (t : Nat) (s : State) : State :=
  match inputHead s t with
  | none => s
  | some (j, p) =>
    if p.op ≠ 0x81 then s
    else
      let s1 := dropHead s t
      let n := destKey j p
      match oget s1.rdma.qps n with
      | none => noQp s1 t
      | some _ =>
        match withCtx s1 t n p with
        | (s2, false) => s2
        | (s2, true) =>
          let s3 := addTotal (s2.modRtile t (fun x => { x with cnpRx := satAdd 32 x.cnpRx 1 })) 4 j 4 1
          if !gusted n then s3
          else
            let s4 := s3.modQp n (fun q =>
              let q1 := gustUp s.rdma.minRate q
              { q1 with squall := q1.squall.map (fun x => (x.1, x.2.1, x.2.2.1, x.2.2.2.1 + 1, x.2.2.2.2)) })
            checkSquall s4 n

def execCnpRx (net : Nat) (s : State) : Host.Outcome State Fault Refusal := .next (doCnp net s)

end Sys2Proof.Machine
end

