-- ==== Sys2Proof/Machine/Restore.lean ====
section
/-!
DEFINITION. CKPT_RESTORE (08: R301 to R306, R310, R312). A restore runs within the command: the answers of its reads are
the command's operands, in the order in which it makes them (DESIGN CHOICE, log 15).
-/
namespace Sys2Proof.Machine

/-- A restore under way: state, answers left, status so far, bytes read, sequences and regions restored, handle map, the
sequence being opened, and the new number of each recorded block. -/
structure Rest where
  s : State := {}
  ans : List BRead := []
  status : Nat := 0
  bytes : Nat := 0
  seqs : Nat := 0
  regs : Nat := 0
  map : List Byte := []
  seq : Nat := 0
  blocks : NMap Nat := []

def Rest.fail (x : Rest) (st : Nat) : Rest := { x with status := st }
/-- Go on unless something has failed. -/
def Rest.go (x : Rest) (f : Rest → Rest) : Rest := if x.status ≠ 0 then x else f x
def Rest.rd (x : Rest) (p : Rd) : Rest := { x with s := p.1, ans := p.2 }

/-- Read runs of a store in order, adding to the bytes read so far. -/
def restRuns (j : CkJob) (st : CkStore) (us : List (Nat × Nat)) (x : Rest) : Rest × List Byte :=
  us.foldl (fun (p : Rest × List Byte) u =>
    if p.1.status ≠ 0 then p
    else
      let r := rdStore (p.1.s, p.1.ans) j.key st u.1 u.2
      let y := p.1.rd r.1
      if r.2.1 ≠ 0 then (y.fail r.2.1, p.2) else ({ y with bytes := y.bytes + 4096 * u.2 }, p.2 ++ r.2.2)) (x, [])

/-- Write zeros to a root slot, with FUA (R303). -/
def zeroSlot (j : CkJob) (st : CkStore) (slot : Nat) (x : Rest) : Rest :=
  match storeCrypt x.s true j.key slot (List.replicate 4096 0#8), oget x.s.sto.backends st.backend with
  | _, none => x.fail 0x09
  | (_, none), _ => x.fail 0x02
  | (s0, some bs), some k =>
    let x := { x with s := s0 }
    if !k.remote then
      let w := engineWrite x.s 8 (k.base + (st.first + slot) * 4096) bs
      if w.2 ≠ 0 then { x with s := w.1, status := w.2 } else { x with s := w.1 }
    else if k.st ≠ .ready then x.fail 0x09
    else
      let s1 := emit x.s (.target st.backend 0x01 (st.first + slot) 1 true bs)
      match x.ans with
      | .ok _ :: rest => { x with s := s1, ans := rest }
      | _ :: rest => { x with s := s1, ans := rest, status := 0x09 }
      | [] => { x with s := s1, status := 0x09 }

/-! ### CONFIG (R304) -/

def cKind (v : Nat) : Nat := fld v 8 8
def cIx (v : Nat) : Nat := fld v 16 8
def cOff (v : Nat) : Nat := fld v 24 32
def cVal (v : Nat) : Nat := fld v 56 64

/-- Records of one kind for one port, pool or class. -/
def cSel (cs : List Nat) (kind ix : Nat) : List Nat := cs.filter (fun v => cKind v == kind && cIx v == ix)
def cOne (cs : List Nat) (kind ix off : Nat) : Nat := match (cSel cs kind ix).find? (fun v => cOff v == off) with
  | some v => cVal v
  | none => 0
def cIxs (cs : List Nat) (kind : Nat) : List Nat := ((cs.filter (fun v => cKind v == kind)).map cIx).eraseDups

/-- Window sets into the shadow sets, committed as PW_COMMIT commits. -/
def restWindows (r : Nat) (cs : List Nat) (x : Rest) : Rest :=
  let ps := cIxs cs 6
  let s1 := ps.foldl (fun s p => s.modPort p (fun a => { a with shadow := (cSel cs 0 p).foldl (fun m v => mset m (cOff v) (cVal v) 0) [] })) x.s
  if ps.isEmpty then x
  else if x.s.fabric.pwBusy then { x with s := s1, status := 0x0B }
  else
    let s2 := doPwCommit r (ps.foldl (fun m p => m + 2 ^ p) 0) s1
    { x with s := s2, status := if s2.fabric.pwBusy then 0 else s2.fabric.pwStatus }

/-- Gate lists, each committed as AF_GATE_ACTION commits. -/
def restGates (r : Nat) (cs : List Nat) (x : Rest) : Rest :=
  (cIxs cs 2).foldl (fun x p => x.go (fun x =>
    let es := cSel cs 1 p
    let s1 := x.s.modPort p (fun a => { a with gateBase := cOne cs 2 p 0, gateCycle := cOne cs 2 p 1, gateChange := 0, gateLen := es.length, gcl := es.foldl (fun m v => mset m (cOff v) (cVal v) 0) [] })
    let s2 := doAfGateCommit r p s1
    { x with s := s2, status := (s2.port p).gateStatus })) x

/-- The KV set and the classes. -/
def restKv (cs : List Nat) (x : Rest) : Rest :=
  let put (s : State) : State :=
    let s1 := (List.range 8).foldl (fun s p => s.modT0 p (fun t => { t with base := cOne cs 3 p 0, window := cOne cs 3 p 1, enable := cOne cs 3 p 2 != 0, slotLog2 := cOne cs 3 p 3, slots := cOne cs 3 p 4 })) s
    let s2 := (List.range 32).foldl (fun s n => s.modPool n (fun p => { p with base := cOne cs 4 n 0, kind := cOne cs 4 n 1, slot4k := cOne cs 4 n 2, high := cOne cs 4 n 3, low := cOne cs 4 n 4, slots := cOne cs 4 n 5, backend := cOne cs 4 n 6 })) s1
    doKvCommit s2
  let kvs := !(cIxs cs 7).isEmpty
  let x1 := if !kvs then x
    else
      let s1 := doKvUnlock x.s
      if s1.kv.committed then { x with s := s1, status := 0x07 }
      else
        let s2 := put s1
        { x with s := s2, status := s2.kv.lastStatus }
  x1.go (fun x => { x with s := x.s.modKv (fun k => { k with classes := (cIxs cs 5).foldl (fun m n => oput m n (unpackClass (cOne cs 5 n 0))) k.classes }) })

def restConfig (r : Nat) (table : List Nat) (x : Rest) : Rest :=
  let cs := table.filter (fun v => fld v 0 8 == 5)
  ((x.go (restWindows r cs)).go (restGates r cs)).go (restKv cs)

/-! ### SERVING (R304, R312) -/

/-- Open a recorded sequence anew, every table entry empty. -/
def restSeq (r portMap v : Nat) (x : Rest) : Rest :=
  let c := fld v 28 16
  let p := fld portMap (3 * fld v 44 3) 3
  let k := x.s.kcls c
  if (oget x.s.kv.classes c).isNone ∨ k.encoding ≠ fld v 212 4 ∨ k.blockLog2 ≠ fld v 216 5 then x.fail 0x06
  else match lowestFree x.s.kv.seqs 0 4096 with
    | none => x.fail 0x07
    | some ix =>
      let g := (mget x.s.kv.seqGen ix 0 + 1) % 256
      let q : Seq := { own := x.s.ownOf r, gen := g, cls := c, port := p, window := fld v 48 4, offset := fld v 52 64, maxBlocks := fld v 116 64 }
      let s1 := x.s.modKv (fun k => { k with seqs := oput k.seqs ix q, seqGen := mset k.seqGen ix g 0 })
      if ownerOf x.s p ≠ r then x.fail 0x02
      else match targetAddr s1 p q.window q.offset (4 * q.maxBlocks) true with
      | none => x.fail 0x02
      | some a =>
      let s2 := engineWrites s1 p 2 .record a ((List.range q.maxBlocks).flatMap (fun _ => natLE 4 noEntry))
      { x with s := s2, seq := ix, seqs := x.seqs + 1, map := x.map ++ natLE 8 (fld v 8 20 + handleOf ix g * 2 ^ 32) }

/-- Place a recorded block in the first pool of its class with a free slot, or share one already placed. -/
def restBlock (j : CkJob) (st : CkStore) (v : Nat) (us : List (Nat × Nat)) (x : Rest) : Rest :=
  let old := fld v 8 64
  let attach (x : Rest) (b : Nat) : Rest := { x with s := x.s.modSeq x.seq (fun q => { q with blocks := q.blocks ++ [b] }) }
  match oget x.blocks old with
  | some b => attach x b
  | none =>
    if 2 ^ 27 ≤ x.s.kv.blocks.length then x.fail 0x07
    else match oget x.s.kv.seqs x.seq with
    | none => x
    | some q =>
      let b := x.s.kv.nextBlock
      let c := x.s.kcls q.cls
      let new (st : BlockSt) : State := x.s.modKv (fun k => { k with nextBlock := b + 1, blocks := oput k.blocks b { cls := q.cls, kc := c, port := q.port, st := st } })
      if !bitAt v 72 then attach { x with s := new .lost, blocks := oput x.blocks old b } b
      else
        let y := attach { x with s := new .sealed_, blocks := oput x.blocks old b } b
        let pl := [1, 2, 3].foldl (fun (a : State × Option (Nat × Nat)) t => if a.2.isSome then a else
          match clsPool c t with
          | none => a
          | some pn => match takePool a.1 pn with
            | (s1, some i) => (s1, some (t, i))
            | (s1, none) => (s1, none)) (y.s, none)
        match pl.2 with
        | none => { y with s := pl.1, status := 0x07 }
        | some (t, i) =>
          let z := restRuns j st us { y with s := pl.1.modBlk b (fun k => { k with slots := oput k.slots t i }) }
          if z.1.status ≠ 0 then z.1
          else
            let w := putData z.1.s b t (fitB z.2 (storedBytes c.encoding (blockBytes c)))
            { z.1 with s := w.1.modBlk b (fun k => { k with valid := [t] }), status := w.2 }

def restServing (r portMap : Nat) (j : CkJob) (st : CkStore) (table : List Nat) (x : Rest) : Rest :=
  (groupRecs table).foldl (fun x g => x.go (fun x =>
    if fld g.1 0 8 = 3 then restSeq r portMap g.1 x
    else if fld g.1 0 8 = 4 then restBlock j st g.1 g.2 x
    else x)) x

/-! ### REGIONS (R304, R305) -/

/-- The runs that a name resolves to: the valid roots of the named store, then those of the store table in order. -/
def resolveName (j : CkJob) (name : Nat) (stores : List CkStore) (x : Rest) : Rest × Option (CkStore × List (Nat × Nat)) :=
  stores.foldl (fun (p : Rest × Option (CkStore × List (Nat × Nat))) st =>
    if p.2.isSome || p.1.status != 0 then p
    else
      let q := rdRoots (p.1.s, p.1.ans) j st
      let y := p.1.rd q.1
      if q.2.1 ≠ 0 then (y.fail q.2.1, none)
      else q.2.2.foldl (fun (p : Rest × Option (CkStore × List (Nat × Nat))) root =>
        if p.2.isSome || p.1.status != 0 then p
        else
          let t := rdTable (p.1.s, p.1.ans) j st root.2
          let z := p.1.rd t.1
          if t.2.1 ≠ 0 then (z.fail t.2.1, none) else (z, (listedRuns t.2.2 name).map (fun us => (st, us)))) (y, none)) (x, none)

/-- A map entry, by its region. -/
def mapOf (maps : List Nat) (id : Nat) : Option Nat := maps.find? (fun m => fld m 0 16 == id)

/-- Restore one region to the place its map entry gives, or its recorded one. -/
def restRegion (j : CkJob) (st : CkStore) (maps : List Nat) (g : Nat × List (Nat × Nat)) (x : Rest) : Rest :=
  let v := g.1
  let m := mapOf maps (fld v 16 16)
  if m.any (fun m => bitAt m 16) then x
  else
    let accel := bitAt v 32
    let addr := match m with | some m => fld m 64 64 | none => fld v 64 64
    let port := match m with | some m => fld m 17 3 | none => fld v 35 3
    let win := match m with | some m => fld m 20 4 | none => fld v 38 4
    let n := fld v 128 64
    if (if accel then addr % 4096 != 0 else addr % granuleBytes != 0 || spaceOf addr != 0) then x.fail 0x06
    else
      let src := if fld v 8 8 < 2 then (x, some (st, g.2)) else resolveName j (fld v 192 256) (st :: j.stores) x
      if src.1.status ≠ 0 then src.1
      else match src.2 with
        | none => src.1.fail 0x84
        | some (ss, us) =>
          let d := restRuns j ss us src.1
          if d.1.status ≠ 0 then d.1
          else
            let bs := fitB d.2 n
            let done (s : State) : Rest := { d.1 with s := s, regs := d.1.regs + 1 }
            if accel then
              match targetAddr d.1.s port win addr n true with
              | none => d.1.fail 0x02
              | some a => if portUp (d.1.s.port port) then done (engineWrites d.1.s port 3 .record a bs) else d.1.fail 0x0B
            else if rangeRefused d.1.s addr n then d.1.fail 0x02
            else
              let w := engineWrite d.1.s 8 addr bs
              if w.2 ≠ 0 then { d.1 with s := w.1, status := w.2 } else done w.1

def restRegions (j : CkJob) (st : CkStore) (maps table : List Nat) (x : Rest) : Rest :=
  ((groupRecs table).filter (fun g => fld g.1 0 8 == 1)).foldl (fun x g => x.go (restRegion j st maps g)) x

/-! ### The command (R302, R303) -/

def parseMaps : Nat → List Byte → List Nat
  | 0, _ => []
  | k + 1, bs => leNat (bs.take 16) :: parseMaps k (bs.drop 16)

def ckptRestore (r d : Nat) (read : HRead) (ans : List BRead) (s : State) : CmdRes :=
  let ep := epOf r
  let k := fld d 64 16
  let e := fld d 80 16
  let step := fld d 128 64
  let sections := fld d 96 3
  let n := fld d 256 16
  match jobHere s r with
  | none => bad s 0x80
  | some j =>
    if ckBusy s ep then bad s 0x81
    else if j.pair.isSome && j.pair != some (e, step) then bad s 0x85
    else if sections = 0 ∨ j.stores.length ≤ k ∨ fld d 192 64 % 64 ≠ 0 ∨ 4096 < n ∨ (n ≠ 0 ∧ fld d 192 64 = 0)
        ∨ fld d 320 64 % 8 ≠ 0 ∨ (bitAt sections 1 ∧ fld d 320 64 = 0) ∨ (bitAt sections 0 ∧ k ≠ j.ownStore) then bad s 0x06
    else
      let h := if n = 0 then (0, []) else rdHost s r (16 * n) read
      if h.1 ≠ 0 then bad s h.1
      else
        let maps := parseMaps n h.2
        if maps.any (fun m => fld m 24 40 != 0) then bad s 0x06
        else
          let st := lget j.stores k {}
          let q := rdRoots (s, ans) j st
          if q.2.1 ≠ 0 then bad q.1.1 q.2.1
          else match q.2.2.find? (fun x => rEpoch x.2 == e && rStep x.2 == step) with
            | none => bad q.1.1 0x83
            | some root =>
              let s1 := q.1.1.modCk ep (fun c => { c with job := some { j with pair := some (e, step) } })
              let x0 : Rest := { s := s1, ans := q.1.2 }
              let other := q.2.2.any (fun x => x.1 != root.1 && !(rEpoch x.2 == e && rStep x.2 == step))
              let x1 := if k = j.ownStore && other then zeroSlot j st (1 - root.1) x0 else x0
              let tb := rdTable (x1.s, x1.ans) j st root.2
              let x2 := if x1.status ≠ 0 then x1 else { x1.rd tb.1 with status := tb.2.1 }
              let x3 := if bitAt sections 0 then x2.go (restConfig r tb.2.2) else x2
              let x4 := if bitAt sections 1 then x3.go (restServing r (fld d 272 24) j st tb.2.2) else x3
              let x5 := if bitAt sections 2 then x4.go (restRegions j st maps tb.2.2) else x4
              let s6 := settlePools <| if x5.map.isEmpty then x5.s else hostWrite x5.s r (fld d 320 64) x5.map
              if x5.status ≠ 0 then bad s6 x5.status
              else okR s6 ((x5.bytes + 2 ^ 20 - 1) / 2 ^ 20 % 2 ^ 32 + x5.seqs % 2 ^ 16 * 2 ^ 32 + x5.regs % 2 ^ 16 * 2 ^ 48)

def execCkptRestore (fn ring : Nat) (read : HRead) (answers : List BRead) (s : State) : Host.Outcome State Fault Refusal :=
  .next (onDesc s fn ring 0x15 0x05 (fun d _ s => ckptRestore fn d read answers s))

end Sys2Proof.Machine
end

