-- ==== Sys2Proof/Machine/Keeper.lean ====
section
/-!
DEFINITION. What the keepers do (06: R209 to R240): finding stopped cores, reloads, adoption by siblings, keeper
failover and ROM restart, drains and hand-offs, and the replacement of a component core by core.
-/
namespace Sys2Proof.Machine

/-! ### Starting a core (R211, R212, R235) -/

/-- Region registers of the stand-in image, for an image that lists none: the core's own IM, PDM and TSM slice, the register
window, stack memory above the reserved areas, both host spaces and its own journal. The manual signs each component's list
into an image it does not print (DESIGN CHOICE, log 7). -/
def startRegions (c : Nat) : List Nat :=
  [0x0D, 0x3F000, 0x10000B, 0x11F000, 0x100000B + c % 16 * 0x40000, 0x103F000 + c % 16 * 0x40000, 0x10000000B, 0x1FFFFF000]
  ++ (List.range 8).flatMap (fun n => [2 ^ 63 + n * 2 ^ 36 + 0x2720000B, 2 ^ 63 + (n + 1) * 2 ^ 36 - 0x1000])
  ++ [0x900000000000000B, 0x9FFFFFFFFFFFF000, 0xA00000000000000B, 0xAFFFFFFFFFFFF000, 2 ^ 63 + journalAddr c + 0xB, 2 ^ 63 + journalAddr c + 0xFF000]

/-- Region registers that a list gives (R211): a region not listed is not enabled. -/
def regionRegs (ws : List Nat) : NMap Nat := (List.range 32).foldl (fun m k => mset m k (lget ws k 0) 0) []

/-- Image that a core runs: the component's, or the new one of a replacement under way (R239). -/
def imageOf (s : State) (c : Nat) (new : Bool) : Comp :=
  let run := mget s.fw.comps (compOf c) {}
  match s.fw.repl with
  | some r => if r.comp = compOf c ∧ new = true then r.new else run
  | none => run

/-- Exception vector of the stand-in image (DESIGN CHOICE, log 7). -/
def startVec : Nat := 0x40

/-- Code of the loaded programs in a COLL core's IM (R220, R227). -/
def slotCode (s : State) : NMap Byte :=
  s.fw.slots.foldl (fun m p => writeMapB m (0x10000 + 0x4000 * p.1) p.2.code) []

/-- A core as its keeper starts it: the component's image in IM, PDM cleared with the initial component data, control
registers and regions set; step completion queue, mailbox, steps and alive counter stand (R200, R235). From stage 2 on the
core has its journal (R232). -/
def freshCore (s : State) (c : Nat) (k : Core) : Core :=
  let m := imageOf s c k.newImage
  { st := k.st, act := .running, evec := if m.evec = 0 then startVec else m.evec
    regions := if 64 ≤ c then [] else regionRegs (if m.regions.isEmpty then startRegions c else m.regions)
    im := writeMapB (if compOf c = 4 then slotCode s else []) 0 m.code, pdm := writeMapB [] 0 m.data, alive := k.alive
    stepsOut := k.stepsOut, scq := k.scq, mbox := k.mbox, restarts := k.restarts, lastCause := k.lastCause, stops := k.stops
    heldSince := k.heldSince, journaled := k.journaled || decide (2 ≤ s.power.stage), launches := k.launches, newImage := k.newImage }

/-- Ring pairs a core owns, and those of them that can be HELD: an event ring never is (R57). -/
def allOwned (s : State) (c : Nat) : List (Nat × Nat) :=
  ((allRings s).filter (fun q => q.2.2.owner == c)).map (fun q => (q.1, q.2.1))
def ownRings (s : State) (c : Nat) : List (Nat × Nat) := (allOwned s c).filter (fun q => q.2 != 0)

def holdAll (s : State) (c : Nat) : State := (ownRings s c).foldl (fun s q => hold s q.1 q.2) s
def unholdAll (s : State) (c : Nat) : State := (ownRings s c).foldl (fun s q => unhold s q.1 q.2) s

/-- A running launch is replayed from its program's entry with its initial data: journaled calls are answered again (R222). -/
def replayLaunch (s : State) (c : Nat) : State :=
  let s1 := modRunning s c (fun l => { l with replayed := 0, phase := 0 })
  match runningLaunch (s.core c) with
  | none => s1
  | some l => match progSlot s l.progId with
    | none => s1
    | some (slot, entry) => enterProgram (loadData s1 c l) c l slot entry

/-- Program commands complete once no COLL core that must still take the change up is left (R227). -/
def settleProg (s : State) : State :=
  if (coresOfComp 4).any (fun c => (s.core c).st == .reloading || (s.core c).st == .swapping) then s
  else s.fw.progWaits.foldl (fun s w => finish s w.1 0 w.2 0) { s with fw := { s.fw with progWaits := [] } }

/-- An active keeper runs. -/
def keeperUp (s : State) (n : Nat) : Bool := lget s.fw.dkUp n false && (s.core (64 + n)).act != .stopped
def activeUp (s : State) : Bool := keeperUp s s.fw.active

/-! ### Replacement in service (R213, R239, R240) -/

/-- The keeper word of a core is written (R213); it is the word a waiting component watches. -/
def keeperWord (s : State) (c v : Nat) : State := localStore s c 0x11FFF8 (natLE 8 v)

/-- The tile of a control core is being shuttered (R531). -/
def tileLeaving (s : State) (c : Nat) : Bool := (mget s.doms (ctlTile c) {}).service == 2

/-- Ask a RUNNING core to drain (R213, Table 6-12). -/
def askDrain (s : State) (c : Nat) : State :=
  (keeperWord s c 1).modCore c (fun k => { k with st := .draining, drainSince := s.vcycle })

/-- A replacement fails: cores already replaced go back in descending order, and REPLACE_FAILED is posted (R240). -/
def replFail (s : State) (c : Nat) : State :=
  match s.fw.repl with
  | none => s
  | some r =>
    if !(r.todo.contains c) then s
    else match r.undoing with
      | some _ => s
      | none =>
        let s1 := postAll s bothPf1 0x1304 r.comp c
        if r.done.isEmpty then { s1 with fw := { s1.fw with repl := none } }
        else { s1 with fw := { s1.fw with repl := some { r with todo := r.done.reverse, done := [], undoing := some c } } }

/-- One core of a replacement has changed image; after the last the component's generation increments and
COMPONENT_REPLACED is posted, or the return to the old image is complete (R240). -/
def replNext (s : State) (c : Nat) : State :=
  match s.fw.repl with
  | none => s
  | some r =>
    if r.todo.head? ≠ some c then s
    else
      let r' : Repl := { r with todo := r.todo.drop 1, done := r.done ++ [c] }
      if !r'.todo.isEmpty then { s with fw := { s.fw with repl := some r' } }
      else
        let clear (s : State) : State := r'.done.foldl (fun s c => s.modCore c (fun k => { k with newImage := false })) s
        match r.undoing with
        | some _ => clear { s with fw := { s.fw with repl := none } }
        | none =>
          let cp := mget s.fw.comps r.comp {}
          let g := (cp.gen + 1) % 2 ^ 16
          postAll (clear { s with fw := { s.fw with repl := none, comps := mset s.fw.comps r.comp { r.new with gen := g } {} } })
            bothPf1 0x1303 r.comp g

/-! ### Stops (R233, R236) -/

def tenSeconds : Nat := 10000 * msCycles

/-- Ring pairs of one core pass to siblings: RUNNING cores of its component outside tiles being shuttered, the one of
fewest ring pairs first (R209); those no core can take stay HELD. Answers the first adopter. -/
def passRings (s : State) (c : Nat) : State × Option Nat :=
  (allOwned s c).foldl (fun (p : State × Option Nat) q =>
    if (p.1.ring q.1 q.2).st == .disabled then p
    else
    let sibs := (coresOfComp (compOf c)).filter (fun d => d != c && (p.1.core d).st == .running && !tileLeaving p.1 d && decide (ringsOwned p.1 d < 256))
    match leastLoaded p.1 sibs with
    | none => p
    | some d =>
      let s1 := unhold (p.1.modRing q.1 q.2 (fun r => { r with owner := d })) q.1 q.2
      let moved := (p.1.core c).mbox.filter (fun m => m.fn == q.1 && m.ring == q.2)
      let s2 := moved.foldl (fun s m => mboxPush s d m) (s1.modCore c (fun k => { k with mbox := k.mbox.filter (fun m => !(m.fn == q.1 && m.ring == q.2)) }))
      (s2, if p.2.isSome then p.2 else some d)) (s, none)

/-- Communicators homed on a core move with their ring pairs (R227, R236). -/
def moveComms (s : State) (c : Nat) : State :=
  { s with fw := { s.fw with comms := s.fw.comms.map (fun p =>
      if p.2.home = c then (p.1, { p.2 with home := (s.ring p.2.own.fn p.2.ring).owner }) else p) } }

/-- A core stops: its locks break, its ring pairs are HELD, and it reloads, or is FAILED at the third stop within 10 s
(Table 6-12). -/
def stopCore (s : State) (c cause : Nat) : State :=
  let k := s.core c
  let near := k.stops.filter (fun t => s.vcycle < t + tenSeconds)
  let failed := k.st == .running && decide (2 ≤ near.length)
  let wasMoving := k.st == .draining || k.st == .swapping
  let s1 := holdAll (breakLocks s c) c
  let s2 := settleProg (s1.modCore c (fun k => { k with act := .stopped, st := if failed then .failed else .reloading, lastCause := cause, stops := near ++ [s.vcycle], heldSince := s.vcycle, newImage := if wasMoving then false else k.newImage, adopted := false }))
  if !wasMoving then s2
  else match s2.fw.repl with
    | some r => if r.undoing.isSome && r.todo.head? == some c then replNext s2 c else replFail s2 c
    | none => s2

/-- Both keepers run or not: a keeper that stops takes no further part, and PF0's ring pairs are HELD while no active
keeper serves them (R210, R237). -/
def stopKeeper (s : State) (n cause : Nat) : State :=
  let s1 := { s with fw := { s.fw with dkUp := lset s.fw.dkUp n false } }
  let s2 := (breakLocks s1 (64 + n)).modCore (64 + n) (fun k => { k with act := .stopped, lastCause := cause })
  if s.fw.active = n then holdAll s2 (64 + n) else s2

/-- The CTL tile or the vestibule reports a stop under R201 (R206, R233). -/
def doCoreStop (c : Nat) (s : State) : State :=
  let k := s.core c
  if k.act ≠ .stopped then s
  else if c < 64 then
    if k.st == .running || k.st == .draining || k.st == .swapping then stopCore s c (fld k.ecause 0 8) else s
  else if c < 66 && lget s.fw.dkUp (c - 64) false then stopKeeper s (c - 64) (fld k.ecause 0 8)
  else s

def execCoreStop (core : Nat) (s : State) : Host.Outcome State Fault Refusal := .next (doCoreStop core s)

/-- Every 250 µs the active keeper reads the alive slack of every core, and each keeper the other's: above 800,000 core
cycles is a missed alive counter (R234, R237). -/
def doAliveSample (s : State) : State :=
  let s1 := advanceTo s ((s.vcycle / (250 * usCycles) + 1) * (250 * usCycles))
  let late (s : State) (c : Nat) : Bool := (s.core c).act != .stopped && decide (800000 < (s.core c).slack + blockedFor s c)
  let s2 := if !activeUp s1 then s1
    else (List.range 64).foldl (fun s c =>
      let k := s.core c
      if (k.st == .running || k.st == .draining || k.st == .swapping) && late s c then stopCore s c 0x40 else s) s1
  [0, 1].foldl (fun s n => if keeperUp s (1 - n) && lget s.fw.dkUp n false && late s (64 + n) then stopKeeper s n 0x40 else s) s2

def execAliveSample (s : State) : Host.Outcome State Fault Refusal := .next (doAliveSample s)

/-- Every launch a core holds ends with a status. -/
def endAllLaunches (s : State) (c status : Nat) : State :=
  ((s.core c).launches).foldl (fun s l => if l.running then endLaunch s c status 0 else endQueued s c l.ref status) s

/-- The image has started and the journal was read (R233, R235): the core runs again with its ring pairs, or, where the
journal cannot be read, with an empty journal and its ring pairs in ERROR. -/
def doReload (c : Nat) (found : Codeword) (s : State) : State :=
  let k := s.core c
  if c ≥ 64 ∨ k.st ≠ .reloading ∨ !activeUp s then s
  else
    let s1 := s.modCore c (fun k => { freshCore s c k with st := .running, restarts := satAdd 8 k.restarts 1 })
    if k.journaled && found == .uncorrectable then
      let s2 := (ownRings s1 c).foldl (fun s q => if (s.ring q.1 q.2).st == .held then ringError s q.1 q.2 else s) s1
      settleProg (endAllLaunches s2 c 0x04)
    else
      let s2 := replayLaunch (unholdAll s1 c) c
      postAll (settleProg s2) bothPf1 0x1301 c (k.lastCause + (s.vcycle - k.heldSince) / usCycles % 2 ^ 16 * 2 ^ 16)

def execCoreReloadComplete (core : Nat) (found : Codeword) (s : State) : Host.Outcome State Fault Refusal :=
  .next (doReload core found s)

/-- Siblings adopt a FAILED core's ring pairs; its launches complete with 0x0B (R236). -/
def doAdoption (c : Nat) (s : State) : State :=
  let k := s.core c
  if c ≥ 64 ∨ k.st ≠ .failed ∨ k.adopted then s
  else
    let s1 := (endAllLaunches s c 0x0B).modCore c (fun k => { k with adopted := true })
    let p := passRings s1 c
    postAll (moveComms p.1 c) bothPf1 0x1302 c (k.lastCause + p.2.getD 0xFF * 2 ^ 8)

def execCoreFailedAdoption (core : Nat) (s : State) : Host.Outcome State Fault Refusal := .next (doAdoption core s)

/-! ### Keepers (R237, R238) -/

/-- PF0's ring pairs pass to the new active keeper, which replays the journal (R210). -/
def takePf0Rings (s : State) (old new : Nat) : State :=
  let rs := ownRings s (64 + old)
  let s1 := rs.foldl (fun s q => s.modRing q.1 q.2 (fun r => { r with owner := 64 + new })) s
  let s2 := bothPf0.foldl (fun s r => s.modRing r 0 (fun q => if q.owner = 64 + old then { q with owner := 64 + new } else q)) s1
  rs.foldl (fun s q => unhold s q.1 q.2)
    (((s.core (64 + old)).mbox.foldl (fun s m => mboxPush s (64 + new) m) s2).modCore (64 + old) (fun k => { k with mbox := [] }))

/-- The active keeper has stopped: the standby becomes active and says so (R237). -/
def doFailover (s : State) : State :=
  let old := s.fw.active
  let new := 1 - old
  if keeperUp s old || !keeperUp s new then s
  else
    let s1 := if lget s.fw.dkUp old false then stopKeeper s old (fld (s.core (64 + old)).ecause 0 8) else s
    let s2 := { s1 with fw := { s1.fw with active := new, failovers := satAdd 8 s1.fw.failovers 1 } }
    postAll (takePf0Rings s2 old new) bothPf1 0x1305 (64 + new) new

def execKeeperFailover (s : State) : Host.Outcome State Fault Refusal := .next (doFailover s)

/-- One of a pair of keepers starts afresh, and kicks the restart timer. -/
def startKeeper (s : State) (n : Nat) : State :=
  { s with fw := { s.fw with dkUp := lset s.fw.dkUp n true, kickAt := s.vcycle } }.modCore (64 + n) (fun k => freshCore s (64 + n) k)

/-- The stopped keeper has been reloaded from the image store and becomes the standby (R237). -/
def doKeeperReload (s : State) : State :=
  let n := 1 - s.fw.active
  if activeUp s && !keeperUp s n then (startKeeper s n).modCore (64 + n) (fun k => { k with restarts := satAdd 8 k.restarts 1 }) else s

def execKeeperReloadComplete (s : State) : Host.Outcome State Fault Refusal := .next (doKeeperReload s)

/-- Neither keeper has kicked the restart timer for 5 ms, whether or not they run: the ROM begins a restart of both (R238). -/
def doRomRestart (s : State) : State :=
  if s.fw.bothDown || !s.power.romDone then s
  else
    let s0 := advanceTo s (s.fw.kickAt + 5 * msCycles)
    let s1 := [0, 1].foldl (fun s n => if lget s.fw.dkUp n false then stopKeeper s n (s.core (64 + n)).lastCause else s) s0
    { s1 with fw := { s1.fw with bothDown := true } }

def execRomKeeperRestart (s : State) : Host.Outcome State Fault Refusal := .next (doRomRestart s)

/-! ### Drains and hand-offs (R213, R233, R239, R531) -/

/-- The keeper asks the core whose turn it is to drain (R239). -/
def doDrainRequest (c : Nat) (s : State) : State :=
  match s.fw.repl with
  | none => s
  | some r => if activeUp s && r.todo.head? == some c && (s.core c).st == .running && decide (c < 64) then askDrain s c else s

def execDrainRequest (core : Nat) (s : State) : Host.Outcome State Fault Refusal := .next (doDrainRequest core s)

/-- A drain request is cancelled: the component acts on it and clears the word, and the core runs on with its old image
(R213, Table 6-12). -/
def doDrainCancel (c : Nat) (s : State) : State :=
  if (s.core c).st == .draining && activeUp s then
    replFail ((keeperWord (keeperWord s c 2) c 0).modCore c (fun k => { k with st := .running })) c
  else s

def execDrainCancel (core : Nat) (s : State) : Host.Outcome State Fault Refusal := .next (doDrainCancel core s)

/-- 100 ms without a hand-off record (Table 6-12). A shutter's own bound is CTL_HANDOFF_TIMEOUT (R531). -/
def doHandoffTimeout (c : Nat) (s : State) : State :=
  let k := s.core c
  if k.st == .draining && !tileLeaving s c then
    replFail ((keeperWord (advanceTo s (k.drainSince + 100 * msCycles)) c 0).modCore c (fun k => { k with st := .running })) c
  else s

def execHandoffTimeout (core : Nat) (s : State) : Host.Outcome State Fault Refusal := .next (doHandoffTimeout core s)

/-- Launches of a core pass with their ring pairs, journal and contexts to the cores that own those now, which replay the
running one (R531). -/
def moveLaunches (s : State) (c : Nat) : State :=
  let s1 := (s.core c).launches.foldl (fun s l =>
    let d := (s.ring l.ref.fn l.ref.ring).owner
    if d = c then s
    else
      let busy := (runningLaunch (s.core d)).isSome
      s.modCore d (fun k => { k with launches := k.launches ++ [{ l with running := l.running && !busy, replayed := 0, phase := 0 }],
                                     journaled := k.journaled || l.running })) s
  match (s.core c).launches.find? (·.running) with
  | none => s1
  | some l =>
    let d := (s1.ring l.ref.fn l.ref.ring).owner
    if d = c then s1
    else
      let k := s1.core c
      let s2 := { s1 with red := { s1.red with
        ctxs := s1.red.ctxs.map (fun (p : Nat × Ctx) => if p.2.core = c then (p.1, { p.2 with core := d }) else p)
        steps := s1.red.steps.map (fun (x : Nat × BitVec 512) => if x.1 = c then (d, x.2) else x)
        claims := s1.red.claims.map (fun (x : Claim) => if x.core = c then { x with core := d } else x) } }
      let s3 := replayLaunch (s2.modCore d (fun x => { x with scq := x.scq ++ k.scq, stepsOut := x.stepsOut + k.stepsOut })) d
      if l.journal.isEmpty then s3 else openJournal s3 d c

/-- A draining core has written its hand-off record, a COLL core at a service call of its launch, and cleared the keeper word:
the keeper stops it, its ring pairs are HELD and the new image is started (R196, R239); at a shutter its ring pairs pass to
siblings and it goes OFF (R531). -/
def doHandoff (c : Nat) (s : State) : State :=
  if (s.core c).st ≠ .draining ∨ c ≥ 64 ∨ atService (s.core c) = false then s
  else
    let s1 := holdAll (breakLocks (keeperWord s c 0) c) c
    if tileLeaving s c then
      let s2 := moveLaunches (moveComms (passRings s1 c).1 c) c
      settleProg (s2.modCore c (fun k => { k with st := .off, act := .stopped, launches := [], scq := [], stepsOut := 0 }))
    else s1.modCore c (fun k => { freshCore s1 c { k with newImage := !k.newImage } with st := .swapping })

def execHandoffRecord (core : Nat) (s : State) : Host.Outcome State Fault Refusal := .next (doHandoff core s)

/-- The new image has adopted the hand-off record: ring pairs ENABLED, the running launch resumed by replay (R239). -/
def doSwapAdopt (c : Nat) (s : State) : State :=
  if (s.core c).st ≠ .swapping then s
  else settleProg (replNext (replayLaunch (unholdAll (s.modCore c (fun k => { k with st := .running })) c) c) c)

def execSwapAdopt (core : Nat) (s : State) : Host.Outcome State Fault Refusal := .next (doSwapAdopt core s)

end Sys2Proof.Machine
end

