-- ==== Sys2Proof/Machine/Collect.lean ====
section
/-!
DEFINITION. Collective programs (06: R216 to R229, R606): the runtime services, program images, communicators and
launches.
-/
namespace Sys2Proof.Machine

/-! ### Calls of runtime services (R220 to R222) -/

/-- What a service call comes to: results with which it returns, an end of the launch, or a wait that goes on. -/
inductive RtRes where
  | done (s : State) (results : List Nat)
  | stop (s : State)
  | wait (s : State)

/-- Every service call advances the core's alive counter (R221). -/
def tellAlive (s : State) (core : Nat) : State := s.modCore core (fun c => { c with alive := (c.alive + 1) % 2 ^ 32, slack := 0 })

/-- The results stand in x0 and up, and the call returns as RET does; a library program whose calls R606 fixes goes on to its
next call. -/
def rtBack (core : Nat) (l : Launch) (results : List Nat) (s : State) : State :=
  let s1 := (tellAlive s core).modCore core (fun c =>
    { c with x := (List.range results.length).foldl (fun (m : NMap (BitVec 64)) i => mset m i (BitVec.ofNat 64 (lget results i 0)) 0#64) c.x })
  if ownCalls l then modRunning s1 core (fun l => { l with phase := l.phase + 1 })
  else match leaveFrame core s1 with
    | none => raiseExc s1 core 0x06 (s1.core core).spillPtr
    | some (s2, n) => s2.modCore core (fun c => addCyc { c with pc := (getR (s1.core core) 23).toNat } n)

/-- A call of service n with `k` arguments in exchange registers: answered from the journal in a replay, else performed
and journaled (R222). `own` gives the arguments of a library program where its next call is this one. -/
def rtCall (core n k : Nat) (own : Comm → Launch → Option (List Nat)) (live : Comm → Launch → List Nat → State → RtRes) (s : State) : State :=
  match runningLaunch (s.core core) with
  | none => s
  | some l =>
    match oget s.fw.comms l.comm with
    | none => s
    | some m =>
      if 64 ≤ core ∨ !canRun s core then s
      else
        let args := if ownCalls l then own m l
          else if (s.core core).pc = rtAddr n then some ((List.range k).map (fun i => (mget (s.core core).x i 0#64).toNat)) else none
        match args with
        | none => s
        | some a =>
          match l.journal[l.replayed]? with
          | some j =>
            let s1 := rtBack core l j.results (modRunning s core (fun l => { l with replayed := l.replayed + 1 }))
            if l.replayed + 1 = l.journal.length then closeJournal s1 core else s1
          | none => match live m l a s with
            | .stop s1 => tellAlive s1 core
            | .wait s1 => s1
            | .done s1 rs =>
              rtBack core l rs (modRunning s1 core (fun l => { l with journal := l.journal ++ [{ service := n, args := a, results := rs }], replayed := l.replayed + 1 }))

/-- The call a launch of a library program makes next is its p-th. -/
def atPhase (l : Launch) (p : Nat) (args : List Nat) : Option (List Nat) := if l.phase = p then some args else none

def allOnes : Nat := 2 ^ 64 - 1

/-- Local ports of a communicator in ascending order; the rank of a port is its place among them (R223). -/
def ranksOf (m : Comm) : List Nat := (List.range 8).filter (bitAt m.localPorts)

/-- Handle and generation of the context that a launch of a library program has opened, as its first rt_reap answered (R151). -/
def openedCtx (l : Launch) : Nat := fld (lget (lget l.journal 1 {}).results 1 0) 0 16

/-- The OPEN step of IN_SWITCH, whose results go to the local ports, and of an in-node sum, whose results go to memory as the
partials of Table 6-4: ACCX in exact mode, FP32 in ranked mode (R216, R606, log 17). -/
def libOpen (m : Comm) (l : Launch) : Nat :=
  let a0 := lget l.args 0 0
  let ranked := l.progId / 0x100 == 1
  let outFmt := if inSwitch l then l.outFmt else if ranked then 0x0 else 0xD
  let ports := if inSwitch l then m.localPorts else 0
  let at_ := if inSwitch l then 0 else Config.libPartial m.stagingBase m.stagingMib (fld a0 16 16) l.elements
  0x01 + 2 ^ 8 + b2n ranked * 2 ^ 9 + l.op % 4 * 2 ^ 10 + b2n l.sat * 2 ^ 14 + epOf l.own.fn % 2 * 2 ^ 15
    + l.inFmt % 16 * 2 ^ 16 + outFmt % 16 * 2 ^ 20 + l.elements % 2 ^ 32 * 2 ^ 64 + fld a0 4 5 * 2 ^ 96 + fld a0 9 5 * 2 ^ 104
    + fld a0 0 4 * 2 ^ 112 + (ranksOf m).length * 2 ^ 192 + ports % 256 * 2 ^ 200 + fld (lget l.args 1 0) 0 14 * 2 ^ 208
    + fld a0 16 16 * 2 ^ 224 + m.stagingBase % 2 ^ 64 * 2 ^ 256 + at_ % 2 ^ 64 * 2 ^ 320

/-- The CLOSE step of a library program. -/
def libClose (l : Launch) : Nat := 0x03 + openedCtx l * 2 ^ 64

/-- 64 bytes of the core's PDM, as a number; none where the address lies elsewhere. -/
def pdm64 (s : State) (core a : Nat) : Option Nat :=
  match place core a 64 with
  | .pdm _ => some (leNat (localRead s core a 64))
  | _ => none

/-- rt_step (R220, R221): the step is posted as R189 has it, its tag the launch's own sequence number. A record that
does not lie in PDM raises the exception of the access, which ends the launch (R189, R224). -/
def rtStepLive (core : Nat) (_ : Comm) (l : Launch) (a : List Nat) (s : State) : RtRes :=
  let at_ := lget a 0 0
  let d? := if ownCalls l then some at_ else if at_ % 64 ≠ 0 then none else pdm64 s core at_
  match d? with
  | none => .stop (endLaunch s core 0x86 (if at_ % 64 ≠ 0 then 0x02 else 0x03))
  | some d =>
    if 64 ≤ (s.core core).stepsOut then .done s [1, 0]
    else
      let tag := l.stepSeq + 1
      let s1 := modRunning s core (fun l => { l with stepSeq := tag })
      .done (postStep s1 core (BitVec.ofNat 512 (setFld d 32 32 tag))) [0, tag]

def doRtStep (core : Nat) (s : State) : State :=
  rtCall core 0 1 (fun m l => if l.phase = 0 then some [libOpen m l] else atPhase l 3 [libClose l]) (rtStepLive core) s

def execRtStep (core : Nat) (s : State) : Host.Outcome State Fault Refusal := .next (doRtStep core s)

/-- What a step completion means for the launch's result (Table 6-7). -/
def absorbStep (w : Nat × Nat) (l : Launch) : Launch :=
  let st := fld w.1 32 8
  if fld w.1 40 8 = 0x01 ∧ st = 0 then { l with opened := l.opened + 1 }
  else if fld w.1 40 8 = 0x03 ∧ (st = 0 ∨ st = 0x0B) then
    { l with flags := Nat.lor l.flags (fld w.2 0 4), missed := Nat.lor l.missed (fld w.2 4 8) }
  else l

/-- A step of a library launch has failed: an OPEN, PULL or CLOSE other than a CLOSE that only missed ports (R224). -/
def libFails (w : Nat × Nat) : Bool :=
  let st := fld w.1 32 8
  let op := fld w.1 40 8
  st != 0 && (op == 1 || op == 2 || op == 3) && !(op == 3 && st == 0x0B && fld w.2 4 8 != 0)

/-- rt_reap: the oldest step completion; without one the call waits, or ends at its timeout (R220). -/
def rtReapLive (core : Nat) (_ : Comm) (l : Launch) (a : List Nat) (s : State) : RtRes :=
  match (s.core core).scq with
  | [] => if lget a 0 0 = 0 then .wait s else .done (advanceTo s (s.vcycle + lget a 0 0 * usCycles)) [allOnes]
  | w :: rest =>
    let s1 := modRunning (s.modCore core (fun c => { c with scq := rest, stepsOut := c.stepsOut - 1 })) core (absorbStep w)
    if isLibrary l.progId && libFails w then .stop (endLaunch s1 core (fld w.1 32 8) 0) else .done s1 [w.1, w.2]

def doRtReap (core : Nat) (s : State) : State :=
  rtCall core 1 1 (fun _ l => if l.phase = 1 then some [0] else atPhase l 4 [0]) (rtReapLive core) s

def execRtReap (core : Nat) (s : State) : Host.Outcome State Fault Refusal := .next (doRtReap core s)

/-- rt_put: a WRITE of staging bytes to a peer's staging area, with the length as immediate where the peer is notified
(R220, R226). -/
def rtPutLive (core : Nat) (m : Comm) (l : Launch) (a : List Nat) (s : State) : RtRes :=
  let node := lget a 0 0
  let len := lget a 3 0
  let peer := lget m.peers node (0, 0, 0)
  if m.nodes ≤ node ∨ node = m.nodeIndex ∨ len % 64 ≠ 0 ∨ 2 ^ 31 < len then .stop (endLaunch s core 0x06 0)
  else match oget s.rdma.qps peer.1 with
    | none => .stop (endLaunch s core 0x09 0)
    | some q =>
      if q.st ≠ .rts then .stop (endLaunch s core 0x09 0)
      else if 2 ^ q.sqLog ≤ q.sends.length then .done s [1]
      else
        let w : SendWr := { op := if bitAt (lget a 4 0) 0 then 0x13 else 0x12, len := len, laddr := lget a 1 0, lkey := m.rkey, rkey := peer.2.1, raddr := (peer.2.2 + lget a 2 0) % 2 ^ 64, imm := len, putFor := some (core, l.ref) }
        let s1 := pumpSends (touchCtx (s.modQp peer.1 (fun q => { q with sends := q.sends ++ [w] })) peer.1) peer.1
        if (runningLaunch (s1.core core)).any (fun x => x.ref == l.ref) then .done s1 [0] else .stop s1

def doRtPut (core : Nat) (s : State) : State := rtCall core 2 5 (fun _ _ => none) (rtPutLive core) s

def execRtPut (core : Nat) (s : State) : Host.Outcome State Fault Refusal := .next (doRtPut core s)

/-- rt_arrived: bytes a node has notified since the launch began; with none yet the call waits for its timeout (R220). -/
def rtArrivedLive (_ : Nat) (m : Comm) (l : Launch) (a : List Nat) (s : State) : RtRes :=
  let n := mget m.arrived (lget a 0 0) 0 - mget l.arrived (lget a 0 0) 0
  if n ≠ 0 then .done s [n]
  else if lget a 1 0 = 0 then .done s [0]
  else .done (advanceTo s (s.vcycle + lget a 1 0 * usCycles)) [allOnes]

def doRtArrived (core : Nat) (s : State) : State := rtCall core 3 2 (fun _ _ => none) (rtArrivedLive core) s

def execRtArrived (core : Nat) (s : State) : Host.Outcome State Fault Refusal := .next (doRtArrived core s)

/-- An address of rt_move: an offset in the staging area, or port, window and offset (R221). -/
def moveAt (m : Comm) (a n : Nat) : Option (Nat ⊕ (Nat × Nat × Nat)) :=
  if fld a 62 2 = 0 then (if a + n ≤ m.stagingMib * 2 ^ 20 then some (.inl (m.stagingBase + a)) else none)
  else if fld a 62 2 = 1 ∧ fld a 48 7 = 0 then some (.inr (fld a 59 3, fld a 55 4, fld a 0 48)) else none

/-- Bytes a move reads, with a status; MOV0 moves them (R221). -/
def moveRead (s : State) (src : Nat ⊕ (Nat × Nat × Nat)) (n : Nat) (ext : ARead) : State × Nat × List Byte :=
  match src with
  | .inl a => engineRead s 8 a n
  | .inr (p, w, off) =>
    match targetAddr s p w off n false with
    | none => (s, 0x02, [])
    | some a =>
      if !portUp (s.port p) then (s, 0x0B, [])
      else match ext with
        | .ok bs => (engineRead_ s p a n, 0, fitB bs n)
        | .bad st => (engineRead_ s p a n, st, [])

def moveWrite (s : State) (dst : Nat ⊕ (Nat × Nat × Nat)) (bs : List Byte) : State × Nat :=
  match dst with
  | .inl a => engineWrite s 8 a bs
  | .inr (p, w, off) =>
    match targetAddr s p w off bs.length true with
    | none => (s, 0x02)
    | some a => if portUp (s.port p) then (engineWrites s p 3 .record a bs, 0) else (s, 0x0B)

/-- rt_move: a copy between staging area and target windows (R220, R221). -/
def rtMoveLive (_ : Nat) (ext : ARead) (m : Comm) (_ : Launch) (a : List Nat) (s : State) : RtRes :=
  let n := lget a 2 0
  if n % 64 ≠ 0 then .done s [0x06]
  else match moveAt m (lget a 0 0) n, moveAt m (lget a 1 0) n with
    | some src, some dst =>
      if n = 0 then .done s [0]
      else
        let r := moveRead s src n ext
        if r.2.1 ≠ 0 then .done r.1 [r.2.1]
        else
          let w := moveWrite r.1 dst r.2.2
          .done w.1 [w.2]
    | _, _ => .done s [0x06]

def doRtMove (core : Nat) (ext : ARead) (s : State) : State := rtCall core 4 3 (fun _ _ => none) (rtMoveLive core ext) s

def execRtMove (core : Nat) (ext : ARead) (s : State) : Host.Outcome State Fault Refusal := .next (doRtMove core ext s)

/-- The library's notify record (R223). -/
def libRecord (l : Launch) : Nat := openedCtx l + l.comm % 2 ^ 16 * 2 ^ 16 + l.seqNo % 2 ^ 32 * 2 ^ 64

/-- Copies of a notify record to the local ports in ascending order, each with its port's rank, until one fails: the
status it fails with (R223, R224). -/
def notifyPorts (l : Launch) (rec_ : Nat) : State → Nat → List Nat → State × Nat
  | s, _, [] => (s, 0)
  | s, k, p :: rest =>
    match targetAddr s p l.notifyWin l.notifyOff 64 true with
    | none => (s, 0x02)
    | some a =>
      if portUp (s.port p) then notifyPorts l rec_ (engineWrites s p 3 .record a (natLE 64 (setFld rec_ 32 8 k))) (k + 1) rest
      else (s, 0x0B)

/-- rt_notify (R223, R224). -/
def rtNotifyLive (core : Nat) (m : Comm) (l : Launch) (a : List Nat) (s : State) : RtRes :=
  match (if ownCalls l then some (lget a 0 0) else pdm64 s core (lget a 0 0)) with
  | none => .stop (endLaunch s core 0x86 0x03)
  | some r =>
    match notifyPorts l r s 0 (ranksOf m) with
    | (s1, 0) => .done s1 []
    | (s1, st) => .stop (endLaunch s1 core st 0)

def doRtNotify (core : Nat) (s : State) : State :=
  rtCall core 5 1 (fun _ l => atPhase l 2 [libRecord l]) (rtNotifyLive core) s

def execRtNotify (core : Nat) (s : State) : Host.Outcome State Fault Refusal := .next (doRtNotify core s)

/-- rt_finish: step completions not yet reaped still count for the result; the launch completes with the status
passed (R220, R224). -/
def rtFinishLive (core : Nat) (_ : Comm) (_ : Launch) (a : List Nat) (s : State) : RtRes :=
  let s1 := modRunning s core (fun l => (s.core core).scq.foldl (fun l w => absorbStep w l) l)
  let st := lget a 0 0 % 256
  match runningLaunch (s1.core core) with
  | none => .stop s
  | some l => .stop (endLaunch s1 core st (if st = 0 then launchResult l else 0))

def doRtFinish (core : Nat) (s : State) : State :=
  rtCall core 6 1 (fun _ l => atPhase l 5 [0]) (rtFinishLive core) s

def execRtFinish (core : Nat) (s : State) : Host.Outcome State Fault Refusal := .next (doRtFinish core s)

/-- rt_yield returns after advancing the alive counter (R220, R221). -/
def doRtYield (core : Nat) (s : State) : State := rtCall core 7 0 (fun _ _ => none) (fun _ _ _ s => .done s []) s

def execRtYield (core : Nat) (s : State) : Host.Outcome State Fault Refusal := .next (doRtYield core s)

/-! ### Programs (R218, R219, R227) -/

/-- Fields of an image header in their ranges (Table 6-5). -/
def headerOk (h bytes : Nat) : Bool :=
  let code := fld h 80 16
  let data := fld h 96 16
  fld h 0 32 == 0x09600C0B && fld h 32 8 == 1 && fld h 40 8 == 0 && decide (0x1000 ≤ fld h 48 16) && decide (fld h 48 16 ≤ 0x1FFF)
  && fld h 65 15 == 0 && decide (4 ≤ code) && decide (code ≤ 16384) && code % 4 == 0 && decide (data ≤ 16384) && fld h 112 16 == 0
  && fld h 128 32 % 4 == 0 && decide (fld h 128 32 < code) && fld h 160 32 == 256 + code + data && fld h 160 32 + fld h 192 32 == bytes
  && fld h 224 1824 == 0

/-- The code holds a word of an opcode that a program may not use (R219). -/
def bannedWord (w : Nat) : Bool := [0x30, 0x31, 0x32, 0x33, 0x37].contains (w / 2 ^ 26 % 64)

def codeBanned : Nat → List Byte → Bool
  | 0, _ => false
  | k + 1, bs => if bs.isEmpty then false else bannedWord (leNat (bs.take 4)) || codeBanned k (bs.drop 4)

/-- COLL cores hold the code of a slot in their IM (R220). -/
def writeSlot (s : State) (slot : Nat) (code : List Byte) : State :=
  (coresOfComp 4).foldl (fun s c => s.modCore c (fun k =>
    { k with im := writeMapB k.im (0x10000 + 0x4000 * slot) (code ++ List.replicate (0x4000 - code.length) 0#8) })) s

/-- A program command completes when every COLL core has taken the change up (R227). -/
def progDone (s : State) (ref : DRef) (result : Nat) : CmdRes :=
  if (coresOfComp 4).any (fun c => (s.core c).st == .reloading || (s.core c).st == .swapping) then
    later { s with fw := { s.fw with progWaits := s.fw.progWaits ++ [(ref, result)] } }
  else okR s result

/-- PROG_LOAD (R218, R219, R225, R227). -/
def progLoad (r d : Nat) (ref : DRef) (read : HRead) (s : State) : CmdRes :=
  let bytes := fld d 128 32
  if isVf r then bad s 0x0E
  else if fld d 64 64 % 64 ≠ 0 ∨ bytes < 256 ∨ 2 ^ 20 < bytes then bad s 0x06
  else
    let rd := rdHost s r bytes read
    let h := leNat (rd.2.take 256)
    let code := sliceB rd.2 256 (fld h 80 16)
    let id := fld h 48 16
    if rd.1 ≠ 0 then bad s rd.1
    else if !headerOk h bytes || codeBanned (code.length / 4) code then bad s 0x06
    else if !s.trust.installer.any (fun k => hssVerify k.pub (rd.2.drop (fld h 160 32)) (rd.2.take (fld h 160 32))) then bad s 0x80
    else if s.fw.slots.any (fun p => p.2.progId == id) then bad s 0x81
    else match lowestFree s.fw.slots 5 12 with
      | none => bad s 0x07
      | some n =>
        let x : Slot := { progId := id, ranked := bitAt h 64, entry := fld h 128 32, code := code, data := sliceB rd.2 (256 + fld h 80 16) (fld h 96 16) }
        audited s 0x0300 r (0x13 + id * 2 ^ 16) (fun s => progDone (writeSlot { s with fw := { s.fw with slots := oput s.fw.slots n x } } n code) ref (id + n * 2 ^ 16))

def execProgLoad (fn ring : Nat) (image : HRead) (s : State) : Host.Outcome State Fault Refusal :=
  .next (onDesc s fn ring 0x13 0x01 (fun d ref s => progLoad fn d ref image s))

/-- Communicators that use a program. -/
def progUsers (s : State) (id : Nat) : Nat := (s.fw.comms.filter (fun p => p.2.progId == id)).length

/-- PROG_UNLOAD (R216, R225, R227, R229): a library program cannot be unloaded. -/
def progUnload (r d : Nat) (ref : DRef) (s : State) : CmdRes :=
  let id := fld d 64 16
  if isVf r then bad s 0x0E
  else if isLibrary id then bad s 0x06
  else match s.fw.slots.find? (fun p => p.2.progId == id) with
    | none => bad s 0x83
    | some (n, _) =>
      exclusive s r 0x13 id 1 (fun s =>
        if progUsers s id ≠ 0 then bad s 0x82
        else progDone (writeSlot { s with fw := { s.fw with slots := odel s.fw.slots n } } n []) ref 0)

def execProgUnload (fn ring : Nat) (s : State) : Host.Outcome State Fault Refusal :=
  .next (inRankOrder fn ring (fun s => onDesc s fn ring 0x13 0x02 (fun d ref s => progUnload fn d ref s)) s)

/-! ### Communicators (R216, R226, R227) -/

/-- Node counts a program takes (Table 6-4). -/
def nodesOk (id n : Nat) : Bool :=
  let k := if isLibrary id then id % 0x100 else 0
  decide (1 ≤ n) && decide (n ≤ 1024)
  && (if k = 1 then n == 1 else if k = 2 ∨ k = 3 then decide (2 ≤ n) else if k = 4 then decide (2 ≤ n) && decide (n ≤ 64) else true)

/-- Stack ranges in use that a staging area must keep clear of, as address and bytes (R227). -/
def stackInUse (s : State) : List (Nat × Nat) :=
  (if s.kv.committed then (s.kv.pools.filter (fun p => p.2.kind == 1)).map (fun p => (fld p.2.base 0 62, p.2.slots * p.2.slot4k * 4096)) else [])
  ++ (if s.sto.committed then (List.range 8).map (fun n => (mget s.sto.bases n 0 * 2 ^ 21, mget s.sto.sizes n 0 * 2 ^ 20)) else [])
  ++ s.ck.flatMap (fun p => if p.2.committed then
      (p.2.capBase * granuleBytes, p.2.capSize * granuleBytes) :: (List.range 8).map (fun n => (mget p.2.cowBase n 0 * granuleBytes, mget p.2.cowSize n 0 * granuleBytes))
      else [])
  ++ (s.sto.backends.filter (fun p => !p.2.remote)).map (fun p => (p.2.base, p.2.blocks * 4096))
  ++ (s.rdma.mrs.filter (fun p => !p.2.host && !p.2.staging)).map (fun p => (p.2.base, p.2.length))
  ++ s.fw.comms.map (fun p => (p.2.stagingBase, p.2.stagingMib * 2 ^ 20))

def roundUp (a n : Nat) : Nat := (a + n - 1) / n * n

/-- First fit within one stack: the lowest 2 MiB-aligned address above the reserved area with `bytes` clear of the
ranges in use. It is the end of the reserved area or of a range. -/
def fitInStack (s : State) (used : List (Nat × Nat)) (n bytes : Nat) : Option Nat :=
  let lo := n * 2 ^ 36 + 0x27200000
  let hi := n * 2 ^ 36 + (s.stk n).mapped * 2 ^ 21
  let cands := sortNat (lo :: (used.map (fun u => roundUp (u.1 + u.2) (2 ^ 21))))
  cands.find? (fun a => decide (lo ≤ a) && decide (a + bytes ≤ hi) && !used.any (fun u => overlap a bytes u.1 u.2))

/-- Place of a staging area in the stacks of a core's die (R227). -/
def placeStaging (s : State) (core bytes : Nat) : Option Nat :=
  let used := stackInUse s
  (if core < 32 then [0, 1, 2, 3] else [4, 5, 6, 7]).findSome? (fun n => fitInStack s used n bytes)

/-- COMM_CREATE (R225, R227, R229). -/
def commCreate (r i d : Nat) (s : State) : CmdRes :=
  let id := fld d 64 16
  let nodes := fld d 80 16
  let mib := fld d 128 16
  let ports := fld d 112 8
  let home := (s.ring r i).owner
  if (progSlot s id).isNone then bad s 0x83
  else if !nodesOk id nodes ∨ nodes ≤ fld d 96 16 ∨ ports = 0 ∨ mib < 1 ∨ 4096 < mib then bad s 0x06
  else exclusive s r 0x13 id 2 (fun s =>
    match lowestFree s.fw.comms 0 1024, placeStaging s home (mib * 2 ^ 20), lowestFree s.rdma.mrs 0 (2 ^ 20) with
    | some c, some base, some x =>
      let g := (mget s.rdma.mrGen x 0 + 1) % 256
      let key := g + x * 256
      let m : Mr := { own := s.ownOf r, pd := 65536, gen := g, access := 0b0111, length := mib * 2 ^ 20, base := base, staging := true }
      let k : Comm := { own := s.ownOf r, ring := i, home := home, progId := id, nodes := nodes, nodeIndex := fld d 96 16, localPorts := ports, stagingMib := mib, stagingBase := base, rkey := key, connected := nodes == 1 }
      let s1 := s.modRdma (fun y => { y with mrs := oput y.mrs x m, mrGen := mset y.mrGen x g 0 })
      okR { s1 with fw := { s1.fw with comms := oput s1.fw.comms c k } } (c + home % 128 * 2 ^ 16 + key * 2 ^ 32)
    | _, _, _ => bad s 0x07)

def execCommCreate (fn ring : Nat) (s : State) : Host.Outcome State Fault Refusal :=
  .next (inRankOrder fn ring (fun s => onDesc s fn ring 0x13 0x03 (fun d _ s => commCreate fn ring d s)) s)

/-- A command on a communicator: 0x84 where the function has none of that number, 0x85 where another ring pair of the
function created it (R229). -/
def withComm (s : State) (r i c : Nat) (act : Comm → CmdRes) : CmdRes :=
  match oget s.fw.comms c with
  | none => bad s 0x84
  | some m => if !owns s r m.own then bad s 0x84 else if m.ring ≠ i then bad s 0x85 else act m

/-- COMM_CONNECT (R226, R332). -/
def commConnect (r i d : Nat) (read : HRead) (s : State) : CmdRes :=
  let c := fld d 64 16
  withComm s r i c (fun m =>
    let rd := rdHost s r (16 * m.nodes) read
    let entry (k : Nat) : Nat := leNat (sliceB rd.2 (16 * k) 16)
    let others := (List.range m.nodes).filter (fun k => k != m.nodeIndex)
    let qs := others.map (fun k => fld (entry k) 0 32)
    let peers := (List.range m.nodes).map (fun k => (fld (entry k) 0 32, fld (entry k) 32 32, fld (entry k) 64 64))
    if rd.1 ≠ 0 then bad s rd.1
    else if entry m.nodeIndex ≠ 0 then bad s 0x06
    else if qs.any (fun n => match oget s.rdma.qps n with
        | some q => !(owns s r q.own && q.type == 0 && q.st == .rts && (q.bound.isNone || q.bound == some c))
        | none => true) then bad s 0x02
    else if tooManyBound s qs then bad s 0x07
    else
      let s1 := bindQps (unbindMark s c) qs c
      ok0 { s1 with fw := { s1.fw with comms := omod s1.fw.comms c (fun m => { m with connected := true, peers := peers }) } })

def execCommConnect (fn ring : Nat) (peers : HRead) (s : State) : Host.Outcome State Fault Refusal :=
  .next (onDesc s fn ring 0x13 0x04 (fun d _ s => commConnect fn ring d peers s))

/-- Launches queued or running, with their cores. -/
def allLaunches (s : State) : List (Nat × Launch) :=
  s.cores.flatMap (fun p => p.2.launches.map (fun l => (p.1, l)))

/-- A communicator goes: its queue pairs are unbound, its staging area and key freed (R226, R227). -/
def dropComm (s : State) (c : Nat) (m : Comm) : State :=
  let s1 := (unbindMark s c).modRdma (fun x => { x with mrs := odel x.mrs (fld m.rkey 8 20) })
  { s1 with fw := { s1.fw with comms := odel s1.fw.comms c } }

/-- COMM_DESTROY (R226, R227, R229). -/
def commDestroy (r i d : Nat) (s : State) : CmdRes :=
  let c := fld d 64 16
  withComm s r i c (fun m => if (allLaunches s).any (fun l => l.2.comm == c) then bad s 0x82 else ok0 (dropComm s c m))

def execCommDestroy (fn ring : Nat) (s : State) : Host.Outcome State Fault Refusal :=
  .next (onDesc s fn ring 0x13 0x05 (fun d _ s => commDestroy fn ring d s))

/-! ### Launches (R217, R220, R223, R224, R228, R229) -/

/-- Field ranges of COLL_LAUNCH (Table 6-8). -/
def launchFieldsOk (d : Nat) : Bool :=
  let el := fld d 128 32
  fld d 80 2 != 3 && decide (fld d 84 4 < 0xE) && decide (fld d 88 4 < 0xE) && fld d 96 32 % 64 == 0 && decide (32 ≤ el) && el % 32 == 0

/-- COLL_LAUNCH (R223, R229): it is queued on the home core and completes when it ends. -/
def collLaunch (r i d : Nat) (ref : DRef) (s : State) : CmdRes :=
  let c := fld d 64 16
  withComm s r i c (fun m =>
    if !launchFieldsOk d then bad s 0x06
    else if !m.connected then bad s 0x87
    else
      let n := if m.launchSeq + 1 = 2 ^ 32 then 1 else m.launchSeq + 1
      let args := (List.range 4).map (fun k => fld d (256 + 64 * k) 64)
      let l : Launch := { ref := ref, own := s.ownOf r, tag := userTag d, comm := c, progId := m.progId, op := fld d 80 2, sat := bitAt d 82, inFmt := fld d 84 4, outFmt := fld d 88 4, notifyWin := fld d 92 4, notifyOff := fld d 96 32, elements := fld d 128 32, args := args, entryX := args ++ [fld d 128 32, fld d 80 12, m.nodes + m.nodeIndex * 2 ^ 16, m.localPorts], seqNo := n }
      let s1 := { s with fw := { s.fw with comms := omod s.fw.comms c (fun m => { m with launchSeq := n }) } }
      later (s1.modCore m.home (fun k => { k with launches := k.launches ++ [l] })))

def execCollLaunch (fn ring : Nat) (s : State) : Host.Outcome State Fault Refusal :=
  .next (onDesc s fn ring 0x13 0x06 (fun d ref s => collLaunch fn ring d ref s))

/-- Arguments that a library program takes (R217, R606). -/
def libArgsOk (m : Comm) (l : Launch) : Bool :=
  let a0 := lget l.args 0 0
  let a1 := lget l.args 1 0
  let ranked := l.progId / 0x100 == 1
  let rb := fld a1 0 14
  if l.progId % 0x100 = 5 then a0 % 64 == 0
  else
    decide (1 ≤ fld a0 0 4) && decide (fld a0 0 4 ≤ 12) && decide (10 ≤ fld a0 4 5) && decide (fld a0 4 5 ≤ 16)
    && decide (1 ≤ fld a0 9 5) && decide (fld a0 9 5 ≤ 16) && fld a0 14 2 == 0 && a0 / 2 ^ 32 == 0 && a1 / 2 ^ 14 == 0
    && lget l.args 2 0 == 0 && lget l.args 3 0 == 0 && decide (fld a0 16 16 ≤ m.stagingMib)
    && (if ranked && decide (2 ≤ (ranksOf m).length) then decide (64 ≤ rb) && decide (rb ≤ 8192) else rb == 0)

/-- The oldest queued launch of a core that runs none enters its program (R220). -/
def doLaunchStart (core : Nat) (s : State) : State :=
  let k := s.core core
  if !canRun s core ∨ compOf core ≠ 4 ∨ (runningLaunch k).isSome then s
  else match k.launches with
    | [] => s
    | l :: rest =>
      match oget s.fw.comms l.comm, progSlot s l.progId with
      | some m, some (slot, entry) =>
        let l1 := { l with running := true, arrived := m.arrived }
        let s1 := s.modCore core (fun k => { k with launches := l1 :: rest })
        if isLibrary l.progId && !libArgsOk m l then endLaunch s1 core 0x06 0
        else enterProgram (loadData s1 core l) core l1 slot entry
      | _, _ => s

def execLaunchStart (core : Nat) (s : State) : Host.Outcome State Fault Refusal := .next (doLaunchStart core s)

/-- The launch that was posted first. -/
def firstPosted : List (Nat × Launch) → Option (Nat × Launch)
  | [] => none
  | l :: rest => match firstPosted rest with
    | none => some l
    | some m => if m.2.ref.seq < l.2.ref.seq then some m else some l

/-- A COLL_LAUNCH that was fetched and has not started, of the tag: the ring pair's oldest. -/
def fetchedLaunch (s : State) (r i tag : Nat) : Option Fetched :=
  (s.ring r i).fetched.find? (fun e => !e.started && e.res.isNone && e.gen == (s.fn r).gen && fld e.desc.toNat 0 8 == 0x06 && userTag e.desc.toNat == tag)

/-- COLL_ABORT: its completion comes before that of the launch it ends, the oldest of its tag that has not completed (R228). -/
def collAbort (r i d : Nat) (ref : DRef) (s : State) : CmdRes :=
  let s0 := unorder s ref
  withComm s0 r i (fld d 64 16) (fun _ =>
    match firstPosted ((allLaunches s0).filter (fun l => l.2.ref.fn == r && l.2.ref.ring == i && l.2.own == s.ownOf r && l.2.tag == fld d 96 32)) with
    | none => match fetchedLaunch s0 r i (fld d 96 32) with
      | none => okR s0 0
      | some e => later (finish (finish s0 ref 0 1 0) { fn := r, ring := i, seq := e.seq } 0x08 0 0)
    | some (c, l) =>
      let s1 := finish s0 ref 0 1 0
      later (if l.running then endLaunch s1 c 0x08 0 else endQueued s1 c l.ref 0x08))

def execCollAbort (fn ring : Nat) (s : State) : Host.Outcome State Fault Refusal :=
  .next (onFetched s fn ring 0x13 0x07 (fun d ref s => collAbort fn ring d ref s))

end Sys2Proof.Machine
end

