-- ==== Sys2Proof/Machine/Retire.lean ====
section
/-!
DEFINITION. Ends of channel retrains and bandwidth windows, and retiring channel groups of a stack (15: R503 to R506, R509,
R511). Bytes stand in State by logical address, so a
frame that moves changes its table entry, and the lines its copy could not correct are listed as lost.
-/
namespace Sys2Proof.Machine

/-- A retrain ends: trained again, or, after three failures in a row, FAILED; accesses that waited go on (R503). -/
def doRetrainComplete (n c : Nat) (trained : Bool) (s : State) : State :=
  let ch := (s.stk n).chan c
  if !ch.lost ∨ ch.failed then s
  else if trained then wakeStores (s.modStk n (fun k => k.modChan c (fun ch => { ch with lost := false, failedRetrains := 0 })))
  else if ch.failedRetrains + 1 < 3 then
    s.modStk n (fun k => k.modChan c (fun ch => { ch with failedRetrains := ch.failedRetrains + 1 }))
  else
    wakeStores ((bothPf0 ++ bothPf1).foldl (fun s r => postEventS s r 0x4003 n 0x04 c 0)
      (s.modStk n (fun k => k.modChan c (fun ch => { ch with lost := false, failedRetrains := 3, failed := true }))))

def execChannelRetrainComplete (stack chan : Nat) (trained : Bool) (s : State) : Host.Outcome State Fault Refusal :=
  .next (doRetrainComplete stack chan trained s)

/-- A new window of 1 µs begins: every tile kind's share of the stack's channel time is open again, and accesses that waited go
on (R509). -/
def doCapWindow (n : Nat) (s : State) : State :=
  wakeStores ((advanceTo s ((s.vcycle / usCycles + 1) * usCycles)).modStk n (fun k => { k with capUse := [] }))

def execMemCapWindow (stack : Nat) (s : State) : Host.Outcome State Fault Refusal := .next (doCapWindow stack s)

/-! ### Retirement (R504 to R506, R511) -/

/-- Groups in service. -/
def groupsLeft (k : Stk) : Nat := ((List.range 16).filter (fun g => !bitAt k.retiredMask g)).length

/-- The first address in use in a range, if any (R506). -/
def firstInUse (s : State) (a n : Nat) : Option Nat :=
  (sortNat (((stackInUse s).filter (fun u => overlap a n u.1 u.2)).map (fun u => max a u.1))).head?

/-- A group that is retired holds no FAILED channel any more (R503). -/
def retireChans (k : Stk) (g : Nat) : Stk :=
  (List.range 8).foldl (fun k c => k.modChan (8 * g + c) (fun ch => { ch with failed := false, lost := false, failedRetrains := 0 })) k

/-- A retirement has no frame left to move: the group is retired (R504, R511). -/
def endRetire (s : State) (n : Nat) : State :=
  match (s.stk n).retire with
  | none => s
  | some r =>
    if !r.running || !r.todo.isEmpty then s
    else finish (s.modStk n (fun k => retireChans { k with retire := none, retiredMask := Nat.lor k.retiredMask (2 ^ r.group) } r.group)) r.ref 0
      (r.moved % 2 ^ 32 + r.added % 2 ^ 16 * 2 ^ 32) 0

/-- The highest mapped frames are unmapped; the frames of the group that still map move, in ascending order, to the
physical frames freed in other groups (R504; DESIGN CHOICE on the order, log 18). -/
def startRetire (s : State) (n g : Nat) (ref : DRef) : State :=
  let k := s.stk n
  let left := k.mapped - 2048
  let free := ((List.range 2048).map (fun i => frameMap k (left + i))).filter (fun p => p.1 != g)
  let todo := (List.range left).filter (fun f => (frameMap k f).1 == g)
  endRetire (s.modStk n (fun k => { k with mapped := left, retire := some { group := g, ref := ref, todo := todo, free := free } })) n

/-- A group's retirement starts, resumes or is refused (R504, R506, R511). -/
def retireGroup (n g : Nat) (ref : DRef) (s : State) : CmdRes :=
  let k := s.stk n
  if !domOn s (stackDom n) then bad s 0x0B
  else if bitAt k.retiredMask g then bad s 0x80
  else match k.retire with
    | some r =>
      if r.running ∨ r.group ≠ g then bad s 0x82
      else later (endRetire (s.modStk n (fun k => { k with retire := some { r with ref := ref, running := true, moved := 0, added := 0 } })) n)
    | none =>
      if groupsLeft k ≤ 8 then bad s 0x07
      else match firstInUse s (n * 2 ^ 36 + (k.mapped - 2048) * 2 ^ 21) (2048 * 2 ^ 21) with
        | some a => badR s 0x81 a
        | none => later (startRetire s n g ref)

/-- GROUP_RETIRE; retirements of different groups of one stack contradict one another (R66, R504). -/
def groupRetire (r d : Nat) (ref : DRef) (s : State) : CmdRes :=
  exclusive s r 0x40 (fld d 64 3) (fld d 67 4) (retireGroup (fld d 64 3) (fld d 67 4) ref)

def execGroupRetire (fn ring : Nat) (s : State) : Host.Outcome State Fault Refusal :=
  .next (inRankOrder fn ring (fun s => onDesc s fn ring 0x40 0x01 (fun d ref s => groupRetire fn d ref s)) s)

/-- Lines of a frame that its copy cannot correct and that the lost-line list does not hold yet: those of FAILED channels
and those the copy found, as numbers within the frame. -/
def newlyLost (s : State) (n f : Nat) (lines : List Nat) : List Nat :=
  let base := n * 2 ^ 36 + f * 2 ^ 21
  ((List.range 32768).filter (fun i =>
    let a := base + 64 * i
    !(s.stk n).lost.contains a && (lines.contains i || ((s.stk n).chan (chanOf s a)).failed))).map (fun i => base + 64 * i)

/-- A frame copy ends: its table entry changes, lines that could not be corrected are listed, and stores that waited go
on; a list that would hold more than 4,096 lines stops the retirement with the frame where it was (R504 to R506). -/
def doFrameCopy (n : Nat) (lines : List Nat) (s : State) : State :=
  match (s.stk n).retire with
  | none => s
  | some r =>
    match r.running, r.todo, r.free with
    | true, f :: todo, p :: free =>
      let lost := newlyLost s n f lines
      if 4096 < (s.stk n).lost.length + lost.length then
        wakeStores (finish (s.modStk n (fun k => { k with retire := some { r with running := false } })) r.ref 0x07
          (r.moved % 2 ^ 32 + r.added % 2 ^ 16 * 2 ^ 32) 0)
      else
        wakeStores (endRetire (s.modStk n (fun k => { k with
          frames := mset k.frames f (2048 * p.1 + p.2) (2048 * (f % 16) + f / 16)
          lost := k.lost ++ lost
          retire := some { r with todo := todo, free := free, moved := r.moved + 1, added := r.added + lost.length } })) n)
    | _, _, _ => s

def execFrameCopyComplete (stack : Nat) (lines : List Nat) (s : State) : Host.Outcome State Fault Refusal :=
  .next (doFrameCopy stack lines s)

/-- LOST_LIST_READ (R511). -/
def lostListRead (r d : Nat) (s : State) : CmdRes :=
  let n := fld d 64 3
  let addr := fld d 128 64
  let cnt := fld d 192 16
  if addr % 64 ≠ 0 ∨ cnt < 1 ∨ 4096 < cnt then bad s 0x06
  else
    let ls := (s.stk n).lost.take cnt
    okR (if ls.isEmpty then s else hostWrite s r addr (ls.flatMap (natLE 8))) ls.length

def execLostListRead (fn ring : Nat) (s : State) : Host.Outcome State Fault Refusal :=
  .next (onDesc s fn ring 0x40 0x02 (fun d _ s => lostListRead fn d s))

end Sys2Proof.Machine
end

