-- ==== Sys2Proof/Machine/Ring.lean ====
section
/-!
DEFINITION. The ring contract (02): the ring directory and its actions, doorbells, the event ring set, the host lease,
NOP and interrupt moderation. Fetching descriptors stands in Machine/Fetch.lean, expiry of the lease in
Machine/Lifecycle.lean.
-/
namespace Sys2Proof.Machine

/-- Most ring pairs of a function (Table 2-3), within a VF's quota (R486). -/
def maxRings (s : State) (r : Nat) : Nat :=
  if isPf0 r then 8 else if isPf1 r then 256 else if isVf1 r then min 16 (fld (s.fn r).quotaA.toNat 0 5) else 0

/-- Ring kinds a function presents: kinds of blocks that define rings (R36, Table 2-2). -/
def ringKinds (r : Nat) : List Nat :=
  if isPf0 r then [0x24, 0x41, 0x42, 0x44]
  else if isPf1 r then [0x13, 0x14, 0x15, 0x20, 0x21, 0x22, 0x23, 0x24, 0x30, 0x40, 0x41, 0x44, 0x50, 0x60]
  else if isVf1 r then [0x13, 0x14, 0x20, 0x23] else []

/-- Fields of a directory entry of 64 bytes (Table 2-4). -/
def parseEntry (bs : List Byte) : DirEntry :=
  let d := leNat bs
  { sqBase := fld d 0 64, cqBase := fld d 64 64, headWb := fld d 128 64, kind := fld d 192 8, sqOrder := fld d 200 8,
    cqOrder := fld d 208 8, enable := bitAt d 216, cqIrq := bitAt d 217, cqVector := fld d 224 11,
    moderationUs := fld d 240 10 }

/-- Validation of entry `i` (R36, R37, R38, R40, R57, R482). -/
def entryOk (s : State) (r i : Nat) (bs : List Byte) : Bool :=
  let d := leNat bs
  let e := parseEntry bs
  if bs.length ≠ 64 then false
  else if i = 0 then d == 0x03 * 2 ^ 192
  else
    fld d 218 6 == 0 && fld d 235 5 == 0 && fld d 250 262 == 0
    && (ringKinds r).contains e.kind
    && e.sqBase % 4096 == 0 && e.cqBase % 4096 == 0 && e.headWb % 8 == 0
    && decide (6 ≤ e.sqOrder) && decide (e.sqOrder ≤ 16) && decide (e.sqOrder ≤ e.cqOrder) && decide (e.cqOrder ≤ 16)
    && decide (e.cqVector < vectorsOf r)
    && ((s.ring r i).st != .orphaned || (s.ring r i).ent.kind == e.kind)

/-- Load one entry into a ring pair that is not ORPHANED: it starts at indices 0 and phase 1, ENABLED under its owning
core when its entry says so; `none` when no core can own it (R39, R43, R209). -/
def loadRing (s : State) (r i : Nat) (e : DirEntry) : Option State :=
  if i = 0 ∨ (s.ring r i).st = .orphaned then some s
  else
    let base : Ring := { ent := e, fetchNo := (s.ring r i).fetchNo,
                         fetched := (s.ring r i).fetched.filter (fun x => x.gen != (s.fn r).gen) }
    if e.enable then
      match pickOwner s r e.kind with
      | none => none
      | some c => some (armLease (s.modRing r i (fun _ => { base with st := .enabled, owner := c })) r)
    else some (s.modRing r i (fun _ => { base with st := .disabled }))

/-- Load entries from index `i` on. -/
def loadAll : State → Nat → Nat → List DirEntry → Option State
  | s, _, _, [] => some s
  | s, r, i, e :: rest => match loadRing s r i e with
    | none => none
    | some s' => loadAll s' r (i + 1) rest

/-- A directory action ends with a status (R42). -/
def endDir (s : State) (r status badIx : Nat) : State :=
  s.modFn r (fun f => { f with dirBusy := false, dirStatus := status, dirBad := badIx, dirAct := none })

/-- Where an action may start: none is in progress; in DRAINING every action reports 0x0B (R42, R479). -/
def startDir (s : State) (r : Nat) (act : State → State) : State :=
  if !(present s r && hasRings r) || (s.fn r).dirBusy then s
  else if (s.fn r).st == .draining then endDir s r 0x0B (s.fn r).dirBad
  else act s

/-- The read of directory entry `i` (R39). -/
def readEntry (s : State) (r i : Nat) : State := emit s (.hostRead r ((s.fn r).dirBase * 4096 + 64 * i) 64)

/-- Highest index that an orphan set holds, plus one. -/
def orphanCover (s : State) (r : Nat) : Nat :=
  (s.fn r).rings.foldl (fun n q => if q.2.st == .orphaned then max n (q.1 + 1) else n) 0

/-- Commit (R42, R603, R485): the set is locked and every entry loaded only when every entry read is valid. -/
def doDirCommit (r : Nat) (s : State) : State :=
  startDir s r (fun s =>
    let f := s.fn r
    if f.dirCommitted then endDir s r 0x07 f.dirBad
    else if maxRings s r < f.dirCount then endDir s r 0x07 f.dirBad
    else if f.dirCount < orphanCover s r then endDir s r 0x06 f.dirCount
    else if f.dirCount = 0 then endDir (s.modFn r (fun f => { f with dirCommitted := true })) r 0x00 0
    else readEntry (s.modFn r (fun f => { f with dirBusy := true, dirAct := some { count := f.dirCount } })) r 0)

def execRingDirCommit (fn : Nat) (s : State) : Host.Outcome State Fault Refusal :=
  .next (gated fn (.ringDirCommit fn) (doDirCommit fn) s)

/-- Unlock (R42, R603): every ring pair of index 1 or above must be DISABLED. -/
def doDirUnlock (r : Nat) (s : State) : State :=
  startDir s r (fun s =>
    let f := s.fn r
    if !f.dirCommitted then endDir s r 0x00 f.dirBad
    else if f.rings.any (fun q => q.1 != 0 && q.2.st != .disabled) then endDir s r 0x07 f.dirBad
    else endDir (s.modFn r (fun f => { f with dirCommitted := false })) r 0x00 f.dirBad)

def execRingDirUnlock (fn : Nat) (s : State) : Host.Outcome State Fault Refusal :=
  .next (gated fn (.ringDirUnlock fn) (doDirUnlock fn) s)

/-- Checks of load entry and disable entry before they act (R42). -/
def entryAction (r index : Nat) (act : State → State) (s : State) : State :=
  startDir s r (fun s =>
    let f := s.fn r
    if !f.dirCommitted then endDir s r 0x07 f.dirBad
    else if index = 0 ∨ f.dirCount ≤ index then endDir s r 0x06 index
    else act s)

/-- Load entry (R42): only a DISABLED ring pair is loaded again. -/
def doLoadEntry (r index : Nat) (s : State) : State :=
  entryAction r index (fun s =>
    if (s.ring r index).st ≠ .disabled then endDir s r 0x07 (s.fn r).dirBad
    else readEntry (s.modFn r (fun f => { f with dirBusy := true, dirAct := some { load := true, index := index } })) r index) s

def execLoadEntry (fn index : Nat) (s : State) : Host.Outcome State Fault Refusal :=
  .next (gated fn (.loadEntry fn index) (doLoadEntry fn index) s)

/-- Disable entry (R42, R43): an ENABLED ring pair drains; a HELD one drains when it leaves HELD. -/
def doDisableEntry (r index : Nat) (s : State) : State :=
  entryAction r index (fun s =>
    match (s.ring r index).st with
    | .enabled => settleRing (endDir (s.modRing r index (fun q => { q with st := .draining })) r 0x00 (s.fn r).dirBad) r index
    | .held => endDir (s.modRing r index (fun q => { q with deferDisable := true })) r 0x00 (s.fn r).dirBad
    | .orphaned => endDir s r 0x07 (s.fn r).dirBad
    | _ => endDir s r 0x00 (s.fn r).dirBad) s

def execDisableEntry (fn index : Nat) (s : State) : Host.Outcome State Fault Refusal :=
  .next (gated fn (.disableEntry fn index) (doDisableEntry fn index) s)

/-- A directory entry's read has returned (R42): the next is read, or the action ends. A read that fails ends the commit at
once with 0x03, also where an entry before it was invalid: R42 does not order 0x06 and 0x03 (DESIGN CHOICE, log 48). -/
def doDirReturn (r : Nat) (read : HRead) (s : State) : State :=
  match (s.fn r).dirAct with
  | none => s
  | some a =>
    match read with
    | .timeout => endDir s r 0x03 a.index
    | .poisoned => endDir s r 0x03 a.index
    | .ok bs =>
      let good := entryOk s r a.index bs
      if a.load then
        if !good then endDir s r 0x06 a.index
        else match loadRing s r a.index (parseEntry bs) with
          | none => endDir s r 0x07 (s.fn r).dirBad
          | some s' => endDir s' r 0x00 (s.fn r).dirBad
      else
        let a' : DirAct := { a with index := a.index + 1, read := a.read ++ [parseEntry bs],
                                    bad := if a.bad.isSome || good then a.bad else some a.index }
        if a'.index < a.count then readEntry (s.modFn r (fun f => { f with dirAct := some a' })) r a'.index
        else match a'.bad with
          | some b => endDir s r 0x06 b
          | none => match loadAll s r 0 a'.read with
            | none => endDir s r 0x07 (s.fn r).dirBad
            | some s' => endDir (s'.modFn r (fun f => { f with dirCommitted := true })) r 0x00 (s.fn r).dirBad

def execDirectoryReadReturn (fn : Nat) (read : HRead) (s : State) : Host.Outcome State Fault Refusal :=
  .next (doDirReturn fn read s)

/-! ### Doorbells (R48 to R51) -/

/-- A doorbell is discarded: counted and reported (R50). -/
def discardDoorbell (s : State) (r page word : Nat) : State :=
  postEventS (s.modFn r (fun f => { f with dbDiscards := satAdd 32 f.dbDiscards 1 })) r 0x0102 0 0 (fld word 0 48) page

/-- A renewal restarts a full period where the lease is armed (R61). -/
def renewLease (s : State) (r : Nat) : State :=
  s.modFn r (fun f =>
    if f.leaseArmed then { f with leaseInForce := f.leasePeriod, leaseFrom := s.vcycle, leaseHalf := false } else f)

/-- A release of event slots is within what was written (R49). -/
def evReleaseOk (f : Fn) (ix : Nat) : Bool := decide (dist24 ix f.evR ≤ dist24 f.evW f.evR)

/-- Take or discard one doorbell word (R50). -/
def takeDoorbell (s : State) (r page word : Nat) : State :=
  let f := s.fn r
  let ix := fld word 0 24
  let kind := fld word 40 8
  let rp := s.ring r page
  if fld word 24 16 ≠ f.gen ∨ f.gen = 0 ∨ fld word 48 16 ≠ 0 ∨ !dmaOn f then discardDoorbell s r page word
  else if kind = 0xFF then
    if page = 0 ∧ ix = 0 then renewLease s r else discardDoorbell s r page word
  else if kind = 0xFE then
    if page = 0 then
      if evOn s r ∧ evReleaseOk f ix then
        flushLost (mboxPush (s.modFn r (fun f => { f with evR := ix })) rp.owner { index := ix, kind := kind, ring := 0, fn := r }) r
      else discardDoorbell s r page word
    else if (rp.st = .enabled ∨ rp.st = .held ∨ rp.st = .draining ∨ rp.st = .error)
        ∧ dist24 ix rp.cqR ≤ dist24 rp.cqW rp.cqR then
      let s1 := mboxPush (s.modRing r page (fun q => { q with cqR := ix })) rp.owner { index := ix, kind := kind, ring := page, fn := r }
      checkFreeze (settleRing (drainWaiting rp.waiting.length s1 r page) r page) r
    else discardDoorbell s r page word
  else if kind = rp.ent.kind ∧ kind ≠ 0x03 ∧ page ≠ 0 ∧ dist24 ix rp.cons ≤ 2 ^ rp.ent.sqOrder then
    match rp.st with
    | .enabled => mboxPush (s.modRing r page (fun q => { q with prod := ix })) rp.owner { index := ix, kind := kind, ring := page, fn := r }
    | .held => mboxPush (s.modRing r page (fun q => { q with heldDb := some ix })) rp.owner { index := ix, kind := kind, ring := page, fn := r }
    | _ => discardDoorbell s r page word
  else discardDoorbell s r page word

/-- Doorbell pages of a function (Table 14-2). -/
def doorbellPages (r : Nat) : Nat := if isPf0 r then 8 else if isPf1 r then 256 else if isVf1 r then 16 else 0

/-- Only an 8-byte write at offset 0 of a doorbell page is a doorbell (R48). -/
def doDoorbell (r page offset width : Nat) (word : BitVec 64) (s : State) : State :=
  if present s r ∧ page < doorbellPages r ∧ offset = 0 ∧ width = 8 then takeDoorbell s r page word.toNat else s

def execDoorbell (fn page offset width : Nat) (word : BitVec 64) (s : State) : Host.Outcome State Fault Refusal :=
  .next (gated fn (.doorbell fn page offset width word) (doDoorbell fn page offset width word) s)

/-! ### NOP and moderation -/

/-- A NOP that has passed its checks completes with 0x00 and result zero (R45). -/
def execNop (fn ring : Nat) (s : State) : Host.Outcome State Fault Refusal :=
  .next (onDesc s fn ring (s.ring fn ring).ent.kind 0x00 (fun _ _ s => ok0 s))

/-- The least time between two interrupts of a CQ has passed and one was put off (R38). -/
def doModeration (r i : Nat) (s : State) : State :=
  let rp := s.ring r i
  if rp.deferredIrq then
    let s1 := advanceTo s rp.modUntil
    raiseVec (s1.modRing r i (fun q => { q with deferredIrq := false, modUntil := s1.vcycle + rp.ent.moderationUs * usCycles })) r rp.ent.cqVector
  else s

def execInterruptModerationExpiry (fn ring : Nat) (s : State) : Host.Outcome State Fault Refusal :=
  .next (doModeration fn ring s)

/-! ### The event ring set (R57, R60, R603) -/

def evEnd (s : State) (r status : Nat) : State := s.modFn r (fun f => { f with evStatus := status })

/-- The event ring set is validated and locked; with enable = 1 ring pair 0 is ENABLED and first reports what was lost
(R57, R59, R60); where every core that could own it is full, the commit fails with 0x07 (R209). -/
def evDoCommit (s : State) (r : Nat) : State :=
  let f := s.fn r
  if f.evCommitted then evEnd s r 0x07
  else if f.evOrder < 6 ∨ 16 < f.evOrder ∨ vectorsOf r ≤ f.evVector then evEnd s r 0x06
  else
    let s1 := evEnd (s.modFn r (fun f => { f with evCommitted := true })) r 0x00
    match f.evEnable, pickOwner s r 0x03 with
    | false, _ => s1
    | true, none => evEnd s r 0x07
    | true, some c =>
      flushLost ((s1.modFn r (fun f => { f with evW := 0, evR := 0 })).modRing r 0 (fun _ => { st := .enabled, owner := c, ent := { kind := 0x03 } })) r

/-- Unlock at any time: ring pair 0 becomes DISABLED (R60, R603). -/
def evDoUnlock (s : State) (r : Nat) : State :=
  if (s.fn r).evCommitted then
    evEnd ((s.modFn r (fun f => { f with evCommitted := false })).modRing r 0 (fun _ => {})) r 0x00
  else evEnd s r 0x00

/-- A write of EV_COMMIT (Table 2-12). -/
def doEvWrite (r : Nat) (v : Nat) (s : State) : State :=
  if !(present s r && hasRings r) then s
  else if bitAt v 0 && bitAt v 1 then evEnd s r 0x06
  else if bitAt v 0 then evDoCommit s r
  else if bitAt v 1 then evDoUnlock s r
  else s

def execEvCommit (fn : Nat) (value : BitVec 32) (s : State) : Host.Outcome State Fault Refusal :=
  .next (gated fn (.evCommit fn value) (doEvWrite fn value.toNat) s)

def execEvUnlock (fn : Nat) (s : State) : Host.Outcome State Fault Refusal :=
  .next (gated fn (.evUnlock fn) (doEvWrite fn 2) s)

/-! ### The host lease (R61, R62) -/

/-- A write of LEASE_CTRL: a period in range takes effect at the next renewal; bad_value is W1C (R62). -/
def doLeasePeriod (r v : Nat) (s : State) : State :=
  if !(present s r && hasRings r) then s
  else
    let p := fld v 0 15
    s.modFn r (fun f =>
      let f := if bitAt v 17 then { f with leaseBad := false } else f
      if 100 ≤ p ∧ p ≤ 30000 then { f with leasePeriod := p } else { f with leaseBad := true })

def execLeasePeriodWrite (fn : Nat) (value : BitVec 32) (s : State) : Host.Outcome State Fault Refusal :=
  .next (gated fn (.leasePeriodWrite fn value) (doLeasePeriod fn value.toNat) s)

/-- Milliseconds until the lease expires (LEASE_LEFT). -/
def leaseLeft (s : State) (r : Nat) : Nat :=
  let f := s.fn r
  if f.leaseArmed then f.leaseInForce - (s.vcycle - f.leaseFrom) / msCycles else 0

/-- Half the period has passed since the arming or the last renewal: LEASE_HALF, once per period (R61). -/
def doLeaseHalf (r : Nat) (s : State) : State :=
  let f := s.fn r
  if f.leaseArmed && !f.leaseHalf && f.st == .active then
    let s1 := advanceTo s (f.leaseFrom + (f.leaseInForce - f.leaseInForce / 2) * msCycles)
    postEvent (s1.modFn r (fun f => { f with leaseHalf := true })) r 0x0105 0 (f.leaseInForce / 2)
  else s

def execLeaseHalf (fn : Nat) (s : State) : Host.Outcome State Fault Refusal := .next (doLeaseHalf fn s)

end Sys2Proof.Machine
end

