-- ==== Sys2Proof/Machine/Sched.lean ====
section
/-!
DEFINITION. The interface scheduler, its gates, the waits of the time service, breakout and link changes (11: R387, R390
to R393, R399 to R401, R405, R410).
-/
namespace Sys2Proof.Machine

/-- NPT tile of a network port (Table 6-3). -/
def nptTile (p : Nat) : Nat := 40 + p / 4 % 2 + 42 * (p / 8)

/-- A register write of a function to a network port's registers: the owning PF1's acts, the other PF1's is counted
(R408, R105); a
port that the transom does not reach takes none (R538). -/
def netReg (s : State) (r p : Nat) (act : State → State) : State :=
  if !(isPf1 r && present s r) ∨ 16 ≤ p then s
  else if netOwner s p ≠ r then s.modFn r (fun f => { f with roleDenied := satAdd 32 f.roleDenied 1 })
  else if !reachable s (nptTile p) then offAccess s
  else act s

/-! ### Gate test (R400, R401) -/

/-- ns a frame needs, rounded up, with the guard. -/
def airNs (rate : Nat) (fr : List Byte) : Nat := ((fr.length + 24) * 8000 + rate - 1) / rate

/-- A class is open long enough from PTP time t on. -/
def netGateOk (s : State) (j cls t : Nat) (fr : List Byte) : Bool :=
  let i := s.netIf j
  if !i.gatesOn then true
  else match i.gateOper with
    | none => true
    | some g => match openLeft g cls t with
      | none => true
      | some n => decide (airNs (lineRate s j) fr + i.guardNs ≤ n)

/-- A frame that even the longest open run of its class in the current list does not hold (R401). -/
def neverFits (s : State) (j cls : Nat) (fr : List Byte) : Bool :=
  let i := s.netIf j
  match (if i.gatesOn then i.gateOper else none) with
  | none => false
  | some g =>
    let starts := (List.range g.entries.length).map (fun k => ((g.entries.take k).map (·.1)).foldl (· + ·) 0)
    let run (o : Nat) : Nat := openRun g cls (g.entries.length + 1) o
    let best := starts.foldl (fun m o => max m (run o)) 0
    decide (best < g.cycle) && decide (best < airNs (lineRate s j) fr + i.guardNs)

/-! ### Participants (R391 to R393) -/

/-- A participant that could send now: queue number (4,096 the transport), tag, committed, and the frame with its place. -/
structure Cand where
  num : Nat := 0
  tag : Nat := 0
  committed : Bool := false
  place : Nat := 0
  frame : TxFrame := {}

/-- Pacer of a queue pair at a time (R391). -/
def pacerNow (q : Qp) (t : Nat) : Int := min ((mtuOf q * 8000 : Nat) : Int) (q.pacer + q.rate * (t - q.pacerAt))
def pacerOk (s : State) (f : TxFrame) (t : Nat) : Bool :=
  match f.qpn.bind (fun n => if isGsi n then none else oget s.rdma.qps n) with
  | none => true
  | some q => decide (0 ≤ pacerNow q t)

/-- The first frame of the transport participant whose pacer lets it go. -/
def rdmaPick (s : State) (j t : Nat) : Option (Nat × TxFrame) :=
  let fs := (s.netIf j).rdma
  (List.range fs.length).findSome? (fun k => match fs[k]? with
    | some f =>
      if pacerOk s f t && !(fs.take k).any (fun e => e.qpn == f.qpn) then some (k, f) else none
    | none => none)

/-- Participants of a class that are eligible and pass the gate test (R392, R400). -/
def candidates (s : State) (j cls t : Nat) : List Cand :=
  let qs := (s.netPort (j / 4)).txqs.filterMap (fun q =>
    if q.2.iface = j ∧ q.2.cls = cls then
      match q.2.frames with
      | [] => none
      | f :: _ =>
        let b := refill q.2.shaper t
        if peakOk b && netGateOk s j cls t f.bytes then some { num := q.1, tag := q.2.tag, committed := isCommitted b, frame := f } else none
    else none)
  let i := s.netIf j
  if i.rdmaTc = cls then
    match rdmaPick s j t with
    | some (k, f) =>
      if netGateOk s j cls t f.bytes then qs ++ [{ num := 4096, tag := (i.rdmaTag + (f.bytes.length + 4) * costOf i.rdmaWeight) % 2 ^ 48, place := k, frame := f }] else qs
    | none => qs
  else qs

/-- Least head tag, the lower number among equals (R392). -/
def leastTag : List Cand → Option Cand
  | [] => none
  | c :: rest => match leastTag rest with
    | none => some c
    | some d => if tagBefore d.tag c.tag then some d else some c

/-- The choice within a class: among the committed, else among the excess. -/
def chooseIn (cs : List Cand) : Option Cand :=
  match leastTag (cs.filter (·.committed)) with
  | some c => some c
  | none => leastTag cs

/-- The highest-numbered class that has an eligible frame passing the gate test, and the choice within it. -/
def chooseFrame (s : State) (j t : Nat) : Option (Nat × Cand) :=
  [7, 6, 5, 4, 3, 2, 1, 0].findSome? (fun c => (chooseIn (candidates s j c t)).map (fun x => (c, x)))

/-- Heads that can never be sent are dropped and counted; a transport frame is recovered by retransmission (R401). -/
def dropTooLong : Nat → State → Nat → State
  | 0, s, _ => s
  | fuel + 1, s, j =>
    match (s.netPort (j / 4)).txqs.find? (fun q => q.2.iface == j && (q.2.frames.head?).any (fun f => neverFits s j q.2.cls f.bytes)) with
    | some (n, q) =>
      let f := q.frames.head?.getD {}
      let rest := q.frames.drop 1
      let tag := match rest with | [] => q.tag | g :: _ => headTag (mget (s.netIf j).v q.cls 0) q.fLast q.weight g.bytes
      let s1 := (putTxq s (j / 4) n { q with frames := rest, tag := tag }).modNetIf j (fun i => { i with gateDrop := satAdd 32 i.gateDrop 1 })
      dropTooLong fuel (match f.ref with | some ref => finish s1 ref 0x81 0 0 | none => s1) j
    | none =>
      let i := s.netIf j
      match i.rdma.find? (fun f => neverFits s j i.rdmaTc f.bytes) with
      | some f => dropTooLong fuel (s.modNetIf j (fun i => { i with rdma := i.rdma.erase f, gateDrop := satAdd 32 i.gateDrop 1 })) j
      | none => s

/-- The chosen frame leaves its participant: buckets are charged, V and F_last move, the next head gets its tag (R393,
R395). -/
def takeFrame (s : State) (j cls t : Nat) (c : Cand) : State :=
  let s1 := s.modNetIf j (fun i => { i with v := mset i.v cls c.tag 0, sending := some (c.frame, t, t + airNs (lineRate s j) c.frame.bytes) })
  if c.num = 4096 then
    let s2 := s1.modNetIf j (fun i => { i with rdma := i.rdma.eraseIdx c.place, rdmaLast := c.tag, rdmaTag := c.tag })
    match c.frame.qpn with
    | some n => s2.modQp n (fun q => { q with pacer := pacerNow q t - frameCost c.frame.bytes, pacerAt := t })
    | none => s2
  else
    match oget (s1.netPort (j / 4)).txqs c.num with
    | none => s1
    | some q =>
      let rest := q.frames.drop 1
      let tag := match rest with | [] => c.tag | g :: _ => headTag c.tag c.tag q.weight g.bytes
      putTxq s1 (j / 4) c.num { q with shaper := charge (refill q.shaper t) (frameCost c.frame.bytes), frames := rest, fLast := c.tag, tag := tag }

/-- A frame boundary: the scheduler picks the next frame (R392). -/
def doFrameSelect (j : Nat) (s : State) : State :=
  let i := s.netIf j
  if 64 ≤ j ∨ i.up = false ∨ i.sending.isSome then s
  else
    let s1 := dropTooLong 8192 s j
    match chooseFrame s1 j (ptp s) with
    | none => s1
    | some (cls, c) => takeFrame s1 j cls (ptp s) c

def execFrameSelect (iface : Nat) (s : State) : Host.Outcome State Fault Refusal := .next (doFrameSelect iface s)

/-- The last byte of a frame has left the MAC: its TX_PACKET completes (R390, R404). -/
def doFrameTxDone (j : Nat) (s : State) : State :=
  match (s.netIf j).sending with
  | none => s
  | some (f, t0, t1) =>
    let s1 := (advanceToPtp s t1).modNetIf j (fun i => { i with sending := none, lastAct := t1 })
    let s2 := addTotal (emit (tapUnit s1 { tap := 4, sel := j } f.bytes) (.frame j f.bytes)) 4 j 1 f.bytes.length
    match f.ref with
    | some ref => finish s2 ref 0 (if f.stamp then t0 + (s.netPort (j / 4)).txDelay else 0) 0
    | none => s2

def execFrameTxDone (iface : Nat) (s : State) : Host.Outcome State Fault Refusal := .next (doFrameTxDone iface s)

/-! ### Gate lists (R399; R108, R109) -/

def netShadow (i : NetIf) : GateList :=
  { base := i.gateBase, cycle := i.gateCycle, change := i.gateChange,
    entries := (List.range i.gateLen).map (fun k => (fld (mget i.gcl k 0) 0 24, fld (mget i.gcl k 0) 24 8)) }

/-- SCH_GATE_ACTION.commit: the shadow list is validated and becomes pending (R399). -/
def doSchGateCommit (r j : Nat) (s : State) : State :=
  netReg s r (j / 4) (fun s =>
    let g := netShadow (s.netIf j)
    match gateFault 8 256 g with
    | some (e, hb) => s.modNetIf j (fun i => { i with gateStatus := 0x06, gateBadEntry := e, gateHeaderBad := hb })
    | none => s.modNetIf j (fun i => { i with gateStatus := 0, gateBadEntry := 0, gateHeaderBad := false, gatePend := some { g with change := max g.change (ptp s) } }))

def execSchGateCommit (fn iface : Nat) (s : State) : Host.Outcome State Fault Refusal :=
  .next (gated fn (.schGateCommit fn iface) (doSchGateCommit fn iface) s)

/-- The pending list of an accelerator port or of an interface takes effect at its first cycle start (R109, R399). -/
def doGateTake (accel : Bool) (n : Nat) (s : State) : State :=
  if accel then
    match (s.port n).gatePend with
    | none => s
    | some g =>
      let s1 := (advanceToPtp s (gateStart g g.change)).modPort n (fun a => { a with gatePend := none, gateOper := some g, gateEntry := 0, operGen := (a.operGen + 1) % 2 ^ 16 })
      postPort s1 n 0x1005 (s1.port n).operGen
  else
    match (s.netIf n).gatePend with
    | none => s
    | some g =>
      let s1 := (advanceToPtp s (gateStart g g.change)).modNetIf n (fun i => { i with gatePend := none, gateOper := some g, gateEntry := 0, operGen := (i.operGen + 1) % 2 ^ 16 })
      postEvent s1 (netOwner s1 (n / 4)) 0x2201 n (s1.netIf n).operGen

def execGateListTakeEffect (accel : Bool) (which : Nat) (s : State) : Host.Outcome State Fault Refusal :=
  .next (doGateTake accel which s)

/-- The duration of the entry in force ends and the next entry governs (R108). -/
def doGateAdvance (accel : Bool) (n : Nat) (s : State) : State :=
  match (if accel then (s.port n).gateOper else (s.netIf n).gateOper) with
  | none => s
  | some g =>
    let s1 := advanceToPtp s (gateNext g (ptp s))
    let e := (gateNow g (ptp s1)).elim 0 (·.1)
    if accel then s1.modPort n (fun a => { a with gateEntry := e }) else s1.modNetIf n (fun i => { i with gateEntry := e })

def execGateEntryAdvance (accel : Bool) (which : Nat) (s : State) : Host.Outcome State Fault Refusal :=
  .next (doGateAdvance accel which s)

/-! ### TIME_WAIT (R405) -/

/-- The earliest wait, the first submitted among equals. -/
def earliest : List TimeWait → Option TimeWait
  | [] => none
  | w :: rest => match earliest rest with
    | none => some w
    | some v => if v.at_ < w.at_ then some v else some w

/-- Complete one wait. -/
def endWait (s : State) (w : TimeWait) : State :=
  finish { s with net := { s.net with waits := s.net.waits.filter (fun x => x.ref != w.ref) } } w.ref 0 (ptp s) 0

/-- Complete the waits whose time has passed, in the order of their times. -/
def endDue : Nat → State → State
  | 0, s => s
  | k + 1, s => match earliest s.net.waits with
    | none => s
    | some w => if w.at_ ≤ ptp s then endDue k (endWait s w) else s

def timeWait (d : Nat) (ref : DRef) (s : State) : CmdRes :=
  let s1 := { s with net := { s.net with waits := s.net.waits ++ [{ ref := ref, at_ := fld d 64 64 }] } }
  later (endDue s1.net.waits.length s1)

def execTimeWait (fn ring : Nat) (s : State) : Host.Outcome State Fault Refusal :=
  .next (onDesc s fn ring 0x24 0x01 (fun d ref s => timeWait d ref s))

def doTimeWaitDue (s : State) : State :=
  match earliest s.net.waits with
  | none => s
  | some w => endWait (advanceToPtp s w.at_) w

def execTimeWaitDue (s : State) : Host.Outcome State Fault Refusal := .next (doTimeWaitDue s)

/-! ### Breakout and links (R387, R393) -/

/-- V and F_last of an interface start at 0 (R393). -/
def resetTags (s : State) (j : Nat) : State :=
  let s1 := s.modNetIf j (fun i => { i with v := [], rdmaLast := 0, rdmaTag := 0 })
  s1.modNetPort (j / 4) (fun p => { p with txqs := p.txqs.map (fun q =>
    if q.2.iface = j then (q.1, { q.2 with fLast := 0, tag := (q.2.frames.head?).elim 0 (fun f => headTag 0 0 q.2.weight f.bytes) }) else q) })

/-- A network interface goes up or down. -/
def doLinkChange (j : Nat) (up : Bool) (s : State) : State :=
  if 64 ≤ j ∨ ifsOf (s.netPort (j / 4)).breakout ≤ j % 4 ∨ (s.netIf j).up = up ∨ (up = true ∧ domOn s (nptTile (j / 4)) = false) then s
  else if up then resetTags (s.modNetIf j (fun i => { i with up := true })) j
  else cvAbortIf (s.modNetIf j (fun i => { i with up := false })) j

def execInterfaceLinkChange (iface : Nat) (up : Bool) (s : State) : Host.Outcome State Fault Refusal :=
  .next (doLinkChange iface up s)

/-- Something exists on a port that fixes its breakout (R387). -/
def portInUse (s : State) (p : Nat) : Bool :=
  !(s.netPort p).txqs.isEmpty || !(s.netPort p).rxqs.isEmpty || s.rdma.qps.any (fun q => qpTile q.2 == p)
  || s.cls.sets.any (fun r => r.2.pendingVer.binds.any (fun b => b % 32 == p) || r.2.vers.any (fun v => v.2.binds.any (fun b => b % 32 == p)))

/-- A write of SCH_PORT_MODE.breakout (R387). -/
def doBreakout (r p v : Nat) (s : State) : State :=
  netReg s r p (fun s =>
    let b := v % 4
    if b = 3 ∨ b = (s.netPort p).breakout then s
    else if portInUse s p then s.modNetPort p (fun x => { x with refused := true })
    else
      let s1 := (List.range 4).foldl (fun s i => doLinkChange (4 * p + i) false s) s
      (List.range 4).foldl (fun s i => resetTags s (4 * p + i)) (s1.modNetPort p (fun x => { x with breakout := b })))

def execBreakoutWrite (fn net value : Nat) (s : State) : Host.Outcome State Fault Refusal :=
  .next (gated fn (.breakoutWrite fn net value) (doBreakout fn net value) s)

end Sys2Proof.Machine
end

