-- ==== Sys2Proof/Machine/Lifecycle.lean ====
section
/-!
DEFINITION. Incarnations of functions (14: R475 to R486): enables, shut-downs and drains, orphan sets with their adoption
and discard, virtual functions and their quotas, and the expiry of the host lease (02: R61).
-/
namespace Sys2Proof.Machine

/-! ### Objects of a function (R480, R482, R484) -/

/-- An object of a function, of an incarnation that `old` picks. -/
def ownedBy (r : Nat) (old : Nat → Bool) (o : Own) : Bool := o.fn == r && old o.gen

def mapVals {V : Type} (m : NMap V) (f : V → V) : NMap V := m.map (fun p => (p.1, f p.2))

/-- Storage objects pass to an incarnation: backends with their queue pairs and domains, namespaces and the key slots
that namespaces name (R484). -/
def passStorage (s : State) (r : Nat) (old : Nat → Bool) (gen : Nat) : State :=
  let mine := ownedBy r old
  let give (o : Own) : Own := if mine o then { o with gen := gen } else o
  let backQp (q : Qp) : Bool := mine q.own && q.bound.any (fun m => decide (0x10000 ≤ m))
  let pds := (s.rdma.qps.filter (fun q => backQp q.2)).map (fun q => epKey r q.2.pd)
  let keys := s.sto.nss.filterMap (fun n => n.2.key)
  let s1 := s.modSto (fun x => { x with
    backends := mapVals x.backends (fun b => { b with own := give b.own })
    nss := mapVals x.nss (fun n => { n with own := give n.own }) })
  let s2 := s1.modRdma (fun x => { x with
    qps := mapVals x.qps (fun q => if backQp q then { q with own := give q.own } else q)
    pds := x.pds.map (fun p => if pds.contains p.1 then (p.1, give p.2) else p) })
  s2.modSeal (fun q => { q with slots := q.slots.map (fun p => if keys.contains p.1 then (p.1, { p.2 with own := give p.2.own }) else p) })

/-- Every object passes to an incarnation, with its handles, numbers and keys (R482). -/
def passObjects (s : State) (r : Nat) (old : Nat → Bool) (gen : Nat) : State :=
  let mine := ownedBy r old
  let give (o : Own) : Own := if mine o then { o with gen := gen } else o
  let s1 := passStorage s r old gen
  let s2 := s1.modRdma (fun x => { x with
    pds := mapVals x.pds give
    mrs := mapVals x.mrs (fun m => { m with own := give m.own })
    qps := mapVals x.qps (fun q => { q with own := give q.own })
    ahs := mapVals x.ahs (fun a => { a with own := give a.own }) })
  let s3 := s2.modSeal (fun q => { q with slots := mapVals q.slots (fun k => { k with own := give k.own }) })
  let s4 := s3.modKv (fun k => { k with
    seqs := mapVals k.seqs (fun q => { q with own := give q.own })
    plans := mapVals k.plans (fun p => { p with own := give p.own }) })
  let s5 := { s4 with fw := { s4.fw with comms := mapVals s4.fw.comms (fun (c : Comm) => { c with own := give c.own }) }
                      cores := mapVals s4.cores (fun (c : Core) => { c with launches := c.launches.map (fun (l : Launch) => { l with own := give l.own }) })
                      cls := { s4.cls with sets := mapVals s4.cls.sets (fun (x : RuleSet) => { x with own := give x.own }) } }
  let s6 := { s5 with net := { s5.net with ports := mapVals s5.net.ports (fun p => { p with
    txqs := mapVals p.txqs (fun q => if q.fn = r ∧ old q.gen = true then { q with gen := gen } else q)
    rxqs := mapVals p.rxqs (fun q => if q.fn = r ∧ old q.gen = true then { q with gen := gen } else q) }) } }
  if isPf1 r then s6.modCk (epOf r) (fun k => { k with job := k.job.map (fun j => if old j.gen then { j with gen := gen } else j) }) else s6

/-- A plan is cancelled, whatever its state (R275, R484). -/
def cancelPlan (s : State) (n : Nat) (p : Plan) : State :=
  let s1 := stopMoves s n
  releasePlan (if p.st = .pending then planRecord (finish s1 p.ref 0x08 0 0) n 0x08 false else s1) n

/-- Launches of a communicator are aborted and it is destroyed (R484). -/
def discardComm (s : State) (c : Nat) (m : Comm) : State :=
  dropComm (((allLaunches s).filter (fun l => l.2.comm == c)).foldl (fun s l =>
    if l.2.running then endLaunch s l.1 0x08 0 else endQueued s l.1 l.2.ref 0x08) s) c m

/-- A sequence is closed (R262). -/
def discardSeq (s : State) (ix : Nat) : State :=
  settlePools ((truncSeq s ix 0).modKv (fun k => { k with seqs := odel k.seqs ix }))

/-- The job of a PF1 is ended, and its take with it. -/
def discardJob (s : State) (r : Nat) (old : Nat → Bool) : State :=
  if isPf1 r && ((s.ckpt (epOf r)).job).any (fun j => old j.gen) then
    (failTake s (epOf r) 0x08).modCk (epOf r) (fun k => { k with job := none })
  else s

/-- Transmit and receive queues of a function are destroyed. -/
def discardQueues (s : State) (r : Nat) (old : Nat → Bool) : State :=
  s.net.ports.foldl (fun s p =>
    let s1 := p.2.txqs.foldl (fun s q => if q.2.fn = r ∧ old q.2.gen = true then dropTxq s p.1 q.1 q.2 else s) s
    p.2.rxqs.foldl (fun s q => if q.2.fn = r ∧ old q.2.gen = true then dropRxq s p.1 q.1 q.2 else s) s1) s

/-- Objects of a function's ended incarnations end and are freed, as their destroy commands would have it; storage
objects pass to incarnation `heir` (R484). -/
def discardObjects (s : State) (r : Nat) (old : Nat → Bool) (heir : Nat) : State :=
  let mine := ownedBy r old
  let s1 := s.kv.plans.foldl (fun s p => if mine p.2.own then cancelPlan s p.1 p.2 else s) s
  let s2 := s1.fw.comms.foldl (fun s c => if mine c.2.own then discardComm s c.1 c.2 else s) s1
  let s3 := discardJob s2 r old
  let s4 := s3.kv.seqs.foldl (fun s q => if mine q.2.own then discardSeq s q.1 else s) s3
  let s5 := discardQueues s4 r old
  let s6 := passStorage { s5 with cls := { s5.cls with sets := s5.cls.sets.filter (fun x => !mine x.2.own) } } r old heir
  let s7 := s6.rdma.qps.foldl (fun s q => if mine q.2.own then dropQp s q.1 else s) s6
  let s8 := s7.modRdma (fun x => { x with
    mrs := x.mrs.filter (fun m => !mine m.2.own)
    ahs := x.ahs.filter (fun a => !mine a.2.own)
    pds := x.pds.filter (fun p => !mine p.2) })
  s8.modSeal (fun q => { q with slots := q.slots.filter (fun k => !mine k.2.own) })

/-- TIME_WAITs and feed buffers of ring pairs whose work has ended. -/
def dropWaits (s : State) (r : Nat) : State :=
  let gone (d : DRef) : Bool := d.fn == r && !((s.ring r d.ring).fetched.any (fun e => e.seq == d.seq))
  ({ s with net := { s.net with waits := s.net.waits.filter (fun w => !gone w.ref) } }).modPath r (fun p =>
    { p with bufs := p.bufs.filter (fun b => !gone b.ref) })

/-- Ring pairs of a set that is discarded are DISABLED, their work forgotten (Table 2-6). -/
def freeOrphanRings (s : State) (r : Nat) : State :=
  dropWaits ((s.fn r).rings.foldl (fun s q => s.modRing r q.1 (fun q =>
    if q.st = .orphaned then { owner := q.owner, fetchNo := q.fetchNo } else q)) s) r

/-- The generation that the next incarnation carries, or the running one's (R475, R484). -/
def heirGen (f : Fn) : Nat := if f.st = .active ∨ f.st = .frozen then f.gen else nextGen f.gen

/-- The orphan set of a function is discarded (R484). -/
def discardSet (s : State) (r : Nat) (expiry : Bool) : State :=
  match (s.fn r).orphan with
  | none => s
  | some o =>
    let f := s.fn r
    let running := f.st == .active || f.st == .frozen
    let old (g : Nat) : Bool := !running || g != f.gen
    let s1 := freeOrphanRings (discardObjects s r old (heirGen f)) r
    let s2 := s1.modFn r (fun f => { f with orphan := none })
    postAll s2 (bothPf0 ++ (if f.st = .active ∧ isPf0 r = false then [r] else [])) 0x0203 r (o.oldGen + b2n expiry * 2 ^ 16)

/-! ### Shut-down and drain (R477 to R481) -/

/-- The cause orphans the function's state (Table 14-5); PF2 and its VFs are always released. -/
def isLoss (r cause : Nat) : Bool := hasRings r && decide (2 ≤ cause) && decide (cause ≤ 7)

/-- A ring pair becomes ORPHANED: fetched work that has not started ends with 0x0B, and completions are counted from now
on (R478, R481, Table 2-6). -/
def orphanRing (s : State) (r i : Nat) : State :=
  let q := s.ring r i
  if i = 0 then s.modRing r 0 (fun _ => {})
  else if q.st = .disabled ∨ q.st = .orphaned then s
  else
    let s1 := s.modRing r i (fun q => { q with st := .orphaned, deferDisable := false, heldDb := none, dropped := q.waiting.length, waiting := [],
                                               orphanedAt := ptp s, deferredIrq := false })
    (q.fetched.filter (fun e => !e.started && e.res.isNone)).foldl (fun s e => finishOne s { fn := r, ring := i, seq := e.seq } 0x0B 0 0) s1

/-- Work that needs the function's host memory ends with 0x0B (R478, R481). -/
def endHostWork (s : State) (r : Nat) : State :=
  let s1 := s.net.ports.foldl (fun s p => p.2.rxqs.foldl (fun s q =>
    if q.2.fn = r then
      q.2.bufs.foldl (fun s b => finish s b.1 0x0B 0 0) (s.modNetPort p.1 (fun x => { x with rxqs := omod x.rxqs q.1 (fun k => { k with bufs := [] }) }))
    else s) s) s
  let s2 := ((s1.path r).bufs).foldl (fun s b => finish s b.ref 0x0B 0 0) (s1.modPath r (fun p => { p with bufs := [] }))
  let s3 := s2.rdma.qps.foldl (fun s q => if q.2.own.fn = r ∧ q.2.bound.isNone then qpError s q.1 0x0B 0 else s) s2
  let s4 := if isPf1 r then failHostCtxs s3 r 0x0B else s3
  match (if isPf1 r then takeOf s4 (epOf r) else none) with
  | some t => if t.st = .accepted then failTake s4 (epOf r) 0x0B else s4
  | none => s4

/-- Driver loss: ring pairs and objects become the orphan set (R480). -/
def loseDriver (s : State) (r cause : Nat) : State :=
  let f := s.fn r
  let s1 := f.rings.foldl (fun s q => orphanRing s r q.1) s
  endHostWork (s1.modFn r (fun g => { g with orphan := some { oldGen := f.gen, cause := cause, at_ := s.vcycle } })) r

/-- Release: the orphan set and everything the function holds is freed; ring pairs are DISABLED (R477, R484). -/
def releaseAll (s : State) (r : Nat) : State :=
  let f := s.fn r
  let s1 := discardSet s r false
  let s2 := (s1.fn r).rings.foldl (fun s q => s.modRing r q.1 (fun q => { owner := q.owner, fetchNo := q.fetchNo })) s1
  let s3 := dropWaits (discardObjects s2 r (fun _ => true) (nextGen f.gen)) r
  if isPf1 r then failHostCtxs s3 r 0x0B else s3

/-- Register values of a function after its reset (R11, R478, R493): kept fields stand; configuration space is reset by a
function level or hot reset alone (PRESUMED, log 19). -/
def resetFn (f : Fn) : Fn :=
  let base : Fn := { st := .clean, gen := f.gen, cause := f.cause, rearm := f.rearm, dmaDropped := f.dmaDropped, orphan := f.orphan, orphanHold := f.orphanHold, quotaA := f.quotaA, quotaB := f.quotaB, numVfs := f.numVfs, vfEnable := f.vfEnable, waitEnable := f.waitEnable, rings := f.rings.filter (fun q => q.1 != 0) }
  if f.cause = 3 ∨ f.cause = 4 then base
  else { base with busMaster := f.busMaster, msixEn := f.msixEn, fnMask := f.fnMask, intxDisable := f.intxDisable, relaxed := f.relaxed, ctoValue := f.ctoValue, d3hot := f.d3hot, vecMask := f.vecMask, aerTimeout := f.aerTimeout, aerUnexpected := f.aerUnexpected, aerPoison := f.aerPoison }

/-- Quotas of a PF's VFs return to their reset values (R11, R493). -/
def resetQuotas (s : State) (r : Nat) : State :=
  if isPf1 r || isPf2 r then
    s.fns.foldl (fun s p => if isVf p.1 ∧ pfOf p.1 = r then
      s.modFn p.1 (fun f => { f with quotaA := ({} : Fn).quotaA, quotaB := ({} : Fn).quotaB }) else s) s
  else s

/-- Registers of CHECKPOINT, and sets of a PF1 that nothing uses, return to their reset values; a set that a take or a queue
pair uses stands, since their work continues (R11, R481; DESIGN CHOICE, log 19). -/
def resetSets (s : State) (r : Nat) : State :=
  if isPf1 r then
    let s1 := if qpsOfEp s (epOf r) then s else s.modRdma (fun x => { x with sets := mset x.sets (epOf r) {} {} })
    let s2 := s1.modCk (epOf r) (fun k => { k with step := 0, copies := 0, waitUs := 0, failed := 0, bytesOut := 0 })
    if (s2.ckpt (epOf r)).take.isSome then s2
    else s2.modCk (epOf r) (fun k => { k with capBase := 0, capSize := 0, cowBase := [], cowSize := [], committed := false, status := 0, badItem := 0 })
  else s

/-- Registers of an accelerator port at their reset values (Tables 3-11 and 3-12); a port that is enabled is shut. The set
and the list in force are no registers and stand. -/
def resetPort (s : State) (p : Nat) : State :=
  let s1 := if (s.port p).enable then goShut (s.modPort p (fun a => { a with enable := false })) p else s
  let z : APort := {}
  s1.modPort p (fun a => { a with
    badCredit := z.badCredit, storeForward := z.storeForward, gatesOn := z.gatesOn, perst := z.perst, retrainAt := z.retrainAt
    vcCredits := z.vcCredits, classWeight := z.classWeight, crcErr := 0, replayCnt := 0, retrainCount := 0, drop := 0
    gateBase := 0, gateCycle := 0, gateLen := 0, gateChange := 0, gcl := [], gateStatus := 0, gateBadEntry := 0
    gateHeaderBad := false, operGen := 0, gatePend := none, shadow := [] })

/-- Registers of a network port and its interfaces at their reset values (Table 11-6); breakout stands where the port is
used (R387). -/
def resetNetPort (s : State) (r p : Nat) : State :=
  let z : NetIf := {}
  let s1 := (doBreakout r p 0 s).modNetPort p (fun x => { x with refused := false })
  (List.range 4).foldl (fun s i => s.modNetIf (4 * p + i) (fun i => { i with
    gatesOn := z.gatesOn, rdmaTc := z.rdmaTc, rdmaWeight := z.rdmaWeight, guardNs := z.guardNs, gateBase := 0, gateCycle := 0
    gateLen := 0, gateChange := 0, gcl := [], gateStatus := 0, gateBadEntry := 0, gateHeaderBad := false, operGen := 0
    gatePend := none, gateDrop := 0, rxNoq := 0, rxNobuf := 0, noPolicer := 0 })) s1

/-- The registers of the ports that a PF1 owns return to their reset values when it is released (R11, R105, R408). After a
driver loss they stand, since pushes, launches and takes continue through those ports (R481; DESIGN CHOICE, log 19). -/
def resetPorts (s : State) (r : Nat) : State :=
  if isPf1 r && !isLoss r (s.fn r).cause then
    let s1 := (List.range 8).foldl (fun s p => if ownerOf s p = r then resetPort s p else s) s
    (List.range 16).foldl (fun s p => if netOwner s p = r then resetNetPort s r p else s) s1
  else s

/-- Check value units and monitors of a PF1 return to their reset values (R11, R577). -/
def resetChecks (s : State) (r : Nat) : State :=
  let s1 := (s.wx.units.filter (fun u => cvOwner u.1 == r)).foldl (fun s u => (cvAbort u.1 s).modCv u.1 (fun _ => {})) s
  (s1.wx.mons.filter (fun m => monOwner m.1 == r)).foldl (fun s m => s.modMon m.1 (fun _ => {})) s1

/-- Registers of a function at their reset values (R11, R478). -/
def resetRegs (s : State) (r : Nat) : State :=
  resetChecks (resetPorts (resetSets (resetQuotas ((s.modFn r resetFn).modPath r (fun _ => {})) r) r) r) r

/-- A function of state CLEAN starts its next incarnation (Table 14-4). -/
def startFn (s : State) (r : Nat) : State :=
  let s1 := s.modFn r (fun f => { f with st := .active, gen := nextGen f.gen, rearm := false })
  match ctrlOf r with
  | some c => if bitAt (s1.ctl c).cc 0 then ctrlStart s1 c else s1
  | none => s1

/-- Whether a VF exists under its PF's VF Enable and NumVFs. -/
def vfThere (s : State) (r : Nat) : Bool := (s.fn (pfOf r)).vfEnable && decide (vfNo r < (s.fn (pfOf r)).numVfs)

/-- The function is drained: its registers are reset, the loss is reported, and it enters CLEAN, OFF or, with rearm, ACTIVE
again; PF0 never stays in CLEAN (R476, R478, R479, R495). -/
def drained (s : State) (r : Nat) : State :=
  let f := s.fn r
  if f.st ≠ .draining then s
  else
    let s1 := if f.intx = 0#2048 then s else emit s (.intx r false)
    let s2 := resetRegs s1 r
    let s3 := match ctrlOf r with
      | none => s2
      | some c => if f.rearm ∨ f.cause = 9 then s2 else s2.modCtl c (fun _ => {})
    let s4 := if isLoss r f.cause then
        postAll s3 bothPf0 0x0202 r (f.cause + (f.rings.filter (fun q => q.2.st == .orphaned)).length * 2 ^ 16)
      else s3
    if f.drainVfOff && !vfThere s r then s4.modFn r (fun f => { f with st := .off, rearm := false })
    else
      let s5 := if f.cause = 3 ∨ f.cause = 4 ∨ f.drainVfOff then emit s4 (.readiness r) else s4
      if f.rearm ∨ isPf0 r then startFn s5 r else s5

/-- A shut-down of a function by a cause; `reads` says that reads of its host memory are outstanding, so that it drains
on (R477, R478). A CLEAN VF whose VF Enable is cleared is OFF at once (DEDUCED, log 19). -/
def shutDown (s : State) (r cause : Nat) (reads : Bool) : State :=
  let f := s.fn r
  if f.st = .active ∨ f.st = .frozen ∨ f.st = .saved then
    let s0 := s.modFn r (fun f => { f with
      st := .draining, cause := cause, drainStart := s.vcycle, drainVfOff := cause == 8, dirBusy := false, dirAct := none,
      dirStatus := if f.dirBusy then 0x0B else f.dirStatus, freeze := none, leaseArmed := false, dirty := none })
    let s1 := match f.freeze with | some ref => finish s0 ref 0x81 0 0 | none => s0
    let s2 := match ctrlOf r with | some c => ctrlStop s1 c | none => s1
    let s3 := if isLoss r cause then loseDriver s2 r cause else releaseAll s2 r
    if reads then s3 else drained s3 r
  else if cause = 8 ∧ f.st = .draining then s.modFn r (fun f => { f with drainVfOff := true })
  else if cause = 8 ∧ f.st = .clean then s.modFn r (fun f => { f with st := .off })
  else s

/-- FN_CTRL.enable (R477, R541, Table 14-4); PF2 and its VFs are enabled by CC.EN. -/
def doEnable (r : Nat) (s : State) : State :=
  if isPf2 r || isVf2 r then s
  else match (s.fn r).st with
    | .clean => startFn s r
    | .draining => s.modFn r (fun f => { f with rearm := true })
    | .off => if s.power.stage < 4 ∧ isPf0 r = false then s.modFn r (fun f => { f with waitEnable := true }) else s
    | _ => s

def execFunctionEnable (fn : Nat) (s : State) : Host.Outcome State Fault Refusal := .next (gated fn (.functionEnable fn) (doEnable fn) s)

/-- FN_CTRL.shutdown, and enable after it where both are set (R477). -/
def doFnShutdown (r : Nat) (keep enable reads : Bool) (s : State) : State :=
  let s1 := shutDown s r (if keep then 2 else 1) reads
  if enable then doEnable r s1 else s1

def execFunctionShutdown (fn : Nat) (keep enable reads : Bool) (s : State) : Host.Outcome State Fault Refusal :=
  .next (gated fn (.functionShutdown fn keep enable reads) (doFnShutdown fn keep enable reads) s)

/-- Function Level Reset, by a configuration write (cause 3). -/
def execFlr (fn : Nat) (reads : Bool) (s : State) : Host.Outcome State Fault Refusal := .next (configWrite fn (fun s => shutDown s fn 3 reads) s)

/-- Hot reset, PERST# or link down of an endpoint: each of its functions (cause 4). -/
def doHotReset (ep : Nat) (reads : List Nat) (s : State) : State :=
  s.fns.foldl (fun s p => if epOf p.1 = ep ∧ isFn p.1 = true then shutDown s p.1 4 (reads.contains p.1) else s) s

def execHotReset (ep : Nat) (reads : List Nat) (s : State) : Host.Outcome State Fault Refusal := .next (doHotReset ep reads s)

/-- Bus Master Enable cleared (cause 6). -/
def execBusMasterClear (fn : Nat) (reads : Bool) (s : State) : Host.Outcome State Fault Refusal :=
  .next (configWrite fn (fun s => shutDown (s.modFn fn (fun f => { f with busMaster := false })) fn 6 reads) s)

/-- Entry to D3hot (cause 7). -/
def execD3hotEntry (fn : Nat) (reads : Bool) (s : State) : Host.Outcome State Fault Refusal :=
  .next (configWrite fn (fun s => shutDown (s.modFn fn (fun f => { f with d3hot := true })) fn 7 reads) s)

/-- CC.EN from 1 to 0 (cause 9). -/
def doCcClear (r : Nat) (reads : Bool) (s : State) : State :=
  match ctrlOf r with
  | none => s
  | some c =>
    if !bitAt (s.ctl c).cc 0 then s
    else
      let s1 := s.modCtl c (fun k => { k with cc := setFld k.cc 0 1 0 })
      if (s.fn r).st = .off then s1.modFn r (fun f => { f with waitEnable := false })
      else if (s.fn r).st = .draining then s1.modFn r (fun f => { f with rearm := false })
      else shutDown s1 r 9 reads

def execCcEnClear (fn : Nat) (reads : Bool) (s : State) : Host.Outcome State Fault Refusal :=
  .next (gated fn (.ccEnClear fn reads) (doCcClear fn reads) s)

/-- Reads that were outstanding have ended (R478). -/
def execFunctionDrained (fn : Nat) (s : State) : Host.Outcome State Fault Refusal := .next (drained s fn)

/-- 50 ms into a drain, reads still outstanding are abandoned as timed out (R470, R478). -/
def doDrainBound (r : Nat) (s : State) : State :=
  if (s.fn r).st ≠ .draining then s
  else drained (logTimeout (advanceTo s ((s.fn r).drainStart + 50 * msCycles)) r) r

def execDrainBoundExpiry (fn : Nat) (s : State) : Host.Outcome State Fault Refusal := .next (doDrainBound fn s)

/-- left_ms has reached zero: cause 5 (R61). -/
def doLeaseExpiry (r : Nat) (reads : Bool) (s : State) : State :=
  let f := s.fn r
  if f.leaseArmed && f.st == .active then shutDown (advanceTo s (f.leaseFrom + f.leaseInForce * msCycles)) r 5 reads else s

def execLeaseExpiry (fn : Nat) (reads : Bool) (s : State) : Host.Outcome State Fault Refusal := .next (doLeaseExpiry fn reads s)

/-! ### Virtual functions (R465, R476, R486, R541) -/

/-- VF ranks of a PF. -/
def vfsOf (r n : Nat) : List Nat := (List.range n).map (fun k => if isPf1 r then vf1Of (epOf r) k else vf2Of (epOf r) k)

/-- VF Enable set with a NumVFs: VFs below it come from OFF to CLEAN; before stage 4 this waits (R465, R476, R541). -/
def doVfEnable (r n : Nat) (s : State) : State :=
  if !(isPf1 r || isPf2 r) ∨ (s.fn r).vfEnable then s
  else
    let s1 := s.modFn r (fun f => { f with vfEnable := true, numVfs := if n ≤ 256 then n else f.numVfs })
    if (s1.fn r).st = .off then s1
    else (vfsOf r (s1.fn r).numVfs).foldl (fun s v => s.modFn v (fun f => if f.st = .off then { f with st := .clean } else f)) s1

def execVfEnableSet (pf : Nat) (num : Nat) (s : State) : Host.Outcome State Fault Refusal := .next (configWrite pf (doVfEnable pf num) s)

/-- VF Enable cleared: each VF is released (cause 8). -/
def doVfDisable (r : Nat) (reads : List Nat) (s : State) : State :=
  if !(isPf1 r || isPf2 r) then s
  else
    let s1 := s.modFn r (fun f => { f with vfEnable := false })
    s1.fns.foldl (fun s p => if isVf p.1 ∧ pfOf p.1 = r then shutDown s p.1 8 (reads.contains p.1) else s) s1

def execVfEnableClear (pf : Nat) (reads : List Nat) (s : State) : Host.Outcome State Fault Refusal := .next (configWrite pf (doVfDisable pf reads) s)

/-- Every field of a quota lies within its maximum; fields of the other kind of PF are reserved (Table 14-11, R493). -/
def quotaOk (pf1 second : Bool) (v : Nat) : Bool :=
  if second then (if pf1 then decide (fld v 0 13 ≤ 4096) && decide (fld v 16 21 ≤ 1048576) else decide (fld v 40 8 ≤ 128))
  else !pf1 || (decide (fld v 0 5 ≤ 16) && decide (fld v 8 24 ≤ 8388606) && decide (fld v 32 20 ≤ 262144))

/-- The value a quota register takes: reserved bits stay zero, and fields of the other kind of PF stand (R493). -/
def quotaNext (pf1 second : Bool) (old v : Nat) : Nat :=
  if second then (if pf1 then setFld (setFld old 0 13 (fld v 0 13)) 16 21 (fld v 16 21) else setFld old 40 8 (fld v 40 8))
  else if pf1 then fld v 0 5 + fld v 8 24 * 2 ^ 8 + fld v 32 20 * 2 ^ 32 else old

/-- A write of a VF's quota (R486). -/
def doQuota (r n : Nat) (second : Bool) (v : Nat) (s : State) : State :=
  if !(isPf1 r || isPf2 r) ∨ !present s r ∨ 256 ≤ n ∨ !quotaOk (isPf1 r) second v then s
  else
    let w := if isPf1 r then vf1Of (epOf r) n else vf2Of (epOf r) n
    let f := s.fn w
    let a := if second then f.quotaA else BitVec.ofNat 64 (quotaNext (isPf1 r) false f.quotaA.toNat v)
    let b := if second then BitVec.ofNat 64 (quotaNext (isPf1 r) true f.quotaB.toNat v) else f.quotaB
    let s1 := s.modFn w (fun f => { f with quotaA := a, quotaB := b })
    if isPf1 r ∧ (a ≠ f.quotaA ∨ b ≠ f.quotaB) then postEvent s1 w 0x0201 w a.toNat else s1

def execVfQuotaWrite (pf : Nat) (vf : Nat) (second : Bool) (value : BitVec 64) (s : State) : Host.Outcome State Fault Refusal :=
  .next (gated pf (.vfQuotaWrite pf vf second value) (doQuota pf vf second value.toNat) s)

/-! ### Adoption and discard (R482 to R485) -/

def orphanEnd (s : State) (r status : Nat) : State := s.modFn r (fun f => { f with orphanStatus := status })

/-- An action needs an orphan set and an ACTIVE function (R485). -/
def orphanAct (s : State) (r : Nat) (act : State → State) : State :=
  if !present s r ∨ (s.fn r).orphan.isNone ∨ (s.fn r).st ≠ .active then (if present s r then orphanEnd s r 0x0B else s) else act s

/-- Orphaned ring pairs in ascending index. -/
def orphanRings (s : State) (r : Nat) : List (Nat × Ring) := (s.fn r).rings.filter (fun q => q.2.st == .orphaned)

/-- An adoption record (Table 14-6). -/
def adoptRecord (i : Nat) (q : Ring) : List Byte :=
  natLE 32 (i % 256 + q.ent.kind % 256 * 2 ^ 8 + q.cons % 2 ^ 24 * 2 ^ 32 + q.dropped % 2 ^ 32 * 2 ^ 64
    + (q.fetched.filter (fun e => e.res.isNone)).length % 2 ^ 32 * 2 ^ 96 + q.orphanedAt % 2 ^ 64 * 2 ^ 128)

/-- Entries read for the orphaned ring pairs: their statuses, or what they hold. -/
def adoptEntries (s : State) (r : Nat) : List (Nat × Ring) → List HRead → Except Nat (List (Nat × DirEntry))
  | [], _ => .ok []
  | (i, _) :: rest, reads =>
    match reads.head?.getD .timeout with
    | .ok bs =>
      if !entryOk s r i bs then .error 0x06
      else match adoptEntries s r rest (reads.drop 1) with
        | .error e => .error e
        | .ok es => .ok ((i, parseEntry bs) :: es)
    | _ => .error 0x03

/-- An orphaned ring pair restarts under its new entry, at its owning core, with indices 0 and phase 1 (R482). -/
def adoptRing (s : State) (r : Nat) (e : Nat × DirEntry) : State :=
  let s1 := s.modRing r e.1 (fun q => { ent := e.2, owner := q.owner, fetchNo := q.fetchNo, fetched := q.fetched,
                                        st := if e.2.enable then .enabled else .disabled })
  if e.2.enable then armLease s1 r else s1

/-- Adopt (R482, R483). -/
def doAdopt (r : Nat) (reads : List HRead) (s : State) : State :=
  orphanAct s r (fun s =>
    let f := s.fn r
    let rs := orphanRings s r
    if !f.dirCommitted then orphanEnd s r 0x07
    else
      let s1 := if rs.isEmpty then s else hostWrite s r (f.orphanAddr / 64 * 64) (rs.flatMap (fun q => adoptRecord q.1 q.2))
      match adoptEntries s1 r rs reads with
      | .error e => orphanEnd s1 r e
      | .ok es =>
        let s2 := passObjects s1 r (fun g => g != f.gen) f.gen
        let s3 := es.foldl (fun s e => adoptRing s r e) s2
        orphanEnd (s3.modFn r (fun f => { f with orphan := none })) r 0)

def execOrphanAdopt (fn : Nat) (entries : List HRead) (s : State) : Host.Outcome State Fault Refusal :=
  .next (gated fn (.orphanAdopt fn entries) (doAdopt fn entries) s)

/-- Discard (R484). -/
def execOrphanDiscard (fn : Nat) (s : State) : Host.Outcome State Fault Refusal :=
  .next (gated fn (.orphanDiscard fn) (fun s => orphanAct s fn (fun s => orphanEnd (discardSet s fn false) fn 0)) s)

/-- FN_ORPHAN_HOLD seconds after the shut-down the set is discarded (R484). -/
def doHoldExpiry (r : Nat) (s : State) : State :=
  match (s.fn r).orphan with
  | none => s
  | some o => discardSet (advanceTo s (o.at_ + (s.fn r).orphanHold * 1000 * msCycles)) r true

def execOrphanHoldExpiry (fn : Nat) (s : State) : Host.Outcome State Fault Refusal := .next (doHoldExpiry fn s)

end Sys2Proof.Machine
end

