-- ==== Sys2Proof/Machine/Power.lean ====
section
/-!
DEFINITION. Power domains, shutters and reopens, rails and sensors, profiles, the envelope and the temperature limits (16:
R516 to R537, R544 to R546), and laser units in their cages (19: R594).
-/
namespace Sys2Proof.Machine

def State.dom (s : State) (d : Nat) : Dom := mget s.doms d {}
def State.modDom (s : State) (d : Nat) (f : Dom → Dom) : State := { s with doms := mset s.doms d (f (s.dom d)) {} }
def State.modPow (s : State) (f : Power → Power) : State := { s with power := f s.power }

/-- Events of Table 16-16 go to both PF0s, and from stage 4 to both PF1s (R546). -/
def postPd (s : State) (code src result : Nat) : State :=
  postAll s (bothPf0 ++ (if 4 ≤ s.power.stage then bothPf1 else [])) code src result

/-! ### Domains by kind (R524, Table 6-3, Table 16-6) -/

inductive PowUnit where
  | xpt | mov | sum | sealing | sto | ctl | mem | apt | npt | stack | oe | laser
deriving DecidableEq, Repr

/-- Kind of a domain, and the unit's number among its kind. -/
def unitOf (d : Nat) : PowUnit × Nat :=
  let q := d % 42
  let h := d / 42
  if 100 ≤ d then (.laser, d - 100) else if 92 ≤ d then (.oe, d - 92) else if 84 ≤ d then (.stack, d - 84)
  else if q < 8 then (.xpt, 8 * h + q) else if q < 16 then (.mov, 8 * h + (q - 8)) else if q < 22 then (.sum, 6 * h + (q - 16))
  else if q < 26 then (.sealing, 4 * h + (q - 22)) else if q < 30 then (.sto, 4 * h + (q - 26)) else if q < 32 then (.ctl, 2 * h + (q - 30))
  else if q < 36 then (.mem, 4 * h + (q - 32)) else if q < 40 then (.apt, 4 * h + (q - 36)) else (.npt, 2 * h + (q - 40))

/-- Engine tiles, whose work a shutter drains (R530, R531). -/
def drains (u : PowUnit) : Bool := u == .mov || u == .sum || u == .sealing || u == .sto || u == .ctl
def isTile (d : Nat) : Bool := decide (d < 84)

/-- Accelerator ports and network ports that a domain serves (Table 1-3). -/
def portsOf (d : Nat) : List Nat × List Nat :=
  let u := unitOf d
  match u.1 with
  | .xpt => ([], [u.2])
  | .apt => ([u.2], [])
  | .npt => ([], [4 * u.2, 4 * u.2 + 1, 4 * u.2 + 2, 4 * u.2 + 3])
  | .oe => ([u.2], [2 * u.2, 2 * u.2 + 1])
  | .laser => ([u.2], [2 * u.2, 2 * u.2 + 1])
  | _ => ([], [])

/-- The rail that a domain alone draws on (Table 16-2). -/
def railOf (d : Nat) : Option Nat := if d < 84 then none else some (d - 84 + 5)

/-- Domains on a rail (R517). -/
def onRail (rail : Nat) : List Nat :=
  if rail = 1 then List.range 108 else if rail = 3 then List.range 42 else if rail = 4 then (List.range 42).map (42 + ·)
  else if 5 ≤ rail ∧ rail ≤ 28 then [rail - 5 + 84] else []

/-- Every rail that feeds a domain is on. -/
def railsUp (s : State) (d : Nat) : Bool := s.power.condition == 0 && !s.power.railsOff.any (fun r => (onRail r).contains d)

/-- Temperature limit that the limits table gives a domain, °C (R523). -/
def limitOf (d : Nat) : Nat := if d < 84 then 105 else if d < 92 then 95 else if d < 100 then 80 else 70

/-- Highest frequency of a limit controller's clock, MHz: CCLK in Gale, CTLCLK, KCLK (R518, Table 16-12). -/
def limitMhz (k : Nat) : Nat := if k = 108 then 1600 else if k = 109 then 1200 else if k < 84 then 2200 else 0

/-- The limit controllers load the limits table at power-good; nothing changes what they hold until the next (R215). -/
def loadLimits (s : State) : State :=
  s.modPow (fun w => { w with limits := (List.range 110).map (fun k => (k, { mv := (Config.limitMv k).toNat, mhz := limitMhz k, temp := limitOf k })) })

/-- The temperature limit that a domain's limit controller holds; the table's own value before it is loaded (R215, R523). -/
def tempLimit (s : State) (d : Nat) : Nat := match oget s.power.limits d with | some l => l.temp | none => limitOf d

/-- A core rail's voltage is that of a profile (R518, R520). -/
def setRail (s : State) (rail p : Nat) : State := s.modPow (fun w => { w with railMv := mset w.railMv rail (Config.profileMv p).toNat 0 })
def setRails (s : State) (p : Nat) : State := setRail (setRail s 3 p) 4 p

/-! ### Conditions (R527, R528, Tables 16-8 and 16-9) -/

/-- Entry to ON: the refusal code, or 0. -/
def enterCode (s : State) (d : Nat) : Nat :=
  let u := unitOf d
  match u.1 with
  | .apt => if domOn s (92 + u.2) then 0 else 4
  | .xpt => if domOn s (nptTile u.2) then 0 else 4
  | .stack => if domOn s (memDom u.2) then 0 else 1
  | .laser => if domOn s (92 + u.2) && !s.power.noLaser.contains u.2 then 0 else 4
  | _ => 0

/-- The ports of a domain are SHUT, and its network ports hold nothing. -/
def portsQuiet (s : State) (d : Nat) : Bool :=
  (portsOf d).1.all (fun p => (s.port p).st == .shut) && (portsOf d).2.all (fun p => !portInUse s p)

/-- No function other than PF0 is ACTIVE, and no PF0 ring pair but the commanding one is ENABLED (Table 16-8; the event
ring and the commanding pair do not count, log 21). -/
def stackQuiet (s : State) (ref : Option DRef) : Bool :=
  s.fns.all (fun p => isPf0 p.1 || p.2.st != .active)
  && (allRings s).all (fun q => !isPf0 q.1 || q.2.1 == 0 || q.2.2.st != .enabled || ref.any (fun x => x.fn == q.1 && x.ring == q.2.1))

/-- Another tile of an engine tile's kind is in service on the node. -/
def sibling (s : State) (d : Nat) : Bool :=
  (List.range 84).any (fun e => e != d && (unitOf e).1 == (unitOf d).1 && inService s e)

/-- Leaving ON: the refusal code, or 0. -/
def leaveCode (s : State) (d : Nat) (ref : Option DRef) : Nat :=
  let u := unitOf d
  match u.1 with
  | .mem => if (s.dom (stackDom u.2)).power = 2 then 4 else 0
  | .stack => if stackQuiet s ref then 0 else 1
  | .oe => if portsQuiet s d && !domOn s (100 + u.2) then 0 else 4
  | .mov | .sum | .sealing | .sto | .ctl => if sibling s d then 0 else 4
  | _ => if portsQuiet s d then 0 else 4

/-- A PF1 may act on a domain: it owns every port that the domain serves, and installer policy does not exclude all of an
optical domain's ports (code 5; the reading of "excludes" is DEDUCED, log 21). -/
def domRole (s : State) (r d : Nat) : Bool :=
  let p := portsOf d
  !isPf1 r
  || (p.1.all (fun a => ownerOf s a == r) && p.2.all (fun n => netOwner s n == r)
      && (d < 92 || p.1.any (bitAt s.trust.shutterAp) || p.2.any (bitAt s.trust.shutterNp)))

/-- A refusal is counted, kept and posted (R528). -/
def refuseEntry (s : State) (d code wanted : Nat) : State :=
  let s1 := s.modPow (fun w => { w with refused := mset w.refused code (satAdd 32 (mget w.refused code 0) 1) 0 })
  postPd (s1.modDom d (fun k => { k with lastRefusal := code })) 0x4104 d (code + wanted * 8)

/-- A command is refused with 0x80 and the code. -/
def refused (s : State) (d code wanted : Nat) : CmdRes := badR (refuseEntry s d code wanted) 0x80 code

/-! ### What a unit loses (R11, R526, R534) -/

/-- Registers of a unit's own domain start over as it comes ON from OFF (R11). -/
def resetUnit (s : State) (d : Nat) : State :=
  let u := unitOf d
  match u.1 with
  | .apt => s.modPort u.2 (fun a => { ({} : APort) with rxLight := a.rxLight })
  | .xpt => (s.modRtile u.2 (fun x => { ({} : RdmaTile) with input := x.input })).modCtile u.2 (fun _ => {})
  | .npt => (portsOf d).2.foldl (fun s p =>
      (List.range 4).foldl (fun s i => s.modNetIf (4 * p + i) (fun _ => {})) (s.modNetPort p (fun _ => {}))) s
  | .sum => s.modSum u.2 (fun _ => {})
  | .sealing => s.modStile u.2 (fun k => { faulted := k.faulted, masked := k.masked, reason := k.reason, recoverUntil := k.recoverUntil })
  | .sto => s.modSto (fun x => { x with tiles := mset x.tiles u.2 {} {} })
  | .stack => s.modStk u.2 (fun _ => {})
  | _ => s

/-- A stack that goes OFF loses its contents (R507). -/
def loseStack (s : State) (n : Nat) : State := { s with stack := s.stack.filter (fun p => p.1 / 2 ^ 36 != n) }

/-- A stack's retirement ends with its stack. -/
def endRetirement (s : State) (n : Nat) : State :=
  match (s.stk n).retire with
  | none => s
  | some k => if k.running then finish (s.modStk n (fun x => { x with retire := none })) k.ref 0x0B 0 0 else s.modStk n (fun x => { x with retire := none })

/-- Network ports lose their light or their tile: their interfaces go down. -/
def netDown (s : State) (ps : List Nat) : State :=
  ps.foldl (fun s p => (List.range 4).foldl (fun s i => doLinkChange (4 * p + i) false s) (s.modNetPort p (fun x => { x with shuttersOpen := false }))) s

/-- Frames that wait in the queues of network ports end with 0x0B. -/
def dropFrames (s : State) (ps : List Nat) : State :=
  ps.foldl (fun s p =>
    let fs := (s.netPort p).txqs.flatMap (fun q => q.2.frames)
    fs.foldl (fun s f => match f.ref with | some x => finish s x 0x0B 0 0 | none => s)
      (s.modNetPort p (fun x => { x with txqs := x.txqs.map (fun q => (q.1, { q.2 with frames := [] })) }))) s

/-- Packets of an XPT tile are gone; work requests of its queue pairs end with 0x0B (R534). -/
def dropXpt (s : State) (t : Nat) : State :=
  let lanes := (s.ctile t).tx
  let s1 := (s.modCtile t (fun c => { c with rx := [], tx := [] })).modRtile t (fun x => { x with input := [] })
  let s2 := lanes.foldl (fun s l => match l.ref with | some x => finish s x 0x0B 0 0 | none => s) s1
  s2.rdma.qps.foldl (fun s q => if qpTile q.2 = t ∧ q.2.st ≠ .init then qpError s q.1 0x0B 0 else s) s2

/-- Commands that a STO tile was executing end with a path error, and its controllers are placed again (R442, R534). -/
def dropSto (s : State) (t : Nat) : State :=
  (s.sto.ctrls.filter (fun p => p.2.tile == some t)).foldl (fun s p =>
    let s1 := ((s.ctl p.1).cmds.filter (fun m => m.sq != 0)).foldl (fun s m => endNvm s p.1 m 0 0x06) s
    placeCtrl s1 p.1) s

/-- Work that a unit forced OFF held ends (R534). -/
def dropWork (s : State) (d : Nat) : State :=
  let u := unitOf d
  match u.1 with
  | .apt => goShut s u.2
  | .oe => netDown (goShut s u.2) (portsOf d).2
  | .laser => netDown (goShut s u.2) (portsOf d).2
  | .npt => dropFrames (netDown s (portsOf d).2) (portsOf d).2
  | .xpt => dropXpt s u.2
  | .sum => (ctxsOn s u.2).foldl (fun s c => failCtx s c.1 0x0B u.2) (cvAbortSum s u.2)
  | .mov => s.kv.plans.foldl (fun s q => (q.2.moves.filter (fun m => m.mov == d && moveActive m)).foldl (fun s m => failMove s q.1 m.block 0x0B) s) s
  | .sealing => repin s u.2
  | .sto => settleSto (dropSto s u.2)
  | .ctl => (List.range 16).foldl (fun s i =>
      let c := 16 * u.2 + i
      if (s.core c).st = .off then s
      else settleProg ((holdAll (breakLocks s c) c).modCore c (fun k => { k with act := .stopped, st := .failed, lastCause := 0x41, adopted := false }))) s
  | .stack => endRetirement (loseStack s u.2) u.2
  | .mem => endRetirement s u.2

/-! ### The end of a shutter or reopen (R530, R532) -/

/-- A shutter has ended: the domain is in its target state (R530). -/
def endShutter (s : State) (d target : Nat) (ref : Option DRef) : State :=
  let s1 := s.modDom d (fun k => { k with power := target, service := 0, forced := false, act := none, stopped := false })
  let s2 := if target = 0 ∧ (unitOf d).1 = .stack then loseStack s1 (unitOf d).2 else s1
  let g := (s2.dom d).gen
  let s3 := match ref with | some x => finish s2 x 0 g 0 | none => s2
  postPd s3 0x4102 d g

/-- Cores of a reopened CTL tile start; ring pairs that nobody could adopt run again (R236, R532). -/
def startCores (s : State) (t : Nat) : State :=
  (List.range 16).foldl (fun s i =>
    let c := 16 * t + i
    unholdAll (s.modCore c (fun k => { freshCore s c { k with newImage := false } with st := .running, stops := [], adopted := false })) c) s

/-- A unit is in service: its generation increments, steering includes it, the reopen completes (R532). -/
def endReopen (s : State) (d : Nat) (ref : Option DRef) : State :=
  let u := unitOf d
  let s1 := s.modDom d (fun k => { k with power := 2, service := 1, act := none, gen := (k.gen + 1) % 2 ^ 16, forced := false })
  let s2 := match u.1 with
    | .sealing =>
      let wasFault := (s.stile u.2).faulted
      settleMode (joinSteer (s1.modStile u.2 (fun k => { k with faulted := false, recoverUntil := if wasFault then s.vcycle + 1000 * msCycles else k.recoverUntil })) u.2) u.2
    | .ctl => startCores s1 u.2
    | .sto => settleSto s1
    | _ => s1
  let g := (s2.dom d).gen
  let s3 := match ref with | some x => finish s2 x 0 g 0 | none => s2
  postPd s3 0x4103 d g

/-- A request that its regulator does not acknowledge: the entry is aborted and the domain returns (R516, R528). -/
def abortEntry (s : State) (d code : Nat) (a : DomAct) : State :=
  let s1 := s.modDom d (fun k => { k with power := a.prev, service := if a.prev = 2 then 1 else 0, act := none })
  let s2 := refuseEntry s1 d code a.target
  match a.ref with | some x => finish s2 x 0x80 code 0 | none => s2

/-- A domain begins its transition, asking its regulator first where its rail is switched; a shorted bus refuses (R516,
R517). Entering and leaving RETAIN leaves the rail on. -/
def beginMove (s : State) (d : Nat) (a : DomAct) : State :=
  let ask := (railOf d).isSome && (a.target == 0 || a.prev == 0)
  if ask && s.power.busShort then abortEntry s d 2 a
  else s.modDom d (fun k => { k with power := 3, service := 0, act := some { a with step := if ask then .ack else .move, since := s.vcycle } })

/-- The work placed on a CLOSING tile has ended (R530, R531). -/
def drainedTile (s : State) (d : Nat) : Bool :=
  let u := unitOf d
  match u.1 with
  | .mov => !s.kv.plans.any (fun q => q.2.moves.any (fun m => m.mov == d && moveActive m))
  | .sum => (ctxsOn s u.2).isEmpty
  | .sto => !s.sto.ctrls.any (fun p => p.2.tile == some u.2 && p.2.cmds.any (fun m => m.sq != 0))
  | .ctl => (List.range 16).all (fun i => (s.core (16 * u.2 + i)).st == .off)
  | _ => true

/-- A tile stops taking work: the new steering leaves it out, and a CTL tile's cores hand their ring pairs over (R531). -/
def closeTile (s : State) (d : Nat) (a : DomAct) : State :=
  let u := unitOf d
  let s1 := s.modDom d (fun k => { k with service := 2, act := some { a with step := .drain, since := s.vcycle } })
  match u.1 with
  | .sum => cvAbortSum s1 u.2
  | .sealing => repin s1 u.2
  | .sto => settleSto ((s1.sto.ctrls.filter (fun p => p.2.tile == some u.2)).foldl (fun s p => replace s p.1) s1)
  | .ctl => (List.range 16).foldl (fun s i =>
      let c := 16 * u.2 + i
      match (s.core c).st with
      | .running => askDrain s c
      | .draining => s
      | .off => s
      | _ => settleProg ((moveLaunches (moveComms (passRings (breakLocks s c) c).1 c) c).modCore c (fun k => { k with st := .off, act := .stopped, launches := [] }))) s1
  | _ => s1

/-! ### UNIT_SHUTTER and UNIT_REOPEN (R530 to R533, R544) -/

/-- The shutter of a domain, once it does not wait for a reopen. -/
def shutter (s : State) (r d target : Nat) (ref : Option DRef) : CmdRes :=
  let k := s.dom d
  if k.power = 3 ∨ k.act.isSome = true ∨ (k.power = 2 ∧ k.service ≠ 1) then refused s d 1 target
  else if k.power = 2 ∧ leaveCode s d ref ≠ 0 then refused s d (leaveCode s d ref) target
  else if !domRole s r d then refused s d 5 target
  else if k.power ≠ 2 then later (endShutter s d target ref)
  else
    let a : DomAct := { target := target, prev := 2, ref := ref }
    if drains (unitOf d).1 then later (closeTile s d a) else later (beginMove s d a)

def unitShutter (r fs : Nat) (ref : DRef) (s : State) : CmdRes :=
  let d := fld fs 64 7
  let t := fld fs 71 2
  if 108 ≤ d ∨ (t ≠ 1 ∧ t ≠ 2) then bad s 0x06
  else exclusive s r 0x41 d t (fun s =>
    let target := if t = 1 then 1 else 0
    if (s.dom d).act.any (·.reopen) then later (s.modDom d (fun k => { k with waiting := k.waiting ++ [(ref, target)] }))
    else shutter s r d target (some ref))

def execUnitShutter (fn ring : Nat) (s : State) : Host.Outcome State Fault Refusal :=
  .next (inRankOrder fn ring (fun s => onDesc s fn ring 0x41 0x01 (fun d ref s => unitShutter fn d ref s)) s)

/-- Shutters that waited for a reopen run (R533). -/
def runWaiting (s : State) (d : Nat) : State :=
  (s.dom d).waiting.foldl (fun s w =>
    match shutter s w.1.fn d w.2 (some w.1) with
    | (s1, some (st, res, spec)) => finish s1 w.1 st res spec
    | (s1, none) => s1) (s.modDom d (fun k => { k with waiting := [] }))

/-- A tile that is CLOSING returns to service (R533). -/
def unclose (s : State) (d : Nat) (a : DomAct) : State :=
  let u := unitOf d
  let s1 := s.modDom d (fun k => { k with service := 1, act := none })
  let s2 := match u.1 with
    | .sealing => joinSteer s1 u.2
    | .sto => settleSto s1
    | .ctl => (List.range 16).foldl (fun s i =>
        let c := 16 * u.2 + i
        if (s.core c).st = .draining then (keeperWord (keeperWord s c 2) c 0).modCore c (fun k => { k with st := .running })
        else if (s.core c).st = .off then s.modCore c (fun k => { freshCore s c k with st := .running })
        else s) s1
    | _ => s1
  match a.ref with | some x => finish s2 x 0x08 0 0 | none => s2

/-- UNIT_REOPEN of a domain at a temperature, °C (R532, R533). -/
def unitReopen (r fs temp : Nat) (ref : DRef) (s : State) : CmdRes :=
  let d := fld fs 64 7
  if 108 ≤ d ∨ fld fs 71 2 ≠ 0 then bad s 0x06
  else exclusive s r 0x41 d 3 (fun s =>
    let k := s.dom d
    match k.act with
    | some a =>
      if a.step = .drain ∧ domRole s r d = true then okR (unclose s d a) k.gen
      else refused s d (if domRole s r d then 1 else 5) 2
    | none =>
      if k.power = 2 then bad s 0x82
      else if tempLimit s d ≤ temp + 5 then refused s d 3 2
      else if enterCode s d ≠ 0 then refused s d (enterCode s d) 2
      else if !domRole s r d then refused s d 5 2
      else if !railsUp s d then refused s d 2 2
      else later (beginMove s d { reopen := true, target := 2, prev := k.power, ref := some ref }))

def execUnitReopen (fn ring temp : Nat) (s : State) : Host.Outcome State Fault Refusal :=
  .next (inRankOrder fn ring (fun s => onDesc s fn ring 0x41 0x02 (fun d ref s => unitReopen fn d temp ref s)) s)

/-- The last work of a CLOSING tile has ended: it writes back and enters the target state (R526, R530). -/
def doDrainComplete (d : Nat) (s : State) : State :=
  match (s.dom d).act with
  | none => s
  | some a => if a.step = .drain ∧ drainedTile s d = true then beginMove s d a else s

def execShutterDrainComplete (domain : Nat) (s : State) : Host.Outcome State Fault Refusal := .next (doDrainComplete domain s)

/-- 100 ms into the hand-off of a CTL tile: the shutter fails with code 1 (R531). -/
def doHandoffBound (d : Nat) (s : State) : State :=
  match (s.dom d).act with
  | none => s
  | some a =>
    if a.step ≠ .drain ∨ (unitOf d).1 ≠ .ctl ∨ drainedTile s d = true then s
    else
      let s1 := advanceTo s (a.since + 100 * msCycles)
      let s2 := (List.range 16).foldl (fun s i =>
        let c := 16 * (unitOf d).2 + i
        if (s.core c).st = .draining then (keeperWord s c 2).modCore c (fun k => { k with st := .running }) else s) s1
      abortEntry s2 d 1 a

def execCtlHandoffTimeout (domain : Nat) (s : State) : Host.Outcome State Fault Refusal := .next (doHandoffBound domain s)

/-- Vestibule periods of a transition (Table 16-7). -/
def moveCycles (d : Nat) (a : DomAct) : Nat :=
  let on := a.target == 2
  match (unitOf d).1 with
  | .stack => if on && a.prev == 0 then 1200 * msCycles else 30 * usCycles
  | .oe => if on then (if a.prev = 0 then 1500 * msCycles else 5 * msCycles) else msCycles
  | .laser => if on then (if a.prev = 0 then 1500 * msCycles else 50 * msCycles) else msCycles
  | _ => if on then (if a.prev = 0 then 200 * usCycles else 20 * usCycles) else 10 * usCycles

/-- A self-test begins with the tile ON (R532). -/
def beginTest (s : State) (d : Nat) (a : DomAct) : State :=
  let s1 := s.modDom d (fun k => { k with power := 2, service := 3, act := some { a with step := .test, since := s.vcycle } })
  if (unitOf d).1 = .sealing then settleMode s1 (unitOf d).2 else s1

/-- The keeper reopens a SEAL tile that it has shuttered for a fault (R428). -/
def afterShutter (s : State) (d : Nat) : State :=
  let u := unitOf d
  if u.1 = .sealing ∧ (s.stile u.2).faulted = true ∧ (s.dom d).power = 0 then beginMove s d { reopen := true, target := 2, prev := 0 } else s

/-- A domain's transition completes (R525). -/
def doTransition (d : Nat) (s : State) : State :=
  match (s.dom d).act with
  | none => s
  | some a =>
    if a.step ≠ .move then s
    else
      let s1 := advanceTo s (a.since + moveCycles d a)
      if !a.reopen then afterShutter (endShutter s1 d a.target a.ref) d
      else
        let s2 := if a.prev = 0 then resetUnit s1 d else s1
        if isTile d then beginTest s2 d a else runWaiting (endReopen s2 d a.ref) d

def execDomainTransitionComplete (domain : Nat) (s : State) : Host.Outcome State Fault Refusal := .next (doTransition domain s)

/-- A tile's self-test ends; `failed` is 0, or the test that failed (R532, Table 12-11). -/
def doSelfTest (d failed : Nat) (s : State) : State :=
  match (s.dom d).act with
  | none => s
  | some a =>
    if a.step ≠ .test then s
    else if failed = 0 then runWaiting (endReopen s d a.ref) d
    else
      let u := unitOf d
      let s1 := postPd (s.modDom d (fun k => { k with power := 0, service := 0, act := none })) 0x410C d 0
      let s2 := if u.1 = .sealing then settleMode (postAll (s1.modStile u.2 (fun k => { k with faulted := false })) bothPf1 0x2303 u.2 failed) u.2 else s1
      runWaiting (match a.ref with | some x => finish s2 x 0x81 0 0 | none => s2) d

def execSelfTestComplete (domain failed : Nat) (s : State) : Host.Outcome State Fault Refusal := .next (doSelfTest domain failed s)

/-- A SEAL tile detects a fault: it takes no work, and its keeper shutters it to reopen it (R428). -/
def doSealFault (t : Nat) (s : State) : State :=
  let d := sealDom t
  if 8 ≤ t ∨ inService s d = false then s
  else
    let s1 := s.modStile t (fun k => { k with faulted := true })
    if leaveCode s1 d none ≠ 0 then refuseEntry s1 d (leaveCode s1 d none) 0
    else closeTile s1 d { target := 0, prev := 2 }

def execSealTileFault (tile8 : Nat) (s : State) : Host.Outcome State Fault Refusal := .next (doSealFault tile8 s)

/-! ### Forced shutters, rails and sensors (R515 to R517, R534) -/

/-- A domain goes OFF at once, without drain; an entry under way is aborted with a code. -/
def cutDomain (s : State) (d code : Nat) (forced : Bool) : State :=
  let k := s.dom d
  if k.power = 0 then s
  else
    let s1 := dropWork (s.modDom d (fun k => { k with power := 0, service := 0, forced := forced, act := none, stopped := false })) d
    let s2 := match k.act with
      | none => s1
      | some a =>
        let s2 := if a.reopen then refuseEntry s1 d code 2 else s1
        match a.ref with
        | none => s2
        | some x => if a.reopen then finish s2 x 0x80 code 0 else finish s2 x 0 k.gen 0
    let s3 := if (unitOf d).1 = .sealing then settleMode s2 (unitOf d).2 else s2
    runWaiting (if forced then postPd s3 0x4102 d (k.gen + 2 ^ 16) else s3) d

def forceOff (s : State) (d code : Nat) : State := cutDomain s d code true

/-- A rail shorts or takes too much: it is switched off with every domain on it (R517). -/
def doRailFault (rail status : Nat) (s : State) : State :=
  if 29 ≤ rail ∨ s.power.railsOff.contains rail then s
  else
    let s1 := s.modPow (fun w => { w with railsOff := rail :: w.railsOff })
    postPd ((onRail rail).foldl (fun s d => forceOff s d 2) s1) 0x4106 rail (status % 2 ^ 16)

def execRailFault (rail : Nat) (status : BitVec 16) (s : State) : Host.Outcome State Fault Refusal := .next (doRailFault rail status.toNat s)

/-- Input current above 28 A for 10 ms shuts VBUS down as a rail fault (R515). -/
def execBusOvercurrent (status : BitVec 16) (s : State) : Host.Outcome State Fault Refusal := .next (doRailFault 1 status.toNat s)

/-- Domains whose requests wait on a rail. -/
def onAck (s : State) (rail : Nat) : List (Nat × DomAct) :=
  s.doms.filterMap (fun p => p.2.act.bind (fun a => if a.step = .ack ∧ railOf p.1 = some rail then some (p.1, a) else none))

/-- Open sense line, open thermal sensor, shorted bus line (R517): kinds 1 to 3. -/
def doSensorFault (kind which : Nat) (s : State) : State :=
  if kind < 1 ∨ 3 < kind then s
  else
    let s1 := if kind = 3 then
        (s.doms.filterMap (fun p => p.2.act.bind (fun a => if a.step = .ack then some (p.1, a) else none))).foldl (fun s q => abortEntry s q.1 2 q.2)
          (s.modPow (fun w => { w with busShort := true, busAt := s.vcycle }))
      else s
    postPd s1 0x4109 0 (kind + which % 256 * 256)

def execSensorFault (kind which : Nat) (s : State) : Host.Outcome State Fault Refusal := .next (doSensorFault kind which s)

/-- SMBus recovery, every 35 ms while a line is shorted (R517). -/
def doBusRecovery (ok : Bool) (s : State) : State :=
  if !s.power.busShort then s
  else
    let s1 := advanceTo s (s.power.busAt + 35 * msCycles)
    s1.modPow (fun w => { w with busShort := !ok, busAt := s1.vcycle })

def execBusRecovery (ok : Bool) (s : State) : Host.Outcome State Fault Refusal := .next (doBusRecovery ok s)

/-! ### Profiles (R518 to R523) -/

/-- Envelope of a profile, W (Table 16-4), and the effective one (R521). -/
def envelopeOf (p : Nat) : Nat := if p = 0 then 600 else if p = 1 then 850 else 1100
def effective (s : State) (p : Nat) : Nat := if s.power.watts = 0 then envelopeOf p else min s.power.watts (envelopeOf p)

/-- A change begins: a raise asks for voltage first, a lower switches CCLK first (Table 16-5). -/
def beginChange (s : State) (target reason : Nat) : State :=
  let up := decide (s.power.inForce < target)
  s.modPow (fun w => { w with reason := 4, retryAt := if up then none else w.retryAt, retryAcks := if up then [] else w.retryAcks, change := some { target := target, reason := reason, step := if up then .raiseAck else .lowerTick, acks := if up then [3, 4] else [], since := s.vcycle } })

/-- With no change under way, an automatic lower that waits follows at once, else a selection that differs is taken up,
unless an automatic lower holds the profile (R520, R523). -/
def nextChange (s : State) : State :=
  let w := s.power
  if w.change.isSome ∨ w.stage < 4 then s
  else match w.lowerNext with
    | some r =>
      let s1 := s.modPow (fun w => { w with lowerNext := none })
      if w.inForce = 0 then s1 else beginChange s1 (w.inForce - 1) r
    | none =>
      if w.selected < w.inForce then beginChange s w.selected 0
      else if w.inForce < w.selected ∧ w.reason = 0 then beginChange s w.selected 0
      else if w.inForce = w.selected ∧ w.reason ≠ 0 then s.modPow (fun w => { w with reason := 0 })
      else s

/-- The profile in force is updated and posted (Table 16-5). -/
def profileIs (s : State) (target reason : Nat) : State :=
  let s1 := s.modPow (fun w => { w with inForce := target, reason := reason, change := none })
  postPd s1 0x4101 0 (target + reason * 4)

def endChange (s : State) (target reason : Nat) : State := nextChange (profileIs s target reason)

/-- A commit tick switches CCLK where a change waits for it (Table 16-5). -/
def tickProfile (s : State) : State :=
  match s.power.change with
  | none => s
  | some c =>
    match c.step with
    | .raiseTick => endChange s c.target c.reason
    | .lowerTick => s.modPow (fun w => { w with change := some { c with step := .lowerAck, acks := [3, 4], since := s.vcycle } })
    | _ => s

/-- PD_PROFILE.selected is written and applied at a tick (R519, R520). -/
def setProfile (v : Nat) (s : State) : State :=
  let p := fld v 0 2
  let s1 := if bitAt v 7 then s.modPow (fun w => { w with profileBad := false }) else s
  if p = 3 ∨ s.trust.ceiling < p then s1.modPow (fun w => { w with profileBad := true })
  else
    let auto := s1.power.reason = 1 ∨ s1.power.reason = 2
    let s2 := s1.modPow (fun w => { w with selected := p })
    if auto ∧ s1.power.inForce < p then s2 else nextChange s2

/-- PD_ENVELOPE.watts is written and applied at a tick (R521). -/
def setEnvelope (v : Nat) (s : State) : State :=
  let s1 := if bitAt v 11 then s.modPow (fun w => { w with wattsBad := false }) else s
  if envelopeOf s.power.selected < fld v 0 11 then s1.modPow (fun w => { w with wattsBad := true })
  else s1.modPow (fun w => { w with watts := fld v 0 11 })

def setRetainMask (d v : Nat) (s : State) : State := if d < 108 then s.modDom d (fun k => { k with retain := v % 2 ^ 32 }) else s

/-- A core rail acknowledges, or a change's last one has. -/
def ackChange (s : State) (rail : Nat) : State :=
  match s.power.change with
  | none => s
  | some c =>
    let c' : Change := { c with acks := c.acks.filter (· != rail) }
    if !c.acks.contains rail then s
    else
    let s := setRail s rail c.target
    if !c'.acks.isEmpty then s.modPow (fun w => { w with change := some c' })
    else match c.step with
      | .raiseAck => s.modPow (fun w => { w with change := some { c' with step := .settle } })
      | .lowerAck => endChange s c.target c.reason
      | _ => s

/-- A regulator acknowledges its request (R516). -/
def doAck (rail : Nat) (s : State) : State :=
  let s1 := (onAck s rail).foldl (fun s q => s.modDom q.1 (fun k => { k with act := some { q.2 with step := .move, since := s.vcycle } })) s
  if rail = 3 ∨ rail = 4 then
    let s2 := if s1.power.retryAcks.contains rail then setRail s1 rail s1.power.inForce else s1
    ackChange (s2.modPow (fun w =>
      let left := w.retryAcks.filter (· != rail)
      { w with retryAcks := left, retryAt := if w.retryAcks.contains rail && left.isEmpty then none else w.retryAt })) rail
  else s1

def execRegulatorAck (rail : Nat) (s : State) : Host.Outcome State Fault Refusal := .next (doAck rail s)

/-- Counts a missed acknowledgement of a core rail (R520). -/
def missAck (s : State) : State := s.modPow (fun w => { w with refused := mset w.refused 2 (satAdd 32 (mget w.refused 2 0) 1) 0 })

/-- 500 µs pass without an acknowledgement (R516, R520). -/
def doAckTimeout16 (rail : Nat) (s : State) : State :=
  let s1 := (onAck s rail).foldl (fun s q => abortEntry (advanceTo s (q.2.since + 500 * usCycles)) q.1 2 q.2) s
  if rail ≠ 3 ∧ rail ≠ 4 then s1
  else
    let s2 := if s1.power.retryAcks.contains rail then
        (missAck s1).modPow (fun w => { w with retryAcks := [], retryAt := some (s1.vcycle + 1000 * msCycles) })
      else s1
    match s2.power.change with
    | none => s2
    | some c =>
      if !c.acks.contains rail then s2
      else
        let s3 := missAck (advanceTo s2 (c.since + 500 * usCycles))
        match c.step with
        | .raiseAck => nextChange ((setRails s3 s3.power.inForce).modPow (fun w => { w with change := none, selected := w.inForce, reason := 0 }))
        | _ => endChange (s3.modPow (fun w => { w with retryAt := some (s3.vcycle + 1000 * msCycles), retryAcks := [] })) c.target c.reason

def execRegulatorAckTimeout (rail : Nat) (s : State) : Host.Outcome State Fault Refusal := .next (doAckTimeout16 rail s)

/-- Both core rails have settled: CCLK switches at the next tick (Table 16-5). -/
def doSettled (s : State) : State :=
  match s.power.change with
  | none => s
  | some c => if c.step = .settle then s.modPow (fun w => { w with change := some { c with step := .raiseTick } }) else s

def execRailsSettled (s : State) : Host.Outcome State Fault Refusal := .next (doSettled s)

/-- A second after a miss during a lower, the voltage is asked for again (R520). -/
def doRetry (s : State) : State :=
  match s.power.retryAt with
  | none => s
  | some t => (advanceTo s t).modPow (fun w => { w with retryAcks := [3, 4] })

def execVoltageRetry (s : State) : Host.Outcome State Fault Refusal := .next (doRetry s)

/-- The profile lowers by one step for a reason: at once, or after the raise under way (R522, R523). -/
def autoLower (s : State) (reason : Nat) : State :=
  match s.power.change with
  | some c => if s.power.inForce < c.target then s.modPow (fun w => { w with lowerNext := some reason }) else s
  | none => if s.power.inForce = 0 then s else beginChange s (s.power.inForce - 1) reason

/-- The average input power has exceeded the envelope for 10 ms (R522). -/
def doExceeded (watts : Nat) (s : State) : State :=
  if s.power.stage < 4 ∨ watts ≤ effective s s.power.inForce then s
  else if 0 < s.power.inForce then autoLower s 1
  else
    let s1 := match s.power.exceededAt with | some t => advanceTo s (t + 1000 * msCycles) | none => s
    postPd (s1.modPow (fun w => { w with exceededAt := some s1.vcycle })) 0x4108 0 (watts % 2 ^ 11)

def execEnvelopeExceeded (watts : Nat) (s : State) : Host.Outcome State Fault Refusal := .next (doExceeded watts s)

/-- The profile rises by one step after an automatic lower. -/
def autoRaise (s : State) (reason : Nat) : State :=
  let w := s.power
  if w.change.isSome ∨ w.reason ≠ reason ∨ w.selected ≤ w.inForce then s
  else beginChange s (w.inForce + 1) (if w.inForce + 1 = w.selected then 0 else reason)

/-- For 1 s the average has stayed below 80% of the next profile's envelope (R522). -/
def doEnvRaise (watts : Nat) (s : State) : State :=
  if 5 * watts < 4 * effective s (s.power.inForce + 1) then autoRaise s 1 else s

def execEnvelopeRaise (watts : Nat) (s : State) : Host.Outcome State Fault Refusal := .next (doEnvRaise watts s)

/-! ### Temperature (R523) -/

/-- Every 100 ms while a domain is within 5 °C of its limit. -/
def doNear (d temp : Nat) (s : State) : State :=
  if 108 ≤ d ∨ s.power.stage < 4 ∨ temp + 5 < tempLimit s d then s
  else
    let s1 := match s.power.thermalAt with | some t => advanceTo s (t + 100 * msCycles) | none => s
    autoLower (s1.modPow (fun w => { w with thermalAt := some s1.vcycle })) 2

def execThermalNearLimit (domain temp : Nat) (s : State) : Host.Outcome State Fault Refusal := .next (doNear domain temp s)

/-- Every domain has stayed 10 °C below its limit for 1 s. -/
def execThermalRaise (s : State) : Host.Outcome State Fault Refusal :=
  .next (autoRaise (s.modPow (fun w => { w with thermalAt := none })) 2)

/-- A domain reaches its limit: its clock stops. -/
def doLimit (d temp : Nat) (s : State) : State :=
  if (s.dom d).power ≠ 2 ∨ (s.dom d).stopped = true ∨ temp < tempLimit s d then s
  else postPd (s.modDom d (fun k => { k with stopped := true, stoppedAt := s.vcycle })) 0x4105 d (temp % 256)

def execThermalLimit (domain temp : Nat) (s : State) : Host.Outcome State Fault Refusal := .next (doLimit domain temp s)

/-- 10 ms at its limit with its clock stopped. -/
def doTrip (d : Nat) (s : State) : State :=
  if (s.dom d).stopped then forceOff (advanceTo s ((s.dom d).stoppedAt + 10 * msCycles)) d 3 else s

def execThermalTrip (domain : Nat) (s : State) : Host.Outcome State Fault Refusal := .next (doTrip domain s)

/-- A domain has cooled by 5 °C: its clock runs again. -/
def execThermalCooled (domain : Nat) (s : State) : Host.Outcome State Fault Refusal :=
  .next (s.modDom domain (fun k => { k with stopped := false }))

/-! ### Crossings and laser units (R537, R594) -/

/-- A dual-clock queue overruns: bit 4r + s, and the operation that carried the word ends with 0x0B, where it is a ring
command (R537). -/
def doOverrun (bit : Nat) (op : DRef) (s : State) : State :=
  if 36 ≤ bit ∨ bit % 4 = 3 then s
  else
    let s1 := s.modPow (fun w => { w with cdc := if bitAt w.cdc bit then w.cdc else w.cdc + 2 ^ bit })
    let live := (s.ring op.fn op.ring).fetched.any (fun e => e.seq == op.seq && e.started && e.res.isNone)
    postPd (if live then finish s1 op 0x0B 0 0 else s1) 0x410A 0 bit

def execCdcOverrun (bit fn ring seq : Nat) (s : State) : Host.Outcome State Fault Refusal :=
  .next (doOverrun bit { fn := fn, ring := ring, seq := seq } s)

/-- A laser unit leaves its cage; where its domain is not OFF it is forced OFF (R594). -/
def doLaserOut (n : Nat) (s : State) : State :=
  if 8 ≤ n ∨ s.power.noLaser.contains n then s else forceOff (s.modPow (fun w => { w with noLaser := n :: w.noLaser })) (100 + n) 4

def execLaserUnitRemove (laser : Nat) (s : State) : Host.Outcome State Fault Refusal := .next (doLaserOut laser s)

/-- A laser unit is inserted and stays OFF (R594). -/
def execLaserUnitInsert (laser : Nat) (s : State) : Host.Outcome State Fault Refusal :=
  .next (s.modPow (fun w => { w with noLaser := w.noLaser.filter (· != laser) }))

end Sys2Proof.Machine
end

