-- ==== Sys2Proof/Machine/Boot.lean ====
section
/-!
DEFINITION. Starts and restarts (16: R514, R539 to R543; 17: R551 to R554, R567; 06: R238; 08: R297): the ROM chain, the
stages, warm restarts, loss of power, input faults, faults of the flash, and the ROM's restart of the keepers.
-/
namespace Sys2Proof.Machine

/-! ### Image sets (R551, R552) -/

/-- Status of a set: 0 where it is valid, else the first check of R552 that it fails (Table 17-9). The factory's own set
carries the maker's signature and no countersignature (DESIGN CHOICE, log 22). -/
def setStatus (s : State) (x : ImageSet) : Nat :=
  let maker := x.factory || (sha256 x.makerPub == Config.romRoot && lmsVerify x.makerPub x.makerSig x.signed)
  let counter := match s.trust.installer with
    | none => true
    | some k => hssVerify k.pub x.counterSig (sha256 (x.signed ++ x.makerSig))
  if !maker || !counter then 0x80
  else if x.security < s.trust.minSecurity then 0x81
  else if !x.digestsOk then 0x82 else 0

/-- A set on a device that serves (R551). -/
def setIn (s : State) (k : Nat) : Option ImageSet := if s.trust.flashBad.contains k then none else oget s.trust.sets k
def setGood (s : State) (k : Nat) : Bool := (setIn s k).any (fun x => setStatus s x == 0)

/-- SHA-256 of a set's manifest. -/
def manifestDigest (x : ImageSet) : List Byte :=
  if x.factory then (Config.factoryDigest ++ List.replicate 32 0#8).take 32 else sha256 (x.signed ++ x.makerSig ++ x.counterSig)

/-- Components as a set's images give them; the generations stand. -/
def loadComps (s : State) (x : ImageSet) (ids : Nat → Bool) : State :=
  { s with fw := { s.fw with comps := (x.comps.filter (fun c => ids c.id)).foldl (fun m c =>
      mset m c.id { gen := (mget m c.id {}).gen, version := c.version, handoff := c.handoff, digest := c.digest, code := c.code, data := c.data, regions := c.regions, evec := c.evec } {}) s.fw.comps } }

/-- A device fails to read or program (R551). -/
def doFlashFault (device : Nat) (s : State) : State :=
  if 2 ≤ device ∨ s.trust.flashBad.contains device then s
  else postTrust (s.modTrust (fun t => { t with flashBad := device :: t.flashBad, staged := t.staged && device == t.activeSet })) 0x4206 device

def execFlashFault (device : Nat) (s : State) : Host.Outcome State Fault Refusal := .next (doFlashFault device s)

/-! ### The ROM chain (R553, R554, R567) -/

/-- Set that the ROM starts from: the selected one, or the other where it fails a check. -/
def romChoice (s : State) (want : Nat) : Option Nat :=
  if setGood s want then some want else if setGood s (1 - want) then some (1 - want) else none

/-- The ROM starts from a set, another one than was selected by a fallback; that set is then the active one. -/
def bootFrom (s : State) (k : Nat) (fallback : Bool) : State :=
  let s1 := s.modTrust (fun t => if fallback then { t with activeSet := k, trial := false, attempts := 0, staged := false, fallback := true } else t)
  let s2 := if fallback then auditOwn s1 0x0304 k else s1
  let s3 := match setIn s2 k with | some x => loadComps s2 x (fun _ => true) | none => s2
  startKeeper (startKeeper { s3 with fw := { s3.fw with active := 0 } } 0) 1

/-- The trust area at power-good: boot count, leaves, a failed attempt of a trial (R553, R560, R567). -/
def readTrust (s : State) : State :=
  reserveLeaves (s.modTrust (fun t => { t with
    bootCount := (t.bootCount + 1) % 2 ^ 32, nextLeaf := t.leafEnd, leavesLow := false, debugScope := 0, consent := none
    attempts := if t.trial && t.trying then min 3 (t.attempts + 1) else t.attempts }))

/-- Power-good (R553). -/
def doPowerGood (s : State) : State :=
  if s.power.romDone then s
  else
    let s1 := loadLimits <| readTrust ({ s with clock := { at_ := s.vcycle } }.modPow (fun w => { w with romDone := true, startAt := s.vcycle }))
    let t := s1.trust
    let giveUp := t.trial && decide (3 ≤ t.attempts)
    let want := if giveUp then 1 - t.activeSet else t.activeSet
    match romChoice s1 want with
    | none => auditOwn (s1.modTrust (fun t => { t with recovery := true })) 0x0303 0
    | some k =>
      let s2 := bootFrom s1 k (k != t.activeSet)
      s2.modTrust (fun t => { t with trying := t.trial })

def execPowerGood (s : State) : Host.Outcome State Fault Refusal := .next (doPowerGood s)

/-- The input falls below 36 V: everything but the flash and the pins is lost (Table 16-1, R297, R551). -/
def doPowerLoss (s : State) : State :=
  let t := s.trust
  { State.reset with
    pending := s.pending, out := s.out, freeCtr := s.freeCtr
    power := { State.reset.power with noLaser := s.power.noLaser }
    trust := { State.reset.trust with
      installer := t.installer, operator := t.operator, policy := t.policy, ceiling := t.ceiling, shutterAp := t.shutterAp
      shutterNp := t.shutterNp, bootCount := t.bootCount, minSecurity := t.minSecurity, activeSet := t.activeSet
      trial := t.trial, attempts := t.attempts, trying := t.trying, sets := t.sets, staged := t.staged
      nextLeaf := t.nextLeaf, leafEnd := t.leafEnd, seq := t.seq, head := t.head, records := t.records, flashBad := t.flashBad } }

def execPowerLoss (s : State) : Host.Outcome State Fault Refusal := .next (doPowerLoss s)

/-! ### Warm restart (R540) -/

/-- Descriptors that wait for a domain end with it. -/
def endDomCommands (s : State) : State :=
  s.doms.foldl (fun s p =>
    let refs := (p.2.act.bind (·.ref)).toList ++ p.2.waiting.map (·.1)
    refs.foldl (fun s x => finish s x 0x0B 0 0) s) s

/-- Every function but PF0 is shut down, its orphan set is discarded, and it is OFF. -/
def stopFns (s : State) : State :=
  let rs := (s.fns.map (·.1)).filter (fun r => isFn r && !isPf0 r)
  let s1 := rs.foldl (fun s r => shutDown s r 4 false) s
  let s2 := rs.foldl (fun s r => discardSet s r false) s1
  rs.foldl (fun s r => s.modFn r (fun f => { f with st := .off, rings := [] })) s2

/-- Everything outside the vestibule starts over. Laser units keep their place, receivers their light; loaded programs stand
in the vestibule's image store (R227), and reloads are counted since power-good (R230). -/
def clearNode (s : State) : State :=
  { s with
    stack := [], kv := {}, rdma := {}, cls := {}, sealing := {}, sto := {}, ck := [], red := {}, fabric := {}, stks := []
    memCap := State.reset.memCap, memCeLimit := State.reset.memCeLimit
    net := { waits := s.net.waits.filter (fun w => isPf0 w.ref.fn) }
    ports := s.ports.map (fun p => (p.1, { ({} : APort) with rxLight := p.2.rxLight }))
    cores := s.cores.map (fun p => if 64 ≤ p.1 then p else (p.1, { ({} : Core) with restarts := p.2.restarts }))
    fw := { s.fw with comms := [], locks := [], tsm := [], progWaits := [], repl := none }
    wx := { s.wx with units := [], mons := [] }
    doms := s.doms.map (fun p => (p.1, { ({} : Dom) with gen := p.2.gen, retain := p.2.retain, lastRefusal := p.2.lastRefusal })) }

/-- An activation under way ends with the restart. -/
def dropActivation (s : State) : State :=
  match s.trust.act with
  | none => s
  | some a =>
    let s1 := s.modTrust (fun t => { t with act := none })
    match a.from_ with
    | .ring ref => finish s1 ref 0x0B 0 0
    | .session n => answer s1 n 0x0B []

/-- CAP_CHANGED for every block of a function whose disabled bit differs from what it was in `old` (R33, R541, Table 16-14). -/
def capsChanged (old : State) (s : State) (r : Nat) : State :=
  (capsOf old r).foldl (fun s c => if capOn old r c != capOn s r c then postEvent s r 0x0101 0 c else s) s

/-- The disabled bits of the physical functions follow the stage reached. -/
def capChanged (old : State) (s : State) : State := [1, 2, 4, 5].foldl (capsChanged old) s

/-- A warm restart (R540): the vestibule, the host links, PF0, PTP time and the keepers stay up. -/
def warmRestart (s : State) : State :=
  let s1 := clearNode (stopFns (endDomCommands (dropActivation s)))
  let s2 := s1.modPow (fun w => { w with
    stage := 0, warm := true, held := false, fault := false, startAt := s.vcycle, times := [], inForce := 0, reason := 3
    change := none, lowerNext := none, retryAt := none, retryAcks := [], exceededAt := none, thermalAt := none
    condition := 0, railsOff := [], railMv := [] })
  let s3 := s2.modTrust (fun t => { t with
    pendingWarm := false, attempts := if t.trial && t.trying then min 3 (t.attempts + 1) else t.attempts, trying := t.trial })
  let s4 := match setIn s3 s3.trust.activeSet with | some x => loadComps s3 x (· == 0x10) | none => s3
  capChanged s (settleModes s4)

/-! ### The input (R514, R598) -/

/-- VBUS goes off: every domain of the core dies, stacks and optics is OFF; the vestibule keeps the safe function. -/
def inputFault (condition mv : Nat) (s : State) : State :=
  if s.power.condition = condition ∨ s.power.romDone = false then s
  else
    let s1 := s.modPow (fun w => { w with condition := condition })
    postPd ((List.range 108).foldl (fun s d => cutDomain s d 2 false) s1) 0x4107 0 (condition + mv / 10 % 2 ^ 16 * 2 ^ 16)

/-- Below 42 V, above the 36 V at which the module turns off. -/
def execInputUndervoltage (mv : Nat) (s : State) : Host.Outcome State Fault Refusal :=
  .next (if 36000 ≤ mv ∧ mv < 42000 then inputFault 1 mv s else s)

/-- Above 64.5 V; above 80 V the manual specifies no behaviour (R598). -/
def execInputOvervoltage (mv : Nat) (s : State) : Host.Outcome State Fault Refusal :=
  if 80000 < mv then .fault .aboveAbsoluteMaximum
  else .next (if 64500 < mv then inputFault 2 mv s else s)

/-- The input is back: at 44 V rising, or at 63.5 V falling. -/
def doInputReturn (mv : Nat) (s : State) : State :=
  let back := (s.power.condition == 1 && decide (44000 ≤ mv) && decide (mv ≤ 64500)) || (s.power.condition == 2 && decide (44000 ≤ mv) && decide (mv ≤ 63500))
  if back then warmRestart s else s

def execInputReturn (mv : Nat) (s : State) : Host.Outcome State Fault Refusal := .next (doInputReturn mv s)

/-! ### Staged start (R539 to R543) -/

/-- An installer policy and an enrolled operator key are present (R26, R542). -/
def permitted (s : State) : Bool := s.trust.policy && s.trust.operator.isSome

/-- A domain comes ON and into service at its stage, unless its test fails or what it depends on is missing. -/
def bringUp (failed : List Nat) (s : State) (d : Nat) : State :=
  if failed.contains d then postPd s 0x410C d 0
  else if enterCode s d ≠ 0 ∨ (s.dom d).power ≠ 0 then s
  else
    let s1 := s.modDom d (fun k => { k with power := 2, service := 1, forced := false })
    if (unitOf d).1 = .ctl then startCores s1 (unitOf d).2 else s1

def domsOf (u : PowUnit) : List Nat := (List.range 108).filter (fun d => (unitOf d).1 == u)

/-- Tiles of stage 1: all but MEM and APT; an XPT tile follows its NPT tile. -/
def stageOneDoms : List Nat :=
  domsOf .npt ++ domsOf .xpt ++ domsOf .mov ++ domsOf .sum ++ domsOf .sealing ++ domsOf .sto ++ domsOf .ctl

/-- One tile of each engine kind is in service (R16, R543). -/
def enginesOk (s : State) : Bool :=
  [PowUnit.xpt, .mov, .sum, .sealing, .sto].all (fun u => (domsOf u).any (inService s))

/-- A start stops: the vestibule keeps the safe function (R543). -/
def startFault (s : State) : State := s.modPow (fun w => { w with fault := true })

/-- A stage is reached: its time, and STAGE_REACHED. -/
def reachStage (s : State) (k : Nat) : State :=
  let s1 := s.modPow (fun w => { w with stage := k, started := true, times := mset w.times k ((s.vcycle - w.startAt) / msCycles) 0 })
  postPd s1 0x410B 0 k

/-- Shutters open where installer policy lets them (R70, R539, R542). -/
def openShutters (s : State) : State :=
  let s1 := (List.range 16).foldl (fun s p => if bitAt s.trust.shutterNp p && domOn s (92 + p / 2) && domOn s (100 + p / 2) then s.modNetPort p (fun x => { x with shuttersOpen := true }) else s) s
  (List.range 8).foldl tryOpen s1

/-- START_STATUS.held: stage 4 is withheld (R542). -/
def settleHeld (s : State) : State := s.modPow (fun w => { w with held := w.started && w.stage == 3 && !w.fault && !permitted s })

/-- Enables that were held take effect (R541). -/
def releaseEnables (s : State) : State :=
  s.fns.foldl (fun s p =>
    if (s.fn p.1).waitEnable ∧ (s.fn p.1).st = .clean then startFn (s.modFn p.1 (fun f => { f with waitEnable := false })) p.1 else s) s

/-- PF1 and PF2 go to CLEAN, with their VFs (Table 14-4, Table 16-14). -/
def enterStage4 (s : State) : State :=
  let s1 := [4, 5, 6, 7].foldl (fun s r => s.modFn r (fun f => { f with st := if f.st = .off then .clean else f.st })) s
  let s2 := [4, 5, 6, 7].foldl (fun s r => if (s.fn r).vfEnable then
    (vfsOf r (s.fn r).numVfs).foldl (fun s v => s.modFn v (fun f => if f.st = .off then { f with st := .clean } else f)) s else s) s1
  let s3 := (s2.modTrust (fun t => { t with attempts := 0, trying := false })).modPow (fun w => { w with held := false, reason := 0 })
  nextChange (settleModes (openShutters (releaseEnables s3)))

/-- The keepers assign every control core that has started its journal (R232). -/
def assignJournals (s : State) : State :=
  { s with cores := s.cores.map (fun p => if p.1 < 64 ∧ p.2.st ≠ .off then (p.1, { p.2 with journaled := true }) else p) }

/-- The work of the next stage is done; stage 1 sets the core rails to the Calm voltage: `failed` are the domains that failed, `die` says that a core die did (R539, R543). -/
def doStage (failed : List Nat) (die : Bool) (s : State) : State :=
  let w := s.power
  if w.romDone = false ∨ w.fault = true ∨ w.condition ≠ 0 then s
  else if !w.started then
    let s1 := startFn (startFn (reachStage s 0) 1) 2
    if s1.trust.fallback then postTrust (s1.modTrust (fun t => { t with fallback := false })) 0x4201 s1.trust.activeSet else s1
  else if s.trust.recovery || !activeUp s then s
  else match w.stage with
    | 0 =>
      if die then startFault s
      else
        let s1 := stageOneDoms.foldl (bringUp failed) (setRails s 0)
        if enginesOk s1 then capChanged s (reachStage (settleSto s1) 1) else startFault s1
    | 1 =>
      let s1 := (domsOf .stack).foldl (bringUp failed) ((domsOf .mem).foldl (bringUp failed) s)
      if (domsOf .stack).all (inService s1) then capChanged s (reachStage (assignJournals { s1 with stack := [] }) 2) else startFault s1
    | 2 =>
      let s1 := (domsOf .apt).foldl (bringUp failed) ((domsOf .laser).foldl (bringUp failed) ((domsOf .oe).foldl (bringUp failed) s))
      let s2 := reachStage s1 3
      settleHeld (if permitted s then openShutters s2 else s2)
    | 3 => if permitted s then capChanged s (reachStage (enterStage4 (s.modPow (fun w => { w with stage := 4 }))) 4) else settleHeld s
    | _ => s

def execStageReached (failed : List Nat) (die : Bool) (s : State) : Host.Outcome State Fault Refusal := .next (doStage failed die s)

/-! ### The ROM's restart of the keepers (R238, R553) -/

/-- Both keepers run again within 200 ms: KEEPER is verified anew, DK0 is active, PF0's ring pairs leave HELD. -/
def doKeepersBack (s : State) : State :=
  if !s.fw.bothDown then s
  else match romChoice s s.trust.activeSet with
    | none => s
    | some k =>
      let old := s.fw.active
      let s1 := bootFrom { s with fw := { s.fw with bothDown := false, romRestarts := satAdd 8 s.fw.romRestarts 1 } } k (k != s.trust.activeSet)
      let s2 := if old = 0 then unholdAll s1 64 else takePf0Rings s1 1 0
      if s2.trust.fallback then postTrust (s2.modTrust (fun t => { t with fallback := false })) 0x4201 s2.trust.activeSet else s2

def execKeeperRomRestartComplete (s : State) : Host.Outcome State Fault Refusal := .next (doKeepersBack s)

end Sys2Proof.Machine
end

