-- ==== Sys2Proof/Machine/Parse.lean ====
section
/-!
DEFINITION. Parsing of packets (10: R357 to R364): graph 0 and custom graphs, the fields they extract, the symmetric
hash and lookup keys.
-/
namespace Sys2Proof.Machine

/-- Headers of graph 0 (Table 10-1). -/
inductive Hdr where
  | eth | stag | ctag | mpls | ip4 | ip6 | ext | frag | udp | tcp | gre | vxlan | geneve | esp | bth
deriving DecidableEq, Repr

/-- What a pass parsed: header lengths in order, fields by ID, and how the parse ended: 0 normally, 1 stopped at its depth,
2 parse error (R358, R360). -/
structure Parsed where
  lens : List Nat := []
  fields : NMap (List Byte) := []
  stop : Nat := 0
deriving DecidableEq, Repr

def u8 (b : List Byte) (o : Nat) : Nat := beNat (sliceB b o 1)
def u16 (b : List Byte) (o : Nat) : Nat := beNat (sliceB b o 2)

/-- Bytes that must be present before a header's length is known, and so its least length. -/
def hdrMin : Hdr → Nat
  | .eth => 14 | .stag => 4 | .ctag => 4 | .mpls => 4 | .ip4 => 20 | .ip6 => 40 | .ext => 8 | .frag => 8 | .udp => 8
  | .tcp => 20 | .gre => 4 | .vxlan => 8 | .geneve => 8 | .esp => 8 | .bth => 12

/-- Length of a header at an offset (Table 10-1). -/
def hdrLen (b : List Byte) (h : Hdr) (o : Nat) : Nat :=
  match h with
  | .ip4 => u8 b o % 16 * 4
  | .ext => (u8 b (o + 1) + 1) * 8
  | .tcp => u8 b (o + 12) / 16 * 4
  | .gre => 4 + 4 * (b2n (bitAt (u8 b o) 7) + b2n (bitAt (u8 b o) 5) + b2n (bitAt (u8 b o) 4))
  | .geneve => 8 + u8 b o % 64 * 4
  | h => hdrMin h

def byEther (t : Nat) : Option Hdr :=
  if t = 0x8100 then some .ctag else if t = 0x88A8 then some .stag else if t = 0x0800 then some .ip4
  else if t = 0x86DD then some .ip6 else if t = 0x8847 then some .mpls else none

def byProto (p : Nat) : Option Hdr :=
  if p = 6 then some .tcp else if p = 17 then some .udp else if p = 47 then some .gre else if p = 50 then some .esp
  else if p = 4 then some .ip4 else if p = 41 then some .ip6 else none

def byNext6 (p : Nat) : Option Hdr := if p = 0 ∨ p = 43 ∨ p = 60 then some .ext else if p = 44 then some .frag else byProto p

/-- The header that follows (Table 10-1). -/
def hdrNext (b : List Byte) (h : Hdr) (o : Nat) : Option Hdr :=
  match h with
  | .eth => byEther (u16 b (o + 12))
  | .stag => byEther (u16 b (o + 2))
  | .ctag => byEther (u16 b (o + 2))
  | .mpls =>
    if bitAt (u8 b (o + 2)) 0 then
      (if u8 b (o + 4) / 16 = 4 ∧ o + 4 < b.length then some .ip4 else if u8 b (o + 4) / 16 = 6 then some .ip6 else none)
    else some .mpls
  | .ip4 => if u16 b (o + 6) % 2 ^ 13 ≠ 0 then none else byProto (u8 b (o + 9))
  | .ip6 => byNext6 (u8 b (o + 6))
  | .ext => byNext6 (u8 b o)
  | .frag => if u16 b (o + 2) / 8 = 0 then byNext6 (u8 b o) else none
  | .udp =>
    let p := u16 b (o + 2)
    if p = 4789 then some .vxlan else if p = 6081 then some .geneve else if p = 4791 then some .bth else none
  | .tcp => none
  | .gre => if u16 b (o + 2) = 0x6558 then some .eth else byEther (u16 b (o + 2))
  | .vxlan => some .eth
  | .geneve => if u16 b (o + 2) = 0x6558 then some .eth else byEther (u16 b (o + 2))
  | .esp => none
  | .bth => none

/-- A pass over the headers of graph 0, at most 12 and at most 512 bytes (R358). -/
def walk0 (b : List Byte) : Nat → List (Hdr × Nat × Nat) → Hdr → Nat → List (Hdr × Nat × Nat) × Nat
  | 0, acc, _, _ => (acc, 1)
  | fuel + 1, acc, h, o =>
    let len := hdrLen b h o
    if 512 < o + hdrMin h then (acc, 1)
    else if b.length < o + hdrMin h then (acc, 2)
    else if len < hdrMin h then (acc, 2)
    else if 512 < o + len then (acc, 1)
    else if b.length < o + len then (acc, 2)
    else match hdrNext b h o with
      | none => (acc ++ [(h, o, len)], 0)
      | some h' => walk0 b fuel (acc ++ [(h, o, len)]) h' (o + len)

/-- Final next header of an IPv6 header and the extensions behind it. -/
def final6 (b : List Byte) : Nat → List (Hdr × Nat × Nat) → Nat
  | _, (.ext, o, _) :: r => final6 b (u8 b o) r
  | _, (.frag, o, _) :: r => final6 b (u8 b o) r
  | nh, _ => nh

def v4Mapped (a : List Byte) : List Byte := List.replicate 10 0#8 ++ [0xFF#8, 0xFF#8] ++ a

/-- EtherType behind the last tag of the outermost Ethernet header. -/
def lastEther (b : List Byte) : List (Hdr × Nat × Nat) → List Byte
  | (.eth, _, _) :: (.ctag, o1, l1) :: r => lastEther b ((.ctag, o1, l1) :: r)
  | (.eth, _, _) :: (.stag, o1, l1) :: r => lastEther b ((.ctag, o1, l1) :: r)
  | (.eth, o, _) :: _ => sliceB b (o + 12) 2
  | (.ctag, _, _) :: (.ctag, o1, l1) :: r => lastEther b ((.ctag, o1, l1) :: r)
  | (.ctag, _, _) :: (.stag, o1, l1) :: r => lastEther b ((.ctag, o1, l1) :: r)
  | (.ctag, o, _) :: _ => sliceB b (o + 2) 2
  | _ => []

def firstH (hs : List (Hdr × Nat × Nat)) (p : Hdr → Bool) : Option (Hdr × Nat × Nat) := hs.find? (fun x => p x.1)

/-- Fields of graph 0 (Table 10-2). -/
def fields0 (b : List Byte) (hs : List (Hdr × Nat × Nat)) (meta_ : Option Nat) : NMap (List Byte) :=
  let tags := hs.filter (fun x => x.1 == .ctag || x.1 == .stag)
  let vid (o : Nat) : List Byte := natBE 2 (u16 b o % 4096)
  let tagF (k id : Nat) : NMap (List Byte) := match tags[k]? with | some (_, o, _) => [(id, vid o)] | none => []
  let rest := hs.dropWhile (fun x => !(x.1 == .ip4 || x.1 == .ip6))
  let ip : NMap (List Byte) := match rest with
    | (.ip4, o, _) :: _ => [(4, v4Mapped (sliceB b (o + 12) 4)), (5, v4Mapped (sliceB b (o + 16) 4)), (6, sliceB b (o + 9) 1), (7, natBE 1 (u8 b (o + 1) / 4))]
    | (.ip6, o, _) :: r => [(4, sliceB b (o + 8) 16), (5, sliceB b (o + 24) 16), (6, natBE 1 (final6 b (u8 b (o + 6)) r)), (7, natBE 1 (u16 b o / 64 % 64))]
    | _ => []
  let ip4 : NMap (List Byte) := match rest with
    | (.ip4, o, _) :: _ => [(0xF, sliceB b (o + 12) 4), (0x10, sliceB b (o + 16) 4)]
    | _ => []
  let ver : NMap (List Byte) := match rest with
    | (.ip4, _, _) :: _ => [(0x14, [4#8])]
    | (.ip6, _, _) :: _ => [(0x14, [6#8])]
    | _ => []
  let one (p : Hdr → Bool) (f : Nat → NMap (List Byte)) : NMap (List Byte) := match firstH hs p with | some (_, o, _) => f o | none => []
  tagF 0 1 ++ tagF 1 2 ++ (if hs.isEmpty then [] else [(3, lastEther b hs)]) ++ ip
  ++ one (fun h => h == .tcp || h == .udp) (fun o => [(8, sliceB b o 2), (9, sliceB b (o + 2) 2)])
  ++ one (· == .tcp) (fun o => [(0xA, sliceB b (o + 13) 1)])
  ++ one (fun h => h == .vxlan || h == .geneve) (fun o => [(0xB, sliceB b (o + 4) 3)])
  ++ one (· == .esp) (fun o => [(0xC, sliceB b o 4)])
  ++ one (· == .bth) (fun o => [(0xD, sliceB b (o + 5) 3)])
  ++ (match meta_ with | some m => [(0xE, natBE 4 m)] | none => [])
  ++ ip4
  ++ one (· == .eth) (fun o => [(0x11, sliceB b o 6)])
  ++ one (· == .gre) (fun o => if bitAt (u8 b o) 5 then [(0x12, sliceB b (o + 4 + 4 * b2n (bitAt (u8 b o) 7)) 4)] else [])
  ++ one (· == .mpls) (fun o => [(0x13, sliceB b o 3)]) ++ ver

def parse0 (b : List Byte) (meta_ : Option Nat) : Parsed :=
  let r := walk0 b 12 [] .eth 0
  { lens := r.1.map (fun x => x.2.2), fields := fields0 b r.1 meta_, stop := r.2 }

/-! ### Custom graphs (R359) -/

/-- Length of a node's header: fixed, plus a field of at most 8 bits shifted and multiplied. -/
def nodeLen (b : List Byte) (n : GNode) (o : Nat) : Nat :=
  n.fixed + (u8 b (o + n.lenOff) % 2 ^ n.lenBits) * 2 ^ n.lenShift * n.lenMul

def walkG (g : Graph) (b : List Byte) : Nat → List Nat → NMap (List Byte) → Nat → Nat → Parsed
  | 0, lens, fs, _, _ => { lens := lens, fields := fs, stop := 1 }
  | fuel + 1, lens, fs, k, o =>
    match g.nodes[k]? with
    | none => { lens := lens, fields := fs, stop := 0 }
    | some n =>
      let len := nodeLen b n o
      if 512 < o + max len n.fixed then { lens := lens, fields := fs, stop := 1 }
      else if b.length < o + len then { lens := lens, fields := fs, stop := 2 }
      else
        let fs' := fs ++ (n.extracts.filter (fun e => (oget fs e.1).isNone)).map (fun e => (e.1, sliceB b (o + e.2.1) e.2.2))
        match n.next.find? (fun c => c.1 == beNat (sliceB b (o + n.selOff) n.selBytes)) with
        | none => { lens := lens ++ [len], fields := fs', stop := 0 }
        | some c => walkG g b fuel (lens ++ [len]) fs' c.2 (o + len)

/-- The limits of a custom graph (R359). -/
def graphOk (g : Graph) : Bool :=
  !g.nodes.isEmpty && decide (g.nodes.length ≤ 64) && g.nodes.all (fun n => decide (n.next.length ≤ 16) && decide (n.extracts.length ≤ 8) && decide (n.lenBits ≤ 8)
    && n.next.all (fun c => decide (c.2 < g.nodes.length)))

/-- Parse with graph 0 or a custom graph. -/
def parseWith (g : Option Graph) (b : List Byte) (meta_ : Option Nat) : Parsed :=
  match g with
  | none => parse0 b meta_
  | some g => walkG g b 12 [] (match meta_ with | some m => [(0xE, natBE 4 m)] | none => []) 0 0

/-- Bytes of a field: graph 0's, or those a custom graph extracts; 0 for an ID that is none. -/
def fieldBytes (g : Option Graph) (id : Nat) : Nat :=
  match g with
  | none => lget [0, 2, 2, 2, 16, 16, 1, 1, 2, 2, 1, 3, 4, 3, 4, 4, 4, 6, 4, 3, 1] id 0
  | some g => if id = 0xE then 4 else ((g.nodes.flatMap (·.extracts)).find? (fun e => e.1 == id)).elim 0 (fun e => e.2.2)

/-! ### Hash and keys (R361 to R364) -/

/-- The lesser and the greater endpoint of a packet (R363). -/
def endpoints (fs : NMap (List Byte)) : List Byte × List Byte :=
  let port (id : Nat) : List Byte := (oget fs id).getD [0#8, 0#8]
  let a := (oget fs 4).getD [] ++ port 8
  let b := (oget fs 5).getD [] ++ port 9
  if beNat b < beNat a then (b, a) else (a, b)

def flowHash (fs : NMap (List Byte)) (seed : Nat) : Nat :=
  if (oget fs 4).isNone then 0
  else
    let e := endpoints fs
    crc32c (natBE 4 seed ++ e.1 ++ e.2 ++ (oget fs 6).getD [0#8])

/-- The key of a profile, as the number its 40 bytes give; `none` where it names an absent field (R361, R362, R364). -/
def buildKey (fs : NMap (List Byte)) (names : List Nat) (sym : Bool) : Option Nat :=
  if names.any (fun f => (oget fs f).isNone) then none
  else
    let swap := sym && names.contains 4 && names.contains 5
    let ports := swap && names.contains 8 && names.contains 9
    let e := endpoints fs
    let one (f : Nat) : List Byte :=
      if swap && f == 4 then e.1.take 16 else if swap && f == 5 then e.2.take 16
      else if ports && f == 8 then e.1.drop 16 else if ports && f == 9 then e.2.drop 16
      else (oget fs f).getD []
    some (leNat (names.flatMap one))

end Sys2Proof.Machine
end

