-- ==== Sys2Proof/Machine/Classify.lean ====
section
/-!
DEFINITION. The classifier (10): lanes and passes, lookups, actions, rule sets with their versions, entries and
comparators, graphs, LM-400 rules.
-/
namespace Sys2Proof.Machine

/-- Number of a port and direction: 32 × direction + port, transmit 1. -/
def bindNo (tx : Bool) (p : Nat) : Nat := (if tx then 32 else 0) + p

/-! ### Home core of a set (R377) -/

/-- The set that a descriptor of kind 0x21 or 0x60 acts on. -/
def setNamed (kind d : Nat) : Option Nat :=
  if (kind = 0x21 ∧ 4 ≤ fld d 0 8 ∧ fld d 0 8 ≤ 0xB) ∨ (kind = 0x60 ∧ fld d 0 8 = 1) then some (fld d 64 6) else none

/-- A ring pair of the function with a lower index has a command for the same set that waits to start too. -/
def behindRing (s : State) (r i : Nat) : Bool :=
  match startable s r i with
  | none => false
  | some e => (setNamed (s.ring r i).ent.kind e.desc.toNat).any (fun k =>
      (s.fn r).rings.any (fun q => decide (q.1 < i)
        && (startable s r q.1).any (fun e' => setNamed (s.ring r q.1).ent.kind e'.desc.toNat == some k)))

/-- The home core takes the commands for a set that wait together in ring pair index order (R377). -/
def inSetOrder (r i : Nat) (act : State → State) (s : State) : State := if behindRing s r i then s else act s

/-! ### Places of entries (R366, R374) -/

/-- The two candidate buckets of an entry. -/
def bucketsOf (stack : Bool) (profile key : Nat) : Nat × Nat :=
  let h (x : Byte) : Nat := crc32c (x :: BitVec.ofNat 8 profile :: natLE 40 key) % (if stack then 2 ^ 20 else 4096)
  (h 1#8, h 2#8)

/-- Entries of every set that lie in a bucket of a tile; the stack table is tile 16. -/
def bucketUse (s : State) (t b : Nat) : Nat :=
  s.cls.sets.foldl (fun n r => n + (r.2.entries.filter (fun e => oget e.places t == some b)).length) 0

def pickBucket (s : State) (t : Nat) (c : Nat × Nat) : Option Nat :=
  if bucketUse s t c.1 < 4 then some c.1 else if bucketUse s t c.2 < 4 then some c.2 else none

/-- Place an entry in each of some tiles. -/
def placeIn (s : State) (e : Entry) : List Nat → Option Entry
  | [] => some e
  | t :: rest =>
    if (oget e.places t).isSome then placeIn s e rest
    else match pickBucket s t (bucketsOf e.stack e.profile e.key) with
      | none => none
      | some b => placeIn s { e with places := oput e.places t b } rest

/-- Install a set's on-die entries in the tiles that a commit binds (R374). -/
def installAll : Nat → State → Nat → List Nat → Nat → Option State
  | 0, s, _, _, _ => some s
  | fuel + 1, s, k, tiles, i =>
    match oget s.cls.sets k with
    | none => some s
    | some r =>
      match r.entries[i]? with
      | none => some s
      | some e =>
        if e.stack || e.removed.isSome then installAll fuel s k tiles (i + 1)
        else match placeIn s e tiles with
          | none => none
          | some e' => installAll fuel (s.modSet k (fun r => { r with entries := r.entries.set i e' })) k tiles (i + 1)

/-! ### One pass (R353 to R371) -/

/-- Bits that an action word must leave zero, and codes it may not use (Table 10-3). -/
def actionOk (a : Nat) : Bool :=
  decide (fld a 0 3 ≤ 4) && decide (fld a 4 4 ≤ 8) && fld a 8 8 == 0 && fld a 48 2 != 3 && decide (fld a 68 4 ≤ 11) && fld a 85 3 == 0 && fld a 120 8 == 0

/-- A term holds when its field is present and in its range (R368). -/
def termHolds (fs : NMap (List Byte)) (t : Nat × Nat × Nat) : Bool :=
  match oget fs t.1 with
  | none => false
  | some b => decide (t.2.1 ≤ beNat b) && decide (beNat b ≤ t.2.2)

/-- The action of a pass: exact-match stages in order, range comparators, the default (R362, R368). -/
def lookup (r : RuleSet) (v : Nat) (ver : SetVer) (fs : NMap (List Byte)) : Nat :=
  let stage (i : Nat) : Option Nat :=
    let pn := lget ver.conf.stages i 0
    let p := lget ver.conf.profiles pn {}
    (buildKey fs p.fields p.sym).bind (fun key =>
      (r.entries.find? (fun e => e.profile == pn && e.key == key && entryIn e v)).map (·.action))
  match (List.range ver.conf.stages.length).findSome? stage with
  | some a => a
  | none => match ver.comps.find? (fun c => c.enabled && c.terms.all (termHolds fs)) with
    | some c => c.action
    | none => ver.conf.dflt

/-- A packet of the transmit lane is not sent: its TX_PACKET completes with 0x84 (R390). -/
def dropTx (s : State) (l : Lane) : State :=
  match l.ref with
  | some ref => finish s ref 0x84 0 0
  | none => s

def dropLane (s : State) (tx : Bool) (l : Lane) : State := if tx then dropTx s l else s

/-- A RoCEv2 packet goes to the transport, when its ICRC is good (R318, R356). -/
def toTransport (s : State) (j : Nat) (fr : List Byte) : State :=
  match parseRoce fr with
  | none => s
  | some (p, true) => s.modRtile (j / 4) (fun x => { x with input := x.input ++ [(j, p)] })
  | some (_, false) => s.modRtile (j / 4) (fun x => { x with icrcErr := satAdd 32 x.icrcErr 1 })

/-- No rule set is bound (R356). -/
def noSet (s : State) (t : Nat) (tx : Bool) (l : Lane) : State :=
  if tx then joinTx s l.iface { bytes := l.bytes, ref := l.ref, stamp := l.stamp, qpn := l.qpn, resp := l.resp }
  else if (roceAt l.bytes).any (fun o => Config.isIfAddr l.iface (roceDst l.bytes o.1 o.2.2)) then toTransport s l.iface l.bytes
  else s.modCtile t (fun c => { c with noSet := satAdd 32 c.noSet 1 })

/-- The verdict of an action, after count, policer, unseal and decap (R369 to R371). -/
def verdict (s : State) (t die : Nat) (tx : Bool) (l : Lane) (owner a hash : Nat) : State :=
  let v := fld a 0 3
  let q := fld a 16 16 + (if bitAt a 3 then hash % 2 ^ fld a 4 4 else 0)
  if v = 1 then
    let s1 := tapUnit s { tap := 3, sel := l.iface, queue := q } l.arrived
    deliverRx s1 l.iface q l.ts hash (fld a 88 32) l.color l.bytes
  else if v = 2 then toTransport s l.iface l.bytes
  else if v = 3 then
    if 3 ≤ l.passes then (dropLane s tx l).modCtile t (fun c => { c with recirc := satAdd 32 c.recirc 1 })
    else
      let l1 := { l with passes := l.passes + 1, meta_ := some (fld a 88 32) }
      s.modCtile t (fun c => if tx then { c with tx := l1 :: c.tx } else { c with rx := l1 :: c.rx })
  else if v = 4 then
    if fld a 48 2 = 1 then
      match espSeal s owner die (fld a 50 18) l.bytes with
      | (s1, none) => dropTx s1 l
      | (s1, some fr) => joinTx s1 l.iface { bytes := fr, ref := l.ref, stamp := l.stamp, qpn := l.qpn, resp := l.resp }
    else joinTx s l.iface { bytes := l.bytes, ref := l.ref, stamp := l.stamp, qpn := l.qpn, resp := l.resp }
  else dropLane s tx l

/-- An action is valid in its direction, and strips no more headers than were parsed (R370). -/
def actionValid (tx : Bool) (a headers : Nat) : Bool :=
  let v := fld a 0 3
  decide (fld a 68 4 ≤ headers)
  && (if tx then v != 1 && v != 2 && fld a 48 2 != 2 else v != 4 && fld a 48 2 != 1) && decide (v ≤ 4)

/-- The parts of an action, in their order (R370). -/
def act (s : State) (t k : Nat) (r : RuleSet) (tx : Bool) (l : Lane) (a : Nat) (ps : Parsed) (hash : Nat) : State :=
  let die := if t < 8 then 0 else 1
  if !actionValid tx a ps.lens.length then (dropLane s tx l).modCtile t (fun c => { c with actionDrop := satAdd 32 c.actionDrop 1 })
  else
    let s1 := if bitAt a 84 then
        s.modSet k (fun r =>
          let key := t * 4096 + fld a 72 12
          let c := mget r.counters key (0, 0)
          { r with counters := mset r.counters key ((c.1 + 1) % 2 ^ 64, (c.2 + l.bytes.length) % 2 ^ 64) (0, 0) })
      else s
    let p := if fld a 32 16 = 0 then (s1, 0, some l.bytes) else police s1 l.iface (fld a 32 16) l.bytes
    match p.2.2 with
    | none => dropLane p.1 tx l
    | some fr =>
      let l1 := { l with bytes := fr, color := if p.2.1 = 0 then l.color else p.2.1 }
      let o := if fld a 48 2 = 2 then espOpen p.1 r.own.fn die (fld a 50 18) fr else (p.1, some fr)
      match o.2 with
      | none => dropLane o.1 tx l1
      | some fr2 =>
        let strip := (ps.lens.take (fld a 68 4)).foldl (· + ·) 0
        verdict o.1 t die tx { l1 with bytes := fr2.drop strip } r.own.fn a hash

/-- The set bound to a port and direction in its active version. -/
def boundSet (s : State) (b : Nat) : Option (Nat × Nat) :=
  (s.cls.sets.find? (fun r => (mget r.2.vers r.2.active {}).binds.contains b)).map (fun r => (r.1, r.2.active))

/-- The action seals or unseals under a security association whose SEAL tile takes no work: the lane holds the packet
(R427, R428). -/
def sealHolds (s : State) (t : Nat) (r : RuleSet) (tx : Bool) (a : Nat) : Bool :=
  fld a 48 2 != 0 && (liveSa s r.own.fn (fld a 50 18) (!tx)).isSome && slotWaits s (if t < 8 then 0 else 1) (fld a 50 18)

/-- The action that a pass of a packet finds, with the set that gives it; `none` where no set is bound or the packet is
dropped first. -/
def passAction (s : State) (t : Nat) (tx : Bool) (l : Lane) : Option (RuleSet × Nat) :=
  (if l.passes = 0 then boundSet s (bindNo tx t) else l.set).bind (fun x => (oget s.cls.sets x.1).bind (fun r =>
    let ver := mget r.vers x.2 {}
    let ps := parseWith (if r.graph = 0 then none else oget s.cls.graphs r.graph) l.bytes l.meta_
    let how := if ps.stop = 1 then ver.conf.depth else if ps.stop = 2 then ver.conf.parseErr else 1
    if how = 0 then none else some (r, if how = 2 then ver.conf.dflt else lookup r x.2 ver ps.fields)))

/-- One pass of the packet at the front of a lane (R353, R354, R358). -/
def runPass (s : State) (t : Nat) (tx : Bool) (l : Lane) : State :=
  let fix := if l.passes = 0 then boundSet s (bindNo tx t) else l.set
  match fix with
  | none => noSet s t tx l
  | some (k, v) =>
    match oget s.cls.sets k with
    | none => noSet s t tx l
    | some r =>
      let ver := mget r.vers v {}
      let ps := parseWith (if r.graph = 0 then none else oget s.cls.graphs r.graph) l.bytes l.meta_
      let hash := flowHash ps.fields ver.conf.seed
      let l1 := { l with set := some (k, v) }
      let s1 := if ps.stop = 1 then s.modCtile t (fun c => { c with depth := satAdd 32 c.depth 1 })
        else if ps.stop = 2 then s.modCtile t (fun c => { c with parseErr := satAdd 32 c.parseErr 1 }) else s
      let how := if ps.stop = 1 then ver.conf.depth else if ps.stop = 2 then ver.conf.parseErr else 1
      if how = 0 then dropLane s1 tx l1
      else act s1 t k r tx l1 (if how = 2 then ver.conf.dflt else lookup r v ver ps.fields) ps hash

/-- A classifier pass starts on the packet at the front of a lane (R353, R355). -/
def doPass (t : Nat) (tx : Bool) (s : State) : State :=
  let c := s.ctile t
  match (if tx then c.tx else c.rx) with
  | [] => s
  | l :: rest =>
    if 16 ≤ t || (passAction s t tx l).any (fun x => sealHolds s t x.1 tx x.2) then s
    else
      let s1 := runPass (s.modCtile t (fun c => if tx then { c with tx := rest } else { c with rx := rest })) t tx l
      match l.set with
      | some (k, _) => reclaim s1 k
      | none => s1

def execClassifyPass (net : Nat) (tx : Bool) (s : State) : Host.Outcome State Fault Refusal := .next (doPass net tx s)

/-- A frame with a good FCS arrives on an interface (R355, R404). -/
def doRxFrame (j : Nat) (fr : List Byte) (s : State) : State :=
  if 64 ≤ j ∨ (s.netIf j).up = false then s
  else
    let t := j / 4
    let s1 := addTotal (tapUnit s { tap := 3, sel := j } fr) 4 j 0 fr.length
    if laneFull (s.ctile t).rx fr.length then countOverflow s1 t
    else s1.modCtile t (fun c => { c with rx := c.rx ++ [{ iface := j, bytes := fr, arrived := fr, ts := (ptp s + 2 ^ 64 - (s.netPort t).rxDelay) % 2 ^ 64 }] })

def execRxFrame (iface : Nat) (frame : List (BitVec 8)) (s : State) : Host.Outcome State Fault Refusal := .next (doRxFrame iface frame s)

/-! ### Graphs (R359, R380) -/

/-- GRAPH_LOAD: the image carries the installer's signature; `graph` is what the toolchain's image spells, whose layout
no rule gives (DESIGN CHOICE, log 13). -/
def graphLoad (r d : Nat) (image : HRead) (sig : List Byte) (graph : Graph) (s : State) : CmdRes :=
  if !isPf1 r then bad s 0x0E
  else if fld d 128 64 % 64 ≠ 0 ∨ fld d 192 32 = 0 then bad s 0x06
  else
    let h := rdHost s r (fld d 192 32) image
    if h.1 ≠ 0 then bad s h.1
    else if !(s.trust.installer.any (fun k => hssVerify k.pub sig h.2)) then bad s 0x83
    else if !graphOk graph then bad s 0x06
    else match (List.range 3).find? (fun g => (oget s.cls.graphs (g + 1)).isNone) with
      | none => bad s 0x07
      | some g => audited s 0x0300 r (0x21 + (g + 1) * 2 ^ 16) (fun s => okR (s.modCls (fun c => { c with graphs := oput c.graphs (g + 1) graph })) (g + 1))

def execGraphLoad (fn ring : Nat) (image : HRead) (sig : List (BitVec 8)) (graph : Graph) (s : State) : Host.Outcome State Fault Refusal :=
  .next (onDesc s fn ring 0x21 0x01 (fun d _ s => graphLoad fn d image sig graph s))

def graphUnload (r d : Nat) (s : State) : CmdRes :=
  let g := fld d 64 2
  if !isPf1 r then bad s 0x0E
  else if g = 0 then bad s 0x06
  else if (oget s.cls.graphs g).isNone then bad s 0x85
  else if s.cls.sets.any (fun x => x.2.graph == g) then bad s 0x84
  else ok0 (s.modCls (fun c => { c with graphs := odel c.graphs g }))

def execGraphUnload (fn ring : Nat) (s : State) : Host.Outcome State Fault Refusal :=
  .next (onDesc s fn ring 0x21 0x02 (fun d _ s => graphUnload fn d s))

/-! ### Sets (R381, R383) -/

def profileOf (v : Nat) : Profile :=
  { valid := bitAt v 57, sym := bitAt v 56, fields := ((List.range 7).map (fun n => fld v (8 * n) 8)).filter (· != 0) }

def profileOk (g : Option Graph) (v : Nat) : Bool :=
  let p := profileOf v
  fld v 58 6 == 0 && (!p.valid || (p.fields.all (fun f => fieldBytes g f != 0) && decide (p.fields.Nodup)
    && decide (p.fields.foldl (fun n f => n + fieldBytes g f) 0 ≤ 40)))

/-- Settings of a set record, when it is valid (Table 10-8). -/
def parseSet (g : Option Graph) (bs : List Byte) : Option SetConf :=
  let v := leNat bs
  let prof (p : Nat) : Nat := fld v (512 + 64 * p) 64
  let n := fld v 272 3
  let stages := (List.range n).map (fun i => fld v (256 + 4 * i) 4)
  if fld v 2 2 = 3 ∨ fld v 4 2 = 1 ∨ fld v 4 2 = 3 ∨ fld v 6 26 ≠ 0 ∨ fld v 64 64 ≠ 0 ∨ 4 < n ∨ fld v 275 237 ≠ 0 ∨ fld v 1536 512 ≠ 0
      ∨ actionOk (fld v 128 128) = false ∨ (List.range 16).all (fun p => profileOk g (prof p)) = false
      ∨ stages.all (fun p => (profileOf (prof p)).valid) = false then none
  else some { depth := fld v 2 2, parseErr := fld v 4 2, seed := fld v 32 32, dflt := fld v 128 128, stages := stages, profiles := (List.range 16).map (fun p => profileOf (prof p)) }

def graphOf (s : State) (g : Nat) : Option Graph := if g = 0 then none else oget s.cls.graphs g

def setCreate (r i d : Nat) (rec_ : HRead) (s : State) : CmdRes :=
  if fld d 128 64 % 64 ≠ 0 then bad s 0x06
  else
    let h := rdHost s r 256 rec_
    let g := fld (leNat h.2) 0 2
    if h.1 ≠ 0 then bad s h.1
    else if g ≠ 0 ∧ (oget s.cls.graphs g).isNone then bad s 0x85
    else match parseSet (graphOf s g) h.2 with
      | none => bad s 0x06
      | some c => match lowestFree s.cls.sets 0 64 with
        | none => bad s 0x07
        | some k =>
          let v : SetVer := { conf := c }
          okR (s.modCls (fun x => { x with sets := oput x.sets k { own := s.ownOf r, ring := i, graph := g, vers := [(0, v)], pendingVer := v } })) k

def execSetCreate (fn ring : Nat) (record : HRead) (s : State) : Host.Outcome State Fault Refusal :=
  .next (onDesc s fn ring 0x21 0x03 (fun d _ s => setCreate fn ring d record s))

/-- A command on a set: it exists, and belongs to the function (R377, R383). -/
def withSet (s : State) (r d : Nat) (f : Nat → RuleSet → CmdRes) : CmdRes :=
  match oget s.cls.sets (fld d 64 6) with
  | none => bad s 0x80
  | some x => if owns s r x.own then f (fld d 64 6) x else bad s 0x02

/-- A binding of a set is live (R376, R383). -/
def anyBind (r : RuleSet) : Bool := r.vers.any (fun v => !v.2.binds.isEmpty) || !r.pendingVer.binds.isEmpty

def execSetDestroy (fn ring : Nat) (s : State) : Host.Outcome State Fault Refusal :=
  .next (inSetOrder fn ring (fun s => onDesc s fn ring 0x21 0x04 (fun d _ s => withSet s fn d (fun k r =>
    if anyBind r then bad s 0x84 else ok0 (s.modCls (fun c => { c with sets := odel c.sets k }))))) s)

def modPending (s : State) (k : Nat) (f : SetVer → SetVer) : State := s.modSet k (fun r => { r with pendingVer := f r.pendingVer })

def setConfig (r d : Nat) (rec_ : HRead) (s : State) : CmdRes :=
  withSet s r d (fun k x =>
    if fld d 128 64 % 64 ≠ 0 then bad s 0x06
    else
      let h := rdHost s r 256 rec_
      if h.1 ≠ 0 then bad s h.1
      else match parseSet (graphOf s x.graph) h.2 with
        | none => bad s 0x06
        | some c => ok0 (modPending s k (fun v => { v with conf := c })))

def execSetConfig (fn ring : Nat) (record : HRead) (s : State) : Host.Outcome State Fault Refusal :=
  .next (inSetOrder fn ring (fun s => onDesc s fn ring 0x21 0x05 (fun d _ s => setConfig fn d record s)) s)

/-- Insert numbers into a sorted list without repeats. -/
def unionNat (a b : List Nat) : List Nat := b.foldl (fun l n => if l.contains n then l else (l.filter (· < n)) ++ n :: l.filter (fun x => decide (n < x))) a

/-- BIND (R376). -/
def bindSet (r d : Nat) (s : State) : CmdRes :=
  withSet s r d (fun k _ =>
    let ports := (List.range 16).filter (fun p => bitAt (fld d 192 16) p)
    let bs := ports.flatMap (fun p => (if bitAt d 208 then [bindNo false p] else []) ++ (if bitAt d 209 then [bindNo true p] else []))
    let other (b : Nat) : Bool := s.cls.sets.any (fun x => x.1 != k && (x.2.pendingVer.binds.contains b || x.2.vers.any (fun v => v.2.binds.contains b)))
    if ports.any (fun p => !netMay s r p) then bad s 0x02
    else if bitAt d 210 then ok0 (modPending s k (fun v => { v with binds := v.binds.filter (fun b => !bs.contains b) }))
    else if bs.any other then bad s 0x84
    else ok0 (modPending s k (fun v => { v with binds := unionNat v.binds bs })))

def execBind (fn ring : Nat) (s : State) : Host.Outcome State Fault Refusal :=
  .next (inSetOrder fn ring (fun s => onDesc s fn ring 0x21 0x06 (fun d _ s => bindSet fn d s)) s)

/-! ### Entries (R375, R382) -/

/-- The entry of a profile and key that is live in the pending version. -/
def liveEntry (r : RuleSet) (profile key : Nat) : Option Entry :=
  r.entries.find? (fun e => e.profile == profile && e.key == key && e.removed.isNone)

/-- Tiles that an on-die entry of a set is installed in: those of the ports its active version binds (R366). -/
def setTiles (r : RuleSet) : List Nat :=
  let b := (mget r.vers r.active {}).binds
  (List.range 16).filter (fun t => b.contains t || b.contains (32 + t))

/-- Add one entry record: the state after it, and the status. -/
def addEntry (s : State) (k : Nat) (rec_ : Nat) : State × Nat :=
  match oget s.cls.sets k with
  | none => (s, 0x80)
  | some r =>
    let e : Entry := { profile := fld rec_ 320 4, key := fld rec_ 0 320, stack := bitAt rec_ 324, action := fld rec_ 328 128, added := r.active + 1 }
    if fld rec_ 325 3 ≠ 0 ∨ fld rec_ 456 56 ≠ 0 ∨ actionOk e.action = false then (s, 0x06)
    else if (liveEntry r e.profile e.key).isSome then (s, 0x81)
    else match placeIn s e (if e.stack then [16] else setTiles r) with
      | none => (s, 0x07)
      | some e' => (s.modSet k (fun r => { r with entries := r.entries ++ [e'] }), 0)

/-- Remove one entry: at once where it was added in the pending version. -/
def delEntry (s : State) (k : Nat) (rec_ : Nat) : State × Nat :=
  match oget s.cls.sets k with
  | none => (s, 0x80)
  | some r =>
    match liveEntry r (fld rec_ 320 4) (fld rec_ 0 320) with
    | none => (s, 0x82)
    | some e =>
      if e.added = r.active + 1 then (s.modSet k (fun r => { r with entries := r.entries.erase e }), 0)
      else (s.modSet k (fun r => { r with entries := r.entries.map (fun x => if x = e then { x with removed := some (r.active + 1) } else x) }), 0)

/-- Run records of 64 bytes in order, up to the first that fails: state, number done, status (R382). -/
def runRecords (f : State → Nat → State × Nat) : Nat → State → List Byte → Nat → State × Nat × Nat
  | 0, s, _, n => (s, n, 0)
  | k + 1, s, bs, n =>
    match f s (leNat (bs.take 64)) with
    | (s', 0) => runRecords f k s' (bs.drop 64) (n + 1)
    | (s', st) => (s', n, st)

def entryCmd (add : Bool) (r d : Nat) (recs : HRead) (s : State) : CmdRes :=
  withSet s r d (fun k _ =>
    let n := fld d 96 32
    if n < 1 ∨ 4096 < n ∨ fld d 128 64 % 64 ≠ 0 then bad s 0x06
    else
      let h := rdHost s r (64 * n) recs
      if h.1 ≠ 0 then bad s h.1
      else
        let x := runRecords (fun s v => if add then addEntry s k v else delEntry s k v) n s h.2 0
        badR x.1 x.2.2 x.2.1)

def execEntryAdd (fn ring : Nat) (records : HRead) (s : State) : Host.Outcome State Fault Refusal :=
  .next (inSetOrder fn ring (fun s => onDesc s fn ring 0x21 0x07 (fun d _ s => entryCmd true fn d records s)) s)
def execEntryDel (fn ring : Nat) (records : HRead) (s : State) : Host.Outcome State Fault Refusal :=
  .next (inSetOrder fn ring (fun s => onDesc s fn ring 0x21 0x08 (fun d _ s => entryCmd false fn d records s)) s)

/-! ### Comparators (R368, R378, R379, R382) -/

/-- Put a comparator in its place, lowest index first. -/
def putComp (cs : List Comparator) (c : Comparator) : List Comparator :=
  cs.filter (fun x => decide (x.index < c.index)) ++ c :: cs.filter (fun x => decide (c.index < x.index))

def rangeSet (r d : Nat) (rec_ : HRead) (s : State) : CmdRes :=
  withSet s r d (fun k x =>
    if fld d 128 64 % 64 ≠ 0 then bad s 0x06
    else
      let h := rdHost s r 64 rec_
      let v := leNat h.2
      let terms := ((List.range 4).map (fun t => (fld v (80 * t) 8, fld v (80 * t + 16) 32, fld v (80 * t + 48) 32))).filter (fun t => t.1 != 0)
      let g := graphOf s x.graph
      if h.1 ≠ 0 then bad s h.1
      else if (List.range 4).any (fun t => fld v (80 * t + 8) 8 != 0) ∨ fld v 321 7 ≠ 0 ∨ fld v 456 56 ≠ 0 ∨ actionOk (fld v 328 128) = false
          ∨ terms.any (fun t => fieldBytes g t.1 == 0 || decide (4 < fieldBytes g t.1)) then bad s 0x06
      else ok0 (modPending s k (fun p => { p with comps := putComp p.comps { index := fld d 192 6, terms := terms, enabled := bitAt v 320, action := fld v 328 128 } })))

def execRangeSet (fn ring : Nat) (record : HRead) (s : State) : Host.Outcome State Fault Refusal :=
  .next (inSetOrder fn ring (fun s => onDesc s fn ring 0x21 0x09 (fun d _ s => rangeSet fn d record s)) s)

/-- Field of an LM-400 code (R379). -/
def legacyField (c : Nat) : Nat := lget [0, 1, 0xF, 0x10, 6, 8, 9, 7] c 0

/-- A rule of an LM-400 rule set as a comparator, when it is valid (R378, R379). -/
def legacyRule (index v : Nat) : Option Comparator :=
  let term (o : Nat) : Nat × Nat × Nat × Nat := (fld v o 8, fld v (o + 8) 24, fld v (o + 32) 32, fld v (o + 64) 32)
  let ts := [term 64, term 160]
  if fld v 0 2 = 3 ∨ fld v 2 14 ≠ 0 ∨ ts.any (fun t => decide (7 < t.1) || t.2.1 != 0) then none
  else some {
    index := index, enabled := true,
    terms := (ts.filter (fun t => t.1 != 0)).map (fun t => (legacyField t.1, t.2.2.1, t.2.2.2)) ++ [(0x14, 4, 4)],
    action := if fld v 0 2 = 1 then 0 else 1 + fld v 16 16 * 2 ^ 16 + (if fld v 0 2 = 2 then fld v 32 32 * 2 ^ 88 else 0) }

/-- Every rule of an LM-400 image, from the first comparator on; `none` for an invalid image (R379). -/
def legacyRules (first : Nat) (bs : List Byte) : Option (List Comparator) :=
  let h := leNat (bs.take 16)
  let n := fld h 32 8
  if fld h 0 32 ≠ 0x0400A7C1 ∨ n < 1 ∨ 32 < n ∨ fld h 40 8 ≠ 1 ∨ fld h 48 80 ≠ 0 ∨ 64 < first + n ∨ bs.length < 16 + 32 * n then none
  else (List.range n).mapM (fun i => legacyRule (first + i) (leNat (sliceB bs (16 + 32 * i) 32)))

def legacyLoad (r d : Nat) (image : HRead) (s : State) : CmdRes :=
  withSet s r d (fun k _ =>
    if fld d 128 64 % 64 ≠ 0 then bad s 0x06
    else
      let h := rdHost s r (fld d 96 32) image
      if h.1 ≠ 0 then bad s h.1
      else match legacyRules (fld d 192 6) h.2 with
        | none => bad s 0x06
        | some cs => okR (modPending s k (fun p => { p with comps := cs.foldl putComp p.comps })) cs.length)

def execLegacyLoad (fn ring : Nat) (image : HRead) (s : State) : Host.Outcome State Fault Refusal :=
  .next (inSetOrder fn ring (fun s => onDesc s fn ring 0x60 0x01 (fun d _ s => legacyLoad fn d image s)) s)

/-! ### Commit and counters (R372 to R374, R382) -/

/-- SET_COMMIT (R372 to R374). -/
def setCommit (r d : Nat) (s : State) : CmdRes :=
  withSet s r d (fun k x =>
    let v := x.active + 1
    let kept := x.vers.filter (fun p => versionUsed s k p.1)
    let nb := x.pendingVer.binds
    let tiles := (List.range 16).filter (fun t => nb.contains t || nb.contains (32 + t))
    if 4 < kept.length + 2 then bad s 0x07
    else match installAll (x.entries.length + 1) s k tiles 0 with
      | none => bad s 0x07
      | some s1 =>
        let s2 := s1.modSet k (fun r => { r with active := v, vers := oput r.vers v r.pendingVer })
        okR (reclaim (postEvent s2 r 0x2101 k (v % 2 ^ 16)) k) (v % 2 ^ 16))

def execSetCommit (fn ring : Nat) (s : State) : Host.Outcome State Fault Refusal :=
  .next (inSetOrder fn ring (fun s => onDesc s fn ring 0x21 0x0A (fun d _ s => setCommit fn d s)) s)

/-- A counter of a set summed over its tiles. -/
def counterSum (r : RuleSet) (i : Nat) : List Byte :=
  let c := (List.range 16).foldl (fun (a : Nat × Nat) t => let x := mget r.counters (t * 4096 + i) (0, 0); (a.1 + x.1, a.2 + x.2)) (0, 0)
  natLE 8 c.1 ++ natLE 8 c.2

def counterRead (r d : Nat) (s : State) : CmdRes :=
  withSet s r d (fun _ x =>
    let n := fld d 96 32
    let f := fld d 192 32
    if n < 1 ∨ 4096 < f + n ∨ fld d 128 64 % 64 ≠ 0 then bad s 0x06
    else okR (hostWrite s r (fld d 128 64) ((List.range n).flatMap (fun i => counterSum x (f + i)))) n)

def execCounterRead (fn ring : Nat) (s : State) : Host.Outcome State Fault Refusal :=
  .next (inSetOrder fn ring (fun s => onDesc s fn ring 0x21 0x0B (fun d _ s => counterRead fn d s)) s)

end Sys2Proof.Machine
end

