-- ==== Sys2Proof/Machine/Links.lean ====
section
/-!
DEFINITION. Host links and interrupts (14: R469 to R474): timeouts, poison and unexpected completions, link power,
masked vectors and INTx.
-/
namespace Sys2Proof.Machine

/-- An Advisory Non-Fatal Error report: kinds 0 Completion Timeout, 1 Unexpected Completion, 2 Poisoned TLP (R470, R471). -/
def logUnexpected (s : State) (r : Nat) : State := emit (s.modFn r (fun f => { f with aerUnexpected := true })) (.advisory r 1)
def logPoison (s : State) (r : Nat) : State := emit (s.modFn r (fun f => { f with aerPoison := true })) (.advisory r 2)

/-- The read was that of the function's directory action, which ends with 0x03 (R42, R470). -/
def failDir (s : State) (r : Nat) (dir : Bool) (read : HRead) : State := if dir then doDirReturn r read s else s

/-- A host read reaches its completion timeout (R469, R470). The command or engine that consumes a read receives its outcome
with its own command; `dir` says that the read was that of a directory action. -/
def execHostReadTimeout (fn : Nat) (dir : Bool) (s : State) : Host.Outcome State Fault Refusal :=
  .next (if isFn fn then logTimeout (failDir s fn dir .timeout) fn else s)

/-- A poisoned TLP (R471): a write is not applied; a read counts as timed out. -/
def execPoisonedTlp (fn : Nat) (read dir : Bool) (s : State) : Host.Outcome State Fault Refusal :=
  .next (if isFn fn then logPoison (failDir s fn (read && dir) .poisoned) fn else s)

/-- A completion that arrives after its timeout is dropped and reported (R470). -/
def execUnexpectedCompletion (fn : Nat) (s : State) : Host.Outcome State Fault Refusal :=
  .next (if isFn fn then logUnexpected s fn else s)

/-- 64 µs without a TLP sent, held or outstanding, with L1 enabled: the endpoint asks for L1 (R472). -/
def doL1 (ep : Nat) (s : State) : State :=
  let l := mget s.links ep {}
  if 2 ≤ ep ∨ !l.aspmL1 ∨ l.inL1 then s
  else
    let s1 := advanceTo s (l.lastTlp + 64 * usCycles)
    emit { s1 with links := mset s1.links ep { l with inL1 := true } {} } (.enterL1 ep)

def execAspmL1Entry (ep : Nat) (s : State) : Host.Outcome State Fault Refusal := .next (doL1 ep s)

/-- A vector's pending message is sent where neither mask holds it (R473). -/
def sendPending (s : State) (r v : Nat) : State :=
  let f := s.fn r
  if f.msixEn && !f.fnMask && !f.vecMask.getLsbD v && f.pba.getLsbD v then
    emit (s.modFn r (fun f => { f with pba := f.pba &&& ~~~(1#2048 <<< v) })) (.msix r v)
  else s

/-- A vector is unmasked in the MSI-X table (R473). -/
def doUnmask (r v : Nat) (s : State) : State :=
  if !present s r ∨ vectorsOf r ≤ v then s
  else sendPending (s.modFn r (fun f => { f with vecMask := f.vecMask &&& ~~~(1#2048 <<< v) })) r v

def execMsixUnmask (fn : Nat) (vec : Nat) (s : State) : Host.Outcome State Fault Refusal :=
  .next (gated fn (.msixUnmask fn vec) (doUnmask fn vec) s)

/-- A write of FN_INTX_PENDING_k: each 1 clears a bit, and clearing the last one deasserts (R474). -/
def doIntxClear (r k v : Nat) (s : State) : State :=
  let f := s.fn r
  if !present s r ∨ isVf r ∨ 32 ≤ k then s
  else
    let m := f.intx &&& ~~~(BitVec.ofNat 2048 v <<< (64 * k))
    let s1 := s.modFn r (fun f => { f with intx := m })
    if f.intx ≠ 0#2048 ∧ m = 0#2048 then emit s1 (.intx r false) else s1

def execIntxPendingClear (fn : Nat) (index : Nat) (value : BitVec 64) (s : State) : Host.Outcome State Fault Refusal :=
  .next (gated fn (.intxPendingClear fn index value) (doIntxClear fn index value.toNat) s)

end Sys2Proof.Machine
end

