-- ==== Sys2Proof/Machine/Fetch.lean ====
section
/-!
DEFINITION. Fetching descriptors and the checks of R45 (02: R43 to R47): generation, opcode, reserved bits, role.
-/
namespace Sys2Proof.Machine

/-- Fields of kind 0x13 (Table 6-8), as lowest bit and width. -/
def fields13 (op : Nat) : Option (List (Nat × Nat)) := match op with
  | 1 => some [(64, 64), (128, 32)]
  | 2 => some [(64, 16)]
  | 3 => some [(64, 56), (128, 16)]
  | 4 => some [(64, 16), (128, 64)]
  | 5 => some [(64, 16)]
  | 6 => some [(64, 19), (84, 76), (256, 256)]
  | 7 => some [(64, 16), (96, 32)]
  | _ => none

/-- Kind 0x14 (Tables 7-6 to 7-9). -/
def fields14 (op : Nat) : Option (List (Nat × Nat)) := match op with
  | 1 => some [(64, 41)]
  | 2 => some [(160, 7), (168, 6), (192, 64), (256, 19)]
  | 3 => some [(64, 20), (96, 32), (160, 4), (192, 64), (256, 19)]
  | 4 => some [(64, 20)]
  | 5 | 6 | 7 => some [(64, 20), (96, 32)]
  | 8 => some [(64, 20), (96, 64), (174, 3)]
  | 9 => some [(64, 20), (96, 64), (174, 2)]
  | 0x0A => some [(64, 20), (96, 64), (192, 64)]
  | 0x10 => some [(64, 4), (80, 260), (384, 64)]
  | 0x11 => some [(96, 32)]
  | _ => none

/-- Kind 0x15 (Table 8-8). -/
def fields15 (op : Nat) : Option (List (Nat × Nat)) := match op with
  | 1 => some [(64, 162), (256, 64)]
  | 2 => some [(64, 83), (160, 4), (192, 192)]
  | 3 => some []
  | 4 => some [(64, 16), (192, 64)]
  | 5 => some [(64, 35), (128, 168), (320, 64)]
  | _ => none

/-- Kind 0x20 (Table 9-9); the fields of datagram sends belong to UD and GSI queue pairs alone. -/
def fields20 (datagram : Bool) (op : Nat) : Option (List (Nat × Nat)) :=
  let work := [(64, 24), (96, 96), (192, 32)]
  let ud := if datagram then [(224, 16), (352, 24), (384, 32)] else []
  match op with
  | 1 => some []
  | 2 | 0x0A => some [(64, 16)]
  | 3 => some [(64, 4), (80, 16), (128, 128), (256, 64)]
  | 4 => some [(96, 32)]
  | 5 => some [(64, 2), (80, 22), (104, 8)]
  | 6 | 7 => some [(64, 24), (128, 64)]
  | 8 => some [(64, 24)]
  | 9 => some [(80, 22), (128, 64)]
  | 0x10 => some (work ++ [(88, 1)] ++ ud)
  | 0x11 => some (work ++ [(88, 1), (320, 32)] ++ ud)
  | 0x12 | 0x14 => some (work ++ [(224, 32), (256, 64)])
  | 0x13 => some (work ++ [(88, 1), (224, 32), (256, 64), (320, 32)])
  | 0x15 => some (work ++ [(224, 32), (256, 64), (384, 128)])
  | 0x16 => some (work ++ [(224, 32), (256, 64), (384, 64)])
  | 0x20 => some work
  | _ => none

/-- Kinds 0x21 and 0x60 (Table 10-7). -/
def fields21 (op : Nat) : Option (List (Nat × Nat)) := match op with
  | 1 => some [(128, 96)]
  | 2 => some [(64, 2)]
  | 3 => some [(128, 64)]
  | 4 | 0x0A => some [(64, 6)]
  | 5 => some [(64, 6), (128, 64)]
  | 6 => some [(64, 6), (192, 19)]
  | 7 | 8 => some [(64, 6), (96, 96)]
  | 9 => some [(64, 6), (128, 70)]
  | 0x0B => some [(64, 6), (96, 128)]
  | _ => none

/-- Kind 0x22 (Table 11-4). -/
def fields22 (op : Nat) : Option (List (Nat × Nat)) :=
  let rates := [(96, 20), (128, 20), (160, 48)]
  match op with
  | 1 => some ([(64, 29)] ++ rates)
  | 2 => some [(64, 4), (70, 12)]
  | 3 => some ([(64, 4), (82, 11)] ++ rates)
  | 4 => some [(64, 4)]
  | 5 => some ([(64, 4), (70, 12), (208, 12)] ++ rates)
  | 6 => some [(64, 4), (70, 12), (256, 64)]
  | 0x10 => some [(64, 79)]
  | 0x11 => some [(64, 78)]
  | _ => none

/-- Kind 0x23 (Table 12-8). -/
def fields23 (op : Nat) : Option (List (Nat × Nat)) := match op with
  | 1 => some [(64, 2)]
  | 2 | 4 => some [(64, 18), (128, 64)]
  | 3 | 0x0C => some [(64, 18)]
  | 5 => some [(64, 18), (96, 240)]
  | 6 => some [(64, 18), (96, 240), (384, 64)]
  | 7 | 8 => some [(64, 18), (96, 224), (336, 1)]
  | 9 => some [(96, 224), (337, 1), (384, 64)]
  | 0x0A => some [(64, 36), (192, 64)]
  | 0x0B => some [(64, 36), (128, 64)]
  | _ => none

/-- Kind 0x30 (Table 13-6). -/
def fields30 (op : Nat) : Option (List (Nat × Nat)) := match op with
  | 1 => some [(128, 64)]
  | 2 => some [(64, 8)]
  | 3 | 4 => some [(64, 8), (128, 64)]
  | 5 => some [(64, 8), (192, 147)]
  | 6 => some [(64, 13)]
  | 7 => some [(64, 13), (340, 10), (352, 9)]
  | 8 => some [(64, 13), (361, 1)]
  | _ => none

/-- Kind 0x50 (Table 14-9). -/
def fields50 (op : Nat) : Option (List (Nat × Nat)) := match op with
  | 1 | 4 => some [(64, 9)]
  | 2 => some [(64, 9), (80, 18), (128, 96)]
  | 3 => some [(64, 9), (80, 18), (128, 96), (256, 64)]
  | 5 => some [(64, 9), (128, 96)]
  | _ => none

/-- Fields of an opcode of a ring kind; none where the kind does not define it. -/
def fieldsOf (datagram : Bool) (kind op : Nat) : Option (List (Nat × Nat)) :=
  if op = 0 then some []
  else match kind with
    | 0x13 => fields13 op
    | 0x14 => fields14 op
    | 0x15 => fields15 op
    | 0x20 => fields20 datagram op
    | 0x21 => fields21 op
    | 0x22 => fields22 op
    | 0x23 => fields23 op
    | 0x24 => if op = 1 then some [(64, 64)] else none
    | 0x30 => fields30 op
    | 0x40 => if op = 1 then some [(64, 7)] else if op = 2 then some [(64, 3), (128, 80)] else none
    | 0x41 => if op = 1 then some [(64, 9)] else if op = 2 then some [(64, 7)] else none
    | 0x42 => if op = 1 then some [(64, 96)] else if op = 2 then some [(160, 1)] else if op = 3 then some []
              else if op = 4 then some [(64, 64), (256, 256)] else if op = 5 then some [(64, 96), (192, 64)] else none
    | 0x44 => if op = 1 then some [(64, 96)] else if op = 2 then some [] else none
    | 0x50 => fields50 op
    | 0x60 => if op = 1 then some [(64, 6), (96, 96), (192, 6)] else none
    | _ => none

/-- Bits of the common header (Table 2-7). -/
def headFields : List (Nat × Nat) := [(0, 11), (16, 48)]

/-- A bit that the table does not assign to the opcode is set (R13). -/
def reservedSet (d : Nat) (fs : List (Nat × Nat)) : Bool := (headFields ++ fs).foldl (fun d f => setFld d f.1 f.2 0) d != 0

/-- The command needs a role that the function does not hold (R225, R260). -/
def needsRole (r kind op : Nat) : Bool := isVf r && ((kind == 0x13 && (op == 1 || op == 2)) || (kind == 0x14 && op == 1))

/-- The queue pair that a work request names is a datagram one, or there is none. -/
def datagramQp (s : State) (qpn : Nat) : Bool := match oget s.rdma.qps qpn with | some q => q.type != 0 | none => true

/-- First status of R45 that applies to a descriptor, or 0. -/
def descStatus (s : State) (r kind d : Nat) : Nat :=
  let op := fld d 0 8
  if fld d 16 16 ≠ (s.fn r).gen then 0x0A
  else match fieldsOf (datagramQp s (fld d 64 24)) kind op with
    | none => 0x06
    | some fs => if reservedSet d fs then 0x06 else if needsRole r kind op then 0x0E else 0

/-- Launches that a core has fetched and not completed (R228). -/
def coreLaunches (s : State) (c : Nat) : Nat :=
  (allRings s).foldl (fun n q => if q.2.2.ent.kind = 0x13 ∧ q.2.2.owner = c then
    n + (q.2.2.fetched.filter (fun e => e.res.isNone && fld e.desc.toNat 0 8 == 6)).length else n) 0

/-- A ring pair fetches: it is ENABLED, its function runs and is not being frozen, software has posted a descriptor, and
its core has room for a launch. -/
def fetches (s : State) (r i : Nat) : Bool :=
  let rp := s.ring r i
  let f := s.fn r
  i != 0 && rp.st == .enabled && f.st == .active && f.freeze.isNone && rp.cons != rp.prod
    && (rp.ent.kind != 0x13 || decide (coreLaunches s rp.owner < 256))

/-- Host address of the SQ slot that the next descriptor lies in (R49). -/
def sqSlotAddr (rp : Ring) : Nat := rp.ent.sqBase + rp.cons % 2 ^ rp.ent.sqOrder * 64

/-- A write of completions to the host has failed: an ENABLED ring pair goes to ERROR (R43, Table 2-6). The command stands
for it where its read fails on a ring pair that has no descriptor to fetch (DESIGN CHOICE, log 5). -/
def cqWriteFailed (r i : Nat) (s : State) : State :=
  if i != 0 && (s.ring r i).st == .enabled && (s.fn r).st == .active then checkFreeze (ringError s r i) r else s

/-- A descriptor has been read from its SQ slot (R43 to R49): the consumer index is written back first; a failed read puts
the ring pair in ERROR. -/
def doFetch (r i : Nat) (read : HRead) (s : State) : State :=
  if !fetches s r i then (match read with | .ok _ => s | _ => cqWriteFailed r i s)
  else
    let s := emit s (.hostRead r (sqSlotAddr (s.ring r i)) 64)
    match read with
    | .ok bs =>
      let rp := s.ring r i
      let w := BitVec.ofNat 512 (leNat (bs.take 64))
      let cons := mod24 (rp.cons + 1)
      let s1 := dma s r rp.ent.headWb 8 (.headWb r rp.ent.headWb cons)
      let s2 := s1.modRing r i (fun q => { q with cons := cons, fetchNo := q.fetchNo + 1, fetched := q.fetched ++ [{ seq := q.fetchNo, desc := w, gen := (s.fn r).gen }] })
      let ref : DRef := { fn := r, ring := i, seq := rp.fetchNo }
      let st := descStatus s r rp.ent.kind w.toNat
      if st = 0 then s2
      else if rp.ent.kind = 0x22 ∧ fld w.toNat 0 8 ≠ 0x10 then finish (unorder s2 ref) ref st 0 0
      else finish s2 ref st 0 0
    | _ => checkFreeze (ringError (logTimeout s r) r i) r

def execDescriptorFetch (fn ring : Nat) (read : HRead) (s : State) : Host.Outcome State Fault Refusal :=
  .next (doFetch fn ring read s)

end Sys2Proof.Machine
end

