-- ==== Sys2Proof/Machine/Migrate.lean ====
section
/-!
DEFINITION. Migration of virtual functions (14: R487 to R492): freezing, saving, restoring and thawing a VF, and dirty-page
logging. What the blob holds is the manual's; how its sealed part lays that out is the model's own (DESIGN CHOICE, log 20).
-/
namespace Sys2Proof.Machine

/-! ### The sealed part: records of numbers (log 20) -/

/-- A number as its byte count and its bytes. -/
def encNat (n : Nat) : List Byte :=
  let k := if n = 0 then 0 else log2of n / 8 + 1
  natLE 2 k ++ natLE k n

def encRec (fs : List Nat) : List Byte := natLE 4 fs.length ++ fs.flatMap encNat

def decNats : Nat → List Byte → List Nat × List Byte
  | 0, bs => ([], bs)
  | k + 1, bs =>
    let n := leNat (bs.take 2)
    let p := decNats k (bs.drop (2 + n))
    (leNat (sliceB bs 2 n) :: p.1, p.2)

def decRecs : Nat → List Byte → List (List Nat)
  | 0, _ => []
  | k + 1, bs =>
    if bs.isEmpty then []
    else
      let p := decNats (min (leNat (bs.take 4)) bs.length) (bs.drop 4)
      p.1 :: decRecs k p.2

/-- Kind 1: registers of the function (R488). -/
def fnRec (f : Fn) : List Nat :=
  [1, f.leasePeriod, b2n f.leaseBad, b2n f.leaseArmed, f.evBase, f.evOrder, f.evVector, b2n f.evEnable, b2n f.evCommitted,
   f.evStatus, f.evLost, f.evPendLost, f.evW, f.evR, f.dirBase, f.dirCount, b2n f.dirCommitted, f.dbDiscards,
   f.vecMask.toNat, f.pba.toNat, f.intx.toNat]

def fnFrom (g : Nat → Nat) (f : Fn) : Fn :=
  { f with
    leasePeriod := g 1, leaseBad := g 2 == 1, leaseArmed := g 3 == 1, evBase := g 4, evOrder := g 5, evVector := g 6,
    evEnable := g 7 == 1, evCommitted := g 8 == 1, evStatus := g 9, evLost := g 10, evPendLost := g 11, evW := g 12, evR := g 13,
    dirBase := g 14, dirCount := g 15, dirCommitted := g 16 == 1, dbDiscards := g 17, vecMask := BitVec.ofNat 2048 (g 18),
    pba := BitVec.ofNat 2048 (g 19), intx := BitVec.ofNat 2048 (g 20) }

/-- Kind 2: a ring pair, whose work has ended; doorbells taken while it was HELD count. -/
def ringRec (i : Nat) (q : Ring) : List Nat :=
  let on := q.st == .enabled || (q.st == .held && q.heldFrom == .enabled && !q.deferDisable)
  [2, i, b2n on, q.ent.sqBase, q.ent.cqBase, q.ent.headWb, q.ent.kind, q.ent.sqOrder, q.ent.cqOrder, b2n q.ent.enable,
   b2n q.ent.cqIrq, q.ent.cqVector, q.ent.moderationUs, q.heldDb.getD q.prod, q.cons, q.cqW, q.cqR, q.fetchNo]

def ringFrom (owner : Nat) (g : Nat → Nat) : Ring :=
  { st := if g 2 = 1 then .enabled else .disabled, owner := owner,
    ent := { sqBase := g 3, cqBase := g 4, headWb := g 5, kind := g 6, sqOrder := g 7, cqOrder := g 8, enable := g 9 == 1,
             cqIrq := g 10 == 1, cqVector := g 11, moderationUs := g 12 },
    prod := g 13, cons := g 14, cqW := g 15, cqR := g 16, fetchNo := g 17 }

/-- Kind 4: a host-memory region with its key. -/
def mrRec (i : Nat) (m : Mr) : List Nat := [4, i, m.pd, m.gen, m.access, m.iova, m.length, m.base]
def mrFrom (o : Own) (g : Nat → Nat) : Mr :=
  { own := o, pd := g 2, gen := g 3, access := g 4, iova := g 5, length := g 6, host := true, base := g 7 }

def qpStNo (t : QpSt) : Nat := match t with | .reset => 0 | .init => 1 | .rtr => 2 | .rts => 3 | .sqd => 4 | .error => 5
def qpStOf (n : Nat) : QpSt :=
  if n = 0 then .reset else if n = 1 then .init else if n = 2 then .rtr else if n = 3 then .rts else if n = 4 then .sqd else .error

/-- Kind 5: a queue pair with its context, ePSN and saved atomics. -/
def qpRec (n : Nat) (q : Qp) : List Nat :=
  let m := q.inMsg.getD {}
  [5, n, q.ring, q.type, q.pd, q.iface, q.sqLog, q.rqLog, qpStNo q.st, q.attr, q.mtu, q.destQp, q.qkey, q.psn, q.una, q.timeout,
   q.retryCnt, q.rnrRetry, q.maxRd, q.epsn, q.msn, q.minRnr, q.maxDestRd, b2n q.gapNak, b2n q.inMsg.isSome, b2n m.write, m.va,
   m.rkey, m.left, m.got, q.rate, q.gust, q.quiet, q.rtt] ++ q.saved.flatMap (fun a => [a.1, a.2])

def pairsOf : List Nat → List (Nat × Nat)
  | a :: b :: rest => (a, b) :: pairsOf rest
  | _ => []

def qpFrom (s : State) (o : Own) (l : List Nat) : Qp :=
  let g (i : Nat) : Nat := lget l i 0
  { own := o, ring := g 2, type := g 3, pd := g 4, iface := g 5, sqLog := g 6, rqLog := g 7, st := qpStOf (g 8), attr := g 9,
    mtu := g 10, destQp := g 11, qkey := g 12, psn := g 13, una := g 14, timeout := g 15, retryCnt := g 16, rnrRetry := g 17,
    maxRd := g 18, epsn := g 19, msn := g 20, minRnr := g 21, maxDestRd := g 22, gapNak := g 23 == 1,
    inMsg := if g 24 = 1 then some { write := g 25 == 1, va := g 26, rkey := g 27, left := g 28, got := g 29 } else none,
    rate := g 30, gust := g 31, quiet := g 32, rtt := g 33, saved := pairsOf (l.drop 34), pacerAt := ptp s,
    res := if isGsi (g 1) then .resident else .absent }

/-- Kinds 8 to 10: a controller's registers and Features, its submission queues and its completion queues. -/
def ctrlRec (k : Ctrl) : List Nat :=
  [8, k.cc, k.intms, k.aqa, k.asq, k.acq, b2n k.rdy, b2n k.cfs, k.shst, b2n k.nsqs.isSome, k.nsqs.getD 0, b2n k.ncqs.isSome,
   k.ncqs.getD 0, b2n k.vwc, k.async, k.arb, k.coalesce, k.cmdNo] ++ k.ivCfg.flatMap (fun p => [p.1, p.2])
def sqRec (q : Nat × NvmSq) : List Nat := [9, q.1, q.2.base, q.2.size, q.2.cq, q.2.head, q.2.tail]
def cqRec (q : Nat × NvmCq) : List Nat := [10, q.1, q.2.base, q.2.size, b2n q.2.ien, q.2.iv, q.2.head, q.2.tail, b2n q.2.phase]

def ctrlFrom (recs : List (List Nat)) (l : List Nat) : Ctrl :=
  let g (i : Nat) : Nat := lget l i 0
  { cc := g 1, intms := g 2, aqa := g 3, asq := g 4, acq := g 5, rdy := g 6 == 1, cfs := g 7 == 1, shst := g 8,
    nsqs := if g 9 = 1 then some (g 10) else none, ncqs := if g 11 = 1 then some (g 12) else none, vwc := g 13 == 1, async := g 14,
    arb := g 15, coalesce := g 16, cmdNo := g 17, ivCfg := pairsOf (l.drop 18),
    sqs := (recs.filter (fun r => lget r 0 0 == 9)).map (fun r => (lget r 1 0,
      { base := lget r 2 0, size := lget r 3 0, cq := lget r 4 0, head := lget r 5 0, tail := lget r 6 0 })),
    cqs := (recs.filter (fun r => lget r 0 0 == 10)).map (fun r => (lget r 1 0,
      { base := lget r 2 0, size := lget r 3 0, ien := lget r 4 0 == 1, iv := lget r 5 0, head := lget r 6 0, tail := lget r 7 0,
        phase := lget r 8 0 == 1 })) }

/-- Kind 12: an Asynchronous Event Request that waits; kind 11: an attached NSID. -/
def aerRec (m : NvmCmd) : List Nat := [12, m.no, m.cid, m.sqe]

/-- Everything but key slots, in order (R488). -/
def vfRecs (s : State) (v : Nat) : List (List Nat) :=
  let f := s.fn v
  let mine (o : Own) : Bool := owns s v o
  [fnRec f] ++ f.rings.map (fun q => ringRec q.1 q.2)
  ++ (s.rdma.pds.filter (fun p => mine p.2)).map (fun p => [3, p.1 % 65536])
  ++ (s.rdma.mrs.filter (fun m => mine m.2.own && m.2.host)).map (fun m => mrRec m.1 m.2)
  ++ (s.rdma.qps.filter (fun q => mine q.2.own)).map (fun q => qpRec q.1 q.2)
  ++ (s.rdma.ahs.filter (fun a => mine a.2.own)).map (fun a => [6, a.1 % 65536, a.2.pd, a.2.iface, a.2.attr])
  ++ (match ctrlOf v with
    | none => []
    | some c =>
      let k := s.ctl c
      ctrlRec k :: k.sqs.map sqRec ++ k.cqs.map cqRec ++ (nsidsOf s c).map (fun n => [11, n])
        ++ (k.cmds.filter (fun m => m.begun && m.sq == 0 && fld m.sqe 0 8 == 0x0C)).map aerRec)

/-! ### The ring (R492, Table 14-9) -/

/-- The VF a descriptor names, by its rank. -/
def vfFld (r d : Nat) : Nat := if fld d 64 9 < 256 then vf1Of (epOf r) (fld d 64 9) else vf2Of (epOf r) (fld d 64 9 - 256)

/-- A command on a VF: below NumVFs (0x80), in one of the states asked (0x81). -/
def withVf (r d : Nat) (sts : List FnSt) (act : Nat → State → CmdRes) (s : State) : CmdRes :=
  let v := vfFld r d
  if (s.fn (pfOf v)).numVfs ≤ vfNo v ∨ (s.fn (pfOf v)).vfEnable = false then bad s 0x80
  else if !sts.contains (s.fn v).st then bad s 0x81
  else act v s

/-- VF_FREEZE (R487): it completes when the VF's work has. -/
def vfFreeze (r d : Nat) (ref : DRef) (s : State) : CmdRes :=
  withVf r d [.active] (fun v s =>
    if (s.fn v).freeze.isSome then bad s 0x81
    else if s.kv.seqs.any (fun q => owns s v q.2.own) || s.fw.comms.any (fun c => owns s v c.2.own) then bad s 0x82
    else
      let s1 := s.modFn v (fun f => { f with freeze := some ref })
      later (match ctrlOf v with
        | none => checkFreeze s1 v
        | some c => checkFreezeNvm s1 c (s1.ctl c))) s

def execVfFreeze (fn ring : Nat) (s : State) : Host.Outcome State Fault Refusal :=
  .next (onDesc s fn ring 0x50 0x01 (fun d ref s => vfFreeze fn d ref s))

/-- A key slot wrapped as CTX_SAVE wraps it, under the next counter of the WRAP slot; `none` when that is used up. -/
def saveKey (s : State) (die wn n : Nat) (k : KeySlot) : Option (State × List Nat) :=
  match s.slot wn with
  | none => none
  | some w =>
    match useCounter s wn (tileFor s die wn w) w with
    | none => none
    | some s1 =>
      let head := ctxHead k.kind w.counter
      let c := gcmSeal (keyOf w) (nonceOf w w.counter) head (ctxClear k)
      some (s1, [7, n, k.kind, leNat (head ++ c.1 ++ c.2)])

def saveKeys (die wn : Nat) : List (Nat × KeySlot) → State → Option (State × List (List Nat))
  | [], s => some (s, [])
  | (n, k) :: rest, s =>
    match saveKey s die wn n k with
    | none => none
    | some (s1, r) => (saveKeys die wn rest s1).map (fun p => (p.1, r :: p.2))

/-- The clear header of a blob (R488). -/
def blobHead (kind bytes gen : Nat) : List Byte := natLE 64 (0x0960F1A7 + 2 ^ 32 + kind * 2 ^ 40 + bytes * 2 ^ 64 + gen * 2 ^ 96)

/-- LOADED key slots of a VF. -/
def loadedKeys (s : State) (v : Nat) : List (Nat × KeySlot) := s.sealing.slots.filter (fun p => owns s v p.2.own && p.2.st == .loaded)

/-- VF_SAVE (R488). The WRAP counter of the blob itself stands in clear after the header (log 20). -/
def vfSave (r d : Nat) (ref : DRef) (s : State) : CmdRes :=
  withVf r d [.frozen] (fun v s =>
    let wn := fld d 80 18
    withSlot s r wn [3] .loaded (fun _ =>
      let die := dieOfRing s ref
      match saveKeys die wn (loadedKeys s v) s with
      | none => bad s 0x07
      | some (s1, ks) =>
        match s1.slot wn with
        | none => bad s 0x02
        | some w =>
          match useCounter s1 wn (tileFor s1 die wn w) w with
          | none => bad s 0x07
          | some s2 =>
            let clear := (vfRecs s v ++ ks).flatMap encRec
            let n := 64 + 8 + clear.length + 16
            if fld d 192 32 < n ∨ 2 ^ 26 < n then badR s 0x07 n
            else if !dmaOn (s.fn r) then bad s 0x0B
            else
              let head := blobHead (b2n (isVf2 v)) n (s.fn v).gen
              let c := gcmSeal (keyOf w) (nonceOf w w.counter) head clear
              let s3 := hostWrite s2 r (fld d 128 64) (head ++ natLE 8 w.counter ++ c.1 ++ c.2)
              let s4 := s3.modSeal (fun q => { q with slots := q.slots.map (fun p => if owns s v p.2.own ∧ p.2.st = .loaded then (p.1, { p.2 with st := .saved }) else p) })
              okR (s4.modFn v (fun f => { f with st := .saved })) n)) s

def execVfSave (fn ring : Nat) (s : State) : Host.Outcome State Fault Refusal :=
  .next (onDesc s fn ring 0x50 0x02 (fun d ref s => vfSave fn d ref s))

/-! ### Restoring (R489) -/

/-- The clear records of a blob that opens under a WRAP slot and names a kind and layout 1, with its generation. -/
def openBlob (w : KeySlot) (kind : Nat) (bs : List Byte) : Option (Nat × List (List Nat)) :=
  let head := bs.take 64
  let h := leNat head
  let n := fld h 64 32
  let gen := fld h 96 16
  if head ≠ blobHead kind n gen ∨ n < 88 ∨ bs.length < n then none
  else (gcmOpen (keyOf w) (nonceOf w (leNat (sliceB bs 64 8))) head (sliceB bs 72 (n - 88)) (sliceB bs (n - 16) 16)).map (fun c =>
    (gen, decRecs (c.length + 1) c))

def kindOf (l : List Nat) : Nat := lget l 0 0
def recsOf (rs : List (List Nat)) (k : Nat) : List (List Nat) := rs.filter (fun l => kindOf l == k)

/-- A queue pair number, region, domain or address handle is taken, or an NSID names no namespace of the PF1 that is free
(R489; domains and address handles DEDUCED, log 20). -/
def idsTaken (s : State) (r v : Nat) (map : List Byte) (rs : List (List Nat)) : Bool :=
  (recsOf rs 3).any (fun l => (oget s.rdma.pds (epKey v (lget l 1 0))).isSome)
  || (recsOf rs 4).any (fun l => (oget s.rdma.mrs (lget l 1 0)).isSome)
  || (recsOf rs 5).any (fun l => (oget s.rdma.qps (lget l 1 0)).isSome)
  || (recsOf rs 6).any (fun l => (oget s.rdma.ahs (epKey v (lget l 1 0))).isSome)
  || (recsOf rs 11).any (fun l => match oget s.sto.nss (leNat (sliceB map (2 * (lget l 1 0 - 1)) 2)) with
      | some x => !owns s r x.own || x.at_.isSome
      | none => true)

/-- The restored state exceeds a quota of the VF. -/
def overQuota (s : State) (v : Nat) (rs : List (List Nat)) : Bool :=
  let a := (s.fn v).quotaA.toNat
  let b := (s.fn v).quotaB.toNat
  let n (k : Nat) : Nat := (recsOf rs k).length
  decide (fld a 0 5 < (recsOf rs 2).foldl (fun m l => max m (lget l 1 0 + 1)) 0) || decide (fld a 8 24 < n 5) || decide (fld a 32 20 < n 7)
  || decide (fld b 16 21 < n 4) || (isVf2 v && decide (fld b 40 8 + 1 < max (n 9) (n 10)))

/-- Key slots of a blob are restored into fresh slots, as CTX_RESTORE does. -/
def restoreKeys (o : Own) (w : KeySlot) : List (List Nat) → State → Except Nat State
  | [], s => .ok s
  | l :: rest, s =>
    let bs := natLE 512 (lget l 3 0)
    let head := bs.take 16
    match lowestFree s.sealing.slots 0 262144, gcmOpen (keyOf w) (nonceOf w (fld (leNat head) 64 64)) head (sliceB bs 16 480) (sliceB bs 496 16) with
    | none, _ => .error 0x07
    | _, none => .error 0x83
    | some n, some c => restoreKeys o w rest (s.putSlot n (ctxParse { kind := lget l 2 0, own := o } c))

/-- Ring pairs of a blob restart at owning cores; `none` when no core can own one. -/
def restoreRings (v : Nat) : List (List Nat) → State → Option State
  | [], s => some s
  | l :: rest, s =>
    match pickOwner s v (lget l 6 0) with
    | none => none
    | some c => restoreRings v rest (s.modRing v (lget l 1 0) (fun _ => ringFrom c (fun i => lget l i 0)))

/-- Remote-memory objects of a blob. -/
def restoreRdma (v : Nat) (o : Own) (rs : List (List Nat)) (s : State) : State :=
  let s1 := s.modRdma (fun x => { x with
    pds := (recsOf rs 3).foldl (fun m l => oput m (epKey v (lget l 1 0)) o) x.pds
    mrs := (recsOf rs 4).foldl (fun m l => oput m (lget l 1 0) (mrFrom o (fun i => lget l i 0))) x.mrs
    mrGen := (recsOf rs 4).foldl (fun m l => mset m (lget l 1 0) (lget l 3 0) 0) x.mrGen
    qps := (recsOf rs 5).foldl (fun m l => oput m (lget l 1 0) (qpFrom s o l)) x.qps
    ahs := (recsOf rs 6).foldl (fun m l => oput m (epKey v (lget l 1 0)) { own := o, pd := lget l 2 0, iface := lget l 3 0, attr := lget l 4 0 }) x.ahs })
  s1.modRdma (fun x => { x with
    nextA := skipQpns x.qps (x.qps.length + 1) x.nextA
    nextB := skipQpns x.qps (x.qps.length + 1) x.nextB
    freedA := x.freedA.filter (fun n => (oget x.qps n).isNone)
    freedB := x.freedB.filter (fun n => (oget x.qps n).isNone) })

/-- A controller of a blob, its waiting event requests, and its namespaces by ns_map. -/
def restoreCtrl (v : Nat) (map : List Byte) (rs : List (List Nat)) (s : State) : State :=
  match ctrlOf v, (recsOf rs 8).head? with
  | some c, some l =>
    let cmds := (recsOf rs 12).map (fun l => ({ no := lget l 1 0, cid := lget l 2 0, sqe := lget l 3 0, begun := true } : NvmCmd))
    let s1 := s.modCtl c (fun _ => { ctrlFrom rs l with cmds := cmds })
    placeCtrl ((recsOf rs 11).foldl (fun s l =>
      s.modNs (leNat (sliceB map (2 * (lget l 1 0 - 1)) 2)) (fun x => { x with at_ := some (c, lget l 1 0) })) s1) c
  | _, _ => s

/-- VF_RESTORE (R489). -/
def vfRestore (r d : Nat) (blob map : HRead) (s : State) : CmdRes :=
  withVf r d [.clean] (fun v s =>
    withSlot s r (fld d 80 18) [3] .loaded (fun w =>
      let h := rdHost s r (fld d 192 32) blob
      let m := if isVf2 v then rdHost s r 512 map else (0, [])
      if h.1 ≠ 0 then bad s h.1
      else if m.1 ≠ 0 then bad s m.1
      else match openBlob w (b2n (isVf2 v)) h.2 with
        | none => bad s 0x83
        | some (gen, rs) =>
          if idsTaken s r v m.2 rs then bad s 0x84
          else if overQuota s v rs then bad s 0x07
          else
            let o : Own := { fn := v, gen := gen }
            let s1 := s.modFn v (fun f => { fnFrom (fun i => lget ((recsOf rs 1).head?.getD []) i 0) f with st := .frozen, gen := gen })
            match restoreRings v (recsOf rs 2) s1 with
            | none => bad s 0x07
            | some s2 => match restoreKeys o w (recsOf rs 7) s2 with
              | .error e => bad s e
              | .ok s3 => okR (restoreCtrl v m.2 rs (restoreRdma v o rs s3)) gen)) s

def execVfRestore (fn ring : Nat) (blob map : HRead) (s : State) : Host.Outcome State Fault Refusal :=
  .next (onDesc s fn ring 0x50 0x03 (fun d _ s => vfRestore fn d blob map s))

/-! ### Thaw and dirty logging (R490, R491) -/

/-- VF_THAW (R490): fetching resumes, the lease starts a full period, queue pairs send again. -/
def vfThaw (r d : Nat) (s : State) : CmdRes :=
  withVf r d [.frozen] (fun v s =>
    let s1 := s.modFn v (fun f => { f with st := .active, leaseInForce := f.leasePeriod, leaseFrom := s.vcycle, leaseHalf := false })
    let s2 := s1.rdma.qps.foldl (fun s q => if owns s v q.2.own then pumpSends s q.1 else s) s1
    let s3 := if (ctrlOf v).isSome then settleSto s2 else s2
    ok0 (flushLost s3 v)) s

def execVfThaw (fn ring : Nat) (s : State) : Host.Outcome State Fault Refusal :=
  .next (onDesc s fn ring 0x50 0x04 (fun d _ s => vfThaw fn d s))

/-- Bytes of a dirty bitmap that hold a mark, ascending. -/
def dirtyBytes (g : DirtyLog) : List (Nat × Byte) :=
  (g.pages.map (· / 8)).eraseDups.map (fun j =>
    (j, BitVec.ofNat 8 ((List.range 8).foldl (fun a i => if g.pages.contains (8 * j + i) then a + 2 ^ i else a) 0)))

/-- DIRTY_LOG (R491): what was logged is written into the previous bitmap; addr 0 stops. -/
def dirtyLog (r d : Nat) (s : State) : CmdRes :=
  withVf r d [.active, .frozen] (fun v s =>
    let a := fld d 128 64
    if a % 4096 ≠ 0 ∨ fld d 192 32 % 8 ≠ 0 then bad s 0x06
    else
      let s1 := match (s.fn v).dirty with
        | none => s
        | some g => (dirtyBytes g).foldl (fun (s : State) (p : Nat × Byte) => hostWrite s r (g.addr + p.1) [p.2]) s
      let past := (s.fn v).dirty.any (·.overflow)
      okR (s1.modFn v (fun f => { f with dirty := if a = 0 then none else some { addr := a, bytes := fld d 192 32 } })) (b2n past)) s

def execDirtyLog (fn ring : Nat) (s : State) : Host.Outcome State Fault Refusal :=
  .next (onDesc s fn ring 0x50 0x05 (fun d _ s => dirtyLog fn d s))

end Sys2Proof.Machine
end

