-- ==== Sys2Proof/Machine/Pulse.lean ====
section
/-!
DEFINITION. The pulse per second of the module's PPS_OUT pin (19: R589).
-/
namespace Sys2Proof.Machine

/-- PTP time reaches the next whole second: PPS_OUT rises for 100 ns. A step of TIME_STEP over a boundary makes no pulse. -/
def doPps (s : State) : State := emit (advanceToPtp s ((ptp s / 10 ^ 9 + 1) * 10 ^ 9)) .pps

def execPpsPulse (s : State) : Host.Outcome State Fault Refusal := .next (doPps s)

end Sys2Proof.Machine
end

