-- ==== Sys2Proof/Machine/Trust.lean ====
section
/-!
DEFINITION. Trust (17) and the sessions of the management port (19): opening and closing sessions, the commands of Table
17-4, staging, activation and confirmation of firmware, attestation, and reading the audit log.
-/
namespace Sys2Proof.Machine

/-! ### Sessions (R550, R595, R597) -/

/-- A connection arrives: HELLO with a challenge, or it is closed at once beyond four (R595). -/
def doConnect (s : State) : State :=
  if !s.power.romDone then s
  else match lowestFree s.trust.sessions 0 4 with
    | none => emit s (.mgmtClosed 4)
    | some n =>
      let ch := (natLE 64 (Config.freeBlock s.freeCtr).toNat).take 32
      sendClear ((tickFree s).modTrust (fun t => { t with sessions := oput t.sessions n { challenge := ch, lastMsg := s.vcycle } })) n 0x01 ch

def execMgmtConnect (s : State) : Host.Outcome State Fault Refusal := .next (doConnect s)

/-- The management key a role opens with, where its signature over the challenge and the client's nonce verifies; the
maker's public key comes with its signature, under the ROM's root hash. -/
def openKey (s : State) (role : Nat) (pub sig msg : List Byte) : Option (List Byte) :=
  match role with
  | 0 => if sha256 pub == Config.romRoot && lmsVerify pub sig msg then
      s.trust.consent.bind (fun c => if c.boot = s.trust.bootCount then some c.key else none) else none
  | 1 => s.trust.installer.bind (fun k => if hssVerify k.pub sig msg then some k.mgmt else none)
  | 2 => s.trust.operator.bind (fun k => if hssVerify k.pub sig msg then some k.mgmt else none)
  | _ => none

/-- OPEN: header, role, nonce of 32 bytes, signature (Table 19-6). One that does not verify closes the session. -/
def openSession (n : Nat) (msg pub : List Byte) (s : State) : State :=
  match oget s.trust.sessions n with
  | none => s
  | some k =>
    let h := leNat (msg.take 12)
    let body := msg.drop 12
    let role := leNat (body.take 1)
    let nonce := sliceB body 1 32
    if k.opened ∨ body.length < 33 ∨ fld h 0 16 ≠ body.length ∨ 4096 < body.length ∨ fld h 16 8 ≠ 0x02 ∨ fld h 24 72 ≠ 0 then closeSession s n
    else match openKey s role pub (body.drop 33) (k.challenge ++ nonce) with
      | none => closeSession s n
      | some mgmt =>
        let s1 := s.modSession n (fun k => { k with opened := true, role := role, key := sha256 (mgmt ++ k.challenge ++ nonce), rxNext := 0, txNext := 0, lastMsg := s.vcycle })
        let s2 := { s1 with wx := { s1.wx with paths := mset s1.wx.paths (16 + n) {} {} } }
        sendMsg 2 s2 n 0x03 (natLE 4 (n + 1024 * 2 ^ 16))

def execMgmtOpen (session : Nat) (msg pub : List (BitVec 8)) (s : State) : Host.Outcome State Fault Refusal := .next (openSession session msg pub s)

/-- 300 s without a message (R550). -/
def doIdle (n : Nat) (s : State) : State :=
  match oget s.trust.sessions n with
  | none => s
  | some k => closeSession (advanceTo s (k.lastMsg + 300000 * msCycles)) n

def execMgmtIdleTimeout (session : Nat) (s : State) : Host.Outcome State Fault Refusal := .next (doIdle session s)

/-- CLOSE, or the end of the TCP connection (R595). -/
def execMgmtClose (session : Nat) (s : State) : Host.Outcome State Fault Refusal := .next (closeSession s session)

/-- Something of this session waits: a later message waits behind it (R604). -/
def waitsS (s : State) (n : Nat) : Bool := heldBack s 0 n || s.transom.behind.any (isMsgOf n)

/-- A message acts now, or waits behind the session's earlier ones. -/
def gatedS (n : Nat) (i : Instr) (act : State → State) (s : State) : State :=
  if waitsS s n then { s with transom := { s.transom with behind := s.transom.behind ++ [i] } } else act s

/-- A COMMAND is taken and waits for the next commit tick (R556). -/
def queueCmd (n code : Nat) (sub : Option Nat) (msg : List Byte) (image : ImageSet) (s : State) : State :=
  onMsg s n 0x10 msg (fun body s =>
    if leNat (body.take 1) = code ∧ sub.all (fun o => body.length != 1 && leNat (sliceB body 1 1) == o) = true then
      s.modTrust (fun t => { t with cmds := t.cmds ++ [{ session := n, role := (s.session n).role, code := code, body := body.drop 1, image := { image with factory := false } }] })
    else s)

/-! ### Registers that commands report (Table 17-10) -/

def trState (s : State) : Nat :=
  let t := s.trust
  b2n t.installer.isSome + b2n t.operator.isSome * 2 + b2n t.policy * 4 + b2n (t.debugScope != 0) * 8 + b2n t.recovery * 16 + t.ceiling % 4 * 2 ^ 8

def trFw (s : State) : Nat :=
  let t := s.trust
  t.activeSet % 2 + b2n t.trial * 2 + t.attempts % 4 * 4 + b2n t.staged * 16 + b2n t.pendingWarm * 32 + b2n t.pendingCold * 64
    + t.minSecurity % 2 ^ 16 * 2 ^ 16 + t.bootCount % 2 ^ 32 * 2 ^ 32

/-- Report bytes 200 to 207: ceiling, AP mask, NP mask (their places are the model's, log 22). -/
def policyWord (s : State) : Nat := s.trust.ceiling % 2 ^ 8 + s.trust.shutterAp % 2 ^ 8 * 2 ^ 8 + s.trust.shutterNp % 2 ^ 16 * 2 ^ 16

/-! ### Claim, keys, policy (R555 to R557) -/

/-- What a command answers: the state after it, its status and its results. -/
abbrev Answer := State × Nat × List Byte

def aOk (s : State) : Answer := (s, 0, [])
def aBad (s : State) (status : Nat) : Answer := (s, status, [])

/-- Public key of 60 bytes, then management key of 32 (the places are the model's, log 22). -/
def keyOfBody (b : List Byte) : RoleKey := { pub := b.take 60, mgmt := sliceB b 60 32 }

/-- CLAIM: only while unclaimed, with the strap sampled low at this tick (R555, R590). -/
def claimEff (b : List Byte) (s : State) : Answer :=
  if s.trust.installer.isSome ∨ s.trust.claimEnN then aBad s 0x0E
  else if b.length ≠ 92 then aBad s 0x06
  else aOk (s.modTrust (fun t => { t with installer := some (keyOfBody b) }))

/-- RELEASE erases keys and policy, then restarts warm (R555). -/
def releaseEff (s : State) : Answer :=
  aOk (warmRestart (s.modTrust (fun t => { t with installer := none, operator := none, policy := false, ceiling := 0, shutterAp := 0, shutterNp := 0 })))

/-- INSTALLER_KEY: signed with the current key. -/
def installerEff (b : List Byte) (s : State) : Answer :=
  if b.length < 92 then aBad s 0x06
  else if !s.trust.installer.any (fun k => hssVerify k.pub (b.drop 92) (natLE 1 0x03 ++ b.take 92)) then aBad s 0x80
  else aOk (s.modTrust (fun t => { t with installer := some (keyOfBody b) }))

/-- Once policy and operator key are present, shutters open (R542). -/
def nowPermitted (s : State) : State := settleHeld (if permitted s ∧ 3 ≤ s.power.stage then openShutters s else s)

/-- OPERATOR_KEY closes the sessions of the key it replaces (R557). -/
def operatorEff (b : List Byte) (s : State) : Answer :=
  if b.length ≠ 92 then aBad s 0x06
  else
    let old := s.trust.operator.isSome
    let s1 := s.modTrust (fun t => { t with operator := some (keyOfBody b) })
    let s2 := if old then s.trust.sessions.foldl (fun s p => if p.2.opened ∧ p.2.role = 2 then closeSession s p.1 else s) s1 else s1
    aOk (nowPermitted s2)

/-- POLICY: ceiling, then the shutter masks; what it withdraws closes, and a profile above the ceiling comes down (R557). -/
def policyEff (b : List Byte) (s : State) : Answer :=
  let c := leNat (b.take 1)
  if b.length ≠ 4 ∨ 2 < c then aBad s 0x06
  else
    let ap := leNat (sliceB b 1 1)
    let np := leNat (sliceB b 2 2)
    let offA := (List.range 8).filter (fun p => bitAt s.trust.shutterAp p && !bitAt ap p)
    let offN := (List.range 16).filter (fun p => bitAt s.trust.shutterNp p && !bitAt np p)
    let s1 := s.modTrust (fun t => { t with policy := true, ceiling := c, shutterAp := ap, shutterNp := np })
    let s2 := netDown (offA.foldl goShut s1) offN
    let s3 := if c < s.power.selected then nextChange (s2.modPow (fun w => { w with selected := c })) else s2
    aOk (postTrust (nowPermitted s3) 0x4205 (policyWord s3))

/-! ### Consent and debug unlock (R558, R559) -/

/-- A consent token that the installer signed for this device: serial, boot count, scope, nonce, sealed maker key and its
tag at bytes 0, 8, 12, 16, 28 and 60 (the places are the model's, log 22). -/
def readToken (s : State) (token sig : List Byte) : Option Consent :=
  match s.trust.installer with
  | none => none
  | some k =>
    if token.length ≠ 256 ∨ hssVerify k.pub sig token = false ∨ leNat (token.take 8) ≠ Config.serial.toNat then none
    else (gcmOpen k.mgmt (sliceB token 16 12) (token.take 16) (sliceB token 28 32) (sliceB token 60 16)).map (fun key =>
      { boot := leNat (sliceB token 8 4), scope := leNat (sliceB token 12 1) % 8, key := key })

def consentEff (b : List Byte) (s : State) : Answer :=
  match readToken s (b.take 256) (b.drop 256) with
  | none => aBad s 0x80
  | some c => aOk (s.modTrust (fun t => { t with consent := some c }))

/-- DEBUG_UNLOCK: a token of this boot, with the strap sampled low at this tick; its scope opens to the session that presents
it (R559, R590). -/
def unlockEff (n : Nat) (b : List Byte) (s : State) : Answer :=
  match readToken s (b.take 256) (b.drop 256) with
  | none => aBad s 0x80
  | some c =>
    if c.boot ≠ s.trust.bootCount ∨ s.trust.debugEnN then aBad s 0x0E
    else aOk (settleModes (postTrust (s.modTrust (fun t => { t with debugScope := c.scope, debugSession := n })) 0x4203 c.scope))

/-- A debug strap that reads high ends an unlock at once (R559, R590). -/
def strapTick (claimEnN debugEnN : Bool) (s : State) : State :=
  let s1 := s.modTrust (fun t => { t with claimEnN := claimEnN, debugEnN := debugEnN })
  if debugEnN ∧ s.trust.debugScope ≠ 0 then settleModes (s1.modTrust (fun t => { t with debugScope := 0 })) else s1

/-! ### Firmware (R565 to R567) -/

/-- FW_STAGE: the set goes to the inactive set's device and is checked there (R552, R565). -/
def stageEff (x : ImageSet) (s : State) : Answer :=
  let k := 1 - s.trust.activeSet
  let x := { x with factory := false }
  if s.trust.act.isSome then aBad s 0x83
  else if s.trust.flashBad.contains k then aBad s 0x07
  else if leNat (x.signed.take 4) ≠ 0x09601A6E then aBad s 0x06
  else
    let st := setStatus s x
    let s1 := s.modTrust (fun t => { t with sets := oput t.sets k x, staged := st == 0 })
    if st ≠ 0 then aBad s1 st else (s1, 0, natLE 8 (x.version % 2 ^ 32 + x.security % 2 ^ 16 * 2 ^ 32))

def runningComp (s : State) (c : Nat) : Comp := mget s.fw.comps c {}
/-- A component of a set differs from the running one. -/
def compDiffers (s : State) (x : ImageSet) (c : Nat) : Bool := x.comps.any (fun i => i.id == c && i.digest != (runningComp s c).digest)

/-- The waiting command of an activation ends. -/
def endActivation (s : State) (a : Activation) (status result : Nat) : State :=
  match a.from_ with
  | .ring ref => finish s ref status result 0
  | .session n => answer s n status (if status = 0 then natLE 8 result else [])

/-- Every component is replaced: microcode by a warm restart, now or later, limits and identity at the next power-good
(R566). -/
def finishActivation (s : State) (a : Activation) : State :=
  match setIn s s.trust.activeSet with
  | none => endActivation (s.modTrust (fun t => { t with act := none })) a 0x87 0
  | some x =>
    let micro := compDiffers s x 0x10
    let cold := compDiffers s x 0x11 || compDiffers s x 0x12
    let n := a.done.length
    let s1 := s.modTrust (fun t => { t with act := none, pendingWarm := t.pendingWarm || (micro && !a.warmNow), pendingCold := t.pendingCold || cold })
    let s2 := endActivation (postTrust s1 0x4202 n) a 0 (n + b2n s1.trust.pendingWarm * 2 ^ 16 + b2n s1.trust.pendingCold * 2 ^ 17)
    if micro && a.warmNow then warmRestart s2 else s2

/-- FW_ACTIVATE: the staged set becomes the active one in trial, and its components wait to be replaced in order. -/
def activateEff (from_ : FwFrom) (warmNow : Bool) (s : State) : State × Option Nat :=
  let k := 1 - s.trust.activeSet
  if s.trust.act.isSome then (s, some 0x83)
  else match (if s.trust.staged && setGood s k then setIn s k else none) with
    | none => (s, some 0x84)
    | some x =>
      let todo := (List.range 8).filter (fun c => c != 0 && compDiffers s x c)
      let a : Activation := { from_ := from_, prev := s.trust.activeSet, todo := todo, warmNow := warmNow }
      (s.modTrust (fun t => { t with activeSet := k, trial := true, attempts := 0, trying := false, staged := false, act := some a }), none)

/-- With nothing to replace an activation ends at once. -/
def settleActivation (s : State) : State :=
  match s.trust.act with
  | some a => if a.todo.isEmpty && a.cur.isNone && !a.failed then finishActivation s a else s
  | none => s

/-- FW_CONFIRM (R567). -/
def confirmEff (s : State) : Answer :=
  if s.trust.act.isSome then aBad s 0x83
  else
    let sec := (setIn s s.trust.activeSet).elim s.trust.minSecurity (fun x => max s.trust.minSecurity x.security)
    (s.modTrust (fun t => { t with trial := false, attempts := 0, trying := false, minSecurity := sec }), 0, natLE 8 (sec % 2 ^ 16))

/-- KEEPER is replaced standby first: the replaced keeper takes over by failover, then the other is replaced (R240). -/
def replaceKeepers (s : State) (c : Comp) : State :=
  let old := s.fw.active
  let s1 := doKeeperReload (doFailover (stopKeeper (startKeeper s (1 - old)) old (s.core (64 + old)).lastCause))
  let g := ((runningComp s 1).gen + 1) % 2 ^ 16
  postAll { s1 with fw := { s1.fw with comps := mset s1.fw.comps 1 { c with gen := g } {} } } bothPf1 0x1303 1 g

/-- The replacement of a component starts; another hand-off major version refuses it (R239, R240). -/
def beginReplace (s : State) (c : Nat) (new : Comp) : State :=
  let run := runningComp s c
  let s1 := s.modTrust (fun t => { t with act := t.act.map (fun a => { a with cur := some (c, run) }) })
  if new.handoff ≠ run.handoff then s1
  else if c = 1 then replaceKeepers s1 new
  else
    let cores := (coresOfComp c).filter (fun d => (s.core d).st != .off && (s.core d).st != .failed)
    if cores.isEmpty then
      let g := (run.gen + 1) % 2 ^ 16
      postAll { s1 with fw := { s1.fw with comps := mset s1.fw.comps c { new with gen := g } {} } } bothPf1 0x1303 c g
    else { s1 with fw := { s1.fw with repl := some { comp := c, new := new, todo := cores } } }

/-- Outcome of the component in hand: replaced, or failed, when the boot selector returns to the previous set (R566). -/
def settleReplace (s : State) (a : Activation) : State × Activation :=
  match a.cur with
  | none => (s, a)
  | some (c, old) =>
    if a.failed then (s, { a with cur := none, done := a.done.drop 1 })
    else if (runningComp s c).gen ≠ old.gen then (s, { a with cur := none, done := (c, old) :: a.done, todo := a.todo.drop 1 })
    else (s.modTrust (fun t => { t with activeSet := a.prev, trial := false, staged := setGood s (1 - a.prev) }), { a with cur := none, failed := true })

/-- The next component of an activation is replaced, or returned after a failure; after the last the activation ends
(R239, R566). -/
def doReplace (s : State) : State :=
  match s.trust.act with
  | none => s
  | some a0 =>
    if s.fw.repl.isSome ∨ activeUp s = false then s
    else
      let p := settleReplace s a0
      let a := p.2
      let s1 := p.1.modTrust (fun t => { t with act := some a })
      if a.failed then
        match a.done with
        | [] => endActivation (s1.modTrust (fun t => { t with act := none })) a 0x87 0
        | (c, old) :: _ => beginReplace s1 c old
      else match a.todo, setIn s1 s1.trust.activeSet with
        | c :: _, some x =>
          match x.comps.find? (fun i => i.id == c) with
          | some i => beginReplace s1 c { version := i.version, handoff := i.handoff, digest := i.digest, code := i.code, data := i.data, regions := i.regions, evec := i.evec }
          | none => s1
        | _, _ => finishActivation s1 a

def execComponentReplace (s : State) : Host.Outcome State Fault Refusal := .next (doReplace s)

/-! ### Attestation and the audit log (R563, R564, R568) -/

/-- Bytes 0 to 255 of a report (Table 17-6). -/
def reportBody (s : State) (nonce : List Byte) (leaf : Nat) : List Byte :=
  let t := s.trust
  let zeros := List.replicate 32 0#8
  let keyHash (k : Option RoleKey) : List Byte := match k with | some k => sha256 k.pub | none => zeros
  natLE 8 (0x0960A77E + 2 ^ 32 + 0xB0 * 2 ^ 40) ++ natLE 8 Config.serial.toNat ++ (nonce ++ zeros).take 32
    ++ natLE 8 t.bootCount ++ natLE 8 (ptp s) ++ natLE 4 (trState s) ++ natLE 4 (trFw s)
    ++ (match setIn s t.activeSet with | some x => manifestDigest x | none => zeros)
    ++ (match (if t.staged then setIn s (1 - t.activeSet) else none) with | some x => manifestDigest x | none => zeros)
    ++ keyHash t.installer ++ keyHash t.operator ++ natLE 8 (policyWord s) ++ natLE 8 t.seq ++ (t.head ++ zeros).take 32 ++ natLE 8 leaf

/-- ATTEST: the report, or 0x85 where no leaf is left (R561, R564). -/
def attestEff (nonce : List Byte) (s : State) : Answer :=
  let p := takeLeaf s
  match p.2 with
  | none => aBad p.1 0x85
  | some q =>
    let body := reportBody s nonce q
    (p.1, 0, body ++ deviceSig q body)

/-- Bytes of a record (Table 17-5). -/
def recordBytes (r : AuditRec) : List Byte := natLE 32 r.word ++ (r.chain ++ List.replicate 32 0#8).take 32

/-- AUDIT_READ: records from `first` on, at most `n`. -/
def auditReadEff (first n : Nat) (s : State) : Answer :=
  if n = 0 ∨ 4096 < n then aBad s 0x06
  else if first < oldestSeq s.trust.seq then aBad s 0x86
  else (s, 0, ((List.range (min n (s.trust.seq - first))).flatMap (fun k => recordBytes (mget s.trust.records (first + k) {}))))

/-! ### Clear read-out (R431) -/

/-- The maker's session may read key slots in clear: a debug unlock is open to it, with clear read-out in its scope (R431,
R547, R558). -/
def mayReadOut (s : State) (n : Nat) : Bool :=
  (s.session n).opened && (s.session n).role == 0 && s.trust.debugSession == n && bitAt s.trust.debugScope 2

/-- Clear read-out of a key slot: it enters the audit log first, and answers the slot's contents as CTX_SAVE lays them out
(R431, R562). Table 17-4 gives it no command code and the opcode table no row, so it is an operation beside the commands
(DESIGN CHOICE, log 22). -/
def readOut (n slot : Nat) (s : State) : Answer :=
  if !mayReadOut s n then aBad s 0x0E
  else match s.slot slot with
    | none => aBad s 0x02
    | some k => match auditRec s 0x0301 0 0 0 (slot % 2 ^ 18) with
      | none => aBad s 0x07
      | some s1 => (s1, 0, ctxClear k)

/-- The read-out as its session sees it. -/
def sessionReadOut (n slot : Nat) (s : State) : State :=
  let a := readOut n slot s
  answer a.1 n a.2.1 a.2.2

/-! ### Application of a session's commands at a tick (R547, R556) -/

/-- A session's role holds the right of a command (Table 17-4); in recovery FW_STAGE alone is accepted (R554). -/
def cmdRight (s : State) (c : MgmtCmd) : Bool :=
  let sub := leNat (c.body.take 1)
  if s.trust.recovery then c.code == 8 && sub == 1 && (c.role == 1 || s.trust.installer.isNone)
  else match c.code with
    | 1 => true
    | 7 => c.role == 0
    | 8 => c.role == 1 || c.role == 2
    | 9 => true
    | _ => c.role == 1

def cmdEff (c : MgmtCmd) (s : State) : Answer :=
  let b := c.body
  if !cmdRight s c then aBad s 0x0E
  else match c.code with
    | 1 => claimEff b s
    | 2 => releaseEff s
    | 3 => installerEff b s
    | 4 => operatorEff b s
    | 5 => policyEff b s
    | 6 => consentEff b s
    | 7 => unlockEff c.session b s
    | 8 => match leNat (b.take 1) with
      | 1 => stageEff c.image s
      | 2 => let p := activateEff (.session c.session) (bitAt (leNat (sliceB b 1 1)) 0) s
             (p.1, p.2.getD 0, [])
      | _ => confirmEff s
    | _ => match leNat (b.take 1) with
      | 4 => attestEff (sliceB b 1 32) s
      | _ => auditReadEff (leNat (sliceB b 1 8)) (leNat (sliceB b 9 4)) s

/-- A command is entered in the audit log with its outcome, takes effect and is answered; an activation answers at its end
(R556, R562). -/
def applyCmd (s : State) (c : MgmtCmd) : State × Nat × List Byte :=
  let st := (cmdEff c s).2.1
  match auditRec s (0x0100 + c.code) c.role 0 st 0 with
  | none => (answer s c.session 0x07 [], 0x07, [])
  | some s1 =>
    let a := cmdEff c s1
    if c.code = 8 ∧ leNat (c.body.take 1) = 2 ∧ a.2.1 = 0 then (settleActivation a.1, 0, [])
    else (answer a.1 c.session a.2.1 a.2.2, a.2)

/-- Another session's later command of the same code, with other arguments, stands instead (R64, R556). -/
def cmdLoses (c : MgmtCmd) (later : List MgmtCmd) : Bool :=
  decide (c.code < 8) && later.any (fun d => d.code == c.code && d.session != c.session && d.body != c.body)

/-- Commands in the order they came: a contradicted one is logged and answered 0x0D, equal ones of several sessions act
once. -/
def applyCmds : List MgmtCmd → List (MgmtCmd × Nat × List Byte) → State → State
  | [], _, s => s
  | c :: rest, done, s =>
    if cmdLoses c rest then applyCmds rest done (answer (logConflict s 0x42 c.code 0 0 false) c.session 0x0D [])
    else match (if c.code < 8 then done.find? (fun d => d.1.code == c.code && d.1.session != c.session && d.1.body == c.body) else none) with
      | some d => applyCmds rest done (answer s c.session d.2.1 d.2.2)
      | none =>
        let p := applyCmd s c
        applyCmds rest ((c, p.2) :: done) p.1

def tickCmds (s : State) : State := applyCmds s.trust.cmds [] (s.modTrust (fun t => { t with cmds := [] }))

/-! ### Commands of sessions (Table 17-4) -/

def execClaim (session : Nat) (msg : List (BitVec 8)) (s : State) : Host.Outcome State Fault Refusal :=
  .next (gatedS session (.claim session msg) (queueCmd session 1 none msg {}) s)
def execRelease (session : Nat) (msg : List (BitVec 8)) (s : State) : Host.Outcome State Fault Refusal :=
  .next (gatedS session (.release session msg) (queueCmd session 2 none msg {}) s)
def execInstallerKey (session : Nat) (msg : List (BitVec 8)) (s : State) : Host.Outcome State Fault Refusal :=
  .next (gatedS session (.installerKey session msg) (queueCmd session 3 none msg {}) s)
def execOperatorKey (session : Nat) (msg : List (BitVec 8)) (s : State) : Host.Outcome State Fault Refusal :=
  .next (gatedS session (.operatorKey session msg) (queueCmd session 4 none msg {}) s)
def execPolicy (session : Nat) (msg : List (BitVec 8)) (s : State) : Host.Outcome State Fault Refusal :=
  .next (gatedS session (.policy session msg) (queueCmd session 5 none msg {}) s)
def execConsent (session : Nat) (msg : List (BitVec 8)) (s : State) : Host.Outcome State Fault Refusal :=
  .next (gatedS session (.consent session msg) (queueCmd session 6 none msg {}) s)
def execDebugUnlock (session : Nat) (msg : List (BitVec 8)) (s : State) : Host.Outcome State Fault Refusal :=
  .next (gatedS session (.debugUnlock session msg) (queueCmd session 7 none msg {}) s)

/-! ### Commands of kind 0x42 (R565, R568) -/

/-- A firmware command of a ring pair enters the audit log with its outcome before it acts; contradicting ones of one
message time are settled by R66 (R562, R565). -/
def fwCmd (s : State) (r op effect : Nat) (act : State → CmdRes) : CmdRes :=
  exclusive s r 0x42 0 effect (fun s =>
    let st := match (act s).2 with | some x => x.1 | none => 0
    match auditRec s (0x4200 + op) 2 r st 0 with
    | none => bad s 0x07
    | some s1 => act s1)

def ofAnswer (a : Answer) : CmdRes := (a.1, some (a.2.1, leNat a.2.2, 0))

def fwStageRing (r d : Nat) (read : HRead) (x : ImageSet) (s : State) : CmdRes :=
  if fld d 64 64 % 64 ≠ 0 ∨ fld d 128 32 < 4096 ∨ 192 * 2 ^ 20 < fld d 128 32 then bad s 0x06
  else
    let h := rdHost s r (fld d 128 32) read
    if h.1 ≠ 0 then bad s h.1 else fwCmd s r 1 (1 + x.version * 4) (fun s => ofAnswer (stageEff x s))

def execFwStage (src : FwSrc) (read : HRead) (image : ImageSet) (s : State) : Host.Outcome State Fault Refusal :=
  .next (match src with
    | .ring fn ring => inRankOrder fn ring (fun s => onDesc s fn ring 0x42 0x01 (fun d _ s => fwStageRing fn d read image s)) s
    | .session n msg => gatedS n (.fwStage src read image) (queueCmd n 8 (some 1) msg image) s
    | .doe _ _ => s)

def fwActivateRing (r d : Nat) (ref : DRef) (s : State) : CmdRes :=
  fwCmd s r 2 (2 + b2n (bitAt d 160) * 4) (fun s =>
    let p := activateEff (.ring ref) (bitAt d 160) s
    match p.2 with
    | some st => bad p.1 st
    | none => later p.1)

def execFwActivate (src : FwSrc) (s : State) : Host.Outcome State Fault Refusal :=
  .next (match src with
    | .ring fn ring => settleActivation (inRankOrder fn ring (fun s => onDesc s fn ring 0x42 0x02 (fun d ref s => fwActivateRing fn d ref s)) s)
    | .session n msg => gatedS n (.fwActivate src) (queueCmd n 8 (some 2) msg {}) s
    | .doe _ _ => s)

def execFwConfirm (src : FwSrc) (s : State) : Host.Outcome State Fault Refusal :=
  .next (match src with
    | .ring fn ring => inRankOrder fn ring (fun s => onDesc s fn ring 0x42 0x03 (fun _ _ s => fwCmd s fn 3 3 (fun s => ofAnswer (confirmEff s)))) s
    | .session n msg => gatedS n (.fwConfirm src) (queueCmd n 8 (some 3) msg {}) s
    | .doe _ _ => s)

def attestRing (r d : Nat) (s : State) : CmdRes :=
  if fld d 64 64 % 64 ≠ 0 then bad s 0x06
  else
    let a := attestEff (natLE 32 (fld d 256 256)) s
    if a.2.1 ≠ 0 then bad a.1 a.2.1 else okR (hostWrite a.1 r (fld d 64 64) a.2.2) a.2.2.length

/-- ATTEST of a ring pair, a session or a DOE mailbox (R564). -/
def execAttest (src : FwSrc) (s : State) : Host.Outcome State Fault Refusal :=
  .next (match src with
    | .ring fn ring => onDesc s fn ring 0x42 0x04 (fun d _ s => attestRing fn d s)
    | .session n msg => gatedS n (.attest src) (queueCmd n 9 (some 4) msg {}) s
    | .doe fn nonce => if isPf0 fn ∧ (s.fn fn).st ≠ .off ∧ s.trust.recovery = false then let a := attestEff nonce s; emit a.1 (.doe fn a.2.2) else s)

def auditReadRing (r d : Nat) (s : State) : CmdRes :=
  if fld d 64 64 % 64 ≠ 0 then bad s 0x06
  else
    let a := auditReadEff (fld d 192 64) (fld d 128 32) s
    if a.2.1 ≠ 0 then bad a.1 a.2.1 else okR (hostWrite a.1 r (fld d 64 64) a.2.2) (a.2.2.length / 64)

def execAuditRead (src : FwSrc) (s : State) : Host.Outcome State Fault Refusal :=
  .next (match src with
    | .ring fn ring => onDesc s fn ring 0x42 0x05 (fun d _ s => auditReadRing fn d s)
    | .session n msg => gatedS n (.auditRead src) (queueCmd n 9 (some 5) msg {}) s
    | .doe _ _ => s)

end Sys2Proof.Machine
end

