-- ==== Sys2Proof/Machine/Weather.lean ====
section
/-!
DEFINITION. Arming of check-value units, samples of alive monitors, and the sampled records of the weather feed (18: R571
to R579).
-/
namespace Sys2Proof.Machine

/-! ### Arming (R571, R574, R575) -/

/-- A write of CHECK_VALUE for a unit or monitor: the owning PF1's acts, the other PF1's is counted under R34. -/
def cvReg (s : State) (r owner : Nat) (act : State → State) : State :=
  if !(isPf1 r && present s r) then s
  else if owner ≠ r then s.modFn r (fun f => { f with roleDenied := satAdd 32 f.roleDenied 1 })
  else act s

/-- The tap's port or interface belongs to the function, and sel lies in its range (R575). -/
def tapOk (s : State) (r tap sel : Nat) : Bool :=
  if tap = 1 ∨ tap = 2 ∨ tap = 6 then decide (sel < 8) && ownerOf s sel == r
  else if tap = 3 ∨ tap = 4 then decide (sel < 64) && netOwner s (sel / 4) == r
  else if tap = 5 then decide (sel < 12) else true

/-- Values that CV_CTRL takes (Table 18-7). -/
def ctrlOk (v : Nat) : Bool := fld v 0 3 != 7 && fld v 3 2 != 3 && fld v 5 2 != 3

/-- Channels of a port's receive side, or classes of its egress, of which a transaction is under way at a tap (R574). -/
def underWay (s : State) (tap p : Nat) : List Nat :=
  if tap = 1 then ((s.port p).streams.filter (fun x => !x.2.slots.isEmpty)).map (·.1)
  else if tap = 2 ∨ tap = 6 then ((s.port p).egress.filter (fun e => e.sent != 0)).map (·.cls) else []

/-- CV_CTRL written with arm 1. -/
def doArm (r n v : Nat) (s : State) : State :=
  if 32 ≤ n then s
  else cvReg s r (cvOwner n) (fun s =>
    if !ctrlOk v then s
    else if !tapOk s r (fld v 0 3) (s.cv n).sel then s.modCv n (fun u => { u with badTap := true })
    else (cvAbort n s).modCv n (fun u => { u with
      tap := fld v 0 3, poly := fld v 3 2, mode := fld v 5 2, armed := true, stopped := false, progress := 0, taken := [], skip := underWay s (fld v 0 3) u.sel }))

def execCvArm (fn unit : Nat) (ctrl : BitVec 32) (s : State) : Host.Outcome State Fault Refusal :=
  .next (gated fn (.cvArm fn unit ctrl) (doArm fn unit ctrl.toNat) s)

/-- CV_CTRL written with arm 0: the window in progress is discarded and the unit stops. -/
def doDisarm (r n v : Nat) (s : State) : State :=
  if 32 ≤ n then s
  else cvReg s r (cvOwner n) (fun s =>
    if !ctrlOk v then s
    else (cvEnd n s).modCv n (fun u => { u with
      tap := fld v 0 3, poly := fld v 3 2, mode := fld v 5 2, armed := false, progress := 0, taken := [] }))

def execCvDisarm (fn unit : Nat) (ctrl : BitVec 32) (s : State) : Host.Outcome State Fault Refusal :=
  .next (gated fn (.cvDisarm fn unit ctrl) (doDisarm fn unit ctrl.toNat) s)

/-! ### Samples of alive monitors (R576, R577) -/

/-- A core in WAIT, or in LOCK with wait 1. -/
def coreQuiet (s : State) (c : Nat) : Bool := match (s.core c).act with
  | .waiting _ _ _ _ => true
  | .locking _ _ _ => true
  | _ => false

/-- What a monitor reads: a core's alive counter, or a word of memory; none where it cannot be read. -/
def amRead (s : State) (k : Nat) (read : HRead) : State × Option Nat :=
  let m := s.mon k
  if m.source = 1 then (s, if 66 ≤ m.core ∨ (m.core < 64 ∧ domOn s (ctlTile m.core) = false) then none else some ((s.core m.core).alive % 2 ^ 32))
  else if m.addr % 2 ^ m.width ≠ 0 then (s, none)
  else
    let p := rdSpace s (monOwner k) 3 m.addr (2 ^ m.width) read
    (p.1, if p.2.1 = 0 then some (leNat p.2.2) else none)

/-- period_us have passed since the last sample; a tap's monitor samples with its unit (R576). -/
def doSample (k : Nat) (read : HRead) (s : State) : State :=
  let m := s.mon k
  if 64 ≤ k ∨ m.enable = false ∨ (m.source ≠ 1 ∧ m.source ≠ 2) then s
  else
    let s1 := advanceTo s m.nextAt
    let p := amRead (s1.modMon k (fun m => { m with nextAt := s1.vcycle + m.period * usCycles })) k read
    amTake k p.2 (m.source == 1 && coreQuiet s m.core) p.1

def execAmSample (mon : Nat) (read : HRead) (s : State) : Host.Outcome State Fault Refusal := .next (doSample mon read s)

/-! ### Sampled records (R579, Table 18-5) -/

def portCode (p : PortSt) : Nat := match p with
  | .shut => 0 | .detect => 1 | .train => 2 | .creditInit => 3 | .active => 4 | .retrain => 5 | .down => 6

def totalOf (s : State) (type source k : Nat) : Nat := mget s.wx.totals (totKey type source k) 0

/-- Deltas of several counts of one source, each placed at its bit. -/
def deltas (s : State) (type source : Nat) (cs : List (Nat × Nat × Nat × Nat)) : State × Nat :=
  cs.foldl (fun (p : State × Nat) c =>
    let d := deltaOf p.1 type source c.1 c.2.1
    (d.1, p.2 + d.2 % 2 ^ c.2.2.2 * 2 ^ c.2.2.1)) (s, 0)

/-- One record of a source; counts as (number, value now, bit of the payload, width). -/
def sampleOne (s : State) (type source : Nat) (cs : List (Nat × Nat × Nat × Nat)) (rest : Nat) : State :=
  let p := deltas s type source cs
  feedPut p.1 type source (p.2 + rest)

def samplePower (s : State) (xs : List Nat) : State :=
  feedPut s 0x01 0 (lget xs 0 0 % 2 ^ 16 + lget xs 1 0 % 2 ^ 16 * 2 ^ 16 + lget xs 2 0 % 2 ^ 16 * 2 ^ 32
    + s.power.inForce * 2 ^ 48 + s.power.reason * 2 ^ 50 + effective s s.power.inForce * 2 ^ 53)

def sampleDomain (s : State) (d temp : Nat) : State :=
  let k := s.dom d
  if k.power = 0 then s else feedPut s 0x02 d (temp % 2 ^ 8 + k.power * 2 ^ 8 + k.service * 2 ^ 10 + k.gen % 2 ^ 16 * 2 ^ 12)

def samplePort (s : State) (p : Nat) : State :=
  let a := s.port p
  if a.st = .shut then s
  else sampleOne s 0x03 p
    [(0, totalOf s 3 p 0, 0, 64), (1, totalOf s 3 p 1, 64, 64), (2, a.crcErr, 128, 32), (3, a.replayCnt, 160, 32), (4, a.drop, 192, 32)]
    (portCode a.st * 2 ^ 224 + a.width * 2 ^ 228)

def sampleIf (s : State) (j : Nat) : State :=
  let i := s.netIf j
  if !i.up then s
  else sampleOne s 0x04 j
    [(0, totalOf s 4 j 0, 0, 64), (1, totalOf s 4 j 1, 64, 64), (2, i.rxNoq + i.rxNobuf, 128, 32), (3, i.gateDrop, 160, 32), (4, totalOf s 4 j 4, 192, 32)] 0

def sampleStack (s : State) (n temp : Nat) : State :=
  let k := s.stk n
  if !domOn s (stackDom n) then s
  else sampleOne s 0x05 n [(0, totalOf s 5 n 0, 0, 64), (1, k.ce, 64, 32), (2, k.ue, 96, 32)] (temp % 2 ^ 8 * 2 ^ 128 + groupsLeft k * 2 ^ 136)

def sampleSum (s : State) (t : Nat) : State :=
  let k := mget s.red.tiles t {}
  if !inService s (if t < 6 then 16 + t else 42 + 16 + (t - 6)) then s
  else sampleOne s 0x06 t [(0, k.ingest, 0, 64), (1, k.spill, 64, 64)] ((ctxsOn s t).length % 2 ^ 5 * 2 ^ 128)

/-- WF_INTERVAL_t has passed: one record per source, in ascending order. `sensors` are what the module's sensors read: for
POWER mV, mA and W; for DOMAIN and STACK a temperature for each number. -/
def doWfSample (type : Nat) (xs : List Nat) (s : State) : State :=
  let ms := mget s.wx.intervals type 1000
  if type = 0 ∨ 6 < type ∨ ms = 0 then s
  else
    let s0 := advanceTo s (mget s.wx.sampledAt type 0 + ms * msCycles)
    let s1 := s0.modWx (fun w => { w with sampledAt := mset w.sampledAt type s0.vcycle 0 })
    match type with
    | 1 => samplePower s1 xs
    | 2 => (List.range 108).foldl (fun s d => sampleDomain s d (lget xs d 0)) s1
    | 3 => (List.range 8).foldl samplePort s1
    | 4 => (List.range 64).foldl sampleIf s1
    | 5 => (List.range 8).foldl (fun s n => sampleStack s n (lget xs n 0)) s1
    | _ => (List.range 12).foldl sampleSum s1

def execWfSample (type : Nat) (sensors : List Nat) (s : State) : Host.Outcome State Fault Refusal := .next (doWfSample type sensors s)

end Sys2Proof.Machine
end

