-- ==== Sys2Proof/Machine/RegMap.lean ====
section
/-!
DEFINITION. What registers read (00: R5 to R12; every register map): the width of the register at an offset of a block, and
its value. `r` is the function that presents the block, or 0 for the management port's register view.
-/
namespace Sys2Proof.Machine

/-- Width in bits and value of a register; none where no register lies. -/
abbrev RegVal := Option (Nat × Nat)

def v32 (v : Nat) : RegVal := some (32, v % 2 ^ 32)
def v64 (v : Nat) : RegVal := some (64, v % 2 ^ 64)

/-- An array of n groups of registers of one stride. -/
def regArr (off base stride n : Nat) (f : Nat → Nat → RegVal) : RegVal :=
  if base ≤ off ∧ off < base + stride * n then f ((off - base) / stride) ((off - base) % stride) else none

/-- A field placed at a bit. -/
def at_ (v bit w : Nat) : Nat := v % 2 ^ w * 2 ^ bit

/-! ### Functions (Tables 2-5, 2-12, 2-14, 14-11, 14-12) -/

/-- CONFLICT_LOG (Table 2-14). -/
def conflictReg (s : State) (off : Nat) : RegVal :=
  if off = 0x100 then v32 s.transom.conflicts
  else regArr off 0x200 16 256 (fun n o =>
    let e := mget s.transom.conflictLog n {}
    if o = 0 then v64 e.time else if o = 8 then v64 e.what else none)

def ringReg (s : State) (r off : Nat) : RegVal :=
  let f := s.fn r
  let most := if isPf0 r then 8 else if isPf1 r then 256 else 16
  match off with
  | 0x00 => v64 (most + 6 * 2 ^ 16 + 16 * 2 ^ 24 + at_ f.gen 32 16)
  | 0x08 => v64 (f.dirBase * 4096)
  | 0x10 => v32 f.dirCount
  | 0x14 => v32 0
  | 0x18 => v32 (b2n f.dirBusy + at_ f.dirStatus 8 8 + at_ f.dirBad 16 8)
  | 0x20 => v32 (f.leasePeriod + at_ (b2n f.leaseArmed) 16 1 + at_ (b2n f.leaseBad) 17 1)
  | 0x24 => v32 (leaseLeft s r)
  | 0x28 => v32 f.dbDiscards
  | 0x2C => v32 f.roleDenied
  | _ => if isPf0 r then conflictReg s off else none

def eventReg (s : State) (r off : Nat) : RegVal :=
  let f := s.fn r
  match off with
  | 0x00 => v64 (f.evBase * 4096)
  | 0x08 => v32 (at_ f.evOrder 0 8 + at_ f.evVector 8 11 + at_ (b2n f.evEnable) 31 1)
  | 0x0C => v32 0
  | 0x10 => v32 f.evStatus
  | 0x14 => v32 f.evLost
  | _ => none

def fnCode (k : FnSt) : Nat := match k with
  | .off => 0 | .clean => 1 | .active => 2 | .draining => 3 | .frozen => 4 | .saved => 5

/-- Current use of a VF, laid out as its quotas (R486). -/
def useA (s : State) (r : Nat) : Nat :=
  at_ ((s.fn r).rings.filter (fun q => q.2.st != .disabled)).length 0 5
  + at_ (s.rdma.qps.filter (fun q => q.2.own.fn == r)).length 8 24 + at_ (slotsOf_ s r) 32 20
def useB (s : State) (r : Nat) : Nat :=
  at_ (s.kv.seqs.filter (fun p => p.2.own.fn == r)).length 0 13
  + at_ (s.rdma.mrs.filter (fun m => m.2.own.fn == r && !m.2.staging)).length 16 21
  + at_ ((ctrlOf r).elim 0 (fun c => ((s.ctl c).sqs.filter (fun q => q.1 != 0)).length)) 40 8

/-- Quota fields that are not reserved: on PF1 and its VFs all but nvme_queues, on PF2 and its VFs nvme_queues alone (R493). -/
def quotaBits (r : Nat) (second : Bool) : Nat :=
  if isPf2 r || isVf2 r then (if second then 0xFF * 2 ^ 40 else 0)
  else if second then (2 ^ 13 - 1) + (2 ^ 21 - 1) * 2 ^ 16 else (2 ^ 5 - 1) + (2 ^ 24 - 1) * 2 ^ 8 + (2 ^ 20 - 1) * 2 ^ 32

/-- What a quota register reads: reserved bits are zero (R12). -/
def quotaVal (s : State) (vf : Nat) (second : Bool) : Nat :=
  Nat.land (if second then (s.fn vf).quotaB.toNat else (s.fn vf).quotaA.toNat) (quotaBits vf second)

def orphanReg (s : State) (r : Nat) : Nat :=
  match (s.fn r).orphan with
  | none => 0
  | some o => 1 + at_ ((s.fn r).rings.filter (fun q => q.2.st == .orphaned)).length 1 9 + at_ o.oldGen 16 16 + at_ o.cause 32 4
      + at_ ((s.vcycle - o.at_) / msCycles) 36 28

def fnReg (s : State) (r off : Nat) : RegVal :=
  let f := s.fn r
  match off with
  | 0x00 => v64 (at_ r 0 11 + at_ (b2n (isVf r)) 11 1 + at_ (epOf r) 12 1)
  | 0x08 => v32 (at_ (b2n f.rearm) 3 1)
  | 0x0C => v32 (fnCode f.st + at_ f.cause 3 4 + at_ f.gen 16 16)
  | 0x10 => v32 f.dmaDropped
  | 0x18 => if hasRings r then v64 (orphanReg s r) else none
  | 0x20 => if hasRings r then v64 (f.orphanAddr / 64 * 64) else none
  | 0x28 => if hasRings r then v32 0 else none
  | 0x2C => if hasRings r then v32 (b2n f.orphanBusy + at_ f.orphanStatus 8 8) else none
  | 0x30 => if hasRings r then v32 f.orphanHold else none
  | 0x40 => if isVf r then v64 (quotaVal s r false) else none
  | 0x48 => if isVf r then v64 (quotaVal s r true) else none
  | 0x50 => if isVf r then v64 (Nat.land (useA s r) (quotaBits r false)) else none
  | 0x58 => if isVf r then v64 (Nat.land (useB s r) (quotaBits r true)) else none
  | _ =>
    if isVf r then none
    else (regArr off 0x100 8 32 (fun k o => if o = 0 then v64 (f.intx.toNat / 2 ^ (64 * k)) else none)).orElse (fun _ =>
      if isPf0 r then none
      else regArr off 0x1000 16 256 (fun n o =>
        let vf := if isPf1 r then vf1Of (epOf r) n else vf2Of (epOf r) n
        if o = 0 then v64 (quotaVal s vf false) else if o = 8 then v64 (quotaVal s vf true) else none))

def migReg (s : State) (r off : Nat) : RegVal :=
  if off = 0 then v64 (64 + 2 ^ 8)
  else regArr off 0x100 4 256 (fun n o =>
    let w := s.fn (if isPf1 r then vf1Of (epOf r) n else vf2Of (epOf r) n)
    if o = 0 then v32 (fnCode w.st + at_ (b2n w.dirty.isSome) 3 1 + at_ w.gen 16 16) else none)

/-! ### The accelerator fabric and reduction (Tables 3-11, 3-12, 4-10) -/

def portStatus (a : APort) : Nat :=
  portCode a.st + at_ a.width 4 2 + at_ (b2n a.widenPending) 6 1 + at_ (b2n a.shutterOpen) 7 1 + at_ a.rxLight 8 16
    + at_ (b2n a.alert) 24 1 + at_ (b2n a.badCredit) 25 1

def afReg (s : State) (off : Nat) : RegVal :=
  if off = 0 then v64 (8 + 16 * 2 ^ 8 + 1024 * 2 ^ 16 + 4096 * 2 ^ 32)
  else if off = 8 then v32 (s.fabric.owner % 2 ^ 8)
  else (regArr off 0x100 0x40 8 (fun p o =>
    let a := s.port p
    match o with
    | 0x00 => v32 (b2n a.enable + at_ (b2n a.storeForward) 1 1 + at_ (b2n a.gatesOn) 2 1 + at_ (b2n a.perst) 4 1)
    | 0x04 => v32 (portStatus a)
    | 0x08 => v64 a.retrainAt
    | 0x10 => v32 a.vcCredits
    | 0x14 => v32 a.classWeight
    | 0x18 => v32 a.crcErr
    | 0x1C => v32 a.replayCnt
    | 0x20 => v32 a.retrainCount
    | 0x24 => v32 a.drop
    | _ => none)).orElse (fun _ => regArr off 0x400 0x100 8 (fun p o =>
    let a := s.port p
    match o with
    | 0x00 => v64 a.gateBase
    | 0x08 => v32 a.gateCycle
    | 0x0C => v32 a.gateLen
    | 0x10 => v64 a.gateChange
    | 0x18 => v32 0
    | 0x1C => v32 (at_ a.gateStatus 0 8 + at_ (b2n a.gatePend.isSome) 8 1 + at_ a.gateBadEntry 9 5 + at_ (b2n a.gateHeaderBad) 14 1 + at_ a.operGen 16 16)
    | _ => regArr o 0x80 4 32 (fun k q => if q = 0 then v32 (mget a.gcl k 0) else none)))

/-- Width and writable bits of a register within a window set (Table 3-12). -/
def pwSetReg (o : Nat) : Option (Nat × Nat) :=
  if o < 0x800 then (match o % 32 with | 0 => some (64, 2 ^ 64 - 1) | 8 => some (64, 2 ^ 64 - 1) | 16 => some (32, 0x1FFF) | _ => none)
  else if o < 0xA00 then (match o % 32 with | 0 => some (64, 2 ^ 64 - 1) | 8 => some (32, 0x1FF) | _ => none)
  else if 0xC00 ≤ o ∧ o < 0x1000 then
    (if o % 128 = 0 then some (32, 0x1FF) else if 64 ≤ o % 128 ∧ o % 8 = 0 then some (64, 2 ^ 64 - 1) else none)
  else none

def pwReg (s : State) (off : Nat) : RegVal :=
  let b := s.fabric
  match off with
  | 0x00 => v64 (64 + 16 * 2 ^ 8 + 8 * 2 ^ 16 + 12 * 2 ^ 24 + 48 * 2 ^ 32)
  | 0x08 => v32 0
  | 0x0C => v32 (b2n b.pwBusy + at_ b.pwStatus 8 8 + at_ b.pwBadPort 16 3 + at_ b.pwBadEntry 19 7)
  | _ => (regArr off 0x10 8 8 (fun p o =>
      if o = 0 then v64 (at_ (s.port p).activeGen 0 16 + at_ (b2n (inflightOld s p == 0)) 16 1 + at_ (inflightOld s p) 32 32) else none)).orElse (fun _ =>
    regArr off 0x1000 0x1000 8 (fun p o => (pwSetReg o).map (fun w => (w.1, mget (s.port p).shadow o 0))))

/-- State of a tile as its block reports it: 0 OFF, 1 AVAILABLE, 2 CLOSING. -/
def tileCode (s : State) (d : Nat) : Nat := if domOn s d then (if (s.dom d).service = 1 then 1 else if (s.dom d).service = 2 then 2 else 0) else 0

def redReg (s : State) (off : Nat) : RegVal :=
  match off with
  | 0x00 => v64 (12 + 16 * 2 ^ 8 + 4096 * 2 ^ 16 + 64 * 2 ^ 32 + 6 * 2 ^ 40 + 8 * 2 ^ 48)
  | 0x08 => v32 (at_ s.red.ptr 0 6 + at_ ((List.range 64).filter (fun c => s.red.claims.any (fun k => k.core == c))).length 6 7 + at_ s.red.tilePtr 16 4)
  | 0x0C => v32 (at_ s.red.ctxs.length 0 13)
  | 0x10 => v32 s.red.noHandle
  | _ => regArr off 0x40 0x40 12 (fun t o =>
    let k := s.sumTile t
    match o with
    | 0x00 => v64 (tileCode s (sumDom t) + at_ (ctxsOn s t).length 2 5 + at_ (slotsFree s t) 8 19 + at_ (rankBufFree s t) 27 14)
    | 0x08 => v64 k.ingest
    | 0x10 => v64 k.spill
    | 0x18 => v32 k.drop
    | 0x1C => v32 k.fail
    | 0x20 => v32 k.sat
    | _ => none)

/-! ### Firmware and programs (Table 6-13) -/

def coreCode (k : CoreSt) : Nat := match k with
  | .off => 0 | .running => 1 | .reloading => 2 | .draining => 3 | .swapping => 4 | .failed => 5

/-- CP_SLOT: slots 0 to 4 hold the library (R216). -/
def slotReg (s : State) (n : Nat) : Nat :=
  if n < 5 then 1 + n + 2 ^ 16 + 2 ^ 17 + 2 ^ 18 + at_ (progUsers s (n + 1) + progUsers s (n + 0x101)) 32 11
  else match oget s.fw.slots n with
    | none => 0
    | some x => at_ x.progId 0 16 + at_ (b2n (!x.ranked)) 17 1 + at_ (b2n x.ranked) 18 1 + at_ (progUsers s x.progId) 32 11

def progReg (s : State) (r off : Nat) : RegVal :=
  if isVf r && off != 0x00 && off != 0x08 then none else
  match off with
  | 0x00 => v64 (12 + 32 * 2 ^ 8 + 1024 * 2 ^ 16 + 16384 * 2 ^ 32)
  | 0x08 => v32 (at_ (5 + s.fw.slots.length) 0 4 + at_ s.fw.comms.length 4 11
      + at_ (s.cores.foldl (fun n c => n + (c.2.launches.filter (·.running)).length) 0) 15 6)
  | 0x480 => v32 (at_ s.fw.active 0 1 + at_ (b2n (lget s.fw.dkUp 0 false)) 1 1 + at_ (b2n (lget s.fw.dkUp 1 false)) 2 1 + at_ s.fw.failovers 8 8
      + at_ s.fw.romRestarts 16 8)
  | _ => (regArr off 0x40 8 12 (fun n o => if o = 0 then v64 (slotReg s n) else none)).orElse (fun _ =>
    (regArr off 0x108 8 7 (fun n o =>
      let c := n + 1
      let k := mget s.fw.comps c {}
      let up := if c = 1 then ((List.range 2).filter (keeperUp s)).length else ((coresOfComp c).filter (fun q => (s.core q).st == .running)).length
      if o = 0 then v64 (at_ k.gen 0 16 + at_ k.version 16 16 + at_ up 32 6 + at_ (b2n (s.fw.repl.any (fun x => x.comp == c))) 38 1) else none)).orElse (fun _ =>
    regArr off 0x200 8 66 (fun q o =>
      let k := s.core q
      let st := if q < 64 then coreCode k.st else b2n (keeperUp s (q - 64))
      if o = 0 then v64 (st + at_ (compOf q) 3 8 + at_ k.restarts 11 8 + at_ k.lastCause 19 8 + at_ (ringsOwned s q) 27 9) else none)))

/-! ### Serving state, checkpoints (Tables 7-15, 8-10) -/

def kvClassReg (s : State) (c : Nat) : Nat :=
  match oget s.kv.classes c with
  | none => 0x3F * 2 ^ 10 + 0x3F * 2 ^ 16 + 0x3F * 2 ^ 22
  | some k => 1 + at_ k.encoding 1 3 + at_ (b2n k.raw) 4 1 + at_ k.blockLog2 5 5 + at_ k.t1 10 6 + at_ k.t2 16 6 + at_ k.t3 22 6
      + at_ (k.shift % 64).toNat 28 6 + at_ (b2n k.promote) 34 1

/-- On a VF only KV_INFO and KV_USE are present; a T0 port whose set is not in use has no free slots (R277). -/
def kvReg (s : State) (r off : Nat) : RegVal :=
  match off with
  | 0x00 => v64 (4096 + 64 * 2 ^ 16 + 32 * 2 ^ 24 + 16 * 2 ^ 32 + 14 * 2 ^ 40 + 20 * 2 ^ 48 + 27 * 2 ^ 56)
  | 0x10 => v64 (at_ s.kv.seqs.length 0 13 + at_ s.kv.blocks.length 16 28)
  | _ =>
    if isVf r then none
    else match off with
      | 0x08 => v32 0
      | 0x0C => v32 (at_ s.kv.lastStatus 8 8 + at_ s.kv.badItem 16 8)
      | 0x18 => v32 s.kv.late
      | 0x1C => v32 s.kv.sat
      | 0x20 => v32 s.kv.lost
      | 0x24 => v32 (at_ (s.kv.blocks.filter (fun b => b.2.stalled)).length 0 28)
      | 0x28 => v32 s.kv.evicted
      | _ => (regArr off 0x100 0x20 8 (fun p o =>
          let t := s.t0p p
          match o with
          | 0x00 => v64 t.base
          | 0x08 => v32 (at_ t.window 0 4 + at_ (b2n t.enable) 4 1 + at_ t.slotLog2 5 5)
          | 0x0C => v32 t.slots
          | 0x10 => v32 (if s.kv.committed && t.enable then at_ (t.slots - t.used.length) 0 21 else 0)
          | 0x14 => v32 (at_ (s.kv.plans.filter (fun q => q.2.port == p)).length 0 5)
          | _ => none)).orElse (fun _ =>
        (regArr off 0x200 0x20 32 (fun n o =>
          let p := s.pool n
          match o with
          | 0x00 => v64 p.base
          | 0x08 => v32 (at_ p.kind 0 2 + at_ p.slot4k 2 9 + at_ p.high 11 7 + at_ p.low 18 7)
          | 0x0C => v32 p.slots
          | 0x10 => v32 p.backend
          | 0x14 => v32 (at_ p.used.length 0 28)
          | _ => none)).orElse (fun _ =>
        regArr off 0x600 8 64 (fun c o => if o = 0 then v64 (kvClassReg s c) else none)))

def takeCode (t : Option Take) : Nat := match t with
  | none => 0
  | some t => match t.st with | .accepted => 1 | .snapshot => 2 | .writing => 3 | .committing => 4

def ckReg (s : State) (r off : Nat) : RegVal :=
  let k := s.ckpt (epOf r)
  match off with
  | 0x00 => v64 (4096 + 21 * 2 ^ 16 + 2 * 2 ^ 24 + 1024 * 2 ^ 32)
  | 0x08 => v32 0
  | 0x0C => v32 (at_ k.status 8 8 + at_ k.badItem 16 4)
  | 0x10 => v64 (k.capBase * 2 ^ 21)
  | 0x18 => v32 (at_ k.capSize 0 16)
  | 0x60 => v32 (takeCode k.take + at_ (k.job.elim 0 (·.epoch)) 16 16)
  | 0x68 => v64 k.step
  | 0x70 => v32 k.copies
  | 0x74 => v32 k.waitUs
  | 0x78 => v32 k.failed
  | 0x80 => v64 k.bytesOut
  | _ => regArr off 0x20 8 8 (fun n o => if o = 0 then v64 (at_ (mget k.cowSize n 0) 0 9 + mget k.cowBase n 0 * 2 ^ 21) else none)

/-! ### Network (Tables 9-12, 10-9, 11-6, 11-7) -/

/-- On a VF only RDMA_INFO is present (R351); the set belongs to one PF1, the rest to the node. -/
def rdmaReg (s : State) (r off : Nat) : RegVal :=
  let x := s.rdma
  let w := mget x.sets (epOf r) {}
  if off = 0 then v64 (24 + 4096 * 2 ^ 8 + 20 * 2 ^ 24 + 31 * 2 ^ 32 + 16 * 2 ^ 40)
  else if isVf r then none
  else match off with
    | 0x08 => if r = 0 then none else v64 (w.base * 4096)
    | 0x10 => if r = 0 then none else v32 w.log2
    | 0x14 => if r = 0 then none else v32 0
    | 0x18 => if r = 0 then none else v32 (at_ (b2n w.committed) 1 1 + at_ w.status 8 8)
    | 0x1C => v32 x.hwm
    | 0x20 => v32 (b2n x.gustOn + at_ x.cnpIntervalUs 8 8 + at_ x.tickUs 16 8 + at_ x.squallPct 24 8)
    | 0x24 => v32 (at_ x.minRate 0 16 + at_ x.aiMbps 16 16)
    | 0x28 => v32 (at_ x.rttHighUs 0 16)
    | _ => regArr off 0x100 0x40 16 (fun t o =>
      let k := s.rtile t
      let qs := x.qps.filter (fun q => qpTile q.2 == t)
      match o with
      | 0x00 => v32 (at_ (qs.filter (fun q => q.2.res == .resident)).length 0 13 + at_ (qs.filter (fun q => q.2.bound.isSome)).length 16 11)
      | 0x04 => v32 k.miss
      | 0x08 => v32 k.missDrop
      | 0x0C => v32 (at_ (missBytes s t / 1024) 0 13)
      | 0x10 => v32 k.dupAck
      | 0x14 => v32 k.protFail
      | 0x18 => v32 k.noQp
      | 0x1C => v32 k.icrcErr
      | 0x20 => v32 k.cnpTx
      | 0x24 => v32 k.cnpRx
      | _ => none)

/-- Entries that hold a slot of a table: tile t, or 16 for the stack table. -/
def entriesIn (s : State) (t : Nat) : Nat :=
  s.cls.sets.foldl (fun n x => n + (x.2.entries.filter (fun e => (oget e.places t).isSome)).length) 0

def clsReg (s : State) (off : Nat) : RegVal :=
  match off with
  | 0x00 => v64 (16384 + 22 * 2 ^ 16 + 64 * 2 ^ 24 + 512 * 2 ^ 32 + 12 * 2 ^ 42 + 4 * 2 ^ 46)
  | 0x08 => v32 (s.cls.owner % 2 ^ 16)
  | 0x0C => v32 (at_ (entriesIn s 16) 0 23)
  | _ => regArr off 0x100 0x20 16 (fun t o =>
    let k := s.ctile t
    match o with
    | 0x00 => v32 (at_ (entriesIn s t) 0 15)
    | 0x04 => v32 k.depth
    | 0x08 => v32 k.parseErr
    | 0x0C => v32 k.recirc
    | 0x10 => v32 k.actionDrop
    | 0x14 => v32 k.overflow
    | 0x18 => v32 k.noSet
    | _ => none)

def schReg (s : State) (off : Nat) : RegVal :=
  if off = 0 then v64 (4096 + 8 * 2 ^ 16 + 4095 * 2 ^ 20 + 256 * 2 ^ 32)
  else (regArr off 0x100 4 16 (fun p o =>
    let up := (List.range 4).foldl (fun a i => a + b2n (s.netIf (4 * p + i)).up * 2 ^ i) 0
    if o = 0 then v32 ((s.netPort p).breakout + at_ (b2n (s.netPort p).refused) 8 1 + at_ up 16 4) else none)).orElse (fun _ =>
    regArr off 0x1000 0x800 64 (fun j o =>
      let i := s.netIf j
      match o with
      | 0x00 => v32 (b2n i.gatesOn + at_ i.rdmaTc 8 3 + at_ i.rdmaWeight 11 8 + at_ i.guardNs 19 8)
      | 0x08 => v64 i.gateBase
      | 0x10 => v32 i.gateCycle
      | 0x14 => v32 i.gateLen
      | 0x18 => v64 i.gateChange
      | 0x20 => v32 0
      | 0x24 => v32 (at_ i.gateStatus 0 8 + at_ (b2n i.gatePend.isSome) 8 1 + at_ i.gateBadEntry 9 8 + at_ (b2n i.gateHeaderBad) 17 1)
      | 0x28 => v32 (at_ i.operGen 0 16)
      | 0x30 => v32 i.gateDrop
      | 0x34 => v32 i.rxNoq
      | 0x38 => v32 i.rxNobuf
      | 0x3C => v32 i.noPolicer
      | _ => regArr o 0x400 4 256 (fun k q => if q = 0 then v32 (mget i.gcl k 0) else none)))

def timeReg (s : State) (off : Nat) : RegVal :=
  match off with
  | 0x00 => v64 (ptp s)
  | 0x08 => v32 (s.clock.freq % (2 ^ 32 : Int)).toNat
  | 0x0C => v32 (b2n s.clock.timeSet + at_ (b2n s.clock.bad) 1 1)
  | 0x10 => v64 0
  | _ => regArr off 0x100 4 16 (fun p o => if o = 0 then v32 (at_ (s.netPort p).txDelay 0 16 + at_ (s.netPort p).rxDelay 16 16) else none)

/-! ### Sealing, storage, memory (Tables 12-10, 13-9, 15-3) -/

/-- On a VF only SEAL_INFO and SEAL_USE are present (R437). -/
def sealReg (s : State) (r off : Nat) : RegVal :=
  match off with
  | 0x00 => v64 (262144 + 8 * 2 ^ 20 + 8192 * 2 ^ 24 + 1024 * 2 ^ 40)
  | 0x08 => if r = 0 then none else v32 (at_ (slotsOf_ s r) 0 19)
  | _ => if isVf r then none else regArr off 0x100 0x40 8 (fun t o =>
    let k := s.stile t
    match o with
    | 0x00 => v32 (b2n k.forceMasked)
    | 0x04 => v32 (sealState s t + at_ (b2n k.masked) 2 1 + at_ k.reason 3 3 + at_ (s.sealing.slots.filter (fun q => q.2.pinned == some t)).length 8 19)
    | 0x08 => v32 k.authFail
    | 0x0C => v32 k.replay
    | 0x10 => v32 k.badSa
    | 0x14 => v32 k.exhausted
    | 0x18 => v32 k.oversize
    | 0x20 => v64 k.bytes
    | _ => none)

def backCode (b : Backend) : Nat := match b.st with | .connecting => 1 | .ready => 2 | .down => 3

def stoReg (s : State) (off : Nat) : RegVal :=
  let x := s.sto
  match off with
  | 0x00 => v64 (256 + at_ 4096 9 13 + at_ 514 22 10 + 128 * 2 ^ 32 + at_ 64 40 7)
  | 0x08 => v32 0
  | 0x0C => v32 (at_ x.status 8 8 + at_ x.badItem 16 3)
  | 0x10 => v64 (at_ ((List.range 8).foldl (fun a n => a + sliceBlocks s n) 0) 0 25 + at_ (x.blocks.filter (fun b => !b.stale)).length 32 25)
  | 0x18 => v32 x.lost
  | _ => (regArr off 0x20 8 8 (fun n o => if o = 0 then v64 (at_ (mget x.sizes n 0) 0 17 + mget x.bases n 0 * 2 ^ 21) else none)).orElse (fun _ =>
    (regArr off 0x100 0x10 8 (fun t o =>
      let k := mget x.tiles t {}
      match o with
      | 0 => v32 (stoState s t + at_ (placedOn s t) 2 10)
      | 4 => v32 k.aborted
      | 8 => v64 k.cmds
      | _ => none)).orElse (fun _ =>
    regArr off 0x400 0x10 256 (fun b o =>
      match oget x.backends b with
      | none => if o = 0 ∨ o = 4 then v32 0 else none
      | some k =>
        if o = 0 then v32 (backCode k + at_ (b2n k.remote) 2 2 + at_ (x.nss.filter (fun n => n.2.backend == b)).length 4 13 + at_ (min 32767 k.reconnects) 17 15)
        else if o = 4 then v32 (at_ k.cmds.length 0 16) else none)))

/-- A temperature that the hardware measures: nothing constrains it (log 3). -/
def tempNow (s : State) : Nat := (freeOf s).toNat % 2 ^ 8

def memReg (s : State) (off : Nat) : RegVal :=
  match off with
  | 0x00 => v64 (8 + 16 * 2 ^ 8 + 8 * 2 ^ 16 + 626 * 2 ^ 24)
  | 0x08 => v64 (s.memCap % 2 ^ 42)
  | 0x10 => v32 s.memCeLimit
  | _ => regArr off 0x100 0x20 8 (fun n o =>
    let k := s.stk n
    match o with
    | 0x00 => v32 (at_ (if (s.dom (stackDom n)).power = 3 then 0 else (s.dom (stackDom n)).power) 0 2 + at_ (groupsLeft k) 2 5 + at_ (b2n k.retire.isSome) 7 1
        + at_ k.retiredMask 8 16 + at_ (tempNow s) 24 8)
    | 0x04 => v32 ((List.range 16).foldl (fun a g => a + b2n ((List.range 8).any (fun c => (mget k.chans (8 * g + c) {}).failed)) * 2 ^ g) 0)
    | 0x08 => v32 k.ce
    | 0x0C => v32 k.ue
    | 0x10 => v32 (at_ k.lost.length 0 13)
    | 0x18 => v64 k.lastUe
    | _ => none)

/-! ### Power, trust, check values, the weather feed (Tables 16-15, 17-10, 18-7, 18-8) -/

def powReg (s : State) (off : Nat) : RegVal :=
  let w := s.power
  match off with
  | 0x00 => v64 (108 + 3 * 2 ^ 8 + 32 * 2 ^ 16)
  | 0x08 => v32 (at_ w.selected 0 2 + at_ w.inForce 2 2 + at_ (if w.change.isSome then 4 else w.reason) 4 3 + at_ (b2n w.profileBad) 7 1 + at_ s.trust.ceiling 8 2)
  | 0x0C => v32 (at_ w.watts 0 11 + at_ (b2n w.wattsBad) 11 1)
  | 0x10 => v64 ((freeOf s).toNat % 2 ^ 48 + at_ w.condition 48 2)
  | 0x18 => v32 0
  | 0x1C => v32 (at_ w.stage 0 3 + at_ (b2n w.warm) 3 1 + at_ (b2n w.held) 4 1 + at_ (b2n w.fault) 5 1)
  | 0x60 => v64 (at_ w.cdc 0 36)
  | 0x68 => v32 s.transom.transomOff
  | _ => (regArr off 0x20 4 5 (fun k o => if o = 0 then v32 (mget w.times k 0) else none)).orElse (fun _ =>
    (regArr off 0x40 4 5 (fun k o => if o = 0 then v32 (mget w.refused (k + 1) 0) else none)).orElse (fun _ =>
    regArr off 0x400 8 108 (fun d o =>
      let k := s.dom d
      match o with
      | 0 => v32 (at_ k.power 0 2 + at_ k.service 2 2 + at_ k.lastRefusal 4 3 + at_ (b2n k.forced) 7 1 + at_ k.gen 8 16 + at_ (tempNow s) 24 8)
      | 4 => v32 k.retain
      | _ => none)))

def trustReg (s : State) (off : Nat) : RegVal :=
  let t := s.trust
  match off with
  | 0x00 => v64 (0x0960 + 0xB0 * 2 ^ 16)
  | 0x08 => v64 Config.serial.toNat
  | 0x10 => v32 (trState s)
  | 0x14 => v32 (at_ t.shutterAp 0 8 + at_ t.shutterNp 8 16)
  | 0x18 => v64 (trFw s)
  | 0x20 => v64 (at_ t.nextLeaf 0 21 + at_ t.leafEnd 21 21 + at_ (b2n (t.nextLeaf == leafCount)) 42 1)
  | 0x28 => v64 t.seq
  | _ => regArr off 0x30 8 4 (fun k o => if o = 0 then v64 (leNat (sliceB t.head (8 * k) 8)) else none)

def cvRegVal (s : State) (off : Nat) : RegVal :=
  if off = 0 then v64 (32 + 64 * 2 ^ 8)
  else (regArr off 0x100 0x40 32 (fun n o =>
    let u := (cvEnd n s).cv n
    match o with
    | 0x00 => v32 (at_ u.tap 0 3 + at_ u.poly 3 2 + at_ u.mode 5 2 + at_ (b2n u.armed) 7 1)
    | 0x04 => v32 (at_ u.window 0 24)
    | 0x08 => v64 (at_ u.sel 0 6 + at_ u.vc 6 2 + at_ (b2n u.any) 8 1 + at_ u.handle 16 12 + at_ u.hgen 28 4 + at_ u.queue 32 16)
    | 0x10 => v32 (b2n (u.armed && !u.stopped) + at_ (b2n u.stopped) 1 1 + at_ (b2n u.aborted) 2 1 + at_ (b2n u.badTap) 3 1 + at_ u.progress 8 24)
    | 0x14 => v32 u.windows
    | 0x18 => v64 u.expect
    | 0x20 => v64 (checkValue u.poly u.taken)
    | 0x28 => v64 u.last
    | 0x30 => v32 u.mismatches
    | _ => none)).orElse (fun _ => regArr off 0x1000 0x40 64 (fun m o =>
    let a := s.mon m
    match o with
    | 0x00 => v32 (at_ a.source 0 2 + at_ a.width 2 2 + at_ a.cvUnit 4 5 + at_ a.core 9 7 + at_ (b2n a.enable) 16 1 + at_ a.offset 17 14)
    | 0x04 => v32 (at_ a.period 0 20)
    | 0x08 => v64 a.addr
    | 0x10 => v32 (at_ a.minStep 0 16 + at_ a.maxStep 16 16)
    | 0x18 => v64 a.last
    | 0x20 => v64 (at_ a.repeats 0 24 + at_ a.skips 24 24 + at_ a.unreadable 48 16)
    | _ => none))

/-- One instance per path (R584): `path` is the rank of a function or 16 + n for a session. -/
def feedReg (s : State) (path off : Nat) : RegVal :=
  let p := s.path path
  match off with
  | 0x00 => v64 (64 + 2 ^ 8 + 256 * 2 ^ 16)
  | 0x08 => v32 p.mask
  | 0x0C => v32 (at_ p.flushMs 0 16)
  | 0x10 => v32 p.lost
  | _ => regArr off 0x24 4 6 (fun k o => if o = 0 then v32 (at_ (mget s.wx.intervals (k + 1) 1000) 0 16) else none)

/-! ### Blocks of a function, and of the management view -/

/-- Register of a function. -/
def fnRegVal (s : State) (r cap off : Nat) : RegVal :=
  if !presents r cap then none
  else match cap with
    | 0x01 => ringReg s r off
    | 0x02 => fnReg s r off
    | 0x03 => eventReg s r off
    | 0x10 => afReg s off
    | 0x11 => pwReg s off
    | 0x12 => redReg s off
    | 0x13 => progReg s r off
    | 0x14 => kvReg s r off
    | 0x15 => ckReg s r off
    | 0x20 => rdmaReg s r off
    | 0x21 => clsReg s off
    | 0x22 => schReg s off
    | 0x23 => sealReg s r off
    | 0x24 => timeReg s off
    | 0x30 => stoReg s off
    | 0x40 => memReg s off
    | 0x41 => powReg s off
    | 0x42 => trustReg s off
    | 0x43 => cvRegVal s off
    | 0x44 => feedReg s r off
    | 0x50 => migReg s r off
    | _ => none

/-- Register of the management port's view: the blocks of the node as a whole, CONFLICT_LOG, and the session's own instance
of WEATHER_FEED (R67, R569, R584, R597; which blocks it holds beyond these is the model's choice, log 23). -/
def viewRegVal (s : State) (session cap off : Nat) : RegVal :=
  match cap with
  | 0x01 => conflictReg s off
  | 0x10 => afReg s off
  | 0x11 => pwReg s off
  | 0x12 => redReg s off
  | 0x13 => progReg s 0 off
  | 0x14 => kvReg s 0 off
  | 0x20 => rdmaReg s 0 off
  | 0x21 => clsReg s off
  | 0x22 => schReg s off
  | 0x23 => sealReg s 0 off
  | 0x24 => timeReg s off
  | 0x30 => stoReg s off
  | 0x40 => memReg s off
  | 0x41 => powReg s off
  | 0x42 => trustReg s off
  | 0x43 => cvRegVal s off
  | 0x44 => feedReg s (16 + session) off
  | _ => none

/-- Domain whose registers lie at an offset: the transom reaches it only while it is ON with its clock running (R538). The status
of a tile, which reports OFF, is not the tile's own register (log 23). -/
def regDomain (cap off : Nat) : Option Nat :=
  match cap with
  | 0x10 => if 0x100 ≤ off ∧ off < 0x300 then some (aptTile ((off - 0x100) / 0x40)) else if 0x400 ≤ off ∧ off < 0xC00 then some (aptTile ((off - 0x400) / 0x100)) else none
  | 0x11 => if 0x1000 ≤ off ∧ off < 0x9000 then some (aptTile ((off - 0x1000) / 0x1000)) else none
  | 0x12 => if 0x40 ≤ off ∧ off < 0x340 ∧ off % 0x40 ≠ 0 then some (sumDom ((off - 0x40) / 0x40)) else none
  | 0x20 => if 0x100 ≤ off ∧ off < 0x500 then some (xptTile ((off - 0x100) / 0x40)) else none
  | 0x21 => if 0x100 ≤ off ∧ off < 0x300 then some (xptTile ((off - 0x100) / 0x20)) else none
  | 0x22 => if 0x100 ≤ off ∧ off < 0x140 then some (nptTile ((off - 0x100) / 4)) else if 0x1000 ≤ off ∧ off < 0x21000 then some (nptTile ((off - 0x1000) / 0x2000)) else none
  | 0x23 => if 0x100 ≤ off ∧ off < 0x300 ∧ off % 0x40 ≠ 4 then some (sealDom ((off - 0x100) / 0x40)) else none
  | 0x30 => if 0x100 ≤ off ∧ off < 0x180 ∧ off % 0x10 ≠ 0 then some (stoDom ((off - 0x100) / 0x10)) else none
  | _ => none

end Sys2Proof.Machine
end

