-- ==== Sys2Proof/Machine/Registers.lean ====
section
/-!
DEFINITION. Register writes that have no row of their own (00: R8, R10; every register map), shared controls and the
transom that holds them (02: R64, R604), and the registers of the management port's view (19: R597).
-/
namespace Sys2Proof.Machine

/-! ### Typed writes of a function -/

def writeRing (r off v : Nat) (s : State) : State :=
  s.modFn r (fun f =>
    if f.dirCommitted then f
    else if off = 0x08 then { f with dirBase := v / 4096 }
    else if off = 0x10 then { f with dirCount := v % 2 ^ 9 } else f)

def writeEvents (r off v : Nat) (s : State) : State :=
  s.modFn r (fun f =>
    if f.evCommitted then f
    else if off = 0x00 then { f with evBase := v / 4096 }
    else if off = 0x08 then { f with evOrder := fld v 0 8, evVector := fld v 8 11, evEnable := bitAt v 31 } else f)

def writeFnCtl (r off v : Nat) (s : State) : State :=
  s.modFn r (fun f =>
    if off = 0x20 then { f with orphanAddr := v / 64 * 64 }
    else if off = 0x30 ∧ 1 ≤ fld v 0 12 ∧ fld v 0 12 ≤ 3600 then { f with orphanHold := fld v 0 12 } else f)

/-- AF_PORT_CTRL written whole: each of its fields takes effect (R10, Table 3-11). -/
def writePortCtrl (r p v : Nat) (s : State) : State :=
  portReg s r p (fun s =>
    let s1 := s.modPort p (fun a => { a with storeForward := bitAt v 1, gatesOn := bitAt v 2, perst := bitAt v 4 })
    let s2 := if bitAt v 0 then (if (s1.port p).enable then s1 else doPortEnable r p s1) else (if (s1.port p).enable then doPortDisable r p s1 else s1)
    if bitAt v 3 then retrainIfActive s2 p else s2)

/-- AF_RETRAIN_AT: a nonzero time at or below PTP time acts at once (Table 3-11). -/
def writeRetrainAt (p v : Nat) (s : State) : State :=
  if v ≠ 0 ∧ v ≤ ptp s then (retrainIfActive s p).modPort p (fun a => { a with retrainAt := 0 })
  else s.modPort p (fun a => { a with retrainAt := v })

def zeroWeight (v : Nat) : Bool := [0, 8, 16, 24].any (fun b => fld v b 8 == 0)

def writeFabric (r off v : Nat) (s : State) : State :=
  if 0x100 ≤ off ∧ off < 0x300 then
    let p := (off - 0x100) / 0x40
    match (off - 0x100) % 0x40 with
    | 0x00 => writePortCtrl r p v s
    | 0x04 => portReg s r p (fun s => s.modPort p (fun a => { a with badCredit := a.badCredit && !bitAt v 25 }))
    | 0x08 => portReg s r p (writeRetrainAt p v)
    | 0x14 => portReg s r p (fun s => if zeroWeight v then s else s.modPort p (fun a => { a with classWeight := v }))
    | _ => s
  else if 0x400 ≤ off ∧ off < 0xC00 then
    let p := (off - 0x400) / 0x100
    let o := (off - 0x400) % 0x100
    portReg s r p (fun s => s.modPort p (fun a =>
      if o = 0x00 then { a with gateBase := v }
      else if o = 0x08 then { a with gateCycle := v % 2 ^ 30 }
      else if o = 0x0C then { a with gateLen := v % 2 ^ 6 }
      else if o = 0x10 then { a with gateChange := v }
      else if 0x80 ≤ o then { a with gcl := mset a.gcl ((o - 0x80) / 4) (v % 2 ^ 28) 0 } else a))
  else s

/-- The shadow set of a port (R101, R113). -/
def writeWindows (r off v : Nat) (s : State) : State :=
  if off < 0x1000 then s
  else
    let p := (off - 0x1000) / 0x1000
    let o := off % 0x1000
    portReg s r p (fun s => match pwSetReg o with
      | none => s
      | some w => s.modPort p (fun a => { a with shadow := mset a.shadow o (Nat.land v w.2) 0 }))

/-- The capture area and the reserves, until they are committed. -/
def writeCkpt (r off v : Nat) (s : State) : State :=
  s.modCk (epOf r) (fun k =>
    if k.committed then k
    else if off = 0x10 then { k with capBase := v / 2 ^ 21 }
    else if off = 0x18 then { k with capSize := v % 2 ^ 16 }
    else if 0x20 ≤ off ∧ off < 0x60 then
      { k with cowSize := mset k.cowSize ((off - 0x20) / 8) (fld v 0 9) 0, cowBase := mset k.cowBase ((off - 0x20) / 8) (v / 2 ^ 21) 0 }
    else k)

def writeRdma (r off v : Nat) (s : State) : State :=
  let x := mget s.rdma.sets (epOf r) {}
  let put (y : RdmaSet) : State := s.modRdma (fun d => { d with sets := mset d.sets (epOf r) y {} })
  if x.committed then s
  else if off = 0x08 then put { x with base := v / 4096 }
  else if off = 0x10 then put { x with log2 := v % 2 ^ 5 } else s

def writeSched (r off v : Nat) (s : State) : State :=
  if 0x100 ≤ off ∧ off < 0x140 then
    let p := (off - 0x100) / 4
    netReg s r p (fun s => doBreakout r p v (if bitAt v 8 then s.modNetPort p (fun x => { x with refused := false }) else s))
  else if 0x1000 ≤ off ∧ off < 0x21000 then
    let j := (off - 0x1000) / 0x800
    let o := (off - 0x1000) % 0x800
    netReg s r (j / 4) (fun s => s.modNetIf j (fun i =>
      if o = 0x00 then { i with gatesOn := bitAt v 0, rdmaTc := fld v 8 3, rdmaWeight := fld v 11 8, guardNs := fld v 19 8 }
      else if o = 0x08 then { i with gateBase := v }
      else if o = 0x10 then { i with gateCycle := v % 2 ^ 30 }
      else if o = 0x14 then { i with gateLen := v % 2 ^ 9 }
      else if o = 0x18 then { i with gateChange := v }
      else if 0x400 ≤ o then { i with gcl := mset i.gcl ((o - 0x400) / 4) (v % 2 ^ 32) 0 } else i))
  else s

/-- Units and monitors of CHECK_VALUE (R575 to R577, R583); CV_CTRL written as a whole is the arm or disarm of its bit 7. -/
def writeCheck (r off v : Nat) (s : State) : State :=
  if 0x100 ≤ off ∧ off < 0x900 then
    let n := (off - 0x100) / 0x40
    match (off - 0x100) % 0x40 with
    | 0x00 => if bitAt v 7 then doArm r n v s else doDisarm r n v s
    | 0x04 => cvReg s r (cvOwner n) (fun s => if fld v 0 24 = 0 then s else (cvEnd n s).modCv n (fun u => { u with window := fld v 0 24 }))
    | 0x08 => cvReg s r (cvOwner n) (fun s => (cvAbort n s).modCv n (fun u => { u with
        sel := fld v 0 6, vc := fld v 6 2, any := bitAt v 8, handle := fld v 16 12, hgen := fld v 28 4, queue := fld v 32 16 }))
    | 0x10 => cvReg s r (cvOwner n) (fun s => s.modCv n (fun u => { u with aborted := u.aborted && !bitAt v 2, badTap := u.badTap && !bitAt v 3 }))
    | 0x18 => cvReg s r (cvOwner n) (fun s => (cvEnd n s).modCv n (fun u => { u with expect := v }))
    | _ => s
  else if 0x1000 ≤ off ∧ off < 0x2000 then
    let m := (off - 0x1000) / 0x40
    cvReg s r (monOwner m) (fun s => s.modMon m (fun a =>
      match (off - 0x1000) % 0x40 with
      | 0x00 => { a with source := fld v 0 2, width := fld v 2 2, cvUnit := fld v 4 5, core := fld v 9 7, enable := bitAt v 16,
                         offset := fld v 17 14, seen := a.seen && a.enable && bitAt v 16, nextAt := s.vcycle }
      | 0x04 => if 1 ≤ fld v 0 20 ∧ fld v 0 20 ≤ 1000000 then { a with period := fld v 0 20 } else a
      | 0x08 => { a with addr := v }
      | 0x10 => if fld v 16 16 < fld v 0 16 then a else { a with minStep := fld v 0 16, maxStep := fld v 16 16 }
      | _ => a))
  else s

/-- A path's own registers (R578, R584). -/
def writeFeed (path off v : Nat) (s : State) : State :=
  if off = 0x08 then s.modPath path (fun p => { p with mask := Nat.land v 0xF007E })
  else if off = 0x0C ∧ fld v 0 16 ≤ 60000 then s.modPath path (fun p => { p with flushMs := fld v 0 16 })
  else s

def writePower (off v : Nat) (s : State) : State :=
  if off = 0x60 then s.modPow (fun w => { w with cdc := Nat.xor w.cdc (Nat.land w.cdc v) }) else s

/-- A write of a register of the right width that lies in a block; registers with commands of their own act as those
commands do. -/
def writeBlock (r cap off v : Nat) (s : State) : State :=
  match cap with
  | 0x01 => writeRing r off v s
  | 0x02 => writeFnCtl r off v s
  | 0x03 => writeEvents r off v s
  | 0x10 => writeFabric r off v s
  | 0x11 => writeWindows r off v s
  | 0x15 => writeCkpt r off v s
  | 0x20 => writeRdma r off v s
  | 0x22 => writeSched r off v s
  | 0x41 => writePower off v s
  | 0x43 => writeCheck r off v s
  | 0x44 => writeFeed r off v s
  | _ => s

/-! ### NVMe registers and configuration space -/

/-- AQA, ASQ, ACQ, INTMS and INTMC of BAR0 (R439; offsets and access of the NVM Express Base Specification, PRESUMED,
log 14). A 64-bit queue address may be written in halves. -/
def writeNvme (r off width v : Nat) (s : State) : State :=
  match ctrlOf r with
  | none => s
  | some c =>
    if !present s r then s
    else s.modCtl c (fun k =>
      match off, width with
      | 0x0C, 4 => { k with intms := Nat.lor k.intms v }
      | 0x10, 4 => { k with intms := Nat.xor k.intms (Nat.land k.intms v) }
      | 0x24, 4 => { k with aqa := Nat.land v 0x0FFF0FFF }
      | 0x28, 8 => { k with asq := v / 4096 * 4096 }
      | 0x28, 4 => { k with asq := (k.asq / 2 ^ 32 * 2 ^ 32 + v) / 4096 * 4096 }
      | 0x2C, 4 => { k with asq := k.asq % 2 ^ 32 + v * 2 ^ 32 }
      | 0x30, 8 => { k with acq := v / 4096 * 4096 }
      | 0x30, 4 => { k with acq := (k.acq / 2 ^ 32 * 2 ^ 32 + v) / 4096 * 4096 }
      | 0x34, 4 => { k with acq := k.acq % 2 ^ 32 + v * 2 ^ 32 }
      | _, _ => k)

/-- Every pending vector that no mask holds any more is sent (R473). -/
def sendAll (s : State) (r : Nat) : State := (List.range (vectorsOf r)).foldl (fun s v => sendPending s r v) s

/-- Fields of configuration space that the chapters name (R464 to R474). `off` numbers the field, since the chapters give
no offsets (DESIGN CHOICE, log 19): 0 Bus Master Enable set, 1 INTx Disable, 2 MSI-X Enable, 3 Function Mask, 4 Enable
Relaxed Ordering, 5 Completion Timeout Value, 6 return to D0, 7 ASPM L1 of function 0, 8 mask of a vector set, 9 AER status
(bits 0 timeout, 1 unexpected, 2 poison, written with 1 to clear). -/
def writeConfig (r off v : Nat) (s : State) : State :=
  if (s.fn r).st = .off ∨ !isFn r ∨ configBusy s r then s
  else match off with
    | 0 => if bitAt v 0 then s.modFn r (fun f => { f with busMaster := true }) else s
    | 1 => s.modFn r (fun f => { f with intxDisable := bitAt v 0 })
    | 2 => sendAll (s.modFn r (fun f => { f with msixEn := bitAt v 0 })) r
    | 3 => sendAll (s.modFn r (fun f => { f with fnMask := bitAt v 0 })) r
    | 4 => s.modFn r (fun f => { f with relaxed := bitAt v 0 })
    | 5 => s.modFn r (fun f => { f with ctoValue := v % 2 ^ 4 })
    | 6 => s.modFn r (fun f => { f with d3hot := false })
    | 7 => if isPf0 r then { s with links := mset s.links (epOf r) { mget s.links (epOf r) {} with aspmL1 := bitAt v 0, inL1 := false } {} } else s
    | 8 => if v < vectorsOf r then s.modFn r (fun f => { f with vecMask := f.vecMask ||| (1#2048 <<< v) }) else s
    | 9 => s.modFn r (fun f => { f with aerTimeout := f.aerTimeout && !bitAt v 0, aerUnexpected := f.aerUnexpected && !bitAt v 1, aerPoison := f.aerPoison && !bitAt v 2 })
    | _ => s

/-! ### Shared controls (R64, R604) -/

/-- Width in bits of a shared control, and whether its map names the PF1s as writers; none where the offset holds none. -/
def sharedReg (cap off : Nat) : Option (Nat × Bool) :=
  match cap with
  | 0x10 => if off = 0x08 then some (32, false) else none
  | 0x14 =>
    if off = 0x08 then some (32, true)
    else if 0x100 ≤ off ∧ off < 0x200 then (match off % 0x20 with | 0x00 => some (64, true) | 0x08 => some (32, true) | 0x0C => some (32, true) | _ => none)
    else if 0x200 ≤ off ∧ off < 0x600 then
      (match off % 0x20 with | 0x00 => some (64, true) | 0x08 => some (32, true) | 0x0C => some (32, true) | 0x10 => some (32, true) | _ => none)
    else none
  | 0x20 => if off = 0x1C ∨ off = 0x20 ∨ off = 0x24 ∨ off = 0x28 then some (32, true) else none
  | 0x21 => if off = 0x08 then some (32, false) else none
  | 0x23 => if 0x100 ≤ off ∧ off < 0x300 ∧ off % 0x40 = 0 then some (32, true) else none
  | 0x24 =>
    if off = 0x08 ∨ off = 0x0C then some (32, true)
    else if off = 0x10 then some (64, true)
    else if 0x100 ≤ off ∧ off < 0x140 ∧ off % 4 = 0 then some (32, true) else none
  | 0x30 => if off = 0x08 then some (32, true) else if 0x20 ≤ off ∧ off < 0x60 ∧ off % 8 = 0 then some (64, true) else none
  | 0x40 => if off = 0x08 then some (64, false) else if off = 0x10 then some (32, false) else none
  | 0x41 =>
    if off = 0x08 ∨ off = 0x0C ∨ off = 0x18 then some (32, false)
    else if 0x400 ≤ off ∧ off < 0x760 ∧ off % 8 = 4 then some (32, false) else none
  | 0x44 => if 0x24 ≤ off ∧ off < 0x3C ∧ off % 4 = 0 then some (32, true) else none
  | _ => none

/-- The KV set, until it is committed (R277). -/
def setKv (off v : Nat) (s : State) : State :=
  if off = 0x08 then (if v % 16 = 1 then doKvCommit s else if v % 16 = 2 then doKvUnlock s else s)
  else if s.kv.committed then s
  else if off < 0x200 then
    s.modT0 ((off - 0x100) / 0x20) (fun t => match off % 0x20 with
      | 0x00 => { t with base := v }
      | 0x08 => { t with window := fld v 0 4, enable := bitAt v 4, slotLog2 := fld v 5 5 }
      | _ => { t with slots := fld v 0 21 })
  else
    s.modPool ((off - 0x200) / 0x20) (fun p => match off % 0x20 with
      | 0x00 => { p with base := v }
      | 0x08 => { p with kind := fld v 0 2, slot4k := fld v 2 9, high := fld v 11 7, low := fld v 18 7 }
      | 0x0C => { p with slots := fld v 0 28 }
      | _ => { p with backend := fld v 0 16 })

/-- RDMA_MISS_HWM and the RDMA_GUST registers; a value outside the range its map gives is not applied (R350, R351; for the
gust registers the model's choice, log 23). -/
def setRdmaShared (off v : Nat) (s : State) : State :=
  s.modRdma (fun x =>
    if off = 0x1C then (if 1024 ≤ fld v 0 13 ∧ fld v 0 13 ≤ 4096 then { x with hwm := fld v 0 13 } else x)
    else if off = 0x20 then
      (if fld v 8 8 = 0 ∨ fld v 16 8 = 0 ∨ fld v 24 8 = 0 ∨ 99 < fld v 24 8 then x
       else { x with gustOn := bitAt v 0, cnpIntervalUs := fld v 8 8, tickUs := fld v 16 8, squallPct := fld v 24 8 })
    else if off = 0x24 then (if fld v 0 16 < 100 ∨ fld v 16 16 = 0 then x else { x with minRate := fld v 0 16, aiMbps := fld v 16 16 })
    else { x with rttHighUs := fld v 0 16 })

/-- After a step of PTP time every gate list stands at the entry in force at the new time (R403). -/
def resumeGates (s : State) : State :=
  let t := ptp s
  let now (g : Option GateList) (e : Nat) : Nat := match g with
    | none => e
    | some g => (gateNow g t).elim 0 (·.1)
  { s with
    ports := s.ports.map (fun p => (p.1, { p.2 with gateEntry := now p.2.gateOper p.2.gateEntry }))
    net := { s.net with ifs := s.net.ifs.map (fun p => (p.1, { p.2 with gateEntry := now p.2.gateOper p.2.gateEntry })) } }

/-- A frame on the wire finishes when it would have (R403). -/
def shiftWire (off : Int) (s : State) : State :=
  { s with net := { s.net with ifs := s.net.ifs.map (fun p => (p.1, { p.2 with sending := p.2.sending.map (fun x => (x.1, x.2.1, ((x.2.2 : Int) + off).toNat)) })) } }

/-- TIME_STEP (R403). -/
def stepTime (v : Nat) (s : State) : State :=
  let off := sxt 64 v
  let t : Int := (ptp s : Int) + off
  if t < 0 ∨ 2 ^ 64 - 1 < t then { s with clock := { s.clock with bad := true } }
  else
    let acc : Int := (ptpAcc s : Int) + off * (2 * 10 ^ 12)
    let s1 := { s with clock := { s.clock with acc := acc.toNat, at_ := s.vcycle, timeSet := true } }
    let s2 := resumeGates (shiftWire off s1)
    endDue s2.net.waits.length (postAll s2 (bothPf0 ++ bothPf1) 0x2401 0 v)

/-- TIME_FREQ: from this tick on time advances at the new rate (R403, Table 11-7). -/
def setFreq (v : Nat) (s : State) : State :=
  let f := sxt 32 v
  if f < -100000000 ∨ 100000000 < f then { s with clock := { s.clock with bad := true } }
  else { s with clock := { s.clock with acc := ptpAcc s, at_ := s.vcycle, freq := f } }

def setTime (off v : Nat) (s : State) : State :=
  if off = 0x08 then setFreq v s
  else if off = 0x0C then (if bitAt v 1 then { s with clock := { s.clock with bad := false } } else s)
  else if off = 0x10 then stepTime v s
  else s.modNetPort ((off - 0x100) / 4) (fun p => { p with txDelay := fld v 0 16, rxDelay := fld v 16 16 })

/-- The write-buffer set, until it is committed (R450, R462). -/
def setSto (off v : Nat) (s : State) : State :=
  if off = 0x08 then (if v % 16 = 1 then doStoCommit s else if v % 16 = 2 then doStoUnlock s else s)
  else if s.sto.committed then s
  else s.modSto (fun x => { x with sizes := mset x.sizes ((off - 0x20) / 8) (fld v 0 17) 0, bases := mset x.bases ((off - 0x20) / 8) (v / 2 ^ 21) 0 })

/-- MEM_CAP: a write with any field 0 or above 100 is not applied (Table 15-3). -/
def capOk (v : Nat) : Bool := [0, 7, 14, 21, 28, 35].all (fun b => decide (1 ≤ fld v b 7) && decide (fld v b 7 ≤ 100))

def setMem (off v : Nat) (s : State) : State :=
  if off = 0x08 then (if capOk v then { s with memCap := v % 2 ^ 42 } else s) else { s with memCeLimit := v }

def setPower (off v : Nat) (s : State) : State :=
  if off = 0x08 then setProfile v s
  else if off = 0x0C then setEnvelope v s
  else if off = 0x18 then (if bitAt v 0 then warmRestart s else s)
  else setRetainMask ((off - 0x404) / 8) v s

def setInterval (off v : Nat) (s : State) : State :=
  let ms := fld v 0 16
  if ms = 0 ∨ (10 ≤ ms ∧ ms ≤ 60000) then s.modWx (fun w => { w with intervals := mset w.intervals ((off - 0x20) / 4) ms 1000 }) else s

/-- A write to a shared control takes effect at its tick, where the transom reaches the control (R64, R538). -/
def applyShared (cap off v : Nat) (s : State) : State :=
  if (regDomain cap off).any (fun d => !reachable s d) then offAccess s
  else match cap with
    | 0x10 => { s with fabric := { s.fabric with owner := v % 2 ^ 8 } }
    | 0x14 => setKv off v s
    | 0x20 => setRdmaShared off v s
    | 0x21 => { s with cls := { s.cls with owner := v % 2 ^ 16 } }
    | 0x23 => let t := (off - 0x100) / 0x40
              settleMode (s.modStile t (fun k => { k with forceMasked := bitAt v 0 })) t
    | 0x24 => setTime off v s
    | 0x30 => setSto off v s
    | 0x40 => setMem off v s
    | 0x41 => setPower off v s
    | 0x44 => setInterval off v s
    | _ => s

/-- The write waits at the transom, behind the master's earlier ones (R64, R604). -/
def holdShared (h : Held) (s : State) : State := { s with transom := { s.transom with held := s.transom.held ++ [h] } }

/-- A write to a shared control from a function or from the keeper (rank 3); a function that the map does not name is
counted (R34, R64). Sessions write with REG_WRITE. -/
def doShared (rank cap off width v : Nat) (s : State) : State :=
  match sharedReg cap off with
  | none => s
  | some (w, pf1) =>
    if width * 8 ≠ w then s
    else
      let h : Held := { rank := rank, cap := cap, inst := 0, off := off, width := w, value := v % 2 ^ w }
      if rank = 3 then holdShared h s
      else if !(present s rank && presents rank cap && capOn s rank cap) then s
      else if isPf0 rank || (isPf1 rank && pf1) then holdShared h s
      else s.modFn rank (fun f => { f with roleDenied := satAdd 32 f.roleDenied 1 })

def execSharedControlWrite (rank cap off width : Nat) (value : BitVec 64) (s : State) : Host.Outcome State Fault Refusal :=
  .next (gatedShared rank (.sharedControlWrite rank cap off width value) (doShared rank cap off width value.toNat) s)

/-! ### Register writes (R8, R10) -/

/-- A write to a register of a function: of the width of the register that lies at the offset, in a block that is presented
and not disabled, or it has no effect (R7, R8, R33). -/
def doRegWrite (r : Nat) (space : RegSpace) (off width v : Nat) (s : State) : State :=
  match space with
  | .nvme => writeNvme r off width v s
  | .config => writeConfig r off v s
  | .csr c => doKeeperCsr r c off width v s
  | .block cap =>
    if !(present s r && capOn s r cap) ∨ (sharedReg cap off).isSome then s
    else match fnRegVal s r cap off with
      | none => s
      | some (w, _) => if width * 8 = w then writeBlock r cap off (v % 2 ^ w) s else s

def execRegisterWrite (fn : Nat) (space : RegSpace) (off width : Nat) (value : BitVec 64) (s : State) : Host.Outcome State Fault Refusal :=
  .next (match space with
    | .csr _ => doRegWrite fn space off width value.toNat s
    | _ => gated fn (.registerWrite fn space off width value) (doRegWrite fn space off width value.toNat) s)

/-! ### The management port's register view (R597) -/

/-- REG_RESULT: value, then status. -/
def regResult (s : State) (n v status : Nat) : State := sendOne s n 0x22 (natLE 8 v ++ natLE 1 status)

/-- What an access of a width reads at an offset of the view: all ones where no register of that width lies or the transom
does not reach it (R8, R538). -/
def viewRead (s : State) (n cap off width : Nat) : State × Nat :=
  let ones := 2 ^ width - 1
  if (regDomain cap off).any (fun d => !reachable s d) then (offAccess s, ones)
  else match viewRegVal s n cap off with
    | none => (s, ones)
    | some (w, v) => (tickFree s, if w = width then v else ones)

def bodyCap (b : List Byte) : Nat := leNat (b.take 2)
def bodyOff (b : List Byte) : Nat := leNat (sliceB b 2 4)
def bodyWidth (b : List Byte) : Nat := if bitAt (leNat (sliceB b 6 1)) 0 then 64 else 32

def regReadMsg (n : Nat) (b : List Byte) (s : State) : State :=
  let p := viewRead s n (bodyCap b) (bodyOff b) (bodyWidth b)
  regResult p.1 n p.2 0

/-- REG_READ: every role may read. -/
def execRegRead (session : Nat) (msg : List (BitVec 8)) (s : State) : Host.Outcome State Fault Refusal :=
  .next (gatedS session (.regRead session msg) (fun s => onMsg s session 0x20 msg (regReadMsg session)) s)

/-- The control selects a mode that is the operator's: the power profile, or forced masking of a SEAL tile (Table 1-10). -/
def operatorMode (cap off : Nat) : Bool := (cap == 0x41 && off == 0x08) || (cap == 0x23 && off % 0x40 == 0)

/-- The role may write the control (R23, R547). -/
def roleMayWrite (role cap off : Nat) : Bool := !operatorMode cap off || role == 2

/-- cap_id, offset and width fill seven bytes, and the value follows them (R597; its place is the model's, log 23). -/
def regWriteMsg (n : Nat) (b : List Byte) (s : State) : State :=
  let cap := bodyCap b
  let off := bodyOff b
  let w := bodyWidth b
  let v := leNat (sliceB b 7 8)
  match sharedReg cap off with
  | some (w', _) =>
    if !roleMayWrite (s.session n).role cap off then regResult s n 0 0x0E
    else if w ≠ w' then regResult s n 0 0
    else holdShared { rank := 0, session := n, cap := cap, off := off, width := w, value := v % 2 ^ w } s
  | none =>
    let s1 := if (viewRegVal s n cap off).any (fun x => x.1 == w) then
        (if cap = 0x44 then writeFeed (16 + n) off (v % 2 ^ w) s else if cap = 0x41 then writePower off (v % 2 ^ w) s else s)
      else s
    regResult s1 n 0 0

/-- A message that waits behind a shared write: a REG_WRITE to a shared control joins its own tick (R604). -/
def isSharedMsg (s : State) (n : Nat) (msg : List Byte) : Bool :=
  match openMsg s n msg with
  | none => false
  | some (t, b) => t == 0x21 && (sharedReg (bodyCap b) (bodyOff b)).isSome

/-- REG_WRITE: a shared control at its tick, any other register at once. -/
def execRegWrite (session : Nat) (msg : List (BitVec 8)) (s : State) : Host.Outcome State Fault Refusal :=
  .next (
    let act (s : State) : State := onMsg s session 0x21 msg (regWriteMsg session)
    if isSharedMsg s session msg && !s.transom.behind.any (isMsgOf session) then act s
    else gatedS session (.regWrite session msg) act s)

end Sys2Proof.Machine
end

