-- ==== Sys2Proof/Machine/Tick.lean ====
section
/-!
DEFINITION. The commit tick (02: R64, R65, R604; 16: R519, R520; 17: R556; 19: R590): shared-control writes are settled and
applied, management commands take effect, and what waited behind them runs.
-/
namespace Sys2Proof.Machine

/-! ### Settling (R64, R65) -/

/-- Same control. -/
def sameCtl (a b : Held) : Bool := a.cap == b.cap && a.off == b.off
/-- Same master: each session is one of its own. -/
def sameMast (a b : Held) : Bool := sameMaster a.rank a.session b

/-- Writes with their places in the order of arrival. -/
def numbered (hs : List Held) : List (Nat × Held) := (List.range hs.length).zip hs

/-- The last write of a master to a control within the tick. -/
def lastOfMaster (hs : List (Nat × Held)) (x : Nat × Held) : Bool :=
  !hs.any (fun y => decide (x.1 < y.1) && sameCtl x.2 y.2 && sameMast x.2 y.2)

/-- Write `y` outranks `x`, or is of equal rank and later (R64). -/
def beats (x y : Nat × Held) : Bool := decide (y.2.rank < x.2.rank) || (y.2.rank == x.2.rank && decide (x.1 < y.1))

/-- The write that stands for a control, among the last of each master. -/
def standing (hs : List (Nat × Held)) (x : Nat × Held) : Option (Nat × Held) :=
  hs.find? (fun w => sameCtl w.2 x.2 && lastOfMaster hs w && !hs.any (fun y => sameCtl y.2 x.2 && lastOfMaster hs y && beats w y))

/-- A write's standing: applied, an equal value that stands once with another, or contradicted by a rank. -/
inductive Fate where
  | applied
  | same
  | overwritten
  | lost (winner : Nat)
deriving DecidableEq, Repr

/-- What becomes of one write of a tick (R64): a later write of the same master overwrites it without a conflict; among different
masters the highest rank stands, then the last arrival; an equal value stands with it. -/
def fateOf (hs : List (Nat × Held)) (x : Nat × Held) : Fate :=
  if !lastOfMaster hs x then .overwritten
  else match standing hs x with
    | none => .applied
    | some w => if w.1 = x.1 then .applied else if w.2.value = x.2.value then .same else .lost w.2.rank

/-- An applied write enters the audit log before it takes effect; with no flash left it is refused (R562). -/
def applyOne (h : Held) (s : State) : State :=
  match auditRec s 0x0302 (if h.rank = 0 then (s.session h.session).role else if h.rank = 3 then 3 else 2) h.rank 0 (h.cap % 2 ^ 16 + h.off % 2 ^ 32 * 2 ^ 16) with
  | none => s
  | some s1 => applyShared h.cap h.off h.value s1

/-- A session learns how its write ended (R597). -/
def tellSession (h : Held) (status : Nat) (s : State) : State := if h.rank = 0 then regResult s h.session 0 status else s

/-- One write of a tick, in arrival order (R604). -/
def settleOne (hs : List (Nat × Held)) (s : State) (x : Nat × Held) : State :=
  match fateOf hs x with
  | .applied => tellSession x.2 (if flashUp s then 0 else 0x07) (applyOne x.2 s)
  | .same => tellSession x.2 0 s
  | .overwritten => tellSession x.2 0 s
  | .lost w => tellSession x.2 0x0D (logConflict s x.2.cap (x.2.off / 4) w x.2.rank false)

/-- Every write the transom holds is settled; then it holds none. -/
def settleHeldWrites (s : State) : State :=
  let hs := numbered s.transom.held
  hs.foldl (settleOne hs) { s with transom := { s.transom with held := [] } }

/-! ### What waited (R604) -/

/-- Run one command that waited behind a shared write, as it would have run on arrival. -/
def runBehind (s : State) (i : Instr) : State :=
  let go (o : Host.Outcome State Fault Refusal) : State := match o with
    | .next t => t
    | _ => s
  match i with
  | .registerWrite fn space off width value => go (execRegisterWrite fn space off width value s)
  | .sharedControlWrite rank cap off width value => go (execSharedControlWrite rank cap off width value s)
  | .ringDirCommit fn => go (execRingDirCommit fn s)
  | .ringDirUnlock fn => go (execRingDirUnlock fn s)
  | .loadEntry fn index => go (execLoadEntry fn index s)
  | .disableEntry fn index => go (execDisableEntry fn index s)
  | .doorbell fn page offset width word => go (execDoorbell fn page offset width word s)
  | .evCommit fn value => go (execEvCommit fn value s)
  | .evUnlock fn => go (execEvUnlock fn s)
  | .leasePeriodWrite fn value => go (execLeasePeriodWrite fn value s)
  | .portEnable fn port => go (execPortEnable fn port s)
  | .portDisable fn port => go (execPortDisable fn port s)
  | .portRetrain fn port => go (execPortRetrain fn port s)
  | .pwCommit fn mask => go (execPwCommit fn mask s)
  | .afGateCommit fn port => go (execAfGateCommit fn port s)
  | .vcCreditsWrite fn port units => go (execVcCreditsWrite fn port units s)
  | .rdmaSetCommit fn => go (execRdmaSetCommit fn s)
  | .rdmaSetUnlock fn => go (execRdmaSetUnlock fn s)
  | .ckSetCommit fn => go (execCkSetCommit fn s)
  | .ckSetUnlock fn => go (execCkSetUnlock fn s)
  | .schGateCommit fn iface => go (execSchGateCommit fn iface s)
  | .breakoutWrite fn net value => go (execBreakoutWrite fn net value s)
  | .sqTailDoorbell fn q tail cmds => go (execSqTailDoorbell fn q tail cmds s)
  | .cqHeadDoorbell fn q head => go (execCqHeadDoorbell fn q head s)
  | .ccEnSet fn cc => go (execCcEnSet fn cc s)
  | .ccEnClear fn reads => go (execCcEnClear fn reads s)
  | .nvmeShutdown fn shn => go (execNvmeShutdown fn shn s)
  | .functionEnable fn => go (execFunctionEnable fn s)
  | .functionShutdown fn keep enable reads => go (execFunctionShutdown fn keep enable reads s)
  | .orphanAdopt fn entries => go (execOrphanAdopt fn entries s)
  | .orphanDiscard fn => go (execOrphanDiscard fn s)
  | .vfQuotaWrite pf vf second value => go (execVfQuotaWrite pf vf second value s)
  | .msixUnmask fn vec => go (execMsixUnmask fn vec s)
  | .intxPendingClear fn index value => go (execIntxPendingClear fn index value s)
  | .cvArm fn unit ctrl => go (execCvArm fn unit ctrl s)
  | .cvDisarm fn unit ctrl => go (execCvDisarm fn unit ctrl s)
  | .regRead session msg => go (execRegRead session msg s)
  | .regWrite session msg => go (execRegWrite session msg s)
  | .claim session msg => go (execClaim session msg s)
  | .release session msg => go (execRelease session msg s)
  | .installerKey session msg => go (execInstallerKey session msg s)
  | .operatorKey session msg => go (execOperatorKey session msg s)
  | .policy session msg => go (execPolicy session msg s)
  | .consent session msg => go (execConsent session msg s)
  | .debugUnlock session msg => go (execDebugUnlock session msg s)
  | .fwStage src read image => go (execFwStage src read image s)
  | .fwActivate src => go (execFwActivate src s)
  | .fwConfirm src => go (execFwConfirm src s)
  | .attest src => go (execAttest src s)
  | .auditRead src => go (execAuditRead src s)
  | _ => s

/-- Everything that waited runs in the order of its arrival. -/
def releaseBehind (s : State) : State :=
  s.transom.behind.foldl runBehind { s with transom := { s.transom with behind := [], behindOf := [] } }

/-! ### The tick -/

/-- The next commit tick: the first multiple of 64 vestibule periods that is not past and has not had its tick, so that a
write which arrives in the cycle of a tick is applied at that tick (R64). -/
def nextTick (s : State) : Nat := max ((s.vcycle + 63) / 64 * 64) (s.transom.tickAt / 64 * 64 + 64)

/-- The clock moves to the tick. -/
def toTick (s : State) : State :=
  let t := advanceTo s (nextTick s)
  { t with transom := { t.transom with tickAt := t.vcycle } }

/-- What a tick does, in this order (log 23): the straps are sampled, the held writes settled, a profile change stepped,
management commands applied, and what waited released. -/
def doTick (claimEnN debugEnN : Bool) (s : State) : State :=
  if !s.power.romDone then s
  else releaseBehind (tickCmds (tickProfile (settleHeldWrites (strapTick claimEnN debugEnN (toTick s)))))

def execCommitTick (claimEnN debugEnN : Bool) (s : State) : Host.Outcome State Fault Refusal := .next (doTick claimEnN debugEnN s)

end Sys2Proof.Machine
end

