-- ==== Sys2Proof/Machine/Dispatch.lean ====
section
/-!
DEFINITION. One arm per command, each a direct call of its meaning.
-/
namespace Sys2Proof.Machine

def exec (i : Instr) (s : State) : Host.Outcome State Fault Refusal :=
  match i with
  | .registerWrite fn space off width value => Sys2Proof.Machine.execRegisterWrite fn space off width value s
  | .sharedControlWrite rank cap off width value => Sys2Proof.Machine.execSharedControlWrite rank cap off width value s
  | .ringDirCommit fn => Sys2Proof.Machine.execRingDirCommit fn s
  | .ringDirUnlock fn => Sys2Proof.Machine.execRingDirUnlock fn s
  | .loadEntry fn index => Sys2Proof.Machine.execLoadEntry fn index s
  | .disableEntry fn index => Sys2Proof.Machine.execDisableEntry fn index s
  | .doorbell fn page offset width word => Sys2Proof.Machine.execDoorbell fn page offset width word s
  | .evCommit fn value => Sys2Proof.Machine.execEvCommit fn value s
  | .evUnlock fn => Sys2Proof.Machine.execEvUnlock fn s
  | .leasePeriodWrite fn value => Sys2Proof.Machine.execLeasePeriodWrite fn value s
  | .portEnable fn port => Sys2Proof.Machine.execPortEnable fn port s
  | .portDisable fn port => Sys2Proof.Machine.execPortDisable fn port s
  | .portRetrain fn port => Sys2Proof.Machine.execPortRetrain fn port s
  | .pwCommit fn mask => Sys2Proof.Machine.execPwCommit fn mask s
  | .afGateCommit fn port => Sys2Proof.Machine.execAfGateCommit fn port s
  | .vcCreditsWrite fn port units => Sys2Proof.Machine.execVcCreditsWrite fn port units s
  | .ckSetCommit fn => Sys2Proof.Machine.execCkSetCommit fn s
  | .ckSetUnlock fn => Sys2Proof.Machine.execCkSetUnlock fn s
  | .rdmaSetCommit fn => Sys2Proof.Machine.execRdmaSetCommit fn s
  | .rdmaSetUnlock fn => Sys2Proof.Machine.execRdmaSetUnlock fn s
  | .schGateCommit fn iface => Sys2Proof.Machine.execSchGateCommit fn iface s
  | .breakoutWrite fn net value => Sys2Proof.Machine.execBreakoutWrite fn net value s
  | .sqTailDoorbell fn q tail cmds => Sys2Proof.Machine.execSqTailDoorbell fn q tail cmds s
  | .cqHeadDoorbell fn q head => Sys2Proof.Machine.execCqHeadDoorbell fn q head s
  | .ccEnSet fn cc => Sys2Proof.Machine.execCcEnSet fn cc s
  | .ccEnClear fn reads => Sys2Proof.Machine.execCcEnClear fn reads s
  | .nvmeShutdown fn shn => Sys2Proof.Machine.execNvmeShutdown fn shn s
  | .functionEnable fn => Sys2Proof.Machine.execFunctionEnable fn s
  | .functionShutdown fn keep enable reads => Sys2Proof.Machine.execFunctionShutdown fn keep enable reads s
  | .orphanAdopt fn entries => Sys2Proof.Machine.execOrphanAdopt fn entries s
  | .orphanDiscard fn => Sys2Proof.Machine.execOrphanDiscard fn s
  | .vfQuotaWrite pf vf second value => Sys2Proof.Machine.execVfQuotaWrite pf vf second value s
  | .msixUnmask fn vec => Sys2Proof.Machine.execMsixUnmask fn vec s
  | .intxPendingClear fn index value => Sys2Proof.Machine.execIntxPendingClear fn index value s
  | .regRead session msg => Sys2Proof.Machine.execRegRead session msg s
  | .regWrite session msg => Sys2Proof.Machine.execRegWrite session msg s
  | .claim session msg => Sys2Proof.Machine.execClaim session msg s
  | .release session msg => Sys2Proof.Machine.execRelease session msg s
  | .installerKey session msg => Sys2Proof.Machine.execInstallerKey session msg s
  | .operatorKey session msg => Sys2Proof.Machine.execOperatorKey session msg s
  | .policy session msg => Sys2Proof.Machine.execPolicy session msg s
  | .consent session msg => Sys2Proof.Machine.execConsent session msg s
  | .debugUnlock session msg => Sys2Proof.Machine.execDebugUnlock session msg s
  | .fwStage src read image => Sys2Proof.Machine.execFwStage src read image s
  | .fwActivate src => Sys2Proof.Machine.execFwActivate src s
  | .fwConfirm src => Sys2Proof.Machine.execFwConfirm src s
  | .attest src => Sys2Proof.Machine.execAttest src s
  | .auditRead src => Sys2Proof.Machine.execAuditRead src s
  | .cvArm fn unit ctrl => Sys2Proof.Machine.execCvArm fn unit ctrl s
  | .cvDisarm fn unit ctrl => Sys2Proof.Machine.execCvDisarm fn unit ctrl s
  | .commitTick claimEnN debugEnN => Sys2Proof.Machine.execCommitTick claimEnN debugEnN s
  | .directoryReadReturn fn read => Sys2Proof.Machine.execDirectoryReadReturn fn read s
  | .descriptorFetch fn ring read => Sys2Proof.Machine.execDescriptorFetch fn ring read s
  | .nop fn ring => Sys2Proof.Machine.execNop fn ring s
  | .interruptModerationExpiry fn ring => Sys2Proof.Machine.execInterruptModerationExpiry fn ring s
  | .leaseHalf fn => Sys2Proof.Machine.execLeaseHalf fn s
  | .leaseExpiry fn reads => Sys2Proof.Machine.execLeaseExpiry fn reads s
  | .rxLightChange port lit => Sys2Proof.Machine.execRxLightChange port lit s
  | .detectHalfTimeout port => Sys2Proof.Machine.execDetectHalfTimeout port s
  | .lossOfLight port => Sys2Proof.Machine.execLossOfLight port s
  | .trainTimeout port => Sys2Proof.Machine.execTrainTimeout port s
  | .trainingFlitRx port ownGood flit => Sys2Proof.Machine.execTrainingFlitRx port ownGood flit s
  | .retrainTimeout port => Sys2Proof.Machine.execRetrainTimeout port s
  | .downTimeout port => Sys2Proof.Machine.execDownTimeout port s
  | .widenCheck port => Sys2Proof.Machine.execWidenCheck port s
  | .retrainAtReached port => Sys2Proof.Machine.execRetrainAtReached port s
  | .flitRx port flit => Sys2Proof.Machine.execFlitRx port flit s
  | .replayRun port => Sys2Proof.Machine.execReplayRun port s
  | .ackTimer port => Sys2Proof.Machine.execAckTimer port s
  | .fabricWrite port addr data => Sys2Proof.Machine.execFabricWrite port addr data s
  | .fabricWriteAcked port tag addr data => Sys2Proof.Machine.execFabricWriteAcked port tag addr data s
  | .fabricRead port tag addr length => Sys2Proof.Machine.execFabricRead port tag addr length s
  | .fabricCpl port toPort tag status data => Sys2Proof.Machine.execFabricCpl port toPort tag status data s
  | .egressDepart port => Sys2Proof.Machine.execEgressDepart port s
  | .windowsActivate => Sys2Proof.Machine.execWindowsActivate s
  | .gateListTakeEffect accel which => Sys2Proof.Machine.execGateListTakeEffect accel which s
  | .gateEntryAdvance accel which => Sys2Proof.Machine.execGateEntryAdvance accel which s
  | .accelAlert port low => Sys2Proof.Machine.execAccelAlert port low s
  | .rdOpen core => Sys2Proof.Machine.execRdOpen core s
  | .admissionGrant => Sys2Proof.Machine.execAdmissionGrant s
  | .rdPull core => Sys2Proof.Machine.execRdPull core s
  | .pullDataReturn handle which back => Sys2Proof.Machine.execPullDataReturn handle which back s
  | .rdClose core => Sys2Proof.Machine.execRdClose core s
  | .rdAbort core => Sys2Proof.Machine.execRdAbort core s
  | .contrib port handle hgen rank element data => Sys2Proof.Machine.execContrib port handle hgen rank element data s
  | .resultCopyDepart handle sumTile => Sys2Proof.Machine.execResultCopyDepart handle sumTile s
  | .resultWriteAccepted handle sumTile => Sys2Proof.Machine.execResultWriteAccepted handle sumTile s
  | .alu core lo => Sys2Proof.Machine.execAlu core lo s
  | .addi core lo => Sys2Proof.Machine.execAddi core lo s
  | .andi core lo => Sys2Proof.Machine.execAndi core lo s
  | .ori core lo => Sys2Proof.Machine.execOri core lo s
  | .xori core lo => Sys2Proof.Machine.execXori core lo s
  | .shifti core lo => Sys2Proof.Machine.execShifti core lo s
  | .movi core lo => Sys2Proof.Machine.execMovi core lo s
  | .movk16 core lo => Sys2Proof.Machine.execMovk16 core lo s
  | .movk32 core lo => Sys2Proof.Machine.execMovk32 core lo s
  | .movk48 core lo => Sys2Proof.Machine.execMovk48 core lo s
  | .cmp core lo => Sys2Proof.Machine.execCmp core lo s
  | .cmpi core lo => Sys2Proof.Machine.execCmpi core lo s
  | .plog core lo => Sys2Proof.Machine.execPlog core lo s
  | .pmov core lo => Sys2Proof.Machine.execPmov core lo s
  | .ld8 core lo => Sys2Proof.Machine.execLd8 core lo s
  | .ld16 core lo => Sys2Proof.Machine.execLd16 core lo s
  | .ld32 core lo => Sys2Proof.Machine.execLd32 core lo s
  | .ld64 core lo => Sys2Proof.Machine.execLd64 core lo s
  | .lds8 core lo => Sys2Proof.Machine.execLds8 core lo s
  | .lds16 core lo => Sys2Proof.Machine.execLds16 core lo s
  | .lds32 core lo => Sys2Proof.Machine.execLds32 core lo s
  | .loadDataReturn core ret => Sys2Proof.Machine.execLoadDataReturn core ret s
  | .st8 core lo => Sys2Proof.Machine.execSt8 core lo s
  | .st16 core lo => Sys2Proof.Machine.execSt16 core lo s
  | .st32 core lo => Sys2Proof.Machine.execSt32 core lo s
  | .st64 core lo => Sys2Proof.Machine.execSt64 core lo s
  | .cas core lo => Sys2Proof.Machine.execCas core lo s
  | .fence core lo => Sys2Proof.Machine.execFence core lo s
  | .br core lo => Sys2Proof.Machine.execBr core lo s
  | .jr core lo => Sys2Proof.Machine.execJr core lo s
  | .adr core lo => Sys2Proof.Machine.execAdr core lo s
  | .call core lo => Sys2Proof.Machine.execCall core lo s
  | .ret core lo => Sys2Proof.Machine.execRet core lo s
  | .eret core lo => Sys2Proof.Machine.execEret core lo s
  | .trap core lo => Sys2Proof.Machine.execTrap core lo s
  | .step core lo => Sys2Proof.Machine.execStep core lo s
  | .wait core lo => Sys2Proof.Machine.execWait core lo s
  | .waitWake core => Sys2Proof.Machine.execWaitWake core s
  | .lock core lo => Sys2Proof.Machine.execLock core lo s
  | .lockGrant lock => Sys2Proof.Machine.execLockGrant lock s
  | .unlock core lo => Sys2Proof.Machine.execUnlock core lo s
  | .alive core lo => Sys2Proof.Machine.execAlive core lo s
  | .csrr core lo => Sys2Proof.Machine.execCsrr core lo s
  | .csrw core lo => Sys2Proof.Machine.execCsrw core lo s
  | .scqPop core lo => Sys2Proof.Machine.execScqPop core lo s
  | .mboxPop core lo => Sys2Proof.Machine.execMboxPop core lo s
  | .stuckAccess core => Sys2Proof.Machine.execStuckAccess core s
  | .aliveSample => Sys2Proof.Machine.execAliveSample s
  | .coreStop core => Sys2Proof.Machine.execCoreStop core s
  | .coreReloadComplete core journal => Sys2Proof.Machine.execCoreReloadComplete core journal s
  | .coreFailedAdoption core => Sys2Proof.Machine.execCoreFailedAdoption core s
  | .keeperFailover => Sys2Proof.Machine.execKeeperFailover s
  | .keeperReloadComplete => Sys2Proof.Machine.execKeeperReloadComplete s
  | .romKeeperRestart => Sys2Proof.Machine.execRomKeeperRestart s
  | .drainRequest core => Sys2Proof.Machine.execDrainRequest core s
  | .drainCancel core => Sys2Proof.Machine.execDrainCancel core s
  | .handoffRecord core => Sys2Proof.Machine.execHandoffRecord core s
  | .handoffTimeout core => Sys2Proof.Machine.execHandoffTimeout core s
  | .swapAdopt core => Sys2Proof.Machine.execSwapAdopt core s
  | .componentReplace => Sys2Proof.Machine.execComponentReplace s
  | .rtStep core => Sys2Proof.Machine.execRtStep core s
  | .rtReap core => Sys2Proof.Machine.execRtReap core s
  | .rtPut core => Sys2Proof.Machine.execRtPut core s
  | .rtArrived core => Sys2Proof.Machine.execRtArrived core s
  | .rtMove core ext => Sys2Proof.Machine.execRtMove core ext s
  | .rtNotify core => Sys2Proof.Machine.execRtNotify core s
  | .rtFinish core => Sys2Proof.Machine.execRtFinish core s
  | .rtYield core => Sys2Proof.Machine.execRtYield core s
  | .progLoad fn ring image => Sys2Proof.Machine.execProgLoad fn ring image s
  | .progUnload fn ring => Sys2Proof.Machine.execProgUnload fn ring s
  | .commCreate fn ring => Sys2Proof.Machine.execCommCreate fn ring s
  | .commConnect fn ring peers => Sys2Proof.Machine.execCommConnect fn ring peers s
  | .commDestroy fn ring => Sys2Proof.Machine.execCommDestroy fn ring s
  | .collLaunch fn ring => Sys2Proof.Machine.execCollLaunch fn ring s
  | .launchStart core => Sys2Proof.Machine.execLaunchStart core s
  | .collAbort fn ring => Sys2Proof.Machine.execCollAbort fn ring s
  | .classSet fn ring => Sys2Proof.Machine.execClassSet fn ring s
  | .seqOpen fn ring => Sys2Proof.Machine.execSeqOpen fn ring s
  | .seqFork fn ring => Sys2Proof.Machine.execSeqFork fn ring s
  | .seqClose fn ring => Sys2Proof.Machine.execSeqClose fn ring s
  | .seqGrow fn ring => Sys2Proof.Machine.execSeqGrow fn ring s
  | .seqSeal fn ring => Sys2Proof.Machine.execSeqSeal fn ring s
  | .seqTruncate fn ring => Sys2Proof.Machine.execSeqTruncate fn ring s
  | .seqPin fn ring => Sys2Proof.Machine.execSeqPin fn ring s
  | .seqDemote fn ring => Sys2Proof.Machine.execSeqDemote fn ring s
  | .seqQuery fn ring => Sys2Proof.Machine.execSeqQuery fn ring s
  | .planPost fn ring entries => Sys2Proof.Machine.execPlanPost fn ring entries s
  | .planCancel fn ring => Sys2Proof.Machine.execPlanCancel fn ring s
  | .blockCopyComplete block ext => Sys2Proof.Machine.execBlockCopyComplete block ext s
  | .blockReadReturn plan block ext => Sys2Proof.Machine.execBlockReadReturn plan block ext s
  | .blockResident plan block => Sys2Proof.Machine.execBlockResident plan block s
  | .planDeadline plan => Sys2Proof.Machine.execPlanDeadline plan s
  | .planRelease plan => Sys2Proof.Machine.execPlanRelease plan s
  | .kvSetCommit => Sys2Proof.Machine.execKvSetCommit s
  | .kvSetUnlock => Sys2Proof.Machine.execKvSetUnlock s
  | .ckptJobSet fn ring read => Sys2Proof.Machine.execCkptJobSet fn ring read s
  | .ckptTake fn ring read answers => Sys2Proof.Machine.execCkptTake fn ring read answers s
  | .snapshotPoint ep => Sys2Proof.Machine.execSnapshotPoint ep s
  | .granuleCow granule => Sys2Proof.Machine.execGranuleCow granule s
  | .captureReadReturn ep ext => Sys2Proof.Machine.execCaptureReadReturn ep ext s
  | .takeFlushComplete ep answer => Sys2Proof.Machine.execTakeFlushComplete ep answer s
  | .rootWriteComplete ep answer => Sys2Proof.Machine.execRootWriteComplete ep answer s
  | .ckptAbort fn ring => Sys2Proof.Machine.execCkptAbort fn ring s
  | .ckptSurvey fn ring answers => Sys2Proof.Machine.execCkptSurvey fn ring answers s
  | .ckptRestore fn ring read answers => Sys2Proof.Machine.execCkptRestore fn ring read answers s
  | .pdAlloc fn ring => Sys2Proof.Machine.execPdAlloc fn ring s
  | .pdFree fn ring => Sys2Proof.Machine.execPdFree fn ring s
  | .mrReg fn ring => Sys2Proof.Machine.execMrReg fn ring s
  | .mrDereg fn ring => Sys2Proof.Machine.execMrDereg fn ring s
  | .qpCreate fn ring => Sys2Proof.Machine.execQpCreate fn ring s
  | .qpModify fn ring attrs => Sys2Proof.Machine.execQpModify fn ring attrs s
  | .qpQuery fn ring => Sys2Proof.Machine.execQpQuery fn ring s
  | .qpDestroy fn ring => Sys2Proof.Machine.execQpDestroy fn ring s
  | .ahCreate fn ring attrs => Sys2Proof.Machine.execAhCreate fn ring attrs s
  | .ahDestroy fn ring => Sys2Proof.Machine.execAhDestroy fn ring s
  | .send fn ring data => Sys2Proof.Machine.execSend fn ring data s
  | .sendImm fn ring data => Sys2Proof.Machine.execSendImm fn ring data s
  | .write fn ring data => Sys2Proof.Machine.execWrite fn ring data s
  | .writeImm fn ring data => Sys2Proof.Machine.execWriteImm fn ring data s
  | .read fn ring => Sys2Proof.Machine.execRead fn ring s
  | .atomicCas fn ring => Sys2Proof.Machine.execAtomicCas fn ring s
  | .atomicFadd fn ring => Sys2Proof.Machine.execAtomicFadd fn ring s
  | .recv fn ring => Sys2Proof.Machine.execRecv fn ring s
  | .rcRequestPacket net host => Sys2Proof.Machine.execRcRequestPacket net host s
  | .responsePacket net => Sys2Proof.Machine.execResponsePacket net s
  | .udPacket net => Sys2Proof.Machine.execUdPacket net s
  | .ackTimeout qpn => Sys2Proof.Machine.execAckTimeout qpn s
  | .rnrTimerExpiry qpn => Sys2Proof.Machine.execRnrTimerExpiry qpn s
  | .cnpRx net => Sys2Proof.Machine.execCnpRx net s
  | .gustTick => Sys2Proof.Machine.execGustTick s
  | .contextFetchReturn qpn read => Sys2Proof.Machine.execContextFetchReturn qpn read s
  | .contextWritebackAccepted qpn => Sys2Proof.Machine.execContextWritebackAccepted qpn s
  | .rxFrame iface frame => Sys2Proof.Machine.execRxFrame iface frame s
  | .classifyPass net tx => Sys2Proof.Machine.execClassifyPass net tx s
  | .graphLoad fn ring image sig graph => Sys2Proof.Machine.execGraphLoad fn ring image sig graph s
  | .graphUnload fn ring => Sys2Proof.Machine.execGraphUnload fn ring s
  | .setCreate fn ring record => Sys2Proof.Machine.execSetCreate fn ring record s
  | .setDestroy fn ring => Sys2Proof.Machine.execSetDestroy fn ring s
  | .setConfig fn ring record => Sys2Proof.Machine.execSetConfig fn ring record s
  | .bind fn ring => Sys2Proof.Machine.execBind fn ring s
  | .entryAdd fn ring records => Sys2Proof.Machine.execEntryAdd fn ring records s
  | .entryDel fn ring records => Sys2Proof.Machine.execEntryDel fn ring records s
  | .rangeSet fn ring record => Sys2Proof.Machine.execRangeSet fn ring record s
  | .setCommit fn ring => Sys2Proof.Machine.execSetCommit fn ring s
  | .counterRead fn ring => Sys2Proof.Machine.execCounterRead fn ring s
  | .legacyLoad fn ring image => Sys2Proof.Machine.execLegacyLoad fn ring image s
  | .txqCreate fn ring => Sys2Proof.Machine.execTxqCreate fn ring s
  | .rxqCreate fn ring => Sys2Proof.Machine.execRxqCreate fn ring s
  | .qConfig fn ring => Sys2Proof.Machine.execQConfig fn ring s
  | .qDestroy fn ring => Sys2Proof.Machine.execQDestroy fn ring s
  | .policerSet fn ring => Sys2Proof.Machine.execPolicerSet fn ring s
  | .policerRead fn ring => Sys2Proof.Machine.execPolicerRead fn ring s
  | .txPacket fn ring data => Sys2Proof.Machine.execTxPacket fn ring data s
  | .rxBuffer fn ring => Sys2Proof.Machine.execRxBuffer fn ring s
  | .frameSelect iface => Sys2Proof.Machine.execFrameSelect iface s
  | .frameTxDone iface => Sys2Proof.Machine.execFrameTxDone iface s
  | .timeWait fn ring => Sys2Proof.Machine.execTimeWait fn ring s
  | .timeWaitDue => Sys2Proof.Machine.execTimeWaitDue s
  | .interfaceLinkChange iface up => Sys2Proof.Machine.execInterfaceLinkChange iface up s
  | .keyAlloc fn ring => Sys2Proof.Machine.execKeyAlloc fn ring s
  | .keyLoad fn ring read => Sys2Proof.Machine.execKeyLoad fn ring read s
  | .keyFree fn ring => Sys2Proof.Machine.execKeyFree fn ring s
  | .saSet fn ring read => Sys2Proof.Machine.execSaSet fn ring read s
  | .sealGcm fn ring src aad => Sys2Proof.Machine.execSealGcm fn ring src aad s
  | .openGcm fn ring src aad => Sys2Proof.Machine.execOpenGcm fn ring src aad s
  | .xtsEnc fn ring src => Sys2Proof.Machine.execXtsEnc fn ring src s
  | .xtsDec fn ring src => Sys2Proof.Machine.execXtsDec fn ring src s
  | .hash fn ring src state => Sys2Proof.Machine.execHash fn ring src state s
  | .ctxSave fn ring => Sys2Proof.Machine.execCtxSave fn ring s
  | .ctxRestore fn ring src => Sys2Proof.Machine.execCtxRestore fn ring src s
  | .saQuery fn ring => Sys2Proof.Machine.execSaQuery fn ring s
  | .sealTileFault tile8 => Sys2Proof.Machine.execSealTileFault tile8 s
  | .sealRecoveryEnd tile8 => Sys2Proof.Machine.execSealRecoveryEnd tile8 s
  | .mcLockClaim claims => Sys2Proof.Machine.execMcLockClaim claims s
  | .mcLockRelease claimant => Sys2Proof.Machine.execMcLockRelease claimant s
  | .mcLockForcedRelease => Sys2Proof.Machine.execMcLockForcedRelease s
  | .identify fn prps => Sys2Proof.Machine.execIdentify fn prps s
  | .getLogPage fn prps => Sys2Proof.Machine.execGetLogPage fn prps s
  | .setFeatures fn => Sys2Proof.Machine.execSetFeatures fn s
  | .getFeatures fn => Sys2Proof.Machine.execGetFeatures fn s
  | .createIoSq fn => Sys2Proof.Machine.execCreateIoSq fn s
  | .createIoCq fn => Sys2Proof.Machine.execCreateIoCq fn s
  | .deleteIoSq fn => Sys2Proof.Machine.execDeleteIoSq fn s
  | .deleteIoCq fn => Sys2Proof.Machine.execDeleteIoCq fn s
  | .nvmeAbort fn => Sys2Proof.Machine.execNvmeAbort fn s
  | .asyncEventRequest fn => Sys2Proof.Machine.execAsyncEventRequest fn s
  | .nvmeRead fn sq prps => Sys2Proof.Machine.execNvmeRead fn sq prps s
  | .nvmeWrite fn sq data => Sys2Proof.Machine.execNvmeWrite fn sq data s
  | .nvmeFlush fn sq => Sys2Proof.Machine.execNvmeFlush fn sq s
  | .writeZeroes fn sq => Sys2Proof.Machine.execWriteZeroes fn sq s
  | .datasetManagement fn sq ranges => Sys2Proof.Machine.execDatasetManagement fn sq ranges s
  | .backendCommandComplete backend which answer => Sys2Proof.Machine.execBackendCommandComplete backend which answer s
  | .writeBackComplete backend which answer => Sys2Proof.Machine.execWriteBackComplete backend which answer s
  | .keepAlive backend ok => Sys2Proof.Machine.execKeepAlive backend ok s
  | .backendCreate fn ring read => Sys2Proof.Machine.execBackendCreate fn ring read s
  | .backendConnectStep backend answer => Sys2Proof.Machine.execBackendConnectStep backend answer s
  | .backendDestroy fn ring => Sys2Proof.Machine.execBackendDestroy fn ring s
  | .backendRebind fn ring read => Sys2Proof.Machine.execBackendRebind fn ring read s
  | .backendQuery fn ring => Sys2Proof.Machine.execBackendQuery fn ring s
  | .nsCreate fn ring => Sys2Proof.Machine.execNsCreate fn ring s
  | .nsDelete fn ring => Sys2Proof.Machine.execNsDelete fn ring s
  | .nsAttach fn ring => Sys2Proof.Machine.execNsAttach fn ring s
  | .nsDetach fn ring => Sys2Proof.Machine.execNsDetach fn ring s
  | .stoSetCommit => Sys2Proof.Machine.execStoSetCommit s
  | .stoSetUnlock => Sys2Proof.Machine.execStoSetUnlock s
  | .flr fn reads => Sys2Proof.Machine.execFlr fn reads s
  | .hotReset ep reads => Sys2Proof.Machine.execHotReset ep reads s
  | .busMasterClear fn reads => Sys2Proof.Machine.execBusMasterClear fn reads s
  | .d3hotEntry fn reads => Sys2Proof.Machine.execD3hotEntry fn reads s
  | .vfEnableSet pf num => Sys2Proof.Machine.execVfEnableSet pf num s
  | .vfEnableClear pf reads => Sys2Proof.Machine.execVfEnableClear pf reads s
  | .functionDrained fn => Sys2Proof.Machine.execFunctionDrained fn s
  | .drainBoundExpiry fn => Sys2Proof.Machine.execDrainBoundExpiry fn s
  | .orphanHoldExpiry fn => Sys2Proof.Machine.execOrphanHoldExpiry fn s
  | .hostReadTimeout fn dir => Sys2Proof.Machine.execHostReadTimeout fn dir s
  | .poisonedTlp fn read dir => Sys2Proof.Machine.execPoisonedTlp fn read dir s
  | .unexpectedCompletion fn => Sys2Proof.Machine.execUnexpectedCompletion fn s
  | .aspmL1Entry ep => Sys2Proof.Machine.execAspmL1Entry ep s
  | .vfFreeze fn ring => Sys2Proof.Machine.execVfFreeze fn ring s
  | .vfSave fn ring => Sys2Proof.Machine.execVfSave fn ring s
  | .vfRestore fn ring blob map => Sys2Proof.Machine.execVfRestore fn ring blob map s
  | .vfThaw fn ring => Sys2Proof.Machine.execVfThaw fn ring s
  | .dirtyLog fn ring => Sys2Proof.Machine.execDirtyLog fn ring s
  | .groupRetire fn ring => Sys2Proof.Machine.execGroupRetire fn ring s
  | .frameCopyComplete stack lines => Sys2Proof.Machine.execFrameCopyComplete stack lines s
  | .lostListRead fn ring => Sys2Proof.Machine.execLostListRead fn ring s
  | .scrub stack line found => Sys2Proof.Machine.execScrub stack line found s
  | .channelTrainingLoss stack chan => Sys2Proof.Machine.execChannelTrainingLoss stack chan s
  | .channelRetrainComplete stack chan trained => Sys2Proof.Machine.execChannelRetrainComplete stack chan trained s
  | .memCapWindow stack => Sys2Proof.Machine.execMemCapWindow stack s
  | .powerGood => Sys2Proof.Machine.execPowerGood s
  | .powerLoss => Sys2Proof.Machine.execPowerLoss s
  | .inputUndervoltage mv => Sys2Proof.Machine.execInputUndervoltage mv s
  | .inputOvervoltage mv => Sys2Proof.Machine.execInputOvervoltage mv s
  | .inputReturn mv => Sys2Proof.Machine.execInputReturn mv s
  | .busOvercurrent status => Sys2Proof.Machine.execBusOvercurrent status s
  | .railFault rail status => Sys2Proof.Machine.execRailFault rail status s
  | .sensorFault kind which => Sys2Proof.Machine.execSensorFault kind which s
  | .busRecovery ok => Sys2Proof.Machine.execBusRecovery ok s
  | .regulatorAck rail => Sys2Proof.Machine.execRegulatorAck rail s
  | .regulatorAckTimeout rail => Sys2Proof.Machine.execRegulatorAckTimeout rail s
  | .railsSettled => Sys2Proof.Machine.execRailsSettled s
  | .voltageRetry => Sys2Proof.Machine.execVoltageRetry s
  | .envelopeExceeded watts => Sys2Proof.Machine.execEnvelopeExceeded watts s
  | .envelopeRaise watts => Sys2Proof.Machine.execEnvelopeRaise watts s
  | .thermalNearLimit domain temp => Sys2Proof.Machine.execThermalNearLimit domain temp s
  | .thermalRaise => Sys2Proof.Machine.execThermalRaise s
  | .thermalLimit domain temp => Sys2Proof.Machine.execThermalLimit domain temp s
  | .thermalTrip domain => Sys2Proof.Machine.execThermalTrip domain s
  | .thermalCooled domain => Sys2Proof.Machine.execThermalCooled domain s
  | .unitShutter fn ring => Sys2Proof.Machine.execUnitShutter fn ring s
  | .shutterDrainComplete domain => Sys2Proof.Machine.execShutterDrainComplete domain s
  | .ctlHandoffTimeout domain => Sys2Proof.Machine.execCtlHandoffTimeout domain s
  | .unitReopen fn ring temp => Sys2Proof.Machine.execUnitReopen fn ring temp s
  | .selfTestComplete domain failed => Sys2Proof.Machine.execSelfTestComplete domain failed s
  | .domainTransitionComplete domain => Sys2Proof.Machine.execDomainTransitionComplete domain s
  | .cdcOverrun bit fn ring seq => Sys2Proof.Machine.execCdcOverrun bit fn ring seq s
  | .stageReached failed die => Sys2Proof.Machine.execStageReached failed die s
  | .mgmtConnect => Sys2Proof.Machine.execMgmtConnect s
  | .mgmtOpen session msg pub => Sys2Proof.Machine.execMgmtOpen session msg pub s
  | .mgmtIdleTimeout session => Sys2Proof.Machine.execMgmtIdleTimeout session s
  | .mgmtClose session => Sys2Proof.Machine.execMgmtClose session s
  | .flashFault device => Sys2Proof.Machine.execFlashFault device s
  | .cvWindowEnd unit => Sys2Proof.Machine.execCvWindowEnd unit s
  | .cvWindowAbort unit => Sys2Proof.Machine.execCvWindowAbort unit s
  | .amSample mon read => Sys2Proof.Machine.execAmSample mon read s
  | .wfSample type sensors => Sys2Proof.Machine.execWfSample type sensors s
  | .feedBuffer fn ring => Sys2Proof.Machine.execFeedBuffer fn ring s
  | .feedFlush fn ring => Sys2Proof.Machine.execFeedFlush fn ring s
  | .feedFlushTimeout pf => Sys2Proof.Machine.execFeedFlushTimeout pf s
  | .laserUnitRemove laser => Sys2Proof.Machine.execLaserUnitRemove laser s
  | .laserUnitInsert laser => Sys2Proof.Machine.execLaserUnitInsert laser s
  | .ppsPulse => Sys2Proof.Machine.execPpsPulse s
  | .laneAlignmentLoss port lane => Sys2Proof.Machine.execLaneAlignmentLoss port lane s
  | .spillReadReturn handle found => Sys2Proof.Machine.execSpillReadReturn handle found s
  | .granuleCopyComplete granule => Sys2Proof.Machine.execGranuleCopyComplete granule s
  | .takeReadReturn ep ext => Sys2Proof.Machine.execTakeReadReturn ep ext s
  | .keeperRomRestartComplete => Sys2Proof.Machine.execKeeperRomRestartComplete s

end Sys2Proof.Machine
end

