-- ==== Sys2Proof/WellFormed.lean ====
section
/-!
DEFINITION. Well-formed commands: every number that names a function, port, tile, core, stack or slot names one the
part has (01: R15 to R18; 02: R63). Meanings stay total on ill-formed commands, which change nothing.
-/
namespace Sys2Proof

/-- A rank that names a function (R63): 1, 2 and 4 to 1,031. -/
def fnOk (r : Nat) : Bool := decide (r = 1) || decide (r = 2) || (decide (4 ≤ r) && decide (r ≤ 1031))

/-- Every operand lies in the range the spec gives it. -/
def Instr.wf (i : Instr) : Bool :=
  match i with
  | .registerWrite fn _ _ _ _ => fnOk fn
  | .sharedControlWrite rank _ _ _ _ => decide (rank < 1032)
  | .ringDirCommit fn => fnOk fn
  | .ringDirUnlock fn => fnOk fn
  | .loadEntry fn _ => fnOk fn
  | .disableEntry fn _ => fnOk fn
  | .doorbell fn _ _ _ _ => fnOk fn
  | .evCommit fn _ => fnOk fn
  | .evUnlock fn => fnOk fn
  | .leasePeriodWrite fn _ => fnOk fn
  | .portEnable fn port => fnOk fn && decide (port < 8)
  | .portDisable fn port => fnOk fn && decide (port < 8)
  | .portRetrain fn port => fnOk fn && decide (port < 8)
  | .pwCommit fn _ => fnOk fn
  | .afGateCommit fn port => fnOk fn && decide (port < 8)
  | .vcCreditsWrite fn port _ => fnOk fn && decide (port < 8)
  | .ckSetCommit fn => fnOk fn
  | .ckSetUnlock fn => fnOk fn
  | .rdmaSetCommit fn => fnOk fn
  | .rdmaSetUnlock fn => fnOk fn
  | .schGateCommit fn iface => fnOk fn && decide (iface < 64)
  | .breakoutWrite fn net _ => fnOk fn && decide (net < 16)
  | .sqTailDoorbell fn _ _ _ => fnOk fn
  | .cqHeadDoorbell fn _ _ => fnOk fn
  | .ccEnSet fn _ => fnOk fn
  | .ccEnClear fn _ => fnOk fn
  | .nvmeShutdown fn _ => fnOk fn
  | .functionEnable fn => fnOk fn
  | .functionShutdown fn _ _ _ => fnOk fn
  | .orphanAdopt fn _ => fnOk fn
  | .orphanDiscard fn => fnOk fn
  | .vfQuotaWrite pf _ _ _ => fnOk pf
  | .msixUnmask fn vec => fnOk fn && decide (vec < 2048)
  | .intxPendingClear fn _ _ => fnOk fn
  | .regRead session _ => decide (session < 4)
  | .regWrite session _ => decide (session < 4)
  | .claim session _ => decide (session < 4)
  | .release session _ => decide (session < 4)
  | .installerKey session _ => decide (session < 4)
  | .operatorKey session _ => decide (session < 4)
  | .policy session _ => decide (session < 4)
  | .consent session _ => decide (session < 4)
  | .debugUnlock session _ => decide (session < 4)
  | .fwStage _ _ _ => true
  | .fwActivate _ => true
  | .fwConfirm _ => true
  | .attest _ => true
  | .auditRead _ => true
  | .cvArm fn unit _ => fnOk fn && decide (unit < 128)
  | .cvDisarm fn unit _ => fnOk fn && decide (unit < 128)
  | .commitTick _ _ => true
  | .directoryReadReturn fn _ => fnOk fn
  | .descriptorFetch fn ring _ => fnOk fn && decide (ring < 256)
  | .nop fn ring => fnOk fn && decide (ring < 256)
  | .interruptModerationExpiry fn ring => fnOk fn && decide (ring < 256)
  | .leaseHalf fn => fnOk fn
  | .leaseExpiry fn _ => fnOk fn
  | .rxLightChange port _ => decide (port < 8)
  | .detectHalfTimeout port => decide (port < 8)
  | .lossOfLight port => decide (port < 8)
  | .trainTimeout port => decide (port < 8)
  | .trainingFlitRx port _ _ => decide (port < 8)
  | .retrainTimeout port => decide (port < 8)
  | .downTimeout port => decide (port < 8)
  | .widenCheck port => decide (port < 8)
  | .retrainAtReached port => decide (port < 8)
  | .flitRx port _ => decide (port < 8)
  | .replayRun port => decide (port < 8)
  | .ackTimer port => decide (port < 8)
  | .fabricWrite port _ _ => decide (port < 8)
  | .fabricWriteAcked port _ _ _ => decide (port < 8)
  | .fabricRead port _ _ _ => decide (port < 8)
  | .fabricCpl port _ _ _ _ => decide (port < 8)
  | .egressDepart port => decide (port < 8)
  | .windowsActivate => true
  | .gateListTakeEffect _ _ => true
  | .gateEntryAdvance _ _ => true
  | .accelAlert port _ => decide (port < 8)
  | .rdOpen core => decide (core < 66)
  | .admissionGrant => true
  | .rdPull core => decide (core < 66)
  | .pullDataReturn _ _ _ => true
  | .rdClose core => decide (core < 66)
  | .rdAbort core => decide (core < 66)
  | .contrib port _ _ rank _ _ => decide (port < 8) && decide (rank < 1032)
  | .resultCopyDepart _ sumTile => decide (sumTile < 12)
  | .resultWriteAccepted _ sumTile => decide (sumTile < 12)
  | .alu core _ => decide (core < 66)
  | .addi core _ => decide (core < 66)
  | .andi core _ => decide (core < 66)
  | .ori core _ => decide (core < 66)
  | .xori core _ => decide (core < 66)
  | .shifti core _ => decide (core < 66)
  | .movi core _ => decide (core < 66)
  | .movk16 core _ => decide (core < 66)
  | .movk32 core _ => decide (core < 66)
  | .movk48 core _ => decide (core < 66)
  | .cmp core _ => decide (core < 66)
  | .cmpi core _ => decide (core < 66)
  | .plog core _ => decide (core < 66)
  | .pmov core _ => decide (core < 66)
  | .ld8 core _ => decide (core < 66)
  | .ld16 core _ => decide (core < 66)
  | .ld32 core _ => decide (core < 66)
  | .ld64 core _ => decide (core < 66)
  | .lds8 core _ => decide (core < 66)
  | .lds16 core _ => decide (core < 66)
  | .lds32 core _ => decide (core < 66)
  | .loadDataReturn core _ => decide (core < 66)
  | .st8 core _ => decide (core < 66)
  | .st16 core _ => decide (core < 66)
  | .st32 core _ => decide (core < 66)
  | .st64 core _ => decide (core < 66)
  | .cas core _ => decide (core < 66)
  | .fence core _ => decide (core < 66)
  | .br core _ => decide (core < 66)
  | .jr core _ => decide (core < 66)
  | .adr core _ => decide (core < 66)
  | .call core _ => decide (core < 66)
  | .ret core _ => decide (core < 66)
  | .eret core _ => decide (core < 66)
  | .trap core _ => decide (core < 66)
  | .step core _ => decide (core < 66)
  | .wait core _ => decide (core < 66)
  | .waitWake core => decide (core < 66)
  | .lock core _ => decide (core < 66)
  | .lockGrant _ => true
  | .unlock core _ => decide (core < 66)
  | .alive core _ => decide (core < 66)
  | .csrr core _ => decide (core < 66)
  | .csrw core _ => decide (core < 66)
  | .scqPop core _ => decide (core < 66)
  | .mboxPop core _ => decide (core < 66)
  | .stuckAccess core => decide (core < 66)
  | .aliveSample => true
  | .coreStop core => decide (core < 66)
  | .coreReloadComplete core _ => decide (core < 66)
  | .coreFailedAdoption core => decide (core < 66)
  | .keeperFailover => true
  | .keeperReloadComplete => true
  | .romKeeperRestart => true
  | .drainRequest core => decide (core < 66)
  | .drainCancel core => decide (core < 66)
  | .handoffRecord core => decide (core < 66)
  | .handoffTimeout core => decide (core < 66)
  | .swapAdopt core => decide (core < 66)
  | .componentReplace => true
  | .rtStep core => decide (core < 66)
  | .rtReap core => decide (core < 66)
  | .rtPut core => decide (core < 66)
  | .rtArrived core => decide (core < 66)
  | .rtMove core _ => decide (core < 66)
  | .rtNotify core => decide (core < 66)
  | .rtFinish core => decide (core < 66)
  | .rtYield core => decide (core < 66)
  | .progLoad fn ring _ => fnOk fn && decide (ring < 256)
  | .progUnload fn ring => fnOk fn && decide (ring < 256)
  | .commCreate fn ring => fnOk fn && decide (ring < 256)
  | .commConnect fn ring _ => fnOk fn && decide (ring < 256)
  | .commDestroy fn ring => fnOk fn && decide (ring < 256)
  | .collLaunch fn ring => fnOk fn && decide (ring < 256)
  | .launchStart core => decide (core < 66)
  | .collAbort fn ring => fnOk fn && decide (ring < 256)
  | .classSet fn ring => fnOk fn && decide (ring < 256)
  | .seqOpen fn ring => fnOk fn && decide (ring < 256)
  | .seqFork fn ring => fnOk fn && decide (ring < 256)
  | .seqClose fn ring => fnOk fn && decide (ring < 256)
  | .seqGrow fn ring => fnOk fn && decide (ring < 256)
  | .seqSeal fn ring => fnOk fn && decide (ring < 256)
  | .seqTruncate fn ring => fnOk fn && decide (ring < 256)
  | .seqPin fn ring => fnOk fn && decide (ring < 256)
  | .seqDemote fn ring => fnOk fn && decide (ring < 256)
  | .seqQuery fn ring => fnOk fn && decide (ring < 256)
  | .planPost fn ring _ => fnOk fn && decide (ring < 256)
  | .planCancel fn ring => fnOk fn && decide (ring < 256)
  | .blockCopyComplete _ _ => true
  | .blockReadReturn _ _ _ => true
  | .blockResident _ _ => true
  | .planDeadline _ => true
  | .planRelease _ => true
  | .kvSetCommit => true
  | .kvSetUnlock => true
  | .ckptJobSet fn ring _ => fnOk fn && decide (ring < 256)
  | .ckptTake fn ring _ _ => fnOk fn && decide (ring < 256)
  | .snapshotPoint ep => decide (ep < 2)
  | .granuleCow _ => true
  | .captureReadReturn ep _ => decide (ep < 2)
  | .takeFlushComplete ep _ => decide (ep < 2)
  | .rootWriteComplete ep _ => decide (ep < 2)
  | .ckptAbort fn ring => fnOk fn && decide (ring < 256)
  | .ckptSurvey fn ring _ => fnOk fn && decide (ring < 256)
  | .ckptRestore fn ring _ _ => fnOk fn && decide (ring < 256)
  | .pdAlloc fn ring => fnOk fn && decide (ring < 256)
  | .pdFree fn ring => fnOk fn && decide (ring < 256)
  | .mrReg fn ring => fnOk fn && decide (ring < 256)
  | .mrDereg fn ring => fnOk fn && decide (ring < 256)
  | .qpCreate fn ring => fnOk fn && decide (ring < 256)
  | .qpModify fn ring _ => fnOk fn && decide (ring < 256)
  | .qpQuery fn ring => fnOk fn && decide (ring < 256)
  | .qpDestroy fn ring => fnOk fn && decide (ring < 256)
  | .ahCreate fn ring _ => fnOk fn && decide (ring < 256)
  | .ahDestroy fn ring => fnOk fn && decide (ring < 256)
  | .send fn ring _ => fnOk fn && decide (ring < 256)
  | .sendImm fn ring _ => fnOk fn && decide (ring < 256)
  | .write fn ring _ => fnOk fn && decide (ring < 256)
  | .writeImm fn ring _ => fnOk fn && decide (ring < 256)
  | .read fn ring => fnOk fn && decide (ring < 256)
  | .atomicCas fn ring => fnOk fn && decide (ring < 256)
  | .atomicFadd fn ring => fnOk fn && decide (ring < 256)
  | .recv fn ring => fnOk fn && decide (ring < 256)
  | .rcRequestPacket net _ => decide (net < 16)
  | .responsePacket net => decide (net < 16)
  | .udPacket net => decide (net < 16)
  | .ackTimeout _ => true
  | .rnrTimerExpiry _ => true
  | .cnpRx net => decide (net < 16)
  | .gustTick => true
  | .contextFetchReturn _ _ => true
  | .contextWritebackAccepted _ => true
  | .rxFrame iface _ => decide (iface < 64)
  | .classifyPass net _ => decide (net < 16)
  | .graphLoad fn ring _ _ _ => fnOk fn && decide (ring < 256)
  | .graphUnload fn ring => fnOk fn && decide (ring < 256)
  | .setCreate fn ring _ => fnOk fn && decide (ring < 256)
  | .setDestroy fn ring => fnOk fn && decide (ring < 256)
  | .setConfig fn ring _ => fnOk fn && decide (ring < 256)
  | .bind fn ring => fnOk fn && decide (ring < 256)
  | .entryAdd fn ring _ => fnOk fn && decide (ring < 256)
  | .entryDel fn ring _ => fnOk fn && decide (ring < 256)
  | .rangeSet fn ring _ => fnOk fn && decide (ring < 256)
  | .setCommit fn ring => fnOk fn && decide (ring < 256)
  | .counterRead fn ring => fnOk fn && decide (ring < 256)
  | .legacyLoad fn ring _ => fnOk fn && decide (ring < 256)
  | .txqCreate fn ring => fnOk fn && decide (ring < 256)
  | .rxqCreate fn ring => fnOk fn && decide (ring < 256)
  | .qConfig fn ring => fnOk fn && decide (ring < 256)
  | .qDestroy fn ring => fnOk fn && decide (ring < 256)
  | .policerSet fn ring => fnOk fn && decide (ring < 256)
  | .policerRead fn ring => fnOk fn && decide (ring < 256)
  | .txPacket fn ring _ => fnOk fn && decide (ring < 256)
  | .rxBuffer fn ring => fnOk fn && decide (ring < 256)
  | .frameSelect iface => decide (iface < 64)
  | .frameTxDone iface => decide (iface < 64)
  | .timeWait fn ring => fnOk fn && decide (ring < 256)
  | .timeWaitDue => true
  | .interfaceLinkChange iface _ => decide (iface < 64)
  | .keyAlloc fn ring => fnOk fn && decide (ring < 256)
  | .keyLoad fn ring _ => fnOk fn && decide (ring < 256)
  | .keyFree fn ring => fnOk fn && decide (ring < 256)
  | .saSet fn ring _ => fnOk fn && decide (ring < 256)
  | .sealGcm fn ring _ _ => fnOk fn && decide (ring < 256)
  | .openGcm fn ring _ _ => fnOk fn && decide (ring < 256)
  | .xtsEnc fn ring _ => fnOk fn && decide (ring < 256)
  | .xtsDec fn ring _ => fnOk fn && decide (ring < 256)
  | .hash fn ring _ _ => fnOk fn && decide (ring < 256)
  | .ctxSave fn ring => fnOk fn && decide (ring < 256)
  | .ctxRestore fn ring _ => fnOk fn && decide (ring < 256)
  | .saQuery fn ring => fnOk fn && decide (ring < 256)
  | .sealTileFault tile8 => decide (tile8 < 8)
  | .sealRecoveryEnd tile8 => decide (tile8 < 8)
  | .mcLockClaim _ => true
  | .mcLockRelease claimant => decide (claimant < 6)
  | .mcLockForcedRelease => true
  | .identify fn _ => fnOk fn
  | .getLogPage fn _ => fnOk fn
  | .setFeatures fn => fnOk fn
  | .getFeatures fn => fnOk fn
  | .createIoSq fn => fnOk fn
  | .createIoCq fn => fnOk fn
  | .deleteIoSq fn => fnOk fn
  | .deleteIoCq fn => fnOk fn
  | .nvmeAbort fn => fnOk fn
  | .asyncEventRequest fn => fnOk fn
  | .nvmeRead fn _ _ => fnOk fn
  | .nvmeWrite fn _ _ => fnOk fn
  | .nvmeFlush fn _ => fnOk fn
  | .writeZeroes fn _ => fnOk fn
  | .datasetManagement fn _ _ => fnOk fn
  | .backendCommandComplete _ _ _ => true
  | .writeBackComplete _ _ _ => true
  | .keepAlive _ _ => true
  | .backendCreate fn ring _ => fnOk fn && decide (ring < 256)
  | .backendConnectStep _ _ => true
  | .backendDestroy fn ring => fnOk fn && decide (ring < 256)
  | .backendRebind fn ring _ => fnOk fn && decide (ring < 256)
  | .backendQuery fn ring => fnOk fn && decide (ring < 256)
  | .nsCreate fn ring => fnOk fn && decide (ring < 256)
  | .nsDelete fn ring => fnOk fn && decide (ring < 256)
  | .nsAttach fn ring => fnOk fn && decide (ring < 256)
  | .nsDetach fn ring => fnOk fn && decide (ring < 256)
  | .stoSetCommit => true
  | .stoSetUnlock => true
  | .flr fn _ => fnOk fn
  | .hotReset ep _ => decide (ep < 2)
  | .busMasterClear fn _ => fnOk fn
  | .d3hotEntry fn _ => fnOk fn
  | .vfEnableSet pf _ => fnOk pf
  | .vfEnableClear pf _ => fnOk pf
  | .functionDrained fn => fnOk fn
  | .drainBoundExpiry fn => fnOk fn
  | .orphanHoldExpiry fn => fnOk fn
  | .hostReadTimeout fn _ => fnOk fn
  | .poisonedTlp fn _ _ => fnOk fn
  | .unexpectedCompletion fn => fnOk fn
  | .aspmL1Entry ep => decide (ep < 2)
  | .vfFreeze fn ring => fnOk fn && decide (ring < 256)
  | .vfSave fn ring => fnOk fn && decide (ring < 256)
  | .vfRestore fn ring _ _ => fnOk fn && decide (ring < 256)
  | .vfThaw fn ring => fnOk fn && decide (ring < 256)
  | .dirtyLog fn ring => fnOk fn && decide (ring < 256)
  | .groupRetire fn ring => fnOk fn && decide (ring < 256)
  | .frameCopyComplete stack _ => decide (stack < 8)
  | .lostListRead fn ring => fnOk fn && decide (ring < 256)
  | .scrub stack _ _ => decide (stack < 8)
  | .channelTrainingLoss stack chan => decide (stack < 8) && decide (chan < 128)
  | .channelRetrainComplete stack chan _ => decide (stack < 8) && decide (chan < 128)
  | .memCapWindow stack => decide (stack < 8)
  | .powerGood => true
  | .powerLoss => true
  | .inputUndervoltage _ => true
  | .inputOvervoltage _ => true
  | .inputReturn _ => true
  | .busOvercurrent _ => true
  | .railFault rail _ => decide (rail < 29)
  | .sensorFault _ _ => true
  | .busRecovery _ => true
  | .regulatorAck rail => decide (rail < 29)
  | .regulatorAckTimeout rail => decide (rail < 29)
  | .railsSettled => true
  | .voltageRetry => true
  | .envelopeExceeded _ => true
  | .envelopeRaise _ => true
  | .thermalNearLimit domain _ => decide (domain < 108)
  | .thermalRaise => true
  | .thermalLimit domain _ => decide (domain < 108)
  | .thermalTrip domain => decide (domain < 108)
  | .thermalCooled domain => decide (domain < 108)
  | .unitShutter fn ring => fnOk fn && decide (ring < 256)
  | .shutterDrainComplete domain => decide (domain < 108)
  | .ctlHandoffTimeout domain => decide (domain < 108)
  | .unitReopen fn ring _ => fnOk fn && decide (ring < 256)
  | .selfTestComplete domain _ => decide (domain < 108)
  | .domainTransitionComplete domain => decide (domain < 108)
  | .cdcOverrun _ fn ring _ => fnOk fn && decide (ring < 256)
  | .stageReached _ _ => true
  | .mgmtConnect => true
  | .mgmtOpen session _ _ => decide (session < 4)
  | .mgmtIdleTimeout session => decide (session < 4)
  | .mgmtClose session => decide (session < 4)
  | .flashFault _ => true
  | .cvWindowEnd unit => decide (unit < 128)
  | .cvWindowAbort unit => decide (unit < 128)
  | .amSample _ _ => true
  | .wfSample _ _ => true
  | .feedBuffer fn ring => fnOk fn && decide (ring < 256)
  | .feedFlush fn ring => fnOk fn && decide (ring < 256)
  | .feedFlushTimeout pf => fnOk pf
  | .laserUnitRemove laser => decide (laser < 8)
  | .laserUnitInsert laser => decide (laser < 8)
  | .ppsPulse => true
  | .laneAlignmentLoss port _ => decide (port < 8)
  | .spillReadReturn _ _ => true
  | .granuleCopyComplete _ => true
  | .takeReadReturn ep _ => decide (ep < 2)
  | .keeperRomRestartComplete => true

end Sys2Proof
end

