-- ==== Sys2Proof/Safety.lean ====
section
/-!
DEFINITION. The terms that the statements use: when a descriptor starts, what a command that answers at once does to its
descriptor, and the invariant that every step keeps.
-/
namespace Sys2Proof.Machine

/-- Descriptor `e` of ring pair `i` of function `r` may start now, and is of that ring kind and opcode (R43 to R46). -/
abbrev Starts (s : State) (r i kind op : Nat) (e : Fetched) : Prop :=
  startable s r i = some e ∧ (s.ring r i).ent.kind = kind ∧ fld e.desc.toNat 0 8 = op

/-- Descriptor `e` is the first of that opcode that the ring pair, of that kind, has fetched and not started, and no fence holds
it back; a command that ends when it is fetched starts on it (R43, R228, R285). -/
abbrev Picks (s : State) (r i kind op : Nat) (e : Fetched) : Prop :=
  (s.ring r i).ent.kind = kind
  ∧ (((s.ring r i).st == .enabled || (s.ring r i).st == .draining) && (s.fn r).st == .active && cqRoom (s.ring r i)) = true
  ∧ (s.ring r i).fetched.find? (fun e => !e.started && e.res.isNone && e.gen == (s.fn r).gen && fld e.desc.toNat 0 8 == op) = some e
  ∧ (bitAt e.desc.toNat 8 && (s.ring r i).fetched.any (fun e' => e'.seq < e.seq && e'.gen == (s.fn r).gen)) = false

/-- The name of a fetched descriptor. -/
def refOf (r i : Nat) (e : Fetched) : DRef := { fn := r, ring := i, seq := e.seq }

/-- The state in which a descriptor counts as started. -/
def begun (s : State) (r i : Nat) (e : Fetched) : State :=
  s.modRing r i (fun q => { q with fetched := q.fetched.map (fun e' => if e'.seq = e.seq then { e' with started := true } else e') })

/-- A command's answer: its completion is made where it ends at once (R46). -/
def answered (p : CmdRes) (ref : DRef) : State :=
  match p with
  | (t, none) => t
  | (t, some (status, result, spec)) => finish t ref status result spec

/-- The oldest step that waits at the front end of a core's die is the core's own, with the bytes `w` (R144). -/
abbrev Posts (s : State) (core : Nat) (w : BitVec 512) : Prop := frontStep s core = some (core, w)

/-- A core executes the instruction of opcode `op` at its pc: it runs, the fetch is allowed, and the guard of its word `lo`
holds (R177, R178). -/
abbrev Executes (s : State) (core op lo : Nat) : Prop :=
  canRun s core = true ∧ fetchOk core (s.core core) (s.core core).pc = true ∧ getP (s.core core) (fld lo 23 3) ≠ bitAt lo 22 ∧ fld lo 26 6 = op

/-- The core goes on to the next word after n core cycles. -/
def passed (s : State) (core n : Nat) : State := s.modCore core (fun c => addCyc { c with pc := (c.pc + 4) % 2 ^ 64 } n)
/-- The core goes on at another pc after n core cycles. -/
def jumped (s : State) (core pc n : Nat) : State := s.modCore core (fun c => addCyc { c with pc := pc % 2 ^ 64 } n)
/-- A core's register gets a value (R168). -/
def wrote (s : State) (core rd : Nat) (v : BitVec 64) : State := s.modCore core (fun c => setR c rd v)

/-- The running launch `l` of a core makes a call of runtime service n that its journal does not answer (R220, R222). -/
abbrev Calls (s : State) (core n : Nat) (l : Launch) (m : Comm) : Prop :=
  runningLaunch (s.core core) = some l ∧ oget s.fw.comms l.comm = some m ∧ (core < 64 ∧ canRun s core = true)
  ∧ (ownCalls l = false ∧ (s.core core).pc = rtAddr n) ∧ l.journal[l.replayed]? = none

/-- The call is journaled and returns its results (R220, R222). -/
def returned (s : State) (core n : Nat) (l : Launch) (args results : List Nat) : State :=
  rtBack core l results (modRunning s core (fun l => { l with journal := l.journal ++ [{ service := n, args := args, results := results }], replayed := l.replayed + 1 }))

/-- The head command of submission queue q of a controller is taken up: the controller is ready and its function runs, an
I/O command has a tile, and the command is `m`; `u` is the state in which it counts as begun, `m1` (R440, R442). -/
abbrev NvmStarts (s : State) (r q op c : Nat) (m m1 : NvmCmd) (u : State) : Prop :=
  ctrlOf r = some c ∧ ((s.ctl c).rdy = true ∧ (s.fn r).st = .active) ∧ (q = 0 ∨ (s.ctl c).tile.isSome = true)
  ∧ ((s.ctl c).cmds.find? (fun x => x.sq == q && !x.begun) = some m ∧ fld m.sqe 0 8 = op)
  ∧ (m1 = { m with begun := true } ∧ u = modCmd s c m.no (fun _ => m1))

/-- Function `r` is in DRAINING after a shut-down of a cause: what the action itself changes before objects are orphaned or
released (R476, R477). -/
def stopping (s : State) (r cause : Nat) : State :=
  s.modFn r (fun f => { f with
    st := .draining, cause := cause, drainStart := s.vcycle, drainVfOff := cause == 8, dirBusy := false, dirAct := none,
    dirStatus := if f.dirBusy then 0x0B else f.dirStatus, freeze := none, leaseArmed := false, dirty := none })

/-- What every step keeps: stack memory in its canonical form, the rate adjustment of PTP time within its range (R403), and
stack bandwidth caps that are legal (R509). -/
def StateInv (s : State) : Prop :=
  memWf s.stack = true ∧ -(10 ^ 8) ≤ s.clock.freq ∧ s.clock.freq ≤ 10 ^ 8 ∧ capOk s.memCap = true ∧ s.memCap < 2 ^ 42

end Sys2Proof.Machine
end

