-- ==== Sys2Proof/Certificates/Slice0/Obligations.lean ====
section
/-!
DEFINITION. The statements of this row, clause by clause; each docstring names the rules it rests on. A clause whose
conclusion is an equation for the next state is at once the command's completion, its result and its frame: what the
right-hand side does not change stays as it was.
-/
set_option Elab.async false
open Sys2Proof Sys2Proof.Machine

/-- A step takes the command at the front of the queue and runs it; with none waiting one clock period passes (the model's choice, log 1 and log 2). The queue and the idle step are the model's own (log 1, log 2) (spec/02_ring_contract.md (R64, R468)). -/
def Obligations.StepTakesTheFrontCommand : Prop :=
  (∀ (c : Instr) (rest : List Instr) (s : State),
    step { s with pending := c :: rest } = exec c { s with pending := rest })
  ∧ (∀ (s : State),
    s.pending = [] →
    step s = .next { s with vcycle := s.vcycle + 1 })

/-- The state after reset has stack memory in canonical form, a legal time rate and legal bandwidth caps (spec/11_scheduling_and_gates.md (R403), spec/15_memory_stacks.md (R509)). -/
def Obligations.ResetMeetsTheInvariant : Prop :=
  StateInv State.reset

/-- Every step, of every command in every state, keeps stack memory canonical, the time rate within its range and the bandwidth caps legal (spec/11_scheduling_and_gates.md (R403), spec/15_memory_stacks.md (R497, R507, R509)). -/
def Obligations.StepKeepsTheInvariant : Prop :=
  ∀ (s t : State),
    StateInv s →
    step s = .next t →
    StateInv t

/-- After reset no function or domain is on, every queue and table is empty and the registers hold the values that the spec's tables give (spec/02_ring_contract.md (R43, R64), spec/03_accelerator_fabric.md (R74), spec/09_remote_memory.md (R314), spec/11_scheduling_and_gates.md (R403), spec/15_memory_stacks.md (R509), spec/16_power_clocks_and_start.md (R519, R538), spec/17_trust_roles_and_updates.md (R551)). -/
def Obligations.ResetValuesAreTheSpecs : Prop :=
  ∀ (r i p d : Nat),
    State.reset.pending = [] ∧ State.reset.transom.held = [] ∧ State.reset.transom.behind = [] ∧ State.reset.transom.conflicts = 0
    ∧ ((State.reset.fn r).st = .off ∧ (State.reset.fn r).gen = 0 ∧ (State.reset.ring r i).st = .disabled)
    ∧ ((State.reset.port p).st = .shut ∧ State.reset.memCap = 0x3264C993264 ∧ State.reset.memCeLimit = 1000)
    ∧ ((State.reset.dom d).power = 0 ∧ State.reset.trust.installer = none ∧ State.reset.trust.operator = none)
    ∧ (ptp State.reset = 0 ∧ State.reset.clock.timeSet = false)

/-- A completion touches the functions, host links and outputs alone and its own function only; one of a former incarnation is not written (spec/02_ring_contract.md (R46, R51, R52, R54)). -/
def Obligations.CompletionsTouchTheirFunctionAlone : Prop :=
  (∀ (s : State) (ref : DRef) (st res spec : Nat),
    finish s ref st res spec = { s with fns := (finish s ref st res spec).fns, links := (finish s ref st res spec).links, out := (finish s ref st res spec).out })
  ∧ (∀ (s : State) (ref : DRef) (st res spec r : Nat),
    r ≠ ref.fn →
    (finishOne s ref st res spec).fn r = s.fn r)
  ∧ (∀ (s : State) (r i : Nat) (c : Cpl),
    c.gen ≠ (s.fn r).gen →
    (deliver s r i c).out = s.out ∧ ((s.ring r i).st ≠ .orphaned → deliver s r i c = s)
    ∧ ((s.ring r i).st = .orphaned → (c.quiet = false ∨ c.status ≠ 0) → deliver s r i c = s.modRing r i (fun q => { q with dropped := q.dropped + 1 })))

/-- While the transom holds a function's shared write, every later register write and doorbell of that function waits in order of arrival and changes nothing else (spec/02_ring_contract.md (R604), spec/14_host_endpoints.md (R468)). -/
def Obligations.CommandsWaitBehindASharedWrite : Prop :=
  (∀ (fn a b d w : Nat) (x y z : Bool) (hr : HRead) (hs : List HRead) (space : RegSpace) (v32 : BitVec 32) (v64 : BitVec 64) (c : Instr) (s : State),
    (c ∈ [.registerWrite fn space a w v64, .ringDirCommit fn, .ringDirUnlock fn, .loadEntry fn a, .disableEntry fn a, .evCommit fn v32, .evUnlock fn, .leasePeriodWrite fn v32, .portEnable fn a, .portDisable fn a, .portRetrain fn a, .pwCommit fn v32, .afGateCommit fn a, .vcCreditsWrite fn a v32, .ckSetCommit fn, .ckSetUnlock fn, .rdmaSetCommit fn, .rdmaSetUnlock fn, .schGateCommit fn a, .breakoutWrite fn a b]
    ∨ c ∈ [.sqTailDoorbell fn a b hr, .cqHeadDoorbell fn a b, .ccEnSet fn a, .ccEnClear fn x, .nvmeShutdown fn a, .functionEnable fn, .functionShutdown fn x y z, .orphanAdopt fn hs, .orphanDiscard fn, .vfQuotaWrite fn a x v64, .msixUnmask fn a, .intxPendingClear fn a v64, .cvArm fn a v32, .cvDisarm fn a v32]
    ∨ c = .doorbell fn a b d v64) →
    (heldBack s fn 0 = true ∧ ∀ k, space ≠ .csr k) →
    exec c s = .next (waitBehind fn c s))
  ∧ (∀ (n : Nat) (msg : List Byte) (c : Instr) (s : State),
    c ∈ [.regRead n msg, .claim n msg, .release n msg, .installerKey n msg, .operatorKey n msg, .policy n msg, .consent n msg, .debugUnlock n msg] →
    waitsS s n = true →
    exec c s = .next { s with transom := { s.transom with behind := s.transom.behind ++ [c] } })

/-- Two writes to one shared control within a tick: one master's later, else the higher rank, else the later stands; the loser is logged (spec/02_ring_contract.md (R64, R65)). -/
def Obligations.ContradictingSharedWritesAreSettledByRank : Prop :=
  (∀ (a b : Held),
    (sameCtl a b = true ∧ sameMast a b = true ∧ sameCtl b a = true ∧ sameMast b a = true) →
    fateOf (numbered [a, b]) (0, a) = .overwritten ∧ fateOf (numbered [a, b]) (1, b) = .applied)
  ∧ (∀ (a b : Held),
    (sameCtl a b = true ∧ sameCtl b a = true ∧ sameMast a b = false ∧ sameMast b a = false) →
    a.value ≠ b.value →
    (a.rank < b.rank → fateOf (numbered [a, b]) (0, a) = .applied ∧ fateOf (numbered [a, b]) (1, b) = .lost a.rank)
    ∧ (b.rank ≤ a.rank → fateOf (numbered [a, b]) (0, a) = .lost b.rank ∧ fateOf (numbered [a, b]) (1, b) = .applied))
  ∧ (∀ (a b : Held),
    (sameCtl a b = true ∧ sameCtl b a = true ∧ sameMast a b = false ∧ sameMast b a = false) →
    a.value = b.value →
    (a.rank < b.rank → fateOf (numbered [a, b]) (0, a) = .applied ∧ fateOf (numbered [a, b]) (1, b) = .same)
    ∧ (b.rank ≤ a.rank → fateOf (numbered [a, b]) (0, a) = .same ∧ fateOf (numbered [a, b]) (1, b) = .applied))
  ∧ (∀ (hs : List (Nat × Held)) (x : Nat × Held) (w : Nat) (s : State),
    fateOf hs x = .lost w →
    settleOne hs s x = (if x.2.rank = 0 then regResult (logConflict s x.2.cap (x.2.off / 4) w x.2.rank false) x.2.session 0 0x0D else logConflict s x.2.cap (x.2.off / 4) w x.2.rank false))

/-- A ring directory action that passes its checks acts, reports 0x00 and changes nothing else (spec/02_ring_contract.md (R42, R43)). -/
def Obligations.RingDirectoryActionsComplete : Prop :=
  (∀ (fn : Nat) (s : State),
    heldBack s fn 0 = false →
    present s fn = true →
    hasRings fn = true →
    (s.fn fn).dirBusy = false →
    (s.fn fn).st ≠ .draining →
    (s.fn fn).dirCommitted = false →
    0 < (s.fn fn).dirCount →
    (s.fn fn).dirCount ≤ maxRings s fn →
    orphanCover s fn ≤ (s.fn fn).dirCount →
    exec (.ringDirCommit fn) s = .next (emit (s.modFn fn (fun f => { f with dirBusy := true, dirAct := some { count := f.dirCount } }))
    (.hostRead fn (((s.modFn fn (fun f => { f with dirBusy := true, dirAct := some { count := f.dirCount } })).fn fn).dirBase * 4096) 64)))
  ∧ (∀ (fn : Nat) (s : State),
    heldBack s fn 0 = false →
    present s fn = true →
    hasRings fn = true →
    (s.fn fn).dirBusy = false →
    (s.fn fn).st ≠ .draining →
    (s.fn fn).dirCommitted = true →
    (s.fn fn).rings.any (fun q => q.1 != 0 && q.2.st != .disabled) = false →
    exec (.ringDirUnlock fn) s = .next (endDir (s.modFn fn (fun f => { f with dirCommitted := false })) fn 0x00 (s.fn fn).dirBad))
  ∧ (∀ (fn index : Nat) (s : State),
    heldBack s fn 0 = false →
    present s fn = true →
    hasRings fn = true →
    (s.fn fn).dirBusy = false →
    (s.fn fn).st ≠ .draining →
    (s.fn fn).dirCommitted = true →
    0 < index →
    index < (s.fn fn).dirCount →
    (s.ring fn index).st = .disabled →
    exec (.loadEntry fn index) s = .next (readEntry (s.modFn fn (fun f => { f with dirBusy := true, dirAct := some { load := true, index := index } })) fn index))
  ∧ (∀ (fn index : Nat) (s : State),
    heldBack s fn 0 = false →
    present s fn = true →
    hasRings fn = true →
    (s.fn fn).dirBusy = false →
    (s.fn fn).st ≠ .draining →
    (s.fn fn).dirCommitted = true →
    0 < index →
    index < (s.fn fn).dirCount →
    ((s.ring fn index).st = .enabled → exec (.disableEntry fn index) s = .next (settleRing (endDir (s.modRing fn index (fun q =>
    { q with st := .draining })) fn 0x00 (s.fn fn).dirBad) fn index))
    ∧ ((s.ring fn index).st = .held → exec (.disableEntry fn index) s = .next (endDir (s.modRing fn index (fun q =>
    { q with deferDisable := true })) fn 0x00 (s.fn fn).dirBad))
    ∧ ((s.ring fn index).st = .disabled → exec (.disableEntry fn index) s = .next (endDir s fn 0x00 (s.fn fn).dirBad)))
  ∧ (∀ (fn : Nat) (s : State),
    heldBack s fn 0 = false →
    present s fn = true →
    hasRings fn = true →
    (s.fn fn).dirBusy = false →
    (s.fn fn).st = .draining →
    exec (.ringDirCommit fn) s = .next (endDir s fn 0x0B (s.fn fn).dirBad))
  ∧ (∀ (fn : Nat) (bs : List Byte) (a : DirAct) (s t : State),
    (s.fn fn).dirAct = some a →
    a.load = false →
    a.bad = none →
    a.index + 1 = a.count →
    entryOk s fn a.index bs = true →
    loadAll s fn 0 (a.read ++ [parseEntry bs]) = some t →
    exec (.directoryReadReturn fn (.ok bs)) s = .next (endDir (t.modFn fn (fun f => { f with dirCommitted := true })) fn 0x00 (s.fn fn).dirBad))
  ∧ (∀ (fn : Nat) (bs : List Byte) (a : DirAct) (s t : State),
    (s.fn fn).dirAct = some a →
    a.load = true →
    entryOk s fn a.index bs = true →
    loadRing s fn a.index (parseEntry bs) = some t →
    exec (.directoryReadReturn fn (.ok bs)) s = .next (endDir t fn 0x00 (s.fn fn).dirBad))
  ∧ (∀ (fn : Nat) (bs : List Byte) (a : DirAct) (s : State),
    (s.fn fn).dirAct = some a →
    a.load = true →
    entryOk s fn a.index bs = false →
    exec (.directoryReadReturn fn (.ok bs)) s = .next (endDir s fn 0x06 a.index))

/-- A doorbell is taken, kept while HELD, released to the queue it names, or discarded and counted (spec/02_ring_contract.md (R43, R45, R47, R49, R50, R51, R61)). -/
def Obligations.DoorbellsAreTakenOrDiscarded : Prop :=
  (∀ (fn page : Nat) (word : BitVec 64) (s : State),
    heldBack s fn 0 = false →
    present s fn = true →
    page < doorbellPages fn →
    page ≠ 0 →
    dmaOn (s.fn fn) = true →
    (s.fn fn).gen ≠ 0 →
    fld word.toNat 24 16 = (s.fn fn).gen →
    fld word.toNat 48 16 = 0 →
    fld word.toNat 40 8 = (s.ring fn page).ent.kind →
    ((s.ring fn page).ent.kind ≠ 0x03 ∧ (s.ring fn page).ent.kind < 0xFE) →
    dist24 (fld word.toNat 0 24) (s.ring fn page).cons ≤ 2 ^ (s.ring fn page).ent.sqOrder →
    (s.ring fn page).st = .enabled →
    exec (.doorbell fn page 0 8 word) s = .next (mboxPush (s.modRing fn page (fun q => { q with prod := fld word.toNat 0 24 })) (s.ring fn page).owner
    { index := fld word.toNat 0 24, kind := (s.ring fn page).ent.kind, ring := page, fn := fn }))
  ∧ (∀ (fn page : Nat) (word : BitVec 64) (s : State),
    heldBack s fn 0 = false →
    present s fn = true →
    page < doorbellPages fn →
    page ≠ 0 →
    dmaOn (s.fn fn) = true →
    (s.fn fn).gen ≠ 0 →
    fld word.toNat 24 16 = (s.fn fn).gen →
    fld word.toNat 48 16 = 0 →
    fld word.toNat 40 8 = (s.ring fn page).ent.kind →
    ((s.ring fn page).ent.kind ≠ 0x03 ∧ (s.ring fn page).ent.kind < 0xFE) →
    dist24 (fld word.toNat 0 24) (s.ring fn page).cons ≤ 2 ^ (s.ring fn page).ent.sqOrder →
    (s.ring fn page).st = .held →
    exec (.doorbell fn page 0 8 word) s = .next (mboxPush (s.modRing fn page (fun q => { q with heldDb := some (fld word.toNat 0 24) }))
    (s.ring fn page).owner { index := fld word.toNat 0 24, kind := (s.ring fn page).ent.kind, ring := page, fn := fn }))
  ∧ (∀ (fn page : Nat) (word : BitVec 64) (s : State),
    heldBack s fn 0 = false →
    present s fn = true →
    page < doorbellPages fn →
    page ≠ 0 →
    dmaOn (s.fn fn) = true →
    (s.fn fn).gen ≠ 0 →
    fld word.toNat 24 16 = (s.fn fn).gen →
    fld word.toNat 48 16 = 0 →
    fld word.toNat 40 8 = 0xFE →
    ((s.ring fn page).st = .enabled ∨ (s.ring fn page).st = .held ∨ (s.ring fn page).st = .draining ∨ (s.ring fn page).st = .error) →
    dist24 (fld word.toNat 0 24) (s.ring fn page).cqR ≤ dist24 (s.ring fn page).cqW (s.ring fn page).cqR →
    exec (.doorbell fn page 0 8 word) s = .next (checkFreeze (settleRing (drainWaiting (s.ring fn page).waiting.length
    (mboxPush (s.modRing fn page (fun q => { q with cqR := fld word.toNat 0 24 })) (s.ring fn page).owner
    { index := fld word.toNat 0 24, kind := 0xFE, ring := page, fn := fn }) fn page) fn page) fn))
  ∧ (∀ (fn : Nat) (word : BitVec 64) (s : State),
    heldBack s fn 0 = false →
    present s fn = true →
    0 < doorbellPages fn →
    dmaOn (s.fn fn) = true →
    (s.fn fn).gen ≠ 0 →
    fld word.toNat 24 16 = (s.fn fn).gen →
    fld word.toNat 48 16 = 0 →
    fld word.toNat 40 8 = 0xFF →
    fld word.toNat 0 24 = 0 →
    exec (.doorbell fn 0 0 8 word) s = .next (renewLease s fn))
  ∧ (∀ (fn : Nat) (word : BitVec 64) (s : State),
    heldBack s fn 0 = false →
    present s fn = true →
    0 < doorbellPages fn →
    dmaOn (s.fn fn) = true →
    (s.fn fn).gen ≠ 0 →
    fld word.toNat 24 16 = (s.fn fn).gen →
    fld word.toNat 48 16 = 0 →
    fld word.toNat 40 8 = 0xFE →
    evOn s fn = true →
    evReleaseOk (s.fn fn) (fld word.toNat 0 24) = true →
    exec (.doorbell fn 0 0 8 word) s = .next (flushLost (mboxPush (s.modFn fn (fun f => { f with evR := fld word.toNat 0 24 }))
    (s.ring fn 0).owner { index := fld word.toNat 0 24, kind := 0xFE, ring := 0, fn := fn }) fn))
  ∧ (∀ (fn page : Nat) (word : BitVec 64) (s : State),
    heldBack s fn 0 = false →
    present s fn = true →
    page < doorbellPages fn →
    fld word.toNat 24 16 ≠ (s.fn fn).gen →
    exec (.doorbell fn page 0 8 word) s = .next (postEventS (s.modFn fn (fun f => { f with dbDiscards := satAdd 32 f.dbDiscards 1 })) fn 0x0102 0 0 (fld word.toNat 0 48) page))
  ∧ (∀ (fn ring : Nat) (bs : List Byte) (s u : State),
    fetches s fn ring = true →
    u = emit s (.hostRead fn (sqSlotAddr (s.ring fn ring)) 64) →
    descStatus u fn (u.ring fn ring).ent.kind (BitVec.ofNat 512 (leNat (bs.take 64))).toNat = 0 →
    exec (.descriptorFetch fn ring (.ok bs)) s = .next ((dma u fn (u.ring fn ring).ent.headWb 8 (.headWb fn (u.ring fn ring).ent.headWb (mod24 ((u.ring fn ring).cons + 1)))).modRing fn ring
    (fun q => { q with cons := mod24 ((u.ring fn ring).cons + 1), fetchNo := q.fetchNo + 1, fetched := q.fetched ++ [{ seq := q.fetchNo, desc := BitVec.ofNat 512 (leNat (bs.take 64)), gen := (u.fn fn).gen }] })))
  ∧ (∀ (fn ring : Nat) (bs : List Byte) (s u : State),
    fetches s fn ring = true →
    u = emit s (.hostRead fn (sqSlotAddr (s.ring fn ring)) 64) →
    fld (BitVec.ofNat 512 (leNat (bs.take 64))).toNat 16 16 ≠ (u.fn fn).gen →
    (u.ring fn ring).ent.kind ≠ 0x22 →
    exec (.descriptorFetch fn ring (.ok bs)) s = .next (finish ((dma u fn (u.ring fn ring).ent.headWb 8 (.headWb fn (u.ring fn ring).ent.headWb (mod24 ((u.ring fn ring).cons + 1)))).modRing fn ring
    (fun q => { q with cons := mod24 ((u.ring fn ring).cons + 1), fetchNo := q.fetchNo + 1, fetched := q.fetched ++ [{ seq := q.fetchNo, desc := BitVec.ofNat 512 (leNat (bs.take 64)), gen := (u.fn fn).gen }] }))
    { fn := fn, ring := ring, seq := (u.ring fn ring).fetchNo } 0x0A 0 0))
  ∧ (∀ (fn ring : Nat) (s : State),
    fetches s fn ring = true →
    exec (.descriptorFetch fn ring .timeout) s = .next (checkFreeze (ringError (logTimeout (emit s (.hostRead fn (sqSlotAddr (s.ring fn ring)) 64)) fn) fn ring) fn))
  ∧ (∀ (fn ring : Nat) (e : Fetched) (s : State),
    Starts s fn ring (s.ring fn ring).ent.kind 0x00 e →
    exec (.nop fn ring) s = .next (finish (begun s fn ring e) (refOf fn ring e) 0 0 0))
  ∧ (∀ (fn ring : Nat) (s : State),
    (s.ring fn ring).deferredIrq = true →
    exec (.interruptModerationExpiry fn ring) s = .next (raiseVec ((advanceTo s (s.ring fn ring).modUntil).modRing fn ring
    (fun q => { q with deferredIrq := false, modUntil := (advanceTo s (s.ring fn ring).modUntil).vcycle + (s.ring fn ring).ent.moderationUs * usCycles })) fn (s.ring fn ring).ent.cqVector))

/-- The event ring set commits and unlocks; the lease takes a period in range and reports its half (spec/02_ring_contract.md (R57, R59, R60, R61, R62)). -/
def Obligations.EventRingAndLease : Prop :=
  (∀ (fn : Nat) (value : BitVec 32) (o : Nat) (s : State),
    heldBack s fn 0 = false →
    present s fn = true →
    hasRings fn = true →
    bitAt value.toNat 0 = true →
    bitAt value.toNat 1 = false →
    (s.fn fn).evCommitted = false →
    (6 ≤ (s.fn fn).evOrder ∧ (s.fn fn).evOrder ≤ 16) →
    (s.fn fn).evVector < vectorsOf fn →
    (s.fn fn).evEnable = true →
    pickOwner s fn 0x03 = some o →
    let s1 := evEnd (s.modFn fn (fun f => { f with evCommitted := true })) fn 0x00
    exec (.evCommit fn value) s = .next (flushLost ((s1.modFn fn (fun f => { f with evW := 0, evR := 0 })).modRing fn 0 (fun _ =>
    { st := .enabled, owner := o, ent := { kind := 0x03 } })) fn))
  ∧ (∀ (fn : Nat) (value : BitVec 32) (s : State),
    heldBack s fn 0 = false →
    (present s fn = true ∧ hasRings fn = true) →
    (bitAt value.toNat 0 = true ∧ bitAt value.toNat 1 = false) →
    (s.fn fn).evCommitted = false →
    (6 ≤ (s.fn fn).evOrder ∧ (s.fn fn).evOrder ≤ 16 ∧ (s.fn fn).evVector < vectorsOf fn) →
    (s.fn fn).evEnable = true →
    pickOwner s fn 0x03 = none →
    exec (.evCommit fn value) s = .next (evEnd s fn 0x07))
  ∧ (∀ (fn : Nat) (value : BitVec 32) (s : State),
    heldBack s fn 0 = false →
    present s fn = true →
    hasRings fn = true →
    bitAt value.toNat 0 = true →
    bitAt value.toNat 1 = false →
    (s.fn fn).evCommitted = false →
    (6 ≤ (s.fn fn).evOrder ∧ (s.fn fn).evOrder ≤ 16) →
    (s.fn fn).evVector < vectorsOf fn →
    (s.fn fn).evEnable = false →
    exec (.evCommit fn value) s = .next (evEnd (s.modFn fn (fun f => { f with evCommitted := true })) fn 0x00))
  ∧ (∀ (fn : Nat) (value : BitVec 32) (s : State),
    heldBack s fn 0 = false →
    present s fn = true →
    hasRings fn = true →
    bitAt value.toNat 0 = true →
    bitAt value.toNat 1 = true →
    exec (.evCommit fn value) s = .next (evEnd s fn 0x06))
  ∧ (∀ (fn : Nat) (s : State),
    heldBack s fn 0 = false →
    present s fn = true →
    hasRings fn = true →
    (s.fn fn).evCommitted = true →
    exec (.evUnlock fn) s = .next (evEnd ((s.modFn fn (fun f => { f with evCommitted := false })).modRing fn 0 (fun _ => {})) fn 0x00))
  ∧ (∀ (fn : Nat) (value : BitVec 32) (s : State),
    heldBack s fn 0 = false →
    present s fn = true →
    hasRings fn = true →
    bitAt value.toNat 17 = false →
    (100 ≤ fld value.toNat 0 15 ∧ fld value.toNat 0 15 ≤ 30000 →
    exec (.leasePeriodWrite fn value) s = .next (s.modFn fn (fun f => { f with leasePeriod := fld value.toNat 0 15 })))
    ∧ (fld value.toNat 0 15 < 100 ∨ 30000 < fld value.toNat 0 15 →
    exec (.leasePeriodWrite fn value) s = .next (s.modFn fn (fun f => { f with leaseBad := true }))))
  ∧ (∀ (fn : Nat) (s : State),
    (s.fn fn).leaseArmed = true →
    (s.fn fn).leaseHalf = false →
    (s.fn fn).st = .active →
    exec (.leaseHalf fn) s = .next (postEvent ((advanceTo s ((s.fn fn).leaseFrom + ((s.fn fn).leaseInForce - (s.fn fn).leaseInForce / 2) * msCycles)).modFn fn
    (fun f => { f with leaseHalf := true })) fn 0x0105 0 ((s.fn fn).leaseInForce / 2)))

/-- A shared-control write waits for the tick, the tick applies it, and a register write of its own width acts at once (spec/02_ring_contract.md (R34, R64, R603), spec/00_scope.md (R8, R10)). -/
def Obligations.SharedControlsAndRegisterWrites : Prop :=
  (∀ (rank cap off width w : Nat) (pf1 : Bool) (value : BitVec 64) (s : State),
    (sharedReg cap off = some (w, pf1) ∧ s.transom.behindOf.contains rank = false) →
    width * 8 = w →
    (rank = 3 ∨ ((present s rank && presents rank cap && capOn s rank cap) = true ∧ (isPf0 rank || (isPf1 rank && pf1)) = true)) →
    exec (.sharedControlWrite rank cap off width value) s = .next { s with transom := { s.transom with held := s.transom.held ++
    [{ rank := rank, cap := cap, off := off, width := w, value := value.toNat % 2 ^ w }] } })
  ∧ (∀ (rank cap off width w : Nat) (value : BitVec 64) (s : State),
    (sharedReg cap off = some (w, false) ∧ s.transom.behindOf.contains rank = false) →
    width * 8 = w →
    (present s rank && presents rank cap && capOn s rank cap) = true →
    isPf1 rank = true →
    exec (.sharedControlWrite rank cap off width value) s = .next (s.modFn rank (fun f => { f with roleDenied := satAdd 32 f.roleDenied 1 })))
  ∧ (∀ (c d : Bool) (s : State),
    s.power.romDone = true →
    (s.transom.held = [] ∧ s.transom.behind = []) →
    s.trust.cmds = [] →
    s.power.change = none →
    s.trust.debugScope = 0 →
    exec (.commitTick c d) s = .next { s with vcycle := max s.vcycle (nextTick s), transom := { s.transom with behindOf := [], tickAt := max s.vcycle (nextTick s) }, trust := { s.trust with claimEnN := c, debugEnN := d } })
  ∧ (∀ (c d : Bool) (h : Held) (s : State),
    s.power.romDone = true →
    (s.transom.held = [h] ∧ s.transom.behind = []) →
    (h.cap = 0x10 ∧ h.off = 0x08 ∧ h.rank ≠ 0) →
    s.trust.cmds = [] →
    s.power.change = none →
    s.trust.debugScope = 0 →
    flashUp s = true →
    s.trust.seq % segmentRecs ≠ 255 →
    exec (.commitTick c d) s = .next { s with
    fabric := { s.fabric with owner := h.value % 2 ^ 8 }
    vcycle := max s.vcycle (nextTick s)
    transom := { s.transom with held := [], behindOf := [], tickAt := max s.vcycle (nextTick s) }
    trust := (appendRec { s with trust := { s.trust with claimEnN := c, debugEnN := d }, vcycle := max s.vcycle (nextTick s) } 0x0302 (if h.rank = 3 then 3 else 2) h.rank 0 (0x10 + 8 * 2 ^ 16)).trust })
  ∧ (∀ (fn : Nat) (value : BitVec 64) (s : State),
    heldBack s fn 0 = false →
    present s fn = true →
    presents fn 0x01 = true →
    capOn s fn 0x01 = true →
    ((s.fn fn).dirCommitted = false → exec (.registerWrite fn (.block 0x01) 0x08 8 value) s = .next (s.modFn fn (fun f =>
    if f.dirCommitted then f else { f with dirBase := value.toNat % 2 ^ 64 / 4096 })))
    ∧ ((s.fn fn).dirCommitted = true → exec (.registerWrite fn (.block 0x01) 0x08 8 value) s = .next (s.modFn fn id)))
  ∧ (∀ (fn k off width : Nat) (value : BitVec 64) (s : State),
    exec (.registerWrite fn (.csr k) off width value) s = .next (doKeeperCsr fn k off width value.toNat s))

/-- An accelerator port's enable, disable, retrain, light and timer events take the port through Table 3-1 (spec/03_accelerator_fabric.md (R70, R73, R74, R78, R105, R112)). -/
def Obligations.PortBringUpAndRetrain : Prop :=
  (∀ (fn port : Nat) (s : State),
    heldBack s fn 0 = false →
    (isPf1 fn && present s fn) = true →
    port < 8 →
    ownerOf s port = fn →
    reachable s (aptTile port) = true →
    (s.port port).st = .shut →
    3 ≤ s.power.stage →
    bitAt s.trust.shutterAp port = true →
    exec (.portEnable fn port) s = .next (enterDetect ((s.modPort port (fun a => { a with enable := true })).modPort port (fun a => { a with shutterOpen := true })) port))
  ∧ (∀ (fn port : Nat) (s : State),
    heldBack s fn 0 = false →
    (isPf1 fn && present s fn) = true →
    port < 8 →
    ownerOf s port = fn →
    reachable s (aptTile port) = true →
    exec (.portDisable fn port) s = .next (goShut (s.modPort port (fun a => { a with enable := false })) port))
  ∧ (∀ (fn port : Nat) (s : State),
    heldBack s fn 0 = false →
    (isPf1 fn && present s fn) = true →
    port < 8 →
    ownerOf s port = fn →
    reachable s (aptTile port) = true →
    (s.port port).st = .active →
    exec (.portRetrain fn port) s = .next (enterRetrain s port))
  ∧ (∀ (port : Nat) (lit : BitVec 16) (s : State),
    port < 8 →
    (s.port port).st = .detect →
    lit = 0xFFFF#16 →
    exec (.rxLightChange port lit) s = .next (enterTrain (s.modPort port (fun a => { a with rxLight := 0xFFFF, laneGood := Nat.land a.laneGood 0xFFFF })) port))
  ∧ (∀ (port : Nat) (lit : BitVec 16) (s : State),
    port < 8 →
    (s.port port).st = .active →
    covers lit.toNat (widthLanes (s.port port).width) = false →
    exec (.rxLightChange port lit) s = .next (enterRetrain (s.modPort port (fun a => { a with rxLight := lit.toNat, laneGood := Nat.land a.laneGood lit.toNat })) port))
  ∧ (∀ (port h t : Nat) (s : State),
    (s.port port).st = .detect →
    (s.port port).half = some (h, t) →
    exec (.detectHalfTimeout port) s = .next (enterTrain (advanceTo s (t + 10 * msCycles)) port))
  ∧ (∀ (port due : Nat) (s : State),
    (s.port port).st = .detect →
    covers (s.port port).rxLight 0xFFFF = false →
    due = (match (s.port port).lastLol with | none => (s.port port).since | some t => max (s.port port).since (t + 1000 * msCycles)) →
    exec (.lossOfLight port) s = .next (postPort ((advanceTo s due).modPort port (fun a => { a with lastLol := some (advanceTo s due).vcycle })) port 0x1007 (0xFFFF - (s.port port).rxLight)))
  ∧ (∀ (port : Nat) (s : State),
    (s.port port).st = .train →
    exec (.trainTimeout port) s = .next (enterDetect (advanceTo s ((s.port port).since + 3 * msCycles)) port))
  ∧ (∀ (port : Nat) (s : State),
    (s.port port).st = .retrain →
    exec (.retrainTimeout port) s = .next (goDown (advanceTo s ((s.port port).since + 20 * usCycles)) port))
  ∧ (∀ (port : Nat) (s : State),
    (s.port port).st = .down →
    exec (.downTimeout port) s = .next (enterDetect (advanceTo s ((s.port port).since + 100 * msCycles)) port))
  ∧ (∀ (port t : Nat) (s : State),
    (s.port port).st = .active →
    (s.port port).widenAt = some t →
    (covers (s.port port).rxLight (0xFFFF - widthLanes (s.port port).width) = true → exec (.widenCheck port) s =
    .next (postPort ((advanceTo s t).modPort port (fun a => { a with widenPending := true, widenAt := none })) port 0x1004 0))
    ∧ (covers (s.port port).rxLight (0xFFFF - widthLanes (s.port port).width) = false → exec (.widenCheck port) s =
    .next (lightUnused ((advanceTo s t).modPort port (fun a => { a with widenAt := some ((advanceTo s t).vcycle + 100 * msCycles) })) port)))
  ∧ (∀ (port : Nat) (s : State),
    (s.port port).retrainAt ≠ 0 →
    (s.port port).st = .active →
    exec (.retrainAtReached port) s = .next (enterRetrain ((advanceToPtp s (s.port port).retrainAt).modPort port (fun a => { a with retrainAt := 0 })) port))
  ∧ (∀ (port lane : Nat) (s : State),
    port < 8 →
    lane < 16 →
    (s.port port).st = .active →
    bitAt (widthLanes (s.port port).width) lane = true →
    exec (.laneAlignmentLoss port lane) s = .next (enterRetrain (s.modPort port (fun a => { a with laneGood := if bitAt a.laneGood lane then a.laneGood - 2 ^ lane else a.laneGood })) port))

/-- Training flits, received flits, acknowledgements and replay runs of an accelerator port (spec/03_accelerator_fabric.md (R74, R75, R76, R77, R80, R85, R86, R89)). -/
def Obligations.PortTrainingAndLinkRetry : Prop :=
  (∀ (port w : Nat) (good : BitVec 16) (fl : List Byte) (s s1 s2 : State),
    port < 8 →
    fl.length = 256 →
    crc32c (fl.take 252) = leNat (fl.drop 252) →
    fld (leNat (fl.take 8)) 0 2 = 2 →
    (s.port port).st = .train →
    s1 = s.modPort port (fun a => { a with laneGood := good.toNat, peerGood := fld (leNat (sliceB fl 8 16)) 0 16 }) →
    s2 = (if bitAt (leNat (sliceB fl 8 16)) 18 = true then s1.modPort port (fun a => { a with peerReady := true, peerCredits := fld (leNat (sliceB fl 8 16)) 24 32 }) else s1) →
    w = chooseWidth good.toNat (fld (leNat (sliceB fl 8 16)) 0 16) →
    (w ≠ 0 → exec (.trainingFlitRx port good fl) s = .next (checkReadyPort (enterCreditInit s2 port w) port))
    ∧ (w = 0 → exec (.trainingFlitRx port good fl) s = .next (sendTraining s1 port)))
  ∧ (∀ (port : Nat) (good : BitVec 16) (fl : List Byte) (s : State),
    port < 8 →
    fl.length = 256 →
    crc32c (fl.take 252) ≠ leNat (fl.drop 252) →
    (receiving (s.port port) = true → exec (.trainingFlitRx port good fl) s = .next (s.modPort port (fun a => { a with crcErr := satAdd 32 a.crcErr 1 })))
    ∧ (receiving (s.port port) = false → exec (.trainingFlitRx port good fl) s = .next s))
  ∧ (∀ (port : Nat) (fl : List Byte) (s : State),
    port < 8 →
    receiving (s.port port) = true →
    fl.length = 256 →
    crc32c (fl.take 252) ≠ leNat (fl.drop 252) →
    exec (.flitRx port fl) s = .next (s.modPort port (fun a => { a with crcErr := satAdd 32 a.crcErr 1, retry := a.retry || a.st == .active })))
  ∧ (∀ (port : Nat) (fl : List Byte) (s : State),
    port < 8 →
    (s.port port).st = .active →
    fl.length = 256 →
    crc32c (fl.take 252) = leNat (fl.drop 252) →
    fld (leNat (fl.take 8)) 0 2 = 0 →
    exec (.flitRx port fl) s = .next (s.modPort port (fun a =>
    let b := freedCredits (acked a (fld (leNat (fl.take 8)) 16 12)) (sliceB fl 248 4)
    if bitAt (leNat (fl.take 8)) 28 then { b with replayAsked := true } else b)))
  ∧ (∀ (port : Nat) (fl : List Byte) (s : State),
    port < 8 →
    (s.port port).st = .active →
    fl.length = 256 →
    crc32c (fl.take 252) = leNat (fl.drop 252) →
    fld (leNat (fl.take 8)) 0 2 = 1 →
    fld (leNat (fl.take 8)) 4 12 ≠ (s.port port).rxNext →
    exec (.flitRx port fl) s = .next ((s.modPort port (fun a =>
    let b := freedCredits (acked a (fld (leNat (fl.take 8)) 16 12)) (sliceB fl 248 4)
    if bitAt (leNat (fl.take 8)) 28 then { b with replayAsked := true } else b)).modPort port (fun a => { a with retry := true })))
  ∧ (∀ (port : Nat) (fl : List Byte) (s s2 s3 : State),
    port < 8 →
    (s.port port).st = .active →
    fl.length = 256 →
    crc32c (fl.take 252) = leNat (fl.drop 252) →
    fld (leNat (fl.take 8)) 0 2 = 1 →
    fld (leNat (fl.take 8)) 4 12 = (s.port port).rxNext →
    s2 = (s.modPort port (fun a =>
    let b := freedCredits (acked a (fld (leNat (fl.take 8)) 16 12)) (sliceB fl 248 4)
    if bitAt (leNat (fl.take 8)) 28 then { b with replayAsked := true } else b)).modPort port (fun a => { a with rxNext := (a.rxNext + 1) % 4096, retry := false, rxUnacked := a.rxUnacked + 1, rxCount := a.rxCount.set (fld (leNat (fl.take 8)) 2 2) (lget a.rxCount (fld (leNat (fl.take 8)) 2 2) 0 + 1) }) →
    s3 = (List.range 15).foldl (fun s i => takeSlot port (fld (leNat (fl.take 8)) 2 2) s (sliceB fl (8 + 16 * i) 16)) s2 →
    (s3.port port).rxUnacked < 32 →
    exec (.flitRx port fl) s = .next s3)
  ∧ (∀ (port : Nat) (s : State),
    (s.port port).st = .active →
    exec (.ackTimer port) s = .next (sendFlit s port (mkFlit (s.port port) 0 0 0 0 [])))
  ∧ (∀ (port oldest n : Nat) (s s1 : State),
    (s.port port).st = .active →
    (s.port port).replayAsked = true →
    oldest = (match (s.port port).unacked with | [] => (s.port port).txSeq | u :: _ => u.seq) →
    (n = (if (s.port port).runAt = oldest ∧ (s.port port).runs ≠ 0 then (s.port port).runs + 1 else 1)) →
    s1 = resendAll port (s.modPort port (fun a => { a with replayAsked := false, runs := n, runAt := oldest })) →
    (n < 8 → exec (.replayRun port) s = .next s1)
    ∧ (8 ≤ n → exec (.replayRun port) s = .next (enterRetrain (s1.modPort port (fun a => { a with runs := 0 })) port)))

/-- Transactions from an accelerator are checked, translated, tracked and forwarded; window sets are validated and become active together (spec/03_accelerator_fabric.md (R84, R92, R94, R95, R96, R99, R100, R101, R102, R104, R107, R110)). -/
def Obligations.FabricTransactionsAndWindows : Prop :=
  (∀ (port addr n dest : Nat) (data : List (BitVec 8)) (t : Txn) (s u : State),
    (port < 8 ∧ portUp (s.port port) = true) →
    t = { op := 0x10, length := data.length, addr := addr, data := data } →
    (1 ≤ data.length ∧ data.length ≤ 256 ∧ crosses4k addr data.length = false) →
    (s.port port).ingress = [] →
    u = apRx s port t →
    matchWin (s.port port).activeSet addr = some n →
    (fld (inWin (s.port port).activeSet n).2.2 6 2 = 1 ∧ bitAt (inWin (s.port port).activeSet n).2.2 12 = true ∧ dest = fld (inWin (s.port port).activeSet n).2.2 8 3) →
    (portUp (s.port dest) = true ∧ egressRoom (s.port dest) t = true) →
    exec (.fabricWrite port addr data) s = .next (pushEgress (({ u with fabric := { s.fabric with nextTxn := s.fabric.nextTxn + 1 } } : State)) dest { cls := 0, vc := 0, src := port, gen := (s.port port).activeGen, id := s.fabric.nextTxn, txn := { t with port := port, addr := ((inWin (s.port port).activeSet n).2.1 + (addr - (inWin (s.port port).activeSet n).1)) % 2 ^ 64 } }))
  ∧ (∀ (port addr : Nat) (data : List (BitVec 8)) (ds : List (Nat × Nat)) (m : Bool) (t : Txn) (s u : State),
    (port < 8 ∧ portUp (s.port port) = true) →
    t = { op := 0x10, length := data.length, addr := addr, data := data } →
    (1 ≤ data.length ∧ data.length ≤ 256 ∧ crosses4k addr data.length = false) →
    Machine.translate s port t = some (ds, m) →
    u = apRx s port t →
    (s.port port).ingress.any (fun x => vcOf x.txn.op == 0) = false →
    (ds.any (fun d => portUp (s.port d.1) && !egressRoom (s.port d.1) t) = false → exec (.fabricWrite port addr data) s =
    .next (ds.foldl (copyTo port { txn := t, id := s.fabric.nextTxn, at_ := lget (s.port port).rxCount 0 0, dests := ds, multi := m, gen := (s.port port).activeGen }) { u with fabric := { s.fabric with nextTxn := s.fabric.nextTxn + 1 } }))
    ∧ (ds.any (fun d => portUp (s.port d.1) && !egressRoom (s.port d.1) t) = true → exec (.fabricWrite port addr data) s =
    .next (waitAt { u with fabric := { s.fabric with nextTxn := s.fabric.nextTxn + 1 } } port { txn := t, id := s.fabric.nextTxn, at_ := lget (s.port port).rxCount 0 0, dests := ds, multi := m, gen := (s.port port).activeGen })))
  ∧ (∀ (port tag addr length n dest : Nat) (t : Txn) (s u : State),
    (port < 8 ∧ portUp (s.port port) = true) →
    t = { op := 0x20, length := length, tag := tag, addr := addr } →
    (1 ≤ length ∧ length ≤ 256 ∧ crosses4k addr length = false) →
    (s.port port).ingress = [] →
    u = apRx s port t →
    matchWin (s.port port).activeSet addr = some n →
    (fld (inWin (s.port port).activeSet n).2.2 6 2 = 1 ∧ bitAt (inWin (s.port port).activeSet n).2.2 11 = true ∧ dest = fld (inWin (s.port port).activeSet n).2.2 8 3) →
    (portUp (s.port dest) = true ∧ egressRoom (s.port dest) t = true) →
    ((s.port dest).tracked.contains { src := port, tag := tag } = false ∧ (s.port dest).tracked.length < 4096) →
    exec (.fabricRead port tag addr length) s = .next (pushEgress (({ u with fabric := { s.fabric with nextTxn := s.fabric.nextTxn + 1 } } : State).modPort dest (fun a => { a with tracked := a.tracked ++ [{ src := port, tag := tag }] })) dest { cls := 0, vc := 1, src := port, gen := (s.port port).activeGen, id := s.fabric.nextTxn, txn := { t with port := port, addr := ((inWin (s.port port).activeSet n).2.1 + (addr - (inWin (s.port port).activeSet n).1)) % 2 ^ 64 } }))
  ∧ (∀ (port tag addr n dest : Nat) (data : List (BitVec 8)) (t : Txn) (s u : State),
    (port < 8 ∧ portUp (s.port port) = true) →
    t = { op := 0x18, length := data.length, tag := tag, addr := addr, data := data } →
    (1 ≤ data.length ∧ data.length ≤ 256 ∧ crosses4k addr data.length = false) →
    (s.port port).ingress = [] →
    u = apRx s port t →
    matchWin (s.port port).activeSet addr = some n →
    (fld (inWin (s.port port).activeSet n).2.2 6 2 = 1 ∧ bitAt (inWin (s.port port).activeSet n).2.2 12 = true ∧ dest = fld (inWin (s.port port).activeSet n).2.2 8 3) →
    (portUp (s.port dest) = true ∧ egressRoom (s.port dest) t = true) →
    ((s.port dest).tracked.contains { src := port, tag := tag } = false ∧ (s.port dest).tracked.length < 4096) →
    exec (.fabricWriteAcked port tag addr data) s = .next (pushEgress (({ u with fabric := { s.fabric with nextTxn := s.fabric.nextTxn + 1 } } : State).modPort dest (fun a => { a with tracked := a.tracked ++ [{ src := port, tag := tag }] })) dest { cls := 0, vc := 1, src := port, gen := (s.port port).activeGen, id := s.fabric.nextTxn, txn := { t with port := port, addr := ((inWin (s.port port).activeSet n).2.1 + (addr - (inWin (s.port port).activeSet n).1)) % 2 ^ 64 } }))
  ∧ (∀ (port addr : Nat) (data : List (BitVec 8)) (t : Txn) (s u : State),
    (port < 8 ∧ portUp (s.port port) = true) →
    t = { op := 0x10, length := data.length, addr := addr, data := data } →
    (1 ≤ data.length ∧ data.length ≤ 256 ∧ crosses4k addr data.length = false) →
    matchWin (s.port port).activeSet addr = none →
    u = apRx s port t →
    exec (.fabricWrite port addr data) s = .next (windowMiss (dropAt u port) port addr))
  ∧ (∀ (port tag addr length : Nat) (s : State),
    port < 8 →
    portUp (s.port port) = true →
    (length = 0 ∨ 256 < length) →
    exec (.fabricRead port tag addr length) s = .next (engineCpl (dropAt s port) port tag 0x06 port))
  ∧ (∀ (port toPort tag status : Nat) (data : List (BitVec 8)) (t : Txn) (s u : State),
    (port < 8 ∧ portUp (s.port port) = true ∧ data.length ≤ 256) →
    t = { op := 0x30, length := data.length, port := toPort, tag := tag, status := status, data := data } →
    (s.port port).tracked.contains { src := toPort, tag := tag } = true →
    u = apRx s port { op := 0x30, data := data } →
    exec (.fabricCpl port toPort tag status data) s = .next (retryIngress (enter (({ u with fabric := { s.fabric with nextTxn := s.fabric.nextTxn + 1 } } : State).modPort port (fun a => { a with tracked := a.tracked.erase { src := toPort, tag := tag } })) port
    { txn := t, id := s.fabric.nextTxn, at_ := lget (s.port port).rxCount 2 0, dests := [(toPort, 0)] })))
  ∧ (∀ (port i pos n k : Nat) (d : List Nat) (e : Egress) (s t u v : State),
    (s.port port).st = .active →
    drr s (s.port port) 4100 (s.port port).deficit (s.port port).rrPos (s.port port).rrGranted = some (i, d, pos) →
    (e = lget (s.port port).egress i {} ∧ n = canLeave s (s.port port) ((s.port port).egress.take i) e ∧ k = min (15 * n) (slotsIn e - e.sent)) →
    t = sendData port e.vc n (e.sent == 0) (((txnSlots (tagged (s.port port) e)).drop (16 * e.sent)).take (16 * k)) (s.modPort port (fun a => { a with
    deficit := d, rrPos := pos, rrGranted := true, engTag := match e.eng with | .read _ => (a.engTag + 1) % 2 ^ 16 | _ => a.engTag
    egress := if slotsOf e.txn ≤ e.sent + k then a.egress.eraseIdx i else a.egress.set i { e with sent := e.sent + k } })) →
    u = (if slotsOf e.txn ≤ e.sent + k then checkDrained (retryIngress (fillEgress (readOn (apTx t port e) port e) port)) (if e.src = 8 then port else e.src) else t) →
    v = pump (settleTables (((entryBlocks (outgoing (s.port port))).filter (fun b => !(entryBlocks (outgoing (u.port port))).contains b)).foldl becomeResident u)) port →
    exec (.egressDepart port) s = .next (v.red.ctxs.foldl (fun s q => if q.2.closer.isSome = true then checkClose s q.1 else s) v))
  ∧ (∀ (fn : Nat) (mask : BitVec 32) (s : State),
    heldBack s fn 0 = false →
    (isPf1 fn && present s fn) = true →
    s.fabric.pwBusy = false →
    ((List.range 8).filter (fun p => bitAt mask.toNat p)) ≠ [] →
    ((List.range 8).filter (fun p => bitAt mask.toNat p)).any (fun p => ownerOf s p != fn) = false →
    ((List.range 8).filter (fun p => bitAt mask.toNat p)).find? (fun p => (badEntry (s.port p).shadow).isSome) = none →
    exec (.pwCommit fn mask) s = .next { s with fabric := { s.fabric with pwBusy := true, pwSets := ((List.range 8).filter (fun p => bitAt mask.toNat p)).map (fun p => (p, (s.port p).shadow)) } })
  ∧ (∀ (fn p : Nat) (mask : BitVec 32) (s : State),
    heldBack s fn 0 = false →
    (isPf1 fn && present s fn) = true →
    s.fabric.pwBusy = false →
    ((List.range 8).filter (fun p => bitAt mask.toNat p)) ≠ [] →
    ((List.range 8).filter (fun p => bitAt mask.toNat p)).any (fun p => ownerOf s p != fn) = false →
    ((List.range 8).filter (fun p => bitAt mask.toNat p)).find? (fun p => (badEntry (s.port p).shadow).isSome) = some p →
    exec (.pwCommit fn mask) s = .next (endPw s 0x06 p ((badEntry (s.port p).shadow).getD 0)))
  ∧ (∀ (p : Nat) (set : NMap Nat) (s s1 : State),
    s.fabric.pwBusy = true →
    s.fabric.pwSets = [(p, set)] →
    s1 = s.modPort p (fun a => { a with activeSet := set, shadow := set, activeGen := (a.activeGen + 1) % 2 ^ 16 }) →
    exec .windowsActivate s = .next (endPw (s1.modPort p (fun a => { a with drainDue := inflightOld s1 p != 0 })) 0x00 0 0))

/-- Gate lists, credit splits and alerts of accelerator ports and interfaces (spec/03_accelerator_fabric.md (R87, R88, R108, R109, R114), spec/11_scheduling_and_gates.md (R399)). -/
def Obligations.GatesCreditsAndAlerts : Prop :=
  (∀ (fn port : Nat) (s : State),
    heldBack s fn 0 = false →
    (isPf1 fn && present s fn) = true →
    port < 8 →
    ownerOf s port = fn →
    reachable s (aptTile port) = true →
    (gateFault 4 32 (shadowList (s.port port)) = none → exec (.afGateCommit fn port) s = .next (s.modPort port (fun a => { a with
    gateStatus := 0, gateBadEntry := 0, gateHeaderBad := false, gatePend := some { shadowList (s.port port) with change := max (shadowList (s.port port)).change (ptp s) } })))
    ∧ (∀ e hb, gateFault 4 32 (shadowList (s.port port)) = some (e, hb) → exec (.afGateCommit fn port) s = .next (s.modPort port (fun a => { a with
    gateStatus := 0x06, gateBadEntry := e, gateHeaderBad := hb }))))
  ∧ (∀ (fn port : Nat) (units : BitVec 32) (s : State),
    heldBack s fn 0 = false →
    (isPf1 fn && present s fn) = true →
    port < 8 →
    ownerOf s port = fn →
    reachable s (aptTile port) = true →
    ((∀ k, k < 4 → 4 ≤ fld units.toNat (8 * k) 8) ∧ fld units.toNat 0 8 + fld units.toNat 8 8 + fld units.toNat 16 8 + fld units.toNat 24 8 ≤ 128 →
    exec (.vcCreditsWrite fn port units) s = .next (s.modPort port (fun a => { a with vcCredits := units.toNat })))
    ∧ ((∃ k, k < 4 ∧ fld units.toNat (8 * k) 8 < 4) ∨ 128 < fld units.toNat 0 8 + fld units.toNat 8 8 + fld units.toNat 16 8 + fld units.toNat 24 8 →
    exec (.vcCreditsWrite fn port units) s = .next (s.modPort port (fun a => { a with badCredit := true }))))
  ∧ (∀ (n : Nat) (g : GateList) (s s1 : State),
    (s.port n).gatePend = some g →
    s1 = (advanceToPtp s (gateStart g g.change)).modPort n (fun a => { a with gatePend := none, gateOper := some g, gateEntry := 0, operGen := (a.operGen + 1) % 2 ^ 16 }) →
    exec (.gateListTakeEffect true n) s = .next (postPort s1 n 0x1005 (s1.port n).operGen))
  ∧ (∀ (n : Nat) (g : GateList) (s s1 : State),
    (s.netIf n).gatePend = some g →
    s1 = (advanceToPtp s (gateStart g g.change)).modNetIf n (fun i => { i with gatePend := none, gateOper := some g, gateEntry := 0, operGen := (i.operGen + 1) % 2 ^ 16 }) →
    exec (.gateListTakeEffect false n) s = .next (postEvent s1 (netOwner s1 (n / 4)) 0x2201 n (s1.netIf n).operGen))
  ∧ (∀ (n : Nat) (g : GateList) (s : State),
    (s.port n).gateOper = some g →
    exec (.gateEntryAdvance true n) s = .next ((advanceToPtp s (gateNext g (ptp s))).modPort n (fun a => { a with
    gateEntry := (gateNow g (ptp (advanceToPtp s (gateNext g (ptp s))))).elim 0 (·.1) })))
  ∧ (∀ (n : Nat) (g : GateList) (s : State),
    (s.netIf n).gateOper = some g →
    exec (.gateEntryAdvance false n) s = .next ((advanceToPtp s (gateNext g (ptp s))).modNetIf n (fun a => { a with
    gateEntry := (gateNow g (ptp (advanceToPtp s (gateNext g (ptp s))))).elim 0 (·.1) })))
  ∧ (∀ (port : Nat) (s : State),
    port < 8 →
    domOn s (aptTile port) = true →
    ((s.port port).alert = false → exec (.accelAlert port true) s = .next (postPort (s.modPort port (fun a => { a with alert := true })) port 0x1006 0))
    ∧ exec (.accelAlert port false) s = .next (s.modPort port (fun a => { a with alert := false })))

/-- OPEN, PULL, CLOSE and ABORT take the oldest posted step and act on the context it names (spec/04_reduction_arithmetic.md (R116, R144, R146, R147, R148, R149, R150, R155, R156)). -/
def Obligations.ReductionStepsComplete : Prop :=
  (∀ (core h : Nat) (ts : List Nat) (w : BitVec 512) (s : State),
    Posts s core w →
    fld w.toNat 0 8 = 0x01 →
    openOk w.toNat = true →
    slotsNeed w.toNat ≤ 262144 →
    s.red.claims = [] →
    claimFits s w.toNat = some (ts, h) →
    exec (.rdOpen core) s = .next (grant (takeStep s core) { core := core, desc := w.toNat } ts h))
  ∧ (∀ (core : Nat) (w : BitVec 512) (s : State),
    Posts s core w →
    fld w.toNat 0 8 = 0x01 →
    openOk w.toNat = true →
    slotsNeed w.toNat ≤ 262144 →
    claimFits s w.toNat = none →
    (bitAt w.toNat 8 = true → exec (.rdOpen core) s = .next (settleCand ((settleCand (takeStep s core)).modRed (fun r => { r with claims := r.claims ++ [{ core := core, desc := w.toNat }] }))))
    ∧ (bitAt w.toNat 8 = false → exec (.rdOpen core) s = .next (stepDone (takeStep s core) core (fld w.toNat 32 32) 0x07 0x01 0)))
  ∧ (∀ (core : Nat) (w : BitVec 512) (s : State),
    Posts s core w →
    fld w.toNat 0 8 = 0x01 →
    openOk w.toNat = false →
    exec (.rdOpen core) s = .next (stepDone (takeStep s core) core (fld w.toNat 32 32) 0x06 0x01 0))
  ∧ (∀ (core : Nat) (w : BitVec 512) (s : State),
    Posts s core w →
    (fld w.toNat 0 8 < 1 ∨ 4 < fld w.toNat 0 8) →
    exec (.rdOpen core) s = .next (stepDone (takeStep s core) core (fld w.toNat 32 32) 0x06 (fld w.toNat 0 8) 0))
  ∧ (∀ (c h : Nat) (k : Claim) (ts : List Nat) (s : State),
    s.red.cand = none →
    rotPick 64 s.red.ptr (s.red.claims.map (·.core)) = some c →
    s.red.claims.find? (fun x => x.core == c) = some k →
    claimFits s k.desc = some (ts, h) →
    exec .admissionGrant s = .next (grant (s.modRed (fun r => { r with claims := r.claims.erase k })) k ts h))
  ∧ (∀ (core : Nat) (w : BitVec 512) (k : Ctx) (s : State),
    Posts s core w →
    fld w.toNat 0 8 = 0x02 →
    (fld w.toNat 8 24 = 0 ∧ fld w.toNat 288 224 = 0) →
    oget s.red.ctxs (fld w.toNat 64 12) = some k →
    k.hgen = fld w.toNat 76 4 →
    (¬ (oRanks k.desc ≤ fld w.toNat 80 16 ∨ (!bitAt (oMemMask k.desc) (fld w.toNat 80 16)) = true ∨ oElements k.desc < fld w.toNat 96 32 + fld w.toNat 128 32 ∨ fld w.toNat 96 32 % 32 ≠ 0 ∨ fld w.toNat 128 32 % 32 ≠ 0 ∨ fld w.toNat 222 2 = 3 ∨ fld w.toNat 160 64 % 64 ≠ 0 ∨ (isMx (oIn k.desc) = true ∧ (fld w.toNat 286 2 = 3 ∨ fld w.toNat 224 64 % 64 ≠ 0)) ∨ ((!isMx (oIn k.desc)) = true ∧ fld w.toNat 224 64 ≠ 0))) →
    k.st = .opened →
    fld w.toNat 128 32 ≠ 0 →
    exec (.rdPull core) s = .next ((takeStep s core).modCtx (fld w.toNat 64 12) (fun k => { k with pulls := k.pulls ++
    [{ core := core, tag := fld w.toNat 32 32, rank := fld w.toNat 80 16, first := fld w.toNat 96 32, count := fld w.toNat 128 32, addr := fld w.toNat 160 64, scale := fld w.toNat 224 64 }] })))
  ∧ (∀ (core : Nat) (w : BitVec 512) (s : State),
    Posts s core w →
    fld w.toNat 0 8 = 0x02 →
    (fld w.toNat 8 24 = 0 ∧ fld w.toNat 288 224 = 0) →
    stepCtx s w.toNat = none →
    exec (.rdPull core) s = .next (stepDone (takeStep s core) core (fld w.toNat 32 32) 0x81 0x02 0))
  ∧ (∀ (core : Nat) (w : BitVec 512) (k : Ctx) (s : State),
    Posts s core w →
    fld w.toNat 0 8 = 0x02 →
    (fld w.toNat 8 24 = 0 ∧ fld w.toNat 288 224 = 0) →
    oget s.red.ctxs (fld w.toNat 64 12) = some k →
    k.hgen = fld w.toNat 76 4 →
    (¬ (oRanks k.desc ≤ fld w.toNat 80 16 ∨ (!bitAt (oMemMask k.desc) (fld w.toNat 80 16)) = true ∨ oElements k.desc < fld w.toNat 96 32 + fld w.toNat 128 32 ∨ fld w.toNat 96 32 % 32 ≠ 0 ∨ fld w.toNat 128 32 % 32 ≠ 0 ∨ fld w.toNat 222 2 = 3 ∨ fld w.toNat 160 64 % 64 ≠ 0 ∨ (isMx (oIn k.desc) = true ∧ (fld w.toNat 286 2 = 3 ∨ fld w.toNat 224 64 % 64 ≠ 0)) ∨ ((!isMx (oIn k.desc)) = true ∧ fld w.toNat 224 64 ≠ 0))) →
    k.st ≠ .failed →
    fld w.toNat 128 32 = 0 →
    exec (.rdPull core) s = .next (stepDone (takeStep s core) core (fld w.toNat 32 32) 0 0x02 0))
  ∧ (∀ (core : Nat) (w : BitVec 512) (k : Ctx) (s : State),
    Posts s core w →
    fld w.toNat 0 8 = 0x03 →
    (fld w.toNat 8 24 = 0 ∧ fld w.toNat 80 432 = 0) →
    oget s.red.ctxs (fld w.toNat 64 12) = some k →
    k.hgen = fld w.toNat 76 4 →
    (k.st = .opened → exec (.rdClose core) s = .next (checkClose ((takeStep s core).modCtx (fld w.toNat 64 12) (fun k => { k with st := .closing, closer := some (core, fld w.toNat 32 32) })) (fld w.toNat 64 12)))
    ∧ (k.st = .failed → exec (.rdClose core) s = .next (releaseCtx (stepDone (takeStep s core) core (fld w.toNat 32 32) k.failure 0x03 0) (fld w.toNat 64 12)))
    ∧ (k.st = .closing → exec (.rdClose core) s = .next (stepDone (takeStep s core) core (fld w.toNat 32 32) 0x06 0x03 0)))
  ∧ (∀ (core : Nat) (w : BitVec 512) (s : State),
    Posts s core w →
    fld w.toNat 0 8 = 0x03 →
    (fld w.toNat 8 24 = 0 ∧ fld w.toNat 80 432 = 0) →
    stepCtx s w.toNat = none →
    exec (.rdClose core) s = .next (stepDone (takeStep s core) core (fld w.toNat 32 32) 0x81 0x03 0))
  ∧ (∀ (core : Nat) (w : BitVec 512) (k : Ctx) (s : State),
    Posts s core w →
    fld w.toNat 0 8 = 0x04 →
    (fld w.toNat 8 24 = 0 ∧ fld w.toNat 81 431 = 0 ∧ bitAt w.toNat 80 = false) →
    stepCtx s w.toNat = some k →
    exec (.rdAbort core) s = .next (stepDone (abortCtx (takeStep s core) (fld w.toNat 64 12)) core (fld w.toNat 32 32) 0 0x04 1))
  ∧ (∀ (core : Nat) (w : BitVec 512) (s : State),
    Posts s core w →
    fld w.toNat 0 8 = 0x04 →
    (fld w.toNat 8 24 = 0 ∧ fld w.toNat 81 431 = 0 ∧ bitAt w.toNat 80 = false) →
    stepCtx s w.toNat = none →
    exec (.rdAbort core) s = .next (stepDone (takeStep s core) core (fld w.toNat 32 32) 0 0x04 0))
  ∧ (∀ (core : Nat) (w : BitVec 512) (c : Claim) (s : State),
    Posts s core w →
    fld w.toNat 0 8 = 0x04 →
    (fld w.toNat 8 24 = 0 ∧ fld w.toNat 81 431 = 0 ∧ bitAt w.toNat 80 = true ∧ fld w.toNat 64 16 = 0) →
    s.red.claims.find? (fun c => c.core == core) = some c →
    exec (.rdAbort core) s = .next (stepDone (stepDone (withdraw (takeStep s core) c) core (fld c.desc 32 32) 0x08 0x01 0) core (fld w.toNat 32 32) 0 0x04 1))

/-- A contribution is counted, folded or spilled at its tile; results leave and are accepted; spilled data comes back (spec/04_reduction_arithmetic.md (R117, R126, R127, R137, R138, R139, R140, R141, R142, R143, R148, R149, R161)). -/
def Obligations.ContributionsAndResults : Prop :=
  (∀ (port hd hgen rank element : Nat) (data : List (BitVec 8)) (s u : State),
    (port < 8 ∧ portUp (s.port port) = true) →
    (1 ≤ data.length ∧ data.length ≤ 256) →
    u = apRx s port { op := 0x40, data := data } →
    oget u.red.ctxs hd = none →
    exec (.contrib port hd hgen rank element data) s = .next (handleMiss u hd hgen rank element))
  ∧ (∀ (port hd hgen rank element : Nat) (data : List (BitVec 8)) (k : Ctx) (s u : State),
    (port < 8 ∧ portUp (s.port port) = true) →
    (1 ≤ data.length ∧ data.length ≤ 256) →
    u = apRx s port { op := 0x40, data := data } →
    oget u.red.ctxs hd = some k →
    k.hgen = hgen →
    k.st = .failed →
    exec (.contrib port hd hgen rank element data) s = .next (u.modSum (chunkTile k (chunkOf k.desc element)) (fun t => { t with drop := satAdd 32 t.drop 1 })))
  ∧ (∀ (port hd hgen rank element n : Nat) (data : List (BitVec 8)) (k : Ctx) (co : Contr) (s u : State),
    (port < 8 ∧ portUp (s.port port) = true) →
    (1 ≤ data.length ∧ data.length ≤ 256) →
    u = apRx s port { op := 0x40, data := data } →
    oget u.red.ctxs hd = some k →
    k.hgen = hgen →
    k.st ≠ .failed →
    contribElems (oIn k.desc) data.length = some n →
    (¬ (oRanks k.desc ≤ rank ∨ bitAt (oMemMask k.desc) rank = true ∨ element % 32 ≠ 0 ∨ chunkEnd k.desc (chunkOf k.desc element) < element + n)) →
    ((groupsOf element n).any (fun g => k.got.contains (gotKey rank g))) = false →
    isMx (oIn k.desc) = false →
    co = { rank := rank, elem := element, n := n, data := data, len := data.length } →
    chunkOpen k (chunkOf k.desc element) = true →
    foldable k co = true →
    exec (.contrib port hd hgen rank element data) s = .next (takeIn (u.modSum (chunkTile k (chunkOf k.desc element)) (fun t => { t with ingest := (t.ingest + data.length) % 2 ^ 64 })) hd k co))
  ∧ (∀ (hd which c e n tile : Nat) (back : PullRead) (bs ss : List Byte) (b : Nat × Nat) (k k1 : Ctx) (p p1 : Pull) (s u v : State),
    (oget s.red.ctxs hd = some k ∧ k.pulls[which]? = some p) →
    ((pullLeft k p).find? (fun c => pullAgain k p c || pullFits k p c) = some c ∧ pullAgain k p c = false) →
    (pullPart k p c = (e, n) ∧ tile = chunkTile k c ∧ b = pullBytes (oIn k.desc) n) →
    (spaceRead s tile (p.addr + pullOff (oIn k.desc) (e - p.first)) b.1 back.elems ((hostBytes back.host).take b.1) back.host = (u, 0, bs) ∧ bs.length = b.1) →
    ((if b.2 = 0 then (u, 0, []) else spaceRead u tile (p.scale + (e - p.first) / 32) b.2 back.scales ((hostBytes back.host).drop b.1) back.host) = (v, 0, ss) ∧ ss.length = b.2) →
    (p1 = { p with parts := p.parts ++ [c] } ∧ k1 = { k with pulls := k.pulls.set which p1 }) →
    exec (.pullDataReturn hd which back) s = .next (pullDone (takeIn ((v.modCtx hd (fun _ => k1)).modSum tile (fun t => { t with ingest := (t.ingest + b.1 + b.2) % 2 ^ 64 })) hd k1
    { rank := p.rank, elem := e, n := n, data := bs, scales := ss, len := b.1 + b.2 }) hd which p1))
  ∧ (∀ (hd which c : Nat) (back : PullRead) (k : Ctx) (p : Pull) (s : State),
    oget s.red.ctxs hd = some k →
    k.pulls[which]? = some p →
    (pullLeft k p).find? (fun c => pullAgain k p c || pullFits k p c) = some c →
    pullAgain k p c = true →
    exec (.pullDataReturn hd which back) s = .next (failCtx s hd 0x80 (chunkTile k c)))
  ∧ (∀ (hd tile : Nat) (k : Ctx) (e : Emission) (s u : State),
    oget s.red.ctxs hd = some k →
    emitting k tile = some e →
    e.writeDue = true →
    e.scales = [] →
    spaceWrite s tile (oResult k.desc + pullOff (oOut k.desc) (e.chunk * 2 ^ oChunkLog2 k.desc)) e.data = (u, 0) →
    exec (.resultWriteAccepted hd tile) s = .next (freeChunk u hd { e with writeDue := false }))
  ∧ (∀ (hd tile el : Nat) (bs : List Byte) (rest : List (Nat × List Byte)) (k : Ctx) (e : Emission) (t : Txn) (s u : State),
    oget s.red.ctxs hd = some k →
    emitting k tile = some e →
    e.pieces = (el, bs) :: rest →
    t = { op := 0x41, length := bs.length, addr := hd + k.hgen * 2 ^ 12 + el * 2 ^ 32, data := bs } →
    (((List.range 8).filter (fun p => bitAt (oPorts k.desc) p)).any (fun p => portUp (s.port p) && !egressRoom (s.port p) t)) = false →
    u = ((List.range 8).filter (fun p => bitAt (oPorts k.desc) p)).foldl (fun s p => if portUp (s.port p) then pushEgress s p { cls := 1, vc := 3, src := 8, eng := .result hd k.hgen, txn := t } else (dropAt s p).modCtx hd (fun k => { k with missed := Nat.lor k.missed (2 ^ p) })) s →
    exec (.resultCopyDepart hd tile) s = .next (freeChunk (tapUnit u { tap := 5, sel := tile, handle := hd, hgen := k.hgen } bs) hd { e with pieces := rest }))
  ∧ (∀ (hd tile : Nat) (k k2 k3 : Ctx) (c : Contr) (bs : List Byte) (s u : State),
    oget s.red.ctxs hd = some k →
    k.waits.find? (fun c => c.cell.isSome && chunkOpen k (chunkOf k.desc c.elem) && foldable k c) = some c →
    tile = chunkTile k (chunkOf k.desc c.elem) →
    engineRead s (sumDom tile) (oSpillBase k.desc + 256 * c.cell.getD 0) c.len = (u, 0, bs) →
    foldContr { k with waits := k.waits.erase c } (contrOf (oIn k.desc) c.rank c.elem c.n bs) = .inl k2 →
    cascade (k2.waits.length + 1) k2 = .inl k3 →
    exec (.spillReadReturn hd .good) s = .next (formAll (u.modCtx hd (fun _ => k3)) hd [chunkOf k.desc c.elem])
    ∧ exec (.spillReadReturn hd .uncorrectable) s = .next (failCtx (uncorrectable u (oSpillBase k.desc + 256 * c.cell.getD 0) (sumDom tile)) hd 0x04 tile))

/-- Each arithmetic instruction that executes writes its result to rd alone and goes on to the next word (spec/05_pynex_cores.md (R168, R177, R178, R179, R180)). -/
def Obligations.PynexArithmeticCompletes : Prop :=
  (∀ (core : Nat) (lo : BitVec 32) (x : BitVec 64) (s : State),
    Executes s core 0x01 lo.toNat →
    aluFn (fld lo.toNat 0 7) (getR (s.core core) (fRs1 lo.toNat)) (getR (s.core core) (fRs2 lo.toNat)) = some x →
    (unaryFn (fld lo.toNat 0 7) = true → fRs2 lo.toNat = 0) →
    exec (.alu core lo) s = .next (passed (wrote s core (fRd lo.toNat) x) core (if mulFn (fld lo.toNat 0 7) then 3 else 1)))
  ∧ (∀ (core : Nat) (lo : BitVec 32) (s : State),
    Executes s core 0x01 lo.toNat →
    aluFn (fld lo.toNat 0 7) (getR (s.core core) (fRs1 lo.toNat)) (getR (s.core core) (fRs2 lo.toNat)) = none →
    exec (.alu core lo) s = .next (raiseExc s core 0x01 lo.toNat))
  ∧ (∀ (core : Nat) (lo : BitVec 32) (s : State),
    (canRun s core = true ∧ fetchOk core (s.core core) (s.core core).pc = true ∧ getP (s.core core) (fld lo.toNat 23 3) ≠ bitAt lo.toNat 22) →
    listedOp (fld lo.toNat 26 6) = false →
    exec (.alu core lo) s = .next (raiseExc s core 0x01 lo.toNat))
  ∧ (∀ (core : Nat) (lo : BitVec 32) (s : State),
    Executes s core 0x02 lo.toNat →
    exec (.addi core lo) s = .next (passed (wrote s core (fRd lo.toNat) (getR (s.core core) (fRs1 lo.toNat) + imm 12 lo.toNat)) core 1))
  ∧ (∀ (core : Nat) (lo : BitVec 32) (s : State),
    Executes s core 0x03 lo.toNat →
    exec (.andi core lo) s = .next (passed (wrote s core (fRd lo.toNat) (getR (s.core core) (fRs1 lo.toNat) &&& imm 12 lo.toNat)) core 1))
  ∧ (∀ (core : Nat) (lo : BitVec 32) (s : State),
    Executes s core 0x04 lo.toNat →
    exec (.ori core lo) s = .next (passed (wrote s core (fRd lo.toNat) (getR (s.core core) (fRs1 lo.toNat) ||| imm 12 lo.toNat)) core 1))
  ∧ (∀ (core : Nat) (lo : BitVec 32) (s : State),
    Executes s core 0x05 lo.toNat →
    exec (.xori core lo) s = .next (passed (wrote s core (fRd lo.toNat) (getR (s.core core) (fRs1 lo.toNat) ^^^ imm 12 lo.toNat)) core 1))
  ∧ (∀ (core : Nat) (lo : BitVec 32) (s : State),
    Executes s core 0x06 lo.toNat →
    fld lo.toNat 8 4 = 0 →
    (fld lo.toNat 6 2 = 0 → exec (.shifti core lo) s = .next (passed (wrote s core (fRd lo.toNat) (getR (s.core core) (fRs1 lo.toNat) <<< fld lo.toNat 0 6)) core 1))
    ∧ (fld lo.toNat 6 2 = 1 → exec (.shifti core lo) s = .next (passed (wrote s core (fRd lo.toNat) (getR (s.core core) (fRs1 lo.toNat) >>> fld lo.toNat 0 6)) core 1))
    ∧ (fld lo.toNat 6 2 = 2 → exec (.shifti core lo) s = .next (passed (wrote s core (fRd lo.toNat) ((getR (s.core core) (fRs1 lo.toNat)).sshiftRight (fld lo.toNat 0 6))) core 1))
    ∧ (fld lo.toNat 6 2 = 3 → exec (.shifti core lo) s = .next (raiseExc s core 0x01 lo.toNat)))
  ∧ (∀ (core : Nat) (lo : BitVec 32) (s : State),
    Executes s core 0x08 lo.toNat →
    exec (.movi core lo) s = .next (passed (wrote s core (fRd lo.toNat) (imm 17 lo.toNat)) core 1))
  ∧ (∀ (core : Nat) (lo : BitVec 32) (s : State),
    Executes s core 0x09 lo.toNat →
    bitAt lo.toNat 16 = false →
    exec (.movk16 core lo) s = .next (passed (wrote s core (fRd lo.toNat) (BitVec.ofNat 64 (setFld (getR (s.core core) (fRd lo.toNat)).toNat 16 16 (fld lo.toNat 0 16)))) core 1))
  ∧ (∀ (core : Nat) (lo : BitVec 32) (s : State),
    Executes s core 0x0A lo.toNat →
    bitAt lo.toNat 16 = false →
    exec (.movk32 core lo) s = .next (passed (wrote s core (fRd lo.toNat) (BitVec.ofNat 64 (setFld (getR (s.core core) (fRd lo.toNat)).toNat 32 16 (fld lo.toNat 0 16)))) core 1))
  ∧ (∀ (core : Nat) (lo : BitVec 32) (s : State),
    Executes s core 0x0B lo.toNat →
    bitAt lo.toNat 16 = false →
    exec (.movk48 core lo) s = .next (passed (wrote s core (fRd lo.toNat) (BitVec.ofNat 64 (setFld (getR (s.core core) (fRd lo.toNat)).toNat 48 16 (fld lo.toNat 0 16)))) core 1))

/-- A false guard costs one cycle and nothing else; CMP, CMPI, PLOG and PMOV write predicates and leave the registers (spec/05_pynex_cores.md (R176, R177, R179)). -/
def Obligations.PynexGuardAndPredicates : Prop :=
  (∀ (core : Nat) (lo : BitVec 32) (s : State),
    canRun s core = true →
    fetchOk core (s.core core) (s.core core).pc = true →
    getP (s.core core) (fld lo.toNat 23 3) = bitAt lo.toNat 22 →
    (fld lo.toNat 26 6 = 0x02 → exec (.addi core lo) s = .next (passed s core 1))
    ∧ (fld lo.toNat 26 6 = 0x1B → exec (.st64 core lo) s = .next (passed s core 1))
    ∧ (fld lo.toNat 26 6 = 0x27 → exec (.trap core lo) s = .next (passed s core 1))
    ∧ (fld lo.toNat 26 6 = 0x24 → exec (.call core lo) s = .next (passed s core 1)))
  ∧ (∀ (core : Nat) (lo : BitVec 32) (s : State),
    Executes s core 0x0C lo.toNat →
    (fld lo.toNat 17 2 = 0 ∧ fld lo.toNat 3 4 = 0) →
    exec (.cmp core lo) s = .next (passed (s.modCore core (fun c => setP c (fld lo.toNat 19 3) (condOf (fld lo.toNat 0 3) (getR (s.core core) (fRs1 lo.toNat)) (getR (s.core core) (fRs2 lo.toNat))))) core 1))
  ∧ (∀ (core : Nat) (lo : BitVec 32) (s : State),
    Executes s core 0x0D lo.toNat →
    exec (.cmpi core lo) s = .next (passed (s.modCore core (fun c => setP c (fld lo.toNat 19 3) (condOf (fld lo.toNat 16 3) (getR (s.core core) (fld lo.toNat 11 5)) (imm 11 lo.toNat)))) core 1))
  ∧ (∀ (core : Nat) (lo : BitVec 32) (a b : Bool) (s : State),
    Executes s core 0x0E lo.toNat →
    fld lo.toNat 0 11 = 0 →
    (a = getP (s.core core) (fld lo.toNat 16 3) ∧ b = getP (s.core core) (fld lo.toNat 13 3)) →
    exec (.plog core lo) s = .next (passed (s.modCore core (fun c => setP c (fld lo.toNat 19 3)
    (if fld lo.toNat 11 2 = 0 then a && b else if fld lo.toNat 11 2 = 1 then a || b else if fld lo.toNat 11 2 = 2 then a != b else a && !b))) core 1))
  ∧ (∀ (core : Nat) (lo : BitVec 32) (s : State),
    Executes s core 0x0F lo.toNat →
    fld lo.toNat 0 16 = 0 →
    (bitAt lo.toNat 16 = false → exec (.pmov core lo) s = .next (passed (wrote s core (fRd lo.toNat) (BitVec.ofNat 64 (fld (s.core core).preds 1 7 * 2 + 1))) core 1))
    ∧ (bitAt lo.toNat 16 = true → exec (.pmov core lo) s = .next (passed (s.modCore core (fun c => { c with preds := fld (getR (s.core core) (fRd lo.toNat)).toNat 1 7 * 2 })) core 1)))

/-- Loads of IM, PDM and TSM write the bytes read, extended, at once; stores write exactly their bytes; CAS compares and swaps (spec/05_pynex_cores.md (R181, R182, R183, R184, R185, R187)). -/
def Obligations.PynexLoadsAndStoresComplete : Prop :=
  (∀ (core a : Nat) (lo : BitVec 32) (s : State),
    Executes s core 0x13 lo.toNat →
    a = mAddr (s.core core) lo.toNat →
    isLocal core a 8 = true →
    accessFault s core a 8 false = none →
    exec (.ld64 core lo) s = .next (passed (wrote s core (fRd lo.toNat) (extend 8 false (leNat (localRead s core a 8)))) core (localLatency core a 8)))
  ∧ (∀ (core a : Nat) (lo : BitVec 32) (s : State),
    Executes s core 0x12 lo.toNat →
    a = mAddr (s.core core) lo.toNat →
    isLocal core a 4 = true →
    accessFault s core a 4 false = none →
    exec (.ld32 core lo) s = .next (passed (wrote s core (fRd lo.toNat) (extend 4 false (leNat (localRead s core a 4)))) core (localLatency core a 4)))
  ∧ (∀ (core a : Nat) (lo : BitVec 32) (s : State),
    Executes s core 0x11 lo.toNat →
    a = mAddr (s.core core) lo.toNat →
    isLocal core a 2 = true →
    accessFault s core a 2 false = none →
    exec (.ld16 core lo) s = .next (passed (wrote s core (fRd lo.toNat) (extend 2 false (leNat (localRead s core a 2)))) core (localLatency core a 2)))
  ∧ (∀ (core a : Nat) (lo : BitVec 32) (s : State),
    Executes s core 0x10 lo.toNat →
    a = mAddr (s.core core) lo.toNat →
    isLocal core a 1 = true →
    accessFault s core a 1 false = none →
    exec (.ld8 core lo) s = .next (passed (wrote s core (fRd lo.toNat) (extend 1 false (leNat (localRead s core a 1)))) core (localLatency core a 1)))
  ∧ (∀ (core a : Nat) (lo : BitVec 32) (s : State),
    Executes s core 0x16 lo.toNat →
    a = mAddr (s.core core) lo.toNat →
    isLocal core a 4 = true →
    accessFault s core a 4 false = none →
    exec (.lds32 core lo) s = .next (passed (wrote s core (fRd lo.toNat) (extend 4 true (leNat (localRead s core a 4)))) core (localLatency core a 4)))
  ∧ (∀ (core a : Nat) (lo : BitVec 32) (s : State),
    Executes s core 0x15 lo.toNat →
    a = mAddr (s.core core) lo.toNat →
    isLocal core a 2 = true →
    accessFault s core a 2 false = none →
    exec (.lds16 core lo) s = .next (passed (wrote s core (fRd lo.toNat) (extend 2 true (leNat (localRead s core a 2)))) core (localLatency core a 2)))
  ∧ (∀ (core a : Nat) (lo : BitVec 32) (s : State),
    Executes s core 0x14 lo.toNat →
    a = mAddr (s.core core) lo.toNat →
    isLocal core a 1 = true →
    accessFault s core a 1 false = none →
    exec (.lds8 core lo) s = .next (passed (wrote s core (fRd lo.toNat) (extend 1 true (leNat (localRead s core a 1)))) core (localLatency core a 1)))
  ∧ (∀ (core a b : Nat) (lo : BitVec 32) (s : State),
    Executes s core 0x13 lo.toNat →
    a = mAddr (s.core core) lo.toNat →
    place core a 8 = .stack b →
    accessFault s core a 8 false = none →
    exec (.ld64 core lo) s = .next (s.modCore core (fun c => { c with act := .loading (fRd lo.toNat) 8 false a s.vcycle })))
  ∧ (∀ (core code : Nat) (lo : BitVec 32) (s : State),
    Executes s core 0x13 lo.toNat →
    accessFault s core (mAddr (s.core core) lo.toNat) 8 false = some code →
    exec (.ld64 core lo) s = .next (raiseExc s core code (mAddr (s.core core) lo.toNat)))
  ∧ (∀ (core rd n a since b : Nat) (v : BitVec 64) (s : State),
    (s.core core).act = .loading rd n false a since →
    place core a n = .stack b →
    accessWaits s b = false →
    lineBad s (b / 64 * 64) = false →
    exec (.loadDataReturn core (.ok v)) s = .next (s.modCore core (fun c => addCyc { setR c rd (extend n false (leNat (readStack s b n))) with pc := (c.pc + 4) % 2 ^ 64, act := .running } (max 400 (coreCycles core (s.vcycle - since))))))
  ∧ (∀ (core a : Nat) (lo : BitVec 32) (s : State),
    Executes s core 0x1B lo.toNat →
    a = mAddr (s.core core) lo.toNat →
    isLocal core a 8 = true →
    accessFault s core a 8 true = none →
    exec (.st64 core lo) s = .next (passed (localStore s core a (natLE 8 (getR (s.core core) (fRd lo.toNat)).toNat)) core 1))
  ∧ (∀ (core a : Nat) (lo : BitVec 32) (s : State),
    Executes s core 0x1A lo.toNat →
    a = mAddr (s.core core) lo.toNat →
    isLocal core a 4 = true →
    accessFault s core a 4 true = none →
    exec (.st32 core lo) s = .next (passed (localStore s core a (natLE 4 (getR (s.core core) (fRd lo.toNat)).toNat)) core 1))
  ∧ (∀ (core a : Nat) (lo : BitVec 32) (s : State),
    Executes s core 0x19 lo.toNat →
    a = mAddr (s.core core) lo.toNat →
    isLocal core a 2 = true →
    accessFault s core a 2 true = none →
    exec (.st16 core lo) s = .next (passed (localStore s core a (natLE 2 (getR (s.core core) (fRd lo.toNat)).toNat)) core 1))
  ∧ (∀ (core a : Nat) (lo : BitVec 32) (s : State),
    Executes s core 0x18 lo.toNat →
    a = mAddr (s.core core) lo.toNat →
    isLocal core a 1 = true →
    accessFault s core a 1 true = none →
    exec (.st8 core lo) s = .next (passed (localStore s core a (natLE 1 (getR (s.core core) (fRd lo.toNat)).toNat)) core 1))
  ∧ (∀ (core : Nat) (lo : BitVec 32) (a : Nat) (old : BitVec 64) (s : State),
    Executes s core 0x1C lo.toNat →
    fld lo.toNat 0 7 = 0 →
    a = (getR (s.core core) (fRs1 lo.toNat)).toNat →
    (a % 8 = 0 ∧ isLocal core a 8 = true ∧ regionOk core (s.core core) a 8 0 = true ∧ regionOk core (s.core core) a 8 1 = true) →
    old = BitVec.ofNat 64 (leNat (localRead s core a 8)) →
    (old = getR (s.core core) (fRd lo.toNat) → exec (.cas core lo) s = .next (passed (wrote (localStore s core a (natLE 8 (getR (s.core core) (fRs2 lo.toNat)).toNat)) core (fRd lo.toNat) old) core (localLatency core a 8)))
    ∧ (old ≠ getR (s.core core) (fRd lo.toNat) → exec (.cas core lo) s = .next (passed (wrote s core (fRd lo.toNat) old) core (localLatency core a 8))))
  ∧ (∀ (core : Nat) (lo : BitVec 32) (s : State),
    Executes s core 0x1D lo.toNat →
    fld lo.toNat 1 21 = 0 →
    exec (.fence core lo) s = .next (passed s core 1))

/-- BR, JR, ADR, CALL, RET, ERET and TRAP: where the pc goes, what the window does, and what an exception saves (spec/05_pynex_cores.md (R169, R170, R171, R179, R201, R205)). -/
def Obligations.PynexControlFlow : Prop :=
  (∀ (core : Nat) (lo : BitVec 32) (s : State),
    Executes s core 0x20 lo.toNat →
    exec (.br core lo) s = .next (jumped s core (pcPlus (s.core core).pc (sxt 22 lo.toNat)) 2))
  ∧ (∀ (core : Nat) (lo : BitVec 32) (s : State),
    Executes s core 0x21 lo.toNat →
    (fld lo.toNat 17 5 = 0 ∧ fld lo.toNat 0 12 = 0) →
    ((getR (s.core core) (fRs1 lo.toNat)).toNat % 4 = 0 → exec (.jr core lo) s = .next (jumped s core (getR (s.core core) (fRs1 lo.toNat)).toNat 2))
    ∧ ((getR (s.core core) (fRs1 lo.toNat)).toNat % 4 ≠ 0 → exec (.jr core lo) s = .next (raiseExc s core 0x04 (getR (s.core core) (fRs1 lo.toNat)).toNat)))
  ∧ (∀ (core : Nat) (lo : BitVec 32) (s : State),
    Executes s core 0x22 lo.toNat →
    exec (.adr core lo) s = .next (passed (wrote s core (fRd lo.toNat) (BitVec.ofNat 64 (pcPlus (s.core core).pc (sxt 17 lo.toNat)))) core 1))
  ∧ (∀ (core : Nat) (lo : BitVec 32) (t : Nat) (s : State),
    Executes s core 0x24 lo.toNat →
    bitAt lo.toNat 16 = false →
    ((s.core core).depth ≠ 65535 ∧ (s.core core).resident < 31) →
    t = (getR (s.core core) (fRd lo.toNat)).toNat →
    (t % 4 = 0 ∧ fetchOk core (s.core core) t = true) →
    exec (.call core lo) s = .next (jumped (s.modCore core (fun k =>
    setR { clearFrame { k with maskOf := mset k.maskOf k.depth (fld lo.toNat 0 16) 0 } (k.depth + 1) with
    depth := k.depth + 1, resident := min (k.resident + 1) 31 } 23 (BitVec.ofNat 64 ((s.core core).pc + 4)))) core t 2))
  ∧ (∀ (core : Nat) (lo : BitVec 32) (s : State),
    Executes s core 0x25 lo.toNat →
    fld lo.toNat 0 22 = 0 →
    (0 < (s.core core).depth ∧ (s.core core).resident ≠ 1) →
    exec (.ret core lo) s = .next (jumped (s.modCore core (fun k =>
    { clearFrame k k.depth with depth := k.depth - 1, resident := if k.resident = 1 then 1 else k.resident - 1 })) core (getR (s.core core) 23).toNat 2))
  ∧ (∀ (core : Nat) (lo : BitVec 32) (s : State),
    Executes s core 0x26 lo.toNat →
    fld lo.toNat 0 22 = 0 →
    (s.core core).inHandler = true →
    (0 < (s.core core).depth ∧ (s.core core).resident ≠ 1) →
    exec (.eret core lo) s = .next (jumped ((s.modCore core (fun k =>
    { clearFrame k k.depth with depth := k.depth - 1, resident := if k.resident = 1 then 1 else k.resident - 1 })).modCore core
    (fun k => { k with inHandler := false })) core (s.core core).epc 2))
  ∧ (∀ (core : Nat) (lo : BitVec 32) (s t : State),
    Executes s core 0x27 lo.toNat →
    fld lo.toNat 16 6 = 0 →
    ((s.core core).inHandler = false ∧ (s.core core).evec ≠ 0 ∧ (s.core core).resident < 31) →
    t = (s.modCore core (fun c => { c with epc := c.pc, ecause := 0x0A, eaddr := fld lo.toNat 0 16 })).modCore core (fun c => { c with maskOf := mset c.maskOf c.depth 0xFFFF 0 }) →
    exec (.trap core lo) s = .next (programFault (t.modCore core (fun c =>
    addCyc { clearFrame c (c.depth + 1) with depth := c.depth + 1, resident := min (c.resident + 1) 31, inHandler := true, pc := c.evec, act := .running } 4)) core (s.core core).pc 0x0A))

/-- STEP posts its descriptor or answers 0 at 64 outstanding; WAIT ends or waits on its sources; ALIVE counts; a stuck access stops the core (spec/05_pynex_cores.md (R189, R191, R192, R197, R207)). -/
def Obligations.PynexStepsAndWaits : Prop :=
  (∀ (core a : Nat) (lo : BitVec 32) (s : State),
    Executes s core 0x30 lo.toNat →
    core < 64 →
    a = mAddr (s.core core) lo.toNat →
    (a % 64 = 0 ∧ isLocal core a 64 = true ∧ regionOk core (s.core core) a 64 0 = true) →
    ((s.core core).stepsOut < 64 → exec (.step core lo) s = .next (passed (wrote (postStep s core (BitVec.ofNat 512 (leNat (localRead s core a 64))))
    core (fRd lo.toNat) 1#64) core 8))
    ∧ (64 ≤ (s.core core).stepsOut → exec (.step core lo) s = .next (passed (wrote s core (fRd lo.toNat) 0#64) core 8)))
  ∧ (∀ (core sel us p : Nat) (lo : BitVec 32) (s : State),
    Executes s core 0x31 lo.toNat →
    (sel = (getR (s.core core) (fRs1 lo.toNat)).toNat ∧ us = (getR (s.core core) (fRs2 lo.toNat)).toNat % 2 ^ 32) →
    (fld lo.toNat 0 7 = 0 ∧ sel < 16) →
    (bitAt sel 2 = true → watchOk core (s.core core) = true) →
    p = Nat.land (pendingSrc s core) sel →
    (p ≠ 0 → exec (.wait core lo) s = .next (passed (wrote s core (fRd lo.toNat) (BitVec.ofNat 64 p)) core 1))
    ∧ (p = 0 ∧ sel = 0 ∧ us = 0 → exec (.wait core lo) s = .next (passed (wrote s core (fRd lo.toNat) 0#64) core 1))
    ∧ (p = 0 ∧ ¬ (sel = 0 ∧ us = 0) → exec (.wait core lo) s = .next (s.modCore core (fun k =>
    { k with act := .waiting (fRd lo.toNat) sel (if us = 0 then none else some (s.vcycle + us * usCycles)) s.vcycle }))))
  ∧ (∀ (core rd sel since : Nat) (s : State),
    (s.core core).act = .waiting rd sel none since →
    Nat.land (pendingSrc s core) sel ≠ 0 →
    exec (.waitWake core) s = .next (s.modCore core (fun k => addWait { setR k rd (BitVec.ofNat 64 (Nat.land (pendingSrc s core) sel)) with pc := (k.pc + 4) % 2 ^ 64, act := .running } (coreCycles core (s.vcycle - since)))))
  ∧ (∀ (core : Nat) (lo : BitVec 32) (s : State),
    Executes s core 0x34 lo.toNat →
    fld lo.toNat 1 16 = 0 →
    (bitAt lo.toNat 0 = true → exec (.alive core lo) s = .next (passed (s.modCore core (fun k =>
    setR { k with alive := ((s.core core).alive + 1) % 2 ^ 32, slack := 0 } (fRd lo.toNat) (BitVec.ofNat 64 (((s.core core).alive + 1) % 2 ^ 32)))) core 1))
    ∧ (bitAt lo.toNat 0 = false → exec (.alive core lo) s = .next (passed (wrote s core (fRd lo.toNat) (BitVec.ofNat 64 (s.core core).alive)) core 1)))
  ∧ (∀ (core a since : Nat) (s : State),
    (s.core core).act = .stuck a since →
    exec (.stuckAccess core) s = .next (raiseExc (advanceTo s (since + msCycles)) core 0x0E a))

/-- LOCK, its grant and UNLOCK follow the lock's holder and broken mark; control registers read and write as Table 5-11 says (spec/05_pynex_cores.md (R190, R193, R194, R195, R196, R198, R199)). -/
def Obligations.PynexLocksAndControlRegisters : Prop :=
  (∀ (core n : Nat) (lo : BitVec 32) (s : State),
    Executes s core 0x32 lo.toNat →
    n = (getR (s.core core) (fRs1 lo.toNat)).toNat →
    (fld lo.toNat 1 11 = 0 ∧ n ≤ 1023) →
    locksHeld s core < 16 →
    ((s.lockReg n).holder = none ∧ rotPick 66 (s.lockReg n).ptr (core :: lockClaims s n) = some core →
    exec (.lock core lo) s = .next (passed (wrote (s.modLock n (fun l => { l with holder := some core, broken := false, ptr := (core + 1) % 66 }))
    core (fRd lo.toNat) (BitVec.ofNat 64 (1 + b2n (s.lockReg n).broken * 2))) core 20))
    ∧ (∀ k, (s.lockReg n).holder = some k → k ≠ core →
    (bitAt lo.toNat 0 = true → exec (.lock core lo) s = .next (s.modCore core (fun k => { k with act := .locking (fRd lo.toNat) n s.vcycle })))
    ∧ (bitAt lo.toNat 0 = false → exec (.lock core lo) s = .next (passed (wrote s core (fRd lo.toNat) (BitVec.ofNat 64 (b2n (s.lockReg n).broken * 2))) core 20))))
  ∧ (∀ (core n : Nat) (lo : BitVec 32) (s : State),
    Executes s core 0x32 lo.toNat →
    n = (getR (s.core core) (fRs1 lo.toNat)).toNat →
    fld lo.toNat 1 11 = 0 →
    (1023 < n ∨ (s.lockReg n).holder = some core ∨ 16 ≤ locksHeld s core) →
    exec (.lock core lo) s = .next (raiseExc s core 0x07 n))
  ∧ (∀ (n core rd m since : Nat) (s : State),
    (s.lockReg n).holder = none →
    rotPick 66 (s.lockReg n).ptr (lockClaims s n) = some core →
    (s.core core).act = .locking rd m since →
    exec (.lockGrant n) s = .next ((grantLock s n core).1.modCore core (fun k =>
    addWait { setR k rd (grantLock s n core).2 with pc := (k.pc + 4) % 2 ^ 64, act := .running } (coreCycles core (s.vcycle - since)))))
  ∧ (∀ (core n : Nat) (lo : BitVec 32) (s : State),
    Executes s core 0x33 lo.toNat →
    n = (getR (s.core core) (fRs1 lo.toNat)).toNat →
    (fld lo.toNat 17 5 = 0 ∧ fld lo.toNat 0 12 = 0) →
    (n ≤ 1023 ∧ (s.lockReg n).holder = some core → exec (.unlock core lo) s = .next (passed (s.modLock n (fun l => { l with holder := none })) core 1))
    ∧ (1023 < n ∨ (s.lockReg n).holder ≠ some core → exec (.unlock core lo) s = .next (raiseExc s core 0x07 n)))
  ∧ (∀ (core x : Nat) (c2 : Core) (lo : BitVec 32) (s : State),
    Executes s core 0x36 lo.toNat →
    (fld lo.toNat 12 5 = 0 ∧ readCsr s core (fld lo.toNat 0 12) = some (x, c2)) →
    exec (.csrr core lo) s = .next (passed (s.modCore core (fun _ => setR c2 (fRd lo.toNat) (BitVec.ofNat 64 x))) core 2))
  ∧ (∀ (core : Nat) (lo : BitVec 32) (e : Nat × Nat) (r : List (Nat × Nat)) (s : State),
    Executes s core 0x36 (setFld lo.toNat 0 17 0x019) →
    (s.core core).scq = e :: r →
    exec (.scqPop core lo) s = .next (passed (s.modCore core (fun c => setR { c with scq := r, stepsOut := c.stepsOut - 1 } (fRd (setFld lo.toNat 0 17 0x019)) (BitVec.ofNat 64 e.2))) core 2))
  ∧ (∀ (core : Nat) (lo : BitVec 32) (m : Mbox) (ms : List Mbox) (s : State),
    Executes s core 0x36 (setFld lo.toNat 0 17 0x01A) →
    (s.core core).mbox = m :: ms →
    exec (.mboxPop core lo) s = .next (passed (s.modCore core (fun c => setR { c with mbox := ms } (fRd (setFld lo.toNat 0 17 0x01A)) (BitVec.ofNat 64 (mboxWord m)))) core 2))
  ∧ (∀ (core : Nat) (lo : BitVec 32) (s : State),
    Executes s core 0x37 lo.toNat →
    fld lo.toNat 12 5 = 0 →
    (fld lo.toNat 0 12 = 0x008 → exec (.csrw core lo) s = .next (passed (s.modCore core (fun k => { k with epc := (getR (s.core core) (fRd lo.toNat)).toNat })) core 2))
    ∧ (fld lo.toNat 0 12 = 0x012 → exec (.csrw core lo) s = .next (passed (s.modCore core (fun k => { k with timerCmp := (getR (s.core core) (fRd lo.toNat)).toNat })) core 2))
    ∧ (fld lo.toNat 0 12 = 0x013 → exec (.csrw core lo) s = .next (passed (s.modCore core (fun k => { k with watchAddr := (getR (s.core core) (fRd lo.toNat)).toNat })) core 2))
    ∧ (fld lo.toNat 0 12 = 0x014 → exec (.csrw core lo) s = .next (passed (s.modCore core (fun k => { k with watchVal := (getR (s.core core) (fRd lo.toNat)).toNat, watchHit := false })) core 2))
    ∧ (fld lo.toNat 0 12 = 0x000 → exec (.csrw core lo) s = .next (raiseExc s core 0x01 (wordOf 0x37 lo.toNat))))

/-- A stopped core reloads or is FAILED at its third stop in 10 s; a reload restores its ring pairs; siblings adopt a FAILED core's (spec/06_firmware_and_collectives.md (R209, R233, R234, R235, R236)). -/
def Obligations.CoreStopsReloadsAndAdoption : Prop :=
  (∀ (c : Nat) (near : List Nat) (s : State),
    c < 64 →
    (s.core c).act = .stopped →
    (s.core c).st = .running →
    near = (s.core c).stops.filter (fun t => s.vcycle < t + tenSeconds) →
    exec (.coreStop c) s = .next (settleProg ((holdAll (breakLocks s c) c).modCore c (fun k => { k with act := .stopped, st := if 2 ≤ near.length then .failed else .reloading, lastCause := fld (s.core c).ecause 0 8, stops := near ++ [s.vcycle], heldSince := s.vcycle, newImage := k.newImage, adopted := false }))))
  ∧ (∀ (c : Nat) (s : State),
    (64 ≤ c ∧ c < 66) →
    (s.core c).act = .stopped →
    lget s.fw.dkUp (c - 64) false = true →
    exec (.coreStop c) s = .next (stopKeeper s (c - 64) (fld (s.core c).ecause 0 8)))
  ∧ (∀ (c : Nat) (f : Codeword) (s u : State),
    (c < 64 ∧ activeUp s = true) →
    (s.core c).st = .reloading →
    (s.core c).journaled = false →
    u = replayLaunch (unholdAll (s.modCore c (fun k => { freshCore s c k with st := .running, restarts := satAdd 8 k.restarts 1 })) c) c →
    exec (.coreReloadComplete c f) s = .next (postAll (settleProg u) bothPf1 0x1301 c ((s.core c).lastCause + (s.vcycle - (s.core c).heldSince) / usCycles % 2 ^ 16 * 2 ^ 16)))
  ∧ (∀ (c : Nat) (s : State),
    c < 64 →
    (s.core c).st = .failed →
    (s.core c).adopted = false →
    exec (.coreFailedAdoption c) s = .next (postAll (moveComms (passRings ((endAllLaunches s c 0x0B).modCore c (fun k => { k with adopted := true })) c).1 c) bothPf1 0x1302 c
    ((s.core c).lastCause + (passRings ((endAllLaunches s c 0x0B).modCore c (fun k => { k with adopted := true })) c).2.getD 0xFF * 2 ^ 8)))
  ∧ (∀ (s u : State),
    u = advanceTo s ((s.vcycle / (250 * usCycles) + 1) * (250 * usCycles)) →
    activeUp u = false →
    (keeperUp u 0 = false ∧ keeperUp u 1 = false) →
    exec .aliveSample s = .next u)

/-- Keeper failover, reload and ROM restart; drain requests, hand-offs and adoption of a replacement's new image (spec/06_firmware_and_collectives.md (R210, R213, R237, R238, R239, R240)). -/
def Obligations.KeepersAndHandoffs : Prop :=
  (∀ (s u : State),
    (keeperUp s s.fw.active = false ∧ keeperUp s (1 - s.fw.active) = true) →
    u = (if lget s.fw.dkUp s.fw.active false then stopKeeper s s.fw.active (fld (s.core (64 + s.fw.active)).ecause 0 8) else s) →
    exec .keeperFailover s = .next (postAll (takePf0Rings { u with fw := { u.fw with active := 1 - s.fw.active, failovers := satAdd 8 u.fw.failovers 1 } } s.fw.active (1 - s.fw.active)) bothPf1 0x1305 (64 + (1 - s.fw.active)) (1 - s.fw.active)))
  ∧ (∀ (s : State),
    activeUp s = true →
    keeperUp s (1 - s.fw.active) = false →
    exec .keeperReloadComplete s = .next ((startKeeper s (1 - s.fw.active)).modCore (64 + (1 - s.fw.active)) (fun k => { k with restarts := satAdd 8 k.restarts 1 })))
  ∧ (∀ (s : State),
    (s.power.romDone = true ∧ s.fw.bothDown = false) →
    (lget s.fw.dkUp 0 false = false ∧ lget s.fw.dkUp 1 false = false) →
    exec .romKeeperRestart s = .next { advanceTo s (s.fw.kickAt + 5 * msCycles) with fw := { s.fw with bothDown := true } })
  ∧ (∀ (s u : State),
    (s.power.romDone = true ∧ s.fw.bothDown = false) →
    u = [0, 1].foldl (fun s n => if lget s.fw.dkUp n false then stopKeeper s n (s.core (64 + n)).lastCause else s) (advanceTo s (s.fw.kickAt + 5 * msCycles)) →
    exec .romKeeperRestart s = .next { u with fw := { u.fw with bothDown := true } })
  ∧ (∀ (c : Nat) (r : Repl) (s : State),
    s.fw.repl = some r →
    (activeUp s = true ∧ r.todo.head? = some c) →
    ((s.core c).st = .running ∧ c < 64) →
    exec (.drainRequest c) s = .next ((keeperWord s c 1).modCore c (fun k => { k with st := .draining, drainSince := s.vcycle })))
  ∧ (∀ (c : Nat) (s : State),
    (s.core c).st = .draining →
    activeUp s = true →
    exec (.drainCancel c) s = .next (replFail ((keeperWord (keeperWord s c 2) c 0).modCore c (fun k => { k with st := .running })) c))
  ∧ (∀ (c : Nat) (s : State),
    (s.core c).st = .draining →
    tileLeaving s c = false →
    exec (.handoffTimeout c) s = .next (replFail ((keeperWord (advanceTo s ((s.core c).drainSince + 100 * msCycles)) c 0).modCore c (fun k => { k with st := .running })) c))
  ∧ (∀ (c : Nat) (s u : State),
    ((s.core c).st = .draining ∧ c < 64) →
    atService (s.core c) = true →
    tileLeaving s c = false →
    u = holdAll (breakLocks (keeperWord s c 0) c) c →
    exec (.handoffRecord c) s = .next (u.modCore c (fun k => { freshCore u c { k with newImage := !k.newImage } with st := .swapping })))
  ∧ (∀ (c : Nat) (s : State),
    (s.core c).st = .swapping →
    exec (.swapAdopt c) s = .next (settleProg (replNext (replayLaunch (unholdAll (s.modCore c (fun k => { k with st := .running })) c) c) c)))

/-- A runtime service call of a running launch does what the service is for, journals its results and returns them in the exchange registers (spec/06_firmware_and_collectives.md (R220, R221, R222, R223, R224, R606)). -/
def Obligations.RuntimeServicesAnswer : Prop :=
  (∀ (core d tag : Nat) (l : Launch) (m : Comm) (a : List Nat) (s : State),
    Calls s core 0 l m →
    a = [(mget (s.core core).x 0 0#64).toNat] →
    (lget a 0 0 % 64 = 0 ∧ pdm64 s core (lget a 0 0) = some d) →
    tag = l.stepSeq + 1 →
    (64 ≤ (s.core core).stepsOut → exec (.rtStep core) s = .next (returned s core 0 l a [1, 0]))
    ∧ ((s.core core).stepsOut < 64 → exec (.rtStep core) s = .next (returned (postStep (modRunning s core (fun l => { l with stepSeq := tag })) core (BitVec.ofNat 512 (setFld d 32 32 tag))) core 0 l a [0, tag])))
  ∧ (∀ (core : Nat) (l : Launch) (m : Comm) (w : Nat × Nat) (rest : List (Nat × Nat)) (s : State),
    Calls s core 1 l m →
    isLibrary l.progId = false →
    (s.core core).scq = w :: rest →
    exec (.rtReap core) s = .next (returned (modRunning (s.modCore core (fun c => { c with scq := rest, stepsOut := c.stepsOut - 1 })) core (absorbStep w)) core 1 l
    [(mget (s.core core).x 0 0#64).toNat] [w.1, w.2]))
  ∧ (∀ (core node len : Nat) (l : Launch) (m : Comm) (q : Qp) (a : List Nat) (s : State),
    Calls s core 2 l m →
    a = (List.range 5).map (fun i => (mget (s.core core).x i 0#64).toNat) →
    (node = lget a 0 0 ∧ len = lget a 3 0) →
    (node < m.nodes ∧ node ≠ m.nodeIndex ∧ len % 64 = 0 ∧ len ≤ 2 ^ 31) →
    oget s.rdma.qps (lget m.peers node (0, 0, 0)).1 = some q →
    (q.st = .rts ∧ 2 ^ q.sqLog ≤ q.sends.length) →
    exec (.rtPut core) s = .next (returned s core 2 l a [1]))
  ∧ (∀ (core n : Nat) (l : Launch) (m : Comm) (a : List Nat) (s : State),
    Calls s core 3 l m →
    a = (List.range 2).map (fun i => (mget (s.core core).x i 0#64).toNat) →
    n = mget m.arrived (lget a 0 0) 0 - mget l.arrived (lget a 0 0) 0 →
    (n ≠ 0 ∨ lget a 1 0 = 0) →
    exec (.rtArrived core) s = .next (returned s core 3 l a [n]))
  ∧ (∀ (core : Nat) (x : ARead) (l : Launch) (m : Comm) (a : List Nat) (s : State),
    Calls s core 4 l m →
    a = (List.range 3).map (fun i => (mget (s.core core).x i 0#64).toNat) →
    lget a 2 0 % 64 ≠ 0 →
    exec (.rtMove core x) s = .next (returned s core 4 l a [0x06]))
  ∧ (∀ (core : Nat) (x : ARead) (l : Launch) (m : Comm) (a : List Nat) (src dst : Nat ⊕ (Nat × Nat × Nat)) (bs : List Byte) (s u : State),
    Calls s core 4 l m →
    a = (List.range 3).map (fun i => (mget (s.core core).x i 0#64).toNat) →
    (lget a 2 0 % 64 = 0 ∧ lget a 2 0 ≠ 0) →
    (moveAt m (lget a 0 0) (lget a 2 0) = some src ∧ moveAt m (lget a 1 0) (lget a 2 0) = some dst) →
    moveRead s src (lget a 2 0) x = (u, 0, bs) →
    exec (.rtMove core x) s = .next (returned (moveWrite u dst bs).1 core 4 l a [(moveWrite u dst bs).2]))
  ∧ (∀ (core d : Nat) (l : Launch) (m : Comm) (a : List Nat) (s u : State),
    Calls s core 5 l m →
    a = [(mget (s.core core).x 0 0#64).toNat] →
    pdm64 s core (lget a 0 0) = some d →
    notifyPorts l d s 0 (ranksOf m) = (u, 0) →
    exec (.rtNotify core) s = .next (returned u core 5 l a []))
  ∧ (∀ (core st : Nat) (l l1 : Launch) (m : Comm) (s u : State),
    Calls s core 6 l m →
    u = modRunning s core (fun l => (s.core core).scq.foldl (fun l w => absorbStep w l) l) →
    runningLaunch (u.core core) = some l1 →
    st = (mget (s.core core).x 0 0#64).toNat % 256 →
    exec (.rtFinish core) s = .next (tellAlive (endLaunch u core st (if st = 0 then launchResult l1 else 0)) core))
  ∧ (∀ (core : Nat) (l : Launch) (m : Comm) (s : State),
    Calls s core 7 l m →
    exec (.rtYield core) s = .next (returned s core 7 l [] []))

/-- PROG_LOAD, PROG_UNLOAD, COMM_CREATE, COMM_CONNECT, COMM_DESTROY, COLL_LAUNCH and COLL_ABORT complete as their rules say (spec/06_firmware_and_collectives.md (R216, R217, R220, R225, R226, R227, R228, R229)). -/
def Obligations.ProgramsAndCommunicators : Prop :=
  (∀ (r i : Nat) (x : HRead) (e : Fetched) (s : State),
    Starts s r i 0x13 0x01 e →
    isVf r = true →
    exec (.progLoad r i x) s = .next (answered (bad (begun s r i e) 0x0E) (refOf r i e)))
  ∧ (∀ (r i n : Nat) (data : List Byte) (e : Fetched) (s u : State),
    Starts s r i 0x13 0x01 e →
    isVf r = false →
    (fld e.desc.toNat 64 64 % 64 = 0 ∧ 256 ≤ fld e.desc.toNat 128 32 ∧ fld e.desc.toNat 128 32 ≤ 2 ^ 20) →
    rdHost (begun s r i e) r (fld e.desc.toNat 128 32) (.ok data) = (0, data) →
    headerOk (leNat (data.take 256)) (fld e.desc.toNat 128 32) = true →
    codeBanned ((sliceB data 256 (fld (leNat (data.take 256)) 80 16)).length / 4) (sliceB data 256 (fld (leNat (data.take 256)) 80 16)) = false →
    s.trust.installer.any (fun k => hssVerify k.pub (data.drop (fld (leNat (data.take 256)) 160 32)) (data.take (fld (leNat (data.take 256)) 160 32))) = true →
    s.fw.slots.any (fun p => p.2.progId == fld (leNat (data.take 256)) 48 16) = false →
    lowestFree s.fw.slots 5 12 = some n →
    auditRec (begun s r i e) 0x0300 2 r 0 (0x13 + fld (leNat (data.take 256)) 48 16 * 2 ^ 16) = some u →
    exec (.progLoad r i (.ok data)) s = .next (answered (progDone (writeSlot { u with fw := { u.fw with slots := oput u.fw.slots n { progId := fld (leNat (data.take 256)) 48 16, ranked := bitAt (leNat (data.take 256)) 64, entry := fld (leNat (data.take 256)) 128 32, code := sliceB data 256 (fld (leNat (data.take 256)) 80 16), data := sliceB data (256 + fld (leNat (data.take 256)) 80 16) (fld (leNat (data.take 256)) 96 16) } } }
    n (sliceB data 256 (fld (leNat (data.take 256)) 80 16))) (refOf r i e) (fld (leNat (data.take 256)) 48 16 + n * 2 ^ 16)) (refOf r i e)))
  ∧ (∀ (r i n : Nat) (x : Slot) (e : Fetched) (s u : State),
    Starts s r i 0x13 0x02 e →
    outranked s r i = false →
    isVf r = false →
    isLibrary (fld e.desc.toNat 64 16) = false →
    s.fw.slots.find? (fun p => p.2.progId == fld e.desc.toNat 64 16) = some (n, x) →
    progUsers s (fld e.desc.toNat 64 16) = 0 →
    contradicted (begun s r i e) r 0x13 (fld e.desc.toNat 64 16) 1 = none →
    u = noteDone (begun s r i e) r 0x13 (fld e.desc.toNat 64 16) 1 →
    exec (.progUnload r i) s = .next (answered (progDone (writeSlot { u with fw := { u.fw with slots := odel u.fw.slots n } } n []) (refOf r i e) 0) (refOf r i e)))
  ∧ (∀ (r i c base x g : Nat) (e : Fetched) (s u : State),
    Starts s r i 0x13 0x03 e →
    outranked s r i = false →
    (progSlot s (fld e.desc.toNat 64 16)).isSome = true →
    (nodesOk (fld e.desc.toNat 64 16) (fld e.desc.toNat 80 16) = true ∧ fld e.desc.toNat 96 16 < fld e.desc.toNat 80 16 ∧ fld e.desc.toNat 112 8 ≠ 0 ∧ 1 ≤ fld e.desc.toNat 128 16 ∧ fld e.desc.toNat 128 16 ≤ 4096) →
    contradicted (begun s r i e) r 0x13 (fld e.desc.toNat 64 16) 2 = none →
    u = noteDone (begun s r i e) r 0x13 (fld e.desc.toNat 64 16) 2 →
    (lowestFree u.fw.comms 0 1024 = some c ∧ placeStaging u (u.ring r i).owner (fld e.desc.toNat 128 16 * 2 ^ 20) = some base ∧ lowestFree u.rdma.mrs 0 (2 ^ 20) = some x) →
    g = (mget u.rdma.mrGen x 0 + 1) % 256 →
    exec (.commCreate r i) s = .next (finish { u.modRdma (fun y => { y with mrs := oput y.mrs x { own := u.ownOf r, pd := 65536, gen := g, access := 0b0111, length := fld e.desc.toNat 128 16 * 2 ^ 20, base := base, staging := true }, mrGen := mset y.mrGen x g 0 }) with fw := { u.fw with comms := oput u.fw.comms c { own := u.ownOf r, ring := i, home := (u.ring r i).owner, progId := fld e.desc.toNat 64 16, nodes := fld e.desc.toNat 80 16, nodeIndex := fld e.desc.toNat 96 16, localPorts := fld e.desc.toNat 112 8, stagingMib := fld e.desc.toNat 128 16, stagingBase := base, rkey := g + x * 256, connected := fld e.desc.toNat 80 16 == 1 } } }
    (refOf r i e) 0 (c + (u.ring r i).owner % 128 * 2 ^ 16 + (g + x * 256) * 2 ^ 32) 0))
  ∧ (∀ (r i : Nat) (x : HRead) (m : Comm) (e : Fetched) (s : State),
    Starts s r i 0x13 0x04 e →
    oget s.fw.comms (fld e.desc.toNat 64 16) = some m →
    (owns s r m.own = true ∧ m.ring = i) →
    (m.nodes = 1 ∧ m.nodeIndex = 0) →
    (rdHost (begun s r i e) r 16 x).1 = 0 →
    leNat (sliceB (rdHost (begun s r i e) r 16 x).2 0 16) = 0 →
    tooManyBound (begun s r i e) [] = false →
    exec (.commConnect r i x) s = .next (finish (let t := bindMark (unbindMark (begun s r i e) (fld e.desc.toNat 64 16)) [] (fld e.desc.toNat 64 16);
    { t with fw := { t.fw with comms := omod t.fw.comms (fld e.desc.toNat 64 16) (fun m => { m with connected := true, peers := [(0, 0, 0)] }) } }) (refOf r i e) 0 0 0))
  ∧ (∀ (r i : Nat) (m : Comm) (e : Fetched) (s : State),
    Starts s r i 0x13 0x05 e →
    oget s.fw.comms (fld e.desc.toNat 64 16) = some m →
    (owns s r m.own = true ∧ m.ring = i) →
    (allLaunches s).any (fun l => l.2.comm == fld e.desc.toNat 64 16) = false →
    exec (.commDestroy r i) s = .next (answered (ok0 (dropComm (begun s r i e) (fld e.desc.toNat 64 16) m)) (refOf r i e)))
  ∧ (∀ (r i n : Nat) (m : Comm) (args : List Nat) (e : Fetched) (s u : State),
    Starts s r i 0x13 0x06 e →
    oget s.fw.comms (fld e.desc.toNat 64 16) = some m →
    (owns s r m.own = true ∧ m.ring = i ∧ m.connected = true) →
    launchFieldsOk e.desc.toNat = true →
    (n = (if m.launchSeq + 1 = 2 ^ 32 then 1 else m.launchSeq + 1) ∧ args = (List.range 4).map (fun k => fld e.desc.toNat (256 + 64 * k) 64)) →
    u = begun s r i e →
    exec (.collLaunch r i) s = .next (State.modCore { u with fw := { u.fw with comms := omod u.fw.comms (fld e.desc.toNat 64 16) (fun m => { m with launchSeq := n }) } } m.home (fun k => { k with launches := k.launches ++
    [{ ref := refOf r i e, own := u.ownOf r, tag := userTag e.desc.toNat, comm := fld e.desc.toNat 64 16, progId := m.progId, op := fld e.desc.toNat 80 2, sat := bitAt e.desc.toNat 82, inFmt := fld e.desc.toNat 84 4, outFmt := fld e.desc.toNat 88 4, notifyWin := fld e.desc.toNat 92 4, notifyOff := fld e.desc.toNat 96 32, elements := fld e.desc.toNat 128 32, args := args, entryX := args ++ [fld e.desc.toNat 128 32, fld e.desc.toNat 80 12, m.nodes + m.nodeIndex * 2 ^ 16, m.localPorts], seqNo := n }] })))
  ∧ (∀ (core slot entry : Nat) (m : Comm) (l : Launch) (rest : List Launch) (s : State),
    (canRun s core = true ∧ compOf core = 4) →
    runningLaunch (s.core core) = none →
    (s.core core).launches = l :: rest →
    (oget s.fw.comms l.comm = some m ∧ progSlot s l.progId = some (slot, entry)) →
    (isLibrary l.progId && !libArgsOk m l) = false →
    exec (.launchStart core) s = .next (enterProgram (loadData (s.modCore core (fun k => { k with launches := { l with running := true, arrived := m.arrived } :: rest })) core l) core { l with running := true, arrived := m.arrived } slot entry))
  ∧ (∀ (r i c : Nat) (m : Comm) (l : Launch) (e : Fetched) (s u : State),
    Picks s r i 0x13 0x07 e →
    u = unorder (begun s r i e) (refOf r i e) →
    oget u.fw.comms (fld e.desc.toNat 64 16) = some m →
    (owns u r m.own = true ∧ m.ring = i) →
    firstPosted ((allLaunches u).filter (fun l => l.2.ref.fn == r && l.2.ref.ring == i && l.2.own == (begun s r i e).ownOf r && l.2.tag == fld e.desc.toNat 96 32)) = some (c, l) →
    exec (.collAbort r i) s = .next (if l.running then endLaunch (finish u (refOf r i e) 0 1 0) c 0x08 0 else endQueued (finish u (refOf r i e) 0 1 0) c l.ref 0x08))
  ∧ (∀ (r i : Nat) (m : Comm) (e : Fetched) (s u : State),
    Picks s r i 0x13 0x07 e →
    u = unorder (begun s r i e) (refOf r i e) →
    oget u.fw.comms (fld e.desc.toNat 64 16) = some m →
    (owns u r m.own = true ∧ m.ring = i) →
    firstPosted ((allLaunches u).filter (fun l => l.2.ref.fn == r && l.2.ref.ring == i && l.2.own == (begun s r i e).ownOf r && l.2.tag == fld e.desc.toNat 96 32)) = none →
    fetchedLaunch u r i (fld e.desc.toNat 96 32) = none →
    exec (.collAbort r i) s = .next (finish u (refOf r i e) 0 0 0))
  ∧ (∀ (r i : Nat) (m : Comm) (e e' : Fetched) (s u : State),
    Picks s r i 0x13 0x07 e →
    u = unorder (begun s r i e) (refOf r i e) →
    oget u.fw.comms (fld e.desc.toNat 64 16) = some m →
    (owns u r m.own = true ∧ m.ring = i) →
    firstPosted ((allLaunches u).filter (fun l => l.2.ref.fn == r && l.2.ref.ring == i && l.2.own == (begun s r i e).ownOf r && l.2.tag == fld e.desc.toNat 96 32)) = none →
    fetchedLaunch u r i (fld e.desc.toNat 96 32) = some e' →
    exec (.collAbort r i) s = .next (finish (finish u (refOf r i e) 0 1 0) (refOf r i e') 0x08 0 0))

/-- Each class and sequence command of a KV_TIERING ring, with its checks met, makes its change and completes with 0x00 (spec/07_kv_tiering.md (R242, R249, R250, R251, R255, R261, R262, R263, R264)). -/
def Obligations.KvClassesAndSequencesComplete : Prop :=
  (∀ (r i : Nat) (c : KvClass) (e : Fetched) (s : State),
    Starts s r i 0x14 0x01 e →
    (outranked s r i = false ∧ isVf r = false) →
    s.kv.seqs.any (fun q => q.2.cls == fld e.desc.toNat 64 6) = false →
    c = { encoding := fld e.desc.toNat 70 4, raw := bitAt e.desc.toNat 74, blockLog2 := fld e.desc.toNat 75 5, t1 := fld e.desc.toNat 80 6, t2 := fld e.desc.toNat 86 6, t3 := fld e.desc.toNat 92 6, shift := sxt 6 (fld e.desc.toNat 98 6), promote := bitAt e.desc.toNat 104 } →
    (c.encoding = 1 ∧ c.shift = 0 ∧ 14 ≤ c.blockLog2 ∧ c.blockLog2 ≤ 20) →
    (clsPool c 1 = some 0 ∧ clsPool c 2 = none ∧ clsPool c 3 = none) →
    (s.kv.committed = true ∧ (s.pool 0).kind = 1 ∧ storedBytes c.encoding (blockBytes c) ≤ (s.pool 0).slot4k * 4096) →
    contradicted (begun s r i e) r 0x14 (fld e.desc.toNat 64 6) (fld e.desc.toNat 70 35) = none →
    exec (.classSet r i) s = .next (finish ((noteDone (begun s r i e) r 0x14 (fld e.desc.toNat 64 6) (fld e.desc.toNat 70 35)).modKv (fun k => { k with classes := oput k.classes (fld e.desc.toNat 64 6) c })) (refOf r i e) 0 0 0))
  ∧ (∀ (r i : Nat) (e : Fetched) (s : State),
    Starts s r i 0x14 0x01 e →
    (outranked s r i = false ∧ isVf r = true) →
    exec (.classSet r i) s = .next (finish (begun s r i e) (refOf r i e) 0x0E 0 0))
  ∧ (∀ (r i ix a : Nat) (img : List Byte) (e : Fetched) (s u : State),
    Starts s r i 0x14 0x02 e →
    ((oget s.kv.classes (fld e.desc.toNat 168 6)).isSome = true ∧ s.kv.committed = true ∧ (s.t0p (fld e.desc.toNat 164 3)).enable = true ∧ (s.kcls (fld e.desc.toNat 168 6)).blockLog2 ≤ (s.t0p (fld e.desc.toNat 164 3)).slotLog2) →
    u = (begun s r i e) →
    tableOk u r (fld e.desc.toNat 164 3) (fld e.desc.toNat 160 4) (fld e.desc.toNat 192 64) (fld e.desc.toNat 256 19) = 0 →
    lowestFree s.kv.seqs 0 4096 = some ix →
    targetAddr u (fld e.desc.toNat 164 3) (fld e.desc.toNat 160 4) (fld e.desc.toNat 192 64) (4 * fld e.desc.toNat 256 19) true = some a →
    img = (List.range (fld e.desc.toNat 256 19)).flatMap (fun _ => natLE 4 noEntry) →
    exec (.seqOpen r i) s = .next (engineWrites (u.modKv (fun k => { k with
    seqs := oput k.seqs ix { own := u.ownOf r, cls := fld e.desc.toNat 168 6, port := fld e.desc.toNat 164 3, window := fld e.desc.toNat 160 4, offset := fld e.desc.toNat 192 64, maxBlocks := fld e.desc.toNat 256 19, gen := (mget s.kv.seqGen ix 0 + 1) % 256 },
    seqGen := mset k.seqGen ix ((mget s.kv.seqGen ix 0 + 1) % 256) 0, tables := oput k.tables s.kv.nextTable ((refOf r i e), handleOf ix ((mget s.kv.seqGen ix 0 + 1) % 256)), nextTable := s.kv.nextTable + 1 }))
    (fld e.desc.toNat 164 3) 2 (.table s.kv.nextTable) a img))
  ∧ (∀ (r i ix n mx : Nat) (q : Seq) (e : Fetched) (s u : State),
    Starts s r i 0x14 0x03 e →
    (seqOfHandle s (fld e.desc.toNat 64 20) = some (ix, q) ∧ owns s r q.own = true) →
    (n = fld e.desc.toNat 96 32 ∧ mx = fld e.desc.toNat 256 19 ∧ n ≤ q.blocks.length ∧ n ≤ mx) →
    (q.blocks.take n).any (fun b => (s.blk b).st == .fresh) = false →
    (u = (begun s r i e) ∧ tableOk u r q.port (fld e.desc.toNat 160 4) (fld e.desc.toNat 192 64) mx = 0) →
    exec (.seqFork r i) s = .next (answered (openSeq u (refOf r i e) { own := u.ownOf r, cls := q.cls, port := q.port, window := fld e.desc.toNat 160 4, offset := fld e.desc.toNat 192 64, maxBlocks := mx, blocks := q.blocks.take n }) (refOf r i e)))
  ∧ (∀ (r i ix : Nat) (q : Seq) (e : Fetched) (s : State),
    Starts s r i 0x14 0x04 e →
    (seqOfHandle s (fld e.desc.toNat 64 20) = some (ix, q) ∧ owns s r q.own = true) →
    q.blocks.any (inPlan s) = false →
    exec (.seqClose r i) s = .next (finish (settlePools ((truncSeq (begun s r i e) ix 0).modKv (fun k => { k with seqs := odel k.seqs ix }))) (refOf r i e) 0 0 0))
  ∧ (∀ (r i ix n : Nat) (q : Seq) (e : Fetched) (s : State),
    Starts s r i 0x14 0x05 e →
    (seqOfHandle s (fld e.desc.toNat 64 20) = some (ix, q) ∧ owns s r q.own = true) →
    (n = fld e.desc.toNat 96 32 ∧ 0 < n ∧ n ≤ 4096) →
    (q.blocks.length + n ≤ q.maxBlocks ∧ s.kv.blocks.length + n ≤ 2 ^ 27 ∧ n ≤ t0Avail s q.port []) →
    exec (.seqGrow r i) s = .next (finish (settlePools (growMany ix true n (begun s r i e) []).1) (refOf r i e) 0 q.blocks.length 0))
  ∧ (∀ (r i ix n : Nat) (q : Seq) (fresh : List Nat) (e : Fetched) (s : State),
    Starts s r i 0x14 0x06 e →
    (seqOfHandle s (fld e.desc.toNat 64 20) = some (ix, q) ∧ owns s r q.own = true) →
    (n = fld e.desc.toNat 96 32 ∧ n ≤ q.blocks.length) →
    fresh = (q.blocks.take n).filter (fun b => (s.blk b).st == .fresh) →
    exec (.seqSeal r i) s = .next (finish (settlePools (fresh.foldl (fun s b => sealDown (s.modBlk b (fun k => { k with st := .sealed_ })) b) (begun s r i e))) (refOf r i e) 0 fresh.length 0))
  ∧ (∀ (r i ix n : Nat) (q : Seq) (e : Fetched) (s : State),
    Starts s r i 0x14 0x07 e →
    (seqOfHandle s (fld e.desc.toNat 64 20) = some (ix, q) ∧ owns s r q.own = true) →
    (n = fld e.desc.toNat 96 32 ∧ n ≤ q.blocks.length) →
    (q.blocks.drop n).any (inPlan s) = false →
    exec (.seqTruncate r i) s = .next (finish (settlePools (truncSeq (begun s r i e) ix n)) (refOf r i e) 0 (q.blocks.length - n) 0))
  ∧ (∀ (r i ix n : Nat) (q : Seq) (bs cur new : List Nat) (e : Fetched) (s : State),
    Starts s r i 0x14 0x08 e →
    (seqOfHandle s (fld e.desc.toNat 64 20) = some (ix, q) ∧ owns s r q.own = true) →
    (n = rangeCount q (fld e.desc.toNat 96 32) (fld e.desc.toNat 128 32) ∧ fld e.desc.toNat 96 32 + n ≤ q.blocks.length) →
    fld e.desc.toNat 174 2 ≤ 1 →
    (bs = (q.blocks.drop (fld e.desc.toNat 96 32)).take n ∧ cur = (if fld e.desc.toNat 174 2 = 0 then q.pins0 else q.pins1)) →
    new = (if bitAt e.desc.toNat 176 = true then cur.filter (fun b => !bs.contains b) else bs.filter (fun b => !cur.contains b) ++ cur) →
    exec (.seqPin r i) s = .next (finish (settlePools ((begun s r i e).modSeq ix (fun q => if fld e.desc.toNat 174 2 = 0 then { q with pins0 := new } else { q with pins1 := new }))) (refOf r i e) 0 (bs.filter (fun b => cur.contains b == bitAt e.desc.toNat 176)).length 0))
  ∧ (∀ (r i ix n : Nat) (q : Seq) (bs : List Nat) (p : State × Demote) (e : Fetched) (s : State),
    Starts s r i 0x14 0x09 e →
    (seqOfHandle s (fld e.desc.toNat 64 20) = some (ix, q) ∧ owns s r q.own = true) →
    (n = rangeCount q (fld e.desc.toNat 96 32) (fld e.desc.toNat 128 32) ∧ fld e.desc.toNat 96 32 + n ≤ q.blocks.length ∧ fld e.desc.toNat 174 2 ≠ 0) →
    (bs = (q.blocks.drop (fld e.desc.toNat 96 32)).take n ∧ bs.any (inPlan s) = false) →
    p = bs.foldl (demoteNext (fld e.desc.toNat 174 2)) ((begun s r i e), { ref := (refOf r i e), tier := fld e.desc.toNat 174 2 }) →
    (p.2.left = 0 → exec (.seqDemote r i) s = .next (finish (settlePools p.1) (refOf r i e) 0 (p.2.moved + p.2.skipped * 2 ^ 32) 0))
    ∧ (p.2.left ≠ 0 → exec (.seqDemote r i) s = .next (settlePools (p.1.modKv (fun k => { k with demotes := k.demotes ++ [p.2] })))))
  ∧ (∀ (r i ix n : Nat) (q : Seq) (e : Fetched) (s : State),
    Starts s r i 0x14 0x0A e →
    (seqOfHandle s (fld e.desc.toNat 64 20) = some (ix, q) ∧ owns s r q.own = true) →
    (n = rangeCount q (fld e.desc.toNat 96 32) (fld e.desc.toNat 128 32) ∧ fld e.desc.toNat 96 32 + n ≤ q.blocks.length) →
    exec (.seqQuery r i) s = .next (finish (hostWrite (begun s r i e) r (fld e.desc.toNat 192 64) (((q.blocks.drop (fld e.desc.toNat 96 32)).take n).map (queryByte s))) (refOf r i e) 0 n 0))
  ∧ (∀ (r i : Nat) (e : Fetched) (s : State),
    Starts s r i 0x14 0x05 e →
    seqOfHandle s (fld e.desc.toNat 64 20) = none →
    exec (.seqGrow r i) s = .next (finish (begun s r i e) (refOf r i e) 0x80 0 0))

/-- A posted plan that names only resident blocks is READY at once; reads, pushes, deadlines and releases move a plan on; the KV set locks and unlocks (spec/07_kv_tiering.md (R253, R254, R256, R257, R262, R270, R271, R272, R273, R275, R277)). -/
def Obligations.PlansAndTiersAdvance : Prop :=
  (∀ (r i n : Nat) (es : List PlanEntry) (ids : List Nat) (data : List Byte) (e : Fetched) (s u t : State),
    Starts s r i 0x14 0x10 e →
    u = (begun s r i e) →
    (ownerOf u (fld e.desc.toNat 64 3) = pfOf r ∧ portUp (u.port (fld e.desc.toNat 64 3)) = true) →
    (0 < fld e.desc.toNat 80 16 ∧ fld e.desc.toNat 80 16 ≤ 4096 ∧ fld e.desc.toNat 192 4 = 0 ∧ fld e.desc.toNat 256 64 = 0 ∧ fld e.desc.toNat 320 16 = 0 ∧ fld e.desc.toNat 384 6 = 0 ∧ u.kv.committed = true ∧ (u.t0p (fld e.desc.toNat 64 3)).enable = true ∧ (targetAddr u (fld e.desc.toNat 64 3) (fld e.desc.toNat 336 4) (fld e.desc.toNat 384 64) 64 true).isSome = true) →
    (u.kv.plans.filter (fun q => q.2.port == fld e.desc.toNat 64 3)).length < 16 →
    rdHost u r (16 * fld e.desc.toNat 80 16) (.ok data) = (0, data) →
    (es = planEntries (fld e.desc.toNat 80 16) data ∧ firstBad u r (fld e.desc.toNat 64 3) 0 [] es = none) →
    (es.foldl (fun n e => n + e.grow) 0 = 0 ∧ es.foldl (fun n e => n + e.count) 0 ≤ 262144 ∧ u.kv.blocks.length ≤ 2 ^ 27) →
    (ids = (namedBlocks u [] es).flatMap (fun x => x.2.map (·.1)) ∧ (ids.filter (fun b => (u.blk b).t0.isNone)).length = 0) →
    n = u.kv.nextPlan →
    t = (namedBlocks u [] es).foldl (fun s x => startGrow n (x.2.foldl (startMove n (fld e.desc.toNat 64 3)) s) x.1) ((unorder u (refOf r i e)).modKv (fun k => { k with plans := oput k.plans n { ref := (refOf r i e), own := u.ownOf r, tag := userTag e.desc.toNat, port := fld e.desc.toNat 64 3, abandon := bitAt e.desc.toNat 67, deadline := fld e.desc.toNat 128 64, hold := fld e.desc.toNat 96 32, reportAddr := 0, reportMax := 0, readyWindow := fld e.desc.toNat 336 4, readyOffset := fld e.desc.toNat 384 64, pins := ids }, nextPlan := n + 1 })) →
    (t.plan n).all (fun q => q.moves.isEmpty) = true →
    exec (.planPost r i (.ok data)) s = .next (settlePools (completePlan t n .ready 0 (ptp t))))
  ∧ (∀ (r i : Nat) (e : Fetched) (s : State),
    Starts s r i 0x14 0x11 e →
    s.kv.plans.find? (fun q => owns s r q.2.own && q.2.ref.ring == i && q.2.tag == fld e.desc.toNat 96 32) = none →
    exec (.planCancel r i) s = .next (finish (unorder (begun s r i e) (refOf r i e)) (refOf r i e) 0 0 0))
  ∧ (∀ (r i n : Nat) (p : Plan) (e : Fetched) (s u : State),
    Starts s r i 0x14 0x11 e →
    s.kv.plans.find? (fun q => owns s r q.2.own && q.2.ref.ring == i && q.2.tag == fld e.desc.toNat 96 32) = some (n, p) →
    u = stopMoves (unorder (begun s r i e) (refOf r i e)) n →
    (p.st ≠ .pending → exec (.planCancel r i) s = .next (finish (releasePlan u n) (refOf r i e) 0 1 0))
    ∧ (p.st = .pending → exec (.planCancel r i) s = .next (finish (releasePlan (planRecord (finish u p.ref 0x08 (residentOf p % 2 ^ 32 + missingOf p * 2 ^ 32) 0) n 0x08 false) n) (refOf r i e) 0 1 0)))
  ∧ (∀ (n b tier : Nat) (x : ARead) (p : Plan) (m : Move) (bs : List Byte) (s u : State),
    (s.plan n = some p ∧ p.moves.find? (fun m => m.block == b) = some m) →
    m.st = .reading tier →
    (s.blk b).valid.contains tier = true →
    takeData s m.mov b tier x = (u, 0, bs) →
    exec (.blockReadReturn n b x) s = .next (settlePools (pump (promote (u.modPlan n (fun q => { q with moves := q.moves.map (fun x =>
    if x.block = b then { x with st := .staged (tierUp (s.blk b).kc (blockBytes (s.blk b).kc) bs) } else x) })) b tier bs) p.port)))
  ∧ (∀ (n b : Nat) (p : Plan) (ws : List Nat) (s u : State),
    s.plan n = some p →
    p.moves.any (fun m => m.block == b && m.st == .pushing) = true →
    stillPushing s p.port n b = false →
    ws = (s.kv.plans.filter (fun q => q.2.moves.any (fun m => m.block == b && moveActive m))).map (·.1) →
    (u = ws.foldl (fun s k => s.modPlan k (fun q => { q with moves := q.moves.map (fun m => if m.block = b ∧ moveActive m = true then { m with st := .resident } else m) }))
    ((touch (ws.foldl lateNow s) b).modBlk b (fun k => { k with t0Valid := true, growing := false }))) →
    exec (.blockResident n b) s = .next (pump (ws.foldl checkReady u) p.port))
  ∧ (∀ (n : Nat) (p : Plan) (s : State),
    s.plan n = some p →
    p.st = .pending →
    exec (.planDeadline n) s = .next (pump (completePlan (advanceToPtp s p.deadline) n .late 0x0C 0) p.port))
  ∧ (∀ (n : Nat) (p : Plan) (s : State),
    s.plan n = some p →
    (p.st = .ready ∨ p.st = .settled) →
    exec (.planRelease n) s = .next (releasePlan (advanceToPtp s (p.deadline + p.hold)) n))
  ∧ (∀ (b : Nat) (x : ARead) (c : Copy) (bs : List Byte) (s s0 u t : State),
    s.kv.copies.find? (fun c => c.block == b) = some c →
    (c.from_ ≠ 0 ∧ c.drop = []) →
    s0 = s.modKv (fun k => { k with copies := k.copies.filter (fun x => x != c) }) →
    takeData s0 (movTile s0 (s.blk b).port b) b c.from_ x = (u, 0, bs) →
    putData u b c.to_ bs = (t, 0) →
    exec (.blockCopyComplete b x) s = .next (settlePools (demoteStep ((t.modBlk b (fun k => { k with valid := c.to_ :: k.valid })).modKv (fun k => { k with sat := satAdd 32 k.sat 0 })) c.demote true)))
  ∧ (∀ (s : State),
    s.transom.held.reverse.find? (fun h => h.cap == 0x14) = none →
    s.kv.committed = false →
    badKvItem s = none →
    exec .kvSetCommit s = .next (s.modKv (fun k => { k with committed := true, lastStatus := 0, badItem := 0 })))
  ∧ (∀ (i : Nat) (s : State),
    s.transom.held.reverse.find? (fun h => h.cap == 0x14) = none →
    s.kv.committed = false →
    badKvItem s = some i →
    exec .kvSetCommit s = .next (s.modKv (fun k => { k with lastStatus := 0x06, badItem := i })))
  ∧ (∀ (s : State),
    s.transom.held.reverse.find? (fun h => h.cap == 0x14) = none →
    s.kv.committed = true →
    (s.kv.seqs = [] → exec .kvSetUnlock s = .next (s.modKv (fun k => { k with committed := false, lastStatus := 0, badItem := 0 })))
    ∧ (s.kv.seqs ≠ [] → exec .kvSetUnlock s = .next (s.modKv (fun k => { k with lastStatus := 0x07, badItem := 0 }))))
  ∧ (∀ (h : Held) (s : State),
    s.transom.held.reverse.find? (fun h => h.cap == 0x14) = some h →
    exec .kvSetCommit s = .next { s with transom := { s.transom with held := s.transom.held ++ [{ rank := h.rank, session := h.session, cap := 0x14, off := 0x08, width := 32, value := 1 }] } }
    ∧ exec .kvSetUnlock s = .next { s with transom := { s.transom with held := s.transom.held ++ [{ rank := h.rank, session := h.session, cap := 0x14, off := 0x08, width := 32, value := 2 }] } })

/-- Each CHECKPOINT command with its checks met makes its change: a job is set, a take accepted, an abort, survey and restore answered (spec/08_checkpoint_and_shrink.md (R281, R284, R286, R294, R298, R300, R301, R302, R303, R304, R309, R313)). -/
def Obligations.CheckpointCommandsComplete : Prop :=
  (∀ (r i : Nat) (k : KeySlot) (ts : List CkStore) (data : List Byte) (e : Fetched) (s : State),
    Starts s r i 0x15 0x01 e →
    ckBusy s (epOf r) = false →
    (1 ≤ fld e.desc.toNat 144 16 ∧ fld e.desc.toNat 144 16 ≤ 1024 ∧ fld e.desc.toNat 160 16 < fld e.desc.toNat 144 16 ∧ 1 ≤ fld e.desc.toNat 192 16 ∧ fld e.desc.toNat 192 16 ≤ 1024 ∧ fld e.desc.toNat 176 16 < fld e.desc.toNat 192 16 ∧ fld e.desc.toNat 256 64 % 16 = 0) →
    (s.slot (fld e.desc.toNat 208 18) = some k ∧ owns s r k.own = true ∧ k.kind = 2 ∧ k.st = .loaded) →
    rdHost (begun s r i e) r (16 * fld e.desc.toNat 192 16) (.ok data) = (0, data) →
    (ts = parseStores (fld e.desc.toNat 192 16) data ∧ ts.all (storeOk s) = true ∧ (List.range (fld e.desc.toNat 192 16)).any (fun i => leNat (sliceB data (16 * i + 2) 2) ≠ 0) = false) →
    exec (.ckptJobSet r i (.ok data)) s = .next (finish ((begun s r i e).modCk (epOf r) (fun k => { k with job := some { jobId := fld e.desc.toNat 64 64, epoch := fld e.desc.toNat 128 16, members := fld e.desc.toNat 144 16, member := fld e.desc.toNat 160 16, ownStore := fld e.desc.toNat 176 16, stores := ts, key := fld e.desc.toNat 208 18, gen := ((begun s r i e).fn r).gen } })) (refOf r i e) 0 0 0))
  ∧ (∀ (r i : Nat) (x : HRead) (a : List BRead) (e : Fetched) (s : State),
    Starts s r i 0x15 0x02 e →
    jobHere s r = none →
    exec (.ckptTake r i x a) s = .next (finish (begun s r i e) (refOf r i e) 0x80 0 0))
  ∧ (∀ (r i : Nat) (j : CkJob) (data : List Byte) (vs : List (Nat × CkRegion)) (gs : List CkRegion) (a : List BRead) (q : Rd) (roots : List (Nat × Nat)) (tb : Rd) (table : List Nat) (e : Fetched) (s u : State),
    Starts s r i 0x15 0x02 e →
    (u = (begun s r i e) ∧ jobHere u r = some j ∧ ckBusy u (epOf r) = false) →
    (fld e.desc.toNat 128 16 ≤ 4096 ∧ fld e.desc.toNat 144 3 ≠ 0 ∧ fld e.desc.toNat 192 64 % 64 = 0 ∧ fld e.desc.toNat 320 64 % 64 = 0) →
    rdHost u r (64 * fld e.desc.toNat 128 16) (if fld e.desc.toNat 128 16 = 0 then .ok [] else .ok data) = (0, data) →
    (vs = parseRegions (fld e.desc.toNat 128 16) data ∧ gs = (if bitAt (fld e.desc.toNat 144 3) 2 = true then vs.map (·.2) else [])) →
    gs.any (fun g => !g.accel && (granulesOf g.addr g.bytes).any (fun x => (protectedBy u x).any (fun e => ([0, 1].filter (· != epOf r)).contains e))) = false →
    (vs.any (fun p => !ckRegionOk p.1 p.2) = false ∧ (vs.map (fun p => p.2.id)).Nodup) →
    (gs.any (fun g => g.accel && (targetAddr u g.port g.window g.addr g.bytes false).isNone) = false ∧ gs.any (fun g => !g.accel && rangeRefused u g.addr g.bytes) = false) →
    gs.any (fun g => g.accel && g.dedup != 2 && (targetAddr u g.port (fld e.desc.toNat 160 4) (fld e.desc.toNat 320 64) 64 true).isNone) = false →
    (rdRoots (u, a) j (ownStore j) = (q, 0, roots) ∧ roots.any (fun x => !stepAbove j.epoch (fld e.desc.toNat 64 64) (rEpoch x.2) (rStep x.2)) = false) →
    (match newestRoot roots with | some x => rdTable q j (ownStore j) x.2 | none => (q, 0, [])) = (tb, 0, table) →
    (gs.map (dedupe table)).foldl (fun a g => if (g.accel && readRegion g) = true then a + g.bytes else a) 0 ≤ (if (u.ckpt (epOf r)).committed = true then (u.ckpt (epOf r)).capSize * granuleBytes else 0) →
    exec (.ckptTake r i (.ok data) a) s = .next (tb.1.modCk (epOf r) (fun k => { k with take := some { ref := (refOf r i e), userTag := userTag e.desc.toNat, step := fld e.desc.toNat 64 64, epoch := j.epoch, sections := fld e.desc.toNat 144 3, relWindow := fld e.desc.toNat 160 4, relOffset := fld e.desc.toNat 320 64, at_ := fld e.desc.toNat 256 64, regions := gs.map (dedupe table), slot := ((newestRoot roots).map (fun x => 1 - x.1)).getD 0, commitSeq := ((newestRoot roots).map (fun x => rSeq x.2 + 1)).getD 1, free := ((groupRecs table).flatMap (·.2) ++ (match newestRoot roots with | some x => [(fld x.2 384 64, fld x.2 448 32)] | none => [])).foldl subRun [(2, (ownStore j).blocks - 2)] }, step := fld e.desc.toNat 64 64 })))
  ∧ (∀ (r i : Nat) (e : Fetched) (s : State),
    Picks s r i 0x15 0x03 e →
    takeOf s (epOf r) = none →
    exec (.ckptAbort r i) s = .next (finish (unorder (begun s r i e) (refOf r i e)) (refOf r i e) 0 0 0))
  ∧ (∀ (r i : Nat) (t : Take) (e : Fetched) (s : State),
    Picks s r i 0x15 0x03 e →
    takeOf s (epOf r) = some t →
    t.st ≠ .committing →
    exec (.ckptAbort r i) s = .next (failTake (finish (unorder (begun s r i e) (refOf r i e)) (refOf r i e) 0 1 0) (epOf r) 0x08))
  ∧ (∀ (r i : Nat) (j : CkJob) (a : List BRead) (q : Rd) (roots : List (Nat × Nat)) (e : Fetched) (s : State),
    Starts s r i 0x15 0x04 e →
    jobHere (begun s r i e) r = some j →
    (fld e.desc.toNat 64 16 < j.stores.length ∧ fld e.desc.toNat 192 64 % 64 = 0) →
    rdRoots ((begun s r i e), a) j (lget j.stores (fld e.desc.toNat 64 16) {}) = (q, 0, roots) →
    exec (.ckptSurvey r i a) s = .next (finish (hostWrite q.1 r (fld e.desc.toNat 192 64) ((match roots.find? (fun x => x.1 == 0) with | some x => surveyHalf x.2 | none => List.replicate 32 0#8) ++ (match roots.find? (fun x => x.1 == 1) with | some x => surveyHalf x.2 | none => List.replicate 32 0#8)))
    (refOf r i e) 0 (roots.foldl (fun a x => a + 2 ^ x.1) 0) 0))
  ∧ (∀ (r i : Nat) (j : CkJob) (data : List Byte) (a : List BRead) (q : Rd) (roots : List (Nat × Nat)) (root : Nat × Nat) (x1 x2 x5 : Rest) (table : List Nat) (e : Fetched) (s u : State),
    Starts s r i 0x15 0x05 e →
    (u = (begun s r i e) ∧ jobHere u r = some j ∧ ckBusy u (epOf r) = false ∧ (j.pair = none ∨ j.pair = some (fld e.desc.toNat 80 16, fld e.desc.toNat 128 64))) →
    (fld e.desc.toNat 96 3 ≠ 0 ∧ fld e.desc.toNat 64 16 < j.stores.length ∧ fld e.desc.toNat 192 64 % 64 = 0 ∧ fld e.desc.toNat 256 16 ≤ 4096 ∧ (fld e.desc.toNat 256 16 = 0 ∨ fld e.desc.toNat 192 64 ≠ 0) ∧ fld e.desc.toNat 320 64 % 8 = 0) →
    ((bitAt (fld e.desc.toNat 96 3) 1 = true → fld e.desc.toNat 320 64 ≠ 0) ∧ (bitAt (fld e.desc.toNat 96 3) 0 = true → fld e.desc.toNat 64 16 = j.ownStore)) →
    ((if fld e.desc.toNat 256 16 = 0 then (0, []) else rdHost u r (16 * fld e.desc.toNat 256 16) (.ok data)) = (0, data) ∧ (parseMaps (fld e.desc.toNat 256 16) data).any (fun m => fld m 24 40 != 0) = false) →
    rdRoots (u, a) j (lget j.stores (fld e.desc.toNat 64 16) {}) = (q, 0, roots) →
    roots.find? (fun x => rEpoch x.2 == fld e.desc.toNat 80 16 && rStep x.2 == fld e.desc.toNat 128 64) = some root →
    x1 = (if (fld e.desc.toNat 64 16 = j.ownStore && roots.any (fun x => x.1 != root.1 && !(rEpoch x.2 == fld e.desc.toNat 80 16 && rStep x.2 == fld e.desc.toNat 128 64))) = true then zeroSlot j (lget j.stores (fld e.desc.toNat 64 16) {}) (1 - root.1) else id)
    { s := q.1.modCk (epOf r) (fun c => { c with job := some { j with pair := some (fld e.desc.toNat 80 16, fld e.desc.toNat 128 64) } }), ans := q.2 } →
    table = (rdTable (x1.s, x1.ans) j (lget j.stores (fld e.desc.toNat 64 16) {}) root.2).2.2 →
    x2 = (if x1.status ≠ 0 then x1 else { x1.rd (rdTable (x1.s, x1.ans) j (lget j.stores (fld e.desc.toNat 64 16) {}) root.2).1 with status := (rdTable (x1.s, x1.ans) j (lget j.stores (fld e.desc.toNat 64 16) {}) root.2).2.1 }) →
    x5 = (if bitAt (fld e.desc.toNat 96 3) 2 = true then Rest.go (f := restRegions j (lget j.stores (fld e.desc.toNat 64 16) {}) (parseMaps (fld e.desc.toNat 256 16) data) table) else id)
    ((if bitAt (fld e.desc.toNat 96 3) 1 = true then Rest.go (f := restServing r (fld e.desc.toNat 272 24) j (lget j.stores (fld e.desc.toNat 64 16) {}) table) else id) ((if bitAt (fld e.desc.toNat 96 3) 0 = true then Rest.go (f := restConfig r table) else id) x2)) →
    x5.status = 0 →
    exec (.ckptRestore r i (.ok data) a) s = .next (finish (settlePools (if x5.map.isEmpty = true then x5.s else hostWrite x5.s r (fld e.desc.toNat 320 64) x5.map)) (refOf r i e) 0
    ((x5.bytes + 2 ^ 20 - 1) / 2 ^ 20 % 2 ^ 32 + x5.seqs % 2 ^ 16 * 2 ^ 32 + x5.regs % 2 ^ 16 * 2 ^ 48) 0))

/-- From the snapshot point a take protects, captures, writes out, flushes and commits its root; the capture and reserve set locks and unlocks (spec/08_checkpoint_and_shrink.md (R283, R287, R288, R289, R290, R291, R292, R293, R315)). -/
def Obligations.TakeProgressesToItsCommit : Prop :=
  (∀ (ep : Nat) (t : Take) (cap : List (Nat × Nat)) (s s1 s2 s3 : State),
    (takeOf s ep = some t ∧ t.st = .accepted) →
    s1 = (if ptp s < t.at_ then advanceToPtp s t.at_ else s) →
    cap = (List.range t.regions.length).flatMap (fun i => if ((lget t.regions i {}).accel && readRegion (lget t.regions i {})) = true then (piecesOf (lget t.regions i {})).map (fun o => (i, o)) else []) →
    s2 = s1.modTake ep (fun u => { u with st := .snapshot, snapTime := ptp s1, prot := ((t.regions.filter (fun g => !g.accel)).flatMap (fun g => granulesOf g.addr g.bytes)).eraseDups, capture := cap, holds := (if bitAt t.sections 1 = true then servingRecs s1 ep else ([], [])).2, records := (if bitAt t.sections 0 = true then configRecs s1 ep else []) ++ (if bitAt t.sections 1 = true then servingRecs s1 ep else ([], [])).1, released := cap.isEmpty }) →
    s3 = (if bitAt t.sections 1 = true then servingRecs s1 ep else ([], [])).2.foldl (fun s h => beginRead s h.1 h.2) (cap.foldl (fun s c =>
    match targetAddr s (lget t.regions c.1 {}).port (lget t.regions c.1 {}).window ((lget t.regions c.1 {}).addr + c.2) (min granuleBytes ((lget t.regions c.1 {}).bytes - c.2)) false with
    | some a => engineRead_ s (lget t.regions c.1 {}).port a (min granuleBytes ((lget t.regions c.1 {}).bytes - c.2))
    | none => s) (postEvent s2 (4 + ep) 0x1501 0 (ptp s1))) →
    exec (.snapshotPoint ep) s = .next (takeWrite s3 ep t.slot { op := .write, n := 1, fua := true, who := .take ep 0 } (List.replicate 4096 0#8)))
  ∧ (∀ (g : Nat) (s : State),
    storeWaits s g = false →
    exec (.granuleCow g) s = .next s)
  ∧ (∀ (g ep : Nat) (s : State),
    storeWaits s g = true →
    protectedBy s g = [ep] →
    (reservePlace s ep (stackOf (g * granuleBytes))).isSome = true →
    exec (.granuleCow g) s = .next (s.modTake ep (fun t => { t with copying := if t.copying.contains g = true then t.copying else t.copying ++ [g] })))
  ∧ (∀ (g ep : Nat) (t : Take) (s : State),
    (protectedBy s g = [ep] ∧ takeOf s ep = some t ∧ t.copying.contains g = true) →
    exec (.granuleCopyComplete g) s = .next (wakeStores (copyGranule s ep g (waitedUs s g))))
  ∧ (∀ (ep ix o : Nat) (rest : List (Nat × Nat)) (bs data : List Byte) (t : Take) (s w u : State),
    (takeOf s ep = some t ∧ t.capture = (ix, o) :: rest) →
    data = fitB bs (min granuleBytes ((lget t.regions ix {}).bytes - o)) →
    engineWrite s 8 ((s.ckpt ep).capBase * granuleBytes + t.captured) data = (w, 0) →
    u = w.modTake ep (fun t => { t with capture := rest, captured := t.captured + data.length }) →
    (rest ≠ [] → exec (.captureReadReturn ep (.ok bs)) s = .next (checkTake (writeOut u ep (ix * 2 ^ 20 + o / granuleBytes) data) ep))
    ∧ (rest = [] → exec (.captureReadReturn ep (.ok bs)) s = .next (checkTake (writeOut (postEvent (releaseRecords (u.modTake ep (fun t => { t with released := true })) t 0) (4 + ep) 0x1502 0 t.userTag) ep (ix * 2 ^ 20 + o / granuleBytes) data) ep)))
  ∧ (∀ (ep : Nat) (x : ARead) (c : CowCopy) (rest : List CowCopy) (t : Take) (s : State),
    (takeOf s ep = some t ∧ t.copies = c :: rest) →
    c.place = none →
    (c.bad = true → exec (.takeReadReturn ep x) s = .next (failTake s ep 0x04))
    ∧ (c.bad = false → exec (.takeReadReturn ep x) s = .next (checkTake ((granuleKeys t c.granule).foldl (fun s k => writeOut s ep k c.bytes) (s.modTake ep (fun t => { t with copies := rest }))) ep)))
  ∧ (∀ (b i ep : Nat) (x : BRead) (m : BCmd) (st p : Nat) (bs : List Byte) (s u : State),
    backDone s b i servesHostOrTake x = (u, some (m, st, bs)) →
    m.who = .take ep p →
    exec (.backendCommandComplete b i x) s = .next (settleSto (takePart u ep p st m)))
  ∧ (∀ (b i id : Nat) (x : BRead) (m : BCmd) (st : Nat) (bs : List Byte) (s u : State),
    backDone s b i servesBuffer x = (u, some (m, st, bs)) →
    m.who = .back id →
    exec (.writeBackComplete b i x) s = .next (settleSto (backPart u b id st)))
  ∧ (∀ (ep : Nat) (x : BRead) (m : BCmd) (t : Take) (st : Nat) (s u : State),
    (takeDone s ep 2 x = (u, some (m, st)) ∧ takeOf u ep = some t) →
    (st = 0 → exec (.takeFlushComplete ep x) s = .next (takeWrite (u.modTake ep (fun t => { t with st := .committing })) ep t.slot
    { op := .write, n := 1, fua := true, who := .take ep 3 } (rootBlock (jobOf u ep) t (ptp u))))
    ∧ (st ≠ 0 → exec (.takeFlushComplete ep x) s = .next (failTake u ep (ckStatus st))))
  ∧ (∀ (ep : Nat) (x : BRead) (m : BCmd) (t : Take) (st : Nat) (s u : State),
    (takeDone s ep 3 x = (u, some (m, st)) ∧ takeOf u ep = some t) →
    (st = 0 → exec (.rootWriteComplete ep x) s = .next (finish ((dropTake u ep t).modCk ep (fun k => { k with bytesOut := (k.bytesOut + 4096) % 2 ^ 64 })) t.ref 0
    ((t.written + 2 ^ 20 - 1) / 2 ^ 20 % 2 ^ 32 + (t.regions.filter (fun g => !readRegion g)).length * 2 ^ 32) t.snapTime))
    ∧ (st ≠ 0 → exec (.rootWriteComplete ep x) s = .next (failTake u ep (ckStatus st))))
  ∧ (∀ (fn : Nat) (s : State),
    heldBack s fn 0 = false →
    (isPf1 fn && present s fn) = true →
    ((s.ckpt (epOf fn)).committed = true → exec (.ckSetCommit fn) s = .next (s.modCk (epOf fn) (fun k => { k with status := 0x07, badItem := 0 })))
    ∧ ((s.ckpt (epOf fn)).committed = false ∧ badCkItem s (s.ckpt (epOf fn)) = none → exec (.ckSetCommit fn) s = .next (ckEnd (s.modCk (epOf fn) (fun k => { k with committed := true })) (epOf fn) 0 0))
    ∧ ((s.ckpt (epOf fn)).committed = false → exec (.ckSetUnlock fn) s = .next (ckEnd s (epOf fn) 0 0))
    ∧ ((s.ckpt (epOf fn)).committed = true ∧ ckBusy s (epOf fn) = true → exec (.ckSetUnlock fn) s = .next (ckEnd s (epOf fn) 0x07 0))
    ∧ ((s.ckpt (epOf fn)).committed = true ∧ ckBusy s (epOf fn) = false → exec (.ckSetUnlock fn) s = .next (ckEnd (s.modCk (epOf fn) (fun k => { k with committed := false })) (epOf fn) 0 0)))

/-- Each object command of an RDMA ring, with its checks met, makes its change and completes with 0x00; a stale object is refused with its status (spec/09_remote_memory.md (R321, R322, R323, R324, R325, R326, R337, R338, R346, R347, R350, R351)). -/
def Obligations.RdmaObjectsComplete : Prop :=
  (∀ (r i k : Nat) (e : Fetched) (s : State),
    Starts s r i 0x20 0x01 e →
    lowestFree s.rdma.pds (epKey r 0) (epKey r 65536) = some k →
    exec (.pdAlloc r i) s = .next (finish ((begun s r i e).modRdma (fun x => { x with pds := oput x.pds k (s.ownOf r) })) (refOf r i e) 0 (k % 65536) 0))
  ∧ (∀ (r i : Nat) (e : Fetched) (s : State),
    Starts s r i 0x20 0x02 e →
    (pdOwned s r (fld e.desc.toNat 64 16) = false → exec (.pdFree r i) s = .next (finish (begun s r i e) (refOf r i e) 0x84 0 0))
    ∧ (pdOwned s r (fld e.desc.toNat 64 16) = true ∧ pdUsed s r (fld e.desc.toNat 64 16) = true → exec (.pdFree r i) s = .next (finish (begun s r i e) (refOf r i e) 0x83 0 0))
    ∧ (pdOwned s r (fld e.desc.toNat 64 16) = true ∧ pdUsed s r (fld e.desc.toNat 64 16) = false → exec (.pdFree r i) s = .next (finish ((begun s r i e).modRdma (fun x => { x with pds := odel x.pds (epKey r (fld e.desc.toNat 64 16)) })) (refOf r i e) 0 0 0)))
  ∧ (∀ (r i ix : Nat) (e : Fetched) (s : State),
    Starts s r i 0x20 0x03 e →
    pdOwned s r (fld e.desc.toNat 80 16) = true →
    (fld e.desc.toNat 254 2 = 1 ∧ fld e.desc.toNat 192 62 % 4096 = 0 ∧ 4096 ≤ fld e.desc.toNat 256 64 ∧ fld e.desc.toNat 256 64 ≤ 2 ^ 40 ∧ fld e.desc.toNat 256 64 % 4096 = 0 ∧ fld e.desc.toNat 128 64 + fld e.desc.toNat 256 64 ≤ 2 ^ 64) →
    (isVf r = false ∧ lowestFree s.rdma.mrs 0 (2 ^ 20) = some ix) →
    exec (.mrReg r i) s = .next (finish ((begun s r i e).modRdma (fun x => { x with
    mrs := oput x.mrs ix { own := s.ownOf r, pd := fld e.desc.toNat 80 16, gen := (mget s.rdma.mrGen ix 0 + 1) % 256, access := fld e.desc.toNat 64 4, iova := fld e.desc.toNat 128 64, length := fld e.desc.toNat 256 64, host := true, base := fld e.desc.toNat 192 62 },
    mrGen := mset x.mrGen ix ((mget s.rdma.mrGen ix 0 + 1) % 256) 0 })) (refOf r i e) 0 ((mget s.rdma.mrGen ix 0 + 1) % 256 + ix * 256) 0))
  ∧ (∀ (r i : Nat) (e : Fetched) (s : State),
    Starts s r i 0x20 0x04 e →
    (mrOf s (fld e.desc.toNat 96 32) = none → exec (.mrDereg r i) s = .next (finish (begun s r i e) (refOf r i e) 0x02 0 0))
    ∧ (∀ m : Mr, mrOf s (fld e.desc.toNat 96 32) = some m ∧ owns s r m.own = true ∧ m.staging = false →
    exec (.mrDereg r i) s = .next (finish ((begun s r i e).modRdma (fun x => { x with mrs := odel x.mrs (fld (fld e.desc.toNat 96 32) 8 20) })) (refOf r i e) 0 0 0)))
  ∧ (∀ (r i n : Nat) (q : Qp) (e : Fetched) (s : State),
    Starts s r i 0x20 0x05 e →
    pdOwned s r (fld e.desc.toNat 80 16) = true →
    (fld e.desc.toNat 64 2 < 2 ∧ fld e.desc.toNat 100 2 < ifsOf (s.netPort (fld e.desc.toNat 96 4)).breakout ∧ 6 ≤ fld e.desc.toNat 104 4 ∧ 6 ≤ fld e.desc.toNat 108 4 ∧ isVf r = false) →
    (nextQpn s (epOf r) = some n ∧ (mget s.rdma.sets (epOf r) {}).committed = true ∧ (mget s.rdma.sets (epOf r) {}).log2 ≠ 0 ∧ n % 2 ^ 23 < 2 ^ (mget s.rdma.sets (epOf r) {}).log2) →
    q = { own := s.ownOf r, ring := i, type := fld e.desc.toNat 64 2, pd := fld e.desc.toNat 80 16, iface := 4 * fld e.desc.toNat 96 4 + fld e.desc.toNat 100 2, sqLog := fld e.desc.toNat 104 4, rqLog := fld e.desc.toNat 108 4, rate := lineRate s (4 * fld e.desc.toNat 96 4 + fld e.desc.toNat 100 2), pacerAt := ptp s } →
    exec (.qpCreate r i) s = .next (finish (touchCtx ((takeQpn (begun s r i e) (epOf r) n).modRdma (fun x => { x with qps := oput x.qps n q })) n) (refOf r i e) 0 n 0))
  ∧ (∀ (r i n : Nat) (q : Qp) (bs : List Byte) (e : Fetched) (s : State),
    Starts s r i 0x20 0x06 e →
    (qpFor s r i (fld e.desc.toNat 64 24) = some (n, q) ∧ q.ring = i ∧ fld e.desc.toNat 128 64 % 64 = 0) →
    (rdHost s r 128 (.ok bs) = (0, bs) ∧ attrReserved (leNat bs) = true ∧ fld (leNat bs) 0 4 = 0) →
    exec (.qpModify r i (.ok bs)) s = .next (finish (touchCtx ((flushQp (begun s r i e) n).modQp n (fun q => clearQp (begun s r i e) { q with bound := none })) n) (refOf r i e) 0 0 0))
  ∧ (∀ (r i n : Nat) (q : Qp) (bs : List Byte) (e : Fetched) (s : State),
    Starts s r i 0x20 0x06 e →
    (qpFor s r i (fld e.desc.toNat 64 24) = some (n, q) ∧ q.ring = i ∧ fld e.desc.toNat 128 64 % 64 = 0) →
    (rdHost s r 128 (.ok bs) = (0, bs) ∧ attrReserved (leNat bs) = true ∧ fld (leNat bs) 0 4 = 1) →
    (q.st ≠ .reset → exec (.qpModify r i (.ok bs)) s = .next (finish (begun s r i e) (refOf r i e) 0x82 0 0))
    ∧ (q.st = .reset → exec (.qpModify r i (.ok bs)) s = .next (finish (touchCtx ((begun s r i e).modQp n (fun p => { p with st := .init, qkey := if p.type = 0 then p.qkey else fld (leNat bs) 224 32, attr := if p.type = 0 then p.attr else takeBits p.attr (leNat bs) [(224, 32)] })) n) (refOf r i e) 0 0 0)))
  ∧ (∀ (r i n : Nat) (q : Qp) (e : Fetched) (s : State),
    Starts s r i 0x20 0x07 e →
    (qpFor s r i (fld e.desc.toNat 64 24) = some (n, q) ∧ q.ring = i ∧ fld e.desc.toNat 128 64 % 64 = 0) →
    exec (.qpQuery r i) s = .next (finish (hostWrite (begun s r i e) r (fld e.desc.toNat 128 64) (natLE 128 (qpRecord q))) (refOf r i e) 0 0 0))
  ∧ (∀ (r i n : Nat) (q : Qp) (e : Fetched) (s : State),
    Starts s r i 0x20 0x08 e →
    (qpFor s r i (fld e.desc.toNat 64 24) = none → exec (.qpDestroy r i) s = .next (finish (begun s r i e) (refOf r i e) 0x80 0 0))
    ∧ (qpFor s r i (fld e.desc.toNat 64 24) = some (n, q) ∧ q.ring ≠ i → exec (.qpDestroy r i) s = .next (finish (begun s r i e) (refOf r i e) 0x81 0 0))
    ∧ (qpFor s r i (fld e.desc.toNat 64 24) = some (n, q) ∧ q.ring = i → exec (.qpDestroy r i) s = .next (finish (dropQp (begun s r i e) n) (refOf r i e) 0 0 0)))
  ∧ (∀ (r i k : Nat) (bs : List Byte) (e : Fetched) (s : State),
    Starts s r i 0x20 0x09 e →
    (pdOwned s r (fld e.desc.toNat 80 16) = true ∧ fld e.desc.toNat 100 2 < ifsOf (s.netPort (fld e.desc.toNat 96 4)).breakout ∧ fld e.desc.toNat 128 64 % 64 = 0) →
    (rdHost s r 128 (.ok bs) = (0, bs) ∧ attrReserved (leNat bs) = true) →
    lowestFree s.rdma.ahs (epKey r 0) (epKey r 65536) = some k →
    exec (.ahCreate r i (.ok bs)) s = .next (if srcOk (4 * fld e.desc.toNat 96 4 + fld e.desc.toNat 100 2) (leNat bs) = true
    then finish ((begun s r i e).modRdma (fun x => { x with ahs := oput x.ahs k { own := s.ownOf r, pd := fld e.desc.toNat 80 16, iface := 4 * fld e.desc.toNat 96 4 + fld e.desc.toNat 100 2, attr := takeBits 0 (leNat bs) pathFields } })) (refOf r i e) 0 (k % 65536) 0
    else finish (begun s r i e) (refOf r i e) 0x06 0 0))
  ∧ (∀ (r i : Nat) (a : Ah) (e : Fetched) (s : State),
    Starts s r i 0x20 0x0A e →
    (ahOf s r (fld e.desc.toNat 64 16) = none → exec (.ahDestroy r i) s = .next (finish (begun s r i e) (refOf r i e) 0x85 0 0))
    ∧ (ahOf s r (fld e.desc.toNat 64 16) = some a → exec (.ahDestroy r i) s = .next (finish ((begun s r i e).modRdma (fun x => { x with ahs := odel x.ahs (epKey r (fld e.desc.toNat 64 16)) })) (refOf r i e) 0 0 0)))
  ∧ (∀ (fn : Nat) (x : RdmaSet) (s : State),
    (heldBack s fn 0 = false ∧ isPf1 fn = true ∧ present s fn = true) →
    x = mget s.rdma.sets (epOf fn) {} →
    (x.committed = true → exec (.rdmaSetCommit fn) s = .next (rdmaEnd s (epOf fn) (fun x => { x with status := 0x07 })))
    ∧ (x.committed = false ∧ (x.log2 = 0 ∨ (10 ≤ x.log2 ∧ x.log2 ≤ 23)) → exec (.rdmaSetCommit fn) s = .next (rdmaEnd s (epOf fn) (fun x => { x with committed := true, status := 0 })))
    ∧ (x.committed = false ∧ x.log2 ≠ 0 ∧ (x.log2 < 10 ∨ 23 < x.log2) → exec (.rdmaSetCommit fn) s = .next (rdmaEnd s (epOf fn) (fun x => { x with status := 0x06 })))
    ∧ (x.committed = false → exec (.rdmaSetUnlock fn) s = .next (rdmaEnd s (epOf fn) (fun x => { x with status := 0 })))
    ∧ (x.committed = true ∧ qpsOfEp s (epOf fn) = true → exec (.rdmaSetUnlock fn) s = .next (rdmaEnd s (epOf fn) (fun x => { x with status := 0x07 })))
    ∧ (x.committed = true ∧ qpsOfEp s (epOf fn) = false → exec (.rdmaSetUnlock fn) s = .next (rdmaEnd s (epOf fn) (fun x => { x with committed := false, status := 0 }))))

/-- A work request that passes its checks is queued in posting order and sent when its turn comes; each failed check completes with its own status (spec/09_remote_memory.md (R331, R337, R338, R342, R345, R346, R347)). -/
def Obligations.WorkRequestsAreCheckedAndQueued : Prop :=
  (∀ (r i n op : Nat) (q : Qp) (host : HRead) (e : Fetched) (s t : State),
    Starts s r i 0x20 op e →
    (qpFor s r i (fld e.desc.toNat 64 24) = some (n, q) ∧ q.type = 0 ∧ q.ring = i ∧ q.bound = none) →
    ((q.st = .rts ∨ q.st = .sqd) ∧ sendFieldsOk q op e.desc.toNat = true ∧ q.sends.length < 2 ^ q.sqLog) →
    t = pumpSends (touchCtx ((begun s r i e).modQp n (fun q => { q with sends := q.sends ++ [sendWr op e.desc.toNat ((ahOf (begun s r i e) r (fld e.desc.toNat 224 16)).elim 0 (·.attr)) (refOf r i e) host] })) n) n →
    (op = 0x10 → exec (.send r i host) s = .next t)
    ∧ (op = 0x11 → exec (.sendImm r i host) s = .next t)
    ∧ (op = 0x12 → exec (.write r i host) s = .next t)
    ∧ (op = 0x13 → exec (.writeImm r i host) s = .next t)
    ∧ (op = 0x14 ∧ host = .ok [] → exec (.read r i) s = .next t)
    ∧ (op = 0x15 ∧ host = .ok [] → exec (.atomicCas r i) s = .next t)
    ∧ (op = 0x16 ∧ host = .ok [] → exec (.atomicFadd r i) s = .next t))
  ∧ (∀ (r i n op : Nat) (q : Qp) (host : HRead) (c : Instr) (e : Fetched) (s : State),
    Starts s r i 0x20 op e →
    (c, op, host) ∈ [(Instr.send r i host, 0x10, host), (Instr.sendImm r i host, 0x11, host), (Instr.write r i host, 0x12, host), (Instr.writeImm r i host, 0x13, host), (Instr.read r i, 0x14, .ok []), (Instr.atomicCas r i, 0x15, .ok []), (Instr.atomicFadd r i, 0x16, .ok [])] →
    (qpFor s r i (fld e.desc.toNat 64 24) = some (n, q) ∧ q.type = 0) →
    (q.ring ≠ i → exec c s = .next (finish (begun s r i e) (refOf r i e) 0x81 0 0))
    ∧ (q.ring = i ∧ q.bound = none ∧ q.st = .error → exec c s = .next (finish (begun s r i e) (refOf r i e) 0x01 0 0))
    ∧ (q.ring = i ∧ q.bound = none ∧ (q.st = .reset ∨ q.st = .init ∨ q.st = .rtr) → exec c s = .next (finish (begun s r i e) (refOf r i e) 0x82 0 0))
    ∧ (q.ring = i ∧ q.bound = none ∧ (q.st = .rts ∨ q.st = .sqd) ∧ sendFieldsOk q op e.desc.toNat = true ∧ 2 ^ q.sqLog ≤ q.sends.length → exec c s = .next (finish (begun s r i e) (refOf r i e) 0x07 0 0)))
  ∧ (∀ (r i op : Nat) (host : HRead) (c : Instr) (e : Fetched) (s : State),
    Starts s r i 0x20 op e →
    (c, op, host) ∈ [(Instr.send r i host, 0x10, host), (Instr.sendImm r i host, 0x11, host), (Instr.write r i host, 0x12, host), (Instr.writeImm r i host, 0x13, host), (Instr.read r i, 0x14, .ok []), (Instr.atomicCas r i, 0x15, .ok []), (Instr.atomicFadd r i, 0x16, .ok [])] →
    qpFor s r i (fld e.desc.toNat 64 24) = none →
    exec c s = .next (finish (begun s r i e) (refOf r i e) 0x80 0 0))
  ∧ (∀ (r i n : Nat) (q : Qp) (host : HRead) (e : Fetched) (s : State),
    Starts s r i 0x20 0x10 e →
    (qpFor s r i (fld e.desc.toNat 64 24) = some (n, q) ∧ q.type ≠ 0) →
    (ahOf s r (fld e.desc.toNat 224 16) = none → exec (.send r i host) s = .next (finish (begun s r i e) (refOf r i e) 0x85 0 0))
    ∧ ((ahOf s r (fld e.desc.toNat 224 16)).isSome = true ∧ q.ring = i ∧ q.bound = none ∧ q.st = .rts ∧ sendFieldsOk q 0x10 e.desc.toNat = true ∧ q.sends.length < 2 ^ q.sqLog →
    exec (.send r i host) s = .next (pumpSends (touchCtx ((begun s r i e).modQp n (fun q => { q with sends := q.sends ++ [sendWr 0x10 e.desc.toNat ((ahOf (begun s r i e) r (fld e.desc.toNat 224 16)).elim 0 (·.attr)) (refOf r i e) host] })) n) n)))
  ∧ (∀ (r i n : Nat) (q : Qp) (e : Fetched) (s : State),
    Starts s r i 0x20 0x20 e →
    (qpFor s r i (fld e.desc.toNat 64 24) = some (n, q) ∧ q.ring = i) →
    (q.st = .error → exec (.recv r i) s = .next (finish (begun s r i e) (refOf r i e) 0x01 0 0))
    ∧ (q.st = .reset → exec (.recv r i) s = .next (finish (begun s r i e) (refOf r i e) 0x82 0 0))
    ∧ (q.st ≠ .error ∧ q.st ≠ .reset ∧ fld e.desc.toNat 96 32 ≤ 2 ^ 31 ∧ q.recvs.length < 2 ^ q.rqLog →
    exec (.recv r i) s = .next (touchCtx ((begun s r i e).modQp n (fun q => { q with recvs := q.recvs ++ [{ ref := (refOf r i e), laddr := fld e.desc.toNat 128 64, lkey := fld e.desc.toNat 192 32, len := fld e.desc.toNat 96 32 }] })) n)))
  ∧ (∀ (n : Nat) (q : Qp) (w : SendWr) (s u : State),
    (oget s.rdma.qps n = some q ∧ q.sends.find? (·.sent) = some w) →
    (q.rnrWait = none ∧ (q.st = .rts ∨ q.st = .sqd)) →
    u = advanceTo s (q.ackFrom + (16384 * 2 ^ q.timeout + 9) / 10) →
    (q.retries < q.retryCnt → exec (.ackTimeout n) s = .next (retransmit (u.modQp n (fun q => { q with retries := q.retries + 1 })) n))
    ∧ (q.retryCnt ≤ q.retries → exec (.ackTimeout n) s = .next (sendError u n w 0x09 0)))
  ∧ (∀ (n t : Nat) (q : Qp) (s : State),
    (oget s.rdma.qps n = some q ∧ q.rnrWait = some t) →
    exec (.rnrTimerExpiry n) s = .next (pumpSends (retransmit ((advanceTo s t).modQp n (fun q => { q with rnrWait := none })) n) n))
  ∧ (∀ (s : State),
    s.rdma.tickUs ≠ 0 →
    exec .gustTick s = .next (((advanceTo s ((s.vcycle / (s.rdma.tickUs * usCycles) + 1) * (s.rdma.tickUs * usCycles))).rdma.qps).foldl (fun s q =>
    if gusted q.1 = false ∨ q.2.st = .reset then s
    else checkSquall (s.modQp q.1 (fun q => gustDown (lineRate s q.iface) s.rdma.aiMbps (if s.rdma.rttHighUs ≠ 0 ∧ s.rdma.rttHighUs < q.rtt then gustUp s.rdma.minRate q else q))) q.1)
    (advanceTo s ((s.vcycle / (s.rdma.tickUs * usCycles) + 1) * (s.rdma.tickUs * usCycles)))))

/-- A received packet at the front of its tile's input acts on the queue pair it addresses as its kind asks, and a packet for none is counted (spec/09_remote_memory.md (R320, R327, R328, R330, R331, R333, R335, R336, R340, R341, R342)). -/
def Obligations.PacketsActOnTheirQueuePair : Prop :=
  (∀ (t j n : Nat) (p : RocePkt) (q : Qp) (host : HRead) (s u : State),
    (inputHead s t = some (j, p) ∧ opResponse p.op = false ∧ opUd p.op = false ∧ p.op ≠ 0x81 ∧ n = destKey j p) →
    (oget s.rdma.qps n = some q ∧ q.iface = j ∧ q.type = 0 ∧ (q.st = .rtr ∨ q.st = .rts ∨ q.st = .sqd)) →
    withCtx (dropHead s t) t n p = (u, true) →
    exec (.rcRequestPacket t host) s = .next (respond (if p.ce then cnpSend u n q q.attr q.destQp else u) n q p host))
  ∧ (∀ (t j : Nat) (p : RocePkt) (host : HRead) (s : State),
    (inputHead s t = some (j, p) ∧ oget s.rdma.qps (destKey j p) = none) →
    (opResponse p.op = false ∧ opUd p.op = false ∧ p.op ≠ 0x81 → exec (.rcRequestPacket t host) s = .next (noQp (dropHead s t) t))
    ∧ (opResponse p.op = true → exec (.responsePacket t) s = .next (noQp (dropHead s t) t))
    ∧ (opUd p.op = true → exec (.udPacket t) s = .next (noQp (dropHead s t) t))
    ∧ (p.op = 0x81 → exec (.cnpRx t) s = .next (noQp (dropHead s t) t)))
  ∧ (∀ (t j n : Nat) (p : RocePkt) (q : Qp) (s u : State),
    (inputHead s t = some (j, p) ∧ opResponse p.op = true ∧ n = destKey j p) →
    (oget s.rdma.qps n = some q ∧ q.iface = j ∧ q.type = 0 ∧ (q.st = .rts ∨ q.st = .sqd) ∧ inFlight q p.psn = true) →
    withCtx (dropHead s t) t n p = (u, true) →
    (p.op = 0x11 ∧ p.syndrome / 32 = 0 → exec (.responsePacket t) s = .next (gotAck u n p.psn q.una))
    ∧ (p.op = 0x11 ∧ p.syndrome / 32 ≠ 0 → exec (.responsePacket t) s = .next (gotNak u n q.una p))
    ∧ (p.op ≠ 0x11 → exec (.responsePacket t) s = .next (gotData u n q.una p)))
  ∧ (∀ (t j n : Nat) (p : RocePkt) (q : Qp) (w : RecvWr) (rest : List RecvWr) (m : Mr) (s u0 u v : State),
    (inputHead s t = some (j, p) ∧ opUd p.op = true ∧ n = destKey j p) →
    (oget s.rdma.qps n = some q ∧ q.iface = j ∧ q.type ≠ 0 ∧ (q.st = .rtr ∨ q.st = .rts ∨ q.st = .sqd) ∧ q.qkey = p.qkey ∧ q.recvs = w :: rest) →
    withCtx (dropHead s t) t n p = (u0, true) →
    u = (if p.ce = true then cnpSend u0 n q (p.back + fld (Config.backPath j).toNat 0 8 * 2 ^ 168 + fld (Config.backPath j).toNat 8 20 * 2 ^ 176) p.srcQp else u0) →
    (40 + p.data.length ≤ w.len ∧ mrAccess u q.own q.pd w.lkey (some 0) w.laddr (40 + p.data.length) = some m) →
    mrWrite (u.modQp n (fun q => { q with recvs := rest })) (qpTile q) m w.laddr (fitB p.grh 40 ++ p.data) = (v, 0) →
    exec (.udPacket t) s = .next (endRecv v n w 0 (40 + p.data.length + (if opImm p.op then p.imm * 2 ^ 32 else 0)) (b2n (opImm p.op)) (b2n p.solicited) p.srcQp))
  ∧ (∀ (t j n : Nat) (p : RocePkt) (q : Qp) (s u : State),
    (inputHead s t = some (j, p) ∧ p.op = 0x81 ∧ n = destKey j p ∧ isGsi n = false) →
    oget s.rdma.qps n = some q →
    withCtx (dropHead s t) t n p = (u, true) →
    exec (.cnpRx t) s = .next (checkSquall ((addTotal (u.modRtile t (fun x => { x with cnpRx := satAdd 32 x.cnpRx 1 })) 4 j 4 1).modQp n (fun q =>
    { gustUp s.rdma.minRate q with squall := q.squall.map (fun x => (x.1, x.2.1, x.2.2.1, x.2.2.2.1 + 1, x.2.2.2.2)) })) n))
  ∧ (∀ (n : Nat) (q : Qp) (bs : List Byte) (s u : State),
    (oget s.rdma.qps n = some q ∧ q.res = .fetching) →
    (hostGone s (backOf q.own.fn) = false ∧ install s n = some u) →
    exec (.contextFetchReturn n (.ok bs)) s = .next ((u.modQp n (fun q => { q with parked := [] })).modRtile (qpTile q) (fun x => { x with input := q.parked.map (fun p => (q.iface, p)) ++ x.input })))
  ∧ (∀ (n : Nat) (q : Qp) (s : State),
    (oget s.rdma.qps n = some q ∧ q.res = .fetching ∧ hostGone s (backOf q.own.fn) = false) →
    exec (.contextFetchReturn n .timeout) s = .next (bothPf1.foldl (fun s r => postEventS s r 0x2004 (qpTile q) 0x03 (qpNo n + q.parked.length % 2 ^ 32 * 2 ^ 32) 0)
    ((s.modQp n (fun q => { q with res := .absent, parked := [] })).modRtile (qpTile q) (fun x => { x with missDrop := satAdd 32 x.missDrop q.parked.length }))))
  ∧ (∀ (n : Nat) (s : State),
    exec (.contextWritebackAccepted n) s = .next (s.modQp n (fun q => if q.res = .victim then { q with res := .absent } else q)))

/-- Each command of a CLASSIFIER ring, and LEGACY_LOAD, with its checks met, makes its change and completes with 0x00; a set that is none or another's is refused (spec/10_packet_classification.md (R359, R368, R372, R374, R376, R377, R378, R379, R380, R381, R382, R383)). -/
def Obligations.ClassifierCommandsComplete : Prop :=
  (∀ (r i g : Nat) (bs sig : List Byte) (gr : Graph) (e : Fetched) (s u : State),
    Starts s r i 0x21 0x01 e →
    (isPf1 r = true ∧ fld e.desc.toNat 128 64 % 64 = 0 ∧ fld e.desc.toNat 192 32 ≠ 0) →
    rdHost s r (fld e.desc.toNat 192 32) (.ok bs) = (0, bs) →
    (s.trust.installer.any (fun k => hssVerify k.pub sig bs) = true ∧ graphOk gr = true) →
    (List.range 3).find? (fun g => (oget s.cls.graphs (g + 1)).isNone) = some g →
    auditRec (begun s r i e) 0x0300 2 r 0 (0x21 + (g + 1) * 2 ^ 16) = some u →
    exec (.graphLoad r i (.ok bs) sig gr) s = .next (finish (u.modCls (fun c => { c with graphs := oput c.graphs (g + 1) gr })) (refOf r i e) 0 (g + 1) 0))
  ∧ (∀ (r i : Nat) (e : Fetched) (s : State),
    Starts s r i 0x21 0x02 e →
    (isPf1 r = true ∧ fld e.desc.toNat 64 2 ≠ 0) →
    (oget s.cls.graphs (fld e.desc.toNat 64 2) = none → exec (.graphUnload r i) s = .next (finish (begun s r i e) (refOf r i e) 0x85 0 0))
    ∧ ((oget s.cls.graphs (fld e.desc.toNat 64 2)).isSome = true ∧ s.cls.sets.any (fun x => x.2.graph == fld e.desc.toNat 64 2) = true → exec (.graphUnload r i) s = .next (finish (begun s r i e) (refOf r i e) 0x84 0 0))
    ∧ ((oget s.cls.graphs (fld e.desc.toNat 64 2)).isSome = true ∧ s.cls.sets.any (fun x => x.2.graph == fld e.desc.toNat 64 2) = false →
    exec (.graphUnload r i) s = .next (finish ((begun s r i e).modCls (fun c => { c with graphs := odel c.graphs (fld e.desc.toNat 64 2) })) (refOf r i e) 0 0 0)))
  ∧ (∀ (r i k : Nat) (bs : List Byte) (c : SetConf) (e : Fetched) (s : State),
    Starts s r i 0x21 0x03 e →
    (fld e.desc.toNat 128 64 % 64 = 0 ∧ rdHost s r 256 (.ok bs) = (0, bs)) →
    (fld (leNat bs) 0 2 = 0 ∧ parseSet none bs = some c) →
    lowestFree s.cls.sets 0 64 = some k →
    exec (.setCreate r i (.ok bs)) s = .next (finish ((begun s r i e).modCls (fun x => { x with sets := oput x.sets k { own := s.ownOf r, ring := i, graph := 0, vers := [(0, { conf := c })], pendingVer := { conf := c } } })) (refOf r i e) 0 k 0))
  ∧ (∀ (r i op : Nat) (h : HRead) (c : Instr) (e : Fetched) (s : State),
    Starts s r i 0x21 op e →
    behindRing s r i = false →
    (c, op) ∈ [(Instr.setDestroy r i, 4), (Instr.setConfig r i h, 5), (Instr.bind r i, 6), (Instr.entryAdd r i h, 7), (Instr.entryDel r i h, 8), (Instr.rangeSet r i h, 9), (Instr.setCommit r i, 10), (Instr.counterRead r i, 11)] →
    (oget s.cls.sets (fld e.desc.toNat 64 6) = none → exec c s = .next (finish (begun s r i e) (refOf r i e) 0x80 0 0))
    ∧ (∀ x : RuleSet, oget s.cls.sets (fld e.desc.toNat 64 6) = some x ∧ owns s r x.own = false → exec c s = .next (finish (begun s r i e) (refOf r i e) 0x02 0 0)))
  ∧ (∀ (r i : Nat) (h : HRead) (c : Instr) (s : State),
    behindRing s r i = true →
    c ∈ [Instr.setDestroy r i, Instr.setConfig r i h, Instr.bind r i, Instr.entryAdd r i h, Instr.entryDel r i h, Instr.rangeSet r i h, Instr.setCommit r i, Instr.counterRead r i, Instr.legacyLoad r i h] →
    exec c s = .next s)
  ∧ (∀ (r i : Nat) (x : RuleSet) (e : Fetched) (s : State),
    Starts s r i 0x21 0x04 e →
    behindRing s r i = false →
    (oget s.cls.sets (fld e.desc.toNat 64 6) = some x ∧ owns s r x.own = true) →
    (anyBind x = true → exec (.setDestroy r i) s = .next (finish (begun s r i e) (refOf r i e) 0x84 0 0))
    ∧ (anyBind x = false → exec (.setDestroy r i) s = .next (finish ((begun s r i e).modCls (fun c => { c with sets := odel c.sets (fld e.desc.toNat 64 6) })) (refOf r i e) 0 0 0)))
  ∧ (∀ (r i : Nat) (x : RuleSet) (bs : List Byte) (c : SetConf) (e : Fetched) (s : State),
    Starts s r i 0x21 0x05 e →
    behindRing s r i = false →
    (oget s.cls.sets (fld e.desc.toNat 64 6) = some x ∧ owns s r x.own = true) →
    (fld e.desc.toNat 128 64 % 64 = 0 ∧ rdHost s r 256 (.ok bs) = (0, bs) ∧ parseSet (graphOf s x.graph) bs = some c) →
    exec (.setConfig r i (.ok bs)) s = .next (finish (modPending (begun s r i e) (fld e.desc.toNat 64 6) (fun v => { v with conf := c })) (refOf r i e) 0 0 0))
  ∧ (∀ (r i : Nat) (x : RuleSet) (bs : List Nat) (e : Fetched) (s : State),
    Starts s r i 0x21 0x06 e →
    behindRing s r i = false →
    (oget s.cls.sets (fld e.desc.toNat 64 6) = some x ∧ owns s r x.own = true) →
    ((List.range 16).filter (fun p => bitAt (fld e.desc.toNat 192 16) p)).all (fun p => netMay s r p) = true →
    bs = ((List.range 16).filter (fun p => bitAt (fld e.desc.toNat 192 16) p)).flatMap (fun p => (if bitAt e.desc.toNat 208 then [bindNo false p] else []) ++ (if bitAt e.desc.toNat 209 then [bindNo true p] else [])) →
    (bitAt e.desc.toNat 210 = true → exec (.bind r i) s = .next (finish (modPending (begun s r i e) (fld e.desc.toNat 64 6) (fun v => { v with binds := v.binds.filter (fun b => !bs.contains b) })) (refOf r i e) 0 0 0))
    ∧ (bitAt e.desc.toNat 210 = false ∧ bs.any (fun b => s.cls.sets.any (fun y => y.1 != fld e.desc.toNat 64 6 && (y.2.pendingVer.binds.contains b || y.2.vers.any (fun v => v.2.binds.contains b)))) = false →
    exec (.bind r i) s = .next (finish (modPending (begun s r i e) (fld e.desc.toNat 64 6) (fun v => { v with binds := unionNat v.binds bs })) (refOf r i e) 0 0 0))
    ∧ (bitAt e.desc.toNat 210 = false ∧ bs.any (fun b => s.cls.sets.any (fun y => y.1 != fld e.desc.toNat 64 6 && (y.2.pendingVer.binds.contains b || y.2.vers.any (fun v => v.2.binds.contains b)))) = true →
    exec (.bind r i) s = .next (finish (begun s r i e) (refOf r i e) 0x84 0 0)))
  ∧ (∀ (r i n : Nat) (x : RuleSet) (bs : List Byte) (e : Fetched) (s : State),
    ((Starts s r i 0x21 0x07 e) ∨ (Starts s r i 0x21 0x08 e)) →
    behindRing s r i = false →
    (oget s.cls.sets (fld e.desc.toNat 64 6) = some x ∧ owns s r x.own = true) →
    (n = fld e.desc.toNat 96 32 ∧ 1 ≤ n ∧ n ≤ 4096 ∧ fld e.desc.toNat 128 64 % 64 = 0 ∧ rdHost s r (64 * n) (.ok bs) = (0, bs)) →
    ((Starts s r i 0x21 0x07 e) → exec (.entryAdd r i (.ok bs)) s = .next (finish (runRecords (fun s v => addEntry s (fld e.desc.toNat 64 6) v) n (begun s r i e) bs 0).1 (refOf r i e)
    (runRecords (fun s v => addEntry s (fld e.desc.toNat 64 6) v) n (begun s r i e) bs 0).2.2 (runRecords (fun s v => addEntry s (fld e.desc.toNat 64 6) v) n (begun s r i e) bs 0).2.1 0))
    ∧ ((Starts s r i 0x21 0x08 e) → exec (.entryDel r i (.ok bs)) s = .next (finish (runRecords (fun s v => delEntry s (fld e.desc.toNat 64 6) v) n (begun s r i e) bs 0).1 (refOf r i e)
    (runRecords (fun s v => delEntry s (fld e.desc.toNat 64 6) v) n (begun s r i e) bs 0).2.2 (runRecords (fun s v => delEntry s (fld e.desc.toNat 64 6) v) n (begun s r i e) bs 0).2.1 0)))
  ∧ (∀ (r i v : Nat) (x : RuleSet) (bs : List Byte) (ts : List (Nat × Nat × Nat)) (e : Fetched) (s : State),
    Starts s r i 0x21 0x09 e →
    behindRing s r i = false →
    (oget s.cls.sets (fld e.desc.toNat 64 6) = some x ∧ owns s r x.own = true) →
    (fld e.desc.toNat 128 64 % 64 = 0 ∧ rdHost s r 64 (.ok bs) = (0, bs) ∧ v = leNat bs) →
    ts = ((List.range 4).map (fun t => (fld v (80 * t) 8, fld v (80 * t + 16) 32, fld v (80 * t + 48) 32))).filter (fun t => t.1 != 0) →
    ((List.range 4).any (fun t => fld v (80 * t + 8) 8 != 0) = false ∧ fld v 321 7 = 0 ∧ fld v 456 56 = 0 ∧ actionOk (fld v 328 128) = true) →
    ts.any (fun t => fieldBytes (graphOf s x.graph) t.1 == 0 || decide (4 < fieldBytes (graphOf s x.graph) t.1)) = false →
    exec (.rangeSet r i (.ok bs)) s = .next (finish (modPending (begun s r i e) (fld e.desc.toNat 64 6) (fun p => { p with comps := putComp p.comps { index := fld e.desc.toNat 192 6, terms := ts, enabled := bitAt v 320, action := fld v 328 128 } })) (refOf r i e) 0 0 0))
  ∧ (∀ (r i : Nat) (x : RuleSet) (bs : List Byte) (cs : List Comparator) (e : Fetched) (s : State),
    Starts s r i 0x60 0x01 e →
    behindRing s r i = false →
    (oget s.cls.sets (fld e.desc.toNat 64 6) = some x ∧ owns s r x.own = true) →
    (fld e.desc.toNat 128 64 % 64 = 0 ∧ rdHost s r (fld e.desc.toNat 96 32) (.ok bs) = (0, bs) ∧ legacyRules (fld e.desc.toNat 192 6) bs = some cs) →
    exec (.legacyLoad r i (.ok bs)) s = .next (finish (modPending (begun s r i e) (fld e.desc.toNat 64 6) (fun p => { p with comps := cs.foldl putComp p.comps })) (refOf r i e) 0 cs.length 0))
  ∧ (∀ (r i : Nat) (x : RuleSet) (e : Fetched) (s u : State),
    Starts s r i 0x21 0x0A e →
    behindRing s r i = false →
    (oget s.cls.sets (fld e.desc.toNat 64 6) = some x ∧ owns s r x.own = true) →
    (x.vers.filter (fun p => versionUsed s (fld e.desc.toNat 64 6) p.1)).length + 2 ≤ 4 →
    installAll (x.entries.length + 1) (begun s r i e) (fld e.desc.toNat 64 6) ((List.range 16).filter (fun t => x.pendingVer.binds.contains t || x.pendingVer.binds.contains (32 + t))) 0 = some u →
    exec (.setCommit r i) s = .next (finish (reclaim (postEvent (u.modSet (fld e.desc.toNat 64 6) (fun r => { r with active := x.active + 1, vers := oput r.vers (x.active + 1) r.pendingVer })) r 0x2101 (fld e.desc.toNat 64 6) ((x.active + 1) % 2 ^ 16)) (fld e.desc.toNat 64 6)) (refOf r i e) 0 ((x.active + 1) % 2 ^ 16) 0))
  ∧ (∀ (r i : Nat) (x : RuleSet) (e : Fetched) (s : State),
    Starts s r i 0x21 0x0B e →
    behindRing s r i = false →
    (oget s.cls.sets (fld e.desc.toNat 64 6) = some x ∧ owns s r x.own = true) →
    (1 ≤ fld e.desc.toNat 96 32 ∧ fld e.desc.toNat 192 32 + fld e.desc.toNat 96 32 ≤ 4096 ∧ fld e.desc.toNat 128 64 % 64 = 0) →
    exec (.counterRead r i) s = .next (finish (hostWrite (begun s r i e) r (fld e.desc.toNat 128 64) ((List.range (fld e.desc.toNat 96 32)).flatMap (fun i => counterSum x (fld e.desc.toNat 192 32 + i)))) (refOf r i e) 0 (fld e.desc.toNat 96 32) 0))

/-- A frame on an interface that is up joins its tile's receive lane or is counted as overflow, and a pass takes the packet at the front of a lane (spec/10_packet_classification.md (R353, R355, R356, R373), spec/11_scheduling_and_gates.md (R404)). -/
def Obligations.FramesEnterAndLeaveTheClassifier : Prop :=
  (∀ (j : Nat) (fr : List Byte) (s u : State),
    (j < 64 ∧ (s.netIf j).up = true) →
    u = addTotal (tapUnit s { tap := 3, sel := j } fr) 4 j 0 fr.length →
    ((s.ctile (j / 4)).rx.foldl (fun n l => n + l.bytes.length) 0 + fr.length ≤ 8 * 2 ^ 20 →
    exec (.rxFrame j fr) s = .next (u.modCtile (j / 4) (fun c => { c with rx := c.rx ++ [{ iface := j, bytes := fr, arrived := fr, ts := (ptp s + 2 ^ 64 - (s.netPort (j / 4)).rxDelay) % 2 ^ 64 }] })))
    ∧ (8 * 2 ^ 20 < (s.ctile (j / 4)).rx.foldl (fun n l => n + l.bytes.length) 0 + fr.length →
    exec (.rxFrame j fr) s = .next (countOverflow u (j / 4))))
  ∧ (∀ (t : Nat) (tx : Bool) (l : Lane) (rest : List Lane) (s u : State),
    (t < 16 ∧ (if tx then (s.ctile t).tx else (s.ctile t).rx) = l :: rest ∧ (passAction s t tx l).any (fun x => sealHolds s t x.1 tx x.2) = false) →
    u = s.modCtile t (fun c => if tx then { c with tx := rest } else { c with rx := rest }) →
    (l.set = none → exec (.classifyPass t tx) s = .next (runPass u t tx l))
    ∧ (∀ k v, l.set = some (k, v) → exec (.classifyPass t tx) s = .next (reclaim (runPass u t tx l) k))
    ∧ (l.set = none ∧ l.passes = 0 ∧ boundSet u (bindNo true t) = none ∧ tx = true → exec (.classifyPass t tx) s = .next (joinTx u l.iface { bytes := l.bytes, ref := l.ref, stamp := l.stamp, qpn := l.qpn, resp := l.resp }))
    ∧ (l.set = none ∧ l.passes = 0 ∧ boundSet u (bindNo false t) = none ∧ tx = false ∧ roceAt l.bytes = none → exec (.classifyPass t tx) s = .next (u.modCtile t (fun c => { c with noSet := satAdd 32 c.noSet 1 }))))

/-- Each command of kinds 0x22 and 0x24, with its checks met, makes its change; a ring pair with no queue and a foreign port are refused with their status (spec/11_scheduling_and_gates.md (R388, R389, R390, R394, R395, R398, R405, R406)). -/
def Obligations.QueueCommandsComplete : Prop :=
  (∀ (r i p n : Nat) (e : Fetched) (s u : State),
    Starts s r i 0x22 0x01 e →
    (u = unorder (begun s r i e) (refOf r i e) ∧ p = fld e.desc.toNat 64 4 ∧ n = fld e.desc.toNat 70 12 ∧ netMay s r p = true) →
    (fld e.desc.toNat 68 2 < ifsOf (s.netPort p).breakout ∧ ratesOk (dCir e.desc.toNat) (dPir e.desc.toNat) (dCbs e.desc.toNat) (dPbs e.desc.toNat) = true) →
    (oget (s.netPort p).txqs n = none ∧ txqOf s r i = none ∧ rxqOf s r i = none → exec (.txqCreate r i) s = .next (finish (putTxq u p n
    { fn := r, gen := (u.fn r).gen, ring := i, iface := 4 * p + fld e.desc.toNat 68 2, cls := fld e.desc.toNat 82 3, weight := fld e.desc.toNat 85 8, shaper := newBuckets (dCir e.desc.toNat) (dPir e.desc.toNat) (dCbs e.desc.toNat) (dPbs e.desc.toNat) (ptp s) }) (refOf r i e) 0 0 0))
    ∧ ((oget (s.netPort p).txqs n).isSome = true ∨ (txqOf s r i).isSome = true ∨ (rxqOf s r i).isSome = true → exec (.txqCreate r i) s = .next (finish u (refOf r i e) 0x82 0 0)))
  ∧ (∀ (r i p n : Nat) (e : Fetched) (s u : State),
    Starts s r i 0x22 0x02 e →
    (u = unorder (begun s r i e) (refOf r i e) ∧ p = fld e.desc.toNat 64 4 ∧ n = fld e.desc.toNat 70 12 ∧ netMay s r p = true ∧ fld e.desc.toNat 68 2 = 0) →
    (oget (s.netPort p).rxqs n = none ∧ txqOf s r i = none ∧ rxqOf s r i = none) →
    exec (.rxqCreate r i) s = .next (finish (u.modNetPort p (fun x => { x with rxqs := oput x.rxqs n { fn := r, gen := (u.fn r).gen, ring := i } })) (refOf r i e) 0 0 0))
  ∧ (∀ (r i op : Nat) (c : Instr) (e : Fetched) (s : State),
    Starts s r i 0x22 op e →
    (c, op) ∈ [(Instr.txqCreate r i, 1), (Instr.rxqCreate r i, 2), (Instr.policerSet r i, 5), (Instr.policerRead r i, 6)] →
    netMay s r (fld e.desc.toNat 64 4) = false →
    exec c s = .next (finish (unorder (begun s r i e) (refOf r i e)) (refOf r i e) 0x02 0 0))
  ∧ (∀ (r i p n : Nat) (q : Txq) (e : Fetched) (s u : State),
    Starts s r i 0x22 0x03 e →
    (u = unorder (begun s r i e) (refOf r i e) ∧ txqOf s r i = some (p, n, q) ∧ ratesOk (dCir e.desc.toNat) (dPir e.desc.toNat) (dCbs e.desc.toNat) (dPbs e.desc.toNat) = true) →
    exec (.qConfig r i) s = .next (finish (putTxq u p n { q with cls := fld e.desc.toNat 82 3, weight := fld e.desc.toNat 85 8, shaper := { refill q.shaper (ptp s) with cir := dCir e.desc.toNat, pir := dPir e.desc.toNat, cbs := dCbs e.desc.toNat, pbs := dPbs e.desc.toNat } }) (refOf r i e) 0 0 0))
  ∧ (∀ (r i : Nat) (h : HRead) (e : Fetched) (s : State),
    (((Starts s r i 0x22 0x03 e) ∨ (Starts s r i 0x22 0x04 e)) ∨ ((Starts s r i 0x22 0x10 e) ∨ (Starts s r i 0x22 0x11 e))) →
    (txqOf s r i = none ∧ rxqOf s r i = none) →
    ((Starts s r i 0x22 0x03 e) → exec (.qConfig r i) s = .next (finish (unorder (begun s r i e) (refOf r i e)) (refOf r i e) 0x80 0 0))
    ∧ ((Starts s r i 0x22 0x04 e) → exec (.qDestroy r i) s = .next (finish (unorder (begun s r i e) (refOf r i e)) (refOf r i e) 0x80 0 0))
    ∧ ((Starts s r i 0x22 0x10 e) → exec (.txPacket r i h) s = .next (finish (begun s r i e) (refOf r i e) 0x83 0 0))
    ∧ ((Starts s r i 0x22 0x11 e) → exec (.rxBuffer r i) s = .next (finish (unorder (begun s r i e) (refOf r i e)) (refOf r i e) 0x83 0 0)))
  ∧ (∀ (r i p n : Nat) (e : Fetched) (s u : State),
    Starts s r i 0x22 0x04 e →
    u = unorder (begun s r i e) (refOf r i e) →
    (∀ q : Txq, txqOf s r i = some (p, n, q) → exec (.qDestroy r i) s = .next (finish (dropTxq u p n q) (refOf r i e) 0 0 0))
    ∧ (∀ q : Rxq, txqOf s r i = none ∧ rxqOf s r i = some (p, n, q) → exec (.qDestroy r i) s = .next (finish (dropRxq u p n q) (refOf r i e) 0 0 0)))
  ∧ (∀ (r i p n : Nat) (e : Fetched) (s u : State),
    Starts s r i 0x22 0x05 e →
    (u = unorder (begun s r i e) (refOf r i e) ∧ p = fld e.desc.toNat 64 4 ∧ n = fld e.desc.toNat 70 12 ∧ netMay s r p = true) →
    (n ≠ 0 ∧ fld e.desc.toNat 208 2 ≠ 3 ∧ fld e.desc.toNat 210 2 ≠ 3 ∧ fld e.desc.toNat 212 2 ≠ 3 ∧ ratesOk (dCir e.desc.toNat) (dPir e.desc.toNat) (dCbs e.desc.toNat) (dPbs e.desc.toNat) = true) →
    exec (.policerSet r i) s = .next (finish (u.modNetPort p (fun x => { x with policers := oput x.policers n { b := newBuckets (dCir e.desc.toNat) (dPir e.desc.toNat) (dCbs e.desc.toNat) (dPbs e.desc.toNat) (ptp s), green := fld e.desc.toNat 208 2, yellow := fld e.desc.toNat 210 2, red := fld e.desc.toNat 212 2, dscp := fld e.desc.toNat 214 6, counts := (oget (s.netPort p).policers n).elim [0, 0, 0, 0, 0, 0] (·.counts) } })) (refOf r i e) 0 0 0))
  ∧ (∀ (r i p n : Nat) (e : Fetched) (s u : State),
    Starts s r i 0x22 0x06 e →
    (u = unorder (begun s r i e) (refOf r i e) ∧ p = fld e.desc.toNat 64 4 ∧ n = fld e.desc.toNat 70 12 ∧ netMay s r p = true) →
    (n ≠ 0 ∧ fld e.desc.toNat 256 64 % 64 = 0) →
    exec (.policerRead r i) s = .next (finish (hostWrite u r (fld e.desc.toNat 256 64) (((oget (s.netPort p).policers n).elim [0, 0, 0, 0, 0, 0] (·.counts)).flatMap (natLE 8))) (refOf r i e) 0 0 0))
  ∧ (∀ (r i p n : Nat) (q : Txq) (bs : List Byte) (e : Fetched) (s : State),
    Starts s r i 0x22 0x10 e →
    (txqOf s r i = some (p, n, q) ∧ 60 ≤ fld e.desc.toNat 128 14 ∧ fld e.desc.toNat 128 14 ≤ 9212 ∧ fld e.desc.toNat 64 64 % 64 = 0) →
    rdHost s r (fld e.desc.toNat 128 14) (.ok bs) = (0, bs) →
    (laneFull (s.ctile p).tx (fld e.desc.toNat 128 14) = false → exec (.txPacket r i (.ok bs)) s = .next ((begun s r i e).modCtile p (fun c => { c with tx := c.tx ++ [{ iface := q.iface, bytes := bs, ref := some (refOf r i e), stamp := bitAt e.desc.toNat 142 }] })))
    ∧ (laneFull (s.ctile p).tx (fld e.desc.toNat 128 14) = true → exec (.txPacket r i (.ok bs)) s = .next (finish (countOverflow (begun s r i e) p) (refOf r i e) 0x84 0 0)))
  ∧ (∀ (r i p n : Nat) (q : Rxq) (e : Fetched) (s : State),
    Starts s r i 0x22 0x11 e →
    (rxqOf s r i = some (p, n, q) ∧ 80 ≤ fld e.desc.toNat 128 14 ∧ fld e.desc.toNat 64 64 % 64 = 0) →
    exec (.rxBuffer r i) s = .next ((unorder (begun s r i e) (refOf r i e)).modNetPort p (fun x => { x with rxqs := oput x.rxqs n { q with bufs := q.bufs ++ [((refOf r i e), fld e.desc.toNat 64 64, fld e.desc.toNat 128 14)] } })))
  ∧ (∀ (r i : Nat) (e : Fetched) (s u : State),
    Starts s r i 0x24 0x01 e →
    u = { (begun s r i e) with net := { s.net with waits := s.net.waits ++ [{ ref := (refOf r i e), at_ := fld e.desc.toNat 64 64 }] } } →
    (exec (.timeWait r i) s = .next (endDue (s.net.waits.length + 1) u))
    ∧ (s.net.waits = [] ∧ ptp s < fld e.desc.toNat 64 64 → exec (.timeWait r i) s = .next u)
    ∧ (s.net.waits = [] ∧ fld e.desc.toNat 64 64 ≤ ptp s → exec (.timeWait r i) s = .next (finish { (begun s r i e) with net := { s.net with waits := [] } } (refOf r i e) 0 (ptp s) 0)))

/-- At a frame boundary the scheduler's choice starts to leave, its end completes the TX_PACKET, and waits, links, breakout and gate lists do as their rules say (spec/11_scheduling_and_gates.md (R387, R390, R391, R392, R393, R395, R399, R401, R404, R405)). -/
def Obligations.FramesLeaveAtABoundary : Prop :=
  (∀ (j : Nat) (s u : State),
    (j < 64 ∧ (s.netIf j).up = true ∧ (s.netIf j).sending = none) →
    u = dropTooLong 8192 s j →
    (chooseFrame u j (ptp s) = none → exec (.frameSelect j) s = .next u)
    ∧ (∀ cls c, chooseFrame u j (ptp s) = some (cls, c) → exec (.frameSelect j) s = .next (takeFrame u j cls (ptp s) c)))
  ∧ (∀ (j t0 t1 : Nat) (f : TxFrame) (s u v : State),
    (s.netIf j).sending = some (f, t0, t1) →
    u = (advanceToPtp s t1).modNetIf j (fun i => { i with sending := none, lastAct := t1 }) →
    v = addTotal (emit (tapUnit u { tap := 4, sel := j } f.bytes) (.frame j f.bytes)) 4 j 1 f.bytes.length →
    (f.ref = none → exec (.frameTxDone j) s = .next v)
    ∧ (∀ ref, f.ref = some ref ∧ f.stamp = true → exec (.frameTxDone j) s = .next (finish v ref 0 (t0 + (s.netPort (j / 4)).txDelay) 0))
    ∧ (∀ ref, f.ref = some ref ∧ f.stamp = false → exec (.frameTxDone j) s = .next (finish v ref 0 0 0)))
  ∧ (∀ (w : TimeWait) (s u : State),
    earliest s.net.waits = some w →
    u = advanceToPtp s w.at_ →
    exec .timeWaitDue s = .next (finish { u with net := { u.net with waits := u.net.waits.filter (fun x => x.ref != w.ref) } } w.ref 0 (ptp u) 0))
  ∧ (∀ (j : Nat) (s : State),
    (j < 64 ∧ j % 4 < ifsOf (s.netPort (j / 4)).breakout) →
    ((s.netIf j).up = false ∧ domOn s (nptTile (j / 4)) = true → exec (.interfaceLinkChange j true) s = .next (resetTags (s.modNetIf j (fun i => { i with up := true })) j))
    ∧ ((s.netIf j).up = true → exec (.interfaceLinkChange j false) s = .next (cvAbortIf (s.modNetIf j (fun i => { i with up := false })) j)))
  ∧ (∀ (fn p v : Nat) (s : State),
    (heldBack s fn 0 = false ∧ isPf1 fn = true ∧ present s fn = true) →
    (p < 16 ∧ netOwner s p = fn ∧ reachable s (nptTile p) = true) →
    (v % 4 ≠ 3 ∧ v % 4 ≠ (s.netPort p).breakout) →
    (portInUse s p = true → exec (.breakoutWrite fn p v) s = .next (s.modNetPort p (fun x => { x with refused := true })))
    ∧ (portInUse s p = false → exec (.breakoutWrite fn p v) s = .next ((List.range 4).foldl (fun s i => resetTags s (4 * p + i))
    (((List.range 4).foldl (fun s i => doLinkChange (4 * p + i) false s) s).modNetPort p (fun x => { x with breakout := v % 4 })))))
  ∧ (∀ (fn j : Nat) (s : State),
    (heldBack s fn 0 = false ∧ isPf1 fn = true ∧ present s fn = true) →
    (j / 4 < 16 ∧ netOwner s (j / 4) = fn ∧ reachable s (nptTile (j / 4)) = true) →
    (gateFault 8 256 (netShadow (s.netIf j)) = none → exec (.schGateCommit fn j) s = .next (s.modNetIf j (fun i => { i with gateStatus := 0, gateBadEntry := 0, gateHeaderBad := false, gatePend := some { netShadow (s.netIf j) with change := max (netShadow (s.netIf j)).change (ptp s) } })))
    ∧ (∀ x hb, gateFault 8 256 (netShadow (s.netIf j)) = some (x, hb) → exec (.schGateCommit fn j) s = .next (s.modNetIf j (fun i => { i with gateStatus := 0x06, gateBadEntry := x, gateHeaderBad := hb }))))

/-- Each command of a SEAL ring, on a slot of the function in the kind and state it asks for, makes its change and completes with 0x00 (spec/12_sealing_engines.md (R415, R416, R417, R418, R419, R420, R424, R425, R428, R429, R430, R434, R435)). -/
def Obligations.SealCommandsComplete : Prop :=
  (∀ (r i n : Nat) (e : Fetched) (s : State),
    Starts s r i 0x23 0x01 e →
    (isVf r = false ∧ lowestFree s.sealing.slots 0 262144 = some n) →
    (fld e.desc.toNat 64 2 ≠ 0 → exec (.keyAlloc r i) s = .next (finish (((begun s r i e).modSeal (fun q => { q with keyPtr := (((begun s r i e).ring r i).owner + 1) % 66 })).putSlot n { kind := fld e.desc.toNat 64 2, own := s.ownOf r }) (refOf r i e) 0 n 0))
    ∧ (fld e.desc.toNat 64 2 = 0 → exec (.keyAlloc r i) s = .next (finish (begun s r i e) (refOf r i e) 0x06 0 0)))
  ∧ (∀ (r i op : Nat) (x y : HRead) (c : Instr) (e : Fetched) (s : State),
    Starts s r i 0x23 op e →
    (c, op) ∈ [(Instr.keyLoad r i x, 2), (Instr.keyFree r i, 3), (Instr.saSet r i x, 4), (Instr.sealGcm r i x y, 5), (Instr.openGcm r i x y, 6), (Instr.xtsEnc r i x, 7), (Instr.xtsDec r i x, 8), (Instr.ctxSave r i, 10), (Instr.ctxRestore r i x, 11), (Instr.saQuery r i, 12)] →
    (s.slot (dSlot e.desc.toNat)).all (fun k => !owns s r k.own) = true →
    (sealWaits s r i (fld e.desc.toNat 82 18) = false ∨ (op ≠ 10 ∧ op ≠ 11)) →
    exec c s = .next (finish (begun s r i e) (refOf r i e) 0x02 0 0))
  ∧ (∀ (r i op a : Nat) (x y : HRead) (c : Instr) (e : Fetched) (s : State),
    Starts s r i 0x23 op e →
    (c, op, a) ∈ [(Instr.sealGcm r i x y, 5, 64), (Instr.openGcm r i x y, 6, 64), (Instr.xtsEnc r i x, 7, 64), (Instr.xtsDec r i x, 8, 64), (Instr.ctxSave r i, 10, 82), (Instr.ctxRestore r i x, 11, 82)] →
    sealWaits s r i (fld e.desc.toNat a 18) = true →
    exec c s = .next s)
  ∧ (∀ (r i : Nat) (k : KeySlot) (x : HRead) (bs : List Byte) (e : Fetched) (s u : State),
    Starts s r i 0x23 0x02 e →
    (s.slot (dSlot e.desc.toNat) = some k ∧ owns s r k.own = true ∧ [1, 2, 3].contains k.kind = true ∧ k.st = .allocated) →
    rdSpace (begun s r i e) r 22 (dSrc e.desc.toNat) 64 x = (u, 0, bs) →
    (materialOk k.kind bs = true → exec (.keyLoad r i x) s = .next (finish (u.putSlot (dSlot e.desc.toNat) { k with st := .loaded, material := bs, counter := 1 }) (refOf r i e) 0 0 0))
    ∧ (materialOk k.kind bs = false → exec (.keyLoad r i x) s = .next (finish u (refOf r i e) 0x06 0 0)))
  ∧ (∀ (r i : Nat) (k : KeySlot) (e : Fetched) (s : State),
    Starts s r i 0x23 0x03 e →
    (s.slot (dSlot e.desc.toNat) = some k ∧ owns s r k.own = true) →
    (slotReferenced s (dSlot e.desc.toNat) = true → exec (.keyFree r i) s = .next (finish (begun s r i e) (refOf r i e) 0x82 0 0))
    ∧ (slotReferenced s (dSlot e.desc.toNat) = false → exec (.keyFree r i) s = .next (finish ((begun s r i e).modSeal (fun q => { q with slots := odel q.slots (dSlot e.desc.toNat) })) (refOf r i e) 0 0 0)))
  ∧ (∀ (r i : Nat) (k : KeySlot) (x : HRead) (bs : List Byte) (a : SaRec) (e : Fetched) (s u : State),
    Starts s r i 0x23 0x04 e →
    (s.slot (dSlot e.desc.toNat) = some k ∧ owns s r k.own = true ∧ k.kind = 1 ∧ k.st = .loaded) →
    (rdSpace (begun s r i e) r 22 (dSrc e.desc.toNat) 128 x = (u, 0, bs) ∧ parseSa bs = some a) →
    (k.used = false ∧ k.sa = none → exec (.saSet r i x) s = .next (finish (u.putSlot (dSlot e.desc.toNat) { k with sa := some a }) (refOf r i e) 0 0 0))
    ∧ (k.used = true ∨ k.sa.isSome = true → exec (.saSet r i x) s = .next (finish (begun s r i e) (refOf r i e) 0x83 0 0)))
  ∧ (∀ (r i t : Nat) (k : KeySlot) (x y : HRead) (pt aad : List Byte) (w : State × Nat) (e : Fetched) (s u v q : State),
    Starts s r i 0x23 0x05 e →
    sealWaits s r i (dSlot e.desc.toNat) = false →
    (s.slot (dSlot e.desc.toNat) = some k ∧ owns s r k.own = true ∧ k.kind = 1 ∧ k.st = .loaded ∧ k.sa = none ∧ dLen e.desc.toNat ≤ 65536) →
    t = tileFor (begun s r i e) (dieOfRing (begun s r i e) (refOf r i e)) (dSlot e.desc.toNat) k →
    (rdSpace (begun s r i e) r (sealDom t) (dSrc e.desc.toNat) (dLen e.desc.toNat) x = (u, 0, pt) ∧ rdSpace u r (sealDom t) (fld e.desc.toNat 256 64) (fld e.desc.toNat 320 16) y = (v, 0, aad)) →
    useCounter v (dSlot e.desc.toNat) t k = some q →
    (w = wrSpace (countBytes q t (dLen e.desc.toNat)) r (sealDom t) (dDst e.desc.toNat) ((gcmSeal (keyOf k) (nonceOf k k.counter) aad pt).1 ++ (gcmSeal (keyOf k) (nonceOf k k.counter) aad pt).2) ∧ w.2 = 0) →
    exec (.sealGcm r i x y) s = .next (finish w.1 (refOf r i e) 0 k.counter 0))
  ∧ (∀ (r i t : Nat) (k : KeySlot) (x y : HRead) (ct aad : List Byte) (e : Fetched) (s u v q : State),
    Starts s r i 0x23 0x06 e →
    sealWaits s r i (dSlot e.desc.toNat) = false →
    (s.slot (dSlot e.desc.toNat) = some k ∧ owns s r k.own = true ∧ k.kind = 1 ∧ k.st = .loaded ∧ k.sa = none ∧ dLen e.desc.toNat ≤ 65536) →
    t = tileFor (begun s r i e) (dieOfRing (begun s r i e) (refOf r i e)) (dSlot e.desc.toNat) k →
    (rdSpace (begun s r i e) r (sealDom t) (dSrc e.desc.toNat) (dLen e.desc.toNat + 16) x = (u, 0, ct) ∧ rdSpace u r (sealDom t) (fld e.desc.toNat 256 64) (fld e.desc.toNat 320 16) y = (v, 0, aad)) →
    q = countBytes (v.putSlot (dSlot e.desc.toNat) { k with used := true, pinned := some t }) t (dLen e.desc.toNat) →
    (gcmOpen (keyOf k) (nonceOf k (fld e.desc.toNat 384 64)) aad (ct.take (dLen e.desc.toNat)) (ct.drop (dLen e.desc.toNat)) = none → exec (.openGcm r i x y) s = .next (finish q (refOf r i e) 0x80 0 0))
    ∧ (∀ pt, gcmOpen (keyOf k) (nonceOf k (fld e.desc.toNat 384 64)) aad (ct.take (dLen e.desc.toNat)) (ct.drop (dLen e.desc.toNat)) = some pt ∧ (wrSpace q r (sealDom t) (dDst e.desc.toNat) pt).2 = 0 →
    exec (.openGcm r i x y) s = .next (finish (wrSpace q r (sealDom t) (dDst e.desc.toNat) pt).1 (refOf r i e) 0 0 0)))
  ∧ (∀ (r i t du : Nat) (k : KeySlot) (x : HRead) (bs : List Byte) (enc : Bool) (e : Fetched) (s u q : State),
    Starts s r i 0x23 (if enc then 0x07 else 0x08) e →
    sealWaits s r i (dSlot e.desc.toNat) = false →
    (s.slot (dSlot e.desc.toNat) = some k ∧ owns s r k.own = true ∧ k.kind = 2 ∧ k.st = .loaded) →
    (du = (if bitAt e.desc.toNat 336 then 4096 else 512) ∧ dLen e.desc.toNat ≤ 2 ^ 31 ∧ dLen e.desc.toNat % du = 0) →
    (t = tileFor (begun s r i e) (dieOfRing (begun s r i e) (refOf r i e)) (dSlot e.desc.toNat) k ∧ rdSpace (begun s r i e) r (sealDom t) (dSrc e.desc.toNat) (dLen e.desc.toNat) x = (u, 0, bs)) →
    q = countBytes (u.putSlot (dSlot e.desc.toNat) { k with used := true, pinned := some t }) t (dLen e.desc.toNat) →
    (wrSpace q r (sealDom t) (dDst e.desc.toNat) (xts enc du (fld e.desc.toNat 256 64) k.material bs)).2 = 0 →
    (enc = true → exec (.xtsEnc r i x) s = .next (finish (wrSpace q r (sealDom t) (dDst e.desc.toNat) (xts enc du (fld e.desc.toNat 256 64) k.material bs)).1 (refOf r i e) 0 (dLen e.desc.toNat / du) 0))
    ∧ (enc = false → exec (.xtsDec r i x) s = .next (finish (wrSpace q r (sealDom t) (dDst e.desc.toNat) (xts enc du (fld e.desc.toNat 256 64) k.material bs)).1 (refOf r i e) 0 (dLen e.desc.toNat / du) 0)))
  ∧ (∀ (r i : Nat) (x y : HRead) (bs st : List Byte) (d : List Byte) (e : Fetched) (s u v : State),
    Starts s r i 0x23 0x09 e →
    ((bitAt e.desc.toNat 337 = true ∨ dLen e.desc.toNat % 64 = 0) ∧ fld e.desc.toNat 256 64 % 64 = 0) →
    (rdSpace (begun s r i e) r 22 (dSrc e.desc.toNat) (dLen e.desc.toNat) x = (u, 0, bs) ∧ rdSpace u r 22 (fld e.desc.toNat 384 64) (if fld e.desc.toNat 384 64 = 0 then 0 else 32) y = (v, 0, st)) →
    d = toBs (if bitAt e.desc.toNat 337 then shaFinal (if fld e.desc.toNat 384 64 = 0 then shaInit else shaWords (ofBs st)) (fld e.desc.toNat 256 64) (ofBs bs) else shaBytes (shaBlocks (dLen e.desc.toNat / 64) (if fld e.desc.toNat 384 64 = 0 then shaInit else shaWords (ofBs st)) (ofBs bs))) →
    (wrSpace v r 22 (dDst e.desc.toNat) d).2 = 0 →
    exec (.hash r i x y) s = .next (finish (wrSpace v r 22 (dDst e.desc.toNat) d).1 (refOf r i e) 0 0 0))
  ∧ (∀ (r i t : Nat) (k w : KeySlot) (p : State × Nat) (e : Fetched) (s q : State),
    Starts s r i 0x23 0x0A e →
    sealWaits s r i (fld e.desc.toNat 82 18) = false →
    (s.slot (dSlot e.desc.toNat) = some k ∧ owns s r k.own = true ∧ [1, 2, 3].contains k.kind = true ∧ k.st = .loaded) →
    (s.slot (fld e.desc.toNat 82 18) = some w ∧ owns s r w.own = true ∧ w.kind = 3 ∧ w.st = .loaded) →
    (t = tileFor (begun s r i e) (dieOfRing (begun s r i e) (refOf r i e)) (fld e.desc.toNat 82 18) w ∧ useCounter (begun s r i e) (fld e.desc.toNat 82 18) t w = some q) →
    (p = wrSpace q r (sealDom t) (dDst e.desc.toNat) (ctxHead k.kind w.counter ++ (gcmSeal (keyOf w) (nonceOf w w.counter) (ctxHead k.kind w.counter) (ctxClear k)).1 ++ (gcmSeal (keyOf w) (nonceOf w w.counter) (ctxHead k.kind w.counter) (ctxClear k)).2) ∧ p.2 = 0) →
    exec (.ctxSave r i) s = .next (finish (p.1.modSeal (fun q => { q with slots := omod q.slots (dSlot e.desc.toNat) (fun x => { x with st := .saved }) })) (refOf r i e) 0 w.counter 0))
  ∧ (∀ (r i : Nat) (k w : KeySlot) (x : HRead) (bs : List Byte) (e : Fetched) (s u : State),
    Starts s r i 0x23 0x0B e →
    sealWaits s r i (fld e.desc.toNat 82 18) = false →
    (s.slot (dSlot e.desc.toNat) = some k ∧ owns s r k.own = true ∧ [1, 2, 3].contains k.kind = true ∧ k.st = .allocated) →
    (s.slot (fld e.desc.toNat 82 18) = some w ∧ owns s r w.own = true ∧ w.kind = 3 ∧ w.st = .loaded) →
    rdSpace (begun s r i e) r 22 (dSrc e.desc.toNat) 512 x = (u, 0, bs) →
    (bs.take 16 ≠ ctxHead k.kind (fld (leNat (bs.take 16)) 64 64) → exec (.ctxRestore r i x) s = .next (finish u (refOf r i e) 0x80 0 0))
    ∧ (∀ pt, bs.take 16 = ctxHead k.kind (fld (leNat (bs.take 16)) 64 64) ∧ gcmOpen (keyOf w) (nonceOf w (fld (leNat (bs.take 16)) 64 64)) (bs.take 16) (sliceB bs 16 480) (sliceB bs 496 16) = some pt →
    exec (.ctxRestore r i x) s = .next (finish (u.putSlot (dSlot e.desc.toNat) (ctxParse k pt)) (refOf r i e) 0 0 0))
    ∧ (bs.take 16 = ctxHead k.kind (fld (leNat (bs.take 16)) 64 64) ∧ gcmOpen (keyOf w) (nonceOf w (fld (leNat (bs.take 16)) 64 64)) (bs.take 16) (sliceB bs 16 480) (sliceB bs 496 16) = none →
    exec (.ctxRestore r i x) s = .next (finish u (refOf r i e) 0x80 0 0)))
  ∧ (∀ (r i : Nat) (k : KeySlot) (e : Fetched) (s : State),
    Starts s r i 0x23 0x0C e →
    (s.slot (dSlot e.desc.toNat) = some k ∧ owns s r k.own = true ∧ k.kind = 1 ∧ k.st = .loaded) →
    (k.sa = none → exec (.saQuery r i) s = .next (finish (begun s r i e) (refOf r i e) 0 k.counter 0))
    ∧ (∀ a, k.sa = some a → exec (.saQuery r i) s = .next (finish (begun s r i e) (refOf r i e) 0 (if a.inbound then k.hiSeq else k.counter) 0)))

/-- A SEAL tile that faults takes no work and is shuttered, recovery ends its masked second, and the management cipher's lock goes to one claimant (spec/12_sealing_engines.md (R427, R428, R432, R433)). -/
def Obligations.SealTilesAndTheCipherLock : Prop :=
  (∀ (t : Nat) (s u : State),
    (t < 8 ∧ inService s (sealDom t) = true) →
    u = s.modStile t (fun k => { k with faulted := true }) →
    (leaveCode u (sealDom t) none = 0 → exec (.sealTileFault t) s = .next (closeTile u (sealDom t) { target := 0, prev := 2 }))
    ∧ (leaveCode u (sealDom t) none ≠ 0 → exec (.sealTileFault t) s = .next (refuseEntry u (sealDom t) (leaveCode u (sealDom t) none) 0)))
  ∧ (∀ (t : Nat) (s : State),
    (t < 8 ∧ (s.stile t).recoverUntil ≠ 0) →
    exec (.sealRecoveryEnd t) s = .next (settleMode ((advanceTo s (s.stile t).recoverUntil).modStile t (fun k => { k with recoverUntil := 0 })) t))
  ∧ (∀ (cs : List Nat) (s u : State),
    u = advanceTo s (s.vcycle + 1) →
    (s.sealing.mc.held = true → exec (.mcLockClaim cs) s = .next u)
    ∧ (∀ c, s.sealing.mc.held = false ∧ rotPick 6 s.sealing.mc.ptr ((cs.filter (mcMay s)).filter (· < 4)) = some c →
    exec (.mcLockClaim cs) s = .next (u.modSeal (fun q => { q with mc := { holder := c, held := true, broken := false, ptr := (c + 1) % 6, since := s.vcycle } })))
    ∧ (∀ c, s.sealing.mc.held = false ∧ (cs.filter (mcMay s)).filter (· < 4) = [] ∧ rotPick 6 s.sealing.mc.ptr (cs.filter (mcMay s)) = some c →
    exec (.mcLockClaim cs) s = .next (u.modSeal (fun q => { q with mc := { holder := c, held := true, broken := false, ptr := (c + 1) % 6, since := s.vcycle } }))))
  ∧ (∀ (c : Nat) (s : State),
    s.sealing.mc.held = true →
    (s.sealing.mc.holder = c → exec (.mcLockRelease c) s = .next ((advanceTo s (s.vcycle + 1)).modSeal (fun q => { q with mc := { q.mc with held := false } })))
    ∧ (s.sealing.mc.holder ≠ c → exec (.mcLockRelease c) s = .next s))
  ∧ (∀ (s : State),
    s.sealing.mc.held = true →
    (mcMay s s.sealing.mc.holder = true → exec .mcLockForcedRelease s = .next ((advanceTo s (s.sealing.mc.since + msCycles)).modSeal (fun q => { q with mc := { q.mc with held := false, broken := true } })))
    ∧ (mcMay s s.sealing.mc.holder = false → exec .mcLockForcedRelease s = .next (s.modSeal (fun q => { q with mc := { q.mc with held := false, broken := true } }))))

/-- A controller takes up the head of its admin queue: Identify, features, log pages, queues, Abort and event requests do what R439 to R441 and R456 give them (spec/13_storage_controller.md (R439, R440, R441, R449, R456, R457)). -/
def Obligations.AdminCommandsComplete : Prop :=
  (∀ (r c : Nat) (m m1 : NvmCmd) (list : HRead) (s u : State),
    NvmStarts s r 0 0x06 c m m1 u →
    (fld (dw10 m1) 0 8 = 1 → exec (.identify r list) s = .next (adminData u c m1 list (idCtrl c)))
    ∧ (∀ x, fld (dw10 m1) 0 8 = 0 ∧ 1 ≤ nsidF m1 ∧ nsidF m1 ≤ 256 ∧ nsAt u c (nsidF m1) = some x → exec (.identify r list) s = .next (adminData u c m1 list (idNs x.2)))
    ∧ (fld (dw10 m1) 0 8 = 2 ∧ nsidF m1 < 0xFFFFFFFE → exec (.identify r list) s = .next (adminData u c m1 list (fitB (((nsidsOf u c).filter (fun n => nsidF m1 < n)).flatMap (natLE 4)) 4096)))
    ∧ (fld (dw10 m1) 0 8 = 3 ∧ nsAt u c (nsidF m1) = none → exec (.identify r list) s = .next (endNvm u c m1 0 0x0B))
    ∧ (∀ x, fld (dw10 m1) 0 8 = 3 ∧ nsAt u c (nsidF m1) = some x → exec (.identify r list) s = .next (adminData u c m1 list (fitB ([3#8, 16#8, 0#8, 0#8] ++ natLE 16 (Config.nsUuid x.1).toNat) 4096)))
    ∧ (3 < fld (dw10 m1) 0 8 → exec (.identify r list) s = .next (endNvm u c m1 0 0x02)))
  ∧ (∀ (r c : Nat) (m m1 : NvmCmd) (list : HRead) (s u : State),
    NvmStarts s r 0 0x02 c m m1 u →
    (fld (dw10 m1) 0 8 = 4 ∧ bitAt (dw10 m1) 15 = true → exec (.getLogPage r list) s = .next (adminData u c m1 list (fitB ((u.ctl c).changed.flatMap (natLE 4)) (4 * (fld (dw10 m1) 16 12 + 1)))))
    ∧ (fld (dw10 m1) 0 8 = 4 ∧ bitAt (dw10 m1) 15 = false → exec (.getLogPage r list) s = .next (deliverAsync 8 (((adminData u c m1 list (fitB ((u.ctl c).changed.flatMap (natLE 4)) (4 * (fld (dw10 m1) 16 12 + 1)))).modCtl c (fun k => { k with changed := [] })).modCtl c (fun k => { k with masked := k.masked.filter (· != 4) })) c))
    ∧ (fld (dw10 m1) 0 8 ≠ 1 ∧ fld (dw10 m1) 0 8 ≠ 2 ∧ fld (dw10 m1) 0 8 ≠ 4 → exec (.getLogPage r list) s = .next (endNvm u c m1 0 0x109)))
  ∧ (∀ (r c : Nat) (m m1 : NvmCmd) (s u : State),
    NvmStarts s r 0 0x09 c m m1 u →
    bitAt (dw10 m1) 31 = false →
    (fld (dw10 m1) 0 8 = 6 → exec (.setFeatures r) s = .next (endNvm (u.modCtl c (fun k => { k with vwc := bitAt (dw11 m1) 0 })) c m1 0 0))
    ∧ (fld (dw10 m1) 0 8 = 11 → exec (.setFeatures r) s = .next (endNvm (u.modCtl c (fun k => { k with async := dw11 m1 })) c m1 0 0))
    ∧ (fld (dw10 m1) 0 8 = 7 ∧ fld (dw11 m1) 0 16 ≠ 0xFFFF ∧ fld (dw11 m1) 16 16 ≠ 0xFFFF ∧ (u.ctl c).sqs.length ≤ 1 ∧ (u.ctl c).cqs.length ≤ 1 →
    exec (.setFeatures r) s = .next (endNvm (u.modCtl c (fun k => { k with nsqs := some (min (fld (dw11 m1) 0 16 + 1) (queueQuota u c)), ncqs := some (min (fld (dw11 m1) 16 16 + 1) (queueQuota u c)) })) c m1
    (min (fld (dw11 m1) 0 16 + 1) (queueQuota u c) - 1 + (min (fld (dw11 m1) 16 16 + 1) (queueQuota u c) - 1) * 65536) 0))
    ∧ ([1, 6, 7, 8, 9, 11].contains (fld (dw10 m1) 0 8) = false → exec (.setFeatures r) s = .next (endNvm u c m1 0 0x02)))
  ∧ (∀ (r c : Nat) (m m1 : NvmCmd) (s u : State),
    NvmStarts s r 0 0x0A c m m1 u →
    (fld (dw10 m1) 0 8 = 6 → exec (.getFeatures r) s = .next (endNvm u c m1 (b2n (u.ctl c).vwc) 0))
    ∧ (fld (dw10 m1) 0 8 = 7 → exec (.getFeatures r) s = .next (endNvm u c m1 (sqAlloc u c - 1 + (cqAlloc u c - 1) * 65536) 0))
    ∧ (fld (dw10 m1) 0 8 = 11 → exec (.getFeatures r) s = .next (endNvm u c m1 (u.ctl c).async 0))
    ∧ ([1, 6, 7, 8, 9, 11].contains (fld (dw10 m1) 0 8) = false → exec (.getFeatures r) s = .next (endNvm u c m1 0 0x02)))
  ∧ (∀ (r c q n p : Nat) (m m1 : NvmCmd) (s u : State),
    NvmStarts s r 0 0x05 c m m1 u →
    (q = fld (dw10 m1) 0 16 ∧ n = fld (dw10 m1) 16 16 + 1 ∧ p = fld m1.sqe 192 64) →
    (q ≠ 0 ∧ q ≤ cqAlloc u c ∧ oget (u.ctl c).cqs q = none ∧ 2 ≤ n ∧ n ≤ 4096 ∧ bitAt (dw11 m1) 0 = true ∧ p % 4096 = 0 ∧ fld (dw11 m1) 16 16 < vectorsOf (rankOf c) →
    exec (.createIoCq r) s = .next (endNvm (u.modCtl c (fun k => { k with cqs := oput k.cqs q { base := p, size := n, ien := bitAt (dw11 m1) 1, iv := fld (dw11 m1) 16 16 } })) c m1 0 0))
    ∧ (q = 0 ∨ cqAlloc u c < q ∨ (oget (u.ctl c).cqs q).isSome = true → exec (.createIoCq r) s = .next (endNvm u c m1 0 0x101))
    ∧ (q ≠ 0 ∧ q ≤ cqAlloc u c ∧ oget (u.ctl c).cqs q = none ∧ 4096 < n → exec (.createIoCq r) s = .next (endNvm u c m1 0 0x102)))
  ∧ (∀ (r c q n p : Nat) (m m1 : NvmCmd) (s u : State),
    NvmStarts s r 0 0x01 c m m1 u →
    (q = fld (dw10 m1) 0 16 ∧ n = fld (dw10 m1) 16 16 + 1 ∧ p = fld m1.sqe 192 64) →
    (q ≠ 0 ∧ q ≤ sqAlloc u c ∧ oget (u.ctl c).sqs q = none ∧ 2 ≤ n ∧ n ≤ 4096 ∧ bitAt (dw11 m1) 0 = true ∧ p % 4096 = 0 ∧ fld (dw11 m1) 16 16 ≠ 0 ∧ (oget (u.ctl c).cqs (fld (dw11 m1) 16 16)).isSome = true →
    exec (.createIoSq r) s = .next (endNvm (u.modCtl c (fun k => { k with sqs := oput k.sqs q { base := p, size := n, cq := fld (dw11 m1) 16 16 } })) c m1 0 0))
    ∧ (q = 0 ∨ sqAlloc u c < q ∨ (oget (u.ctl c).sqs q).isSome = true → exec (.createIoSq r) s = .next (endNvm u c m1 0 0x101))
    ∧ (q ≠ 0 ∧ q ≤ sqAlloc u c ∧ oget (u.ctl c).sqs q = none ∧ 4096 < n → exec (.createIoSq r) s = .next (endNvm u c m1 0 0x102)))
  ∧ (∀ (r c q : Nat) (m m1 : NvmCmd) (s u : State),
    NvmStarts s r 0 0x00 c m m1 u →
    q = fld (dw10 m1) 0 16 →
    (q ≠ 0 ∧ (oget (u.ctl c).sqs q).isSome = true → exec (.deleteIoSq r) s = .next (settleSto (endNvm ((((u.ctl c).cmds.filter (fun x => x.sq == q)).foldl (fun s x => endNvm s c x 0 0x08) u).modCtl c (fun k => { k with sqs := odel k.sqs q })) c m1 0 0)))
    ∧ (q = 0 ∨ oget (u.ctl c).sqs q = none → exec (.deleteIoSq r) s = .next (endNvm u c m1 0 0x101)))
  ∧ (∀ (r c q : Nat) (m m1 : NvmCmd) (s u : State),
    NvmStarts s r 0 0x04 c m m1 u →
    q = fld (dw10 m1) 0 16 →
    (q ≠ 0 ∧ (oget (u.ctl c).cqs q).isSome = true ∧ (u.ctl c).sqs.any (fun p => p.2.cq == q) = false → exec (.deleteIoCq r) s = .next (endNvm (u.modCtl c (fun k => { k with cqs := odel k.cqs q })) c m1 0 0))
    ∧ (q ≠ 0 ∧ (oget (u.ctl c).cqs q).isSome = true ∧ (u.ctl c).sqs.any (fun p => p.2.cq == q) = true → exec (.deleteIoCq r) s = .next (endNvm u c m1 0 0x10C)))
  ∧ (∀ (r c q : Nat) (m m1 : NvmCmd) (s u : State),
    NvmStarts s r 0 0x08 c m m1 u →
    q = fld (dw10 m1) 0 16 →
    ((u.ctl c).cmds.find? (fun x => x.sq == q && x.cid == fld (dw10 m1) 16 16) = none → exec (.nvmeAbort r) s = .next ((endNvm u c m1 1 0).modCtl c (fun k => { k with aborts := (k.aborts ++ [(m1.cid, q, fld (dw10 m1) 16 16)]).filter (fun a => k.cqs.any (fun p => p.2.waiting.any (fun w => w.2.1 == 0 && w.2.2.1 == a.1))) })))
    ∧ (∀ x, (u.ctl c).cmds.find? (fun x => x.sq == q && x.cid == fld (dw10 m1) 16 16) = some x ∧ ((q ≠ 0 ∧ x.started = true) ∨ (q = 0 ∧ fld x.sqe 0 8 ≠ 0x0C)) → exec (.nvmeAbort r) s = .next ((endNvm u c m1 1 0).modCtl c (fun k => { k with aborts := (k.aborts ++ [(m1.cid, q, fld (dw10 m1) 16 16)]).filter (fun a => k.cqs.any (fun p => p.2.waiting.any (fun w => w.2.1 == 0 && w.2.2.1 == a.1))) })))
    ∧ (∀ x, (u.ctl c).cmds.find? (fun x => x.sq == q && x.cid == fld (dw10 m1) 16 16) = some x ∧ q = 0 ∧ fld x.sqe 0 8 = 0x0C → exec (.nvmeAbort r) s = .next ((endNvm (endNvm u c x 0 0x07) c m1 0 0).modCtl c (fun k => { k with aborts := (k.aborts ++ [(m1.cid, q, fld (dw10 m1) 16 16)]).filter (fun a => k.cqs.any (fun p => p.2.waiting.any (fun w => w.2.1 == 0 && w.2.2.1 == a.1))) })))
    ∧ (∀ x t v, (u.ctl c).cmds.find? (fun x => x.sq == q && x.cid == fld (dw10 m1) 16 16) = some x ∧ q ≠ 0 ∧ x.started = false ∧ (u.ctl c).tile = some t
    ∧ v = (u.modSto (fun z => { z with backends := z.backends.map (fun p => (p.1, { p.2 with cmds := p.2.cmds.filter (fun b => b.who != .host c x.no) })) })).modSto (fun z => { z with tiles := mset z.tiles t { mget z.tiles t {} with aborted := satAdd 32 (mget z.tiles t {}).aborted 1 } {} }) →
    exec (.nvmeAbort r) s = .next ((settleSto (endNvm (endNvm v c x 0 0x07) c m1 0 0)).modCtl c (fun k => { k with aborts := (k.aborts ++ [(m1.cid, q, fld (dw10 m1) 16 16)]).filter (fun a => k.cqs.any (fun p => p.2.waiting.any (fun w => w.2.1 == 0 && w.2.2.1 == a.1))) }))))
  ∧ (∀ (r c : Nat) (m m1 : NvmCmd) (s u : State),
    NvmStarts s r 0 0x0C c m m1 u →
    exec (.asyncEventRequest r) s = .next (deliverAsync 8 u c) ∧ ((u.ctl c).events = [] → exec (.asyncEventRequest r) s = .next u))

/-- An I/O command at the head of its queue is checked against its namespace and begins: reads, writes, flushes, zeroes and deallocations (spec/13_storage_controller.md (R447, R448, R449, R450, R451, R452, R453, R454, R455)). -/
def Obligations.IoCommandsBeginAsTheirChecksAllow : Prop :=
  (∀ (r c q op : Nat) (m m1 : NvmCmd) (x : HRead) (i : Instr) (s u : State),
    NvmStarts s r q op c m m1 u →
    (q ≠ 0 ∧ (i, op) ∈ [(Instr.nvmeRead r q x, 2), (Instr.nvmeWrite r q x, 1), (Instr.writeZeroes r q, 8)]) →
    (nsAt u c (nsidF m1) = none → exec i s = .next (endNvm u c m1 0 0x0B))
    ∧ (∀ n y, nsAt u c (nsidF m1) = some (n, y) ∧ (if op = 8 then 65536 else 256) < nlbF m1 → exec i s = .next (endNvm u c m1 0 0x02))
    ∧ (∀ n y, nsAt u c (nsidF m1) = some (n, y) ∧ nlbF m1 ≤ (if op = 8 then 65536 else 256) ∧ y.blocks < slbaF m1 + nlbF m1 → exec i s = .next (endNvm u c m1 0 0x80)))
  ∧ (∀ (r c q n : Nat) (y : Namespace) (m m1 m2 : NvmCmd) (bs : List Byte) (s u v : State),
    NvmStarts s r q 0x01 c m m1 u →
    (q ≠ 0 ∧ nsAt u c (nsidF m1) = some (n, y) ∧ nlbF m1 ≤ 256 ∧ slbaF m1 + nlbF m1 ≤ y.blocks ∧ (prpPages m1.sqe (4096 * nlbF m1) (.ok [])).isNone = false) →
    m2 = { m1 with ns := n, lba := slbaF m1, n := nlbF m1, data := .ok bs } →
    v = u.modCtl c (fun k => { k with writes := k.writes + 1, writeBlocks := k.writeBlocks + nlbF m1 }) →
    ((fuaF m1 = true ∧ nsFaulted u n = false) ∨ (fuaF m1 = false ∧ (u.ctl c).vwc = false) → exec (.nvmeWrite r q (.ok bs)) s = .next (settleSto (modCmd v c m1.no (fun _ => { m2 with through := true }))))
    ∧ (fuaF m1 = false ∧ (u.ctl c).vwc = true → exec (.nvmeWrite r q (.ok bs)) s = .next (settleSto ((modCmd v c m1.no (fun _ => m2)).modSto (fun z => { z with waitWrites := z.waitWrites ++ [(c, m1.no)] }))))
    ∧ (fuaF m1 = true ∧ nsFaulted u n = true → exec (.nvmeWrite r q (.ok bs)) s = .next (endNvm u c m2 0 0x280)))
  ∧ (∀ (r c q n : Nat) (y : Namespace) (m m1 m2 : NvmCmd) (s u v : State),
    NvmStarts s r q 0x08 c m m1 u →
    (q ≠ 0 ∧ nsAt u c (nsidF m1) = some (n, y) ∧ nlbF m1 ≤ 65536 ∧ slbaF m1 + nlbF m1 ≤ y.blocks ∧ fuaF m1 = false) →
    m2 = { m1 with ns := n, lba := slbaF m1, n := nlbF m1, zeroes := true } →
    v = u.modCtl c (fun k => { k with writes := k.writes + 1, writeBlocks := k.writeBlocks + nlbF m1 }) →
    ((u.ctl c).vwc = false → exec (.writeZeroes r q) s = .next (settleSto (modCmd v c m1.no (fun _ => { m2 with through := true }))))
    ∧ ((u.ctl c).vwc = true → exec (.writeZeroes r q) s = .next (settleSto ((modCmd v c m1.no (fun _ => m2)).modSto (fun z => { z with waitWrites := z.waitWrites ++ [(c, m1.no)] })))))
  ∧ (∀ (r c q n : Nat) (y : Namespace) (m m1 m2 : NvmCmd) (ps : List (Nat × Nat)) (list : HRead) (p : State × NvmCmd) (miss : List Nat) (s u : State),
    NvmStarts s r q 0x02 c m m1 u →
    (q ≠ 0 ∧ nsAt u c (nsidF m1) = some (n, y) ∧ nlbF m1 ≤ 256 ∧ slbaF m1 + nlbF m1 ≤ y.blocks) →
    prpPages m1.sqe (4096 * nlbF m1) list = some (.ok ps) →
    miss = (List.range (nlbF m1)).filter (fun i => (liveBlock u n (slbaF m1 + i)).isNone) →
    m2 = { m1 with ns := n, lba := slbaF m1, n := nlbF m1, pages := ps, started := decide (miss.length < nlbF m1) } →
    p = (List.range (nlbF m1)).foldl (readBuffered c) (u, m2) →
    (miss = [] → exec (.nvmeRead r q list) s = .next (settleSto (endRead p.1 c p.2)))
    ∧ (miss ≠ [] → exec (.nvmeRead r q list) s = .next (settleSto ((runsOf miss).foldl (fun s x => addB s y.backend { op := .read, lba := y.first + slbaF m1 + x.1, n := x.2, who := .host c m1.no })
    (modCmd p.1 c m1.no (fun _ => { p.2 with issued := true, left := (runsOf miss).length }))))))
  ∧ (∀ (r c q : Nat) (m m1 : NvmCmd) (s u : State),
    NvmStarts s r q 0x00 c m m1 u →
    (q ≠ 0 ∧ nsidF m1 ≠ 0xFFFFFFFF) →
    (nsAt u c (nsidF m1) = none → exec (.nvmeFlush r q) s = .next (endNvm u c m1 0 0x0B))
    ∧ (∀ n y, nsAt u c (nsidF m1) = some (n, y) ∧ nsFaulted u n = true → exec (.nvmeFlush r q) s = .next (endNvm u c m1 0 0x280))
    ∧ (∀ n y, nsAt u c (nsidF m1) = some (n, y) ∧ nsFaulted u n = false → exec (.nvmeFlush r q) s = .next (settleSto (modCmd u c m1.no (fun m => { m with flush := [n], waits := (u.sto.blocks.filter (fun w => [n].contains w.ns && !w.stale)).map (·.id) })))))
  ∧ (∀ (r c q n : Nat) (y : Namespace) (m m1 : NvmCmd) (bs : List Byte) (rs : List (Nat × Nat)) (s u : State),
    NvmStarts s r q 0x09 c m m1 u →
    (q ≠ 0 ∧ nsAt u c (nsidF m1) = some (n, y)) →
    rs = (dsmRanges (fld (dw10 m1) 0 8 + 1) (fitB bs (16 * (fld (dw10 m1) 0 8 + 1)))).filter (fun r => r.2 != 0) →
    (rs.any (fun r => decide (y.blocks < r.1 + r.2)) = true → exec (.datasetManagement r q (.ok bs)) s = .next (endNvm u c m1 0 0x80))
    ∧ (rs.any (fun r => decide (y.blocks < r.1 + r.2)) = false ∧ (bitAt (dw11 m1) 2 = false ∨ rs = []) → exec (.datasetManagement r q (.ok bs)) s = .next (endNvm u c m1 0 0)))

/-- Controller enable starts it on the tile with the fewest controllers, doorbells fetch commands and release completions, and shutdown flushes (spec/13_storage_controller.md (R439, R442, R450, R453), spec/14_host_endpoints.md (R474, R476, R478)). -/
def Obligations.DoorbellsEnableAndShutdown : Prop :=
  (∀ (r c cc : Nat) (s : State),
    (heldBack s r 0 = false ∧ ctrlOf r = some c ∧ bitAt (s.ctl c).cc 0 = false ∧ bitAt cc 0 = true) →
    ((s.fn r).st = .clean → exec (.ccEnSet r cc) s = .next (ctrlStart ((s.modFn r (fun f => { f with st := .active, gen := nextGen f.gen })).modCtl c (fun k => { k with cc := cc })) c))
    ∧ ((s.fn r).st = .draining → exec (.ccEnSet r cc) s = .next ((s.modFn r (fun f => { f with rearm := true })).modCtl c (fun k => { k with cc := cc })))
    ∧ ((s.fn r).st = .off ∧ s.power.stage < 4 → exec (.ccEnSet r cc) s = .next ((s.modFn r (fun f => { f with waitEnable := true })).modCtl c (fun k => { k with cc := cc }))))
  ∧ (∀ (r c : Nat) (reads : Bool) (s : State),
    (heldBack s r 0 = false ∧ ctrlOf r = some c ∧ bitAt (s.ctl c).cc 0 = true) →
    ((s.fn r).st = .off → exec (.ccEnClear r reads) s = .next ((s.modCtl c (fun k => { k with cc := setFld k.cc 0 1 0 })).modFn r (fun f => { f with waitEnable := false })))
    ∧ ((s.fn r).st = .draining → exec (.ccEnClear r reads) s = .next ((s.modCtl c (fun k => { k with cc := setFld k.cc 0 1 0 })).modFn r (fun f => { f with rearm := false })))
    ∧ ((s.fn r).st ≠ .off ∧ (s.fn r).st ≠ .draining → exec (.ccEnClear r reads) s = .next (shutDown (s.modCtl c (fun k => { k with cc := setFld k.cc 0 1 0 })) r 9 reads)))
  ∧ (∀ (r c q tail t : Nat) (x : NvmSq) (bs : List Byte) (s u : State),
    (heldBack s r 0 = false ∧ ctrlOf r = some c ∧ (s.ctl c).rdy = true ∧ oget (s.ctl c).sqs q = some x) →
    u = s.modCtl c (fun k => { k with sqs := omod k.sqs q (fun x => { x with tail := tail, late := some (.ok bs) }) }) →
    ((s.fn r).st = .active ∧ (s.fn r).freeze = none ∧ (s.ctl c).tile = some t) →
    (tail < x.size ∧ stoState s t = 1 → exec (.sqTailDoorbell r q tail (.ok bs)) s = .next ((entries64 ((tail + x.size - x.head) % x.size) bs).foldl (fetchNvm c q)
    (u.modCtl c (fun k => { k with sqs := omod k.sqs q (fun x => { x with late := none }) }))))
    ∧ (tail < x.size ∧ stoState s t ≠ 1 → exec (.sqTailDoorbell r q tail (.ok bs)) s = .next u)
    ∧ (x.size ≤ tail → exec (.sqTailDoorbell r q tail (.ok bs)) s = .next (asyncEvent s c 0x010100)))
  ∧ (∀ (r c q head : Nat) (x : NvmCq) (s u : State),
    (heldBack s r 0 = false ∧ ctrlOf r = some c ∧ (s.ctl c).rdy = true ∧ oget (s.ctl c).cqs q = some x) →
    u = drainNvm (x.waiting.length + 1) (s.modCtl c (fun k => { k with cqs := omod k.cqs q (fun e => { e with head := head }) })) c q →
    (head < x.size → exec (.cqHeadDoorbell r q head) s = .next (checkFreezeNvm u c (u.ctl c)))
    ∧ (x.size ≤ head → exec (.cqHeadDoorbell r q head) s = .next (asyncEvent s c 0x010100)))
  ∧ (∀ (r c : Nat) (s : State),
    (heldBack s r 0 = false ∧ ctrlOf r = some c ∧ (s.ctl c).rdy = true) →
    exec (.nvmeShutdown r 2) s = .next ((s.modCtl c (fun k => { k with cc := setFld k.cc 14 2 2 })).modCtl c (fun k => { k with shst := 2 }))
    ∧ ((s.ctl c).shst = 0 → exec (.nvmeShutdown r 1) s = .next (beginFlush ((s.modCtl c (fun k => { k with cc := setFld k.cc 14 2 1 })).modCtl c (fun k => { k with shst := 1, cmdNo := k.cmdNo + 1, cmds := k.cmds ++ [{ no := (s.ctl c).cmdNo + 1, sq := shnQueue, begun := true }] })) c
    { no := (s.ctl c).cmdNo + 1, sq := shnQueue, begun := true } (attachedTo s c))))

/-- Each command of a STORAGE_BACKEND ring, with its checks met, changes backends and namespaces as the rules give and completes; each failed check has its status (spec/13_storage_controller.md (R443, R444, R445, R446, R447, R448, R449, R450, R459, R460, R461, R462)). -/
def Obligations.StorageCommandsComplete : Prop :=
  (∀ (r i b v : Nat) (bs : List Byte) (e : Fetched) (s : State),
    Starts s r i 0x30 0x01 e →
    (fld e.desc.toNat 128 64 % 64 = 0 ∧ rdHost s r 1024 (.ok bs) = (0, bs) ∧ v = leNat bs ∧ lowestFree s.sto.backends 0 256 = some b) →
    (recReserved v = false ∧ fld v 0 2 = 2 ∧ fld v 64 64 % 2 ^ 21 = 0 ∧ spaceOf (fld v 64 64) = 0 ∧ 512 ≤ fld v 128 64 ∧ fld v 128 64 ≤ 2 ^ 24) →
    (rangeRefused s (fld v 64 64) (fld v 128 64 * 4096) = false → exec (.backendCreate r i (.ok bs)) s = .next (finish ((begun s r i e).modSto (fun x => { x with backends := oput x.backends b { own := s.ownOf r, record := bs, base := fld v 64 64, blocks := fld v 128 64, st := .ready } })) (refOf r i e) 0 b (fld v 128 64)))
    ∧ (rangeRefused s (fld v 64 64) (fld v 128 64 * 4096) = true → exec (.backendCreate r i (.ok bs)) s = .next (finish (begun s r i e) (refOf r i e) 0x02 0 0)))
  ∧ (∀ (r i b v q : Nat) (bs : List Byte) (k : Backend) (e : Fetched) (s : State),
    Starts s r i 0x30 0x01 e →
    (fld e.desc.toNat 128 64 % 64 = 0 ∧ rdHost s r 1024 (.ok bs) = (0, bs) ∧ v = leNat bs ∧ lowestFree s.sto.backends 0 256 = some b) →
    (recReserved v = false ∧ fld v 0 2 = 1 ∧ q = fld v 8 5 ∧ 1 ≤ q ∧ q ≤ 16 ∧ 16 ≤ fld v 16 11 ∧ fld v 16 11 ≤ 1024 ∧ 2 ≤ fld v 32 8 ∧ fld v 128 64 = 0 ∧ fld v (544 + 32 * q) (512 - 32 * q) = 0) →
    (qpsOk s r (recQps v q) = true ∧ tooManyBound s (recQps v q) = false) →
    k = { own := s.ownOf r, remote := true, record := bs, queues := q, depth := fld v 16 11, kato := fld v 32 8, qps := recQps v q, ref := some (refOf r i e) } →
    exec (.backendCreate r i (.ok bs)) s = .next (askNext (bindQps ((begun s r i e).modSto (fun x => { x with backends := oput x.backends b k })) (recQps v q) (backMark b)) b))
  ∧ (∀ (b : Nat) (k : Backend) (bs : List Byte) (s : State),
    (oget s.sto.backends b = some k ∧ k.ref.isSome = true) →
    (exec (.backendConnectStep b .down) s = .next (failConnect s b 0x85 0))
    ∧ (∀ st, exec (.backendConnectStep b (.failed st)) s = .next (failConnect s b 0x85 (st % 65536 * 65536)))
    ∧ (k.step ≠ 2 ∧ k.step ≠ 4 ∧ k.step = 4 + k.queues → exec (.backendConnectStep b (.ok bs)) s = .next (connected (s.modBack b (fun k => { k with step := k.step + 1 })) b k))
    ∧ (k.step ≠ 2 ∧ k.step ≠ 4 ∧ k.step ≠ 4 + k.queues → exec (.backendConnectStep b (.ok bs)) s = .next (askNext (s.modBack b (fun k => { k with step := k.step + 1 })) b))
    ∧ (k.step = 2 ∧ bitAt (leNat bs) 0 = false → exec (.backendConnectStep b (.ok bs)) s = .next (askNext s b)))
  ∧ (∀ (r i op : Nat) (h : HRead) (c : Instr) (e : Fetched) (s : State),
    Starts s r i 0x30 op e →
    ((c, op) ∈ [(Instr.backendDestroy r i, 2), (Instr.backendRebind r i h, 3), (Instr.nsCreate r i, 5)] ∧ fld e.desc.toNat 128 64 % 64 = 0) →
    (backAt s (fld e.desc.toNat 64 8) = none → exec c s = .next (finish (begun s r i e) (refOf r i e) 0x80 0 0))
    ∧ (∀ k, backAt s (fld e.desc.toNat 64 8) = some k ∧ owns s r k.own = false → exec c s = .next (finish (begun s r i e) (refOf r i e) 0x02 0 0)))
  ∧ (∀ (r i b : Nat) (k : Backend) (e : Fetched) (s : State),
    Starts s r i 0x30 0x02 e →
    (b = fld e.desc.toNat 64 8 ∧ backAt s b = some k ∧ owns s r k.own = true) →
    ((k.ref.isSome || s.sto.nss.any (fun p => p.2.backend == b) || poolNames s b || storeNames s b) = true → exec (.backendDestroy r i) s = .next (finish (begun s r i e) (refOf r i e) 0x82 0 0))
    ∧ ((k.ref.isSome || s.sto.nss.any (fun p => p.2.backend == b) || poolNames s b || storeNames s b) = false → exec (.backendDestroy r i) s = .next (finish ((unbindMark (begun s r i e) (backMark b)).modSto (fun x => { x with backends := odel x.backends b })) (refOf r i e) 0 0 0)))
  ∧ (∀ (r i b : Nat) (k : Backend) (bs : List Byte) (ns : List Nat) (e : Fetched) (s u : State),
    Starts s r i 0x30 0x03 e →
    (b = fld e.desc.toNat 64 8 ∧ fld e.desc.toNat 128 64 % 64 = 0 ∧ backAt s b = some k ∧ owns s r k.own = true) →
    (k.st = .down ∧ k.ref = none ∧ rdHost s r 1024 (.ok bs) = (0, bs) ∧ ns = recQps (leNat bs) k.queues) →
    (u = unbindMark (begun s r i e) (backMark b) ∧ qpsOk u r ns = true ∧ tooManyBound u ns = false) →
    exec (.backendRebind r i (.ok bs)) s = .next (askNext ((bindQps u ns (backMark b)).modBack b (fun k => { k with qps := ns, step := 0, ref := some (refOf r i e) })) b))
  ∧ (∀ (r i : Nat) (k : Backend) (e : Fetched) (s : State),
    Starts s r i 0x30 0x04 e →
    (fld e.desc.toNat 128 64 % 64 = 0 ∧ backAt s (fld e.desc.toNat 64 8) = some k) →
    exec (.backendQuery r i) s = .next (finish (hostWrite (begun s r i e) r (fld e.desc.toNat 128 64) (natLE 1024 ((List.range k.qps.length).foldl (fun v i => setFld v (512 + 32 * i) 32 (lget k.qps i 0)) (setFld (leNat k.record) 128 64 k.blocks)))) (refOf r i e) 0 0 0))
  ∧ (∀ (b : Nat) (k : Backend) (s u : State),
    (oget s.sto.backends b = some k ∧ k.remote = true ∧ k.st = .ready) →
    u = emit ((advanceTo s (k.lastKa + k.kato * 500 * msCycles)).modBack b (fun k => { k with lastKa := k.lastKa + k.kato * 500 * msCycles })) (.target b 0x18 0 0 false []) →
    exec (.keepAlive b true) s = .next u ∧ exec (.keepAlive b false) s = .next (downBackend u b))
  ∧ (∀ (r i n b first blocks : Nat) (k : Backend) (e : Fetched) (s : State),
    Starts s r i 0x30 0x05 e →
    (b = fld e.desc.toNat 64 8 ∧ first = fld e.desc.toNat 192 64 ∧ blocks = fld e.desc.toNat 256 64 ∧ backAt s b = some k ∧ owns s r k.own = true ∧ lowestFree s.sto.nss 1 4097 = some n) →
    (1 ≤ blocks ∧ blocks ≤ 2 ^ 40 ∧ first + blocks ≤ k.blocks ∧ s.sto.nss.any (fun p => p.2.backend == b && overlap first blocks p.2.first p.2.blocks) = false) →
    (bitAt e.desc.toNat 338 = true ∧ k.remote = false → exec (.nsCreate r i) s = .next (finish ((begun s r i e).modSto (fun z => { z with nss := oput z.nss n { own := s.ownOf r, backend := b, first := first, blocks := blocks, key := none } })) (refOf r i e) 0 n 0))
    ∧ (∀ v : KeySlot, bitAt e.desc.toNat 338 = false ∧ s.slot (fld e.desc.toNat 320 18) = some v ∧ owns s r v.own = true ∧ v.kind = 2 ∧ v.st = .loaded → exec (.nsCreate r i) s = .next (finish ((begun s r i e).modSto (fun z => { z with nss := oput z.nss n { own := s.ownOf r, backend := b, first := first, blocks := blocks, key := some (fld e.desc.toNat 320 18) } })) (refOf r i e) 0 n 0)))
  ∧ (∀ (r i op : Nat) (c : Instr) (e : Fetched) (s : State),
    Starts s r i 0x30 op e →
    ((c, op) ∈ [(Instr.nsAttach r i, 7), (Instr.nsDetach r i, 8)] ∧ fld e.desc.toNat 340 10 < 514 ∧ 1 ≤ fld e.desc.toNat 352 9 ∧ fld e.desc.toNat 352 9 ≤ 256) →
    (oget s.sto.nss (fld e.desc.toNat 64 13) = none → exec c s = .next (finish (begun s r i e) (refOf r i e) 0x81 0 0))
    ∧ (∀ x, oget s.sto.nss (fld e.desc.toNat 64 13) = some x ∧ owns s r x.own = false → exec c s = .next (finish (begun s r i e) (refOf r i e) 0x02 0 0)))
  ∧ (∀ (r i n : Nat) (x : Namespace) (e : Fetched) (s : State),
    Starts s r i 0x30 0x06 e →
    (n = fld e.desc.toNat 64 13 ∧ oget s.sto.nss n = some x ∧ owns s r x.own = true ∧ x.at_ = none) →
    exec (.nsDelete r i) s = .next (finish (settleSto ((begun s r i e).modSto (fun z => { z with nss := odel z.nss n, blocks := z.blocks.filter (fun w => w.ns != n) }))) (refOf r i e) 0 (s.sto.blocks.filter (fun w => w.ns == n && !w.stale)).length 0))
  ∧ (∀ (r i n c nsid : Nat) (x : Namespace) (e : Fetched) (s : State),
    Starts s r i 0x30 0x07 e →
    (c = fld e.desc.toNat 340 10 ∧ nsid = fld e.desc.toNat 352 9 ∧ n = fld e.desc.toNat 64 13 ∧ c < 514 ∧ 1 ≤ nsid ∧ nsid ≤ 256) →
    (oget s.sto.nss n = some x ∧ owns s r x.own = true ∧ epOf (rankOf c) = epOf r) →
    ((x.at_.isSome || s.sto.nss.any (fun p => p.2.at_ == some (c, nsid))) = true → exec (.nsAttach r i) s = .next (finish (begun s r i e) (refOf r i e) 0x82 0 0))
    ∧ ((x.at_.isSome || s.sto.nss.any (fun p => p.2.at_ == some (c, nsid))) = false → exec (.nsAttach r i) s = .next (finish (nsChanged ((begun s r i e).modNs n (fun x => { x with at_ := some (c, nsid) })) c nsid) (refOf r i e) 0 0 0)))
  ∧ (∀ (r i n c nsid : Nat) (x : Namespace) (e : Fetched) (s u : State),
    Starts s r i 0x30 0x08 e →
    (n = fld e.desc.toNat 64 13 ∧ oget s.sto.nss n = some x ∧ owns s r x.own = true) →
    u = (begun s r i e).modNs n (fun x => { x with detach := some (refOf r i e), failed := 0 }) →
    (x.at_ = none → exec (.nsDetach r i) s = .next (finish (begun s r i e) (refOf r i e) 0x82 0 0))
    ∧ (x.at_ = some (c, nsid) ∧ x.detach = none ∧ bitAt e.desc.toNat 361 = false → exec (.nsDetach r i) s = .next (settleSto u))
    ∧ (x.at_ = some (c, nsid) ∧ x.detach = none ∧ bitAt e.desc.toNat 361 = true → exec (.nsDetach r i) s = .next (settleSto (failWaiting u n x c))))
  ∧ (∀ (s : State),
    s.transom.held.reverse.find? (fun h => h.cap == 0x30) = none →
    (s.sto.committed = false ∧ (List.range 8).find? (fun n => !sliceOk s n) = none ∧ wbTotalMib s ≤ 65536 → exec .stoSetCommit s = .next (settleSto (stoEnd (s.modSto (fun x => { x with committed := true })) 0 0)))
    ∧ (s.sto.committed = true → exec .stoSetCommit s = .next (stoEnd s 0x07 0))
    ∧ (∀ n, s.sto.committed = false ∧ (List.range 8).find? (fun n => !sliceOk s n) = some n → exec .stoSetCommit s = .next (stoEnd s 0x06 n))
    ∧ (s.sto.committed = false → exec .stoSetUnlock s = .next (stoEnd s 0 0))
    ∧ (s.sto.committed = true ∧ s.sto.nss = [] → exec .stoSetUnlock s = .next (stoEnd (s.modSto (fun x => { x with committed := false })) 0 0))
    ∧ (s.sto.committed = true ∧ s.sto.nss ≠ [] → exec .stoSetUnlock s = .next (stoEnd s 0x07 0)))
  ∧ (∀ (h : Held) (s : State),
    s.transom.held.reverse.find? (fun h => h.cap == 0x30) = some h →
    exec .stoSetCommit s = .next { s with transom := { s.transom with held := s.transom.held ++ [{ rank := h.rank, session := h.session, cap := 0x30, off := 0x08, width := 32, value := 1 }] } }
    ∧ exec .stoSetUnlock s = .next { s with transom := { s.transom with held := s.transom.held ++ [{ rank := h.rank, session := h.session, cap := 0x30, off := 0x08, width := 32, value := 2 }] } })

/-- An enable starts the next incarnation; each cause of shut-down begins a drain that orphans or releases what the function holds (spec/02_ring_contract.md (R61), spec/14_host_endpoints.md (R465, R475, R476, R477, R478, R479, R481, R484, R541)). -/
def Obligations.IncarnationsStartAndEnd : Prop :=
  (∀ (fn : Nat) (s : State),
    heldBack s fn 0 = false →
    (isPf2 fn = false ∧ isVf2 fn = false) →
    ((s.fn fn).st = .clean → exec (.functionEnable fn) s = .next (s.modFn fn (fun f => { f with st := .active, gen := nextGen f.gen, rearm := false })))
    ∧ ((s.fn fn).st = .draining → exec (.functionEnable fn) s = .next (s.modFn fn (fun f => { f with rearm := true })))
    ∧ ((s.fn fn).st = .off → s.power.stage < 4 → isPf0 fn = false → exec (.functionEnable fn) s = .next (s.modFn fn (fun f => { f with waitEnable := true }))))
  ∧ (∀ (fn : Nat) (enable : Bool) (s : State),
    heldBack s fn 0 = false →
    ((s.fn fn).st = .active ∧ (s.fn fn).freeze = none ∧ ctrlOf fn = none ∧ hasRings fn = true) →
    exec (.functionShutdown fn true false true) s = .next (loseDriver (stopping s fn 2) fn 2)
    ∧ exec (.functionShutdown fn true false false) s = .next (drained (loseDriver (stopping s fn 2) fn 2) fn)
    ∧ exec (.functionShutdown fn false false true) s = .next (releaseAll (stopping s fn 1) fn)
    ∧ exec (.functionShutdown fn false false false) s = .next (drained (releaseAll (stopping s fn 1) fn) fn))
  ∧ (∀ (fn : Nat) (s : State),
    ((s.fn fn).st = .active ∧ (s.fn fn).freeze = none ∧ ctrlOf fn = none ∧ hasRings fn = true) →
    exec (.flr fn true) s = .next (loseDriver (stopping s fn 3) fn 3) ∧ exec (.flr fn false) s = .next (drained (loseDriver (stopping s fn 3) fn 3) fn))
  ∧ (∀ (fn : Nat) (s u : State),
    configBusy s fn = false →
    u = s.modFn fn (fun f => { f with busMaster := false }) →
    ((u.fn fn).st = .active ∧ (u.fn fn).freeze = none ∧ ctrlOf fn = none ∧ hasRings fn = true) →
    exec (.busMasterClear fn true) s = .next (loseDriver (stopping u fn 6) fn 6) ∧ exec (.busMasterClear fn false) s = .next (drained (loseDriver (stopping u fn 6) fn 6) fn))
  ∧ (∀ (fn : Nat) (s u : State),
    configBusy s fn = false →
    u = s.modFn fn (fun f => { f with d3hot := true }) →
    ((u.fn fn).st = .active ∧ (u.fn fn).freeze = none ∧ ctrlOf fn = none ∧ hasRings fn = true) →
    exec (.d3hotEntry fn true) s = .next (loseDriver (stopping u fn 7) fn 7) ∧ exec (.d3hotEntry fn false) s = .next (drained (loseDriver (stopping u fn 7) fn 7) fn))
  ∧ (∀ (fn : Nat) (s u : State),
    ((s.fn fn).leaseArmed = true ∧ (s.fn fn).st = .active ∧ (s.fn fn).freeze = none ∧ ctrlOf fn = none ∧ hasRings fn = true) →
    u = advanceTo s ((s.fn fn).leaseFrom + (s.fn fn).leaseInForce * 400000) →
    exec (.leaseExpiry fn true) s = .next (loseDriver (stopping u fn 5) fn 5) ∧ exec (.leaseExpiry fn false) s = .next (drained (loseDriver (stopping u fn 5) fn 5) fn))
  ∧ (∀ (ep : Nat) (reads : List Nat) (s : State),
    exec (.hotReset ep reads) s = .next ((s.fns.filter (fun p => epOf p.1 == ep && isFn p.1)).foldl (fun t p => shutDown t p.1 4 (reads.contains p.1)) s))
  ∧ (∀ (pf : Nat) (reads : List Nat) (s u : State),
    configBusy s pf = false →
    (isPf1 pf || isPf2 pf) = true →
    u = s.modFn pf (fun f => { f with vfEnable := false }) →
    exec (.vfEnableClear pf reads) s = .next ((u.fns.filter (fun p => isVf p.1 && pfOf p.1 == pf)).foldl (fun t p => shutDown t p.1 8 (reads.contains p.1)) u))
  ∧ (∀ (pf num : Nat) (s u : State),
    configBusy s pf = false →
    ((isPf1 pf || isPf2 pf) = true ∧ (s.fn pf).vfEnable = false ∧ num ≤ 256) →
    u = s.modFn pf (fun f => { f with vfEnable := true, numVfs := num }) →
    ((u.fn pf).st = .off → exec (.vfEnableSet pf num) s = .next u)
    ∧ ((u.fn pf).st ≠ .off → exec (.vfEnableSet pf num) s = .next ((vfsOf pf (u.fn pf).numVfs).foldl (fun t v => t.modFn v (fun f => if f.st = .off then { f with st := .clean } else f)) u)))
  ∧ (∀ (fn : Nat) (c : Instr) (n : Nat) (b : Bool) (l : List Nat) (s : State),
    configBusy s fn = true →
    c ∈ [.flr fn b, .busMasterClear fn b, .d3hotEntry fn b, .vfEnableSet fn n, .vfEnableClear fn l] →
    exec c s = .next s)
  ∧ (∀ (fn : Nat) (s u : State),
    ((s.fn fn).st = .draining ∧ (s.fn fn).intx = 0#2048 ∧ ctrlOf fn = none) →
    ((s.fn fn).cause ≠ 3 ∧ (s.fn fn).cause ≠ 4) →
    u = resetRegs s fn →
    ((s.fn fn).drainVfOff = false → isLoss fn (s.fn fn).cause = false → (s.fn fn).rearm = false → isPf0 fn = false → exec (.functionDrained fn) s = .next u)
    ∧ ((s.fn fn).drainVfOff = false → isLoss fn (s.fn fn).cause = false → (s.fn fn).rearm = true → exec (.functionDrained fn) s = .next (startFn u fn))
    ∧ ((s.fn fn).drainVfOff = false → isLoss fn (s.fn fn).cause = true → (s.fn fn).rearm = false → isPf0 fn = false → exec (.functionDrained fn) s = .next (postAll u [1, 2] 0x0202 fn
    ((s.fn fn).cause + ((s.fn fn).rings.filter (fun q => q.2.st == .orphaned)).length * 2 ^ 16)))
    ∧ ((s.fn fn).drainVfOff = true → vfThere s fn = false → isLoss fn (s.fn fn).cause = false → exec (.functionDrained fn) s = .next (u.modFn fn (fun f => { f with st := .off, rearm := false }))))
  ∧ (∀ (fn : Nat) (s : State),
    (s.fn fn).st = .draining →
    exec (.drainBoundExpiry fn) s = .next (drained (logTimeout (advanceTo s ((s.fn fn).drainStart + 20000000)) fn) fn))

/-- Adoption passes every object to the running incarnation under newly read entries; discard frees them; quotas stay within their maxima (spec/14_host_endpoints.md (R476, R480, R481, R482, R483, R484, R485, R486)). -/
def Obligations.OrphansAreAdoptedOrDiscarded : Prop :=
  (∀ (fn : Nat) (reads : List HRead) (es : List (Nat × DirEntry)) (s u : State),
    (heldBack s fn 0 = false ∧ present s fn = true ∧ (s.fn fn).orphan.isSome = true ∧ (s.fn fn).st = .active ∧ (s.fn fn).dirCommitted = true) →
    orphanRings s fn ≠ [] →
    u = hostWrite s fn ((s.fn fn).orphanAddr / 64 * 64) ((orphanRings s fn).flatMap (fun q => adoptRecord q.1 q.2)) →
    adoptEntries u fn (orphanRings s fn) reads = .ok es →
    exec (.orphanAdopt fn reads) s = .next (orphanEnd ((es.foldl (fun t e => adoptRing t fn e) (passObjects u fn (fun g => g != (s.fn fn).gen) (s.fn fn).gen)).modFn fn (fun f => { f with orphan := none })) fn 0))
  ∧ (∀ (fn n : Nat) (reads : List HRead) (s u : State),
    (heldBack s fn 0 = false ∧ present s fn = true ∧ (s.fn fn).orphan.isSome = true ∧ (s.fn fn).st = .active ∧ (s.fn fn).dirCommitted = true) →
    orphanRings s fn ≠ [] →
    u = hostWrite s fn ((s.fn fn).orphanAddr / 64 * 64) ((orphanRings s fn).flatMap (fun q => adoptRecord q.1 q.2)) →
    adoptEntries u fn (orphanRings s fn) reads = .error n →
    exec (.orphanAdopt fn reads) s = .next (orphanEnd u fn n))
  ∧ (∀ (fn : Nat) (reads : List HRead) (s : State),
    (heldBack s fn 0 = false ∧ present s fn = true) →
    ((s.fn fn).orphan = none ∨ (s.fn fn).st ≠ .active) →
    exec (.orphanAdopt fn reads) s = .next (s.modFn fn (fun f => { f with orphanStatus := 0x0B })) ∧ exec (.orphanDiscard fn) s = .next (s.modFn fn (fun f => { f with orphanStatus := 0x0B })))
  ∧ (∀ (fn : Nat) (reads : List HRead) (s : State),
    (heldBack s fn 0 = false ∧ present s fn = true ∧ (s.fn fn).orphan.isSome = true ∧ (s.fn fn).st = .active ∧ (s.fn fn).dirCommitted = false) →
    exec (.orphanAdopt fn reads) s = .next (s.modFn fn (fun f => { f with orphanStatus := 0x07 })))
  ∧ (∀ (fn : Nat) (s : State),
    (heldBack s fn 0 = false ∧ present s fn = true ∧ (s.fn fn).orphan.isSome = true ∧ (s.fn fn).st = .active) →
    exec (.orphanDiscard fn) s = .next ((discardSet s fn false).modFn fn (fun f => { f with orphanStatus := 0 })))
  ∧ (∀ (fn : Nat) (o : Orphan) (s : State),
    (s.fn fn).orphan = some o →
    exec (.orphanHoldExpiry fn) s = .next (discardSet (advanceTo s (o.at_ + (s.fn fn).orphanHold * 400000000)) fn true))
  ∧ (∀ (pf n : Nat) (value q : BitVec 64) (s : State),
    (heldBack s pf 0 = false ∧ present s pf = true ∧ isPf1 pf = true ∧ n < 256 ∧ quotaOk true false value.toNat = true) →
    q = BitVec.ofNat 64 (fld value.toNat 0 5 + fld value.toNat 8 24 * 2 ^ 8 + fld value.toNat 32 20 * 2 ^ 32) →
    q ≠ (s.fn (vf1Of (epOf pf) n)).quotaA →
    exec (.vfQuotaWrite pf n false value) s = .next (postEvent (s.modFn (vf1Of (epOf pf) n) (fun f => { f with quotaA := q, quotaB := (s.fn (vf1Of (epOf pf) n)).quotaB })) (vf1Of (epOf pf) n) 0x0201 (vf1Of (epOf pf) n) q.toNat))
  ∧ (∀ (pf n : Nat) (value q : BitVec 64) (s : State),
    (heldBack s pf 0 = false ∧ present s pf = true ∧ isPf1 pf = true ∧ n < 256 ∧ quotaOk true true value.toNat = true) →
    q = BitVec.ofNat 64 (setFld (setFld (s.fn (vf1Of (epOf pf) n)).quotaB.toNat 0 13 (fld value.toNat 0 13)) 16 21 (fld value.toNat 16 21)) →
    q ≠ (s.fn (vf1Of (epOf pf) n)).quotaB →
    exec (.vfQuotaWrite pf n true value) s = .next (postEvent (s.modFn (vf1Of (epOf pf) n) (fun f => { f with quotaA := (s.fn (vf1Of (epOf pf) n)).quotaA, quotaB := q })) (vf1Of (epOf pf) n) 0x0201 (vf1Of (epOf pf) n) (s.fn (vf1Of (epOf pf) n)).quotaA.toNat))
  ∧ (∀ (pf n : Nat) (second : Bool) (value : BitVec 64) (s : State),
    heldBack s pf 0 = false →
    ((isPf1 pf || isPf2 pf) = false ∨ present s pf = false ∨ 256 ≤ n ∨ quotaOk (isPf1 pf) second value.toNat = false) →
    exec (.vfQuotaWrite pf n second value) s = .next s)

/-- Timeouts, poison and unexpected completions are logged and reported; vectors are sent when unmasked; INTx deasserts with its last bit (spec/14_host_endpoints.md (R470, R471, R472, R473, R474)). -/
def Obligations.LinksAndVectorsReport : Prop :=
  (∀ (fn : Nat) (s : State),
    isFn fn = true →
    exec (.hostReadTimeout fn false) s = .next (emit (s.modFn fn (fun f => { f with aerTimeout := true })) (.advisory fn 0))
    ∧ exec (.hostReadTimeout fn true) s = .next (emit ((doDirReturn fn .timeout s).modFn fn (fun f => { f with aerTimeout := true })) (.advisory fn 0)))
  ∧ (∀ (fn : Nat) (read : Bool) (s : State),
    isFn fn = true →
    exec (.poisonedTlp fn read false) s = .next (emit (s.modFn fn (fun f => { f with aerPoison := true })) (.advisory fn 2))
    ∧ exec (.poisonedTlp fn true true) s = .next (emit ((doDirReturn fn .poisoned s).modFn fn (fun f => { f with aerPoison := true })) (.advisory fn 2)))
  ∧ (∀ (fn : Nat) (s : State),
    isFn fn = true →
    exec (.unexpectedCompletion fn) s = .next (emit (s.modFn fn (fun f => { f with aerUnexpected := true })) (.advisory fn 1)))
  ∧ (∀ (ep : Nat) (l : HostLink) (s u : State),
    (ep < 2 ∧ mget s.links ep {} = l ∧ l.aspmL1 = true ∧ l.inL1 = false) →
    u = advanceTo s (l.lastTlp + 25600) →
    exec (.aspmL1Entry ep) s = .next (emit { u with links := mset u.links ep { l with inL1 := true } {} } (.enterL1 ep)))
  ∧ (∀ (fn vec : Nat) (s u : State),
    (heldBack s fn 0 = false ∧ present s fn = true ∧ vec < vectorsOf fn) →
    u = s.modFn fn (fun f => { f with vecMask := f.vecMask &&& ~~~(1#2048 <<< vec) }) →
    (((u.fn fn).msixEn && !(u.fn fn).fnMask && !(u.fn fn).vecMask.getLsbD vec && (u.fn fn).pba.getLsbD vec) = true →
    exec (.msixUnmask fn vec) s = .next (emit (u.modFn fn (fun f => { f with pba := f.pba &&& ~~~(1#2048 <<< vec) })) (.msix fn vec)))
    ∧ (((u.fn fn).msixEn && !(u.fn fn).fnMask && !(u.fn fn).vecMask.getLsbD vec && (u.fn fn).pba.getLsbD vec) = false → exec (.msixUnmask fn vec) s = .next u))
  ∧ (∀ (fn k : Nat) (value : BitVec 64) (m : BitVec 2048) (s : State),
    (heldBack s fn 0 = false ∧ present s fn = true ∧ isVf fn = false ∧ k < 32) →
    m = (s.fn fn).intx &&& ~~~(BitVec.ofNat 2048 value.toNat <<< (64 * k)) →
    ((s.fn fn).intx ≠ 0#2048 → m = 0#2048 → exec (.intxPendingClear fn k value) s = .next (emit (s.modFn fn (fun f => { f with intx := m })) (.intx fn false)))
    ∧ (m ≠ 0#2048 → exec (.intxPendingClear fn k value) s = .next (s.modFn fn (fun f => { f with intx := m }))))

/-- Freeze, save, restore, thaw and dirty logging act on a VF of the PF in the state each asks for (spec/14_host_endpoints.md (R487, R488, R489, R490, R491, R492)). -/
def Obligations.VirtualFunctionsMigrate : Prop :=
  (∀ (r i op : Nat) (x y : HRead) (c : Instr) (sts : List FnSt) (e : Fetched) (s : State),
    Starts s r i 0x50 op e →
    (c, op, sts) ∈ [(Instr.vfFreeze r i, 1, [FnSt.active]), (Instr.vfSave r i, 2, [FnSt.frozen]), (Instr.vfRestore r i x y, 3, [FnSt.clean]), (Instr.vfThaw r i, 4, [FnSt.frozen]), (Instr.dirtyLog r i, 5, [FnSt.active, FnSt.frozen])] →
    ((s.fn (pfOf (vfFld r e.desc.toNat))).numVfs ≤ vfNo (vfFld r e.desc.toNat) ∨ (s.fn (pfOf (vfFld r e.desc.toNat))).vfEnable = false → exec c s = .next (finish (begun s r i e) (refOf r i e) 0x80 0 0))
    ∧ (vfNo (vfFld r e.desc.toNat) < (s.fn (pfOf (vfFld r e.desc.toNat))).numVfs → (s.fn (pfOf (vfFld r e.desc.toNat))).vfEnable = true → sts.contains (s.fn (vfFld r e.desc.toNat)).st = false →
    exec c s = .next (finish (begun s r i e) (refOf r i e) 0x81 0 0)))
  ∧ (∀ (r i v : Nat) (e : Fetched) (s : State),
    Starts s r i 0x50 0x01 e →
    (v = vfFld r e.desc.toNat ∧ vfNo v < (s.fn (pfOf v)).numVfs ∧ (s.fn (pfOf v)).vfEnable = true ∧ (s.fn v).st = .active ∧ (s.fn v).freeze = none ∧ ctrlOf v = none) →
    ((s.kv.seqs.any (fun q => owns s v q.2.own) || s.fw.comms.any (fun c => owns s v c.2.own)) = true → exec (.vfFreeze r i) s = .next (finish (begun s r i e) (refOf r i e) 0x82 0 0))
    ∧ ((s.kv.seqs.any (fun q => owns s v q.2.own) || s.fw.comms.any (fun c => owns s v c.2.own)) = false →
    exec (.vfFreeze r i) s = .next (checkFreeze ((begun s r i e).modFn v (fun f => { f with freeze := some (refOf r i e) })) v)))
  ∧ (∀ (r i v wn : Nat) (w : KeySlot) (e : Fetched) (s u : State),
    Starts s r i 0x50 0x02 e →
    (v = vfFld r e.desc.toNat ∧ vfNo v < (s.fn (pfOf v)).numVfs ∧ (s.fn (pfOf v)).vfEnable = true ∧ (s.fn v).st = .frozen) →
    (wn = fld e.desc.toNat 80 18 ∧ s.slot wn = some w ∧ owns s r w.own = true ∧ w.kind = 3 ∧ w.st = .loaded) →
    loadedKeys (begun s r i e) v = [] →
    useCounter (begun s r i e) wn (tileFor (begun s r i e) (dieOfRing (begun s r i e) (refOf r i e)) wn w) w = some u →
    (fld e.desc.toNat 192 32 < 88 + ((vfRecs (begun s r i e) v).flatMap encRec).length → exec (.vfSave r i) s = .next (finish (begun s r i e) (refOf r i e) 0x07 (88 + ((vfRecs (begun s r i e) v).flatMap encRec).length) 0))
    ∧ (88 + ((vfRecs (begun s r i e) v).flatMap encRec).length ≤ fld e.desc.toNat 192 32 → 88 + ((vfRecs (begun s r i e) v).flatMap encRec).length ≤ 2 ^ 26 → dmaOn ((begun s r i e).fn r) = true →
    exec (.vfSave r i) s = .next (finish (((hostWrite u r (fld e.desc.toNat 128 64) (blobHead (b2n (isVf2 v)) (88 + ((vfRecs (begun s r i e) v).flatMap encRec).length) ((begun s r i e).fn v).gen ++ natLE 8 w.counter
    ++ (gcmSeal (keyOf w) (nonceOf w w.counter) (blobHead (b2n (isVf2 v)) (88 + ((vfRecs (begun s r i e) v).flatMap encRec).length) ((begun s r i e).fn v).gen) ((vfRecs (begun s r i e) v).flatMap encRec)).1
    ++ (gcmSeal (keyOf w) (nonceOf w w.counter) (blobHead (b2n (isVf2 v)) (88 + ((vfRecs (begun s r i e) v).flatMap encRec).length) ((begun s r i e).fn v).gen) ((vfRecs (begun s r i e) v).flatMap encRec)).2)).modSeal
    (fun q => { q with slots := q.slots.map (fun p => if owns (begun s r i e) v p.2.own ∧ p.2.st = .loaded then (p.1, { p.2 with st := .saved }) else p) })).modFn v (fun f => { f with st := .saved }))
    (refOf r i e) 0 (88 + ((vfRecs (begun s r i e) v).flatMap encRec).length) 0)))
  ∧ (∀ (r i v gen : Nat) (w : KeySlot) (blob map : HRead) (bs ms : List Byte) (recs : List (List Nat)) (e : Fetched) (s s2 s3 : State),
    Starts s r i 0x50 0x03 e →
    (v = vfFld r e.desc.toNat ∧ vfNo v < (s.fn (pfOf v)).numVfs ∧ (s.fn (pfOf v)).vfEnable = true ∧ (s.fn v).st = .clean) →
    (s.slot (fld e.desc.toNat 80 18) = some w ∧ owns s r w.own = true ∧ w.kind = 3 ∧ w.st = .loaded) →
    (rdHost s r (fld e.desc.toNat 192 32) blob = (0, bs) ∧ (if isVf2 v then rdHost s r 512 map else (0, [])) = (0, ms)) →
    openBlob w (b2n (isVf2 v)) bs = some (gen, recs) →
    (idsTaken (begun s r i e) r v ms recs = false ∧ overQuota (begun s r i e) v recs = false) →
    restoreRings v (recsOf recs 2) ((begun s r i e).modFn v (fun f => { fnFrom (fun i => lget ((recsOf recs 1).head?.getD []) i 0) f with st := .frozen, gen := gen })) = some s2 →
    restoreKeys { fn := v, gen := gen } w (recsOf recs 7) s2 = .ok s3 →
    exec (.vfRestore r i blob map) s = .next (finish (restoreCtrl v ms recs (restoreRdma v { fn := v, gen := gen } recs s3)) (refOf r i e) 0 gen 0))
  ∧ (∀ (r i v : Nat) (w : KeySlot) (blob map : HRead) (bs ms : List Byte) (e : Fetched) (s : State),
    Starts s r i 0x50 0x03 e →
    (v = vfFld r e.desc.toNat ∧ vfNo v < (s.fn (pfOf v)).numVfs ∧ (s.fn (pfOf v)).vfEnable = true ∧ (s.fn v).st = .clean) →
    (s.slot (fld e.desc.toNat 80 18) = some w ∧ owns s r w.own = true ∧ w.kind = 3 ∧ w.st = .loaded) →
    (rdHost s r (fld e.desc.toNat 192 32) blob = (0, bs) ∧ (if isVf2 v then rdHost s r 512 map else (0, [])) = (0, ms)) →
    openBlob w (b2n (isVf2 v)) bs = none →
    exec (.vfRestore r i blob map) s = .next (finish (begun s r i e) (refOf r i e) 0x83 0 0))
  ∧ (∀ (r i v : Nat) (e : Fetched) (s u : State),
    Starts s r i 0x50 0x04 e →
    (v = vfFld r e.desc.toNat ∧ vfNo v < (s.fn (pfOf v)).numVfs ∧ (s.fn (pfOf v)).vfEnable = true ∧ (s.fn v).st = .frozen) →
    u = (begun s r i e).modFn v (fun f => { f with st := .active, leaseInForce := f.leasePeriod, leaseFrom := s.vcycle, leaseHalf := false }) →
    exec (.vfThaw r i) s = .next (finish (flushLost (if (ctrlOf v).isSome = true then settleSto (s.rdma.qps.foldl (fun t q => if owns t v q.2.own then pumpSends t q.1 else t) u)
    else s.rdma.qps.foldl (fun t q => if owns t v q.2.own then pumpSends t q.1 else t) u) v) (refOf r i e) 0 0 0))
  ∧ (∀ (r i v : Nat) (e : Fetched) (s : State),
    Starts s r i 0x50 0x05 e →
    (v = vfFld r e.desc.toNat ∧ vfNo v < (s.fn (pfOf v)).numVfs ∧ (s.fn (pfOf v)).vfEnable = true ∧ ((s.fn v).st = .active ∨ (s.fn v).st = .frozen)) →
    (fld e.desc.toNat 128 64 % 4096 ≠ 0 ∨ fld e.desc.toNat 192 32 % 8 ≠ 0 → exec (.dirtyLog r i) s = .next (finish (begun s r i e) (refOf r i e) 0x06 0 0))
    ∧ (fld e.desc.toNat 128 64 % 4096 = 0 → fld e.desc.toNat 192 32 % 8 = 0 → (s.fn v).dirty = none →
    exec (.dirtyLog r i) s = .next (finish ((begun s r i e).modFn v (fun f => { f with dirty := if fld e.desc.toNat 128 64 = 0 then none else some { addr := fld e.desc.toNat 128 64, bytes := fld e.desc.toNat 192 32 } })) (refOf r i e) 0 0 0))
    ∧ (∀ g, fld e.desc.toNat 128 64 % 4096 = 0 → fld e.desc.toNat 192 32 % 8 = 0 → (s.fn v).dirty = some g →
    exec (.dirtyLog r i) s = .next (finish (((dirtyBytes g).foldl (fun (t : State) (p : Nat × Byte) => hostWrite t r (g.addr + p.1) [p.2]) (begun s r i e)).modFn v (fun f => { f with
    dirty := if fld e.desc.toNat 128 64 = 0 then none else some { addr := fld e.desc.toNat 128 64, bytes := fld e.desc.toNat 192 32 } })) (refOf r i e) 0 (b2n g.overflow) 0)))

/-- Scrubbing, training, retirement of groups, frame copies and the lost-line list act on one stack (spec/15_memory_stacks.md (R502, R503, R504, R505, R506, R509, R511, R513)). -/
def Obligations.StacksRepairAndRetire : Prop :=
  (∀ (n line : Nat) (found : Codeword) (a : Nat) (s u : State),
    (n < 8 ∧ a = n * 2 ^ 36 + line * 64 % 2 ^ 36 ∧ stackReach s a 64 = 0) →
    u = s.modStk n (fun k => { k with scrubAt := (line + 1) % (k.mapped * 32768) }) →
    (lineBad s a = true → exec (.scrub n line found) s = .next (uncorrectable u a 84))
    ∧ (lineBad s a = false → exec (.scrub n line .good) s = .next (channelGrant 84 u a) ∧ exec (.scrub n line .corrected) s = .next (correctedRead (channelGrant 84 u a) a)
    ∧ exec (.scrub n line .uncorrectable) s = .next (uncorrectable u a 84)))
  ∧ (∀ (n c : Nat) (s : State),
    (n < 8 ∧ c < 128 ∧ domOn s (stackDom n) = true ∧ ((s.stk n).chan c).failed = false) →
    exec (.channelTrainingLoss n c) s = .next (s.modStk n (fun k => k.modChan c (fun ch => { ch with lost := true }))))
  ∧ (∀ (n c : Nat) (s : State),
    (((s.stk n).chan c).lost = true ∧ ((s.stk n).chan c).failed = false) →
    exec (.channelRetrainComplete n c true) s = .next (wakeStores (s.modStk n (fun k => k.modChan c (fun ch => { ch with lost := false, failedRetrains := 0 }))))
    ∧ (((s.stk n).chan c).failedRetrains + 1 < 3 → exec (.channelRetrainComplete n c false) s = .next (s.modStk n (fun k => k.modChan c (fun ch => { ch with failedRetrains := ch.failedRetrains + 1 }))))
    ∧ (3 ≤ ((s.stk n).chan c).failedRetrains + 1 → exec (.channelRetrainComplete n c false) s = .next (wakeStores ([1, 2, 4, 5].foldl (fun t r => postEventS t r 0x4003 n 0x04 c 0)
    (s.modStk n (fun k => k.modChan c (fun ch => { ch with lost := false, failedRetrains := 3, failed := true })))))))
  ∧ (∀ (r i n g : Nat) (e : Fetched) (s u : State),
    Starts s r i 0x40 0x01 e →
    (outranked s r i = false ∧ contradicted (begun s r i e) r 0x40 n g = none) →
    (n = fld e.desc.toNat 64 3 ∧ g = fld e.desc.toNat 67 4 ∧ u = noteDone (begun s r i e) r 0x40 n g) →
    (domOn s (stackDom n) = false → exec (.groupRetire r i) s = .next (finish u (refOf r i e) 0x0B 0 0))
    ∧ (domOn s (stackDom n) = true → bitAt (s.stk n).retiredMask g = true → exec (.groupRetire r i) s = .next (finish u (refOf r i e) 0x80 0 0))
    ∧ (∀ x, domOn s (stackDom n) = true → bitAt (s.stk n).retiredMask g = false → (s.stk n).retire = some x → x.running = true ∨ x.group ≠ g →
    exec (.groupRetire r i) s = .next (finish u (refOf r i e) 0x82 0 0))
    ∧ (domOn s (stackDom n) = true → bitAt (s.stk n).retiredMask g = false → (s.stk n).retire = none → groupsLeft (s.stk n) ≤ 8 →
    exec (.groupRetire r i) s = .next (finish u (refOf r i e) 0x07 0 0)))
  ∧ (∀ (r i n g w : Nat) (e : Fetched) (s : State),
    Starts s r i 0x40 0x01 e →
    (outranked s r i = false ∧ contradicted (begun s r i e) r 0x40 n g = some w) →
    (n = fld e.desc.toNat 64 3 ∧ g = fld e.desc.toNat 67 4) →
    exec (.groupRetire r i) s = .next (finish (logConflict (begun s r i e) 0x40 n w r true) (refOf r i e) 0x0D 0 0))
  ∧ (∀ (r i n g : Nat) (e : Fetched) (s u : State),
    Starts s r i 0x40 0x01 e →
    (outranked s r i = false ∧ contradicted (begun s r i e) r 0x40 n g = none) →
    (n = fld e.desc.toNat 64 3 ∧ g = fld e.desc.toNat 67 4 ∧ u = noteDone (begun s r i e) r 0x40 n g ∧ domOn s (stackDom n) = true ∧ bitAt (s.stk n).retiredMask g = false) →
    ((s.stk n).retire = none ∧ 8 < groupsLeft (s.stk n)) →
    (∀ a, firstInUse u (n * 2 ^ 36 + ((s.stk n).mapped - 2048) * 2 ^ 21) 4294967296 = some a → exec (.groupRetire r i) s = .next (finish u (refOf r i e) 0x81 a 0))
    ∧ (firstInUse u (n * 2 ^ 36 + ((s.stk n).mapped - 2048) * 2 ^ 21) 4294967296 = none → exec (.groupRetire r i) s = .next (startRetire u n g (refOf r i e))))
  ∧ (∀ (n f p q : Nat) (lines todo : List Nat) (free : List (Nat × Nat)) (x : Retire) (s : State),
    ((s.stk n).retire = some x ∧ x.running = true ∧ x.todo = f :: todo ∧ x.free = (p, q) :: free) →
    (4096 < (s.stk n).lost.length + (newlyLost s n f lines).length → exec (.frameCopyComplete n lines) s = .next (wakeStores (finish (s.modStk n (fun k =>
    { k with retire := some { x with running := false } })) x.ref 0x07 (x.moved % 2 ^ 32 + x.added % 2 ^ 16 * 2 ^ 32) 0)))
    ∧ ((s.stk n).lost.length + (newlyLost s n f lines).length ≤ 4096 → exec (.frameCopyComplete n lines) s = .next (wakeStores (endRetire (s.modStk n (fun k =>
    { k with frames := mset k.frames f (2048 * p + q) (2048 * (f % 16) + f / 16), lost := k.lost ++ newlyLost s n f lines, retire := some { x with todo := todo, free := free, moved := x.moved + 1, added := x.added + (newlyLost s n f lines).length } })) n))))
  ∧ (∀ (r i n : Nat) (e : Fetched) (s : State),
    Starts s r i 0x40 0x02 e →
    n = fld e.desc.toNat 64 3 →
    (fld e.desc.toNat 128 64 % 64 ≠ 0 ∨ fld e.desc.toNat 192 16 < 1 ∨ 4096 < fld e.desc.toNat 192 16 → exec (.lostListRead r i) s = .next (finish (begun s r i e) (refOf r i e) 0x06 0 0))
    ∧ (fld e.desc.toNat 128 64 % 64 = 0 → 1 ≤ fld e.desc.toNat 192 16 → fld e.desc.toNat 192 16 ≤ 4096 → (s.stk n).lost ≠ [] → exec (.lostListRead r i) s =
    .next (finish (hostWrite (begun s r i e) r (fld e.desc.toNat 128 64) (((s.stk n).lost.take (fld e.desc.toNat 192 16)).flatMap (natLE 8))) (refOf r i e) 0 ((s.stk n).lost.take (fld e.desc.toNat 192 16)).length 0))
    ∧ (fld e.desc.toNat 128 64 % 64 = 0 → 1 ≤ fld e.desc.toNat 192 16 → fld e.desc.toNat 192 16 ≤ 4096 → (s.stk n).lost = [] → exec (.lostListRead r i) s = .next (finish (begun s r i e) (refOf r i e) 0 0 0)))
  ∧ (∀ (n : Nat) (s : State),
    exec (.memCapWindow n) s = .next (wakeStores ((advanceTo s ((s.vcycle / 400 + 1) * 400)).modStk n (fun k => { k with capUse := [] }))))

/-- Power-good boots a checked set, loss of power keeps the flash alone, and input, rail and sensor faults switch off what they feed (spec/16_power_clocks_and_start.md (R514, R515, R516, R517, R520, R528, R546), spec/17_trust_roles_and_updates.md (R551, R553, R567), spec/19_module_interfaces_and_ratings.md (R598)). -/
def Obligations.PowerInputAndRailsAct : Prop :=
  (∀ (want : Nat) (s u : State),
    s.power.romDone = false →
    u = loadLimits (readTrust ({ s with clock := { at_ := s.vcycle } }.modPow (fun w => { w with romDone := true, startAt := s.vcycle }))) →
    want = (if u.trust.trial && decide (3 ≤ u.trust.attempts) then 1 - u.trust.activeSet else u.trust.activeSet) →
    (romChoice u want = none → exec .powerGood s = .next (auditOwn (u.modTrust (fun t => { t with recovery := true })) 0x0303 0))
    ∧ (∀ k, romChoice u want = some k → exec .powerGood s = .next ((bootFrom u k (k != u.trust.activeSet)).modTrust (fun t =>
    { t with trying := (bootFrom u k (k != u.trust.activeSet)).trust.trial }))))
  ∧ (∀ (s : State),
    s.power.romDone = true →
    exec .powerGood s = .next s)
  ∧ (∀ (s : State),
    exec .powerLoss s = .next { State.reset with
    pending := s.pending, out := s.out, freeCtr := s.freeCtr, power := { State.reset.power with noLaser := s.power.noLaser }
    trust := { State.reset.trust with
    installer := s.trust.installer, operator := s.trust.operator, policy := s.trust.policy, ceiling := s.trust.ceiling, shutterAp := s.trust.shutterAp
    shutterNp := s.trust.shutterNp, bootCount := s.trust.bootCount, minSecurity := s.trust.minSecurity, activeSet := s.trust.activeSet
    trial := s.trust.trial, attempts := s.trust.attempts, trying := s.trust.trying, sets := s.trust.sets, staged := s.trust.staged
    nextLeaf := s.trust.nextLeaf, leafEnd := s.trust.leafEnd, seq := s.trust.seq, head := s.trust.head, records := s.trust.records, flashBad := s.trust.flashBad } })
  ∧ (∀ (mv : Nat) (s : State),
    (36000 ≤ mv ∧ mv < 42000 ∧ s.power.condition ≠ 1 ∧ s.power.romDone = true) →
    exec (.inputUndervoltage mv) s = .next (postPd ((List.range 108).foldl (fun t d => cutDomain t d 2 false) (s.modPow (fun w => { w with condition := 1 }))) 0x4107 0 (1 + mv / 10 % 2 ^ 16 * 2 ^ 16)))
  ∧ (∀ (mv : Nat) (s : State),
    (80000 < mv → exec (.inputOvervoltage mv) s = .fault .aboveAbsoluteMaximum)
    ∧ (64500 < mv → mv ≤ 80000 → s.power.condition ≠ 2 → s.power.romDone = true → exec (.inputOvervoltage mv) s =
    .next (postPd ((List.range 108).foldl (fun t d => cutDomain t d 2 false) (s.modPow (fun w => { w with condition := 2 }))) 0x4107 0 (2 + mv / 10 % 2 ^ 16 * 2 ^ 16)))
    ∧ (mv ≤ 64500 → exec (.inputOvervoltage mv) s = .next s))
  ∧ (∀ (mv : Nat) (s : State),
    44000 ≤ mv →
    ((s.power.condition = 1 ∧ mv ≤ 64500) ∨ (s.power.condition = 2 ∧ mv ≤ 63500)) →
    exec (.inputReturn mv) s = .next (warmRestart s))
  ∧ (∀ (rail : Nat) (status : BitVec 16) (s : State),
    (rail < 29 ∧ s.power.railsOff.contains rail = false) →
    exec (.railFault rail status) s = .next (postPd ((onRail rail).foldl (fun t d => cutDomain t d 2 true) (s.modPow (fun w => { w with railsOff := rail :: w.railsOff }))) 0x4106 rail status.toNat))
  ∧ (∀ (status : BitVec 16) (s : State),
    s.power.railsOff.contains 1 = false →
    exec (.busOvercurrent status) s = .next (postPd ((List.range 108).foldl (fun t d => cutDomain t d 2 true) (s.modPow (fun w => { w with railsOff := 1 :: w.railsOff }))) 0x4106 1 status.toNat))
  ∧ (∀ (kind which : Nat) (s : State),
    (kind = 1 ∨ kind = 2) →
    exec (.sensorFault kind which) s = .next (postPd s 0x4109 0 (kind + which % 256 * 256)))
  ∧ (∀ (which : Nat) (s : State),
    exec (.sensorFault 3 which) s = .next (postPd ((s.doms.filterMap (fun p => p.2.act.bind (fun a => if a.step = .ack then some (p.1, a) else none))).foldl (fun t q => abortEntry t q.1 2 q.2)
    (s.modPow (fun w => { w with busShort := true, busAt := s.vcycle }))) 0x4109 0 (3 + which % 256 * 256)))
  ∧ (∀ (ok : Bool) (s u : State),
    s.power.busShort = true →
    u = advanceTo s (s.power.busAt + 14000000) →
    exec (.busRecovery ok) s = .next (u.modPow (fun w => { w with busShort := !ok, busAt := u.vcycle })))
  ∧ (∀ (rail : Nat) (s : State),
    (rail ≠ 3 ∧ rail ≠ 4) →
    exec (.regulatorAck rail) s = .next ((onAck s rail).foldl (fun t q => t.modDom q.1 (fun k => { k with act := some { q.2 with step := .move, since := t.vcycle } })) s))
  ∧ (∀ (c : Change) (s : State),
    (s.power.change = some c ∧ c.acks = [3] ∧ s.power.retryAcks = [] ∧ onAck s 3 = []) →
    (c.step = .raiseAck → exec (.regulatorAck 3) s = .next ((setRail s 3 c.target).modPow (fun w => { w with change := some { c with acks := [], step := .settle } })))
    ∧ (c.step = .lowerAck → exec (.regulatorAck 3) s = .next (endChange (setRail s 3 c.target) c.target c.reason)))
  ∧ (∀ (rail : Nat) (s : State),
    (rail ≠ 3 ∧ rail ≠ 4) →
    exec (.regulatorAckTimeout rail) s = .next ((onAck s rail).foldl (fun t q => abortEntry (advanceTo t (q.2.since + 200000)) q.1 2 q.2) s))
  ∧ (∀ (c : Change) (s : State),
    (s.power.change = some c ∧ c.acks.contains 3 = true ∧ c.step = .raiseAck ∧ s.power.retryAcks = [] ∧ onAck s 3 = []) →
    exec (.regulatorAckTimeout 3) s = .next (nextChange ((setRails (missAck (advanceTo s (c.since + 200000))) s.power.inForce).modPow (fun w => { w with change := none, selected := w.inForce, reason := 0 }))))

/-- Profiles change by their steps; the envelope and the temperature limits lower and raise them, and stop and trip domains (spec/16_power_clocks_and_start.md (R519, R520, R521, R522, R523, R546)). -/
def Obligations.ProfilesAndTemperature : Prop :=
  (∀ (c : Change) (s : State),
    (s.power.change = some c ∧ c.step = .settle) →
    exec .railsSettled s = .next (s.modPow (fun w => { w with change := some { c with step := .raiseTick } })))
  ∧ (∀ (t : Nat) (s : State),
    s.power.retryAt = some t →
    exec .voltageRetry s = .next ((advanceTo s t).modPow (fun w => { w with retryAcks := [3, 4] })))
  ∧ (∀ (watts : Nat) (s : State),
    (s.power.stage = 4 ∧ effective s s.power.inForce < watts) →
    (0 < s.power.inForce → s.power.change = none → exec (.envelopeExceeded watts) s = .next (s.modPow (fun w => { w with reason := 4, change := some { target := w.inForce - 1, reason := 1, step := .lowerTick, acks := [], since := s.vcycle } })))
    ∧ (s.power.inForce = 0 → s.power.exceededAt = none → exec (.envelopeExceeded watts) s = .next (postPd (s.modPow (fun w => { w with exceededAt := some s.vcycle })) 0x4108 0 (watts % 2 ^ 11)))
    ∧ (∀ t, s.power.inForce = 0 → s.power.exceededAt = some t → exec (.envelopeExceeded watts) s =
    .next (postPd ((advanceTo s (t + 400000000)).modPow (fun w => { w with exceededAt := some (max s.vcycle (t + 400000000)) })) 0x4108 0 (watts % 2 ^ 11))))
  ∧ (∀ (watts : Nat) (s : State),
    (5 * watts < 4 * effective s (s.power.inForce + 1) ∧ s.power.change = none ∧ s.power.reason = 1 ∧ s.power.inForce < s.power.selected) →
    exec (.envelopeRaise watts) s = .next (beginChange s (s.power.inForce + 1) (if s.power.inForce + 1 = s.power.selected then 0 else 1)))
  ∧ (∀ (d temp : Nat) (s u : State),
    (d < 108 ∧ s.power.stage = 4 ∧ tempLimit s d ≤ temp + 5 ∧ s.power.change = none ∧ 0 < s.power.inForce) →
    u = (match s.power.thermalAt with | some t => advanceTo s (t + 40000000) | none => s) →
    exec (.thermalNearLimit d temp) s = .next ((u.modPow (fun w => { w with thermalAt := some u.vcycle })).modPow (fun w => { w with reason := 4, change := some { target := w.inForce - 1, reason := 2, step := .lowerTick, acks := [], since := u.vcycle } })))
  ∧ (∀ (s : State),
    (s.power.change = none ∧ s.power.reason = 2 ∧ s.power.inForce < s.power.selected) →
    exec .thermalRaise s = .next (beginChange (s.modPow (fun w => { w with thermalAt := none })) (s.power.inForce + 1) (if s.power.inForce + 1 = s.power.selected then 0 else 2)))
  ∧ (∀ (d temp : Nat) (s : State),
    ((s.dom d).power = 2 ∧ (s.dom d).stopped = false ∧ tempLimit s d ≤ temp) →
    exec (.thermalLimit d temp) s = .next (postPd (s.modDom d (fun k => { k with stopped := true, stoppedAt := s.vcycle })) 0x4105 d (temp % 256)))
  ∧ (∀ (d : Nat) (s : State),
    (s.dom d).stopped = true →
    exec (.thermalTrip d) s = .next (cutDomain (advanceTo s ((s.dom d).stoppedAt + 4000000)) d 3 true))
  ∧ (∀ (d : Nat) (s : State),
    exec (.thermalCooled d) s = .next (s.modDom d (fun k => { k with stopped := false })))

/-- UNIT_SHUTTER and UNIT_REOPEN enter, refuse or wait by the domain's state; drains, transitions and self-tests carry them on (spec/16_power_clocks_and_start.md (R524, R525, R526, R527, R528, R530, R531, R532, R533, R534, R537), spec/19_module_interfaces_and_ratings.md (R594)). -/
def Obligations.DomainsShutAndReopen : Prop :=
  (∀ (r i temp : Nat) (e : Fetched) (s : State),
    Starts s r i 0x41 0x01 e →
    outranked s r i = false →
    (108 ≤ fld e.desc.toNat 64 7 ∨ (fld e.desc.toNat 71 2 ≠ 1 ∧ fld e.desc.toNat 71 2 ≠ 2)) →
    exec (.unitShutter r i) s = .next (finish (begun s r i e) (refOf r i e) 0x06 0 0))
  ∧ (∀ (r i temp : Nat) (e : Fetched) (s : State),
    Starts s r i 0x41 0x02 e →
    outranked s r i = false →
    (108 ≤ fld e.desc.toNat 64 7 ∨ fld e.desc.toNat 71 2 ≠ 0) →
    exec (.unitReopen r i temp) s = .next (finish (begun s r i e) (refOf r i e) 0x06 0 0))
  ∧ (∀ (r i d t : Nat) (e : Fetched) (s u : State),
    Starts s r i 0x41 0x01 e →
    (d = fld e.desc.toNat 64 7 ∧ t = fld e.desc.toNat 71 2 ∧ d < 108 ∧ (t = 1 ∨ t = 2)) →
    (outranked s r i = false ∧ contradicted (begun s r i e) r 0x41 d t = none ∧ u = noteDone (begun s r i e) r 0x41 d t) →
    (((s.dom d).power = 2 ∧ (s.dom d).service = 1 ∧ (s.dom d).act = none) ∧ domRole u r d = true ∧ leaveCode u d (some (refOf r i e)) = 0) →
    (drains (unitOf d).1 = true → exec (.unitShutter r i) s = .next (closeTile u d { target := if t = 1 then 1 else 0, prev := 2, ref := some (refOf r i e) }))
    ∧ (drains (unitOf d).1 = false → exec (.unitShutter r i) s = .next (beginMove u d { target := if t = 1 then 1 else 0, prev := 2, ref := some (refOf r i e) })))
  ∧ (∀ (r i d t : Nat) (e : Fetched) (s u : State),
    Starts s r i 0x41 0x01 e →
    (d = fld e.desc.toNat 64 7 ∧ t = fld e.desc.toNat 71 2 ∧ d < 108 ∧ (t = 1 ∨ t = 2)) →
    (outranked s r i = false ∧ contradicted (begun s r i e) r 0x41 d t = none ∧ u = noteDone (begun s r i e) r 0x41 d t) →
    ((s.dom d).power = 0 ∨ (s.dom d).power = 1 → (s.dom d).act = none → domRole u r d = true → exec (.unitShutter r i) s = .next (endShutter u d (if t = 1 then 1 else 0) (some (refOf r i e))))
    ∧ (∀ a, (s.dom d).act = some a → a.reopen = true → exec (.unitShutter r i) s = .next (u.modDom d (fun k => { k with waiting := k.waiting ++ [((refOf r i e), if t = 1 then 1 else 0)] })))
    ∧ ((s.dom d).power = 3 → (s.dom d).act = none → exec (.unitShutter r i) s = .next (finish (refuseEntry u d 1 (if t = 1 then 1 else 0)) (refOf r i e) 0x80 1 0))
    ∧ ((s.dom d).power = 2 → (s.dom d).service = 1 → (s.dom d).act = none → leaveCode u d (some (refOf r i e)) = 0 → domRole u r d = false → exec (.unitShutter r i) s = .next (finish (refuseEntry u d 5 (if t = 1 then 1 else 0)) (refOf r i e) 0x80 5 0))
    ∧ ((s.dom d).power = 2 → (s.dom d).service = 1 → (s.dom d).act = none → domRole u r d = true → leaveCode u d (some (refOf r i e)) ≠ 0 →
    exec (.unitShutter r i) s = .next (finish (refuseEntry u d (leaveCode u d (some (refOf r i e))) (if t = 1 then 1 else 0)) (refOf r i e) 0x80 (leaveCode u d (some (refOf r i e))) 0)))
  ∧ (∀ (r i d temp : Nat) (e : Fetched) (s u : State),
    Starts s r i 0x41 0x02 e →
    (d = fld e.desc.toNat 64 7 ∧ fld e.desc.toNat 71 2 = 0 ∧ d < 108) →
    (outranked s r i = false ∧ contradicted (begun s r i e) r 0x41 d 3 = none ∧ u = noteDone (begun s r i e) r 0x41 d 3) →
    (s.dom d).act = none →
    ((s.dom d).power = 2 → exec (.unitReopen r i temp) s = .next (finish u (refOf r i e) 0x82 0 0))
    ∧ ((s.dom d).power ≠ 2 → tempLimit s d ≤ temp + 5 → exec (.unitReopen r i temp) s = .next (finish (refuseEntry u d 3 2) (refOf r i e) 0x80 3 0))
    ∧ ((s.dom d).power ≠ 2 → temp + 5 < tempLimit s d → enterCode u d ≠ 0 → exec (.unitReopen r i temp) s = .next (finish (refuseEntry u d (enterCode u d) 2) (refOf r i e) 0x80 (enterCode u d) 0))
    ∧ ((s.dom d).power ≠ 2 → temp + 5 < tempLimit s d → enterCode u d = 0 → domRole u r d = true → railsUp u d = true →
    exec (.unitReopen r i temp) s = .next (beginMove u d { reopen := true, target := 2, prev := (s.dom d).power, ref := some (refOf r i e) })))
  ∧ (∀ (r i d temp : Nat) (a : DomAct) (e : Fetched) (s u : State),
    Starts s r i 0x41 0x02 e →
    (d = fld e.desc.toNat 64 7 ∧ fld e.desc.toNat 71 2 = 0 ∧ d < 108) →
    (outranked s r i = false ∧ contradicted (begun s r i e) r 0x41 d 3 = none ∧ u = noteDone (begun s r i e) r 0x41 d 3) →
    ((s.dom d).act = some a ∧ a.step = .drain ∧ domRole u r d = true) →
    exec (.unitReopen r i temp) s = .next (finish (unclose u d a) (refOf r i e) 0 (s.dom d).gen 0))
  ∧ (∀ (d : Nat) (a : DomAct) (s : State),
    ((s.dom d).act = some a ∧ a.step = .drain ∧ drainedTile s d = true) →
    exec (.shutterDrainComplete d) s = .next (beginMove s d a))
  ∧ (∀ (d : Nat) (a : DomAct) (s : State),
    ((s.dom d).act = some a ∧ a.step = .drain ∧ (unitOf d).1 = .ctl ∧ drainedTile s d = false) →
    exec (.ctlHandoffTimeout d) s = .next (abortEntry ((List.range 16).foldl (fun t i => if (t.core (16 * (unitOf d).2 + i)).st = .draining then
    (keeperWord t (16 * (unitOf d).2 + i) 2).modCore (16 * (unitOf d).2 + i) (fun k => { k with st := .running }) else t) (advanceTo s (a.since + 40000000))) d 1 a))
  ∧ (∀ (d : Nat) (a : DomAct) (s u : State),
    ((s.dom d).act = some a ∧ a.step = .move) →
    u = advanceTo s (a.since + moveCycles d a) →
    (a.reopen = false → exec (.domainTransitionComplete d) s = .next (afterShutter (endShutter u d a.target a.ref) d))
    ∧ (a.reopen = true → isTile d = true → a.prev = 0 → exec (.domainTransitionComplete d) s = .next (beginTest (resetUnit u d) d a))
    ∧ (a.reopen = true → isTile d = true → a.prev ≠ 0 → exec (.domainTransitionComplete d) s = .next (beginTest u d a))
    ∧ (a.reopen = true → isTile d = false → a.prev = 0 → exec (.domainTransitionComplete d) s = .next (runWaiting (endReopen (resetUnit u d) d a.ref) d))
    ∧ (a.reopen = true → isTile d = false → a.prev ≠ 0 → exec (.domainTransitionComplete d) s = .next (runWaiting (endReopen u d a.ref) d)))
  ∧ (∀ (d failed : Nat) (a : DomAct) (s : State),
    ((s.dom d).act = some a ∧ a.step = .test) →
    (failed = 0 → exec (.selfTestComplete d failed) s = .next (runWaiting (endReopen s d a.ref) d))
    ∧ (∀ x, failed ≠ 0 → (unitOf d).1 ≠ .sealing → a.ref = some x → exec (.selfTestComplete d failed) s =
    .next (runWaiting (finish (postPd (s.modDom d (fun k => { k with power := 0, service := 0, act := none })) 0x410C d 0) x 0x81 0 0) d)))
  ∧ (∀ (bit fn ring seq : Nat) (s u : State),
    (bit < 36 ∧ bit % 4 ≠ 3) →
    u = s.modPow (fun w => { w with cdc := if bitAt w.cdc bit then w.cdc else w.cdc + 2 ^ bit }) →
    (s.ring fn ring).fetched.any (fun e => e.seq == seq && e.started && e.res.isNone) = true →
    exec (.cdcOverrun bit fn ring seq) s = .next (postPd (finish u { fn := fn, ring := ring, seq := seq } 0x0B 0 0) 0x410A 0 bit))
  ∧ (∀ (n : Nat) (s : State),
    (n < 8 ∧ s.power.noLaser.contains n = false) →
    exec (.laserUnitRemove n) s = .next (cutDomain (s.modPow (fun w => { w with noLaser := n :: w.noLaser })) (100 + n) 4 true))
  ∧ (∀ (n : Nat) (s : State),
    exec (.laserUnitInsert n) s = .next (s.modPow (fun w => { w with noLaser := w.noLaser.filter (· != n) })))

/-- The start reaches stage 0 to 4 in order, stops on a fault, waits for permission before stage 4, and the ROM restarts both keepers (spec/06_firmware_and_collectives.md (R238), spec/16_power_clocks_and_start.md (R539, R540, R541, R542, R543), spec/17_trust_roles_and_updates.md (R553, R554)). -/
def Obligations.StartReachesItsStages : Prop :=
  (∀ (failed : List Nat) (die : Bool) (s u : State),
    (s.power.romDone = true ∧ s.power.fault = false ∧ s.power.condition = 0 ∧ s.power.started = false) →
    u = startFn (startFn (reachStage s 0) 1) 2 →
    (u.trust.fallback = false → exec (.stageReached failed die) s = .next u)
    ∧ (u.trust.fallback = true → exec (.stageReached failed die) s = .next (postTrust (u.modTrust (fun t => { t with fallback := false })) 0x4201 u.trust.activeSet)))
  ∧ (∀ (failed : List Nat) (die : Bool) (s : State),
    (s.power.romDone = true ∧ s.power.fault = false ∧ s.power.condition = 0 ∧ s.power.started = true ∧ s.power.stage = 0) →
    (s.trust.recovery = false ∧ activeUp s = true) →
    (die = true → exec (.stageReached failed die) s = .next (s.modPow (fun w => { w with fault := true })))
    ∧ (die = false → enginesOk (stageOneDoms.foldl (bringUp failed) (setRails s 0)) = true →
    exec (.stageReached failed die) s = .next (capChanged s (reachStage (settleSto (stageOneDoms.foldl (bringUp failed) (setRails s 0))) 1)))
    ∧ (die = false → enginesOk (stageOneDoms.foldl (bringUp failed) (setRails s 0)) = false →
    exec (.stageReached failed die) s = .next ((stageOneDoms.foldl (bringUp failed) (setRails s 0)).modPow (fun w => { w with fault := true }))))
  ∧ (∀ (failed : List Nat) (die : Bool) (s u : State),
    (s.power.romDone = true ∧ s.power.fault = false ∧ s.power.condition = 0 ∧ s.power.started = true ∧ s.power.stage = 1) →
    (s.trust.recovery = false ∧ activeUp s = true) →
    u = (domsOf .stack).foldl (bringUp failed) ((domsOf .mem).foldl (bringUp failed) s) →
    ((domsOf .stack).all (inService u) = true → exec (.stageReached failed die) s = .next (capChanged s (reachStage (assignJournals { u with stack := [] }) 2)))
    ∧ ((domsOf .stack).all (inService u) = false → exec (.stageReached failed die) s = .next (u.modPow (fun w => { w with fault := true }))))
  ∧ (∀ (failed : List Nat) (die : Bool) (s u : State),
    (s.power.romDone = true ∧ s.power.fault = false ∧ s.power.condition = 0 ∧ s.power.started = true ∧ s.power.stage = 2) →
    (s.trust.recovery = false ∧ activeUp s = true) →
    u = reachStage ((domsOf .apt).foldl (bringUp failed) ((domsOf .laser).foldl (bringUp failed) ((domsOf .oe).foldl (bringUp failed) s))) 3 →
    exec (.stageReached failed die) s = .next (settleHeld (if permitted s then openShutters u else u)))
  ∧ (∀ (failed : List Nat) (die : Bool) (s : State),
    (s.power.romDone = true ∧ s.power.fault = false ∧ s.power.condition = 0 ∧ s.power.started = true ∧ s.power.stage = 3) →
    (s.trust.recovery = false ∧ activeUp s = true) →
    ((s.trust.policy && s.trust.operator.isSome) = true → exec (.stageReached failed die) s = .next (capChanged s (reachStage (enterStage4 (s.modPow (fun w => { w with stage := 4 }))) 4)))
    ∧ ((s.trust.policy && s.trust.operator.isSome) = false → exec (.stageReached failed die) s = .next (s.modPow (fun w => { w with held := true }))))
  ∧ (∀ (k : Nat) (s u : State),
    (s.fw.bothDown = true ∧ romChoice s s.trust.activeSet = some k) →
    u = bootFrom { s with fw := { s.fw with bothDown := false, romRestarts := satAdd 8 s.fw.romRestarts 1 } } k (k != s.trust.activeSet) →
    u.trust.fallback = false →
    (s.fw.active = 0 → (unholdAll u 64).trust.fallback = false → exec .keeperRomRestartComplete s = .next (unholdAll u 64))
    ∧ (s.fw.active ≠ 0 → (takePf0Rings u 1 0).trust.fallback = false → exec .keeperRomRestartComplete s = .next (takePf0Rings u 1 0)))

/-- A connection gets a challenge, an OPEN that verifies keys a session, a sealed message is taken once, and whatever fails a check closes the session (spec/02_ring_contract.md (R64, R604), spec/17_trust_roles_and_updates.md (R547, R550, R556), spec/19_module_interfaces_and_ratings.md (R595, R596, R597)). -/
def Obligations.SessionsOpenTakeAndClose : Prop :=
  (∀ (n : Nat) (s : State),
    (s.power.romDone = true ∧ lowestFree s.trust.sessions 0 4 = some n) →
    exec .mgmtConnect s = .next (sendClear ((tickFree s).modTrust (fun t => { t with sessions := oput t.sessions n { challenge := (natLE 64 (Config.freeBlock s.freeCtr).toNat).take 32, lastMsg := s.vcycle } })) n 0x01
    ((natLE 64 (Config.freeBlock s.freeCtr).toNat).take 32)))
  ∧ (∀ (s : State),
    (s.power.romDone = true ∧ lowestFree s.trust.sessions 0 4 = none) →
    exec .mgmtConnect s = .next (emit s (.mgmtClosed 4)))
  ∧ (∀ (n role : Nat) (msg pub nonce key : List Byte) (k : Session) (s u : State),
    (oget s.trust.sessions n = some k ∧ k.opened = false) →
    ((33 ≤ msg.length - 12 ∧ msg.length - 12 ≤ 4096) ∧ fld (leNat (msg.take 12)) 0 16 = msg.length - 12 ∧ fld (leNat (msg.take 12)) 16 8 = 0x02 ∧ fld (leNat (msg.take 12)) 24 72 = 0) →
    (role = leNat ((msg.drop 12).take 1) ∧ nonce = sliceB (msg.drop 12) 1 32) →
    openKey s role pub (msg.drop 45) (k.challenge ++ nonce) = some key →
    u = s.modSession n (fun k => { k with opened := true, role := role, key := sha256 (key ++ k.challenge ++ nonce), rxNext := 0, txNext := 0, lastMsg := s.vcycle }) →
    exec (.mgmtOpen n msg pub) s = .next (sendMsg 2 { u with wx := { u.wx with paths := mset u.wx.paths (16 + n) {} {} } } n 0x03 (natLE 4 (n + 1024 * 2 ^ 16))))
  ∧ (∀ (n : Nat) (msg pub : List Byte) (k : Session) (s : State),
    oget s.trust.sessions n = some k →
    openKey s (leNat ((msg.drop 12).take 1)) pub ((msg.drop 12).drop 33) (k.challenge ++ sliceB (msg.drop 12) 1 32) = none →
    exec (.mgmtOpen n msg pub) s = .next (closeSession s n))
  ∧ (∀ (n : Nat) (k : Session) (s : State),
    oget s.trust.sessions n = some k →
    exec (.mgmtIdleTimeout n) s = .next (closeSession (advanceTo s (k.lastMsg + 120000000000)) n))
  ∧ (∀ (n : Nat) (k : Session) (s t : State),
    oget s.trust.sessions n = some k →
    (t = { s with trust := { s.trust with sessions := odel s.trust.sessions n, debugSession := if s.trust.debugSession = n then 4 else s.trust.debugSession, cmds := s.trust.cmds.map (fun c => if c.session = n then { c with session := 4 } else c) }, transom := { s.transom with held := s.transom.held.map (fun h => if h.rank = 0 ∧ h.session = n then { h with session := 4 } else h), behind := s.transom.behind.filter (fun i => !isMsgOf n i) }, wx := { s.wx with paths := mset s.wx.paths (16 + n) {} {} } }) →
    exec (.mgmtClose n) s = .next (emit t (.mgmtClosed n)))
  ∧ (∀ (n code : Nat) (msg body : List Byte) (k : Session) (s u t : State),
    (waitsS s n = false ∧ oget s.trust.sessions n = some k) →
    (openMsg s n msg = some (0x10, body) ∧ leNat (body.take 1) = code) →
    u = s.modSession n (fun k => { k with rxNext := if k.opened then k.rxNext + 1 else 0, lastMsg := s.vcycle }) →
    t = u.modTrust (fun t => { t with cmds := t.cmds ++ [{ session := n, role := (u.session n).role, code := code, body := body.drop 1 }] }) →
    (code = 1 → exec (.claim n msg) s = .next t)
    ∧ (code = 2 → exec (.release n msg) s = .next t)
    ∧ (code = 3 → exec (.installerKey n msg) s = .next t)
    ∧ (code = 4 → exec (.operatorKey n msg) s = .next t)
    ∧ (code = 5 → exec (.policy n msg) s = .next t)
    ∧ (code = 6 → exec (.consent n msg) s = .next t)
    ∧ (code = 7 → exec (.debugUnlock n msg) s = .next t))
  ∧ (∀ (n : Nat) (c : Instr) (msg : List Byte) (s : State),
    waitsS s n = true →
    c ∈ [Instr.claim n msg, Instr.release n msg, Instr.installerKey n msg, Instr.operatorKey n msg, Instr.policy n msg, Instr.consent n msg, Instr.debugUnlock n msg, Instr.regRead n msg, Instr.fwStage (.session n msg) (.ok []) {}, Instr.fwActivate (.session n msg), Instr.fwConfirm (.session n msg), Instr.attest (.session n msg), Instr.auditRead (.session n msg)] →
    exec c s = .next { s with transom := { s.transom with behind := s.transom.behind ++ [c] } })
  ∧ (∀ (n : Nat) (c : Instr) (msg : List Byte) (k : Session) (s : State),
    (waitsS s n = false ∧ oget s.trust.sessions n = some k ∧ openMsg s n msg = none) →
    c ∈ [Instr.claim n msg, Instr.release n msg, Instr.installerKey n msg, Instr.operatorKey n msg, Instr.policy n msg, Instr.consent n msg, Instr.debugUnlock n msg, Instr.regRead n msg, Instr.regWrite n msg] →
    exec c s = .next (closeSession s n))
  ∧ (∀ (n w v : Nat) (msg b : List Byte) (k : Session) (s u : State),
    (waitsS s n = false ∧ oget s.trust.sessions n = some k ∧ openMsg s n msg = some (0x20, b)) →
    u = s.modSession n (fun k => { k with rxNext := if k.opened then k.rxNext + 1 else 0, lastMsg := s.vcycle }) →
    ((regDomain (bodyCap b) (bodyOff b)).any (fun d => !reachable u d) = false ∧ viewRegVal u n (bodyCap b) (bodyOff b) = some (w, v)) →
    exec (.regRead n msg) s = .next (sendOne (tickFree u) n 0x22 (natLE 8 (if w = bodyWidth b then v else 2 ^ bodyWidth b - 1) ++ natLE 1 0)))
  ∧ (∀ (n : Nat) (msg b : List Byte) (k : Session) (s u : State),
    (waitsS s n = false ∧ oget s.trust.sessions n = some k ∧ openMsg s n msg = some (0x20, b)) →
    u = s.modSession n (fun k => { k with rxNext := if k.opened then k.rxNext + 1 else 0, lastMsg := s.vcycle }) →
    ((regDomain (bodyCap b) (bodyOff b)).any (fun d => !reachable u d) = false ∧ viewRegVal u n (bodyCap b) (bodyOff b) = none) →
    exec (.regRead n msg) s = .next (sendOne u n 0x22 (natLE 8 (2 ^ bodyWidth b - 1) ++ natLE 1 0)))
  ∧ (∀ (n w : Nat) (pf1 : Bool) (msg b : List Byte) (k : Session) (s u : State),
    (s.transom.behind.any (isMsgOf n) = false ∧ oget s.trust.sessions n = some k ∧ openMsg s n msg = some (0x21, b)) →
    u = s.modSession n (fun k => { k with rxNext := if k.opened then k.rxNext + 1 else 0, lastMsg := s.vcycle }) →
    sharedReg (bodyCap b) (bodyOff b) = some (w, pf1) →
    (roleMayWrite (u.session n).role (bodyCap b) (bodyOff b) = true → bodyWidth b = w → exec (.regWrite n msg) s = .next { u with transom := { u.transom with
    held := u.transom.held ++ [{ rank := 0, session := n, cap := bodyCap b, off := bodyOff b, width := w, value := leNat (sliceB b 7 8) % 2 ^ w }] } })
    ∧ (roleMayWrite (u.session n).role (bodyCap b) (bodyOff b) = false → exec (.regWrite n msg) s = .next (sendOne u n 0x22 (natLE 8 0 ++ natLE 1 0x0E))))

/-- Firmware commands are audited before they act; attestation signs the report with the next leaf; the audit log is read in whole records (spec/17_trust_roles_and_updates.md (R551, R560, R561, R562, R563, R564, R565, R566, R567, R568, R570), spec/06_firmware_and_collectives.md (R239)). -/
def Obligations.FirmwareAttestationAndAudit : Prop :=
  (∀ (r i : Nat) (read : HRead) (x : ImageSet) (bs : List Byte) (e : Fetched) (s u t : State),
    Starts s r i 0x42 0x01 e →
    (fld e.desc.toNat 64 64 % 64 = 0 ∧ 4096 ≤ fld e.desc.toNat 128 32 ∧ fld e.desc.toNat 128 32 ≤ 201326592) →
    rdHost s r (fld e.desc.toNat 128 32) read = (0, bs) →
    (outranked s r i = false ∧ contradicted (begun s r i e) r 0x42 0 (1 + x.version * 4) = none ∧ u = noteDone (begun s r i e) r 0x42 0 (1 + x.version * 4)) →
    auditRec u 0x4201 2 r (stageEff x u).2.1 0 = some t →
    (t.trust.act.isSome = true → exec (.fwStage (.ring r i) read x) s = .next (finish t (refOf r i e) 0x83 0 0))
    ∧ (t.trust.act = none → t.trust.flashBad.contains (1 - t.trust.activeSet) = true → exec (.fwStage (.ring r i) read x) s = .next (finish t (refOf r i e) 0x07 0 0))
    ∧ (t.trust.act = none → t.trust.flashBad.contains (1 - t.trust.activeSet) = false → leNat (x.signed.take 4) ≠ 0x09601A6E →
    exec (.fwStage (.ring r i) read x) s = .next (finish t (refOf r i e) 0x06 0 0))
    ∧ (∀ st, t.trust.act = none → t.trust.flashBad.contains (1 - t.trust.activeSet) = false → leNat (x.signed.take 4) = 0x09601A6E →
    st = setStatus t { x with factory := false } → exec (.fwStage (.ring r i) read x) s = .next (finish (t.modTrust (fun y =>
    { y with sets := oput y.sets (1 - t.trust.activeSet) { x with factory := false }, staged := st == 0 })) (refOf r i e) st (if st = 0 then leNat (natLE 8 (x.version % 2 ^ 32 + x.security % 2 ^ 16 * 2 ^ 32)) else 0) 0)))
  ∧ (∀ (r i : Nat) (read : HRead) (x : ImageSet) (e : Fetched) (s : State),
    Starts s r i 0x42 0x01 e →
    outranked s r i = false →
    (fld e.desc.toNat 64 64 % 64 ≠ 0 ∨ fld e.desc.toNat 128 32 < 4096 ∨ 201326592 < fld e.desc.toNat 128 32) →
    exec (.fwStage (.ring r i) read x) s = .next (finish (begun s r i e) (refOf r i e) 0x06 0 0))
  ∧ (∀ (r i : Nat) (e : Fetched) (s u t v : State),
    Starts s r i 0x42 0x02 e →
    (outranked s r i = false ∧ contradicted (begun s r i e) r 0x42 0 (2 + b2n (bitAt e.desc.toNat 160) * 4) = none ∧ u = noteDone (begun s r i e) r 0x42 0 (2 + b2n (bitAt e.desc.toNat 160) * 4)) →
    ((activateEff (.ring (refOf r i e)) (bitAt e.desc.toNat 160) u).2 = none ∧ auditRec u 0x4202 2 r 0 0 = some t) →
    activateEff (.ring (refOf r i e)) (bitAt e.desc.toNat 160) t = (v, none) →
    exec (.fwActivate (.ring r i)) s = .next (settleActivation v))
  ∧ (∀ (r i st st' : Nat) (e : Fetched) (s u t v : State),
    Starts s r i 0x42 0x02 e →
    (outranked s r i = false ∧ contradicted (begun s r i e) r 0x42 0 (2 + b2n (bitAt e.desc.toNat 160) * 4) = none ∧ u = noteDone (begun s r i e) r 0x42 0 (2 + b2n (bitAt e.desc.toNat 160) * 4)) →
    ((activateEff (.ring (refOf r i e)) (bitAt e.desc.toNat 160) u).2 = some st ∧ auditRec u 0x4202 2 r st 0 = some t) →
    activateEff (.ring (refOf r i e)) (bitAt e.desc.toNat 160) t = (v, some st') →
    exec (.fwActivate (.ring r i)) s = .next (settleActivation (finish v (refOf r i e) st' 0 0)))
  ∧ (∀ (r i : Nat) (e : Fetched) (s u t : State),
    Starts s r i 0x42 0x03 e →
    (outranked s r i = false ∧ contradicted (begun s r i e) r 0x42 0 3 = none ∧ u = noteDone (begun s r i e) r 0x42 0 3) →
    auditRec u 0x4203 2 r (confirmEff u).2.1 0 = some t →
    (t.trust.act.isSome = true → exec (.fwConfirm (.ring r i)) s = .next (finish t (refOf r i e) 0x83 0 0))
    ∧ (∀ sec, t.trust.act = none → sec = (setIn t t.trust.activeSet).elim t.trust.minSecurity (fun x => max t.trust.minSecurity x.security) →
    exec (.fwConfirm (.ring r i)) s = .next (finish (t.modTrust (fun y => { y with trial := false, attempts := 0, trying := false, minSecurity := sec })) (refOf r i e) 0 (leNat (natLE 8 (sec % 2 ^ 16))) 0)))
  ∧ (∀ (r i : Nat) (e : Fetched) (s t : State),
    Starts s r i 0x42 0x04 e →
    fld e.desc.toNat 64 64 % 64 = 0 →
    (∀ q bs, takeLeaf (begun s r i e) = (t, some q) → bs = reportBody (begun s r i e) (natLE 32 (fld e.desc.toNat 256 256)) q → exec (.attest (.ring r i)) s =
    .next (finish (hostWrite t r (fld e.desc.toNat 64 64) (bs ++ deviceSig q bs)) (refOf r i e) 0 (bs ++ deviceSig q bs).length 0))
    ∧ (takeLeaf (begun s r i e) = (t, none) → exec (.attest (.ring r i)) s = .next (finish t (refOf r i e) 0x85 0 0)))
  ∧ (∀ (fn q : Nat) (nonce bs : List Byte) (s t : State),
    (isPf0 fn = true ∧ (s.fn fn).st ≠ .off ∧ s.trust.recovery = false) →
    (takeLeaf s = (t, some q) ∧ bs = reportBody s nonce q) →
    exec (.attest (.doe fn nonce)) s = .next (emit t (.doe fn (bs ++ deviceSig q bs))))
  ∧ (∀ (r i first n : Nat) (e : Fetched) (s : State),
    Starts s r i 0x42 0x05 e →
    (fld e.desc.toNat 64 64 % 64 = 0 ∧ first = fld e.desc.toNat 192 64 ∧ n = fld e.desc.toNat 128 32) →
    (n = 0 ∨ 4096 < n → exec (.auditRead (.ring r i)) s = .next (finish (begun s r i e) (refOf r i e) 0x06 0 0))
    ∧ (1 ≤ n → n ≤ 4096 → first < oldestSeq s.trust.seq → exec (.auditRead (.ring r i)) s = .next (finish (begun s r i e) (refOf r i e) 0x86 0 0))
    ∧ (∀ bs, 1 ≤ n → n ≤ 4096 → oldestSeq s.trust.seq ≤ first → bs = (List.range (min n (s.trust.seq - first))).flatMap (fun k => recordBytes (mget s.trust.records (first + k) {})) →
    exec (.auditRead (.ring r i)) s = .next (finish (hostWrite (begun s r i e) r (fld e.desc.toNat 64 64) bs) (refOf r i e) 0 (bs.length / 64) 0)))
  ∧ (∀ (n code sub : Nat) (c : Instr) (x : ImageSet) (msg body : List Byte) (k : Session) (s u : State),
    (waitsS s n = false ∧ oget s.trust.sessions n = some k ∧ openMsg s n msg = some (0x10, body)) →
    (leNat (body.take 1) = code ∧ body.length ≠ 1 ∧ leNat (sliceB body 1 1) = sub) →
    u = s.modSession n (fun k => { k with rxNext := if k.opened then k.rxNext + 1 else 0, lastMsg := s.vcycle }) →
    (c, code, sub, x) ∈ [(Instr.fwStage (.session n msg) (.ok []) x, 8, 1, x), (Instr.fwActivate (.session n msg), 8, 2, {}), (Instr.fwConfirm (.session n msg), 8, 3, {}), (Instr.attest (.session n msg), 9, 4, {}), (Instr.auditRead (.session n msg), 9, 5, {})] →
    exec c s = .next (u.modTrust (fun t => { t with cmds := t.cmds ++ [{ session := n, role := (u.session n).role, code := code, body := body.drop 1, image := { x with factory := false } }] })))
  ∧ (∀ (c : Nat) (rest : List Nat) (a : Activation) (x : ImageSet) (y : ImageComp) (s : State),
    (s.trust.act = some a ∧ s.fw.repl = none ∧ activeUp s = true) →
    (a.cur = none ∧ a.failed = false ∧ a.todo = c :: rest) →
    (setIn s s.trust.activeSet = some x ∧ x.comps.find? (fun j => j.id == c) = some y) →
    exec .componentReplace s = .next (beginReplace (s.modTrust (fun t => { t with act := some a })) c { version := y.version, handoff := y.handoff, digest := y.digest, code := y.code, data := y.data, regions := y.regions, evec := y.evec }))
  ∧ (∀ (a : Activation) (s : State),
    (s.trust.act = some a ∧ s.fw.repl = none ∧ activeUp s = true) →
    (a.cur = none ∧ a.failed = false ∧ a.todo = []) →
    exec .componentReplace s = .next (finishActivation (s.modTrust (fun t => { t with act := some a })) a))
  ∧ (∀ (k : Nat) (s : State),
    (k < 2 ∧ s.trust.flashBad.contains k = false) →
    exec (.flashFault k) s = .next (postTrust (s.modTrust (fun t => { t with flashBad := k :: t.flashBad, staged := t.staged && k == t.activeSet })) 0x4206 k))

/-- Check-value units arm, end and abort their windows; monitors compare samples; records go to the posted buffers of the feed ring (spec/18_check_values_and_weather_feed.md (R571, R574, R575, R576, R577, R578, R579, R581, R582), spec/02_ring_contract.md (R34), spec/19_module_interfaces_and_ratings.md (R589)). -/
def Obligations.CheckValuesMonitorsAndFeed : Prop :=
  (∀ (fn n : Nat) (ctrl : BitVec 32) (s : State),
    (heldBack s fn 0 = false ∧ isPf1 fn = true ∧ present s fn = true ∧ n < 32 ∧ cvOwner n = fn ∧ ctrlOk ctrl.toNat = true) →
    (tapOk s fn (fld ctrl.toNat 0 3) (s.cv n).sel = false → exec (.cvArm fn n ctrl) s = .next (s.modCv n (fun u => { u with badTap := true })))
    ∧ (tapOk s fn (fld ctrl.toNat 0 3) (s.cv n).sel = true → exec (.cvArm fn n ctrl) s = .next ((cvAbort n s).modCv n (fun u => { u with tap := fld ctrl.toNat 0 3, poly := fld ctrl.toNat 3 2, mode := fld ctrl.toNat 5 2, armed := true, stopped := false, progress := 0, taken := [], skip := underWay s (fld ctrl.toNat 0 3) u.sel }))))
  ∧ (∀ (fn n : Nat) (ctrl : BitVec 32) (s : State),
    (heldBack s fn 0 = false ∧ isPf1 fn = true ∧ present s fn = true ∧ n < 32 ∧ cvOwner n ≠ fn) →
    exec (.cvArm fn n ctrl) s = .next (s.modFn fn (fun f => { f with roleDenied := satAdd 32 f.roleDenied 1 }))
    ∧ exec (.cvDisarm fn n ctrl) s = .next (s.modFn fn (fun f => { f with roleDenied := satAdd 32 f.roleDenied 1 })))
  ∧ (∀ (fn n : Nat) (ctrl : BitVec 32) (s : State),
    (heldBack s fn 0 = false ∧ isPf1 fn = true ∧ present s fn = true ∧ n < 32 ∧ cvOwner n = fn ∧ ctrlOk ctrl.toNat = true) →
    exec (.cvDisarm fn n ctrl) s = .next ((cvEnd n s).modCv n (fun u => { u with tap := fld ctrl.toNat 0 3, poly := fld ctrl.toNat 3 2, mode := fld ctrl.toNat 5 2, armed := false, progress := 0, taken := [] })))
  ∧ (∀ (n v : Nat) (u : CvUnit) (miss : Bool) (s t : State),
    (n < 32 ∧ s.cv n = u ∧ u.armed = true ∧ u.stopped = false ∧ 0 < u.window ∧ u.window ≤ u.progress) →
    (v = checkValue u.poly u.taken ∧ miss = ((u.mode == 1 || u.mode == 2) && v != u.expect)) →
    t = s.modCv n (fun u => { u with last := v, windows := satAdd 32 u.windows 1, progress := 0, taken := [], mismatches := if miss then satAdd 32 u.mismatches 1 else u.mismatches, stopped := miss && u.mode == 2 }) →
    (miss = false → exec (.cvWindowEnd n) s = .next (checkRecord t n v u.expect false false))
    ∧ (miss = true → exec (.cvWindowEnd n) s = .next (checkRecord (postEvent t (cvOwner n) 0x4301 n v) n v u.expect true false)))
  ∧ (∀ (n : Nat) (u : CvUnit) (s : State),
    (n < 32 ∧ s.cv n = u ∧ u.armed = true ∧ u.stopped = false ∧ 0 < u.progress ∧ u.progress < u.window) →
    exec (.cvWindowAbort n) s = .next (checkRecord (postEvent (s.modCv n (fun u => { u with aborted := true, progress := 0, taken := [] })) (cvOwner n) 0x4302 n u.progress) n 0 u.expect false true))
  ∧ (∀ (k : Nat) (read : HRead) (m : AliveMon) (s u w : State) (x : Option Nat),
    (k < 64 ∧ s.mon k = m ∧ m.enable = true ∧ (m.source = 1 ∨ m.source = 2)) →
    u = advanceTo s m.nextAt →
    amRead (u.modMon k (fun m => { m with nextAt := u.vcycle + m.period * 400 })) k read = (w, x) →
    exec (.amSample k read) s = .next (amTake k x (m.source == 1 && coreQuiet s m.core) w))
  ∧ (∀ (type ms : Nat) (xs : List Nat) (s t u : State),
    (1 ≤ type ∧ type ≤ 6 ∧ ms = mget s.wx.intervals type 1000 ∧ ms ≠ 0) →
    t = advanceTo s (mget s.wx.sampledAt type 0 + ms * 400000) →
    u = t.modWx (fun w => { w with sampledAt := mset w.sampledAt type t.vcycle 0 }) →
    (type = 1 → exec (.wfSample type xs) s = .next (samplePower u xs))
    ∧ (type = 2 → exec (.wfSample type xs) s = .next ((List.range 108).foldl (fun s d => sampleDomain s d (lget xs d 0)) u))
    ∧ (type = 3 → exec (.wfSample type xs) s = .next ((List.range 8).foldl samplePort u))
    ∧ (type = 4 → exec (.wfSample type xs) s = .next ((List.range 64).foldl sampleIf u))
    ∧ (type = 5 → exec (.wfSample type xs) s = .next ((List.range 8).foldl (fun s n => sampleStack s n (lget xs n 0)) u))
    ∧ (type = 6 → exec (.wfSample type xs) s = .next ((List.range 12).foldl sampleSum u)))
  ∧ (∀ (r i : Nat) (e : Fetched) (s : State),
    Starts s r i 0x44 0x01 e →
    (feedRing (begun s r i e) r ≠ some i → exec (.feedBuffer r i) s = .next (finish (begun s r i e) (refOf r i e) 0x80 0 0))
    ∧ (feedRing (begun s r i e) r = some i → (fld e.desc.toNat 64 64 % 64 ≠ 0 ∨ fld e.desc.toNat 128 32 < 4096 ∨ 1048576 < fld e.desc.toNat 128 32 ∨ fld e.desc.toNat 128 32 % 64 ≠ 0) →
    exec (.feedBuffer r i) s = .next (finish (begun s r i e) (refOf r i e) 0x06 0 0))
    ∧ (feedRing (begun s r i e) r = some i → fld e.desc.toNat 64 64 % 64 = 0 → 4096 ≤ fld e.desc.toNat 128 32 → fld e.desc.toNat 128 32 ≤ 1048576 → fld e.desc.toNat 128 32 % 64 = 0 → feedDown (begun s r i e) r = true →
    exec (.feedBuffer r i) s = .next (finish (begun s r i e) (refOf r i e) 0x0B 0 0))
    ∧ (feedRing (begun s r i e) r = some i → fld e.desc.toNat 64 64 % 64 = 0 → 4096 ≤ fld e.desc.toNat 128 32 → fld e.desc.toNat 128 32 ≤ 1048576 → fld e.desc.toNat 128 32 % 64 = 0 → feedDown (begun s r i e) r = false →
    exec (.feedBuffer r i) s = .next (pumpFeed 20000 ((begun s r i e).modPath r (fun p => { p with bufs := p.bufs ++ [{ ref := (refOf r i e), addr := fld e.desc.toNat 64 64, length := fld e.desc.toNat 128 32 }] })) r)))
  ∧ (∀ (r i : Nat) (e : Fetched) (s : State),
    Starts s r i 0x44 0x02 e →
    (feedRing (begun s r i e) r ≠ some i → exec (.feedFlush r i) s = .next (finish (begun s r i e) (refOf r i e) 0x80 0 0))
    ∧ (feedRing (begun s r i e) r = some i → feedDown (begun s r i e) r = true → exec (.feedFlush r i) s = .next (finish (begun s r i e) (refOf r i e) 0x0B 0 0))
    ∧ (feedRing (begun s r i e) r = some i → feedDown (begun s r i e) r = false → (s.path r).bufs.find? (fun b => b.ref.ring == i && b.records != 0) = none → exec (.feedFlush r i) s = .next (finish (begun s r i e) (refOf r i e) 0 0 0))
    ∧ (∀ b, feedRing (begun s r i e) r = some i → feedDown (begun s r i e) r = false → (s.path r).bufs.find? (fun b => b.ref.ring == i && b.records != 0) = some b →
    exec (.feedFlush r i) s = .next (finish (endBuf (begun s r i e) r b) (refOf r i e) 0 (b.bytes + b.records * 2 ^ 32) 0)))
  ∧ (∀ (r : Nat) (b : FeedBuf) (s : State),
    ((s.path r).bufs.find? (fun b => b.records != 0) = some b ∧ (s.path r).flushMs ≠ 0) →
    exec (.feedFlushTimeout r) s = .next (endBuf (advanceTo s (b.since + (s.path r).flushMs * 400000)) r b))
  ∧ (∀ (s : State),
    exec .ppsPulse s = .next (emit (advanceTo s (cycleOfPtp s ((ptp s / 1000000000 + 1) * 1000000000))) .pps))

/-- ERET leaves the frame as RET does, but goes to EPC and clears in_handler; with in_handler 0 it raises ILLEGAL_INSTRUCTION (spec/05_pynex_cores.md (R205)). -/
def Obligations.EretActsAsRetToEpc : Prop :=
  (∀ (core n : Nat) (lo : BitVec 32) (s s1 : State),
    Executes s core 0x25 lo.toNat →
    fld lo.toNat 0 22 = 0 →
    leaveFrame core s = some (s1, n) →
    exec (.ret core lo) s = .next (jumped s1 core (getR (s.core core) 23).toNat n))
  ∧ (∀ (core n : Nat) (lo : BitVec 32) (s s1 : State),
    Executes s core 0x26 lo.toNat →
    (fld lo.toNat 0 22 = 0 ∧ (s.core core).inHandler = true) →
    leaveFrame core s = some (s1, n) →
    exec (.eret core lo) s = .next (jumped (s1.modCore core (fun k => { k with inHandler := false })) core (s.core core).epc n))
  ∧ (∀ (core : Nat) (lo : BitVec 32) (s : State),
    Executes s core 0x25 lo.toNat →
    fld lo.toNat 0 22 = 0 →
    leaveFrame core s = none →
    exec (.ret core lo) s = .next (raiseExc s core 0x06 (s.core core).spillPtr))
  ∧ (∀ (core : Nat) (lo : BitVec 32) (s : State),
    Executes s core 0x26 lo.toNat →
    (fld lo.toNat 0 22 = 0 ∧ (s.core core).inHandler = true) →
    leaveFrame core s = none →
    exec (.eret core lo) s = .next (raiseExc s core 0x06 (s.core core).spillPtr))
  ∧ (∀ (core : Nat) (lo : BitVec 32) (s : State),
    Executes s core 0x26 lo.toNat →
    (s.core core).inHandler = false →
    exec (.eret core lo) s = .next (raiseExc s core 0x01 lo.toNat))

/-- A block named by a plan that is not released cannot be dropped or moved (0x81), and a class that an open sequence uses cannot be set (0x82) (spec/07_kv_tiering.md (R263)). -/
def Obligations.BlocksOfAPlanAndClassesInUseArePinned : Prop :=
  (∀ (r i ix : Nat) (q : Seq) (e : Fetched) (s : State),
    Starts s r i 0x14 0x07 e →
    (seqOfHandle s (fld e.desc.toNat 64 20) = some (ix, q) ∧ owns s r q.own = true) →
    fld e.desc.toNat 96 32 ≤ q.blocks.length →
    (q.blocks.drop (fld e.desc.toNat 96 32)).any (inPlan s) = true →
    exec (.seqTruncate r i) s = .next (finish (begun s r i e) (refOf r i e) 0x81 0 0))
  ∧ (∀ (r i ix : Nat) (q : Seq) (e : Fetched) (s : State),
    Starts s r i 0x14 0x04 e →
    (seqOfHandle s (fld e.desc.toNat 64 20) = some (ix, q) ∧ owns s r q.own = true) →
    q.blocks.any (inPlan s) = true →
    exec (.seqClose r i) s = .next (finish (begun s r i e) (refOf r i e) 0x81 0 0))
  ∧ (∀ (r i ix n : Nat) (q : Seq) (e : Fetched) (s : State),
    Starts s r i 0x14 0x09 e →
    (seqOfHandle s (fld e.desc.toNat 64 20) = some (ix, q) ∧ owns s r q.own = true) →
    (n = rangeCount q (fld e.desc.toNat 96 32) (fld e.desc.toNat 128 32) ∧ fld e.desc.toNat 96 32 + n ≤ q.blocks.length ∧ fld e.desc.toNat 174 2 ≠ 0) →
    ((q.blocks.drop (fld e.desc.toNat 96 32)).take n).any (inPlan s) = true →
    exec (.seqDemote r i) s = .next (finish (begun s r i e) (refOf r i e) 0x81 0 0))
  ∧ (∀ (r i : Nat) (e : Fetched) (s : State),
    Starts s r i 0x14 0x01 e →
    (outranked s r i = false ∧ isVf r = false) →
    s.kv.seqs.any (fun q => q.2.cls == fld e.desc.toNat 64 6) = true →
    exec (.classSet r i) s = .next (finish (begun s r i e) (refOf r i e) 0x82 0 0))

/-- CKPT_ABORT fails a take that is ACCEPTED, SNAPSHOT or WRITING with 0x08 and answers 1; once the root write is issued it answers 0 and the take goes on (spec/08_checkpoint_and_shrink.md (R298)). -/
def Obligations.AbortEndsATakeBeforeItsRootWrite : Prop :=
  (∀ (r i : Nat) (t : Take) (e : Fetched) (s : State),
    Picks s r i 0x15 0x03 e →
    takeOf s (epOf r) = some t →
    (t.st = .accepted ∨ t.st = .snapshot ∨ t.st = .writing) →
    exec (.ckptAbort r i) s = .next (failTake (finish (unorder (begun s r i e) (refOf r i e)) (refOf r i e) 0 1 0) (epOf r) 0x08))
  ∧ (∀ (r i : Nat) (t : Take) (e : Fetched) (s : State),
    Picks s r i 0x15 0x03 e →
    takeOf s (epOf r) = some t →
    t.st = .committing →
    exec (.ckptAbort r i) s = .next (finish (unorder (begun s r i e) (refOf r i e)) (refOf r i e) 0 0 0) ∧ takeOf (finish (unorder (begun s r i e) (refOf r i e)) (refOf r i e) 0 0 0) (epOf r) = some t)
  ∧ (∀ (t : Take),
    (t.st = .accepted ∨ t.st = .snapshot ∨ t.st = .writing) ↔ t.st ≠ .committing)

/-- A command with a nonzero rate and a burst below 9,216 bytes, a committed rate above the peak rate, or a rate above 800,000 Mb/s completes with 0x06 (spec/11_scheduling_and_gates.md (R398)). -/
def Obligations.BrokenRatesAreRefused : Prop :=
  ∀ (r i op : Nat) (c : Instr) (e : Fetched) (s : State),
    Starts s r i 0x22 op e →
    (c, op) ∈ [(Instr.txqCreate r i, 1), (Instr.qConfig r i, 3), (Instr.policerSet r i, 5)] →
    (op ≠ 3 → netMay s r (fld e.desc.toNat 64 4) = true) →
    (op = 3 → (txqOf s r i).isSome = true) →
    ((dCir e.desc.toNat ≠ 0 ∧ dCbs e.desc.toNat < 9216) ∨ (dPir e.desc.toNat ≠ 0 ∧ dPbs e.desc.toNat < 9216) ∨ (dCir e.desc.toNat ≠ 0 ∧ dPir e.desc.toNat ≠ 0 ∧ dPir e.desc.toNat < dCir e.desc.toNat) ∨ 800000 < dCir e.desc.toNat ∨ 800000 < dPir e.desc.toNat) →
    exec c s = .next (finish (unorder (begun s r i e) (refOf r i e)) (refOf r i e) 0x06 0 0)
end

