-- ==== Sys2Proof/Laws/Dispatch.lean ====
section
/-!
SUPPORT. What exec answers for each command is that command's meaning: one lemma a command, so that no proof unfolds the
whole dispatch.
-/
set_option Elab.async false
namespace Sys2Proof.Machine

@[simp] theorem exec_registerWrite (fn : Nat) (space : RegSpace) (off width : Nat) (value : BitVec 64) (s : State) : exec (.registerWrite fn space off width value) s = execRegisterWrite fn space off width value s := rfl
@[simp] theorem exec_sharedControlWrite (rank cap off width : Nat) (value : BitVec 64) (s : State) : exec (.sharedControlWrite rank cap off width value) s = execSharedControlWrite rank cap off width value s := rfl
@[simp] theorem exec_ringDirCommit (fn : Nat) (s : State) : exec (.ringDirCommit fn) s = execRingDirCommit fn s := rfl
@[simp] theorem exec_ringDirUnlock (fn : Nat) (s : State) : exec (.ringDirUnlock fn) s = execRingDirUnlock fn s := rfl
@[simp] theorem exec_loadEntry (fn : Nat) (index : Nat) (s : State) : exec (.loadEntry fn index) s = execLoadEntry fn index s := rfl
@[simp] theorem exec_disableEntry (fn : Nat) (index : Nat) (s : State) : exec (.disableEntry fn index) s = execDisableEntry fn index s := rfl
@[simp] theorem exec_doorbell (fn : Nat) (page : Nat) (offset : Nat) (width : Nat) (word : BitVec 64) (s : State) : exec (.doorbell fn page offset width word) s = execDoorbell fn page offset width word s := rfl
@[simp] theorem exec_evCommit (fn : Nat) (value : BitVec 32) (s : State) : exec (.evCommit fn value) s = execEvCommit fn value s := rfl
@[simp] theorem exec_evUnlock (fn : Nat) (s : State) : exec (.evUnlock fn) s = execEvUnlock fn s := rfl
@[simp] theorem exec_leasePeriodWrite (fn : Nat) (value : BitVec 32) (s : State) : exec (.leasePeriodWrite fn value) s = execLeasePeriodWrite fn value s := rfl
@[simp] theorem exec_portEnable (fn : Nat) (port : Nat) (s : State) : exec (.portEnable fn port) s = execPortEnable fn port s := rfl
@[simp] theorem exec_portDisable (fn port : Nat) (s : State) : exec (.portDisable fn port) s = execPortDisable fn port s := rfl
@[simp] theorem exec_portRetrain (fn : Nat) (port : Nat) (s : State) : exec (.portRetrain fn port) s = execPortRetrain fn port s := rfl
@[simp] theorem exec_pwCommit (fn : Nat) (mask : BitVec 32) (s : State) : exec (.pwCommit fn mask) s = execPwCommit fn mask s := rfl
@[simp] theorem exec_afGateCommit (fn : Nat) (port : Nat) (s : State) : exec (.afGateCommit fn port) s = execAfGateCommit fn port s := rfl
@[simp] theorem exec_vcCreditsWrite (fn : Nat) (port : Nat) (units : BitVec 32) (s : State) : exec (.vcCreditsWrite fn port units) s = execVcCreditsWrite fn port units s := rfl
@[simp] theorem exec_ckSetCommit (fn : Nat) (s : State) : exec (.ckSetCommit fn) s = execCkSetCommit fn s := rfl
@[simp] theorem exec_ckSetUnlock (fn : Nat) (s : State) : exec (.ckSetUnlock fn) s = execCkSetUnlock fn s := rfl
@[simp] theorem exec_rdmaSetCommit (fn : Nat) (s : State) : exec (.rdmaSetCommit fn) s = execRdmaSetCommit fn s := rfl
@[simp] theorem exec_rdmaSetUnlock (fn : Nat) (s : State) : exec (.rdmaSetUnlock fn) s = execRdmaSetUnlock fn s := rfl
@[simp] theorem exec_schGateCommit (fn : Nat) (iface : Nat) (s : State) : exec (.schGateCommit fn iface) s = execSchGateCommit fn iface s := rfl
@[simp] theorem exec_breakoutWrite (fn : Nat) (net : Nat) (value : Nat) (s : State) : exec (.breakoutWrite fn net value) s = execBreakoutWrite fn net value s := rfl
@[simp] theorem exec_sqTailDoorbell (fn : Nat) (q : Nat) (tail : Nat) (cmds : HRead) (s : State) : exec (.sqTailDoorbell fn q tail cmds) s = execSqTailDoorbell fn q tail cmds s := rfl
@[simp] theorem exec_cqHeadDoorbell (fn : Nat) (q : Nat) (head : Nat) (s : State) : exec (.cqHeadDoorbell fn q head) s = execCqHeadDoorbell fn q head s := rfl
@[simp] theorem exec_ccEnSet (fn : Nat) (cc : Nat) (s : State) : exec (.ccEnSet fn cc) s = execCcEnSet fn cc s := rfl
@[simp] theorem exec_ccEnClear (fn : Nat) (reads : Bool) (s : State) : exec (.ccEnClear fn reads) s = execCcEnClear fn reads s := rfl
@[simp] theorem exec_nvmeShutdown (fn : Nat) (shn : Nat) (s : State) : exec (.nvmeShutdown fn shn) s = execNvmeShutdown fn shn s := rfl
@[simp] theorem exec_functionEnable (fn : Nat) (s : State) : exec (.functionEnable fn) s = execFunctionEnable fn s := rfl
@[simp] theorem exec_functionShutdown (fn : Nat) (keep enable reads : Bool) (s : State) : exec (.functionShutdown fn keep enable reads) s = execFunctionShutdown fn keep enable reads s := rfl
@[simp] theorem exec_orphanAdopt (fn : Nat) (entries : List HRead) (s : State) : exec (.orphanAdopt fn entries) s = execOrphanAdopt fn entries s := rfl
@[simp] theorem exec_orphanDiscard (fn : Nat) (s : State) : exec (.orphanDiscard fn) s = execOrphanDiscard fn s := rfl
@[simp] theorem exec_vfQuotaWrite (pf : Nat) (vf : Nat) (second : Bool) (value : BitVec 64) (s : State) : exec (.vfQuotaWrite pf vf second value) s = execVfQuotaWrite pf vf second value s := rfl
@[simp] theorem exec_msixUnmask (fn : Nat) (vec : Nat) (s : State) : exec (.msixUnmask fn vec) s = execMsixUnmask fn vec s := rfl
@[simp] theorem exec_intxPendingClear (fn : Nat) (index : Nat) (value : BitVec 64) (s : State) : exec (.intxPendingClear fn index value) s = execIntxPendingClear fn index value s := rfl
@[simp] theorem exec_regRead (session : Nat) (msg : List (BitVec 8)) (s : State) : exec (.regRead session msg) s = execRegRead session msg s := rfl
@[simp] theorem exec_regWrite (session : Nat) (msg : List (BitVec 8)) (s : State) : exec (.regWrite session msg) s = execRegWrite session msg s := rfl
@[simp] theorem exec_claim (session : Nat) (msg : List (BitVec 8)) (s : State) : exec (.claim session msg) s = execClaim session msg s := rfl
@[simp] theorem exec_release (session : Nat) (msg : List (BitVec 8)) (s : State) : exec (.release session msg) s = execRelease session msg s := rfl
@[simp] theorem exec_installerKey (session : Nat) (msg : List (BitVec 8)) (s : State) : exec (.installerKey session msg) s = execInstallerKey session msg s := rfl
@[simp] theorem exec_operatorKey (session : Nat) (msg : List (BitVec 8)) (s : State) : exec (.operatorKey session msg) s = execOperatorKey session msg s := rfl
@[simp] theorem exec_policy (session : Nat) (msg : List (BitVec 8)) (s : State) : exec (.policy session msg) s = execPolicy session msg s := rfl
@[simp] theorem exec_consent (session : Nat) (msg : List (BitVec 8)) (s : State) : exec (.consent session msg) s = execConsent session msg s := rfl
@[simp] theorem exec_debugUnlock (session : Nat) (msg : List (BitVec 8)) (s : State) : exec (.debugUnlock session msg) s = execDebugUnlock session msg s := rfl
@[simp] theorem exec_fwStage (src : FwSrc) (read : HRead) (image : ImageSet) (s : State) : exec (.fwStage src read image) s = execFwStage src read image s := rfl
@[simp] theorem exec_fwActivate (src : FwSrc) (s : State) : exec (.fwActivate src) s = execFwActivate src s := rfl
@[simp] theorem exec_fwConfirm (src : FwSrc) (s : State) : exec (.fwConfirm src) s = execFwConfirm src s := rfl
@[simp] theorem exec_attest (src : FwSrc) (s : State) : exec (.attest src) s = execAttest src s := rfl
@[simp] theorem exec_auditRead (src : FwSrc) (s : State) : exec (.auditRead src) s = execAuditRead src s := rfl
@[simp] theorem exec_cvArm (fn unit : Nat) (ctrl : BitVec 32) (s : State) : exec (.cvArm fn unit ctrl) s = execCvArm fn unit ctrl s := rfl
@[simp] theorem exec_cvDisarm (fn unit : Nat) (ctrl : BitVec 32) (s : State) : exec (.cvDisarm fn unit ctrl) s = execCvDisarm fn unit ctrl s := rfl
@[simp] theorem exec_commitTick (claimEnN debugEnN : Bool) (s : State) : exec (.commitTick claimEnN debugEnN) s = execCommitTick claimEnN debugEnN s := rfl
@[simp] theorem exec_directoryReadReturn (fn : Nat) (read : HRead) (s : State) : exec (.directoryReadReturn fn read) s = execDirectoryReadReturn fn read s := rfl
@[simp] theorem exec_descriptorFetch (fn ring : Nat) (read : HRead) (s : State) : exec (.descriptorFetch fn ring read) s = execDescriptorFetch fn ring read s := rfl
@[simp] theorem exec_nop (fn : Nat) (ring : Nat) (s : State) : exec (.nop fn ring) s = execNop fn ring s := rfl
@[simp] theorem exec_interruptModerationExpiry (fn : Nat) (ring : Nat) (s : State) : exec (.interruptModerationExpiry fn ring) s = execInterruptModerationExpiry fn ring s := rfl
@[simp] theorem exec_leaseHalf (fn : Nat) (s : State) : exec (.leaseHalf fn) s = execLeaseHalf fn s := rfl
@[simp] theorem exec_leaseExpiry (fn : Nat) (reads : Bool) (s : State) : exec (.leaseExpiry fn reads) s = execLeaseExpiry fn reads s := rfl
@[simp] theorem exec_rxLightChange (port : Nat) (lit : BitVec 16) (s : State) : exec (.rxLightChange port lit) s = execRxLightChange port lit s := rfl
@[simp] theorem exec_detectHalfTimeout (port : Nat) (s : State) : exec (.detectHalfTimeout port) s = execDetectHalfTimeout port s := rfl
@[simp] theorem exec_lossOfLight (port : Nat) (s : State) : exec (.lossOfLight port) s = execLossOfLight port s := rfl
@[simp] theorem exec_trainTimeout (port : Nat) (s : State) : exec (.trainTimeout port) s = execTrainTimeout port s := rfl
@[simp] theorem exec_trainingFlitRx (port : Nat) (ownGood : BitVec 16) (flit : List (BitVec 8)) (s : State) : exec (.trainingFlitRx port ownGood flit) s = execTrainingFlitRx port ownGood flit s := rfl
@[simp] theorem exec_retrainTimeout (port : Nat) (s : State) : exec (.retrainTimeout port) s = execRetrainTimeout port s := rfl
@[simp] theorem exec_downTimeout (port : Nat) (s : State) : exec (.downTimeout port) s = execDownTimeout port s := rfl
@[simp] theorem exec_widenCheck (port : Nat) (s : State) : exec (.widenCheck port) s = execWidenCheck port s := rfl
@[simp] theorem exec_retrainAtReached (port : Nat) (s : State) : exec (.retrainAtReached port) s = execRetrainAtReached port s := rfl
@[simp] theorem exec_flitRx (port : Nat) (flit : List (BitVec 8)) (s : State) : exec (.flitRx port flit) s = execFlitRx port flit s := rfl
@[simp] theorem exec_replayRun (port : Nat) (s : State) : exec (.replayRun port) s = execReplayRun port s := rfl
@[simp] theorem exec_ackTimer (port : Nat) (s : State) : exec (.ackTimer port) s = execAckTimer port s := rfl
@[simp] theorem exec_fabricWrite (port : Nat) (addr : Nat) (data : List (BitVec 8)) (s : State) : exec (.fabricWrite port addr data) s = execFabricWrite port addr data s := rfl
@[simp] theorem exec_fabricWriteAcked (port : Nat) (tag : Nat) (addr : Nat) (data : List (BitVec 8)) (s : State) : exec (.fabricWriteAcked port tag addr data) s = execFabricWriteAcked port tag addr data s := rfl
@[simp] theorem exec_fabricRead (port : Nat) (tag : Nat) (addr : Nat) (length : Nat) (s : State) : exec (.fabricRead port tag addr length) s = execFabricRead port tag addr length s := rfl
@[simp] theorem exec_fabricCpl (port : Nat) (toPort : Nat) (tag : Nat) (status : Nat) (data : List (BitVec 8)) (s : State) : exec (.fabricCpl port toPort tag status data) s = execFabricCpl port toPort tag status data s := rfl
@[simp] theorem exec_egressDepart (port : Nat) (s : State) : exec (.egressDepart port) s = execEgressDepart port s := rfl
@[simp] theorem exec_windowsActivate (s : State) : exec .windowsActivate s = execWindowsActivate s := rfl
@[simp] theorem exec_gateListTakeEffect (accel : Bool) (which : Nat) (s : State) : exec (.gateListTakeEffect accel which) s = execGateListTakeEffect accel which s := rfl
@[simp] theorem exec_gateEntryAdvance (accel : Bool) (which : Nat) (s : State) : exec (.gateEntryAdvance accel which) s = execGateEntryAdvance accel which s := rfl
@[simp] theorem exec_accelAlert (port : Nat) (low : Bool) (s : State) : exec (.accelAlert port low) s = execAccelAlert port low s := rfl
@[simp] theorem exec_rdOpen (core : Nat) (s : State) : exec (.rdOpen core) s = execRdOpen core s := rfl
@[simp] theorem exec_admissionGrant (s : State) : exec .admissionGrant s = execAdmissionGrant s := rfl
@[simp] theorem exec_rdPull (core : Nat) (s : State) : exec (.rdPull core) s = execRdPull core s := rfl
@[simp] theorem exec_pullDataReturn (handle : Nat) (which : Nat) (back : PullRead) (s : State) : exec (.pullDataReturn handle which back) s = execPullDataReturn handle which back s := rfl
@[simp] theorem exec_rdClose (core : Nat) (s : State) : exec (.rdClose core) s = execRdClose core s := rfl
@[simp] theorem exec_rdAbort (core : Nat) (s : State) : exec (.rdAbort core) s = execRdAbort core s := rfl
@[simp] theorem exec_contrib (port : Nat) (handle : Nat) (hgen : Nat) (rank : Nat) (element : Nat) (data : List (BitVec 8)) (s : State) : exec (.contrib port handle hgen rank element data) s = execContrib port handle hgen rank element data s := rfl
@[simp] theorem exec_resultCopyDepart (handle : Nat) (sumTile : Nat) (s : State) : exec (.resultCopyDepart handle sumTile) s = execResultCopyDepart handle sumTile s := rfl
@[simp] theorem exec_resultWriteAccepted (handle : Nat) (sumTile : Nat) (s : State) : exec (.resultWriteAccepted handle sumTile) s = execResultWriteAccepted handle sumTile s := rfl
@[simp] theorem exec_alu (core : Nat) (lo : BitVec 32) (s : State) : exec (.alu core lo) s = execAlu core lo s := rfl
@[simp] theorem exec_addi (core : Nat) (lo : BitVec 32) (s : State) : exec (.addi core lo) s = execAddi core lo s := rfl
@[simp] theorem exec_andi (core : Nat) (lo : BitVec 32) (s : State) : exec (.andi core lo) s = execAndi core lo s := rfl
@[simp] theorem exec_ori (core : Nat) (lo : BitVec 32) (s : State) : exec (.ori core lo) s = execOri core lo s := rfl
@[simp] theorem exec_xori (core : Nat) (lo : BitVec 32) (s : State) : exec (.xori core lo) s = execXori core lo s := rfl
@[simp] theorem exec_shifti (core : Nat) (lo : BitVec 32) (s : State) : exec (.shifti core lo) s = execShifti core lo s := rfl
@[simp] theorem exec_movi (core : Nat) (lo : BitVec 32) (s : State) : exec (.movi core lo) s = execMovi core lo s := rfl
@[simp] theorem exec_movk16 (core : Nat) (lo : BitVec 32) (s : State) : exec (.movk16 core lo) s = execMovk16 core lo s := rfl
@[simp] theorem exec_movk32 (core : Nat) (lo : BitVec 32) (s : State) : exec (.movk32 core lo) s = execMovk32 core lo s := rfl
@[simp] theorem exec_movk48 (core : Nat) (lo : BitVec 32) (s : State) : exec (.movk48 core lo) s = execMovk48 core lo s := rfl
@[simp] theorem exec_cmp (core : Nat) (lo : BitVec 32) (s : State) : exec (.cmp core lo) s = execCmp core lo s := rfl
@[simp] theorem exec_cmpi (core : Nat) (lo : BitVec 32) (s : State) : exec (.cmpi core lo) s = execCmpi core lo s := rfl
@[simp] theorem exec_plog (core : Nat) (lo : BitVec 32) (s : State) : exec (.plog core lo) s = execPlog core lo s := rfl
@[simp] theorem exec_pmov (core : Nat) (lo : BitVec 32) (s : State) : exec (.pmov core lo) s = execPmov core lo s := rfl
@[simp] theorem exec_ld8 (core : Nat) (lo : BitVec 32) (s : State) : exec (.ld8 core lo) s = execLd8 core lo s := rfl
@[simp] theorem exec_ld16 (core : Nat) (lo : BitVec 32) (s : State) : exec (.ld16 core lo) s = execLd16 core lo s := rfl
@[simp] theorem exec_ld32 (core : Nat) (lo : BitVec 32) (s : State) : exec (.ld32 core lo) s = execLd32 core lo s := rfl
@[simp] theorem exec_ld64 (core : Nat) (lo : BitVec 32) (s : State) : exec (.ld64 core lo) s = execLd64 core lo s := rfl
@[simp] theorem exec_lds8 (core : Nat) (lo : BitVec 32) (s : State) : exec (.lds8 core lo) s = execLds8 core lo s := rfl
@[simp] theorem exec_lds16 (core : Nat) (lo : BitVec 32) (s : State) : exec (.lds16 core lo) s = execLds16 core lo s := rfl
@[simp] theorem exec_lds32 (core : Nat) (lo : BitVec 32) (s : State) : exec (.lds32 core lo) s = execLds32 core lo s := rfl
@[simp] theorem exec_loadDataReturn (core : Nat) (ret : LoadRet) (s : State) : exec (.loadDataReturn core ret) s = execLoadDataReturn core ret s := rfl
@[simp] theorem exec_st8 (core : Nat) (lo : BitVec 32) (s : State) : exec (.st8 core lo) s = execSt8 core lo s := rfl
@[simp] theorem exec_st16 (core : Nat) (lo : BitVec 32) (s : State) : exec (.st16 core lo) s = execSt16 core lo s := rfl
@[simp] theorem exec_st32 (core : Nat) (lo : BitVec 32) (s : State) : exec (.st32 core lo) s = execSt32 core lo s := rfl
@[simp] theorem exec_st64 (core : Nat) (lo : BitVec 32) (s : State) : exec (.st64 core lo) s = execSt64 core lo s := rfl
@[simp] theorem exec_cas (core : Nat) (lo : BitVec 32) (s : State) : exec (.cas core lo) s = execCas core lo s := rfl
@[simp] theorem exec_fence (core : Nat) (lo : BitVec 32) (s : State) : exec (.fence core lo) s = execFence core lo s := rfl
@[simp] theorem exec_br (core : Nat) (lo : BitVec 32) (s : State) : exec (.br core lo) s = execBr core lo s := rfl
@[simp] theorem exec_jr (core : Nat) (lo : BitVec 32) (s : State) : exec (.jr core lo) s = execJr core lo s := rfl
@[simp] theorem exec_adr (core : Nat) (lo : BitVec 32) (s : State) : exec (.adr core lo) s = execAdr core lo s := rfl
@[simp] theorem exec_call (core : Nat) (lo : BitVec 32) (s : State) : exec (.call core lo) s = execCall core lo s := rfl
@[simp] theorem exec_ret (core : Nat) (lo : BitVec 32) (s : State) : exec (.ret core lo) s = execRet core lo s := rfl
@[simp] theorem exec_eret (core : Nat) (lo : BitVec 32) (s : State) : exec (.eret core lo) s = execEret core lo s := rfl
@[simp] theorem exec_trap (core : Nat) (lo : BitVec 32) (s : State) : exec (.trap core lo) s = execTrap core lo s := rfl
@[simp] theorem exec_step (core : Nat) (lo : BitVec 32) (s : State) : exec (.step core lo) s = execStep core lo s := rfl
@[simp] theorem exec_wait (core : Nat) (lo : BitVec 32) (s : State) : exec (.wait core lo) s = execWait core lo s := rfl
@[simp] theorem exec_waitWake (core : Nat) (s : State) : exec (.waitWake core) s = execWaitWake core s := rfl
@[simp] theorem exec_lock (core : Nat) (lo : BitVec 32) (s : State) : exec (.lock core lo) s = execLock core lo s := rfl
@[simp] theorem exec_lockGrant (lock : Nat) (s : State) : exec (.lockGrant lock) s = execLockGrant lock s := rfl
@[simp] theorem exec_unlock (core : Nat) (lo : BitVec 32) (s : State) : exec (.unlock core lo) s = execUnlock core lo s := rfl
@[simp] theorem exec_alive (core : Nat) (lo : BitVec 32) (s : State) : exec (.alive core lo) s = execAlive core lo s := rfl
@[simp] theorem exec_csrr (core : Nat) (lo : BitVec 32) (s : State) : exec (.csrr core lo) s = execCsrr core lo s := rfl
@[simp] theorem exec_csrw (core : Nat) (lo : BitVec 32) (s : State) : exec (.csrw core lo) s = execCsrw core lo s := rfl
@[simp] theorem exec_scqPop (core : Nat) (lo : BitVec 32) (s : State) : exec (.scqPop core lo) s = execScqPop core lo s := rfl
@[simp] theorem exec_mboxPop (core : Nat) (lo : BitVec 32) (s : State) : exec (.mboxPop core lo) s = execMboxPop core lo s := rfl
@[simp] theorem exec_stuckAccess (core : Nat) (s : State) : exec (.stuckAccess core) s = execStuckAccess core s := rfl
@[simp] theorem exec_aliveSample (s : State) : exec .aliveSample s = execAliveSample s := rfl
@[simp] theorem exec_coreStop (core : Nat) (s : State) : exec (.coreStop core) s = execCoreStop core s := rfl
@[simp] theorem exec_coreReloadComplete (core : Nat) (journal : Codeword) (s : State) : exec (.coreReloadComplete core journal) s = execCoreReloadComplete core journal s := rfl
@[simp] theorem exec_coreFailedAdoption (core : Nat) (s : State) : exec (.coreFailedAdoption core) s = execCoreFailedAdoption core s := rfl
@[simp] theorem exec_keeperFailover (s : State) : exec .keeperFailover s = execKeeperFailover s := rfl
@[simp] theorem exec_keeperReloadComplete (s : State) : exec .keeperReloadComplete s = execKeeperReloadComplete s := rfl
@[simp] theorem exec_romKeeperRestart (s : State) : exec .romKeeperRestart s = execRomKeeperRestart s := rfl
@[simp] theorem exec_drainRequest (core : Nat) (s : State) : exec (.drainRequest core) s = execDrainRequest core s := rfl
@[simp] theorem exec_drainCancel (core : Nat) (s : State) : exec (.drainCancel core) s = execDrainCancel core s := rfl
@[simp] theorem exec_handoffRecord (core : Nat) (s : State) : exec (.handoffRecord core) s = execHandoffRecord core s := rfl
@[simp] theorem exec_handoffTimeout (core : Nat) (s : State) : exec (.handoffTimeout core) s = execHandoffTimeout core s := rfl
@[simp] theorem exec_swapAdopt (core : Nat) (s : State) : exec (.swapAdopt core) s = execSwapAdopt core s := rfl
@[simp] theorem exec_componentReplace (s : State) : exec .componentReplace s = execComponentReplace s := rfl
@[simp] theorem exec_rtStep (core : Nat) (s : State) : exec (.rtStep core) s = execRtStep core s := rfl
@[simp] theorem exec_rtReap (core : Nat) (s : State) : exec (.rtReap core) s = execRtReap core s := rfl
@[simp] theorem exec_rtPut (core : Nat) (s : State) : exec (.rtPut core) s = execRtPut core s := rfl
@[simp] theorem exec_rtArrived (core : Nat) (s : State) : exec (.rtArrived core) s = execRtArrived core s := rfl
@[simp] theorem exec_rtMove (core : Nat) (ext : ARead) (s : State) : exec (.rtMove core ext) s = execRtMove core ext s := rfl
@[simp] theorem exec_rtNotify (core : Nat) (s : State) : exec (.rtNotify core) s = execRtNotify core s := rfl
@[simp] theorem exec_rtFinish (core : Nat) (s : State) : exec (.rtFinish core) s = execRtFinish core s := rfl
@[simp] theorem exec_rtYield (core : Nat) (s : State) : exec (.rtYield core) s = execRtYield core s := rfl
@[simp] theorem exec_progLoad (fn ring : Nat) (image : HRead) (s : State) : exec (.progLoad fn ring image) s = execProgLoad fn ring image s := rfl
@[simp] theorem exec_progUnload (fn ring : Nat) (s : State) : exec (.progUnload fn ring) s = execProgUnload fn ring s := rfl
@[simp] theorem exec_commCreate (fn ring : Nat) (s : State) : exec (.commCreate fn ring) s = execCommCreate fn ring s := rfl
@[simp] theorem exec_commConnect (fn ring : Nat) (peers : HRead) (s : State) : exec (.commConnect fn ring peers) s = execCommConnect fn ring peers s := rfl
@[simp] theorem exec_commDestroy (fn ring : Nat) (s : State) : exec (.commDestroy fn ring) s = execCommDestroy fn ring s := rfl
@[simp] theorem exec_collLaunch (fn ring : Nat) (s : State) : exec (.collLaunch fn ring) s = execCollLaunch fn ring s := rfl
@[simp] theorem exec_launchStart (core : Nat) (s : State) : exec (.launchStart core) s = execLaunchStart core s := rfl
@[simp] theorem exec_collAbort (fn ring : Nat) (s : State) : exec (.collAbort fn ring) s = execCollAbort fn ring s := rfl
@[simp] theorem exec_classSet (fn : Nat) (ring : Nat) (s : State) : exec (.classSet fn ring) s = execClassSet fn ring s := rfl
@[simp] theorem exec_seqOpen (fn : Nat) (ring : Nat) (s : State) : exec (.seqOpen fn ring) s = execSeqOpen fn ring s := rfl
@[simp] theorem exec_seqFork (fn : Nat) (ring : Nat) (s : State) : exec (.seqFork fn ring) s = execSeqFork fn ring s := rfl
@[simp] theorem exec_seqClose (fn : Nat) (ring : Nat) (s : State) : exec (.seqClose fn ring) s = execSeqClose fn ring s := rfl
@[simp] theorem exec_seqGrow (fn : Nat) (ring : Nat) (s : State) : exec (.seqGrow fn ring) s = execSeqGrow fn ring s := rfl
@[simp] theorem exec_seqSeal (fn : Nat) (ring : Nat) (s : State) : exec (.seqSeal fn ring) s = execSeqSeal fn ring s := rfl
@[simp] theorem exec_seqTruncate (fn : Nat) (ring : Nat) (s : State) : exec (.seqTruncate fn ring) s = execSeqTruncate fn ring s := rfl
@[simp] theorem exec_seqPin (fn : Nat) (ring : Nat) (s : State) : exec (.seqPin fn ring) s = execSeqPin fn ring s := rfl
@[simp] theorem exec_seqDemote (fn : Nat) (ring : Nat) (s : State) : exec (.seqDemote fn ring) s = execSeqDemote fn ring s := rfl
@[simp] theorem exec_seqQuery (fn : Nat) (ring : Nat) (s : State) : exec (.seqQuery fn ring) s = execSeqQuery fn ring s := rfl
@[simp] theorem exec_planPost (fn : Nat) (ring : Nat) (entries : HRead) (s : State) : exec (.planPost fn ring entries) s = execPlanPost fn ring entries s := rfl
@[simp] theorem exec_planCancel (fn : Nat) (ring : Nat) (s : State) : exec (.planCancel fn ring) s = execPlanCancel fn ring s := rfl
@[simp] theorem exec_blockCopyComplete (block : Nat) (ext : ARead) (s : State) : exec (.blockCopyComplete block ext) s = execBlockCopyComplete block ext s := rfl
@[simp] theorem exec_blockReadReturn (plan : Nat) (block : Nat) (ext : ARead) (s : State) : exec (.blockReadReturn plan block ext) s = execBlockReadReturn plan block ext s := rfl
@[simp] theorem exec_blockResident (plan : Nat) (block : Nat) (s : State) : exec (.blockResident plan block) s = execBlockResident plan block s := rfl
@[simp] theorem exec_planDeadline (plan : Nat) (s : State) : exec (.planDeadline plan) s = execPlanDeadline plan s := rfl
@[simp] theorem exec_planRelease (plan : Nat) (s : State) : exec (.planRelease plan) s = execPlanRelease plan s := rfl
@[simp] theorem exec_kvSetCommit (s : State) : exec .kvSetCommit s = execKvSetCommit s := rfl
@[simp] theorem exec_kvSetUnlock (s : State) : exec .kvSetUnlock s = execKvSetUnlock s := rfl
@[simp] theorem exec_ckptJobSet (fn : Nat) (ring : Nat) (read : HRead) (s : State) : exec (.ckptJobSet fn ring read) s = execCkptJobSet fn ring read s := rfl
@[simp] theorem exec_ckptTake (fn : Nat) (ring : Nat) (read : HRead) (answers : List BRead) (s : State) : exec (.ckptTake fn ring read answers) s = execCkptTake fn ring read answers s := rfl
@[simp] theorem exec_snapshotPoint (ep : Nat) (s : State) : exec (.snapshotPoint ep) s = execSnapshotPoint ep s := rfl
@[simp] theorem exec_granuleCow (granule : Nat) (s : State) : exec (.granuleCow granule) s = execGranuleCow granule s := rfl
@[simp] theorem exec_captureReadReturn (ep : Nat) (ext : ARead) (s : State) : exec (.captureReadReturn ep ext) s = execCaptureReadReturn ep ext s := rfl
@[simp] theorem exec_takeFlushComplete (ep : Nat) (answer : BRead) (s : State) : exec (.takeFlushComplete ep answer) s = execTakeFlushComplete ep answer s := rfl
@[simp] theorem exec_rootWriteComplete (ep : Nat) (answer : BRead) (s : State) : exec (.rootWriteComplete ep answer) s = execRootWriteComplete ep answer s := rfl
@[simp] theorem exec_ckptAbort (fn : Nat) (ring : Nat) (s : State) : exec (.ckptAbort fn ring) s = execCkptAbort fn ring s := rfl
@[simp] theorem exec_ckptSurvey (fn : Nat) (ring : Nat) (answers : List BRead) (s : State) : exec (.ckptSurvey fn ring answers) s = execCkptSurvey fn ring answers s := rfl
@[simp] theorem exec_ckptRestore (fn : Nat) (ring : Nat) (read : HRead) (answers : List BRead) (s : State) : exec (.ckptRestore fn ring read answers) s = execCkptRestore fn ring read answers s := rfl
@[simp] theorem exec_pdAlloc (fn : Nat) (ring : Nat) (s : State) : exec (.pdAlloc fn ring) s = execPdAlloc fn ring s := rfl
@[simp] theorem exec_pdFree (fn : Nat) (ring : Nat) (s : State) : exec (.pdFree fn ring) s = execPdFree fn ring s := rfl
@[simp] theorem exec_mrReg (fn : Nat) (ring : Nat) (s : State) : exec (.mrReg fn ring) s = execMrReg fn ring s := rfl
@[simp] theorem exec_mrDereg (fn : Nat) (ring : Nat) (s : State) : exec (.mrDereg fn ring) s = execMrDereg fn ring s := rfl
@[simp] theorem exec_qpCreate (fn : Nat) (ring : Nat) (s : State) : exec (.qpCreate fn ring) s = execQpCreate fn ring s := rfl
@[simp] theorem exec_qpModify (fn : Nat) (ring : Nat) (attrs : HRead) (s : State) : exec (.qpModify fn ring attrs) s = execQpModify fn ring attrs s := rfl
@[simp] theorem exec_qpQuery (fn : Nat) (ring : Nat) (s : State) : exec (.qpQuery fn ring) s = execQpQuery fn ring s := rfl
@[simp] theorem exec_qpDestroy (fn : Nat) (ring : Nat) (s : State) : exec (.qpDestroy fn ring) s = execQpDestroy fn ring s := rfl
@[simp] theorem exec_ahCreate (fn : Nat) (ring : Nat) (attrs : HRead) (s : State) : exec (.ahCreate fn ring attrs) s = execAhCreate fn ring attrs s := rfl
@[simp] theorem exec_ahDestroy (fn : Nat) (ring : Nat) (s : State) : exec (.ahDestroy fn ring) s = execAhDestroy fn ring s := rfl
@[simp] theorem exec_send (fn : Nat) (ring : Nat) (data : HRead) (s : State) : exec (.send fn ring data) s = execSend fn ring data s := rfl
@[simp] theorem exec_sendImm (fn : Nat) (ring : Nat) (data : HRead) (s : State) : exec (.sendImm fn ring data) s = execSendImm fn ring data s := rfl
@[simp] theorem exec_write (fn : Nat) (ring : Nat) (data : HRead) (s : State) : exec (.write fn ring data) s = execWrite fn ring data s := rfl
@[simp] theorem exec_writeImm (fn : Nat) (ring : Nat) (data : HRead) (s : State) : exec (.writeImm fn ring data) s = execWriteImm fn ring data s := rfl
@[simp] theorem exec_read (fn : Nat) (ring : Nat) (s : State) : exec (.read fn ring) s = execRead fn ring s := rfl
@[simp] theorem exec_atomicCas (fn : Nat) (ring : Nat) (s : State) : exec (.atomicCas fn ring) s = execAtomicCas fn ring s := rfl
@[simp] theorem exec_atomicFadd (fn : Nat) (ring : Nat) (s : State) : exec (.atomicFadd fn ring) s = execAtomicFadd fn ring s := rfl
@[simp] theorem exec_recv (fn : Nat) (ring : Nat) (s : State) : exec (.recv fn ring) s = execRecv fn ring s := rfl
@[simp] theorem exec_rcRequestPacket (net : Nat) (host : HRead) (s : State) : exec (.rcRequestPacket net host) s = execRcRequestPacket net host s := rfl
@[simp] theorem exec_responsePacket (net : Nat) (s : State) : exec (.responsePacket net) s = execResponsePacket net s := rfl
@[simp] theorem exec_udPacket (net : Nat) (s : State) : exec (.udPacket net) s = execUdPacket net s := rfl
@[simp] theorem exec_ackTimeout (qpn : Nat) (s : State) : exec (.ackTimeout qpn) s = execAckTimeout qpn s := rfl
@[simp] theorem exec_rnrTimerExpiry (qpn : Nat) (s : State) : exec (.rnrTimerExpiry qpn) s = execRnrTimerExpiry qpn s := rfl
@[simp] theorem exec_cnpRx (net : Nat) (s : State) : exec (.cnpRx net) s = execCnpRx net s := rfl
@[simp] theorem exec_gustTick (s : State) : exec .gustTick s = execGustTick s := rfl
@[simp] theorem exec_contextFetchReturn (qpn : Nat) (read : HRead) (s : State) : exec (.contextFetchReturn qpn read) s = execContextFetchReturn qpn read s := rfl
@[simp] theorem exec_contextWritebackAccepted (qpn : Nat) (s : State) : exec (.contextWritebackAccepted qpn) s = execContextWritebackAccepted qpn s := rfl
@[simp] theorem exec_rxFrame (iface : Nat) (frame : List (BitVec 8)) (s : State) : exec (.rxFrame iface frame) s = execRxFrame iface frame s := rfl
@[simp] theorem exec_classifyPass (net : Nat) (tx : Bool) (s : State) : exec (.classifyPass net tx) s = execClassifyPass net tx s := rfl
@[simp] theorem exec_graphLoad (fn : Nat) (ring : Nat) (image : HRead) (sig : List (BitVec 8)) (graph : Graph) (s : State) : exec (.graphLoad fn ring image sig graph) s = execGraphLoad fn ring image sig graph s := rfl
@[simp] theorem exec_graphUnload (fn : Nat) (ring : Nat) (s : State) : exec (.graphUnload fn ring) s = execGraphUnload fn ring s := rfl
@[simp] theorem exec_setCreate (fn : Nat) (ring : Nat) (record : HRead) (s : State) : exec (.setCreate fn ring record) s = execSetCreate fn ring record s := rfl
@[simp] theorem exec_setDestroy (fn : Nat) (ring : Nat) (s : State) : exec (.setDestroy fn ring) s = execSetDestroy fn ring s := rfl
@[simp] theorem exec_setConfig (fn : Nat) (ring : Nat) (record : HRead) (s : State) : exec (.setConfig fn ring record) s = execSetConfig fn ring record s := rfl
@[simp] theorem exec_bind (fn : Nat) (ring : Nat) (s : State) : exec (.bind fn ring) s = execBind fn ring s := rfl
@[simp] theorem exec_entryAdd (fn : Nat) (ring : Nat) (records : HRead) (s : State) : exec (.entryAdd fn ring records) s = execEntryAdd fn ring records s := rfl
@[simp] theorem exec_entryDel (fn : Nat) (ring : Nat) (records : HRead) (s : State) : exec (.entryDel fn ring records) s = execEntryDel fn ring records s := rfl
@[simp] theorem exec_rangeSet (fn : Nat) (ring : Nat) (record : HRead) (s : State) : exec (.rangeSet fn ring record) s = execRangeSet fn ring record s := rfl
@[simp] theorem exec_setCommit (fn : Nat) (ring : Nat) (s : State) : exec (.setCommit fn ring) s = execSetCommit fn ring s := rfl
@[simp] theorem exec_counterRead (fn : Nat) (ring : Nat) (s : State) : exec (.counterRead fn ring) s = execCounterRead fn ring s := rfl
@[simp] theorem exec_legacyLoad (fn : Nat) (ring : Nat) (image : HRead) (s : State) : exec (.legacyLoad fn ring image) s = execLegacyLoad fn ring image s := rfl
@[simp] theorem exec_txqCreate (fn : Nat) (ring : Nat) (s : State) : exec (.txqCreate fn ring) s = execTxqCreate fn ring s := rfl
@[simp] theorem exec_rxqCreate (fn : Nat) (ring : Nat) (s : State) : exec (.rxqCreate fn ring) s = execRxqCreate fn ring s := rfl
@[simp] theorem exec_qConfig (fn : Nat) (ring : Nat) (s : State) : exec (.qConfig fn ring) s = execQConfig fn ring s := rfl
@[simp] theorem exec_qDestroy (fn : Nat) (ring : Nat) (s : State) : exec (.qDestroy fn ring) s = execQDestroy fn ring s := rfl
@[simp] theorem exec_policerSet (fn : Nat) (ring : Nat) (s : State) : exec (.policerSet fn ring) s = execPolicerSet fn ring s := rfl
@[simp] theorem exec_policerRead (fn : Nat) (ring : Nat) (s : State) : exec (.policerRead fn ring) s = execPolicerRead fn ring s := rfl
@[simp] theorem exec_txPacket (fn : Nat) (ring : Nat) (data : HRead) (s : State) : exec (.txPacket fn ring data) s = execTxPacket fn ring data s := rfl
@[simp] theorem exec_rxBuffer (fn : Nat) (ring : Nat) (s : State) : exec (.rxBuffer fn ring) s = execRxBuffer fn ring s := rfl
@[simp] theorem exec_frameSelect (iface : Nat) (s : State) : exec (.frameSelect iface) s = execFrameSelect iface s := rfl
@[simp] theorem exec_frameTxDone (iface : Nat) (s : State) : exec (.frameTxDone iface) s = execFrameTxDone iface s := rfl
@[simp] theorem exec_timeWait (fn : Nat) (ring : Nat) (s : State) : exec (.timeWait fn ring) s = execTimeWait fn ring s := rfl
@[simp] theorem exec_timeWaitDue (s : State) : exec .timeWaitDue s = execTimeWaitDue s := rfl
@[simp] theorem exec_interfaceLinkChange (iface : Nat) (up : Bool) (s : State) : exec (.interfaceLinkChange iface up) s = execInterfaceLinkChange iface up s := rfl
@[simp] theorem exec_keyAlloc (fn : Nat) (ring : Nat) (s : State) : exec (.keyAlloc fn ring) s = execKeyAlloc fn ring s := rfl
@[simp] theorem exec_keyLoad (fn : Nat) (ring : Nat) (read : HRead) (s : State) : exec (.keyLoad fn ring read) s = execKeyLoad fn ring read s := rfl
@[simp] theorem exec_keyFree (fn : Nat) (ring : Nat) (s : State) : exec (.keyFree fn ring) s = execKeyFree fn ring s := rfl
@[simp] theorem exec_saSet (fn : Nat) (ring : Nat) (read : HRead) (s : State) : exec (.saSet fn ring read) s = execSaSet fn ring read s := rfl
@[simp] theorem exec_sealGcm (fn : Nat) (ring : Nat) (src : HRead) (aad : HRead) (s : State) : exec (.sealGcm fn ring src aad) s = execSealGcm fn ring src aad s := rfl
@[simp] theorem exec_openGcm (fn : Nat) (ring : Nat) (src : HRead) (aad : HRead) (s : State) : exec (.openGcm fn ring src aad) s = execOpenGcm fn ring src aad s := rfl
@[simp] theorem exec_xtsEnc (fn : Nat) (ring : Nat) (src : HRead) (s : State) : exec (.xtsEnc fn ring src) s = execXtsEnc fn ring src s := rfl
@[simp] theorem exec_xtsDec (fn : Nat) (ring : Nat) (src : HRead) (s : State) : exec (.xtsDec fn ring src) s = execXtsDec fn ring src s := rfl
@[simp] theorem exec_hash (fn : Nat) (ring : Nat) (src : HRead) (state : HRead) (s : State) : exec (.hash fn ring src state) s = execHash fn ring src state s := rfl
@[simp] theorem exec_ctxSave (fn : Nat) (ring : Nat) (s : State) : exec (.ctxSave fn ring) s = execCtxSave fn ring s := rfl
@[simp] theorem exec_ctxRestore (fn : Nat) (ring : Nat) (src : HRead) (s : State) : exec (.ctxRestore fn ring src) s = execCtxRestore fn ring src s := rfl
@[simp] theorem exec_saQuery (fn : Nat) (ring : Nat) (s : State) : exec (.saQuery fn ring) s = execSaQuery fn ring s := rfl
@[simp] theorem exec_sealTileFault (tile8 : Nat) (s : State) : exec (.sealTileFault tile8) s = execSealTileFault tile8 s := rfl
@[simp] theorem exec_sealRecoveryEnd (tile8 : Nat) (s : State) : exec (.sealRecoveryEnd tile8) s = execSealRecoveryEnd tile8 s := rfl
@[simp] theorem exec_mcLockClaim (claims : List Nat) (s : State) : exec (.mcLockClaim claims) s = execMcLockClaim claims s := rfl
@[simp] theorem exec_mcLockRelease (claimant : Nat) (s : State) : exec (.mcLockRelease claimant) s = execMcLockRelease claimant s := rfl
@[simp] theorem exec_mcLockForcedRelease (s : State) : exec .mcLockForcedRelease s = execMcLockForcedRelease s := rfl
@[simp] theorem exec_identify (fn : Nat) (prps : HRead) (s : State) : exec (.identify fn prps) s = execIdentify fn prps s := rfl
@[simp] theorem exec_getLogPage (fn : Nat) (prps : HRead) (s : State) : exec (.getLogPage fn prps) s = execGetLogPage fn prps s := rfl
@[simp] theorem exec_setFeatures (fn : Nat) (s : State) : exec (.setFeatures fn) s = execSetFeatures fn s := rfl
@[simp] theorem exec_getFeatures (fn : Nat) (s : State) : exec (.getFeatures fn) s = execGetFeatures fn s := rfl
@[simp] theorem exec_createIoSq (fn : Nat) (s : State) : exec (.createIoSq fn) s = execCreateIoSq fn s := rfl
@[simp] theorem exec_createIoCq (fn : Nat) (s : State) : exec (.createIoCq fn) s = execCreateIoCq fn s := rfl
@[simp] theorem exec_deleteIoSq (fn : Nat) (s : State) : exec (.deleteIoSq fn) s = execDeleteIoSq fn s := rfl
@[simp] theorem exec_deleteIoCq (fn : Nat) (s : State) : exec (.deleteIoCq fn) s = execDeleteIoCq fn s := rfl
@[simp] theorem exec_nvmeAbort (fn : Nat) (s : State) : exec (.nvmeAbort fn) s = execNvmeAbort fn s := rfl
@[simp] theorem exec_asyncEventRequest (fn : Nat) (s : State) : exec (.asyncEventRequest fn) s = execAsyncEventRequest fn s := rfl
@[simp] theorem exec_nvmeRead (fn : Nat) (sq : Nat) (prps : HRead) (s : State) : exec (.nvmeRead fn sq prps) s = execNvmeRead fn sq prps s := rfl
@[simp] theorem exec_nvmeWrite (fn : Nat) (sq : Nat) (data : HRead) (s : State) : exec (.nvmeWrite fn sq data) s = execNvmeWrite fn sq data s := rfl
@[simp] theorem exec_nvmeFlush (fn : Nat) (sq : Nat) (s : State) : exec (.nvmeFlush fn sq) s = execNvmeFlush fn sq s := rfl
@[simp] theorem exec_writeZeroes (fn : Nat) (sq : Nat) (s : State) : exec (.writeZeroes fn sq) s = execWriteZeroes fn sq s := rfl
@[simp] theorem exec_datasetManagement (fn : Nat) (sq : Nat) (ranges : HRead) (s : State) : exec (.datasetManagement fn sq ranges) s = execDatasetManagement fn sq ranges s := rfl
@[simp] theorem exec_backendCommandComplete (backend : Nat) (which : Nat) (answer : BRead) (s : State) : exec (.backendCommandComplete backend which answer) s = execBackendCommandComplete backend which answer s := rfl
@[simp] theorem exec_writeBackComplete (backend : Nat) (which : Nat) (answer : BRead) (s : State) : exec (.writeBackComplete backend which answer) s = execWriteBackComplete backend which answer s := rfl
@[simp] theorem exec_keepAlive (backend : Nat) (ok : Bool) (s : State) : exec (.keepAlive backend ok) s = execKeepAlive backend ok s := rfl
@[simp] theorem exec_backendCreate (fn : Nat) (ring : Nat) (read : HRead) (s : State) : exec (.backendCreate fn ring read) s = execBackendCreate fn ring read s := rfl
@[simp] theorem exec_backendConnectStep (backend : Nat) (answer : BRead) (s : State) : exec (.backendConnectStep backend answer) s = execBackendConnectStep backend answer s := rfl
@[simp] theorem exec_backendDestroy (fn : Nat) (ring : Nat) (s : State) : exec (.backendDestroy fn ring) s = execBackendDestroy fn ring s := rfl
@[simp] theorem exec_backendRebind (fn : Nat) (ring : Nat) (read : HRead) (s : State) : exec (.backendRebind fn ring read) s = execBackendRebind fn ring read s := rfl
@[simp] theorem exec_backendQuery (fn : Nat) (ring : Nat) (s : State) : exec (.backendQuery fn ring) s = execBackendQuery fn ring s := rfl
@[simp] theorem exec_nsCreate (fn : Nat) (ring : Nat) (s : State) : exec (.nsCreate fn ring) s = execNsCreate fn ring s := rfl
@[simp] theorem exec_nsDelete (fn : Nat) (ring : Nat) (s : State) : exec (.nsDelete fn ring) s = execNsDelete fn ring s := rfl
@[simp] theorem exec_nsAttach (fn : Nat) (ring : Nat) (s : State) : exec (.nsAttach fn ring) s = execNsAttach fn ring s := rfl
@[simp] theorem exec_nsDetach (fn : Nat) (ring : Nat) (s : State) : exec (.nsDetach fn ring) s = execNsDetach fn ring s := rfl
@[simp] theorem exec_stoSetCommit (s : State) : exec .stoSetCommit s = execStoSetCommit s := rfl
@[simp] theorem exec_stoSetUnlock (s : State) : exec .stoSetUnlock s = execStoSetUnlock s := rfl
@[simp] theorem exec_flr (fn : Nat) (reads : Bool) (s : State) : exec (.flr fn reads) s = execFlr fn reads s := rfl
@[simp] theorem exec_hotReset (ep : Nat) (reads : List Nat) (s : State) : exec (.hotReset ep reads) s = execHotReset ep reads s := rfl
@[simp] theorem exec_busMasterClear (fn : Nat) (reads : Bool) (s : State) : exec (.busMasterClear fn reads) s = execBusMasterClear fn reads s := rfl
@[simp] theorem exec_d3hotEntry (fn : Nat) (reads : Bool) (s : State) : exec (.d3hotEntry fn reads) s = execD3hotEntry fn reads s := rfl
@[simp] theorem exec_vfEnableSet (pf : Nat) (num : Nat) (s : State) : exec (.vfEnableSet pf num) s = execVfEnableSet pf num s := rfl
@[simp] theorem exec_vfEnableClear (pf : Nat) (reads : List Nat) (s : State) : exec (.vfEnableClear pf reads) s = execVfEnableClear pf reads s := rfl
@[simp] theorem exec_functionDrained (fn : Nat) (s : State) : exec (.functionDrained fn) s = execFunctionDrained fn s := rfl
@[simp] theorem exec_drainBoundExpiry (fn : Nat) (s : State) : exec (.drainBoundExpiry fn) s = execDrainBoundExpiry fn s := rfl
@[simp] theorem exec_orphanHoldExpiry (fn : Nat) (s : State) : exec (.orphanHoldExpiry fn) s = execOrphanHoldExpiry fn s := rfl
@[simp] theorem exec_hostReadTimeout (fn : Nat) (dir : Bool) (s : State) : exec (.hostReadTimeout fn dir) s = execHostReadTimeout fn dir s := rfl
@[simp] theorem exec_poisonedTlp (fn : Nat) (read dir : Bool) (s : State) : exec (.poisonedTlp fn read dir) s = execPoisonedTlp fn read dir s := rfl
@[simp] theorem exec_unexpectedCompletion (fn : Nat) (s : State) : exec (.unexpectedCompletion fn) s = execUnexpectedCompletion fn s := rfl
@[simp] theorem exec_aspmL1Entry (ep : Nat) (s : State) : exec (.aspmL1Entry ep) s = execAspmL1Entry ep s := rfl
@[simp] theorem exec_vfFreeze (fn ring : Nat) (s : State) : exec (.vfFreeze fn ring) s = execVfFreeze fn ring s := rfl
@[simp] theorem exec_vfSave (fn ring : Nat) (s : State) : exec (.vfSave fn ring) s = execVfSave fn ring s := rfl
@[simp] theorem exec_vfRestore (fn ring : Nat) (blob map : HRead) (s : State) : exec (.vfRestore fn ring blob map) s = execVfRestore fn ring blob map s := rfl
@[simp] theorem exec_vfThaw (fn ring : Nat) (s : State) : exec (.vfThaw fn ring) s = execVfThaw fn ring s := rfl
@[simp] theorem exec_dirtyLog (fn ring : Nat) (s : State) : exec (.dirtyLog fn ring) s = execDirtyLog fn ring s := rfl
@[simp] theorem exec_groupRetire (fn ring : Nat) (s : State) : exec (.groupRetire fn ring) s = execGroupRetire fn ring s := rfl
@[simp] theorem exec_frameCopyComplete (stack : Nat) (lines : List Nat) (s : State) : exec (.frameCopyComplete stack lines) s = execFrameCopyComplete stack lines s := rfl
@[simp] theorem exec_lostListRead (fn ring : Nat) (s : State) : exec (.lostListRead fn ring) s = execLostListRead fn ring s := rfl
@[simp] theorem exec_scrub (stack : Nat) (line : Nat) (found : Codeword) (s : State) : exec (.scrub stack line found) s = execScrub stack line found s := rfl
@[simp] theorem exec_channelTrainingLoss (stack : Nat) (chan : Nat) (s : State) : exec (.channelTrainingLoss stack chan) s = execChannelTrainingLoss stack chan s := rfl
@[simp] theorem exec_channelRetrainComplete (stack : Nat) (chan : Nat) (trained : Bool) (s : State) : exec (.channelRetrainComplete stack chan trained) s = execChannelRetrainComplete stack chan trained s := rfl
@[simp] theorem exec_memCapWindow (stack : Nat) (s : State) : exec (.memCapWindow stack) s = execMemCapWindow stack s := rfl
@[simp] theorem exec_powerGood (s : State) : exec .powerGood s = execPowerGood s := rfl
@[simp] theorem exec_powerLoss (s : State) : exec .powerLoss s = execPowerLoss s := rfl
@[simp] theorem exec_inputUndervoltage (mv : Nat) (s : State) : exec (.inputUndervoltage mv) s = execInputUndervoltage mv s := rfl
@[simp] theorem exec_inputOvervoltage (mv : Nat) (s : State) : exec (.inputOvervoltage mv) s = execInputOvervoltage mv s := rfl
@[simp] theorem exec_inputReturn (mv : Nat) (s : State) : exec (.inputReturn mv) s = execInputReturn mv s := rfl
@[simp] theorem exec_busOvercurrent (status : BitVec 16) (s : State) : exec (.busOvercurrent status) s = execBusOvercurrent status s := rfl
@[simp] theorem exec_railFault (rail : Nat) (status : BitVec 16) (s : State) : exec (.railFault rail status) s = execRailFault rail status s := rfl
@[simp] theorem exec_sensorFault (kind which : Nat) (s : State) : exec (.sensorFault kind which) s = execSensorFault kind which s := rfl
@[simp] theorem exec_busRecovery (ok : Bool) (s : State) : exec (.busRecovery ok) s = execBusRecovery ok s := rfl
@[simp] theorem exec_regulatorAck (rail : Nat) (s : State) : exec (.regulatorAck rail) s = execRegulatorAck rail s := rfl
@[simp] theorem exec_regulatorAckTimeout (rail : Nat) (s : State) : exec (.regulatorAckTimeout rail) s = execRegulatorAckTimeout rail s := rfl
@[simp] theorem exec_railsSettled (s : State) : exec .railsSettled s = execRailsSettled s := rfl
@[simp] theorem exec_voltageRetry (s : State) : exec .voltageRetry s = execVoltageRetry s := rfl
@[simp] theorem exec_envelopeExceeded (watts : Nat) (s : State) : exec (.envelopeExceeded watts) s = execEnvelopeExceeded watts s := rfl
@[simp] theorem exec_envelopeRaise (watts : Nat) (s : State) : exec (.envelopeRaise watts) s = execEnvelopeRaise watts s := rfl
@[simp] theorem exec_thermalNearLimit (domain temp : Nat) (s : State) : exec (.thermalNearLimit domain temp) s = execThermalNearLimit domain temp s := rfl
@[simp] theorem exec_thermalRaise (s : State) : exec .thermalRaise s = execThermalRaise s := rfl
@[simp] theorem exec_thermalLimit (domain temp : Nat) (s : State) : exec (.thermalLimit domain temp) s = execThermalLimit domain temp s := rfl
@[simp] theorem exec_thermalTrip (domain : Nat) (s : State) : exec (.thermalTrip domain) s = execThermalTrip domain s := rfl
@[simp] theorem exec_thermalCooled (domain : Nat) (s : State) : exec (.thermalCooled domain) s = execThermalCooled domain s := rfl
@[simp] theorem exec_unitShutter (fn ring : Nat) (s : State) : exec (.unitShutter fn ring) s = execUnitShutter fn ring s := rfl
@[simp] theorem exec_shutterDrainComplete (domain : Nat) (s : State) : exec (.shutterDrainComplete domain) s = execShutterDrainComplete domain s := rfl
@[simp] theorem exec_ctlHandoffTimeout (domain : Nat) (s : State) : exec (.ctlHandoffTimeout domain) s = execCtlHandoffTimeout domain s := rfl
@[simp] theorem exec_unitReopen (fn ring temp : Nat) (s : State) : exec (.unitReopen fn ring temp) s = execUnitReopen fn ring temp s := rfl
@[simp] theorem exec_selfTestComplete (domain failed : Nat) (s : State) : exec (.selfTestComplete domain failed) s = execSelfTestComplete domain failed s := rfl
@[simp] theorem exec_domainTransitionComplete (domain : Nat) (s : State) : exec (.domainTransitionComplete domain) s = execDomainTransitionComplete domain s := rfl
@[simp] theorem exec_cdcOverrun (bit fn ring seq : Nat) (s : State) : exec (.cdcOverrun bit fn ring seq) s = execCdcOverrun bit fn ring seq s := rfl
@[simp] theorem exec_stageReached (failed : List Nat) (die : Bool) (s : State) : exec (.stageReached failed die) s = execStageReached failed die s := rfl
@[simp] theorem exec_mgmtConnect (s : State) : exec .mgmtConnect s = execMgmtConnect s := rfl
@[simp] theorem exec_mgmtOpen (session : Nat) (msg pub : List (BitVec 8)) (s : State) : exec (.mgmtOpen session msg pub) s = execMgmtOpen session msg pub s := rfl
@[simp] theorem exec_mgmtIdleTimeout (session : Nat) (s : State) : exec (.mgmtIdleTimeout session) s = execMgmtIdleTimeout session s := rfl
@[simp] theorem exec_mgmtClose (session : Nat) (s : State) : exec (.mgmtClose session) s = execMgmtClose session s := rfl
@[simp] theorem exec_flashFault (device : Nat) (s : State) : exec (.flashFault device) s = execFlashFault device s := rfl
@[simp] theorem exec_cvWindowEnd (unit : Nat) (s : State) : exec (.cvWindowEnd unit) s = execCvWindowEnd unit s := rfl
@[simp] theorem exec_cvWindowAbort (unit : Nat) (s : State) : exec (.cvWindowAbort unit) s = execCvWindowAbort unit s := rfl
@[simp] theorem exec_amSample (mon : Nat) (read : HRead) (s : State) : exec (.amSample mon read) s = execAmSample mon read s := rfl
@[simp] theorem exec_wfSample (type : Nat) (sensors : List Nat) (s : State) : exec (.wfSample type sensors) s = execWfSample type sensors s := rfl
@[simp] theorem exec_feedBuffer (fn : Nat) (ring : Nat) (s : State) : exec (.feedBuffer fn ring) s = execFeedBuffer fn ring s := rfl
@[simp] theorem exec_feedFlush (fn : Nat) (ring : Nat) (s : State) : exec (.feedFlush fn ring) s = execFeedFlush fn ring s := rfl
@[simp] theorem exec_feedFlushTimeout (pf : Nat) (s : State) : exec (.feedFlushTimeout pf) s = execFeedFlushTimeout pf s := rfl
@[simp] theorem exec_laserUnitRemove (laser : Nat) (s : State) : exec (.laserUnitRemove laser) s = execLaserUnitRemove laser s := rfl
@[simp] theorem exec_laserUnitInsert (laser : Nat) (s : State) : exec (.laserUnitInsert laser) s = execLaserUnitInsert laser s := rfl
@[simp] theorem exec_ppsPulse (s : State) : exec .ppsPulse s = execPpsPulse s := rfl
@[simp] theorem exec_laneAlignmentLoss (port : Nat) (lane : Nat) (s : State) : exec (.laneAlignmentLoss port lane) s = execLaneAlignmentLoss port lane s := rfl
@[simp] theorem exec_spillReadReturn (handle : Nat) (found : Codeword) (s : State) : exec (.spillReadReturn handle found) s = execSpillReadReturn handle found s := rfl
@[simp] theorem exec_granuleCopyComplete (granule : Nat) (s : State) : exec (.granuleCopyComplete granule) s = execGranuleCopyComplete granule s := rfl
@[simp] theorem exec_takeReadReturn (ep : Nat) (ext : ARead) (s : State) : exec (.takeReadReturn ep ext) s = execTakeReadReturn ep ext s := rfl
@[simp] theorem exec_keeperRomRestartComplete (s : State) : exec .keeperRomRestartComplete s = execKeeperRomRestartComplete s := rfl

end Sys2Proof.Machine
end

