-- ==== Sys2Proof/Laws/InvBase.lean ====
section
/-!
SUPPORT. What every step keeps (StateInv): the lemmas from which the per-function lemmas are put together.
-/
set_option Elab.async false
set_option linter.all false
namespace Sys2Proof.Machine

def InvP {A : Type} (p : State × A) : Prop := StateInv p.1
def InvO (o : Option State) : Prop := ∀ t, o = some t → StateInv t
def InvOP {A : Type} (o : Option (State × A)) : Prop := ∀ t, o = some t → InvP t
def InvC (o : Host.Outcome State Fault Refusal) : Prop := ∀ t, o = .next t → StateInv t
def InvE (o : Except Nat State) : Prop := ∀ t, o = .ok t → StateInv t

theorem inv_ite {c : Prop} [Decidable c] {a b : State} (h1 : c → StateInv a) (h2 : ¬c → StateInv b) : StateInv (if c then a else b) := by
  split <;> simp_all
theorem inv_ite1 {A : Type} {c : Prop} [Decidable c] {a b : State × A} (h1 : c → InvP a) (h2 : ¬c → InvP b) : InvP (if c then a else b) := by
  split <;> simp_all
theorem inv_pair {A : Type} {s : State} {a : A} : InvP (s, a) ↔ StateInv s := Iff.rfl
theorem inv_P {A : Type} {p : State × A} (h : InvP p) : StateInv p.1 := h
theorem inv_fst {A : Type} {p : State × A} {s : State} {a : A} (e : p = (s, a)) (h : InvP p) : StateInv s := by rw [e] at h; exact h
theorem inv_of {o : Option State} {s : State} (e : o = some s) (h : InvO o) : StateInv s := h s e
theorem inv_ofE {o : Except Nat State} {s : State} (e : o = .ok s) (h : InvE o) : StateInv s := h s e
theorem inv_of1 {A : Type} {o : Option (State × A)} {s : State} {a : A} (e : o = some (s, a)) (h : InvOP o) : StateInv s := h (s, a) e
theorem inv_of2 {A : Type} {o : Option (State × A)} {p : State × A} (e : o = some p) (h : InvOP o) : InvP p := h p e
theorem inv_getD {o : Option State} {s : State} (h : InvO o) (h2 : StateInv s) : StateInv (o.getD s) := by
  cases o with
  | none => exact h2
  | some t => exact h t rfl
theorem invO_none : InvO none := fun _ e => by cases e
theorem invO_some {s : State} (h : StateInv s) : InvO (some s) := fun t e => by cases e; exact h
theorem invOP_none {A : Type} : InvOP (none : Option (State × A)) := fun _ e => by cases e
theorem invOP_some {A : Type} {p : State × A} (h : InvP p) : InvOP (some p) := fun t e => by cases e; exact h
theorem invO_map {o : Option State} {f : State → State} (h : InvO o) (hf : ∀ s, StateInv s → StateInv (f s)) : InvO (o.map f) := by
  cases o with
  | none => exact invO_none
  | some t => exact invO_some (hf t (h t rfl))
theorem invO_bind {o : Option State} {f : State → Option State} (h : InvO o) (hf : ∀ s, StateInv s → InvO (f s)) : InvO (o.bind f) := by
  cases o with
  | none => exact invO_none
  | some t => exact hf t (h t rfl)
def InvS (p : PRes) : Prop :=
  match p with
  | .go s _ => StateInv s
  | .jump s _ _ => StateInv s
  | .stay s => StateInv s
  | .exc _ _ => True
def InvR (p : RtRes) : Prop :=
  match p with
  | .done s _ => StateInv s
  | .stop s => StateInv s
  | .wait s => StateInv s
def InvX (x : Rest) : Prop := StateInv x.s
theorem invS_go {s : State} {n : Nat} : InvS (.go s n) ↔ StateInv s := Iff.rfl
theorem invS_jump {s : State} {a n : Nat} : InvS (.jump s a n) ↔ StateInv s := Iff.rfl
theorem invS_stay {s : State} : InvS (.stay s) ↔ StateInv s := Iff.rfl
theorem invS_exc {a b : Nat} : InvS (.exc a b) := trivial
theorem inv_go {p : PRes} {s : State} {n : Nat} (e : p = .go s n) (h : InvS p) : StateInv s := by rw [e] at h; exact h
theorem inv_jump {p : PRes} {s : State} {a n : Nat} (e : p = .jump s a n) (h : InvS p) : StateInv s := by rw [e] at h; exact h
theorem inv_stay {p : PRes} {s : State} (e : p = .stay s) (h : InvS p) : StateInv s := by rw [e] at h; exact h
theorem invS_ite {c : Prop} [Decidable c] {a b : PRes} (h1 : c → InvS a) (h2 : ¬c → InvS b) : InvS (if c then a else b) := by
  split <;> simp_all
theorem invR_done {s : State} {l : List Nat} : InvR (.done s l) ↔ StateInv s := Iff.rfl
theorem invR_stop {s : State} : InvR (.stop s) ↔ StateInv s := Iff.rfl
theorem invR_wait {s : State} : InvR (.wait s) ↔ StateInv s := Iff.rfl
theorem inv_done {p : RtRes} {s : State} {l : List Nat} (e : p = .done s l) (h : InvR p) : StateInv s := by rw [e] at h; exact h
theorem inv_wait {p : RtRes} {s : State} (e : p = .wait s) (h : InvR p) : StateInv s := by rw [e] at h; exact h
theorem inv_stop {p : RtRes} {s : State} (e : p = .stop s) (h : InvR p) : StateInv s := by rw [e] at h; exact h
theorem invR_ite {c : Prop} [Decidable c] {a b : RtRes} (h1 : c → InvR a) (h2 : ¬c → InvR b) : InvR (if c then a else b) := by
  split <;> simp_all
theorem invX_ite {c : Prop} [Decidable c] {a b : Rest} (h1 : c → InvX a) (h2 : ¬c → InvX b) : InvX (if c then a else b) := by
  split <;> simp_all
theorem invX_s {x : Rest} (h : InvX x) : StateInv x.s := h
theorem invX_foldl {A : Type} {f : Rest → A → Rest} {l : List A} {s : Rest} (hf : ∀ s a, InvX s → InvX (f s a)) (h : InvX s) : InvX (l.foldl f s) := by
  induction l generalizing s with
  | nil => exact h
  | cons a l ih => exact ih (hf s a h)
def InvQ {A B : Type} (p : (State × A) × B) : Prop := InvP p.1
theorem invQ_pair {A B : Type} {p : State × A} {b : B} : InvQ (p, b) ↔ InvP p := Iff.rfl
theorem inv_Q {A B : Type} {p : (State × A) × B} (h : InvQ p) : InvP p.1 := h
theorem inv_ofQ {A B : Type} {p : (State × A) × B} {q : State × A} {b : B} (e : p = (q, b)) (h : InvQ p) : InvP q := by rw [e] at h; exact h
theorem invQ_ite {A B : Type} {c : Prop} [Decidable c] {a b : (State × A) × B} (h1 : c → InvQ a) (h2 : ¬c → InvQ b) : InvQ (if c then a else b) := by
  split <;> simp_all
theorem invX_mk {s : State} {a : List BRead} {b c d e : Nat} {f : List Byte} {g : Nat} {h : NMap Nat} : InvX ⟨s, a, b, c, d, e, f, g, h⟩ ↔ StateInv s := Iff.rfl
def InvXP {A : Type} (p : Rest × A) : Prop := InvX p.1
theorem invXP_pair {A : Type} {p : Rest} {b : A} : InvXP (p, b) ↔ InvX p := Iff.rfl
theorem inv_XP {A : Type} {p : Rest × A} (h : InvXP p) : InvX p.1 := h
theorem invXP_ite {A : Type} {c : Prop} [Decidable c] {a b : Rest × A} (h1 : c → InvXP a) (h2 : ¬c → InvXP b) : InvXP (if c then a else b) := by
  split <;> simp_all
theorem invXP_foldl {A B : Type} {f : Rest × B → A → Rest × B} {l : List A} {s : Rest × B} (hf : ∀ s a, InvXP s → InvXP (f s a)) (h : InvXP s) : InvXP (l.foldl f s) := by
  induction l generalizing s with
  | nil => exact h
  | cons a l ih => exact ih (hf s a h)
theorem fld_mod42 (v b : Nat) (h : b ∈ [0, 7, 14, 21, 28, 35]) : fld (v % 2 ^ 42) b 7 = fld v b 7 := by
  simp only [List.mem_cons, List.not_mem_nil, or_false] at h
  unfold fld
  rcases h with rfl | rfl | rfl | rfl | rfl | rfl <;> omega
theorem capOk_mod (v : Nat) : capOk (v % 2 ^ 42) = capOk v := by
  simp only [capOk, List.all_cons, List.all_nil, fld_mod42 v _ (show (0 : Nat) ∈ [0, 7, 14, 21, 28, 35] by decide),
    fld_mod42 v _ (show (7 : Nat) ∈ [0, 7, 14, 21, 28, 35] by decide), fld_mod42 v _ (show (14 : Nat) ∈ [0, 7, 14, 21, 28, 35] by decide),
    fld_mod42 v _ (show (21 : Nat) ∈ [0, 7, 14, 21, 28, 35] by decide), fld_mod42 v _ (show (28 : Nat) ∈ [0, 7, 14, 21, 28, 35] by decide),
    fld_mod42 v _ (show (35 : Nat) ∈ [0, 7, 14, 21, 28, 35] by decide)]
theorem invOP_map {A B : Type} {o : Option (State × A)} {f : State × A → State × B} (h : InvOP o) (hf : ∀ p, InvP p → InvP (f p)) : InvOP (o.map f) := by
  cases o with
  | none => exact invOP_none
  | some t => exact invOP_some (hf t (h t rfl))
theorem invC_next {s : State} (h : StateInv s) : InvC (.next s) := fun t e => by cases e; exact h
theorem invC_fault {f : Fault} : InvC (.fault f) := fun t e => by cases e
theorem inv_ofC {o : Host.Outcome State Fault Refusal} {s : State} (e : o = .next s) (h : InvC o) : StateInv s := h s e
theorem invE_ok {s : State} (h : StateInv s) : InvE (.ok s) := fun t e => by cases e; exact h
theorem invE_error {n : Nat} : InvE (.error n) := fun t e => by cases e
theorem invO_ite {c : Prop} [Decidable c] {a b : Option State} (h1 : c → InvO a) (h2 : ¬c → InvO b) : InvO (if c then a else b) := by
  split <;> simp_all
theorem invOP_ite {A : Type} {c : Prop} [Decidable c] {a b : Option (State × A)} (h1 : c → InvOP a) (h2 : ¬c → InvOP b) : InvOP (if c then a else b) := by
  split <;> simp_all
theorem invC_ite {c : Prop} [Decidable c] {a b : Host.Outcome State Fault Refusal} (h1 : c → InvC a) (h2 : ¬c → InvC b) : InvC (if c then a else b) := by
  split <;> simp_all
theorem inv_foldl {A : Type} {f : State → A → State} {l : List A} {s : State} (hf : ∀ s a, StateInv s → StateInv (f s a)) (h : StateInv s) : StateInv (l.foldl f s) := by
  induction l generalizing s with
  | nil => exact h
  | cons a l ih => exact ih (hf s a h)
theorem inv_foldl1 {A B : Type} {f : State × B → A → State × B} {l : List A} {p : State × B}
    (hf : ∀ p a, InvP p → InvP (f p a)) (h : InvP p) : InvP (l.foldl f p) := by
  induction l generalizing p with
  | nil => exact h
  | cons a l ih => exact ih (hf p a h)
theorem mset_wfFrom {V : Type} [DecidableEq V] (d : V) (k : Nat) (v : V) : ∀ (m : NMap V) (lo : Nat), lo ≤ k → mwfFrom lo d m = true → mwfFrom lo d (mset m k v d) = true
  | [], lo, hl, h => by
    unfold mset; split
    · exact h
    · simp_all [mwfFrom]
  | (k', v') :: r, lo, hl, h => by
    simp only [mwfFrom, Bool.and_eq_true, decide_eq_true_eq] at h
    have hr : ∀ (m : NMap V) (a b : Nat), b ≤ a → mwfFrom a d m = true → mwfFrom b d m = true := by
      intro m a b hab hm
      cases m with
      | nil => rfl
      | cons x y => simp only [mwfFrom, Bool.and_eq_true, decide_eq_true_eq] at *; exact ⟨⟨by omega, hm.1.2⟩, hm.2⟩
    unfold mset; split
    · split
      · simp [mwfFrom, h]
      · rename_i a b; simp [mwfFrom, h, hl, b]; omega
    · split
      · split
        · exact hr _ _ _ (by omega) h.2
        · rename_i a b c; subst b; simp [mwfFrom, h, c]
      · rename_i a b
        simp only [mwfFrom, Bool.and_eq_true, decide_eq_true_eq]
        exact ⟨h.1, mset_wfFrom d k v r _ (by omega) h.2⟩

/-- Setting one entry keeps the canonical form. -/
theorem mset_wf {m : NMap Byte} (k : Nat) (v : Byte) (h : memWf m = true) : memWf (mset m k v 0#8) = true :=
  mset_wfFrom 0#8 k v m 0 (Nat.zero_le _) h

theorem filter_wfFrom {V : Type} [DecidableEq V] (d : V) (p : Nat × V → Bool) : ∀ (m : NMap V) (lo : Nat), mwfFrom lo d m = true → mwfFrom lo d (m.filter p) = true
  | [], _, h => h
  | (k, v) :: r, lo, h => by
    simp only [mwfFrom, Bool.and_eq_true, decide_eq_true_eq] at h
    have hr : ∀ (m : NMap V) (a b : Nat), b ≤ a → mwfFrom a d m = true → mwfFrom b d m = true := by
      intro m a b hab hm
      cases m with
      | nil => rfl
      | cons x y => simp only [mwfFrom, Bool.and_eq_true, decide_eq_true_eq] at *; exact ⟨⟨by omega, hm.1.2⟩, hm.2⟩
    have ih := filter_wfFrom d p r _ h.2
    cases hp : p (k, v)
    · rw [List.filter_cons_of_neg (by simp [hp])]; exact hr _ _ _ (by omega) ih
    · rw [List.filter_cons_of_pos hp]; simp only [mwfFrom, Bool.and_eq_true, decide_eq_true_eq]; exact ⟨h.1, ih⟩

/-- Losing entries keeps the canonical form. -/
theorem filter_wf {m : NMap Byte} (p : Nat × Byte → Bool) (h : memWf m = true) : memWf (m.filter p) = true := filter_wfFrom 0#8 p m 0 h

theorem inv_mk {s : State} {a0 : NMap Fn} {a1 : NMap HostLink} {a2 : Transom} {a3 : RegStore} {a6 : NMap APort} {a7 : Fabric} {a8 : Reduce} {a9 : NMap Core} {a10 : Firmware} {a11 : Kv} {a12 : Rdma} {a13 : Cls} {a14 : Net} {a15 : Seal} {a16 : Sto} {a17 : NMap Ckpt} {a18 : NMap Stk} {a20 : Nat} {a21 : NMap Dom} {a22 : Power} {a23 : Trust} {a24 : Weather} {a25 : Nat} {a26 : Nat} {a27 : List Output} {a28 : List Instr} :
    StateInv (State.mk a0 a1 a2 a3 s.clock s.stack a6 a7 a8 a9 a10 a11 a12 a13 a14 a15 a16 a17 a18 s.memCap a20 a21 a22 a23 a24 a25 a26 a27 a28) ↔ StateInv s := Iff.rfl
theorem inv_clock {s : State} {a0 : NMap Fn} {a1 : NMap HostLink} {a2 : Transom} {a3 : RegStore} {a6 : NMap APort} {a7 : Fabric} {a8 : Reduce} {a9 : NMap Core} {a10 : Firmware} {a11 : Kv} {a12 : Rdma} {a13 : Cls} {a14 : Net} {a15 : Seal} {a16 : Sto} {a17 : NMap Ckpt} {a18 : NMap Stk} {a20 : Nat} {a21 : NMap Dom} {a22 : Power} {a23 : Trust} {a24 : Weather} {a25 : Nat} {a26 : Nat} {a27 : List Output} {a28 : List Instr} {c : Clock} (h : StateInv s) (hc : -(10 ^ 8) ≤ c.freq ∧ c.freq ≤ 10 ^ 8) :
    StateInv (State.mk a0 a1 a2 a3 c s.stack a6 a7 a8 a9 a10 a11 a12 a13 a14 a15 a16 a17 a18 s.memCap a20 a21 a22 a23 a24 a25 a26 a27 a28) := ⟨h.1, hc.1, hc.2, h.2.2.2⟩
theorem inv_stack {s : State} {a0 : NMap Fn} {a1 : NMap HostLink} {a2 : Transom} {a3 : RegStore} {a6 : NMap APort} {a7 : Fabric} {a8 : Reduce} {a9 : NMap Core} {a10 : Firmware} {a11 : Kv} {a12 : Rdma} {a13 : Cls} {a14 : Net} {a15 : Seal} {a16 : Sto} {a17 : NMap Ckpt} {a18 : NMap Stk} {a20 : Nat} {a21 : NMap Dom} {a22 : Power} {a23 : Trust} {a24 : Weather} {a25 : Nat} {a26 : Nat} {a27 : List Output} {a28 : List Instr} {c : NMap Byte} (h : StateInv s) (hc : memWf c = true) :
    StateInv (State.mk a0 a1 a2 a3 s.clock c a6 a7 a8 a9 a10 a11 a12 a13 a14 a15 a16 a17 a18 s.memCap a20 a21 a22 a23 a24 a25 a26 a27 a28) := ⟨hc, h.2⟩
theorem inv_nil {s : State} {a0 : NMap Fn} {a1 : NMap HostLink} {a2 : Transom} {a3 : RegStore} {a6 : NMap APort} {a7 : Fabric} {a8 : Reduce} {a9 : NMap Core} {a10 : Firmware} {a11 : Kv} {a12 : Rdma} {a13 : Cls} {a14 : Net} {a15 : Seal} {a16 : Sto} {a17 : NMap Ckpt} {a18 : NMap Stk} {a20 : Nat} {a21 : NMap Dom} {a22 : Power} {a23 : Trust} {a24 : Weather} {a25 : Nat} {a26 : Nat} {a27 : List Output} {a28 : List Instr} (h : StateInv s) : StateInv (State.mk a0 a1 a2 a3 s.clock [] a6 a7 a8 a9 a10 a11 a12 a13 a14 a15 a16 a17 a18 s.memCap a20 a21 a22 a23 a24 a25 a26 a27 a28) := ⟨rfl, h.2⟩
theorem inv_cap {s : State} {a0 : NMap Fn} {a1 : NMap HostLink} {a2 : Transom} {a3 : RegStore} {a6 : NMap APort} {a7 : Fabric} {a8 : Reduce} {a9 : NMap Core} {a10 : Firmware} {a11 : Kv} {a12 : Rdma} {a13 : Cls} {a14 : Net} {a15 : Seal} {a16 : Sto} {a17 : NMap Ckpt} {a18 : NMap Stk} {a20 : Nat} {a21 : NMap Dom} {a22 : Power} {a23 : Trust} {a24 : Weather} {a25 : Nat} {a26 : Nat} {a27 : List Output} {a28 : List Instr} {c : Nat} (h : StateInv s) (hc : capOk c = true ∧ c < 2 ^ 42) :
    StateInv (State.mk a0 a1 a2 a3 s.clock s.stack a6 a7 a8 a9 a10 a11 a12 a13 a14 a15 a16 a17 a18 c a20 a21 a22 a23 a24 a25 a26 a27 a28) := ⟨h.1, h.2.1, h.2.2.1, hc.1, hc.2⟩

end Sys2Proof.Machine
end

