-- ==== Sys2Proof/Laws/InvOps.lean ====
section
/-!
SUPPORT. What every step keeps, function by function: the shared operations, the audit log, the feed and stack memory.
-/
set_option Elab.async false
set_option linter.all false
namespace Sys2Proof.Machine

theorem State.modFn_inv (s : State) (r : Nat) (f : Fn → Fn) (h1 : StateInv s) :
    StateInv (State.modFn s r f) := by
  unfold State.modFn; try dsimp only
  repeat' first | (with_reducible first | assumption) | simp only [↓inv_mk] | dsimp +zetaDelta only | split

theorem State.modRing_inv (s : State) (r i : Nat) (g : Ring → Ring) (h1 : StateInv s) :
    StateInv (State.modRing s r i g) := by
  unfold State.modRing; try dsimp only
  repeat' first | (with_reducible first | assumption | apply State.modFn_inv) | simp only [↓inv_mk] | with_reducible intro _ | dsimp +zetaDelta only | split

theorem State.modCore_inv (s : State) (c : Nat) (g : Core → Core) (h1 : StateInv s) :
    StateInv (State.modCore s c g) := by
  unfold State.modCore; try dsimp only
  repeat' first | (with_reducible first | assumption) | simp only [↓inv_mk] | dsimp +zetaDelta only | split

theorem emit_inv (s : State) (o : Output) (h1 : StateInv s) :
    StateInv (emit s o) := by
  unfold emit; try dsimp only
  repeat' first | (with_reducible first | assumption) | simp only [↓inv_mk] | dsimp +zetaDelta only | split

theorem tickFree_inv (s : State) (h1 : StateInv s) :
    StateInv (tickFree s) := by
  unfold tickFree; try dsimp only
  repeat' first | (with_reducible first | assumption) | simp only [↓inv_mk] | dsimp +zetaDelta only | split

theorem advanceTo_inv (s : State) (t : Nat) (h1 : StateInv s) :
    StateInv (advanceTo s t) := by
  unfold advanceTo; try dsimp only
  repeat' first | (with_reducible first | assumption) | simp only [↓inv_mk] | dsimp +zetaDelta only | split

theorem advanceToPtp_inv (s : State) (ns : Nat) (h1 : StateInv s) :
    StateInv (advanceToPtp s ns) := by
  unfold advanceToPtp
  repeat' first | (with_reducible first | assumption | apply advanceTo_inv)

theorem dma_inv (s : State) (r addr n : Nat) (o : Output) (h1 : StateInv s) :
    StateInv (dma s r addr n o) := by
  unfold dma; try dsimp only
  repeat' first | (with_reducible first | assumption | apply inv_ite | apply emit_inv | apply State.modFn_inv) | simp only [↓inv_mk] | with_reducible intro _ | dsimp +zetaDelta only | split

theorem hostWrite_inv (s : State) (r addr : Nat) (bs : List Byte) (h1 : StateInv s) :
    StateInv (hostWrite s r addr bs) := by
  unfold hostWrite
  repeat' first | (with_reducible first | assumption | apply dma_inv)

theorem raiseVec_inv (s : State) (r v : Nat) (h1 : StateInv s) :
    StateInv (raiseVec s r v) := by
  unfold raiseVec; try dsimp only
  repeat' first | (with_reducible first | assumption | apply inv_ite | apply emit_inv | apply State.modFn_inv) | simp only [↓inv_mk] | with_reducible intro _ | dsimp +zetaDelta only | split

theorem writeEvent_inv (s : State) (r code src status result spec : Nat) (h1 : StateInv s) :
    StateInv (writeEvent s r code src status result spec) := by
  unfold writeEvent; try dsimp only
  repeat' first | (with_reducible first | assumption | apply dma_inv | apply State.modFn_inv | apply raiseVec_inv) | simp only [↓inv_mk] | with_reducible intro _ | dsimp +zetaDelta only | split

theorem postEventS_inv (s : State) (r code src status result spec : Nat) (h1 : StateInv s) :
    StateInv (postEventS s r code src status result spec) := by
  unfold postEventS; try dsimp only
  repeat' first | (with_reducible first | assumption | apply inv_ite | apply State.modFn_inv | apply writeEvent_inv) | simp only [↓inv_mk] | with_reducible intro _ | dsimp +zetaDelta only | split

theorem postEvent_inv (s : State) (r code src result : Nat) (h1 : StateInv s) :
    StateInv (postEvent s r code src result) := by
  unfold postEvent
  repeat' first | (with_reducible first | assumption | apply postEventS_inv)

theorem postAll_inv (s : State) (rs : List Nat) (code src result : Nat) (h1 : StateInv s) :
    StateInv (postAll s rs code src result) := by
  unfold postAll; try dsimp only
  repeat' first | (with_reducible first | assumption | apply inv_foldl | apply postEvent_inv) | with_reducible intro _ | dsimp +zetaDelta only | split

theorem flushLost_inv (s : State) (r : Nat) (h1 : StateInv s) :
    StateInv (flushLost s r) := by
  unfold flushLost; try dsimp only
  repeat' first | (with_reducible first | assumption | apply inv_ite | apply State.modFn_inv | apply writeEvent_inv) | simp only [↓inv_mk] | with_reducible intro _ | dsimp +zetaDelta only | split

theorem cqInterrupt_inv (s : State) (r i : Nat) (h1 : StateInv s) :
    StateInv (cqInterrupt s r i) := by
  unfold cqInterrupt; try dsimp only
  repeat' first | (with_reducible first | assumption | apply inv_ite | apply State.modRing_inv | apply raiseVec_inv) | simp only [↓inv_mk] | with_reducible intro _ | dsimp +zetaDelta only | split

theorem writeCqe_inv (s : State) (r i : Nat) (c : Cpl) (h1 : StateInv s) :
    StateInv (writeCqe s r i c) := by
  unfold writeCqe; try dsimp only
  repeat' first | (with_reducible first | assumption | apply inv_ite | apply cqInterrupt_inv | apply cqIrq_inv | apply dma_inv | apply State.modRing_inv) | simp only [↓inv_mk] | with_reducible intro _ | dsimp +zetaDelta only | split

theorem settleRing_inv (s : State) (r i : Nat) (h1 : StateInv s) :
    StateInv (settleRing s r i) := by
  unfold settleRing; try dsimp only
  repeat' first | (with_reducible first | assumption | apply inv_ite | apply State.modRing_inv) | simp only [↓inv_mk] | with_reducible intro _ | dsimp +zetaDelta only | split

theorem deliver_inv (s : State) (r i : Nat) (c : Cpl) (h1 : StateInv s) :
    StateInv (deliver s r i c) := by
  unfold deliver; try dsimp only
  repeat' first | (with_reducible first | assumption | apply inv_ite | apply State.modRing_inv | apply writeCqe_inv) | simp only [↓inv_mk] | with_reducible intro _ | dsimp +zetaDelta only | split

theorem drainWaiting_inv (z0 : Nat) (z1 : State) (z2 z3 : Nat) (h1 : StateInv z1) :
    StateInv (drainWaiting z0 z1 z2 z3) := by
  fun_induction drainWaiting z0 z1 z2 z3 <;> try dsimp +zetaDelta only
  all_goals repeat' first | (with_reducible first | assumption | apply inv_ite | apply State.modRing_inv | apply writeCqe_inv) | simp only [↓inv_mk] | with_reducible apply_assumption -exfalso | with_reducible intro _ | dsimp +zetaDelta only | split

theorem releaseReady_inv (s : State) (r i : Nat) (ordered : Bool) (h1 : StateInv s) :
    StateInv (releaseReady s r i ordered) := by
  unfold releaseReady; try dsimp only
  repeat' first | (with_reducible first | assumption | apply inv_foldl | apply deliver_inv | apply State.modRing_inv | apply settleRing_inv) | simp only [↓inv_mk] | with_reducible intro _ | dsimp +zetaDelta only | split

theorem finishOne_inv (s : State) (ref : DRef) (status result spec : Nat) (h1 : StateInv s) :
    StateInv (finishOne s ref status result spec) := by
  unfold finishOne; try dsimp only
  repeat' first | (with_reducible first | assumption | apply inv_ite | apply State.modRing_inv | apply releaseReady_inv) | simp only [↓inv_mk] | with_reducible intro _ | dsimp +zetaDelta only | split

theorem checkFreeze_inv (s : State) (r : Nat) (h1 : StateInv s) :
    StateInv (checkFreeze s r) := by
  unfold checkFreeze; try dsimp only
  repeat' first | (with_reducible first | assumption | apply inv_ite | apply finishOne_inv | apply State.modFn_inv) | simp only [↓inv_mk] | with_reducible intro _ | dsimp +zetaDelta only | split

theorem finish_inv (s : State) (ref : DRef) (status result spec : Nat) (h1 : StateInv s) :
    StateInv (finish s ref status result spec) := by
  unfold finish
  repeat' first | (with_reducible first | assumption | apply checkFreeze_inv | apply finishOne_inv)

theorem unorder_inv (s : State) (ref : DRef) (h1 : StateInv s) :
    StateInv (unorder s ref) := by
  unfold unorder; try dsimp only
  repeat' first | (with_reducible first | assumption | apply inv_ite | apply State.modRing_inv) | simp only [↓inv_mk] | with_reducible intro _ | dsimp +zetaDelta only | split

theorem ok0_inv (s : State) (h1 : StateInv s) :
    InvP (ok0 s) := by
  unfold ok0
  repeat' first | (with_reducible first | assumption) | simp only [↓inv_pair] | (with_reducible first | apply inv_P | (apply inv_fst; assumption)) | dsimp +zetaDelta only | split

theorem okR_inv (s : State) (result : Nat) (h1 : StateInv s) :
    InvP (okR s result) := by
  unfold okR
  repeat' first | (with_reducible first | assumption) | simp only [↓inv_pair] | (with_reducible first | apply inv_P | (apply inv_fst; assumption)) | dsimp +zetaDelta only | split

theorem bad_inv (s : State) (status : Nat) (h1 : StateInv s) :
    InvP (bad s status) := by
  unfold bad
  repeat' first | (with_reducible first | assumption) | simp only [↓inv_pair] | (with_reducible first | apply inv_P | (apply inv_fst; assumption)) | dsimp +zetaDelta only | split

theorem badR_inv (s : State) (status result : Nat) (h1 : StateInv s) :
    InvP (badR s status result) := by
  unfold badR
  repeat' first | (with_reducible first | assumption) | simp only [↓inv_pair] | (with_reducible first | apply inv_P | (apply inv_fst; assumption)) | dsimp +zetaDelta only | split

theorem later_inv (s : State) (h1 : StateInv s) :
    InvP (later s) := by
  unfold later
  repeat' first | (with_reducible first | assumption) | simp only [↓inv_pair] | (with_reducible first | apply inv_P | (apply inv_fst; assumption)) | dsimp +zetaDelta only | split

theorem onDesc_inv (s : State) (r i kind op : Nat) (eff : Nat → DRef → State → CmdRes) (h1 : StateInv s) (h2 : ∀ (y0 : Nat) (y1 : DRef) (y2 : State), StateInv y2 → InvP (eff y0 y1 y2)) :
    StateInv (onDesc s r i kind op eff) := by
  unfold onDesc; try dsimp only
  repeat' first | (with_reducible first | assumption | apply inv_ite | apply inv_ite1 | apply h2 | apply finish_inv | apply State.modRing_inv) | simp only [↓inv_mk] | simp only [↓inv_pair] | (with_reducible first | apply inv_P | (apply inv_fst; assumption)) | with_reducible intro _ | dsimp +zetaDelta only | split

theorem onFetched_inv (s : State) (r i kind op : Nat) (eff : Nat → DRef → State → CmdRes) (h1 : StateInv s) (h2 : ∀ (y0 : Nat) (y1 : DRef) (y2 : State), StateInv y2 → InvP (eff y0 y1 y2)) :
    StateInv (onFetched s r i kind op eff) := by
  unfold onFetched; try dsimp only
  repeat' first | (with_reducible first | assumption | apply inv_ite | apply inv_ite1 | apply h2 | apply finish_inv | apply State.modRing_inv) | simp only [↓inv_mk] | simp only [↓inv_pair] | (with_reducible first | apply inv_P | (apply inv_fst; assumption)) | with_reducible intro _ | dsimp +zetaDelta only | split

theorem waitBehind_inv (r : Nat) (i : Instr) (s : State) (h1 : StateInv s) :
    StateInv (waitBehind r i s) := by
  unfold waitBehind; try dsimp only
  repeat' first | (with_reducible first | assumption) | simp only [↓inv_mk] | dsimp +zetaDelta only | split

theorem gated_inv (r : Nat) (i : Instr) (act : State → State) (s : State) (h1 : ∀ (y0 : State), StateInv y0 → StateInv (act y0)) (h2 : StateInv s) :
    StateInv (gated r i act s) := by
  unfold gated
  repeat' first | (with_reducible first | assumption | apply inv_ite | apply h1 | apply waitBehind_inv) | with_reducible intro _

theorem gatedShared_inv (r : Nat) (i : Instr) (act : State → State) (s : State) (h1 : ∀ (y0 : State), StateInv y0 → StateInv (act y0)) (h2 : StateInv s) :
    StateInv (gatedShared r i act s) := by
  unfold gatedShared
  repeat' first | (with_reducible first | assumption | apply inv_ite | apply h1 | apply waitBehind_inv) | with_reducible intro _

theorem joinSet_inv (cap action : Nat) (act : State → State) (s : State) (h1 : ∀ (y0 : State), StateInv y0 → StateInv (act y0)) (h2 : StateInv s) :
    StateInv (joinSet cap action act s) := by
  unfold joinSet; try dsimp only
  repeat' first | (with_reducible first | assumption | apply h1) | simp only [↓inv_mk] | with_reducible intro _ | dsimp +zetaDelta only | split

theorem logConflict_inv (s : State) (cap item winner loser : Nat) (isRing : Bool) (h1 : StateInv s) :
    StateInv (logConflict s cap item winner loser isRing) := by
  unfold logConflict; try dsimp only
  repeat' first | (with_reducible first | assumption | apply inv_ite | apply inv_foldl | apply postEventS_inv) | simp only [↓inv_mk] | with_reducible intro _ | dsimp +zetaDelta only | split

theorem noteDone_inv (s : State) (r cap item effect : Nat) (h1 : StateInv s) :
    StateInv (noteDone s r cap item effect) := by
  unfold noteDone; try dsimp only
  repeat' first | (with_reducible first | assumption) | simp only [↓inv_mk] | with_reducible intro _ | dsimp +zetaDelta only | split

theorem exclusive_inv (s : State) (r cap item effect : Nat) (act : State → CmdRes) (h1 : StateInv s) (h2 : ∀ (y0 : State), StateInv y0 → InvP (act y0)) :
    InvP (exclusive s r cap item effect act) := by
  unfold exclusive
  repeat' first | (with_reducible first | assumption | apply h2 | apply bad_inv | apply logConflict_inv | apply noteDone_inv) | simp only [↓inv_pair] | (with_reducible first | apply inv_P | (apply inv_fst; assumption)) | with_reducible intro _ | dsimp +zetaDelta only | split

theorem inRankOrder_inv (r i : Nat) (act : State → State) (s : State) (h1 : ∀ (y0 : State), StateInv y0 → StateInv (act y0)) (h2 : StateInv s) :
    StateInv (inRankOrder r i act s) := by
  unfold inRankOrder
  repeat' first | (with_reducible first | assumption | apply inv_ite | apply h1) | with_reducible intro _

theorem mboxPush_inv (s : State) (c : Nat) (m : Mbox) (h1 : StateInv s) :
    StateInv (mboxPush s c m) := by
  unfold mboxPush; try dsimp only
  repeat' first | (with_reducible first | assumption | apply inv_ite | apply State.modCore_inv) | simp only [↓inv_mk] | with_reducible intro _ | dsimp +zetaDelta only | split

theorem armLease_inv (s : State) (r : Nat) (h1 : StateInv s) :
    StateInv (armLease s r) := by
  unfold armLease; try dsimp only
  repeat' first | (with_reducible first | assumption | apply inv_ite | apply State.modFn_inv) | simp only [↓inv_mk] | with_reducible intro _ | dsimp +zetaDelta only | split

theorem unhold_inv (s : State) (r i : Nat) (h1 : StateInv s) :
    StateInv (unhold s r i) := by
  unfold unhold; try dsimp only
  repeat' first | (with_reducible first | assumption | apply inv_ite | apply State.modRing_inv | apply settleRing_inv) | simp only [↓inv_mk] | with_reducible intro _ | dsimp +zetaDelta only | split

theorem hold_inv (s : State) (r i : Nat) (h1 : StateInv s) :
    StateInv (hold s r i) := by
  unfold hold; try dsimp only
  repeat' first | (with_reducible first | assumption | apply inv_ite | apply State.modRing_inv) | simp only [↓inv_mk] | with_reducible intro _ | dsimp +zetaDelta only | split

theorem ringError_inv (s : State) (r i : Nat) (h1 : StateInv s) :
    StateInv (ringError s r i) := by
  unfold ringError; try dsimp only
  repeat' first | (with_reducible first | assumption | apply inv_ite | apply State.modRing_inv | apply postEvent_inv | apply releaseReady_inv) | simp only [↓inv_mk] | with_reducible intro _ | dsimp +zetaDelta only | split

theorem writeStack_inv (s : State) (a : Nat) (z0 : List Byte) (h1 : StateInv s) : StateInv (writeStack s a z0) := by
  induction z0 generalizing s a with
  | nil => exact h1
  | cons b r ih => exact ih _ _ (inv_stack h1 (mset_wf _ _ h1.1))

theorem State.modTrust_inv (s : State) (f : Trust → Trust) (h1 : StateInv s) :
    StateInv (State.modTrust s f) := by
  unfold State.modTrust; try dsimp only
  repeat' first | (with_reducible first | assumption) | simp only [↓inv_mk] | dsimp +zetaDelta only | split

theorem State.modSession_inv (s : State) (n : Nat) (f : Session → Session) (h1 : StateInv s) :
    StateInv (State.modSession s n f) := by
  unfold State.modSession; try dsimp only
  repeat' first | (with_reducible first | assumption | apply State.modTrust_inv) | simp only [↓inv_mk] | with_reducible intro _ | dsimp +zetaDelta only | split

theorem sendClear_inv (s : State) (n type : Nat) (body : List Byte) (h1 : StateInv s) :
    StateInv (sendClear s n type body) := by
  unfold sendClear
  repeat' first | (with_reducible first | assumption | apply emit_inv)

theorem sendOne_inv (s : State) (n type : Nat) (body : List Byte) (h1 : StateInv s) :
    StateInv (sendOne s n type body) := by
  unfold sendOne; try dsimp only
  repeat' first | (with_reducible first | assumption | apply inv_ite | apply emit_inv | apply State.modSession_inv | apply sendClear_inv) | simp only [↓inv_mk] | with_reducible intro _ | dsimp +zetaDelta only | split

theorem sendMsg_inv (z0 : Nat) (z1 : State) (z2 z3 : Nat) (z4 : List Byte) (h1 : StateInv z1) :
    StateInv (sendMsg z0 z1 z2 z3 z4) := by
  fun_induction sendMsg z0 z1 z2 z3 z4 <;> try dsimp +zetaDelta only
  all_goals repeat' first | (with_reducible first | assumption | apply inv_ite | apply sendOne_inv) | with_reducible apply_assumption -exfalso | with_reducible intro _ | dsimp +zetaDelta only | split

theorem answer_inv (s : State) (n status : Nat) (results : List Byte) (h1 : StateInv s) :
    StateInv (answer s n status results) := by
  unfold answer
  repeat' first | (with_reducible first | assumption | apply sendMsg_inv)

theorem closeSession_inv (s : State) (n : Nat) (h1 : StateInv s) :
    StateInv (closeSession s n) := by
  unfold closeSession; try dsimp only
  repeat' first | (with_reducible first | assumption | apply inv_ite | apply emit_inv | apply State.modTrust_inv) | simp only [↓inv_mk] | with_reducible intro _ | dsimp +zetaDelta only | split

theorem onMsg_inv (s : State) (n type : Nat) (msg : List Byte) (eff : List Byte → State → State) (h1 : StateInv s) (h2 : ∀ (y0 : List Byte) (y1 : State), StateInv y1 → StateInv (eff y0 y1)) :
    StateInv (onMsg s n type msg eff) := by
  unfold onMsg; try dsimp only
  repeat' first | (with_reducible first | assumption | apply inv_ite | apply h2 | apply closeSession_inv | apply State.modSession_inv) | simp only [↓inv_mk] | with_reducible intro _ | dsimp +zetaDelta only | split

theorem postTrust_inv (s : State) (code result : Nat) (h1 : StateInv s) :
    StateInv (postTrust s code result) := by
  unfold postTrust
  repeat' first | (with_reducible first | assumption | apply inv_ite | apply postAll_inv) | with_reducible intro _

theorem reserveLeaves_inv (s : State) (h1 : StateInv s) :
    StateInv (reserveLeaves s) := by
  unfold reserveLeaves; try dsimp only
  repeat' first | (with_reducible first | assumption | apply inv_ite | apply State.modTrust_inv) | simp only [↓inv_mk] | with_reducible intro _ | dsimp +zetaDelta only | split

theorem checkLeaves_inv (s : State) (h1 : StateInv s) :
    StateInv (checkLeaves s) := by
  unfold checkLeaves; try dsimp only
  repeat' first | (with_reducible first | assumption | apply inv_ite | apply State.modTrust_inv | apply postTrust_inv) | simp only [↓inv_mk] | with_reducible intro _ | dsimp +zetaDelta only | split

theorem takeLeaf_inv (s : State) (h1 : StateInv s) :
    InvP (takeLeaf s) := by
  unfold takeLeaf; try dsimp only
  repeat' first | (with_reducible first | assumption | apply inv_ite | apply inv_ite1 | apply checkLeaves_inv | apply State.modTrust_inv | apply reserveLeaves_inv) | simp only [↓inv_mk] | simp only [↓inv_pair] | (with_reducible first | apply inv_P | (apply inv_fst; assumption)) | with_reducible intro _ | dsimp +zetaDelta only | split

theorem appendRec_inv (s : State) (action role rank status detail : Nat) (h1 : StateInv s) :
    StateInv (appendRec s action role rank status detail) := by
  unfold appendRec; try dsimp only
  repeat' first | (with_reducible first | assumption | apply State.modTrust_inv) | simp only [↓inv_mk] | with_reducible intro _ | dsimp +zetaDelta only | split

theorem sealSegment_inv (s : State) (h1 : StateInv s) :
    StateInv (sealSegment s) := by
  unfold sealSegment; try dsimp only
  repeat' first | (with_reducible first | assumption | apply inv_ite | apply inv_ite1 | apply appendRec_inv | apply State.modTrust_inv | apply takeLeaf_inv) | simp only [↓inv_mk] | simp only [↓inv_pair] | (with_reducible first | apply inv_P | (apply inv_fst; assumption)) | with_reducible intro _ | dsimp +zetaDelta only | split

theorem auditRec_inv (s : State) (action role rank status detail : Nat) (h1 : StateInv s) :
    InvO (auditRec s action role rank status detail) := by
  unfold auditRec
  repeat' first | (with_reducible first | assumption | apply inv_ite | apply appendRec_inv | apply sealSegment_inv) | (with_reducible first | apply invO_none | apply invO_some | apply invO_ite | (apply inv_of; assumption)) | with_reducible intro _

theorem auditOwn_inv (s : State) (action detail : Nat) (h1 : StateInv s) :
    StateInv (auditOwn s action detail) := by
  unfold auditOwn
  repeat' first | (with_reducible first | assumption | apply auditRec_inv) | (with_reducible first | apply invO_none | apply invO_some | apply invO_ite | (apply inv_of; assumption) | apply inv_getD) | with_reducible intro _

theorem audited_inv (s : State) (action rank detail : Nat) (act : State → CmdRes) (h1 : StateInv s) (h2 : ∀ (y0 : State), StateInv y0 → InvP (act y0)) :
    InvP (audited s action rank detail act) := by
  unfold audited
  repeat' first | (with_reducible first | assumption | apply h2 | apply auditRec_inv | apply bad_inv) | simp only [↓inv_pair] | (with_reducible first | apply inv_P | apply invO_none | apply invO_some | apply invO_ite | (apply inv_of; assumption) | (apply inv_fst; assumption)) | with_reducible intro _ | dsimp +zetaDelta only | split

theorem State.modSto_inv (s : State) (f : Sto → Sto) (h1 : StateInv s) :
    StateInv (State.modSto s f) := by
  unfold State.modSto; try dsimp only
  repeat' first | (with_reducible first | assumption) | simp only [↓inv_mk] | dsimp +zetaDelta only | split

theorem State.modBack_inv (s : State) (b : Nat) (f : Backend → Backend) (h1 : StateInv s) :
    StateInv (State.modBack s b f) := by
  unfold State.modBack; try dsimp only
  repeat' first | (with_reducible first | assumption | apply State.modSto_inv) | simp only [↓inv_mk] | with_reducible intro _ | dsimp +zetaDelta only | split

theorem State.modNs_inv (s : State) (n : Nat) (f : Namespace → Namespace) (h1 : StateInv s) :
    StateInv (State.modNs s n f) := by
  unfold State.modNs; try dsimp only
  repeat' first | (with_reducible first | assumption | apply State.modSto_inv) | simp only [↓inv_mk] | with_reducible intro _ | dsimp +zetaDelta only | split

theorem State.modCtl_inv (s : State) (c : Nat) (f : Ctrl → Ctrl) (h1 : StateInv s) :
    StateInv (State.modCtl s c f) := by
  unfold State.modCtl; try dsimp only
  repeat' first | (with_reducible first | assumption | apply State.modSto_inv) | simp only [↓inv_mk] | with_reducible intro _ | dsimp +zetaDelta only | split

theorem unbindMark_inv (s : State) (m : Nat) (h1 : StateInv s) :
    StateInv (unbindMark s m) := by
  unfold unbindMark; try dsimp only
  repeat' first | (with_reducible first | assumption | apply inv_ite) | simp only [↓inv_mk] | with_reducible intro _ | dsimp +zetaDelta only | split

theorem bindMark_inv (s : State) (ns : List Nat) (m : Nat) (h1 : StateInv s) :
    StateInv (bindMark s ns m) := by
  unfold bindMark; try dsimp only
  repeat' first | (with_reducible first | assumption | apply inv_ite) | simp only [↓inv_mk] | with_reducible intro _ | dsimp +zetaDelta only | split

theorem failConnect_inv (s : State) (b status result : Nat) (h1 : StateInv s) :
    StateInv (failConnect s b status result) := by
  unfold failConnect; try dsimp only
  repeat' first | (with_reducible first | assumption | apply inv_ite | apply finish_inv | apply State.modBack_inv | apply State.modSto_inv | apply unbindMark_inv) | simp only [↓inv_mk] | with_reducible intro _ | dsimp +zetaDelta only | split

theorem downBackend_inv (s : State) (b : Nat) (h1 : StateInv s) :
    StateInv (downBackend s b) := by
  unfold downBackend; try dsimp only
  repeat' first | (with_reducible first | assumption | apply inv_ite | apply inv_foldl | apply failConnect_inv | apply State.modBack_inv | apply postEventS_inv) | simp only [↓inv_mk] | with_reducible intro _ | dsimp +zetaDelta only | split

theorem State.modWx_inv (s : State) (f : Weather → Weather) (h1 : StateInv s) :
    StateInv (State.modWx s f) := by
  unfold State.modWx; try dsimp only
  repeat' first | (with_reducible first | assumption) | simp only [↓inv_mk] | dsimp +zetaDelta only | split

theorem State.modPath_inv (s : State) (k : Nat) (f : FeedPath → FeedPath) (h1 : StateInv s) :
    StateInv (State.modPath s k f) := by
  unfold State.modPath; try dsimp only
  repeat' first | (with_reducible first | assumption | apply State.modWx_inv) | simp only [↓inv_mk] | with_reducible intro _ | dsimp +zetaDelta only | split

theorem endBuf_inv (s : State) (r : Nat) (b : FeedBuf) (h1 : StateInv s) :
    StateInv (endBuf s r b) := by
  unfold endBuf; try dsimp only
  repeat' first | (with_reducible first | assumption | apply finish_inv | apply State.modPath_inv) | simp only [↓inv_mk] | with_reducible intro _ | dsimp +zetaDelta only | split

theorem queueLost_inv (s : State) (k : Nat) (h1 : StateInv s) :
    StateInv (queueLost s k) := by
  unfold queueLost; try dsimp only
  repeat' first | (with_reducible first | assumption | apply inv_ite | apply State.modPath_inv) | simp only [↓inv_mk] | with_reducible intro _ | dsimp +zetaDelta only | split

theorem pumpFeed_inv (z0 : Nat) (z1 : State) (z2 : Nat) (h1 : StateInv z1) :
    StateInv (pumpFeed z0 z1 z2) := by
  fun_induction pumpFeed z0 z1 z2 <;> try dsimp +zetaDelta only
  all_goals repeat' first | (with_reducible first | assumption | apply inv_ite | apply endBuf_inv | apply hostWrite_inv | apply State.modPath_inv | apply queueLost_inv) | simp only [↓inv_mk] | with_reducible apply_assumption -exfalso | with_reducible intro _ | dsimp +zetaDelta only | split

theorem dropRecord_inv (s : State) (k : Nat) (h1 : StateInv s) :
    StateInv (dropRecord s k) := by
  unfold dropRecord; try dsimp only
  repeat' first | (with_reducible first | assumption | apply State.modPath_inv) | simp only [↓inv_mk] | with_reducible intro _ | dsimp +zetaDelta only | split

theorem queueRecord_inv (s : State) (k type source payload : Nat) (h1 : StateInv s) :
    StateInv (queueRecord s k type source payload) := by
  unfold queueRecord; try dsimp only
  repeat' first | (with_reducible first | assumption | apply inv_ite | apply dropRecord_inv | apply State.modPath_inv | apply pumpFeed_inv | apply queueLost_inv) | simp only [↓inv_mk] | with_reducible intro _ | dsimp +zetaDelta only | split

theorem toPath_inv (s : State) (k type source payload : Nat) (h1 : StateInv s) :
    StateInv (toPath s k type source payload) := by
  unfold toPath; try dsimp only
  repeat' first | (with_reducible first | assumption | apply inv_ite | apply dropRecord_inv | apply State.modPath_inv | apply queueRecord_inv | apply sendOne_inv) | simp only [↓inv_mk] | with_reducible intro _ | dsimp +zetaDelta only | split

theorem feedPut_inv (s : State) (type source payload : Nat) (h1 : StateInv s) :
    StateInv (feedPut s type source payload) := by
  unfold feedPut; try dsimp only
  repeat' first | (with_reducible first | assumption | apply inv_ite | apply inv_foldl | apply toPath_inv) | with_reducible intro _ | dsimp +zetaDelta only | split

theorem feedBufferEff_inv (r i d : Nat) (ref : DRef) (s : State) (h1 : StateInv s) :
    InvP (feedBufferEff r i d ref s) := by
  unfold feedBufferEff; try dsimp only
  repeat' first | (with_reducible first | assumption | apply inv_ite | apply inv_ite1 | apply bad_inv | apply later_inv | apply State.modPath_inv | apply pumpFeed_inv) | simp only [↓inv_mk] | simp only [↓inv_pair] | (with_reducible first | apply inv_P | (apply inv_fst; assumption)) | with_reducible intro _ | dsimp +zetaDelta only | split

theorem execFeedBuffer_inv (fn ring : Nat) (s : State) (h1 : StateInv s) :
    InvC (execFeedBuffer fn ring s) := by
  unfold execFeedBuffer; try dsimp only
  repeat' first | (with_reducible first | assumption | apply feedBufferEff_inv | apply onDesc_inv) | simp only [↓inv_pair] | (with_reducible first | apply inv_P | apply invC_next | apply invC_ite | apply invC_fault | (apply inv_ofC; assumption) | (apply inv_fst; assumption)) | with_reducible intro _ | dsimp +zetaDelta only | split

theorem feedFlushEff_inv (r i : Nat) (s : State) (h1 : StateInv s) :
    InvP (feedFlushEff r i s) := by
  unfold feedFlushEff; try dsimp only
  repeat' first | (with_reducible first | assumption | apply inv_ite | apply inv_ite1 | apply bad_inv | apply endBuf_inv | apply ok0_inv | apply okR_inv) | simp only [↓inv_pair] | (with_reducible first | apply inv_P | (apply inv_fst; assumption)) | with_reducible intro _ | dsimp +zetaDelta only | split

theorem execFeedFlush_inv (fn ring : Nat) (s : State) (h1 : StateInv s) :
    InvC (execFeedFlush fn ring s) := by
  unfold execFeedFlush; try dsimp only
  repeat' first | (with_reducible first | assumption | apply feedFlushEff_inv | apply onDesc_inv) | simp only [↓inv_pair] | (with_reducible first | apply inv_P | apply invC_next | apply invC_ite | apply invC_fault | (apply inv_ofC; assumption) | (apply inv_fst; assumption)) | with_reducible intro _ | dsimp +zetaDelta only | split

theorem doFlushTimeout_inv (r : Nat) (s : State) (h1 : StateInv s) :
    StateInv (doFlushTimeout r s) := by
  unfold doFlushTimeout; try dsimp only
  repeat' first | (with_reducible first | assumption | apply inv_ite | apply advanceTo_inv | apply endBuf_inv) | with_reducible intro _ | dsimp +zetaDelta only | split

theorem execFeedFlushTimeout_inv (pf : Nat) (s : State) (h1 : StateInv s) :
    InvC (execFeedFlushTimeout pf s) := by
  unfold execFeedFlushTimeout
  repeat' first | (with_reducible first | assumption | apply doFlushTimeout_inv) | (with_reducible first | apply invC_next | apply invC_ite | apply invC_fault | (apply inv_ofC; assumption)) | with_reducible intro _

theorem addTotal_inv (s : State) (type source k n : Nat) (h1 : StateInv s) :
    StateInv (addTotal s type source k n) := by
  unfold addTotal; try dsimp only
  repeat' first | (with_reducible first | assumption | apply State.modWx_inv) | simp only [↓inv_mk] | with_reducible intro _ | dsimp +zetaDelta only | split

theorem deltaOf_inv (s : State) (type source k now : Nat) (h1 : StateInv s) :
    InvP (deltaOf s type source k now) := by
  unfold deltaOf; try dsimp only
  repeat' first | (with_reducible first | assumption | apply State.modWx_inv) | simp only [↓inv_mk] | simp only [↓inv_pair] | (with_reducible first | apply inv_P | (apply inv_fst; assumption)) | with_reducible intro _ | dsimp +zetaDelta only | split

theorem State.modStk_inv (s : State) (n : Nat) (f : Stk → Stk) (h1 : StateInv s) :
    StateInv (State.modStk s n f) := by
  unfold State.modStk; try dsimp only
  repeat' first | (with_reducible first | assumption) | simp only [↓inv_mk] | dsimp +zetaDelta only | split

theorem offAccess_inv (s : State) (h1 : StateInv s) :
    StateInv (offAccess s) := by
  unfold offAccess; try dsimp only
  repeat' first | (with_reducible first | assumption) | simp only [↓inv_mk] | dsimp +zetaDelta only | split

theorem uncorrectable_inv (s : State) (a claimant : Nat) (h1 : StateInv s) :
    StateInv (uncorrectable s a claimant) := by
  unfold uncorrectable; try dsimp only
  repeat' first | (with_reducible first | assumption | apply inv_foldl | apply State.modStk_inv | apply postEventS_inv) | simp only [↓inv_mk] | with_reducible intro _ | dsimp +zetaDelta only | split

theorem channelGrant_inv (cl : Nat) (s : State) (l : Nat) (h1 : StateInv s) :
    StateInv (channelGrant cl s l) := by
  unfold channelGrant; try dsimp only
  repeat' first | (with_reducible first | assumption | apply State.modStk_inv) | simp only [↓inv_mk] | with_reducible intro _ | dsimp +zetaDelta only | split

theorem countCap_inv (s : State) (cl a n : Nat) (h1 : StateInv s) :
    StateInv (countCap s cl a n) := by
  unfold countCap; try dsimp only
  repeat' first | (with_reducible first | assumption | apply inv_foldl | apply addTotal_inv | apply channelGrant_inv | apply State.modStk_inv) | simp only [↓inv_mk] | with_reducible intro _ | dsimp +zetaDelta only | split

theorem engineRead_inv (s : State) (cl a n : Nat) (h1 : StateInv s) :
    InvP (engineRead s cl a n) := by
  unfold engineRead; try dsimp only
  repeat' first | (with_reducible first | assumption | apply inv_ite | apply inv_ite1 | apply countCap_inv | apply uncorrectable_inv) | simp only [↓inv_pair] | (with_reducible first | apply inv_P | (apply inv_fst; assumption)) | with_reducible intro _ | dsimp +zetaDelta only | split

theorem State.modCk_inv (s : State) (ep : Nat) (f : Ckpt → Ckpt) (h1 : StateInv s) :
    StateInv (State.modCk s ep f) := by
  unfold State.modCk; try dsimp only
  repeat' first | (with_reducible first | assumption) | simp only [↓inv_mk] | dsimp +zetaDelta only | split

theorem State.modTake_inv (s : State) (ep : Nat) (f : Take → Take) (h1 : StateInv s) :
    StateInv (State.modTake s ep f) := by
  unfold State.modTake; try dsimp only
  repeat' first | (with_reducible first | assumption | apply State.modCk_inv) | simp only [↓inv_mk] | with_reducible intro _ | dsimp +zetaDelta only | split

theorem reserveFull_inv (s : State) (ep n : Nat) (h1 : StateInv s) :
    StateInv (reserveFull s ep n) := by
  unfold reserveFull; try dsimp only
  repeat' first | (with_reducible first | assumption | apply inv_ite | apply State.modTake_inv | apply postEvent_inv) | simp only [↓inv_mk] | with_reducible intro _ | dsimp +zetaDelta only | split

theorem copyGranule_inv (s : State) (ep g us : Nat) (h1 : StateInv s) :
    StateInv (copyGranule s ep g us) := by
  unfold copyGranule; try dsimp only
  repeat' first | (with_reducible first | assumption | apply bad_inv | apply State.modCk_inv | apply State.modTake_inv | apply reserveFull_inv | apply uncorrectable_inv | apply writeStack_inv) | simp only [↓inv_mk] | simp only [↓inv_pair] | (with_reducible first | apply inv_P | (apply inv_fst; assumption)) | with_reducible intro _ | dsimp +zetaDelta only | split

theorem keepGranule_inv (s : State) (a : Nat) (h1 : StateInv s) :
    StateInv (keepGranule s a) := by
  unfold keepGranule; try dsimp only
  repeat' first | (with_reducible first | assumption | apply inv_foldl | apply copyGranule_inv) | with_reducible intro _ | dsimp +zetaDelta only | split

theorem writeLine_inv (s : State) (a : Nat) (bs : List Byte) (l : Nat) (h1 : StateInv s) :
    InvP (writeLine s a bs l) := by
  unfold writeLine; try dsimp only
  repeat' first | (with_reducible first | assumption | apply inv_ite | apply inv_ite1 | apply keepGranule_inv | apply State.modStk_inv | apply writeStack_inv) | simp only [↓inv_mk] | simp only [↓inv_pair] | (with_reducible first | apply inv_P | (apply inv_fst; assumption)) | with_reducible intro _ | dsimp +zetaDelta only | split

theorem engineWrite_inv (s : State) (cl a : Nat) (bs : List Byte) (h1 : StateInv s) :
    InvP (engineWrite s cl a bs) := by
  unfold engineWrite; try dsimp only
  repeat' first | (with_reducible first | assumption | apply inv_ite | apply inv_ite1 | apply inv_foldl | apply inv_foldl1 | apply countCap_inv | apply writeLine_inv) | simp only [↓inv_pair] | (with_reducible first | apply inv_P | (apply inv_fst; assumption)) | with_reducible intro _ | dsimp +zetaDelta only | split

theorem correctedRead_inv (s : State) (a : Nat) (h1 : StateInv s) :
    StateInv (correctedRead s a) := by
  unfold correctedRead; try dsimp only
  repeat' first | (with_reducible first | assumption | apply inv_ite | apply State.modStk_inv | apply postAll_inv) | simp only [↓inv_mk] | with_reducible intro _ | dsimp +zetaDelta only | split

theorem doScrub_inv (n line : Nat) (found : Codeword) (s : State) (h1 : StateInv s) :
    StateInv (doScrub n line found s) := by
  unfold doScrub; try dsimp only
  repeat' first | (with_reducible first | assumption | apply inv_ite | apply channelGrant_inv | apply correctedRead_inv | apply State.modStk_inv | apply uncorrectable_inv) | simp only [↓inv_mk] | with_reducible intro _ | dsimp +zetaDelta only | split

theorem execScrub_inv (stack line : Nat) (found : Codeword) (s : State) (h1 : StateInv s) :
    InvC (execScrub stack line found s) := by
  unfold execScrub
  repeat' first | (with_reducible first | assumption | apply doScrub_inv) | (with_reducible first | apply invC_next | apply invC_ite | apply invC_fault | (apply inv_ofC; assumption)) | with_reducible intro _

theorem doTrainingLoss_inv (n c : Nat) (s : State) (h1 : StateInv s) :
    StateInv (doTrainingLoss n c s) := by
  unfold doTrainingLoss; try dsimp only
  repeat' first | (with_reducible first | assumption | apply inv_ite | apply State.modStk_inv) | simp only [↓inv_mk] | with_reducible intro _ | dsimp +zetaDelta only | split

theorem execChannelTrainingLoss_inv (stack chan : Nat) (s : State) (h1 : StateInv s) :
    InvC (execChannelTrainingLoss stack chan s) := by
  unfold execChannelTrainingLoss
  repeat' first | (with_reducible first | assumption | apply doTrainingLoss_inv) | (with_reducible first | apply invC_next | apply invC_ite | apply invC_fault | (apply inv_ofC; assumption)) | with_reducible intro _

theorem rdSpace_inv (s : State) (r cl a n : Nat) (read : HRead) (h1 : StateInv s) :
    InvP (rdSpace s r cl a n read) := by
  unfold rdSpace
  repeat' first | (with_reducible first | assumption | apply inv_ite | apply inv_ite1 | apply engineRead_inv) | simp only [↓inv_pair] | (with_reducible first | apply inv_P | (apply inv_fst; assumption)) | with_reducible intro _ | dsimp +zetaDelta only | split

theorem wrSpace_inv (s : State) (r cl a : Nat) (bs : List Byte) (h1 : StateInv s) :
    InvP (wrSpace s r cl a bs) := by
  unfold wrSpace
  repeat' first | (with_reducible first | assumption | apply inv_ite | apply inv_ite1 | apply engineWrite_inv | apply hostWrite_inv) | simp only [↓inv_pair] | (with_reducible first | apply inv_P | (apply inv_fst; assumption)) | with_reducible intro _ | dsimp +zetaDelta only | split

end Sys2Proof.Machine
end

