-- ==== Sys2Proof/Laws/InvFabric.lean ====
section
/-!
SUPPORT. What every step keeps, function by function: sealing, the fabric, reduction and serving.
-/
set_option Elab.async false
set_option linter.all false
namespace Sys2Proof.Machine

theorem State.modSeal_inv (s : State) (f : Seal → Seal) (h1 : StateInv s) :
    StateInv (State.modSeal s f) := by
  unfold State.modSeal; try dsimp only
  repeat' first | (with_reducible first | assumption) | simp only [↓inv_mk] | dsimp +zetaDelta only | split

theorem State.putSlot_inv (s : State) (n : Nat) (k : KeySlot) (h1 : StateInv s) :
    StateInv (State.putSlot s n k) := by
  unfold State.putSlot; try dsimp only
  repeat' first | (with_reducible first | assumption | apply State.modSeal_inv) | simp only [↓inv_mk] | with_reducible intro _ | dsimp +zetaDelta only | split

theorem State.modStile_inv (s : State) (t : Nat) (f : SealTile → SealTile) (h1 : StateInv s) :
    StateInv (State.modStile s t f) := by
  unfold State.modStile; try dsimp only
  repeat' first | (with_reducible first | assumption | apply State.modSeal_inv) | simp only [↓inv_mk] | with_reducible intro _ | dsimp +zetaDelta only | split

theorem settleMode_inv (s : State) (t : Nat) (h1 : StateInv s) :
    StateInv (settleMode s t) := by
  unfold settleMode; try dsimp only
  repeat' first | (with_reducible first | assumption | apply inv_ite | apply State.modStile_inv | apply postAll_inv) | simp only [↓inv_mk] | with_reducible intro _ | dsimp +zetaDelta only | split

theorem settleModes_inv (s : State) (h1 : StateInv s) :
    StateInv (settleModes s) := by
  unfold settleModes
  repeat' first | (with_reducible first | assumption | apply inv_foldl | apply settleMode_inv) | with_reducible intro _

theorem onSeal_inv (r i op at_ : Nat) (act : State → State) (s : State) (h1 : ∀ (y0 : State), StateInv y0 → StateInv (act y0)) (h2 : StateInv s) :
    StateInv (onSeal r i op at_ act s) := by
  unfold onSeal; try dsimp only
  repeat' first | (with_reducible first | assumption | apply inv_ite | apply h1) | simp only [↓inv_mk] | with_reducible intro _ | dsimp +zetaDelta only | split

theorem countBytes_inv (s : State) (t n : Nat) (h1 : StateInv s) :
    StateInv (countBytes s t n) := by
  unfold countBytes; try dsimp only
  repeat' first | (with_reducible first | assumption | apply State.modStile_inv) | simp only [↓inv_mk] | with_reducible intro _ | dsimp +zetaDelta only | split

theorem cryptBlocks_inv (s : State) (die n : Nat) (enc : Bool) (unit : Nat) (bs : List Byte) (h1 : StateInv s) :
    InvP (cryptBlocks s die n enc unit bs) := by
  unfold cryptBlocks; try dsimp only
  repeat' first | (with_reducible first | assumption | apply inv_ite | apply inv_ite1 | apply countBytes_inv | apply State.putSlot_inv) | simp only [↓inv_mk] | simp only [↓inv_pair] | (with_reducible first | apply inv_P | (apply inv_fst; assumption)) | with_reducible intro _ | dsimp +zetaDelta only | split

theorem repin_inv (s : State) (t : Nat) (h1 : StateInv s) :
    StateInv (repin s t) := by
  unfold repin; try dsimp only
  repeat' first | (with_reducible first | assumption | apply inv_ite | apply inv_foldl | apply State.modSeal_inv) | simp only [↓inv_mk] | with_reducible intro _ | dsimp +zetaDelta only | split

theorem joinSteer_inv (s : State) (t : Nat) (h1 : StateInv s) :
    StateInv (joinSteer s t) := by
  unfold joinSteer; try dsimp only
  repeat' first | (with_reducible first | assumption | apply inv_ite | apply inv_foldl | apply State.modSeal_inv) | simp only [↓inv_mk] | with_reducible intro _ | dsimp +zetaDelta only | split

theorem useCounter_inv (s : State) (n t : Nat) (k : KeySlot) (h1 : StateInv s) :
    InvO (useCounter s n t k) := by
  unfold useCounter; try dsimp only
  repeat' first | (with_reducible first | assumption | apply inv_ite | apply postEvent_inv | apply State.putSlot_inv) | simp only [↓inv_mk] | (with_reducible first | apply invO_none | apply invO_some | apply invO_ite | (apply inv_of; assumption)) | with_reducible intro _ | dsimp +zetaDelta only | split

theorem withSlot_inv (s : State) (r n : Nat) (kinds : List Nat) (st : KeySt) (act : KeySlot → CmdRes) (h1 : StateInv s) (h2 : ∀ (y0 : KeySlot), InvP (act y0)) :
    InvP (withSlot s r n kinds st act) := by
  unfold withSlot
  repeat' first | (with_reducible first | assumption | apply inv_ite | apply inv_ite1 | apply h2 | apply bad_inv) | simp only [↓inv_pair] | (with_reducible first | apply inv_P | (apply inv_fst; assumption)) | with_reducible intro _ | dsimp +zetaDelta only | split

theorem keyAlloc_inv (r ring d : Nat) (s : State) (h1 : StateInv s) :
    InvP (keyAlloc r ring d s) := by
  unfold keyAlloc; try dsimp only
  repeat' first | (with_reducible first | assumption | apply inv_ite | apply inv_ite1 | apply bad_inv | apply State.modSeal_inv | apply okR_inv | apply State.putSlot_inv) | simp only [↓inv_mk] | simp only [↓inv_pair] | (with_reducible first | apply inv_P | (apply inv_fst; assumption)) | with_reducible intro _ | dsimp +zetaDelta only | split

theorem execKeyAlloc_inv (fn ring : Nat) (s : State) (h1 : StateInv s) :
    InvC (execKeyAlloc fn ring s) := by
  unfold execKeyAlloc; try dsimp only
  repeat' first | (with_reducible first | assumption | apply keyAlloc_inv | apply onDesc_inv) | simp only [↓inv_pair] | (with_reducible first | apply inv_P | apply invC_next | apply invC_ite | apply invC_fault | (apply inv_ofC; assumption) | (apply inv_fst; assumption)) | with_reducible intro _ | dsimp +zetaDelta only | split

theorem keyLoad_inv (r d : Nat) (read : HRead) (s : State) (h1 : StateInv s) :
    InvP (keyLoad r d read s) := by
  unfold keyLoad; try dsimp only
  repeat' first | (with_reducible first | assumption | apply inv_ite | apply inv_ite1 | apply bad_inv | apply ok0_inv | apply State.putSlot_inv | apply rdSpace_inv | apply withSlot_inv) | simp only [↓inv_mk] | simp only [↓inv_pair] | (with_reducible first | apply inv_P | (apply inv_fst; assumption)) | with_reducible intro _ | dsimp +zetaDelta only | split

theorem execKeyLoad_inv (fn ring : Nat) (read : HRead) (s : State) (h1 : StateInv s) :
    InvC (execKeyLoad fn ring read s) := by
  unfold execKeyLoad; try dsimp only
  repeat' first | (with_reducible first | assumption | apply keyLoad_inv | apply onDesc_inv) | simp only [↓inv_pair] | (with_reducible first | apply inv_P | apply invC_next | apply invC_ite | apply invC_fault | (apply inv_ofC; assumption) | (apply inv_fst; assumption)) | with_reducible intro _ | dsimp +zetaDelta only | split

theorem keyFree_inv (r d : Nat) (s : State) (h1 : StateInv s) :
    InvP (keyFree r d s) := by
  unfold keyFree; try dsimp only
  repeat' first | (with_reducible first | assumption | apply inv_ite | apply inv_ite1 | apply bad_inv | apply State.modSeal_inv | apply ok0_inv) | simp only [↓inv_mk] | simp only [↓inv_pair] | (with_reducible first | apply inv_P | (apply inv_fst; assumption)) | with_reducible intro _ | dsimp +zetaDelta only | split

theorem execKeyFree_inv (fn ring : Nat) (s : State) (h1 : StateInv s) :
    InvC (execKeyFree fn ring s) := by
  unfold execKeyFree; try dsimp only
  repeat' first | (with_reducible first | assumption | apply keyFree_inv | apply onDesc_inv) | simp only [↓inv_pair] | (with_reducible first | apply inv_P | apply invC_next | apply invC_ite | apply invC_fault | (apply inv_ofC; assumption) | (apply inv_fst; assumption)) | with_reducible intro _ | dsimp +zetaDelta only | split

theorem saSet_inv (r d : Nat) (read : HRead) (s : State) (h1 : StateInv s) :
    InvP (saSet r d read s) := by
  unfold saSet; try dsimp only
  repeat' first | (with_reducible first | assumption | apply inv_ite | apply inv_ite1 | apply bad_inv | apply ok0_inv | apply State.putSlot_inv | apply rdSpace_inv | apply withSlot_inv) | simp only [↓inv_mk] | simp only [↓inv_pair] | (with_reducible first | apply inv_P | (apply inv_fst; assumption)) | with_reducible intro _ | dsimp +zetaDelta only | split

theorem execSaSet_inv (fn ring : Nat) (read : HRead) (s : State) (h1 : StateInv s) :
    InvC (execSaSet fn ring read s) := by
  unfold execSaSet; try dsimp only
  repeat' first | (with_reducible first | assumption | apply onDesc_inv | apply saSet_inv) | simp only [↓inv_pair] | (with_reducible first | apply inv_P | apply invC_next | apply invC_ite | apply invC_fault | (apply inv_ofC; assumption) | (apply inv_fst; assumption)) | with_reducible intro _ | dsimp +zetaDelta only | split

theorem sealGcm_inv (r d : Nat) (ref : DRef) (src aad : HRead) (s : State) (h1 : StateInv s) :
    InvP (sealGcm r d ref src aad s) := by
  unfold sealGcm; try dsimp only
  repeat' first | (with_reducible first | assumption | apply inv_ite | apply inv_ite1 | apply bad_inv | apply countBytes_inv | apply okR_inv | apply rdSpace_inv | apply useCounter_inv | apply withSlot_inv | apply wrSpace_inv) | simp only [↓inv_pair] | (with_reducible first | apply inv_P | apply invO_none | apply invO_some | apply invO_ite | (apply inv_of; assumption) | (apply inv_fst; assumption)) | with_reducible intro _ | dsimp +zetaDelta only | split

theorem execSealGcm_inv (fn ring : Nat) (src aad : HRead) (s : State) (h1 : StateInv s) :
    InvC (execSealGcm fn ring src aad s) := by
  unfold execSealGcm; try dsimp only
  repeat' first | (with_reducible first | assumption | apply onDesc_inv | apply onSeal_inv | apply sealGcm_inv) | simp only [↓inv_pair] | (with_reducible first | apply inv_P | apply invC_next | apply invC_ite | apply invC_fault | (apply inv_ofC; assumption) | (apply inv_fst; assumption)) | with_reducible intro _ | dsimp +zetaDelta only | split

theorem openGcm_inv (r d : Nat) (ref : DRef) (src aad : HRead) (s : State) (h1 : StateInv s) :
    InvP (openGcm r d ref src aad s) := by
  unfold openGcm; try dsimp only
  repeat' first | (with_reducible first | assumption | apply inv_ite | apply inv_ite1 | apply bad_inv | apply countBytes_inv | apply ok0_inv | apply State.putSlot_inv | apply rdSpace_inv | apply withSlot_inv | apply wrSpace_inv) | simp only [↓inv_mk] | simp only [↓inv_pair] | (with_reducible first | apply inv_P | (apply inv_fst; assumption)) | with_reducible intro _ | dsimp +zetaDelta only | split

theorem execOpenGcm_inv (fn ring : Nat) (src aad : HRead) (s : State) (h1 : StateInv s) :
    InvC (execOpenGcm fn ring src aad s) := by
  unfold execOpenGcm; try dsimp only
  repeat' first | (with_reducible first | assumption | apply onDesc_inv | apply onSeal_inv | apply openGcm_inv) | simp only [↓inv_pair] | (with_reducible first | apply inv_P | apply invC_next | apply invC_ite | apply invC_fault | (apply inv_ofC; assumption) | (apply inv_fst; assumption)) | with_reducible intro _ | dsimp +zetaDelta only | split

theorem xtsCmd_inv (enc : Bool) (r d : Nat) (ref : DRef) (src : HRead) (s : State) (h1 : StateInv s) :
    InvP (xtsCmd enc r d ref src s) := by
  unfold xtsCmd; try dsimp only
  repeat' first | (with_reducible first | assumption | apply inv_ite | apply inv_ite1 | apply bad_inv | apply countBytes_inv | apply okR_inv | apply State.putSlot_inv | apply rdSpace_inv | apply withSlot_inv | apply wrSpace_inv) | simp only [↓inv_mk] | simp only [↓inv_pair] | (with_reducible first | apply inv_P | (apply inv_fst; assumption)) | with_reducible intro _ | dsimp +zetaDelta only | split

theorem execXtsEnc_inv (fn ring : Nat) (src : HRead) (s : State) (h1 : StateInv s) :
    InvC (execXtsEnc fn ring src s) := by
  unfold execXtsEnc; try dsimp only
  repeat' first | (with_reducible first | assumption | apply onDesc_inv | apply onSeal_inv | apply xtsCmd_inv) | simp only [↓inv_pair] | (with_reducible first | apply inv_P | apply invC_next | apply invC_ite | apply invC_fault | (apply inv_ofC; assumption) | (apply inv_fst; assumption)) | with_reducible intro _ | dsimp +zetaDelta only | split

theorem execXtsDec_inv (fn ring : Nat) (src : HRead) (s : State) (h1 : StateInv s) :
    InvC (execXtsDec fn ring src s) := by
  unfold execXtsDec; try dsimp only
  repeat' first | (with_reducible first | assumption | apply onDesc_inv | apply onSeal_inv | apply xtsCmd_inv) | simp only [↓inv_pair] | (with_reducible first | apply inv_P | apply invC_next | apply invC_ite | apply invC_fault | (apply inv_ofC; assumption) | (apply inv_fst; assumption)) | with_reducible intro _ | dsimp +zetaDelta only | split

theorem hashCmd_inv (r d : Nat) (src state : HRead) (s : State) (h1 : StateInv s) :
    InvP (hashCmd r d src state s) := by
  unfold hashCmd; try dsimp only
  repeat' first | (with_reducible first | assumption | apply inv_ite | apply inv_ite1 | apply bad_inv | apply ok0_inv | apply rdSpace_inv | apply wrSpace_inv) | simp only [↓inv_pair] | (with_reducible first | apply inv_P | (apply inv_fst; assumption)) | with_reducible intro _ | dsimp +zetaDelta only | split

theorem execHash_inv (fn ring : Nat) (src state : HRead) (s : State) (h1 : StateInv s) :
    InvC (execHash fn ring src state s) := by
  unfold execHash; try dsimp only
  repeat' first | (with_reducible first | assumption | apply hashCmd_inv | apply onDesc_inv) | simp only [↓inv_pair] | (with_reducible first | apply inv_P | apply invC_next | apply invC_ite | apply invC_fault | (apply inv_ofC; assumption) | (apply inv_fst; assumption)) | with_reducible intro _ | dsimp +zetaDelta only | split

theorem ctxSave_inv (r d : Nat) (ref : DRef) (s : State) (h1 : StateInv s) :
    InvP (ctxSave r d ref s) := by
  unfold ctxSave; try dsimp only
  repeat' first | (with_reducible first | assumption | apply inv_ite | apply inv_ite1 | apply bad_inv | apply State.modSeal_inv | apply okR_inv | apply useCounter_inv | apply withSlot_inv | apply wrSpace_inv) | simp only [↓inv_mk] | simp only [↓inv_pair] | (with_reducible first | apply inv_P | apply invO_none | apply invO_some | apply invO_ite | (apply inv_of; assumption) | (apply inv_fst; assumption)) | with_reducible intro _ | dsimp +zetaDelta only | split

theorem execCtxSave_inv (fn ring : Nat) (s : State) (h1 : StateInv s) :
    InvC (execCtxSave fn ring s) := by
  unfold execCtxSave; try dsimp only
  repeat' first | (with_reducible first | assumption | apply ctxSave_inv | apply onDesc_inv | apply onSeal_inv) | simp only [↓inv_pair] | (with_reducible first | apply inv_P | apply invC_next | apply invC_ite | apply invC_fault | (apply inv_ofC; assumption) | (apply inv_fst; assumption)) | with_reducible intro _ | dsimp +zetaDelta only | split

theorem ctxRestore_inv (r d : Nat) (src : HRead) (s : State) (h1 : StateInv s) :
    InvP (ctxRestore r d src s) := by
  unfold ctxRestore; try dsimp only
  repeat' first | (with_reducible first | assumption | apply inv_ite | apply inv_ite1 | apply bad_inv | apply ok0_inv | apply State.putSlot_inv | apply rdSpace_inv | apply withSlot_inv) | simp only [↓inv_pair] | simp only [↓invX_mk] | simp only [↓invXP_pair] | (with_reducible first | apply invXP_ite | apply invXP_foldl | apply inv_XP | apply invX_ite | apply invX_foldl | apply invX_s | apply inv_P | (apply inv_fst; assumption)) | with_reducible intro _ | dsimp +zetaDelta only | split

theorem execCtxRestore_inv (fn ring : Nat) (src : HRead) (s : State) (h1 : StateInv s) :
    InvC (execCtxRestore fn ring src s) := by
  unfold execCtxRestore; try dsimp only
  repeat' first | (with_reducible first | assumption | apply ctxRestore_inv | apply onDesc_inv | apply onSeal_inv) | simp only [↓inv_pair] | simp only [↓invX_mk] | simp only [↓invXP_pair] | (with_reducible first | apply invXP_ite | apply invXP_foldl | apply inv_XP | apply invX_ite | apply invX_foldl | apply invX_s | apply inv_P | apply invC_next | apply invC_ite | apply invC_fault | (apply inv_ofC; assumption) | (apply inv_fst; assumption)) | with_reducible intro _ | dsimp +zetaDelta only | split

theorem saQuery_inv (r d : Nat) (s : State) (h1 : StateInv s) :
    InvP (saQuery r d s) := by
  unfold saQuery; try dsimp only
  repeat' first | (with_reducible first | assumption | apply inv_ite | apply inv_ite1 | apply okR_inv | apply withSlot_inv) | simp only [↓inv_pair] | (with_reducible first | apply inv_P | (apply inv_fst; assumption)) | with_reducible intro _ | dsimp +zetaDelta only | split

theorem execSaQuery_inv (fn ring : Nat) (s : State) (h1 : StateInv s) :
    InvC (execSaQuery fn ring s) := by
  unfold execSaQuery; try dsimp only
  repeat' first | (with_reducible first | assumption | apply onDesc_inv | apply saQuery_inv) | simp only [↓inv_pair] | (with_reducible first | apply inv_P | apply invC_next | apply invC_ite | apply invC_fault | (apply inv_ofC; assumption) | (apply inv_fst; assumption)) | with_reducible intro _ | dsimp +zetaDelta only | split

theorem badSa_inv (s : State) (t : Nat) (h1 : StateInv s) :
    StateInv (badSa s t) := by
  unfold badSa; try dsimp only
  repeat' first | (with_reducible first | assumption | apply State.modStile_inv) | simp only [↓inv_mk] | with_reducible intro _ | dsimp +zetaDelta only | split

theorem espSeal_inv (s : State) (r die n : Nat) (fr : List Byte) (h1 : StateInv s) :
    InvP (espSeal s r die n fr) := by
  unfold espSeal; try dsimp only
  repeat' first | (with_reducible first | assumption | apply inv_ite | apply inv_ite1 | apply badSa_inv | apply countBytes_inv | apply State.modStile_inv | apply useCounter_inv) | simp only [↓inv_mk] | simp only [↓inv_pair] | (with_reducible first | apply inv_P | apply invO_none | apply invO_some | apply invO_ite | (apply inv_of; assumption) | (apply inv_fst; assumption)) | with_reducible intro _ | dsimp +zetaDelta only | split

theorem espOpen_inv (s : State) (r die n : Nat) (fr : List Byte) (h1 : StateInv s) :
    InvP (espOpen s r die n fr) := by
  unfold espOpen; try dsimp only
  repeat' first | (with_reducible first | assumption | apply inv_ite | apply inv_ite1 | apply badSa_inv | apply countBytes_inv | apply State.modStile_inv | apply State.putSlot_inv) | simp only [↓inv_mk] | simp only [↓inv_pair] | (with_reducible first | apply inv_P | (apply inv_fst; assumption)) | with_reducible intro _ | dsimp +zetaDelta only | split

theorem doSealRecovery_inv (t : Nat) (s : State) (h1 : StateInv s) :
    StateInv (doSealRecovery t s) := by
  unfold doSealRecovery; try dsimp only
  repeat' first | (with_reducible first | assumption | apply inv_ite | apply advanceTo_inv | apply State.modStile_inv | apply settleMode_inv) | simp only [↓inv_mk] | with_reducible intro _ | dsimp +zetaDelta only | split

theorem execSealRecoveryEnd_inv (tile8 : Nat) (s : State) (h1 : StateInv s) :
    InvC (execSealRecoveryEnd tile8 s) := by
  unfold execSealRecoveryEnd
  repeat' first | (with_reducible first | assumption | apply doSealRecovery_inv) | (with_reducible first | apply invC_next | apply invC_ite | apply invC_fault | (apply inv_ofC; assumption)) | with_reducible intro _

theorem doMcClaim_inv (claims : List Nat) (s : State) (h1 : StateInv s) :
    StateInv (doMcClaim claims s) := by
  unfold doMcClaim; try dsimp only
  repeat' first | (with_reducible first | assumption | apply inv_ite | apply advanceTo_inv | apply State.modSeal_inv) | simp only [↓inv_mk] | with_reducible intro _ | dsimp +zetaDelta only | split

theorem execMcLockClaim_inv (claims : List Nat) (s : State) (h1 : StateInv s) :
    InvC (execMcLockClaim claims s) := by
  unfold execMcLockClaim
  repeat' first | (with_reducible first | assumption | apply doMcClaim_inv) | (with_reducible first | apply invC_next | apply invC_ite | apply invC_fault | (apply inv_ofC; assumption)) | with_reducible intro _

theorem doMcRelease_inv (c : Nat) (s : State) (h1 : StateInv s) :
    StateInv (doMcRelease c s) := by
  unfold doMcRelease; try dsimp only
  repeat' first | (with_reducible first | assumption | apply inv_ite | apply advanceTo_inv | apply State.modSeal_inv) | simp only [↓inv_mk] | with_reducible intro _ | dsimp +zetaDelta only | split

theorem execMcLockRelease_inv (claimant : Nat) (s : State) (h1 : StateInv s) :
    InvC (execMcLockRelease claimant s) := by
  unfold execMcLockRelease
  repeat' first | (with_reducible first | assumption | apply doMcRelease_inv) | (with_reducible first | apply invC_next | apply invC_ite | apply invC_fault | (apply inv_ofC; assumption)) | with_reducible intro _

theorem doMcForced_inv (s : State) (h1 : StateInv s) :
    StateInv (doMcForced s) := by
  unfold doMcForced; try dsimp only
  repeat' first | (with_reducible first | assumption | apply inv_ite | apply advanceTo_inv | apply State.modSeal_inv) | simp only [↓inv_mk] | with_reducible intro _ | dsimp +zetaDelta only | split

theorem execMcLockForcedRelease_inv (s : State) (h1 : StateInv s) :
    InvC (execMcLockForcedRelease s) := by
  unfold execMcLockForcedRelease
  repeat' first | (with_reducible first | assumption | apply doMcForced_inv) | (with_reducible first | apply invC_next | apply invC_ite | apply invC_fault | (apply inv_ofC; assumption)) | with_reducible intro _

theorem State.modCv_inv (s : State) (n : Nat) (f : CvUnit → CvUnit) (h1 : StateInv s) :
    StateInv (State.modCv s n f) := by
  unfold State.modCv; try dsimp only
  repeat' first | (with_reducible first | assumption | apply State.modWx_inv) | simp only [↓inv_mk] | with_reducible intro _ | dsimp +zetaDelta only | split

theorem State.modMon_inv (s : State) (n : Nat) (f : AliveMon → AliveMon) (h1 : StateInv s) :
    StateInv (State.modMon s n f) := by
  unfold State.modMon; try dsimp only
  repeat' first | (with_reducible first | assumption | apply State.modWx_inv) | simp only [↓inv_mk] | with_reducible intro _ | dsimp +zetaDelta only | split

theorem checkRecord_inv (s : State) (n value expect : Nat) (mismatch aborted : Bool) (h1 : StateInv s) :
    StateInv (checkRecord s n value expect mismatch aborted) := by
  unfold checkRecord
  repeat' first | (with_reducible first | assumption | apply feedPut_inv) | split

theorem cvEnd_inv (n : Nat) (s : State) (h1 : StateInv s) :
    StateInv (cvEnd n s) := by
  unfold cvEnd; try dsimp only
  repeat' first | (with_reducible first | assumption | apply inv_ite | apply checkRecord_inv | apply State.modCv_inv | apply postEvent_inv | apply progress_inv) | simp only [↓inv_mk] | with_reducible intro _ | dsimp +zetaDelta only | split

theorem execCvWindowEnd_inv (unit : Nat) (s : State) (h1 : StateInv s) :
    InvC (execCvWindowEnd unit s) := by
  unfold execCvWindowEnd
  repeat' first | (with_reducible first | assumption | apply inv_ite | apply cvEnd_inv) | (with_reducible first | apply invC_next | apply invC_ite | apply invC_fault | (apply inv_ofC; assumption)) | with_reducible intro _

theorem amReport_inv (s : State) (k kind v last : Nat) (h1 : StateInv s) :
    StateInv (amReport s k kind v last) := by
  unfold amReport; try dsimp only
  repeat' first | (with_reducible first | assumption | apply inv_ite | apply feedPut_inv | apply State.modMon_inv | apply postEvent_inv) | simp only [↓inv_mk] | with_reducible intro _ | dsimp +zetaDelta only | split

theorem amTake_inv (k : Nat) (v : Option Nat) (quiet : Bool) (s : State) (h1 : StateInv s) :
    StateInv (amTake k v quiet s) := by
  unfold amTake; try dsimp only
  repeat' first | (with_reducible first | assumption | apply inv_ite | apply amReport_inv | apply State.modMon_inv) | simp only [↓inv_mk] | with_reducible intro _ | dsimp +zetaDelta only | split

theorem cvTake_inv (n : Nat) (x : Seen) (bs : List Byte) (s : State) (h1 : StateInv s) :
    StateInv (cvTake n x bs s) := by
  unfold cvTake; try dsimp only
  repeat' first | (with_reducible first | assumption | apply inv_ite | apply inv_foldl | apply amTake_inv | apply cvEnd_inv | apply State.modCv_inv | apply progress_inv) | simp only [↓inv_mk] | with_reducible intro _ | dsimp +zetaDelta only | split

theorem tapUnit_inv (s : State) (x : Seen) (bs : List Byte) (h1 : StateInv s) :
    StateInv (tapUnit s x bs) := by
  unfold tapUnit; try dsimp only
  repeat' first | (with_reducible first | assumption | apply inv_ite | apply inv_foldl | apply cvTake_inv) | with_reducible intro _ | dsimp +zetaDelta only | split

theorem cvAbort_inv (n : Nat) (s : State) (h1 : StateInv s) :
    StateInv (cvAbort n s) := by
  unfold cvAbort; try dsimp only
  repeat' first | (with_reducible first | assumption | apply inv_ite | apply checkRecord_inv | apply cvEnd_inv | apply State.modCv_inv | apply postEvent_inv | apply progress_inv) | simp only [↓inv_mk] | with_reducible intro _ | dsimp +zetaDelta only | split

theorem cvAbortAll_inv (s : State) (hit : CvUnit → Bool) (h1 : StateInv s) :
    StateInv (cvAbortAll s hit) := by
  unfold cvAbortAll; try dsimp only
  repeat' first | (with_reducible first | assumption | apply inv_ite | apply inv_foldl | apply cvAbort_inv) | with_reducible intro _ | dsimp +zetaDelta only | split

theorem cvUnskip_inv (s : State) (p : Nat) (h1 : StateInv s) :
    StateInv (cvUnskip s p) := by
  unfold cvUnskip; try dsimp only
  repeat' first | (with_reducible first | assumption | apply inv_ite | apply inv_foldl | apply State.modCv_inv) | simp only [↓inv_mk] | with_reducible intro _ | dsimp +zetaDelta only | split

theorem cvAbortPort_inv (s : State) (p : Nat) (h1 : StateInv s) :
    StateInv (cvAbortPort s p) := by
  unfold cvAbortPort; try dsimp only
  repeat' first | (with_reducible first | assumption | apply cvAbortAll_inv | apply cvUnskip_inv) | with_reducible intro _ | dsimp +zetaDelta only | split

theorem cvAbortIf_inv (s : State) (j : Nat) (h1 : StateInv s) :
    StateInv (cvAbortIf s j) := by
  unfold cvAbortIf; try dsimp only
  repeat' first | (with_reducible first | assumption | apply cvAbortAll_inv) | with_reducible intro _ | dsimp +zetaDelta only | split

theorem cvAbortSum_inv (s : State) (t : Nat) (h1 : StateInv s) :
    StateInv (cvAbortSum s t) := by
  unfold cvAbortSum; try dsimp only
  repeat' first | (with_reducible first | assumption | apply cvAbortAll_inv) | with_reducible intro _ | dsimp +zetaDelta only | split

theorem execCvWindowAbort_inv (unit : Nat) (s : State) (h1 : StateInv s) :
    InvC (execCvWindowAbort unit s) := by
  unfold execCvWindowAbort
  repeat' first | (with_reducible first | assumption | apply inv_ite | apply cvAbort_inv) | (with_reducible first | apply invC_next | apply invC_ite | apply invC_fault | (apply inv_ofC; assumption)) | with_reducible intro _

theorem State.modPort_inv (s : State) (p : Nat) (f : APort → APort) (h1 : StateInv s) :
    StateInv (State.modPort s p f) := by
  unfold State.modPort; try dsimp only
  repeat' first | (with_reducible first | assumption) | simp only [↓inv_mk] | dsimp +zetaDelta only | split

theorem postPort_inv (s : State) (p code result : Nat) (h1 : StateInv s) :
    StateInv (postPort s p code result) := by
  unfold postPort
  repeat' first | (with_reducible first | assumption | apply postEvent_inv)

theorem dropAt_inv (s : State) (p : Nat) (h1 : StateInv s) :
    StateInv (dropAt s p) := by
  unfold dropAt; try dsimp only
  repeat' first | (with_reducible first | assumption | apply State.modPort_inv) | simp only [↓inv_mk] | with_reducible intro _ | dsimp +zetaDelta only | split

theorem portReg_inv (s : State) (r p : Nat) (act : State → State) (h1 : StateInv s) (h2 : ∀ (y0 : State), StateInv y0 → StateInv (act y0)) :
    StateInv (portReg s r p act) := by
  unfold portReg; try dsimp only
  repeat' first | (with_reducible first | assumption | apply inv_ite | apply h2 | apply State.modFn_inv | apply offAccess_inv) | simp only [↓inv_mk] | with_reducible intro _ | dsimp +zetaDelta only | split

theorem sendOn_inv (s : State) (p mask : Nat) (bs : List Byte) (h1 : StateInv s) :
    StateInv (sendOn s p mask bs) := by
  unfold sendOn; try dsimp only
  repeat' first | (with_reducible first | assumption | apply emit_inv | apply State.modPort_inv) | simp only [↓inv_mk] | with_reducible intro _ | dsimp +zetaDelta only | split

theorem sendFlit_inv (s : State) (p : Nat) (bs : List Byte) (h1 : StateInv s) :
    StateInv (sendFlit s p bs) := by
  unfold sendFlit
  repeat' first | (with_reducible first | assumption | apply sendOn_inv)

theorem sendTraining_inv (s : State) (p : Nat) (h1 : StateInv s) :
    StateInv (sendTraining s p) := by
  unfold sendTraining
  repeat' first | (with_reducible first | assumption | apply sendOn_inv)

theorem lightUnused_inv (s : State) (p : Nat) (h1 : StateInv s) :
    StateInv (lightUnused s p) := by
  unfold lightUnused; try dsimp only
  repeat' first | (with_reducible first | assumption | apply inv_ite | apply sendOn_inv) | with_reducible intro _ | dsimp +zetaDelta only

theorem enterTrain_inv (s : State) (p : Nat) (h1 : StateInv s) :
    StateInv (enterTrain s p) := by
  unfold enterTrain; try dsimp only
  repeat' first | (with_reducible first | assumption | apply State.modPort_inv | apply sendTraining_inv) | simp only [↓inv_mk] | with_reducible intro _ | dsimp +zetaDelta only | split

theorem checkDetect_inv (s : State) (p : Nat) (h1 : StateInv s) :
    StateInv (checkDetect s p) := by
  unfold checkDetect; try dsimp only
  repeat' first | (with_reducible first | assumption | apply inv_ite | apply enterTrain_inv | apply State.modPort_inv) | simp only [↓inv_mk] | with_reducible intro _ | dsimp +zetaDelta only | split

theorem enterDetect_inv (s : State) (p : Nat) (h1 : StateInv s) :
    StateInv (enterDetect s p) := by
  unfold enterDetect; try dsimp only
  repeat' first | (with_reducible first | assumption | apply checkDetect_inv | apply State.modPort_inv) | simp only [↓inv_mk] | with_reducible intro _ | dsimp +zetaDelta only | split

theorem tryOpen_inv (s : State) (p : Nat) (h1 : StateInv s) :
    StateInv (tryOpen s p) := by
  unfold tryOpen; try dsimp only
  repeat' first | (with_reducible first | assumption | apply inv_ite | apply enterDetect_inv | apply State.modPort_inv) | simp only [↓inv_mk] | with_reducible intro _ | dsimp +zetaDelta only | split

theorem doPortEnable_inv (r p : Nat) (s : State) (h1 : StateInv s) :
    StateInv (doPortEnable r p s) := by
  unfold doPortEnable; try dsimp only
  repeat' first | (with_reducible first | assumption | apply State.modPort_inv | apply portReg_inv | apply tryOpen_inv) | simp only [↓inv_mk] | with_reducible intro _ | dsimp +zetaDelta only | split

theorem execPortEnable_inv (fn port : Nat) (s : State) (h1 : StateInv s) :
    InvC (execPortEnable fn port s) := by
  unfold execPortEnable
  repeat' first | (with_reducible first | assumption | apply doPortEnable_inv | apply gated_inv) | (with_reducible first | apply invC_next | apply invC_ite | apply invC_fault | (apply inv_ofC; assumption)) | with_reducible intro _

theorem enterRetrainWith_inv (s : State) (p peer : Nat) (h1 : StateInv s) :
    StateInv (enterRetrainWith s p peer) := by
  unfold enterRetrainWith; try dsimp only
  repeat' first | (with_reducible first | assumption | apply State.modPort_inv | apply sendTraining_inv) | simp only [↓inv_mk] | with_reducible intro _ | dsimp +zetaDelta only | split

theorem enterRetrain_inv (s : State) (p : Nat) (h1 : StateInv s) :
    StateInv (enterRetrain s p) := by
  unfold enterRetrain
  repeat' first | (with_reducible first | assumption | apply enterRetrainWith_inv)

theorem retrainIfActive_inv (s : State) (p : Nat) (h1 : StateInv s) :
    StateInv (retrainIfActive s p) := by
  unfold retrainIfActive
  repeat' first | (with_reducible first | assumption | apply inv_ite | apply enterRetrain_inv) | with_reducible intro _

theorem execPortRetrain_inv (fn port : Nat) (s : State) (h1 : StateInv s) :
    InvC (execPortRetrain fn port s) := by
  unfold execPortRetrain; try dsimp only
  repeat' first | (with_reducible first | assumption | apply gated_inv | apply portReg_inv | apply retrainIfActive_inv) | (with_reducible first | apply invC_next | apply invC_ite | apply invC_fault | (apply inv_ofC; assumption)) | with_reducible intro _ | dsimp +zetaDelta only | split

theorem doRxLight_inv (p lit : Nat) (s : State) (h1 : StateInv s) :
    StateInv (doRxLight p lit s) := by
  unfold doRxLight; try dsimp only
  repeat' first | (with_reducible first | assumption | apply inv_ite | apply checkDetect_inv | apply enterRetrain_inv | apply State.modPort_inv) | simp only [↓inv_mk] | with_reducible intro _ | dsimp +zetaDelta only | split

theorem execRxLightChange_inv (port : Nat) (lit : BitVec 16) (s : State) (h1 : StateInv s) :
    InvC (execRxLightChange port lit s) := by
  unfold execRxLightChange
  repeat' first | (with_reducible first | assumption | apply doRxLight_inv) | (with_reducible first | apply invC_next | apply invC_ite | apply invC_fault | (apply inv_ofC; assumption)) | with_reducible intro _

theorem doDetectHalf_inv (p : Nat) (s : State) (h1 : StateInv s) :
    StateInv (doDetectHalf p s) := by
  unfold doDetectHalf
  repeat' first | (with_reducible first | assumption | apply advanceTo_inv | apply enterTrain_inv) | split

theorem execDetectHalfTimeout_inv (port : Nat) (s : State) (h1 : StateInv s) :
    InvC (execDetectHalfTimeout port s) := by
  unfold execDetectHalfTimeout
  repeat' first | (with_reducible first | assumption | apply doDetectHalf_inv) | (with_reducible first | apply invC_next | apply invC_ite | apply invC_fault | (apply inv_ofC; assumption)) | with_reducible intro _

theorem doLossOfLight_inv (p : Nat) (s : State) (h1 : StateInv s) :
    StateInv (doLossOfLight p s) := by
  unfold doLossOfLight; try dsimp only
  repeat' first | (with_reducible first | assumption | apply inv_ite | apply advanceTo_inv | apply State.modPort_inv | apply postPort_inv) | simp only [↓inv_mk] | with_reducible intro _ | dsimp +zetaDelta only | split

theorem execLossOfLight_inv (port : Nat) (s : State) (h1 : StateInv s) :
    InvC (execLossOfLight port s) := by
  unfold execLossOfLight
  repeat' first | (with_reducible first | assumption | apply doLossOfLight_inv) | (with_reducible first | apply invC_next | apply invC_ite | apply invC_fault | (apply inv_ofC; assumption)) | with_reducible intro _

theorem doTrainTimeout_inv (p : Nat) (s : State) (h1 : StateInv s) :
    StateInv (doTrainTimeout p s) := by
  unfold doTrainTimeout
  repeat' first | (with_reducible first | assumption | apply inv_ite | apply advanceTo_inv | apply enterDetect_inv) | with_reducible intro _

theorem execTrainTimeout_inv (port : Nat) (s : State) (h1 : StateInv s) :
    InvC (execTrainTimeout port s) := by
  unfold execTrainTimeout
  repeat' first | (with_reducible first | assumption | apply doTrainTimeout_inv) | (with_reducible first | apply invC_next | apply invC_ite | apply invC_fault | (apply inv_ofC; assumption)) | with_reducible intro _

theorem execDownTimeout_inv (port : Nat) (s : State) (h1 : StateInv s) :
    InvC (execDownTimeout port s) := by
  unfold execDownTimeout
  repeat' first | (with_reducible first | assumption | apply inv_ite | apply advanceTo_inv | apply enterDetect_inv) | (with_reducible first | apply invC_next | apply invC_ite | apply invC_fault | (apply inv_ofC; assumption)) | with_reducible intro _

theorem enterActive_inv (s : State) (p w : Nat) (h1 : StateInv s) :
    StateInv (enterActive s p w) := by
  unfold enterActive; try dsimp only
  repeat' first | (with_reducible first | assumption | apply inv_ite | apply lightUnused_inv | apply State.modPort_inv) | simp only [↓inv_mk] | with_reducible intro _ | dsimp +zetaDelta only | split

theorem resend_inv (p : Nat) (s : State) (u : TxFlit) (h1 : StateInv s) :
    StateInv (resend p s u) := by
  unfold resend
  repeat' first | (with_reducible first | assumption | apply sendFlit_inv)

theorem resendAll_inv (p : Nat) (s : State) (h1 : StateInv s) :
    StateInv (resendAll p s) := by
  unfold resendAll; try dsimp only
  repeat' first | (with_reducible first | assumption | apply inv_foldl | apply State.modPort_inv | apply resend_inv) | simp only [↓inv_mk] | with_reducible intro _ | dsimp +zetaDelta only | split

theorem endRetrain_inv (s : State) (p w : Nat) (h1 : StateInv s) :
    StateInv (endRetrain s p w) := by
  unfold endRetrain; try dsimp only
  repeat' first | (with_reducible first | assumption | apply inv_ite | apply enterActive_inv | apply State.modPort_inv | apply postPort_inv | apply resendAll_inv) | simp only [↓inv_mk] | with_reducible intro _ | dsimp +zetaDelta only | split

theorem enterCreditInit_inv (s : State) (p w : Nat) (h1 : StateInv s) :
    StateInv (enterCreditInit s p w) := by
  unfold enterCreditInit; try dsimp only
  repeat' first | (with_reducible first | assumption | apply State.modPort_inv | apply sendTraining_inv) | simp only [↓inv_mk] | with_reducible intro _ | dsimp +zetaDelta only | split

theorem checkReadyPort_inv (s : State) (p : Nat) (h1 : StateInv s) :
    StateInv (checkReadyPort s p) := by
  unfold checkReadyPort; try dsimp only
  repeat' first | (with_reducible first | assumption | apply inv_ite | apply enterActive_inv | apply postPort_inv) | with_reducible intro _ | dsimp +zetaDelta only

theorem doTraining_inv (p own : Nat) (fl : List Byte) (s : State) (h1 : StateInv s) :
    StateInv (doTraining p own fl s) := by
  unfold doTraining; try dsimp only
  repeat' first | (with_reducible first | assumption | apply inv_ite | apply checkReadyPort_inv | apply endRetrain_inv | apply enterCreditInit_inv | apply enterRetrainWith_inv | apply State.modPort_inv | apply sendTraining_inv) | simp only [↓inv_mk] | with_reducible intro _ | dsimp +zetaDelta only | split

theorem execTrainingFlitRx_inv (port : Nat) (ownGood : BitVec 16) (flit : List (BitVec 8)) (s : State) (h1 : StateInv s) :
    InvC (execTrainingFlitRx port ownGood flit s) := by
  unfold execTrainingFlitRx
  repeat' first | (with_reducible first | assumption | apply doTraining_inv) | (with_reducible first | apply invC_next | apply invC_ite | apply invC_fault | (apply inv_ofC; assumption)) | with_reducible intro _

theorem doWidenCheck_inv (p : Nat) (s : State) (h1 : StateInv s) :
    StateInv (doWidenCheck p s) := by
  unfold doWidenCheck; try dsimp only
  repeat' first | (with_reducible first | assumption | apply inv_ite | apply advanceTo_inv | apply lightUnused_inv | apply State.modPort_inv | apply postPort_inv) | simp only [↓inv_mk] | with_reducible intro _ | dsimp +zetaDelta only | split

theorem execWidenCheck_inv (port : Nat) (s : State) (h1 : StateInv s) :
    InvC (execWidenCheck port s) := by
  unfold execWidenCheck
  repeat' first | (with_reducible first | assumption | apply doWidenCheck_inv) | (with_reducible first | apply invC_next | apply invC_ite | apply invC_fault | (apply inv_ofC; assumption)) | with_reducible intro _

theorem doRetrainAt_inv (p : Nat) (s : State) (h1 : StateInv s) :
    StateInv (doRetrainAt p s) := by
  unfold doRetrainAt; try dsimp only
  repeat' first | (with_reducible first | assumption | apply inv_ite | apply advanceToPtp_inv | apply State.modPort_inv | apply retrainIfActive_inv) | simp only [↓inv_mk] | with_reducible intro _ | dsimp +zetaDelta only | split

theorem execRetrainAtReached_inv (port : Nat) (s : State) (h1 : StateInv s) :
    InvC (execRetrainAtReached port s) := by
  unfold execRetrainAtReached
  repeat' first | (with_reducible first | assumption | apply doRetrainAt_inv) | (with_reducible first | apply invC_next | apply invC_ite | apply invC_fault | (apply inv_ofC; assumption)) | with_reducible intro _

theorem doLaneLoss_inv (p lane : Nat) (s : State) (h1 : StateInv s) :
    StateInv (doLaneLoss p lane s) := by
  unfold doLaneLoss; try dsimp only
  repeat' first | (with_reducible first | assumption | apply inv_ite | apply enterRetrain_inv | apply State.modPort_inv) | simp only [↓inv_mk] | with_reducible intro _ | dsimp +zetaDelta only | split

theorem execLaneAlignmentLoss_inv (port lane : Nat) (s : State) (h1 : StateInv s) :
    InvC (execLaneAlignmentLoss port lane s) := by
  unfold execLaneAlignmentLoss
  repeat' first | (with_reducible first | assumption | apply doLaneLoss_inv) | (with_reducible first | apply invC_next | apply invC_ite | apply invC_fault | (apply inv_ofC; assumption)) | with_reducible intro _

theorem doAckTimer_inv (p : Nat) (s : State) (h1 : StateInv s) :
    StateInv (doAckTimer p s) := by
  unfold doAckTimer
  repeat' first | (with_reducible first | assumption | apply inv_ite | apply sendFlit_inv) | with_reducible intro _

theorem execAckTimer_inv (port : Nat) (s : State) (h1 : StateInv s) :
    InvC (execAckTimer port s) := by
  unfold execAckTimer
  repeat' first | (with_reducible first | assumption | apply doAckTimer_inv) | (with_reducible first | apply invC_next | apply invC_ite | apply invC_fault | (apply inv_ofC; assumption)) | with_reducible intro _

theorem doReplayRun_inv (p : Nat) (s : State) (h1 : StateInv s) :
    StateInv (doReplayRun p s) := by
  unfold doReplayRun; try dsimp only
  repeat' first | (with_reducible first | assumption | apply inv_ite | apply enterRetrain_inv | apply State.modPort_inv | apply resendAll_inv) | simp only [↓inv_mk] | with_reducible intro _ | dsimp +zetaDelta only | split

theorem execReplayRun_inv (port : Nat) (s : State) (h1 : StateInv s) :
    InvC (execReplayRun port s) := by
  unfold execReplayRun
  repeat' first | (with_reducible first | assumption | apply doReplayRun_inv) | (with_reducible first | apply invC_next | apply invC_ite | apply invC_fault | (apply inv_ofC; assumption)) | with_reducible intro _

theorem pushEgress_inv (s : State) (p : Nat) (e : Egress) (h1 : StateInv s) :
    StateInv (pushEgress s p e) := by
  unfold pushEgress; try dsimp only
  repeat' first | (with_reducible first | assumption | apply State.modPort_inv) | simp only [↓inv_mk] | with_reducible intro _ | dsimp +zetaDelta only | split

theorem feedEgress_inv (p : Nat) (z0 : List Egress) (z1 : State) (h1 : StateInv z1) :
    StateInv (feedEgress p z0 z1) := by
  fun_induction feedEgress p z0 z1 <;> try dsimp +zetaDelta only
  all_goals repeat' first | (with_reducible first | assumption | apply inv_ite | apply State.modPort_inv | apply pushEgress_inv) | simp only [↓inv_mk] | with_reducible apply_assumption -exfalso | with_reducible intro _ | dsimp +zetaDelta only | split

theorem fillEgress_inv (s : State) (p : Nat) (h1 : StateInv s) :
    StateInv (fillEgress s p) := by
  unfold fillEgress; try dsimp only
  repeat' first | (with_reducible first | assumption | apply feedEgress_inv | apply State.modPort_inv) | simp only [↓inv_mk] | with_reducible intro _ | dsimp +zetaDelta only | split

theorem pushEngine_inv (s : State) (p : Nat) (e : Egress) (h1 : StateInv s) :
    StateInv (pushEngine s p e) := by
  unfold pushEngine; try dsimp only
  repeat' first | (with_reducible first | assumption | apply fillEgress_inv | apply State.modPort_inv) | simp only [↓inv_mk] | with_reducible intro _ | dsimp +zetaDelta only | split

theorem engineCpl_inv (s : State) (to_ tag status portField : Nat) (h1 : StateInv s) :
    StateInv (engineCpl s to_ tag status portField) := by
  unfold engineCpl; try dsimp only
  repeat' first | (with_reducible first | assumption | apply inv_ite | apply dropAt_inv | apply pushEngine_inv) | simp only [↓inv_mk] | with_reducible intro _ | dsimp +zetaDelta only | split

theorem windowMiss_inv (s : State) (p a : Nat) (h1 : StateInv s) :
    StateInv (windowMiss s p a) := by
  unfold windowMiss; try dsimp only
  repeat' first | (with_reducible first | assumption | apply inv_ite | apply State.modPort_inv | apply postPort_inv) | simp only [↓inv_mk] | with_reducible intro _ | dsimp +zetaDelta only | split

theorem failTranslate_inv (s : State) (p : Nat) (t : Txn) (h1 : StateInv s) :
    StateInv (failTranslate s p t) := by
  unfold failTranslate
  repeat' first | (with_reducible first | assumption | apply inv_ite | apply dropAt_inv | apply engineCpl_inv | apply windowMiss_inv) | with_reducible intro _

theorem copyTo_inv (p : Nat) (w : Wait) (s : State) (d : Nat × Nat) (h1 : StateInv s) :
    StateInv (copyTo p w s d) := by
  unfold copyTo; try dsimp only
  repeat' first | (with_reducible first | assumption | apply inv_ite | apply dropAt_inv | apply pushEgress_inv) | simp only [↓inv_mk] | with_reducible intro _ | dsimp +zetaDelta only | split

theorem placeTxn_inv (s : State) (p : Nat) (w : Wait) (h1 : StateInv s) :
    InvO (placeTxn s p w) := by
  unfold placeTxn; try dsimp only
  repeat' first | (with_reducible first | assumption | apply inv_ite | apply inv_foldl | apply copyTo_inv | apply engineCpl_inv | apply State.modPort_inv) | simp only [↓inv_mk] | (with_reducible first | apply invO_none | apply invO_some | apply invO_ite | (apply inv_of; assumption) | apply inv_getD) | with_reducible intro _ | dsimp +zetaDelta only | split

theorem waitAt_inv (s : State) (p : Nat) (w : Wait) (h1 : StateInv s) :
    StateInv (waitAt s p w) := by
  unfold waitAt; try dsimp only
  repeat' first | (with_reducible first | assumption | apply State.modPort_inv) | simp only [↓inv_mk] | with_reducible intro _ | dsimp +zetaDelta only | split

theorem enter_inv (s : State) (p : Nat) (w : Wait) (h1 : StateInv s) :
    StateInv (enter s p w) := by
  unfold enter
  repeat' first | (with_reducible first | assumption | apply inv_ite | apply placeTxn_inv | apply waitAt_inv) | (with_reducible first | apply invO_none | apply invO_some | apply invO_ite | (apply inv_of; assumption)) | with_reducible intro _ | split

theorem reoffer_inv (p : Nat) (z0 : List Wait) (z1 : State) (h1 : StateInv z1) :
    StateInv (reoffer p z0 z1) := by
  fun_induction reoffer p z0 z1 <;> try dsimp +zetaDelta only
  all_goals repeat' first | (with_reducible first | assumption | apply enter_inv) | with_reducible apply_assumption -exfalso | dsimp +zetaDelta only | split

theorem retryIngress_inv (s : State) (h1 : StateInv s) :
    StateInv (retryIngress s) := by
  unfold retryIngress; try dsimp only
  repeat' first | (with_reducible first | assumption | apply inv_foldl | apply State.modPort_inv | apply reoffer_inv) | simp only [↓inv_mk] | with_reducible intro _ | dsimp +zetaDelta only | split

theorem apRx_inv (s : State) (p : Nat) (t : Txn) (h1 : StateInv s) :
    StateInv (apRx s p t) := by
  unfold apRx; try dsimp only
  repeat' first | (with_reducible first | assumption | apply inv_ite | apply addTotal_inv | apply tapUnit_inv) | simp only [↓inv_mk] | with_reducible intro _ | dsimp +zetaDelta only | split

theorem startTxn_inv (s : State) (p at_ : Nat) (t : Txn) (h1 : StateInv s) :
    InvP (startTxn s p at_ t) := by
  unfold startTxn; try dsimp only
  repeat' first | (with_reducible first | assumption | apply enter_inv | apply failTranslate_inv) | simp only [↓inv_mk] | simp only [↓inv_pair] | (with_reducible first | apply inv_P | (apply inv_fst; assumption)) | dsimp +zetaDelta only | split

theorem startCpl_inv (s : State) (p at_ : Nat) (t : Txn) (h1 : StateInv s) :
    InvP (startCpl s p at_ t) := by
  unfold startCpl; try dsimp only
  repeat' first | (with_reducible first | assumption | apply inv_ite | apply inv_ite1 | apply dropAt_inv | apply enter_inv | apply State.modPort_inv) | simp only [↓inv_mk] | simp only [↓inv_pair] | (with_reducible first | apply inv_P | (apply inv_fst; assumption)) | with_reducible intro _ | dsimp +zetaDelta only | split

theorem ingressTxn_inv (p : Nat) (t : Txn) (s : State) (h1 : StateInv s) :
    StateInv (ingressTxn p t s) := by
  unfold ingressTxn; try dsimp only
  repeat' first | (with_reducible first | assumption | apply inv_ite | apply inv_ite1 | apply apRx_inv | apply dropAt_inv | apply engineCpl_inv | apply startTxn_inv) | simp only [↓inv_pair] | (with_reducible first | apply inv_P | (apply inv_fst; assumption)) | with_reducible intro _ | dsimp +zetaDelta only | split

theorem execFabricWrite_inv (port addr : Nat) (data : List (BitVec 8)) (s : State) (h1 : StateInv s) :
    InvC (execFabricWrite port addr data s) := by
  unfold execFabricWrite; try dsimp only
  repeat' first | (with_reducible first | assumption | apply ingressTxn_inv) | simp only [↓inv_mk] | (with_reducible first | apply invC_next | apply invC_ite | apply invC_fault | (apply inv_ofC; assumption)) | with_reducible intro _ | dsimp +zetaDelta only | split

theorem execFabricWriteAcked_inv (port tag addr : Nat) (data : List (BitVec 8)) (s : State) (h1 : StateInv s) :
    InvC (execFabricWriteAcked port tag addr data s) := by
  unfold execFabricWriteAcked; try dsimp only
  repeat' first | (with_reducible first | assumption | apply ingressTxn_inv) | simp only [↓inv_mk] | (with_reducible first | apply invC_next | apply invC_ite | apply invC_fault | (apply inv_ofC; assumption)) | with_reducible intro _ | dsimp +zetaDelta only | split

theorem execFabricRead_inv (port tag addr length : Nat) (s : State) (h1 : StateInv s) :
    InvC (execFabricRead port tag addr length s) := by
  unfold execFabricRead; try dsimp only
  repeat' first | (with_reducible first | assumption | apply ingressTxn_inv) | simp only [↓inv_mk] | (with_reducible first | apply invC_next | apply invC_ite | apply invC_fault | (apply inv_ofC; assumption)) | with_reducible intro _ | dsimp +zetaDelta only | split

theorem doFabricCpl_inv (p toPort tag status : Nat) (data : List Byte) (s : State) (h1 : StateInv s) :
    StateInv (doFabricCpl p toPort tag status data s) := by
  unfold doFabricCpl; try dsimp only
  repeat' first | (with_reducible first | assumption | apply inv_ite | apply inv_ite1 | apply apRx_inv | apply dropAt_inv | apply retryIngress_inv | apply startCpl_inv) | simp only [↓inv_mk] | simp only [↓inv_pair] | (with_reducible first | apply inv_P | (apply inv_fst; assumption)) | with_reducible intro _ | dsimp +zetaDelta only | split

theorem execFabricCpl_inv (port toPort tag status : Nat) (data : List (BitVec 8)) (s : State) (h1 : StateInv s) :
    InvC (execFabricCpl port toPort tag status data s) := by
  unfold execFabricCpl
  repeat' first | (with_reducible first | assumption | apply doFabricCpl_inv) | (with_reducible first | apply invC_next | apply invC_ite | apply invC_fault | (apply inv_ofC; assumption)) | with_reducible intro _

theorem endPw_inv (s : State) (status bp be : Nat) (h1 : StateInv s) :
    StateInv (endPw s status bp be) := by
  unfold endPw; try dsimp only
  repeat' first | (with_reducible first | assumption) | simp only [↓inv_mk] | dsimp +zetaDelta only | split

theorem doPwCommit_inv (r mask : Nat) (s : State) (h1 : StateInv s) :
    StateInv (doPwCommit r mask s) := by
  unfold doPwCommit; try dsimp only
  repeat' first | (with_reducible first | assumption | apply inv_ite | apply endPw_inv) | simp only [↓inv_mk] | with_reducible intro _ | dsimp +zetaDelta only | split

theorem execPwCommit_inv (fn : Nat) (mask : BitVec 32) (s : State) (h1 : StateInv s) :
    InvC (execPwCommit fn mask s) := by
  unfold execPwCommit
  repeat' first | (with_reducible first | assumption | apply doPwCommit_inv | apply gated_inv) | (with_reducible first | apply invC_next | apply invC_ite | apply invC_fault | (apply inv_ofC; assumption)) | with_reducible intro _

theorem doActivate_inv (s : State) (h1 : StateInv s) :
    StateInv (doActivate s) := by
  unfold doActivate; try dsimp only
  repeat' first | (with_reducible first | assumption | apply inv_ite | apply inv_foldl | apply endPw_inv | apply State.modPort_inv) | simp only [↓inv_mk] | with_reducible intro _ | dsimp +zetaDelta only | split

theorem execWindowsActivate_inv (s : State) (h1 : StateInv s) :
    InvC (execWindowsActivate s) := by
  unfold execWindowsActivate
  repeat' first | (with_reducible first | assumption | apply doActivate_inv) | (with_reducible first | apply invC_next | apply invC_ite | apply invC_fault | (apply inv_ofC; assumption)) | with_reducible intro _

theorem checkDrained_inv (s : State) (p : Nat) (h1 : StateInv s) :
    StateInv (checkDrained s p) := by
  unfold checkDrained; try dsimp only
  repeat' first | (with_reducible first | assumption | apply inv_ite | apply State.modPort_inv | apply postPort_inv) | simp only [↓inv_mk] | with_reducible intro _ | dsimp +zetaDelta only | split

theorem engineWrites_inv (s : State) (p cls : Nat) (eng : Eng) (a : Nat) (bs : List Byte) (h1 : StateInv s) :
    StateInv (engineWrites s p cls eng a bs) := by
  unfold engineWrites; try dsimp only
  repeat' first | (with_reducible first | assumption | apply inv_ite | apply inv_foldl | apply dropAt_inv | apply pushEngine_inv) | simp only [↓inv_mk] | with_reducible intro _ | dsimp +zetaDelta only | split

theorem engineRead__inv (s : State) (p a n : Nat) (h1 : StateInv s) :
    StateInv (engineRead_ s p a n) := by
  unfold engineRead_; try dsimp only
  repeat' first | (with_reducible first | assumption | apply inv_ite | apply pushEngine_inv) | simp only [↓inv_mk] | with_reducible intro _ | dsimp +zetaDelta only | split

theorem doAfGateCommit_inv (r p : Nat) (s : State) (h1 : StateInv s) :
    StateInv (doAfGateCommit r p s) := by
  unfold doAfGateCommit; try dsimp only
  repeat' first | (with_reducible first | assumption | apply State.modPort_inv | apply portReg_inv) | simp only [↓inv_mk] | with_reducible intro _ | dsimp +zetaDelta only | split

theorem execAfGateCommit_inv (fn port : Nat) (s : State) (h1 : StateInv s) :
    InvC (execAfGateCommit fn port s) := by
  unfold execAfGateCommit
  repeat' first | (with_reducible first | assumption | apply doAfGateCommit_inv | apply gated_inv) | (with_reducible first | apply invC_next | apply invC_ite | apply invC_fault | (apply inv_ofC; assumption)) | with_reducible intro _

theorem doVcCredits_inv (r p v : Nat) (s : State) (h1 : StateInv s) :
    StateInv (doVcCredits r p v s) := by
  unfold doVcCredits; try dsimp only
  repeat' first | (with_reducible first | assumption | apply inv_ite | apply inv_foldl | apply State.modPort_inv | apply portReg_inv) | simp only [↓inv_mk] | with_reducible intro _ | dsimp +zetaDelta only | split

theorem execVcCreditsWrite_inv (fn port : Nat) (units : BitVec 32) (s : State) (h1 : StateInv s) :
    InvC (execVcCreditsWrite fn port units s) := by
  unfold execVcCreditsWrite
  repeat' first | (with_reducible first | assumption | apply doVcCredits_inv | apply gated_inv) | (with_reducible first | apply invC_next | apply invC_ite | apply invC_fault | (apply inv_ofC; assumption)) | with_reducible intro _

theorem doAlert_inv (p : Nat) (low : Bool) (s : State) (h1 : StateInv s) :
    StateInv (doAlert p low s) := by
  unfold doAlert; try dsimp only
  repeat' first | (with_reducible first | assumption | apply inv_ite | apply State.modPort_inv | apply postPort_inv) | simp only [↓inv_mk] | with_reducible intro _ | dsimp +zetaDelta only | split

theorem execAccelAlert_inv (port : Nat) (low : Bool) (s : State) (h1 : StateInv s) :
    InvC (execAccelAlert port low s) := by
  unfold execAccelAlert
  repeat' first | (with_reducible first | assumption | apply doAlert_inv) | (with_reducible first | apply invC_next | apply invC_ite | apply invC_fault | (apply inv_ofC; assumption)) | with_reducible intro _

theorem sendData_inv (p vc z0 : Nat) (z1 : Bool) (z2 : List Byte) (z3 : State) (h1 : StateInv z3) :
    StateInv (sendData p vc z0 z1 z2 z3) := by
  fun_induction sendData p vc z0 z1 z2 z3 <;> try dsimp +zetaDelta only
  all_goals repeat' first | (with_reducible first | assumption | apply inv_ite | apply State.modPort_inv | apply sendFlit_inv) | simp only [↓inv_mk] | with_reducible apply_assumption -exfalso | with_reducible intro _ | dsimp +zetaDelta only | split

theorem apTx_inv (s : State) (p : Nat) (e : Egress) (h1 : StateInv s) :
    StateInv (apTx s p e) := by
  unfold apTx; try dsimp only
  repeat' first | (with_reducible first | assumption | apply inv_ite | apply addTotal_inv | apply tapUnit_inv) | simp only [↓inv_mk] | with_reducible intro _ | dsimp +zetaDelta only | split

theorem readOn_inv (s : State) (p : Nat) (e : Egress) (h1 : StateInv s) :
    StateInv (readOn s p e) := by
  unfold readOn; try dsimp only
  repeat' first | (with_reducible first | assumption | apply inv_ite | apply pushEngine_inv) | simp only [↓inv_mk] | with_reducible intro _ | dsimp +zetaDelta only | split

theorem doEgressDepart_inv (p : Nat) (s : State) (h1 : StateInv s) :
    StateInv (doEgressDepart p s) := by
  unfold doEgressDepart; try dsimp only
  repeat' first | (with_reducible first | assumption | apply inv_ite | apply apTx_inv | apply checkDrained_inv | apply fillEgress_inv | apply State.modPort_inv | apply readOn_inv | apply retryIngress_inv | apply sendData_inv) | simp only [↓inv_mk] | with_reducible intro _ | dsimp +zetaDelta only | split

theorem cutOff_inv (p : Nat) (s : State) (h1 : StateInv s) :
    StateInv (cutOff p s) := by
  unfold cutOff; try dsimp only
  repeat' first | (with_reducible first | assumption | apply inv_ite | apply inv_ite1 | apply inv_foldl | apply inv_foldl1 | apply fill_inv | apply freeBlock_inv | apply State.modPort_inv) | simp only [↓inv_mk] | simp only [↓inv_pair] | (with_reducible first | apply inv_P | apply invO_none | apply invO_some | apply invO_ite | (apply inv_of; assumption) | apply invO_map | apply invOP_none | apply invOP_some | apply invOP_ite | (apply inv_of1; assumption) | (apply inv_of2; assumption) | apply invOP_map | (apply inv_fst; assumption)) | with_reducible intro _ | dsimp +zetaDelta only | split

theorem switchDown_inv (s : State) (p : Nat) (h1 : StateInv s) :
    StateInv (switchDown s p) := by
  unfold switchDown; try dsimp only
  repeat' first | (with_reducible first | assumption | apply inv_foldl | apply checkDrained_inv | apply cutOff_inv | apply cvAbortPort_inv | apply engineCpl_inv | apply State.modPort_inv | apply retryIngress_inv) | simp only [↓inv_mk] | with_reducible intro _ | dsimp +zetaDelta only | split

theorem enterDown_inv (s : State) (p : Nat) (h1 : StateInv s) :
    StateInv (enterDown s p) := by
  unfold enterDown; try dsimp only
  repeat' first | (with_reducible first | assumption | apply State.modPort_inv | apply postPort_inv | apply switchDown_inv) | simp only [↓inv_mk] | with_reducible intro _ | dsimp +zetaDelta only | split

theorem enterShut_inv (s : State) (p : Nat) (h1 : StateInv s) :
    StateInv (enterShut s p) := by
  unfold enterShut; try dsimp only
  repeat' first | (with_reducible first | assumption | apply State.modPort_inv | apply switchDown_inv) | simp only [↓inv_mk] | with_reducible intro _ | dsimp +zetaDelta only | split

theorem State.modRed_inv (s : State) (f : Reduce → Reduce) (h1 : StateInv s) :
    StateInv (State.modRed s f) := by
  unfold State.modRed; try dsimp only
  repeat' first | (with_reducible first | assumption) | simp only [↓inv_mk] | dsimp +zetaDelta only | split

theorem State.modCtx_inv (s : State) (h : Nat) (f : Ctx → Ctx) (h1 : StateInv s) :
    StateInv (State.modCtx s h f) := by
  unfold State.modCtx; try dsimp only
  repeat' first | (with_reducible first | assumption | apply State.modRed_inv) | simp only [↓inv_mk] | with_reducible intro _ | dsimp +zetaDelta only | split

theorem State.modSum_inv (s : State) (t : Nat) (f : SumTile → SumTile) (h1 : StateInv s) :
    StateInv (State.modSum s t f) := by
  unfold State.modSum; try dsimp only
  repeat' first | (with_reducible first | assumption | apply State.modRed_inv) | simp only [↓inv_mk] | with_reducible intro _ | dsimp +zetaDelta only | split

theorem stepDone_inv (s : State) (core tag status opcode result : Nat) (h1 : StateInv s) :
    StateInv (stepDone s core tag status opcode result) := by
  unfold stepDone; try dsimp only
  repeat' first | (with_reducible first | assumption | apply State.modCore_inv) | simp only [↓inv_mk] | with_reducible intro _ | dsimp +zetaDelta only | split

theorem grant_inv (s : State) (c : Claim) (ts : List Nat) (h : Nat) (h1 : StateInv s) :
    StateInv (grant s c ts h) := by
  unfold grant; try dsimp only
  repeat' first | (with_reducible first | assumption | apply inv_foldl | apply State.modRed_inv | apply stepDone_inv) | simp only [↓inv_mk] | with_reducible intro _ | dsimp +zetaDelta only | split

theorem postStep_inv (s : State) (core : Nat) (w : BitVec 512) (h1 : StateInv s) :
    StateInv (postStep s core w) := by
  unfold postStep; try dsimp only
  repeat' first | (with_reducible first | assumption | apply State.modCore_inv | apply State.modRed_inv) | simp only [↓inv_mk] | with_reducible intro _ | dsimp +zetaDelta only | split

theorem settleCand_inv (s : State) (h1 : StateInv s) :
    StateInv (settleCand s) := by
  unfold settleCand; try dsimp only
  repeat' first | (with_reducible first | assumption | apply State.modRed_inv) | simp only [↓inv_mk] | with_reducible intro _ | dsimp +zetaDelta only | split

theorem takeStep_inv (s : State) (core : Nat) (h1 : StateInv s) :
    StateInv (takeStep s core) := by
  unfold takeStep; try dsimp only
  repeat' first | (with_reducible first | assumption | apply State.modRed_inv) | simp only [↓inv_mk] | with_reducible intro _ | dsimp +zetaDelta only | split

theorem frontEnd_inv (s : State) (core op : Nat) (act : Nat → State → State) (h1 : StateInv s) (h2 : ∀ (y0 : Nat) (y1 : State), StateInv y1 → StateInv (act y0 y1)) :
    StateInv (frontEnd s core op act) := by
  unfold frontEnd; try dsimp only
  repeat' first | (with_reducible first | assumption | apply inv_ite | apply h2 | apply stepDone_inv | apply takeStep_inv) | with_reducible intro _ | dsimp +zetaDelta only | split

theorem doOpen_inv (core d : Nat) (s : State) (h1 : StateInv s) :
    StateInv (doOpen core d s) := by
  unfold doOpen; try dsimp only
  repeat' first | (with_reducible first | assumption | apply inv_ite | apply grant_inv | apply State.modRed_inv | apply settleCand_inv | apply stepDone_inv) | simp only [↓inv_mk] | with_reducible intro _ | dsimp +zetaDelta only | split

theorem execRdOpen_inv (core : Nat) (s : State) (h1 : StateInv s) :
    InvC (execRdOpen core s) := by
  unfold execRdOpen
  repeat' first | (with_reducible first | assumption | apply doOpen_inv | apply frontEnd_inv) | simp only [↓invQ_pair] | (with_reducible first | apply inv_Q | apply invQ_ite | (apply inv_ofQ; assumption) | apply invC_next | apply invC_ite | apply invC_fault | (apply inv_ofC; assumption)) | with_reducible intro _ | dsimp +zetaDelta only | split

theorem doAdmission_inv (s : State) (h1 : StateInv s) :
    StateInv (doAdmission s) := by
  unfold doAdmission; try dsimp only
  repeat' first | (with_reducible first | assumption | apply grant_inv | apply State.modRed_inv) | simp only [↓inv_mk] | with_reducible intro _ | dsimp +zetaDelta only | split

theorem execAdmissionGrant_inv (s : State) (h1 : StateInv s) :
    InvC (execAdmissionGrant s) := by
  unfold execAdmissionGrant
  repeat' first | (with_reducible first | assumption | apply doAdmission_inv) | (with_reducible first | apply invC_next | apply invC_ite | apply invC_fault | (apply inv_ofC; assumption)) | with_reducible intro _

theorem releaseCtx_inv (s : State) (h : Nat) (h1 : StateInv s) :
    StateInv (releaseCtx s h) := by
  unfold releaseCtx; try dsimp only
  repeat' first | (with_reducible first | assumption | apply State.modRed_inv) | simp only [↓inv_mk] | with_reducible intro _ | dsimp +zetaDelta only | split

theorem endPulls_inv (s : State) (k : Ctx) (status : Nat) (h1 : StateInv s) :
    StateInv (endPulls s k status) := by
  unfold endPulls; try dsimp only
  repeat' first | (with_reducible first | assumption | apply inv_foldl | apply stepDone_inv) | with_reducible intro _ | dsimp +zetaDelta only | split

theorem failCtx_inv (s : State) (h status tile : Nat) (h1 : StateInv s) :
    StateInv (failCtx s h status tile) := by
  unfold failCtx; try dsimp only
  repeat' first | (with_reducible first | assumption | apply inv_ite | apply endPulls_inv | apply Rest.fail_inv | apply State.modCtx_inv | apply State.modSum_inv | apply postEventS_inv | apply releaseCtx_inv | apply stepDone_inv) | simp only [↓inv_mk] | simp only [↓invX_mk] | simp only [↓invXP_pair] | (with_reducible first | apply invXP_ite | apply invXP_foldl | apply inv_XP | apply invX_ite | apply invX_foldl | apply invX_s) | with_reducible intro _ | dsimp +zetaDelta only | split

theorem checkClose_inv (s : State) (h : Nat) (h1 : StateInv s) :
    StateInv (checkClose s h) := by
  unfold checkClose; try dsimp only
  repeat' first | (with_reducible first | assumption | apply inv_ite | apply releaseCtx_inv | apply stepDone_inv) | with_reducible intro _ | dsimp +zetaDelta only | split

theorem formAll_inv (s : State) (h : Nat) (z0 : List Nat) (h1 : StateInv s) :
    StateInv (formAll s h z0) := by
  fun_induction formAll s h z0 <;> try dsimp +zetaDelta only
  all_goals repeat' first | (with_reducible first | assumption | apply inv_ite | apply State.modCtx_inv | apply State.modSum_inv) | simp only [↓inv_mk] | with_reducible apply_assumption -exfalso | with_reducible intro _ | dsimp +zetaDelta only | split

theorem takeIn_inv (s : State) (h : Nat) (k : Ctx) (c : Contr) (h1 : StateInv s) :
    StateInv (takeIn s h k c) := by
  unfold takeIn; try dsimp only
  repeat' first | (with_reducible first | assumption | apply inv_ite | apply failCtx_inv | apply formAll_inv | apply State.modCtx_inv) | simp only [↓inv_mk] | with_reducible intro _ | dsimp +zetaDelta only | split

theorem spillContr_inv (s : State) (h : Nat) (k : Ctx) (c : Contr) (raw : List Byte) (h1 : StateInv s) :
    StateInv (spillContr s h k c raw) := by
  unfold spillContr; try dsimp only
  repeat' first | (with_reducible first | assumption | apply engineWrite_inv | apply failCtx_inv | apply State.modCtx_inv | apply State.modSum_inv | apply spill_inv) | simp only [↓inv_mk] | simp only [↓inv_pair] | (with_reducible first | apply inv_P | apply invO_none | apply invO_some | apply invO_ite | (apply inv_of; assumption) | apply invO_map | (apply inv_fst; assumption)) | with_reducible intro _ | dsimp +zetaDelta only | split

theorem handleMiss_inv (s : State) (h hgen rank e : Nat) (h1 : StateInv s) :
    StateInv (handleMiss s h hgen rank e) := by
  unfold handleMiss; try dsimp only
  repeat' first | (with_reducible first | assumption | apply inv_ite | apply inv_foldl | apply State.modRed_inv | apply postEventS_inv) | simp only [↓inv_mk] | with_reducible intro _ | dsimp +zetaDelta only | split

theorem doContrib_inv (h hgen rank e : Nat) (data : List Byte) (s : State) (h1 : StateInv s) :
    StateInv (doContrib h hgen rank e data s) := by
  unfold doContrib; try dsimp only
  repeat' first | (with_reducible first | assumption | apply inv_ite | apply failCtx_inv | apply handleMiss_inv | apply State.modSum_inv | apply spillContr_inv | apply takeIn_inv) | simp only [↓inv_mk] | with_reducible intro _ | dsimp +zetaDelta only | split

theorem execContrib_inv (port handle hgen rank element : Nat) (data : List (BitVec 8)) (s : State) (h1 : StateInv s) :
    InvC (execContrib port handle hgen rank element data s) := by
  unfold execContrib; try dsimp only
  repeat' first | (with_reducible first | assumption | apply inv_ite | apply apRx_inv | apply doContrib_inv) | simp only [↓inv_mk] | (with_reducible first | apply invC_next | apply invC_ite | apply invC_fault | (apply inv_ofC; assumption)) | with_reducible intro _ | dsimp +zetaDelta only | split

theorem doSpillReturn_inv (h : Nat) (found : Codeword) (s : State) (h1 : StateInv s) :
    StateInv (doSpillReturn h found s) := by
  unfold doSpillReturn; try dsimp only
  repeat' first | (with_reducible first | assumption | apply inv_ite | apply inv_ite1 | apply correctedRead_inv | apply engineRead_inv | apply failCtx_inv | apply formAll_inv | apply State.modCtx_inv | apply uncorrectable_inv) | simp only [↓inv_mk] | simp only [↓inv_pair] | (with_reducible first | apply inv_P | (apply inv_fst; assumption)) | with_reducible intro _ | dsimp +zetaDelta only | split

theorem execSpillReadReturn_inv (handle : Nat) (found : Codeword) (s : State) (h1 : StateInv s) :
    InvC (execSpillReadReturn handle found s) := by
  unfold execSpillReadReturn
  repeat' first | (with_reducible first | assumption | apply doSpillReturn_inv) | (with_reducible first | apply invC_next | apply invC_ite | apply invC_fault | (apply inv_ofC; assumption)) | with_reducible intro _

theorem doPull_inv (core d : Nat) (s : State) (h1 : StateInv s) :
    StateInv (doPull core d s) := by
  unfold doPull; try dsimp only
  repeat' first | (with_reducible first | assumption | apply inv_ite | apply State.modCtx_inv | apply stepDone_inv) | simp only [↓inv_mk] | with_reducible intro _ | dsimp +zetaDelta only | split

theorem execRdPull_inv (core : Nat) (s : State) (h1 : StateInv s) :
    InvC (execRdPull core s) := by
  unfold execRdPull
  repeat' first | (with_reducible first | assumption | apply doPull_inv | apply frontEnd_inv) | simp only [↓invQ_pair] | (with_reducible first | apply inv_Q | apply invQ_ite | (apply inv_ofQ; assumption) | apply invC_next | apply invC_ite | apply invC_fault | (apply inv_ofC; assumption)) | with_reducible intro _ | dsimp +zetaDelta only | split

theorem spaceRead_inv (s : State) (tile a n : Nat) (found : Codeword) (host : List Byte) (read : HRead) (h1 : StateInv s) :
    InvP (spaceRead s tile a n found host read) := by
  unfold spaceRead
  repeat' first | (with_reducible first | assumption | apply inv_ite | apply inv_ite1 | apply correctedRead_inv | apply engineRead_inv | apply uncorrectable_inv) | simp only [↓inv_pair] | (with_reducible first | apply inv_P | (apply inv_fst; assumption)) | with_reducible intro _ | dsimp +zetaDelta only | split

theorem pullDone_inv (s : State) (h which : Nat) (p : Pull) (h1 : StateInv s) :
    StateInv (pullDone s h which p) := by
  unfold pullDone; try dsimp only
  repeat' first | (with_reducible first | assumption | apply inv_ite | apply State.modCtx_inv | apply stepDone_inv) | simp only [↓inv_mk] | with_reducible intro _ | dsimp +zetaDelta only | split

theorem doPullReturn_inv (h which : Nat) (back : PullRead) (s : State) (h1 : StateInv s) :
    StateInv (doPullReturn h which back s) := by
  unfold doPullReturn; try dsimp only
  repeat' first | (with_reducible first | assumption | apply inv_ite | apply inv_ite1 | apply failCtx_inv | apply State.modCtx_inv | apply State.modSum_inv | apply pullDone_inv | apply spaceRead_inv | apply takeIn_inv) | simp only [↓inv_mk] | simp only [↓inv_pair] | (with_reducible first | apply inv_P | (apply inv_fst; assumption)) | with_reducible intro _ | dsimp +zetaDelta only | split

theorem execPullDataReturn_inv (handle which : Nat) (back : PullRead) (s : State) (h1 : StateInv s) :
    InvC (execPullDataReturn handle which back s) := by
  unfold execPullDataReturn
  repeat' first | (with_reducible first | assumption | apply doPullReturn_inv) | (with_reducible first | apply invC_next | apply invC_ite | apply invC_fault | (apply inv_ofC; assumption)) | with_reducible intro _

theorem doClose_inv (core d : Nat) (s : State) (h1 : StateInv s) :
    StateInv (doClose core d s) := by
  unfold doClose; try dsimp only
  repeat' first | (with_reducible first | assumption | apply inv_ite | apply checkClose_inv | apply State.modCtx_inv | apply releaseCtx_inv | apply stepDone_inv) | simp only [↓inv_mk] | with_reducible intro _ | dsimp +zetaDelta only | split

theorem execRdClose_inv (core : Nat) (s : State) (h1 : StateInv s) :
    InvC (execRdClose core s) := by
  unfold execRdClose
  repeat' first | (with_reducible first | assumption | apply doClose_inv | apply frontEnd_inv) | simp only [↓invQ_pair] | (with_reducible first | apply inv_Q | apply invQ_ite | (apply inv_ofQ; assumption) | apply invC_next | apply invC_ite | apply invC_fault | (apply inv_ofC; assumption)) | with_reducible intro _ | dsimp +zetaDelta only | split

theorem abortCtx_inv (s : State) (h : Nat) (h1 : StateInv s) :
    StateInv (abortCtx s h) := by
  unfold abortCtx; try dsimp only
  repeat' first | (with_reducible first | assumption | apply endPulls_inv | apply releaseCtx_inv | apply stepDone_inv) | dsimp +zetaDelta only | split

theorem withdraw_inv (s : State) (c : Claim) (h1 : StateInv s) :
    StateInv (withdraw s c) := by
  unfold withdraw; try dsimp only
  repeat' first | (with_reducible first | assumption | apply State.modRed_inv | apply settleCand_inv) | simp only [↓inv_mk] | with_reducible intro _ | dsimp +zetaDelta only | split

theorem doAbort_inv (core d : Nat) (s : State) (h1 : StateInv s) :
    StateInv (doAbort core d s) := by
  unfold doAbort; try dsimp only
  repeat' first | (with_reducible first | assumption | apply inv_ite | apply abortCtx_inv | apply stepDone_inv | apply withdraw_inv) | with_reducible intro _ | dsimp +zetaDelta only | split

theorem execRdAbort_inv (core : Nat) (s : State) (h1 : StateInv s) :
    InvC (execRdAbort core s) := by
  unfold execRdAbort
  repeat' first | (with_reducible first | assumption | apply doAbort_inv | apply frontEnd_inv) | simp only [↓invQ_pair] | (with_reducible first | apply inv_Q | apply invQ_ite | (apply inv_ofQ; assumption) | apply invC_next | apply invC_ite | apply invC_fault | (apply inv_ofC; assumption)) | with_reducible intro _ | dsimp +zetaDelta only | split

theorem freeChunk_inv (s : State) (h : Nat) (e : Emission) (h1 : StateInv s) :
    StateInv (freeChunk s h e) := by
  unfold freeChunk; try dsimp only
  repeat' first | (with_reducible first | assumption | apply inv_ite | apply checkClose_inv | apply State.modCtx_inv) | simp only [↓inv_mk] | with_reducible intro _ | dsimp +zetaDelta only | split

theorem doResultCopy_inv (h tile : Nat) (s : State) (h1 : StateInv s) :
    StateInv (doResultCopy h tile s) := by
  unfold doResultCopy; try dsimp only
  repeat' first | (with_reducible first | assumption | apply inv_ite | apply inv_foldl | apply dropAt_inv | apply freeChunk_inv | apply State.modCtx_inv | apply pushEgress_inv | apply tapUnit_inv) | simp only [↓inv_mk] | with_reducible intro _ | dsimp +zetaDelta only | split

theorem execResultCopyDepart_inv (handle sumTile : Nat) (s : State) (h1 : StateInv s) :
    InvC (execResultCopyDepart handle sumTile s) := by
  unfold execResultCopyDepart
  repeat' first | (with_reducible first | assumption | apply doResultCopy_inv) | (with_reducible first | apply invC_next | apply invC_ite | apply invC_fault | (apply inv_ofC; assumption)) | with_reducible intro _

theorem spaceWrite_inv (s : State) (tile a : Nat) (bs : List Byte) (h1 : StateInv s) :
    InvP (spaceWrite s tile a bs) := by
  unfold spaceWrite
  repeat' first | (with_reducible first | assumption | apply inv_ite | apply inv_ite1 | apply engineWrite_inv | apply hostWrite_inv) | simp only [↓inv_pair] | (with_reducible first | apply inv_P | (apply inv_fst; assumption)) | with_reducible intro _ | dsimp +zetaDelta only | split

theorem doResultWrite_inv (h tile : Nat) (s : State) (h1 : StateInv s) :
    StateInv (doResultWrite h tile s) := by
  unfold doResultWrite; try dsimp only
  repeat' first | (with_reducible first | assumption | apply inv_ite | apply inv_ite1 | apply failCtx_inv | apply freeChunk_inv | apply spaceWrite_inv) | simp only [↓inv_mk] | simp only [↓inv_pair] | (with_reducible first | apply inv_P | (apply inv_fst; assumption)) | with_reducible intro _ | dsimp +zetaDelta only | split

theorem execResultWriteAccepted_inv (handle sumTile : Nat) (s : State) (h1 : StateInv s) :
    InvC (execResultWriteAccepted handle sumTile s) := by
  unfold execResultWriteAccepted
  repeat' first | (with_reducible first | assumption | apply doResultWrite_inv) | (with_reducible first | apply invC_next | apply invC_ite | apply invC_fault | (apply inv_ofC; assumption)) | with_reducible intro _

theorem missResults_inv (s : State) (p : Nat) (gone : List Egress) (h1 : StateInv s) :
    StateInv (missResults s p gone) := by
  unfold missResults; try dsimp only
  repeat' first | (with_reducible first | assumption | apply inv_ite | apply inv_foldl | apply checkClose_inv | apply State.modCtx_inv) | simp only [↓inv_mk] | with_reducible intro _ | dsimp +zetaDelta only | split

theorem failHostCtxs_inv (s : State) (r status : Nat) (h1 : StateInv s) :
    StateInv (failHostCtxs s r status) := by
  unfold failHostCtxs; try dsimp only
  repeat' first | (with_reducible first | assumption | apply inv_ite | apply inv_foldl | apply failCtx_inv) | with_reducible intro _ | dsimp +zetaDelta only | split

theorem takeHeader_inv (p at_ : Nat) (t : Txn) (s : State) (h1 : StateInv s) :
    InvP (takeHeader p at_ t s) := by
  unfold takeHeader; try dsimp only
  repeat' first | (with_reducible first | assumption | apply inv_ite | apply inv_ite1 | apply startCpl_inv | apply startTxn_inv) | simp only [↓inv_mk] | simp only [↓inv_pair] | (with_reducible first | apply inv_P | (apply inv_fst; assumption)) | with_reducible intro _ | dsimp +zetaDelta only | split

theorem addSlot_inv (p id : Nat) (bs : List Byte) (s : State) (h1 : StateInv s) :
    StateInv (addSlot p id bs s) := by
  unfold addSlot; try dsimp only
  repeat' first | (with_reducible first | assumption | apply inv_ite | apply inv_foldl | apply State.modPort_inv) | simp only [↓inv_mk] | with_reducible intro _ | dsimp +zetaDelta only | split

theorem takeWhole_inv (p : Nat) (t : Txn) (s0 : State) (h1 : StateInv s0) :
    StateInv (takeWhole p t s0) := by
  unfold takeWhole; try dsimp only
  repeat' first | (with_reducible first | assumption | apply inv_ite | apply apRx_inv | apply doContrib_inv | apply retryIngress_inv) | with_reducible intro _ | dsimp +zetaDelta only

theorem takeSlot_inv (p vc : Nat) (s : State) (slot : List Byte) (h1 : StateInv s) :
    StateInv (takeSlot p vc s slot) := by
  unfold takeSlot; try dsimp only
  repeat' first | (with_reducible first | assumption | apply inv_ite | apply inv_ite1 | apply addSlot_inv | apply dropAt_inv | apply engineCpl_inv | apply State.modPort_inv | apply takeHeader_inv | apply takeWhole_inv) | simp only [↓inv_mk] | simp only [↓inv_pair] | (with_reducible first | apply inv_P | (apply inv_fst; assumption)) | with_reducible intro _ | dsimp +zetaDelta only | split

theorem doFlitRx_inv (p : Nat) (fl : List Byte) (s : State) (h1 : StateInv s) :
    StateInv (doFlitRx p fl s) := by
  unfold doFlitRx; try dsimp only
  repeat' first | (with_reducible first | assumption | apply inv_ite | apply inv_foldl | apply doAckTimer_inv | apply doTraining_inv | apply State.modPort_inv | apply takeSlot_inv) | simp only [↓inv_mk] | with_reducible intro _ | dsimp +zetaDelta only | split

theorem execFlitRx_inv (port : Nat) (flit : List (BitVec 8)) (s : State) (h1 : StateInv s) :
    InvC (execFlitRx port flit s) := by
  unfold execFlitRx
  repeat' first | (with_reducible first | assumption | apply doFlitRx_inv) | (with_reducible first | apply invC_next | apply invC_ite | apply invC_fault | (apply inv_ofC; assumption)) | with_reducible intro _

theorem State.modKv_inv (s : State) (f : Kv → Kv) (h1 : StateInv s) :
    StateInv (State.modKv s f) := by
  unfold State.modKv; try dsimp only
  repeat' first | (with_reducible first | assumption) | simp only [↓inv_mk] | dsimp +zetaDelta only | split

theorem State.modBlk_inv (s : State) (b : Nat) (f : Block → Block) (h1 : StateInv s) :
    StateInv (State.modBlk s b f) := by
  unfold State.modBlk; try dsimp only
  repeat' first | (with_reducible first | assumption | apply State.modKv_inv) | simp only [↓inv_mk] | with_reducible intro _ | dsimp +zetaDelta only | split

theorem State.modPool_inv (s : State) (n : Nat) (f : KvPool → KvPool) (h1 : StateInv s) :
    StateInv (State.modPool s n f) := by
  unfold State.modPool; try dsimp only
  repeat' first | (with_reducible first | assumption | apply State.modKv_inv) | simp only [↓inv_mk] | with_reducible intro _ | dsimp +zetaDelta only | split

theorem State.modT0_inv (s : State) (p : Nat) (f : KvT0 → KvT0) (h1 : StateInv s) :
    StateInv (State.modT0 s p f) := by
  unfold State.modT0; try dsimp only
  repeat' first | (with_reducible first | assumption | apply State.modKv_inv) | simp only [↓inv_mk] | with_reducible intro _ | dsimp +zetaDelta only | split

theorem State.modPlan_inv (s : State) (n : Nat) (f : Plan → Plan) (h1 : StateInv s) :
    StateInv (State.modPlan s n f) := by
  unfold State.modPlan; try dsimp only
  repeat' first | (with_reducible first | assumption | apply State.modKv_inv) | simp only [↓inv_mk] | with_reducible intro _ | dsimp +zetaDelta only | split

theorem takePool_inv (s : State) (n : Nat) (h1 : StateInv s) :
    InvP (takePool s n) := by
  unfold takePool; try dsimp only
  repeat' first | (with_reducible first | assumption | apply inv_ite | apply inv_ite1 | apply State.modPool_inv | apply postAll_inv) | simp only [↓inv_mk] | simp only [↓inv_pair] | (with_reducible first | apply inv_P | (apply inv_fst; assumption)) | with_reducible intro _ | dsimp +zetaDelta only | split

theorem freePool_inv (s : State) (n i : Nat) (h1 : StateInv s) :
    StateInv (freePool s n i) := by
  unfold freePool; try dsimp only
  repeat' first | (with_reducible first | assumption | apply State.modPool_inv) | simp only [↓inv_mk] | with_reducible intro _ | dsimp +zetaDelta only | split

theorem writeEntries_inv (s : State) (eng : Eng) (b v : Nat) (h1 : StateInv s) :
    StateInv (writeEntries s eng b v) := by
  unfold writeEntries; try dsimp only
  repeat' first | (with_reducible first | assumption | apply inv_foldl | apply engineWrites_inv) | with_reducible intro _ | dsimp +zetaDelta only | split

theorem leaveT0_inv (s : State) (b : Nat) (h1 : StateInv s) :
    StateInv (leaveT0 s b) := by
  unfold leaveT0; try dsimp only
  repeat' first | (with_reducible first | assumption | apply State.modBlk_inv | apply State.modT0_inv | apply writeEntries_inv) | simp only [↓inv_mk] | with_reducible intro _ | dsimp +zetaDelta only | split

theorem takeT0_inv (s : State) (p : Nat) (h1 : StateInv s) :
    InvP (takeT0 s p) := by
  unfold takeT0; try dsimp only
  repeat' first | (with_reducible first | assumption | apply leaveT0_inv | apply State.modKv_inv | apply State.modT0_inv) | simp only [↓inv_mk] | simp only [↓inv_pair] | (with_reducible first | apply inv_P | (apply inv_fst; assumption)) | with_reducible intro _ | dsimp +zetaDelta only | split

theorem touch_inv (s : State) (b : Nat) (h1 : StateInv s) :
    StateInv (touch s b) := by
  unfold touch; try dsimp only
  repeat' first | (with_reducible first | assumption | apply State.modBlk_inv | apply State.modKv_inv) | simp only [↓inv_mk] | with_reducible intro _ | dsimp +zetaDelta only | split

theorem beginRead_inv (s : State) (b tier : Nat) (h1 : StateInv s) :
    StateInv (beginRead s b tier) := by
  unfold beginRead; try dsimp only
  repeat' first | (with_reducible first | assumption | apply inv_ite | apply emit_inv | apply engineRead__inv) | with_reducible intro _ | dsimp +zetaDelta only | split

theorem takeData_inv (s : State) (mov b tier : Nat) (ext : ARead) (h1 : StateInv s) :
    InvP (takeData s mov b tier ext) := by
  unfold takeData; try dsimp only
  repeat' first | (with_reducible first | assumption | apply inv_ite | apply inv_ite1 | apply bad_inv | apply engineRead_inv) | simp only [↓inv_mk] | simp only [↓inv_pair] | (with_reducible first | apply inv_P | (apply inv_fst; assumption)) | with_reducible intro _ | dsimp +zetaDelta only | split

theorem putData_inv (s : State) (b tier : Nat) (bs : List Byte) (h1 : StateInv s) :
    InvP (putData s b tier bs) := by
  unfold putData; try dsimp only
  repeat' first | (with_reducible first | assumption | apply inv_ite | apply inv_ite1 | apply emit_inv | apply engineWrite_inv | apply wrSpace_inv) | simp only [↓inv_pair] | (with_reducible first | apply inv_P | (apply inv_fst; assumption)) | with_reducible intro _ | dsimp +zetaDelta only | split

theorem leaveTier_inv (s : State) (b tier : Nat) (h1 : StateInv s) :
    StateInv (leaveTier s b tier) := by
  unfold leaveTier; try dsimp only
  repeat' first | (with_reducible first | assumption | apply inv_ite | apply freePool_inv | apply leaveT0_inv | apply State.modBlk_inv) | simp only [↓inv_mk] | with_reducible intro _ | dsimp +zetaDelta only | split

theorem startCopy_inv (s : State) (b from_ to_ : Nat) (drop : List Nat) (dem : Option DRef) (h1 : StateInv s) :
    InvP (startCopy s b from_ to_ drop dem) := by
  unfold startCopy; try dsimp only
  repeat' first | (with_reducible first | assumption | apply beginRead_inv | apply State.modBlk_inv | apply State.modKv_inv | apply takePool_inv) | simp only [↓inv_mk] | simp only [↓inv_pair] | (with_reducible first | apply inv_P | (apply inv_fst; assumption)) | with_reducible intro _ | dsimp +zetaDelta only | split

theorem sealDown_inv (s : State) (b : Nat) (h1 : StateInv s) :
    StateInv (sealDown s b) := by
  unfold sealDown; try dsimp only
  repeat' first | (with_reducible first | assumption | apply inv_ite | apply inv_ite1 | apply inv_foldl | apply inv_foldl1 | apply State.modBlk_inv | apply postAll_inv | apply startCopy_inv) | simp only [↓inv_mk] | simp only [↓inv_pair] | (with_reducible first | apply inv_P | (apply inv_fst; assumption)) | with_reducible intro _ | dsimp +zetaDelta only | split

theorem retryStalled_inv (s : State) (h1 : StateInv s) :
    StateInv (retryStalled s) := by
  unfold retryStalled; try dsimp only
  repeat' first | (with_reducible first | assumption | apply inv_ite | apply inv_foldl | apply sealDown_inv) | with_reducible intro _ | dsimp +zetaDelta only | split

theorem sendLower_inv (s : State) (b tier : Nat) (h1 : StateInv s) :
    InvP (sendLower s b tier) := by
  unfold sendLower; try dsimp only
  repeat' first | (with_reducible first | assumption | apply inv_ite | apply inv_ite1 | apply inv_foldl | apply inv_foldl1 | apply leaveTier_inv | apply startCopy_inv) | simp only [↓inv_pair] | (with_reducible first | apply inv_P | (apply inv_fst; assumption)) | with_reducible intro _ | dsimp +zetaDelta only | split

theorem evictSome_inv (tier n z0 : Nat) (z1 : List Nat) (z2 : State) (h1 : StateInv z2) :
    StateInv (evictSome tier n z0 z1 z2) := by
  fun_induction evictSome tier n z0 z1 z2 <;> try dsimp +zetaDelta only
  all_goals repeat' first | (with_reducible first | assumption | apply inv_ite | apply inv_ite1 | apply sendLower_inv) | simp only [↓inv_pair] | (with_reducible first | apply inv_P | (apply inv_fst; assumption)) | with_reducible apply_assumption -exfalso | with_reducible intro _ | dsimp +zetaDelta only | split

theorem settlePool_inv (s : State) (n : Nat) (h1 : StateInv s) :
    StateInv (settlePool s n) := by
  unfold settlePool; try dsimp only
  repeat' first | (with_reducible first | assumption | apply inv_ite | apply evictSome_inv | apply State.modPool_inv) | simp only [↓inv_mk] | with_reducible intro _ | dsimp +zetaDelta only | split

theorem demoteStep_inv (s : State) (d : Option DRef) (moved : Bool) (h1 : StateInv s) :
    StateInv (demoteStep s d moved) := by
  unfold demoteStep; try dsimp only
  repeat' first | (with_reducible first | assumption | apply inv_ite | apply finish_inv | apply State.modKv_inv) | simp only [↓inv_mk] | with_reducible intro _ | dsimp +zetaDelta only | split

theorem dropHigher_inv (s : State) (b : Nat) (ts : List Nat) (h1 : StateInv s) :
    StateInv (dropHigher s b ts) := by
  unfold dropHigher; try dsimp only
  repeat' first | (with_reducible first | assumption | apply inv_foldl | apply leaveTier_inv) | with_reducible intro _ | dsimp +zetaDelta only | split

theorem demoteOne_inv (tier : Nat) (ref : DRef) (s : State) (b : Nat) (h1 : StateInv s) :
    InvP (demoteOne tier ref s b) := by
  unfold demoteOne; try dsimp only
  repeat' first | (with_reducible first | assumption | apply inv_ite | apply inv_ite1 | apply dropHigher_inv | apply startCopy_inv) | simp only [↓inv_pair] | (with_reducible first | apply inv_P | (apply inv_fst; assumption)) | with_reducible intro _ | dsimp +zetaDelta only | split

theorem retryDemote_inv (s : State) (ref : DRef) (b : Nat) (h1 : StateInv s) :
    StateInv (retryDemote s ref b) := by
  unfold retryDemote; try dsimp only
  repeat' first | (with_reducible first | assumption | apply inv_ite | apply inv_ite1 | apply demoteOne_inv | apply demoteStep_inv | apply State.modKv_inv) | simp only [↓inv_mk] | simp only [↓inv_pair] | (with_reducible first | apply inv_P | (apply inv_fst; assumption)) | with_reducible intro _ | dsimp +zetaDelta only | split

theorem settlePools_inv (s : State) (h1 : StateInv s) :
    StateInv (settlePools s) := by
  unfold settlePools; try dsimp only
  repeat' first | (with_reducible first | assumption | apply inv_foldl | apply retryDemote_inv | apply retryStalled_inv | apply settlePool_inv) | with_reducible intro _ | dsimp +zetaDelta only | split

theorem freeBlock_inv (s : State) (b : Nat) (h1 : StateInv s) :
    StateInv (freeBlock s b) := by
  unfold freeBlock; try dsimp only
  repeat' first | (with_reducible first | assumption | apply inv_ite | apply inv_foldl | apply demoteStep_inv | apply leaveTier_inv | apply State.modKv_inv) | simp only [↓inv_mk] | with_reducible intro _ | dsimp +zetaDelta only | split

theorem loseBlock_inv (s : State) (b pool : Nat) (h1 : StateInv s) :
    StateInv (loseBlock s b pool) := by
  unfold loseBlock; try dsimp only
  repeat' first | (with_reducible first | assumption | apply State.modBlk_inv | apply State.modKv_inv | apply postEventS_inv) | simp only [↓inv_mk] | with_reducible intro _ | dsimp +zetaDelta only | split

theorem badT1_inv (s : State) (b : Nat) (h1 : StateInv s) :
    StateInv (badT1 s b) := by
  unfold badT1; try dsimp only
  repeat' first | (with_reducible first | assumption | apply inv_ite | apply leaveTier_inv | apply loseBlock_inv) | with_reducible intro _ | dsimp +zetaDelta only

theorem copyFailed_inv (s : State) (c : Copy) (status : Nat) (h1 : StateInv s) :
    StateInv (copyFailed s c status) := by
  unfold copyFailed; try dsimp only
  repeat' first | (with_reducible first | assumption | apply inv_ite | apply badT1_inv | apply beginRead_inv | apply demoteStep_inv | apply leaveTier_inv | apply State.modBlk_inv | apply State.modKv_inv) | simp only [↓inv_mk] | with_reducible intro _ | dsimp +zetaDelta only | split

theorem doCopyComplete_inv (b : Nat) (ext : ARead) (s : State) (h1 : StateInv s) :
    StateInv (doCopyComplete b ext s) := by
  unfold doCopyComplete; try dsimp only
  repeat' first | (with_reducible first | assumption | apply inv_ite | apply inv_ite1 | apply copyFailed_inv | apply demoteStep_inv | apply dropHigher_inv | apply leaveTier_inv | apply State.modBlk_inv | apply State.modKv_inv | apply putData_inv | apply settlePools_inv | apply takeData_inv) | simp only [↓inv_mk] | simp only [↓inv_pair] | (with_reducible first | apply inv_P | (apply inv_fst; assumption)) | with_reducible intro _ | dsimp +zetaDelta only | split

theorem execBlockCopyComplete_inv (block : Nat) (ext : ARead) (s : State) (h1 : StateInv s) :
    InvC (execBlockCopyComplete block ext s) := by
  unfold execBlockCopyComplete; try dsimp only
  repeat' first | (with_reducible first | assumption | apply doCopyComplete_inv) | (with_reducible first | apply invC_next | apply invC_ite | apply invC_fault | (apply inv_ofC; assumption)) | with_reducible intro _ | dsimp +zetaDelta only

theorem classSet_inv (r d : Nat) (s : State) (h1 : StateInv s) :
    InvP (classSet r d s) := by
  unfold classSet; try dsimp only
  repeat' first | (with_reducible first | assumption | apply inv_ite | apply inv_ite1 | apply bad_inv | apply exclusive_inv | apply State.modKv_inv | apply ok0_inv | apply promote_inv) | simp only [↓inv_mk] | simp only [↓inv_pair] | (with_reducible first | apply inv_P | (apply inv_fst; assumption)) | with_reducible intro _ | dsimp +zetaDelta only | split

theorem execClassSet_inv (fn ring : Nat) (s : State) (h1 : StateInv s) :
    InvC (execClassSet fn ring s) := by
  unfold execClassSet; try dsimp only
  repeat' first | (with_reducible first | assumption | apply classSet_inv | apply inRankOrder_inv | apply onDesc_inv) | simp only [↓inv_pair] | (with_reducible first | apply inv_P | apply invC_next | apply invC_ite | apply invC_fault | (apply inv_ofC; assumption) | (apply inv_fst; assumption)) | with_reducible intro _ | dsimp +zetaDelta only | split

theorem withSeq_inv (s : State) (r d : Nat) (act : Nat → Seq → CmdRes) (h1 : StateInv s) (h2 : ∀ (y0 : Nat) (y1 : Seq), InvP (act y0 y1)) :
    InvP (withSeq s r d act) := by
  unfold withSeq
  repeat' first | (with_reducible first | assumption | apply inv_ite | apply inv_ite1 | apply h2 | apply bad_inv) | simp only [↓inv_pair] | (with_reducible first | apply inv_P | (apply inv_fst; assumption)) | with_reducible intro _ | dsimp +zetaDelta only | split

theorem State.modSeq_inv (s : State) (ix : Nat) (f : Seq → Seq) (h1 : StateInv s) :
    StateInv (State.modSeq s ix f) := by
  unfold State.modSeq; try dsimp only
  repeat' first | (with_reducible first | assumption | apply State.modKv_inv) | simp only [↓inv_mk] | with_reducible intro _ | dsimp +zetaDelta only | split

theorem pushedEntries_inv (q : Seq) (a : Nat) (s : State) (h1 : StateInv s) :
    StateInv (pushedEntries q a s) := by
  unfold pushedEntries; try dsimp only
  repeat' first | (with_reducible first | assumption | apply inv_foldl | apply engineWrites_inv) | with_reducible intro _ | dsimp +zetaDelta only | split

theorem openSeq_inv (s : State) (ref : DRef) (q : Seq) (h1 : StateInv s) :
    InvP (openSeq s ref q) := by
  unfold openSeq; try dsimp only
  repeat' first | (with_reducible first | assumption | apply inv_ite | apply inv_ite1 | apply bad_inv | apply engineWrites_inv | apply later_inv | apply State.modKv_inv | apply pushedEntries_inv) | simp only [↓inv_mk] | simp only [↓inv_pair] | (with_reducible first | apply inv_P | (apply inv_fst; assumption)) | with_reducible intro _ | dsimp +zetaDelta only | split

theorem seqOpen_inv (r d : Nat) (ref : DRef) (s : State) (h1 : StateInv s) :
    InvP (seqOpen r d ref s) := by
  unfold seqOpen; try dsimp only
  repeat' first | (with_reducible first | assumption | apply inv_ite | apply inv_ite1 | apply bad_inv | apply openSeq_inv) | simp only [↓inv_mk] | simp only [↓inv_pair] | (with_reducible first | apply inv_P | (apply inv_fst; assumption)) | with_reducible intro _ | dsimp +zetaDelta only | split

theorem execSeqOpen_inv (fn ring : Nat) (s : State) (h1 : StateInv s) :
    InvC (execSeqOpen fn ring s) := by
  unfold execSeqOpen; try dsimp only
  repeat' first | (with_reducible first | assumption | apply onDesc_inv | apply seqOpen_inv) | simp only [↓inv_pair] | (with_reducible first | apply inv_P | apply invC_next | apply invC_ite | apply invC_fault | (apply inv_ofC; assumption) | (apply inv_fst; assumption)) | with_reducible intro _ | dsimp +zetaDelta only | split

theorem seqFork_inv (r d : Nat) (ref : DRef) (s : State) (h1 : StateInv s) :
    InvP (seqFork r d ref s) := by
  unfold seqFork; try dsimp only
  repeat' first | (with_reducible first | assumption | apply inv_ite | apply inv_ite1 | apply bad_inv | apply openSeq_inv | apply withSeq_inv) | simp only [↓inv_mk] | simp only [↓inv_pair] | (with_reducible first | apply inv_P | (apply inv_fst; assumption)) | with_reducible intro _ | dsimp +zetaDelta only | split

theorem execSeqFork_inv (fn ring : Nat) (s : State) (h1 : StateInv s) :
    InvC (execSeqFork fn ring s) := by
  unfold execSeqFork; try dsimp only
  repeat' first | (with_reducible first | assumption | apply onDesc_inv | apply seqFork_inv) | simp only [↓inv_pair] | (with_reducible first | apply inv_P | apply invC_next | apply invC_ite | apply invC_fault | (apply inv_ofC; assumption) | (apply inv_fst; assumption)) | with_reducible intro _ | dsimp +zetaDelta only | split

theorem truncSeq_inv (s : State) (ix n : Nat) (h1 : StateInv s) :
    StateInv (truncSeq s ix n) := by
  unfold truncSeq; try dsimp only
  repeat' first | (with_reducible first | assumption | apply inv_ite | apply inv_foldl | apply engineWrites_inv | apply freeBlock_inv | apply State.modSeq_inv) | simp only [↓inv_mk] | with_reducible intro _ | dsimp +zetaDelta only | split

theorem seqClose_inv (r d : Nat) (s : State) (h1 : StateInv s) :
    InvP (seqClose r d s) := by
  unfold seqClose; try dsimp only
  repeat' first | (with_reducible first | assumption | apply inv_ite | apply inv_ite1 | apply bad_inv | apply State.modKv_inv | apply ok0_inv | apply settlePools_inv | apply truncSeq_inv | apply withSeq_inv) | simp only [↓inv_mk] | simp only [↓inv_pair] | (with_reducible first | apply inv_P | (apply inv_fst; assumption)) | with_reducible intro _ | dsimp +zetaDelta only | split

theorem execSeqClose_inv (fn ring : Nat) (s : State) (h1 : StateInv s) :
    InvC (execSeqClose fn ring s) := by
  unfold execSeqClose; try dsimp only
  repeat' first | (with_reducible first | assumption | apply onDesc_inv | apply seqClose_inv) | simp only [↓inv_pair] | (with_reducible first | apply inv_P | apply invC_next | apply invC_ite | apply invC_fault | (apply inv_ofC; assumption) | (apply inv_fst; assumption)) | with_reducible intro _ | dsimp +zetaDelta only | split

theorem growOne_inv (s : State) (ix : Nat) (now : Bool) (h1 : StateInv s) :
    InvP (growOne s ix now) := by
  unfold growOne; try dsimp only
  repeat' first | (with_reducible first | assumption | apply inv_ite | apply inv_ite1 | apply State.modKv_inv | apply State.modSeq_inv | apply takeT0_inv | apply writeEntries_inv) | simp only [↓inv_mk] | simp only [↓inv_pair] | (with_reducible first | apply inv_P | (apply inv_fst; assumption)) | with_reducible intro _ | dsimp +zetaDelta only | split

theorem growMany_inv (ix : Nat) (now : Bool) (z0 : Nat) (z1 : State) (z2 : List Nat) (h1 : StateInv z1) :
    InvP (growMany ix now z0 z1 z2) := by
  fun_induction growMany ix now z0 z1 z2 <;> try dsimp +zetaDelta only
  all_goals repeat' first | (with_reducible first | assumption | apply growOne_inv) | simp only [↓inv_pair] | (with_reducible first | apply inv_P | (apply inv_fst; assumption)) | with_reducible apply_assumption -exfalso | dsimp +zetaDelta only | split

theorem seqGrow_inv (r d : Nat) (s : State) (h1 : StateInv s) :
    InvP (seqGrow r d s) := by
  unfold seqGrow; try dsimp only
  repeat' first | (with_reducible first | assumption | apply inv_ite | apply inv_ite1 | apply bad_inv | apply growMany_inv | apply okR_inv | apply settlePools_inv | apply withSeq_inv) | simp only [↓inv_pair] | (with_reducible first | apply inv_P | (apply inv_fst; assumption)) | with_reducible intro _ | dsimp +zetaDelta only | split

theorem execSeqGrow_inv (fn ring : Nat) (s : State) (h1 : StateInv s) :
    InvC (execSeqGrow fn ring s) := by
  unfold execSeqGrow; try dsimp only
  repeat' first | (with_reducible first | assumption | apply onDesc_inv | apply seqGrow_inv) | simp only [↓inv_pair] | (with_reducible first | apply inv_P | apply invC_next | apply invC_ite | apply invC_fault | (apply inv_ofC; assumption) | (apply inv_fst; assumption)) | with_reducible intro _ | dsimp +zetaDelta only | split

theorem seqSeal_inv (r d : Nat) (s : State) (h1 : StateInv s) :
    InvP (seqSeal r d s) := by
  unfold seqSeal; try dsimp only
  repeat' first | (with_reducible first | assumption | apply inv_ite | apply inv_ite1 | apply inv_foldl | apply inv_foldl1 | apply bad_inv | apply State.modBlk_inv | apply okR_inv | apply sealDown_inv | apply settlePools_inv | apply withSeq_inv) | simp only [↓inv_mk] | simp only [↓inv_pair] | (with_reducible first | apply inv_P | (apply inv_fst; assumption)) | with_reducible intro _ | dsimp +zetaDelta only | split

theorem execSeqSeal_inv (fn ring : Nat) (s : State) (h1 : StateInv s) :
    InvC (execSeqSeal fn ring s) := by
  unfold execSeqSeal; try dsimp only
  repeat' first | (with_reducible first | assumption | apply onDesc_inv | apply seqSeal_inv) | simp only [↓inv_pair] | (with_reducible first | apply inv_P | apply invC_next | apply invC_ite | apply invC_fault | (apply inv_ofC; assumption) | (apply inv_fst; assumption)) | with_reducible intro _ | dsimp +zetaDelta only | split

theorem seqTruncate_inv (r d : Nat) (s : State) (h1 : StateInv s) :
    InvP (seqTruncate r d s) := by
  unfold seqTruncate; try dsimp only
  repeat' first | (with_reducible first | assumption | apply inv_ite | apply inv_ite1 | apply bad_inv | apply okR_inv | apply settlePools_inv | apply truncSeq_inv | apply withSeq_inv) | simp only [↓inv_pair] | (with_reducible first | apply inv_P | (apply inv_fst; assumption)) | with_reducible intro _ | dsimp +zetaDelta only | split

theorem execSeqTruncate_inv (fn ring : Nat) (s : State) (h1 : StateInv s) :
    InvC (execSeqTruncate fn ring s) := by
  unfold execSeqTruncate; try dsimp only
  repeat' first | (with_reducible first | assumption | apply onDesc_inv | apply seqTruncate_inv) | simp only [↓inv_pair] | (with_reducible first | apply inv_P | apply invC_next | apply invC_ite | apply invC_fault | (apply inv_ofC; assumption) | (apply inv_fst; assumption)) | with_reducible intro _ | dsimp +zetaDelta only | split

theorem seqPin_inv (r d : Nat) (s : State) (h1 : StateInv s) :
    InvP (seqPin r d s) := by
  unfold seqPin; try dsimp only
  repeat' first | (with_reducible first | assumption | apply inv_ite | apply inv_ite1 | apply bad_inv | apply State.modSeq_inv | apply okR_inv | apply settlePools_inv | apply withSeq_inv) | simp only [↓inv_mk] | simp only [↓inv_pair] | (with_reducible first | apply inv_P | (apply inv_fst; assumption)) | with_reducible intro _ | dsimp +zetaDelta only | split

theorem execSeqPin_inv (fn ring : Nat) (s : State) (h1 : StateInv s) :
    InvC (execSeqPin fn ring s) := by
  unfold execSeqPin; try dsimp only
  repeat' first | (with_reducible first | assumption | apply onDesc_inv | apply seqPin_inv) | simp only [↓inv_pair] | (with_reducible first | apply inv_P | apply invC_next | apply invC_ite | apply invC_fault | (apply inv_ofC; assumption) | (apply inv_fst; assumption)) | with_reducible intro _ | dsimp +zetaDelta only | split

theorem demoteNext_inv (tier : Nat) (p : State × Demote) (b : Nat) (h1 : StateInv p.1) :
    InvP (demoteNext tier p b) := by
  have h := demoteOne_inv tier p.2.ref p.1 b h1
  unfold demoteNext
  split <;> rename_i h2 <;> rw [h2] at h <;> exact h

theorem seqDemote_inv (r d : Nat) (ref : DRef) (s : State) (h1 : StateInv s) :
    InvP (seqDemote r d ref s) := by
  unfold seqDemote; try dsimp only
  repeat' first | (with_reducible first | assumption | apply inv_ite | apply inv_ite1 | apply inv_foldl | apply inv_foldl1 | apply bad_inv | apply demoteNext_inv | apply later_inv | apply State.modKv_inv | apply okR_inv | apply settlePools_inv | apply withSeq_inv) | simp only [↓inv_mk] | simp only [↓inv_pair] | (with_reducible first | apply inv_P | (apply inv_fst; assumption)) | with_reducible intro _ | dsimp +zetaDelta only | split

theorem execSeqDemote_inv (fn ring : Nat) (s : State) (h1 : StateInv s) :
    InvC (execSeqDemote fn ring s) := by
  unfold execSeqDemote; try dsimp only
  repeat' first | (with_reducible first | assumption | apply onDesc_inv | apply seqDemote_inv) | simp only [↓inv_pair] | (with_reducible first | apply inv_P | apply invC_next | apply invC_ite | apply invC_fault | (apply inv_ofC; assumption) | (apply inv_fst; assumption)) | with_reducible intro _ | dsimp +zetaDelta only | split

theorem seqQuery_inv (r d : Nat) (s : State) (h1 : StateInv s) :
    InvP (seqQuery r d s) := by
  unfold seqQuery; try dsimp only
  repeat' first | (with_reducible first | assumption | apply inv_ite | apply inv_ite1 | apply bad_inv | apply hostWrite_inv | apply okR_inv | apply withSeq_inv) | simp only [↓inv_pair] | (with_reducible first | apply inv_P | (apply inv_fst; assumption)) | with_reducible intro _ | dsimp +zetaDelta only | split

theorem execSeqQuery_inv (fn ring : Nat) (s : State) (h1 : StateInv s) :
    InvC (execSeqQuery fn ring s) := by
  unfold execSeqQuery; try dsimp only
  repeat' first | (with_reducible first | assumption | apply onDesc_inv | apply seqQuery_inv) | simp only [↓inv_pair] | (with_reducible first | apply inv_P | apply invC_next | apply invC_ite | apply invC_fault | (apply inv_ofC; assumption) | (apply inv_fst; assumption)) | with_reducible intro _ | dsimp +zetaDelta only | split

theorem readyRecord_inv (s : State) (n : Nat) (h1 : StateInv s) :
    StateInv (readyRecord s n) := by
  unfold readyRecord; try dsimp only
  repeat' first | (with_reducible first | assumption | apply engineWrites_inv) | with_reducible intro _ | dsimp +zetaDelta only | split

theorem missingList_inv (s : State) (p : Plan) (h1 : StateInv s) :
    StateInv (missingList s p) := by
  unfold missingList; try dsimp only
  repeat' first | (with_reducible first | assumption | apply inv_ite | apply hostWrite_inv) | with_reducible intro _ | dsimp +zetaDelta only | split

theorem dropT0_inv (s : State) (b : Nat) (h1 : StateInv s) :
    StateInv (dropT0 s b) := by
  unfold dropT0; try dsimp only
  repeat' first | (with_reducible first | assumption | apply inv_ite | apply State.modBlk_inv | apply State.modT0_inv) | simp only [↓inv_mk] | with_reducible intro _ | dsimp +zetaDelta only | split

theorem stopMoves_inv (s : State) (n : Nat) (h1 : StateInv s) :
    StateInv (stopMoves s n) := by
  unfold stopMoves; try dsimp only
  repeat' first | (with_reducible first | assumption | apply inv_ite | apply inv_foldl | apply dropT0_inv | apply State.modPlan_inv | apply State.modPort_inv) | simp only [↓inv_mk] | with_reducible intro _ | dsimp +zetaDelta only | split

theorem planRecord_inv (s : State) (n status : Nat) (settled : Bool) (h1 : StateInv s) :
    StateInv (planRecord s n status settled) := by
  unfold planRecord
  repeat' first | (with_reducible first | assumption | apply feedPut_inv) | split

theorem checkSettle_inv (s : State) (n : Nat) (h1 : StateInv s) :
    StateInv (checkSettle s n) := by
  unfold checkSettle; try dsimp only
  repeat' first | (with_reducible first | assumption | apply inv_ite | apply State.modPlan_inv | apply planRecord_inv | apply postEvent_inv | apply readyRecord_inv) | simp only [↓inv_mk] | with_reducible intro _ | dsimp +zetaDelta only | split

theorem completePlan_inv (s : State) (n : Nat) (st : PlanSt) (status time : Nat) (h1 : StateInv s) :
    StateInv (completePlan s n st status time) := by
  unfold completePlan; try dsimp only
  repeat' first | (with_reducible first | assumption | apply inv_ite | apply checkSettle_inv | apply finish_inv | apply missingList_inv | apply State.modKv_inv | apply State.modPlan_inv | apply planRecord_inv | apply readyRecord_inv | apply stopMoves_inv) | simp only [↓inv_mk] | with_reducible intro _ | dsimp +zetaDelta only | split

theorem lateNow_inv (s : State) (n : Nat) (h1 : StateInv s) :
    StateInv (lateNow s n) := by
  unfold lateNow; try dsimp only
  repeat' first | (with_reducible first | assumption | apply inv_ite | apply completePlan_inv) | with_reducible intro _ | dsimp +zetaDelta only | split

theorem failMove_inv (s : State) (n b status : Nat) (h1 : StateInv s) :
    StateInv (failMove s n b status) := by
  unfold failMove; try dsimp only
  repeat' first | (with_reducible first | assumption | apply inv_ite | apply checkSettle_inv | apply completePlan_inv | apply dropT0_inv | apply lateNow_inv | apply State.modPlan_inv) | simp only [↓inv_mk] | with_reducible intro _ | dsimp +zetaDelta only | split

theorem pumpSome_inv (p z0 : Nat) (z1 : State) (h1 : StateInv z1) :
    StateInv (pumpSome p z0 z1) := by
  fun_induction pumpSome p z0 z1 <;> try dsimp +zetaDelta only
  all_goals repeat' first | (with_reducible first | assumption | apply inv_ite | apply engineWrites_inv | apply failMove_inv | apply Rest.go_inv | apply State.modPlan_inv | apply writeEntries_inv) | simp only [↓inv_mk] | simp only [↓invX_mk] | simp only [↓invXP_pair] | (with_reducible first | apply invXP_ite | apply invXP_foldl | apply inv_XP | apply invX_ite | apply invX_foldl | apply invX_s) | with_reducible apply_assumption -exfalso | with_reducible intro _ | dsimp +zetaDelta only | split

theorem pump_inv (s : State) (p : Nat) (h1 : StateInv s) :
    StateInv (pump s p) := by
  unfold pump; try dsimp only
  repeat' first | (with_reducible first | assumption | apply inv_foldl | apply pumpSome_inv) | with_reducible intro _ | dsimp +zetaDelta only | split

theorem startMove_inv (n p : Nat) (s : State) (x : Nat × Nat × Nat) (h1 : StateInv s) :
    StateInv (startMove n p s x) := by
  unfold startMove; try dsimp only
  repeat' first | (with_reducible first | assumption | apply inv_ite | apply inv_ite1 | apply beginRead_inv | apply State.modBlk_inv | apply State.modPlan_inv | apply takeT0_inv | apply touch_inv) | simp only [↓inv_mk] | simp only [↓inv_pair] | (with_reducible first | apply inv_P | (apply inv_fst; assumption)) | with_reducible intro _ | dsimp +zetaDelta only | split

theorem startGrow_inv (n : Nat) (s : State) (e : PlanEntry) (h1 : StateInv s) :
    StateInv (startGrow n s e) := by
  unfold startGrow; try dsimp only
  repeat' first | (with_reducible first | assumption | apply growMany_inv | apply State.modPlan_inv) | simp only [↓inv_mk] | simp only [↓inv_pair] | (with_reducible first | apply inv_P | (apply inv_fst; assumption)) | with_reducible intro _ | dsimp +zetaDelta only | split

theorem planPost_inv (r d : Nat) (ref : DRef) (read : HRead) (s : State) (h1 : StateInv s) :
    InvP (planPost r d ref read s) := by
  unfold planPost; try dsimp only
  repeat' first | (with_reducible first | assumption | apply inv_ite | apply inv_ite1 | apply inv_foldl | apply inv_foldl1 | apply bad_inv | apply badR_inv | apply completePlan_inv | apply hold_inv | apply lateNow_inv | apply later_inv | apply State.modKv_inv | apply pump_inv | apply settlePools_inv | apply startGrow_inv | apply startMove_inv | apply unorder_inv) | simp only [↓inv_mk] | simp only [↓inv_pair] | (with_reducible first | apply inv_P | (apply inv_fst; assumption)) | with_reducible intro _ | dsimp +zetaDelta only | split

theorem execPlanPost_inv (fn ring : Nat) (entries : HRead) (s : State) (h1 : StateInv s) :
    InvC (execPlanPost fn ring entries s) := by
  unfold execPlanPost; try dsimp only
  repeat' first | (with_reducible first | assumption | apply onDesc_inv | apply planPost_inv) | simp only [↓inv_pair] | (with_reducible first | apply inv_P | apply invC_next | apply invC_ite | apply invC_fault | (apply inv_ofC; assumption) | (apply inv_fst; assumption)) | with_reducible intro _ | dsimp +zetaDelta only | split

theorem promote_inv (s : State) (b tier : Nat) (bs : List Byte) (h1 : StateInv s) :
    StateInv (promote s b tier bs) := by
  unfold promote; try dsimp only
  repeat' first | (with_reducible first | assumption | apply inv_ite | apply inv_ite1 | apply leaveTier_inv | apply State.modBlk_inv | apply State.modPool_inv | apply putData_inv) | simp only [↓inv_mk] | simp only [↓inv_pair] | (with_reducible first | apply inv_P | (apply inv_fst; assumption)) | with_reducible intro _ | dsimp +zetaDelta only | split

theorem doBlockRead_inv (n b : Nat) (ext : ARead) (s : State) (h1 : StateInv s) :
    StateInv (doBlockRead n b ext s) := by
  unfold doBlockRead; try dsimp only
  repeat' first | (with_reducible first | assumption | apply inv_ite | apply inv_ite1 | apply badT1_inv | apply beginRead_inv | apply failMove_inv | apply State.modPlan_inv | apply promote_inv | apply pump_inv | apply settlePools_inv | apply takeData_inv) | simp only [↓inv_mk] | simp only [↓inv_pair] | (with_reducible first | apply inv_P | (apply inv_fst; assumption)) | with_reducible intro _ | dsimp +zetaDelta only | split

theorem execBlockReadReturn_inv (plan block : Nat) (ext : ARead) (s : State) (h1 : StateInv s) :
    InvC (execBlockReadReturn plan block ext s) := by
  unfold execBlockReadReturn
  repeat' first | (with_reducible first | assumption | apply doBlockRead_inv) | (with_reducible first | apply invC_next | apply invC_ite | apply invC_fault | (apply inv_ofC; assumption)) | with_reducible intro _

theorem checkReady_inv (s : State) (n : Nat) (h1 : StateInv s) :
    StateInv (checkReady s n) := by
  unfold checkReady; try dsimp only
  repeat' first | (with_reducible first | assumption | apply inv_ite | apply checkSettle_inv | apply completePlan_inv) | with_reducible intro _ | dsimp +zetaDelta only | split

theorem becomeResident_inv (s : State) (b : Nat) (h1 : StateInv s) :
    StateInv (becomeResident s b) := by
  unfold becomeResident; try dsimp only
  repeat' first | (with_reducible first | assumption | apply inv_ite | apply inv_foldl | apply checkReady_inv | apply lateNow_inv | apply State.modBlk_inv | apply State.modPlan_inv | apply touch_inv) | simp only [↓inv_mk] | with_reducible intro _ | dsimp +zetaDelta only | split

theorem doResident_inv (n b : Nat) (s : State) (h1 : StateInv s) :
    StateInv (doResident n b s) := by
  unfold doResident; try dsimp only
  repeat' first | (with_reducible first | assumption | apply inv_ite | apply becomeResident_inv | apply pump_inv) | with_reducible intro _ | dsimp +zetaDelta only | split

theorem execBlockResident_inv (plan block : Nat) (s : State) (h1 : StateInv s) :
    InvC (execBlockResident plan block s) := by
  unfold execBlockResident
  repeat' first | (with_reducible first | assumption | apply doResident_inv) | (with_reducible first | apply invC_next | apply invC_ite | apply invC_fault | (apply inv_ofC; assumption)) | with_reducible intro _

theorem doPlanDeadline_inv (n : Nat) (s : State) (h1 : StateInv s) :
    StateInv (doPlanDeadline n s) := by
  unfold doPlanDeadline; try dsimp only
  repeat' first | (with_reducible first | assumption | apply inv_ite | apply advanceToPtp_inv | apply completePlan_inv | apply pump_inv) | with_reducible intro _ | dsimp +zetaDelta only | split

theorem execPlanDeadline_inv (plan : Nat) (s : State) (h1 : StateInv s) :
    InvC (execPlanDeadline plan s) := by
  unfold execPlanDeadline
  repeat' first | (with_reducible first | assumption | apply doPlanDeadline_inv) | (with_reducible first | apply invC_next | apply invC_ite | apply invC_fault | (apply inv_ofC; assumption)) | with_reducible intro _

theorem releasePlan_inv (s : State) (n : Nat) (h1 : StateInv s) :
    StateInv (releasePlan s n) := by
  unfold releasePlan; try dsimp only
  repeat' first | (with_reducible first | assumption | apply State.modKv_inv | apply pump_inv | apply stopMoves_inv) | simp only [↓inv_mk] | with_reducible intro _ | dsimp +zetaDelta only | split

theorem doPlanRelease_inv (n : Nat) (s : State) (h1 : StateInv s) :
    StateInv (doPlanRelease n s) := by
  unfold doPlanRelease
  repeat' first | (with_reducible first | assumption | apply inv_ite | apply advanceToPtp_inv | apply hold_inv | apply releasePlan_inv) | with_reducible intro _ | split

theorem execPlanRelease_inv (plan : Nat) (s : State) (h1 : StateInv s) :
    InvC (execPlanRelease plan s) := by
  unfold execPlanRelease
  repeat' first | (with_reducible first | assumption | apply doPlanRelease_inv) | (with_reducible first | apply invC_next | apply invC_ite | apply invC_fault | (apply inv_ofC; assumption)) | with_reducible intro _

theorem planCancel_inv (r ring d : Nat) (ref : DRef) (s : State) (h1 : StateInv s) :
    InvP (planCancel r ring d ref s) := by
  unfold planCancel; try dsimp only
  repeat' first | (with_reducible first | assumption | apply inv_ite | apply inv_ite1 | apply finish_inv | apply okR_inv | apply planRecord_inv | apply releasePlan_inv | apply stopMoves_inv | apply unorder_inv) | simp only [↓inv_pair] | (with_reducible first | apply inv_P | (apply inv_fst; assumption)) | with_reducible intro _ | dsimp +zetaDelta only | split

theorem execPlanCancel_inv (fn ring : Nat) (s : State) (h1 : StateInv s) :
    InvC (execPlanCancel fn ring s) := by
  unfold execPlanCancel; try dsimp only
  repeat' first | (with_reducible first | assumption | apply onDesc_inv | apply planCancel_inv) | simp only [↓inv_pair] | (with_reducible first | apply inv_P | apply invC_next | apply invC_ite | apply invC_fault | (apply inv_ofC; assumption) | (apply inv_fst; assumption)) | with_reducible intro _ | dsimp +zetaDelta only | split

theorem settleTables_inv (s : State) (h1 : StateInv s) :
    StateInv (settleTables s) := by
  unfold settleTables; try dsimp only
  repeat' first | (with_reducible first | assumption | apply inv_ite | apply inv_foldl | apply finish_inv | apply State.modKv_inv) | simp only [↓inv_mk] | with_reducible intro _ | dsimp +zetaDelta only | split

theorem departed_inv (p : Nat) (s : State) (h1 : StateInv s) :
    StateInv (departed p s) := by
  unfold departed; try dsimp only
  repeat' first | (with_reducible first | assumption | apply inv_ite | apply inv_foldl | apply becomeResident_inv | apply checkClose_inv | apply doEgressDepart_inv | apply pump_inv | apply settleTables_inv) | with_reducible intro _ | dsimp +zetaDelta only | split

theorem execEgressDepart_inv (port : Nat) (s : State) (h1 : StateInv s) :
    InvC (execEgressDepart port s) := by
  unfold execEgressDepart
  repeat' first | (with_reducible first | assumption | apply departed_inv) | (with_reducible first | apply invC_next | apply invC_ite | apply invC_fault | (apply inv_ofC; assumption)) | with_reducible intro _

theorem kvEnd_inv (s : State) (status item : Nat) (h1 : StateInv s) :
    StateInv (kvEnd s status item) := by
  unfold kvEnd; try dsimp only
  repeat' first | (with_reducible first | assumption | apply State.modKv_inv) | simp only [↓inv_mk] | with_reducible intro _ | dsimp +zetaDelta only | split

theorem doKvCommit_inv (s : State) (h1 : StateInv s) :
    StateInv (doKvCommit s) := by
  unfold doKvCommit; try dsimp only
  repeat' first | (with_reducible first | assumption | apply inv_ite | apply kvEnd_inv | apply State.modKv_inv) | simp only [↓inv_mk] | with_reducible intro _ | dsimp +zetaDelta only | split

theorem execKvSetCommit_inv (s : State) (h1 : StateInv s) :
    InvC (execKvSetCommit s) := by
  unfold execKvSetCommit
  repeat' first | (with_reducible first | assumption | apply doKvCommit_inv | apply joinSet_inv) | (with_reducible first | apply invC_next | apply invC_ite | apply invC_fault | (apply inv_ofC; assumption)) | with_reducible intro _

theorem doKvUnlock_inv (s : State) (h1 : StateInv s) :
    StateInv (doKvUnlock s) := by
  unfold doKvUnlock; try dsimp only
  repeat' first | (with_reducible first | assumption | apply inv_ite | apply kvEnd_inv | apply State.modKv_inv) | simp only [↓inv_mk] | with_reducible intro _ | dsimp +zetaDelta only | split

theorem execKvSetUnlock_inv (s : State) (h1 : StateInv s) :
    InvC (execKvSetUnlock s) := by
  unfold execKvSetUnlock
  repeat' first | (with_reducible first | assumption | apply doKvUnlock_inv | apply joinSet_inv) | (with_reducible first | apply invC_next | apply invC_ite | apply invC_fault | (apply inv_ofC; assumption)) | with_reducible intro _

end Sys2Proof.Machine
end

