-- ==== Sys2Proof/Laws/InvStorage.lean ====
section
/-!
SUPPORT. What every step keeps, function by function: storage, remote memory, the Pynex cores and takes.
-/
set_option Elab.async false
set_option linter.all false
namespace Sys2Proof.Machine

theorem placeCtrl_inv (s : State) (c : Nat) (h1 : StateInv s) :
    StateInv (placeCtrl s c) := by
  unfold placeCtrl; try dsimp only
  repeat' first | (with_reducible first | assumption | apply State.modCtl_inv) | simp only [↓inv_mk] | with_reducible intro _ | dsimp +zetaDelta only | split

theorem replace_inv (s : State) (c : Nat) (h1 : StateInv s) :
    StateInv (replace s c) := by
  unfold replace
  repeat' first | (with_reducible first | assumption | apply inv_ite | apply placeCtrl_inv) | with_reducible intro _ | split

theorem cqIrq_inv (s : State) (r intms iv : Nat) (h1 : StateInv s) :
    StateInv (cqIrq s r intms iv) := by
  unfold cqIrq
  repeat' first | (with_reducible first | assumption | apply inv_ite | apply raiseVec_inv) | with_reducible intro _

theorem writeNvmCqe_inv (s : State) (c q dw0 sq cid sf : Nat) (h1 : StateInv s) :
    StateInv (writeNvmCqe s c q dw0 sq cid sf) := by
  unfold writeNvmCqe; try dsimp only
  repeat' first | (with_reducible first | assumption | apply inv_ite | apply cqIrq_inv | apply hostWrite_inv | apply State.modCtl_inv) | simp only [↓inv_mk] | with_reducible intro _ | dsimp +zetaDelta only | split

theorem postNvm_inv (s : State) (c sq cid dw0 sf : Nat) (h1 : StateInv s) :
    StateInv (postNvm s c sq cid dw0 sf) := by
  unfold postNvm; try dsimp only
  repeat' first | (with_reducible first | assumption | apply inv_ite | apply State.modCtl_inv | apply writeNvmCqe_inv) | simp only [↓inv_mk] | with_reducible intro _ | dsimp +zetaDelta only | split

theorem drainNvm_inv (z0 : Nat) (z1 : State) (z2 z3 : Nat) (h1 : StateInv z1) :
    StateInv (drainNvm z0 z1 z2 z3) := by
  fun_induction drainNvm z0 z1 z2 z3 <;> try dsimp +zetaDelta only
  all_goals repeat' first | (with_reducible first | assumption | apply inv_ite | apply State.modCtl_inv | apply writeNvmCqe_inv) | simp only [↓inv_mk] | with_reducible apply_assumption -exfalso | with_reducible intro _ | dsimp +zetaDelta only | split

theorem endNvm_inv (s : State) (c : Nat) (m : NvmCmd) (dw0 sf : Nat) (h1 : StateInv s) :
    StateInv (endNvm s c m dw0 sf) := by
  unfold endNvm; try dsimp only
  repeat' first | (with_reducible first | assumption | apply inv_ite | apply State.modCtl_inv | apply State.modSto_inv | apply postNvm_inv) | simp only [↓inv_mk] | with_reducible intro _ | dsimp +zetaDelta only | split

theorem deliverAsync_inv (z0 : Nat) (z1 : State) (z2 : Nat) (h1 : StateInv z1) :
    StateInv (deliverAsync z0 z1 z2) := by
  fun_induction deliverAsync z0 z1 z2 <;> try dsimp +zetaDelta only
  all_goals repeat' first | (with_reducible first | assumption | apply endNvm_inv | apply State.modCtl_inv) | simp only [↓inv_mk] | with_reducible apply_assumption -exfalso | with_reducible intro _ | dsimp +zetaDelta only | split

theorem asyncEvent_inv (s : State) (c dw0 : Nat) (h1 : StateInv s) :
    StateInv (asyncEvent s c dw0) := by
  unfold asyncEvent; try dsimp only
  repeat' first | (with_reducible first | assumption | apply inv_ite | apply deliverAsync_inv | apply State.modCtl_inv) | simp only [↓inv_mk] | with_reducible intro _ | dsimp +zetaDelta only | split

theorem nsChanged_inv (s : State) (c nsid : Nat) (h1 : StateInv s) :
    StateInv (nsChanged s c nsid) := by
  unfold nsChanged; try dsimp only
  repeat' first | (with_reducible first | assumption | apply inv_ite | apply asyncEvent_inv | apply State.modCtl_inv) | simp only [↓inv_mk] | with_reducible intro _ | dsimp +zetaDelta only | split

theorem settleDetach_inv (s : State) (n : Nat) (h1 : StateInv s) :
    StateInv (settleDetach s n) := by
  unfold settleDetach; try dsimp only
  repeat' first | (with_reducible first | assumption | apply inv_ite | apply finish_inv | apply State.modNs_inv | apply nsChanged_inv) | simp only [↓inv_mk] | with_reducible intro _ | dsimp +zetaDelta only | split

theorem nsCrypt_inv (s : State) (die : Nat) (enc : Bool) (x : Namespace) (lba : Nat) (bs : List Byte) (h1 : StateInv s) :
    InvP (nsCrypt s die enc x lba bs) := by
  unfold nsCrypt
  repeat' first | (with_reducible first | assumption | apply cryptBlocks_inv) | simp only [↓inv_pair] | (with_reducible first | apply inv_P | (apply inv_fst; assumption)) | dsimp +zetaDelta only | split

theorem dropBlock_inv (s : State) (id : Nat) (h1 : StateInv s) :
    StateInv (dropBlock s id) := by
  unfold dropBlock; try dsimp only
  repeat' first | (with_reducible first | assumption | apply State.modSto_inv) | simp only [↓inv_mk] | with_reducible intro _ | dsimp +zetaDelta only | split

theorem modBlock_inv (s : State) (id : Nat) (f : WBlock → WBlock) (h1 : StateInv s) :
    StateInv (modBlock s id f) := by
  unfold modBlock; try dsimp only
  repeat' first | (with_reducible first | assumption | apply inv_ite | apply State.modSto_inv) | simp only [↓inv_mk] | with_reducible intro _ | dsimp +zetaDelta only | split

theorem rewait_inv (s : State) (old new : Nat) (h1 : StateInv s) :
    StateInv (rewait s old new) := by
  unfold rewait; try dsimp only
  repeat' first | (with_reducible first | assumption | apply inv_ite | apply State.modSto_inv) | simp only [↓inv_mk] | with_reducible intro _ | dsimp +zetaDelta only | split

theorem placeBlock_inv (s : State) (cl n lba : Nat) (bs : List Byte) (h1 : StateInv s) :
    InvOP (placeBlock s cl n lba bs) := by
  unfold placeBlock; try dsimp only
  repeat' first | (with_reducible first | assumption | apply inv_ite | apply inv_ite1 | apply dropBlock_inv | apply engineWrite_inv | apply modBlock_inv | apply State.modSto_inv | apply rewait_inv) | simp only [↓inv_mk] | simp only [↓inv_pair] | (with_reducible first | apply inv_P | apply invO_none | apply invO_some | apply invO_ite | (apply inv_of; assumption) | apply invOP_none | apply invOP_some | apply invOP_ite | (apply inv_of1; assumption) | (apply inv_of2; assumption) | (apply inv_fst; assumption)) | with_reducible intro _ | dsimp +zetaDelta only | split

theorem loseBuffered_inv (s : State) (w : WBlock) (h1 : StateInv s) :
    StateInv (loseBuffered s w) := by
  unfold loseBuffered; try dsimp only
  repeat' first | (with_reducible first | assumption | apply inv_foldl | apply dropBlock_inv | apply State.modSto_inv | apply postEventS_inv) | simp only [↓inv_mk] | with_reducible intro _ | dsimp +zetaDelta only | split

theorem modCmd_inv (s : State) (c no : Nat) (f : NvmCmd → NvmCmd) (h1 : StateInv s) :
    StateInv (modCmd s c no f) := by
  unfold modCmd; try dsimp only
  repeat' first | (with_reducible first | assumption | apply inv_ite | apply State.modCtl_inv) | simp only [↓inv_mk] | with_reducible intro _ | dsimp +zetaDelta only | split

theorem sendCmds_inv (b : Nat) (z0 : List BCmd) (z1 : Nat) (z2 : State) (z3 : List BCmd) (h1 : StateInv z2) :
    InvP (sendCmds b z0 z1 z2 z3) := by
  fun_induction sendCmds b z0 z1 z2 z3 <;> try dsimp +zetaDelta only
  all_goals repeat' first | (with_reducible first | assumption | apply inv_ite | apply inv_ite1 | apply emit_inv | apply modCmd_inv) | simp only [↓inv_mk] | simp only [↓inv_pair] | (with_reducible first | apply inv_P | (apply inv_fst; assumption)) | with_reducible apply_assumption -exfalso | with_reducible intro _ | dsimp +zetaDelta only | split

theorem sendBack_inv (s : State) (b : Nat) (h1 : StateInv s) :
    StateInv (sendBack s b) := by
  unfold sendBack; try dsimp only
  repeat' first | (with_reducible first | assumption | apply inv_ite | apply inv_ite1 | apply State.modBack_inv | apply sendCmds_inv) | simp only [↓inv_mk] | simp only [↓inv_pair] | (with_reducible first | apply inv_P | (apply inv_fst; assumption)) | with_reducible intro _ | dsimp +zetaDelta only | split

theorem addB_inv (s : State) (b : Nat) (m : BCmd) (h1 : StateInv s) :
    StateInv (addB s b m) := by
  unfold addB; try dsimp only
  repeat' first | (with_reducible first | assumption | apply State.modBack_inv) | simp only [↓inv_mk] | with_reducible intro _ | dsimp +zetaDelta only | split

theorem placeWrite_inv (z0 : Nat) (z1 : State) (z2 : Nat) (z3 : NvmCmd) (h1 : StateInv z1) :
    StateInv (placeWrite z0 z1 z2 z3) := by
  fun_induction placeWrite z0 z1 z2 z3 <;> try dsimp +zetaDelta only
  all_goals repeat' first | (with_reducible first | assumption | apply inv_ite | apply inv_ite1 | apply endNvm_inv | apply modCmd_inv | apply placeBlock_inv) | simp only [↓inv_mk] | simp only [↓inv_pair] | (with_reducible first | apply inv_P | apply invO_none | apply invO_some | apply invO_ite | (apply inv_of; assumption) | apply inv_getD | apply invOP_none | apply invOP_some | apply invOP_ite | (apply inv_of1; assumption) | (apply inv_of2; assumption) | (apply inv_fst; assumption)) | with_reducible apply_assumption -exfalso | with_reducible intro _ | dsimp +zetaDelta only | split

theorem placeWaiting_inv (z0 : Nat) (z1 : State) (h1 : StateInv z1) :
    StateInv (placeWaiting z0 z1) := by
  fun_induction placeWaiting z0 z1 <;> try dsimp +zetaDelta only
  all_goals repeat' first | (with_reducible first | assumption | apply inv_ite | apply State.modSto_inv | apply placeWrite_inv) | simp only [↓inv_mk] | with_reducible apply_assumption -exfalso | with_reducible intro _ | dsimp +zetaDelta only | split

theorem stepCmd_inv (s : State) (c : Nat) (m : NvmCmd) (h1 : StateInv s) :
    StateInv (stepCmd s c m) := by
  unfold stepCmd; try dsimp only
  repeat' first | (with_reducible first | assumption | apply inv_ite | apply inv_ite1 | apply inv_foldl | apply inv_foldl1 | apply addB_inv | apply endNvm_inv | apply modCmd_inv | apply nsCrypt_inv) | simp only [↓inv_mk] | simp only [↓inv_pair] | (with_reducible first | apply inv_P | (apply inv_fst; assumption)) | with_reducible intro _ | dsimp +zetaDelta only | split

theorem startBack_inv (s : State) (w : WBlock) (h1 : StateInv s) :
    StateInv (startBack s w) := by
  unfold startBack; try dsimp only
  repeat' first | (with_reducible first | assumption | apply inv_ite | apply inv_ite1 | apply addB_inv | apply engineRead_inv | apply loseBuffered_inv | apply modBlock_inv | apply nsCrypt_inv) | simp only [↓inv_mk] | simp only [↓inv_pair] | (with_reducible first | apply inv_P | (apply inv_fst; assumption)) | with_reducible intro _ | dsimp +zetaDelta only | split

theorem checkFreezeNvm_inv (s : State) (c : Nat) (k : Ctrl) (h1 : StateInv s) :
    StateInv (checkFreezeNvm s c k) := by
  unfold checkFreezeNvm; try dsimp only
  repeat' first | (with_reducible first | assumption | apply inv_ite | apply finish_inv | apply State.modFn_inv) | simp only [↓inv_mk] | with_reducible intro _ | dsimp +zetaDelta only | split

theorem fetchNvm_inv (c q : Nat) (s : State) (bs : List Byte) (h1 : StateInv s) :
    StateInv (fetchNvm c q s bs) := by
  unfold fetchNvm; try dsimp only
  repeat' first | (with_reducible first | assumption | apply inv_ite | apply endNvm_inv | apply State.modCtl_inv | apply postNvm_inv) | simp only [↓inv_mk] | with_reducible intro _ | dsimp +zetaDelta only | split

theorem fetchTo_inv (s : State) (c q : Nat) (read : HRead) (h1 : StateInv s) :
    StateInv (fetchTo s c q read) := by
  unfold fetchTo; try dsimp only
  repeat' first | (with_reducible first | assumption | apply inv_ite | apply inv_foldl | apply fetchNvm_inv | apply State.modCtl_inv) | simp only [↓inv_mk] | with_reducible intro _ | dsimp +zetaDelta only | split

theorem fetchLate_inv (s : State) (c : Nat) (h1 : StateInv s) :
    StateInv (fetchLate s c) := by
  unfold fetchLate; try dsimp only
  repeat' first | (with_reducible first | assumption | apply inv_ite | apply inv_foldl | apply fetchTo_inv) | with_reducible intro _ | dsimp +zetaDelta only | split

theorem settleSto_inv (s : State) (h1 : StateInv s) :
    StateInv (settleSto s) := by
  unfold settleSto; try dsimp only
  repeat' first | (with_reducible first | assumption | apply inv_ite | apply inv_foldl | apply checkFreezeNvm_inv | apply fetchLate_inv | apply placeWaiting_inv | apply replace_inv | apply sendBack_inv | apply settleDetach_inv | apply startBack_inv | apply stepCmd_inv) | with_reducible intro _ | dsimp +zetaDelta only | split

theorem scatter_inv (r : Nat) (z0 : List (Nat × Nat)) (z1 : Nat) (z2 : List Byte) (z3 : State) (h1 : StateInv z3) :
    StateInv (scatter r z0 z1 z2 z3) := by
  fun_induction scatter r z0 z1 z2 z3 <;> try dsimp +zetaDelta only
  all_goals repeat' first | (with_reducible first | assumption | apply inv_ite | apply hostWrite_inv) | with_reducible apply_assumption -exfalso | with_reducible intro _ | dsimp +zetaDelta only | split

theorem adminData_inv (s : State) (c : Nat) (m : NvmCmd) (list : HRead) (bs : List Byte) (h1 : StateInv s) :
    StateInv (adminData s c m list bs) := by
  unfold adminData
  repeat' first | (with_reducible first | assumption | apply endNvm_inv | apply scatter_inv) | split

theorem onNvm_inv (s : State) (r q op : Nat) (eff : Nat → NvmCmd → State → State) (h1 : StateInv s) (h2 : ∀ (y0 : Nat) (y1 : NvmCmd) (y2 : State), StateInv y2 → StateInv (eff y0 y1 y2)) :
    StateInv (onNvm s r q op eff) := by
  unfold onNvm; try dsimp only
  repeat' first | (with_reducible first | assumption | apply inv_ite | apply h2 | apply modCmd_inv) | simp only [↓inv_mk] | with_reducible intro _ | dsimp +zetaDelta only | split

theorem ctrlStart_inv (s : State) (c : Nat) (h1 : StateInv s) :
    StateInv (ctrlStart s c) := by
  unfold ctrlStart; try dsimp only
  repeat' first | (with_reducible first | assumption | apply State.modCtl_inv | apply placeCtrl_inv) | simp only [↓inv_mk] | with_reducible intro _ | dsimp +zetaDelta only | split

theorem ctrlStop_inv (s : State) (c : Nat) (h1 : StateInv s) :
    StateInv (ctrlStop s c) := by
  unfold ctrlStop; try dsimp only
  repeat' first | (with_reducible first | assumption | apply State.modCtl_inv | apply State.modSto_inv | apply settleSto_inv) | simp only [↓inv_mk] | with_reducible intro _ | dsimp +zetaDelta only | split

theorem doCcSet_inv (r cc : Nat) (s : State) (h1 : StateInv s) :
    StateInv (doCcSet r cc s) := by
  unfold doCcSet; try dsimp only
  repeat' first | (with_reducible first | assumption | apply inv_ite | apply ctrlStart_inv | apply State.modCtl_inv | apply State.modFn_inv) | simp only [↓inv_mk] | with_reducible intro _ | dsimp +zetaDelta only | split

theorem execCcEnSet_inv (fn cc : Nat) (s : State) (h1 : StateInv s) :
    InvC (execCcEnSet fn cc s) := by
  unfold execCcEnSet
  repeat' first | (with_reducible first | assumption | apply doCcSet_inv | apply gated_inv) | (with_reducible first | apply invC_next | apply invC_ite | apply invC_fault | (apply inv_ofC; assumption)) | with_reducible intro _

theorem doSqTail_inv (r q tail : Nat) (read : HRead) (s : State) (h1 : StateInv s) :
    StateInv (doSqTail r q tail read s) := by
  unfold doSqTail; try dsimp only
  repeat' first | (with_reducible first | assumption | apply inv_ite | apply asyncEvent_inv | apply fetchTo_inv | apply State.modCtl_inv) | simp only [↓inv_mk] | with_reducible intro _ | dsimp +zetaDelta only | split

theorem execSqTailDoorbell_inv (fn q tail : Nat) (cmds : HRead) (s : State) (h1 : StateInv s) :
    InvC (execSqTailDoorbell fn q tail cmds s) := by
  unfold execSqTailDoorbell
  repeat' first | (with_reducible first | assumption | apply doSqTail_inv | apply gated_inv) | (with_reducible first | apply invC_next | apply invC_ite | apply invC_fault | (apply inv_ofC; assumption)) | with_reducible intro _

theorem doCqHead_inv (r q head : Nat) (s : State) (h1 : StateInv s) :
    StateInv (doCqHead r q head s) := by
  unfold doCqHead; try dsimp only
  repeat' first | (with_reducible first | assumption | apply inv_ite | apply asyncEvent_inv | apply checkFreezeNvm_inv | apply drainNvm_inv | apply State.modCtl_inv) | simp only [↓inv_mk] | with_reducible intro _ | dsimp +zetaDelta only | split

theorem execCqHeadDoorbell_inv (fn q head : Nat) (s : State) (h1 : StateInv s) :
    InvC (execCqHeadDoorbell fn q head s) := by
  unfold execCqHeadDoorbell
  repeat' first | (with_reducible first | assumption | apply doCqHead_inv | apply gated_inv) | (with_reducible first | apply invC_next | apply invC_ite | apply invC_fault | (apply inv_ofC; assumption)) | with_reducible intro _

theorem beginFlush_inv (s : State) (c : Nat) (m : NvmCmd) (ns : List Nat) (h1 : StateInv s) :
    StateInv (beginFlush s c m ns) := by
  unfold beginFlush; try dsimp only
  repeat' first | (with_reducible first | assumption | apply modCmd_inv | apply settleSto_inv) | simp only [↓inv_mk] | with_reducible intro _ | dsimp +zetaDelta only | split

theorem doShutdown_inv (r shn : Nat) (s : State) (h1 : StateInv s) :
    StateInv (doShutdown r shn s) := by
  unfold doShutdown; try dsimp only
  repeat' first | (with_reducible first | assumption | apply inv_ite | apply beginFlush_inv | apply State.modCtl_inv) | simp only [↓inv_mk] | with_reducible intro _ | dsimp +zetaDelta only | split

theorem execNvmeShutdown_inv (fn shn : Nat) (s : State) (h1 : StateInv s) :
    InvC (execNvmeShutdown fn shn s) := by
  unfold execNvmeShutdown
  repeat' first | (with_reducible first | assumption | apply doShutdown_inv | apply gated_inv) | (with_reducible first | apply invC_next | apply invC_ite | apply invC_fault | (apply inv_ofC; assumption)) | with_reducible intro _

theorem doIdentify_inv (list : HRead) (c : Nat) (m : NvmCmd) (s : State) (h1 : StateInv s) :
    StateInv (doIdentify list c m s) := by
  unfold doIdentify; try dsimp only
  repeat' first | (with_reducible first | assumption | apply inv_ite | apply adminData_inv | apply endNvm_inv) | with_reducible intro _ | dsimp +zetaDelta only | split

theorem execIdentify_inv (fn : Nat) (prps : HRead) (s : State) (h1 : StateInv s) :
    InvC (execIdentify fn prps s) := by
  unfold execIdentify
  repeat' first | (with_reducible first | assumption | apply doIdentify_inv | apply onNvm_inv) | (with_reducible first | apply invC_next | apply invC_ite | apply invC_fault | (apply inv_ofC; assumption)) | with_reducible intro _

theorem doGetLog_inv (list : HRead) (c : Nat) (m : NvmCmd) (s : State) (h1 : StateInv s) :
    StateInv (doGetLog list c m s) := by
  unfold doGetLog; try dsimp only
  repeat' first | (with_reducible first | assumption | apply inv_ite | apply adminData_inv | apply deliverAsync_inv | apply endNvm_inv | apply State.modCtl_inv) | simp only [↓inv_mk] | with_reducible intro _ | dsimp +zetaDelta only | split

theorem execGetLogPage_inv (fn : Nat) (prps : HRead) (s : State) (h1 : StateInv s) :
    InvC (execGetLogPage fn prps s) := by
  unfold execGetLogPage
  repeat' first | (with_reducible first | assumption | apply doGetLog_inv | apply onNvm_inv) | (with_reducible first | apply invC_next | apply invC_ite | apply invC_fault | (apply inv_ofC; assumption)) | with_reducible intro _

theorem doSetFeatures_inv (c : Nat) (m : NvmCmd) (s : State) (h1 : StateInv s) :
    StateInv (doSetFeatures c m s) := by
  unfold doSetFeatures; try dsimp only
  repeat' first | (with_reducible first | assumption | apply inv_ite | apply endNvm_inv | apply State.modCtl_inv) | simp only [↓inv_mk] | with_reducible intro _ | dsimp +zetaDelta only | split

theorem execSetFeatures_inv (fn : Nat) (s : State) (h1 : StateInv s) :
    InvC (execSetFeatures fn s) := by
  unfold execSetFeatures
  repeat' first | (with_reducible first | assumption | apply doSetFeatures_inv | apply onNvm_inv) | (with_reducible first | apply invC_next | apply invC_ite | apply invC_fault | (apply inv_ofC; assumption)) | with_reducible intro _

theorem doGetFeatures_inv (c : Nat) (m : NvmCmd) (s : State) (h1 : StateInv s) :
    StateInv (doGetFeatures c m s) := by
  unfold doGetFeatures; try dsimp only
  repeat' first | (with_reducible first | assumption | apply inv_ite | apply endNvm_inv) | with_reducible intro _ | dsimp +zetaDelta only

theorem execGetFeatures_inv (fn : Nat) (s : State) (h1 : StateInv s) :
    InvC (execGetFeatures fn s) := by
  unfold execGetFeatures
  repeat' first | (with_reducible first | assumption | apply doGetFeatures_inv | apply onNvm_inv) | (with_reducible first | apply invC_next | apply invC_ite | apply invC_fault | (apply inv_ofC; assumption)) | with_reducible intro _

theorem doCreateCq_inv (c : Nat) (m : NvmCmd) (s : State) (h1 : StateInv s) :
    StateInv (doCreateCq c m s) := by
  unfold doCreateCq; try dsimp only
  repeat' first | (with_reducible first | assumption | apply inv_ite | apply endNvm_inv | apply State.modCtl_inv) | simp only [↓inv_mk] | with_reducible intro _ | dsimp +zetaDelta only | split

theorem execCreateIoCq_inv (fn : Nat) (s : State) (h1 : StateInv s) :
    InvC (execCreateIoCq fn s) := by
  unfold execCreateIoCq
  repeat' first | (with_reducible first | assumption | apply doCreateCq_inv | apply onNvm_inv) | (with_reducible first | apply invC_next | apply invC_ite | apply invC_fault | (apply inv_ofC; assumption)) | with_reducible intro _

theorem doCreateSq_inv (c : Nat) (m : NvmCmd) (s : State) (h1 : StateInv s) :
    StateInv (doCreateSq c m s) := by
  unfold doCreateSq; try dsimp only
  repeat' first | (with_reducible first | assumption | apply inv_ite | apply endNvm_inv | apply State.modCtl_inv) | simp only [↓inv_mk] | with_reducible intro _ | dsimp +zetaDelta only | split

theorem execCreateIoSq_inv (fn : Nat) (s : State) (h1 : StateInv s) :
    InvC (execCreateIoSq fn s) := by
  unfold execCreateIoSq
  repeat' first | (with_reducible first | assumption | apply doCreateSq_inv | apply onNvm_inv) | (with_reducible first | apply invC_next | apply invC_ite | apply invC_fault | (apply inv_ofC; assumption)) | with_reducible intro _

theorem doDeleteSq_inv (c : Nat) (m : NvmCmd) (s : State) (h1 : StateInv s) :
    StateInv (doDeleteSq c m s) := by
  unfold doDeleteSq; try dsimp only
  repeat' first | (with_reducible first | assumption | apply inv_ite | apply inv_foldl | apply endNvm_inv | apply State.modCtl_inv | apply settleSto_inv) | simp only [↓inv_mk] | with_reducible intro _ | dsimp +zetaDelta only | split

theorem execDeleteIoSq_inv (fn : Nat) (s : State) (h1 : StateInv s) :
    InvC (execDeleteIoSq fn s) := by
  unfold execDeleteIoSq; try dsimp only
  repeat' first | (with_reducible first | assumption | apply doDeleteSq_inv | apply onNvm_inv) | (with_reducible first | apply invC_next | apply invC_ite | apply invC_fault | (apply inv_ofC; assumption)) | with_reducible intro _ | dsimp +zetaDelta only

theorem doDeleteCq_inv (c : Nat) (m : NvmCmd) (s : State) (h1 : StateInv s) :
    StateInv (doDeleteCq c m s) := by
  unfold doDeleteCq; try dsimp only
  repeat' first | (with_reducible first | assumption | apply inv_ite | apply endNvm_inv | apply State.modCtl_inv) | simp only [↓inv_mk] | with_reducible intro _ | dsimp +zetaDelta only | split

theorem execDeleteIoCq_inv (fn : Nat) (s : State) (h1 : StateInv s) :
    InvC (execDeleteIoCq fn s) := by
  unfold execDeleteIoCq; try dsimp only
  repeat' first | (with_reducible first | assumption | apply doDeleteCq_inv | apply onNvm_inv) | (with_reducible first | apply invC_next | apply invC_ite | apply invC_fault | (apply inv_ofC; assumption)) | with_reducible intro _ | dsimp +zetaDelta only

theorem abortOutcome_inv (c : Nat) (m : NvmCmd) (s : State) (h1 : StateInv s) :
    StateInv (abortOutcome c m s) := by
  unfold abortOutcome; try dsimp only
  repeat' first | (with_reducible first | assumption | apply inv_ite | apply endNvm_inv | apply State.modSto_inv | apply settleSto_inv) | simp only [↓inv_mk] | with_reducible intro _ | dsimp +zetaDelta only | split

theorem doNvmeAbort_inv (c : Nat) (m : NvmCmd) (s : State) (h1 : StateInv s) :
    StateInv (doNvmeAbort c m s) := by
  unfold doNvmeAbort; try dsimp only
  repeat' first | (with_reducible first | assumption | apply abortOutcome_inv | apply State.modCtl_inv) | simp only [↓inv_mk] | with_reducible intro _ | dsimp +zetaDelta only | split

theorem execNvmeAbort_inv (fn : Nat) (s : State) (h1 : StateInv s) :
    InvC (execNvmeAbort fn s) := by
  unfold execNvmeAbort
  repeat' first | (with_reducible first | assumption | apply doNvmeAbort_inv | apply onNvm_inv) | (with_reducible first | apply invC_next | apply invC_ite | apply invC_fault | (apply inv_ofC; assumption)) | with_reducible intro _

theorem doAer_inv (c : Nat) (_m : NvmCmd) (s : State) (h1 : StateInv s) :
    StateInv (doAer c _m s) := by
  unfold doAer
  repeat' first | (with_reducible first | assumption | apply deliverAsync_inv)

theorem execAsyncEventRequest_inv (fn : Nat) (s : State) (h1 : StateInv s) :
    InvC (execAsyncEventRequest fn s) := by
  unfold execAsyncEventRequest
  repeat' first | (with_reducible first | assumption | apply doAer_inv | apply onNvm_inv) | (with_reducible first | apply invC_next | apply invC_ite | apply invC_fault | (apply inv_ofC; assumption)) | with_reducible intro _

theorem ioCheck_inv (s : State) (c : Nat) (m : NvmCmd) (limit : Nat) (act : Nat → Namespace → NvmCmd → State) (h1 : StateInv s) (h2 : ∀ (y0 : Nat) (y1 : Namespace) (y2 : NvmCmd), StateInv (act y0 y1 y2)) :
    StateInv (ioCheck s c m limit act) := by
  unfold ioCheck; try dsimp only
  repeat' first | (with_reducible first | assumption | apply inv_ite | apply h2 | apply endNvm_inv) | simp only [↓inv_mk] | with_reducible intro _ | dsimp +zetaDelta only | split

theorem endRead_inv (s : State) (c : Nat) (m : NvmCmd) (h1 : StateInv s) :
    StateInv (endRead s c m) := by
  unfold endRead; try dsimp only
  repeat' first | (with_reducible first | assumption | apply inv_foldl | apply endNvm_inv | apply State.modCtl_inv | apply scatter_inv) | simp only [↓inv_mk] | with_reducible intro _ | dsimp +zetaDelta only | split

theorem readBuffered_inv (c : Nat) (p : State × NvmCmd) (i : Nat) (h1 : InvP p) :
    InvP (readBuffered c p i) := by
  unfold readBuffered; try dsimp only
  repeat' first | (with_reducible first | assumption | apply inv_ite | apply inv_ite1 | apply engineRead_inv | apply loseBuffered_inv) | simp only [↓inv_mk] | simp only [↓inv_pair] | (with_reducible first | apply inv_P | (apply inv_fst; assumption)) | with_reducible intro _ | dsimp +zetaDelta only | split

theorem doRead_inv (list : HRead) (c : Nat) (m0 : NvmCmd) (s : State) (h1 : StateInv s) :
    StateInv (doRead list c m0 s) := by
  unfold doRead; try dsimp only
  repeat' first | (with_reducible first | assumption | apply inv_ite | apply inv_ite1 | apply inv_foldl | apply inv_foldl1 | apply addB_inv | apply endNvm_inv | apply endRead_inv | apply ioCheck_inv | apply modCmd_inv | apply readBuffered_inv | apply settleSto_inv) | simp only [↓inv_mk] | simp only [↓inv_pair] | (with_reducible first | apply inv_P | (apply inv_fst; assumption)) | with_reducible intro _ | dsimp +zetaDelta only | split

theorem execNvmeRead_inv (fn sq : Nat) (prps : HRead) (s : State) (h1 : StateInv s) :
    InvC (execNvmeRead fn sq prps s) := by
  unfold execNvmeRead
  repeat' first | (with_reducible first | assumption | apply inv_ite | apply doRead_inv | apply onNvm_inv) | (with_reducible first | apply invC_next | apply invC_ite | apply invC_fault | (apply inv_ofC; assumption)) | with_reducible intro _

theorem beginWrite_inv (c n : Nat) (m : NvmCmd) (s : State) (h1 : StateInv s) :
    StateInv (beginWrite c n m s) := by
  unfold beginWrite; try dsimp only
  repeat' first | (with_reducible first | assumption | apply inv_ite | apply endNvm_inv | apply modCmd_inv | apply State.modCtl_inv | apply State.modSto_inv | apply settleSto_inv) | simp only [↓inv_mk] | with_reducible intro _ | dsimp +zetaDelta only | split

theorem doWrite_inv (data : HRead) (c : Nat) (m0 : NvmCmd) (s : State) (h1 : StateInv s) :
    StateInv (doWrite data c m0 s) := by
  unfold doWrite; try dsimp only
  repeat' first | (with_reducible first | assumption | apply inv_ite | apply beginWrite_inv | apply endNvm_inv | apply ioCheck_inv) | simp only [↓inv_mk] | with_reducible intro _ | dsimp +zetaDelta only | split

theorem execNvmeWrite_inv (fn sq : Nat) (data : HRead) (s : State) (h1 : StateInv s) :
    InvC (execNvmeWrite fn sq data s) := by
  unfold execNvmeWrite
  repeat' first | (with_reducible first | assumption | apply inv_ite | apply doWrite_inv | apply onNvm_inv) | (with_reducible first | apply invC_next | apply invC_ite | apply invC_fault | (apply inv_ofC; assumption)) | with_reducible intro _

theorem doWriteZeroes_inv (c : Nat) (m0 : NvmCmd) (s : State) (h1 : StateInv s) :
    StateInv (doWriteZeroes c m0 s) := by
  unfold doWriteZeroes; try dsimp only
  repeat' first | (with_reducible first | assumption | apply beginWrite_inv | apply ioCheck_inv) | simp only [↓inv_mk] | with_reducible intro _ | dsimp +zetaDelta only | split

theorem execWriteZeroes_inv (fn sq : Nat) (s : State) (h1 : StateInv s) :
    InvC (execWriteZeroes fn sq s) := by
  unfold execWriteZeroes
  repeat' first | (with_reducible first | assumption | apply inv_ite | apply doWriteZeroes_inv | apply onNvm_inv) | (with_reducible first | apply invC_next | apply invC_ite | apply invC_fault | (apply inv_ofC; assumption)) | with_reducible intro _

theorem doFlush_inv (c : Nat) (m : NvmCmd) (s : State) (h1 : StateInv s) :
    StateInv (doFlush c m s) := by
  unfold doFlush; try dsimp only
  repeat' first | (with_reducible first | assumption | apply inv_ite | apply beginFlush_inv | apply endNvm_inv) | with_reducible intro _ | dsimp +zetaDelta only

theorem execNvmeFlush_inv (fn sq : Nat) (s : State) (h1 : StateInv s) :
    InvC (execNvmeFlush fn sq s) := by
  unfold execNvmeFlush
  repeat' first | (with_reducible first | assumption | apply inv_ite | apply doFlush_inv | apply onNvm_inv) | (with_reducible first | apply invC_next | apply invC_ite | apply invC_fault | (apply inv_ofC; assumption)) | with_reducible intro _

theorem doDsm_inv (read : HRead) (c : Nat) (m : NvmCmd) (s : State) (h1 : StateInv s) :
    StateInv (doDsm read c m s) := by
  unfold doDsm; try dsimp only
  repeat' first | (with_reducible first | assumption | apply inv_ite | apply endNvm_inv | apply modCmd_inv | apply State.modSto_inv | apply settleSto_inv) | simp only [↓inv_mk] | with_reducible intro _ | dsimp +zetaDelta only | split

theorem execDatasetManagement_inv (fn sq : Nat) (ranges : HRead) (s : State) (h1 : StateInv s) :
    InvC (execDatasetManagement fn sq ranges s) := by
  unfold execDatasetManagement
  repeat' first | (with_reducible first | assumption | apply inv_ite | apply doDsm_inv | apply onNvm_inv) | (with_reducible first | apply invC_next | apply invC_ite | apply invC_fault | (apply inv_ofC; assumption)) | with_reducible intro _

theorem backOutcome_inv (s : State) (k : Backend) (m : BCmd) (cl : Nat) (ans : BRead) (h1 : StateInv s) :
    InvP (backOutcome s k m cl ans) := by
  unfold backOutcome; try dsimp only
  repeat' first | (with_reducible first | assumption | apply inv_ite | apply inv_ite1 | apply engineRead_inv | apply engineWrite_inv) | simp only [↓inv_pair] | (with_reducible first | apply inv_P | (apply inv_fst; assumption)) | with_reducible intro _ | dsimp +zetaDelta only | split

theorem hostPart_inv (s : State) (c no : Nat) (m : BCmd) (st : Nat) (bs : List Byte) (h1 : StateInv s) :
    StateInv (hostPart s c no m st bs) := by
  unfold hostPart; try dsimp only
  repeat' first | (with_reducible first | assumption | apply inv_ite | apply inv_ite1 | apply inv_foldl | apply inv_foldl1 | apply endNvm_inv | apply endRead_inv | apply modCmd_inv | apply State.modSto_inv | apply nsCrypt_inv) | simp only [↓inv_mk] | simp only [↓inv_pair] | (with_reducible first | apply inv_P | (apply inv_fst; assumption)) | with_reducible intro _ | dsimp +zetaDelta only | split

theorem backPart_inv (s : State) (b id st : Nat) (h1 : StateInv s) :
    StateInv (backPart s b id st) := by
  unfold backPart; try dsimp only
  repeat' first | (with_reducible first | assumption | apply inv_ite | apply inv_foldl | apply dropBlock_inv | apply State.modSto_inv | apply postEventS_inv) | simp only [↓inv_mk] | with_reducible intro _ | dsimp +zetaDelta only | split

theorem backDone_inv (s : State) (b i : Nat) (sel : BFor → Bool) (ans : BRead) (h1 : StateInv s) :
    InvP (backDone s b i sel ans) := by
  unfold backDone; try dsimp only
  repeat' first | (with_reducible first | assumption | apply inv_ite | apply inv_ite1 | apply backOutcome_inv | apply State.modBack_inv) | simp only [↓inv_mk] | simp only [↓inv_pair] | (with_reducible first | apply inv_P | (apply inv_fst; assumption)) | with_reducible intro _ | dsimp +zetaDelta only | split

theorem doWriteBack_inv (b i : Nat) (ans : BRead) (s : State) (h1 : StateInv s) :
    StateInv (doWriteBack b i ans s) := by
  unfold doWriteBack
  repeat' first | (with_reducible first | assumption | apply backDone_inv | apply backPart_inv | apply settleSto_inv) | simp only [↓inv_pair] | (with_reducible first | apply inv_P | (apply inv_fst; assumption)) | dsimp +zetaDelta only | split

theorem execWriteBackComplete_inv (backend which : Nat) (answer : BRead) (s : State) (h1 : StateInv s) :
    InvC (execWriteBackComplete backend which answer s) := by
  unfold execWriteBackComplete
  repeat' first | (with_reducible first | assumption | apply doWriteBack_inv) | (with_reducible first | apply invC_next | apply invC_ite | apply invC_fault | (apply inv_ofC; assumption)) | with_reducible intro _

theorem modRunning_inv (s : State) (core : Nat) (f : Launch → Launch) (h1 : StateInv s) :
    StateInv (modRunning s core f) := by
  unfold modRunning; try dsimp only
  repeat' first | (with_reducible first | assumption | apply inv_ite | apply State.modCore_inv) | simp only [↓inv_mk] | with_reducible intro _ | dsimp +zetaDelta only | split

theorem abortLaunchSteps_inv (s : State) (core : Nat) (h1 : StateInv s) :
    StateInv (abortLaunchSteps s core) := by
  unfold abortLaunchSteps; try dsimp only
  repeat' first | (with_reducible first | assumption | apply inv_foldl | apply abortCtx_inv | apply State.modCore_inv | apply State.modRed_inv | apply settleCand_inv) | simp only [↓inv_mk] | with_reducible intro _ | dsimp +zetaDelta only | split

theorem openJournal_inv (s : State) (core from_ : Nat) (h1 : StateInv s) :
    StateInv (openJournal s core from_) := by
  unfold openJournal; try dsimp only
  repeat' first | (with_reducible first | assumption | apply State.modCore_inv) | simp only [↓inv_mk] | with_reducible intro _ | dsimp +zetaDelta only | split

theorem closeJournal_inv (s : State) (core : Nat) (h1 : StateInv s) :
    StateInv (closeJournal s core) := by
  unfold closeJournal; try dsimp only
  repeat' first | (with_reducible first | assumption | apply State.modCore_inv) | simp only [↓inv_mk] | with_reducible intro _ | dsimp +zetaDelta only | split

theorem endLaunch_inv (s : State) (core status result : Nat) (h1 : StateInv s) :
    StateInv (endLaunch s core status result) := by
  unfold endLaunch; try dsimp only
  repeat' first | (with_reducible first | assumption | apply abortLaunchSteps_inv | apply closeJournal_inv | apply finish_inv | apply State.modCore_inv) | simp only [↓inv_mk] | with_reducible intro _ | dsimp +zetaDelta only | split

theorem loadData_inv (s : State) (core : Nat) (l : Launch) (h1 : StateInv s) :
    StateInv (loadData s core l) := by
  unfold loadData; try dsimp only
  repeat' first | (with_reducible first | assumption | apply inv_ite | apply State.modCore_inv) | simp only [↓inv_mk] | with_reducible intro _ | dsimp +zetaDelta only | split

theorem enterProgram_inv (s : State) (core : Nat) (l : Launch) (slot entry : Nat) (h1 : StateInv s) :
    StateInv (enterProgram s core l slot entry) := by
  unfold enterProgram; try dsimp only
  repeat' first | (with_reducible first | assumption | apply inv_foldl | apply State.modCore_inv) | simp only [↓inv_mk] | with_reducible intro _ | dsimp +zetaDelta only | split

theorem endQueued_inv (s : State) (core : Nat) (ref : DRef) (status : Nat) (h1 : StateInv s) :
    StateInv (endQueued s core ref status) := by
  unfold endQueued; try dsimp only
  repeat' first | (with_reducible first | assumption | apply finish_inv | apply State.modCore_inv) | simp only [↓inv_mk] | with_reducible intro _ | dsimp +zetaDelta only | split

theorem programFault_inv (s : State) (core pc code : Nat) (h1 : StateInv s) :
    StateInv (programFault s core pc code) := by
  unfold programFault
  repeat' first | (with_reducible first | assumption | apply inv_ite | apply endLaunch_inv) | with_reducible intro _

theorem State.modRdma_inv (s : State) (f : Rdma → Rdma) (h1 : StateInv s) :
    StateInv (State.modRdma s f) := by
  unfold State.modRdma; try dsimp only
  repeat' first | (with_reducible first | assumption) | simp only [↓inv_mk] | simp only [↓invQ_pair] | (with_reducible first | apply inv_Q | apply invQ_ite | (apply inv_ofQ; assumption)) | with_reducible intro _ | dsimp +zetaDelta only | split

theorem State.modQp_inv (s : State) (n : Nat) (f : Qp → Qp) (h1 : StateInv s) :
    StateInv (State.modQp s n f) := by
  unfold State.modQp; try dsimp only
  repeat' first | (with_reducible first | assumption | apply State.modRdma_inv) | simp only [↓inv_mk] | with_reducible intro _ | dsimp +zetaDelta only | split

theorem State.modRtile_inv (s : State) (t : Nat) (f : RdmaTile → RdmaTile) (h1 : StateInv s) :
    StateInv (State.modRtile s t f) := by
  unfold State.modRtile; try dsimp only
  repeat' first | (with_reducible first | assumption | apply State.modRdma_inv) | simp only [↓inv_mk] | simp only [↓invQ_pair] | (with_reducible first | apply inv_Q | apply invQ_ite | (apply inv_ofQ; assumption)) | with_reducible intro _ | dsimp +zetaDelta only | split

theorem State.modCtile_inv (s : State) (t : Nat) (f : ClsTile → ClsTile) (h1 : StateInv s) :
    StateInv (State.modCtile s t f) := by
  unfold State.modCtile; try dsimp only
  repeat' first | (with_reducible first | assumption) | simp only [↓inv_mk] | dsimp +zetaDelta only | split

theorem State.modNetPort_inv (s : State) (p : Nat) (f : NetPort → NetPort) (h1 : StateInv s) :
    StateInv (State.modNetPort s p f) := by
  unfold State.modNetPort; try dsimp only
  repeat' first | (with_reducible first | assumption) | simp only [↓inv_mk] | dsimp +zetaDelta only | split

theorem State.modNetIf_inv (s : State) (j : Nat) (f : NetIf → NetIf) (h1 : StateInv s) :
    StateInv (State.modNetIf s j f) := by
  unfold State.modNetIf; try dsimp only
  repeat' first | (with_reducible first | assumption) | simp only [↓inv_mk] | dsimp +zetaDelta only | split

theorem mrRead_inv (s : State) (tile : Nat) (m : Mr) (va n : Nat) (host : HRead) (h1 : StateInv s) :
    InvP (mrRead s tile m va n host) := by
  unfold mrRead
  repeat' first | (with_reducible first | assumption | apply inv_ite | apply inv_ite1 | apply engineRead_inv) | simp only [↓inv_pair] | (with_reducible first | apply inv_P | (apply inv_fst; assumption)) | with_reducible intro _ | dsimp +zetaDelta only | split

theorem mrWrite_inv (s : State) (tile : Nat) (m : Mr) (va : Nat) (bs : List Byte) (h1 : StateInv s) :
    InvP (mrWrite s tile m va bs) := by
  unfold mrWrite
  repeat' first | (with_reducible first | assumption | apply inv_ite | apply inv_ite1 | apply engineWrite_inv | apply hostWrite_inv) | simp only [↓inv_pair] | (with_reducible first | apply inv_P | (apply inv_fst; assumption)) | with_reducible intro _ | dsimp +zetaDelta only | split

theorem pdAlloc_inv (r : Nat) (s : State) (h1 : StateInv s) :
    InvP (pdAlloc r s) := by
  unfold pdAlloc; try dsimp only
  repeat' first | (with_reducible first | assumption | apply bad_inv | apply State.modRdma_inv | apply okR_inv) | simp only [↓inv_mk] | simp only [↓inv_pair] | (with_reducible first | apply inv_P | (apply inv_fst; assumption)) | with_reducible intro _ | dsimp +zetaDelta only | split

theorem execPdAlloc_inv (fn ring : Nat) (s : State) (h1 : StateInv s) :
    InvC (execPdAlloc fn ring s) := by
  unfold execPdAlloc; try dsimp only
  repeat' first | (with_reducible first | assumption | apply onDesc_inv | apply pdAlloc_inv) | simp only [↓inv_pair] | (with_reducible first | apply inv_P | apply invC_next | apply invC_ite | apply invC_fault | (apply inv_ofC; assumption) | (apply inv_fst; assumption)) | with_reducible intro _ | dsimp +zetaDelta only | split

theorem pdFree_inv (r pd : Nat) (s : State) (h1 : StateInv s) :
    InvP (pdFree r pd s) := by
  unfold pdFree; try dsimp only
  repeat' first | (with_reducible first | assumption | apply inv_ite | apply inv_ite1 | apply bad_inv | apply State.modRdma_inv | apply ok0_inv) | simp only [↓inv_mk] | simp only [↓inv_pair] | (with_reducible first | apply inv_P | (apply inv_fst; assumption)) | with_reducible intro _ | dsimp +zetaDelta only | split

theorem execPdFree_inv (fn ring : Nat) (s : State) (h1 : StateInv s) :
    InvC (execPdFree fn ring s) := by
  unfold execPdFree; try dsimp only
  repeat' first | (with_reducible first | assumption | apply onDesc_inv | apply pdFree_inv) | simp only [↓inv_pair] | (with_reducible first | apply inv_P | apply invC_next | apply invC_ite | apply invC_fault | (apply inv_ofC; assumption) | (apply inv_fst; assumption)) | with_reducible intro _ | dsimp +zetaDelta only | split

theorem mrReg_inv (r d : Nat) (s : State) (h1 : StateInv s) :
    InvP (mrReg r d s) := by
  unfold mrReg; try dsimp only
  repeat' first | (with_reducible first | assumption | apply inv_ite | apply inv_ite1 | apply bad_inv | apply State.modRdma_inv | apply okR_inv) | simp only [↓inv_mk] | simp only [↓inv_pair] | (with_reducible first | apply inv_P | (apply inv_fst; assumption)) | with_reducible intro _ | dsimp +zetaDelta only | split

theorem execMrReg_inv (fn ring : Nat) (s : State) (h1 : StateInv s) :
    InvC (execMrReg fn ring s) := by
  unfold execMrReg; try dsimp only
  repeat' first | (with_reducible first | assumption | apply mrReg_inv | apply onDesc_inv) | simp only [↓inv_pair] | (with_reducible first | apply inv_P | apply invC_next | apply invC_ite | apply invC_fault | (apply inv_ofC; assumption) | (apply inv_fst; assumption)) | with_reducible intro _ | dsimp +zetaDelta only | split

theorem mrDereg_inv (r key : Nat) (s : State) (h1 : StateInv s) :
    InvP (mrDereg r key s) := by
  unfold mrDereg; try dsimp only
  repeat' first | (with_reducible first | assumption | apply inv_ite | apply inv_ite1 | apply bad_inv | apply State.modRdma_inv | apply ok0_inv) | simp only [↓inv_mk] | simp only [↓inv_pair] | (with_reducible first | apply inv_P | (apply inv_fst; assumption)) | with_reducible intro _ | dsimp +zetaDelta only | split

theorem execMrDereg_inv (fn ring : Nat) (s : State) (h1 : StateInv s) :
    InvC (execMrDereg fn ring s) := by
  unfold execMrDereg; try dsimp only
  repeat' first | (with_reducible first | assumption | apply mrDereg_inv | apply onDesc_inv) | simp only [↓inv_pair] | (with_reducible first | apply inv_P | apply invC_next | apply invC_ite | apply invC_fault | (apply inv_ofC; assumption) | (apply inv_fst; assumption)) | with_reducible intro _ | dsimp +zetaDelta only | split

theorem makeRoom_inv (s : State) (t : Nat) (h1 : StateInv s) :
    InvO (makeRoom s t) := by
  unfold makeRoom; try dsimp only
  repeat' first | (with_reducible first | assumption | apply inv_ite | apply emit_inv | apply State.modQp_inv) | simp only [↓inv_mk] | (with_reducible first | apply invO_none | apply invO_some | apply invO_ite | (apply inv_of; assumption)) | with_reducible intro _ | dsimp +zetaDelta only | split

theorem useCtx_inv (s : State) (n : Nat) (dirty : Bool) (h1 : StateInv s) :
    StateInv (useCtx s n dirty) := by
  unfold useCtx; try dsimp only
  repeat' first | (with_reducible first | assumption | apply State.modQp_inv | apply State.modRdma_inv) | simp only [↓inv_mk] | with_reducible intro _ | dsimp +zetaDelta only | split

theorem install_inv (s : State) (n : Nat) (h1 : StateInv s) :
    InvO (install s n) := by
  unfold install; try dsimp only
  repeat' first | (with_reducible first | assumption | apply makeRoom_inv | apply State.modQp_inv) | simp only [↓inv_mk] | (with_reducible first | apply invO_none | apply invO_some | apply invO_ite | (apply inv_of; assumption) | apply invO_map) | with_reducible intro _ | dsimp +zetaDelta only | split

theorem touchCtx_inv (s : State) (n : Nat) (h1 : StateInv s) :
    StateInv (touchCtx s n) := by
  unfold touchCtx
  repeat' first | (with_reducible first | assumption | apply inv_ite | apply install_inv | apply useCtx_inv) | (with_reducible first | apply invO_none | apply invO_some | apply invO_ite | (apply inv_of; assumption) | apply inv_getD) | with_reducible intro _ | split

theorem bindQps_inv (s : State) (ns : List Nat) (m : Nat) (h1 : StateInv s) :
    StateInv (bindQps s ns m) := by
  unfold bindQps
  repeat' first | (with_reducible first | assumption | apply inv_foldl | apply bindMark_inv | apply touchCtx_inv) | with_reducible intro _

theorem endSend_inv (s : State) (n : Nat) (w : SendWr) (status result : Nat) (h1 : StateInv s) :
    StateInv (endSend s n w status result) := by
  unfold endSend; try dsimp only
  repeat' first | (with_reducible first | assumption | apply inv_ite | apply endLaunch_inv | apply finish_inv) | with_reducible intro _ | dsimp +zetaDelta only | split

theorem endRecv_inv (s : State) (n : Nat) (w : RecvWr) (status result imm sol src : Nat) (h1 : StateInv s) :
    StateInv (endRecv s n w status result imm sol src) := by
  unfold endRecv
  repeat' first | (with_reducible first | assumption | apply finish_inv)

theorem flushQp_inv (s : State) (n : Nat) (h1 : StateInv s) :
    StateInv (flushQp s n) := by
  unfold flushQp; try dsimp only
  repeat' first | (with_reducible first | assumption | apply inv_foldl | apply endRecv_inv | apply endSend_inv | apply State.modQp_inv) | simp only [↓inv_mk] | with_reducible intro _ | dsimp +zetaDelta only | split

theorem qpError_inv (s : State) (n cause psn : Nat) (h1 : StateInv s) :
    StateInv (qpError s n cause psn) := by
  unfold qpError; try dsimp only
  repeat' first | (with_reducible first | assumption | apply inv_ite | apply downBackend_inv | apply flushQp_inv | apply State.modQp_inv | apply postEventS_inv | apply State.reset_inv) | simp only [↓inv_mk] | with_reducible intro _ | dsimp +zetaDelta only | split

theorem sendError_inv (s : State) (n : Nat) (w : SendWr) (status result : Nat) (h1 : StateInv s) :
    StateInv (sendError s n w status result) := by
  unfold sendError; try dsimp only
  repeat' first | (with_reducible first | assumption | apply endSend_inv | apply State.modQp_inv | apply qpError_inv) | simp only [↓inv_mk] | with_reducible intro _ | dsimp +zetaDelta only | split

theorem squallRecord_inv (s : State) (n : Nat) (q : Qp) (close : Bool) (peak open_ low cnps from_ : Nat) (h1 : StateInv s) :
    StateInv (squallRecord s n q close peak open_ low cnps from_) := by
  unfold squallRecord
  repeat' first | (with_reducible first | assumption | apply inv_ite | apply feedPut_inv) | with_reducible intro _

theorem checkSquall_inv (s : State) (n : Nat) (h1 : StateInv s) :
    StateInv (checkSquall s n) := by
  unfold checkSquall; try dsimp only
  repeat' first | (with_reducible first | assumption | apply inv_ite | apply State.modQp_inv | apply squallRecord_inv) | simp only [↓inv_mk] | with_reducible intro _ | dsimp +zetaDelta only | split

theorem doGustTick_inv (s : State) (h1 : StateInv s) :
    StateInv (doGustTick s) := by
  unfold doGustTick; try dsimp only
  repeat' first | (with_reducible first | assumption | apply inv_ite | apply inv_foldl | apply advanceTo_inv | apply checkSquall_inv | apply State.modQp_inv | apply State.reset_inv) | with_reducible intro _ | dsimp +zetaDelta only | split

theorem execGustTick_inv (s : State) (h1 : StateInv s) :
    InvC (execGustTick s) := by
  unfold execGustTick
  repeat' first | (with_reducible first | assumption | apply doGustTick_inv) | (with_reducible first | apply invC_next | apply invC_ite | apply invC_fault | (apply inv_ofC; assumption)) | with_reducible intro _

theorem countOverflow_inv (s : State) (t : Nat) (h1 : StateInv s) :
    StateInv (countOverflow s t) := by
  unfold countOverflow; try dsimp only
  repeat' first | (with_reducible first | assumption | apply State.modCtile_inv) | simp only [↓inv_mk] | with_reducible intro _ | dsimp +zetaDelta only | split

theorem sendPkt_inv (s : State) (n iface attr dest : Nat) (p : RocePkt) (h1 : StateInv s) :
    StateInv (sendPkt s n iface attr dest p) := by
  unfold sendPkt; try dsimp only
  repeat' first | (with_reducible first | assumption | apply inv_ite | apply countOverflow_inv | apply State.modCtile_inv) | simp only [↓inv_mk] | with_reducible intro _ | dsimp +zetaDelta only | split

theorem xmit_inv (s : State) (n : Nat) (q : Qp) (ps : List RocePkt) (h1 : StateInv s) :
    StateInv (xmit s n q ps) := by
  unfold xmit; try dsimp only
  repeat' first | (with_reducible first | assumption | apply inv_foldl | apply sendPkt_inv) | with_reducible intro _ | dsimp +zetaDelta only | split

theorem retransmit_inv (s : State) (n : Nat) (h1 : StateInv s) :
    StateInv (retransmit s n) := by
  unfold retransmit; try dsimp only
  repeat' first | (with_reducible first | assumption | apply State.modQp_inv | apply xmit_inv) | simp only [↓inv_mk] | with_reducible intro _ | dsimp +zetaDelta only | split

theorem localData_inv (s : State) (q : Qp) (w : SendWr) (h1 : StateInv s) :
    InvP (localData s q w) := by
  unfold localData
  repeat' first | (with_reducible first | assumption | apply inv_ite | apply inv_ite1 | apply mrRead_inv) | simp only [↓inv_pair] | (with_reducible first | apply inv_P | (apply inv_fst; assumption)) | with_reducible intro _ | dsimp +zetaDelta only | split

theorem sendUd_inv (s : State) (n : Nat) (q : Qp) (w : SendWr) (bs : List Byte) (h1 : StateInv s) :
    StateInv (sendUd s n q w bs) := by
  unfold sendUd; try dsimp only
  repeat' first | (with_reducible first | assumption | apply inv_ite | apply endSend_inv | apply State.modQp_inv | apply sendPkt_inv) | simp only [↓inv_mk] | with_reducible intro _ | dsimp +zetaDelta only | split

theorem launchWr_inv (s : State) (n : Nat) (q : Qp) (w : SendWr) (h1 : StateInv s) :
    StateInv (launchWr s n q w) := by
  unfold launchWr; try dsimp only
  repeat' first | (with_reducible first | assumption | apply inv_ite | apply inv_ite1 | apply localData_inv | apply State.modQp_inv | apply sendError_inv | apply sendUd_inv | apply xmit_inv) | simp only [↓inv_mk] | simp only [↓inv_pair] | (with_reducible first | apply inv_P | (apply inv_fst; assumption)) | with_reducible intro _ | dsimp +zetaDelta only | split

theorem runSends_inv (z0 : Nat) (z1 : State) (z2 : Nat) (h1 : StateInv z1) :
    StateInv (runSends z0 z1 z2) := by
  fun_induction runSends z0 z1 z2 <;> try dsimp +zetaDelta only
  all_goals repeat' first | (with_reducible first | assumption | apply inv_ite | apply launchWr_inv) | with_reducible apply_assumption -exfalso | with_reducible intro _ | dsimp +zetaDelta only | split

theorem pumpSends_inv (s : State) (n : Nat) (h1 : StateInv s) :
    StateInv (pumpSends s n) := by
  unfold pumpSends
  repeat' first | (with_reducible first | assumption | apply runSends_inv)

theorem checkDrainedQp_inv (s : State) (n : Nat) (h1 : StateInv s) :
    StateInv (checkDrainedQp s n) := by
  unfold checkDrainedQp; try dsimp only
  repeat' first | (with_reducible first | assumption | apply inv_ite | apply State.modQp_inv | apply postEvent_inv) | simp only [↓inv_mk] | with_reducible intro _ | dsimp +zetaDelta only | split

theorem doAckTimeout_inv (n : Nat) (s : State) (h1 : StateInv s) :
    StateInv (doAckTimeout n s) := by
  unfold doAckTimeout; try dsimp only
  repeat' first | (with_reducible first | assumption | apply inv_ite | apply advanceTo_inv | apply State.modQp_inv | apply retransmit_inv | apply sendError_inv) | simp only [↓inv_mk] | with_reducible intro _ | dsimp +zetaDelta only | split

theorem execAckTimeout_inv (qpn : Nat) (s : State) (h1 : StateInv s) :
    InvC (execAckTimeout qpn s) := by
  unfold execAckTimeout
  repeat' first | (with_reducible first | assumption | apply doAckTimeout_inv) | (with_reducible first | apply invC_next | apply invC_ite | apply invC_fault | (apply inv_ofC; assumption)) | with_reducible intro _

theorem doRnrExpiry_inv (n : Nat) (s : State) (h1 : StateInv s) :
    StateInv (doRnrExpiry n s) := by
  unfold doRnrExpiry; try dsimp only
  repeat' first | (with_reducible first | assumption | apply advanceTo_inv | apply State.modQp_inv | apply pumpSends_inv | apply retransmit_inv) | simp only [↓inv_mk] | with_reducible intro _ | dsimp +zetaDelta only | split

theorem execRnrTimerExpiry_inv (qpn : Nat) (s : State) (h1 : StateInv s) :
    InvC (execRnrTimerExpiry qpn s) := by
  unfold execRnrTimerExpiry
  repeat' first | (with_reducible first | assumption | apply doRnrExpiry_inv) | (with_reducible first | apply invC_next | apply invC_ite | apply invC_fault | (apply inv_ofC; assumption)) | with_reducible intro _

theorem takeQpn_inv (s : State) (ep n : Nat) (h1 : StateInv s) :
    StateInv (takeQpn s ep n) := by
  unfold takeQpn; try dsimp only
  repeat' first | (with_reducible first | assumption | apply inv_ite | apply State.modRdma_inv) | simp only [↓inv_mk] | with_reducible intro _ | dsimp +zetaDelta only | split

theorem freeQpn_inv (s : State) (n : Nat) (h1 : StateInv s) :
    StateInv (freeQpn s n) := by
  unfold freeQpn; try dsimp only
  repeat' first | (with_reducible first | assumption | apply inv_ite | apply State.modRdma_inv) | simp only [↓inv_mk] | with_reducible intro _ | dsimp +zetaDelta only | split

theorem qpCreate_inv (r i d : Nat) (s : State) (h1 : StateInv s) :
    InvP (qpCreate r i d s) := by
  unfold qpCreate; try dsimp only
  repeat' first | (with_reducible first | assumption | apply inv_ite | apply inv_ite1 | apply bad_inv | apply State.modRdma_inv | apply okR_inv | apply takeQpn_inv | apply touchCtx_inv) | simp only [↓inv_mk] | simp only [↓inv_pair] | (with_reducible first | apply inv_P | (apply inv_fst; assumption)) | with_reducible intro _ | dsimp +zetaDelta only | split

theorem execQpCreate_inv (fn ring : Nat) (s : State) (h1 : StateInv s) :
    InvC (execQpCreate fn ring s) := by
  unfold execQpCreate; try dsimp only
  repeat' first | (with_reducible first | assumption | apply onDesc_inv | apply qpCreate_inv) | simp only [↓inv_pair] | (with_reducible first | apply inv_P | apply invC_next | apply invC_ite | apply invC_fault | (apply inv_ofC; assumption) | (apply inv_fst; assumption)) | with_reducible intro _ | dsimp +zetaDelta only | split

theorem qpModifyTo_inv (n : Nat) (q : Qp) (a : Nat) (s : State) (h1 : StateInv s) :
    InvP (qpModifyTo n q a s) := by
  unfold qpModifyTo; try dsimp only
  repeat' first | (with_reducible first | assumption | apply inv_ite | apply inv_ite1 | apply bad_inv | apply checkDrainedQp_inv | apply flushQp_inv | apply State.modQp_inv | apply ok0_inv | apply pumpSends_inv | apply qpError_inv | apply touchCtx_inv) | simp only [↓inv_mk] | simp only [↓inv_pair] | (with_reducible first | apply inv_P | (apply inv_fst; assumption)) | with_reducible intro _ | dsimp +zetaDelta only | split

theorem withQp_inv (s : State) (r i n : Nat) (act : Nat → Qp → CmdRes) (h1 : StateInv s) (h2 : ∀ (y0 : Nat) (y1 : Qp), InvP (act y0 y1)) :
    InvP (withQp s r i n act) := by
  unfold withQp
  repeat' first | (with_reducible first | assumption | apply inv_ite | apply inv_ite1 | apply h2 | apply bad_inv) | simp only [↓inv_pair] | (with_reducible first | apply inv_P | (apply inv_fst; assumption)) | with_reducible intro _ | dsimp +zetaDelta only | split

theorem qpModify_inv (r i d : Nat) (read : HRead) (s : State) (h1 : StateInv s) :
    InvP (qpModify r i d read s) := by
  unfold qpModify; try dsimp only
  repeat' first | (with_reducible first | assumption | apply inv_ite | apply inv_ite1 | apply bad_inv | apply qpModifyTo_inv | apply withQp_inv) | simp only [↓inv_pair] | (with_reducible first | apply inv_P | (apply inv_fst; assumption)) | with_reducible intro _ | dsimp +zetaDelta only | split

theorem execQpModify_inv (fn ring : Nat) (attrs : HRead) (s : State) (h1 : StateInv s) :
    InvC (execQpModify fn ring attrs s) := by
  unfold execQpModify; try dsimp only
  repeat' first | (with_reducible first | assumption | apply onDesc_inv | apply qpModify_inv) | simp only [↓inv_pair] | (with_reducible first | apply inv_P | apply invC_next | apply invC_ite | apply invC_fault | (apply inv_ofC; assumption) | (apply inv_fst; assumption)) | with_reducible intro _ | dsimp +zetaDelta only | split

theorem qpQuery_inv (r i d : Nat) (s : State) (h1 : StateInv s) :
    InvP (qpQuery r i d s) := by
  unfold qpQuery; try dsimp only
  repeat' first | (with_reducible first | assumption | apply inv_ite | apply inv_ite1 | apply bad_inv | apply hostWrite_inv | apply ok0_inv | apply withQp_inv) | simp only [↓inv_pair] | (with_reducible first | apply inv_P | (apply inv_fst; assumption)) | with_reducible intro _ | dsimp +zetaDelta only | split

theorem execQpQuery_inv (fn ring : Nat) (s : State) (h1 : StateInv s) :
    InvC (execQpQuery fn ring s) := by
  unfold execQpQuery; try dsimp only
  repeat' first | (with_reducible first | assumption | apply onDesc_inv | apply qpQuery_inv) | simp only [↓inv_pair] | (with_reducible first | apply inv_P | apply invC_next | apply invC_ite | apply invC_fault | (apply inv_ofC; assumption) | (apply inv_fst; assumption)) | with_reducible intro _ | dsimp +zetaDelta only | split

theorem dropQp_inv (s : State) (n : Nat) (h1 : StateInv s) :
    StateInv (dropQp s n) := by
  unfold dropQp; try dsimp only
  repeat' first | (with_reducible first | assumption | apply flushQp_inv | apply freeQpn_inv | apply State.modRdma_inv) | simp only [↓inv_mk] | with_reducible intro _ | dsimp +zetaDelta only | split

theorem execQpDestroy_inv (fn ring : Nat) (s : State) (h1 : StateInv s) :
    InvC (execQpDestroy fn ring s) := by
  unfold execQpDestroy; try dsimp only
  repeat' first | (with_reducible first | assumption | apply dropQp_inv | apply ok0_inv | apply onDesc_inv | apply withQp_inv) | simp only [↓inv_pair] | (with_reducible first | apply inv_P | apply invC_next | apply invC_ite | apply invC_fault | (apply inv_ofC; assumption) | (apply inv_fst; assumption)) | with_reducible intro _ | dsimp +zetaDelta only | split

theorem ahCreate_inv (r d : Nat) (read : HRead) (s : State) (h1 : StateInv s) :
    InvP (ahCreate r d read s) := by
  unfold ahCreate; try dsimp only
  repeat' first | (with_reducible first | assumption | apply inv_ite | apply inv_ite1 | apply bad_inv | apply State.modRdma_inv | apply okR_inv) | simp only [↓inv_mk] | simp only [↓inv_pair] | (with_reducible first | apply inv_P | (apply inv_fst; assumption)) | with_reducible intro _ | dsimp +zetaDelta only | split

theorem execAhCreate_inv (fn ring : Nat) (attrs : HRead) (s : State) (h1 : StateInv s) :
    InvC (execAhCreate fn ring attrs s) := by
  unfold execAhCreate; try dsimp only
  repeat' first | (with_reducible first | assumption | apply ahCreate_inv | apply onDesc_inv) | simp only [↓inv_pair] | (with_reducible first | apply inv_P | apply invC_next | apply invC_ite | apply invC_fault | (apply inv_ofC; assumption) | (apply inv_fst; assumption)) | with_reducible intro _ | dsimp +zetaDelta only | split

theorem execAhDestroy_inv (fn ring : Nat) (s : State) (h1 : StateInv s) :
    InvC (execAhDestroy fn ring s) := by
  unfold execAhDestroy; try dsimp only
  repeat' first | (with_reducible first | assumption | apply bad_inv | apply State.modRdma_inv | apply ok0_inv | apply onDesc_inv) | simp only [↓inv_mk] | simp only [↓inv_pair] | (with_reducible first | apply inv_P | apply invC_next | apply invC_ite | apply invC_fault | (apply inv_ofC; assumption) | (apply inv_fst; assumption)) | with_reducible intro _ | dsimp +zetaDelta only | split

theorem postSend_inv (op r i d : Nat) (ref : DRef) (host : HRead) (s : State) (h1 : StateInv s) :
    InvP (postSend op r i d ref host s) := by
  unfold postSend; try dsimp only
  repeat' first | (with_reducible first | assumption | apply inv_ite | apply inv_ite1 | apply bad_inv | apply later_inv | apply State.modQp_inv | apply pumpSends_inv | apply touchCtx_inv) | simp only [↓inv_mk] | simp only [↓inv_pair] | (with_reducible first | apply inv_P | (apply inv_fst; assumption)) | with_reducible intro _ | dsimp +zetaDelta only | split

theorem execSend_inv (fn ring : Nat) (data : HRead) (s : State) (h1 : StateInv s) :
    InvC (execSend fn ring data s) := by
  unfold execSend; try dsimp only
  repeat' first | (with_reducible first | assumption | apply onDesc_inv | apply postSend_inv) | simp only [↓inv_pair] | (with_reducible first | apply inv_P | apply invC_next | apply invC_ite | apply invC_fault | (apply inv_ofC; assumption) | (apply inv_fst; assumption)) | with_reducible intro _ | dsimp +zetaDelta only | split

theorem execSendImm_inv (fn ring : Nat) (data : HRead) (s : State) (h1 : StateInv s) :
    InvC (execSendImm fn ring data s) := by
  unfold execSendImm; try dsimp only
  repeat' first | (with_reducible first | assumption | apply onDesc_inv | apply postSend_inv) | simp only [↓inv_pair] | (with_reducible first | apply inv_P | apply invC_next | apply invC_ite | apply invC_fault | (apply inv_ofC; assumption) | (apply inv_fst; assumption)) | with_reducible intro _ | dsimp +zetaDelta only | split

theorem execWrite_inv (fn ring : Nat) (data : HRead) (s : State) (h1 : StateInv s) :
    InvC (execWrite fn ring data s) := by
  unfold execWrite; try dsimp only
  repeat' first | (with_reducible first | assumption | apply onDesc_inv | apply postSend_inv) | simp only [↓inv_pair] | (with_reducible first | apply inv_P | apply invC_next | apply invC_ite | apply invC_fault | (apply inv_ofC; assumption) | (apply inv_fst; assumption)) | with_reducible intro _ | dsimp +zetaDelta only | split

theorem execWriteImm_inv (fn ring : Nat) (data : HRead) (s : State) (h1 : StateInv s) :
    InvC (execWriteImm fn ring data s) := by
  unfold execWriteImm; try dsimp only
  repeat' first | (with_reducible first | assumption | apply onDesc_inv | apply postSend_inv) | simp only [↓inv_pair] | (with_reducible first | apply inv_P | apply invC_next | apply invC_ite | apply invC_fault | (apply inv_ofC; assumption) | (apply inv_fst; assumption)) | with_reducible intro _ | dsimp +zetaDelta only | split

theorem execRead_inv (fn ring : Nat) (s : State) (h1 : StateInv s) :
    InvC (execRead fn ring s) := by
  unfold execRead; try dsimp only
  repeat' first | (with_reducible first | assumption | apply onDesc_inv | apply postSend_inv) | simp only [↓inv_pair] | (with_reducible first | apply inv_P | apply invC_next | apply invC_ite | apply invC_fault | (apply inv_ofC; assumption) | (apply inv_fst; assumption)) | with_reducible intro _ | dsimp +zetaDelta only | split

theorem execAtomicCas_inv (fn ring : Nat) (s : State) (h1 : StateInv s) :
    InvC (execAtomicCas fn ring s) := by
  unfold execAtomicCas; try dsimp only
  repeat' first | (with_reducible first | assumption | apply onDesc_inv | apply postSend_inv) | simp only [↓inv_pair] | (with_reducible first | apply inv_P | apply invC_next | apply invC_ite | apply invC_fault | (apply inv_ofC; assumption) | (apply inv_fst; assumption)) | with_reducible intro _ | dsimp +zetaDelta only | split

theorem execAtomicFadd_inv (fn ring : Nat) (s : State) (h1 : StateInv s) :
    InvC (execAtomicFadd fn ring s) := by
  unfold execAtomicFadd; try dsimp only
  repeat' first | (with_reducible first | assumption | apply onDesc_inv | apply postSend_inv) | simp only [↓inv_pair] | (with_reducible first | apply inv_P | apply invC_next | apply invC_ite | apply invC_fault | (apply inv_ofC; assumption) | (apply inv_fst; assumption)) | with_reducible intro _ | dsimp +zetaDelta only | split

theorem postRecv_inv (r i d : Nat) (ref : DRef) (s : State) (h1 : StateInv s) :
    InvP (postRecv r i d ref s) := by
  unfold postRecv; try dsimp only
  repeat' first | (with_reducible first | assumption | apply inv_ite | apply inv_ite1 | apply bad_inv | apply later_inv | apply State.modQp_inv | apply State.reset_inv | apply touchCtx_inv | apply withQp_inv) | simp only [↓inv_mk] | simp only [↓inv_pair] | (with_reducible first | apply inv_P | (apply inv_fst; assumption)) | with_reducible intro _ | dsimp +zetaDelta only | split

theorem execRecv_inv (fn ring : Nat) (s : State) (h1 : StateInv s) :
    InvC (execRecv fn ring s) := by
  unfold execRecv; try dsimp only
  repeat' first | (with_reducible first | assumption | apply onDesc_inv | apply postRecv_inv) | simp only [↓inv_pair] | (with_reducible first | apply inv_P | apply invC_next | apply invC_ite | apply invC_fault | (apply inv_ofC; assumption) | (apply inv_fst; assumption)) | with_reducible intro _ | dsimp +zetaDelta only | split

theorem rdmaEnd_inv (s : State) (ep : Nat) (f : RdmaSet → RdmaSet) (h1 : StateInv s) :
    StateInv (rdmaEnd s ep f) := by
  unfold rdmaEnd; try dsimp only
  repeat' first | (with_reducible first | assumption | apply State.modRdma_inv) | simp only [↓inv_mk] | simp only [↓invQ_pair] | (with_reducible first | apply inv_Q | apply invQ_ite | (apply inv_ofQ; assumption)) | with_reducible intro _ | dsimp +zetaDelta only | split

theorem doRdmaCommit_inv (r : Nat) (s : State) (h1 : StateInv s) :
    StateInv (doRdmaCommit r s) := by
  unfold doRdmaCommit; try dsimp only
  repeat' first | (with_reducible first | assumption | apply inv_ite | apply rdmaEnd_inv) | simp only [↓inv_mk] | simp only [↓invQ_pair] | (with_reducible first | apply inv_Q | apply invQ_ite | (apply inv_ofQ; assumption)) | with_reducible intro _ | dsimp +zetaDelta only | split

theorem execRdmaSetCommit_inv (fn : Nat) (s : State) (h1 : StateInv s) :
    InvC (execRdmaSetCommit fn s) := by
  unfold execRdmaSetCommit
  repeat' first | (with_reducible first | assumption | apply doRdmaCommit_inv | apply gated_inv) | simp only [↓invQ_pair] | (with_reducible first | apply inv_Q | apply invQ_ite | (apply inv_ofQ; assumption) | apply invC_next | apply invC_ite | apply invC_fault | (apply inv_ofC; assumption)) | with_reducible intro _ | dsimp +zetaDelta only | split

theorem doRdmaUnlock_inv (r : Nat) (s : State) (h1 : StateInv s) :
    StateInv (doRdmaUnlock r s) := by
  unfold doRdmaUnlock; try dsimp only
  repeat' first | (with_reducible first | assumption | apply inv_ite | apply rdmaEnd_inv) | simp only [↓inv_mk] | simp only [↓invQ_pair] | (with_reducible first | apply inv_Q | apply invQ_ite | (apply inv_ofQ; assumption)) | with_reducible intro _ | dsimp +zetaDelta only | split

theorem execRdmaSetUnlock_inv (fn : Nat) (s : State) (h1 : StateInv s) :
    InvC (execRdmaSetUnlock fn s) := by
  unfold execRdmaSetUnlock
  repeat' first | (with_reducible first | assumption | apply doRdmaUnlock_inv | apply gated_inv) | simp only [↓invQ_pair] | (with_reducible first | apply inv_Q | apply invQ_ite | (apply inv_ofQ; assumption) | apply invC_next | apply invC_ite | apply invC_fault | (apply inv_ofC; assumption)) | with_reducible intro _ | dsimp +zetaDelta only | split

theorem withBack_inv (s : State) (r b : Nat) (act : Backend → CmdRes) (h1 : StateInv s) (h2 : ∀ (y0 : Backend), InvP (act y0)) :
    InvP (withBack s r b act) := by
  unfold withBack
  repeat' first | (with_reducible first | assumption | apply inv_ite | apply inv_ite1 | apply h2 | apply bad_inv) | simp only [↓inv_pair] | (with_reducible first | apply inv_P | (apply inv_fst; assumption)) | with_reducible intro _ | dsimp +zetaDelta only | split

theorem withNs_inv (s : State) (r n : Nat) (act : Namespace → CmdRes) (h1 : StateInv s) (h2 : ∀ (y0 : Namespace), InvP (act y0)) :
    InvP (withNs s r n act) := by
  unfold withNs
  repeat' first | (with_reducible first | assumption | apply inv_ite | apply inv_ite1 | apply h2 | apply bad_inv) | simp only [↓inv_pair] | (with_reducible first | apply inv_P | (apply inv_fst; assumption)) | with_reducible intro _ | dsimp +zetaDelta only | split

theorem connectOut_inv (s : State) (b : Nat) (k : Backend) (h1 : StateInv s) :
    StateInv (connectOut s b k) := by
  unfold connectOut; try dsimp only
  repeat' first | (with_reducible first | assumption | apply emit_inv) | dsimp +zetaDelta only | split

theorem askNext_inv (s : State) (b : Nat) (h1 : StateInv s) :
    StateInv (askNext s b) := by
  unfold askNext
  repeat' first | (with_reducible first | assumption | apply connectOut_inv) | split

theorem backendCreate_inv (r d : Nat) (read : HRead) (ref : DRef) (s : State) (h1 : StateInv s) :
    InvP (backendCreate r d read ref s) := by
  unfold backendCreate; try dsimp only
  repeat' first | (with_reducible first | assumption | apply inv_ite | apply inv_ite1 | apply askNext_inv | apply bad_inv | apply bindQps_inv | apply later_inv | apply State.modSto_inv) | simp only [↓inv_mk] | simp only [↓inv_pair] | (with_reducible first | apply inv_P | (apply inv_fst; assumption)) | with_reducible intro _ | dsimp +zetaDelta only | split

theorem execBackendCreate_inv (fn ring : Nat) (read : HRead) (s : State) (h1 : StateInv s) :
    InvC (execBackendCreate fn ring read s) := by
  unfold execBackendCreate; try dsimp only
  repeat' first | (with_reducible first | assumption | apply backendCreate_inv | apply onDesc_inv) | simp only [↓inv_pair] | (with_reducible first | apply inv_P | apply invC_next | apply invC_ite | apply invC_fault | (apply inv_ofC; assumption) | (apply inv_fst; assumption)) | with_reducible intro _ | dsimp +zetaDelta only | split

theorem connected_inv (s : State) (b : Nat) (k : Backend) (h1 : StateInv s) :
    StateInv (connected s b k) := by
  unfold connected; try dsimp only
  repeat' first | (with_reducible first | assumption | apply inv_ite | apply inv_foldl | apply finish_inv | apply State.modBack_inv | apply postEventS_inv | apply sendBack_inv | apply settleSto_inv) | simp only [↓inv_mk] | with_reducible intro _ | dsimp +zetaDelta only | split

theorem doConnectStep_inv (b : Nat) (ans : BRead) (s : State) (h1 : StateInv s) :
    StateInv (doConnectStep b ans s) := by
  unfold doConnectStep; try dsimp only
  repeat' first | (with_reducible first | assumption | apply inv_ite | apply askNext_inv | apply connected_inv | apply failConnect_inv | apply State.modBack_inv) | simp only [↓inv_mk] | with_reducible intro _ | dsimp +zetaDelta only | split

theorem execBackendConnectStep_inv (backend : Nat) (answer : BRead) (s : State) (h1 : StateInv s) :
    InvC (execBackendConnectStep backend answer s) := by
  unfold execBackendConnectStep
  repeat' first | (with_reducible first | assumption | apply doConnectStep_inv) | (with_reducible first | apply invC_next | apply invC_ite | apply invC_fault | (apply inv_ofC; assumption)) | with_reducible intro _

theorem backendDestroy_inv (r b : Nat) (s : State) (h1 : StateInv s) :
    InvP (backendDestroy r b s) := by
  unfold backendDestroy; try dsimp only
  repeat' first | (with_reducible first | assumption | apply inv_ite | apply inv_ite1 | apply bad_inv | apply State.modSto_inv | apply ok0_inv | apply unbindMark_inv | apply withBack_inv) | simp only [↓inv_mk] | simp only [↓inv_pair] | (with_reducible first | apply inv_P | (apply inv_fst; assumption)) | with_reducible intro _ | dsimp +zetaDelta only | split

theorem execBackendDestroy_inv (fn ring : Nat) (s : State) (h1 : StateInv s) :
    InvC (execBackendDestroy fn ring s) := by
  unfold execBackendDestroy; try dsimp only
  repeat' first | (with_reducible first | assumption | apply backendDestroy_inv | apply onDesc_inv) | simp only [↓inv_pair] | (with_reducible first | apply inv_P | apply invC_next | apply invC_ite | apply invC_fault | (apply inv_ofC; assumption) | (apply inv_fst; assumption)) | with_reducible intro _ | dsimp +zetaDelta only | split

theorem backendRebind_inv (r d : Nat) (read : HRead) (ref : DRef) (s : State) (h1 : StateInv s) :
    InvP (backendRebind r d read ref s) := by
  unfold backendRebind; try dsimp only
  repeat' first | (with_reducible first | assumption | apply inv_ite | apply inv_ite1 | apply askNext_inv | apply bad_inv | apply bindQps_inv | apply later_inv | apply State.modBack_inv | apply unbindMark_inv | apply withBack_inv) | simp only [↓inv_mk] | simp only [↓inv_pair] | (with_reducible first | apply inv_P | (apply inv_fst; assumption)) | with_reducible intro _ | dsimp +zetaDelta only | split

theorem execBackendRebind_inv (fn ring : Nat) (read : HRead) (s : State) (h1 : StateInv s) :
    InvC (execBackendRebind fn ring read s) := by
  unfold execBackendRebind; try dsimp only
  repeat' first | (with_reducible first | assumption | apply backendRebind_inv | apply onDesc_inv) | simp only [↓inv_pair] | (with_reducible first | apply inv_P | apply invC_next | apply invC_ite | apply invC_fault | (apply inv_ofC; assumption) | (apply inv_fst; assumption)) | with_reducible intro _ | dsimp +zetaDelta only | split

theorem backendQuery_inv (r d : Nat) (s : State) (h1 : StateInv s) :
    InvP (backendQuery r d s) := by
  unfold backendQuery; try dsimp only
  repeat' first | (with_reducible first | assumption | apply inv_ite | apply inv_ite1 | apply inv_foldl | apply inv_foldl1 | apply bad_inv | apply hostWrite_inv | apply ok0_inv) | simp only [↓inv_pair] | (with_reducible first | apply inv_P | (apply inv_fst; assumption)) | with_reducible intro _ | dsimp +zetaDelta only | split

theorem execBackendQuery_inv (fn ring : Nat) (s : State) (h1 : StateInv s) :
    InvC (execBackendQuery fn ring s) := by
  unfold execBackendQuery; try dsimp only
  repeat' first | (with_reducible first | assumption | apply backendQuery_inv | apply onDesc_inv) | simp only [↓inv_pair] | (with_reducible first | apply inv_P | apply invC_next | apply invC_ite | apply invC_fault | (apply inv_ofC; assumption) | (apply inv_fst; assumption)) | with_reducible intro _ | dsimp +zetaDelta only | split

theorem doKeepAlive_inv (b : Nat) (ok : Bool) (s : State) (h1 : StateInv s) :
    StateInv (doKeepAlive b ok s) := by
  unfold doKeepAlive; try dsimp only
  repeat' first | (with_reducible first | assumption | apply inv_ite | apply advanceTo_inv | apply downBackend_inv | apply emit_inv | apply State.modBack_inv) | simp only [↓inv_mk] | with_reducible intro _ | dsimp +zetaDelta only | split

theorem execKeepAlive_inv (backend : Nat) (ok : Bool) (s : State) (h1 : StateInv s) :
    InvC (execKeepAlive backend ok s) := by
  unfold execKeepAlive
  repeat' first | (with_reducible first | assumption | apply doKeepAlive_inv) | (with_reducible first | apply invC_next | apply invC_ite | apply invC_fault | (apply inv_ofC; assumption)) | with_reducible intro _

theorem nsCreate_inv (r d : Nat) (s : State) (h1 : StateInv s) :
    InvP (nsCreate r d s) := by
  unfold nsCreate; try dsimp only
  repeat' first | (with_reducible first | assumption | apply inv_ite | apply inv_ite1 | apply bad_inv | apply State.modSto_inv | apply ok0_inv | apply okR_inv | apply withBack_inv | apply withSlot_inv) | simp only [↓inv_mk] | simp only [↓inv_pair] | (with_reducible first | apply inv_P | (apply inv_fst; assumption)) | with_reducible intro _ | dsimp +zetaDelta only | split

theorem execNsCreate_inv (fn ring : Nat) (s : State) (h1 : StateInv s) :
    InvC (execNsCreate fn ring s) := by
  unfold execNsCreate; try dsimp only
  repeat' first | (with_reducible first | assumption | apply nsCreate_inv | apply onDesc_inv) | simp only [↓inv_pair] | (with_reducible first | apply inv_P | apply invC_next | apply invC_ite | apply invC_fault | (apply inv_ofC; assumption) | (apply inv_fst; assumption)) | with_reducible intro _ | dsimp +zetaDelta only | split

theorem nsDelete_inv (r n : Nat) (s : State) (h1 : StateInv s) :
    InvP (nsDelete r n s) := by
  unfold nsDelete; try dsimp only
  repeat' first | (with_reducible first | assumption | apply inv_ite | apply inv_ite1 | apply bad_inv | apply State.modSto_inv | apply okR_inv | apply withNs_inv) | simp only [↓inv_mk] | simp only [↓inv_pair] | (with_reducible first | apply inv_P | (apply inv_fst; assumption)) | with_reducible intro _ | dsimp +zetaDelta only | split

theorem execNsDelete_inv (fn ring : Nat) (s : State) (h1 : StateInv s) :
    InvC (execNsDelete fn ring s) := by
  unfold execNsDelete; try dsimp only
  repeat' first | (with_reducible first | assumption | apply nsDelete_inv | apply onDesc_inv | apply settleSto_inv) | simp only [↓inv_pair] | (with_reducible first | apply inv_P | apply invC_next | apply invC_ite | apply invC_fault | (apply inv_ofC; assumption) | (apply inv_fst; assumption)) | with_reducible intro _ | dsimp +zetaDelta only | split

theorem nsAttach_inv (r d : Nat) (s : State) (h1 : StateInv s) :
    InvP (nsAttach r d s) := by
  unfold nsAttach; try dsimp only
  repeat' first | (with_reducible first | assumption | apply inv_ite | apply inv_ite1 | apply bad_inv | apply State.modNs_inv | apply nsChanged_inv | apply ok0_inv | apply withNs_inv) | simp only [↓inv_mk] | simp only [↓inv_pair] | (with_reducible first | apply inv_P | (apply inv_fst; assumption)) | with_reducible intro _ | dsimp +zetaDelta only | split

theorem execNsAttach_inv (fn ring : Nat) (s : State) (h1 : StateInv s) :
    InvC (execNsAttach fn ring s) := by
  unfold execNsAttach; try dsimp only
  repeat' first | (with_reducible first | assumption | apply nsAttach_inv | apply onDesc_inv) | simp only [↓inv_pair] | (with_reducible first | apply inv_P | apply invC_next | apply invC_ite | apply invC_fault | (apply inv_ofC; assumption) | (apply inv_fst; assumption)) | with_reducible intro _ | dsimp +zetaDelta only | split

theorem failWaiting_inv (s : State) (n : Nat) (x : Namespace) (c : Nat) (h1 : StateInv s) :
    StateInv (failWaiting s n x c) := by
  unfold failWaiting; try dsimp only
  repeat' first | (with_reducible first | assumption | apply inv_ite | apply inv_foldl | apply endNvm_inv | apply State.modNs_inv | apply State.modSto_inv) | simp only [↓inv_mk] | with_reducible intro _ | dsimp +zetaDelta only | split

theorem nsDetach_inv (r d : Nat) (ref : DRef) (s : State) (h1 : StateInv s) :
    InvP (nsDetach r d ref s) := by
  unfold nsDetach; try dsimp only
  repeat' first | (with_reducible first | assumption | apply inv_ite | apply inv_ite1 | apply bad_inv | apply failWaiting_inv | apply later_inv | apply State.modNs_inv | apply settleSto_inv | apply withNs_inv) | simp only [↓inv_mk] | simp only [↓inv_pair] | (with_reducible first | apply inv_P | (apply inv_fst; assumption)) | with_reducible intro _ | dsimp +zetaDelta only | split

theorem execNsDetach_inv (fn ring : Nat) (s : State) (h1 : StateInv s) :
    InvC (execNsDetach fn ring s) := by
  unfold execNsDetach; try dsimp only
  repeat' first | (with_reducible first | assumption | apply nsDetach_inv | apply onDesc_inv) | simp only [↓inv_pair] | (with_reducible first | apply inv_P | apply invC_next | apply invC_ite | apply invC_fault | (apply inv_ofC; assumption) | (apply inv_fst; assumption)) | with_reducible intro _ | dsimp +zetaDelta only | split

theorem stoEnd_inv (s : State) (status item : Nat) (h1 : StateInv s) :
    StateInv (stoEnd s status item) := by
  unfold stoEnd; try dsimp only
  repeat' first | (with_reducible first | assumption | apply State.modSto_inv) | simp only [↓inv_mk] | with_reducible intro _ | dsimp +zetaDelta only | split

theorem doStoCommit_inv (s : State) (h1 : StateInv s) :
    StateInv (doStoCommit s) := by
  unfold doStoCommit; try dsimp only
  repeat' first | (with_reducible first | assumption | apply inv_ite | apply State.modSto_inv | apply settleSto_inv | apply stoEnd_inv) | simp only [↓inv_mk] | with_reducible intro _ | dsimp +zetaDelta only | split

theorem execStoSetCommit_inv (s : State) (h1 : StateInv s) :
    InvC (execStoSetCommit s) := by
  unfold execStoSetCommit
  repeat' first | (with_reducible first | assumption | apply doStoCommit_inv | apply joinSet_inv) | (with_reducible first | apply invC_next | apply invC_ite | apply invC_fault | (apply inv_ofC; assumption)) | with_reducible intro _

theorem doStoUnlock_inv (s : State) (h1 : StateInv s) :
    StateInv (doStoUnlock s) := by
  unfold doStoUnlock; try dsimp only
  repeat' first | (with_reducible first | assumption | apply inv_ite | apply State.modSto_inv | apply stoEnd_inv) | simp only [↓inv_mk] | with_reducible intro _ | dsimp +zetaDelta only | split

theorem execStoSetUnlock_inv (s : State) (h1 : StateInv s) :
    InvC (execStoSetUnlock s) := by
  unfold execStoSetUnlock
  repeat' first | (with_reducible first | assumption | apply doStoUnlock_inv | apply joinSet_inv) | (with_reducible first | apply invC_next | apply invC_ite | apply invC_fault | (apply inv_ofC; assumption)) | with_reducible intro _

theorem localStore_inv (s : State) (core a : Nat) (bs : List Byte) (h1 : StateInv s) :
    StateInv (localStore s core a bs) := by
  unfold localStore; try dsimp only
  repeat' first | (with_reducible first | assumption | apply inv_foldl | apply State.modCore_inv) | simp only [↓inv_mk] | with_reducible intro _ | dsimp +zetaDelta only | split

theorem spill_inv (core : Nat) (s : State) (f limit : Nat) (h1 : StateInv s) :
    InvO (spill core s f limit) := by
  unfold spill; try dsimp only
  repeat' first | (with_reducible first | assumption | apply inv_ite | apply localStore_inv | apply State.modCore_inv) | simp only [↓inv_mk] | (with_reducible first | apply invO_none | apply invO_some | apply invO_ite | (apply inv_of; assumption)) | with_reducible intro _ | dsimp +zetaDelta only | split

theorem fill_inv (core : Nat) (s : State) (f : Nat) (h1 : StateInv s) :
    InvOP (fill core s f) := by
  unfold fill; try dsimp only
  repeat' first | (with_reducible first | assumption | apply inv_ite | apply inv_ite1 | apply inv_foldl | apply inv_foldl1 | apply State.modCore_inv) | simp only [↓inv_mk] | simp only [↓inv_pair] | (with_reducible first | apply inv_P | apply invO_none | apply invO_some | apply invO_ite | (apply inv_of; assumption) | apply invOP_none | apply invOP_some | apply invOP_ite | (apply inv_of1; assumption) | (apply inv_of2; assumption) | (apply inv_fst; assumption)) | with_reducible intro _ | dsimp +zetaDelta only | split

theorem raiseExc_inv (s : State) (core code addr : Nat) (h1 : StateInv s) :
    StateInv (raiseExc s core code addr) := by
  unfold raiseExc; try dsimp only
  repeat' first | (with_reducible first | assumption | apply inv_ite | apply act_inv | apply State.modCore_inv | apply programFault_inv | apply spill_inv) | simp only [↓inv_mk] | (with_reducible first | apply invO_none | apply invO_some | apply invO_ite | (apply inv_of; assumption)) | with_reducible intro _ | dsimp +zetaDelta only | split

theorem runPy_inv (op core lo : Nat) (s : State) (body : Core → PRes) (h1 : StateInv s) (h2 : ∀ (y0 : Core), InvS (body y0)) :
    StateInv (runPy op core lo s body) := by
  unfold runPy; try dsimp only
  repeat' first | (with_reducible first | assumption | apply inv_ite | apply h2 | apply Rest.go_inv | apply State.modCore_inv | apply raiseExc_inv) | simp only [↓inv_mk] | simp only [↓invS_go] | simp only [↓invS_jump] | simp only [↓invS_stay] | simp only [↓invX_mk] | simp only [↓invXP_pair] | (with_reducible first | apply invS_exc | apply invS_ite | (apply inv_go; assumption) | (apply inv_jump; assumption) | (apply inv_stay; assumption) | apply invXP_ite | apply invXP_foldl | apply inv_XP | apply invX_ite | apply invX_foldl | apply invX_s) | with_reducible intro _ | dsimp +zetaDelta only | split

theorem illegal_inv (op lo : Nat) :
    InvS (illegal op lo) := by
  unfold illegal
  repeat' first | (with_reducible first | assumption) | simp only [↓invS_go] | simp only [↓invS_jump] | simp only [↓invS_stay] | (with_reducible first | apply invS_exc | apply invS_ite | (apply inv_go; assumption) | (apply inv_jump; assumption) | (apply inv_stay; assumption)) | with_reducible intro _ | dsimp +zetaDelta only | split

theorem setGo_inv (s : State) (core rd : Nat) (v : BitVec 64) (n : Nat) (h1 : StateInv s) :
    InvS (setGo s core rd v n) := by
  unfold setGo; try dsimp only
  repeat' first | (with_reducible first | assumption | apply Rest.go_inv | apply State.modCore_inv) | simp only [↓invS_go] | simp only [↓invS_jump] | simp only [↓invS_stay] | simp only [↓invX_mk] | simp only [↓invXP_pair] | (with_reducible first | apply invS_exc | apply invS_ite | (apply inv_go; assumption) | (apply inv_jump; assumption) | (apply inv_stay; assumption) | apply invXP_ite | apply invXP_foldl | apply inv_XP | apply invX_ite | apply invX_foldl | apply invX_s) | with_reducible intro _ | dsimp +zetaDelta only | split

theorem doAlu_inv (core lo : Nat) (s : State) (h1 : StateInv s) :
    StateInv (doAlu core lo s) := by
  unfold doAlu; try dsimp only
  repeat' first | (with_reducible first | assumption | apply inv_ite | apply illegal_inv | apply runPy_inv | apply setGo_inv) | simp only [↓invS_go] | simp only [↓invS_jump] | simp only [↓invS_stay] | (with_reducible first | apply invS_exc | apply invS_ite | (apply inv_go; assumption) | (apply inv_jump; assumption) | (apply inv_stay; assumption)) | with_reducible intro _ | dsimp +zetaDelta only | split

theorem execAlu_inv (core : Nat) (lo : BitVec 32) (s : State) (h1 : StateInv s) :
    InvC (execAlu core lo s) := by
  unfold execAlu
  repeat' first | (with_reducible first | assumption | apply doAlu_inv) | (with_reducible first | apply invC_next | apply invC_ite | apply invC_fault | (apply inv_ofC; assumption)) | with_reducible intro _

theorem immOp_inv (op core lo : Nat) (s : State) (f : BitVec 64 → BitVec 64 → BitVec 64) (h1 : StateInv s) :
    StateInv (immOp op core lo s f) := by
  unfold immOp; try dsimp only
  repeat' first | (with_reducible first | assumption | apply runPy_inv | apply setGo_inv) | simp only [↓invS_go] | simp only [↓invS_jump] | simp only [↓invS_stay] | (with_reducible first | apply invS_exc | apply invS_ite | (apply inv_go; assumption) | (apply inv_jump; assumption) | (apply inv_stay; assumption)) | with_reducible intro _ | dsimp +zetaDelta only | split

theorem execAddi_inv (core : Nat) (lo : BitVec 32) (s : State) (h1 : StateInv s) :
    InvC (execAddi core lo s) := by
  unfold execAddi
  repeat' first | (with_reducible first | assumption | apply immOp_inv) | (with_reducible first | apply invC_next | apply invC_ite | apply invC_fault | (apply inv_ofC; assumption)) | with_reducible intro _

theorem execAndi_inv (core : Nat) (lo : BitVec 32) (s : State) (h1 : StateInv s) :
    InvC (execAndi core lo s) := by
  unfold execAndi
  repeat' first | (with_reducible first | assumption | apply immOp_inv) | (with_reducible first | apply invC_next | apply invC_ite | apply invC_fault | (apply inv_ofC; assumption)) | with_reducible intro _

theorem execOri_inv (core : Nat) (lo : BitVec 32) (s : State) (h1 : StateInv s) :
    InvC (execOri core lo s) := by
  unfold execOri
  repeat' first | (with_reducible first | assumption | apply immOp_inv) | (with_reducible first | apply invC_next | apply invC_ite | apply invC_fault | (apply inv_ofC; assumption)) | with_reducible intro _

theorem execXori_inv (core : Nat) (lo : BitVec 32) (s : State) (h1 : StateInv s) :
    InvC (execXori core lo s) := by
  unfold execXori
  repeat' first | (with_reducible first | assumption | apply immOp_inv) | (with_reducible first | apply invC_next | apply invC_ite | apply invC_fault | (apply inv_ofC; assumption)) | with_reducible intro _

theorem doShifti_inv (core lo : Nat) (s : State) (h1 : StateInv s) :
    StateInv (doShifti core lo s) := by
  unfold doShifti; try dsimp only
  repeat' first | (with_reducible first | assumption | apply inv_ite | apply illegal_inv | apply runPy_inv | apply setGo_inv) | simp only [↓invS_go] | simp only [↓invS_jump] | simp only [↓invS_stay] | (with_reducible first | apply invS_exc | apply invS_ite | (apply inv_go; assumption) | (apply inv_jump; assumption) | (apply inv_stay; assumption)) | with_reducible intro _ | dsimp +zetaDelta only | split

theorem execShifti_inv (core : Nat) (lo : BitVec 32) (s : State) (h1 : StateInv s) :
    InvC (execShifti core lo s) := by
  unfold execShifti
  repeat' first | (with_reducible first | assumption | apply doShifti_inv) | (with_reducible first | apply invC_next | apply invC_ite | apply invC_fault | (apply inv_ofC; assumption)) | with_reducible intro _

theorem execMovi_inv (core : Nat) (lo : BitVec 32) (s : State) (h1 : StateInv s) :
    InvC (execMovi core lo s) := by
  unfold execMovi; try dsimp only
  repeat' first | (with_reducible first | assumption | apply runPy_inv | apply setGo_inv) | simp only [↓invS_go] | simp only [↓invS_jump] | simp only [↓invS_stay] | (with_reducible first | apply invS_exc | apply invS_ite | (apply inv_go; assumption) | (apply inv_jump; assumption) | (apply inv_stay; assumption) | apply invC_next | apply invC_ite | apply invC_fault | (apply inv_ofC; assumption)) | with_reducible intro _ | dsimp +zetaDelta only | split

theorem movk_inv (op sh core lo : Nat) (s : State) (h1 : StateInv s) :
    StateInv (movk op sh core lo s) := by
  unfold movk; try dsimp only
  repeat' first | (with_reducible first | assumption | apply inv_ite | apply illegal_inv | apply runPy_inv | apply setGo_inv) | simp only [↓invS_go] | simp only [↓invS_jump] | simp only [↓invS_stay] | (with_reducible first | apply invS_exc | apply invS_ite | (apply inv_go; assumption) | (apply inv_jump; assumption) | (apply inv_stay; assumption)) | with_reducible intro _ | dsimp +zetaDelta only | split

theorem execMovk16_inv (core : Nat) (lo : BitVec 32) (s : State) (h1 : StateInv s) :
    InvC (execMovk16 core lo s) := by
  unfold execMovk16
  repeat' first | (with_reducible first | assumption | apply movk_inv) | (with_reducible first | apply invC_next | apply invC_ite | apply invC_fault | (apply inv_ofC; assumption)) | with_reducible intro _

theorem execMovk32_inv (core : Nat) (lo : BitVec 32) (s : State) (h1 : StateInv s) :
    InvC (execMovk32 core lo s) := by
  unfold execMovk32
  repeat' first | (with_reducible first | assumption | apply movk_inv) | (with_reducible first | apply invC_next | apply invC_ite | apply invC_fault | (apply inv_ofC; assumption)) | with_reducible intro _

theorem execMovk48_inv (core : Nat) (lo : BitVec 32) (s : State) (h1 : StateInv s) :
    InvC (execMovk48 core lo s) := by
  unfold execMovk48
  repeat' first | (with_reducible first | assumption | apply movk_inv) | (with_reducible first | apply invC_next | apply invC_ite | apply invC_fault | (apply inv_ofC; assumption)) | with_reducible intro _

theorem setPGo_inv (s : State) (core pd : Nat) (b : Bool) (h1 : StateInv s) :
    InvS (setPGo s core pd b) := by
  unfold setPGo; try dsimp only
  repeat' first | (with_reducible first | assumption | apply Rest.go_inv | apply State.modCore_inv) | simp only [↓invS_go] | simp only [↓invS_jump] | simp only [↓invS_stay] | simp only [↓invX_mk] | simp only [↓invXP_pair] | (with_reducible first | apply invS_exc | apply invS_ite | (apply inv_go; assumption) | (apply inv_jump; assumption) | (apply inv_stay; assumption) | apply invXP_ite | apply invXP_foldl | apply inv_XP | apply invX_ite | apply invX_foldl | apply invX_s) | with_reducible intro _ | dsimp +zetaDelta only | split

theorem doCmp_inv (core lo : Nat) (s : State) (h1 : StateInv s) :
    StateInv (doCmp core lo s) := by
  unfold doCmp; try dsimp only
  repeat' first | (with_reducible first | assumption | apply inv_ite | apply illegal_inv | apply runPy_inv | apply setPGo_inv) | simp only [↓invS_go] | simp only [↓invS_jump] | simp only [↓invS_stay] | (with_reducible first | apply invS_exc | apply invS_ite | (apply inv_go; assumption) | (apply inv_jump; assumption) | (apply inv_stay; assumption)) | with_reducible intro _ | dsimp +zetaDelta only | split

theorem execCmp_inv (core : Nat) (lo : BitVec 32) (s : State) (h1 : StateInv s) :
    InvC (execCmp core lo s) := by
  unfold execCmp
  repeat' first | (with_reducible first | assumption | apply doCmp_inv) | (with_reducible first | apply invC_next | apply invC_ite | apply invC_fault | (apply inv_ofC; assumption)) | with_reducible intro _

theorem doCmpi_inv (core lo : Nat) (s : State) (h1 : StateInv s) :
    StateInv (doCmpi core lo s) := by
  unfold doCmpi; try dsimp only
  repeat' first | (with_reducible first | assumption | apply runPy_inv | apply setPGo_inv) | simp only [↓invS_go] | simp only [↓invS_jump] | simp only [↓invS_stay] | (with_reducible first | apply invS_exc | apply invS_ite | (apply inv_go; assumption) | (apply inv_jump; assumption) | (apply inv_stay; assumption)) | with_reducible intro _ | dsimp +zetaDelta only | split

theorem execCmpi_inv (core : Nat) (lo : BitVec 32) (s : State) (h1 : StateInv s) :
    InvC (execCmpi core lo s) := by
  unfold execCmpi
  repeat' first | (with_reducible first | assumption | apply doCmpi_inv) | (with_reducible first | apply invC_next | apply invC_ite | apply invC_fault | (apply inv_ofC; assumption)) | with_reducible intro _

theorem doPlog_inv (core lo : Nat) (s : State) (h1 : StateInv s) :
    StateInv (doPlog core lo s) := by
  unfold doPlog; try dsimp only
  repeat' first | (with_reducible first | assumption | apply inv_ite | apply illegal_inv | apply runPy_inv | apply setPGo_inv) | simp only [↓invS_go] | simp only [↓invS_jump] | simp only [↓invS_stay] | (with_reducible first | apply invS_exc | apply invS_ite | (apply inv_go; assumption) | (apply inv_jump; assumption) | (apply inv_stay; assumption)) | with_reducible intro _ | dsimp +zetaDelta only | split

theorem execPlog_inv (core : Nat) (lo : BitVec 32) (s : State) (h1 : StateInv s) :
    InvC (execPlog core lo s) := by
  unfold execPlog
  repeat' first | (with_reducible first | assumption | apply doPlog_inv) | (with_reducible first | apply invC_next | apply invC_ite | apply invC_fault | (apply inv_ofC; assumption)) | with_reducible intro _

theorem doPmov_inv (core lo : Nat) (s : State) (h1 : StateInv s) :
    StateInv (doPmov core lo s) := by
  unfold doPmov; try dsimp only
  repeat' first | (with_reducible first | assumption | apply inv_ite | apply Rest.go_inv | apply illegal_inv | apply State.modCore_inv | apply runPy_inv | apply setGo_inv) | simp only [↓inv_mk] | simp only [↓invS_go] | simp only [↓invS_jump] | simp only [↓invS_stay] | simp only [↓invX_mk] | simp only [↓invXP_pair] | (with_reducible first | apply invS_exc | apply invS_ite | (apply inv_go; assumption) | (apply inv_jump; assumption) | (apply inv_stay; assumption) | apply invXP_ite | apply invXP_foldl | apply inv_XP | apply invX_ite | apply invX_foldl | apply invX_s) | with_reducible intro _ | dsimp +zetaDelta only | split

theorem execPmov_inv (core : Nat) (lo : BitVec 32) (s : State) (h1 : StateInv s) :
    InvC (execPmov core lo s) := by
  unfold execPmov
  repeat' first | (with_reducible first | assumption | apply doPmov_inv) | (with_reducible first | apply invC_next | apply invC_ite | apply invC_fault | (apply inv_ofC; assumption)) | with_reducible intro _

theorem doLoad_inv (op n : Nat) (signed : Bool) (core lo : Nat) (s : State) (h1 : StateInv s) :
    StateInv (doLoad op n signed core lo s) := by
  unfold doLoad; try dsimp only
  repeat' first | (with_reducible first | assumption | apply inv_ite | apply act_inv | apply emit_inv | apply State.modCore_inv | apply runPy_inv | apply setGo_inv) | simp only [↓inv_mk] | simp only [↓invS_go] | simp only [↓invS_jump] | simp only [↓invS_stay] | (with_reducible first | apply invS_exc | apply invS_ite | (apply inv_go; assumption) | (apply inv_jump; assumption) | (apply inv_stay; assumption)) | with_reducible intro _ | dsimp +zetaDelta only | split

theorem execLd8_inv (core : Nat) (lo : BitVec 32) (s : State) (h1 : StateInv s) :
    InvC (execLd8 core lo s) := by
  unfold execLd8
  repeat' first | (with_reducible first | assumption | apply doLoad_inv) | (with_reducible first | apply invC_next | apply invC_ite | apply invC_fault | (apply inv_ofC; assumption)) | with_reducible intro _

theorem execLd16_inv (core : Nat) (lo : BitVec 32) (s : State) (h1 : StateInv s) :
    InvC (execLd16 core lo s) := by
  unfold execLd16
  repeat' first | (with_reducible first | assumption | apply doLoad_inv) | (with_reducible first | apply invC_next | apply invC_ite | apply invC_fault | (apply inv_ofC; assumption)) | with_reducible intro _

theorem execLd32_inv (core : Nat) (lo : BitVec 32) (s : State) (h1 : StateInv s) :
    InvC (execLd32 core lo s) := by
  unfold execLd32
  repeat' first | (with_reducible first | assumption | apply doLoad_inv) | (with_reducible first | apply invC_next | apply invC_ite | apply invC_fault | (apply inv_ofC; assumption)) | with_reducible intro _

theorem execLd64_inv (core : Nat) (lo : BitVec 32) (s : State) (h1 : StateInv s) :
    InvC (execLd64 core lo s) := by
  unfold execLd64
  repeat' first | (with_reducible first | assumption | apply doLoad_inv) | (with_reducible first | apply invC_next | apply invC_ite | apply invC_fault | (apply inv_ofC; assumption)) | with_reducible intro _

theorem execLds8_inv (core : Nat) (lo : BitVec 32) (s : State) (h1 : StateInv s) :
    InvC (execLds8 core lo s) := by
  unfold execLds8
  repeat' first | (with_reducible first | assumption | apply doLoad_inv) | (with_reducible first | apply invC_next | apply invC_ite | apply invC_fault | (apply inv_ofC; assumption)) | with_reducible intro _

theorem execLds16_inv (core : Nat) (lo : BitVec 32) (s : State) (h1 : StateInv s) :
    InvC (execLds16 core lo s) := by
  unfold execLds16
  repeat' first | (with_reducible first | assumption | apply doLoad_inv) | (with_reducible first | apply invC_next | apply invC_ite | apply invC_fault | (apply inv_ofC; assumption)) | with_reducible intro _

theorem execLds32_inv (core : Nat) (lo : BitVec 32) (s : State) (h1 : StateInv s) :
    InvC (execLds32 core lo s) := by
  unfold execLds32
  repeat' first | (with_reducible first | assumption | apply doLoad_inv) | (with_reducible first | apply invC_next | apply invC_ite | apply invC_fault | (apply inv_ofC; assumption)) | with_reducible intro _

theorem logTimeout_inv (s : State) (r : Nat) (h1 : StateInv s) :
    StateInv (logTimeout s r) := by
  unfold logTimeout; try dsimp only
  repeat' first | (with_reducible first | assumption | apply emit_inv | apply State.modFn_inv) | simp only [↓inv_mk] | with_reducible intro _ | dsimp +zetaDelta only | split

theorem doLoadReturn_inv (core : Nat) (ret : LoadRet) (s : State) (h1 : StateInv s) :
    StateInv (doLoadReturn core ret s) := by
  unfold doLoadReturn; try dsimp only
  repeat' first | (with_reducible first | assumption | apply inv_ite | apply act_inv | apply logTimeout_inv | apply State.modCore_inv | apply raiseExc_inv | apply Rest.rd_inv | apply uncorrectable_inv) | simp only [↓inv_mk] | simp only [↓invX_mk] | simp only [↓invXP_pair] | (with_reducible first | apply invXP_ite | apply invXP_foldl | apply inv_XP | apply invX_ite | apply invX_foldl | apply invX_s) | with_reducible intro _ | dsimp +zetaDelta only | split

theorem execLoadDataReturn_inv (core : Nat) (ret : LoadRet) (s : State) (h1 : StateInv s) :
    InvC (execLoadDataReturn core ret s) := by
  unfold execLoadDataReturn
  repeat' first | (with_reducible first | assumption | apply doLoadReturn_inv) | (with_reducible first | apply invC_next | apply invC_ite | apply invC_fault | (apply inv_ofC; assumption)) | with_reducible intro _

theorem kick_inv (s : State) (core o : Nat) (h1 : StateInv s) :
    StateInv (kick s core o) := by
  unfold kick; try dsimp only
  repeat' first | (with_reducible first | assumption | apply inv_ite) | simp only [↓inv_mk] | with_reducible intro _ | dsimp +zetaDelta only | split

theorem doStore_inv (op n core lo : Nat) (s : State) (h1 : StateInv s) :
    StateInv (doStore op n core lo s) := by
  unfold doStore; try dsimp only
  repeat' first | (with_reducible first | assumption | apply inv_ite | apply inv_ite1 | apply act_inv | apply emit_inv | apply engineWrite_inv | apply Rest.go_inv | apply hostWrite_inv | apply kick_inv | apply localStore_inv | apply State.modCore_inv | apply runPy_inv) | simp only [↓inv_mk] | simp only [↓inv_pair] | simp only [↓invS_go] | simp only [↓invS_jump] | simp only [↓invS_stay] | simp only [↓invX_mk] | simp only [↓invXP_pair] | (with_reducible first | apply invS_exc | apply invS_ite | (apply inv_go; assumption) | (apply inv_jump; assumption) | (apply inv_stay; assumption) | apply invXP_ite | apply invXP_foldl | apply inv_XP | apply invX_ite | apply invX_foldl | apply invX_s | apply inv_P | (apply inv_fst; assumption)) | with_reducible intro _ | dsimp +zetaDelta only | split

theorem execSt8_inv (core : Nat) (lo : BitVec 32) (s : State) (h1 : StateInv s) :
    InvC (execSt8 core lo s) := by
  unfold execSt8
  repeat' first | (with_reducible first | assumption | apply doStore_inv) | (with_reducible first | apply invC_next | apply invC_ite | apply invC_fault | (apply inv_ofC; assumption)) | with_reducible intro _

theorem execSt16_inv (core : Nat) (lo : BitVec 32) (s : State) (h1 : StateInv s) :
    InvC (execSt16 core lo s) := by
  unfold execSt16
  repeat' first | (with_reducible first | assumption | apply doStore_inv) | (with_reducible first | apply invC_next | apply invC_ite | apply invC_fault | (apply inv_ofC; assumption)) | with_reducible intro _

theorem execSt32_inv (core : Nat) (lo : BitVec 32) (s : State) (h1 : StateInv s) :
    InvC (execSt32 core lo s) := by
  unfold execSt32
  repeat' first | (with_reducible first | assumption | apply doStore_inv) | (with_reducible first | apply invC_next | apply invC_ite | apply invC_fault | (apply inv_ofC; assumption)) | with_reducible intro _

theorem execSt64_inv (core : Nat) (lo : BitVec 32) (s : State) (h1 : StateInv s) :
    InvC (execSt64 core lo s) := by
  unfold execSt64
  repeat' first | (with_reducible first | assumption | apply doStore_inv) | (with_reducible first | apply invC_next | apply invC_ite | apply invC_fault | (apply inv_ofC; assumption)) | with_reducible intro _

theorem wakeStores_inv (s : State) (h1 : StateInv s) :
    StateInv (wakeStores s) := by
  unfold wakeStores; try dsimp only
  repeat' first | (with_reducible first | assumption | apply inv_ite | apply inv_ite1 | apply inv_foldl | apply inv_foldl1 | apply act_inv | apply engineWrite_inv | apply State.modCore_inv) | simp only [↓inv_mk] | simp only [↓inv_pair] | (with_reducible first | apply inv_P | (apply inv_fst; assumption)) | with_reducible intro _ | dsimp +zetaDelta only | split

theorem doCas_inv (core lo : Nat) (s : State) (h1 : StateInv s) :
    StateInv (doCas core lo s) := by
  unfold doCas; try dsimp only
  repeat' first | (with_reducible first | assumption | apply inv_ite | apply illegal_inv | apply localStore_inv | apply runPy_inv | apply setGo_inv) | simp only [↓invS_go] | simp only [↓invS_jump] | simp only [↓invS_stay] | (with_reducible first | apply invS_exc | apply invS_ite | (apply inv_go; assumption) | (apply inv_jump; assumption) | (apply inv_stay; assumption)) | with_reducible intro _ | dsimp +zetaDelta only | split

theorem execCas_inv (core : Nat) (lo : BitVec 32) (s : State) (h1 : StateInv s) :
    InvC (execCas core lo s) := by
  unfold execCas
  repeat' first | (with_reducible first | assumption | apply doCas_inv) | (with_reducible first | apply invC_next | apply invC_ite | apply invC_fault | (apply inv_ofC; assumption)) | with_reducible intro _

theorem doFence_inv (core lo : Nat) (s : State) (h1 : StateInv s) :
    StateInv (doFence core lo s) := by
  unfold doFence; try dsimp only
  repeat' first | (with_reducible first | assumption | apply inv_ite | apply Rest.go_inv | apply illegal_inv | apply runPy_inv) | simp only [↓invS_go] | simp only [↓invS_jump] | simp only [↓invS_stay] | simp only [↓invX_mk] | simp only [↓invXP_pair] | (with_reducible first | apply invS_exc | apply invS_ite | (apply inv_go; assumption) | (apply inv_jump; assumption) | (apply inv_stay; assumption) | apply invXP_ite | apply invXP_foldl | apply inv_XP | apply invX_ite | apply invX_foldl | apply invX_s) | with_reducible intro _ | dsimp +zetaDelta only | split

theorem execFence_inv (core : Nat) (lo : BitVec 32) (s : State) (h1 : StateInv s) :
    InvC (execFence core lo s) := by
  unfold execFence
  repeat' first | (with_reducible first | assumption | apply doFence_inv) | (with_reducible first | apply invC_next | apply invC_ite | apply invC_fault | (apply inv_ofC; assumption)) | with_reducible intro _

theorem execBr_inv (core : Nat) (lo : BitVec 32) (s : State) (h1 : StateInv s) :
    InvC (execBr core lo s) := by
  unfold execBr; try dsimp only
  repeat' first | (with_reducible first | assumption | apply runPy_inv) | simp only [↓invS_go] | simp only [↓invS_jump] | simp only [↓invS_stay] | (with_reducible first | apply invS_exc | apply invS_ite | (apply inv_go; assumption) | (apply inv_jump; assumption) | (apply inv_stay; assumption) | apply invC_next | apply invC_ite | apply invC_fault | (apply inv_ofC; assumption)) | with_reducible intro _ | dsimp +zetaDelta only | split

theorem doJr_inv (core lo : Nat) (s : State) (h1 : StateInv s) :
    StateInv (doJr core lo s) := by
  unfold doJr; try dsimp only
  repeat' first | (with_reducible first | assumption | apply inv_ite | apply illegal_inv | apply runPy_inv) | simp only [↓invS_go] | simp only [↓invS_jump] | simp only [↓invS_stay] | (with_reducible first | apply invS_exc | apply invS_ite | (apply inv_go; assumption) | (apply inv_jump; assumption) | (apply inv_stay; assumption)) | with_reducible intro _ | dsimp +zetaDelta only | split

theorem execJr_inv (core : Nat) (lo : BitVec 32) (s : State) (h1 : StateInv s) :
    InvC (execJr core lo s) := by
  unfold execJr
  repeat' first | (with_reducible first | assumption | apply doJr_inv) | (with_reducible first | apply invC_next | apply invC_ite | apply invC_fault | (apply inv_ofC; assumption)) | with_reducible intro _

theorem execAdr_inv (core : Nat) (lo : BitVec 32) (s : State) (h1 : StateInv s) :
    InvC (execAdr core lo s) := by
  unfold execAdr; try dsimp only
  repeat' first | (with_reducible first | assumption | apply runPy_inv | apply setGo_inv) | simp only [↓invS_go] | simp only [↓invS_jump] | simp only [↓invS_stay] | (with_reducible first | apply invS_exc | apply invS_ite | (apply inv_go; assumption) | (apply inv_jump; assumption) | (apply inv_stay; assumption) | apply invC_next | apply invC_ite | apply invC_fault | (apply inv_ofC; assumption)) | with_reducible intro _ | dsimp +zetaDelta only | split

theorem doCall_inv (core lo : Nat) (s : State) (h1 : StateInv s) :
    StateInv (doCall core lo s) := by
  unfold doCall; try dsimp only
  repeat' first | (with_reducible first | assumption | apply inv_ite | apply illegal_inv | apply State.modCore_inv | apply runPy_inv | apply spill_inv) | simp only [↓inv_mk] | simp only [↓invS_go] | simp only [↓invS_jump] | simp only [↓invS_stay] | (with_reducible first | apply invS_exc | apply invS_ite | (apply inv_go; assumption) | (apply inv_jump; assumption) | (apply inv_stay; assumption) | apply invO_none | apply invO_some | apply invO_ite | (apply inv_of; assumption)) | with_reducible intro _ | dsimp +zetaDelta only | split

theorem execCall_inv (core : Nat) (lo : BitVec 32) (s : State) (h1 : StateInv s) :
    InvC (execCall core lo s) := by
  unfold execCall
  repeat' first | (with_reducible first | assumption | apply doCall_inv) | (with_reducible first | apply invC_next | apply invC_ite | apply invC_fault | (apply inv_ofC; assumption)) | with_reducible intro _

theorem leaveFrame_inv (core : Nat) (s : State) (h1 : StateInv s) :
    InvOP (leaveFrame core s) := by
  unfold leaveFrame; try dsimp only
  repeat' first | (with_reducible first | assumption | apply inv_ite | apply inv_ite1 | apply fill_inv | apply State.modCore_inv) | simp only [↓inv_mk] | simp only [↓inv_pair] | (with_reducible first | apply inv_P | apply invO_none | apply invO_some | apply invO_ite | (apply inv_of; assumption) | apply invOP_none | apply invOP_some | apply invOP_ite | (apply inv_of1; assumption) | (apply inv_of2; assumption) | (apply inv_fst; assumption)) | with_reducible intro _ | dsimp +zetaDelta only | split

theorem doRet_inv (core lo : Nat) (s : State) (h1 : StateInv s) :
    StateInv (doRet core lo s) := by
  unfold doRet; try dsimp only
  repeat' first | (with_reducible first | assumption | apply inv_ite | apply inv_ite1 | apply illegal_inv | apply leaveFrame_inv | apply runPy_inv) | simp only [↓inv_pair] | simp only [↓invS_go] | simp only [↓invS_jump] | simp only [↓invS_stay] | (with_reducible first | apply invS_exc | apply invS_ite | (apply inv_go; assumption) | (apply inv_jump; assumption) | (apply inv_stay; assumption) | apply inv_P | apply invO_none | apply invO_some | apply invO_ite | (apply inv_of; assumption) | apply invOP_none | apply invOP_some | apply invOP_ite | (apply inv_of1; assumption) | (apply inv_of2; assumption) | (apply inv_fst; assumption)) | with_reducible intro _ | dsimp +zetaDelta only | split

theorem execRet_inv (core : Nat) (lo : BitVec 32) (s : State) (h1 : StateInv s) :
    InvC (execRet core lo s) := by
  unfold execRet
  repeat' first | (with_reducible first | assumption | apply doRet_inv) | (with_reducible first | apply invC_next | apply invC_ite | apply invC_fault | (apply inv_ofC; assumption)) | with_reducible intro _

theorem doEret_inv (core lo : Nat) (s : State) (h1 : StateInv s) :
    StateInv (doEret core lo s) := by
  unfold doEret; try dsimp only
  repeat' first | (with_reducible first | assumption | apply inv_ite | apply inv_ite1 | apply illegal_inv | apply leaveFrame_inv | apply State.modCore_inv | apply runPy_inv) | simp only [↓inv_mk] | simp only [↓inv_pair] | simp only [↓invS_go] | simp only [↓invS_jump] | simp only [↓invS_stay] | (with_reducible first | apply invS_exc | apply invS_ite | (apply inv_go; assumption) | (apply inv_jump; assumption) | (apply inv_stay; assumption) | apply inv_P | apply invO_none | apply invO_some | apply invO_ite | (apply inv_of; assumption) | apply invOP_none | apply invOP_some | apply invOP_ite | (apply inv_of1; assumption) | (apply inv_of2; assumption) | (apply inv_fst; assumption)) | with_reducible intro _ | dsimp +zetaDelta only | split

theorem execEret_inv (core : Nat) (lo : BitVec 32) (s : State) (h1 : StateInv s) :
    InvC (execEret core lo s) := by
  unfold execEret
  repeat' first | (with_reducible first | assumption | apply doEret_inv) | (with_reducible first | apply invC_next | apply invC_ite | apply invC_fault | (apply inv_ofC; assumption)) | with_reducible intro _

theorem doTrap_inv (core lo : Nat) (s : State) (h1 : StateInv s) :
    StateInv (doTrap core lo s) := by
  unfold doTrap; try dsimp only
  repeat' first | (with_reducible first | assumption | apply inv_ite | apply illegal_inv | apply runPy_inv) | simp only [↓invS_go] | simp only [↓invS_jump] | simp only [↓invS_stay] | (with_reducible first | apply invS_exc | apply invS_ite | (apply inv_go; assumption) | (apply inv_jump; assumption) | (apply inv_stay; assumption)) | with_reducible intro _ | dsimp +zetaDelta only | split

theorem execTrap_inv (core : Nat) (lo : BitVec 32) (s : State) (h1 : StateInv s) :
    InvC (execTrap core lo s) := by
  unfold execTrap
  repeat' first | (with_reducible first | assumption | apply doTrap_inv) | (with_reducible first | apply invC_next | apply invC_ite | apply invC_fault | (apply inv_ofC; assumption)) | with_reducible intro _

theorem doStep_inv (core lo : Nat) (s : State) (h1 : StateInv s) :
    StateInv (doStep core lo s) := by
  unfold doStep; try dsimp only
  repeat' first | (with_reducible first | assumption | apply inv_ite | apply illegal_inv | apply postStep_inv | apply runPy_inv | apply setGo_inv) | simp only [↓invS_go] | simp only [↓invS_jump] | simp only [↓invS_stay] | (with_reducible first | apply invS_exc | apply invS_ite | (apply inv_go; assumption) | (apply inv_jump; assumption) | (apply inv_stay; assumption)) | with_reducible intro _ | dsimp +zetaDelta only | split

theorem execStep_inv (core : Nat) (lo : BitVec 32) (s : State) (h1 : StateInv s) :
    InvC (execStep core lo s) := by
  unfold execStep
  repeat' first | (with_reducible first | assumption | apply doStep_inv) | (with_reducible first | apply invC_next | apply invC_ite | apply invC_fault | (apply inv_ofC; assumption)) | with_reducible intro _

theorem doWait_inv (core lo : Nat) (s : State) (h1 : StateInv s) :
    StateInv (doWait core lo s) := by
  unfold doWait; try dsimp only
  repeat' first | (with_reducible first | assumption | apply inv_ite | apply act_inv | apply illegal_inv | apply State.modCore_inv | apply runPy_inv | apply setGo_inv) | simp only [↓inv_mk] | simp only [↓invS_go] | simp only [↓invS_jump] | simp only [↓invS_stay] | (with_reducible first | apply invS_exc | apply invS_ite | (apply inv_go; assumption) | (apply inv_jump; assumption) | (apply inv_stay; assumption)) | with_reducible intro _ | dsimp +zetaDelta only | split

theorem execWait_inv (core : Nat) (lo : BitVec 32) (s : State) (h1 : StateInv s) :
    InvC (execWait core lo s) := by
  unfold execWait
  repeat' first | (with_reducible first | assumption | apply doWait_inv) | (with_reducible first | apply invC_next | apply invC_ite | apply invC_fault | (apply inv_ofC; assumption)) | with_reducible intro _

theorem doWake_inv (core : Nat) (s : State) (h1 : StateInv s) :
    StateInv (doWake core s) := by
  unfold doWake; try dsimp only
  repeat' first | (with_reducible first | assumption | apply inv_ite | apply act_inv | apply advanceTo_inv | apply State.modCore_inv | apply Rest.rd_inv) | simp only [↓inv_mk] | simp only [↓invX_mk] | simp only [↓invXP_pair] | (with_reducible first | apply invXP_ite | apply invXP_foldl | apply inv_XP | apply invX_ite | apply invX_foldl | apply invX_s) | with_reducible intro _ | dsimp +zetaDelta only | split

theorem execWaitWake_inv (core : Nat) (s : State) (h1 : StateInv s) :
    InvC (execWaitWake core s) := by
  unfold execWaitWake
  repeat' first | (with_reducible first | assumption | apply doWake_inv) | (with_reducible first | apply invC_next | apply invC_ite | apply invC_fault | (apply inv_ofC; assumption)) | with_reducible intro _

theorem State.modLock_inv (s : State) (n : Nat) (f : LockReg → LockReg) (h1 : StateInv s) :
    StateInv (State.modLock s n f) := by
  unfold State.modLock; try dsimp only
  repeat' first | (with_reducible first | assumption) | simp only [↓inv_mk] | dsimp +zetaDelta only | split

theorem grantLock_inv (s : State) (n core : Nat) (h1 : StateInv s) :
    InvP (grantLock s n core) := by
  unfold grantLock; try dsimp only
  repeat' first | (with_reducible first | assumption | apply State.modLock_inv) | simp only [↓inv_mk] | simp only [↓inv_pair] | (with_reducible first | apply inv_P | (apply inv_fst; assumption)) | with_reducible intro _ | dsimp +zetaDelta only | split

theorem wakeLock_inv (s : State) (n core : Nat) (h1 : StateInv s) :
    StateInv (wakeLock s n core) := by
  unfold wakeLock; try dsimp only
  repeat' first | (with_reducible first | assumption | apply act_inv | apply grantLock_inv | apply State.modCore_inv | apply Rest.rd_inv) | simp only [↓inv_mk] | simp only [↓inv_pair] | simp only [↓invX_mk] | simp only [↓invXP_pair] | (with_reducible first | apply invXP_ite | apply invXP_foldl | apply inv_XP | apply invX_ite | apply invX_foldl | apply invX_s | apply inv_P | (apply inv_fst; assumption)) | with_reducible intro _ | dsimp +zetaDelta only | split

theorem doLock_inv (core lo : Nat) (s : State) (h1 : StateInv s) :
    StateInv (doLock core lo s) := by
  unfold doLock; try dsimp only
  repeat' first | (with_reducible first | assumption | apply inv_ite | apply inv_ite1 | apply act_inv | apply grantLock_inv | apply illegal_inv | apply State.modCore_inv | apply runPy_inv | apply setGo_inv | apply wakeLock_inv) | simp only [↓inv_mk] | simp only [↓inv_pair] | simp only [↓invS_go] | simp only [↓invS_jump] | simp only [↓invS_stay] | (with_reducible first | apply invS_exc | apply invS_ite | (apply inv_go; assumption) | (apply inv_jump; assumption) | (apply inv_stay; assumption) | apply inv_P | (apply inv_fst; assumption)) | with_reducible intro _ | dsimp +zetaDelta only | split

theorem execLock_inv (core : Nat) (lo : BitVec 32) (s : State) (h1 : StateInv s) :
    InvC (execLock core lo s) := by
  unfold execLock
  repeat' first | (with_reducible first | assumption | apply doLock_inv) | (with_reducible first | apply invC_next | apply invC_ite | apply invC_fault | (apply inv_ofC; assumption)) | with_reducible intro _

theorem doLockGrant_inv (n : Nat) (s : State) (h1 : StateInv s) :
    StateInv (doLockGrant n s) := by
  unfold doLockGrant
  repeat' first | (with_reducible first | assumption | apply inv_ite | apply wakeLock_inv) | with_reducible intro _ | split

theorem execLockGrant_inv (lock : Nat) (s : State) (h1 : StateInv s) :
    InvC (execLockGrant lock s) := by
  unfold execLockGrant
  repeat' first | (with_reducible first | assumption | apply doLockGrant_inv) | (with_reducible first | apply invC_next | apply invC_ite | apply invC_fault | (apply inv_ofC; assumption)) | with_reducible intro _

theorem doUnlock_inv (core lo : Nat) (s : State) (h1 : StateInv s) :
    StateInv (doUnlock core lo s) := by
  unfold doUnlock; try dsimp only
  repeat' first | (with_reducible first | assumption | apply inv_ite | apply Rest.go_inv | apply illegal_inv | apply State.modLock_inv | apply runPy_inv) | simp only [↓inv_mk] | simp only [↓invS_go] | simp only [↓invS_jump] | simp only [↓invS_stay] | simp only [↓invX_mk] | simp only [↓invXP_pair] | (with_reducible first | apply invS_exc | apply invS_ite | (apply inv_go; assumption) | (apply inv_jump; assumption) | (apply inv_stay; assumption) | apply invXP_ite | apply invXP_foldl | apply inv_XP | apply invX_ite | apply invX_foldl | apply invX_s) | with_reducible intro _ | dsimp +zetaDelta only | split

theorem execUnlock_inv (core : Nat) (lo : BitVec 32) (s : State) (h1 : StateInv s) :
    InvC (execUnlock core lo s) := by
  unfold execUnlock
  repeat' first | (with_reducible first | assumption | apply doUnlock_inv) | (with_reducible first | apply invC_next | apply invC_ite | apply invC_fault | (apply inv_ofC; assumption)) | with_reducible intro _

theorem breakLocks_inv (s : State) (core : Nat) (h1 : StateInv s) :
    StateInv (breakLocks s core) := by
  unfold breakLocks; try dsimp only
  repeat' first | (with_reducible first | assumption | apply inv_ite) | simp only [↓inv_mk] | with_reducible intro _ | dsimp +zetaDelta only | split

theorem doAlive_inv (core lo : Nat) (s : State) (h1 : StateInv s) :
    StateInv (doAlive core lo s) := by
  unfold doAlive; try dsimp only
  repeat' first | (with_reducible first | assumption | apply inv_ite | apply Rest.go_inv | apply illegal_inv | apply State.modCore_inv | apply runPy_inv | apply setGo_inv) | simp only [↓inv_mk] | simp only [↓invS_go] | simp only [↓invS_jump] | simp only [↓invS_stay] | simp only [↓invX_mk] | simp only [↓invXP_pair] | (with_reducible first | apply invS_exc | apply invS_ite | (apply inv_go; assumption) | (apply inv_jump; assumption) | (apply inv_stay; assumption) | apply invXP_ite | apply invXP_foldl | apply inv_XP | apply invX_ite | apply invX_foldl | apply invX_s) | with_reducible intro _ | dsimp +zetaDelta only | split

theorem execAlive_inv (core : Nat) (lo : BitVec 32) (s : State) (h1 : StateInv s) :
    InvC (execAlive core lo s) := by
  unfold execAlive
  repeat' first | (with_reducible first | assumption | apply doAlive_inv) | (with_reducible first | apply invC_next | apply invC_ite | apply invC_fault | (apply inv_ofC; assumption)) | with_reducible intro _

theorem doCsrr_inv (core lo : Nat) (s : State) (h1 : StateInv s) :
    StateInv (doCsrr core lo s) := by
  unfold doCsrr; try dsimp only
  repeat' first | (with_reducible first | assumption | apply inv_ite | apply Rest.go_inv | apply illegal_inv | apply State.modCore_inv | apply runPy_inv) | simp only [↓invS_go] | simp only [↓invS_jump] | simp only [↓invS_stay] | simp only [↓invX_mk] | simp only [↓invXP_pair] | (with_reducible first | apply invS_exc | apply invS_ite | (apply inv_go; assumption) | (apply inv_jump; assumption) | (apply inv_stay; assumption) | apply invXP_ite | apply invXP_foldl | apply inv_XP | apply invX_ite | apply invX_foldl | apply invX_s) | with_reducible intro _ | dsimp +zetaDelta only | split

theorem execCsrr_inv (core : Nat) (lo : BitVec 32) (s : State) (h1 : StateInv s) :
    InvC (execCsrr core lo s) := by
  unfold execCsrr
  repeat' first | (with_reducible first | assumption | apply doCsrr_inv) | (with_reducible first | apply invC_next | apply invC_ite | apply invC_fault | (apply inv_ofC; assumption)) | with_reducible intro _

theorem execScqPop_inv (core : Nat) (lo : BitVec 32) (s : State) (h1 : StateInv s) :
    InvC (execScqPop core lo s) := by
  unfold execScqPop
  repeat' first | (with_reducible first | assumption | apply doCsrr_inv) | (with_reducible first | apply invC_next | apply invC_ite | apply invC_fault | (apply inv_ofC; assumption)) | with_reducible intro _

theorem execMboxPop_inv (core : Nat) (lo : BitVec 32) (s : State) (h1 : StateInv s) :
    InvC (execMboxPop core lo s) := by
  unfold execMboxPop
  repeat' first | (with_reducible first | assumption | apply doCsrr_inv) | (with_reducible first | apply invC_next | apply invC_ite | apply invC_fault | (apply inv_ofC; assumption)) | with_reducible intro _

theorem doCsrw_inv (core lo : Nat) (s : State) (h1 : StateInv s) :
    StateInv (doCsrw core lo s) := by
  unfold doCsrw; try dsimp only
  repeat' first | (with_reducible first | assumption | apply inv_ite | apply Rest.go_inv | apply illegal_inv | apply State.modCore_inv | apply runPy_inv) | simp only [↓inv_mk] | simp only [↓invS_go] | simp only [↓invS_jump] | simp only [↓invS_stay] | simp only [↓invX_mk] | simp only [↓invXP_pair] | (with_reducible first | apply invS_exc | apply invS_ite | (apply inv_go; assumption) | (apply inv_jump; assumption) | (apply inv_stay; assumption) | apply invXP_ite | apply invXP_foldl | apply inv_XP | apply invX_ite | apply invX_foldl | apply invX_s) | with_reducible intro _ | dsimp +zetaDelta only | split

theorem doKeeperCsr_inv (k core csr width v : Nat) (s : State) (h1 : StateInv s) :
    StateInv (doKeeperCsr k core csr width v s) := by
  unfold doKeeperCsr; try dsimp only
  repeat' first | (with_reducible first | assumption | apply inv_ite | apply act_inv | apply State.modCore_inv) | simp only [↓inv_mk] | with_reducible intro _ | dsimp +zetaDelta only | split

theorem execCsrw_inv (core : Nat) (lo : BitVec 32) (s : State) (h1 : StateInv s) :
    InvC (execCsrw core lo s) := by
  unfold execCsrw
  repeat' first | (with_reducible first | assumption | apply doCsrw_inv) | (with_reducible first | apply invC_next | apply invC_ite | apply invC_fault | (apply inv_ofC; assumption)) | with_reducible intro _

theorem doStuck_inv (core : Nat) (s : State) (h1 : StateInv s) :
    StateInv (doStuck core s) := by
  unfold doStuck; try dsimp only
  repeat' first | (with_reducible first | assumption | apply act_inv | apply advanceTo_inv | apply raiseExc_inv) | dsimp +zetaDelta only | split

theorem execStuckAccess_inv (core : Nat) (s : State) (h1 : StateInv s) :
    InvC (execStuckAccess core s) := by
  unfold execStuckAccess
  repeat' first | (with_reducible first | assumption | apply doStuck_inv) | (with_reducible first | apply invC_next | apply invC_ite | apply invC_fault | (apply inv_ofC; assumption)) | with_reducible intro _

theorem storeCrypt_inv (s : State) (enc : Bool) (key block : Nat) (bs : List Byte) (h1 : StateInv s) :
    InvP (storeCrypt s enc key block bs) := by
  unfold storeCrypt
  repeat' first | (with_reducible first | assumption | apply cryptBlocks_inv) | simp only [↓inv_pair] | (with_reducible first | apply inv_P | (apply inv_fst; assumption)) | dsimp +zetaDelta only | split

theorem openStore_inv (s : State) (key block : Nat) (bs : List Byte) (h1 : StateInv s) :
    InvP (openStore s key block bs) := by
  unfold openStore
  repeat' first | (with_reducible first | assumption | apply storeCrypt_inv) | simp only [↓inv_pair] | (with_reducible first | apply inv_P | (apply inv_fst; assumption)) | dsimp +zetaDelta only | split

theorem rdStore_inv (p : Rd) (key : Nat) (st : CkStore) (block n : Nat) (h1 : InvP p) :
    InvQ (rdStore p key st block n) := by
  unfold rdStore; try dsimp only
  repeat' first | (with_reducible first | assumption | apply inv_ite | apply inv_ite1 | apply emit_inv | apply engineRead_inv | apply openStore_inv) | simp only [↓inv_pair] | simp only [↓invQ_pair] | (with_reducible first | apply inv_Q | apply invQ_ite | (apply inv_ofQ; assumption) | apply inv_P | (apply inv_fst; assumption)) | with_reducible intro _ | dsimp +zetaDelta only | split

theorem rdRoots_inv (p : Rd) (j : CkJob) (st : CkStore) (h1 : InvP p) :
    InvQ (rdRoots p j st) := by
  unfold rdRoots; try dsimp only
  repeat' first | (with_reducible first | assumption | apply inv_ite | apply inv_ite1 | apply rdStore_inv) | simp only [↓inv_pair] | simp only [↓invQ_pair] | (with_reducible first | apply inv_Q | apply invQ_ite | (apply inv_ofQ; assumption) | apply inv_P | (apply inv_fst; assumption)) | with_reducible intro _ | dsimp +zetaDelta only | split

theorem rdTable_inv (p : Rd) (j : CkJob) (st : CkStore) (root : Nat) (h1 : InvP p) :
    InvQ (rdTable p j st root) := by
  unfold rdTable; try dsimp only
  repeat' first | (with_reducible first | assumption | apply inv_ite | apply inv_ite1 | apply rdStore_inv) | simp only [↓inv_pair] | simp only [↓invQ_pair] | (with_reducible first | apply inv_Q | apply invQ_ite | (apply inv_ofQ; assumption) | apply inv_P | (apply inv_fst; assumption)) | with_reducible intro _ | dsimp +zetaDelta only | split

theorem ckptJobSet_inv (r d : Nat) (read : HRead) (s : State) (h1 : StateInv s) :
    InvP (ckptJobSet r d read s) := by
  unfold ckptJobSet; try dsimp only
  repeat' first | (with_reducible first | assumption | apply inv_ite | apply inv_ite1 | apply bad_inv | apply State.modCk_inv | apply ok0_inv | apply withSlot_inv) | simp only [↓inv_mk] | simp only [↓inv_pair] | (with_reducible first | apply inv_P | (apply inv_fst; assumption)) | with_reducible intro _ | dsimp +zetaDelta only | split

theorem execCkptJobSet_inv (fn ring : Nat) (read : HRead) (s : State) (h1 : StateInv s) :
    InvC (execCkptJobSet fn ring read s) := by
  unfold execCkptJobSet; try dsimp only
  repeat' first | (with_reducible first | assumption | apply ckptJobSet_inv | apply onDesc_inv) | simp only [↓inv_pair] | (with_reducible first | apply inv_P | apply invC_next | apply invC_ite | apply invC_fault | (apply inv_ofC; assumption) | (apply inv_fst; assumption)) | with_reducible intro _ | dsimp +zetaDelta only | split

theorem takeIssue_inv (s : State) (ep : Nat) (m : BCmd) (h1 : StateInv s) :
    StateInv (takeIssue s ep m) := by
  unfold takeIssue; try dsimp only
  repeat' first | (with_reducible first | assumption | apply addB_inv | apply sendBack_inv) | dsimp +zetaDelta only

theorem ckptTake_inv (r d : Nat) (ref : DRef) (read : HRead) (ans : List BRead) (s : State) (h1 : StateInv s) :
    InvP (ckptTake r d ref read ans s) := by
  unfold ckptTake; try dsimp only
  repeat' first | (with_reducible first | assumption | apply inv_ite | apply inv_ite1 | apply inv_foldl | apply inv_foldl1 | apply bad_inv | apply later_inv | apply State.modCk_inv | apply rdRoots_inv | apply rdTable_inv) | simp only [↓inv_mk] | simp only [↓inv_pair] | simp only [↓invQ_pair] | (with_reducible first | apply inv_Q | apply invQ_ite | (apply inv_ofQ; assumption) | apply inv_P | (apply inv_fst; assumption)) | with_reducible intro _ | dsimp +zetaDelta only | split

theorem execCkptTake_inv (fn ring : Nat) (read : HRead) (answers : List BRead) (s : State) (h1 : StateInv s) :
    InvC (execCkptTake fn ring read answers s) := by
  unfold execCkptTake; try dsimp only
  repeat' first | (with_reducible first | assumption | apply ckptTake_inv | apply onDesc_inv) | simp only [↓inv_pair] | (with_reducible first | apply inv_P | apply invC_next | apply invC_ite | apply invC_fault | (apply inv_ofC; assumption) | (apply inv_fst; assumption)) | with_reducible intro _ | dsimp +zetaDelta only | split

theorem releaseRecords_inv (s : State) (t : Take) (status : Nat) (h1 : StateInv s) :
    StateInv (releaseRecords s t status) := by
  unfold releaseRecords; try dsimp only
  repeat' first | (with_reducible first | assumption | apply inv_foldl | apply engineWrites_inv) | with_reducible intro _ | dsimp +zetaDelta only | split

theorem dropTake_inv (s : State) (ep : Nat) (t : Take) (h1 : StateInv s) :
    StateInv (dropTake s ep t) := by
  unfold dropTake; try dsimp only
  repeat' first | (with_reducible first | assumption | apply inv_ite | apply inv_foldl | apply freeBlock_inv | apply State.modCk_inv | apply State.modSto_inv | apply settlePools_inv | apply wakeStores_inv) | simp only [↓inv_mk] | with_reducible intro _ | dsimp +zetaDelta only | split

theorem failTake_inv (s : State) (ep status : Nat) (h1 : StateInv s) :
    StateInv (failTake s ep status) := by
  unfold failTake; try dsimp only
  repeat' first | (with_reducible first | assumption | apply inv_ite | apply dropTake_inv | apply finish_inv | apply State.modCk_inv | apply releaseRecords_inv) | simp only [↓inv_mk] | with_reducible intro _ | dsimp +zetaDelta only | split

theorem takeWrite_inv (s : State) (ep block : Nat) (m : BCmd) (bs : List Byte) (h1 : StateInv s) :
    StateInv (takeWrite s ep block m bs) := by
  unfold takeWrite; try dsimp only
  repeat' first | (with_reducible first | assumption | apply failTake_inv | apply storeCrypt_inv | apply takeIssue_inv) | simp only [↓inv_mk] | simp only [↓inv_pair] | (with_reducible first | apply inv_P | (apply inv_fst; assumption)) | dsimp +zetaDelta only | split

theorem sealRuns_inv (ep : Nat) (s : State) (runs : List (Nat × Nat)) (bs : List Byte) (h1 : StateInv s) :
    InvP (sealRuns ep s runs bs) := by
  unfold sealRuns; try dsimp only
  repeat' first | (with_reducible first | assumption | apply inv_foldl | apply inv_foldl1 | apply storeCrypt_inv) | simp only [↓inv_mk] | simp only [↓inv_pair] | (with_reducible first | apply inv_P | (apply inv_fst; assumption)) | with_reducible intro _ | dsimp +zetaDelta only | split

theorem writeOut_inv (s : State) (ep key : Nat) (bs : List Byte) (h1 : StateInv s) :
    StateInv (writeOut s ep key bs) := by
  unfold writeOut; try dsimp only
  repeat' first | (with_reducible first | assumption | apply inv_ite | apply inv_ite1 | apply inv_foldl | apply inv_foldl1 | apply failTake_inv | apply State.modTake_inv | apply sealRuns_inv | apply takeIssue_inv) | simp only [↓inv_mk] | simp only [↓inv_pair] | (with_reducible first | apply inv_P | (apply inv_fst; assumption)) | with_reducible intro _ | dsimp +zetaDelta only | split

theorem checkTake_inv (s : State) (ep : Nat) (h1 : StateInv s) :
    StateInv (checkTake s ep) := by
  unfold checkTake; try dsimp only
  repeat' first | (with_reducible first | assumption | apply inv_ite | apply failTake_inv | apply State.modTake_inv | apply takeIssue_inv | apply takeWrite_inv) | simp only [↓inv_mk] | with_reducible intro _ | dsimp +zetaDelta only | split

theorem takePart_inv (s : State) (ep phase st : Nat) (m : BCmd) (h1 : StateInv s) :
    StateInv (takePart s ep phase st m) := by
  unfold takePart; try dsimp only
  repeat' first | (with_reducible first | assumption | apply inv_ite | apply inv_foldl | apply checkTake_inv | apply failTake_inv | apply State.modCk_inv | apply State.modTake_inv | apply takeIssue_inv) | simp only [↓inv_mk] | with_reducible intro _ | dsimp +zetaDelta only | split

theorem doBackendComplete_inv (b i : Nat) (ans : BRead) (s : State) (h1 : StateInv s) :
    StateInv (doBackendComplete b i ans s) := by
  unfold doBackendComplete
  repeat' first | (with_reducible first | assumption | apply backDone_inv | apply hostPart_inv | apply settleSto_inv | apply takePart_inv) | simp only [↓inv_pair] | (with_reducible first | apply inv_P | (apply inv_fst; assumption)) | dsimp +zetaDelta only | split

theorem execBackendCommandComplete_inv (backend which : Nat) (answer : BRead) (s : State) (h1 : StateInv s) :
    InvC (execBackendCommandComplete backend which answer s) := by
  unfold execBackendCommandComplete; try dsimp only
  repeat' first | (with_reducible first | assumption | apply doBackendComplete_inv) | (with_reducible first | apply invC_next | apply invC_ite | apply invC_fault | (apply inv_ofC; assumption)) | with_reducible intro _ | dsimp +zetaDelta only

theorem doSnapshot_inv (ep : Nat) (s : State) (h1 : StateInv s) :
    StateInv (doSnapshot ep s) := by
  unfold doSnapshot; try dsimp only
  repeat' first | (with_reducible first | assumption | apply inv_ite | apply inv_foldl | apply advanceToPtp_inv | apply beginRead_inv | apply engineRead__inv | apply State.modTake_inv | apply postEvent_inv | apply takeWrite_inv) | simp only [↓inv_mk] | with_reducible intro _ | dsimp +zetaDelta only | split

theorem execSnapshotPoint_inv (ep : Nat) (s : State) (h1 : StateInv s) :
    InvC (execSnapshotPoint ep s) := by
  unfold execSnapshotPoint
  repeat' first | (with_reducible first | assumption | apply doSnapshot_inv) | (with_reducible first | apply invC_next | apply invC_ite | apply invC_fault | (apply inv_ofC; assumption)) | with_reducible intro _

theorem doGranuleCow_inv (g : Nat) (s : State) (h1 : StateInv s) :
    StateInv (doGranuleCow g s) := by
  unfold doGranuleCow; try dsimp only
  repeat' first | (with_reducible first | assumption | apply inv_ite | apply inv_foldl | apply State.modTake_inv | apply reserveFull_inv) | simp only [↓inv_mk] | with_reducible intro _ | dsimp +zetaDelta only | split

theorem execGranuleCow_inv (granule : Nat) (s : State) (h1 : StateInv s) :
    InvC (execGranuleCow granule s) := by
  unfold execGranuleCow
  repeat' first | (with_reducible first | assumption | apply doGranuleCow_inv) | (with_reducible first | apply invC_next | apply invC_ite | apply invC_fault | (apply inv_ofC; assumption)) | with_reducible intro _

theorem doGranuleCopied_inv (g : Nat) (s : State) (h1 : StateInv s) :
    StateInv (doGranuleCopied g s) := by
  unfold doGranuleCopied; try dsimp only
  repeat' first | (with_reducible first | assumption | apply inv_ite | apply inv_foldl | apply copyGranule_inv | apply wakeStores_inv) | with_reducible intro _ | dsimp +zetaDelta only | split

theorem execGranuleCopyComplete_inv (granule : Nat) (s : State) (h1 : StateInv s) :
    InvC (execGranuleCopyComplete granule s) := by
  unfold execGranuleCopyComplete
  repeat' first | (with_reducible first | assumption | apply doGranuleCopied_inv) | (with_reducible first | apply invC_next | apply invC_ite | apply invC_fault | (apply inv_ofC; assumption)) | with_reducible intro _

theorem doCaptureReturn_inv (ep : Nat) (ext : ARead) (s : State) (h1 : StateInv s) :
    StateInv (doCaptureReturn ep ext s) := by
  unfold doCaptureReturn; try dsimp only
  repeat' first | (with_reducible first | assumption | apply inv_ite | apply inv_ite1 | apply bad_inv | apply checkTake_inv | apply engineWrite_inv | apply failTake_inv | apply State.modTake_inv | apply postEvent_inv | apply releaseRecords_inv | apply writeOut_inv) | simp only [↓inv_mk] | simp only [↓inv_pair] | (with_reducible first | apply inv_P | (apply inv_fst; assumption)) | with_reducible intro _ | dsimp +zetaDelta only | split

theorem execCaptureReadReturn_inv (ep : Nat) (ext : ARead) (s : State) (h1 : StateInv s) :
    InvC (execCaptureReadReturn ep ext s) := by
  unfold execCaptureReadReturn
  repeat' first | (with_reducible first | assumption | apply doCaptureReturn_inv) | (with_reducible first | apply invC_next | apply invC_ite | apply invC_fault | (apply inv_ofC; assumption)) | with_reducible intro _

theorem doTakeRead_inv (ep : Nat) (ext : ARead) (s : State) (h1 : StateInv s) :
    StateInv (doTakeRead ep ext s) := by
  unfold doTakeRead; try dsimp only
  repeat' first | (with_reducible first | assumption | apply inv_ite | apply inv_ite1 | apply inv_foldl | apply inv_foldl1 | apply bad_inv | apply badT1_inv | apply checkTake_inv | apply engineRead_inv | apply failTake_inv | apply freeBlock_inv | apply State.modCk_inv | apply State.modKv_inv | apply State.modTake_inv | apply settlePools_inv | apply takeData_inv | apply wakeStores_inv | apply writeOut_inv) | simp only [↓inv_mk] | simp only [↓inv_pair] | (with_reducible first | apply inv_P | (apply inv_fst; assumption)) | with_reducible intro _ | dsimp +zetaDelta only | split

theorem execTakeReadReturn_inv (ep : Nat) (ext : ARead) (s : State) (h1 : StateInv s) :
    InvC (execTakeReadReturn ep ext s) := by
  unfold execTakeReadReturn
  repeat' first | (with_reducible first | assumption | apply doTakeRead_inv) | (with_reducible first | apply invC_next | apply invC_ite | apply invC_fault | (apply inv_ofC; assumption)) | with_reducible intro _

theorem takeDone_inv (s : State) (ep phase : Nat) (ans : BRead) (h1 : StateInv s) :
    InvP (takeDone s ep phase ans) := by
  unfold takeDone; try dsimp only
  repeat' first | (with_reducible first | assumption | apply backDone_inv) | simp only [↓inv_pair] | (with_reducible first | apply inv_P | (apply inv_fst; assumption)) | with_reducible intro _ | dsimp +zetaDelta only | split

theorem doTakeFlush_inv (ep : Nat) (ans : BRead) (s : State) (h1 : StateInv s) :
    StateInv (doTakeFlush ep ans s) := by
  unfold doTakeFlush; try dsimp only
  repeat' first | (with_reducible first | assumption | apply inv_ite | apply inv_ite1 | apply failTake_inv | apply State.modTake_inv | apply takeDone_inv | apply takeWrite_inv) | simp only [↓inv_mk] | simp only [↓inv_pair] | (with_reducible first | apply inv_P | (apply inv_fst; assumption)) | with_reducible intro _ | dsimp +zetaDelta only | split

theorem execTakeFlushComplete_inv (ep : Nat) (answer : BRead) (s : State) (h1 : StateInv s) :
    InvC (execTakeFlushComplete ep answer s) := by
  unfold execTakeFlushComplete
  repeat' first | (with_reducible first | assumption | apply doTakeFlush_inv) | (with_reducible first | apply invC_next | apply invC_ite | apply invC_fault | (apply inv_ofC; assumption)) | with_reducible intro _

theorem doRootDone_inv (ep : Nat) (ans : BRead) (s : State) (h1 : StateInv s) :
    StateInv (doRootDone ep ans s) := by
  unfold doRootDone; try dsimp only
  repeat' first | (with_reducible first | assumption | apply inv_ite | apply inv_ite1 | apply dropTake_inv | apply failTake_inv | apply finish_inv | apply State.modCk_inv | apply takeDone_inv) | simp only [↓inv_mk] | simp only [↓inv_pair] | (with_reducible first | apply inv_P | (apply inv_fst; assumption)) | with_reducible intro _ | dsimp +zetaDelta only | split

theorem execRootWriteComplete_inv (ep : Nat) (answer : BRead) (s : State) (h1 : StateInv s) :
    InvC (execRootWriteComplete ep answer s) := by
  unfold execRootWriteComplete
  repeat' first | (with_reducible first | assumption | apply doRootDone_inv) | (with_reducible first | apply invC_next | apply invC_ite | apply invC_fault | (apply inv_ofC; assumption)) | with_reducible intro _

theorem ckptAbort_inv (r : Nat) (ref : DRef) (s0 : State) (h1 : StateInv s0) :
    InvP (ckptAbort r ref s0) := by
  unfold ckptAbort; try dsimp only
  repeat' first | (with_reducible first | assumption | apply inv_ite | apply inv_ite1 | apply failTake_inv | apply finish_inv | apply later_inv | apply okR_inv | apply unorder_inv) | simp only [↓inv_pair] | (with_reducible first | apply inv_P | (apply inv_fst; assumption)) | with_reducible intro _ | dsimp +zetaDelta only | split

theorem execCkptAbort_inv (fn ring : Nat) (s : State) (h1 : StateInv s) :
    InvC (execCkptAbort fn ring s) := by
  unfold execCkptAbort; try dsimp only
  repeat' first | (with_reducible first | assumption | apply ckptAbort_inv | apply onFetched_inv) | simp only [↓inv_pair] | (with_reducible first | apply inv_P | apply invC_next | apply invC_ite | apply invC_fault | (apply inv_ofC; assumption) | (apply inv_fst; assumption)) | with_reducible intro _ | dsimp +zetaDelta only | split

theorem ckptSurvey_inv (r d : Nat) (ans : List BRead) (s : State) (h1 : StateInv s) :
    InvP (ckptSurvey r d ans s) := by
  unfold ckptSurvey; try dsimp only
  repeat' first | (with_reducible first | assumption | apply inv_ite | apply inv_ite1 | apply inv_foldl | apply inv_foldl1 | apply bad_inv | apply hostWrite_inv | apply okR_inv | apply rdRoots_inv) | simp only [↓inv_mk] | simp only [↓inv_pair] | simp only [↓invQ_pair] | (with_reducible first | apply inv_Q | apply invQ_ite | (apply inv_ofQ; assumption) | apply inv_P | (apply inv_fst; assumption)) | with_reducible intro _ | dsimp +zetaDelta only | split

theorem execCkptSurvey_inv (fn ring : Nat) (answers : List BRead) (s : State) (h1 : StateInv s) :
    InvC (execCkptSurvey fn ring answers s) := by
  unfold execCkptSurvey; try dsimp only
  repeat' first | (with_reducible first | assumption | apply ckptSurvey_inv | apply onDesc_inv) | simp only [↓inv_pair] | (with_reducible first | apply inv_P | apply invC_next | apply invC_ite | apply invC_fault | (apply inv_ofC; assumption) | (apply inv_fst; assumption)) | with_reducible intro _ | dsimp +zetaDelta only | split

theorem ckEnd_inv (s : State) (ep status item : Nat) (h1 : StateInv s) :
    StateInv (ckEnd s ep status item) := by
  unfold ckEnd; try dsimp only
  repeat' first | (with_reducible first | assumption | apply State.modCk_inv) | simp only [↓inv_mk] | with_reducible intro _ | dsimp +zetaDelta only | split

theorem doCkCommit_inv (r : Nat) (s : State) (h1 : StateInv s) :
    StateInv (doCkCommit r s) := by
  unfold doCkCommit; try dsimp only
  repeat' first | (with_reducible first | assumption | apply inv_ite | apply ckEnd_inv | apply State.modCk_inv) | simp only [↓inv_mk] | with_reducible intro _ | dsimp +zetaDelta only | split

theorem execCkSetCommit_inv (fn : Nat) (s : State) (h1 : StateInv s) :
    InvC (execCkSetCommit fn s) := by
  unfold execCkSetCommit
  repeat' first | (with_reducible first | assumption | apply doCkCommit_inv | apply gated_inv) | (with_reducible first | apply invC_next | apply invC_ite | apply invC_fault | (apply inv_ofC; assumption)) | with_reducible intro _

theorem doCkUnlock_inv (r : Nat) (s : State) (h1 : StateInv s) :
    StateInv (doCkUnlock r s) := by
  unfold doCkUnlock; try dsimp only
  repeat' first | (with_reducible first | assumption | apply inv_ite | apply ckEnd_inv | apply State.modCk_inv) | simp only [↓inv_mk] | with_reducible intro _ | dsimp +zetaDelta only | split

theorem execCkSetUnlock_inv (fn : Nat) (s : State) (h1 : StateInv s) :
    InvC (execCkSetUnlock fn s) := by
  unfold execCkSetUnlock
  repeat' first | (with_reducible first | assumption | apply doCkUnlock_inv | apply gated_inv) | (with_reducible first | apply invC_next | apply invC_ite | apply invC_fault | (apply inv_ofC; assumption)) | with_reducible intro _

end Sys2Proof.Machine
end

