-- ==== Sys2Proof/Laws/InvNet.lean ====
section
/-!
SUPPORT. What every step keeps, function by function: queues, collectives, power and restores.
-/
set_option Elab.async false
set_option linter.all false
namespace Sys2Proof.Machine

theorem failPushes_inv (s : State) (p : Nat) (h1 : StateInv s) :
    StateInv (failPushes s p) := by
  unfold failPushes; try dsimp only
  repeat' first | (with_reducible first | assumption | apply inv_ite | apply inv_foldl | apply failMove_inv) | with_reducible intro _ | dsimp +zetaDelta only | split

theorem failCaptures_inv (s : State) (p : Nat) (h1 : StateInv s) :
    StateInv (failCaptures s p) := by
  unfold failCaptures; try dsimp only
  repeat' first | (with_reducible first | assumption | apply inv_ite | apply inv_foldl | apply failTake_inv) | simp only [↓inv_mk] | with_reducible intro _ | dsimp +zetaDelta only | split

theorem failTables_inv (s : State) (gone : List Egress) (h1 : StateInv s) :
    StateInv (failTables s gone) := by
  unfold failTables; try dsimp only
  repeat' first | (with_reducible first | assumption | apply inv_ite | apply inv_foldl | apply finish_inv | apply State.modKv_inv | apply settlePools_inv | apply truncSeq_inv) | simp only [↓inv_mk] | with_reducible intro _ | dsimp +zetaDelta only | split

theorem portGone_inv (s : State) (p : Nat) (gone : List Egress) (h1 : StateInv s) :
    StateInv (portGone s p gone) := by
  unfold portGone
  repeat' first | (with_reducible first | assumption | apply failCaptures_inv | apply failPushes_inv | apply failTables_inv | apply missResults_inv)

theorem goDown_inv (s : State) (p : Nat) (h1 : StateInv s) :
    StateInv (goDown s p) := by
  unfold goDown
  repeat' first | (with_reducible first | assumption | apply enterDown_inv | apply portGone_inv)

theorem goShut_inv (s : State) (p : Nat) (h1 : StateInv s) :
    StateInv (goShut s p) := by
  unfold goShut; try dsimp only
  repeat' first | (with_reducible first | assumption | apply inv_ite | apply enterShut_inv | apply State.modPort_inv | apply portGone_inv) | simp only [↓inv_mk] | with_reducible intro _ | dsimp +zetaDelta only | split

theorem doPortDisable_inv (r p : Nat) (s : State) (h1 : StateInv s) :
    StateInv (doPortDisable r p s) := by
  unfold doPortDisable; try dsimp only
  repeat' first | (with_reducible first | assumption | apply goShut_inv | apply State.modPort_inv | apply portReg_inv) | simp only [↓inv_mk] | with_reducible intro _ | dsimp +zetaDelta only | split

theorem execPortDisable_inv (fn port : Nat) (s : State) (h1 : StateInv s) :
    InvC (execPortDisable fn port s) := by
  unfold execPortDisable
  repeat' first | (with_reducible first | assumption | apply doPortDisable_inv | apply gated_inv) | (with_reducible first | apply invC_next | apply invC_ite | apply invC_fault | (apply inv_ofC; assumption)) | with_reducible intro _

theorem doRetrainTimeout_inv (p : Nat) (s : State) (h1 : StateInv s) :
    StateInv (doRetrainTimeout p s) := by
  unfold doRetrainTimeout
  repeat' first | (with_reducible first | assumption | apply inv_ite | apply advanceTo_inv | apply goDown_inv) | with_reducible intro _

theorem execRetrainTimeout_inv (port : Nat) (s : State) (h1 : StateInv s) :
    InvC (execRetrainTimeout port s) := by
  unfold execRetrainTimeout
  repeat' first | (with_reducible first | assumption | apply doRetrainTimeout_inv) | (with_reducible first | apply invC_next | apply invC_ite | apply invC_fault | (apply inv_ofC; assumption)) | with_reducible intro _

theorem State.modCls_inv (s : State) (f : Cls → Cls) (h1 : StateInv s) :
    StateInv (State.modCls s f) := by
  unfold State.modCls; try dsimp only
  repeat' first | (with_reducible first | assumption) | simp only [↓inv_mk] | dsimp +zetaDelta only | split

theorem State.modSet_inv (s : State) (k : Nat) (f : RuleSet → RuleSet) (h1 : StateInv s) :
    StateInv (State.modSet s k f) := by
  unfold State.modSet; try dsimp only
  repeat' first | (with_reducible first | assumption | apply State.modCls_inv) | simp only [↓inv_mk] | with_reducible intro _ | dsimp +zetaDelta only | split

theorem reclaim_inv (s : State) (k : Nat) (h1 : StateInv s) :
    StateInv (reclaim s k) := by
  unfold reclaim; try dsimp only
  repeat' first | (with_reducible first | assumption | apply inv_ite | apply inv_foldl | apply State.modSet_inv | apply postEvent_inv) | simp only [↓inv_mk] | with_reducible intro _ | dsimp +zetaDelta only | split

theorem police_inv (s : State) (j n : Nat) (fr : List Byte) (h1 : StateInv s) :
    InvP (police s j n fr) := by
  unfold police; try dsimp only
  repeat' first | (with_reducible first | assumption | apply inv_ite | apply inv_ite1 | apply act_inv | apply State.modNetIf_inv | apply State.modNetPort_inv) | simp only [↓inv_mk] | simp only [↓inv_pair] | (with_reducible first | apply inv_P | (apply inv_fst; assumption)) | with_reducible intro _ | dsimp +zetaDelta only | split

theorem deliverRx_inv (s : State) (j q ts hash meta_ color : Nat) (fr : List Byte) (h1 : StateInv s) :
    StateInv (deliverRx s j q ts hash meta_ color fr) := by
  unfold deliverRx; try dsimp only
  repeat' first | (with_reducible first | assumption | apply inv_ite | apply finish_inv | apply hostWrite_inv | apply State.modNetIf_inv | apply State.modNetPort_inv) | simp only [↓inv_mk] | with_reducible intro _ | dsimp +zetaDelta only | split

theorem putTxq_inv (s : State) (p n : Nat) (q : Txq) (h1 : StateInv s) :
    StateInv (putTxq s p n q) := by
  unfold putTxq; try dsimp only
  repeat' first | (with_reducible first | assumption | apply State.modNetPort_inv) | simp only [↓inv_mk] | with_reducible intro _ | dsimp +zetaDelta only | split

theorem joinTx_inv (s : State) (j : Nat) (f : TxFrame) (h1 : StateInv s) :
    StateInv (joinTx s j f) := by
  unfold joinTx; try dsimp only
  repeat' first | (with_reducible first | assumption | apply inv_ite | apply finish_inv | apply State.modNetIf_inv | apply putTxq_inv) | simp only [↓inv_mk] | with_reducible intro _ | dsimp +zetaDelta only | split

theorem txqCreate_inv (r i d : Nat) (s : State) (h1 : StateInv s) :
    InvP (txqCreate r i d s) := by
  unfold txqCreate; try dsimp only
  repeat' first | (with_reducible first | assumption | apply inv_ite | apply inv_ite1 | apply bad_inv | apply ok0_inv | apply putTxq_inv) | simp only [↓inv_mk] | simp only [↓inv_pair] | (with_reducible first | apply inv_P | (apply inv_fst; assumption)) | with_reducible intro _ | dsimp +zetaDelta only | split

theorem execTxqCreate_inv (fn ring : Nat) (s : State) (h1 : StateInv s) :
    InvC (execTxqCreate fn ring s) := by
  unfold execTxqCreate; try dsimp only
  repeat' first | (with_reducible first | assumption | apply onDesc_inv | apply txqCreate_inv | apply unorder_inv) | simp only [↓inv_pair] | (with_reducible first | apply inv_P | apply invC_next | apply invC_ite | apply invC_fault | (apply inv_ofC; assumption) | (apply inv_fst; assumption)) | with_reducible intro _ | dsimp +zetaDelta only | split

theorem rxqCreate_inv (r i d : Nat) (s : State) (h1 : StateInv s) :
    InvP (rxqCreate r i d s) := by
  unfold rxqCreate; try dsimp only
  repeat' first | (with_reducible first | assumption | apply inv_ite | apply inv_ite1 | apply bad_inv | apply State.modNetPort_inv | apply ok0_inv) | simp only [↓inv_mk] | simp only [↓inv_pair] | (with_reducible first | apply inv_P | (apply inv_fst; assumption)) | with_reducible intro _ | dsimp +zetaDelta only | split

theorem execRxqCreate_inv (fn ring : Nat) (s : State) (h1 : StateInv s) :
    InvC (execRxqCreate fn ring s) := by
  unfold execRxqCreate; try dsimp only
  repeat' first | (with_reducible first | assumption | apply onDesc_inv | apply rxqCreate_inv | apply unorder_inv) | simp only [↓inv_pair] | (with_reducible first | apply inv_P | apply invC_next | apply invC_ite | apply invC_fault | (apply inv_ofC; assumption) | (apply inv_fst; assumption)) | with_reducible intro _ | dsimp +zetaDelta only | split

theorem qConfig_inv (r i d : Nat) (s : State) (h1 : StateInv s) :
    InvP (qConfig r i d s) := by
  unfold qConfig; try dsimp only
  repeat' first | (with_reducible first | assumption | apply inv_ite | apply inv_ite1 | apply bad_inv | apply ok0_inv | apply putTxq_inv) | simp only [↓inv_mk] | simp only [↓inv_pair] | (with_reducible first | apply inv_P | (apply inv_fst; assumption)) | with_reducible intro _ | dsimp +zetaDelta only | split

theorem execQConfig_inv (fn ring : Nat) (s : State) (h1 : StateInv s) :
    InvC (execQConfig fn ring s) := by
  unfold execQConfig; try dsimp only
  repeat' first | (with_reducible first | assumption | apply onDesc_inv | apply qConfig_inv | apply unorder_inv) | simp only [↓inv_pair] | (with_reducible first | apply inv_P | apply invC_next | apply invC_ite | apply invC_fault | (apply inv_ofC; assumption) | (apply inv_fst; assumption)) | with_reducible intro _ | dsimp +zetaDelta only | split

theorem dropTxq_inv (s : State) (p n : Nat) (q : Txq) (h1 : StateInv s) :
    StateInv (dropTxq s p n q) := by
  unfold dropTxq; try dsimp only
  repeat' first | (with_reducible first | assumption | apply inv_foldl | apply finish_inv | apply State.modCtile_inv | apply State.modNetPort_inv | apply reclaim_inv) | simp only [↓inv_mk] | with_reducible intro _ | dsimp +zetaDelta only | split

theorem dropRxq_inv (s : State) (p n : Nat) (q : Rxq) (h1 : StateInv s) :
    StateInv (dropRxq s p n q) := by
  unfold dropRxq; try dsimp only
  repeat' first | (with_reducible first | assumption | apply inv_foldl | apply finish_inv | apply State.modNetPort_inv) | simp only [↓inv_mk] | with_reducible intro _ | dsimp +zetaDelta only | split

theorem qDestroy_inv (r i : Nat) (s : State) (h1 : StateInv s) :
    InvP (qDestroy r i s) := by
  unfold qDestroy
  repeat' first | (with_reducible first | assumption | apply bad_inv | apply dropRxq_inv | apply dropTxq_inv | apply ok0_inv) | simp only [↓inv_pair] | (with_reducible first | apply inv_P | (apply inv_fst; assumption)) | dsimp +zetaDelta only | split

theorem execQDestroy_inv (fn ring : Nat) (s : State) (h1 : StateInv s) :
    InvC (execQDestroy fn ring s) := by
  unfold execQDestroy; try dsimp only
  repeat' first | (with_reducible first | assumption | apply onDesc_inv | apply qDestroy_inv | apply unorder_inv) | simp only [↓inv_pair] | (with_reducible first | apply inv_P | apply invC_next | apply invC_ite | apply invC_fault | (apply inv_ofC; assumption) | (apply inv_fst; assumption)) | with_reducible intro _ | dsimp +zetaDelta only | split

theorem policerSet_inv (r d : Nat) (s : State) (h1 : StateInv s) :
    InvP (policerSet r d s) := by
  unfold policerSet; try dsimp only
  repeat' first | (with_reducible first | assumption | apply inv_ite | apply inv_ite1 | apply bad_inv | apply State.modNetPort_inv | apply ok0_inv) | simp only [↓inv_mk] | simp only [↓inv_pair] | (with_reducible first | apply inv_P | (apply inv_fst; assumption)) | with_reducible intro _ | dsimp +zetaDelta only | split

theorem execPolicerSet_inv (fn ring : Nat) (s : State) (h1 : StateInv s) :
    InvC (execPolicerSet fn ring s) := by
  unfold execPolicerSet; try dsimp only
  repeat' first | (with_reducible first | assumption | apply onDesc_inv | apply policerSet_inv | apply unorder_inv) | simp only [↓inv_pair] | (with_reducible first | apply inv_P | apply invC_next | apply invC_ite | apply invC_fault | (apply inv_ofC; assumption) | (apply inv_fst; assumption)) | with_reducible intro _ | dsimp +zetaDelta only | split

theorem policerRead_inv (r d : Nat) (s : State) (h1 : StateInv s) :
    InvP (policerRead r d s) := by
  unfold policerRead; try dsimp only
  repeat' first | (with_reducible first | assumption | apply inv_ite | apply inv_ite1 | apply bad_inv | apply hostWrite_inv | apply ok0_inv) | simp only [↓inv_pair] | (with_reducible first | apply inv_P | (apply inv_fst; assumption)) | with_reducible intro _ | dsimp +zetaDelta only | split

theorem execPolicerRead_inv (fn ring : Nat) (s : State) (h1 : StateInv s) :
    InvC (execPolicerRead fn ring s) := by
  unfold execPolicerRead; try dsimp only
  repeat' first | (with_reducible first | assumption | apply onDesc_inv | apply policerRead_inv | apply unorder_inv) | simp only [↓inv_pair] | (with_reducible first | apply inv_P | apply invC_next | apply invC_ite | apply invC_fault | (apply inv_ofC; assumption) | (apply inv_fst; assumption)) | with_reducible intro _ | dsimp +zetaDelta only | split

theorem txPacket_inv (r i d : Nat) (ref : DRef) (data : HRead) (s : State) (h1 : StateInv s) :
    InvP (txPacket r i d ref data s) := by
  unfold txPacket; try dsimp only
  repeat' first | (with_reducible first | assumption | apply inv_ite | apply inv_ite1 | apply bad_inv | apply countOverflow_inv | apply later_inv | apply State.modCtile_inv) | simp only [↓inv_mk] | simp only [↓inv_pair] | (with_reducible first | apply inv_P | (apply inv_fst; assumption)) | with_reducible intro _ | dsimp +zetaDelta only | split

theorem execTxPacket_inv (fn ring : Nat) (data : HRead) (s : State) (h1 : StateInv s) :
    InvC (execTxPacket fn ring data s) := by
  unfold execTxPacket; try dsimp only
  repeat' first | (with_reducible first | assumption | apply onDesc_inv | apply txPacket_inv) | simp only [↓inv_pair] | (with_reducible first | apply inv_P | apply invC_next | apply invC_ite | apply invC_fault | (apply inv_ofC; assumption) | (apply inv_fst; assumption)) | with_reducible intro _ | dsimp +zetaDelta only | split

theorem rxBuffer_inv (r i d : Nat) (ref : DRef) (s : State) (h1 : StateInv s) :
    InvP (rxBuffer r i d ref s) := by
  unfold rxBuffer; try dsimp only
  repeat' first | (with_reducible first | assumption | apply inv_ite | apply inv_ite1 | apply bad_inv | apply later_inv | apply State.modNetPort_inv) | simp only [↓inv_mk] | simp only [↓inv_pair] | (with_reducible first | apply inv_P | (apply inv_fst; assumption)) | with_reducible intro _ | dsimp +zetaDelta only | split

theorem execRxBuffer_inv (fn ring : Nat) (s : State) (h1 : StateInv s) :
    InvC (execRxBuffer fn ring s) := by
  unfold execRxBuffer; try dsimp only
  repeat' first | (with_reducible first | assumption | apply onDesc_inv | apply rxBuffer_inv | apply unorder_inv) | simp only [↓inv_pair] | (with_reducible first | apply inv_P | apply invC_next | apply invC_ite | apply invC_fault | (apply inv_ofC; assumption) | (apply inv_fst; assumption)) | with_reducible intro _ | dsimp +zetaDelta only | split

theorem netReg_inv (s : State) (r p : Nat) (act : State → State) (h1 : StateInv s) (h2 : ∀ (y0 : State), StateInv y0 → StateInv (act y0)) :
    StateInv (netReg s r p act) := by
  unfold netReg; try dsimp only
  repeat' first | (with_reducible first | assumption | apply inv_ite | apply h2 | apply State.modFn_inv | apply offAccess_inv) | simp only [↓inv_mk] | with_reducible intro _ | dsimp +zetaDelta only | split

theorem dropTooLong_inv (z0 : Nat) (z1 : State) (z2 : Nat) (h1 : StateInv z1) :
    StateInv (dropTooLong z0 z1 z2) := by
  fun_induction dropTooLong z0 z1 z2 <;> try dsimp +zetaDelta only
  all_goals repeat' first | (with_reducible first | assumption | apply finish_inv | apply State.modNetIf_inv | apply putTxq_inv) | simp only [↓inv_mk] | with_reducible apply_assumption -exfalso | with_reducible intro _ | dsimp +zetaDelta only | split

theorem takeFrame_inv (s : State) (j cls t : Nat) (c : Cand) (h1 : StateInv s) :
    StateInv (takeFrame s j cls t c) := by
  unfold takeFrame; try dsimp only
  repeat' first | (with_reducible first | assumption | apply inv_ite | apply State.modNetIf_inv | apply State.modQp_inv | apply putTxq_inv) | simp only [↓inv_mk] | with_reducible intro _ | dsimp +zetaDelta only | split

theorem doFrameSelect_inv (j : Nat) (s : State) (h1 : StateInv s) :
    StateInv (doFrameSelect j s) := by
  unfold doFrameSelect; try dsimp only
  repeat' first | (with_reducible first | assumption | apply inv_ite | apply dropTooLong_inv | apply takeFrame_inv) | with_reducible intro _ | dsimp +zetaDelta only | split

theorem execFrameSelect_inv (iface : Nat) (s : State) (h1 : StateInv s) :
    InvC (execFrameSelect iface s) := by
  unfold execFrameSelect
  repeat' first | (with_reducible first | assumption | apply doFrameSelect_inv) | (with_reducible first | apply invC_next | apply invC_ite | apply invC_fault | (apply inv_ofC; assumption)) | with_reducible intro _

theorem doFrameTxDone_inv (j : Nat) (s : State) (h1 : StateInv s) :
    StateInv (doFrameTxDone j s) := by
  unfold doFrameTxDone; try dsimp only
  repeat' first | (with_reducible first | assumption | apply inv_ite | apply addTotal_inv | apply advanceToPtp_inv | apply emit_inv | apply finish_inv | apply State.modNetIf_inv | apply tapUnit_inv) | simp only [↓inv_mk] | with_reducible intro _ | dsimp +zetaDelta only | split

theorem execFrameTxDone_inv (iface : Nat) (s : State) (h1 : StateInv s) :
    InvC (execFrameTxDone iface s) := by
  unfold execFrameTxDone
  repeat' first | (with_reducible first | assumption | apply doFrameTxDone_inv) | (with_reducible first | apply invC_next | apply invC_ite | apply invC_fault | (apply inv_ofC; assumption)) | with_reducible intro _

theorem doSchGateCommit_inv (r j : Nat) (s : State) (h1 : StateInv s) :
    StateInv (doSchGateCommit r j s) := by
  unfold doSchGateCommit; try dsimp only
  repeat' first | (with_reducible first | assumption | apply State.modNetIf_inv | apply netReg_inv) | simp only [↓inv_mk] | with_reducible intro _ | dsimp +zetaDelta only | split

theorem execSchGateCommit_inv (fn iface : Nat) (s : State) (h1 : StateInv s) :
    InvC (execSchGateCommit fn iface s) := by
  unfold execSchGateCommit
  repeat' first | (with_reducible first | assumption | apply doSchGateCommit_inv | apply gated_inv) | (with_reducible first | apply invC_next | apply invC_ite | apply invC_fault | (apply inv_ofC; assumption)) | with_reducible intro _

theorem doGateTake_inv (accel : Bool) (n : Nat) (s : State) (h1 : StateInv s) :
    StateInv (doGateTake accel n s) := by
  unfold doGateTake; try dsimp only
  repeat' first | (with_reducible first | assumption | apply inv_ite | apply advanceToPtp_inv | apply State.modNetIf_inv | apply State.modPort_inv | apply postEvent_inv | apply postPort_inv) | simp only [↓inv_mk] | with_reducible intro _ | dsimp +zetaDelta only | split

theorem execGateListTakeEffect_inv (accel : Bool) (which : Nat) (s : State) (h1 : StateInv s) :
    InvC (execGateListTakeEffect accel which s) := by
  unfold execGateListTakeEffect
  repeat' first | (with_reducible first | assumption | apply doGateTake_inv) | (with_reducible first | apply invC_next | apply invC_ite | apply invC_fault | (apply inv_ofC; assumption)) | with_reducible intro _

theorem doGateAdvance_inv (accel : Bool) (n : Nat) (s : State) (h1 : StateInv s) :
    StateInv (doGateAdvance accel n s) := by
  unfold doGateAdvance; try dsimp only
  repeat' first | (with_reducible first | assumption | apply inv_ite | apply advanceToPtp_inv | apply State.modNetIf_inv | apply State.modPort_inv) | simp only [↓inv_mk] | with_reducible intro _ | dsimp +zetaDelta only | split

theorem execGateEntryAdvance_inv (accel : Bool) (which : Nat) (s : State) (h1 : StateInv s) :
    InvC (execGateEntryAdvance accel which s) := by
  unfold execGateEntryAdvance
  repeat' first | (with_reducible first | assumption | apply doGateAdvance_inv) | (with_reducible first | apply invC_next | apply invC_ite | apply invC_fault | (apply inv_ofC; assumption)) | with_reducible intro _

theorem endWait_inv (s : State) (w : TimeWait) (h1 : StateInv s) :
    StateInv (endWait s w) := by
  unfold endWait; try dsimp only
  repeat' first | (with_reducible first | assumption | apply finish_inv) | simp only [↓inv_mk] | with_reducible intro _ | dsimp +zetaDelta only | split

theorem endDue_inv (z0 : Nat) (z1 : State) (h1 : StateInv z1) :
    StateInv (endDue z0 z1) := by
  fun_induction endDue z0 z1 <;> try dsimp +zetaDelta only
  all_goals repeat' first | (with_reducible first | assumption | apply inv_ite | apply endWait_inv) | with_reducible apply_assumption -exfalso | with_reducible intro _ | dsimp +zetaDelta only | split

theorem timeWait_inv (d : Nat) (ref : DRef) (s : State) (h1 : StateInv s) :
    InvP (timeWait d ref s) := by
  unfold timeWait; try dsimp only
  repeat' first | (with_reducible first | assumption | apply endDue_inv | apply later_inv) | simp only [↓inv_mk] | simp only [↓inv_pair] | (with_reducible first | apply inv_P | (apply inv_fst; assumption)) | dsimp +zetaDelta only | split

theorem execTimeWait_inv (fn ring : Nat) (s : State) (h1 : StateInv s) :
    InvC (execTimeWait fn ring s) := by
  unfold execTimeWait; try dsimp only
  repeat' first | (with_reducible first | assumption | apply onDesc_inv | apply timeWait_inv) | simp only [↓inv_pair] | (with_reducible first | apply inv_P | apply invC_next | apply invC_ite | apply invC_fault | (apply inv_ofC; assumption) | (apply inv_fst; assumption)) | with_reducible intro _ | dsimp +zetaDelta only | split

theorem doTimeWaitDue_inv (s : State) (h1 : StateInv s) :
    StateInv (doTimeWaitDue s) := by
  unfold doTimeWaitDue
  repeat' first | (with_reducible first | assumption | apply advanceToPtp_inv | apply endWait_inv) | split

theorem execTimeWaitDue_inv (s : State) (h1 : StateInv s) :
    InvC (execTimeWaitDue s) := by
  unfold execTimeWaitDue
  repeat' first | (with_reducible first | assumption | apply doTimeWaitDue_inv) | (with_reducible first | apply invC_next | apply invC_ite | apply invC_fault | (apply inv_ofC; assumption)) | with_reducible intro _

theorem resetTags_inv (s : State) (j : Nat) (h1 : StateInv s) :
    StateInv (resetTags s j) := by
  unfold resetTags; try dsimp only
  repeat' first | (with_reducible first | assumption | apply inv_ite | apply State.modNetIf_inv | apply State.modNetPort_inv) | simp only [↓inv_mk] | with_reducible intro _ | dsimp +zetaDelta only | split

theorem doLinkChange_inv (j : Nat) (up : Bool) (s : State) (h1 : StateInv s) :
    StateInv (doLinkChange j up s) := by
  unfold doLinkChange; try dsimp only
  repeat' first | (with_reducible first | assumption | apply inv_ite | apply cvAbortIf_inv | apply State.modNetIf_inv | apply resetTags_inv) | simp only [↓inv_mk] | with_reducible intro _ | dsimp +zetaDelta only | split

theorem execInterfaceLinkChange_inv (iface : Nat) (up : Bool) (s : State) (h1 : StateInv s) :
    InvC (execInterfaceLinkChange iface up s) := by
  unfold execInterfaceLinkChange
  repeat' first | (with_reducible first | assumption | apply doLinkChange_inv) | (with_reducible first | apply invC_next | apply invC_ite | apply invC_fault | (apply inv_ofC; assumption)) | with_reducible intro _

theorem doBreakout_inv (r p v : Nat) (s : State) (h1 : StateInv s) :
    StateInv (doBreakout r p v s) := by
  unfold doBreakout; try dsimp only
  repeat' first | (with_reducible first | assumption | apply inv_ite | apply inv_ite1 | apply inv_foldl | apply inv_foldl1 | apply doLinkChange_inv | apply State.modNetPort_inv | apply netReg_inv | apply refused_inv | apply resetTags_inv) | simp only [↓inv_mk] | simp only [↓inv_pair] | (with_reducible first | apply inv_P | (apply inv_fst; assumption)) | with_reducible intro _ | dsimp +zetaDelta only | split

theorem execBreakoutWrite_inv (fn net value : Nat) (s : State) (h1 : StateInv s) :
    InvC (execBreakoutWrite fn net value s) := by
  unfold execBreakoutWrite
  repeat' first | (with_reducible first | assumption | apply doBreakout_inv | apply gated_inv) | (with_reducible first | apply invC_next | apply invC_ite | apply invC_fault | (apply inv_ofC; assumption)) | with_reducible intro _

theorem holdAll_inv (s : State) (c : Nat) (h1 : StateInv s) :
    StateInv (holdAll s c) := by
  unfold holdAll; try dsimp only
  repeat' first | (with_reducible first | assumption | apply inv_foldl | apply hold_inv) | with_reducible intro _ | dsimp +zetaDelta only | split

theorem unholdAll_inv (s : State) (c : Nat) (h1 : StateInv s) :
    StateInv (unholdAll s c) := by
  unfold unholdAll; try dsimp only
  repeat' first | (with_reducible first | assumption | apply inv_foldl | apply unhold_inv) | with_reducible intro _ | dsimp +zetaDelta only | split

theorem replayLaunch_inv (s : State) (c : Nat) (h1 : StateInv s) :
    StateInv (replayLaunch s c) := by
  unfold replayLaunch; try dsimp only
  repeat' first | (with_reducible first | assumption | apply enterProgram_inv | apply loadData_inv | apply modRunning_inv) | simp only [↓inv_mk] | with_reducible intro _ | dsimp +zetaDelta only | split

theorem settleProg_inv (s : State) (h1 : StateInv s) :
    StateInv (settleProg s) := by
  unfold settleProg; try dsimp only
  repeat' first | (with_reducible first | assumption | apply inv_ite | apply inv_foldl | apply finish_inv) | simp only [↓inv_mk] | with_reducible intro _ | dsimp +zetaDelta only | split

theorem keeperWord_inv (s : State) (c v : Nat) (h1 : StateInv s) :
    StateInv (keeperWord s c v) := by
  unfold keeperWord
  repeat' first | (with_reducible first | assumption | apply localStore_inv)

theorem askDrain_inv (s : State) (c : Nat) (h1 : StateInv s) :
    StateInv (askDrain s c) := by
  unfold askDrain; try dsimp only
  repeat' first | (with_reducible first | assumption | apply keeperWord_inv | apply State.modCore_inv) | simp only [↓inv_mk] | with_reducible intro _ | dsimp +zetaDelta only | split

theorem replFail_inv (s : State) (c : Nat) (h1 : StateInv s) :
    StateInv (replFail s c) := by
  unfold replFail; try dsimp only
  repeat' first | (with_reducible first | assumption | apply inv_ite | apply postAll_inv) | simp only [↓inv_mk] | with_reducible intro _ | dsimp +zetaDelta only | split

theorem replNext_inv (s : State) (c : Nat) (h1 : StateInv s) :
    StateInv (replNext s c) := by
  unfold replNext; try dsimp only
  repeat' first | (with_reducible first | assumption | apply inv_ite | apply inv_foldl | apply State.modCore_inv | apply postAll_inv) | simp only [↓inv_mk] | with_reducible intro _ | dsimp +zetaDelta only | split

theorem passRings_inv (s : State) (c : Nat) (h1 : StateInv s) :
    InvP (passRings s c) := by
  unfold passRings; try dsimp only
  repeat' first | (with_reducible first | assumption | apply inv_ite | apply inv_ite1 | apply inv_foldl | apply inv_foldl1 | apply mboxPush_inv | apply State.modCore_inv | apply State.modRing_inv | apply unhold_inv) | simp only [↓inv_mk] | simp only [↓inv_pair] | (with_reducible first | apply inv_P | (apply inv_fst; assumption)) | with_reducible intro _ | dsimp +zetaDelta only | split

theorem moveComms_inv (s : State) (c : Nat) (h1 : StateInv s) :
    StateInv (moveComms s c) := by
  unfold moveComms; try dsimp only
  repeat' first | (with_reducible first | assumption | apply inv_ite) | simp only [↓inv_mk] | with_reducible intro _ | dsimp +zetaDelta only | split

theorem stopCore_inv (s : State) (c cause : Nat) (h1 : StateInv s) :
    StateInv (stopCore s c cause) := by
  unfold stopCore; try dsimp only
  repeat' first | (with_reducible first | assumption | apply inv_ite | apply act_inv | apply breakLocks_inv | apply holdAll_inv | apply State.modCore_inv | apply replFail_inv | apply replNext_inv | apply settleProg_inv) | simp only [↓inv_mk] | with_reducible intro _ | dsimp +zetaDelta only | split

theorem stopKeeper_inv (s : State) (n cause : Nat) (h1 : StateInv s) :
    StateInv (stopKeeper s n cause) := by
  unfold stopKeeper; try dsimp only
  repeat' first | (with_reducible first | assumption | apply inv_ite | apply act_inv | apply breakLocks_inv | apply holdAll_inv | apply State.modCore_inv) | simp only [↓inv_mk] | with_reducible intro _ | dsimp +zetaDelta only | split

theorem doCoreStop_inv (c : Nat) (s : State) (h1 : StateInv s) :
    StateInv (doCoreStop c s) := by
  unfold doCoreStop; try dsimp only
  repeat' first | (with_reducible first | assumption | apply inv_ite | apply act_inv | apply stopCore_inv | apply stopKeeper_inv) | with_reducible intro _ | dsimp +zetaDelta only

theorem execCoreStop_inv (core : Nat) (s : State) (h1 : StateInv s) :
    InvC (execCoreStop core s) := by
  unfold execCoreStop
  repeat' first | (with_reducible first | assumption | apply doCoreStop_inv) | (with_reducible first | apply invC_next | apply invC_ite | apply invC_fault | (apply inv_ofC; assumption)) | with_reducible intro _

theorem doAliveSample_inv (s : State) (h1 : StateInv s) :
    StateInv (doAliveSample s) := by
  unfold doAliveSample; try dsimp only
  repeat' first | (with_reducible first | assumption | apply inv_ite | apply inv_foldl | apply act_inv | apply advanceTo_inv | apply stopCore_inv | apply stopKeeper_inv) | with_reducible intro _ | dsimp +zetaDelta only | split

theorem execAliveSample_inv (s : State) (h1 : StateInv s) :
    InvC (execAliveSample s) := by
  unfold execAliveSample
  repeat' first | (with_reducible first | assumption | apply doAliveSample_inv) | (with_reducible first | apply invC_next | apply invC_ite | apply invC_fault | (apply inv_ofC; assumption)) | with_reducible intro _

theorem endAllLaunches_inv (s : State) (c status : Nat) (h1 : StateInv s) :
    StateInv (endAllLaunches s c status) := by
  unfold endAllLaunches; try dsimp only
  repeat' first | (with_reducible first | assumption | apply inv_ite | apply inv_foldl | apply endLaunch_inv | apply endQueued_inv) | with_reducible intro _ | dsimp +zetaDelta only | split

theorem doReload_inv (c : Nat) (found : Codeword) (s : State) (h1 : StateInv s) :
    StateInv (doReload c found s) := by
  unfold doReload; try dsimp only
  repeat' first | (with_reducible first | assumption | apply inv_ite | apply inv_foldl | apply endAllLaunches_inv | apply State.modCore_inv | apply postAll_inv | apply replayLaunch_inv | apply ringError_inv | apply settleProg_inv | apply uncorrectable_inv | apply unholdAll_inv) | simp only [↓inv_mk] | with_reducible intro _ | dsimp +zetaDelta only | split

theorem execCoreReloadComplete_inv (core : Nat) (found : Codeword) (s : State) (h1 : StateInv s) :
    InvC (execCoreReloadComplete core found s) := by
  unfold execCoreReloadComplete
  repeat' first | (with_reducible first | assumption | apply doReload_inv) | (with_reducible first | apply invC_next | apply invC_ite | apply invC_fault | (apply inv_ofC; assumption)) | with_reducible intro _

theorem doAdoption_inv (c : Nat) (s : State) (h1 : StateInv s) :
    StateInv (doAdoption c s) := by
  unfold doAdoption; try dsimp only
  repeat' first | (with_reducible first | assumption | apply inv_ite | apply inv_ite1 | apply endAllLaunches_inv | apply State.modCore_inv | apply moveComms_inv | apply passRings_inv | apply postAll_inv) | simp only [↓inv_mk] | simp only [↓inv_pair] | (with_reducible first | apply inv_P | (apply inv_fst; assumption)) | with_reducible intro _ | dsimp +zetaDelta only | split

theorem execCoreFailedAdoption_inv (core : Nat) (s : State) (h1 : StateInv s) :
    InvC (execCoreFailedAdoption core s) := by
  unfold execCoreFailedAdoption
  repeat' first | (with_reducible first | assumption | apply doAdoption_inv) | (with_reducible first | apply invC_next | apply invC_ite | apply invC_fault | (apply inv_ofC; assumption)) | with_reducible intro _

theorem takePf0Rings_inv (s : State) (old new : Nat) (h1 : StateInv s) :
    StateInv (takePf0Rings s old new) := by
  unfold takePf0Rings; try dsimp only
  repeat' first | (with_reducible first | assumption | apply inv_ite | apply inv_foldl | apply mboxPush_inv | apply State.modCore_inv | apply State.modRing_inv | apply unhold_inv) | simp only [↓inv_mk] | with_reducible intro _ | dsimp +zetaDelta only | split

theorem doFailover_inv (s : State) (h1 : StateInv s) :
    StateInv (doFailover s) := by
  unfold doFailover; try dsimp only
  repeat' first | (with_reducible first | assumption | apply inv_ite | apply postAll_inv | apply stopKeeper_inv | apply takePf0Rings_inv) | simp only [↓inv_mk] | with_reducible intro _ | dsimp +zetaDelta only | split

theorem execKeeperFailover_inv (s : State) (h1 : StateInv s) :
    InvC (execKeeperFailover s) := by
  unfold execKeeperFailover
  repeat' first | (with_reducible first | assumption | apply doFailover_inv) | (with_reducible first | apply invC_next | apply invC_ite | apply invC_fault | (apply inv_ofC; assumption)) | with_reducible intro _

theorem startKeeper_inv (s : State) (n : Nat) (h1 : StateInv s) :
    StateInv (startKeeper s n) := by
  unfold startKeeper; try dsimp only
  repeat' first | (with_reducible first | assumption | apply State.modCore_inv) | simp only [↓inv_mk] | with_reducible intro _ | dsimp +zetaDelta only | split

theorem doKeeperReload_inv (s : State) (h1 : StateInv s) :
    StateInv (doKeeperReload s) := by
  unfold doKeeperReload; try dsimp only
  repeat' first | (with_reducible first | assumption | apply inv_ite | apply State.modCore_inv | apply startKeeper_inv) | simp only [↓inv_mk] | with_reducible intro _ | dsimp +zetaDelta only | split

theorem execKeeperReloadComplete_inv (s : State) (h1 : StateInv s) :
    InvC (execKeeperReloadComplete s) := by
  unfold execKeeperReloadComplete
  repeat' first | (with_reducible first | assumption | apply doKeeperReload_inv) | (with_reducible first | apply invC_next | apply invC_ite | apply invC_fault | (apply inv_ofC; assumption)) | with_reducible intro _

theorem doRomRestart_inv (s : State) (h1 : StateInv s) :
    StateInv (doRomRestart s) := by
  unfold doRomRestart; try dsimp only
  repeat' first | (with_reducible first | assumption | apply inv_ite | apply inv_foldl | apply advanceTo_inv | apply stopKeeper_inv) | simp only [↓inv_mk] | simp only [↓invX_mk] | simp only [↓invXP_pair] | (with_reducible first | apply invXP_ite | apply invXP_foldl | apply inv_XP | apply invX_ite | apply invX_foldl | apply invX_s) | with_reducible intro _ | dsimp +zetaDelta only | split

theorem execRomKeeperRestart_inv (s : State) (h1 : StateInv s) :
    InvC (execRomKeeperRestart s) := by
  unfold execRomKeeperRestart
  repeat' first | (with_reducible first | assumption | apply doRomRestart_inv) | simp only [↓invX_mk] | simp only [↓invXP_pair] | (with_reducible first | apply invXP_ite | apply invXP_foldl | apply inv_XP | apply invX_ite | apply invX_foldl | apply invX_s | apply invC_next | apply invC_ite | apply invC_fault | (apply inv_ofC; assumption)) | with_reducible intro _ | dsimp +zetaDelta only | split

theorem doDrainRequest_inv (c : Nat) (s : State) (h1 : StateInv s) :
    StateInv (doDrainRequest c s) := by
  unfold doDrainRequest
  repeat' first | (with_reducible first | assumption | apply inv_ite | apply askDrain_inv) | with_reducible intro _ | split

theorem execDrainRequest_inv (core : Nat) (s : State) (h1 : StateInv s) :
    InvC (execDrainRequest core s) := by
  unfold execDrainRequest
  repeat' first | (with_reducible first | assumption | apply doDrainRequest_inv) | (with_reducible first | apply invC_next | apply invC_ite | apply invC_fault | (apply inv_ofC; assumption)) | with_reducible intro _

theorem doDrainCancel_inv (c : Nat) (s : State) (h1 : StateInv s) :
    StateInv (doDrainCancel c s) := by
  unfold doDrainCancel; try dsimp only
  repeat' first | (with_reducible first | assumption | apply inv_ite | apply keeperWord_inv | apply State.modCore_inv | apply replFail_inv) | simp only [↓inv_mk] | with_reducible intro _ | dsimp +zetaDelta only | split

theorem execDrainCancel_inv (core : Nat) (s : State) (h1 : StateInv s) :
    InvC (execDrainCancel core s) := by
  unfold execDrainCancel
  repeat' first | (with_reducible first | assumption | apply doDrainCancel_inv) | (with_reducible first | apply invC_next | apply invC_ite | apply invC_fault | (apply inv_ofC; assumption)) | with_reducible intro _

theorem doHandoffTimeout_inv (c : Nat) (s : State) (h1 : StateInv s) :
    StateInv (doHandoffTimeout c s) := by
  unfold doHandoffTimeout; try dsimp only
  repeat' first | (with_reducible first | assumption | apply inv_ite | apply advanceTo_inv | apply keeperWord_inv | apply State.modCore_inv | apply replFail_inv) | simp only [↓inv_mk] | with_reducible intro _ | dsimp +zetaDelta only | split

theorem execHandoffTimeout_inv (core : Nat) (s : State) (h1 : StateInv s) :
    InvC (execHandoffTimeout core s) := by
  unfold execHandoffTimeout
  repeat' first | (with_reducible first | assumption | apply doHandoffTimeout_inv) | (with_reducible first | apply invC_next | apply invC_ite | apply invC_fault | (apply inv_ofC; assumption)) | with_reducible intro _

theorem moveLaunches_inv (s : State) (c : Nat) (h1 : StateInv s) :
    StateInv (moveLaunches s c) := by
  unfold moveLaunches; try dsimp only
  repeat' first | (with_reducible first | assumption | apply inv_ite | apply inv_foldl | apply State.modCore_inv | apply openJournal_inv | apply replayLaunch_inv) | simp only [↓inv_mk] | with_reducible intro _ | dsimp +zetaDelta only | split

theorem doHandoff_inv (c : Nat) (s : State) (h1 : StateInv s) :
    StateInv (doHandoff c s) := by
  unfold doHandoff; try dsimp only
  repeat' first | (with_reducible first | assumption | apply inv_ite | apply inv_ite1 | apply act_inv | apply breakLocks_inv | apply holdAll_inv | apply keeperWord_inv | apply State.modCore_inv | apply moveComms_inv | apply moveLaunches_inv | apply passRings_inv | apply settleProg_inv) | simp only [↓inv_mk] | simp only [↓inv_pair] | (with_reducible first | apply inv_P | (apply inv_fst; assumption)) | with_reducible intro _ | dsimp +zetaDelta only | split

theorem execHandoffRecord_inv (core : Nat) (s : State) (h1 : StateInv s) :
    InvC (execHandoffRecord core s) := by
  unfold execHandoffRecord
  repeat' first | (with_reducible first | assumption | apply doHandoff_inv) | (with_reducible first | apply invC_next | apply invC_ite | apply invC_fault | (apply inv_ofC; assumption)) | with_reducible intro _

theorem doSwapAdopt_inv (c : Nat) (s : State) (h1 : StateInv s) :
    StateInv (doSwapAdopt c s) := by
  unfold doSwapAdopt; try dsimp only
  repeat' first | (with_reducible first | assumption | apply inv_ite | apply State.modCore_inv | apply replNext_inv | apply replayLaunch_inv | apply settleProg_inv | apply unholdAll_inv) | simp only [↓inv_mk] | with_reducible intro _ | dsimp +zetaDelta only | split

theorem execSwapAdopt_inv (core : Nat) (s : State) (h1 : StateInv s) :
    InvC (execSwapAdopt core s) := by
  unfold execSwapAdopt
  repeat' first | (with_reducible first | assumption | apply doSwapAdopt_inv) | (with_reducible first | apply invC_next | apply invC_ite | apply invC_fault | (apply inv_ofC; assumption)) | with_reducible intro _

theorem tellAlive_inv (s : State) (core : Nat) (h1 : StateInv s) :
    StateInv (tellAlive s core) := by
  unfold tellAlive; try dsimp only
  repeat' first | (with_reducible first | assumption | apply State.modCore_inv) | simp only [↓inv_mk] | with_reducible intro _ | dsimp +zetaDelta only | split

theorem rtBack_inv (core : Nat) (l : Launch) (results : List Nat) (s : State) (h1 : StateInv s) :
    StateInv (rtBack core l results s) := by
  unfold rtBack; try dsimp only
  repeat' first | (with_reducible first | assumption | apply inv_ite | apply inv_ite1 | apply inv_foldl | apply inv_foldl1 | apply leaveFrame_inv | apply State.modCore_inv | apply modRunning_inv | apply raiseExc_inv | apply tellAlive_inv) | simp only [↓inv_mk] | simp only [↓inv_pair] | (with_reducible first | apply inv_P | apply invO_none | apply invO_some | apply invO_ite | (apply inv_of; assumption) | apply invOP_none | apply invOP_some | apply invOP_ite | (apply inv_of1; assumption) | (apply inv_of2; assumption) | (apply inv_fst; assumption)) | with_reducible intro _ | dsimp +zetaDelta only | split

theorem rtCall_inv (core n k : Nat) (own : Comm → Launch → Option (List Nat)) (live : Comm → Launch → List Nat → State → RtRes) (s : State) (h1 : ∀ (y0 : Comm) (y1 : Launch) (y2 : List Nat) (y3 : State), StateInv y3 → InvR (live y0 y1 y2 y3)) (h2 : StateInv s) :
    StateInv (rtCall core n k own live s) := by
  unfold rtCall; try dsimp only
  repeat' first | (with_reducible first | assumption | apply inv_ite | apply h1 | apply closeJournal_inv | apply modRunning_inv | apply rtBack_inv | apply tellAlive_inv) | simp only [↓inv_mk] | simp only [↓invR_done] | simp only [↓invR_stop] | simp only [↓invR_wait] | (with_reducible first | apply invR_ite | (apply inv_done; assumption) | (apply inv_stop; assumption) | (apply inv_wait; assumption)) | with_reducible intro _ | dsimp +zetaDelta only | split

theorem rtStepLive_inv (core : Nat) (u1 : Comm) (l : Launch) (a : List Nat) (s : State) (h1 : StateInv s) :
    InvR (rtStepLive core u1 l a s) := by
  unfold rtStepLive; try dsimp only
  repeat' first | (with_reducible first | assumption | apply inv_ite | apply endLaunch_inv | apply modRunning_inv | apply postStep_inv) | simp only [↓inv_mk] | simp only [↓invR_done] | simp only [↓invR_stop] | simp only [↓invR_wait] | (with_reducible first | apply invR_ite | (apply inv_done; assumption) | (apply inv_stop; assumption) | (apply inv_wait; assumption)) | with_reducible intro _ | dsimp +zetaDelta only | split

theorem doRtStep_inv (core : Nat) (s : State) (h1 : StateInv s) :
    StateInv (doRtStep core s) := by
  unfold doRtStep; try dsimp only
  repeat' first | (with_reducible first | assumption | apply inv_ite | apply rtCall_inv | apply rtStepLive_inv) | simp only [↓invR_done] | simp only [↓invR_stop] | simp only [↓invR_wait] | (with_reducible first | apply invR_ite | (apply inv_done; assumption) | (apply inv_stop; assumption) | (apply inv_wait; assumption)) | with_reducible intro _ | dsimp +zetaDelta only | split

theorem execRtStep_inv (core : Nat) (s : State) (h1 : StateInv s) :
    InvC (execRtStep core s) := by
  unfold execRtStep
  repeat' first | (with_reducible first | assumption | apply doRtStep_inv) | (with_reducible first | apply invC_next | apply invC_ite | apply invC_fault | (apply inv_ofC; assumption)) | with_reducible intro _

theorem rtReapLive_inv (core : Nat) (u1 : Comm) (l : Launch) (a : List Nat) (s : State) (h1 : StateInv s) :
    InvR (rtReapLive core u1 l a s) := by
  unfold rtReapLive; try dsimp only
  repeat' first | (with_reducible first | assumption | apply inv_ite | apply advanceTo_inv | apply endLaunch_inv | apply State.modCore_inv | apply modRunning_inv) | simp only [↓inv_mk] | simp only [↓invR_done] | simp only [↓invR_stop] | simp only [↓invR_wait] | (with_reducible first | apply invR_ite | (apply inv_done; assumption) | (apply inv_stop; assumption) | (apply inv_wait; assumption)) | with_reducible intro _ | dsimp +zetaDelta only | split

theorem doRtReap_inv (core : Nat) (s : State) (h1 : StateInv s) :
    StateInv (doRtReap core s) := by
  unfold doRtReap; try dsimp only
  repeat' first | (with_reducible first | assumption | apply inv_ite | apply rtCall_inv | apply rtReapLive_inv) | simp only [↓invR_done] | simp only [↓invR_stop] | simp only [↓invR_wait] | (with_reducible first | apply invR_ite | (apply inv_done; assumption) | (apply inv_stop; assumption) | (apply inv_wait; assumption)) | with_reducible intro _ | dsimp +zetaDelta only | split

theorem execRtReap_inv (core : Nat) (s : State) (h1 : StateInv s) :
    InvC (execRtReap core s) := by
  unfold execRtReap
  repeat' first | (with_reducible first | assumption | apply doRtReap_inv) | (with_reducible first | apply invC_next | apply invC_ite | apply invC_fault | (apply inv_ofC; assumption)) | with_reducible intro _

theorem rtPutLive_inv (core : Nat) (m : Comm) (l : Launch) (a : List Nat) (s : State) (h1 : StateInv s) :
    InvR (rtPutLive core m l a s) := by
  unfold rtPutLive; try dsimp only
  repeat' first | (with_reducible first | assumption | apply inv_ite | apply endLaunch_inv | apply State.modQp_inv | apply pumpSends_inv | apply touchCtx_inv) | simp only [↓inv_mk] | simp only [↓invR_done] | simp only [↓invR_stop] | simp only [↓invR_wait] | (with_reducible first | apply invR_ite | (apply inv_done; assumption) | (apply inv_stop; assumption) | (apply inv_wait; assumption)) | with_reducible intro _ | dsimp +zetaDelta only | split

theorem doRtPut_inv (core : Nat) (s : State) (h1 : StateInv s) :
    StateInv (doRtPut core s) := by
  unfold doRtPut; try dsimp only
  repeat' first | (with_reducible first | assumption | apply rtCall_inv | apply rtPutLive_inv) | simp only [↓invR_done] | simp only [↓invR_stop] | simp only [↓invR_wait] | (with_reducible first | apply invR_ite | (apply inv_done; assumption) | (apply inv_stop; assumption) | (apply inv_wait; assumption)) | with_reducible intro _ | dsimp +zetaDelta only | split

theorem execRtPut_inv (core : Nat) (s : State) (h1 : StateInv s) :
    InvC (execRtPut core s) := by
  unfold execRtPut
  repeat' first | (with_reducible first | assumption | apply doRtPut_inv) | (with_reducible first | apply invC_next | apply invC_ite | apply invC_fault | (apply inv_ofC; assumption)) | with_reducible intro _

theorem rtArrivedLive_inv (u0 : Nat) (m : Comm) (l : Launch) (a : List Nat) (s : State) (h1 : StateInv s) :
    InvR (rtArrivedLive u0 m l a s) := by
  unfold rtArrivedLive; try dsimp only
  repeat' first | (with_reducible first | assumption | apply inv_ite | apply advanceTo_inv) | simp only [↓invR_done] | simp only [↓invR_stop] | simp only [↓invR_wait] | (with_reducible first | apply invR_ite | (apply inv_done; assumption) | (apply inv_stop; assumption) | (apply inv_wait; assumption)) | with_reducible intro _ | dsimp +zetaDelta only | split

theorem doRtArrived_inv (core : Nat) (s : State) (h1 : StateInv s) :
    StateInv (doRtArrived core s) := by
  unfold doRtArrived; try dsimp only
  repeat' first | (with_reducible first | assumption | apply rtArrivedLive_inv | apply rtCall_inv) | simp only [↓invR_done] | simp only [↓invR_stop] | simp only [↓invR_wait] | (with_reducible first | apply invR_ite | (apply inv_done; assumption) | (apply inv_stop; assumption) | (apply inv_wait; assumption)) | with_reducible intro _ | dsimp +zetaDelta only | split

theorem execRtArrived_inv (core : Nat) (s : State) (h1 : StateInv s) :
    InvC (execRtArrived core s) := by
  unfold execRtArrived
  repeat' first | (with_reducible first | assumption | apply doRtArrived_inv) | (with_reducible first | apply invC_next | apply invC_ite | apply invC_fault | (apply inv_ofC; assumption)) | with_reducible intro _

theorem moveRead_inv (s : State) (src : Nat ⊕ (Nat × Nat × Nat)) (n : Nat) (ext : ARead) (h1 : StateInv s) :
    InvP (moveRead s src n ext) := by
  unfold moveRead
  repeat' first | (with_reducible first | assumption | apply inv_ite | apply inv_ite1 | apply bad_inv | apply engineRead_inv | apply engineRead__inv) | simp only [↓inv_pair] | (with_reducible first | apply inv_P | (apply inv_fst; assumption)) | with_reducible intro _ | dsimp +zetaDelta only | split

theorem moveWrite_inv (s : State) (dst : Nat ⊕ (Nat × Nat × Nat)) (bs : List Byte) (h1 : StateInv s) :
    InvP (moveWrite s dst bs) := by
  unfold moveWrite
  repeat' first | (with_reducible first | assumption | apply inv_ite | apply inv_ite1 | apply engineWrite_inv | apply engineWrites_inv) | simp only [↓inv_pair] | (with_reducible first | apply inv_P | (apply inv_fst; assumption)) | with_reducible intro _ | dsimp +zetaDelta only | split

theorem rtMoveLive_inv (u0 : Nat) (ext : ARead) (m : Comm) (u3 : Launch) (a : List Nat) (s : State) (h1 : StateInv s) :
    InvR (rtMoveLive u0 ext m u3 a s) := by
  unfold rtMoveLive; try dsimp only
  repeat' first | (with_reducible first | assumption | apply inv_ite | apply inv_ite1 | apply moveRead_inv | apply moveWrite_inv) | simp only [↓inv_pair] | simp only [↓invR_done] | simp only [↓invR_stop] | simp only [↓invR_wait] | (with_reducible first | apply invR_ite | (apply inv_done; assumption) | (apply inv_stop; assumption) | (apply inv_wait; assumption) | apply inv_P | (apply inv_fst; assumption)) | with_reducible intro _ | dsimp +zetaDelta only | split

theorem doRtMove_inv (core : Nat) (ext : ARead) (s : State) (h1 : StateInv s) :
    StateInv (doRtMove core ext s) := by
  unfold doRtMove; try dsimp only
  repeat' first | (with_reducible first | assumption | apply rtCall_inv | apply rtMoveLive_inv) | simp only [↓invR_done] | simp only [↓invR_stop] | simp only [↓invR_wait] | (with_reducible first | apply invR_ite | (apply inv_done; assumption) | (apply inv_stop; assumption) | (apply inv_wait; assumption)) | with_reducible intro _ | dsimp +zetaDelta only | split

theorem execRtMove_inv (core : Nat) (ext : ARead) (s : State) (h1 : StateInv s) :
    InvC (execRtMove core ext s) := by
  unfold execRtMove
  repeat' first | (with_reducible first | assumption | apply doRtMove_inv) | (with_reducible first | apply invC_next | apply invC_ite | apply invC_fault | (apply inv_ofC; assumption)) | with_reducible intro _

theorem notifyPorts_inv (l : Launch) (rec_ : Nat) (z0 : State) (z1 : Nat) (z2 : List Nat) (h1 : StateInv z0) :
    InvP (notifyPorts l rec_ z0 z1 z2) := by
  fun_induction notifyPorts l rec_ z0 z1 z2 <;> try dsimp +zetaDelta only
  all_goals repeat' first | (with_reducible first | assumption | apply inv_ite | apply inv_ite1 | apply engineWrites_inv) | simp only [↓inv_pair] | (with_reducible first | apply inv_P | (apply inv_fst; assumption)) | with_reducible apply_assumption -exfalso | with_reducible intro _ | dsimp +zetaDelta only | split

theorem rtNotifyLive_inv (core : Nat) (m : Comm) (l : Launch) (a : List Nat) (s : State) (h1 : StateInv s) :
    InvR (rtNotifyLive core m l a s) := by
  unfold rtNotifyLive
  repeat' first | (with_reducible first | assumption | apply inv_ite | apply inv_ite1 | apply endLaunch_inv | apply notifyPorts_inv) | simp only [↓inv_pair] | simp only [↓invR_done] | simp only [↓invR_stop] | simp only [↓invR_wait] | (with_reducible first | apply invR_ite | (apply inv_done; assumption) | (apply inv_stop; assumption) | (apply inv_wait; assumption) | apply inv_P | (apply inv_fst; assumption)) | with_reducible intro _ | dsimp +zetaDelta only | split

theorem doRtNotify_inv (core : Nat) (s : State) (h1 : StateInv s) :
    StateInv (doRtNotify core s) := by
  unfold doRtNotify; try dsimp only
  repeat' first | (with_reducible first | assumption | apply rtCall_inv | apply rtNotifyLive_inv) | simp only [↓invR_done] | simp only [↓invR_stop] | simp only [↓invR_wait] | (with_reducible first | apply invR_ite | (apply inv_done; assumption) | (apply inv_stop; assumption) | (apply inv_wait; assumption)) | with_reducible intro _ | dsimp +zetaDelta only | split

theorem execRtNotify_inv (core : Nat) (s : State) (h1 : StateInv s) :
    InvC (execRtNotify core s) := by
  unfold execRtNotify
  repeat' first | (with_reducible first | assumption | apply doRtNotify_inv) | (with_reducible first | apply invC_next | apply invC_ite | apply invC_fault | (apply inv_ofC; assumption)) | with_reducible intro _

theorem rtFinishLive_inv (core : Nat) (u1 : Comm) (u2 : Launch) (a : List Nat) (s : State) (h1 : StateInv s) :
    InvR (rtFinishLive core u1 u2 a s) := by
  unfold rtFinishLive; try dsimp only
  repeat' first | (with_reducible first | assumption | apply inv_ite | apply inv_foldl | apply endLaunch_inv | apply modRunning_inv) | simp only [↓invR_done] | simp only [↓invR_stop] | simp only [↓invR_wait] | (with_reducible first | apply invR_ite | (apply inv_done; assumption) | (apply inv_stop; assumption) | (apply inv_wait; assumption)) | with_reducible intro _ | dsimp +zetaDelta only | split

theorem doRtFinish_inv (core : Nat) (s : State) (h1 : StateInv s) :
    StateInv (doRtFinish core s) := by
  unfold doRtFinish; try dsimp only
  repeat' first | (with_reducible first | assumption | apply rtCall_inv | apply rtFinishLive_inv) | simp only [↓invR_done] | simp only [↓invR_stop] | simp only [↓invR_wait] | (with_reducible first | apply invR_ite | (apply inv_done; assumption) | (apply inv_stop; assumption) | (apply inv_wait; assumption)) | with_reducible intro _ | dsimp +zetaDelta only | split

theorem execRtFinish_inv (core : Nat) (s : State) (h1 : StateInv s) :
    InvC (execRtFinish core s) := by
  unfold execRtFinish
  repeat' first | (with_reducible first | assumption | apply doRtFinish_inv) | (with_reducible first | apply invC_next | apply invC_ite | apply invC_fault | (apply inv_ofC; assumption)) | with_reducible intro _

theorem doRtYield_inv (core : Nat) (s : State) (h1 : StateInv s) :
    StateInv (doRtYield core s) := by
  unfold doRtYield; try dsimp only
  repeat' first | (with_reducible first | assumption | apply rtCall_inv) | simp only [↓invR_done] | simp only [↓invR_stop] | simp only [↓invR_wait] | (with_reducible first | apply invR_ite | (apply inv_done; assumption) | (apply inv_stop; assumption) | (apply inv_wait; assumption)) | with_reducible intro _ | dsimp +zetaDelta only | split

theorem execRtYield_inv (core : Nat) (s : State) (h1 : StateInv s) :
    InvC (execRtYield core s) := by
  unfold execRtYield
  repeat' first | (with_reducible first | assumption | apply doRtYield_inv) | (with_reducible first | apply invC_next | apply invC_ite | apply invC_fault | (apply inv_ofC; assumption)) | with_reducible intro _

theorem writeSlot_inv (s : State) (slot : Nat) (code : List Byte) (h1 : StateInv s) :
    StateInv (writeSlot s slot code) := by
  unfold writeSlot; try dsimp only
  repeat' first | (with_reducible first | assumption | apply inv_foldl | apply State.modCore_inv) | simp only [↓inv_mk] | with_reducible intro _ | dsimp +zetaDelta only | split

theorem progDone_inv (s : State) (ref : DRef) (result : Nat) (h1 : StateInv s) :
    InvP (progDone s ref result) := by
  unfold progDone; try dsimp only
  repeat' first | (with_reducible first | assumption | apply inv_ite | apply inv_ite1 | apply later_inv | apply okR_inv) | simp only [↓inv_mk] | simp only [↓inv_pair] | (with_reducible first | apply inv_P | (apply inv_fst; assumption)) | with_reducible intro _ | dsimp +zetaDelta only | split

theorem progLoad_inv (r d : Nat) (ref : DRef) (read : HRead) (s : State) (h1 : StateInv s) :
    InvP (progLoad r d ref read s) := by
  unfold progLoad; try dsimp only
  repeat' first | (with_reducible first | assumption | apply inv_ite | apply inv_ite1 | apply audited_inv | apply bad_inv | apply progDone_inv | apply Rest.rd_inv | apply writeSlot_inv) | simp only [↓inv_mk] | simp only [↓inv_pair] | simp only [↓invX_mk] | simp only [↓invXP_pair] | (with_reducible first | apply invXP_ite | apply invXP_foldl | apply inv_XP | apply invX_ite | apply invX_foldl | apply invX_s | apply inv_P | (apply inv_fst; assumption)) | with_reducible intro _ | dsimp +zetaDelta only | split

theorem execProgLoad_inv (fn ring : Nat) (image : HRead) (s : State) (h1 : StateInv s) :
    InvC (execProgLoad fn ring image s) := by
  unfold execProgLoad; try dsimp only
  repeat' first | (with_reducible first | assumption | apply onDesc_inv | apply progLoad_inv) | simp only [↓inv_pair] | (with_reducible first | apply inv_P | apply invC_next | apply invC_ite | apply invC_fault | (apply inv_ofC; assumption) | (apply inv_fst; assumption)) | with_reducible intro _ | dsimp +zetaDelta only | split

theorem progUnload_inv (r d : Nat) (ref : DRef) (s : State) (h1 : StateInv s) :
    InvP (progUnload r d ref s) := by
  unfold progUnload; try dsimp only
  repeat' first | (with_reducible first | assumption | apply inv_ite | apply inv_ite1 | apply bad_inv | apply exclusive_inv | apply progDone_inv | apply writeSlot_inv) | simp only [↓inv_mk] | simp only [↓inv_pair] | (with_reducible first | apply inv_P | (apply inv_fst; assumption)) | with_reducible intro _ | dsimp +zetaDelta only | split

theorem execProgUnload_inv (fn ring : Nat) (s : State) (h1 : StateInv s) :
    InvC (execProgUnload fn ring s) := by
  unfold execProgUnload; try dsimp only
  repeat' first | (with_reducible first | assumption | apply inRankOrder_inv | apply onDesc_inv | apply progUnload_inv) | simp only [↓inv_pair] | (with_reducible first | apply inv_P | apply invC_next | apply invC_ite | apply invC_fault | (apply inv_ofC; assumption) | (apply inv_fst; assumption)) | with_reducible intro _ | dsimp +zetaDelta only | split

theorem commCreate_inv (r i d : Nat) (s : State) (h1 : StateInv s) :
    InvP (commCreate r i d s) := by
  unfold commCreate; try dsimp only
  repeat' first | (with_reducible first | assumption | apply inv_ite | apply inv_ite1 | apply bad_inv | apply connected_inv | apply exclusive_inv | apply State.modRdma_inv | apply okR_inv) | simp only [↓inv_mk] | simp only [↓inv_pair] | (with_reducible first | apply inv_P | (apply inv_fst; assumption)) | with_reducible intro _ | dsimp +zetaDelta only | split

theorem execCommCreate_inv (fn ring : Nat) (s : State) (h1 : StateInv s) :
    InvC (execCommCreate fn ring s) := by
  unfold execCommCreate; try dsimp only
  repeat' first | (with_reducible first | assumption | apply commCreate_inv | apply inRankOrder_inv | apply onDesc_inv) | simp only [↓inv_pair] | (with_reducible first | apply inv_P | apply invC_next | apply invC_ite | apply invC_fault | (apply inv_ofC; assumption) | (apply inv_fst; assumption)) | with_reducible intro _ | dsimp +zetaDelta only | split

theorem withComm_inv (s : State) (r i c : Nat) (act : Comm → CmdRes) (h1 : StateInv s) (h2 : ∀ (y0 : Comm), InvP (act y0)) :
    InvP (withComm s r i c act) := by
  unfold withComm
  repeat' first | (with_reducible first | assumption | apply inv_ite | apply inv_ite1 | apply h2 | apply bad_inv) | simp only [↓inv_pair] | (with_reducible first | apply inv_P | (apply inv_fst; assumption)) | with_reducible intro _ | dsimp +zetaDelta only | split

theorem commConnect_inv (r i d : Nat) (read : HRead) (s : State) (h1 : StateInv s) :
    InvP (commConnect r i d read s) := by
  unfold commConnect; try dsimp only
  repeat' first | (with_reducible first | assumption | apply inv_ite | apply inv_ite1 | apply bad_inv | apply bindQps_inv | apply connected_inv | apply ok0_inv | apply Rest.rd_inv | apply unbindMark_inv | apply withComm_inv) | simp only [↓inv_mk] | simp only [↓inv_pair] | simp only [↓invX_mk] | simp only [↓invXP_pair] | (with_reducible first | apply invXP_ite | apply invXP_foldl | apply inv_XP | apply invX_ite | apply invX_foldl | apply invX_s | apply inv_P | (apply inv_fst; assumption)) | with_reducible intro _ | dsimp +zetaDelta only | split

theorem execCommConnect_inv (fn ring : Nat) (peers : HRead) (s : State) (h1 : StateInv s) :
    InvC (execCommConnect fn ring peers s) := by
  unfold execCommConnect; try dsimp only
  repeat' first | (with_reducible first | assumption | apply commConnect_inv | apply onDesc_inv) | simp only [↓inv_pair] | (with_reducible first | apply inv_P | apply invC_next | apply invC_ite | apply invC_fault | (apply inv_ofC; assumption) | (apply inv_fst; assumption)) | with_reducible intro _ | dsimp +zetaDelta only | split

theorem dropComm_inv (s : State) (c : Nat) (m : Comm) (h1 : StateInv s) :
    StateInv (dropComm s c m) := by
  unfold dropComm; try dsimp only
  repeat' first | (with_reducible first | assumption | apply State.modRdma_inv | apply unbindMark_inv) | simp only [↓inv_mk] | with_reducible intro _ | dsimp +zetaDelta only | split

theorem commDestroy_inv (r i d : Nat) (s : State) (h1 : StateInv s) :
    InvP (commDestroy r i d s) := by
  unfold commDestroy; try dsimp only
  repeat' first | (with_reducible first | assumption | apply inv_ite | apply inv_ite1 | apply bad_inv | apply dropComm_inv | apply ok0_inv | apply withComm_inv) | simp only [↓inv_pair] | (with_reducible first | apply inv_P | (apply inv_fst; assumption)) | with_reducible intro _ | dsimp +zetaDelta only | split

theorem execCommDestroy_inv (fn ring : Nat) (s : State) (h1 : StateInv s) :
    InvC (execCommDestroy fn ring s) := by
  unfold execCommDestroy; try dsimp only
  repeat' first | (with_reducible first | assumption | apply commDestroy_inv | apply onDesc_inv) | simp only [↓inv_pair] | (with_reducible first | apply inv_P | apply invC_next | apply invC_ite | apply invC_fault | (apply inv_ofC; assumption) | (apply inv_fst; assumption)) | with_reducible intro _ | dsimp +zetaDelta only | split

theorem collLaunch_inv (r i d : Nat) (ref : DRef) (s : State) (h1 : StateInv s) :
    InvP (collLaunch r i d ref s) := by
  unfold collLaunch; try dsimp only
  repeat' first | (with_reducible first | assumption | apply inv_ite | apply inv_ite1 | apply bad_inv | apply connected_inv | apply later_inv | apply State.modCore_inv | apply withComm_inv) | simp only [↓inv_mk] | simp only [↓inv_pair] | (with_reducible first | apply inv_P | (apply inv_fst; assumption)) | with_reducible intro _ | dsimp +zetaDelta only | split

theorem execCollLaunch_inv (fn ring : Nat) (s : State) (h1 : StateInv s) :
    InvC (execCollLaunch fn ring s) := by
  unfold execCollLaunch; try dsimp only
  repeat' first | (with_reducible first | assumption | apply collLaunch_inv | apply onDesc_inv) | simp only [↓inv_pair] | (with_reducible first | apply inv_P | apply invC_next | apply invC_ite | apply invC_fault | (apply inv_ofC; assumption) | (apply inv_fst; assumption)) | with_reducible intro _ | dsimp +zetaDelta only | split

theorem doLaunchStart_inv (core : Nat) (s : State) (h1 : StateInv s) :
    StateInv (doLaunchStart core s) := by
  unfold doLaunchStart; try dsimp only
  repeat' first | (with_reducible first | assumption | apply inv_ite | apply endLaunch_inv | apply enterProgram_inv | apply loadData_inv | apply State.modCore_inv) | simp only [↓inv_mk] | with_reducible intro _ | dsimp +zetaDelta only | split

theorem execLaunchStart_inv (core : Nat) (s : State) (h1 : StateInv s) :
    InvC (execLaunchStart core s) := by
  unfold execLaunchStart
  repeat' first | (with_reducible first | assumption | apply doLaunchStart_inv) | (with_reducible first | apply invC_next | apply invC_ite | apply invC_fault | (apply inv_ofC; assumption)) | with_reducible intro _

theorem collAbort_inv (r i d : Nat) (ref : DRef) (s : State) (h1 : StateInv s) :
    InvP (collAbort r i d ref s) := by
  unfold collAbort; try dsimp only
  repeat' first | (with_reducible first | assumption | apply inv_ite | apply inv_ite1 | apply endLaunch_inv | apply endQueued_inv | apply finish_inv | apply later_inv | apply okR_inv | apply unorder_inv | apply withComm_inv) | simp only [↓inv_mk] | simp only [↓inv_pair] | (with_reducible first | apply inv_P | (apply inv_fst; assumption)) | with_reducible intro _ | dsimp +zetaDelta only | split

theorem execCollAbort_inv (fn ring : Nat) (s : State) (h1 : StateInv s) :
    InvC (execCollAbort fn ring s) := by
  unfold execCollAbort; try dsimp only
  repeat' first | (with_reducible first | assumption | apply collAbort_inv | apply onFetched_inv) | simp only [↓inv_pair] | (with_reducible first | apply inv_P | apply invC_next | apply invC_ite | apply invC_fault | (apply inv_ofC; assumption) | (apply inv_fst; assumption)) | with_reducible intro _ | dsimp +zetaDelta only | split

theorem doRetrainComplete_inv (n c : Nat) (trained : Bool) (s : State) (h1 : StateInv s) :
    StateInv (doRetrainComplete n c trained s) := by
  unfold doRetrainComplete; try dsimp only
  repeat' first | (with_reducible first | assumption | apply inv_ite | apply inv_foldl | apply State.modStk_inv | apply postEventS_inv | apply wakeStores_inv) | simp only [↓inv_mk] | with_reducible intro _ | dsimp +zetaDelta only | split

theorem execChannelRetrainComplete_inv (stack chan : Nat) (trained : Bool) (s : State) (h1 : StateInv s) :
    InvC (execChannelRetrainComplete stack chan trained s) := by
  unfold execChannelRetrainComplete; try dsimp only
  repeat' first | (with_reducible first | assumption | apply doRetrainComplete_inv) | (with_reducible first | apply invC_next | apply invC_ite | apply invC_fault | (apply inv_ofC; assumption)) | with_reducible intro _ | dsimp +zetaDelta only

theorem doCapWindow_inv (n : Nat) (s : State) (h1 : StateInv s) :
    StateInv (doCapWindow n s) := by
  unfold doCapWindow; try dsimp only
  repeat' first | (with_reducible first | assumption | apply advanceTo_inv | apply State.modStk_inv | apply wakeStores_inv) | simp only [↓inv_mk] | with_reducible intro _ | dsimp +zetaDelta only | split

theorem execMemCapWindow_inv (stack : Nat) (s : State) (h1 : StateInv s) :
    InvC (execMemCapWindow stack s) := by
  unfold execMemCapWindow
  repeat' first | (with_reducible first | assumption | apply doCapWindow_inv) | (with_reducible first | apply invC_next | apply invC_ite | apply invC_fault | (apply inv_ofC; assumption)) | with_reducible intro _

theorem endRetire_inv (s : State) (n : Nat) (h1 : StateInv s) :
    StateInv (endRetire s n) := by
  unfold endRetire; try dsimp only
  repeat' first | (with_reducible first | assumption | apply inv_ite | apply finish_inv | apply State.modStk_inv) | simp only [↓inv_mk] | with_reducible intro _ | dsimp +zetaDelta only | split

theorem startRetire_inv (s : State) (n g : Nat) (ref : DRef) (h1 : StateInv s) :
    StateInv (startRetire s n g ref) := by
  unfold startRetire; try dsimp only
  repeat' first | (with_reducible first | assumption | apply endRetire_inv | apply State.modStk_inv) | simp only [↓inv_mk] | with_reducible intro _ | dsimp +zetaDelta only | split

theorem retireGroup_inv (n g : Nat) (ref : DRef) (s : State) (h1 : StateInv s) :
    InvP (retireGroup n g ref s) := by
  unfold retireGroup; try dsimp only
  repeat' first | (with_reducible first | assumption | apply inv_ite | apply inv_ite1 | apply bad_inv | apply badR_inv | apply endRetire_inv | apply later_inv | apply State.modStk_inv | apply startRetire_inv) | simp only [↓inv_mk] | simp only [↓inv_pair] | (with_reducible first | apply inv_P | (apply inv_fst; assumption)) | with_reducible intro _ | dsimp +zetaDelta only | split

theorem groupRetire_inv (r d : Nat) (ref : DRef) (s : State) (h1 : StateInv s) :
    InvP (groupRetire r d ref s) := by
  unfold groupRetire
  repeat' first | (with_reducible first | assumption | apply exclusive_inv | apply retireGroup_inv) | simp only [↓inv_pair] | (with_reducible first | apply inv_P | (apply inv_fst; assumption)) | dsimp +zetaDelta only | split

theorem execGroupRetire_inv (fn ring : Nat) (s : State) (h1 : StateInv s) :
    InvC (execGroupRetire fn ring s) := by
  unfold execGroupRetire; try dsimp only
  repeat' first | (with_reducible first | assumption | apply groupRetire_inv | apply inRankOrder_inv | apply onDesc_inv) | simp only [↓inv_pair] | (with_reducible first | apply inv_P | apply invC_next | apply invC_ite | apply invC_fault | (apply inv_ofC; assumption) | (apply inv_fst; assumption)) | with_reducible intro _ | dsimp +zetaDelta only | split

theorem doFrameCopy_inv (n : Nat) (lines : List Nat) (s : State) (h1 : StateInv s) :
    StateInv (doFrameCopy n lines s) := by
  unfold doFrameCopy; try dsimp only
  repeat' first | (with_reducible first | assumption | apply inv_ite | apply endRetire_inv | apply finish_inv | apply State.modStk_inv | apply wakeStores_inv) | simp only [↓inv_mk] | with_reducible intro _ | dsimp +zetaDelta only | split

theorem execFrameCopyComplete_inv (stack : Nat) (lines : List Nat) (s : State) (h1 : StateInv s) :
    InvC (execFrameCopyComplete stack lines s) := by
  unfold execFrameCopyComplete
  repeat' first | (with_reducible first | assumption | apply doFrameCopy_inv) | (with_reducible first | apply invC_next | apply invC_ite | apply invC_fault | (apply inv_ofC; assumption)) | with_reducible intro _

theorem lostListRead_inv (r d : Nat) (s : State) (h1 : StateInv s) :
    InvP (lostListRead r d s) := by
  unfold lostListRead; try dsimp only
  repeat' first | (with_reducible first | assumption | apply inv_ite | apply inv_ite1 | apply bad_inv | apply hostWrite_inv | apply okR_inv) | simp only [↓inv_pair] | (with_reducible first | apply inv_P | (apply inv_fst; assumption)) | with_reducible intro _ | dsimp +zetaDelta only | split

theorem execLostListRead_inv (fn ring : Nat) (s : State) (h1 : StateInv s) :
    InvC (execLostListRead fn ring s) := by
  unfold execLostListRead; try dsimp only
  repeat' first | (with_reducible first | assumption | apply lostListRead_inv | apply onDesc_inv) | simp only [↓inv_pair] | (with_reducible first | apply inv_P | apply invC_next | apply invC_ite | apply invC_fault | (apply inv_ofC; assumption) | (apply inv_fst; assumption)) | with_reducible intro _ | dsimp +zetaDelta only | split

theorem State.modDom_inv (s : State) (d : Nat) (f : Dom → Dom) (h1 : StateInv s) :
    StateInv (State.modDom s d f) := by
  unfold State.modDom; try dsimp only
  repeat' first | (with_reducible first | assumption) | simp only [↓inv_mk] | dsimp +zetaDelta only | split

theorem State.modPow_inv (s : State) (f : Power → Power) (h1 : StateInv s) :
    StateInv (State.modPow s f) := by
  unfold State.modPow; try dsimp only
  repeat' first | (with_reducible first | assumption) | simp only [↓inv_mk] | dsimp +zetaDelta only | split

theorem postPd_inv (s : State) (code src result : Nat) (h1 : StateInv s) :
    StateInv (postPd s code src result) := by
  unfold postPd
  repeat' first | (with_reducible first | assumption | apply inv_ite | apply postAll_inv) | with_reducible intro _

theorem loadLimits_inv (s : State) (h1 : StateInv s) :
    StateInv (loadLimits s) := by
  unfold loadLimits; try dsimp only
  repeat' first | (with_reducible first | assumption | apply State.modPow_inv) | simp only [↓inv_mk] | with_reducible intro _ | dsimp +zetaDelta only | split

theorem setRail_inv (s : State) (rail p : Nat) (h1 : StateInv s) :
    StateInv (setRail s rail p) := by
  unfold setRail; try dsimp only
  repeat' first | (with_reducible first | assumption | apply State.modPow_inv) | simp only [↓inv_mk] | with_reducible intro _ | dsimp +zetaDelta only | split

theorem setRails_inv (s : State) (p : Nat) (h1 : StateInv s) :
    StateInv (setRails s p) := by
  unfold setRails
  repeat' first | (with_reducible first | assumption | apply setRail_inv)

theorem refuseEntry_inv (s : State) (d code wanted : Nat) (h1 : StateInv s) :
    StateInv (refuseEntry s d code wanted) := by
  unfold refuseEntry; try dsimp only
  repeat' first | (with_reducible first | assumption | apply State.modDom_inv | apply State.modPow_inv | apply postPd_inv | apply refused_inv) | simp only [↓inv_mk] | simp only [↓inv_pair] | (with_reducible first | apply inv_P | (apply inv_fst; assumption)) | with_reducible intro _ | dsimp +zetaDelta only | split

theorem refused_inv (s : State) (d code wanted : Nat) (h1 : StateInv s) :
    InvP (refused s d code wanted) := by
  unfold refused
  repeat' first | (with_reducible first | assumption | apply badR_inv | apply refuseEntry_inv) | simp only [↓inv_pair] | (with_reducible first | apply inv_P | (apply inv_fst; assumption)) | dsimp +zetaDelta only | split

theorem resetUnit_inv (s : State) (d : Nat) (h1 : StateInv s) :
    StateInv (resetUnit s d) := by
  unfold resetUnit; try dsimp only
  repeat' first | (with_reducible first | assumption | apply inv_foldl | apply State.modCtile_inv | apply State.modNetIf_inv | apply State.modNetPort_inv | apply State.modPort_inv | apply State.modRtile_inv | apply State.modStile_inv | apply State.modStk_inv | apply State.modSto_inv | apply State.modSum_inv) | simp only [↓inv_mk] | with_reducible intro _ | dsimp +zetaDelta only | split

theorem loseStack_inv (s : State) (n : Nat) (h1 : StateInv s) : StateInv (loseStack s n) := inv_stack h1 (filter_wf _ h1.1)

theorem endRetirement_inv (s : State) (n : Nat) (h1 : StateInv s) :
    StateInv (endRetirement s n) := by
  unfold endRetirement; try dsimp only
  repeat' first | (with_reducible first | assumption | apply inv_ite | apply finish_inv | apply State.modStk_inv) | simp only [↓inv_mk] | with_reducible intro _ | dsimp +zetaDelta only | split

theorem netDown_inv (s : State) (ps : List Nat) (h1 : StateInv s) :
    StateInv (netDown s ps) := by
  unfold netDown; try dsimp only
  repeat' first | (with_reducible first | assumption | apply inv_foldl | apply doLinkChange_inv | apply State.modNetPort_inv) | simp only [↓inv_mk] | with_reducible intro _ | dsimp +zetaDelta only | split

theorem dropFrames_inv (s : State) (ps : List Nat) (h1 : StateInv s) :
    StateInv (dropFrames s ps) := by
  unfold dropFrames; try dsimp only
  repeat' first | (with_reducible first | assumption | apply inv_foldl | apply finish_inv | apply State.modNetPort_inv) | simp only [↓inv_mk] | with_reducible intro _ | dsimp +zetaDelta only | split

theorem dropXpt_inv (s : State) (t : Nat) (h1 : StateInv s) :
    StateInv (dropXpt s t) := by
  unfold dropXpt; try dsimp only
  repeat' first | (with_reducible first | assumption | apply inv_ite | apply inv_foldl | apply finish_inv | apply State.modCtile_inv | apply State.modRtile_inv | apply qpError_inv) | simp only [↓inv_mk] | with_reducible intro _ | dsimp +zetaDelta only | split

theorem dropSto_inv (s : State) (t : Nat) (h1 : StateInv s) :
    StateInv (dropSto s t) := by
  unfold dropSto; try dsimp only
  repeat' first | (with_reducible first | assumption | apply inv_foldl | apply endNvm_inv | apply placeCtrl_inv) | with_reducible intro _ | dsimp +zetaDelta only | split

theorem dropWork_inv (s : State) (d : Nat) (h1 : StateInv s) :
    StateInv (dropWork s d) := by
  unfold dropWork; try dsimp only
  repeat' first | (with_reducible first | assumption | apply inv_ite | apply inv_foldl | apply act_inv | apply breakLocks_inv | apply cvAbortSum_inv | apply dropFrames_inv | apply dropSto_inv | apply dropXpt_inv | apply endRetirement_inv | apply failCtx_inv | apply failMove_inv | apply goShut_inv | apply holdAll_inv | apply loseStack_inv | apply State.modCore_inv | apply netDown_inv | apply repin_inv | apply settleProg_inv | apply settleSto_inv) | simp only [↓inv_mk] | with_reducible intro _ | dsimp +zetaDelta only | split

theorem endShutter_inv (s : State) (d target : Nat) (ref : Option DRef) (h1 : StateInv s) :
    StateInv (endShutter s d target ref) := by
  unfold endShutter; try dsimp only
  repeat' first | (with_reducible first | assumption | apply inv_ite | apply act_inv | apply finish_inv | apply loseStack_inv | apply State.modDom_inv | apply postPd_inv) | simp only [↓inv_mk] | with_reducible intro _ | dsimp +zetaDelta only | split

theorem startCores_inv (s : State) (t : Nat) (h1 : StateInv s) :
    StateInv (startCores s t) := by
  unfold startCores; try dsimp only
  repeat' first | (with_reducible first | assumption | apply inv_foldl | apply State.modCore_inv | apply unholdAll_inv) | simp only [↓inv_mk] | with_reducible intro _ | dsimp +zetaDelta only | split

theorem endReopen_inv (s : State) (d : Nat) (ref : Option DRef) (h1 : StateInv s) :
    StateInv (endReopen s d ref) := by
  unfold endReopen; try dsimp only
  repeat' first | (with_reducible first | assumption | apply inv_ite | apply act_inv | apply finish_inv | apply joinSteer_inv | apply State.modDom_inv | apply State.modStile_inv | apply postPd_inv | apply settleMode_inv | apply settleSto_inv | apply startCores_inv) | simp only [↓inv_mk] | with_reducible intro _ | dsimp +zetaDelta only | split

theorem abortEntry_inv (s : State) (d code : Nat) (a : DomAct) (h1 : StateInv s) :
    StateInv (abortEntry s d code a) := by
  unfold abortEntry; try dsimp only
  repeat' first | (with_reducible first | assumption | apply inv_ite | apply act_inv | apply finish_inv | apply State.modDom_inv | apply refuseEntry_inv) | simp only [↓inv_mk] | with_reducible intro _ | dsimp +zetaDelta only | split

theorem beginMove_inv (s : State) (d : Nat) (a : DomAct) (h1 : StateInv s) :
    StateInv (beginMove s d a) := by
  unfold beginMove; try dsimp only
  repeat' first | (with_reducible first | assumption | apply inv_ite | apply abortEntry_inv | apply act_inv | apply State.modDom_inv) | simp only [↓inv_mk] | with_reducible intro _ | dsimp +zetaDelta only | split

theorem closeTile_inv (s : State) (d : Nat) (a : DomAct) (h1 : StateInv s) :
    StateInv (closeTile s d a) := by
  unfold closeTile; try dsimp only
  repeat' first | (with_reducible first | assumption | apply inv_foldl | apply inv_foldl1 | apply act_inv | apply askDrain_inv | apply breakLocks_inv | apply cvAbortSum_inv | apply State.modCore_inv | apply State.modDom_inv | apply moveComms_inv | apply moveLaunches_inv | apply passRings_inv | apply repin_inv | apply replace_inv | apply settleProg_inv | apply settleSto_inv) | simp only [↓inv_mk] | simp only [↓inv_pair] | (with_reducible first | apply inv_P | (apply inv_fst; assumption)) | with_reducible intro _ | dsimp +zetaDelta only | split

theorem shutter_inv (s : State) (r d target : Nat) (ref : Option DRef) (h1 : StateInv s) :
    InvP (shutter s r d target ref) := by
  unfold shutter; try dsimp only
  repeat' first | (with_reducible first | assumption | apply inv_ite | apply inv_ite1 | apply act_inv | apply beginMove_inv | apply closeTile_inv | apply endShutter_inv | apply later_inv | apply refused_inv) | simp only [↓inv_mk] | simp only [↓inv_pair] | (with_reducible first | apply inv_P | (apply inv_fst; assumption)) | with_reducible intro _ | dsimp +zetaDelta only | split

theorem unitShutter_inv (r fs : Nat) (ref : DRef) (s : State) (h1 : StateInv s) :
    InvP (unitShutter r fs ref s) := by
  unfold unitShutter; try dsimp only
  repeat' first | (with_reducible first | assumption | apply inv_ite | apply inv_ite1 | apply act_inv | apply bad_inv | apply exclusive_inv | apply later_inv | apply State.modDom_inv | apply shutter_inv) | simp only [↓inv_mk] | simp only [↓inv_pair] | (with_reducible first | apply inv_P | (apply inv_fst; assumption)) | with_reducible intro _ | dsimp +zetaDelta only | split

theorem execUnitShutter_inv (fn ring : Nat) (s : State) (h1 : StateInv s) :
    InvC (execUnitShutter fn ring s) := by
  unfold execUnitShutter; try dsimp only
  repeat' first | (with_reducible first | assumption | apply inRankOrder_inv | apply onDesc_inv | apply unitShutter_inv) | simp only [↓inv_pair] | (with_reducible first | apply inv_P | apply invC_next | apply invC_ite | apply invC_fault | (apply inv_ofC; assumption) | (apply inv_fst; assumption)) | with_reducible intro _ | dsimp +zetaDelta only | split

theorem runWaiting_inv (s : State) (d : Nat) (h1 : StateInv s) :
    StateInv (runWaiting s d) := by
  unfold runWaiting; try dsimp only
  repeat' first | (with_reducible first | assumption | apply inv_foldl | apply inv_foldl1 | apply finish_inv | apply State.modDom_inv | apply shutter_inv) | simp only [↓inv_mk] | simp only [↓inv_pair] | (with_reducible first | apply inv_P | (apply inv_fst; assumption)) | with_reducible intro _ | dsimp +zetaDelta only | split

theorem unclose_inv (s : State) (d : Nat) (a : DomAct) (h1 : StateInv s) :
    StateInv (unclose s d a) := by
  unfold unclose; try dsimp only
  repeat' first | (with_reducible first | assumption | apply inv_ite | apply inv_foldl | apply act_inv | apply finish_inv | apply joinSteer_inv | apply keeperWord_inv | apply State.modCore_inv | apply State.modDom_inv | apply settleSto_inv) | simp only [↓inv_mk] | with_reducible intro _ | dsimp +zetaDelta only | split

theorem unitReopen_inv (r fs temp : Nat) (ref : DRef) (s : State) (h1 : StateInv s) :
    InvP (unitReopen r fs temp ref s) := by
  unfold unitReopen; try dsimp only
  repeat' first | (with_reducible first | assumption | apply inv_ite | apply inv_ite1 | apply act_inv | apply bad_inv | apply beginMove_inv | apply exclusive_inv | apply later_inv | apply okR_inv | apply refused_inv | apply unclose_inv) | simp only [↓inv_mk] | simp only [↓inv_pair] | (with_reducible first | apply inv_P | (apply inv_fst; assumption)) | with_reducible intro _ | dsimp +zetaDelta only | split

theorem execUnitReopen_inv (fn ring temp : Nat) (s : State) (h1 : StateInv s) :
    InvC (execUnitReopen fn ring temp s) := by
  unfold execUnitReopen; try dsimp only
  repeat' first | (with_reducible first | assumption | apply inRankOrder_inv | apply onDesc_inv | apply unitReopen_inv) | simp only [↓inv_pair] | (with_reducible first | apply inv_P | apply invC_next | apply invC_ite | apply invC_fault | (apply inv_ofC; assumption) | (apply inv_fst; assumption)) | with_reducible intro _ | dsimp +zetaDelta only | split

theorem doDrainComplete_inv (d : Nat) (s : State) (h1 : StateInv s) :
    StateInv (doDrainComplete d s) := by
  unfold doDrainComplete
  repeat' first | (with_reducible first | assumption | apply inv_ite | apply act_inv | apply beginMove_inv) | with_reducible intro _ | split

theorem execShutterDrainComplete_inv (domain : Nat) (s : State) (h1 : StateInv s) :
    InvC (execShutterDrainComplete domain s) := by
  unfold execShutterDrainComplete; try dsimp only
  repeat' first | (with_reducible first | assumption | apply doDrainComplete_inv) | (with_reducible first | apply invC_next | apply invC_ite | apply invC_fault | (apply inv_ofC; assumption)) | with_reducible intro _ | dsimp +zetaDelta only

theorem doHandoffBound_inv (d : Nat) (s : State) (h1 : StateInv s) :
    StateInv (doHandoffBound d s) := by
  unfold doHandoffBound; try dsimp only
  repeat' first | (with_reducible first | assumption | apply inv_ite | apply inv_foldl | apply abortEntry_inv | apply act_inv | apply advanceTo_inv | apply keeperWord_inv | apply State.modCore_inv) | simp only [↓inv_mk] | with_reducible intro _ | dsimp +zetaDelta only | split

theorem execCtlHandoffTimeout_inv (domain : Nat) (s : State) (h1 : StateInv s) :
    InvC (execCtlHandoffTimeout domain s) := by
  unfold execCtlHandoffTimeout
  repeat' first | (with_reducible first | assumption | apply doHandoffBound_inv) | (with_reducible first | apply invC_next | apply invC_ite | apply invC_fault | (apply inv_ofC; assumption)) | with_reducible intro _

theorem beginTest_inv (s : State) (d : Nat) (a : DomAct) (h1 : StateInv s) :
    StateInv (beginTest s d a) := by
  unfold beginTest; try dsimp only
  repeat' first | (with_reducible first | assumption | apply inv_ite | apply act_inv | apply State.modDom_inv | apply settleMode_inv) | simp only [↓inv_mk] | with_reducible intro _ | dsimp +zetaDelta only | split

theorem afterShutter_inv (s : State) (d : Nat) (h1 : StateInv s) :
    StateInv (afterShutter s d) := by
  unfold afterShutter; try dsimp only
  repeat' first | (with_reducible first | assumption | apply inv_ite | apply beginMove_inv) | simp only [↓inv_mk] | with_reducible intro _ | dsimp +zetaDelta only | split

theorem doTransition_inv (d : Nat) (s : State) (h1 : StateInv s) :
    StateInv (doTransition d s) := by
  unfold doTransition; try dsimp only
  repeat' first | (with_reducible first | assumption | apply inv_ite | apply act_inv | apply advanceTo_inv | apply afterShutter_inv | apply beginTest_inv | apply endReopen_inv | apply endShutter_inv | apply resetUnit_inv | apply runWaiting_inv) | with_reducible intro _ | dsimp +zetaDelta only | split

theorem execDomainTransitionComplete_inv (domain : Nat) (s : State) (h1 : StateInv s) :
    InvC (execDomainTransitionComplete domain s) := by
  unfold execDomainTransitionComplete
  repeat' first | (with_reducible first | assumption | apply doTransition_inv) | (with_reducible first | apply invC_next | apply invC_ite | apply invC_fault | (apply inv_ofC; assumption)) | with_reducible intro _

theorem doSelfTest_inv (d failed : Nat) (s : State) (h1 : StateInv s) :
    StateInv (doSelfTest d failed s) := by
  unfold doSelfTest; try dsimp only
  repeat' first | (with_reducible first | assumption | apply inv_ite | apply act_inv | apply endReopen_inv | apply finish_inv | apply State.modDom_inv | apply State.modStile_inv | apply postAll_inv | apply postPd_inv | apply runWaiting_inv | apply settleMode_inv) | simp only [↓inv_mk] | with_reducible intro _ | dsimp +zetaDelta only | split

theorem execSelfTestComplete_inv (domain failed : Nat) (s : State) (h1 : StateInv s) :
    InvC (execSelfTestComplete domain failed s) := by
  unfold execSelfTestComplete
  repeat' first | (with_reducible first | assumption | apply doSelfTest_inv) | (with_reducible first | apply invC_next | apply invC_ite | apply invC_fault | (apply inv_ofC; assumption)) | with_reducible intro _

theorem doSealFault_inv (t : Nat) (s : State) (h1 : StateInv s) :
    StateInv (doSealFault t s) := by
  unfold doSealFault; try dsimp only
  repeat' first | (with_reducible first | assumption | apply inv_ite | apply closeTile_inv | apply State.modStile_inv | apply refuseEntry_inv) | simp only [↓inv_mk] | with_reducible intro _ | dsimp +zetaDelta only | split

theorem execSealTileFault_inv (tile8 : Nat) (s : State) (h1 : StateInv s) :
    InvC (execSealTileFault tile8 s) := by
  unfold execSealTileFault
  repeat' first | (with_reducible first | assumption | apply doSealFault_inv) | (with_reducible first | apply invC_next | apply invC_ite | apply invC_fault | (apply inv_ofC; assumption)) | with_reducible intro _

theorem cutDomain_inv (s : State) (d code : Nat) (forced : Bool) (h1 : StateInv s) :
    StateInv (cutDomain s d code forced) := by
  unfold cutDomain; try dsimp only
  repeat' first | (with_reducible first | assumption | apply inv_ite | apply act_inv | apply dropWork_inv | apply finish_inv | apply State.modDom_inv | apply postPd_inv | apply refuseEntry_inv | apply runWaiting_inv | apply settleMode_inv) | simp only [↓inv_mk] | with_reducible intro _ | dsimp +zetaDelta only | split

theorem forceOff_inv (s : State) (d code : Nat) (h1 : StateInv s) :
    StateInv (forceOff s d code) := by
  unfold forceOff
  repeat' first | (with_reducible first | assumption | apply cutDomain_inv)

theorem doRailFault_inv (rail status : Nat) (s : State) (h1 : StateInv s) :
    StateInv (doRailFault rail status s) := by
  unfold doRailFault; try dsimp only
  repeat' first | (with_reducible first | assumption | apply inv_ite | apply inv_foldl | apply forceOff_inv | apply State.modPow_inv | apply postPd_inv) | simp only [↓inv_mk] | with_reducible intro _ | dsimp +zetaDelta only | split

theorem execRailFault_inv (rail : Nat) (status : BitVec 16) (s : State) (h1 : StateInv s) :
    InvC (execRailFault rail status s) := by
  unfold execRailFault
  repeat' first | (with_reducible first | assumption | apply doRailFault_inv) | (with_reducible first | apply invC_next | apply invC_ite | apply invC_fault | (apply inv_ofC; assumption)) | with_reducible intro _

theorem execBusOvercurrent_inv (status : BitVec 16) (s : State) (h1 : StateInv s) :
    InvC (execBusOvercurrent status s) := by
  unfold execBusOvercurrent
  repeat' first | (with_reducible first | assumption | apply doRailFault_inv) | (with_reducible first | apply invC_next | apply invC_ite | apply invC_fault | (apply inv_ofC; assumption)) | with_reducible intro _

theorem doSensorFault_inv (kind which : Nat) (s : State) (h1 : StateInv s) :
    StateInv (doSensorFault kind which s) := by
  unfold doSensorFault; try dsimp only
  repeat' first | (with_reducible first | assumption | apply inv_ite | apply inv_foldl | apply abortEntry_inv | apply act_inv | apply State.modPow_inv | apply postPd_inv) | simp only [↓inv_mk] | with_reducible intro _ | dsimp +zetaDelta only | split

theorem execSensorFault_inv (kind which : Nat) (s : State) (h1 : StateInv s) :
    InvC (execSensorFault kind which s) := by
  unfold execSensorFault
  repeat' first | (with_reducible first | assumption | apply doSensorFault_inv) | (with_reducible first | apply invC_next | apply invC_ite | apply invC_fault | (apply inv_ofC; assumption)) | with_reducible intro _

theorem doBusRecovery_inv (ok : Bool) (s : State) (h1 : StateInv s) :
    StateInv (doBusRecovery ok s) := by
  unfold doBusRecovery; try dsimp only
  repeat' first | (with_reducible first | assumption | apply inv_ite | apply advanceTo_inv | apply State.modPow_inv) | simp only [↓inv_mk] | with_reducible intro _ | dsimp +zetaDelta only | split

theorem execBusRecovery_inv (ok : Bool) (s : State) (h1 : StateInv s) :
    InvC (execBusRecovery ok s) := by
  unfold execBusRecovery
  repeat' first | (with_reducible first | assumption | apply doBusRecovery_inv) | (with_reducible first | apply invC_next | apply invC_ite | apply invC_fault | (apply inv_ofC; assumption)) | with_reducible intro _

theorem beginChange_inv (s : State) (target reason : Nat) (h1 : StateInv s) :
    StateInv (beginChange s target reason) := by
  unfold beginChange; try dsimp only
  repeat' first | (with_reducible first | assumption | apply inv_ite | apply State.modPow_inv) | simp only [↓inv_mk] | with_reducible intro _ | dsimp +zetaDelta only | split

theorem nextChange_inv (s : State) (h1 : StateInv s) :
    StateInv (nextChange s) := by
  unfold nextChange; try dsimp only
  repeat' first | (with_reducible first | assumption | apply inv_ite | apply beginChange_inv | apply State.modPow_inv) | simp only [↓inv_mk] | with_reducible intro _ | dsimp +zetaDelta only | split

theorem profileIs_inv (s : State) (target reason : Nat) (h1 : StateInv s) :
    StateInv (profileIs s target reason) := by
  unfold profileIs; try dsimp only
  repeat' first | (with_reducible first | assumption | apply State.modPow_inv | apply postPd_inv) | simp only [↓inv_mk] | with_reducible intro _ | dsimp +zetaDelta only | split

theorem endChange_inv (s : State) (target reason : Nat) (h1 : StateInv s) :
    StateInv (endChange s target reason) := by
  unfold endChange
  repeat' first | (with_reducible first | assumption | apply nextChange_inv | apply profileIs_inv)

theorem tickProfile_inv (s : State) (h1 : StateInv s) :
    StateInv (tickProfile s) := by
  unfold tickProfile; try dsimp only
  repeat' first | (with_reducible first | assumption | apply endChange_inv | apply State.modPow_inv) | simp only [↓inv_mk] | with_reducible intro _ | dsimp +zetaDelta only | split

theorem setProfile_inv (v : Nat) (s : State) (h1 : StateInv s) :
    StateInv (setProfile v s) := by
  unfold setProfile; try dsimp only
  repeat' first | (with_reducible first | assumption | apply inv_ite | apply State.modPow_inv | apply nextChange_inv) | simp only [↓inv_mk] | with_reducible intro _ | dsimp +zetaDelta only | split

theorem setEnvelope_inv (v : Nat) (s : State) (h1 : StateInv s) :
    StateInv (setEnvelope v s) := by
  unfold setEnvelope; try dsimp only
  repeat' first | (with_reducible first | assumption | apply inv_ite | apply State.modPow_inv) | simp only [↓inv_mk] | with_reducible intro _ | dsimp +zetaDelta only | split

theorem setRetainMask_inv (d v : Nat) (s : State) (h1 : StateInv s) :
    StateInv (setRetainMask d v s) := by
  unfold setRetainMask; try dsimp only
  repeat' first | (with_reducible first | assumption | apply inv_ite | apply State.modDom_inv) | simp only [↓inv_mk] | with_reducible intro _ | dsimp +zetaDelta only | split

theorem ackChange_inv (s : State) (rail : Nat) (h1 : StateInv s) :
    StateInv (ackChange s rail) := by
  unfold ackChange; try dsimp only
  repeat' first | (with_reducible first | assumption | apply inv_ite | apply endChange_inv | apply State.modPow_inv | apply setRail_inv) | simp only [↓inv_mk] | with_reducible intro _ | dsimp +zetaDelta only | split

theorem doAck_inv (rail : Nat) (s : State) (h1 : StateInv s) :
    StateInv (doAck rail s) := by
  unfold doAck; try dsimp only
  repeat' first | (with_reducible first | assumption | apply inv_ite | apply inv_foldl | apply ackChange_inv | apply act_inv | apply State.modDom_inv | apply State.modPow_inv | apply setRail_inv) | simp only [↓inv_mk] | with_reducible intro _ | dsimp +zetaDelta only | split

theorem execRegulatorAck_inv (rail : Nat) (s : State) (h1 : StateInv s) :
    InvC (execRegulatorAck rail s) := by
  unfold execRegulatorAck
  repeat' first | (with_reducible first | assumption | apply doAck_inv) | (with_reducible first | apply invC_next | apply invC_ite | apply invC_fault | (apply inv_ofC; assumption)) | with_reducible intro _

theorem missAck_inv (s : State) (h1 : StateInv s) :
    StateInv (missAck s) := by
  unfold missAck; try dsimp only
  repeat' first | (with_reducible first | assumption | apply State.modPow_inv | apply refused_inv) | simp only [↓inv_mk] | simp only [↓inv_pair] | (with_reducible first | apply inv_P | (apply inv_fst; assumption)) | with_reducible intro _ | dsimp +zetaDelta only | split

theorem doAckTimeout16_inv (rail : Nat) (s : State) (h1 : StateInv s) :
    StateInv (doAckTimeout16 rail s) := by
  unfold doAckTimeout16; try dsimp only
  repeat' first | (with_reducible first | assumption | apply inv_ite | apply inv_foldl | apply abortEntry_inv | apply advanceTo_inv | apply endChange_inv | apply missAck_inv | apply State.modPow_inv | apply nextChange_inv | apply setRails_inv) | simp only [↓inv_mk] | with_reducible intro _ | dsimp +zetaDelta only | split

theorem execRegulatorAckTimeout_inv (rail : Nat) (s : State) (h1 : StateInv s) :
    InvC (execRegulatorAckTimeout rail s) := by
  unfold execRegulatorAckTimeout
  repeat' first | (with_reducible first | assumption | apply doAckTimeout16_inv) | (with_reducible first | apply invC_next | apply invC_ite | apply invC_fault | (apply inv_ofC; assumption)) | with_reducible intro _

theorem doSettled_inv (s : State) (h1 : StateInv s) :
    StateInv (doSettled s) := by
  unfold doSettled; try dsimp only
  repeat' first | (with_reducible first | assumption | apply inv_ite | apply State.modPow_inv) | simp only [↓inv_mk] | with_reducible intro _ | dsimp +zetaDelta only | split

theorem execRailsSettled_inv (s : State) (h1 : StateInv s) :
    InvC (execRailsSettled s) := by
  unfold execRailsSettled
  repeat' first | (with_reducible first | assumption | apply doSettled_inv) | (with_reducible first | apply invC_next | apply invC_ite | apply invC_fault | (apply inv_ofC; assumption)) | with_reducible intro _

theorem doRetry_inv (s : State) (h1 : StateInv s) :
    StateInv (doRetry s) := by
  unfold doRetry; try dsimp only
  repeat' first | (with_reducible first | assumption | apply advanceTo_inv | apply State.modPow_inv) | simp only [↓inv_mk] | with_reducible intro _ | dsimp +zetaDelta only | split

theorem execVoltageRetry_inv (s : State) (h1 : StateInv s) :
    InvC (execVoltageRetry s) := by
  unfold execVoltageRetry
  repeat' first | (with_reducible first | assumption | apply doRetry_inv) | (with_reducible first | apply invC_next | apply invC_ite | apply invC_fault | (apply inv_ofC; assumption)) | with_reducible intro _

theorem autoLower_inv (s : State) (reason : Nat) (h1 : StateInv s) :
    StateInv (autoLower s reason) := by
  unfold autoLower; try dsimp only
  repeat' first | (with_reducible first | assumption | apply inv_ite | apply beginChange_inv | apply State.modPow_inv) | simp only [↓inv_mk] | with_reducible intro _ | dsimp +zetaDelta only | split

theorem doExceeded_inv (watts : Nat) (s : State) (h1 : StateInv s) :
    StateInv (doExceeded watts s) := by
  unfold doExceeded; try dsimp only
  repeat' first | (with_reducible first | assumption | apply inv_ite | apply advanceTo_inv | apply autoLower_inv | apply State.modPow_inv | apply postPd_inv) | simp only [↓inv_mk] | with_reducible intro _ | dsimp +zetaDelta only | split

theorem execEnvelopeExceeded_inv (watts : Nat) (s : State) (h1 : StateInv s) :
    InvC (execEnvelopeExceeded watts s) := by
  unfold execEnvelopeExceeded
  repeat' first | (with_reducible first | assumption | apply doExceeded_inv) | (with_reducible first | apply invC_next | apply invC_ite | apply invC_fault | (apply inv_ofC; assumption)) | with_reducible intro _

theorem autoRaise_inv (s : State) (reason : Nat) (h1 : StateInv s) :
    StateInv (autoRaise s reason) := by
  unfold autoRaise; try dsimp only
  repeat' first | (with_reducible first | assumption | apply inv_ite | apply beginChange_inv) | with_reducible intro _ | dsimp +zetaDelta only

theorem doEnvRaise_inv (watts : Nat) (s : State) (h1 : StateInv s) :
    StateInv (doEnvRaise watts s) := by
  unfold doEnvRaise
  repeat' first | (with_reducible first | assumption | apply inv_ite | apply autoRaise_inv) | with_reducible intro _

theorem execEnvelopeRaise_inv (watts : Nat) (s : State) (h1 : StateInv s) :
    InvC (execEnvelopeRaise watts s) := by
  unfold execEnvelopeRaise
  repeat' first | (with_reducible first | assumption | apply doEnvRaise_inv) | (with_reducible first | apply invC_next | apply invC_ite | apply invC_fault | (apply inv_ofC; assumption)) | with_reducible intro _

theorem doNear_inv (d temp : Nat) (s : State) (h1 : StateInv s) :
    StateInv (doNear d temp s) := by
  unfold doNear; try dsimp only
  repeat' first | (with_reducible first | assumption | apply inv_ite | apply advanceTo_inv | apply autoLower_inv | apply State.modPow_inv) | simp only [↓inv_mk] | with_reducible intro _ | dsimp +zetaDelta only | split

theorem execThermalNearLimit_inv (domain temp : Nat) (s : State) (h1 : StateInv s) :
    InvC (execThermalNearLimit domain temp s) := by
  unfold execThermalNearLimit
  repeat' first | (with_reducible first | assumption | apply doNear_inv) | (with_reducible first | apply invC_next | apply invC_ite | apply invC_fault | (apply inv_ofC; assumption)) | with_reducible intro _

theorem execThermalRaise_inv (s : State) (h1 : StateInv s) :
    InvC (execThermalRaise s) := by
  unfold execThermalRaise; try dsimp only
  repeat' first | (with_reducible first | assumption | apply autoRaise_inv | apply State.modPow_inv) | simp only [↓inv_mk] | (with_reducible first | apply invC_next | apply invC_ite | apply invC_fault | (apply inv_ofC; assumption)) | with_reducible intro _ | dsimp +zetaDelta only | split

theorem doLimit_inv (d temp : Nat) (s : State) (h1 : StateInv s) :
    StateInv (doLimit d temp s) := by
  unfold doLimit; try dsimp only
  repeat' first | (with_reducible first | assumption | apply inv_ite | apply State.modDom_inv | apply postPd_inv) | simp only [↓inv_mk] | with_reducible intro _ | dsimp +zetaDelta only | split

theorem execThermalLimit_inv (domain temp : Nat) (s : State) (h1 : StateInv s) :
    InvC (execThermalLimit domain temp s) := by
  unfold execThermalLimit
  repeat' first | (with_reducible first | assumption | apply doLimit_inv) | (with_reducible first | apply invC_next | apply invC_ite | apply invC_fault | (apply inv_ofC; assumption)) | with_reducible intro _

theorem doTrip_inv (d : Nat) (s : State) (h1 : StateInv s) :
    StateInv (doTrip d s) := by
  unfold doTrip
  repeat' first | (with_reducible first | assumption | apply inv_ite | apply advanceTo_inv | apply forceOff_inv) | with_reducible intro _

theorem execThermalTrip_inv (domain : Nat) (s : State) (h1 : StateInv s) :
    InvC (execThermalTrip domain s) := by
  unfold execThermalTrip
  repeat' first | (with_reducible first | assumption | apply doTrip_inv) | (with_reducible first | apply invC_next | apply invC_ite | apply invC_fault | (apply inv_ofC; assumption)) | with_reducible intro _

theorem execThermalCooled_inv (domain : Nat) (s : State) (h1 : StateInv s) :
    InvC (execThermalCooled domain s) := by
  unfold execThermalCooled; try dsimp only
  repeat' first | (with_reducible first | assumption | apply State.modDom_inv) | simp only [↓inv_mk] | (with_reducible first | apply invC_next | apply invC_ite | apply invC_fault | (apply inv_ofC; assumption)) | with_reducible intro _ | dsimp +zetaDelta only | split

theorem doOverrun_inv (bit : Nat) (op : DRef) (s : State) (h1 : StateInv s) :
    StateInv (doOverrun bit op s) := by
  unfold doOverrun; try dsimp only
  repeat' first | (with_reducible first | assumption | apply inv_ite | apply finish_inv | apply State.modPow_inv | apply postPd_inv) | simp only [↓inv_mk] | with_reducible intro _ | dsimp +zetaDelta only | split

theorem execCdcOverrun_inv (bit fn ring seq : Nat) (s : State) (h1 : StateInv s) :
    InvC (execCdcOverrun bit fn ring seq s) := by
  unfold execCdcOverrun; try dsimp only
  repeat' first | (with_reducible first | assumption | apply doOverrun_inv) | simp only [↓inv_mk] | (with_reducible first | apply invC_next | apply invC_ite | apply invC_fault | (apply inv_ofC; assumption)) | with_reducible intro _ | dsimp +zetaDelta only | split

theorem doLaserOut_inv (n : Nat) (s : State) (h1 : StateInv s) :
    StateInv (doLaserOut n s) := by
  unfold doLaserOut; try dsimp only
  repeat' first | (with_reducible first | assumption | apply inv_ite | apply forceOff_inv | apply State.modPow_inv) | simp only [↓inv_mk] | with_reducible intro _ | dsimp +zetaDelta only | split

theorem execLaserUnitRemove_inv (laser : Nat) (s : State) (h1 : StateInv s) :
    InvC (execLaserUnitRemove laser s) := by
  unfold execLaserUnitRemove
  repeat' first | (with_reducible first | assumption | apply doLaserOut_inv) | (with_reducible first | apply invC_next | apply invC_ite | apply invC_fault | (apply inv_ofC; assumption)) | with_reducible intro _

theorem execLaserUnitInsert_inv (laser : Nat) (s : State) (h1 : StateInv s) :
    InvC (execLaserUnitInsert laser s) := by
  unfold execLaserUnitInsert; try dsimp only
  repeat' first | (with_reducible first | assumption | apply State.modPow_inv) | simp only [↓inv_mk] | (with_reducible first | apply invC_next | apply invC_ite | apply invC_fault | (apply inv_ofC; assumption)) | with_reducible intro _ | dsimp +zetaDelta only | split

theorem configWrite_inv (r : Nat) (act : State → State) (s : State) (h1 : ∀ (y0 : State), StateInv y0 → StateInv (act y0)) (h2 : StateInv s) :
    StateInv (configWrite r act s) := by
  unfold configWrite
  repeat' first | (with_reducible first | assumption | apply inv_ite | apply h1) | with_reducible intro _

theorem Rest.fail_inv (x : Rest) (st : Nat) (h1 : InvX x) :
    InvX (Rest.fail x st) := by
  unfold Rest.fail; try dsimp only
  repeat' first | (with_reducible first | assumption) | simp only [↓inv_mk] | simp only [↓invX_mk] | simp only [↓invXP_pair] | (with_reducible first | apply invXP_ite | apply invXP_foldl | apply inv_XP | apply invX_ite | apply invX_foldl | apply invX_s) | with_reducible intro _ | dsimp +zetaDelta only | split

theorem Rest.go_inv (x : Rest) (f : Rest → Rest) (h1 : InvX x) (h2 : ∀ (y0 : Rest), InvX y0 → InvX (f y0)) :
    InvX (Rest.go x f) := by
  unfold Rest.go
  repeat' first | (with_reducible first | assumption | apply inv_ite | apply h2) | simp only [↓invX_mk] | simp only [↓invXP_pair] | (with_reducible first | apply invXP_ite | apply invXP_foldl | apply inv_XP | apply invX_ite | apply invX_foldl | apply invX_s) | with_reducible intro _ | dsimp +zetaDelta only | split

theorem Rest.rd_inv (x : Rest) (p : Rd) (h1 : InvX x) (h2 : InvP p) :
    InvX (Rest.rd x p) := by
  unfold Rest.rd; try dsimp only
  repeat' first | (with_reducible first | assumption) | simp only [↓inv_mk] | simp only [↓inv_pair] | simp only [↓invQ_pair] | simp only [↓invX_mk] | simp only [↓invXP_pair] | (with_reducible first | apply inv_Q | apply invQ_ite | (apply inv_ofQ; assumption) | apply invXP_ite | apply invXP_foldl | apply inv_XP | apply invX_ite | apply invX_foldl | apply invX_s | apply inv_P | (apply inv_fst; assumption)) | with_reducible intro _ | dsimp +zetaDelta only | split

theorem restRuns_inv (j : CkJob) (st : CkStore) (us : List (Nat × Nat)) (x : Rest) (h1 : InvX x) :
    InvXP (restRuns j st us x) := by
  unfold restRuns; try dsimp only
  repeat' first | (with_reducible first | assumption | apply inv_ite | apply inv_ite1 | apply inv_foldl | apply inv_foldl1 | apply Rest.fail_inv | apply Rest.rd_inv | apply rdStore_inv) | simp only [↓inv_mk] | simp only [↓inv_pair] | simp only [↓invQ_pair] | simp only [↓invX_mk] | simp only [↓invXP_pair] | (with_reducible first | apply inv_Q | apply invQ_ite | (apply inv_ofQ; assumption) | apply invXP_ite | apply invXP_foldl | apply inv_XP | apply invX_ite | apply invX_foldl | apply invX_s | apply inv_P | (apply inv_fst; assumption)) | with_reducible intro _ | dsimp +zetaDelta only | split

theorem zeroSlot_inv (j : CkJob) (st : CkStore) (slot : Nat) (x : Rest) (h1 : InvX x) :
    InvX (zeroSlot j st slot x) := by
  unfold zeroSlot; try dsimp only
  repeat' first | (with_reducible first | assumption | apply inv_ite | apply inv_ite1 | apply emit_inv | apply engineWrite_inv | apply Rest.fail_inv | apply storeCrypt_inv) | simp only [↓inv_mk] | simp only [↓inv_pair] | simp only [↓invX_mk] | simp only [↓invXP_pair] | (with_reducible first | apply invXP_ite | apply invXP_foldl | apply inv_XP | apply invX_ite | apply invX_foldl | apply invX_s | apply inv_P | (apply inv_fst; assumption)) | with_reducible intro _ | dsimp +zetaDelta only | split

theorem restWindows_inv (r : Nat) (cs : List Nat) (x : Rest) (h1 : InvX x) :
    InvX (restWindows r cs x) := by
  unfold restWindows; try dsimp only
  repeat' first | (with_reducible first | assumption | apply inv_ite | apply inv_foldl | apply doPwCommit_inv | apply State.modPort_inv) | simp only [↓inv_mk] | simp only [↓invX_mk] | simp only [↓invXP_pair] | (with_reducible first | apply invXP_ite | apply invXP_foldl | apply inv_XP | apply invX_ite | apply invX_foldl | apply invX_s) | with_reducible intro _ | dsimp +zetaDelta only | split

theorem restGates_inv (r : Nat) (cs : List Nat) (x : Rest) (h1 : InvX x) :
    InvX (restGates r cs x) := by
  unfold restGates; try dsimp only
  repeat' first | (with_reducible first | assumption | apply inv_foldl | apply doAfGateCommit_inv | apply Rest.go_inv | apply State.modPort_inv) | simp only [↓inv_mk] | simp only [↓invX_mk] | simp only [↓invXP_pair] | (with_reducible first | apply invXP_ite | apply invXP_foldl | apply inv_XP | apply invX_ite | apply invX_foldl | apply invX_s) | with_reducible intro _ | dsimp +zetaDelta only | split

theorem restKv_inv (cs : List Nat) (x : Rest) (h1 : InvX x) :
    InvX (restKv cs x) := by
  unfold restKv; try dsimp only
  repeat' first | (with_reducible first | assumption | apply inv_ite | apply inv_foldl | apply doKvCommit_inv | apply doKvUnlock_inv | apply Rest.go_inv | apply State.modKv_inv | apply State.modPool_inv | apply State.modT0_inv) | simp only [↓inv_mk] | simp only [↓invX_mk] | simp only [↓invXP_pair] | (with_reducible first | apply invXP_ite | apply invXP_foldl | apply inv_XP | apply invX_ite | apply invX_foldl | apply invX_s) | with_reducible intro _ | dsimp +zetaDelta only | split

theorem restConfig_inv (r : Nat) (table : List Nat) (x : Rest) (h1 : InvX x) :
    InvX (restConfig r table x) := by
  unfold restConfig; try dsimp only
  repeat' first | (with_reducible first | assumption | apply Rest.go_inv | apply restGates_inv | apply restKv_inv | apply restWindows_inv) | simp only [↓invX_mk] | simp only [↓invXP_pair] | (with_reducible first | apply invXP_ite | apply invXP_foldl | apply inv_XP | apply invX_ite | apply invX_foldl | apply invX_s) | with_reducible intro _ | dsimp +zetaDelta only | split

theorem restSeq_inv (r portMap v : Nat) (x : Rest) (h1 : InvX x) :
    InvX (restSeq r portMap v x) := by
  unfold restSeq; try dsimp only
  repeat' first | (with_reducible first | assumption | apply inv_ite | apply engineWrites_inv | apply Rest.fail_inv | apply State.modKv_inv) | simp only [↓inv_mk] | simp only [↓invX_mk] | simp only [↓invXP_pair] | (with_reducible first | apply invXP_ite | apply invXP_foldl | apply inv_XP | apply invX_ite | apply invX_foldl | apply invX_s) | with_reducible intro _ | dsimp +zetaDelta only | split

theorem restBlock_inv (j : CkJob) (st : CkStore) (v : Nat) (us : List (Nat × Nat)) (x : Rest) (h1 : InvX x) :
    InvX (restBlock j st v us x) := by
  unfold restBlock; try dsimp only
  repeat' first | (with_reducible first | assumption | apply inv_ite | apply inv_ite1 | apply inv_foldl | apply inv_foldl1 | apply Rest.fail_inv | apply State.modBlk_inv | apply State.modKv_inv | apply State.modSeq_inv | apply putData_inv | apply restRuns_inv | apply takePool_inv) | simp only [↓inv_mk] | simp only [↓inv_pair] | simp only [↓invX_mk] | simp only [↓invXP_pair] | (with_reducible first | apply invXP_ite | apply invXP_foldl | apply inv_XP | apply invX_ite | apply invX_foldl | apply invX_s | apply inv_P | (apply inv_fst; assumption)) | with_reducible intro _ | dsimp +zetaDelta only | split

theorem restServing_inv (r portMap : Nat) (j : CkJob) (st : CkStore) (table : List Nat) (x : Rest) (h1 : InvX x) :
    InvX (restServing r portMap j st table x) := by
  unfold restServing; try dsimp only
  repeat' first | (with_reducible first | assumption | apply inv_ite | apply inv_foldl | apply Rest.go_inv | apply restBlock_inv | apply restSeq_inv) | simp only [↓invX_mk] | simp only [↓invXP_pair] | (with_reducible first | apply invXP_ite | apply invXP_foldl | apply inv_XP | apply invX_ite | apply invX_foldl | apply invX_s) | with_reducible intro _ | dsimp +zetaDelta only | split

theorem resolveName_inv (j : CkJob) (name : Nat) (stores : List CkStore) (x : Rest) (h1 : InvX x) :
    InvXP (resolveName j name stores x) := by
  unfold resolveName; try dsimp only
  repeat' first | (with_reducible first | assumption | apply inv_ite | apply inv_ite1 | apply inv_foldl | apply inv_foldl1 | apply Rest.fail_inv | apply Rest.rd_inv | apply rdRoots_inv | apply rdTable_inv) | simp only [↓inv_pair] | simp only [↓invQ_pair] | simp only [↓invX_mk] | simp only [↓invXP_pair] | (with_reducible first | apply inv_Q | apply invQ_ite | (apply inv_ofQ; assumption) | apply invXP_ite | apply invXP_foldl | apply inv_XP | apply invX_ite | apply invX_foldl | apply invX_s | apply inv_P | (apply inv_fst; assumption)) | with_reducible intro _ | dsimp +zetaDelta only | split

theorem restRegion_inv (j : CkJob) (st : CkStore) (maps : List Nat) (g : Nat × List (Nat × Nat)) (x : Rest) (h1 : InvX x) :
    InvX (restRegion j st maps g x) := by
  unfold restRegion; try dsimp only
  repeat' first | (with_reducible first | assumption | apply inv_ite | apply inv_ite1 | apply engineWrite_inv | apply engineWrites_inv | apply Rest.fail_inv | apply resolveName_inv | apply restRuns_inv) | simp only [↓inv_mk] | simp only [↓inv_pair] | simp only [↓invX_mk] | simp only [↓invXP_pair] | (with_reducible first | apply invXP_ite | apply invXP_foldl | apply inv_XP | apply invX_ite | apply invX_foldl | apply invX_s | apply inv_P | (apply inv_fst; assumption)) | with_reducible intro _ | dsimp +zetaDelta only | split

theorem restRegions_inv (j : CkJob) (st : CkStore) (maps table : List Nat) (x : Rest) (h1 : InvX x) :
    InvX (restRegions j st maps table x) := by
  unfold restRegions; try dsimp only
  repeat' first | (with_reducible first | assumption | apply inv_foldl | apply Rest.go_inv | apply restRegion_inv) | simp only [↓invX_mk] | simp only [↓invXP_pair] | (with_reducible first | apply invXP_ite | apply invXP_foldl | apply inv_XP | apply invX_ite | apply invX_foldl | apply invX_s) | with_reducible intro _ | dsimp +zetaDelta only | split

theorem ckptRestore_inv (r : Nat) (d : Nat) (read : HRead) (ans : List BRead) (s : State) (h1 : StateInv s) :
    InvP (ckptRestore r d read ans s) := by
  unfold ckptRestore
  extract_lets ep k e step sections n h maps
  split
  · exact bad_inv _ _ h1
  rename_i j hj
  extract_lets st q s1 x0
  have hq : StateInv q.1.1 := inv_P (inv_Q (rdRoots_inv (s, ans) j st h1))
  have i0 : InvX x0 := State.modCk_inv _ _ _ hq
  clear_value x0 s1 q
  refine inv_ite1 (fun _ => bad_inv _ _ h1) (fun _ => ?_)
  refine inv_ite1 (fun _ => bad_inv _ _ h1) (fun _ => ?_)
  refine inv_ite1 (fun _ => bad_inv _ _ h1) (fun _ => ?_)
  refine inv_ite1 (fun _ => bad_inv _ _ h1) (fun _ => ?_)
  refine inv_ite1 (fun _ => bad_inv _ _ h1) (fun _ => ?_)
  refine inv_ite1 (fun _ => bad_inv _ _ hq) (fun _ => ?_)
  split
  · exact bad_inv _ _ hq
  rename_i root hr
  extract_lets other x1 tb src x2 x3 x4 x5 s6
  have i1 : InvX x1 := invX_ite (fun _ => zeroSlot_inv _ _ _ _ i0) (fun _ => i0)
  clear_value x1
  have it : StateInv tb.1.1 := inv_P (inv_Q (rdTable_inv (x1.s, x1.ans) j st _ i1))
  have ir : InvX src := it
  clear_value src tb
  have i2 : InvX x2 := invX_ite (fun _ => i1) (fun _ => ir)
  clear_value x2
  have i3 : InvX x3 := invX_ite (fun _ => invX_ite (fun _ => i2) (fun _ => restConfig_inv _ _ _ i2)) (fun _ => i2)
  clear_value x3
  have i4 : InvX x4 := invX_ite (fun _ => invX_ite (fun _ => i3) (fun _ => restServing_inv _ _ _ _ _ _ i3)) (fun _ => i3)
  clear_value x4
  have i5 : InvX x5 := invX_ite (fun _ => invX_ite (fun _ => i4) (fun _ => restRegions_inv _ _ _ _ _ i4)) (fun _ => i4)
  clear_value x5
  have i6 : StateInv s6 := settlePools_inv _ (inv_ite (fun _ => i5) (fun _ => hostWrite_inv _ _ _ _ i5))
  clear_value s6
  exact inv_ite1 (fun _ => bad_inv _ _ i6) (fun _ => okR_inv _ _ i6)

theorem execCkptRestore_inv (fn ring : Nat) (read : HRead) (answers : List BRead) (s : State) (h1 : StateInv s) :
    InvC (execCkptRestore fn ring read answers s) := by
  unfold execCkptRestore; try dsimp only
  repeat' first | (with_reducible first | assumption | apply ckptRestore_inv | apply onDesc_inv) | simp only [↓inv_pair] | simp only [↓invX_mk] | simp only [↓invXP_pair] | (with_reducible first | apply invXP_ite | apply invXP_foldl | apply inv_XP | apply invX_ite | apply invX_foldl | apply invX_s | apply inv_P | apply invC_next | apply invC_ite | apply invC_fault | (apply inv_ofC; assumption) | (apply inv_fst; assumption)) | with_reducible intro _ | dsimp +zetaDelta only | split

theorem dropHead_inv (s : State) (t : Nat) (h1 : StateInv s) :
    StateInv (dropHead s t) := by
  unfold dropHead; try dsimp only
  repeat' first | (with_reducible first | assumption | apply State.modRtile_inv) | simp only [↓inv_mk] | with_reducible intro _ | dsimp +zetaDelta only | split

theorem missDrop_inv (s : State) (t : Nat) (h1 : StateInv s) :
    StateInv (missDrop s t) := by
  unfold missDrop; try dsimp only
  repeat' first | (with_reducible first | assumption | apply inv_ite | apply inv_foldl | apply State.modRtile_inv | apply postEventS_inv) | simp only [↓inv_mk] | with_reducible intro _ | dsimp +zetaDelta only | split

theorem park_inv (s : State) (t n : Nat) (q : Qp) (p : RocePkt) (h1 : StateInv s) :
    StateInv (park s t n q p) := by
  unfold park; try dsimp only
  repeat' first | (with_reducible first | assumption | apply inv_ite | apply emit_inv | apply missDrop_inv | apply State.modQp_inv | apply State.modRtile_inv) | simp only [↓inv_mk] | with_reducible intro _ | dsimp +zetaDelta only | split

theorem withCtx_inv (s : State) (t n : Nat) (p : RocePkt) (h1 : StateInv s) :
    InvP (withCtx s t n p) := by
  unfold withCtx; try dsimp only
  repeat' first | (with_reducible first | assumption | apply inv_ite | apply inv_ite1 | apply install_inv | apply State.modRtile_inv | apply noQp_inv | apply park_inv | apply useCtx_inv) | simp only [↓inv_mk] | simp only [↓inv_pair] | (with_reducible first | apply inv_P | apply invO_none | apply invO_some | apply invO_ite | (apply inv_of; assumption) | (apply inv_fst; assumption)) | with_reducible intro _ | dsimp +zetaDelta only | split

theorem doFetchReturn_inv (n : Nat) (read : HRead) (s : State) (h1 : StateInv s) :
    StateInv (doFetchReturn n read s) := by
  unfold doFetchReturn; try dsimp only
  repeat' first | (with_reducible first | assumption | apply inv_ite | apply inv_foldl | apply Rest.fail_inv | apply install_inv | apply missDrop_inv | apply State.modQp_inv | apply State.modRtile_inv | apply postEventS_inv) | simp only [↓inv_mk] | simp only [↓invX_mk] | simp only [↓invXP_pair] | (with_reducible first | apply invXP_ite | apply invXP_foldl | apply inv_XP | apply invX_ite | apply invX_foldl | apply invX_s | apply invO_none | apply invO_some | apply invO_ite | (apply inv_of; assumption) | apply invO_map) | with_reducible intro _ | dsimp +zetaDelta only | split

theorem execContextFetchReturn_inv (qpn : Nat) (read : HRead) (s : State) (h1 : StateInv s) :
    InvC (execContextFetchReturn qpn read s) := by
  unfold execContextFetchReturn
  repeat' first | (with_reducible first | assumption | apply doFetchReturn_inv) | (with_reducible first | apply invC_next | apply invC_ite | apply invC_fault | (apply inv_ofC; assumption)) | with_reducible intro _

theorem doWbAccepted_inv (n : Nat) (s : State) (h1 : StateInv s) :
    StateInv (doWbAccepted n s) := by
  unfold doWbAccepted; try dsimp only
  repeat' first | (with_reducible first | assumption | apply inv_ite | apply State.modQp_inv) | simp only [↓inv_mk] | with_reducible intro _ | dsimp +zetaDelta only | split

theorem execContextWritebackAccepted_inv (qpn : Nat) (s : State) (h1 : StateInv s) :
    InvC (execContextWritebackAccepted qpn s) := by
  unfold execContextWritebackAccepted
  repeat' first | (with_reducible first | assumption | apply doWbAccepted_inv) | (with_reducible first | apply invC_next | apply invC_ite | apply invC_fault | (apply inv_ofC; assumption)) | with_reducible intro _

theorem reply_inv (s : State) (n psn syndrome : Nat) (h1 : StateInv s) :
    StateInv (reply s n psn syndrome) := by
  unfold reply; try dsimp only
  repeat' first | (with_reducible first | assumption | apply sendPkt_inv) | simp only [↓inv_mk] | dsimp +zetaDelta only | split

theorem cnpSend_inv (s : State) (n : Nat) (q : Qp) (attr dest : Nat) (h1 : StateInv s) :
    StateInv (cnpSend s n q attr dest) := by
  unfold cnpSend; try dsimp only
  repeat' first | (with_reducible first | assumption | apply inv_ite | apply State.modQp_inv | apply State.modRtile_inv | apply sendPkt_inv) | simp only [↓inv_mk] | with_reducible intro _ | dsimp +zetaDelta only | split

theorem refuse_inv (s : State) (n psn syndrome cause : Nat) (h1 : StateInv s) :
    StateInv (refuse s n psn syndrome cause) := by
  unfold refuse
  repeat' first | (with_reducible first | assumption | apply qpError_inv | apply reply_inv)

theorem failRecv_inv (s : State) (n psn syndrome status imm sol : Nat) (h1 : StateInv s) :
    StateInv (failRecv s n psn syndrome status imm sol) := by
  unfold failRecv; try dsimp only
  repeat' first | (with_reducible first | assumption | apply endRecv_inv | apply State.modQp_inv | apply qpError_inv | apply reply_inv) | simp only [↓inv_mk] | with_reducible intro _ | dsimp +zetaDelta only | split

theorem accept_inv (s : State) (n : Nat) (p : RocePkt) (k : Nat) (ends : Bool) (h1 : StateInv s) :
    StateInv (accept s n p k ends) := by
  unfold accept; try dsimp only
  repeat' first | (with_reducible first | assumption | apply inv_ite | apply State.modQp_inv | apply reply_inv) | simp only [↓inv_mk] | with_reducible intro _ | dsimp +zetaDelta only | split

theorem finishRecv_inv (s : State) (n : Nat) (p : RocePkt) (got : Nat) (h1 : StateInv s) :
    StateInv (finishRecv s n p got) := by
  unfold finishRecv; try dsimp only
  repeat' first | (with_reducible first | assumption | apply inv_ite | apply endRecv_inv | apply State.modQp_inv) | simp only [↓inv_mk] | with_reducible intro _ | dsimp +zetaDelta only | split

theorem execSendPkt_inv (s : State) (n : Nat) (q : Qp) (p : RocePkt) (h1 : StateInv s) :
    StateInv (execSendPkt s n q p) := by
  unfold execSendPkt; try dsimp only
  repeat' first | (with_reducible first | assumption | apply inv_ite | apply inv_ite1 | apply accept_inv | apply failRecv_inv | apply finishRecv_inv | apply State.modQp_inv | apply mrWrite_inv | apply reply_inv) | simp only [↓inv_mk] | simp only [↓inv_pair] | (with_reducible first | apply inv_P | (apply inv_fst; assumption)) | with_reducible intro _ | dsimp +zetaDelta only | split

theorem notePut_inv (s : State) (m node bytes : Nat) (h1 : StateInv s) :
    StateInv (notePut s m node bytes) := by
  unfold notePut; try dsimp only
  repeat' first | (with_reducible first | assumption) | simp only [↓inv_mk] | with_reducible intro _ | dsimp +zetaDelta only | split

theorem execWritePkt_inv (s : State) (n : Nat) (q : Qp) (p : RocePkt) (h1 : StateInv s) :
    StateInv (execWritePkt s n q p) := by
  unfold execWritePkt; try dsimp only
  repeat' first | (with_reducible first | assumption | apply inv_ite | apply inv_ite1 | apply accept_inv | apply finishRecv_inv | apply State.modQp_inv | apply State.modRtile_inv | apply mrWrite_inv | apply notePut_inv | apply refuse_inv | apply reply_inv) | simp only [↓inv_mk] | simp only [↓inv_pair] | (with_reducible first | apply inv_P | (apply inv_fst; assumption)) | with_reducible intro _ | dsimp +zetaDelta only | split

theorem execReadPkt_inv (s : State) (n : Nat) (q : Qp) (p : RocePkt) (host : HRead) (dup : Bool) (h1 : StateInv s) :
    StateInv (execReadPkt s n q p host dup) := by
  unfold execReadPkt; try dsimp only
  repeat' first | (with_reducible first | assumption | apply inv_ite | apply inv_ite1 | apply State.modQp_inv | apply State.modRtile_inv | apply mrRead_inv | apply refuse_inv | apply xmit_inv) | simp only [↓inv_mk] | simp only [↓inv_pair] | (with_reducible first | apply inv_P | (apply inv_fst; assumption)) | with_reducible intro _ | dsimp +zetaDelta only | split

theorem atomicReply_inv (s : State) (n : Nat) (q : Qp) (psn v : Nat) (h1 : StateInv s) :
    StateInv (atomicReply s n q psn v) := by
  unfold atomicReply; try dsimp only
  repeat' first | (with_reducible first | assumption | apply xmit_inv) | simp only [↓inv_mk] | dsimp +zetaDelta only | split

theorem execAtomicPkt_inv (s : State) (n : Nat) (q : Qp) (p : RocePkt) (host : HRead) (h1 : StateInv s) :
    StateInv (execAtomicPkt s n q p host) := by
  unfold execAtomicPkt; try dsimp only
  repeat' first | (with_reducible first | assumption | apply inv_ite | apply inv_ite1 | apply atomicReply_inv | apply State.modQp_inv | apply State.modRtile_inv | apply mrRead_inv | apply mrWrite_inv | apply refuse_inv) | simp only [↓inv_mk] | simp only [↓inv_pair] | (with_reducible first | apply inv_P | (apply inv_fst; assumption)) | with_reducible intro _ | dsimp +zetaDelta only | split

theorem duplicate_inv (s : State) (n : Nat) (q : Qp) (p : RocePkt) (host : HRead) (h1 : StateInv s) :
    StateInv (duplicate s n q p host) := by
  unfold duplicate; try dsimp only
  repeat' first | (with_reducible first | assumption | apply inv_ite | apply atomicReply_inv | apply execReadPkt_inv | apply State.modRtile_inv | apply refuse_inv | apply reply_inv) | simp only [↓inv_mk] | with_reducible intro _ | dsimp +zetaDelta only | split

theorem respond_inv (s : State) (n : Nat) (q : Qp) (p : RocePkt) (host : HRead) (h1 : StateInv s) :
    StateInv (respond s n q p host) := by
  unfold respond; try dsimp only
  repeat' first | (with_reducible first | assumption | apply inv_ite | apply duplicate_inv | apply execAtomicPkt_inv | apply execReadPkt_inv | apply execSendPkt_inv | apply execWritePkt_inv | apply State.modQp_inv | apply refuse_inv | apply reply_inv) | simp only [↓inv_mk] | with_reducible intro _ | dsimp +zetaDelta only | split

theorem noQp_inv (s : State) (t : Nat) (h1 : StateInv s) :
    StateInv (noQp s t) := by
  unfold noQp; try dsimp only
  repeat' first | (with_reducible first | assumption | apply State.modRtile_inv) | simp only [↓inv_mk] | with_reducible intro _ | dsimp +zetaDelta only | split

theorem doRequest_inv (t : Nat) (host : HRead) (s : State) (h1 : StateInv s) :
    StateInv (doRequest t host s) := by
  unfold doRequest; try dsimp only
  repeat' first | (with_reducible first | assumption | apply inv_ite | apply inv_ite1 | apply cnpSend_inv | apply dropHead_inv | apply noQp_inv | apply State.reset_inv | apply respond_inv | apply withCtx_inv) | simp only [↓inv_pair] | (with_reducible first | apply inv_P | (apply inv_fst; assumption)) | with_reducible intro _ | dsimp +zetaDelta only | split

theorem execRcRequestPacket_inv (net : Nat) (host : HRead) (s : State) (h1 : StateInv s) :
    InvC (execRcRequestPacket net host s) := by
  unfold execRcRequestPacket
  repeat' first | (with_reducible first | assumption | apply doRequest_inv) | (with_reducible first | apply invC_next | apply invC_ite | apply invC_fault | (apply inv_ofC; assumption)) | with_reducible intro _

theorem restartRetries_inv (s : State) (n una : Nat) (h1 : StateInv s) :
    StateInv (restartRetries s n una) := by
  unfold restartRetries; try dsimp only
  repeat' first | (with_reducible first | assumption | apply inv_ite | apply State.modQp_inv) | simp only [↓inv_mk] | with_reducible intro _ | dsimp +zetaDelta only | split

theorem resumeSends_inv (s : State) (n : Nat) (h1 : StateInv s) :
    StateInv (resumeSends s n) := by
  unfold resumeSends
  repeat' first | (with_reducible first | assumption | apply checkDrainedQp_inv | apply pumpSends_inv)

theorem progress_inv (s : State) (n una : Nat) (h1 : StateInv s) :
    StateInv (progress s n una) := by
  unfold progress
  repeat' first | (with_reducible first | assumption | apply restartRetries_inv | apply resumeSends_inv)

theorem ackUpTo_inv (z0 : Nat) (z1 : State) (z2 z3 : Nat) (h1 : StateInv z1) :
    StateInv (ackUpTo z0 z1 z2 z3) := by
  fun_induction ackUpTo z0 z1 z2 z3 <;> try dsimp +zetaDelta only
  all_goals repeat' first | (with_reducible first | assumption | apply inv_ite | apply endSend_inv | apply State.modQp_inv) | simp only [↓inv_mk] | with_reducible apply_assumption -exfalso | with_reducible intro _ | dsimp +zetaDelta only | split

theorem gotAck_inv (s : State) (n psn una : Nat) (h1 : StateInv s) :
    StateInv (gotAck s n psn una) := by
  unfold gotAck; try dsimp only
  repeat' first | (with_reducible first | assumption | apply inv_ite | apply ackUpTo_inv | apply State.modQp_inv | apply progress_inv) | simp only [↓inv_mk] | with_reducible intro _ | dsimp +zetaDelta only | split

theorem gotNak_inv (s : State) (n una : Nat) (p : RocePkt) (h1 : StateInv s) :
    StateInv (gotNak s n una p) := by
  unfold gotNak; try dsimp only
  repeat' first | (with_reducible first | assumption | apply inv_ite | apply ackUpTo_inv | apply State.modQp_inv | apply restartRetries_inv | apply resumeSends_inv | apply retransmit_inv | apply sendError_inv) | simp only [↓inv_mk] | with_reducible intro _ | dsimp +zetaDelta only | split

theorem gotData_inv (s : State) (n una : Nat) (p : RocePkt) (h1 : StateInv s) :
    StateInv (gotData s n una p) := by
  unfold gotData; try dsimp only
  repeat' first | (with_reducible first | assumption | apply inv_ite | apply inv_ite1 | apply ackUpTo_inv | apply endSend_inv | apply State.modQp_inv | apply mrWrite_inv | apply progress_inv | apply retransmit_inv | apply sendError_inv) | simp only [↓inv_mk] | simp only [↓inv_pair] | (with_reducible first | apply inv_P | (apply inv_fst; assumption)) | with_reducible intro _ | dsimp +zetaDelta only | split

theorem doResponse_inv (t : Nat) (s : State) (h1 : StateInv s) :
    StateInv (doResponse t s) := by
  unfold doResponse; try dsimp only
  repeat' first | (with_reducible first | assumption | apply inv_ite | apply inv_ite1 | apply dropHead_inv | apply gotAck_inv | apply gotData_inv | apply gotNak_inv | apply noQp_inv | apply State.reset_inv | apply withCtx_inv) | simp only [↓inv_pair] | (with_reducible first | apply inv_P | (apply inv_fst; assumption)) | with_reducible intro _ | dsimp +zetaDelta only | split

theorem execResponsePacket_inv (net : Nat) (s : State) (h1 : StateInv s) :
    InvC (execResponsePacket net s) := by
  unfold execResponsePacket
  repeat' first | (with_reducible first | assumption | apply doResponse_inv) | (with_reducible first | apply invC_next | apply invC_ite | apply invC_fault | (apply inv_ofC; assumption)) | with_reducible intro _

theorem doUd_inv (t : Nat) (s : State) (h1 : StateInv s) :
    StateInv (doUd t s) := by
  unfold doUd; try dsimp only
  repeat' first | (with_reducible first | assumption | apply inv_ite | apply inv_ite1 | apply cnpSend_inv | apply dropHead_inv | apply endRecv_inv | apply State.modQp_inv | apply mrWrite_inv | apply noQp_inv | apply qpError_inv | apply State.reset_inv | apply withCtx_inv) | simp only [↓inv_mk] | simp only [↓inv_pair] | (with_reducible first | apply inv_P | (apply inv_fst; assumption)) | with_reducible intro _ | dsimp +zetaDelta only | split

theorem execUdPacket_inv (net : Nat) (s : State) (h1 : StateInv s) :
    InvC (execUdPacket net s) := by
  unfold execUdPacket
  repeat' first | (with_reducible first | assumption | apply doUd_inv) | (with_reducible first | apply invC_next | apply invC_ite | apply invC_fault | (apply inv_ofC; assumption)) | with_reducible intro _

theorem doCnp_inv (t : Nat) (s : State) (h1 : StateInv s) :
    StateInv (doCnp t s) := by
  unfold doCnp; try dsimp only
  repeat' first | (with_reducible first | assumption | apply inv_ite | apply inv_ite1 | apply addTotal_inv | apply checkSquall_inv | apply dropHead_inv | apply State.modQp_inv | apply State.modRtile_inv | apply noQp_inv | apply withCtx_inv) | simp only [↓inv_mk] | simp only [↓inv_pair] | (with_reducible first | apply inv_P | (apply inv_fst; assumption)) | with_reducible intro _ | dsimp +zetaDelta only | split

theorem execCnpRx_inv (net : Nat) (s : State) (h1 : StateInv s) :
    InvC (execCnpRx net s) := by
  unfold execCnpRx
  repeat' first | (with_reducible first | assumption | apply doCnp_inv) | (with_reducible first | apply invC_next | apply invC_ite | apply invC_fault | (apply inv_ofC; assumption)) | with_reducible intro _

end Sys2Proof.Machine
end

