-- ==== Sys2Proof/Laws/InvLife.lean ====
section
/-!
SUPPORT. What every step keeps, function by function: rings, the life cycle, start, classification and trust.
-/
set_option Elab.async false
set_option linter.all false
namespace Sys2Proof.Machine

theorem loadRing_inv (s : State) (r i : Nat) (e : DirEntry) (h1 : StateInv s) :
    InvO (loadRing s r i e) := by
  unfold loadRing; try dsimp only
  repeat' first | (with_reducible first | assumption | apply inv_ite | apply armLease_inv | apply State.modRing_inv) | simp only [↓inv_mk] | (with_reducible first | apply invO_none | apply invO_some | apply invO_ite | (apply inv_of; assumption)) | with_reducible intro _ | dsimp +zetaDelta only | split

theorem loadAll_inv (z0 : State) (z1 z2 : Nat) (z3 : List DirEntry) (h1 : StateInv z0) :
    InvO (loadAll z0 z1 z2 z3) := by
  fun_induction loadAll z0 z1 z2 z3 <;> try dsimp +zetaDelta only
  all_goals repeat' first | (with_reducible first | assumption | apply loadRing_inv) | (with_reducible first | apply invO_none | apply invO_some | apply invO_ite | (apply inv_of; assumption)) | with_reducible apply_assumption -exfalso | with_reducible intro _ | dsimp +zetaDelta only | split

theorem endDir_inv (s : State) (r status badIx : Nat) (h1 : StateInv s) :
    StateInv (endDir s r status badIx) := by
  unfold endDir; try dsimp only
  repeat' first | (with_reducible first | assumption | apply State.modFn_inv) | simp only [↓inv_mk] | with_reducible intro _ | dsimp +zetaDelta only | split

theorem startDir_inv (s : State) (r : Nat) (act : State → State) (h1 : StateInv s) (h2 : ∀ (y0 : State), StateInv y0 → StateInv (act y0)) :
    StateInv (startDir s r act) := by
  unfold startDir
  repeat' first | (with_reducible first | assumption | apply inv_ite | apply h2 | apply endDir_inv) | with_reducible intro _

theorem readEntry_inv (s : State) (r i : Nat) (h1 : StateInv s) :
    StateInv (readEntry s r i) := by
  unfold readEntry
  repeat' first | (with_reducible first | assumption | apply emit_inv)

theorem doDirCommit_inv (r : Nat) (s : State) (h1 : StateInv s) :
    StateInv (doDirCommit r s) := by
  unfold doDirCommit; try dsimp only
  repeat' first | (with_reducible first | assumption | apply inv_ite | apply endDir_inv | apply State.modFn_inv | apply readEntry_inv | apply startDir_inv) | simp only [↓inv_mk] | with_reducible intro _ | dsimp +zetaDelta only | split

theorem execRingDirCommit_inv (fn : Nat) (s : State) (h1 : StateInv s) :
    InvC (execRingDirCommit fn s) := by
  unfold execRingDirCommit
  repeat' first | (with_reducible first | assumption | apply doDirCommit_inv | apply gated_inv) | (with_reducible first | apply invC_next | apply invC_ite | apply invC_fault | (apply inv_ofC; assumption)) | with_reducible intro _

theorem doDirUnlock_inv (r : Nat) (s : State) (h1 : StateInv s) :
    StateInv (doDirUnlock r s) := by
  unfold doDirUnlock; try dsimp only
  repeat' first | (with_reducible first | assumption | apply inv_ite | apply endDir_inv | apply State.modFn_inv | apply startDir_inv) | simp only [↓inv_mk] | with_reducible intro _ | dsimp +zetaDelta only | split

theorem execRingDirUnlock_inv (fn : Nat) (s : State) (h1 : StateInv s) :
    InvC (execRingDirUnlock fn s) := by
  unfold execRingDirUnlock
  repeat' first | (with_reducible first | assumption | apply doDirUnlock_inv | apply gated_inv) | (with_reducible first | apply invC_next | apply invC_ite | apply invC_fault | (apply inv_ofC; assumption)) | with_reducible intro _

theorem entryAction_inv (r index : Nat) (act : State → State) (s : State) (h1 : ∀ (y0 : State), StateInv y0 → StateInv (act y0)) (h2 : StateInv s) :
    StateInv (entryAction r index act s) := by
  unfold entryAction; try dsimp only
  repeat' first | (with_reducible first | assumption | apply inv_ite | apply h1 | apply endDir_inv | apply startDir_inv) | with_reducible intro _ | dsimp +zetaDelta only | split

theorem doLoadEntry_inv (r index : Nat) (s : State) (h1 : StateInv s) :
    StateInv (doLoadEntry r index s) := by
  unfold doLoadEntry; try dsimp only
  repeat' first | (with_reducible first | assumption | apply inv_ite | apply endDir_inv | apply entryAction_inv | apply State.modFn_inv | apply readEntry_inv) | simp only [↓inv_mk] | with_reducible intro _ | dsimp +zetaDelta only | split

theorem execLoadEntry_inv (fn index : Nat) (s : State) (h1 : StateInv s) :
    InvC (execLoadEntry fn index s) := by
  unfold execLoadEntry
  repeat' first | (with_reducible first | assumption | apply doLoadEntry_inv | apply gated_inv) | (with_reducible first | apply invC_next | apply invC_ite | apply invC_fault | (apply inv_ofC; assumption)) | with_reducible intro _

theorem doDisableEntry_inv (r index : Nat) (s : State) (h1 : StateInv s) :
    StateInv (doDisableEntry r index s) := by
  unfold doDisableEntry; try dsimp only
  repeat' first | (with_reducible first | assumption | apply endDir_inv | apply entryAction_inv | apply State.modRing_inv | apply settleRing_inv) | simp only [↓inv_mk] | with_reducible intro _ | dsimp +zetaDelta only | split

theorem execDisableEntry_inv (fn index : Nat) (s : State) (h1 : StateInv s) :
    InvC (execDisableEntry fn index s) := by
  unfold execDisableEntry
  repeat' first | (with_reducible first | assumption | apply doDisableEntry_inv | apply gated_inv) | (with_reducible first | apply invC_next | apply invC_ite | apply invC_fault | (apply inv_ofC; assumption)) | with_reducible intro _

theorem doDirReturn_inv (r : Nat) (read : HRead) (s : State) (h1 : StateInv s) :
    StateInv (doDirReturn r read s) := by
  unfold doDirReturn; try dsimp only
  repeat' first | (with_reducible first | assumption | apply inv_ite | apply inv_ite1 | apply bad_inv | apply endDir_inv | apply loadAll_inv | apply loadRing_inv | apply State.modFn_inv | apply readEntry_inv) | simp only [↓inv_mk] | simp only [↓inv_pair] | (with_reducible first | apply inv_P | apply invO_none | apply invO_some | apply invO_ite | (apply inv_of; assumption) | (apply inv_fst; assumption)) | with_reducible intro _ | dsimp +zetaDelta only | split

theorem execDirectoryReadReturn_inv (fn : Nat) (read : HRead) (s : State) (h1 : StateInv s) :
    InvC (execDirectoryReadReturn fn read s) := by
  unfold execDirectoryReadReturn
  repeat' first | (with_reducible first | assumption | apply doDirReturn_inv) | (with_reducible first | apply invC_next | apply invC_ite | apply invC_fault | (apply inv_ofC; assumption)) | with_reducible intro _

theorem discardDoorbell_inv (s : State) (r page word : Nat) (h1 : StateInv s) :
    StateInv (discardDoorbell s r page word) := by
  unfold discardDoorbell; try dsimp only
  repeat' first | (with_reducible first | assumption | apply State.modFn_inv | apply postEventS_inv) | simp only [↓inv_mk] | with_reducible intro _ | dsimp +zetaDelta only | split

theorem renewLease_inv (s : State) (r : Nat) (h1 : StateInv s) :
    StateInv (renewLease s r) := by
  unfold renewLease; try dsimp only
  repeat' first | (with_reducible first | assumption | apply inv_ite | apply State.modFn_inv) | simp only [↓inv_mk] | with_reducible intro _ | dsimp +zetaDelta only | split

theorem takeDoorbell_inv (s : State) (r page word : Nat) (h1 : StateInv s) :
    StateInv (takeDoorbell s r page word) := by
  unfold takeDoorbell; try dsimp only
  repeat' first | (with_reducible first | assumption | apply inv_ite | apply checkFreeze_inv | apply discardDoorbell_inv | apply drainWaiting_inv | apply flushLost_inv | apply mboxPush_inv | apply State.modFn_inv | apply State.modRing_inv | apply renewLease_inv | apply settleRing_inv) | simp only [↓inv_mk] | with_reducible intro _ | dsimp +zetaDelta only | split

theorem doDoorbell_inv (r page offset width : Nat) (word : BitVec 64) (s : State) (h1 : StateInv s) :
    StateInv (doDoorbell r page offset width word s) := by
  unfold doDoorbell
  repeat' first | (with_reducible first | assumption | apply inv_ite | apply takeDoorbell_inv) | with_reducible intro _

theorem execDoorbell_inv (fn page offset width : Nat) (word : BitVec 64) (s : State) (h1 : StateInv s) :
    InvC (execDoorbell fn page offset width word s) := by
  unfold execDoorbell
  repeat' first | (with_reducible first | assumption | apply doDoorbell_inv | apply gated_inv) | (with_reducible first | apply invC_next | apply invC_ite | apply invC_fault | (apply inv_ofC; assumption)) | with_reducible intro _

theorem execNop_inv (fn ring : Nat) (s : State) (h1 : StateInv s) :
    InvC (execNop fn ring s) := by
  unfold execNop; try dsimp only
  repeat' first | (with_reducible first | assumption | apply ok0_inv | apply onDesc_inv) | simp only [↓inv_pair] | (with_reducible first | apply inv_P | apply invC_next | apply invC_ite | apply invC_fault | (apply inv_ofC; assumption) | (apply inv_fst; assumption)) | with_reducible intro _ | dsimp +zetaDelta only | split

theorem doModeration_inv (r i : Nat) (s : State) (h1 : StateInv s) :
    StateInv (doModeration r i s) := by
  unfold doModeration; try dsimp only
  repeat' first | (with_reducible first | assumption | apply inv_ite | apply advanceTo_inv | apply State.modRing_inv | apply raiseVec_inv) | simp only [↓inv_mk] | with_reducible intro _ | dsimp +zetaDelta only | split

theorem execInterruptModerationExpiry_inv (fn ring : Nat) (s : State) (h1 : StateInv s) :
    InvC (execInterruptModerationExpiry fn ring s) := by
  unfold execInterruptModerationExpiry
  repeat' first | (with_reducible first | assumption | apply doModeration_inv) | (with_reducible first | apply invC_next | apply invC_ite | apply invC_fault | (apply inv_ofC; assumption)) | with_reducible intro _

theorem evEnd_inv (s : State) (r status : Nat) (h1 : StateInv s) :
    StateInv (evEnd s r status) := by
  unfold evEnd; try dsimp only
  repeat' first | (with_reducible first | assumption | apply State.modFn_inv) | simp only [↓inv_mk] | with_reducible intro _ | dsimp +zetaDelta only | split

theorem evDoCommit_inv (s : State) (r : Nat) (h1 : StateInv s) :
    StateInv (evDoCommit s r) := by
  unfold evDoCommit; try dsimp only
  repeat' first | (with_reducible first | assumption | apply inv_ite | apply evEnd_inv | apply flushLost_inv | apply State.modFn_inv | apply State.modRing_inv) | simp only [↓inv_mk] | with_reducible intro _ | dsimp +zetaDelta only | split

theorem evDoUnlock_inv (s : State) (r : Nat) (h1 : StateInv s) :
    StateInv (evDoUnlock s r) := by
  unfold evDoUnlock; try dsimp only
  repeat' first | (with_reducible first | assumption | apply inv_ite | apply evEnd_inv | apply State.modFn_inv | apply State.modRing_inv) | simp only [↓inv_mk] | with_reducible intro _ | dsimp +zetaDelta only | split

theorem doEvWrite_inv (r v : Nat) (s : State) (h1 : StateInv s) :
    StateInv (doEvWrite r v s) := by
  unfold doEvWrite
  repeat' first | (with_reducible first | assumption | apply inv_ite | apply evDoCommit_inv | apply evDoUnlock_inv | apply evEnd_inv) | with_reducible intro _

theorem execEvCommit_inv (fn : Nat) (value : BitVec 32) (s : State) (h1 : StateInv s) :
    InvC (execEvCommit fn value s) := by
  unfold execEvCommit
  repeat' first | (with_reducible first | assumption | apply doEvWrite_inv | apply gated_inv) | (with_reducible first | apply invC_next | apply invC_ite | apply invC_fault | (apply inv_ofC; assumption)) | with_reducible intro _

theorem execEvUnlock_inv (fn : Nat) (s : State) (h1 : StateInv s) :
    InvC (execEvUnlock fn s) := by
  unfold execEvUnlock
  repeat' first | (with_reducible first | assumption | apply doEvWrite_inv | apply gated_inv) | (with_reducible first | apply invC_next | apply invC_ite | apply invC_fault | (apply inv_ofC; assumption)) | with_reducible intro _

theorem doLeasePeriod_inv (r v : Nat) (s : State) (h1 : StateInv s) :
    StateInv (doLeasePeriod r v s) := by
  unfold doLeasePeriod; try dsimp only
  repeat' first | (with_reducible first | assumption | apply inv_ite | apply State.modFn_inv) | simp only [↓inv_mk] | with_reducible intro _ | dsimp +zetaDelta only | split

theorem execLeasePeriodWrite_inv (fn : Nat) (value : BitVec 32) (s : State) (h1 : StateInv s) :
    InvC (execLeasePeriodWrite fn value s) := by
  unfold execLeasePeriodWrite
  repeat' first | (with_reducible first | assumption | apply doLeasePeriod_inv | apply gated_inv) | (with_reducible first | apply invC_next | apply invC_ite | apply invC_fault | (apply inv_ofC; assumption)) | with_reducible intro _

theorem doLeaseHalf_inv (r : Nat) (s : State) (h1 : StateInv s) :
    StateInv (doLeaseHalf r s) := by
  unfold doLeaseHalf; try dsimp only
  repeat' first | (with_reducible first | assumption | apply inv_ite | apply advanceTo_inv | apply State.modFn_inv | apply postEvent_inv) | simp only [↓inv_mk] | with_reducible intro _ | dsimp +zetaDelta only | split

theorem execLeaseHalf_inv (fn : Nat) (s : State) (h1 : StateInv s) :
    InvC (execLeaseHalf fn s) := by
  unfold execLeaseHalf
  repeat' first | (with_reducible first | assumption | apply doLeaseHalf_inv) | (with_reducible first | apply invC_next | apply invC_ite | apply invC_fault | (apply inv_ofC; assumption)) | with_reducible intro _

theorem passStorage_inv (s : State) (r : Nat) (old : Nat → Bool) (gen : Nat) (h1 : StateInv s) :
    StateInv (passStorage s r old gen) := by
  unfold passStorage; try dsimp only
  repeat' first | (with_reducible first | assumption | apply inv_ite | apply State.modRdma_inv | apply State.modSeal_inv | apply State.modSto_inv) | simp only [↓inv_mk] | with_reducible intro _ | dsimp +zetaDelta only | split

theorem passObjects_inv (s : State) (r : Nat) (old : Nat → Bool) (gen : Nat) (h1 : StateInv s) :
    StateInv (passObjects s r old gen) := by
  unfold passObjects; try dsimp only
  repeat' first | (with_reducible first | assumption | apply inv_ite | apply State.modCk_inv | apply State.modKv_inv | apply State.modRdma_inv | apply State.modSeal_inv | apply passStorage_inv) | simp only [↓inv_mk] | with_reducible intro _ | dsimp +zetaDelta only | split

theorem cancelPlan_inv (s : State) (n : Nat) (p : Plan) (h1 : StateInv s) :
    StateInv (cancelPlan s n p) := by
  unfold cancelPlan; try dsimp only
  repeat' first | (with_reducible first | assumption | apply inv_ite | apply finish_inv | apply planRecord_inv | apply releasePlan_inv | apply stopMoves_inv) | with_reducible intro _ | dsimp +zetaDelta only

theorem discardComm_inv (s : State) (c : Nat) (m : Comm) (h1 : StateInv s) :
    StateInv (discardComm s c m) := by
  unfold discardComm; try dsimp only
  repeat' first | (with_reducible first | assumption | apply inv_ite | apply inv_foldl | apply dropComm_inv | apply endLaunch_inv | apply endQueued_inv) | with_reducible intro _ | dsimp +zetaDelta only | split

theorem discardSeq_inv (s : State) (ix : Nat) (h1 : StateInv s) :
    StateInv (discardSeq s ix) := by
  unfold discardSeq; try dsimp only
  repeat' first | (with_reducible first | assumption | apply State.modKv_inv | apply settlePools_inv | apply truncSeq_inv) | simp only [↓inv_mk] | with_reducible intro _ | dsimp +zetaDelta only | split

theorem discardJob_inv (s : State) (r : Nat) (old : Nat → Bool) (h1 : StateInv s) :
    StateInv (discardJob s r old) := by
  unfold discardJob; try dsimp only
  repeat' first | (with_reducible first | assumption | apply inv_ite | apply failTake_inv | apply State.modCk_inv) | simp only [↓inv_mk] | with_reducible intro _ | dsimp +zetaDelta only | split

theorem discardQueues_inv (s : State) (r : Nat) (old : Nat → Bool) (h1 : StateInv s) :
    StateInv (discardQueues s r old) := by
  unfold discardQueues; try dsimp only
  repeat' first | (with_reducible first | assumption | apply inv_ite | apply inv_foldl | apply dropRxq_inv | apply dropTxq_inv) | with_reducible intro _ | dsimp +zetaDelta only | split

theorem discardObjects_inv (s : State) (r : Nat) (old : Nat → Bool) (heir : Nat) (h1 : StateInv s) :
    StateInv (discardObjects s r old heir) := by
  unfold discardObjects; try dsimp only
  repeat' first | (with_reducible first | assumption | apply inv_ite | apply inv_foldl | apply cancelPlan_inv | apply discardComm_inv | apply discardJob_inv | apply discardQueues_inv | apply discardSeq_inv | apply dropQp_inv | apply State.modRdma_inv | apply State.modSeal_inv | apply passStorage_inv) | simp only [↓inv_mk] | with_reducible intro _ | dsimp +zetaDelta only | split

theorem dropWaits_inv (s : State) (r : Nat) (h1 : StateInv s) :
    StateInv (dropWaits s r) := by
  unfold dropWaits; try dsimp only
  repeat' first | (with_reducible first | assumption | apply State.modPath_inv) | simp only [↓inv_mk] | with_reducible intro _ | dsimp +zetaDelta only | split

theorem freeOrphanRings_inv (s : State) (r : Nat) (h1 : StateInv s) :
    StateInv (freeOrphanRings s r) := by
  unfold freeOrphanRings; try dsimp only
  repeat' first | (with_reducible first | assumption | apply inv_ite | apply inv_foldl | apply dropWaits_inv | apply State.modRing_inv) | simp only [↓inv_mk] | with_reducible intro _ | dsimp +zetaDelta only | split

theorem discardSet_inv (s : State) (r : Nat) (expiry : Bool) (h1 : StateInv s) :
    StateInv (discardSet s r expiry) := by
  unfold discardSet; try dsimp only
  repeat' first | (with_reducible first | assumption | apply inv_ite | apply discardObjects_inv | apply freeOrphanRings_inv | apply State.modFn_inv | apply postAll_inv) | simp only [↓inv_mk] | with_reducible intro _ | dsimp +zetaDelta only | split

theorem orphanRing_inv (s : State) (r i : Nat) (h1 : StateInv s) :
    StateInv (orphanRing s r i) := by
  unfold orphanRing; try dsimp only
  repeat' first | (with_reducible first | assumption | apply inv_ite | apply inv_foldl | apply finishOne_inv | apply State.modRing_inv) | simp only [↓inv_mk] | with_reducible intro _ | dsimp +zetaDelta only | split

theorem endHostWork_inv (s : State) (r : Nat) (h1 : StateInv s) :
    StateInv (endHostWork s r) := by
  unfold endHostWork; try dsimp only
  repeat' first | (with_reducible first | assumption | apply inv_ite | apply inv_foldl | apply failHostCtxs_inv | apply failTake_inv | apply finish_inv | apply State.modNetPort_inv | apply State.modPath_inv | apply qpError_inv) | simp only [↓inv_mk] | with_reducible intro _ | dsimp +zetaDelta only | split

theorem loseDriver_inv (s : State) (r cause : Nat) (h1 : StateInv s) :
    StateInv (loseDriver s r cause) := by
  unfold loseDriver; try dsimp only
  repeat' first | (with_reducible first | assumption | apply inv_foldl | apply endHostWork_inv | apply State.modFn_inv | apply orphanRing_inv) | simp only [↓inv_mk] | with_reducible intro _ | dsimp +zetaDelta only | split

theorem releaseAll_inv (s : State) (r : Nat) (h1 : StateInv s) :
    StateInv (releaseAll s r) := by
  unfold releaseAll; try dsimp only
  repeat' first | (with_reducible first | assumption | apply inv_ite | apply inv_foldl | apply discardObjects_inv | apply discardSet_inv | apply dropWaits_inv | apply failHostCtxs_inv | apply State.modRing_inv) | simp only [↓inv_mk] | with_reducible intro _ | dsimp +zetaDelta only | split

theorem resetQuotas_inv (s : State) (r : Nat) (h1 : StateInv s) :
    StateInv (resetQuotas s r) := by
  unfold resetQuotas; try dsimp only
  repeat' first | (with_reducible first | assumption | apply inv_ite | apply inv_foldl | apply State.modFn_inv) | simp only [↓inv_mk] | with_reducible intro _ | dsimp +zetaDelta only | split

theorem resetSets_inv (s : State) (r : Nat) (h1 : StateInv s) :
    StateInv (resetSets s r) := by
  unfold resetSets; try dsimp only
  repeat' first | (with_reducible first | assumption | apply inv_ite | apply State.modCk_inv | apply State.modRdma_inv) | simp only [↓inv_mk] | with_reducible intro _ | dsimp +zetaDelta only | split

theorem resetPort_inv (s : State) (p : Nat) (h1 : StateInv s) :
    StateInv (resetPort s p) := by
  unfold resetPort; try dsimp only
  repeat' first | (with_reducible first | assumption | apply inv_ite | apply goShut_inv | apply State.modPort_inv) | simp only [↓inv_mk] | with_reducible intro _ | dsimp +zetaDelta only | split

theorem resetNetPort_inv (s : State) (r p : Nat) (h1 : StateInv s) :
    StateInv (resetNetPort s r p) := by
  unfold resetNetPort; try dsimp only
  repeat' first | (with_reducible first | assumption | apply inv_foldl | apply inv_foldl1 | apply doBreakout_inv | apply State.modNetIf_inv | apply State.modNetPort_inv | apply refused_inv) | simp only [↓inv_mk] | simp only [↓inv_pair] | (with_reducible first | apply inv_P | (apply inv_fst; assumption)) | with_reducible intro _ | dsimp +zetaDelta only | split

theorem resetPorts_inv (s : State) (r : Nat) (h1 : StateInv s) :
    StateInv (resetPorts s r) := by
  unfold resetPorts; try dsimp only
  repeat' first | (with_reducible first | assumption | apply inv_ite | apply inv_foldl | apply resetNetPort_inv | apply resetPort_inv) | with_reducible intro _ | dsimp +zetaDelta only | split

theorem resetChecks_inv (s : State) (r : Nat) (h1 : StateInv s) :
    StateInv (resetChecks s r) := by
  unfold resetChecks; try dsimp only
  repeat' first | (with_reducible first | assumption | apply inv_foldl | apply cvAbort_inv | apply State.modCv_inv | apply State.modMon_inv) | simp only [↓inv_mk] | with_reducible intro _ | dsimp +zetaDelta only | split

theorem resetRegs_inv (s : State) (r : Nat) (h1 : StateInv s) :
    StateInv (resetRegs s r) := by
  unfold resetRegs; try dsimp only
  repeat' first | (with_reducible first | assumption | apply State.modFn_inv | apply State.modPath_inv | apply resetChecks_inv | apply resetPorts_inv | apply resetQuotas_inv | apply resetSets_inv) | simp only [↓inv_mk] | with_reducible intro _ | dsimp +zetaDelta only | split

theorem startFn_inv (s : State) (r : Nat) (h1 : StateInv s) :
    StateInv (startFn s r) := by
  unfold startFn; try dsimp only
  repeat' first | (with_reducible first | assumption | apply inv_ite | apply ctrlStart_inv | apply State.modFn_inv) | simp only [↓inv_mk] | with_reducible intro _ | dsimp +zetaDelta only | split

theorem drained_inv (s : State) (r : Nat) (h1 : StateInv s) :
    StateInv (drained s r) := by
  unfold drained; try dsimp only
  repeat' first | (with_reducible first | assumption | apply inv_ite | apply emit_inv | apply State.modCtl_inv | apply State.modFn_inv | apply postAll_inv | apply resetRegs_inv | apply startFn_inv) | simp only [↓inv_mk] | with_reducible intro _ | dsimp +zetaDelta only | split

theorem shutDown_inv (s : State) (r cause : Nat) (reads : Bool) (h1 : StateInv s) :
    StateInv (shutDown s r cause reads) := by
  unfold shutDown; try dsimp only
  repeat' first | (with_reducible first | assumption | apply inv_ite | apply ctrlStop_inv | apply drained_inv | apply finish_inv | apply loseDriver_inv | apply State.modFn_inv | apply releaseAll_inv) | simp only [↓inv_mk] | with_reducible intro _ | dsimp +zetaDelta only | split

theorem doEnable_inv (r : Nat) (s : State) (h1 : StateInv s) :
    StateInv (doEnable r s) := by
  unfold doEnable; try dsimp only
  repeat' first | (with_reducible first | assumption | apply inv_ite | apply State.modFn_inv | apply startFn_inv) | simp only [↓inv_mk] | with_reducible intro _ | dsimp +zetaDelta only | split

theorem execFunctionEnable_inv (fn : Nat) (s : State) (h1 : StateInv s) :
    InvC (execFunctionEnable fn s) := by
  unfold execFunctionEnable; try dsimp only
  repeat' first | (with_reducible first | assumption | apply doEnable_inv | apply gated_inv) | (with_reducible first | apply invC_next | apply invC_ite | apply invC_fault | (apply inv_ofC; assumption)) | with_reducible intro _ | dsimp +zetaDelta only

theorem doFnShutdown_inv (r : Nat) (keep enable reads : Bool) (s : State) (h1 : StateInv s) :
    StateInv (doFnShutdown r keep enable reads s) := by
  unfold doFnShutdown; try dsimp only
  repeat' first | (with_reducible first | assumption | apply inv_ite | apply doEnable_inv | apply shutDown_inv) | with_reducible intro _ | dsimp +zetaDelta only

theorem execFunctionShutdown_inv (fn : Nat) (keep enable reads : Bool) (s : State) (h1 : StateInv s) :
    InvC (execFunctionShutdown fn keep enable reads s) := by
  unfold execFunctionShutdown; try dsimp only
  repeat' first | (with_reducible first | assumption | apply doFnShutdown_inv | apply gated_inv) | (with_reducible first | apply invC_next | apply invC_ite | apply invC_fault | (apply inv_ofC; assumption)) | with_reducible intro _ | dsimp +zetaDelta only

theorem execFlr_inv (fn : Nat) (reads : Bool) (s : State) (h1 : StateInv s) :
    InvC (execFlr fn reads s) := by
  unfold execFlr; try dsimp only
  repeat' first | (with_reducible first | assumption | apply configWrite_inv | apply shutDown_inv) | (with_reducible first | apply invC_next | apply invC_ite | apply invC_fault | (apply inv_ofC; assumption)) | with_reducible intro _ | dsimp +zetaDelta only | split

theorem doHotReset_inv (ep : Nat) (reads : List Nat) (s : State) (h1 : StateInv s) :
    StateInv (doHotReset ep reads s) := by
  unfold doHotReset; try dsimp only
  repeat' first | (with_reducible first | assumption | apply inv_ite | apply inv_foldl | apply shutDown_inv) | with_reducible intro _ | dsimp +zetaDelta only | split

theorem execHotReset_inv (ep : Nat) (reads : List Nat) (s : State) (h1 : StateInv s) :
    InvC (execHotReset ep reads s) := by
  unfold execHotReset
  repeat' first | (with_reducible first | assumption | apply doHotReset_inv) | (with_reducible first | apply invC_next | apply invC_ite | apply invC_fault | (apply inv_ofC; assumption)) | with_reducible intro _

theorem execBusMasterClear_inv (fn : Nat) (reads : Bool) (s : State) (h1 : StateInv s) :
    InvC (execBusMasterClear fn reads s) := by
  unfold execBusMasterClear; try dsimp only
  repeat' first | (with_reducible first | assumption | apply configWrite_inv | apply State.modFn_inv | apply shutDown_inv) | simp only [↓inv_mk] | (with_reducible first | apply invC_next | apply invC_ite | apply invC_fault | (apply inv_ofC; assumption)) | with_reducible intro _ | dsimp +zetaDelta only | split

theorem execD3hotEntry_inv (fn : Nat) (reads : Bool) (s : State) (h1 : StateInv s) :
    InvC (execD3hotEntry fn reads s) := by
  unfold execD3hotEntry; try dsimp only
  repeat' first | (with_reducible first | assumption | apply configWrite_inv | apply State.modFn_inv | apply shutDown_inv) | simp only [↓inv_mk] | (with_reducible first | apply invC_next | apply invC_ite | apply invC_fault | (apply inv_ofC; assumption)) | with_reducible intro _ | dsimp +zetaDelta only | split

theorem doCcClear_inv (r : Nat) (reads : Bool) (s : State) (h1 : StateInv s) :
    StateInv (doCcClear r reads s) := by
  unfold doCcClear; try dsimp only
  repeat' first | (with_reducible first | assumption | apply inv_ite | apply State.modCtl_inv | apply State.modFn_inv | apply shutDown_inv) | simp only [↓inv_mk] | with_reducible intro _ | dsimp +zetaDelta only | split

theorem execCcEnClear_inv (fn : Nat) (reads : Bool) (s : State) (h1 : StateInv s) :
    InvC (execCcEnClear fn reads s) := by
  unfold execCcEnClear
  repeat' first | (with_reducible first | assumption | apply doCcClear_inv | apply gated_inv) | (with_reducible first | apply invC_next | apply invC_ite | apply invC_fault | (apply inv_ofC; assumption)) | with_reducible intro _

theorem execFunctionDrained_inv (fn : Nat) (s : State) (h1 : StateInv s) :
    InvC (execFunctionDrained fn s) := by
  unfold execFunctionDrained
  repeat' first | (with_reducible first | assumption | apply drained_inv) | (with_reducible first | apply invC_next | apply invC_ite | apply invC_fault | (apply inv_ofC; assumption)) | with_reducible intro _

theorem doDrainBound_inv (r : Nat) (s : State) (h1 : StateInv s) :
    StateInv (doDrainBound r s) := by
  unfold doDrainBound
  repeat' first | (with_reducible first | assumption | apply inv_ite | apply advanceTo_inv | apply drained_inv | apply logTimeout_inv) | with_reducible intro _

theorem execDrainBoundExpiry_inv (fn : Nat) (s : State) (h1 : StateInv s) :
    InvC (execDrainBoundExpiry fn s) := by
  unfold execDrainBoundExpiry
  repeat' first | (with_reducible first | assumption | apply doDrainBound_inv) | (with_reducible first | apply invC_next | apply invC_ite | apply invC_fault | (apply inv_ofC; assumption)) | with_reducible intro _

theorem doLeaseExpiry_inv (r : Nat) (reads : Bool) (s : State) (h1 : StateInv s) :
    StateInv (doLeaseExpiry r reads s) := by
  unfold doLeaseExpiry; try dsimp only
  repeat' first | (with_reducible first | assumption | apply inv_ite | apply advanceTo_inv | apply shutDown_inv) | with_reducible intro _ | dsimp +zetaDelta only

theorem execLeaseExpiry_inv (fn : Nat) (reads : Bool) (s : State) (h1 : StateInv s) :
    InvC (execLeaseExpiry fn reads s) := by
  unfold execLeaseExpiry
  repeat' first | (with_reducible first | assumption | apply doLeaseExpiry_inv) | (with_reducible first | apply invC_next | apply invC_ite | apply invC_fault | (apply inv_ofC; assumption)) | with_reducible intro _

theorem doVfEnable_inv (r n : Nat) (s : State) (h1 : StateInv s) :
    StateInv (doVfEnable r n s) := by
  unfold doVfEnable; try dsimp only
  repeat' first | (with_reducible first | assumption | apply inv_ite | apply inv_foldl | apply State.modFn_inv) | simp only [↓inv_mk] | with_reducible intro _ | dsimp +zetaDelta only | split

theorem execVfEnableSet_inv (pf num : Nat) (s : State) (h1 : StateInv s) :
    InvC (execVfEnableSet pf num s) := by
  unfold execVfEnableSet
  repeat' first | (with_reducible first | assumption | apply configWrite_inv | apply doVfEnable_inv) | (with_reducible first | apply invC_next | apply invC_ite | apply invC_fault | (apply inv_ofC; assumption)) | with_reducible intro _

theorem doVfDisable_inv (r : Nat) (reads : List Nat) (s : State) (h1 : StateInv s) :
    StateInv (doVfDisable r reads s) := by
  unfold doVfDisable; try dsimp only
  repeat' first | (with_reducible first | assumption | apply inv_ite | apply inv_foldl | apply State.modFn_inv | apply shutDown_inv) | simp only [↓inv_mk] | with_reducible intro _ | dsimp +zetaDelta only | split

theorem execVfEnableClear_inv (pf : Nat) (reads : List Nat) (s : State) (h1 : StateInv s) :
    InvC (execVfEnableClear pf reads s) := by
  unfold execVfEnableClear
  repeat' first | (with_reducible first | assumption | apply configWrite_inv | apply doVfDisable_inv) | (with_reducible first | apply invC_next | apply invC_ite | apply invC_fault | (apply inv_ofC; assumption)) | with_reducible intro _

theorem doQuota_inv (r n : Nat) (second : Bool) (v : Nat) (s : State) (h1 : StateInv s) :
    StateInv (doQuota r n second v s) := by
  unfold doQuota; try dsimp only
  repeat' first | (with_reducible first | assumption | apply inv_ite | apply State.modFn_inv | apply postEvent_inv) | simp only [↓inv_mk] | with_reducible intro _ | dsimp +zetaDelta only | split

theorem execVfQuotaWrite_inv (pf vf : Nat) (second : Bool) (value : BitVec 64) (s : State) (h1 : StateInv s) :
    InvC (execVfQuotaWrite pf vf second value s) := by
  unfold execVfQuotaWrite
  repeat' first | (with_reducible first | assumption | apply doQuota_inv | apply gated_inv) | (with_reducible first | apply invC_next | apply invC_ite | apply invC_fault | (apply inv_ofC; assumption)) | with_reducible intro _

theorem orphanEnd_inv (s : State) (r status : Nat) (h1 : StateInv s) :
    StateInv (orphanEnd s r status) := by
  unfold orphanEnd; try dsimp only
  repeat' first | (with_reducible first | assumption | apply State.modFn_inv) | simp only [↓inv_mk] | with_reducible intro _ | dsimp +zetaDelta only | split

theorem orphanAct_inv (s : State) (r : Nat) (act : State → State) (h1 : StateInv s) (h2 : ∀ (y0 : State), StateInv y0 → StateInv (act y0)) :
    StateInv (orphanAct s r act) := by
  unfold orphanAct
  repeat' first | (with_reducible first | assumption | apply inv_ite | apply h2 | apply orphanEnd_inv) | with_reducible intro _

theorem adoptRing_inv (s : State) (r : Nat) (e : Nat × DirEntry) (h1 : StateInv s) :
    StateInv (adoptRing s r e) := by
  unfold adoptRing; try dsimp only
  repeat' first | (with_reducible first | assumption | apply inv_ite | apply armLease_inv | apply State.modRing_inv) | simp only [↓inv_mk] | with_reducible intro _ | dsimp +zetaDelta only | split

theorem doAdopt_inv (r : Nat) (reads : List HRead) (s : State) (h1 : StateInv s) :
    StateInv (doAdopt r reads s) := by
  unfold doAdopt; try dsimp only
  repeat' first | (with_reducible first | assumption | apply inv_ite | apply inv_foldl | apply adoptRing_inv | apply hostWrite_inv | apply State.modFn_inv | apply orphanAct_inv | apply orphanEnd_inv | apply passObjects_inv) | simp only [↓inv_mk] | with_reducible intro _ | dsimp +zetaDelta only | split

theorem execOrphanAdopt_inv (fn : Nat) (entries : List HRead) (s : State) (h1 : StateInv s) :
    InvC (execOrphanAdopt fn entries s) := by
  unfold execOrphanAdopt
  repeat' first | (with_reducible first | assumption | apply doAdopt_inv | apply gated_inv) | (with_reducible first | apply invC_next | apply invC_ite | apply invC_fault | (apply inv_ofC; assumption)) | with_reducible intro _

theorem execOrphanDiscard_inv (fn : Nat) (s : State) (h1 : StateInv s) :
    InvC (execOrphanDiscard fn s) := by
  unfold execOrphanDiscard; try dsimp only
  repeat' first | (with_reducible first | assumption | apply discardSet_inv | apply gated_inv | apply orphanAct_inv | apply orphanEnd_inv) | (with_reducible first | apply invC_next | apply invC_ite | apply invC_fault | (apply inv_ofC; assumption)) | with_reducible intro _ | dsimp +zetaDelta only | split

theorem doHoldExpiry_inv (r : Nat) (s : State) (h1 : StateInv s) :
    StateInv (doHoldExpiry r s) := by
  unfold doHoldExpiry
  repeat' first | (with_reducible first | assumption | apply advanceTo_inv | apply discardSet_inv) | split

theorem execOrphanHoldExpiry_inv (fn : Nat) (s : State) (h1 : StateInv s) :
    InvC (execOrphanHoldExpiry fn s) := by
  unfold execOrphanHoldExpiry
  repeat' first | (with_reducible first | assumption | apply doHoldExpiry_inv) | (with_reducible first | apply invC_next | apply invC_ite | apply invC_fault | (apply inv_ofC; assumption)) | with_reducible intro _

theorem loadComps_inv (s : State) (x : ImageSet) (ids : Nat → Bool) (h1 : StateInv s) :
    StateInv (loadComps s x ids) := by
  unfold loadComps; try dsimp only
  repeat' first | (with_reducible first | assumption | apply inv_foldl) | simp only [↓inv_mk] | with_reducible intro _ | dsimp +zetaDelta only | split

theorem doFlashFault_inv (device : Nat) (s : State) (h1 : StateInv s) :
    StateInv (doFlashFault device s) := by
  unfold doFlashFault; try dsimp only
  repeat' first | (with_reducible first | assumption | apply inv_ite | apply State.modTrust_inv | apply postTrust_inv) | simp only [↓inv_mk] | with_reducible intro _ | dsimp +zetaDelta only | split

theorem execFlashFault_inv (device : Nat) (s : State) (h1 : StateInv s) :
    InvC (execFlashFault device s) := by
  unfold execFlashFault
  repeat' first | (with_reducible first | assumption | apply doFlashFault_inv) | (with_reducible first | apply invC_next | apply invC_ite | apply invC_fault | (apply inv_ofC; assumption)) | with_reducible intro _

theorem bootFrom_inv (s : State) (k : Nat) (fallback : Bool) (h1 : StateInv s) :
    StateInv (bootFrom s k fallback) := by
  unfold bootFrom; try dsimp only
  repeat' first | (with_reducible first | assumption | apply inv_ite | apply auditOwn_inv | apply loadComps_inv | apply State.modTrust_inv | apply startKeeper_inv) | simp only [↓inv_mk] | with_reducible intro _ | dsimp +zetaDelta only | split

theorem readTrust_inv (s : State) (h1 : StateInv s) :
    StateInv (readTrust s) := by
  unfold readTrust; try dsimp only
  repeat' first | (with_reducible first | assumption | apply inv_ite | apply State.modTrust_inv | apply reserveLeaves_inv) | simp only [↓inv_mk] | with_reducible intro _ | dsimp +zetaDelta only | split

theorem doPowerGood_inv (s : State) (h1 : StateInv s) : StateInv (doPowerGood s) := by
  unfold doPowerGood; dsimp only
  have h2 : StateInv (readTrust ({ s with clock := { at_ := s.vcycle } }.modPow (fun w => { w with romDone := true, startAt := s.vcycle }))) :=
    readTrust_inv _ (State.modPow_inv _ _ (inv_clock h1 ⟨by show (-(10 ^ 8) : Int) ≤ 0; decide, by show (0 : Int) ≤ 10 ^ 8; decide⟩))
  refine inv_ite (fun _ => h1) (fun _ => ?_)
  split
  · exact auditOwn_inv _ _ _ (State.modTrust_inv _ _ h2)
  · exact State.modTrust_inv _ _ (bootFrom_inv _ _ _ h2)

theorem execPowerGood_inv (s : State) (h1 : StateInv s) :
    InvC (execPowerGood s) := by
  unfold execPowerGood
  repeat' first | (with_reducible first | assumption | apply doPowerGood_inv) | (with_reducible first | apply invC_next | apply invC_ite | apply invC_fault | (apply inv_ofC; assumption)) | with_reducible intro _

theorem doPowerLoss_inv (s : State) (h1 : StateInv s) : StateInv (doPowerLoss s) := by
  have h : StateInv State.reset := by unfold StateInv; decide +kernel
  unfold doPowerLoss; exact h

theorem execPowerLoss_inv (s : State) (h1 : StateInv s) :
    InvC (execPowerLoss s) := by
  unfold execPowerLoss
  repeat' first | (with_reducible first | assumption | apply doPowerLoss_inv) | (with_reducible first | apply invC_next | apply invC_ite | apply invC_fault | (apply inv_ofC; assumption)) | with_reducible intro _

theorem endDomCommands_inv (s : State) (h1 : StateInv s) :
    StateInv (endDomCommands s) := by
  unfold endDomCommands; try dsimp only
  repeat' first | (with_reducible first | assumption | apply inv_foldl | apply act_inv | apply finish_inv) | with_reducible intro _ | dsimp +zetaDelta only | split

theorem stopFns_inv (s : State) (h1 : StateInv s) :
    StateInv (stopFns s) := by
  unfold stopFns; try dsimp only
  repeat' first | (with_reducible first | assumption | apply inv_foldl | apply discardSet_inv | apply State.modFn_inv | apply shutDown_inv) | simp only [↓inv_mk] | with_reducible intro _ | dsimp +zetaDelta only | split

theorem clearNode_inv (s : State) (h1 : StateInv s) : StateInv (clearNode s) :=
  inv_cap (s := { s with stack := [] }) (inv_stack h1 rfl) ⟨by decide +kernel, by decide +kernel⟩

theorem dropActivation_inv (s : State) (h1 : StateInv s) :
    StateInv (dropActivation s) := by
  unfold dropActivation; try dsimp only
  repeat' first | (with_reducible first | assumption | apply act_inv | apply answer_inv | apply finish_inv | apply State.modTrust_inv) | simp only [↓inv_mk] | with_reducible intro _ | dsimp +zetaDelta only | split

theorem capsChanged_inv (old s : State) (r : Nat) (h1 : StateInv old) (h2 : StateInv s) :
    StateInv (capsChanged old s r) := by
  unfold capsChanged; try dsimp only
  repeat' first | (with_reducible first | assumption | apply inv_ite | apply inv_foldl | apply postEvent_inv) | with_reducible intro _ | dsimp +zetaDelta only | split

theorem capChanged_inv (old s : State) (h1 : StateInv old) (h2 : StateInv s) :
    StateInv (capChanged old s) := by
  unfold capChanged
  repeat' first | (with_reducible first | assumption | apply inv_foldl | apply capsChanged_inv) | with_reducible intro _

theorem warmRestart_inv (s : State) (h1 : StateInv s) :
    StateInv (warmRestart s) := by
  unfold warmRestart; try dsimp only
  repeat' first | (with_reducible first | assumption | apply inv_ite | apply capChanged_inv | apply clearNode_inv | apply dropActivation_inv | apply endDomCommands_inv | apply loadComps_inv | apply State.modPow_inv | apply State.modTrust_inv | apply settleModes_inv | apply stopFns_inv) | simp only [↓inv_mk] | simp only [↓invX_mk] | simp only [↓invXP_pair] | (with_reducible first | apply invXP_ite | apply invXP_foldl | apply inv_XP | apply invX_ite | apply invX_foldl | apply invX_s) | with_reducible intro _ | dsimp +zetaDelta only | split

theorem inputFault_inv (condition mv : Nat) (s : State) (h1 : StateInv s) :
    StateInv (inputFault condition mv s) := by
  unfold inputFault; try dsimp only
  repeat' first | (with_reducible first | assumption | apply inv_ite | apply inv_foldl | apply cutDomain_inv | apply State.modPow_inv | apply postPd_inv) | simp only [↓inv_mk] | with_reducible intro _ | dsimp +zetaDelta only | split

theorem execInputUndervoltage_inv (mv : Nat) (s : State) (h1 : StateInv s) :
    InvC (execInputUndervoltage mv s) := by
  unfold execInputUndervoltage
  repeat' first | (with_reducible first | assumption | apply inv_ite | apply inputFault_inv) | (with_reducible first | apply invC_next | apply invC_ite | apply invC_fault | (apply inv_ofC; assumption)) | with_reducible intro _

theorem execInputOvervoltage_inv (mv : Nat) (s : State) (h1 : StateInv s) :
    InvC (execInputOvervoltage mv s) := by
  unfold execInputOvervoltage
  repeat' first | (with_reducible first | assumption | apply inv_ite | apply inputFault_inv) | (with_reducible first | apply invC_next | apply invC_ite | apply invC_fault | (apply inv_ofC; assumption)) | with_reducible intro _

theorem doInputReturn_inv (mv : Nat) (s : State) (h1 : StateInv s) :
    StateInv (doInputReturn mv s) := by
  unfold doInputReturn; try dsimp only
  repeat' first | (with_reducible first | assumption | apply inv_ite | apply warmRestart_inv) | simp only [↓invX_mk] | simp only [↓invXP_pair] | (with_reducible first | apply invXP_ite | apply invXP_foldl | apply inv_XP | apply invX_ite | apply invX_foldl | apply invX_s) | with_reducible intro _ | dsimp +zetaDelta only | split

theorem execInputReturn_inv (mv : Nat) (s : State) (h1 : StateInv s) :
    InvC (execInputReturn mv s) := by
  unfold execInputReturn
  repeat' first | (with_reducible first | assumption | apply doInputReturn_inv) | (with_reducible first | apply invC_next | apply invC_ite | apply invC_fault | (apply inv_ofC; assumption)) | with_reducible intro _

theorem bringUp_inv (failed : List Nat) (s : State) (d : Nat) (h1 : StateInv s) :
    StateInv (bringUp failed s d) := by
  unfold bringUp; try dsimp only
  repeat' first | (with_reducible first | assumption | apply inv_ite | apply State.modDom_inv | apply postPd_inv | apply startCores_inv) | simp only [↓inv_mk] | with_reducible intro _ | dsimp +zetaDelta only | split

theorem startFault_inv (s : State) (h1 : StateInv s) :
    StateInv (startFault s) := by
  unfold startFault; try dsimp only
  repeat' first | (with_reducible first | assumption | apply State.modPow_inv) | simp only [↓inv_mk] | with_reducible intro _ | dsimp +zetaDelta only | split

theorem reachStage_inv (s : State) (k : Nat) (h1 : StateInv s) :
    StateInv (reachStage s k) := by
  unfold reachStage; try dsimp only
  repeat' first | (with_reducible first | assumption | apply State.modPow_inv | apply postPd_inv) | simp only [↓inv_mk] | with_reducible intro _ | dsimp +zetaDelta only | split

theorem openShutters_inv (s : State) (h1 : StateInv s) :
    StateInv (openShutters s) := by
  unfold openShutters; try dsimp only
  repeat' first | (with_reducible first | assumption | apply inv_ite | apply inv_foldl | apply State.modNetPort_inv | apply tryOpen_inv) | simp only [↓inv_mk] | with_reducible intro _ | dsimp +zetaDelta only | split

theorem settleHeld_inv (s : State) (h1 : StateInv s) :
    StateInv (settleHeld s) := by
  unfold settleHeld; try dsimp only
  repeat' first | (with_reducible first | assumption | apply State.modPow_inv) | simp only [↓inv_mk] | with_reducible intro _ | dsimp +zetaDelta only | split

theorem releaseEnables_inv (s : State) (h1 : StateInv s) :
    StateInv (releaseEnables s) := by
  unfold releaseEnables; try dsimp only
  repeat' first | (with_reducible first | assumption | apply inv_ite | apply inv_foldl | apply State.modFn_inv | apply startFn_inv) | simp only [↓inv_mk] | with_reducible intro _ | dsimp +zetaDelta only | split

theorem enterStage4_inv (s : State) (h1 : StateInv s) :
    StateInv (enterStage4 s) := by
  unfold enterStage4; try dsimp only
  repeat' first | (with_reducible first | assumption | apply inv_ite | apply inv_foldl | apply State.modFn_inv | apply State.modPow_inv | apply State.modTrust_inv | apply nextChange_inv | apply openShutters_inv | apply releaseEnables_inv | apply settleModes_inv) | simp only [↓inv_mk] | with_reducible intro _ | dsimp +zetaDelta only | split

theorem assignJournals_inv (s : State) (h1 : StateInv s) :
    StateInv (assignJournals s) := by
  unfold assignJournals; try dsimp only
  repeat' first | (with_reducible first | assumption | apply inv_ite) | simp only [↓inv_mk] | with_reducible intro _ | dsimp +zetaDelta only | split

theorem doStage_inv (failed : List Nat) (die : Bool) (s : State) (h1 : StateInv s) :
    StateInv (doStage failed die s) := by
  unfold doStage; try dsimp only
  repeat' first | (with_reducible first | assumption | apply inv_ite | apply inv_foldl | apply assignJournals_inv | apply bringUp_inv | apply capChanged_inv | apply enterStage4_inv | apply State.modPow_inv | apply State.modTrust_inv | apply openShutters_inv | apply postTrust_inv | apply reachStage_inv | apply setRails_inv | apply settleHeld_inv | apply settleSto_inv | apply startFault_inv | apply startFn_inv) | simp only [↓inv_mk] | (with_reducible first | apply inv_nil) | with_reducible intro _ | dsimp +zetaDelta only | split

theorem execStageReached_inv (failed : List Nat) (die : Bool) (s : State) (h1 : StateInv s) :
    InvC (execStageReached failed die s) := by
  unfold execStageReached
  repeat' first | (with_reducible first | assumption | apply doStage_inv) | (with_reducible first | apply invC_next | apply invC_ite | apply invC_fault | (apply inv_ofC; assumption)) | with_reducible intro _

theorem doKeepersBack_inv (s : State) (h1 : StateInv s) :
    StateInv (doKeepersBack s) := by
  unfold doKeepersBack; try dsimp only
  repeat' first | (with_reducible first | assumption | apply inv_ite | apply bootFrom_inv | apply State.modTrust_inv | apply postTrust_inv | apply takePf0Rings_inv | apply unholdAll_inv) | simp only [↓inv_mk] | simp only [↓invX_mk] | simp only [↓invXP_pair] | (with_reducible first | apply invXP_ite | apply invXP_foldl | apply inv_XP | apply invX_ite | apply invX_foldl | apply invX_s) | with_reducible intro _ | dsimp +zetaDelta only | split

theorem execKeeperRomRestartComplete_inv (s : State) (h1 : StateInv s) :
    InvC (execKeeperRomRestartComplete s) := by
  unfold execKeeperRomRestartComplete
  repeat' first | (with_reducible first | assumption | apply doKeepersBack_inv) | simp only [↓invX_mk] | simp only [↓invXP_pair] | (with_reducible first | apply invXP_ite | apply invXP_foldl | apply inv_XP | apply invX_ite | apply invX_foldl | apply invX_s | apply invC_next | apply invC_ite | apply invC_fault | (apply inv_ofC; assumption)) | with_reducible intro _ | dsimp +zetaDelta only | split

theorem inSetOrder_inv (r i : Nat) (act : State → State) (s : State) (h1 : ∀ (y0 : State), StateInv y0 → StateInv (act y0)) (h2 : StateInv s) :
    StateInv (inSetOrder r i act s) := by
  unfold inSetOrder
  repeat' first | (with_reducible first | assumption | apply inv_ite | apply h1) | with_reducible intro _

theorem installAll_inv (z0 : Nat) (z1 : State) (z2 : Nat) (z3 : List Nat) (z4 : Nat) (h1 : StateInv z1) :
    InvO (installAll z0 z1 z2 z3 z4) := by
  fun_induction installAll z0 z1 z2 z3 z4 <;> try dsimp +zetaDelta only
  all_goals repeat' first | (with_reducible first | assumption | apply inv_ite | apply State.modSet_inv) | simp only [↓inv_mk] | (with_reducible first | apply invO_none | apply invO_some | apply invO_ite | (apply inv_of; assumption)) | with_reducible apply_assumption -exfalso | with_reducible intro _ | dsimp +zetaDelta only | split

theorem dropTx_inv (s : State) (l : Lane) (h1 : StateInv s) :
    StateInv (dropTx s l) := by
  unfold dropTx
  repeat' first | (with_reducible first | assumption | apply finish_inv) | split

theorem dropLane_inv (s : State) (tx : Bool) (l : Lane) (h1 : StateInv s) :
    StateInv (dropLane s tx l) := by
  unfold dropLane
  repeat' first | (with_reducible first | assumption | apply inv_ite | apply dropTx_inv) | with_reducible intro _

theorem toTransport_inv (s : State) (j : Nat) (fr : List Byte) (h1 : StateInv s) :
    StateInv (toTransport s j fr) := by
  unfold toTransport; try dsimp only
  repeat' first | (with_reducible first | assumption | apply State.modRtile_inv) | simp only [↓inv_mk] | with_reducible intro _ | dsimp +zetaDelta only | split

theorem noSet_inv (s : State) (t : Nat) (tx : Bool) (l : Lane) (h1 : StateInv s) :
    StateInv (noSet s t tx l) := by
  unfold noSet; try dsimp only
  repeat' first | (with_reducible first | assumption | apply inv_ite | apply joinTx_inv | apply State.modCtile_inv | apply toTransport_inv) | simp only [↓inv_mk] | with_reducible intro _ | dsimp +zetaDelta only | split

theorem verdict_inv (s : State) (t die : Nat) (tx : Bool) (l : Lane) (owner a hash : Nat) (h1 : StateInv s) :
    StateInv (verdict s t die tx l owner a hash) := by
  unfold verdict; try dsimp only
  repeat' first | (with_reducible first | assumption | apply inv_ite | apply inv_ite1 | apply deliverRx_inv | apply dropLane_inv | apply dropTx_inv | apply espSeal_inv | apply joinTx_inv | apply State.modCtile_inv | apply tapUnit_inv | apply toTransport_inv) | simp only [↓inv_mk] | simp only [↓inv_pair] | (with_reducible first | apply inv_P | (apply inv_fst; assumption)) | with_reducible intro _ | dsimp +zetaDelta only | split

theorem act_inv (s : State) (t k : Nat) (r : RuleSet) (tx : Bool) (l : Lane) (a : Nat) (ps : Parsed) (hash : Nat) (h1 : StateInv s) :
    StateInv (act s t k r tx l a ps hash) := by
  unfold act; try dsimp only
  repeat' first | (with_reducible first | assumption | apply inv_ite | apply inv_ite1 | apply inv_foldl | apply inv_foldl1 | apply dropLane_inv | apply espOpen_inv | apply State.modCtile_inv | apply State.modSet_inv | apply police_inv | apply verdict_inv) | simp only [↓inv_mk] | simp only [↓inv_pair] | (with_reducible first | apply inv_P | (apply inv_fst; assumption)) | with_reducible intro _ | dsimp +zetaDelta only | split

theorem runPass_inv (s : State) (t : Nat) (tx : Bool) (l : Lane) (h1 : StateInv s) :
    StateInv (runPass s t tx l) := by
  unfold runPass; try dsimp only
  repeat' first | (with_reducible first | assumption | apply inv_ite | apply act_inv | apply dropLane_inv | apply State.modCtile_inv | apply noSet_inv) | simp only [↓inv_mk] | with_reducible intro _ | dsimp +zetaDelta only | split

theorem doPass_inv (t : Nat) (tx : Bool) (s : State) (h1 : StateInv s) :
    StateInv (doPass t tx s) := by
  unfold doPass; try dsimp only
  repeat' first | (with_reducible first | assumption | apply inv_ite | apply State.modCtile_inv | apply reclaim_inv | apply runPass_inv) | simp only [↓inv_mk] | with_reducible intro _ | dsimp +zetaDelta only | split

theorem execClassifyPass_inv (net : Nat) (tx : Bool) (s : State) (h1 : StateInv s) :
    InvC (execClassifyPass net tx s) := by
  unfold execClassifyPass
  repeat' first | (with_reducible first | assumption | apply doPass_inv) | (with_reducible first | apply invC_next | apply invC_ite | apply invC_fault | (apply inv_ofC; assumption)) | with_reducible intro _

theorem doRxFrame_inv (j : Nat) (fr : List Byte) (s : State) (h1 : StateInv s) :
    StateInv (doRxFrame j fr s) := by
  unfold doRxFrame; try dsimp only
  repeat' first | (with_reducible first | assumption | apply inv_ite | apply addTotal_inv | apply countOverflow_inv | apply State.modCtile_inv | apply tapUnit_inv) | simp only [↓inv_mk] | with_reducible intro _ | dsimp +zetaDelta only | split

theorem execRxFrame_inv (iface : Nat) (frame : List (BitVec 8)) (s : State) (h1 : StateInv s) :
    InvC (execRxFrame iface frame s) := by
  unfold execRxFrame
  repeat' first | (with_reducible first | assumption | apply doRxFrame_inv) | (with_reducible first | apply invC_next | apply invC_ite | apply invC_fault | (apply inv_ofC; assumption)) | with_reducible intro _

theorem graphLoad_inv (r d : Nat) (image : HRead) (sig : List Byte) (graph : Graph) (s : State) (h1 : StateInv s) :
    InvP (graphLoad r d image sig graph s) := by
  unfold graphLoad; try dsimp only
  repeat' first | (with_reducible first | assumption | apply inv_ite | apply inv_ite1 | apply audited_inv | apply bad_inv | apply State.modCls_inv | apply okR_inv) | simp only [↓inv_mk] | simp only [↓inv_pair] | (with_reducible first | apply inv_P | (apply inv_fst; assumption)) | with_reducible intro _ | dsimp +zetaDelta only | split

theorem execGraphLoad_inv (fn ring : Nat) (image : HRead) (sig : List (BitVec 8)) (graph : Graph) (s : State) (h1 : StateInv s) :
    InvC (execGraphLoad fn ring image sig graph s) := by
  unfold execGraphLoad; try dsimp only
  repeat' first | (with_reducible first | assumption | apply graphLoad_inv | apply onDesc_inv) | simp only [↓inv_pair] | (with_reducible first | apply inv_P | apply invC_next | apply invC_ite | apply invC_fault | (apply inv_ofC; assumption) | (apply inv_fst; assumption)) | with_reducible intro _ | dsimp +zetaDelta only | split

theorem graphUnload_inv (r d : Nat) (s : State) (h1 : StateInv s) :
    InvP (graphUnload r d s) := by
  unfold graphUnload; try dsimp only
  repeat' first | (with_reducible first | assumption | apply inv_ite | apply inv_ite1 | apply bad_inv | apply State.modCls_inv | apply ok0_inv) | simp only [↓inv_mk] | simp only [↓inv_pair] | (with_reducible first | apply inv_P | (apply inv_fst; assumption)) | with_reducible intro _ | dsimp +zetaDelta only | split

theorem execGraphUnload_inv (fn ring : Nat) (s : State) (h1 : StateInv s) :
    InvC (execGraphUnload fn ring s) := by
  unfold execGraphUnload; try dsimp only
  repeat' first | (with_reducible first | assumption | apply graphUnload_inv | apply onDesc_inv) | simp only [↓inv_pair] | (with_reducible first | apply inv_P | apply invC_next | apply invC_ite | apply invC_fault | (apply inv_ofC; assumption) | (apply inv_fst; assumption)) | with_reducible intro _ | dsimp +zetaDelta only | split

theorem setCreate_inv (r i d : Nat) (rec_ : HRead) (s : State) (h1 : StateInv s) :
    InvP (setCreate r i d rec_ s) := by
  unfold setCreate; try dsimp only
  repeat' first | (with_reducible first | assumption | apply inv_ite | apply inv_ite1 | apply bad_inv | apply State.modCls_inv | apply okR_inv) | simp only [↓inv_mk] | simp only [↓inv_pair] | (with_reducible first | apply inv_P | (apply inv_fst; assumption)) | with_reducible intro _ | dsimp +zetaDelta only | split

theorem execSetCreate_inv (fn ring : Nat) (record : HRead) (s : State) (h1 : StateInv s) :
    InvC (execSetCreate fn ring record s) := by
  unfold execSetCreate; try dsimp only
  repeat' first | (with_reducible first | assumption | apply onDesc_inv | apply setCreate_inv) | simp only [↓inv_pair] | (with_reducible first | apply inv_P | apply invC_next | apply invC_ite | apply invC_fault | (apply inv_ofC; assumption) | (apply inv_fst; assumption)) | with_reducible intro _ | dsimp +zetaDelta only | split

theorem withSet_inv (s : State) (r d : Nat) (f : Nat → RuleSet → CmdRes) (h1 : StateInv s) (h2 : ∀ (y0 : Nat) (y1 : RuleSet), InvP (f y0 y1)) :
    InvP (withSet s r d f) := by
  unfold withSet
  repeat' first | (with_reducible first | assumption | apply inv_ite | apply inv_ite1 | apply h2 | apply bad_inv) | simp only [↓inv_pair] | (with_reducible first | apply inv_P | (apply inv_fst; assumption)) | with_reducible intro _ | dsimp +zetaDelta only | split

theorem execSetDestroy_inv (fn ring : Nat) (s : State) (h1 : StateInv s) :
    InvC (execSetDestroy fn ring s) := by
  unfold execSetDestroy; try dsimp only
  repeat' first | (with_reducible first | assumption | apply inv_ite | apply inv_ite1 | apply bad_inv | apply inSetOrder_inv | apply State.modCls_inv | apply ok0_inv | apply onDesc_inv | apply withSet_inv) | simp only [↓inv_mk] | simp only [↓inv_pair] | (with_reducible first | apply inv_P | apply invC_next | apply invC_ite | apply invC_fault | (apply inv_ofC; assumption) | (apply inv_fst; assumption)) | with_reducible intro _ | dsimp +zetaDelta only | split

theorem modPending_inv (s : State) (k : Nat) (f : SetVer → SetVer) (h1 : StateInv s) :
    StateInv (modPending s k f) := by
  unfold modPending; try dsimp only
  repeat' first | (with_reducible first | assumption | apply State.modSet_inv) | simp only [↓inv_mk] | with_reducible intro _ | dsimp +zetaDelta only | split

theorem setConfig_inv (r d : Nat) (rec_ : HRead) (s : State) (h1 : StateInv s) :
    InvP (setConfig r d rec_ s) := by
  unfold setConfig; try dsimp only
  repeat' first | (with_reducible first | assumption | apply inv_ite | apply inv_ite1 | apply bad_inv | apply modPending_inv | apply ok0_inv | apply withSet_inv) | simp only [↓inv_mk] | simp only [↓inv_pair] | (with_reducible first | apply inv_P | (apply inv_fst; assumption)) | with_reducible intro _ | dsimp +zetaDelta only | split

theorem execSetConfig_inv (fn ring : Nat) (record : HRead) (s : State) (h1 : StateInv s) :
    InvC (execSetConfig fn ring record s) := by
  unfold execSetConfig; try dsimp only
  repeat' first | (with_reducible first | assumption | apply inSetOrder_inv | apply onDesc_inv | apply setConfig_inv) | simp only [↓inv_pair] | (with_reducible first | apply inv_P | apply invC_next | apply invC_ite | apply invC_fault | (apply inv_ofC; assumption) | (apply inv_fst; assumption)) | with_reducible intro _ | dsimp +zetaDelta only | split

theorem bindSet_inv (r d : Nat) (s : State) (h1 : StateInv s) :
    InvP (bindSet r d s) := by
  unfold bindSet; try dsimp only
  repeat' first | (with_reducible first | assumption | apply inv_ite | apply inv_ite1 | apply bad_inv | apply modPending_inv | apply ok0_inv | apply withSet_inv) | simp only [↓inv_mk] | simp only [↓inv_pair] | (with_reducible first | apply inv_P | (apply inv_fst; assumption)) | with_reducible intro _ | dsimp +zetaDelta only | split

theorem execBind_inv (fn ring : Nat) (s : State) (h1 : StateInv s) :
    InvC (execBind fn ring s) := by
  unfold execBind; try dsimp only
  repeat' first | (with_reducible first | assumption | apply bindSet_inv | apply inSetOrder_inv | apply onDesc_inv) | simp only [↓inv_pair] | (with_reducible first | apply inv_P | apply invC_next | apply invC_ite | apply invC_fault | (apply inv_ofC; assumption) | (apply inv_fst; assumption)) | with_reducible intro _ | dsimp +zetaDelta only | split

theorem addEntry_inv (s : State) (k rec_ : Nat) (h1 : StateInv s) :
    InvP (addEntry s k rec_) := by
  unfold addEntry; try dsimp only
  repeat' first | (with_reducible first | assumption | apply inv_ite | apply inv_ite1 | apply State.modSet_inv) | simp only [↓inv_mk] | simp only [↓inv_pair] | (with_reducible first | apply inv_P | (apply inv_fst; assumption)) | with_reducible intro _ | dsimp +zetaDelta only | split

theorem delEntry_inv (s : State) (k rec_ : Nat) (h1 : StateInv s) :
    InvP (delEntry s k rec_) := by
  unfold delEntry; try dsimp only
  repeat' first | (with_reducible first | assumption | apply inv_ite | apply inv_ite1 | apply State.modSet_inv) | simp only [↓inv_mk] | simp only [↓inv_pair] | (with_reducible first | apply inv_P | (apply inv_fst; assumption)) | with_reducible intro _ | dsimp +zetaDelta only | split

theorem runRecords_inv (f : State → Nat → State × Nat) (z0 : Nat) (z1 : State) (z2 : List Byte) (z3 : Nat) (h1 : ∀ (y0 : State) (y1 : Nat), StateInv y0 → InvP (f y0 y1)) (h2 : StateInv z1) :
    InvP (runRecords f z0 z1 z2 z3) := by
  fun_induction runRecords f z0 z1 z2 z3 <;> try dsimp +zetaDelta only
  all_goals repeat' first | (with_reducible first | assumption | apply h1) | simp only [↓inv_pair] | (with_reducible first | apply inv_P | (apply inv_fst; assumption)) | with_reducible apply_assumption -exfalso | with_reducible intro _ | dsimp +zetaDelta only | split

theorem entryCmd_inv (add : Bool) (r d : Nat) (recs : HRead) (s : State) (h1 : StateInv s) :
    InvP (entryCmd add r d recs s) := by
  unfold entryCmd; try dsimp only
  repeat' first | (with_reducible first | assumption | apply inv_ite | apply inv_ite1 | apply addEntry_inv | apply bad_inv | apply badR_inv | apply delEntry_inv | apply runRecords_inv | apply withSet_inv) | simp only [↓inv_pair] | (with_reducible first | apply inv_P | (apply inv_fst; assumption)) | with_reducible intro _ | dsimp +zetaDelta only | split

theorem execEntryAdd_inv (fn ring : Nat) (records : HRead) (s : State) (h1 : StateInv s) :
    InvC (execEntryAdd fn ring records s) := by
  unfold execEntryAdd; try dsimp only
  repeat' first | (with_reducible first | assumption | apply entryCmd_inv | apply inSetOrder_inv | apply onDesc_inv) | simp only [↓inv_pair] | (with_reducible first | apply inv_P | apply invC_next | apply invC_ite | apply invC_fault | (apply inv_ofC; assumption) | (apply inv_fst; assumption)) | with_reducible intro _ | dsimp +zetaDelta only | split

theorem execEntryDel_inv (fn ring : Nat) (records : HRead) (s : State) (h1 : StateInv s) :
    InvC (execEntryDel fn ring records s) := by
  unfold execEntryDel; try dsimp only
  repeat' first | (with_reducible first | assumption | apply entryCmd_inv | apply inSetOrder_inv | apply onDesc_inv) | simp only [↓inv_pair] | (with_reducible first | apply inv_P | apply invC_next | apply invC_ite | apply invC_fault | (apply inv_ofC; assumption) | (apply inv_fst; assumption)) | with_reducible intro _ | dsimp +zetaDelta only | split

theorem rangeSet_inv (r d : Nat) (rec_ : HRead) (s : State) (h1 : StateInv s) :
    InvP (rangeSet r d rec_ s) := by
  unfold rangeSet; try dsimp only
  repeat' first | (with_reducible first | assumption | apply inv_ite | apply inv_ite1 | apply bad_inv | apply modPending_inv | apply ok0_inv | apply withSet_inv) | simp only [↓inv_mk] | simp only [↓inv_pair] | (with_reducible first | apply inv_P | (apply inv_fst; assumption)) | with_reducible intro _ | dsimp +zetaDelta only | split

theorem execRangeSet_inv (fn ring : Nat) (record : HRead) (s : State) (h1 : StateInv s) :
    InvC (execRangeSet fn ring record s) := by
  unfold execRangeSet; try dsimp only
  repeat' first | (with_reducible first | assumption | apply inSetOrder_inv | apply onDesc_inv | apply rangeSet_inv) | simp only [↓inv_pair] | (with_reducible first | apply inv_P | apply invC_next | apply invC_ite | apply invC_fault | (apply inv_ofC; assumption) | (apply inv_fst; assumption)) | with_reducible intro _ | dsimp +zetaDelta only | split

theorem legacyLoad_inv (r d : Nat) (image : HRead) (s : State) (h1 : StateInv s) :
    InvP (legacyLoad r d image s) := by
  unfold legacyLoad; try dsimp only
  repeat' first | (with_reducible first | assumption | apply inv_ite | apply inv_ite1 | apply inv_foldl | apply inv_foldl1 | apply bad_inv | apply modPending_inv | apply okR_inv | apply withSet_inv) | simp only [↓inv_mk] | simp only [↓inv_pair] | (with_reducible first | apply inv_P | (apply inv_fst; assumption)) | with_reducible intro _ | dsimp +zetaDelta only | split

theorem execLegacyLoad_inv (fn ring : Nat) (image : HRead) (s : State) (h1 : StateInv s) :
    InvC (execLegacyLoad fn ring image s) := by
  unfold execLegacyLoad; try dsimp only
  repeat' first | (with_reducible first | assumption | apply inSetOrder_inv | apply legacyLoad_inv | apply onDesc_inv) | simp only [↓inv_pair] | (with_reducible first | apply inv_P | apply invC_next | apply invC_ite | apply invC_fault | (apply inv_ofC; assumption) | (apply inv_fst; assumption)) | with_reducible intro _ | dsimp +zetaDelta only | split

theorem setCommit_inv (r d : Nat) (s : State) (h1 : StateInv s) :
    InvP (setCommit r d s) := by
  unfold setCommit; try dsimp only
  repeat' first | (with_reducible first | assumption | apply inv_ite | apply inv_ite1 | apply bad_inv | apply installAll_inv | apply State.modSet_inv | apply okR_inv | apply postEvent_inv | apply reclaim_inv | apply withSet_inv) | simp only [↓inv_mk] | simp only [↓inv_pair] | (with_reducible first | apply inv_P | apply invO_none | apply invO_some | apply invO_ite | (apply inv_of; assumption) | apply invO_bind | (apply inv_fst; assumption)) | with_reducible intro _ | dsimp +zetaDelta only | split

theorem execSetCommit_inv (fn ring : Nat) (s : State) (h1 : StateInv s) :
    InvC (execSetCommit fn ring s) := by
  unfold execSetCommit; try dsimp only
  repeat' first | (with_reducible first | assumption | apply inSetOrder_inv | apply onDesc_inv | apply setCommit_inv) | simp only [↓inv_pair] | (with_reducible first | apply inv_P | apply invC_next | apply invC_ite | apply invC_fault | (apply inv_ofC; assumption) | (apply inv_fst; assumption)) | with_reducible intro _ | dsimp +zetaDelta only | split

theorem counterRead_inv (r d : Nat) (s : State) (h1 : StateInv s) :
    InvP (counterRead r d s) := by
  unfold counterRead; try dsimp only
  repeat' first | (with_reducible first | assumption | apply inv_ite | apply inv_ite1 | apply bad_inv | apply hostWrite_inv | apply okR_inv | apply withSet_inv) | simp only [↓inv_pair] | (with_reducible first | apply inv_P | (apply inv_fst; assumption)) | with_reducible intro _ | dsimp +zetaDelta only | split

theorem execCounterRead_inv (fn ring : Nat) (s : State) (h1 : StateInv s) :
    InvC (execCounterRead fn ring s) := by
  unfold execCounterRead; try dsimp only
  repeat' first | (with_reducible first | assumption | apply counterRead_inv | apply inSetOrder_inv | apply onDesc_inv) | simp only [↓inv_pair] | (with_reducible first | apply inv_P | apply invC_next | apply invC_ite | apply invC_fault | (apply inv_ofC; assumption) | (apply inv_fst; assumption)) | with_reducible intro _ | dsimp +zetaDelta only | split

theorem doConnect_inv (s : State) (h1 : StateInv s) :
    StateInv (doConnect s) := by
  unfold doConnect; try dsimp only
  repeat' first | (with_reducible first | assumption | apply inv_ite | apply emit_inv | apply freeBlock_inv | apply State.modTrust_inv | apply sendClear_inv | apply tickFree_inv) | simp only [↓inv_mk] | with_reducible intro _ | dsimp +zetaDelta only | split

theorem execMgmtConnect_inv (s : State) (h1 : StateInv s) :
    InvC (execMgmtConnect s) := by
  unfold execMgmtConnect
  repeat' first | (with_reducible first | assumption | apply doConnect_inv) | (with_reducible first | apply invC_next | apply invC_ite | apply invC_fault | (apply inv_ofC; assumption)) | with_reducible intro _

theorem openSession_inv (n : Nat) (msg pub : List Byte) (s : State) (h1 : StateInv s) :
    StateInv (openSession n msg pub s) := by
  unfold openSession; try dsimp only
  repeat' first | (with_reducible first | assumption | apply inv_ite | apply closeSession_inv | apply State.modSession_inv | apply sendMsg_inv) | simp only [↓inv_mk] | with_reducible intro _ | dsimp +zetaDelta only | split

theorem execMgmtOpen_inv (session : Nat) (msg pub : List (BitVec 8)) (s : State) (h1 : StateInv s) :
    InvC (execMgmtOpen session msg pub s) := by
  unfold execMgmtOpen
  repeat' first | (with_reducible first | assumption | apply openSession_inv) | (with_reducible first | apply invC_next | apply invC_ite | apply invC_fault | (apply inv_ofC; assumption)) | with_reducible intro _

theorem doIdle_inv (n : Nat) (s : State) (h1 : StateInv s) :
    StateInv (doIdle n s) := by
  unfold doIdle
  repeat' first | (with_reducible first | assumption | apply advanceTo_inv | apply closeSession_inv) | split

theorem execMgmtIdleTimeout_inv (session : Nat) (s : State) (h1 : StateInv s) :
    InvC (execMgmtIdleTimeout session s) := by
  unfold execMgmtIdleTimeout
  repeat' first | (with_reducible first | assumption | apply doIdle_inv) | (with_reducible first | apply invC_next | apply invC_ite | apply invC_fault | (apply inv_ofC; assumption)) | with_reducible intro _

theorem execMgmtClose_inv (session : Nat) (s : State) (h1 : StateInv s) :
    InvC (execMgmtClose session s) := by
  unfold execMgmtClose
  repeat' first | (with_reducible first | assumption | apply closeSession_inv) | (with_reducible first | apply invC_next | apply invC_ite | apply invC_fault | (apply inv_ofC; assumption)) | with_reducible intro _

theorem gatedS_inv (n : Nat) (i : Instr) (act : State → State) (s : State) (h1 : ∀ (y0 : State), StateInv y0 → StateInv (act y0)) (h2 : StateInv s) :
    StateInv (gatedS n i act s) := by
  unfold gatedS; try dsimp only
  repeat' first | (with_reducible first | assumption | apply inv_ite | apply h1) | simp only [↓inv_mk] | with_reducible intro _ | dsimp +zetaDelta only | split

theorem queueCmd_inv (n code : Nat) (sub : Option Nat) (msg : List Byte) (image : ImageSet) (s : State) (h1 : StateInv s) :
    StateInv (queueCmd n code sub msg image s) := by
  unfold queueCmd; try dsimp only
  repeat' first | (with_reducible first | assumption | apply inv_ite | apply State.modTrust_inv | apply onMsg_inv) | simp only [↓inv_mk] | with_reducible intro _ | dsimp +zetaDelta only | split

theorem aOk_inv (s : State) (h1 : StateInv s) :
    InvP (aOk s) := by
  unfold aOk
  repeat' first | (with_reducible first | assumption) | simp only [↓inv_pair] | (with_reducible first | apply inv_P | (apply inv_fst; assumption)) | dsimp +zetaDelta only | split

theorem aBad_inv (s : State) (status : Nat) (h1 : StateInv s) :
    InvP (aBad s status) := by
  unfold aBad
  repeat' first | (with_reducible first | assumption) | simp only [↓inv_pair] | (with_reducible first | apply inv_P | (apply inv_fst; assumption)) | dsimp +zetaDelta only | split

theorem claimEff_inv (b : List Byte) (s : State) (h1 : StateInv s) :
    InvP (claimEff b s) := by
  unfold claimEff; try dsimp only
  repeat' first | (with_reducible first | assumption | apply inv_ite | apply inv_ite1 | apply aBad_inv | apply aOk_inv | apply State.modTrust_inv) | simp only [↓inv_mk] | simp only [↓inv_pair] | (with_reducible first | apply inv_P | (apply inv_fst; assumption)) | with_reducible intro _ | dsimp +zetaDelta only | split

theorem releaseEff_inv (s : State) (h1 : StateInv s) :
    InvP (releaseEff s) := by
  unfold releaseEff; try dsimp only
  repeat' first | (with_reducible first | assumption | apply aOk_inv | apply State.modTrust_inv | apply warmRestart_inv) | simp only [↓inv_mk] | simp only [↓inv_pair] | simp only [↓invX_mk] | simp only [↓invXP_pair] | (with_reducible first | apply invXP_ite | apply invXP_foldl | apply inv_XP | apply invX_ite | apply invX_foldl | apply invX_s | apply inv_P | (apply inv_fst; assumption)) | with_reducible intro _ | dsimp +zetaDelta only | split

theorem installerEff_inv (b : List Byte) (s : State) (h1 : StateInv s) :
    InvP (installerEff b s) := by
  unfold installerEff; try dsimp only
  repeat' first | (with_reducible first | assumption | apply inv_ite | apply inv_ite1 | apply aBad_inv | apply aOk_inv | apply State.modTrust_inv) | simp only [↓inv_mk] | simp only [↓inv_pair] | (with_reducible first | apply inv_P | (apply inv_fst; assumption)) | with_reducible intro _ | dsimp +zetaDelta only | split

theorem nowPermitted_inv (s : State) (h1 : StateInv s) :
    StateInv (nowPermitted s) := by
  unfold nowPermitted
  repeat' first | (with_reducible first | assumption | apply inv_ite | apply openShutters_inv | apply settleHeld_inv) | with_reducible intro _

theorem operatorEff_inv (b : List Byte) (s : State) (h1 : StateInv s) :
    InvP (operatorEff b s) := by
  unfold operatorEff; try dsimp only
  repeat' first | (with_reducible first | assumption | apply inv_ite | apply inv_ite1 | apply inv_foldl | apply inv_foldl1 | apply aBad_inv | apply aOk_inv | apply closeSession_inv | apply State.modTrust_inv | apply nowPermitted_inv) | simp only [↓inv_mk] | simp only [↓inv_pair] | (with_reducible first | apply inv_P | (apply inv_fst; assumption)) | with_reducible intro _ | dsimp +zetaDelta only | split

theorem policyEff_inv (b : List Byte) (s : State) (h1 : StateInv s) :
    InvP (policyEff b s) := by
  unfold policyEff; try dsimp only
  repeat' first | (with_reducible first | assumption | apply inv_ite | apply inv_ite1 | apply inv_foldl | apply inv_foldl1 | apply aBad_inv | apply aOk_inv | apply goShut_inv | apply State.modPow_inv | apply State.modTrust_inv | apply netDown_inv | apply nextChange_inv | apply nowPermitted_inv | apply postTrust_inv) | simp only [↓inv_mk] | simp only [↓inv_pair] | (with_reducible first | apply inv_P | (apply inv_fst; assumption)) | with_reducible intro _ | dsimp +zetaDelta only | split

theorem consentEff_inv (b : List Byte) (s : State) (h1 : StateInv s) :
    InvP (consentEff b s) := by
  unfold consentEff; try dsimp only
  repeat' first | (with_reducible first | assumption | apply aBad_inv | apply aOk_inv | apply State.modTrust_inv) | simp only [↓inv_mk] | simp only [↓inv_pair] | (with_reducible first | apply inv_P | (apply inv_fst; assumption)) | with_reducible intro _ | dsimp +zetaDelta only | split

theorem unlockEff_inv (n : Nat) (b : List Byte) (s : State) (h1 : StateInv s) :
    InvP (unlockEff n b s) := by
  unfold unlockEff; try dsimp only
  repeat' first | (with_reducible first | assumption | apply inv_ite | apply inv_ite1 | apply aBad_inv | apply aOk_inv | apply State.modTrust_inv | apply postTrust_inv | apply settleModes_inv) | simp only [↓inv_mk] | simp only [↓inv_pair] | (with_reducible first | apply inv_P | (apply inv_fst; assumption)) | with_reducible intro _ | dsimp +zetaDelta only | split

theorem strapTick_inv (claimEnN debugEnN : Bool) (s : State) (h1 : StateInv s) :
    StateInv (strapTick claimEnN debugEnN s) := by
  unfold strapTick; try dsimp only
  repeat' first | (with_reducible first | assumption | apply inv_ite | apply State.modTrust_inv | apply settleModes_inv) | simp only [↓inv_mk] | with_reducible intro _ | dsimp +zetaDelta only | split

theorem stageEff_inv (x : ImageSet) (s : State) (h1 : StateInv s) :
    InvP (stageEff x s) := by
  unfold stageEff; try dsimp only
  repeat' first | (with_reducible first | assumption | apply inv_ite | apply inv_ite1 | apply aBad_inv | apply act_inv | apply State.modTrust_inv) | simp only [↓inv_mk] | simp only [↓inv_pair] | (with_reducible first | apply inv_P | (apply inv_fst; assumption)) | with_reducible intro _ | dsimp +zetaDelta only | split

theorem endActivation_inv (s : State) (a : Activation) (status result : Nat) (h1 : StateInv s) :
    StateInv (endActivation s a status result) := by
  unfold endActivation
  repeat' first | (with_reducible first | assumption | apply inv_ite | apply answer_inv | apply finish_inv) | with_reducible intro _ | split

theorem finishActivation_inv (s : State) (a : Activation) (h1 : StateInv s) :
    StateInv (finishActivation s a) := by
  unfold finishActivation; try dsimp only
  repeat' first | (with_reducible first | assumption | apply inv_ite | apply act_inv | apply endActivation_inv | apply State.modTrust_inv | apply postTrust_inv | apply warmRestart_inv) | simp only [↓inv_mk] | simp only [↓invX_mk] | simp only [↓invXP_pair] | (with_reducible first | apply invXP_ite | apply invXP_foldl | apply inv_XP | apply invX_ite | apply invX_foldl | apply invX_s) | with_reducible intro _ | dsimp +zetaDelta only | split

theorem activateEff_inv (from_ : FwFrom) (warmNow : Bool) (s : State) (h1 : StateInv s) :
    InvP (activateEff from_ warmNow s) := by
  unfold activateEff; try dsimp only
  repeat' first | (with_reducible first | assumption | apply inv_ite | apply inv_ite1 | apply act_inv | apply State.modTrust_inv) | simp only [↓inv_mk] | simp only [↓inv_pair] | (with_reducible first | apply inv_P | (apply inv_fst; assumption)) | with_reducible intro _ | dsimp +zetaDelta only | split

theorem settleActivation_inv (s : State) (h1 : StateInv s) :
    StateInv (settleActivation s) := by
  unfold settleActivation
  repeat' first | (with_reducible first | assumption | apply inv_ite | apply act_inv | apply finishActivation_inv) | with_reducible intro _ | split

theorem confirmEff_inv (s : State) (h1 : StateInv s) :
    InvP (confirmEff s) := by
  unfold confirmEff; try dsimp only
  repeat' first | (with_reducible first | assumption | apply inv_ite | apply inv_ite1 | apply aBad_inv | apply act_inv | apply State.modTrust_inv) | simp only [↓inv_mk] | simp only [↓inv_pair] | (with_reducible first | apply inv_P | (apply inv_fst; assumption)) | with_reducible intro _ | dsimp +zetaDelta only | split

theorem replaceKeepers_inv (s : State) (c : Comp) (h1 : StateInv s) :
    StateInv (replaceKeepers s c) := by
  unfold replaceKeepers; try dsimp only
  repeat' first | (with_reducible first | assumption | apply doFailover_inv | apply doKeeperReload_inv | apply postAll_inv | apply startKeeper_inv | apply stopKeeper_inv) | simp only [↓inv_mk] | dsimp +zetaDelta only | split

theorem beginReplace_inv (s : State) (c : Nat) (new : Comp) (h1 : StateInv s) :
    StateInv (beginReplace s c new) := by
  unfold beginReplace; try dsimp only
  repeat' first | (with_reducible first | assumption | apply inv_ite | apply act_inv | apply State.modTrust_inv | apply postAll_inv | apply replaceKeepers_inv) | simp only [↓inv_mk] | with_reducible intro _ | dsimp +zetaDelta only | split

theorem settleReplace_inv (s : State) (a : Activation) (h1 : StateInv s) :
    InvP (settleReplace s a) := by
  unfold settleReplace; try dsimp only
  repeat' first | (with_reducible first | assumption | apply inv_ite | apply inv_ite1 | apply State.modTrust_inv) | simp only [↓inv_mk] | simp only [↓inv_pair] | (with_reducible first | apply inv_P | (apply inv_fst; assumption)) | with_reducible intro _ | dsimp +zetaDelta only | split

theorem doReplace_inv (s : State) (h1 : StateInv s) :
    StateInv (doReplace s) := by
  unfold doReplace; try dsimp only
  repeat' first | (with_reducible first | assumption | apply inv_ite | apply inv_ite1 | apply act_inv | apply beginReplace_inv | apply endActivation_inv | apply finishActivation_inv | apply State.modTrust_inv | apply settleReplace_inv) | simp only [↓inv_mk] | simp only [↓inv_pair] | (with_reducible first | apply inv_P | (apply inv_fst; assumption)) | with_reducible intro _ | dsimp +zetaDelta only | split

theorem execComponentReplace_inv (s : State) (h1 : StateInv s) :
    InvC (execComponentReplace s) := by
  unfold execComponentReplace
  repeat' first | (with_reducible first | assumption | apply doReplace_inv) | (with_reducible first | apply invC_next | apply invC_ite | apply invC_fault | (apply inv_ofC; assumption)) | with_reducible intro _

theorem attestEff_inv (nonce : List Byte) (s : State) (h1 : StateInv s) :
    InvP (attestEff nonce s) := by
  unfold attestEff; try dsimp only
  repeat' first | (with_reducible first | assumption | apply aBad_inv | apply takeLeaf_inv) | simp only [↓inv_pair] | (with_reducible first | apply inv_P | (apply inv_fst; assumption)) | dsimp +zetaDelta only | split

theorem auditReadEff_inv (first n : Nat) (s : State) (h1 : StateInv s) :
    InvP (auditReadEff first n s) := by
  unfold auditReadEff; try dsimp only
  repeat' first | (with_reducible first | assumption | apply inv_ite | apply inv_ite1 | apply aBad_inv) | simp only [↓inv_mk] | simp only [↓inv_pair] | (with_reducible first | apply inv_P | (apply inv_fst; assumption)) | with_reducible intro _ | dsimp +zetaDelta only | split

theorem readOut_inv (n slot : Nat) (s : State) (h1 : StateInv s) :
    InvP (readOut n slot s) := by
  unfold readOut
  repeat' first | (with_reducible first | assumption | apply inv_ite | apply inv_ite1 | apply aBad_inv | apply auditRec_inv) | simp only [↓inv_pair] | (with_reducible first | apply inv_P | apply invO_none | apply invO_some | apply invO_ite | (apply inv_of; assumption) | (apply inv_fst; assumption)) | with_reducible intro _ | dsimp +zetaDelta only | split

theorem sessionReadOut_inv (n slot : Nat) (s : State) (h1 : StateInv s) :
    StateInv (sessionReadOut n slot s) := by
  unfold sessionReadOut; try dsimp only
  repeat' first | (with_reducible first | assumption | apply answer_inv | apply readOut_inv) | simp only [↓inv_pair] | (with_reducible first | apply inv_P | (apply inv_fst; assumption)) | dsimp +zetaDelta only | split

theorem cmdEff_inv (c : MgmtCmd) (s : State) (h1 : StateInv s) :
    InvP (cmdEff c s) := by
  unfold cmdEff; try dsimp only
  repeat' first | (with_reducible first | assumption | apply inv_ite | apply inv_ite1 | apply aBad_inv | apply activateEff_inv | apply attestEff_inv | apply auditReadEff_inv | apply claimEff_inv | apply confirmEff_inv | apply consentEff_inv | apply installerEff_inv | apply operatorEff_inv | apply policyEff_inv | apply releaseEff_inv | apply stageEff_inv | apply unlockEff_inv) | simp only [↓inv_pair] | (with_reducible first | apply inv_P | (apply inv_fst; assumption)) | with_reducible intro _ | dsimp +zetaDelta only | split

theorem applyCmd_inv (s : State) (c : MgmtCmd) (h1 : StateInv s) :
    InvP (applyCmd s c) := by
  unfold applyCmd; try dsimp only
  repeat' first | (with_reducible first | assumption | apply inv_ite | apply inv_ite1 | apply answer_inv | apply auditRec_inv | apply cmdEff_inv | apply settleActivation_inv) | simp only [↓inv_pair] | (with_reducible first | apply inv_P | apply invO_none | apply invO_some | apply invO_ite | (apply inv_of; assumption) | (apply inv_fst; assumption)) | with_reducible intro _ | dsimp +zetaDelta only | split

theorem applyCmds_inv (z0 : List MgmtCmd) (z1 : List (MgmtCmd × Nat × List Byte)) (z2 : State) (h1 : StateInv z2) :
    StateInv (applyCmds z0 z1 z2) := by
  fun_induction applyCmds z0 z1 z2 <;> try dsimp +zetaDelta only
  all_goals repeat' first | (with_reducible first | assumption | apply inv_ite | apply inv_ite1 | apply answer_inv | apply applyCmd_inv | apply logConflict_inv) | simp only [↓inv_pair] | (with_reducible first | apply inv_P | (apply inv_fst; assumption)) | with_reducible apply_assumption -exfalso | with_reducible intro _ | dsimp +zetaDelta only | split

theorem tickCmds_inv (s : State) (h1 : StateInv s) :
    StateInv (tickCmds s) := by
  unfold tickCmds; try dsimp only
  repeat' first | (with_reducible first | assumption | apply applyCmds_inv | apply State.modTrust_inv) | simp only [↓inv_mk] | with_reducible intro _ | dsimp +zetaDelta only | split

theorem execClaim_inv (session : Nat) (msg : List (BitVec 8)) (s : State) (h1 : StateInv s) :
    InvC (execClaim session msg s) := by
  unfold execClaim; try dsimp only
  repeat' first | (with_reducible first | assumption | apply gatedS_inv | apply queueCmd_inv) | simp only [↓inv_mk] | (with_reducible first | apply invC_next | apply invC_ite | apply invC_fault | (apply inv_ofC; assumption)) | with_reducible intro _ | dsimp +zetaDelta only | split

theorem execRelease_inv (session : Nat) (msg : List (BitVec 8)) (s : State) (h1 : StateInv s) :
    InvC (execRelease session msg s) := by
  unfold execRelease; try dsimp only
  repeat' first | (with_reducible first | assumption | apply gatedS_inv | apply queueCmd_inv) | simp only [↓inv_mk] | (with_reducible first | apply invC_next | apply invC_ite | apply invC_fault | (apply inv_ofC; assumption)) | with_reducible intro _ | dsimp +zetaDelta only | split

theorem execInstallerKey_inv (session : Nat) (msg : List (BitVec 8)) (s : State) (h1 : StateInv s) :
    InvC (execInstallerKey session msg s) := by
  unfold execInstallerKey; try dsimp only
  repeat' first | (with_reducible first | assumption | apply gatedS_inv | apply queueCmd_inv) | simp only [↓inv_mk] | (with_reducible first | apply invC_next | apply invC_ite | apply invC_fault | (apply inv_ofC; assumption)) | with_reducible intro _ | dsimp +zetaDelta only | split

theorem execOperatorKey_inv (session : Nat) (msg : List (BitVec 8)) (s : State) (h1 : StateInv s) :
    InvC (execOperatorKey session msg s) := by
  unfold execOperatorKey; try dsimp only
  repeat' first | (with_reducible first | assumption | apply gatedS_inv | apply queueCmd_inv) | simp only [↓inv_mk] | (with_reducible first | apply invC_next | apply invC_ite | apply invC_fault | (apply inv_ofC; assumption)) | with_reducible intro _ | dsimp +zetaDelta only | split

theorem execPolicy_inv (session : Nat) (msg : List (BitVec 8)) (s : State) (h1 : StateInv s) :
    InvC (execPolicy session msg s) := by
  unfold execPolicy; try dsimp only
  repeat' first | (with_reducible first | assumption | apply gatedS_inv | apply queueCmd_inv) | simp only [↓inv_mk] | (with_reducible first | apply invC_next | apply invC_ite | apply invC_fault | (apply inv_ofC; assumption)) | with_reducible intro _ | dsimp +zetaDelta only | split

theorem execConsent_inv (session : Nat) (msg : List (BitVec 8)) (s : State) (h1 : StateInv s) :
    InvC (execConsent session msg s) := by
  unfold execConsent; try dsimp only
  repeat' first | (with_reducible first | assumption | apply gatedS_inv | apply queueCmd_inv) | simp only [↓inv_mk] | (with_reducible first | apply invC_next | apply invC_ite | apply invC_fault | (apply inv_ofC; assumption)) | with_reducible intro _ | dsimp +zetaDelta only | split

theorem execDebugUnlock_inv (session : Nat) (msg : List (BitVec 8)) (s : State) (h1 : StateInv s) :
    InvC (execDebugUnlock session msg s) := by
  unfold execDebugUnlock; try dsimp only
  repeat' first | (with_reducible first | assumption | apply gatedS_inv | apply queueCmd_inv) | simp only [↓inv_mk] | (with_reducible first | apply invC_next | apply invC_ite | apply invC_fault | (apply inv_ofC; assumption)) | with_reducible intro _ | dsimp +zetaDelta only | split

theorem fwCmd_inv (s : State) (r op effect : Nat) (act : State → CmdRes) (h1 : StateInv s) (h2 : ∀ (y0 : State), StateInv y0 → InvP (act y0)) :
    InvP (fwCmd s r op effect act) := by
  unfold fwCmd; try dsimp only
  repeat' first | (with_reducible first | assumption | apply h2 | apply auditRec_inv | apply bad_inv | apply exclusive_inv) | simp only [↓inv_pair] | (with_reducible first | apply inv_P | apply invO_none | apply invO_some | apply invO_ite | (apply inv_of; assumption) | (apply inv_fst; assumption)) | with_reducible intro _ | dsimp +zetaDelta only | split

theorem ofAnswer_inv (a : Answer) (h1 : InvP a) :
    InvP (ofAnswer a) := by
  unfold ofAnswer
  repeat' first | (with_reducible first | assumption) | simp only [↓inv_pair] | (with_reducible first | apply inv_P | (apply inv_fst; assumption)) | dsimp +zetaDelta only | split

theorem fwStageRing_inv (r d : Nat) (read : HRead) (x : ImageSet) (s : State) (h1 : StateInv s) :
    InvP (fwStageRing r d read x s) := by
  unfold fwStageRing; try dsimp only
  repeat' first | (with_reducible first | assumption | apply inv_ite | apply inv_ite1 | apply bad_inv | apply fwCmd_inv | apply ofAnswer_inv | apply stageEff_inv) | simp only [↓inv_pair] | (with_reducible first | apply inv_P | (apply inv_fst; assumption)) | with_reducible intro _ | dsimp +zetaDelta only | split

theorem execFwStage_inv (src : FwSrc) (read : HRead) (image : ImageSet) (s : State) (h1 : StateInv s) :
    InvC (execFwStage src read image s) := by
  unfold execFwStage; try dsimp only
  repeat' first | (with_reducible first | assumption | apply fwStageRing_inv | apply gatedS_inv | apply inRankOrder_inv | apply onDesc_inv | apply queueCmd_inv) | simp only [↓inv_pair] | (with_reducible first | apply inv_P | apply invC_next | apply invC_ite | apply invC_fault | (apply inv_ofC; assumption) | (apply inv_fst; assumption)) | with_reducible intro _ | dsimp +zetaDelta only | split

theorem fwActivateRing_inv (r d : Nat) (ref : DRef) (s : State) (h1 : StateInv s) :
    InvP (fwActivateRing r d ref s) := by
  unfold fwActivateRing; try dsimp only
  repeat' first | (with_reducible first | assumption | apply activateEff_inv | apply bad_inv | apply fwCmd_inv | apply later_inv) | simp only [↓inv_pair] | (with_reducible first | apply inv_P | (apply inv_fst; assumption)) | with_reducible intro _ | dsimp +zetaDelta only | split

theorem execFwActivate_inv (src : FwSrc) (s : State) (h1 : StateInv s) :
    InvC (execFwActivate src s) := by
  unfold execFwActivate; try dsimp only
  repeat' first | (with_reducible first | assumption | apply fwActivateRing_inv | apply gatedS_inv | apply inRankOrder_inv | apply onDesc_inv | apply queueCmd_inv | apply settleActivation_inv) | simp only [↓inv_mk] | simp only [↓inv_pair] | (with_reducible first | apply inv_P | apply invC_next | apply invC_ite | apply invC_fault | (apply inv_ofC; assumption) | (apply inv_fst; assumption)) | with_reducible intro _ | dsimp +zetaDelta only | split

theorem execFwConfirm_inv (src : FwSrc) (s : State) (h1 : StateInv s) :
    InvC (execFwConfirm src s) := by
  unfold execFwConfirm; try dsimp only
  repeat' first | (with_reducible first | assumption | apply confirmEff_inv | apply fwCmd_inv | apply gatedS_inv | apply inRankOrder_inv | apply ofAnswer_inv | apply onDesc_inv | apply queueCmd_inv) | simp only [↓inv_mk] | simp only [↓inv_pair] | (with_reducible first | apply inv_P | apply invC_next | apply invC_ite | apply invC_fault | (apply inv_ofC; assumption) | (apply inv_fst; assumption)) | with_reducible intro _ | dsimp +zetaDelta only | split

theorem attestRing_inv (r d : Nat) (s : State) (h1 : StateInv s) :
    InvP (attestRing r d s) := by
  unfold attestRing; try dsimp only
  repeat' first | (with_reducible first | assumption | apply inv_ite | apply inv_ite1 | apply attestEff_inv | apply bad_inv | apply hostWrite_inv | apply okR_inv) | simp only [↓inv_pair] | (with_reducible first | apply inv_P | (apply inv_fst; assumption)) | with_reducible intro _ | dsimp +zetaDelta only | split

theorem execAttest_inv (src : FwSrc) (s : State) (h1 : StateInv s) :
    InvC (execAttest src s) := by
  unfold execAttest; try dsimp only
  repeat' first | (with_reducible first | assumption | apply inv_ite | apply inv_ite1 | apply attestEff_inv | apply attestRing_inv | apply emit_inv | apply gatedS_inv | apply onDesc_inv | apply queueCmd_inv) | simp only [↓inv_mk] | simp only [↓inv_pair] | (with_reducible first | apply inv_P | apply invC_next | apply invC_ite | apply invC_fault | (apply inv_ofC; assumption) | (apply inv_fst; assumption)) | with_reducible intro _ | dsimp +zetaDelta only | split

theorem auditReadRing_inv (r d : Nat) (s : State) (h1 : StateInv s) :
    InvP (auditReadRing r d s) := by
  unfold auditReadRing; try dsimp only
  repeat' first | (with_reducible first | assumption | apply inv_ite | apply inv_ite1 | apply auditReadEff_inv | apply bad_inv | apply hostWrite_inv | apply okR_inv) | simp only [↓inv_pair] | (with_reducible first | apply inv_P | (apply inv_fst; assumption)) | with_reducible intro _ | dsimp +zetaDelta only | split

theorem execAuditRead_inv (src : FwSrc) (s : State) (h1 : StateInv s) :
    InvC (execAuditRead src s) := by
  unfold execAuditRead; try dsimp only
  repeat' first | (with_reducible first | assumption | apply auditReadRing_inv | apply gatedS_inv | apply onDesc_inv | apply queueCmd_inv) | simp only [↓inv_mk] | simp only [↓inv_pair] | (with_reducible first | apply inv_P | apply invC_next | apply invC_ite | apply invC_fault | (apply inv_ofC; assumption) | (apply inv_fst; assumption)) | with_reducible intro _ | dsimp +zetaDelta only | split

theorem cvReg_inv (s : State) (r owner : Nat) (act : State → State) (h1 : StateInv s) (h2 : ∀ (y0 : State), StateInv y0 → StateInv (act y0)) :
    StateInv (cvReg s r owner act) := by
  unfold cvReg; try dsimp only
  repeat' first | (with_reducible first | assumption | apply inv_ite | apply h2 | apply State.modFn_inv) | simp only [↓inv_mk] | with_reducible intro _ | dsimp +zetaDelta only | split

theorem doArm_inv (r n v : Nat) (s : State) (h1 : StateInv s) :
    StateInv (doArm r n v s) := by
  unfold doArm; try dsimp only
  repeat' first | (with_reducible first | assumption | apply inv_ite | apply cvAbort_inv | apply cvReg_inv | apply State.modCv_inv | apply progress_inv) | simp only [↓inv_mk] | with_reducible intro _ | dsimp +zetaDelta only | split

theorem execCvArm_inv (fn unit : Nat) (ctrl : BitVec 32) (s : State) (h1 : StateInv s) :
    InvC (execCvArm fn unit ctrl s) := by
  unfold execCvArm
  repeat' first | (with_reducible first | assumption | apply doArm_inv | apply gated_inv) | (with_reducible first | apply invC_next | apply invC_ite | apply invC_fault | (apply inv_ofC; assumption)) | with_reducible intro _

theorem doDisarm_inv (r n v : Nat) (s : State) (h1 : StateInv s) :
    StateInv (doDisarm r n v s) := by
  unfold doDisarm; try dsimp only
  repeat' first | (with_reducible first | assumption | apply inv_ite | apply cvEnd_inv | apply cvReg_inv | apply State.modCv_inv | apply progress_inv) | simp only [↓inv_mk] | with_reducible intro _ | dsimp +zetaDelta only | split

theorem execCvDisarm_inv (fn unit : Nat) (ctrl : BitVec 32) (s : State) (h1 : StateInv s) :
    InvC (execCvDisarm fn unit ctrl s) := by
  unfold execCvDisarm
  repeat' first | (with_reducible first | assumption | apply doDisarm_inv | apply gated_inv) | (with_reducible first | apply invC_next | apply invC_ite | apply invC_fault | (apply inv_ofC; assumption)) | with_reducible intro _

theorem amRead_inv (s : State) (k : Nat) (read : HRead) (h1 : StateInv s) :
    InvP (amRead s k read) := by
  unfold amRead; try dsimp only
  repeat' first | (with_reducible first | assumption | apply inv_ite | apply inv_ite1 | apply rdSpace_inv) | simp only [↓inv_pair] | (with_reducible first | apply inv_P | (apply inv_fst; assumption)) | with_reducible intro _ | dsimp +zetaDelta only | split

theorem doSample_inv (k : Nat) (read : HRead) (s : State) (h1 : StateInv s) :
    StateInv (doSample k read s) := by
  unfold doSample; try dsimp only
  repeat' first | (with_reducible first | assumption | apply inv_ite | apply inv_ite1 | apply advanceTo_inv | apply amRead_inv | apply amTake_inv | apply State.modMon_inv) | simp only [↓inv_mk] | simp only [↓inv_pair] | (with_reducible first | apply inv_P | (apply inv_fst; assumption)) | with_reducible intro _ | dsimp +zetaDelta only | split

theorem execAmSample_inv (mon : Nat) (read : HRead) (s : State) (h1 : StateInv s) :
    InvC (execAmSample mon read s) := by
  unfold execAmSample
  repeat' first | (with_reducible first | assumption | apply doSample_inv) | (with_reducible first | apply invC_next | apply invC_ite | apply invC_fault | (apply inv_ofC; assumption)) | with_reducible intro _

theorem deltas_inv (s : State) (type source : Nat) (cs : List (Nat × Nat × Nat × Nat)) (h1 : StateInv s) :
    InvP (deltas s type source cs) := by
  unfold deltas; try dsimp only
  repeat' first | (with_reducible first | assumption | apply inv_foldl | apply inv_foldl1 | apply deltaOf_inv) | simp only [↓inv_pair] | (with_reducible first | apply inv_P | (apply inv_fst; assumption)) | with_reducible intro _ | dsimp +zetaDelta only | split

theorem sampleOne_inv (s : State) (type source : Nat) (cs : List (Nat × Nat × Nat × Nat)) (rest : Nat) (h1 : StateInv s) :
    StateInv (sampleOne s type source cs rest) := by
  unfold sampleOne; try dsimp only
  repeat' first | (with_reducible first | assumption | apply deltas_inv | apply feedPut_inv) | simp only [↓inv_pair] | (with_reducible first | apply inv_P | (apply inv_fst; assumption)) | dsimp +zetaDelta only | split

theorem samplePower_inv (s : State) (xs : List Nat) (h1 : StateInv s) :
    StateInv (samplePower s xs) := by
  unfold samplePower
  repeat' first | (with_reducible first | assumption | apply feedPut_inv)

theorem sampleDomain_inv (s : State) (d temp : Nat) (h1 : StateInv s) :
    StateInv (sampleDomain s d temp) := by
  unfold sampleDomain; try dsimp only
  repeat' first | (with_reducible first | assumption | apply inv_ite | apply feedPut_inv) | with_reducible intro _ | dsimp +zetaDelta only

theorem samplePort_inv (s : State) (p : Nat) (h1 : StateInv s) :
    StateInv (samplePort s p) := by
  unfold samplePort; try dsimp only
  repeat' first | (with_reducible first | assumption | apply inv_ite | apply sampleOne_inv) | with_reducible intro _ | dsimp +zetaDelta only

theorem sampleIf_inv (s : State) (j : Nat) (h1 : StateInv s) :
    StateInv (sampleIf s j) := by
  unfold sampleIf; try dsimp only
  repeat' first | (with_reducible first | assumption | apply inv_ite | apply sampleOne_inv) | with_reducible intro _ | dsimp +zetaDelta only

theorem sampleStack_inv (s : State) (n temp : Nat) (h1 : StateInv s) :
    StateInv (sampleStack s n temp) := by
  unfold sampleStack; try dsimp only
  repeat' first | (with_reducible first | assumption | apply inv_ite | apply sampleOne_inv) | with_reducible intro _ | dsimp +zetaDelta only

theorem sampleSum_inv (s : State) (t : Nat) (h1 : StateInv s) :
    StateInv (sampleSum s t) := by
  unfold sampleSum; try dsimp only
  repeat' first | (with_reducible first | assumption | apply inv_ite | apply sampleOne_inv | apply spill_inv) | simp only [↓inv_mk] | (with_reducible first | apply invO_none | apply invO_some | apply invO_ite | (apply inv_of; assumption)) | with_reducible intro _ | dsimp +zetaDelta only | split

theorem doWfSample_inv (type : Nat) (xs : List Nat) (s : State) (h1 : StateInv s) :
    StateInv (doWfSample type xs s) := by
  unfold doWfSample; try dsimp only
  repeat' first | (with_reducible first | assumption | apply inv_ite | apply inv_foldl | apply advanceTo_inv | apply State.modWx_inv | apply sampleDomain_inv | apply sampleIf_inv | apply samplePort_inv | apply samplePower_inv | apply sampleStack_inv | apply sampleSum_inv) | simp only [↓inv_mk] | with_reducible intro _ | dsimp +zetaDelta only | split

theorem execWfSample_inv (type : Nat) (sensors : List Nat) (s : State) (h1 : StateInv s) :
    InvC (execWfSample type sensors s) := by
  unfold execWfSample
  repeat' first | (with_reducible first | assumption | apply doWfSample_inv) | (with_reducible first | apply invC_next | apply invC_ite | apply invC_fault | (apply inv_ofC; assumption)) | with_reducible intro _

theorem logUnexpected_inv (s : State) (r : Nat) (h1 : StateInv s) :
    StateInv (logUnexpected s r) := by
  unfold logUnexpected; try dsimp only
  repeat' first | (with_reducible first | assumption | apply emit_inv | apply State.modFn_inv) | simp only [↓inv_mk] | with_reducible intro _ | dsimp +zetaDelta only | split

theorem logPoison_inv (s : State) (r : Nat) (h1 : StateInv s) :
    StateInv (logPoison s r) := by
  unfold logPoison; try dsimp only
  repeat' first | (with_reducible first | assumption | apply emit_inv | apply State.modFn_inv) | simp only [↓inv_mk] | with_reducible intro _ | dsimp +zetaDelta only | split

theorem failDir_inv (s : State) (r : Nat) (dir : Bool) (read : HRead) (h1 : StateInv s) :
    StateInv (failDir s r dir read) := by
  unfold failDir
  repeat' first | (with_reducible first | assumption | apply inv_ite | apply doDirReturn_inv) | with_reducible intro _

theorem execHostReadTimeout_inv (fn : Nat) (dir : Bool) (s : State) (h1 : StateInv s) :
    InvC (execHostReadTimeout fn dir s) := by
  unfold execHostReadTimeout
  repeat' first | (with_reducible first | assumption | apply inv_ite | apply failDir_inv | apply logTimeout_inv) | (with_reducible first | apply invC_next | apply invC_ite | apply invC_fault | (apply inv_ofC; assumption)) | with_reducible intro _

theorem execPoisonedTlp_inv (fn : Nat) (read dir : Bool) (s : State) (h1 : StateInv s) :
    InvC (execPoisonedTlp fn read dir s) := by
  unfold execPoisonedTlp
  repeat' first | (with_reducible first | assumption | apply inv_ite | apply failDir_inv | apply logPoison_inv) | (with_reducible first | apply invC_next | apply invC_ite | apply invC_fault | (apply inv_ofC; assumption)) | with_reducible intro _

theorem execUnexpectedCompletion_inv (fn : Nat) (s : State) (h1 : StateInv s) :
    InvC (execUnexpectedCompletion fn s) := by
  unfold execUnexpectedCompletion
  repeat' first | (with_reducible first | assumption | apply inv_ite | apply logUnexpected_inv) | (with_reducible first | apply invC_next | apply invC_ite | apply invC_fault | (apply inv_ofC; assumption)) | with_reducible intro _

theorem doL1_inv (ep : Nat) (s : State) (h1 : StateInv s) :
    StateInv (doL1 ep s) := by
  unfold doL1; try dsimp only
  repeat' first | (with_reducible first | assumption | apply inv_ite | apply advanceTo_inv | apply emit_inv) | simp only [↓inv_mk] | with_reducible intro _ | dsimp +zetaDelta only | split

theorem execAspmL1Entry_inv (ep : Nat) (s : State) (h1 : StateInv s) :
    InvC (execAspmL1Entry ep s) := by
  unfold execAspmL1Entry
  repeat' first | (with_reducible first | assumption | apply doL1_inv) | (with_reducible first | apply invC_next | apply invC_ite | apply invC_fault | (apply inv_ofC; assumption)) | with_reducible intro _

theorem sendPending_inv (s : State) (r v : Nat) (h1 : StateInv s) :
    StateInv (sendPending s r v) := by
  unfold sendPending; try dsimp only
  repeat' first | (with_reducible first | assumption | apply inv_ite | apply emit_inv | apply State.modFn_inv) | simp only [↓inv_mk] | with_reducible intro _ | dsimp +zetaDelta only | split

theorem doUnmask_inv (r v : Nat) (s : State) (h1 : StateInv s) :
    StateInv (doUnmask r v s) := by
  unfold doUnmask; try dsimp only
  repeat' first | (with_reducible first | assumption | apply inv_ite | apply State.modFn_inv | apply sendPending_inv) | simp only [↓inv_mk] | with_reducible intro _ | dsimp +zetaDelta only | split

theorem execMsixUnmask_inv (fn vec : Nat) (s : State) (h1 : StateInv s) :
    InvC (execMsixUnmask fn vec s) := by
  unfold execMsixUnmask
  repeat' first | (with_reducible first | assumption | apply doUnmask_inv | apply gated_inv) | (with_reducible first | apply invC_next | apply invC_ite | apply invC_fault | (apply inv_ofC; assumption)) | with_reducible intro _

theorem doIntxClear_inv (r k v : Nat) (s : State) (h1 : StateInv s) :
    StateInv (doIntxClear r k v s) := by
  unfold doIntxClear; try dsimp only
  repeat' first | (with_reducible first | assumption | apply inv_ite | apply emit_inv | apply State.modFn_inv) | simp only [↓inv_mk] | with_reducible intro _ | dsimp +zetaDelta only | split

theorem execIntxPendingClear_inv (fn index : Nat) (value : BitVec 64) (s : State) (h1 : StateInv s) :
    InvC (execIntxPendingClear fn index value s) := by
  unfold execIntxPendingClear
  repeat' first | (with_reducible first | assumption | apply doIntxClear_inv | apply gated_inv) | (with_reducible first | apply invC_next | apply invC_ite | apply invC_fault | (apply inv_ofC; assumption)) | with_reducible intro _

end Sys2Proof.Machine
end

