-- ==== Sys2Proof/Machine/CapList.lean ====
section
/-!
DEFINITION. The capability list of a function and what a host read of its list BAR answers (02: R29 to R34; 00: R5, R8;
14: R466). No row of the opcode table is a host read, so a read is an operation on State beside the commands.
-/
namespace Sys2Proof.Machine

/-- A capability entry (Table 2-1). -/
structure CapEntry where
  capId : Nat := 0
  major : Nat := 0
  minor : Nat := 0
  base : Nat := 0
  next : Nat := 0
  disabled : Bool := false
  restricted : Bool := false
deriving DecidableEq, Repr

/-- An entry as a number of 128 bits (Table 2-1). -/
def CapEntry.word (e : CapEntry) : Nat :=
  at_ e.capId 0 16 + at_ e.major 16 8 + at_ e.minor 24 8 + at_ e.base 32 32 + at_ e.next 64 32
  + at_ (b2n e.disabled) 96 1 + at_ (b2n e.restricted) 97 1

/-- Bytes between the bases of two blocks of a list: the whole list fits the list BAR of Table 14-2 (DESIGN CHOICE, log 40). -/
def capStride (r : Nat) : Nat :=
  if isPf0 r then 0x10000 else if isPf1 r then 0x80000 else if isVf1 r then 0x1000 else 0x4000

/-- Size of the list BAR: BAR0, or BAR4 of PF2 and its virtual functions (R29, Table 14-2). -/
def listBarSize (r : Nat) : Nat := if isPf0 r then 0x100000 else if isPf1 r then 0x1000000 else 0x10000

/-- Base of the block at a place of the list, aligned to 64 bytes and beyond the list itself. -/
def capBase (r k : Nat) : Nat := capStride r * (k + 1)

/-- Some register or ring command of the block needs a role that the function does not hold: shared controls that its map
does not let it write, ports of the other PF1, and commands that need PF1 (R34, R105, R225, R260, R408, R512, R545). -/
def capRestricted (r cap : Nat) : Bool :=
  (isPf1 r && [0x10, 0x11, 0x21, 0x22, 0x40, 0x41].contains cap) || (isVf1 r && (cap == 0x13 || cap == 0x14))

/-- The entry at a place of a function's list (R30, R31, R33): entries stand 16 bytes apart from offset 0 on. The versions
of a block are constants of the part (log 40). -/
def capEntry (s : State) (r k : Nat) : Option CapEntry :=
  (capsOf s r)[k]?.map (fun c =>
    { capId := c, major := (Config.capMajor c).toNat, minor := (Config.capMinor c).toNat, base := capBase r k
      next := if k + 1 < (capsOf s r).length then 16 * (k + 1) else 0
      disabled := !capOn s r c, restricted := capRestricted r c })

/-- The capability list of a function (R29). -/
def capList (s : State) (r : Nat) : List CapEntry := (List.range (capsOf s r).length).filterMap (capEntry s r)

/-- The block whose registers hold an offset of the list BAR, and the offset within it (R6). -/
def blockAt (s : State) (r off : Nat) : Option (Nat × Nat) :=
  match off / capStride r with
  | 0 => none
  | k + 1 => (capsOf s r)[k]?.map (fun c => (c, off % capStride r))

/-- A read within the list: half an entry in 64 bits, or a quarter in 32 (R30); any other access answers all ones (R8). -/
def listRead (s : State) (r off width : Nat) : Nat :=
  match capEntry s r (off / 16) with
  | none => 2 ^ (8 * width) - 1
  | some e =>
    if (width = 8 ∨ width = 4) ∧ off % width = 0 then e.word / 2 ^ (8 * (off % 16)) % 2 ^ (8 * width) else 2 ^ (8 * width) - 1

/-- A read of a register of a block that the function presents: all ones where no register of that width lies there, where
the block is disabled unless it is its first register, and where the transom does not reach it (R7, R8, R33, R538). -/
def blockRead (s : State) (r cap off width : Nat) : State × Nat :=
  let ones := 2 ^ (8 * width) - 1
  if (regDomain cap off).any (fun d => !reachable s d) then (offAccess s, ones)
  else match fnRegVal s r cap off with
    | none => (s, ones)
    | some (w, v) => if w = 8 * width ∧ (capOn s r cap = true ∨ off = 0) then (tickFree s, v) else (s, ones)

/-- What a host read of a function's list BAR answers. -/
def barRead (s : State) (r off width : Nat) : State × Nat :=
  if !isFn r || (isVf r && !vfThere s r) || decide (listBarSize r < off + width) then (s, 2 ^ (8 * width) - 1)
  else match blockAt s r off with
    | some (cap, o) => blockRead s r cap o width
    | none => (s, listRead s r off width)

end Sys2Proof.Machine
end

