-- ==== Sys2Proof/Laws/InvStep.lean ====
section
/-!
SUPPORT. What every step keeps, function by function: registers, the tick, migration, and the dispatcher.
-/
set_option Elab.async false
set_option linter.all false
namespace Sys2Proof.Machine

theorem writeRing_inv (r off v : Nat) (s : State) (h1 : StateInv s) :
    StateInv (writeRing r off v s) := by
  unfold writeRing; try dsimp only
  repeat' first | (with_reducible first | assumption | apply inv_ite | apply State.modFn_inv) | simp only [↓inv_mk] | with_reducible intro _ | dsimp +zetaDelta only | split

theorem writeEvents_inv (r off v : Nat) (s : State) (h1 : StateInv s) :
    StateInv (writeEvents r off v s) := by
  unfold writeEvents; try dsimp only
  repeat' first | (with_reducible first | assumption | apply inv_ite | apply State.modFn_inv) | simp only [↓inv_mk] | with_reducible intro _ | dsimp +zetaDelta only | split

theorem writeFnCtl_inv (r off v : Nat) (s : State) (h1 : StateInv s) :
    StateInv (writeFnCtl r off v s) := by
  unfold writeFnCtl; try dsimp only
  repeat' first | (with_reducible first | assumption | apply inv_ite | apply State.modFn_inv) | simp only [↓inv_mk] | with_reducible intro _ | dsimp +zetaDelta only | split

theorem writePortCtrl_inv (r p v : Nat) (s : State) (h1 : StateInv s) :
    StateInv (writePortCtrl r p v s) := by
  unfold writePortCtrl; try dsimp only
  repeat' first | (with_reducible first | assumption | apply inv_ite | apply doPortDisable_inv | apply doPortEnable_inv | apply State.modPort_inv | apply portReg_inv | apply retrainIfActive_inv) | simp only [↓inv_mk] | with_reducible intro _ | dsimp +zetaDelta only | split

theorem writeRetrainAt_inv (p v : Nat) (s : State) (h1 : StateInv s) :
    StateInv (writeRetrainAt p v s) := by
  unfold writeRetrainAt; try dsimp only
  repeat' first | (with_reducible first | assumption | apply inv_ite | apply State.modPort_inv | apply retrainIfActive_inv) | simp only [↓inv_mk] | with_reducible intro _ | dsimp +zetaDelta only | split

theorem writeFabric_inv (r off v : Nat) (s : State) (h1 : StateInv s) :
    StateInv (writeFabric r off v s) := by
  unfold writeFabric; try dsimp only
  repeat' first | (with_reducible first | assumption | apply inv_ite | apply State.modPort_inv | apply portReg_inv | apply writePortCtrl_inv | apply writeRetrainAt_inv) | simp only [↓inv_mk] | with_reducible intro _ | dsimp +zetaDelta only | split

theorem writeWindows_inv (r off v : Nat) (s : State) (h1 : StateInv s) :
    StateInv (writeWindows r off v s) := by
  unfold writeWindows; try dsimp only
  repeat' first | (with_reducible first | assumption | apply inv_ite | apply State.modPort_inv | apply portReg_inv) | simp only [↓inv_mk] | with_reducible intro _ | dsimp +zetaDelta only | split

theorem writeCkpt_inv (r off v : Nat) (s : State) (h1 : StateInv s) :
    StateInv (writeCkpt r off v s) := by
  unfold writeCkpt; try dsimp only
  repeat' first | (with_reducible first | assumption | apply inv_ite | apply State.modCk_inv) | simp only [↓inv_mk] | with_reducible intro _ | dsimp +zetaDelta only | split

theorem writeRdma_inv (r off v : Nat) (s : State) (h1 : StateInv s) :
    StateInv (writeRdma r off v s) := by
  unfold writeRdma; try dsimp only
  repeat' first | (with_reducible first | assumption | apply inv_ite | apply State.modRdma_inv) | simp only [↓inv_mk] | simp only [↓invQ_pair] | (with_reducible first | apply inv_Q | apply invQ_ite | (apply inv_ofQ; assumption)) | with_reducible intro _ | dsimp +zetaDelta only | split

theorem writeSched_inv (r off v : Nat) (s : State) (h1 : StateInv s) :
    StateInv (writeSched r off v s) := by
  unfold writeSched; try dsimp only
  repeat' first | (with_reducible first | assumption | apply inv_ite | apply inv_ite1 | apply doBreakout_inv | apply State.modNetIf_inv | apply State.modNetPort_inv | apply netReg_inv | apply refused_inv) | simp only [↓inv_mk] | simp only [↓inv_pair] | (with_reducible first | apply inv_P | (apply inv_fst; assumption)) | with_reducible intro _ | dsimp +zetaDelta only | split

theorem writeCheck_inv (r off v : Nat) (s : State) (h1 : StateInv s) :
    StateInv (writeCheck r off v s) := by
  unfold writeCheck; try dsimp only
  repeat' first | (with_reducible first | assumption | apply inv_ite | apply cvAbort_inv | apply cvEnd_inv | apply cvReg_inv | apply doArm_inv | apply doDisarm_inv | apply State.modCv_inv | apply State.modMon_inv) | simp only [↓inv_mk] | with_reducible intro _ | dsimp +zetaDelta only | split

theorem writeFeed_inv (path off v : Nat) (s : State) (h1 : StateInv s) :
    StateInv (writeFeed path off v s) := by
  unfold writeFeed; try dsimp only
  repeat' first | (with_reducible first | assumption | apply inv_ite | apply State.modPath_inv) | simp only [↓inv_mk] | with_reducible intro _ | dsimp +zetaDelta only | split

theorem writePower_inv (off v : Nat) (s : State) (h1 : StateInv s) :
    StateInv (writePower off v s) := by
  unfold writePower; try dsimp only
  repeat' first | (with_reducible first | assumption | apply inv_ite | apply State.modPow_inv) | simp only [↓inv_mk] | with_reducible intro _ | dsimp +zetaDelta only | split

theorem writeBlock_inv (r cap off v : Nat) (s : State) (h1 : StateInv s) :
    StateInv (writeBlock r cap off v s) := by
  unfold writeBlock
  repeat' first | (with_reducible first | assumption | apply writeCheck_inv | apply writeCkpt_inv | apply writeEvents_inv | apply writeFabric_inv | apply writeFeed_inv | apply writeFnCtl_inv | apply writePower_inv | apply writeRdma_inv | apply writeRing_inv | apply writeSched_inv | apply writeWindows_inv) | with_reducible intro _ | split

theorem writeNvme_inv (r off width v : Nat) (s : State) (h1 : StateInv s) :
    StateInv (writeNvme r off width v s) := by
  unfold writeNvme; try dsimp only
  repeat' first | (with_reducible first | assumption | apply inv_ite | apply State.modCtl_inv) | simp only [↓inv_mk] | with_reducible intro _ | dsimp +zetaDelta only | split

theorem sendAll_inv (s : State) (r : Nat) (h1 : StateInv s) :
    StateInv (sendAll s r) := by
  unfold sendAll; try dsimp only
  repeat' first | (with_reducible first | assumption | apply inv_foldl | apply sendPending_inv) | with_reducible intro _ | dsimp +zetaDelta only | split

theorem writeConfig_inv (r off v : Nat) (s : State) (h1 : StateInv s) :
    StateInv (writeConfig r off v s) := by
  unfold writeConfig; try dsimp only
  repeat' first | (with_reducible first | assumption | apply inv_ite | apply State.modFn_inv | apply sendAll_inv) | simp only [↓inv_mk] | with_reducible intro _ | dsimp +zetaDelta only | split

theorem setKv_inv (off v : Nat) (s : State) (h1 : StateInv s) :
    StateInv (setKv off v s) := by
  unfold setKv; try dsimp only
  repeat' first | (with_reducible first | assumption | apply inv_ite | apply doKvCommit_inv | apply doKvUnlock_inv | apply State.modPool_inv | apply State.modT0_inv) | simp only [↓inv_mk] | with_reducible intro _ | dsimp +zetaDelta only | split

theorem setRdmaShared_inv (off v : Nat) (s : State) (h1 : StateInv s) :
    StateInv (setRdmaShared off v s) := by
  unfold setRdmaShared; try dsimp only
  repeat' first | (with_reducible first | assumption | apply inv_ite | apply State.modRdma_inv) | simp only [↓inv_mk] | simp only [↓invQ_pair] | (with_reducible first | apply inv_Q | apply invQ_ite | (apply inv_ofQ; assumption)) | with_reducible intro _ | dsimp +zetaDelta only | split

theorem resumeGates_inv (s : State) (h1 : StateInv s) :
    StateInv (resumeGates s) := by
  unfold resumeGates; try dsimp only
  repeat' first | (with_reducible first | assumption) | simp only [↓inv_mk] | with_reducible intro _ | dsimp +zetaDelta only | split

theorem shiftWire_inv (off : Int) (s : State) (h1 : StateInv s) :
    StateInv (shiftWire off s) := by
  unfold shiftWire; try dsimp only
  repeat' first | (with_reducible first | assumption) | simp only [↓inv_mk] | with_reducible intro _ | dsimp +zetaDelta only | split

theorem stepTime_inv (v : Nat) (s : State) (h1 : StateInv s) : StateInv (stepTime v s) := by
  unfold stepTime; dsimp only
  refine inv_ite (fun _ => inv_clock h1 ⟨h1.2.1, h1.2.2.1⟩) (fun _ => ?_)
  exact endDue_inv _ _ (postAll_inv _ _ _ _ _ (resumeGates_inv _ (shiftWire_inv _ _ (inv_clock h1 ⟨h1.2.1, h1.2.2.1⟩))))

theorem setFreq_inv (v : Nat) (s : State) (h1 : StateInv s) : StateInv (setFreq v s) := by
  unfold setFreq; dsimp only
  refine inv_ite (fun _ => inv_clock h1 ⟨h1.2.1, h1.2.2.1⟩) (fun h => inv_clock h1 ⟨?_, ?_⟩)
  · show -(10 ^ 8) ≤ sxt 32 v; omega
  · show sxt 32 v ≤ 10 ^ 8; omega

theorem setTime_inv (off : Nat) (v : Nat) (s : State) (h1 : StateInv s) : StateInv (setTime off v s) := by
  unfold setTime
  exact inv_ite (fun _ => setFreq_inv _ _ h1) (fun _ => inv_ite (fun _ => inv_ite (fun _ => inv_clock h1 ⟨h1.2.1, h1.2.2.1⟩) (fun _ => h1))
    (fun _ => inv_ite (fun _ => stepTime_inv _ _ h1) (fun _ => State.modNetPort_inv _ _ _ h1)))

theorem setSto_inv (off v : Nat) (s : State) (h1 : StateInv s) :
    StateInv (setSto off v s) := by
  unfold setSto; try dsimp only
  repeat' first | (with_reducible first | assumption | apply inv_ite | apply doStoCommit_inv | apply doStoUnlock_inv | apply State.modSto_inv) | simp only [↓inv_mk] | with_reducible intro _ | dsimp +zetaDelta only | split

theorem setMem_inv (off : Nat) (v : Nat) (s : State) (h1 : StateInv s) : StateInv (setMem off v s) := by
  unfold setMem
  refine inv_ite (fun _ => inv_ite (fun h => inv_cap h1 ⟨?_, Nat.mod_lt _ (by decide)⟩) (fun _ => h1)) (fun _ => h1)
  rw [capOk_mod]; exact h

theorem setPower_inv (off v : Nat) (s : State) (h1 : StateInv s) :
    StateInv (setPower off v s) := by
  unfold setPower
  repeat' first | (with_reducible first | assumption | apply inv_ite | apply setEnvelope_inv | apply setProfile_inv | apply setRetainMask_inv | apply warmRestart_inv) | simp only [↓invX_mk] | simp only [↓invXP_pair] | (with_reducible first | apply invXP_ite | apply invXP_foldl | apply inv_XP | apply invX_ite | apply invX_foldl | apply invX_s) | with_reducible intro _ | dsimp +zetaDelta only | split

theorem setInterval_inv (off v : Nat) (s : State) (h1 : StateInv s) :
    StateInv (setInterval off v s) := by
  unfold setInterval; try dsimp only
  repeat' first | (with_reducible first | assumption | apply inv_ite | apply State.modWx_inv) | simp only [↓inv_mk] | with_reducible intro _ | dsimp +zetaDelta only | split

theorem applyShared_inv (cap off v : Nat) (s : State) (h1 : StateInv s) :
    StateInv (applyShared cap off v s) := by
  unfold applyShared; try dsimp only
  repeat' first | (with_reducible first | assumption | apply inv_ite | apply State.modStile_inv | apply offAccess_inv | apply setInterval_inv | apply setKv_inv | apply setMem_inv | apply setPower_inv | apply setRdmaShared_inv | apply setSto_inv | apply setTime_inv | apply settleMode_inv) | simp only [↓inv_mk] | with_reducible intro _ | dsimp +zetaDelta only | split

theorem holdShared_inv (h : Held) (s : State) (h1 : StateInv s) :
    StateInv (holdShared h s) := by
  unfold holdShared; try dsimp only
  repeat' first | (with_reducible first | assumption) | simp only [↓inv_mk] | dsimp +zetaDelta only | split

theorem doShared_inv (rank cap off width v : Nat) (s : State) (h1 : StateInv s) :
    StateInv (doShared rank cap off width v s) := by
  unfold doShared; try dsimp only
  repeat' first | (with_reducible first | assumption | apply inv_ite | apply holdShared_inv | apply State.modFn_inv) | simp only [↓inv_mk] | with_reducible intro _ | dsimp +zetaDelta only | split

theorem execSharedControlWrite_inv (rank cap off width : Nat) (value : BitVec 64) (s : State) (h1 : StateInv s) :
    InvC (execSharedControlWrite rank cap off width value s) := by
  unfold execSharedControlWrite
  repeat' first | (with_reducible first | assumption | apply doShared_inv | apply gatedShared_inv) | (with_reducible first | apply invC_next | apply invC_ite | apply invC_fault | (apply inv_ofC; assumption)) | with_reducible intro _

theorem doRegWrite_inv (r : Nat) (space : RegSpace) (off width v : Nat) (s : State) (h1 : StateInv s) :
    StateInv (doRegWrite r space off width v s) := by
  unfold doRegWrite
  repeat' first | (with_reducible first | assumption | apply inv_ite | apply doKeeperCsr_inv | apply writeBlock_inv | apply writeConfig_inv | apply writeNvme_inv) | with_reducible intro _ | split

theorem execRegisterWrite_inv (fn : Nat) (space : RegSpace) (off width : Nat) (value : BitVec 64) (s : State) (h1 : StateInv s) :
    InvC (execRegisterWrite fn space off width value s) := by
  unfold execRegisterWrite
  repeat' first | (with_reducible first | assumption | apply doRegWrite_inv | apply gated_inv) | (with_reducible first | apply invC_next | apply invC_ite | apply invC_fault | (apply inv_ofC; assumption)) | with_reducible intro _ | split

theorem regResult_inv (s : State) (n v status : Nat) (h1 : StateInv s) :
    StateInv (regResult s n v status) := by
  unfold regResult
  repeat' first | (with_reducible first | assumption | apply sendOne_inv)

theorem viewRead_inv (s : State) (n cap off width : Nat) (h1 : StateInv s) :
    InvP (viewRead s n cap off width) := by
  unfold viewRead; try dsimp only
  repeat' first | (with_reducible first | assumption | apply inv_ite | apply inv_ite1 | apply offAccess_inv | apply tickFree_inv) | simp only [↓inv_pair] | (with_reducible first | apply inv_P | (apply inv_fst; assumption)) | with_reducible intro _ | dsimp +zetaDelta only | split

theorem regReadMsg_inv (n : Nat) (b : List Byte) (s : State) (h1 : StateInv s) :
    StateInv (regReadMsg n b s) := by
  unfold regReadMsg; try dsimp only
  repeat' first | (with_reducible first | assumption | apply regResult_inv | apply viewRead_inv) | simp only [↓inv_pair] | (with_reducible first | apply inv_P | (apply inv_fst; assumption)) | dsimp +zetaDelta only | split

theorem execRegRead_inv (session : Nat) (msg : List (BitVec 8)) (s : State) (h1 : StateInv s) :
    InvC (execRegRead session msg s) := by
  unfold execRegRead; try dsimp only
  repeat' first | (with_reducible first | assumption | apply gatedS_inv | apply onMsg_inv | apply regReadMsg_inv) | (with_reducible first | apply invC_next | apply invC_ite | apply invC_fault | (apply inv_ofC; assumption)) | with_reducible intro _ | dsimp +zetaDelta only | split

theorem regWriteMsg_inv (n : Nat) (b : List Byte) (s : State) (h1 : StateInv s) :
    StateInv (regWriteMsg n b s) := by
  unfold regWriteMsg; try dsimp only
  repeat' first | (with_reducible first | assumption | apply inv_ite | apply holdShared_inv | apply regResult_inv | apply writeFeed_inv | apply writePower_inv) | simp only [↓inv_mk] | with_reducible intro _ | dsimp +zetaDelta only | split

theorem execRegWrite_inv (session : Nat) (msg : List (BitVec 8)) (s : State) (h1 : StateInv s) :
    InvC (execRegWrite session msg s) := by
  unfold execRegWrite; try dsimp only
  repeat' first | (with_reducible first | assumption | apply inv_ite | apply act_inv | apply gatedS_inv | apply onMsg_inv | apply regWriteMsg_inv) | (with_reducible first | apply invC_next | apply invC_ite | apply invC_fault | (apply inv_ofC; assumption)) | with_reducible intro _ | dsimp +zetaDelta only

theorem blockRead_inv (s : State) (r cap off width : Nat) (h1 : StateInv s) :
    InvP (blockRead s r cap off width) := by
  unfold blockRead; try dsimp only
  repeat' first | (with_reducible first | assumption | apply inv_ite | apply inv_ite1 | apply offAccess_inv | apply tickFree_inv) | simp only [↓inv_pair] | (with_reducible first | apply inv_P | (apply inv_fst; assumption)) | with_reducible intro _ | dsimp +zetaDelta only | split

theorem barRead_inv (s : State) (r off width : Nat) (h1 : StateInv s) :
    InvP (barRead s r off width) := by
  unfold barRead
  repeat' first | (with_reducible first | assumption | apply inv_ite | apply inv_ite1 | apply blockRead_inv) | simp only [↓inv_pair] | (with_reducible first | apply inv_P | (apply inv_fst; assumption)) | with_reducible intro _ | dsimp +zetaDelta only | split

theorem applyOne_inv (h : Held) (s : State) (h1 : StateInv s) :
    StateInv (applyOne h s) := by
  unfold applyOne
  repeat' first | (with_reducible first | assumption | apply inv_ite | apply applyShared_inv | apply auditRec_inv) | (with_reducible first | apply invO_none | apply invO_some | apply invO_ite | (apply inv_of; assumption)) | with_reducible intro _ | split

theorem tellSession_inv (h : Held) (status : Nat) (s : State) (h1 : StateInv s) :
    StateInv (tellSession h status s) := by
  unfold tellSession
  repeat' first | (with_reducible first | assumption | apply inv_ite | apply regResult_inv) | with_reducible intro _

theorem settleOne_inv (hs : List (Nat × Held)) (s : State) (x : Nat × Held) (h1 : StateInv s) :
    StateInv (settleOne hs s x) := by
  unfold settleOne
  repeat' first | (with_reducible first | assumption | apply inv_ite | apply applyOne_inv | apply logConflict_inv | apply tellSession_inv) | with_reducible intro _ | split

theorem settleHeldWrites_inv (s : State) (h1 : StateInv s) :
    StateInv (settleHeldWrites s) := by
  unfold settleHeldWrites; try dsimp only
  repeat' first | (with_reducible first | assumption | apply inv_foldl | apply settleOne_inv) | simp only [↓inv_mk] | with_reducible intro _ | dsimp +zetaDelta only | split

theorem runBehind_inv (s : State) (i : Instr) (h1 : StateInv s) :
    StateInv (runBehind s i) := by
  unfold runBehind; try dsimp only
  repeat' first | (with_reducible first | assumption | apply execAfGateCommit_inv | apply execAttest_inv | apply execAuditRead_inv | apply execBreakoutWrite_inv | apply execCcEnClear_inv | apply execCcEnSet_inv | apply execCkSetCommit_inv | apply execCkSetUnlock_inv | apply execClaim_inv | apply execConsent_inv | apply execCqHeadDoorbell_inv | apply execCvArm_inv | apply execCvDisarm_inv | apply execDebugUnlock_inv | apply execDisableEntry_inv | apply execDoorbell_inv | apply execEvCommit_inv | apply execEvUnlock_inv | apply execFunctionEnable_inv | apply execFunctionShutdown_inv | apply execFwActivate_inv | apply execFwConfirm_inv | apply execFwStage_inv | apply execInstallerKey_inv | apply execIntxPendingClear_inv | apply execLeasePeriodWrite_inv | apply execLoadEntry_inv | apply execMsixUnmask_inv | apply execNvmeShutdown_inv | apply execOperatorKey_inv | apply execOrphanAdopt_inv | apply execOrphanDiscard_inv | apply execPolicy_inv | apply execPortDisable_inv | apply execPortEnable_inv | apply execPortRetrain_inv | apply execPwCommit_inv | apply execRdmaSetCommit_inv | apply execRdmaSetUnlock_inv | apply execRegRead_inv | apply execRegWrite_inv | apply execRegisterWrite_inv | apply execRelease_inv | apply execRingDirCommit_inv | apply execRingDirUnlock_inv | apply execSchGateCommit_inv | apply execSharedControlWrite_inv | apply execSqTailDoorbell_inv | apply execVcCreditsWrite_inv | apply execVfQuotaWrite_inv | apply Rest.go_inv) | simp only [↓invX_mk] | simp only [↓invXP_pair] | (with_reducible first | apply invXP_ite | apply invXP_foldl | apply inv_XP | apply invX_ite | apply invX_foldl | apply invX_s | apply invC_next | apply invC_ite | apply invC_fault | (apply inv_ofC; assumption)) | with_reducible intro _ | dsimp +zetaDelta only | split

theorem releaseBehind_inv (s : State) (h1 : StateInv s) :
    StateInv (releaseBehind s) := by
  unfold releaseBehind; try dsimp only
  repeat' first | (with_reducible first | assumption | apply inv_foldl | apply runBehind_inv) | simp only [↓inv_mk] | with_reducible intro _ | dsimp +zetaDelta only | split

theorem toTick_inv (s : State) (h1 : StateInv s) :
    StateInv (toTick s) := by
  unfold toTick; try dsimp only
  repeat' first | (with_reducible first | assumption | apply advanceTo_inv) | simp only [↓inv_mk] | dsimp +zetaDelta only | split

theorem doTick_inv (claimEnN debugEnN : Bool) (s : State) (h1 : StateInv s) :
    StateInv (doTick claimEnN debugEnN s) := by
  unfold doTick
  repeat' first | (with_reducible first | assumption | apply inv_ite | apply releaseBehind_inv | apply settleHeldWrites_inv | apply strapTick_inv | apply tickCmds_inv | apply tickProfile_inv | apply toTick_inv) | with_reducible intro _

theorem execCommitTick_inv (claimEnN debugEnN : Bool) (s : State) (h1 : StateInv s) :
    InvC (execCommitTick claimEnN debugEnN s) := by
  unfold execCommitTick
  repeat' first | (with_reducible first | assumption | apply doTick_inv) | (with_reducible first | apply invC_next | apply invC_ite | apply invC_fault | (apply inv_ofC; assumption)) | with_reducible intro _

theorem cqWriteFailed_inv (r i : Nat) (s : State) (h1 : StateInv s) :
    StateInv (cqWriteFailed r i s) := by
  unfold cqWriteFailed
  repeat' first | (with_reducible first | assumption | apply inv_ite | apply checkFreeze_inv | apply ringError_inv) | with_reducible intro _

theorem doFetch_inv (r i : Nat) (read : HRead) (s : State) (h1 : StateInv s) :
    StateInv (doFetch r i read s) := by
  unfold doFetch; try dsimp only
  repeat' first | (with_reducible first | assumption | apply inv_ite | apply checkFreeze_inv | apply cqWriteFailed_inv | apply dma_inv | apply emit_inv | apply finish_inv | apply logTimeout_inv | apply State.modRing_inv | apply ringError_inv | apply unorder_inv) | simp only [↓inv_mk] | with_reducible intro _ | dsimp +zetaDelta only | split

theorem execDescriptorFetch_inv (fn ring : Nat) (read : HRead) (s : State) (h1 : StateInv s) :
    InvC (execDescriptorFetch fn ring read s) := by
  unfold execDescriptorFetch
  repeat' first | (with_reducible first | assumption | apply doFetch_inv) | (with_reducible first | apply invC_next | apply invC_ite | apply invC_fault | (apply inv_ofC; assumption)) | with_reducible intro _

theorem withVf_inv (r d : Nat) (sts : List FnSt) (act : Nat → State → CmdRes) (s : State) (h1 : ∀ (y0 : Nat) (y1 : State), StateInv y1 → InvP (act y0 y1)) (h2 : StateInv s) :
    InvP (withVf r d sts act s) := by
  unfold withVf; try dsimp only
  repeat' first | (with_reducible first | assumption | apply inv_ite | apply inv_ite1 | apply h1 | apply bad_inv) | simp only [↓inv_pair] | (with_reducible first | apply inv_P | (apply inv_fst; assumption)) | with_reducible intro _ | dsimp +zetaDelta only | split

theorem vfFreeze_inv (r d : Nat) (ref : DRef) (s : State) (h1 : StateInv s) :
    InvP (vfFreeze r d ref s) := by
  unfold vfFreeze; try dsimp only
  repeat' first | (with_reducible first | assumption | apply inv_ite | apply inv_ite1 | apply bad_inv | apply checkFreeze_inv | apply checkFreezeNvm_inv | apply later_inv | apply State.modFn_inv | apply withVf_inv) | simp only [↓inv_mk] | simp only [↓inv_pair] | (with_reducible first | apply inv_P | (apply inv_fst; assumption)) | with_reducible intro _ | dsimp +zetaDelta only | split

theorem execVfFreeze_inv (fn ring : Nat) (s : State) (h1 : StateInv s) :
    InvC (execVfFreeze fn ring s) := by
  unfold execVfFreeze; try dsimp only
  repeat' first | (with_reducible first | assumption | apply onDesc_inv | apply vfFreeze_inv) | simp only [↓inv_pair] | (with_reducible first | apply inv_P | apply invC_next | apply invC_ite | apply invC_fault | (apply inv_ofC; assumption) | (apply inv_fst; assumption)) | with_reducible intro _ | dsimp +zetaDelta only | split

theorem saveKey_inv (s : State) (die wn n : Nat) (k : KeySlot) (h1 : StateInv s) :
    InvOP (saveKey s die wn n k) := by
  unfold saveKey; try dsimp only
  repeat' first | (with_reducible first | assumption | apply useCounter_inv) | simp only [↓inv_pair] | (with_reducible first | apply inv_P | apply invO_none | apply invO_some | apply invO_ite | (apply inv_of; assumption) | apply invOP_none | apply invOP_some | apply invOP_ite | (apply inv_of1; assumption) | (apply inv_of2; assumption) | (apply inv_fst; assumption)) | with_reducible intro _ | dsimp +zetaDelta only | split

theorem saveKeys_inv (die wn : Nat) (z0 : List (Nat × KeySlot)) (z1 : State) (h1 : StateInv z1) :
    InvOP (saveKeys die wn z0 z1) := by
  fun_induction saveKeys die wn z0 z1 <;> try dsimp +zetaDelta only
  all_goals repeat' first | (with_reducible first | assumption | apply saveKey_inv) | simp only [↓inv_pair] | (with_reducible first | apply inv_P | apply invO_none | apply invO_some | apply invO_ite | (apply inv_of; assumption) | apply invO_map | apply invOP_none | apply invOP_some | apply invOP_ite | (apply inv_of1; assumption) | (apply inv_of2; assumption) | apply invOP_map | (apply inv_fst; assumption)) | with_reducible apply_assumption -exfalso | with_reducible intro _ | dsimp +zetaDelta only | split

theorem vfSave_inv (r d : Nat) (ref : DRef) (s : State) (h1 : StateInv s) :
    InvP (vfSave r d ref s) := by
  unfold vfSave; try dsimp only
  repeat' first | (with_reducible first | assumption | apply inv_ite | apply inv_ite1 | apply bad_inv | apply badR_inv | apply hostWrite_inv | apply State.modFn_inv | apply State.modSeal_inv | apply okR_inv | apply saveKeys_inv | apply useCounter_inv | apply withSlot_inv | apply withVf_inv) | simp only [↓inv_mk] | simp only [↓inv_pair] | (with_reducible first | apply inv_P | apply invO_none | apply invO_some | apply invO_ite | (apply inv_of; assumption) | apply invO_map | apply invOP_none | apply invOP_some | apply invOP_ite | (apply inv_of1; assumption) | (apply inv_of2; assumption) | apply invOP_map | (apply inv_fst; assumption)) | with_reducible intro _ | dsimp +zetaDelta only | split

theorem execVfSave_inv (fn ring : Nat) (s : State) (h1 : StateInv s) :
    InvC (execVfSave fn ring s) := by
  unfold execVfSave; try dsimp only
  repeat' first | (with_reducible first | assumption | apply onDesc_inv | apply vfSave_inv) | simp only [↓inv_pair] | (with_reducible first | apply inv_P | apply invC_next | apply invC_ite | apply invC_fault | (apply inv_ofC; assumption) | (apply inv_fst; assumption)) | with_reducible intro _ | dsimp +zetaDelta only | split

theorem restoreKeys_inv (o : Own) (w : KeySlot) (z0 : List (List Nat)) (z1 : State) (h1 : StateInv z1) : InvE (restoreKeys o w z0 z1) := by
  induction z0 generalizing z1 with
  | nil => exact invE_ok h1
  | cons l rest ih =>
    rw [restoreKeys]
    generalize natLE 512 (lget l 3 0) = bs
    generalize lowestFree z1.sealing.slots 0 262144 = a
    generalize gcmOpen (keyOf w) (nonceOf w (fld (leNat (List.take 16 bs)) 64 64)) (List.take 16 bs) (sliceB bs 16 480) (sliceB bs 496 16) = b
    cases a with
    | none => exact invE_error
    | some n =>
      cases b with
      | none => exact invE_error
      | some c => exact ih _ (State.putSlot_inv _ _ _ h1)

theorem restoreRings_inv (v : Nat) (z0 : List (List Nat)) (z1 : State) (h1 : StateInv z1) :
    InvO (restoreRings v z0 z1) := by
  fun_induction restoreRings v z0 z1 <;> try dsimp +zetaDelta only
  all_goals repeat' first | (with_reducible first | assumption | apply State.modRing_inv) | (with_reducible first | apply invO_none | apply invO_some | apply invO_ite | (apply inv_of; assumption)) | with_reducible apply_assumption -exfalso | with_reducible intro _ | dsimp +zetaDelta only | split

theorem restoreRdma_inv (v : Nat) (o : Own) (rs : List (List Nat)) (s : State) (h1 : StateInv s) :
    StateInv (restoreRdma v o rs s) := by
  unfold restoreRdma; try dsimp only
  repeat' first | (with_reducible first | assumption | apply inv_foldl | apply State.modRdma_inv) | simp only [↓inv_mk] | simp only [↓invQ_pair] | (with_reducible first | apply inv_Q | apply invQ_ite | (apply inv_ofQ; assumption)) | with_reducible intro _ | dsimp +zetaDelta only | split

theorem restoreCtrl_inv (v : Nat) (map : List Byte) (rs : List (List Nat)) (s : State) (h1 : StateInv s) :
    StateInv (restoreCtrl v map rs s) := by
  unfold restoreCtrl; try dsimp only
  repeat' first | (with_reducible first | assumption | apply inv_foldl | apply State.modCtl_inv | apply State.modNs_inv | apply placeCtrl_inv) | simp only [↓inv_mk] | with_reducible intro _ | dsimp +zetaDelta only | split

theorem vfRestore_inv (r d : Nat) (blob map : HRead) (s : State) (h1 : StateInv s) :
    InvP (vfRestore r d blob map s) := by
  unfold vfRestore; try dsimp only
  repeat' first | (with_reducible first | assumption | apply inv_ite | apply inv_ite1 | apply bad_inv | apply State.modFn_inv | apply okR_inv | apply restoreCtrl_inv | apply restoreKeys_inv | apply restoreRdma_inv | apply restoreRings_inv | apply withSlot_inv | apply withVf_inv) | simp only [↓inv_mk] | simp only [↓inv_pair] | simp only [↓invX_mk] | simp only [↓invXP_pair] | (with_reducible first | apply invXP_ite | apply invXP_foldl | apply inv_XP | apply invX_ite | apply invX_foldl | apply invX_s | apply inv_P | apply invO_none | apply invO_some | apply invO_ite | (apply inv_of; assumption) | apply invO_map | apply inv_getD | apply invE_ok | apply invE_error | (apply inv_ofE; assumption) | (apply inv_fst; assumption)) | with_reducible intro _ | dsimp +zetaDelta only | split

theorem execVfRestore_inv (fn ring : Nat) (blob map : HRead) (s : State) (h1 : StateInv s) :
    InvC (execVfRestore fn ring blob map s) := by
  unfold execVfRestore; try dsimp only
  repeat' first | (with_reducible first | assumption | apply onDesc_inv | apply vfRestore_inv) | simp only [↓inv_pair] | simp only [↓invX_mk] | simp only [↓invXP_pair] | (with_reducible first | apply invXP_ite | apply invXP_foldl | apply inv_XP | apply invX_ite | apply invX_foldl | apply invX_s | apply inv_P | apply invC_next | apply invC_ite | apply invC_fault | (apply inv_ofC; assumption) | (apply inv_fst; assumption)) | with_reducible intro _ | dsimp +zetaDelta only | split

theorem vfThaw_inv (r d : Nat) (s : State) (h1 : StateInv s) :
    InvP (vfThaw r d s) := by
  unfold vfThaw; try dsimp only
  repeat' first | (with_reducible first | assumption | apply inv_ite | apply inv_ite1 | apply inv_foldl | apply inv_foldl1 | apply flushLost_inv | apply State.modFn_inv | apply ok0_inv | apply pumpSends_inv | apply settleSto_inv | apply withVf_inv) | simp only [↓inv_mk] | simp only [↓inv_pair] | (with_reducible first | apply inv_P | (apply inv_fst; assumption)) | with_reducible intro _ | dsimp +zetaDelta only | split

theorem execVfThaw_inv (fn ring : Nat) (s : State) (h1 : StateInv s) :
    InvC (execVfThaw fn ring s) := by
  unfold execVfThaw; try dsimp only
  repeat' first | (with_reducible first | assumption | apply onDesc_inv | apply vfThaw_inv) | simp only [↓inv_pair] | (with_reducible first | apply inv_P | apply invC_next | apply invC_ite | apply invC_fault | (apply inv_ofC; assumption) | (apply inv_fst; assumption)) | with_reducible intro _ | dsimp +zetaDelta only | split

theorem dirtyLog_inv (r d : Nat) (s : State) (h1 : StateInv s) :
    InvP (dirtyLog r d s) := by
  unfold dirtyLog; try dsimp only
  repeat' first | (with_reducible first | assumption | apply inv_ite | apply inv_ite1 | apply inv_foldl | apply inv_foldl1 | apply bad_inv | apply hostWrite_inv | apply State.modFn_inv | apply okR_inv | apply withVf_inv) | simp only [↓inv_mk] | simp only [↓inv_pair] | (with_reducible first | apply inv_P | (apply inv_fst; assumption)) | with_reducible intro _ | dsimp +zetaDelta only | split

theorem execDirtyLog_inv (fn ring : Nat) (s : State) (h1 : StateInv s) :
    InvC (execDirtyLog fn ring s) := by
  unfold execDirtyLog; try dsimp only
  repeat' first | (with_reducible first | assumption | apply dirtyLog_inv | apply onDesc_inv) | simp only [↓inv_pair] | (with_reducible first | apply inv_P | apply invC_next | apply invC_ite | apply invC_fault | (apply inv_ofC; assumption) | (apply inv_fst; assumption)) | with_reducible intro _ | dsimp +zetaDelta only | split

theorem doPps_inv (s : State) (h1 : StateInv s) :
    StateInv (doPps s) := by
  unfold doPps
  repeat' first | (with_reducible first | assumption | apply advanceToPtp_inv | apply emit_inv)

theorem execPpsPulse_inv (s : State) (h1 : StateInv s) :
    InvC (execPpsPulse s) := by
  unfold execPpsPulse
  repeat' first | (with_reducible first | assumption | apply doPps_inv) | (with_reducible first | apply invC_next | apply invC_ite | apply invC_fault | (apply inv_ofC; assumption)) | with_reducible intro _

/-- Every command keeps the invariant. -/
theorem exec_inv (i : Instr) (s : State) (h : StateInv s) : InvC (exec i s) := by
  cases i with
  | registerWrite fn space off width value => rw [exec_registerWrite]; exact execRegisterWrite_inv fn space off width value s h
  | sharedControlWrite rank cap off width value => rw [exec_sharedControlWrite]; exact execSharedControlWrite_inv rank cap off width value s h
  | ringDirCommit fn => rw [exec_ringDirCommit]; exact execRingDirCommit_inv fn s h
  | ringDirUnlock fn => rw [exec_ringDirUnlock]; exact execRingDirUnlock_inv fn s h
  | loadEntry fn index => rw [exec_loadEntry]; exact execLoadEntry_inv fn index s h
  | disableEntry fn index => rw [exec_disableEntry]; exact execDisableEntry_inv fn index s h
  | doorbell fn page offset width word => rw [exec_doorbell]; exact execDoorbell_inv fn page offset width word s h
  | evCommit fn value => rw [exec_evCommit]; exact execEvCommit_inv fn value s h
  | evUnlock fn => rw [exec_evUnlock]; exact execEvUnlock_inv fn s h
  | leasePeriodWrite fn value => rw [exec_leasePeriodWrite]; exact execLeasePeriodWrite_inv fn value s h
  | portEnable fn port => rw [exec_portEnable]; exact execPortEnable_inv fn port s h
  | portDisable fn port => rw [exec_portDisable]; exact execPortDisable_inv fn port s h
  | portRetrain fn port => rw [exec_portRetrain]; exact execPortRetrain_inv fn port s h
  | pwCommit fn mask => rw [exec_pwCommit]; exact execPwCommit_inv fn mask s h
  | afGateCommit fn port => rw [exec_afGateCommit]; exact execAfGateCommit_inv fn port s h
  | vcCreditsWrite fn port units => rw [exec_vcCreditsWrite]; exact execVcCreditsWrite_inv fn port units s h
  | ckSetCommit fn => rw [exec_ckSetCommit]; exact execCkSetCommit_inv fn s h
  | ckSetUnlock fn => rw [exec_ckSetUnlock]; exact execCkSetUnlock_inv fn s h
  | rdmaSetCommit fn => rw [exec_rdmaSetCommit]; exact execRdmaSetCommit_inv fn s h
  | rdmaSetUnlock fn => rw [exec_rdmaSetUnlock]; exact execRdmaSetUnlock_inv fn s h
  | schGateCommit fn iface => rw [exec_schGateCommit]; exact execSchGateCommit_inv fn iface s h
  | breakoutWrite fn net value => rw [exec_breakoutWrite]; exact execBreakoutWrite_inv fn net value s h
  | sqTailDoorbell fn q tail cmds => rw [exec_sqTailDoorbell]; exact execSqTailDoorbell_inv fn q tail cmds s h
  | cqHeadDoorbell fn q head => rw [exec_cqHeadDoorbell]; exact execCqHeadDoorbell_inv fn q head s h
  | ccEnSet fn cc => rw [exec_ccEnSet]; exact execCcEnSet_inv fn cc s h
  | ccEnClear fn reads => rw [exec_ccEnClear]; exact execCcEnClear_inv fn reads s h
  | nvmeShutdown fn shn => rw [exec_nvmeShutdown]; exact execNvmeShutdown_inv fn shn s h
  | functionEnable fn => rw [exec_functionEnable]; exact execFunctionEnable_inv fn s h
  | functionShutdown fn keep enable reads => rw [exec_functionShutdown]; exact execFunctionShutdown_inv fn keep enable reads s h
  | orphanAdopt fn entries => rw [exec_orphanAdopt]; exact execOrphanAdopt_inv fn entries s h
  | orphanDiscard fn => rw [exec_orphanDiscard]; exact execOrphanDiscard_inv fn s h
  | vfQuotaWrite pf vf second value => rw [exec_vfQuotaWrite]; exact execVfQuotaWrite_inv pf vf second value s h
  | msixUnmask fn vec => rw [exec_msixUnmask]; exact execMsixUnmask_inv fn vec s h
  | intxPendingClear fn index value => rw [exec_intxPendingClear]; exact execIntxPendingClear_inv fn index value s h
  | regRead session msg => rw [exec_regRead]; exact execRegRead_inv session msg s h
  | regWrite session msg => rw [exec_regWrite]; exact execRegWrite_inv session msg s h
  | claim session msg => rw [exec_claim]; exact execClaim_inv session msg s h
  | release session msg => rw [exec_release]; exact execRelease_inv session msg s h
  | installerKey session msg => rw [exec_installerKey]; exact execInstallerKey_inv session msg s h
  | operatorKey session msg => rw [exec_operatorKey]; exact execOperatorKey_inv session msg s h
  | policy session msg => rw [exec_policy]; exact execPolicy_inv session msg s h
  | consent session msg => rw [exec_consent]; exact execConsent_inv session msg s h
  | debugUnlock session msg => rw [exec_debugUnlock]; exact execDebugUnlock_inv session msg s h
  | fwStage src read image => rw [exec_fwStage]; exact execFwStage_inv src read image s h
  | fwActivate src => rw [exec_fwActivate]; exact execFwActivate_inv src s h
  | fwConfirm src => rw [exec_fwConfirm]; exact execFwConfirm_inv src s h
  | attest src => rw [exec_attest]; exact execAttest_inv src s h
  | auditRead src => rw [exec_auditRead]; exact execAuditRead_inv src s h
  | cvArm fn unit ctrl => rw [exec_cvArm]; exact execCvArm_inv fn unit ctrl s h
  | cvDisarm fn unit ctrl => rw [exec_cvDisarm]; exact execCvDisarm_inv fn unit ctrl s h
  | commitTick claimEnN debugEnN => rw [exec_commitTick]; exact execCommitTick_inv claimEnN debugEnN s h
  | directoryReadReturn fn read => rw [exec_directoryReadReturn]; exact execDirectoryReadReturn_inv fn read s h
  | descriptorFetch fn ring read => rw [exec_descriptorFetch]; exact execDescriptorFetch_inv fn ring read s h
  | nop fn ring => rw [exec_nop]; exact execNop_inv fn ring s h
  | interruptModerationExpiry fn ring => rw [exec_interruptModerationExpiry]; exact execInterruptModerationExpiry_inv fn ring s h
  | leaseHalf fn => rw [exec_leaseHalf]; exact execLeaseHalf_inv fn s h
  | leaseExpiry fn reads => rw [exec_leaseExpiry]; exact execLeaseExpiry_inv fn reads s h
  | rxLightChange port lit => rw [exec_rxLightChange]; exact execRxLightChange_inv port lit s h
  | detectHalfTimeout port => rw [exec_detectHalfTimeout]; exact execDetectHalfTimeout_inv port s h
  | lossOfLight port => rw [exec_lossOfLight]; exact execLossOfLight_inv port s h
  | trainTimeout port => rw [exec_trainTimeout]; exact execTrainTimeout_inv port s h
  | trainingFlitRx port ownGood flit => rw [exec_trainingFlitRx]; exact execTrainingFlitRx_inv port ownGood flit s h
  | retrainTimeout port => rw [exec_retrainTimeout]; exact execRetrainTimeout_inv port s h
  | downTimeout port => rw [exec_downTimeout]; exact execDownTimeout_inv port s h
  | widenCheck port => rw [exec_widenCheck]; exact execWidenCheck_inv port s h
  | retrainAtReached port => rw [exec_retrainAtReached]; exact execRetrainAtReached_inv port s h
  | flitRx port flit => rw [exec_flitRx]; exact execFlitRx_inv port flit s h
  | replayRun port => rw [exec_replayRun]; exact execReplayRun_inv port s h
  | ackTimer port => rw [exec_ackTimer]; exact execAckTimer_inv port s h
  | fabricWrite port addr data => rw [exec_fabricWrite]; exact execFabricWrite_inv port addr data s h
  | fabricWriteAcked port tag addr data => rw [exec_fabricWriteAcked]; exact execFabricWriteAcked_inv port tag addr data s h
  | fabricRead port tag addr length => rw [exec_fabricRead]; exact execFabricRead_inv port tag addr length s h
  | fabricCpl port toPort tag status data => rw [exec_fabricCpl]; exact execFabricCpl_inv port toPort tag status data s h
  | egressDepart port => rw [exec_egressDepart]; exact execEgressDepart_inv port s h
  | windowsActivate => rw [exec_windowsActivate]; exact execWindowsActivate_inv s h
  | gateListTakeEffect accel which => rw [exec_gateListTakeEffect]; exact execGateListTakeEffect_inv accel which s h
  | gateEntryAdvance accel which => rw [exec_gateEntryAdvance]; exact execGateEntryAdvance_inv accel which s h
  | accelAlert port low => rw [exec_accelAlert]; exact execAccelAlert_inv port low s h
  | rdOpen core => rw [exec_rdOpen]; exact execRdOpen_inv core s h
  | admissionGrant => rw [exec_admissionGrant]; exact execAdmissionGrant_inv s h
  | rdPull core => rw [exec_rdPull]; exact execRdPull_inv core s h
  | pullDataReturn handle which back => rw [exec_pullDataReturn]; exact execPullDataReturn_inv handle which back s h
  | rdClose core => rw [exec_rdClose]; exact execRdClose_inv core s h
  | rdAbort core => rw [exec_rdAbort]; exact execRdAbort_inv core s h
  | contrib port handle hgen rank element data => rw [exec_contrib]; exact execContrib_inv port handle hgen rank element data s h
  | resultCopyDepart handle sumTile => rw [exec_resultCopyDepart]; exact execResultCopyDepart_inv handle sumTile s h
  | resultWriteAccepted handle sumTile => rw [exec_resultWriteAccepted]; exact execResultWriteAccepted_inv handle sumTile s h
  | alu core lo => rw [exec_alu]; exact execAlu_inv core lo s h
  | addi core lo => rw [exec_addi]; exact execAddi_inv core lo s h
  | andi core lo => rw [exec_andi]; exact execAndi_inv core lo s h
  | ori core lo => rw [exec_ori]; exact execOri_inv core lo s h
  | xori core lo => rw [exec_xori]; exact execXori_inv core lo s h
  | shifti core lo => rw [exec_shifti]; exact execShifti_inv core lo s h
  | movi core lo => rw [exec_movi]; exact execMovi_inv core lo s h
  | movk16 core lo => rw [exec_movk16]; exact execMovk16_inv core lo s h
  | movk32 core lo => rw [exec_movk32]; exact execMovk32_inv core lo s h
  | movk48 core lo => rw [exec_movk48]; exact execMovk48_inv core lo s h
  | cmp core lo => rw [exec_cmp]; exact execCmp_inv core lo s h
  | cmpi core lo => rw [exec_cmpi]; exact execCmpi_inv core lo s h
  | plog core lo => rw [exec_plog]; exact execPlog_inv core lo s h
  | pmov core lo => rw [exec_pmov]; exact execPmov_inv core lo s h
  | ld8 core lo => rw [exec_ld8]; exact execLd8_inv core lo s h
  | ld16 core lo => rw [exec_ld16]; exact execLd16_inv core lo s h
  | ld32 core lo => rw [exec_ld32]; exact execLd32_inv core lo s h
  | ld64 core lo => rw [exec_ld64]; exact execLd64_inv core lo s h
  | lds8 core lo => rw [exec_lds8]; exact execLds8_inv core lo s h
  | lds16 core lo => rw [exec_lds16]; exact execLds16_inv core lo s h
  | lds32 core lo => rw [exec_lds32]; exact execLds32_inv core lo s h
  | loadDataReturn core ret => rw [exec_loadDataReturn]; exact execLoadDataReturn_inv core ret s h
  | st8 core lo => rw [exec_st8]; exact execSt8_inv core lo s h
  | st16 core lo => rw [exec_st16]; exact execSt16_inv core lo s h
  | st32 core lo => rw [exec_st32]; exact execSt32_inv core lo s h
  | st64 core lo => rw [exec_st64]; exact execSt64_inv core lo s h
  | cas core lo => rw [exec_cas]; exact execCas_inv core lo s h
  | fence core lo => rw [exec_fence]; exact execFence_inv core lo s h
  | br core lo => rw [exec_br]; exact execBr_inv core lo s h
  | jr core lo => rw [exec_jr]; exact execJr_inv core lo s h
  | adr core lo => rw [exec_adr]; exact execAdr_inv core lo s h
  | call core lo => rw [exec_call]; exact execCall_inv core lo s h
  | ret core lo => rw [exec_ret]; exact execRet_inv core lo s h
  | eret core lo => rw [exec_eret]; exact execEret_inv core lo s h
  | trap core lo => rw [exec_trap]; exact execTrap_inv core lo s h
  | step core lo => rw [exec_step]; exact execStep_inv core lo s h
  | wait core lo => rw [exec_wait]; exact execWait_inv core lo s h
  | waitWake core => rw [exec_waitWake]; exact execWaitWake_inv core s h
  | lock core lo => rw [exec_lock]; exact execLock_inv core lo s h
  | lockGrant lock => rw [exec_lockGrant]; exact execLockGrant_inv lock s h
  | unlock core lo => rw [exec_unlock]; exact execUnlock_inv core lo s h
  | alive core lo => rw [exec_alive]; exact execAlive_inv core lo s h
  | csrr core lo => rw [exec_csrr]; exact execCsrr_inv core lo s h
  | csrw core lo => rw [exec_csrw]; exact execCsrw_inv core lo s h
  | scqPop core lo => rw [exec_scqPop]; exact execScqPop_inv core lo s h
  | mboxPop core lo => rw [exec_mboxPop]; exact execMboxPop_inv core lo s h
  | stuckAccess core => rw [exec_stuckAccess]; exact execStuckAccess_inv core s h
  | aliveSample => rw [exec_aliveSample]; exact execAliveSample_inv s h
  | coreStop core => rw [exec_coreStop]; exact execCoreStop_inv core s h
  | coreReloadComplete core journal => rw [exec_coreReloadComplete]; exact execCoreReloadComplete_inv core journal s h
  | coreFailedAdoption core => rw [exec_coreFailedAdoption]; exact execCoreFailedAdoption_inv core s h
  | keeperFailover => rw [exec_keeperFailover]; exact execKeeperFailover_inv s h
  | keeperReloadComplete => rw [exec_keeperReloadComplete]; exact execKeeperReloadComplete_inv s h
  | romKeeperRestart => rw [exec_romKeeperRestart]; exact execRomKeeperRestart_inv s h
  | drainRequest core => rw [exec_drainRequest]; exact execDrainRequest_inv core s h
  | drainCancel core => rw [exec_drainCancel]; exact execDrainCancel_inv core s h
  | handoffRecord core => rw [exec_handoffRecord]; exact execHandoffRecord_inv core s h
  | handoffTimeout core => rw [exec_handoffTimeout]; exact execHandoffTimeout_inv core s h
  | swapAdopt core => rw [exec_swapAdopt]; exact execSwapAdopt_inv core s h
  | componentReplace => rw [exec_componentReplace]; exact execComponentReplace_inv s h
  | rtStep core => rw [exec_rtStep]; exact execRtStep_inv core s h
  | rtReap core => rw [exec_rtReap]; exact execRtReap_inv core s h
  | rtPut core => rw [exec_rtPut]; exact execRtPut_inv core s h
  | rtArrived core => rw [exec_rtArrived]; exact execRtArrived_inv core s h
  | rtMove core ext => rw [exec_rtMove]; exact execRtMove_inv core ext s h
  | rtNotify core => rw [exec_rtNotify]; exact execRtNotify_inv core s h
  | rtFinish core => rw [exec_rtFinish]; exact execRtFinish_inv core s h
  | rtYield core => rw [exec_rtYield]; exact execRtYield_inv core s h
  | progLoad fn ring image => rw [exec_progLoad]; exact execProgLoad_inv fn ring image s h
  | progUnload fn ring => rw [exec_progUnload]; exact execProgUnload_inv fn ring s h
  | commCreate fn ring => rw [exec_commCreate]; exact execCommCreate_inv fn ring s h
  | commConnect fn ring peers => rw [exec_commConnect]; exact execCommConnect_inv fn ring peers s h
  | commDestroy fn ring => rw [exec_commDestroy]; exact execCommDestroy_inv fn ring s h
  | collLaunch fn ring => rw [exec_collLaunch]; exact execCollLaunch_inv fn ring s h
  | launchStart core => rw [exec_launchStart]; exact execLaunchStart_inv core s h
  | collAbort fn ring => rw [exec_collAbort]; exact execCollAbort_inv fn ring s h
  | classSet fn ring => rw [exec_classSet]; exact execClassSet_inv fn ring s h
  | seqOpen fn ring => rw [exec_seqOpen]; exact execSeqOpen_inv fn ring s h
  | seqFork fn ring => rw [exec_seqFork]; exact execSeqFork_inv fn ring s h
  | seqClose fn ring => rw [exec_seqClose]; exact execSeqClose_inv fn ring s h
  | seqGrow fn ring => rw [exec_seqGrow]; exact execSeqGrow_inv fn ring s h
  | seqSeal fn ring => rw [exec_seqSeal]; exact execSeqSeal_inv fn ring s h
  | seqTruncate fn ring => rw [exec_seqTruncate]; exact execSeqTruncate_inv fn ring s h
  | seqPin fn ring => rw [exec_seqPin]; exact execSeqPin_inv fn ring s h
  | seqDemote fn ring => rw [exec_seqDemote]; exact execSeqDemote_inv fn ring s h
  | seqQuery fn ring => rw [exec_seqQuery]; exact execSeqQuery_inv fn ring s h
  | planPost fn ring entries => rw [exec_planPost]; exact execPlanPost_inv fn ring entries s h
  | planCancel fn ring => rw [exec_planCancel]; exact execPlanCancel_inv fn ring s h
  | blockCopyComplete block ext => rw [exec_blockCopyComplete]; exact execBlockCopyComplete_inv block ext s h
  | blockReadReturn plan block ext => rw [exec_blockReadReturn]; exact execBlockReadReturn_inv plan block ext s h
  | blockResident plan block => rw [exec_blockResident]; exact execBlockResident_inv plan block s h
  | planDeadline plan => rw [exec_planDeadline]; exact execPlanDeadline_inv plan s h
  | planRelease plan => rw [exec_planRelease]; exact execPlanRelease_inv plan s h
  | kvSetCommit => rw [exec_kvSetCommit]; exact execKvSetCommit_inv s h
  | kvSetUnlock => rw [exec_kvSetUnlock]; exact execKvSetUnlock_inv s h
  | ckptJobSet fn ring read => rw [exec_ckptJobSet]; exact execCkptJobSet_inv fn ring read s h
  | ckptTake fn ring read answers => rw [exec_ckptTake]; exact execCkptTake_inv fn ring read answers s h
  | snapshotPoint ep => rw [exec_snapshotPoint]; exact execSnapshotPoint_inv ep s h
  | granuleCow granule => rw [exec_granuleCow]; exact execGranuleCow_inv granule s h
  | captureReadReturn ep ext => rw [exec_captureReadReturn]; exact execCaptureReadReturn_inv ep ext s h
  | takeFlushComplete ep answer => rw [exec_takeFlushComplete]; exact execTakeFlushComplete_inv ep answer s h
  | rootWriteComplete ep answer => rw [exec_rootWriteComplete]; exact execRootWriteComplete_inv ep answer s h
  | ckptAbort fn ring => rw [exec_ckptAbort]; exact execCkptAbort_inv fn ring s h
  | ckptSurvey fn ring answers => rw [exec_ckptSurvey]; exact execCkptSurvey_inv fn ring answers s h
  | ckptRestore fn ring read answers => rw [exec_ckptRestore]; exact execCkptRestore_inv fn ring read answers s h
  | pdAlloc fn ring => rw [exec_pdAlloc]; exact execPdAlloc_inv fn ring s h
  | pdFree fn ring => rw [exec_pdFree]; exact execPdFree_inv fn ring s h
  | mrReg fn ring => rw [exec_mrReg]; exact execMrReg_inv fn ring s h
  | mrDereg fn ring => rw [exec_mrDereg]; exact execMrDereg_inv fn ring s h
  | qpCreate fn ring => rw [exec_qpCreate]; exact execQpCreate_inv fn ring s h
  | qpModify fn ring attrs => rw [exec_qpModify]; exact execQpModify_inv fn ring attrs s h
  | qpQuery fn ring => rw [exec_qpQuery]; exact execQpQuery_inv fn ring s h
  | qpDestroy fn ring => rw [exec_qpDestroy]; exact execQpDestroy_inv fn ring s h
  | ahCreate fn ring attrs => rw [exec_ahCreate]; exact execAhCreate_inv fn ring attrs s h
  | ahDestroy fn ring => rw [exec_ahDestroy]; exact execAhDestroy_inv fn ring s h
  | send fn ring data => rw [exec_send]; exact execSend_inv fn ring data s h
  | sendImm fn ring data => rw [exec_sendImm]; exact execSendImm_inv fn ring data s h
  | write fn ring data => rw [exec_write]; exact execWrite_inv fn ring data s h
  | writeImm fn ring data => rw [exec_writeImm]; exact execWriteImm_inv fn ring data s h
  | read fn ring => rw [exec_read]; exact execRead_inv fn ring s h
  | atomicCas fn ring => rw [exec_atomicCas]; exact execAtomicCas_inv fn ring s h
  | atomicFadd fn ring => rw [exec_atomicFadd]; exact execAtomicFadd_inv fn ring s h
  | recv fn ring => rw [exec_recv]; exact execRecv_inv fn ring s h
  | rcRequestPacket net host => rw [exec_rcRequestPacket]; exact execRcRequestPacket_inv net host s h
  | responsePacket net => rw [exec_responsePacket]; exact execResponsePacket_inv net s h
  | udPacket net => rw [exec_udPacket]; exact execUdPacket_inv net s h
  | ackTimeout qpn => rw [exec_ackTimeout]; exact execAckTimeout_inv qpn s h
  | rnrTimerExpiry qpn => rw [exec_rnrTimerExpiry]; exact execRnrTimerExpiry_inv qpn s h
  | cnpRx net => rw [exec_cnpRx]; exact execCnpRx_inv net s h
  | gustTick => rw [exec_gustTick]; exact execGustTick_inv s h
  | contextFetchReturn qpn read => rw [exec_contextFetchReturn]; exact execContextFetchReturn_inv qpn read s h
  | contextWritebackAccepted qpn => rw [exec_contextWritebackAccepted]; exact execContextWritebackAccepted_inv qpn s h
  | rxFrame iface frame => rw [exec_rxFrame]; exact execRxFrame_inv iface frame s h
  | classifyPass net tx => rw [exec_classifyPass]; exact execClassifyPass_inv net tx s h
  | graphLoad fn ring image sig graph => rw [exec_graphLoad]; exact execGraphLoad_inv fn ring image sig graph s h
  | graphUnload fn ring => rw [exec_graphUnload]; exact execGraphUnload_inv fn ring s h
  | setCreate fn ring record => rw [exec_setCreate]; exact execSetCreate_inv fn ring record s h
  | setDestroy fn ring => rw [exec_setDestroy]; exact execSetDestroy_inv fn ring s h
  | setConfig fn ring record => rw [exec_setConfig]; exact execSetConfig_inv fn ring record s h
  | bind fn ring => rw [exec_bind]; exact execBind_inv fn ring s h
  | entryAdd fn ring records => rw [exec_entryAdd]; exact execEntryAdd_inv fn ring records s h
  | entryDel fn ring records => rw [exec_entryDel]; exact execEntryDel_inv fn ring records s h
  | rangeSet fn ring record => rw [exec_rangeSet]; exact execRangeSet_inv fn ring record s h
  | setCommit fn ring => rw [exec_setCommit]; exact execSetCommit_inv fn ring s h
  | counterRead fn ring => rw [exec_counterRead]; exact execCounterRead_inv fn ring s h
  | legacyLoad fn ring image => rw [exec_legacyLoad]; exact execLegacyLoad_inv fn ring image s h
  | txqCreate fn ring => rw [exec_txqCreate]; exact execTxqCreate_inv fn ring s h
  | rxqCreate fn ring => rw [exec_rxqCreate]; exact execRxqCreate_inv fn ring s h
  | qConfig fn ring => rw [exec_qConfig]; exact execQConfig_inv fn ring s h
  | qDestroy fn ring => rw [exec_qDestroy]; exact execQDestroy_inv fn ring s h
  | policerSet fn ring => rw [exec_policerSet]; exact execPolicerSet_inv fn ring s h
  | policerRead fn ring => rw [exec_policerRead]; exact execPolicerRead_inv fn ring s h
  | txPacket fn ring data => rw [exec_txPacket]; exact execTxPacket_inv fn ring data s h
  | rxBuffer fn ring => rw [exec_rxBuffer]; exact execRxBuffer_inv fn ring s h
  | frameSelect iface => rw [exec_frameSelect]; exact execFrameSelect_inv iface s h
  | frameTxDone iface => rw [exec_frameTxDone]; exact execFrameTxDone_inv iface s h
  | timeWait fn ring => rw [exec_timeWait]; exact execTimeWait_inv fn ring s h
  | timeWaitDue => rw [exec_timeWaitDue]; exact execTimeWaitDue_inv s h
  | interfaceLinkChange iface up => rw [exec_interfaceLinkChange]; exact execInterfaceLinkChange_inv iface up s h
  | keyAlloc fn ring => rw [exec_keyAlloc]; exact execKeyAlloc_inv fn ring s h
  | keyLoad fn ring read => rw [exec_keyLoad]; exact execKeyLoad_inv fn ring read s h
  | keyFree fn ring => rw [exec_keyFree]; exact execKeyFree_inv fn ring s h
  | saSet fn ring read => rw [exec_saSet]; exact execSaSet_inv fn ring read s h
  | sealGcm fn ring src aad => rw [exec_sealGcm]; exact execSealGcm_inv fn ring src aad s h
  | openGcm fn ring src aad => rw [exec_openGcm]; exact execOpenGcm_inv fn ring src aad s h
  | xtsEnc fn ring src => rw [exec_xtsEnc]; exact execXtsEnc_inv fn ring src s h
  | xtsDec fn ring src => rw [exec_xtsDec]; exact execXtsDec_inv fn ring src s h
  | hash fn ring src state => rw [exec_hash]; exact execHash_inv fn ring src state s h
  | ctxSave fn ring => rw [exec_ctxSave]; exact execCtxSave_inv fn ring s h
  | ctxRestore fn ring src => rw [exec_ctxRestore]; exact execCtxRestore_inv fn ring src s h
  | saQuery fn ring => rw [exec_saQuery]; exact execSaQuery_inv fn ring s h
  | sealTileFault tile8 => rw [exec_sealTileFault]; exact execSealTileFault_inv tile8 s h
  | sealRecoveryEnd tile8 => rw [exec_sealRecoveryEnd]; exact execSealRecoveryEnd_inv tile8 s h
  | mcLockClaim claims => rw [exec_mcLockClaim]; exact execMcLockClaim_inv claims s h
  | mcLockRelease claimant => rw [exec_mcLockRelease]; exact execMcLockRelease_inv claimant s h
  | mcLockForcedRelease => rw [exec_mcLockForcedRelease]; exact execMcLockForcedRelease_inv s h
  | identify fn prps => rw [exec_identify]; exact execIdentify_inv fn prps s h
  | getLogPage fn prps => rw [exec_getLogPage]; exact execGetLogPage_inv fn prps s h
  | setFeatures fn => rw [exec_setFeatures]; exact execSetFeatures_inv fn s h
  | getFeatures fn => rw [exec_getFeatures]; exact execGetFeatures_inv fn s h
  | createIoSq fn => rw [exec_createIoSq]; exact execCreateIoSq_inv fn s h
  | createIoCq fn => rw [exec_createIoCq]; exact execCreateIoCq_inv fn s h
  | deleteIoSq fn => rw [exec_deleteIoSq]; exact execDeleteIoSq_inv fn s h
  | deleteIoCq fn => rw [exec_deleteIoCq]; exact execDeleteIoCq_inv fn s h
  | nvmeAbort fn => rw [exec_nvmeAbort]; exact execNvmeAbort_inv fn s h
  | asyncEventRequest fn => rw [exec_asyncEventRequest]; exact execAsyncEventRequest_inv fn s h
  | nvmeRead fn sq prps => rw [exec_nvmeRead]; exact execNvmeRead_inv fn sq prps s h
  | nvmeWrite fn sq data => rw [exec_nvmeWrite]; exact execNvmeWrite_inv fn sq data s h
  | nvmeFlush fn sq => rw [exec_nvmeFlush]; exact execNvmeFlush_inv fn sq s h
  | writeZeroes fn sq => rw [exec_writeZeroes]; exact execWriteZeroes_inv fn sq s h
  | datasetManagement fn sq ranges => rw [exec_datasetManagement]; exact execDatasetManagement_inv fn sq ranges s h
  | backendCommandComplete backend which answer => rw [exec_backendCommandComplete]; exact execBackendCommandComplete_inv backend which answer s h
  | writeBackComplete backend which answer => rw [exec_writeBackComplete]; exact execWriteBackComplete_inv backend which answer s h
  | keepAlive backend ok => rw [exec_keepAlive]; exact execKeepAlive_inv backend ok s h
  | backendCreate fn ring read => rw [exec_backendCreate]; exact execBackendCreate_inv fn ring read s h
  | backendConnectStep backend answer => rw [exec_backendConnectStep]; exact execBackendConnectStep_inv backend answer s h
  | backendDestroy fn ring => rw [exec_backendDestroy]; exact execBackendDestroy_inv fn ring s h
  | backendRebind fn ring read => rw [exec_backendRebind]; exact execBackendRebind_inv fn ring read s h
  | backendQuery fn ring => rw [exec_backendQuery]; exact execBackendQuery_inv fn ring s h
  | nsCreate fn ring => rw [exec_nsCreate]; exact execNsCreate_inv fn ring s h
  | nsDelete fn ring => rw [exec_nsDelete]; exact execNsDelete_inv fn ring s h
  | nsAttach fn ring => rw [exec_nsAttach]; exact execNsAttach_inv fn ring s h
  | nsDetach fn ring => rw [exec_nsDetach]; exact execNsDetach_inv fn ring s h
  | stoSetCommit => rw [exec_stoSetCommit]; exact execStoSetCommit_inv s h
  | stoSetUnlock => rw [exec_stoSetUnlock]; exact execStoSetUnlock_inv s h
  | flr fn reads => rw [exec_flr]; exact execFlr_inv fn reads s h
  | hotReset ep reads => rw [exec_hotReset]; exact execHotReset_inv ep reads s h
  | busMasterClear fn reads => rw [exec_busMasterClear]; exact execBusMasterClear_inv fn reads s h
  | d3hotEntry fn reads => rw [exec_d3hotEntry]; exact execD3hotEntry_inv fn reads s h
  | vfEnableSet pf num => rw [exec_vfEnableSet]; exact execVfEnableSet_inv pf num s h
  | vfEnableClear pf reads => rw [exec_vfEnableClear]; exact execVfEnableClear_inv pf reads s h
  | functionDrained fn => rw [exec_functionDrained]; exact execFunctionDrained_inv fn s h
  | drainBoundExpiry fn => rw [exec_drainBoundExpiry]; exact execDrainBoundExpiry_inv fn s h
  | orphanHoldExpiry fn => rw [exec_orphanHoldExpiry]; exact execOrphanHoldExpiry_inv fn s h
  | hostReadTimeout fn dir => rw [exec_hostReadTimeout]; exact execHostReadTimeout_inv fn dir s h
  | poisonedTlp fn read dir => rw [exec_poisonedTlp]; exact execPoisonedTlp_inv fn read dir s h
  | unexpectedCompletion fn => rw [exec_unexpectedCompletion]; exact execUnexpectedCompletion_inv fn s h
  | aspmL1Entry ep => rw [exec_aspmL1Entry]; exact execAspmL1Entry_inv ep s h
  | vfFreeze fn ring => rw [exec_vfFreeze]; exact execVfFreeze_inv fn ring s h
  | vfSave fn ring => rw [exec_vfSave]; exact execVfSave_inv fn ring s h
  | vfRestore fn ring blob map => rw [exec_vfRestore]; exact execVfRestore_inv fn ring blob map s h
  | vfThaw fn ring => rw [exec_vfThaw]; exact execVfThaw_inv fn ring s h
  | dirtyLog fn ring => rw [exec_dirtyLog]; exact execDirtyLog_inv fn ring s h
  | groupRetire fn ring => rw [exec_groupRetire]; exact execGroupRetire_inv fn ring s h
  | frameCopyComplete stack lines => rw [exec_frameCopyComplete]; exact execFrameCopyComplete_inv stack lines s h
  | lostListRead fn ring => rw [exec_lostListRead]; exact execLostListRead_inv fn ring s h
  | scrub stack line found => rw [exec_scrub]; exact execScrub_inv stack line found s h
  | channelTrainingLoss stack chan => rw [exec_channelTrainingLoss]; exact execChannelTrainingLoss_inv stack chan s h
  | channelRetrainComplete stack chan trained => rw [exec_channelRetrainComplete]; exact execChannelRetrainComplete_inv stack chan trained s h
  | memCapWindow stack => rw [exec_memCapWindow]; exact execMemCapWindow_inv stack s h
  | powerGood => rw [exec_powerGood]; exact execPowerGood_inv s h
  | powerLoss => rw [exec_powerLoss]; exact execPowerLoss_inv s h
  | inputUndervoltage mv => rw [exec_inputUndervoltage]; exact execInputUndervoltage_inv mv s h
  | inputOvervoltage mv => rw [exec_inputOvervoltage]; exact execInputOvervoltage_inv mv s h
  | inputReturn mv => rw [exec_inputReturn]; exact execInputReturn_inv mv s h
  | busOvercurrent status => rw [exec_busOvercurrent]; exact execBusOvercurrent_inv status s h
  | railFault rail status => rw [exec_railFault]; exact execRailFault_inv rail status s h
  | sensorFault kind which => rw [exec_sensorFault]; exact execSensorFault_inv kind which s h
  | busRecovery ok => rw [exec_busRecovery]; exact execBusRecovery_inv ok s h
  | regulatorAck rail => rw [exec_regulatorAck]; exact execRegulatorAck_inv rail s h
  | regulatorAckTimeout rail => rw [exec_regulatorAckTimeout]; exact execRegulatorAckTimeout_inv rail s h
  | railsSettled => rw [exec_railsSettled]; exact execRailsSettled_inv s h
  | voltageRetry => rw [exec_voltageRetry]; exact execVoltageRetry_inv s h
  | envelopeExceeded watts => rw [exec_envelopeExceeded]; exact execEnvelopeExceeded_inv watts s h
  | envelopeRaise watts => rw [exec_envelopeRaise]; exact execEnvelopeRaise_inv watts s h
  | thermalNearLimit domain temp => rw [exec_thermalNearLimit]; exact execThermalNearLimit_inv domain temp s h
  | thermalRaise => rw [exec_thermalRaise]; exact execThermalRaise_inv s h
  | thermalLimit domain temp => rw [exec_thermalLimit]; exact execThermalLimit_inv domain temp s h
  | thermalTrip domain => rw [exec_thermalTrip]; exact execThermalTrip_inv domain s h
  | thermalCooled domain => rw [exec_thermalCooled]; exact execThermalCooled_inv domain s h
  | unitShutter fn ring => rw [exec_unitShutter]; exact execUnitShutter_inv fn ring s h
  | shutterDrainComplete domain => rw [exec_shutterDrainComplete]; exact execShutterDrainComplete_inv domain s h
  | ctlHandoffTimeout domain => rw [exec_ctlHandoffTimeout]; exact execCtlHandoffTimeout_inv domain s h
  | unitReopen fn ring temp => rw [exec_unitReopen]; exact execUnitReopen_inv fn ring temp s h
  | selfTestComplete domain failed => rw [exec_selfTestComplete]; exact execSelfTestComplete_inv domain failed s h
  | domainTransitionComplete domain => rw [exec_domainTransitionComplete]; exact execDomainTransitionComplete_inv domain s h
  | cdcOverrun bit fn ring seq => rw [exec_cdcOverrun]; exact execCdcOverrun_inv bit fn ring seq s h
  | stageReached failed die => rw [exec_stageReached]; exact execStageReached_inv failed die s h
  | mgmtConnect => rw [exec_mgmtConnect]; exact execMgmtConnect_inv s h
  | mgmtOpen session msg pub => rw [exec_mgmtOpen]; exact execMgmtOpen_inv session msg pub s h
  | mgmtIdleTimeout session => rw [exec_mgmtIdleTimeout]; exact execMgmtIdleTimeout_inv session s h
  | mgmtClose session => rw [exec_mgmtClose]; exact execMgmtClose_inv session s h
  | flashFault device => rw [exec_flashFault]; exact execFlashFault_inv device s h
  | cvWindowEnd unit => rw [exec_cvWindowEnd]; exact execCvWindowEnd_inv unit s h
  | cvWindowAbort unit => rw [exec_cvWindowAbort]; exact execCvWindowAbort_inv unit s h
  | amSample mon read => rw [exec_amSample]; exact execAmSample_inv mon read s h
  | wfSample type sensors => rw [exec_wfSample]; exact execWfSample_inv type sensors s h
  | feedBuffer fn ring => rw [exec_feedBuffer]; exact execFeedBuffer_inv fn ring s h
  | feedFlush fn ring => rw [exec_feedFlush]; exact execFeedFlush_inv fn ring s h
  | feedFlushTimeout pf => rw [exec_feedFlushTimeout]; exact execFeedFlushTimeout_inv pf s h
  | laserUnitRemove laser => rw [exec_laserUnitRemove]; exact execLaserUnitRemove_inv laser s h
  | laserUnitInsert laser => rw [exec_laserUnitInsert]; exact execLaserUnitInsert_inv laser s h
  | ppsPulse => rw [exec_ppsPulse]; exact execPpsPulse_inv s h
  | laneAlignmentLoss port lane => rw [exec_laneAlignmentLoss]; exact execLaneAlignmentLoss_inv port lane s h
  | spillReadReturn handle found => rw [exec_spillReadReturn]; exact execSpillReadReturn_inv handle found s h
  | granuleCopyComplete granule => rw [exec_granuleCopyComplete]; exact execGranuleCopyComplete_inv granule s h
  | takeReadReturn ep ext => rw [exec_takeReadReturn]; exact execTakeReadReturn_inv ep ext s h
  | keeperRomRestartComplete => rw [exec_keeperRomRestartComplete]; exact execKeeperRomRestartComplete_inv s h

end Sys2Proof.Machine
end

