-- ==== Sys2Proof/Laws/Tables.lean ====
section
/-!
SUPPORT. Sparse tables: what a read gives after a write, and that a write keeps the canonical form.
-/
set_option Elab.async false
namespace Sys2Proof.Machine

/-- A write leaves every other key as it was. -/
theorem mget_mset_ne {V : Type} [DecidableEq V] (m : NMap V) {k k' : Nat} (v d : V) (h : k' ≠ k) :
    mget (mset m k v d) k' d = mget m k' d := by
  induction m with
  | nil => simp only [mset]; split <;> simp [mget, h]
  | cons p r ih =>
    obtain ⟨a, b⟩ := p
    simp only [mset]
    split
    · split <;> simp [mget, h]
    · split
      · subst_vars
        split <;> simp [mget, h]
      · simp only [mget, ih]

/-- A written value other than the default reads back. -/
theorem mget_mset_self {V : Type} [DecidableEq V] (m : NMap V) (k : Nat) {v d : V} (h : v ≠ d) :
    mget (mset m k v d) k d = v := by
  induction m with
  | nil => simp [mset, mget, h]
  | cons p r ih =>
    obtain ⟨a, b⟩ := p
    simp only [mset]
    split
    · simp [mget, h]
    · split
      · simp [mget, h]
      · rename_i h1 h2; simp [mget, h2, ih]

theorem mget_below {V : Type} [DecidableEq V] (d : V) : ∀ (m : NMap V) (lo k : Nat), mwfFrom lo d m = true → k < lo → mget m k d = d := by
  intro m
  induction m with
  | nil => intros; rfl
  | cons p r ih =>
    obtain ⟨a, b⟩ := p
    intro lo k h hk
    simp only [mwfFrom, Bool.and_eq_true, decide_eq_true_eq] at h
    have : k ≠ a := by omega
    simp only [mget, this, if_false]
    exact ih (a + 1) k h.2 (by omega)

theorem mwfFrom_mono {V : Type} [DecidableEq V] (d : V) (m : NMap V) {lo lo' : Nat} (h : mwfFrom lo d m = true) (hl : lo' ≤ lo) : mwfFrom lo' d m = true := by
  cases m with
  | nil => rfl
  | cons p r =>
    obtain ⟨a, b⟩ := p
    simp only [mwfFrom, Bool.and_eq_true, decide_eq_true_eq] at h ⊢
    exact ⟨⟨by omega, h.1.2⟩, h.2⟩

/-- In a canonical table a written value reads back, the default too. -/
theorem mget_mset_wf {V : Type} [DecidableEq V] (k : Nat) (v d : V) : ∀ (m : NMap V) (lo : Nat), mwfFrom lo d m = true →
    mget (mset m k v d) k d = v := by
  intro m
  induction m with
  | nil => intro _ _; simp only [mset]; split <;> simp_all [mget]
  | cons p r ih =>
    obtain ⟨a, b⟩ := p
    intro lo h
    simp only [mwfFrom, Bool.and_eq_true, decide_eq_true_eq] at h
    simp only [mset]
    split
    · split
      · rename_i h1 h2
        have : k ≠ a := by omega
        simp only [mget, this, if_false, h2]
        exact mget_below d r (a + 1) k h.2 (by omega)
      · simp [mget]
    · split
      · split
        · rename_i h2 h3; rw [h3, h2]; exact mget_below d r (a + 1) a h.2 (by omega)
        · simp [mget]
      · rename_i h1 h2; simp only [mget, h2, if_false]; exact ih (a + 1) h.2

/-- A write keeps the canonical form. -/
theorem mwfFrom_mset {V : Type} [DecidableEq V] (k : Nat) (v d : V) : ∀ (m : NMap V) (lo : Nat), mwfFrom lo d m = true → lo ≤ k →
    mwfFrom lo d (mset m k v d) = true := by
  intro m
  induction m with
  | nil => intro lo _ hk; simp only [mset]; split <;> simp_all [mwfFrom]
  | cons p r ih =>
    obtain ⟨a, b⟩ := p
    intro lo h hk
    have h0 := h
    simp only [mwfFrom, Bool.and_eq_true, decide_eq_true_eq] at h
    simp only [mset]
    split
    · split
      · exact h0
      · rename_i h1 h2
        simp only [mwfFrom, Bool.and_eq_true, decide_eq_true_eq]
        exact ⟨⟨hk, h2⟩, ⟨by omega, h.1.2⟩, h.2⟩
    · split
      · split
        · exact mwfFrom_mono d r h.2 (by omega)
        · rename_i h2 h3
          simp only [mwfFrom, Bool.and_eq_true, decide_eq_true_eq]
          exact ⟨⟨hk, h3⟩, h2 ▸ h.2⟩
      · simp only [mwfFrom, Bool.and_eq_true, decide_eq_true_eq]
        exact ⟨h.1, ih (a + 1) h.2 (by omega)⟩

theorem mwf_mset {V : Type} [DecidableEq V] (m : NMap V) (k : Nat) (v d : V) (h : mwf d m = true) : mwf d (mset m k v d) = true :=
  mwfFrom_mset k v d m 0 h (Nat.zero_le k)

/-- Writing back what a canonical table holds changes nothing. -/
theorem mset_mget {V : Type} [DecidableEq V] (k : Nat) (d : V) : ∀ (m : NMap V) (lo : Nat), mwfFrom lo d m = true →
    mset m k (mget m k d) d = m := by
  intro m
  induction m with
  | nil => intros; simp [mset, mget]
  | cons p r ih =>
    obtain ⟨a, b⟩ := p
    intro lo h
    simp only [mwfFrom, Bool.and_eq_true, decide_eq_true_eq] at h
    by_cases hk : k < a
    · have : k ≠ a := by omega
      simp only [mset, hk, if_true, mget, this, if_false, mget_below d r (a + 1) k h.2 (by omega)]
    · by_cases h2 : k = a
      · simp [mset, mget, h2, h.1.2]
      · simp only [mset, hk, if_false, h2, mget, ih (a + 1) h.2]

/-! ### Tables of optional slots -/

theorem oget_oput {V : Type} (m : NMap V) (k : Nat) (v : V) : oget (oput m k v) k = some v := by
  induction m with
  | nil => simp [oput, oget]
  | cons p r ih =>
    obtain ⟨a, b⟩ := p
    simp only [oput]
    split
    · simp [oget]
    · split
      · simp [oget]
      · rename_i h1 h2; simp [oget, h2, ih]

theorem oget_oput_ne {V : Type} (m : NMap V) {k k' : Nat} (v : V) (h : k' ≠ k) : oget (oput m k v) k' = oget m k' := by
  induction m with
  | nil => simp [oput, oget, h]
  | cons p r ih =>
    obtain ⟨a, b⟩ := p
    simp only [oput]
    split
    · simp [oget, h]
    · split
      · subst_vars; simp [oget, h]
      · simp only [oget, ih]

theorem oget_omod {V : Type} (m : NMap V) (k : Nat) (f : V → V) : oget (omod m k f) k = (oget m k).map f := by
  induction m with
  | nil => rfl
  | cons p r ih =>
    obtain ⟨a, b⟩ := p
    by_cases h : a = k
    · simp [omod, oget, h]
    · have : k ≠ a := fun e => h e.symm
      have e : omod ((a, b) :: r) k f = (a, b) :: omod r k f := by simp [omod, h]
      rw [e]; simp [oget, this, ih]

theorem oget_omod_ne {V : Type} (m : NMap V) {k k' : Nat} (f : V → V) (h : k' ≠ k) : oget (omod m k f) k' = oget m k' := by
  induction m with
  | nil => rfl
  | cons p r ih =>
    obtain ⟨a, b⟩ := p
    by_cases h1 : a = k
    · have e : omod ((a, b) :: r) k f = (a, f b) :: omod r k f := by simp [omod, h1]
      rw [e]; subst h1; simp [oget, h, ih]
    · have e : omod ((a, b) :: r) k f = (a, b) :: omod r k f := by simp [omod, h1]
      rw [e]; simp [oget, ih]

end Sys2Proof.Machine
end

