-- ==== Sys2Proof/Laws/State.lean ====
section
/-!
SUPPORT. What each update of State leaves alone, one lemma a field: no proof need unfold a record update.
-/
set_option Elab.async false
namespace Sys2Proof.Machine

@[simp] theorem modFn_links (s : State) (r : Nat) (f : Fn → Fn) : (s.modFn r f).links = s.links := rfl
@[simp] theorem modFn_transom (s : State) (r : Nat) (f : Fn → Fn) : (s.modFn r f).transom = s.transom := rfl
@[simp] theorem modFn_regs (s : State) (r : Nat) (f : Fn → Fn) : (s.modFn r f).regs = s.regs := rfl
@[simp] theorem modFn_clock (s : State) (r : Nat) (f : Fn → Fn) : (s.modFn r f).clock = s.clock := rfl
@[simp] theorem modFn_stack (s : State) (r : Nat) (f : Fn → Fn) : (s.modFn r f).stack = s.stack := rfl
@[simp] theorem modFn_ports (s : State) (r : Nat) (f : Fn → Fn) : (s.modFn r f).ports = s.ports := rfl
@[simp] theorem modFn_fabric (s : State) (r : Nat) (f : Fn → Fn) : (s.modFn r f).fabric = s.fabric := rfl
@[simp] theorem modFn_red (s : State) (r : Nat) (f : Fn → Fn) : (s.modFn r f).red = s.red := rfl
@[simp] theorem modFn_cores (s : State) (r : Nat) (f : Fn → Fn) : (s.modFn r f).cores = s.cores := rfl
@[simp] theorem modFn_fw (s : State) (r : Nat) (f : Fn → Fn) : (s.modFn r f).fw = s.fw := rfl
@[simp] theorem modFn_kv (s : State) (r : Nat) (f : Fn → Fn) : (s.modFn r f).kv = s.kv := rfl
@[simp] theorem modFn_rdma (s : State) (r : Nat) (f : Fn → Fn) : (s.modFn r f).rdma = s.rdma := rfl
@[simp] theorem modFn_cls (s : State) (r : Nat) (f : Fn → Fn) : (s.modFn r f).cls = s.cls := rfl
@[simp] theorem modFn_net (s : State) (r : Nat) (f : Fn → Fn) : (s.modFn r f).net = s.net := rfl
@[simp] theorem modFn_sealing (s : State) (r : Nat) (f : Fn → Fn) : (s.modFn r f).sealing = s.sealing := rfl
@[simp] theorem modFn_sto (s : State) (r : Nat) (f : Fn → Fn) : (s.modFn r f).sto = s.sto := rfl
@[simp] theorem modFn_ck (s : State) (r : Nat) (f : Fn → Fn) : (s.modFn r f).ck = s.ck := rfl
@[simp] theorem modFn_stks (s : State) (r : Nat) (f : Fn → Fn) : (s.modFn r f).stks = s.stks := rfl
@[simp] theorem modFn_memCap (s : State) (r : Nat) (f : Fn → Fn) : (s.modFn r f).memCap = s.memCap := rfl
@[simp] theorem modFn_memCeLimit (s : State) (r : Nat) (f : Fn → Fn) : (s.modFn r f).memCeLimit = s.memCeLimit := rfl
@[simp] theorem modFn_doms (s : State) (r : Nat) (f : Fn → Fn) : (s.modFn r f).doms = s.doms := rfl
@[simp] theorem modFn_power (s : State) (r : Nat) (f : Fn → Fn) : (s.modFn r f).power = s.power := rfl
@[simp] theorem modFn_trust (s : State) (r : Nat) (f : Fn → Fn) : (s.modFn r f).trust = s.trust := rfl
@[simp] theorem modFn_wx (s : State) (r : Nat) (f : Fn → Fn) : (s.modFn r f).wx = s.wx := rfl
@[simp] theorem modFn_vcycle (s : State) (r : Nat) (f : Fn → Fn) : (s.modFn r f).vcycle = s.vcycle := rfl
@[simp] theorem modFn_freeCtr (s : State) (r : Nat) (f : Fn → Fn) : (s.modFn r f).freeCtr = s.freeCtr := rfl
@[simp] theorem modFn_out (s : State) (r : Nat) (f : Fn → Fn) : (s.modFn r f).out = s.out := rfl
@[simp] theorem modFn_pending (s : State) (r : Nat) (f : Fn → Fn) : (s.modFn r f).pending = s.pending := rfl

@[simp] theorem modRing_links (s : State) (r i : Nat) (f : Ring → Ring) : (s.modRing r i f).links = s.links := rfl
@[simp] theorem modRing_transom (s : State) (r i : Nat) (f : Ring → Ring) : (s.modRing r i f).transom = s.transom := rfl
@[simp] theorem modRing_regs (s : State) (r i : Nat) (f : Ring → Ring) : (s.modRing r i f).regs = s.regs := rfl
@[simp] theorem modRing_clock (s : State) (r i : Nat) (f : Ring → Ring) : (s.modRing r i f).clock = s.clock := rfl
@[simp] theorem modRing_stack (s : State) (r i : Nat) (f : Ring → Ring) : (s.modRing r i f).stack = s.stack := rfl
@[simp] theorem modRing_ports (s : State) (r i : Nat) (f : Ring → Ring) : (s.modRing r i f).ports = s.ports := rfl
@[simp] theorem modRing_fabric (s : State) (r i : Nat) (f : Ring → Ring) : (s.modRing r i f).fabric = s.fabric := rfl
@[simp] theorem modRing_red (s : State) (r i : Nat) (f : Ring → Ring) : (s.modRing r i f).red = s.red := rfl
@[simp] theorem modRing_cores (s : State) (r i : Nat) (f : Ring → Ring) : (s.modRing r i f).cores = s.cores := rfl
@[simp] theorem modRing_fw (s : State) (r i : Nat) (f : Ring → Ring) : (s.modRing r i f).fw = s.fw := rfl
@[simp] theorem modRing_kv (s : State) (r i : Nat) (f : Ring → Ring) : (s.modRing r i f).kv = s.kv := rfl
@[simp] theorem modRing_rdma (s : State) (r i : Nat) (f : Ring → Ring) : (s.modRing r i f).rdma = s.rdma := rfl
@[simp] theorem modRing_cls (s : State) (r i : Nat) (f : Ring → Ring) : (s.modRing r i f).cls = s.cls := rfl
@[simp] theorem modRing_net (s : State) (r i : Nat) (f : Ring → Ring) : (s.modRing r i f).net = s.net := rfl
@[simp] theorem modRing_sealing (s : State) (r i : Nat) (f : Ring → Ring) : (s.modRing r i f).sealing = s.sealing := rfl
@[simp] theorem modRing_sto (s : State) (r i : Nat) (f : Ring → Ring) : (s.modRing r i f).sto = s.sto := rfl
@[simp] theorem modRing_ck (s : State) (r i : Nat) (f : Ring → Ring) : (s.modRing r i f).ck = s.ck := rfl
@[simp] theorem modRing_stks (s : State) (r i : Nat) (f : Ring → Ring) : (s.modRing r i f).stks = s.stks := rfl
@[simp] theorem modRing_memCap (s : State) (r i : Nat) (f : Ring → Ring) : (s.modRing r i f).memCap = s.memCap := rfl
@[simp] theorem modRing_memCeLimit (s : State) (r i : Nat) (f : Ring → Ring) : (s.modRing r i f).memCeLimit = s.memCeLimit := rfl
@[simp] theorem modRing_doms (s : State) (r i : Nat) (f : Ring → Ring) : (s.modRing r i f).doms = s.doms := rfl
@[simp] theorem modRing_power (s : State) (r i : Nat) (f : Ring → Ring) : (s.modRing r i f).power = s.power := rfl
@[simp] theorem modRing_trust (s : State) (r i : Nat) (f : Ring → Ring) : (s.modRing r i f).trust = s.trust := rfl
@[simp] theorem modRing_wx (s : State) (r i : Nat) (f : Ring → Ring) : (s.modRing r i f).wx = s.wx := rfl
@[simp] theorem modRing_vcycle (s : State) (r i : Nat) (f : Ring → Ring) : (s.modRing r i f).vcycle = s.vcycle := rfl
@[simp] theorem modRing_freeCtr (s : State) (r i : Nat) (f : Ring → Ring) : (s.modRing r i f).freeCtr = s.freeCtr := rfl
@[simp] theorem modRing_out (s : State) (r i : Nat) (f : Ring → Ring) : (s.modRing r i f).out = s.out := rfl
@[simp] theorem modRing_pending (s : State) (r i : Nat) (f : Ring → Ring) : (s.modRing r i f).pending = s.pending := rfl

@[simp] theorem modCore_fns (s : State) (c : Nat) (f : Core → Core) : (s.modCore c f).fns = s.fns := rfl
@[simp] theorem modCore_links (s : State) (c : Nat) (f : Core → Core) : (s.modCore c f).links = s.links := rfl
@[simp] theorem modCore_transom (s : State) (c : Nat) (f : Core → Core) : (s.modCore c f).transom = s.transom := rfl
@[simp] theorem modCore_regs (s : State) (c : Nat) (f : Core → Core) : (s.modCore c f).regs = s.regs := rfl
@[simp] theorem modCore_clock (s : State) (c : Nat) (f : Core → Core) : (s.modCore c f).clock = s.clock := rfl
@[simp] theorem modCore_stack (s : State) (c : Nat) (f : Core → Core) : (s.modCore c f).stack = s.stack := rfl
@[simp] theorem modCore_ports (s : State) (c : Nat) (f : Core → Core) : (s.modCore c f).ports = s.ports := rfl
@[simp] theorem modCore_fabric (s : State) (c : Nat) (f : Core → Core) : (s.modCore c f).fabric = s.fabric := rfl
@[simp] theorem modCore_red (s : State) (c : Nat) (f : Core → Core) : (s.modCore c f).red = s.red := rfl
@[simp] theorem modCore_fw (s : State) (c : Nat) (f : Core → Core) : (s.modCore c f).fw = s.fw := rfl
@[simp] theorem modCore_kv (s : State) (c : Nat) (f : Core → Core) : (s.modCore c f).kv = s.kv := rfl
@[simp] theorem modCore_rdma (s : State) (c : Nat) (f : Core → Core) : (s.modCore c f).rdma = s.rdma := rfl
@[simp] theorem modCore_cls (s : State) (c : Nat) (f : Core → Core) : (s.modCore c f).cls = s.cls := rfl
@[simp] theorem modCore_net (s : State) (c : Nat) (f : Core → Core) : (s.modCore c f).net = s.net := rfl
@[simp] theorem modCore_sealing (s : State) (c : Nat) (f : Core → Core) : (s.modCore c f).sealing = s.sealing := rfl
@[simp] theorem modCore_sto (s : State) (c : Nat) (f : Core → Core) : (s.modCore c f).sto = s.sto := rfl
@[simp] theorem modCore_ck (s : State) (c : Nat) (f : Core → Core) : (s.modCore c f).ck = s.ck := rfl
@[simp] theorem modCore_stks (s : State) (c : Nat) (f : Core → Core) : (s.modCore c f).stks = s.stks := rfl
@[simp] theorem modCore_memCap (s : State) (c : Nat) (f : Core → Core) : (s.modCore c f).memCap = s.memCap := rfl
@[simp] theorem modCore_memCeLimit (s : State) (c : Nat) (f : Core → Core) : (s.modCore c f).memCeLimit = s.memCeLimit := rfl
@[simp] theorem modCore_doms (s : State) (c : Nat) (f : Core → Core) : (s.modCore c f).doms = s.doms := rfl
@[simp] theorem modCore_power (s : State) (c : Nat) (f : Core → Core) : (s.modCore c f).power = s.power := rfl
@[simp] theorem modCore_trust (s : State) (c : Nat) (f : Core → Core) : (s.modCore c f).trust = s.trust := rfl
@[simp] theorem modCore_wx (s : State) (c : Nat) (f : Core → Core) : (s.modCore c f).wx = s.wx := rfl
@[simp] theorem modCore_vcycle (s : State) (c : Nat) (f : Core → Core) : (s.modCore c f).vcycle = s.vcycle := rfl
@[simp] theorem modCore_freeCtr (s : State) (c : Nat) (f : Core → Core) : (s.modCore c f).freeCtr = s.freeCtr := rfl
@[simp] theorem modCore_out (s : State) (c : Nat) (f : Core → Core) : (s.modCore c f).out = s.out := rfl
@[simp] theorem modCore_pending (s : State) (c : Nat) (f : Core → Core) : (s.modCore c f).pending = s.pending := rfl

@[simp] theorem modPort_fns (s : State) (p : Nat) (f : APort → APort) : (s.modPort p f).fns = s.fns := rfl
@[simp] theorem modPort_links (s : State) (p : Nat) (f : APort → APort) : (s.modPort p f).links = s.links := rfl
@[simp] theorem modPort_transom (s : State) (p : Nat) (f : APort → APort) : (s.modPort p f).transom = s.transom := rfl
@[simp] theorem modPort_regs (s : State) (p : Nat) (f : APort → APort) : (s.modPort p f).regs = s.regs := rfl
@[simp] theorem modPort_clock (s : State) (p : Nat) (f : APort → APort) : (s.modPort p f).clock = s.clock := rfl
@[simp] theorem modPort_stack (s : State) (p : Nat) (f : APort → APort) : (s.modPort p f).stack = s.stack := rfl
@[simp] theorem modPort_fabric (s : State) (p : Nat) (f : APort → APort) : (s.modPort p f).fabric = s.fabric := rfl
@[simp] theorem modPort_red (s : State) (p : Nat) (f : APort → APort) : (s.modPort p f).red = s.red := rfl
@[simp] theorem modPort_cores (s : State) (p : Nat) (f : APort → APort) : (s.modPort p f).cores = s.cores := rfl
@[simp] theorem modPort_fw (s : State) (p : Nat) (f : APort → APort) : (s.modPort p f).fw = s.fw := rfl
@[simp] theorem modPort_kv (s : State) (p : Nat) (f : APort → APort) : (s.modPort p f).kv = s.kv := rfl
@[simp] theorem modPort_rdma (s : State) (p : Nat) (f : APort → APort) : (s.modPort p f).rdma = s.rdma := rfl
@[simp] theorem modPort_cls (s : State) (p : Nat) (f : APort → APort) : (s.modPort p f).cls = s.cls := rfl
@[simp] theorem modPort_net (s : State) (p : Nat) (f : APort → APort) : (s.modPort p f).net = s.net := rfl
@[simp] theorem modPort_sealing (s : State) (p : Nat) (f : APort → APort) : (s.modPort p f).sealing = s.sealing := rfl
@[simp] theorem modPort_sto (s : State) (p : Nat) (f : APort → APort) : (s.modPort p f).sto = s.sto := rfl
@[simp] theorem modPort_ck (s : State) (p : Nat) (f : APort → APort) : (s.modPort p f).ck = s.ck := rfl
@[simp] theorem modPort_stks (s : State) (p : Nat) (f : APort → APort) : (s.modPort p f).stks = s.stks := rfl
@[simp] theorem modPort_memCap (s : State) (p : Nat) (f : APort → APort) : (s.modPort p f).memCap = s.memCap := rfl
@[simp] theorem modPort_memCeLimit (s : State) (p : Nat) (f : APort → APort) : (s.modPort p f).memCeLimit = s.memCeLimit := rfl
@[simp] theorem modPort_doms (s : State) (p : Nat) (f : APort → APort) : (s.modPort p f).doms = s.doms := rfl
@[simp] theorem modPort_power (s : State) (p : Nat) (f : APort → APort) : (s.modPort p f).power = s.power := rfl
@[simp] theorem modPort_trust (s : State) (p : Nat) (f : APort → APort) : (s.modPort p f).trust = s.trust := rfl
@[simp] theorem modPort_wx (s : State) (p : Nat) (f : APort → APort) : (s.modPort p f).wx = s.wx := rfl
@[simp] theorem modPort_vcycle (s : State) (p : Nat) (f : APort → APort) : (s.modPort p f).vcycle = s.vcycle := rfl
@[simp] theorem modPort_freeCtr (s : State) (p : Nat) (f : APort → APort) : (s.modPort p f).freeCtr = s.freeCtr := rfl
@[simp] theorem modPort_out (s : State) (p : Nat) (f : APort → APort) : (s.modPort p f).out = s.out := rfl
@[simp] theorem modPort_pending (s : State) (p : Nat) (f : APort → APort) : (s.modPort p f).pending = s.pending := rfl

@[simp] theorem modRed_fns (s : State) (f : Reduce → Reduce) : (s.modRed f).fns = s.fns := rfl
@[simp] theorem modRed_links (s : State) (f : Reduce → Reduce) : (s.modRed f).links = s.links := rfl
@[simp] theorem modRed_transom (s : State) (f : Reduce → Reduce) : (s.modRed f).transom = s.transom := rfl
@[simp] theorem modRed_regs (s : State) (f : Reduce → Reduce) : (s.modRed f).regs = s.regs := rfl
@[simp] theorem modRed_clock (s : State) (f : Reduce → Reduce) : (s.modRed f).clock = s.clock := rfl
@[simp] theorem modRed_stack (s : State) (f : Reduce → Reduce) : (s.modRed f).stack = s.stack := rfl
@[simp] theorem modRed_ports (s : State) (f : Reduce → Reduce) : (s.modRed f).ports = s.ports := rfl
@[simp] theorem modRed_fabric (s : State) (f : Reduce → Reduce) : (s.modRed f).fabric = s.fabric := rfl
@[simp] theorem modRed_cores (s : State) (f : Reduce → Reduce) : (s.modRed f).cores = s.cores := rfl
@[simp] theorem modRed_fw (s : State) (f : Reduce → Reduce) : (s.modRed f).fw = s.fw := rfl
@[simp] theorem modRed_kv (s : State) (f : Reduce → Reduce) : (s.modRed f).kv = s.kv := rfl
@[simp] theorem modRed_rdma (s : State) (f : Reduce → Reduce) : (s.modRed f).rdma = s.rdma := rfl
@[simp] theorem modRed_cls (s : State) (f : Reduce → Reduce) : (s.modRed f).cls = s.cls := rfl
@[simp] theorem modRed_net (s : State) (f : Reduce → Reduce) : (s.modRed f).net = s.net := rfl
@[simp] theorem modRed_sealing (s : State) (f : Reduce → Reduce) : (s.modRed f).sealing = s.sealing := rfl
@[simp] theorem modRed_sto (s : State) (f : Reduce → Reduce) : (s.modRed f).sto = s.sto := rfl
@[simp] theorem modRed_ck (s : State) (f : Reduce → Reduce) : (s.modRed f).ck = s.ck := rfl
@[simp] theorem modRed_stks (s : State) (f : Reduce → Reduce) : (s.modRed f).stks = s.stks := rfl
@[simp] theorem modRed_memCap (s : State) (f : Reduce → Reduce) : (s.modRed f).memCap = s.memCap := rfl
@[simp] theorem modRed_memCeLimit (s : State) (f : Reduce → Reduce) : (s.modRed f).memCeLimit = s.memCeLimit := rfl
@[simp] theorem modRed_doms (s : State) (f : Reduce → Reduce) : (s.modRed f).doms = s.doms := rfl
@[simp] theorem modRed_power (s : State) (f : Reduce → Reduce) : (s.modRed f).power = s.power := rfl
@[simp] theorem modRed_trust (s : State) (f : Reduce → Reduce) : (s.modRed f).trust = s.trust := rfl
@[simp] theorem modRed_wx (s : State) (f : Reduce → Reduce) : (s.modRed f).wx = s.wx := rfl
@[simp] theorem modRed_vcycle (s : State) (f : Reduce → Reduce) : (s.modRed f).vcycle = s.vcycle := rfl
@[simp] theorem modRed_freeCtr (s : State) (f : Reduce → Reduce) : (s.modRed f).freeCtr = s.freeCtr := rfl
@[simp] theorem modRed_out (s : State) (f : Reduce → Reduce) : (s.modRed f).out = s.out := rfl
@[simp] theorem modRed_pending (s : State) (f : Reduce → Reduce) : (s.modRed f).pending = s.pending := rfl

@[simp] theorem modLock_fns (s : State) (n : Nat) (f : LockReg → LockReg) : (s.modLock n f).fns = s.fns := rfl
@[simp] theorem modLock_links (s : State) (n : Nat) (f : LockReg → LockReg) : (s.modLock n f).links = s.links := rfl
@[simp] theorem modLock_transom (s : State) (n : Nat) (f : LockReg → LockReg) : (s.modLock n f).transom = s.transom := rfl
@[simp] theorem modLock_regs (s : State) (n : Nat) (f : LockReg → LockReg) : (s.modLock n f).regs = s.regs := rfl
@[simp] theorem modLock_clock (s : State) (n : Nat) (f : LockReg → LockReg) : (s.modLock n f).clock = s.clock := rfl
@[simp] theorem modLock_stack (s : State) (n : Nat) (f : LockReg → LockReg) : (s.modLock n f).stack = s.stack := rfl
@[simp] theorem modLock_ports (s : State) (n : Nat) (f : LockReg → LockReg) : (s.modLock n f).ports = s.ports := rfl
@[simp] theorem modLock_fabric (s : State) (n : Nat) (f : LockReg → LockReg) : (s.modLock n f).fabric = s.fabric := rfl
@[simp] theorem modLock_red (s : State) (n : Nat) (f : LockReg → LockReg) : (s.modLock n f).red = s.red := rfl
@[simp] theorem modLock_cores (s : State) (n : Nat) (f : LockReg → LockReg) : (s.modLock n f).cores = s.cores := rfl
@[simp] theorem modLock_kv (s : State) (n : Nat) (f : LockReg → LockReg) : (s.modLock n f).kv = s.kv := rfl
@[simp] theorem modLock_rdma (s : State) (n : Nat) (f : LockReg → LockReg) : (s.modLock n f).rdma = s.rdma := rfl
@[simp] theorem modLock_cls (s : State) (n : Nat) (f : LockReg → LockReg) : (s.modLock n f).cls = s.cls := rfl
@[simp] theorem modLock_net (s : State) (n : Nat) (f : LockReg → LockReg) : (s.modLock n f).net = s.net := rfl
@[simp] theorem modLock_sealing (s : State) (n : Nat) (f : LockReg → LockReg) : (s.modLock n f).sealing = s.sealing := rfl
@[simp] theorem modLock_sto (s : State) (n : Nat) (f : LockReg → LockReg) : (s.modLock n f).sto = s.sto := rfl
@[simp] theorem modLock_ck (s : State) (n : Nat) (f : LockReg → LockReg) : (s.modLock n f).ck = s.ck := rfl
@[simp] theorem modLock_stks (s : State) (n : Nat) (f : LockReg → LockReg) : (s.modLock n f).stks = s.stks := rfl
@[simp] theorem modLock_memCap (s : State) (n : Nat) (f : LockReg → LockReg) : (s.modLock n f).memCap = s.memCap := rfl
@[simp] theorem modLock_memCeLimit (s : State) (n : Nat) (f : LockReg → LockReg) : (s.modLock n f).memCeLimit = s.memCeLimit := rfl
@[simp] theorem modLock_doms (s : State) (n : Nat) (f : LockReg → LockReg) : (s.modLock n f).doms = s.doms := rfl
@[simp] theorem modLock_power (s : State) (n : Nat) (f : LockReg → LockReg) : (s.modLock n f).power = s.power := rfl
@[simp] theorem modLock_trust (s : State) (n : Nat) (f : LockReg → LockReg) : (s.modLock n f).trust = s.trust := rfl
@[simp] theorem modLock_wx (s : State) (n : Nat) (f : LockReg → LockReg) : (s.modLock n f).wx = s.wx := rfl
@[simp] theorem modLock_vcycle (s : State) (n : Nat) (f : LockReg → LockReg) : (s.modLock n f).vcycle = s.vcycle := rfl
@[simp] theorem modLock_freeCtr (s : State) (n : Nat) (f : LockReg → LockReg) : (s.modLock n f).freeCtr = s.freeCtr := rfl
@[simp] theorem modLock_out (s : State) (n : Nat) (f : LockReg → LockReg) : (s.modLock n f).out = s.out := rfl
@[simp] theorem modLock_pending (s : State) (n : Nat) (f : LockReg → LockReg) : (s.modLock n f).pending = s.pending := rfl

@[simp] theorem modKv_fns (s : State) (f : Kv → Kv) : (s.modKv f).fns = s.fns := rfl
@[simp] theorem modKv_links (s : State) (f : Kv → Kv) : (s.modKv f).links = s.links := rfl
@[simp] theorem modKv_transom (s : State) (f : Kv → Kv) : (s.modKv f).transom = s.transom := rfl
@[simp] theorem modKv_regs (s : State) (f : Kv → Kv) : (s.modKv f).regs = s.regs := rfl
@[simp] theorem modKv_clock (s : State) (f : Kv → Kv) : (s.modKv f).clock = s.clock := rfl
@[simp] theorem modKv_stack (s : State) (f : Kv → Kv) : (s.modKv f).stack = s.stack := rfl
@[simp] theorem modKv_ports (s : State) (f : Kv → Kv) : (s.modKv f).ports = s.ports := rfl
@[simp] theorem modKv_fabric (s : State) (f : Kv → Kv) : (s.modKv f).fabric = s.fabric := rfl
@[simp] theorem modKv_red (s : State) (f : Kv → Kv) : (s.modKv f).red = s.red := rfl
@[simp] theorem modKv_cores (s : State) (f : Kv → Kv) : (s.modKv f).cores = s.cores := rfl
@[simp] theorem modKv_fw (s : State) (f : Kv → Kv) : (s.modKv f).fw = s.fw := rfl
@[simp] theorem modKv_rdma (s : State) (f : Kv → Kv) : (s.modKv f).rdma = s.rdma := rfl
@[simp] theorem modKv_cls (s : State) (f : Kv → Kv) : (s.modKv f).cls = s.cls := rfl
@[simp] theorem modKv_net (s : State) (f : Kv → Kv) : (s.modKv f).net = s.net := rfl
@[simp] theorem modKv_sealing (s : State) (f : Kv → Kv) : (s.modKv f).sealing = s.sealing := rfl
@[simp] theorem modKv_sto (s : State) (f : Kv → Kv) : (s.modKv f).sto = s.sto := rfl
@[simp] theorem modKv_ck (s : State) (f : Kv → Kv) : (s.modKv f).ck = s.ck := rfl
@[simp] theorem modKv_stks (s : State) (f : Kv → Kv) : (s.modKv f).stks = s.stks := rfl
@[simp] theorem modKv_memCap (s : State) (f : Kv → Kv) : (s.modKv f).memCap = s.memCap := rfl
@[simp] theorem modKv_memCeLimit (s : State) (f : Kv → Kv) : (s.modKv f).memCeLimit = s.memCeLimit := rfl
@[simp] theorem modKv_doms (s : State) (f : Kv → Kv) : (s.modKv f).doms = s.doms := rfl
@[simp] theorem modKv_power (s : State) (f : Kv → Kv) : (s.modKv f).power = s.power := rfl
@[simp] theorem modKv_trust (s : State) (f : Kv → Kv) : (s.modKv f).trust = s.trust := rfl
@[simp] theorem modKv_wx (s : State) (f : Kv → Kv) : (s.modKv f).wx = s.wx := rfl
@[simp] theorem modKv_vcycle (s : State) (f : Kv → Kv) : (s.modKv f).vcycle = s.vcycle := rfl
@[simp] theorem modKv_freeCtr (s : State) (f : Kv → Kv) : (s.modKv f).freeCtr = s.freeCtr := rfl
@[simp] theorem modKv_out (s : State) (f : Kv → Kv) : (s.modKv f).out = s.out := rfl
@[simp] theorem modKv_pending (s : State) (f : Kv → Kv) : (s.modKv f).pending = s.pending := rfl

@[simp] theorem modCk_fns (s : State) (ep : Nat) (f : Ckpt → Ckpt) : (s.modCk ep f).fns = s.fns := rfl
@[simp] theorem modCk_links (s : State) (ep : Nat) (f : Ckpt → Ckpt) : (s.modCk ep f).links = s.links := rfl
@[simp] theorem modCk_transom (s : State) (ep : Nat) (f : Ckpt → Ckpt) : (s.modCk ep f).transom = s.transom := rfl
@[simp] theorem modCk_regs (s : State) (ep : Nat) (f : Ckpt → Ckpt) : (s.modCk ep f).regs = s.regs := rfl
@[simp] theorem modCk_clock (s : State) (ep : Nat) (f : Ckpt → Ckpt) : (s.modCk ep f).clock = s.clock := rfl
@[simp] theorem modCk_stack (s : State) (ep : Nat) (f : Ckpt → Ckpt) : (s.modCk ep f).stack = s.stack := rfl
@[simp] theorem modCk_ports (s : State) (ep : Nat) (f : Ckpt → Ckpt) : (s.modCk ep f).ports = s.ports := rfl
@[simp] theorem modCk_fabric (s : State) (ep : Nat) (f : Ckpt → Ckpt) : (s.modCk ep f).fabric = s.fabric := rfl
@[simp] theorem modCk_red (s : State) (ep : Nat) (f : Ckpt → Ckpt) : (s.modCk ep f).red = s.red := rfl
@[simp] theorem modCk_cores (s : State) (ep : Nat) (f : Ckpt → Ckpt) : (s.modCk ep f).cores = s.cores := rfl
@[simp] theorem modCk_fw (s : State) (ep : Nat) (f : Ckpt → Ckpt) : (s.modCk ep f).fw = s.fw := rfl
@[simp] theorem modCk_kv (s : State) (ep : Nat) (f : Ckpt → Ckpt) : (s.modCk ep f).kv = s.kv := rfl
@[simp] theorem modCk_rdma (s : State) (ep : Nat) (f : Ckpt → Ckpt) : (s.modCk ep f).rdma = s.rdma := rfl
@[simp] theorem modCk_cls (s : State) (ep : Nat) (f : Ckpt → Ckpt) : (s.modCk ep f).cls = s.cls := rfl
@[simp] theorem modCk_net (s : State) (ep : Nat) (f : Ckpt → Ckpt) : (s.modCk ep f).net = s.net := rfl
@[simp] theorem modCk_sealing (s : State) (ep : Nat) (f : Ckpt → Ckpt) : (s.modCk ep f).sealing = s.sealing := rfl
@[simp] theorem modCk_sto (s : State) (ep : Nat) (f : Ckpt → Ckpt) : (s.modCk ep f).sto = s.sto := rfl
@[simp] theorem modCk_stks (s : State) (ep : Nat) (f : Ckpt → Ckpt) : (s.modCk ep f).stks = s.stks := rfl
@[simp] theorem modCk_memCap (s : State) (ep : Nat) (f : Ckpt → Ckpt) : (s.modCk ep f).memCap = s.memCap := rfl
@[simp] theorem modCk_memCeLimit (s : State) (ep : Nat) (f : Ckpt → Ckpt) : (s.modCk ep f).memCeLimit = s.memCeLimit := rfl
@[simp] theorem modCk_doms (s : State) (ep : Nat) (f : Ckpt → Ckpt) : (s.modCk ep f).doms = s.doms := rfl
@[simp] theorem modCk_power (s : State) (ep : Nat) (f : Ckpt → Ckpt) : (s.modCk ep f).power = s.power := rfl
@[simp] theorem modCk_trust (s : State) (ep : Nat) (f : Ckpt → Ckpt) : (s.modCk ep f).trust = s.trust := rfl
@[simp] theorem modCk_wx (s : State) (ep : Nat) (f : Ckpt → Ckpt) : (s.modCk ep f).wx = s.wx := rfl
@[simp] theorem modCk_vcycle (s : State) (ep : Nat) (f : Ckpt → Ckpt) : (s.modCk ep f).vcycle = s.vcycle := rfl
@[simp] theorem modCk_freeCtr (s : State) (ep : Nat) (f : Ckpt → Ckpt) : (s.modCk ep f).freeCtr = s.freeCtr := rfl
@[simp] theorem modCk_out (s : State) (ep : Nat) (f : Ckpt → Ckpt) : (s.modCk ep f).out = s.out := rfl
@[simp] theorem modCk_pending (s : State) (ep : Nat) (f : Ckpt → Ckpt) : (s.modCk ep f).pending = s.pending := rfl

@[simp] theorem modRdma_fns (s : State) (f : Rdma → Rdma) : (s.modRdma f).fns = s.fns := rfl
@[simp] theorem modRdma_links (s : State) (f : Rdma → Rdma) : (s.modRdma f).links = s.links := rfl
@[simp] theorem modRdma_transom (s : State) (f : Rdma → Rdma) : (s.modRdma f).transom = s.transom := rfl
@[simp] theorem modRdma_regs (s : State) (f : Rdma → Rdma) : (s.modRdma f).regs = s.regs := rfl
@[simp] theorem modRdma_clock (s : State) (f : Rdma → Rdma) : (s.modRdma f).clock = s.clock := rfl
@[simp] theorem modRdma_stack (s : State) (f : Rdma → Rdma) : (s.modRdma f).stack = s.stack := rfl
@[simp] theorem modRdma_ports (s : State) (f : Rdma → Rdma) : (s.modRdma f).ports = s.ports := rfl
@[simp] theorem modRdma_fabric (s : State) (f : Rdma → Rdma) : (s.modRdma f).fabric = s.fabric := rfl
@[simp] theorem modRdma_red (s : State) (f : Rdma → Rdma) : (s.modRdma f).red = s.red := rfl
@[simp] theorem modRdma_cores (s : State) (f : Rdma → Rdma) : (s.modRdma f).cores = s.cores := rfl
@[simp] theorem modRdma_fw (s : State) (f : Rdma → Rdma) : (s.modRdma f).fw = s.fw := rfl
@[simp] theorem modRdma_kv (s : State) (f : Rdma → Rdma) : (s.modRdma f).kv = s.kv := rfl
@[simp] theorem modRdma_cls (s : State) (f : Rdma → Rdma) : (s.modRdma f).cls = s.cls := rfl
@[simp] theorem modRdma_net (s : State) (f : Rdma → Rdma) : (s.modRdma f).net = s.net := rfl
@[simp] theorem modRdma_sealing (s : State) (f : Rdma → Rdma) : (s.modRdma f).sealing = s.sealing := rfl
@[simp] theorem modRdma_sto (s : State) (f : Rdma → Rdma) : (s.modRdma f).sto = s.sto := rfl
@[simp] theorem modRdma_ck (s : State) (f : Rdma → Rdma) : (s.modRdma f).ck = s.ck := rfl
@[simp] theorem modRdma_stks (s : State) (f : Rdma → Rdma) : (s.modRdma f).stks = s.stks := rfl
@[simp] theorem modRdma_memCap (s : State) (f : Rdma → Rdma) : (s.modRdma f).memCap = s.memCap := rfl
@[simp] theorem modRdma_memCeLimit (s : State) (f : Rdma → Rdma) : (s.modRdma f).memCeLimit = s.memCeLimit := rfl
@[simp] theorem modRdma_doms (s : State) (f : Rdma → Rdma) : (s.modRdma f).doms = s.doms := rfl
@[simp] theorem modRdma_power (s : State) (f : Rdma → Rdma) : (s.modRdma f).power = s.power := rfl
@[simp] theorem modRdma_trust (s : State) (f : Rdma → Rdma) : (s.modRdma f).trust = s.trust := rfl
@[simp] theorem modRdma_wx (s : State) (f : Rdma → Rdma) : (s.modRdma f).wx = s.wx := rfl
@[simp] theorem modRdma_vcycle (s : State) (f : Rdma → Rdma) : (s.modRdma f).vcycle = s.vcycle := rfl
@[simp] theorem modRdma_freeCtr (s : State) (f : Rdma → Rdma) : (s.modRdma f).freeCtr = s.freeCtr := rfl
@[simp] theorem modRdma_out (s : State) (f : Rdma → Rdma) : (s.modRdma f).out = s.out := rfl
@[simp] theorem modRdma_pending (s : State) (f : Rdma → Rdma) : (s.modRdma f).pending = s.pending := rfl

@[simp] theorem modCls_fns (s : State) (f : Cls → Cls) : (s.modCls f).fns = s.fns := rfl
@[simp] theorem modCls_links (s : State) (f : Cls → Cls) : (s.modCls f).links = s.links := rfl
@[simp] theorem modCls_transom (s : State) (f : Cls → Cls) : (s.modCls f).transom = s.transom := rfl
@[simp] theorem modCls_regs (s : State) (f : Cls → Cls) : (s.modCls f).regs = s.regs := rfl
@[simp] theorem modCls_clock (s : State) (f : Cls → Cls) : (s.modCls f).clock = s.clock := rfl
@[simp] theorem modCls_stack (s : State) (f : Cls → Cls) : (s.modCls f).stack = s.stack := rfl
@[simp] theorem modCls_ports (s : State) (f : Cls → Cls) : (s.modCls f).ports = s.ports := rfl
@[simp] theorem modCls_fabric (s : State) (f : Cls → Cls) : (s.modCls f).fabric = s.fabric := rfl
@[simp] theorem modCls_red (s : State) (f : Cls → Cls) : (s.modCls f).red = s.red := rfl
@[simp] theorem modCls_cores (s : State) (f : Cls → Cls) : (s.modCls f).cores = s.cores := rfl
@[simp] theorem modCls_fw (s : State) (f : Cls → Cls) : (s.modCls f).fw = s.fw := rfl
@[simp] theorem modCls_kv (s : State) (f : Cls → Cls) : (s.modCls f).kv = s.kv := rfl
@[simp] theorem modCls_rdma (s : State) (f : Cls → Cls) : (s.modCls f).rdma = s.rdma := rfl
@[simp] theorem modCls_net (s : State) (f : Cls → Cls) : (s.modCls f).net = s.net := rfl
@[simp] theorem modCls_sealing (s : State) (f : Cls → Cls) : (s.modCls f).sealing = s.sealing := rfl
@[simp] theorem modCls_sto (s : State) (f : Cls → Cls) : (s.modCls f).sto = s.sto := rfl
@[simp] theorem modCls_ck (s : State) (f : Cls → Cls) : (s.modCls f).ck = s.ck := rfl
@[simp] theorem modCls_stks (s : State) (f : Cls → Cls) : (s.modCls f).stks = s.stks := rfl
@[simp] theorem modCls_memCap (s : State) (f : Cls → Cls) : (s.modCls f).memCap = s.memCap := rfl
@[simp] theorem modCls_memCeLimit (s : State) (f : Cls → Cls) : (s.modCls f).memCeLimit = s.memCeLimit := rfl
@[simp] theorem modCls_doms (s : State) (f : Cls → Cls) : (s.modCls f).doms = s.doms := rfl
@[simp] theorem modCls_power (s : State) (f : Cls → Cls) : (s.modCls f).power = s.power := rfl
@[simp] theorem modCls_trust (s : State) (f : Cls → Cls) : (s.modCls f).trust = s.trust := rfl
@[simp] theorem modCls_wx (s : State) (f : Cls → Cls) : (s.modCls f).wx = s.wx := rfl
@[simp] theorem modCls_vcycle (s : State) (f : Cls → Cls) : (s.modCls f).vcycle = s.vcycle := rfl
@[simp] theorem modCls_freeCtr (s : State) (f : Cls → Cls) : (s.modCls f).freeCtr = s.freeCtr := rfl
@[simp] theorem modCls_out (s : State) (f : Cls → Cls) : (s.modCls f).out = s.out := rfl
@[simp] theorem modCls_pending (s : State) (f : Cls → Cls) : (s.modCls f).pending = s.pending := rfl

@[simp] theorem modNetPort_fns (s : State) (p : Nat) (f : NetPort → NetPort) : (s.modNetPort p f).fns = s.fns := rfl
@[simp] theorem modNetPort_links (s : State) (p : Nat) (f : NetPort → NetPort) : (s.modNetPort p f).links = s.links := rfl
@[simp] theorem modNetPort_transom (s : State) (p : Nat) (f : NetPort → NetPort) : (s.modNetPort p f).transom = s.transom := rfl
@[simp] theorem modNetPort_regs (s : State) (p : Nat) (f : NetPort → NetPort) : (s.modNetPort p f).regs = s.regs := rfl
@[simp] theorem modNetPort_clock (s : State) (p : Nat) (f : NetPort → NetPort) : (s.modNetPort p f).clock = s.clock := rfl
@[simp] theorem modNetPort_stack (s : State) (p : Nat) (f : NetPort → NetPort) : (s.modNetPort p f).stack = s.stack := rfl
@[simp] theorem modNetPort_ports (s : State) (p : Nat) (f : NetPort → NetPort) : (s.modNetPort p f).ports = s.ports := rfl
@[simp] theorem modNetPort_fabric (s : State) (p : Nat) (f : NetPort → NetPort) : (s.modNetPort p f).fabric = s.fabric := rfl
@[simp] theorem modNetPort_red (s : State) (p : Nat) (f : NetPort → NetPort) : (s.modNetPort p f).red = s.red := rfl
@[simp] theorem modNetPort_cores (s : State) (p : Nat) (f : NetPort → NetPort) : (s.modNetPort p f).cores = s.cores := rfl
@[simp] theorem modNetPort_fw (s : State) (p : Nat) (f : NetPort → NetPort) : (s.modNetPort p f).fw = s.fw := rfl
@[simp] theorem modNetPort_kv (s : State) (p : Nat) (f : NetPort → NetPort) : (s.modNetPort p f).kv = s.kv := rfl
@[simp] theorem modNetPort_rdma (s : State) (p : Nat) (f : NetPort → NetPort) : (s.modNetPort p f).rdma = s.rdma := rfl
@[simp] theorem modNetPort_cls (s : State) (p : Nat) (f : NetPort → NetPort) : (s.modNetPort p f).cls = s.cls := rfl
@[simp] theorem modNetPort_sealing (s : State) (p : Nat) (f : NetPort → NetPort) : (s.modNetPort p f).sealing = s.sealing := rfl
@[simp] theorem modNetPort_sto (s : State) (p : Nat) (f : NetPort → NetPort) : (s.modNetPort p f).sto = s.sto := rfl
@[simp] theorem modNetPort_ck (s : State) (p : Nat) (f : NetPort → NetPort) : (s.modNetPort p f).ck = s.ck := rfl
@[simp] theorem modNetPort_stks (s : State) (p : Nat) (f : NetPort → NetPort) : (s.modNetPort p f).stks = s.stks := rfl
@[simp] theorem modNetPort_memCap (s : State) (p : Nat) (f : NetPort → NetPort) : (s.modNetPort p f).memCap = s.memCap := rfl
@[simp] theorem modNetPort_memCeLimit (s : State) (p : Nat) (f : NetPort → NetPort) : (s.modNetPort p f).memCeLimit = s.memCeLimit := rfl
@[simp] theorem modNetPort_doms (s : State) (p : Nat) (f : NetPort → NetPort) : (s.modNetPort p f).doms = s.doms := rfl
@[simp] theorem modNetPort_power (s : State) (p : Nat) (f : NetPort → NetPort) : (s.modNetPort p f).power = s.power := rfl
@[simp] theorem modNetPort_trust (s : State) (p : Nat) (f : NetPort → NetPort) : (s.modNetPort p f).trust = s.trust := rfl
@[simp] theorem modNetPort_wx (s : State) (p : Nat) (f : NetPort → NetPort) : (s.modNetPort p f).wx = s.wx := rfl
@[simp] theorem modNetPort_vcycle (s : State) (p : Nat) (f : NetPort → NetPort) : (s.modNetPort p f).vcycle = s.vcycle := rfl
@[simp] theorem modNetPort_freeCtr (s : State) (p : Nat) (f : NetPort → NetPort) : (s.modNetPort p f).freeCtr = s.freeCtr := rfl
@[simp] theorem modNetPort_out (s : State) (p : Nat) (f : NetPort → NetPort) : (s.modNetPort p f).out = s.out := rfl
@[simp] theorem modNetPort_pending (s : State) (p : Nat) (f : NetPort → NetPort) : (s.modNetPort p f).pending = s.pending := rfl

@[simp] theorem modNetIf_fns (s : State) (j : Nat) (f : NetIf → NetIf) : (s.modNetIf j f).fns = s.fns := rfl
@[simp] theorem modNetIf_links (s : State) (j : Nat) (f : NetIf → NetIf) : (s.modNetIf j f).links = s.links := rfl
@[simp] theorem modNetIf_transom (s : State) (j : Nat) (f : NetIf → NetIf) : (s.modNetIf j f).transom = s.transom := rfl
@[simp] theorem modNetIf_regs (s : State) (j : Nat) (f : NetIf → NetIf) : (s.modNetIf j f).regs = s.regs := rfl
@[simp] theorem modNetIf_clock (s : State) (j : Nat) (f : NetIf → NetIf) : (s.modNetIf j f).clock = s.clock := rfl
@[simp] theorem modNetIf_stack (s : State) (j : Nat) (f : NetIf → NetIf) : (s.modNetIf j f).stack = s.stack := rfl
@[simp] theorem modNetIf_ports (s : State) (j : Nat) (f : NetIf → NetIf) : (s.modNetIf j f).ports = s.ports := rfl
@[simp] theorem modNetIf_fabric (s : State) (j : Nat) (f : NetIf → NetIf) : (s.modNetIf j f).fabric = s.fabric := rfl
@[simp] theorem modNetIf_red (s : State) (j : Nat) (f : NetIf → NetIf) : (s.modNetIf j f).red = s.red := rfl
@[simp] theorem modNetIf_cores (s : State) (j : Nat) (f : NetIf → NetIf) : (s.modNetIf j f).cores = s.cores := rfl
@[simp] theorem modNetIf_fw (s : State) (j : Nat) (f : NetIf → NetIf) : (s.modNetIf j f).fw = s.fw := rfl
@[simp] theorem modNetIf_kv (s : State) (j : Nat) (f : NetIf → NetIf) : (s.modNetIf j f).kv = s.kv := rfl
@[simp] theorem modNetIf_rdma (s : State) (j : Nat) (f : NetIf → NetIf) : (s.modNetIf j f).rdma = s.rdma := rfl
@[simp] theorem modNetIf_cls (s : State) (j : Nat) (f : NetIf → NetIf) : (s.modNetIf j f).cls = s.cls := rfl
@[simp] theorem modNetIf_sealing (s : State) (j : Nat) (f : NetIf → NetIf) : (s.modNetIf j f).sealing = s.sealing := rfl
@[simp] theorem modNetIf_sto (s : State) (j : Nat) (f : NetIf → NetIf) : (s.modNetIf j f).sto = s.sto := rfl
@[simp] theorem modNetIf_ck (s : State) (j : Nat) (f : NetIf → NetIf) : (s.modNetIf j f).ck = s.ck := rfl
@[simp] theorem modNetIf_stks (s : State) (j : Nat) (f : NetIf → NetIf) : (s.modNetIf j f).stks = s.stks := rfl
@[simp] theorem modNetIf_memCap (s : State) (j : Nat) (f : NetIf → NetIf) : (s.modNetIf j f).memCap = s.memCap := rfl
@[simp] theorem modNetIf_memCeLimit (s : State) (j : Nat) (f : NetIf → NetIf) : (s.modNetIf j f).memCeLimit = s.memCeLimit := rfl
@[simp] theorem modNetIf_doms (s : State) (j : Nat) (f : NetIf → NetIf) : (s.modNetIf j f).doms = s.doms := rfl
@[simp] theorem modNetIf_power (s : State) (j : Nat) (f : NetIf → NetIf) : (s.modNetIf j f).power = s.power := rfl
@[simp] theorem modNetIf_trust (s : State) (j : Nat) (f : NetIf → NetIf) : (s.modNetIf j f).trust = s.trust := rfl
@[simp] theorem modNetIf_wx (s : State) (j : Nat) (f : NetIf → NetIf) : (s.modNetIf j f).wx = s.wx := rfl
@[simp] theorem modNetIf_vcycle (s : State) (j : Nat) (f : NetIf → NetIf) : (s.modNetIf j f).vcycle = s.vcycle := rfl
@[simp] theorem modNetIf_freeCtr (s : State) (j : Nat) (f : NetIf → NetIf) : (s.modNetIf j f).freeCtr = s.freeCtr := rfl
@[simp] theorem modNetIf_out (s : State) (j : Nat) (f : NetIf → NetIf) : (s.modNetIf j f).out = s.out := rfl
@[simp] theorem modNetIf_pending (s : State) (j : Nat) (f : NetIf → NetIf) : (s.modNetIf j f).pending = s.pending := rfl

@[simp] theorem modSeal_fns (s : State) (f : Seal → Seal) : (s.modSeal f).fns = s.fns := rfl
@[simp] theorem modSeal_links (s : State) (f : Seal → Seal) : (s.modSeal f).links = s.links := rfl
@[simp] theorem modSeal_transom (s : State) (f : Seal → Seal) : (s.modSeal f).transom = s.transom := rfl
@[simp] theorem modSeal_regs (s : State) (f : Seal → Seal) : (s.modSeal f).regs = s.regs := rfl
@[simp] theorem modSeal_clock (s : State) (f : Seal → Seal) : (s.modSeal f).clock = s.clock := rfl
@[simp] theorem modSeal_stack (s : State) (f : Seal → Seal) : (s.modSeal f).stack = s.stack := rfl
@[simp] theorem modSeal_ports (s : State) (f : Seal → Seal) : (s.modSeal f).ports = s.ports := rfl
@[simp] theorem modSeal_fabric (s : State) (f : Seal → Seal) : (s.modSeal f).fabric = s.fabric := rfl
@[simp] theorem modSeal_red (s : State) (f : Seal → Seal) : (s.modSeal f).red = s.red := rfl
@[simp] theorem modSeal_cores (s : State) (f : Seal → Seal) : (s.modSeal f).cores = s.cores := rfl
@[simp] theorem modSeal_fw (s : State) (f : Seal → Seal) : (s.modSeal f).fw = s.fw := rfl
@[simp] theorem modSeal_kv (s : State) (f : Seal → Seal) : (s.modSeal f).kv = s.kv := rfl
@[simp] theorem modSeal_rdma (s : State) (f : Seal → Seal) : (s.modSeal f).rdma = s.rdma := rfl
@[simp] theorem modSeal_cls (s : State) (f : Seal → Seal) : (s.modSeal f).cls = s.cls := rfl
@[simp] theorem modSeal_net (s : State) (f : Seal → Seal) : (s.modSeal f).net = s.net := rfl
@[simp] theorem modSeal_sto (s : State) (f : Seal → Seal) : (s.modSeal f).sto = s.sto := rfl
@[simp] theorem modSeal_ck (s : State) (f : Seal → Seal) : (s.modSeal f).ck = s.ck := rfl
@[simp] theorem modSeal_stks (s : State) (f : Seal → Seal) : (s.modSeal f).stks = s.stks := rfl
@[simp] theorem modSeal_memCap (s : State) (f : Seal → Seal) : (s.modSeal f).memCap = s.memCap := rfl
@[simp] theorem modSeal_memCeLimit (s : State) (f : Seal → Seal) : (s.modSeal f).memCeLimit = s.memCeLimit := rfl
@[simp] theorem modSeal_doms (s : State) (f : Seal → Seal) : (s.modSeal f).doms = s.doms := rfl
@[simp] theorem modSeal_power (s : State) (f : Seal → Seal) : (s.modSeal f).power = s.power := rfl
@[simp] theorem modSeal_trust (s : State) (f : Seal → Seal) : (s.modSeal f).trust = s.trust := rfl
@[simp] theorem modSeal_wx (s : State) (f : Seal → Seal) : (s.modSeal f).wx = s.wx := rfl
@[simp] theorem modSeal_vcycle (s : State) (f : Seal → Seal) : (s.modSeal f).vcycle = s.vcycle := rfl
@[simp] theorem modSeal_freeCtr (s : State) (f : Seal → Seal) : (s.modSeal f).freeCtr = s.freeCtr := rfl
@[simp] theorem modSeal_out (s : State) (f : Seal → Seal) : (s.modSeal f).out = s.out := rfl
@[simp] theorem modSeal_pending (s : State) (f : Seal → Seal) : (s.modSeal f).pending = s.pending := rfl

@[simp] theorem modSto_fns (s : State) (f : Sto → Sto) : (s.modSto f).fns = s.fns := rfl
@[simp] theorem modSto_links (s : State) (f : Sto → Sto) : (s.modSto f).links = s.links := rfl
@[simp] theorem modSto_transom (s : State) (f : Sto → Sto) : (s.modSto f).transom = s.transom := rfl
@[simp] theorem modSto_regs (s : State) (f : Sto → Sto) : (s.modSto f).regs = s.regs := rfl
@[simp] theorem modSto_clock (s : State) (f : Sto → Sto) : (s.modSto f).clock = s.clock := rfl
@[simp] theorem modSto_stack (s : State) (f : Sto → Sto) : (s.modSto f).stack = s.stack := rfl
@[simp] theorem modSto_ports (s : State) (f : Sto → Sto) : (s.modSto f).ports = s.ports := rfl
@[simp] theorem modSto_fabric (s : State) (f : Sto → Sto) : (s.modSto f).fabric = s.fabric := rfl
@[simp] theorem modSto_red (s : State) (f : Sto → Sto) : (s.modSto f).red = s.red := rfl
@[simp] theorem modSto_cores (s : State) (f : Sto → Sto) : (s.modSto f).cores = s.cores := rfl
@[simp] theorem modSto_fw (s : State) (f : Sto → Sto) : (s.modSto f).fw = s.fw := rfl
@[simp] theorem modSto_kv (s : State) (f : Sto → Sto) : (s.modSto f).kv = s.kv := rfl
@[simp] theorem modSto_rdma (s : State) (f : Sto → Sto) : (s.modSto f).rdma = s.rdma := rfl
@[simp] theorem modSto_cls (s : State) (f : Sto → Sto) : (s.modSto f).cls = s.cls := rfl
@[simp] theorem modSto_net (s : State) (f : Sto → Sto) : (s.modSto f).net = s.net := rfl
@[simp] theorem modSto_sealing (s : State) (f : Sto → Sto) : (s.modSto f).sealing = s.sealing := rfl
@[simp] theorem modSto_ck (s : State) (f : Sto → Sto) : (s.modSto f).ck = s.ck := rfl
@[simp] theorem modSto_stks (s : State) (f : Sto → Sto) : (s.modSto f).stks = s.stks := rfl
@[simp] theorem modSto_memCap (s : State) (f : Sto → Sto) : (s.modSto f).memCap = s.memCap := rfl
@[simp] theorem modSto_memCeLimit (s : State) (f : Sto → Sto) : (s.modSto f).memCeLimit = s.memCeLimit := rfl
@[simp] theorem modSto_doms (s : State) (f : Sto → Sto) : (s.modSto f).doms = s.doms := rfl
@[simp] theorem modSto_power (s : State) (f : Sto → Sto) : (s.modSto f).power = s.power := rfl
@[simp] theorem modSto_trust (s : State) (f : Sto → Sto) : (s.modSto f).trust = s.trust := rfl
@[simp] theorem modSto_wx (s : State) (f : Sto → Sto) : (s.modSto f).wx = s.wx := rfl
@[simp] theorem modSto_vcycle (s : State) (f : Sto → Sto) : (s.modSto f).vcycle = s.vcycle := rfl
@[simp] theorem modSto_freeCtr (s : State) (f : Sto → Sto) : (s.modSto f).freeCtr = s.freeCtr := rfl
@[simp] theorem modSto_out (s : State) (f : Sto → Sto) : (s.modSto f).out = s.out := rfl
@[simp] theorem modSto_pending (s : State) (f : Sto → Sto) : (s.modSto f).pending = s.pending := rfl

@[simp] theorem modStk_fns (s : State) (n : Nat) (f : Stk → Stk) : (s.modStk n f).fns = s.fns := rfl
@[simp] theorem modStk_links (s : State) (n : Nat) (f : Stk → Stk) : (s.modStk n f).links = s.links := rfl
@[simp] theorem modStk_transom (s : State) (n : Nat) (f : Stk → Stk) : (s.modStk n f).transom = s.transom := rfl
@[simp] theorem modStk_regs (s : State) (n : Nat) (f : Stk → Stk) : (s.modStk n f).regs = s.regs := rfl
@[simp] theorem modStk_clock (s : State) (n : Nat) (f : Stk → Stk) : (s.modStk n f).clock = s.clock := rfl
@[simp] theorem modStk_stack (s : State) (n : Nat) (f : Stk → Stk) : (s.modStk n f).stack = s.stack := rfl
@[simp] theorem modStk_ports (s : State) (n : Nat) (f : Stk → Stk) : (s.modStk n f).ports = s.ports := rfl
@[simp] theorem modStk_fabric (s : State) (n : Nat) (f : Stk → Stk) : (s.modStk n f).fabric = s.fabric := rfl
@[simp] theorem modStk_red (s : State) (n : Nat) (f : Stk → Stk) : (s.modStk n f).red = s.red := rfl
@[simp] theorem modStk_cores (s : State) (n : Nat) (f : Stk → Stk) : (s.modStk n f).cores = s.cores := rfl
@[simp] theorem modStk_fw (s : State) (n : Nat) (f : Stk → Stk) : (s.modStk n f).fw = s.fw := rfl
@[simp] theorem modStk_kv (s : State) (n : Nat) (f : Stk → Stk) : (s.modStk n f).kv = s.kv := rfl
@[simp] theorem modStk_rdma (s : State) (n : Nat) (f : Stk → Stk) : (s.modStk n f).rdma = s.rdma := rfl
@[simp] theorem modStk_cls (s : State) (n : Nat) (f : Stk → Stk) : (s.modStk n f).cls = s.cls := rfl
@[simp] theorem modStk_net (s : State) (n : Nat) (f : Stk → Stk) : (s.modStk n f).net = s.net := rfl
@[simp] theorem modStk_sealing (s : State) (n : Nat) (f : Stk → Stk) : (s.modStk n f).sealing = s.sealing := rfl
@[simp] theorem modStk_sto (s : State) (n : Nat) (f : Stk → Stk) : (s.modStk n f).sto = s.sto := rfl
@[simp] theorem modStk_ck (s : State) (n : Nat) (f : Stk → Stk) : (s.modStk n f).ck = s.ck := rfl
@[simp] theorem modStk_memCap (s : State) (n : Nat) (f : Stk → Stk) : (s.modStk n f).memCap = s.memCap := rfl
@[simp] theorem modStk_memCeLimit (s : State) (n : Nat) (f : Stk → Stk) : (s.modStk n f).memCeLimit = s.memCeLimit := rfl
@[simp] theorem modStk_doms (s : State) (n : Nat) (f : Stk → Stk) : (s.modStk n f).doms = s.doms := rfl
@[simp] theorem modStk_power (s : State) (n : Nat) (f : Stk → Stk) : (s.modStk n f).power = s.power := rfl
@[simp] theorem modStk_trust (s : State) (n : Nat) (f : Stk → Stk) : (s.modStk n f).trust = s.trust := rfl
@[simp] theorem modStk_wx (s : State) (n : Nat) (f : Stk → Stk) : (s.modStk n f).wx = s.wx := rfl
@[simp] theorem modStk_vcycle (s : State) (n : Nat) (f : Stk → Stk) : (s.modStk n f).vcycle = s.vcycle := rfl
@[simp] theorem modStk_freeCtr (s : State) (n : Nat) (f : Stk → Stk) : (s.modStk n f).freeCtr = s.freeCtr := rfl
@[simp] theorem modStk_out (s : State) (n : Nat) (f : Stk → Stk) : (s.modStk n f).out = s.out := rfl
@[simp] theorem modStk_pending (s : State) (n : Nat) (f : Stk → Stk) : (s.modStk n f).pending = s.pending := rfl

@[simp] theorem modDom_fns (s : State) (d : Nat) (f : Dom → Dom) : (s.modDom d f).fns = s.fns := rfl
@[simp] theorem modDom_links (s : State) (d : Nat) (f : Dom → Dom) : (s.modDom d f).links = s.links := rfl
@[simp] theorem modDom_transom (s : State) (d : Nat) (f : Dom → Dom) : (s.modDom d f).transom = s.transom := rfl
@[simp] theorem modDom_regs (s : State) (d : Nat) (f : Dom → Dom) : (s.modDom d f).regs = s.regs := rfl
@[simp] theorem modDom_clock (s : State) (d : Nat) (f : Dom → Dom) : (s.modDom d f).clock = s.clock := rfl
@[simp] theorem modDom_stack (s : State) (d : Nat) (f : Dom → Dom) : (s.modDom d f).stack = s.stack := rfl
@[simp] theorem modDom_ports (s : State) (d : Nat) (f : Dom → Dom) : (s.modDom d f).ports = s.ports := rfl
@[simp] theorem modDom_fabric (s : State) (d : Nat) (f : Dom → Dom) : (s.modDom d f).fabric = s.fabric := rfl
@[simp] theorem modDom_red (s : State) (d : Nat) (f : Dom → Dom) : (s.modDom d f).red = s.red := rfl
@[simp] theorem modDom_cores (s : State) (d : Nat) (f : Dom → Dom) : (s.modDom d f).cores = s.cores := rfl
@[simp] theorem modDom_fw (s : State) (d : Nat) (f : Dom → Dom) : (s.modDom d f).fw = s.fw := rfl
@[simp] theorem modDom_kv (s : State) (d : Nat) (f : Dom → Dom) : (s.modDom d f).kv = s.kv := rfl
@[simp] theorem modDom_rdma (s : State) (d : Nat) (f : Dom → Dom) : (s.modDom d f).rdma = s.rdma := rfl
@[simp] theorem modDom_cls (s : State) (d : Nat) (f : Dom → Dom) : (s.modDom d f).cls = s.cls := rfl
@[simp] theorem modDom_net (s : State) (d : Nat) (f : Dom → Dom) : (s.modDom d f).net = s.net := rfl
@[simp] theorem modDom_sealing (s : State) (d : Nat) (f : Dom → Dom) : (s.modDom d f).sealing = s.sealing := rfl
@[simp] theorem modDom_sto (s : State) (d : Nat) (f : Dom → Dom) : (s.modDom d f).sto = s.sto := rfl
@[simp] theorem modDom_ck (s : State) (d : Nat) (f : Dom → Dom) : (s.modDom d f).ck = s.ck := rfl
@[simp] theorem modDom_stks (s : State) (d : Nat) (f : Dom → Dom) : (s.modDom d f).stks = s.stks := rfl
@[simp] theorem modDom_memCap (s : State) (d : Nat) (f : Dom → Dom) : (s.modDom d f).memCap = s.memCap := rfl
@[simp] theorem modDom_memCeLimit (s : State) (d : Nat) (f : Dom → Dom) : (s.modDom d f).memCeLimit = s.memCeLimit := rfl
@[simp] theorem modDom_power (s : State) (d : Nat) (f : Dom → Dom) : (s.modDom d f).power = s.power := rfl
@[simp] theorem modDom_trust (s : State) (d : Nat) (f : Dom → Dom) : (s.modDom d f).trust = s.trust := rfl
@[simp] theorem modDom_wx (s : State) (d : Nat) (f : Dom → Dom) : (s.modDom d f).wx = s.wx := rfl
@[simp] theorem modDom_vcycle (s : State) (d : Nat) (f : Dom → Dom) : (s.modDom d f).vcycle = s.vcycle := rfl
@[simp] theorem modDom_freeCtr (s : State) (d : Nat) (f : Dom → Dom) : (s.modDom d f).freeCtr = s.freeCtr := rfl
@[simp] theorem modDom_out (s : State) (d : Nat) (f : Dom → Dom) : (s.modDom d f).out = s.out := rfl
@[simp] theorem modDom_pending (s : State) (d : Nat) (f : Dom → Dom) : (s.modDom d f).pending = s.pending := rfl

@[simp] theorem modPow_fns (s : State) (f : Power → Power) : (s.modPow f).fns = s.fns := rfl
@[simp] theorem modPow_links (s : State) (f : Power → Power) : (s.modPow f).links = s.links := rfl
@[simp] theorem modPow_transom (s : State) (f : Power → Power) : (s.modPow f).transom = s.transom := rfl
@[simp] theorem modPow_regs (s : State) (f : Power → Power) : (s.modPow f).regs = s.regs := rfl
@[simp] theorem modPow_clock (s : State) (f : Power → Power) : (s.modPow f).clock = s.clock := rfl
@[simp] theorem modPow_stack (s : State) (f : Power → Power) : (s.modPow f).stack = s.stack := rfl
@[simp] theorem modPow_ports (s : State) (f : Power → Power) : (s.modPow f).ports = s.ports := rfl
@[simp] theorem modPow_fabric (s : State) (f : Power → Power) : (s.modPow f).fabric = s.fabric := rfl
@[simp] theorem modPow_red (s : State) (f : Power → Power) : (s.modPow f).red = s.red := rfl
@[simp] theorem modPow_cores (s : State) (f : Power → Power) : (s.modPow f).cores = s.cores := rfl
@[simp] theorem modPow_fw (s : State) (f : Power → Power) : (s.modPow f).fw = s.fw := rfl
@[simp] theorem modPow_kv (s : State) (f : Power → Power) : (s.modPow f).kv = s.kv := rfl
@[simp] theorem modPow_rdma (s : State) (f : Power → Power) : (s.modPow f).rdma = s.rdma := rfl
@[simp] theorem modPow_cls (s : State) (f : Power → Power) : (s.modPow f).cls = s.cls := rfl
@[simp] theorem modPow_net (s : State) (f : Power → Power) : (s.modPow f).net = s.net := rfl
@[simp] theorem modPow_sealing (s : State) (f : Power → Power) : (s.modPow f).sealing = s.sealing := rfl
@[simp] theorem modPow_sto (s : State) (f : Power → Power) : (s.modPow f).sto = s.sto := rfl
@[simp] theorem modPow_ck (s : State) (f : Power → Power) : (s.modPow f).ck = s.ck := rfl
@[simp] theorem modPow_stks (s : State) (f : Power → Power) : (s.modPow f).stks = s.stks := rfl
@[simp] theorem modPow_memCap (s : State) (f : Power → Power) : (s.modPow f).memCap = s.memCap := rfl
@[simp] theorem modPow_memCeLimit (s : State) (f : Power → Power) : (s.modPow f).memCeLimit = s.memCeLimit := rfl
@[simp] theorem modPow_doms (s : State) (f : Power → Power) : (s.modPow f).doms = s.doms := rfl
@[simp] theorem modPow_trust (s : State) (f : Power → Power) : (s.modPow f).trust = s.trust := rfl
@[simp] theorem modPow_wx (s : State) (f : Power → Power) : (s.modPow f).wx = s.wx := rfl
@[simp] theorem modPow_vcycle (s : State) (f : Power → Power) : (s.modPow f).vcycle = s.vcycle := rfl
@[simp] theorem modPow_freeCtr (s : State) (f : Power → Power) : (s.modPow f).freeCtr = s.freeCtr := rfl
@[simp] theorem modPow_out (s : State) (f : Power → Power) : (s.modPow f).out = s.out := rfl
@[simp] theorem modPow_pending (s : State) (f : Power → Power) : (s.modPow f).pending = s.pending := rfl

@[simp] theorem modTrust_fns (s : State) (f : Trust → Trust) : (s.modTrust f).fns = s.fns := rfl
@[simp] theorem modTrust_links (s : State) (f : Trust → Trust) : (s.modTrust f).links = s.links := rfl
@[simp] theorem modTrust_transom (s : State) (f : Trust → Trust) : (s.modTrust f).transom = s.transom := rfl
@[simp] theorem modTrust_regs (s : State) (f : Trust → Trust) : (s.modTrust f).regs = s.regs := rfl
@[simp] theorem modTrust_clock (s : State) (f : Trust → Trust) : (s.modTrust f).clock = s.clock := rfl
@[simp] theorem modTrust_stack (s : State) (f : Trust → Trust) : (s.modTrust f).stack = s.stack := rfl
@[simp] theorem modTrust_ports (s : State) (f : Trust → Trust) : (s.modTrust f).ports = s.ports := rfl
@[simp] theorem modTrust_fabric (s : State) (f : Trust → Trust) : (s.modTrust f).fabric = s.fabric := rfl
@[simp] theorem modTrust_red (s : State) (f : Trust → Trust) : (s.modTrust f).red = s.red := rfl
@[simp] theorem modTrust_cores (s : State) (f : Trust → Trust) : (s.modTrust f).cores = s.cores := rfl
@[simp] theorem modTrust_fw (s : State) (f : Trust → Trust) : (s.modTrust f).fw = s.fw := rfl
@[simp] theorem modTrust_kv (s : State) (f : Trust → Trust) : (s.modTrust f).kv = s.kv := rfl
@[simp] theorem modTrust_rdma (s : State) (f : Trust → Trust) : (s.modTrust f).rdma = s.rdma := rfl
@[simp] theorem modTrust_cls (s : State) (f : Trust → Trust) : (s.modTrust f).cls = s.cls := rfl
@[simp] theorem modTrust_net (s : State) (f : Trust → Trust) : (s.modTrust f).net = s.net := rfl
@[simp] theorem modTrust_sealing (s : State) (f : Trust → Trust) : (s.modTrust f).sealing = s.sealing := rfl
@[simp] theorem modTrust_sto (s : State) (f : Trust → Trust) : (s.modTrust f).sto = s.sto := rfl
@[simp] theorem modTrust_ck (s : State) (f : Trust → Trust) : (s.modTrust f).ck = s.ck := rfl
@[simp] theorem modTrust_stks (s : State) (f : Trust → Trust) : (s.modTrust f).stks = s.stks := rfl
@[simp] theorem modTrust_memCap (s : State) (f : Trust → Trust) : (s.modTrust f).memCap = s.memCap := rfl
@[simp] theorem modTrust_memCeLimit (s : State) (f : Trust → Trust) : (s.modTrust f).memCeLimit = s.memCeLimit := rfl
@[simp] theorem modTrust_doms (s : State) (f : Trust → Trust) : (s.modTrust f).doms = s.doms := rfl
@[simp] theorem modTrust_power (s : State) (f : Trust → Trust) : (s.modTrust f).power = s.power := rfl
@[simp] theorem modTrust_wx (s : State) (f : Trust → Trust) : (s.modTrust f).wx = s.wx := rfl
@[simp] theorem modTrust_vcycle (s : State) (f : Trust → Trust) : (s.modTrust f).vcycle = s.vcycle := rfl
@[simp] theorem modTrust_freeCtr (s : State) (f : Trust → Trust) : (s.modTrust f).freeCtr = s.freeCtr := rfl
@[simp] theorem modTrust_out (s : State) (f : Trust → Trust) : (s.modTrust f).out = s.out := rfl
@[simp] theorem modTrust_pending (s : State) (f : Trust → Trust) : (s.modTrust f).pending = s.pending := rfl

@[simp] theorem modWx_fns (s : State) (f : Weather → Weather) : (s.modWx f).fns = s.fns := rfl
@[simp] theorem modWx_links (s : State) (f : Weather → Weather) : (s.modWx f).links = s.links := rfl
@[simp] theorem modWx_transom (s : State) (f : Weather → Weather) : (s.modWx f).transom = s.transom := rfl
@[simp] theorem modWx_regs (s : State) (f : Weather → Weather) : (s.modWx f).regs = s.regs := rfl
@[simp] theorem modWx_clock (s : State) (f : Weather → Weather) : (s.modWx f).clock = s.clock := rfl
@[simp] theorem modWx_stack (s : State) (f : Weather → Weather) : (s.modWx f).stack = s.stack := rfl
@[simp] theorem modWx_ports (s : State) (f : Weather → Weather) : (s.modWx f).ports = s.ports := rfl
@[simp] theorem modWx_fabric (s : State) (f : Weather → Weather) : (s.modWx f).fabric = s.fabric := rfl
@[simp] theorem modWx_red (s : State) (f : Weather → Weather) : (s.modWx f).red = s.red := rfl
@[simp] theorem modWx_cores (s : State) (f : Weather → Weather) : (s.modWx f).cores = s.cores := rfl
@[simp] theorem modWx_fw (s : State) (f : Weather → Weather) : (s.modWx f).fw = s.fw := rfl
@[simp] theorem modWx_kv (s : State) (f : Weather → Weather) : (s.modWx f).kv = s.kv := rfl
@[simp] theorem modWx_rdma (s : State) (f : Weather → Weather) : (s.modWx f).rdma = s.rdma := rfl
@[simp] theorem modWx_cls (s : State) (f : Weather → Weather) : (s.modWx f).cls = s.cls := rfl
@[simp] theorem modWx_net (s : State) (f : Weather → Weather) : (s.modWx f).net = s.net := rfl
@[simp] theorem modWx_sealing (s : State) (f : Weather → Weather) : (s.modWx f).sealing = s.sealing := rfl
@[simp] theorem modWx_sto (s : State) (f : Weather → Weather) : (s.modWx f).sto = s.sto := rfl
@[simp] theorem modWx_ck (s : State) (f : Weather → Weather) : (s.modWx f).ck = s.ck := rfl
@[simp] theorem modWx_stks (s : State) (f : Weather → Weather) : (s.modWx f).stks = s.stks := rfl
@[simp] theorem modWx_memCap (s : State) (f : Weather → Weather) : (s.modWx f).memCap = s.memCap := rfl
@[simp] theorem modWx_memCeLimit (s : State) (f : Weather → Weather) : (s.modWx f).memCeLimit = s.memCeLimit := rfl
@[simp] theorem modWx_doms (s : State) (f : Weather → Weather) : (s.modWx f).doms = s.doms := rfl
@[simp] theorem modWx_power (s : State) (f : Weather → Weather) : (s.modWx f).power = s.power := rfl
@[simp] theorem modWx_trust (s : State) (f : Weather → Weather) : (s.modWx f).trust = s.trust := rfl
@[simp] theorem modWx_vcycle (s : State) (f : Weather → Weather) : (s.modWx f).vcycle = s.vcycle := rfl
@[simp] theorem modWx_freeCtr (s : State) (f : Weather → Weather) : (s.modWx f).freeCtr = s.freeCtr := rfl
@[simp] theorem modWx_out (s : State) (f : Weather → Weather) : (s.modWx f).out = s.out := rfl
@[simp] theorem modWx_pending (s : State) (f : Weather → Weather) : (s.modWx f).pending = s.pending := rfl

@[simp] theorem begun_links (s : State) (r i : Nat) (e : Fetched) : (begun s r i e).links = s.links := rfl
@[simp] theorem begun_transom (s : State) (r i : Nat) (e : Fetched) : (begun s r i e).transom = s.transom := rfl
@[simp] theorem begun_regs (s : State) (r i : Nat) (e : Fetched) : (begun s r i e).regs = s.regs := rfl
@[simp] theorem begun_clock (s : State) (r i : Nat) (e : Fetched) : (begun s r i e).clock = s.clock := rfl
@[simp] theorem begun_stack (s : State) (r i : Nat) (e : Fetched) : (begun s r i e).stack = s.stack := rfl
@[simp] theorem begun_ports (s : State) (r i : Nat) (e : Fetched) : (begun s r i e).ports = s.ports := rfl
@[simp] theorem begun_fabric (s : State) (r i : Nat) (e : Fetched) : (begun s r i e).fabric = s.fabric := rfl
@[simp] theorem begun_red (s : State) (r i : Nat) (e : Fetched) : (begun s r i e).red = s.red := rfl
@[simp] theorem begun_cores (s : State) (r i : Nat) (e : Fetched) : (begun s r i e).cores = s.cores := rfl
@[simp] theorem begun_fw (s : State) (r i : Nat) (e : Fetched) : (begun s r i e).fw = s.fw := rfl
@[simp] theorem begun_kv (s : State) (r i : Nat) (e : Fetched) : (begun s r i e).kv = s.kv := rfl
@[simp] theorem begun_rdma (s : State) (r i : Nat) (e : Fetched) : (begun s r i e).rdma = s.rdma := rfl
@[simp] theorem begun_cls (s : State) (r i : Nat) (e : Fetched) : (begun s r i e).cls = s.cls := rfl
@[simp] theorem begun_net (s : State) (r i : Nat) (e : Fetched) : (begun s r i e).net = s.net := rfl
@[simp] theorem begun_sealing (s : State) (r i : Nat) (e : Fetched) : (begun s r i e).sealing = s.sealing := rfl
@[simp] theorem begun_sto (s : State) (r i : Nat) (e : Fetched) : (begun s r i e).sto = s.sto := rfl
@[simp] theorem begun_ck (s : State) (r i : Nat) (e : Fetched) : (begun s r i e).ck = s.ck := rfl
@[simp] theorem begun_stks (s : State) (r i : Nat) (e : Fetched) : (begun s r i e).stks = s.stks := rfl
@[simp] theorem begun_memCap (s : State) (r i : Nat) (e : Fetched) : (begun s r i e).memCap = s.memCap := rfl
@[simp] theorem begun_memCeLimit (s : State) (r i : Nat) (e : Fetched) : (begun s r i e).memCeLimit = s.memCeLimit := rfl
@[simp] theorem begun_doms (s : State) (r i : Nat) (e : Fetched) : (begun s r i e).doms = s.doms := rfl
@[simp] theorem begun_power (s : State) (r i : Nat) (e : Fetched) : (begun s r i e).power = s.power := rfl
@[simp] theorem begun_trust (s : State) (r i : Nat) (e : Fetched) : (begun s r i e).trust = s.trust := rfl
@[simp] theorem begun_wx (s : State) (r i : Nat) (e : Fetched) : (begun s r i e).wx = s.wx := rfl
@[simp] theorem begun_vcycle (s : State) (r i : Nat) (e : Fetched) : (begun s r i e).vcycle = s.vcycle := rfl
@[simp] theorem begun_freeCtr (s : State) (r i : Nat) (e : Fetched) : (begun s r i e).freeCtr = s.freeCtr := rfl
@[simp] theorem begun_out (s : State) (r i : Nat) (e : Fetched) : (begun s r i e).out = s.out := rfl
@[simp] theorem begun_pending (s : State) (r i : Nat) (e : Fetched) : (begun s r i e).pending = s.pending := rfl
@[simp] theorem advanceTo_fns (s : State) (t : Nat) : (advanceTo s t).fns = s.fns := rfl
@[simp] theorem advanceTo_links (s : State) (t : Nat) : (advanceTo s t).links = s.links := rfl
@[simp] theorem advanceTo_transom (s : State) (t : Nat) : (advanceTo s t).transom = s.transom := rfl
@[simp] theorem advanceTo_regs (s : State) (t : Nat) : (advanceTo s t).regs = s.regs := rfl
@[simp] theorem advanceTo_clock (s : State) (t : Nat) : (advanceTo s t).clock = s.clock := rfl
@[simp] theorem advanceTo_stack (s : State) (t : Nat) : (advanceTo s t).stack = s.stack := rfl
@[simp] theorem advanceTo_ports (s : State) (t : Nat) : (advanceTo s t).ports = s.ports := rfl
@[simp] theorem advanceTo_fabric (s : State) (t : Nat) : (advanceTo s t).fabric = s.fabric := rfl
@[simp] theorem advanceTo_red (s : State) (t : Nat) : (advanceTo s t).red = s.red := rfl
@[simp] theorem advanceTo_cores (s : State) (t : Nat) : (advanceTo s t).cores = s.cores := rfl
@[simp] theorem advanceTo_fw (s : State) (t : Nat) : (advanceTo s t).fw = s.fw := rfl
@[simp] theorem advanceTo_kv (s : State) (t : Nat) : (advanceTo s t).kv = s.kv := rfl
@[simp] theorem advanceTo_rdma (s : State) (t : Nat) : (advanceTo s t).rdma = s.rdma := rfl
@[simp] theorem advanceTo_cls (s : State) (t : Nat) : (advanceTo s t).cls = s.cls := rfl
@[simp] theorem advanceTo_net (s : State) (t : Nat) : (advanceTo s t).net = s.net := rfl
@[simp] theorem advanceTo_sealing (s : State) (t : Nat) : (advanceTo s t).sealing = s.sealing := rfl
@[simp] theorem advanceTo_sto (s : State) (t : Nat) : (advanceTo s t).sto = s.sto := rfl
@[simp] theorem advanceTo_ck (s : State) (t : Nat) : (advanceTo s t).ck = s.ck := rfl
@[simp] theorem advanceTo_stks (s : State) (t : Nat) : (advanceTo s t).stks = s.stks := rfl
@[simp] theorem advanceTo_memCap (s : State) (t : Nat) : (advanceTo s t).memCap = s.memCap := rfl
@[simp] theorem advanceTo_memCeLimit (s : State) (t : Nat) : (advanceTo s t).memCeLimit = s.memCeLimit := rfl
@[simp] theorem advanceTo_doms (s : State) (t : Nat) : (advanceTo s t).doms = s.doms := rfl
@[simp] theorem advanceTo_power (s : State) (t : Nat) : (advanceTo s t).power = s.power := rfl
@[simp] theorem advanceTo_trust (s : State) (t : Nat) : (advanceTo s t).trust = s.trust := rfl
@[simp] theorem advanceTo_wx (s : State) (t : Nat) : (advanceTo s t).wx = s.wx := rfl
@[simp] theorem advanceTo_freeCtr (s : State) (t : Nat) : (advanceTo s t).freeCtr = s.freeCtr := rfl
@[simp] theorem advanceTo_out (s : State) (t : Nat) : (advanceTo s t).out = s.out := rfl
@[simp] theorem advanceTo_pending (s : State) (t : Nat) : (advanceTo s t).pending = s.pending := rfl

/-- A function other than the one that is changed stays as it was. -/
theorem fn_modFn_ne (s : State) {r r' : Nat} (f : Fn → Fn) (h : r' ≠ r) : (s.modFn r f).fn r' = s.fn r' :=
  mget_mset_ne s.fns _ _ h

/-- A changed function reads back, unless it has become the default. -/
theorem fn_modFn_self (s : State) (r : Nat) (f : Fn → Fn) (h : f (s.fn r) ≠ {}) : (s.modFn r f).fn r = f (s.fn r) :=
  mget_mset_self s.fns r h

end Sys2Proof.Machine
end

