-- ==== Sys2Proof/Laws/Ops.lean ====
section
/-!
SUPPORT. What the shared operations do, said once: completions, interrupts, events and host writes touch the functions,
the host links and the record of outputs alone; a command runs on the descriptor that may start.
-/
set_option Elab.async false
namespace Sys2Proof.Machine

/-- Two states differ in functions, host links and outputs alone. -/
def FnsOnly (s t : State) : Prop := t = { s with fns := t.fns, links := t.links, out := t.out }

theorem FnsOnly.refl (s : State) : FnsOnly s s := rfl

theorem FnsOnly.trans {s t u : State} (h1 : FnsOnly s t) (h2 : FnsOnly t u) : FnsOnly s u := by
  unfold FnsOnly at *; rw [h2, h1]

theorem FnsOnly.foldl {A : Type} (f : State → A → State) (h : ∀ s a, FnsOnly s (f s a)) : ∀ (l : List A) (s : State), FnsOnly s (l.foldl f s)
  | [], s => FnsOnly.refl s
  | a :: l, s => (h s a).trans (FnsOnly.foldl f h l (f s a))

theorem modFn_only (s : State) (r : Nat) (f : Fn → Fn) : FnsOnly s (s.modFn r f) := rfl

theorem modRing_only (s : State) (r i : Nat) (f : Ring → Ring) : FnsOnly s (s.modRing r i f) := rfl

theorem emit_only (s : State) (o : Output) : FnsOnly s (emit s o) := by
  simp only [FnsOnly, emit]; split <;> rfl

theorem dma_only (s : State) (r addr n : Nat) (o : Output) : FnsOnly s (dma s r addr n o) := by
  simp only [dma]; split
  · exact (modFn_only s _ _).trans (emit_only _ _)
  · split
    · exact modFn_only s _ _
    · exact FnsOnly.refl s

theorem hostWrite_only (s : State) (r addr : Nat) (bs : List Byte) : FnsOnly s (hostWrite s r addr bs) := dma_only s _ _ _ _

theorem raiseVec_only (s : State) (r v : Nat) : FnsOnly s (raiseVec s r v) := by
  simp only [raiseVec]; split
  · split
    · exact modFn_only s _ _
    · exact emit_only s _
  · split
    · exact FnsOnly.refl s
    · split
      · exact (modFn_only s _ _).trans (emit_only _ _)
      · exact modFn_only s _ _

theorem writeEvent_only (s : State) (r code src status result spec : Nat) : FnsOnly s (writeEvent s r code src status result spec) :=
  (dma_only s _ _ _ _).trans ((modFn_only _ _ _).trans (raiseVec_only _ _ _))

theorem postEventS_only (s : State) (r code src status result spec : Nat) : FnsOnly s (postEventS s r code src status result spec) := by
  simp only [postEventS]; split
  · exact FnsOnly.refl s
  · split
    · exact writeEvent_only s _ _ _ _ _ _
    · exact modFn_only s _ _

theorem postEvent_only (s : State) (r code src result : Nat) : FnsOnly s (postEvent s r code src result) := postEventS_only s _ _ _ _ _ _

theorem postAll_only (s : State) (rs : List Nat) (code src result : Nat) : FnsOnly s (postAll s rs code src result) :=
  FnsOnly.foldl _ (fun s r => postEvent_only s r code src result) rs s

theorem flushLost_only (s : State) (r : Nat) : FnsOnly s (flushLost s r) := by
  simp only [flushLost]; split
  · exact (writeEvent_only s _ _ _ _ _ _).trans (modFn_only _ _ _)
  · exact FnsOnly.refl s

theorem cqInterrupt_only (s : State) (r i : Nat) : FnsOnly s (cqInterrupt s r i) := by
  simp only [cqInterrupt]; split
  · exact raiseVec_only s _ _
  · split
    · exact (modRing_only s _ _ _).trans (raiseVec_only _ _ _)
    · exact modRing_only s _ _ _

theorem writeCqe_only (s : State) (r i : Nat) (c : Cpl) : FnsOnly s (writeCqe s r i c) := by
  simp only [writeCqe]; split
  · exact (dma_only s _ _ _ _).trans ((modRing_only _ _ _ _).trans (cqInterrupt_only _ _ _))
  · exact (dma_only s _ _ _ _).trans (modRing_only _ _ _ _)

theorem settleRing_only (s : State) (r i : Nat) : FnsOnly s (settleRing s r i) := by
  simp only [settleRing]; split
  · exact modRing_only s _ _ _
  · exact FnsOnly.refl s

theorem deliver_only (s : State) (r i : Nat) (c : Cpl) : FnsOnly s (deliver s r i c) := by
  simp only [deliver]
  split
  · exact FnsOnly.refl s
  · split
    · exact modRing_only s _ _ _
    · split
      · exact FnsOnly.refl s
      · split
        · exact writeCqe_only s _ _ _
        · exact modRing_only s _ _ _

theorem drainWaiting_only : ∀ (k : Nat) (s : State) (r i : Nat), FnsOnly s (drainWaiting k s r i)
  | 0, s, _, _ => FnsOnly.refl s
  | k + 1, s, r, i => by
    simp only [drainWaiting]
    split
    · exact FnsOnly.refl s
    · split
      · exact (modRing_only s _ _ _).trans ((writeCqe_only _ _ _ _).trans (drainWaiting_only k _ r i))
      · exact FnsOnly.refl s

theorem releaseReady_only (s : State) (r i : Nat) (ordered : Bool) : FnsOnly s (releaseReady s r i ordered) :=
  (modRing_only s _ _ _).trans ((FnsOnly.foldl _ (fun s c => deliver_only s r i c) _ _).trans (settleRing_only _ _ _))

theorem finishOne_only (s : State) (ref : DRef) (a b c : Nat) : FnsOnly s (finishOne s ref a b c) :=
  (modRing_only s _ _ _).trans (releaseReady_only _ _ _ _)

theorem checkFreeze_only (s : State) (r : Nat) : FnsOnly s (checkFreeze s r) := by
  simp only [checkFreeze]
  split
  · exact FnsOnly.refl s
  · split
    · exact (modFn_only s _ _).trans (finishOne_only _ _ _ _ _)
    · exact FnsOnly.refl s

/-- A completion touches functions, host links and outputs alone. -/
theorem finish_only (s : State) (ref : DRef) (a b c : Nat) : FnsOnly s (finish s ref a b c) :=
  (finishOne_only s ref a b c).trans (checkFreeze_only _ _)

/-- Every function but one is the same in two states. -/
def FnAlone (r : Nat) (s t : State) : Prop := ∀ q, q ≠ r → t.fn q = s.fn q

theorem FnAlone.refl (r : Nat) (s : State) : FnAlone r s s := fun _ _ => rfl
theorem FnAlone.trans {r : Nat} {s t u : State} (h1 : FnAlone r s t) (h2 : FnAlone r t u) : FnAlone r s u :=
  fun q h => (h2 q h).trans (h1 q h)
theorem FnAlone.foldl {A : Type} {r : Nat} (f : State → A → State) (h : ∀ s a, FnAlone r s (f s a)) : ∀ (l : List A) (s : State), FnAlone r s (l.foldl f s)
  | [], s => FnAlone.refl r s
  | a :: l, s => (h s a).trans (FnAlone.foldl f h l (f s a))
theorem modFn_alone (s : State) (r : Nat) (f : Fn → Fn) : FnAlone r s (s.modFn r f) := fun _ h => fn_modFn_ne s f h
theorem modRing_alone (s : State) (r i : Nat) (f : Ring → Ring) : FnAlone r s (s.modRing r i f) := modFn_alone s r _
theorem emit_alone (s : State) (r : Nat) (o : Output) : FnAlone r s (emit s o) := by
  intro q h; simp only [emit]; split <;> rfl
theorem dma_alone (s : State) (r addr n : Nat) (o : Output) : FnAlone r s (dma s r addr n o) := by
  simp only [dma]; split
  · exact (modFn_alone s _ _).trans (emit_alone _ _ _)
  · split
    · exact modFn_alone s _ _
    · exact FnAlone.refl r s
theorem raiseVec_alone (s : State) (r v : Nat) : FnAlone r s (raiseVec s r v) := by
  simp only [raiseVec]; split
  · split
    · exact modFn_alone s _ _
    · exact emit_alone s _ _
  · split
    · exact FnAlone.refl r s
    · split
      · exact (modFn_alone s _ _).trans (emit_alone _ _ _)
      · exact modFn_alone s _ _
theorem cqInterrupt_alone (s : State) (r i : Nat) : FnAlone r s (cqInterrupt s r i) := by
  simp only [cqInterrupt]; split
  · exact raiseVec_alone s _ _
  · split
    · exact (modRing_alone s _ _ _).trans (raiseVec_alone _ _ _)
    · exact modRing_alone s _ _ _
theorem writeCqe_alone (s : State) (r i : Nat) (c : Cpl) : FnAlone r s (writeCqe s r i c) := by
  simp only [writeCqe]; split
  · exact (dma_alone s _ _ _ _).trans ((modRing_alone _ _ _ _).trans (cqInterrupt_alone _ _ _))
  · exact (dma_alone s _ _ _ _).trans (modRing_alone _ _ _ _)
theorem settleRing_alone (s : State) (r i : Nat) : FnAlone r s (settleRing s r i) := by
  simp only [settleRing]; split
  · exact modRing_alone s _ _ _
  · exact FnAlone.refl r s
theorem deliver_alone (s : State) (r i : Nat) (c : Cpl) : FnAlone r s (deliver s r i c) := by
  simp only [deliver]
  split
  · exact FnAlone.refl r s
  · split
    · exact modRing_alone s _ _ _
    · split
      · exact FnAlone.refl r s
      · split
        · exact writeCqe_alone s _ _ _
        · exact modRing_alone s _ _ _
theorem releaseReady_alone (s : State) (r i : Nat) (ordered : Bool) : FnAlone r s (releaseReady s r i ordered) :=
  (modRing_alone s _ _ _).trans ((FnAlone.foldl _ (fun s c => deliver_alone s r i c) _ _).trans (settleRing_alone _ _ _))

/-- Recording a completion changes no function but the descriptor's own. -/
theorem finishOne_alone (s : State) (ref : DRef) (a b c : Nat) : FnAlone ref.fn s (finishOne s ref a b c) :=
  (modRing_alone s _ _ _).trans (releaseReady_alone _ _ _ _)

theorem ringError_only (s : State) (r i : Nat) : FnsOnly s (ringError s r i) :=
  (modRing_only s _ _ _).trans ((postEvent_only _ _ _ _ _).trans ((modRing_only _ _ _ _).trans (releaseReady_only _ _ _ _)))

theorem FnsOnly.transom {s t : State} (h : FnsOnly s t) : t.transom = s.transom := by rw [h]
theorem FnsOnly.regs {s t : State} (h : FnsOnly s t) : t.regs = s.regs := by rw [h]
theorem FnsOnly.clock {s t : State} (h : FnsOnly s t) : t.clock = s.clock := by rw [h]
theorem FnsOnly.stack {s t : State} (h : FnsOnly s t) : t.stack = s.stack := by rw [h]
theorem FnsOnly.ports {s t : State} (h : FnsOnly s t) : t.ports = s.ports := by rw [h]
theorem FnsOnly.fabric {s t : State} (h : FnsOnly s t) : t.fabric = s.fabric := by rw [h]
theorem FnsOnly.red {s t : State} (h : FnsOnly s t) : t.red = s.red := by rw [h]
theorem FnsOnly.cores {s t : State} (h : FnsOnly s t) : t.cores = s.cores := by rw [h]
theorem FnsOnly.fw {s t : State} (h : FnsOnly s t) : t.fw = s.fw := by rw [h]
theorem FnsOnly.kv {s t : State} (h : FnsOnly s t) : t.kv = s.kv := by rw [h]
theorem FnsOnly.rdma {s t : State} (h : FnsOnly s t) : t.rdma = s.rdma := by rw [h]
theorem FnsOnly.cls {s t : State} (h : FnsOnly s t) : t.cls = s.cls := by rw [h]
theorem FnsOnly.net {s t : State} (h : FnsOnly s t) : t.net = s.net := by rw [h]
theorem FnsOnly.sealing {s t : State} (h : FnsOnly s t) : t.sealing = s.sealing := by rw [h]
theorem FnsOnly.sto {s t : State} (h : FnsOnly s t) : t.sto = s.sto := by rw [h]
theorem FnsOnly.ck {s t : State} (h : FnsOnly s t) : t.ck = s.ck := by rw [h]
theorem FnsOnly.stks {s t : State} (h : FnsOnly s t) : t.stks = s.stks := by rw [h]
theorem FnsOnly.memCap {s t : State} (h : FnsOnly s t) : t.memCap = s.memCap := by rw [h]
theorem FnsOnly.memCeLimit {s t : State} (h : FnsOnly s t) : t.memCeLimit = s.memCeLimit := by rw [h]
theorem FnsOnly.doms {s t : State} (h : FnsOnly s t) : t.doms = s.doms := by rw [h]
theorem FnsOnly.power {s t : State} (h : FnsOnly s t) : t.power = s.power := by rw [h]
theorem FnsOnly.trust {s t : State} (h : FnsOnly s t) : t.trust = s.trust := by rw [h]
theorem FnsOnly.wx {s t : State} (h : FnsOnly s t) : t.wx = s.wx := by rw [h]
theorem FnsOnly.vcycle {s t : State} (h : FnsOnly s t) : t.vcycle = s.vcycle := by rw [h]
theorem FnsOnly.freeCtr {s t : State} (h : FnsOnly s t) : t.freeCtr = s.freeCtr := by rw [h]
theorem FnsOnly.pending {s t : State} (h : FnsOnly s t) : t.pending = s.pending := by rw [h]

@[simp] theorem emit_transom (s : State) (o : Output) : (emit s o).transom = s.transom := (emit_only s _).transom
@[simp] theorem emit_regs (s : State) (o : Output) : (emit s o).regs = s.regs := (emit_only s _).regs
@[simp] theorem emit_clock (s : State) (o : Output) : (emit s o).clock = s.clock := (emit_only s _).clock
@[simp] theorem emit_stack (s : State) (o : Output) : (emit s o).stack = s.stack := (emit_only s _).stack
@[simp] theorem emit_ports (s : State) (o : Output) : (emit s o).ports = s.ports := (emit_only s _).ports
@[simp] theorem emit_fabric (s : State) (o : Output) : (emit s o).fabric = s.fabric := (emit_only s _).fabric
@[simp] theorem emit_red (s : State) (o : Output) : (emit s o).red = s.red := (emit_only s _).red
@[simp] theorem emit_cores (s : State) (o : Output) : (emit s o).cores = s.cores := (emit_only s _).cores
@[simp] theorem emit_fw (s : State) (o : Output) : (emit s o).fw = s.fw := (emit_only s _).fw
@[simp] theorem emit_kv (s : State) (o : Output) : (emit s o).kv = s.kv := (emit_only s _).kv
@[simp] theorem emit_rdma (s : State) (o : Output) : (emit s o).rdma = s.rdma := (emit_only s _).rdma
@[simp] theorem emit_cls (s : State) (o : Output) : (emit s o).cls = s.cls := (emit_only s _).cls
@[simp] theorem emit_net (s : State) (o : Output) : (emit s o).net = s.net := (emit_only s _).net
@[simp] theorem emit_sealing (s : State) (o : Output) : (emit s o).sealing = s.sealing := (emit_only s _).sealing
@[simp] theorem emit_sto (s : State) (o : Output) : (emit s o).sto = s.sto := (emit_only s _).sto
@[simp] theorem emit_ck (s : State) (o : Output) : (emit s o).ck = s.ck := (emit_only s _).ck
@[simp] theorem emit_stks (s : State) (o : Output) : (emit s o).stks = s.stks := (emit_only s _).stks
@[simp] theorem emit_memCap (s : State) (o : Output) : (emit s o).memCap = s.memCap := (emit_only s _).memCap
@[simp] theorem emit_memCeLimit (s : State) (o : Output) : (emit s o).memCeLimit = s.memCeLimit := (emit_only s _).memCeLimit
@[simp] theorem emit_doms (s : State) (o : Output) : (emit s o).doms = s.doms := (emit_only s _).doms
@[simp] theorem emit_power (s : State) (o : Output) : (emit s o).power = s.power := (emit_only s _).power
@[simp] theorem emit_trust (s : State) (o : Output) : (emit s o).trust = s.trust := (emit_only s _).trust
@[simp] theorem emit_wx (s : State) (o : Output) : (emit s o).wx = s.wx := (emit_only s _).wx
@[simp] theorem emit_vcycle (s : State) (o : Output) : (emit s o).vcycle = s.vcycle := (emit_only s _).vcycle
@[simp] theorem emit_freeCtr (s : State) (o : Output) : (emit s o).freeCtr = s.freeCtr := (emit_only s _).freeCtr
@[simp] theorem emit_pending (s : State) (o : Output) : (emit s o).pending = s.pending := (emit_only s _).pending

@[simp] theorem dma_transom (s : State) (r addr n : Nat) (o : Output) : (dma s r addr n o).transom = s.transom := (dma_only s _ _ _ _).transom
@[simp] theorem dma_regs (s : State) (r addr n : Nat) (o : Output) : (dma s r addr n o).regs = s.regs := (dma_only s _ _ _ _).regs
@[simp] theorem dma_clock (s : State) (r addr n : Nat) (o : Output) : (dma s r addr n o).clock = s.clock := (dma_only s _ _ _ _).clock
@[simp] theorem dma_stack (s : State) (r addr n : Nat) (o : Output) : (dma s r addr n o).stack = s.stack := (dma_only s _ _ _ _).stack
@[simp] theorem dma_ports (s : State) (r addr n : Nat) (o : Output) : (dma s r addr n o).ports = s.ports := (dma_only s _ _ _ _).ports
@[simp] theorem dma_fabric (s : State) (r addr n : Nat) (o : Output) : (dma s r addr n o).fabric = s.fabric := (dma_only s _ _ _ _).fabric
@[simp] theorem dma_red (s : State) (r addr n : Nat) (o : Output) : (dma s r addr n o).red = s.red := (dma_only s _ _ _ _).red
@[simp] theorem dma_cores (s : State) (r addr n : Nat) (o : Output) : (dma s r addr n o).cores = s.cores := (dma_only s _ _ _ _).cores
@[simp] theorem dma_fw (s : State) (r addr n : Nat) (o : Output) : (dma s r addr n o).fw = s.fw := (dma_only s _ _ _ _).fw
@[simp] theorem dma_kv (s : State) (r addr n : Nat) (o : Output) : (dma s r addr n o).kv = s.kv := (dma_only s _ _ _ _).kv
@[simp] theorem dma_rdma (s : State) (r addr n : Nat) (o : Output) : (dma s r addr n o).rdma = s.rdma := (dma_only s _ _ _ _).rdma
@[simp] theorem dma_cls (s : State) (r addr n : Nat) (o : Output) : (dma s r addr n o).cls = s.cls := (dma_only s _ _ _ _).cls
@[simp] theorem dma_net (s : State) (r addr n : Nat) (o : Output) : (dma s r addr n o).net = s.net := (dma_only s _ _ _ _).net
@[simp] theorem dma_sealing (s : State) (r addr n : Nat) (o : Output) : (dma s r addr n o).sealing = s.sealing := (dma_only s _ _ _ _).sealing
@[simp] theorem dma_sto (s : State) (r addr n : Nat) (o : Output) : (dma s r addr n o).sto = s.sto := (dma_only s _ _ _ _).sto
@[simp] theorem dma_ck (s : State) (r addr n : Nat) (o : Output) : (dma s r addr n o).ck = s.ck := (dma_only s _ _ _ _).ck
@[simp] theorem dma_stks (s : State) (r addr n : Nat) (o : Output) : (dma s r addr n o).stks = s.stks := (dma_only s _ _ _ _).stks
@[simp] theorem dma_memCap (s : State) (r addr n : Nat) (o : Output) : (dma s r addr n o).memCap = s.memCap := (dma_only s _ _ _ _).memCap
@[simp] theorem dma_memCeLimit (s : State) (r addr n : Nat) (o : Output) : (dma s r addr n o).memCeLimit = s.memCeLimit := (dma_only s _ _ _ _).memCeLimit
@[simp] theorem dma_doms (s : State) (r addr n : Nat) (o : Output) : (dma s r addr n o).doms = s.doms := (dma_only s _ _ _ _).doms
@[simp] theorem dma_power (s : State) (r addr n : Nat) (o : Output) : (dma s r addr n o).power = s.power := (dma_only s _ _ _ _).power
@[simp] theorem dma_trust (s : State) (r addr n : Nat) (o : Output) : (dma s r addr n o).trust = s.trust := (dma_only s _ _ _ _).trust
@[simp] theorem dma_wx (s : State) (r addr n : Nat) (o : Output) : (dma s r addr n o).wx = s.wx := (dma_only s _ _ _ _).wx
@[simp] theorem dma_vcycle (s : State) (r addr n : Nat) (o : Output) : (dma s r addr n o).vcycle = s.vcycle := (dma_only s _ _ _ _).vcycle
@[simp] theorem dma_freeCtr (s : State) (r addr n : Nat) (o : Output) : (dma s r addr n o).freeCtr = s.freeCtr := (dma_only s _ _ _ _).freeCtr
@[simp] theorem dma_pending (s : State) (r addr n : Nat) (o : Output) : (dma s r addr n o).pending = s.pending := (dma_only s _ _ _ _).pending

@[simp] theorem hostWrite_transom (s : State) (r addr : Nat) (bs : List Byte) : (hostWrite s r addr bs).transom = s.transom := (hostWrite_only s _ _ _).transom
@[simp] theorem hostWrite_regs (s : State) (r addr : Nat) (bs : List Byte) : (hostWrite s r addr bs).regs = s.regs := (hostWrite_only s _ _ _).regs
@[simp] theorem hostWrite_clock (s : State) (r addr : Nat) (bs : List Byte) : (hostWrite s r addr bs).clock = s.clock := (hostWrite_only s _ _ _).clock
@[simp] theorem hostWrite_stack (s : State) (r addr : Nat) (bs : List Byte) : (hostWrite s r addr bs).stack = s.stack := (hostWrite_only s _ _ _).stack
@[simp] theorem hostWrite_ports (s : State) (r addr : Nat) (bs : List Byte) : (hostWrite s r addr bs).ports = s.ports := (hostWrite_only s _ _ _).ports
@[simp] theorem hostWrite_fabric (s : State) (r addr : Nat) (bs : List Byte) : (hostWrite s r addr bs).fabric = s.fabric := (hostWrite_only s _ _ _).fabric
@[simp] theorem hostWrite_red (s : State) (r addr : Nat) (bs : List Byte) : (hostWrite s r addr bs).red = s.red := (hostWrite_only s _ _ _).red
@[simp] theorem hostWrite_cores (s : State) (r addr : Nat) (bs : List Byte) : (hostWrite s r addr bs).cores = s.cores := (hostWrite_only s _ _ _).cores
@[simp] theorem hostWrite_fw (s : State) (r addr : Nat) (bs : List Byte) : (hostWrite s r addr bs).fw = s.fw := (hostWrite_only s _ _ _).fw
@[simp] theorem hostWrite_kv (s : State) (r addr : Nat) (bs : List Byte) : (hostWrite s r addr bs).kv = s.kv := (hostWrite_only s _ _ _).kv
@[simp] theorem hostWrite_rdma (s : State) (r addr : Nat) (bs : List Byte) : (hostWrite s r addr bs).rdma = s.rdma := (hostWrite_only s _ _ _).rdma
@[simp] theorem hostWrite_cls (s : State) (r addr : Nat) (bs : List Byte) : (hostWrite s r addr bs).cls = s.cls := (hostWrite_only s _ _ _).cls
@[simp] theorem hostWrite_net (s : State) (r addr : Nat) (bs : List Byte) : (hostWrite s r addr bs).net = s.net := (hostWrite_only s _ _ _).net
@[simp] theorem hostWrite_sealing (s : State) (r addr : Nat) (bs : List Byte) : (hostWrite s r addr bs).sealing = s.sealing := (hostWrite_only s _ _ _).sealing
@[simp] theorem hostWrite_sto (s : State) (r addr : Nat) (bs : List Byte) : (hostWrite s r addr bs).sto = s.sto := (hostWrite_only s _ _ _).sto
@[simp] theorem hostWrite_ck (s : State) (r addr : Nat) (bs : List Byte) : (hostWrite s r addr bs).ck = s.ck := (hostWrite_only s _ _ _).ck
@[simp] theorem hostWrite_stks (s : State) (r addr : Nat) (bs : List Byte) : (hostWrite s r addr bs).stks = s.stks := (hostWrite_only s _ _ _).stks
@[simp] theorem hostWrite_memCap (s : State) (r addr : Nat) (bs : List Byte) : (hostWrite s r addr bs).memCap = s.memCap := (hostWrite_only s _ _ _).memCap
@[simp] theorem hostWrite_memCeLimit (s : State) (r addr : Nat) (bs : List Byte) : (hostWrite s r addr bs).memCeLimit = s.memCeLimit := (hostWrite_only s _ _ _).memCeLimit
@[simp] theorem hostWrite_doms (s : State) (r addr : Nat) (bs : List Byte) : (hostWrite s r addr bs).doms = s.doms := (hostWrite_only s _ _ _).doms
@[simp] theorem hostWrite_power (s : State) (r addr : Nat) (bs : List Byte) : (hostWrite s r addr bs).power = s.power := (hostWrite_only s _ _ _).power
@[simp] theorem hostWrite_trust (s : State) (r addr : Nat) (bs : List Byte) : (hostWrite s r addr bs).trust = s.trust := (hostWrite_only s _ _ _).trust
@[simp] theorem hostWrite_wx (s : State) (r addr : Nat) (bs : List Byte) : (hostWrite s r addr bs).wx = s.wx := (hostWrite_only s _ _ _).wx
@[simp] theorem hostWrite_vcycle (s : State) (r addr : Nat) (bs : List Byte) : (hostWrite s r addr bs).vcycle = s.vcycle := (hostWrite_only s _ _ _).vcycle
@[simp] theorem hostWrite_freeCtr (s : State) (r addr : Nat) (bs : List Byte) : (hostWrite s r addr bs).freeCtr = s.freeCtr := (hostWrite_only s _ _ _).freeCtr
@[simp] theorem hostWrite_pending (s : State) (r addr : Nat) (bs : List Byte) : (hostWrite s r addr bs).pending = s.pending := (hostWrite_only s _ _ _).pending

@[simp] theorem raiseVec_transom (s : State) (r v : Nat) : (raiseVec s r v).transom = s.transom := (raiseVec_only s _ _).transom
@[simp] theorem raiseVec_regs (s : State) (r v : Nat) : (raiseVec s r v).regs = s.regs := (raiseVec_only s _ _).regs
@[simp] theorem raiseVec_clock (s : State) (r v : Nat) : (raiseVec s r v).clock = s.clock := (raiseVec_only s _ _).clock
@[simp] theorem raiseVec_stack (s : State) (r v : Nat) : (raiseVec s r v).stack = s.stack := (raiseVec_only s _ _).stack
@[simp] theorem raiseVec_ports (s : State) (r v : Nat) : (raiseVec s r v).ports = s.ports := (raiseVec_only s _ _).ports
@[simp] theorem raiseVec_fabric (s : State) (r v : Nat) : (raiseVec s r v).fabric = s.fabric := (raiseVec_only s _ _).fabric
@[simp] theorem raiseVec_red (s : State) (r v : Nat) : (raiseVec s r v).red = s.red := (raiseVec_only s _ _).red
@[simp] theorem raiseVec_cores (s : State) (r v : Nat) : (raiseVec s r v).cores = s.cores := (raiseVec_only s _ _).cores
@[simp] theorem raiseVec_fw (s : State) (r v : Nat) : (raiseVec s r v).fw = s.fw := (raiseVec_only s _ _).fw
@[simp] theorem raiseVec_kv (s : State) (r v : Nat) : (raiseVec s r v).kv = s.kv := (raiseVec_only s _ _).kv
@[simp] theorem raiseVec_rdma (s : State) (r v : Nat) : (raiseVec s r v).rdma = s.rdma := (raiseVec_only s _ _).rdma
@[simp] theorem raiseVec_cls (s : State) (r v : Nat) : (raiseVec s r v).cls = s.cls := (raiseVec_only s _ _).cls
@[simp] theorem raiseVec_net (s : State) (r v : Nat) : (raiseVec s r v).net = s.net := (raiseVec_only s _ _).net
@[simp] theorem raiseVec_sealing (s : State) (r v : Nat) : (raiseVec s r v).sealing = s.sealing := (raiseVec_only s _ _).sealing
@[simp] theorem raiseVec_sto (s : State) (r v : Nat) : (raiseVec s r v).sto = s.sto := (raiseVec_only s _ _).sto
@[simp] theorem raiseVec_ck (s : State) (r v : Nat) : (raiseVec s r v).ck = s.ck := (raiseVec_only s _ _).ck
@[simp] theorem raiseVec_stks (s : State) (r v : Nat) : (raiseVec s r v).stks = s.stks := (raiseVec_only s _ _).stks
@[simp] theorem raiseVec_memCap (s : State) (r v : Nat) : (raiseVec s r v).memCap = s.memCap := (raiseVec_only s _ _).memCap
@[simp] theorem raiseVec_memCeLimit (s : State) (r v : Nat) : (raiseVec s r v).memCeLimit = s.memCeLimit := (raiseVec_only s _ _).memCeLimit
@[simp] theorem raiseVec_doms (s : State) (r v : Nat) : (raiseVec s r v).doms = s.doms := (raiseVec_only s _ _).doms
@[simp] theorem raiseVec_power (s : State) (r v : Nat) : (raiseVec s r v).power = s.power := (raiseVec_only s _ _).power
@[simp] theorem raiseVec_trust (s : State) (r v : Nat) : (raiseVec s r v).trust = s.trust := (raiseVec_only s _ _).trust
@[simp] theorem raiseVec_wx (s : State) (r v : Nat) : (raiseVec s r v).wx = s.wx := (raiseVec_only s _ _).wx
@[simp] theorem raiseVec_vcycle (s : State) (r v : Nat) : (raiseVec s r v).vcycle = s.vcycle := (raiseVec_only s _ _).vcycle
@[simp] theorem raiseVec_freeCtr (s : State) (r v : Nat) : (raiseVec s r v).freeCtr = s.freeCtr := (raiseVec_only s _ _).freeCtr
@[simp] theorem raiseVec_pending (s : State) (r v : Nat) : (raiseVec s r v).pending = s.pending := (raiseVec_only s _ _).pending

@[simp] theorem postEventS_transom (s : State) (r code src status result spec : Nat) : (postEventS s r code src status result spec).transom = s.transom := (postEventS_only s _ _ _ _ _ _).transom
@[simp] theorem postEventS_regs (s : State) (r code src status result spec : Nat) : (postEventS s r code src status result spec).regs = s.regs := (postEventS_only s _ _ _ _ _ _).regs
@[simp] theorem postEventS_clock (s : State) (r code src status result spec : Nat) : (postEventS s r code src status result spec).clock = s.clock := (postEventS_only s _ _ _ _ _ _).clock
@[simp] theorem postEventS_stack (s : State) (r code src status result spec : Nat) : (postEventS s r code src status result spec).stack = s.stack := (postEventS_only s _ _ _ _ _ _).stack
@[simp] theorem postEventS_ports (s : State) (r code src status result spec : Nat) : (postEventS s r code src status result spec).ports = s.ports := (postEventS_only s _ _ _ _ _ _).ports
@[simp] theorem postEventS_fabric (s : State) (r code src status result spec : Nat) : (postEventS s r code src status result spec).fabric = s.fabric := (postEventS_only s _ _ _ _ _ _).fabric
@[simp] theorem postEventS_red (s : State) (r code src status result spec : Nat) : (postEventS s r code src status result spec).red = s.red := (postEventS_only s _ _ _ _ _ _).red
@[simp] theorem postEventS_cores (s : State) (r code src status result spec : Nat) : (postEventS s r code src status result spec).cores = s.cores := (postEventS_only s _ _ _ _ _ _).cores
@[simp] theorem postEventS_fw (s : State) (r code src status result spec : Nat) : (postEventS s r code src status result spec).fw = s.fw := (postEventS_only s _ _ _ _ _ _).fw
@[simp] theorem postEventS_kv (s : State) (r code src status result spec : Nat) : (postEventS s r code src status result spec).kv = s.kv := (postEventS_only s _ _ _ _ _ _).kv
@[simp] theorem postEventS_rdma (s : State) (r code src status result spec : Nat) : (postEventS s r code src status result spec).rdma = s.rdma := (postEventS_only s _ _ _ _ _ _).rdma
@[simp] theorem postEventS_cls (s : State) (r code src status result spec : Nat) : (postEventS s r code src status result spec).cls = s.cls := (postEventS_only s _ _ _ _ _ _).cls
@[simp] theorem postEventS_net (s : State) (r code src status result spec : Nat) : (postEventS s r code src status result spec).net = s.net := (postEventS_only s _ _ _ _ _ _).net
@[simp] theorem postEventS_sealing (s : State) (r code src status result spec : Nat) : (postEventS s r code src status result spec).sealing = s.sealing := (postEventS_only s _ _ _ _ _ _).sealing
@[simp] theorem postEventS_sto (s : State) (r code src status result spec : Nat) : (postEventS s r code src status result spec).sto = s.sto := (postEventS_only s _ _ _ _ _ _).sto
@[simp] theorem postEventS_ck (s : State) (r code src status result spec : Nat) : (postEventS s r code src status result spec).ck = s.ck := (postEventS_only s _ _ _ _ _ _).ck
@[simp] theorem postEventS_stks (s : State) (r code src status result spec : Nat) : (postEventS s r code src status result spec).stks = s.stks := (postEventS_only s _ _ _ _ _ _).stks
@[simp] theorem postEventS_memCap (s : State) (r code src status result spec : Nat) : (postEventS s r code src status result spec).memCap = s.memCap := (postEventS_only s _ _ _ _ _ _).memCap
@[simp] theorem postEventS_memCeLimit (s : State) (r code src status result spec : Nat) : (postEventS s r code src status result spec).memCeLimit = s.memCeLimit := (postEventS_only s _ _ _ _ _ _).memCeLimit
@[simp] theorem postEventS_doms (s : State) (r code src status result spec : Nat) : (postEventS s r code src status result spec).doms = s.doms := (postEventS_only s _ _ _ _ _ _).doms
@[simp] theorem postEventS_power (s : State) (r code src status result spec : Nat) : (postEventS s r code src status result spec).power = s.power := (postEventS_only s _ _ _ _ _ _).power
@[simp] theorem postEventS_trust (s : State) (r code src status result spec : Nat) : (postEventS s r code src status result spec).trust = s.trust := (postEventS_only s _ _ _ _ _ _).trust
@[simp] theorem postEventS_wx (s : State) (r code src status result spec : Nat) : (postEventS s r code src status result spec).wx = s.wx := (postEventS_only s _ _ _ _ _ _).wx
@[simp] theorem postEventS_vcycle (s : State) (r code src status result spec : Nat) : (postEventS s r code src status result spec).vcycle = s.vcycle := (postEventS_only s _ _ _ _ _ _).vcycle
@[simp] theorem postEventS_freeCtr (s : State) (r code src status result spec : Nat) : (postEventS s r code src status result spec).freeCtr = s.freeCtr := (postEventS_only s _ _ _ _ _ _).freeCtr
@[simp] theorem postEventS_pending (s : State) (r code src status result spec : Nat) : (postEventS s r code src status result spec).pending = s.pending := (postEventS_only s _ _ _ _ _ _).pending

@[simp] theorem postEvent_transom (s : State) (r code src result : Nat) : (postEvent s r code src result).transom = s.transom := (postEvent_only s _ _ _ _).transom
@[simp] theorem postEvent_regs (s : State) (r code src result : Nat) : (postEvent s r code src result).regs = s.regs := (postEvent_only s _ _ _ _).regs
@[simp] theorem postEvent_clock (s : State) (r code src result : Nat) : (postEvent s r code src result).clock = s.clock := (postEvent_only s _ _ _ _).clock
@[simp] theorem postEvent_stack (s : State) (r code src result : Nat) : (postEvent s r code src result).stack = s.stack := (postEvent_only s _ _ _ _).stack
@[simp] theorem postEvent_ports (s : State) (r code src result : Nat) : (postEvent s r code src result).ports = s.ports := (postEvent_only s _ _ _ _).ports
@[simp] theorem postEvent_fabric (s : State) (r code src result : Nat) : (postEvent s r code src result).fabric = s.fabric := (postEvent_only s _ _ _ _).fabric
@[simp] theorem postEvent_red (s : State) (r code src result : Nat) : (postEvent s r code src result).red = s.red := (postEvent_only s _ _ _ _).red
@[simp] theorem postEvent_cores (s : State) (r code src result : Nat) : (postEvent s r code src result).cores = s.cores := (postEvent_only s _ _ _ _).cores
@[simp] theorem postEvent_fw (s : State) (r code src result : Nat) : (postEvent s r code src result).fw = s.fw := (postEvent_only s _ _ _ _).fw
@[simp] theorem postEvent_kv (s : State) (r code src result : Nat) : (postEvent s r code src result).kv = s.kv := (postEvent_only s _ _ _ _).kv
@[simp] theorem postEvent_rdma (s : State) (r code src result : Nat) : (postEvent s r code src result).rdma = s.rdma := (postEvent_only s _ _ _ _).rdma
@[simp] theorem postEvent_cls (s : State) (r code src result : Nat) : (postEvent s r code src result).cls = s.cls := (postEvent_only s _ _ _ _).cls
@[simp] theorem postEvent_net (s : State) (r code src result : Nat) : (postEvent s r code src result).net = s.net := (postEvent_only s _ _ _ _).net
@[simp] theorem postEvent_sealing (s : State) (r code src result : Nat) : (postEvent s r code src result).sealing = s.sealing := (postEvent_only s _ _ _ _).sealing
@[simp] theorem postEvent_sto (s : State) (r code src result : Nat) : (postEvent s r code src result).sto = s.sto := (postEvent_only s _ _ _ _).sto
@[simp] theorem postEvent_ck (s : State) (r code src result : Nat) : (postEvent s r code src result).ck = s.ck := (postEvent_only s _ _ _ _).ck
@[simp] theorem postEvent_stks (s : State) (r code src result : Nat) : (postEvent s r code src result).stks = s.stks := (postEvent_only s _ _ _ _).stks
@[simp] theorem postEvent_memCap (s : State) (r code src result : Nat) : (postEvent s r code src result).memCap = s.memCap := (postEvent_only s _ _ _ _).memCap
@[simp] theorem postEvent_memCeLimit (s : State) (r code src result : Nat) : (postEvent s r code src result).memCeLimit = s.memCeLimit := (postEvent_only s _ _ _ _).memCeLimit
@[simp] theorem postEvent_doms (s : State) (r code src result : Nat) : (postEvent s r code src result).doms = s.doms := (postEvent_only s _ _ _ _).doms
@[simp] theorem postEvent_power (s : State) (r code src result : Nat) : (postEvent s r code src result).power = s.power := (postEvent_only s _ _ _ _).power
@[simp] theorem postEvent_trust (s : State) (r code src result : Nat) : (postEvent s r code src result).trust = s.trust := (postEvent_only s _ _ _ _).trust
@[simp] theorem postEvent_wx (s : State) (r code src result : Nat) : (postEvent s r code src result).wx = s.wx := (postEvent_only s _ _ _ _).wx
@[simp] theorem postEvent_vcycle (s : State) (r code src result : Nat) : (postEvent s r code src result).vcycle = s.vcycle := (postEvent_only s _ _ _ _).vcycle
@[simp] theorem postEvent_freeCtr (s : State) (r code src result : Nat) : (postEvent s r code src result).freeCtr = s.freeCtr := (postEvent_only s _ _ _ _).freeCtr
@[simp] theorem postEvent_pending (s : State) (r code src result : Nat) : (postEvent s r code src result).pending = s.pending := (postEvent_only s _ _ _ _).pending

@[simp] theorem postAll_transom (s : State) (rs : List Nat) (code src result : Nat) : (postAll s rs code src result).transom = s.transom := (postAll_only s _ _ _ _).transom
@[simp] theorem postAll_regs (s : State) (rs : List Nat) (code src result : Nat) : (postAll s rs code src result).regs = s.regs := (postAll_only s _ _ _ _).regs
@[simp] theorem postAll_clock (s : State) (rs : List Nat) (code src result : Nat) : (postAll s rs code src result).clock = s.clock := (postAll_only s _ _ _ _).clock
@[simp] theorem postAll_stack (s : State) (rs : List Nat) (code src result : Nat) : (postAll s rs code src result).stack = s.stack := (postAll_only s _ _ _ _).stack
@[simp] theorem postAll_ports (s : State) (rs : List Nat) (code src result : Nat) : (postAll s rs code src result).ports = s.ports := (postAll_only s _ _ _ _).ports
@[simp] theorem postAll_fabric (s : State) (rs : List Nat) (code src result : Nat) : (postAll s rs code src result).fabric = s.fabric := (postAll_only s _ _ _ _).fabric
@[simp] theorem postAll_red (s : State) (rs : List Nat) (code src result : Nat) : (postAll s rs code src result).red = s.red := (postAll_only s _ _ _ _).red
@[simp] theorem postAll_cores (s : State) (rs : List Nat) (code src result : Nat) : (postAll s rs code src result).cores = s.cores := (postAll_only s _ _ _ _).cores
@[simp] theorem postAll_fw (s : State) (rs : List Nat) (code src result : Nat) : (postAll s rs code src result).fw = s.fw := (postAll_only s _ _ _ _).fw
@[simp] theorem postAll_kv (s : State) (rs : List Nat) (code src result : Nat) : (postAll s rs code src result).kv = s.kv := (postAll_only s _ _ _ _).kv
@[simp] theorem postAll_rdma (s : State) (rs : List Nat) (code src result : Nat) : (postAll s rs code src result).rdma = s.rdma := (postAll_only s _ _ _ _).rdma
@[simp] theorem postAll_cls (s : State) (rs : List Nat) (code src result : Nat) : (postAll s rs code src result).cls = s.cls := (postAll_only s _ _ _ _).cls
@[simp] theorem postAll_net (s : State) (rs : List Nat) (code src result : Nat) : (postAll s rs code src result).net = s.net := (postAll_only s _ _ _ _).net
@[simp] theorem postAll_sealing (s : State) (rs : List Nat) (code src result : Nat) : (postAll s rs code src result).sealing = s.sealing := (postAll_only s _ _ _ _).sealing
@[simp] theorem postAll_sto (s : State) (rs : List Nat) (code src result : Nat) : (postAll s rs code src result).sto = s.sto := (postAll_only s _ _ _ _).sto
@[simp] theorem postAll_ck (s : State) (rs : List Nat) (code src result : Nat) : (postAll s rs code src result).ck = s.ck := (postAll_only s _ _ _ _).ck
@[simp] theorem postAll_stks (s : State) (rs : List Nat) (code src result : Nat) : (postAll s rs code src result).stks = s.stks := (postAll_only s _ _ _ _).stks
@[simp] theorem postAll_memCap (s : State) (rs : List Nat) (code src result : Nat) : (postAll s rs code src result).memCap = s.memCap := (postAll_only s _ _ _ _).memCap
@[simp] theorem postAll_memCeLimit (s : State) (rs : List Nat) (code src result : Nat) : (postAll s rs code src result).memCeLimit = s.memCeLimit := (postAll_only s _ _ _ _).memCeLimit
@[simp] theorem postAll_doms (s : State) (rs : List Nat) (code src result : Nat) : (postAll s rs code src result).doms = s.doms := (postAll_only s _ _ _ _).doms
@[simp] theorem postAll_power (s : State) (rs : List Nat) (code src result : Nat) : (postAll s rs code src result).power = s.power := (postAll_only s _ _ _ _).power
@[simp] theorem postAll_trust (s : State) (rs : List Nat) (code src result : Nat) : (postAll s rs code src result).trust = s.trust := (postAll_only s _ _ _ _).trust
@[simp] theorem postAll_wx (s : State) (rs : List Nat) (code src result : Nat) : (postAll s rs code src result).wx = s.wx := (postAll_only s _ _ _ _).wx
@[simp] theorem postAll_vcycle (s : State) (rs : List Nat) (code src result : Nat) : (postAll s rs code src result).vcycle = s.vcycle := (postAll_only s _ _ _ _).vcycle
@[simp] theorem postAll_freeCtr (s : State) (rs : List Nat) (code src result : Nat) : (postAll s rs code src result).freeCtr = s.freeCtr := (postAll_only s _ _ _ _).freeCtr
@[simp] theorem postAll_pending (s : State) (rs : List Nat) (code src result : Nat) : (postAll s rs code src result).pending = s.pending := (postAll_only s _ _ _ _).pending

@[simp] theorem settleRing_transom (s : State) (r i : Nat) : (settleRing s r i).transom = s.transom := (settleRing_only s _ _).transom
@[simp] theorem settleRing_regs (s : State) (r i : Nat) : (settleRing s r i).regs = s.regs := (settleRing_only s _ _).regs
@[simp] theorem settleRing_clock (s : State) (r i : Nat) : (settleRing s r i).clock = s.clock := (settleRing_only s _ _).clock
@[simp] theorem settleRing_stack (s : State) (r i : Nat) : (settleRing s r i).stack = s.stack := (settleRing_only s _ _).stack
@[simp] theorem settleRing_ports (s : State) (r i : Nat) : (settleRing s r i).ports = s.ports := (settleRing_only s _ _).ports
@[simp] theorem settleRing_fabric (s : State) (r i : Nat) : (settleRing s r i).fabric = s.fabric := (settleRing_only s _ _).fabric
@[simp] theorem settleRing_red (s : State) (r i : Nat) : (settleRing s r i).red = s.red := (settleRing_only s _ _).red
@[simp] theorem settleRing_cores (s : State) (r i : Nat) : (settleRing s r i).cores = s.cores := (settleRing_only s _ _).cores
@[simp] theorem settleRing_fw (s : State) (r i : Nat) : (settleRing s r i).fw = s.fw := (settleRing_only s _ _).fw
@[simp] theorem settleRing_kv (s : State) (r i : Nat) : (settleRing s r i).kv = s.kv := (settleRing_only s _ _).kv
@[simp] theorem settleRing_rdma (s : State) (r i : Nat) : (settleRing s r i).rdma = s.rdma := (settleRing_only s _ _).rdma
@[simp] theorem settleRing_cls (s : State) (r i : Nat) : (settleRing s r i).cls = s.cls := (settleRing_only s _ _).cls
@[simp] theorem settleRing_net (s : State) (r i : Nat) : (settleRing s r i).net = s.net := (settleRing_only s _ _).net
@[simp] theorem settleRing_sealing (s : State) (r i : Nat) : (settleRing s r i).sealing = s.sealing := (settleRing_only s _ _).sealing
@[simp] theorem settleRing_sto (s : State) (r i : Nat) : (settleRing s r i).sto = s.sto := (settleRing_only s _ _).sto
@[simp] theorem settleRing_ck (s : State) (r i : Nat) : (settleRing s r i).ck = s.ck := (settleRing_only s _ _).ck
@[simp] theorem settleRing_stks (s : State) (r i : Nat) : (settleRing s r i).stks = s.stks := (settleRing_only s _ _).stks
@[simp] theorem settleRing_memCap (s : State) (r i : Nat) : (settleRing s r i).memCap = s.memCap := (settleRing_only s _ _).memCap
@[simp] theorem settleRing_memCeLimit (s : State) (r i : Nat) : (settleRing s r i).memCeLimit = s.memCeLimit := (settleRing_only s _ _).memCeLimit
@[simp] theorem settleRing_doms (s : State) (r i : Nat) : (settleRing s r i).doms = s.doms := (settleRing_only s _ _).doms
@[simp] theorem settleRing_power (s : State) (r i : Nat) : (settleRing s r i).power = s.power := (settleRing_only s _ _).power
@[simp] theorem settleRing_trust (s : State) (r i : Nat) : (settleRing s r i).trust = s.trust := (settleRing_only s _ _).trust
@[simp] theorem settleRing_wx (s : State) (r i : Nat) : (settleRing s r i).wx = s.wx := (settleRing_only s _ _).wx
@[simp] theorem settleRing_vcycle (s : State) (r i : Nat) : (settleRing s r i).vcycle = s.vcycle := (settleRing_only s _ _).vcycle
@[simp] theorem settleRing_freeCtr (s : State) (r i : Nat) : (settleRing s r i).freeCtr = s.freeCtr := (settleRing_only s _ _).freeCtr
@[simp] theorem settleRing_pending (s : State) (r i : Nat) : (settleRing s r i).pending = s.pending := (settleRing_only s _ _).pending

@[simp] theorem finish_transom (s : State) (ref : DRef) (a b c : Nat) : (finish s ref a b c).transom = s.transom := (finish_only s _ _ _ _).transom
@[simp] theorem finish_regs (s : State) (ref : DRef) (a b c : Nat) : (finish s ref a b c).regs = s.regs := (finish_only s _ _ _ _).regs
@[simp] theorem finish_clock (s : State) (ref : DRef) (a b c : Nat) : (finish s ref a b c).clock = s.clock := (finish_only s _ _ _ _).clock
@[simp] theorem finish_stack (s : State) (ref : DRef) (a b c : Nat) : (finish s ref a b c).stack = s.stack := (finish_only s _ _ _ _).stack
@[simp] theorem finish_ports (s : State) (ref : DRef) (a b c : Nat) : (finish s ref a b c).ports = s.ports := (finish_only s _ _ _ _).ports
@[simp] theorem finish_fabric (s : State) (ref : DRef) (a b c : Nat) : (finish s ref a b c).fabric = s.fabric := (finish_only s _ _ _ _).fabric
@[simp] theorem finish_red (s : State) (ref : DRef) (a b c : Nat) : (finish s ref a b c).red = s.red := (finish_only s _ _ _ _).red
@[simp] theorem finish_cores (s : State) (ref : DRef) (a b c : Nat) : (finish s ref a b c).cores = s.cores := (finish_only s _ _ _ _).cores
@[simp] theorem finish_fw (s : State) (ref : DRef) (a b c : Nat) : (finish s ref a b c).fw = s.fw := (finish_only s _ _ _ _).fw
@[simp] theorem finish_kv (s : State) (ref : DRef) (a b c : Nat) : (finish s ref a b c).kv = s.kv := (finish_only s _ _ _ _).kv
@[simp] theorem finish_rdma (s : State) (ref : DRef) (a b c : Nat) : (finish s ref a b c).rdma = s.rdma := (finish_only s _ _ _ _).rdma
@[simp] theorem finish_cls (s : State) (ref : DRef) (a b c : Nat) : (finish s ref a b c).cls = s.cls := (finish_only s _ _ _ _).cls
@[simp] theorem finish_net (s : State) (ref : DRef) (a b c : Nat) : (finish s ref a b c).net = s.net := (finish_only s _ _ _ _).net
@[simp] theorem finish_sealing (s : State) (ref : DRef) (a b c : Nat) : (finish s ref a b c).sealing = s.sealing := (finish_only s _ _ _ _).sealing
@[simp] theorem finish_sto (s : State) (ref : DRef) (a b c : Nat) : (finish s ref a b c).sto = s.sto := (finish_only s _ _ _ _).sto
@[simp] theorem finish_ck (s : State) (ref : DRef) (a b c : Nat) : (finish s ref a b c).ck = s.ck := (finish_only s _ _ _ _).ck
@[simp] theorem finish_stks (s : State) (ref : DRef) (a b c : Nat) : (finish s ref a b c).stks = s.stks := (finish_only s _ _ _ _).stks
@[simp] theorem finish_memCap (s : State) (ref : DRef) (a b c : Nat) : (finish s ref a b c).memCap = s.memCap := (finish_only s _ _ _ _).memCap
@[simp] theorem finish_memCeLimit (s : State) (ref : DRef) (a b c : Nat) : (finish s ref a b c).memCeLimit = s.memCeLimit := (finish_only s _ _ _ _).memCeLimit
@[simp] theorem finish_doms (s : State) (ref : DRef) (a b c : Nat) : (finish s ref a b c).doms = s.doms := (finish_only s _ _ _ _).doms
@[simp] theorem finish_power (s : State) (ref : DRef) (a b c : Nat) : (finish s ref a b c).power = s.power := (finish_only s _ _ _ _).power
@[simp] theorem finish_trust (s : State) (ref : DRef) (a b c : Nat) : (finish s ref a b c).trust = s.trust := (finish_only s _ _ _ _).trust
@[simp] theorem finish_wx (s : State) (ref : DRef) (a b c : Nat) : (finish s ref a b c).wx = s.wx := (finish_only s _ _ _ _).wx
@[simp] theorem finish_vcycle (s : State) (ref : DRef) (a b c : Nat) : (finish s ref a b c).vcycle = s.vcycle := (finish_only s _ _ _ _).vcycle
@[simp] theorem finish_freeCtr (s : State) (ref : DRef) (a b c : Nat) : (finish s ref a b c).freeCtr = s.freeCtr := (finish_only s _ _ _ _).freeCtr
@[simp] theorem finish_pending (s : State) (ref : DRef) (a b c : Nat) : (finish s ref a b c).pending = s.pending := (finish_only s _ _ _ _).pending

/-! ### A command on its descriptor -/

/-- Where a descriptor of the command's kind and opcode may start, the command runs on it. -/
theorem onDesc_starts {s : State} {r i kind op : Nat} {e : Fetched} (h : Starts s r i kind op e) (eff : Nat → DRef → State → CmdRes) :
    onDesc s r i kind op eff = answered (eff e.desc.toNat (refOf r i e) (begun s r i e)) (refOf r i e) := by
  obtain ⟨h1, h2, h3⟩ := h
  simp only [onDesc, h1, h2, h3, and_self, if_true]
  rfl

@[simp] theorem answered_ok0 (s : State) (ref : DRef) : answered (ok0 s) ref = finish s ref 0 0 0 := rfl
@[simp] theorem answered_okR (s : State) (ref : DRef) (n : Nat) : answered (okR s n) ref = finish s ref 0 n 0 := rfl
@[simp] theorem answered_bad (s : State) (ref : DRef) (n : Nat) : answered (bad s n) ref = finish s ref n 0 0 := rfl
@[simp] theorem answered_badR (s : State) (ref : DRef) (n m : Nat) : answered (badR s n m) ref = finish s ref n m 0 := rfl
@[simp] theorem answered_later (s : State) (ref : DRef) : answered (later s) ref = s := rfl

/-- What may start is fetched, has not started, has no outcome and is of the running incarnation, which is ACTIVE; its ring
pair is ENABLED or DRAINING and its completion queue has room. -/
theorem startable_spec {s : State} {r i : Nat} {e : Fetched} (h : startable s r i = some e) :
    e ∈ (s.ring r i).fetched ∧ e.started = false ∧ e.res = none ∧ e.gen = (s.fn r).gen ∧ (s.fn r).st = .active
      ∧ ((s.ring r i).st = .enabled ∨ (s.ring r i).st = .draining) ∧ cqRoom (s.ring r i) = true := by
  simp only [startable] at h
  split at h
  · rename_i h0
    simp only [Bool.and_eq_true, Bool.or_eq_true, beq_iff_eq] at h0
    split at h
    · cases h
    · rename_i e' he'
      have hm := List.mem_of_find?_eq_some he'
      have hp := List.find?_some he'
      simp only [Bool.and_eq_true, Bool.not_eq_true', Option.isNone_iff_eq_none, beq_iff_eq] at hp
      split at h
      · cases h
      · cases h
        exact ⟨hm, hp.1.1, hp.1.2, hp.2, h0.1.2, h0.1.1, h0.2⟩
  · cases h

/-- A command's ring pair is in use: it is not the default one. -/
theorem begun_ring_ne {s : State} {r i : Nat} {e : Fetched} (h : startable s r i = some e) (g : Ring → Ring)
    (hg : (g (s.ring r i)).fetched = (s.ring r i).fetched.map (fun e' => if e'.seq = e.seq then { e' with started := true } else e')) :
    g (s.ring r i) ≠ {} := by
  intro h0
  have hm := (startable_spec h).1
  rw [h0] at hg
  have : (s.ring r i).fetched = [] := by
    have := hg.symm
    simpa using this
  rw [this] at hm
  cases hm

theorem mset_ne_nil {V : Type} [DecidableEq V] (m : NMap V) (k : Nat) {v d : V} (h : v ≠ d) : mset m k v d ≠ [] := by
  cases m with
  | nil => simp [mset, h]
  | cons p r =>
    obtain ⟨a, b⟩ := p
    simp only [mset]
    split
    · simp [h]
    · split
      · simp [h]
      · simp

/-- The function of a started descriptor: its ring pair alone has changed. -/
theorem begun_fn {s : State} {r i : Nat} {e : Fetched} (h : startable s r i = some e) :
    ∃ rings, (begun s r i e).fn r = { s.fn r with rings := rings } := by
  refine ⟨mset (s.fn r).rings i { s.ring r i with fetched := (s.ring r i).fetched.map (fun e' => if e'.seq = e.seq then { e' with started := true } else e') } {}, ?_⟩
  unfold begun State.modRing
  refine fn_modFn_self s r _ ?_
  intro h0
  have h1 : mset (s.fn r).rings i { s.ring r i with fetched := (s.ring r i).fetched.map (fun e' => if e'.seq = e.seq then { e' with started := true } else e') } {} = [] :=
    congrArg Fn.rings h0
  exact mset_ne_nil _ _ (begun_ring_ne h (fun q => { q with fetched := q.fetched.map (fun e' => if e'.seq = e.seq then { e' with started := true } else e') }) rfl) h1

theorem begun_fn_ne (s : State) {r r' i : Nat} (e : Fetched) (h : r' ≠ r) : (begun s r i e).fn r' = s.fn r' :=
  fn_modFn_ne s _ h

/-- A started descriptor leaves a function's other fields as they were. -/
theorem begun_fn_field {A : Type} {s : State} {r i : Nat} {e : Fetched} (h : startable s r i = some e) (p : Fn → A)
    (hp : ∀ f rings, p { f with rings := rings } = p f) (r' : Nat) : p ((begun s r i e).fn r') = p (s.fn r') := by
  by_cases hr : r' = r
  · subst hr
    obtain ⟨rings, hx⟩ := begun_fn h
    rw [hx]; exact hp _ _
  · rw [begun_fn_ne s e hr]

theorem begun_gen {s : State} {r i : Nat} {e : Fetched} (h : startable s r i = some e) (r' : Nat) :
    ((begun s r i e).fn r').gen = (s.fn r').gen := begun_fn_field h Fn.gen (fun _ _ => rfl) r'

theorem begun_st {s : State} {r i : Nat} {e : Fetched} (h : startable s r i = some e) (r' : Nat) :
    ((begun s r i e).fn r').st = (s.fn r').st := begun_fn_field h Fn.st (fun _ _ => rfl) r'

theorem begun_ownOf {s : State} {r i : Nat} {e : Fetched} (h : startable s r i = some e) (r' : Nat) :
    (begun s r i e).ownOf r' = s.ownOf r' := by
  simp only [State.ownOf, begun_gen h]

theorem begun_owns {s : State} {r i : Nat} {e : Fetched} (h : startable s r i = some e) (r' : Nat) (o : Own) :
    owns (begun s r i e) r' o = owns s r' o := by
  simp only [owns, begun_ownOf h]

theorem begun_rdHost {s : State} {r i : Nat} {e : Fetched} (h : startable s r i = some e) (r' n : Nat) (read : HRead) :
    rdHost (begun s r i e) r' n read = rdHost s r' n read := by
  unfold rdHost dmaOn; rw [begun_st h]

theorem begun_qpFor {s : State} {r i : Nat} {e : Fetched} (h : startable s r i = some e) (n : Nat) :
    qpFor (begun s r i e) r i n = qpFor s r i n := by
  simp only [qpFor, begun_owns h]; rfl

/-- A command on a rule set that exists and belongs to the function (R377, R383). -/
theorem begun_withSet {s : State} {r i : Nat} {e : Fetched} (h : startable s r i = some e) {d : Nat} {x : RuleSet}
    (h1 : oget s.cls.sets (fld d 64 6) = some x) (h2 : owns s r x.own = true) (f : Nat → RuleSet → CmdRes) :
    withSet (begun s r i e) r d f = f (fld d 64 6) x := by
  have h3 : oget (begun s r i e).cls.sets (fld d 64 6) = some x := h1
  simp only [withSet, h3, begun_owns h, h2, if_true]

/-- A command on a key slot of the function, of a kind and in the state that it asks for (R416 to R418, R434). -/
theorem begun_withSlot {s : State} {r i : Nat} {e : Fetched} (h : startable s r i = some e) {n : Nat} {k : KeySlot} {kinds : List Nat} {st : KeySt}
    (h1 : s.slot n = some k) (h2 : owns s r k.own = true) (h3 : kinds.contains k.kind = true) (h4 : k.st = st) (f : KeySlot → CmdRes) :
    withSlot (begun s r i e) r n kinds st f = f k := by
  have h5 : (begun s r i e).slot n = some k := h1
  simp only [withSlot, h5, begun_owns h, h2, h3, h4, Bool.not_true, Bool.false_eq_true, if_false, ne_eq, not_true_eq_false]

/-- With no such slot of the function, the status is 0x02. -/
theorem begun_withSlot_none {s : State} {r i : Nat} {e : Fetched} (h : startable s r i = some e) {n : Nat} {kinds : List Nat} {st : KeySt}
    (h1 : (s.slot n).all (fun k => !owns s r k.own) = true) (f : KeySlot → CmdRes) :
    withSlot (begun s r i e) r n kinds st f = bad (begun s r i e) 0x02 := by
  have h5 : (begun s r i e).slot n = s.slot n := rfl
  unfold withSlot
  rw [h5]
  cases hk : s.slot n with
  | none => rfl
  | some k =>
    rw [hk] at h1
    simp only [begun_owns h]
    have : (!owns s r k.own) = true := by simpa using h1
    simp [this]

theorem rotPick_nil (n p : Nat) : rotPick n p [] = none := by simp [rotPick]

/-- A controller takes up its head command (R440, R442). -/
theorem onNvm_starts {s : State} {r q op c : Nat} {m m1 : NvmCmd} {u : State} (h : NvmStarts s r q op c m m1 u)
    (eff : Nat → NvmCmd → State → State) : onNvm s r q op eff = eff c m1 u := by
  obtain ⟨h1, ⟨h2, h3⟩, h4, ⟨h5, h6⟩, h7, h8⟩ := h
  have h9 : (q != 0 && (s.ctl c).tile.isNone) = false := by
    rcases h4 with h4 | h4
    · simp [h4]
    · have : (s.ctl c).tile.isNone = false := by cases hx : (s.ctl c).tile <;> simp_all
      simp [this]
  subst h8 h7
  simp only [onNvm, h1, h2, h3, h9, h5, h6, Bool.not_true, Bool.false_or, bne_self_eq_false, Bool.false_eq_true, if_false, ne_eq, not_true_eq_false]

/-! ### Registers of a port -/

/-- The PF1 that owns a port writes its registers where the transom reaches its tile (R105, R538). -/
theorem portReg_owned {s : State} {r p : Nat} {act : State → State} (h2 : (isPf1 r && present s r) = true) (h3 : p < 8)
    (h4 : ownerOf s p = r) (h5 : reachable s (aptTile p) = true) : portReg s r p act = act s := by
  have h8 : ¬ 8 ≤ p := by omega
  simp [portReg, h2, h8, h4, h5]

/-! ### Life cycle -/

/-- A running function that no controller serves and no freeze waits for is shut down (R477, R478). -/
theorem shutDown_runs {s : State} {r : Nat} (h1 : (s.fn r).st = .active ∨ (s.fn r).st = .frozen ∨ (s.fn r).st = .saved)
    (h2 : (s.fn r).freeze = none) (h3 : ctrlOf r = none) (cause : Nat) (reads : Bool) :
    shutDown s r cause reads =
      (let t := if isLoss r cause then loseDriver (stopping s r cause) r cause else releaseAll (stopping s r cause) r
       if reads then t else drained t r) := by
  simp only [shutDown, h1, h2, h3, if_true]; rfl

/-- The NVMe controllers serve PF2 and its virtual functions alone. -/
theorem ctrlOf_none {r : Nat} (h1 : isPf2 r = false) (h2 : isVf2 r = false) : ctrlOf r = none := by
  have h3 : r ≠ 6 ∧ r ≠ 7 := by constructor <;> (rintro rfl; simp [isPf2] at h1)
  simp [ctrlOf, h3.1, h3.2, h2]

/-- A function of state CLEAN that no controller serves starts its next incarnation (Table 14-4). -/
theorem startFn_plain {s : State} {r : Nat} (h : ctrlOf r = none) :
    startFn s r = s.modFn r (fun f => { f with st := .active, gen := nextGen f.gen, rearm := false }) := by
  simp only [startFn, h]

/-- A command on a VF that its PF provides, in a state that the command asks for (R492). -/
theorem begun_withVf {s : State} {r i : Nat} {e : Fetched} (h : startable s r i = some e) {d : Nat} {sts : List FnSt}
    (h1 : vfNo (vfFld r d) < (s.fn (pfOf (vfFld r d))).numVfs) (h2 : (s.fn (pfOf (vfFld r d))).vfEnable = true)
    (h3 : sts.contains (s.fn (vfFld r d)).st = true) (act : Nat → State → CmdRes) :
    withVf r d sts act (begun s r i e) = act (vfFld r d) (begun s r i e) := by
  have a1 := begun_fn_field h Fn.numVfs (fun _ _ => rfl) (pfOf (vfFld r d))
  have a2 := begun_fn_field h Fn.vfEnable (fun _ _ => rfl) (pfOf (vfFld r d))
  have a3 : ¬ ((s.fn (pfOf (vfFld r d))).numVfs ≤ vfNo (vfFld r d) ∨ true = false) := by simp; omega
  simp only [withVf, a1, a2, h2, a3, begun_st h, h3, Bool.not_true, Bool.false_eq_true, if_false]

/-- A VF that its PF does not provide (0x80), or one in another state (0x81). -/
theorem begun_withVf_bad {s : State} {r i : Nat} {e : Fetched} (h : startable s r i = some e) {d : Nat} {sts : List FnSt}
    (act : Nat → State → CmdRes) :
    ((s.fn (pfOf (vfFld r d))).numVfs ≤ vfNo (vfFld r d) ∨ (s.fn (pfOf (vfFld r d))).vfEnable = false →
      withVf r d sts act (begun s r i e) = bad (begun s r i e) 0x80)
    ∧ (vfNo (vfFld r d) < (s.fn (pfOf (vfFld r d))).numVfs → (s.fn (pfOf (vfFld r d))).vfEnable = true →
      sts.contains (s.fn (vfFld r d)).st = false → withVf r d sts act (begun s r i e) = bad (begun s r i e) 0x81) := by
  have a1 := begun_fn_field h Fn.numVfs (fun _ _ => rfl) (pfOf (vfFld r d))
  have a2 := begun_fn_field h Fn.vfEnable (fun _ _ => rfl) (pfOf (vfFld r d))
  refine ⟨fun h1 => ?_, fun h1 h2 h3 => ?_⟩
  · simp only [withVf, a1, a2, h1, if_true]
  · have a3 : ¬ ((s.fn (pfOf (vfFld r d))).numVfs ≤ vfNo (vfFld r d) ∨ true = false) := by simp; omega
    simp only [withVf, a1, a2, h2, a3, begun_st h, h3, Bool.not_false, if_false, if_true]

end Sys2Proof.Machine
end

