-- ==== Sys2Proof/Laws/Pynex.lean ====
section
/-!
SUPPORT. The shell of every instruction: what it does with the body of an instruction that executes.
-/
set_option Elab.async false
namespace Sys2Proof.Machine

/-- The body of an instruction that executes decides what follows. -/
theorem runPy_executes {s : State} {core op lo : Nat} (h : Executes s core op lo) (body : Core → PRes) :
    runPy op core lo s body = match body (s.core core) with
      | .go s' n => s'.modCore core (fun c => addCyc { c with pc := (c.pc + 4) % 2 ^ 64 } n)
      | .jump s' pc n => s'.modCore core (fun c => addCyc { c with pc := pc % 2 ^ 64 } n)
      | .exc code addr => raiseExc s core code addr
      | .stay s' => s' := by
  obtain ⟨h1, h2, h3, h4⟩ := h
  simp only [runPy, h1, h2, h3, h4, Bool.not_true, bne_self_eq_false, Bool.false_and, Bool.or_self, Bool.false_eq_true, if_false, ne_eq, not_true_eq_false, beq_iff_eq]
  all_goals (cases body (s.core core) <;> rfl)

/-- A word is its opcode and its low bits. -/
theorem wordOf_eq {op lo : Nat} (h : fld lo 26 6 = op) (hl : lo < 2 ^ 32) : wordOf op lo = lo := by
  subst h
  unfold wordOf fld
  omega

end Sys2Proof.Machine
end

