-- ==== Sys2Proof/Laws/Rings.lean ====
section
/-!
SUPPORT. Commands that end before descriptors ahead of them, and commands on shared objects that run in rank order.
-/
set_option Elab.async false
namespace Sys2Proof.Machine

/-- A command that no higher-ranked function contradicts runs. -/
theorem inRankOrder_first {s : State} {r i : Nat} (h : outranked s r i = false) (act : State → State) : inRankOrder r i act s = act s := by
  simp only [inRankOrder, h, Bool.false_eq_true, if_false]

/-- A command for a rule set runs when no lower ring pair holds one for the same set. -/
theorem inSetOrder_first {s : State} {r i : Nat} (h : behindRing s r i = false) (act : State → State) : inSetOrder r i act s = act s := by
  simp only [inSetOrder, h, Bool.false_eq_true, if_false]

/-- A command for a rule set waits behind one of a lower ring pair for the same set. -/
theorem inSetOrder_behind {s : State} {r i : Nat} (h : behindRing s r i = true) (act : State → State) : inSetOrder r i act s = s := by
  simp only [inSetOrder, h, if_true]

/-- A command under a key slot runs when the slot's tile takes work. -/
theorem onSeal_runs {s : State} {r i op at_ : Nat} {e : Fetched} (hs : Starts s r i 0x23 op e) (h : sealWaits s r i (fld e.desc.toNat at_ 18) = false)
    (act : State → State) : onSeal r i op at_ act s = act s := by
  simp only [onSeal, hs.1, h, Bool.and_false, Bool.false_eq_true, if_false]

/-- A command under a key slot waits while the slot's tile takes no work. -/
theorem onSeal_waits {s : State} {r i op at_ : Nat} {e : Fetched} (hs : Starts s r i 0x23 op e) (h : sealWaits s r i (fld e.desc.toNat at_ 18) = true)
    (act : State → State) : onSeal r i op at_ act s = s := by
  obtain ⟨h1, h2, h3⟩ := hs
  simp only [onSeal, h1, h2, h3, h, beq_self_eq_true, Bool.and_self, if_true]

/-- A command that ends when it is fetched runs on the descriptor that waits first for it. -/
theorem onFetched_picks {s : State} {r i kind op : Nat} {e : Fetched} (h : Picks s r i kind op e) (eff : Nat → DRef → State → CmdRes) :
    onFetched s r i kind op eff = answered (eff e.desc.toNat (refOf r i e) (begun s r i e)) (refOf r i e) := by
  obtain ⟨h1, h2, h3, h4⟩ := h
  simp only [onFetched, h1, h2, and_self, if_true, h3, h4, Bool.false_eq_true, if_false]
  rfl

end Sys2Proof.Machine
end

