-- ==== Sys2Proof/Laws/Steps.lean ====
section
/-!
SUPPORT. A step that a core has posted is taken up by its die's front end.
-/
set_option Elab.async false
namespace Sys2Proof.Machine

/-- The front end carries out the oldest step when the core and the opcode are the command's. -/
theorem frontEnd_posts {s : State} {core op : Nat} {w : BitVec 512} (act : Nat → State → State) (h : Posts s core w)
    (ho : fld w.toNat 0 8 = op) (h1 : 1 ≤ op ∧ op ≤ 4) : frontEnd s core op act = act w.toNat (takeStep s core) := by
  have : ¬ (op < 1 ∨ 4 < op) := by omega
  simp only [frontEnd, show frontStep s core = some (core, w) from h, ho, this]
  simp

@[simp] theorem takeStep_ctxs (s : State) (core : Nat) : (takeStep s core).red.ctxs = s.red.ctxs := rfl
@[simp] theorem takeStep_claims (s : State) (core : Nat) : (takeStep s core).red.claims = s.red.claims := rfl
@[simp] theorem takeStep_fits (s : State) (core d : Nat) : claimFits (takeStep s core) d = claimFits s d := rfl
@[simp] theorem takeStep_stepCtx (s : State) (core d : Nat) : stepCtx (takeStep s core) d = stepCtx s d := rfl

end Sys2Proof.Machine
end

