-- ==== Sys2Proof/Laws/Taps.lean ====
section
/-!
SUPPORT. What a tap and the weather feed do, said once: they touch the functions, host links, outputs, the feed and the
management sessions alone, so traffic passes a tap unchanged.
-/
set_option Elab.async false
namespace Sys2Proof.Machine

/-- Two states differ in functions, host links, outputs, the feed and trust alone. -/
def TapOnly (s t : State) : Prop := t = { s with fns := t.fns, links := t.links, out := t.out, wx := t.wx, trust := t.trust }

theorem TapOnly.refl (s : State) : TapOnly s s := rfl
theorem TapOnly.trans {s t u : State} (h1 : TapOnly s t) (h2 : TapOnly t u) : TapOnly s u := by
  unfold TapOnly at *; rw [h2, h1]
theorem TapOnly.foldl {A : Type} (f : State → A → State) (h : ∀ s a, TapOnly s (f s a)) : ∀ (l : List A) (s : State), TapOnly s (l.foldl f s)
  | [], s => TapOnly.refl s
  | a :: l, s => (h s a).trans (TapOnly.foldl f h l (f s a))
theorem FnsOnly.tap {s t : State} (h : FnsOnly s t) : TapOnly s t := by
  unfold FnsOnly TapOnly at *; rw [h]
theorem TapOnly.ite {c : Prop} [Decidable c] {s a b : State} (h1 : TapOnly s a) (h2 : TapOnly s b) : TapOnly s (if c then a else b) := by
  split <;> assumption

theorem modWx_tap (s : State) (f : Weather → Weather) : TapOnly s (s.modWx f) := rfl
theorem modPath_tap (s : State) (k : Nat) (f : FeedPath → FeedPath) : TapOnly s (s.modPath k f) := rfl
theorem modCv_tap (s : State) (n : Nat) (f : CvUnit → CvUnit) : TapOnly s (s.modCv n f) := rfl
theorem modMon_tap (s : State) (n : Nat) (f : AliveMon → AliveMon) : TapOnly s (s.modMon n f) := rfl
theorem modSession_tap (s : State) (n : Nat) (f : Session → Session) : TapOnly s (s.modSession n f) := rfl
theorem postEvent_tap (s : State) (r code src result : Nat) : TapOnly s (postEvent s r code src result) := (postEvent_only s r code src result).tap

theorem endBuf_tap (s : State) (r : Nat) (b : FeedBuf) : TapOnly s (endBuf s r b) := (modPath_tap s _ _).trans (finish_only _ _ _ _ _).tap
theorem queueLost_tap (s : State) (k : Nat) : TapOnly s (queueLost s k) := by
  simp only [queueLost]; exact TapOnly.ite (TapOnly.refl s) (modPath_tap s _ _)

theorem pumpFeed_tap : ∀ (n : Nat) (s : State) (r : Nat), TapOnly s (pumpFeed n s r)
  | 0, s, _ => TapOnly.refl s
  | n + 1, s, r => by
    simp only [pumpFeed]
    split
    · exact TapOnly.refl s
    · split
      · exact (((hostWrite_only s _ _ _).tap.trans (modPath_tap _ _ _)).trans (queueLost_tap _ _)).trans
          ((TapOnly.ite (endBuf_tap _ _ _) (TapOnly.refl _)).trans (pumpFeed_tap n _ r))
      · exact TapOnly.refl s

theorem dropRecord_tap (s : State) (k : Nat) : TapOnly s (dropRecord s k) := modPath_tap s _ _
theorem queueRecord_tap (s : State) (k type source payload : Nat) : TapOnly s (queueRecord s k type source payload) := by
  simp only [queueRecord]
  exact (queueLost_tap s k).trans (TapOnly.ite (dropRecord_tap _ _) ((modPath_tap _ _ _).trans (pumpFeed_tap _ _ _)))

theorem sendOne_tap (s : State) (n type : Nat) (body : List Byte) : TapOnly s (sendOne s n type body) := by
  simp only [sendOne, sendClear]
  split
  · exact TapOnly.refl s
  · exact TapOnly.ite ((modSession_tap s _ _).trans (emit_only _ _).tap) ((modSession_tap s _ _).trans (emit_only _ _).tap)

theorem toPath_tap (s : State) (k type source payload : Nat) : TapOnly s (toPath s k type source payload) := by
  simp only [toPath]
  exact TapOnly.ite ((modPath_tap s _ _).trans (sendOne_tap _ _ _ _)) (TapOnly.ite (dropRecord_tap s k) (queueRecord_tap s _ _ _ _))

theorem feedPut_tap (s : State) (type source payload : Nat) : TapOnly s (feedPut s type source payload) :=
  TapOnly.foldl _ (fun s _ => TapOnly.ite (toPath_tap s _ _ _ _) (TapOnly.refl s)) _ s

theorem cvEnd_tap (n : Nat) (s : State) : TapOnly s (cvEnd n s) := by
  have h : ∀ (c : Prop) [Decidable c] (f : CvUnit → CvUnit) (v e : Nat) (m : Bool),
      TapOnly s (checkRecord (if c then postEvent (s.modCv n f) (cvOwner n) 0x4301 n v else s.modCv n f) n v e m false) := fun c _ f v e m =>
    ((modCv_tap s n f).trans (TapOnly.ite (postEvent_tap _ _ _ _ _) (TapOnly.refl _))).trans (feedPut_tap _ _ _ _)
  simp only [cvEnd]
  exact TapOnly.ite (TapOnly.refl s) (h _ _ _ _ _)

theorem amReport_tap (s : State) (k kind v last : Nat) : TapOnly s (amReport s k kind v last) := by
  simp only [amReport]
  have h := (modMon_tap s k (fun m =>
    if kind = 1 then { m with repeats := satAdd 24 m.repeats 1 } else if kind = 2 then { m with skips := satAdd 24 m.skips 1 }
    else { m with unreadable := satAdd 16 m.unreadable 1 })).trans (feedPut_tap _ 0x13 k (kind + v % 2 ^ 64 * 2 ^ 64 + last % 2 ^ 64 * 2 ^ 128))
  split
  · split
    · exact h.trans ((modMon_tap _ _ _).trans (postEvent_tap _ _ _ _ _))
    · exact h
  · split
    · exact h.trans ((modMon_tap _ _ _).trans (postEvent_tap _ _ _ _ _))
    · exact h

theorem amTake_tap (k : Nat) (v : Option Nat) (quiet : Bool) (s : State) : TapOnly s (amTake k v quiet s) := by
  simp only [amTake]
  split
  · exact amReport_tap s _ _ _ _
  · exact TapOnly.ite (modMon_tap s _ _) (TapOnly.ite (modMon_tap s _ _) ((modMon_tap s _ _).trans (amReport_tap _ _ _ _ _)))

theorem cvTake_tap (n : Nat) (x : Seen) (bs : List Byte) (s : State) : TapOnly s (cvTake n x bs s) := by
  simp only [cvTake]
  refine (cvEnd_tap n s).trans (TapOnly.ite (TapOnly.refl _) (TapOnly.ite (modCv_tap _ _ _) ((modCv_tap _ _ _).trans (TapOnly.foldl _ (fun s _ => ?_) _ _))))
  exact TapOnly.ite (amTake_tap _ _ _ s) (TapOnly.refl s)

/-- Traffic passes a tap unchanged. -/
theorem tapUnit_tap (s : State) (x : Seen) (bs : List Byte) : TapOnly s (tapUnit s x bs) :=
  TapOnly.foldl _ (fun s _ => TapOnly.ite (cvTake_tap _ _ _ s) (TapOnly.refl s)) _ s

theorem apRx_tap (s : State) (p : Nat) (t : Txn) : TapOnly s (apRx s p t) := by
  simp only [apRx]
  exact TapOnly.ite (TapOnly.refl s) ((modWx_tap s _).trans (tapUnit_tap _ _ _))

theorem apTx_tap (s : State) (p : Nat) (e : Egress) : TapOnly s (apTx s p e) := by
  simp only [apTx]
  refine TapOnly.ite (TapOnly.refl s) ?_
  have h := (modWx_tap s _).trans (tapUnit_tap (addTotal s 3 p 1 e.txn.data.length) { tap := 2, sel := p, vc := e.cls } e.txn.data)
  split
  · exact TapOnly.ite (h.trans (tapUnit_tap _ _ _)) h
  · exact h

theorem TapOnly.ports {s t : State} (h : TapOnly s t) : t.ports = s.ports := by rw [h]
theorem TapOnly.fabric {s t : State} (h : TapOnly s t) : t.fabric = s.fabric := by rw [h]
theorem TapOnly.doms {s t : State} (h : TapOnly s t) : t.doms = s.doms := by rw [h]
theorem TapOnly.clock {s t : State} (h : TapOnly s t) : t.clock = s.clock ∧ t.vcycle = s.vcycle := by rw [h]; exact ⟨rfl, rfl⟩
@[simp] theorem apRx_port (s : State) (p q : Nat) (t : Txn) : (apRx s p t).port q = s.port q := by simp only [State.port, (apRx_tap s p t).ports]
@[simp] theorem apTx_port (s : State) (p q : Nat) (e : Egress) : (apTx s p e).port q = s.port q := by simp only [State.port, (apTx_tap s p e).ports]
@[simp] theorem apRx_fabric (s : State) (p : Nat) (t : Txn) : (apRx s p t).fabric = s.fabric := (apRx_tap s p t).fabric

/-- A field that an update of a port leaves alone reads as before, at every port. -/
theorem port_modPort_keep {A : Type} (g : APort → A) (s : State) (p : Nat) (f : APort → APort) (hf : ∀ a, g (f a) = g a) (hd : f (s.port p) ≠ {}) (q : Nat) :
    g ((s.modPort p f).port q) = g (s.port q) := by
  by_cases h : q = p
  · subst h
    have : (s.modPort q f).port q = f (s.port q) := mget_mset_self _ _ hd
    rw [this, hf]
  · have : (s.modPort p f).port q = s.port q := mget_mset_ne _ _ _ h
    rw [this]

end Sys2Proof.Machine
end

