-- ==== Sys2Proof/Laws/Xts.lean ====
section
/-!
SUPPORT. XTS undoes itself (R424): AES-256 decryption takes back an encrypted block, and so each data unit.
-/
set_option Elab.async false
namespace Sys2Proof.Machine

/-- Sixteen bytes. -/
abbrev Block16 (b : List Nat) : Prop := b.length = 16 ∧ ∀ x ∈ b, x < 256

theorem nxor_eq (a b : Nat) : a ^^^ b = Nat.xor a b := rfl
theorem nxor_lt {a b : Nat} (ha : a < 256) (hb : b < 256) : Nat.xor a b < 256 := Nat.xor_lt_two_pow (n := 8) ha hb

theorem nxor_cancel (a b : Nat) : Nat.xor (Nat.xor a b) b = a := by
  show (a ^^^ b) ^^^ b = a
  rw [Nat.xor_assoc, Nat.xor_self, Nat.xor_zero]

theorem nxor_zero (a : Nat) : Nat.xor a 0 = a := Nat.xor_zero a
theorem zero_nxor (a : Nat) : Nat.xor 0 a = a := Nat.zero_xor a

theorem nxor_swap (a b c d : Nat) : Nat.xor (Nat.xor a b) (Nat.xor c d) = Nat.xor (Nat.xor a c) (Nat.xor b d) := by
  show (a ^^^ b) ^^^ (c ^^^ d) = (a ^^^ c) ^^^ (b ^^^ d)
  ac_rfl

theorem xorL_cancel : ∀ {a b : List Nat}, a.length = b.length → xorL (xorL a b) b = a
  | [], [], _ => rfl
  | x :: a, y :: b, h => by
    have := xorL_cancel (a := a) (b := b) (by simpa using h)
    simp only [xorL, List.zip_cons_cons, List.map_cons, nxor_cancel] at this ⊢
    rw [this]

theorem xorL_bytes : ∀ {a b : List Nat}, (∀ x ∈ a, x < 256) → (∀ x ∈ b, x < 256) → ∀ x ∈ xorL a b, x < 256
  | [], _, _, _, x, h => by simp [xorL] at h
  | _ :: _, [], _, _, x, h => by simp [xorL] at h
  | p :: a, q :: b, h1, h2, x, h => by
    simp only [xorL, List.zip_cons_cons, List.map_cons, List.mem_cons] at h
    rcases h with rfl | h
    · exact nxor_lt (h1 p (by simp)) (h2 q (by simp))
    · exact xorL_bytes (a := a) (b := b) (fun x hx => h1 x (by simp [hx])) (fun x hx => h2 x (by simp [hx])) x h

theorem xorL_block {a b : List Nat} (ha : Block16 a) (hb : Block16 b) : Block16 (xorL a b) :=
  ⟨by simp [xorL, ha.1, hb.1], xorL_bytes ha.2 hb.2⟩

/-! Bytes of GF(2^8) -/

theorem xtime_eq {x : Nat} (h : x < 256) : xtime x = Nat.xor (2 * x) (x / 128 * 283) := by
  have : ∀ x : Fin 256, xtime x.val = Nat.xor (2 * x.val) (x.val / 128 * 283) := by decide +kernel
  exact this ⟨x, h⟩
theorem xtime_lt {x : Nat} (h : x < 256) : xtime x < 256 := by
  have : ∀ x : Fin 256, xtime x.val < 256 := by decide +kernel
  exact this ⟨x, h⟩

theorem xtime_xor {a b : Nat} (ha : a < 256) (hb : b < 256) : xtime (Nat.xor a b) = Nat.xor (xtime a) (xtime b) := by
  rw [xtime_eq ha, xtime_eq hb, xtime_eq (nxor_lt ha hb), nxor_swap]
  have h1 : 2 * Nat.xor a b = Nat.xor (2 * a) (2 * b) := by
    show 2 * (a ^^^ b) = (2 * a) ^^^ (2 * b)
    have := Nat.shiftLeft_xor_distrib (a := a) (b := b) (i := 1)
    simpa [Nat.shiftLeft_eq, Nat.mul_comm] using this
  have h2 : Nat.xor a b / 128 = Nat.xor (a / 128) (b / 128) := by
    show (a ^^^ b) / 128 = (a / 128) ^^^ (b / 128)
    have := Nat.shiftRight_xor_distrib (a := a) (b := b) (i := 7)
    simpa [Nat.shiftRight_eq_div_pow] using this
  rw [h1, h2]
  congr 1
  have hc : a / 128 < 2 := by omega
  have hd : b / 128 < 2 := by omega
  have : ∀ c d : Fin 2, Nat.xor c.val d.val * 283 = Nat.xor (c.val * 283) (d.val * 283) := by decide
  exact this ⟨_, hc⟩ ⟨_, hd⟩

/-- A step of the product by a fixed second factor. -/
def gstep (b : Nat) (p : Nat × Nat) (i : Nat) : Nat × Nat := (if bitAt b i then Nat.xor p.1 p.2 else p.1, xtime p.2)

theorem gmul_eq (a b : Nat) : gmul a b = ((List.range 8).foldl (gstep b) (0, a)).1 := rfl

theorem gfold_xor (b : Nat) : ∀ (l : List Nat) (p q : Nat × Nat), p.1 < 256 → p.2 < 256 → q.1 < 256 → q.2 < 256 →
    (l.foldl (gstep b) (Nat.xor p.1 q.1, Nat.xor p.2 q.2)).1 = Nat.xor (l.foldl (gstep b) p).1 (l.foldl (gstep b) q).1
    ∧ (l.foldl (gstep b) p).1 < 256
  | [], _, _, h, _, _, _ => ⟨rfl, h⟩
  | i :: l, p, q, h1, h2, h3, h4 => by
    have e : gstep b (Nat.xor p.1 q.1, Nat.xor p.2 q.2) i
        = (Nat.xor (gstep b p i).1 (gstep b q i).1, Nat.xor (gstep b p i).2 (gstep b q i).2) := by
      simp only [gstep, xtime_xor h2 h4]
      split
      · rw [nxor_swap]
      · rfl
    have b1 : (gstep b p i).1 < 256 := by simp only [gstep]; split <;> [exact nxor_lt h1 h2; exact h1]
    have b2 : (gstep b q i).1 < 256 := by simp only [gstep]; split <;> [exact nxor_lt h3 h4; exact h3]
    have := gfold_xor b l (gstep b p i) (gstep b q i) b1 (xtime_lt h2) b2 (xtime_lt h4)
    simpa only [List.foldl_cons, e] using this

theorem gmul_xor {x y : Nat} (b : Nat) (hx : x < 256) (hy : y < 256) : gmul (Nat.xor x y) b = Nat.xor (gmul x b) (gmul y b) := by
  have := (gfold_xor b (List.range 8) (0, x) (0, y) (Nat.zero_lt_succ 255) hx (Nat.zero_lt_succ 255) hy).1
  rw [show Nat.xor (0, x).1 (0, y).1 = 0 from Nat.xor_self 0] at this
  exact this
theorem gmul_lt {x : Nat} (b : Nat) (hx : x < 256) : gmul x b < 256 :=
  (gfold_xor b (List.range 8) (0, x) (0, x) (Nat.zero_lt_succ 255) hx (Nat.zero_lt_succ 255) hx).2

theorem sboxTable_length : sboxTable.length = 256 := by simp [sboxTable]
theorem sboxTable_bytes : ∀ x ∈ sboxTable, x < 256 := by decide +kernel
theorem sboxTable_nodup : sboxTable.Nodup := by decide +kernel

theorem sbox_lt (x : Nat) : sbox x < 256 := by
  unfold sbox lget
  cases h : sboxTable[x]? with
  | none => decide
  | some v => exact sboxTable_bytes v (List.mem_of_getElem? h)

theorem invSbox_sbox {x : Nat} (h : x < 256) : invSbox (sbox x) = x := by
  have h2 : x < sboxTable.length := by rw [sboxTable_length]; exact h
  unfold invSbox sbox lget
  rw [List.getElem?_eq_getElem h2, Option.getD_some, sboxTable_nodup.idxOf_getElem x h2]
  exact Nat.mod_eq_of_lt h

theorem unsub {b : List Nat} (h : ∀ x ∈ b, x < 256) : (b.map sbox).map invSbox = b := by
  rw [List.map_map]
  exact (List.map_congr_left (fun x hx => invSbox_sbox (h x hx))).trans (List.map_id b)

theorem unshift {b : List Nat} (h : b.length = 16) : invShiftRows (shiftRows b) = b := by
  match b, h with
  | [_, _, _, _, _, _, _, _, _, _, _, _, _, _, _, _], _ => rfl

theorem lget_lt {b : List Nat} (h : ∀ x ∈ b, x < 256) (i : Nat) : lget b i 0 < 256 := by
  unfold lget
  cases e : b[i]? with
  | none => decide
  | some v => exact h v (List.mem_of_getElem? e)

theorem shiftRows_block {b : List Nat} (h : ∀ x ∈ b, x < 256) : Block16 (shiftRows b) := by
  refine ⟨by simp [shiftRows], fun x hx => ?_⟩
  simp only [shiftRows, List.mem_map] at hx
  obtain ⟨i, _, rfl⟩ := hx
  exact lget_lt h _

theorem mixCols_block (m : List Nat) {b : List Nat} (h : ∀ x ∈ b, x < 256) : Block16 (mixCols m b) := by
  refine ⟨by simp [mixCols], fun x hx => ?_⟩
  simp only [mixCols, List.mem_map] at hx
  obtain ⟨i, _, rfl⟩ := hx
  simp only [List.range_succ, List.range_zero, List.nil_append, List.cons_append, List.foldl_cons, List.foldl_nil]
  exact nxor_lt (nxor_lt (nxor_lt (nxor_lt (by decide) (gmul_lt _ (lget_lt h _))) (gmul_lt _ (lget_lt h _))) (gmul_lt _ (lget_lt h _))) (gmul_lt _ (lget_lt h _))

/-- What the inverse matrix makes of a byte that the matrix has spread over its column. -/
theorem mix_entry {x : Nat} (h : x < 256) :
    Nat.xor (Nat.xor (Nat.xor (gmul (gmul x 2) 14) (gmul (gmul x 1) 11)) (gmul (gmul x 1) 13)) (gmul (gmul x 3) 9) = x
    ∧ Nat.xor (Nat.xor (Nat.xor (gmul (gmul x 3) 14) (gmul (gmul x 2) 11)) (gmul (gmul x 1) 13)) (gmul (gmul x 1) 9) = 0
    ∧ Nat.xor (Nat.xor (Nat.xor (gmul (gmul x 1) 14) (gmul (gmul x 3) 11)) (gmul (gmul x 2) 13)) (gmul (gmul x 1) 9) = 0
    ∧ Nat.xor (Nat.xor (Nat.xor (gmul (gmul x 1) 14) (gmul (gmul x 1) 11)) (gmul (gmul x 3) 13)) (gmul (gmul x 2) 9) = 0 := by
  have : ∀ x : Fin 256, Nat.xor (Nat.xor (Nat.xor (gmul (gmul x.val 2) 14) (gmul (gmul x.val 1) 11)) (gmul (gmul x.val 1) 13)) (gmul (gmul x.val 3) 9) = x.val
    ∧ Nat.xor (Nat.xor (Nat.xor (gmul (gmul x.val 3) 14) (gmul (gmul x.val 2) 11)) (gmul (gmul x.val 1) 13)) (gmul (gmul x.val 1) 9) = 0
    ∧ Nat.xor (Nat.xor (Nat.xor (gmul (gmul x.val 1) 14) (gmul (gmul x.val 3) 11)) (gmul (gmul x.val 2) 13)) (gmul (gmul x.val 1) 9) = 0
    ∧ Nat.xor (Nat.xor (Nat.xor (gmul (gmul x.val 1) 14) (gmul (gmul x.val 1) 11)) (gmul (gmul x.val 3) 13)) (gmul (gmul x.val 2) 9) = 0 := by decide +kernel
  exact this ⟨x, h⟩

/-- The columns matrix and its inverse over GF(2^8) undo each other on a column. -/
theorem unmix_row {a b c d : Nat} (ha : a < 256) (hb : b < 256) (hc : c < 256) (hd : d < 256) :
    Nat.xor (Nat.xor (Nat.xor (gmul (Nat.xor (Nat.xor (Nat.xor (gmul a 2) (gmul b 3)) (gmul c 1)) (gmul d 1)) 14)
      (gmul (Nat.xor (Nat.xor (Nat.xor (gmul a 1) (gmul b 2)) (gmul c 3)) (gmul d 1)) 11))
      (gmul (Nat.xor (Nat.xor (Nat.xor (gmul a 1) (gmul b 1)) (gmul c 2)) (gmul d 3)) 13))
      (gmul (Nat.xor (Nat.xor (Nat.xor (gmul a 3) (gmul b 1)) (gmul c 1)) (gmul d 2)) 9) = a := by
  have g := fun {x : Nat} (m : Nat) (h : x < 256) => gmul_lt m h
  have l3 : ∀ {p q r t : Nat} (m : Nat), p < 256 → q < 256 → r < 256 → t < 256 →
      gmul (Nat.xor (Nat.xor (Nat.xor p q) r) t) m = Nat.xor (Nat.xor (Nat.xor (gmul p m) (gmul q m)) (gmul r m)) (gmul t m) :=
    fun m hp hq hr ht => by
      rw [gmul_xor m (nxor_lt (nxor_lt hp hq) hr) ht, gmul_xor m (nxor_lt hp hq) hr, gmul_xor m hp hq]
  rw [l3 14 (g 2 ha) (g 3 hb) (g 1 hc) (g 1 hd), l3 11 (g 1 ha) (g 2 hb) (g 3 hc) (g 1 hd),
    l3 13 (g 1 ha) (g 1 hb) (g 2 hc) (g 3 hd), l3 9 (g 3 ha) (g 1 hb) (g 1 hc) (g 2 hd)]
  have e1 := (mix_entry ha).1
  have e2 := (mix_entry hb).2.1
  have e3 := (mix_entry hc).2.2.1
  have e4 := (mix_entry hd).2.2.2
  have sum : ∀ a1 a2 a3 a4 b1 b2 b3 b4 c1 c2 c3 c4 d1 d2 d3 d4 : Nat,
      Nat.xor (Nat.xor (Nat.xor (Nat.xor (Nat.xor (Nat.xor a1 b1) c1) d1) (Nat.xor (Nat.xor (Nat.xor a2 b2) c2) d2))
        (Nat.xor (Nat.xor (Nat.xor a3 b3) c3) d3)) (Nat.xor (Nat.xor (Nat.xor a4 b4) c4) d4)
      = Nat.xor (Nat.xor (Nat.xor (Nat.xor (Nat.xor (Nat.xor a1 a2) a3) a4) (Nat.xor (Nat.xor (Nat.xor b1 b2) b3) b4))
        (Nat.xor (Nat.xor (Nat.xor c1 c2) c3) c4)) (Nat.xor (Nat.xor (Nat.xor d1 d2) d3) d4) := by
    intros
    repeat rw [← nxor_eq]
    ac_rfl
  rw [sum, e1, e2, e3, e4, nxor_zero, nxor_zero, nxor_zero]

/-- The sum of four products, as a column's row is formed. -/
def x4 (a b c d : Nat) : Nat := Nat.xor (Nat.xor (Nat.xor a b) c) d
theorem x4_rot (a b c d : Nat) : x4 b c d a = x4 a b c d := by
  simp only [x4, ← nxor_eq]
  ac_rfl

theorem unmix_col {a b c d : Nat} (ha : a < 256) (hb : b < 256) (hc : c < 256) (hd : d < 256) :
    let c0 := x4 (gmul a 2) (gmul b 3) (gmul c 1) (gmul d 1)
    let c1 := x4 (gmul a 1) (gmul b 2) (gmul c 3) (gmul d 1)
    let c2 := x4 (gmul a 1) (gmul b 1) (gmul c 2) (gmul d 3)
    let c3 := x4 (gmul a 3) (gmul b 1) (gmul c 1) (gmul d 2)
    x4 (gmul c0 14) (gmul c1 11) (gmul c2 13) (gmul c3 9) = a ∧ x4 (gmul c0 9) (gmul c1 14) (gmul c2 11) (gmul c3 13) = b
    ∧ x4 (gmul c0 13) (gmul c1 9) (gmul c2 14) (gmul c3 11) = c ∧ x4 (gmul c0 11) (gmul c1 13) (gmul c2 9) (gmul c3 14) = d := by
  have row : ∀ {a b c d : Nat}, a < 256 → b < 256 → c < 256 → d < 256 →
      x4 (gmul (x4 (gmul a 2) (gmul b 3) (gmul c 1) (gmul d 1)) 14) (gmul (x4 (gmul a 1) (gmul b 2) (gmul c 3) (gmul d 1)) 11)
        (gmul (x4 (gmul a 1) (gmul b 1) (gmul c 2) (gmul d 3)) 13) (gmul (x4 (gmul a 3) (gmul b 1) (gmul c 1) (gmul d 2)) 9) = a :=
    fun ha hb hc hd => unmix_row ha hb hc hd
  intro c0 c1 c2 c3
  have rb := row hb hc hd ha
  have rc := row hc hd ha hb
  have rd := row hd ha hb hc
  refine ⟨row ha hb hc hd, ?_, ?_, ?_⟩
  · simp only [x4_rot (gmul a _) (gmul b _)] at rb
    rw [x4_rot] at rb
    exact rb
  · simp only [x4_rot (gmul b _) (gmul c _), x4_rot (gmul a _) (gmul b _)] at rc
    rw [x4_rot, x4_rot] at rc
    exact rc
  · simp only [x4_rot (gmul c _) (gmul d _), x4_rot (gmul b _) (gmul c _), x4_rot (gmul a _) (gmul b _)] at rd
    rw [x4_rot, x4_rot, x4_rot] at rd
    exact rd

theorem mixCols_list (p q r t b0 b1 b2 b3 b4 b5 b6 b7 b8 b9 b10 b11 b12 b13 b14 b15 : Nat) :
    mixCols [p, q, r, t] [b0, b1, b2, b3, b4, b5, b6, b7, b8, b9, b10, b11, b12, b13, b14, b15]
    = [x4 (gmul b0 p) (gmul b1 q) (gmul b2 r) (gmul b3 t), x4 (gmul b0 t) (gmul b1 p) (gmul b2 q) (gmul b3 r),
       x4 (gmul b0 r) (gmul b1 t) (gmul b2 p) (gmul b3 q), x4 (gmul b0 q) (gmul b1 r) (gmul b2 t) (gmul b3 p),
       x4 (gmul b4 p) (gmul b5 q) (gmul b6 r) (gmul b7 t), x4 (gmul b4 t) (gmul b5 p) (gmul b6 q) (gmul b7 r),
       x4 (gmul b4 r) (gmul b5 t) (gmul b6 p) (gmul b7 q), x4 (gmul b4 q) (gmul b5 r) (gmul b6 t) (gmul b7 p),
       x4 (gmul b8 p) (gmul b9 q) (gmul b10 r) (gmul b11 t), x4 (gmul b8 t) (gmul b9 p) (gmul b10 q) (gmul b11 r),
       x4 (gmul b8 r) (gmul b9 t) (gmul b10 p) (gmul b11 q), x4 (gmul b8 q) (gmul b9 r) (gmul b10 t) (gmul b11 p),
       x4 (gmul b12 p) (gmul b13 q) (gmul b14 r) (gmul b15 t), x4 (gmul b12 t) (gmul b13 p) (gmul b14 q) (gmul b15 r),
       x4 (gmul b12 r) (gmul b13 t) (gmul b14 p) (gmul b15 q), x4 (gmul b12 q) (gmul b13 r) (gmul b14 t) (gmul b15 p)] := by
  simp only [mixCols, List.range_succ, List.range_zero, List.nil_append, List.cons_append, List.foldl_cons, List.foldl_nil, List.map_cons,
    List.map_nil, lget, zero_nxor, x4]
  simp

theorem unmix {b : List Nat} (h : Block16 b) : mixCols [14, 11, 13, 9] (mixCols [2, 3, 1, 1] b) = b := by
  obtain ⟨hl, hb⟩ := h
  match b, hl with
  | [b0, b1, b2, b3, b4, b5, b6, b7, b8, b9, b10, b11, b12, b13, b14, b15], _ =>
    simp only [List.mem_cons, List.not_mem_nil, or_false, forall_eq_or_imp, forall_eq] at hb
    obtain ⟨h0, h1, h2, h3, h4, h5, h6, h7, h8, h9, h10, h11, h12, h13, h14, h15⟩ := hb
    obtain ⟨r0, r1, r2, r3⟩ := unmix_col h0 h1 h2 h3
    obtain ⟨r4, r5, r6, r7⟩ := unmix_col h4 h5 h6 h7
    obtain ⟨r8, r9, r10, r11⟩ := unmix_col h8 h9 h10 h11
    obtain ⟨r12, r13, r14, r15⟩ := unmix_col h12 h13 h14 h15
    rw [mixCols_list, mixCols_list, r0, r1, r2, r3, r4, r5, r6, r7, r8, r9, r10, r11, r12, r13, r14, r15]

/-! Rounds, blocks and data units -/

def encRound (b k : List Nat) : List Nat := xorL (mixCols [2, 3, 1, 1] (shiftRows (b.map sbox))) k
def decRound (b k : List Nat) : List Nat := (invShiftRows (mixCols [14, 11, 13, 9] (xorL b k))).map invSbox

theorem sub_bytes (b : List Nat) : ∀ x ∈ b.map sbox, x < 256 := by
  intro x hx
  obtain ⟨y, _, rfl⟩ := List.mem_map.1 hx
  exact sbox_lt y

theorem encRound_block {k : List Nat} (b : List Nat) (hk : Block16 k) : Block16 (encRound b k) :=
  xorL_block (mixCols_block _ (shiftRows_block (sub_bytes b)).2) hk

theorem decRound_encRound {b k : List Nat} (hb : Block16 b) (hk : Block16 k) : decRound (encRound b k) k = b := by
  have h1 := shiftRows_block (sub_bytes b)
  have h2 := mixCols_block [2, 3, 1, 1] h1.2
  rw [decRound, encRound, xorL_cancel (h2.1.trans hk.1.symm), unmix h1, unshift (by rw [List.length_map, hb.1]), unsub hb.2]

theorem encRounds_block : ∀ {ks : List (List Nat)} {b : List Nat}, Block16 b → (∀ k ∈ ks, Block16 k) → Block16 (ks.foldl encRound b)
  | [], _, h, _ => h
  | k :: ks, b, _, h => encRounds_block (ks := ks) (b := encRound b k) (encRound_block b (h k (by simp))) (fun k' hk => h k' (by simp [hk]))

theorem decRounds : ∀ {ks : List (List Nat)} {b : List Nat}, Block16 b → (∀ k ∈ ks, Block16 k) →
    ks.reverse.foldl decRound (ks.foldl encRound b) = b
  | [], _, _, _ => rfl
  | k :: ks, b, hb, h => by
    have hk := h k (by simp)
    simp only [List.reverse_cons, List.foldl_append, List.foldl_cons, List.foldl_nil]
    rw [decRounds (encRound_block b hk) (fun k' hk => h k' (by simp [hk]))]
    exact decRound_encRound hb hk

/-- Fifteen round keys. -/
abbrev Keys15 (rk : List (List Nat)) : Prop := ∀ r, r < 15 → Block16 (lget rk r [])

theorem aes_back {rk : List (List Nat)} {b : List Nat} (hk : Keys15 rk) (hb : Block16 b) : aesDec rk (aesEnc rk b) = b := by
  have k0 := hk 0 (by decide)
  have k14 := hk 14 (by decide)
  have mid : ∀ k ∈ (List.range 13).map (fun r => lget rk (r + 1) []), Block16 k := by
    intro k h
    obtain ⟨r, hr, rfl⟩ := List.mem_map.1 h
    exact hk _ (by have := List.mem_range.1 hr; omega)
  have e : ∀ c, (List.range 13).foldl (fun b r => xorL (mixCols [2, 3, 1, 1] (shiftRows (b.map sbox))) (lget rk (r + 1) [])) c
      = ((List.range 13).map (fun r => lget rk (r + 1) [])).foldl encRound c := fun c => by rw [List.foldl_map]; rfl
  have d : ∀ c, (List.range 13).foldl (fun b r => (invShiftRows (mixCols [14, 11, 13, 9] (xorL b (lget rk (13 - r) [])))).map invSbox) c
      = ((List.range 13).map (fun r => lget rk (r + 1) [])).reverse.foldl decRound c := fun c => by
    rw [show ((List.range 13).map (fun r => lget rk (r + 1) [])).reverse = (List.range 13).map (fun r => lget rk (13 - r) []) from rfl, List.foldl_map]; rfl
  have hb0 := xorL_block hb k0
  have hb1 := encRounds_block hb0 mid
  have hs := shiftRows_block (sub_bytes (((List.range 13).map (fun r => lget rk (r + 1) [])).foldl encRound (xorL b (lget rk 0 []))))
  unfold aesDec aesEnc
  simp only [e, d]
  rw [xorL_cancel (hs.1.trans k14.1.symm), unshift (by rw [List.length_map, hb1.1]), unsub hb1.2, decRounds hb0 mid, xorL_cancel (hb.1.trans k0.1.symm)]

theorem aesEnc_block {rk : List (List Nat)} (b : List Nat) (hk : Keys15 rk) : Block16 (aesEnc rk b) :=
  xorL_block (shiftRows_block (sub_bytes _)) (hk 14 (by decide))

theorem natLE_len : ∀ k n, (natLE k n).length = k
  | 0, _ => rfl
  | k + 1, n => by simp [natLE, natLE_len k]
theorem ofBs_bytes (bs : List Byte) : ∀ x ∈ ofBs bs, x < 256 := by
  intro x hx
  obtain ⟨y, _, rfl⟩ := List.mem_map.1 hx
  exact y.isLt
theorem tweak_block (t : Nat) : Block16 (ofBs (natLE 16 t)) := ⟨by simp [ofBs, natLE_len], ofBs_bytes _⟩

theorem take_block {bs : List Nat} (hl : 16 ≤ bs.length) (h : ∀ x ∈ bs, x < 256) : Block16 (bs.take 16) :=
  ⟨by rw [List.length_take]; omega, fun x hx => h x (List.mem_of_mem_take hx)⟩

theorem xtsBlocks_length {rk : List (List Nat)} (hk : Keys15 rk) : ∀ (k t : Nat) (bs : List Nat), bs.length = 16 * k → (∀ x ∈ bs, x < 256) →
    (xtsBlocks true k rk t bs).length = 16 * k ∧ ∀ x ∈ xtsBlocks true k rk t bs, x < 256
  | 0, _, _, _, _ => ⟨rfl, by simp [xtsBlocks]⟩
  | k + 1, t, bs, hl, h => by
    have ih := xtsBlocks_length hk k (xtsNext t) (bs.drop 16) (by rw [List.length_drop]; omega) (fun x hx => h x (List.mem_of_mem_drop hx))
    have c := xorL_block (aesEnc_block (xorL (bs.take 16) (ofBs (natLE 16 t))) hk) (tweak_block t)
    simp only [xtsBlocks, if_true, List.length_append, ih.1, c.1]
    refine ⟨by omega, fun x hx => ?_⟩
    rcases List.mem_append.1 hx with hx | hx
    · exact c.2 x hx
    · exact ih.2 x hx

theorem xtsBlocks_back {rk : List (List Nat)} (hk : Keys15 rk) : ∀ (k t : Nat) (bs : List Nat), bs.length = 16 * k → (∀ x ∈ bs, x < 256) →
    xtsBlocks false k rk t (xtsBlocks true k rk t bs) = bs
  | 0, _, bs, h, _ => (List.eq_nil_of_length_eq_zero h).symm
  | k + 1, t, bs, hl, h => by
    have hx := take_block (bs := bs) (by omega) h
    have hp := xorL_block hx (tweak_block t)
    have ha := aesEnc_block (xorL (bs.take 16) (ofBs (natLE 16 t))) hk
    have c := xorL_block ha (tweak_block t)
    have ih := xtsBlocks_back hk k (xtsNext t) (bs.drop 16) (by rw [List.length_drop]; omega) (fun x hx => h x (List.mem_of_mem_drop hx))
    have e : xtsBlocks true (k + 1) rk t bs = xorL (aesEnc rk (xorL (bs.take 16) (ofBs (natLE 16 t)))) (ofBs (natLE 16 t))
        ++ xtsBlocks true k rk (xtsNext t) (bs.drop 16) := rfl
    rw [e, xtsBlocks, List.take_left' c.1, List.drop_left' c.1, ih]
    simp only [Bool.false_eq_true, if_false]
    rw [xorL_cancel (ha.1.trans (tweak_block t).1.symm), aes_back hk hp, xorL_cancel (hx.1.trans (tweak_block t).1.symm), List.take_append_drop]

theorem xtsUnits_back {rk1 rk2 : List (List Nat)} (hk : Keys15 rk1) (m : Nat) : ∀ (k unit : Nat) (bs : List Nat),
    bs.length = 16 * m * k → (∀ x ∈ bs, x < 256) →
    (xtsUnits true (16 * m) k rk1 rk2 unit bs).length = 16 * m * k ∧ (∀ x ∈ xtsUnits true (16 * m) k rk1 rk2 unit bs, x < 256)
    ∧ xtsUnits false (16 * m) k rk1 rk2 unit (xtsUnits true (16 * m) k rk1 rk2 unit bs) = bs
  | 0, _, bs, h, _ => ⟨rfl, by simp [xtsUnits], (List.eq_nil_of_length_eq_zero (by simpa using h)).symm⟩
  | k + 1, unit, bs, hl, h => by
    have hm : bs.length = 16 * m * k + 16 * m := by rw [hl]; ring
    have lt : (bs.take (16 * m)).length = 16 * m := by rw [List.length_take]; omega
    have bt : ∀ x ∈ bs.take (16 * m), x < 256 := fun x hx => h x (List.mem_of_mem_take hx)
    have ih := xtsUnits_back (rk2 := rk2) hk m k (unit + 1) (bs.drop (16 * m)) (by rw [List.length_drop]; omega) (fun x hx => h x (List.mem_of_mem_drop hx))
    have dv : 16 * m / 16 = m := by omega
    have c := xtsBlocks_length hk m (leNat (toBs (aesEnc rk2 (ofBs (natLE 16 unit))))) _ lt bt
    have b := xtsBlocks_back hk m (leNat (toBs (aesEnc rk2 (ofBs (natLE 16 unit))))) _ lt bt
    have e : xtsUnits true (16 * m) (k + 1) rk1 rk2 unit bs = xtsBlocks true (16 * m / 16) rk1 (leNat (toBs (aesEnc rk2 (ofBs (natLE 16 unit))))) (bs.take (16 * m))
        ++ xtsUnits true (16 * m) k rk1 rk2 (unit + 1) (bs.drop (16 * m)) := rfl
    rw [e, dv]
    refine ⟨by rw [List.length_append, c.1, ih.1]; ring, fun x hx => ?_, ?_⟩
    · rcases List.mem_append.1 hx with hx | hx
      · exact c.2 x hx
      · exact ih.2.1 x hx
    · rw [xtsUnits, List.take_left' c.1, List.drop_left' c.1, ih.2.2, dv, b, List.take_append_drop]

theorem toBs_ofBs (bs : List Byte) : toBs (ofBs bs) = bs := by
  rw [toBs, ofBs, List.map_map]
  exact (List.map_congr_left (fun x _ => by simp [toB])).trans (List.map_id bs)
theorem ofBs_toBs {ns : List Nat} (h : ∀ x ∈ ns, x < 256) : ofBs (toBs ns) = ns := by
  rw [toBs, ofBs, List.map_map]
  exact (List.map_congr_left (fun x hx => by simp [toB, Nat.mod_eq_of_lt (h x hx)])).trans (List.map_id ns)

/-- Whole data units that XTS has sealed open again to what they were (R424). -/
theorem xts_back {material bs : List Byte} {m : Nat} (unit : Nat) (hm : 0 < m) (hk : Keys15 (roundKeys (ofBs (material.take 32))))
    (hl : bs.length % (16 * m) = 0) :
    xts false (16 * m) unit material (xts true (16 * m) unit material bs) = bs ∧ (xts true (16 * m) unit material bs).length = bs.length := by
  obtain ⟨k, hk'⟩ := Nat.dvd_of_mod_eq_zero hl
  have ln : (ofBs bs).length = 16 * m * k := by rw [ofBs, List.length_map, hk']
  have q : bs.length / (16 * m) = k := by rw [hk']; exact Nat.mul_div_cancel_left _ (by omega)
  have u := xtsUnits_back (rk2 := roundKeys (ofBs ((material.drop 32).take 32))) hk m k unit (ofBs bs) ln (ofBs_bytes bs)
  have e : xts true (16 * m) unit material bs = toBs (xtsUnits true (16 * m) k (roundKeys (ofBs (material.take 32))) (roundKeys (ofBs ((material.drop 32).take 32))) unit (ofBs bs)) := by
    unfold xts; rw [q]
  have l : (xts true (16 * m) unit material bs).length = bs.length := by rw [e, toBs, List.length_map, u.1, hk']
  refine ⟨?_, l⟩
  rw [xts, l, q, e, ofBs_toBs u.2.1, u.2.2, toBs_ofBs]

end Sys2Proof.Machine
end

