-- ==== Sys2Proof/Machine/Clocks.lean ====
section
/-!
DEFINITION. Clocks and what a register transfer between them costs (16: R518, R535, R536).
-/
namespace Sys2Proof.Machine

/-- Clocks of the module (Table 16-12). -/
inductive Clk where
  | cclk | ctlclk | kclk | vclk | jclk | pclk | arclk | nrclk | mclk
deriving DecidableEq, Repr

/-- CCLK of a profile, kHz (Table 16-4). -/
def cclkKhz (profile : Nat) : Nat := if profile = 0 then 1600000 else if profile = 1 then 2000000 else 2200000

/-- Frequency of a clock in a profile, kHz: the profile moves CCLK alone (R518, Table 16-12). -/
def clkKhz (profile : Nat) : Clk → Nat
  | .cclk => cclkKhz profile
  | .ctlclk => 1600000
  | .kclk => 1200000
  | .vclk => 400000
  | .jclk => 2500000
  | .pclk => 1000000
  | .arclk => 1562500
  | .nrclk => 1562500
  | .mclk => 800000

/-- The crossings, by row of Table 16-13. -/
def crossings : List (Clk × Clk) :=
  [(.cclk, .vclk), (.cclk, .ctlclk), (.cclk, .jclk), (.cclk, .arclk), (.cclk, .nrclk), (.cclk, .mclk), (.ctlclk, .vclk),
   (.kclk, .vclk), (.pclk, .vclk)]

/-- One register transfer between two clocks, in 0.01 ns: two periods of each, rounded up (R536). -/
def xferCost (profile : Nat) (c : Clk × Clk) : Nat :=
  let a := clkKhz profile c.1
  let b := clkKhz profile c.2
  (200000000 * (a + b) + (a * b - 1)) / (a * b)

/-- A register read in the profile in force: two transfers at each crossing it passes (R536). -/
def readCost (s : State) (path : List (Clk × Clk)) : Nat := (path.map (fun c => 2 * xferCost s.power.inForce c)).foldl (· + ·) 0

end Sys2Proof.Machine
end

