-- ==== Sys2Proof/Machine/Edges.lean ====
section
/-!
DEFINITION. The module's edges (19: R587, R588, R591 to R593): the fibre of each lane, the lanes of each interface, and the
pins that a tile drives only while it is ON (16: R529).
-/
namespace Sys2Proof.Machine

/-- Position of transmit lane `l`, and of receive lane `l`, on J-APn (R591, Table 19-3). -/
def apTxPos (l : Nat) : Nat := l + 1
def apRxPos (l : Nat) : Nat := 32 - l
/-- Position of transmit port lane `k`, and of receive port lane `k`, on J-NPp (R591, Table 19-3). -/
def npTxPos (k : Nat) : Nat := 1 + k
def npRxPos (k : Nat) : Nat := 12 - k
/-- Positions of J-NPp without a fibre function (Table 19-3). -/
def npDark (q : Nat) : Bool := decide (5 ≤ q) && decide (q ≤ 8)
/-- Where a trunk takes position `q` of J-AP and of J-NP (R592). -/
def apTrunk (q : Nat) : Nat := 33 - q
def npTrunk (q : Nat) : Nat := 13 - q

/-- Optical engine of a network port: two ports to an engine, in order (R18, Table 1-3). -/
def oeOfNet (p : Nat) : Nat := p / 2
/-- Engine lane of port lane `k` of a network port (R591). -/
def oeLane (p k : Nat) : Nat := (if p % 2 = 0 then 16 else 20) + k
/-- Port lanes of interface `i` of a port under a breakout (R593, Table 19-4). -/
def ifLanes (breakout i : Nat) : List Nat :=
  let w := 4 / ifsOf breakout
  (List.range w).map (fun k => i * w + k)

/-- A pin that a tile drives: what it drives while the tile is ON, and `none` while it floats (R529, Table 16-10). -/
def driven (s : State) (tile : Nat) (low : Bool) : Option Bool := if domOn s tile then some low else none
/-- AP_PERST_N of a port as driven: low holds the accelerator in reset (R112, R587). -/
def apPerstLow (s : State) (p : Nat) : Option Bool := driven s (aptTile p) (s.port p).perst
/-- NP_LINK_LED_N of a port as driven: low, the LED lit, while any interface of the port is up (R588). -/
def linkLedLow (s : State) (p : Nat) : Option Bool :=
  driven s (nptTile p) ((List.range 4).any (fun i => (s.netIf (4 * p + i)).up))
/-- NP_ACT_LED_N of a port as driven, `ms` after frames began to pass: lit for 30 ms of each 100 ms while they pass (R588).
When a pulse begins is the model's reading (DEDUCED, log 41). -/
def actLedLow (s : State) (p : Nat) (passing : Bool) (ms : Nat) : Option Bool :=
  driven s (nptTile p) (passing && decide (ms % 100 < 30))

end Sys2Proof.Machine
end

