-- ==== Sys2Proof/Tests/Signed.lean ====
section
/-!
SUPPORT. Keys that verify: for every message there is a public key under which one fixed signature verifies. It is the
key whose root is what the signature climbs to.
-/
namespace Sys2Proof.Tests
open Sys2Proof.Machine
set_option Elab.async false

theorem shaRound_length (h : List Nat) (k : Nat) (h8 : h.length = 8) : (shaRound h k).length = 8 := by
  match h, h8 with
  | [a, b, c, d, e, f, g, i], _ => rfl

theorem shaFold_length : ∀ (l : List (Nat × Nat)) (h : List Nat), h.length = 8 → (l.foldl (fun h p => shaRound h (p.1 + p.2)) h).length = 8
  | [], _, h8 => h8
  | _ :: l, h, h8 => shaFold_length l _ (shaRound_length h _ h8)

theorem shaBlock_length (h b : List Nat) (h8 : h.length = 8) : (shaBlock h b).length = 8 := by
  simp only [shaBlock, List.length_map, List.length_zip, shaFold_length _ h h8, h8, Nat.min_self]

theorem shaBlocks_length : ∀ (k : Nat) (h bs : List Nat), h.length = 8 → (shaBlocks k h bs).length = 8
  | 0, _, _, h8 => h8
  | k + 1, h, _, h8 => shaBlocks_length k _ _ (shaBlock_length h _ h8)

theorem shaBytes_length : ∀ h : List Nat, (shaBytes h).length = 4 * h.length
  | [] => rfl
  | _ :: r => by
    have := shaBytes_length r
    simp only [shaBytes] at this
    simp only [shaBytes, List.flatMap_cons, List.length_append, this, List.length_cons, List.length_nil]; omega

theorem shaBytes_lt (h : List Nat) : ∀ x ∈ shaBytes h, x < 256 := by
  intro x hx
  simp only [shaBytes, List.mem_flatMap, List.mem_cons, List.not_mem_nil, or_false] at hx
  obtain ⟨a, _, hx⟩ := hx
  omega

theorem sha_length (bs : List Nat) : (sha256N bs).length = 32 := by
  simp only [sha256N, shaFinal, shaBytes_length, shaBlocks_length _ shaInit _ rfl]

theorem sha_back (bs : List Nat) : ofBs (toBs (sha256N bs)) = sha256N bs := by
  have h : ∀ l : List Nat, (∀ x ∈ l, x < 256) → ofBs (toBs l) = l := by
    intro l
    induction l with
    | nil => intro _; rfl
    | cons a l ih =>
      intro hl
      have ha := hl a (List.mem_cons_self ..)
      have := ih (fun x hx => hl x (List.mem_cons_of_mem _ hx))
      simp only [ofBs, toBs, toB, List.map_cons, BitVec.toNat_ofNat] at this ⊢
      rw [this, Nat.mod_eq_of_lt (by omega)]
  exact h _ (shaBytes_lt _)

theorem climb_sha : ∀ (k : Nat) (idI : List Nat) (n : Nat) (t p : List Nat), ∃ m, lmsClimb (k + 1) idI n t p = sha256N m
  | 0, idI, n, t, p => ⟨_, rfl⟩
  | k + 1, idI, n, t, p => by
    obtain ⟨m, hm⟩ := climb_sha k idI (n / 2) (sha256N (idI ++ beOfNat 4 (n / 2) ++ [0x83, 0x83] ++ (if n % 2 = 1 then p.take 32 ++ t else t ++ p.take 32))) (p.drop 32)
    exact ⟨m, by rw [← hm]; rfl⟩

/-- A signature of leaf 0 whose values and path are all zero. -/
def lmsSig : List Byte := natBE 4 0 ++ natBE 4 4 ++ List.replicate 1120 0#8 ++ natBE 4 7 ++ List.replicate 480 0#8
/-- The root it climbs to. -/
def lmsRoot (msg : List Byte) : List Nat :=
  lmsClimb 15 (List.replicate 16 0) (2 ^ 15) (sha256N (List.replicate 16 0 ++ beOfNat 4 (2 ^ 15) ++ [0x82, 0x82]
    ++ otsKey (List.replicate 16 0 ++ beOfNat 4 0) (((ofBs lmsSig).drop 4).take 1124) (ofBs msg))) ((ofBs lmsSig).drop 1132)
def lmsHead : List Byte := natBE 4 7 ++ natBE 4 4 ++ List.replicate 16 0#8
def lmsPub (msg : List Byte) : List Byte := lmsHead ++ toBs (lmsRoot msg)
def hssPub (msg : List Byte) : List Byte := natBE 4 1 ++ lmsPub msg
def hssSig : List Byte := natBE 4 0 ++ lmsSig

theorem root_back (msg : List Byte) : ofBs (toBs (lmsRoot msg)) = lmsRoot msg ∧ (lmsRoot msg).length = 32 := by
  obtain ⟨m, hm⟩ := climb_sha 14 (List.replicate 16 0) (2 ^ 15) (sha256N (List.replicate 16 0 ++ beOfNat 4 (2 ^ 15) ++ [0x82, 0x82]
    ++ otsKey (List.replicate 16 0 ++ beOfNat 4 0) (((ofBs lmsSig).drop 4).take 1124) (ofBs msg))) ((ofBs lmsSig).drop 1132)
  have : lmsRoot msg = sha256N m := hm
  rw [this]; exact ⟨sha_back m, sha_length m⟩

theorem ofBs_append (a b : List Byte) : ofBs (a ++ b) = ofBs a ++ ofBs b := List.map_append ..

/-- The signature verifies a message under its key. -/
theorem lms_signed (msg : List Byte) : lmsVerify (lmsPub msg) lmsSig msg = true := by
  obtain ⟨hb, hl⟩ := root_back msg
  have hp : ofBs (lmsPub msg) = ofBs lmsHead ++ lmsRoot msg := by rw [lmsPub, ofBs_append, hb]
  have h24 : (ofBs lmsHead).length = 24 := by decide
  simp only [lmsVerify, lmsVerifyN, hp, List.length_append, hl, h24]
  rw [List.drop_append_of_le_length (by simp [h24]), List.drop_append_of_le_length (by simp [h24]),
    List.take_append_of_le_length (by simp [h24]), List.take_append_of_le_length (by simp [h24]),
    List.take_append_of_le_length (by simp [h24])]
  have a1 : ((ofBs lmsHead).drop 8).take 16 = List.replicate 16 0 := by decide
  have a2 : natOfBE ((ofBs lmsSig).take 4) = 0 := by decide +kernel
  have a3 : (ofBs lmsSig).length = 1132 + 32 * 15 := by decide +kernel
  have a4 : natOfBE ((ofBs lmsHead).take 4) = 7 := by decide
  have a5 : natOfBE (((ofBs lmsHead).drop 4).take 4) = 4 := by decide
  have a6 : natOfBE ((((ofBs lmsSig).drop 4).take 1124).take 4) = 4 := by decide +kernel
  have a7 : natOfBE (((ofBs lmsSig).drop 1128).take 4) = 7 := by decide +kernel
  have a8 : (ofBs lmsHead ++ lmsRoot msg).drop 24 = lmsRoot msg := List.drop_left' h24
  rw [a1, a2, a3, a4, a5, a6, a7, a8]
  simp only [beq_self_eq_true, Bool.and_self, lmsRoot, Nat.add_zero, Nat.reducePow, decide_true, show (0 < 32768) = True by simp]

theorem hss_signed (msg : List Byte) : hssVerify (hssPub msg) hssSig msg = true := by
  have h := lms_signed msg
  have a1 : ofBs (hssPub msg) = ofBs (natBE 4 1) ++ ofBs (lmsPub msg) := ofBs_append _ _
  have a2 : ofBs hssSig = ofBs (natBE 4 0) ++ ofBs lmsSig := ofBs_append _ _
  have l4 : (ofBs (natBE 4 1)).length = 4 := by decide
  have l40 : (ofBs (natBE 4 0)).length = 4 := by decide
  have lp : (ofBs (lmsPub msg)).length = 56 := by
    rw [lmsPub, ofBs_append, (root_back msg).1, List.length_append, (root_back msg).2]; decide
  simp only [hssVerify, a1, a2]
  rw [List.take_left' l4, List.take_left' l40, List.drop_left' l4, List.drop_left' l40, List.length_append, l4, lp]
  have b1 : natOfBE (ofBs (natBE 4 1)) = 1 := by decide
  have b2 : natOfBE (ofBs (natBE 4 0)) = 0 := by decide
  rw [b1, b2]
  exact h

end Sys2Proof.Tests
end

