-- ==== Sys2Proof/Tests/States.lean ====
section
/-!
SUPPORT. Small states for the tests: a function that runs, a ring pair with one fetched descriptor, a port.
-/
namespace Sys2Proof.Tests
open Sys2Proof.Machine
set_option Elab.async false

def s1 : State := State.reset
/-- A function in its first incarnation. -/
def fnOn : Fn := { st := .active, gen := 1 }
/-- PF1 of host endpoint 0 runs. -/
def st1 : State := { fns := [(4, fnOn)], power := { stage := 4 } }
/-- A fetched descriptor of generation 1. -/
def de (d : Nat) : Fetched := { desc := BitVec.ofNat 512 d, gen := 1 }
def rgOf (kind d : Nat) : Ring :=
  { st := .enabled, ent := { kind := kind, sqOrder := 6, cqOrder := 6, enable := true }, prod := 1, cons := 1, fetched := [de d], fetchNo := 1 }
/-- Function `r` with ring pair 1 of a kind and one fetched descriptor. -/
def rs (r kind d : Nat) : State := { fns := [(r, { fnOn with rings := [(1, rgOf kind d)] })] }

/-! Ports -/
def trainFlit : List Byte := mkFlit {} 2 0 0 0 (natLE 16 0xFFFF)
def idleFlit : List Byte := mkFlit {} 0 0 0 0 []
def dataFlit : List Byte := mkFlit {} 1 0 0 0 []
def trainSt : State := { ports := [(0, { st := .train })] }
def winSt (c : Nat) : State := { ports := [(0, { st := .active, activeSet := if c = 0 then [] else [(16, c)] }), (1, { st := .active })] }
def depSt : State := { ports := [(0, { st := .active, peerCredits := 0x20202020, egress := [{ cls := 3, txn := { op := 0x10, length := 1, data := [7] } }] })] }
def depT : State :=
  sendData 0 0 1 true (((txnSlots { op := 0x10, length := 1, data := [7] }).drop 0).take 32) (depSt.modPort 0 (fun a => { a with deficit := [0, 0, 0, 0], rrPos := 3, rrGranted := true, egress := [] }))
def depU : State := apTx depT 0 { cls := 3, txn := { op := 0x10, length := 1, data := [7] } }

/-! Reduction -/
def openStep : BitVec 512 := BitVec.ofNat 512 (1 + 1024 * 2 ^ 64 + 10 * 2 ^ 96 + 2 ^ 104 + 2 ^ 112 + 2 ^ 192 + 2 ^ 20 * 2 ^ 320)
/-- The same claim with 2048 elements whose one rank is pulled from memory. -/
def memStep : BitVec 512 := BitVec.ofNat 512 (1 + 2048 * 2 ^ 64 + 10 * 2 ^ 96 + 2 ^ 104 + 2 ^ 112 + 2 ^ 128 + 2 ^ 192 + 2 ^ 20 * 2 ^ 320)
def onDoms (ds : List Nat) : NMap Dom := ds.foldl (fun m d => mset m d { power := 2, service := 1 } {}) []
def redSt (w : BitVec 512) : State := { red := { steps := [(0, w)] }, doms := onDoms [16, 17] }
def ctxOf : Ctx := { desc := openStep.toNat, hgen := 1, tiles := [0] }
def memCtx : Ctx := { desc := memStep.toNat, hgen := 1, tiles := [0] }
def redCtx (k : Ctx) (w : BitVec 512) : State := { red := { steps := [(0, w)], ctxs := [(0, k)] } }
def pullStep : BitVec 512 := BitVec.ofNat 512 (2 + 2 ^ 76 + 1024 * 2 ^ 128)
def closeStep : BitVec 512 := BitVec.ofNat 512 (3 + 2 ^ 76)
def abortStep : BitVec 512 := BitVec.ofNat 512 (4 + 2 ^ 76)
/-- Stack S0, MEM tile 0 and SUM tile 0 in service. -/
def stkSt : State := { doms := onDoms [16, 32, 84] }
def spilOne : Contr := { n := 32, len := 128, cell := some 0 }
def spilCtx : Ctx := { ctxOf with waits := [spilOne] }
def spilSt : State := { stkSt with red := { ctxs := [(0, spilCtx)] } }
def spilK : Ctx := (foldContr ctxOf { n := 32, data := List.replicate 128 0#8, len := 128 }).elim id (fun _ => {})
def pullRec : Pull := { first := 992, count := 64 }

/-! Pynex: core 0 runs at pc 0 with all of IM executable and PDM readable and writable, and g1 to g7 set -/
def coreOn : Core :=
  { act := .running, st := .running, evec := 0x100, g := [(1, 0x100000#64), (2, 0x40#64)]
    regions := [(0, 15), (1, 0xFFFFFFFFFFFFF000)] }
def coreSt : State := { cores := [(0, coreOn)] }
/-- Core 0 with a region over stack memory, whose stack and CTL tile are in service. -/
def ldStk : State := { doms := onDoms [8, 30, 32, 84], cores := [(0, { coreOn with g := [(3, BitVec.ofNat 64 (2 ^ 63))], regions := [(0, 15), (1, 0xFFFFFFFFFFFFF000), (2, 2 ^ 63 + 11), (3, 2 ^ 63 + 2 ^ 20)] })] }
def deepSt (h : Bool) : State := { cores := [(0, { coreOn with depth := 1, resident := 2, inHandler := h })] }

/-! Firmware -/
/-- DK0 is the active keeper and runs. -/
def upFw : Firmware := { dkUp := [true, false] }
def upSt (p : Nat × Core) : State := { fw := upFw, cores := [p, (64, { act := .running })] }
def replSt (st : CoreSt) : State := { fw := { upFw with repl := some { todo := [3] } }, cores := [(3, { st := st }), (64, { act := .running })] }
def rtLaunch : Launch := { progId := 0x1234, running := true }
/-- Core 57 stands at the entry of runtime service n with its record at the start of PDM. -/
def rtCore (n : Nat) : Core :=
  { act := .running, st := .running, pc := rtAddr n, x := [(0, 0x100000#64)], scq := [(1, 2)], depth := 1, resident := 2
    launches := [rtLaunch] }
def rtSt (n : Nat) : State := { cores := [(57, rtCore n)], fw := { comms := [(0, {})] } }
def putSt : State :=
  { cores := [(57, { rtCore 2 with x := [(0, 1#64)] })], fw := { comms := [(0, { nodes := 2, peers := [(0, 0, 0), (7, 0, 0)] })] }
    rdma := { qps := [(7, { st := .rts, sqLog := 0, sends := [{}] })] } }
def moveSt : State :=
  { cores := [(57, { rtCore 4 with x := [(1, 64#64), (2, 64#64)] })], fw := { comms := [(0, { stagingMib := 1 })] }, doms := onDoms [8, 32, 84] }
def abrtLaunch : Launch := { ref := { fn := 4, ring := 1 }, own := { fn := 4, gen := 1 } }
def abrtSt : State :=
  { rs 4 0x13 0x07 with fw := { comms := [(0, { own := { fn := 4, gen := 1 }, ring := 1 })] }, cores := [(57, { launches := [abrtLaunch] })] }
/-- The same communicator, no launch on a core, and a fenced COLL_LAUNCH ahead of the COLL_ABORT. -/
def abrtSt2 : State :=
  { rs 4 0x13 0x07 with fns := [(4, { fnOn with rings := [(1, { rgOf 0x13 0x07 with fetched := [{ de 0x106 with seq := 0 }, { de 0x07 with seq := 1 }] })] })]
                        fw := { comms := [(0, { own := { fn := 4, gen := 1 }, ring := 1 })] } }
/-- COMM_CREATE of IN_SWITCH for one node, port 0 and 1 MiB of staging. -/
def commDesc : Nat := 0x03 + 0x0001 * 2 ^ 64 + 2 ^ 80 + 2 ^ 112 + 2 ^ 128
def commSt : State := rs 4 0x13 commDesc

/-! A signed program image: one word of code, and the signature whose key `hssPub` gives -/
def progBody : List Byte := natLE 256 (0x09600C0B + 2 ^ 32 + 0x1000 * 2 ^ 48 + 4 * 2 ^ 80 + 260 * 2 ^ 160 + 1616 * 2 ^ 192) ++ natLE 4 0x08000000
def progImage : List Byte := progBody ++ hssSig
def progDesc : Nat := 0x01 + 1876 * 2 ^ 128
def progSt : State := { rs 4 0x13 progDesc with trust := { installer := some { pub := hssPub progBody } } }
theorem progSt_audits : (auditRec (begun progSt 4 1 (de progDesc)) 0x0300 2 4 0 (0x13 + 0x1000 * 2 ^ 16)).isSome = true := by decide +kernel
def progAudited : State := (auditRec (begun progSt 4 1 (de progDesc)) 0x0300 2 4 0 (0x13 + 0x1000 * 2 ^ 16)).get progSt_audits
theorem progImage_body : progImage.take 260 = progBody ∧ progImage.drop 260 = hssSig :=
  have h : progBody.length = 260 := by decide +kernel
  ⟨List.take_left' h, List.drop_left' h⟩
theorem signed_any {body sig image pub : List Byte} (n : Nat) (h : hssVerify pub sig body = true) (h1 : image.take n = body) (h2 : image.drop n = sig)
    {o : Option RoleKey} {k : RoleKey} (ho : o = some k) (hk : k.pub = pub) :
    o.any (fun k => hssVerify k.pub (image.drop n) (image.take n)) = true := by
  subst h1 h2 ho hk; exact h
theorem progImage_id : fld (leNat (progImage.take 256)) 48 16 = 0x1000 := by decide +kernel
theorem progSt_audited : auditRec (begun progSt 4 1 (de progDesc)) 0x0300 2 4 0 (0x13 + fld (leNat (progImage.take 256)) 48 16 * 2 ^ 16) = some progAudited :=
  progImage_id.symm ▸ (Option.some_get progSt_audits).symm
theorem progImage_len : fld (leNat (progImage.take 256)) 160 32 = 260 := by decide +kernel
theorem progSt_signed : progSt.trust.installer.any (fun k => hssVerify k.pub (progImage.drop (fld (leNat (progImage.take 256)) 160 32))
    (progImage.take (fld (leNat (progImage.take 256)) 160 32))) = true :=
  signed_any _ (hss_signed progBody) (progImage_len.symm ▸ progImage_body.1) (progImage_len.symm ▸ progImage_body.2) (k := { pub := hssPub progBody }) rfl rfl

/-! Serving state: function 4 has sequence 0 of generation 1 with one sealed block in T0 of port 0 -/
def kvSeq : Seq := { own := { fn := 4, gen := 1 }, gen := 1, maxBlocks := 4, blocks := [0] }
def kvBase : Kv :=
  { committed := true, classes := [(0, { encoding := 1, blockLog2 := 14 })], t0 := [(0, { enable := true, slotLog2 := 14, slots := 8, used := [0] })]
    seqs := [(0, kvSeq)], blocks := [(0, { st := .sealed_, t0 := some 0, t0Valid := true })], nextBlock := 1 }
def clsDesc : Nat := 0x01 + 2 ^ 70 + 14 * 2 ^ 75 + 0x3F * 2 ^ 86 + 0x3F * 2 ^ 92
/-- A command of an opcode on handle 0x01000. -/
def seqDesc (op : Nat) : Nat := op + 4096 * 2 ^ 64
def seqSt (d : Nat) : State := { rs 4 0x14 d with kv := kvBase }
/-- A plan that is not released names block 0. -/
def planSt (d : Nat) : State := { rs 4 0x14 d with kv := { kvBase with plans := [(1, { pins := [0] })] } }
/-- A committed rate of 100 Mb/s with a burst of 9,215 bytes. -/
def rateBad : Nat := 100 * 2 ^ 96 + 9215 * 2 ^ 160
/-- Port 0 with target window 0 over 1 MiB, readable and writable. -/
def winPort : APort := { st := .active, activeSet := [(0x808, 20 + 2 ^ 6 + 2 ^ 7 + 2 ^ 8)] }
def openDesc : Nat := 0x02 + 16 * 2 ^ 256
def openSt : State := { rs 4 0x14 openDesc with kv := { kvBase with seqs := [], blocks := [] }, ports := [(0, winPort)] }
def forkDesc : Nat := seqDesc 3 + 2 ^ 96 + 16 * 2 ^ 256
def forkSt : State := { rs 4 0x14 forkDesc with kv := kvBase, ports := [(0, winPort)] }
def planDesc : Nat := 0x10 + 2 ^ 80
def planData : List Byte := natLE 16 (4096 + 2 ^ 64)
def planStt : State := { rs 4 0x14 planDesc with kv := kvBase, ports := [(0, winPort)] }
def planMid : State :=
  (startGrow 0 (startMove 0 0 ((unorder (begun planStt 4 1 (de planDesc)) (refOf 4 1 (de planDesc))).modKv (fun k => { k with nextPlan := 1, plans := oput k.plans 0 { ref := refOf 4 1 (de planDesc), own := planStt.ownOf 4, pins := [0] } })) (0, 4096, 0)) { handle := 4096, count := 1 })
def cancelSt : State := { rs 4 0x14 0x11 with kv := { plans := [(0, { own := { fn := 4, gen := 1 }, ref := { fn := 4, ring := 1 }, st := .ready })] } }
def readSt : State :=
  { kv := { plans := [(0, { moves := [{ st := .reading 3 }] })], pools := [(0, { kind := 3 })], blocks := [(0, { kc := { t1 := 63, t2 := 63, t3 := 0 }, valid := [3] })] }, sto := { backends := [(0, { remote := true })] } }
def pushSt : State := { kv := { plans := [(0, { deadline := 2 ^ 63, moves := [{ st := .pushing }] })] } }
def pushedSt : State :=
  ((touch (lateNow pushSt 0) 0).modBlk 0 (fun k => { k with t0Valid := true })).modPlan 0 (fun q =>
    { q with moves := q.moves.map (fun m => if m.block = 0 ∧ moveActive m then { m with st := .resident } else m) })
def copySt2 : State :=
  { kv := { pools := [(0, { kind := 3 })], blocks := [(0, { kc := { t1 := 63, t2 := 63, t3 := 0 }, valid := [3] })] }, sto := { backends := [(0, { remote := true })] } }
def copySt : State := { copySt2 with kv := { copySt2.kv with copies := [{ from_ := 3, to_ := 3 }] } }

/-! Checkpoints: the PF1 of endpoint 0 holds a job whose one store lies on a REMOTE backend that is ready -/
def ckKey : KeySlot := { st := .loaded, kind := 2, own := { fn := 4, gen := 1 }, material := List.replicate 64 0#8, pinned := some 0, used := true }
def jobDesc : Nat := 0x01 + 2 ^ 144 + 2 ^ 192
def ckSto : Sto := { backends := [(0, { remote := true, st := .ready, blocks := 8192 })] }
def jobSt : State := { rs 4 0x15 jobDesc with sealing := { slots := [(0, ckKey)] }, sto := ckSto }
def ckJob : CkJob := { gen := 1, stores := [{ blocks := 4096 }] }
def ckSt (d : Nat) : State := { rs 4 0x15 d with sealing := { slots := [(0, ckKey)] }, sto := ckSto, ck := [(0, { job := some ckJob })] }
def takeDesc : Nat := 0x02 + 2 ^ 144
def takeStt : State := ckSt takeDesc
def survSt : State := ckSt 4
def snapSt : State := { ck := [(0, { job := some ckJob, take := some {} })], sto := ckSto }
def cowSt : State :=
  { ck := [(0, { take := some { prot := [0] }, cowBase := [(0, 100)], cowSize := [(0, 1)], committed := true })], cores := [(0, { act := .storing (2 ^ 63) [1] 0 })] }
def capSt : State :=
  { doms := onDoms [8, 32, 84], ck := [(0, { job := some ckJob, take := some { regions := [{ bytes := 64 }], capture := [(0, 0)] } })], sto := ckSto }
def bcmd : BCmd := { op := .write, who := .take 0 0, sent := true }
def bcmdSt : State := { sto := { backends := [(0, { remote := true, st := .ready, cmds := [bcmd] })] } }
def doneSt (m : BCmd) : State :=
  { ck := [(0, { job := some ckJob, take := some {} })], sto := { backends := [(0, { remote := true, st := .ready, cmds := [m] })] } }
def doneSt2 : State :=
  { ck := [(0, { job := some ckJob, take := some {} })], sto := { backends := [(0, { remote := true, st := .ready })] } }

/-! Remote memory -/
def own4 : Own := { fn := 4, gen := 1 }
def mrDesc : Nat := 3 + 2 ^ 254 + 4096 * 2 ^ 256
def qpcDesc : Nat := 5 + 6 * 2 ^ 104 + 6 * 2 ^ 108
def qpSt (d : Nat) : State := { rs 4 0x20 d with rdma := { qps := [(2, { own := own4, ring := 1 })] } }
def pdSt (d : Nat) : State := { rs 4 0x20 d with rdma := { pds := [(0, own4)] } }
def rcQp : Qp := { own := own4, ring := 1, st := .rts, sqLog := 4 }
def sendD : Nat := 0x10 + 2 * 2 ^ 64
def sendSt : State := { rs 4 0x20 sendD with rdma := { qps := [(2, rcQp)] } }
def sendT : State :=
  let b := begun sendSt 4 1 (de sendD)
  pumpSends (touchCtx (b.modQp 2 (fun q => { q with sends := q.sends ++
    [sendWr 0x10 (de sendD).desc.toNat ((ahOf b 4 (fld (de sendD).desc.toNat 224 16)).elim 0 (·.attr)) (refOf 4 1 (de sendD)) (.ok [])] })) 2) 2
def udQp : Qp := { own := own4, ring := 1, type := 1, st := .rts }
def ackQp : Qp := { sends := [{ sent := true }], st := .rts, retryCnt := 1 }
def resQp (st : QpSt) : Qp := { own := own4, st := st, res := .resident }
def pktSt (p : RocePkt) (q : Qp) : State := { rdma := { tiles := [(0, { input := [(0, p)] })], qps := [(2, q)] } }
def udRecv : RecvWr := { len := 64 }
def udMr : Mr := { own := own4, length := 4096, access := 1, host := true }
def udqp : Qp := { resQp .rtr with type := 1, recvs := [udRecv] }
def udSt : State :=
  { fns := [(4, fnOn)], rdma := { tiles := [(0, { input := [(0, { op := 0x64, destQp := 2 })] })], qps := [(2, udqp)], mrs := [(0, udMr)] } }
def udU : State := (withCtx (dropHead udSt 0) 0 2 { op := 0x64, destQp := 2 }).1
def fetchSt : State := { fns := [(4, fnOn)], rdma := { qps := [(2, { own := own4, res := .fetching })] } }

/-! The classifier -/
def graphDesc : Nat := 1 + 260 * 2 ^ 192
def graphSt : State := { rs 4 0x21 graphDesc with trust := { installer := some { pub := hssPub progBody } } }
theorem graphSt_audits : (auditRec (begun graphSt 4 1 (de graphDesc)) 0x0300 2 4 0 (0x21 + (0 + 1) * 2 ^ 16)).isSome = true := by decide +kernel
def graphAudited : State := (auditRec (begun graphSt 4 1 (de graphDesc)) 0x0300 2 4 0 (0x21 + (0 + 1) * 2 ^ 16)).get graphSt_audits
theorem signed_by {pub sig body : List Byte} (h : hssVerify pub sig body = true) {o : Option RoleKey} {k : RoleKey} (ho : o = some k) (hk : k.pub = pub) :
    o.any (fun k => hssVerify k.pub sig body) = true := by
  subst ho hk; exact h
theorem graphSt_signed : graphSt.trust.installer.any (fun k => hssVerify k.pub hssSig progBody) = true :=
  signed_by (hss_signed progBody) (k := { pub := hssPub progBody }) rfl rfl
def set4 : RuleSet := { own := own4, ring := 1, vers := [(0, {})] }
def behindSt : State := { fns := [(4, { fnOn with rings := [(1, rgOf 0x21 10), (2, rgOf 0x21 10)] })] }
def setSt (d : Nat) : State := { rs 4 0x21 d with cls := { sets := [(0, set4)] } }
/-- An LM-400 image of one rule that accepts TCP to port 80. -/
def legacyImg : List Byte := natLE 16 (0x0400A7C1 + 2 ^ 32 + 2 ^ 40) ++ natLE 32 (1 + 3 * 2 ^ 64 + 80 * 2 ^ 96 + 80 * 2 ^ 128)

/-! Queues -/
def txqSt (d : Nat) : State := { rs 4 0x22 d with net := { ports := [(0, { txqs := [(0, { fn := 4, ring := 1 })] })] } }
def rxqSt (d : Nat) : State := { rs 4 0x22 d with net := { ports := [(0, { rxqs := [(0, { fn := 4, ring := 1 })] })] } }
def sendingSt : State := { net := { ifs := [(0, { up := true, sending := some ({}, 0, 0) })] } }

/-! Sealing -/
def gcmKey (st : KeySt) : KeySlot := { kind := 1, own := own4, st := st, counter := if st = .loaded then 1 else 0, pinned := if st = .loaded then some 0 else none, material := if st = .loaded then List.replicate 64 0#8 else [] }
def keySt (st : KeySt) (d : Nat) : State := { rs 4 0x23 d with doms := [(22, { power := 2, service := 1 })], sealing := { slots := [(0, gcmKey st)] } }
/-- An opcode that writes to the function's host memory. -/
def sealD (op : Nat) : Nat := op + 2 ^ 62 * 2 ^ 192
def sealB (op : Nat) : State := begun (keySt .loaded (sealD op)) 4 1 (de (sealD op))
def sealB6 : State := begun (keySt .loaded (sealD 6 + 2 ^ 190)) 4 1 (de (sealD 6 + 2 ^ 190))
def xtsSt : State := { rs 4 0x23 (sealD 7) with doms := [(22, { power := 2, service := 1 })], sealing := { slots := [(0, { gcmKey .loaded with kind := 2 })] } }
def wrapKey : KeySlot := { gcmKey .loaded with kind := 3 }
def ctxD : Nat := sealD 10 + 2 ^ 82
def ctxSt : State := { rs 4 0x23 ctxD with doms := [(22, { power := 2, service := 1 })], sealing := { slots := [(0, gcmKey .loaded), (1, wrapKey)] } }
theorem sealQ_ok : (useCounter (sealB 5) (dSlot (de (sealD 5)).desc.toNat) 0 (gcmKey .loaded)).isSome = true := by decide +kernel
def sealQ : State := (useCounter (sealB 5) (dSlot (de (sealD 5)).desc.toNat) 0 (gcmKey .loaded)).get sealQ_ok
def sealW : State × Nat :=
  wrSpace (countBytes sealQ 0 (dLen (de (sealD 5)).desc.toNat)) 4 (sealDom 0) (dDst (de (sealD 5)).desc.toNat)
    ((gcmSeal (keyOf (gcmKey .loaded)) (nonceOf (gcmKey .loaded) (gcmKey .loaded).counter) [] []).1
      ++ (gcmSeal (keyOf (gcmKey .loaded)) (nonceOf (gcmKey .loaded) (gcmKey .loaded).counter) [] []).2)
theorem ctxQ_ok : (useCounter (begun ctxSt 4 1 (de ctxD)) (fld (de ctxD).desc.toNat 82 18) 0 wrapKey).isSome = true := by decide +kernel
def ctxQ : State := (useCounter (begun ctxSt 4 1 (de ctxD)) (fld (de ctxD).desc.toNat 82 18) 0 wrapKey).get ctxQ_ok
def ctxW : State × Nat :=
  wrSpace ctxQ 4 (sealDom 0) (dDst (de ctxD).desc.toNat)
    (ctxHead (gcmKey .loaded).kind wrapKey.counter
      ++ (gcmSeal (keyOf wrapKey) (nonceOf wrapKey wrapKey.counter) (ctxHead (gcmKey .loaded).kind wrapKey.counter) (ctxClear (gcmKey .loaded))).1
      ++ (gcmSeal (keyOf wrapKey) (nonceOf wrapKey wrapKey.counter) (ctxHead (gcmKey .loaded).kind wrapKey.counter) (ctxClear (gcmKey .loaded))).2)
def rstD : Nat := 11 + 2 ^ 82 + 2 ^ 190
def rstSt : State := { rs 4 0x23 rstD with doms := [(22, { power := 2, service := 1 })], sealing := { slots := [(0, gcmKey .allocated), (1, wrapKey)] } }

/-! NVMe: controller 0 is ready on tile 0, with one command on a queue that has not been taken up -/
def nvmCmd (q sqe : Nat) : NvmCmd := { no := 1, sq := q, sqe := sqe }
def nvmOn (cs : List NvmCmd) : Ctrl :=
  { rdy := true, cc := 1, tile := some 0, cmds := cs, cmdNo := 1, sqs := [(0, { size := 4 }), (1, { size := 4, cq := 1 })], cqs := [(0, { size := 4 }), (1, { size := 4 })] }
def nvmSt (q sqe : Nat) : State :=
  { fns := [(6, fnOn)], doms := onDoms [26], sto := { ctrls := [(0, nvmOn [nvmCmd q sqe])], nss := [(1, { own := own4, blocks := 16, at_ := some (0, 1) })] } }
def nvmU (q sqe : Nat) : State := modCmd (nvmSt q sqe) 0 1 (fun _ => { nvmCmd q sqe with begun := true })

/-! Storage -/
def stackRec : Nat := 2 + 0x40000000 * 2 ^ 64 + 512 * 2 ^ 128
def remoteRec : Nat := 1 + 2 ^ 8 + 16 * 2 ^ 16 + 2 * 2 ^ 32 + 2 * 2 ^ 512 + 3 * 2 ^ 544
def remoteBack : Backend :=
  { own := own4, remote := true, record := natLE 1024 remoteRec, queues := 1, depth := 16, kato := 2, qps := [2, 3], ref := some { fn := 4, ring := 1 } }
def remoteSt (d : Nat) : State := { rs 4 0x30 d with rdma := { qps := [(2, { own := own4, st := .rts }), (3, { own := own4, st := .rts })] } }
def downBack : Backend := { remoteBack with st := .down, ref := none }
def downSt (d : Nat) : State := { remoteSt d with sto := { backends := [(0, downBack)] } }
def kaSt : State := emit ((advanceTo { sto := { backends := [(0, { remoteBack with st := .ready, ref := none })] } } (1000 * msCycles)).modBack 0 (fun k => { k with lastKa := 1000 * msCycles })) (.target 0 0x18 0 0 false [])
def stackBack : Backend := { own := own4, base := 0x40000000, blocks := 512, st := .ready }
def backSt (d : Nat) : State := { rs 4 0x30 d with sto := { backends := [(0, stackBack)] } }
def nsDesc : Nat := 5 + 2 ^ 256 + 2 ^ 338
def attDesc : Nat := 7 + 2 ^ 352
def nsSt (d : Nat) : State := { rs 4 0x30 d with sto := { backends := [(0, stackBack)], nss := [(1, { own := own4, blocks := 16 })] } }

/-! Life cycle: function 4 with orphaned ring pair 1 -/
def adoptBytes : List Byte := natLE 64 (0x13 * 2 ^ 192 + 6 * 2 ^ 200 + 6 * 2 ^ 208)
def adoptSt : State := { fns := [(4, { fnOn with gen := 2, orphan := some { oldGen := 1 }, dirCount := 2, dirCommitted := true, rings := [(1, { st := .orphaned, ent := { kind := 0x13 } })] })] }

/-! Migration: VF 0 of function 4 has rank 8; a WRAP key stands in slot 1. Registers and trust: session 0 is open. -/
def vfSt (d : Nat) (f : Fn) : State :=
  { fns := [(4, { fnOn with numVfs := 1, vfEnable := true, rings := [(1, rgOf 0x50 d)] }), (8, f)], sealing := { slots := [(1, wrapKey)] } }
def saveD : Nat := 2 + 2 ^ 80 + 2 ^ 208 + 2 ^ 62 * 2 ^ 128
def saveB : State := begun (vfSt saveD { fnOn with st := .frozen }) 4 1 (de saveD)
theorem saveB_ok : (useCounter saveB 1 (tileFor saveB (dieOfRing saveB (refOf 4 1 (de saveD))) 1 wrapKey) wrapKey).isSome = true := by decide +kernel
def saveU : State := (useCounter saveB 1 (tileFor saveB (dieOfRing saveB (refOf 4 1 (de saveD))) 1 wrapKey) wrapKey).get saveB_ok
/-- A blob of an endpoint's VF that holds no record. -/
def emptyBlob : List Byte :=
  let head := blobHead 0 88 1
  let c := gcmSeal (keyOf wrapKey) (nonceOf wrapKey 1) head []
  head ++ natLE 8 1 ++ c.1 ++ c.2
def rstorD : Nat := 3 + 2 ^ 80 + 88 * 2 ^ 192
def rstorSt : State := vfSt rstorD { st := .clean }

def openSes (role : Nat) : Session := { opened := true, role := role, key := List.replicate 32 0#8 }
def sesSt (role : Nat) : State := { trust := { sessions := [(0, openSes role)] } }
/-- A sealed message of the client, its first. -/
def sealedMsg (type : Nat) (body : List Byte) : List Byte :=
  let h := msgHead body.length type 0 0
  let c := gcmSeal (List.replicate 32 0#8) (msgNonce 0 0) h body
  h ++ c.1 ++ c.2

/-! Power domains: MOV tiles 8 and 9 in service; tile 8 closing -/
def shutSt : State := { rs 4 0x41 (1 + 8 * 2 ^ 64 + 2 ^ 71) with doms := onDoms [8, 9] }
def reopSt : State := { rs 4 0x41 (2 + 8 * 2 ^ 64) with doms := [(8, { power := 2, service := 2, act := some {} })] }

/-- A start that has reached stage k. -/
def bootSt (k : Nat) : State := { power := { romDone := true, started := true, stage := k }, fw := upFw, cores := [(64, { act := .running })] }

/-! Sessions: an OPEN of the installer's with the signature whose key `hssPub` gives, and an unclaimed module's CLAIM -/
def helloHead : List Byte := msgHead 1649 2 0 0 ++ (natLE 1 1 ++ List.replicate 32 0#8)
def helloMsg : List Byte := helloHead ++ hssSig
def helloSt : State := { trust := { installer := some { pub := hssPub (List.replicate 32 0#8) }, sessions := [(0, {})] } }
theorem helloMsg_head : (33 ≤ helloMsg.length - 12 ∧ helloMsg.length - 12 ≤ 4096) ∧ fld (leNat (helloMsg.take 12)) 0 16 = helloMsg.length - 12
    ∧ fld (leNat (helloMsg.take 12)) 16 8 = 0x02 ∧ fld (leNat (helloMsg.take 12)) 24 72 = 0 := by decide +kernel
theorem helloMsg_role : 1 = leNat ((helloMsg.drop 12).take 1) ∧ List.replicate 32 0#8 = sliceB (helloMsg.drop 12) 1 32 := by decide +kernel
theorem openKey_installer {s : State} {pub sig msg : List Byte} {k : RoleKey} (h : s.trust.installer = some k) :
    openKey s 1 pub sig msg = if hssVerify k.pub sig msg then some k.mgmt else none := by simp only [openKey, h, Option.bind_some]
theorem hello_open : openKey helloSt 1 [] (helloMsg.drop 45) (({} : Session).challenge ++ List.replicate 32 0#8) = some [] := by
  have h : helloMsg.drop 45 = hssSig := List.drop_left' (by decide +kernel)
  rw [h, openKey_installer (k := { pub := hssPub (List.replicate 32 0#8) }) rfl]
  exact if_pos (hss_signed (List.replicate 32 0#8))
def claimBody : List Byte := natLE 93 1
def claimMsg : List Byte := msgHead 93 0x10 0 0 ++ claimBody

/-! Firmware commands of ring pairs, and the states in which they are audited -/
def stageD : Nat := 1 + 4096 * 2 ^ 128
def stageU : State := noteDone (begun (rs 4 0x42 stageD) 4 1 (de stageD)) 4 0x42 0 1
theorem stageU_audits : (auditRec stageU 0x4201 2 4 (stageEff {} stageU).2.1 0).isSome = true := by decide +kernel
def stageT : State := (auditRec stageU 0x4201 2 4 (stageEff {} stageU).2.1 0).get stageU_audits
theorem pair_of {A B : Type} {a : A × B} {x : A} (h : a.1 = x) : a = (x, a.2) := by subst h; rfl
theorem rd_4096 : rdHost (rs 4 0x42 stageD) 4 (fld (de stageD).desc.toNat 128 32) (.ok []) = (0, (rdHost (rs 4 0x42 stageD) 4 (fld (de stageD).desc.toNat 128 32) (.ok [])).2) :=
  pair_of (by decide +kernel)
def actSt : State := { rs 4 0x42 2 with trust := { sets := [(0, { factory := true }), (1, { factory := true })], staged := true } }
def actU : State := noteDone (begun actSt 4 1 (de 2)) 4 0x42 0 (2 + b2n (bitAt (de 2).desc.toNat 160) * 4)
theorem actU_audits : (auditRec actU 0x4202 2 4 0 0).isSome = true := by decide +kernel
def actT : State := (auditRec actU 0x4202 2 4 0 0).get actU_audits
def actV : State := (activateEff (.ring (refOf 4 1 (de 2))) false actT).1
theorem actV_eq : activateEff (.ring (refOf 4 1 (de 2))) (bitAt (de 2).desc.toNat 160) actT = (actV, none) := by
  have h : (activateEff (.ring (refOf 4 1 (de 2))) false actT).2 = none := by decide +kernel
  have h2 : bitAt (de 2).desc.toNat 160 = false := by decide +kernel
  rw [h2]; exact Prod.ext rfl h
theorem actN_audits : (auditRec (noteDone (begun (rs 4 0x42 2) 4 1 (de 2)) 4 0x42 0 (2 + b2n (bitAt (de 2).desc.toNat 160) * 4)) 0x4202 2 4 0x84 0).isSome = true := by decide +kernel
def actN : State := (auditRec (noteDone (begun (rs 4 0x42 2) 4 1 (de 2)) 4 0x42 0 (2 + b2n (bitAt (de 2).desc.toNat 160) * 4)) 0x4202 2 4 0x84 0).get actN_audits
theorem actN_eq : activateEff (.ring (refOf 4 1 (de 2))) (bitAt (de 2).desc.toNat 160) actN = (actN, some 0x84) := by
  have h1 : actN.trust.act.isSome = false := by decide +kernel
  have h2 : (actN.trust.staged && setGood actN (1 - actN.trust.activeSet)) = false := by decide +kernel
  simp only [activateEff, h1, h2, Bool.false_eq_true, if_false]
theorem cnfT_audits : (auditRec (noteDone (begun (rs 4 0x42 3) 4 1 (de 3)) 4 0x42 0 3) 0x4203 2 4 (confirmEff (noteDone (begun (rs 4 0x42 3) 4 1 (de 3)) 4 0x42 0 3)).2.1 0).isSome = true := by decide +kernel
def cnfT : State := (auditRec (noteDone (begun (rs 4 0x42 3) 4 1 (de 3)) 4 0x42 0 3) 0x4203 2 4 (confirmEff (noteDone (begun (rs 4 0x42 3) 4 1 (de 3)) 4 0x42 0 3)).2.1 0).get cnfT_audits
def doeSt : State := { fns := [(1, fnOn)], trust := { leafEnd := 1024 } }
def doeT : State := (takeLeaf doeSt).1
def replaceSt : State :=
  { upSt (3, {}) with trust := { sets := [(0, { factory := true, comps := [{ id := 3 }] })], act := some { from_ := .ring {}, todo := [3] } } }

/-! Alive monitor 0 on core 0 -/
def monSt : State := { wx := { mons := [(0, { enable := true, source := 1 })] }, doms := onDoms [30] }
def monW : State := monSt.modMon 0 (fun m => { m with nextAt := m.period * 400 })

end Sys2Proof.Tests
end

