-- ==== Sys2Proof/Tests/Roots.lean ====
section
/-!
SUPPORT. A root block that a take writes reads back as valid, and with it a restore whose checks are all met.
-/
namespace Sys2Proof.Tests
open Sys2Proof.Machine
set_option Elab.async false

theorem natLE_length : ∀ k n, (natLE k n).length = k
  | 0, _ => rfl
  | k + 1, n => by simp [natLE, natLE_length k]

theorem leNat_natLE : ∀ k n, leNat (natLE k n) = n % 256 ^ k
  | 0, n => by simp [natLE, leNat, Nat.mod_one]
  | k + 1, n => by
    simp only [natLE, leNat, leNat_natLE k, BitVec.toNat_ofNat]
    rw [show n % 2 ^ 8 = n % 256 by rfl, show (256 : Nat) ^ (k + 1) = 256 * 256 ^ k by rw [Nat.pow_succ, Nat.mul_comm], Nat.mod_mul]

theorem leNat_append : ∀ a b : List Byte, leNat (a ++ b) = leNat a + 256 ^ a.length * leNat b
  | [], b => by simp [leNat]
  | x :: a, b => by
    simp only [List.cons_append, leNat, leNat_append a b, List.length_cons, Nat.pow_succ]
    rw [Nat.mul_add, Nat.add_assoc, ← Nat.mul_assoc, Nat.mul_comm 256 (256 ^ a.length)]

/-- Bytes above a field do not change it. -/
theorem fld_low (a c k i n : Nat) (h : i + n ≤ k) : fld (a + 2 ^ k * c) i n = fld a i n := by
  obtain ⟨m, rfl⟩ := Nat.exists_eq_add_of_le h
  simp only [fld]
  rw [Nat.pow_add, Nat.pow_add, Nat.mul_assoc, Nat.mul_assoc, Nat.add_mul_div_left _ _ (by positivity), Nat.add_mul_mod_self_left]

theorem crcBit_lt {p c : Nat} (hp : p < 2 ^ 32) (hc : c < 2 ^ 32) : crcBit p c < 2 ^ 32 := by
  unfold crcBit
  split
  · exact Nat.xor_lt_two_pow (by omega) hp
  · omega

theorem crcByte_lt {p c : Nat} (b : Byte) (hp : p < 2 ^ 32) (hc : c < 2 ^ 32) : crcByteR p c b < 2 ^ 32 := by
  unfold crcByteR
  have hb : b.toNat < 2 ^ 32 := by have := b.isLt; omega
  exact crcBit_lt hp (crcBit_lt hp (crcBit_lt hp (crcBit_lt hp (crcBit_lt hp (crcBit_lt hp (crcBit_lt hp (crcBit_lt hp (Nat.xor_lt_two_pow hc hb))))))))

theorem crcFold_lt {p : Nat} (hp : p < 2 ^ 32) : ∀ (bs : List Byte) (c : Nat), c < 2 ^ 32 → bs.foldl (crcByteR p) c < 2 ^ 32
  | [], _, h => h
  | b :: r, _, h => crcFold_lt hp r _ (crcByte_lt b hp h)

theorem crc32c_lt (bs : List Byte) : crc32c bs < 2 ^ 32 :=
  Nat.xor_lt_two_pow (crcFold_lt (by decide) bs _ (by decide)) (by decide)

theorem pow256 (m : Nat) : (256 : Nat) ^ m = 2 ^ (8 * m) := by rw [Nat.pow_mul]

/-- A number's 4,092 bytes and their CRC. -/
def sealedBlock (v : Nat) : List Byte := natLE 4092 v ++ natLE 4 (crc32c (natLE 4092 v))

theorem sealedBlock_crc (v : Nat) : leNat ((sealedBlock v).drop 4092) = crc32c ((sealedBlock v).take 4092) := by
  rw [sealedBlock, List.drop_left' (natLE_length _ _), List.take_left' (natLE_length _ _), leNat_natLE]
  exact Nat.mod_eq_of_lt (by have := crc32c_lt (natLE 4092 v); omega)

theorem sealedBlock_fld (v i n : Nat) (hv : v < 256 ^ 4092) (h : i + n ≤ 8 * 4092) : fld (leNat (sealedBlock v)) i n = fld v i n := by
  rw [sealedBlock, leNat_append, leNat_natLE, natLE_length, Nat.mod_eq_of_lt hv, pow256]
  exact fld_low _ _ _ _ _ h

/-- The root of job 0, epoch 0, step 0 and commit_seq 1, with an empty extent table. -/
def rootNum : Nat := 0x09600C4B + 2 ^ 32 + 2 ^ 192
def rootVal : Nat := leNat (sealedBlock rootNum)

theorem rootNum_lt : rootNum < 256 ^ 4092 := by
  rw [pow256]
  exact Nat.lt_of_lt_of_le (show rootNum < 2 ^ 200 by decide) (Nat.pow_le_pow_right (by decide) (by decide))

theorem rootVal_fld (i n : Nat) (h : i + n ≤ 8 * 4092) : fld rootVal i n = fld rootNum i n := sealedBlock_fld _ _ _ rootNum_lt h

theorem rootOf_root (j : CkJob) (h : j.jobId = 0) : rootOf j (sealedBlock rootNum) = some rootVal := by
  have a : fld rootVal 0 32 = 0x09600C4B ∧ fld rootVal 32 8 = 1 ∧ fld rootVal 64 64 = j.jobId ∧ leNat ((sealedBlock rootNum).drop 4092) = crc32c ((sealedBlock rootNum).take 4092) := by
    rw [rootVal_fld _ _ (by decide), rootVal_fld _ _ (by decide), rootVal_fld _ _ (by decide), h]
    exact ⟨by decide, by decide, by decide, sealedBlock_crc _⟩
  unfold rootOf
  exact if_pos a

/-! Reads of a store under the key of slot 0 -/
def mat0 : List Byte := List.replicate 64 0#8
theorem keys0 : Keys15 (roundKeys (ofBs (mat0.take 32))) := by decide +kernel

/-- Blocks of the store as their key seals them. -/
def sealedAt (block : Nat) (pt : List Byte) : List Byte := xts true 4096 block mat0 pt
/-- A read of the store of backend 0 has been sent, and its blocks opened on tile 0. -/
def didRead (s : State) (block n : Nat) : State :=
  let u := emit s (.target 0 0x02 block n false [])
  countBytes (u.putSlot 0 ckKey) 0 (4096 * n)
def restStore : CkStore := { blocks := 4096 }

theorem fitB_full {bs : List Byte} {n : Nat} (h : bs.length = n) : fitB bs n = bs := by
  rw [fitB]; exact List.take_left' h

/-- What a read of a ready REMOTE store gives: the plaintext that was sealed there. -/
theorem rdStore_sealed {s : State} {rest : List BRead} {k : Backend} (block n : Nat) {pt : List Byte}
    (h1 : oget s.sto.backends 0 = some k) (h2 : k.remote = true) (h3 : k.st = .ready) (h4 : s.slot 0 = some ckKey) (hl : pt.length = 4096 * n) :
    rdStore (s, .ok (sealedAt block pt) :: rest) 0 restStore block n = ((didRead s block n, rest), 0, pt) := by
  obtain ⟨back, len⟩ := xts_back (material := mat0) (m := 256) (bs := pt) block (by decide) keys0 (by rw [hl]; exact Nat.mul_mod_right _ _)
  have len' : (sealedAt block pt).length = 4096 * n := by rw [sealedAt]; exact len.trans hl
  have h6 : (emit s (.target 0 0x02 block n false [])).sealing = s.sealing := by simp only [emit]; split <;> rfl
  have h7 : (emit s (.target 0 0x02 block n false [])).slot 0 = some ckKey := by simp only [State.slot, h6] at h4 ⊢; exact h4
  have c : openStore (emit s (.target 0 0x02 block n false [])) 0 block (sealedAt block pt) = (didRead s block n, 0, pt) := by
    simp only [openStore, storeCrypt, cryptBlocks, h7]
    rw [if_neg (show ¬ ckKey.st ≠ .loaded from fun h => h rfl), len']
    show ((_, 0, xts false 4096 block mat0 (sealedAt block pt)) : State × Nat × List Byte) = _
    rw [sealedAt]
    exact congrArg (fun x => ((didRead s block n, 0, x) : State × Nat × List Byte)) back
  simp only [rdStore, h1, h2, h3, ne_eq, not_true_eq_false, if_false, Bool.not_true, Bool.false_eq_true, fitB_full len', Nat.zero_add, c,
    show restStore.backend = 0 from rfl, show restStore.first = 0 from rfl]

theorem zero_length : (List.replicate 4096 0#8).length = 4096 * 1 := by rw [List.length_replicate]
theorem rootOf_zero : rootOf ckJob (List.replicate 4096 0#8) = none := by decide +kernel
def noRoots : List BRead := [.ok (sealedAt 0 (List.replicate 4096 0#8)), .ok (sealedAt 1 (List.replicate 4096 0#8))]
/-- Both root slots of the store have been read. -/
def readBoth (d : Nat) : State := didRead (didRead (begun (ckSt d) 4 1 (de d)) 0 1) 1 1
def ckBack : Backend := { remote := true, st := .ready, blocks := 8192 }

/-- Two root slots that hold zeros hold no root. -/
theorem roots_none {s : State} (h1 : oget s.sto.backends 0 = some ckBack) (h2 : s.slot 0 = some ckKey)
    (h3 : oget (didRead s 0 1).sto.backends 0 = some ckBack) (h4 : (didRead s 0 1).slot 0 = some ckKey) :
    rdRoots (s, noRoots) ckJob restStore = ((didRead (didRead s 0 1) 1 1, []), 0, []) := by
  unfold rdRoots noRoots
  rw [show ckJob.key = 0 from rfl, rdStore_sealed 0 1 h1 rfl rfl h2 zero_length]
  simp only [ne_eq, not_true_eq_false, if_false]
  rw [rdStore_sealed 1 1 h3 rfl rfl h4 zero_length]
  simp only [not_true_eq_false, if_false, rootOf_zero]
  rfl

def takeRd : State := readBoth takeDesc
def takeRd4 : State := readBoth 4
theorem take_roots : rdRoots (begun takeStt 4 1 (de takeDesc), noRoots) ckJob restStore = ((takeRd, []), 0, []) :=
  roots_none (by decide +kernel) (by decide +kernel) (by decide +kernel) (by decide +kernel)
theorem surv_roots : rdRoots (begun survSt 4 1 (de 4), noRoots) ckJob restStore = ((takeRd4, []), 0, []) :=
  roots_none (by decide +kernel) (by decide +kernel) (by decide +kernel) (by decide +kernel)

/-! A restore of CONFIG from that root -/
def restDesc : Nat := 0x05 + 2 ^ 96
def restSt : State := ckSt restDesc
def restB : State := begun restSt 4 1 (de restDesc)
def restAns : List BRead := [.ok (sealedAt 0 (sealedBlock rootNum)), .ok (sealedAt 1 (List.replicate 4096 0#8)), .ok (sealedAt 0 [])]
def restQ : Rd := (readBoth restDesc, [.ok (sealedAt 0 [])])

theorem sealedBlock_length : (sealedBlock rootNum).length = 4096 * 1 := by rw [sealedBlock, List.length_append, natLE_length, natLE_length]

theorem rest_roots : rdRoots (restB, restAns) ckJob restStore = (restQ, 0, [(0, rootVal)]) := by
  unfold rdRoots restAns
  rw [show ckJob.key = 0 from rfl, rdStore_sealed (k := ckBack) 0 1 (by decide +kernel) rfl rfl (by decide +kernel) sealedBlock_length]
  simp only [ne_eq, not_true_eq_false, if_false]
  rw [rdStore_sealed (k := ckBack) 1 1 (by decide +kernel) rfl rfl (by decide +kernel) zero_length]
  simp only [not_true_eq_false, if_false, rootOf_zero, rootOf_root ckJob rfl]
  rfl

theorem restD : fld (de restDesc).desc.toNat 64 16 = 0 ∧ fld (de restDesc).desc.toNat 80 16 = 0 ∧ fld (de restDesc).desc.toNat 128 64 = 0
    ∧ fld (de restDesc).desc.toNat 96 3 = 1 ∧ fld (de restDesc).desc.toNat 256 16 = 0 ∧ epOf 4 = 0 := by decide +kernel

def restX1 : Rest := { s := restQ.1.modCk 0 (fun c => { c with job := some { ckJob with pair := some (0, 0) } }), ans := restQ.2 }
def restP : Rd := (didRead restX1.s 0 0, [])
def restX2 : Rest := { restX1.rd restP with status := 0 }
def restX5 : Rest := restX2.go (restConfig 4 [])

theorem rest_table : rdTable (restX1.s, restX1.ans) ckJob restStore rootVal = (restP, 0, []) := by
  have hn : fld rootVal 448 32 = 0 := by rw [rootVal_fld _ _ (by decide)]; decide
  have hb : fld rootVal 384 64 = 0 := by rw [rootVal_fld _ _ (by decide)]; decide
  have h := rdStore_sealed (s := restX1.s) (rest := []) (k := ckBack) (pt := []) 0 0 (by decide +kernel) rfl rfl (by decide +kernel) rfl
  simp only [rdTable]
  rw [hn, hb, show restX1.ans = [.ok (sealedAt 0 [])] from rfl, show ckJob.key = 0 from rfl, h]
  rfl

theorem find_zero (v : Nat) (h1 : rEpoch v = 0) (h2 : rStep v = 0) :
    [(0, v)].find? (fun x => rEpoch x.2 == 0 && rStep x.2 == 0) = some (0, v) := by
  simp [List.find?_cons, h1, h2]

theorem rest_find : [(0, rootVal)].find? (fun x => rEpoch x.2 == 0 && rStep x.2 == 0) = some (0, rootVal) := by
  have h1 : rEpoch rootVal = 0 := by unfold rEpoch; rw [rootVal_fld _ _ (by decide)]; decide
  have h2 : rStep rootVal = 0 := by unfold rStep; rw [rootVal_fld _ _ (by decide)]; decide
  exact find_zero rootVal h1 h2

theorem restX5_status : restX5.status = 0 := by decide +kernel

end Sys2Proof.Tests
end

