-- ==== Sys2Proof/Tests/MeetsA.lean ====
section
/-!
SUPPORT. Concrete states and operands that meet the hypotheses of each clause together: rings, the fabric, reduction and cores.
-/
set_option Elab.async false
set_option linter.unusedVariables false
namespace Sys2Proof.Tests
open Sys2Proof Sys2Proof.Machine

theorem test_meets_StepTakesTheFrontCommand_idle : ∃ (s : State),
    (s.pending = []) :=
  ⟨s1, by decide +kernel⟩
theorem test_meets_StepKeepsTheInvariant_step : ∃ (s t : State),
    (StateInv s)
    ∧ (step s = .next t) :=
  ⟨s1, { s1 with vcycle := s1.vcycle + 1 }, by unfold StateInv; decide +kernel, rfl⟩
theorem test_meets_CompletionsTouchTheirFunctionAlone_others : ∃ (s : State) (ref : DRef) (st res spec r : Nat),
    (r ≠ ref.fn) :=
  ⟨s1, { fn := 4, ring := 1 }, 0, 0, 0, 5, by decide +kernel⟩
theorem test_meets_CompletionsTouchTheirFunctionAlone_stale : ∃ (s : State) (r i : Nat) (c : Cpl),
    (c.gen ≠ (s.fn r).gen) :=
  ⟨st1, 4, 1, { gen := 7 }, by decide +kernel⟩
theorem test_meets_CommandsWaitBehindASharedWrite_functions : ∃ (fn a b d w : Nat) (x y z : Bool) (hr : HRead) (hs : List HRead) (space : RegSpace) (v32 : BitVec 32) (v64 : BitVec 64) (c : Instr) (s : State),
    (c ∈ [.registerWrite fn space a w v64, .ringDirCommit fn, .ringDirUnlock fn, .loadEntry fn a, .disableEntry fn a, .evCommit fn v32, .evUnlock fn, .leasePeriodWrite fn v32, .portEnable fn a, .portDisable fn a, .portRetrain fn a, .pwCommit fn v32, .afGateCommit fn a, .vcCreditsWrite fn a v32, .ckSetCommit fn, .ckSetUnlock fn, .rdmaSetCommit fn, .rdmaSetUnlock fn, .schGateCommit fn a, .breakoutWrite fn a b]
    ∨ c ∈ [.sqTailDoorbell fn a b hr, .cqHeadDoorbell fn a b, .ccEnSet fn a, .ccEnClear fn x, .nvmeShutdown fn a, .functionEnable fn, .functionShutdown fn x y z, .orphanAdopt fn hs, .orphanDiscard fn, .vfQuotaWrite fn a x v64, .msixUnmask fn a, .intxPendingClear fn a v64, .cvArm fn a v32, .cvDisarm fn a v32]
    ∨ c = .doorbell fn a b d v64)
    ∧ (heldBack s fn 0 = true ∧ ∀ k, space ≠ .csr k) :=
  ⟨4, 1, 0, 0, 0, true, true, true, .timeout, [], .nvme, 0, 0, .ringDirCommit 4, { transom := { held := [{ rank := 4 }] } }, by simp, by decide +kernel, by intro k h; cases h⟩
theorem test_meets_CommandsWaitBehindASharedWrite_sessions : ∃ (n : Nat) (msg : List Byte) (c : Instr) (s : State),
    (c ∈ [.regRead n msg, .claim n msg, .release n msg, .installerKey n msg, .operatorKey n msg, .policy n msg, .consent n msg, .debugUnlock n msg])
    ∧ (waitsS s n = true) :=
  ⟨1, [], .claim 1 [], { transom := { held := [{ rank := 0, session := 1 }] } }, by simp, by decide +kernel⟩
theorem test_meets_ContradictingSharedWritesAreSettledByRank_oneMaster : ∃ (a b : Held),
    (sameCtl a b = true ∧ sameMast a b = true ∧ sameCtl b a = true ∧ sameMast b a = true) :=
  ⟨{ rank := 4, cap := 0x11, off := 4, value := 1 }, { rank := 4, cap := 0x11, off := 4, value := 2 }, by decide +kernel⟩
theorem test_meets_ContradictingSharedWritesAreSettledByRank_ranks : ∃ (a b : Held),
    (sameCtl a b = true ∧ sameCtl b a = true ∧ sameMast a b = false ∧ sameMast b a = false)
    ∧ (a.value ≠ b.value) :=
  ⟨{ rank := 0, session := 1, cap := 0x11, off := 4, value := 1 }, { rank := 0, session := 2, cap := 0x11, off := 4, value := 2 }, by decide +kernel⟩
theorem test_meets_ContradictingSharedWritesAreSettledByRank_equalValues : ∃ (a b : Held),
    (sameCtl a b = true ∧ sameCtl b a = true ∧ sameMast a b = false ∧ sameMast b a = false)
    ∧ (a.value = b.value) :=
  ⟨{ rank := 1, cap := 0x11, off := 4, value := 2 }, { rank := 2, cap := 0x11, off := 4, value := 2 }, by decide +kernel⟩
theorem test_meets_ContradictingSharedWritesAreSettledByRank_lost : ∃ (hs : List (Nat × Held)) (x : Nat × Held) (w : Nat) (s : State),
    (fateOf hs x = .lost w) :=
  ⟨numbered [{ rank := 1, value := 1 }, { rank := 2, value := 2 }], (1, { rank := 2, value := 2 }), 1, s1, by decide +kernel⟩
theorem test_meets_RingDirectoryActionsComplete_ringDirCommit : ∃ (fn : Nat) (s : State),
    (heldBack s fn 0 = false)
    ∧ (present s fn = true)
    ∧ (hasRings fn = true)
    ∧ ((s.fn fn).dirBusy = false)
    ∧ ((s.fn fn).st ≠ .draining)
    ∧ ((s.fn fn).dirCommitted = false)
    ∧ (0 < (s.fn fn).dirCount)
    ∧ ((s.fn fn).dirCount ≤ maxRings s fn)
    ∧ (orphanCover s fn ≤ (s.fn fn).dirCount) :=
  ⟨4, { st1 with fns := [(4, { fnOn with dirCount := 256 })] }, by decide +kernel⟩
theorem test_meets_RingDirectoryActionsComplete_ringDirUnlock : ∃ (fn : Nat) (s : State),
    (heldBack s fn 0 = false)
    ∧ (present s fn = true)
    ∧ (hasRings fn = true)
    ∧ ((s.fn fn).dirBusy = false)
    ∧ ((s.fn fn).st ≠ .draining)
    ∧ ((s.fn fn).dirCommitted = true)
    ∧ ((s.fn fn).rings.any (fun q => q.1 != 0 && q.2.st != .disabled) = false) :=
  ⟨4, { st1 with fns := [(4, { fnOn with dirCount := 2, dirCommitted := true, rings := [(0, { st := .enabled })] })] }, by decide +kernel⟩
theorem test_meets_RingDirectoryActionsComplete_loadEntry : ∃ (fn index : Nat) (s : State),
    (heldBack s fn 0 = false)
    ∧ (present s fn = true)
    ∧ (hasRings fn = true)
    ∧ ((s.fn fn).dirBusy = false)
    ∧ ((s.fn fn).st ≠ .draining)
    ∧ ((s.fn fn).dirCommitted = true)
    ∧ (0 < index)
    ∧ (index < (s.fn fn).dirCount)
    ∧ ((s.ring fn index).st = .disabled) :=
  ⟨4, 255, { st1 with fns := [(4, { fnOn with dirCount := 256, dirCommitted := true })] }, by decide +kernel⟩
theorem test_meets_RingDirectoryActionsComplete_disableEntry_enabled : ∃ (fn index : Nat) (s : State),
    (heldBack s fn 0 = false)
    ∧ (present s fn = true)
    ∧ (hasRings fn = true)
    ∧ ((s.fn fn).dirBusy = false)
    ∧ ((s.fn fn).st ≠ .draining)
    ∧ ((s.fn fn).dirCommitted = true)
    ∧ (0 < index)
    ∧ (index < (s.fn fn).dirCount) :=
  ⟨4, 1, { st1 with fns := [(4, { fnOn with dirCount := 2, dirCommitted := true, rings := [(1, { st := .enabled })] })] }, by decide +kernel⟩
theorem test_meets_RingDirectoryActionsComplete_draining : ∃ (fn : Nat) (s : State),
    (heldBack s fn 0 = false)
    ∧ (present s fn = true)
    ∧ (hasRings fn = true)
    ∧ ((s.fn fn).dirBusy = false)
    ∧ ((s.fn fn).st = .draining) :=
  ⟨4, { st1 with fns := [(4, { fnOn with st := .draining })] }, by decide +kernel⟩
theorem test_meets_RingDirectoryActionsComplete_directoryReadReturn_commit : ∃ (fn : Nat) (bs : List Byte) (a : DirAct) (s t : State),
    ((s.fn fn).dirAct = some a)
    ∧ (a.load = false)
    ∧ (a.bad = none)
    ∧ (a.index + 1 = a.count)
    ∧ (entryOk s fn a.index bs = true)
    ∧ (loadAll s fn 0 (a.read ++ [parseEntry bs]) = some t) :=
  ⟨4, natLE 64 (0x03 * 2 ^ 192), { count := 1 }, { fns := [(4, { fnOn with dirAct := some { count := 1 } })] }, { fns := [(4, { fnOn with dirAct := some { count := 1 } })] }, by decide +kernel⟩
theorem test_meets_RingDirectoryActionsComplete_directoryReadReturn_load : ∃ (fn : Nat) (bs : List Byte) (a : DirAct) (s t : State),
    ((s.fn fn).dirAct = some a)
    ∧ (a.load = true)
    ∧ (entryOk s fn a.index bs = true)
    ∧ (loadRing s fn a.index (parseEntry bs) = some t) :=
  ⟨4, natLE 64 (0x13 * 2 ^ 192 + 6 * 2 ^ 200 + 6 * 2 ^ 208), { load := true, index := 1 }, { fns := [(4, { fnOn with dirAct := some { load := true, index := 1 } })] }, ({ fns := [(4, { fnOn with dirAct := some { load := true, index := 1 } })] } : State).modRing 4 1 (fun _ => { ent := { kind := 0x13, sqOrder := 6, cqOrder := 6 } }), by decide +kernel⟩
theorem test_meets_RingDirectoryActionsComplete_directoryReadReturn_bad : ∃ (fn : Nat) (bs : List Byte) (a : DirAct) (s : State),
    ((s.fn fn).dirAct = some a)
    ∧ (a.load = true)
    ∧ (entryOk s fn a.index bs = false) :=
  ⟨4, [], { load := true, index := 1 }, { fns := [(4, { fnOn with dirAct := some { load := true, index := 1 } })] }, by decide +kernel⟩
theorem test_meets_DoorbellsAreTakenOrDiscarded_doorbell_submit : ∃ (fn page : Nat) (word : BitVec 64) (s : State),
    (heldBack s fn 0 = false)
    ∧ (present s fn = true)
    ∧ (page < doorbellPages fn)
    ∧ (page ≠ 0)
    ∧ (dmaOn (s.fn fn) = true)
    ∧ ((s.fn fn).gen ≠ 0)
    ∧ (fld word.toNat 24 16 = (s.fn fn).gen)
    ∧ (fld word.toNat 48 16 = 0)
    ∧ (fld word.toNat 40 8 = (s.ring fn page).ent.kind)
    ∧ ((s.ring fn page).ent.kind ≠ 0x03 ∧ (s.ring fn page).ent.kind < 0xFE)
    ∧ (dist24 (fld word.toNat 0 24) (s.ring fn page).cons ≤ 2 ^ (s.ring fn page).ent.sqOrder)
    ∧ ((s.ring fn page).st = .enabled) :=
  ⟨4, 1, (64 + 0x1000000 + 0x130000000000 : Nat), rs 4 0x13 0, by decide +kernel⟩
theorem test_meets_DoorbellsAreTakenOrDiscarded_doorbell_held : ∃ (fn page : Nat) (word : BitVec 64) (s : State),
    (heldBack s fn 0 = false)
    ∧ (present s fn = true)
    ∧ (page < doorbellPages fn)
    ∧ (page ≠ 0)
    ∧ (dmaOn (s.fn fn) = true)
    ∧ ((s.fn fn).gen ≠ 0)
    ∧ (fld word.toNat 24 16 = (s.fn fn).gen)
    ∧ (fld word.toNat 48 16 = 0)
    ∧ (fld word.toNat 40 8 = (s.ring fn page).ent.kind)
    ∧ ((s.ring fn page).ent.kind ≠ 0x03 ∧ (s.ring fn page).ent.kind < 0xFE)
    ∧ (dist24 (fld word.toNat 0 24) (s.ring fn page).cons ≤ 2 ^ (s.ring fn page).ent.sqOrder)
    ∧ ((s.ring fn page).st = .held) :=
  ⟨4, 1, (0x1000000 + 0x130000000000 : Nat), { fns := [(4, { fnOn with rings := [(1, { rgOf 0x13 0 with st := .held, cons := 0 })] })] }, by decide +kernel⟩
theorem test_meets_DoorbellsAreTakenOrDiscarded_doorbell_release : ∃ (fn page : Nat) (word : BitVec 64) (s : State),
    (heldBack s fn 0 = false)
    ∧ (present s fn = true)
    ∧ (page < doorbellPages fn)
    ∧ (page ≠ 0)
    ∧ (dmaOn (s.fn fn) = true)
    ∧ ((s.fn fn).gen ≠ 0)
    ∧ (fld word.toNat 24 16 = (s.fn fn).gen)
    ∧ (fld word.toNat 48 16 = 0)
    ∧ (fld word.toNat 40 8 = 0xFE)
    ∧ ((s.ring fn page).st = .enabled ∨ (s.ring fn page).st = .held ∨ (s.ring fn page).st = .draining ∨ (s.ring fn page).st = .error)
    ∧ (dist24 (fld word.toNat 0 24) (s.ring fn page).cqR ≤ dist24 (s.ring fn page).cqW (s.ring fn page).cqR) :=
  ⟨4, 1, (64 + 0x1000000 + 0xFE0000000000 : Nat), { fns := [(4, { fnOn with rings := [(1, { rgOf 0x13 0 with cqW := 64 })] })] }, by decide +kernel⟩
theorem test_meets_DoorbellsAreTakenOrDiscarded_doorbell_lease : ∃ (fn : Nat) (word : BitVec 64) (s : State),
    (heldBack s fn 0 = false)
    ∧ (present s fn = true)
    ∧ (0 < doorbellPages fn)
    ∧ (dmaOn (s.fn fn) = true)
    ∧ ((s.fn fn).gen ≠ 0)
    ∧ (fld word.toNat 24 16 = (s.fn fn).gen)
    ∧ (fld word.toNat 48 16 = 0)
    ∧ (fld word.toNat 40 8 = 0xFF)
    ∧ (fld word.toNat 0 24 = 0) :=
  ⟨4, (0x1000000 + 0xFF0000000000 : Nat), st1, by decide +kernel⟩
theorem test_meets_DoorbellsAreTakenOrDiscarded_doorbell_events : ∃ (fn : Nat) (word : BitVec 64) (s : State),
    (heldBack s fn 0 = false)
    ∧ (present s fn = true)
    ∧ (0 < doorbellPages fn)
    ∧ (dmaOn (s.fn fn) = true)
    ∧ ((s.fn fn).gen ≠ 0)
    ∧ (fld word.toNat 24 16 = (s.fn fn).gen)
    ∧ (fld word.toNat 48 16 = 0)
    ∧ (fld word.toNat 40 8 = 0xFE)
    ∧ (evOn s fn = true)
    ∧ (evReleaseOk (s.fn fn) (fld word.toNat 0 24) = true) :=
  ⟨4, (64 + 0x1000000 + 0xFE0000000000 : Nat), { fns := [(4, { fnOn with evW := 64, evOrder := 6, rings := [(0, { st := .enabled })] })] }, by decide +kernel⟩
theorem test_meets_DoorbellsAreTakenOrDiscarded_doorbell_stale : ∃ (fn page : Nat) (word : BitVec 64) (s : State),
    (heldBack s fn 0 = false)
    ∧ (present s fn = true)
    ∧ (page < doorbellPages fn)
    ∧ (fld word.toNat 24 16 ≠ (s.fn fn).gen) :=
  ⟨4, 255, 0, st1, by decide +kernel⟩
theorem test_meets_DoorbellsAreTakenOrDiscarded_descriptorFetch_ok : ∃ (fn ring : Nat) (bs : List Byte) (s u : State),
    (fetches s fn ring = true)
    ∧ (u = emit s (.hostRead fn (sqSlotAddr (s.ring fn ring)) 64))
    ∧ (descStatus u fn (u.ring fn ring).ent.kind (BitVec.ofNat 512 (leNat (bs.take 64))).toNat = 0) :=
  ⟨4, 1, List.replicate 64 0#8, { fns := [(4, { fnOn with gen := 0, rings := [(1, { rgOf 0x13 0 with prod := 2 })] })] }, emit { fns := [(4, { fnOn with gen := 0, rings := [(1, { rgOf 0x13 0 with prod := 2 })] })] } (.hostRead 4 64 64), by decide +kernel⟩
theorem test_meets_DoorbellsAreTakenOrDiscarded_descriptorFetch_refused : ∃ (fn ring : Nat) (bs : List Byte) (s u : State),
    (fetches s fn ring = true)
    ∧ (u = emit s (.hostRead fn (sqSlotAddr (s.ring fn ring)) 64))
    ∧ (fld (BitVec.ofNat 512 (leNat (bs.take 64))).toNat 16 16 ≠ (u.fn fn).gen)
    ∧ ((u.ring fn ring).ent.kind ≠ 0x22) :=
  ⟨4, 1, List.replicate 64 0#8, { fns := [(4, { fnOn with rings := [(1, { rgOf 0x13 0 with prod := 2 })] })] }, emit { fns := [(4, { fnOn with rings := [(1, { rgOf 0x13 0 with prod := 2 })] })] } (.hostRead 4 64 64), by decide +kernel⟩
theorem test_meets_DoorbellsAreTakenOrDiscarded_descriptorFetch_failed : ∃ (fn ring : Nat) (s : State),
    (fetches s fn ring = true) :=
  ⟨4, 1, { fns := [(4, { fnOn with rings := [(1, { rgOf 0x13 0 with prod := 2 })] })] }, by decide +kernel⟩
theorem test_meets_DoorbellsAreTakenOrDiscarded_nop : ∃ (fn ring : Nat) (e : Fetched) (s : State),
    (Starts s fn ring (s.ring fn ring).ent.kind 0x00 e) :=
  ⟨4, 1, de 0x10000, rs 4 0x13 0x10000, by decide +kernel⟩
theorem test_meets_DoorbellsAreTakenOrDiscarded_interruptModerationExpiry : ∃ (fn ring : Nat) (s : State),
    ((s.ring fn ring).deferredIrq = true) :=
  ⟨4, 1, { fns := [(4, { fnOn with rings := [(1, { rgOf 0x13 0 with deferredIrq := true })] })] }, by decide +kernel⟩
theorem test_meets_EventRingAndLease_evCommit : ∃ (fn : Nat) (value : BitVec 32) (o : Nat) (s : State),
    (heldBack s fn 0 = false)
    ∧ (present s fn = true)
    ∧ (hasRings fn = true)
    ∧ (bitAt value.toNat 0 = true)
    ∧ (bitAt value.toNat 1 = false)
    ∧ ((s.fn fn).evCommitted = false)
    ∧ (6 ≤ (s.fn fn).evOrder ∧ (s.fn fn).evOrder ≤ 16)
    ∧ ((s.fn fn).evVector < vectorsOf fn)
    ∧ ((s.fn fn).evEnable = true)
    ∧ (pickOwner s fn 0x03 = some o) :=
  ⟨1, 1, 64, { fns := [(1, { fnOn with evOrder := 16, evVector := 2047, evEnable := true })] }, by decide +kernel⟩
theorem test_meets_EventRingAndLease_evCommit_full : ∃ (fn : Nat) (value : BitVec 32) (s : State),
    (heldBack s fn 0 = false)
    ∧ (present s fn = true ∧ hasRings fn = true)
    ∧ (bitAt value.toNat 0 = true ∧ bitAt value.toNat 1 = false)
    ∧ ((s.fn fn).evCommitted = false)
    ∧ (6 ≤ (s.fn fn).evOrder ∧ (s.fn fn).evOrder ≤ 16 ∧ (s.fn fn).evVector < vectorsOf fn)
    ∧ ((s.fn fn).evEnable = true)
    ∧ (pickOwner s fn 0x03 = none) :=
  ⟨4, 1, { fns := [(4, { fnOn with evOrder := 16, evVector := 2047, evEnable := true })] }, by decide +kernel⟩
theorem test_meets_EventRingAndLease_evCommit_disabled : ∃ (fn : Nat) (value : BitVec 32) (s : State),
    (heldBack s fn 0 = false)
    ∧ (present s fn = true)
    ∧ (hasRings fn = true)
    ∧ (bitAt value.toNat 0 = true)
    ∧ (bitAt value.toNat 1 = false)
    ∧ ((s.fn fn).evCommitted = false)
    ∧ (6 ≤ (s.fn fn).evOrder ∧ (s.fn fn).evOrder ≤ 16)
    ∧ ((s.fn fn).evVector < vectorsOf fn)
    ∧ ((s.fn fn).evEnable = false) :=
  ⟨4, 1, { fns := [(4, { fnOn with evOrder := 6, evVector := 0 })] }, by decide +kernel⟩
theorem test_meets_EventRingAndLease_evCommit_both : ∃ (fn : Nat) (value : BitVec 32) (s : State),
    (heldBack s fn 0 = false)
    ∧ (present s fn = true)
    ∧ (hasRings fn = true)
    ∧ (bitAt value.toNat 0 = true)
    ∧ (bitAt value.toNat 1 = true) :=
  ⟨4, 3, st1, by decide +kernel⟩
theorem test_meets_EventRingAndLease_evUnlock : ∃ (fn : Nat) (s : State),
    (heldBack s fn 0 = false)
    ∧ (present s fn = true)
    ∧ (hasRings fn = true)
    ∧ ((s.fn fn).evCommitted = true) :=
  ⟨4, { fns := [(4, { fnOn with evCommitted := true })] }, by decide +kernel⟩
theorem test_meets_EventRingAndLease_leasePeriodWrite : ∃ (fn : Nat) (value : BitVec 32) (s : State),
    (heldBack s fn 0 = false)
    ∧ (present s fn = true)
    ∧ (hasRings fn = true)
    ∧ (bitAt value.toNat 17 = false) :=
  ⟨4, 30000, st1, by decide +kernel⟩
theorem test_meets_EventRingAndLease_leaseHalf : ∃ (fn : Nat) (s : State),
    ((s.fn fn).leaseArmed = true)
    ∧ ((s.fn fn).leaseHalf = false)
    ∧ ((s.fn fn).st = .active) :=
  ⟨4, { fns := [(4, { fnOn with leaseArmed := true })] }, by decide +kernel⟩
theorem test_meets_SharedControlsAndRegisterWrites_sharedControlWrite : ∃ (rank cap off width w : Nat) (pf1 : Bool) (value : BitVec 64) (s : State),
    (sharedReg cap off = some (w, pf1) ∧ s.transom.behindOf.contains rank = false)
    ∧ (width * 8 = w)
    ∧ (rank = 3 ∨ ((present s rank && presents rank cap && capOn s rank cap) = true ∧ (isPf0 rank || (isPf1 rank && pf1)) = true)) :=
  ⟨3, 0x10, 8, 4, 32, false, 0xFF, s1, by decide +kernel⟩
theorem test_meets_SharedControlsAndRegisterWrites_sharedControlWrite_denied : ∃ (rank cap off width w : Nat) (value : BitVec 64) (s : State),
    (sharedReg cap off = some (w, false) ∧ s.transom.behindOf.contains rank = false)
    ∧ (width * 8 = w)
    ∧ ((present s rank && presents rank cap && capOn s rank cap) = true)
    ∧ (isPf1 rank = true) :=
  ⟨4, 0x10, 8, 4, 32, 0xFF, st1, by decide +kernel⟩
theorem test_meets_SharedControlsAndRegisterWrites_commitTick_idle : ∃ (c d : Bool) (s : State),
    (s.power.romDone = true)
    ∧ (s.transom.held = [] ∧ s.transom.behind = [])
    ∧ (s.trust.cmds = [])
    ∧ (s.power.change = none)
    ∧ (s.trust.debugScope = 0) :=
  ⟨true, true, { power := { romDone := true } }, by decide +kernel⟩
theorem test_meets_SharedControlsAndRegisterWrites_commitTick_applies : ∃ (c d : Bool) (h : Held) (s : State),
    (s.power.romDone = true)
    ∧ (s.transom.held = [h] ∧ s.transom.behind = [])
    ∧ (h.cap = 0x10 ∧ h.off = 0x08 ∧ h.rank ≠ 0)
    ∧ (s.trust.cmds = [])
    ∧ (s.power.change = none)
    ∧ (s.trust.debugScope = 0)
    ∧ (flashUp s = true)
    ∧ (s.trust.seq % segmentRecs ≠ 255) :=
  ⟨true, true, { rank := 1, cap := 0x10, off := 8, value := 0xFF }, { power := { romDone := true }, transom := { held := [{ rank := 1, cap := 0x10, off := 8, value := 0xFF }] } }, by decide +kernel⟩
theorem test_meets_SharedControlsAndRegisterWrites_registerWrite_dirBase : ∃ (fn : Nat) (value : BitVec 64) (s : State),
    (heldBack s fn 0 = false)
    ∧ (present s fn = true)
    ∧ (presents fn 0x01 = true)
    ∧ (capOn s fn 0x01 = true) :=
  ⟨4, 0, st1, by decide +kernel⟩
theorem test_meets_PortBringUpAndRetrain_portEnable : ∃ (fn port : Nat) (s : State),
    (heldBack s fn 0 = false)
    ∧ ((isPf1 fn && present s fn) = true)
    ∧ (port < 8)
    ∧ (ownerOf s port = fn)
    ∧ (reachable s (aptTile port) = true)
    ∧ ((s.port port).st = .shut)
    ∧ (3 ≤ s.power.stage)
    ∧ (bitAt s.trust.shutterAp port = true) :=
  ⟨4, 7, { st1 with power := { stage := 3, romDone := true }, trust := { shutterAp := 255 }, doms := [(81, { power := 2, service := 1 })] }, by decide +kernel⟩
theorem test_meets_PortBringUpAndRetrain_portDisable : ∃ (fn port : Nat) (s : State),
    (heldBack s fn 0 = false)
    ∧ ((isPf1 fn && present s fn) = true)
    ∧ (port < 8)
    ∧ (ownerOf s port = fn)
    ∧ (reachable s (aptTile port) = true) :=
  ⟨4, 0, { st1 with power := { stage := 3, romDone := true }, doms := [(36, { power := 2, service := 1 })] }, by decide +kernel⟩
theorem test_meets_PortBringUpAndRetrain_portRetrain : ∃ (fn port : Nat) (s : State),
    (heldBack s fn 0 = false)
    ∧ ((isPf1 fn && present s fn) = true)
    ∧ (port < 8)
    ∧ (ownerOf s port = fn)
    ∧ (reachable s (aptTile port) = true)
    ∧ ((s.port port).st = .active) :=
  ⟨4, 0, { st1 with ports := [(0, { st := .active })], power := { stage := 3, romDone := true }, doms := [(36, { power := 2, service := 1 })] }, by decide +kernel⟩
theorem test_meets_PortBringUpAndRetrain_rxLightChange : ∃ (port : Nat) (lit : BitVec 16) (s : State),
    (port < 8)
    ∧ ((s.port port).st = .detect)
    ∧ (lit = 0xFFFF#16) :=
  ⟨7, 0xFFFF, { ports := [(7, { st := .detect })] }, by decide +kernel⟩
theorem test_meets_PortBringUpAndRetrain_rxLightChange_dark : ∃ (port : Nat) (lit : BitVec 16) (s : State),
    (port < 8)
    ∧ ((s.port port).st = .active)
    ∧ (covers lit.toNat (widthLanes (s.port port).width) = false) :=
  ⟨7, 0, { ports := [(7, { st := .active, width := 1 })] }, by decide +kernel⟩
theorem test_meets_PortBringUpAndRetrain_detectHalfTimeout : ∃ (port h t : Nat) (s : State),
    ((s.port port).st = .detect)
    ∧ ((s.port port).half = some (h, t)) :=
  ⟨0, 1, 0, { ports := [(0, { st := .detect, half := some (1, 0) })] }, by decide +kernel⟩
theorem test_meets_PortBringUpAndRetrain_lossOfLight : ∃ (port due : Nat) (s : State),
    ((s.port port).st = .detect)
    ∧ (covers (s.port port).rxLight 0xFFFF = false)
    ∧ (due = (match (s.port port).lastLol with | none => (s.port port).since | some t => max (s.port port).since (t + 1000 * msCycles))) :=
  ⟨0, 0, { ports := [(0, { st := .detect })] }, by decide +kernel⟩
theorem test_meets_PortBringUpAndRetrain_trainTimeout : ∃ (port : Nat) (s : State),
    ((s.port port).st = .train) :=
  ⟨0, { ports := [(0, { st := .train })] }, by decide +kernel⟩
theorem test_meets_PortBringUpAndRetrain_retrainTimeout : ∃ (port : Nat) (s : State),
    ((s.port port).st = .retrain) :=
  ⟨0, { ports := [(0, { st := .retrain })] }, by decide +kernel⟩
theorem test_meets_PortBringUpAndRetrain_downTimeout : ∃ (port : Nat) (s : State),
    ((s.port port).st = .down) :=
  ⟨0, { ports := [(0, { st := .down })] }, by decide +kernel⟩
theorem test_meets_PortBringUpAndRetrain_widenCheck : ∃ (port t : Nat) (s : State),
    ((s.port port).st = .active)
    ∧ ((s.port port).widenAt = some t) :=
  ⟨0, 0, { ports := [(0, { st := .active, width := 1, widenAt := some 0 })] }, by decide +kernel⟩
theorem test_meets_PortBringUpAndRetrain_retrainAtReached : ∃ (port : Nat) (s : State),
    ((s.port port).retrainAt ≠ 0)
    ∧ ((s.port port).st = .active) :=
  ⟨0, { ports := [(0, { st := .active, retrainAt := 1 })] }, by decide +kernel⟩
theorem test_meets_PortBringUpAndRetrain_laneAlignmentLoss : ∃ (port lane : Nat) (s : State),
    (port < 8)
    ∧ (lane < 16)
    ∧ ((s.port port).st = .active)
    ∧ (bitAt (widthLanes (s.port port).width) lane = true) :=
  ⟨7, 15, { ports := [(7, { st := .active, width := 3 })] }, by decide +kernel⟩
theorem test_meets_PortTrainingAndLinkRetry_trainingFlitRx : ∃ (port w : Nat) (good : BitVec 16) (fl : List Byte) (s s1 s2 : State),
    (port < 8)
    ∧ (fl.length = 256)
    ∧ (crc32c (fl.take 252) = leNat (fl.drop 252))
    ∧ (fld (leNat (fl.take 8)) 0 2 = 2)
    ∧ ((s.port port).st = .train)
    ∧ (s1 = s.modPort port (fun a => { a with laneGood := good.toNat, peerGood := fld (leNat (sliceB fl 8 16)) 0 16 }))
    ∧ (s2 = (if bitAt (leNat (sliceB fl 8 16)) 18 = true then s1.modPort port (fun a => { a with peerReady := true, peerCredits := fld (leNat (sliceB fl 8 16)) 24 32 }) else s1))
    ∧ (w = chooseWidth good.toNat (fld (leNat (sliceB fl 8 16)) 0 16)) :=
  ⟨0, 3, 0xFFFF, trainFlit, trainSt, trainSt.modPort 0 (fun a => { a with laneGood := 0xFFFF, peerGood := 0xFFFF }), trainSt.modPort 0 (fun a => { a with laneGood := 0xFFFF, peerGood := 0xFFFF }), by decide +kernel⟩
theorem test_meets_PortTrainingAndLinkRetry_trainingFlitRx_badCrc : ∃ (port : Nat) (good : BitVec 16) (fl : List Byte) (s : State),
    (port < 8)
    ∧ (fl.length = 256)
    ∧ (crc32c (fl.take 252) ≠ leNat (fl.drop 252)) :=
  ⟨7, 0, List.replicate 256 0#8, s1, by decide +kernel⟩
theorem test_meets_PortTrainingAndLinkRetry_flitRx_badCrc : ∃ (port : Nat) (fl : List Byte) (s : State),
    (port < 8)
    ∧ (receiving (s.port port) = true)
    ∧ (fl.length = 256)
    ∧ (crc32c (fl.take 252) ≠ leNat (fl.drop 252)) :=
  ⟨7, List.replicate 256 0#8, { ports := [(7, { st := .active })] }, by decide +kernel⟩
theorem test_meets_PortTrainingAndLinkRetry_flitRx_idle : ∃ (port : Nat) (fl : List Byte) (s : State),
    (port < 8)
    ∧ ((s.port port).st = .active)
    ∧ (fl.length = 256)
    ∧ (crc32c (fl.take 252) = leNat (fl.drop 252))
    ∧ (fld (leNat (fl.take 8)) 0 2 = 0) :=
  ⟨0, idleFlit, { ports := [(0, { st := .active })] }, by decide +kernel⟩
theorem test_meets_PortTrainingAndLinkRetry_flitRx_outOfSequence : ∃ (port : Nat) (fl : List Byte) (s : State),
    (port < 8)
    ∧ ((s.port port).st = .active)
    ∧ (fl.length = 256)
    ∧ (crc32c (fl.take 252) = leNat (fl.drop 252))
    ∧ (fld (leNat (fl.take 8)) 0 2 = 1)
    ∧ (fld (leNat (fl.take 8)) 4 12 ≠ (s.port port).rxNext) :=
  ⟨0, dataFlit, { ports := [(0, { st := .active, rxNext := 5 })] }, by decide +kernel⟩
theorem test_meets_PortTrainingAndLinkRetry_ackTimer : ∃ (port : Nat) (s : State),
    ((s.port port).st = .active) :=
  ⟨0, { ports := [(0, { st := .active, rxUnacked := 1 })] }, by decide +kernel⟩
theorem test_meets_PortTrainingAndLinkRetry_replayRun : ∃ (port oldest n : Nat) (s s1 : State),
    ((s.port port).st = .active)
    ∧ ((s.port port).replayAsked = true)
    ∧ (oldest = (match (s.port port).unacked with | [] => (s.port port).txSeq | u :: _ => u.seq))
    ∧ (n = (if (s.port port).runAt = oldest ∧ (s.port port).runs ≠ 0 then (s.port port).runs + 1 else 1))
    ∧ (s1 = resendAll port (s.modPort port (fun a => { a with replayAsked := false, runs := n, runAt := oldest }))) :=
  ⟨0, 0, 1, { ports := [(0, { st := .active, replayAsked := true, unacked := [{}] })] }, resendAll 0 (({ ports := [(0, { st := .active, replayAsked := true, unacked := [{}] })] } : State).modPort 0 (fun a => { a with replayAsked := false, runs := 1, runAt := 0 })), by decide +kernel⟩
theorem test_meets_FabricTransactionsAndWindows_fabricWrite : ∃ (port addr n dest : Nat) (data : List (BitVec 8)) (t : Txn) (s u : State),
    (port < 8 ∧ portUp (s.port port) = true)
    ∧ (t = { op := 0x10, length := data.length, addr := addr, data := data })
    ∧ (1 ≤ data.length ∧ data.length ≤ 256 ∧ crosses4k addr data.length = false)
    ∧ ((s.port port).ingress = [])
    ∧ (u = apRx s port t)
    ∧ (matchWin (s.port port).activeSet addr = some n)
    ∧ (fld (inWin (s.port port).activeSet n).2.2 6 2 = 1 ∧ bitAt (inWin (s.port port).activeSet n).2.2 12 = true ∧ dest = fld (inWin (s.port port).activeSet n).2.2 8 3)
    ∧ (portUp (s.port dest) = true ∧ egressRoom (s.port dest) t = true) :=
  ⟨0, 0, 0, 1, [0], { op := 0x10, length := 1, addr := 0, data := [0] }, winSt 0x114C, apRx (winSt 0x114C) 0 { op := 0x10, data := [0] }, by decide +kernel⟩
theorem test_meets_FabricTransactionsAndWindows_fabricWrite_any : ∃ (port addr : Nat) (data : List (BitVec 8)) (ds : List (Nat × Nat)) (m : Bool) (t : Txn) (s u : State),
    (port < 8 ∧ portUp (s.port port) = true)
    ∧ (t = { op := 0x10, length := data.length, addr := addr, data := data })
    ∧ (1 ≤ data.length ∧ data.length ≤ 256 ∧ crosses4k addr data.length = false)
    ∧ (Machine.translate s port t = some (ds, m))
    ∧ (u = apRx s port t)
    ∧ ((s.port port).ingress.any (fun x => vcOf x.txn.op == 0) = false) :=
  ⟨0, 0, [0], [(1, 0)], false, { op := 0x10, length := 1, addr := 0, data := [0] }, winSt 0x114C, apRx (winSt 0x114C) 0 { op := 0x10, data := [0] }, by decide +kernel⟩
theorem test_meets_FabricTransactionsAndWindows_fabricRead : ∃ (port tag addr length n dest : Nat) (t : Txn) (s u : State),
    (port < 8 ∧ portUp (s.port port) = true)
    ∧ (t = { op := 0x20, length := length, tag := tag, addr := addr })
    ∧ (1 ≤ length ∧ length ≤ 256 ∧ crosses4k addr length = false)
    ∧ ((s.port port).ingress = [])
    ∧ (u = apRx s port t)
    ∧ (matchWin (s.port port).activeSet addr = some n)
    ∧ (fld (inWin (s.port port).activeSet n).2.2 6 2 = 1 ∧ bitAt (inWin (s.port port).activeSet n).2.2 11 = true ∧ dest = fld (inWin (s.port port).activeSet n).2.2 8 3)
    ∧ (portUp (s.port dest) = true ∧ egressRoom (s.port dest) t = true)
    ∧ ((s.port dest).tracked.contains { src := port, tag := tag } = false ∧ (s.port dest).tracked.length < 4096) :=
  ⟨0, 7, 0, 256, 0, 1, { op := 0x20, length := 256, tag := 7, addr := 0 }, winSt 0x094C, winSt 0x094C, by decide +kernel⟩
theorem test_meets_FabricTransactionsAndWindows_fabricWriteAcked : ∃ (port tag addr n dest : Nat) (data : List (BitVec 8)) (t : Txn) (s u : State),
    (port < 8 ∧ portUp (s.port port) = true)
    ∧ (t = { op := 0x18, length := data.length, tag := tag, addr := addr, data := data })
    ∧ (1 ≤ data.length ∧ data.length ≤ 256 ∧ crosses4k addr data.length = false)
    ∧ ((s.port port).ingress = [])
    ∧ (u = apRx s port t)
    ∧ (matchWin (s.port port).activeSet addr = some n)
    ∧ (fld (inWin (s.port port).activeSet n).2.2 6 2 = 1 ∧ bitAt (inWin (s.port port).activeSet n).2.2 12 = true ∧ dest = fld (inWin (s.port port).activeSet n).2.2 8 3)
    ∧ (portUp (s.port dest) = true ∧ egressRoom (s.port dest) t = true)
    ∧ ((s.port dest).tracked.contains { src := port, tag := tag } = false ∧ (s.port dest).tracked.length < 4096) :=
  ⟨0, 7, 0, 0, 1, [0], { op := 0x18, length := 1, tag := 7, addr := 0, data := [0] }, winSt 0x114C, apRx (winSt 0x114C) 0 { op := 0x18, data := [0] }, by decide +kernel⟩
theorem test_meets_FabricTransactionsAndWindows_fabricWrite_miss : ∃ (port addr : Nat) (data : List (BitVec 8)) (t : Txn) (s u : State),
    (port < 8 ∧ portUp (s.port port) = true)
    ∧ (t = { op := 0x10, length := data.length, addr := addr, data := data })
    ∧ (1 ≤ data.length ∧ data.length ≤ 256 ∧ crosses4k addr data.length = false)
    ∧ (matchWin (s.port port).activeSet addr = none)
    ∧ (u = apRx s port t) :=
  ⟨0, 0, [0], { op := 0x10, length := 1, addr := 0, data := [0] }, winSt 0, apRx (winSt 0) 0 { op := 0x10, data := [0] }, by decide +kernel⟩
theorem test_meets_FabricTransactionsAndWindows_fabricRead_badLength : ∃ (port tag addr length : Nat) (s : State),
    (port < 8)
    ∧ (portUp (s.port port) = true)
    ∧ (length = 0 ∨ 256 < length) :=
  ⟨0, 0, 0, 0, { ports := [(0, { st := .active })] }, by decide +kernel⟩
theorem test_meets_FabricTransactionsAndWindows_fabricCpl : ∃ (port toPort tag status : Nat) (data : List (BitVec 8)) (t : Txn) (s u : State),
    (port < 8 ∧ portUp (s.port port) = true ∧ data.length ≤ 256)
    ∧ (t = { op := 0x30, length := data.length, port := toPort, tag := tag, status := status, data := data })
    ∧ ((s.port port).tracked.contains { src := toPort, tag := tag } = true)
    ∧ (u = apRx s port { op := 0x30, data := data }) :=
  ⟨0, 1, 5, 0, [], { op := 0x30, length := 0, port := 1, tag := 5 }, { ports := [(0, { st := .active, tracked := [{ src := 1, tag := 5 }] }), (1, { st := .active })] }, { ports := [(0, { st := .active, tracked := [{ src := 1, tag := 5 }] }), (1, { st := .active })] }, by decide +kernel⟩
theorem test_meets_FabricTransactionsAndWindows_egressDepart : ∃ (port i pos n k : Nat) (d : List Nat) (e : Egress) (s t u v : State),
    ((s.port port).st = .active)
    ∧ (drr s (s.port port) 4100 (s.port port).deficit (s.port port).rrPos (s.port port).rrGranted = some (i, d, pos))
    ∧ (e = lget (s.port port).egress i {} ∧ n = canLeave s (s.port port) ((s.port port).egress.take i) e ∧ k = min (15 * n) (slotsIn e - e.sent))
    ∧ (t = sendData port e.vc n (e.sent == 0) (((txnSlots (tagged (s.port port) e)).drop (16 * e.sent)).take (16 * k)) (s.modPort port (fun a => { a with
    deficit := d, rrPos := pos, rrGranted := true, engTag := match e.eng with | .read _ => (a.engTag + 1) % 2 ^ 16 | _ => a.engTag
    egress := if slotsOf e.txn ≤ e.sent + k then a.egress.eraseIdx i else a.egress.set i { e with sent := e.sent + k } })))
    ∧ (u = (if slotsOf e.txn ≤ e.sent + k then checkDrained (retryIngress (fillEgress (readOn (apTx t port e) port e) port)) (if e.src = 8 then port else e.src) else t))
    ∧ (v = pump (settleTables (((entryBlocks (outgoing (s.port port))).filter (fun b => !(entryBlocks (outgoing (u.port port))).contains b)).foldl becomeResident u)) port) :=
  ⟨0, 0, 3, 1, 2, [0, 0, 0, 0], { cls := 3, txn := { op := 0x10, length := 1, data := [7] } }, depSt, depT, depU, depU, by decide +kernel⟩
theorem test_meets_FabricTransactionsAndWindows_pwCommit : ∃ (fn : Nat) (mask : BitVec 32) (s : State),
    (heldBack s fn 0 = false)
    ∧ ((isPf1 fn && present s fn) = true)
    ∧ (s.fabric.pwBusy = false)
    ∧ (((List.range 8).filter (fun p => bitAt mask.toNat p)) ≠ [])
    ∧ (((List.range 8).filter (fun p => bitAt mask.toNat p)).any (fun p => ownerOf s p != fn) = false)
    ∧ (((List.range 8).filter (fun p => bitAt mask.toNat p)).find? (fun p => (badEntry (s.port p).shadow).isSome) = none) :=
  ⟨4, 255, st1, by decide +kernel⟩
theorem test_meets_FabricTransactionsAndWindows_pwCommit_bad : ∃ (fn p : Nat) (mask : BitVec 32) (s : State),
    (heldBack s fn 0 = false)
    ∧ ((isPf1 fn && present s fn) = true)
    ∧ (s.fabric.pwBusy = false)
    ∧ (((List.range 8).filter (fun p => bitAt mask.toNat p)) ≠ [])
    ∧ (((List.range 8).filter (fun p => bitAt mask.toNat p)).any (fun p => ownerOf s p != fn) = false)
    ∧ (((List.range 8).filter (fun p => bitAt mask.toNat p)).find? (fun p => (badEntry (s.port p).shadow).isSome) = some p) :=
  ⟨4, 7, 255, { st1 with ports := [(7, { shadow := [(16, 64)] })] }, by decide +kernel⟩
theorem test_meets_FabricTransactionsAndWindows_windowsActivate : ∃ (p : Nat) (set : NMap Nat) (s s1 : State),
    (s.fabric.pwBusy = true)
    ∧ (s.fabric.pwSets = [(p, set)])
    ∧ (s1 = s.modPort p (fun a => { a with activeSet := set, shadow := set, activeGen := (a.activeGen + 1) % 2 ^ 16 })) :=
  ⟨7, [], { fabric := { pwBusy := true, pwSets := [(7, [])] } }, ({ fabric := { pwBusy := true, pwSets := [(7, [])] } } : State).modPort 7 (fun a => { a with activeGen := 1 }), by decide +kernel⟩
theorem test_meets_GatesCreditsAndAlerts_afGateCommit : ∃ (fn port : Nat) (s : State),
    (heldBack s fn 0 = false)
    ∧ ((isPf1 fn && present s fn) = true)
    ∧ (port < 8)
    ∧ (ownerOf s port = fn)
    ∧ (reachable s (aptTile port) = true) :=
  ⟨4, 0, { st1 with doms := [(36, { power := 2, service := 1 })] }, by decide +kernel⟩
theorem test_meets_GatesCreditsAndAlerts_vcCreditsWrite : ∃ (fn port : Nat) (units : BitVec 32) (s : State),
    (heldBack s fn 0 = false)
    ∧ ((isPf1 fn && present s fn) = true)
    ∧ (port < 8)
    ∧ (ownerOf s port = fn)
    ∧ (reachable s (aptTile port) = true) :=
  ⟨4, 0, 0x20202020, { st1 with doms := [(36, { power := 2, service := 1 })] }, by decide +kernel⟩
theorem test_meets_GatesCreditsAndAlerts_gateListTakeEffect : ∃ (n : Nat) (g : GateList) (s s1 : State),
    ((s.port n).gatePend = some g)
    ∧ (s1 = (advanceToPtp s (gateStart g g.change)).modPort n (fun a => { a with gatePend := none, gateOper := some g, gateEntry := 0, operGen := (a.operGen + 1) % 2 ^ 16 })) :=
  ⟨0, {}, { ports := [(0, { gatePend := some {} })] }, (advanceToPtp { ports := [(0, { gatePend := some {} })] } (gateStart {} 0)).modPort 0 (fun a => { a with gatePend := none, gateOper := some {}, gateEntry := 0, operGen := (a.operGen + 1) % 2 ^ 16 }), by decide, rfl⟩
theorem test_meets_GatesCreditsAndAlerts_gateListTakeEffect_net : ∃ (n : Nat) (g : GateList) (s s1 : State),
    ((s.netIf n).gatePend = some g)
    ∧ (s1 = (advanceToPtp s (gateStart g g.change)).modNetIf n (fun i => { i with gatePend := none, gateOper := some g, gateEntry := 0, operGen := (i.operGen + 1) % 2 ^ 16 })) :=
  ⟨0, {}, { net := { ifs := [(0, { gatePend := some {} })] } }, (advanceToPtp { net := { ifs := [(0, { gatePend := some {} })] } } (gateStart {} 0)).modNetIf 0 (fun a => { a with gatePend := none, gateOper := some {}, gateEntry := 0, operGen := (a.operGen + 1) % 2 ^ 16 }), by decide, rfl⟩
theorem test_meets_GatesCreditsAndAlerts_gateEntryAdvance : ∃ (n : Nat) (g : GateList) (s : State),
    ((s.port n).gateOper = some g) :=
  ⟨0, {}, { ports := [(0, { gateOper := some {} })] }, by decide +kernel⟩
theorem test_meets_GatesCreditsAndAlerts_gateEntryAdvance_net : ∃ (n : Nat) (g : GateList) (s : State),
    ((s.netIf n).gateOper = some g) :=
  ⟨0, {}, { net := { ifs := [(0, { gateOper := some {} })] } }, by decide +kernel⟩
theorem test_meets_GatesCreditsAndAlerts_accelAlert : ∃ (port : Nat) (s : State),
    (port < 8)
    ∧ (domOn s (aptTile port) = true) :=
  ⟨7, { doms := [(81, { power := 2 })] }, by decide +kernel⟩
theorem test_meets_ReductionStepsComplete_rdOpen : ∃ (core h : Nat) (ts : List Nat) (w : BitVec 512) (s : State),
    (Posts s core w)
    ∧ (fld w.toNat 0 8 = 0x01)
    ∧ (openOk w.toNat = true)
    ∧ (slotsNeed w.toNat ≤ 262144)
    ∧ (s.red.claims = [])
    ∧ (claimFits s w.toNat = some (ts, h)) :=
  ⟨0, 0, [0], openStep, redSt openStep, by decide +kernel⟩
theorem test_meets_ReductionStepsComplete_rdOpen_waits : ∃ (core : Nat) (w : BitVec 512) (s : State),
    (Posts s core w)
    ∧ (fld w.toNat 0 8 = 0x01)
    ∧ (openOk w.toNat = true)
    ∧ (slotsNeed w.toNat ≤ 262144)
    ∧ (claimFits s w.toNat = none) :=
  ⟨0, openStep, { redSt openStep with doms := [] }, by decide +kernel⟩
theorem test_meets_ReductionStepsComplete_rdOpen_illegal : ∃ (core : Nat) (w : BitVec 512) (s : State),
    (Posts s core w)
    ∧ (fld w.toNat 0 8 = 0x01)
    ∧ (openOk w.toNat = false) :=
  ⟨0, 1, redSt 1, by decide +kernel⟩
theorem test_meets_ReductionStepsComplete_step_unlisted : ∃ (core : Nat) (w : BitVec 512) (s : State),
    (Posts s core w)
    ∧ (fld w.toNat 0 8 < 1 ∨ 4 < fld w.toNat 0 8) :=
  ⟨0, 5, redSt 5, by decide +kernel⟩
theorem test_meets_ReductionStepsComplete_admissionGrant : ∃ (c h : Nat) (k : Claim) (ts : List Nat) (s : State),
    (s.red.cand = none)
    ∧ (rotPick 64 s.red.ptr (s.red.claims.map (·.core)) = some c)
    ∧ (s.red.claims.find? (fun x => x.core == c) = some k)
    ∧ (claimFits s k.desc = some (ts, h)) :=
  ⟨5, 0, { core := 5, desc := openStep.toNat }, [0], { redSt openStep with red := { claims := [{ core := 5, desc := openStep.toNat }] } }, by decide +kernel⟩
theorem test_meets_ReductionStepsComplete_rdPull : ∃ (core : Nat) (w : BitVec 512) (k : Ctx) (s : State),
    (Posts s core w)
    ∧ (fld w.toNat 0 8 = 0x02)
    ∧ (fld w.toNat 8 24 = 0 ∧ fld w.toNat 288 224 = 0)
    ∧ (oget s.red.ctxs (fld w.toNat 64 12) = some k)
    ∧ (k.hgen = fld w.toNat 76 4)
    ∧ (¬ (oRanks k.desc ≤ fld w.toNat 80 16 ∨ (!bitAt (oMemMask k.desc) (fld w.toNat 80 16)) = true ∨ oElements k.desc < fld w.toNat 96 32 + fld w.toNat 128 32 ∨ fld w.toNat 96 32 % 32 ≠ 0 ∨ fld w.toNat 128 32 % 32 ≠ 0 ∨ fld w.toNat 222 2 = 3 ∨ fld w.toNat 160 64 % 64 ≠ 0 ∨ (isMx (oIn k.desc) = true ∧ (fld w.toNat 286 2 = 3 ∨ fld w.toNat 224 64 % 64 ≠ 0)) ∨ ((!isMx (oIn k.desc)) = true ∧ fld w.toNat 224 64 ≠ 0)))
    ∧ (k.st = .opened)
    ∧ (fld w.toNat 128 32 ≠ 0) :=
  ⟨0, pullStep, memCtx, redCtx memCtx pullStep, by decide +kernel⟩
theorem test_meets_ReductionStepsComplete_rdPull_stale : ∃ (core : Nat) (w : BitVec 512) (s : State),
    (Posts s core w)
    ∧ (fld w.toNat 0 8 = 0x02)
    ∧ (fld w.toNat 8 24 = 0 ∧ fld w.toNat 288 224 = 0)
    ∧ (stepCtx s w.toNat = none) :=
  ⟨0, 2, redSt 2, by decide +kernel⟩
theorem test_meets_ReductionStepsComplete_rdPull_empty : ∃ (core : Nat) (w : BitVec 512) (k : Ctx) (s : State),
    (Posts s core w)
    ∧ (fld w.toNat 0 8 = 0x02)
    ∧ (fld w.toNat 8 24 = 0 ∧ fld w.toNat 288 224 = 0)
    ∧ (oget s.red.ctxs (fld w.toNat 64 12) = some k)
    ∧ (k.hgen = fld w.toNat 76 4)
    ∧ (¬ (oRanks k.desc ≤ fld w.toNat 80 16 ∨ (!bitAt (oMemMask k.desc) (fld w.toNat 80 16)) = true ∨ oElements k.desc < fld w.toNat 96 32 + fld w.toNat 128 32 ∨ fld w.toNat 96 32 % 32 ≠ 0 ∨ fld w.toNat 128 32 % 32 ≠ 0 ∨ fld w.toNat 222 2 = 3 ∨ fld w.toNat 160 64 % 64 ≠ 0 ∨ (isMx (oIn k.desc) = true ∧ (fld w.toNat 286 2 = 3 ∨ fld w.toNat 224 64 % 64 ≠ 0)) ∨ ((!isMx (oIn k.desc)) = true ∧ fld w.toNat 224 64 ≠ 0)))
    ∧ (k.st ≠ .failed)
    ∧ (fld w.toNat 128 32 = 0) :=
  ⟨0, BitVec.ofNat 512 (2 + 2 ^ 76), memCtx, redCtx memCtx (BitVec.ofNat 512 (2 + 2 ^ 76)), by decide +kernel⟩
theorem test_meets_ReductionStepsComplete_rdClose : ∃ (core : Nat) (w : BitVec 512) (k : Ctx) (s : State),
    (Posts s core w)
    ∧ (fld w.toNat 0 8 = 0x03)
    ∧ (fld w.toNat 8 24 = 0 ∧ fld w.toNat 80 432 = 0)
    ∧ (oget s.red.ctxs (fld w.toNat 64 12) = some k)
    ∧ (k.hgen = fld w.toNat 76 4) :=
  ⟨0, closeStep, ctxOf, redCtx ctxOf closeStep, by decide +kernel⟩
theorem test_meets_ReductionStepsComplete_rdClose_stale : ∃ (core : Nat) (w : BitVec 512) (s : State),
    (Posts s core w)
    ∧ (fld w.toNat 0 8 = 0x03)
    ∧ (fld w.toNat 8 24 = 0 ∧ fld w.toNat 80 432 = 0)
    ∧ (stepCtx s w.toNat = none) :=
  ⟨0, 3, redSt 3, by decide +kernel⟩
theorem test_meets_ReductionStepsComplete_rdAbort : ∃ (core : Nat) (w : BitVec 512) (k : Ctx) (s : State),
    (Posts s core w)
    ∧ (fld w.toNat 0 8 = 0x04)
    ∧ (fld w.toNat 8 24 = 0 ∧ fld w.toNat 81 431 = 0 ∧ bitAt w.toNat 80 = false)
    ∧ (stepCtx s w.toNat = some k) :=
  ⟨0, abortStep, ctxOf, redCtx ctxOf abortStep, by decide +kernel⟩
theorem test_meets_ReductionStepsComplete_rdAbort_stale : ∃ (core : Nat) (w : BitVec 512) (s : State),
    (Posts s core w)
    ∧ (fld w.toNat 0 8 = 0x04)
    ∧ (fld w.toNat 8 24 = 0 ∧ fld w.toNat 81 431 = 0 ∧ bitAt w.toNat 80 = false)
    ∧ (stepCtx s w.toNat = none) :=
  ⟨0, 4, redSt 4, by decide +kernel⟩
theorem test_meets_ReductionStepsComplete_rdAbort_claim : ∃ (core : Nat) (w : BitVec 512) (c : Claim) (s : State),
    (Posts s core w)
    ∧ (fld w.toNat 0 8 = 0x04)
    ∧ (fld w.toNat 8 24 = 0 ∧ fld w.toNat 81 431 = 0 ∧ bitAt w.toNat 80 = true ∧ fld w.toNat 64 16 = 0)
    ∧ (s.red.claims.find? (fun c => c.core == core) = some c) :=
  ⟨0, BitVec.ofNat 512 (4 + 2 ^ 80), {}, { redSt (BitVec.ofNat 512 (4 + 2 ^ 80)) with red := { steps := [(0, BitVec.ofNat 512 (4 + 2 ^ 80))], claims := [{}] } }, by decide +kernel⟩
theorem test_meets_ContributionsAndResults_contrib_miss : ∃ (port hd hgen rank element : Nat) (data : List (BitVec 8)) (s u : State),
    (port < 8 ∧ portUp (s.port port) = true)
    ∧ (1 ≤ data.length ∧ data.length ≤ 256)
    ∧ (u = apRx s port { op := 0x40, data := data })
    ∧ (oget u.red.ctxs hd = none) :=
  ⟨0, 4095, 0, 0, 0, [0], winSt 0, apRx (winSt 0) 0 { op := 0x40, data := [0] }, by decide +kernel⟩
theorem test_meets_ContributionsAndResults_contrib_failed : ∃ (port hd hgen rank element : Nat) (data : List (BitVec 8)) (k : Ctx) (s u : State),
    (port < 8 ∧ portUp (s.port port) = true)
    ∧ (1 ≤ data.length ∧ data.length ≤ 256)
    ∧ (u = apRx s port { op := 0x40, data := data })
    ∧ (oget u.red.ctxs hd = some k)
    ∧ (k.hgen = hgen)
    ∧ (k.st = .failed) :=
  ⟨0, 0, 1, 0, 0, [0], { ctxOf with st := .failed }, { winSt 0 with red := { ctxs := [(0, { ctxOf with st := .failed })] } }, apRx { winSt 0 with red := { ctxs := [(0, { ctxOf with st := .failed })] } } 0 { op := 0x40, data := [0] }, by decide +kernel⟩
theorem test_meets_ContributionsAndResults_contrib : ∃ (port hd hgen rank element n : Nat) (data : List (BitVec 8)) (k : Ctx) (co : Contr) (s u : State),
    (port < 8 ∧ portUp (s.port port) = true)
    ∧ (1 ≤ data.length ∧ data.length ≤ 256)
    ∧ (u = apRx s port { op := 0x40, data := data })
    ∧ (oget u.red.ctxs hd = some k)
    ∧ (k.hgen = hgen)
    ∧ (k.st ≠ .failed)
    ∧ (contribElems (oIn k.desc) data.length = some n)
    ∧ (¬ (oRanks k.desc ≤ rank ∨ bitAt (oMemMask k.desc) rank = true ∨ element % 32 ≠ 0 ∨ chunkEnd k.desc (chunkOf k.desc element) < element + n))
    ∧ (((groupsOf element n).any (fun g => k.got.contains (gotKey rank g))) = false)
    ∧ (isMx (oIn k.desc) = false)
    ∧ (co = { rank := rank, elem := element, n := n, data := data, len := data.length })
    ∧ (chunkOpen k (chunkOf k.desc element) = true)
    ∧ (foldable k co = true) :=
  ⟨0, 0, 1, 0, 0, 32, List.replicate 128 0#8, ctxOf, { rank := 0, elem := 0, n := 32, data := List.replicate 128 0#8, len := 128 }, { winSt 0 with red := { ctxs := [(0, ctxOf)] } }, apRx { winSt 0 with red := { ctxs := [(0, ctxOf)] } } 0 { op := 0x40, data := List.replicate 128 0#8 }, by decide +kernel⟩
theorem test_meets_ContributionsAndResults_pullDataReturn : ∃ (hd which c e n tile : Nat) (back : PullRead) (bs ss : List Byte) (b : Nat × Nat) (k k1 : Ctx) (p p1 : Pull) (s u v : State),
    (oget s.red.ctxs hd = some k ∧ k.pulls[which]? = some p)
    ∧ ((pullLeft k p).find? (fun c => pullAgain k p c || pullFits k p c) = some c ∧ pullAgain k p c = false)
    ∧ (pullPart k p c = (e, n) ∧ tile = chunkTile k c ∧ b = pullBytes (oIn k.desc) n)
    ∧ (spaceRead s tile (p.addr + pullOff (oIn k.desc) (e - p.first)) b.1 back.elems ((hostBytes back.host).take b.1) back.host = (u, 0, bs) ∧ bs.length = b.1)
    ∧ ((if b.2 = 0 then (u, 0, []) else spaceRead u tile (p.scale + (e - p.first) / 32) b.2 back.scales ((hostBytes back.host).drop b.1) back.host) = (v, 0, ss) ∧ ss.length = b.2)
    ∧ (p1 = { p with parts := p.parts ++ [c] } ∧ k1 = { k with pulls := k.pulls.set which p1 }) :=
  ⟨0, 0, 0, 992, 32, 0, {}, List.replicate 128 0#8, [], (128, 0), { memCtx with pulls := [pullRec] }, { memCtx with pulls := [{ pullRec with parts := [0] }] }, pullRec, { pullRec with parts := [0] }, { stkSt with red := { ctxs := [(0, { memCtx with pulls := [pullRec] })] } }, (spaceRead { stkSt with red := { ctxs := [(0, { memCtx with pulls := [pullRec] })] } } 0 0 128 .good [] (.ok [])).1, (spaceRead { stkSt with red := { ctxs := [(0, { memCtx with pulls := [pullRec] })] } } 0 0 128 .good [] (.ok [])).1, by decide +kernel⟩
theorem test_meets_ContributionsAndResults_pullDataReturn_again : ∃ (hd which c : Nat) (back : PullRead) (k : Ctx) (p : Pull) (s : State),
    (oget s.red.ctxs hd = some k)
    ∧ (k.pulls[which]? = some p)
    ∧ ((pullLeft k p).find? (fun c => pullAgain k p c || pullFits k p c) = some c)
    ∧ (pullAgain k p c = true) :=
  ⟨0, 0, 0, {}, { memCtx with pulls := [pullRec], got := [31] }, pullRec, { stkSt with red := { ctxs := [(0, { memCtx with pulls := [pullRec], got := [31] })] } }, by decide +kernel⟩
theorem test_meets_ContributionsAndResults_resultWriteAccepted : ∃ (hd tile : Nat) (k : Ctx) (e : Emission) (s u : State),
    (oget s.red.ctxs hd = some k)
    ∧ (emitting k tile = some e)
    ∧ (e.writeDue = true)
    ∧ (e.scales = [])
    ∧ (spaceWrite s tile (oResult k.desc + pullOff (oOut k.desc) (e.chunk * 2 ^ oChunkLog2 k.desc)) e.data = (u, 0)) :=
  ⟨0, 0, { ctxOf with emis := [{ writeDue := true, data := [1] }] }, { writeDue := true, data := [1] }, { stkSt with red := { ctxs := [(0, { ctxOf with emis := [{ writeDue := true, data := [1] }] })] } }, (spaceWrite { stkSt with red := { ctxs := [(0, { ctxOf with emis := [{ writeDue := true, data := [1] }] })] } } 0 (2^20) [1]).1, by decide +kernel⟩
theorem test_meets_ContributionsAndResults_resultCopyDepart : ∃ (hd tile el : Nat) (bs : List Byte) (rest : List (Nat × List Byte)) (k : Ctx) (e : Emission) (t : Txn) (s u : State),
    (oget s.red.ctxs hd = some k)
    ∧ (emitting k tile = some e)
    ∧ (e.pieces = (el, bs) :: rest)
    ∧ (t = { op := 0x41, length := bs.length, addr := hd + k.hgen * 2 ^ 12 + el * 2 ^ 32, data := bs })
    ∧ ((((List.range 8).filter (fun p => bitAt (oPorts k.desc) p)).any (fun p => portUp (s.port p) && !egressRoom (s.port p) t)) = false)
    ∧ (u = ((List.range 8).filter (fun p => bitAt (oPorts k.desc) p)).foldl (fun s p => if portUp (s.port p) then pushEgress s p { cls := 1, vc := 3, src := 8, eng := .result hd k.hgen, txn := t } else (dropAt s p).modCtx hd (fun k => { k with missed := Nat.lor k.missed (2 ^ p) })) s) :=
  ⟨0, 0, 0, [7], [], { ctxOf with emis := [{ pieces := [(0, [7])] }] }, { pieces := [(0, [7])] }, { op := 0x41, length := 1, addr := 4096, data := [7] }, { winSt 0 with red := { ctxs := [(0, { ctxOf with emis := [{ pieces := [(0, [7])] }] })] } }, { winSt 0 with red := { ctxs := [(0, { ctxOf with emis := [{ pieces := [(0, [7])] }] })] } }, by decide +kernel⟩
theorem test_meets_ContributionsAndResults_spillReadReturn : ∃ (hd tile : Nat) (k k2 k3 : Ctx) (c : Contr) (bs : List Byte) (s u : State),
    (oget s.red.ctxs hd = some k)
    ∧ (k.waits.find? (fun c => c.cell.isSome && chunkOpen k (chunkOf k.desc c.elem) && foldable k c) = some c)
    ∧ (tile = chunkTile k (chunkOf k.desc c.elem))
    ∧ (engineRead s (sumDom tile) (oSpillBase k.desc + 256 * c.cell.getD 0) c.len = (u, 0, bs))
    ∧ (foldContr { k with waits := k.waits.erase c } (contrOf (oIn k.desc) c.rank c.elem c.n bs) = .inl k2)
    ∧ (cascade (k2.waits.length + 1) k2 = .inl k3) :=
  ⟨0, 0, spilCtx, spilK, spilK, spilOne, List.replicate 128 0#8, spilSt, (engineRead spilSt 16 0 128).1, by decide +kernel⟩
theorem test_meets_PynexArithmeticCompletes_alu : ∃ (core : Nat) (lo : BitVec 32) (x : BitVec 64) (s : State),
    (Executes s core 0x01 lo.toNat)
    ∧ (aluFn (fld lo.toNat 0 7) (getR (s.core core) (fRs1 lo.toNat)) (getR (s.core core) (fRs2 lo.toNat)) = some x)
    ∧ (unaryFn (fld lo.toNat 0 7) = true → fRs2 lo.toNat = 0) :=
  ⟨0, 0x4020000, 0, coreSt, by decide +kernel⟩
theorem test_meets_PynexArithmeticCompletes_alu_unlisted : ∃ (core : Nat) (lo : BitVec 32) (s : State),
    (Executes s core 0x01 lo.toNat)
    ∧ (aluFn (fld lo.toNat 0 7) (getR (s.core core) (fRs1 lo.toNat)) (getR (s.core core) (fRs2 lo.toNat)) = none) :=
  ⟨0, 0x4020007, coreSt, by decide +kernel⟩
theorem test_meets_PynexArithmeticCompletes_opcode_unlisted : ∃ (core : Nat) (lo : BitVec 32) (s : State),
    (canRun s core = true ∧ fetchOk core (s.core core) (s.core core).pc = true ∧ getP (s.core core) (fld lo.toNat 23 3) ≠ bitAt lo.toNat 22)
    ∧ (listedOp (fld lo.toNat 26 6) = false) :=
  ⟨0, 0x1C000000, coreSt, by decide +kernel⟩
theorem test_meets_PynexArithmeticCompletes_addi : ∃ (core : Nat) (lo : BitVec 32) (s : State),
    (Executes s core 0x02 lo.toNat) :=
  ⟨0, 0x8020FFF, coreSt, by decide +kernel⟩
theorem test_meets_PynexArithmeticCompletes_andi : ∃ (core : Nat) (lo : BitVec 32) (s : State),
    (Executes s core 0x03 lo.toNat) :=
  ⟨0, 0xC020FFF, coreSt, by decide +kernel⟩
theorem test_meets_PynexArithmeticCompletes_ori : ∃ (core : Nat) (lo : BitVec 32) (s : State),
    (Executes s core 0x04 lo.toNat) :=
  ⟨0, 0x10020FFF, coreSt, by decide +kernel⟩
theorem test_meets_PynexArithmeticCompletes_xori : ∃ (core : Nat) (lo : BitVec 32) (s : State),
    (Executes s core 0x05 lo.toNat) :=
  ⟨0, 0x14020FFF, coreSt, by decide +kernel⟩
theorem test_meets_PynexArithmeticCompletes_shifti : ∃ (core : Nat) (lo : BitVec 32) (s : State),
    (Executes s core 0x06 lo.toNat)
    ∧ (fld lo.toNat 8 4 = 0) :=
  ⟨0, 0x18020043, coreSt, by decide +kernel⟩
theorem test_meets_PynexArithmeticCompletes_movi : ∃ (core : Nat) (lo : BitVec 32) (s : State),
    (Executes s core 0x08 lo.toNat) :=
  ⟨0, 0x2003FFFF, coreSt, by decide +kernel⟩
theorem test_meets_PynexArithmeticCompletes_movk16 : ∃ (core : Nat) (lo : BitVec 32) (s : State),
    (Executes s core 0x09 lo.toNat)
    ∧ (bitAt lo.toNat 16 = false) :=
  ⟨0, 0x2402BEEF, coreSt, by decide +kernel⟩
theorem test_meets_PynexArithmeticCompletes_movk32 : ∃ (core : Nat) (lo : BitVec 32) (s : State),
    (Executes s core 0x0A lo.toNat)
    ∧ (bitAt lo.toNat 16 = false) :=
  ⟨0, 0x2802BEEF, coreSt, by decide +kernel⟩
theorem test_meets_PynexArithmeticCompletes_movk48 : ∃ (core : Nat) (lo : BitVec 32) (s : State),
    (Executes s core 0x0B lo.toNat)
    ∧ (bitAt lo.toNat 16 = false) :=
  ⟨0, 0x2C02BEEF, coreSt, by decide +kernel⟩
theorem test_meets_PynexGuardAndPredicates_guard : ∃ (core : Nat) (lo : BitVec 32) (s : State),
    (canRun s core = true)
    ∧ (fetchOk core (s.core core) (s.core core).pc = true)
    ∧ (getP (s.core core) (fld lo.toNat 23 3) = bitAt lo.toNat 22) :=
  ⟨0, 0x8400000, coreSt, by decide +kernel⟩
theorem test_meets_PynexGuardAndPredicates_cmp : ∃ (core : Nat) (lo : BitVec 32) (s : State),
    (Executes s core 0x0C lo.toNat)
    ∧ (fld lo.toNat 17 2 = 0 ∧ fld lo.toNat 3 4 = 0) :=
  ⟨0, 0x30080000, coreSt, by decide +kernel⟩
theorem test_meets_PynexGuardAndPredicates_cmpi : ∃ (core : Nat) (lo : BitVec 32) (s : State),
    (Executes s core 0x0D lo.toNat) :=
  ⟨0, 0x34080000, coreSt, by decide +kernel⟩
theorem test_meets_PynexGuardAndPredicates_plog : ∃ (core : Nat) (lo : BitVec 32) (a b : Bool) (s : State),
    (Executes s core 0x0E lo.toNat)
    ∧ (fld lo.toNat 0 11 = 0)
    ∧ (a = getP (s.core core) (fld lo.toNat 16 3) ∧ b = getP (s.core core) (fld lo.toNat 13 3)) :=
  ⟨0, 0x38080000, true, true, coreSt, by decide +kernel⟩
theorem test_meets_PynexGuardAndPredicates_pmov : ∃ (core : Nat) (lo : BitVec 32) (s : State),
    (Executes s core 0x0F lo.toNat)
    ∧ (fld lo.toNat 0 16 = 0) :=
  ⟨0, 0x3C030000, coreSt, by decide +kernel⟩
theorem test_meets_PynexLoadsAndStoresComplete_ld64 : ∃ (core a : Nat) (lo : BitVec 32) (s : State),
    (Executes s core 0x13 lo.toNat)
    ∧ (a = mAddr (s.core core) lo.toNat)
    ∧ (isLocal core a 8 = true)
    ∧ (accessFault s core a 8 false = none) :=
  ⟨0, 0x100000, 0x4C021000, coreSt, by decide +kernel⟩
theorem test_meets_PynexLoadsAndStoresComplete_ld32 : ∃ (core a : Nat) (lo : BitVec 32) (s : State),
    (Executes s core 0x12 lo.toNat)
    ∧ (a = mAddr (s.core core) lo.toNat)
    ∧ (isLocal core a 4 = true)
    ∧ (accessFault s core a 4 false = none) :=
  ⟨0, 0x100000, 0x48021000, coreSt, by decide +kernel⟩
theorem test_meets_PynexLoadsAndStoresComplete_ld16 : ∃ (core a : Nat) (lo : BitVec 32) (s : State),
    (Executes s core 0x11 lo.toNat)
    ∧ (a = mAddr (s.core core) lo.toNat)
    ∧ (isLocal core a 2 = true)
    ∧ (accessFault s core a 2 false = none) :=
  ⟨0, 0x100000, 0x44021000, coreSt, by decide +kernel⟩
theorem test_meets_PynexLoadsAndStoresComplete_ld8 : ∃ (core a : Nat) (lo : BitVec 32) (s : State),
    (Executes s core 0x10 lo.toNat)
    ∧ (a = mAddr (s.core core) lo.toNat)
    ∧ (isLocal core a 1 = true)
    ∧ (accessFault s core a 1 false = none) :=
  ⟨0, 0x100000, 0x40021000, coreSt, by decide +kernel⟩
theorem test_meets_PynexLoadsAndStoresComplete_lds32 : ∃ (core a : Nat) (lo : BitVec 32) (s : State),
    (Executes s core 0x16 lo.toNat)
    ∧ (a = mAddr (s.core core) lo.toNat)
    ∧ (isLocal core a 4 = true)
    ∧ (accessFault s core a 4 false = none) :=
  ⟨0, 0x100000, 0x58021000, coreSt, by decide +kernel⟩
theorem test_meets_PynexLoadsAndStoresComplete_lds16 : ∃ (core a : Nat) (lo : BitVec 32) (s : State),
    (Executes s core 0x15 lo.toNat)
    ∧ (a = mAddr (s.core core) lo.toNat)
    ∧ (isLocal core a 2 = true)
    ∧ (accessFault s core a 2 false = none) :=
  ⟨0, 0x100000, 0x54021000, coreSt, by decide +kernel⟩
theorem test_meets_PynexLoadsAndStoresComplete_lds8 : ∃ (core a : Nat) (lo : BitVec 32) (s : State),
    (Executes s core 0x14 lo.toNat)
    ∧ (a = mAddr (s.core core) lo.toNat)
    ∧ (isLocal core a 1 = true)
    ∧ (accessFault s core a 1 false = none) :=
  ⟨0, 0x100000, 0x50021000, coreSt, by decide +kernel⟩
theorem test_meets_PynexLoadsAndStoresComplete_load_waits : ∃ (core a b : Nat) (lo : BitVec 32) (s : State),
    (Executes s core 0x13 lo.toNat)
    ∧ (a = mAddr (s.core core) lo.toNat)
    ∧ (place core a 8 = .stack b)
    ∧ (accessFault s core a 8 false = none) :=
  ⟨0, 2 ^ 63, 0, 0x4C023000, ldStk, by decide +kernel⟩
theorem test_meets_PynexLoadsAndStoresComplete_load_faults : ∃ (core code : Nat) (lo : BitVec 32) (s : State),
    (Executes s core 0x13 lo.toNat)
    ∧ (accessFault s core (mAddr (s.core core) lo.toNat) 8 false = some code) :=
  ⟨0, 2, 0x4C021001, coreSt, by decide +kernel⟩
theorem test_meets_PynexLoadsAndStoresComplete_loadDataReturn : ∃ (core rd n a since b : Nat) (v : BitVec 64) (s : State),
    ((s.core core).act = .loading rd n false a since)
    ∧ (place core a n = .stack b)
    ∧ (accessWaits s b = false)
    ∧ (lineBad s (b / 64 * 64) = false) :=
  ⟨0, 1, 8, 2 ^ 63, 0, 0, 0, { coreSt with cores := [(0, { act := .loading 1 8 false (2 ^ 63) 0 })] }, by decide +kernel⟩
theorem test_meets_PynexLoadsAndStoresComplete_st64 : ∃ (core a : Nat) (lo : BitVec 32) (s : State),
    (Executes s core 0x1B lo.toNat)
    ∧ (a = mAddr (s.core core) lo.toNat)
    ∧ (isLocal core a 8 = true)
    ∧ (accessFault s core a 8 true = none) :=
  ⟨0, 0x100000, 0x6C021000, coreSt, by decide +kernel⟩
theorem test_meets_PynexLoadsAndStoresComplete_st32 : ∃ (core a : Nat) (lo : BitVec 32) (s : State),
    (Executes s core 0x1A lo.toNat)
    ∧ (a = mAddr (s.core core) lo.toNat)
    ∧ (isLocal core a 4 = true)
    ∧ (accessFault s core a 4 true = none) :=
  ⟨0, 0x100000, 0x68021000, coreSt, by decide +kernel⟩
theorem test_meets_PynexLoadsAndStoresComplete_st16 : ∃ (core a : Nat) (lo : BitVec 32) (s : State),
    (Executes s core 0x19 lo.toNat)
    ∧ (a = mAddr (s.core core) lo.toNat)
    ∧ (isLocal core a 2 = true)
    ∧ (accessFault s core a 2 true = none) :=
  ⟨0, 0x100000, 0x64021000, coreSt, by decide +kernel⟩
theorem test_meets_PynexLoadsAndStoresComplete_st8 : ∃ (core a : Nat) (lo : BitVec 32) (s : State),
    (Executes s core 0x18 lo.toNat)
    ∧ (a = mAddr (s.core core) lo.toNat)
    ∧ (isLocal core a 1 = true)
    ∧ (accessFault s core a 1 true = none) :=
  ⟨0, 0x100000, 0x60021000, coreSt, by decide +kernel⟩
theorem test_meets_PynexLoadsAndStoresComplete_cas : ∃ (core : Nat) (lo : BitVec 32) (a : Nat) (old : BitVec 64) (s : State),
    (Executes s core 0x1C lo.toNat)
    ∧ (fld lo.toNat 0 7 = 0)
    ∧ (a = (getR (s.core core) (fRs1 lo.toNat)).toNat)
    ∧ (a % 8 = 0 ∧ isLocal core a 8 = true ∧ regionOk core (s.core core) a 8 0 = true ∧ regionOk core (s.core core) a 8 1 = true)
    ∧ (old = BitVec.ofNat 64 (leNat (localRead s core a 8))) :=
  ⟨0, 0x70021000, 0x100000, 0, coreSt, by decide +kernel⟩
theorem test_meets_PynexLoadsAndStoresComplete_fence : ∃ (core : Nat) (lo : BitVec 32) (s : State),
    (Executes s core 0x1D lo.toNat)
    ∧ (fld lo.toNat 1 21 = 0) :=
  ⟨0, 0x74000001, coreSt, by decide +kernel⟩
theorem test_meets_PynexControlFlow_br : ∃ (core : Nat) (lo : BitVec 32) (s : State),
    (Executes s core 0x20 lo.toNat) :=
  ⟨0, 0x80000004, coreSt, by decide +kernel⟩
theorem test_meets_PynexControlFlow_jr : ∃ (core : Nat) (lo : BitVec 32) (s : State),
    (Executes s core 0x21 lo.toNat)
    ∧ (fld lo.toNat 17 5 = 0 ∧ fld lo.toNat 0 12 = 0) :=
  ⟨0, 0x84001000, coreSt, by decide +kernel⟩
theorem test_meets_PynexControlFlow_adr : ∃ (core : Nat) (lo : BitVec 32) (s : State),
    (Executes s core 0x22 lo.toNat) :=
  ⟨0, 0x88020004, coreSt, by decide +kernel⟩
theorem test_meets_PynexControlFlow_call : ∃ (core : Nat) (lo : BitVec 32) (t : Nat) (s : State),
    (Executes s core 0x24 lo.toNat)
    ∧ (bitAt lo.toNat 16 = false)
    ∧ ((s.core core).depth ≠ 65535 ∧ (s.core core).resident < 31)
    ∧ (t = (getR (s.core core) (fRd lo.toNat)).toNat)
    ∧ (t % 4 = 0 ∧ fetchOk core (s.core core) t = true) :=
  ⟨0, 0x90040001, 0x40, coreSt, by decide +kernel⟩
theorem test_meets_PynexControlFlow_ret : ∃ (core : Nat) (lo : BitVec 32) (s : State),
    (Executes s core 0x25 lo.toNat)
    ∧ (fld lo.toNat 0 22 = 0)
    ∧ (0 < (s.core core).depth ∧ (s.core core).resident ≠ 1) :=
  ⟨0, 0x94000000, deepSt false, by decide +kernel⟩
theorem test_meets_PynexControlFlow_eret : ∃ (core : Nat) (lo : BitVec 32) (s : State),
    (Executes s core 0x26 lo.toNat)
    ∧ (fld lo.toNat 0 22 = 0)
    ∧ ((s.core core).inHandler = true)
    ∧ (0 < (s.core core).depth ∧ (s.core core).resident ≠ 1) :=
  ⟨0, 0x98000000, deepSt true, by decide +kernel⟩
theorem test_meets_PynexControlFlow_trap : ∃ (core : Nat) (lo : BitVec 32) (s t : State),
    (Executes s core 0x27 lo.toNat)
    ∧ (fld lo.toNat 16 6 = 0)
    ∧ ((s.core core).inHandler = false ∧ (s.core core).evec ≠ 0 ∧ (s.core core).resident < 31)
    ∧ (t = (s.modCore core (fun c => { c with epc := c.pc, ecause := 0x0A, eaddr := fld lo.toNat 0 16 })).modCore core (fun c => { c with maskOf := mset c.maskOf c.depth 0xFFFF 0 })) :=
  ⟨0, 0x9C000007, coreSt, (coreSt.modCore 0 (fun c => { c with epc := c.pc, ecause := 0x0A, eaddr := 7 })).modCore 0 (fun c => { c with maskOf := mset c.maskOf 0 0xFFFF 0 }), by decide +kernel⟩
theorem test_meets_PynexStepsAndWaits_step : ∃ (core a : Nat) (lo : BitVec 32) (s : State),
    (Executes s core 0x30 lo.toNat)
    ∧ (core < 64)
    ∧ (a = mAddr (s.core core) lo.toNat)
    ∧ (a % 64 = 0 ∧ isLocal core a 64 = true ∧ regionOk core (s.core core) a 64 0 = true) :=
  ⟨0, 0x100000, 0xC0021000, coreSt, by decide +kernel⟩
theorem test_meets_PynexStepsAndWaits_wait : ∃ (core sel us p : Nat) (lo : BitVec 32) (s : State),
    (Executes s core 0x31 lo.toNat)
    ∧ (sel = (getR (s.core core) (fRs1 lo.toNat)).toNat ∧ us = (getR (s.core core) (fRs2 lo.toNat)).toNat % 2 ^ 32)
    ∧ (fld lo.toNat 0 7 = 0 ∧ sel < 16)
    ∧ (bitAt sel 2 = true → watchOk core (s.core core) = true)
    ∧ (p = Nat.land (pendingSrc s core) sel) :=
  ⟨0, 1, 64, 0, 0xC4023100, { cores := [(0, { coreOn with g := [(2, 0x40#64), (3, 1#64)] })] }, by decide +kernel⟩
theorem test_meets_PynexStepsAndWaits_waitWake : ∃ (core rd sel since : Nat) (s : State),
    ((s.core core).act = .waiting rd sel none since)
    ∧ (Nat.land (pendingSrc s core) sel ≠ 0) :=
  ⟨0, 1, 1, 0, { cores := [(0, { coreOn with act := .waiting 1 1 none 0, mbox := [{}] })] }, by decide +kernel⟩
theorem test_meets_PynexStepsAndWaits_alive : ∃ (core : Nat) (lo : BitVec 32) (s : State),
    (Executes s core 0x34 lo.toNat)
    ∧ (fld lo.toNat 1 16 = 0) :=
  ⟨0, 0xD0020001, coreSt, by decide +kernel⟩
theorem test_meets_PynexStepsAndWaits_stuckAccess : ∃ (core a since : Nat) (s : State),
    ((s.core core).act = .stuck a since) :=
  ⟨0, 8, 0, { cores := [(0, { coreOn with act := .stuck 8 0 })] }, by decide +kernel⟩
theorem test_meets_PynexLocksAndControlRegisters_lock : ∃ (core n : Nat) (lo : BitVec 32) (s : State),
    (Executes s core 0x32 lo.toNat)
    ∧ (n = (getR (s.core core) (fRs1 lo.toNat)).toNat)
    ∧ (fld lo.toNat 1 11 = 0 ∧ n ≤ 1023)
    ∧ (locksHeld s core < 16) :=
  ⟨0, 64, 0xC8022000, coreSt, by decide +kernel⟩
theorem test_meets_PynexLocksAndControlRegisters_lock_faults : ∃ (core n : Nat) (lo : BitVec 32) (s : State),
    (Executes s core 0x32 lo.toNat)
    ∧ (n = (getR (s.core core) (fRs1 lo.toNat)).toNat)
    ∧ (fld lo.toNat 1 11 = 0)
    ∧ (1023 < n ∨ (s.lockReg n).holder = some core ∨ 16 ≤ locksHeld s core) :=
  ⟨0, 0x100000, 0xC8021000, coreSt, by decide +kernel⟩
theorem test_meets_PynexLocksAndControlRegisters_lockGrant : ∃ (n core rd m since : Nat) (s : State),
    ((s.lockReg n).holder = none)
    ∧ (rotPick 66 (s.lockReg n).ptr (lockClaims s n) = some core)
    ∧ ((s.core core).act = .locking rd m since) :=
  ⟨5, 0, 1, 5, 0, { cores := [(0, { coreOn with act := .locking 1 5 0 })], fw := { locks := [(5, { ptr := 1 })] } }, by decide +kernel⟩
theorem test_meets_PynexLocksAndControlRegisters_unlock : ∃ (core n : Nat) (lo : BitVec 32) (s : State),
    (Executes s core 0x33 lo.toNat)
    ∧ (n = (getR (s.core core) (fRs1 lo.toNat)).toNat)
    ∧ (fld lo.toNat 17 5 = 0 ∧ fld lo.toNat 0 12 = 0) :=
  ⟨0, 0x100000, 0xCC001000, coreSt, by decide +kernel⟩
theorem test_meets_PynexLocksAndControlRegisters_csrr : ∃ (core x : Nat) (c2 : Core) (lo : BitVec 32) (s : State),
    (Executes s core 0x36 lo.toNat)
    ∧ (fld lo.toNat 12 5 = 0 ∧ readCsr s core (fld lo.toNat 0 12) = some (x, c2)) :=
  ⟨0, 0x100, coreOn, 0xD802000B, coreSt, by decide +kernel⟩
theorem test_meets_PynexLocksAndControlRegisters_scqPop : ∃ (core : Nat) (lo : BitVec 32) (e : Nat × Nat) (r : List (Nat × Nat)) (s : State),
    (Executes s core 0x36 (setFld lo.toNat 0 17 0x019))
    ∧ ((s.core core).scq = e :: r) :=
  ⟨0, 0xD8020000, (1, 2), [], { cores := [(0, { coreOn with scq := [(1, 2)] })] }, by decide +kernel⟩
theorem test_meets_PynexLocksAndControlRegisters_mboxPop : ∃ (core : Nat) (lo : BitVec 32) (m : Mbox) (ms : List Mbox) (s : State),
    (Executes s core 0x36 (setFld lo.toNat 0 17 0x01A))
    ∧ ((s.core core).mbox = m :: ms) :=
  ⟨0, 0xD8020000, {}, [], { cores := [(0, { coreOn with mbox := [{}] })] }, by decide +kernel⟩
theorem test_meets_PynexLocksAndControlRegisters_csrw : ∃ (core : Nat) (lo : BitVec 32) (s : State),
    (Executes s core 0x37 lo.toNat)
    ∧ (fld lo.toNat 12 5 = 0) :=
  ⟨0, 0xDC020012, coreSt, by decide +kernel⟩

end Sys2Proof.Tests
end

