-- ==== Sys2Proof/Tests/MeetsB.lean ====
section
/-!
SUPPORT. Concrete states and operands that meet the hypotheses of each clause together: firmware, serving, checkpoints, remote memory, classification and queues.
-/
set_option Elab.async false
set_option linter.unusedVariables false
namespace Sys2Proof.Tests
open Sys2Proof Sys2Proof.Machine

theorem test_meets_CoreStopsReloadsAndAdoption_coreStop : ∃ (c : Nat) (near : List Nat) (s : State),
    (c < 64)
    ∧ ((s.core c).act = .stopped)
    ∧ ((s.core c).st = .running)
    ∧ (near = (s.core c).stops.filter (fun t => s.vcycle < t + tenSeconds)) :=
  ⟨3, [], { cores := [(3, { st := .running, ecause := 14 })] }, by decide +kernel⟩
theorem test_meets_CoreStopsReloadsAndAdoption_coreStop_keeper : ∃ (c : Nat) (s : State),
    (64 ≤ c ∧ c < 66)
    ∧ ((s.core c).act = .stopped)
    ∧ (lget s.fw.dkUp (c - 64) false = true) :=
  ⟨65, { fw := { dkUp := [true, true] } }, by decide +kernel⟩
theorem test_meets_CoreStopsReloadsAndAdoption_coreReloadComplete : ∃ (c : Nat) (f : Codeword) (s u : State),
    (c < 64 ∧ activeUp s = true)
    ∧ ((s.core c).st = .reloading)
    ∧ ((s.core c).journaled = false)
    ∧ (u = replayLaunch (unholdAll (s.modCore c (fun k => { freshCore s c k with st := .running, restarts := satAdd 8 k.restarts 1 })) c) c) :=
  ⟨3, .good, upSt (3, { st := .reloading }), replayLaunch (unholdAll ((upSt (3, { st := .reloading })).modCore 3 (fun k => { freshCore (upSt (3, { st := .reloading })) 3 k with st := .running, restarts := satAdd 8 k.restarts 1 })) 3) 3, by decide +kernel⟩
theorem test_meets_CoreStopsReloadsAndAdoption_coreFailedAdoption : ∃ (c : Nat) (s : State),
    (c < 64)
    ∧ ((s.core c).st = .failed)
    ∧ ((s.core c).adopted = false) :=
  ⟨3, { cores := [(3, { st := .failed })] }, by decide +kernel⟩
theorem test_meets_CoreStopsReloadsAndAdoption_aliveSample : ∃ (s u : State),
    (u = advanceTo s ((s.vcycle / (250 * usCycles) + 1) * (250 * usCycles)))
    ∧ (activeUp u = false)
    ∧ (keeperUp u 0 = false ∧ keeperUp u 1 = false) :=
  ⟨State.reset, advanceTo State.reset (250 * usCycles), by decide +kernel⟩
theorem test_meets_KeepersAndHandoffs_keeperFailover : ∃ (s u : State),
    (keeperUp s s.fw.active = false ∧ keeperUp s (1 - s.fw.active) = true)
    ∧ (u = (if lget s.fw.dkUp s.fw.active false then stopKeeper s s.fw.active (fld (s.core (64 + s.fw.active)).ecause 0 8) else s)) :=
  ⟨{ fw := { dkUp := [false, true] }, cores := [(65, { act := .running })] }, { fw := { dkUp := [false, true] }, cores := [(65, { act := .running })] }, by decide +kernel⟩
theorem test_meets_KeepersAndHandoffs_keeperReloadComplete : ∃ (s : State),
    (activeUp s = true)
    ∧ (keeperUp s (1 - s.fw.active) = false) :=
  ⟨upSt (3, {}), by decide +kernel⟩
theorem test_meets_KeepersAndHandoffs_romKeeperRestart : ∃ (s : State),
    (s.power.romDone = true ∧ s.fw.bothDown = false)
    ∧ (lget s.fw.dkUp 0 false = false ∧ lget s.fw.dkUp 1 false = false) :=
  ⟨{ power := { romDone := true } }, by decide +kernel⟩
theorem test_meets_KeepersAndHandoffs_romKeeperRestart_noKick : ∃ (s u : State),
    (s.power.romDone = true ∧ s.fw.bothDown = false)
    ∧ (u = [0, 1].foldl (fun s n => if lget s.fw.dkUp n false then stopKeeper s n (s.core (64 + n)).lastCause else s) (advanceTo s (s.fw.kickAt + 5 * msCycles))) :=
  ⟨{ power := { romDone := true } }, advanceTo { power := { romDone := true } } (5 * msCycles), by decide +kernel⟩
theorem test_meets_KeepersAndHandoffs_drainRequest : ∃ (c : Nat) (r : Repl) (s : State),
    (s.fw.repl = some r)
    ∧ (activeUp s = true ∧ r.todo.head? = some c)
    ∧ ((s.core c).st = .running ∧ c < 64) :=
  ⟨3, { todo := [3] }, replSt .running, by decide +kernel⟩
theorem test_meets_KeepersAndHandoffs_drainCancel : ∃ (c : Nat) (s : State),
    ((s.core c).st = .draining)
    ∧ (activeUp s = true) :=
  ⟨3, replSt .draining, by decide +kernel⟩
theorem test_meets_KeepersAndHandoffs_handoffTimeout : ∃ (c : Nat) (s : State),
    ((s.core c).st = .draining)
    ∧ (tileLeaving s c = false) :=
  ⟨3, replSt .draining, by decide +kernel⟩
theorem test_meets_KeepersAndHandoffs_handoffRecord : ∃ (c : Nat) (s u : State),
    ((s.core c).st = .draining ∧ c < 64)
    ∧ (atService (s.core c) = true)
    ∧ (tileLeaving s c = false)
    ∧ (u = holdAll (breakLocks (keeperWord s c 0) c) c) :=
  ⟨3, replSt .draining, holdAll (breakLocks (keeperWord (replSt .draining) 3 0) 3) 3, by decide +kernel⟩
theorem test_meets_KeepersAndHandoffs_swapAdopt : ∃ (c : Nat) (s : State),
    ((s.core c).st = .swapping) :=
  ⟨3, replSt .swapping, by decide +kernel⟩
theorem test_meets_RuntimeServicesAnswer_rtStep : ∃ (core d tag : Nat) (l : Launch) (m : Comm) (a : List Nat) (s : State),
    (Calls s core 0 l m)
    ∧ (a = [(mget (s.core core).x 0 0#64).toNat])
    ∧ (lget a 0 0 % 64 = 0 ∧ pdm64 s core (lget a 0 0) = some d)
    ∧ (tag = l.stepSeq + 1) :=
  ⟨57, 0, 1, rtLaunch, {}, [0x100000], rtSt 0, by decide +kernel⟩
theorem test_meets_RuntimeServicesAnswer_rtReap : ∃ (core : Nat) (l : Launch) (m : Comm) (w : Nat × Nat) (rest : List (Nat × Nat)) (s : State),
    (Calls s core 1 l m)
    ∧ (isLibrary l.progId = false)
    ∧ ((s.core core).scq = w :: rest) :=
  ⟨57, rtLaunch, {}, (1, 2), [], rtSt 1, by decide +kernel⟩
theorem test_meets_RuntimeServicesAnswer_rtPut_full : ∃ (core node len : Nat) (l : Launch) (m : Comm) (q : Qp) (a : List Nat) (s : State),
    (Calls s core 2 l m)
    ∧ (a = (List.range 5).map (fun i => (mget (s.core core).x i 0#64).toNat))
    ∧ (node = lget a 0 0 ∧ len = lget a 3 0)
    ∧ (node < m.nodes ∧ node ≠ m.nodeIndex ∧ len % 64 = 0 ∧ len ≤ 2 ^ 31)
    ∧ (oget s.rdma.qps (lget m.peers node (0, 0, 0)).1 = some q)
    ∧ (q.st = .rts ∧ 2 ^ q.sqLog ≤ q.sends.length) :=
  ⟨57, 1, 0, rtLaunch, { nodes := 2, peers := [(0, 0, 0), (7, 0, 0)] }, { st := .rts, sqLog := 0, sends := [{}] }, [1, 0, 0, 0, 0], putSt, by decide +kernel⟩
theorem test_meets_RuntimeServicesAnswer_rtArrived : ∃ (core n : Nat) (l : Launch) (m : Comm) (a : List Nat) (s : State),
    (Calls s core 3 l m)
    ∧ (a = (List.range 2).map (fun i => (mget (s.core core).x i 0#64).toNat))
    ∧ (n = mget m.arrived (lget a 0 0) 0 - mget l.arrived (lget a 0 0) 0)
    ∧ (n ≠ 0 ∨ lget a 1 0 = 0) :=
  ⟨57, 0, rtLaunch, {}, [0x100000, 0], rtSt 3, by decide +kernel⟩
theorem test_meets_RuntimeServicesAnswer_rtMove_length : ∃ (core : Nat) (x : ARead) (l : Launch) (m : Comm) (a : List Nat) (s : State),
    (Calls s core 4 l m)
    ∧ (a = (List.range 3).map (fun i => (mget (s.core core).x i 0#64).toNat))
    ∧ (lget a 2 0 % 64 ≠ 0) :=
  ⟨57, .bad 0, rtLaunch, {}, [0x100000, 0, 1], { rtSt 4 with cores := [(57, { rtCore 4 with x := [(0, 0x100000#64), (2, 1#64)] })] }, by decide +kernel⟩
theorem test_meets_RuntimeServicesAnswer_rtMove : ∃ (core : Nat) (x : ARead) (l : Launch) (m : Comm) (a : List Nat) (src dst : Nat ⊕ (Nat × Nat × Nat)) (bs : List Byte) (s u : State),
    (Calls s core 4 l m)
    ∧ (a = (List.range 3).map (fun i => (mget (s.core core).x i 0#64).toNat))
    ∧ (lget a 2 0 % 64 = 0 ∧ lget a 2 0 ≠ 0)
    ∧ (moveAt m (lget a 0 0) (lget a 2 0) = some src ∧ moveAt m (lget a 1 0) (lget a 2 0) = some dst)
    ∧ (moveRead s src (lget a 2 0) x = (u, 0, bs)) :=
  ⟨57, .bad 0, rtLaunch, { stagingMib := 1 }, [0, 64, 64], .inl 0, .inl 64, List.replicate 64 0#8, moveSt, (engineRead moveSt 8 0 64).1, by decide +kernel⟩
theorem test_meets_RuntimeServicesAnswer_rtNotify : ∃ (core d : Nat) (l : Launch) (m : Comm) (a : List Nat) (s u : State),
    (Calls s core 5 l m)
    ∧ (a = [(mget (s.core core).x 0 0#64).toNat])
    ∧ (pdm64 s core (lget a 0 0) = some d)
    ∧ (notifyPorts l d s 0 (ranksOf m) = (u, 0)) :=
  ⟨57, 0, rtLaunch, {}, [0x100000], rtSt 5, rtSt 5, by decide +kernel⟩
theorem test_meets_RuntimeServicesAnswer_rtFinish : ∃ (core st : Nat) (l l1 : Launch) (m : Comm) (s u : State),
    (Calls s core 6 l m)
    ∧ (u = modRunning s core (fun l => (s.core core).scq.foldl (fun l w => absorbStep w l) l))
    ∧ (runningLaunch (u.core core) = some l1)
    ∧ (st = (mget (s.core core).x 0 0#64).toNat % 256) :=
  ⟨57, 0, rtLaunch, absorbStep (1, 2) rtLaunch, {}, rtSt 6, modRunning (rtSt 6) 57 (absorbStep (1, 2)), by decide +kernel⟩
theorem test_meets_RuntimeServicesAnswer_rtYield : ∃ (core : Nat) (l : Launch) (m : Comm) (s : State),
    (Calls s core 7 l m) :=
  ⟨57, rtLaunch, {}, rtSt 7, by decide +kernel⟩
theorem test_meets_ProgramsAndCommunicators_progLoad_vf : ∃ (r i : Nat) (x : HRead) (e : Fetched) (s : State),
    (Starts s r i 0x13 0x01 e)
    ∧ (isVf r = true) :=
  ⟨8, 1, .ok [], de 0x01, rs 8 0x13 0x01, by decide +kernel⟩
theorem test_meets_ProgramsAndCommunicators_progLoad : ∃ (r i n : Nat) (data : List Byte) (e : Fetched) (s u : State),
    (Starts s r i 0x13 0x01 e)
    ∧ (isVf r = false)
    ∧ (fld e.desc.toNat 64 64 % 64 = 0 ∧ 256 ≤ fld e.desc.toNat 128 32 ∧ fld e.desc.toNat 128 32 ≤ 2 ^ 20)
    ∧ (rdHost (begun s r i e) r (fld e.desc.toNat 128 32) (.ok data) = (0, data))
    ∧ (headerOk (leNat (data.take 256)) (fld e.desc.toNat 128 32) = true)
    ∧ (codeBanned ((sliceB data 256 (fld (leNat (data.take 256)) 80 16)).length / 4) (sliceB data 256 (fld (leNat (data.take 256)) 80 16)) = false)
    ∧ (s.trust.installer.any (fun k => hssVerify k.pub (data.drop (fld (leNat (data.take 256)) 160 32)) (data.take (fld (leNat (data.take 256)) 160 32))) = true)
    ∧ (s.fw.slots.any (fun p => p.2.progId == fld (leNat (data.take 256)) 48 16) = false)
    ∧ (lowestFree s.fw.slots 5 12 = some n)
    ∧ (auditRec (begun s r i e) 0x0300 2 r 0 (0x13 + fld (leNat (data.take 256)) 48 16 * 2 ^ 16) = some u) :=
  ⟨4, 1, 5, progImage, de progDesc, progSt, progAudited, ⟨by decide +kernel, by decide, by decide +kernel, by decide +kernel, by decide +kernel, by decide +kernel, progSt_signed, by decide +kernel, by decide +kernel, progSt_audited⟩⟩
theorem test_meets_ProgramsAndCommunicators_progUnload : ∃ (r i n : Nat) (x : Slot) (e : Fetched) (s u : State),
    (Starts s r i 0x13 0x02 e)
    ∧ (outranked s r i = false)
    ∧ (isVf r = false)
    ∧ (isLibrary (fld e.desc.toNat 64 16) = false)
    ∧ (s.fw.slots.find? (fun p => p.2.progId == fld e.desc.toNat 64 16) = some (n, x))
    ∧ (progUsers s (fld e.desc.toNat 64 16) = 0)
    ∧ (contradicted (begun s r i e) r 0x13 (fld e.desc.toNat 64 16) 1 = none)
    ∧ (u = noteDone (begun s r i e) r 0x13 (fld e.desc.toNat 64 16) 1) :=
  ⟨4, 1, 5, { progId := 0x1234 }, de (0x02 + 0x1234 * 2 ^ 64), { rs 4 0x13 (0x02 + 0x1234 * 2 ^ 64) with fw := { slots := [(5, { progId := 0x1234 })] } }, noteDone (begun { rs 4 0x13 (0x02 + 0x1234 * 2 ^ 64) with fw := { slots := [(5, { progId := 0x1234 })] } } 4 1 (de (0x02 + 0x1234 * 2 ^ 64))) 4 0x13 0x1234 1, by decide +kernel⟩
theorem test_meets_ProgramsAndCommunicators_commCreate : ∃ (r i c base x g : Nat) (e : Fetched) (s u : State),
    (Starts s r i 0x13 0x03 e)
    ∧ (outranked s r i = false)
    ∧ ((progSlot s (fld e.desc.toNat 64 16)).isSome = true)
    ∧ (nodesOk (fld e.desc.toNat 64 16) (fld e.desc.toNat 80 16) = true ∧ fld e.desc.toNat 96 16 < fld e.desc.toNat 80 16 ∧ fld e.desc.toNat 112 8 ≠ 0 ∧ 1 ≤ fld e.desc.toNat 128 16 ∧ fld e.desc.toNat 128 16 ≤ 4096)
    ∧ (contradicted (begun s r i e) r 0x13 (fld e.desc.toNat 64 16) 2 = none)
    ∧ (u = noteDone (begun s r i e) r 0x13 (fld e.desc.toNat 64 16) 2)
    ∧ (lowestFree u.fw.comms 0 1024 = some c ∧ placeStaging u (u.ring r i).owner (fld e.desc.toNat 128 16 * 2 ^ 20) = some base ∧ lowestFree u.rdma.mrs 0 (2 ^ 20) = some x)
    ∧ (g = (mget u.rdma.mrGen x 0 + 1) % 256) :=
  ⟨4, 1, 0, 4 * 2 ^ 36 + 0x27200000, 0, 1, de commDesc, commSt, noteDone (begun commSt 4 1 (de commDesc)) 4 0x13 0x0001 2, by decide +kernel⟩
theorem test_meets_ProgramsAndCommunicators_commConnect : ∃ (r i : Nat) (x : HRead) (m : Comm) (e : Fetched) (s : State),
    (Starts s r i 0x13 0x04 e)
    ∧ (oget s.fw.comms (fld e.desc.toNat 64 16) = some m)
    ∧ (owns s r m.own = true ∧ m.ring = i)
    ∧ (m.nodes = 1 ∧ m.nodeIndex = 0)
    ∧ ((rdHost (begun s r i e) r 16 x).1 = 0)
    ∧ (leNat (sliceB (rdHost (begun s r i e) r 16 x).2 0 16) = 0)
    ∧ (tooManyBound (begun s r i e) [] = false) :=
  ⟨4, 1, .ok [], { own := { fn := 4, gen := 1 }, ring := 1 }, de 0x04, { rs 4 0x13 0x04 with fw := { comms := [(0, { own := { fn := 4, gen := 1 }, ring := 1 })] } }, by decide +kernel⟩
theorem test_meets_ProgramsAndCommunicators_commDestroy : ∃ (r i : Nat) (m : Comm) (e : Fetched) (s : State),
    (Starts s r i 0x13 0x05 e)
    ∧ (oget s.fw.comms (fld e.desc.toNat 64 16) = some m)
    ∧ (owns s r m.own = true ∧ m.ring = i)
    ∧ ((allLaunches s).any (fun l => l.2.comm == fld e.desc.toNat 64 16) = false) :=
  ⟨4, 1, { own := { fn := 4, gen := 1 }, ring := 1 }, de 0x05, { rs 4 0x13 0x05 with fw := { comms := [(0, { own := { fn := 4, gen := 1 }, ring := 1 })] } }, by decide +kernel⟩
theorem test_meets_ProgramsAndCommunicators_collLaunch : ∃ (r i n : Nat) (m : Comm) (args : List Nat) (e : Fetched) (s u : State),
    (Starts s r i 0x13 0x06 e)
    ∧ (oget s.fw.comms (fld e.desc.toNat 64 16) = some m)
    ∧ (owns s r m.own = true ∧ m.ring = i ∧ m.connected = true)
    ∧ (launchFieldsOk e.desc.toNat = true)
    ∧ (n = (if m.launchSeq + 1 = 2 ^ 32 then 1 else m.launchSeq + 1) ∧ args = (List.range 4).map (fun k => fld e.desc.toNat (256 + 64 * k) 64))
    ∧ (u = begun s r i e) :=
  ⟨4, 1, 1, { own := { fn := 4, gen := 1 }, ring := 1, connected := true }, [0, 0, 0, 0], de (0x06 + 32 * 2 ^ 128), { rs 4 0x13 (0x06 + 32 * 2 ^ 128) with fw := { comms := [(0, { own := { fn := 4, gen := 1 }, ring := 1, connected := true })] } }, begun { rs 4 0x13 (0x06 + 32 * 2 ^ 128) with fw := { comms := [(0, { own := { fn := 4, gen := 1 }, ring := 1, connected := true })] } } 4 1 (de (0x06 + 32 * 2 ^ 128)), by decide +kernel⟩
theorem test_meets_ProgramsAndCommunicators_launchStart : ∃ (core slot entry : Nat) (m : Comm) (l : Launch) (rest : List Launch) (s : State),
    (canRun s core = true ∧ compOf core = 4)
    ∧ (runningLaunch (s.core core) = none)
    ∧ ((s.core core).launches = l :: rest)
    ∧ (oget s.fw.comms l.comm = some m ∧ progSlot s l.progId = some (slot, entry))
    ∧ ((isLibrary l.progId && !libArgsOk m l) = false) :=
  ⟨57, 5, 0, {}, { progId := 0x1234 }, [], { cores := [(57, { act := .running, st := .running, launches := [{ progId := 0x1234 }] })], fw := { comms := [(0, {})], slots := [(5, { progId := 0x1234 })] } }, by decide +kernel⟩
theorem test_meets_ProgramsAndCommunicators_collAbort : ∃ (r i c : Nat) (m : Comm) (l : Launch) (e : Fetched) (s u : State),
    (Picks s r i 0x13 0x07 e)
    ∧ (u = unorder (begun s r i e) (refOf r i e))
    ∧ (oget u.fw.comms (fld e.desc.toNat 64 16) = some m)
    ∧ (owns u r m.own = true ∧ m.ring = i)
    ∧ (firstPosted ((allLaunches u).filter (fun l => l.2.ref.fn == r && l.2.ref.ring == i && l.2.own == (begun s r i e).ownOf r && l.2.tag == fld e.desc.toNat 96 32)) = some (c, l)) :=
  ⟨4, 1, 57, { own := { fn := 4, gen := 1 }, ring := 1 }, { ref := { fn := 4, ring := 1 }, own := { fn := 4, gen := 1 } }, de 0x07, abrtSt, unorder (begun abrtSt 4 1 (de 0x07)) (refOf 4 1 (de 0x07)), by decide +kernel⟩
theorem test_meets_ProgramsAndCommunicators_collAbort_none : ∃ (r i : Nat) (m : Comm) (e : Fetched) (s u : State),
    (Picks s r i 0x13 0x07 e)
    ∧ (u = unorder (begun s r i e) (refOf r i e))
    ∧ (oget u.fw.comms (fld e.desc.toNat 64 16) = some m)
    ∧ (owns u r m.own = true ∧ m.ring = i)
    ∧ (firstPosted ((allLaunches u).filter (fun l => l.2.ref.fn == r && l.2.ref.ring == i && l.2.own == (begun s r i e).ownOf r && l.2.tag == fld e.desc.toNat 96 32)) = none)
    ∧ (fetchedLaunch u r i (fld e.desc.toNat 96 32) = none) :=
  ⟨4, 1, { own := { fn := 4, gen := 1 }, ring := 1 }, de 0x07, { abrtSt with cores := [] }, unorder (begun { abrtSt with cores := [] } 4 1 (de 0x07)) (refOf 4 1 (de 0x07)), by decide +kernel⟩
theorem test_meets_ProgramsAndCommunicators_collAbort_fetched : ∃ (r i : Nat) (m : Comm) (e e' : Fetched) (s u : State),
    (Picks s r i 0x13 0x07 e)
    ∧ (u = unorder (begun s r i e) (refOf r i e))
    ∧ (oget u.fw.comms (fld e.desc.toNat 64 16) = some m)
    ∧ (owns u r m.own = true ∧ m.ring = i)
    ∧ (firstPosted ((allLaunches u).filter (fun l => l.2.ref.fn == r && l.2.ref.ring == i && l.2.own == (begun s r i e).ownOf r && l.2.tag == fld e.desc.toNat 96 32)) = none)
    ∧ (fetchedLaunch u r i (fld e.desc.toNat 96 32) = some e') :=
  ⟨4, 1, { own := { fn := 4, gen := 1 }, ring := 1 }, { de 0x07 with seq := 1 }, { de 0x106 with seq := 0 }, abrtSt2, unorder (begun abrtSt2 4 1 { de 0x07 with seq := 1 }) (refOf 4 1 { de 0x07 with seq := 1 }), by decide +kernel⟩
theorem test_meets_KvClassesAndSequencesComplete_classSet : ∃ (r i : Nat) (c : KvClass) (e : Fetched) (s : State),
    (Starts s r i 0x14 0x01 e)
    ∧ (outranked s r i = false ∧ isVf r = false)
    ∧ (s.kv.seqs.any (fun q => q.2.cls == fld e.desc.toNat 64 6) = false)
    ∧ (c = { encoding := fld e.desc.toNat 70 4, raw := bitAt e.desc.toNat 74, blockLog2 := fld e.desc.toNat 75 5, t1 := fld e.desc.toNat 80 6, t2 := fld e.desc.toNat 86 6, t3 := fld e.desc.toNat 92 6, shift := sxt 6 (fld e.desc.toNat 98 6), promote := bitAt e.desc.toNat 104 })
    ∧ (c.encoding = 1 ∧ c.shift = 0 ∧ 14 ≤ c.blockLog2 ∧ c.blockLog2 ≤ 20)
    ∧ (clsPool c 1 = some 0 ∧ clsPool c 2 = none ∧ clsPool c 3 = none)
    ∧ (s.kv.committed = true ∧ (s.pool 0).kind = 1 ∧ storedBytes c.encoding (blockBytes c) ≤ (s.pool 0).slot4k * 4096)
    ∧ (contradicted (begun s r i e) r 0x14 (fld e.desc.toNat 64 6) (fld e.desc.toNat 70 35) = none) :=
  ⟨4, 1, { encoding := 1, blockLog2 := 14, t1 := 0 }, de clsDesc, { rs 4 0x14 clsDesc with kv := { committed := true, pools := [(0, { kind := 1, slot4k := 4, slots := 8 })] } }, by decide +kernel⟩
theorem test_meets_KvClassesAndSequencesComplete_classSet_vf : ∃ (r i : Nat) (e : Fetched) (s : State),
    (Starts s r i 0x14 0x01 e)
    ∧ (outranked s r i = false ∧ isVf r = true) :=
  ⟨8, 1, de 1, rs 8 0x14 1, by decide +kernel⟩
theorem test_meets_KvClassesAndSequencesComplete_seqOpen : ∃ (r i ix a : Nat) (img : List Byte) (e : Fetched) (s u : State),
    (Starts s r i 0x14 0x02 e)
    ∧ ((oget s.kv.classes (fld e.desc.toNat 168 6)).isSome = true ∧ s.kv.committed = true ∧ (s.t0p (fld e.desc.toNat 164 3)).enable = true ∧ (s.kcls (fld e.desc.toNat 168 6)).blockLog2 ≤ (s.t0p (fld e.desc.toNat 164 3)).slotLog2)
    ∧ (u = (begun s r i e))
    ∧ (tableOk u r (fld e.desc.toNat 164 3) (fld e.desc.toNat 160 4) (fld e.desc.toNat 192 64) (fld e.desc.toNat 256 19) = 0)
    ∧ (lowestFree s.kv.seqs 0 4096 = some ix)
    ∧ (targetAddr u (fld e.desc.toNat 164 3) (fld e.desc.toNat 160 4) (fld e.desc.toNat 192 64) (4 * fld e.desc.toNat 256 19) true = some a)
    ∧ (img = (List.range (fld e.desc.toNat 256 19)).flatMap (fun _ => natLE 4 noEntry)) :=
  ⟨4, 1, 0, 0, List.replicate 64 0xFF#8, de openDesc, openSt, begun openSt 4 1 (de openDesc), by decide +kernel⟩
theorem test_meets_KvClassesAndSequencesComplete_seqFork : ∃ (r i ix n mx : Nat) (q : Seq) (e : Fetched) (s u : State),
    (Starts s r i 0x14 0x03 e)
    ∧ (seqOfHandle s (fld e.desc.toNat 64 20) = some (ix, q) ∧ owns s r q.own = true)
    ∧ (n = fld e.desc.toNat 96 32 ∧ mx = fld e.desc.toNat 256 19 ∧ n ≤ q.blocks.length ∧ n ≤ mx)
    ∧ ((q.blocks.take n).any (fun b => (s.blk b).st == .fresh) = false)
    ∧ (u = (begun s r i e) ∧ tableOk u r q.port (fld e.desc.toNat 160 4) (fld e.desc.toNat 192 64) mx = 0) :=
  ⟨4, 1, 0, 1, 16, kvSeq, de forkDesc, forkSt, begun forkSt 4 1 (de forkDesc), by decide +kernel⟩
theorem test_meets_KvClassesAndSequencesComplete_seqClose : ∃ (r i ix : Nat) (q : Seq) (e : Fetched) (s : State),
    (Starts s r i 0x14 0x04 e)
    ∧ (seqOfHandle s (fld e.desc.toNat 64 20) = some (ix, q) ∧ owns s r q.own = true)
    ∧ (q.blocks.any (inPlan s) = false) :=
  ⟨4, 1, 0, kvSeq, de (seqDesc 4), seqSt (seqDesc 4), by decide +kernel⟩
theorem test_meets_KvClassesAndSequencesComplete_seqGrow : ∃ (r i ix n : Nat) (q : Seq) (e : Fetched) (s : State),
    (Starts s r i 0x14 0x05 e)
    ∧ (seqOfHandle s (fld e.desc.toNat 64 20) = some (ix, q) ∧ owns s r q.own = true)
    ∧ (n = fld e.desc.toNat 96 32 ∧ 0 < n ∧ n ≤ 4096)
    ∧ (q.blocks.length + n ≤ q.maxBlocks ∧ s.kv.blocks.length + n ≤ 2 ^ 27 ∧ n ≤ t0Avail s q.port []) :=
  ⟨4, 1, 0, 1, kvSeq, de (seqDesc 5 + 2 ^ 96), seqSt (seqDesc 5 + 2 ^ 96), by decide +kernel⟩
theorem test_meets_KvClassesAndSequencesComplete_seqSeal : ∃ (r i ix n : Nat) (q : Seq) (fresh : List Nat) (e : Fetched) (s : State),
    (Starts s r i 0x14 0x06 e)
    ∧ (seqOfHandle s (fld e.desc.toNat 64 20) = some (ix, q) ∧ owns s r q.own = true)
    ∧ (n = fld e.desc.toNat 96 32 ∧ n ≤ q.blocks.length)
    ∧ (fresh = (q.blocks.take n).filter (fun b => (s.blk b).st == .fresh)) :=
  ⟨4, 1, 0, 1, kvSeq, [], de (seqDesc 6 + 2 ^ 96), seqSt (seqDesc 6 + 2 ^ 96), by decide +kernel⟩
theorem test_meets_KvClassesAndSequencesComplete_seqTruncate : ∃ (r i ix n : Nat) (q : Seq) (e : Fetched) (s : State),
    (Starts s r i 0x14 0x07 e)
    ∧ (seqOfHandle s (fld e.desc.toNat 64 20) = some (ix, q) ∧ owns s r q.own = true)
    ∧ (n = fld e.desc.toNat 96 32 ∧ n ≤ q.blocks.length)
    ∧ ((q.blocks.drop n).any (inPlan s) = false) :=
  ⟨4, 1, 0, 1, kvSeq, de (seqDesc 7 + 2 ^ 96), seqSt (seqDesc 7 + 2 ^ 96), by decide +kernel⟩
theorem test_meets_KvClassesAndSequencesComplete_seqPin : ∃ (r i ix n : Nat) (q : Seq) (bs cur new : List Nat) (e : Fetched) (s : State),
    (Starts s r i 0x14 0x08 e)
    ∧ (seqOfHandle s (fld e.desc.toNat 64 20) = some (ix, q) ∧ owns s r q.own = true)
    ∧ (n = rangeCount q (fld e.desc.toNat 96 32) (fld e.desc.toNat 128 32) ∧ fld e.desc.toNat 96 32 + n ≤ q.blocks.length)
    ∧ (fld e.desc.toNat 174 2 ≤ 1)
    ∧ (bs = (q.blocks.drop (fld e.desc.toNat 96 32)).take n ∧ cur = (if fld e.desc.toNat 174 2 = 0 then q.pins0 else q.pins1))
    ∧ (new = (if bitAt e.desc.toNat 176 = true then cur.filter (fun b => !bs.contains b) else bs.filter (fun b => !cur.contains b) ++ cur)) :=
  ⟨4, 1, 0, 1, kvSeq, [0], [], [0], de (seqDesc 8 + 2 ^ 128), seqSt (seqDesc 8 + 2 ^ 128), by decide +kernel⟩
theorem test_meets_KvClassesAndSequencesComplete_seqDemote : ∃ (r i ix n : Nat) (q : Seq) (bs : List Nat) (p : State × Demote) (e : Fetched) (s : State),
    (Starts s r i 0x14 0x09 e)
    ∧ (seqOfHandle s (fld e.desc.toNat 64 20) = some (ix, q) ∧ owns s r q.own = true)
    ∧ (n = rangeCount q (fld e.desc.toNat 96 32) (fld e.desc.toNat 128 32) ∧ fld e.desc.toNat 96 32 + n ≤ q.blocks.length ∧ fld e.desc.toNat 174 2 ≠ 0)
    ∧ (bs = (q.blocks.drop (fld e.desc.toNat 96 32)).take n ∧ bs.any (inPlan s) = false)
    ∧ (p = bs.foldl (demoteNext (fld e.desc.toNat 174 2)) ((begun s r i e), { ref := (refOf r i e), tier := fld e.desc.toNat 174 2 })) :=
  ⟨4, 1, 0, 0, kvSeq, [], (begun (seqSt (seqDesc 9 + 2 ^ 174)) 4 1 (de (seqDesc 9 + 2 ^ 174)), { ref := { fn := 4, ring := 1 }, tier := 1 }), de (seqDesc 9 + 2 ^ 174), seqSt (seqDesc 9 + 2 ^ 174), by decide +kernel⟩
theorem test_meets_KvClassesAndSequencesComplete_seqQuery : ∃ (r i ix n : Nat) (q : Seq) (e : Fetched) (s : State),
    (Starts s r i 0x14 0x0A e)
    ∧ (seqOfHandle s (fld e.desc.toNat 64 20) = some (ix, q) ∧ owns s r q.own = true)
    ∧ (n = rangeCount q (fld e.desc.toNat 96 32) (fld e.desc.toNat 128 32) ∧ fld e.desc.toNat 96 32 + n ≤ q.blocks.length) :=
  ⟨4, 1, 0, 1, kvSeq, de (seqDesc 10 + 2 ^ 128), seqSt (seqDesc 10 + 2 ^ 128), by decide +kernel⟩
theorem test_meets_KvClassesAndSequencesComplete_stale_handle : ∃ (r i : Nat) (e : Fetched) (s : State),
    (Starts s r i 0x14 0x05 e)
    ∧ (seqOfHandle s (fld e.desc.toNat 64 20) = none) :=
  ⟨4, 1, de 5, rs 4 0x14 5, by decide +kernel⟩
theorem test_meets_PlansAndTiersAdvance_planPost : ∃ (r i n : Nat) (es : List PlanEntry) (ids : List Nat) (data : List Byte) (e : Fetched) (s u t : State),
    (Starts s r i 0x14 0x10 e)
    ∧ (u = (begun s r i e))
    ∧ (ownerOf u (fld e.desc.toNat 64 3) = pfOf r ∧ portUp (u.port (fld e.desc.toNat 64 3)) = true)
    ∧ (0 < fld e.desc.toNat 80 16 ∧ fld e.desc.toNat 80 16 ≤ 4096 ∧ fld e.desc.toNat 192 4 = 0 ∧ fld e.desc.toNat 256 64 = 0 ∧ fld e.desc.toNat 320 16 = 0 ∧ fld e.desc.toNat 384 6 = 0 ∧ u.kv.committed = true ∧ (u.t0p (fld e.desc.toNat 64 3)).enable = true ∧ (targetAddr u (fld e.desc.toNat 64 3) (fld e.desc.toNat 336 4) (fld e.desc.toNat 384 64) 64 true).isSome = true)
    ∧ ((u.kv.plans.filter (fun q => q.2.port == fld e.desc.toNat 64 3)).length < 16)
    ∧ (rdHost u r (16 * fld e.desc.toNat 80 16) (.ok data) = (0, data))
    ∧ (es = planEntries (fld e.desc.toNat 80 16) data ∧ firstBad u r (fld e.desc.toNat 64 3) 0 [] es = none)
    ∧ (es.foldl (fun n e => n + e.grow) 0 = 0 ∧ es.foldl (fun n e => n + e.count) 0 ≤ 262144 ∧ u.kv.blocks.length ≤ 2 ^ 27)
    ∧ (ids = (namedBlocks u [] es).flatMap (fun x => x.2.map (·.1)) ∧ (ids.filter (fun b => (u.blk b).t0.isNone)).length = 0)
    ∧ (n = u.kv.nextPlan)
    ∧ (t = (namedBlocks u [] es).foldl (fun s x => startGrow n (x.2.foldl (startMove n (fld e.desc.toNat 64 3)) s) x.1) ((unorder u (refOf r i e)).modKv (fun k => { k with plans := oput k.plans n { ref := (refOf r i e), own := u.ownOf r, tag := userTag e.desc.toNat, port := fld e.desc.toNat 64 3, abandon := bitAt e.desc.toNat 67, deadline := fld e.desc.toNat 128 64, hold := fld e.desc.toNat 96 32, reportAddr := 0, reportMax := 0, readyWindow := fld e.desc.toNat 336 4, readyOffset := fld e.desc.toNat 384 64, pins := ids }, nextPlan := n + 1 })))
    ∧ ((t.plan n).all (fun q => q.moves.isEmpty) = true) :=
  ⟨4, 1, 0, [{ handle := 4096, count := 1 }], [0], planData, de planDesc, planStt, begun planStt 4 1 (de planDesc), planMid, by decide +kernel⟩
theorem test_meets_PlansAndTiersAdvance_planCancel_none : ∃ (r i : Nat) (e : Fetched) (s : State),
    (Starts s r i 0x14 0x11 e)
    ∧ (s.kv.plans.find? (fun q => owns s r q.2.own && q.2.ref.ring == i && q.2.tag == fld e.desc.toNat 96 32) = none) :=
  ⟨4, 1, de 0x11, rs 4 0x14 0x11, by decide +kernel⟩
theorem test_meets_PlansAndTiersAdvance_planCancel : ∃ (r i n : Nat) (p : Plan) (e : Fetched) (s u : State),
    (Starts s r i 0x14 0x11 e)
    ∧ (s.kv.plans.find? (fun q => owns s r q.2.own && q.2.ref.ring == i && q.2.tag == fld e.desc.toNat 96 32) = some (n, p))
    ∧ (u = stopMoves (unorder (begun s r i e) (refOf r i e)) n) :=
  ⟨4, 1, 0, { own := { fn := 4, gen := 1 }, ref := { fn := 4, ring := 1 }, st := .ready }, de 0x11, cancelSt, stopMoves (unorder (begun cancelSt 4 1 (de 0x11)) (refOf 4 1 (de 0x11))) 0, by decide +kernel⟩
theorem test_meets_PlansAndTiersAdvance_blockReadReturn : ∃ (n b tier : Nat) (x : ARead) (p : Plan) (m : Move) (bs : List Byte) (s u : State),
    (s.plan n = some p ∧ p.moves.find? (fun m => m.block == b) = some m)
    ∧ (m.st = .reading tier)
    ∧ ((s.blk b).valid.contains tier = true)
    ∧ (takeData s m.mov b tier x = (u, 0, bs)) :=
  ⟨0, 0, 3, .ok [], { moves := [{ st := .reading 3 }] }, { st := .reading 3 }, [], readSt, readSt, by decide +kernel⟩
theorem test_meets_PlansAndTiersAdvance_blockResident : ∃ (n b : Nat) (p : Plan) (ws : List Nat) (s u : State),
    (s.plan n = some p)
    ∧ (p.moves.any (fun m => m.block == b && m.st == .pushing) = true)
    ∧ (stillPushing s p.port n b = false)
    ∧ (ws = (s.kv.plans.filter (fun q => q.2.moves.any (fun m => m.block == b && moveActive m))).map (·.1))
    ∧ (u = ws.foldl (fun s k => s.modPlan k (fun q => { q with moves := q.moves.map (fun m => if m.block = b ∧ moveActive m = true then { m with st := .resident } else m) }))
    ((touch (ws.foldl lateNow s) b).modBlk b (fun k => { k with t0Valid := true, growing := false }))) :=
  ⟨0, 0, { deadline := 2 ^ 63, moves := [{ st := .pushing }] }, [0], pushSt, pushedSt, by decide +kernel⟩
theorem test_meets_PlansAndTiersAdvance_planDeadline : ∃ (n : Nat) (p : Plan) (s : State),
    (s.plan n = some p)
    ∧ (p.st = .pending) :=
  ⟨0, {}, { kv := { plans := [(0, {})] } }, by decide +kernel⟩
theorem test_meets_PlansAndTiersAdvance_planRelease : ∃ (n : Nat) (p : Plan) (s : State),
    (s.plan n = some p)
    ∧ (p.st = .ready ∨ p.st = .settled) :=
  ⟨0, { st := .settled }, { kv := { plans := [(0, { st := .settled })] } }, by decide +kernel⟩
theorem test_meets_PlansAndTiersAdvance_blockCopyComplete : ∃ (b : Nat) (x : ARead) (c : Copy) (bs : List Byte) (s s0 u t : State),
    (s.kv.copies.find? (fun c => c.block == b) = some c)
    ∧ (c.from_ ≠ 0 ∧ c.drop = [])
    ∧ (s0 = s.modKv (fun k => { k with copies := k.copies.filter (fun x => x != c) }))
    ∧ (takeData s0 (movTile s0 (s.blk b).port b) b c.from_ x = (u, 0, bs))
    ∧ (putData u b c.to_ bs = (t, 0)) :=
  ⟨0, .ok [], { from_ := 3, to_ := 3 }, [], copySt, copySt2, copySt2, emit copySt2 (.backendWrite 0 0 []), by decide +kernel⟩
theorem test_meets_PlansAndTiersAdvance_kvSetCommit : ∃ (s : State),
    (s.transom.held.reverse.find? (fun h => h.cap == 0x14) = none)
    ∧ (s.kv.committed = false)
    ∧ (badKvItem s = none) :=
  ⟨State.reset, by decide +kernel⟩
theorem test_meets_PlansAndTiersAdvance_kvSetCommit_bad : ∃ (i : Nat) (s : State),
    (s.transom.held.reverse.find? (fun h => h.cap == 0x14) = none)
    ∧ (s.kv.committed = false)
    ∧ (badKvItem s = some i) :=
  ⟨0, { kv := { t0 := [(0, { enable := true })] } }, by decide +kernel⟩
theorem test_meets_PlansAndTiersAdvance_kvSetUnlock : ∃ (s : State),
    (s.transom.held.reverse.find? (fun h => h.cap == 0x14) = none)
    ∧ (s.kv.committed = true) :=
  ⟨{ kv := { committed := true } }, by decide +kernel⟩
theorem test_meets_PlansAndTiersAdvance_kvSet_held : ∃ (h : Held) (s : State),
    (s.transom.held.reverse.find? (fun h => h.cap == 0x14) = some h) :=
  ⟨{ cap := 0x14 }, { transom := { held := [{ cap := 0x14 }] } }, by decide +kernel⟩
theorem test_meets_CheckpointCommandsComplete_ckptJobSet : ∃ (r i : Nat) (k : KeySlot) (ts : List CkStore) (data : List Byte) (e : Fetched) (s : State),
    (Starts s r i 0x15 0x01 e)
    ∧ (ckBusy s (epOf r) = false)
    ∧ (1 ≤ fld e.desc.toNat 144 16 ∧ fld e.desc.toNat 144 16 ≤ 1024 ∧ fld e.desc.toNat 160 16 < fld e.desc.toNat 144 16 ∧ 1 ≤ fld e.desc.toNat 192 16 ∧ fld e.desc.toNat 192 16 ≤ 1024 ∧ fld e.desc.toNat 176 16 < fld e.desc.toNat 192 16 ∧ fld e.desc.toNat 256 64 % 16 = 0)
    ∧ (s.slot (fld e.desc.toNat 208 18) = some k ∧ owns s r k.own = true ∧ k.kind = 2 ∧ k.st = .loaded)
    ∧ (rdHost (begun s r i e) r (16 * fld e.desc.toNat 192 16) (.ok data) = (0, data))
    ∧ (ts = parseStores (fld e.desc.toNat 192 16) data ∧ ts.all (storeOk s) = true ∧ (List.range (fld e.desc.toNat 192 16)).any (fun i => leNat (sliceB data (16 * i + 2) 2) ≠ 0) = false) :=
  ⟨4, 1, ckKey, [{ blocks := 4096 }], natLE 16 (4096 * 2 ^ 32), de jobDesc, jobSt, by decide +kernel⟩
theorem test_meets_CheckpointCommandsComplete_ckptTake_none : ∃ (r i : Nat) (x : HRead) (a : List BRead) (e : Fetched) (s : State),
    (Starts s r i 0x15 0x02 e)
    ∧ (jobHere s r = none) :=
  ⟨4, 1, .ok [], [], de 2, rs 4 0x15 2, by decide +kernel⟩
theorem test_meets_CheckpointCommandsComplete_ckptTake : ∃ (r i : Nat) (j : CkJob) (data : List Byte) (vs : List (Nat × CkRegion)) (gs : List CkRegion) (a : List BRead) (q : Rd) (roots : List (Nat × Nat)) (tb : Rd) (table : List Nat) (e : Fetched) (s u : State),
    (Starts s r i 0x15 0x02 e)
    ∧ (u = (begun s r i e) ∧ jobHere u r = some j ∧ ckBusy u (epOf r) = false)
    ∧ (fld e.desc.toNat 128 16 ≤ 4096 ∧ fld e.desc.toNat 144 3 ≠ 0 ∧ fld e.desc.toNat 192 64 % 64 = 0 ∧ fld e.desc.toNat 320 64 % 64 = 0)
    ∧ (rdHost u r (64 * fld e.desc.toNat 128 16) (if fld e.desc.toNat 128 16 = 0 then .ok [] else .ok data) = (0, data))
    ∧ (vs = parseRegions (fld e.desc.toNat 128 16) data ∧ gs = (if bitAt (fld e.desc.toNat 144 3) 2 = true then vs.map (·.2) else []))
    ∧ (gs.any (fun g => !g.accel && (granulesOf g.addr g.bytes).any (fun x => (protectedBy u x).any (fun e => ([0, 1].filter (· != epOf r)).contains e))) = false)
    ∧ (vs.any (fun p => !ckRegionOk p.1 p.2) = false ∧ (vs.map (fun p => p.2.id)).Nodup)
    ∧ (gs.any (fun g => g.accel && (targetAddr u g.port g.window g.addr g.bytes false).isNone) = false ∧ gs.any (fun g => !g.accel && rangeRefused u g.addr g.bytes) = false)
    ∧ (gs.any (fun g => g.accel && g.dedup != 2 && (targetAddr u g.port (fld e.desc.toNat 160 4) (fld e.desc.toNat 320 64) 64 true).isNone) = false)
    ∧ (rdRoots (u, a) j (ownStore j) = (q, 0, roots) ∧ roots.any (fun x => !stepAbove j.epoch (fld e.desc.toNat 64 64) (rEpoch x.2) (rStep x.2)) = false)
    ∧ ((match newestRoot roots with | some x => rdTable q j (ownStore j) x.2 | none => (q, 0, [])) = (tb, 0, table))
    ∧ ((gs.map (dedupe table)).foldl (fun a g => if (g.accel && readRegion g) = true then a + g.bytes else a) 0 ≤ (if (u.ckpt (epOf r)).committed = true then (u.ckpt (epOf r)).capSize * granuleBytes else 0)) :=
  ⟨4, 1, ckJob, [], [], [], noRoots, (takeRd, []), [], (takeRd, []), [], de takeDesc, takeStt, begun takeStt 4 1 (de takeDesc), ⟨by decide +kernel, ⟨rfl, by decide +kernel, by decide +kernel⟩, by decide +kernel, by decide +kernel, by decide +kernel, by decide +kernel, by decide +kernel, by decide +kernel, by decide +kernel, ⟨take_roots, by decide +kernel⟩, rfl, by decide +kernel⟩⟩
theorem test_meets_CheckpointCommandsComplete_ckptAbort_none : ∃ (r i : Nat) (e : Fetched) (s : State),
    (Picks s r i 0x15 0x03 e)
    ∧ (takeOf s (epOf r) = none) :=
  ⟨4, 1, de 3, rs 4 0x15 3, by decide +kernel⟩
theorem test_meets_CheckpointCommandsComplete_ckptAbort : ∃ (r i : Nat) (t : Take) (e : Fetched) (s : State),
    (Picks s r i 0x15 0x03 e)
    ∧ (takeOf s (epOf r) = some t)
    ∧ (t.st ≠ .committing) :=
  ⟨4, 1, {}, de 3, { rs 4 0x15 3 with ck := [(0, { take := some {} })] }, by decide +kernel⟩
theorem test_meets_CheckpointCommandsComplete_ckptSurvey : ∃ (r i : Nat) (j : CkJob) (a : List BRead) (q : Rd) (roots : List (Nat × Nat)) (e : Fetched) (s : State),
    (Starts s r i 0x15 0x04 e)
    ∧ (jobHere (begun s r i e) r = some j)
    ∧ (fld e.desc.toNat 64 16 < j.stores.length ∧ fld e.desc.toNat 192 64 % 64 = 0)
    ∧ (rdRoots ((begun s r i e), a) j (lget j.stores (fld e.desc.toNat 64 16) {}) = (q, 0, roots)) :=
  ⟨4, 1, ckJob, noRoots, (takeRd4, []), [], de 4, survSt, ⟨by decide +kernel, by decide +kernel, by decide +kernel, by rw [show lget ckJob.stores (fld (de 4).desc.toNat 64 16) {} = restStore by decide +kernel]; exact surv_roots⟩⟩
theorem test_meets_CheckpointCommandsComplete_ckptRestore : ∃ (r i : Nat) (j : CkJob) (data : List Byte) (a : List BRead) (q : Rd) (roots : List (Nat × Nat)) (root : Nat × Nat) (x1 x2 x5 : Rest) (table : List Nat) (e : Fetched) (s u : State),
    (Starts s r i 0x15 0x05 e)
    ∧ (u = (begun s r i e) ∧ jobHere u r = some j ∧ ckBusy u (epOf r) = false ∧ (j.pair = none ∨ j.pair = some (fld e.desc.toNat 80 16, fld e.desc.toNat 128 64)))
    ∧ (fld e.desc.toNat 96 3 ≠ 0 ∧ fld e.desc.toNat 64 16 < j.stores.length ∧ fld e.desc.toNat 192 64 % 64 = 0 ∧ fld e.desc.toNat 256 16 ≤ 4096 ∧ (fld e.desc.toNat 256 16 = 0 ∨ fld e.desc.toNat 192 64 ≠ 0) ∧ fld e.desc.toNat 320 64 % 8 = 0)
    ∧ ((bitAt (fld e.desc.toNat 96 3) 1 = true → fld e.desc.toNat 320 64 ≠ 0) ∧ (bitAt (fld e.desc.toNat 96 3) 0 = true → fld e.desc.toNat 64 16 = j.ownStore))
    ∧ ((if fld e.desc.toNat 256 16 = 0 then (0, []) else rdHost u r (16 * fld e.desc.toNat 256 16) (.ok data)) = (0, data) ∧ (parseMaps (fld e.desc.toNat 256 16) data).any (fun m => fld m 24 40 != 0) = false)
    ∧ (rdRoots (u, a) j (lget j.stores (fld e.desc.toNat 64 16) {}) = (q, 0, roots))
    ∧ (roots.find? (fun x => rEpoch x.2 == fld e.desc.toNat 80 16 && rStep x.2 == fld e.desc.toNat 128 64) = some root)
    ∧ (x1 = (if (fld e.desc.toNat 64 16 = j.ownStore && roots.any (fun x => x.1 != root.1 && !(rEpoch x.2 == fld e.desc.toNat 80 16 && rStep x.2 == fld e.desc.toNat 128 64))) = true then zeroSlot j (lget j.stores (fld e.desc.toNat 64 16) {}) (1 - root.1) else id)
    { s := q.1.modCk (epOf r) (fun c => { c with job := some { j with pair := some (fld e.desc.toNat 80 16, fld e.desc.toNat 128 64) } }), ans := q.2 })
    ∧ (table = (rdTable (x1.s, x1.ans) j (lget j.stores (fld e.desc.toNat 64 16) {}) root.2).2.2)
    ∧ (x2 = (if x1.status ≠ 0 then x1 else { x1.rd (rdTable (x1.s, x1.ans) j (lget j.stores (fld e.desc.toNat 64 16) {}) root.2).1 with status := (rdTable (x1.s, x1.ans) j (lget j.stores (fld e.desc.toNat 64 16) {}) root.2).2.1 }))
    ∧ (x5 = (if bitAt (fld e.desc.toNat 96 3) 2 = true then Rest.go (f := restRegions j (lget j.stores (fld e.desc.toNat 64 16) {}) (parseMaps (fld e.desc.toNat 256 16) data) table) else id)
    ((if bitAt (fld e.desc.toNat 96 3) 1 = true then Rest.go (f := restServing r (fld e.desc.toNat 272 24) j (lget j.stores (fld e.desc.toNat 64 16) {}) table) else id) ((if bitAt (fld e.desc.toNat 96 3) 0 = true then Rest.go (f := restConfig r table) else id) x2)))
    ∧ (x5.status = 0) :=
  ⟨4, 1, ckJob, [], restAns, restQ, [(0, rootVal)], (0, rootVal), restX1, restX2, restX5, [], de restDesc, restSt, restB, by
  obtain ⟨d1, d2, d3, d4, d5, d6⟩ := restD
  rw [d1, d2, d3, d4, d5, d6]
  refine ⟨by decide +kernel, ⟨rfl, by decide +kernel, by decide +kernel, Or.inl rfl⟩, by decide +kernel, by decide +kernel, by decide +kernel, rest_roots, rest_find, ?_, ?_, ?_, ?_, restX5_status⟩
  · rfl
  · rw [show lget ckJob.stores 0 {} = restStore from rfl, rest_table]
  · rw [show lget ckJob.stores 0 {} = restStore from rfl, rest_table]; rfl
  · rfl⟩
theorem test_meets_TakeProgressesToItsCommit_snapshotPoint : ∃ (ep : Nat) (t : Take) (cap : List (Nat × Nat)) (s s1 s2 s3 : State),
    (takeOf s ep = some t ∧ t.st = .accepted)
    ∧ (s1 = (if ptp s < t.at_ then advanceToPtp s t.at_ else s))
    ∧ (cap = (List.range t.regions.length).flatMap (fun i => if ((lget t.regions i {}).accel && readRegion (lget t.regions i {})) = true then (piecesOf (lget t.regions i {})).map (fun o => (i, o)) else []))
    ∧ (s2 = s1.modTake ep (fun u => { u with st := .snapshot, snapTime := ptp s1, prot := ((t.regions.filter (fun g => !g.accel)).flatMap (fun g => granulesOf g.addr g.bytes)).eraseDups, capture := cap, holds := (if bitAt t.sections 1 = true then servingRecs s1 ep else ([], [])).2, records := (if bitAt t.sections 0 = true then configRecs s1 ep else []) ++ (if bitAt t.sections 1 = true then servingRecs s1 ep else ([], [])).1, released := cap.isEmpty }))
    ∧ (s3 = (if bitAt t.sections 1 = true then servingRecs s1 ep else ([], [])).2.foldl (fun s h => beginRead s h.1 h.2) (cap.foldl (fun s c =>
    match targetAddr s (lget t.regions c.1 {}).port (lget t.regions c.1 {}).window ((lget t.regions c.1 {}).addr + c.2) (min granuleBytes ((lget t.regions c.1 {}).bytes - c.2)) false with
    | some a => engineRead_ s (lget t.regions c.1 {}).port a (min granuleBytes ((lget t.regions c.1 {}).bytes - c.2))
    | none => s) (postEvent s2 (4 + ep) 0x1501 0 (ptp s1)))) :=
  ⟨0, {}, [], snapSt, snapSt, snapSt.modTake 0 (fun u => { u with st := .snapshot, snapTime := 0, released := true }), postEvent (snapSt.modTake 0 (fun u => { u with st := .snapshot, snapTime := 0, released := true })) 4 0x1501 0 0, by decide +kernel⟩
theorem test_meets_TakeProgressesToItsCommit_granuleCow_nobody : ∃ (g : Nat) (s : State),
    (storeWaits s g = false) :=
  ⟨5, State.reset, by decide +kernel⟩
theorem test_meets_TakeProgressesToItsCommit_granuleCow : ∃ (g ep : Nat) (s : State),
    (storeWaits s g = true)
    ∧ (protectedBy s g = [ep])
    ∧ ((reservePlace s ep (stackOf (g * granuleBytes))).isSome = true) :=
  ⟨0, 0, cowSt, by decide +kernel⟩
theorem test_meets_TakeProgressesToItsCommit_granuleCopyComplete : ∃ (g ep : Nat) (t : Take) (s : State),
    (protectedBy s g = [ep] ∧ takeOf s ep = some t ∧ t.copying.contains g = true) :=
  ⟨0, 0, { prot := [0], copying := [0] }, { ck := [(0, { take := some { prot := [0], copying := [0] } })] }, by decide +kernel⟩
theorem test_meets_TakeProgressesToItsCommit_captureReadReturn : ∃ (ep ix o : Nat) (rest : List (Nat × Nat)) (bs data : List Byte) (t : Take) (s w u : State),
    (takeOf s ep = some t ∧ t.capture = (ix, o) :: rest)
    ∧ (data = fitB bs (min granuleBytes ((lget t.regions ix {}).bytes - o)))
    ∧ (engineWrite s 8 ((s.ckpt ep).capBase * granuleBytes + t.captured) data = (w, 0))
    ∧ (u = w.modTake ep (fun t => { t with capture := rest, captured := t.captured + data.length })) :=
  ⟨0, 0, 0, [], [], List.replicate 64 0#8, { regions := [{ bytes := 64 }], capture := [(0, 0)] }, capSt, (engineWrite capSt 8 0 (List.replicate 64 0#8)).1, (engineWrite capSt 8 0 (List.replicate 64 0#8)).1.modTake 0 (fun t => { t with capture := [], captured := t.captured + 64 }), by decide +kernel⟩
theorem test_meets_TakeProgressesToItsCommit_takeReadReturn : ∃ (ep : Nat) (x : ARead) (c : CowCopy) (rest : List CowCopy) (t : Take) (s : State),
    (takeOf s ep = some t ∧ t.copies = c :: rest)
    ∧ (c.place = none) :=
  ⟨0, .ok [], {}, [], { copies := [{}] }, { ck := [(0, { take := some { copies := [{}] } })] }, by decide +kernel⟩
theorem test_meets_TakeProgressesToItsCommit_backendCommandComplete : ∃ (b i ep : Nat) (x : BRead) (m : BCmd) (st p : Nat) (bs : List Byte) (s u : State),
    (backDone s b i servesHostOrTake x = (u, some (m, st, bs)))
    ∧ (m.who = .take ep p) :=
  ⟨0, 0, 0, .ok [], bcmd, 0, 0, [], bcmdSt, { bcmdSt with sto := { backends := [(0, { remote := true, st := .ready })] } }, by decide +kernel⟩
theorem test_meets_TakeProgressesToItsCommit_writeBackComplete : ∃ (b i id : Nat) (x : BRead) (m : BCmd) (st : Nat) (bs : List Byte) (s u : State),
    (backDone s b i servesBuffer x = (u, some (m, st, bs)))
    ∧ (m.who = .back id) :=
  ⟨0, 0, 0, .ok [], { bcmd with who := .back 0 }, 0, [], { sto := { backends := [(0, { remote := true, st := .ready, cmds := [{ bcmd with who := .back 0 }] })] } }, { sto := { backends := [(0, { remote := true, st := .ready })] } }, by decide +kernel⟩
theorem test_meets_TakeProgressesToItsCommit_takeFlushComplete : ∃ (ep : Nat) (x : BRead) (m : BCmd) (t : Take) (st : Nat) (s u : State),
    (takeDone s ep 2 x = (u, some (m, st)) ∧ takeOf u ep = some t) :=
  ⟨0, .ok [], { bcmd with op := .flush, who := .take 0 2 }, {}, 0, doneSt { bcmd with op := .flush, who := .take 0 2 }, doneSt2, by decide +kernel⟩
theorem test_meets_TakeProgressesToItsCommit_rootWriteComplete : ∃ (ep : Nat) (x : BRead) (m : BCmd) (t : Take) (st : Nat) (s u : State),
    (takeDone s ep 3 x = (u, some (m, st)) ∧ takeOf u ep = some t) :=
  ⟨0, .ok [], { bcmd with op := .flush, who := .take 0 3 }, {}, 0, doneSt { bcmd with op := .flush, who := .take 0 3 }, doneSt2, by decide +kernel⟩
theorem test_meets_TakeProgressesToItsCommit_ckSet : ∃ (fn : Nat) (s : State),
    (heldBack s fn 0 = false)
    ∧ ((isPf1 fn && present s fn) = true) :=
  ⟨4, st1, by decide +kernel⟩
theorem test_meets_RdmaObjectsComplete_pdAlloc : ∃ (r i k : Nat) (e : Fetched) (s : State),
    (Starts s r i 0x20 0x01 e)
    ∧ (lowestFree s.rdma.pds (epKey r 0) (epKey r 65536) = some k) :=
  ⟨4, 1, 0, de 1, rs 4 0x20 1, by decide +kernel⟩
theorem test_meets_RdmaObjectsComplete_pdFree : ∃ (r i : Nat) (e : Fetched) (s : State),
    (Starts s r i 0x20 0x02 e) :=
  ⟨4, 1, de 2, rs 4 0x20 2, by decide +kernel⟩
theorem test_meets_RdmaObjectsComplete_mrReg : ∃ (r i ix : Nat) (e : Fetched) (s : State),
    (Starts s r i 0x20 0x03 e)
    ∧ (pdOwned s r (fld e.desc.toNat 80 16) = true)
    ∧ (fld e.desc.toNat 254 2 = 1 ∧ fld e.desc.toNat 192 62 % 4096 = 0 ∧ 4096 ≤ fld e.desc.toNat 256 64 ∧ fld e.desc.toNat 256 64 ≤ 2 ^ 40 ∧ fld e.desc.toNat 256 64 % 4096 = 0 ∧ fld e.desc.toNat 128 64 + fld e.desc.toNat 256 64 ≤ 2 ^ 64)
    ∧ (isVf r = false ∧ lowestFree s.rdma.mrs 0 (2 ^ 20) = some ix) :=
  ⟨4, 1, 0, de mrDesc, { rs 4 0x20 mrDesc with rdma := { pds := [(0, { fn := 4, gen := 1 })] } }, by decide +kernel⟩
theorem test_meets_RdmaObjectsComplete_mrDereg : ∃ (r i : Nat) (e : Fetched) (s : State),
    (Starts s r i 0x20 0x04 e) :=
  ⟨4, 1, de 4, rs 4 0x20 4, by decide +kernel⟩
theorem test_meets_RdmaObjectsComplete_qpCreate : ∃ (r i n : Nat) (q : Qp) (e : Fetched) (s : State),
    (Starts s r i 0x20 0x05 e)
    ∧ (pdOwned s r (fld e.desc.toNat 80 16) = true)
    ∧ (fld e.desc.toNat 64 2 < 2 ∧ fld e.desc.toNat 100 2 < ifsOf (s.netPort (fld e.desc.toNat 96 4)).breakout ∧ 6 ≤ fld e.desc.toNat 104 4 ∧ 6 ≤ fld e.desc.toNat 108 4 ∧ isVf r = false)
    ∧ (nextQpn s (epOf r) = some n ∧ (mget s.rdma.sets (epOf r) {}).committed = true ∧ (mget s.rdma.sets (epOf r) {}).log2 ≠ 0 ∧ n % 2 ^ 23 < 2 ^ (mget s.rdma.sets (epOf r) {}).log2)
    ∧ (q = { own := s.ownOf r, ring := i, type := fld e.desc.toNat 64 2, pd := fld e.desc.toNat 80 16, iface := 4 * fld e.desc.toNat 96 4 + fld e.desc.toNat 100 2, sqLog := fld e.desc.toNat 104 4, rqLog := fld e.desc.toNat 108 4, rate := lineRate s (4 * fld e.desc.toNat 96 4 + fld e.desc.toNat 100 2), pacerAt := ptp s }) :=
  ⟨4, 1, 2, { own := { fn := 4, gen := 1 }, ring := 1, sqLog := 6, rqLog := 6, rate := 800000 }, de qpcDesc, { rs 4 0x20 qpcDesc with rdma := { pds := [(0, { fn := 4, gen := 1 })], sets := [(0, { committed := true, log2 := 10 })] } }, by decide +kernel⟩
theorem test_meets_RdmaObjectsComplete_qpModify_reset : ∃ (r i n : Nat) (q : Qp) (bs : List Byte) (e : Fetched) (s : State),
    (Starts s r i 0x20 0x06 e)
    ∧ (qpFor s r i (fld e.desc.toNat 64 24) = some (n, q) ∧ q.ring = i ∧ fld e.desc.toNat 128 64 % 64 = 0)
    ∧ (rdHost s r 128 (.ok bs) = (0, bs) ∧ attrReserved (leNat bs) = true ∧ fld (leNat bs) 0 4 = 0) :=
  ⟨4, 1, 2, { own := { fn := 4, gen := 1 }, ring := 1 }, List.replicate 128 0#8, de (6 + 2 * 2 ^ 64), qpSt (6 + 2 * 2 ^ 64), by decide +kernel⟩
theorem test_meets_RdmaObjectsComplete_qpModify_init : ∃ (r i n : Nat) (q : Qp) (bs : List Byte) (e : Fetched) (s : State),
    (Starts s r i 0x20 0x06 e)
    ∧ (qpFor s r i (fld e.desc.toNat 64 24) = some (n, q) ∧ q.ring = i ∧ fld e.desc.toNat 128 64 % 64 = 0)
    ∧ (rdHost s r 128 (.ok bs) = (0, bs) ∧ attrReserved (leNat bs) = true ∧ fld (leNat bs) 0 4 = 1) :=
  ⟨4, 1, 2, { own := { fn := 4, gen := 1 }, ring := 1 }, 1#8 :: List.replicate 127 0#8, de (6 + 2 * 2 ^ 64), qpSt (6 + 2 * 2 ^ 64), by decide +kernel⟩
theorem test_meets_RdmaObjectsComplete_qpQuery : ∃ (r i n : Nat) (q : Qp) (e : Fetched) (s : State),
    (Starts s r i 0x20 0x07 e)
    ∧ (qpFor s r i (fld e.desc.toNat 64 24) = some (n, q) ∧ q.ring = i ∧ fld e.desc.toNat 128 64 % 64 = 0) :=
  ⟨4, 1, 2, { own := { fn := 4, gen := 1 }, ring := 1 }, de (7 + 2 * 2 ^ 64), qpSt (7 + 2 * 2 ^ 64), by decide +kernel⟩
theorem test_meets_RdmaObjectsComplete_qpDestroy : ∃ (r i n : Nat) (q : Qp) (e : Fetched) (s : State),
    (Starts s r i 0x20 0x08 e) :=
  ⟨4, 1, 2, { own := { fn := 4, gen := 1 }, ring := 1 }, de (8 + 2 * 2 ^ 64), qpSt (8 + 2 * 2 ^ 64), by decide +kernel⟩
theorem test_meets_RdmaObjectsComplete_ahCreate : ∃ (r i k : Nat) (bs : List Byte) (e : Fetched) (s : State),
    (Starts s r i 0x20 0x09 e)
    ∧ (pdOwned s r (fld e.desc.toNat 80 16) = true ∧ fld e.desc.toNat 100 2 < ifsOf (s.netPort (fld e.desc.toNat 96 4)).breakout ∧ fld e.desc.toNat 128 64 % 64 = 0)
    ∧ (rdHost s r 128 (.ok bs) = (0, bs) ∧ attrReserved (leNat bs) = true)
    ∧ (lowestFree s.rdma.ahs (epKey r 0) (epKey r 65536) = some k) :=
  ⟨4, 1, 0, List.replicate 128 0#8, de 9, pdSt 9, by decide +kernel⟩
theorem test_meets_RdmaObjectsComplete_ahDestroy : ∃ (r i : Nat) (a : Ah) (e : Fetched) (s : State),
    (Starts s r i 0x20 0x0A e) :=
  ⟨4, 1, {}, de 0x0A, rs 4 0x20 0x0A, by decide +kernel⟩
theorem test_meets_RdmaObjectsComplete_rdmaSet : ∃ (fn : Nat) (x : RdmaSet) (s : State),
    (heldBack s fn 0 = false ∧ isPf1 fn = true ∧ present s fn = true)
    ∧ (x = mget s.rdma.sets (epOf fn) {}) :=
  ⟨4, {}, st1, by decide +kernel⟩
theorem test_meets_WorkRequestsAreCheckedAndQueued_queued : ∃ (r i n op : Nat) (q : Qp) (host : HRead) (e : Fetched) (s t : State),
    (Starts s r i 0x20 op e)
    ∧ (qpFor s r i (fld e.desc.toNat 64 24) = some (n, q) ∧ q.type = 0 ∧ q.ring = i ∧ q.bound = none)
    ∧ ((q.st = .rts ∨ q.st = .sqd) ∧ sendFieldsOk q op e.desc.toNat = true ∧ q.sends.length < 2 ^ q.sqLog)
    ∧ (t = pumpSends (touchCtx ((begun s r i e).modQp n (fun q => { q with sends := q.sends ++ [sendWr op e.desc.toNat ((ahOf (begun s r i e) r (fld e.desc.toNat 224 16)).elim 0 (·.attr)) (refOf r i e) host] })) n) n) :=
  ⟨4, 1, 2, 0x10, rcQp, .ok [], de sendD, sendSt, sendT, ⟨by decide +kernel, by decide +kernel, by decide +kernel, rfl⟩⟩
theorem test_meets_WorkRequestsAreCheckedAndQueued_posting : ∃ (r i n op : Nat) (q : Qp) (host : HRead) (c : Instr) (e : Fetched) (s : State),
    (Starts s r i 0x20 op e)
    ∧ ((c, op, host) ∈ [(Instr.send r i host, 0x10, host), (Instr.sendImm r i host, 0x11, host), (Instr.write r i host, 0x12, host), (Instr.writeImm r i host, 0x13, host), (Instr.read r i, 0x14, .ok []), (Instr.atomicCas r i, 0x15, .ok []), (Instr.atomicFadd r i, 0x16, .ok [])])
    ∧ (qpFor s r i (fld e.desc.toNat 64 24) = some (n, q) ∧ q.type = 0) :=
  ⟨4, 1, 2, 0x14, { own := { fn := 4, gen := 1 }, ring := 1 }, .ok [], .read 4 1, de (0x14 + 2 * 2 ^ 64), qpSt (0x14 + 2 * 2 ^ 64), by decide +kernel⟩
theorem test_meets_WorkRequestsAreCheckedAndQueued_noQueuePair : ∃ (r i op : Nat) (host : HRead) (c : Instr) (e : Fetched) (s : State),
    (Starts s r i 0x20 op e)
    ∧ ((c, op, host) ∈ [(Instr.send r i host, 0x10, host), (Instr.sendImm r i host, 0x11, host), (Instr.write r i host, 0x12, host), (Instr.writeImm r i host, 0x13, host), (Instr.read r i, 0x14, .ok []), (Instr.atomicCas r i, 0x15, .ok []), (Instr.atomicFadd r i, 0x16, .ok [])])
    ∧ (qpFor s r i (fld e.desc.toNat 64 24) = none) :=
  ⟨4, 1, 0x10, .ok [], .send 4 1 (.ok []), de (0x10 + 2 * 2 ^ 64), rs 4 0x20 (0x10 + 2 * 2 ^ 64), by decide +kernel⟩
theorem test_meets_WorkRequestsAreCheckedAndQueued_datagram : ∃ (r i n : Nat) (q : Qp) (host : HRead) (e : Fetched) (s : State),
    (Starts s r i 0x20 0x10 e)
    ∧ (qpFor s r i (fld e.desc.toNat 64 24) = some (n, q) ∧ q.type ≠ 0) :=
  ⟨4, 1, 2, { udQp with qkey := 0 }, .ok [], de (0x10 + 2 * 2 ^ 64), { rs 4 0x20 (0x10 + 2 * 2 ^ 64) with rdma := { qps := [(2, udQp)] } }, by decide +kernel⟩
theorem test_meets_WorkRequestsAreCheckedAndQueued_recv : ∃ (r i n : Nat) (q : Qp) (e : Fetched) (s : State),
    (Starts s r i 0x20 0x20 e)
    ∧ (qpFor s r i (fld e.desc.toNat 64 24) = some (n, q) ∧ q.ring = i) :=
  ⟨4, 1, 2, { own := { fn := 4, gen := 1 }, ring := 1 }, de (0x20 + 2 * 2 ^ 64), qpSt (0x20 + 2 * 2 ^ 64), by decide +kernel⟩
theorem test_meets_WorkRequestsAreCheckedAndQueued_ackTimeout : ∃ (n : Nat) (q : Qp) (w : SendWr) (s u : State),
    (oget s.rdma.qps n = some q ∧ q.sends.find? (·.sent) = some w)
    ∧ (q.rnrWait = none ∧ (q.st = .rts ∨ q.st = .sqd))
    ∧ (u = advanceTo s (q.ackFrom + (16384 * 2 ^ q.timeout + 9) / 10)) :=
  ⟨2, ackQp, { sent := true }, { rdma := { qps := [(2, ackQp)] } }, advanceTo { rdma := { qps := [(2, ackQp)] } } 1639, by decide +kernel⟩
theorem test_meets_WorkRequestsAreCheckedAndQueued_rnrTimerExpiry : ∃ (n t : Nat) (q : Qp) (s : State),
    (oget s.rdma.qps n = some q ∧ q.rnrWait = some t) :=
  ⟨2, 100, { rnrWait := some 100 }, { rdma := { qps := [(2, { rnrWait := some 100 })] } }, by decide +kernel⟩
theorem test_meets_WorkRequestsAreCheckedAndQueued_gustTick : ∃ (s : State),
    (s.rdma.tickUs ≠ 0) :=
  ⟨s1, by decide +kernel⟩
theorem test_meets_PacketsActOnTheirQueuePair_rcRequestPacket : ∃ (t j n : Nat) (p : RocePkt) (q : Qp) (host : HRead) (s u : State),
    (inputHead s t = some (j, p) ∧ opResponse p.op = false ∧ opUd p.op = false ∧ p.op ≠ 0x81 ∧ n = destKey j p)
    ∧ (oget s.rdma.qps n = some q ∧ q.iface = j ∧ q.type = 0 ∧ (q.st = .rtr ∨ q.st = .rts ∨ q.st = .sqd))
    ∧ (withCtx (dropHead s t) t n p = (u, true)) :=
  ⟨0, 0, 2, { op := 4, destQp := 2 }, resQp .rtr, .ok [], pktSt { op := 4, destQp := 2 } (resQp .rtr), (withCtx (dropHead (pktSt { op := 4, destQp := 2 } (resQp .rtr)) 0) 0 2 { op := 4, destQp := 2 }).1, by decide +kernel⟩
theorem test_meets_PacketsActOnTheirQueuePair_noQueuePair : ∃ (t j : Nat) (p : RocePkt) (host : HRead) (s : State),
    (inputHead s t = some (j, p) ∧ oget s.rdma.qps (destKey j p) = none) :=
  ⟨0, 0, { op := 4, destQp := 7 }, .ok [], pktSt { op := 4, destQp := 7 } (resQp .rtr), by decide +kernel⟩
theorem test_meets_PacketsActOnTheirQueuePair_responsePacket : ∃ (t j n : Nat) (p : RocePkt) (q : Qp) (s u : State),
    (inputHead s t = some (j, p) ∧ opResponse p.op = true ∧ n = destKey j p)
    ∧ (oget s.rdma.qps n = some q ∧ q.iface = j ∧ q.type = 0 ∧ (q.st = .rts ∨ q.st = .sqd) ∧ inFlight q p.psn = true)
    ∧ (withCtx (dropHead s t) t n p = (u, true)) :=
  ⟨0, 0, 2, { op := 0x11, destQp := 2 }, { resQp .rts with psn := 1 }, pktSt { op := 0x11, destQp := 2 } { resQp .rts with psn := 1 }, (withCtx (dropHead (pktSt { op := 0x11, destQp := 2 } { resQp .rts with psn := 1 }) 0) 0 2 { op := 0x11, destQp := 2 }).1, by decide +kernel⟩
theorem test_meets_PacketsActOnTheirQueuePair_udPacket : ∃ (t j n : Nat) (p : RocePkt) (q : Qp) (w : RecvWr) (rest : List RecvWr) (m : Mr) (s u0 u v : State),
    (inputHead s t = some (j, p) ∧ opUd p.op = true ∧ n = destKey j p)
    ∧ (oget s.rdma.qps n = some q ∧ q.iface = j ∧ q.type ≠ 0 ∧ (q.st = .rtr ∨ q.st = .rts ∨ q.st = .sqd) ∧ q.qkey = p.qkey ∧ q.recvs = w :: rest)
    ∧ (withCtx (dropHead s t) t n p = (u0, true))
    ∧ (u = (if p.ce = true then cnpSend u0 n q (p.back + fld (Config.backPath j).toNat 0 8 * 2 ^ 168 + fld (Config.backPath j).toNat 8 20 * 2 ^ 176) p.srcQp else u0))
    ∧ (40 + p.data.length ≤ w.len ∧ mrAccess u q.own q.pd w.lkey (some 0) w.laddr (40 + p.data.length) = some m)
    ∧ (mrWrite (u.modQp n (fun q => { q with recvs := rest })) (qpTile q) m w.laddr (fitB p.grh 40 ++ p.data) = (v, 0)) :=
  ⟨0, 0, 2, { op := 0x64, destQp := 2 }, udqp, udRecv, [], udMr, udSt, udU, udU, (mrWrite (udU.modQp 2 (fun q => { q with recvs := [] })) 0 udMr 0 (fitB [] 40)).1, by decide +kernel⟩
theorem test_meets_PacketsActOnTheirQueuePair_cnpRx : ∃ (t j n : Nat) (p : RocePkt) (q : Qp) (s u : State),
    (inputHead s t = some (j, p) ∧ p.op = 0x81 ∧ n = destKey j p ∧ isGsi n = false)
    ∧ (oget s.rdma.qps n = some q)
    ∧ (withCtx (dropHead s t) t n p = (u, true)) :=
  ⟨0, 0, 2, { op := 0x81, destQp := 2 }, resQp .rts, pktSt { op := 0x81, destQp := 2 } (resQp .rts), (withCtx (dropHead (pktSt { op := 0x81, destQp := 2 } (resQp .rts)) 0) 0 2 { op := 0x81, destQp := 2 }).1, by decide +kernel⟩
theorem test_meets_PacketsActOnTheirQueuePair_contextFetchReturn : ∃ (n : Nat) (q : Qp) (bs : List Byte) (s u : State),
    (oget s.rdma.qps n = some q ∧ q.res = .fetching)
    ∧ (hostGone s (backOf q.own.fn) = false ∧ install s n = some u) :=
  ⟨2, { own := { fn := 4, gen := 1 }, res := .fetching }, [], fetchSt, fetchSt.modQp 2 (fun q => { q with res := .resident }), by decide +kernel⟩
theorem test_meets_PacketsActOnTheirQueuePair_contextFetchFails : ∃ (n : Nat) (q : Qp) (s : State),
    (oget s.rdma.qps n = some q ∧ q.res = .fetching ∧ hostGone s (backOf q.own.fn) = false) :=
  ⟨2, { own := { fn := 4, gen := 1 }, res := .fetching }, fetchSt, by decide +kernel⟩
theorem test_meets_ClassifierCommandsComplete_graphLoad : ∃ (r i g : Nat) (bs sig : List Byte) (gr : Graph) (e : Fetched) (s u : State),
    (Starts s r i 0x21 0x01 e)
    ∧ (isPf1 r = true ∧ fld e.desc.toNat 128 64 % 64 = 0 ∧ fld e.desc.toNat 192 32 ≠ 0)
    ∧ (rdHost s r (fld e.desc.toNat 192 32) (.ok bs) = (0, bs))
    ∧ (s.trust.installer.any (fun k => hssVerify k.pub sig bs) = true ∧ graphOk gr = true)
    ∧ ((List.range 3).find? (fun g => (oget s.cls.graphs (g + 1)).isNone) = some g)
    ∧ (auditRec (begun s r i e) 0x0300 2 r 0 (0x21 + (g + 1) * 2 ^ 16) = some u) :=
  ⟨4, 1, 0, progBody, hssSig, { nodes := [{}] }, de graphDesc, graphSt, graphAudited, ⟨by decide +kernel, by decide +kernel, by decide +kernel, ⟨graphSt_signed, by decide +kernel⟩, by decide +kernel, (Option.some_get graphSt_audits).symm⟩⟩
theorem test_meets_ClassifierCommandsComplete_graphUnload : ∃ (r i : Nat) (e : Fetched) (s : State),
    (Starts s r i 0x21 0x02 e)
    ∧ (isPf1 r = true ∧ fld e.desc.toNat 64 2 ≠ 0) :=
  ⟨4, 1, de (2 + 2 ^ 64), rs 4 0x21 (2 + 2 ^ 64), by decide +kernel⟩
theorem test_meets_ClassifierCommandsComplete_setCreate : ∃ (r i k : Nat) (bs : List Byte) (c : SetConf) (e : Fetched) (s : State),
    (Starts s r i 0x21 0x03 e)
    ∧ (fld e.desc.toNat 128 64 % 64 = 0 ∧ rdHost s r 256 (.ok bs) = (0, bs))
    ∧ (fld (leNat bs) 0 2 = 0 ∧ parseSet none bs = some c)
    ∧ (lowestFree s.cls.sets 0 64 = some k) :=
  ⟨4, 1, 0, List.replicate 256 0#8, (parseSet none (List.replicate 256 0#8)).getD {}, de 3, rs 4 0x21 3, by decide +kernel⟩
theorem test_meets_ClassifierCommandsComplete_notASet : ∃ (r i op : Nat) (h : HRead) (c : Instr) (e : Fetched) (s : State),
    (Starts s r i 0x21 op e)
    ∧ (behindRing s r i = false)
    ∧ ((c, op) ∈ [(Instr.setDestroy r i, 4), (Instr.setConfig r i h, 5), (Instr.bind r i, 6), (Instr.entryAdd r i h, 7), (Instr.entryDel r i h, 8), (Instr.rangeSet r i h, 9), (Instr.setCommit r i, 10), (Instr.counterRead r i, 11)]) :=
  ⟨4, 1, 4, .ok [], .setDestroy 4 1, de 4, rs 4 0x21 4, by decide +kernel⟩
theorem test_meets_ClassifierCommandsComplete_setBehind : ∃ (r i : Nat) (h : HRead) (c : Instr) (s : State),
    (behindRing s r i = true)
    ∧ (c ∈ [Instr.setDestroy r i, Instr.setConfig r i h, Instr.bind r i, Instr.entryAdd r i h, Instr.entryDel r i h, Instr.rangeSet r i h, Instr.setCommit r i, Instr.counterRead r i, Instr.legacyLoad r i h]) :=
  ⟨4, 2, .ok [], .setCommit 4 2, behindSt, by decide +kernel⟩
theorem test_meets_ClassifierCommandsComplete_setDestroy : ∃ (r i : Nat) (x : RuleSet) (e : Fetched) (s : State),
    (Starts s r i 0x21 0x04 e)
    ∧ (behindRing s r i = false)
    ∧ (oget s.cls.sets (fld e.desc.toNat 64 6) = some x ∧ owns s r x.own = true) :=
  ⟨4, 1, set4, de 4, setSt 4, by decide +kernel⟩
theorem test_meets_ClassifierCommandsComplete_setConfig : ∃ (r i : Nat) (x : RuleSet) (bs : List Byte) (c : SetConf) (e : Fetched) (s : State),
    (Starts s r i 0x21 0x05 e)
    ∧ (behindRing s r i = false)
    ∧ (oget s.cls.sets (fld e.desc.toNat 64 6) = some x ∧ owns s r x.own = true)
    ∧ (fld e.desc.toNat 128 64 % 64 = 0 ∧ rdHost s r 256 (.ok bs) = (0, bs) ∧ parseSet (graphOf s x.graph) bs = some c) :=
  ⟨4, 1, set4, List.replicate 256 0#8, (parseSet none (List.replicate 256 0#8)).getD {}, de 5, setSt 5, by decide +kernel⟩
theorem test_meets_ClassifierCommandsComplete_bind : ∃ (r i : Nat) (x : RuleSet) (bs : List Nat) (e : Fetched) (s : State),
    (Starts s r i 0x21 0x06 e)
    ∧ (behindRing s r i = false)
    ∧ (oget s.cls.sets (fld e.desc.toNat 64 6) = some x ∧ owns s r x.own = true)
    ∧ (((List.range 16).filter (fun p => bitAt (fld e.desc.toNat 192 16) p)).all (fun p => netMay s r p) = true)
    ∧ (bs = ((List.range 16).filter (fun p => bitAt (fld e.desc.toNat 192 16) p)).flatMap (fun p => (if bitAt e.desc.toNat 208 then [bindNo false p] else []) ++ (if bitAt e.desc.toNat 209 then [bindNo true p] else []))) :=
  ⟨4, 1, set4, [0, 32], de (6 + 2 ^ 192 + 3 * 2 ^ 208), setSt (6 + 2 ^ 192 + 3 * 2 ^ 208), by decide +kernel⟩
theorem test_meets_ClassifierCommandsComplete_entries : ∃ (r i n : Nat) (x : RuleSet) (bs : List Byte) (e : Fetched) (s : State),
    ((Starts s r i 0x21 0x07 e) ∨ (Starts s r i 0x21 0x08 e))
    ∧ (behindRing s r i = false)
    ∧ (oget s.cls.sets (fld e.desc.toNat 64 6) = some x ∧ owns s r x.own = true)
    ∧ (n = fld e.desc.toNat 96 32 ∧ 1 ≤ n ∧ n ≤ 4096 ∧ fld e.desc.toNat 128 64 % 64 = 0 ∧ rdHost s r (64 * n) (.ok bs) = (0, bs)) :=
  ⟨4, 1, 1, set4, List.replicate 64 0#8, de (7 + 2 ^ 96), setSt (7 + 2 ^ 96), by decide +kernel⟩
theorem test_meets_ClassifierCommandsComplete_rangeSet : ∃ (r i v : Nat) (x : RuleSet) (bs : List Byte) (ts : List (Nat × Nat × Nat)) (e : Fetched) (s : State),
    (Starts s r i 0x21 0x09 e)
    ∧ (behindRing s r i = false)
    ∧ (oget s.cls.sets (fld e.desc.toNat 64 6) = some x ∧ owns s r x.own = true)
    ∧ (fld e.desc.toNat 128 64 % 64 = 0 ∧ rdHost s r 64 (.ok bs) = (0, bs) ∧ v = leNat bs)
    ∧ (ts = ((List.range 4).map (fun t => (fld v (80 * t) 8, fld v (80 * t + 16) 32, fld v (80 * t + 48) 32))).filter (fun t => t.1 != 0))
    ∧ ((List.range 4).any (fun t => fld v (80 * t + 8) 8 != 0) = false ∧ fld v 321 7 = 0 ∧ fld v 456 56 = 0 ∧ actionOk (fld v 328 128) = true)
    ∧ (ts.any (fun t => fieldBytes (graphOf s x.graph) t.1 == 0 || decide (4 < fieldBytes (graphOf s x.graph) t.1)) = false) :=
  ⟨4, 1, 0, set4, List.replicate 64 0#8, [], de 9, setSt 9, by decide +kernel⟩
theorem test_meets_ClassifierCommandsComplete_legacyLoad : ∃ (r i : Nat) (x : RuleSet) (bs : List Byte) (cs : List Comparator) (e : Fetched) (s : State),
    (Starts s r i 0x60 0x01 e)
    ∧ (behindRing s r i = false)
    ∧ (oget s.cls.sets (fld e.desc.toNat 64 6) = some x ∧ owns s r x.own = true)
    ∧ (fld e.desc.toNat 128 64 % 64 = 0 ∧ rdHost s r (fld e.desc.toNat 96 32) (.ok bs) = (0, bs) ∧ legacyRules (fld e.desc.toNat 192 6) bs = some cs) :=
  ⟨4, 1, set4, legacyImg, (legacyRules 0 legacyImg).getD [], de (1 + 48 * 2 ^ 96), { setSt 4 with fns := (rs 4 0x60 (1 + 48 * 2 ^ 96)).fns }, by decide +kernel⟩
theorem test_meets_ClassifierCommandsComplete_setCommit : ∃ (r i : Nat) (x : RuleSet) (e : Fetched) (s u : State),
    (Starts s r i 0x21 0x0A e)
    ∧ (behindRing s r i = false)
    ∧ (oget s.cls.sets (fld e.desc.toNat 64 6) = some x ∧ owns s r x.own = true)
    ∧ ((x.vers.filter (fun p => versionUsed s (fld e.desc.toNat 64 6) p.1)).length + 2 ≤ 4)
    ∧ (installAll (x.entries.length + 1) (begun s r i e) (fld e.desc.toNat 64 6) ((List.range 16).filter (fun t => x.pendingVer.binds.contains t || x.pendingVer.binds.contains (32 + t))) 0 = some u) :=
  ⟨4, 1, set4, de 10, setSt 10, begun (setSt 10) 4 1 (de 10), by decide +kernel⟩
theorem test_meets_ClassifierCommandsComplete_counterRead : ∃ (r i : Nat) (x : RuleSet) (e : Fetched) (s : State),
    (Starts s r i 0x21 0x0B e)
    ∧ (behindRing s r i = false)
    ∧ (oget s.cls.sets (fld e.desc.toNat 64 6) = some x ∧ owns s r x.own = true)
    ∧ (1 ≤ fld e.desc.toNat 96 32 ∧ fld e.desc.toNat 192 32 + fld e.desc.toNat 96 32 ≤ 4096 ∧ fld e.desc.toNat 128 64 % 64 = 0) :=
  ⟨4, 1, set4, de (11 + 2 ^ 96), setSt (11 + 2 ^ 96), by decide +kernel⟩
theorem test_meets_FramesEnterAndLeaveTheClassifier_rxFrame : ∃ (j : Nat) (fr : List Byte) (s u : State),
    (j < 64 ∧ (s.netIf j).up = true)
    ∧ (u = addTotal (tapUnit s { tap := 3, sel := j } fr) 4 j 0 fr.length) :=
  ⟨0, [], { net := { ifs := [(0, { up := true })] } }, addTotal (tapUnit { net := { ifs := [(0, { up := true })] } } { tap := 3, sel := 0 } []) 4 0 0 0, by decide +kernel⟩
theorem test_meets_FramesEnterAndLeaveTheClassifier_classifyPass : ∃ (t : Nat) (tx : Bool) (l : Lane) (rest : List Lane) (s u : State),
    (t < 16 ∧ (if tx then (s.ctile t).tx else (s.ctile t).rx) = l :: rest ∧ (passAction s t tx l).any (fun x => sealHolds s t x.1 tx x.2) = false)
    ∧ (u = s.modCtile t (fun c => if tx then { c with tx := rest } else { c with rx := rest })) :=
  ⟨0, false, {}, [], { cls := { tiles := [(0, { rx := [{}] })] } }, State.modCtile { cls := { tiles := [(0, { rx := [{}] })] } } 0 (fun c => { c with rx := [] }), by decide +kernel⟩
theorem test_meets_QueueCommandsComplete_txqCreate : ∃ (r i p n : Nat) (e : Fetched) (s u : State),
    (Starts s r i 0x22 0x01 e)
    ∧ (u = unorder (begun s r i e) (refOf r i e) ∧ p = fld e.desc.toNat 64 4 ∧ n = fld e.desc.toNat 70 12 ∧ netMay s r p = true)
    ∧ (fld e.desc.toNat 68 2 < ifsOf (s.netPort p).breakout ∧ ratesOk (dCir e.desc.toNat) (dPir e.desc.toNat) (dCbs e.desc.toNat) (dPbs e.desc.toNat) = true) :=
  ⟨4, 1, 0, 0, de 1, rs 4 0x22 1, unorder (begun (rs 4 0x22 1) 4 1 (de 1)) (refOf 4 1 (de 1)), by decide +kernel⟩
theorem test_meets_QueueCommandsComplete_rxqCreate : ∃ (r i p n : Nat) (e : Fetched) (s u : State),
    (Starts s r i 0x22 0x02 e)
    ∧ (u = unorder (begun s r i e) (refOf r i e) ∧ p = fld e.desc.toNat 64 4 ∧ n = fld e.desc.toNat 70 12 ∧ netMay s r p = true ∧ fld e.desc.toNat 68 2 = 0)
    ∧ (oget (s.netPort p).rxqs n = none ∧ txqOf s r i = none ∧ rxqOf s r i = none) :=
  ⟨4, 1, 0, 0, de 2, rs 4 0x22 2, unorder (begun (rs 4 0x22 2) 4 1 (de 2)) (refOf 4 1 (de 2)), by decide +kernel⟩
theorem test_meets_QueueCommandsComplete_otherPort : ∃ (r i op : Nat) (c : Instr) (e : Fetched) (s : State),
    (Starts s r i 0x22 op e)
    ∧ ((c, op) ∈ [(Instr.txqCreate r i, 1), (Instr.rxqCreate r i, 2), (Instr.policerSet r i, 5), (Instr.policerRead r i, 6)])
    ∧ (netMay s r (fld e.desc.toNat 64 4) = false) :=
  ⟨5, 1, 1, .txqCreate 5 1, de 1, rs 5 0x22 1, by decide +kernel⟩
theorem test_meets_QueueCommandsComplete_qConfig : ∃ (r i p n : Nat) (q : Txq) (e : Fetched) (s u : State),
    (Starts s r i 0x22 0x03 e)
    ∧ (u = unorder (begun s r i e) (refOf r i e) ∧ txqOf s r i = some (p, n, q) ∧ ratesOk (dCir e.desc.toNat) (dPir e.desc.toNat) (dCbs e.desc.toNat) (dPbs e.desc.toNat) = true) :=
  ⟨4, 1, 0, 0, { fn := 4, ring := 1 }, de 3, txqSt 3, unorder (begun (txqSt 3) 4 1 (de 3)) (refOf 4 1 (de 3)), by decide +kernel⟩
theorem test_meets_QueueCommandsComplete_noQueue : ∃ (r i : Nat) (h : HRead) (e : Fetched) (s : State),
    (((Starts s r i 0x22 0x03 e) ∨ (Starts s r i 0x22 0x04 e)) ∨ ((Starts s r i 0x22 0x10 e) ∨ (Starts s r i 0x22 0x11 e)))
    ∧ (txqOf s r i = none ∧ rxqOf s r i = none) :=
  ⟨4, 1, .ok [], de 3, rs 4 0x22 3, by decide +kernel⟩
theorem test_meets_QueueCommandsComplete_qDestroy : ∃ (r i p n : Nat) (e : Fetched) (s u : State),
    (Starts s r i 0x22 0x04 e)
    ∧ (u = unorder (begun s r i e) (refOf r i e)) :=
  ⟨4, 1, 0, 0, de 4, txqSt 4, unorder (begun (txqSt 4) 4 1 (de 4)) (refOf 4 1 (de 4)), by decide +kernel⟩
theorem test_meets_QueueCommandsComplete_policerSet : ∃ (r i p n : Nat) (e : Fetched) (s u : State),
    (Starts s r i 0x22 0x05 e)
    ∧ (u = unorder (begun s r i e) (refOf r i e) ∧ p = fld e.desc.toNat 64 4 ∧ n = fld e.desc.toNat 70 12 ∧ netMay s r p = true)
    ∧ (n ≠ 0 ∧ fld e.desc.toNat 208 2 ≠ 3 ∧ fld e.desc.toNat 210 2 ≠ 3 ∧ fld e.desc.toNat 212 2 ≠ 3 ∧ ratesOk (dCir e.desc.toNat) (dPir e.desc.toNat) (dCbs e.desc.toNat) (dPbs e.desc.toNat) = true) :=
  ⟨4, 1, 0, 1, de (5 + 2 ^ 70), rs 4 0x22 (5 + 2 ^ 70), unorder (begun (rs 4 0x22 (5 + 2 ^ 70)) 4 1 (de (5 + 2 ^ 70))) (refOf 4 1 (de (5 + 2 ^ 70))), by decide +kernel⟩
theorem test_meets_QueueCommandsComplete_policerRead : ∃ (r i p n : Nat) (e : Fetched) (s u : State),
    (Starts s r i 0x22 0x06 e)
    ∧ (u = unorder (begun s r i e) (refOf r i e) ∧ p = fld e.desc.toNat 64 4 ∧ n = fld e.desc.toNat 70 12 ∧ netMay s r p = true)
    ∧ (n ≠ 0 ∧ fld e.desc.toNat 256 64 % 64 = 0) :=
  ⟨4, 1, 0, 1, de (6 + 2 ^ 70), rs 4 0x22 (6 + 2 ^ 70), unorder (begun (rs 4 0x22 (6 + 2 ^ 70)) 4 1 (de (6 + 2 ^ 70))) (refOf 4 1 (de (6 + 2 ^ 70))), by decide +kernel⟩
theorem test_meets_QueueCommandsComplete_txPacket : ∃ (r i p n : Nat) (q : Txq) (bs : List Byte) (e : Fetched) (s : State),
    (Starts s r i 0x22 0x10 e)
    ∧ (txqOf s r i = some (p, n, q) ∧ 60 ≤ fld e.desc.toNat 128 14 ∧ fld e.desc.toNat 128 14 ≤ 9212 ∧ fld e.desc.toNat 64 64 % 64 = 0)
    ∧ (rdHost s r (fld e.desc.toNat 128 14) (.ok bs) = (0, bs)) :=
  ⟨4, 1, 0, 0, { fn := 4, ring := 1 }, List.replicate 60 0#8, de (16 + 60 * 2 ^ 128), txqSt (16 + 60 * 2 ^ 128), by decide +kernel⟩
theorem test_meets_QueueCommandsComplete_rxBuffer : ∃ (r i p n : Nat) (q : Rxq) (e : Fetched) (s : State),
    (Starts s r i 0x22 0x11 e)
    ∧ (rxqOf s r i = some (p, n, q) ∧ 80 ≤ fld e.desc.toNat 128 14 ∧ fld e.desc.toNat 64 64 % 64 = 0) :=
  ⟨4, 1, 0, 0, { fn := 4, ring := 1 }, de (17 + 80 * 2 ^ 128), rxqSt (17 + 80 * 2 ^ 128), by decide +kernel⟩
theorem test_meets_QueueCommandsComplete_timeWait : ∃ (r i : Nat) (e : Fetched) (s u : State),
    (Starts s r i 0x24 0x01 e)
    ∧ (u = { (begun s r i e) with net := { s.net with waits := s.net.waits ++ [{ ref := (refOf r i e), at_ := fld e.desc.toNat 64 64 }] } }) :=
  ⟨4, 1, de (1 + 2 ^ 100), rs 4 0x24 (1 + 2 ^ 100), { begun (rs 4 0x24 (1 + 2 ^ 100)) 4 1 (de (1 + 2 ^ 100)) with net := { waits := [{ ref := refOf 4 1 (de (1 + 2 ^ 100)), at_ := 2 ^ 36 }] } }, by decide +kernel⟩
theorem test_meets_FramesLeaveAtABoundary_frameSelect : ∃ (j : Nat) (s u : State),
    (j < 64 ∧ (s.netIf j).up = true ∧ (s.netIf j).sending = none)
    ∧ (u = dropTooLong 8192 s j) :=
  ⟨0, { net := { ifs := [(0, { up := true })] } }, { net := { ifs := [(0, { up := true })] } }, by decide +kernel⟩
theorem test_meets_FramesLeaveAtABoundary_frameTxDone : ∃ (j t0 t1 : Nat) (f : TxFrame) (s u v : State),
    ((s.netIf j).sending = some (f, t0, t1))
    ∧ (u = (advanceToPtp s t1).modNetIf j (fun i => { i with sending := none, lastAct := t1 }))
    ∧ (v = addTotal (emit (tapUnit u { tap := 4, sel := j } f.bytes) (.frame j f.bytes)) 4 j 1 f.bytes.length) :=
  ⟨0, 0, 0, {}, sendingSt, (advanceToPtp sendingSt 0).modNetIf 0 (fun i => { i with sending := none, lastAct := 0 }), addTotal (emit (tapUnit ((advanceToPtp sendingSt 0).modNetIf 0 (fun i => { i with sending := none, lastAct := 0 })) { tap := 4, sel := 0 } []) (.frame 0 [])) 4 0 1 0, by decide +kernel⟩
theorem test_meets_FramesLeaveAtABoundary_timeWaitDue : ∃ (w : TimeWait) (s u : State),
    (earliest s.net.waits = some w)
    ∧ (u = advanceToPtp s w.at_) :=
  ⟨{ ref := { fn := 4, ring := 1 }, at_ := 100 }, { net := { waits := [{ ref := { fn := 4, ring := 1 }, at_ := 100 }] } }, advanceToPtp { net := { waits := [{ ref := { fn := 4, ring := 1 }, at_ := 100 }] } } 100, by decide +kernel⟩
theorem test_meets_FramesLeaveAtABoundary_interfaceLinkChange : ∃ (j : Nat) (s : State),
    (j < 64 ∧ j % 4 < ifsOf (s.netPort (j / 4)).breakout) :=
  ⟨0, { doms := onDoms [40] }, by decide +kernel⟩
theorem test_meets_FramesLeaveAtABoundary_breakoutWrite : ∃ (fn p v : Nat) (s : State),
    (heldBack s fn 0 = false ∧ isPf1 fn = true ∧ present s fn = true)
    ∧ (p < 16 ∧ netOwner s p = fn ∧ reachable s (nptTile p) = true)
    ∧ (v % 4 ≠ 3 ∧ v % 4 ≠ (s.netPort p).breakout) :=
  ⟨4, 0, 1, { st1 with doms := onDoms [40] }, by decide +kernel⟩
theorem test_meets_FramesLeaveAtABoundary_schGateCommit : ∃ (fn j : Nat) (s : State),
    (heldBack s fn 0 = false ∧ isPf1 fn = true ∧ present s fn = true)
    ∧ (j / 4 < 16 ∧ netOwner s (j / 4) = fn ∧ reachable s (nptTile (j / 4)) = true) :=
  ⟨4, 0, { st1 with doms := onDoms [40] }, by decide +kernel⟩

end Sys2Proof.Tests
end

