-- ==== Sys2Proof/Tests/MeetsC.lean ====
section
/-!
SUPPORT. Concrete states and operands that meet the hypotheses of each clause together: sealing, storage and the life cycle.
-/
set_option Elab.async false
set_option linter.unusedVariables false
namespace Sys2Proof.Tests
open Sys2Proof Sys2Proof.Machine

theorem test_meets_SealCommandsComplete_keyAlloc : ∃ (r i n : Nat) (e : Fetched) (s : State),
    (Starts s r i 0x23 0x01 e)
    ∧ (isVf r = false ∧ lowestFree s.sealing.slots 0 262144 = some n) :=
  ⟨4, 1, 0, de (1 + 2 ^ 64), rs 4 0x23 (1 + 2 ^ 64), by decide +kernel⟩
theorem test_meets_SealCommandsComplete_notMySlot : ∃ (r i op : Nat) (x y : HRead) (c : Instr) (e : Fetched) (s : State),
    (Starts s r i 0x23 op e)
    ∧ ((c, op) ∈ [(Instr.keyLoad r i x, 2), (Instr.keyFree r i, 3), (Instr.saSet r i x, 4), (Instr.sealGcm r i x y, 5), (Instr.openGcm r i x y, 6), (Instr.xtsEnc r i x, 7), (Instr.xtsDec r i x, 8), (Instr.ctxSave r i, 10), (Instr.ctxRestore r i x, 11), (Instr.saQuery r i, 12)])
    ∧ ((s.slot (dSlot e.desc.toNat)).all (fun k => !owns s r k.own) = true)
    ∧ (sealWaits s r i (fld e.desc.toNat 82 18) = false ∨ (op ≠ 10 ∧ op ≠ 11)) :=
  ⟨4, 1, 2, .ok [], .ok [], .keyLoad 4 1 (.ok []), de 2, rs 4 0x23 2, by decide +kernel⟩
theorem test_meets_SealCommandsComplete_tileTakesNoWork : ∃ (r i op a : Nat) (x y : HRead) (c : Instr) (e : Fetched) (s : State),
    (Starts s r i 0x23 op e)
    ∧ ((c, op, a) ∈ [(Instr.sealGcm r i x y, 5, 64), (Instr.openGcm r i x y, 6, 64), (Instr.xtsEnc r i x, 7, 64), (Instr.xtsDec r i x, 8, 64), (Instr.ctxSave r i, 10, 82), (Instr.ctxRestore r i x, 11, 82)])
    ∧ (sealWaits s r i (fld e.desc.toNat a 18) = true) :=
  ⟨4, 1, 5, 64, .ok [], .ok [], .sealGcm 4 1 (.ok []) (.ok []), de (sealD 5), { keySt .loaded (sealD 5) with doms := [] }, by decide +kernel⟩
theorem test_meets_SealCommandsComplete_keyLoad : ∃ (r i : Nat) (k : KeySlot) (x : HRead) (bs : List Byte) (e : Fetched) (s u : State),
    (Starts s r i 0x23 0x02 e)
    ∧ (s.slot (dSlot e.desc.toNat) = some k ∧ owns s r k.own = true ∧ [1, 2, 3].contains k.kind = true ∧ k.st = .allocated)
    ∧ (rdSpace (begun s r i e) r 22 (dSrc e.desc.toNat) 64 x = (u, 0, bs)) :=
  ⟨4, 1, gcmKey .allocated, .ok [], List.replicate 64 0#8, de (2 + 2 ^ 190), keySt .allocated (2 + 2 ^ 190), begun (keySt .allocated (2 + 2 ^ 190)) 4 1 (de (2 + 2 ^ 190)), by decide +kernel⟩
theorem test_meets_SealCommandsComplete_keyFree : ∃ (r i : Nat) (k : KeySlot) (e : Fetched) (s : State),
    (Starts s r i 0x23 0x03 e)
    ∧ (s.slot (dSlot e.desc.toNat) = some k ∧ owns s r k.own = true) :=
  ⟨4, 1, gcmKey .loaded, de 3, keySt .loaded 3, by decide +kernel⟩
theorem test_meets_SealCommandsComplete_saSet : ∃ (r i : Nat) (k : KeySlot) (x : HRead) (bs : List Byte) (a : SaRec) (e : Fetched) (s u : State),
    (Starts s r i 0x23 0x04 e)
    ∧ (s.slot (dSlot e.desc.toNat) = some k ∧ owns s r k.own = true ∧ k.kind = 1 ∧ k.st = .loaded)
    ∧ (rdSpace (begun s r i e) r 22 (dSrc e.desc.toNat) 128 x = (u, 0, bs) ∧ parseSa bs = some a) :=
  ⟨4, 1, gcmKey .loaded, .ok [], List.replicate 128 0#8, { replayLog2 := 0 }, de (4 + 2 ^ 190), keySt .loaded (4 + 2 ^ 190), begun (keySt .loaded (4 + 2 ^ 190)) 4 1 (de (4 + 2 ^ 190)), by decide +kernel⟩
theorem test_meets_SealCommandsComplete_sealGcm : ∃ (r i t : Nat) (k : KeySlot) (x y : HRead) (pt aad : List Byte) (w : State × Nat) (e : Fetched) (s u v q : State),
    (Starts s r i 0x23 0x05 e)
    ∧ (sealWaits s r i (dSlot e.desc.toNat) = false)
    ∧ (s.slot (dSlot e.desc.toNat) = some k ∧ owns s r k.own = true ∧ k.kind = 1 ∧ k.st = .loaded ∧ k.sa = none ∧ dLen e.desc.toNat ≤ 65536)
    ∧ (t = tileFor (begun s r i e) (dieOfRing (begun s r i e) (refOf r i e)) (dSlot e.desc.toNat) k)
    ∧ (rdSpace (begun s r i e) r (sealDom t) (dSrc e.desc.toNat) (dLen e.desc.toNat) x = (u, 0, pt) ∧ rdSpace u r (sealDom t) (fld e.desc.toNat 256 64) (fld e.desc.toNat 320 16) y = (v, 0, aad))
    ∧ (useCounter v (dSlot e.desc.toNat) t k = some q)
    ∧ (w = wrSpace (countBytes q t (dLen e.desc.toNat)) r (sealDom t) (dDst e.desc.toNat) ((gcmSeal (keyOf k) (nonceOf k k.counter) aad pt).1 ++ (gcmSeal (keyOf k) (nonceOf k k.counter) aad pt).2) ∧ w.2 = 0) :=
  ⟨4, 1, 0, gcmKey .loaded, .ok [], .ok [], [], [], sealW, de (sealD 5), keySt .loaded (sealD 5), sealB 5, sealB 5, sealQ, ⟨by decide +kernel, by decide +kernel, by decide +kernel, by decide +kernel, by decide +kernel, (Option.some_get sealQ_ok).symm, rfl, by decide +kernel⟩⟩
theorem test_meets_SealCommandsComplete_openGcm : ∃ (r i t : Nat) (k : KeySlot) (x y : HRead) (ct aad : List Byte) (e : Fetched) (s u v q : State),
    (Starts s r i 0x23 0x06 e)
    ∧ (sealWaits s r i (dSlot e.desc.toNat) = false)
    ∧ (s.slot (dSlot e.desc.toNat) = some k ∧ owns s r k.own = true ∧ k.kind = 1 ∧ k.st = .loaded ∧ k.sa = none ∧ dLen e.desc.toNat ≤ 65536)
    ∧ (t = tileFor (begun s r i e) (dieOfRing (begun s r i e) (refOf r i e)) (dSlot e.desc.toNat) k)
    ∧ (rdSpace (begun s r i e) r (sealDom t) (dSrc e.desc.toNat) (dLen e.desc.toNat + 16) x = (u, 0, ct) ∧ rdSpace u r (sealDom t) (fld e.desc.toNat 256 64) (fld e.desc.toNat 320 16) y = (v, 0, aad))
    ∧ (q = countBytes (v.putSlot (dSlot e.desc.toNat) { k with used := true, pinned := some t }) t (dLen e.desc.toNat)) :=
  ⟨4, 1, 0, gcmKey .loaded, .ok [], .ok [], List.replicate 16 0#8, [], de (sealD 6 + 2 ^ 190), keySt .loaded (sealD 6 + 2 ^ 190), sealB6, sealB6, countBytes (sealB6.putSlot 0 { gcmKey .loaded with used := true, pinned := some 0 }) 0 0, by decide +kernel⟩
theorem test_meets_SealCommandsComplete_xts : ∃ (r i t du : Nat) (k : KeySlot) (x : HRead) (bs : List Byte) (enc : Bool) (e : Fetched) (s u q : State),
    (Starts s r i 0x23 (if enc then 0x07 else 0x08) e)
    ∧ (sealWaits s r i (dSlot e.desc.toNat) = false)
    ∧ (s.slot (dSlot e.desc.toNat) = some k ∧ owns s r k.own = true ∧ k.kind = 2 ∧ k.st = .loaded)
    ∧ (du = (if bitAt e.desc.toNat 336 then 4096 else 512) ∧ dLen e.desc.toNat ≤ 2 ^ 31 ∧ dLen e.desc.toNat % du = 0)
    ∧ (t = tileFor (begun s r i e) (dieOfRing (begun s r i e) (refOf r i e)) (dSlot e.desc.toNat) k ∧ rdSpace (begun s r i e) r (sealDom t) (dSrc e.desc.toNat) (dLen e.desc.toNat) x = (u, 0, bs))
    ∧ (q = countBytes (u.putSlot (dSlot e.desc.toNat) { k with used := true, pinned := some t }) t (dLen e.desc.toNat))
    ∧ ((wrSpace q r (sealDom t) (dDst e.desc.toNat) (xts enc du (fld e.desc.toNat 256 64) k.material bs)).2 = 0) :=
  ⟨4, 1, 0, 512, { gcmKey .loaded with kind := 2 }, .ok [], [], true, de (sealD 7), xtsSt, begun xtsSt 4 1 (de (sealD 7)), countBytes ((begun xtsSt 4 1 (de (sealD 7))).putSlot 0 { gcmKey .loaded with kind := 2, used := true, pinned := some 0 }) 0 0, by decide +kernel⟩
theorem test_meets_SealCommandsComplete_hash : ∃ (r i : Nat) (x y : HRead) (bs st : List Byte) (d : List Byte) (e : Fetched) (s u v : State),
    (Starts s r i 0x23 0x09 e)
    ∧ ((bitAt e.desc.toNat 337 = true ∨ dLen e.desc.toNat % 64 = 0) ∧ fld e.desc.toNat 256 64 % 64 = 0)
    ∧ (rdSpace (begun s r i e) r 22 (dSrc e.desc.toNat) (dLen e.desc.toNat) x = (u, 0, bs) ∧ rdSpace u r 22 (fld e.desc.toNat 384 64) (if fld e.desc.toNat 384 64 = 0 then 0 else 32) y = (v, 0, st))
    ∧ (d = toBs (if bitAt e.desc.toNat 337 then shaFinal (if fld e.desc.toNat 384 64 = 0 then shaInit else shaWords (ofBs st)) (fld e.desc.toNat 256 64) (ofBs bs) else shaBytes (shaBlocks (dLen e.desc.toNat / 64) (if fld e.desc.toNat 384 64 = 0 then shaInit else shaWords (ofBs st)) (ofBs bs))))
    ∧ ((wrSpace v r 22 (dDst e.desc.toNat) d).2 = 0) :=
  ⟨4, 1, .ok [], .ok [], [], [], toBs (shaFinal shaInit 0 []), de (sealD 9 + 2 ^ 337), rs 4 0x23 (sealD 9 + 2 ^ 337), begun (rs 4 0x23 (sealD 9 + 2 ^ 337)) 4 1 (de (sealD 9 + 2 ^ 337)), begun (rs 4 0x23 (sealD 9 + 2 ^ 337)) 4 1 (de (sealD 9 + 2 ^ 337)), by decide +kernel⟩
theorem test_meets_SealCommandsComplete_ctxSave : ∃ (r i t : Nat) (k w : KeySlot) (p : State × Nat) (e : Fetched) (s q : State),
    (Starts s r i 0x23 0x0A e)
    ∧ (sealWaits s r i (fld e.desc.toNat 82 18) = false)
    ∧ (s.slot (dSlot e.desc.toNat) = some k ∧ owns s r k.own = true ∧ [1, 2, 3].contains k.kind = true ∧ k.st = .loaded)
    ∧ (s.slot (fld e.desc.toNat 82 18) = some w ∧ owns s r w.own = true ∧ w.kind = 3 ∧ w.st = .loaded)
    ∧ (t = tileFor (begun s r i e) (dieOfRing (begun s r i e) (refOf r i e)) (fld e.desc.toNat 82 18) w ∧ useCounter (begun s r i e) (fld e.desc.toNat 82 18) t w = some q)
    ∧ (p = wrSpace q r (sealDom t) (dDst e.desc.toNat) (ctxHead k.kind w.counter ++ (gcmSeal (keyOf w) (nonceOf w w.counter) (ctxHead k.kind w.counter) (ctxClear k)).1 ++ (gcmSeal (keyOf w) (nonceOf w w.counter) (ctxHead k.kind w.counter) (ctxClear k)).2) ∧ p.2 = 0) :=
  ⟨4, 1, 0, gcmKey .loaded, wrapKey, ctxW, de ctxD, ctxSt, ctxQ, ⟨by decide +kernel, by decide +kernel, by decide +kernel, by decide +kernel, ⟨by decide +kernel, (Option.some_get ctxQ_ok).symm⟩, rfl, by decide +kernel⟩⟩
theorem test_meets_SealCommandsComplete_ctxRestore : ∃ (r i : Nat) (k w : KeySlot) (x : HRead) (bs : List Byte) (e : Fetched) (s u : State),
    (Starts s r i 0x23 0x0B e)
    ∧ (sealWaits s r i (fld e.desc.toNat 82 18) = false)
    ∧ (s.slot (dSlot e.desc.toNat) = some k ∧ owns s r k.own = true ∧ [1, 2, 3].contains k.kind = true ∧ k.st = .allocated)
    ∧ (s.slot (fld e.desc.toNat 82 18) = some w ∧ owns s r w.own = true ∧ w.kind = 3 ∧ w.st = .loaded)
    ∧ (rdSpace (begun s r i e) r 22 (dSrc e.desc.toNat) 512 x = (u, 0, bs)) :=
  ⟨4, 1, gcmKey .allocated, wrapKey, .ok (List.replicate 512 0#8), List.replicate 512 0#8, de rstD, rstSt, begun rstSt 4 1 (de rstD), by decide +kernel⟩
theorem test_meets_SealCommandsComplete_saQuery : ∃ (r i : Nat) (k : KeySlot) (e : Fetched) (s : State),
    (Starts s r i 0x23 0x0C e)
    ∧ (s.slot (dSlot e.desc.toNat) = some k ∧ owns s r k.own = true ∧ k.kind = 1 ∧ k.st = .loaded) :=
  ⟨4, 1, gcmKey .loaded, de 12, keySt .loaded 12, by decide +kernel⟩
theorem test_meets_SealTilesAndTheCipherLock_sealTileFault : ∃ (t : Nat) (s u : State),
    (t < 8 ∧ inService s (sealDom t) = true)
    ∧ (u = s.modStile t (fun k => { k with faulted := true })) :=
  ⟨0, { doms := onDoms [22] }, State.modStile { doms := onDoms [22] } 0 (fun k => { k with faulted := true }), by decide +kernel⟩
theorem test_meets_SealTilesAndTheCipherLock_sealRecoveryEnd : ∃ (t : Nat) (s : State),
    (t < 8 ∧ (s.stile t).recoverUntil ≠ 0) :=
  ⟨0, { sealing := { tiles := [(0, { recoverUntil := 100 })] } }, by decide +kernel⟩
theorem test_meets_SealTilesAndTheCipherLock_mcLockClaim : ∃ (cs : List Nat) (s u : State),
    (u = advanceTo s (s.vcycle + 1)) :=
  ⟨[0], s1, advanceTo s1 1, by decide +kernel⟩
theorem test_meets_SealTilesAndTheCipherLock_mcLockRelease : ∃ (c : Nat) (s : State),
    (s.sealing.mc.held = true) :=
  ⟨0, { sealing := { mc := { held := true } } }, by decide +kernel⟩
theorem test_meets_SealTilesAndTheCipherLock_mcLockForcedRelease : ∃ (s : State),
    (s.sealing.mc.held = true) :=
  ⟨{ sealing := { mc := { held := true } } }, by decide +kernel⟩
theorem test_meets_AdminCommandsComplete_identify : ∃ (r c : Nat) (m m1 : NvmCmd) (list : HRead) (s u : State),
    (NvmStarts s r 0 0x06 c m m1 u) :=
  ⟨6, 0, nvmCmd 0 6, { nvmCmd 0 6 with begun := true }, .ok [], nvmSt 0 6, nvmU 0 6, by decide +kernel⟩
theorem test_meets_AdminCommandsComplete_getLogPage : ∃ (r c : Nat) (m m1 : NvmCmd) (list : HRead) (s u : State),
    (NvmStarts s r 0 0x02 c m m1 u) :=
  ⟨6, 0, nvmCmd 0 2, { nvmCmd 0 2 with begun := true }, .ok [], nvmSt 0 2, nvmU 0 2, by decide +kernel⟩
theorem test_meets_AdminCommandsComplete_setFeatures : ∃ (r c : Nat) (m m1 : NvmCmd) (s u : State),
    (NvmStarts s r 0 0x09 c m m1 u)
    ∧ (bitAt (dw10 m1) 31 = false) :=
  ⟨6, 0, nvmCmd 0 9, { nvmCmd 0 9 with begun := true }, nvmSt 0 9, nvmU 0 9, by decide +kernel⟩
theorem test_meets_AdminCommandsComplete_getFeatures : ∃ (r c : Nat) (m m1 : NvmCmd) (s u : State),
    (NvmStarts s r 0 0x0A c m m1 u) :=
  ⟨6, 0, nvmCmd 0 10, { nvmCmd 0 10 with begun := true }, nvmSt 0 10, nvmU 0 10, by decide +kernel⟩
theorem test_meets_AdminCommandsComplete_createIoCq : ∃ (r c q n p : Nat) (m m1 : NvmCmd) (s u : State),
    (NvmStarts s r 0 0x05 c m m1 u)
    ∧ (q = fld (dw10 m1) 0 16 ∧ n = fld (dw10 m1) 16 16 + 1 ∧ p = fld m1.sqe 192 64) :=
  ⟨6, 0, 0, 1, 0, nvmCmd 0 5, { nvmCmd 0 5 with begun := true }, nvmSt 0 5, nvmU 0 5, by decide +kernel⟩
theorem test_meets_AdminCommandsComplete_createIoSq : ∃ (r c q n p : Nat) (m m1 : NvmCmd) (s u : State),
    (NvmStarts s r 0 0x01 c m m1 u)
    ∧ (q = fld (dw10 m1) 0 16 ∧ n = fld (dw10 m1) 16 16 + 1 ∧ p = fld m1.sqe 192 64) :=
  ⟨6, 0, 0, 1, 0, nvmCmd 0 1, { nvmCmd 0 1 with begun := true }, nvmSt 0 1, nvmU 0 1, by decide +kernel⟩
theorem test_meets_AdminCommandsComplete_deleteIoSq : ∃ (r c q : Nat) (m m1 : NvmCmd) (s u : State),
    (NvmStarts s r 0 0x00 c m m1 u)
    ∧ (q = fld (dw10 m1) 0 16) :=
  ⟨6, 0, 0, nvmCmd 0 0, { nvmCmd 0 0 with begun := true }, nvmSt 0 0, nvmU 0 0, by decide +kernel⟩
theorem test_meets_AdminCommandsComplete_deleteIoCq : ∃ (r c q : Nat) (m m1 : NvmCmd) (s u : State),
    (NvmStarts s r 0 0x04 c m m1 u)
    ∧ (q = fld (dw10 m1) 0 16) :=
  ⟨6, 0, 0, nvmCmd 0 4, { nvmCmd 0 4 with begun := true }, nvmSt 0 4, nvmU 0 4, by decide +kernel⟩
theorem test_meets_AdminCommandsComplete_nvmeAbort : ∃ (r c q : Nat) (m m1 : NvmCmd) (s u : State),
    (NvmStarts s r 0 0x08 c m m1 u)
    ∧ (q = fld (dw10 m1) 0 16) :=
  ⟨6, 0, 0, nvmCmd 0 8, { nvmCmd 0 8 with begun := true }, nvmSt 0 8, nvmU 0 8, by decide +kernel⟩
theorem test_meets_AdminCommandsComplete_asyncEventRequest : ∃ (r c : Nat) (m m1 : NvmCmd) (s u : State),
    (NvmStarts s r 0 0x0C c m m1 u) :=
  ⟨6, 0, nvmCmd 0 12, { nvmCmd 0 12 with begun := true }, nvmSt 0 12, nvmU 0 12, by decide +kernel⟩
theorem test_meets_IoCommandsBeginAsTheirChecksAllow_checks : ∃ (r c q op : Nat) (m m1 : NvmCmd) (x : HRead) (i : Instr) (s u : State),
    (NvmStarts s r q op c m m1 u)
    ∧ (q ≠ 0 ∧ (i, op) ∈ [(Instr.nvmeRead r q x, 2), (Instr.nvmeWrite r q x, 1), (Instr.writeZeroes r q, 8)]) :=
  ⟨6, 0, 1, 2, nvmCmd 1 2, { nvmCmd 1 2 with begun := true }, .ok [], .nvmeRead 6 1 (.ok []), nvmSt 1 2, nvmU 1 2, by decide +kernel⟩
theorem test_meets_IoCommandsBeginAsTheirChecksAllow_writes : ∃ (r c q n : Nat) (y : Namespace) (m m1 m2 : NvmCmd) (bs : List Byte) (s u v : State),
    (NvmStarts s r q 0x01 c m m1 u)
    ∧ (q ≠ 0 ∧ nsAt u c (nsidF m1) = some (n, y) ∧ nlbF m1 ≤ 256 ∧ slbaF m1 + nlbF m1 ≤ y.blocks ∧ (prpPages m1.sqe (4096 * nlbF m1) (.ok [])).isNone = false)
    ∧ (m2 = { m1 with ns := n, lba := slbaF m1, n := nlbF m1, data := .ok bs })
    ∧ (v = u.modCtl c (fun k => { k with writes := k.writes + 1, writeBlocks := k.writeBlocks + nlbF m1 })) :=
  ⟨6, 0, 1, 1, { own := own4, blocks := 16, at_ := some (0, 1) }, nvmCmd 1 (1 + 2 ^ 32), { nvmCmd 1 (1 + 2 ^ 32) with begun := true }, { nvmCmd 1 (1 + 2 ^ 32) with begun := true, ns := 1, n := 1 }, [], nvmSt 1 (1 + 2 ^ 32), nvmU 1 (1 + 2 ^ 32), (nvmU 1 (1 + 2 ^ 32)).modCtl 0 (fun k => { k with writes := k.writes + 1, writeBlocks := k.writeBlocks + 1 }), by decide +kernel⟩
theorem test_meets_IoCommandsBeginAsTheirChecksAllow_writeZeroes : ∃ (r c q n : Nat) (y : Namespace) (m m1 m2 : NvmCmd) (s u v : State),
    (NvmStarts s r q 0x08 c m m1 u)
    ∧ (q ≠ 0 ∧ nsAt u c (nsidF m1) = some (n, y) ∧ nlbF m1 ≤ 65536 ∧ slbaF m1 + nlbF m1 ≤ y.blocks ∧ fuaF m1 = false)
    ∧ (m2 = { m1 with ns := n, lba := slbaF m1, n := nlbF m1, zeroes := true })
    ∧ (v = u.modCtl c (fun k => { k with writes := k.writes + 1, writeBlocks := k.writeBlocks + nlbF m1 })) :=
  ⟨6, 0, 1, 1, { own := own4, blocks := 16, at_ := some (0, 1) }, nvmCmd 1 (8 + 2 ^ 32), { nvmCmd 1 (8 + 2 ^ 32) with begun := true }, { nvmCmd 1 (8 + 2 ^ 32) with begun := true, ns := 1, n := 1, zeroes := true }, nvmSt 1 (8 + 2 ^ 32), nvmU 1 (8 + 2 ^ 32), (nvmU 1 (8 + 2 ^ 32)).modCtl 0 (fun k => { k with writes := k.writes + 1, writeBlocks := k.writeBlocks + 1 }), by decide +kernel⟩
theorem test_meets_IoCommandsBeginAsTheirChecksAllow_nvmeRead : ∃ (r c q n : Nat) (y : Namespace) (m m1 m2 : NvmCmd) (ps : List (Nat × Nat)) (list : HRead) (p : State × NvmCmd) (miss : List Nat) (s u : State),
    (NvmStarts s r q 0x02 c m m1 u)
    ∧ (q ≠ 0 ∧ nsAt u c (nsidF m1) = some (n, y) ∧ nlbF m1 ≤ 256 ∧ slbaF m1 + nlbF m1 ≤ y.blocks)
    ∧ (prpPages m1.sqe (4096 * nlbF m1) list = some (.ok ps))
    ∧ (miss = (List.range (nlbF m1)).filter (fun i => (liveBlock u n (slbaF m1 + i)).isNone))
    ∧ (m2 = { m1 with ns := n, lba := slbaF m1, n := nlbF m1, pages := ps, started := decide (miss.length < nlbF m1) })
    ∧ (p = (List.range (nlbF m1)).foldl (readBuffered c) (u, m2)) :=
  ⟨6, 0, 1, 1, { own := own4, blocks := 16, at_ := some (0, 1) }, nvmCmd 1 (2 + 2 ^ 32), { nvmCmd 1 (2 + 2 ^ 32) with begun := true }, { nvmCmd 1 (2 + 2 ^ 32) with begun := true, ns := 1, n := 1, pages := [(0, 4096)] }, [(0, 4096)], .ok [], (nvmU 1 (2 + 2 ^ 32), { nvmCmd 1 (2 + 2 ^ 32) with begun := true, ns := 1, n := 1, pages := [(0, 4096)] }), [0], nvmSt 1 (2 + 2 ^ 32), nvmU 1 (2 + 2 ^ 32), by decide +kernel⟩
theorem test_meets_IoCommandsBeginAsTheirChecksAllow_nvmeFlush : ∃ (r c q : Nat) (m m1 : NvmCmd) (s u : State),
    (NvmStarts s r q 0x00 c m m1 u)
    ∧ (q ≠ 0 ∧ nsidF m1 ≠ 0xFFFFFFFF) :=
  ⟨6, 0, 1, nvmCmd 1 (2 ^ 32), { nvmCmd 1 (2 ^ 32) with begun := true }, nvmSt 1 (2 ^ 32), nvmU 1 (2 ^ 32), by decide +kernel⟩
theorem test_meets_IoCommandsBeginAsTheirChecksAllow_datasetManagement : ∃ (r c q n : Nat) (y : Namespace) (m m1 : NvmCmd) (bs : List Byte) (rs : List (Nat × Nat)) (s u : State),
    (NvmStarts s r q 0x09 c m m1 u)
    ∧ (q ≠ 0 ∧ nsAt u c (nsidF m1) = some (n, y))
    ∧ (rs = (dsmRanges (fld (dw10 m1) 0 8 + 1) (fitB bs (16 * (fld (dw10 m1) 0 8 + 1)))).filter (fun r => r.2 != 0)) :=
  ⟨6, 0, 1, 1, { own := own4, blocks := 16, at_ := some (0, 1) }, nvmCmd 1 (9 + 2 ^ 32), { nvmCmd 1 (9 + 2 ^ 32) with begun := true }, [], [], nvmSt 1 (9 + 2 ^ 32), nvmU 1 (9 + 2 ^ 32), by decide +kernel⟩
theorem test_meets_DoorbellsEnableAndShutdown_ccEnSet : ∃ (r c cc : Nat) (s : State),
    (heldBack s r 0 = false ∧ ctrlOf r = some c ∧ bitAt (s.ctl c).cc 0 = false ∧ bitAt cc 0 = true) :=
  ⟨6, 0, 1, { fns := [(6, { st := .clean })] }, by decide +kernel⟩
theorem test_meets_DoorbellsEnableAndShutdown_ccEnClear : ∃ (r c : Nat) (reads : Bool) (s : State),
    (heldBack s r 0 = false ∧ ctrlOf r = some c ∧ bitAt (s.ctl c).cc 0 = true) :=
  ⟨6, 0, false, nvmSt 0 0, by decide +kernel⟩
theorem test_meets_DoorbellsEnableAndShutdown_sqTailDoorbell : ∃ (r c q tail t : Nat) (x : NvmSq) (bs : List Byte) (s u : State),
    (heldBack s r 0 = false ∧ ctrlOf r = some c ∧ (s.ctl c).rdy = true ∧ oget (s.ctl c).sqs q = some x)
    ∧ (u = s.modCtl c (fun k => { k with sqs := omod k.sqs q (fun x => { x with tail := tail, late := some (.ok bs) }) }))
    ∧ ((s.fn r).st = .active ∧ (s.fn r).freeze = none ∧ (s.ctl c).tile = some t) :=
  ⟨6, 0, 0, 1, 0, { size := 4 }, [], nvmSt 0 0, (nvmSt 0 0).modCtl 0 (fun k => { k with sqs := omod k.sqs 0 (fun x => { x with tail := 1, late := some (.ok []) }) }), by decide +kernel⟩
theorem test_meets_DoorbellsEnableAndShutdown_cqHeadDoorbell : ∃ (r c q head : Nat) (x : NvmCq) (s u : State),
    (heldBack s r 0 = false ∧ ctrlOf r = some c ∧ (s.ctl c).rdy = true ∧ oget (s.ctl c).cqs q = some x)
    ∧ (u = drainNvm (x.waiting.length + 1) (s.modCtl c (fun k => { k with cqs := omod k.cqs q (fun e => { e with head := head }) })) c q) :=
  ⟨6, 0, 0, 1, { size := 4 }, nvmSt 0 0, (nvmSt 0 0).modCtl 0 (fun k => { k with cqs := omod k.cqs 0 (fun x => { x with head := 1 }) }), by decide +kernel⟩
theorem test_meets_DoorbellsEnableAndShutdown_nvmeShutdown : ∃ (r c : Nat) (s : State),
    (heldBack s r 0 = false ∧ ctrlOf r = some c ∧ (s.ctl c).rdy = true) :=
  ⟨6, 0, nvmSt 0 0, by decide +kernel⟩
theorem test_meets_StorageCommandsComplete_backendCreate_stack : ∃ (r i b v : Nat) (bs : List Byte) (e : Fetched) (s : State),
    (Starts s r i 0x30 0x01 e)
    ∧ (fld e.desc.toNat 128 64 % 64 = 0 ∧ rdHost s r 1024 (.ok bs) = (0, bs) ∧ v = leNat bs ∧ lowestFree s.sto.backends 0 256 = some b)
    ∧ (recReserved v = false ∧ fld v 0 2 = 2 ∧ fld v 64 64 % 2 ^ 21 = 0 ∧ spaceOf (fld v 64 64) = 0 ∧ 512 ≤ fld v 128 64 ∧ fld v 128 64 ≤ 2 ^ 24) :=
  ⟨4, 1, 0, stackRec, natLE 1024 stackRec, de 1, rs 4 0x30 1, by decide +kernel⟩
theorem test_meets_StorageCommandsComplete_backendCreate_remote : ∃ (r i b v q : Nat) (bs : List Byte) (k : Backend) (e : Fetched) (s : State),
    (Starts s r i 0x30 0x01 e)
    ∧ (fld e.desc.toNat 128 64 % 64 = 0 ∧ rdHost s r 1024 (.ok bs) = (0, bs) ∧ v = leNat bs ∧ lowestFree s.sto.backends 0 256 = some b)
    ∧ (recReserved v = false ∧ fld v 0 2 = 1 ∧ q = fld v 8 5 ∧ 1 ≤ q ∧ q ≤ 16 ∧ 16 ≤ fld v 16 11 ∧ fld v 16 11 ≤ 1024 ∧ 2 ≤ fld v 32 8 ∧ fld v 128 64 = 0 ∧ fld v (544 + 32 * q) (512 - 32 * q) = 0)
    ∧ (qpsOk s r (recQps v q) = true ∧ tooManyBound s (recQps v q) = false)
    ∧ (k = { own := s.ownOf r, remote := true, record := bs, queues := q, depth := fld v 16 11, kato := fld v 32 8, qps := recQps v q, ref := some (refOf r i e) }) :=
  ⟨4, 1, 0, remoteRec, 1, natLE 1024 remoteRec, remoteBack, de 1, remoteSt 1, by decide +kernel⟩
theorem test_meets_StorageCommandsComplete_backendConnectStep : ∃ (b : Nat) (k : Backend) (bs : List Byte) (s : State),
    (oget s.sto.backends b = some k ∧ k.ref.isSome = true) :=
  ⟨0, { remoteBack with queues := 1 }, [], { sto := { backends := [(0, remoteBack)] } }, by decide +kernel⟩
theorem test_meets_StorageCommandsComplete_noBackend : ∃ (r i op : Nat) (h : HRead) (c : Instr) (e : Fetched) (s : State),
    (Starts s r i 0x30 op e)
    ∧ ((c, op) ∈ [(Instr.backendDestroy r i, 2), (Instr.backendRebind r i h, 3), (Instr.nsCreate r i, 5)] ∧ fld e.desc.toNat 128 64 % 64 = 0) :=
  ⟨4, 1, 2, .ok [], .backendDestroy 4 1, de 2, rs 4 0x30 2, by decide +kernel⟩
theorem test_meets_StorageCommandsComplete_backendDestroy : ∃ (r i b : Nat) (k : Backend) (e : Fetched) (s : State),
    (Starts s r i 0x30 0x02 e)
    ∧ (b = fld e.desc.toNat 64 8 ∧ backAt s b = some k ∧ owns s r k.own = true) :=
  ⟨4, 1, 0, stackBack, de 2, backSt 2, by decide +kernel⟩
theorem test_meets_StorageCommandsComplete_backendRebind : ∃ (r i b : Nat) (k : Backend) (bs : List Byte) (ns : List Nat) (e : Fetched) (s u : State),
    (Starts s r i 0x30 0x03 e)
    ∧ (b = fld e.desc.toNat 64 8 ∧ fld e.desc.toNat 128 64 % 64 = 0 ∧ backAt s b = some k ∧ owns s r k.own = true)
    ∧ (k.st = .down ∧ k.ref = none ∧ rdHost s r 1024 (.ok bs) = (0, bs) ∧ ns = recQps (leNat bs) k.queues)
    ∧ (u = unbindMark (begun s r i e) (backMark b) ∧ qpsOk u r ns = true ∧ tooManyBound u ns = false) :=
  ⟨4, 1, 0, downBack, natLE 1024 remoteRec, [2, 3], de 3, downSt 3, unbindMark (begun (downSt 3) 4 1 (de 3)) (backMark 0), by decide +kernel⟩
theorem test_meets_StorageCommandsComplete_backendQuery : ∃ (r i : Nat) (k : Backend) (e : Fetched) (s : State),
    (Starts s r i 0x30 0x04 e)
    ∧ (fld e.desc.toNat 128 64 % 64 = 0 ∧ backAt s (fld e.desc.toNat 64 8) = some k) :=
  ⟨4, 1, stackBack, de 4, backSt 4, by decide +kernel⟩
theorem test_meets_StorageCommandsComplete_keepAlive : ∃ (b : Nat) (k : Backend) (s u : State),
    (oget s.sto.backends b = some k ∧ k.remote = true ∧ k.st = .ready)
    ∧ (u = emit ((advanceTo s (k.lastKa + k.kato * 500 * msCycles)).modBack b (fun k => { k with lastKa := k.lastKa + k.kato * 500 * msCycles })) (.target b 0x18 0 0 false [])) :=
  ⟨0, { remoteBack with st := .ready, ref := none }, { sto := { backends := [(0, { remoteBack with st := .ready, ref := none })] } }, kaSt, by decide +kernel⟩
theorem test_meets_StorageCommandsComplete_nsCreate : ∃ (r i n b first blocks : Nat) (k : Backend) (e : Fetched) (s : State),
    (Starts s r i 0x30 0x05 e)
    ∧ (b = fld e.desc.toNat 64 8 ∧ first = fld e.desc.toNat 192 64 ∧ blocks = fld e.desc.toNat 256 64 ∧ backAt s b = some k ∧ owns s r k.own = true ∧ lowestFree s.sto.nss 1 4097 = some n)
    ∧ (1 ≤ blocks ∧ blocks ≤ 2 ^ 40 ∧ first + blocks ≤ k.blocks ∧ s.sto.nss.any (fun p => p.2.backend == b && overlap first blocks p.2.first p.2.blocks) = false) :=
  ⟨4, 1, 1, 0, 0, 1, stackBack, de nsDesc, backSt nsDesc, by decide +kernel⟩
theorem test_meets_StorageCommandsComplete_noNamespace : ∃ (r i op : Nat) (c : Instr) (e : Fetched) (s : State),
    (Starts s r i 0x30 op e)
    ∧ ((c, op) ∈ [(Instr.nsAttach r i, 7), (Instr.nsDetach r i, 8)] ∧ fld e.desc.toNat 340 10 < 514 ∧ 1 ≤ fld e.desc.toNat 352 9 ∧ fld e.desc.toNat 352 9 ≤ 256) :=
  ⟨4, 1, 7, .nsAttach 4 1, de attDesc, backSt attDesc, by decide +kernel⟩
theorem test_meets_StorageCommandsComplete_nsDelete : ∃ (r i n : Nat) (x : Namespace) (e : Fetched) (s : State),
    (Starts s r i 0x30 0x06 e)
    ∧ (n = fld e.desc.toNat 64 13 ∧ oget s.sto.nss n = some x ∧ owns s r x.own = true ∧ x.at_ = none) :=
  ⟨4, 1, 1, { own := own4, blocks := 16 }, de (6 + 2 ^ 64), nsSt (6 + 2 ^ 64), by decide +kernel⟩
theorem test_meets_StorageCommandsComplete_nsAttach : ∃ (r i n c nsid : Nat) (x : Namespace) (e : Fetched) (s : State),
    (Starts s r i 0x30 0x07 e)
    ∧ (c = fld e.desc.toNat 340 10 ∧ nsid = fld e.desc.toNat 352 9 ∧ n = fld e.desc.toNat 64 13 ∧ c < 514 ∧ 1 ≤ nsid ∧ nsid ≤ 256)
    ∧ (oget s.sto.nss n = some x ∧ owns s r x.own = true ∧ epOf (rankOf c) = epOf r) :=
  ⟨4, 1, 1, 0, 1, { own := own4, blocks := 16 }, de (attDesc + 2 ^ 64), nsSt (attDesc + 2 ^ 64), by decide +kernel⟩
theorem test_meets_StorageCommandsComplete_nsDetach : ∃ (r i n c nsid : Nat) (x : Namespace) (e : Fetched) (s u : State),
    (Starts s r i 0x30 0x08 e)
    ∧ (n = fld e.desc.toNat 64 13 ∧ oget s.sto.nss n = some x ∧ owns s r x.own = true)
    ∧ (u = (begun s r i e).modNs n (fun x => { x with detach := some (refOf r i e), failed := 0 })) :=
  ⟨4, 1, 1, 0, 1, { own := own4, blocks := 16 }, de (8 + 2 ^ 64), nsSt (8 + 2 ^ 64), State.modNs (begun (nsSt (8 + 2 ^ 64)) 4 1 (de (8 + 2 ^ 64))) 1 (fun x => { x with detach := some (refOf 4 1 (de (8 + 2 ^ 64))), failed := 0 }), by decide +kernel⟩
theorem test_meets_StorageCommandsComplete_stoSet : ∃ (s : State),
    (s.transom.held.reverse.find? (fun h => h.cap == 0x30) = none) :=
  ⟨State.reset, by decide +kernel⟩
theorem test_meets_StorageCommandsComplete_stoSet_joins : ∃ (h : Held) (s : State),
    (s.transom.held.reverse.find? (fun h => h.cap == 0x30) = some h) :=
  ⟨{ cap := 0x30 }, { transom := { held := [{ cap := 0x30 }] } }, by decide +kernel⟩
theorem test_meets_IncarnationsStartAndEnd_functionEnable : ∃ (fn : Nat) (s : State),
    (heldBack s fn 0 = false)
    ∧ (isPf2 fn = false ∧ isVf2 fn = false) :=
  ⟨4, { fns := [(4, { st := .clean })] }, by decide +kernel⟩
theorem test_meets_IncarnationsStartAndEnd_functionShutdown : ∃ (fn : Nat) (enable : Bool) (s : State),
    (heldBack s fn 0 = false)
    ∧ ((s.fn fn).st = .active ∧ (s.fn fn).freeze = none ∧ ctrlOf fn = none ∧ hasRings fn = true) :=
  ⟨4, false, st1, by decide +kernel⟩
theorem test_meets_IncarnationsStartAndEnd_flr : ∃ (fn : Nat) (s : State),
    ((s.fn fn).st = .active ∧ (s.fn fn).freeze = none ∧ ctrlOf fn = none ∧ hasRings fn = true) :=
  ⟨4, st1, by decide +kernel⟩
theorem test_meets_IncarnationsStartAndEnd_busMasterClear : ∃ (fn : Nat) (s u : State),
    (configBusy s fn = false)
    ∧ (u = s.modFn fn (fun f => { f with busMaster := false }))
    ∧ ((u.fn fn).st = .active ∧ (u.fn fn).freeze = none ∧ ctrlOf fn = none ∧ hasRings fn = true) :=
  ⟨4, st1, st1.modFn 4 (fun f => { f with busMaster := false }), by decide +kernel⟩
theorem test_meets_IncarnationsStartAndEnd_d3hotEntry : ∃ (fn : Nat) (s u : State),
    (configBusy s fn = false)
    ∧ (u = s.modFn fn (fun f => { f with d3hot := true }))
    ∧ ((u.fn fn).st = .active ∧ (u.fn fn).freeze = none ∧ ctrlOf fn = none ∧ hasRings fn = true) :=
  ⟨4, st1, st1.modFn 4 (fun f => { f with d3hot := true }), by decide +kernel⟩
theorem test_meets_IncarnationsStartAndEnd_leaseExpiry : ∃ (fn : Nat) (s u : State),
    ((s.fn fn).leaseArmed = true ∧ (s.fn fn).st = .active ∧ (s.fn fn).freeze = none ∧ ctrlOf fn = none ∧ hasRings fn = true)
    ∧ (u = advanceTo s ((s.fn fn).leaseFrom + (s.fn fn).leaseInForce * 400000)) :=
  ⟨4, { fns := [(4, { fnOn with leaseArmed := true })] }, { fns := [(4, { fnOn with leaseArmed := true })], vcycle := 5000 * 400000 }, by decide +kernel⟩
theorem test_meets_IncarnationsStartAndEnd_vfEnableClear : ∃ (pf : Nat) (reads : List Nat) (s u : State),
    (configBusy s pf = false)
    ∧ ((isPf1 pf || isPf2 pf) = true)
    ∧ (u = s.modFn pf (fun f => { f with vfEnable := false })) :=
  ⟨4, [8], { st1 with fns := [(4, { fnOn with vfEnable := true, numVfs := 1 }), (8, fnOn)] }, { st1 with fns := [(4, { fnOn with numVfs := 1 }), (8, fnOn)] }, by decide +kernel⟩
theorem test_meets_IncarnationsStartAndEnd_vfEnableSet : ∃ (pf num : Nat) (s u : State),
    (configBusy s pf = false)
    ∧ ((isPf1 pf || isPf2 pf) = true ∧ (s.fn pf).vfEnable = false ∧ num ≤ 256)
    ∧ (u = s.modFn pf (fun f => { f with vfEnable := true, numVfs := num })) :=
  ⟨4, 2, st1, { st1 with fns := [(4, { fnOn with vfEnable := true, numVfs := 2 })] }, by decide +kernel⟩
theorem test_meets_IncarnationsStartAndEnd_configRetry : ∃ (fn : Nat) (c : Instr) (n : Nat) (b : Bool) (l : List Nat) (s : State),
    (configBusy s fn = true)
    ∧ (c ∈ [.flr fn b, .busMasterClear fn b, .d3hotEntry fn b, .vfEnableSet fn n, .vfEnableClear fn l]) :=
  ⟨4, .flr 4 true, 0, true, [], { fns := [(4, { st := .draining, gen := 1, cause := 3 })] }, by decide +kernel⟩
theorem test_meets_IncarnationsStartAndEnd_functionDrained : ∃ (fn : Nat) (s u : State),
    ((s.fn fn).st = .draining ∧ (s.fn fn).intx = 0#2048 ∧ ctrlOf fn = none)
    ∧ ((s.fn fn).cause ≠ 3 ∧ (s.fn fn).cause ≠ 4)
    ∧ (u = resetRegs s fn) :=
  ⟨4, { fns := [(4, { st := .draining, gen := 1, cause := 2 })] }, resetRegs { fns := [(4, { st := .draining, gen := 1, cause := 2 })] } 4, by decide +kernel⟩
theorem test_meets_IncarnationsStartAndEnd_drainBoundExpiry : ∃ (fn : Nat) (s : State),
    ((s.fn fn).st = .draining) :=
  ⟨4, { fns := [(4, { st := .draining, gen := 1, cause := 2 })] }, by decide +kernel⟩
theorem test_meets_OrphansAreAdoptedOrDiscarded_orphanAdopt : ∃ (fn : Nat) (reads : List HRead) (es : List (Nat × DirEntry)) (s u : State),
    (heldBack s fn 0 = false ∧ present s fn = true ∧ (s.fn fn).orphan.isSome = true ∧ (s.fn fn).st = .active ∧ (s.fn fn).dirCommitted = true)
    ∧ (orphanRings s fn ≠ [])
    ∧ (u = hostWrite s fn ((s.fn fn).orphanAddr / 64 * 64) ((orphanRings s fn).flatMap (fun q => adoptRecord q.1 q.2)))
    ∧ (adoptEntries u fn (orphanRings s fn) reads = .ok es) :=
  ⟨4, [.ok adoptBytes], [(1, parseEntry adoptBytes)], adoptSt, hostWrite adoptSt 4 0 ((orphanRings adoptSt 4).flatMap (fun q => adoptRecord q.1 q.2)), by decide +kernel⟩
theorem test_meets_OrphansAreAdoptedOrDiscarded_orphanAdopt_bad : ∃ (fn n : Nat) (reads : List HRead) (s u : State),
    (heldBack s fn 0 = false ∧ present s fn = true ∧ (s.fn fn).orphan.isSome = true ∧ (s.fn fn).st = .active ∧ (s.fn fn).dirCommitted = true)
    ∧ (orphanRings s fn ≠ [])
    ∧ (u = hostWrite s fn ((s.fn fn).orphanAddr / 64 * 64) ((orphanRings s fn).flatMap (fun q => adoptRecord q.1 q.2)))
    ∧ (adoptEntries u fn (orphanRings s fn) reads = .error n) :=
  ⟨4, 3, [.timeout], adoptSt, hostWrite adoptSt 4 0 ((orphanRings adoptSt 4).flatMap (fun q => adoptRecord q.1 q.2)), by decide +kernel⟩
theorem test_meets_OrphansAreAdoptedOrDiscarded_orphanAct_none : ∃ (fn : Nat) (reads : List HRead) (s : State),
    (heldBack s fn 0 = false ∧ present s fn = true)
    ∧ ((s.fn fn).orphan = none ∨ (s.fn fn).st ≠ .active) :=
  ⟨4, [], st1, by decide +kernel⟩
theorem test_meets_OrphansAreAdoptedOrDiscarded_orphanAdopt_uncommitted : ∃ (fn : Nat) (reads : List HRead) (s : State),
    (heldBack s fn 0 = false ∧ present s fn = true ∧ (s.fn fn).orphan.isSome = true ∧ (s.fn fn).st = .active ∧ (s.fn fn).dirCommitted = false) :=
  ⟨4, [], { fns := [(4, { fnOn with orphan := some {} })] }, by decide +kernel⟩
theorem test_meets_OrphansAreAdoptedOrDiscarded_orphanDiscard : ∃ (fn : Nat) (s : State),
    (heldBack s fn 0 = false ∧ present s fn = true ∧ (s.fn fn).orphan.isSome = true ∧ (s.fn fn).st = .active) :=
  ⟨4, { fns := [(4, { fnOn with orphan := some {} })] }, by decide +kernel⟩
theorem test_meets_OrphansAreAdoptedOrDiscarded_orphanHoldExpiry : ∃ (fn : Nat) (o : Orphan) (s : State),
    ((s.fn fn).orphan = some o) :=
  ⟨4, {}, { fns := [(4, { fnOn with orphan := some {} })] }, by decide +kernel⟩
theorem test_meets_OrphansAreAdoptedOrDiscarded_vfQuotaWrite : ∃ (pf n : Nat) (value q : BitVec 64) (s : State),
    (heldBack s pf 0 = false ∧ present s pf = true ∧ isPf1 pf = true ∧ n < 256 ∧ quotaOk true false value.toNat = true)
    ∧ (q = BitVec.ofNat 64 (fld value.toNat 0 5 + fld value.toNat 8 24 * 2 ^ 8 + fld value.toNat 32 20 * 2 ^ 32))
    ∧ (q ≠ (s.fn (vf1Of (epOf pf) n)).quotaA) :=
  ⟨4, 0, 0x0000040000100008#64, 0x0000040000100008#64, st1, by decide +kernel⟩
theorem test_meets_OrphansAreAdoptedOrDiscarded_vfQuotaWrite_second : ∃ (pf n : Nat) (value q : BitVec 64) (s : State),
    (heldBack s pf 0 = false ∧ present s pf = true ∧ isPf1 pf = true ∧ n < 256 ∧ quotaOk true true value.toNat = true)
    ∧ (q = BitVec.ofNat 64 (setFld (setFld (s.fn (vf1Of (epOf pf) n)).quotaB.toNat 0 13 (fld value.toNat 0 13)) 16 21 (fld value.toNat 16 21)))
    ∧ (q ≠ (s.fn (vf1Of (epOf pf) n)).quotaB) :=
  ⟨4, 0, 0#64, 0x0000100000000000#64, st1, by decide +kernel⟩
theorem test_meets_OrphansAreAdoptedOrDiscarded_vfQuotaWrite_other : ∃ (pf n : Nat) (second : Bool) (value : BitVec 64) (s : State),
    (heldBack s pf 0 = false)
    ∧ ((isPf1 pf || isPf2 pf) = false ∨ present s pf = false ∨ 256 ≤ n ∨ quotaOk (isPf1 pf) second value.toNat = false) :=
  ⟨4, 0, true, 4097, st1, by decide +kernel⟩
theorem test_meets_LinksAndVectorsReport_hostReadTimeout : ∃ (fn : Nat) (s : State),
    (isFn fn = true) :=
  ⟨4, st1, by decide +kernel⟩
theorem test_meets_LinksAndVectorsReport_poisonedTlp : ∃ (fn : Nat) (read : Bool) (s : State),
    (isFn fn = true) :=
  ⟨4, false, st1, by decide +kernel⟩
theorem test_meets_LinksAndVectorsReport_unexpectedCompletion : ∃ (fn : Nat) (s : State),
    (isFn fn = true) :=
  ⟨4, st1, by decide +kernel⟩
theorem test_meets_LinksAndVectorsReport_aspmL1Entry : ∃ (ep : Nat) (l : HostLink) (s u : State),
    (ep < 2 ∧ mget s.links ep {} = l ∧ l.aspmL1 = true ∧ l.inL1 = false)
    ∧ (u = advanceTo s (l.lastTlp + 25600)) :=
  ⟨0, { aspmL1 := true }, { links := [(0, { aspmL1 := true })] }, { links := [(0, { aspmL1 := true })], vcycle := 25600 }, by decide +kernel⟩
theorem test_meets_LinksAndVectorsReport_msixUnmask : ∃ (fn vec : Nat) (s u : State),
    (heldBack s fn 0 = false ∧ present s fn = true ∧ vec < vectorsOf fn)
    ∧ (u = s.modFn fn (fun f => { f with vecMask := f.vecMask &&& ~~~(1#2048 <<< vec) })) :=
  ⟨4, 2047, { fns := [(4, { fnOn with msixEn := true, pba := 1#2048 <<< 2047 })] }, ({ fns := [(4, { fnOn with msixEn := true, pba := 1#2048 <<< 2047 })] } : State).modFn 4 (fun f => { f with vecMask := f.vecMask &&& ~~~(1#2048 <<< 2047) }), by decide +kernel⟩
theorem test_meets_LinksAndVectorsReport_intxPendingClear : ∃ (fn k : Nat) (value : BitVec 64) (m : BitVec 2048) (s : State),
    (heldBack s fn 0 = false ∧ present s fn = true ∧ isVf fn = false ∧ k < 32)
    ∧ (m = (s.fn fn).intx &&& ~~~(BitVec.ofNat 2048 value.toNat <<< (64 * k))) :=
  ⟨4, 31, 1#64 <<< 63, 0#2048, { fns := [(4, { fnOn with intx := 1#2048 <<< 2047 })] }, by decide +kernel⟩
theorem test_meets_VirtualFunctionsMigrate_notProvided : ∃ (r i op : Nat) (x y : HRead) (c : Instr) (sts : List FnSt) (e : Fetched) (s : State),
    (Starts s r i 0x50 op e)
    ∧ ((c, op, sts) ∈ [(Instr.vfFreeze r i, 1, [FnSt.active]), (Instr.vfSave r i, 2, [FnSt.frozen]), (Instr.vfRestore r i x y, 3, [FnSt.clean]), (Instr.vfThaw r i, 4, [FnSt.frozen]), (Instr.dirtyLog r i, 5, [FnSt.active, FnSt.frozen])]) :=
  ⟨4, 1, 1, .ok [], .ok [], .vfFreeze 4 1, [.active], de 1, vfSt 1 { st := .clean }, by decide +kernel⟩
theorem test_meets_VirtualFunctionsMigrate_vfFreeze : ∃ (r i v : Nat) (e : Fetched) (s : State),
    (Starts s r i 0x50 0x01 e)
    ∧ (v = vfFld r e.desc.toNat ∧ vfNo v < (s.fn (pfOf v)).numVfs ∧ (s.fn (pfOf v)).vfEnable = true ∧ (s.fn v).st = .active ∧ (s.fn v).freeze = none ∧ ctrlOf v = none) :=
  ⟨4, 1, 8, de 1, vfSt 1 fnOn, by decide +kernel⟩
theorem test_meets_VirtualFunctionsMigrate_vfSave : ∃ (r i v wn : Nat) (w : KeySlot) (e : Fetched) (s u : State),
    (Starts s r i 0x50 0x02 e)
    ∧ (v = vfFld r e.desc.toNat ∧ vfNo v < (s.fn (pfOf v)).numVfs ∧ (s.fn (pfOf v)).vfEnable = true ∧ (s.fn v).st = .frozen)
    ∧ (wn = fld e.desc.toNat 80 18 ∧ s.slot wn = some w ∧ owns s r w.own = true ∧ w.kind = 3 ∧ w.st = .loaded)
    ∧ (loadedKeys (begun s r i e) v = [])
    ∧ (useCounter (begun s r i e) wn (tileFor (begun s r i e) (dieOfRing (begun s r i e) (refOf r i e)) wn w) w = some u) :=
  ⟨4, 1, 8, 1, wrapKey, de saveD, vfSt saveD { fnOn with st := .frozen }, saveU, ⟨by decide +kernel, by decide +kernel, by decide +kernel, by decide +kernel, (Option.some_get saveB_ok).symm⟩⟩
theorem test_meets_VirtualFunctionsMigrate_vfRestore : ∃ (r i v gen : Nat) (w : KeySlot) (blob map : HRead) (bs ms : List Byte) (recs : List (List Nat)) (e : Fetched) (s s2 s3 : State),
    (Starts s r i 0x50 0x03 e)
    ∧ (v = vfFld r e.desc.toNat ∧ vfNo v < (s.fn (pfOf v)).numVfs ∧ (s.fn (pfOf v)).vfEnable = true ∧ (s.fn v).st = .clean)
    ∧ (s.slot (fld e.desc.toNat 80 18) = some w ∧ owns s r w.own = true ∧ w.kind = 3 ∧ w.st = .loaded)
    ∧ (rdHost s r (fld e.desc.toNat 192 32) blob = (0, bs) ∧ (if isVf2 v then rdHost s r 512 map else (0, [])) = (0, ms))
    ∧ (openBlob w (b2n (isVf2 v)) bs = some (gen, recs))
    ∧ (idsTaken (begun s r i e) r v ms recs = false ∧ overQuota (begun s r i e) v recs = false)
    ∧ (restoreRings v (recsOf recs 2) ((begun s r i e).modFn v (fun f => { fnFrom (fun i => lget ((recsOf recs 1).head?.getD []) i 0) f with st := .frozen, gen := gen })) = some s2)
    ∧ (restoreKeys { fn := v, gen := gen } w (recsOf recs 7) s2 = .ok s3) :=
  ⟨4, 1, 8, 1, wrapKey, .ok emptyBlob, .ok [], emptyBlob, [], [], de rstorD, rstorSt, (begun rstorSt 4 1 (de rstorD)).modFn 8 (fun f => { fnFrom (fun i => lget ((recsOf [] 1).head?.getD []) i 0) f with st := .frozen, gen := 1 }), (begun rstorSt 4 1 (de rstorD)).modFn 8 (fun f => { fnFrom (fun i => lget ((recsOf [] 1).head?.getD []) i 0) f with st := .frozen, gen := 1 }), ⟨by decide +kernel, by decide +kernel, by decide +kernel, by decide +kernel, by decide +kernel, by decide +kernel, by rfl, by rfl⟩⟩
theorem test_meets_VirtualFunctionsMigrate_vfRestore_bad : ∃ (r i v : Nat) (w : KeySlot) (blob map : HRead) (bs ms : List Byte) (e : Fetched) (s : State),
    (Starts s r i 0x50 0x03 e)
    ∧ (v = vfFld r e.desc.toNat ∧ vfNo v < (s.fn (pfOf v)).numVfs ∧ (s.fn (pfOf v)).vfEnable = true ∧ (s.fn v).st = .clean)
    ∧ (s.slot (fld e.desc.toNat 80 18) = some w ∧ owns s r w.own = true ∧ w.kind = 3 ∧ w.st = .loaded)
    ∧ (rdHost s r (fld e.desc.toNat 192 32) blob = (0, bs) ∧ (if isVf2 v then rdHost s r 512 map else (0, [])) = (0, ms))
    ∧ (openBlob w (b2n (isVf2 v)) bs = none) :=
  ⟨4, 1, 8, wrapKey, .ok (List.replicate 88 0#8), .ok [], List.replicate 88 0#8, [], de rstorD, rstorSt, by decide +kernel⟩
theorem test_meets_VirtualFunctionsMigrate_vfThaw : ∃ (r i v : Nat) (e : Fetched) (s u : State),
    (Starts s r i 0x50 0x04 e)
    ∧ (v = vfFld r e.desc.toNat ∧ vfNo v < (s.fn (pfOf v)).numVfs ∧ (s.fn (pfOf v)).vfEnable = true ∧ (s.fn v).st = .frozen)
    ∧ (u = (begun s r i e).modFn v (fun f => { f with st := .active, leaseInForce := f.leasePeriod, leaseFrom := s.vcycle, leaseHalf := false })) :=
  ⟨4, 1, 8, de 4, vfSt 4 { fnOn with st := .frozen }, (begun (vfSt 4 { fnOn with st := .frozen }) 4 1 (de 4)).modFn 8 (fun f => { f with st := .active, leaseInForce := f.leasePeriod, leaseFrom := 0, leaseHalf := false }), by decide +kernel⟩
theorem test_meets_VirtualFunctionsMigrate_dirtyLog : ∃ (r i v : Nat) (e : Fetched) (s : State),
    (Starts s r i 0x50 0x05 e)
    ∧ (v = vfFld r e.desc.toNat ∧ vfNo v < (s.fn (pfOf v)).numVfs ∧ (s.fn (pfOf v)).vfEnable = true ∧ ((s.fn v).st = .active ∨ (s.fn v).st = .frozen)) :=
  ⟨4, 1, 8, de 5, vfSt 5 fnOn, by decide +kernel⟩

end Sys2Proof.Tests
end

