-- ==== Sys2Proof/Tests/MeetsD.lean ====
section
/-!
SUPPORT. Concrete states and operands that meet the hypotheses of each clause together: memory stacks, power, trust, check values and the rules stated whole.
-/
set_option Elab.async false
set_option linter.unusedVariables false
namespace Sys2Proof.Tests
open Sys2Proof Sys2Proof.Machine

theorem test_meets_StacksRepairAndRetire_scrub : ∃ (n line : Nat) (found : Codeword) (a : Nat) (s u : State),
    (n < 8 ∧ a = n * 2 ^ 36 + line * 64 % 2 ^ 36 ∧ stackReach s a 64 = 0)
    ∧ (u = s.modStk n (fun k => { k with scrubAt := (line + 1) % (k.mapped * 32768) })) :=
  ⟨0, 0, .good, 0, stkSt, stkSt.modStk 0 (fun k => { k with scrubAt := 1 }), by decide +kernel⟩
theorem test_meets_StacksRepairAndRetire_channelTrainingLoss : ∃ (n c : Nat) (s : State),
    (n < 8 ∧ c < 128 ∧ domOn s (stackDom n) = true ∧ ((s.stk n).chan c).failed = false) :=
  ⟨0, 127, stkSt, by decide +kernel⟩
theorem test_meets_StacksRepairAndRetire_channelRetrainComplete : ∃ (n c : Nat) (s : State),
    (((s.stk n).chan c).lost = true ∧ ((s.stk n).chan c).failed = false) :=
  ⟨0, 5, { stks := [(0, { chans := [(5, { lost := true })] })] }, by decide +kernel⟩
theorem test_meets_StacksRepairAndRetire_groupRetire_refused : ∃ (r i n g : Nat) (e : Fetched) (s u : State),
    (Starts s r i 0x40 0x01 e)
    ∧ (outranked s r i = false ∧ contradicted (begun s r i e) r 0x40 n g = none)
    ∧ (n = fld e.desc.toNat 64 3 ∧ g = fld e.desc.toNat 67 4 ∧ u = noteDone (begun s r i e) r 0x40 n g) :=
  ⟨4, 1, 0, 0, de 1, rs 4 0x40 1, noteDone (begun (rs 4 0x40 1) 4 1 (de 1)) 4 0x40 0 0, by decide +kernel⟩
theorem test_meets_StacksRepairAndRetire_groupRetire_contradicted : ∃ (r i n g w : Nat) (e : Fetched) (s : State),
    (Starts s r i 0x40 0x01 e)
    ∧ (outranked s r i = false ∧ contradicted (begun s r i e) r 0x40 n g = some w)
    ∧ (n = fld e.desc.toNat 64 3 ∧ g = fld e.desc.toNat 67 4) :=
  ⟨4, 1, 0, 0, 5, de 1, { rs 4 0x40 1 with transom := { recent := [{ fn := 5, cap := 0x40, item := 0, effect := 1, window := 0 }] } }, by decide +kernel⟩
theorem test_meets_StacksRepairAndRetire_groupRetire : ∃ (r i n g : Nat) (e : Fetched) (s u : State),
    (Starts s r i 0x40 0x01 e)
    ∧ (outranked s r i = false ∧ contradicted (begun s r i e) r 0x40 n g = none)
    ∧ (n = fld e.desc.toNat 64 3 ∧ g = fld e.desc.toNat 67 4 ∧ u = noteDone (begun s r i e) r 0x40 n g ∧ domOn s (stackDom n) = true ∧ bitAt (s.stk n).retiredMask g = false)
    ∧ ((s.stk n).retire = none ∧ 8 < groupsLeft (s.stk n)) :=
  ⟨4, 1, 0, 0, de 1, { rs 4 0x40 1 with doms := onDoms [84] }, noteDone (begun { rs 4 0x40 1 with doms := onDoms [84] } 4 1 (de 1)) 4 0x40 0 0, by decide +kernel⟩
theorem test_meets_StacksRepairAndRetire_frameCopyComplete : ∃ (n f p q : Nat) (lines todo : List Nat) (free : List (Nat × Nat)) (x : Retire) (s : State),
    ((s.stk n).retire = some x ∧ x.running = true ∧ x.todo = f :: todo ∧ x.free = (p, q) :: free) :=
  ⟨0, 1, 0, 5, [], [], [], { todo := [1], free := [(0, 5)] }, { stks := [(0, { retire := some { todo := [1], free := [(0, 5)] } })] }, by decide +kernel⟩
theorem test_meets_StacksRepairAndRetire_lostListRead : ∃ (r i n : Nat) (e : Fetched) (s : State),
    (Starts s r i 0x40 0x02 e)
    ∧ (n = fld e.desc.toNat 64 3) :=
  ⟨4, 1, 0, de 2, rs 4 0x40 2, by decide +kernel⟩
theorem test_meets_PowerInputAndRailsAct_powerGood : ∃ (want : Nat) (s u : State),
    (s.power.romDone = false)
    ∧ (u = loadLimits (readTrust ({ s with clock := { at_ := s.vcycle } }.modPow (fun w => { w with romDone := true, startAt := s.vcycle }))))
    ∧ (want = (if u.trust.trial && decide (3 ≤ u.trust.attempts) then 1 - u.trust.activeSet else u.trust.activeSet)) :=
  ⟨0, {}, loadLimits (readTrust (({ clock := { at_ := 0 } } : State).modPow (fun w => { w with romDone := true, startAt := 0 }))), ⟨rfl, rfl, rfl⟩⟩
theorem test_meets_PowerInputAndRailsAct_powerGood_again : ∃ (s : State),
    (s.power.romDone = true) :=
  ⟨{ power := { romDone := true } }, by decide +kernel⟩
theorem test_meets_PowerInputAndRailsAct_inputUndervoltage : ∃ (mv : Nat) (s : State),
    (36000 ≤ mv ∧ mv < 42000 ∧ s.power.condition ≠ 1 ∧ s.power.romDone = true) :=
  ⟨36000, { power := { romDone := true } }, by decide +kernel⟩
theorem test_meets_PowerInputAndRailsAct_inputReturn : ∃ (mv : Nat) (s : State),
    (44000 ≤ mv)
    ∧ ((s.power.condition = 1 ∧ mv ≤ 64500) ∨ (s.power.condition = 2 ∧ mv ≤ 63500)) :=
  ⟨44000, { power := { condition := 1 } }, by decide +kernel⟩
theorem test_meets_PowerInputAndRailsAct_railFault : ∃ (rail : Nat) (status : BitVec 16) (s : State),
    (rail < 29 ∧ s.power.railsOff.contains rail = false) :=
  ⟨28, 3, s1, by decide +kernel⟩
theorem test_meets_PowerInputAndRailsAct_busOvercurrent : ∃ (status : BitVec 16) (s : State),
    (s.power.railsOff.contains 1 = false) :=
  ⟨3, s1, by decide +kernel⟩
theorem test_meets_PowerInputAndRailsAct_sensorFault : ∃ (kind which : Nat) (s : State),
    (kind = 1 ∨ kind = 2) :=
  ⟨1, 3, s1, by decide +kernel⟩
theorem test_meets_PowerInputAndRailsAct_busRecovery : ∃ (ok : Bool) (s u : State),
    (s.power.busShort = true)
    ∧ (u = advanceTo s (s.power.busAt + 14000000)) :=
  ⟨true, { power := { busShort := true } }, { power := { busShort := true }, vcycle := 14000000 }, by decide +kernel⟩
theorem test_meets_PowerInputAndRailsAct_regulatorAck : ∃ (rail : Nat) (s : State),
    (rail ≠ 3 ∧ rail ≠ 4) :=
  ⟨5, s1, by decide +kernel⟩
theorem test_meets_PowerInputAndRailsAct_regulatorAck_change : ∃ (c : Change) (s : State),
    (s.power.change = some c ∧ c.acks = [3] ∧ s.power.retryAcks = [] ∧ onAck s 3 = []) :=
  ⟨{ acks := [3] }, { power := { change := some { acks := [3] } } }, by decide +kernel⟩
theorem test_meets_PowerInputAndRailsAct_regulatorAckTimeout : ∃ (rail : Nat) (s : State),
    (rail ≠ 3 ∧ rail ≠ 4) :=
  ⟨5, s1, by decide +kernel⟩
theorem test_meets_PowerInputAndRailsAct_regulatorAckTimeout_raise : ∃ (c : Change) (s : State),
    (s.power.change = some c ∧ c.acks.contains 3 = true ∧ c.step = .raiseAck ∧ s.power.retryAcks = [] ∧ onAck s 3 = []) :=
  ⟨{ acks := [3, 4] }, { power := { change := some { acks := [3, 4] } } }, by decide +kernel⟩
theorem test_meets_ProfilesAndTemperature_railsSettled : ∃ (c : Change) (s : State),
    (s.power.change = some c ∧ c.step = .settle) :=
  ⟨{ step := .settle }, { power := { change := some { step := .settle } } }, by decide +kernel⟩
theorem test_meets_ProfilesAndTemperature_voltageRetry : ∃ (t : Nat) (s : State),
    (s.power.retryAt = some t) :=
  ⟨7, { power := { retryAt := some 7 } }, by decide +kernel⟩
theorem test_meets_ProfilesAndTemperature_envelopeExceeded : ∃ (watts : Nat) (s : State),
    (s.power.stage = 4 ∧ effective s s.power.inForce < watts) :=
  ⟨851, { power := { stage := 4, inForce := 1 } }, by decide +kernel⟩
theorem test_meets_ProfilesAndTemperature_envelopeRaise : ∃ (watts : Nat) (s : State),
    (5 * watts < 4 * effective s (s.power.inForce + 1) ∧ s.power.change = none ∧ s.power.reason = 1 ∧ s.power.inForce < s.power.selected) :=
  ⟨679, { power := { stage := 4, inForce := 0, selected := 1, reason := 1 } }, by decide +kernel⟩
theorem test_meets_ProfilesAndTemperature_thermalNearLimit : ∃ (d temp : Nat) (s u : State),
    (d < 108 ∧ s.power.stage = 4 ∧ tempLimit s d ≤ temp + 5 ∧ s.power.change = none ∧ 0 < s.power.inForce)
    ∧ (u = (match s.power.thermalAt with | some t => advanceTo s (t + 40000000) | none => s)) :=
  ⟨0, 100, { power := { stage := 4, inForce := 1 } }, { power := { stage := 4, inForce := 1 } }, by decide +kernel⟩
theorem test_meets_ProfilesAndTemperature_thermalRaise : ∃ (s : State),
    (s.power.change = none ∧ s.power.reason = 2 ∧ s.power.inForce < s.power.selected) :=
  ⟨{ power := { stage := 4, selected := 2, reason := 2 } }, by decide +kernel⟩
theorem test_meets_ProfilesAndTemperature_thermalLimit : ∃ (d temp : Nat) (s : State),
    ((s.dom d).power = 2 ∧ (s.dom d).stopped = false ∧ tempLimit s d ≤ temp) :=
  ⟨107, 70, { doms := onDoms [107] }, by decide +kernel⟩
theorem test_meets_ProfilesAndTemperature_thermalTrip : ∃ (d : Nat) (s : State),
    ((s.dom d).stopped = true) :=
  ⟨107, { doms := [(107, { power := 2, service := 1, stopped := true })] }, by decide +kernel⟩
theorem test_meets_DomainsShutAndReopen_badFields : ∃ (r i temp : Nat) (e : Fetched) (s : State),
    (Starts s r i 0x41 0x01 e)
    ∧ (outranked s r i = false)
    ∧ (108 ≤ fld e.desc.toNat 64 7 ∨ (fld e.desc.toNat 71 2 ≠ 1 ∧ fld e.desc.toNat 71 2 ≠ 2)) :=
  ⟨4, 1, 25, de (1 + 108 * 2 ^ 64 + 2 ^ 71), rs 4 0x41 (1 + 108 * 2 ^ 64 + 2 ^ 71), by decide +kernel⟩
theorem test_meets_DomainsShutAndReopen_reopen_badFields : ∃ (r i temp : Nat) (e : Fetched) (s : State),
    (Starts s r i 0x41 0x02 e)
    ∧ (outranked s r i = false)
    ∧ (108 ≤ fld e.desc.toNat 64 7 ∨ fld e.desc.toNat 71 2 ≠ 0) :=
  ⟨4, 1, 25, de (2 + 107 * 2 ^ 64 + 2 ^ 71), rs 4 0x41 (2 + 107 * 2 ^ 64 + 2 ^ 71), by decide +kernel⟩
theorem test_meets_DomainsShutAndReopen_unitShutter : ∃ (r i d t : Nat) (e : Fetched) (s u : State),
    (Starts s r i 0x41 0x01 e)
    ∧ (d = fld e.desc.toNat 64 7 ∧ t = fld e.desc.toNat 71 2 ∧ d < 108 ∧ (t = 1 ∨ t = 2))
    ∧ (outranked s r i = false ∧ contradicted (begun s r i e) r 0x41 d t = none ∧ u = noteDone (begun s r i e) r 0x41 d t)
    ∧ (((s.dom d).power = 2 ∧ (s.dom d).service = 1 ∧ (s.dom d).act = none) ∧ domRole u r d = true ∧ leaveCode u d (some (refOf r i e)) = 0) :=
  ⟨4, 1, 8, 1, de (1 + 8 * 2 ^ 64 + 2 ^ 71), shutSt, noteDone (begun shutSt 4 1 (de (1 + 8 * 2 ^ 64 + 2 ^ 71))) 4 0x41 8 1, by decide +kernel⟩
theorem test_meets_DomainsShutAndReopen_unitShutter_idle : ∃ (r i d t : Nat) (e : Fetched) (s u : State),
    (Starts s r i 0x41 0x01 e)
    ∧ (d = fld e.desc.toNat 64 7 ∧ t = fld e.desc.toNat 71 2 ∧ d < 108 ∧ (t = 1 ∨ t = 2))
    ∧ (outranked s r i = false ∧ contradicted (begun s r i e) r 0x41 d t = none ∧ u = noteDone (begun s r i e) r 0x41 d t) :=
  ⟨4, 1, 8, 1, de (1 + 8 * 2 ^ 64 + 2 ^ 71), shutSt, noteDone (begun shutSt 4 1 (de (1 + 8 * 2 ^ 64 + 2 ^ 71))) 4 0x41 8 1, by decide +kernel⟩
theorem test_meets_DomainsShutAndReopen_unitReopen : ∃ (r i d temp : Nat) (e : Fetched) (s u : State),
    (Starts s r i 0x41 0x02 e)
    ∧ (d = fld e.desc.toNat 64 7 ∧ fld e.desc.toNat 71 2 = 0 ∧ d < 108)
    ∧ (outranked s r i = false ∧ contradicted (begun s r i e) r 0x41 d 3 = none ∧ u = noteDone (begun s r i e) r 0x41 d 3)
    ∧ ((s.dom d).act = none) :=
  ⟨4, 1, 8, 25, de (2 + 8 * 2 ^ 64), rs 4 0x41 (2 + 8 * 2 ^ 64), noteDone (begun (rs 4 0x41 (2 + 8 * 2 ^ 64)) 4 1 (de (2 + 8 * 2 ^ 64))) 4 0x41 8 3, by decide +kernel⟩
theorem test_meets_DomainsShutAndReopen_unitReopen_closing : ∃ (r i d temp : Nat) (a : DomAct) (e : Fetched) (s u : State),
    (Starts s r i 0x41 0x02 e)
    ∧ (d = fld e.desc.toNat 64 7 ∧ fld e.desc.toNat 71 2 = 0 ∧ d < 108)
    ∧ (outranked s r i = false ∧ contradicted (begun s r i e) r 0x41 d 3 = none ∧ u = noteDone (begun s r i e) r 0x41 d 3)
    ∧ ((s.dom d).act = some a ∧ a.step = .drain ∧ domRole u r d = true) :=
  ⟨4, 1, 8, 25, {}, de (2 + 8 * 2 ^ 64), reopSt, noteDone (begun reopSt 4 1 (de (2 + 8 * 2 ^ 64))) 4 0x41 8 3, by decide +kernel⟩
theorem test_meets_DomainsShutAndReopen_shutterDrainComplete : ∃ (d : Nat) (a : DomAct) (s : State),
    ((s.dom d).act = some a ∧ a.step = .drain ∧ drainedTile s d = true) :=
  ⟨8, {}, { doms := [(8, { power := 2, service := 2, act := some {} })] }, by decide +kernel⟩
theorem test_meets_DomainsShutAndReopen_ctlHandoffTimeout : ∃ (d : Nat) (a : DomAct) (s : State),
    ((s.dom d).act = some a ∧ a.step = .drain ∧ (unitOf d).1 = .ctl ∧ drainedTile s d = false) :=
  ⟨30, {}, { doms := [(30, { power := 2, service := 2, act := some {} })], cores := [(3, { st := .draining })] }, by decide +kernel⟩
theorem test_meets_DomainsShutAndReopen_domainTransitionComplete : ∃ (d : Nat) (a : DomAct) (s u : State),
    ((s.dom d).act = some a ∧ a.step = .move)
    ∧ (u = advanceTo s (a.since + moveCycles d a)) :=
  ⟨8, { step := .move }, { doms := [(8, { power := 3, act := some { step := .move } })] }, { doms := [(8, { power := 3, act := some { step := .move } })], vcycle := 4000 }, by decide +kernel⟩
theorem test_meets_DomainsShutAndReopen_selfTestComplete : ∃ (d failed : Nat) (a : DomAct) (s : State),
    ((s.dom d).act = some a ∧ a.step = .test) :=
  ⟨8, 1, { step := .test, ref := some {} }, { doms := [(8, { power := 2, service := 3, act := some { step := .test, ref := some {} } })] }, by decide +kernel⟩
theorem test_meets_DomainsShutAndReopen_cdcOverrun : ∃ (bit fn ring seq : Nat) (s u : State),
    (bit < 36 ∧ bit % 4 ≠ 3)
    ∧ (u = s.modPow (fun w => { w with cdc := if bitAt w.cdc bit then w.cdc else w.cdc + 2 ^ bit }))
    ∧ ((s.ring fn ring).fetched.any (fun e => e.seq == seq && e.started && e.res.isNone) = true) :=
  ⟨34, 4, 1, 0, begun (rs 4 0x13 2) 4 1 (de 2), (begun (rs 4 0x13 2) 4 1 (de 2)).modPow (fun w => { w with cdc := 2 ^ 34 }), by decide +kernel⟩
theorem test_meets_DomainsShutAndReopen_laserUnitRemove : ∃ (n : Nat) (s : State),
    (n < 8 ∧ s.power.noLaser.contains n = false) :=
  ⟨7, s1, by decide +kernel⟩
theorem test_meets_StartReachesItsStages_stageZero : ∃ (failed : List Nat) (die : Bool) (s u : State),
    (s.power.romDone = true ∧ s.power.fault = false ∧ s.power.condition = 0 ∧ s.power.started = false)
    ∧ (u = startFn (startFn (reachStage s 0) 1) 2) :=
  ⟨[], false, { power := { romDone := true } }, startFn (startFn (reachStage { power := { romDone := true } } 0) 1) 2, by decide +kernel⟩
theorem test_meets_StartReachesItsStages_stageOne : ∃ (failed : List Nat) (die : Bool) (s : State),
    (s.power.romDone = true ∧ s.power.fault = false ∧ s.power.condition = 0 ∧ s.power.started = true ∧ s.power.stage = 0)
    ∧ (s.trust.recovery = false ∧ activeUp s = true) :=
  ⟨[], true, bootSt 0, by decide +kernel⟩
theorem test_meets_StartReachesItsStages_stageTwo : ∃ (failed : List Nat) (die : Bool) (s u : State),
    (s.power.romDone = true ∧ s.power.fault = false ∧ s.power.condition = 0 ∧ s.power.started = true ∧ s.power.stage = 1)
    ∧ (s.trust.recovery = false ∧ activeUp s = true)
    ∧ (u = (domsOf .stack).foldl (bringUp failed) ((domsOf .mem).foldl (bringUp failed) s)) :=
  ⟨[], false, bootSt 1, (domsOf .stack).foldl (bringUp []) ((domsOf .mem).foldl (bringUp []) (bootSt 1)), ⟨by decide +kernel, by decide +kernel, rfl⟩⟩
theorem test_meets_StartReachesItsStages_stageThree : ∃ (failed : List Nat) (die : Bool) (s u : State),
    (s.power.romDone = true ∧ s.power.fault = false ∧ s.power.condition = 0 ∧ s.power.started = true ∧ s.power.stage = 2)
    ∧ (s.trust.recovery = false ∧ activeUp s = true)
    ∧ (u = reachStage ((domsOf .apt).foldl (bringUp failed) ((domsOf .laser).foldl (bringUp failed) ((domsOf .oe).foldl (bringUp failed) s))) 3) :=
  ⟨[], false, bootSt 2, reachStage ((domsOf .apt).foldl (bringUp []) ((domsOf .laser).foldl (bringUp []) ((domsOf .oe).foldl (bringUp []) (bootSt 2)))) 3, ⟨by decide +kernel, by decide +kernel, rfl⟩⟩
theorem test_meets_StartReachesItsStages_stageFour : ∃ (failed : List Nat) (die : Bool) (s : State),
    (s.power.romDone = true ∧ s.power.fault = false ∧ s.power.condition = 0 ∧ s.power.started = true ∧ s.power.stage = 3)
    ∧ (s.trust.recovery = false ∧ activeUp s = true) :=
  ⟨[], false, bootSt 3, by decide +kernel⟩
theorem test_meets_StartReachesItsStages_keeperRomRestartComplete : ∃ (k : Nat) (s u : State),
    (s.fw.bothDown = true ∧ romChoice s s.trust.activeSet = some k)
    ∧ (u = bootFrom { s with fw := { s.fw with bothDown := false, romRestarts := satAdd 8 s.fw.romRestarts 1 } } k (k != s.trust.activeSet))
    ∧ (u.trust.fallback = false) :=
  ⟨0, { fw := { bothDown := true } }, bootFrom { fw := { ({} : Firmware) with bothDown := false, romRestarts := 1 } } 0 false, ⟨by decide +kernel, by rfl, by decide +kernel⟩⟩
theorem test_meets_SessionsOpenTakeAndClose_mgmtConnect : ∃ (n : Nat) (s : State),
    (s.power.romDone = true ∧ lowestFree s.trust.sessions 0 4 = some n) :=
  ⟨0, { power := { romDone := true } }, by decide +kernel⟩
theorem test_meets_SessionsOpenTakeAndClose_mgmtConnect_full : ∃ (s : State),
    (s.power.romDone = true ∧ lowestFree s.trust.sessions 0 4 = none) :=
  ⟨{ power := { romDone := true }, trust := { sessions := [(0, {}), (1, {}), (2, {}), (3, {})] } }, by decide +kernel⟩
theorem test_meets_SessionsOpenTakeAndClose_mgmtOpen : ∃ (n role : Nat) (msg pub nonce key : List Byte) (k : Session) (s u : State),
    (oget s.trust.sessions n = some k ∧ k.opened = false)
    ∧ ((33 ≤ msg.length - 12 ∧ msg.length - 12 ≤ 4096) ∧ fld (leNat (msg.take 12)) 0 16 = msg.length - 12 ∧ fld (leNat (msg.take 12)) 16 8 = 0x02 ∧ fld (leNat (msg.take 12)) 24 72 = 0)
    ∧ (role = leNat ((msg.drop 12).take 1) ∧ nonce = sliceB (msg.drop 12) 1 32)
    ∧ (openKey s role pub (msg.drop 45) (k.challenge ++ nonce) = some key)
    ∧ (u = s.modSession n (fun k => { k with opened := true, role := role, key := sha256 (key ++ k.challenge ++ nonce), rxNext := 0, txNext := 0, lastMsg := s.vcycle })) :=
  ⟨0, 1, helloMsg, [], List.replicate 32 0#8, [], {}, helloSt, helloSt.modSession 0 (fun k => { k with opened := true, role := 1, key := sha256 ([] ++ k.challenge ++ List.replicate 32 0#8), rxNext := 0, txNext := 0, lastMsg := 0 }), ⟨by decide +kernel, helloMsg_head, helloMsg_role, hello_open, rfl⟩⟩
theorem test_meets_SessionsOpenTakeAndClose_mgmtOpen_bad : ∃ (n : Nat) (msg pub : List Byte) (k : Session) (s : State),
    (oget s.trust.sessions n = some k)
    ∧ (openKey s (leNat ((msg.drop 12).take 1)) pub ((msg.drop 12).drop 33) (k.challenge ++ sliceB (msg.drop 12) 1 32) = none) :=
  ⟨0, List.replicate 12 0#8 ++ [1#8], [], {}, { trust := { sessions := [(0, {})] } }, by decide +kernel⟩
theorem test_meets_SessionsOpenTakeAndClose_mgmtIdleTimeout : ∃ (n : Nat) (k : Session) (s : State),
    (oget s.trust.sessions n = some k) :=
  ⟨0, {}, { trust := { sessions := [(0, {})] } }, by decide +kernel⟩
theorem test_meets_SessionsOpenTakeAndClose_mgmtClose : ∃ (n : Nat) (k : Session) (s t : State),
    (oget s.trust.sessions n = some k)
    ∧ (t = { s with trust := { s.trust with sessions := odel s.trust.sessions n, debugSession := if s.trust.debugSession = n then 4 else s.trust.debugSession, cmds := s.trust.cmds.map (fun c => if c.session = n then { c with session := 4 } else c) }, transom := { s.transom with held := s.transom.held.map (fun h => if h.rank = 0 ∧ h.session = n then { h with session := 4 } else h), behind := s.transom.behind.filter (fun i => !isMsgOf n i) }, wx := { s.wx with paths := mset s.wx.paths (16 + n) {} {} } }) :=
  ⟨0, {}, { trust := { sessions := [(0, {})] } }, {}, by decide +kernel⟩
theorem test_meets_SessionsOpenTakeAndClose_command : ∃ (n code : Nat) (msg body : List Byte) (k : Session) (s u t : State),
    (waitsS s n = false ∧ oget s.trust.sessions n = some k)
    ∧ (openMsg s n msg = some (0x10, body) ∧ leNat (body.take 1) = code)
    ∧ (u = s.modSession n (fun k => { k with rxNext := if k.opened then k.rxNext + 1 else 0, lastMsg := s.vcycle }))
    ∧ (t = u.modTrust (fun t => { t with cmds := t.cmds ++ [{ session := n, role := (u.session n).role, code := code, body := body.drop 1 }] })) :=
  ⟨0, 1, claimMsg, claimBody, {}, { trust := { sessions := [(0, {})] } }, { trust := { sessions := [(0, {})] } }, { trust := { sessions := [(0, {})], cmds := [{ session := 0, code := 1, body := claimBody.drop 1 }] } }, by decide +kernel⟩
theorem test_meets_SessionsOpenTakeAndClose_command_waits : ∃ (n : Nat) (c : Instr) (msg : List Byte) (s : State),
    (waitsS s n = true)
    ∧ (c ∈ [Instr.claim n msg, Instr.release n msg, Instr.installerKey n msg, Instr.operatorKey n msg, Instr.policy n msg, Instr.consent n msg, Instr.debugUnlock n msg, Instr.regRead n msg, Instr.fwStage (.session n msg) (.ok []) {}, Instr.fwActivate (.session n msg), Instr.fwConfirm (.session n msg), Instr.attest (.session n msg), Instr.auditRead (.session n msg)]) :=
  ⟨0, .claim 0 [], [], { transom := { held := [{ rank := 0, session := 0 }] } }, by decide +kernel⟩
theorem test_meets_SessionsOpenTakeAndClose_badMessage : ∃ (n : Nat) (c : Instr) (msg : List Byte) (k : Session) (s : State),
    (waitsS s n = false ∧ oget s.trust.sessions n = some k ∧ openMsg s n msg = none)
    ∧ (c ∈ [Instr.claim n msg, Instr.release n msg, Instr.installerKey n msg, Instr.operatorKey n msg, Instr.policy n msg, Instr.consent n msg, Instr.debugUnlock n msg, Instr.regRead n msg, Instr.regWrite n msg]) :=
  ⟨0, .claim 0 [], [], {}, { trust := { sessions := [(0, {})] } }, by decide +kernel⟩
theorem test_meets_SessionsOpenTakeAndClose_regRead : ∃ (n w v : Nat) (msg b : List Byte) (k : Session) (s u : State),
    (waitsS s n = false ∧ oget s.trust.sessions n = some k ∧ openMsg s n msg = some (0x20, b))
    ∧ (u = s.modSession n (fun k => { k with rxNext := if k.opened then k.rxNext + 1 else 0, lastMsg := s.vcycle }))
    ∧ ((regDomain (bodyCap b) (bodyOff b)).any (fun d => !reachable u d) = false ∧ viewRegVal u n (bodyCap b) (bodyOff b) = some (w, v)) :=
  ⟨0, 32, 48, sealedMsg 0x20 (natLE 2 0x41 ++ natLE 4 0x08 ++ natLE 1 0), natLE 2 0x41 ++ natLE 4 0x08 ++ natLE 1 0, openSes 2, sesSt 2, (sesSt 2).modSession 0 (fun k => { k with rxNext := 1, lastMsg := 0 }), by decide +kernel⟩
theorem test_meets_SessionsOpenTakeAndClose_regRead_none : ∃ (n : Nat) (msg b : List Byte) (k : Session) (s u : State),
    (waitsS s n = false ∧ oget s.trust.sessions n = some k ∧ openMsg s n msg = some (0x20, b))
    ∧ (u = s.modSession n (fun k => { k with rxNext := if k.opened then k.rxNext + 1 else 0, lastMsg := s.vcycle }))
    ∧ ((regDomain (bodyCap b) (bodyOff b)).any (fun d => !reachable u d) = false ∧ viewRegVal u n (bodyCap b) (bodyOff b) = none) :=
  ⟨0, sealedMsg 0x20 (natLE 2 0xFF ++ natLE 4 0x08 ++ natLE 1 0), natLE 2 0xFF ++ natLE 4 0x08 ++ natLE 1 0, openSes 2, sesSt 2, (sesSt 2).modSession 0 (fun k => { k with rxNext := 1, lastMsg := 0 }), by decide +kernel⟩
theorem test_meets_SessionsOpenTakeAndClose_regWrite : ∃ (n w : Nat) (pf1 : Bool) (msg b : List Byte) (k : Session) (s u : State),
    (s.transom.behind.any (isMsgOf n) = false ∧ oget s.trust.sessions n = some k ∧ openMsg s n msg = some (0x21, b))
    ∧ (u = s.modSession n (fun k => { k with rxNext := if k.opened then k.rxNext + 1 else 0, lastMsg := s.vcycle }))
    ∧ (sharedReg (bodyCap b) (bodyOff b) = some (w, pf1)) :=
  ⟨0, 32, false, sealedMsg 0x21 (natLE 2 0x41 ++ natLE 4 0x08 ++ natLE 1 0 ++ natLE 4 1), natLE 2 0x41 ++ natLE 4 0x08 ++ natLE 1 0 ++ natLE 4 1, openSes 2, sesSt 2, (sesSt 2).modSession 0 (fun k => { k with rxNext := 1, lastMsg := 0 }), by decide +kernel⟩
theorem test_meets_FirmwareAttestationAndAudit_fwStage : ∃ (r i : Nat) (read : HRead) (x : ImageSet) (bs : List Byte) (e : Fetched) (s u t : State),
    (Starts s r i 0x42 0x01 e)
    ∧ (fld e.desc.toNat 64 64 % 64 = 0 ∧ 4096 ≤ fld e.desc.toNat 128 32 ∧ fld e.desc.toNat 128 32 ≤ 201326592)
    ∧ (rdHost s r (fld e.desc.toNat 128 32) read = (0, bs))
    ∧ (outranked s r i = false ∧ contradicted (begun s r i e) r 0x42 0 (1 + x.version * 4) = none ∧ u = noteDone (begun s r i e) r 0x42 0 (1 + x.version * 4))
    ∧ (auditRec u 0x4201 2 r (stageEff x u).2.1 0 = some t) :=
  ⟨4, 1, .ok [], {}, (rdHost (rs 4 0x42 stageD) 4 (fld (de stageD).desc.toNat 128 32) (.ok [])).2, de stageD, rs 4 0x42 stageD, stageU, stageT, ⟨by decide +kernel, by decide +kernel, rd_4096, ⟨by decide +kernel, by decide +kernel, rfl⟩, (Option.some_get stageU_audits).symm⟩⟩
theorem test_meets_FirmwareAttestationAndAudit_fwStage_bad : ∃ (r i : Nat) (read : HRead) (x : ImageSet) (e : Fetched) (s : State),
    (Starts s r i 0x42 0x01 e)
    ∧ (outranked s r i = false)
    ∧ (fld e.desc.toNat 64 64 % 64 ≠ 0 ∨ fld e.desc.toNat 128 32 < 4096 ∨ 201326592 < fld e.desc.toNat 128 32) :=
  ⟨4, 1, .timeout, {}, de 1, rs 4 0x42 1, by decide +kernel⟩
theorem test_meets_FirmwareAttestationAndAudit_fwActivate : ∃ (r i : Nat) (e : Fetched) (s u t v : State),
    (Starts s r i 0x42 0x02 e)
    ∧ (outranked s r i = false ∧ contradicted (begun s r i e) r 0x42 0 (2 + b2n (bitAt e.desc.toNat 160) * 4) = none ∧ u = noteDone (begun s r i e) r 0x42 0 (2 + b2n (bitAt e.desc.toNat 160) * 4))
    ∧ ((activateEff (.ring (refOf r i e)) (bitAt e.desc.toNat 160) u).2 = none ∧ auditRec u 0x4202 2 r 0 0 = some t)
    ∧ (activateEff (.ring (refOf r i e)) (bitAt e.desc.toNat 160) t = (v, none)) :=
  ⟨4, 1, de 2, actSt, actU, actT, actV, ⟨by decide +kernel, ⟨by decide +kernel, by decide +kernel, rfl⟩, ⟨by decide +kernel, (Option.some_get actU_audits).symm⟩, actV_eq⟩⟩
theorem test_meets_FirmwareAttestationAndAudit_fwActivate_refused : ∃ (r i st st' : Nat) (e : Fetched) (s u t v : State),
    (Starts s r i 0x42 0x02 e)
    ∧ (outranked s r i = false ∧ contradicted (begun s r i e) r 0x42 0 (2 + b2n (bitAt e.desc.toNat 160) * 4) = none ∧ u = noteDone (begun s r i e) r 0x42 0 (2 + b2n (bitAt e.desc.toNat 160) * 4))
    ∧ ((activateEff (.ring (refOf r i e)) (bitAt e.desc.toNat 160) u).2 = some st ∧ auditRec u 0x4202 2 r st 0 = some t)
    ∧ (activateEff (.ring (refOf r i e)) (bitAt e.desc.toNat 160) t = (v, some st')) :=
  ⟨4, 1, 0x84, 0x84, de 2, rs 4 0x42 2, noteDone (begun (rs 4 0x42 2) 4 1 (de 2)) 4 0x42 0 (2 + b2n (bitAt (de 2).desc.toNat 160) * 4), actN, actN, ⟨by decide +kernel, ⟨by decide +kernel, by decide +kernel, rfl⟩, ⟨by decide +kernel, (Option.some_get actN_audits).symm⟩, actN_eq⟩⟩
theorem test_meets_FirmwareAttestationAndAudit_fwConfirm : ∃ (r i : Nat) (e : Fetched) (s u t : State),
    (Starts s r i 0x42 0x03 e)
    ∧ (outranked s r i = false ∧ contradicted (begun s r i e) r 0x42 0 3 = none ∧ u = noteDone (begun s r i e) r 0x42 0 3)
    ∧ (auditRec u 0x4203 2 r (confirmEff u).2.1 0 = some t) :=
  ⟨4, 1, de 3, rs 4 0x42 3, noteDone (begun (rs 4 0x42 3) 4 1 (de 3)) 4 0x42 0 3, cnfT, ⟨by decide +kernel, ⟨by decide +kernel, by decide +kernel, rfl⟩, (Option.some_get cnfT_audits).symm⟩⟩
theorem test_meets_FirmwareAttestationAndAudit_attest : ∃ (r i : Nat) (e : Fetched) (s t : State),
    (Starts s r i 0x42 0x04 e)
    ∧ (fld e.desc.toNat 64 64 % 64 = 0) :=
  ⟨4, 1, de 4, rs 4 0x42 4, {}, by decide +kernel⟩
theorem test_meets_FirmwareAttestationAndAudit_attest_doe : ∃ (fn q : Nat) (nonce bs : List Byte) (s t : State),
    (isPf0 fn = true ∧ (s.fn fn).st ≠ .off ∧ s.trust.recovery = false)
    ∧ (takeLeaf s = (t, some q) ∧ bs = reportBody s nonce q) :=
  ⟨1, 0, [], reportBody doeSt [] 0, doeSt, doeT, ⟨by decide +kernel, ⟨by decide +kernel, rfl⟩⟩⟩
theorem test_meets_FirmwareAttestationAndAudit_auditRead : ∃ (r i first n : Nat) (e : Fetched) (s : State),
    (Starts s r i 0x42 0x05 e)
    ∧ (fld e.desc.toNat 64 64 % 64 = 0 ∧ first = fld e.desc.toNat 192 64 ∧ n = fld e.desc.toNat 128 32) :=
  ⟨4, 1, 0, 0, de 5, rs 4 0x42 5, by decide +kernel⟩
theorem test_meets_FirmwareAttestationAndAudit_command : ∃ (n code sub : Nat) (c : Instr) (x : ImageSet) (msg body : List Byte) (k : Session) (s u : State),
    (waitsS s n = false ∧ oget s.trust.sessions n = some k ∧ openMsg s n msg = some (0x10, body))
    ∧ (leNat (body.take 1) = code ∧ body.length ≠ 1 ∧ leNat (sliceB body 1 1) = sub)
    ∧ (u = s.modSession n (fun k => { k with rxNext := if k.opened then k.rxNext + 1 else 0, lastMsg := s.vcycle }))
    ∧ ((c, code, sub, x) ∈ [(Instr.fwStage (.session n msg) (.ok []) x, 8, 1, x), (Instr.fwActivate (.session n msg), 8, 2, {}), (Instr.fwConfirm (.session n msg), 8, 3, {}), (Instr.attest (.session n msg), 9, 4, {}), (Instr.auditRead (.session n msg), 9, 5, {})]) :=
  ⟨0, 8, 3, .fwConfirm (.session 0 (msgHead 2 0x10 0 0 ++ [8#8, 3#8])), {}, msgHead 2 0x10 0 0 ++ [8#8, 3#8], [8#8, 3#8], {}, { trust := { sessions := [(0, {})] } }, { trust := { sessions := [(0, {})] } }, by decide +kernel⟩
theorem test_meets_FirmwareAttestationAndAudit_componentReplace : ∃ (c : Nat) (rest : List Nat) (a : Activation) (x : ImageSet) (y : ImageComp) (s : State),
    (s.trust.act = some a ∧ s.fw.repl = none ∧ activeUp s = true)
    ∧ (a.cur = none ∧ a.failed = false ∧ a.todo = c :: rest)
    ∧ (setIn s s.trust.activeSet = some x ∧ x.comps.find? (fun j => j.id == c) = some y) :=
  ⟨3, [], { from_ := .ring {}, todo := [3] }, { factory := true, comps := [{ id := 3 }] }, { id := 3 }, replaceSt, by decide +kernel⟩
theorem test_meets_FirmwareAttestationAndAudit_componentReplace_end : ∃ (a : Activation) (s : State),
    (s.trust.act = some a ∧ s.fw.repl = none ∧ activeUp s = true)
    ∧ (a.cur = none ∧ a.failed = false ∧ a.todo = []) :=
  ⟨{ from_ := .ring {} }, { upSt (3, {}) with trust := { act := some { from_ := .ring {} } } }, by decide +kernel⟩
theorem test_meets_FirmwareAttestationAndAudit_flashFault : ∃ (k : Nat) (s : State),
    (k < 2 ∧ s.trust.flashBad.contains k = false) :=
  ⟨1, s1, by decide +kernel⟩
theorem test_meets_CheckValuesMonitorsAndFeed_cvArm : ∃ (fn n : Nat) (ctrl : BitVec 32) (s : State),
    (heldBack s fn 0 = false ∧ isPf1 fn = true ∧ present s fn = true ∧ n < 32 ∧ cvOwner n = fn ∧ ctrlOk ctrl.toNat = true) :=
  ⟨4, 0, 0, st1, by decide +kernel⟩
theorem test_meets_CheckValuesMonitorsAndFeed_cvArm_denied : ∃ (fn n : Nat) (ctrl : BitVec 32) (s : State),
    (heldBack s fn 0 = false ∧ isPf1 fn = true ∧ present s fn = true ∧ n < 32 ∧ cvOwner n ≠ fn) :=
  ⟨4, 16, 0, st1, by decide +kernel⟩
theorem test_meets_CheckValuesMonitorsAndFeed_cvDisarm : ∃ (fn n : Nat) (ctrl : BitVec 32) (s : State),
    (heldBack s fn 0 = false ∧ isPf1 fn = true ∧ present s fn = true ∧ n < 32 ∧ cvOwner n = fn ∧ ctrlOk ctrl.toNat = true) :=
  ⟨4, 15, 0, st1, by decide +kernel⟩
theorem test_meets_CheckValuesMonitorsAndFeed_cvWindowEnd : ∃ (n v : Nat) (u : CvUnit) (miss : Bool) (s t : State),
    (n < 32 ∧ s.cv n = u ∧ u.armed = true ∧ u.stopped = false ∧ 0 < u.window ∧ u.window ≤ u.progress)
    ∧ (v = checkValue u.poly u.taken ∧ miss = ((u.mode == 1 || u.mode == 2) && v != u.expect))
    ∧ (t = s.modCv n (fun u => { u with last := v, windows := satAdd 32 u.windows 1, progress := 0, taken := [], mismatches := if miss then satAdd 32 u.mismatches 1 else u.mismatches, stopped := miss && u.mode == 2 })) :=
  ⟨0, checkValue 0 [], { armed := true, progress := 1 }, false, { wx := { units := [(0, { armed := true, progress := 1 })] } }, ({ wx := { units := [(0, { armed := true, progress := 1 })] } } : State).modCv 0 (fun u => { u with last := checkValue 0 [], windows := 1, progress := 0, taken := [], stopped := false }), by decide +kernel⟩
theorem test_meets_CheckValuesMonitorsAndFeed_cvWindowAbort : ∃ (n : Nat) (u : CvUnit) (s : State),
    (n < 32 ∧ s.cv n = u ∧ u.armed = true ∧ u.stopped = false ∧ 0 < u.progress ∧ u.progress < u.window) :=
  ⟨0, { armed := true, progress := 1, window := 2 }, { wx := { units := [(0, { armed := true, progress := 1, window := 2 })] } }, by decide +kernel⟩
theorem test_meets_CheckValuesMonitorsAndFeed_amSample : ∃ (k : Nat) (read : HRead) (m : AliveMon) (s u w : State) (x : Option Nat),
    (k < 64 ∧ s.mon k = m ∧ m.enable = true ∧ (m.source = 1 ∨ m.source = 2))
    ∧ (u = advanceTo s m.nextAt)
    ∧ (amRead (u.modMon k (fun m => { m with nextAt := u.vcycle + m.period * 400 })) k read = (w, x)) :=
  ⟨0, .ok [], { enable := true, source := 1 }, monSt, monSt, monW, some 0, by decide +kernel⟩
theorem test_meets_CheckValuesMonitorsAndFeed_wfSample : ∃ (type ms : Nat) (xs : List Nat) (s t u : State),
    (1 ≤ type ∧ type ≤ 6 ∧ ms = mget s.wx.intervals type 1000 ∧ ms ≠ 0)
    ∧ (t = advanceTo s (mget s.wx.sampledAt type 0 + ms * 400000))
    ∧ (u = t.modWx (fun w => { w with sampledAt := mset w.sampledAt type t.vcycle 0 })) :=
  ⟨6, 1000, [], s1, advanceTo s1 400000000, (advanceTo s1 400000000).modWx (fun w => { w with sampledAt := mset w.sampledAt 6 400000000 0 }), by decide +kernel⟩
theorem test_meets_CheckValuesMonitorsAndFeed_feedBuffer : ∃ (r i : Nat) (e : Fetched) (s : State),
    (Starts s r i 0x44 0x01 e) :=
  ⟨4, 1, de 1, rs 4 0x44 1, by decide +kernel⟩
theorem test_meets_CheckValuesMonitorsAndFeed_feedFlush : ∃ (r i : Nat) (e : Fetched) (s : State),
    (Starts s r i 0x44 0x02 e) :=
  ⟨4, 1, de 2, rs 4 0x44 2, by decide +kernel⟩
theorem test_meets_CheckValuesMonitorsAndFeed_feedFlushTimeout : ∃ (r : Nat) (b : FeedBuf) (s : State),
    ((s.path r).bufs.find? (fun b => b.records != 0) = some b ∧ (s.path r).flushMs ≠ 0) :=
  ⟨4, { records := 1 }, { wx := { paths := [(4, { flushMs := 1, bufs := [{ records := 1 }] })] } }, by decide +kernel⟩
theorem test_meets_EretActsAsRetToEpc_leaves : ∃ (core n : Nat) (lo : BitVec 32) (s s1 : State),
    (Executes s core 0x25 lo.toNat)
    ∧ (fld lo.toNat 0 22 = 0)
    ∧ (leaveFrame core s = some (s1, n)) :=
  ⟨0, 2, 0x94000000, deepSt true, (deepSt true).modCore 0 (fun k => { clearFrame k k.depth with depth := 0, resident := 1 }), by decide +kernel⟩
theorem test_meets_EretActsAsRetToEpc_leaves_eret : ∃ (core n : Nat) (lo : BitVec 32) (s s1 : State),
    (Executes s core 0x26 lo.toNat)
    ∧ (fld lo.toNat 0 22 = 0 ∧ (s.core core).inHandler = true)
    ∧ (leaveFrame core s = some (s1, n)) :=
  ⟨0, 2, 0x98000000, deepSt true, (deepSt true).modCore 0 (fun k => { clearFrame k k.depth with depth := 0, resident := 1 }), by decide +kernel⟩
theorem test_meets_EretActsAsRetToEpc_cannotLeave : ∃ (core : Nat) (lo : BitVec 32) (s : State),
    (Executes s core 0x25 lo.toNat)
    ∧ (fld lo.toNat 0 22 = 0)
    ∧ (leaveFrame core s = none) :=
  ⟨0, 0x94000000, { cores := [(0, coreOn)] }, by decide +kernel⟩
theorem test_meets_EretActsAsRetToEpc_cannotLeave_eret : ∃ (core : Nat) (lo : BitVec 32) (s : State),
    (Executes s core 0x26 lo.toNat)
    ∧ (fld lo.toNat 0 22 = 0 ∧ (s.core core).inHandler = true)
    ∧ (leaveFrame core s = none) :=
  ⟨0, 0x98000000, { cores := [(0, { coreOn with inHandler := true })] }, by decide +kernel⟩
theorem test_meets_EretActsAsRetToEpc_noHandler : ∃ (core : Nat) (lo : BitVec 32) (s : State),
    (Executes s core 0x26 lo.toNat)
    ∧ ((s.core core).inHandler = false) :=
  ⟨0, 0x98000000, { cores := [(0, coreOn)] }, by decide +kernel⟩
theorem test_meets_BlocksOfAPlanAndClassesInUseArePinned_truncate : ∃ (r i ix : Nat) (q : Seq) (e : Fetched) (s : State),
    (Starts s r i 0x14 0x07 e)
    ∧ (seqOfHandle s (fld e.desc.toNat 64 20) = some (ix, q) ∧ owns s r q.own = true)
    ∧ (fld e.desc.toNat 96 32 ≤ q.blocks.length)
    ∧ ((q.blocks.drop (fld e.desc.toNat 96 32)).any (inPlan s) = true) :=
  ⟨4, 1, 0, kvSeq, de (seqDesc 7), planSt (seqDesc 7), by decide +kernel⟩
theorem test_meets_BlocksOfAPlanAndClassesInUseArePinned_close : ∃ (r i ix : Nat) (q : Seq) (e : Fetched) (s : State),
    (Starts s r i 0x14 0x04 e)
    ∧ (seqOfHandle s (fld e.desc.toNat 64 20) = some (ix, q) ∧ owns s r q.own = true)
    ∧ (q.blocks.any (inPlan s) = true) :=
  ⟨4, 1, 0, kvSeq, de (seqDesc 4), planSt (seqDesc 4), by decide +kernel⟩
theorem test_meets_BlocksOfAPlanAndClassesInUseArePinned_demote : ∃ (r i ix n : Nat) (q : Seq) (e : Fetched) (s : State),
    (Starts s r i 0x14 0x09 e)
    ∧ (seqOfHandle s (fld e.desc.toNat 64 20) = some (ix, q) ∧ owns s r q.own = true)
    ∧ (n = rangeCount q (fld e.desc.toNat 96 32) (fld e.desc.toNat 128 32) ∧ fld e.desc.toNat 96 32 + n ≤ q.blocks.length ∧ fld e.desc.toNat 174 2 ≠ 0)
    ∧ (((q.blocks.drop (fld e.desc.toNat 96 32)).take n).any (inPlan s) = true) :=
  ⟨4, 1, 0, 1, kvSeq, de (seqDesc 9 + 2 ^ 174 + 2 ^ 128), planSt (seqDesc 9 + 2 ^ 174 + 2 ^ 128), by decide +kernel⟩
theorem test_meets_BlocksOfAPlanAndClassesInUseArePinned_classInUse : ∃ (r i : Nat) (e : Fetched) (s : State),
    (Starts s r i 0x14 0x01 e)
    ∧ (outranked s r i = false ∧ isVf r = false)
    ∧ (s.kv.seqs.any (fun q => q.2.cls == fld e.desc.toNat 64 6) = true) :=
  ⟨4, 1, de 1, seqSt 1, by decide +kernel⟩
theorem test_meets_AbortEndsATakeBeforeItsRootWrite_before : ∃ (r i : Nat) (t : Take) (e : Fetched) (s : State),
    (Picks s r i 0x15 0x03 e)
    ∧ (takeOf s (epOf r) = some t)
    ∧ (t.st = .accepted ∨ t.st = .snapshot ∨ t.st = .writing) :=
  ⟨4, 1, {}, de 3, { rs 4 0x15 3 with ck := [(0, { take := some {} })] }, by decide +kernel⟩
theorem test_meets_AbortEndsATakeBeforeItsRootWrite_after : ∃ (r i : Nat) (t : Take) (e : Fetched) (s : State),
    (Picks s r i 0x15 0x03 e)
    ∧ (takeOf s (epOf r) = some t)
    ∧ (t.st = .committing) :=
  ⟨4, 1, { st := .committing }, de 3, { rs 4 0x15 3 with ck := [(0, { take := some { st := .committing } })] }, by decide +kernel⟩
theorem test_meets_BrokenRatesAreRefused_rates : ∃ (r i op : Nat) (c : Instr) (e : Fetched) (s : State),
    (Starts s r i 0x22 op e)
    ∧ ((c, op) ∈ [(Instr.txqCreate r i, 1), (Instr.qConfig r i, 3), (Instr.policerSet r i, 5)])
    ∧ (op ≠ 3 → netMay s r (fld e.desc.toNat 64 4) = true)
    ∧ (op = 3 → (txqOf s r i).isSome = true)
    ∧ ((dCir e.desc.toNat ≠ 0 ∧ dCbs e.desc.toNat < 9216) ∨ (dPir e.desc.toNat ≠ 0 ∧ dPbs e.desc.toNat < 9216) ∨ (dCir e.desc.toNat ≠ 0 ∧ dPir e.desc.toNat ≠ 0 ∧ dPir e.desc.toNat < dCir e.desc.toNat) ∨ 800000 < dCir e.desc.toNat ∨ 800000 < dPir e.desc.toNat) :=
  ⟨4, 1, 3, .qConfig 4 1, de (3 + rateBad), txqSt (3 + rateBad), by decide +kernel⟩

end Sys2Proof.Tests
end

