-- ==== Sys2Proof/Tests/Slice0.lean ====
section
/-!
SUPPORT. The model's own tests: an ill-formed command for each check that WellFormed makes, and the figures of the worked
examples of spec/, which come from outside the model.
-/
set_option Elab.async false
namespace Sys2Proof.Tests
open Sys2Proof Sys2Proof.Machine

/-! ### Well-formed commands: one out of range per check -/

theorem test_wf_function : Instr.wf (.ringDirCommit 3) = false := by decide
theorem test_wf_function_high : Instr.wf (.ringDirCommit 1032) = false := by decide
theorem test_wf_function_good : Instr.wf (.ringDirCommit 1031) = true := by decide
theorem test_wf_port : Instr.wf (.portEnable 4 8) = false := by decide
theorem test_wf_interface : Instr.wf (.schGateCommit 4 64) = false := by decide
theorem test_wf_net_port : Instr.wf (.breakoutWrite 4 16 0) = false := by decide
theorem test_wf_vector : Instr.wf (.msixUnmask 4 2048) = false := by decide
theorem test_wf_session : Instr.wf (.regRead 4 []) = false := by decide
theorem test_wf_unit : Instr.wf (.cvArm 4 128 0) = false := by decide
theorem test_wf_rank : Instr.wf (.sharedControlWrite 1032 0x10 8 4 0) = false := by decide
theorem test_wf_ring : Instr.wf (.nop 4 256) = false := by decide
theorem test_wf_core : Instr.wf (.rdPull 66) = false := by decide
theorem test_wf_sum_tile : Instr.wf (.resultCopyDepart 0 12) = false := by decide
theorem test_wf_endpoint : Instr.wf (.snapshotPoint 2) = false := by decide
theorem test_wf_claimant : Instr.wf (.mcLockRelease 6) = false := by decide
theorem test_wf_rail : Instr.wf (.railFault 29 0) = false := by decide
theorem test_wf_domain : Instr.wf (.thermalNearLimit 108 0) = false := by decide

/-- No row of the table gives bits, so no word spells a command. -/
theorem test_no_word_spells_a_command : decodeTableWord 32 0 = none := rfl

/-! ### Check values of the nine bytes "123456789" (18, Table 18-2) -/

def nineBytes : List Byte := [0x31, 0x32, 0x33, 0x34, 0x35, 0x36, 0x37, 0x38, 0x39]
theorem test_crc32 : checkValue 0 nineBytes = 0xCBF43926 := by decide +kernel
theorem test_crc32c : checkValue 1 nineBytes = 0xE3069283 := by decide +kernel
theorem test_crc64 : checkValue 2 nineBytes = 0x995DC9BBDF1939FA := by decide +kernel

/-! ### Decoding one address (15, worked example) -/

theorem test_address : stackOf 0x1234567A40 = 1 ∧ frameOf 0x1234567A40 = 4514 ∧ chanOf State.reset 0x1234567A40 = 18
    ∧ chanAddr State.reset 0x1234567A40 = 74108736 := by decide +kernel

/-! ### Eight BF16 contributions in two orders (04, Tables 4-4 and 4-5) -/

def inBf16 (xs : List Nat) : List FV := xs.map (fun x => decodeElem 0x1 x 0)
def order1 : List FV := inBf16 [0x4E80, 0x3FC0, 0x4040, 0xCE80, 0x3E00, 0xBF00, 0x4100, 0x3D80]
def order2 : List FV := inBf16 [0xCE80, 0x3D80, 0x3FC0, 0xBF00, 0x4E80, 0x4100, 0x4040, 0x3E00]
theorem test_exact_order1 : (order1.foldl (accAdd 0) {}).a = 195 * 2 ^ 145 := by decide +kernel
theorem test_exact_order2 : (order2.foldl (accAdd 0) {}).a = 195 * 2 ^ 145 := by decide +kernel
theorem test_exact_result : encodeFp 0x1 false (accValue 0 (order2.foldl (accAdd 0) {})) = (0x4143, false) := by decide +kernel
theorem test_accx_bytes : accxBytes (order1.foldl (accAdd 0) {}) =
    List.replicate 18 0 ++ [0x86, 0x01] ++ List.replicate 20 0 ++ [0x00, 0x08, 0x00, 0x00] ++ List.replicate 4 0 := by decide +kernel
/-- Ranked mode folds in rank order from rank 0. -/
theorem test_ranked : encodeFp 0x1 false ((order1.drop 1).foldl fp32Add (lget order1 0 .nan)) = (0x40F6, false) := by decide +kernel

/-! ### An MXFP8 E4M3 output block (04, Table 4-6) -/

def mxResults : List FV :=
  [.fin (1000 * 2 ^ 149) false, .fin (-(195 * 2 ^ 145)) false, .fin (13 * 2 ^ 145) false, .fin (2 ^ 141) false, .fin (2 ^ 138) false]
    ++ List.replicate 27 (.fin 0 false)
theorem test_mxfp8 : encodeGroup 0x5 true mxResults =
    ([0x7E, 0xCC, 0x2D, 0x01, 0x00] ++ List.replicate 27 0, [0x80], 1) := by decide +kernel

/-! ### An MXFP4 re-encode of one group (07, Table 7-3) -/

def kvGroup : List Byte :=
  [0x4158, 0xC040, 0x40A0, 0x3F40, 0xBE80, 0x4110, 0xC130, 0x4020, 0x3FC0, 0xC0E0, 0x3F00, 0xC150].flatMap (natLE 2) ++ List.replicate 40 0
theorem test_mxfp4 : tierDown { encoding := 5 } kvGroup =
    ([0xB7, 0x14, 0x68, 0x2F, 0xE2, 0xF0] ++ List.replicate 10 0 ++ [0x80], 0) := by decide +kernel

/-! ### Two profile writes in one tick (02, Table 2-15) -/

def gale : Held := { rank := 2, cap := 0x41, off := 0x08, value := 2 }
def breeze : Held := { rank := 0, cap := 0x41, off := 0x08, value := 0 }
theorem test_profile_conflict : fateOf (numbered [gale, breeze]) (0, gale) = .lost 0
    ∧ fateOf (numbered [gale, breeze]) (1, breeze) = .applied := by decide +kernel

/-! ### A call that spills a frame (05, worked example): the two guarded MOVIs -/

def p3St : State := { cores := [(0, { coreOn with preds := 8 })] }
/-- (p3) movi x0, 64, as the word 0x21B00040. -/
theorem test_movi_runs : ((match exec (.movi 0 0x21B00040#32) p3St with
    | .next t => mget (t.core 0).x 0 0#64
    | _ => 0#64) = 64#64) := by decide +kernel
/-- (!p3) movi x0, 16, as the word 0x21F00010: not executed. -/
theorem test_movi_guarded : ((match exec (.movi 0 0x21F00010#32) p3St with
    | .next t => mget (t.core 0).x 0 0#64
    | _ => 1#64) = 0#64) := by decide +kernel

/-- An unlisted opcode, with its guard at p0, raises ILLEGAL_INSTRUCTION (R179): the word is the address of the exception. -/
theorem test_illegal_word : ((match exec (.movi 0 0xFC000000#32) { cores := [(0, { coreOn with evec := 64 })] } with
    | .next t => ((t.core 0).ecause, (t.core 0).eaddr)
    | _ => (0, 0)) = (1, 0xFC000000)) := by decide +kernel

/-! ### Hashes and ciphers (log 8): the examples of their standards -/

/-- FIPS 180-4: the message "abc". -/
theorem test_sha256_abc : leNat (sha256 [0x61#8, 0x62#8, 0x63#8]).reverse =
    0xba7816bf8f01cfea414140de5dae2223b00361a396177a9cb410ff61f20015ad := by decide +kernel
/-- FIPS 197, appendix C.3. -/
theorem test_aes256_fips197 : aesEnc (roundKeys (List.range 32)) ((List.range 16).map (· * 0x11)) =
    [0x8e, 0xa2, 0xb7, 0xca, 0x51, 0x67, 0x45, 0xbf, 0xea, 0xfc, 0x49, 0x90, 0x4b, 0x49, 0x60, 0x89] := by decide +kernel

/-! ### Crossings (16, R536) and trunks (19, R592) -/

/-- "2 × 7.00 + 2 × 6.00 = 26.00 ns": an APT register read through HP0 in Breeze. -/
theorem test_apt_read_cost : readCost { power := { inForce := 1 } } [(.pclk, .vclk), (.cclk, .vclk)] = 2600 := by decide
/-- Table 16-13 in Calm and in Gale. -/
theorem test_transfer_costs : crossings.map (xferCost 0) = [625, 250, 205, 253, 253, 375, 625, 667, 700]
    ∧ crossings.map (xferCost 2) = [591, 216, 171, 219, 219, 341, 625, 667, 700] := by decide
/-- A trunk joins transmit lane l to receive lane l of a like port. -/
theorem test_trunk : (∀ l < 16, apTrunk (apTxPos l) = apRxPos l) ∧ (∀ k < 4, npTrunk (npTxPos k) = npRxPos k) := by decide

end Sys2Proof.Tests
end

/-! # The ring contract (02): what its commands do, and the statements about it -/

namespace Sys2Proof.Machine

/-! ### What acts at once and what waits at the transom (R604) -/

/-- A register write or doorbell of a function waits while the transom holds a shared write of it (R604). -/
theorem gated_of_heldBack {s : State} {r : Nat} (h : heldBack s r 0 = true) (i : Instr) (act : State → State) :
    gated r i act s = waitBehind r i s := if_pos h

/-- A register write or doorbell of a function acts at once while the transom holds no shared write of it (R604). -/
theorem gated_of_free {s : State} {r : Nat} (h : heldBack s r 0 = false) (i : Instr) (act : State → State) :
    gated r i act s = act s := by
  simp only [gated, h, Bool.false_eq_true, if_false]

/-- A shared write acts at once while no ordinary write of its function waits (R468, R604). -/
theorem gatedShared_of_free {s : State} {r : Nat} (h : s.transom.behindOf.contains r = false) (i : Instr)
    (act : State → State) : gatedShared r i act s = act s := by
  simp only [gatedShared, h, Bool.false_eq_true, if_false]

/-- A message waits behind what its session has waiting (R604). -/
theorem gatedS_of_waits {s : State} {n : Nat} (h : waitsS s n = true) (i : Instr) (act : State → State) :
    gatedS n i act s = { s with transom := { s.transom with behind := s.transom.behind ++ [i] } } := if_pos h

/-- A message acts at once while nothing of its session waits (R604). -/
theorem gatedS_of_free {s : State} {n : Nat} (h : waitsS s n = false) (i : Instr) (act : State → State) :
    gatedS n i act s = act s := by
  simp only [gatedS, h, Bool.false_eq_true, if_false]

/-- A configuration write acts at once outside a drain that a reset began (R479). -/
theorem configWrite_of_free {s : State} {r : Nat} (h : configBusy s r = false) (act : State → State) :
    configWrite r act s = act s := by
  simp only [configWrite, h, Bool.false_eq_true, if_false]

/-- A configuration write has no effect in a drain that a reset began (R479). -/
theorem configWrite_of_busy {s : State} {r : Nat} (h : configBusy s r = true) (act : State → State) :
    configWrite r act s = s := if_pos h

theorem configBusy_of_active {s : State} {r : Nat} (h : (s.fn r).st = .active) : configBusy s r = false := by
  simp [configBusy, h]

/-- A change of a function matters only at the value the function has. -/
theorem modFn_congr {s : State} {r : Nat} {f g : Fn → Fn} (h : f (s.fn r) = g (s.fn r)) : s.modFn r f = s.modFn r g := by
  simp only [State.modFn, h]

/-- Settles O1: `step` is `exec` of the front command by definition, and an empty queue takes its other branch. -/
theorem stepTakesTheFrontCommand : Obligations.StepTakesTheFrontCommand := by
  unfold Obligations.StepTakesTheFrontCommand
  refine ⟨fun c rest s => rfl, fun s h => ?_⟩
  simp only [step, h]

/-- Settles O4: every field of the reset state has the value of its declaration, and an absent entry of a table its default. -/
theorem resetValuesAreTheSpecs : Obligations.ResetValuesAreTheSpecs := by
  unfold Obligations.ResetValuesAreTheSpecs
  intro r i p d
  have time_zero : ptp State.reset = 0 := by decide
  exact ⟨rfl, rfl, rfl, rfl, ⟨rfl, rfl, rfl⟩, ⟨rfl, rfl, rfl⟩, ⟨rfl, rfl, rfl⟩, time_zero, rfl⟩

/-- Settles O6: each of these commands acts through `gated` or `gatedS` alone. -/
theorem commandsWaitBehindASharedWrite : Obligations.CommandsWaitBehindASharedWrite := by
  unfold Obligations.CommandsWaitBehindASharedWrite
  refine ⟨fun fn a b d w x y z hr hs space v32 v64 c s hc ⟨hheld, hspace⟩ => ?_, fun n msg c s hc hwaits => ?_⟩
  · have waits (act : State → State) :
        Host.Outcome.next (φ := Fault) (ρ := Refusal) (gated fn c act s) = .next (waitBehind fn c s) :=
      congrArg _ (gated_of_heldBack hheld c act)
    rcases hc with hc | hc | rfl
    · rcases List.mem_cons.1 hc with rfl | hc
      · cases space with
        | csr k => exact absurd rfl (hspace k)
        | block | nvme | config => exact waits _
      · fin_cases hc <;> exact waits _
    · fin_cases hc <;> exact waits _
    · exact waits _
  · fin_cases hc <;> exact congrArg _ (gatedS_of_waits hwaits _ _)

/-! ### Completions (R46, R51, R54) -/

/-- A quiet completion with 0x00 is suppressed (R46). -/
theorem deliver_quiet {s : State} {r i : Nat} {c : Cpl} (h : c.quiet = true ∧ c.status = 0) : deliver s r i c = s := by
  simp [deliver, h]

/-- A completion of an ORPHANED ring pair is counted and not written (R481). -/
theorem deliver_orphaned {s : State} {r i : Nat} {c : Cpl} (ho : (s.ring r i).st = .orphaned)
    (hc : c.quiet = false ∨ c.status ≠ 0) :
    deliver s r i c = s.modRing r i (fun q => { q with dropped := q.dropped + 1 }) := by
  have loud : ¬ (c.quiet = true ∧ c.status = 0) := by rcases hc with h | h <;> simp [h]
  simp [deliver, loud, ho]

/-- A completion of a former incarnation is not written (R54). -/
theorem deliver_stale {s : State} {r i : Nat} {c : Cpl} (hg : c.gen ≠ (s.fn r).gen) (ho : (s.ring r i).st ≠ .orphaned) :
    deliver s r i c = s := by
  simp [deliver, hg, ho]

/-- A completion of a former incarnation puts nothing out (R54, R481). -/
theorem deliver_stale_out {s : State} {r i : Nat} {c : Cpl} (hg : c.gen ≠ (s.fn r).gen) :
    (deliver s r i c).out = s.out := by
  by_cases ho : (s.ring r i).st = .orphaned
  · by_cases hc : c.quiet = true ∧ c.status = 0
    · rw [deliver_quiet hc]
    · have loud : c.quiet = false ∨ c.status ≠ 0 := by
        rcases Decidable.not_and_iff_or_not.1 hc with h | h
        · exact .inl (Bool.not_eq_true _ ▸ h)
        · exact .inr h
      rw [deliver_orphaned ho loud, modRing_out]
  · rw [deliver_stale hg ho]

/-- Settles O5: what completing touches (`finish_only`, `finishOne_alone`), and what delivering does to a stale completion. -/
theorem completionsTouchTheirFunctionAlone : Obligations.CompletionsTouchTheirFunctionAlone := by
  unfold Obligations.CompletionsTouchTheirFunctionAlone
  exact ⟨finish_only, fun s ref st res spec => finishOne_alone s ref st res spec,
    fun s r i c hg => ⟨deliver_stale_out hg, deliver_stale hg, deliver_orphaned⟩⟩

/-! ### Two writes to one shared control (R64, R65) -/

theorem numbered_pair (a b : Held) : numbered [a, b] = [(0, a), (1, b)] := rfl

theorem sameCtl_refl (a : Held) : sameCtl a a = true := by simp [sameCtl]

/-- Of two writes the first is its master's last unless the second is of the same master to the same control. -/
theorem lastOfMaster_first (a b : Held) : lastOfMaster [(0, a), (1, b)] (0, a) = !(sameCtl a b && sameMast a b) := by
  simp [lastOfMaster]

/-- Of two writes the second is its master's last. -/
theorem lastOfMaster_second (a b : Held) : lastOfMaster [(0, a), (1, b)] (1, b) = true := by
  simp [lastOfMaster]

/-- Of two masters' writes to the control of `x`, the one of smaller rank number stands, and with equal ranks the later. -/
theorem standing_pair {a b : Held} {x : Nat × Held} (ha : sameCtl a x.2 = true) (hb : sameCtl b x.2 = true)
    (hm : sameMast a b = false) : standing [(0, a), (1, b)] x = some (if a.rank < b.rank then (0, a) else (1, b)) := by
  have first_last : lastOfMaster [(0, a), (1, b)] (0, a) = true := by simp [lastOfMaster_first, hm]
  have second_last := lastOfMaster_second a b
  by_cases h : a.rank < b.rank
  · have first_unbeaten : ¬ b.rank < a.rank ∧ b.rank ≠ a.rank := by omega
    simp [standing, beats, ha, hb, first_last, h, first_unbeaten]
  · have first_beaten : b.rank < a.rank ∨ b.rank = a.rank := by omega
    simp [standing, beats, ha, hb, first_last, second_last, h, first_beaten]

/-- What becomes of the earlier of two masters' writes to one control. -/
theorem fateOf_first {a b : Held} (hba : sameCtl b a = true) (hm : sameMast a b = false) :
    fateOf [(0, a), (1, b)] (0, a) =
      if a.rank < b.rank then .applied else if b.value = a.value then .same else .lost b.rank := by
  have stands := standing_pair (x := (0, a)) (sameCtl_refl a) hba hm
  by_cases h : a.rank < b.rank <;> simp [fateOf, stands, lastOfMaster_first, hm, h]

/-- What becomes of the later of two masters' writes to one control. -/
theorem fateOf_second {a b : Held} (hab : sameCtl a b = true) (hm : sameMast a b = false) :
    fateOf [(0, a), (1, b)] (1, b) =
      if a.rank < b.rank then (if a.value = b.value then .same else .lost a.rank) else .applied := by
  have stands := standing_pair (x := (1, b)) hab (sameCtl_refl b) hm
  by_cases h : a.rank < b.rank <;> simp [fateOf, stands, lastOfMaster_second, h]

/-- A master's later write to a control overwrites its earlier one. -/
theorem fateOf_one_master {a b : Held} (hab : sameCtl a b = true) (hm : sameMast a b = true) :
    fateOf [(0, a), (1, b)] (0, a) = .overwritten ∧ fateOf [(0, a), (1, b)] (1, b) = .applied := by
  have first_not_last : lastOfMaster [(0, a), (1, b)] (0, a) = false := by simp [lastOfMaster_first, hab, hm]
  have second_last := lastOfMaster_second a b
  have stands : standing [(0, a), (1, b)] (1, b) = some (1, b) := by
    simp [standing, beats, sameCtl_refl, first_not_last, second_last]
  exact ⟨by simp [fateOf, first_not_last], by simp [fateOf, second_last, stands]⟩

/-- A lost write is logged, and nothing of it is applied (R65). -/
theorem settleOne_lost {hs : List (Nat × Held)} {x : Nat × Held} {w : Nat} (h : fateOf hs x = .lost w) (s : State) :
    settleOne hs s x = tellSession x.2 0x0D (logConflict s x.2.cap (x.2.off / 4) w x.2.rank false) := by
  simp only [settleOne, h]

/-- Settles O7: the two fates of a pair follow from which of the two stands (`standing_pair`). -/
theorem contradictingSharedWritesAreSettledByRank : Obligations.ContradictingSharedWritesAreSettledByRank := by
  unfold Obligations.ContradictingSharedWritesAreSettledByRank
  refine ⟨fun a b ⟨hab, hm, _, _⟩ => fateOf_one_master hab hm, fun a b ⟨hab, hba, hm, _⟩ hv => ?_,
    fun a b ⟨hab, hba, hm, _⟩ hv => ?_, fun hs x w s h => settleOne_lost h s⟩
  · rw [numbered_pair, fateOf_first hba hm, fateOf_second hab hm]
    exact ⟨fun h => by simp [h, hv], fun h => by simp [Nat.not_lt.2 h, Ne.symm hv]⟩
  · rw [numbered_pair, fateOf_first hba hm, fateOf_second hab hm]
    exact ⟨fun h => by simp [h, hv], fun h => by simp [Nat.not_lt.2 h, hv]⟩

/-! ### Ring directory actions (R42, R43) -/

/-- A directory action may start: the function is present and presents rings, no action is in progress, and it does not drain. -/
def DirReady (s : State) (r : Nat) : Prop :=
  present s r = true ∧ hasRings r = true ∧ (s.fn r).dirBusy = false ∧ (s.fn r).st ≠ .draining

theorem startDir_ready {s : State} {r : Nat} (h : DirReady s r) (act : State → State) : startDir s r act = act s := by
  obtain ⟨hp, hr, hb, hd⟩ := h
  simp [startDir, hp, hr, hb, hd]

/-- An action of a function that drains ends with 0x0B (R479). -/
theorem startDir_draining {s : State} {r : Nat} (hp : present s r = true) (hr : hasRings r = true)
    (hb : (s.fn r).dirBusy = false) (hd : (s.fn r).st = .draining) (act : State → State) :
    startDir s r act = endDir s r 0x0B (s.fn r).dirBad := by
  simp [startDir, hp, hr, hb, hd]

/-- A commit that passes its checks reads entry 0 (R42). -/
theorem doDirCommit_reads {s : State} {r : Nat} (h : DirReady s r) (hc : (s.fn r).dirCommitted = false)
    (h0 : 0 < (s.fn r).dirCount) (hmax : (s.fn r).dirCount ≤ maxRings s r) (hcov : orphanCover s r ≤ (s.fn r).dirCount) :
    doDirCommit r s = readEntry (s.modFn r (fun f => { f with dirBusy := true, dirAct := some { count := f.dirCount } })) r 0 := by
  have in_range : ¬ maxRings s r < (s.fn r).dirCount ∧ ¬ (s.fn r).dirCount < orphanCover s r ∧ (s.fn r).dirCount ≠ 0 := by
    omega
  simp [doDirCommit, startDir_ready h, hc, in_range]

/-- Unlock frees the set when every ring pair of index 1 or above is DISABLED (R42). -/
theorem doDirUnlock_unlocks {s : State} {r : Nat} (h : DirReady s r) (hc : (s.fn r).dirCommitted = true)
    (hall : (s.fn r).rings.any (fun q => q.1 != 0 && q.2.st != .disabled) = false) :
    doDirUnlock r s = endDir (s.modFn r (fun f => { f with dirCommitted := false })) r 0x00 (s.fn r).dirBad := by
  simp only [doDirUnlock, startDir_ready h, hc, hall, Bool.not_true, Bool.false_eq_true, if_false]

/-- Load entry and disable entry act on an index inside a committed set (R42). -/
theorem entryAction_inside {s : State} {r index : Nat} (h : DirReady s r) (hc : (s.fn r).dirCommitted = true)
    (h0 : 0 < index) (hi : index < (s.fn r).dirCount) (act : State → State) : entryAction r index act s = act s := by
  have inside : ¬ (index = 0 ∨ (s.fn r).dirCount ≤ index) := by omega
  simp [entryAction, startDir_ready h, hc, inside]

/-- The last entry of a commit has been read: with every entry valid the set is loaded and locked (R42). -/
theorem doDirReturn_commits {s t : State} {r : Nat} {bs : List Byte} {a : DirAct} (ha : (s.fn r).dirAct = some a)
    (hl : a.load = false) (hb : a.bad = none) (hi : a.index + 1 = a.count) (hok : entryOk s r a.index bs = true)
    (hload : loadAll s r 0 (a.read ++ [parseEntry bs]) = some t) :
    doDirReturn r (.ok bs) s = endDir (t.modFn r (fun f => { f with dirCommitted := true })) r 0x00 (s.fn r).dirBad := by
  have last_entry : ¬ a.index + 1 < a.count := by omega
  simp [doDirReturn, ha, hl, hok, hb, last_entry, hload]

/-- Settles O8: each action is taken through its checks by the lemmas above; the ring pair's state then says what it does. -/
theorem ringDirectoryActionsComplete : Obligations.RingDirectoryActionsComplete := by
  unfold Obligations.RingDirectoryActionsComplete
  refine ⟨?commit, ?unlock, ?load, ?disable, ?draining, ?committed, ?loaded, ?invalid⟩
  case commit =>
    intro fn s hfree hp hr hb hd hc h0 hmax hcov
    simp only [exec_ringDirCommit, execRingDirCommit, gated_of_free hfree, doDirCommit_reads ⟨hp, hr, hb, hd⟩ hc h0 hmax hcov,
      readEntry, Nat.mul_zero, Nat.add_zero]
  case unlock =>
    intro fn s hfree hp hr hb hd hc hall
    simp only [exec_ringDirUnlock, execRingDirUnlock, gated_of_free hfree, doDirUnlock_unlocks ⟨hp, hr, hb, hd⟩ hc hall]
  case load =>
    intro fn index s hfree hp hr hb hd hc h0 hi hst
    simp [execLoadEntry, gated_of_free hfree, doLoadEntry, entryAction_inside ⟨hp, hr, hb, hd⟩ hc h0 hi, hst]
  case disable =>
    intro fn index s hfree hp hr hb hd hc h0 hi
    refine ⟨fun hst => ?_, fun hst => ?_, fun hst => ?_⟩ <;>
      simp [execDisableEntry, gated_of_free hfree, doDisableEntry, entryAction_inside ⟨hp, hr, hb, hd⟩ hc h0 hi, hst]
  case draining =>
    intro fn s hfree hp hr hb hd
    simp only [exec_ringDirCommit, execRingDirCommit, gated_of_free hfree, doDirCommit, startDir_draining hp hr hb hd]
  case committed =>
    intro fn bs a s t ha hl hb hi hok hload
    simp only [exec_directoryReadReturn, execDirectoryReadReturn, doDirReturn_commits ha hl hb hi hok hload]
  case loaded =>
    intro fn bs a s t ha hl hok hload
    simp [execDirectoryReadReturn, doDirReturn, ha, hl, hok, hload]
  case invalid =>
    intro fn bs a s ha hl hok
    simp [execDirectoryReadReturn, doDirReturn, ha, hl, hok]

/-! ### Doorbells and descriptors (R43 to R51) -/

/-- An 8-byte write at offset 0 of a doorbell page is a doorbell (R48). -/
theorem exec_doorbell_taken {s : State} {fn page : Nat} (hfree : heldBack s fn 0 = false) (hp : present s fn = true)
    (hpage : page < doorbellPages fn) (word : BitVec 64) :
    exec (.doorbell fn page 0 8 word) s = .next (takeDoorbell s fn page word.toNat) := by
  simp [execDoorbell, gated_of_free hfree, doDoorbell, hp, hpage]

/-- A doorbell word is of the running incarnation and its reserved bits are zero (R50). -/
def WordRuns (s : State) (r word : Nat) : Prop :=
  dmaOn (s.fn r) = true ∧ (s.fn r).gen ≠ 0 ∧ fld word 24 16 = (s.fn r).gen ∧ fld word 48 16 = 0

/-- A doorbell word is a submission of the ring pair's kind, at most one queue length ahead of the consumer index (R50). -/
def Submits (s : State) (r page word : Nat) : Prop :=
  page ≠ 0 ∧ fld word 40 8 = (s.ring r page).ent.kind
  ∧ ((s.ring r page).ent.kind ≠ 0x03 ∧ (s.ring r page).ent.kind < 0xFE)
  ∧ dist24 (fld word 0 24) (s.ring r page).cons ≤ 2 ^ (s.ring r page).ent.sqOrder

/-- A submission on an ENABLED ring pair sets its producer index (R50). -/
theorem takeDoorbell_enabled {s : State} {r page word : Nat} (hw : WordRuns s r word) (hs : Submits s r page word)
    (hst : (s.ring r page).st = .enabled) :
    takeDoorbell s r page word = mboxPush (s.modRing r page (fun q => { q with prod := fld word 0 24 })) (s.ring r page).owner
      { index := fld word 0 24, kind := (s.ring r page).ent.kind, ring := page, fn := r } := by
  obtain ⟨hd, hg, hgen, hz⟩ := hw
  obtain ⟨h0, hk, ⟨hk3, hkind⟩, hi⟩ := hs
  have no_release : (s.ring r page).ent.kind ≠ 255 ∧ (s.ring r page).ent.kind ≠ 254 := by omega
  simp [takeDoorbell, hd, hg, hgen, hz, hk, hk3, no_release, hi, h0, hst]

/-- A HELD ring pair keeps a submission (R50). -/
theorem takeDoorbell_held {s : State} {r page word : Nat} (hw : WordRuns s r word) (hs : Submits s r page word)
    (hst : (s.ring r page).st = .held) :
    takeDoorbell s r page word = mboxPush (s.modRing r page (fun q => { q with heldDb := some (fld word 0 24) }))
      (s.ring r page).owner { index := fld word 0 24, kind := (s.ring r page).ent.kind, ring := page, fn := r } := by
  obtain ⟨hd, hg, hgen, hz⟩ := hw
  obtain ⟨h0, hk, ⟨hk3, hkind⟩, hi⟩ := hs
  have no_release : (s.ring r page).ent.kind ≠ 255 ∧ (s.ring r page).ent.kind ≠ 254 := by omega
  simp [takeDoorbell, hd, hg, hgen, hz, hk, hk3, no_release, hi, h0, hst]

/-- A release of completion slots within what was written lets waiting completions out and settles the ring pair (R51). -/
theorem takeDoorbell_release {s : State} {r page word : Nat} (hw : WordRuns s r word) (h0 : page ≠ 0) (hk : fld word 40 8 = 0xFE)
    (hst : (s.ring r page).st = .enabled ∨ (s.ring r page).st = .held ∨ (s.ring r page).st = .draining ∨ (s.ring r page).st = .error)
    (hi : dist24 (fld word 0 24) (s.ring r page).cqR ≤ dist24 (s.ring r page).cqW (s.ring r page).cqR) :
    takeDoorbell s r page word = checkFreeze (settleRing (drainWaiting (s.ring r page).waiting.length
      (mboxPush (s.modRing r page (fun q => { q with cqR := fld word 0 24 })) (s.ring r page).owner
        { index := fld word 0 24, kind := 0xFE, ring := page, fn := r }) r page) r page) r := by
  obtain ⟨hd, hg, hgen, hz⟩ := hw
  simp [takeDoorbell, hd, hg, hgen, hz, hk, h0, hst, hi]

/-- Word 0xFF on page 0 renews the lease (R61). -/
theorem takeDoorbell_lease {s : State} {r word : Nat} (hw : WordRuns s r word) (hk : fld word 40 8 = 0xFF)
    (hi : fld word 0 24 = 0) : takeDoorbell s r 0 word = renewLease s r := by
  obtain ⟨hd, hg, hgen, hz⟩ := hw
  simp [takeDoorbell, hd, hg, hgen, hz, hk, hi]

/-- A release of event slots on page 0 sets the read index and reports what was lost (R49, R59). -/
theorem takeDoorbell_events {s : State} {r word : Nat} (hw : WordRuns s r word) (hk : fld word 40 8 = 0xFE)
    (hon : evOn s r = true) (hi : evReleaseOk (s.fn r) (fld word 0 24) = true) :
    takeDoorbell s r 0 word = flushLost (mboxPush (s.modFn r (fun f => { f with evR := fld word 0 24 })) (s.ring r 0).owner
      { index := fld word 0 24, kind := 0xFE, ring := 0, fn := r }) r := by
  obtain ⟨hd, hg, hgen, hz⟩ := hw
  simp [takeDoorbell, hd, hg, hgen, hz, hk, hon, hi]

/-- A word of another generation is discarded (R50). -/
theorem takeDoorbell_stale {s : State} {r page word : Nat} (hgen : fld word 24 16 ≠ (s.fn r).gen) :
    takeDoorbell s r page word = discardDoorbell s r page word := by
  simp only [takeDoorbell, hgen, ne_eq, not_false_eq_true, true_or, if_true]

/-- The state in which the descriptor `w` has been fetched: the consumer index has been written back and moved on, and the
descriptor stands last among the fetched (R43, R47). -/
def withFetched (s : State) (r i : Nat) (w : BitVec 512) : State :=
  (dma s r (s.ring r i).ent.headWb 8 (.headWb r (s.ring r i).ent.headWb (mod24 ((s.ring r i).cons + 1)))).modRing r i
    (fun q => { q with cons := mod24 ((s.ring r i).cons + 1), fetchNo := q.fetchNo + 1,
                       fetched := q.fetched ++ [{ seq := q.fetchNo, desc := w, gen := (s.fn r).gen }] })

/-- A descriptor that passes the checks of R45 is fetched and waits to start. -/
theorem doFetch_passes {s u : State} {r i : Nat} {bs : List Byte} (hf : fetches s r i = true)
    (hu : u = emit s (.hostRead r (sqSlotAddr (s.ring r i)) 64))
    (hst : descStatus u r (u.ring r i).ent.kind (BitVec.ofNat 512 (leNat (bs.take 64))).toNat = 0) :
    doFetch r i (.ok bs) s = withFetched u r i (BitVec.ofNat 512 (leNat (bs.take 64))) := by
  simp only [doFetch, hf, Bool.not_true, Bool.false_eq_true, if_false, ← hu, hst, if_true, withFetched]

/-- A descriptor that fails a check of R45, on a ring pair that is not of kind 0x22, completes with the check's status. -/
theorem doFetch_fails {s u : State} {r i st : Nat} {bs : List Byte} (hf : fetches s r i = true)
    (hu : u = emit s (.hostRead r (sqSlotAddr (s.ring r i)) 64))
    (hst : descStatus u r (u.ring r i).ent.kind (BitVec.ofNat 512 (leNat (bs.take 64))).toNat = st) (h0 : st ≠ 0)
    (hk : (u.ring r i).ent.kind ≠ 0x22) :
    doFetch r i (.ok bs) s = finish (withFetched u r i (BitVec.ofNat 512 (leNat (bs.take 64))))
      { fn := r, ring := i, seq := (u.ring r i).fetchNo } st 0 0 := by
  simp only [doFetch, hf, Bool.not_true, Bool.false_eq_true, if_false, ← hu, hst, h0, hk, false_and, withFetched]

/-- A descriptor of another generation fails with 0x0A (R45). -/
theorem descStatus_stale {s : State} {r kind d : Nat} (h : fld d 16 16 ≠ (s.fn r).gen) : descStatus s r kind d = 0x0A := by
  simp only [descStatus, h, ne_eq, not_false_eq_true, if_true]

/-- A failed read puts the ring pair in ERROR (R43). -/
theorem doFetch_timeout {s : State} {r i : Nat} (hf : fetches s r i = true) :
    doFetch r i .timeout s = checkFreeze (ringError (logTimeout (emit s (.hostRead r (sqSlotAddr (s.ring r i)) 64)) r) r i) r := by
  simp only [doFetch, hf, Bool.not_true, Bool.false_eq_true, if_false]

/-- Settles O9: each doorbell by the branch of `takeDoorbell` it takes, each fetch by what R45 answers for the descriptor. -/
theorem doorbellsAreTakenOrDiscarded : Obligations.DoorbellsAreTakenOrDiscarded := by
  unfold Obligations.DoorbellsAreTakenOrDiscarded
  refine ⟨?enabled, ?held, ?release, ?lease, ?events, ?stale, ?fetch, ?staleFetch, ?timeout, ?nop, ?moderation⟩
  case enabled =>
    intro fn page word s hfree hp hpage h0 hd hg hgen hz hk hkind hi hst
    rw [exec_doorbell_taken hfree hp hpage, takeDoorbell_enabled ⟨hd, hg, hgen, hz⟩ ⟨h0, hk, hkind, hi⟩ hst]
  case held =>
    intro fn page word s hfree hp hpage h0 hd hg hgen hz hk hkind hi hst
    rw [exec_doorbell_taken hfree hp hpage, takeDoorbell_held ⟨hd, hg, hgen, hz⟩ ⟨h0, hk, hkind, hi⟩ hst]
  case release =>
    intro fn page word s hfree hp hpage h0 hd hg hgen hz hk hst hi
    rw [exec_doorbell_taken hfree hp hpage, takeDoorbell_release ⟨hd, hg, hgen, hz⟩ h0 hk hst hi]
  case lease =>
    intro fn word s hfree hp hpage hd hg hgen hz hk hi
    rw [exec_doorbell_taken hfree hp hpage, takeDoorbell_lease ⟨hd, hg, hgen, hz⟩ hk hi]
  case events =>
    intro fn word s hfree hp hpage hd hg hgen hz hk hon hi
    rw [exec_doorbell_taken hfree hp hpage, takeDoorbell_events ⟨hd, hg, hgen, hz⟩ hk hon hi]
  case stale =>
    intro fn page word s hfree hp hpage hgen
    rw [exec_doorbell_taken hfree hp hpage, takeDoorbell_stale hgen, discardDoorbell]
  case fetch =>
    intro fn ring bs s u hf hu hst
    simp only [exec_descriptorFetch, execDescriptorFetch, doFetch_passes hf hu hst, withFetched]
  case staleFetch =>
    intro fn ring bs s u hf hu hgen hk
    simp only [exec_descriptorFetch, execDescriptorFetch, doFetch_fails hf hu (descStatus_stale hgen) (by decide) hk, withFetched]
  case timeout =>
    intro fn ring s hf
    simp only [exec_descriptorFetch, execDescriptorFetch, doFetch_timeout hf]
  case nop =>
    intro fn ring e s hs
    simp only [exec_nop, execNop, onDesc_starts hs, answered_ok0]
  case moderation =>
    intro fn ring s hdef
    simp only [exec_interruptModerationExpiry, execInterruptModerationExpiry, doModeration, hdef, if_true]

end Sys2Proof.Machine

namespace Sys2Proof.Machine

/-! ### The event ring set and the lease (R57 to R62) -/

/-- A commit of an unlocked set in range takes effect according to its enable bit and to whether a core has room (R57, R209). -/
theorem evDoCommit_valid {s : State} {r : Nat} (hc : (s.fn r).evCommitted = false)
    (ho : 6 ≤ (s.fn r).evOrder ∧ (s.fn r).evOrder ≤ 16) (hv : (s.fn r).evVector < vectorsOf r) :
    let s1 := evEnd (s.modFn r (fun f => { f with evCommitted := true })) r 0x00
    ((s.fn r).evEnable = false → evDoCommit s r = s1)
    ∧ ((s.fn r).evEnable = true → pickOwner s r 0x03 = none → evDoCommit s r = evEnd s r 0x07)
    ∧ (∀ o, (s.fn r).evEnable = true → pickOwner s r 0x03 = some o →
      evDoCommit s r = flushLost ((s1.modFn r (fun f => { f with evW := 0, evR := 0 })).modRing r 0 (fun _ =>
        { st := .enabled, owner := o, ent := { kind := 0x03 } })) r) := by
  have in_range : ¬ ((s.fn r).evOrder < 6 ∨ 16 < (s.fn r).evOrder ∨ vectorsOf r ≤ (s.fn r).evVector) := by omega
  refine ⟨fun he => ?_, fun he hp => ?_, fun o he hp => ?_⟩
  · simp only [evDoCommit, hc, in_range, he, Bool.false_eq_true, if_false]
  · simp only [evDoCommit, hc, in_range, he, hp, Bool.false_eq_true, if_false]
  · simp only [evDoCommit, hc, in_range, he, hp, Bool.false_eq_true, if_false]

/-- A write of EV_COMMIT with commit alone is the commit (Table 2-12). -/
theorem exec_evCommit_commits {s : State} {fn : Nat} {value : BitVec 32} (hfree : heldBack s fn 0 = false)
    (hp : present s fn = true) (hr : hasRings fn = true) (h0 : bitAt value.toNat 0 = true) (h1 : bitAt value.toNat 1 = false) :
    exec (.evCommit fn value) s = .next (evDoCommit s fn) := by
  simp [execEvCommit, gated_of_free hfree, doEvWrite, hp, hr, h0, h1]

/-- Settles O10: a write of EV_COMMIT by its two bits and the checks of the set; the lease by its range. -/
theorem eventRingAndLease : Obligations.EventRingAndLease := by
  unfold Obligations.EventRingAndLease
  refine ⟨?enabled, ?full, ?disabled, ?both, ?unlock, ?period, ?half⟩
  case enabled =>
    intro fn value o s hfree hp hr h0 h1 hc ho hv he hown
    exact (exec_evCommit_commits hfree hp hr h0 h1).trans (congrArg _ ((evDoCommit_valid hc ho hv).2.2 o he hown))
  case full =>
    intro fn value s hfree ⟨hp, hr⟩ ⟨h0, h1⟩ hc ⟨hlo, hhi, hv⟩ he hown
    exact (exec_evCommit_commits hfree hp hr h0 h1).trans (congrArg _ ((evDoCommit_valid hc ⟨hlo, hhi⟩ hv).2.1 he hown))
  case disabled =>
    intro fn value s hfree hp hr h0 h1 hc ho hv he
    exact (exec_evCommit_commits hfree hp hr h0 h1).trans (congrArg _ ((evDoCommit_valid hc ho hv).1 he))
  case both =>
    intro fn value s hfree hp hr h0 h1
    simp [execEvCommit, gated_of_free hfree, doEvWrite, hp, hr, h0, h1]
  case unlock =>
    intro fn s hfree hp hr hc
    have unlock_alone : bitAt 2 0 = false ∧ bitAt 2 1 = true := by decide
    simp [execEvUnlock, gated_of_free hfree, doEvWrite, hp, hr, unlock_alone, evDoUnlock, hc]
  case period =>
    intro fn value s hfree hp hr hb
    refine ⟨fun hin => ?_, fun hout => ?_⟩
    · simp [execLeasePeriodWrite, gated_of_free hfree, doLeasePeriod, hp, hr, hb, hin]
    · have out_of_range : ¬ (100 ≤ fld value.toNat 0 15 ∧ fld value.toNat 0 15 ≤ 30000) := by omega
      simp [execLeasePeriodWrite, gated_of_free hfree, doLeasePeriod, hp, hr, hb, out_of_range]
  case half =>
    intro fn s harmed hhalf hst
    simp [execLeaseHalf, doLeaseHalf, harmed, hhalf, hst]

/-! ### The commit tick and register writes (R8, R10, R64, R603) -/

/-- The state whose held writes a tick settles: the clock stands at the tick and the straps are sampled (R64, R590). -/
def ticked (claimEnN debugEnN : Bool) (s : State) : State :=
  (toTick s).modTrust (fun t => { t with claimEnN := claimEnN, debugEnN := debugEnN })

/-- A tick of a node whose ROM chain has run and whose debug access is locked. -/
theorem exec_commitTick_locked {s : State} (hr : s.power.romDone = true) (hd : s.trust.debugScope = 0) (c d : Bool) :
    exec (.commitTick c d) s = .next (releaseBehind (tickCmds (tickProfile (settleHeldWrites (ticked c d s))))) := by
  have straps : strapTick c d (toTick s) = ticked c d s := by
    have locked : (toTick s).trust.debugScope = 0 := hd
    simp only [strapTick, locked, ne_eq, not_true_eq_false, and_false, if_false, ticked]
  simp only [exec_commitTick, execCommitTick, doTick, hr, Bool.not_true, Bool.false_eq_true, if_false, straps]

theorem tickProfile_steady {s : State} (h : s.power.change = none) : tickProfile s = s := by
  simp only [tickProfile, h]

theorem tickCmds_none {s : State} (h : s.trust.cmds = []) : tickCmds s = s := by
  simp only [tickCmds, h, applyCmds, State.modTrust]
  rw [← h]

theorem releaseBehind_none {s : State} (h : s.transom.behind = []) :
    releaseBehind s = { s with transom := { s.transom with behindOf := [] } } := by
  simp only [releaseBehind, h, List.foldl_nil]

theorem settleHeldWrites_none {s : State} (h : s.transom.held = []) : settleHeldWrites s = s := by
  simp only [settleHeldWrites, h, numbered, List.length_nil, List.range_zero, List.zip_nil_left, List.foldl_nil]
  rw [← h]

/-- A write that waits alone is applied. -/
theorem fateOf_only (h : Held) : fateOf [(0, h)] (0, h) = .applied := by
  simp [fateOf, lastOfMaster, standing, beats, sameCtl]

/-- A function's or the keeper's write that waits alone is applied at the tick, and nobody is told. -/
theorem settleHeldWrites_one {s : State} {h : Held} (hh : s.transom.held = [h]) (hr : h.rank ≠ 0) :
    settleHeldWrites s = applyOne h { s with transom := { s.transom with held := [] } } := by
  simp [settleHeldWrites, hh, numbered, settleOne, fateOf_only, tellSession, hr]

/-- A record that does not fill its segment is appended, and nothing is sealed (R562, R563). -/
theorem auditRec_unsealed {s : State} (hf : flashUp s = true) (hq : s.trust.seq % segmentRecs ≠ 255)
    (action role rank status detail : Nat) :
    auditRec s action role rank status detail = some (appendRec s action role rank status detail) := by
  have not_full : (appendRec s action role rank status detail).trust.seq % segmentRecs ≠ 256 := by
    change (s.trust.seq + 1) % segmentRecs ≠ 256
    simp only [segmentRecs] at hq ⊢
    omega
  simp only [auditRec, hf, if_true, sealSegment, if_pos not_full]

/-- A function's or the keeper's write of AF_OWNER is entered in the audit log and gives the ports their owners. -/
theorem applyOne_afOwner {s : State} {h : Held} (hcap : h.cap = 0x10) (hoff : h.off = 0x08) (hr : h.rank ≠ 0)
    (hf : flashUp s = true) (hq : s.trust.seq % segmentRecs ≠ 255) :
    applyOne h s = { appendRec s 0x0302 (if h.rank = 3 then 3 else 2) h.rank 0 (0x10 + 8 * 2 ^ 16) with
      fabric := { s.fabric with owner := h.value % 2 ^ 8 } } := by
  simp only [applyOne, auditRec_unsealed hf hq, hcap, hoff, hr, if_false]
  rfl

/-- A shared write of its control's own width, from the keeper, a PF0, or a PF1 that the map names, waits for the tick (R64). -/
theorem doShared_holds {s : State} {rank cap off width w v : Nat} {pf1 : Bool} (hs : sharedReg cap off = some (w, pf1))
    (hw : width * 8 = w)
    (hm : rank = 3 ∨ ((present s rank && presents rank cap && capOn s rank cap) = true
      ∧ (isPf0 rank || (isPf1 rank && pf1)) = true)) :
    doShared rank cap off width v s = holdShared { rank := rank, cap := cap, off := off, width := w, value := v % 2 ^ w } s := by
  simp only [doShared, hs, hw]
  rcases hm with hkeeper | ⟨hpres, hnamed⟩
  · simp [hkeeper]
  · simp [hpres, hnamed]

/-- A shared write of a PF1 that the control's map does not name is counted (R34). -/
theorem doShared_denied {s : State} {rank cap off width w v : Nat} (hs : sharedReg cap off = some (w, false))
    (hw : width * 8 = w) (hpres : (present s rank && presents rank cap && capOn s rank cap) = true) (hpf1 : isPf1 rank = true) :
    doShared rank cap off width v s = s.modFn rank (fun f => { f with roleDenied := satAdd 32 f.roleDenied 1 }) := by
  have not_named : isPf0 rank = false ∧ rank ≠ 3 := by
    rcases (by simpa [isPf1] using hpf1 : rank = 4 ∨ rank = 5) with rfl | rfl <;> decide
  simp only [doShared, hs, hw, hpres, not_named]
  simp

/-- A write of RING_DIR_BASE at its own width, from a function that presents it, acts at once (R10). -/
theorem exec_ringDirBase_write {s : State} {fn : Nat} (hfree : heldBack s fn 0 = false) (hp : present s fn = true)
    (hpr : presents fn 0x01 = true) (hc : capOn s fn 0x01 = true) (value : BitVec 64) :
    exec (.registerWrite fn (.block 0x01) 0x08 8 value) s = .next (writeRing fn 0x08 (value.toNat % 2 ^ 64) s) := by
  simp [execRegisterWrite, gated_of_free hfree, doRegWrite, hp, hc, sharedReg, fnRegVal, hpr, ringReg, v64, writeBlock]

/-- Settles O11: the sender decides whether a shared write is held, and a tick is the sequence of its settled parts. -/
theorem sharedControlsAndRegisterWrites : Obligations.SharedControlsAndRegisterWrites := by
  unfold Obligations.SharedControlsAndRegisterWrites
  refine ⟨?held, ?denied, ?idleTick, ?ownerTick, ?dirBase, ?coreRegister⟩
  case held =>
    intro rank cap off width w pf1 value s ⟨hs, hb⟩ hw hm
    simp only [exec_sharedControlWrite, execSharedControlWrite, gatedShared_of_free hb, doShared_holds hs hw hm, holdShared]
  case denied =>
    intro rank cap off width w value s ⟨hs, hb⟩ hw hpres hpf1
    simp only [exec_sharedControlWrite, execSharedControlWrite, gatedShared_of_free hb, doShared_denied hs hw hpres hpf1]
  case idleTick =>
    intro c d s hr ⟨hheld, hbehind⟩ hcmds hchange hdebug
    rw [exec_commitTick_locked hr hdebug, settleHeldWrites_none (s := ticked c d s) hheld,
      tickProfile_steady (s := ticked c d s) hchange, tickCmds_none (s := ticked c d s) hcmds,
      releaseBehind_none (s := ticked c d s) hbehind]
    rfl
  case ownerTick =>
    intro c d h s hr ⟨hheld, hbehind⟩ ⟨hcap, hoff, hrank⟩ hcmds hchange hdebug hflash hseq
    have applied := (settleHeldWrites_one (s := ticked c d s) hheld hrank).trans
      (applyOne_afOwner hcap hoff hrank hflash hseq)
    rw [exec_commitTick_locked hr hdebug, applied, tickProfile_steady, tickCmds_none, releaseBehind_none]
    · rfl
    · exact hbehind
    · exact hcmds
    · exact hchange
  case dirBase =>
    intro fn value s hfree hp hpr hc
    refine ⟨fun hopen => ?_, fun hlocked => ?_⟩
    · exact exec_ringDirBase_write hfree hp hpr hc value
    · refine (exec_ringDirBase_write hfree hp hpr hc value).trans (congrArg _ (modFn_congr ?_))
      simp only [hlocked, if_true, id_eq]
  case coreRegister =>
    intro fn k off width value s
    rfl

end Sys2Proof.Machine

namespace Sys2Proof.Machine

/-! ### Incarnations: enable, shut-down, drain (R475 to R479, R541) -/

/-- A function runs and presents rings; no controller serves it and no freeze waits for it. -/
def RunsRings (s : State) (r : Nat) : Prop :=
  (s.fn r).st = .active ∧ (s.fn r).freeze = none ∧ ctrlOf r = none ∧ hasRings r = true

/-- A cause that is a loss of the driver orphans what the function holds; with no read outstanding it is drained at once. -/
theorem shutDown_loss {s : State} {r cause : Nat} (h : RunsRings s r) (hc : 2 ≤ cause ∧ cause ≤ 7) :
    shutDown s r cause true = loseDriver (stopping s r cause) r cause
    ∧ shutDown s r cause false = drained (loseDriver (stopping s r cause) r cause) r := by
  obtain ⟨hst, hf, hn, hr⟩ := h
  have loss : isLoss r cause = true := by simp [isLoss, hr, hc]
  simp [shutDown_runs (.inl hst) hf hn, loss]

/-- A shut-down that keeps nothing releases what the function holds; with no read outstanding it is drained at once. -/
theorem shutDown_release {s : State} {r : Nat} (h : RunsRings s r) :
    shutDown s r 1 true = releaseAll (stopping s r 1) r
    ∧ shutDown s r 1 false = drained (releaseAll (stopping s r 1) r) r := by
  obtain ⟨hst, hf, hn, -⟩ := h
  have no_loss : isLoss r 1 = false := by simp [isLoss]
  simp [shutDown_runs (.inl hst) hf hn, no_loss]

/-- The end of the drain of a function that no controller serves, with no INTx asserted, after a cause other than a function
level or hot reset (R478, R479). -/
theorem drained_plain {s : State} {r : Nat} (hst : (s.fn r).st = .draining) (hi : (s.fn r).intx = 0#2048)
    (hn : ctrlOf r = none) (hc : (s.fn r).cause ≠ 3 ∧ (s.fn r).cause ≠ 4) :
    drained s r =
      (let u := resetRegs s r
       let t := if isLoss r (s.fn r).cause then
           postAll u bothPf0 0x0202 r ((s.fn r).cause + ((s.fn r).rings.filter (fun q => q.2.st == .orphaned)).length * 2 ^ 16)
         else u
       if (s.fn r).drainVfOff && !vfThere s r then t.modFn r (fun f => { f with st := .off, rearm := false })
       else
         let v := if (s.fn r).drainVfOff then emit t (.readiness r) else t
         if (s.fn r).rearm ∨ isPf0 r then startFn v r else v) := by
  simp [drained, hst, hi, hn, hc]

/-- FN_CTRL.shutdown alone of a function that nothing holds back. -/
theorem exec_functionShutdown_plain {s : State} {fn : Nat} (hfree : heldBack s fn 0 = false) (keep reads : Bool) :
    exec (.functionShutdown fn keep false reads) s = .next (shutDown s fn (if keep then 2 else 1) reads) := by
  simp [execFunctionShutdown, gated_of_free hfree, doFnShutdown]

/-- Settles O45: the causes differ in what they change before the shut-down, which `shutDown_loss` and `shutDown_release` say
once; the end of the drain is `drained_plain`. -/
theorem incarnationsStartAndEnd : Obligations.IncarnationsStartAndEnd := by
  unfold Obligations.IncarnationsStartAndEnd
  refine ⟨?enable, ?shutdown, ?flr, ?busMaster, ?d3hot, ?lease, ?hotReset, ?vfClear, ?vfSet, ?busy, ?drained, ?bound⟩
  case enable =>
    intro fn s hfree ⟨hpf2, hvf2⟩
    refine ⟨fun hst => ?_, fun hst => ?_, fun hst hstage hpf0 => ?_⟩
    · simp [execFunctionEnable, gated_of_free hfree, doEnable, hpf2, hvf2, hst, startFn_plain (ctrlOf_none hpf2 hvf2)]
    · simp [execFunctionEnable, gated_of_free hfree, doEnable, hpf2, hvf2, hst]
    · simp [execFunctionEnable, gated_of_free hfree, doEnable, hpf2, hvf2, hst, hstage, hpf0]
  case shutdown =>
    intro fn enable s hfree hruns
    obtain ⟨lose, loseDrained⟩ := shutDown_loss (cause := 2) hruns (by decide)
    obtain ⟨release, releaseDrained⟩ := shutDown_release hruns
    simp [exec_functionShutdown_plain hfree, -exec_functionShutdown, lose, loseDrained, release, releaseDrained]
  case flr =>
    intro fn s hruns
    simp [execFlr, configWrite_of_free (configBusy_of_active hruns.1), shutDown_loss hruns]
  case busMaster =>
    intro fn s u hidle hu hruns
    simp [execBusMasterClear, configWrite_of_free hidle, ← hu, shutDown_loss hruns]
  case d3hot =>
    intro fn s u hidle hu hruns
    simp [execD3hotEntry, configWrite_of_free hidle, ← hu, shutDown_loss hruns]
  case lease =>
    intro fn s u ⟨harmed, hst, hrest⟩ hu
    have still_runs : RunsRings u fn := hu ▸ ⟨hst, hrest⟩
    simp [execLeaseExpiry, doLeaseExpiry, harmed, hst, msCycles, ← hu, shutDown_loss still_runs]
  case hotReset =>
    intro ep reads s
    simp [execHotReset, doHotReset, List.foldl_filter]
  case vfClear =>
    intro pf reads s u hidle hpf hu
    simp only [exec_vfEnableClear, execVfEnableClear, configWrite_of_free hidle, doVfDisable, hpf, ← hu, List.foldl_filter]
    simp
  case vfSet =>
    intro pf num s u hidle ⟨hpf, hoff, hnum⟩ hu
    simp only [exec_vfEnableSet, execVfEnableSet, configWrite_of_free hidle, doVfEnable, hpf, hoff, hnum, if_true, ← hu]
    exact ⟨fun hst => by simp [hst], fun hst => by simp [hst]⟩
  case busy =>
    intro fn c n b l s hbusy hc
    fin_cases hc <;> exact congrArg _ (configWrite_of_busy hbusy _)
  case drained =>
    intro fn s u ⟨hst, hintx, hctrl⟩ hcause hu
    simp only [exec_functionDrained, execFunctionDrained, drained_plain hst hintx hctrl hcause, ← hu]
    refine ⟨fun hvf hloss hrearm hpf0 => ?_, fun hvf hloss hrearm => ?_, fun hvf hloss hrearm hpf0 => ?_,
      fun hvf hgone hloss => ?_⟩
    · simp [hvf, hloss, hrearm, hpf0]
    · simp [hvf, hloss, hrearm]
    · simp [hvf, hloss, hrearm, hpf0, bothPf0]
    · simp [hvf, hgone, hloss]
  case bound =>
    intro fn s hst
    simp [execDrainBoundExpiry, doDrainBound, hst, msCycles]

/-! ### Sessions of the management port (R550, R556, R595 to R597) -/

/-- The state in which a message of a session has passed its checks: its counter has moved on and its idle limit starts anew
(R597). -/
def heard (s : State) (n : Nat) : State :=
  s.modSession n (fun k => { k with rxNext := if k.opened then k.rxNext + 1 else 0, lastMsg := s.vcycle })

/-- A message that passes its checks, and is of the command's type, takes its effect. -/
theorem onMsg_passes {s : State} {n type : Nat} {msg body : List Byte} {k : Session} (hk : oget s.trust.sessions n = some k)
    (hm : openMsg s n msg = some (type, body)) (eff : List Byte → State → State) :
    onMsg s n type msg eff = eff body (heard s n) := by
  simp [onMsg, hk, hm, heard]

/-- A message that fails a check closes the session. -/
theorem onMsg_fails {s : State} {n : Nat} {msg : List Byte} {k : Session} (hk : oget s.trust.sessions n = some k)
    (hm : openMsg s n msg = none) (type : Nat) (eff : List Byte → State → State) :
    onMsg s n type msg eff = closeSession s n := by
  simp [onMsg, hk, hm]

/-- A COMMAND with the code that its command stands for waits for the next commit tick, with the session's role (R556). -/
theorem queueCmd_waits {s : State} {n code : Nat} {msg body : List Byte} {k : Session} (hk : oget s.trust.sessions n = some k)
    (hm : openMsg s n msg = some (0x10, body)) (hc : leNat (body.take 1) = code) :
    queueCmd n code none msg {} s = (heard s n).modTrust (fun t => { t with
      cmds := t.cmds ++ [{ session := n, role := ((heard s n).session n).role, code := code, body := body.drop 1 }] }) := by
  simp [queueCmd, onMsg_passes hk hm, hc]

/-- A REG_WRITE of a shared control acts past its session's shared writes, where no earlier message waits (R604). -/
theorem exec_regWrite_shared {s : State} {n w : Nat} {pf1 : Bool} {msg body : List Byte} {k : Session}
    (hb : s.transom.behind.any (isMsgOf n) = false) (hk : oget s.trust.sessions n = some k)
    (hm : openMsg s n msg = some (0x21, body)) (hs : sharedReg (bodyCap body) (bodyOff body) = some (w, pf1)) :
    exec (.regWrite n msg) s = .next (regWriteMsg n body (heard s n)) := by
  have shared : isSharedMsg s n msg = true := by simp [isSharedMsg, hm, hs]
  simp only [exec_regWrite, execRegWrite, shared, hb, onMsg_passes hk hm, Bool.not_false, Bool.and_true, if_true]

/-- A REG_WRITE that fails a check closes its session. -/
theorem exec_regWrite_fails {s : State} {n : Nat} {msg : List Byte} {k : Session} (hw : waitsS s n = false)
    (hk : oget s.trust.sessions n = some k) (hm : openMsg s n msg = none) :
    exec (.regWrite n msg) s = .next (closeSession s n) := by
  have not_shared : isSharedMsg s n msg = false := by simp only [isSharedMsg, hm]
  simp [execRegWrite, not_shared, gatedS_of_free hw, onMsg_fails hk hm]

/-- Where the transom reaches the register, a read answers its value, or all ones where none of that width lies (R8, R597). -/
theorem regReadMsg_reached {s : State} {n : Nat} {body : List Byte}
    (hd : (regDomain (bodyCap body) (bodyOff body)).any (fun d => !reachable s d) = false) :
    (∀ w v, viewRegVal s n (bodyCap body) (bodyOff body) = some (w, v) →
      regReadMsg n body s = regResult (tickFree s) n (if w = bodyWidth body then v else 2 ^ bodyWidth body - 1) 0)
    ∧ (viewRegVal s n (bodyCap body) (bodyOff body) = none → regReadMsg n body s = regResult s n (2 ^ bodyWidth body - 1) 0) := by
  refine ⟨fun w v hv => ?_, fun hv => ?_⟩
  · simp only [regReadMsg, viewRead, hd, hv, Bool.false_eq_true, if_false]
  · simp only [regReadMsg, viewRead, hd, hv, Bool.false_eq_true, if_false]

/-- Settles O54: connecting and opening by their checks; every later message through `onMsg_passes` or `onMsg_fails`. -/
theorem sessionsOpenTakeAndClose : Obligations.SessionsOpenTakeAndClose := by
  unfold Obligations.SessionsOpenTakeAndClose
  refine ⟨?connect, ?full, ?opens, ?unverified, ?idle, ?close, ?command, ?waits, ?fails, ?read, ?readNone, ?write⟩
  case connect =>
    intro n s ⟨hrom, hfree⟩
    simp [execMgmtConnect, doConnect, hrom, hfree]
  case full =>
    intro s ⟨hrom, hfull⟩
    simp [execMgmtConnect, doConnect, hrom, hfull]
  case opens =>
    intro n role msg pub nonce key k s u ⟨hk, hclosed⟩ ⟨⟨hshort, hlong⟩, hlen, htype, hrest⟩ ⟨hrole, hnonce⟩ hkey hu
    subst hrole hnonce hu
    simp [execMgmtOpen, openSession, hk, hclosed, hlen, htype, hrest, hkey, hshort, hlong]
  case unverified =>
    intro n msg pub k s hk hkey
    simp only [exec_mgmtOpen, execMgmtOpen, openSession, hk, hkey, ite_self]
  case idle =>
    intro n k s hk
    simp only [exec_mgmtIdleTimeout, execMgmtIdleTimeout, doIdle, hk, msCycles]
  case close =>
    intro n k s t hk ht
    subst ht
    simp [execMgmtClose, closeSession, hk, State.modTrust]
  case command =>
    intro n code msg body k s u t ⟨hw, hk⟩ ⟨hm, hc⟩ hu ht
    have queued : queueCmd n code none msg {} s = t := by
      rw [queueCmd_waits hk hm hc, ht, hu]
      rfl
    refine ⟨?_, ?_, ?_, ?_, ?_, ?_, ?_⟩ <;>
    · rintro rfl
      exact congrArg _ ((gatedS_of_free hw _ _).trans queued)
  case waits =>
    intro n c msg s hw hc
    fin_cases hc <;> exact congrArg _ (gatedS_of_waits hw _ _)
  case fails =>
    intro n c msg k s ⟨hw, hk, hm⟩ hc
    have closes (type : Nat) (eff : List Byte → State → State) (i : Instr) :
        gatedS n i (fun s => onMsg s n type msg eff) s = closeSession s n :=
      (gatedS_of_free hw _ _).trans (onMsg_fails hk hm type eff)
    fin_cases hc
    on_goal 9 => exact exec_regWrite_fails hw hk hm
    all_goals exact congrArg _ (closes _ _ _)
  case read =>
    intro n w v msg b k s u ⟨hw, hk, hm⟩ hu ⟨hd, hv⟩
    have passes : onMsg s n 0x20 msg (regReadMsg n) = regReadMsg n b u := hu ▸ onMsg_passes hk hm (regReadMsg n)
    simp only [exec_regRead, execRegRead, gatedS_of_free hw, passes, (regReadMsg_reached hd).1 w v hv, regResult]
  case readNone =>
    intro n msg b k s u ⟨hw, hk, hm⟩ hu ⟨hd, hv⟩
    have passes : onMsg s n 0x20 msg (regReadMsg n) = regReadMsg n b u := hu ▸ onMsg_passes hk hm (regReadMsg n)
    simp only [exec_regRead, execRegRead, gatedS_of_free hw, passes, (regReadMsg_reached hd).2 hv, regResult]
  case write =>
    intro n w pf1 msg b k s u ⟨hb, hk, hm⟩ hu hs
    have acts : exec (.regWrite n msg) s = .next (regWriteMsg n b u) := hu ▸ exec_regWrite_shared hb hk hm hs
    rw [acts]
    refine ⟨fun hmay hwidth => ?_, fun hmay => ?_⟩
    · simp [regWriteMsg, hs, hmay, hwidth, holdShared]
    · simp [regWriteMsg, hs, hmay, regResult]

end Sys2Proof.Machine

/-! # Accelerator ports and the fabric between them (03): what their commands and events do, and the statements about them -/

namespace Sys2Proof.Machine

/-! ### Registers and state of one port -/

/-- A port that is not SHUT is not the default one. -/
theorem aport_ne_default {a : APort} (h : a.st ≠ .shut) : a ≠ {} := fun hd => h (hd ▸ rfl)

/-- An update that leaves a port in a state other than SHUT reads back. -/
theorem port_modPort_self {s : State} {p : Nat} {f : APort → APort} (h : (f (s.port p)).st ≠ .shut) :
    (s.modPort p f).port p = f (s.port p) := mget_mset_self _ _ (aport_ne_default h)

/-- The PF1 `r` owns port `p`, whose tile the transom reaches (R105, R538). -/
def OwnsPort (s : State) (r p : Nat) : Prop :=
  (isPf1 r && present s r) = true ∧ p < 8 ∧ ownerOf s p = r ∧ reachable s (aptTile p) = true

/-- A write of a per-port register by the port's owner acts (R105). -/
theorem OwnsPort.portReg_acts {s : State} {r p : Nat} (h : OwnsPort s r p) (act : State → State) :
    portReg s r p act = act s := by
  obtain ⟨hpf1, hp, howner, hreach⟩ := h
  exact portReg_owned hpf1 hp howner hreach

/-! ### Bring-up and retrain (Table 3-1) -/

/-- Enabling a SHUT port that the shutter policy allows at stage 3 opens its shutters and enters DETECT (R70). -/
theorem tryOpen_enabled {s : State} {p : Nat} (hst : (s.port p).st = .shut) (hstage : 3 ≤ s.power.stage)
    (hpol : bitAt s.trust.shutterAp p = true) :
    tryOpen (s.modPort p (fun a => { a with enable := true })) p =
      enterDetect ((s.modPort p (fun a => { a with enable := true })).modPort p (fun a =>
        { a with shutterOpen := true })) p := by
  have not_default : { s.port p with enable := true } ≠ ({} : APort) := fun hd => Bool.noConfusion (congrArg APort.enable hd)
  have enabled : (s.modPort p (fun a => { a with enable := true })).port p = { s.port p with enable := true } :=
    mget_mset_self _ _ not_default
  simp [tryOpen, enabled, shutterOk, hst, hstage, hpol]

theorem retrainIfActive_active {s : State} {p : Nat} (h : (s.port p).st = .active) :
    retrainIfActive s p = enterRetrain s p := if_pos h

/-- In DETECT light on all lanes trains at once (Table 3-1). -/
theorem checkDetect_lit {s : State} {p : Nat} (hst : (s.port p).st = .detect) (hlit : covers (s.port p).rxLight 0xFFFF = true) :
    checkDetect s p = enterTrain s p := by
  simp [checkDetect, hst, hlit]

/-- Light on all lanes trains a port in DETECT (R74). -/
theorem doRxLight_detect {s : State} {p : Nat} (hp : p < 8) (hst : (s.port p).st = .detect) :
    doRxLight p 0xFFFF s =
      enterTrain (s.modPort p (fun a => { a with rxLight := 0xFFFF, laneGood := Nat.land a.laneGood 0xFFFF })) p := by
  have lit := port_modPort_self (s := s) (p := p)
    (f := fun a => { a with rxLight := 0xFFFF, laneGood := Nat.land a.laneGood 0xFFFF }) (by simp [hst])
  have all : covers 0xFFFF 0xFFFF = true := by decide
  have mod_16 : 0xFFFF % 2 ^ 16 = 0xFFFF := by decide
  have in_range : ¬ 8 ≤ p := by omega
  have not_active : ¬ PortSt.detect = .active := by decide
  simp only [doRxLight, in_range, if_false, mod_16, lit, hst, not_active, false_and]
  exact checkDetect_lit (by rw [lit]; exact hst) (by rw [lit]; exact all)

/-- An active lane gone dark retrains an ACTIVE port (R74). -/
theorem doRxLight_active {s : State} {p lit : Nat} (hp : p < 8) (hlit : lit < 2 ^ 16) (hst : (s.port p).st = .active)
    (hdark : covers lit (widthLanes (s.port p).width) = false) :
    doRxLight p lit s =
      enterRetrain (s.modPort p (fun a => { a with rxLight := lit, laneGood := Nat.land a.laneGood lit })) p := by
  have seen := port_modPort_self (s := s) (p := p)
    (f := fun a => { a with rxLight := lit, laneGood := Nat.land a.laneGood lit }) (by simp [hst])
  have in_range : ¬ 8 ≤ p := by omega
  simp only [doRxLight, in_range, if_false, Nat.mod_eq_of_lt hlit, seen, hst, hdark, and_self, if_true]

/-- Alignment lost on an active lane retrains an ACTIVE port (R72, R74). -/
theorem doLaneLoss_active {s : State} {p lane : Nat} (hp : p < 8) (hlane : lane < 16) (hst : (s.port p).st = .active)
    (hact : bitAt (widthLanes (s.port p).width) lane = true) :
    doLaneLoss p lane s = enterRetrain (s.modPort p (fun a =>
      { a with laneGood := if bitAt a.laneGood lane then a.laneGood - 2 ^ lane else a.laneGood })) p := by
  have lost := port_modPort_self (s := s) (p := p)
    (f := fun a => { a with laneGood := if bitAt a.laneGood lane then a.laneGood - 2 ^ lane else a.laneGood }) (by simp [hst])
  have in_range : ¬ (8 ≤ p ∨ 16 ≤ lane) := by omega
  simp [doLaneLoss, in_range, lost, hst, hact]

/-- AF_RETRAIN_AT reached retrains an ACTIVE port and clears the register (R112). -/
theorem doRetrainAt_active {s : State} {p : Nat} (hat : (s.port p).retrainAt ≠ 0) (hst : (s.port p).st = .active) :
    doRetrainAt p s =
      enterRetrain ((advanceToPtp s (s.port p).retrainAt).modPort p (fun a => { a with retrainAt := 0 })) p := by
  have cleared := port_modPort_self (s := advanceToPtp s (s.port p).retrainAt) (p := p)
    (f := fun a => { a with retrainAt := 0 }) (hst.trans_ne (by decide))
  simp only [doRetrainAt, hat, if_false]
  exact retrainIfActive_active (by rw [cleared]; exact hst)

/-- Settles O12: each event is one step of Table 3-1, said by the lemma about it above or by its definition's one branch. -/
theorem portBringUpAndRetrain : Obligations.PortBringUpAndRetrain := by
  unfold Obligations.PortBringUpAndRetrain
  refine ⟨?enable, ?disable, ?retrain, ?light, ?dark, ?half, ?loss, ?train, ?giveUp, ?down, ?widen, ?retrainAt, ?lane⟩
  case enable =>
    intro fn p s hfree hpf1 hp howner hreach hst hstage hpol
    have owned : OwnsPort s fn p := ⟨hpf1, hp, howner, hreach⟩
    simp only [exec_portEnable, execPortEnable, gated_of_free hfree, doPortEnable, owned.portReg_acts,
      tryOpen_enabled hst hstage hpol]
  case disable =>
    intro fn p s hfree hpf1 hp howner hreach
    have owned : OwnsPort s fn p := ⟨hpf1, hp, howner, hreach⟩
    simp only [exec_portDisable, execPortDisable, gated_of_free hfree, doPortDisable, owned.portReg_acts]
  case retrain =>
    intro fn p s hfree hpf1 hp howner hreach hst
    have owned : OwnsPort s fn p := ⟨hpf1, hp, howner, hreach⟩
    simp only [exec_portRetrain, execPortRetrain, gated_of_free hfree, owned.portReg_acts, retrainIfActive_active hst]
  case light =>
    intro p lit s hp hst hlit
    have lit_all : lit.toNat = 0xFFFF := by rw [hlit]; decide
    rw [exec_rxLightChange, execRxLightChange, lit_all, doRxLight_detect hp hst]
  case dark =>
    intro p lit s hp hst hdark
    exact congrArg _ (doRxLight_active hp lit.isLt hst hdark)
  case half =>
    intro p h t s hst hhalf
    simp only [exec_detectHalfTimeout, execDetectHalfTimeout, doDetectHalf, hst, hhalf]
  case loss =>
    intro p due s hst hdark hdue
    subst hdue
    cases hlast : (s.port p).lastLol <;>
      simp only [exec_lossOfLight, execLossOfLight, doLossOfLight, hst, hdark, hlast, and_self, if_true]
  case train =>
    intro p s hst
    simp only [exec_trainTimeout, execTrainTimeout, doTrainTimeout, hst, if_true]
  case giveUp =>
    intro p s hst
    simp only [exec_retrainTimeout, execRetrainTimeout, doRetrainTimeout, hst, if_true]
  case down =>
    intro p s hst
    simp only [exec_downTimeout, execDownTimeout, hst, if_true]
  case widen =>
    intro p t s hst hat
    refine ⟨fun hlit => ?_, fun hdark => ?_⟩
    · simp only [exec_widenCheck, execWidenCheck, doWidenCheck, hst, hat, hlit, if_true]
    · simp only [exec_widenCheck, execWidenCheck, doWidenCheck, hst, hat, hdark, Bool.false_eq_true, if_false]
  case retrainAt =>
    intro p s hat hst
    exact congrArg _ (doRetrainAt_active hat hst)
  case lane =>
    intro p lane s hp hlane hst hact
    exact congrArg _ (doLaneLoss_active hp hlane hst hact)

/-! ### Gate lists, credits and alerts (R87, R88, R108, R109, R114) -/

/-- Four credit fields are kept where each has at least 4 units and together they have at most 128 (R87). -/
def CreditsFit (v : Nat) : Prop :=
  (∀ k, k < 4 → 4 ≤ fld v (8 * k) 8) ∧ fld v 0 8 + fld v 8 8 + fld v 16 8 + fld v 24 8 ≤ 128

theorem creditsFit_iff (v : Nat) : CreditsFit v ↔
    (4 ≤ fld v 0 8 ∧ 4 ≤ fld v 8 8 ∧ 4 ≤ fld v 16 8 ∧ 4 ≤ fld v 24 8)
      ∧ fld v 0 8 + fld v 8 8 + fld v 16 8 + fld v 24 8 ≤ 128 := by
  refine and_congr_left' ⟨fun h => ⟨h 0 (by decide), h 1 (by decide), h 2 (by decide), h 3 (by decide)⟩, ?_⟩
  rintro ⟨h0, h1, h2, h3⟩ k hk
  interval_cases k <;> assumption

/-- A write of AF_VC_CREDITS is kept for the next CREDIT_INIT where its fields fit, and else sets bad_credit (R87, R88). -/
theorem doVcCredits_owned {s : State} {r p : Nat} (h : OwnsPort s r p) (v : Nat) :
    (CreditsFit v → doVcCredits r p v s = s.modPort p (fun a => { a with vcCredits := v }))
    ∧ (¬ CreditsFit v → doVcCredits r p v s = s.modPort p (fun a => { a with badCredit := true })) := by
  have unfit : ([fld v 0 8, fld v 8 8, fld v 16 8, fld v 24 8].any (· < 4) = true
      ∨ 128 < [fld v 0 8, fld v 8 8, fld v 16 8, fld v 24 8].foldl (· + ·) 0) ↔ ¬ CreditsFit v := by
    simp only [creditsFit_iff, List.any_cons, List.any_nil, List.foldl_cons, List.foldl_nil, Bool.or_false,
      Bool.or_eq_true, decide_eq_true_eq]
    omega
  simp only [doVcCredits, h.portReg_acts]
  exact ⟨fun hfit => if_neg (mt unfit.1 (not_not_intro hfit)), fun hbad => if_pos (unfit.2 hbad)⟩

/-- Settles O15: a credit write by `doVcCredits_owned`, a gate commit by the two outcomes of `gateFault`; a pending list, an
entry's end and an alert have one branch each. -/
theorem gatesCreditsAndAlerts : Obligations.GatesCreditsAndAlerts := by
  unfold Obligations.GatesCreditsAndAlerts
  refine ⟨?commit, ?credits, ?takePort, ?takeNet, ?advancePort, ?advanceNet, ?alert⟩
  case commit =>
    intro fn p s hfree hpf1 hp howner hreach
    have owned : OwnsPort s fn p := ⟨hpf1, hp, howner, hreach⟩
    simp only [exec_afGateCommit, execAfGateCommit, gated_of_free hfree, doAfGateCommit, owned.portReg_acts]
    exact ⟨fun hvalid => by simp only [hvalid], fun e hb hfault => by simp only [hfault]⟩
  case credits =>
    intro fn p units s hfree hpf1 hp howner hreach
    obtain ⟨kept, refused⟩ := doVcCredits_owned ⟨hpf1, hp, howner, hreach⟩ units.toNat
    simp only [exec_vcCreditsWrite, execVcCreditsWrite, gated_of_free hfree]
    refine ⟨fun hfit => congrArg _ (kept hfit), fun hbad => congrArg _ (refused ?_)⟩
    rintro ⟨least, total⟩
    rcases hbad with ⟨k, hk, hsmall⟩ | hmany
    · exact absurd (least k hk) (by omega)
    · omega
  case takePort =>
    intro n g s s1 hpend hs1
    subst hs1
    simp only [exec_gateListTakeEffect, execGateListTakeEffect, doGateTake, hpend, if_true]
  case takeNet =>
    intro n g s s1 hpend hs1
    subst hs1
    simp only [exec_gateListTakeEffect, execGateListTakeEffect, doGateTake, hpend, Bool.false_eq_true, if_false]
  case advancePort =>
    intro n g s hoper
    simp only [exec_gateEntryAdvance, execGateEntryAdvance, doGateAdvance, hoper, if_true]
  case advanceNet =>
    intro n g s hoper
    simp only [exec_gateEntryAdvance, execGateEntryAdvance, doGateAdvance, hoper, Bool.false_eq_true, if_false]
  case alert =>
    intro p s hp hon
    have sampled : ¬ (8 ≤ p ∨ domOn s (aptTile p) = false) := by simp [hon]; omega
    refine ⟨fun hquiet => ?_, ?_⟩
    · simp only [exec_accelAlert, execAccelAlert, doAlert, sampled, hquiet, Bool.not_false, Bool.and_true, if_true, if_false]
    · simp only [exec_accelAlert, execAccelAlert, doAlert, sampled, Bool.false_and, Bool.false_eq_true, if_false]

/-! ### Training flits, received flits, replay runs (R74 to R89) -/

/-- A flit of 256 bytes whose CRC is right (R80). -/
def FlitGood (fl : List Byte) : Prop := fl.length = 256 ∧ crc32c (fl.take 252) = leNat (fl.drop 252)

/-- A flit of 256 bytes whose CRC is wrong (R80). -/
def FlitSpoilt (fl : List Byte) : Prop := fl.length = 256 ∧ crc32c (fl.take 252) ≠ leNat (fl.drop 252)

theorem receiving_active {a : APort} (h : a.st = .active) : receiving a = true := by simp [receiving, h]

/-- A training flit whose CRC is wrong is counted where the port receives, and ignored (R75, R89). -/
theorem doTraining_spoilt {s : State} {p : Nat} {fl : List Byte} (hp : p < 8) (hfl : FlitSpoilt fl) (own : Nat) :
    doTraining p own fl s =
      if receiving (s.port p) then s.modPort p (fun a => { a with crcErr := satAdd 32 a.crcErr 1 }) else s := by
  obtain ⟨hlen, hcrc⟩ := hfl
  have whole_flit : ¬ (8 ≤ p ∨ fl.length ≠ 256) := by omega
  simp only [doTraining, whole_flit, hcrc, if_false, ne_eq, not_false_eq_true, if_true]

/-- A training flit's masks are exchanged: the port keeps the lanes that it finds good and those of its peer (R75). -/
def masksTaken (s : State) (p own slot : Nat) : State :=
  s.modPort p (fun a => { a with laneGood := own, peerGood := fld slot 0 16 })

/-- Where a training flit says ready, the peer's credits are taken (R87). -/
def readyTaken (s : State) (p slot : Nat) : State :=
  if bitAt slot 18 = true then s.modPort p (fun a => { a with peerReady := true, peerCredits := fld slot 24 32 }) else s

/-- A training flit in TRAIN exchanges masks: with a width that both ends allow CREDIT_INIT is entered, and ACTIVE where both
ends are ready; without one it is answered (R74 to R76). -/
theorem doTraining_train {s : State} {p own : Nat} {fl : List Byte} (hp : p < 8) (hfl : FlitGood fl)
    (htype : fld (leNat (fl.take 8)) 0 2 = 2) (hst : (s.port p).st = .train) (hown : own < 2 ^ 16) :
    doTraining p own fl s =
      (let slot := leNat (sliceB fl 8 16)
       let s1 := masksTaken s p own slot
       let w := chooseWidth own (fld slot 0 16)
       if w = 0 then sendTraining s1 p else checkReadyPort (enterCreditInit (readyTaken s1 p slot) p w) p) := by
  obtain ⟨hlen, hcrc⟩ := hfl
  have whole_flit : ¬ (8 ≤ p ∨ fl.length ≠ 256) := by omega
  simp only [doTraining, whole_flit, hcrc, htype, hst, Nat.mod_eq_of_lt hown, if_false, ne_eq, not_true_eq_false, masksTaken,
    readyTaken]

/-- A flit whose CRC is wrong is counted wherever the port receives, and asks for a retry in ACTIVE (R85, R89). -/
theorem doFlitRx_spoilt {s : State} {p : Nat} {fl : List Byte} (hp : p < 8) (hrx : receiving (s.port p) = true)
    (hfl : FlitSpoilt fl) :
    doFlitRx p fl s = s.modPort p (fun a =>
      { a with crcErr := satAdd 32 a.crcErr 1, retry := a.retry || a.st == .active }) := by
  obtain ⟨hlen, hcrc⟩ := hfl
  have taken : ¬ (8 ≤ p ∨ receiving (s.port p) = false ∨ fl.length ≠ 256) := by simp [hrx, hlen, hp]
  simp only [doFlitRx, taken, hcrc, if_false, ne_eq, not_false_eq_true, if_true]

/-- What the header and trailer of a flit change in an ACTIVE port that receives it: flits acknowledged, credits freed, a replay
asked for (R81, R85, R86). -/
def countsTaken (fl : List Byte) (a : APort) : APort :=
  let b := freedCredits (acked a (fld (leNat (fl.take 8)) 16 12)) (sliceB fl 248 4)
  if bitAt (leNat (fl.take 8)) 28 then { b with replayAsked := true } else b

/-- What a DATA flit in sequence on a channel changes in the port that receives it (R85, R86). -/
def dataCounted (vc : Nat) (a : APort) : APort :=
  { a with
    rxNext := (a.rxNext + 1) % 4096, retry := false, rxUnacked := a.rxUnacked + 1
    rxCount := a.rxCount.set vc (lget a.rxCount vc 0 + 1) }

/-- The 15 slots of a flit are taken in order (R82). -/
def slotsTaken (p vc : Nat) (fl : List Byte) (s : State) : State :=
  (List.range 15).foldl (fun s i => takeSlot p vc s (sliceB fl (8 + 16 * i) 16)) s

/-- A good flit that an ACTIVE port receives and that is no training flit: its counts are taken, and the slots of a DATA flit in
sequence (R80 to R86). -/
theorem doFlitRx_active {s : State} {p : Nat} {fl : List Byte} (hp : p < 8) (hst : (s.port p).st = .active) (hfl : FlitGood fl)
    (htype : fld (leNat (fl.take 8)) 0 2 < 2) :
    doFlitRx p fl s =
      (let s1 := s.modPort p (countsTaken fl)
       let vc := fld (leNat (fl.take 8)) 2 2
       let s3 := slotsTaken p vc fl (s1.modPort p (dataCounted vc))
       if fld (leNat (fl.take 8)) 0 2 = 0 then s1
       else if fld (leNat (fl.take 8)) 4 12 ≠ (s.port p).rxNext then s1.modPort p (fun a => { a with retry := true })
       else if 32 ≤ (s3.port p).rxUnacked then doAckTimer p s3 else s3) := by
  obtain ⟨hlen, hcrc⟩ := hfl
  have taken : ¬ (8 ≤ p ∨ receiving (s.port p) = false ∨ fl.length ≠ 256) := by
    simp [receiving_active hst, hlen, hp]
  have no_training : fld (leNat (fl.take 8)) 0 2 ≠ 2 ∧ fld (leNat (fl.take 8)) 0 2 ≠ 3 := by omega
  simp only [doFlitRx, taken, hcrc, no_training, hst, if_false, ne_eq, not_true_eq_false, or_self]
  rfl

/-- A DATA flit in sequence is taken slot by slot; before 32 of them wait for an acknowledgement nothing is sent (R82, R86). -/
theorem doFlitRx_inSequence {s s2 s3 : State} {p vc : Nat} {fl : List Byte} (hp : p < 8) (hst : (s.port p).st = .active)
    (hfl : FlitGood fl) (htype : fld (leNat (fl.take 8)) 0 2 = 1) (hseq : fld (leNat (fl.take 8)) 4 12 = (s.port p).rxNext)
    (hvc : fld (leNat (fl.take 8)) 2 2 = vc) (hs2 : s2 = (s.modPort p (countsTaken fl)).modPort p (dataCounted vc))
    (hs3 : s3 = slotsTaken p vc fl s2) (hfew : (s3.port p).rxUnacked < 32) : doFlitRx p fl s = s3 := by
  rw [doFlitRx_active hp hst hfl (by omega)]
  simp only [htype, hseq, hvc, ← hs2, ← hs3, ne_eq, not_true_eq_false, one_ne_zero, Nat.not_le.2 hfew, if_false]

/-- With no DATA flit ready an ACTIVE port sends an IDLE flit (R86). -/
theorem doAckTimer_active {s : State} {p : Nat} (hst : (s.port p).st = .active) :
    doAckTimer p s = sendFlit s p (mkFlit (s.port p) 0 0 0 0 []) := by
  simp only [doAckTimer, hst, ne_eq, not_true_eq_false, if_false]

/-- Sequence number at which a replay run begins: the oldest DATA flit not acknowledged, or the next one where there is none. -/
def replayFrom (a : APort) : Nat := (a.unacked.head?).elim a.txSeq TxFlit.seq

/-- A replay run that was asked for resends what is not acknowledged, and its eighth at one oldest flit retrains (R89). -/
theorem doReplayRun_asked {s s1 : State} {p n : Nat} (hst : (s.port p).st = .active) (hasked : (s.port p).replayAsked = true)
    (hn : n = if (s.port p).runAt = replayFrom (s.port p) ∧ (s.port p).runs ≠ 0 then (s.port p).runs + 1 else 1)
    (hs1 : s1 = resendAll p (s.modPort p (fun a =>
      { a with replayAsked := false, runs := n, runAt := replayFrom (s.port p) }))) :
    doReplayRun p s = if 8 ≤ n then enterRetrain (s1.modPort p (fun a => { a with runs := 0 })) p else s1 := by
  have runs : ¬ ((s.port p).st ≠ .active ∨ (!(s.port p).replayAsked) = true) := by simp [hst, hasked]
  subst hs1 hn
  cases hun : (s.port p).unacked <;>
    simp only [doReplayRun, runs, hun, replayFrom, List.head?_nil, List.head?_cons, Option.elim_none, Option.elim_some, if_false]

/-- Settles O13: each kind of flit by the lemma about its reception, a replay run by `doReplayRun_asked`. -/
theorem portTrainingAndLinkRetry : Obligations.PortTrainingAndLinkRetry := by
  unfold Obligations.PortTrainingAndLinkRetry
  refine ⟨?training, ?trainingSpoilt, ?spoilt, ?idle, ?outOfSequence, ?data, ?ack, ?replay⟩
  case training =>
    intro p w good fl s s1 s2 hp hlen hcrc htype hst hs1 hs2 hw
    subst hs1 hs2 hw
    simp only [exec_trainingFlitRx, execTrainingFlitRx, doTraining_train hp ⟨hlen, hcrc⟩ htype hst good.isLt]
    exact ⟨fun hwidth => congrArg _ (if_neg hwidth), fun hnone => congrArg _ (if_pos hnone)⟩
  case trainingSpoilt =>
    intro p good fl s hp hlen hcrc
    simp only [exec_trainingFlitRx, execTrainingFlitRx, doTraining_spoilt hp ⟨hlen, hcrc⟩]
    exact ⟨fun hrx => congrArg _ (if_pos hrx), fun hdeaf => by simp only [hdeaf, Bool.false_eq_true, if_false]⟩
  case spoilt =>
    intro p fl s hp hrx hlen hcrc
    exact congrArg _ (doFlitRx_spoilt hp hrx ⟨hlen, hcrc⟩)
  case idle =>
    intro p fl s hp hst hlen hcrc htype
    have received := doFlitRx_active hp hst ⟨hlen, hcrc⟩ (by omega)
    simp only [htype, if_true] at received
    exact congrArg _ received
  case outOfSequence =>
    intro p fl s hp hst hlen hcrc htype hseq
    have received := doFlitRx_active hp hst ⟨hlen, hcrc⟩ (by omega)
    simp only [htype, hseq, ne_eq, not_false_eq_true, if_true, one_ne_zero, if_false] at received
    exact congrArg _ received
  case data =>
    intro p fl s s2 s3 hp hst hlen hcrc htype hseq hs2 hs3 hfew
    exact congrArg _ (doFlitRx_inSequence hp hst ⟨hlen, hcrc⟩ htype hseq rfl hs2 hs3 hfew)
  case ack =>
    intro p s hst
    exact congrArg _ (doAckTimer_active hst)
  case replay =>
    intro p oldest n s s1 hst hasked holdest hn hs1
    have from_oldest : oldest = replayFrom (s.port p) := by
      cases hun : (s.port p).unacked <;> simp only [holdest, hun, replayFrom, List.head?_nil, List.head?_cons, Option.elim]
    subst from_oldest
    rw [exec_replayRun, execReplayRun, doReplayRun_asked hst hasked hn hs1]
    exact ⟨fun hfew => congrArg _ (if_neg (Nat.not_le.2 hfew)), fun hmany => congrArg _ (if_pos hmany)⟩

/-! ### Transactions through the switch (R84, R92 to R107) -/

theorem portUp_not_shut {a : APort} (h : portUp a = true) : a.st ≠ .shut := by
  intro hshut
  simp [portUp, hshut] at h

/-- A port whose transactions the switch takes: it is up (R96). -/
def Sends (s : State) (p : Nat) : Prop := p < 8 ∧ portUp (s.port p) = true

theorem Sends.heard {s : State} {p : Nat} (h : Sends s p) : ¬ (8 ≤ p ∨ portUp (s.port p) = false) := by
  obtain ⟨hp, hup⟩ := h
  simp [hp, hup]

/-- WRITE, WRITE_ACKED and READ as they come from a port's accelerator (Table 3-5). -/
def writeTxn (addr : Nat) (data : List Byte) : Txn := { op := 0x10, length := data.length, addr := addr, data := data }
def writeAckedTxn (tag addr : Nat) (data : List Byte) : Txn :=
  { op := 0x18, length := data.length, tag := tag, addr := addr, data := data }
def readTxn (tag addr length : Nat) : Txn := { op := 0x20, length := length, tag := tag, addr := addr }

/-- A transaction of 1 to 256 bytes across no 4 KiB boundary (R84). -/
def SizeOk (t : Txn) : Prop := 1 ≤ t.length ∧ t.length ≤ 256 ∧ crosses4k t.addr t.length = false

/-- A whole transaction that passes the ingress checks passes the tap and is taken up (R84). -/
theorem ingressTxn_passes {s : State} {p : Nat} {t : Txn} (hp : Sends s p) (ht : SizeOk t) :
    ingressTxn p t s = (startTxn (apRx s p t) p (lget (s.port p).rxCount (vcOf t.op) 0) t).1 := by
  obtain ⟨hlow, hhigh, hcross⟩ := ht
  have fits : ¬ (t.length < 1 ∨ 256 < t.length ∨ crosses4k t.addr t.length = true) := by simp [hcross]; omega
  simp only [ingressTxn, hp.heard, fits, if_false, apRx_port]

/-- A request of a bad length is dropped, counted and answered 0x06 (R84). -/
theorem ingressTxn_badLength {s : State} {p : Nat} {t : Txn} (hp : Sends s p)
    (hlen : t.length = 0 ∨ 256 < t.length) (hreq : isRequest t = true) :
    ingressTxn p t s = engineCpl (dropAt s p) p t.tag 0x06 p := by
  have bad : t.length < 1 ∨ 256 < t.length ∨ crosses4k t.addr t.length = true := by omega
  simp only [ingressTxn, hp.heard, bad, hreq, if_false, if_true]

/-- Translation reads the port's active set alone: the tap changes nothing of it. -/
theorem translate_apRx (s : State) (p q : Nat) (t u : Txn) : Machine.translate (apRx s q u) p t = Machine.translate s p t := by
  simp only [Machine.translate, apRx_port]

/-- Enabled unicast ingress window `n` of port `p` is the one that a transaction's address matches, and has its right (R99). -/
structure UnicastWindow (s : State) (p : Nat) (t : Txn) (n : Nat) : Prop where
  matched : matchWin (s.port p).activeSet t.addr = some n
  unicast : fld (inWin (s.port p).activeSet n).2.2 6 2 = 1
  right : bitAt (inWin (s.port p).activeSet n).2.2 (if t.op = 0x20 then 11 else 12) = true

/-- Port that window `n` of port `p` leads to, and address there of an address that it matches (R99). -/
def windowDest (s : State) (p n : Nat) : Nat := fld (inWin (s.port p).activeSet n).2.2 8 3
def windowAddr (s : State) (p n addr : Nat) : Nat :=
  ((inWin (s.port p).activeSet n).2.1 + (addr - (inWin (s.port p).activeSet n).1)) % 2 ^ 64

/-- A unicast window with the right names one destination, with the address there (R99, R103). -/
theorem translate_unicast {s : State} {p n : Nat} {t : Txn} (h : UnicastWindow s p t n) :
    Machine.translate s p t = some ([(windowDest s p n, windowAddr s p n t.addr)], false) := by
  obtain ⟨hwin, hkind, hright⟩ := h
  have right : (if t.op = 0x20 then bitAt (inWin (s.port p).activeSet n).2.2 11
      else bitAt (inWin (s.port p).activeSet n).2.2 12) = true := by
    split <;> simp_all
  simp [Machine.translate, hwin, hkind, right, windowDest, windowAddr]

/-- The payload of a transaction has passed the receive tap, and one more transaction number is taken. -/
def arrived (s : State) (p : Nat) (t : Txn) : State :=
  { apRx s p t with fabric := { s.fabric with nextTxn := s.fabric.nextTxn + 1 } }

@[simp] theorem arrived_port (s : State) (p q : Nat) (t : Txn) : (arrived s p t).port q = s.port q := apRx_port s p q t

/-- A transaction of a port as it is offered to the switch: named, translated, of the port's present generation. -/
def offered (s : State) (p : Nat) (t : Txn) (ds : List (Nat × Nat)) (m : Bool) : Wait :=
  { txn := t, id := s.fabric.nextTxn, at_ := lget (s.port p).rxCount (vcOf t.op) 0, dests := ds, multi := m
    gen := (s.port p).activeGen }

/-- A transaction that passes the ingress checks and translates is numbered and offered to the switch (R84, R103). -/
theorem ingressTxn_translates {s : State} {p : Nat} {t : Txn} {ds : List (Nat × Nat)} {m : Bool}
    (hp : Sends s p) (ht : SizeOk t) (hport : t.port = 0)
    (h : Machine.translate s p t = some (ds, m)) : ingressTxn p t s = enter (arrived s p t) p (offered s p t ds m) := by
  have same : { t with port := 0 } = t := by cases t; cases hport; rfl
  simp only [ingressTxn_passes hp ht, startTxn, translate_apRx, h, same, apRx_fabric, apRx_port]
  rfl

/-- Nothing that waits at an ingress holds back a transaction there if nothing waits. -/
theorem enter_empty {s s' : State} {p : Nat} {w : Wait} (hidle : (s.port p).ingress = []) (hplace : placeTxn s p w = some s') :
    enter s p w = s' := by
  simp only [enter, hidle, behindAt, List.any_nil, Bool.false_eq_true, if_false, hplace]

/-- A WRITE waits behind those of its own channel alone (R93). -/
theorem behindAt_write {ws : List Wait} {w : Wait} (hop : w.txn.op = 0x10) :
    behindAt ws w = ws.any (fun x => vcOf x.txn.op == 0) := by
  have channel : vcOf w.txn.op = 0 := by rw [hop]; rfl
  have no_request : isRequest w.txn = false := by simp [isRequest, hop]
  simp only [behindAt, channel, no_request, Bool.and_false, Bool.false_and, Bool.or_false]

/-- A WRITE with nothing of its channel before it is copied to each destination, or waits while one that is up has no room
(R92, R94). -/
theorem enter_write {s : State} {p : Nat} {w : Wait} (hop : w.txn.op = 0x10)
    (hfirst : (s.port p).ingress.any (fun x => vcOf x.txn.op == 0) = false) :
    enter s p w = if w.dests.any (fun d => portUp (s.port d.1) && !egressRoom (s.port d.1) w.txn) then waitAt s p w
      else w.dests.foldl (copyTo p w) s := by
  have no_request : isRequest w.txn = false := by simp [isRequest, hop]
  simp only [enter, behindAt_write hop, hfirst, placeTxn, no_request, Bool.false_eq_true, if_false]
  by_cases full : w.dests.any (fun d => portUp (s.port d.1) && !egressRoom (s.port d.1) w.txn) = true
  · simp only [full, if_true]
  · simp only [Bool.eq_false_iff.2 full, Bool.false_eq_true, if_false]

/-- A copy for a port that is up enters its egress (R94). -/
theorem copyTo_up {s : State} {p : Nat} {w : Wait} {d : Nat × Nat} (h : portUp (s.port d.1) = true) :
    copyTo p w s d = pushEgress s d.1 { cls := 0, vc := vcOf w.txn.op, src := p, gen := w.gen, id := w.id
                                        txn := { w.txn with port := p, addr := d.2 } } := if_pos h

/-- A port can take a transaction: it is up and its egress has room (R92, R96). -/
def TakesTxn (a : APort) (t : Txn) : Prop := portUp a = true ∧ egressRoom a t = true

/-- A request can be tracked at a port: no request of the same tag is, and the table has room (R95). -/
def Trackable (a : APort) (k : Tracked) : Prop := a.tracked.contains k = false ∧ a.tracked.length < 4096

/-- A request for one destination that can take and track it is tracked there and enters its egress (R95). -/
theorem placeTxn_request {s : State} {p dest addr : Nat} {w : Wait} (hreq : isRequest w.txn = true)
    (hd : w.dests = [(dest, addr)]) (htake : TakesTxn (s.port dest) w.txn)
    (htrack : Trackable (s.port dest) { src := p, tag := w.txn.tag }) :
    placeTxn s p w = some (pushEgress
      (s.modPort dest (fun a => { a with tracked := a.tracked ++ [{ src := p, tag := w.txn.tag }] })) dest
      { cls := 0, vc := vcOf w.txn.op, src := p, gen := w.gen, id := w.id
        txn := { w.txn with port := p, addr := addr } }) := by
  obtain ⟨hup, hroom⟩ := htake
  obtain ⟨hnew, hspace⟩ := htrack
  have space : ¬ (4096 ≤ (s.port dest).tracked.length ∨ egressRoom (s.port dest) w.txn = false) := by simp [hroom]; omega
  have still_up : portUp ((s.modPort dest (fun a =>
      { a with tracked := a.tracked ++ [{ src := p, tag := w.txn.tag }] })).port dest) = true := by
    rw [port_modPort_self (portUp_not_shut hup)]
    exact hup
  simp only [placeTxn, hreq, hd, List.head?_cons, Option.getD_some, hup, hnew, space, Bool.not_true, Bool.false_eq_true,
    if_true, if_false, List.foldl_cons, List.foldl_nil, copyTo_up (d := (dest, addr)) still_up]

/-- A transaction with nothing waiting at its ingress finds nothing of its channel there either. -/
theorem first_of_empty {ws : List Wait} (h : ws = []) : ws.any (fun x => vcOf x.txn.op == 0) = false := by simp [h]

/-- A WRITE that translates, with nothing of its channel before it, is copied to each destination, or waits while one that is up
has no room (R92, R94). -/
theorem ingressTxn_write {s : State} {p : Nat} {t : Txn} {ds : List (Nat × Nat)} {m : Bool}
    (hp : Sends s p) (ht : SizeOk t) (hport : t.port = 0) (hop : t.op = 0x10)
    (htr : Machine.translate s p t = some (ds, m)) (hfirst : (s.port p).ingress.any (fun x => vcOf x.txn.op == 0) = false) :
    ingressTxn p t s = if ds.any (fun d => portUp (s.port d.1) && !egressRoom (s.port d.1) t)
      then waitAt (arrived s p t) p (offered s p t ds m)
      else ds.foldl (copyTo p (offered s p t ds m)) (arrived s p t) := by
  have first : ((arrived s p t).port p).ingress.any (fun x => vcOf x.txn.op == 0) = false := by rw [arrived_port]; exact hfirst
  rw [ingressTxn_translates hp ht hport htr, enter_write hop first]
  simp only [arrived_port, offered]

/-- A WRITE that a unicast window with the write right matches goes to that window's destination (R99). -/
theorem ingressTxn_unicastWrite {s : State} {p n : Nat} {t : Txn} (hp : Sends s p) (ht : SizeOk t)
    (hop : t.op = 0x10) (hidle : (s.port p).ingress = []) (hport : t.port = 0) (hwin : UnicastWindow s p t n)
    (htake : TakesTxn (s.port (windowDest s p n)) t) :
    ingressTxn p t s = pushEgress (arrived s p t) (windowDest s p n)
      { cls := 0, vc := vcOf t.op, src := p, gen := (s.port p).activeGen, id := s.fabric.nextTxn
        txn := { t with port := p, addr := windowAddr s p n t.addr } } := by
  obtain ⟨hup, hroom⟩ := htake
  have up : portUp ((arrived s p t).port (windowDest s p n)) = true := by rw [arrived_port]; exact hup
  rw [ingressTxn_write hp ht hport hop (translate_unicast hwin) (first_of_empty hidle)]
  simp only [List.any_cons, List.any_nil, hroom, Bool.not_true, Bool.and_false, Bool.or_false, Bool.false_eq_true, if_false,
    List.foldl_cons, List.foldl_nil]
  exact copyTo_up up

/-- A request that a unicast window with its right matches is tracked at that window's destination and goes there (R95, R99). -/
theorem ingressTxn_request {s : State} {p n : Nat} {t : Txn} (hp : Sends s p) (ht : SizeOk t)
    (hreq : isRequest t = true) (hidle : (s.port p).ingress = []) (hport : t.port = 0) (hwin : UnicastWindow s p t n)
    (htake : TakesTxn (s.port (windowDest s p n)) t)
    (htrack : Trackable (s.port (windowDest s p n)) { src := p, tag := t.tag }) :
    ingressTxn p t s = pushEgress ((arrived s p t).modPort (windowDest s p n)
        (fun a => { a with tracked := a.tracked ++ [{ src := p, tag := t.tag }] })) (windowDest s p n)
      { cls := 0, vc := vcOf t.op, src := p, gen := (s.port p).activeGen, id := s.fabric.nextTxn
        txn := { t with port := p, addr := windowAddr s p n t.addr } } := by
  have idle : ((arrived s p t).port p).ingress = [] := by rw [arrived_port]; exact hidle
  rw [ingressTxn_translates hp ht hport (translate_unicast hwin)]
  exact enter_empty idle (placeTxn_request hreq rfl (by rw [arrived_port]; exact htake) (by rw [arrived_port]; exact htrack))

/-- A WRITE that no window matches is dropped, counted and recorded as a window miss (R100). -/
theorem ingressTxn_writeMiss {s : State} {p : Nat} {t : Txn} (hp : Sends s p) (ht : SizeOk t)
    (hop : t.op = 0x10) (hmiss : matchWin (s.port p).activeSet t.addr = none) :
    ingressTxn p t s = windowMiss (dropAt (apRx s p t) p) p t.addr := by
  have untranslated : Machine.translate (apRx s p t) p t = none := by simp only [Machine.translate, apRx_port, hmiss]
  have no_request : isRequest t = false := by simp [isRequest, hop]
  simp only [ingressTxn_passes hp ht, startTxn, untranslated, failTranslate, no_request, Bool.false_eq_true, if_false]

/-- A CPL that matches a tracked request frees it and goes to its requester (R95). -/
theorem doFabricCpl_tracked {s : State} {p toPort tag status : Nat} {data : List Byte} (hp : Sends s p)
    (hlen : data.length ≤ 256) (htracked : (s.port p).tracked.contains { src := toPort, tag := tag } = true) :
    doFabricCpl p toPort tag status data s = retryIngress (enter
      ((arrived s p { op := 0x30, data := data }).modPort p (fun a =>
        { a with tracked := a.tracked.erase { src := toPort, tag := tag } })) p
      { txn := { op := 0x30, length := data.length, port := toPort, tag := tag, status := status, data := data }
        id := s.fabric.nextTxn, at_ := lget (s.port p).rxCount 2 0, dests := [(toPort, 0)] }) := by
  simp only [doFabricCpl, hp.heard, Nat.not_lt.2 hlen, startCpl, apRx_port, htracked, apRx_fabric, Bool.not_true,
    Bool.false_eq_true, if_false]
  rfl

/-! ### Departures (R92, R107, R110) -/

/-- What deficit round robin chooses leaves the egress whole, or as many of its flits as may leave; the last one frees room
(R92, R107, R110). -/
theorem doEgressDepart_chosen {s t u : State} {p i pos n k : Nat} {d : List Nat} {e : Egress} (hst : (s.port p).st = .active)
    (hdrr : drr s (s.port p) 4100 (s.port p).deficit (s.port p).rrPos (s.port p).rrGranted = some (i, d, pos))
    (he : e = lget (s.port p).egress i {}) (hn : n = canLeave s (s.port p) ((s.port p).egress.take i) e)
    (hk : k = min (15 * n) (slotsIn e - e.sent))
    (ht : t = sendData p e.vc n (e.sent == 0) (((txnSlots (tagged (s.port p) e)).drop (16 * e.sent)).take (16 * k))
      (s.modPort p (fun a => { a with
        deficit := d, rrPos := pos, rrGranted := true
        engTag := match e.eng with | .read _ => (a.engTag + 1) % 2 ^ 16 | _ => a.engTag
        egress := if slotsOf e.txn ≤ e.sent + k then a.egress.eraseIdx i else a.egress.set i { e with sent := e.sent + k } })))
    (hu : u = if slotsOf e.txn ≤ e.sent + k then
        checkDrained (retryIngress (fillEgress (readOn (apTx t p e) p e) p)) (if e.src = 8 then p else e.src) else t) :
    doEgressDepart p s = u := by
  simp only [doEgressDepart, hst, hdrr, ← he, ← hn, ← hk, ne_eq, not_true_eq_false, if_false]
  by_cases last : slotsOf e.txn ≤ e.sent + k
  · simp only [last, decide_true, Bool.not_true, Bool.false_eq_true, if_true, if_false] at ht hu ⊢
    subst ht hu
    rfl
  · simp only [last, decide_false, Bool.not_false, Bool.false_eq_true, if_true, if_false] at ht hu ⊢
    subst ht hu
    rfl

/-! ### Window sets (R101, R102) -/

/-- Ports that a write of PW_COMMIT names. -/
def commitPorts (mask : Nat) : List Nat := (List.range 8).filter (fun p => bitAt mask p)

/-- A write of PW_COMMIT by the owner of every port it names, while no commit is pending: valid sets become pending, the first
faulty one is reported with its entry (R101, R102). -/
theorem doPwCommit_owned {s : State} {r mask : Nat} (hpf1 : (isPf1 r && present s r) = true) (hidle : s.fabric.pwBusy = false)
    (hsome : commitPorts mask ≠ []) (hown : (commitPorts mask).any (fun p => ownerOf s p != r) = false) :
    ((commitPorts mask).find? (fun p => (badEntry (s.port p).shadow).isSome) = none → doPwCommit r mask s =
      { s with fabric := { s.fabric with pwBusy := true, pwSets := (commitPorts mask).map (fun p => (p, (s.port p).shadow)) } })
    ∧ (∀ p, (commitPorts mask).find? (fun p => (badEntry (s.port p).shadow).isSome) = some p →
      doPwCommit r mask s = endPw s 0x06 p ((badEntry (s.port p).shadow).getD 0)) := by
  have may : ¬ ((!(isPf1 r && present s r)) = true ∨ s.fabric.pwBusy = true) := by simp [hpf1, hidle]
  have named : (commitPorts mask).isEmpty = false := by simpa using hsome
  simp only [commitPorts] at named hown ⊢
  simp only [doPwCommit, may, named, hown, Bool.false_eq_true, if_false]
  exact ⟨fun hvalid => by simp only [hvalid], fun p hfault => by simp only [hfault]⟩

/-- Settles O14: a transaction by its passage through ingress checks, translation and switch (`ingressTxn_write`,
`ingressTxn_request`), a departure by `doEgressDepart_chosen`, a commit by `doPwCommit_owned`. -/
theorem fabricTransactionsAndWindows : Obligations.FabricTransactionsAndWindows := by
  unfold Obligations.FabricTransactionsAndWindows
  refine ⟨?write, ?writeAny, ?read, ?writeAcked, ?miss, ?badLength, ?cpl, ?depart, ?commit, ?commitBad, ?activate⟩
  case write =>
    intro p addr n dest data t s u hp ht hsize hidle hu hwin ⟨hkind, hright, hdest⟩ hroom
    subst ht hdest hu
    exact congrArg _ (ingressTxn_unicastWrite (t := writeTxn addr data) hp hsize rfl hidle rfl
      ⟨hwin, hkind, hright⟩ hroom)
  case writeAny =>
    intro p addr data ds m t s u hp ht hsize htr hu hfirst
    subst ht hu
    have arrives := ingressTxn_write (t := writeTxn addr data) hp hsize rfl rfl htr hfirst
    exact ⟨fun hroom => congrArg _ (arrives.trans (if_neg (Bool.eq_false_iff.1 hroom))),
      fun hfull => congrArg _ (arrives.trans (if_pos hfull))⟩
  case read =>
    intro p tag addr length n dest t s u hp ht hsize hidle hu hwin ⟨hkind, hright, hdest⟩ hroom htrack
    subst ht hdest hu
    exact congrArg _ (ingressTxn_request (t := readTxn tag addr length) hp hsize rfl hidle rfl
      ⟨hwin, hkind, hright⟩ hroom htrack)
  case writeAcked =>
    intro p tag addr n dest data t s u hp ht hsize hidle hu hwin ⟨hkind, hright, hdest⟩ hroom htrack
    subst ht hdest hu
    exact congrArg _ (ingressTxn_request (t := writeAckedTxn tag addr data) hp hsize rfl hidle rfl
      ⟨hwin, hkind, hright⟩ hroom htrack)
  case miss =>
    intro p addr data t s u hp ht hsize hmiss hu
    subst ht hu
    exact congrArg _ (ingressTxn_writeMiss (t := writeTxn addr data) hp hsize rfl hmiss)
  case badLength =>
    intro p tag addr length s hp hup hlen
    exact congrArg _ (ingressTxn_badLength (t := readTxn tag addr length) ⟨hp, hup⟩ hlen rfl)
  case cpl =>
    intro p toPort tag status data t s u ⟨hp, hup, hlen⟩ ht htracked hu
    subst ht hu
    rw [exec_fabricCpl, execFabricCpl, doFabricCpl_tracked ⟨hp, hup⟩ hlen htracked, arrived]
  case depart =>
    intro p i pos n k d e s t u v hst hdrr ⟨he, hn, hk⟩ ht hu hv
    have left := doEgressDepart_chosen hst hdrr he hn hk ht hu
    simp only [exec_egressDepart, execEgressDepart, departed, left, ← hv]
  case commit =>
    intro fn mask s hfree hpf1 hidle hsome hown hvalid
    rw [exec_pwCommit, execPwCommit, gated_of_free hfree]
    exact congrArg _ ((doPwCommit_owned hpf1 hidle hsome hown).1 hvalid)
  case commitBad =>
    intro fn p mask s hfree hpf1 hidle hsome hown hfault
    rw [exec_pwCommit, execPwCommit, gated_of_free hfree]
    exact congrArg _ ((doPwCommit_owned hpf1 hidle hsome hown).2 p hfault)
  case activate =>
    intro p set s s1 hbusy hsets hs1
    subst hs1
    simp only [exec_windowsActivate, execWindowsActivate, doActivate, hbusy, hsets, List.foldl_cons, List.foldl_nil,
      Bool.not_true, Bool.false_eq_true, if_false]

end Sys2Proof.Machine

/-! # Reductions (04): what their steps, contributions and results do, and the statements about them -/

namespace Sys2Proof.Machine

/-! ### Steps that the front end hands to their commands (R144) -/

section
variable {s : State} {core : Nat} {w : BitVec 512} (h : Posts s core w)
include h

theorem exec_rdOpen_posted (ho : fld w.toNat 0 8 = 0x01) :
    exec (.rdOpen core) s = .next (doOpen core w.toNat (takeStep s core)) :=
  congrArg _ (frontEnd_posts (doOpen core) h ho (by decide))

theorem exec_rdPull_posted (ho : fld w.toNat 0 8 = 0x02) :
    exec (.rdPull core) s = .next (doPull core w.toNat (takeStep s core)) :=
  congrArg _ (frontEnd_posts (doPull core) h ho (by decide))

theorem exec_rdClose_posted (ho : fld w.toNat 0 8 = 0x03) :
    exec (.rdClose core) s = .next (doClose core w.toNat (takeStep s core)) :=
  congrArg _ (frontEnd_posts (doClose core) h ho (by decide))

theorem exec_rdAbort_posted (ho : fld w.toNat 0 8 = 0x04) :
    exec (.rdAbort core) s = .next (doAbort core w.toNat (takeStep s core)) :=
  congrArg _ (frontEnd_posts (doAbort core) h ho (by decide))

/-- A step of no defined opcode completes with 0x06 whichever command takes it up (R144). -/
theorem frontEnd_unlisted (ho : fld w.toNat 0 8 < 1 ∨ 4 < fld w.toNat 0 8) (op : Nat) (act : Nat → State → State) :
    frontEnd s core op act =
      stepDone (takeStep s core) core (fld w.toNat 32 32) 0x06 (fld w.toNat 0 8) 0 := by
  have front : frontStep s core = some (core, w) := h
  simp only [frontEnd, front, ne_eq, not_true_eq_false, ho, if_false, if_true]

end

/-! ### OPEN and admission (R144 to R147, R155, R156) -/

/-- A legal OPEN with no claim waiting that fits is granted in the cycle it is taken up (R155). -/
theorem doOpen_fits {s : State} {d h : Nat} {ts : List Nat} (hok : openOk d = true) (hneed : slotsNeed d ≤ 262144)
    (hfirst : s.red.claims = []) (hfit : claimFits s d = some (ts, h)) (core : Nat) :
    doOpen core d s = grant s { core := core, desc := d } ts h := by
  simp only [doOpen, hok, Nat.not_lt.2 hneed, hfirst, hfit, List.isEmpty_nil, Bool.not_true, Bool.false_eq_true, if_false]

/-- A legal OPEN that does not fit claims where its wait bit is set, and else completes with 0x07 (R155). -/
theorem doOpen_unfit {s : State} {d : Nat} (hok : openOk d = true) (hneed : slotsNeed d ≤ 262144)
    (hfit : claimFits s d = none) (core : Nat) :
    doOpen core d s = if bitAt d 8
      then settleCand ((settleCand s).modRed (fun r => { r with claims := r.claims ++ [{ core := core, desc := d }] }))
      else stepDone s core (fld d 32 32) 0x07 0x01 0 := by
  simp only [doOpen, hok, Nat.not_lt.2 hneed, hfit, Bool.not_true, Bool.false_eq_true, if_false]
  cases s.red.claims.isEmpty <;> rfl

/-- An OPEN with a field out of range completes with 0x06 (R147). -/
theorem doOpen_illegal {d : Nat} (hbad : openOk d = false) (core : Nat) (s : State) :
    doOpen core d s = stepDone s core (fld d 32 32) 0x06 0x01 0 := by
  simp only [doOpen, hbad, Bool.not_false, if_true]

/-- With no candidate the admission unit looks at the first claimant at or after its pointer (R155). -/
theorem pickCand_none {r : Reduce} (h : r.cand = none) : pickCand r = rotPick 64 r.ptr (r.claims.map (·.core)) := by
  simp only [pickCand, h]

/-- The candidate's oldest claim is granted when it fits (R155). -/
theorem doAdmission_fits {s : State} {c h : Nat} {k : Claim} {ts : List Nat} (hcand : pickCand s.red = some c)
    (hclaim : s.red.claims.find? (fun x => x.core == c) = some k) (hfit : claimFits s k.desc = some (ts, h)) :
    doAdmission s = grant (s.modRed (fun r => { r with claims := r.claims.erase k })) k ts h := by
  simp only [doAdmission, hcand, hclaim, hfit]

/-! ### PULL, CLOSE and ABORT (R148, R149, R150) -/

/-- A step names the context of its handle where the generation is current (R116). -/
theorem stepCtx_current {s : State} {d : Nat} {k : Ctx} (hk : oget s.red.ctxs (fld d 64 12) = some k)
    (hgen : k.hgen = fld d 76 4) : stepCtx s d = some k := by
  simp only [stepCtx, hk, hgen, if_true]

/-- The reserved fields of a PULL are zero (R144). -/
def PullReservedZero (d : Nat) : Prop := fld d 8 24 = 0 ∧ fld d 288 224 = 0

theorem PullReservedZero.passes {d : Nat} (h : PullReservedZero d) : ¬ (fld d 8 24 ≠ 0 ∨ fld d 288 224 ≠ 0) := by
  obtain ⟨low, high⟩ := h
  simp [low, high]

/-- A PULL of a context does not name a memory rank, or its range or an address is out of bounds or misaligned (R148). -/
def PullIllegal (k : Ctx) (d : Nat) : Prop :=
  oRanks k.desc ≤ fld d 80 16 ∨ (!bitAt (oMemMask k.desc) (fld d 80 16)) = true
  ∨ oElements k.desc < fld d 96 32 + fld d 128 32 ∨ fld d 96 32 % 32 ≠ 0 ∨ fld d 128 32 % 32 ≠ 0
  ∨ fld d 222 2 = 3 ∨ fld d 160 64 % 64 ≠ 0
  ∨ (isMx (oIn k.desc) = true ∧ (fld d 286 2 = 3 ∨ fld d 224 64 % 64 ≠ 0))
  ∨ ((!isMx (oIn k.desc)) = true ∧ fld d 224 64 ≠ 0)

/-- A PULL as its context keeps it. -/
def pullOf (core d : Nat) : Pull :=
  { core := core, tag := fld d 32 32, rank := fld d 80 16, first := fld d 96 32, count := fld d 128 32
    addr := fld d 160 64, scale := fld d 224 64 }

/-- A legal PULL of a current context: a failed one answers its failure, an empty range completes at once, and else the PULL
joins the context's (R148). -/
theorem doPull_legal {s : State} {d : Nat} {k : Ctx} (hz : PullReservedZero d) (hk : stepCtx s d = some k)
    (hlegal : ¬ PullIllegal k d) (core : Nat) :
    doPull core d s =
      if k.st = .failed then stepDone s core (fld d 32 32) k.failure 0x02 0
      else if fld d 128 32 = 0 then stepDone s core (fld d 32 32) 0 0x02 0
      else s.modCtx (fld d 64 12) (fun k => { k with pulls := k.pulls ++ [pullOf core d] }) := by
  simp only [doPull, if_neg hz.passes, hk]
  exact if_neg hlegal

/-- A PULL of a stale handle completes with 0x81 (R152). -/
theorem doPull_stale {s : State} {d : Nat} (hz : PullReservedZero d) (hk : stepCtx s d = none) (core : Nat) :
    doPull core d s = stepDone s core (fld d 32 32) 0x81 0x02 0 := by
  simp only [doPull, if_neg hz.passes, hk]

/-- The reserved fields of a CLOSE are zero (R144). -/
def CloseReservedZero (d : Nat) : Prop := fld d 8 24 = 0 ∧ fld d 80 432 = 0

theorem CloseReservedZero.passes {d : Nat} (h : CloseReservedZero d) : ¬ (fld d 8 24 ≠ 0 ∨ fld d 80 432 ≠ 0) := by
  obtain ⟨low, high⟩ := h
  simp [low, high]

/-- CLOSE of a current context, by its state: an open one closes, a failed one is released with its failure, and one that
closes already refuses (R149). -/
theorem doClose_current {s : State} {d : Nat} {k : Ctx} (hz : CloseReservedZero d) (hk : stepCtx s d = some k) (core : Nat) :
    (k.st = .opened → doClose core d s = checkClose (s.modCtx (fld d 64 12) (fun k =>
      { k with st := .closing, closer := some (core, fld d 32 32) })) (fld d 64 12))
    ∧ (k.st = .failed → doClose core d s = releaseCtx (stepDone s core (fld d 32 32) k.failure 0x03 0) (fld d 64 12))
    ∧ (k.st = .closing → doClose core d s = stepDone s core (fld d 32 32) 0x06 0x03 0) := by
  simp only [doClose, if_neg hz.passes, hk]
  exact ⟨fun hst => by simp only [hst], fun hst => by simp only [hst], fun hst => by simp only [hst]⟩

/-- A CLOSE of a stale handle completes with 0x81 (R152). -/
theorem doClose_stale {s : State} {d : Nat} (hz : CloseReservedZero d) (hk : stepCtx s d = none) (core : Nat) :
    doClose core d s = stepDone s core (fld d 32 32) 0x81 0x03 0 := by
  simp only [doClose, if_neg hz.passes, hk]

/-- An ABORT of a handle ends the context that it names and reports 1; a stale handle reports 0 (R150, R152). -/
theorem doAbort_handle {d : Nat} (hlow : fld d 8 24 = 0) (hhigh : fld d 81 431 = 0) (hbit : bitAt d 80 = false) (core : Nat)
    (s : State) :
    (∀ k, stepCtx s d = some k →
      doAbort core d s = stepDone (abortCtx s (fld d 64 12)) core (fld d 32 32) 0 0x04 1)
    ∧ (stepCtx s d = none → doAbort core d s = stepDone s core (fld d 32 32) 0 0x04 0) := by
  simp only [doAbort, hlow, hhigh, hbit, ne_eq, not_true_eq_false, Bool.false_eq_true, false_and, or_self, if_false]
  exact ⟨fun k hk => by simp only [hk], fun hk => by simp only [hk]⟩

/-- An ABORT of a core's waiting claim withdraws its oldest one, completes that OPEN with 0x08 and reports 1 (R150). -/
theorem doAbort_claim {s : State} {d core : Nat} {c : Claim} (hlow : fld d 8 24 = 0) (hhigh : fld d 81 431 = 0)
    (hbit : bitAt d 80 = true) (hzero : fld d 64 16 = 0) (hc : s.red.claims.find? (fun c => c.core == core) = some c) :
    doAbort core d s = stepDone (stepDone (withdraw s c) core (fld c.desc 32 32) 0x08 0x01 0) core (fld d 32 32) 0 0x04 1 := by
  simp only [doAbort, hlow, hhigh, hbit, hzero, hc, ne_eq, not_true_eq_false, and_false, or_self, if_true, if_false]

/-- Settles O16: the front end hands the step to its command (`frontEnd_posts`), and the lemma about that command says what it
does to the claim or context that the step names. -/
theorem reductionStepsComplete : Obligations.ReductionStepsComplete := by
  unfold Obligations.ReductionStepsComplete
  refine ⟨?fits, ?unfit, ?illegal, ?unlisted, ?admission, ?pull, ?pullStale, ?pullEmpty, ?close, ?closeStale, ?abort,
    ?abortStale, ?abortClaim⟩
  case fits =>
    intro core h ts w s hposts hop hok hneed hfirst hfit
    rw [exec_rdOpen_posted hposts hop, doOpen_fits (s := takeStep s core) hok hneed hfirst hfit]
  case unfit =>
    intro core w s hposts hop hok hneed hfit
    rw [exec_rdOpen_posted hposts hop, doOpen_unfit (s := takeStep s core) hok hneed hfit]
    exact ⟨fun hwait => congrArg _ (if_pos hwait), fun hnow => congrArg _ (if_neg (Bool.eq_false_iff.1 hnow))⟩
  case illegal =>
    intro core w s hposts hop hbad
    rw [exec_rdOpen_posted hposts hop, doOpen_illegal hbad]
  case unlisted =>
    intro core w s hposts hop
    rw [exec_rdOpen, execRdOpen, frontEnd_unlisted hposts hop]
  case admission =>
    intro c h k ts s hcand hpick hclaim hfit
    exact congrArg _ (doAdmission_fits ((pickCand_none hcand).trans hpick) hclaim hfit)
  case pull =>
    intro core w k s hposts hop hz hk hgen hlegal hst hcount
    have named : stepCtx (takeStep s core) w.toNat = some k := stepCtx_current hk hgen
    rw [exec_rdPull_posted hposts hop, doPull_legal hz named hlegal,
      if_neg (by simp [hst]), if_neg hcount, pullOf]
  case pullStale =>
    intro core w s hposts hop hz hstale
    rw [exec_rdPull_posted hposts hop, doPull_stale (s := takeStep s core) hz hstale]
  case pullEmpty =>
    intro core w k s hposts hop hz hk hgen hlegal hst hcount
    have named : stepCtx (takeStep s core) w.toNat = some k := stepCtx_current hk hgen
    rw [exec_rdPull_posted hposts hop, doPull_legal hz named hlegal, if_neg hst,
      if_pos hcount]
  case close =>
    intro core w k s hposts hop hz hk hgen
    have named : stepCtx (takeStep s core) w.toNat = some k := stepCtx_current hk hgen
    obtain ⟨opened, failed, closing⟩ := doClose_current hz named core
    rw [exec_rdClose_posted hposts hop]
    exact ⟨fun hst => congrArg _ (opened hst), fun hst => congrArg _ (failed hst), fun hst => congrArg _ (closing hst)⟩
  case closeStale =>
    intro core w s hposts hop hz hstale
    rw [exec_rdClose_posted hposts hop, doClose_stale (s := takeStep s core) hz hstale]
  case abort =>
    intro core w k s hposts hop ⟨hlow, hhigh, hbit⟩ hk
    rw [exec_rdAbort_posted hposts hop, (doAbort_handle hlow hhigh hbit core (takeStep s core)).1 k hk]
  case abortStale =>
    intro core w s hposts hop ⟨hlow, hhigh, hbit⟩ hstale
    rw [exec_rdAbort_posted hposts hop, (doAbort_handle hlow hhigh hbit core (takeStep s core)).2 hstale]
  case abortClaim =>
    intro core w c s hposts hop ⟨hlow, hhigh, hbit, hzero⟩ hc
    rw [exec_rdAbort_posted hposts hop, doAbort_claim (s := takeStep s core) hlow hhigh hbit hzero hc]

/-! ### Contributions (R126, R127, R137 to R141) -/

/-- A CONTRIB from a port that is up, after its payload has passed the receive tap, goes to the tile of its chunk (R137). -/
theorem exec_contrib_arrives {s : State} {p : Nat} {data : List Byte} (hp : Sends s p)
    (hlen : 1 ≤ data.length ∧ data.length ≤ 256) (hd hgen rank e : Nat) :
    exec (.contrib p hd hgen rank e data) s = .next (doContrib hd hgen rank e data (apRx s p { op := 0x40, data := data })) := by
  obtain ⟨hport, hup⟩ := hp
  rw [exec_contrib, execContrib, if_pos ⟨hport, hup, hlen⟩]

/-- A contribution to a handle with no context is a miss (R138). -/
theorem doContrib_miss {s : State} {h : Nat} (hk : oget s.red.ctxs h = none) (hgen rank e : Nat) (data : List Byte) :
    doContrib h hgen rank e data s = handleMiss s h hgen rank e := by
  simp only [doContrib, hk]

/-- A contribution to a failed context is dropped and counted at its tile (R139). -/
theorem doContrib_failed {s : State} {h : Nat} {k : Ctx} (hk : oget s.red.ctxs h = some k) (hst : k.st = .failed)
    (rank e : Nat) (data : List Byte) :
    doContrib h k.hgen rank e data s =
      s.modSum (chunkTile k (chunkOf k.desc e)) (fun t => { t with drop := satAdd 32 t.drop 1 }) := by
  simp only [doContrib, hk, ne_eq, not_true_eq_false, hst, if_false, if_true]

/-- A contribution of `n` elements passes a context's checks: its rank is one of the ports', its elements lie within one chunk,
and its rank has delivered none of their groups (R139). -/
def ContribLegal (k : Ctx) (rank e n : Nat) : Prop :=
  ¬ (oRanks k.desc ≤ rank ∨ bitAt (oMemMask k.desc) rank = true ∨ e % 32 ≠ 0 ∨ chunkEnd k.desc (chunkOf k.desc e) < e + n)
  ∧ (groupsOf e n).any (fun g => k.got.contains (gotKey rank g)) = false

/-- A legal contribution whose chunk is open and whose turn has come is counted and taken in at its tile (R139 to R141). -/
theorem doContrib_takenIn {s : State} {h rank e n : Nat} {data : List Byte} {k : Ctx}
    (hk : oget s.red.ctxs h = some k) (hst : k.st ≠ .failed) (hn : contribElems (oIn k.desc) data.length = some n)
    (hlegal : ContribLegal k rank e n) (hopen : chunkOpen k (chunkOf k.desc e) = true)
    (hturn : foldable k (contrOf (oIn k.desc) rank e n data) = true) :
    doContrib h k.hgen rank e data s =
      takeIn (s.modSum (chunkTile k (chunkOf k.desc e)) (fun t => { t with ingest := (t.ingest + data.length) % 2 ^ 64 })) h k
        (contrOf (oIn k.desc) rank e n data) := by
  obtain ⟨inRange, fresh⟩ := hlegal
  simp only [doContrib, hk, ne_eq, not_true_eq_false, hst, hn, if_neg inRange, fresh, hopen, hturn, Bool.not_true,
    Bool.true_or, Bool.false_eq_true, if_false, if_true]

/-- The payload of a contribution that is not MX is its elements alone (R122). -/
theorem contrOf_plain {code : Nat} (h : isMx code = false) (rank e n : Nat) (data : List Byte) :
    contrOf code rank e n data = { rank := rank, elem := e, n := n, data := data, len := data.length } := by
  simp only [contrOf, h, Bool.false_eq_true, if_false]

/-! ### Data of a PULL, and spilled contributions (R140, R141, R148, R161) -/

/-- `c` is the lowest chunk of a PULL's range that its returned data is for: a duplicate, or one that can be taken in (R148). -/
def NextPart (k : Ctx) (p : Pull) (c : Nat) : Prop :=
  (pullLeft k p).find? (fun c => pullAgain k p c || pullFits k p c) = some c

/-- A part of a PULL delivered before fails the context with 0x80 (R119). -/
theorem doPullReturn_again {s : State} {h which c : Nat} {k : Ctx} {p : Pull} (hk : oget s.red.ctxs h = some k)
    (hp : k.pulls[which]? = some p) (hc : NextPart k p c) (hagain : pullAgain k p c = true) (back : PullRead) :
    doPullReturn h which back s = failCtx s h 0x80 (chunkTile k c) := by
  have next : (pullLeft k p).find? (fun c => pullAgain k p c || pullFits k p c) = some c := hc
  simp only [doPullReturn, hk, hp, next, hagain, if_true]

/-- What the read of the elements of a PULL's part in chunk `c` answers (R148). -/
def readElems (s : State) (k : Ctx) (p : Pull) (c : Nat) (back : PullRead) : State × Nat × List Byte :=
  let b := pullBytes (oIn k.desc) (pullPart k p c).2
  spaceRead s (chunkTile k c) (p.addr + pullOff (oIn k.desc) ((pullPart k p c).1 - p.first)) b.1 back.elems
    ((hostBytes back.host).take b.1) back.host
/-- What the read of that part's scales answers, which only an MX format has (R122, R148). -/
def readScales (s : State) (k : Ctx) (p : Pull) (c : Nat) (back : PullRead) : State × Nat × List Byte :=
  let b := pullBytes (oIn k.desc) (pullPart k p c).2
  if b.2 = 0 then (s, 0, [])
  else spaceRead s (chunkTile k c) (p.scale + ((pullPart k p c).1 - p.first) / 32) b.2 back.scales
    ((hostBytes back.host).drop b.1) back.host

/-- A PULL whose part in chunk `c` has been read (R148). -/
def Pull.afterPart (p : Pull) (c : Nat) : Pull := { p with parts := p.parts ++ [c] }
/-- The context of a PULL, its `which`-th, whose part in chunk `c` has been read. -/
def Ctx.afterPart (k : Ctx) (which : Nat) (p : Pull) (c : Nat) : Ctx := { k with pulls := k.pulls.set which (p.afterPart c) }

/-- The part of a PULL in chunk `c`, as a contribution of the PULL's rank. -/
def pulledContr (k : Ctx) (p : Pull) (c : Nat) (elems scales : List Byte) : Contr :=
  let b := pullBytes (oIn k.desc) (pullPart k p c).2
  { rank := p.rank, elem := (pullPart k p c).1, n := (pullPart k p c).2, data := elems, scales := scales, len := b.1 + b.2 }

/-- A part of a PULL read whole is taken in like a contribution; the PULL completes when it was the last (R148). -/
theorem doPullReturn_takenIn {s u v : State} {h which c : Nat} {k : Ctx} {p : Pull} {back : PullRead} {bs ss : List Byte}
    (hk : oget s.red.ctxs h = some k) (hp : k.pulls[which]? = some p) (hc : NextPart k p c) (hnew : pullAgain k p c = false)
    (helems : readElems s k p c back = (u, 0, bs)) (hscales : readScales u k p c back = (v, 0, ss))
    (hwhole : bs.length = (pullBytes (oIn k.desc) (pullPart k p c).2).1
      ∧ ss.length = (pullBytes (oIn k.desc) (pullPart k p c).2).2) :
    doPullReturn h which back s =
      (let b := pullBytes (oIn k.desc) (pullPart k p c).2
       let k1 := k.afterPart which p c
       pullDone (takeIn ((v.modCtx h (fun _ => k1)).modSum (chunkTile k c)
         (fun t => { t with ingest := (t.ingest + b.1 + b.2) % 2 ^ 64 })) h k1 (pulledContr k p c bs ss)) h which
         (p.afterPart c)) := by
  have next : (pullLeft k p).find? (fun c => pullAgain k p c || pullFits k p c) = some c := hc
  obtain ⟨allElems, allScales⟩ := hwhole
  simp only [readElems] at helems
  simp only [readScales] at hscales
  simp only [doPullReturn, hk, hp, next, hnew, helems, hscales, allElems, allScales, ne_eq, not_true_eq_false, or_self,
    Bool.false_eq_true, if_false]
  rfl

/-- `c` is the oldest spilled contribution whose chunk is open and whose turn has come (R140, R141). -/
def NextSpilled (k : Ctx) (c : Contr) : Prop :=
  k.waits.find? (fun c => c.cell.isSome && chunkOpen k (chunkOf k.desc c.elem) && foldable k c) = some c

/-- Address of the cell of the spill area that holds a contribution (R140). -/
def cellAddr (k : Ctx) (c : Contr) : Nat := oSpillBase k.desc + 256 * c.cell.getD 0

section
variable {s u : State} {h : Nat} {k : Ctx} {c : Contr} {bs : List Byte}
  (hk : oget s.red.ctxs h = some k) (hc : NextSpilled k c)
  (hread : engineRead s (sumDom (chunkTile k (chunkOf k.desc c.elem))) (cellAddr k c) c.len = (u, 0, bs))
include hk hc hread

/-- A spilled contribution read back well is folded, and what its turn lets in after it (R140, R141). -/
theorem doSpillReturn_good {k2 k3 : Ctx}
    (hfold : foldContr { k with waits := k.waits.erase c } (contrOf (oIn k.desc) c.rank c.elem c.n bs) = .inl k2)
    (hcascade : cascade (k2.waits.length + 1) k2 = .inl k3) :
    doSpillReturn h .good s = formAll (u.modCtx h (fun _ => k3)) h [chunkOf k.desc c.elem] := by
  have next : k.waits.find? (fun c => c.cell.isSome && chunkOpen k (chunkOf k.desc c.elem) && foldable k c) = some c := hc
  simp only [cellAddr] at hread
  simp only [doSpillReturn, hk, next, hread, hfold, hcascade, reduceCtorEq, if_false]

/-- A spilled contribution that is uncorrectable fails its context with 0x04 (R161). -/
theorem doSpillReturn_uncorrectable :
    doSpillReturn h .uncorrectable s = failCtx (uncorrectable u (cellAddr k c) (sumDom (chunkTile k (chunkOf k.desc c.elem)))) h
      0x04 (chunkTile k (chunkOf k.desc c.elem)) := by
  have next : k.waits.find? (fun c => c.cell.isSome && chunkOpen k (chunkOf k.desc c.elem) && foldable k c) = some c := hc
  simp only [cellAddr] at hread
  simp only [doSpillReturn, hk, next, hread, if_true, cellAddr]

end

/-! ### Results (R142, R143, R149) -/

/-- Address in the result area of a chunk's results (R142). -/
def resultAddr (k : Ctx) (e : Emission) : Nat := oResult k.desc + pullOff (oOut k.desc) (e.chunk * 2 ^ oChunkLog2 k.desc)

/-- A chunk's results without scales that memory accepts are written, and the chunk is free when nothing else of it is due
(R142, R149). -/
theorem doResultWrite_accepted {s u : State} {h tile : Nat} {k : Ctx} {e : Emission} (hk : oget s.red.ctxs h = some k)
    (he : emitting k tile = some e) (hdue : e.writeDue = true) (hplain : e.scales = [])
    (hwrite : spaceWrite s tile (resultAddr k e) e.data = (u, 0)) :
    doResultWrite h tile s = freeChunk u h { e with writeDue := false } := by
  simp only [resultAddr] at hwrite
  simp only [doResultWrite, hk, he, hdue, hplain, hwrite, List.isEmpty_nil, Bool.not_true, Bool.false_eq_true, ne_eq,
    not_true_eq_false, if_true, if_false]

/-- The member ports of a context (R143). -/
def memberPorts (k : Ctx) : List Nat := (List.range 8).filter (fun p => bitAt (oPorts k.desc) p)

/-- A RESULT transaction with a piece of a chunk's results that begins at element `el` (Table 4-7). -/
def resultTxn (h : Nat) (k : Ctx) (el : Nat) (bs : List Byte) : Txn :=
  { op := 0x41, length := bs.length, addr := h + k.hgen * 2 ^ 12 + el * 2 ^ 32, data := bs }

/-- A RESULT copy enters the egress of a member port that is up, and is missed at one that is not (R143). -/
def copyResult (h : Nat) (k : Ctx) (t : Txn) (s : State) (p : Nat) : State :=
  if portUp (s.port p) then pushEgress s p { cls := 1, vc := 3, src := 8, eng := .result h k.hgen, txn := t }
  else (dropAt s p).modCtx h (fun k => { k with missed := Nat.lor k.missed (2 ^ p) })

/-- A RESULT copy leaves its tile when every member port that is up has room (R143). -/
theorem doResultCopy_departs {s : State} {h tile el : Nat} {bs : List Byte} {rest : List (Nat × List Byte)} {k : Ctx}
    {e : Emission} (hk : oget s.red.ctxs h = some k) (he : emitting k tile = some e) (hpieces : e.pieces = (el, bs) :: rest)
    (hroom : (memberPorts k).any (fun p => portUp (s.port p) && !egressRoom (s.port p) (resultTxn h k el bs)) = false) :
    doResultCopy h tile s =
      freeChunk (tapUnit ((memberPorts k).foldl (copyResult h k (resultTxn h k el bs)) s)
        { tap := 5, sel := tile, handle := h, hgen := k.hgen } bs) h { e with pieces := rest } := by
  simp only [memberPorts, resultTxn] at hroom
  simp only [doResultCopy, hk, he, hpieces, hroom, Bool.false_eq_true, if_false]
  rfl

/-- Settles O17: a contribution by the checks of `doContrib` it passes; the data of a PULL, a spilled contribution and a result
each by the lemma about its return or departure. -/
theorem contributionsAndResults : Obligations.ContributionsAndResults := by
  unfold Obligations.ContributionsAndResults
  refine ⟨?miss, ?failed, ?folded, ?pulled, ?again, ?written, ?copied, ?spilled⟩
  case miss =>
    intro p h hgen rank e data s u hp hlen hu hk
    subst hu
    rw [exec_contrib_arrives hp hlen, doContrib_miss hk]
  case failed =>
    intro p h hgen rank e data k s u hp hlen hu hk hgen_k hst
    subst hu hgen_k
    rw [exec_contrib_arrives hp hlen, doContrib_failed hk hst]
  case folded =>
    intro p h hgen rank e n data k co s u hp hlen hu hk hgen_k hst hn hrange hfresh hplain hco hopen hturn
    have is_payload : contrOf (oIn k.desc) rank e n data = co := (contrOf_plain hplain rank e n data).trans hco.symm
    subst hu hgen_k
    rw [exec_contrib_arrives hp hlen,
      doContrib_takenIn hk hst hn ⟨hrange, hfresh⟩ hopen (is_payload ▸ hturn), is_payload]
  case pulled =>
    intro h which c e n tile back bs ss b k k1 p p1 s u v ⟨hk, hp⟩ ⟨hc, hnew⟩ ⟨hpart, htile, hb⟩ ⟨helems, hallElems⟩
      ⟨hscales, hallScales⟩ ⟨hp1, hk1⟩
    obtain ⟨rfl, rfl⟩ := Prod.mk.inj hpart
    subst htile hb hp1 hk1
    exact congrArg _ (doPullReturn_takenIn hk hp hc hnew helems hscales ⟨hallElems, hallScales⟩)
  case again =>
    intro h which c back k p s hk hp hc hagain
    exact congrArg _ (doPullReturn_again hk hp hc hagain back)
  case written =>
    intro h tile k e s u hk he hdue hplain hwrite
    exact congrArg _ (doResultWrite_accepted hk he hdue hplain hwrite)
  case copied =>
    intro h tile el bs rest k e t s u hk he hpieces ht hroom hu
    subst ht hu
    exact congrArg _ (doResultCopy_departs hk he hpieces hroom)
  case spilled =>
    intro h tile k k2 k3 c bs s u hk hc htile hread hfold hcascade
    subst htile
    simp only [exec_spillReadReturn, execSpillReadReturn, doSpillReturn_good hk hc hread hfold hcascade,
      doSpillReturn_uncorrectable hk hc hread, cellAddr, and_self]

end Sys2Proof.Machine

/-! # The Pynex cores (05): what their instructions do, and the statements about them -/

namespace Sys2Proof.Machine

/-! ### What the shell makes of a body's answer (R177, R178, R179, R201) -/

section

variable {s s' : State} {core op lo pc n code addr : Nat} {body : Core → PRes}

/-- An instruction that goes on moves its core to the next word. -/
theorem runPy_go (h : Executes s core op lo) (hb : body (s.core core) = .go s' n) :
    runPy op core lo s body = passed s' core n := by
  rw [runPy_executes h, hb]; rfl

/-- An instruction that jumps moves its core to its target. -/
theorem runPy_jump (h : Executes s core op lo) (hb : body (s.core core) = .jump s' pc n) :
    runPy op core lo s body = jumped s' core pc n := by
  rw [runPy_executes h, hb]; rfl

/-- An instruction whose checks fail raises its exception and does nothing else. -/
theorem runPy_exc (h : Executes s core op lo) (hb : body (s.core core) = .exc code addr) :
    runPy op core lo s body = raiseExc s core code addr := by
  rw [runPy_executes h, hb]

/-- An instruction that waits keeps its pc. -/
theorem runPy_stay (h : Executes s core op lo) (hb : body (s.core core) = .stay s') : runPy op core lo s body = s' := by
  rw [runPy_executes h, hb]

/-- An instruction that writes one register and goes on (R168). -/
theorem runPy_setGo {rd : Nat} {v : BitVec 64} (h : Executes s core op lo) (hb : body (s.core core) = setGo s' core rd v n) :
    runPy op core lo s body = passed (wrote s' core rd v) core n :=
  runPy_go h hb

/-- An illegal word raises ILLEGAL_INSTRUCTION with itself as the address (Table 5-12). -/
theorem runPy_illegal {lo : BitVec 32} (h : Executes s core op lo.toNat) (hb : body (s.core core) = illegal op lo.toNat) :
    runPy op core lo.toNat s body = raiseExc s core 0x01 lo.toNat := by
  have ⟨_, _, _, hop⟩ := h
  rw [illegal, wordOf_eq hop lo.isLt] at hb
  exact runPy_exc h hb

/-- A false guard passes over the word, whichever it is (R177). -/
theorem runPy_guarded (hrun : canRun s core = true) (hfetch : fetchOk core (s.core core) (s.core core).pc = true)
    (hguard : getP (s.core core) (fld lo 23 3) = bitAt lo 22) (hop : fld lo 26 6 = op) (body : Core → PRes) :
    runPy op core lo s body = passed s core 1 := by
  simp only [runPy, hrun, hfetch, hguard, hop, Bool.not_true, bne_self_eq_false, Bool.false_and, Bool.or_self,
    Bool.false_eq_true, beq_self_eq_true, if_false, if_true]
  rfl

/-- A word whose opcode is not listed is illegal, whichever row's command carries it (R179). -/
theorem runPy_unlisted {lo : BitVec 32} (hrun : canRun s core = true)
    (hfetch : fetchOk core (s.core core) (s.core core).pc = true)
    (hguard : getP (s.core core) (fld lo.toNat 23 3) ≠ bitAt lo.toNat 22) (hop : listedOp (fld lo.toNat 26 6) = false)
    (hrow : listedOp op = true) (body : Core → PRes) :
    runPy op core lo.toNat s body = raiseExc s core 0x01 lo.toNat := by
  have other_row : fld lo.toNat 26 6 ≠ op := fun h => by simp [h, hrow] at hop
  simp only [runPy, hrun, hfetch, beq_eq_false_iff_ne.2 hguard, hop, if_pos other_row, Nat.mod_eq_of_lt lo.isLt,
    Bool.not_true, Bool.and_false, Bool.or_self, Bool.false_eq_true, if_false]

end

/-! ### Arithmetic and moves (R168, R179, R180, Table 5-5) -/

section

variable {s : State} {core : Nat} {lo : BitVec 32}

/-- ALU with a listed func writes the func's value (Table 5-5). -/
theorem doAlu_listed {x : BitVec 64} (h : Executes s core 0x01 lo.toNat)
    (hx : aluFn (fld lo.toNat 0 7) (getR (s.core core) (fRs1 lo.toNat)) (getR (s.core core) (fRs2 lo.toNat)) = some x)
    (hunary : unaryFn (fld lo.toNat 0 7) = true → fRs2 lo.toNat = 0) :
    doAlu core lo.toNat s =
      passed (wrote s core (fRd lo.toNat) x) core (if mulFn (fld lo.toNat 0 7) then 3 else 1) := by
  have operands_ok : ¬ (unaryFn (fld lo.toNat 0 7) && fRs2 lo.toNat != 0) = true := by simpa using hunary
  exact runPy_setGo h (by simp only [hx, if_neg operands_ok])

/-- ALU with a func that is not listed is illegal (R180). -/
theorem doAlu_unlisted (h : Executes s core 0x01 lo.toNat)
    (hx : aluFn (fld lo.toNat 0 7) (getR (s.core core) (fRs1 lo.toNat)) (getR (s.core core) (fRs2 lo.toNat)) = none) :
    doAlu core lo.toNat s = raiseExc s core 0x01 lo.toNat :=
  runPy_illegal h (by simp only [hx])

/-- An instruction of format I writes its function of rs1 and the immediate. -/
theorem immOp_executes {op : Nat} (h : Executes s core op lo.toNat) (f : BitVec 64 → BitVec 64 → BitVec 64) :
    immOp op core lo.toNat s f =
      passed (wrote s core (fRd lo.toNat) (f (getR (s.core core) (fRs1 lo.toNat)) (imm 12 lo.toNat))) core 1 :=
  runPy_setGo h rfl

/-- SHIFTI of a listed kind writes the shifted register. -/
theorem doShifti_listed (h : Executes s core 0x06 lo.toNat) (hz : fld lo.toNat 8 4 = 0) (hkind : fld lo.toNat 6 2 ≠ 3) :
    doShifti core lo.toNat s =
      passed (wrote s core (fRd lo.toNat)
        (if fld lo.toNat 6 2 = 0 then getR (s.core core) (fRs1 lo.toNat) <<< fld lo.toNat 0 6
        else if fld lo.toNat 6 2 = 1 then getR (s.core core) (fRs1 lo.toNat) >>> fld lo.toNat 0 6
        else (getR (s.core core) (fRs1 lo.toNat)).sshiftRight (fld lo.toNat 0 6))) core 1 :=
  runPy_setGo h (if_neg (by simp [hz, hkind]))

/-- SHIFTI of kind 3 is illegal. -/
theorem doShifti_unlisted (h : Executes s core 0x06 lo.toNat) (hkind : fld lo.toNat 6 2 = 3) :
    doShifti core lo.toNat s = raiseExc s core 0x01 lo.toNat :=
  runPy_illegal h (if_pos (.inr hkind))

/-- MOVK writes rd with one field replaced. -/
theorem movk_executes {op sh : Nat} (h : Executes s core op lo.toNat) (hz : bitAt lo.toNat 16 = false) :
    movk op sh core lo.toNat s =
      passed (wrote s core (fRd lo.toNat)
        (BitVec.ofNat 64 (setFld (getR (s.core core) (fRd lo.toNat)).toNat sh 16 (fld lo.toNat 0 16)))) core 1 :=
  runPy_setGo h (if_neg (Bool.eq_false_iff.1 hz))

end

/-- Settles O18: each instruction by the lemma about it; a word of no listed opcode by `runPy_unlisted`. -/
theorem pynexArithmeticCompletes : Obligations.PynexArithmeticCompletes := by
  unfold Obligations.PynexArithmeticCompletes
  refine ⟨?alu, ?func, ?opcode, ?addi, ?andi, ?ori, ?xori, ?shifti, ?movi, ?movk16, ?movk32, ?movk48⟩
  case alu =>
    intro core lo x s h hx hunary
    exact congrArg _ (doAlu_listed h hx hunary)
  case func =>
    intro core lo s h hx
    exact congrArg _ (doAlu_unlisted h hx)
  case opcode =>
    intro core lo s ⟨hrun, hfetch, hguard⟩ hop
    exact congrArg _ (runPy_unlisted hrun hfetch hguard hop rfl _)
  case addi =>
    intro core lo s h
    exact congrArg _ (immOp_executes h (· + ·))
  case andi =>
    intro core lo s h
    exact congrArg _ (immOp_executes h (· &&& ·))
  case ori =>
    intro core lo s h
    exact congrArg _ (immOp_executes h (· ||| ·))
  case xori =>
    intro core lo s h
    exact congrArg _ (immOp_executes h (· ^^^ ·))
  case shifti =>
    intro core lo s h hz
    have listed := doShifti_listed h hz
    refine ⟨fun hkind => ?left, fun hkind => ?logical, fun hkind => ?arithmetic,
      fun hkind => congrArg _ (doShifti_unlisted h hkind)⟩
    case left | logical | arithmetic => exact congrArg _ (by simpa [hkind] using listed)
  case movi =>
    intro core lo s h
    exact congrArg _ (runPy_setGo h rfl)
  case movk16 =>
    intro core lo s h hz
    exact congrArg _ (movk_executes h hz)
  case movk32 =>
    intro core lo s h hz
    exact congrArg _ (movk_executes h hz)
  case movk48 =>
    intro core lo s h hz
    exact congrArg _ (movk_executes h hz)

/-! ### Predicates (R176, Table 5-6) -/

section

variable {s : State} {core : Nat} {lo : BitVec 32}

/-- CMP with its zero fields zero writes its condition of two registers. -/
theorem doCmp_executes (h : Executes s core 0x0C lo.toNat) (hhigh : fld lo.toNat 17 2 = 0) (hlow : fld lo.toNat 3 4 = 0) :
    doCmp core lo.toNat s = passed (s.modCore core (fun c => setP c (fld lo.toNat 19 3) (condOf (fld lo.toNat 0 3)
      (getR (s.core core) (fRs1 lo.toNat)) (getR (s.core core) (fRs2 lo.toNat))))) core 1 :=
  runPy_go h (if_neg (by simp [hhigh, hlow]))

/-- PLOG with its zero field zero writes its function of two predicates. -/
theorem doPlog_executes (h : Executes s core 0x0E lo.toNat) (hz : fld lo.toNat 0 11 = 0) {a b : Bool}
    (ha : a = getP (s.core core) (fld lo.toNat 16 3)) (hb : b = getP (s.core core) (fld lo.toNat 13 3)) :
    doPlog core lo.toNat s = passed (s.modCore core (fun c => setP c (fld lo.toNat 19 3)
      (if fld lo.toNat 11 2 = 0 then a && b else if fld lo.toNat 11 2 = 1 then a || b
      else if fld lo.toNat 11 2 = 2 then a != b else a && !b))) core 1 := by
  subst ha hb
  exact runPy_go h (if_neg (not_not.2 hz))

/-- PMOV from the predicates reads p0 as 1. -/
theorem doPmov_read (h : Executes s core 0x0F lo.toNat) (hz : fld lo.toNat 0 16 = 0) (hdir : bitAt lo.toNat 16 = false) :
    doPmov core lo.toNat s =
      passed (wrote s core (fRd lo.toNat) (BitVec.ofNat 64 (fld (s.core core).preds 1 7 * 2 + 1))) core 1 :=
  runPy_setGo h ((if_neg (not_not.2 hz)).trans (if_neg (Bool.eq_false_iff.1 hdir)))

/-- PMOV to the predicates leaves p0 alone. -/
theorem doPmov_write (h : Executes s core 0x0F lo.toNat) (hz : fld lo.toNat 0 16 = 0) (hdir : bitAt lo.toNat 16 = true) :
    doPmov core lo.toNat s =
      passed (s.modCore core (fun c => { c with preds := fld (getR (s.core core) (fRd lo.toNat)).toNat 1 7 * 2 })) core 1 :=
  runPy_go h ((if_neg (not_not.2 hz)).trans (if_pos hdir))

end

/-- Settles O19: the false guard by `runPy_guarded`, whatever the body; the rest each by the lemma about its instruction. -/
theorem pynexGuardAndPredicates : Obligations.PynexGuardAndPredicates := by
  unfold Obligations.PynexGuardAndPredicates
  refine ⟨?guard, ?cmp, ?cmpi, ?plog, ?pmov⟩
  case guard =>
    intro core lo s hrun hfetch hguard
    have skipped {op : Nat} (hop : fld lo.toNat 26 6 = op) := runPy_guarded hrun hfetch hguard hop
    exact ⟨fun hop => congrArg _ (skipped hop _), fun hop => congrArg _ (skipped hop _),
      fun hop => congrArg _ (skipped hop _), fun hop => congrArg _ (skipped hop _)⟩
  case cmp =>
    intro core lo s h ⟨hhigh, hlow⟩
    exact congrArg _ (doCmp_executes h hhigh hlow)
  case cmpi =>
    intro core lo s h
    exact congrArg _ (runPy_go h rfl)
  case plog =>
    intro core lo a b s h hz ⟨ha, hb⟩
    exact congrArg _ (doPlog_executes h hz ha hb)
  case pmov =>
    intro core lo s h hz
    exact ⟨fun hdir => congrArg _ (doPmov_read h hz hdir), fun hdir => congrArg _ (doPmov_write h hz hdir)⟩

/-! ### Loads and stores (R181 to R187) -/

/-- The local memory that a CAS or STEP may reach is PDM or TSM (R181, R185). -/
theorem isLocal_iff {core a n : Nat} :
    isLocal core a n = true ↔ (∃ o, place core a n = .pdm o) ∨ ∃ o, place core a n = .tsm o := by
  unfold isLocal
  cases place core a n <;> simp

section

variable {s : State} {core op n a : Nat} {lo : BitVec 32}

/-- A load of PDM or TSM that does not fault writes the bytes read, extended, at once (R183). -/
theorem doLoad_local (h : Executes s core op lo.toNat) (ha : a = mAddr (s.core core) lo.toNat)
    (hlocal : isLocal core a n = true) (hok : accessFault s core a n false = none) (signed : Bool) :
    doLoad op n signed core lo.toNat s =
      passed (wrote s core (fRd lo.toNat) (extend n signed (leNat (localRead s core a n)))) core
        (localLatency core a n) := by
  subst ha
  refine runPy_setGo h ?_
  obtain ⟨o, hplace⟩ | ⟨o, hplace⟩ := isLocal_iff.1 hlocal <;> simp only [hok, hplace]

/-- A load of stack memory that does not fault leaves its core waiting for the data (R183, R187). -/
theorem doLoad_stack {b : Nat} (h : Executes s core op lo.toNat) (ha : a = mAddr (s.core core) lo.toNat)
    (hplace : place core a n = .stack b) (hok : accessFault s core a n false = none) (signed : Bool) :
    doLoad op n signed core lo.toNat s =
      s.modCore core (fun c => { c with act := .loading (fRd lo.toNat) n signed a s.vcycle }) := by
  subst ha
  exact runPy_stay h (by simp only [hok, hplace])

/-- A load that faults raises the fault with its address (R203). -/
theorem doLoad_faults {code : Nat} (h : Executes s core op lo.toNat)
    (hfault : accessFault s core (mAddr (s.core core) lo.toNat) n false = some code) (signed : Bool) :
    doLoad op n signed core lo.toNat s = raiseExc s core code (mAddr (s.core core) lo.toNat) :=
  runPy_exc h (by simp only [hfault])

/-- The data of a stack load that meets a good line is written, and its core runs on (R187). -/
theorem doLoadReturn_stack {rd since b : Nat} {signed : Bool} (hact : (s.core core).act = .loading rd n signed a since)
    (hplace : place core a n = .stack b) (hfree : accessWaits s b = false) (hline : lineBad s (b / 64 * 64) = false)
    (v : BitVec 64) :
    doLoadReturn core (.ok v) s =
      s.modCore core (fun c => addCyc { setR c rd (extend n signed (leNat (readStack s b n))) with
        pc := (c.pc + 4) % 2 ^ 64, act := .running } (max 400 (coreCycles core (s.vcycle - since)))) := by
  simp only [doLoadReturn, hact, hplace, loadWaits, hfree, hline, Bool.false_eq_true, if_false]

/-- A store to PDM or TSM that does not fault writes the low bytes of its register (R183). -/
theorem doStore_local (h : Executes s core op lo.toNat) (ha : a = mAddr (s.core core) lo.toNat)
    (hlocal : isLocal core a n = true) (hok : accessFault s core a n true = none) :
    doStore op n core lo.toNat s =
      passed (localStore s core a (natLE n (getR (s.core core) (fRd lo.toNat)).toNat)) core 1 := by
  subst ha
  refine runPy_go h ?_
  obtain ⟨o, hplace⟩ | ⟨o, hplace⟩ := isLocal_iff.1 hlocal <;> simp only [hok, hplace]

/-- CAS of an aligned word of PDM or TSM that the core may read and write gives the old bytes to rd, and stores rs2 where they
equal rd (R185). -/
theorem doCas_executes {old : BitVec 64} (h : Executes s core 0x1C lo.toNat) (hz : fld lo.toNat 0 7 = 0)
    (ha : a = (getR (s.core core) (fRs1 lo.toNat)).toNat) (haligned : a % 8 = 0) (hlocal : isLocal core a 8 = true)
    (hread : regionOk core (s.core core) a 8 0 = true) (hwrite : regionOk core (s.core core) a 8 1 = true)
    (hold : old = BitVec.ofNat 64 (leNat (localRead s core a 8))) :
    doCas core lo.toNat s =
      passed (wrote (if old = getR (s.core core) (fRd lo.toNat)
        then localStore s core a (natLE 8 (getR (s.core core) (fRs2 lo.toNat)).toNat) else s)
        core (fRd lo.toNat) old) core (localLatency core a 8) := by
  subst ha hold
  have allowed : ¬ (decide ((getR (s.core core) (fRs1 lo.toNat)).toNat % 8 ≠ 0)
      || !isLocal core (getR (s.core core) (fRs1 lo.toNat)).toNat 8
      || !regionOk core (s.core core) (getR (s.core core) (fRs1 lo.toNat)).toNat 8 0
      || !regionOk core (s.core core) (getR (s.core core) (fRs1 lo.toNat)).toNat 8 1) = true := by
    simp [haligned, hlocal, hread, hwrite]
  exact runPy_setGo h ((if_neg (not_not.2 hz)).trans (if_neg allowed))

end

/-- Settles O20: the loads by `doLoad_local` at each width, the stores by `doStore_local`; what waits, faults or returns, CAS
and FENCE each by the lemma about it. -/
theorem pynexLoadsAndStoresComplete : Obligations.PynexLoadsAndStoresComplete := by
  unfold Obligations.PynexLoadsAndStoresComplete
  refine ⟨?ld64, ?ld32, ?ld16, ?ld8, ?lds32, ?lds16, ?lds8, ?waits, ?faults, ?returns, ?st64, ?st32, ?st16, ?st8, ?cas,
    ?fence⟩
  case ld64 | ld32 | ld16 | ld8 | lds32 | lds16 | lds8 =>
    intro core a lo s h ha hlocal hok
    exact congrArg _ (doLoad_local h ha hlocal hok _)
  case waits =>
    intro core a b lo s h ha hplace hok
    exact congrArg _ (doLoad_stack h ha hplace hok false)
  case faults =>
    intro core code lo s h hfault
    exact congrArg _ (doLoad_faults h hfault false)
  case returns =>
    intro core rd n a since b v s hact hplace hfree hline
    exact congrArg _ (doLoadReturn_stack hact hplace hfree hline v)
  case st64 | st32 | st16 | st8 =>
    intro core a lo s h ha hlocal hok
    exact congrArg _ (doStore_local h ha hlocal hok)
  case cas =>
    intro core lo a old s h hz ha ⟨haligned, hlocal, hread, hwrite⟩ hold
    rw [exec_cas, execCas, doCas_executes h hz ha haligned hlocal hread hwrite hold]
    exact ⟨fun heq => by rw [if_pos heq], fun hne => by rw [if_neg hne]⟩
  case fence =>
    intro core lo s h hz
    exact congrArg _ (runPy_go h (if_neg (not_not.2 hz)))

/-! ### Frames and control flow (R169 to R171, R179, R201, R205) -/

/-- A frame entered above the current one of core `k`, whose registers are zero (R170, R201). -/
def enteredFrame (k : Core) : Core :=
  { clearFrame k (k.depth + 1) with depth := k.depth + 1, resident := min (k.resident + 1) 31 }

/-- The current frame of core `k` discarded for the one below (R171). -/
def leftFrame (k : Core) : Core :=
  { clearFrame k k.depth with depth := k.depth - 1, resident := if k.resident = 1 then 1 else k.resident - 1 }

section

variable {s : State} {core : Nat} {lo : BitVec 32}

/-- A frame above a resident one is left without a fill, in two cycles (R171). -/
theorem leaveFrame_resident (hdepth : 0 < (s.core core).depth) (hres : (s.core core).resident ≠ 1) :
    leaveFrame core s = some (s.modCore core leftFrame, 2) := by
  simp only [leaveFrame, if_neg (Nat.pos_iff_ne_zero.1 hdepth), if_neg hres]
  rfl

/-- An exception that is not fatal, outside a handler, at a core with an event vector and a frame to spare enters the handler's
frame at the vector (R201). -/
theorem raiseExc_enters {code : Nat} (hcode : fatal code = false) (hout : (s.core core).inHandler = false)
    (hvec : (s.core core).evec ≠ 0) (hres : (s.core core).resident < 31) {addr : Nat} (haddr : addr < 2 ^ 64) :
    raiseExc s core code addr =
      programFault (((s.modCore core (fun c => { c with epc := c.pc, ecause := code, eaddr := addr })).modCore core
        (fun c => { c with maskOf := mset c.maskOf c.depth 0xFFFF 0 })).modCore core (fun c =>
          addCyc { enteredFrame c with inHandler := true, pc := c.evec, act := .running } 4)) core (s.core core).pc code := by
  simp only [raiseExc, hcode, hout, beq_eq_false_iff_ne.2 hvec, if_neg hres.ne, Nat.mod_eq_of_lt haddr, Bool.or_self,
    Bool.false_eq_true, if_false]
  rfl

/-- JR with its zero fields zero goes to its register, in two cycles. -/
theorem doJr_aligned (h : Executes s core 0x21 lo.toNat) (hhigh : fld lo.toNat 17 5 = 0) (hlow : fld lo.toNat 0 12 = 0)
    (ht : (getR (s.core core) (fRs1 lo.toNat)).toNat % 4 = 0) :
    doJr core lo.toNat s = jumped s core (getR (s.core core) (fRs1 lo.toNat)).toNat 2 :=
  runPy_jump h ((if_neg (by simp [hhigh, hlow])).trans (if_neg (not_not.2 ht)))

/-- JR to an address that is no word's faults as its fetch would (R178). -/
theorem doJr_misaligned (h : Executes s core 0x21 lo.toNat) (hhigh : fld lo.toNat 17 5 = 0) (hlow : fld lo.toNat 0 12 = 0)
    (ht : (getR (s.core core) (fRs1 lo.toNat)).toNat % 4 ≠ 0) :
    doJr core lo.toNat s = raiseExc s core 0x04 (getR (s.core core) (fRs1 lo.toNat)).toNat :=
  runPy_exc h ((if_neg (by simp [hhigh, hlow])).trans (if_pos ht))

/-- CALL below the spill depth enters a frame with its return address in w15 and goes to its target (R170). -/
theorem doCall_unspilled {t : Nat} (h : Executes s core 0x24 lo.toNat) (hz : bitAt lo.toNat 16 = false)
    (hdepth : (s.core core).depth ≠ 65535) (hres : (s.core core).resident < 31)
    (ht : t = (getR (s.core core) (fRd lo.toNat)).toNat) (haligned : t % 4 = 0) (hfetch : fetchOk core (s.core core) t = true) :
    doCall core lo.toNat s = jumped (s.modCore core (fun k =>
      setR (enteredFrame { k with maskOf := mset k.maskOf k.depth (fld lo.toNat 0 16) 0 }) 23
        (BitVec.ofNat 64 ((s.core core).pc + 4)))) core t 2 := by
  subst ht
  refine runPy_jump h ?_
  simp only [hz, hdepth, haligned, hfetch, decide_eq_false hres.ne, ne_eq, not_true_eq_false, reduceCtorEq, or_self,
    Bool.false_eq_true, if_false]
  rfl

/-- RET goes to w15 in the frame below, after the cycles of leaving the current one (R171). -/
theorem doRet_leaves {s1 : State} {n : Nat} (h : Executes s core 0x25 lo.toNat) (hz : fld lo.toNat 0 22 = 0)
    (hleave : leaveFrame core s = some (s1, n)) : doRet core lo.toNat s = jumped s1 core (getR (s.core core) 23).toNat n :=
  runPy_jump h (by simp only [hz, hleave, ne_eq, not_true_eq_false, if_false])

/-- RET whose frame cannot be left raises WINDOW_FAULT with the spill pointer (R171). -/
theorem doRet_cannotLeave (h : Executes s core 0x25 lo.toNat) (hz : fld lo.toNat 0 22 = 0)
    (hleave : leaveFrame core s = none) : doRet core lo.toNat s = raiseExc s core 0x06 (s.core core).spillPtr :=
  runPy_exc h (by simp only [hz, hleave, ne_eq, not_true_eq_false, if_false])

/-- ERET in a handler leaves the frame as RET does, goes to EPC and ends the handler (R205). -/
theorem doEret_leaves {s1 : State} {n : Nat} (h : Executes s core 0x26 lo.toNat) (hz : fld lo.toNat 0 22 = 0)
    (hin : (s.core core).inHandler = true) (hleave : leaveFrame core s = some (s1, n)) :
    doEret core lo.toNat s = jumped (s1.modCore core (fun k => { k with inHandler := false })) core (s.core core).epc n :=
  runPy_jump h (by simp only [hz, hin, hleave, ne_eq, not_true_eq_false, reduceCtorEq, or_self, if_false])

/-- ERET in a handler whose frame cannot be left raises WINDOW_FAULT as RET does (R171, R205). -/
theorem doEret_cannotLeave (h : Executes s core 0x26 lo.toNat) (hz : fld lo.toNat 0 22 = 0)
    (hin : (s.core core).inHandler = true) (hleave : leaveFrame core s = none) :
    doEret core lo.toNat s = raiseExc s core 0x06 (s.core core).spillPtr :=
  runPy_exc h (by simp only [hz, hin, hleave, ne_eq, not_true_eq_false, reduceCtorEq, or_self, if_false])

/-- ERET outside a handler is illegal, whatever its other fields hold (R205). -/
theorem doEret_outside (h : Executes s core 0x26 lo.toNat) (hout : (s.core core).inHandler = false) :
    doEret core lo.toNat s = raiseExc s core 0x01 lo.toNat :=
  runPy_illegal h (if_pos (.inr hout))

/-- TRAP with its zero field zero raises its exception with its immediate (R179). -/
theorem doTrap_raises (h : Executes s core 0x27 lo.toNat) (hz : fld lo.toNat 16 6 = 0) :
    doTrap core lo.toNat s = raiseExc s core 0x0A (fld lo.toNat 0 16) :=
  runPy_exc h (if_neg (not_not.2 hz))

end

/-- Settles O21: each instruction by the lemma about it; RET and ERET with `leaveFrame_resident`, TRAP with
`raiseExc_enters`. -/
theorem pynexControlFlow : Obligations.PynexControlFlow := by
  unfold Obligations.PynexControlFlow
  refine ⟨?br, ?jr, ?adr, ?call, ?ret, ?eret, ?trap⟩
  case br =>
    intro core lo s h
    exact congrArg _ (runPy_jump h rfl)
  case jr =>
    intro core lo s h ⟨hhigh, hlow⟩
    exact ⟨fun ht => congrArg _ (doJr_aligned h hhigh hlow ht), fun ht => congrArg _ (doJr_misaligned h hhigh hlow ht)⟩
  case adr =>
    intro core lo s h
    exact congrArg _ (runPy_setGo h rfl)
  case call =>
    intro core lo t s h hz ⟨hdepth, hres⟩ ht ⟨haligned, hfetch⟩
    exact congrArg _ (doCall_unspilled h hz hdepth hres ht haligned hfetch)
  case ret =>
    intro core lo s h hz ⟨hdepth, hres⟩
    exact congrArg _ (doRet_leaves h hz (leaveFrame_resident hdepth hres))
  case eret =>
    intro core lo s h hz hin ⟨hdepth, hres⟩
    exact congrArg _ (doEret_leaves h hz hin (leaveFrame_resident hdepth hres))
  case trap =>
    intro core lo s t h hz ⟨hout, hvec, hres⟩ ht
    have imm_fits : fld lo.toNat 0 16 < 2 ^ 64 := (Nat.mod_lt _ (by decide)).trans (by decide)
    subst ht
    exact congrArg _ ((doTrap_raises h hz).trans (raiseExc_enters rfl hout hvec hres imm_fits))

/-- Settles O57: RET and ERET by the lemmas about leaving a frame, ERET outside a handler by `doEret_outside`. -/
theorem eretActsAsRetToEpc : Obligations.EretActsAsRetToEpc := by
  unfold Obligations.EretActsAsRetToEpc
  refine ⟨?retLeaves, ?eretLeaves, ?retCannot, ?eretCannot, ?outside⟩
  case retLeaves =>
    intro core n lo s s1 h hz hleave
    exact congrArg _ (doRet_leaves h hz hleave)
  case eretLeaves =>
    intro core n lo s s1 h ⟨hz, hin⟩ hleave
    exact congrArg _ (doEret_leaves h hz hin hleave)
  case retCannot =>
    intro core lo s h hz hleave
    exact congrArg _ (doRet_cannotLeave h hz hleave)
  case eretCannot =>
    intro core lo s h ⟨hz, hin⟩ hleave
    exact congrArg _ (doEret_cannotLeave h hz hin hleave)
  case outside =>
    intro core lo s h hout
    exact congrArg _ (doEret_outside h hout)

end Sys2Proof.Machine

/-! # The keepers (06): failover, restarts, drains and hand-offs, and the statement about them -/

namespace Sys2Proof.Machine

/-! ### Keepers: failover, reload and the ROM's restart (R210, R237, R238) -/

/-- A standby that runs takes over from an active keeper that does not (R210, R237). -/
theorem doFailover_standby {s u : State} (hdown : keeperUp s s.fw.active = false) (hup : keeperUp s (1 - s.fw.active) = true)
    (hu : u = if lget s.fw.dkUp s.fw.active false then stopKeeper s s.fw.active (fld (s.core (64 + s.fw.active)).ecause 0 8) else s) :
    doFailover s = postAll (takePf0Rings { u with fw := { u.fw with active := 1 - s.fw.active, failovers := satAdd 8 u.fw.failovers 1 } }
      s.fw.active (1 - s.fw.active)) bothPf1 0x1305 (64 + (1 - s.fw.active)) (1 - s.fw.active) := by
  subst hu
  simp only [doFailover, hdown, hup, Bool.not_true, Bool.or_self, Bool.false_eq_true, if_false]

/-- Beside an active keeper the stopped one starts afresh, as the standby (R237). -/
theorem doKeeperReload_stopped {s : State} (hactive : activeUp s = true) (hdown : keeperUp s (1 - s.fw.active) = false) :
    doKeeperReload s = (startKeeper s (1 - s.fw.active)).modCore (64 + (1 - s.fw.active)) (fun k => { k with restarts := satAdd 8 k.restarts 1 }) := by
  simp only [doKeeperReload, hactive, hdown, Bool.not_false, Bool.and_self, if_true]

/-- What the ROM does first when the restart timer runs out: it stops the keepers that still count as running (R238). -/
def keepersStopped (s : State) : State :=
  [0, 1].foldl (fun s n => if lget s.fw.dkUp n false then stopKeeper s n (s.core (64 + n)).lastCause else s) s

/-- Keepers that are both down already are left as they are. -/
theorem keepersStopped_down {s : State} (h : lget s.fw.dkUp 0 false = false ∧ lget s.fw.dkUp 1 false = false) :
    keepersStopped s = s := by
  simp only [keepersStopped, List.foldl_cons, List.foldl_nil, h.1, h.2, Bool.false_eq_true, if_false]

/-- After power-good, 5 ms from the last kick begin one restart of both keepers (R238). -/
theorem doRomRestart_due {s u : State} (hrom : s.power.romDone = true) (hfirst : s.fw.bothDown = false)
    (hu : u = keepersStopped (advanceTo s (s.fw.kickAt + 5 * msCycles))) :
    doRomRestart s = { u with fw := { u.fw with bothDown := true } } := by
  subst hu
  simp only [doRomRestart, keepersStopped, hrom, hfirst, Bool.not_true, Bool.or_self, Bool.false_eq_true, if_false]

/-! ### Drains, hand-offs and adoption (R213, R239, R240) -/

/-- The core whose turn it is in a replacement is asked to drain (R239). -/
theorem doDrainRequest_turn {s : State} {c : Nat} {r : Repl} (hrepl : s.fw.repl = some r) (hactive : activeUp s = true)
    (hturn : r.todo.head? = some c) (hrun : (s.core c).st = .running) (hc : c < 64) :
    doDrainRequest c s = askDrain s c := by
  simp only [doDrainRequest, hrepl, hactive, hturn, hrun, hc, beq_self_eq_true, decide_true, Bool.and_self, if_true]

/-- A cancelled drain: the core runs on and the replacement fails (R213, R240). -/
theorem doDrainCancel_draining {s : State} {c : Nat} (hst : (s.core c).st = .draining) (hactive : activeUp s = true) :
    doDrainCancel c s = replFail ((keeperWord (keeperWord s c 2) c 0).modCore c (fun k => { k with st := .running })) c := by
  simp only [doDrainCancel, hst, hactive, beq_self_eq_true, Bool.and_self, if_true]

/-- A drain that runs out outside a shutter ends as a cancelled one does, 100 ms after it began (R240). -/
theorem doHandoffTimeout_draining {s : State} {c : Nat} (hst : (s.core c).st = .draining) (hstay : tileLeaving s c = false) :
    doHandoffTimeout c s = replFail ((keeperWord (advanceTo s ((s.core c).drainSince + 100 * msCycles)) c 0).modCore c
      (fun k => { k with st := .running })) c := by
  simp only [doHandoffTimeout, hst, hstay, beq_self_eq_true, Bool.not_false, Bool.and_self, if_true]

/-- A hand-off record of a draining core outside a shutter: the new image starts on the core (R196, R239). -/
theorem doHandoff_record {s u : State} {c : Nat} (hst : (s.core c).st = .draining) (hc : c < 64)
    (hserved : atService (s.core c) = true) (hstay : tileLeaving s c = false) (hu : u = holdAll (breakLocks (keeperWord s c 0) c) c) :
    doHandoff c s = u.modCore c (fun k => { freshCore u c { k with newImage := !k.newImage } with st := .swapping }) := by
  subst hu
  have acts : ¬ ((s.core c).st ≠ .draining ∨ c ≥ 64 ∨ atService (s.core c) = false) :=
    not_or.2 ⟨not_not.2 hst, not_or.2 ⟨Nat.not_le.2 hc, by simp only [hserved, Bool.true_eq_false, not_false_eq_true]⟩⟩
  simp only [doHandoff, acts, hstay, if_false, Bool.false_eq_true]

/-- A new image adopts the record of the core it runs on (R239, R240). -/
theorem doSwapAdopt_swapping {s : State} {c : Nat} (hst : (s.core c).st = .swapping) :
    doSwapAdopt c s = settleProg (replNext (replayLaunch (unholdAll (s.modCore c (fun k => { k with st := .running })) c) c) c) :=
  if_neg (not_not.2 hst)

/-- Settles O25: each command by the lemma about it; what the ROM finds of the keepers by `keepersStopped_down`. -/
theorem keepersAndHandoffs : Obligations.KeepersAndHandoffs := by
  unfold Obligations.KeepersAndHandoffs
  refine ⟨?failover, ?reload, ?romDown, ?romDue, ?drain, ?cancel, ?timeout, ?record, ?adopt⟩
  case failover =>
    intro s u ⟨hdown, hup⟩ hu
    exact congrArg _ (doFailover_standby hdown hup hu)
  case reload =>
    intro s hactive hdown
    exact congrArg _ (doKeeperReload_stopped hactive hdown)
  case romDown =>
    intro s ⟨hrom, hfirst⟩ hdown
    have left_alone := keepersStopped_down (s := advanceTo s (s.fw.kickAt + 5 * msCycles)) hdown
    exact congrArg _ (doRomRestart_due hrom hfirst left_alone.symm)
  case romDue =>
    intro s u ⟨hrom, hfirst⟩ hu
    exact congrArg _ (doRomRestart_due hrom hfirst hu)
  case drain =>
    intro c r s hrepl ⟨hactive, hturn⟩ ⟨hrun, hc⟩
    exact congrArg _ (doDrainRequest_turn hrepl hactive hturn hrun hc)
  case cancel =>
    intro c s hst hactive
    exact congrArg _ (doDrainCancel_draining hst hactive)
  case timeout =>
    intro c s hst hstay
    exact congrArg _ (doHandoffTimeout_draining hst hstay)
  case record =>
    intro c s u ⟨hst, hc⟩ hserved hstay hu
    exact congrArg _ (doHandoff_record hst hc hserved hstay hu)
  case adopt =>
    intro c s hst
    exact congrArg _ (doSwapAdopt_swapping hst)

end Sys2Proof.Machine

/-! # The runtime services (06): what a launch's calls do, and the statement about them -/

namespace Sys2Proof.Machine

/-! ### Runtime services: the call and what it returns (R220, R221, R222) -/

section
variable {s : State} {core n : Nat} {l : Launch} {m : Comm}

/-- Arguments of a service call: the first k exchange registers (R220). -/
def exchanged (s : State) (core k : Nat) : List Nat := (List.range k).map (fun i => (mget (s.core core).x i 0#64).toNat)

/-- A launch that calls a service at its address makes none of the calls that R606 fixes. -/
theorem Calls.program (h : Calls s core n l m) : ownCalls l = false := by
  obtain ⟨_, _, _, ⟨hprogram, _⟩, _⟩ := h
  exact hprogram

/-- A call that the journal does not answer is performed; what comes of it is journaled and returned, ends the launch, or
waits (R222). -/
theorem rtCall_live (h : Calls s core n l m) (k : Nat) (own : Comm → Launch → Option (List Nat))
    (live : Comm → Launch → List Nat → State → RtRes) :
    rtCall core n k own live s = match live m l (exchanged s core k) s with
      | .stop s1 => tellAlive s1 core
      | .wait s1 => s1
      | .done s1 rs => returned s1 core n l (exchanged s core k) rs := by
  obtain ⟨hrunning, hcomm, ⟨hcore, hrun⟩, ⟨hprogram, hpc⟩, hjournal⟩ := h
  have serves : ¬ (64 ≤ core ∨ (!canRun s core) = true) :=
    not_or.2 ⟨Nat.not_le.2 hcore, by simp only [hrun, Bool.not_true, Bool.false_eq_true, not_false_eq_true]⟩
  simp only [rtCall, hrunning, hcomm, serves, hprogram, hpc, hjournal, if_false, if_true, Bool.false_eq_true]
  rfl

variable {k : Nat} {own : Comm → Launch → Option (List Nat)} {live : Comm → Launch → List Nat → State → RtRes} {u : State}

/-- A service that is done returns its results. -/
theorem rtCall_done {rs : List Nat} (h : Calls s core n l m) (hlive : live m l (exchanged s core k) s = .done u rs) :
    rtCall core n k own live s = returned u core n l (exchanged s core k) rs := by
  rw [rtCall_live h, hlive]

/-- A service that ends the launch returns nothing; the call still counts as a sign of life (R221). -/
theorem rtCall_stop (h : Calls s core n l m) (hlive : live m l (exchanged s core k) s = .stop u) :
    rtCall core n k own live s = tellAlive u core := by
  rw [rtCall_live h, hlive]

/-! ### What each service does (R220, R221, R223, R224) -/

/-- rt_step of a record in PDM: refused while 64 steps are outstanding, else posted under the launch's next tag (R189, R221). -/
theorem rtStepLive_record {d : Nat} {a : List Nat} (hprogram : ownCalls l = false) (haligned : lget a 0 0 % 64 = 0)
    (hrecord : pdm64 s core (lget a 0 0) = some d) :
    rtStepLive core m l a s = if 64 ≤ (s.core core).stepsOut then .done s [1, 0]
      else .done (postStep (modRunning s core (fun l' => { l' with stepSeq := l.stepSeq + 1 })) core
        (BitVec.ofNat 512 (setFld d 32 32 (l.stepSeq + 1)))) [0, l.stepSeq + 1] := by
  simp only [rtStepLive, hprogram, haligned, hrecord, ne_eq, not_true_eq_false, Bool.false_eq_true, if_false]

/-- rt_reap of a program that is no library takes the oldest completion, whatever its status (R220, R224). -/
theorem rtReapLive_oldest {w : Nat × Nat} {rest : List (Nat × Nat)} (hprogram : isLibrary l.progId = false)
    (hq : (s.core core).scq = w :: rest) (a : List Nat) :
    rtReapLive core m l a s = .done (modRunning (s.modCore core (fun c => { c with scq := rest, stepsOut := c.stepsOut - 1 })) core
      (absorbStep w)) [w.1, w.2] := by
  simp only [rtReapLive, hq, hprogram, Bool.false_and, Bool.false_eq_true, if_false]

/-- rt_put on a queue pair whose send queue is full posts nothing and returns 1 (R220). -/
theorem rtPutLive_full {a : List Nat} {q : Qp} (hnode : lget a 0 0 < m.nodes ∧ lget a 0 0 ≠ m.nodeIndex)
    (hlen : lget a 3 0 % 64 = 0 ∧ lget a 3 0 ≤ 2 ^ 31) (hq : oget s.rdma.qps (lget m.peers (lget a 0 0) (0, 0, 0)).1 = some q)
    (hst : q.st = .rts) (hfull : 2 ^ q.sqLog ≤ q.sends.length) :
    rtPutLive core m l a s = .done s [1] := by
  obtain ⟨hin, hother⟩ := hnode
  obtain ⟨hwhole, hfits⟩ := hlen
  have legal : ¬ (m.nodes ≤ lget a 0 0 ∨ lget a 0 0 = m.nodeIndex ∨ lget a 3 0 % 64 ≠ 0 ∨ 2 ^ 31 < lget a 3 0) := by omega
  simp only [rtPutLive, legal, hq, hst, hfull, ne_eq, not_true_eq_false, if_false, if_true]

/-- rt_arrived answers at once where bytes have arrived or no wait is asked for (R220). -/
theorem rtArrivedLive_now {a : List Nat} {n : Nat} (hn : n = mget m.arrived (lget a 0 0) 0 - mget l.arrived (lget a 0 0) 0)
    (hnow : n ≠ 0 ∨ lget a 1 0 = 0) : rtArrivedLive core m l a s = .done s [n] := by
  subst hn
  by_cases hsome : mget m.arrived (lget a 0 0) 0 - mget l.arrived (lget a 0 0) 0 = 0
  · have nowait : lget a 1 0 = 0 := hnow.resolve_left (not_not.2 hsome)
    simp only [rtArrivedLive, hsome, nowait, ne_eq, not_true_eq_false, if_false, if_true]
  · simp only [rtArrivedLive, hsome, ne_eq, not_false_eq_true, if_true]

/-- rt_move of a length that is no multiple of 64 moves nothing (R220). -/
theorem rtMoveLive_ragged {a : List Nat} (hlen : lget a 2 0 % 64 ≠ 0) (x : ARead) :
    rtMoveLive core x m l a s = .done s [0x06] := if_pos hlen

/-- rt_move copies what it reads and returns the status of its write (R221). -/
theorem rtMoveLive_copies {a : List Nat} {x : ARead} {src dst : Nat ⊕ (Nat × Nat × Nat)} {bs : List Byte}
    (hlen : lget a 2 0 % 64 = 0 ∧ lget a 2 0 ≠ 0) (hsrc : moveAt m (lget a 0 0) (lget a 2 0) = some src)
    (hdst : moveAt m (lget a 1 0) (lget a 2 0) = some dst) (hread : moveRead s src (lget a 2 0) x = (u, 0, bs)) :
    rtMoveLive core x m l a s = .done (moveWrite u dst bs).1 [(moveWrite u dst bs).2] := by
  simp only [rtMoveLive, hlen, hsrc, hdst, hread, ne_eq, not_true_eq_false, if_false]

/-- rt_notify of a record in PDM whose copies all leave returns nothing (R223). -/
theorem rtNotifyLive_sent {a : List Nat} {d : Nat} (hprogram : ownCalls l = false) (hrecord : pdm64 s core (lget a 0 0) = some d)
    (hsent : notifyPorts l d s 0 (ranksOf m) = (u, 0)) : rtNotifyLive core m l a s = .done u [] := by
  simp only [rtNotifyLive, hprogram, hrecord, hsent, Bool.false_eq_true, if_false]

/-- rt_finish takes the completions not yet reaped into the result, which only status 0x00 reports (R224). -/
theorem rtFinishLive_ends {a : List Nat} {l1 : Launch}
    (hu : u = modRunning s core (fun l => (s.core core).scq.foldl (fun l w => absorbStep w l) l))
    (hl1 : runningLaunch (u.core core) = some l1) :
    rtFinishLive core m l a s =
      .stop (endLaunch u core (lget a 0 0 % 256) (if lget a 0 0 % 256 = 0 then launchResult l1 else 0)) := by
  subst hu
  simp only [rtFinishLive, hl1]

end

/-- Settles O26: `rtCall_done` with the lemma about each service, and `rtCall_stop` for rt_finish, which ends its launch. -/
theorem runtimeServicesAnswer : Obligations.RuntimeServicesAnswer := by
  unfold Obligations.RuntimeServicesAnswer
  refine ⟨?step, ?reap, ?put, ?arrived, ?ragged, ?move, ?notify, ?finish, ?yield⟩
  case step =>
    intro core d tag l m a s h ha ⟨haligned, hrecord⟩ htag
    subst ha htag
    have posts := rtStepLive_record (m := m) h.program haligned hrecord
    exact ⟨fun hfull => congrArg _ (rtCall_done h (posts.trans (if_pos hfull))),
      fun hroom => congrArg _ (rtCall_done h (posts.trans (if_neg (Nat.not_le.2 hroom))))⟩
  case reap =>
    intro core l m w rest s h hprogram hq
    exact congrArg _ (rtCall_done h (rtReapLive_oldest hprogram hq _))
  case put =>
    intro core node len l m q a s h ha ⟨hnode, hlen⟩ ⟨hin, hother, hwhole, hfits⟩ hq ⟨hst, hfull⟩
    subst hnode hlen ha
    exact congrArg _ (rtCall_done h (rtPutLive_full ⟨hin, hother⟩ ⟨hwhole, hfits⟩ hq hst hfull))
  case arrived =>
    intro core n l m a s h ha hn hnow
    subst ha
    exact congrArg _ (rtCall_done h (rtArrivedLive_now hn hnow))
  case ragged =>
    intro core x l m a s h ha hlen
    subst ha
    exact congrArg _ (rtCall_done h (rtMoveLive_ragged hlen x))
  case move =>
    intro core x l m a src dst bs s u h ha hlen ⟨hsrc, hdst⟩ hread
    subst ha
    exact congrArg _ (rtCall_done h (rtMoveLive_copies hlen hsrc hdst hread))
  case notify =>
    intro core d l m a s u h ha hrecord hsent
    subst ha
    exact congrArg _ (rtCall_done h (rtNotifyLive_sent h.program hrecord hsent))
  case finish =>
    intro core st l l1 m s u h hu hl1 hst
    subst hst
    exact congrArg _ (rtCall_stop h (rtFinishLive_ends hu hl1))
  case yield =>
    intro core l m s h
    exact congrArg _ (rtCall_done h rfl)

end Sys2Proof.Machine

/-! # Programs, communicators and launches (06): what their commands do, and the statement about them -/

namespace Sys2Proof.Machine

/-! ### Programs (R218, R219, R225, R227) -/

/-- The header of a program image (Table 6-5). -/
def imageHeader (data : List Byte) : Nat := leNat (data.take 256)

/-- What a slot holds of a program image (R218). -/
def imageSlot (data : List Byte) : Slot :=
  { progId := fld (imageHeader data) 48 16, ranked := bitAt (imageHeader data) 64, entry := fld (imageHeader data) 128 32
    code := sliceB data 256 (fld (imageHeader data) 80 16)
    data := sliceB data (256 + fld (imageHeader data) 80 16) (fld (imageHeader data) 96 16) }

/-- The installer has signed an image: the signature follows the bytes it covers (R219). -/
def imageSigned (s : State) (data : List Byte) : Bool :=
  s.trust.installer.any (fun k => hssVerify k.pub (data.drop (fld (imageHeader data) 160 32)) (data.take (fld (imageHeader data) 160 32)))

/-- A VF loads no program (R225). -/
theorem progLoad_vf {s : State} {r : Nat} (h : isVf r = true) (d : Nat) (ref : DRef) (read : HRead) :
    progLoad r d ref read s = bad s 0x0E := if_pos h

section
variable {s u : State} {r d n : Nat} {ref : DRef} {data : List Byte}

/-- A signed image of a new identifier is audited, then placed in the lowest free slot (R219, R227, R562). -/
theorem progLoad_signed (hpf : isVf r = false)
    (hfields : fld d 64 64 % 64 = 0 ∧ 256 ≤ fld d 128 32 ∧ fld d 128 32 ≤ 2 ^ 20)
    (hread : rdHost s r (fld d 128 32) (.ok data) = (0, data)) (hheader : headerOk (imageHeader data) (fld d 128 32) = true)
    (hcode : codeBanned ((imageSlot data).code.length / 4) (imageSlot data).code = false) (hsigned : imageSigned s data = true)
    (hfresh : s.fw.slots.any (fun p => p.2.progId == (imageSlot data).progId) = false)
    (hslot : lowestFree s.fw.slots 5 12 = some n)
    (haudit : auditRec s 0x0300 2 r 0 (0x13 + (imageSlot data).progId * 2 ^ 16) = some u) :
    progLoad r d ref (.ok data) s = progDone
      (writeSlot { u with fw := { u.fw with slots := oput u.fw.slots n (imageSlot data) } } n (imageSlot data).code)
      ref ((imageSlot data).progId + n * 2 ^ 16) := by
  have fields_ok : ¬ (fld d 64 64 % 64 ≠ 0 ∨ fld d 128 32 < 256 ∨ 2 ^ 20 < fld d 128 32) := by omega
  simp only [imageSigned, imageSlot, imageHeader] at hheader hcode hsigned hfresh haudit ⊢
  simp only [progLoad, hpf, fields_ok, hread, hheader, hcode, hsigned, hfresh, hslot, audited, haudit, Bool.not_true, Bool.or_self,
    Bool.false_eq_true, ne_eq, not_true_eq_false, if_false]


/-- A command on a shared object that contradicts none of its message time runs and is remembered (R66). -/
theorem exclusive_alone {cap item effect : Nat} (h : contradicted s r cap item effect = none) (act : State → CmdRes) :
    exclusive s r cap item effect act = act (noteDone s r cap item effect) := by
  simp only [exclusive, h]

/-- A loaded program that no communicator uses leaves its slot (R227, R229). -/
theorem progUnload_unused {x : Slot} (hpf : isVf r = false) (hlib : isLibrary (fld d 64 16) = false)
    (hslot : s.fw.slots.find? (fun p => p.2.progId == fld d 64 16) = some (n, x)) (hunused : progUsers s (fld d 64 16) = 0)
    (halone : contradicted s r 0x13 (fld d 64 16) 1 = none) (hu : u = noteDone s r 0x13 (fld d 64 16) 1) :
    progUnload r d ref s = progDone (writeSlot { u with fw := { u.fw with slots := odel u.fw.slots n } } n []) ref 0 := by
  subst hu
  have unused_still : progUsers (noteDone s r 0x13 (fld d 64 16) 1) (fld d 64 16) = 0 := hunused
  simp only [progUnload, hpf, hlib, hslot, exclusive_alone halone, unused_still, ne_eq, not_true_eq_false, Bool.false_eq_true, if_false]

/-! ### Communicators (R226, R227, R229) -/

/-- The staging region of a new communicator, over its place in stack memory (R227). -/
def stagingRegion (s : State) (r d base g : Nat) : Mr :=
  { own := s.ownOf r, pd := 65536, gen := g, access := 0b0111, length := fld d 128 16 * 2 ^ 20, base := base, staging := true }

/-- The communicator that a COMM_CREATE describes, with its staging place and key (R227). -/
def describedComm (s : State) (r i d base key : Nat) : Comm :=
  { own := s.ownOf r, ring := i, home := (s.ring r i).owner, progId := fld d 64 16, nodes := fld d 80 16, nodeIndex := fld d 96 16
    localPorts := fld d 112 8, stagingMib := fld d 128 16, stagingBase := base, rkey := key, connected := fld d 80 16 == 1 }

/-- A COMM_CREATE whose fields are in range takes the lowest number, place and key, and reports them with the home core (R227). -/
theorem commCreate_placed {i c base x g : Nat} (hprog : (progSlot s (fld d 64 16)).isSome = true)
    (hnodes : nodesOk (fld d 64 16) (fld d 80 16) = true ∧ fld d 96 16 < fld d 80 16) (hports : fld d 112 8 ≠ 0)
    (hmib : 1 ≤ fld d 128 16 ∧ fld d 128 16 ≤ 4096)
    (halone : contradicted s r 0x13 (fld d 64 16) 2 = none) (hu : u = noteDone s r 0x13 (fld d 64 16) 2)
    (hc : lowestFree u.fw.comms 0 1024 = some c)
    (hbase : placeStaging u (u.ring r i).owner (fld d 128 16 * 2 ^ 20) = some base)
    (hx : lowestFree u.rdma.mrs 0 (2 ^ 20) = some x) (hg : g = (mget u.rdma.mrGen x 0 + 1) % 256) :
    commCreate r i d s = okR { u.modRdma (fun y => { y with mrs := oput y.mrs x (stagingRegion u r d base g), mrGen := mset y.mrGen x g 0 }) with
        fw := { u.fw with comms := oput u.fw.comms c (describedComm u r i d base (g + x * 256)) } }
      (c + (u.ring r i).owner % 128 * 2 ^ 16 + (g + x * 256) * 2 ^ 32) := by
  obtain ⟨hcount, hindex⟩ := hnodes
  have loaded : (progSlot s (fld d 64 16)).isNone = false := by simpa using hprog
  have in_range : ¬ ((!nodesOk (fld d 64 16) (fld d 80 16)) = true ∨ fld d 80 16 ≤ fld d 96 16 ∨ fld d 112 8 = 0
      ∨ fld d 128 16 < 1 ∨ 4096 < fld d 128 16) := by
    simp only [hcount, Bool.not_true, Bool.false_eq_true, false_or]
    omega
  have same_home : (u.ring r i).owner = (s.ring r i).owner := by rw [hu]; rfl
  rw [same_home] at hbase
  simp only [commCreate, loaded, in_range, exclusive_alone halone, ← hu, hc, hbase, hx, ← hg, stagingRegion, describedComm,
    same_home, Bool.false_eq_true, if_false]
  rfl

/-- A function reaches its own communicator through the ring pair that created it (R229). -/
theorem withComm_owned {i c : Nat} {m : Comm} (hm : oget s.fw.comms c = some m) (hown : owns s r m.own = true ∧ m.ring = i)
    (act : Comm → CmdRes) : withComm s r i c act = act m := by
  obtain ⟨howner, hring⟩ := hown
  simp only [withComm, hm, howner, hring, ne_eq, not_true_eq_false, Bool.not_true, Bool.false_eq_true, if_false]

/-- A started descriptor changes nothing about who owns a communicator. -/
theorem begun_reaches {i : Nat} {m : Comm} {e : Fetched} (h : startable s r i = some e) (hown : owns s r m.own = true ∧ m.ring = i) :
    owns (begun s r i e) r m.own = true ∧ m.ring = i :=
  hown.imp_left (begun_owns h r m.own).trans

/-- A communicator of one node is connected by its own zero entry, and binds no queue pair (R226). -/
theorem commConnect_single {i : Nat} {m : Comm} {read : HRead} (hm : oget s.fw.comms (fld d 64 16) = some m)
    (hown : owns s r m.own = true ∧ m.ring = i) (hone : m.nodes = 1 ∧ m.nodeIndex = 0)
    (hread : (rdHost s r 16 read).1 = 0) (hzero : leNat (sliceB (rdHost s r 16 read).2 0 16) = 0)
    (hbound : tooManyBound s [] = false) (hu : u = bindMark (unbindMark s (fld d 64 16)) [] (fld d 64 16)) :
    commConnect r i d read s = ok0 { u with fw := { u.fw with
      comms := omod u.fw.comms (fld d 64 16) (fun m => { m with connected := true, peers := [(0, 0, 0)] }) } } := by
  subst hu
  obtain ⟨hnodes, hindex⟩ := hone
  have others_none : [0].filter (fun k => k != 0) = [] := rfl
  have zero_entry : fld 0 0 32 = 0 ∧ fld 0 32 32 = 0 ∧ fld 0 64 64 = 0 := by decide
  simp only [commConnect, withComm_owned hm hown, hnodes, hindex, others_none, hread, hzero, hbound, zero_entry, List.range_one,
    List.map_nil, List.map_cons, List.any_nil, Nat.mul_one, Nat.mul_zero, ne_eq, not_true_eq_false, Bool.false_eq_true, if_false]
  rfl

/-- A communicator without launches goes (R226, R227). -/
theorem commDestroy_idle {i : Nat} {m : Comm} (hm : oget s.fw.comms (fld d 64 16) = some m)
    (hown : owns s r m.own = true ∧ m.ring = i) (hidle : (allLaunches s).any (fun l => l.2.comm == fld d 64 16) = false) :
    commDestroy r i d s = ok0 (dropComm s (fld d 64 16) m) := by
  simp only [commDestroy, withComm_owned hm hown, hidle, Bool.false_eq_true, if_false]

/-! ### Launches (R220, R223, R228, R229) -/

/-- The launch that a COLL_LAUNCH of a communicator describes (R217, R223). -/
def describedLaunch (s : State) (r d : Nat) (ref : DRef) (m : Comm) (n : Nat) (args : List Nat) : Launch :=
  { ref := ref, own := s.ownOf r, tag := userTag d, comm := fld d 64 16, progId := m.progId, op := fld d 80 2, sat := bitAt d 82
    inFmt := fld d 84 4, outFmt := fld d 88 4, notifyWin := fld d 92 4, notifyOff := fld d 96 32, elements := fld d 128 32
    args := args, entryX := args ++ [fld d 128 32, fld d 80 12, m.nodes + m.nodeIndex * 2 ^ 16, m.localPorts], seqNo := n }

/-- A launch of a connected communicator joins the queue of its home core under the next sequence number (R223, R229). -/
theorem collLaunch_queued {i : Nat} {m : Comm} {args : List Nat} (hm : oget s.fw.comms (fld d 64 16) = some m)
    (hown : owns s r m.own = true ∧ m.ring = i) (hconn : m.connected = true) (hfields : launchFieldsOk d = true)
    (hn : n = if m.launchSeq + 1 = 2 ^ 32 then 1 else m.launchSeq + 1)
    (hargs : args = (List.range 4).map (fun k => fld d (256 + 64 * k) 64)) :
    collLaunch r i d ref s = later (State.modCore
      { s with fw := { s.fw with comms := omod s.fw.comms (fld d 64 16) (fun m => { m with launchSeq := n }) } } m.home
      (fun k => { k with launches := k.launches ++ [describedLaunch s r d ref m n args] })) := by
  subst hn hargs
  simp only [collLaunch, withComm_owned hm hown, hconn, hfields, describedLaunch, Bool.not_true, Bool.false_eq_true, if_false]

/-- The oldest queued launch of an idle COLL core enters its program, where a library program takes its arguments (R217, R220). -/
theorem doLaunchStart_enters {core slot entry : Nat} {m : Comm} {l l1 : Launch} {rest : List Launch} (hrun : canRun s core = true)
    (hcomp : compOf core = 4) (hidle : runningLaunch (s.core core) = none) (hq : (s.core core).launches = l :: rest)
    (hm : oget s.fw.comms l.comm = some m) (hslot : progSlot s l.progId = some (slot, entry))
    (hargs : (isLibrary l.progId && !libArgsOk m l) = false) (hl1 : l1 = { l with running := true, arrived := m.arrived }) :
    doLaunchStart core s = enterProgram (loadData (s.modCore core (fun k => { k with launches := l1 :: rest })) core l) core l1 slot entry := by
  subst hl1
  have idle : ¬ ((!canRun s core) = true ∨ compOf core ≠ 4 ∨ (runningLaunch (s.core core)).isSome = true) := by
    simp [hrun, hcomp, hidle]
  simp only [doLaunchStart, idle, hq, hm, hslot, hargs, Bool.false_eq_true, if_false]

/-- The launches that a COLL_ABORT means: those that the function posted on the ring pair in this incarnation, of its tag (R228). -/
def abortable (s : State) (r i tag : Nat) (own : Own) : List (Nat × Launch) :=
  (allLaunches s).filter (fun l => l.2.ref.fn == r && l.2.ref.ring == i && l.2.own == own && l.2.tag == tag)

/-- COLL_ABORT completes with 1 before the launch it ends, the first posted of its tag or else one fetched and not started,
and with 0 where there is none (R228). -/
theorem collAbort_owned {i : Nat} {m : Comm} (hu : u = unorder s ref) (hm : oget u.fw.comms (fld d 64 16) = some m)
    (hown : owns u r m.own = true ∧ m.ring = i) :
    collAbort r i d ref s = match firstPosted (abortable u r i (fld d 96 32) (s.ownOf r)) with
      | none => match fetchedLaunch u r i (fld d 96 32) with
        | none => okR u 0
        | some e => later (finish (finish u ref 0 1 0) (refOf r i e) 0x08 0 0)
      | some (c, l) => later (if l.running then endLaunch (finish u ref 0 1 0) c 0x08 0 else endQueued (finish u ref 0 1 0) c l.ref 0x08) := by
  subst hu
  simp only [collAbort, withComm_owned hm hown]
  rfl

end

/-- A command's completion is made from its answer. -/
theorem next_answered {p q : CmdRes} (h : p = q) (ref : DRef) :
    (.next (answered p ref) : Host.Outcome State Fault Refusal) = .next (answered q ref) := by rw [h]

/-- Settles O27: each command by the lemma about it, on the descriptor that starts it. -/
theorem programsAndCommunicators : Obligations.ProgramsAndCommunicators := by
  unfold Obligations.ProgramsAndCommunicators
  refine ⟨?loadVf, ?load, ?unload, ?create, ?connect, ?destroy, ?launch, ?start, ?abort, ?abortNone, ?abortFetched⟩
  case loadVf =>
    intro r i x e s h hvf
    simp only [exec_progLoad, execProgLoad, onDesc_starts h, progLoad_vf hvf]
  case load =>
    intro r i n data e s u h hpf hfields hread hheader hcode hsigned hfresh hslot haudit
    simp only [exec_progLoad, execProgLoad, onDesc_starts h]
    exact next_answered (progLoad_signed hpf hfields hread hheader hcode hsigned hfresh hslot haudit) _
  case unload =>
    intro r i n x e s u h hfirst hpf hlib hslot hunused halone hu
    simp only [exec_progUnload, execProgUnload, inRankOrder_first hfirst, onDesc_starts h]
    exact next_answered (progUnload_unused (s := begun s r i e) hpf hlib hslot hunused halone hu) _
  case create =>
    intro r i c base x g e s u h hfirst hprog ⟨hcount, hindex, hports, hmib⟩ halone hu ⟨hc, hbase, hx⟩ hg
    simp only [exec_commCreate, execCommCreate, inRankOrder_first hfirst, onDesc_starts h]
    exact next_answered (commCreate_placed (s := begun s r i e) hprog ⟨hcount, hindex⟩ hports hmib halone hu hc hbase hx hg) _
  case connect =>
    intro r i x m e s h hm hown hone hread hzero hbound
    simp only [exec_commConnect, execCommConnect, onDesc_starts h]
    exact next_answered (commConnect_single (s := begun s r i e) hm (begun_reaches h.1 hown) hone hread hzero hbound rfl) _
  case destroy =>
    intro r i m e s h hm hown hidle
    simp only [exec_commDestroy, execCommDestroy, onDesc_starts h]
    exact next_answered (commDestroy_idle (s := begun s r i e) hm (begun_reaches h.1 hown) hidle) _
  case launch =>
    intro r i n m args e s u h hm ⟨hown, hring, hconn⟩ hfields ⟨hn, hargs⟩ hu
    subst hu
    simp only [exec_collLaunch, execCollLaunch, onDesc_starts h]
    exact next_answered (collLaunch_queued (s := begun s r i e) hm (begun_reaches h.1 ⟨hown, hring⟩) hconn hfields hn hargs) _
  case start =>
    intro core slot entry m l rest s ⟨hrun, hcomp⟩ hidle hq ⟨hm, hslot⟩ hargs
    exact congrArg _ (doLaunchStart_enters hrun hcomp hidle hq hm hslot hargs rfl)
  case abort =>
    intro r i c m l e s u h hu hm hown hfirst
    simp only [exec_collAbort, execCollAbort, onFetched_picks h, collAbort_owned hu hm hown, abortable, hfirst, answered_later]
  case abortNone =>
    intro r i m e s u h hu hm hown hnone hfetched
    simp only [exec_collAbort, execCollAbort, onFetched_picks h, collAbort_owned hu hm hown, abortable, hnone, hfetched, answered_okR]
  case abortFetched =>
    intro r i m e e' s u h hu hm hown hnone hfetched
    simp only [exec_collAbort, execCollAbort, onFetched_picks h, collAbort_owned hu hm hown, abortable, hnone, hfetched, answered_later]

end Sys2Proof.Machine

/-! # The staged start (16, 06): what each stage does, and the statement about it -/

namespace Sys2Proof.Machine

/-! ### The staged start (R539 to R543) -/

/-- A start that goes on: the ROM chain has run, and there is neither fault nor input condition (R543, R553). -/
def StartRuns (s : State) : Prop := s.power.romDone = true ∧ s.power.fault = false ∧ s.power.condition = 0

theorem StartRuns.passes {s : State} (h : StartRuns s) :
    ¬ (s.power.romDone = false ∨ s.power.fault = true ∨ s.power.condition ≠ 0) := by
  obtain ⟨hrom, hfault, hcond⟩ := h
  simp [hrom, hfault, hcond]

/-- What follows the vestibule's stage 0 is the work of an active keeper, outside recovery (R539, R554). -/
def StageDue (s : State) (k : Nat) : Prop :=
  StartRuns s ∧ (s.power.started = true ∧ s.power.stage = k) ∧ s.trust.recovery = false ∧ activeUp s = true

/-- The domains of stage 1, brought up at the Calm voltage (R539). -/
def stageOneUp (failed : List Nat) (s : State) : State := stageOneDoms.foldl (bringUp failed) (setRails s 0)

/-- The domains of stage 2: MEM tiles, then stacks (R539). -/
def stageTwoUp (failed : List Nat) (s : State) : State :=
  (domsOf .stack).foldl (bringUp failed) ((domsOf .mem).foldl (bringUp failed) s)

/-- The domains of stage 3: optical engines, laser units, then APT tiles (R539). -/
def stageThreeUp (failed : List Nat) (s : State) : State :=
  (domsOf .apt).foldl (bringUp failed) ((domsOf .laser).foldl (bringUp failed) ((domsOf .oe).foldl (bringUp failed) s))

/-- Stage 0 enables both PF0s and reports a fallback of the ROM once (R541, R554). -/
theorem doStage_first {s u : State} (h : StartRuns s) (hfirst : s.power.started = false)
    (hu : u = startFn (startFn (reachStage s 0) 1) 2) (failed : List Nat) (die : Bool) :
    doStage failed die s = if u.trust.fallback then postTrust (u.modTrust (fun t => { t with fallback := false })) 0x4201 u.trust.activeSet else u := by
  subst hu
  simp only [doStage, h.passes, hfirst, Bool.not_false, if_false, if_true]

section
variable {s : State} {k : Nat} {die : Bool} (failed : List Nat)

/-- Stage 1 stops on a failed core die and without one of each engine kind (R16, R543). -/
theorem doStage_one (h : StageDue s 0) :
    doStage failed die s = if die then startFault s
      else if enginesOk (stageOneUp failed s) then capChanged s (reachStage (settleSto (stageOneUp failed s)) 1)
      else startFault (stageOneUp failed s) := by
  obtain ⟨hruns, ⟨hstarted, hstage⟩, hrec, hup⟩ := h
  simp only [doStage, hruns.passes, hstarted, hstage, hrec, hup, Bool.not_true, Bool.or_self, Bool.false_eq_true, if_false]
  rfl

/-- Stage 2 stops unless every stack is in service (R543). -/
theorem doStage_two (h : StageDue s 1) :
    doStage failed die s = if (domsOf .stack).all (inService (stageTwoUp failed s))
      then capChanged s (reachStage (assignJournals { stageTwoUp failed s with stack := [] }) 2)
      else startFault (stageTwoUp failed s) := by
  obtain ⟨hruns, ⟨hstarted, hstage⟩, hrec, hup⟩ := h
  simp only [doStage, hruns.passes, hstarted, hstage, hrec, hup, Bool.not_true, Bool.or_self, Bool.false_eq_true, if_false]
  rfl

/-- Stage 3 opens the shutters where stage 4 is permitted (R70, R539, R542). -/
theorem doStage_three (h : StageDue s 2) :
    doStage failed die s = settleHeld (if permitted s then openShutters (reachStage (stageThreeUp failed s) 3)
      else reachStage (stageThreeUp failed s) 3) := by
  obtain ⟨hruns, ⟨hstarted, hstage⟩, hrec, hup⟩ := h
  simp only [doStage, hruns.passes, hstarted, hstage, hrec, hup, Bool.not_true, Bool.or_self, Bool.false_eq_true, if_false]
  rfl

/-- Stage 4 waits for installer policy and operator key (R542). -/
theorem doStage_four (h : StageDue s 3) :
    doStage failed die s = if permitted s then capChanged s (reachStage (enterStage4 (s.modPow (fun w => { w with stage := 4 }))) 4)
      else settleHeld s := by
  obtain ⟨hruns, ⟨hstarted, hstage⟩, hrec, hup⟩ := h
  simp only [doStage, hruns.passes, hstarted, hstage, hrec, hup, Bool.not_true, Bool.or_self, Bool.false_eq_true, if_false]

/-- At stage 3 without permission the start counts as held (R542). -/
theorem settleHeld_unpermitted (h : StageDue s 3) (hperm : permitted s = false) :
    settleHeld s = s.modPow (fun w => { w with held := true }) := by
  obtain ⟨⟨_, hfault, _⟩, ⟨hstarted, hstage⟩, _, _⟩ := h
  simp only [settleHeld, State.modPow, hperm, hstarted, hstage, hfault, beq_self_eq_true, Bool.not_false, Bool.and_self]

end

/-- The ROM starts both keepers from a good set, DK0 the active one, which has PF0's ring pairs (R238, R553). -/
theorem doKeepersBack_boots {s u v : State} {k : Nat} (hdown : s.fw.bothDown = true) (hset : romChoice s s.trust.activeSet = some k)
    (hu : u = bootFrom { s with fw := { s.fw with bothDown := false, romRestarts := satAdd 8 s.fw.romRestarts 1 } } k (k != s.trust.activeSet))
    (hv : v = if s.fw.active = 0 then unholdAll u 64 else takePf0Rings u 1 0) (hplain : v.trust.fallback = false) :
    doKeepersBack s = v := by
  subst hu hv
  simp only [doKeepersBack, hdown, hset, hplain, Bool.not_true, Bool.false_eq_true, if_false]

/-- Settles O53: each stage by the lemma about it, and the restart of the keepers by `doKeepersBack_boots`. -/
theorem startReachesItsStages : Obligations.StartReachesItsStages := by
  unfold Obligations.StartReachesItsStages
  refine ⟨?zero, ?one, ?two, ?three, ?four, ?restart⟩
  case zero =>
    intro failed die s u ⟨hrom, hfault, hcond, hfirst⟩ hu
    have first := doStage_first ⟨hrom, hfault, hcond⟩ hfirst hu failed die
    exact ⟨fun hplain => congrArg _ (first.trans (if_neg (Bool.eq_false_iff.1 hplain))),
      fun hfell => congrArg _ (first.trans (if_pos hfell))⟩
  case one =>
    intro failed die s ⟨hrom, hfault, hcond, hstage⟩ hkeeper
    have one := doStage_one (die := die) failed ⟨⟨hrom, hfault, hcond⟩, hstage, hkeeper⟩
    refine ⟨fun hdie => ?_, fun hdie hengines => ?_, fun hdie hengines => ?_⟩
    · exact congrArg _ (one.trans (if_pos hdie))
    · exact congrArg _ (one.trans ((if_neg (Bool.eq_false_iff.1 hdie)).trans (if_pos hengines)))
    · exact congrArg _ (one.trans ((if_neg (Bool.eq_false_iff.1 hdie)).trans (if_neg (Bool.eq_false_iff.1 hengines))))
  case two =>
    intro failed die s u ⟨hrom, hfault, hcond, hstage⟩ hkeeper hu
    subst hu
    have two := doStage_two (die := die) failed ⟨⟨hrom, hfault, hcond⟩, hstage, hkeeper⟩
    exact ⟨fun hall => congrArg _ (two.trans (if_pos hall)),
      fun hmiss => congrArg _ (two.trans (if_neg (Bool.eq_false_iff.1 hmiss)))⟩
  case three =>
    intro failed die s u ⟨hrom, hfault, hcond, hstage⟩ hkeeper hu
    subst hu
    exact congrArg _ (doStage_three failed ⟨⟨hrom, hfault, hcond⟩, hstage, hkeeper⟩)
  case four =>
    intro failed die s ⟨hrom, hfault, hcond, hstage⟩ hkeeper
    have due : StageDue s 3 := ⟨⟨hrom, hfault, hcond⟩, hstage, hkeeper⟩
    have four := doStage_four (die := die) failed due
    exact ⟨fun hperm => congrArg _ (four.trans (if_pos hperm)),
      fun hperm => congrArg _ (four.trans ((if_neg (Bool.eq_false_iff.1 hperm)).trans (settleHeld_unpermitted due hperm)))⟩
  case restart =>
    intro k s u ⟨hdown, hset⟩ hu _
    exact ⟨fun hzero hplain => congrArg _ (doKeepersBack_boots hdown hset hu (if_pos hzero).symm hplain),
      fun hone hplain => congrArg _ (doKeepersBack_boots hdown hset hu (if_neg hone).symm hplain)⟩

end Sys2Proof.Machine

/-! # Serving state (07): what the commands of a KV_TIERING ring and the events of plans and copies do, and the statements about them -/

namespace Sys2Proof.Machine

/-! ### A command that starts: its completion, or its wait (R46) -/

section
variable {s t : State} {r i kind op : Nat} {e : Fetched} {eff : Nat → DRef → State → CmdRes}

/-- A command that ends at once makes its completion in the state that it leaves (R46). -/
theorem onDesc_completes {status result spec : Nat} (h : Starts s r i kind op e)
    (heff : eff e.desc.toNat (refOf r i e) (begun s r i e) = (t, some (status, result, spec))) :
    (.next (onDesc s r i kind op eff) : Host.Outcome State Fault Refusal) = .next (finish t (refOf r i e) status result spec) := by
  rw [onDesc_starts h, heff]
  rfl

/-- A command that waits for its end leaves its state without a completion. -/
theorem onDesc_waits (h : Starts s r i kind op e)
    (heff : eff e.desc.toNat (refOf r i e) (begun s r i e) = later t) :
    (.next (onDesc s r i kind op eff) : Host.Outcome State Fault Refusal) = .next t := by
  rw [onDesc_starts h, heff, answered_later]

end

/-! ### Classes (R252, R260, R263, R264) -/

/-- The class that a CLASS_SET describes (R264). -/
def describedClass (d : Nat) : KvClass :=
  { encoding := fld d 70 4, raw := bitAt d 74, blockLog2 := fld d 75 5, t1 := fld d 80 6, t2 := fld d 86 6, t3 := fld d 92 6
    shift := sxt 6 (fld d 98 6), promote := bitAt d 104 }

section
variable {s : State} {r d : Nat}

/-- CLASS_SET acts on its descriptor once no waiting command of a higher-ranked function contradicts it (R66). -/
theorem exec_classSet_first {i : Nat} (h : outranked s r i = false) :
    exec (.classSet r i) s = .next (onDesc s r i 0x14 0x01 (fun d _ s => classSet r d s)) :=
  congrArg Host.Outcome.next (inRankOrder_first h _)

/-- A VF sets no class (R260). -/
theorem classSet_vf (h : isVf r = true) : classSet r d s = bad s 0x0E := if_pos h

/-- A class that an open sequence uses stays as it is (R263). -/
theorem classSet_inUse (hpf : isVf r = false) (hused : s.kv.seqs.any (fun q => q.2.cls == fld d 64 6) = true) :
    classSet r d s = bad s 0x82 := by
  simp only [classSet, hpf, hused, Bool.false_eq_true, if_false, if_true]

/-- The pool that a class names for a tier, if any, is of that tier, and its slots hold the class's blocks (R252). -/
def poolSuits (s : State) (c : KvClass) (t : Nat) : Bool := match clsPool c t with
  | none => true
  | some pn => decide (pn < 32) && (s.pool pn).kind == t && s.kv.committed
      && decide (storedBytes c.encoding (blockBytes c) ≤ (s.pool pn).slot4k * 4096)

/-- The fields of a class that CLASS_SET refuses with 0x06 (R252, R264). -/
def ClassIllegal (s : State) (c : KvClass) : Prop :=
  c.encoding = 0 ∨ 5 < c.encoding ∨ (c.raw ∧ c.encoding ≠ 1) ∨ (c.shift ≠ 0 ∧ c.encoding ≠ 2) ∨ c.blockLog2 < 14 ∨ 20 < c.blockLog2
    ∨ !([1, 2, 3].all (poolSuits s c)) ∨ [1, 2, 3].all (fun t => (clsPool c t).isNone)

/-- A class that stores BF16 as it is, in one T1 pool with room for its blocks, is legal. -/
theorem not_classIllegal_of_oneTier {c : KvClass}
    (hfields : c.encoding = 1 ∧ c.shift = 0 ∧ 14 ≤ c.blockLog2 ∧ c.blockLog2 ≤ 20)
    (htiers : clsPool c 1 = some 0 ∧ clsPool c 2 = none ∧ clsPool c 3 = none)
    (hpool : s.kv.committed = true ∧ (s.pool 0).kind = 1 ∧ storedBytes c.encoding (blockBytes c) ≤ (s.pool 0).slot4k * 4096) :
    ¬ ClassIllegal s c := by
  obtain ⟨henc, hshift, hlow, hhigh⟩ := hfields
  obtain ⟨ht1, ht2, ht3⟩ := htiers
  obtain ⟨hcommitted, hkind, hfits⟩ := hpool
  have suits : [1, 2, 3].all (poolSuits s c) = true := by simp [poolSuits, ht1, ht2, ht3, hcommitted, hkind, hfits]
  have named : [1, 2, 3].all (fun t => (clsPool c t).isNone) = false := by simp [ht1]
  simp [ClassIllegal, suits, named, henc, hshift, hlow, hhigh]

/-- CLASS_SET of legal fields sets the class, where no sequence uses it and nothing of its message time contradicts (R66, R264). -/
theorem classSet_legal (hpf : isVf r = false)
    (hunused : s.kv.seqs.any (fun q => q.2.cls == fld d 64 6) = false) (hlegal : ¬ ClassIllegal s (describedClass d))
    (halone : contradicted s r 0x14 (fld d 64 6) (fld d 70 35) = none) :
    classSet r d s = ok0 ((noteDone s r 0x14 (fld d 64 6) (fld d 70 35)).modKv
      (fun k => { k with classes := oput k.classes (fld d 64 6) (describedClass d) })) :=
  (if_neg (Bool.eq_false_iff.1 hpf)).trans ((if_neg (Bool.eq_false_iff.1 hunused)).trans
    ((if_neg hlegal).trans (exclusive_alone halone _)))

end

/-! ### A command on a sequence (R249, R261) -/

/-- The handle of a descriptor names the sequence `q` of number `ix`, which the function owns (R249). -/
def OwnsSeq (s : State) (r d ix : Nat) (q : Seq) : Prop :=
  seqOfHandle s (fld d 64 20) = some (ix, q) ∧ owns s r q.own = true

/-- The blocks of a descriptor's range of a sequence (R261). -/
def rangeBlocks (q : Seq) (d : Nat) : List Nat := (q.blocks.drop (argA d)).take (rangeCount q (argA d) (argB d))

/-- A descriptor's range lies within the sequence (R261). -/
def RangeInside (q : Seq) (d : Nat) : Prop := argA d + rangeCount q (argA d) (argB d) ≤ q.blocks.length

section
variable {s : State} {r d ix : Nat} {q : Seq} {ref : DRef}

theorem withSeq_owned (h : OwnsSeq s r d ix q) (act : Nat → Seq → CmdRes) : withSeq s r d act = act ix q := by
  obtain ⟨hseq, hown⟩ := h
  simp only [withSeq, hseq, hown, if_true]

/-- A handle that names no open sequence is stale (R249). -/
theorem withSeq_stale (h : seqOfHandle s (fld d 64 20) = none) (act : Nat → Seq → CmdRes) : withSeq s r d act = bad s 0x80 := by
  simp only [withSeq, h]

/-- A started descriptor changes nothing about who owns a sequence. -/
theorem begun_ownsSeq {i : Nat} {e : Fetched} (h : startable s r i = some e) (hq : OwnsSeq s r d ix q) :
    OwnsSeq (begun s r i e) r d ix q :=
  hq.imp_right (begun_owns h r q.own).trans

/-- SEQ_CLOSE drops every block and the sequence, unless a plan names one of them (R262, R263). -/
theorem seqClose_owned (h : OwnsSeq s r d ix q) :
    seqClose r d s = if q.blocks.any (inPlan s) then bad s 0x81
      else ok0 (settlePools ((truncSeq s ix 0).modKv (fun k => { k with seqs := odel k.seqs ix }))) :=
  withSeq_owned h _

/-- SEQ_TRUNCATE drops the blocks from its index on, unless a plan names one of them (R262, R263). -/
theorem seqTruncate_inside (h : OwnsSeq s r d ix q) (hn : argA d ≤ q.blocks.length) :
    seqTruncate r d s = if (q.blocks.drop (argA d)).any (inPlan s) then bad s 0x81
      else okR (settlePools (truncSeq s ix (argA d))) (q.blocks.length - argA d) :=
  (withSeq_owned h _).trans (if_neg (Nat.not_lt.2 hn))

/-- What SEQ_DEMOTE makes of the blocks of its range, one after another (R262). -/
def demoted (s : State) (d : Nat) (ref : DRef) (q : Seq) : State × Demote :=
  (rangeBlocks q d).foldl (demoteNext (fld d 174 2)) (s, { ref := ref, tier := fld d 174 2 })

/-- SEQ_DEMOTE of a range below T0 that no plan names answers when none of its blocks is left to move (R262, R263). -/
theorem seqDemote_inside (h : OwnsSeq s r d ix q) (hrange : RangeInside q d) (htier : fld d 174 2 ≠ 0) :
    seqDemote r d ref s = if (rangeBlocks q d).any (inPlan s) then bad s 0x81
      else if (demoted s d ref q).2.left = 0 then
        okR (settlePools (demoted s d ref q).1) ((demoted s d ref q).2.moved + (demoted s d ref q).2.skipped * 2 ^ 32)
      else later (settlePools ((demoted s d ref q).1.modKv (fun k => { k with demotes := k.demotes ++ [(demoted s d ref q).2] }))) :=
  (withSeq_owned h _).trans (if_neg (not_or.2 ⟨Nat.not_lt.2 hrange, htier⟩))

/-! ### Growing, sealing, pinning and querying a sequence (R242, R253, R255, R262, R267) -/

theorem seqGrow_appends (h : OwnsSeq s r d ix q) (hn : 0 < argA d ∧ argA d ≤ 4096)
    (hroom : q.blocks.length + argA d ≤ q.maxBlocks ∧ s.kv.blocks.length + argA d ≤ 2 ^ 27 ∧ argA d ≤ t0Avail s q.port []) :
    seqGrow r d s = okR (settlePools (growMany ix true (argA d) s []).1) q.blocks.length := by
  have in_range : ¬ (argA d = 0 ∨ 4096 < argA d) := by omega
  have has_room : ¬ (q.maxBlocks < q.blocks.length + argA d ∨ 2 ^ 27 < s.kv.blocks.length + argA d ∨ t0Avail s q.port [] < argA d) := by
    omega
  exact (withSeq_owned h _).trans ((if_neg in_range).trans (if_neg has_room))

theorem seqGrow_stale (h : seqOfHandle s (fld d 64 20) = none) : seqGrow r d s = bad s 0x80 := withSeq_stale h _

/-- The FRESH blocks of a sequence below an index. -/
def freshBelow (s : State) (q : Seq) (n : Nat) : List Nat := (q.blocks.take n).filter (fun b => (s.blk b).st == .fresh)

/-- A block becomes SEALED and is copied down (R242, R253). -/
def sealBlock (s : State) (b : Nat) : State := sealDown (s.modBlk b (fun k => { k with st := .sealed_ })) b

theorem seqSeal_inside (h : OwnsSeq s r d ix q) (hn : argA d ≤ q.blocks.length) :
    seqSeal r d s = okR (settlePools ((freshBelow s q (argA d)).foldl sealBlock s)) (freshBelow s q (argA d)).length :=
  (withSeq_owned h _).trans (if_neg (Nat.not_lt.2 hn))

/-- The sequence's own pins in T0 or T1 (R255). -/
def pinsOf (q : Seq) (tier : Nat) : List Nat := if tier = 0 then q.pins0 else q.pins1

/-- The pins after some blocks have been unpinned or pinned (R255). -/
def repinned (unpin : Bool) (bs cur : List Nat) : List Nat :=
  if unpin then cur.filter (fun b => !bs.contains b) else bs.filter (fun b => !cur.contains b) ++ cur

/-- A sequence with other pins in one of the two tiers. -/
def withPins (tier : Nat) (pins : List Nat) (q : Seq) : Seq := if tier = 0 then { q with pins0 := pins } else { q with pins1 := pins }

theorem seqPin_inside (h : OwnsSeq s r d ix q) (hrange : RangeInside q d) (htier : fld d 174 2 ≤ 1) :
    seqPin r d s = okR (settlePools (s.modSeq ix (withPins (fld d 174 2)
        (repinned (bitAt d 176) (rangeBlocks q d) (pinsOf q (fld d 174 2))))))
      ((rangeBlocks q d).filter (fun b => (pinsOf q (fld d 174 2)).contains b == bitAt d 176)).length :=
  (withSeq_owned h _).trans (if_neg (not_or.2 ⟨Nat.not_lt.2 hrange, Nat.not_lt.2 htier⟩))

theorem seqQuery_inside (h : OwnsSeq s r d ix q) (hrange : RangeInside q d) :
    seqQuery r d s = okR (hostWrite s r (fld d 192 64) ((rangeBlocks q d).map (queryByte s))) (rangeCount q (argA d) (argB d)) :=
  (withSeq_owned h _).trans (if_neg (Nat.not_lt.2 hrange))

end

/-! ### Opening a sequence (R249, R250, R251, R262) -/

/-- The generation of the next sequence of a number (R249). -/
def nextSeqGen (s : State) (ix : Nat) : Nat := (mget s.kv.seqGen ix 0 + 1) % 256

/-- Sequence `q` is open under number `ix`, and its command waits for the table to be written (R249, R250). -/
def seqEntered (s : State) (ref : DRef) (ix : Nat) (q : Seq) : State :=
  s.modKv (fun k => { k with
    seqs := oput k.seqs ix { q with gen := nextSeqGen s ix }, seqGen := mset k.seqGen ix (nextSeqGen s ix) 0
    tables := oput k.tables s.kv.nextTable (ref, handleOf ix (nextSeqGen s ix)), nextTable := s.kv.nextTable + 1 })

section
variable {s : State} {r d ix : Nat} {q : Seq} {ref : DRef}

/-- A sequence without blocks has a table of empty entries, and none of its blocks is being pushed (R250). -/
theorem openSeq_empty {a : Nat} (hempty : q.blocks = []) (hfree : lowestFree s.kv.seqs 0 4096 = some ix)
    (hplace : targetAddr s q.port q.window q.offset (4 * q.maxBlocks) true = some a) :
    openSeq s ref q = later (engineWrites (seqEntered s ref ix q) q.port 2 (.table s.kv.nextTable) a
      ((List.range q.maxBlocks).flatMap (fun _ => natLE 4 noEntry))) := by
  simp only [openSeq, hfree, hplace, hempty, List.getElem?_nil, pushedEntries, List.length_nil, List.range_zero, List.foldl_nil,
    seqEntered, nextSeqGen]

/-- The class that a SEQ_OPEN names is set, and the port's T0 slots hold its blocks (R251). -/
def ClassFitsPort (s : State) (d : Nat) : Prop :=
  (oget s.kv.classes (fld d 168 6)).isSome = true ∧ s.kv.committed = true ∧ (s.t0p (fld d 164 3)).enable = true
    ∧ (s.kcls (fld d 168 6)).blockLog2 ≤ (s.t0p (fld d 164 3)).slotLog2

/-- The sequence that a SEQ_OPEN describes (R250). -/
def describedSeq (s : State) (r d : Nat) : Seq :=
  { own := s.ownOf r, cls := fld d 168 6, port := fld d 164 3, window := fld d 160 4, offset := fld d 192 64, maxBlocks := fld d 256 19 }

theorem seqOpen_opens (hclass : ClassFitsPort s d)
    (htable : tableOk s r (fld d 164 3) (fld d 160 4) (fld d 192 64) (fld d 256 19) = 0) :
    seqOpen r d ref s = openSeq s ref (describedSeq s r d) := by
  obtain ⟨hset, hcommitted, henable, hfits⟩ := hclass
  have class_known : (oget s.kv.classes (fld d 168 6)).isNone = false := by simpa using hset
  simp [seqOpen, class_known, hcommitted, henable, Nat.not_lt.2 hfits, htable, describedSeq]

/-- The sequence that shares the first blocks of another, with a table of its own (R262). -/
def forkedSeq (s : State) (r d : Nat) (q : Seq) : Seq :=
  { own := s.ownOf r, cls := q.cls, port := q.port, window := fld d 160 4, offset := fld d 192 64, maxBlocks := fld d 256 19
    blocks := q.blocks.take (argA d) }

theorem seqFork_opens (h : OwnsSeq s r d ix q) (hn : argA d ≤ q.blocks.length ∧ argA d ≤ fld d 256 19)
    (hsealed : (q.blocks.take (argA d)).any (fun b => (s.blk b).st == .fresh) = false)
    (htable : tableOk s r q.port (fld d 160 4) (fld d 192 64) (fld d 256 19) = 0) :
    seqFork r d ref s = openSeq s ref (forkedSeq s r d q) := by
  have in_range : ¬ (q.blocks.length < argA d ∨ fld d 256 19 < argA d) := by omega
  simp only [seqFork, withSeq_owned h, in_range, hsealed, htable, forkedSeq, Bool.false_eq_true, ne_eq, not_true_eq_false, if_false]

end

/-- Settles O28: each command by the lemma about it, on the descriptor that starts it. -/
theorem kvClassesAndSequencesComplete : Obligations.KvClassesAndSequencesComplete := by
  unfold Obligations.KvClassesAndSequencesComplete
  refine ⟨?classSet, ?classVf, ?seqOpen, ?seqFork, ?close, ?grow, ?seals, ?truncate, ?pin, ?demote, ?query, ?stale⟩
  case classSet =>
    rintro r i c e s h ⟨hfirst, hpf⟩ hunused rfl hfields htiers hpool halone
    refine (exec_classSet_first hfirst).trans (onDesc_completes h ?_)
    exact classSet_legal (s := begun s r i e) hpf hunused (not_classIllegal_of_oneTier hfields htiers hpool) halone
  case classVf =>
    intro r i e s h ⟨hfirst, hvf⟩
    refine (exec_classSet_first hfirst).trans (onDesc_completes h ?_)
    exact classSet_vf hvf
  case seqOpen =>
    rintro r i ix a img e s u h hclass rfl htable hfree hplace rfl
    exact onDesc_waits h ((seqOpen_opens (s := begun s r i e) hclass htable).trans (openSeq_empty rfl hfree hplace))
  case seqFork =>
    rintro r i ix n mx q e s u h hq ⟨rfl, rfl, hlength, hmax⟩ hsealed ⟨rfl, htable⟩
    have forks := seqFork_opens (ref := refOf r i e) (begun_ownsSeq h.1 hq) ⟨hlength, hmax⟩ hsealed htable
    simp only [exec_seqFork, execSeqFork, onDesc_starts h]
    exact next_answered forks _
  case close =>
    intro r i ix q e s h hq hfree
    exact onDesc_completes h ((seqClose_owned (begun_ownsSeq h.1 hq)).trans (if_neg (Bool.eq_false_iff.1 hfree)))
  case grow =>
    rintro r i ix n q e s h hq ⟨rfl, hn⟩ hroom
    exact onDesc_completes h (seqGrow_appends (begun_ownsSeq h.1 hq) hn hroom)
  case seals =>
    rintro r i ix n q fresh e s h hq ⟨rfl, hn⟩ rfl
    exact onDesc_completes h (seqSeal_inside (begun_ownsSeq h.1 hq) hn)
  case truncate =>
    rintro r i ix n q e s h hq ⟨rfl, hn⟩ hfree
    exact onDesc_completes h ((seqTruncate_inside (begun_ownsSeq h.1 hq) hn).trans (if_neg (Bool.eq_false_iff.1 hfree)))
  case pin =>
    rintro r i ix n q bs cur new e s h hq ⟨rfl, hrange⟩ htier ⟨rfl, rfl⟩ rfl
    exact onDesc_completes h (seqPin_inside (begun_ownsSeq h.1 hq) hrange htier)
  case demote =>
    rintro r i ix n q bs p e s h hq ⟨rfl, hrange, htier⟩ ⟨rfl, hfree⟩ rfl
    have demotes := (seqDemote_inside (ref := refOf r i e) (begun_ownsSeq h.1 hq) hrange htier).trans
      (if_neg (Bool.eq_false_iff.1 hfree))
    exact ⟨fun hnone => onDesc_completes h (demotes.trans (if_pos hnone)),
      fun hleft => onDesc_waits h (demotes.trans (if_neg hleft))⟩
  case query =>
    rintro r i ix n q e s h hq ⟨rfl, hrange⟩
    exact onDesc_completes h (seqQuery_inside (begun_ownsSeq h.1 hq) hrange)
  case stale =>
    intro r i e s h hstale
    exact onDesc_completes h (seqGrow_stale (s := begun s r i e) hstale)

/-- Settles O58: the three commands refuse a range with a block of a plan, and CLASS_SET a class in use. -/
theorem blocksOfAPlanAndClassesInUseArePinned : Obligations.BlocksOfAPlanAndClassesInUseArePinned := by
  unfold Obligations.BlocksOfAPlanAndClassesInUseArePinned
  refine ⟨?truncate, ?close, ?demote, ?classSet⟩
  case truncate =>
    intro r i ix q e s h hq hn hplan
    exact onDesc_completes h ((seqTruncate_inside (begun_ownsSeq h.1 hq) hn).trans (if_pos hplan))
  case close =>
    intro r i ix q e s h hq hplan
    exact onDesc_completes h ((seqClose_owned (begun_ownsSeq h.1 hq)).trans (if_pos hplan))
  case demote =>
    rintro r i ix n q e s h hq ⟨rfl, hrange, htier⟩ hplan
    exact onDesc_completes h ((seqDemote_inside (begun_ownsSeq h.1 hq) hrange htier).trans (if_pos hplan))
  case classSet =>
    intro r i e s h ⟨hfirst, hpf⟩ hused
    refine (exec_classSet_first hfirst).trans (onDesc_completes h ?_)
    exact classSet_inUse (s := begun s r i e) hpf hused

/-! ### Step plans: posting and cancelling (R268 to R275) -/

/-- A field that is zero is zero in its low bits. -/
theorem fld_zero_of_wider {x lo w v : Nat} (h : fld x lo w = 0) (hv : v ≤ w) : fld x lo v = 0 := by
  unfold fld at h ⊢
  rw [← Nat.mod_mod_of_dvd _ (pow_dvd_pow 2 hv), h, Nat.zero_mod]

/-- The plan that a PLAN_POST describes, with the blocks that its entries name as its pins (R269, R275). -/
def describedPlan (s : State) (r d : Nat) (ref : DRef) (ids : List Nat) : Plan :=
  { ref := ref, own := s.ownOf r, tag := userTag d, port := fld d 64 3, abandon := bitAt d 67, deadline := fld d 128 64
    hold := fld d 96 32, reportAddr := fld d 256 64, reportMax := fld d 320 16, readyWindow := fld d 336 4
    readyOffset := fld d 384 64, pins := ids }

/-- A plan of port `p` has been accepted under number `n`, and the moves of its named and grown blocks have begun (R270). -/
def planBegun (s : State) (n p : Nat) (pl : Plan) (named : List (PlanEntry × List (Nat × Nat × Nat))) : State :=
  named.foldl (fun s x => startGrow n (x.2.foldl (startMove n p) s) x.1)
    (s.modKv (fun k => { k with plans := oput k.plans n pl, nextPlan := n + 1 }))

/-- The blocks that the entries of a plan name (R269). -/
def namedIds (s : State) (es : List PlanEntry) : List Nat := (namedBlocks s [] es).flatMap (fun x => x.2.map (·.1))

/-- The fields of a PLAN_POST without a missing list are in range, the set is committed and the port's item and ready record
are in place (R269, R273, R274). -/
def PlanFieldsOk (s : State) (d : Nat) : Prop :=
  0 < fld d 80 16 ∧ fld d 80 16 ≤ 4096 ∧ fld d 192 4 = 0 ∧ fld d 256 64 = 0 ∧ fld d 320 16 = 0 ∧ fld d 384 6 = 0 ∧ s.kv.committed = true
    ∧ (s.t0p (fld d 64 3)).enable = true ∧ (targetAddr s (fld d 64 3) (fld d 336 4) (fld d 384 64) 64 true).isSome = true

section
variable {s t : State} {r d : Nat} {ref : DRef}

theorem PlanFieldsOk.passes (h : PlanFieldsOk s d) :
    ¬ (fld d 80 16 = 0 ∨ 4096 < fld d 80 16 ∨ fld d 192 4 ≠ 0 ∨ fld d 256 4 ≠ 0 ∨ (fld d 256 64 = 0 ∧ fld d 320 16 ≠ 0) ∨ fld d 384 6 ≠ 0
      ∨ !s.kv.committed ∨ !(s.t0p (fld d 64 3)).enable ∨ (targetAddr s (fld d 64 3) (fld d 336 4) (fld d 384 64) 64 true).isNone) := by
  obtain ⟨hmin, hmax, hzero, haddr, hreport, hoffset, hcommitted, henable, hplace⟩ := h
  have placed : (targetAddr s (fld d 64 3) (fld d 336 4) (fld d 384 64) 64 true).isNone = false := by simpa using hplace
  have addr_low : fld d 256 4 = 0 := fld_zero_of_wider haddr (by decide)
  simp only [hzero, addr_low, hreport, hoffset, hcommitted, henable, placed, Bool.not_true, Bool.false_eq_true, ne_eq, not_true_eq_false,
    and_false, or_false]
  omega

/-- A plan without a missing list has neither its address nor its length. -/
theorem describedPlan_unreported (h : PlanFieldsOk s d) (ids : List Nat) :
    describedPlan s r d ref ids = { describedPlan s r d ref ids with reportAddr := 0, reportMax := 0 } := by
  obtain ⟨-, -, -, haddr, hreport, -⟩ := h
  simp only [describedPlan, haddr, hreport]

/-- A plan that grows nothing, and whose named blocks all hold a T0 slot and need no move, is accepted and READY at once
(R270, R272). -/
theorem planPost_ready {es : List PlanEntry} {data : List Byte}
    (hport : ownerOf s (fld d 64 3) = pfOf r ∧ portUp (s.port (fld d 64 3)) = true) (hfields : PlanFieldsOk s d)
    (hplans : (s.kv.plans.filter (fun q => q.2.port == fld d 64 3)).length < 16)
    (hread : rdHost s r (16 * fld d 80 16) (.ok data) = (0, data))
    (hes : es = planEntries (fld d 80 16) data ∧ firstBad s r (fld d 64 3) 0 [] es = none)
    (hsize : es.foldl (fun n e => n + e.grow) 0 = 0 ∧ es.foldl (fun n e => n + e.count) 0 ≤ 262144 ∧ s.kv.blocks.length ≤ 2 ^ 27)
    (hslots : ((namedIds s es).filter (fun b => (s.blk b).t0.isNone)).length = 0)
    (ht : t = planBegun (unorder s ref) s.kv.nextPlan (fld d 64 3)
      { describedPlan s r d ref (namedIds s es) with reportAddr := 0, reportMax := 0 } (namedBlocks s [] es))
    (hdone : (t.plan s.kv.nextPlan).all (fun q => q.moves.isEmpty) = true) :
    planPost r d ref (.ok data) s = later (settlePools (completePlan t s.kv.nextPlan .ready 0 (ptp t))) := by
  obtain ⟨howner, hup⟩ := hport
  obtain ⟨rfl, hgood⟩ := hes
  obtain ⟨hgrow, hcount, hblocks⟩ := hsize
  rw [← describedPlan_unreported hfields] at ht
  simp only [planBegun, describedPlan, namedIds] at ht hslots
  simp only [planPost, howner, hup, hfields.passes, Nat.not_le.2 hplans, hread, hgood, hgrow, Nat.add_zero, Nat.not_lt.2 hcount,
    hslots, Nat.not_lt_zero, Nat.not_lt.2 hblocks, ← ht, hdone, or_self, ne_eq, not_true_eq_false, Bool.not_true,
    Bool.false_eq_true, if_true, if_false]

/-- The oldest outstanding plan of the function's ring pair with a tag (R275). -/
def outstanding (s : State) (r ring tag : Nat) : Option (Nat × Plan) :=
  s.kv.plans.find? (fun q => owns s r q.2.own && q.2.ref.ring == ring && q.2.tag == tag)

theorem begun_outstanding {i : Nat} {e : Fetched} (h : startable s r i = some e) (ring tag : Nat) :
    outstanding (begun s r i e) r ring tag = outstanding s r ring tag := by
  simp only [outstanding, begun_owns h, begun_kv]

theorem planCancel_none {ring : Nat} (h : outstanding s r ring (fld d 96 32) = none) :
    planCancel r ring d ref s = okR (unorder s ref) 0 := by
  unfold outstanding at h
  simp only [planCancel, h]

/-- A cancelled plan stops its moves and is released; a pending one ends with 0x08 first (R275). -/
theorem planCancel_outstanding {ring n : Nat} {p : Plan} {u : State} (h : outstanding s r ring (fld d 96 32) = some (n, p))
    (hu : u = stopMoves (unorder s ref) n) :
    planCancel r ring d ref s = okR (releasePlan (if p.st = .pending then
      planRecord (finish u p.ref 0x08 (residentOf p % 2 ^ 32 + missingOf p * 2 ^ 32) 0) n 0x08 false else u) n) 1 := by
  subst hu
  unfold outstanding at h
  simp only [planCancel, h]

end

/-! ### Step plans and copies: what their events do (R254, R256, R257, R270 to R275) -/

/-- The move of a block holds its data, ready for its push. -/
def stageMove (b : Nat) (data : List Byte) (m : Move) : Move := if m.block = b then { m with st := .staged data } else m

/-- Good data of a tier that holds the block is staged, offered to T1, and pushed when its turn comes (R256, R270). -/
theorem doBlockRead_staged {s u : State} {n b tier : Nat} {x : ARead} {p : Plan} {m : Move} {bs : List Byte}
    (hp : s.plan n = some p) (hm : p.moves.find? (fun m => m.block == b) = some m) (hst : m.st = .reading tier)
    (hvalid : (s.blk b).valid.contains tier = true) (hdata : takeData s m.mov b tier x = (u, 0, bs)) :
    doBlockRead n b x s = settlePools (pump (promote (u.modPlan n (fun q => { q with
      moves := q.moves.map (stageMove b (tierUp (s.blk b).kc (blockBytes (s.blk b).kc) bs)) })) b tier bs) p.port) := by
  simp only [doBlockRead, hp, hm, hst, hvalid, hdata, Bool.not_true, Bool.false_eq_true, ne_eq, not_true_eq_false, if_false,
    (by decide : ¬ (0 = 0x04)), and_false]
  rfl

/-- The last push of a block has left: it is resident for every plan that waits for it, and the next push follows (R271). -/
theorem doResident_last {s : State} {n b : Nat} {p : Plan} (hp : s.plan n = some p)
    (hpush : p.moves.any (fun m => m.block == b && m.st == .pushing) = true) (hlast : stillPushing s p.port n b = false) :
    doResident n b s = pump (becomeResident s b) p.port := by
  simp [doResident, hp, hpush, hlast]

theorem doPlanDeadline_pending {s : State} {n : Nat} {p : Plan} (hp : s.plan n = some p) (hst : p.st = .pending) :
    doPlanDeadline n s = pump (completePlan (advanceToPtp s p.deadline) n .late 0x0C 0) p.port := by
  simp [doPlanDeadline, hp, hst]

theorem doPlanRelease_over {s : State} {n : Nat} {p : Plan} (hp : s.plan n = some p) (hst : p.st = .ready ∨ p.st = .settled) :
    doPlanRelease n s = releasePlan (advanceToPtp s (p.deadline + p.hold)) n := by
  simp [doPlanRelease, hp, hst]

/-- A good copy between two tiers below T0, that drops none, makes its tier valid (R254). -/
theorem doCopyComplete_good {s s0 u t : State} {b : Nat} {x : ARead} {c : Copy} {bs : List Byte}
    (hc : s.kv.copies.find? (fun c => c.block == b) = some c) (hfrom : c.from_ ≠ 0) (hdrop : c.drop = [])
    (hs0 : s0 = s.modKv (fun k => { k with copies := k.copies.filter (fun x => x != c) }))
    (hread : takeData s0 (movTile s0 (s.blk b).port b) b c.from_ x = (u, 0, bs)) (hwrite : putData u b c.to_ bs = (t, 0)) :
    doCopyComplete b x s = settlePools (demoteStep
      ((t.modBlk b (fun k => { k with valid := c.to_ :: k.valid })).modKv (fun k => { k with sat := satAdd 32 k.sat 0 })) c.demote true) := by
  simp [doCopyComplete, hc, ← hs0, hread, hfrom, hwrite, hdrop, dropHigher]

/-! ### The KV set (R277, R604) -/

/-- An action of a set acts at once while the transom holds no write to a register of the set (R604). -/
theorem joinSet_free {s : State} {cap : Nat} (h : s.transom.held.reverse.find? (fun h => h.cap == cap) = none) (action : Nat)
    (act : State → State) : joinSet cap action act s = act s := by
  simp only [joinSet, h]

/-- An action of a set joins the set's writes that the transom holds, as the sender's of the last of them (R604). -/
theorem joinSet_held {s : State} {cap : Nat} {w : Held} (h : s.transom.held.reverse.find? (fun h => h.cap == cap) = some w)
    (action : Nat) (act : State → State) : joinSet cap action act s = { s with transom := { s.transom with
      held := s.transom.held ++ [{ rank := w.rank, session := w.session, cap := cap, off := 0x08, width := 32, value := action }] } } := by
  simp only [joinSet, h]

section
variable {s : State}

theorem doKvCommit_valid (hopen : s.kv.committed = false) (hgood : badKvItem s = none) :
    doKvCommit s = s.modKv (fun k => { k with committed := true, lastStatus := 0, badItem := 0 }) := by
  simp only [doKvCommit, hopen, hgood, Bool.false_eq_true, if_false]
  rfl

theorem doKvCommit_invalid {i : Nat} (hopen : s.kv.committed = false) (hbad : badKvItem s = some i) :
    doKvCommit s = s.modKv (fun k => { k with lastStatus := 0x06, badItem := i }) := by
  simp only [doKvCommit, hopen, hbad, Bool.false_eq_true, if_false]
  rfl

theorem doKvUnlock_unused (hlocked : s.kv.committed = true) (hnone : s.kv.seqs = []) :
    doKvUnlock s = s.modKv (fun k => { k with committed := false, lastStatus := 0, badItem := 0 }) := by
  simp only [doKvUnlock, hlocked, hnone, List.isEmpty_nil, Bool.not_true, Bool.false_eq_true, if_false]
  rfl

theorem doKvUnlock_used (hlocked : s.kv.committed = true) (hopen : s.kv.seqs ≠ []) :
    doKvUnlock s = s.modKv (fun k => { k with lastStatus := 0x07, badItem := 0 }) := by
  have used : s.kv.seqs.isEmpty = false := by simpa using hopen
  simp only [doKvUnlock, hlocked, used, Bool.not_true, Bool.not_false, Bool.false_eq_true, if_false, if_true]
  rfl

end

/-- Settles O29: each command and event by the lemma about it. -/
theorem plansAndTiersAdvance : Obligations.PlansAndTiersAdvance := by
  unfold Obligations.PlansAndTiersAdvance
  refine ⟨?post, ?cancelNone, ?cancel, ?read, ?resident, ?deadline, ?release, ?copy, ?commit, ?commitBad, ?unlock, ?held⟩
  case post =>
    rintro r i n es ids data e s u t h rfl hport hfields hplans hread hes hsize ⟨rfl, hslots⟩ rfl ht hdone
    exact onDesc_waits h (planPost_ready hport hfields hplans hread hes hsize hslots ht hdone)
  case cancelNone =>
    intro r i e s h hnone
    exact onDesc_completes h (planCancel_none ((begun_outstanding h.1 i _).trans hnone))
  case cancel =>
    intro r i n p e s u h hplan hu
    have cancels := planCancel_outstanding ((begun_outstanding h.1 i _).trans hplan) hu
    refine ⟨fun hst => ?_, fun hst => ?_⟩
    · rw [if_neg hst] at cancels
      exact onDesc_completes h cancels
    · rw [if_pos hst] at cancels
      exact onDesc_completes h cancels
  case read =>
    intro n b tier x p m bs s u ⟨hp, hm⟩ hst hvalid hdata
    exact congrArg Host.Outcome.next (doBlockRead_staged hp hm hst hvalid hdata)
  case resident =>
    rintro n b p ws s u hp hpush hlast rfl rfl
    exact congrArg _ (doResident_last hp hpush hlast)
  case deadline =>
    intro n p s hp hst
    exact congrArg _ (doPlanDeadline_pending hp hst)
  case release =>
    intro n p s hp hst
    exact congrArg _ (doPlanRelease_over hp hst)
  case copy =>
    intro b x c bs s s0 u t hc ⟨hfrom, hdrop⟩ hs0 hread hwrite
    exact congrArg Host.Outcome.next (doCopyComplete_good hc hfrom hdrop hs0 hread hwrite)
  case commit =>
    intro s hfree hopen hgood
    exact congrArg _ ((joinSet_free hfree 1 doKvCommit).trans (doKvCommit_valid hopen hgood))
  case commitBad =>
    intro i s hfree hopen hbad
    exact congrArg _ ((joinSet_free hfree 1 doKvCommit).trans (doKvCommit_invalid hopen hbad))
  case unlock =>
    intro s hfree hlocked
    have unlocks := joinSet_free hfree 2 doKvUnlock
    exact ⟨fun hnone => congrArg _ (unlocks.trans (doKvUnlock_unused hlocked hnone)),
      fun hopen => congrArg _ (unlocks.trans (doKvUnlock_used hlocked hopen))⟩
  case held =>
    intro w s hheld
    exact ⟨congrArg _ (joinSet_held hheld 1 doKvCommit), congrArg _ (joinSet_held hheld 2 doKvUnlock)⟩

end Sys2Proof.Machine

/-! # Checkpoints (08): what the commands of a CHECKPOINT ring and the events of a take do, and the statements about them -/

namespace Sys2Proof.Machine

/-! ### A command that runs when it is fetched: its completion, or its wait (R46, R309) -/

section
variable {s t : State} {r i kind op : Nat} {e : Fetched} {eff : Nat → DRef → State → CmdRes}

/-- A fetched command that ends at once makes its completion in the state that it leaves (R46). -/
theorem onFetched_completes {status result spec : Nat} (h : Picks s r i kind op e)
    (heff : eff e.desc.toNat (refOf r i e) (begun s r i e) = (t, some (status, result, spec))) :
    (.next (onFetched s r i kind op eff) : Host.Outcome State Fault Refusal) = .next (finish t (refOf r i e) status result spec) := by
  rw [onFetched_picks h, heff]
  rfl

/-- A fetched command that waits for its end leaves its state without a completion. -/
theorem onFetched_waits (h : Picks s r i kind op e)
    (heff : eff e.desc.toNat (refOf r i e) (begun s r i e) = later t) :
    (.next (onFetched s r i kind op eff) : Host.Outcome State Fault Refusal) = .next t := by
  rw [onFetched_picks h, heff, answered_later]

end

/-! ### The take and the job that a command finds (R281, R480) -/

@[simp] theorem takeOf_begun (s : State) (r i : Nat) (e : Fetched) (ep : Nat) : takeOf (begun s r i e) ep = takeOf s ep := rfl

@[simp] theorem takeOf_unorder (s : State) (ref : DRef) (ep : Nat) : takeOf (unorder s ref) ep = takeOf s ep := rfl

@[simp] theorem takeOf_finish (s : State) (ref : DRef) (status result spec ep : Nat) :
    takeOf (finish s ref status result spec) ep = takeOf s ep := by
  simp only [takeOf, State.ckpt, finish_ck]

/-- A started descriptor changes nothing about the job that its function holds. -/
theorem begun_jobHere {s : State} {r i : Nat} {e : Fetched} (h : startable s r i = some e) :
    jobHere (begun s r i e) r = jobHere s r := by
  simp only [jobHere, State.ckpt, begun_ck, begun_gen h]

/-! ### CKPT_ABORT (R298) -/

/-- A take whose root write has not been issued is ACCEPTED, SNAPSHOT or WRITING (Table 8-3). -/
theorem TakeSt.uncommitted_iff (st : TakeSt) : (st = .accepted ∨ st = .snapshot ∨ st = .writing) ↔ st ≠ .committing := by
  cases st <;> decide

section
variable {s : State} {r : Nat} {ref : DRef} {t : Take}

theorem ckptAbort_none (h : takeOf s (epOf r) = none) : ckptAbort r ref s = okR (unorder s ref) 0 := by
  simp only [ckptAbort, takeOf_unorder, h]

/-- Once the root write has been issued, the take runs to its own outcome. -/
theorem ckptAbort_committing (h : takeOf s (epOf r) = some t) (hst : t.st = .committing) :
    ckptAbort r ref s = okR (unorder s ref) 0 := by
  simp only [ckptAbort, takeOf_unorder, h, hst, if_true]

/-- The abort completes with 1, and then the take fails with 0x08. -/
theorem ckptAbort_ends (h : takeOf s (epOf r) = some t) (hst : t.st ≠ .committing) :
    ckptAbort r ref s = later (failTake (finish (unorder s ref) ref 0 1 0) (epOf r) 0x08) := by
  simp only [ckptAbort, takeOf_unorder, h, hst, if_false]

end

/-- Settles O59: the abort by whether the root write is issued, and the states by `TakeSt.uncommitted_iff`. -/
theorem abortEndsATakeBeforeItsRootWrite : Obligations.AbortEndsATakeBeforeItsRootWrite := by
  unfold Obligations.AbortEndsATakeBeforeItsRootWrite
  refine ⟨?ends, ?runsOn, fun t => TakeSt.uncommitted_iff t.st⟩
  case ends =>
    intro r i t e s h ht hst
    exact onFetched_waits h (ckptAbort_ends ht ((TakeSt.uncommitted_iff t.st).1 hst))
  case runsOn =>
    intro r i t e s h ht hst
    refine ⟨onFetched_completes h (ckptAbort_committing ht hst), ?_⟩
    rw [takeOf_finish, takeOf_unorder, takeOf_begun, ht]

/-! ### CKPT_JOB_SET (R281) -/

/-- The job that a CKPT_JOB_SET describes, of the function's running incarnation (R281, R310). -/
def describedJob (s : State) (r d : Nat) (ts : List CkStore) : CkJob :=
  { jobId := fld d 64 64, epoch := fld d 128 16, members := fld d 144 16, member := fld d 160 16, ownStore := fld d 176 16, stores := ts
    key := fld d 208 18, gen := (s.fn r).gen }

/-- The fields of a CKPT_JOB_SET are in range (R281). -/
def JobFieldsOk (d : Nat) : Prop :=
  1 ≤ fld d 144 16 ∧ fld d 144 16 ≤ 1024 ∧ fld d 160 16 < fld d 144 16 ∧ 1 ≤ fld d 192 16 ∧ fld d 192 16 ≤ 1024
    ∧ fld d 176 16 < fld d 192 16 ∧ fld d 256 64 % 16 = 0

theorem JobFieldsOk.passes {d : Nat} (h : JobFieldsOk d) :
    ¬ (fld d 144 16 = 0 ∨ 1024 < fld d 144 16 ∨ fld d 144 16 ≤ fld d 160 16 ∨ fld d 192 16 = 0 ∨ 1024 < fld d 192 16
      ∨ fld d 192 16 ≤ fld d 176 16 ∨ fld d 256 64 % 16 ≠ 0) := by
  unfold JobFieldsOk at h
  omega

/-- With no take in progress, a loaded key slot and a legal store table, the PF1 gets the job described (R281). -/
theorem ckptJobSet_sets {s : State} {r d : Nat} {data : List Byte} (hidle : ckBusy s (epOf r) = false) (hfields : JobFieldsOk d)
    (hkey : withSlot s r (fld d 208 18) [2] .loaded (fun _ => ok0 s) = ok0 s)
    (hread : rdHost s r (16 * fld d 192 16) (.ok data) = (0, data))
    (hstores : (parseStores (fld d 192 16) data).all (storeOk s) = true)
    (hreserved : (List.range (fld d 192 16)).any (fun i => leNat (sliceB data (16 * i + 2) 2) ≠ 0) = false) :
    ckptJobSet r d (.ok data) s = ok0 (s.modCk (epOf r) (fun k => { k with
      job := some (describedJob s r d (parseStores (fld d 192 16) data)) })) := by
  have key_good : (withSlot s r (fld d 208 18) [2] .loaded (fun _ => ok0 s)).2 = some (0, 0, 0) := congrArg Prod.snd hkey
  simp only [ckptJobSet, hidle, hfields.passes, key_good, hread, hstores, hreserved, Bool.not_true, Bool.or_self, Bool.false_eq_true,
    ne_eq, not_true_eq_false, if_false]
  rfl

/-! ### CKPT_TAKE (R284, R286, R294) -/

/-- The fields of a CKPT_TAKE are in range (R286). -/
def TakeFieldsOk (d : Nat) : Prop :=
  fld d 128 16 ≤ 4096 ∧ fld d 144 3 ≠ 0 ∧ fld d 192 64 % 64 = 0 ∧ fld d 320 64 % 64 = 0

theorem TakeFieldsOk.passes {d : Nat} (h : TakeFieldsOk d) :
    ¬ (4096 < fld d 128 16 ∨ fld d 144 3 = 0 ∨ fld d 192 64 % 64 ≠ 0 ∨ fld d 320 64 % 64 ≠ 0) := by
  unfold TakeFieldsOk at h
  omega

/-- The regions that a CKPT_TAKE saves: those of its table where section REGIONS is asked for (R286). -/
def takenRegions (d : Nat) (data : List Byte) : List CkRegion :=
  if bitAt (fld d 144 3) 2 then (parseRegions (fld d 128 16) data).map (·.2) else []

/-- A stack region overlaps what the take of the other endpoint still protects (R286). -/
def overlapsOtherTake (s : State) (ep : Nat) (g : CkRegion) : Bool :=
  !g.accel && (granulesOf g.addr g.bytes).any (fun x => (protectedBy s x).any (fun e => ([0, 1].filter (· != ep)).contains e))

/-- The regions of a CKPT_TAKE are free, legal and in place, and so are the release records of the captured ones (R286, R290). -/
def TakeRegionsOk (s : State) (r d : Nat) (data : List Byte) : Prop :=
  (takenRegions d data).any (overlapsOtherTake s (epOf r)) = false
    ∧ (parseRegions (fld d 128 16) data).any (fun p => !ckRegionOk p.1 p.2) = false
    ∧ ((parseRegions (fld d 128 16) data).map (fun p => p.2.id)).Nodup
    ∧ (takenRegions d data).any (fun g => g.accel && (targetAddr s g.port g.window g.addr g.bytes false).isNone) = false
    ∧ (takenRegions d data).any (fun g => !g.accel && rangeRefused s g.addr g.bytes) = false
    ∧ (takenRegions d data).any (fun g => g.accel && g.dedup != 2
      && (targetAddr s g.port (fld d 160 4) (fld d 320 64) 64 true).isNone) = false

/-- The extent table of the newest of some roots of the own store, empty where there is none (R284, R294). -/
def newestTable (q : Rd) (j : CkJob) (roots : List (Nat × Nat)) : Rd × Nat × List Nat :=
  match newestRoot roots with
  | some x => rdTable q j (ownStore j) x.2
  | none => (q, 0, [])

/-- Bytes of the regions that are to be captured (R290). -/
def captureNeed (gs : List CkRegion) : Nat := gs.foldl (fun a g => if g.accel && readRegion g then a + g.bytes else a) 0

/-- Bytes of the capture area of a committed set (R315). -/
def captureRoom (s : State) (ep : Nat) : Nat := if (s.ckpt ep).committed then (s.ckpt ep).capSize * granuleBytes else 0

/-- The runs that the newest committed table and its root hold (R283, R284). -/
def usedRuns (roots : List (Nat × Nat)) (table : List Nat) : List (Nat × Nat) :=
  (groupRecs table).flatMap (·.2) ++ (match newestRoot roots with
    | some x => [(fld x.2 384 64, fld x.2 448 32)]
    | none => [])

/-- The take that a CKPT_TAKE starts: it writes the other root slot with the next commit sequence, into the runs that the newest
committed table leaves free (R283, R284, R286, R294). -/
def acceptedTake (d : Nat) (ref : DRef) (j : CkJob) (gs : List CkRegion) (roots : List (Nat × Nat)) (table : List Nat) : Take :=
  { ref := ref, userTag := userTag d, step := fld d 64 64, epoch := j.epoch, sections := fld d 144 3, relWindow := fld d 160 4
    relOffset := fld d 320 64, at_ := fld d 256 64, regions := gs.map (dedupe table)
    slot := ((newestRoot roots).map (fun x => 1 - x.1)).getD 0, commitSeq := ((newestRoot roots).map (fun x => rSeq x.2 + 1)).getD 1
    free := (usedRuns roots table).foldl subRun [(2, (ownStore j).blocks - 2)] }

section
variable {s : State} {r d : Nat} {ref : DRef} {j : CkJob}

theorem ckptTake_jobless (h : jobHere s r = none) (x : HRead) (a : List BRead) : ckptTake r d ref x a s = bad s 0x80 := by
  simp only [ckptTake, h]

/-- With its checks met, CKPT_TAKE accepts a take of its regions, deduplicated against the newest committed table (R286, R294). -/
theorem ckptTake_accepted {data : List Byte} {a : List BRead} {q tb : Rd} {roots : List (Nat × Nat)} {table : List Nat}
    (hjob : jobHere s r = some j ∧ ckBusy s (epOf r) = false) (hfields : TakeFieldsOk d)
    (hread : rdHost s r (64 * fld d 128 16) (if fld d 128 16 = 0 then .ok [] else .ok data) = (0, data))
    (hregions : TakeRegionsOk s r d data) (hroots : rdRoots (s, a) j (ownStore j) = (q, 0, roots))
    (hnewer : roots.any (fun x => !stepAbove j.epoch (fld d 64 64) (rEpoch x.2) (rStep x.2)) = false)
    (htable : newestTable q j roots = (tb, 0, table))
    (hroom : captureNeed ((takenRegions d data).map (dedupe table)) ≤ captureRoom s (epOf r)) :
    ckptTake r d ref (.ok data) a s = later (tb.1.modCk (epOf r) (fun k => { k with
      take := some (acceptedTake d ref j (takenRegions d data) roots table), step := fld d 64 64 })) := by
  obtain ⟨hhere, hidle⟩ := hjob
  obtain ⟨hfree, hlegal, hnodup, hports, hstacks, hrelease⟩ := hregions
  unfold takenRegions overlapsOtherTake at hfree
  unfold takenRegions at hports hstacks hrelease
  unfold takenRegions captureNeed captureRoom at hroom
  have fits := Nat.not_lt.2 hroom
  cases hnew : newestRoot roots
  all_goals
    simp only [newestTable, hnew] at htable
    simp only [ckptTake, hhere, hidle, hfields.passes, hread, hfree, hlegal, hnodup, hports, hstacks, hrelease, hroots, hnewer, hnew,
      htable, fits, decide_true, Bool.not_true, Bool.or_self, Bool.false_eq_true, ne_eq, not_true_eq_false, and_false, if_false,
      acceptedTake, usedRuns, takenRegions]

end

/-! ### CKPT_SURVEY (R300) -/

/-- The half of a survey record that describes a root slot: zero where the slot holds no valid root (Table 8-12). -/
def slotSurvey (roots : List (Nat × Nat)) (n : Nat) : List Byte :=
  match roots.find? (fun x => x.1 == n) with
  | some x => surveyHalf x.2
  | none => List.replicate 32 0#8

/-- CKPT_SURVEY writes what both root slots hold and reports which are valid (R300). -/
theorem ckptSurvey_reports {s : State} {r d : Nat} {j : CkJob} {a : List BRead} {q : Rd} {roots : List (Nat × Nat)}
    (hjob : jobHere s r = some j) (hfields : fld d 64 16 < j.stores.length ∧ fld d 192 64 % 64 = 0)
    (hroots : rdRoots (s, a) j (lget j.stores (fld d 64 16) {}) = (q, 0, roots)) :
    ckptSurvey r d a s = okR (hostWrite q.1 r (fld d 192 64) (slotSurvey roots 0 ++ slotSurvey roots 1))
      (roots.foldl (fun a x => a + 2 ^ x.1) 0) := by
  have in_range : ¬ (j.stores.length ≤ fld d 64 16 ∨ fld d 192 64 % 64 ≠ 0) := by omega
  simp only [ckptSurvey, hjob, in_range, hroots, ne_eq, not_true_eq_false, if_false]
  rfl

/-! ### CKPT_RESTORE (R301 to R304) -/

/-- The fields of a CKPT_RESTORE of a job are in range (R302). -/
def RestoreFieldsOk (j : CkJob) (d : Nat) : Prop :=
  (fld d 96 3 ≠ 0 ∧ fld d 64 16 < j.stores.length ∧ fld d 192 64 % 64 = 0 ∧ fld d 256 16 ≤ 4096
      ∧ (fld d 256 16 = 0 ∨ fld d 192 64 ≠ 0) ∧ fld d 320 64 % 8 = 0)
    ∧ (bitAt (fld d 96 3) 1 = true → fld d 320 64 ≠ 0) ∧ (bitAt (fld d 96 3) 0 = true → fld d 64 16 = j.ownStore)

theorem RestoreFieldsOk.passes {j : CkJob} {d : Nat} (h : RestoreFieldsOk j d) :
    ¬ (fld d 96 3 = 0 ∨ j.stores.length ≤ fld d 64 16 ∨ fld d 192 64 % 64 ≠ 0 ∨ 4096 < fld d 256 16
      ∨ (fld d 256 16 ≠ 0 ∧ fld d 192 64 = 0) ∨ fld d 320 64 % 8 ≠ 0 ∨ (bitAt (fld d 96 3) 1 ∧ fld d 320 64 = 0)
      ∨ (bitAt (fld d 96 3) 0 ∧ fld d 64 16 ≠ j.ownStore)) := by
  obtain ⟨hrange, hserving, hconfig⟩ := h
  have serving_mapped : ¬ (bitAt (fld d 96 3) 1 = true ∧ fld d 320 64 = 0) := fun ⟨hsec, hzero⟩ => hserving hsec hzero
  have config_own : ¬ (bitAt (fld d 96 3) 0 = true ∧ fld d 64 16 ≠ j.ownStore) := fun ⟨hsec, hother⟩ => hother (hconfig hsec)
  simp only [serving_mapped, config_own, or_false]
  omega

/-- The (epoch, step) pair that a CKPT_RESTORE names (R301). -/
def namedPair (d : Nat) : Nat × Nat := (fld d 80 16, fld d 128 64)

/-- The store that a CKPT_RESTORE names (R302). -/
def namedStore (j : CkJob) (d : Nat) : CkStore := lget j.stores (fld d 64 16) {}

/-- A root records a pair (R301). -/
def recordsPair (p : Nat × Nat) (root : Nat) : Bool := rEpoch root == p.1 && rStep root == p.2

/-- The pair is recorded as the job's, and the other root slot of the own store is zeroed where it holds a valid root of another
pair (R302, R303). -/
def restoreFixed (ep d : Nat) (j : CkJob) (q : Rd) (roots : List (Nat × Nat)) (root : Nat × Nat) : Rest :=
  let x0 : Rest := { s := q.1.modCk ep (fun c => { c with job := some { j with pair := some (namedPair d) } }), ans := q.2 }
  if fld d 64 16 = j.ownStore && roots.any (fun x => x.1 != root.1 && !recordsPair (namedPair d) x.2) then
    zeroSlot j (namedStore j d) (1 - root.1) x0
  else x0

/-- The sections that a CKPT_RESTORE asks for are restored in order (R304). -/
def restoreSections (r d : Nat) (j : CkJob) (data : List Byte) (table : List Nat) (x2 : Rest) : Rest :=
  let x3 := if bitAt (fld d 96 3) 0 then x2.go (restConfig r table) else x2
  let x4 := if bitAt (fld d 96 3) 1 then x3.go (restServing r (fld d 272 24) j (namedStore j d) table) else x3
  if bitAt (fld d 96 3) 2 then x4.go (restRegions j (namedStore j d) (parseMaps (fld d 256 16) data) table) else x4

/-- A restore reads the extent table of its root and then restores the sections, unless something has failed (R304). -/
def restoreFrom (r d : Nat) (j : CkJob) (data : List Byte) (root : Nat) (x1 : Rest) : Rest :=
  let tb := rdTable (x1.s, x1.ans) j (namedStore j d) root
  restoreSections r d j data tb.2.2 (if x1.status ≠ 0 then x1 else { x1.rd tb.1 with status := tb.2.1 })

/-- What a restore leaves, the map of its handles written to the host (R304, R312). -/
def restoreLeaves (r d : Nat) (x : Rest) : State := settlePools (if x.map.isEmpty then x.s else hostWrite x.s r (fld d 320 64) x.map)

/-- What a restore reports: MiB read, sequences and regions (R310). -/
def restoreResult (x : Rest) : Nat :=
  (x.bytes + 2 ^ 20 - 1) / 2 ^ 20 % 2 ^ 32 + x.seqs % 2 ^ 16 * 2 ^ 32 + x.regs % 2 ^ 16 * 2 ^ 48

/-- A step of a restore that is taken only under a condition. -/
theorem ite_step (c : Prop) [Decidable c] (f : Rest → Rest) (x : Rest) : (if c then f else id) x = if c then f x else x := by
  split <;> rfl

/-- CKPT_RESTORE of a recorded pair runs its sections and reports what it restored (R302 to R304). -/
theorem ckptRestore_done {s : State} {r d : Nat} {j : CkJob} {data : List Byte} {a : List BRead} {q : Rd}
    {roots : List (Nat × Nat)} {root : Nat × Nat} {x : Rest}
    (hjob : jobHere s r = some j ∧ ckBusy s (epOf r) = false ∧ (j.pair = none ∨ j.pair = some (namedPair d)))
    (hfields : RestoreFieldsOk j d)
    (hread : (if fld d 256 16 = 0 then (0, []) else rdHost s r (16 * fld d 256 16) (.ok data)) = (0, data))
    (hmaps : (parseMaps (fld d 256 16) data).any (fun m => fld m 24 40 != 0) = false)
    (hroots : rdRoots (s, a) j (namedStore j d) = (q, 0, roots))
    (hroot : roots.find? (fun x => recordsPair (namedPair d) x.2) = some root)
    (hx : x = restoreFrom r d j data root.2 (restoreFixed (epOf r) d j q roots root)) (hgood : x.status = 0) :
    ckptRestore r d (.ok data) a s = okR (restoreLeaves r d x) (restoreResult x) := by
  obtain ⟨hhere, hidle, hpair⟩ := hjob
  have same_pair : (j.pair.isSome && j.pair != some (namedPair d)) = false := by
    rcases hpair with h | h <;> simp [h]
  unfold namedStore at hroots
  have roots_good : ¬ (rdRoots (s, a) j (lget j.stores (fld d 64 16) {})).2.1 ≠ 0 := by rw [hroots]; exact not_not.2 rfl
  unfold ckptRestore
  rw [hhere]
  refine (if_neg (Bool.eq_false_iff.1 hidle)).trans ((if_neg (Bool.eq_false_iff.1 same_pair)).trans ((if_neg hfields.passes).trans ?_))
  rw [hread]
  refine (if_neg (not_not.2 rfl)).trans ((if_neg (Bool.eq_false_iff.1 hmaps)).trans ((if_neg roots_good).trans ?_))
  rw [hroots]
  subst hx
  split
  next hnone => cases hnone.symm.trans hroot
  next found hfound =>
    cases hfound.symm.trans hroot
    exact if_neg (not_not.2 hgood)

/-- Settles O30: each command by the lemma about it, on the descriptor that starts it. -/
theorem checkpointCommandsComplete : Obligations.CheckpointCommandsComplete := by
  unfold Obligations.CheckpointCommandsComplete
  refine ⟨?jobSet, ?takeNone, ?take, ?abortNone, ?abort, ?survey, ?restore⟩
  case jobSet =>
    rintro r i k ts data e s h hidle hfields ⟨hslot, hown, hkind, hloaded⟩ hread ⟨rfl, hstores, hreserved⟩
    have kind_asked : [2].contains k.kind = true := by rw [hkind]; decide
    have key_good := begun_withSlot h.1 hslot hown kind_asked hloaded (fun _ => ok0 (begun s r i e))
    exact onDesc_completes h (ckptJobSet_sets (s := begun s r i e) hidle hfields key_good hread hstores hreserved)
  case takeNone =>
    intro r i x a e s h hnone
    exact onDesc_completes h (ckptTake_jobless ((begun_jobHere h.1).trans hnone) x a)
  case take =>
    rintro r i j data vs gs a q roots tb table e s u h ⟨rfl, hjob⟩ hfields hread ⟨rfl, rfl⟩ hfree ⟨hlegal, hnodup⟩
      ⟨hports, hstacks⟩ hrelease ⟨hroots, hnewer⟩ htable hroom
    exact onDesc_waits h (ckptTake_accepted hjob hfields hread ⟨hfree, hlegal, hnodup, hports, hstacks, hrelease⟩ hroots hnewer
      htable hroom)
  case abortNone =>
    intro r i e s h hnone
    exact onFetched_completes h (ckptAbort_none hnone)
  case abort =>
    intro r i t e s h ht hst
    exact onFetched_waits h (ckptAbort_ends ht hst)
  case survey =>
    intro r i j a q roots e s h hjob hfields hroots
    exact onDesc_completes h (ckptSurvey_reports hjob hfields hroots)
  case restore =>
    rintro r i j data a q roots root x1 x2 x5 table e s u h ⟨rfl, hjob⟩ hrange hsections ⟨hread, hmaps⟩ hroots hroot hx1 rfl rfl hx
      hgood
    have fixed : x1 = restoreFixed (epOf r) e.desc.toNat j q roots root := hx1.trans (ite_step _ _ _)
    subst fixed
    simp only [ite_step] at hx
    exact onDesc_completes h (ckptRestore_done hjob ⟨hrange, hsections⟩ hread hmaps hroots hroot hx hgood)

end Sys2Proof.Machine

/-! # A take from its snapshot point to its commit (08): what its events do, and the statement about them -/

namespace Sys2Proof.Machine

/-! ### The snapshot point (R287, R290, R291) -/

/-- The moment of a take's snapshot point: its time where that is still to come, else now (R287). -/
def snapMoment (s : State) (t : Take) : State := if ptp s < t.at_ then advanceToPtp s t.at_ else s

/-- The pieces of the accelerator regions of a take that are captured, as region and offset (R290). -/
def capturePieces (t : Take) : List (Nat × Nat) :=
  (List.range t.regions.length).flatMap (fun i =>
    if (lget t.regions i {}).accel && readRegion (lget t.regions i {}) then (piecesOf (lget t.regions i {})).map (fun o => (i, o)) else [])

/-- The records of section SERVING and the block copies to hold, where the take asks for the section (R280, R291). -/
def takenServing (s : State) (ep : Nat) (t : Take) : List Nat × List (Nat × Nat) :=
  if bitAt t.sections 1 then servingRecs s ep else ([], [])

/-- The take has its snapshot: granules protected, capture pieces listed, serving state and configuration fixed (R287). -/
def snapshotTaken (s : State) (ep : Nat) (t : Take) : State :=
  s.modTake ep (fun u => { u with
    st := .snapshot, snapTime := ptp s
    prot := ((t.regions.filter (fun g => !g.accel)).flatMap (fun g => granulesOf g.addr g.bytes)).eraseDups
    capture := capturePieces t, holds := (takenServing s ep t).2
    records := (if bitAt t.sections 0 then configRecs s ep else []) ++ (takenServing s ep t).1, released := (capturePieces t).isEmpty })

/-- The read of one capture piece leaves for its port (R290). -/
def askPiece (t : Take) (s : State) (c : Nat × Nat) : State :=
  match targetAddr s (lget t.regions c.1 {}).port (lget t.regions c.1 {}).window ((lget t.regions c.1 {}).addr + c.2)
      (min granuleBytes ((lget t.regions c.1 {}).bytes - c.2)) false with
  | some a => engineRead_ s (lget t.regions c.1 {}).port a (min granuleBytes ((lget t.regions c.1 {}).bytes - c.2))
  | none => s

/-- The snapshot is posted, and the reads of the capture and of the held block copies leave (R287, R290, R291). -/
def snapshotPosted (s : State) (ep : Nat) (t : Take) : State :=
  (takenServing s ep t).2.foldl (fun s h => beginRead s h.1 h.2)
    ((capturePieces t).foldl (askPiece t) (postEvent (snapshotTaken s ep t) (4 + ep) 0x1501 0 (ptp s)))

/-- At its snapshot point an accepted take is snapped and posted, and the zeros of its root slot are written (R287, R292). -/
theorem doSnapshot_accepted {s : State} {ep : Nat} {t : Take} (ht : takeOf s ep = some t) (hst : t.st = .accepted) :
    doSnapshot ep s = takeWrite (snapshotPosted (snapMoment s t) ep t) ep t.slot { op := .write, n := 1, fua := true, who := .take ep 0 }
      (List.replicate 4096 0#8) := by
  simp only [doSnapshot, ht, hst, ne_eq, not_true_eq_false, if_false]
  rfl

/-! ### Copy on write (R288, R289) -/

section
variable {s : State} {g ep : Nat} {t : Take}

theorem doGranuleCow_nobody (h : storeWaits s g = false) : doGranuleCow g s = s := by
  simp only [doGranuleCow, h, Bool.not_false, if_true]

/-- With room in the reserve, a store that waits on a granule of one take starts its copy (R288). -/
theorem doGranuleCow_room (hwaits : storeWaits s g = true) (hprot : protectedBy s g = [ep])
    (hroom : (reservePlace s ep (stackOf (g * granuleBytes))).isSome = true) :
    doGranuleCow g s = s.modTake ep (fun t => { t with copying := if t.copying.contains g then t.copying else t.copying ++ [g] }) := by
  have placed : (reservePlace s ep (stackOf (g * granuleBytes))).isNone = false := by simpa using hroom
  simp only [doGranuleCow, hwaits, hprot, placed, List.foldl_cons, List.foldl_nil, Bool.not_true, Bool.false_eq_true, if_false]

/-- The end of a copy takes the granule out of protection, and the stores that waited go on (R288). -/
theorem doGranuleCopied_copying (hprot : protectedBy s g = [ep]) (ht : takeOf s ep = some t) (hcopy : t.copying.contains g = true) :
    doGranuleCopied g s = wakeStores (copyGranule s ep g (waitedUs s g)) := by
  simp only [doGranuleCopied, hprot, ht, hcopy, List.foldl_cons, List.foldl_nil, if_true]

end

/-! ### Reads for the write-out (R290, R291) -/

/-- With its last capture read a take releases its ports and posts CAPTURE_DONE (R290). -/
def captureReleased (s : State) (ep : Nat) (t : Take) : State :=
  postEvent (releaseRecords (s.modTake ep (fun t => { t with released := true })) t 0) (4 + ep) 0x1502 0 t.userTag

section
variable {s : State} {ep : Nat} {t : Take}

/-- A capture read goes into the capture area and on its way to the store; the last one releases (R290). -/
theorem doCaptureReturn_kept {w u : State} {ix o : Nat} {rest : List (Nat × Nat)} {bs data : List Byte} (ht : takeOf s ep = some t)
    (hcap : t.capture = (ix, o) :: rest) (hdata : data = fitB bs (min granuleBytes ((lget t.regions ix {}).bytes - o)))
    (hwrite : engineWrite s 8 ((s.ckpt ep).capBase * granuleBytes + t.captured) data = (w, 0))
    (hu : u = w.modTake ep (fun t => { t with capture := rest, captured := t.captured + data.length })) :
    doCaptureReturn ep (.ok bs) s =
      checkTake (writeOut (if rest.isEmpty then captureReleased u ep t else u) ep (ix * 2 ^ 20 + o / granuleBytes) data) ep := by
  subst hdata hu
  simp only [doCaptureReturn, ht, hcap, hwrite, ne_eq, not_true_eq_false, if_false]
  rfl

/-- The write-out takes copies first: one that is kept outside the reserve needs no read, and one that was read as
uncorrectable ends the take with 0x04 (R288, R296). -/
theorem doTakeRead_copy {x : ARead} {c : CowCopy} {rest : List CowCopy} (ht : takeOf s ep = some t) (hcopies : t.copies = c :: rest)
    (hplace : c.place = none) :
    doTakeRead ep x s = if c.bad then failTake s ep 0x04
      else checkTake ((granuleKeys t c.granule).foldl (fun s k => writeOut s ep k c.bytes)
        (s.modTake ep (fun t => { t with copies := rest }))) ep := by
  simp only [doTakeRead, ht, hcopies, hplace, ne_eq, not_true_eq_false, if_false]

end

/-! ### What ends at a backend (R292, R293, R296) -/

section
variable {s u : State} {b i ep : Nat} {x : BRead} {m : BCmd} {st : Nat}

theorem doBackendComplete_take {p : Nat} {bs : List Byte} (hdone : backDone s b i servesHostOrTake x = (u, some (m, st, bs)))
    (hwho : m.who = .take ep p) : doBackendComplete b i x s = settleSto (takePart u ep p st m) := by
  simp only [doBackendComplete, hdone, hwho]

theorem doWriteBack_buffer {id : Nat} {bs : List Byte} (hdone : backDone s b i servesBuffer x = (u, some (m, st, bs)))
    (hwho : m.who = .back id) : doWriteBack b i x s = settleSto (backPart u b id st) := by
  simp only [doWriteBack, hdone, hwho]

variable {t : Take}

/-- A good Flush issues the root write of the take (R292). -/
theorem doTakeFlush_done (hdone : takeDone s ep 2 x = (u, some (m, 0))) (ht : takeOf u ep = some t) :
    doTakeFlush ep x s = takeWrite (u.modTake ep (fun t => { t with st := .committing })) ep t.slot
      { op := .write, n := 1, fua := true, who := .take ep 3 } (rootBlock (jobOf u ep) t (ptp u)) := by
  simp only [doTakeFlush, hdone, ht, ne_eq, not_true_eq_false, if_false]

/-- A failed Flush fails the take (R296). -/
theorem doTakeFlush_failed (hdone : takeDone s ep 2 x = (u, some (m, st))) (hst : st ≠ 0) :
    doTakeFlush ep x s = failTake u ep (ckStatus st) := by
  simp only [doTakeFlush, hdone, hst, ne_eq, not_false_eq_true, if_true]

/-- A good root write completes the take with its size, its regions that were not read, and its snapshot time (R293). -/
theorem doRootDone_done (hdone : takeDone s ep 3 x = (u, some (m, 0))) (ht : takeOf u ep = some t) :
    doRootDone ep x s = finish ((dropTake u ep t).modCk ep (fun k => { k with bytesOut := (k.bytesOut + 4096) % 2 ^ 64 })) t.ref 0
      ((t.written + 2 ^ 20 - 1) / 2 ^ 20 % 2 ^ 32 + (t.regions.filter (fun g => !readRegion g)).length * 2 ^ 32) t.snapTime := by
  simp only [doRootDone, hdone, ht, ne_eq, not_true_eq_false, if_false]

/-- A failed root write fails the take (R296). -/
theorem doRootDone_failed (hdone : takeDone s ep 3 x = (u, some (m, st))) (ht : takeOf u ep = some t) (hst : st ≠ 0) :
    doRootDone ep x s = failTake u ep (ckStatus st) := by
  simp only [doRootDone, hdone, ht, hst, ne_eq, not_false_eq_true, if_true]

end

/-! ### The capture and reserve set (R315) -/

section
variable {s : State} {r : Nat} (hpf : (isPf1 r && present s r) = true)
include hpf

theorem doCkCommit_locked (hlocked : (s.ckpt (epOf r)).committed = true) : doCkCommit r s = ckEnd s (epOf r) 0x07 0 := by
  simp only [doCkCommit, hpf, hlocked, Bool.not_true, Bool.false_eq_true, if_false, if_true]

theorem doCkCommit_valid (hopen : (s.ckpt (epOf r)).committed = false) (hgood : badCkItem s (s.ckpt (epOf r)) = none) :
    doCkCommit r s = ckEnd (s.modCk (epOf r) (fun k => { k with committed := true })) (epOf r) 0 0 := by
  simp only [doCkCommit, hpf, hopen, hgood, Bool.not_true, Bool.false_eq_true, if_false]

theorem doCkUnlock_open (hopen : (s.ckpt (epOf r)).committed = false) : doCkUnlock r s = ckEnd s (epOf r) 0 0 := by
  simp only [doCkUnlock, hpf, hopen, Bool.not_true, Bool.not_false, Bool.false_eq_true, if_false, if_true]

/-- A set stays locked while a take runs (R315). -/
theorem doCkUnlock_busy (hlocked : (s.ckpt (epOf r)).committed = true) (hbusy : ckBusy s (epOf r) = true) :
    doCkUnlock r s = ckEnd s (epOf r) 0x07 0 := by
  simp only [doCkUnlock, hpf, hlocked, hbusy, Bool.not_true, Bool.false_eq_true, if_false, if_true]

theorem doCkUnlock_idle (hlocked : (s.ckpt (epOf r)).committed = true) (hidle : ckBusy s (epOf r) = false) :
    doCkUnlock r s = ckEnd (s.modCk (epOf r) (fun k => { k with committed := false })) (epOf r) 0 0 := by
  simp only [doCkUnlock, hpf, hlocked, hidle, Bool.not_true, Bool.false_eq_true, if_false]

end

/-- Settles O31: each event of a take, and each action of the set, by the lemma about it. -/
theorem takeProgressesToItsCommit : Obligations.TakeProgressesToItsCommit := by
  unfold Obligations.TakeProgressesToItsCommit
  refine ⟨?snapshot, ?cowNobody, ?cow, ?copied, ?capture, ?copy, ?part, ?writeBack, ?flush, ?root, ?ckSet⟩
  case snapshot =>
    rintro ep t cap s s1 s2 s3 ⟨ht, hst⟩ rfl rfl rfl rfl
    exact congrArg Host.Outcome.next (doSnapshot_accepted ht hst)
  case cowNobody =>
    intro g s h
    exact congrArg Host.Outcome.next (doGranuleCow_nobody h)
  case cow =>
    intro g ep s hwaits hprot hroom
    exact congrArg Host.Outcome.next (doGranuleCow_room hwaits hprot hroom)
  case copied =>
    intro g ep t s ⟨hprot, ht, hcopy⟩
    exact congrArg Host.Outcome.next (doGranuleCopied_copying hprot ht hcopy)
  case capture =>
    intro ep ix o rest bs data t s w u ⟨ht, hcap⟩ hdata hwrite hu
    have kept := doCaptureReturn_kept ht hcap hdata hwrite hu
    refine ⟨fun hmore => ?_, fun hlast => ?_⟩
    · rw [if_neg (by simpa using hmore)] at kept
      exact congrArg Host.Outcome.next kept
    · rw [if_pos (by simpa using hlast)] at kept
      exact congrArg Host.Outcome.next kept
  case copy =>
    intro ep x c rest t s ⟨ht, hcopies⟩ hplace
    have reads := doTakeRead_copy (x := x) ht hcopies hplace
    exact ⟨fun hbad => congrArg Host.Outcome.next (reads.trans (if_pos hbad)),
      fun hgood => congrArg Host.Outcome.next (reads.trans (if_neg (Bool.eq_false_iff.1 hgood)))⟩
  case part =>
    intro b i ep x m st p bs s u hdone hwho
    exact congrArg Host.Outcome.next (doBackendComplete_take hdone hwho)
  case writeBack =>
    intro b i id x m st bs s u hdone hwho
    exact congrArg Host.Outcome.next (doWriteBack_buffer hdone hwho)
  case flush =>
    intro ep x m t st s u ⟨hdone, ht⟩
    exact ⟨fun hgood => congrArg Host.Outcome.next (doTakeFlush_done (hgood ▸ hdone) ht),
      fun hbad => congrArg Host.Outcome.next (doTakeFlush_failed hdone hbad)⟩
  case root =>
    intro ep x m t st s u ⟨hdone, ht⟩
    exact ⟨fun hgood => congrArg Host.Outcome.next (doRootDone_done (hgood ▸ hdone) ht),
      fun hbad => congrArg Host.Outcome.next (doRootDone_failed hdone ht hbad)⟩
  case ckSet =>
    intro fn s hfree hpf
    have commits := gated_of_free hfree (.ckSetCommit fn) (doCkCommit fn)
    have unlocks := gated_of_free hfree (.ckSetUnlock fn) (doCkUnlock fn)
    refine ⟨fun hlocked => ?_, fun ⟨hopen, hgood⟩ => ?_, fun hopen => ?_, fun ⟨hlocked, hbusy⟩ => ?_,
      fun ⟨hlocked, hidle⟩ => ?_⟩
    · exact congrArg Host.Outcome.next (commits.trans (doCkCommit_locked hpf hlocked))
    · exact congrArg Host.Outcome.next (commits.trans (doCkCommit_valid hpf hopen hgood))
    · exact congrArg Host.Outcome.next (unlocks.trans (doCkUnlock_open hpf hopen))
    · exact congrArg Host.Outcome.next (unlocks.trans (doCkUnlock_busy hpf hlocked hbusy))
    · exact congrArg Host.Outcome.next (unlocks.trans (doCkUnlock_idle hpf hlocked hidle))

end Sys2Proof.Machine

/-! # Remote memory (09): what the object commands of an RDMA ring do, and the statement about them -/

namespace Sys2Proof.Machine

/-! ### What a started descriptor leaves as it was -/

section
variable {s : State} {r i : Nat} {e : Fetched}

/-- A started descriptor changes nothing about who owns a protection domain. -/
theorem begun_pdOwned (h : startable s r i = some e) (r' pd : Nat) : pdOwned (begun s r i e) r' pd = pdOwned s r' pd := by
  simp only [pdOwned, begun_rdma, begun_owns h]

/-- A started descriptor changes nothing about which address handle a number names. -/
theorem begun_ahOf (h : startable s r i = some e) (r' n : Nat) : ahOf (begun s r i e) r' n = ahOf s r' n := by
  simp only [ahOf, begun_rdma, begun_owns h]

end

section
variable {s : State} {r d : Nat}

/-! ### Protection domains (R323) -/

/-- PD_ALLOC takes the lowest free domain of its endpoint and reports it. -/
theorem pdAlloc_lowest {k : Nat} (h : lowestFree s.rdma.pds (epKey r 0) (epKey r 65536) = some k) :
    pdAlloc r s = okR (s.modRdma (fun x => { x with pds := oput x.pds k (s.ownOf r) })) (k % 65536) := by
  simp only [pdAlloc, h]

theorem pdFree_foreign {pd : Nat} (h : pdOwned s r pd = false) : pdFree r pd s = bad s 0x84 := by
  simp only [pdFree, h, Bool.not_false, if_true]

/-- PD_FREE of a domain of the function frees it unless something belongs to it. -/
theorem pdFree_owned {pd : Nat} (h : pdOwned s r pd = true) :
    pdFree r pd s = if pdUsed s r pd then bad s 0x83 else ok0 (s.modRdma (fun x => { x with pds := odel x.pds (epKey r pd) })) := by
  simp only [pdFree, h, Bool.not_true, Bool.false_eq_true, if_false]

/-! ### Memory regions (R324, R325, R326) -/

/-- The fields of an MR_REG of host memory are in range (R324). -/
def HostRegionOk (d : Nat) : Prop :=
  fld d 254 2 = 1 ∧ fld d 192 62 % 4096 = 0 ∧ 4096 ≤ fld d 256 64 ∧ fld d 256 64 ≤ 2 ^ 40 ∧ fld d 256 64 % 4096 = 0
    ∧ fld d 128 64 + fld d 256 64 ≤ 2 ^ 64

theorem HostRegionOk.passes (h : HostRegionOk d) :
    ¬ (fld d 254 2 ≥ 2 ∨ fld d 192 62 % 4096 ≠ 0 ∨ fld d 256 64 < 4096 ∨ 2 ^ 40 < fld d 256 64 ∨ fld d 256 64 % 4096 ≠ 0
      ∨ 2 ^ 64 < fld d 128 64 + fld d 256 64) := by
  unfold HostRegionOk at h
  omega

/-- The generation of the next registration of an index (R325). -/
def nextMrGen (s : State) (ix : Nat) : Nat := (mget s.rdma.mrGen ix 0 + 1) % 256

/-- The region of host memory that an MR_REG describes, at an index (R324). -/
def describedRegion (s : State) (r d ix : Nat) : Mr :=
  { own := s.ownOf r, pd := fld d 80 16, gen := nextMrGen s ix, access := fld d 64 4, iova := fld d 128 64, length := fld d 256 64
    host := true, base := fld d 192 62 }

/-- MR_REG of a PF registers its host memory at the lowest free index, one generation on, and reports the key (R324, R325). -/
theorem mrReg_host {ix : Nat} (hpd : pdOwned s r (fld d 80 16) = true) (hfields : HostRegionOk d) (hpf : isVf r = false)
    (hix : lowestFree s.rdma.mrs 0 (2 ^ 20) = some ix) :
    mrReg r d s = okR (s.modRdma (fun x => { x with
      mrs := oput x.mrs ix (describedRegion s r d ix), mrGen := mset x.mrGen ix (nextMrGen s ix) 0 })) (nextMrGen s ix + ix * 256) := by
  have in_range := hfields.passes
  have kind_host : fld d 254 2 = 1 := hfields.1
  rw [kind_host] at in_range
  simp only [mrReg, hpd, kind_host, in_range, hpf, hix, Bool.not_true, Bool.false_eq_true, false_and, one_ne_zero, if_false]
  rfl

theorem mrDereg_unmatched {key : Nat} (h : mrOf s key = none) : mrDereg r key s = bad s 0x02 := by
  simp only [mrDereg, h]

/-- MR_DEREG removes a region of the function that its key matches and that is no staging area (R326). -/
theorem mrDereg_matched {key : Nat} {m : Mr} (h : mrOf s key = some m) (hown : owns s r m.own = true) (hstaging : m.staging = false) :
    mrDereg r key s = ok0 (s.modRdma (fun x => { x with mrs := odel x.mrs (fld key 8 20) })) := by
  simp only [mrDereg, h, hown, hstaging, Bool.not_false, Bool.and_self, if_true]

/-! ### Queue pairs: creation (R321, R322) -/

/-- The fields of a QP_CREATE of an RC or UD queue pair are in range (R321). -/
def QpFieldsOk (s : State) (d : Nat) : Prop :=
  fld d 64 2 < 2 ∧ fld d 100 2 < ifsOf (s.netPort (fld d 96 4)).breakout ∧ 6 ≤ fld d 104 4 ∧ 6 ≤ fld d 108 4

theorem QpFieldsOk.passes (h : QpFieldsOk s d) :
    ¬ (fld d 64 2 = 3 ∨ ifsOf (s.netPort (fld d 96 4)).breakout ≤ fld d 100 2 ∨ fld d 104 4 < 6 ∨ fld d 108 4 < 6) := by
  unfold QpFieldsOk at h
  omega

/-- The committed backing table of an endpoint has room for the context of a number (R322). -/
def BackingHolds (s : State) (ep n : Nat) : Prop :=
  (mget s.rdma.sets ep {}).committed = true ∧ (mget s.rdma.sets ep {}).log2 ≠ 0 ∧ n % 2 ^ 23 < 2 ^ (mget s.rdma.sets ep {}).log2

/-- The interface that a descriptor names by its port and its interface on it. -/
def ifaceOf (d : Nat) : Nat := 4 * fld d 96 4 + fld d 100 2

/-- The queue pair that a QP_CREATE describes, in RESET and at the line rate of its interface (R321, R342). -/
def describedQp (s : State) (r i d : Nat) : Qp :=
  { own := s.ownOf r, ring := i, type := fld d 64 2, pd := fld d 80 16, iface := ifaceOf d, sqLog := fld d 104 4, rqLog := fld d 108 4
    rate := lineRate s (ifaceOf d), pacerAt := ptp s }

/-- QP_CREATE of a PF gives an RC or UD queue pair the next number of its endpoint, where the backing table holds it (R321, R322). -/
theorem qpCreate_next {i n : Nat} (hpd : pdOwned s r (fld d 80 16) = true) (hfields : QpFieldsOk s d) (hpf : isVf r = false)
    (hn : nextQpn s (epOf r) = some n) (hback : BackingHolds s (epOf r) n) :
    qpCreate r i d s = okR (touchCtx ((takeQpn s (epOf r) n).modRdma (fun x => { x with
      qps := oput x.qps n (describedQp s r i d) })) n) n := by
  have no_gsi : ¬ fld d 64 2 = 2 := Nat.ne_of_lt hfields.1
  obtain ⟨hcommitted, hsized, hholds⟩ := hback
  have held := Nat.not_le.2 hholds
  simp only [qpCreate, hpd, hfields.passes, hpf, no_gsi, hn, hcommitted, hsized, held, Bool.not_true, Bool.false_eq_true, false_and,
    or_self, if_false]
  rfl

/-! ### Queue pairs: a command that names one (R337, R338, R346, R347) -/

variable {i n : Nat} {q : Qp}

/-- A number that names no queue pair of the function (R346, step 1). -/
theorem withQp_none {m : Nat} (h : qpFor s r i m = none) (act : Nat → Qp → CmdRes) : withQp s r i m act = bad s 0x80 := by
  simp only [withQp, h]

/-- A queue pair takes commands from its own ring pair alone (R346, step 2). -/
theorem withQp_otherRing {m : Nat} (h : qpFor s r i m = some (n, q)) (hring : q.ring ≠ i) (act : Nat → Qp → CmdRes) :
    withQp s r i m act = bad s 0x81 := by
  simp only [withQp, h, hring, ne_eq, not_false_eq_true, if_true]

theorem withQp_own {m : Nat} (h : qpFor s r i m = some (n, q)) (hring : q.ring = i) (act : Nat → Qp → CmdRes) :
    withQp s r i m act = act n q := by
  simp only [withQp, h, hring, ne_eq, not_true_eq_false, if_false]

/-- QP_MODIFY reads its record (Table 9-10) and makes the transition that it asks for (R347). -/
theorem qpModify_reads {bs : List Byte} (h : qpFor s r i (fld d 64 24) = some (n, q)) (hring : q.ring = i)
    (haligned : fld d 128 64 % 64 = 0) (hread : rdHost s r 128 (.ok bs) = (0, bs)) :
    qpModify r i d (.ok bs) s = qpModifyTo n q (leNat bs) s := by
  refine (withQp_own h hring _).trans ?_
  simp only [haligned, hread, ne_eq, not_true_eq_false, if_false]

/-- Any state may go to RESET (Table 9-6). -/
theorem qpMoves_reset (st : QpSt) (bound : Bool) : qpMoves st bound 0 = true := rfl

/-- RESET alone may go to INIT (Table 9-6). -/
theorem qpMoves_init (st : QpSt) (bound : Bool) : qpMoves st bound 1 = (st == .reset) := by
  cases st <;> rfl

/-- QP_MODIFY to RESET flushes the work requests, clears the context and ends a binding (R337, R338). -/
theorem qpModifyTo_reset {a : Nat} (hto : fld a 0 4 = 0) (hzero : attrReserved a = true) :
    qpModifyTo n q a s = ok0 (touchCtx ((flushQp s n).modQp n (fun q => clearQp s { q with bound := none })) n) := by
  simp [qpModifyTo, hto, qpMoves_reset, hzero]

/-- A queue pair in INIT; a datagram queue pair takes its Q_Key (R337, R347). -/
def initQp (a : Nat) (p : Qp) : Qp :=
  { p with
    st := .init
    qkey := if p.type = 0 then p.qkey else fld a 224 32
    attr := if p.type = 0 then p.attr else takeBits p.attr a [(224, 32)] }

/-- QP_MODIFY to INIT is a transition from RESET alone (R337, Table 9-6). -/
theorem qpModifyTo_init {a : Nat} (hto : fld a 0 4 = 1) (hzero : attrReserved a = true) :
    qpModifyTo n q a s = if q.st = .reset then ok0 (touchCtx (s.modQp n (initQp a)) n) else bad s 0x82 := by
  by_cases hst : q.st = .reset
  · simp [qpModifyTo, hto, qpMoves_init, hzero, hst]
    rfl
  · simp [qpModifyTo, hto, qpMoves_init, hst]

theorem qpQuery_writes (h : qpFor s r i (fld d 64 24) = some (n, q)) (hring : q.ring = i) (haligned : fld d 128 64 % 64 = 0) :
    qpQuery r i d s = ok0 (hostWrite s r (fld d 128 64) (natLE 128 (qpRecord q))) :=
  (withQp_own h hring _).trans (if_neg (not_not.2 haligned))

/-! ### Address handles (R350) -/

/-- The address handle that an AH_CREATE describes with the record `a` (Table 9-10, R350). -/
def describedAh (s : State) (r d a : Nat) : Ah :=
  { own := s.ownOf r, pd := fld d 80 16, iface := ifaceOf d, attr := takeBits 0 a pathFields }

/-- AH_CREATE takes the lowest free handle of its endpoint, if the source address is one of the interface's (R347, R350). -/
theorem ahCreate_lowest {bs : List Byte} {k : Nat} (hpd : pdOwned s r (fld d 80 16) = true)
    (hiface : fld d 100 2 < ifsOf (s.netPort (fld d 96 4)).breakout) (haligned : fld d 128 64 % 64 = 0)
    (hread : rdHost s r 128 (.ok bs) = (0, bs)) (hzero : attrReserved (leNat bs) = true)
    (hk : lowestFree s.rdma.ahs (epKey r 0) (epKey r 65536) = some k) :
    ahCreate r d (.ok bs) s = if srcOk (ifaceOf d) (leNat bs) then
        okR (s.modRdma (fun x => { x with ahs := oput x.ahs k (describedAh s r d (leNat bs)) })) (k % 65536)
      else bad s 0x06 := by
  have in_range : ¬ (ifsOf (s.netPort (fld d 96 4)).breakout ≤ fld d 100 2 ∨ fld d 128 64 % 64 ≠ 0) := by omega
  cases hsrc : srcOk (ifaceOf d) (leNat bs)
  all_goals
    unfold ifaceOf at hsrc
    simp only [ahCreate, hpd, in_range, hread, hzero, hsrc, hk, describedAh, ifaceOf, Bool.not_true, Bool.false_eq_true, Bool.true_eq_false,
      or_self, or_true, ne_eq, not_true_eq_false, if_false, if_true]

end

section
variable {s : State} {r i : Nat} {e : Fetched}

theorem exec_ahDestroy_none (h : Starts s r i 0x20 0x0A e) (hnone : ahOf s r (fld e.desc.toNat 64 16) = none) :
    exec (.ahDestroy r i) s = .next (finish (begun s r i e) (refOf r i e) 0x85 0 0) := by
  refine onDesc_completes h ?_
  simp only [begun_ahOf h.1, hnone]
  rfl

theorem exec_ahDestroy_some {a : Ah} (h : Starts s r i 0x20 0x0A e) (ha : ahOf s r (fld e.desc.toNat 64 16) = some a) :
    exec (.ahDestroy r i) s = .next (finish ((begun s r i e).modRdma (fun x => { x with
      ahs := odel x.ahs (epKey r (fld e.desc.toNat 64 16)) })) (refOf r i e) 0 0 0) := by
  refine onDesc_completes h ?_
  simp only [begun_ahOf h.1, ha]
  rfl

end

/-! ### The backing table's set (R351) -/

/-- The sizes that a backing table may have: none, or 2^10 to 2^23 contexts (R322, R351). -/
def BackingSizeOk (log2 : Nat) : Prop := log2 = 0 ∨ (10 ≤ log2 ∧ log2 ≤ 23)

section
variable {s : State} {fn : Nat} (hpf : (isPf1 fn && present s fn) = true)
include hpf

theorem doRdmaCommit_locked (hlocked : (mget s.rdma.sets (epOf fn) {}).committed = true) :
    doRdmaCommit fn s = rdmaEnd s (epOf fn) (fun x => { x with status := 0x07 }) := by
  simp only [doRdmaCommit, hpf, hlocked, Bool.not_true, Bool.false_eq_true, if_false, if_true]

/-- A set that is not committed is committed when its size is legal. -/
theorem doRdmaCommit_valid (hopen : (mget s.rdma.sets (epOf fn) {}).committed = false)
    (hsize : BackingSizeOk (mget s.rdma.sets (epOf fn) {}).log2) :
    doRdmaCommit fn s = rdmaEnd s (epOf fn) (fun x => { x with committed := true, status := 0 }) := by
  unfold BackingSizeOk at hsize
  simp only [doRdmaCommit, hpf, hopen, hsize, Bool.not_true, Bool.false_eq_true, if_false, if_true]

theorem doRdmaCommit_badSize (hopen : (mget s.rdma.sets (epOf fn) {}).committed = false)
    (hsize : ¬ BackingSizeOk (mget s.rdma.sets (epOf fn) {}).log2) :
    doRdmaCommit fn s = rdmaEnd s (epOf fn) (fun x => { x with status := 0x06 }) := by
  unfold BackingSizeOk at hsize
  simp only [doRdmaCommit, hpf, hopen, hsize, Bool.not_true, Bool.false_eq_true, if_false]

theorem doRdmaUnlock_open (hopen : (mget s.rdma.sets (epOf fn) {}).committed = false) :
    doRdmaUnlock fn s = rdmaEnd s (epOf fn) (fun x => { x with status := 0 }) := by
  simp only [doRdmaUnlock, hpf, hopen, Bool.not_true, Bool.not_false, Bool.false_eq_true, if_false, if_true]

/-- A committed set unlocks when no queue pair of its endpoint exists. -/
theorem doRdmaUnlock_locked (hlocked : (mget s.rdma.sets (epOf fn) {}).committed = true) :
    doRdmaUnlock fn s = if qpsOfEp s (epOf fn) then rdmaEnd s (epOf fn) (fun x => { x with status := 0x07 })
      else rdmaEnd s (epOf fn) (fun x => { x with committed := false, status := 0 }) := by
  simp only [doRdmaUnlock, hpf, hlocked, Bool.not_true, Bool.false_eq_true, if_false]

end

/-- Settles O32: each command by the lemma about it, on the descriptor that starts it. -/
theorem rdmaObjectsComplete : Obligations.RdmaObjectsComplete := by
  unfold Obligations.RdmaObjectsComplete
  refine ⟨?pdAlloc, ?pdFree, ?mrReg, ?mrDereg, ?create, ?reset, ?init, ?query, ?destroy, ?ahCreate, ?ahDestroy, ?set⟩
  case pdAlloc =>
    intro r i k e s h hk
    rw [← begun_ownOf h.1 r]
    exact onDesc_completes h (pdAlloc_lowest (s := begun s r i e) hk)
  case pdFree =>
    intro r i e s h
    have same := begun_pdOwned h.1 r (fld e.desc.toNat 64 16)
    refine ⟨fun hforeign => ?_, fun ⟨hown, hused⟩ => ?_, fun ⟨hown, hunused⟩ => ?_⟩
    · exact onDesc_completes h (pdFree_foreign (same.trans hforeign))
    · exact onDesc_completes h ((pdFree_owned (same.trans hown)).trans (if_pos hused))
    · exact onDesc_completes h ((pdFree_owned (same.trans hown)).trans (if_neg (Bool.eq_false_iff.1 hunused)))
  case mrReg =>
    intro r i ix e s h hpd hfields ⟨hpf, hix⟩
    rw [← begun_ownOf h.1 r]
    exact onDesc_completes h (mrReg_host ((begun_pdOwned h.1 r _).trans hpd) hfields hpf hix)
  case mrDereg =>
    intro r i e s h
    refine ⟨fun hnone => ?_, fun m ⟨hm, hown, hstaging⟩ => ?_⟩
    · exact onDesc_completes h (mrDereg_unmatched (s := begun s r i e) hnone)
    · exact onDesc_completes h (mrDereg_matched (s := begun s r i e) hm ((begun_owns h.1 r m.own).trans hown) hstaging)
  case create =>
    rintro r i n q e s h hpd ⟨htype, hiface, hsq, hrq, hpf⟩ ⟨hn, hback⟩ rfl
    rw [← begun_ownOf h.1 r]
    exact onDesc_completes h (qpCreate_next (s := begun s r i e) ((begun_pdOwned h.1 r _).trans hpd) ⟨htype, hiface, hsq, hrq⟩ hpf hn
      hback)
  case reset =>
    intro r i n q bs e s h ⟨hqp, hring, haligned⟩ ⟨hread, hzero, hto⟩
    have reads := qpModify_reads ((begun_qpFor h.1 _).trans hqp) hring haligned ((begun_rdHost h.1 r 128 _).trans hread)
    exact onDesc_completes h (reads.trans (qpModifyTo_reset hto hzero))
  case init =>
    intro r i n q bs e s h ⟨hqp, hring, haligned⟩ ⟨hread, hzero, hto⟩
    have reads := qpModify_reads ((begun_qpFor h.1 _).trans hqp) hring haligned ((begun_rdHost h.1 r 128 _).trans hread)
    have moves := reads.trans (qpModifyTo_init hto hzero)
    exact ⟨fun hst => onDesc_completes h (moves.trans (if_neg hst)), fun hst => onDesc_completes h (moves.trans (if_pos hst))⟩
  case query =>
    intro r i n q e s h ⟨hqp, hring, haligned⟩
    exact onDesc_completes h (qpQuery_writes ((begun_qpFor h.1 _).trans hqp) hring haligned)
  case destroy =>
    intro r i n q e s h
    have same := begun_qpFor h.1 (fld e.desc.toNat 64 24)
    refine ⟨fun hnone => ?_, fun ⟨hqp, hring⟩ => ?_, fun ⟨hqp, hring⟩ => ?_⟩
    · exact onDesc_completes h (withQp_none (same.trans hnone) _)
    · exact onDesc_completes h (withQp_otherRing (same.trans hqp) hring _)
    · exact onDesc_completes h (withQp_own (same.trans hqp) hring _)
  case ahCreate =>
    intro r i k bs e s h ⟨hpd, hiface, haligned⟩ ⟨hread, hzero⟩ hk
    rw [← begun_ownOf h.1 r]
    have creates := ahCreate_lowest (s := begun s r i e) ((begun_pdOwned h.1 r _).trans hpd) hiface haligned
      ((begun_rdHost h.1 r 128 _).trans hread) hzero hk
    split
    next hsrc => exact onDesc_completes h (creates.trans (if_pos hsrc))
    next hsrc => exact onDesc_completes h (creates.trans (if_neg hsrc))
  case ahDestroy =>
    intro r i a e s h
    exact ⟨exec_ahDestroy_none h, exec_ahDestroy_some h⟩
  case set =>
    rintro fn x s ⟨hfree, hpf1, hpresent⟩ rfl
    have hpf : (isPf1 fn && present s fn) = true := by rw [hpf1, hpresent]; rfl
    have commits := gated_of_free hfree (.rdmaSetCommit fn) (doRdmaCommit fn)
    have unlocks := gated_of_free hfree (.rdmaSetUnlock fn) (doRdmaUnlock fn)
    refine ⟨fun hlocked => ?_, fun ⟨hopen, hsize⟩ => ?_, fun ⟨hopen, hsome, hsize⟩ => ?_, fun hopen => ?_,
      fun ⟨hlocked, hused⟩ => ?_, fun ⟨hlocked, hunused⟩ => ?_⟩
    · exact congrArg Host.Outcome.next (commits.trans (doRdmaCommit_locked hpf hlocked))
    · exact congrArg Host.Outcome.next (commits.trans (doRdmaCommit_valid hpf hopen hsize))
    · have hillegal : ¬ BackingSizeOk (mget s.rdma.sets (epOf fn) {}).log2 := by unfold BackingSizeOk; omega
      exact congrArg Host.Outcome.next (commits.trans (doRdmaCommit_badSize hpf hopen hillegal))
    · exact congrArg Host.Outcome.next (unlocks.trans (doRdmaUnlock_open hpf hopen))
    · exact congrArg Host.Outcome.next (unlocks.trans ((doRdmaUnlock_locked hpf hlocked).trans (if_pos hused)))
    · exact congrArg Host.Outcome.next (unlocks.trans ((doRdmaUnlock_locked hpf hlocked).trans
        (if_neg (Bool.eq_false_iff.1 hunused))))

end Sys2Proof.Machine

/-! # Work requests and the requester (09): what they check, queue and repeat, and the statement about them -/

namespace Sys2Proof.Machine

/-! ### Send-side work requests (R345, R346) -/

/-- The commands that post a send-side work request, each with its opcode and what the read of its data in host memory answers. -/
def postings (r i : Nat) (host : HRead) : List (Instr × Nat × HRead) :=
  [(.send r i host, 0x10, host), (.sendImm r i host, 0x11, host), (.write r i host, 0x12, host), (.writeImm r i host, 0x13, host),
    (.read r i, 0x14, .ok []), (.atomicCas r i, 0x15, .ok []), (.atomicFadd r i, 0x16, .ok [])]

/-- Every posting command is `postSend` of its opcode, on a descriptor of that opcode. -/
theorem exec_posting {r i op : Nat} {host : HRead} {c : Instr} (h : (c, op, host) ∈ postings r i host) (s : State) :
    exec c s = .next (onDesc s r i 0x20 op (fun d ref s => postSend op r i d ref host s)) := by
  simp only [postings, List.mem_cons, Prod.mk.injEq, List.not_mem_nil, or_false] at h
  rcases h with ⟨rfl, rfl, _⟩ | ⟨rfl, rfl, _⟩ | ⟨rfl, rfl, _⟩ | ⟨rfl, rfl, _⟩ | ⟨rfl, rfl, rfl⟩ | ⟨rfl, rfl, rfl⟩ | ⟨rfl, rfl, rfl⟩
  all_goals rfl

/-- The work request of a descriptor, with the path of the address handle that it names, if any (R345, R350). -/
def describedWr (s : State) (r op d : Nat) (ref : DRef) (host : HRead) : SendWr :=
  sendWr op d ((ahOf s r (fld d 224 16)).elim 0 (·.attr)) ref host

/-- A work request is queued behind the earlier ones of its queue pair, and the queue is run (R346, R347). -/
def queueSend (s : State) (n : Nat) (w : SendWr) : State :=
  pumpSends (touchCtx (s.modQp n (fun q => { q with sends := q.sends ++ [w] })) n) n

section
variable {s : State} {op r i d n : Nat} {q : Qp} {ref : DRef} {host : HRead}

theorem postSend_none (h : qpFor s r i (fld d 64 24) = none) : postSend op r i d ref host s = bad s 0x80 := by
  simp only [postSend, h]

/-- A SEND on a datagram queue pair names an address handle of the function (R346, R350). -/
theorem postSend_noHandle (h : qpFor s r i (fld d 64 24) = some (n, q)) (htype : q.type ≠ 0) (hop : op = 0x10 ∨ op = 0x11)
    (hah : ahOf s r (fld d 224 16) = none) : postSend op r i d ref host s = bad s 0x85 := by
  simp only [postSend, h, htype, hop, hah, ne_eq, not_false_eq_true, Option.isNone_none, and_self, if_true]

/-- Behind the handle that a datagram needs, a work request is checked in the order of R346, from the ring pair on. -/
theorem postSend_addressed (h : qpFor s r i (fld d 64 24) = some (n, q))
    (haddr : q.type = 0 ∨ (ahOf s r (fld d 224 16)).isSome = true) :
    postSend op r i d ref host s = if q.ring ≠ i then bad s 0x81
      else if q.bound.isSome then bad s 0x02
      else if q.st = .error then bad s 0x01
      else if q.st ≠ .rts ∧ q.st ≠ .sqd then bad s 0x82
      else if !sendFieldsOk q op d then bad s 0x06
      else if 2 ^ q.sqLog ≤ q.sends.length then bad s 0x07
      else later (queueSend s n (describedWr s r op d ref host)) := by
  have addressed : ¬ (q.type ≠ 0 ∧ (op = 0x10 ∨ op = 0x11) ∧ (ahOf s r (fld d 224 16)).isNone = true) := by
    rintro ⟨htype, -, hnone⟩
    rw [Option.isNone_iff_eq_none.1 hnone] at haddr
    exact haddr.elim htype Bool.false_ne_true
  simp only [postSend, h, addressed, if_false]
  rfl

section
variable (h : qpFor s r i (fld d 64 24) = some (n, q)) (haddr : q.type = 0 ∨ (ahOf s r (fld d 224 16)).isSome = true)
include h haddr

theorem postSend_otherRing (hring : q.ring ≠ i) : postSend op r i d ref host s = bad s 0x81 :=
  (postSend_addressed h haddr).trans (if_pos hring)

section
variable (hring : q.ring = i) (hfree : q.bound = none)
include hring hfree

theorem postSend_error (hst : q.st = .error) : postSend op r i d ref host s = bad s 0x01 := by
  simp only [postSend_addressed h haddr, hring, hfree, hst, ne_eq, not_true_eq_false, Option.isSome_none, Bool.false_eq_true, if_false,
    if_true]

/-- Before RTS a queue pair takes no work request (R346). -/
theorem postSend_early (hst : q.st = .reset ∨ q.st = .init ∨ q.st = .rtr) : postSend op r i d ref host s = bad s 0x82 := by
  rcases hst with hst | hst | hst
  all_goals simp [postSend_addressed h haddr, hring, hfree, hst]

/-- In RTS or SQD a work request with legal fields is queued unless the send queue is full (R346, R347). -/
theorem postSend_sending (hst : q.st = .rts ∨ q.st = .sqd) (hfields : sendFieldsOk q op d = true) :
    postSend op r i d ref host s = if 2 ^ q.sqLog ≤ q.sends.length then bad s 0x07
      else later (queueSend s n (describedWr s r op d ref host)) := by
  rcases hst with hst | hst
  all_goals simp [postSend_addressed h haddr, hring, hfree, hst, hfields]

end
end

/-! ### Receives (R346) -/

/-- A receive is queued behind the earlier ones of its queue pair. -/
def queueRecv (s : State) (n : Nat) (w : RecvWr) : State :=
  touchCtx (s.modQp n (fun q => { q with recvs := q.recvs ++ [w] })) n

/-- The receive of a RECV descriptor (R345). -/
def describedRecv (d : Nat) (ref : DRef) : RecvWr := { ref := ref, laddr := fld d 128 64, lkey := fld d 192 32, len := fld d 96 32 }

section
variable (h : qpFor s r i (fld d 64 24) = some (n, q)) (hring : q.ring = i)
include h hring

theorem postRecv_error (hst : q.st = .error) : postRecv r i d ref s = bad s 0x01 :=
  (withQp_own h hring _).trans (if_pos hst)

theorem postRecv_reset (hst : q.st = .reset) : postRecv r i d ref s = bad s 0x82 := by
  refine (withQp_own h hring _).trans ((if_neg ?_).trans (if_pos hst))
  rw [hst]
  decide

/-- RECV appends a receive in every state but RESET and ERROR, while the receive queue has room. -/
theorem postRecv_queued (hst : q.st ≠ .error ∧ q.st ≠ .reset) (hlen : fld d 96 32 ≤ 2 ^ 31) (hroom : q.recvs.length < 2 ^ q.rqLog) :
    postRecv r i d ref s = later (queueRecv s n (describedRecv d ref)) :=
  (withQp_own h hring _).trans ((if_neg hst.1).trans ((if_neg hst.2).trans ((if_neg (Nat.not_lt.2 hlen)).trans
    (if_neg (Nat.not_le.2 hroom)))))

end
end

/-! ### Timers of the requester (R331) -/

section
variable {s : State} {n : Nat} {q : Qp}

/-- The vestibule cycle at which the ack timer of a queue pair expires: 4.096 µs × 2^timeout after it started (R331). -/
def ackDue (q : Qp) : Nat := q.ackFrom + (16384 * 2 ^ q.timeout + 9) / 10

/-- The ack timer of a queue pair with a request unacknowledged and no RNR wait: the oldest request ends with 0x09 when the retries
are used up, and everything unacknowledged is sent again otherwise (R331). -/
theorem doAckTimeout_expires {w : SendWr} (hq : oget s.rdma.qps n = some q) (hw : q.sends.find? (·.sent) = some w)
    (hwait : q.rnrWait = none) (hst : q.st = .rts ∨ q.st = .sqd) :
    doAckTimeout n s = if q.retryCnt ≤ q.retries then sendError (advanceTo s (ackDue q)) n w 0x09 0
      else retransmit ((advanceTo s (ackDue q)).modQp n (fun q => { q with retries := q.retries + 1 })) n := by
  have runs : ¬ (q.rnrWait.isSome = true ∨ (q.st ≠ .rts ∧ q.st ≠ .sqd)) := by
    rw [hwait]
    rintro (hsome | ⟨hrts, hsqd⟩)
    · cases hsome
    · exact hst.elim hrts hsqd
  simp only [doAckTimeout, hq, hw, runs, if_false]
  rfl

/-- An RNR wait ends: the requester sends again, and its queue goes on (R331). -/
theorem doRnrExpiry_waiting {t : Nat} (hq : oget s.rdma.qps n = some q) (hwait : q.rnrWait = some t) :
    doRnrExpiry n s = pumpSends (retransmit ((advanceTo s t).modQp n (fun q => { q with rnrWait := none })) n) n := by
  simp only [doRnrExpiry, hq, hwait]

end

/-! ### The gust tick (R342, R343) -/

/-- The step of a queue pair's rate at a gust tick: down as by a CNP when its measured round trip is too long, and then the
recovery of every tick (R342). -/
def tickQp (s : State) (q : Qp) : Qp :=
  gustDown (lineRate s q.iface) s.rdma.aiMbps (if s.rdma.rttHighUs ≠ 0 ∧ s.rdma.rttHighUs < q.rtt then gustUp s.rdma.minRate q else q)

/-- A gust tick steps every queue pair that the controller holds to a rate and that is not in RESET. -/
def gustStep (s : State) (q : Nat × Qp) : State :=
  if gusted q.1 = false ∨ q.2.st = .reset then s else checkSquall (s.modQp q.1 (tickQp s)) q.1

/-- The vestibule cycle of the next gust tick. -/
def nextGustTick (s : State) : Nat := (s.vcycle / (s.rdma.tickUs * usCycles) + 1) * (s.rdma.tickUs * usCycles)

theorem doGustTick_steps (s : State) :
    doGustTick s = (advanceTo s (nextGustTick s)).rdma.qps.foldl gustStep (advanceTo s (nextGustTick s)) := by
  have same_step : gustStep = fun s q =>
      if !gusted q.1 ∨ q.2.st = .reset then s else checkSquall (s.modQp q.1 (tickQp s)) q.1 := by
    funext s q
    simp only [gustStep, Bool.not_eq_true']
  rw [same_step]
  rfl

/-- Settles O33: each work request by the check of R346 that it reaches; the timers and the gust tick by the lemmas about them. -/
theorem workRequestsAreCheckedAndQueued : Obligations.WorkRequestsAreCheckedAndQueued := by
  unfold Obligations.WorkRequestsAreCheckedAndQueued
  refine ⟨?queued, ?refused, ?stale, ?datagram, ?recv, ?ackTimeout, ?rnr, ?gust⟩
  case queued =>
    rintro r i n op q host e s t h ⟨hqp, htype, hring, hfree⟩ ⟨hst, hfields, hroom⟩ rfl
    have sends (c : Instr) (hc : (c, op, host) ∈ postings r i host) :
        exec c s = .next (queueSend (begun s r i e) n (describedWr (begun s r i e) r op e.desc.toNat (refOf r i e) host)) := by
      refine (exec_posting hc s).trans (onDesc_waits h ?_)
      exact (postSend_sending ((begun_qpFor h.1 _).trans hqp) (.inl htype) hring hfree hst hfields).trans
        (if_neg (Nat.not_le.2 hroom))
    refine ⟨?_, ?_, ?_, ?_, ?_, ?_, ?_⟩
    · rintro rfl; exact sends (.send r i host) (by simp [postings])
    · rintro rfl; exact sends (.sendImm r i host) (by simp [postings])
    · rintro rfl; exact sends (.write r i host) (by simp [postings])
    · rintro rfl; exact sends (.writeImm r i host) (by simp [postings])
    · rintro ⟨rfl, rfl⟩; exact sends (.read r i) (by simp [postings])
    · rintro ⟨rfl, rfl⟩; exact sends (.atomicCas r i) (by simp [postings])
    · rintro ⟨rfl, rfl⟩; exact sends (.atomicFadd r i) (by simp [postings])
  case refused =>
    intro r i n op q host c e s h hc ⟨hqp, htype⟩
    have named := (begun_qpFor h.1 (fld e.desc.toNat 64 24)).trans hqp
    have posts := exec_posting hc s
    refine ⟨fun hring => ?_, fun ⟨hring, hfree, hst⟩ => ?_, fun ⟨hring, hfree, hst⟩ => ?_, fun ⟨hring, hfree, hst, hfields, hfull⟩ => ?_⟩
    · exact posts.trans (onDesc_completes h (postSend_otherRing named (.inl htype) hring))
    · exact posts.trans (onDesc_completes h (postSend_error named (.inl htype) hring hfree hst))
    · exact posts.trans (onDesc_completes h (postSend_early named (.inl htype) hring hfree hst))
    · exact posts.trans (onDesc_completes h ((postSend_sending named (.inl htype) hring hfree hst hfields).trans (if_pos hfull)))
  case stale =>
    intro r i op host c e s h hc hnone
    exact (exec_posting hc s).trans (onDesc_completes h (postSend_none ((begun_qpFor h.1 _).trans hnone)))
  case datagram =>
    intro r i n q host e s h ⟨hqp, htype⟩
    have named := (begun_qpFor h.1 (fld e.desc.toNat 64 24)).trans hqp
    have same := begun_ahOf h.1 r (fld e.desc.toNat 224 16)
    refine ⟨fun hnone => ?_, fun ⟨hah, hring, hfree, hst, hfields, hroom⟩ => ?_⟩
    · exact onDesc_completes h (postSend_noHandle named htype (.inl rfl) (same.trans hnone))
    · rw [← same] at hah
      exact onDesc_waits h ((postSend_sending named (.inr hah) hring hfree (.inl hst) hfields).trans (if_neg (Nat.not_le.2 hroom)))
  case recv =>
    intro r i n q e s h ⟨hqp, hring⟩
    have named := (begun_qpFor h.1 (fld e.desc.toNat 64 24)).trans hqp
    refine ⟨fun hst => ?_, fun hst => ?_, fun ⟨herror, hreset, hlen, hroom⟩ => ?_⟩
    · exact onDesc_completes h (postRecv_error named hring hst)
    · exact onDesc_completes h (postRecv_reset named hring hst)
    · exact onDesc_waits h (postRecv_queued named hring ⟨herror, hreset⟩ hlen hroom)
  case ackTimeout =>
    rintro n q w s u ⟨hq, hw⟩ ⟨hwait, hst⟩ rfl
    have expires := doAckTimeout_expires hq hw hwait hst
    exact ⟨fun hleft => congrArg Host.Outcome.next (expires.trans (if_neg (Nat.not_le.2 hleft))),
      fun hused => congrArg Host.Outcome.next (expires.trans (if_pos hused))⟩
  case rnr =>
    intro n t q s ⟨hq, hwait⟩
    exact congrArg Host.Outcome.next (doRnrExpiry_waiting hq hwait)
  case gust =>
    intro s _
    exact congrArg Host.Outcome.next (doGustTick_steps s)

end Sys2Proof.Machine

/-! # Packets of remote memory (09): how each kind acts on its queue pair, and the statement about them -/

namespace Sys2Proof.Machine

/-! ### The front of a tile's input (R320, R327, R333) -/

/-- Taking a packet off a tile's input leaves every queue pair as it was. -/
@[simp] theorem dropHead_qps (s : State) (t : Nat) : (dropHead s t).rdma.qps = s.rdma.qps := rfl

/-- A change of queue pairs leaves the regions that an access is checked against (R323). -/
@[simp] theorem mrAccess_modQp (s : State) (k : Nat) (f : Qp → Qp) (o : Own) (pd key : Nat) (right : Option Nat) (va n : Nat) :
    mrAccess (s.modQp k f) o pd key right va n = mrAccess s o pd key right va n := rfl

theorem fitB_length (bs : List Byte) (n : Nat) : (fitB bs n).length = n := by
  simp only [fitB, List.length_take, List.length_append, List.length_replicate]
  omega

/-- In RTR, RTS and SQD a queue pair takes packets: none of them is RESET, INIT or ERROR (Table 9-6). -/
theorem QpSt.receives {st : QpSt} (h : st = .rtr ∨ st = .rts ∨ st = .sqd) : st ≠ .reset ∧ st ≠ .init ∧ st ≠ .error := by
  rcases h with rfl | rfl | rfl <;> decide

/-! ### What a packet does once its queue pair takes it (R331, R341, R342) -/

/-- What a response in flight does at the requester: an ACK, a NAK, or data of a READ or an atomic (R331). -/
def takeResponse (s : State) (n una : Nat) (p : RocePkt) : State :=
  if p.op = 0x11 then (if p.syndrome / 32 = 0 then gotAck s n p.psn una else gotNak s n una p) else gotData s n una p

/-- The path back to the sender of a datagram, on which its CNP goes (R341, log 46). -/
def cnpPath (j : Nat) (p : RocePkt) : Nat :=
  p.back + fld (Config.backPath j).toNat 0 8 * 2 ^ 168 + fld (Config.backPath j).toNat 8 20 * 2 ^ 176

/-- The state in which a datagram is delivered: a CE-marked one has been answered with a CNP (R341). -/
def afterUdCnp (s : State) (n : Nat) (q : Qp) (j : Nat) (p : RocePkt) : State :=
  if p.ce then cnpSend s n q (cnpPath j p) p.srcQp else s

/-- A queue pair after a CNP: its step down, and the CNP counted to the squall under way (R342, R343). -/
def cnpStep (minRate : Nat) (q : Qp) : Qp :=
  { gustUp minRate q with squall := q.squall.map (fun x => (x.1, x.2.1, x.2.2.1, x.2.2.2.1 + 1, x.2.2.2.2)) }

section
variable {s u : State} {t j : Nat} {p : RocePkt} {q : Qp} (hhead : inputHead s t = some (j, p))
include hhead

/-! ### Packets for no queue pair (R327) -/

section
variable (hnone : oget s.rdma.qps (destKey j p) = none)
include hnone

theorem doRequest_noQp (hkind : opResponse p.op = false ∧ opUd p.op = false ∧ p.op ≠ 0x81) (host : HRead) :
    doRequest t host s = noQp (dropHead s t) t := by
  obtain ⟨hresponse, hud, hcnp⟩ := hkind
  simp only [doRequest, hhead, hresponse, hud, hcnp, dropHead_qps, hnone, beq_iff_eq, Bool.or_self, Bool.false_or, if_false]

theorem doResponse_noQp (hkind : opResponse p.op = true) : doResponse t s = noQp (dropHead s t) t := by
  simp only [doResponse, hhead, hkind, dropHead_qps, hnone, Bool.not_true, Bool.false_eq_true, if_false]

theorem doUd_noQp (hkind : opUd p.op = true) : doUd t s = noQp (dropHead s t) t := by
  simp only [doUd, hhead, hkind, dropHead_qps, hnone, Bool.not_true, Bool.false_eq_true, if_false]

theorem doCnp_noQp (hkind : p.op = 0x81) : doCnp t s = noQp (dropHead s t) t := by
  simp only [doCnp, hhead, hkind, dropHead_qps, hnone, ne_eq, not_true_eq_false, if_false]

end

/-! ### Packets whose queue pair takes them (R327, R331, R341, R342, R348) -/

section
variable (hq : oget s.rdma.qps (destKey j p) = some q) (hctx : withCtx (dropHead s t) t (destKey j p) p = (u, true))
include hq hctx

/-- An RC request runs the responder's steps, after a CNP where it arrived CE-marked (R327, R341). -/
theorem doRequest_responds (hkind : opResponse p.op = false ∧ opUd p.op = false ∧ p.op ≠ 0x81) (hiface : q.iface = j)
    (htype : q.type = 0) (hst : q.st = .rtr ∨ q.st = .rts ∨ q.st = .sqd) (host : HRead) :
    doRequest t host s = respond (if p.ce then cnpSend u (destKey j p) q q.attr q.destQp else u) (destKey j p) q p host := by
  obtain ⟨hresponse, hud, hcnp⟩ := hkind
  obtain ⟨not_reset, not_init, not_error⟩ := QpSt.receives hst
  simp only [doRequest, hhead, hresponse, hud, hcnp, dropHead_qps, hq, hctx, hiface, htype, not_reset, not_init, not_error, beq_iff_eq,
    ne_eq, not_true_eq_false, Bool.or_self, Bool.false_or, or_self, if_false]

theorem doResponse_takes (hkind : opResponse p.op = true) (hiface : q.iface = j) (htype : q.type = 0) (hst : q.st = .rts ∨ q.st = .sqd)
    (hflight : inFlight q p.psn = true) : doResponse t s = takeResponse u (destKey j p) q.una p := by
  obtain ⟨not_reset, not_init, -⟩ := QpSt.receives (.inr hst)
  have takes : ¬ ((q.st ≠ .rts ∧ q.st ≠ .sqd) ∨ inFlight q p.psn = false) := by
    rintro (⟨hrts, hsqd⟩ | hout)
    · exact hst.elim hrts hsqd
    · exact Bool.false_ne_true (hout.symm.trans hflight)
  simp only [doResponse, hhead, hkind, dropHead_qps, hq, hctx, hiface, htype, not_reset, not_init, takes, ne_eq, not_true_eq_false,
    Bool.not_true, Bool.false_eq_true, or_self, if_false]
  rfl

/-- A datagram with the Q_Key is written into the posted receive, its route header first, and the receive completes (R320, R348). -/
theorem doUd_delivers {w : RecvWr} {rest : List RecvWr} {m : Mr} {v : State} (hkind : opUd p.op = true) (hiface : q.iface = j)
    (htype : q.type ≠ 0) (hst : q.st = .rtr ∨ q.st = .rts ∨ q.st = .sqd) (hkey : q.qkey = p.qkey) (hrecvs : q.recvs = w :: rest)
    (hfits : 40 + p.data.length ≤ w.len)
    (haccess : mrAccess (afterUdCnp u (destKey j p) q j p) q.own q.pd w.lkey (some 0) w.laddr (40 + p.data.length) = some m)
    (hwrite : mrWrite ((afterUdCnp u (destKey j p) q j p).modQp (destKey j p) (fun q => { q with recvs := rest })) (qpTile q) m w.laddr
      (fitB p.grh 40 ++ p.data) = (v, 0)) :
    doUd t s = endRecv v (destKey j p) w 0 (40 + p.data.length + (if opImm p.op then p.imm * 2 ^ 32 else 0)) (b2n (opImm p.op))
      (b2n p.solicited) p.srcQp := by
  obtain ⟨not_reset, not_init, not_error⟩ := QpSt.receives hst
  have fits := Nat.not_lt.2 hfits
  unfold afterUdCnp cnpPath at haccess hwrite
  simp only [doUd, hhead, hkind, dropHead_qps, hq, hctx, hiface, htype, not_reset, not_init, not_error, hkey, hrecvs, List.length_append,
    fitB_length, fits, mrAccess_modQp, haccess, hwrite, ne_eq, not_true_eq_false, Bool.not_true, Bool.false_eq_true, or_self, if_false]

/-- A CNP of a queue pair that the gust controller holds is counted and steps its rate down (R342). -/
theorem doCnp_steps (hkind : p.op = 0x81) (hgust : gusted (destKey j p) = true) :
    doCnp t s = checkSquall ((addTotal (u.modRtile t (fun x => { x with cnpRx := satAdd 32 x.cnpRx 1 })) 4 j 4 1).modQp (destKey j p)
      (cnpStep s.rdma.minRate)) (destKey j p) := by
  simp only [doCnp, hhead, hkind, dropHead_qps, hq, hctx, hgust, ne_eq, not_true_eq_false, Bool.not_true, Bool.false_eq_true, if_false]
  rfl

end
end

/-! ### Context fetches (R333, R336) -/

section
variable {s : State} {n : Nat} {q : Qp} (hq : oget s.rdma.qps n = some q) (hres : q.res = .fetching)
  (hhost : hostGone s (backOf q.own.fn) = false)
include hq hres hhost

/-- A context fetch that succeeds installs the context and puts the parked packets ahead of later ones (R333). -/
theorem doFetchReturn_installs {u : State} (hroom : install s n = some u) (bs : List Byte) :
    doFetchReturn n (.ok bs) s = (u.modQp n (fun q => { q with parked := [] })).modRtile (qpTile q)
      (fun x => { x with input := q.parked.map (fun p => (q.iface, p)) ++ x.input }) := by
  simp only [doFetchReturn, hq, hres, hhost, hroom, ne_eq, not_true_eq_false, Bool.false_eq_true, if_false]

/-- A context fetch that times out drops and counts the parked packets, and both PF1 are told (R336). -/
theorem doFetchReturn_timesOut :
    doFetchReturn n .timeout s = bothPf1.foldl
      (fun s r => postEventS s r 0x2004 (qpTile q) 0x03 (qpNo n + q.parked.length % 2 ^ 32 * 2 ^ 32) 0)
      ((s.modQp n (fun q => { q with res := .absent, parked := [] })).modRtile (qpTile q)
        (fun x => { x with missDrop := satAdd 32 x.missDrop q.parked.length })) := by
  simp only [doFetchReturn, hq, hres, hhost, ne_eq, not_true_eq_false, Bool.false_eq_true, if_false]

end

/-- Settles O34: each kind of packet by the lemma about it; the fetch by its two outcomes, the write-back by its definition. -/
theorem packetsActOnTheirQueuePair : Obligations.PacketsActOnTheirQueuePair := by
  unfold Obligations.PacketsActOnTheirQueuePair
  refine ⟨?request, ?noQp, ?response, ?ud, ?cnp, ?fetched, ?fetchFails, fun n s => rfl⟩
  case request =>
    rintro t j n p q host s u ⟨hhead, hresponse, hud, hcnp, rfl⟩ ⟨hq, hiface, htype, hst⟩ hctx
    exact congrArg Host.Outcome.next (doRequest_responds hhead hq hctx ⟨hresponse, hud, hcnp⟩ hiface htype hst host)
  case noQp =>
    intro t j p host s ⟨hhead, hnone⟩
    refine ⟨fun hkind => ?_, fun hkind => ?_, fun hkind => ?_, fun hkind => ?_⟩
    · exact congrArg Host.Outcome.next (doRequest_noQp hhead hnone hkind host)
    · exact congrArg Host.Outcome.next (doResponse_noQp hhead hnone hkind)
    · exact congrArg Host.Outcome.next (doUd_noQp hhead hnone hkind)
    · exact congrArg Host.Outcome.next (doCnp_noQp hhead hnone hkind)
  case response =>
    rintro t j n p q s u ⟨hhead, hkind, rfl⟩ ⟨hq, hiface, htype, hst, hflight⟩ hctx
    have takes := doResponse_takes hhead hq hctx hkind hiface htype hst hflight
    refine ⟨fun ⟨hack, hpositive⟩ => ?_, fun ⟨hack, hnegative⟩ => ?_, fun hdata => ?_⟩
    · exact congrArg Host.Outcome.next (takes.trans ((if_pos hack).trans (if_pos hpositive)))
    · exact congrArg Host.Outcome.next (takes.trans ((if_pos hack).trans (if_neg hnegative)))
    · exact congrArg Host.Outcome.next (takes.trans (if_neg hdata))
  case ud =>
    rintro t j n p q w rest m s u0 u v ⟨hhead, hkind, rfl⟩ ⟨hq, hiface, htype, hst, hkey, hrecvs⟩ hctx rfl ⟨hfits, haccess⟩ hwrite
    exact congrArg Host.Outcome.next (doUd_delivers hhead hq hctx hkind hiface htype hst hkey hrecvs hfits haccess hwrite)
  case cnp =>
    rintro t j n p q s u ⟨hhead, hkind, rfl, hgsi⟩ hq hctx
    have gust_holds : gusted (destKey j p) = true := by rw [gusted, hgsi]; rfl
    exact congrArg Host.Outcome.next (doCnp_steps hhead hq hctx hkind gust_holds)
  case fetched =>
    intro n q bs s u ⟨hq, hres⟩ ⟨hhost, hroom⟩
    exact congrArg Host.Outcome.next (doFetchReturn_installs hq hres hhost hroom bs)
  case fetchFails =>
    intro n q s ⟨hq, hres, hhost⟩
    exact congrArg Host.Outcome.next (doFetchReturn_timesOut hq hres hhost)

end Sys2Proof.Machine

/-! # Packet classification (10): what the commands on graphs and rule sets do, and the statement about them -/

namespace Sys2Proof.Machine

/-! ### Graphs (R359, R380) -/

/-- A signed and valid image of a PF1 is audited, then taken as the lowest free graph, whose number is reported (R359, R380). -/
theorem graphLoad_signed {s u : State} {r d g : Nat} {bs sig : List Byte} {gr : Graph} (hpf : isPf1 r = true)
    (hfields : fld d 128 64 % 64 = 0 ∧ fld d 192 32 ≠ 0) (hread : rdHost s r (fld d 192 32) (.ok bs) = (0, bs))
    (hsigned : s.trust.installer.any (fun k => hssVerify k.pub sig bs) = true) (hgraph : graphOk gr = true)
    (hfree : (List.range 3).find? (fun g => (oget s.cls.graphs (g + 1)).isNone) = some g)
    (haudit : auditRec s 0x0300 2 r 0 (0x21 + (g + 1) * 2 ^ 16) = some u) :
    graphLoad r d (.ok bs) sig gr s = okR (u.modCls (fun c => { c with graphs := oput c.graphs (g + 1) gr })) (g + 1) := by
  obtain ⟨haligned, hlength⟩ := hfields
  simp only [graphLoad, hpf, haligned, hlength, hread, hsigned, hgraph, hfree, audited, haudit, Bool.not_true, Bool.false_eq_true,
    ne_eq, not_true_eq_false, or_self, if_false]

section
variable {s : State} {r d : Nat} (hpf : isPf1 r = true) (hnumber : fld d 64 2 ≠ 0)
include hpf hnumber

theorem graphUnload_absent (h : oget s.cls.graphs (fld d 64 2) = none) : graphUnload r d s = bad s 0x85 := by
  simp only [graphUnload, hpf, hnumber, h, Bool.not_true, Bool.false_eq_true, Option.isNone_none, if_false, if_true]

/-- A loaded graph is unloaded unless a set uses it (R380). -/
theorem graphUnload_loaded (h : (oget s.cls.graphs (fld d 64 2)).isSome = true) :
    graphUnload r d s = if s.cls.sets.any (fun x => x.2.graph == fld d 64 2) then bad s 0x84
      else ok0 (s.modCls (fun c => { c with graphs := odel c.graphs (fld d 64 2) })) := by
  have loaded : (oget s.cls.graphs (fld d 64 2)).isNone = false := by simpa using h
  simp only [graphUnload, hpf, hnumber, loaded, Bool.not_true, Bool.false_eq_true, if_false]

end

/-! ### A new set (R381) -/

/-- The rule set that a SET_CREATE over the built-in graph makes: version 0 is active and empty but for its settings, and so is
the pending one (R381, log 26). -/
def createdSet (s : State) (r i : Nat) (c : SetConf) : RuleSet :=
  { own := s.ownOf r, ring := i, graph := 0, vers := [(0, { conf := c })], pendingVer := { conf := c } }

theorem graphOf_builtIn (s : State) : graphOf s 0 = none := if_pos rfl

/-- SET_CREATE over the built-in graph takes the lowest free set and reports it (R381). -/
theorem setCreate_lowest {s : State} {r i d k : Nat} {bs : List Byte} {c : SetConf} (haligned : fld d 128 64 % 64 = 0)
    (hread : rdHost s r 256 (.ok bs) = (0, bs)) (hgraph : fld (leNat bs) 0 2 = 0) (hconf : parseSet none bs = some c)
    (hfree : lowestFree s.cls.sets 0 64 = some k) :
    setCreate r i d (.ok bs) s = okR (s.modCls (fun x => { x with sets := oput x.sets k (createdSet s r i c) })) k := by
  simp only [setCreate, haligned, hread, hgraph, graphOf_builtIn, hconf, hfree, ne_eq, not_true_eq_false, false_and, if_false]
  rfl

/-! ### A command on a set: its order, and the set it names (R377, R383) -/

/-- Command `c` of ring pair `i` is carried out on the set that its descriptor names, in the set's order: `act` is its effect
on an existing set of the function (R377). -/
def CarriedOutOnSet (c : Instr) (r i op : Nat) (act : Nat → State → Nat → RuleSet → CmdRes) : Prop :=
  ∀ s, exec c s = .next (inSetOrder r i (fun s => onDesc s r i 0x21 op (fun d _ s => withSet s r d (act d s))) s)

theorem setCommand_carriedOutOnSet {r i op : Nat} {h : HRead} {c : Instr}
    (hc : (c, op) ∈ [(Instr.setDestroy r i, 4), (Instr.setConfig r i h, 5), (Instr.bind r i, 6), (Instr.entryAdd r i h, 7),
      (Instr.entryDel r i h, 8), (Instr.rangeSet r i h, 9), (Instr.setCommit r i, 10), (Instr.counterRead r i, 11)]) :
    ∃ act, CarriedOutOnSet c r i op act := by
  simp only [List.mem_cons, Prod.mk.injEq, List.not_mem_nil, or_false] at hc
  rcases hc with ⟨rfl, rfl⟩ | ⟨rfl, rfl⟩ | ⟨rfl, rfl⟩ | ⟨rfl, rfl⟩ | ⟨rfl, rfl⟩ | ⟨rfl, rfl⟩ | ⟨rfl, rfl⟩ | ⟨rfl, rfl⟩
  all_goals exact ⟨_, fun _ => rfl⟩

section
variable {s t : State} {r i kind op : Nat} {e : Fetched} {eff : Nat → DRef → State → CmdRes}

/-- A command that no lower ring pair's command for the same set precedes makes its completion where it ends (R46, R377). -/
theorem inSetOrder_completes {status result spec : Nat} (hfirst : behindRing s r i = false) (h : Starts s r i kind op e)
    (heff : eff e.desc.toNat (refOf r i e) (begun s r i e) = (t, some (status, result, spec))) :
    (.next (inSetOrder r i (fun s => onDesc s r i kind op eff) s) : Host.Outcome State Fault Refusal)
      = .next (finish t (refOf r i e) status result spec) := by
  rw [inSetOrder_first hfirst, onDesc_completes h heff]

theorem withSet_none {d : Nat} (h : oget s.cls.sets (fld d 64 6) = none) (act : Nat → RuleSet → CmdRes) :
    withSet s r d act = bad s 0x80 := by
  simp only [withSet, h]

theorem withSet_foreign {d : Nat} {x : RuleSet} (h : oget s.cls.sets (fld d 64 6) = some x) (hown : owns s r x.own = false)
    (act : Nat → RuleSet → CmdRes) : withSet s r d act = bad s 0x02 := by
  simp only [withSet, h, hown, Bool.false_eq_true, if_false]

end

/-! ### Commands on the pending version (R368, R376, R378, R379, R381, R382) -/

/-- The ports that a BIND names. -/
def bindPorts (d : Nat) : List Nat := (List.range 16).filter (fun p => bitAt (fld d 192 16) p)

/-- The bindings that a BIND names: each of its ports in each of its directions (R376). -/
def namedBinds (d : Nat) : List Nat :=
  (bindPorts d).flatMap (fun p => (if bitAt d 208 then [bindNo false p] else []) ++ (if bitAt d 209 then [bindNo true p] else []))

/-- Some version of a set other than `k` has the binding (R376). -/
def boundElsewhere (s : State) (k b : Nat) : Bool :=
  s.cls.sets.any (fun y => y.1 != k && (y.2.pendingVer.binds.contains b || y.2.vers.any (fun v => v.2.binds.contains b)))

/-- The terms that a range record spells; a field of 0 is no term (R382). -/
def rangeTerms (v : Nat) : List (Nat × Nat × Nat) :=
  ((List.range 4).map (fun t => (fld v (80 * t) 8, fld v (80 * t + 16) 32, fld v (80 * t + 48) 32))).filter (fun t => t.1 != 0)

/-- The reserved fields of a range record are zero, and its action is legal (R382). -/
def RangeFieldsOk (v : Nat) : Prop :=
  (List.range 4).any (fun t => fld v (80 * t + 8) 8 != 0) = false ∧ fld v 321 7 = 0 ∧ fld v 456 56 = 0 ∧ actionOk (fld v 328 128) = true

/-- The comparator that a RANGE_SET describes with the record `v` (R368). -/
def describedComp (d v : Nat) : Comparator :=
  { index := fld d 192 6, terms := rangeTerms v, enabled := bitAt v 320, action := fld v 328 128 }

/-- The tiles in which a commit installs the on-die entries of a set: those of the ports its pending version binds (R374). -/
def commitTiles (x : RuleSet) : List Nat :=
  (List.range 16).filter (fun t => x.pendingVer.binds.contains t || x.pendingVer.binds.contains (32 + t))

section
variable {s : State} {r i d : Nat} {e : Fetched} {x : RuleSet} (h : startable s r i = some e)
  (hset : oget s.cls.sets (fld d 64 6) = some x ∧ owns s r x.own = true)
include h hset

/-- SET_CONFIG gives the pending version valid settings (R381). -/
theorem setConfig_valid {bs : List Byte} {c : SetConf} (haligned : fld d 128 64 % 64 = 0) (hread : rdHost s r 256 (.ok bs) = (0, bs))
    (hconf : parseSet (graphOf s x.graph) bs = some c) :
    setConfig r d (.ok bs) (begun s r i e) = ok0 (modPending (begun s r i e) (fld d 64 6) (fun v => { v with conf := c })) := by
  have same_graph : graphOf (begun s r i e) x.graph = graphOf s x.graph := rfl
  refine (begun_withSet h hset.1 hset.2 _).trans ?_
  simp only [haligned, begun_rdHost h, hread, same_graph, hconf, ne_eq, not_true_eq_false, if_false]

/-- BIND of ports of the function's PF1 takes the named bindings out of the pending version, or adds them where no other set
has one of them (R376). -/
theorem bindSet_permitted (hports : (bindPorts d).all (fun p => netMay s r p) = true) :
    bindSet r d (begun s r i e) =
      if bitAt d 210 then
        ok0 (modPending (begun s r i e) (fld d 64 6) (fun v => { v with binds := v.binds.filter (fun b => !(namedBinds d).contains b) }))
      else if (namedBinds d).any (boundElsewhere s (fld d 64 6)) then bad (begun s r i e) 0x84
      else ok0 (modPending (begun s r i e) (fld d 64 6) (fun v => { v with binds := unionNat v.binds (namedBinds d) })) := by
  have permitted : (bindPorts d).any (fun p => !netMay (begun s r i e) r p) = false := by
    rw [← List.not_all_eq_any_not]
    exact congrArg not hports
  refine (begun_withSet h hset.1 hset.2 _).trans (if_neg ?_)
  exact Bool.eq_false_iff.1 permitted

/-- ENTRY_ADD and ENTRY_DEL run their records in order and report how many were done (R382). -/
theorem entryCmd_runs {n : Nat} {bs : List Byte} (add : Bool) (hcount : n = fld d 96 32 ∧ 1 ≤ n ∧ n ≤ 4096)
    (haligned : fld d 128 64 % 64 = 0) (hread : rdHost s r (64 * n) (.ok bs) = (0, bs)) :
    entryCmd add r d (.ok bs) (begun s r i e) =
      let done := runRecords (fun s v => if add then addEntry s (fld d 64 6) v else delEntry s (fld d 64 6) v) n (begun s r i e) bs 0
      badR done.1 done.2.2 done.2.1 := by
  obtain ⟨rfl, hsome, hmost⟩ := hcount
  have in_range : ¬ (fld d 96 32 < 1 ∨ 4096 < fld d 96 32 ∨ fld d 128 64 % 64 ≠ 0) := by omega
  refine (begun_withSet h hset.1 hset.2 _).trans ?_
  simp only [in_range, begun_rdHost h, hread, ne_eq, not_true_eq_false, if_false]

/-- RANGE_SET puts its comparator into the pending version when each term's field has one to four bytes (R368, R382). -/
theorem rangeSet_valid {bs : List Byte} (haligned : fld d 128 64 % 64 = 0) (hread : rdHost s r 64 (.ok bs) = (0, bs))
    (hfields : RangeFieldsOk (leNat bs))
    (hterms : (rangeTerms (leNat bs)).any
      (fun t => fieldBytes (graphOf s x.graph) t.1 == 0 || decide (4 < fieldBytes (graphOf s x.graph) t.1)) = false) :
    rangeSet r d (.ok bs) (begun s r i e) = ok0 (modPending (begun s r i e) (fld d 64 6)
      (fun p => { p with comps := putComp p.comps (describedComp d (leNat bs)) })) := by
  obtain ⟨hreserved, hlow, hhigh, haction⟩ := hfields
  have same_graph : graphOf (begun s r i e) x.graph = graphOf s x.graph := rfl
  unfold rangeTerms at hterms
  refine (begun_withSet h hset.1 hset.2 _).trans ?_
  simp only [haligned, begun_rdHost h, hread, same_graph, hreserved, hlow, hhigh, haction, hterms, Bool.false_eq_true,
    Bool.true_eq_false, or_self, ne_eq, not_true_eq_false, if_false]
  rfl

/-- LEGACY_LOAD puts the rules of an LM-400 image into the pending version as comparators and reports their number (R378, R379). -/
theorem legacyLoad_valid {bs : List Byte} {cs : List Comparator} (haligned : fld d 128 64 % 64 = 0)
    (hread : rdHost s r (fld d 96 32) (.ok bs) = (0, bs)) (hrules : legacyRules (fld d 192 6) bs = some cs) :
    legacyLoad r d (.ok bs) (begun s r i e) =
      okR (modPending (begun s r i e) (fld d 64 6) (fun p => { p with comps := cs.foldl putComp p.comps })) cs.length := by
  refine (begun_withSet h hset.1 hset.2 _).trans ?_
  simp only [haligned, begun_rdHost h, hread, hrules, ne_eq, not_true_eq_false, if_false]

/-! ### Commit and counters (R372, R373, R374, R382) -/

/-- SET_COMMIT, with a version to spare and room for the entries, makes the pending version active, posts it and reports it
(R372, R373, R374). -/
theorem setCommit_done {u : State}
    (hspare : (x.vers.filter (fun p => versionUsed s (fld d 64 6) p.1)).length + 2 ≤ 4)
    (hroom : installAll (x.entries.length + 1) (begun s r i e) (fld d 64 6) (commitTiles x) 0 = some u) :
    setCommit r d (begun s r i e) = okR (reclaim (postEvent
      (u.modSet (fld d 64 6) (fun r => { r with active := x.active + 1, vers := oput r.vers (x.active + 1) r.pendingVer }))
      r 0x2101 (fld d 64 6) ((x.active + 1) % 2 ^ 16)) (fld d 64 6)) ((x.active + 1) % 2 ^ 16) := by
  have spare : ¬ 4 < (x.vers.filter (fun p => versionUsed (begun s r i e) (fld d 64 6) p.1)).length + 2 := Nat.not_lt.2 hspare
  unfold commitTiles at hroom
  refine (begun_withSet h hset.1 hset.2 _).trans ?_
  simp only [spare, hroom, if_false]

/-- COUNTER_READ writes the counters that it names, each summed over the tiles, and reports their number (R382). -/
theorem counterRead_writes (hrange : 1 ≤ fld d 96 32 ∧ fld d 192 32 + fld d 96 32 ≤ 4096 ∧ fld d 128 64 % 64 = 0) :
    counterRead r d (begun s r i e) = okR (hostWrite (begun s r i e) r (fld d 128 64)
      ((List.range (fld d 96 32)).flatMap (fun i => counterSum x (fld d 192 32 + i)))) (fld d 96 32) :=
  (begun_withSet h hset.1 hset.2 _).trans (if_neg (by omega))

end

/-- Settles O35: each command by the lemma about it, on the descriptor that starts it; a set that is none or another's by
`setCommand_carriedOutOnSet`. -/
theorem classifierCommandsComplete : Obligations.ClassifierCommandsComplete := by
  unfold Obligations.ClassifierCommandsComplete
  refine ⟨?load, ?unload, ?create, ?refused, ?behind, ?destroy, ?config, ?bind, ?entries, ?range, ?legacy, ?commit, ?counters⟩
  case load =>
    intro r i g bs sig gr e s u h ⟨hpf, hfields⟩ hread ⟨hsigned, hgraph⟩ hfree haudit
    exact onDesc_completes h (graphLoad_signed (s := begun s r i e) hpf hfields ((begun_rdHost h.1 r _ _).trans hread) hsigned hgraph
      hfree haudit)
  case unload =>
    intro r i e s h ⟨hpf, hnumber⟩
    refine ⟨fun habsent => ?_, fun ⟨hloaded, hused⟩ => ?_, fun ⟨hloaded, hunused⟩ => ?_⟩
    · exact onDesc_completes h (graphUnload_absent (s := begun s r i e) hpf hnumber habsent)
    · exact onDesc_completes h ((graphUnload_loaded (s := begun s r i e) hpf hnumber hloaded).trans (if_pos hused))
    · exact onDesc_completes h ((graphUnload_loaded (s := begun s r i e) hpf hnumber hloaded).trans
        (if_neg (Bool.eq_false_iff.1 hunused)))
  case create =>
    intro r i k bs c e s h ⟨haligned, hread⟩ ⟨hgraph, hconf⟩ hfree
    rw [← begun_ownOf h.1 r]
    exact onDesc_completes h (setCreate_lowest (s := begun s r i e) haligned ((begun_rdHost h.1 r _ _).trans hread) hgraph hconf hfree)
  case refused =>
    intro r i op host c e s h hfirst hc
    obtain ⟨act, on_set⟩ := setCommand_carriedOutOnSet hc
    refine ⟨fun hnone => ?_, fun x ⟨hset, hforeign⟩ => ?_⟩
    · exact (on_set s).trans (inSetOrder_completes hfirst h (withSet_none (s := begun s r i e) hnone _))
    · exact (on_set s).trans (inSetOrder_completes hfirst h
        (withSet_foreign (s := begun s r i e) hset ((begun_owns h.1 r x.own).trans hforeign) _))
  case behind =>
    intro r i host c s hbehind hc
    simp only [List.mem_cons, List.not_mem_nil, or_false] at hc
    rcases hc with rfl | rfl | rfl | rfl | rfl | rfl | rfl | rfl | rfl
    all_goals exact congrArg Host.Outcome.next (inSetOrder_behind hbehind _)
  case destroy =>
    intro r i x e s h hfirst ⟨hset, hown⟩
    refine ⟨fun hbound => ?_, fun hunbound => ?_⟩
    · exact inSetOrder_completes hfirst h ((begun_withSet h.1 hset hown _).trans (if_pos hbound))
    · exact inSetOrder_completes hfirst h ((begun_withSet h.1 hset hown _).trans (if_neg (Bool.eq_false_iff.1 hunbound)))
  case config =>
    intro r i x bs c e s h hfirst hset ⟨haligned, hread, hconf⟩
    exact inSetOrder_completes hfirst h (setConfig_valid h.1 hset haligned hread hconf)
  case bind =>
    rintro r i x bs e s h hfirst hset hports rfl
    have permitted := bindSet_permitted h.1 hset hports
    refine ⟨fun hremove => ?_, fun ⟨hadd, hfree⟩ => ?_, fun ⟨hadd, htaken⟩ => ?_⟩
    · exact inSetOrder_completes hfirst h (permitted.trans (if_pos hremove))
    · exact inSetOrder_completes hfirst h (permitted.trans ((if_neg (Bool.eq_false_iff.1 hadd)).trans
        (if_neg (Bool.eq_false_iff.1 hfree))))
    · exact inSetOrder_completes hfirst h (permitted.trans ((if_neg (Bool.eq_false_iff.1 hadd)).trans (if_pos htaken)))
  case entries =>
    intro r i n x bs e s _ hfirst hset ⟨hcount, hsome, hmost, haligned, hread⟩
    refine ⟨fun h => ?_, fun h => ?_⟩
    · exact inSetOrder_completes hfirst h (entryCmd_runs h.1 hset true ⟨hcount, hsome, hmost⟩ haligned hread)
    · exact inSetOrder_completes hfirst h (entryCmd_runs h.1 hset false ⟨hcount, hsome, hmost⟩ haligned hread)
  case range =>
    rintro r i v x bs ts e s h hfirst hset ⟨haligned, hread, rfl⟩ rfl hfields hterms
    exact inSetOrder_completes hfirst h (rangeSet_valid h.1 hset haligned hread hfields hterms)
  case legacy =>
    intro r i x bs cs e s h hfirst hset ⟨haligned, hread, hrules⟩
    exact inSetOrder_completes hfirst h (legacyLoad_valid h.1 hset haligned hread hrules)
  case commit =>
    intro r i x e s u h hfirst hset hspare hroom
    exact inSetOrder_completes hfirst h (setCommit_done h.1 hset hspare hroom)
  case counters =>
    intro r i x e s h hfirst hset hrange
    exact inSetOrder_completes hfirst h (counterRead_writes h.1 hset hrange)

end Sys2Proof.Machine

/-! # Packet classification (10): frames that arrive and passes of packets, and the statement about them -/

namespace Sys2Proof.Machine

/-! ### Frames that arrive (R355, R404) -/

/-- A frame is counted in the interface's totals and offered to its tap. -/
def frameSeen (s : State) (j : Nat) (fr : List Byte) : State := addTotal (tapUnit s { tap := 3, sel := j } fr) 4 j 0 fr.length

/-- An arriving frame as it joins its lane, with its arrival time (R404). -/
def arrivedLane (s : State) (j : Nat) (fr : List Byte) : Lane :=
  { iface := j, bytes := fr, arrived := fr, ts := (ptp s + 2 ^ 64 - (s.netPort (j / 4)).rxDelay) % 2 ^ 64 }

/-- A frame on an interface that is up is seen, then joins its tile's receive lane or is counted as overflow (R355). -/
theorem doRxFrame_up {s : State} {j : Nat} (hj : j < 64) (hup : (s.netIf j).up = true) (fr : List Byte) :
    doRxFrame j fr s = if laneFull (s.ctile (j / 4)).rx fr.length then countOverflow (frameSeen s j fr) (j / 4)
      else (frameSeen s j fr).modCtile (j / 4) (fun c => { c with rx := c.rx ++ [arrivedLane s j fr] }) := by
  refine if_neg ?_
  rintro (hno | hdown)
  · exact Nat.not_le.2 hj hno
  · exact Bool.false_ne_true (hdown.symm.trans hup)

/-! ### Passes (R353, R356, R373) -/

/-- The lane of a tile in one direction. -/
def laneOf (s : State) (t : Nat) (tx : Bool) : List Lane := if tx then (s.ctile t).tx else (s.ctile t).rx

/-- The packet at the front of a lane is taken, and `rest` stays (R353). -/
def takeFront (s : State) (t : Nat) (tx : Bool) (rest : List Lane) : State :=
  s.modCtile t (fun c => if tx then { c with tx := rest } else { c with rx := rest })

/-- A pass whose action waits for no SEAL tile acts on the packet at the front of its lane; of a packet that was fixed to a
set, versions that no packet uses any more are reclaimed (R353, R373). -/
theorem doPass_front {s : State} {t : Nat} {tx : Bool} {l : Lane} {rest : List Lane} (ht : t < 16) (hlane : laneOf s t tx = l :: rest)
    (hseal : (passAction s t tx l).any (fun x => sealHolds s t x.1 tx x.2) = false) :
    doPass t tx s = l.set.elim (runPass (takeFront s t tx rest) t tx l)
      (fun fixed => reclaim (runPass (takeFront s t tx rest) t tx l) fixed.1) := by
  unfold laneOf at hlane
  simp only [doPass, hlane, Nat.not_le.2 ht, hseal, decide_false, Bool.or_self, Bool.false_eq_true, if_false]
  cases l.set <;> rfl

/-- On a packet's first pass, where no set is bound, the packet meets none (R356). -/
theorem runPass_unbound {s : State} {t : Nat} {tx : Bool} {l : Lane} (hfirst : l.passes = 0) (hnone : boundSet s (bindNo tx t) = none) :
    runPass s t tx l = noSet s t tx l := by
  simp only [runPass, hfirst, hnone, if_true]

/-- A received packet that is no RoCEv2 packet is dropped and counted where no set is bound (R356). -/
theorem noSet_rx_plain {s : State} {t : Nat} {l : Lane} (h : roceAt l.bytes = none) :
    noSet s t false l = s.modCtile t (fun c => { c with noSet := satAdd 32 c.noSet 1 }) := by
  simp only [noSet, h, Option.any_none, Bool.false_eq_true, if_false]

/-- Settles O36: a frame by `doRxFrame_up`, a pass by `doPass_front` and what a packet meets where no set is bound. -/
theorem framesEnterAndLeaveTheClassifier : Obligations.FramesEnterAndLeaveTheClassifier := by
  unfold Obligations.FramesEnterAndLeaveTheClassifier
  refine ⟨?frame, ?pass⟩
  case frame =>
    rintro j fr s u ⟨hj, hup⟩ rfl
    have enters := doRxFrame_up hj hup fr
    refine ⟨fun hroom => ?_, fun hfull => ?_⟩
    · exact congrArg Host.Outcome.next (enters.trans (if_neg (by simpa [laneFull] using hroom)))
    · exact congrArg Host.Outcome.next (enters.trans (if_pos (decide_eq_true hfull)))
  case pass =>
    rintro t tx l rest s u ⟨ht, hlane, hseal⟩ rfl
    have front := doPass_front ht hlane hseal
    have front_unfixed (hset : l.set = none) : doPass t tx s = runPass (takeFront s t tx rest) t tx l := by
      rw [front, hset]; rfl
    refine ⟨fun hset => ?_, fun k v hset => ?_, ?transmitted, ?received⟩
    · exact congrArg Host.Outcome.next (front_unfixed hset)
    · rw [hset] at front
      exact congrArg Host.Outcome.next front
    case transmitted =>
      rintro ⟨hset, hfirst, hunbound, rfl⟩
      exact congrArg Host.Outcome.next ((front_unfixed hset).trans (runPass_unbound hfirst hunbound))
    case received =>
      rintro ⟨hset, hfirst, hunbound, rfl, hplain⟩
      exact congrArg Host.Outcome.next (((front_unfixed hset).trans (runPass_unbound hfirst hunbound)).trans (noSet_rx_plain hplain))

end Sys2Proof.Machine

/-! # Scheduling and gates (11): what every step keeps, and the statements about it -/

namespace Sys2Proof.Machine

/-- One step keeps the invariant: the front command keeps it, and an idle period moves the cycle count alone. -/
theorem step_inv {s : State} (h : StateInv s) : InvC (step s) := by
  cases hqueue : s.pending with
  | nil =>
    have idles : step s = .next { s with vcycle := s.vcycle + 1 } := stepTakesTheFrontCommand.2 s hqueue
    rw [idles]
    exact invC_next h
  | cons c rest =>
    have runs : step s = exec c { s with pending := rest } := by simp only [step, hqueue]
    rw [runs]
    exact exec_inv c _ h

/-- Settles O3: `step_inv`, for the state that the step answers. -/
theorem stepKeepsTheInvariant : Obligations.StepKeepsTheInvariant := by
  unfold Obligations.StepKeepsTheInvariant
  intro s t h hstep
  exact inv_ofC hstep (step_inv h)

/-- Settles O2: stack memory is empty, the rate adjustment is 0, and `MEM_CAP` has its reset value (R403, R509). -/
theorem resetMeetsTheInvariant : Obligations.ResetMeetsTheInvariant := by
  unfold Obligations.ResetMeetsTheInvariant
  have stack_empty : State.reset.stack = [] := rfl
  have rate_zero : State.reset.clock.freq = 0 := rfl
  have caps_legal : capOk State.reset.memCap = true ∧ State.reset.memCap < 2 ^ 42 := by decide
  refine ⟨?_, ?_, ?_, caps_legal⟩
  · rw [stack_empty]; rfl
  · rw [rate_zero]; decide
  · rw [rate_zero]; decide

end Sys2Proof.Machine

/-! # Scheduling and gates (11): what the commands of a network ring do, and the statements about them -/

namespace Sys2Proof.Machine

/-! ### Rates (R394, R398) -/

theorem ratesOk_iff {cir pir cbs pbs : Nat} :
    ratesOk cir pir cbs pbs = true ↔ (cir = 0 ∨ 9216 ≤ cbs) ∧ (pir = 0 ∨ 9216 ≤ pbs) ∧ (cir = 0 ∨ pir = 0 ∨ cir ≤ pir)
      ∧ cir ≤ 800000 ∧ pir ≤ 800000 := by
  simp only [ratesOk, Bool.and_eq_true, Bool.or_eq_true, beq_iff_eq, decide_eq_true_eq, and_assoc, or_assoc]

/-- Rates that break one of the rules of R398 are not legal. -/
theorem ratesOk_broken {cir pir cbs pbs : Nat}
    (h : (cir ≠ 0 ∧ cbs < 9216) ∨ (pir ≠ 0 ∧ pbs < 9216) ∨ (cir ≠ 0 ∧ pir ≠ 0 ∧ pir < cir) ∨ 800000 < cir ∨ 800000 < pir) :
    ratesOk cir pir cbs pbs = false := by
  rw [Bool.eq_false_iff, ne_eq, ratesOk_iff]
  omega

/-- The rates and bursts that a descriptor gives are legal (R398). -/
def givenRatesOk (d : Nat) : Bool := ratesOk (dCir d) (dPir d) (dCbs d) (dPbs d)

/-- Full buckets at the rates that a descriptor gives (R394). -/
def givenBuckets (s : State) (d : Nat) : Buckets := newBuckets (dCir d) (dPir d) (dCbs d) (dPbs d) (ptp s)

section
variable {s : State} {r i d : Nat}

/-! ### Queues are made (R388, R389) -/

/-- The transmit queue that a TXQ_CREATE describes (R388). -/
def describedTxq (s : State) (r i d : Nat) : Txq :=
  { fn := r, gen := (s.fn r).gen, ring := i, iface := 4 * fld d 64 4 + fld d 68 2, cls := fld d 82 3, weight := fld d 85 8
    shaper := givenBuckets s d }

theorem txqCreate_foreign (hport : netMay s r (fld d 64 4) = false) : txqCreate r i d s = bad s 0x02 := by
  simp only [txqCreate, hport, Bool.not_false, if_true]

theorem txqCreate_badRates (hport : netMay s r (fld d 64 4) = true) (hrates : givenRatesOk d = false) :
    txqCreate r i d s = bad s 0x06 := by
  unfold givenRatesOk at hrates
  simp only [txqCreate, hport, hrates, Bool.not_true, Bool.false_eq_true, or_true, if_false, if_true]

/-- TXQ_CREATE adds the queue that it describes where neither its number nor its ring pair has one (R388). -/
theorem txqCreate_permitted (hport : netMay s r (fld d 64 4) = true)
    (hiface : fld d 68 2 < ifsOf (s.netPort (fld d 64 4)).breakout) (hrates : givenRatesOk d = true) :
    txqCreate r i d s =
      if (oget (s.netPort (fld d 64 4)).txqs (fld d 70 12)).isSome = true ∨ (txqOf s r i).isSome = true ∨ (rxqOf s r i).isSome = true
      then bad s 0x82 else ok0 (putTxq s (fld d 64 4) (fld d 70 12) (describedTxq s r i d)) := by
  unfold givenRatesOk at hrates
  simp only [txqCreate, hport, Nat.not_le.2 hiface, hrates, Bool.not_true, Bool.false_eq_true, Bool.true_eq_false, or_self, if_false]
  rfl

theorem rxqCreate_foreign (hport : netMay s r (fld d 64 4) = false) : rxqCreate r i d s = bad s 0x02 := by
  simp only [rxqCreate, hport, Bool.not_false, if_true]

/-- RXQ_CREATE adds an empty queue where neither its number nor its ring pair has one (R389). -/
theorem rxqCreate_new (hport : netMay s r (fld d 64 4) = true) (hzero : fld d 68 2 = 0)
    (hnumber : oget (s.netPort (fld d 64 4)).rxqs (fld d 70 12) = none) (htx : txqOf s r i = none) (hrx : rxqOf s r i = none) :
    rxqCreate r i d s = ok0 (s.modNetPort (fld d 64 4) (fun x => { x with
      rxqs := oput x.rxqs (fld d 70 12) { fn := r, gen := (s.fn r).gen, ring := i } })) := by
  simp only [rxqCreate, hport, hzero, hnumber, htx, hrx, Bool.not_true, Option.isSome_none, Bool.false_eq_true, or_self, ne_eq,
    not_true_eq_false, if_false]

/-! ### Queues change and go (R406) -/

/-- A transmit queue with the class, the weight and the rates that a Q_CONFIG gives; its buckets keep what they hold (R406). -/
def configuredTxq (s : State) (d : Nat) (q : Txq) : Txq :=
  { q with
    cls := fld d 82 3
    weight := fld d 85 8
    shaper := { refill q.shaper (ptp s) with cir := dCir d, pir := dPir d, cbs := dCbs d, pbs := dPbs d } }

/-- Q_CONFIG of a ring pair with a transmit queue changes it when the rates are legal (R398, R406). -/
theorem qConfig_txq {p n : Nat} {q : Txq} (hq : txqOf s r i = some (p, n, q)) :
    qConfig r i d s = if givenRatesOk d then ok0 (putTxq s p n (configuredTxq s d q)) else bad s 0x06 := by
  cases hrates : givenRatesOk d
  all_goals
    unfold givenRatesOk at hrates
    simp only [qConfig, hq, hrates, Bool.true_eq_false, Bool.false_eq_true, if_false, if_true]
  rfl

theorem qDestroy_txq {p n : Nat} {q : Txq} (hq : txqOf s r i = some (p, n, q)) : qDestroy r i s = ok0 (dropTxq s p n q) := by
  simp only [qDestroy, hq]

theorem qDestroy_rxq {p n : Nat} {q : Rxq} (htx : txqOf s r i = none) (hq : rxqOf s r i = some (p, n, q)) :
    qDestroy r i s = ok0 (dropRxq s p n q) := by
  simp only [qDestroy, htx, hq]

/-! ### A ring pair with no queue (R389, R390, R406) -/

theorem qConfig_none (htx : txqOf s r i = none) (hrx : rxqOf s r i = none) : qConfig r i d s = bad s 0x80 := by
  simp only [qConfig, htx, hrx, Option.isSome_none, Bool.false_eq_true, if_false]

theorem qDestroy_none (htx : txqOf s r i = none) (hrx : rxqOf s r i = none) : qDestroy r i s = bad s 0x80 := by
  simp only [qDestroy, htx, hrx]

theorem txPacket_none (htx : txqOf s r i = none) (ref : DRef) (data : HRead) : txPacket r i d ref data s = bad s 0x83 := by
  simp only [txPacket, htx]

theorem rxBuffer_none (hrx : rxqOf s r i = none) (ref : DRef) : rxBuffer r i d ref s = bad s 0x83 := by
  simp only [rxBuffer, hrx]

/-! ### Policers (R396 to R398, R405) -/

/-- The actions that a POLICER_SET gives its three colors are legal (R396). -/
def PolicerActionsOk (d : Nat) : Prop := fld d 208 2 ≠ 3 ∧ fld d 210 2 ≠ 3 ∧ fld d 212 2 ≠ 3

/-- The six counts of a policer of a port; one that is not set has counted nothing (R397). -/
def policerCounts (s : State) (p n : Nat) : List Nat := (oget (s.netPort p).policers n).elim [0, 0, 0, 0, 0, 0] (·.counts)

/-- The policer that a POLICER_SET describes: full buckets, and the counts that it had (R394, R397). -/
def describedPolicer (s : State) (d : Nat) : Policer :=
  { b := givenBuckets s d, green := fld d 208 2, yellow := fld d 210 2, red := fld d 212 2, dscp := fld d 214 6
    counts := policerCounts s (fld d 64 4) (fld d 70 12) }

theorem policerSet_foreign (hport : netMay s r (fld d 64 4) = false) : policerSet r d s = bad s 0x02 := by
  simp only [policerSet, hport, Bool.not_false, if_true]

theorem policerSet_badRates (hport : netMay s r (fld d 64 4) = true) (hrates : givenRatesOk d = false) :
    policerSet r d s = bad s 0x06 := by
  unfold givenRatesOk at hrates
  simp only [policerSet, hport, hrates, Bool.not_true, Bool.false_eq_true, or_true, if_false, if_true]

/-- POLICER_SET of a number other than 0 sets the policer that it describes. -/
theorem policerSet_permitted (hport : netMay s r (fld d 64 4) = true) (hnumber : fld d 70 12 ≠ 0) (hactions : PolicerActionsOk d)
    (hrates : givenRatesOk d = true) :
    policerSet r d s = ok0 (s.modNetPort (fld d 64 4) (fun x => { x with
      policers := oput x.policers (fld d 70 12) (describedPolicer s d) })) := by
  obtain ⟨hgreen, hyellow, hred⟩ := hactions
  unfold givenRatesOk at hrates
  simp only [policerSet, hport, hnumber, hgreen, hyellow, hred, hrates, Bool.not_true, Bool.false_eq_true, Bool.true_eq_false, or_self,
    if_false]
  rfl

theorem policerRead_foreign (hport : netMay s r (fld d 64 4) = false) : policerRead r d s = bad s 0x02 := by
  simp only [policerRead, hport, Bool.not_false, if_true]

/-- POLICER_READ writes the six counts to an aligned host address (R405). -/
theorem policerRead_writes (hport : netMay s r (fld d 64 4) = true) (hnumber : fld d 70 12 ≠ 0) (haligned : fld d 256 64 % 64 = 0) :
    policerRead r d s = ok0 (hostWrite s r (fld d 256 64) ((policerCounts s (fld d 64 4) (fld d 70 12)).flatMap (natLE 8))) := by
  simp only [policerRead, hport, hnumber, haligned, Bool.not_true, Bool.false_eq_true, ne_eq, not_true_eq_false, or_self, if_false]
  rfl

/-! ### Frames and buffers (R389, R390) -/

/-- A frame of a TX_PACKET as it joins the transmit lane of its port's tile (R390). -/
def postedLane (q : Txq) (d : Nat) (ref : DRef) (bs : List Byte) : Lane :=
  { iface := q.iface, bytes := bs, ref := some ref, stamp := bitAt d 142 }

/-- TX_PACKET of a frame of a legal size reads it into the transmit lane, or counts it as overflow where the lane is full
(R355, R390). -/
theorem txPacket_reads {p n : Nat} {q : Txq} {bs : List Byte} (hq : txqOf s r i = some (p, n, q))
    (hlen : 60 ≤ fld d 128 14 ∧ fld d 128 14 ≤ 9212) (haligned : fld d 64 64 % 64 = 0)
    (hread : rdHost s r (fld d 128 14) (.ok bs) = (0, bs)) (ref : DRef) :
    txPacket r i d ref (.ok bs) s = if laneFull (s.ctile p).tx (fld d 128 14) then bad (countOverflow s p) 0x84
      else later (s.modCtile p (fun c => { c with tx := c.tx ++ [postedLane q d ref bs] })) := by
  have in_range : ¬ (fld d 128 14 < 60 ∨ 9212 < fld d 128 14 ∨ fld d 64 64 % 64 ≠ 0) := by omega
  simp only [txPacket, hq, in_range, hread, ne_eq, not_true_eq_false, if_false]
  rfl

/-- RX_BUFFER appends an aligned buffer of 80 bytes or more to the ring pair's receive queue (R389). -/
theorem rxBuffer_appends {p n : Nat} {q : Rxq} (hq : rxqOf s r i = some (p, n, q)) (hlen : 80 ≤ fld d 128 14)
    (haligned : fld d 64 64 % 64 = 0) (ref : DRef) :
    rxBuffer r i d ref s = later (s.modNetPort p (fun x => { x with
      rxqs := oput x.rxqs n { q with bufs := q.bufs ++ [(ref, fld d 64 64, fld d 128 14)] } })) := by
  have in_range : ¬ (fld d 128 14 < 80 ∨ fld d 64 64 % 64 ≠ 0) := by omega
  simp only [rxBuffer, hq, in_range, if_false]

/-! ### Waits (R405) -/

/-- The waits of a state are replaced. -/
def withWaits (s : State) (ws : List TimeWait) : State := { s with net := { s.net with waits := ws } }

/-- TIME_WAIT queues its wait, and every wait whose time has passed completes (R405). -/
theorem timeWait_queues (ref : DRef) :
    timeWait d ref s =
      later (endDue (s.net.waits.length + 1) (withWaits s (s.net.waits ++ [{ ref := ref, at_ := fld d 64 64 }]))) := by
  simp only [timeWait, List.length_append, List.length_singleton]
  rfl

/-- The only wait completes if its time has passed, and no wait is left then. -/
theorem endDue_only (w : TimeWait) :
    endDue 1 (withWaits s [w]) = if w.at_ ≤ ptp s then finish (withWaits s []) w.ref 0 (ptp s) 0 else withWaits s [w] := by
  have first : earliest (withWaits s [w]).net.waits = some w := rfl
  have none_left : [w].filter (fun x => x.ref != w.ref) = [] := by simp
  have ends : endWait (withWaits s [w]) w = finish (withWaits s []) w.ref 0 (ptp s) 0 := by
    simp only [endWait, withWaits, none_left]
    rfl
  simp only [endDue, first, ends]
  rfl

end

/-! ### From a command to its effect, and the statements -/

/-- Command `c` of a network ring is carried out by `act` on its descriptor, whose completion is taken out of the ring pair's
order (R405). -/
def CarriedOutOnPort (c : Instr) (r i op : Nat) (act : Nat → State → CmdRes) : Prop :=
  ∀ s, exec c s = .next (onDesc s r i 0x22 op (fun d ref s => act d (unorder s ref)))

section
variable {r i : Nat}

theorem CarriedOutOnPort.completes {c : Instr} {op status result spec : Nat} {act : Nat → State → CmdRes} {s t : State} {e : Fetched}
    (hc : CarriedOutOnPort c r i op act) (h : Starts s r i 0x22 op e)
    (hact : act e.desc.toNat (unorder (begun s r i e) (refOf r i e)) = (t, some (status, result, spec))) :
    exec c s = .next (finish t (refOf r i e) status result spec) :=
  (hc s).trans (onDesc_completes h hact)

theorem txqCreate_carriedOut : CarriedOutOnPort (.txqCreate r i) r i 1 (txqCreate r i) := fun _ => rfl
theorem rxqCreate_carriedOut : CarriedOutOnPort (.rxqCreate r i) r i 2 (rxqCreate r i) := fun _ => rfl
theorem qConfig_carriedOut : CarriedOutOnPort (.qConfig r i) r i 3 (qConfig r i) := fun _ => rfl
theorem qDestroy_carriedOut : CarriedOutOnPort (.qDestroy r i) r i 4 (fun _ => qDestroy r i) := fun _ => rfl
theorem policerSet_carriedOut : CarriedOutOnPort (.policerSet r i) r i 5 (policerSet r) := fun _ => rfl
theorem policerRead_carriedOut : CarriedOutOnPort (.policerRead r i) r i 6 (policerRead r) := fun _ => rfl

/-- A TIME_WAIT is queued, and the waits whose time has passed complete (R405). -/
theorem exec_timeWait_queues {s : State} {e : Fetched} (h : Starts s r i 0x24 0x01 e) :
    exec (.timeWait r i) s = .next (endDue (s.net.waits.length + 1) (withWaits (begun s r i e)
      (s.net.waits ++ [{ ref := refOf r i e, at_ := fld e.desc.toNat 64 64 }]))) :=
  onDesc_waits h (timeWait_queues (s := begun s r i e) _)

end

/-- Settles O37: each command by the lemma about it, on the descriptor that starts it. -/
theorem queueCommandsComplete : Obligations.QueueCommandsComplete := by
  unfold Obligations.QueueCommandsComplete
  refine ⟨?txqCreate, ?rxqCreate, ?foreign, ?config, ?noQueue, ?destroy, ?policerSet, ?policerRead, ?txPacket, ?rxBuffer, ?wait⟩
  case txqCreate =>
    rintro r i p n e s u h ⟨rfl, rfl, rfl, hport⟩ ⟨hiface, hrates⟩
    refine ⟨fun ⟨hnumber, htx, hrx⟩ => ?_, fun htaken => ?_⟩
    · have free : ¬ ((oget (s.netPort (fld e.desc.toNat 64 4)).txqs (fld e.desc.toNat 70 12)).isSome = true
          ∨ (txqOf s r i).isSome = true ∨ (rxqOf s r i).isSome = true) := by simp [hnumber, htx, hrx]
      exact txqCreate_carriedOut.completes h (Eq.trans (txqCreate_permitted hport hiface hrates) (if_neg free))
    · exact txqCreate_carriedOut.completes h (Eq.trans (txqCreate_permitted hport hiface hrates) (if_pos htaken))
  case rxqCreate =>
    rintro r i p n e s u h ⟨rfl, rfl, rfl, hport, hzero⟩ ⟨hnumber, htx, hrx⟩
    exact rxqCreate_carriedOut.completes h (rxqCreate_new hport hzero hnumber htx hrx)
  case foreign =>
    intro r i op c e s h hc hforeign
    simp only [List.mem_cons, Prod.mk.injEq, List.not_mem_nil, or_false] at hc
    rcases hc with ⟨rfl, rfl⟩ | ⟨rfl, rfl⟩ | ⟨rfl, rfl⟩ | ⟨rfl, rfl⟩
    · exact txqCreate_carriedOut.completes h (txqCreate_foreign hforeign)
    · exact rxqCreate_carriedOut.completes h (rxqCreate_foreign hforeign)
    · exact policerSet_carriedOut.completes h (policerSet_foreign hforeign)
    · exact policerRead_carriedOut.completes h (policerRead_foreign hforeign)
  case config =>
    rintro r i p n q e s u h ⟨rfl, hq, hrates⟩
    exact qConfig_carriedOut.completes h (Eq.trans (qConfig_txq hq) (if_pos hrates))
  case noQueue =>
    intro r i data e s _ ⟨htx, hrx⟩
    refine ⟨fun h => ?_, fun h => ?_, fun h => ?_, fun h => ?_⟩
    · exact qConfig_carriedOut.completes h (qConfig_none htx hrx)
    · exact qDestroy_carriedOut.completes h (qDestroy_none htx hrx)
    · exact onDesc_completes h (txPacket_none (s := begun s r i e) htx _ data)
    · exact onDesc_completes h (rxBuffer_none (s := unorder (begun s r i e) (refOf r i e)) hrx _)
  case destroy =>
    rintro r i p n e s u h rfl
    refine ⟨fun q hq => ?_, fun q ⟨htx, hq⟩ => ?_⟩
    · exact qDestroy_carriedOut.completes h (qDestroy_txq hq)
    · exact qDestroy_carriedOut.completes h (qDestroy_rxq htx hq)
  case policerSet =>
    rintro r i p n e s u h ⟨rfl, rfl, rfl, hport⟩ ⟨hnumber, hgreen, hyellow, hred, hrates⟩
    exact policerSet_carriedOut.completes h (policerSet_permitted hport hnumber ⟨hgreen, hyellow, hred⟩ hrates)
  case policerRead =>
    rintro r i p n e s u h ⟨rfl, rfl, rfl, hport⟩ ⟨hnumber, haligned⟩
    exact policerRead_carriedOut.completes h (policerRead_writes hport hnumber haligned)
  case txPacket =>
    intro r i p n q bs e s h ⟨hq, hmin, hmax, haligned⟩ hread
    have reads := txPacket_reads (s := begun s r i e) hq ⟨hmin, hmax⟩ haligned ((begun_rdHost h.1 r _ _).trans hread) (refOf r i e)
    refine ⟨fun hroom => ?_, fun hfull => ?_⟩
    · exact onDesc_waits h (reads.trans (if_neg (Bool.eq_false_iff.1 hroom)))
    · exact onDesc_completes h (reads.trans (if_pos hfull))
  case rxBuffer =>
    intro r i p n q e s h ⟨hq, hlen, haligned⟩
    exact onDesc_waits h (rxBuffer_appends (s := unorder (begun s r i e) (refOf r i e)) hq hlen haligned _)
  case wait =>
    rintro r i e s u h rfl
    have queues := exec_timeWait_queues h
    have alone := endDue_only (s := begun s r i e) { ref := refOf r i e, at_ := fld e.desc.toNat 64 64 }
    refine ⟨queues, fun ⟨hnone, hlater⟩ => ?_, fun ⟨hnone, hpassed⟩ => ?_⟩
    · rw [queues, hnone]
      exact congrArg Host.Outcome.next (alone.trans (if_neg (Nat.not_le.2 hlater)))
    · rw [queues, hnone]
      exact congrArg Host.Outcome.next (alone.trans (if_pos hpassed))

/-- Settles O60: the rates break a rule of R398, and each of the three commands checks them before it changes anything. -/
theorem brokenRatesAreRefused : Obligations.BrokenRatesAreRefused := by
  unfold Obligations.BrokenRatesAreRefused
  intro r i op c e s h hc hport hqueue hbroken
  have illegal : givenRatesOk e.desc.toNat = false := ratesOk_broken hbroken
  simp only [List.mem_cons, Prod.mk.injEq, List.not_mem_nil, or_false] at hc
  rcases hc with ⟨rfl, rfl⟩ | ⟨rfl, rfl⟩ | ⟨rfl, rfl⟩
  · exact txqCreate_carriedOut.completes h (txqCreate_badRates (hport (by decide)) illegal)
  · obtain ⟨⟨p, n, q⟩, hq⟩ := Option.isSome_iff_exists.1 (hqueue rfl)
    exact qConfig_carriedOut.completes h (Eq.trans (qConfig_txq hq) (if_neg (Bool.eq_false_iff.1 illegal)))
  · exact policerSet_carriedOut.completes h (policerSet_badRates (hport (by decide)) illegal)

end Sys2Proof.Machine

/-! # Scheduling and gates (11): frame boundaries, waits, links, breakout and gate lists, and the statement about them -/

namespace Sys2Proof.Machine

/-! ### Frames (R390 to R392, R404) -/

section
variable {s : State} {j : Nat}

/-- At a frame boundary of an interface that is up, heads that can never be sent are dropped, and the choice is taken (R392, R401). -/
theorem doFrameSelect_boundary (hj : j < 64) (hup : (s.netIf j).up = true) (hidle : (s.netIf j).sending = none) :
    doFrameSelect j s = (chooseFrame (dropTooLong 8192 s j) j (ptp s)).elim (dropTooLong 8192 s j)
      (fun choice => takeFrame (dropTooLong 8192 s j) j choice.1 (ptp s) choice.2) := by
  simp only [doFrameSelect, Nat.not_le.2 hj, hup, hidle, Option.isSome_none, Bool.true_eq_false, Bool.false_eq_true, or_self, if_false]
  cases chooseFrame (dropTooLong 8192 s j) j (ptp s) <;> rfl

/-- The last byte of a frame has left: its interface is free from that time on, and the frame is offered to the tap, put out and
counted (R390). -/
def frameLeft (s : State) (j t1 : Nat) (f : TxFrame) : State :=
  let u := (advanceToPtp s t1).modNetIf j (fun i => { i with sending := none, lastAct := t1 })
  addTotal (emit (tapUnit u { tap := 4, sel := j } f.bytes) (.frame j f.bytes)) 4 j 1 f.bytes.length

/-- A frame that leaves completes the TX_PACKET that posted it, with the stamp that it asked for (R390, R404). -/
theorem doFrameTxDone_sending {f : TxFrame} {t0 t1 : Nat} (h : (s.netIf j).sending = some (f, t0, t1)) :
    doFrameTxDone j s = f.ref.elim (frameLeft s j t1 f)
      (fun ref => finish (frameLeft s j t1 f) ref 0 (if f.stamp then t0 + (s.netPort (j / 4)).txDelay else 0) 0) := by
  simp only [doFrameTxDone, h, frameLeft]
  cases f.ref with
  | none => simp only [Option.elim_none]
  | some ref => simp only [Option.elim_some]

end

/-! ### Waits and links (R387, R393, R405) -/

/-- The earliest wait completes when its time comes (R405). -/
theorem doTimeWaitDue_earliest {s : State} {w : TimeWait} (h : earliest s.net.waits = some w) :
    doTimeWaitDue s = endWait (advanceToPtp s w.at_) w := by
  simp only [doTimeWaitDue, h]

section
variable {s : State} {j : Nat} (hj : j < 64) (hexists : j % 4 < ifsOf (s.netPort (j / 4)).breakout)
include hj hexists

theorem doLinkChange_up (hdown : (s.netIf j).up = false) (hon : domOn s (nptTile (j / 4)) = true) :
    doLinkChange j true s = resetTags (s.modNetIf j (fun i => { i with up := true })) j := by
  simp only [doLinkChange, Nat.not_le.2 hj, Nat.not_le.2 hexists, hdown, hon, Bool.false_eq_true, Bool.true_eq_false, and_false, or_self,
    if_false, if_true]

theorem doLinkChange_down (hup : (s.netIf j).up = true) :
    doLinkChange j false s = cvAbortIf (s.modNetIf j (fun i => { i with up := false })) j := by
  simp only [doLinkChange, Nat.not_le.2 hj, Nat.not_le.2 hexists, hup, Bool.false_eq_true, Bool.true_eq_false, false_and, or_self,
    if_false]

end

/-! ### Registers of a network port (R387, R399, R408) -/

/-- The PF1 `r` owns network port `p`, whose tile the transom reaches (R105, R408, R538). -/
def OwnsNet (s : State) (r p : Nat) : Prop :=
  (isPf1 r = true ∧ present s r = true) ∧ p < 16 ∧ netOwner s p = r ∧ reachable s (nptTile p) = true

section
variable {s : State} {r p : Nat}

/-- A write of a network port's registers by the port's owner acts (R408). -/
theorem OwnsNet.netReg_acts (h : OwnsNet s r p) (act : State → State) : netReg s r p act = act s := by
  obtain ⟨⟨hpf1, hpresent⟩, hp, howner, hreach⟩ := h
  simp only [netReg, hpf1, hpresent, Nat.not_le.2 hp, howner, hreach, Bool.and_self, Bool.not_true, Bool.false_eq_true, ne_eq,
    not_true_eq_false, or_self, if_false]

/-- The four interfaces of a port are down, the port takes another breakout, and their tags start at 0 (R387, R393). -/
def brokenOut (s : State) (p b : Nat) : State :=
  (List.range 4).foldl (fun s i => resetTags s (4 * p + i))
    (((List.range 4).foldl (fun s i => doLinkChange (4 * p + i) false s) s).modNetPort p (fun x => { x with breakout := b }))

/-- A new breakout other than 3 takes effect on a port with nothing on it, and is refused otherwise (R387). -/
theorem doBreakout_owned (h : OwnsNet s r p) {v : Nat} (hlegal : v % 4 ≠ 3) (hnew : v % 4 ≠ (s.netPort p).breakout) :
    doBreakout r p v s = if portInUse s p then s.modNetPort p (fun x => { x with refused := true }) else brokenOut s p (v % 4) := by
  refine (h.netReg_acts _).trans (if_neg ?_)
  rintro (hthree | hsame)
  · exact hlegal hthree
  · exact hnew hsame

variable {j : Nat} (h : OwnsNet s r (j / 4))
include h

/-- A valid shadow list becomes pending, for no earlier than now (R399). -/
theorem doSchGateCommit_valid (hvalid : gateFault 8 256 (netShadow (s.netIf j)) = none) :
    doSchGateCommit r j s = s.modNetIf j (fun i => { i with
      gateStatus := 0, gateBadEntry := 0, gateHeaderBad := false
      gatePend := some { netShadow (s.netIf j) with change := max (netShadow (s.netIf j)).change (ptp s) } }) := by
  refine (h.netReg_acts _).trans ?_
  simp only [hvalid]

/-- A shadow list with a fault is reported with the place of the fault (R399). -/
theorem doSchGateCommit_faulty {x : Nat} {hb : Bool} (hfault : gateFault 8 256 (netShadow (s.netIf j)) = some (x, hb)) :
    doSchGateCommit r j s = s.modNetIf j (fun i => { i with gateStatus := 0x06, gateBadEntry := x, gateHeaderBad := hb }) := by
  refine (h.netReg_acts _).trans ?_
  simp only [hfault]

end

/-- Settles O38: each command and event by the lemma about it. -/
theorem framesLeaveAtABoundary : Obligations.FramesLeaveAtABoundary := by
  unfold Obligations.FramesLeaveAtABoundary
  refine ⟨?select, ?done, ?wait, ?link, ?breakout, ?gates⟩
  case select =>
    rintro j s u ⟨hj, hup, hidle⟩ rfl
    have selects := doFrameSelect_boundary hj hup hidle
    refine ⟨fun hnone => ?_, fun cls c hsome => ?_⟩
    · rw [hnone] at selects
      exact congrArg Host.Outcome.next selects
    · rw [hsome] at selects
      exact congrArg Host.Outcome.next selects
  case done =>
    rintro j t0 t1 f s u v hsending rfl rfl
    have leaves := doFrameTxDone_sending hsending
    refine ⟨fun hnone => ?_, fun ref ⟨hsome, hstamp⟩ => ?_, fun ref ⟨hsome, hstamp⟩ => ?_⟩
    · rw [hnone, Option.elim_none] at leaves
      exact congrArg Host.Outcome.next leaves
    · rw [hsome, Option.elim_some, if_pos hstamp] at leaves
      exact congrArg Host.Outcome.next leaves
    · rw [hsome, Option.elim_some, if_neg (Bool.eq_false_iff.1 hstamp)] at leaves
      exact congrArg Host.Outcome.next leaves
  case wait =>
    rintro w s u hw rfl
    exact congrArg Host.Outcome.next (doTimeWaitDue_earliest hw)
  case link =>
    intro j s ⟨hj, hexists⟩
    refine ⟨fun ⟨hdown, hon⟩ => ?_, fun hup => ?_⟩
    · exact congrArg Host.Outcome.next (doLinkChange_up hj hexists hdown hon)
    · exact congrArg Host.Outcome.next (doLinkChange_down hj hexists hup)
  case breakout =>
    intro fn p v s ⟨hfree, hpf1⟩ hport ⟨hlegal, hnew⟩
    have breaks := (gated_of_free hfree (.breakoutWrite fn p v) _).trans (doBreakout_owned ⟨hpf1, hport⟩ hlegal hnew)
    refine ⟨fun hused => ?_, fun hunused => ?_⟩
    · exact congrArg Host.Outcome.next (breaks.trans (if_pos hused))
    · exact congrArg Host.Outcome.next (breaks.trans (if_neg (Bool.eq_false_iff.1 hunused)))
  case gates =>
    intro fn j s ⟨hfree, hpf1⟩ hport
    have commits := gated_of_free hfree (.schGateCommit fn j) (doSchGateCommit fn j)
    refine ⟨fun hvalid => ?_, fun x hb hfault => ?_⟩
    · exact congrArg Host.Outcome.next (commits.trans (doSchGateCommit_valid ⟨hpf1, hport⟩ hvalid))
    · exact congrArg Host.Outcome.next (commits.trans (doSchGateCommit_faulty ⟨hpf1, hport⟩ hfault))

end Sys2Proof.Machine

/-! # Sealing (12): what the commands of a SEAL ring do, and the statement about them -/

namespace Sys2Proof.Machine

/-! ### The slot of a command, and the tile of its work (R416 to R418, R428) -/

/-- A command that asks for slot `n`, of one of the kinds and in that state, acts on `k`; `begun_withSlot` finds it (R416). -/
def FindsSlot (s : State) (r n : Nat) (kinds : List Nat) (st : KeySt) (k : KeySlot) : Prop :=
  ∀ act : KeySlot → CmdRes, withSlot s r n kinds st act = act k

/-- A slot of one kind is of the kinds that a command for this kind asks for. -/
theorem kind_asked {k : KeySlot} {n : Nat} (h : k.kind = n) : [n].contains k.kind = true := by
  rw [h, List.contains_cons, beq_self_eq_true, Bool.true_or]

/-- Work under a slot that is not the function's waits for no tile: the command goes on to its refusal. -/
theorem sealWaits_foreign {s : State} {r n : Nat} (h : (s.slot n).all (fun k => !owns s r k.own) = true) (i : Nat) :
    sealWaits s r i n = false := by
  have not_mine : (s.slot n).any (fun k => owns s r k.own) = false := by
    cases hslot : s.slot n with
    | none => rfl
    | some k =>
      rw [hslot] at h
      exact Bool.not_eq_true' _ ▸ h
  simp only [sealWaits, not_mine, Bool.and_false]

/-- The tile that the work of a descriptor under slot `n` runs on (R412, R413). -/
def workTile (s : State) (ref : DRef) (n : Nat) (k : KeySlot) : Nat := tileFor s (dieOfRing s ref) n k

/-- A slot that has sealed or opened on a tile stays with it (R413). -/
def usedOn (k : KeySlot) (t : Nat) : KeySlot := { k with used := true, pinned := some t }

/-- The completion of a command whose last act is a write (R434). -/
def endsWithWrite (w : State × Nat) (result : Nat) : CmdRes := if w.2 ≠ 0 then bad w.1 w.2 else okR w.1 result

theorem endsWithWrite_written {w : State × Nat} (h : w.2 = 0) (result : Nat) : endsWithWrite w result = okR w.1 result :=
  if_neg (not_not.2 h)

section
variable {s u v : State} {r d : Nat} {k : KeySlot} {ref : DRef}

/-! ### Slots are taken, loaded and freed (R415 to R418) -/

theorem keyAlloc_kindless {i : Nat} (hkind : fld d 64 2 = 0) : keyAlloc r i d s = bad s 0x06 := if_pos hkind

/-- KEY_ALLOC takes the lowest free slot, and the allocator's pointer passes the core that serves the ring pair (R68, R416). -/
theorem keyAlloc_lowest {i n : Nat} (hkind : fld d 64 2 ≠ 0) (hvf : isVf r = false)
    (hfree : lowestFree s.sealing.slots 0 262144 = some n) :
    keyAlloc r i d s = okR ((s.modSeal (fun q => { q with keyPtr := ((s.ring r i).owner + 1) % 66 })).putSlot n
      { kind := fld d 64 2, own := s.ownOf r }) n := by
  simp only [keyAlloc, hkind, hvf, hfree, Bool.false_and, Bool.false_eq_true, if_false]

/-- KEY_LOAD loads legal material with counter 1 (R417, R419). -/
theorem keyLoad_reads {x : HRead} {bs : List Byte} (hk : FindsSlot s r (dSlot d) [1, 2, 3] .allocated k)
    (hread : rdSpace s r 22 (dSrc d) 64 x = (u, 0, bs)) :
    keyLoad r d x s =
      if materialOk k.kind bs then ok0 (u.putSlot (dSlot d) { k with st := .loaded, material := bs, counter := 1 })
      else bad u 0x06 := by
  refine (hk _).trans ?_
  cases hlegal : materialOk k.kind bs <;>
    simp only [hread, hlegal, ne_eq, not_true_eq_false, Bool.not_false, Bool.not_true, Bool.false_eq_true, if_false, if_true]

theorem keyFree_foreign (h : (s.slot (dSlot d)).all (fun k => !owns s r k.own) = true) : keyFree r d s = bad s 0x02 := by
  unfold keyFree
  cases hslot : s.slot (dSlot d) with
  | none => rfl
  | some k =>
    rw [hslot] at h
    exact if_pos h

/-- KEY_FREE removes a slot that nothing references, its material and counter with it (R415, R418). -/
theorem keyFree_held (hslot : s.slot (dSlot d) = some k) (hown : owns s r k.own = true) :
    keyFree r d s = if slotReferenced s (dSlot d) then bad s 0x82
      else ok0 (s.modSeal (fun q => { q with slots := odel q.slots (dSlot d) })) := by
  simp only [keyFree, hslot, hown, Bool.not_true, Bool.false_eq_true, if_false]

/-! ### Security associations (R434, R435) -/

theorem saSet_again {x : HRead} (hk : FindsSlot s r (dSlot d) [1] .loaded k) (hused : k.used = true ∨ k.sa.isSome = true) :
    saSet r d x s = bad s 0x83 :=
  (hk _).trans (if_pos (Bool.or_eq_true_iff.2 hused))

/-- SA_SET gives a slot that has never been used the SA that it reads (R435). -/
theorem saSet_first {x : HRead} {bs : List Byte} {a : SaRec} (hk : FindsSlot s r (dSlot d) [1] .loaded k)
    (hunused : k.used = false) (hnone : k.sa = none) (hread : rdSpace s r 22 (dSrc d) 128 x = (u, 0, bs))
    (hparse : parseSa bs = some a) : saSet r d x s = ok0 (u.putSlot (dSlot d) { k with sa := some a }) := by
  refine (hk _).trans ?_
  simp only [hunused, hnone, hread, hparse, Option.isSome_none, Bool.or_self, Bool.false_eq_true, ne_eq, not_true_eq_false, if_false]

/-- SA_QUERY reports the highest sequence of an inbound SA, and the counter otherwise (R434). -/
theorem saQuery_reports (hk : FindsSlot s r (dSlot d) [1] .loaded k) :
    saQuery r d s = okR s (k.sa.elim k.counter (fun a => if a.inbound then k.hiSeq else k.counter)) := by
  refine (hk _).trans ?_
  cases k.sa <;> rfl

/-! ### Sealing and opening (R419, R420, R424, R434) -/

/-- A slot whose key a SEAL ring uses itself, with a length within the limit of R434. -/
def RingSeals (d : Nat) (k : KeySlot) : Prop := k.sa = none ∧ dLen d ≤ 65536

/-- SEAL_GCM writes ciphertext and tag under the counter value that it has used, and reports this value (R419, R434). -/
theorem sealGcm_seals {x y : HRead} {pt aad : List Byte} {t : Nat} {q : State} (hk : FindsSlot s r (dSlot d) [1] .loaded k)
    (hd : RingSeals d k) (ht : t = workTile s ref (dSlot d) k)
    (hsrc : rdSpace s r (sealDom t) (dSrc d) (dLen d) x = (u, 0, pt))
    (haad : rdSpace u r (sealDom t) (fld d 256 64) (fld d 320 16) y = (v, 0, aad)) (hcount : useCounter v (dSlot d) t k = some q) :
    sealGcm r d ref x y s = endsWithWrite (wrSpace (countBytes q t (dLen d)) r (sealDom t) (dDst d)
      ((gcmSeal (keyOf k) (nonceOf k k.counter) aad pt).1 ++ (gcmSeal (keyOf k) (nonceOf k k.counter) aad pt).2)) k.counter := by
  subst ht
  obtain ⟨hsa, hlen⟩ := hd
  have no_sa : k.sa.isSome = false := Option.isSome_eq_false_iff.2 (Option.isNone_iff_eq_none.2 hsa)
  unfold workTile at hsrc haad hcount
  refine (hk _).trans ?_
  simp only [no_sa, Nat.not_lt.2 hlen, hsrc, haad, hcount, Bool.false_eq_true, ne_eq, not_true_eq_false, if_false]
  rfl

/-- OPEN_GCM writes the plaintext when the tag behind the ciphertext verifies, and nothing otherwise (R434). -/
theorem openGcm_opens {x y : HRead} {ct aad : List Byte} {t : Nat} (hk : FindsSlot s r (dSlot d) [1] .loaded k)
    (hd : RingSeals d k) (ht : t = workTile s ref (dSlot d) k)
    (hsrc : rdSpace s r (sealDom t) (dSrc d) (dLen d + 16) x = (u, 0, ct))
    (haad : rdSpace u r (sealDom t) (fld d 256 64) (fld d 320 16) y = (v, 0, aad)) :
    openGcm r d ref x y s =
      (gcmOpen (keyOf k) (nonceOf k (fld d 384 64)) aad (ct.take (dLen d)) (ct.drop (dLen d))).elim
        (bad (countBytes (v.putSlot (dSlot d) (usedOn k t)) t (dLen d)) 0x80)
        (fun pt => endsWithWrite
          (wrSpace (countBytes (v.putSlot (dSlot d) (usedOn k t)) t (dLen d)) r (sealDom t) (dDst d) pt) 0) := by
  subst ht
  obtain ⟨hsa, hlen⟩ := hd
  have no_sa : k.sa.isSome = false := Option.isSome_eq_false_iff.2 (Option.isNone_iff_eq_none.2 hsa)
  unfold workTile at hsrc haad
  refine (hk _).trans ?_
  simp only [no_sa, Nat.not_lt.2 hlen, hsrc, haad, Bool.false_eq_true, ne_eq, not_true_eq_false, if_false]
  cases gcmOpen (keyOf k) (nonceOf k (fld d 384 64)) aad (ct.take (dLen d)) (ct.drop (dLen d)) <;> rfl

/-- The bytes of a data unit that a descriptor of XTS_ENC or XTS_DEC asks for (R424). -/
def dataUnit (d : Nat) : Nat := if bitAt d 336 then 4096 else 512

/-- XTS_ENC and XTS_DEC write whole data units and report their number (R424). -/
theorem xtsCmd_crypts {enc : Bool} {x : HRead} {bs : List Byte} {t : Nat} (hk : FindsSlot s r (dSlot d) [2] .loaded k)
    (hlen : dLen d ≤ 2 ^ 31) (hwhole : dLen d % dataUnit d = 0) (ht : t = workTile s ref (dSlot d) k)
    (hsrc : rdSpace s r (sealDom t) (dSrc d) (dLen d) x = (u, 0, bs)) :
    xtsCmd enc r d ref x s = endsWithWrite (wrSpace (countBytes (u.putSlot (dSlot d) (usedOn k t)) t (dLen d)) r (sealDom t) (dDst d)
      (xts enc (dataUnit d) (fld d 256 64) k.material bs)) (dLen d / dataUnit d) := by
  subst ht
  unfold workTile at hsrc
  unfold dataUnit at hwhole
  refine (hk _).trans ?_
  simp only [Nat.not_lt.2 hlen, hwhole, hsrc, ne_eq, not_true_eq_false, or_self, if_false]
  rfl

/-! ### Hashes (R425) -/

/-- The state from which a HASH goes on: that of its descriptor's address, or the initial one where this is 0. -/
def priorHash (d : Nat) (st : List Byte) : List Nat := if fld d 384 64 = 0 then shaInit else shaWords (ofBs st)

/-- What a HASH writes: the digest of a final part, the state after any other (R425). -/
def hashOut (d : Nat) (bs st : List Byte) : List Byte :=
  toBs (if bitAt d 337 then shaFinal (priorHash d st) (fld d 256 64) (ofBs bs)
    else shaBytes (shaBlocks (dLen d / 64) (priorHash d st) (ofBs bs)))

/-- HASH of a final part, or of whole blocks, behind whole blocks writes its digest or its state (R425). -/
theorem hashCmd_hashes {x y : HRead} {bs st : List Byte} (hwhole : bitAt d 337 = true ∨ dLen d % 64 = 0)
    (hprior : fld d 256 64 % 64 = 0) (hsrc : rdSpace s r 22 (dSrc d) (dLen d) x = (u, 0, bs))
    (hstate : rdSpace u r 22 (fld d 384 64) (if fld d 384 64 = 0 then 0 else 32) y = (v, 0, st)) :
    hashCmd r d x y s = endsWithWrite (wrSpace v r 22 (dDst d) (hashOut d bs st)) 0 := by
  have in_blocks : ((!bitAt d 337 && dLen d % 64 != 0) || fld d 256 64 % 64 != 0) = false := by
    rcases hwhole with h | h <;> simp [h, hprior]
  simp only [hashCmd, in_blocks, hsrc, hstate, Bool.false_eq_true, ne_eq, not_true_eq_false, if_false]
  rfl

/-! ### Saved contexts (R429, R430) -/

variable {w : KeySlot} (hw : FindsSlot s r (fld d 82 18) [3] .loaded w)
include hw

/-- CTX_SAVE writes head, sealed context and tag under the wrap counter, leaves the slot SAVED and reports this counter (R429). -/
theorem ctxSave_saves {t : Nat} {q : State} {p : State × Nat} (hk : FindsSlot s r (dSlot d) [1, 2, 3] .loaded k)
    (ht : t = workTile s ref (fld d 82 18) w) (hcount : useCounter s (fld d 82 18) t w = some q)
    (hp : p = wrSpace q r (sealDom t) (dDst d) (ctxHead k.kind w.counter
      ++ (gcmSeal (keyOf w) (nonceOf w w.counter) (ctxHead k.kind w.counter) (ctxClear k)).1
      ++ (gcmSeal (keyOf w) (nonceOf w w.counter) (ctxHead k.kind w.counter) (ctxClear k)).2)) (hwritten : p.2 = 0) :
    ctxSave r d ref s = okR (p.1.modSeal (fun q => { q with
      slots := omod q.slots (dSlot d) (fun x => { x with st := .saved }) })) w.counter := by
  subst ht
  unfold workTile at hcount hp
  refine (hk _).trans ((hw _).trans ?_)
  simp only [hcount]
  rw [hp] at hwritten
  rw [hp]
  exact if_neg (not_not.2 hwritten)

/-- The head of 512 wrapped bytes names the wrap counter under which they were sealed (R429). -/
abbrev wrapCounter (bs : List Byte) : Nat := fld (leNat (bs.take 16)) 64 64

section
variable {x : HRead} {bs : List Byte} (hk : FindsSlot s r (dSlot d) [1, 2, 3] .allocated k)
  (hread : rdSpace s r 22 (dSrc d) 512 x = (u, 0, bs))
include hk hread

/-- CTX_RESTORE rejects a context whose head is not that of a context of the slot's kind (R430). -/
theorem ctxRestore_otherHead (hhead : bs.take 16 ≠ ctxHead k.kind (wrapCounter bs)) : ctxRestore r d x s = bad u 0x80 := by
  refine (hk _).trans ((hw _).trans ?_)
  simp only [hread, hhead, ne_eq, not_true_eq_false, not_false_eq_true, if_false, if_true]

/-- CTX_RESTORE loads a context of the slot's kind whose tag verifies, and changes nothing otherwise (R430). -/
theorem ctxRestore_opens (hhead : bs.take 16 = ctxHead k.kind (wrapCounter bs)) :
    ctxRestore r d x s =
      (gcmOpen (keyOf w) (nonceOf w (wrapCounter bs)) (bs.take 16) (sliceB bs 16 480) (sliceB bs 496 16)).elim
        (bad u 0x80) (fun pt => ok0 (u.putSlot (dSlot d) (ctxParse k pt))) := by
  have head_good : ¬ bs.take 16 ≠ ctxHead k.kind (wrapCounter bs) := not_not.2 hhead
  refine (hk _).trans ((hw _).trans ?_)
  simp only [hread, head_good, ne_eq, not_true_eq_false, if_false]
  cases gcmOpen (keyOf w) (nonceOf w (wrapCounter bs)) (bs.take 16) (sliceB bs 16 480) (sliceB bs 496 16) <;> rfl

end

end

/-! ### From a command to its effect, and the statement -/

/-- Command `c` of a SEAL ring is carried out by `act` once the tile of the slot that its descriptor names from bit `at_` on
takes work (R428). -/
def CarriedOutOnTile (c : Instr) (r i op at_ : Nat) (act : Nat → DRef → State → CmdRes) : Prop :=
  ∀ s, exec c s = .next (onSeal r i op at_ (fun s => onDesc s r i 0x23 op act) s)

section
variable {s t : State} {r i op at_ : Nat} {c : Instr} {e : Fetched} {act : Nat → DRef → State → CmdRes}

/-- A command under a slot whose tile takes no work changes nothing (R428). -/
theorem CarriedOutOnTile.waits (hc : CarriedOutOnTile c r i op at_ act) (h : Starts s r i 0x23 op e)
    (hwaits : sealWaits s r i (fld e.desc.toNat at_ 18) = true) : exec c s = .next s := by
  obtain ⟨hstart, hkind, hop⟩ := h
  simp only [hc s, onSeal, hstart, hkind, hop, hwaits, beq_self_eq_true, Bool.and_self, if_true]

theorem CarriedOutOnTile.completes {status result spec : Nat} (hc : CarriedOutOnTile c r i op at_ act)
    (h : Starts s r i 0x23 op e) (hready : sealWaits s r i (fld e.desc.toNat at_ 18) = false)
    (hact : act e.desc.toNat (refOf r i e) (begun s r i e) = (t, some (status, result, spec))) :
    exec c s = .next (finish t (refOf r i e) status result spec) := by
  have acts : onSeal r i op at_ (fun s => onDesc s r i 0x23 op act) s = onDesc s r i 0x23 op act := by
    simp only [onSeal, h.1, hready, Bool.and_false, Bool.false_eq_true, if_false]
  rw [hc s, acts]
  exact onDesc_completes h hact

end

section
variable {r i : Nat} {x y : HRead}

theorem sealGcm_carriedOut : CarriedOutOnTile (.sealGcm r i x y) r i 5 64 (fun d ref => sealGcm r d ref x y) := fun _ => rfl
theorem openGcm_carriedOut : CarriedOutOnTile (.openGcm r i x y) r i 6 64 (fun d ref => openGcm r d ref x y) := fun _ => rfl
theorem xtsEnc_carriedOut : CarriedOutOnTile (.xtsEnc r i x) r i 7 64 (fun d ref => xtsCmd true r d ref x) := fun _ => rfl
theorem xtsDec_carriedOut : CarriedOutOnTile (.xtsDec r i x) r i 8 64 (fun d ref => xtsCmd false r d ref x) := fun _ => rfl
theorem ctxSave_carriedOut : CarriedOutOnTile (.ctxSave r i) r i 10 82 (fun d ref => ctxSave r d ref) := fun _ => rfl
theorem ctxRestore_carriedOut : CarriedOutOnTile (.ctxRestore r i x) r i 11 82 (fun d _ => ctxRestore r d x) := fun _ => rfl

theorem tileCommand_carriedOut {op at_ : Nat} {c : Instr}
    (hc : (c, op, at_) ∈ [(Instr.sealGcm r i x y, 5, 64), (Instr.openGcm r i x y, 6, 64), (Instr.xtsEnc r i x, 7, 64),
      (Instr.xtsDec r i x, 8, 64), (Instr.ctxSave r i, 10, 82), (Instr.ctxRestore r i x, 11, 82)]) :
    ∃ act, CarriedOutOnTile c r i op at_ act := by
  simp only [List.mem_cons, Prod.mk.injEq, List.not_mem_nil, or_false] at hc
  rcases hc with ⟨rfl, rfl, rfl⟩ | ⟨rfl, rfl, rfl⟩ | ⟨rfl, rfl, rfl⟩ | ⟨rfl, rfl, rfl⟩ | ⟨rfl, rfl, rfl⟩ | ⟨rfl, rfl, rfl⟩
  all_goals exact ⟨_, fun _ => rfl⟩

end

/-- Settles O39: each command by the lemma about it, on the slot that its descriptor names (`begun_withSlot`). -/
theorem sealCommandsComplete : Obligations.SealCommandsComplete := by
  unfold Obligations.SealCommandsComplete
  refine ⟨?keyAlloc, ?foreign, ?waits, ?keyLoad, ?keyFree, ?saSet, ?sealGcm, ?openGcm, ?xts, ?hash, ?ctxSave, ?ctxRestore, ?saQuery⟩
  case keyAlloc =>
    intro r i n e s h ⟨hvf, hfree⟩
    refine ⟨fun hkind => ?_, fun hkind => ?_⟩
    · rw [← begun_ownOf h.1 r]
      exact onDesc_completes h (keyAlloc_lowest (s := begun s r i e) hkind hvf hfree)
    · exact onDesc_completes h (keyAlloc_kindless hkind)
  case foreign =>
    intro r i op x y c e s h hc hforeign hready
    have ready := sealWaits_foreign hforeign i
    have not_held {kinds st} := begun_withSlot_none (kinds := kinds) (st := st) h.1 hforeign
    have wrap_ready (hop : op = 10 ∨ op = 11) : sealWaits s r i (fld e.desc.toNat 82 18) = false :=
      hready.resolve_right (fun hne => hop.elim hne.1 hne.2)
    simp only [List.mem_cons, Prod.mk.injEq, List.not_mem_nil, or_false] at hc
    rcases hc with ⟨rfl, rfl⟩ | ⟨rfl, rfl⟩ | ⟨rfl, rfl⟩ | ⟨rfl, rfl⟩ | ⟨rfl, rfl⟩ | ⟨rfl, rfl⟩ | ⟨rfl, rfl⟩ | ⟨rfl, rfl⟩ | ⟨rfl, rfl⟩
      | ⟨rfl, rfl⟩
    · exact onDesc_completes h (not_held _)
    · refine onDesc_completes h (keyFree_foreign ?_)
      simp only [begun_owns h.1]
      exact hforeign
    · exact onDesc_completes h (not_held _)
    · exact sealGcm_carriedOut.completes h ready (not_held _)
    · exact openGcm_carriedOut.completes h ready (not_held _)
    · exact xtsEnc_carriedOut.completes h ready (not_held _)
    · exact xtsDec_carriedOut.completes h ready (not_held _)
    · exact ctxSave_carriedOut.completes h (wrap_ready (.inl rfl)) (not_held _)
    · exact ctxRestore_carriedOut.completes h (wrap_ready (.inr rfl)) (not_held _)
    · exact onDesc_completes h (not_held _)
  case waits =>
    intro r i op a x y c e s h hc hwaits
    obtain ⟨act, carried⟩ := tileCommand_carriedOut hc
    exact carried.waits h hwaits
  case keyLoad =>
    intro r i k x bs e s u h ⟨hslot, hown, hkind, hst⟩ hread
    have loads := keyLoad_reads (begun_withSlot h.1 hslot hown hkind hst) hread
    refine ⟨fun hlegal => ?_, fun hillegal => ?_⟩
    · exact onDesc_completes h (loads.trans (if_pos hlegal))
    · exact onDesc_completes h (loads.trans (if_neg (Bool.eq_false_iff.1 hillegal)))
  case keyFree =>
    intro r i k e s h ⟨hslot, hown⟩
    have frees := keyFree_held (s := begun s r i e) hslot ((begun_owns h.1 r k.own).trans hown)
    refine ⟨fun hused => ?_, fun hunused => ?_⟩
    · exact onDesc_completes h (frees.trans (if_pos hused))
    · exact onDesc_completes h (frees.trans (if_neg (Bool.eq_false_iff.1 hunused)))
  case saSet =>
    intro r i k x bs a e s u h ⟨hslot, hown, hkind, hst⟩ ⟨hread, hparse⟩
    have finds := begun_withSlot h.1 hslot hown (kind_asked hkind) hst
    refine ⟨fun ⟨hunused, hnone⟩ => ?_, fun hused => ?_⟩
    · exact onDesc_completes h (saSet_first finds hunused hnone hread hparse)
    · exact onDesc_completes h (saSet_again finds hused)
  case sealGcm =>
    rintro r i t k x y pt aad w e s u v q h hready ⟨hslot, hown, hkind, hst, hd⟩ ht ⟨hsrc, haad⟩ hcount ⟨rfl, hwritten⟩
    have seals := sealGcm_seals (begun_withSlot h.1 hslot hown (kind_asked hkind) hst) hd ht hsrc haad hcount
    exact sealGcm_carriedOut.completes h hready (seals.trans (endsWithWrite_written hwritten _))
  case openGcm =>
    rintro r i t k x y ct aad e s u v q h hready ⟨hslot, hown, hkind, hst, hd⟩ ht ⟨hsrc, haad⟩ rfl
    have opens := openGcm_opens (begun_withSlot h.1 hslot hown (kind_asked hkind) hst) hd ht hsrc haad
    refine ⟨fun hbad => ?_, fun pt ⟨hgood, hwritten⟩ => ?_⟩
    · rw [hbad, Option.elim_none] at opens
      exact openGcm_carriedOut.completes h hready opens
    · rw [hgood, Option.elim_some] at opens
      exact openGcm_carriedOut.completes h hready (opens.trans (endsWithWrite_written hwritten _))
  case xts =>
    rintro r i t du k x bs enc e s u q h hready ⟨hslot, hown, hkind, hst⟩ ⟨rfl, hlen, hwhole⟩ ⟨ht, hsrc⟩ rfl hwritten
    have crypts := (xtsCmd_crypts (enc := enc) (begun_withSlot h.1 hslot hown (kind_asked hkind) hst) hlen hwhole ht hsrc).trans
      (endsWithWrite_written hwritten _)
    cases enc with
    | true => exact ⟨fun _ => xtsEnc_carriedOut.completes h hready crypts, nofun⟩
    | false => exact ⟨nofun, fun _ => xtsDec_carriedOut.completes h hready crypts⟩
  case hash =>
    rintro r i x y bs st d e s u v h ⟨hwhole, hprior⟩ ⟨hsrc, hstate⟩ rfl hwritten
    exact onDesc_completes h ((hashCmd_hashes hwhole hprior hsrc hstate).trans (endsWithWrite_written hwritten _))
  case ctxSave =>
    rintro r i t k w p e s q h hready ⟨hslot, hown, hkind, hst⟩ ⟨hwslot, hwown, hwkind, hwst⟩ ⟨ht, hcount⟩ ⟨hp, hwritten⟩
    exact ctxSave_carriedOut.completes h hready (ctxSave_saves (begun_withSlot h.1 hwslot hwown (kind_asked hwkind) hwst)
      (begun_withSlot h.1 hslot hown hkind hst) ht hcount hp hwritten)
  case ctxRestore =>
    intro r i k w x bs e s u h hready ⟨hslot, hown, hkind, hst⟩ ⟨hwslot, hwown, hwkind, hwst⟩ hread
    have wrap := begun_withSlot h.1 hwslot hwown (kind_asked hwkind) hwst
    have finds := begun_withSlot h.1 hslot hown hkind hst
    refine ⟨fun hhead => ?_, fun pt ⟨hhead, hgood⟩ => ?_, fun ⟨hhead, hbad⟩ => ?_⟩
    · exact ctxRestore_carriedOut.completes h hready (ctxRestore_otherHead wrap finds hread hhead)
    · have opens := ctxRestore_opens wrap finds hread hhead
      rw [hgood, Option.elim_some] at opens
      exact ctxRestore_carriedOut.completes h hready opens
    · have opens := ctxRestore_opens wrap finds hread hhead
      rw [hbad, Option.elim_none] at opens
      exact ctxRestore_carriedOut.completes h hready opens
  case saQuery =>
    intro r i k e s h ⟨hslot, hown, hkind, hst⟩
    have reports := saQuery_reports (begun_withSlot h.1 hslot hown (kind_asked hkind) hst)
    refine ⟨fun hnone => ?_, fun a hsome => ?_⟩
    · rw [hnone, Option.elim_none] at reports
      exact onDesc_completes h reports
    · rw [hsome, Option.elim_some] at reports
      exact onDesc_completes h reports

end Sys2Proof.Machine

/-! # Sealing (12): faults of SEAL tiles and the lock of the management cipher, and the statement about them -/

namespace Sys2Proof.Machine

/-! ### Faults and recovery (R427, R428) -/

/-- A tile has detected a fault, and takes no work (R428). -/
def markFaulted (s : State) (t : Nat) : State := s.modStile t (fun k => { k with faulted := true })

/-- A tile in service that faults is closed to be reopened, or the reason why it may not leave is reported (R428, R528). -/
theorem doSealFault_inService {s : State} {t : Nat} (ht : t < 8) (hservice : inService s (sealDom t) = true) :
    doSealFault t s = if leaveCode (markFaulted s t) (sealDom t) none ≠ 0
      then refuseEntry (markFaulted s t) (sealDom t) (leaveCode (markFaulted s t) (sealDom t) none) 0
      else closeTile (markFaulted s t) (sealDom t) { target := 0, prev := 2 } := by
  refine if_neg ?_
  rintro (htile | hout)
  · exact absurd ht (Nat.not_lt.2 htile)
  · exact Bool.eq_false_iff.1 hout hservice

/-- The recovery of a tile ends with its second, and the tile's mode is settled anew (R427, R428). -/
theorem doSealRecovery_ends {s : State} {t : Nat} (ht : t < 8) (hrecovers : (s.stile t).recoverUntil ≠ 0) :
    doSealRecovery t s =
      settleMode ((advanceTo s (s.stile t).recoverUntil).modStile t (fun k => { k with recoverUntil := 0 })) t := by
  refine if_neg ?_
  rintro (htile | hdone)
  · exact absurd ht (Nat.not_lt.2 htile)
  · exact hrecovers hdone

/-! ### The lock of the management cipher (R432, R433) -/

/-- The claims of a cycle that are of the highest rank present: those of sessions, or those of keepers where no session claims. -/
def rankedClaims (s : State) (cs : List Nat) : List Nat :=
  if ((cs.filter (mcMay s)).filter (· < 4)).isEmpty then cs.filter (mcMay s) else (cs.filter (mcMay s)).filter (· < 4)

section
variable {s : State} {cs : List Nat} {c : Nat}

theorem rankedClaims_sessions (h : (cs.filter (mcMay s)).filter (· < 4) ≠ []) :
    rankedClaims s cs = (cs.filter (mcMay s)).filter (· < 4) :=
  if_neg (fun hempty => h (List.isEmpty_iff.1 hempty))

theorem rankedClaims_keepers (h : (cs.filter (mcMay s)).filter (· < 4) = []) : rankedClaims s cs = cs.filter (mcMay s) :=
  if_pos (List.isEmpty_iff.2 h)

/-- The lock is granted to a claimant at a cycle, and the pointer passes the claimant (R68, R433). -/
def grantCipher (s : State) (c since : Nat) : State :=
  s.modSeal (fun q => { q with mc := { holder := c, held := true, broken := false, ptr := (c + 1) % 6, since := since } })

theorem doMcClaim_held (hheld : s.sealing.mc.held = true) : doMcClaim cs s = advanceTo s (s.vcycle + 1) := if_pos hheld

/-- Of the claims of one cycle on a free lock, the first of the highest rank from the pointer on is granted (R433). -/
theorem doMcClaim_grants (hfree : s.sealing.mc.held = false) (hpick : rotPick 6 s.sealing.mc.ptr (rankedClaims s cs) = some c) :
    doMcClaim cs s = grantCipher (advanceTo s (s.vcycle + 1)) c s.vcycle := by
  unfold rankedClaims at hpick
  simp only [doMcClaim, hfree, hpick, Bool.false_eq_true, if_false]
  rfl

/-- The holder's release frees the lock at the end of its cycle (R433). -/
theorem doMcRelease_holder (hheld : s.sealing.mc.held = true) (hholder : s.sealing.mc.holder = c) :
    doMcRelease c s = (advanceTo s (s.vcycle + 1)).modSeal (fun q => { q with mc := { q.mc with held := false } }) := by
  simp only [doMcRelease, hheld, hholder, beq_self_eq_true, Bool.and_self, if_true]

theorem doMcRelease_other (hholder : s.sealing.mc.holder ≠ c) : doMcRelease c s = s := by
  simp only [doMcRelease, beq_eq_false_iff_ne.2 hholder, Bool.and_false, Bool.false_eq_true, if_false]

/-- A hold that is ended by force leaves the lock free and broken; a claimant that still may claim has had it for 1 ms (R433). -/
theorem doMcForced_held (hheld : s.sealing.mc.held = true) :
    doMcForced s = (if mcMay s s.sealing.mc.holder then advanceTo s (s.sealing.mc.since + msCycles) else s).modSeal
      (fun q => { q with mc := { q.mc with held := false, broken := true } }) := by
  simp only [doMcForced, hheld, Bool.not_true, Bool.false_eq_true, if_false]

end

/-- Settles O40: each event by the lemma about it; sessions that claim go before keepers (`rankedClaims_sessions`). -/
theorem sealTilesAndTheCipherLock : Obligations.SealTilesAndTheCipherLock := by
  unfold Obligations.SealTilesAndTheCipherLock
  refine ⟨?fault, ?recovery, ?claim, ?release, ?forced⟩
  case fault =>
    rintro t s u ⟨ht, hservice⟩ rfl
    have faults := doSealFault_inService ht hservice
    refine ⟨fun hmay => ?_, fun hstays => ?_⟩
    · exact congrArg Host.Outcome.next (faults.trans (if_neg (not_not.2 hmay)))
    · exact congrArg Host.Outcome.next (faults.trans (if_pos hstays))
  case recovery =>
    intro t s ⟨ht, hrecovers⟩
    exact congrArg Host.Outcome.next (doSealRecovery_ends ht hrecovers)
  case claim =>
    rintro cs s u rfl
    refine ⟨fun hheld => ?_, fun c ⟨hfree, hpick⟩ => ?_, fun c ⟨hfree, hnone, hpick⟩ => ?_⟩
    · exact congrArg Host.Outcome.next (doMcClaim_held hheld)
    · have some_session : (cs.filter (mcMay s)).filter (· < 4) ≠ [] := by
        intro hempty
        rw [hempty, rotPick_nil] at hpick
        cases hpick
      rw [← rankedClaims_sessions some_session] at hpick
      exact congrArg Host.Outcome.next (doMcClaim_grants hfree hpick)
    · rw [← rankedClaims_keepers hnone] at hpick
      exact congrArg Host.Outcome.next (doMcClaim_grants hfree hpick)
  case release =>
    intro c s hheld
    refine ⟨fun hholder => ?_, fun hother => ?_⟩
    · exact congrArg Host.Outcome.next (doMcRelease_holder hheld hholder)
    · exact congrArg Host.Outcome.next (doMcRelease_other hother)
  case forced =>
    intro s hheld
    have frees := doMcForced_held hheld
    refine ⟨fun hlive => ?_, fun hgone => ?_⟩
    · rw [if_pos hlive] at frees
      exact congrArg Host.Outcome.next frees
    · rw [if_neg (Bool.eq_false_iff.1 hgone)] at frees
      exact congrArg Host.Outcome.next frees

end Sys2Proof.Machine

/-! # Host links and interrupts (14): what their events and register writes do, and the statement about them -/

namespace Sys2Proof.Machine

section
variable {s : State} {r : Nat}

/-! ### Error reports (R470, R471) -/

/-- A read that times out fails the directory action that it was read for, and is then logged and reported (R42, R470). -/
theorem exec_hostReadTimeout_reports (hfn : isFn r = true) (dir : Bool) :
    exec (.hostReadTimeout r dir) s = .next (logTimeout (failDir s r dir .timeout) r) := by
  simp only [exec_hostReadTimeout, execHostReadTimeout, hfn, if_true]

/-- A poisoned TLP fails the directory action where it answers the action's read, and is then logged and reported (R471). -/
theorem exec_poisonedTlp_reports (hfn : isFn r = true) (read dir : Bool) :
    exec (.poisonedTlp r read dir) s = .next (logPoison (failDir s r (read && dir) .poisoned) r) := by
  simp only [exec_poisonedTlp, execPoisonedTlp, hfn, if_true]

/-! ### Link power (R472) -/

/-- 64 µs after the last TLP an endpoint with L1 enabled asks for L1 (R472). -/
theorem doL1_enters {ep : Nat} (hep : ep < 2) (hon : (mget s.links ep {}).aspmL1 = true)
    (hout : (mget s.links ep {}).inL1 = false) :
    doL1 ep s = emit { advanceTo s ((mget s.links ep {}).lastTlp + 25600) with
      links := mset s.links ep { mget s.links ep {} with inL1 := true } {} } (.enterL1 ep) := by
  have stays : ¬ (2 ≤ ep ∨ (!(mget s.links ep {}).aspmL1) = true ∨ (mget s.links ep {}).inL1 = true) := by
    simp [hep, hon, hout]
  simp only [doL1, stays, if_false]
  rfl

/-! ### Vectors and INTx (R473, R474) -/

theorem doUnmask_clears {v : Nat} (hpresent : present s r = true) (hv : v < vectorsOf r) :
    doUnmask r v s = sendPending (s.modFn r (fun f => { f with vecMask := f.vecMask &&& ~~~(1#2048 <<< v) })) r v := by
  have there : ¬ ((!present s r) = true ∨ vectorsOf r ≤ v) := by simp [hpresent, hv]
  simp only [doUnmask, there, if_false]

/-- A write of pending INTx bits clears those written with 1, and the wire deasserts when the last one clears (R474). -/
theorem doIntxClear_clears {k v : Nat} {m : BitVec 2048} (hpresent : present s r = true) (hpf : isVf r = false) (hk : k < 32)
    (hm : m = (s.fn r).intx &&& ~~~(BitVec.ofNat 2048 v <<< (64 * k))) :
    doIntxClear r k v s = if (s.fn r).intx ≠ 0#2048 ∧ m = 0#2048
      then emit (s.modFn r (fun f => { f with intx := m })) (.intx r false) else s.modFn r (fun f => { f with intx := m }) := by
  have there : ¬ ((!present s r) = true ∨ isVf r = true ∨ 32 ≤ k) := by simp [hpresent, hpf, hk]
  simp only [doIntxClear, there, if_false, hm]

theorem exec_msixUnmask_acts (hfree : heldBack s r 0 = false) (v : Nat) :
    exec (.msixUnmask r v) s = .next (doUnmask r v s) :=
  congrArg Host.Outcome.next (gated_of_free hfree _ _)

theorem exec_intxPendingClear_acts (hfree : heldBack s r 0 = false) (k : Nat) (value : BitVec 64) :
    exec (.intxPendingClear r k value) s = .next (doIntxClear r k value.toNat s) :=
  congrArg Host.Outcome.next (gated_of_free hfree _ _)

end

/-- Settles O47: each event by its report, each register write by its effect once the transom holds no shared write of its function. -/
theorem linksAndVectorsReport : Obligations.LinksAndVectorsReport := by
  unfold Obligations.LinksAndVectorsReport
  refine ⟨?timeout, ?poison, ?unexpected, ?l1, ?unmask, ?intx⟩
  case timeout =>
    intro fn s hfn
    exact ⟨exec_hostReadTimeout_reports hfn false, exec_hostReadTimeout_reports hfn true⟩
  case poison =>
    intro fn read s hfn
    refine ⟨?_, exec_poisonedTlp_reports hfn true true⟩
    rw [exec_poisonedTlp_reports hfn, Bool.and_false]
    rfl
  case unexpected =>
    intro fn s hfn
    simp only [exec_unexpectedCompletion, execUnexpectedCompletion, hfn, if_true, logUnexpected]
  case l1 =>
    rintro ep l s u ⟨hep, rfl, hon, hout⟩ rfl
    exact congrArg Host.Outcome.next (doL1_enters hep hon hout)
  case unmask =>
    rintro fn v s u ⟨hfree, hpresent, hv⟩ rfl
    rw [exec_msixUnmask_acts hfree, doUnmask_clears hpresent hv]
    exact ⟨fun hsend => congrArg Host.Outcome.next (if_pos hsend),
      fun hmasked => congrArg Host.Outcome.next (if_neg (Bool.eq_false_iff.1 hmasked))⟩
  case intx =>
    intro fn k value m s ⟨hfree, hpresent, hpf, hk⟩ hm
    rw [exec_intxPendingClear_acts hfree, doIntxClear_clears hpresent hpf hk hm]
    exact ⟨fun hset hclear => congrArg Host.Outcome.next (if_pos ⟨hset, hclear⟩),
      fun hleft => congrArg Host.Outcome.next (if_neg (fun h => hleft h.2))⟩

end Sys2Proof.Machine

/-! # Orphan sets and quotas (14): what adoption, discard and quota writes do, and the statement about them -/

namespace Sys2Proof.Machine

section
variable {s : State} {r n : Nat}

/-! ### Adoption and discard (R482 to R485) -/

/-- An action on the orphan set of a present, ACTIVE function is carried out (R485). -/
theorem orphanAct_runs (hpresent : present s r = true) (hset : (s.fn r).orphan.isSome = true) (hst : (s.fn r).st = .active)
    (act : State → State) : orphanAct s r act = act s := by
  have no_bar : ¬ ((!present s r) = true ∨ (s.fn r).orphan.isNone = true ∨ (s.fn r).st ≠ .active) := by
    simp [hpresent, hst, ← Option.not_isSome, hset]
  simp only [orphanAct, no_bar, if_false]

/-- Without an orphan set, or in another state, an action ends with 0x0B (R485). -/
theorem orphanAct_refused (hpresent : present s r = true) (h : (s.fn r).orphan = none ∨ (s.fn r).st ≠ .active)
    (act : State → State) : orphanAct s r act = orphanEnd s r 0x0B := by
  have barred : (!present s r) = true ∨ (s.fn r).orphan.isNone = true ∨ (s.fn r).st ≠ .active :=
    .inr (h.imp_left Option.isNone_iff_eq_none.2)
  exact (if_pos barred).trans (if_pos hpresent)

/-- The state in which the records of the orphaned ring pairs have been written (R482, Table 14-6). -/
def adoptWritten (s : State) (r : Nat) : State :=
  hostWrite s r ((s.fn r).orphanAddr / 64 * 64) ((orphanRings s r).flatMap (fun q => adoptRecord q.1 q.2))

/-- An adoption writes a record for each orphaned ring pair and reads its entry; entries that fail end it and pass nothing
(R482, R483). -/
theorem doAdopt_reads {reads : List HRead} (hpresent : present s r = true) (hset : (s.fn r).orphan.isSome = true)
    (hst : (s.fn r).st = .active) (hdir : (s.fn r).dirCommitted = true) (hrings : orphanRings s r ≠ []) :
    doAdopt r reads s = match adoptEntries (adoptWritten s r) r (orphanRings s r) reads with
      | .error n => orphanEnd (adoptWritten s r) r n
      | .ok es => orphanEnd ((es.foldl (fun t e => adoptRing t r e)
          (passObjects (adoptWritten s r) r (fun g => g != (s.fn r).gen) (s.fn r).gen)).modFn r (fun f => { f with orphan := none })) r 0 := by
  have some_rings : (orphanRings s r).isEmpty = false := List.isEmpty_eq_false_iff.2 hrings
  unfold doAdopt
  rw [orphanAct_runs hpresent hset hst]
  simp only [hdir, some_rings, Bool.not_true, Bool.false_eq_true, if_false]
  rfl

/-- Without a committed ring directory an adoption ends with 0x07 (R482). -/
theorem doAdopt_uncommitted {reads : List HRead} (hpresent : present s r = true) (hset : (s.fn r).orphan.isSome = true)
    (hst : (s.fn r).st = .active) (hdir : (s.fn r).dirCommitted = false) : doAdopt r reads s = orphanEnd s r 0x07 := by
  unfold doAdopt
  rw [orphanAct_runs hpresent hset hst]
  simp only [hdir, Bool.not_false, if_true]

theorem exec_orphanAdopt_acts (hfree : heldBack s r 0 = false) (reads : List HRead) :
    exec (.orphanAdopt r reads) s = .next (doAdopt r reads s) := congrArg Host.Outcome.next (gated_of_free hfree _ _)

theorem exec_orphanDiscard_acts (hfree : heldBack s r 0 = false) :
    exec (.orphanDiscard r) s = .next (orphanAct s r (fun s => orphanEnd (discardSet s r false) r 0)) :=
  congrArg Host.Outcome.next (gated_of_free hfree _ _)

/-! ### Quotas (R486, R493) -/

/-- What a write of one quota register makes of a VF's two (R493). -/
def quotaAfter (f : Fn) (second : Bool) (v : Nat) : BitVec 64 × BitVec 64 :=
  (if second then f.quotaA else BitVec.ofNat 64 (quotaNext true false f.quotaA.toNat v),
   if second then BitVec.ofNat 64 (quotaNext true true f.quotaB.toNat v) else f.quotaB)

/-- A write by a PF1 that changes a VF's quota is reported to the VF (R486). -/
theorem doQuota_changes {second : Bool} {v : Nat} {a b : BitVec 64} (hpresent : present s r = true) (hpf1 : isPf1 r = true)
    (hn : n < 256) (hok : quotaOk true second v = true) (hq : quotaAfter (s.fn (vf1Of (epOf r) n)) second v = (a, b))
    (hnew : a ≠ (s.fn (vf1Of (epOf r) n)).quotaA ∨ b ≠ (s.fn (vf1Of (epOf r) n)).quotaB) :
    doQuota r n second v s = postEvent (s.modFn (vf1Of (epOf r) n) (fun f => { f with quotaA := a, quotaB := b }))
      (vf1Of (epOf r) n) 0x0201 (vf1Of (epOf r) n) a.toNat := by
  have legal : ¬ ((!(isPf1 r || isPf2 r)) = true ∨ (!present s r) = true ∨ 256 ≤ n ∨ (!quotaOk (isPf1 r) second v) = true) := by
    simp [hpresent, hpf1, hn, hok]
  obtain ⟨ha, hb⟩ := Prod.mk.inj hq
  refine (if_neg legal).trans ?_
  simp only [hpf1, if_true, ha, hb, true_and, hnew]

/-- A write that is illegal, or of a function that owns no VFs, changes nothing (R493). -/
theorem doQuota_illegal {second : Bool} {v : Nat} (h : (isPf1 r || isPf2 r) = false ∨ present s r = false ∨ 256 ≤ n
    ∨ quotaOk (isPf1 r) second v = false) : doQuota r n second v s = s := by
  simp only [← Bool.not_eq_true'] at h
  exact if_pos h

theorem exec_vfQuotaWrite_acts (hfree : heldBack s r 0 = false) (second : Bool) (value : BitVec 64) :
    exec (.vfQuotaWrite r n second value) s = .next (doQuota r n second value.toNat s) :=
  congrArg Host.Outcome.next (gated_of_free hfree _ _)

end

/-- Settles O46: an adoption by what its entries give, a discard by `orphanAct`, a quota write by whether it is legal. -/
theorem orphansAreAdoptedOrDiscarded : Obligations.OrphansAreAdoptedOrDiscarded := by
  unfold Obligations.OrphansAreAdoptedOrDiscarded
  refine ⟨?adopts, ?badEntries, ?refused, ?uncommitted, ?discards, ?expires, ?quotaA, ?quotaB, ?illegal⟩
  case adopts =>
    rintro fn reads es s u ⟨hfree, hpresent, hset, hst, hdir⟩ hrings rfl hes
    rw [exec_orphanAdopt_acts hfree, doAdopt_reads hpresent hset hst hdir hrings, adoptWritten, hes]
  case badEntries =>
    rintro fn n reads s u ⟨hfree, hpresent, hset, hst, hdir⟩ hrings rfl hes
    rw [exec_orphanAdopt_acts hfree, doAdopt_reads hpresent hset hst hdir hrings, adoptWritten, hes]
  case refused =>
    intro fn reads s ⟨hfree, hpresent⟩ hnone
    rw [exec_orphanAdopt_acts hfree, exec_orphanDiscard_acts hfree, doAdopt, orphanAct_refused hpresent hnone,
      orphanAct_refused hpresent hnone]
    exact ⟨rfl, rfl⟩
  case uncommitted =>
    intro fn reads s ⟨hfree, hpresent, hset, hst, hdir⟩
    rw [exec_orphanAdopt_acts hfree, doAdopt_uncommitted hpresent hset hst hdir, orphanEnd]
  case discards =>
    intro fn s ⟨hfree, hpresent, hset, hst⟩
    rw [exec_orphanDiscard_acts hfree, orphanAct_runs hpresent hset hst, orphanEnd]
  case expires =>
    intro fn o s hset
    simp only [exec_orphanHoldExpiry, execOrphanHoldExpiry, doHoldExpiry, hset, msCycles, Nat.mul_assoc, Nat.reduceMul]
  case quotaA =>
    rintro pf n value q s ⟨hfree, hpresent, hpf1, hn, hok⟩ rfl hnew
    rw [exec_vfQuotaWrite_acts hfree, doQuota_changes hpresent hpf1 hn hok rfl (.inl hnew)]
    rfl
  case quotaB =>
    rintro pf n value q s ⟨hfree, hpresent, hpf1, hn, hok⟩ rfl hnew
    rw [exec_vfQuotaWrite_acts hfree, doQuota_changes hpresent hpf1 hn hok rfl (.inr hnew)]
    rfl
  case illegal =>
    intro pf n second value s hfree hillegal
    rw [exec_vfQuotaWrite_acts hfree, doQuota_illegal hillegal]

end Sys2Proof.Machine

/-! # Admin commands of NVMe controllers (13): what each does once its controller takes it up, and the statement about them -/

namespace Sys2Proof.Machine

section
variable {s t : State} {c q n : Nat} {m x : NvmCmd} {list : HRead}

/-! ### Identify and log pages (R440, R449) -/

theorem doIdentify_controller (hcns : fld (dw10 m) 0 8 = 1) : doIdentify list c m s = adminData s c m list (idCtrl c) :=
  if_pos hcns

theorem doIdentify_namespace {y : Nat × Namespace} (hcns : fld (dw10 m) 0 8 = 0) (hnsid : 1 ≤ nsidF m ∧ nsidF m ≤ 256)
    (hat : nsAt s c (nsidF m) = some y) : doIdentify list c m s = adminData s c m list (idNs y.2) := by
  have legal : ¬ (nsidF m = 0 ∨ 256 < nsidF m) := by omega
  simp [doIdentify, hcns, legal, hat]

theorem doIdentify_list (hcns : fld (dw10 m) 0 8 = 2) (hnsid : nsidF m < 0xFFFFFFFE) :
    doIdentify list c m s =
      adminData s c m list (fitB (((nsidsOf s c).filter (fun n => nsidF m < n)).flatMap (natLE 4)) 4096) := by
  simp [doIdentify, hcns, Nat.not_le.2 hnsid]

/-- A namespace is described by its identifier, or the command fails with Invalid Namespace where there is none (R440). -/
theorem doIdentify_descriptors (hcns : fld (dw10 m) 0 8 = 3) :
    doIdentify list c m s = (nsAt s c (nsidF m)).elim (endNvm s c m 0 0x0B)
      (fun y => adminData s c m list (fitB ([3#8, 16#8, 0#8, 0#8] ++ natLE 16 (Config.nsUuid y.1).toNat) 4096)) := by
  cases hat : nsAt s c (nsidF m) <;> simp [doIdentify, hcns, hat]

theorem doIdentify_other (hcns : 3 < fld (dw10 m) 0 8) : doIdentify list c m s = endNvm s c m 0 0x02 := by
  have not_zero : fld (dw10 m) 0 8 ≠ 0 := by omega
  have not_one : fld (dw10 m) 0 8 ≠ 1 := by omega
  have not_two : fld (dw10 m) 0 8 ≠ 2 := by omega
  have not_three : fld (dw10 m) 0 8 ≠ 3 := by omega
  simp only [doIdentify, not_zero, not_one, not_two, not_three, if_false]

/-- The Changed Namespace List goes to the host; a read that does not retain the event clears it and lets waiting events go
(R449). -/
theorem doGetLog_changed {u : State} (hlid : fld (dw10 m) 0 8 = 4)
    (hu : u = adminData s c m list (fitB ((s.ctl c).changed.flatMap (natLE 4)) (4 * (fld (dw10 m) 16 12 + 1)))) :
    doGetLog list c m s = if bitAt (dw10 m) 15 then u else
      deliverAsync 8 ((u.modCtl c (fun k => { k with changed := [] })).modCtl c
        (fun k => { k with masked := k.masked.filter (· != 4) })) c := by
  subst hu
  cases hretain : bitAt (dw10 m) 15 <;> simp [doGetLog, hlid, hretain]

theorem doGetLog_other (hlid : fld (dw10 m) 0 8 ≠ 1 ∧ fld (dw10 m) 0 8 ≠ 2 ∧ fld (dw10 m) 0 8 ≠ 4) :
    doGetLog list c m s = endNvm s c m 0 0x109 := by
  obtain ⟨not_one, not_two, not_four⟩ := hlid
  simp only [doGetLog, not_one, not_two, not_four, if_false]

/-! ### Features (R440, R441) -/

theorem no_feature {f : Nat} (h : [1, 6, 7, 8, 9, 11].contains f = false) :
    f ≠ 1 ∧ f ≠ 6 ∧ f ≠ 7 ∧ f ≠ 8 ∧ f ≠ 9 ∧ f ≠ 11 := by
  simpa using h

theorem doSetFeatures_none (h : [1, 6, 7, 8, 9, 11].contains (fld (dw10 m) 0 8) = false) :
    doSetFeatures c m s = endNvm s c m 0 0x02 := by
  simp only [doSetFeatures, h, Bool.not_false, if_true]

section
variable (hset : bitAt (dw10 m) 31 = false)
include hset

theorem doSetFeatures_cache (hf : fld (dw10 m) 0 8 = 6) :
    doSetFeatures c m s = endNvm (s.modCtl c (fun k => { k with vwc := bitAt (dw11 m) 0 })) c m 0 0 := by
  simp [doSetFeatures, hf, hset]

theorem doSetFeatures_events (hf : fld (dw10 m) 0 8 = 11) :
    doSetFeatures c m s = endNvm (s.modCtl c (fun k => { k with async := dw11 m })) c m 0 0 := by
  simp [doSetFeatures, hf, hset]

/-- Before I/O queues exist, a controller is allocated the lesser of the numbers asked for and its quota (R441). -/
theorem doSetFeatures_queues {a b : Nat} (hf : fld (dw10 m) 0 8 = 7) (hsq : fld (dw11 m) 0 16 ≠ 0xFFFF) (hcq : fld (dw11 m) 16 16 ≠ 0xFFFF)
    (hnone : (s.ctl c).sqs.length ≤ 1 ∧ (s.ctl c).cqs.length ≤ 1) (ha : a = min (fld (dw11 m) 0 16 + 1) (queueQuota s c))
    (hb : b = min (fld (dw11 m) 16 16 + 1) (queueQuota s c)) :
    doSetFeatures c m s =
      endNvm (s.modCtl c (fun k => { k with nsqs := some a, ncqs := some b })) c m (a - 1 + (b - 1) * 65536) 0 := by
  have legal : ¬ (fld (dw11 m) 0 16 = 0xFFFF ∨ fld (dw11 m) 16 16 = 0xFFFF) := not_or.2 ⟨hsq, hcq⟩
  have no_queues : ¬ ((s.ctl c).sqs.length > 1 ∨ (s.ctl c).cqs.length > 1) := by omega
  simp [doSetFeatures, hf, hset, legal, no_queues, ha, hb]

end

theorem doGetFeatures_cache (hf : fld (dw10 m) 0 8 = 6) : doGetFeatures c m s = endNvm s c m (b2n (s.ctl c).vwc) 0 := by
  simp [doGetFeatures, hf]

theorem doGetFeatures_queues (hf : fld (dw10 m) 0 8 = 7) :
    doGetFeatures c m s = endNvm s c m (sqAlloc s c - 1 + (cqAlloc s c - 1) * 65536) 0 := by
  simp [doGetFeatures, hf]

theorem doGetFeatures_events (hf : fld (dw10 m) 0 8 = 11) : doGetFeatures c m s = endNvm s c m (s.ctl c).async 0 := by
  simp [doGetFeatures, hf]

theorem doGetFeatures_none (h : [1, 6, 7, 8, 9, 11].contains (fld (dw10 m) 0 8) = false) :
    doGetFeatures c m s = endNvm s c m 0 0x02 := by
  obtain ⟨h1, h6, h7, h8, h9, h11⟩ := no_feature h
  simp only [doGetFeatures, h1, h6, h7, h8, h9, h11, if_false]

/-! ### I/O queues (R441) -/

/-- The number of a queue to create is one that the controller has been allocated and does not use. -/
def FreeQueue (q alloc : Nat) (used : Bool) : Prop := q ≠ 0 ∧ q ≤ alloc ∧ used = false

theorem FreeQueue.not_refused {alloc : Nat} {used : Bool} (h : FreeQueue q alloc used) : ¬ (q = 0 ∨ alloc < q ∨ used = true) := by
  obtain ⟨hq, hle, rfl⟩ := h
  simp [hq, hle]

theorem doCreateCq_refused (hq : q = fld (dw10 m) 0 16)
    (h : q = 0 ∨ cqAlloc s c < q ∨ (oget (s.ctl c).cqs q).isSome = true) : doCreateCq c m s = endNvm s c m 0 0x101 := by
  subst hq
  exact if_pos h

theorem doCreateCq_long (hq : q = fld (dw10 m) 0 16) (hfree : FreeQueue q (cqAlloc s c) (oget (s.ctl c).cqs q).isSome)
    (hn : 4096 < fld (dw10 m) 16 16 + 1) : doCreateCq c m s = endNvm s c m 0 0x102 := by
  subst hq
  exact (if_neg hfree.not_refused).trans (if_pos (.inr hn))

/-- A completion queue of 2 to 4,096 entries, contiguous and on a page, with a vector of the function, is created (R441). -/
theorem doCreateCq_creates (hq : q = fld (dw10 m) 0 16) (hn : n = fld (dw10 m) 16 16 + 1)
    (hfree : FreeQueue q (cqAlloc s c) (oget (s.ctl c).cqs q).isSome) (hsize : 2 ≤ n ∧ n ≤ 4096)
    (hcont : bitAt (dw11 m) 0 = true) (hpage : fld m.sqe 192 64 % 4096 = 0) (hiv : fld (dw11 m) 16 16 < vectorsOf (rankOf c)) :
    doCreateCq c m s = endNvm (s.modCtl c (fun k => { k with
      cqs := oput k.cqs q { base := fld m.sqe 192 64, size := n, ien := bitAt (dw11 m) 1, iv := fld (dw11 m) 16 16 } })) c m 0 0 := by
  subst hq hn
  have size_legal : ¬ (fld (dw10 m) 16 16 + 1 < 2 ∨ 4096 < fld (dw10 m) 16 16 + 1) := by omega
  simp only [doCreateCq, hfree.not_refused, size_legal, hcont, hpage, Nat.not_le.2 hiv, if_false, Bool.not_true, Bool.false_eq_true,
    ne_eq, not_true_eq_false]

theorem doCreateSq_refused (hq : q = fld (dw10 m) 0 16)
    (h : q = 0 ∨ sqAlloc s c < q ∨ (oget (s.ctl c).sqs q).isSome = true) : doCreateSq c m s = endNvm s c m 0 0x101 := by
  subst hq
  exact if_pos h

theorem doCreateSq_long (hq : q = fld (dw10 m) 0 16) (hfree : FreeQueue q (sqAlloc s c) (oget (s.ctl c).sqs q).isSome)
    (hn : 4096 < fld (dw10 m) 16 16 + 1) : doCreateSq c m s = endNvm s c m 0 0x102 := by
  subst hq
  exact (if_neg hfree.not_refused).trans (if_pos (.inr hn))

/-- A submission queue of 2 to 4,096 entries, contiguous and on a page, is created on an I/O completion queue (R441). -/
theorem doCreateSq_creates (hq : q = fld (dw10 m) 0 16) (hn : n = fld (dw10 m) 16 16 + 1)
    (hfree : FreeQueue q (sqAlloc s c) (oget (s.ctl c).sqs q).isSome) (hsize : 2 ≤ n ∧ n ≤ 4096)
    (hcont : bitAt (dw11 m) 0 = true) (hpage : fld m.sqe 192 64 % 4096 = 0) (hio : fld (dw11 m) 16 16 ≠ 0)
    (hcq : (oget (s.ctl c).cqs (fld (dw11 m) 16 16)).isSome = true) :
    doCreateSq c m s = endNvm (s.modCtl c (fun k => { k with
      sqs := oput k.sqs q { base := fld m.sqe 192 64, size := n, cq := fld (dw11 m) 16 16 } })) c m 0 0 := by
  subst hq hn
  have size_legal : ¬ (fld (dw10 m) 16 16 + 1 < 2 ∨ 4096 < fld (dw10 m) 16 16 + 1) := by omega
  have cq_there : ¬ (fld (dw11 m) 16 16 = 0 ∨ (oget (s.ctl c).cqs (fld (dw11 m) 16 16)).isNone = true) := by
    simp [hio, ← Option.not_isSome, hcq]
  simp only [doCreateSq, hfree.not_refused, size_legal, cq_there, hcont, hpage, if_false, Bool.not_true, Bool.false_eq_true,
    ne_eq, not_true_eq_false]

/-- A deleted submission queue's commands end with Command Aborted due to SQ Deletion (R441; DESIGN CHOICE, log 14). -/
theorem doDeleteSq_deletes (hq : q = fld (dw10 m) 0 16) (hio : q ≠ 0) (hthere : (oget (s.ctl c).sqs q).isSome = true) :
    doDeleteSq c m s = settleSto (endNvm ((((s.ctl c).cmds.filter (fun x => x.sq == q)).foldl (fun s x => endNvm s c x 0 0x08) s).modCtl c
      (fun k => { k with sqs := odel k.sqs q })) c m 0 0) := by
  subst hq
  have there : ¬ (fld (dw10 m) 0 16 = 0 ∨ (oget (s.ctl c).sqs (fld (dw10 m) 0 16)).isNone = true) := by
    simp [hio, ← Option.not_isSome, hthere]
  exact if_neg there

theorem doDeleteSq_none (hq : q = fld (dw10 m) 0 16) (h : q = 0 ∨ oget (s.ctl c).sqs q = none) :
    doDeleteSq c m s = endNvm s c m 0 0x101 := by
  subst hq
  exact if_pos (h.imp_right Option.isNone_iff_eq_none.2)

/-- A completion queue is deleted unless a submission queue still posts to it (R441). -/
theorem doDeleteCq_there (hq : q = fld (dw10 m) 0 16) (hio : q ≠ 0) (hthere : (oget (s.ctl c).cqs q).isSome = true) :
    doDeleteCq c m s = if (s.ctl c).sqs.any (fun p => p.2.cq == q) then endNvm s c m 0 0x10C
      else endNvm (s.modCtl c (fun k => { k with cqs := odel k.cqs q })) c m 0 0 := by
  subst hq
  have there : ¬ (fld (dw10 m) 0 16 = 0 ∨ (oget (s.ctl c).cqs (fld (dw10 m) 0 16)).isNone = true) := by
    simp [hio, ← Option.not_isSome, hthere]
  exact if_neg there

/-! ### Abort and event requests (R456, R457) -/

/-- The controller keeps the identifier that an Abort named while the Abort's completion waits (R457). -/
def keepAbort (m : NvmCmd) (q : Nat) (k : Ctrl) : Ctrl :=
  let waits (a : Nat × Nat × Nat) : Bool := k.cqs.any (fun p => p.2.waiting.any (fun w => w.2.1 == 0 && w.2.2.1 == a.1))
  { k with aborts := (k.aborts ++ [(m.cid, q, fld (dw10 m) 16 16)]).filter waits }

theorem doNvmeAbort_keeps (hq : q = fld (dw10 m) 0 16) (h : abortOutcome c m s = t) :
    doNvmeAbort c m s = t.modCtl c (keepAbort m q) := by
  subst hq h
  rfl

/-- The command that an Abort names. -/
def Aborts (s : State) (c q : Nat) (m : NvmCmd) (x : Option NvmCmd) : Prop :=
  q = fld (dw10 m) 0 16 ∧ (s.ctl c).cmds.find? (fun x => x.sq == q && x.cid == fld (dw10 m) 16 16) = x

theorem abortOutcome_none (h : Aborts s c q m none) : abortOutcome c m s = endNvm s c m 1 0 := by
  obtain ⟨rfl, hfind⟩ := h
  simp only [abortOutcome, hfind]

/-- A started I/O command, or an admin command that waits for no event, is not aborted (R456). -/
theorem abortOutcome_late (h : Aborts s c q m (some x))
    (hlate : (q ≠ 0 ∧ x.started = true) ∨ (q = 0 ∧ fld x.sqe 0 8 ≠ 0x0C)) : abortOutcome c m s = endNvm s c m 1 0 := by
  obtain ⟨rfl, hfind⟩ := h
  rcases hlate with ⟨hio, hstarted⟩ | ⟨hadmin, hop⟩
  · simp only [abortOutcome, hfind, hio, hstarted, if_false, if_true]
  · rw [hadmin] at hfind
    simp only [abortOutcome, hadmin, hfind, hop, if_false, if_true]

/-- An event request that waits ends with Command Abort Requested (R456). -/
theorem abortOutcome_request (h : Aborts s c q m (some x)) (hadmin : q = 0) (hop : fld x.sqe 0 8 = 0x0C) :
    abortOutcome c m s = endNvm (endNvm s c x 0 0x07) c m 0 0 := by
  obtain ⟨rfl, hfind⟩ := h
  rw [hadmin] at hfind
  simp only [abortOutcome, hadmin, hfind, hop, if_true]

/-- Without the backend commands of a command that is aborted, and with the abort counted at its tile (R456, R462). -/
def stripped (s : State) (c : Nat) (x : NvmCmd) (tile : Nat) : State :=
  (s.modSto (fun z => { z with
    backends := z.backends.map (fun p => (p.1, { p.2 with cmds := p.2.cmds.filter (fun b => b.who != .host c x.no) })) })).modSto
    (fun z => { z with tiles := mset z.tiles tile { mget z.tiles tile {} with aborted := satAdd 32 (mget z.tiles tile {}).aborted 1 } {} })

/-- An I/O command that has not started does not start and ends with Command Abort Requested (R456). -/
theorem abortOutcome_waiting {tile : Nat} (h : Aborts s c q m (some x)) (hio : q ≠ 0) (hwaits : x.started = false)
    (htile : (s.ctl c).tile = some tile) :
    abortOutcome c m s = settleSto (endNvm (endNvm (stripped s c x tile) c x 0 0x07) c m 0 0) := by
  obtain ⟨rfl, hfind⟩ := h
  simp only [abortOutcome, hfind, hio, hwaits, htile, if_false, Bool.false_eq_true]
  rfl

/-- Without an event nothing is reported. -/
theorem deliverAsync_quiet (h : (s.ctl c).events = []) (k : Nat) : deliverAsync k s c = s := by
  cases k with
  | zero => rfl
  | succ k => simp only [deliverAsync, h, List.find?_nil]

end

/-- An admin command at the head of its queue does what its effect does (`onNvm_starts`). -/
theorem admin_acts {s u v : State} {r op c : Nat} {m m1 : NvmCmd} (h : NvmStarts s r 0 op c m m1 u)
    {eff : Nat → NvmCmd → State → State} (heff : eff c m1 u = v) :
    Host.Outcome.next (φ := Fault) (ρ := Refusal) (onNvm s r 0 op eff) = .next v :=
  congrArg _ ((onNvm_starts h eff).trans heff)

/-- Settles O41: each admin command by the lemmas about its effect, once `admin_acts` has it taken up. -/
theorem adminCommandsComplete : Obligations.AdminCommandsComplete := by
  unfold Obligations.AdminCommandsComplete
  refine ⟨?identify, ?getLog, ?setFeatures, ?getFeatures, ?createCq, ?createSq, ?deleteSq, ?deleteCq, ?abort, ?request⟩
  case identify =>
    intro r c m m1 list s u h
    refine ⟨fun hcns => ?_, fun y ⟨hcns, hlo, hhi, hat⟩ => ?_, fun ⟨hcns, hnsid⟩ => ?_, fun ⟨hcns, hat⟩ => ?_,
      fun y ⟨hcns, hat⟩ => ?_, fun hcns => ?_⟩
    · exact admin_acts h (doIdentify_controller hcns)
    · exact admin_acts h (doIdentify_namespace hcns ⟨hlo, hhi⟩ hat)
    · exact admin_acts h (doIdentify_list hcns hnsid)
    · exact admin_acts h ((doIdentify_descriptors hcns).trans (by rw [hat, Option.elim_none]))
    · exact admin_acts h ((doIdentify_descriptors hcns).trans (by rw [hat, Option.elim_some]))
    · exact admin_acts h (doIdentify_other hcns)
  case getLog =>
    intro r c m m1 list s u h
    refine ⟨fun ⟨hlid, hretain⟩ => ?_, fun ⟨hlid, hclear⟩ => ?_, fun hlid => ?_⟩
    · exact admin_acts h ((doGetLog_changed hlid rfl).trans (if_pos hretain))
    · exact admin_acts h ((doGetLog_changed hlid rfl).trans (if_neg (Bool.eq_false_iff.1 hclear)))
    · exact admin_acts h (doGetLog_other hlid)
  case setFeatures =>
    intro r c m m1 s u h hset
    refine ⟨fun hf => ?_, fun hf => ?_, fun ⟨hf, hsq, hcq, hnone⟩ => ?_, fun hf => ?_⟩
    · exact admin_acts h (doSetFeatures_cache hset hf)
    · exact admin_acts h (doSetFeatures_events hset hf)
    · exact admin_acts h (doSetFeatures_queues hset hf hsq hcq hnone rfl rfl)
    · exact admin_acts h (doSetFeatures_none hf)
  case getFeatures =>
    intro r c m m1 s u h
    exact ⟨fun hf => admin_acts h (doGetFeatures_cache hf), fun hf => admin_acts h (doGetFeatures_queues hf),
      fun hf => admin_acts h (doGetFeatures_events hf), fun hf => admin_acts h (doGetFeatures_none hf)⟩
  case createCq =>
    rintro r c q n p m m1 s u h ⟨hq, rfl, rfl⟩
    refine ⟨fun ⟨hio, hle, hfree, hlo, hhi, hcont, hpage, hiv⟩ => ?_, fun hbad => ?_, fun ⟨hio, hle, hfree, hlong⟩ => ?_⟩
    · exact admin_acts h (doCreateCq_creates hq rfl ⟨hio, hle, by rw [hfree]; rfl⟩ ⟨hlo, hhi⟩ hcont hpage hiv)
    · exact admin_acts h (doCreateCq_refused hq hbad)
    · exact admin_acts h (doCreateCq_long hq ⟨hio, hle, by rw [hfree]; rfl⟩ hlong)
  case createSq =>
    rintro r c q n p m m1 s u h ⟨hq, rfl, rfl⟩
    refine ⟨fun ⟨hio, hle, hfree, hlo, hhi, hcont, hpage, hcq0, hcq⟩ => ?_, fun hbad => ?_, fun ⟨hio, hle, hfree, hlong⟩ => ?_⟩
    · exact admin_acts h (doCreateSq_creates hq rfl ⟨hio, hle, by rw [hfree]; rfl⟩ ⟨hlo, hhi⟩ hcont hpage hcq0 hcq)
    · exact admin_acts h (doCreateSq_refused hq hbad)
    · exact admin_acts h (doCreateSq_long hq ⟨hio, hle, by rw [hfree]; rfl⟩ hlong)
  case deleteSq =>
    intro r c q m m1 s u h hq
    exact ⟨fun ⟨hio, hthere⟩ => admin_acts h (doDeleteSq_deletes hq hio hthere), fun hnone => admin_acts h (doDeleteSq_none hq hnone)⟩
  case deleteCq =>
    intro r c q m m1 s u h hq
    refine ⟨fun ⟨hio, hthere, hunused⟩ => ?_, fun ⟨hio, hthere, hused⟩ => ?_⟩
    · exact admin_acts h ((doDeleteCq_there hq hio hthere).trans (if_neg (Bool.eq_false_iff.1 hunused)))
    · exact admin_acts h ((doDeleteCq_there hq hio hthere).trans (if_pos hused))
  case abort =>
    intro r c q m m1 s u h hq
    refine ⟨fun hnone => ?_, fun x ⟨hx, hlate⟩ => ?_, fun x ⟨hx, hadmin, hop⟩ => ?_, ?_⟩
    · exact admin_acts h (doNvmeAbort_keeps hq (abortOutcome_none ⟨hq, hnone⟩))
    · exact admin_acts h (doNvmeAbort_keeps hq (abortOutcome_late ⟨hq, hx⟩ hlate))
    · exact admin_acts h (doNvmeAbort_keeps hq (abortOutcome_request ⟨hq, hx⟩ hadmin hop))
    · rintro x t v ⟨hx, hio, hwaits, htile, rfl⟩
      exact admin_acts h (doNvmeAbort_keeps hq (abortOutcome_waiting ⟨hq, hx⟩ hio hwaits htile))
  case request =>
    intro r c m m1 s u h
    exact ⟨admin_acts h rfl, fun hquiet => admin_acts h (deliverAsync_quiet hquiet 8)⟩

end Sys2Proof.Machine

/-! # Controllers (13): enable, doorbells and shutdown, and the statement about them -/

namespace Sys2Proof.Machine

section
variable {s : State} {r c q : Nat}

/-- A controller that is ready after a change reads back as changed. -/
theorem ctl_modCtl_ready (f : Ctrl → Ctrl) (hrdy : (f (s.ctl c)).rdy = true) : (s.modCtl c f).ctl c = f (s.ctl c) :=
  mget_mset_self s.sto.ctrls c (fun hdefault => by rw [hdefault] at hrdy; cases hrdy)

/-! ### CC.EN (R442, R476, R478) -/

/-- CC.EN goes from 0 to 1 on a controller of the function (R442). -/
def Enables (s : State) (r c cc : Nat) : Prop := ctrlOf r = some c ∧ bitAt (s.ctl c).cc 0 = false ∧ bitAt cc 0 = true

/-- An enable acts by the state of its function: CLEAN starts, DRAINING is armed, OFF waits for stage 4 (Table 14-4, R541). -/
theorem doCcSet_enables {cc : Nat} (h : Enables s r c cc) :
    doCcSet r cc s =
      if (s.fn r).st = .clean then
        ctrlStart ((s.modFn r (fun f => { f with st := .active, gen := nextGen f.gen })).modCtl c (fun k => { k with cc := cc })) c
      else if (s.fn r).st = .draining then
        (s.modFn r (fun f => { f with rearm := true })).modCtl c (fun k => { k with cc := cc })
      else if (s.fn r).st = .off ∧ s.power.stage < 4 then
        (s.modFn r (fun f => { f with waitEnable := true })).modCtl c (fun k => { k with cc := cc })
      else s := by
  obtain ⟨hctrl, hoff, hon⟩ := h
  simp only [doCcSet, hctrl, hoff, hon, Bool.not_true, Bool.or_self, Bool.false_eq_true, if_false]

/-- CC.EN from 1 to 0 withdraws an enable that waits, and shuts a function that runs down with cause 9 (R478). -/
theorem doCcClear_disables (reads : Bool) (hctrl : ctrlOf r = some c) (hon : bitAt (s.ctl c).cc 0 = true) :
    doCcClear r reads s =
      if (s.fn r).st = .off then (s.modCtl c (fun k => { k with cc := setFld k.cc 0 1 0 })).modFn r (fun f => { f with waitEnable := false })
      else if (s.fn r).st = .draining then
        (s.modCtl c (fun k => { k with cc := setFld k.cc 0 1 0 })).modFn r (fun f => { f with rearm := false })
      else shutDown (s.modCtl c (fun k => { k with cc := setFld k.cc 0 1 0 })) r 9 reads := by
  simp only [doCcClear, hctrl, hon, Bool.not_true, Bool.false_eq_true, if_false]

/-! ### Doorbells (R442, R487) -/

/-- A function's controller is ready, so that its doorbells act. -/
def Ready (s : State) (r c : Nat) : Prop := ctrlOf r = some c ∧ (s.ctl c).rdy = true

/-- The state in which a submission queue has its new tail, and the entries up to it have been read but not taken. -/
def tailMoved (s : State) (c q tail : Nat) (read : HRead) : State :=
  s.modCtl c (fun k => { k with sqs := omod k.sqs q (fun x => { x with tail := tail, late := some read }) })

theorem doSqTail_moves {tail : Nat} {x : NvmSq} (h : Ready s r c) (hx : oget (s.ctl c).sqs q = some x) (htail : tail < x.size)
    (read : HRead) :
    doSqTail r q tail read s =
      if ctrlFetches s r (s.ctl c) q then fetchTo (tailMoved s c q tail read) c q read else tailMoved s c q tail read := by
  obtain ⟨hctrl, hrdy⟩ := h
  simp only [doSqTail, hctrl, hrdy, hx, Nat.not_le.2 htail, Bool.not_true, Bool.false_eq_true, if_false]
  rfl

/-- A tail beyond its queue is an event (R439). -/
theorem doSqTail_beyond {tail : Nat} {x : NvmSq} (h : Ready s r c) (hx : oget (s.ctl c).sqs q = some x) (htail : x.size ≤ tail)
    (read : HRead) : doSqTail r q tail read s = asyncEvent s c 0x010100 := by
  obtain ⟨hctrl, hrdy⟩ := h
  simp only [doSqTail, hctrl, hrdy, hx, htail, Bool.not_true, Bool.false_eq_true, if_false, if_true]

/-- The controller of a function that runs, and is not being frozen, fetches while its tile is AVAILABLE (R442, R487). -/
theorem ctrlFetches_onTile {t : Nat} (hrdy : (s.ctl c).rdy = true) (hst : (s.fn r).st = .active) (hthaw : (s.fn r).freeze = none)
    (htile : (s.ctl c).tile = some t) : ctrlFetches s r (s.ctl c) q = (stoState s t == 1) := by
  simp only [ctrlFetches, hrdy, hst, hthaw, htile, beq_self_eq_true, Option.isNone_none, Bool.and_self, Bool.true_and]

/-- The entries between head and new tail are fetched, in their order (R442). -/
theorem fetchTo_tailMoved {tail : Nat} {x : NvmSq} {bs : List Byte} (hrdy : (s.ctl c).rdy = true) (hx : oget (s.ctl c).sqs q = some x) :
    fetchTo (tailMoved s c q tail (.ok bs)) c q (.ok bs) =
      (entries64 ((tail + x.size - x.head) % x.size) bs).foldl (fetchNvm c q)
        ((tailMoved s c q tail (.ok bs)).modCtl c (fun k => { k with sqs := omod k.sqs q (fun x => { x with late := none }) })) := by
  have moved : oget ((tailMoved s c q tail (.ok bs)).ctl c).sqs q = some { x with tail := tail, late := some (.ok bs) } := by
    rw [tailMoved, ctl_modCtl_ready _ hrdy, oget_omod, hx, Option.map_some]
  simp only [fetchTo, moved]

/-- A head within its queue frees entries: what waited is written, and a freeze that waited for it may end (R442, R487). -/
theorem doCqHead_moves {head : Nat} {x : NvmCq} {u : State} (h : Ready s r c) (hx : oget (s.ctl c).cqs q = some x) (hhead : head < x.size)
    (hu : u = drainNvm (x.waiting.length + 1) (s.modCtl c (fun k => { k with cqs := omod k.cqs q (fun e => { e with head := head }) })) c q) :
    doCqHead r q head s = checkFreezeNvm u c (u.ctl c) := by
  obtain ⟨hctrl, hrdy⟩ := h
  simp only [doCqHead, hctrl, hrdy, hx, Nat.not_le.2 hhead, Bool.not_true, Bool.false_eq_true, if_false, ← hu]

/-- A head beyond its queue is an event (R439). -/
theorem doCqHead_beyond {head : Nat} {x : NvmCq} (h : Ready s r c) (hx : oget (s.ctl c).cqs q = some x) (hhead : x.size ≤ head) :
    doCqHead r q head s = asyncEvent s c 0x010100 := by
  obtain ⟨hctrl, hrdy⟩ := h
  simp only [doCqHead, hctrl, hrdy, hx, hhead, Bool.not_true, Bool.false_eq_true, if_false, if_true]

/-! ### Shutdown (R453) -/

theorem doShutdown_abrupt (h : Ready s r c) :
    doShutdown r 2 s = (s.modCtl c (fun k => { k with cc := setFld k.cc 14 2 2 })).modCtl c (fun k => { k with shst := 2 }) := by
  obtain ⟨hctrl, hrdy⟩ := h
  simp only [doShutdown, hctrl, hrdy, Bool.not_true, Bool.false_eq_true, if_false, if_true]

/-- The pseudo-command that a normal shutdown is: it flushes every attached namespace (R453). -/
def shutdownCmd (s : State) (c : Nat) : NvmCmd := { no := (s.ctl c).cmdNo + 1, sq := shnQueue, begun := true }

theorem doShutdown_normal (h : Ready s r c) (hfirst : (s.ctl c).shst = 0) :
    doShutdown r 1 s = beginFlush ((s.modCtl c (fun k => { k with cc := setFld k.cc 14 2 1 })).modCtl c
      (fun k => { k with shst := 1, cmdNo := k.cmdNo + 1, cmds := k.cmds ++ [shutdownCmd s c] })) c (shutdownCmd s c) (attachedTo s c) := by
  obtain ⟨hctrl, hrdy⟩ := h
  simp only [doShutdown, hctrl, hrdy, hfirst, Bool.not_true, Bool.false_eq_true, if_false, OfNat.one_ne_ofNat, and_self, if_true]
  rfl

end

/-- A write of a register of a function with a controller acts at once while the transom holds no shared write of the function. -/
theorem gated_acts {s t : State} {r : Nat} {i : Instr} {act : State → State} (hfree : heldBack s r 0 = false) (hact : act s = t) :
    Host.Outcome.next (φ := Fault) (ρ := Refusal) (gated r i act s) = .next t :=
  congrArg _ ((gated_of_free hfree i act).trans hact)

/-- Settles O43: each register write by the lemma about it, once `gated_acts` lets it act. -/
theorem doorbellsEnableAndShutdown : Obligations.DoorbellsEnableAndShutdown := by
  unfold Obligations.DoorbellsEnableAndShutdown
  refine ⟨?enable, ?disable, ?tail, ?head, ?shutdown⟩
  case enable =>
    intro r c cc s ⟨hfree, hctrl, hoff, hon⟩
    have enables := doCcSet_enables ⟨hctrl, hoff, hon⟩
    refine ⟨fun hst => gated_acts hfree (enables.trans ?_), fun hst => gated_acts hfree (enables.trans ?_),
      fun ⟨hst, hstage⟩ => gated_acts hfree (enables.trans ?_)⟩
    · rw [if_pos hst]
    · rw [if_neg (hst ▸ nofun), if_pos hst]
    · rw [if_neg (hst ▸ nofun), if_neg (hst ▸ nofun), if_pos ⟨hst, hstage⟩]
  case disable =>
    intro r c reads s ⟨hfree, hctrl, hon⟩
    have disables := doCcClear_disables reads hctrl hon
    refine ⟨fun hst => gated_acts hfree (disables.trans ?_), fun hst => gated_acts hfree (disables.trans ?_),
      fun ⟨hoff, hdraining⟩ => gated_acts hfree (disables.trans ?_)⟩
    · rw [if_pos hst]
    · rw [if_neg (hst ▸ nofun), if_pos hst]
    · rw [if_neg hoff, if_neg hdraining]
  case tail =>
    rintro r c q tail t x bs s u ⟨hfree, hctrl, hrdy, hx⟩ rfl ⟨hst, hthaw, htile⟩
    have moves (htail : tail < x.size) := doSqTail_moves ⟨hctrl, hrdy⟩ hx htail (.ok bs)
    rw [ctrlFetches_onTile hrdy hst hthaw htile] at moves
    refine ⟨fun ⟨htail, havail⟩ => gated_acts hfree ((moves htail).trans ?_),
      fun ⟨htail, hclosed⟩ => gated_acts hfree ((moves htail).trans ?_),
      fun hbeyond => gated_acts hfree (doSqTail_beyond ⟨hctrl, hrdy⟩ hx hbeyond _)⟩
    · rw [if_pos (beq_iff_eq.2 havail), fetchTo_tailMoved hrdy hx, tailMoved]
    · rw [if_neg (fun h => hclosed (beq_iff_eq.1 h)), tailMoved]
  case head =>
    intro r c q head x s u ⟨hfree, hctrl, hrdy, hx⟩ hu
    exact ⟨fun hhead => gated_acts hfree (doCqHead_moves ⟨hctrl, hrdy⟩ hx hhead hu),
      fun hbeyond => gated_acts hfree (doCqHead_beyond ⟨hctrl, hrdy⟩ hx hbeyond)⟩
  case shutdown =>
    intro r c s ⟨hfree, hctrl, hrdy⟩
    exact ⟨gated_acts hfree (doShutdown_abrupt ⟨hctrl, hrdy⟩),
      fun hfirst => gated_acts hfree (doShutdown_normal ⟨hctrl, hrdy⟩ hfirst)⟩

end Sys2Proof.Machine

/-! # Backends and namespaces (13): what the commands of a STORAGE_BACKEND ring and their events do, and the statement about them -/

namespace Sys2Proof.Machine

section
variable {s u : State} {r b n d : Nat} {k : Backend} {x : Namespace} {ref : DRef} {bs : List Byte}

/-! ### The backend or namespace of a command (R459) -/

theorem withBack_own (hk : backAt s b = some k) (hown : owns s r k.own = true) (act : Backend → CmdRes) :
    withBack s r b act = act k := by
  simp only [withBack, hk, hown, if_true]

theorem withBack_none (hk : backAt s b = none) (act : Backend → CmdRes) : withBack s r b act = bad s 0x80 := by
  simp only [withBack, hk]

theorem withBack_foreign (hk : backAt s b = some k) (hown : owns s r k.own = false) (act : Backend → CmdRes) :
    withBack s r b act = bad s 0x02 := by
  simp only [withBack, hk, hown, Bool.false_eq_true, if_false]

theorem withNs_own (hx : oget s.sto.nss n = some x) (hown : owns s r x.own = true) (act : Namespace → CmdRes) :
    withNs s r n act = act x := by
  simp only [withNs, hx, hown, if_true]

theorem withNs_none (hx : oget s.sto.nss n = none) (act : Namespace → CmdRes) : withNs s r n act = bad s 0x81 := by
  simp only [withNs, hx]

theorem withNs_foreign (hx : oget s.sto.nss n = some x) (hown : owns s r x.own = false) (act : Namespace → CmdRes) :
    withNs s r n act = bad s 0x02 := by
  simp only [withNs, hx, hown, Bool.false_eq_true, if_false]

/-! ### Backends are created (R443, R444, R460) -/

/-- A BACKEND_CREATE has read its record `bs`, and `b` is the lowest free backend (R443). -/
def ReadsRecord (s : State) (r d b : Nat) (bs : List Byte) : Prop :=
  fld d 128 64 % 64 = 0 ∧ rdHost s r 1024 (.ok bs) = (0, bs) ∧ lowestFree s.sto.backends 0 256 = some b

/-- A record of a range of stack memory: whole 2 MiB frames of 512 to 2^24 blocks (R443). -/
def StackRecord (v : Nat) : Prop :=
  recReserved v = false ∧ fld v 0 2 = 2 ∧ fld v 64 64 % 2 ^ 21 = 0 ∧ spaceOf (fld v 64 64) = 0
  ∧ 512 ≤ fld v 128 64 ∧ fld v 128 64 ≤ 2 ^ 24

/-- A STACK backend over memory that nothing else uses is READY at once, and reports its index and its blocks (R443). -/
theorem backendCreate_stack (hread : ReadsRecord s r d b bs) (hrec : StackRecord (leNat bs)) :
    backendCreate r d (.ok bs) ref s =
      if rangeRefused s (fld (leNat bs) 64 64) (fld (leNat bs) 128 64 * 4096) then bad s 0x02
      else (s.modSto (fun x => { x with
        backends := oput x.backends b { own := s.ownOf r, record := bs, base := fld (leNat bs) 64 64, blocks := fld (leNat bs) 128 64, st := .ready } }),
        some (0, b, fld (leNat bs) 128 64)) := by
  obtain ⟨haddr, hhost, hfree⟩ := hread
  obtain ⟨hres, hkind, halign, hspace, hlo, hhi⟩ := hrec
  have legal : ¬ (fld (leNat bs) 64 64 % 2 ^ 21 ≠ 0 ∨ spaceOf (fld (leNat bs) 64 64) ≠ 0 ∨ fld (leNat bs) 128 64 < 512
      ∨ 2 ^ 24 < fld (leNat bs) 128 64) := by
    rintro (hbad | hbad | hbad | hbad)
    · exact hbad halign
    · exact hbad hspace
    · exact Nat.not_lt.2 hlo hbad
    · exact Nat.not_lt.2 hhi hbad
  simp only [backendCreate, haddr, hhost, hfree, hres, hkind, legal, ne_eq, not_true_eq_false, Bool.false_eq_true, if_false, if_true]

/-- A record of a remote subsystem with `q` I/O queues (R444). -/
def RemoteRecord (v q : Nat) : Prop :=
  recReserved v = false ∧ fld v 0 2 = 1 ∧ q = fld v 8 5 ∧ 1 ≤ q ∧ q ≤ 16 ∧ 16 ≤ fld v 16 11 ∧ fld v 16 11 ≤ 1024
  ∧ 2 ≤ fld v 32 8 ∧ fld v 128 64 = 0 ∧ fld v (544 + 32 * q) (512 - 32 * q) = 0

/-- A REMOTE backend binds the queue pairs that its record names and begins its connection (R444). -/
theorem backendCreate_remote {q : Nat} (hread : ReadsRecord s r d b bs) (hrec : RemoteRecord (leNat bs) q)
    (hqps : qpsOk s r (recQps (leNat bs) q) = true) (hroom : tooManyBound s (recQps (leNat bs) q) = false)
    (hk : k = { own := s.ownOf r, remote := true, record := bs, queues := q, depth := fld (leNat bs) 16 11,
                kato := fld (leNat bs) 32 8, qps := recQps (leNat bs) q, ref := some ref }) :
    backendCreate r d (.ok bs) ref s =
      later (askNext (bindQps (s.modSto (fun x => { x with backends := oput x.backends b k })) (recQps (leNat bs) q) (backMark b)) b) := by
  obtain ⟨haddr, hhost, hfree⟩ := hread
  obtain ⟨hres, hkind, rfl, hq1, hq16, hd16, hd1024, hkato, hblocks, hrest⟩ := hrec
  have legal : ¬ (fld (leNat bs) 8 5 = 0 ∨ 16 < fld (leNat bs) 8 5 ∨ fld (leNat bs) 16 11 < 16 ∨ 1024 < fld (leNat bs) 16 11
      ∨ fld (leNat bs) 32 8 < 2 ∨ fld (leNat bs) 128 64 ≠ 0
      ∨ fld (leNat bs) (544 + 32 * fld (leNat bs) 8 5) (512 - 32 * fld (leNat bs) 8 5) ≠ 0) := by omega
  subst hk
  simp only [backendCreate, haddr, hhost, hfree, hres, hkind, legal, hqps, hroom, ne_eq, not_true_eq_false, Bool.not_true,
    Bool.false_eq_true, if_false, if_true, OfNat.one_ne_ofNat]

/-! ### Connections (R444, R445) -/

/-- A backend's connection is being made for a command that waits. -/
def Connects (s : State) (b : Nat) (k : Backend) : Prop := oget s.sto.backends b = some k ∧ k.ref.isSome = true

theorem doConnectStep_fails (h : Connects s b k) :
    doConnectStep b .down s = failConnect s b 0x85 0
    ∧ ∀ st, doConnectStep b (.failed st) s = failConnect s b 0x85 (st % 65536 * 65536) := by
  obtain ⟨hb, href⟩ := h
  have waits : k.ref.isNone = false := Option.isNone_eq_false_iff.2 href
  simp [doConnectStep, hb, waits]

/-- The exchange of a Connect, a Property Set or an Identify Controller ends: the next follows, or the connection is made
(R444). -/
theorem doConnectStep_next (h : Connects s b k) (hstep : k.step ≠ 2 ∧ k.step ≠ 4) :
    doConnectStep b (.ok bs) s =
      if k.step = 4 + k.queues then connected (s.modBack b (fun k => { k with step := k.step + 1 })) b k
      else askNext (s.modBack b (fun k => { k with step := k.step + 1 })) b := by
  obtain ⟨hb, href⟩ := h
  obtain ⟨not_two, not_four⟩ := hstep
  have waits : k.ref.isNone = false := Option.isNone_eq_false_iff.2 href
  simp only [doConnectStep, hb, waits, not_two, not_four, false_and, Bool.false_eq_true, if_false]
  rfl

/-- A controller that is not ready yet is asked again (R444). -/
theorem doConnectStep_again (h : Connects s b k) (hstep : k.step = 2) (hbusy : bitAt (leNat bs) 0 = false) :
    doConnectStep b (.ok bs) s = askNext s b := by
  obtain ⟨hb, href⟩ := h
  have waits : k.ref.isNone = false := Option.isNone_eq_false_iff.2 href
  simp only [doConnectStep, hb, waits, hstep, hbusy, Bool.not_false, and_self, Bool.false_eq_true, if_false, if_true]

/-- A Keep Alive is sent when half the timeout has passed; one that fails takes the backend DOWN (R444, R445). -/
theorem doKeepAlive_sends (hb : oget s.sto.backends b = some k) (hremote : k.remote = true) (hst : k.st = .ready)
    (hu : u = emit ((advanceTo s (k.lastKa + k.kato * 500 * msCycles)).modBack b
      (fun k => { k with lastKa := k.lastKa + k.kato * 500 * msCycles })) (.target b 0x18 0 0 false [])) (ok : Bool) :
    doKeepAlive b ok s = if ok then u else downBackend u b := by
  subst hu
  simp only [doKeepAlive, hb, hremote, hst, beq_self_eq_true, Bool.and_self, if_true]

/-! ### Backends that stand are destroyed, bound anew and shown (R445, R446, R459) -/

/-- A pool, a store, a namespace or a command in progress names the backend (R446). -/
def backNamed (s : State) (b : Nat) (k : Backend) : Bool :=
  k.ref.isSome || s.sto.nss.any (fun p => p.2.backend == b) || poolNames s b || storeNames s b

theorem backendDestroy_own (hk : backAt s b = some k) (hown : owns s r k.own = true) :
    backendDestroy r b s = if backNamed s b k then bad s 0x82
      else ok0 ((unbindMark s (backMark b)).modSto (fun x => { x with backends := odel x.backends b })) :=
  withBack_own hk hown _

/-- A DOWN backend is bound to the queue pairs of a new record and connects again (R445). -/
theorem backendRebind_binds {ns : List Nat} (haddr : fld d 128 64 % 64 = 0) (hk : backAt s (fld d 64 8) = some k)
    (hown : owns s r k.own = true) (hdown : k.st = .down) (hidle : k.ref = none) (hread : rdHost s r 1024 (.ok bs) = (0, bs))
    (hns : ns = recQps (leNat bs) k.queues) (hu : u = unbindMark s (backMark (fld d 64 8))) (hqps : qpsOk u r ns = true)
    (hroom : tooManyBound u ns = false) :
    backendRebind r d (.ok bs) ref s = later (askNext ((bindQps u ns (backMark (fld d 64 8))).modBack (fld d 64 8)
      (fun k => { k with qps := ns, step := 0, ref := some ref })) (fld d 64 8)) := by
  subst hns hu
  refine (if_neg (not_not.2 haddr)).trans ((withBack_own hk hown _).trans ?_)
  simp only [hdown, hidle, hread, hqps, hroom, ne_eq, not_true_eq_false, Option.isSome_none, Bool.false_eq_true, or_self, Bool.not_true,
    if_false]

/-- The record of a backend as BACKEND_QUERY shows it: with its blocks and the queue pairs that it has now (R459). -/
def recordNow (k : Backend) : Nat :=
  (List.range k.qps.length).foldl (fun v i => setFld v (512 + 32 * i) 32 (lget k.qps i 0)) (setFld (leNat k.record) 128 64 k.blocks)

theorem backendQuery_writes (haddr : fld d 128 64 % 64 = 0) (hk : backAt s (fld d 64 8) = some k) :
    backendQuery r d s = ok0 (hostWrite s r (fld d 128 64) (natLE 1024 (recordNow k))) := by
  simp only [backendQuery, haddr, hk, ne_eq, not_true_eq_false, if_false]
  rfl

/-! ### Namespaces (R447 to R449) -/

/-- A free number `n`, and a range that lies on the backend and meets no other namespace (R447). -/
def NsFits (s : State) (d n : Nat) (k : Backend) : Prop :=
  lowestFree s.sto.nss 1 4097 = some n ∧ 1 ≤ fld d 256 64 ∧ fld d 256 64 ≤ 2 ^ 40 ∧ fld d 192 64 + fld d 256 64 ≤ k.blocks
  ∧ s.sto.nss.any (fun p => p.2.backend == fld d 64 8 && overlap (fld d 192 64) (fld d 256 64) p.2.first p.2.blocks) = false

/-- The namespace that NS_CREATE makes of a descriptor (R447, R448). -/
def createdNs (s : State) (r d : Nat) (key : Option Nat) : Namespace :=
  { own := s.ownOf r, backend := fld d 64 8, first := fld d 192 64, blocks := fld d 256 64, key := key }

/-- The range and the kind of backend are those that NS_CREATE asks for (R447, R448). -/
theorem NsFits.legal (h : NsFits s d n k) (hkind : (bitAt d 338 && k.remote) = false) :
    ¬ (fld d 256 64 = 0 ∨ 2 ^ 40 < fld d 256 64 ∨ k.blocks < fld d 192 64 + fld d 256 64 ∨ (bitAt d 338 && k.remote) = true) := by
  obtain ⟨-, hlo, hhi, hinside, -⟩ := h
  rintro (hbad | hbad | hbad | hbad)
  · omega
  · exact Nat.not_lt.2 hhi hbad
  · exact Nat.not_lt.2 hinside hbad
  · exact Bool.false_ne_true (hkind.symm.trans hbad)

theorem nsCreate_plain (hk : backAt s (fld d 64 8) = some k) (hown : owns s r k.own = true) (hfits : NsFits s d n k)
    (hplain : bitAt d 338 = true) (hlocal : k.remote = false) :
    nsCreate r d s = okR (s.modSto (fun z => { z with nss := oput z.nss n (createdNs s r d none) })) n := by
  have legal := hfits.legal (by rw [hlocal, Bool.and_false])
  obtain ⟨hfree, -, -, -, hapart⟩ := hfits
  refine (withBack_own hk hown _).trans ?_
  simp only [hfree, if_neg legal, hapart, if_pos hplain, Bool.false_eq_true, if_false]
  rfl

/-- A namespace that is not plain is sealed under a loaded XTS key of the function (R448). -/
theorem nsCreate_sealed {v : KeySlot} (hk : backAt s (fld d 64 8) = some k) (hown : owns s r k.own = true) (hfits : NsFits s d n k)
    (hsealed : bitAt d 338 = false) (hv : FindsSlot s r (fld d 320 18) [2] .loaded v) :
    nsCreate r d s = okR (s.modSto (fun z => { z with nss := oput z.nss n (createdNs s r d (some (fld d 320 18))) })) n := by
  have legal := hfits.legal (by rw [hsealed, Bool.false_and])
  obtain ⟨hfree, -, -, -, hapart⟩ := hfits
  refine (withBack_own hk hown _).trans ?_
  simp only [hfree, if_neg legal, hapart, if_neg (Bool.eq_false_iff.1 hsealed), hv _, ok0, Bool.false_eq_true, if_false]
  rfl

/-- A namespace without its buffered blocks, and their number (R449). -/
def nsDeleted (s : State) (n : Nat) : State :=
  s.modSto (fun z => { z with nss := odel z.nss n, blocks := z.blocks.filter (fun w => w.ns != n) })
def buffered (s : State) (n : Nat) : Nat := (s.sto.blocks.filter (fun w => w.ns == n && !w.stale)).length

/-- A namespace that is not attached goes, its buffered blocks with it, and their number is reported (R449). -/
theorem nsDelete_detached (hx : oget s.sto.nss n = some x) (hown : owns s r x.own = true) (hfree : x.at_ = none) :
    (settleSto (nsDelete r n s).1, (nsDelete r n s).2) = (settleSto (nsDeleted s n), some (0, buffered s n, 0)) := by
  have deletes : nsDelete r n s = okR (nsDeleted s n) (buffered s n) := by
    refine (withNs_own hx hown _).trans ?_
    rw [hfree]
    rfl
  rw [deletes, okR]

/-- NS_ATTACH and NS_DETACH name a controller and an NSID that there are (R449). -/
def NamesPlace (d : Nat) : Prop := fld d 340 10 < 514 ∧ 1 ≤ fld d 352 9 ∧ fld d 352 9 ≤ 256

theorem nsAttach_withNs (hplace : NamesPlace d) : ∃ act, nsAttach r d s = withNs s r (fld d 64 13) act := by
  obtain ⟨hc, hlo, hhi⟩ := hplace
  have legal : ¬ (514 ≤ fld d 340 10 ∨ fld d 352 9 = 0 ∨ 256 < fld d 352 9) := by omega
  exact ⟨_, if_neg legal⟩

/-- Either the namespace is attached or its place is taken (R449). -/
def placeTaken (s : State) (x : Namespace) (c nsid : Nat) : Bool :=
  x.at_.isSome || s.sto.nss.any (fun p => p.2.at_ == some (c, nsid))

/-- NS_ATTACH attaches a namespace to a controller of the same endpoint, and reports the change (R449). -/
theorem nsAttach_own (hplace : NamesPlace d) (hx : oget s.sto.nss (fld d 64 13) = some x) (hown : owns s r x.own = true)
    (hep : epOf (rankOf (fld d 340 10)) = epOf r) :
    nsAttach r d s = if placeTaken s x (fld d 340 10) (fld d 352 9) then bad s 0x82
      else ok0 (nsChanged (s.modNs (fld d 64 13) (fun x => { x with at_ := some (fld d 340 10, fld d 352 9) })) (fld d 340 10) (fld d 352 9)) := by
  obtain ⟨hc, hlo, hhi⟩ := hplace
  have legal : ¬ (514 ≤ fld d 340 10 ∨ fld d 352 9 = 0 ∨ 256 < fld d 352 9) := by omega
  exact (if_neg legal).trans ((withNs_own hx hown _).trans (if_neg (not_not.2 hep)))

theorem nsDetach_free (hx : oget s.sto.nss (fld d 64 13) = some x) (hown : owns s r x.own = true) (hfree : x.at_ = none) :
    nsDetach r d ref s = bad s 0x82 := by
  refine (withNs_own hx hown _).trans ?_
  rw [hfree]

/-- NS_DETACH waits for the namespace's commands; where it asks so, those that wait for a DOWN backend fail (R449). -/
theorem nsDetach_attached {p : Nat × Nat} (hx : oget s.sto.nss (fld d 64 13) = some x) (hown : owns s r x.own = true)
    (hat : x.at_ = some p) (hidle : x.detach = none)
    (hu : u = s.modNs (fld d 64 13) (fun x => { x with detach := some ref, failed := 0 })) :
    nsDetach r d ref s = later (settleSto (if bitAt d 361 then failWaiting u (fld d 64 13) x p.1 else u)) := by
  subst hu
  refine (withNs_own hx hown _).trans ?_
  rw [hat, hidle]

/-! ### The write-buffer set (R450, R462) -/

theorem doStoCommit_locked (h : s.sto.committed = true) : doStoCommit s = stoEnd s 0x07 0 := if_pos h

theorem doStoCommit_badSlice (hopen : s.sto.committed = false) (hbad : (List.range 8).find? (fun n => !sliceOk s n) = some n) :
    doStoCommit s = stoEnd s 0x06 n := by
  simp only [doStoCommit, hopen, hbad, Bool.false_eq_true, if_false]

/-- The set is committed when every slice is legal and they are 64 GiB at most (R462). -/
theorem doStoCommit_legal (hopen : s.sto.committed = false) (hlegal : (List.range 8).find? (fun n => !sliceOk s n) = none)
    (htotal : wbTotalMib s ≤ 65536) :
    doStoCommit s = settleSto (stoEnd (s.modSto (fun x => { x with committed := true })) 0 0) := by
  simp only [doStoCommit, hopen, hlegal, Nat.not_lt.2 htotal, Bool.false_eq_true, if_false]

theorem doStoUnlock_open (h : s.sto.committed = false) : doStoUnlock s = stoEnd s 0 0 := by
  simp only [doStoUnlock, h, Bool.not_false, if_true]

/-- The set is unlocked while there are no namespaces (R462). -/
theorem doStoUnlock_locked (h : s.sto.committed = true) :
    doStoUnlock s = if s.sto.nss = [] then stoEnd (s.modSto (fun x => { x with committed := false })) 0 0 else stoEnd s 0x07 0 := by
  cases hnss : s.sto.nss <;> simp [doStoUnlock, h, hnss]

end

/-! ### The statement -/

section
variable {s : State} {r i op : Nat} {c : Instr} {e : Fetched}

theorem begun_qpsOk (h : startable s r i = some e) (r' : Nat) (ns : List Nat) : qpsOk (begun s r i e) r' ns = qpsOk s r' ns := by
  simp only [qpsOk, begun_owns h, begun_rdma]

/-- A command on a backend of its descriptor, whose checks before that are met (R459). -/
theorem backCommand_withBack {read : HRead} (h : Starts s r i 0x30 op e)
    (hc : (c, op) ∈ [(Instr.backendDestroy r i, 2), (Instr.backendRebind r i read, 3), (Instr.nsCreate r i, 5)])
    (haddr : fld e.desc.toNat 128 64 % 64 = 0) :
    ∃ act, ∀ {status}, withBack (begun s r i e) r (fld e.desc.toNat 64 8) act = bad (begun s r i e) status →
      exec c s = .next (finish (begun s r i e) (refOf r i e) status 0 0) := by
  simp only [List.mem_cons, Prod.mk.injEq, List.not_mem_nil, or_false] at hc
  rcases hc with ⟨rfl, rfl⟩ | ⟨rfl, rfl⟩ | ⟨rfl, rfl⟩
  · exact ⟨_, fun hbad => onDesc_completes h hbad⟩
  · exact ⟨_, fun hbad => onDesc_completes h ((if_neg (not_not.2 haddr)).trans hbad)⟩
  · exact ⟨_, fun hbad => onDesc_completes h hbad⟩

/-- A command on a namespace of its descriptor, whose checks before that are met (R459). -/
theorem nsCommand_withNs (h : Starts s r i 0x30 op e) (hc : (c, op) ∈ [(Instr.nsAttach r i, 7), (Instr.nsDetach r i, 8)])
    (hplace : NamesPlace e.desc.toNat) :
    ∃ act, ∀ {status}, withNs (begun s r i e) r (fld e.desc.toNat 64 13) act = bad (begun s r i e) status →
      exec c s = .next (finish (begun s r i e) (refOf r i e) status 0 0) := by
  simp only [List.mem_cons, Prod.mk.injEq, List.not_mem_nil, or_false] at hc
  rcases hc with ⟨rfl, rfl⟩ | ⟨rfl, rfl⟩
  · obtain ⟨act, hact⟩ := nsAttach_withNs (s := begun s r i e) (r := r) hplace
    exact ⟨act, fun hbad => onDesc_completes h (hact.trans hbad)⟩
  · exact ⟨_, fun hbad => onDesc_completes h hbad⟩

end

/-- Settles O44: each command by the lemma about its effect, in the state in which its descriptor has started; each event by its own. -/
theorem storageCommandsComplete : Obligations.StorageCommandsComplete := by
  unfold Obligations.StorageCommandsComplete
  refine ⟨?createStack, ?createRemote, ?connect, ?badBackend, ?destroy, ?rebind, ?query, ?keepAlive, ?nsCreate, ?badNs, ?nsDelete, ?nsAttach,
    ?nsDetach, ?set, ?held⟩
  case createStack =>
    rintro r i b v bs e s h ⟨haddr, hread, rfl, hfree⟩ hrec
    have creates := backendCreate_stack (s := begun s r i e) (ref := refOf r i e)
      ⟨haddr, (begun_rdHost h.1 r 1024 (.ok bs)).trans hread, hfree⟩ hrec
    rw [begun_ownOf h.1] at creates
    refine ⟨fun hfits => ?_, fun hrefused => ?_⟩
    · exact onDesc_completes h (creates.trans (if_neg (Bool.eq_false_iff.1 hfits)))
    · exact onDesc_completes h (creates.trans (if_pos hrefused))
  case createRemote =>
    rintro r i b v q bs k e s h ⟨haddr, hread, rfl, hfree⟩ hrec ⟨hqps, hroom⟩ hk
    refine onDesc_waits h (backendCreate_remote ⟨haddr, (begun_rdHost h.1 r 1024 (.ok bs)).trans hread, hfree⟩ hrec ?_ hroom ?_)
    · exact (begun_qpsOk h.1 r _).trans hqps
    · rw [begun_ownOf h.1]
      exact hk
  case connect =>
    intro b k bs s hconnects
    obtain ⟨down, failed⟩ := doConnectStep_fails hconnects
    refine ⟨congrArg Host.Outcome.next down, fun st => congrArg Host.Outcome.next (failed st), fun ⟨h2, h4, hlast⟩ => congrArg Host.Outcome.next ?_,
      fun ⟨h2, h4, hmore⟩ => congrArg Host.Outcome.next ?_, fun ⟨h2, hbusy⟩ => congrArg Host.Outcome.next (doConnectStep_again hconnects h2 hbusy)⟩
    · exact (doConnectStep_next hconnects ⟨h2, h4⟩).trans (if_pos hlast)
    · exact (doConnectStep_next hconnects ⟨h2, h4⟩).trans (if_neg hmore)
  case badBackend =>
    intro r i op read c e s h ⟨hc, haddr⟩
    obtain ⟨act, ends⟩ := backCommand_withBack h hc haddr
    exact ⟨fun hnone => ends (withBack_none (s := begun s r i e) hnone act),
      fun k ⟨hk, hown⟩ => ends (withBack_foreign (s := begun s r i e) hk ((begun_owns h.1 r k.own).trans hown) act)⟩
  case destroy =>
    rintro r i b k e s h ⟨rfl, hk, hown⟩
    have destroys := backendDestroy_own (s := begun s r i e) hk ((begun_owns h.1 r k.own).trans hown)
    refine ⟨fun hnamed => ?_, fun hfree => ?_⟩
    · exact onDesc_completes h (destroys.trans (if_pos hnamed))
    · exact onDesc_completes h (destroys.trans (if_neg (Bool.eq_false_iff.1 hfree)))
  case rebind =>
    rintro r i b k bs ns e s u h ⟨rfl, haddr, hk, hown⟩ ⟨hdown, hidle, hread, hns⟩ ⟨hu, hqps, hroom⟩
    exact onDesc_waits h (backendRebind_binds (s := begun s r i e) haddr hk ((begun_owns h.1 r k.own).trans hown) hdown hidle
      ((begun_rdHost h.1 r 1024 (.ok bs)).trans hread) hns hu hqps hroom)
  case query =>
    intro r i k e s h ⟨haddr, hk⟩
    exact onDesc_completes h (backendQuery_writes (s := begun s r i e) haddr hk)
  case keepAlive =>
    intro b k s u ⟨hb, hremote, hst⟩ hu
    exact ⟨congrArg Host.Outcome.next (doKeepAlive_sends hb hremote hst hu true), congrArg Host.Outcome.next (doKeepAlive_sends hb hremote hst hu false)⟩
  case nsCreate =>
    rintro r i n b first blocks k e s h ⟨rfl, rfl, rfl, hk, hown, hfree⟩ ⟨hlo, hhi, hinside, hapart⟩
    have own := (begun_owns h.1 r k.own).trans hown
    have fits : NsFits (begun s r i e) e.desc.toNat n k := ⟨hfree, hlo, hhi, hinside, hapart⟩
    rw [← begun_ownOf h.1 r]
    refine ⟨fun ⟨hplain, hlocal⟩ => ?_, fun v ⟨hsealed, hslot, hvown, hkind, hst⟩ => ?_⟩
    · exact onDesc_completes h (nsCreate_plain hk own fits hplain hlocal)
    · exact onDesc_completes h (nsCreate_sealed hk own fits hsealed (begun_withSlot h.1 hslot hvown (kind_asked hkind) hst))
  case badNs =>
    intro r i op c e s h ⟨hc, hplace⟩
    obtain ⟨act, ends⟩ := nsCommand_withNs h hc hplace
    exact ⟨fun hnone => ends (withNs_none (s := begun s r i e) hnone act),
      fun x ⟨hx, hown⟩ => ends (withNs_foreign (s := begun s r i e) hx ((begun_owns h.1 r x.own).trans hown) act)⟩
  case nsDelete =>
    rintro r i n x e s h ⟨rfl, hx, hown, hfree⟩
    exact onDesc_completes h (nsDelete_detached (s := begun s r i e) hx ((begun_owns h.1 r x.own).trans hown) hfree)
  case nsAttach =>
    rintro r i n c nsid x e s h ⟨rfl, rfl, rfl, hplace⟩ ⟨hx, hown, hep⟩
    have attaches := nsAttach_own (s := begun s r i e) hplace hx ((begun_owns h.1 r x.own).trans hown) hep
    refine ⟨fun htaken => ?_, fun hfree => ?_⟩
    · exact onDesc_completes h (attaches.trans (if_pos htaken))
    · exact onDesc_completes h (attaches.trans (if_neg (Bool.eq_false_iff.1 hfree)))
  case nsDetach =>
    rintro r i n c nsid x e s u h ⟨rfl, hx, hown⟩ hu
    have own := (begun_owns h.1 r x.own).trans hown
    have detaches (hat : x.at_ = some (c, nsid)) (hidle : x.detach = none) :=
      nsDetach_attached (s := begun s r i e) (ref := refOf r i e) hx own hat hidle hu
    refine ⟨fun hfree => ?_, fun ⟨hat, hidle, hwait⟩ => ?_, fun ⟨hat, hidle, hfail⟩ => ?_⟩
    · exact onDesc_completes h (nsDetach_free (s := begun s r i e) hx own hfree)
    · exact onDesc_waits h ((detaches hat hidle).trans (by rw [hwait, if_neg Bool.false_ne_true]))
    · exact onDesc_waits h ((detaches hat hidle).trans (by rw [hfail, if_pos rfl]))
  case set =>
    intro s hfree
    have commits := joinSet_free hfree 1 doStoCommit
    have unlocks := joinSet_free hfree 2 doStoUnlock
    refine ⟨fun ⟨hopen, hlegal, htotal⟩ => congrArg Host.Outcome.next (commits.trans (doStoCommit_legal hopen hlegal htotal)),
      fun hlocked => congrArg Host.Outcome.next (commits.trans (doStoCommit_locked hlocked)),
      fun n ⟨hopen, hbad⟩ => congrArg Host.Outcome.next (commits.trans (doStoCommit_badSlice hopen hbad)),
      fun hopen => congrArg Host.Outcome.next (unlocks.trans (doStoUnlock_open hopen)), fun ⟨hlocked, hnone⟩ => congrArg Host.Outcome.next (unlocks.trans ?_),
      fun ⟨hlocked, hsome⟩ => congrArg Host.Outcome.next (unlocks.trans ?_)⟩
    · rw [doStoUnlock_locked hlocked, if_pos hnone]
    · rw [doStoUnlock_locked hlocked, if_neg hsome]
  case held =>
    intro w s hheld
    exact ⟨congrArg Host.Outcome.next (joinSet_held hheld 1 doStoCommit), congrArg Host.Outcome.next (joinSet_held hheld 2 doStoUnlock)⟩

end Sys2Proof.Machine

/-! # Migration of virtual functions (14): what the commands of kind 0x50 do, and the statement about them -/

namespace Sys2Proof.Machine

/-! ### The VF of a command (R492) -/

/-- A command that asks for a VF in one of the states `sts` acts on `v`; `begun_findsVf` finds it (R492). -/
def FindsVf (s : State) (r d : Nat) (sts : List FnSt) (v : Nat) : Prop :=
  ∀ act : Nat → State → CmdRes, withVf r d sts act s = act v s

/-- A descriptor names a VF that its PF provides. -/
def NamesVf (s : State) (r d v : Nat) : Prop := v = vfFld r d ∧ vfNo v < (s.fn (pfOf v)).numVfs ∧ (s.fn (pfOf v)).vfEnable = true

theorem begun_findsVf {s : State} {r i d v : Nat} {e : Fetched} {sts : List FnSt} (h : startable s r i = some e)
    (hv : NamesVf s r d v) (hst : sts.contains (s.fn v).st = true) : FindsVf (begun s r i e) r d sts v := by
  obtain ⟨rfl, hno, hon⟩ := hv
  exact begun_withVf h hno hon hst

section
variable {s s2 s3 u : State} {r d v : Nat} {ref : DRef}

/-! ### Freeze (R487) -/

/-- Sequences or communicators of the VF keep it from being frozen (R487). -/
def holdsWork (s : State) (v : Nat) : Bool :=
  s.kv.seqs.any (fun q => owns s v q.2.own) || s.fw.comms.any (fun c => owns s v c.2.own)

theorem vfFreeze_holding (hv : FindsVf s r d [.active] v) (hthaw : (s.fn v).freeze = none) (hwork : holdsWork s v = true) :
    vfFreeze r d ref s = bad s 0x82 := by
  refine (hv _).trans ?_
  simp only [hthaw, Option.isSome_none, Bool.false_eq_true, if_false]
  exact if_pos hwork

/-- A PF1 VF that holds neither waits for its work, and is FROZEN at once where there is none (R487). -/
theorem vfFreeze_waits (hv : FindsVf s r d [.active] v) (hthaw : (s.fn v).freeze = none) (hwork : holdsWork s v = false)
    (hctrl : ctrlOf v = none) :
    vfFreeze r d ref s = later (checkFreeze (s.modFn v (fun f => { f with freeze := some ref })) v) := by
  refine (hv _).trans ?_
  simp only [hthaw, Option.isSome_none, Bool.false_eq_true, if_false, hctrl]
  exact if_neg (Bool.eq_false_iff.1 hwork)

/-! ### Save (R488) -/

section
variable {w : KeySlot}

/-- What a save seals of a VF without loaded keys (R488). -/
def clearOf (s : State) (v : Nat) : List Byte := (vfRecs s v).flatMap encRec
/-- Bytes of a VF's blob: header, counter, ciphertext and tag (R488). -/
def blobBytes (s : State) (v : Nat) : Nat := 88 + (clearOf s v).length
/-- The clear header of a VF's blob (R488). -/
def headOf (s : State) (v : Nat) : List Byte := blobHead (b2n (isVf2 v)) (blobBytes s v) (s.fn v).gen
/-- A VF's blob under a WRAP key (R488). -/
def blobOf (s : State) (v : Nat) (w : KeySlot) : List Byte :=
  headOf s v ++ natLE 8 w.counter ++ (gcmSeal (keyOf w) (nonceOf w w.counter) (headOf s v) (clearOf s v)).1
    ++ (gcmSeal (keyOf w) (nonceOf w w.counter) (headOf s v) (clearOf s v)).2

/-- A save finds its VF, without loaded keys, and uses a counter value of its WRAP key `w` (R488). -/
def SavesUnder (s : State) (r d v : Nat) (ref : DRef) (w : KeySlot) (u : State) : Prop :=
  FindsVf s r d [.frozen] v ∧ FindsSlot s r (fld d 80 18) [3] .loaded w ∧ s.slot (fld d 80 18) = some w ∧ loadedKeys s v = []
  ∧ useCounter s (fld d 80 18) (tileFor s (dieOfRing s ref) (fld d 80 18) w) w = some u

/-- A save into a buffer that is large enough writes the blob and leaves the VF and its keys SAVED; into a smaller one it writes
nothing and reports the bytes that it needs (R488). -/
theorem vfSave_seals (h : SavesUnder s r d v ref w u) :
    vfSave r d ref s =
      if fld d 192 32 < blobBytes s v ∨ 2 ^ 26 < blobBytes s v then badR s 0x07 (blobBytes s v)
      else if !dmaOn (s.fn r) then bad s 0x0B
      else okR (((hostWrite u r (fld d 128 64) (blobOf s v w)).modSeal (fun q => { q with
        slots := q.slots.map (fun p => if owns s v p.2.own ∧ p.2.st = .loaded then (p.1, { p.2 with st := .saved }) else p) })).modFn v
        (fun f => { f with st := .saved })) (blobBytes s v) := by
  obtain ⟨hv, hw, hslot, hkeys, hcount⟩ := h
  have bytes : 64 + 8 + ((vfRecs s v ++ []).flatMap encRec).length + 16 = blobBytes s v := by
    rw [List.append_nil, blobBytes, clearOf]
    omega
  refine (hv _).trans ((hw _).trans ?_)
  simp only [hkeys, saveKeys, hslot, hcount, bytes]
  rw [List.append_nil]
  rfl

end

/-! ### Restore (R489) -/

section
variable {w : KeySlot} {blob map : HRead} {bs ms : List Byte} {gen : Nat} {recs : List (List Nat)}

/-- A restore finds its CLEAN VF and its WRAP key `w`, and has read blob and namespace map (R489). -/
def RestoresFrom (s : State) (r d v : Nat) (w : KeySlot) (blob map : HRead) (bs ms : List Byte) : Prop :=
  FindsVf s r d [.clean] v ∧ FindsSlot s r (fld d 80 18) [3] .loaded w ∧ rdHost s r (fld d 192 32) blob = (0, bs)
  ∧ (if isVf2 v then rdHost s r 512 map else (0, [])) = (0, ms)

theorem vfRestore_closed (h : RestoresFrom s r d v w blob map bs ms) (hopen : openBlob w (b2n (isVf2 v)) bs = none) :
    vfRestore r d blob map s = bad s 0x83 := by
  obtain ⟨hv, hw, hblob, hmap⟩ := h
  refine (hv _).trans ((hw _).trans ?_)
  simp only [hblob, hmap, hopen, ne_eq, not_true_eq_false, if_false]

/-- The function that a blob's registers make of a CLEAN one, FROZEN in the blob's generation (R489). -/
def restoredFn (gen : Nat) (recs : List (List Nat)) (f : Fn) : Fn :=
  { fnFrom (fun i => lget ((recsOf recs 1).head?.getD []) i 0) f with st := .frozen, gen := gen }

/-- A blob that opens, whose numbers are free and within the quotas, puts everything that it holds in place (R489). -/
theorem vfRestore_restores (h : RestoresFrom s r d v w blob map bs ms) (hopen : openBlob w (b2n (isVf2 v)) bs = some (gen, recs))
    (hfree : idsTaken s r v ms recs = false) (hquota : overQuota s v recs = false)
    (hrings : restoreRings v (recsOf recs 2) (s.modFn v (restoredFn gen recs)) = some s2)
    (hkeys : restoreKeys { fn := v, gen := gen } w (recsOf recs 7) s2 = .ok s3) :
    vfRestore r d blob map s = okR (restoreCtrl v ms recs (restoreRdma v { fn := v, gen := gen } recs s3)) gen := by
  obtain ⟨hv, hw, hblob, hmap⟩ := h
  unfold restoredFn at hrings
  refine (hv _).trans ((hw _).trans ?_)
  simp only [hblob, hmap, hopen, hfree, hquota, hrings, hkeys, ne_eq, not_true_eq_false, Bool.false_eq_true, if_false]

end

/-! ### Thaw and dirty logging (R490, R491) -/

/-- A thawed VF runs again with a full lease; its queue pairs send, its controller goes on, and lost events are reported (R490). -/
theorem vfThaw_runs (hv : FindsVf s r d [.frozen] v)
    (hu : u = s.modFn v (fun f => { f with st := .active, leaseInForce := f.leasePeriod, leaseFrom := s.vcycle, leaseHalf := false })) :
    vfThaw r d s = ok0 (flushLost (if (ctrlOf v).isSome = true
      then settleSto (s.rdma.qps.foldl (fun t q => if owns t v q.2.own then pumpSends t q.1 else t) u)
      else s.rdma.qps.foldl (fun t q => if owns t v q.2.own then pumpSends t q.1 else t) u) v) := by
  subst hu
  exact hv _

theorem dirtyLog_unaligned (hv : FindsVf s r d [.active, .frozen] v) (h : fld d 128 64 % 4096 ≠ 0 ∨ fld d 192 32 % 8 ≠ 0) :
    dirtyLog r d s = bad s 0x06 :=
  (hv _).trans (if_pos h)

/-- The log that DIRTY_LOG starts; address 0 stops logging (R491). -/
def newLog (d : Nat) : Option DirtyLog := if fld d 128 64 = 0 then none else some { addr := fld d 128 64, bytes := fld d 192 32 }

/-- DIRTY_LOG writes what was logged into the bitmap of the log that it ends, reports that log's overflow, and starts the next
(R491). -/
theorem dirtyLog_starts (hv : FindsVf s r d [.active, .frozen] v) (haddr : fld d 128 64 % 4096 = 0) (hbytes : fld d 192 32 % 8 = 0) :
    dirtyLog r d s = okR (((s.fn v).dirty.elim s
        (fun g => (dirtyBytes g).foldl (fun (t : State) (p : Nat × Byte) => hostWrite t r (g.addr + p.1) [p.2]) s)).modFn v
        (fun f => { f with dirty := newLog d })) (b2n ((s.fn v).dirty.any (·.overflow))) := by
  have aligned : ¬ (fld d 128 64 % 4096 ≠ 0 ∨ fld d 192 32 % 8 ≠ 0) := by omega
  refine (hv _).trans ((if_neg aligned).trans ?_)
  cases (s.fn v).dirty <;> rfl

end

/-! ### The statement -/

/-- A command of kind 0x50 acts on the VF of its descriptor. -/
theorem vfCommand_withVf {s : State} {r i op : Nat} {x y : HRead} {c : Instr} {sts : List FnSt} {e : Fetched} (h : Starts s r i 0x50 op e)
    (hc : (c, op, sts) ∈ [(Instr.vfFreeze r i, 1, [FnSt.active]), (Instr.vfSave r i, 2, [FnSt.frozen]),
      (Instr.vfRestore r i x y, 3, [FnSt.clean]), (Instr.vfThaw r i, 4, [FnSt.frozen]), (Instr.dirtyLog r i, 5, [FnSt.active, FnSt.frozen])]) :
    ∃ act, ∀ {status}, withVf r e.desc.toNat sts act (begun s r i e) = bad (begun s r i e) status →
      exec c s = .next (finish (begun s r i e) (refOf r i e) status 0 0) := by
  simp only [List.mem_cons, Prod.mk.injEq, List.not_mem_nil, or_false] at hc
  rcases hc with ⟨rfl, rfl, rfl⟩ | ⟨rfl, rfl, rfl⟩ | ⟨rfl, rfl, rfl⟩ | ⟨rfl, rfl, rfl⟩ | ⟨rfl, rfl, rfl⟩
  all_goals exact ⟨_, fun hbad => onDesc_completes h hbad⟩

theorem begun_holdsWork {s : State} {r i : Nat} {e : Fetched} (h : startable s r i = some e) (v : Nat) :
    holdsWork (begun s r i e) v = holdsWork s v := by
  simp only [holdsWork, begun_owns h, begun_kv, begun_fw]

/-- Settles O48: each command by the lemma about it, on the VF (`begun_findsVf`) and the WRAP key that its descriptor names. -/
theorem virtualFunctionsMigrate : Obligations.VirtualFunctionsMigrate := by
  unfold Obligations.VirtualFunctionsMigrate
  refine ⟨?badVf, ?freeze, ?save, ?restore, ?closed, ?thaw, ?dirty⟩
  case badVf =>
    intro r i op x y c sts e s h hc
    obtain ⟨act, ends⟩ := vfCommand_withVf h hc
    obtain ⟨none_such, other_state⟩ := begun_withVf_bad h.1 (d := e.desc.toNat) (sts := sts) act
    exact ⟨fun hnone => ends (none_such hnone), fun hno hon hst => ends (other_state hno hon hst)⟩
  case freeze =>
    intro r i v e s h ⟨hv, hno, hon, hst, hthaw, hctrl⟩
    have finds := begun_findsVf (sts := [.active]) h.1 ⟨hv, hno, hon⟩ (by rw [hst]; rfl)
    have thawed := (begun_fn_field h.1 Fn.freeze (fun _ _ => rfl) v).trans hthaw
    refine ⟨fun hwork => ?_, fun hidle => ?_⟩
    · exact onDesc_completes h (vfFreeze_holding finds thawed ((begun_holdsWork h.1 v).trans hwork))
    · exact onDesc_waits h (vfFreeze_waits finds thawed ((begun_holdsWork h.1 v).trans hidle) hctrl)
  case save =>
    rintro r i v wn w e s u h ⟨hv, hno, hon, hst⟩ ⟨rfl, hslot, hown, hkind, hwst⟩ hkeys hcount
    have finds := begun_findsVf (sts := [.frozen]) h.1 ⟨hv, hno, hon⟩ (by rw [hst]; rfl)
    have saves := vfSave_seals (s := begun s r i e) (ref := refOf r i e)
      ⟨finds, begun_withSlot h.1 hslot hown (kind_asked hkind) hwst, hslot, hkeys, hcount⟩
    refine ⟨fun hsmall => ?_, fun hlarge hmax hdma => ?_⟩
    · exact onDesc_completes h (saves.trans (if_pos (.inl hsmall)))
    · have fits : ¬ (fld e.desc.toNat 192 32 < blobBytes (begun s r i e) v ∨ 2 ^ 26 < blobBytes (begun s r i e) v) :=
        not_or.2 ⟨Nat.not_lt.2 hlarge, Nat.not_lt.2 hmax⟩
      rw [if_neg fits, hdma, Bool.not_true, if_neg Bool.false_ne_true] at saves
      exact onDesc_completes h saves
  case restore =>
    intro r i v gen w blob map bs ms recs e s s2 s3 h ⟨hv, hno, hon, hst⟩ ⟨hslot, hown, hkind, hwst⟩ ⟨hblob, hmap⟩ hopen ⟨hfree, hquota⟩
      hrings hkeys
    have finds := begun_findsVf (sts := [.clean]) h.1 ⟨hv, hno, hon⟩ (by rw [hst]; rfl)
    have reads : RestoresFrom (begun s r i e) r e.desc.toNat v w blob map bs ms :=
      ⟨finds, begun_withSlot h.1 hslot hown (kind_asked hkind) hwst, (begun_rdHost h.1 r _ blob).trans hblob,
        by rw [begun_rdHost h.1]; exact hmap⟩
    exact onDesc_completes h (vfRestore_restores reads hopen hfree hquota hrings hkeys)
  case closed =>
    intro r i v w blob map bs ms e s h ⟨hv, hno, hon, hst⟩ ⟨hslot, hown, hkind, hwst⟩ ⟨hblob, hmap⟩ hopen
    have finds := begun_findsVf (sts := [.clean]) h.1 ⟨hv, hno, hon⟩ (by rw [hst]; rfl)
    have reads : RestoresFrom (begun s r i e) r e.desc.toNat v w blob map bs ms :=
      ⟨finds, begun_withSlot h.1 hslot hown (kind_asked hkind) hwst, (begun_rdHost h.1 r _ blob).trans hblob,
        by rw [begun_rdHost h.1]; exact hmap⟩
    exact onDesc_completes h (vfRestore_closed reads hopen)
  case thaw =>
    intro r i v e s u h ⟨hv, hno, hon, hst⟩ hu
    have finds := begun_findsVf (sts := [.frozen]) h.1 ⟨hv, hno, hon⟩ (by rw [hst]; rfl)
    exact onDesc_completes h (vfThaw_runs finds hu)
  case dirty =>
    intro r i v e s h ⟨hv, hno, hon, hst⟩
    have finds := begun_findsVf (sts := [.active, .frozen]) h.1 ⟨hv, hno, hon⟩ (by rcases hst with hst | hst <;> rw [hst] <;> rfl)
    have logged := begun_fn_field h.1 Fn.dirty (fun _ _ => rfl) v
    refine ⟨fun hbad => ?_, fun haddr hbytes hnone => ?_, fun g haddr hbytes hsome => ?_⟩
    · exact onDesc_completes h (dirtyLog_unaligned finds hbad)
    · have starts := dirtyLog_starts finds haddr hbytes
      rw [logged, hnone] at starts
      exact onDesc_completes h starts
    · have starts := dirtyLog_starts finds haddr hbytes
      rw [logged, hsome] at starts
      refine onDesc_completes h (starts.trans ?_)
      rw [Option.elim_some, Option.any_some, okR, newLog]

end Sys2Proof.Machine

/-! # Memory stacks (15): scrubs, training, retirement and the lost-line list, and the statement about them -/

namespace Sys2Proof.Machine

section
variable {s u : State} {n c r d : Nat} {ref : DRef}

/-! ### Scrubs (R502) -/

/-- A scrub of a reachable codeword moves the scrub pointer; one that reads as lost is reported, and any other acts by what the
check code finds (R502). -/
theorem doScrub_reads {line a : Nat} {found : Codeword} (hn : n < 8) (ha : a = n * 2 ^ 36 + line * 64 % 2 ^ 36)
    (hreach : stackReach s a 64 = 0) (hu : u = s.modStk n (fun k => { k with scrubAt := (line + 1) % (k.mapped * 32768) })) :
    doScrub n line found s = if lineBad s a then uncorrectable u a 84 else
      match found with
      | .good => channelGrant 84 u a
      | .corrected => correctedRead (channelGrant 84 u a) a
      | .uncorrectable => uncorrectable u a 84 := by
  subst ha hu
  have reached : ¬ (n ≥ 8 ∨ stackReach s (n * 2 ^ 36 + line * 64 % 2 ^ 36) 64 ≠ 0) :=
    not_or.2 ⟨Nat.not_le.2 hn, not_not.2 hreach⟩
  refine (if_neg reached).trans ?_
  cases found <;> rfl

/-! ### Training (R503) -/

/-- A change of a channel matters only at the value that the channel has. -/
theorem modStk_chan_congr {f g : Chan → Chan} (h : f ((s.stk n).chan c) = g ((s.stk n).chan c)) :
    s.modStk n (fun k => k.modChan c f) = s.modStk n (fun k => k.modChan c g) := by
  simp only [State.modStk, Stk.modChan, h]

/-- A channel that is in use and has not failed loses training (R503). -/
theorem doTrainingLoss_loses (hn : n < 8) (hc : c < 128) (hon : domOn s (stackDom n) = true) (hgood : ((s.stk n).chan c).failed = false) :
    doTrainingLoss n c s = s.modStk n (fun k => k.modChan c (fun ch => { ch with lost := true })) := by
  refine (if_pos ⟨hn, hc, hon⟩).trans (modStk_chan_congr ?_)
  rw [if_neg (Bool.eq_false_iff.1 hgood)]

/-- The end of a retrain of a channel that has lost training: trained, or a failure that the third in a row makes FAILED (R503). -/
theorem doRetrainComplete_ends (hlost : ((s.stk n).chan c).lost = true) (hgood : ((s.stk n).chan c).failed = false) (trained : Bool) :
    doRetrainComplete n c trained s =
      if trained then wakeStores (s.modStk n (fun k => k.modChan c (fun ch => { ch with lost := false, failedRetrains := 0 })))
      else if ((s.stk n).chan c).failedRetrains + 1 < 3 then
        s.modStk n (fun k => k.modChan c (fun ch => { ch with failedRetrains := ch.failedRetrains + 1 }))
      else wakeStores ((bothPf0 ++ bothPf1).foldl (fun t r => postEventS t r 0x4003 n 0x04 c 0)
        (s.modStk n (fun k => k.modChan c (fun ch => { ch with lost := false, failedRetrains := 3, failed := true })))) := by
  have retrains : ¬ ((!((s.stk n).chan c).lost) = true ∨ ((s.stk n).chan c).failed = true) := by simp [hlost, hgood]
  exact if_neg retrains

/-! ### Retirement of groups (R504 to R506, R511) -/

section
variable {g : Nat}

theorem retireGroup_off (hoff : domOn s (stackDom n) = false) : retireGroup n g ref s = bad s 0x0B := by
  simp only [retireGroup, hoff, Bool.not_false, if_true]

section
variable (hon : domOn s (stackDom n) = true)
include hon

theorem retireGroup_retired (hgone : bitAt (s.stk n).retiredMask g = true) : retireGroup n g ref s = bad s 0x80 := by
  simp only [retireGroup, hon, hgone, Bool.not_true, Bool.false_eq_true, if_false, if_true]

variable (hkept : bitAt (s.stk n).retiredMask g = false)
include hkept

/-- Another retirement of the stack runs, or stands stopped (R504). -/
theorem retireGroup_busy {x : Retire} (hx : (s.stk n).retire = some x) (hother : x.running = true ∨ x.group ≠ g) :
    retireGroup n g ref s = bad s 0x82 := by
  simp only [retireGroup, hon, hkept, hx, hother, Bool.not_true, Bool.false_eq_true, if_false, if_true]

theorem retireGroup_last (hnone : (s.stk n).retire = none) (hfew : groupsLeft (s.stk n) ≤ 8) : retireGroup n g ref s = bad s 0x07 := by
  simp only [retireGroup, hon, hkept, hnone, hfew, Bool.not_true, Bool.false_eq_true, if_false, if_true]

/-- A retirement begins unless an address above the new capacity is in use, which it then reports (R504, R506). -/
theorem retireGroup_begins (hnone : (s.stk n).retire = none) (hmany : 8 < groupsLeft (s.stk n)) :
    retireGroup n g ref s = (firstInUse s (n * 2 ^ 36 + ((s.stk n).mapped - 2048) * 2 ^ 21) 4294967296).elim
      (later (startRetire s n g ref)) (badR s 0x81) := by
  have frames : 2048 * 2 ^ 21 = 4294967296 := by decide
  simp only [retireGroup, hon, hkept, hnone, Nat.not_le.2 hmany, frames, Bool.not_true, Bool.false_eq_true, if_false]
  cases firstInUse s (n * 2 ^ 36 + ((s.stk n).mapped - 2048) * 2 ^ 21) 4294967296 <;> rfl

end
end

section
variable {f p q : Nat} {todo lines : List Nat} {free : List (Nat × Nat)} {x : Retire}

/-- A retirement of the stack copies frame `f`, to physical frame `q` of group `p` (R504). -/
def Copies (s : State) (n : Nat) (x : Retire) (f : Nat) (todo : List Nat) (p q : Nat) (free : List (Nat × Nat)) : Prop :=
  (s.stk n).retire = some x ∧ x.running = true ∧ x.todo = f :: todo ∧ x.free = (p, q) :: free

/-- Lines that would pass the 4,096 of the lost-line list stop the retirement with the frame where it was (R506). -/
theorem doFrameCopy_full (h : Copies s n x f todo p q free) (hfull : 4096 < (s.stk n).lost.length + (newlyLost s n f lines).length) :
    doFrameCopy n lines s = wakeStores (finish (s.modStk n (fun k => { k with retire := some { x with running := false } })) x.ref 0x07
      (x.moved % 2 ^ 32 + x.added % 2 ^ 16 * 2 ^ 32) 0) := by
  obtain ⟨hx, hrun, htodo, hfree⟩ := h
  simp only [doFrameCopy, hx, hrun, htodo, hfree, if_pos hfull]

/-- A copy changes the frame's table entry and lists the lines that it could not correct (R504, R505). -/
theorem doFrameCopy_moves (h : Copies s n x f todo p q free) (hroom : (s.stk n).lost.length + (newlyLost s n f lines).length ≤ 4096) :
    doFrameCopy n lines s = wakeStores (endRetire (s.modStk n (fun k => { k with
      frames := mset k.frames f (2048 * p + q) (2048 * (f % 16) + f / 16)
      lost := k.lost ++ newlyLost s n f lines
      retire := some { x with todo := todo, free := free, moved := x.moved + 1, added := x.added + (newlyLost s n f lines).length } })) n) := by
  obtain ⟨hx, hrun, htodo, hfree⟩ := h
  simp only [doFrameCopy, hx, hrun, htodo, hfree, if_neg (Nat.not_lt.2 hroom)]

end

theorem lostListRead_illegal (h : fld d 128 64 % 64 ≠ 0 ∨ fld d 192 16 < 1 ∨ 4096 < fld d 192 16) :
    lostListRead r d s = bad s 0x06 := if_pos h

/-- LOST_LIST_READ writes the first addresses of the list, as many as it asks for, and reports how many those are (R511). -/
theorem lostListRead_writes {ls : List Nat} (haddr : fld d 128 64 % 64 = 0) (hlo : 1 ≤ fld d 192 16) (hhi : fld d 192 16 ≤ 4096)
    (hls : ls = (s.stk (fld d 64 3)).lost.take (fld d 192 16)) :
    lostListRead r d s = okR (if ls.isEmpty then s else hostWrite s r (fld d 128 64) (ls.flatMap (natLE 8))) ls.length := by
  subst hls
  have legal : ¬ (fld d 128 64 % 64 ≠ 0 ∨ fld d 192 16 < 1 ∨ 4096 < fld d 192 16) := by omega
  exact if_neg legal

end

/-! ### The statement -/

section
variable {s : State} {r i : Nat} {e : Fetched}

/-- GROUP_RETIRE acts on its descriptor once no waiting command of a higher-ranked function contradicts it (R66). -/
theorem exec_groupRetire_first (h : outranked s r i = false) :
    exec (.groupRetire r i) s = .next (onDesc s r i 0x40 0x01 (fun d ref s => groupRetire r d ref s)) :=
  congrArg Host.Outcome.next (inRankOrder_first h _)

/-- A GROUP_RETIRE that contradicts none of its message time retires its group (R66). -/
theorem groupRetire_alone {d : Nat} {ref : DRef} (h : contradicted s r 0x40 (fld d 64 3) (fld d 67 4) = none) :
    groupRetire r d ref s = retireGroup (fld d 64 3) (fld d 67 4) ref (noteDone s r 0x40 (fld d 64 3) (fld d 67 4)) :=
  exclusive_alone h _

/-- A command that contradicts one of its message time is logged and ends with 0x0D (R66). -/
theorem exclusive_contradicted {cap item effect w : Nat} (h : contradicted s r cap item effect = some w) (act : State → CmdRes) :
    exclusive s r cap item effect act = bad (logConflict s cap item w r true) 0x0D := by
  simp only [exclusive, h]

end

/-- Settles O49: each event by the lemma about it; each command by its own, in the state in which its descriptor has started. -/
theorem stacksRepairAndRetire : Obligations.StacksRepairAndRetire := by
  unfold Obligations.StacksRepairAndRetire
  refine ⟨?scrub, ?loss, ?retrain, ?refused, ?contradicted, ?begins, ?copy, ?lostList, ?window⟩
  case scrub =>
    intro n line found a s u ⟨hn, ha, hreach⟩ hu
    have reads (found : Codeword) := doScrub_reads (found := found) hn ha hreach hu
    refine ⟨fun hbad => congrArg Host.Outcome.next ((reads found).trans (if_pos hbad)), fun hgood => ?_⟩
    have acts (found : Codeword) := (reads found).trans (if_neg (Bool.eq_false_iff.1 hgood))
    exact ⟨congrArg Host.Outcome.next (acts .good), congrArg Host.Outcome.next (acts .corrected),
      congrArg Host.Outcome.next (acts .uncorrectable)⟩
  case loss =>
    intro n c s ⟨hn, hc, hon, hgood⟩
    exact congrArg Host.Outcome.next (doTrainingLoss_loses hn hc hon hgood)
  case retrain =>
    intro n c s ⟨hlost, hgood⟩
    have ends := doRetrainComplete_ends hlost hgood
    have fails := (ends false).trans (if_neg Bool.false_ne_true)
    exact ⟨congrArg Host.Outcome.next (ends true), fun hfew => congrArg Host.Outcome.next (fails.trans (if_pos hfew)),
      fun hthird => congrArg Host.Outcome.next (fails.trans (if_neg (Nat.not_lt.2 hthird)))⟩
  case refused =>
    rintro r i n g e s u h ⟨hfirst, halone⟩ ⟨rfl, rfl, rfl⟩
    rw [exec_groupRetire_first hfirst]
    refine ⟨fun hoff => ?_, fun hon hgone => ?_, fun x hon hkept hx hother => ?_, fun hon hkept hnone hfew => ?_⟩
    · exact onDesc_completes h ((groupRetire_alone halone).trans (retireGroup_off hoff))
    · exact onDesc_completes h ((groupRetire_alone halone).trans (retireGroup_retired hon hgone))
    · exact onDesc_completes h ((groupRetire_alone halone).trans (retireGroup_busy hon hkept hx hother))
    · exact onDesc_completes h ((groupRetire_alone halone).trans (retireGroup_last hon hkept hnone hfew))
  case contradicted =>
    rintro r i n g w e s h ⟨hfirst, hagainst⟩ ⟨rfl, rfl⟩
    rw [exec_groupRetire_first hfirst]
    exact onDesc_completes h (exclusive_contradicted hagainst _)
  case begins =>
    rintro r i n g e s u h ⟨hfirst, halone⟩ ⟨rfl, rfl, rfl, hon, hkept⟩ ⟨hnone, hmany⟩
    rw [exec_groupRetire_first hfirst]
    have begins := (groupRetire_alone (ref := refOf r i e) halone).trans (retireGroup_begins hon hkept hnone hmany)
    refine ⟨fun a hused => ?_, fun hfree => ?_⟩
    · exact onDesc_completes h (begins.trans (congrArg (Option.elim · _ _) hused))
    · exact onDesc_waits h (begins.trans (congrArg (Option.elim · _ _) hfree))
  case copy =>
    intro n f p q lines todo free x s hcopies
    exact ⟨fun hfull => congrArg Host.Outcome.next (doFrameCopy_full hcopies hfull),
      fun hroom => congrArg Host.Outcome.next (doFrameCopy_moves hcopies hroom)⟩
  case lostList =>
    rintro r i n e s h rfl
    refine ⟨fun hbad => ?_, fun haddr hlo hhi hsome => ?_, fun haddr hlo hhi hnone => ?_⟩
    · exact onDesc_completes h (lostListRead_illegal hbad)
    · have writes := lostListRead_writes (s := begun s r i e) (r := r) haddr hlo hhi rfl
      have some_line : ((s.stk (fld e.desc.toNat 64 3)).lost.take (fld e.desc.toNat 192 16)).isEmpty = false := by
        rw [List.isEmpty_eq_false_iff, ne_eq, List.take_eq_nil_iff]
        exact not_or.2 ⟨Nat.pos_iff_ne_zero.1 hlo, hsome⟩
      exact onDesc_completes h (writes.trans (congrArg (okR · _) (if_neg (Bool.eq_false_iff.1 some_line))))
    · have writes := lostListRead_writes (s := begun s r i e) (r := r) (ls := []) haddr hlo hhi
        (by rw [show ((begun s r i e).stk (fld e.desc.toNat 64 3)).lost = [] from hnone, List.take_nil])
      exact onDesc_completes h writes
  case window =>
    intro n s
    rfl

end Sys2Proof.Machine


/-! # Power input and rails (chapter 16): what the ROM starts, what an input, rail or sensor fault switches off,
and the statement about them -/

namespace Sys2Proof.Machine

/-! ### The start at power-good (R553) -/

/-- The set that the ROM selects: the active one, or the other after three failed attempts of a trial. -/
def romWant (u : State) : Nat :=
  if u.trust.trial && decide (3 ≤ u.trust.attempts) then 1 - u.trust.activeSet else u.trust.activeSet

/-- The state from which the ROM chooses a set: power-good is noted, the trust area read, the limits loaded. -/
def romState (s : State) : State :=
  loadLimits (readTrust ({ s with clock := { at_ := s.vcycle } }.modPow (fun w => { w with romDone := true, startAt := s.vcycle })))

theorem doPowerGood_recovers {s : State} (h : s.power.romDone = false) (hc : romChoice (romState s) (romWant (romState s)) = none) :
    doPowerGood s = auditOwn ((romState s).modTrust (fun t => { t with recovery := true })) 0x0303 0 := by
  unfold romState romWant at *
  simp only [doPowerGood, h, hc, Bool.false_eq_true, if_false]

theorem doPowerGood_boots {s : State} {k : Nat} (h : s.power.romDone = false)
    (hc : romChoice (romState s) (romWant (romState s)) = some k) :
    doPowerGood s = (bootFrom (romState s) k (k != (romState s).trust.activeSet)).modTrust (fun t =>
      { t with trying := t.trial }) := by
  unfold romState romWant at *
  simp only [doPowerGood, h, hc, Bool.false_eq_true, if_false]

/-! ### Faults of the input, of rails and of sensors (R514 to R517) -/

theorem inputFault_cuts {s : State} {c mv : Nat} (hc : s.power.condition ≠ c) (hrom : s.power.romDone = true) :
    inputFault c mv s = postPd ((List.range 108).foldl (fun t d => cutDomain t d 2 false)
      (s.modPow (fun w => { w with condition := c }))) 0x4107 0 (c + mv / 10 % 2 ^ 16 * 2 ^ 16) := by
  unfold inputFault
  exact if_neg (by simp [hc, hrom])

theorem doInputReturn_restarts {s : State} {mv : Nat} (hmv : 44000 ≤ mv)
    (h : (s.power.condition = 1 ∧ mv ≤ 64500) ∨ (s.power.condition = 2 ∧ mv ≤ 63500)) : doInputReturn mv s = warmRestart s := by
  obtain ⟨hc, hle⟩ | ⟨hc, hle⟩ := h <;> simp [doInputReturn, hc, hmv, hle]

theorem doRailFault_cuts {s : State} {rail : Nat} (status : BitVec 16) (hr : rail < 29) (hon : s.power.railsOff.contains rail = false) :
    doRailFault rail status.toNat s = postPd ((onRail rail).foldl (fun t d => cutDomain t d 2 true)
      (s.modPow (fun w => { w with railsOff := rail :: w.railsOff }))) 0x4106 rail status.toNat := by
  unfold doRailFault forceOff
  have switches : ¬ (29 ≤ rail ∨ s.power.railsOff.contains rail = true) := not_or.2 ⟨Nat.not_le.2 hr, Bool.eq_false_iff.1 hon⟩
  rw [if_neg switches, Nat.mod_eq_of_lt status.isLt]

theorem doSensorFault_posts {kind : Nat} (which : Nat) (s : State) (hk : kind = 1 ∨ kind = 2) :
    doSensorFault kind which s = postPd s 0x4109 0 (kind + which % 256 * 256) := by
  unfold doSensorFault
  rw [if_neg (by omega), if_neg (by omega)]

theorem doBusRecovery_tries {s : State} (ok : Bool) (h : s.power.busShort = true) :
    doBusRecovery ok s = (advanceTo s (s.power.busAt + 14000000)).modPow (fun w =>
      { w with busShort := !ok, busAt := (advanceTo s (s.power.busAt + 14000000)).vcycle }) := by
  simp [doBusRecovery, h, msCycles]

/-! ### Acknowledgements of regulators (R516, R520) -/

theorem doAck_moves {rail : Nat} (s : State) (h3 : rail ≠ 3) (h4 : rail ≠ 4) :
    doAck rail s = (onAck s rail).foldl (fun t q =>
      t.modDom q.1 (fun k => { k with act := some { q.2 with step := .move, since := t.vcycle } })) s := by
  unfold doAck
  exact if_neg (by simp [h3, h4])

/-- A core rail's acknowledgement is the change's alone where no domain and no retry waits for it. -/
theorem doAck_ackChange {rail : Nat} {s : State} (hr : rail = 3 ∨ rail = 4) (hretry : s.power.retryAcks = [])
    (hack : onAck s rail = []) : doAck rail s = ackChange s rail := by
  have unchanged : s.modPow (fun w => { w with retryAcks := [] }) = s := by
    unfold State.modPow
    rw [← hretry]
  have left : s.modPow (fun w => { w with
      retryAcks := w.retryAcks.filter (· != rail)
      retryAt := if w.retryAcks.contains rail && (w.retryAcks.filter (· != rail)).isEmpty then none else w.retryAt }) = s := by
    refine Eq.trans ?_ unchanged
    simp [State.modPow, hretry]
  unfold doAck
  rw [if_pos hr, hack, List.foldl_nil, hretry, List.contains_nil, if_neg Bool.false_ne_true]
  exact congrArg (ackChange · rail) left

section
variable {c : Change} {rail : Nat} {s : State}

/-- The last acknowledgement of a raise: the rails settle (R520). -/
theorem ackChange_settles (hc : s.power.change = some c) (hacks : c.acks = [rail]) (hstep : c.step = .raiseAck) :
    ackChange s rail = (setRail s rail c.target).modPow (fun w => { w with change := some { c with acks := [], step := .settle } }) := by
  simp [ackChange, hc, hacks, hstep]

/-- The last acknowledgement of a lower: the change ends (R520). -/
theorem ackChange_ends (hc : s.power.change = some c) (hacks : c.acks = [rail]) (hstep : c.step = .lowerAck) :
    ackChange s rail = endChange (setRail s rail c.target) c.target c.reason := by
  simp [ackChange, hc, hacks, hstep]

theorem doAckTimeout16_aborts (s : State) (h3 : rail ≠ 3) (h4 : rail ≠ 4) :
    doAckTimeout16 rail s = (onAck s rail).foldl (fun t q => abortEntry (advanceTo t (q.2.since + 200000)) q.1 2 q.2) s :=
  if_pos ⟨h3, h4⟩

/-- A core rail misses a raise: the rails keep the profile in force and the change is given up (R520). -/
theorem doAckTimeout16_gives_up (hr : rail = 3 ∨ rail = 4) (hc : s.power.change = some c) (hwaits : c.acks.contains rail = true)
    (hstep : c.step = .raiseAck) (hretry : s.power.retryAcks = []) (hack : onAck s rail = []) :
    doAckTimeout16 rail s = nextChange ((setRails (missAck (advanceTo s (c.since + 200000))) s.power.inForce).modPow (fun w =>
      { w with change := none, selected := w.inForce, reason := 0 })) := by
  have core : ¬ (rail ≠ 3 ∧ rail ≠ 4) := by omega
  simp only [doAckTimeout16, hack, List.foldl_nil, if_neg core, hretry, List.contains_nil, Bool.false_eq_true, if_false, hc, hwaits,
    Bool.not_true, hstep]
  rfl

end

/-! ### The obligation -/

/-- Settles O50: each event of the input, a rail, a sensor or a regulator does the one thing that the lemma on its function
says of it; the rest is the definition of the event. -/
theorem powerInputAndRailsAct : Obligations.PowerInputAndRailsAct := by
  refine ⟨?powerGood, ?again, ?loss, ?undervoltage, ?overvoltage, ?back, ?railFault, ?overcurrent, ?sensor, ?shortedBus, ?recovery, ?ack,
    ?coreAck, ?timeout, ?coreTimeout⟩
  case powerGood =>
    rintro want s u hrom rfl rfl
    exact ⟨fun hc => congrArg Host.Outcome.next (doPowerGood_recovers hrom hc),
      fun k hc => congrArg Host.Outcome.next (doPowerGood_boots hrom hc)⟩
  case again =>
    intro s hrom
    exact congrArg Host.Outcome.next (if_pos hrom)
  case loss =>
    intro s
    rfl
  case undervoltage =>
    rintro mv s ⟨hlo, hhi, hc, hrom⟩
    exact congrArg Host.Outcome.next ((if_pos ⟨hlo, hhi⟩).trans (inputFault_cuts hc hrom))
  case overvoltage =>
    intro mv s
    refine ⟨fun h => if_pos h, fun hlo hhi hc hrom => ?_, fun h => ?_⟩
    · rw [exec_inputOvervoltage, execInputOvervoltage, if_neg (by omega), if_pos hlo, inputFault_cuts hc hrom]
    · rw [exec_inputOvervoltage, execInputOvervoltage, if_neg (by omega), if_neg (by omega)]
  case back =>
    intro mv s hmv h
    exact congrArg Host.Outcome.next (doInputReturn_restarts hmv h)
  case railFault =>
    rintro rail status s ⟨hr, hon⟩
    exact congrArg Host.Outcome.next (doRailFault_cuts status hr hon)
  case overcurrent =>
    intro status s hon
    exact congrArg Host.Outcome.next (doRailFault_cuts status (by decide) hon)
  case sensor =>
    intro kind which s hk
    exact congrArg Host.Outcome.next (doSensorFault_posts which s hk)
  case shortedBus =>
    intro which s
    rfl
  case recovery =>
    rintro ok s u hshort rfl
    exact congrArg Host.Outcome.next (doBusRecovery_tries ok hshort)
  case ack =>
    rintro rail s ⟨h3, h4⟩
    exact congrArg Host.Outcome.next (doAck_moves s h3 h4)
  case coreAck =>
    rintro c s ⟨hc, hacks, hretry, hack⟩
    have acks : doAck 3 s = ackChange s 3 := doAck_ackChange (.inl rfl) hretry hack
    exact ⟨fun hstep => congrArg Host.Outcome.next (acks.trans (ackChange_settles hc hacks hstep)),
      fun hstep => congrArg Host.Outcome.next (acks.trans (ackChange_ends hc hacks hstep))⟩
  case timeout =>
    rintro rail s ⟨h3, h4⟩
    exact congrArg Host.Outcome.next (doAckTimeout16_aborts s h3 h4)
  case coreTimeout =>
    rintro c s ⟨hc, hwaits, hstep, hretry, hack⟩
    exact congrArg Host.Outcome.next (doAckTimeout16_gives_up (.inl rfl) hc hwaits hstep hretry hack)

end Sys2Proof.Machine


/-! # Profiles and temperature (chapter 16): how the profile in force moves, how a hot domain stops, and the statement about them -/

namespace Sys2Proof.Machine

section
variable {s : State}

/-! ### Changes of the profile (R520) -/

/-- A lower of the profile in force by one step, for a reason. -/
def lowerStep (w : Power) (reason at_ : Nat) : Power :=
  { w with reason := 4, change := some { target := w.inForce - 1, reason := reason, step := .lowerTick, acks := [], since := at_ } }

theorem doSettled_waits {c : Change} (hc : s.power.change = some c) (hstep : c.step = .settle) :
    doSettled s = s.modPow (fun w => { w with change := some { c with step := .raiseTick } }) := by
  simp only [doSettled, hc, hstep, if_true]

theorem doRetry_asks {t : Nat} (h : s.power.retryAt = some t) :
    doRetry s = (advanceTo s t).modPow (fun w => { w with retryAcks := [3, 4] }) := by
  simp only [doRetry, h]

/-- An automatic lower with no change under way begins one, by one step (R522, R523). -/
theorem autoLower_begins {reason : Nat} (hc : s.power.change = none) (hlow : 0 < s.power.inForce) :
    autoLower s reason = s.modPow (fun w => lowerStep w reason s.vcycle) := by
  have down : ¬ s.power.inForce < s.power.inForce - 1 := by omega
  simp only [autoLower, hc, if_neg (Nat.ne_of_gt hlow), beginChange, decide_eq_false down]
  rfl

theorem autoRaise_begins {reason : Nat} (hc : s.power.change = none) (hr : s.power.reason = reason) (hsel : s.power.inForce < s.power.selected) :
    autoRaise s reason = beginChange s (s.power.inForce + 1) (if s.power.inForce + 1 = s.power.selected then 0 else reason) := by
  unfold autoRaise
  exact if_neg (by simp [hc, hr, hsel])

/-! ### The envelope (R522) -/

section
variable {watts : Nat}

theorem doExceeded_lowers (hstage : s.power.stage = 4) (hw : effective s s.power.inForce < watts) (hlow : 0 < s.power.inForce)
    (hc : s.power.change = none) : doExceeded watts s = s.modPow (fun w => lowerStep w 1 s.vcycle) := by
  have exceeds : ¬ (s.power.stage < 4 ∨ watts ≤ effective s s.power.inForce) := by omega
  rw [doExceeded, if_neg exceeds, if_pos hlow, autoLower_begins hc hlow]

/-- At the lowest profile an excess is posted, a second after the one before at the earliest. -/
theorem doExceeded_posts (hstage : s.power.stage = 4) (hw : effective s s.power.inForce < watts) (hlow : s.power.inForce = 0) :
    doExceeded watts s = match s.power.exceededAt with
      | none => postPd (s.modPow (fun w => { w with exceededAt := some s.vcycle })) 0x4108 0 (watts % 2 ^ 11)
      | some t => postPd ((advanceTo s (t + 400000000)).modPow (fun w => { w with exceededAt := some (max s.vcycle (t + 400000000)) }))
        0x4108 0 (watts % 2 ^ 11) := by
  have exceeds : ¬ (s.power.stage < 4 ∨ watts ≤ effective s s.power.inForce) := by omega
  rw [doExceeded, if_neg exceeds, if_neg (by omega)]
  cases s.power.exceededAt <;> rfl

theorem doEnvRaise_begins (hw : 5 * watts < 4 * effective s (s.power.inForce + 1)) (hc : s.power.change = none) (hr : s.power.reason = 1)
    (hsel : s.power.inForce < s.power.selected) :
    doEnvRaise watts s = beginChange s (s.power.inForce + 1) (if s.power.inForce + 1 = s.power.selected then 0 else 1) :=
  (if_pos hw).trans (autoRaise_begins hc hr hsel)

end

/-! ### Temperature (R523) -/

section
variable {d temp : Nat}

/-- The tick at which a domain near its limit acts: 100 ms after the one before. -/
def nearTick (s : State) : State := match s.power.thermalAt with | some t => advanceTo s (t + 40000000) | none => s

theorem nearTick_power (s : State) : (nearTick s).power = s.power := by
  unfold nearTick
  cases s.power.thermalAt <;> rfl

theorem doNear_lowers (hd : d < 108) (hstage : s.power.stage = 4) (hhot : tempLimit s d ≤ temp + 5) (hc : s.power.change = none)
    (hlow : 0 < s.power.inForce) :
    doNear d temp s = ((nearTick s).modPow (fun w => { w with thermalAt := some (nearTick s).vcycle })).modPow (fun w =>
      lowerStep w 2 (nearTick s).vcycle) := by
  have near : ¬ (108 ≤ d ∨ s.power.stage < 4 ∨ temp + 5 < tempLimit s d) := by omega
  have tick : doNear d temp s = autoLower ((nearTick s).modPow (fun w => { w with thermalAt := some (nearTick s).vcycle })) 2 := by
    rw [doNear, if_neg near]
    unfold nearTick
    cases s.power.thermalAt <;> rfl
  rw [tick, autoLower_begins]
  · rfl
  · exact (congrArg Power.change (nearTick_power s)).trans hc
  · exact hlow.trans_eq (congrArg Power.inForce (nearTick_power s)).symm

theorem doLimit_stops (hon : (s.dom d).power = 2) (hrun : (s.dom d).stopped = false) (hhot : tempLimit s d ≤ temp) :
    doLimit d temp s = postPd (s.modDom d (fun k => { k with stopped := true, stoppedAt := s.vcycle })) 0x4105 d (temp % 256) := by
  have stops : ¬ ((s.dom d).power ≠ 2 ∨ (s.dom d).stopped = true ∨ temp < tempLimit s d) := by
    simp [hon, hrun, hhot]
  exact if_neg stops

theorem doTrip_cuts (h : (s.dom d).stopped = true) :
    doTrip d s = cutDomain (advanceTo s ((s.dom d).stoppedAt + 4000000)) d 3 true := if_pos h

end
end

/-! ### The obligation -/

/-- Settles O51: each report of power or temperature begins the change, or stops the clock, that the lemma on its function says. -/
theorem profilesAndTemperature : Obligations.ProfilesAndTemperature := by
  refine ⟨?settled, ?retry, ?exceeded, ?envelopeRaise, ?near, ?thermalRaise, ?limit, ?trip, ?cooled⟩
  case settled =>
    rintro c s ⟨hc, hstep⟩
    exact congrArg Host.Outcome.next (doSettled_waits hc hstep)
  case retry =>
    intro t s h
    exact congrArg Host.Outcome.next (doRetry_asks h)
  case exceeded =>
    rintro watts s ⟨hstage, hw⟩
    refine ⟨fun hlow hc => congrArg Host.Outcome.next (doExceeded_lowers hstage hw hlow hc), fun hlow hat => ?_, fun t hlow hat => ?_⟩
    all_goals
      have posts := doExceeded_posts hstage hw hlow
      rw [hat] at posts
      exact congrArg Host.Outcome.next posts
  case envelopeRaise =>
    rintro watts s ⟨hw, hc, hr, hsel⟩
    exact congrArg Host.Outcome.next (doEnvRaise_begins hw hc hr hsel)
  case near =>
    rintro d temp s u ⟨hd, hstage, hhot, hc, hlow⟩ hu
    have tick : u = nearTick s := hu
    subst tick
    exact congrArg Host.Outcome.next (doNear_lowers hd hstage hhot hc hlow)
  case thermalRaise =>
    rintro s ⟨hc, hr, hsel⟩
    exact congrArg Host.Outcome.next (autoRaise_begins (s := s.modPow (fun w => { w with thermalAt := none })) hc hr hsel)
  case limit =>
    rintro d temp s ⟨hon, hrun, hhot⟩
    exact congrArg Host.Outcome.next (doLimit_stops hon hrun hhot)
  case trip =>
    intro d s h
    exact congrArg Host.Outcome.next (doTrip_cuts h)
  case cooled =>
    intro d s
    rfl

end Sys2Proof.Machine


/-! # Shutters and reopens (chapter 16): which commands on a domain are refused, wait or begin, how they go on,
and the statement about them -/

namespace Sys2Proof.Machine

/-! ### The shutter of a domain (R527, R528, R530) -/

section
variable {s : State} {r d target : Nat} {ref : Option DRef}

/-- A domain on its way from one state to another refuses a shutter with code 1. -/
theorem shutter_moving (h : (s.dom d).power = 3) : shutter s r d target ref = refused s d 1 target := by
  simp only [shutter, h, true_or, if_true]

section
variable (hact : (s.dom d).act = none)
include hact

section
variable (hon : (s.dom d).power = 2) (hserv : (s.dom d).service = 1)
include hon hserv

/-- A domain in service leaves ON only under the condition of its kind. -/
theorem shutter_condition_fails (hcode : leaveCode s d ref ≠ 0) :
    shutter s r d target ref = refused s d (leaveCode s d ref) target := by
  simp [shutter, hact, hon, hserv, hcode]

/-- A PF1 that does not own the domain's ports is refused with code 5. -/
theorem shutter_role_fails (hcode : leaveCode s d ref = 0) (hrole : domRole s r d = false) :
    shutter s r d target ref = refused s d 5 target := by
  simp [shutter, hact, hon, hserv, hcode, hrole]

/-- An engine tile drains; any other domain begins its transition. -/
theorem shutter_begins (hcode : leaveCode s d ref = 0) (hrole : domRole s r d = true) :
    shutter s r d target ref =
      if drains (unitOf d).1 then later (closeTile s d { target := target, prev := 2, ref := ref })
      else later (beginMove s d { target := target, prev := 2, ref := ref }) := by
  simp [shutter, hact, hon, hserv, hcode, hrole]

end

/-- A domain that is OFF or in RETAIN needs no transition. -/
theorem shutter_already_off (hoff : (s.dom d).power = 0 ∨ (s.dom d).power = 1) (hrole : domRole s r d = true) :
    shutter s r d target ref = later (endShutter s d target ref) := by
  obtain hoff | hoff := hoff <;> simp [shutter, hact, hoff, hrole]

end
end

/-! ### UNIT_SHUTTER and UNIT_REOPEN (R532, R533) -/

section
variable {s : State} {r fs d temp : Nat} {ref : DRef}

theorem unitShutter_reserved (h : 108 ≤ fld fs 64 7 ∨ (fld fs 71 2 ≠ 1 ∧ fld fs 71 2 ≠ 2)) :
    unitShutter r fs ref s = bad s 0x06 := if_pos h

theorem unitReopen_reserved (h : 108 ≤ fld fs 64 7 ∨ fld fs 71 2 ≠ 0) : unitReopen r fs temp ref s = bad s 0x06 := if_pos h

section
variable {t : Nat} (hd : d = fld fs 64 7) (ht : t = fld fs 71 2) (hdom : d < 108) (hmode : t = 1 ∨ t = 2)
  (halone : contradicted s r 0x41 d t = none)
include hd ht hdom hmode halone

/-- A legal and uncontradicted UNIT_SHUTTER waits behind a reopen of its domain, or shutters it. -/
theorem unitShutter_alone : unitShutter r fs ref s =
    if ((noteDone s r 0x41 d t).dom d).act.any (·.reopen) then
      later ((noteDone s r 0x41 d t).modDom d (fun k => { k with waiting := k.waiting ++ [(ref, if t = 1 then 1 else 0)] }))
    else shutter (noteDone s r 0x41 d t) r d (if t = 1 then 1 else 0) (some ref) := by
  subst hd ht
  have legal : ¬ (108 ≤ fld fs 64 7 ∨ (fld fs 71 2 ≠ 1 ∧ fld fs 71 2 ≠ 2)) := by omega
  rw [unitShutter, if_neg legal, exclusive_alone halone]

theorem unitShutter_idle (hact : ((noteDone s r 0x41 d t).dom d).act = none) :
    unitShutter r fs ref s = shutter (noteDone s r 0x41 d t) r d (if t = 1 then 1 else 0) (some ref) := by
  rw [unitShutter_alone hd ht hdom hmode halone, hact, Option.any_none, if_neg Bool.false_ne_true]

theorem unitShutter_waits {a : DomAct} (hact : ((noteDone s r 0x41 d t).dom d).act = some a) (hre : a.reopen = true) :
    unitShutter r fs ref s = later ((noteDone s r 0x41 d t).modDom d (fun k =>
      { k with waiting := k.waiting ++ [(ref, if t = 1 then 1 else 0)] })) := by
  rw [unitShutter_alone hd ht hdom hmode halone, hact, Option.any_some, if_pos hre]

end

/-- What a reopen of a domain does once it may run: each refusal in its order, then the transition. -/
def reopened (s : State) (r d temp : Nat) (ref : DRef) : CmdRes :=
  match (s.dom d).act with
  | some a =>
    if a.step = .drain ∧ domRole s r d = true then okR (unclose s d a) (s.dom d).gen
    else refused s d (if domRole s r d then 1 else 5) 2
  | none =>
    if (s.dom d).power = 2 then bad s 0x82
    else if tempLimit s d ≤ temp + 5 then refused s d 3 2
    else if enterCode s d ≠ 0 then refused s d (enterCode s d) 2
    else if !domRole s r d then refused s d 5 2
    else if !railsUp s d then refused s d 2 2
    else later (beginMove s d { reopen := true, target := 2, prev := (s.dom d).power, ref := some ref })

/-- A legal and uncontradicted UNIT_REOPEN. -/
theorem unitReopen_alone (hd : d = fld fs 64 7) (ht : fld fs 71 2 = 0) (hdom : d < 108) (halone : contradicted s r 0x41 d 3 = none) :
    unitReopen r fs temp ref s = reopened (noteDone s r 0x41 d 3) r d temp ref := by
  subst hd
  have legal : ¬ (108 ≤ fld fs 64 7 ∨ fld fs 71 2 ≠ 0) := by omega
  rw [unitReopen, if_neg legal, exclusive_alone halone]
  rfl

theorem reopened_draining {a : DomAct} (hact : (s.dom d).act = some a) (hstep : a.step = .drain) (hrole : domRole s r d = true) :
    reopened s r d temp ref = okR (unclose s d a) (s.dom d).gen := by
  simp only [reopened, hact, hstep, hrole, and_self, if_true]

section
variable (hact : (s.dom d).act = none)
include hact

theorem reopened_on (hon : (s.dom d).power = 2) : reopened s r d temp ref = bad s 0x82 := by
  simp only [reopened, hact, hon, if_true]

section
variable (hoff : (s.dom d).power ≠ 2)
include hoff

theorem reopened_hot (hhot : tempLimit s d ≤ temp + 5) : reopened s r d temp ref = refused s d 3 2 := by
  simp only [reopened, hact, if_neg hoff, if_pos hhot]

section
variable (hcool : temp + 5 < tempLimit s d)
include hcool

theorem reopened_condition_fails (hcode : enterCode s d ≠ 0) : reopened s r d temp ref = refused s d (enterCode s d) 2 := by
  simp only [reopened, hact, if_neg hoff, if_neg (Nat.not_le.2 hcool), if_pos hcode]

theorem reopened_begins (hcode : enterCode s d = 0) (hrole : domRole s r d = true) (hrails : railsUp s d = true) :
    reopened s r d temp ref = later (beginMove s d { reopen := true, target := 2, prev := (s.dom d).power, ref := some ref }) := by
  simp only [reopened, hact, if_neg hoff, if_neg (Nat.not_le.2 hcool), if_neg (not_not.2 hcode), hrole, hrails, Bool.not_true,
    Bool.false_eq_true, if_false]

end
end
end
end

/-! ### Drains, transitions and self-tests (R525, R530 to R532) -/

/-- The cores of CTL tile `t` that were to hand over run on. -/
def resumeCores (s : State) (t : Nat) : State :=
  (List.range 16).foldl (fun u i => if (u.core (16 * t + i)).st = .draining then
    (keeperWord u (16 * t + i) 2).modCore (16 * t + i) (fun k => { k with st := .running }) else u) s

section
variable {s : State} {d failed : Nat} {a : DomAct} (hact : (s.dom d).act = some a)
include hact

theorem doDrainComplete_moves (hstep : a.step = .drain) (hempty : drainedTile s d = true) :
    doDrainComplete d s = beginMove s d a := by
  simp only [doDrainComplete, hact, hstep, hempty, and_self, if_true]

theorem doHandoffBound_aborts (hstep : a.step = .drain) (hctl : (unitOf d).1 = .ctl) (hbusy : drainedTile s d = false) :
    doHandoffBound d s = abortEntry (resumeCores (advanceTo s (a.since + 40000000)) (unitOf d).2) d 1 a := by
  simp only [doHandoffBound, hact, hstep, hctl, hbusy, ne_eq, not_true_eq_false, Bool.false_eq_true, or_self, if_false]
  rfl

/-- The end of a transition, at its time: a shutter has ended, a tile tests itself, any other domain is in service (R525). -/
theorem doTransition_ends (hstep : a.step = .move) :
    doTransition d s =
      if a.reopen then
        if isTile d then beginTest (if a.prev = 0 then resetUnit (advanceTo s (a.since + moveCycles d a)) d
          else advanceTo s (a.since + moveCycles d a)) d a
        else runWaiting (endReopen (if a.prev = 0 then resetUnit (advanceTo s (a.since + moveCycles d a)) d
          else advanceTo s (a.since + moveCycles d a)) d a.ref) d
      else afterShutter (endShutter (advanceTo s (a.since + moveCycles d a)) d a.target a.ref) d := by
  simp only [doTransition, hact, hstep, ne_eq, not_true_eq_false, if_false]
  cases a.reopen <;> rfl

theorem doSelfTest_passes (hstep : a.step = .test) : doSelfTest d 0 s = runWaiting (endReopen s d a.ref) d := by
  simp only [doSelfTest, hact, hstep, ne_eq, not_true_eq_false, if_false, if_true]

/-- A tile other than a SEAL tile that fails its test stays OFF and its reopen ends with 0x81 (R532). -/
theorem doSelfTest_fails {x : DRef} (hstep : a.step = .test) (hfailed : failed ≠ 0) (hseal : (unitOf d).1 ≠ .sealing) (href : a.ref = some x) :
    doSelfTest d failed s = runWaiting (finish (postPd (s.modDom d (fun k => { k with power := 0, service := 0, act := none }))
      0x410C d 0) x 0x81 0 0) d := by
  simp only [doSelfTest, hact, hstep, ne_eq, not_true_eq_false, if_false, hfailed, hseal, href]

end

/-! ### Crossings and laser units (R537, R594) -/

/-- An overrun ends the command that carried the word. -/
theorem doOverrun_ends {s : State} {bit : Nat} {op : DRef} (hlt : bit < 36) (hmod : bit % 4 ≠ 3)
    (hlive : (s.ring op.fn op.ring).fetched.any (fun e => e.seq == op.seq && e.started && e.res.isNone) = true) :
    doOverrun bit op s = postPd (finish (s.modPow (fun w => { w with cdc := if bitAt w.cdc bit then w.cdc else w.cdc + 2 ^ bit }))
      op 0x0B 0 0) 0x410A 0 bit := by
  have counted : ¬ (36 ≤ bit ∨ bit % 4 = 3) := by omega
  simp only [doOverrun, if_neg counted]
  exact congrArg (postPd · 0x410A 0 bit) (if_pos hlive)

theorem doLaserOut_cuts {s : State} {n : Nat} (hn : n < 8) (hin : s.power.noLaser.contains n = false) :
    doLaserOut n s = cutDomain (s.modPow (fun w => { w with noLaser := n :: w.noLaser })) (100 + n) 4 true := by
  have leaves : ¬ (8 ≤ n ∨ s.power.noLaser.contains n = true) := not_or.2 ⟨Nat.not_le.2 hn, Bool.eq_false_iff.1 hin⟩
  exact if_neg leaves

/-! ### The obligation -/

section
variable {s t : State} {r i temp : Nat} {e : Fetched} {status result spec : Nat}

/-- A UNIT_SHUTTER that starts ends at once, in the state that its effect leaves. -/
theorem unitShutter_completes (h : Starts s r i 0x41 0x01 e) (hfirst : outranked s r i = false)
    (heff : unitShutter r e.desc.toNat (refOf r i e) (begun s r i e) = (t, some (status, result, spec))) :
    exec (.unitShutter r i) s = .next (finish t (refOf r i e) status result spec) := by
  rw [exec_unitShutter, execUnitShutter, inRankOrder_first hfirst]
  exact onDesc_completes h heff

/-- A UNIT_SHUTTER that starts and waits for its end. -/
theorem unitShutter_starts (h : Starts s r i 0x41 0x01 e) (hfirst : outranked s r i = false)
    (heff : unitShutter r e.desc.toNat (refOf r i e) (begun s r i e) = later t) : exec (.unitShutter r i) s = .next t := by
  rw [exec_unitShutter, execUnitShutter, inRankOrder_first hfirst]
  exact onDesc_waits h heff

/-- A UNIT_REOPEN that starts ends at once, in the state that its effect leaves. -/
theorem unitReopen_completes (h : Starts s r i 0x41 0x02 e) (hfirst : outranked s r i = false)
    (heff : unitReopen r e.desc.toNat temp (refOf r i e) (begun s r i e) = (t, some (status, result, spec))) :
    exec (.unitReopen r i temp) s = .next (finish t (refOf r i e) status result spec) := by
  rw [exec_unitReopen, execUnitReopen, inRankOrder_first hfirst]
  exact onDesc_completes h heff

/-- A UNIT_REOPEN that starts and waits for its end. -/
theorem unitReopen_starts (h : Starts s r i 0x41 0x02 e) (hfirst : outranked s r i = false)
    (heff : unitReopen r e.desc.toNat temp (refOf r i e) (begun s r i e) = later t) : exec (.unitReopen r i temp) s = .next t := by
  rw [exec_unitReopen, execUnitReopen, inRankOrder_first hfirst]
  exact onDesc_waits h heff

end

/-- Settles O52: UNIT_SHUTTER and UNIT_REOPEN by the state of the domain, which neither the start of the descriptor nor the
note of the command changes; then each event that carries an operation on. -/
theorem domainsShutAndReopen : Obligations.DomainsShutAndReopen := by
  refine ⟨?shutterReserved, ?reopenReserved, ?inService, ?notInService, ?reopen, ?reopenDraining, ?drained, ?handoff, ?transition, ?test,
    ?overrun, ?laserOut, ?laserIn⟩
  case shutterReserved =>
    intro r i temp e s h hfirst hbad
    exact unitShutter_completes h hfirst (unitShutter_reserved hbad)
  case reopenReserved =>
    intro r i temp e s h hfirst hbad
    exact unitReopen_completes h hfirst (unitReopen_reserved hbad)
  case inService =>
    rintro r i d t e s u h ⟨hd, ht, hdom, hmode⟩ ⟨hfirst, halone, rfl⟩ ⟨⟨hon, hserv, hact⟩, hrole, hcode⟩
    have begins := (unitShutter_idle (ref := refOf r i e) hd ht hdom hmode halone hact).trans (shutter_begins hact hon hserv hcode hrole)
    exact ⟨fun hdrains => unitShutter_starts h hfirst (begins.trans (if_pos hdrains)),
      fun hdrains => unitShutter_starts h hfirst (begins.trans (if_neg (Bool.eq_false_iff.1 hdrains)))⟩
  case notInService =>
    rintro r i d t e s u h ⟨hd, ht, hdom, hmode⟩ ⟨hfirst, halone, rfl⟩
    have idle := unitShutter_idle (ref := refOf r i e) hd ht hdom hmode halone
    refine ⟨fun hoff hact hrole => ?_, fun a hact hre => ?_, fun hmove hact => ?_, fun hon hserv hact hcode hrole => ?_,
      fun hon hserv hact hrole hcode => ?_⟩
    · exact unitShutter_starts h hfirst ((idle hact).trans (shutter_already_off hact hoff hrole))
    · exact unitShutter_starts h hfirst (unitShutter_waits hd ht hdom hmode halone hact hre)
    · exact unitShutter_completes h hfirst ((idle hact).trans (shutter_moving hmove))
    · exact unitShutter_completes h hfirst ((idle hact).trans (shutter_role_fails hact hon hserv hcode hrole))
    · exact unitShutter_completes h hfirst ((idle hact).trans (shutter_condition_fails hact hon hserv hcode))
  case reopen =>
    rintro r i d temp e s u h ⟨hd, ht, hdom⟩ ⟨hfirst, halone, rfl⟩ hact
    have alone := unitReopen_alone (temp := temp) (ref := refOf r i e) hd ht hdom halone
    refine ⟨fun hon => ?_, fun hoff hhot => ?_, fun hoff hcool hcode => ?_, fun hoff hcool hcode hrole hrails => ?_⟩
    · exact unitReopen_completes h hfirst (alone.trans (reopened_on hact hon))
    · exact unitReopen_completes h hfirst (alone.trans (reopened_hot hact hoff hhot))
    · exact unitReopen_completes h hfirst (alone.trans (reopened_condition_fails hact hoff hcool hcode))
    · exact unitReopen_starts h hfirst (alone.trans (reopened_begins hact hoff hcool hcode hrole hrails))
  case reopenDraining =>
    rintro r i d temp a e s u h ⟨hd, ht, hdom⟩ ⟨hfirst, halone, rfl⟩ ⟨hact, hstep, hrole⟩
    exact unitReopen_completes h hfirst ((unitReopen_alone hd ht hdom halone).trans (reopened_draining hact hstep hrole))
  case drained =>
    rintro d a s ⟨hact, hstep, hempty⟩
    exact congrArg Host.Outcome.next (doDrainComplete_moves hact hstep hempty)
  case handoff =>
    rintro d a s ⟨hact, hstep, hctl, hbusy⟩
    exact congrArg Host.Outcome.next (doHandoffBound_aborts hact hstep hctl hbusy)
  case transition =>
    rintro d a s u ⟨hact, hstep⟩ rfl
    have ends := doTransition_ends hact hstep
    refine ⟨fun hre => ?_, fun hre htile hprev => ?_, fun hre htile hprev => ?_, fun hre htile hprev => ?_, fun hre htile hprev => ?_⟩
    · exact congrArg Host.Outcome.next (by rw [ends, hre, if_neg Bool.false_ne_true])
    · exact congrArg Host.Outcome.next (by rw [ends, if_pos hre, if_pos htile, if_pos hprev])
    · exact congrArg Host.Outcome.next (by rw [ends, if_pos hre, if_pos htile, if_neg hprev])
    · exact congrArg Host.Outcome.next (by rw [ends, if_pos hre, htile, if_neg Bool.false_ne_true, if_pos hprev])
    · exact congrArg Host.Outcome.next (by rw [ends, if_pos hre, htile, if_neg Bool.false_ne_true, if_neg hprev])
  case test =>
    rintro d failed a s ⟨hact, hstep⟩
    refine ⟨?_, fun x hfailed hseal href => congrArg Host.Outcome.next (doSelfTest_fails hact hstep hfailed hseal href)⟩
    rintro rfl
    exact congrArg Host.Outcome.next (doSelfTest_passes hact hstep)
  case overrun =>
    rintro bit fn ring seq s u ⟨hlt, hmod⟩ rfl hlive
    exact congrArg Host.Outcome.next (doOverrun_ends hlt hmod hlive)
  case laserOut =>
    rintro n s ⟨hn, hin⟩
    exact congrArg Host.Outcome.next (doLaserOut_cuts hn hin)
  case laserIn =>
    intro n s
    rfl

end Sys2Proof.Machine


/-! # Firmware, attestation and the audit log (chapter 17): what the commands of kind 0x42 do, and the statement about them -/

namespace Sys2Proof.Machine

/-! ### Firmware commands of a ring pair (R562, R565 to R567) -/

section
variable {s t v : State} {r op effect : Nat}

/-- The status with which the audit log records a command: that of its completion, or 0 while it waits. -/
def outcome (x : CmdRes) : Nat := match x.2 with | some y => y.1 | none => 0

/-- An uncontradicted firmware command acts once its record with its outcome stands in the log (R562). -/
theorem fwCmd_logged {act : State → CmdRes} (halone : contradicted s r 0x42 0 effect = none)
    (haudit : auditRec (noteDone s r 0x42 0 effect) (0x4200 + op) 2 r (outcome (act (noteDone s r 0x42 0 effect))) 0 = some t) :
    fwCmd s r op effect act = act t := by
  calc fwCmd s r op effect act
      = (match auditRec (noteDone s r 0x42 0 effect) (0x4200 + op) 2 r (outcome (act (noteDone s r 0x42 0 effect))) 0 with
        | none => bad (noteDone s r 0x42 0 effect) 0x07
        | some s1 => act s1) := exclusive_alone halone _
    _ = act t := by rw [haudit]

section
variable {x : ImageSet}

theorem stageEff_during (h : t.trust.act.isSome = true) : stageEff x t = aBad t 0x83 := if_pos h

section
variable (hact : t.trust.act = none)
include hact

theorem stageEff_no_device (h : t.trust.flashBad.contains (1 - t.trust.activeSet) = true) : stageEff x t = aBad t 0x07 := by
  simp only [stageEff, hact, Option.isSome_none, Bool.false_eq_true, if_false, h, if_true]

section
variable (hdevice : t.trust.flashBad.contains (1 - t.trust.activeSet) = false)
include hdevice

theorem stageEff_bad_magic (h : leNat (x.signed.take 4) ≠ 0x09601A6E) : stageEff x t = aBad t 0x06 := by
  simp only [stageEff, hact, Option.isSome_none, Bool.false_eq_true, if_false, hdevice, if_pos h]

/-- The set is written to the inactive device; it is the staged one where it passes every check (R552, R565). -/
theorem stageEff_writes {st : Nat} (hmagic : leNat (x.signed.take 4) = 0x09601A6E) (hst : st = setStatus t { x with factory := false }) :
    ofAnswer (stageEff x t) = (t.modTrust (fun y =>
        { y with sets := oput y.sets (1 - t.trust.activeSet) { x with factory := false }, staged := st == 0 }),
      some (st, if st = 0 then leNat (natLE 8 (x.version % 2 ^ 32 + x.security % 2 ^ 16 * 2 ^ 32)) else 0, 0)) := by
  simp only [stageEff, hact, Option.isSome_none, Bool.false_eq_true, if_false, hdevice, if_neg (not_not.2 hmagic), ← hst]
  by_cases hgood : st = 0
  · simp only [hgood, ne_eq, not_true_eq_false, if_false, if_true, ofAnswer]
  · simp only [if_pos hgood, if_neg hgood]
    rfl

end
end
end

theorem fwStageRing_reserved {d : Nat} {read : HRead} {x : ImageSet}
    (h : fld d 64 64 % 64 ≠ 0 ∨ fld d 128 32 < 4096 ∨ 201326592 < fld d 128 32) : fwStageRing r d read x s = bad s 0x06 := if_pos h

/-- A legal FW_STAGE whose set was read stages it after its record (R562, R565). -/
theorem fwStageRing_logged {d : Nat} {read : HRead} {x : ImageSet} {bs : List Byte}
    (hfields : fld d 64 64 % 64 = 0 ∧ 4096 ≤ fld d 128 32 ∧ fld d 128 32 ≤ 201326592)
    (hread : rdHost s r (fld d 128 32) read = (0, bs)) (halone : contradicted s r 0x42 0 (1 + x.version * 4) = none)
    (haudit : auditRec (noteDone s r 0x42 0 (1 + x.version * 4)) 0x4201 2 r
      (stageEff x (noteDone s r 0x42 0 (1 + x.version * 4))).2.1 0 = some t) :
    fwStageRing r d read x s = ofAnswer (stageEff x t) := by
  have legal : ¬ (fld d 64 64 % 64 ≠ 0 ∨ fld d 128 32 < 4096 ∨ 192 * 2 ^ 20 < fld d 128 32) := by omega
  simp only [fwStageRing, if_neg legal, hread, ne_eq, not_true_eq_false, if_false]
  exact fwCmd_logged halone haudit

section
variable {d : Nat} {ref : DRef} (halone : contradicted s r 0x42 0 (2 + b2n (bitAt d 160) * 4) = none)
include halone

/-- An FW_ACTIVATE that passes its checks, before and after its record, waits for its end (R566). -/
theorem fwActivateRing_begins
    (hcheck : (activateEff (.ring ref) (bitAt d 160) (noteDone s r 0x42 0 (2 + b2n (bitAt d 160) * 4))).2 = none)
    (haudit : auditRec (noteDone s r 0x42 0 (2 + b2n (bitAt d 160) * 4)) 0x4202 2 r 0 0 = some t)
    (heff : activateEff (.ring ref) (bitAt d 160) t = (v, none)) : fwActivateRing r d ref s = later v := by
  refine (fwCmd_logged (op := 2) (t := t) halone ?_).trans ?_
  · simp only [hcheck]
    exact haudit
  · simp only [heff]

/-- An FW_ACTIVATE that fails a check is entered in the log with its status (R562, R566). -/
theorem fwActivateRing_fails {st st' : Nat}
    (hcheck : (activateEff (.ring ref) (bitAt d 160) (noteDone s r 0x42 0 (2 + b2n (bitAt d 160) * 4))).2 = some st)
    (haudit : auditRec (noteDone s r 0x42 0 (2 + b2n (bitAt d 160) * 4)) 0x4202 2 r st 0 = some t)
    (heff : activateEff (.ring ref) (bitAt d 160) t = (v, some st')) : fwActivateRing r d ref s = bad v st' := by
  refine (fwCmd_logged (op := 2) (t := t) halone ?_).trans ?_
  · simp only [hcheck]
    exact haudit
  · simp only [heff]

end

theorem confirmEff_during (h : t.trust.act.isSome = true) : confirmEff t = aBad t 0x83 := if_pos h

/-- FW_CONFIRM ends the trial and raises the lowest security version to the active set's (R567). -/
theorem confirmEff_ends {sec : Nat} (h : t.trust.act = none)
    (hsec : sec = (setIn t t.trust.activeSet).elim t.trust.minSecurity (fun x => max t.trust.minSecurity x.security)) :
    confirmEff t = (t.modTrust (fun y => { y with trial := false, attempts := 0, trying := false, minSecurity := sec }), 0,
      natLE 8 (sec % 2 ^ 16)) := by
  simp only [confirmEff, h, Option.isSome_none, Bool.false_eq_true, if_false, ← hsec]

end

/-! ### Attestation and the audit log (R561, R563, R564, R568) -/

section
variable {s t : State} {nonce : List Byte}

/-- With a leaf left, the report and its signature with that leaf (R564). -/
theorem attestEff_signs {q : Nat} (hleaf : takeLeaf s = (t, some q)) :
    attestEff nonce s = (t, 0, reportBody s nonce q ++ deviceSig q (reportBody s nonce q)) := by
  simp only [attestEff, hleaf]

theorem attestEff_exhausted (hleaf : takeLeaf s = (t, none)) : attestEff nonce s = aBad t 0x85 := by
  simp only [attestEff, hleaf]

section
variable {r d : Nat}

theorem attestRing_signs {q : Nat} {bs : List Byte} (haddr : fld d 64 64 % 64 = 0) (hleaf : takeLeaf s = (t, some q))
    (hbs : bs = reportBody s (natLE 32 (fld d 256 256)) q) :
    attestRing r d s = okR (hostWrite t r (fld d 64 64) (bs ++ deviceSig q bs)) (bs ++ deviceSig q bs).length := by
  subst hbs
  simp only [attestRing, haddr, attestEff_signs hleaf, ne_eq, not_true_eq_false, if_false]

theorem attestRing_exhausted (haddr : fld d 64 64 % 64 = 0) (hleaf : takeLeaf s = (t, none)) : attestRing r d s = bad t 0x85 := by
  simp [attestRing, haddr, attestEff_exhausted hleaf, aBad]

section
variable {first n : Nat} (haddr : fld d 64 64 % 64 = 0) (hfirst : first = fld d 192 64) (hn : n = fld d 128 32)
include haddr hfirst hn

/-- An AUDIT_READ ends with the status of its effect, or writes the records and reports how many (R563). -/
theorem auditReadRing_ends : auditReadRing r d s =
    if (auditReadEff first n s).2.1 ≠ 0 then bad (auditReadEff first n s).1 (auditReadEff first n s).2.1
    else okR (hostWrite (auditReadEff first n s).1 r (fld d 64 64) (auditReadEff first n s).2.2) ((auditReadEff first n s).2.2.length / 64) := by
  subst hfirst hn
  exact if_neg (not_not.2 haddr)

theorem auditReadRing_bad_count (h : n = 0 ∨ 4096 < n) : auditReadRing r d s = bad s 0x06 := by
  have eff : auditReadEff first n s = aBad s 0x06 := if_pos h
  rw [auditReadRing_ends haddr hfirst hn, eff]
  rfl

section
variable (h1 : 1 ≤ n) (h2 : n ≤ 4096)
include h1 h2

theorem auditReadRing_overwritten (h : first < oldestSeq s.trust.seq) : auditReadRing r d s = bad s 0x86 := by
  have eff : auditReadEff first n s = aBad s 0x86 := by rw [auditReadEff, if_neg (by omega), if_pos h]
  rw [auditReadRing_ends haddr hfirst hn, eff]
  rfl

theorem auditReadRing_reads {bs : List Byte} (h : oldestSeq s.trust.seq ≤ first)
    (hbs : bs = (List.range (min n (s.trust.seq - first))).flatMap (fun k => recordBytes (mget s.trust.records (first + k) {}))) :
    auditReadRing r d s = okR (hostWrite s r (fld d 64 64) bs) (bs.length / 64) := by
  have eff : auditReadEff first n s = (s, 0, bs) := by rw [auditReadEff, if_neg (by omega), if_neg (by omega), hbs]
  rw [auditReadRing_ends haddr hfirst hn, eff]
  rfl

end
end
end
end

/-! ### Commands of a session (R556) -/

/-- A COMMAND of kinds 8 and 9 with the operation that its command stands for waits for the next commit tick (R556). -/
theorem queueCmd_operation {s : State} {n code sub : Nat} {msg body : List Byte} {k : Session} (image : ImageSet)
    (hk : oget s.trust.sessions n = some k) (hm : openMsg s n msg = some (0x10, body)) (hc : leNat (body.take 1) = code)
    (hlen : body.length ≠ 1) (hsub : leNat (sliceB body 1 1) = sub) :
    queueCmd n code (some sub) msg image s = (heard s n).modTrust (fun t => { t with
      cmds := t.cmds ++ [{ session := n, role := ((heard s n).session n).role, code := code, body := body.drop 1, image := { image with factory := false } }] }) := by
  simp [queueCmd, onMsg_passes hk hm, hc, hlen, hsub]

/-! ### The replacement of components, and faults of the flash (R239, R551, R566) -/

/-- The component that an image describes. -/
def imageComp (y : ImageComp) : Comp :=
  { version := y.version, handoff := y.handoff, digest := y.digest, code := y.code, data := y.data, regions := y.regions, evec := y.evec }

section
variable {s : State} {a : Activation} (hact : s.trust.act = some a) (hrepl : s.fw.repl = none) (hup : activeUp s = true)
  (hcur : a.cur = none) (hgood : a.failed = false)
include hact hrepl hup hcur hgood

/-- With no component in hand the first that is still to do is replaced. -/
theorem doReplace_begins {c : Nat} {rest : List Nat} {x : ImageSet} {y : ImageComp} (htodo : a.todo = c :: rest)
    (hset : setIn s s.trust.activeSet = some x) (hcomp : x.comps.find? (fun j => j.id == c) = some y) :
    doReplace s = beginReplace (s.modTrust (fun t => { t with act := some a })) c (imageComp y) := by
  have same_set : setIn (s.modTrust (fun t => { t with act := some a })) (s.modTrust (fun t => { t with act := some a })).trust.activeSet
      = some x := hset
  simp only [doReplace, hact, hrepl, hup, settleReplace, hcur, hgood, htodo, same_set, hcomp, Option.isSome_none, Bool.false_eq_true,
    Bool.true_eq_false, or_self, if_false]
  rfl

/-- After the last component the activation ends. -/
theorem doReplace_finishes (htodo : a.todo = []) :
    doReplace s = finishActivation (s.modTrust (fun t => { t with act := some a })) a := by
  simp only [doReplace, hact, hrepl, hup, settleReplace, hcur, hgood, htodo, Option.isSome_none, Bool.false_eq_true,
    Bool.true_eq_false, or_self, if_false]

end

theorem doFlashFault_marks {s : State} {k : Nat} (hk : k < 2) (hserves : s.trust.flashBad.contains k = false) :
    doFlashFault k s = postTrust (s.modTrust (fun t =>
      { t with flashBad := k :: t.flashBad, staged := t.staged && k == t.activeSet })) 0x4206 k :=
  if_neg (not_or.2 ⟨Nat.not_le.2 hk, Bool.eq_false_iff.1 hserves⟩)

/-! ### The obligation -/

section
variable {s t : State} {r i : Nat} {e : Fetched} {status result spec : Nat}

/-- An FW_STAGE of a ring pair that starts ends at once, in the state that its effect leaves. -/
theorem fwStage_completes {read : HRead} {x : ImageSet} (h : Starts s r i 0x42 0x01 e) (hfirst : outranked s r i = false)
    (heff : fwStageRing r e.desc.toNat read x (begun s r i e) = (t, some (status, result, spec))) :
    exec (.fwStage (.ring r i) read x) s = .next (finish t (refOf r i e) status result spec) := by
  simp only [exec_fwStage, execFwStage, inRankOrder_first hfirst]
  exact onDesc_completes h heff

/-- An FW_CONFIRM of a ring pair that starts ends at once, in the state that its effect leaves. -/
theorem fwConfirm_completes (h : Starts s r i 0x42 0x03 e) (hfirst : outranked s r i = false)
    (heff : fwCmd (begun s r i e) r 3 3 (fun s => ofAnswer (confirmEff s)) = (t, some (status, result, spec))) :
    exec (.fwConfirm (.ring r i)) s = .next (finish t (refOf r i e) status result spec) := by
  simp only [exec_fwConfirm, execFwConfirm, inRankOrder_first hfirst]
  exact onDesc_completes h heff

end

/-- Settles O55: a firmware command acts after its record, by `fwCmd_logged`; a session's COMMAND waits for the tick, by
`queueCmd_operation`. -/
theorem firmwareAttestationAndAudit : Obligations.FirmwareAttestationAndAudit := by
  refine ⟨?stage, ?stageReserved, ?activate, ?activateFails, ?confirm, ?attest, ?doe, ?auditRead, ?session, ?replace, ?finished, ?flash⟩
  case stage =>
    rintro r i read x bs e s u t h hfields hread ⟨hfirst, halone, rfl⟩ haudit
    have logged := fwStageRing_logged hfields ((begun_rdHost h.1 ..).trans hread) halone haudit
    refine ⟨fun hact => ?_, fun hact hdevice => ?_, fun hact hdevice hmagic => ?_, fun st hact hdevice hmagic hst => ?_⟩
    · exact fwStage_completes h hfirst (logged.trans (congrArg ofAnswer (stageEff_during hact)))
    · exact fwStage_completes h hfirst (logged.trans (congrArg ofAnswer (stageEff_no_device hact hdevice)))
    · exact fwStage_completes h hfirst (logged.trans (congrArg ofAnswer (stageEff_bad_magic hact hdevice hmagic)))
    · exact fwStage_completes h hfirst (logged.trans (stageEff_writes hact hdevice hmagic hst))
  case stageReserved =>
    intro r i read x e s h hfirst hbad
    exact fwStage_completes h hfirst (fwStageRing_reserved hbad)
  case activate =>
    rintro r i e s u t v h ⟨hfirst, halone, rfl⟩ ⟨hcheck, haudit⟩ heff
    simp only [exec_fwActivate, execFwActivate, inRankOrder_first hfirst, onDesc_starts h,
      fwActivateRing_begins halone hcheck haudit heff, answered_later]
  case activateFails =>
    rintro r i st st' e s u t v h ⟨hfirst, halone, rfl⟩ ⟨hcheck, haudit⟩ heff
    simp only [exec_fwActivate, execFwActivate, inRankOrder_first hfirst, onDesc_starts h,
      fwActivateRing_fails halone hcheck haudit heff]
    rfl
  case confirm =>
    rintro r i e s u t h ⟨hfirst, halone, rfl⟩ haudit
    have logged : fwCmd (begun s r i e) r 3 3 (fun s => ofAnswer (confirmEff s)) = ofAnswer (confirmEff t) := fwCmd_logged halone haudit
    exact ⟨fun hact => fwConfirm_completes h hfirst (logged.trans (congrArg ofAnswer (confirmEff_during hact))),
      fun sec hact hsec => fwConfirm_completes h hfirst (logged.trans (congrArg ofAnswer (confirmEff_ends hact hsec)))⟩
  case attest =>
    intro r i e s t h haddr
    exact ⟨fun q bs hleaf hbs => onDesc_completes h (attestRing_signs haddr hleaf hbs),
      fun hleaf => onDesc_completes h (attestRing_exhausted haddr hleaf)⟩
  case doe =>
    rintro fn q nonce bs s t hready ⟨hleaf, rfl⟩
    simp only [exec_attest, execAttest, if_pos hready, attestEff_signs hleaf]
  case auditRead =>
    rintro r i first n e s h ⟨haddr, hfirst, hn⟩
    exact ⟨fun hbad => onDesc_completes h (auditReadRing_bad_count haddr hfirst hn hbad),
      fun h1 h2 hold => onDesc_completes h (auditReadRing_overwritten haddr hfirst hn h1 h2 hold),
      fun bs h1 h2 hold hbs => onDesc_completes h (auditReadRing_reads haddr hfirst hn h1 h2 hold hbs)⟩
  case session =>
    rintro n code sub c x msg body k s u ⟨hfree, hk, hm⟩ ⟨hc, hlen, hsub⟩ rfl hcmd
    have queued := queueCmd_operation (msg := msg) x hk hm hc hlen hsub
    simp only [List.mem_cons, Prod.mk.injEq, List.not_mem_nil, or_false] at hcmd
    obtain ⟨rfl, rfl, rfl, -⟩ | ⟨rfl, rfl, rfl, rfl⟩ | ⟨rfl, rfl, rfl, rfl⟩ | ⟨rfl, rfl, rfl, rfl⟩ | ⟨rfl, rfl, rfl, rfl⟩ := hcmd <;>
      exact congrArg Host.Outcome.next ((gatedS_of_free hfree _ _).trans queued)
  case replace =>
    rintro c rest a x y s ⟨hact, hrepl, hup⟩ ⟨hcur, hgood, htodo⟩ ⟨hset, hcomp⟩
    exact congrArg Host.Outcome.next (doReplace_begins hact hrepl hup hcur hgood htodo hset hcomp)
  case finished =>
    rintro a s ⟨hact, hrepl, hup⟩ ⟨hcur, hgood, htodo⟩
    exact congrArg Host.Outcome.next (doReplace_finishes hact hrepl hup hcur hgood htodo)
  case flash =>
    rintro k s ⟨hk, hserves⟩
    exact congrArg Host.Outcome.next (doFlashFault_marks hk hserves)

end Sys2Proof.Machine


/-! # Check values, monitors and the weather feed (chapter 18): arming and the end of a window, samples, the buffers of a feed
ring, and the statement about them -/

namespace Sys2Proof.Machine

/-! ### Check-value units (R571, R574, R575) -/

section
variable {s : State} {r n v : Nat}

section
variable (hpf1 : isPf1 r = true) (hpres : present s r = true)
include hpf1 hpres

theorem cvReg_owner {owner : Nat} (hown : owner = r) (act : State → State) : cvReg s r owner act = act s := by
  simp [cvReg, hpf1, hpres, hown]

/-- The other PF1's write is counted (R34). -/
theorem cvReg_other {owner : Nat} (hown : owner ≠ r) (act : State → State) :
    cvReg s r owner act = s.modFn r (fun f => { f with roleDenied := satAdd 32 f.roleDenied 1 }) := by
  simp [cvReg, hpf1, hpres, hown]

section
variable (hn : n < 32)
include hn

section
variable (hown : cvOwner n = r) (hctrl : ctrlOk v = true)
include hown hctrl

theorem doArm_bad_tap (htap : tapOk s r (fld v 0 3) (s.cv n).sel = false) :
    doArm r n v s = s.modCv n (fun u => { u with badTap := true }) := by
  rw [doArm, if_neg (Nat.not_le.2 hn), cvReg_owner hpf1 hpres hown]
  simp only [hctrl, htap, Bool.not_true, Bool.not_false, Bool.false_eq_true, if_false, if_true]

/-- Arming aborts the window in progress and begins another (R574, R575). -/
theorem doArm_arms (htap : tapOk s r (fld v 0 3) (s.cv n).sel = true) :
    doArm r n v s = (cvAbort n s).modCv n (fun u => { u with
      tap := fld v 0 3, poly := fld v 3 2, mode := fld v 5 2, armed := true, stopped := false, progress := 0, taken := []
      skip := underWay s (fld v 0 3) u.sel }) := by
  rw [doArm, if_neg (Nat.not_le.2 hn), cvReg_owner hpf1 hpres hown]
  simp only [hctrl, htap, Bool.not_true, Bool.false_eq_true, if_false]

theorem doDisarm_disarms :
    doDisarm r n v s = (cvEnd n s).modCv n (fun u => { u with
      tap := fld v 0 3, poly := fld v 3 2, mode := fld v 5 2, armed := false, progress := 0, taken := [] }) := by
  rw [doDisarm, if_neg (Nat.not_le.2 hn), cvReg_owner hpf1 hpres hown]
  simp only [hctrl, Bool.not_true, Bool.false_eq_true, if_false]

end

section
variable (hown : cvOwner n ≠ r)
include hown

theorem doArm_other : doArm r n v s = s.modFn r (fun f => { f with roleDenied := satAdd 32 f.roleDenied 1 }) :=
  (if_neg (Nat.not_le.2 hn)).trans (cvReg_other hpf1 hpres hown _)

theorem doDisarm_other : doDisarm r n v s = s.modFn r (fun f => { f with roleDenied := satAdd 32 f.roleDenied 1 }) :=
  (if_neg (Nat.not_le.2 hn)).trans (cvReg_other hpf1 hpres hown _)

end
end
end

/-- A window that is not complete does not end. -/
theorem cvEnd_incomplete (h : (s.cv n).progress < (s.cv n).window) : cvEnd n s = s := if_pos (.inr (.inr (.inr h)))

section
variable {u : CvUnit} (hu : s.cv n = u) (harmed : u.armed = true) (hruns : u.stopped = false)
include hu harmed hruns

/-- A complete window latches its check value and counts; a mismatch is posted, and stops the unit in mode 2 (R574). -/
theorem cvEnd_complete {miss : Bool} {t : State} (hwin : 0 < u.window) (hfull : u.window ≤ u.progress)
    (hv : v = checkValue u.poly u.taken) (hmiss : miss = ((u.mode == 1 || u.mode == 2) && v != u.expect))
    (ht : t = s.modCv n (fun u => { u with
      last := v, windows := satAdd 32 u.windows 1, progress := 0, taken := []
      mismatches := if miss then satAdd 32 u.mismatches 1 else u.mismatches, stopped := miss && u.mode == 2 })) :
    cvEnd n s = checkRecord (if miss then postEvent t (cvOwner n) 0x4301 n v else t) n v u.expect miss false := by
  have complete : ¬ (u.armed = false ∨ u.stopped = true ∨ u.window = 0 ∨ u.progress < u.window) := by
    simp only [harmed, hruns, Bool.true_eq_false, Bool.false_eq_true, false_or]
    omega
  subst hu ht hmiss hv
  exact if_neg complete

/-- An aborted window latches nothing and is recorded (R575). -/
theorem cvAbort_partial (hsome : 0 < u.progress) (hpart : u.progress < u.window) :
    cvAbort n s = checkRecord (postEvent (s.modCv n (fun u => { u with aborted := true, progress := 0, taken := [] }))
      (cvOwner n) 0x4302 n u.progress) n 0 u.expect false true := by
  subst hu
  have in_progress : ¬ ((s.cv n).armed = false ∨ (s.cv n).stopped = true ∨ (s.cv n).progress = 0) := by
    simp only [harmed, hruns, Bool.true_eq_false, Bool.false_eq_true, false_or]
    omega
  simp only [cvAbort, cvEnd_incomplete hpart, if_neg in_progress]

end
end

/-! ### Samples (R576, R577, R579) -/

/-- A monitor of a core or of memory reads at its time, sets the next, and takes what it read (R576). -/
theorem doSample_takes {s u w : State} {k : Nat} {read : HRead} {m : AliveMon} {x : Option Nat} (hk : k < 64) (hm : s.mon k = m)
    (hon : m.enable = true) (hsrc : m.source = 1 ∨ m.source = 2) (hu : u = advanceTo s m.nextAt)
    (hread : amRead (u.modMon k (fun m => { m with nextAt := u.vcycle + m.period * 400 })) k read = (w, x)) :
    doSample k read s = amTake k x (m.source == 1 && coreQuiet s m.core) w := by
  subst hm hu
  have samples : ¬ (64 ≤ k ∨ (s.mon k).enable = false ∨ ((s.mon k).source ≠ 1 ∧ (s.mon k).source ≠ 2)) := by
    simp only [hon, Bool.true_eq_false, false_or]
    omega
  simp only [doSample, if_neg samples, usCycles, hread]

/-- The records of one sampled type (R579). -/
def sampleType (type : Nat) (xs : List Nat) (s : State) : State :=
  match type with
  | 1 => samplePower s xs
  | 2 => (List.range 108).foldl (fun s d => sampleDomain s d (lget xs d 0)) s
  | 3 => (List.range 8).foldl samplePort s
  | 4 => (List.range 64).foldl sampleIf s
  | 5 => (List.range 8).foldl (fun s n => sampleStack s n (lget xs n 0)) s
  | _ => (List.range 12).foldl sampleSum s

/-- A sampled type emits its records when its interval has passed since the last. -/
theorem doWfSample_samples {s t u : State} {type ms : Nat} (xs : List Nat) (h1 : 1 ≤ type) (h6 : type ≤ 6)
    (hms : ms = mget s.wx.intervals type 1000) (hon : ms ≠ 0) (ht : t = advanceTo s (mget s.wx.sampledAt type 0 + ms * 400000))
    (hu : u = t.modWx (fun w => { w with sampledAt := mset w.sampledAt type t.vcycle 0 })) :
    doWfSample type xs s = sampleType type xs u := by
  subst hu ht hms
  have samples : ¬ (type = 0 ∨ 6 < type ∨ mget s.wx.intervals type 1000 = 0) := by omega
  exact if_neg samples

/-! ### The feed ring (R582) -/

section
variable {s : State} {r i d : Nat} {ref : DRef}

theorem feedBufferEff_other_ring (hring : feedRing s r ≠ some i) : feedBufferEff r i d ref s = bad s 0x80 := if_pos hring

theorem feedFlushEff_other_ring (hring : feedRing s r ≠ some i) : feedFlushEff r i s = bad s 0x80 := if_pos hring

section
variable (hring : feedRing s r = some i)
include hring

theorem feedBufferEff_bad_fields
    (h : fld d 64 64 % 64 ≠ 0 ∨ fld d 128 32 < 4096 ∨ 1048576 < fld d 128 32 ∨ fld d 128 32 % 64 ≠ 0) :
    feedBufferEff r i d ref s = bad s 0x06 :=
  (if_neg (not_not.2 hring)).trans (if_pos h)

/-- With legal fields the buffer joins the posted ones and takes what waits, unless no core makes the feed. -/
theorem feedBufferEff_legal
    (hfields : fld d 64 64 % 64 = 0 ∧ 4096 ≤ fld d 128 32 ∧ fld d 128 32 ≤ 1048576 ∧ fld d 128 32 % 64 = 0) :
    feedBufferEff r i d ref s = if feedDown s r then bad s 0x0B
      else later (pumpFeed 20000 (s.modPath r (fun p =>
        { p with bufs := p.bufs ++ [{ ref := ref, addr := fld d 64 64, length := fld d 128 32 }] })) r) := by
  have legal : ¬ (fld d 64 64 % 64 ≠ 0 ∨ fld d 128 32 < 4096 ∨ 2 ^ 20 < fld d 128 32 ∨ fld d 128 32 % 64 ≠ 0) := by omega
  exact (if_neg (not_not.2 hring)).trans (if_neg legal)

theorem feedFlushEff_down (hdown : feedDown s r = true) : feedFlushEff r i s = bad s 0x0B :=
  (if_neg (not_not.2 hring)).trans (if_pos hdown)

section
variable (hup : feedDown s r = false)
include hup

theorem feedFlushEff_empty (hnone : (s.path r).bufs.find? (fun b => b.ref.ring == i && b.records != 0) = none) :
    feedFlushEff r i s = ok0 s := by
  simp only [feedFlushEff, hring, hup, hnone, ne_eq, not_true_eq_false, Bool.false_eq_true, if_false]

theorem feedFlushEff_filling {b : FeedBuf} (hbuf : (s.path r).bufs.find? (fun b => b.ref.ring == i && b.records != 0) = some b) :
    feedFlushEff r i s = okR (endBuf s r b) (b.bytes + b.records * 2 ^ 32) := by
  simp only [feedFlushEff, hring, hup, hbuf, ne_eq, not_true_eq_false, Bool.false_eq_true, if_false]

end
end

theorem doFlushTimeout_ends {b : FeedBuf} (hbuf : (s.path r).bufs.find? (fun b => b.records != 0) = some b)
    (hms : (s.path r).flushMs ≠ 0) :
    doFlushTimeout r s = endBuf (advanceTo s (b.since + (s.path r).flushMs * 400000)) r b := by
  simp only [doFlushTimeout, hbuf, if_neg hms, msCycles]

end

/-! ### The obligation -/

/-- Settles O56: the lemmas on the units, the monitors, the sampled types and the feed ring, case by case. -/
theorem checkValuesMonitorsAndFeed : Obligations.CheckValuesMonitorsAndFeed := by
  refine ⟨?arm, ?other, ?disarm, ?windowEnd, ?windowAbort, ?monitor, ?sampled, ?buffer, ?flush, ?flushTimeout, ?pps⟩
  case arm =>
    rintro fn n ctrl s ⟨hfree, hpf1, hpres, hn, hown, hctrl⟩
    exact ⟨fun htap => congrArg Host.Outcome.next ((gated_of_free hfree _ _).trans (doArm_bad_tap hpf1 hpres hn hown hctrl htap)),
      fun htap => congrArg Host.Outcome.next ((gated_of_free hfree _ _).trans (doArm_arms hpf1 hpres hn hown hctrl htap))⟩
  case other =>
    rintro fn n ctrl s ⟨hfree, hpf1, hpres, hn, hown⟩
    exact ⟨congrArg Host.Outcome.next ((gated_of_free hfree _ _).trans (doArm_other hpf1 hpres hn hown)),
      congrArg Host.Outcome.next ((gated_of_free hfree _ _).trans (doDisarm_other hpf1 hpres hn hown))⟩
  case disarm =>
    rintro fn n ctrl s ⟨hfree, hpf1, hpres, hn, hown, hctrl⟩
    exact congrArg Host.Outcome.next ((gated_of_free hfree _ _).trans (doDisarm_disarms hpf1 hpres hn hown hctrl))
  case windowEnd =>
    rintro n v u miss s t ⟨hn, hu, harmed, hruns, hwin, hfull⟩ ⟨hv, hmiss⟩ ht
    have ends : exec (.cvWindowEnd n) s = .next (checkRecord (if miss then postEvent t (cvOwner n) 0x4301 n v else t) n v u.expect miss false) :=
      congrArg Host.Outcome.next ((if_pos hn).trans (cvEnd_complete hu harmed hruns hwin hfull hv hmiss ht))
    refine ⟨fun hmatch => ?_, fun hmatch => ?_⟩
    · rw [ends, hmatch, if_neg Bool.false_ne_true]
    · rw [ends, hmatch, if_pos rfl]
  case windowAbort =>
    rintro n u s ⟨hn, hu, harmed, hruns, hsome, hpart⟩
    exact congrArg Host.Outcome.next ((if_pos hn).trans (cvAbort_partial hu harmed hruns hsome hpart))
  case monitor =>
    rintro k read m s u w x ⟨hk, hm, hon, hsrc⟩ hu hread
    exact congrArg Host.Outcome.next (doSample_takes hk hm hon hsrc hu hread)
  case sampled =>
    rintro type ms xs s t u ⟨h1, h6, hms, hon⟩ ht hu
    have samples : exec (.wfSample type xs) s = .next (sampleType type xs u) :=
      congrArg Host.Outcome.next (doWfSample_samples xs h1 h6 hms hon ht hu)
    refine ⟨?_, ?_, ?_, ?_, ?_, ?_⟩
    all_goals
      intro htype
      rw [samples, htype]
      rfl
  case buffer =>
    intro r i e s h
    refine ⟨fun hring => ?_, fun hring hbad => ?_, fun hring haddr hlo hhi hmod hdown => ?_, fun hring haddr hlo hhi hmod hup => ?_⟩
    · exact onDesc_completes h (feedBufferEff_other_ring hring)
    · exact onDesc_completes h (feedBufferEff_bad_fields hring hbad)
    · exact onDesc_completes h ((feedBufferEff_legal hring ⟨haddr, hlo, hhi, hmod⟩).trans (if_pos hdown))
    · exact onDesc_waits h ((feedBufferEff_legal hring ⟨haddr, hlo, hhi, hmod⟩).trans (if_neg (Bool.eq_false_iff.1 hup)))
  case flush =>
    intro r i e s h
    refine ⟨fun hring => ?_, fun hring hdown => ?_, fun hring hup hnone => ?_, fun b hring hup hbuf => ?_⟩
    · exact onDesc_completes h (feedFlushEff_other_ring hring)
    · exact onDesc_completes h (feedFlushEff_down hring hdown)
    · exact onDesc_completes h (feedFlushEff_empty hring hup hnone)
    · exact onDesc_completes h (feedFlushEff_filling hring hup hbuf)
  case flushTimeout =>
    rintro r b s ⟨hbuf, hms⟩
    exact congrArg Host.Outcome.next (doFlushTimeout_ends hbuf hms)
  case pps =>
    intro s
    rfl

end Sys2Proof.Machine
